-- ==== Sys2Proof/Word.lean ====
section
/-! DEFINITION. The word types of the model and their plainest arithmetic (R11, R12). -/

namespace Sys2Proof

/-- One byte of a bit-stream, a message, a memory or a register string (R12). -/
abbrev Byte := BitVec 8

/-- One 32-bit register word (R12). -/
abbrev Word := BitVec 32

/-- A field of a register word: a flag takes the place `2^k` when it is set. -/
def bitAt (b : Bool) (k : Nat) : Nat := if b then 2 ^ k else 0

end Sys2Proof
end

