-- ==== Sys2Proof/Syntax.lean ====
section
/-! DEFINITION. The commands of the block (spec/opcode_table.json) and their operands. -/

namespace Sys2Proof

/-- A DMA descriptor as the firmware writes it into a register set (R486, R488). -/
structure DmaDesc where
  /-- DMA_CH_SRC -/
  src : Nat
  /-- DMA_CH_DST -/
  dst : Nat
  /-- DMA_CH_LINE_LEN -/
  lineLen : Nat
  /-- DMA_CH_LINES -/
  lines : Nat
  /-- DMA_CH_SRC_STRIDE -/
  srcStride : Nat
  /-- DMA_CH_DST_STRIDE -/
  dstStride : Nat
  /-- CTRL.CRC_WB -/
  crcWb : Bool
  /-- CTRL.CRIT -/
  crit : Bool
  deriving DecidableEq, Repr

/-- An IDENT frame (R258). -/
structure IdentFrame where
  /-- VENDOR -/
  vendor : Nat
  /-- SERIAL, 12 bytes -/
  serial : List Byte
  /-- P_MAX, 10 W -/
  pMax : Nat
  /-- FLOOR_MIN, W -/
  floorMin : Nat
  /-- SLOPE_MAX, W/us -/
  slopeMax : Nat
  /-- VERSION -/
  version : Nat
  /-- CAPS bit 0 FIXED_FREQ -/
  fixedFreqCap : Bool
  /-- CAPS bit 1 SUBCAPS -/
  subCapsCap : Bool
  deriving DecidableEq, Repr

/-- A REPORT frame (R257), its numbers as their codes. -/
structure ReportFrame where
  /-- FLAGS bit 0 THROTTLED -/
  throttled : Bool
  /-- FLAGS bit 1 FIXED_FREQ active -/
  fixedFreq : Bool
  /-- FLAGS bit 2 PRIMARY_UP -/
  primaryUp : Bool
  /-- FLAGS bit 3 SECONDARY_UP -/
  secondaryUp : Bool
  /-- FLAGS bit 4 RACK_HOLD_SEEN -/
  rackHoldSeen : Bool
  /-- FLAGS bit 5 GRANT_FROM, 1 secondary -/
  grantFrom : Bool
  /-- FLAGS bits 7:6 PHASE -/
  phase : Nat
  /-- GSEQ -/
  gseq : Nat
  /-- SAMPLE_T -/
  sampleT : Nat
  /-- P_TOTAL, W -/
  pTotal : Nat
  /-- P_COMPUTE, W -/
  pCompute : Nat
  /-- P_MEMORY, W -/
  pMemory : Nat
  /-- P_LINKS, W -/
  pLinks : Nat
  /-- ENV_IN_FORCE, 10 W -/
  envInForce : Nat
  /-- FLOOR_MIN, W -/
  floorMin : Nat
  /-- TEMP, 16-bit code -/
  temp : Nat
  /-- RSEQ -/
  rseq : Nat
  deriving DecidableEq, Repr

/-- One announced entry (R258, R266): from a tray, or one of an HCP ANNOUNCE (R379). -/
structure AnnounceEntry where
  /-- ENTRY_ID -/
  id : Nat
  /-- T, shelf time -/
  t : Nat
  /-- MASK; a tray's own frame carries none -/
  mask : Nat
  /-- DP, 32-bit code -/
  dp : Nat
  /-- DURATION, us -/
  duration : Nat
  /-- KIND -/
  kind : Nat
  /-- ROLE -/
  role : Nat
  deriving DecidableEq, Repr

/-- The throttle causes that clear by the hold of R272 alone; the others clear by a command of their own. -/
inductive ClearedCause where
  /-- Cause 1: the bus has stayed above the fast-path threshold plus 5 V -/
  | uvFastpath
  /-- Cause 2: the bus has stayed within DROOP_V of v_target -/
  | phaseLoss
  /-- Cause 3: RACK_HOLD_N has stayed high -/
  | rackHold
  /-- Cause 6 of one port: its reports have stayed within its envelope -/
  | nonCompliant (n : Fin 64)
  deriving DecidableEq, Repr

/-- What a calibration of one converter measures (R109, R111). -/
structure CalResult where
  /-- Channel, 0 to 159 -/
  ch : Nat
  /-- Offset on the scale of tick values -/
  ofs : Int
  /-- Gain, Q2.30 -/
  gain : Nat
  /-- Largest deviation of the 8 linearity points, on the scale of tick values -/
  lin : Nat
  deriving DecidableEq, Repr

/-- The means an overlap compares, on the scale of tick values, and what follows a first mismatch (R113). -/
structure OverlapMeans where
  /-- Mean of the channel's own ADC over 2 ms -/
  own : Int
  /-- Mean of the spare over the same 2 ms -/
  spare : Int
  /-- The spare's repeated self-check passes -/
  recheck : Bool
  /-- The means of the comparison that is repeated -/
  own2 : Int
  spare2 : Int
  deriving DecidableEq, Repr

/-- What a modulator calibration measures (R105, R109): shunt, offset and gain of modulators A and B. -/
structure ShuntCal where
  /-- Shunt, 0 to 3 -/
  shunt : Nat
  /-- Offset and gain of A -/
  ofsA : Int
  gainA : Nat
  /-- Offset and gain of B -/
  ofsB : Int
  gainB : Nat
  /-- A, and B, pass against the internal reference -/
  okA : Bool
  okB : Bool
  /-- 24-bit means of the tick windows since the active modulator was chosen, 190 ms after the start -/
  windows : List Int
  deriving DecidableEq, Repr

/-- What boot calibration measures (R109). A converter without an entry measures offset 0 and gain 1.0. -/
structure BootCal where
  /-- Channel ADCs -/
  channels : List CalResult
  /-- Spares, `ch` the chiplet -/
  spares : List CalResult
  /-- Shunt modulators -/
  shunts : List ShuntCal
  /-- What the demodulators of the check of R106 measure: phase, amplitude in mV, and for how many chop periods -/
  senses : List (Fin 64 × Nat × Nat)
  deriving DecidableEq, Repr

/-- One conversion of a tick window (R99 to R103). -/
structure Conv where
  /-- Channel, 0 to 163 -/
  ch : Nat
  /-- Aperture, 25 ps units after the start of the window -/
  aperture : Nat
  /-- Raw code, signed; for a shunt channel the 24-bit mean of the window -/
  raw : Int
  /-- Converted by the spare ADC -/
  spare : Bool
  deriving DecidableEq, Repr

/-- A code at the sense input of a phase, as its comparators see it (R173). -/
structure SenseIn where
  /-- Phase -/
  phase : Nat
  /-- Instant, 25 ps units after the start of the tick that ends -/
  instant : Nat
  /-- Code, 1 mV per LSB, signed -/
  code : Int
  deriving DecidableEq, Repr

/-- What meets an absent tier page (R230, R467). -/
inductive TierUnit where
  /-- A tier channel, D28 to D31 -/
  | dma (n : Fin 32)
  /-- A load unit that copies weights of a forecast instance -/
  | load (i : Fin 10)
  deriving DecidableEq, Repr

/-- A reply block as it arrives on a cell chain (R299): header, payload and CRC-8; 29 bytes of a sweep, 11 of a temperature read,
6 of a status word, 40 of a DIAG, 3 of an answer of one byte. -/
structure ChainBlock where
  /-- The node, 1 to 16, whose place in the train it has -/
  node : Nat
  /-- Header, payload and CRC -/
  bytes : List Byte
  deriving DecidableEq, Repr

/-- A gap transaction (R310). -/
inductive GapOp where
  /-- BAL of node N01 to N16, from 0 -/
  | bal (n : Fin 16)
  | slot
  /-- DIAG and CONFIG of a node, from 0 -/
  | diag (n : Fin 16)
  | config (n : Fin 16)
  /-- PROBE with its ADDR -/
  | probe (n : Fin 17)
  deriving DecidableEq, Repr

/-- What Basalt's monitor converters read (R410). -/
structure BasaltSense where
  /-- Bus voltage of each group's VBUS_CH, mV -/
  vBus : Vector Int 4
  /-- String voltage of each group's VSTR_CH, mV -/
  vStr : Vector Int 4
  deriving DecidableEq, Repr

/-- What a tick takes from outside the fabric (R99, R100, R140). -/
structure TickInputs where
  /-- The conversions of the window that the tick latches -/
  convs : List Conv
  /-- The codes at the phases' sense inputs during the tick that ends, in order of time -/
  sense : List SenseIn
  /-- AUX54_IN and STBY12_IN, mV, and the module's input power, W, as measured (R56) -/
  aux54 : Int
  stby12 : Int
  inputP : Int
  /-- SVC_PRESENT_N is low (R55) -/
  svcLow : Bool
  /-- Edges are present on SYNC_IN (R53) -/
  syncEdges : Bool
  /-- A 10 MHz signal is present on REF_IN, and the crystal oscillates within its tolerance (R53) -/
  refIn : Bool
  xtal : Bool
  /-- Block lock on EAST and on WEST of the row ring (R400) -/
  eastLock : Bool
  westLock : Bool
  /-- The die temperature, 0.01 C (R432) -/
  dieT : Int
  /-- Fabric cycles after which the evaluations of the tick complete (R140) -/
  evalCycles : Nat
  deriving DecidableEq, Repr

/-- What the boundary-scan TAP may be asked to load: the instructions R46 names, and a debug instruction of the
lifecycle rule (R446). -/
inductive TapInstr where
  | bypass | idcode | samplePreload | extest | clamp | debug
  deriving DecidableEq, Repr

/-- A STATUS frame's content (R390). -/
structure RowStatus where
  /-- STATE code -/
  state : Nat
  /-- FLAGS START_REQ, LEAD, OVERLOAD, PTP_LOCK, ORPHAN, BOUNDARY -/
  startReq : Bool
  lead : Bool
  overload : Bool
  ptpLock : Bool
  orphan : Bool
  boundary : Bool
  /-- CLOCK_CLASS, OFFER, WANT, MIN, PLIM, GRID_REQ, PSU_CAP -/
  clockClass : Nat
  offer : Nat
  want : Nat
  min : Nat
  plim : Nat
  gridReq : Nat
  psuCap : Nat
  deriving DecidableEq, Repr

/-- The header of an inner message, as the firmware serves it (R375). -/
structure MsgHdr where
  /-- Session -/
  sess : Fin 64
  /-- REQ_ID -/
  reqId : BitVec 32
  /-- VALID_UNTIL, 0 for none -/
  validUntil : BitVec 64
  deriving DecidableEq, Repr

/-- The Ethernet frame that something comes in (R362, R364). -/
structure FramePath where
  /-- Destination address, an EUI-48 -/
  mac : Nat
  /-- VID of its IEEE 802.1Q tag, where it carries one -/
  vid : Option Nat
  /-- Neither an IP fragment nor a datagram with IPv6 extension headers -/
  plain : Bool
  /-- Length of the frame, bytes -/
  size : Nat
  /-- The secure channel under whose MACsec protection it comes, where that protection is valid -/
  sci : Option (BitVec 64)
  deriving DecidableEq, Repr

/-- An HCP datagram as it arrives at HCP_UDP_PORT (R369, R371). -/
structure Datagram where
  /-- The frame it comes in -/
  path : FramePath
  /-- Peer IPv6 address, 16 bytes, and UDP port -/
  peer : List Byte
  port : BitVec 16
  /-- The module's address it came to: 0 link-local, 1 the global IPv6 address, 2 the IPv4 address -/
  dst : Fin 3
  /-- The datagram from its MAGIC on -/
  bytes : List Byte
  deriving DecidableEq, Repr

/-- The transports of PTP (R366). -/
inductive PtpVia where
  | udp6 | udp4 | ethernet
  deriving DecidableEq, Repr

/-- A frame as it arrives on the row ring (R389). -/
structure RowFrame where
  /-- The port it arrives on, WEST or EAST -/
  west : Bool
  /-- The whole frame, its CRC-32C with it -/
  bytes : List Byte
  deriving DecidableEq, Repr

/-- One entry of a SHARE frame (R390). -/
structure ShareEntry where
  /-- SHELF -/
  shelf : Nat
  /-- FLAGS bit 0 VALID and bit 1 START -/
  valid : Bool
  start : Bool
  /-- SHARE and ALLOW, W -/
  share : Nat
  allow : Nat
  deriving DecidableEq, Repr

/-- Where an uncorrectable codeword lies (R460). -/
inductive EccPlace where
  /-- Active configuration or control state in SRAM -/
  | config
  /-- Basalt image -/
  | basaltImage
  /-- SRAM copy of the weights, or state or work region, of a forecast instance -/
  | forecastWeights (inst : Fin 10)
  | forecastState (inst : Fin 10)
  /-- Record of a loop capture buffer, by slot, counted from the newest -/
  | loopCapture (slot : Fin 64) (age : Nat)
  /-- Block of the capture ring and page of the history, counted from the newest -/
  | captureBlock (age : Nat)
  | historyPage (age : Nat)
  /-- Event record of the HBM (0), first (1) or recent (2) area, by place in the model's list of it -/
  | eventRecord (area : Fin 3) (k : Nat)
  /-- Spilled entry of a queue: the message it belongs to, by place in the queue -/
  | queueSpill (q : Fin 16) (k : Nat)
  /-- Frame of the tier pool that holds a page, with the bursts the channels at work on it have moved -/
  | tierFrame (page : Nat) (moved : List (Fin 32 × Nat))
  /-- Bit-stream slot A or B, or firmware slot A or B, in flash -/
  | bitstreamSlot (b : Bool)
  | firmwareSlot (b : Bool)
  /-- Source beat of a DMA channel, or an internal bus on the way of one, after further bursts -/
  | dmaBeat (ch : Fin 32) (bursts : Nat)
  | internalBus (ch : Fin 32) (bursts : Nat)
  deriving DecidableEq, Repr


/-- The commands of the block: one constructor for each row of the opcode table. An operand states what
the outside world supplies with the command: the instance, the value on a pin or in a frame, or a verdict
of a unit whose arithmetic is not the block's own (log entry 5). -/
inductive Instr where
  /-- POWER_ON (R33): MATE_N low, AUX54_IN above its rising threshold and a valid standby domain together set
  t0 and start a POWER_ON reset with fuse read and boot ROM start. `stby12`: STBY12_IN is in range. -/
  | powerOn (stby12 : Bool)
  /-- INPUT_LOSS (R34): AUX54_IN below 44 V for 10 us: GDRV_EN low, event 0x0010, loads shed and the Obsidian
  record is marked. -/
  | inputLoss
  /-- INPUT_LOSS_RECORD_CLOSE (R34): 50 ms after an input loss the writer closes the record and the module
  powers down into OFF. -/
  | inputLossRecordClose
  /-- INPUT_RETURN (R35): AUX54_IN returns during the 50 ms record, and a power-on reset follows when the
  record closes. -/
  | inputReturn
  /-- MATE_RELEASE (R44): MATE_N goes high: GDRV_EN_0-3 stay low and every group goes to OFF. -/
  | mateRelease
  /-- STBY12_LOST (R36): STBY12_IN below 10.0 V for 10 us while AUX54_IN is present sets STBY12_LOST and
  records event 0x0011. -/
  | stby12Lost
  /-- STBY12_RESTORED (R57): STBY12_IN returns within range and the module records event 0x0012. -/
  | stby12Restored
  /-- AUX54_BROWNOUT (R55): AUX54_IN falls below 46 V without an input loss; BROWNOUT is set and event 0x0014
  recorded. -/
  | aux54Brownout
  /-- HOLDUP_MEASURE (R37): At power-up and every 24 h the module measures usable hold-up energy into
  SYS_HOLDUP_E and updates HOLDUP_OK. `mJ`: the usable energy measured, mJ. -/
  | holdupMeasure (mJ : BitVec 32)
  /-- REF_IN_LOST (R39): Three missing REF_IN edges put the cleaning PLL into holdover, set REF_HOLDOVER and
  record event 0x0020. -/
  | refInLost
  /-- REF_FALLBACK (R39): Holdover reaches HOLDOVER_S and, with REF_FALLBACK 1, the cleaning PLL slews to the
  crystal with event 0x0021. -/
  | refFallback
  /-- REF_IN_RESTORED (R39): REF_IN present for 1 s; the cleaning PLL slews back to it and records event
  0x0022. -/
  | refInRestored
  /-- XTAL_FAIL (R39): The crystal stops while REF_IN is selected; XTAL_OK clears and event 0x0024 is
  recorded. -/
  | xtalFail
  /-- XTAL_OK_RESTORED (R39): XTAL_OK stays 1 for 1 s during blocked holdover and the cleaning PLL slews to
  the crystal with event 0x0021. -/
  | xtalOkRestored
  /-- ROOT_UNLOCK (R40): Loss of the reference in use or of root PLL lock stops the control fabric, the rings
  and the Obsidian frames. -/
  | rootUnlock
  /-- ROOT_RELOCK (R40): The root PLL relocks, UNLOCK_COUNT increments and the rings are woken and checked
  without RESET_ADDR. -/
  | rootRelock
  /-- SERVICE_ATTACHED (R47): SVC_PRESENT_N goes low and event 0x0030 is recorded. -/
  | serviceAttached
  /-- JTAG_INSTRUCTION (R46): An instruction loaded into the TAP is accepted or replaced by BYPASS according
  to state and lifecycle. `i`: the instruction loaded. -/
  | jtagInstruction (i : TapInstr)
  /-- SVC_UART_QUERY (R47): A status query on SVC_UART_RX is answered on the console without any command
  effect. -/
  | svcUartQuery
  /-- SVC_SPI_READ (R480): SPI READ returns MRAM data from a 4-byte address until CS rises, waiting for any
  write in progress. `a`: the address; `n`: bytes read until SVC_SPI_CS_N rises. -/
  | svcSpiRead (a : BitVec 32) (n : Nat)
  /-- SVC_SPI_IDENT (R480): SPI IDENT returns SYS_PART and SERIAL. -/
  | svcSpiIdent
  /-- SVC_SPI_STATUS (R480): SPI STATUS returns writer active, die powered and directory valid. `other`: a
  command byte that R480 does not list, and the bytes read after it, in place of STATUS. -/
  | svcSpiStatus (other : Option (BitVec 8 × Nat))
  /-- TRAY_PORTS_UP (R263): 5 ms after t0 the link hardware brings every tray port up with safe envelopes from
  the mirror, and row-ring forwarding starts. -/
  | trayPortsUp
  /-- NOT_READY_GRANT (R263): Before firmware configures the ports, the link hardware answers IDENT with
  NOT_READY grants repeated every 100 us. `n`: the tray port. -/
  | notReadyGrant (n : Fin 64)
  /-- FW_VERIFIED (R436): The boot ROM completes verification of a firmware slot and boots it, falling back to
  the other slot on failure. `keys`: the identity keys pass their self-test. -/
  | fwVerified (keys : Bool)
  /-- NET_READY (R383): Ethernet link and HBM are both up and NET_STATUS.READY sets, so sessions are served. -/
  | netReady
  /-- BOOT_CONFIG_LOAD (R87): At boot the boot slot bit-stream is checked and swapped in, or the other slot is
  tried. -/
  | bootConfigLoad
  /-- WATCHDOG (R443): The management cores miss their heartbeat for 1 s and a WATCHDOG reset follows,
  deferred in BASALT. -/
  | watchdog
  /-- TICK (R140): Every 2 us the outputs of the last tick apply, tick values latch, due slots are evaluated
  and outputs staged. `x`: what the tick takes from outside. -/
  | tick (x : TickInputs)
  /-- INTEG_RELEASED (R156): A full detector window passes with no qualifying crossing and the frozen section
  is released. `i`: the slot. -/
  | integReleased (i : Fin 64)
  /-- TEST_START (R158): An OPERATOR requests a test on a slot, refused outside RUN or while busy. `sess`: the
  HCP session that writes; `i`: the slot. -/
  | testStart (sess : Fin 64) (i : Fin 64)
  /-- TEST_STARTED (R158): At the slot's first evaluation at least 2 ticks after the request the test begins,
  with capture. `i`: the slot. -/
  | testStarted (i : Fin 64)
  /-- TEST_DONE (R158): The test completes its LENGTH evaluations and STATE reads DONE. `i`: the slot. -/
  | testDone (i : Fin 64)
  /-- TEST_STOP (R158): An OPERATOR ends a running test. `sess`: the HCP session that writes; `i`: the slot. -/
  | testStop (sess : Fin 64) (i : Fin 64)
  /-- BANK_PRIMARY (R152): An OPERATOR returns a slot to bank 0 at its next evaluation. `sess`: the HCP
  session that writes; `i`: the slot. -/
  | bankPrimary (sess : Fin 64) (i : Fin 64)
  /-- UNFREEZE (R156): An OPERATOR releases a frozen section. `sess`: the HCP session that writes; `i`: the
  slot. -/
  | unfreeze (sess : Fin 64) (i : Fin 64)
  /-- SNAPSHOT_TAKEN (R160): 1,024 records after a firing are captured and the buffer is held as a snapshot.
  `i`: the slot. -/
  | snapshotTaken (i : Fin 64)
  /-- SNAP_RELEASE (R160): An OPERATOR releases a held snapshot buffer to ring mode. `sess`: the HCP session
  that writes; `i`: the slot. -/
  | snapRelease (sess : Fin 64) (i : Fin 64)
  /-- BOOT_CAL_DONE (R109): Boot calibration completes, BOOT_CAL_DONE sets and rotation starts. `cal`: what
  the calibration measured. -/
  | bootCalDone (cal : BootCal)
  /-- SELF_CHECK (R111): A 40 ms rotation slot begins and the spare checks itself. `a`: the chiplet; `ok`: the
  spare passes its self-check. -/
  | selfCheck (a : Fin 4) (ok : Bool)
  /-- OVERLAP_IN (R111): The spare converts the channel's input in parallel and the means are compared. `a`:
  the chiplet; `m`: the means compared. -/
  | overlapIn (a : Fin 4) (m : OverlapMeans)
  /-- CALIBRATING (R111): Consumers take the channel from the spare while its own ADC is calibrated. `a`: the
  chiplet; `r`: what the calibration of the ADC measured. -/
  | calibrating (a : Fin 4) (r : CalResult)
  /-- OVERLAP_OUT (R111): The channel's ADC returns with new coefficients in parallel with the spare. `a`: the
  chiplet; `m`: the means compared. -/
  | overlapOut (a : Fin 4) (m : OverlapMeans)
  /-- SETTLE (R111): Consumers take the channel from its own ADC and the new coefficients are written. `a`:
  the chiplet. -/
  | settle (a : Fin 4)
  /-- CHANNEL_FAILED (R114): A channel ADC fails a check and the spare is assigned to replace it, or the
  channel is DEAD. `c`: the channel; `cause`: cause code of R113 less 1. -/
  | channelFailed (c : Fin 160) (cause : Fin 5)
  /-- SPARE_SUBSTITUTED (R114): At its window boundary the spare takes the failed channel's input for good.
  `a`: the chiplet. -/
  | spareSubstituted (a : Fin 4)
  /-- SPARE_FAILED (R116): The spare misses conversions or fails two self-checks; rotation stops for good.
  `a`: the chiplet. -/
  | spareFailed (a : Fin 4)
  /-- ROT_EN (R112): A write of AFE_CAL_CTRL.ROT_EN pauses rotation after the current slot or resumes it.
  `sess`: the HCP session that writes; `v`: ROT_EN. -/
  | rotEn (sess : Fin 64) (v : BitVec 4)
  /-- FAILMAP_CLR (R117): An INTEGRATOR clears the stored failure map in STANDBY. `sess`: the HCP session that
  writes. -/
  | failmapClr (sess : Fin 64)
  /-- SHUNT_MOD_CALIBRATE (R105): Every 10 s the idle shunt modulator is calibrated and starts converting in
  parallel. `i`: the shunt; `ofs`: offset measured; `gain`: gain measured, Q2.30. -/
  | shuntModCalibrate (i : Fin 4) (ofs : Int) (gain : Nat)
  /-- SHUNT_MOD_COMPARE (R105): After 1 s of parallel conversion the two charges are compared and the roles
  exchange or the modulators are checked. `i`: the shunt; `qActive`: charge of the active modulator, nC;
  `qIdle`: charge of the idle one, nC; `okA`: A passes the reference check; `okB`: B passes it. -/
  | shuntModCompare (i : Fin 4) (qActive : Int) (qIdle : Int) (okA : Bool) (okB : Bool)
  /-- SENSE_OPEN (R108): The sense-open demodulator exceeds its threshold for PERIODS chop periods and the
  phase is passed to disabling. `p`: the phase; `mv`: the amplitude at 1 MHz, mV; `periods`: the consecutive
  chop periods it has lasted. -/
  | senseOpen (p : Fin 64) (mv : Nat) (periods : Nat)
  /-- SENSE_RESTORED (R108): The amplitude falls back below threshold for PERIODS periods and the live bit
  clears. `p`: the phase; `mv`: the amplitude at 1 MHz, mV; `periods`: the consecutive chop periods it has
  lasted. -/
  | senseRestored (p : Fin 64) (mv : Nat) (periods : Nat)
  /-- GROUP_RUNNING (R186): SS_MS elapses and a group passes from SOFT_START to RUNNING. `g`: the group. -/
  | groupRunning (g : Fin 4)
  /-- GROUP_STOPPED (R186): A STOPPING group reaches zero limit and low current, or SS_MS + 10 ms, and goes
  OFF. `g`: the group. -/
  | groupStopped (g : Fin 4)
  /-- SHORT_CIRCUIT (R187): The short-circuit comparator trips and both switches of the phase turn off within
  150 ns. `p`: the phase; `code`: the code at its sense input, 1 mV per LSB; `at_`: the instant its switches
  turn off, 25 ps units after the start of the tick in progress. -/
  | shortCircuit (p : Fin 64) (code : Int) (at_ : Nat)
  /-- DRIVER_FAULT (R188): GDRV_FLT low for 100 ns turns the phase off and disables it with cause
  DRIVER_FAULT. `p`: the phase; `low`: GDRV_FLT goes low, or high again; `at_`: the instant its switches turn
  off, 25 ps units after the start of the tick in progress. -/
  | driverFault (p : Fin 64) (low : Bool) (at_ : Nat)
  /-- PHASE_OPEN (R194): OPEN_CYCLES consecutive maximum-duty cycles with low current declare PHASE_OPEN. `p`:
  the phase. -/
  | phaseOpen (p : Fin 64)
  /-- SENSE_SUSPECT (R194): A phase deviates from its share with TRIM_SAT for SUSPECT_MS and SENSE_SUSPECT is
  declared. `p`: the phase. -/
  | senseSuspect (p : Fin 64)
  /-- PHASE_DISABLED (R194): At its next cycle boundary a phase is disabled, N drops and the group
  re-interleaves. `p`: the phase. -/
  | phaseDisabled (p : Fin 64)
  /-- DISABLE_DROOP_CHECK (R194): Twenty us after a disable the bus is compared with v_target less DROOP_V,
  possibly requesting THROTTLE. `g`: the group. -/
  | disableDroopCheck (g : Fin 4)
  /-- REINTERLEAVED (R180): The fourth frame step of a re-interleave completes and a joining phase starts
  switching. `g`: the group. -/
  | reinterleaved (g : Fin 4)
  /-- DISABLE (R194): An OPERATOR disables a phase with cause OPERATOR. `sess`: the HCP session that writes;
  `p`: the phase. -/
  | disable (sess : Fin 64) (p : Fin 64)
  /-- READMIT (R196): An OPERATOR re-admits a phase whose cause has cleared. `sess`: the HCP session that
  writes; `p`: the phase. -/
  | readmit (sess : Fin 64) (p : Fin 64)
  /-- DE_ENTERED (R174): After 16 ticks of small reference, the group enters diode emulation at the cycle
  boundary. `g`: the group. -/
  | deEntered (g : Fin 4)
  /-- DE_LEFT (R174): The reference reaches DE_EXIT_MA and the group leaves diode emulation at the next cycle
  boundary. `g`: the group. -/
  | deLeft (g : Fin 4)
  /-- UV_FASTPATH (R192): The bus undervoltage comparator trips and every phase drives discharge cycles at
  PEAK_LIMIT. `g`: the group; `at_`: the instant its cycles start, 25 ps units after the start of the tick in
  progress. -/
  | uvFastpath (g : Fin 4) (at_ : Nat)
  /-- THROTTLE_REQUESTED (R192): The bus is still below the fast-path threshold 4 us after the crossing and
  the group requests THROTTLE. `g`: the group. -/
  | throttleRequested (g : Fin 4)
  /-- UV_FASTPATH_END (R192): The bus recovers or 20 us pass and the fast path ends, stepping references back.
  `g`: the group; `v`: the bus voltage at its comparator, mV. -/
  | uvFastpathEnd (g : Fin 4) (v : Int)
  /-- SYNC_SLEWING (R181): Sixteen consecutive good SYNC_IN edges move the group to SLEWING. `g`: the group;
  `period`: the period of the edges, 25 ps units. -/
  | syncSlewing (g : Fin 4) (period : Nat)
  /-- SYNC_LOCKED (R181): The frame start aligns with the edge plus offset and the group locks. `g`: the
  group; `edge`: the instant of the edge, 25 ps units from reset. -/
  | syncLocked (g : Fin 4) (edge : Nat)
  /-- SYNC_HOLDOVER (R181): An edge is missing twice in succession and the group enters HOLD. `g`: the group. -/
  | syncHoldover (g : Fin 4)
  /-- SYNC_RETURNING (R181): HOLD_MS elapses in HOLD and the frequency moves towards FSW_KHZ. `g`: the group. -/
  | syncReturning (g : Fin 4)
  /-- SYNC_FREE_RUN (R181): The period equals the free-running T and the group returns to FREE. `g`: the
  group. -/
  | syncFreeRun (g : Fin 4)
  /-- PWM_BUS_SET (R182): A write of the bus target is clamped and enters the profile generator at the next
  tick. `sess`: the HCP session that writes; `v`: the word written. -/
  | pwmBusSet (sess : Fin 64) (v : BitVec 32)
  /-- PSU_COMMAND_FRAME (R197): Every 10 us a command frame carrying ENABLE, ILIM and VSET is sent on each PSU
  port. -/
  | psuCommandFrame
  /-- PSU_TELEMETRY (R197): A telemetry frame arrives, is checked for CRC and SEQ, and updates the port
  registers. `p`: the port; `f`: the bytes of the frame. -/
  | psuTelemetry (p : Fin 16) (f : List Byte)
  /-- PSU_RESTORED (R201): After 1 s of clean telemetry a lost port returns to service. `p`: the port. -/
  | psuRestored (p : Fin 16)
  /-- RESTORE (R210): An OPERATOR returns a lost PSU port to service at once if its telemetry is clean.
  `sess`: the HCP session that writes; `p`: the port. -/
  | restore (sess : Fin 64) (p : Fin 16)
  /-- FORECAST_EVAL_DONE (R223): A forecast evaluation completes and its result is converted to output values.
  `i`: the instance; `tIn`: t_in of its round; `ns`: nanoseconds into the tick. -/
  | forecastEvalDone (i : Fin 10) (tIn : Nat) (ns : Nat)
  /-- FRAME_ASSEMBLY (R216): Every due instance of a round has completed and the frame is assembled and
  delivered. `long`: the horizon: long or short; `tIn`: t_in of the round. -/
  | frameAssembly (long : Bool) (tIn : Nat)
  /-- FRAME_DEADLINE (R216): A round reaches its DEADLINE, missing evaluations double d, and the frame is
  assembled. `long`: the horizon: long or short; `tIn`: t_in of the round. -/
  | frameDeadline (long : Bool) (tIn : Nat)
  /-- LONG_STALE (R217): The newest long frame passes STALE_MS and LONG_FRESH falls. -/
  | longStale
  /-- HEAD_UPDATE (R238): Every 1 ms each active adaptive instance performs one recursive least-squares update
  of its head. -/
  | headUpdate
  /-- ADAPT_RESUMED (R239): HOLDOFF_MS elapses after a reversion and adaptation resumes. `i`: the instance. -/
  | adaptResumed (i : Fin 10)
  /-- FORECAST_EN (R234): A write of FCE_CTRL.FORECAST_EN stops or starts the engine. `sess`: the HCP session
  that writes; `v`: the value written. -/
  | forecastEn (sess : Fin 64) (v : Bool)
  /-- ADAPT_EN (R239): A write of FCE_CTRL.ADAPT_EN freezes or resumes every head. `sess`: the HCP session
  that writes; `v`: the value written. -/
  | adaptEn (sess : Fin 64) (v : Bool)
  /-- REVERT_ALL (R239): An OPERATOR forces every head to revert. `sess`: the HCP session that writes. -/
  | revertAll (sess : Fin 64)
  /-- ADAPT_DIS (R246): A write of FCE_INST_CTRL.ADAPT_DIS freezes or resumes one instance's head. `sess`: the
  HCP session that writes; `i`: the instance; `v`: the value written. -/
  | adaptDis (sess : Fin 64) (i : Fin 10) (v : Bool)
  /-- REVERT (R239): An OPERATOR forces one instance's head to revert. `sess`: the HCP session that writes;
  `i`: the instance. -/
  | revert (sess : Fin 64) (i : Fin 10)
  /-- LINK_UP (R262): A tray port gains block lock and passes from DOWN to IDENTIFYING. `n`: the tray port. -/
  | linkUp (n : Fin 64)
  /-- LINK_DOWN (R262): A tray link is lost; with zero envelope the port goes DOWN, otherwise it debounces 20
  us. `n`: the tray port. -/
  | linkDown (n : Fin 64)
  /-- LINK_GLITCH (R262): The link returns within the 20 us debounce and the port state is unchanged. `n`: the
  tray port. -/
  | linkGlitch (n : Fin 64)
  /-- SURPRISE_REMOVAL (R283): Link loss persists 20 us with a non-zero envelope; the port locks and the tray
  is purged from sums, entries and forecasts. `n`: the tray port. -/
  | surpriseRemoval (n : Fin 64)
  /-- IDENT (R262): A valid IDENT frame moves the port to NOT_READY, SAFE, ACTIVE or WATCH and is answered
  with a grant. `n`: the tray port; `f`: the frame. -/
  | ident (n : Fin 64) (f : IdentFrame)
  /-- REPORT (R265): A REPORT frame updates the tray's power and is checked for envelope and slope compliance.
  `n`: the tray port; `f`: the frame; `missing`: reports missing before it and not yet counted. -/
  | report (n : Fin 64) (f : ReportFrame) (missing : Nat)
  /-- REPORT_STALE (R265): Three consecutive reports are missing and REPORT_STALE is set. `n`: the tray port. -/
  | reportStale (n : Fin 64)
  /-- ACK (R264): An ACK puts the grant in force and ends envelope double-counting. `n`: the tray port;
  `gseq`: GSEQ; `result`: RESULT. -/
  | ack (n : Fin 64) (gseq : BitVec 16) (result : Fin 3)
  /-- GRANT_RESEND (R264): A grant unacknowledged after 4 us or 8 us is sent again. `n`: the tray port. -/
  | grantResend (n : Fin 64)
  /-- GRANT_TIMEOUT (R264): Three transmissions go unacknowledged and the ack-timeout count increments. `n`:
  the tray port. -/
  | grantTimeout (n : Fin 64)
  /-- GRANT_REFRESH (R254): At least every GRANT_LIFE_MS / 2 each port's grant is refreshed with a new GSEQ
  and EXPIRY. `n`: the tray port. -/
  | grantRefresh (n : Fin 64)
  /-- TIME (R254): Every 100 us a TIME frame with the module's shelf time is sent on every linked port. -/
  | time
  /-- TRAY_ANNOUNCE (R267): A tray ANNOUNCE frame is checked into the schedule table and answered with
  ANNOUNCE_RESULT. `n`: the tray port; `a`: the frame. -/
  | trayAnnounce (n : Fin 64) (a : AnnounceEntry)
  /-- BARRIER_COMPLETE (R270): T + OFFSET + d + 10 us passes, the tray gets a grant with BARRIER_VALID clear
  and its occupancy is released. `n`: the tray port. -/
  | barrierComplete (n : Fin 64)
  /-- ROLE_TAG_APPLIED (R266): At an entry's instant T each named tray takes the entry's ROLE as its role tag.
  `id`: ENTRY_ID; `source`: SOURCE. -/
  | roleTagApplied (id : BitVec 32) (source : BitVec 8)
  /-- TAKEOVER_REQ (R280): A TAKEOVER_REQ on a secondary link in RUN triggers the takeover grant. `n`: the
  tray port; `env`: ENV_IN_FORCE, 10 W. -/
  | takeoverReq (n : Fin 64) (env : BitVec 16)
  /-- DRAIN_REQ (R284): A DRAIN_REQ puts the port into DRAINING with envelope 0. `n`: the tray port. -/
  | drainReq (n : Fin 64)
  /-- DRAIN (R284): An OPERATOR drains a tray through TLK_PORT_CTRL.DRAIN. `sess`: the HCP session that
  writes; `n`: the tray port. -/
  | drain (sess : Fin 64) (n : Fin 64)
  /-- DRAINED (R262): Three low reports or 100 ms move a DRAINING port to DRAINED with a DRAINED grant and
  purge of entries. `n`: the tray port. -/
  | drained (n : Fin 64)
  /-- THROTTLE_CAUSE_CLEAR (R272): A throttle cause's clearing condition is met, such as RELEASE_HOLD_US of
  good bus, and the cause clears. `c`: the cause whose hold has run. -/
  | throttleCauseClear (c : ClearedCause)
  /-- THROTTLE_ALL (R272): An OPERATOR throttles all ports with cause OPERATOR. `sess`: the HCP session that
  writes. -/
  | throttleAll (sess : Fin 64)
  /-- RELEASE_ALL (R272): An OPERATOR clears cause OPERATOR on all ports. `sess`: the HCP session that writes. -/
  | releaseAll (sess : Fin 64)
  /-- THROTTLE (R272): An OPERATOR throttles one port with cause OPERATOR. `sess`: the HCP session that
  writes; `n`: the tray port. -/
  | throttle (sess : Fin 64) (n : Fin 64)
  /-- RELEASE (R272): An OPERATOR clears cause OPERATOR on one port. `sess`: the HCP session that writes; `n`:
  the tray port. -/
  | release (sess : Fin 64) (n : Fin 64)
  /-- RACK_HOLD_SEEN (R275): RACK_HOLD_N is sensed low and THROTTLE cause 3 is raised. -/
  | rackHoldSeen
  /-- RACK_HOLD_CLEARED (R275): RACK_HOLD_N is sensed high again. -/
  | rackHoldCleared
  /-- SHARE_STALE (R276): No share arrives for 3 ms; the last share is kept and no increase is granted. -/
  | shareStale
  /-- RING_BRING_UP (R302): Ring bring-up starts with the wake tone from both ports. `c`: the ring. -/
  | ringBringUp (c : Fin 4)
  /-- RESET_ADDR (R298): RESET_ADDR makes every reached node forget its address. `c`: the ring. -/
  | resetAddr (c : Fin 4)
  /-- ENUM (R298): ENUM gives unaddressed nodes consecutive addresses and returns the count. `c`: the ring;
  `fromB`: sent from port B; `count`: nodes found; `passed`: the block reached the other port. -/
  | enum (c : Fin 4) (fromB : Bool) (count : Nat) (passed : Bool)
  /-- REVCHECK (R298): REVCHECK has each node compare its address with the expected value and reply. `c`: the
  ring; `mismatch`: a reply was a mismatch. -/
  | revcheck (c : Fin 4) (replies : List ChainBlock)
  /-- ECHO (R302): ECHO makes the addressed node answer after 2.000 us so the module measures its delay and
  reads its status. `c`: the ring; `n`: the node, N01 at 0; `fromB`: sent from port B; `trips`: round trips,
  400 ps each; `replies`: the blocks that return. -/
  | echo (c : Fin 4) (n : Fin 16) (fromB : Bool) (trips : List Nat) (replies : List ChainBlock)
  /-- ENUMERATED (R302): At the 20 ms step echo measurements complete and the ring is ENUMERATED, checked if a
  configuration is active. `c`: the ring. -/
  | enumerated (c : Fin 4)
  /-- RING_RETRY (R303): Every 5 s in BOOT or STANDBY a FAILED ring is retried from the 6 ms step. `c`: the
  ring. -/
  | ringRetry (c : Fin 4)
  /-- REENUM (R303): An OPERATOR forces a ring retry in STANDBY. `sess`: the HCP session that writes; `c`: the
  ring. -/
  | reenum (sess : Fin 64) (c : Fin 4)
  /-- CONFIG (R298): CONFIG stores a node's masks, parity, delays, Moonwatch limits and contactor settings.
  `c`: the ring; `n`: the node, N01 at 0; `replies`: the block that returns. -/
  | config (c : Fin 4) (n : Fin 16) (replies : List ChainBlock)
  /-- SAMPLE (R307): SAMPLE leaves port A (and B in TWO_CHAIN) so every node samples at the quiet instant t_s
  and reads out. `c`: the ring; `k`: the tick of its nominal instant; `tempNs`: time of the temperature read
  due in its period, ns. -/
  | sample (c : Fin 4) (k : Nat) (tempNs : Nat)
  /-- SWEEP_COMPLETE (R311): Every present node's block arrives, or the next t_a comes, and the values take
  effect and are delivered. `c`: the ring; `blocks`: the blocks that arrived; `readNs`: time from t_s to
  completion, ns. -/
  | sweepComplete (c : Fin 4) (blocks : List ChainBlock) (readNs : Nat)
  /-- CELLS_UNMONITORED (R311): A cell lacks a VALID value for STALE_MS and becomes UNMONITORED. `c`: the
  ring; `k`: the cell, 001 at 0. -/
  | cellsUnmonitored (c : Fin 4) (k : Fin 288)
  /-- STRING_ISOLATED (R407): Stage 2 is reached or stage 1 holds ISOLATE_S; the group stops and the
  contactors open. `i`: the string. -/
  | stringIsolated (i : Fin 4)
  /-- UNMON_LIMITED (R408): A cell UNMONITORED for UNMON_S sets both string limits to 0. `i`: the string. -/
  | unmonLimited (i : Fin 4)
  /-- RING_BROKEN (R312): A missing mark, an ABORT, a short train or a failed PROBE shows a break and the ring
  enters TWO_CHAIN. `c`: the ring; `lastA`: the last node reached from port A; `firstB`: the first node
  reached from port B; `inSweep`: found in a sweep, and whether its SAMPLE had passed the break; `displaced`:
  the gap transactions its re-reads displace; `lost`: those it takes in flight. -/
  | ringBroken (c : Fin 4) (lastA : Nat) (firstB : Nat) (inSweep : Option Bool) (displaced lost : List GapOp)
  /-- READ_HELD (R309): READ_HELD returns named nodes' held blocks of a sweep. `c`: the ring; `fromB`: sent
  from port B; `mask`: MASK; `blocks`: the blocks that return. -/
  | readHeld (c : Fin 4) (fromB : Bool) (mask : BitVec 16) (blocks : List ChainBlock)
  /-- READ_TEMP (R298): READ_TEMP has every node reply with its temperature block at TEMP_HZ. `c`: the ring;
  `blocks`: the blocks that arrive. -/
  | readTemp (c : Fin 4) (blocks : List ChainBlock)
  /-- RING_REPAIRED (R314): Three PROBEs 100 ms apart pass the break; delays are re-measured and the ring
  returns to RING. `c`: the ring. -/
  | ringRepaired (c : Fin 4)
  /-- PROBE (R298): PROBE passes the ring or reads a node's status word, keeping nodes awake. `c`: the ring;
  `n`: ADDR; `fromB`: sent from port B; `passed`: with ADDR 0, it reached the other port; `replies`: the block that
  returns from a node; `lastA`: the last node reached from port A where it shows a break; `firstB`: the first node
  reached from port B then. -/
  | probe (c : Fin 4) (n : Fin 17) (fromB : Bool) (passed : Bool) (replies : List ChainBlock) (lastA : Nat)
    (firstB : Nat)
  /-- DIAG (R316): DIAG converts a node's second reference through every path and returns the deviations. `c`:
  the ring; `n`: the node, N01 at 0; `replies`: the block that returns. -/
  | diag (c : Fin 4) (n : Fin 16) (replies : List ChainBlock)
  /-- DIAG_NOW (R325): An OPERATOR requests an immediate DIAG on a ring. `sess`: the HCP session that writes;
  `c`: the ring. -/
  | diagNow (sess : Fin 64) (c : Fin 4)
  /-- BAL (R317): BAL sets a node's balance requests, refreshed at least every 500 ms. `c`: the ring; `n`: the
  node, N01 at 0. -/
  | bal (c : Fin 4) (n : Fin 16)
  /-- SLOT (R318): SLOT broadcasts the balancing parity every 10 ms. `c`: the ring. -/
  | slot (c : Fin 4)
  /-- BLANK (R319): BLANK opens every balance switch until the next SAMPLE. `c`: the ring. -/
  | blank (c : Fin 4)
  /-- CONTACTOR (R322): CONTACTOR commands a node to open or close the string's contactors. `c`: the ring;
  `close`: ACTION. -/
  | contactor (c : Fin 4) (close : Bool)
  /-- CONTACTOR_CLOSED (R322): The close sequence completes with CLOSED after precharge. `c`: the ring. -/
  | contactorClosed (c : Fin 4)
  /-- CONTACTOR_FAULT (R322): Coil feedback disagrees with the drive for 10 ms and the node reports FAULT.
  `c`: the ring. -/
  | contactorFault (c : Fin 4)
  /-- CTR_OPEN (R322): An OPERATOR opens a string's contactors in STANDBY or ARMED. `sess`: the HCP session
  that writes; `c`: the ring. -/
  | ctrOpen (sess : Fin 64) (c : Fin 4)
  /-- CTR_CLOSE (R322): An OPERATOR closes a string's contactors, restoring an isolated string. `sess`: the
  HCP session that writes; `c`: the ring. -/
  | ctrClose (sess : Fin 64) (c : Fin 4)
  /-- WAKE_TONE (R321): A node's wake tone is heard on a ring port; event 0x8050 and node status is read in
  the next gap. `c`: the ring; `onA`: heard on port A; `onB`: heard on port B; `lost`: nodes that the PROBEs of this gap
  find without an address. -/
  | wakeTone (c : Fin 4) (onA : Bool) (onB : Bool) (lost : List Nat)
  /-- SHIP (R323): SHIP puts every node into ship mode after it answers. `c`: the ring; `replies`: the blocks
  that return. -/
  | ship (c : Fin 4) (replies : List ChainBlock)
  /-- SHIP_INCOMPLETE (R323): A node does not answer SHIP within 10 ms of three attempts and is reported
  absent. `c`: the ring; `n`: the node, N01 at 0. -/
  | shipIncomplete (c : Fin 4) (n : Fin 16)
  /-- EST_UPDATE (R333): Every 1 ms the charge count, band and voltage model of each string are updated. -/
  | estUpdate
  /-- EST_CONFLICT (R343): SOC and SOC_V differ beyond CONFLICT_PCT for CONFLICT_S and the string is in
  conflict. `i`: the string. -/
  | estConflict (i : Fin 4)
  /-- EST_CONFLICT_CLEARED (R343): The difference stays within CONFLICT_PCT for CONFLICT_S, or a reading is
  taken, and the conflict clears. `i`: the string. -/
  | estConflictCleared (i : Fin 4)
  /-- PLANNER_CYCLE (R347): Every 100 ms in RUN the planner computes E_PLAN, the reserve, the grid target,
  overload and rests. `defers`: telemetry formatting that was due is deferred. -/
  | plannerCycle (defers : Bool)
  /-- ECLIPSE_RETRY (R338): Every 10 s a blocked rest is tried again. -/
  | eclipseRetry
  /-- RELAXING (R339): The limits are 0 and current is below REST_I_MAX_MA; relaxation begins and balancing is
  suspended. `i`: the string. -/
  | relaxing (i : Fin 4)
  /-- READING (R339): RELAX_S after tr the reading window opens. `i`: the string. -/
  | reading (i : Fin 4)
  /-- ECLIPSE_READING (R340): At REST_S the averaged OCV sets SOC and b, updates capacity and chooses
  balancing. `i`: the string. -/
  | eclipseReading (i : Fin 4)
  /-- REST_COMPLETE (R339): The limits have ramped back over 100 ms and balancing resumes. `i`: the string. -/
  | restComplete (i : Fin 4)
  /-- ECLIPSE_ABORTED (R341): A rest is aborted by fast path, throttle, current, margin, state or time-out,
  and the limits ramp back. -/
  | eclipseAborted
  /-- ABORT_REST (R341): An OPERATOR aborts the rest in progress. `sess`: the HCP session that writes. -/
  | abortRest (sess : Fin 64)
  /-- ECLIPSE_EN (R356): A write of EST_CTRL.ECLIPSE_EN stops or allows further rests. `sess`: the HCP session
  that writes; `v`: ECLIPSE_EN. -/
  | eclipseEn (sess : Fin 64) (v : Bool)
  /-- FORCE_REST (R337): An OPERATOR gives a string a forced rest. `sess`: the HCP session that writes;
  `mask`: FORCE_REST. -/
  | forceRest (sess : Fin 64) (mask : BitVec 4)
  /-- ETH_LINK_UP (R365): The PCS locks on all lanes. -/
  | ethLinkUp
  /-- ETH_LINK_DOWN (R365): The PCS loses lock. -/
  | ethLinkDown
  /-- MACSEC_UP (R362): A MACsec secure association becomes live. `sci`: its receive secure channel. -/
  | macsecUp (sci : BitVec 64)
  /-- MACSEC_DOWN (R362): The last secure association ends. -/
  | macsecDown
  /-- HELLO (R372): A HELLO opens a handshake and is answered with HELLO_REPLY or REJECT. `d`: the datagram,
  a whole HELLO or a fragment of one. -/
  | hello (d : Datagram)
  /-- FINISH (R372): A FINISH is verified, the keys derived and the session opened with SESSION_OPEN. `d`: the
  datagram, a whole FINISH or a fragment of one. -/
  | finish (d : Datagram)
  /-- HANDSHAKE_TIMEOUT (R372): A handshake without FINISH for 2 s, or a fragmented payload incomplete for 1
  s, is discarded. `n`: the session the handshake holds. -/
  | handshakeTimeout (n : Fin 64)
  /-- SECURED (R374): A SECURED datagram is tag- and replay-checked and its message queued or answered BUSY.
  `d`: the datagram. -/
  | secured (d : Datagram)
  /-- SESSION_IDLE_TIMEOUT (R374): A session without an accepted datagram for IDLE_S closes. `n`: the session. -/
  | sessionIdleTimeout (n : Fin 64)
  /-- KEEPALIVE (R377): KEEPALIVE is answered with SYS_STATE, shelf time and tick. `h`: the message header. -/
  | keepalive (h : MsgHdr)
  /-- CLOSE (R374): CLOSE ends the session with its subscriptions, fetches and push. `h`: the message header. -/
  | close (h : MsgHdr)
  /-- SESS_CLOSE (R402): An OPERATOR closes a session through NET_SESS_CTRL.CLOSE. `sess`: the HCP session
  that writes; `n`: the session to close. -/
  | sessClose (sess : Fin 64) (n : Fin 64)
  /-- REG_READ (R378): REG_READ returns up to 64 registers sampled at one tick boundary, counting violations.
  `h`: the message header; `addrs`: the addresses. -/
  | regRead (h : MsgHdr) (addrs : List (BitVec 32))
  /-- REG_WRITE (R378): REG_WRITE applies writes to registers without a row of their own at one tick boundary,
  counting violations. `h`: the message header; `pairs`: the pairs of address and value. -/
  | regWrite (h : MsgHdr) (pairs : List (BitVec 32 × BitVec 32))
  /-- REG_READ_BLOCK (R378): REG_READ_BLOCK returns up to 2,048 words sampled over consecutive ticks. `h`: the
  message header; `addr`: ADDR; `words`: WORDS. -/
  | regReadBlock (h : MsgHdr) (addr : BitVec 32) (words : BitVec 16)
  /-- ANNOUNCE (R379): An HCP ANNOUNCE enters entries into the schedule table with a status per entry. `h`:
  the message header; `l`: the entries. -/
  | announce (h : MsgHdr) (l : List AnnounceEntry)
  /-- ANNOUNCE_CANCEL (R379): ANNOUNCE_CANCEL removes HCP entries by ID and frees their placements. `h`: the
  message header; `ids`: the entry IDs. -/
  | announceCancel (h : MsgHdr) (ids : List (BitVec 32))
  /-- SUBSCRIBE (R380): SUBSCRIBE opens a REGISTERS or EVENTS subscription. `h`: the message header; `id`:
  SUB_ID; `kind`: KIND; `period`: PERIOD_MS; `addrs`: the addresses of a REGISTERS subscription; `mask`:
  CLASS_MASK of an EVENTS subscription. -/
  | subscribe (h : MsgHdr) (id : BitVec 8) (kind : BitVec 8) (period : BitVec 16) (addrs : List (BitVec 32)) (mask : BitVec 16)
  /-- UNSUBSCRIBE (R380): UNSUBSCRIBE ends a subscription. `h`: the message header; `id`: SUB_ID. -/
  | unsubscribe (h : MsgHdr) (id : BitVec 8)
  /-- TELEMETRY (R380): At each PERIOD_MS latch a REGISTERS subscription's values are sent, or counted as
  missed. `n`: the session; `id`: SUB_ID; `free`: the management core is free of the planner. -/
  | telemetry (n : Fin 64) (id : BitVec 8) (free : Bool)
  /-- EVENTS (R380): Every PERIOD_MS an EVENTS subscription sends the new records of its classes. `n`: the
  session; `id`: SUB_ID. -/
  | events (n : Fin 64) (id : BitVec 8)
  /-- FETCH (R381): FETCH starts reading a region, limited to 4 in flight per session. `h`: the message
  header; `region`: REGION; `index`: INDEX; `off`: OFFSET; `len`: LENGTH. -/
  | fetch (h : MsgHdr) (region : BitVec 8) (index : BitVec 8) (off : BitVec 64) (len : BitVec 32)
  /-- FETCH_DATA (R381): A FETCH_DATA message of up to 8,192 bytes is sent, the last with LAST and CRC, or the
  fetch ends STALE. `n`: the session; `reqId`: the REQ_ID of the FETCH. -/
  | fetchData (n : Fin 64) (reqId : BitVec 32)
  /-- PUSH_BEGIN (R382): PUSH_BEGIN opens a bit-stream push under R79. `h`: the message header; `total`:
  TOTAL_LEN. -/
  | pushBegin (h : MsgHdr) (total : BitVec 32)
  /-- PUSH_DATA (R382): PUSH_DATA places bytes into staging at an offset. `h`: the message header; `off`:
  OFFSET; `data`: the bytes. -/
  | pushData (h : MsgHdr) (off : BitVec 32) (data : List Byte)
  /-- PUSH_END (R382): PUSH_END closes the push and starts checking, or discards an incomplete push. `h`: the
  message header. -/
  | pushEnd (h : MsgHdr)
  /-- PUSH_TIMEOUT (R382): A push with no PUSH_DATA for 10 s is discarded with event 0x2005. -/
  | pushTimeout
  /-- SHADOW_READY (R80): The loader completes its checks and the shadow becomes READY, or the load is
  rejected. -/
  | shadowReady
  /-- FW_STAGED (R439): A pushed firmware image is verified and written to the other slot, or rejected. -/
  | fwStaged
  /-- SHADOW_ECC (R81): An uncorrectable error in the shadow discards it. -/
  | shadowEcc
  /-- DISCARD (R90): CFG_CTRL.DISCARD discards the shadow, any pending swap or an open load. `sess`: the HCP
  session that writes. -/
  | discard (sess : Fin 64)
  /-- CFG_SWAP_TICK (R503): A write of CFG_SWAP_TICK holds _LO until _HI commits both halves. `sess`: the HCP
  session that writes; `hi`: the _HI half; `v`: the value written. -/
  | cfgSwapTick (sess : Fin 64) (hi : Bool) (v : BitVec 32)
  /-- SWAP (R82): CFG_CTRL.SWAP requests the swap of a READY shadow at a chosen tick. `sess`: the HCP session
  that writes. -/
  | swap (sess : Fin 64)
  /-- SWAPPED (R83): At the swap tick every carried section replaces its active counterpart together, or the
  swap is cancelled. -/
  | swapped
  /-- STORED (R87): A swapped FULL bit-stream with STORE is written and verified in flash and becomes the boot
  slot. -/
  | stored
  /-- CONFIG_ECC_CORRECTED (R88): A corrected symbol of the active configuration is written back. -/
  | configEccCorrected
  /-- CONFIG_CRC_SWEEP (R88): Every 1 s the CRC of every active section is recomputed. `ok`: every CRC
  matches. -/
  | configCrcSweep (ok : Bool)
  /-- ATTEST (R448): ATTEST returns a signed report in two responses. `h`: the message header; `nonce`: the
  nonce. -/
  | attest (h : MsgHdr) (nonce : List Byte)
  /-- ROW_BUDGET (R390): An HCP ROW_BUDGET with a newer version takes force and is sent on the ring. `h`: the
  message header; `version`: VERSION; `budget`: BUDGET. -/
  | rowBudget (h : MsgHdr) (version : BitVec 32) (budget : BitVec 32)
  /-- MACSEC_KEY (R377): MACSEC_KEY stores a CAK in flash and restarts MKA. `h`: the message header; `ckn`:
  CKN; `cak`: CAK. -/
  | macsecKey (h : MsgHdr) (ckn : List Byte) (cak : List Byte)
  /-- ORPHAN_ENTERED (R386): Rack-manager silence reaches TIMEOUT_MS and ORPHAN is set. -/
  | orphanEntered
  /-- PTP_SYNC (R367): A PTP Sync is timestamped and adjusts shelf time, locking after 16 good offsets. `f`: the
  frame it comes in; `via`: its transport; `domain`: its domain; `time`: the shelf time the servo sets; `ofs`: the offset measured, ns; `cls`: the grandmaster clock class. -/
  | ptpSync (f : FramePath) (via : PtpVia) (domain : BitVec 8) (time : BitVec 64) (ofs : BitVec 32) (cls : BitVec 8)
  /-- PTP_LOST (R367): No Sync for 3 s, or four large offsets, clear PTP_LOCK. -/
  | ptpLost
  /-- PPS_IN (R368): A PPS edge on SYNC_IN is timestamped and its offset reported. `t`: the shelf time of the
  edge, ns. -/
  | ppsIn (t : BitVec 64)
  /-- RING_JOINED (R391): With an active configuration, PTP lock and a locked port the member joins and starts
  sending STATUS. -/
  | ringJoined
  /-- RING_CYCLE (R394): Every 1 ms a member sends STATUS, evaluates its lead, and as lead or time master
  sends SHARE or TIME. -/
  | ringCycle
  /-- RING_TIME (R393): A TIME frame from the time master updates ring time. `f`: the frame. -/
  | ringTime (f : RowFrame)
  /-- PDELAY_REQ (R390): Every 100 ms a PDELAY_REQ is sent on each ring port to measure link delay. `req`:
  none: the 100 ms are over and the requests are sent; some: a request came in, with the time of its arrival
  t2. -/
  | pdelayReq (req : Option (RowFrame × BitVec 64))
  /-- PDELAY_RESP (R390): A PDELAY_RESP returns the peer-delay timestamps. `f`: the frame; `t4`: the time of
  its arrival. -/
  | pdelayResp (f : RowFrame) (t4 : BitVec 64)
  /-- RING_STATUS (R390): A STATUS frame from a member is taken for lead, share and time-master judgement.
  `f`: the frame. -/
  | ringStatus (f : RowFrame)
  /-- SHARE (R395): A SHARE frame from the chosen lead sets TLK_SHARE and EST_GRID_ALLOW, recomputes envelopes
  and may carry START. `f`: the frame. -/
  | share (f : RowFrame)
  /-- ROW_BUDGET_FRAME (R390): A ROW_BUDGET frame on the ring updates the budget held if newer. `f`: the
  frame. -/
  | rowBudgetFrame (f : RowFrame)
  /-- ROW_BUDGET_RESEND (R390): Every 100 ms each rack lead sends ROW_BUDGET. -/
  | rowBudgetResend
  /-- FAILOVER (R396): A FAILOVER notice re-runs the lead election, re-agrees shares and triggers takeovers of
  the subject's trays. `f`: the frame. -/
  | failover (f : RowFrame)
  /-- PEER_SILENT (R396): A rack peer last seen in RUN has STATUS 3 ms old and FAILOVER cause 4 is sent.
  `shelf`: the shelf index of the peer. -/
  | peerSilent (shelf : Fin 4)
  /-- WRAP (R390): A WRAP frame reports a peer's wrap or unwrap. `f`: the frame. -/
  | wrap (f : RowFrame)
  /-- RING_WRAPPED (R392): Link loss on a ring port wraps frames to the other ring and sends WRAP. `west`: the
  port is WEST. -/
  | ringWrapped (west : Bool)
  /-- RING_UNWRAPPED (R392): The port holds block lock for 100 ms and the member unwraps. `west`: the port is
  WEST. -/
  | ringUnwrapped (west : Bool)
  /-- BUS_OV_TRIP (R405): Bus overvoltage drives GDRV_EN low, disables the bricks and passes RUN to ARMED.
  `v`: the bus voltage, mV. -/
  | busOvTrip (v : Int)
  /-- BUS_OV_RECOVERY (R405): The bus stays below BUS_SET_MAX for 10 ms; bricks are re-enabled or Basalt
  resumes. -/
  | busOvRecovery
  /-- BUS_UV_TRIP (R406): Bus undervoltage drives RACK_HOLD_N low and adds THROTTLE cause 7. `v`: the bus
  voltage, mV. -/
  | busUvTrip (v : Int)
  /-- BUS_UV_CLEARED (R406): The bus stays above BUS_UV_TRIP + 10 V for 100 us and the trip ends. -/
  | busUvCleared
  /-- BUS_FAULT (R406): The bus stays below BUS_UV_TRIP for UV_PERSIST_MS, groups stop and RUN passes to
  ARMED. `v`: the bus voltage, mV. -/
  | busFault (v : Int)
  /-- DIE_WARN (R409): The die reaches DIE_WARN_C and the forecast engine stops. `t`: the temperature, 0.01 C. -/
  | dieWarn (t : Int)
  /-- DIE_WARN_CLEARED (R409): The die falls below DIE_WARN_C - 5 and the engine restarts. `t`: the
  temperature, 0.01 C. -/
  | dieWarnCleared (t : Int)
  /-- DIE_TRIP (R404): The die stays above DIE_TRIP for 10 us and Basalt entry is caused. `t`: the
  temperature, 0.01 C. -/
  | dieTrip (t : Int)
  /-- MISSED_TICKS (R411): Three successive missing tick strobes cause entry into BASALT, or are held outside
  RUN. `missed`: strobes missed in succession and not yet counted. -/
  | missedTicks (missed : Nat)
  /-- BASALT_UPDATE (R414): Every 50 us Basalt computes each group's peak command from its droop law. `m`: the
  monitor converters' readings. -/
  | basaltUpdate (m : BasaltSense)
  /-- ENTRY_HOLD_RELEASE (R413): 10 ms after Basalt entry RACK_HOLD_N is released unless R406 holds it. -/
  | entryHoldRelease
  /-- BASALT_ROOTLESS_STOP (R416): 60 s in BASALT without the root clock ramps every group to 0 and drives
  GDRV_EN low. -/
  | basaltRootlessStop
  /-- MISSED_TICKS_CLEARED (R417): 50,000 ticks with root lock and no miss clear the MISSED_TICKS cause. -/
  | missedTicksCleared
  /-- CONFIG_RELOADED (R417): The boot slot is reloaded and the next CRC sweep passes, clearing CONFIG_FAULT. -/
  | configReloaded
  /-- DIE_TRIP_CLEARED (R417): The die stays below DIE_TRIP - 10 C for 10 s and the cause clears. `t`: the
  temperature, 0.01 C. -/
  | dieTripCleared (t : Int)
  /-- BASALT_AUTO_EXIT (R418): EXIT_HOLD_S after EXIT_OK with AUTO_EXIT the device leaves BASALT. -/
  | basaltAutoExit
  /-- BASALT_ENTER (R411): An OPERATOR causes entry into BASALT in RUN. `sess`: the HCP session that writes. -/
  | basaltEnter (sess : Fin 64)
  /-- BASALT_EXIT (R418): An OPERATOR leaves BASALT while EXIT_OK is 1. `sess`: the HCP session that writes. -/
  | basaltExit (sess : Fin 64)
  /-- GROUP_RETURN (R419): An OPERATOR returns a group handed to Basalt after at least 1 s. `sess`: the HCP
  session that writes; `mask`: GROUP_RETURN, one bit for each group. -/
  | groupReturn (sess : Fin 64) (mask : BitVec 4)
  /-- COOLANT_FLOW_LOW (R421): Flow below COOL_FLOW_MIN for FLOW_MS declares coolant loss and starts the
  thermal ramp. -/
  | coolantFlowLow
  /-- CDU_ALARM (R421): An OPERATOR relays the CDU alarm and coolant loss is declared. `sess`: the HCP session
  that writes. -/
  | cduAlarm (sess : Fin 64)
  /-- THERMAL_RAMP_STEP (R421): Every 1 ms each port's envelope steps towards THERMAL_FLOOR. -/
  | thermalRampStep
  /-- CDU_CLEAR (R421): An OPERATOR clears the CDU alarm. `sess`: the HCP session that writes. -/
  | cduClear (sess : Fin 64)
  /-- COOLANT_RESTORED (R421): Flow above COOL_FLOW_MIN for 60 s with the alarm cleared lets envelopes return. -/
  | coolantRestored
  /-- COOLANT_GROUP_STOP (R422): At each STAGGER_MS interval the next group from G3 down passes to STOPPING. -/
  | coolantGroupStop
  /-- COOLANT_CRIT_RECOVERY (R422): Coolant below COOLANT_CRIT - 10 C for 60 s allows the groups again. -/
  | coolantCritRecovery
  /-- TRIP_CLEAR (R427): An OPERATOR empties the trip ring and PROT_TRIP_FIRST. `sess`: the HCP session that
  writes. -/
  | tripClear (sess : Fin 64)
  /-- SYS_STATE_REQ (R442): A write of TARGET requests a state passage or is refused. `sess`: the HCP session
  that writes; `target`: TARGET. -/
  | sysStateReq (sess : Fin 64) (target : BitVec 4)
  /-- ARMED_PASSAGE (R441): All STANDBY-to-ARMED conditions hold; initial SOC is set, contactors close and the
  engine starts. -/
  | armedPassage
  /-- WARM_RESET (R443): SYS_RESET KIND 0 by an INTEGRATOR restarts from the 2 ms step. `sess`: the HCP
  session that writes. -/
  | warmReset (sess : Fin 64)
  /-- FULL_RESET (R443): SYS_RESET KIND 1 by an INTEGRATOR restarts from t0 without supply loss. `sess`: the
  HCP session that writes. -/
  | fullReset (sess : Fin 64)
  /-- SHIP_READY (R445): In SHIP_PREP every group is OFF and every ring in SHIP; SHIP_READY is set. -/
  | shipReady
  /-- SEC_LC_CTRL (R446): An INTEGRATOR moves the lifecycle from DEPLOYED to RETURNED, erasing identity keys
  and the CAK. `sess`: the HCP session that writes. -/
  | secLcCtrl (sess : Fin 64)
  /-- FW_DISCARD (R454): SEC_FW_CTRL.DISCARD removes the staged firmware image. `sess`: the HCP session that
  writes. -/
  | fwDiscard (sess : Fin 64)
  /-- DMA_START (R462): START on a DMA channel checks the descriptor and begins the transfer. `n`: the
  channel; `d`: the descriptor the firmware has written; `shadow`: the shadow set it has armed;
  `moved`: the bursts that tier channels have moved where it pre-empts them. -/
  | dmaStart (n : Fin 32) (d : DmaDesc) (shadow : Option DmaDesc) (moved : List (Fin 32 × Nat))
  /-- DMA_DONE (R464): Every write response returns; CRC and trailer are written and an armed shadow set
  starts. `n`: the channel. -/
  | dmaDone (n : Fin 32)
  /-- DMA_BUS_ERROR (R465): A read or write is refused or a source beat is uncorrectable and the descriptor
  ends BAD. `n`: the channel; `bursts`: further bursts completed before the failed one. -/
  | dmaBusError (n : Fin 32) (bursts : Nat)
  /-- DMA_ABORT (R465): CTRL.ABORT finishes the burst in progress and ends the descriptor. `n`: the channel;
  `bursts`: further bursts completed, the one in progress with them. -/
  | dmaAbort (n : Fin 32) (bursts : Nat)
  /-- TIER_FAULT (R467): A beat meets an absent tier page; the channel suspends and migration starts. `unit`:
  the tier channel, or the instance whose weights are copied; `bursts`: further bursts completed before the
  fault; `beats`: beats of the next one read before it; `page`: the absent page. -/
  | tierFault (unit : TierUnit) (bursts : Nat) (beats : Nat) (page : Nat)
  /-- TIER_MIGRATION_DONE (R467): The page is resident and the suspended channel or load unit resumes. `page`:
  the page; `ns`: the time the migration took; `ok`: the backing copy could be read. -/
  | tierMigrationDone (page : Nat) (ns : Nat) (ok : Bool)
  /-- ECC_CORRECTED (R459): A corrected symbol is written back and counted. `region`: 0 SRAM, 1 HBM, 2 flash,
  3 MRAM, 4 internal buses. -/
  | eccCorrected (region : Fin 5)
  /-- ECC_UNCORRECTABLE (R460): An uncorrectable codeword is counted and handled according to its region. `p`:
  where the codeword lies. -/
  | eccUncorrectable (p : EccPlace)
  /-- FIFO_Q_DATA_READ (R471): A firmware read of FIFO_Q_DATA takes the head entry, stalling until one
  arrives. `q`: the queue. -/
  | fifoQDataRead (q : Fin 16)
  /-- RECORDS_LOST (R474): Staging has room again after events were lost and event 0xC040 is recorded. -/
  | recordsLost
  /-- FIRST_CLEAR (R474): An INTEGRATOR empties the MRAM first area. `sess`: the HCP session that writes. -/
  | firstClear (sess : Fin 64)
  /-- EVR_USER (R472): An OPERATOR write of EVR_USER raises a class 0xF event with EVR_USER_DATA. `sess`: the
  HCP session that writes; `code`: CODE; `inst`: INSTANCE. -/
  | evrUser (sess : Fin 64) (code : BitVec 16) (inst : BitVec 16)
  /-- OBSIDIAN_FRAME (R477): Every 100 us the writer stores one frame of 256 key-channel samples. -/
  | obsidianFrame
  /-- TRIGGER_NOW (R478): An OPERATOR triggers the Obsidian record. `sess`: the HCP session that writes. -/
  | triggerNow (sess : Fin 64)
  /-- OBS_RECORD_CLOSED (R478): A CLOSING slot receives its 500 frames and is CLOSED. -/
  | obsRecordClosed
  /-- OBS_CLEAR (R478): An INTEGRATOR frees every CLOSED and KEPT slot. `sess`: the HCP session that writes. -/
  | obsClear (sess : Fin 64)
  /-- CAPTURE_FROZEN (R484): 10 s after a trigger with FREEZE_ON_TRIGGER the capture ring stops. -/
  | captureFrozen
  /-- RESUME (R484): An OPERATOR resumes the frozen capture ring. `sess`: the HCP session that writes. -/
  | resume (sess : Fin 64)
  /-- PWM_FRAME_START (R179): At each frame start of a switching group the edges of that frame are computed,
  each phase's cycle mode is fixed, and any pending offset, period or phase-count change takes effect. `g`:
  the group; `edge`: the SYNC_IN edge the frame follows, 25 ps units from reset. -/
  | pwmFrameStart (g : Fin 4) (edge : Option Nat)
  /-- WEIGHT_COPY_DONE (R229): A COPY_ENTRY copy finishes moving its bytes into staging, releasing the
  operations of its evaluation that read the range. `i`: the instance; `tIn`: t_in of its round; `entry`: the
  number of the COPY_ENTRY record among those of its model. -/
  | weightCopyDone (i : Fin 10) (tIn : Nat) (entry : Nat)
  /-- ICMP_ECHO_REQUEST (R364): An ICMP or ICMPv6 echo request arriving on the Ethernet port is answered, up
  to 100 per second, with the excess dropped. `v6`: ICMPv6; `f`: the frame it comes in; `ident`: the
  identifier and sequence number echoed. -/
  | icmpEchoRequest (v6 : Bool) (f : FramePath) (ident : BitVec 32)
  /-- NDP_ARP_REQUEST (R362): An NDP solicitation, or an ARP request while IPV4_EN is 1, arriving on the
  Ethernet port is answered for the module's addresses. `arp`: an ARP request, else an NDP solicitation;
  `f`: the frame it comes in; `target`: the address asked for. -/
  | ndpArpRequest (arp : Bool) (f : FramePath) (target : List Byte)
  /-- UNSERVED_DATAGRAM (R364): A datagram to an unserved port, a dropped protocol, or an unprotected frame
  while MACsec is required is dropped without answer and counted in NET_DROP_OTHER. `f`: the frame it comes in. -/
  | unservedDatagram (f : FramePath)
  /-- TRAY_FRAME_DROPPED (R251): A tray-link frame whose CRC fails, whose type is unknown or that is
  interrupted, or a control block of unknown type, is dropped and counted in TLK_PORT_ERR. `n`: the tray port. -/
  | trayFrameDropped (n : Fin 64)
  deriving DecidableEq, Repr

end Sys2Proof
end

