-- ==== Sys2Proof/Decode.lean ====
section
/-! DEFINITION. Commands spelt by table words: spec/opcode_table.json gives no row any bits, so there is
none. -/

namespace Sys2Proof

/-- The command a table word spells: none, for every word. -/
def decodeTableWord (_nbits _w : Nat) : Option Instr := none

end Sys2Proof
end

