-- ==== Sys2Proof/Machine/Arith.lean ====
section
/-! DEFINITION. Exact integer arithmetic and its narrowing: saturation, round-half-even shifts and
quotients (R138, R98), wrapping, byte order (R12, R58) and updates of numbered instances. -/

namespace Sys2Proof.Machine

/-- A record field where 0 takes a default. -/
def defOf (x d : Nat) : Nat := if x = 0 then d else x

/-- `clampI lo hi x`: x held within lo and hi. -/
def clampI (lo hi x : Int) : Int := if x < lo then lo else if hi < x then hi else x

/-- Saturation to a signed 32-bit value (R138). -/
def sat32 (x : Int) : Int := clampI (-2147483648) 2147483647 x

/-- Saturation to a signed 16-bit value (R477). -/
def sat16 (x : Int) : Int := clampI (-32768) 32767 x

/-- Saturation to a signed value of `bits` bits. -/
def satS (bits : Nat) (x : Int) : Int := clampI (-(2 ^ (bits - 1) : Nat)) ((2 ^ (bits - 1) : Nat) - 1) x

/-- A counter of `bits` bits that saturates. -/
def satU (bits : Nat) (x : Nat) : Nat := if x < 2 ^ bits then x else 2 ^ bits - 1

/-- A counter of `bits` bits that wraps. -/
def wrapU (bits : Nat) (x : Nat) : Nat := x % 2 ^ bits

/-- One more on a saturating counter. -/
def bump (bits : Nat) (x : Nat) : Nat := satU bits (x + 1)

/-- The round-half-even quotient of `a` by a positive `b`. -/
def divHE (a : Int) (b : Nat) : Int :=
  if b = 0 then 0 else
  let q := a.fdiv (b : Int)
  let r := a - q * (b : Int)
  if 2 * r < (b : Int) then q
  else if (b : Int) < 2 * r then q + 1
  else if q % 2 = 0 then q else q + 1

/-- rshe of R138: `x` over `2^k`, rounded half-even. -/
def rshe (x : Int) (k : Nat) : Int := divHE x (2 ^ k)

/-- The round-half-even quotient of natural numbers. -/
def divHEN (a b : Nat) : Nat := (divHE (a : Int) b).toNat

/-- Quotient rounded towards zero. -/
def divTZ (a : Int) (b : Int) : Int := if b = 0 then 0 else Int.tdiv a b

/-- Quotient rounded up, of natural numbers. -/
def ceilDiv (a b : Nat) : Nat := if b = 0 then 0 else (a + b - 1) / b

/-- Round-half-even mean of a list, zero where it is empty. -/
def meanHE (l : List Int) : Int := divHE l.sum l.length

/-- Bitwise square root, rounded towards zero: `k` more bits to try. -/
def isqrtGo (n : Nat) : Nat → Nat → Nat
  | 0, r => r
  | k + 1, r => if (r + 2 ^ k) * (r + 2 ^ k) ≤ n then isqrtGo n k (r + 2 ^ k) else isqrtGo n k r

/-- Square root rounded towards zero, of numbers below 2^512. -/
def isqrt (n : Nat) : Nat := isqrtGo n 256 0

/-- Base-two logarithm rounded down, of numbers below 2^`fuel`; 0 for 0. -/
def log2Go : Nat → Nat → Nat
  | 0, _ => 0
  | k + 1, n => if n < 2 then 0 else log2Go k (n / 2) + 1

/-- floor(log2 n), 0 for 0. -/
def flog2 (n : Nat) : Nat := log2Go 4096 n

/-- The `bits`-bit two's complement code of an integer. -/
def codeS (bits : Nat) (x : Int) : Nat := (x % ((2 ^ bits : Nat) : Int)).toNat

/-- The integer a `bits`-bit two's complement code stands for. -/
def ofCode (bits : Nat) (c : Nat) : Int :=
  let c := c % 2 ^ bits
  if c < 2 ^ (bits - 1) then (c : Int) else (c : Int) - ((2 ^ bits : Nat) : Int)

/-- The field of `w` bits of `x` from bit `lo` (R13). -/
def fld (x lo w : Nat) : Nat := x / 2 ^ lo % 2 ^ w

/-- Bit `k` of `x`. -/
def tb (x k : Nat) : Bool := x / 2 ^ k % 2 = 1

/-- Whether `a` and `b` agree up to sign: the absolute value as a natural number. -/
def absN (x : Int) : Nat := x.natAbs

/-- Little-endian value of bytes (R58). -/
def leVal : List Byte → Nat
  | [] => 0
  | b :: l => b.toNat + 256 * leVal l

/-- Big-endian value of bytes. -/
def beVal (l : List Byte) : Nat := leVal l.reverse

/-- `n` bytes of `x`, little-endian (R58). -/
def leBytes : Nat → Nat → List Byte
  | 0, _ => []
  | n + 1, x => BitVec.ofNat 8 x :: leBytes n (x / 256)

/-- `n` bytes of `x`, big-endian. -/
def beBytes (n x : Nat) : List Byte := (leBytes n x).reverse

/-- The `n` bytes of a list from an offset, zeros past its end. -/
def bytesAt (l : List Byte) (off n : Nat) : List Byte :=
  let t := (l.drop off).take n
  t ++ List.replicate (n - t.length) 0

/-- Word `w` of a byte string held across registers (R12). -/
def strWord (l : List Byte) (w : Nat) : Nat := leVal (bytesAt l (4 * w) 4)

/-- Change of one element of a vector of instances. -/
def updV {α : Type} {n : Nat} (v : Vector α n) (i : Fin n) (f : α → α) : Vector α n :=
  v.set i.val (f v[i.val]) i.isLt

/-- Change of the element at a natural index, none where it lies outside. -/
def updN {α : Type} {n : Nat} (v : Vector α n) (i : Nat) (f : α → α) : Vector α n :=
  if h : i < n then v.set i (f v[i]) h else v

/-- Change of every element, by its index. -/
def mapV {α β : Type} {n : Nat} (v : Vector α n) (f : Fin n → α → β) : Vector β n :=
  Vector.ofFn fun i => f i v[i.val]

/-- Sum of a function over the indices below `n`. -/
def sumN (n : Nat) (f : Nat → Nat) : Nat := ((List.range n).map f).sum

/-- Bits of a map register: bit i - lo for the indices from `lo` of 32 for which `p` holds. -/
def mapWord (n lo : Nat) (p : Nat → Bool) : Nat :=
  sumN 32 fun k => if k + lo < n && p (k + lo) then 2 ^ k else 0

end Sys2Proof.Machine
end

