-- ==== Sys2Proof/Machine/Crc.lean ====
section
/-! DEFINITION. The checks the spec names: CRC-32C (R64, R464), CRC-16/CCITT-FALSE (R473) and CRC-8 with
polynomials 0x07 and 0x2F. Their polynomials and initial values are those their names stand for (PRESUMED, log
entry 4). -/

namespace Sys2Proof.Machine

/-- One bit of a reflected CRC. -/
def crcBitR (poly : Nat) (c : Nat) : Nat := if c % 2 = 1 then (c / 2) ^^^ poly else c / 2

/-- One byte of a reflected CRC. -/
def crcByteR (poly : Nat) (c : Nat) (b : Byte) : Nat :=
  (List.range 8).foldl (fun c _ => crcBitR poly c) (c ^^^ b.toNat)

/-- CRC-32C: reflected polynomial 0x82F6_3B78, all ones at the start and in the final exclusive or. -/
def crc32c (l : List Byte) : Nat :=
  l.foldl (crcByteR 0x82F63B78) 0xFFFFFFFF ^^^ 0xFFFFFFFF

/-- One bit of a CRC of `w` bits, most significant bit first. -/
def crcBitF (w poly : Nat) (c : Nat) : Nat :=
  if tb c (w - 1) then ((2 * c) % 2 ^ w) ^^^ poly else (2 * c) % 2 ^ w

/-- One byte of a CRC of `w` bits, most significant bit first. -/
def crcByteF (w poly : Nat) (c : Nat) (b : Byte) : Nat :=
  (List.range 8).foldl (fun c _ => crcBitF w poly c) (c ^^^ (b.toNat * 2 ^ (w - 8)))

/-- CRC-16/CCITT-FALSE: polynomial 0x1021, initial value 0xFFFF. -/
def crc16 (l : List Byte) : Nat := l.foldl (crcByteF 16 0x1021) 0xFFFF

/-- CRC-8 with a polynomial and an initial value. -/
def crc8 (poly init : Nat) (l : List Byte) : Nat := l.foldl (crcByteF 8 poly) init

end Sys2Proof.Machine
end

