-- ==== Sys2Proof/Config.lean ====
section
/-! DEFINITION. The free values: what the spec leaves open. Each is an opaque constant of which nothing
can be proved; a step applies it to the counter `fv` of the state, so that a fresh value is taken each
time (log entry 7). -/

namespace Sys2Proof

/-- A value of a register or a frame field that the spec leaves open. -/
opaque Config.freeNat : Nat → Nat
/-- A signed value that the spec leaves open. -/
opaque Config.freeInt : Nat → Int
/-- A bit that the spec leaves open. -/
opaque Config.freeBool : Nat → Bool
/-- A byte that the spec leaves open, by the counter and a place in its string. -/
opaque Config.freeByte : Nat → Nat → Byte

/-- Shadow mantissa of a coefficient for which R148 names no exponent that fits, by the coefficient and its
shift (log entry 18). -/
opaque Config.shadowCoef : Int → Nat → Int

/-- Quotient of a fixed-point division by zero, for a limit of 0 on which R183 states no result
(log entry 21). -/
opaque Config.divZero : Int → Int

/-- The tier page in which the firmware keeps a part of the bit-stream staging, and the one in which it gathers history
(log entry 47). -/
opaque Config.stagingPage : Nat → Nat
opaque Config.historyPage : Nat

end Sys2Proof
end

