-- ==== Sys2Proof/Machine/StateAfe.lean ====
section
/-! DEFINITION. State of the measurement front end (04_measurement.md). -/

namespace Sys2Proof.Machine

/-- AFE_ROT_a.STEP (R111, R112, R124). -/
inductive RotStep where
  | selfCheck | overlapIn | calibrating | overlapOut | settle | paused | stopped
  deriving DecidableEq, Repr

/-- One measurement channel (R125 to R127). Its MODE and REF_GRP are read from the active routing. -/
structure Channel where
  /-- AFE_CH_VALUE, signed 32 bits; 04 R127; reset DESIGN CHOICE 0 with log entry 1 -/
  value : Int := 0
  /-- AFE_CH_STATUS.VALID, 1 bit; 04 R126; reset 0 -/
  valid : Bool := false
  /-- AFE_CH_STATUS.OVR, 1 bit; 04 R126; reset 0 -/
  ovr : Bool := false
  /-- AFE_CH_STATUS.OVR_LATCH (W1C), 1 bit; 04 R126; reset 0 -/
  ovrLatch : Bool := false
  /-- AFE_CH_STATUS.DEAD, 1 bit; 04 R126; reset 0 -/
  dead : Bool := false
  /-- AFE_CH_CAL_OFS, signed 32 bits; 04 R127; reset DESIGN CHOICE 0 with log entry 1 -/
  calOfs : Int := 0
  /-- AFE_CH_CAL_GAIN, unsigned Q2.30; 04 R127; reset DESIGN CHOICE 0x4000_0000 (1.0) with log entry 1 -/
  calGain : Nat := 1073741824
  /-- Coefficients measured in CALIBRATING, not yet written to the registers; 04 R111; reset none -/
  newCoef : Option (Int × Nat) := none
  /-- AFE_CH_CAL_TICK, 64 bits; 04 R127; reset DESIGN CHOICE 0 with log entry 1 -/
  calTick : Nat := 0
  /-- AFE_CH_FAIL_CAUSE, 4 bits; 04 R127; reset DESIGN CHOICE 0 (none) with log entry 1 -/
  failCause : Nat := 0
  /-- A failed ADC: its conversions no longer count; 04 R113; reset 0 -/
  adcFailed : Bool := false
  /-- Last MID conversion of a phase channel and whether there is one; 04 R101; reset none -/
  lastMid : Option Int := none
  /-- Last conversion that counted, corrected; 06 R194; reset none -/
  lastConv : Option Int := none
  deriving DecidableEq, Repr

/-- One AFE chiplet: its rotation and its spare (R111 to R116, R124). -/
structure Chiplet where
  /-- AFE_ROT_a.STEP, 4 bits; 04 R124; reset DESIGN CHOICE STOPPED with log entry 1 (no rotation before R109's end) -/
  step : RotStep := .stopped
  /-- AFE_ROT_a.CHANNEL, 8 bits: AFE_CH_STATUS.CAL_ACTIVE is 1 on it while the spare covers it; 04 R124, R126; reset DESIGN CHOICE 0 with log entry 1 -/
  chan : Nat := 0
  /-- Tick at which the slot in progress began; 04 R111; reset 0 -/
  slotTick : Nat := 0
  /-- AFE_ROT_a completed rotations, 16 bits, saturating; 04 R124; reset DESIGN CHOICE 0 with log entry 1 -/
  rotations : Nat := 0
  /-- AFE_SPARE_a.ASSIGNED and SUBST_CH, AFE_STATUS.SPARE_IN_USE, AFE_CH_STATUS.SUBSTITUTED; 04 R120, R124, R126; reset DESIGN CHOICE none with log entry 1 -/
  subst : Option Nat := none
  /-- The spare waits for its window boundary to take this channel; 04 R114; reset none -/
  substPending : Option Nat := none
  /-- Tick in which a channel last asked for the spare; 03 R72; reset 0 -/
  substTick : Nat := 0
  /-- The channel whose conversions of the window now open come from the spare; 04 R99, R111; reset none -/
  covered : Option Nat := none
  /-- The channel whose conversions of the window latched last came from the spare; 04 R99, R118; reset none -/
  latched : Option Nat := none
  /-- AFE_SPARE_a.FAILED and AFE_STATUS.SPARE_FAILED bit, 1 bit; 04 R120, R124; reset 0 -/
  spareFailed : Bool := false
  /-- Self-checks of the spare failed in succession; 04 R116; reset 0 -/
  selfFails : Nat := 0
  /-- AFE_STATUS.ROT_STOPPED bit, 1 bit; 04 R120; reset 0 -/
  rotStopped : Bool := false
  /-- AFE_STATUS.DISPLACED bit, 1 bit; 04 R120; reset 0 -/
  displaced : Bool := false
  /-- AFE_CAL_CTRL.ROT_EN bit, 1 bit; 04 R121; reset 1 -/
  rotEn : Bool := true
  /-- Spare coefficients: offset, signed 32 bits; 04 R111; reset DESIGN CHOICE 0 with log entry 1 -/
  spareOfs : Int := 0
  /-- Spare coefficients: gain, Q2.30; 04 R111; reset DESIGN CHOICE 0x4000_0000 with log entry 1 -/
  spareGain : Nat := 1073741824
  deriving DecidableEq, Repr

/-- One string shunt (R103 to R105, R128). -/
structure Shunt where
  /-- AFE_SHUNT_I, signed 32 bits, mA; 04 R128; reset DESIGN CHOICE 0 with log entry 1 -/
  i : Int := 0
  /-- Charge accumulator, 64 bits of nC with 16 further fractional bits; 04 R103; reset 0 at R109's 190 ms -/
  qFrac : Int := 0
  /-- AFE_SHUNT_STATUS.ACTIVE, 1 bit (0 = A, 1 = B); 04 R128; reset DESIGN CHOICE 0 with log entry 1 -/
  activeB : Bool := false
  /-- AFE_SHUNT_STATUS.MOD_A_FAILED, 1 bit; 04 R128; reset DESIGN CHOICE 0 with log entry 1 -/
  aFailed : Bool := false
  /-- AFE_SHUNT_STATUS.MOD_B_FAILED, 1 bit; 04 R128; reset DESIGN CHOICE 0 with log entry 1 -/
  bFailed : Bool := false
  /-- AFE_SHUNT_STATUS.DEAD, 1 bit: AFE_CH_STATUS.DEAD of channel 160 + s; 04 R126, R128; reset DESIGN CHOICE 0 with log entry 1 -/
  dead : Bool := false
  /-- The channel ran on one modulator, or was DEAD, and no boot since has found that both pass; 00 R19; reset 0 (kept over every
  reset) -/
  degraded : Bool := false
  /-- AFE_SHUNT_STATUS role exchanges, 16 bits, saturating; 04 R128; reset DESIGN CHOICE 0 with log entry 1 -/
  exchanges : Nat := 0
  /-- The idle modulator is calibrated and converts in parallel; 04 R105; reset 0 -/
  comparing : Bool := false
  /-- The roles exchange at the next window boundary; 04 R105; reset 0 -/
  exchangeDue : Bool := false
  /-- Coefficients of modulators A and B, offset and gain; 04 R127 (those of the active modulator are
  reported); reset DESIGN CHOICE 0 and 0x4000_0000 (1.0) with log entry 1 -/
  ofsA : Int := 0
  gainA : Nat := 1073741824
  ofsB : Int := 0
  gainB : Nat := 1073741824
  /-- AFE_CH_CAL_TICK of channel 160 + s, 64 bits; 04 R127; reset DESIGN CHOICE 0 with log entry 1 -/
  calTick : Nat := 0
  deriving DecidableEq, Repr

/-- The AFE block. -/
structure Afe where
  /-- AFE_STATUS.BOOT_CAL_DONE, 1 bit; 04 R120; reset 0 -/
  bootCalDone : Bool := false
  /-- AFE_CAL_CFG.MISMATCH, 8 bits; 04 R122; reset 0x32 -/
  mismatch : Nat := 50
  /-- AFE_CAL_CFG.GAIN_LIMIT, 8 bits; 04 R122; reset 0x1E -/
  gainLimit : Nat := 30
  /-- AFE_CAL_CFG.OFS_LIMIT, 8 bits; 04 R122; reset 0x14 -/
  ofsLimit : Nat := 20
  /-- AFE_SENSE_CFG.PERIODS, 8 bits; 04 R123; reset 0x03 -/
  sensePeriods : Nat := 3
  /-- AFE_SENSE_CFG.THRESH_MV, 8 bits; 04 R123; reset 0x50 -/
  senseThresh : Nat := 80
  /-- AFE_BLANK_CFG.POST_NS, 8 bits; 04 R123; reset 0x96 -/
  postNs : Nat := 150
  /-- AFE_BLANK_CFG.PRE_NS, 8 bits; 04 R123; reset 0x3C -/
  preNs : Nat := 60
  /-- AFE_SENSE_OPEN0/1 and AFE_CH_STATUS.SENSE_OPEN, 64 bits; 04 R124, R126; reset DESIGN CHOICE 0 with log entry 1 -/
  senseOpen : Vector Bool 64 := Vector.replicate 64 false
  /-- AFE_SENSE_LATCH0/1 (W1C), 64 bits; 04 R124; reset DESIGN CHOICE 0 with log entry 1 -/
  senseLatch : Vector Bool 64 := Vector.replicate 64 false
  /-- Channels 000 to 163; 04 R125 -/
  ch : Vector Channel 164 := Vector.replicate 164 {}
  /-- Chiplets AFE0 to AFE3; 04 R95 -/
  chip : Vector Chiplet 4 := Vector.replicate 4 {}
  /-- Shunts 0 to 3; 04 R128 -/
  shunt : Vector Shunt 4 := Vector.replicate 4 {}
  /-- AFE_FAILMAP0-5 as read in this boot, channels in the order recorded; 04 R117; reset: the stored map -/
  failMap : List Nat := []
  /-- Failure map stored in flash, channels in the order recorded; 04 R117; reset empty (kept over every reset) -/
  failMapStored : List Nat := []
  deriving DecidableEq, Repr

end Sys2Proof.Machine
end

