-- ==== Sys2Proof/Machine/StateChain.lean ====
section
/-! DEFINITION. State of the cell chains and what the module holds of the Cinus nodes
(09_cell_chains.md). -/

namespace Sys2Proof.Machine

/-- CHN_RING_STATUS.STATE (R304, R324). -/
inductive RingState where
  | off | waking | enumerating | ring | twoChain | failed | shipping | ship | enumerated
  deriving DecidableEq, Repr

/-- CHN_RING_STATUS.CTR (R322, R324). -/
inductive CtrState where
  | none | open_ | precharge | closed | fault
  deriving DecidableEq, Repr

/-- CHN_RING_STATUS.LAST_KIND (R313, R324). -/
inductive SweepKind where
  | ok | split | skewed | incomplete
  deriving DecidableEq, Repr

/-- One cell's value (R327). -/
structure Cell where
  /-- CHN_CELL.VALID, 1 bit; 09 R327; reset 0 -/
  valid : Bool := false
  /-- CHN_CELL.CLIPPED, 1 bit; 09 R327; reset 0 -/
  clipped : Bool := false
  /-- CHN_CELL.HELD, 1 bit; 09 R327; reset 0 -/
  held : Bool := false
  /-- CHN_CELL.SKEWED, 1 bit; 09 R327; reset 0 -/
  skewed : Bool := false
  /-- CHN_CELL.BAL (balancing requested), 1 bit; 09 R327; reset 0 -/
  bal : Bool := false
  /-- CHN_CELL.SEQ, 8 bits; 09 R327; reset 0 -/
  seq : Nat := 0
  /-- CHN_CELL.V, 16 bits, 0.1 mV; 09 R327; reset 0 -/
  v : Nat := 0
  /-- Tick of its last VALID value; 09 R311; reset 0 -/
  validAt : Nat := 0
  /-- The cell is UNMONITORED, 1 bit; 09 R311; reset 0 -/
  unmonitored : Bool := false
  /-- Tick at which it became UNMONITORED; 12 R408; reset 0 -/
  unmonAt : Nat := 0
  deriving DecidableEq, Repr

/-- One node as the module knows it (R298, R316, R328). -/
structure Node where
  /-- CHN_NODE_STATUS.PRESENT and CHN_NODES_PRESENT bit, 1 bit; 09 R325, R328; reset DESIGN CHOICE 0 with log entry 1 -/
  present : Bool := false
  /-- CHN_NODE_STATUS.DIAG_FAIL and CHN_NODES_DIAG bit: a path has failed, 19 bits of failed paths; 09 R328; reset DESIGN CHOICE 0 with log entry 1 -/
  failedPaths : Vector Bool 19 := Vector.replicate 19 false
  /-- Consecutive DIAGs out of tolerance (positive) or within it after a failure (negative), per path; 09 R316; reset 0 -/
  diagRun : Vector Int 19 := Vector.replicate 19 0
  /-- CHN_NODE_STATUS.MW_TRIPPED, 1 bit; 09 R328; reset DESIGN CHOICE 0 with log entry 1 -/
  mwTripped : Bool := false
  /-- CHN_NODES_MW bit (W1C), 1 bit; 09 R325; reset DESIGN CHOICE 0 with log entry 1 -/
  mwLatch : Bool := false
  /-- CHN_NODE_STATUS.BAL_THERMAL, 1 bit; 09 R328; reset DESIGN CHOICE 0 with log entry 1 -/
  balThermal : Bool := false
  /-- CHN_NODE_STATUS.LINK_A_LOST, 1 bit; 09 R328; reset DESIGN CHOICE 0 with log entry 1 -/
  linkALost : Bool := false
  /-- CHN_NODE_STATUS.LINK_B_LOST, 1 bit; 09 R328; reset DESIGN CHOICE 0 with log entry 1 -/
  linkBLost : Bool := false
  /-- CHN_NODE_STATUS.CTR, 1 bit; 09 R328; reset DESIGN CHOICE 0 with log entry 1 -/
  ctr : Bool := false
  /-- CHN_NODE_BAL request in force, 18 bits; 09 R328; reset DESIGN CHOICE 0 with log entry 1 -/
  bal : Nat := 0
  /-- NEIGH flags sent with the request, 2 bits; 09 R298; reset 0 -/
  neigh : Nat := 0
  /-- The request and NEIGH flags in force before the last BAL, which a break can lose in flight; 09 R315; reset 0 -/
  balPrev : Nat × Nat := (0, 0)
  /-- CHN_NODE_DIAG_DEV, 32 bits, 10 uV; 09 R328; reset DESIGN CHOICE 0 with log entry 1 -/
  diagDev : Nat := 0
  /-- CHN_NODE_ERR CRC errors, 16 bits, saturating; 09 R328; reset DESIGN CHOICE 0 with log entry 1 -/
  errCrc : Nat := 0
  /-- CHN_NODE_ERR missing blocks, 16 bits, saturating; 09 R328; reset DESIGN CHOICE 0 with log entry 1 -/
  errMissing : Nat := 0
  /-- CHN_DELAY_A_n, ns, none = 0xFFFF_FFFF; 09 R325; reset DESIGN CHOICE none with log entry 1 -/
  delayA : Option Nat := none
  /-- CHN_DELAY_B_n, ns, none = 0xFFFF_FFFF; 09 R325; reset DESIGN CHOICE none with log entry 1 -/
  delayB : Option Nat := none
  /-- CONFIG written since enumeration; 09 R303, R315; reset 0 -/
  configured : Bool := false
  /-- Delays from A and from B that CONFIG last wrote; 09 R303, R314; reset none -/
  cfgDelays : Option (Option Nat × Option Nat) := none
  /-- ALERT of the last block: the status word has changed since it was last read; 09 R299; reset 0 -/
  alert : Bool := false
  /-- Status byte of the last temperature block, whose meaning the spec does not state; 09 R299; reset 0 -/
  tempStatus : Nat := 0
  /-- Temperatures read that take effect at the next tick; 09 R311; reset none -/
  tempNext : Option (Vector (Bool × Int) 4) := none
  /-- DIAG completed since CONFIG; 09 R315; reset 0 -/
  diagDone : Bool := false
  /-- Temperature words of inputs 0 to 3: VALID and signed 16-bit value; 09 R327; reset 0 -/
  temp : Vector (Bool × Int) 4 := Vector.replicate 4 (false, 0)
  /-- It has answered SHIP; 09 R323; reset 0 -/
  shipped : Bool := false
  deriving DecidableEq, Repr

/-- A sweep in progress (R307 to R313). -/
structure Sweep where
  /-- SEQ of the SAMPLE, 8 bits; 09 R297 -/
  seq : Nat
  /-- t_s on the root clock, 25 ps from reset; 09 R306 -/
  ts : Nat
  /-- SPLIT sent with it; 09 R307 -/
  split : Nat
  /-- How it is marked; 09 R313 -/
  kind : SweepKind
  /-- OFF_WINDOW; 09 R306 -/
  offWindow : Bool
  /-- t_s' - t_s of a SKEWED sweep, ns; 09 R313 -/
  skew : Int
  /-- Last node that sampled at t_s (nodes beyond sampled at t_s'); 09 R313 -/
  lastNormal : Nat
  /-- Blocks in: node, cell codes by input, and whether taken by re-read; 09 R309, R311 -/
  blocks : List (Nat × List Nat × Bool)
  /-- Nodes whose blocks came in with a bad CRC; 09 R311 -/
  bad : List Nat
  /-- Tick of its nominal instant; 09 R306 -/
  nom : Nat
  /-- Group whose edges t_s was placed between, and its period and N then, (0, 0) where it did not switch; 09 R306 -/
  grp : Option (Fin 4)
  edges : Nat × Nat
  deriving DecidableEq, Repr

/-- One ring (R295 to R325). Its configuration is its RING and NODE records. -/
structure Ring where
  /-- CHN_RING_STATUS.STATE, 4 bits; 09 R324; reset OFF -/
  state : RingState := .off
  /-- CHN_RING_STATUS.SLOWED, 1 bit; 09 R324; reset 0 -/
  slowed : Bool := false
  /-- Sweeps run at every 2^k-th nominal instant; 09 R310; reset 0 -/
  slowLog2 : Nat := 0
  /-- CHN_RING_STATUS.OFF_WINDOW, 1 bit; 09 R324; reset 0 -/
  offWindow : Bool := false
  /-- Gap transactions that re-reads displaced and that await the next gap (CHN_RING_STATUS.DISPLACED, 1 bit, is 1 while
  there is one); 09 R310, R324, 03 R74; reset empty -/
  gapHeld : List Sys2Proof.GapOp := []
  /-- Sum, 0.1 mV, and number of the VALID cell values of the last complete sweep; 10 R332; reset none -/
  wholeSum : Option (Nat × Nat) := none
  /-- Transactions lost in flight, which are sent again in the next gap; 09 R315; reset empty -/
  resend : List Sys2Proof.GapOp := []
  /-- CHN_RING_STATUS.CTR, 3 bits; 09 R324; reset none -/
  ctr : CtrState := .none
  /-- The contactor node has reported FAULT, and neither OPEN nor CLOSED after a later command; 00 R19; reset 0 -/
  ctrFaulted : Bool := false
  /-- Contactor command outstanding: some true = close, some false = open; 09 R322; reset none -/
  ctrCmd : Option Bool := none
  /-- CHN_RING_STATUS.LAST_KIND, 2 bits; 09 R324; reset OK -/
  lastKind : SweepKind := .ok
  /-- CHN_RING_STATUS.LAST_SEQ, 8 bits; 09 R324; reset 0 -/
  lastSeq : Nat := 0
  /-- CHN_RING_STATUS.SPLIT, 8 bits; 09 R324; reset 0 -/
  split : Nat := 0
  /-- CHN_RING_BREAK: last node reached from A and first reached from B, none = no break; 09 R325; reset DESIGN CHOICE none with log entry 1 -/
  brk : Option (Nat × Nat) := none
  /-- CHN_SWEEP_SKEW, signed 32 bits, ns; 09 R325; reset DESIGN CHOICE 0 with log entry 1 -/
  skew : Int := 0
  /-- CHN_SWEEP_T, 64 bits, shelf time; 09 R325; reset DESIGN CHOICE 0 with log entry 1 -/
  sweepT : Nat := 0
  /-- CHN_SWEEP_READ, 32 bits, ns; 09 R325; reset DESIGN CHOICE 0 with log entry 1 -/
  sweepRead : Nat := 0
  /-- CHN_RING_COUNTS SPLIT, 8 bits, saturating; 09 R325; reset DESIGN CHOICE 0 with log entry 1 -/
  nSplit : Nat := 0
  /-- CHN_RING_COUNTS SKEWED, 8 bits, saturating; 09 R325; reset DESIGN CHOICE 0 with log entry 1 -/
  nSkewed : Nat := 0
  /-- CHN_RING_COUNTS breaks, 8 bits, saturating; 09 R325; reset DESIGN CHOICE 0 with log entry 1 -/
  nBreaks : Nat := 0
  /-- CHN_RING_COUNTS repairs, 8 bits, saturating; 09 R325; reset DESIGN CHOICE 0 with log entry 1 -/
  nRepairs : Nat := 0
  /-- CHN_BLOCK_ERR, 32 bits, saturating; 09 R325; reset DESIGN CHOICE 0 with log entry 1 -/
  blockErr : Nat := 0
  /-- CHN_SWEEP_COUNT, 32 bits, wrapping; 09 R325; reset DESIGN CHOICE 0 with log entry 1 -/
  sweepCount : Nat := 0
  /-- Sequence number of the next train, 8 bits; 09 R297; reset DESIGN CHOICE 0 with log entry 1 -/
  seq : Nat := 0
  /-- Balancing slot parity last broadcast, 1 bit; 09 R318; reset DESIGN CHOICE 0 with log entry 1 -/
  parity : Bool := false
  /-- Balance switches blanked until the next SAMPLE; 09 R319; reset 0 -/
  blanked : Bool := false
  /-- A tone was heard since last cleared (CHN_STATUS bits 7:4, W1C), 1 bit; 09 R326; reset DESIGN CHOICE 0 with log entry 1 -/
  toneHeard : Bool := false
  /-- The ring has failed, broken or lost a node since it was last in RING with every node present: it keeps
  DEGRADED set; 00 R19; reset 0 -/
  degraded : Bool := false
  /-- A status read by PROBE of every node is due in the next gap; 09 R321; reset 0 -/
  probeDue : Bool := false
  /-- DIAG of every node is due in the next gap (DIAG_NOW); 09 R325; reset 0 -/
  diagDue : Bool := false
  /-- Counts found by ENUM from A and from B; 09 R302; reset 0 -/
  nA : Nat := 0
  nB : Nat := 0
  /-- The ENUM from A reached port B; 09 R302; reset 0 -/
  enumPassed : Bool := false
  /-- ENUM has been sent from A, and from B; 09 R302; reset 0 -/
  enumA : Bool := false
  enumB : Bool := false
  /-- REVCHECK has been answered; 09 R302; reset 0 -/
  revDone : Bool := false
  /-- One above the highest address given from port B: 17 before the RING record is known; 09 R302, R303; reset 17 -/
  baseB : Nat := 17
  /-- The REVCHECK from B after the B-side nodes took their places is awaited; 09 R303; reset 0 -/
  recheck : Bool := false
  /-- Sweeps have started: every present node had its CONFIG and DIAG, and BLANK; 09 R303; reset 0 -/
  started : Bool := false
  /-- Tick of the last BLANK; 09 R303, R319; reset 0 -/
  blankAt : Nat := 0
  /-- A REVCHECK reply was a mismatch; 09 R303; reset 0 -/
  revMismatch : Bool := false
  /-- Counts held from before a loss of the root clock, checked after relock (R40); 09 R320; reset none -/
  relock : Option (Nat × Nat) := none
  /-- PROBEs 100 ms apart that passed the break in succession from A and from B, each with the tick of the last one;
  09 R314; reset 0 -/
  probeA : Nat × Nat := (0, 0)
  probeB : Nat × Nat := (0, 0)
  /-- Tick at which the ring was last found FAILED; 09 R303; reset 0 -/
  failTick : Nat := 0
  /-- Attempts of SHIP sent, 0 to 3, and the tick of the last; 09 R323; reset 0 -/
  shipTries : Nat := 0
  shipAt : Nat := 0
  /-- Sweep in progress; 09 R307; reset none -/
  sweep : Option Sweep := none
  /-- A completed sweep whose values take effect at the next tick, and its time from t_s in ns; 09 R311; reset none -/
  sweepDue : Option (Sweep × Nat) := none
  /-- Nodes N01 to N16; 09 R328 -/
  node : Vector Node 16 := Vector.replicate 16 {}
  /-- Cells 001 to 288; 09 R327 -/
  cell : Vector Cell 288 := Vector.replicate 288 {}
  deriving DecidableEq, Repr

/-- The CHN block. -/
structure Chn where
  /-- Rings C0 to C3; 09 R325 -/
  ring : Vector Ring 4 := Vector.replicate 4 {}
  /-- CHN_CFG.DIAG_S, 8 bits; 09 R326; reset 0x01 -/
  diagS : Nat := 1
  /-- CHN_CFG.STALE_MS, 8 bits; 09 R326; reset 0x0A -/
  staleMs : Nat := 10
  /-- CHN_CFG.DIAG_TOL_MV, 8 bits; 09 R326; reset 0x03 -/
  diagTol : Nat := 3
  deriving DecidableEq, Repr

end Sys2Proof.Machine
end

