-- ==== Sys2Proof/Machine/StateConfig.lean ====
section
/-! DEFINITION. State of the configuration bit-stream: staging, shadow, active sections, stored
slots, limits and the CFG registers (03_configuration_bitstream.md). -/

namespace Sys2Proof.Machine

/-- One record of a section, as it stands in the bit-stream (R67): its fields are read from its bytes
at the offsets of R68. -/
structure Rec where
  /-- TYPE of the record, 16 bits; 03 R67 -/
  type : Nat
  /-- Offset of the record within its bit-stream; 03 R80 (CFG_RESULT_OFFSET) -/
  off : Nat
  /-- All bytes of the record, header included; 03 R67 -/
  bytes : List Byte
  deriving DecidableEq, Repr

/-- One section as the loader lays it out (R64). -/
structure Section where
  /-- Section TYPE, 16 bits; 03 R65 -/
  type : Nat
  /-- Directory index of the section in its bit-stream; 03 R80 -/
  index : Nat
  /-- The section's records in order; 03 R67 -/
  recs : List Rec
  deriving DecidableEq, Repr

/-- A checked bit-stream: what the loader keeps of it (R80). -/
structure Image where
  /-- KIND FULL; 03 R59 -/
  full : Bool
  /-- FLAGS bit 0 STORE; 03 R59 -/
  store : Bool
  /-- FLAGS bit 1 RAISE_ROLLBACK; 03 R59, R63 -/
  raiseRollback : Bool
  /-- ROLLBACK, 0 to 64; 03 R59 -/
  rollback : Nat
  /-- SHA-384 digest of the signed message, 48 bytes; 03 R60 -/
  digest : List Byte
  /-- The sections it carries; 03 R64 -/
  sections : List Section
  /-- The whole byte sequence, kept for STORE; 03 R87 -/
  raw : List Byte
  deriving DecidableEq, Repr

/-- CFG_STATUS.SHADOW (R89). -/
inductive ShadowState where
  | empty | receiving | checking | ready | rejected
  deriving DecidableEq, Repr

/-- A piece of a push placed into staging (R382). -/
structure Piece where
  /-- Offset of the piece in staging; 11 R382 -/
  off : Nat
  /-- Its bytes; 11 R382 -/
  data : List Byte
  deriving DecidableEq, Repr

/-- An open push (R79, R382). -/
structure Push where
  /-- Session that opened it; 11 R382 -/
  sess : Nat
  /-- Length announced, bytes; 11 R382 -/
  length : Nat
  /-- Pieces received, newest first; 11 R382 -/
  pieces : List Piece
  /-- Root time of its PUSH_BEGIN or last PUSH_DATA, ns since reset; 11 R382 -/
  at_ : Nat
  deriving DecidableEq, Repr

/-- The CFG block. -/
structure Cfg where
  /-- CFG_STATUS.SHADOW, 4 bits; 03 R89; reset EMPTY -/
  shadowState : ShadowState := .empty
  /-- Open push, if any; 03 R79, 11 R382; reset none -/
  push : Option Push := none
  /-- Bytes in staging handed to the loader; 03 R79; reset empty -/
  staging : List Byte := []
  /-- The shadow configuration; 03 R80; reset none -/
  shadow : Option Image := none
  /-- Active sections; 03 R83, R89; reset empty (no configuration) -/
  active : List Section := []
  /-- CFG_STATUS.ACTIVE_VALID, 1 bit; 03 R89; reset 0 -/
  activeValid : Bool := false
  /-- CFG_STATUS.UNSTORED, 1 bit; 03 R89; reset 0 -/
  unstored : Bool := false
  /-- CFG_STATUS.FAULT, 1 bit; 03 R89; reset 0 -/
  fault : Bool := false
  /-- CFG_STATUS.BOOT_SLOT, 2 bits; 03 R89; reset 0 -/
  bootSlot : Nat := 0
  /-- CFG_STATUS.SWAP_PENDING with its boundary tick N; 03 R82, R89; reset none -/
  swapPending : Option Nat := none
  /-- CFG_RESULT.CODE, 8 bits; 03 R91; reset 0x00 -/
  resultCode : Nat := 0
  /-- CFG_RESULT.SECTION, 8 bits; 03 R91; reset 0xFF -/
  resultSection : Nat := 255
  /-- CFG_RESULT.RECORD_TYPE, 16 bits; 03 R91; reset 0x0000 -/
  resultType : Nat := 0
  /-- CFG_RESULT_OFFSET, 32 bits; 03 R93; reset DESIGN CHOICE 0xFFFF_FFFF (none) with log entry 1 -/
  resultOffset : Nat := 4294967295
  /-- CFG_SWAP_TICK committed value, 64 bits; 03 R93, 15 R503; reset DESIGN CHOICE 0 with log entry 1 -/
  swapTick : Nat := 0
  /-- CFG_SWAP_TICK_LO held until _HI commits it; 15 R503; reset none -/
  swapTickLo : Option Nat := none
  /-- CFG_LAST_SWAP_TICK, 64 bits; 03 R93; reset DESIGN CHOICE 0 with log entry 1 -/
  lastSwapTick : Nat := 0
  /-- CFG_ACTIVE_ROLLBACK, 32 bits; 03 R93; reset DESIGN CHOICE 0 with log entry 1 -/
  activeRollback : Nat := 0
  /-- CFG_ECC_CORR, 32 bits, saturating; 03 R93; reset DESIGN CHOICE 0 with log entry 1 -/
  eccCorr : Nat := 0
  /-- CFG_DISPLACED_COUNT, 32 bits, saturating; 03 R93; reset DESIGN CHOICE 0 with log entry 1 -/
  displacedCount : Nat := 0
  /-- CFG_ACTIVE_DIGEST0-11, 48 bytes; 03 R93; reset DESIGN CHOICE zeros with log entry 1 -/
  activeDigest : List Byte := List.replicate 48 0
  /-- CFG_SHADOW_DIGEST0-11, 48 bytes; 03 R93; reset DESIGN CHOICE zeros with log entry 1 -/
  shadowDigest : List Byte := List.replicate 48 0
  /-- CFG_LIMIT_EFF for LIMIT_ID 0x0001 to 0x000A, ten signed 32-bit values; 03 R93, R75; reset: the
  values applied without a record -/
  limitEff : Vector Int 10 := Vector.replicate 10 0
  /-- Stored slots A and B in flash, byte sequences; 03 R87; reset none (kept over every reset) -/
  slotA : Option (List Byte) := none
  slotB : Option (List Byte) := none
  /-- Boot slot mark in flash: 0 none, 1 A, 2 B; 03 R87; reset 0 (kept over every reset) -/
  bootMark : Nat := 0
  /-- Swapped FULL bit-streams with STORE that wait to be written to flash, oldest first; 03 R87; reset none -/
  storePending : List Image := []
  deriving DecidableEq, Repr

end Sys2Proof.Machine
end

