-- ==== Sys2Proof/Machine/StateEnergy.lean ====
section
/-! DEFINITION. State of storage estimation and energy planning (10_energy_and_estimation.md). -/

namespace Sys2Proof.Machine

/-- EST_STR_STATUS.REST_STATE (R339, R359). -/
inductive RestState where
  | idle | rampDown | relaxing | reading | rampUp
  deriving DecidableEq, Repr

/-- One string's estimator (R330 to R346, R359, R360). Its parameters are its STRING_MODEL and
OCV_TABLE records. -/
structure Str where
  /-- EST_STR_STATUS.REST_STATE, 4 bits; 10 R359; reset IDLE -/
  rest : RestState := .idle
  /-- EST_STR_STATUS.HEALTHY, 1 bit; 10 R359; reset 0 -/
  healthy : Bool := false
  /-- EST_STR_STATUS.CONFLICT, 1 bit; 10 R359; reset 0 -/
  conflict : Bool := false
  /-- EST_STR_STATUS.BAND_WIDE, 1 bit; 10 R359; reset 0 -/
  bandWide : Bool := false
  /-- EST_STR_STATUS.V_VALID, 1 bit; 10 R359; reset 0 -/
  vValid : Bool := false
  /-- A forced rest asked for by EST_CTRL.FORCE_REST (EST_STR_STATUS.FORCED is 1 with it, with CONFLICT and with
  BAND_WIDE); 10 R337, R359; reset 0 -/
  forced : Bool := false
  /-- EST_STR_STATUS.TAPER, 1 bit; 10 R359; reset 0 -/
  taper : Bool := false
  /-- EST_STR_STATUS.REST_COUNT, 16 bits, saturating; 10 R359; reset 0 -/
  restCount : Nat := 0
  /-- SOC, 0.01 % with 32 fractional bits; 10 R333; reset DESIGN CHOICE 0 with log entry 1 -/
  soc : Int := 0
  /-- b, 0.01 % with 32 fractional bits; 10 R333; reset DESIGN CHOICE 0 with log entry 1 -/
  band : Int := 0
  /-- The string has its initial SOC, 1 bit; 10 R332; reset 0 -/
  socSet : Bool := false
  /-- SOC_V, 0.01 % (EST_STR_SOC_V is rounded), FP32 pattern; 10 R334; reset DESIGN CHOICE 0 with log entry 1 -/
  socV : Nat := 0
  /-- v1 of the voltage model, FP32 pattern, mV; 10 R334; reset 0 at the passage to ARMED -/
  v1 : Nat := 0
  /-- v2 of the voltage model, FP32 pattern, mV; 10 R334; reset 0 at the passage to ARMED -/
  v2 : Nat := 0
  /-- v_ocv, FP32 pattern, mV (EST_STR_VOCV); 10 R334; reset DESIGN CHOICE 0 with log entry 1 -/
  vOcv : Nat := 0
  /-- R0, FP32 pattern, micro-ohm (EST_STR_R0); 10 R335; reset R0_UOHM at activation, DESIGN CHOICE 0 before with log entry 1 -/
  r0 : Nat := 0
  /-- n, qualifying steps taken; 10 R335; reset 0 -/
  r0n : Nat := 0
  /-- Consecutive qualifying steps that were outliers; 10 R335; reset 0 -/
  outliers : Nat := 0
  /-- Current and string voltage of the previous tick, mA and mV; 10 R335; reset none -/
  prevIV : Option (Int × Int) := none
  /-- AFE_SHUNT_Q at the last 1 ms update, nC; 10 R333; reset none -/
  lastQ : Option Int := none
  /-- Sum of the tick currents of the millisecond, mA; 10 R334; reset 0 -/
  sumI : Int := 0
  /-- Ticks summed; 10 R334; reset 0 -/
  nI : Nat := 0
  /-- EST_STR_CAP, 32 bits, mAh (held with 16 fractional bits); 10 R360; reset CAP_MAH at activation, DESIGN CHOICE 0 before with log entry 1 -/
  cap : Nat := 0
  /-- EST_STR_OCV, 32 bits, mV; 10 R360; reset DESIGN CHOICE 0 with log entry 1 -/
  ocv : Nat := 0
  /-- EST_STR_REST_T, 64 bits, shelf time; 10 R360; reset DESIGN CHOICE 0 with log entry 1 -/
  restT : Nat := 0
  /-- SOC of the previous reading, charge then, and its time; 10 R340; reset none -/
  lastReading : Option (Int × Int × Nat) := none
  /-- EST_STR_ILIM_CHG, mA; 10 R360; reset DESIGN CHOICE 0 with log entry 1 -/
  ilimChg : Int := 0
  /-- EST_STR_ILIM_DCH, mA; 10 R360; reset DESIGN CHOICE 0 with log entry 1 -/
  ilimDch : Int := 0
  /-- e of R347, J (EST_STR_E in kJ); 10 R360; reset DESIGN CHOICE 0 with log entry 1 -/
  e : Int := 0
  /-- Ramp of a rest's limits, 1/50,000 of the full limit, one step a tick; 10 R339; reset 50,000 (full) -/
  restRamp : Nat := 50000
  /-- Reading window: sum of v + v1 + v2 in 1/256 mV, and its samples; 10 R339; reset 0 -/
  readSum : Int := 0
  readN : Nat := 0
  /-- Cell voltages of the reading window, for balancing: sum in 0.1 mV and sweeps of each cell; 10 R340; reset empty -/
  cellSums : List (Nat × Nat) := []
  /-- Cells requested for balancing until the next reading, by cell number; 10 R340; reset empty -/
  balance : List Nat := []
  /-- Updates of 1 ms in ARMED the string has been at or below REST_I_MAX_MA; 10 R342; reset 0 -/
  quietMs : Nat := 0
  /-- A passive reading has been taken in this time; 10 R342; reset 0 -/
  quietRead : Bool := false
  /-- Updates of 1 ms in succession with V_VALID and SOC and SOC_V apart by more than CONFLICT_PCT, and with them not so
  apart; 10 R343; reset 0 -/
  diffMs : Nat := 0
  sameMs : Nat := 0
  /-- Ticks of t0 and of tr of the rest; 10 R339; reset 0 -/
  restAt : Nat := 0
  relaxAt : Nat := 0
  /-- Updates of 1 ms in succession in which the resting string's current was above REST_I_MAX_MA; 10 R341; reset 0 -/
  overMs : Nat := 0
  /-- Balancing suspended by a rest; 10 R339; reset 0 -/
  balSuspended : Bool := false
  deriving DecidableEq, Repr

/-- The EST block. -/
structure Est where
  /-- Strings 0 to 3; 10 R360 -/
  str : Vector Str 4 := Vector.replicate 4 {}
  /-- EST_STATUS.OVERLOAD, 1 bit; 10 R355; reset 0 -/
  overload : Bool := false
  /-- EST_STATUS.RESERVE_LOW, 1 bit; 10 R355; reset 0 -/
  reserveLow : Bool := false
  /-- EST_STATUS.SINGLE_STRING, 1 bit; 10 R355; reset 0 -/
  singleString : Bool := false
  /-- EST_STATUS.ECLIPSE_BLOCKED, 1 bit; 10 R355; reset 0 -/
  blocked : Bool := false
  /-- The due rest whose block was recorded (event 0x9013 once per slot); 10 R338; reset 0 -/
  postponed : Bool := false
  /-- EST_STATUS.GRID_LIMITED, 1 bit; 10 R355; reset 0 -/
  gridLimited : Bool := false
  /-- EST_STATUS.READY, 1 bit; 10 R355; reset 0 -/
  ready : Bool := false
  /-- EST_CTRL.ECLIPSE_EN, 1 bit; 10 R356; reset 1 -/
  eclipseEn : Bool := true
  /-- EST_RESERVE_CFG.RATED_KW, 16 bits; 10 R357; reset 0x0000 -/
  ratedKw : Nat := 0
  /-- EST_RESERVE_CFG.SECONDS, 16 bits; 10 R357; reset 0x001E -/
  seconds : Nat := 30
  /-- EST_GRID_CFG.RAMP, 16 bits, 10 W/s; 10 R357; reset 0x00C8 -/
  ramp : Nat := 200
  /-- EST_GRID_CFG.AMAX, 8 bits, 10 W/s^2; 10 R357; reset 0x64 -/
  amax : Nat := 100
  /-- EST_GRID_CFG.JMAX, 8 bits, 10 W/s^3; 10 R357; reset 0x64 -/
  jmax : Nat := 100
  /-- RAMP, AMAX and JMAX in force: a value written applies from the next planner cycle; 10 R357; reset 200, 100, 100 -/
  rampNow : Nat := 200
  amaxNow : Nat := 100
  jmaxNow : Nat := 100
  /-- EST_OVL_CFG.CAP_STEP, 16 bits, W; 10 R357; reset 0x07D0 -/
  capStep : Nat := 2000
  /-- EST_OVL_CFG.OVL_AVG_S, 8 bits; 10 R357; reset 0x0A -/
  ovlAvgS : Nat := 10
  /-- EST_OVL_S.OVL_S, 16 bits; 10 R357; reset 0x003C -/
  ovlS : Nat := 60
  /-- EST_GRID_TARGET, signed 32 bits, W; 10 R358; reset DESIGN CHOICE 0 with log entry 1 -/
  gridTarget : Int := 0
  /-- Target of R349 without the allowance, W: GRID_REQ of STATUS; 11 R395; reset 0 -/
  gridReq : Int := 0
  /-- Grid profile position g, mW with 24 fractional bits (EST_GRID_POS in W); 10 R350; reset DESIGN CHOICE 0 with log entry 1 -/
  gP : Int := 0
  /-- Grid profile velocity, mW/ms with 24 fractional bits (EST_GRID_VEL); 10 R350; reset DESIGN CHOICE 0 with log entry 1 -/
  gV : Int := 0
  /-- Grid profile acceleration, mW/ms^2 with 24 fractional bits; 10 R350; reset 0 -/
  gA : Int := 0
  /-- The grid profile runs (RUN); 10 R350; reset 0 -/
  gRunning : Bool := false
  /-- EST_GRID_LIMIT, W; 10 R358; reset DESIGN CHOICE 0 with log entry 1 -/
  gridLimit : Int := 0
  /-- EST_GRID_ALLOW received, W; none until one is received (then the PSU capacity); 10 R349; reset none -/
  gridAllow : Option Nat := none
  /-- EST_E_PLAN, J (register in kJ); 10 R358; reset DESIGN CHOICE 0 with log entry 1 -/
  ePlan : Int := 0
  /-- EST_E_RES, J (register in kJ); 10 R358; reset DESIGN CHOICE 0 with log entry 1 -/
  eRes : Int := 0
  /-- EST_T_RES, s, none = 0xFFFF_FFFF; 10 R358; reset DESIGN CHOICE none with log entry 1 -/
  tRes : Option Nat := none
  /-- EST_P_STORAGE_AVG, signed 32 bits, W; 10 R358; reset DESIGN CHOICE 0 with log entry 1 -/
  pSt : Int := 0
  /-- EST_LOAD_AVG, W; 10 R358; reset DESIGN CHOICE 0 with log entry 1 -/
  loadAvg : Int := 0
  /-- EST_CAP_TARGET, W, none = 0xFFFF_FFFF; 10 R358; reset DESIGN CHOICE none with log entry 1 -/
  capTarget : Option Int := none
  /-- EST_NEXT_REST string and seconds, 4 and 28 bits; 10 R358; reset DESIGN CHOICE 0 with log entry 1 -/
  nextRestStr : Nat := 0
  nextRestS : Nat := 0
  /-- Planner cycles run (100 ms each), the clock of the rotation; 10 R347; reset 0 -/
  cycles : Nat := 0
  /-- Ticks of the last 1 ms update and of the last planner cycle; 10 R333, R347; reset none -/
  estTick : Option Nat := none
  planTick : Option Nat := none
  /-- Tick at which a due rest was last tried; 10 R338; reset 0 -/
  triedTick : Nat := 0
  /-- Cycle at which the next rotation slot falls due, 0 before the first is set; 10 R337; reset 0 -/
  restDueAt : Nat := 0
  /-- Event 0x9040 of the thermal ramp has been recorded and its condition holds; 12 R421; reset 0 -/
  rampLimited : Bool := false
  /-- Tick and primary-tray load of each planner cycle in the window, newest first, W; 10 R349; reset empty -/
  loadHist : List (Nat × Int) := []
  /-- Tick and storage power of each planner cycle in the window, newest first, W; 10 R351; reset empty -/
  storeHist : List (Nat × Int) := []
  /-- Tick and largest |storage power| of each planner cycle of the last 60 s, newest first, W; 10 R338; reset empty -/
  peakHist : List (Nat × Int) := []
  /-- Largest |storage power| since the last planner cycle, W; 10 R338; reset 0 -/
  peakNow : Int := 0
  /-- Bus-side sums since the last planner cycle: load, storage power, ticks; 10 R349, R351; reset 0 -/
  accLoad : Int := 0
  accStore : Int := 0
  accN : Nat := 0
  deriving DecidableEq, Repr

end Sys2Proof.Machine
end

