-- ==== Sys2Proof/Machine/StateFce.lean ====
section
/-! DEFINITION. State of the forecast engine (07_forecast_engine.md). FP32 values are their bit
patterns, natural numbers below 2^32 (R219). -/

namespace Sys2Proof.Machine

/-- FCE_TEST_STATUS.STATE (R244). -/
inductive FceTest where
  | idle | running | done | aborted
  deriving DecidableEq, Repr

/-- The model an evaluation in flight keeps over a swap of MODEL or COPY_SCHED (R235). -/
structure OldModel where
  /-- The records of the configuration it was dispatched under; 07 R235 -/
  recs : List Rec
  /-- Head of its instance then, OUT_LEN rows of K FP32 patterns; 07 R237 -/
  w : Option (List (List Nat))
  /-- State region of the old instance, as FInst.stateMem; 07 R231, R235 -/
  stateMem : List Host.Cell
  /-- Tick of the swap that replaced it; 07 R235 -/
  swapTick : Nat
  deriving DecidableEq, Repr

/-- One evaluation in flight (R231). -/
structure Eval where
  /-- Input tick t_in of its round; 07 R214 -/
  tIn : Nat
  /-- Its inputs as FP32 patterns, one for each input position; 07 R223, R227 -/
  inputs : List Nat
  /-- Doublings of d counted at dispatch; 07 R232 -/
  doublings : Nat
  /-- Its deadline has been judged missed; 07 R232 -/
  missed : Bool
  /-- RESTORE of its round; 07 R232, R242 -/
  restore : Nat
  /-- Numbers of the COPY_ENTRY records of its model whose copies are not complete; 07 R229 -/
  copiesLeft : List Nat
  /-- Its result is withheld, by a memory error or for its inputs; 07 R227, R230 -/
  withheld : Bool
  /-- Its model where a swap has replaced it; 07 R235 -/
  old : Option OldModel
  deriving DecidableEq, Repr

/-- One completed evaluation: its result (R215) and what the head learns from (R237). -/
structure FResult where
  /-- Input tick t_r; 07 R215 -/
  tIn : Nat
  /-- x[1..OUT_LEN], W; 07 R223 -/
  x : List Int
  /-- From a sub-sampled instance; 07 R232 -/
  sub : Bool
  /-- A value saturated; 07 R223 -/
  sat : Bool
  /-- A NaN reached the output conversion: there is no result for a frame; 07 R219 -/
  nan : Bool
  /-- Usable in frames (not withheld); 07 R215 -/
  usable : Bool
  /-- Head input h, K FP32 patterns, empty without a head or once a swap has replaced it; 07 R237 -/
  h : List Nat
  /-- Head output y before conversion, OUT_LEN FP32 patterns; 07 R237 -/
  y : List Nat
  deriving DecidableEq, Repr

/-- One forecast instance (R213, R231 to R239, R245 to R247). -/
structure FInst where
  /-- FCE_INST_STATUS.ACTIVE, 1 bit; 07 R245; reset 0 -/
  active : Bool := false
  /-- FCE_INST_STATUS.NO_RESULT, 1 bit; 07 R245; reset 0 -/
  noResult : Bool := false
  /-- Tier pages that copies of the instance wait for (FCE_INST_STATUS.COPY_WAIT, 1 bit, is 1 while there is
  one); 07 R230, R245; reset empty -/
  copyWait : List Nat := []
  /-- FCE_INST_STATUS.INPUT_HELD, 1 bit; 07 R245; reset 0 -/
  inputHeld : Bool := false
  /-- FCE_INST_STATUS.ADAPT_SUSPENDED, 1 bit; 07 R245; reset 0 -/
  suspended : Bool := false
  /-- FCE_INST_STATUS.GUARD_CLAMPED, 1 bit; 07 R245; reset 0 -/
  guardClamped : Bool := false
  /-- FCE_INST_STATUS.OUT_SAT, 1 bit; 07 R245; reset 0 -/
  outSat : Bool := false
  /-- FCE_INST_STATUS.NAN, 1 bit; 07 R245; reset 0 -/
  nan : Bool := false
  /-- FCE_INST_STATUS.DIV_LOG2, 4 bits, 0 to 6; 07 R245; reset 0 -/
  divLog2 : Nat := 0
  /-- FCE_INST_CTRL.ADAPT_DIS, 1 bit; 07 R246; reset 0 -/
  adaptDis : Bool := false
  /-- Evaluations in flight, oldest first, at most 8 (IN_FLIGHT is their number); 07 R231; reset empty -/
  flight : List Eval := []
  /-- Doublings of d so far; 07 R232; reset 0 -/
  doublings : Nat := 0
  /-- Consecutive evaluations within their deadlines; 07 R232; reset 0 -/
  onTime : Nat := 0
  /-- Consecutive due rounds in which each input was invalid; 07 R227; reset empty -/
  badRounds : List Nat := []
  /-- Held value of each input position; 07 R227; reset empty -/
  held : List Int := []
  /-- State region: its bytes that are not zero, by rising offset; 07 R224, R231; reset empty (all zero) -/
  stateMem : List Host.Cell := []
  /-- Results kept, newest first; 07 R215, R237; reset empty -/
  results : List FResult := []
  /-- W, OUT_LEN rows of K FP32 patterns; none until it starts at the base weights; 07 R237; reset none -/
  w : Option (List (List Nat)) := none
  /-- P, K rows of K FP32 patterns; 07 R237; reset none -/
  pMat : Option (List (List Nat)) := none
  /-- ms of the error measure, FP32 pattern; 07 R239; reset 0 -/
  ms : Nat := 0
  /-- err_rms, FP32 pattern (FCE_INST_ERR_RMS is its integer in W); 07 R239, R247; reset 0 -/
  errRms : Nat := 0
  /-- Consecutive updates with err_rms above REVERT_W; 07 R239; reset 0 -/
  revertRun : Nat := 0
  /-- Tick of the last reversion, from which HOLDOFF_MS runs; 07 R239; reset 0 -/
  suspendTick : Nat := 0
  /-- FCE_INST_LAT_AVG, ns; 07 R247; reset DESIGN CHOICE 0 with log entry 1 -/
  latAvg : Nat := 0
  /-- FCE_INST_EVALS, 32 bits, wrapping; 07 R247; reset DESIGN CHOICE 0 with log entry 1 -/
  evals : Nat := 0
  /-- FCE_INST_MISSES, 32 bits, saturating; 07 R247; reset DESIGN CHOICE 0 with log entry 1 -/
  misses : Nat := 0
  /-- FCE_INST_LAST_TIN, 64 bits; 07 R247; reset DESIGN CHOICE 0 with log entry 1 -/
  lastTin : Nat := 0
  /-- FCE_INST_ADAPT_COUNTS reversions, 16 bits, saturating; 07 R247; reset DESIGN CHOICE 0 with log entry 1 -/
  reversions : Nat := 0
  /-- FCE_INST_ADAPT_COUNTS P resets, 16 bits, saturating; 07 R247; reset DESIGN CHOICE 0 with log entry 1 -/
  pResets : Nat := 0
  /-- Completion latencies of the last 1 s, (tick, ticks taken), newest first; 07 R247; reset empty -/
  lats : List (Nat × Nat) := []
  deriving DecidableEq, Repr

/-- A round whose frame is not yet assembled (R214, R216). -/
structure Round where
  /-- 0 short, 1 long; 07 R214 -/
  long : Bool
  /-- t_in of the round; 07 R214 -/
  tIn : Nat
  /-- Instances due in it, by number 0 to 9; 07 R231 -/
  due : List Nat
  /-- The counted trays of each role at t_in; 07 R212, R218 -/
  trays : List (List (Fin 64))
  /-- Its deadline, ticks after t_in; 07 R216, R242 -/
  deadline : Nat
  /-- Oldest usable result, ticks: SHIFT_MAX or STALE_MS; 07 R215, R242 -/
  maxAge : Nat
  deriving DecidableEq, Repr

/-- The newest frame of a horizon (R215, R216). -/
structure Frame where
  /-- A frame has been delivered since the engine started, 1 bit; 07 R240; reset 0 -/
  valid : Bool := false
  /-- t_in, 64 bits; 07 R244; reset DESIGN CHOICE 0 with log entry 1 -/
  tIn : Nat := 0
  /-- t_d, 64 bits; 07 R244; reset DESIGN CHOICE 0 with log entry 1 -/
  tD : Nat := 0
  /-- Ticks from t_d for which it is fresh (STALE_MS of its round); 07 R217, R242; reset 0 -/
  freshFor : Nat := 0
  /-- lhat[1..n], W (FCE_SHORT_FRAME0-63 for the short frame); 07 R244; reset DESIGN CHOICE empty (reads 0) with log entry 1 -/
  lhat : List Int := []
  /-- SRC, two bits for each role; 07 R243; reset 0 -/
  src : Vector Nat 5 := Vector.replicate 5 0
  /-- PARTIAL, 1 bit; 07 R243; reset 0 -/
  partialFrame : Bool := false
  /-- SAT, 1 bit; 07 R243; reset 0 -/
  sat : Bool := false
  /-- SUBSAMPLED, 1 bit; 07 R243; reset 0 -/
  sub : Bool := false
  deriving DecidableEq, Repr

/-- The FCE block. -/
structure Fce where
  /-- FCE_STATUS.RUNNING, 1 bit; 07 R240; reset 0 -/
  running : Bool := false
  /-- FCE_CTRL.FORECAST_EN, 1 bit; 07 R241; reset 1 -/
  forecastEn : Bool := true
  /-- FCE_CTRL.ADAPT_EN, 1 bit; 07 R241; reset 1 -/
  adaptEn : Bool := true
  /-- Engine stopped by the die temperature (R409), 1 bit; 12 R409; reset 0 -/
  dieStop : Bool := false
  /-- FCE_STATUS.LONG_FRESH, 1 bit; 07 R240; reset 0 -/
  longFresh : Bool := false
  /-- FCE_SHORT_CFG.DEADLINE, 8 bits; 07 R242; reset 0x10 -/
  deadline : Nat := 16
  /-- FCE_SHORT_CFG.SHIFT_MAX, 8 bits; 07 R242; reset 0x08 -/
  shiftMax : Nat := 8
  /-- FCE_SHORT_CFG.RESTORE, 8 bits; 07 R242; reset 0x10 -/
  restore : Nat := 16
  /-- FCE_SHORT_CFG.PERIOD, 8 bits; 07 R242; reset 0x02 -/
  period : Nat := 2
  /-- FCE_LONG_CFG.STALE_MS, 8 bits; 07 R242; reset 0x14 -/
  staleMs : Nat := 20
  /-- FCE_LONG_CFG.DEADLINE_MS, 8 bits; 07 R242; reset 0x05 -/
  deadlineMs : Nat := 5
  /-- FCE_LONG_CFG.PERIOD_MS, 8 bits; 07 R242; reset 0x01 -/
  periodMs : Nat := 1
  /-- Newest short frame; 07 R216 -/
  short : Frame := {}
  /-- The short frame before it: the newest that was delivered before the delivery tick of the newest, in which it is still the one
  in use; 05 R144; reset as `short` -/
  shortPrev : Frame := {}
  /-- Newest long frame; 07 R216 -/
  long : Frame := {}
  /-- Rounds awaiting their frames, oldest first; 07 R216; reset empty -/
  rounds : List Round := []
  /-- Role from which the offers of the next short round start; 07 R231; reset 0 -/
  offerShort : Nat := 0
  /-- Role from which the offers of the next long round start; 07 R231; reset 0 -/
  offerLong : Nat := 0
  /-- Tick of the last head update; 07 R238; reset 0 -/
  headAt : Nat := 0
  /-- Instances I0 to I9; 07 R213 -/
  inst : Vector FInst 10 := Vector.replicate 10 {}
  /-- Sum of the latest reports of each role's counted trays at each tick, newest first, kept for the
  heads' targets: (tick, five sums); 07 R238; reset empty -/
  hist : List (Nat × List Int) := []
  /-- FCE_LAT_AVG samples of the last 1 s, (tick, ticks), newest first; 07 R244; reset empty -/
  lats : List (Nat × Nat) := []
  /-- Tiles in use at each tick of the last 1 s, (tick, tiles), newest first (FCE_TILE_UTIL is their average, 8 bits,
  %); 07 R233, R244; reset empty -/
  tileUse : List (Nat × Nat) := []
  /-- FCE_FRAMES_DELIVERED, 32 bits, wrapping; 07 R244; reset DESIGN CHOICE 0 with log entry 1 -/
  delivered : Nat := 0
  /-- FCE_FRAMES_DISCARDED, 32 bits, saturating; 07 R244; reset DESIGN CHOICE 0 with log entry 1 -/
  discarded : Nat := 0
  /-- FCE_FRAMES_PARTIAL, 32 bits, saturating; 07 R244; reset DESIGN CHOICE 0 with log entry 1 -/
  partials : Nat := 0
  /-- FCE_COPY_FAULTS, 32 bits, saturating; 07 R244; reset DESIGN CHOICE 0 with log entry 1 -/
  copyFaults : Nat := 0
  /-- FCE_TEST_STATUS.STATE, 4 bits; 07 R244; reset DESIGN CHOICE IDLE with log entry 1 -/
  test : FceTest := .idle
  /-- FCE_TEST_STATUS.DISPLACED, 1 bit; 07 R244; reset DESIGN CHOICE 0 with log entry 1 -/
  testDisplaced : Bool := false
  deriving DecidableEq, Repr

end Sys2Proof.Machine
end

