-- ==== Sys2Proof/Machine/StateLoop.lean ====
section
/-! DEFINITION. State of the control engine (05_control_engine.md). -/

namespace Sys2Proof.Machine

/-- LOOP_COMET_STATUS.SRC (R144, R163). -/
inductive CometSrc where
  | none | forecast | schedule
  deriving DecidableEq, Repr

/-- LOOP_SLOT_TEST.STATE (R168). -/
inductive TestState where
  | idle | pending | running | done | aborted | refused | displaced
  deriving DecidableEq, Repr

/-- One second-order section: main states, and shadow mantissas under one exponent (R138, R149). -/
structure SecState where
  /-- x1, signed 32 bits; 05 R138; reset 0 -/
  x1 : Int := 0
  /-- x2, signed 32 bits; 05 R138; reset 0 -/
  x2 : Int := 0
  /-- y1, signed 32 bits; 05 R138; reset 0 -/
  y1 : Int := 0
  /-- y2, signed 32 bits; 05 R138; reset 0 -/
  y2 : Int := 0
  /-- Shadow mantissas of x1, x2, y1, y2, signed 24 bits; 05 R149; reset 0 -/
  mx1 : Int := 0
  mx2 : Int := 0
  my1 : Int := 0
  my2 : Int := 0
  /-- Shadow exponent E_s of the four states, signed 8 bits; 05 R149; reset -128 (the exponent of zero) -/
  es : Int := -128
  deriving DecidableEq, Repr

/-- One 32-byte capture record (R159), by fields. -/
structure CapRec where
  /-- Tick of the evaluation; TICK holds its low 32 bits, and LOOP_SLOT_CAP_START the tick of the oldest
  record, 64 bits, 0 with none; 05 R159, R168 -/
  tick : Nat
  /-- SETPOINT; 05 R159 -/
  sp : Int
  /-- FEEDBACK; 05 R159 -/
  fb : Int
  /-- ERROR; 05 R159 -/
  err : Int
  /-- FF; 05 R159 -/
  ff : Int
  /-- OUT; 05 R159 -/
  out : Int
  /-- INJ; 05 R159 -/
  inj : Int
  /-- FLAGS; 05 R159 -/
  flags : Nat
  /-- An uncorrectable error has replaced the record's 32 bytes by zeros; 14 R460 -/
  lost : Bool := false
  deriving DecidableEq, Repr

/-- The oscillation detector of a slot (R155). -/
structure OscState where
  /-- Sign of the last non-zero error: -1, 0 (none yet) or 1; 05 R155; reset 0 -/
  sign : Int := 0
  /-- Evaluations since the last crossing, none before the first; 05 R155; reset none -/
  half : Option Nat := none
  /-- Peak |error| of the half-cycle in progress; 05 R155; reset 0 -/
  peak : Nat := 0
  /-- Evaluation numbers of the qualifying crossings kept, newest first; 05 R155; reset empty -/
  hits : List Nat := []
  /-- Evaluations run, a count the window is measured in; 05 R155; reset 0 -/
  evals : Nat := 0
  /-- Evaluations since the last qualifying crossing while frozen; 05 R156; reset 0 -/
  quiet : Nat := 0
  deriving DecidableEq, Repr

/-- The test signal of a slot (R157, R158). -/
structure TestRun where
  /-- LOOP_SLOT_TEST.STATE, 4 bits; 05 R168; reset DESIGN CHOICE IDLE with log entry 1 -/
  state : TestState := .idle
  /-- LOOP_SLOT_TEST.STATE reads REFUSED until the test in progress, if any, changes state; 05 R158, R168; reset 0 -/
  refused : Bool := false
  /-- First tick at which the test may begin; 05 R158; reset 0 -/
  notBefore : Nat := 0
  /-- Evaluations of the test run so far, j; 05 R157; reset 0 -/
  j : Nat := 0
  /-- Phase accumulator, 32 bits; 05 R157; reset 0 -/
  phase : Nat := 0
  /-- PRBS shift register; 05 R157; reset all ones at a test start (0 before any) -/
  lfsr : Nat := 0
  /-- LOOP_SLOT_TEST records written, 18 bits; 05 R168; reset DESIGN CHOICE 0 with log entry 1 -/
  records : Nat := 0
  deriving DecidableEq, Repr

/-- One loop slot (R130 to R160, R165 to R168). Its configuration is its SLOT record. -/
structure Slot where
  /-- Section states, 16 sections; 05 R138, R141; reset zero -/
  sec : Vector SecState 16 := Vector.replicate 16 {}
  /-- c_main, LOOP_SLOT_MAIN_OUT, signed 32 bits; 05 R168; reset DESIGN CHOICE 0 with log entry 1 -/
  cMain : Int := 0
  /-- c_shadow, LOOP_SLOT_SHADOW_OUT, signed 32 bits; 05 R168; reset DESIGN CHOICE 0 with log entry 1 -/
  cShadow : Int := 0
  /-- LOOP_SLOT_STATUS.SHADOW, 1 bit; 05 R166; reset 0 -/
  shadow : Bool := false
  /-- LOOP_SLOT_STATUS.ALT_BANK, 1 bit; 05 R166; reset 0 -/
  altBank : Bool := false
  /-- Bank to run from the next evaluation; 05 R152, R156; reset none -/
  bankReq : Option Bool := none
  /-- LOOP_SLOT_STATUS.FROZEN, 1 bit; 05 R166; reset 0 -/
  frozen : Bool := false
  /-- INTEG_SECTION is to be frozen or released from the next evaluation; 05 R156; reset none -/
  freezeReq : Option Bool := none
  /-- LOOP_SLOT_STATUS.FB_INVALID (the slot is held under R137), 1 bit; 05 R166; reset 0 -/
  fbInvalid : Bool := false
  /-- LOOP_SLOT_STATUS.BASALT_HELD, 1 bit; 05 R166; reset 0 -/
  basaltHeld : Bool := false
  /-- LOOP_SLOT_STATUS.OUT_SAT, 1 bit; 05 R166; reset 0 -/
  outSat : Bool := false
  /-- LOOP_SLOT_STATUS.MAIN_SAT, 1 bit; 05 R166; reset 0 -/
  mainSat : Bool := false
  /-- LOOP_SLOT_STATUS.SHADOW_OVF, 1 bit; 05 R166; reset 0 -/
  shadowOvf : Bool := false
  /-- LOOP_SLOT_STATUS.FF_INVALID, 1 bit; 05 R166; reset 0 -/
  ffInvalid : Bool := false
  /-- LOOP_SLOT_STATUS.FB_PARTIAL, 1 bit; 05 R166; reset 0 -/
  fbPartial : Bool := false
  /-- LOOP_SLOT_STATUS.DISPLACED, 1 bit; 05 R166; reset 0 -/
  displaced : Bool := false
  /-- LOOP_SLOT_STATUS.SNAP_HELD, 1 bit; 05 R166; reset 0 -/
  snapHeld : Bool := false
  /-- Saturation of the last 64 main evaluations, newest first; 05 R147; reset empty -/
  satWindow : List Bool := []
  /-- Consecutive clean main evaluations; 05 R147; reset 0 -/
  cleanRun : Nat := 0
  /-- Transfer offset d; 05 R139, R151; reset 0 -/
  rampD : Int := 0
  /-- ramp_left; 05 R139; reset 0 -/
  rampLeft : Nat := 0
  /-- ramp_len; 05 R139; reset 0 -/
  rampLen : Nat := 0
  /-- The producer of the output changed: a transfer begins at the next output; 05 R151; reset 0 -/
  transfer : Bool := false
  /-- Target of a transfer from a hold (R153), in place of the output last applied; 05 R153; reset none -/
  transferFrom : Option Int := none
  /-- Base setpoint of a GENERIC slot (LOOP_SLOT_SP), signed 32 bits; 05 R168; reset DESIGN CHOICE 0 with log entry 1 -/
  baseSp : Int := 0
  /-- Setpoint of the last evaluation, signed 32 bits; 05 R168; reset DESIGN CHOICE 0 with log entry 1 -/
  sp : Int := 0
  /-- LOOP_SLOT_FB, signed 32 bits; 05 R168; reset DESIGN CHOICE 0 with log entry 1 -/
  fb : Int := 0
  /-- LOOP_SLOT_ERR, signed 32 bits; 05 R168; reset DESIGN CHOICE 0 with log entry 1 -/
  err : Int := 0
  /-- LOOP_SLOT_FF, signed 32 bits; 05 R168; reset DESIGN CHOICE 0 with log entry 1 -/
  ff : Int := 0
  /-- LOOP_SLOT_OUT, signed 32 bits; 05 R168; reset DESIGN CHOICE 0 with log entry 1 -/
  out : Int := 0
  /-- Output last applied to the converters; 05 R140, R153; reset 0 -/
  applied : Int := 0
  /-- Transfer offset the last output carried; 05 R139, R151; reset 0 -/
  off : Int := 0
  /-- Injection of the last evaluation; 05 R159; reset 0 -/
  inj : Int := 0
  /-- LOOP_SLOT_SAT_COUNT, 32 bits, saturating; 05 R168; reset DESIGN CHOICE 0 with log entry 1 -/
  satCount : Nat := 0
  /-- LOOP_SLOT_COUNTS 31:24 switches to shadow, 8 bits, saturating; 05 R168; reset DESIGN CHOICE 0 with log entry 1 -/
  nShadow : Nat := 0
  /-- LOOP_SLOT_COUNTS 23:16 switches to main, 8 bits, saturating; 05 R168; reset DESIGN CHOICE 0 with log entry 1 -/
  nMain : Nat := 0
  /-- LOOP_SLOT_COUNTS 15:8 detector firings, 8 bits, saturating; 05 R168; reset DESIGN CHOICE 0 with log entry 1 -/
  nFire : Nat := 0
  /-- LOOP_SLOT_COUNTS 7:0 bank switches, 8 bits, saturating; 05 R168; reset DESIGN CHOICE 0 with log entry 1 -/
  nBank : Nat := 0
  /-- LOOP_SLOT_OSC_TICK, 64 bits; 05 R168; reset DESIGN CHOICE 0 with log entry 1 -/
  oscTick : Nat := 0
  /-- LOOP_OSC_LATCH bit (W1C), 1 bit; 05 R164; reset DESIGN CHOICE 0 with log entry 1 -/
  oscLatch : Bool := false
  /-- Oscillation detector; 05 R155 -/
  osc : OscState := {}
  /-- Test signal; 05 R157 -/
  test : TestRun := {}
  /-- Consecutive invalid evaluations of each FEEDBACK route, in route order, and whether it contributes zero
  in the present episode; 05 R137; reset empty -/
  routeBad : List (Nat × Bool) := []
  /-- Capture buffer, newest record first, at most 196,608; 05 R159; reset empty -/
  cap : List CapRec := []
  /-- Records the snapshot still waits for after a firing; 05 R160; reset none -/
  snapLeft : Option Nat := none
  deriving DecidableEq, Repr

/-- The LOOP block. -/
structure Loop where
  /-- LOOP_STATUS.BASALT_GROUPS, 4 bits; 05 R161; reset 0 -/
  basaltGroups : Vector Bool 4 := Vector.replicate 4 false
  /-- LOOP_STATUS.ACTIVE, 1 bit; 05 R161; reset 0 -/
  active : Bool := false
  /-- LOOP_XFER_CFG.CLEAN_LOG2, 8 bits; 05 R162; reset 0x0C -/
  cleanLog2 : Nat := 12
  /-- LOOP_XFER_CFG.SAT_LIMIT, 8 bits; 05 R162; reset 0x08 -/
  satLimit : Nat := 8
  /-- LOOP_XFER_CFG.RAMP, 8 bits; 05 R162; reset 0x10 -/
  ramp : Nat := 16
  /-- LOOP_COMET_CFG.CLAMP_KW, 16 bits; 05 R162; reset 0x0080 -/
  clampKw : Nat := 128
  /-- LOOP_COMET_CFG.BLEND, 8 bits; 05 R162; reset 0x08 -/
  blend : Nat := 8
  /-- LOOP_COMET_STATUS.AGE, 8 bits; 05 R163; reset 0xFF -/
  cometAge : Nat := 255
  /-- LOOP_COMET_STATUS.SRC, 2 bits; 05 R163; reset NONE -/
  cometSrc : CometSrc := .none
  /-- LOOP_COMET_STATUS.CLAMPED, 1 bit; 05 R163; reset 0 -/
  cometClamped : Bool := false
  /-- LOOP_COMET_P, signed 32 bits, W; 05 R164; reset DESIGN CHOICE 0 with log entry 1 -/
  cometP : Int := 0
  /-- LOOP_COMET_FCST_P, signed 32 bits, W; 05 R164; reset DESIGN CHOICE 0 with log entry 1 -/
  cometFcst : Int := 0
  /-- LOOP_COMET_SCHED_P, signed 32 bits, W; 05 R164; reset DESIGN CHOICE 0 with log entry 1 -/
  cometSched : Int := 0
  /-- Blend difference d; 05 R146; reset 0 -/
  blendD : Int := 0
  /-- Blend length b in force; 05 R146; reset 0 -/
  blendLen : Nat := 0
  /-- Blend ticks still to run; 05 R146; reset 0 -/
  blendLeft : Nat := 0
  /-- A tray report has arrived since entry into RUN, 1 bit; 05 R144; reset 0 -/
  reportSeen : Bool := false
  /-- LOOP_EVAL_MAX, fabric cycles; 05 R164; reset DESIGN CHOICE 0 with log entry 1 -/
  evalMax : Nat := 0
  /-- Slots L00 to L63; 05 R130 -/
  slot : Vector Slot 64 := Vector.replicate 64 {}
  deriving DecidableEq, Repr

end Sys2Proof.Machine
end

