-- ==== Sys2Proof/Machine/StateMemory.lean ====
section
/-! DEFINITION. State of the memories, the DMA channels, the event recorder, the Obsidian store, the
capture ring and the history (14_memory_dma_records.md). -/

namespace Sys2Proof.Machine

/-- One byte-addressed memory: the bytes that are not zero, by rising address. A byte with no entry
reads 0 (DESIGN CHOICE, log entry 3). -/
abbrev Memory := List Host.Cell

/-- DMA_CH_STATUS.STATE (R487). -/
inductive DmaState where
  | idle | running | suspended | preempted | done | aborted | bad | progError
  deriving DecidableEq, Repr

/-- One register set of a channel (R488). -/
structure DmaSet where
  /-- DMA_CH_SRC, 64 bits; 14 R488; reset DESIGN CHOICE 0 with log entry 1 -/
  src : Nat := 0
  /-- DMA_CH_DST, 64 bits; 14 R488; reset DESIGN CHOICE 0 with log entry 1 -/
  dst : Nat := 0
  /-- DMA_CH_LINE_LEN, 32 bits; 14 R488; reset DESIGN CHOICE 0 with log entry 1 -/
  lineLen : Nat := 0
  /-- DMA_CH_LINES, 16 bits; 14 R488; reset DESIGN CHOICE 0 with log entry 1 -/
  lines : Nat := 0
  /-- DMA_CH_SRC_STRIDE, 32 bits; 14 R488; reset DESIGN CHOICE 0 with log entry 1 -/
  srcStride : Nat := 0
  /-- DMA_CH_DST_STRIDE, 32 bits; 14 R488; reset DESIGN CHOICE 0 with log entry 1 -/
  dstStride : Nat := 0
  /-- DMA_CH_CTRL.CRC_WB, 1 bit; 14 R486; reset 0 -/
  crcWb : Bool := false
  /-- DMA_CH_CTRL.CRIT, 1 bit; 14 R486; reset 0 -/
  crit : Bool := false
  /-- DMA_CH_CTRL.ARM (shadow set), 1 bit; 14 R486; reset 0 -/
  arm : Bool := false
  deriving DecidableEq, Repr

/-- One DMA channel (R461 to R468). -/
structure DmaCh where
  /-- Active set; 14 R488 -/
  act : DmaSet := {}
  /-- Shadow set; 14 R488 -/
  shadow : DmaSet := {}
  /-- DMA_CH_STATUS.STATE, 4 bits; 14 R487; reset IDLE -/
  state : DmaState := .idle
  /-- DMA_CH_STATUS.DISPLACED, 1 bit; 14 R487; reset 0 -/
  displaced : Bool := false
  /-- DMA_CH_STATUS.CRC_VALID, 1 bit; 14 R487; reset 0 -/
  crcValid : Bool := false
  /-- DMA_CH_STATUS.DESCRIPTORS, 16 bits, wrapping; 14 R487; reset 0 -/
  descriptors : Nat := 0
  /-- DMA_CH_RESIDUE, 16 bits; 14 R488; reset DESIGN CHOICE 0 with log entry 1 -/
  residue : Nat := 0
  /-- DMA_CH_RESIDUE_B, 32 bits; 14 R488; reset DESIGN CHOICE 0 with log entry 1 -/
  residueB : Nat := 0
  /-- DMA_CH_CRC, 32 bits; 14 R488; reset DESIGN CHOICE 0 with log entry 1 -/
  crc : Nat := 0
  /-- Line and byte position of the transfer in progress; 14 R463; reset 0 -/
  line : Nat := 0
  pos : Nat := 0
  /-- CRC-32C register of the transfer in progress, before its final exclusive or; 14 R464; reset all ones -/
  crcRun : Nat := 0xFFFFFFFF
  /-- Bytes of the burst in progress that were read before a fault; 14 R467; reset empty -/
  held : List Byte := []
  /-- Tier page the channel waits for while SUSPENDED; 14 R467; reset none -/
  faultPage : Option Nat := none
  /-- Completion interrupt raised towards the management cores (descriptors ended); 14 R464; reset 0 -/
  irq : Nat := 0
  deriving DecidableEq, Repr

/-- One 32-byte record of the event recorder (R473), by fields; its CRC is computed when it is read. -/
structure Event where
  /-- CODE, 16 bits; 14 R473 -/
  code : Nat
  /-- INSTANCE, 16 bits; 14 R473, R508 -/
  inst : Nat
  /-- SEQ, low 32 bits shown; 14 R473 -/
  seq : Nat
  /-- TIME, 64 bits; 14 R473 -/
  time : Nat
  /-- TICK, 64 bits; 14 R473 -/
  tick : Nat
  /-- DATA, 32 bits; 14 R473, R508 -/
  data : Nat
  /-- SUPPRESSED, 16 bits, saturating; 14 R473 -/
  suppressed : Nat
  /-- An uncorrectable error lies in the record: its CRC fails; 14 R460 -/
  bad : Bool := false
  deriving DecidableEq, Repr

/-- The token bucket of one code (R475): tokens in units of 1/500,000. -/
structure Bucket where
  /-- Event code; 14 R475 -/
  code : Nat
  /-- Tokens, 1/500,000 each; 14 R475; reset full -/
  tokens : Nat
  /-- Tick the tokens are counted at; 14 R475 -/
  tick : Nat
  /-- Occurrences suppressed since the last record; 14 R473 -/
  suppressed : Nat
  deriving DecidableEq, Repr

/-- State of an Obsidian slot (R478, R491). -/
inductive ObsState where
  | free | live | closing | closed | kept
  deriving DecidableEq, Repr

/-- A trigger mark (R479). -/
structure Mark where
  /-- Code of the trigger; 14 R479 -/
  code : Nat
  /-- Frame index; 14 R479 -/
  frame : Nat
  /-- Shelf time; 14 R479 -/
  time : Nat
  deriving DecidableEq, Repr

/-- A frame of the Obsidian store (R477, R479). -/
structure ObsFrame where
  /-- Its tick and shelf time; 14 R479 -/
  tick : Nat
  time : Nat
  /-- Samples in key order; 14 R477 -/
  samples : List Int
  deriving DecidableEq, Repr

/-- One pre-trigger slot of the Obsidian store (R478, R479). -/
structure ObsSlot where
  /-- State; 14 R478, R491; reset FREE (kept over every reset) -/
  state : ObsState := .free
  /-- Trigger marks, oldest first, at most 8; 14 R478; reset DESIGN CHOICE empty with log entry 1 -/
  marks : List Mark := []
  /-- Frames, newest first, at most 20,500 of 256 samples; 14 R477, R478; reset empty -/
  frames : List ObsFrame := []
  /-- Frames written since the slot became LIVE; 14 R478; reset 0 -/
  written : Nat := 0
  /-- Frames left to receive while CLOSING; 14 R478; reset 0 -/
  left : Nat := 0
  /-- Key-channel map of its frames: key index, SOURCE and SHIFT; 14 R479; reset empty -/
  keyMap : List (Nat × Nat × Nat) := []
  /-- HOLD_FRAME, none before an input loss; 14 R479; reset none -/
  holdFrame : Option Nat := none
  /-- Order in which slots were closed; 14 R478; reset 0 -/
  closedOrder : Nat := 0
  deriving DecidableEq, Repr

/-- The capture block being filled for a channel (R482). -/
structure CapBlock where
  /-- Channel; 14 R482 -/
  ch : Nat
  /-- FORMAT, 0 to 2; 14 R482 -/
  format : Nat
  /-- T0, 25 ps after the tick of the last SYNC block; 14 R482 -/
  t0 : Nat
  /-- FLAGS gathered; 14 R482 -/
  flags : Nat
  /-- Bytes of the body so far and the entries they hold; 14 R482 -/
  body : List Byte
  count : Nat
  /-- Aperture of the next GRID16 sample, 25 ps after the start of tick 0; 14 R482 -/
  next : Int
  deriving DecidableEq, Repr

/-- The history page being filled for a channel (R483). -/
structure HistPage where
  /-- Channel; 14 R483 -/
  ch : Nat
  /-- Means of the intervals so far, newest first; 14 R483 -/
  means : List Int
  /-- Sum and count of VALID tick values in the interval in progress; 14 R483 -/
  sum : Int
  n : Nat
  /-- START_TICK and START_TIME; 14 R483 -/
  startTick : Nat
  startTime : Nat
  deriving DecidableEq, Repr

/-- The DMA, tier and memory block. -/
structure Mem where
  /-- SRAM, 512 MiB, byte addressed; 14 R456, R461; reset DESIGN CHOICE zeros with log entry 3 -/
  sram : Memory := []
  /-- HBM, 256 GB, byte addressed; 14 R456, R461; reset DESIGN CHOICE zeros with log entry 3 -/
  hbm : Memory := []
  /-- Tier space as its frames hold it, 128 GiB, byte addressed; 14 R466; reset DESIGN CHOICE zeros with log entry 3 -/
  tier : Memory := []
  /-- Tier backing in flash, one copy of every tier page, 128 GiB; 14 R458, R466; reset DESIGN CHOICE zeros with log
  entry 3 (kept over every reset) -/
  backing : Memory := []
  /-- Reserved part of the MRAM and bytes no record describes, byte addressed; 14 R476; reset DESIGN CHOICE zeros with log entry 3 -/
  mram : Memory := []
  /-- DMA channels D00 to D31; 14 R487 -/
  ch : Vector DmaCh 32 := Vector.replicate 32 {}
  /-- DMA_PROG_ERRORS, 32 bits, saturating; 14 R488; reset DESIGN CHOICE 0 with log entry 1 -/
  progErrors : Nat := 0
  /-- DMA_BUS_ERRORS, 32 bits, saturating; 14 R488; reset DESIGN CHOICE 0 with log entry 1 -/
  busErrors : Nat := 0
  /-- DMA_TIER_FAULTS, 32 bits, saturating; 14 R488; reset DESIGN CHOICE 0 with log entry 1 -/
  tierFaults : Nat := 0
  /-- DMA_TIER_PREEMPTS, 32 bits, saturating; 14 R488; reset DESIGN CHOICE 0 with log entry 1 -/
  tierPreempts : Nat := 0
  /-- Migrations of the last 1 s, (tick, ns), newest first, from which DMA_MIGRATE_AVG is read; 14 R488; reset empty -/
  migrations : List (Nat × Nat) := []
  /-- Resident tier pages, least recently used first: (page, dirty); 14 R466, R467; reset empty -/
  resident : List (Nat × Bool) := []
  /-- Channel of the last grant in each class of the arbiter; 14 R463; reset DESIGN CHOICE 31 with log entry 142 -/
  lastGrant : Vector Nat 3 := Vector.replicate 3 31
  /-- Page migrations in progress; 14 R467; reset empty -/
  migrating : List Nat := []
  deriving DecidableEq, Repr

/-- The EVR block: recorder, Obsidian store, capture and history. -/
structure Evr where
  /-- EVR_SEQ, 64 bits; 14 R492; reset DESIGN CHOICE 0 with log entry 1 (no record has entered) -/
  seq : Nat := 0
  /-- Records that entered in the tick in progress, 0 to 4; 14 R474; reset 0 -/
  entered : Nat := 0
  /-- Staging, oldest first, at most 4,096; 14 R474; reset empty -/
  staging : List Event := []
  /-- Events were lost and event 0xC040 is owed; 14 R474; reset 0 -/
  lossOwed : Bool := false
  /-- HBM event area, newest first, at most 16,777,216; 14 R474; reset empty -/
  hbmArea : List Event := []
  /-- MRAM recent area, newest first, at most 65,536; 14 R474; reset empty (kept over every reset) -/
  recent : List Event := []
  /-- Records written to the recent area, its write position; 14 R476; reset 0 (kept over every reset) -/
  recentPos : Nat := 0
  /-- Its wrap count, 32 bits; 14 R476; reset 0 (kept over every reset) -/
  recentWraps : Nat := 0
  /-- MRAM first area, oldest first, at most 8,192; 14 R474; reset empty (kept over every reset) -/
  first : List Event := []
  /-- EVR_STATUS.FIRST_FULL, 1 bit; 14 R491; reset 0 -/
  firstFull : Bool := false
  /-- EVR_STATUS.CAP_FROZEN, 1 bit; 14 R491; reset 0 -/
  capFrozen : Bool := false
  /-- EVR_STATUS.WRITER, 1 bit; 14 R491; reset 0 -/
  writer : Bool := false
  /-- Buckets of the codes seen; a code with no entry is full; 14 R475; reset empty -/
  buckets : List Bucket := []
  /-- EVR_SUPPRESSED, 32 bits, saturating; 14 R492; reset DESIGN CHOICE 0 with log entry 1 -/
  suppressed : Nat := 0
  /-- EVR_LOST, 32 bits, saturating; 14 R492; reset DESIGN CHOICE 0 with log entry 1 -/
  lost : Nat := 0
  /-- EVR_USER_DATA, 32 bits; 14 R492; reset DESIGN CHOICE 0 with log entry 1 -/
  userData : Nat := 0
  /-- EVR_CAP_CTRL.FREEZE_ON_TRIGGER, 1 bit; 14 R492; reset 0 -/
  freezeOnTrigger : Bool := false
  /-- Tick of the trigger 10 s after which the capture ring freezes; 14 R484; reset none -/
  freezeAt : Option Nat := none
  /-- Obsidian slots 0 to 3; 14 R478 -/
  slot : Vector ObsSlot 4 := Vector.replicate 4 {}
  /-- Slots closed since the slots were last cleared; 14 R478; reset 0 -/
  closedCount : Nat := 0
  /-- Sums of the 50 per-tick values of each key channel, and the ticks summed; 14 R477; reset empty -/
  keySums : List Int := []
  keyTicks : Nat := 0
  /-- What the sources of KIND other than 0x0 held at an input loss, by SOURCE; 14 R479; reset none -/
  keyHold : Option (List (Nat × Int)) := none
  /-- Capture ring blocks of 128 bytes, newest first; 14 R481; reset empty -/
  capRing : List (List Byte) := []
  /-- EVR_CAP_WRITTEN, 64 bits; 14 R492; reset DESIGN CHOICE 0 with log entry 1 -/
  capWritten : Nat := 0
  /-- Tick of the last SYNC block; 14 R482; reset 0 -/
  syncTick : Nat := 0
  /-- Blocks being filled; 14 R482; reset empty -/
  capOpen : List CapBlock := []
  /-- Routed channels: the window after the last one entered, and whether conversions were lost since the last block opened;
  14 R482; reset empty -/
  capSeen : List (Nat × Nat × Bool) := []
  /-- History pages in flash, newest first; 14 R483; reset empty (kept over every reset) -/
  history : List (List Byte) := []
  /-- EVR_HIST_WRITTEN, 64 bits; 14 R492; reset DESIGN CHOICE 0 with log entry 1 -/
  histWritten : Nat := 0
  /-- History pages being filled; 14 R483; reset empty -/
  histOpen : List HistPage := []
  /-- EVR_ECC_CORR of regions 0 to 4, 32 bits, saturating; 14 R492; reset DESIGN CHOICE 0 with log entry 1 -/
  eccCorr : Vector Nat 5 := Vector.replicate 5 0
  /-- EVR_ECC_UNCORR of regions 0 to 4, 32 bits, saturating; 14 R492; reset DESIGN CHOICE 0 with log entry 1 -/
  eccUncorr : Vector Nat 5 := Vector.replicate 5 0
  deriving DecidableEq, Repr

end Sys2Proof.Machine
end

