-- ==== Sys2Proof/Machine/StateNet.lean ====
section
/-! DEFINITION. State of the Ethernet port, HCP sessions, ingress queues and the row ring
(11_network_and_row.md, and the queues of 14_memory_dma_records.md). -/

namespace Sys2Proof.Machine

/-- Roles of R370; nested by their codes 1 to 3. -/
inductive Role where
  | monitor | operator | integrator
  deriving DecidableEq, Repr

/-- NET_STATUS.TIME_SRC (R398). -/
inductive TimeSrc where
  | resetCount | ptp | ring | holdover
  deriving DecidableEq, Repr

/-- An open subscription (R380). -/
structure Sub where
  /-- SUB_ID, 0 to 15; 11 R380 -/
  id : Nat
  /-- EVENTS (true) or REGISTERS; 11 R380 -/
  events : Bool
  /-- PERIOD_MS; 11 R380 -/
  periodMs : Nat
  /-- Register addresses; 11 R380 -/
  addrs : List Nat
  /-- CLASS_MASK; 11 R380 -/
  classMask : Nat
  /-- SEQ of the next TELEMETRY; 11 R380 -/
  seq : Nat
  /-- MISSED; 11 R380 -/
  missed : Nat
  /-- Latched values with their tick and shelf time, not yet sent; 11 R380 -/
  latched : Option (List Nat × Nat × Nat)
  /-- Tick of the last latch, or of the last EVENTS message; 11 R380 -/
  lastLatch : Option Nat
  /-- Recorder sequence up to which records were sent; 11 R380 -/
  sentUpTo : Nat
  /-- DROPPED; 11 R380 -/
  dropped : Nat
  deriving DecidableEq, Repr

/-- A fetch in flight (R381). -/
structure Fetch where
  /-- REQ_ID of its request; 11 R381 -/
  reqId : Nat
  /-- REGION, INDEX; 11 R381 -/
  region : Nat
  index : Nat
  /-- Next offset and bytes left; 11 R381 -/
  off : Nat
  left : Nat
  /-- Bytes sent so far, for the closing CRC-32C; 11 R381 -/
  sent : List Byte
  deriving DecidableEq, Repr

/-- One HCP session (R371 to R374, R402). -/
structure Sess where
  /-- NET_SESS_STATUS.OPEN, 1 bit; 11 R402; reset DESIGN CHOICE 0 with log entry 1 -/
  isOpen : Bool := false
  /-- NET_SESS_STATUS.ROLE, 2 bits; 11 R402; reset DESIGN CHOICE MONITOR (reads 0 while not open) with log entry 1 -/
  role : Role := .monitor
  /-- NET_SESS_STATUS.RACK_MANAGER, 1 bit; 11 R402; reset DESIGN CHOICE 0 with log entry 1 -/
  rackManager : Bool := false
  /-- NET_SESS_PEER0-3, 16 bytes; 11 R402; reset DESIGN CHOICE zeros with log entry 1 -/
  peer : List Byte := List.replicate 16 0
  /-- NET_SESS_PORT, 16 bits; 11 R402; reset DESIGN CHOICE 0 with log entry 1 -/
  port : Nat := 0
  /-- The module's address the session is bound to: 0 link-local, 1 global IPv6, 2 IPv4; 11 R363; reset 0 -/
  dst : Nat := 0
  /-- NET_SESS_RX_SEQ, 64 bits; 11 R402; reset DESIGN CHOICE 0 with log entry 1 -/
  rxSeq : Nat := 0
  /-- SEQs accepted within 1,024 below the highest; 11 R374; reset empty -/
  window : List Nat := []
  /-- The keys of the two directions, 32 bytes each, from the module and from the client; 11 R372; reset DESIGN CHOICE empty with
  log entry 1 -/
  txKey : List Byte := []
  rxKey : List Byte := []
  /-- SEQ of the next datagram sent; 11 R371; reset 1 -/
  txSeq : Nat := 1
  /-- Consecutive tag failures; 11 R374; reset 0 -/
  tagRun : Nat := 0
  /-- NET_SESS_DROPS tag failures, 16 bits, saturating; 11 R402; reset DESIGN CHOICE 0 with log entry 1 -/
  dropTag : Nat := 0
  /-- NET_SESS_DROPS replays, 16 bits, saturating; 11 R402; reset DESIGN CHOICE 0 with log entry 1 -/
  dropReplay : Nat := 0
  /-- Root time of the last accepted datagram, ns since reset (seconds idle count from it); 11 R402; reset 0 -/
  lastRx : Nat := 0
  /-- Open subscriptions (NET_SESS_SUBS); 11 R380, R402; reset empty -/
  subs : List Sub := []
  /-- Fetches in flight; 11 R381; reset empty -/
  fetches : List Fetch := []
  deriving DecidableEq, Repr

/-- A fragment of a handshake payload (R371, R372). -/
structure Fragment where
  /-- FRAG_OFFSET; 11 R371 -/
  off : Nat
  /-- Its bytes; 11 R371 -/
  data : List Byte
  deriving DecidableEq, Repr

/-- A handshake in progress (R372). -/
structure Handshake where
  /-- Session reserved for it; 11 R372 -/
  sess : Nat
  /-- HELLO complete and answered; 11 R372 -/
  replied : Bool
  /-- Peer address and port; 11 R402 -/
  peer : List Byte
  port : Nat
  /-- The module's address it came to; 11 R363 -/
  dst : Nat
  /-- Root time of its first fragment, or of its reply, ns since reset; 11 R372 -/
  at_ : Nat
  /-- TOTAL_LEN of the payload that is gathered, the HELLO's or the FINISH's, its fragments, latest first, and the root time of
  the first one; 11 R371, R372 -/
  total : Nat := 0
  parts : List Fragment := []
  partAt : Nat := 0
  /-- Role and RACK_MANAGER of its certificate; 11 R373 -/
  role : Role := .monitor
  rackManager : Bool := false
  /-- The holder's RSA_E, RSA_N and SLH_PK; 11 R373 -/
  holder : List Byte := []
  /-- SHA-384 of HELLO and HELLO_REPLY; 11 R372 -/
  digest : List Byte := []
  /-- The keys of the two directions; 11 R372 -/
  txKey : List Byte := []
  rxKey : List Byte := []
  deriving DecidableEq, Repr

/-- One queued message (R375, R384, R469): its entries hold 256 bytes of it each. FIRST and LAST of an entry are its place
in the message. -/
structure Msg where
  /-- Session; 14 R469 (sideband) -/
  sess : Nat
  /-- The inner message, header and body; 11 R375 -/
  inner : List Byte
  /-- Arrival time at the pins, ns; 14 R469 (sideband) -/
  arrival : Nat
  deriving DecidableEq, Repr

/-- One ingress queue (R469 to R471, R489, R490). -/
structure Queue where
  /-- Messages held, oldest first: the entries of tail, middle and head in order; 14 R469; reset empty -/
  msgs : List Msg := []
  /-- Entries of the head message already taken by FIFO_Q_DATA; 14 R471; reset 0 -/
  taken : Nat := 0
  /-- FIFO_Q_HWM, 21 bits; 14 R490; reset DESIGN CHOICE 0 with log entry 1 -/
  hwm : Nat := 0
  /-- FIFO_Q_MSGS, 32 bits, wrapping; 14 R490; reset DESIGN CHOICE 0 with log entry 1 -/
  accepted : Nat := 0
  /-- FIFO_Q_BUSY, 32 bits, saturating; 14 R490; reset DESIGN CHOICE 0 with log entry 1 -/
  busy : Nat := 0
  /-- FIFO_Q_DELAY_AVG, ns; 14 R490; reset DESIGN CHOICE 0 with log entry 1 -/
  delayAvg : Nat := 0
  /-- Messages the firmware has taken whole and not yet executed, oldest first; 14 R471; reset empty -/
  hand : List Msg := []
  /-- Reading core stalled on FIFO_Q_DATA; 14 R471; reset 0 -/
  stalled : Bool := false
  /-- Tick at which the queue was last served or empty; 11 R384; reset 0 -/
  servedAt : Nat := 0
  deriving DecidableEq, Repr

/-- A member of the ring as last seen (R393, R394, R396). -/
structure Member where
  /-- RACK_ID and SHELF_INDEX; 11 R389 -/
  rack : Nat
  shelf : Nat
  /-- Its latest STATUS; 11 R390 -/
  st : Sys2Proof.RowStatus
  /-- Root time of that STATUS, ns since reset; 11 R394 -/
  at_ : Nat
  /-- SEQ of that STATUS, and the root time at which its SEQ last ran back, which shows two members under its numbers; 11 R389,
  R391 -/
  seq : Nat
  twoAt : Option Nat
  /-- Subject of a FAILOVER since that STATUS; 11 R394 -/
  subject : Bool
  /-- FAILOVER with cause 4 sent in this episode; 11 R396 -/
  silentSent : Bool
  /-- Root time at which it was last seen as a candidate, ns since reset; 11 R397 -/
  candAt : Option Nat
  deriving DecidableEq, Repr

/-- The latest SHARE of a rack (R395). -/
structure RackShare where
  /-- SRC_RACK; 11 R389 -/
  rack : Nat
  /-- RACK_Q; 11 R390 -/
  q : Nat
  /-- Root time of arrival, ns since reset; 11 R395 -/
  at_ : Nat
  deriving DecidableEq, Repr

/-- A REG_READ_BLOCK in progress (R378). -/
structure BlockRead where
  /-- Session and REQ_ID of its request; 11 R378 -/
  sess : Nat
  reqId : Nat
  /-- Address of the next word, words left, and the values so far, newest first; 11 R378 -/
  addr : Nat
  left : Nat
  values : List Nat
  deriving DecidableEq, Repr

/-- The NET block. -/
structure Net where
  /-- NET_STATUS.TIME_SRC, 2 bits; 11 R398; reset 0 -/
  timeSrc : TimeSrc := .resetCount
  /-- NET_STATUS.SHED tier 1 in force, 1 bit; 11 R398; reset 0 -/
  shed1 : Bool := false
  /-- NET_STATUS.SHED tier 2 in force, 1 bit; 11 R398; reset 0 -/
  shed2 : Bool := false
  /-- MACsec CAK stored in flash: CKN and CAK, 48 bytes (NET_STATUS.CAK_STORED); 11 R377, R398; reset
  none stored: CAK_STORED 0 (kept over every reset) -/
  cak : Option (List Byte) := none
  /-- NET_STATUS.MACSEC_UP, 1 bit; 11 R398; reset 0 -/
  macsecUp : Bool := false
  /-- Receive secure channels of the SecY, at most 4; 11 R362; reset empty -/
  rxSc : List (BitVec 64) := []
  /-- NET_STATUS.LINK_UP, 1 bit; 11 R398; reset 0 -/
  linkUp : Bool := false
  /-- NET_STATUS.READY, 1 bit; 11 R398; reset 0 -/
  ready : Bool := false
  /-- NET_CFG.VLAN, 12 bits; 11 R399; reset 0x000 -/
  vlan : Nat := 0
  /-- NET_CFG.DSCP, 6 bits; 11 R399; reset 0x2E -/
  dscp : Nat := 46
  /-- NET_CFG.PTP_MODE, 2 bits; 11 R399; reset 0x1 -/
  ptpMode : Nat := 1
  /-- NET_CFG.PTP_DOMAIN, 8 bits; 11 R399; reset 0x00 -/
  ptpDomain : Nat := 0
  /-- NET_CFG.AUTO_RUN, 1 bit; 11 R399; reset 1 -/
  autoRun : Bool := true
  /-- NET_CFG.IPV4_EN, 1 bit; 11 R399; reset 0 -/
  ipv4En : Bool := false
  /-- NET_CFG.MACSEC_REQ, 1 bit; 11 R399; reset 0 -/
  macsecReq : Bool := false
  /-- NET_ORPHAN_CFG.IDLE_S, 16 bits; 11 R399; reset 0x003C -/
  idleS : Nat := 60
  /-- NET_ORPHAN_CFG.TIMEOUT_MS, 16 bits; 11 R399; reset 0x07D0 -/
  timeoutMs : Nat := 2000
  /-- NET_MAC, 48 bits (from the fuses); 11 R401; reset DESIGN CHOICE 0 with log entry 2 -/
  mac : Nat := 0
  /-- NET_IP6_0-3, 128 bits; 11 R401; reset DESIGN CHOICE 0 with log entry 1 -/
  ip6 : Vector Nat 4 := Vector.replicate 4 0
  /-- NET_IP4, 32 bits; 11 R401; reset DESIGN CHOICE 0 with log entry 1 -/
  ip4 : Nat := 0
  /-- NET_IP_PLEN, 16 bits; 11 R401; reset DESIGN CHOICE 0 with log entry 1 -/
  plen : Nat := 0
  /-- NET_GW6_0-3, 128 bits; 11 R401; reset DESIGN CHOICE 0 with log entry 1 -/
  gw6 : Vector Nat 4 := Vector.replicate 4 0
  /-- NET_GW4, 32 bits; 11 R401; reset DESIGN CHOICE 0 with log entry 1 -/
  gw4 : Nat := 0
  /-- NET_RING_STATUS.JOINED, 1 bit; 11 R400; reset 0 -/
  joined : Bool := false
  /-- NET_RING_STATUS.WHOLE, 1 bit; 11 R400; reset 0 -/
  whole : Bool := false
  /-- NET_RING_STATUS.WRAP_EAST, 1 bit; 11 R400; reset 0 -/
  wrapEast : Bool := false
  /-- NET_RING_STATUS.WRAP_WEST, 1 bit; 11 R400; reset 0 -/
  wrapWest : Bool := false
  /-- NET_RING_STATUS.EAST_UP, 1 bit; 11 R400; reset 0 -/
  eastUp : Bool := false
  /-- NET_RING_STATUS.WEST_UP, 1 bit; 11 R400; reset 0 -/
  westUp : Bool := false
  /-- NET_RING_STATUS.TIME_MASTER, 1 bit; 11 R400; reset 0 -/
  timeMaster : Bool := false
  /-- NET_RING_STATUS.ID_CONFLICT, 1 bit; 11 R400; reset 0 -/
  idConflict : Bool := false
  /-- NET_RING_STATUS.LEAD_SHELF, 8 bits; 11 R400; reset 0xFF -/
  leadShelf : Nat := 255
  /-- Ring frame forwarding runs (from 5 ms); 11 R388; reset 0 -/
  forwarding : Bool := false
  /-- NET_RING_TIME_OFS, signed 32 bits, ns; 11 R401; reset DESIGN CHOICE 0 with log entry 1 -/
  ringTimeOfs : Int := 0
  /-- Correction of shelf time that is still to be slewed, ns; 00 R9, 11 R367; reset 0 -/
  slewLeft : Int := 0
  /-- NET_PTP_OFS, signed 32 bits, ns; 11 R401; reset DESIGN CHOICE 0 with log entry 1 -/
  ptpOfs : Int := 0
  /-- The ordinary clock is master; 11 R366; reset 0 -/
  ptpMaster : Bool := false
  /-- Consecutive good Sync offsets; 11 R367; reset 0 -/
  ptpGood : Nat := 0
  /-- Consecutive offsets beyond 10 us; 11 R367; reset 0 -/
  ptpBad : Nat := 0
  /-- CLOCK_CLASS of the grandmaster served in STATUS, 8 bits; 11 R390; reset DESIGN CHOICE 248 with log entry 1 -/
  clockClass : Nat := 248
  /-- NET_PPS_IN_T, 64 bits; 11 R401; reset DESIGN CHOICE 0 with log entry 1 -/
  ppsT : Nat := 0
  /-- NET_PPS_OFS, signed 32 bits, ns; 11 R401; reset DESIGN CHOICE 0 with log entry 1 -/
  ppsOfs : Int := 0
  /-- NET_ROW_BUDGET, W, none = 0xFFFF_FFFF; 11 R401; reset DESIGN CHOICE none with log entry 1 -/
  rowBudget : Option Nat := none
  /-- NET_ROW_VERSION, 32 bits; 11 R401; reset DESIGN CHOICE 0 with log entry 1 -/
  rowVersion : Nat := 0
  /-- Source (RACK_ID, SHELF_INDEX) of the budget held from the ring; 11 R397; reset none -/
  rowSrc : Option (Nat × Nat) := none
  /-- NET_RACK_G, W; 11 R401; reset DESIGN CHOICE 0 with log entry 1 -/
  rackG : Nat := 0
  /-- NET_RACK_B, W; 11 R401; reset DESIGN CHOICE 0 with log entry 1 -/
  rackB : Nat := 0
  /-- Root time the rack-manager silence is measured from, ns since reset (NET_RM_AGE); 11 R386, R401; reset 0 -/
  rmFrom : Nat := 0
  /-- Root time of the last rack-manager message, ns since reset (RM_RECENT, NET_RM_AGE); 11 R398, R401; reset none -/
  rmLast : Option Nat := none
  /-- NET_DROP_AUTH, 32 bits, saturating; 11 R401; reset DESIGN CHOICE 0 with log entry 1 -/
  dropAuth : Nat := 0
  /-- NET_DROP_REPLAY, 32 bits, saturating; 11 R401; reset DESIGN CHOICE 0 with log entry 1 -/
  dropReplay : Nat := 0
  /-- NET_DROP_OTHER, 32 bits, saturating; 11 R401; reset DESIGN CHOICE 0 with log entry 1 -/
  dropOther : Nat := 0
  /-- NET_BUSY_COUNT, 32 bits, saturating; 11 R401; reset DESIGN CHOICE 0 with log entry 1 -/
  busyCount : Nat := 0
  /-- Ticks of the echo answers of the last second, newest first; 11 R364; reset empty -/
  echoes : List Nat := []
  /-- Sessions 0 to 63; 11 R402 -/
  sess : Vector Sess 64 := Vector.replicate 64 {}
  /-- Telemetry formatting is deferred behind the planner, 1 bit; 03 R73; reset 0 -/
  telDisplaced : Bool := false
  /-- Block reads in progress, oldest first; 11 R378; reset empty -/
  blocks : List BlockRead := []
  /-- Handshakes in progress, at most 8; 11 R372; reset empty -/
  hs : List Handshake := []
  /-- Ingress queues Q00 to Q15; 14 R489 -/
  q : Vector Queue 16 := Vector.replicate 16 {}
  /-- Members of the row ring seen; 11 R393; reset empty -/
  members : List Member := []
  /-- Latest SHARE of every other rack; 11 R395; reset empty -/
  racks : List RackShare := []
  /-- (SRC_RACK, SRC_SHELF, SEQ) of frames acted on, newest first; 11 R388; reset empty -/
  seenSeq : List (Nat × Nat × Nat) := []
  /-- Recent notices acted on: subject rack, shelf, root time; 11 R396; reset empty -/
  notices : List (Nat × Nat × Nat) := []
  /-- SEQs of own frames that have not come back, newest first, at most 64; 11 R388; reset empty -/
  sentSeq : List Nat := []
  /-- Ticks of the last ring cycle, of the last ROW_BUDGET sent again and of the last PDELAY_REQ; 11 R390, R394; reset none -/
  cycleTick : Option Nat := none
  budgetTick : Option Nat := none
  pdelayTick : Option Nat := none
  /-- Ticks since which EAST and WEST hold block lock; 11 R392; reset 0 -/
  lockEastAt : Nat := 0
  lockWestAt : Nat := 0
  /-- Root time of the last Sync, ns since reset; 11 R367; reset 0 -/
  syncAt : Nat := 0
  /-- SEQ of the next own ring frame, 32 bits; 11 R389; reset DESIGN CHOICE 0 with log entry 1 -/
  ringSeq : Nat := 0
  /-- Measured link delay EAST and WEST, ns; 11 R390; reset DESIGN CHOICE 0 with log entry 1 -/
  delayEast : Int := 0
  delayWest : Int := 0
  /-- OPERATOR consent: TARGET = RUN written since entry into ARMED; 13 R442; reset 0 -/
  runConsent : Bool := false
  deriving DecidableEq, Repr

end Sys2Proof.Machine
end

