-- ==== Sys2Proof/Machine/StatePower.lean ====
section
/-! DEFINITION. State of the supplies, the clocks, the pins and the SYS block
(00_scope.md, 02_module.md). -/

namespace Sys2Proof.Machine

/-- The device states that are ever readable (R16, R18). -/
inductive DevState where
  | boot | standby | armed | run | basalt | shipPrep
  deriving DecidableEq, Repr

/-- What a passage towards TARGET is waiting for (R441, R442). -/
inductive Passage where
  | none | toArmed | toRun | runToArmed | runToStandby | toShip | toBasalt
  deriving DecidableEq, Repr

/-- Supplies, mating and hold-up (R31 to R37, R55, R56). -/
structure Power where
  /-- Main domain powered, 1 bit (0 = OFF or SHIP: the die is unpowered); 02 R33, 00 R18; reset 1 -/
  powered : Bool := true
  /-- SYS_PWR_STATUS.AUX54_OK, 1 bit; 02 R55; reset 0 -/
  aux54Ok : Bool := false
  /-- SYS_PWR_STATUS.STBY12_OK, 1 bit; 02 R55; reset 0 -/
  stby12Ok : Bool := false
  /-- SYS_PWR_STATUS.STBY_SRC, 1 bit; 02 R55; reset 0 -/
  stbySrc : Bool := false
  /-- SYS_PWR_STATUS.HOLDUP_OK, 1 bit; 02 R55, R37; reset 0 -/
  holdupOk : Bool := false
  /-- SYS_PWR_STATUS.HOLDUP_CHARGING, 1 bit; 02 R55, R37; reset 0 -/
  holdupCharging : Bool := false
  /-- SYS_PWR_STATUS.MATE (MATE_N low), 1 bit; 02 R55, R44; reset 0 -/
  mate : Bool := false
  /-- SYS_PWR_STATUS.SVC_PRESENT, 1 bit; 02 R55; reset 0 -/
  svcPresent : Bool := false
  /-- SYS_PWR_STATUS.STBY12_LOST (W1C), 1 bit; 02 R55, R36; reset 0 -/
  stby12Lost : Bool := false
  /-- SYS_PWR_STATUS.BROWNOUT (W1C), 1 bit; 02 R55; reset 0 -/
  brownout : Bool := false
  /-- SYS_AUX54_V, signed 32 bits, mV; 02 R56; reset DESIGN CHOICE 0 with log entry 1 -/
  aux54mV : Int := 0
  /-- SYS_STBY12_V, signed 32 bits, mV; 02 R56; reset DESIGN CHOICE 0 with log entry 1 -/
  stby12mV : Int := 0
  /-- SYS_INPUT_P, signed 32 bits, W; 02 R56; reset DESIGN CHOICE 0 with log entry 1 -/
  inputP : Int := 0
  /-- SYS_HOLDUP_E, unsigned 32 bits, mJ; 02 R56; reset DESIGN CHOICE 0 with log entry 1 -/
  holdupE : Nat := 0
  /-- Input loss declared and its 50 ms record open, 1 bit; 02 R34; reset 0 (no input loss) -/
  inputLoss : Bool := false
  /-- AUX54_IN back while the record is open, 1 bit; 02 R35; reset 0 -/
  auxReturned : Bool := false
  /-- Tick of the declaration of the input loss; 02 R34; reset 0 -/
  lossTick : Nat := 0
  /-- STBY12_IN lost with event 0x0011 and not back yet, 1 bit; 02 R57; reset 0 -/
  stby12Gone : Bool := false
  deriving DecidableEq, Repr

/-- Clocks (R38 to R40, R53, R54). -/
structure Clock where
  /-- SYS_CLK_STATUS.UNLOCK_COUNT, 8 bits, saturating; 02 R53, R40; reset 0 -/
  unlockCount : Nat := 0
  /-- SYS_CLK_STATUS.BASALT_OSC_OK, 1 bit; 02 R53; reset 0 -/
  basaltOscOk : Bool := false
  /-- SYS_CLK_STATUS.PTP_STEPPED, 1 bit; 02 R53, 00 R9; reset 0 -/
  ptpStepped : Bool := false
  /-- SYS_CLK_STATUS.PTP_LOCK, 1 bit; 02 R53; reset 0 -/
  ptpLock : Bool := false
  /-- SYS_CLK_STATUS.SYNC_IN_ACTIVE, 1 bit; 02 R53; reset 0 -/
  syncInActive : Bool := false
  /-- SYS_CLK_STATUS.REF_HOLDOVER, 1 bit; 02 R53, R39; reset 0 -/
  refHoldover : Bool := false
  /-- SYS_CLK_STATUS.REF_IN_PRESENT, 1 bit; 02 R53; reset 0 -/
  refInPresent : Bool := false
  /-- SYS_CLK_STATUS.REF_SRC, 1 bit (1 = REF_IN); 02 R53; reset 0 -/
  refSrc : Bool := false
  /-- SYS_CLK_STATUS.ROOT_LOCK, 1 bit; 02 R53; reset 0 -/
  rootLock : Bool := false
  /-- SYS_CLK_STATUS.XTAL_OK, 1 bit; 02 R53; reset 0 -/
  xtalOk : Bool := false
  /-- Holdover has timed out against a failed crystal (FALLBACK_BLOCKED), 1 bit; 02 R39; reset 0 -/
  fallbackBlocked : Bool := false
  /-- Fabric stopped by a root unlock, 1 bit; 02 R40; reset 0 -/
  fabricStopped : Bool := false
  /-- Tick of entry into holdover; 02 R39; reset 0 -/
  holdAt : Nat := 0
  /-- Ticks from which REF_IN has been present, and the crystal has run; 02 R39; reset 0 -/
  refSince : Nat := 0
  xtalSince : Nat := 0
  /-- SYS_CLK_CFG.HOLDOVER_S, 8 bits; 02 R54; reset 0x3C -/
  holdoverS : Nat := 60
  /-- SYS_CLK_CFG.REF_FALLBACK, 1 bit; 02 R54; reset 1 -/
  refFallback : Bool := true
  /-- SYS_CLK_CFG.REF_SEL, 1 bit; 02 R54; reset 0 -/
  refSel : Bool := false
  deriving DecidableEq, Repr

/-- The 64-bit pair latches of R12 and R502: one entry for each requester (sessions 0 to 63, 64 the
firmware) and each _HI address whose _LO it has read. -/
structure HiLatch where
  /-- Requester of the latch: HCP session 0 to 63, or 64 for the firmware; 15 R502 -/
  requester : Nat
  /-- Address of the latched _HI register; 15 R502 -/
  addr : Nat
  /-- The latched upper half, 32 bits; 15 R502 -/
  value : Nat
  deriving DecidableEq, Repr

/-- The SYS block and the lines of J1 and J3 (R16, R41, R43, R46, R452). -/
structure Sys where
  /-- SYS_STATE.STATE, 4 bits; 00 R16; reset BOOT -/
  state : DevState := .boot
  /-- SYS_STATE.DEGRADED, 1 bit; 00 R16, R19; reset 0 -/
  degraded : Bool := false
  /-- SYS_STATE.LEAD, 1 bit; 00 R16; reset 0 -/
  lead : Bool := false
  /-- SYS_STATE.ORPHAN, 1 bit; 00 R16; reset 0 -/
  orphan : Bool := false
  /-- SYS_STATE_REQ.TARGET, 4 bits; 13 R451; reset 0x4 (RUN) -/
  target : Nat := 4
  /-- Passage in progress, an enumeration; 13 R441, R442; reset none -/
  passage : Passage := .none
  /-- SYS_RESET_CAUSE.KIND, 3 bits; 13 R451; reset 0x0 (POWER_ON) -/
  resetCause : Nat := 0
  /-- SYS_STEP, 4 bits; 13 R452; reset DESIGN CHOICE 0 with log entry 2 (the part's stepping) -/
  step : Nat := 0
  /-- SYS_VIOL_COUNT, 32 bits; 13 R452; reset 0 -/
  violCount : Nat := 0
  /-- SYS_TICK, 64 bits; 00 R7; reset 0 -/
  tick : Nat := 0
  /-- SYS_TIME, 64 bits, ns; 00 R7, R9; reset 0 (counts from reset) -/
  timeNs : Nat := 0
  /-- _HI latches for each requester, a list; 15 R502; reset empty -/
  latches : List HiLatch := []
  /-- GDRV_EN_0 to 3 driven high, 4 bits; 02 R41; reset 0 (groups held off, 00 R17) -/
  gdrvEn : Vector Bool 4 := Vector.replicate 4 false
  /-- RACK_HOLD_N driven low by the module, 1 bit; 02 R41, 12 R406, R413; reset 0 -/
  rackHoldDrive : Bool := false
  /-- RACK_HOLD_N sensed low, 1 bit; 02 R41, 08 R275; reset 0 -/
  rackHoldSeen : Bool := false
  /-- SYNC_OUT level, 1 bit; 02 R47, 06 R179; reset DESIGN CHOICE 0 with log entry 1 -/
  syncOut : Bool := false
  /-- TAP instruction in force, an enumeration; 02 R46; reset DESIGN CHOICE BYPASS with log entry 1 -/
  tap : Sys2Proof.TapInstr := .bypass
  deriving DecidableEq, Repr

end Sys2Proof.Machine
end

