-- ==== Sys2Proof/Machine/StateProt.lean ====
section
/-! DEFINITION. State of protection and Basalt (12_protection_and_failures.md) and of boot, firmware
and trust (13_startup_and_security.md). -/

namespace Sys2Proof.Machine

/-- One trip record (R427). -/
structure Trip where
  /-- CODE, 16 bits; 12 R427 -/
  code : Nat
  /-- INSTANCE, 8 bits; 12 R427 -/
  inst : Nat
  /-- DETAIL, 8 bits; 12 R427 -/
  detail : Nat
  /-- VALUE, signed 32 bits; 12 R427 -/
  value : Int
  /-- LIMIT, signed 32 bits; 12 R427 -/
  limit : Int
  /-- STATE, 32 bits; 12 R427 -/
  state : Nat
  /-- TIME, 64 bits; 12 R427 -/
  time : Nat
  /-- TICK, 64 bits; 12 R427 -/
  tick : Nat
  deriving DecidableEq, Repr

/-- Causes of R411, in bit order. -/
inductive BasaltCause where
  | missedTicks | configFault | dieTrip | operator
  deriving DecidableEq, Repr

/-- What Basalt holds of one group (R415). -/
structure BasaltImg where
  /-- Phase list; 12 R415 -/
  phases : List Nat
  /-- PEAK_LIMIT of each phase in the list, mA; 12 R415 -/
  peakLimits : List Int
  /-- SLOPE_DAC of each phase in the list; 12 R415 -/
  slopeDacs : List Nat
  /-- PH_PEAK_MA, RIPPLE_HALF_MA; 12 R415 -/
  phPeak : Int
  rippleHalf : Int
  /-- DEADTIME_NS rounded up to 50 ns; 12 R415 -/
  deadtime : Nat
  /-- VBUS_CH and VSTR_CH: channel, offset, gain, scale, shift; 12 R415 -/
  vbusCh : Nat
  vbusOfs : Int
  vbusGain : Nat
  vbusScale : Int
  vstrCh : Nat
  vstrOfs : Int
  vstrGain : Nat
  vstrScale : Int
  vshift : Nat
  deriving DecidableEq, Repr

/-- Protection on one string (R407, R408, R432). -/
structure StrProt where
  /-- PROT_STR_STATUS.V_HIGH, 1 bit; 12 R432; reset DESIGN CHOICE 0 with log entry 1 -/
  vHigh : Bool := false
  /-- PROT_STR_STATUS.V_LOW, 1 bit; 12 R432; reset DESIGN CHOICE 0 with log entry 1 -/
  vLow : Bool := false
  /-- PROT_STR_STATUS.T_HIGH, 1 bit; 12 R432; reset DESIGN CHOICE 0 with log entry 1 -/
  tHigh : Bool := false
  /-- PROT_STR_STATUS.UNMON_LIMIT, 1 bit; 12 R432; reset DESIGN CHOICE 0 with log entry 1 -/
  unmonLimit : Bool := false
  /-- PROT_STR_STATUS.ISOLATED, 1 bit; 12 R432; reset DESIGN CHOICE 0 with log entry 1 -/
  isolated : Bool := false
  /-- PROT_STR_STATUS string number of the cell that set the last bit, 16 bits; 12 R432; reset DESIGN CHOICE 0 with log entry 1 -/
  cellNo : Nat := 0
  /-- Consecutive sweeps with every cell inside by the hysteresis: V_HIGH, V_LOW, T_HIGH; 12 R407; reset 0 -/
  okHigh : Nat := 0
  okLow : Nat := 0
  okT : Nat := 0
  /-- Ticks at which V_HIGH, V_LOW and T_HIGH set; 12 R407; reset 0 -/
  sinceHigh : Nat := 0
  sinceLow : Nat := 0
  sinceT : Nat := 0
  deriving DecidableEq, Repr

/-- The PROT block. -/
structure Prot where
  /-- PROT_STATUS.BASALT_CAUSE, 4 bits; 12 R428; reset 0 -/
  causes : Vector Bool 4 := Vector.replicate 4 false
  /-- PROT_STATUS.EXIT_OK, 1 bit; 12 R428; reset 0 -/
  exitOk : Bool := false
  /-- PROT_STATUS.IMAGE_BAD, 1 bit; 12 R428; reset 0 -/
  imageBad : Bool := false
  /-- PROT_STATUS.ROOTLESS, 1 bit; 12 R428; reset 0 -/
  rootless : Bool := false
  /-- Basalt updates since BASALT without the root clock began, at most 1,200,000, which are 60 s; 12 R416; reset 0 -/
  rootlessRun : Nat := 0
  /-- PROT_STATUS.ENTRY_HOLD, 1 bit; 12 R428; reset 0 -/
  entryHold : Bool := false
  /-- PROT_STATUS.BUS_OV, 1 bit; 12 R428; reset 0 -/
  busOv : Bool := false
  /-- PROT_STATUS.BUS_UV, 1 bit; 12 R428; reset 0 -/
  busUv : Bool := false
  /-- PROT_STATUS.BUS_FAULT, 1 bit; 12 R428; reset 0 -/
  busFault : Bool := false
  /-- PROT_STATUS.DIE_WARN, 1 bit; 12 R428; reset 0 -/
  dieWarn : Bool := false
  /-- PROT_STATUS.DIE_TRIP, 1 bit; 12 R428; reset 0 -/
  dieTrip : Bool := false
  /-- PROT_STATUS.FLOW_LOW, 1 bit; 12 R428; reset 0 -/
  flowLow : Bool := false
  /-- PROT_STATUS.CDU_ALARM, 1 bit; 12 R428; reset 0 -/
  cduAlarm : Bool := false
  /-- PROT_STATUS.THERMAL_RAMP, 1 bit; 12 R428; reset 0 -/
  thermalRamp : Bool := false
  /-- PROT_STATUS.COOL_CRIT, 1 bit: the last coolant average is at or above COOLANT_CRIT; 12 R428; reset 0 -/
  coolHot : Bool := false
  /-- The coolant has reached COOLANT_CRIT and not yet recovered; 12 R422; reset 0 -/
  coolCrit : Bool := false
  /-- Both slots have failed a reload: CONFIG_FAULT stays until a reset; 12 R417; reset 0 -/
  reloadFailed : Bool := false
  /-- PROT_STATUS.COOL_SHUTDOWN, 1 bit; 12 R428; reset 0 -/
  coolShutdown : Bool := false
  /-- Groups still to stop under R422, from G3 down, and whether the sequence runs; 12 R422; reset none -/
  coolNext : Option Nat := none
  /-- Step j of the thermal ramp and env(0) of each port, 10 W; 12 R421; reset none -/
  rampJ : Nat := 0
  rampEnv0 : List Nat := []
  /-- The ramp has ended (event 0xB042 recorded); 12 R421; reset 0 -/
  rampDone : Bool := false
  /-- PROT_CFG.EXIT_HOLD_S, 8 bits; 12 R430; reset 0x05 -/
  exitHoldS : Nat := 5
  /-- PROT_CFG.UV_PERSIST_MS, 8 bits; 12 R430; reset 0x32 -/
  uvPersistMs : Nat := 50
  /-- PROT_CFG.DIE_WARN_C, 8 bits; 12 R430; reset 0x69 -/
  dieWarnC : Nat := 105
  /-- PROT_CFG.AUTO_EXIT, 1 bit; 12 R430; reset 1 -/
  autoExit : Bool := true
  /-- PROT_COOL_CFG.FLOW_MS, 8 bits; 12 R431; reset 0x14 -/
  flowMs : Nat := 20
  /-- PROT_COOL_CFG.RAMP_MS, 8 bits; 12 R431; reset 0x14 -/
  rampMs : Nat := 20
  /-- PROT_COOL_CFG.STAGGER_MS, 8 bits; 12 R431; reset 0x14 -/
  staggerMs : Nat := 20
  /-- PROT_CELL_CFG.HARD_MV, 8 bits; 12 R431; reset 0x32 -/
  hardMv : Nat := 50
  /-- PROT_CELL_CFG.HYST_MV, 8 bits; 12 R431; reset 0x14 -/
  hystMv : Nat := 20
  /-- PROT_CELL_CFG.ISOLATE_S, 8 bits; 12 R431; reset 0x01 -/
  isolateS : Nat := 1
  /-- PROT_CELL_CFG.UNMON_S, 8 bits; 12 R431; reset 0x01 -/
  unmonS : Nat := 1
  /-- PROT_DIE_T, signed 32 bits, 0.01 C; 12 R432; reset DESIGN CHOICE 0 with log entry 1 -/
  dieT : Int := 0
  /-- PROT_COOL_T, signed 32 bits, 0.01 C; 12 R432; reset DESIGN CHOICE 0 with log entry 1 -/
  coolT : Int := 0
  /-- PROT_COOL_FLOW, mL/min; 12 R432; reset DESIGN CHOICE 0 with log entry 1 -/
  coolFlow : Int := 0
  /-- Coolant temperatures of the ticks since the last planner cycle: sum and count; 12 R404, R422; reset 0 -/
  coolSum : Int := 0
  coolN : Nat := 0
  /-- PROT_BUS_V_BASALT, mV; 12 R432; reset DESIGN CHOICE 0 with log entry 1 -/
  busVBasalt : Int := 0
  /-- PROT_MISSED_TICKS, 32 bits, saturating; 12 R432; reset DESIGN CHOICE 0 with log entry 1 -/
  missedTicks : Nat := 0
  /-- PROT_TRIP_COUNT, 32 bits, saturating; 12 R432; reset DESIGN CHOICE 0 with log entry 1 -/
  tripCount : Nat := 0
  /-- PROT_TRIP_HEAD, 4 bits; 12 R432; reset DESIGN CHOICE 0 with log entry 1 -/
  tripHead : Nat := 0
  /-- PROT_TRIP0-15, trip record ring; 12 R432; reset DESIGN CHOICE empty (reads 0) with log entry 1 -/
  trips : Vector (Option Trip) 16 := Vector.replicate 16 none
  /-- PROT_TRIP_FIRST; 12 R432; reset DESIGN CHOICE empty (reads 0) with log entry 1 -/
  tripFirst : Option Trip := none
  /-- PROT_STR_STATUS, strings 0 to 3; 12 R432 -/
  str : Vector StrProt 4 := Vector.replicate 4 {}
  /-- PROT_BASALT_IPK of groups 0 to 3, signed 32 bits, mA; 12 R432; reset DESIGN CHOICE 0 with log entry 1 -/
  basaltIpk : Vector Int 4 := Vector.replicate 4 0
  /-- Basalt's image in standby-domain memory, one entry for each group, none for a group not configured; 12 R415; reset none -/
  image : Vector (Option BasaltImg) 4 := Vector.replicate 4 none
  /-- The image passes its own CRC; 12 R415; reset 1 -/
  imageOk : Bool := true
  /-- Ticks at which the overvoltage and the undervoltage trip in force began; 12 R405, R406; reset 0 -/
  ovTick : Nat := 0
  uvTick : Nat := 0
  /-- Tick of the last missed strobe or of the last relock of the root clock; 12 R417; reset 0 -/
  missTick : Nat := 0
  /-- Tick of the last reading of the die at or above DIE_TRIP - 10.00 C; 12 R417; reset 0 -/
  dieHotTick : Nat := 0
  /-- Ticks of entry into BASALT and of EXIT_OK setting; 12 R413, R418; reset 0 -/
  entryTick : Nat := 0
  exitTick : Nat := 0
  /-- Tick of Basalt's last update; 12 R410; reset none -/
  updateTick : Option Nat := none
  /-- Updates left of the ramp to 0 of the rootless stop, and the commands it began from, mA; 12 R416; reset 0 -/
  rootRamp : Nat := 0
  rootIpk : Vector Int 4 := Vector.replicate 4 0
  /-- Ticks of the last step of the thermal ramp and of the last stop of the coolant sequence; 12 R421, R422; reset 0 -/
  rampTick : Nat := 0
  coolTick : Nat := 0
  /-- Ticks in succession with the flow below COOL_FLOW_MIN, with it above, and with the coolant below COOLANT_CRIT - 10.00
  C; 12 R421, R422; reset 0 -/
  flowBelow : Nat := 0
  flowAbove : Nat := 0
  coolBelow : Nat := 0
  /-- Tick at which each group was handed to Basalt; 12 R419; reset 0 -/
  handTick : Vector Nat 4 := Vector.replicate 4 0
  deriving DecidableEq, Repr

/-- The SEC block, the fuses and the boot status (R434 to R440, R446 to R454). -/
structure Sec where
  /-- Fuses read and checked, SYS_BOOT_STATUS.FUSES_OK, 1 bit; 13 R452; reset 0 -/
  fusesOk : Bool := false
  /-- SYS_BOOT_STATUS.FW_RUNNING, 1 bit; 13 R452; reset 0 -/
  fwRunning : Bool := false
  /-- SYS_BOOT_STATUS.HBM_UP, 1 bit; 13 R452; reset 0 -/
  hbmUp : Bool := false
  /-- SYS_BOOT_STATUS.RECOVERY, 1 bit; 13 R452; reset 0 -/
  recovery : Bool := false
  /-- SYS_BOOT_STATUS.SHIP_READY, 1 bit; 13 R452; reset 0 -/
  shipReady : Bool := false
  /-- SEC_STATUS.LIFECYCLE fuse, 4 bits; 13 R446, R453; reset 0x2 DEPLOYED, as a module
  leaves Huakel (R446) (kept over every reset) -/
  lifecycle : Nat := 2
  /-- SEC_STATUS.IDENTITY_OK, 1 bit; 13 R453; reset 0 -/
  identityOk : Bool := false
  /-- The identity's private keys are present; 13 R446, R447; reset 1 (generated at manufacture; kept over every reset) -/
  identityKeys : Bool := true
  /-- SEC_STATUS.CUST_ROOT_SET fuse, 1 bit; 13 R446, R453; reset 1: fused when the module leaves Huakel (R446) (kept) -/
  custRootSet : Bool := true
  /-- SEC_STATUS.FW_STAGED, 1 bit; 13 R453; reset 0 -/
  fwStaged : Bool := false
  /-- SEC_STATUS.FW_FALLBACK, 1 bit; 13 R453; reset 0 -/
  fwFallback : Bool := false
  /-- SEC_STATUS.FW_SLOT, 1 bit (1 = B); 13 R453; reset 0 -/
  fwSlotB : Bool := false
  /-- Fused boot slot flag, 1 bit (1 = B); 13 R436; reset DESIGN CHOICE 0 with log entry 2 (kept) -/
  bootSlotB : Bool := false
  /-- SEC_FW_ROLLBACK fused firmware counter, 8 bits, 0 to 64; 13 R454, R440; reset DESIGN CHOICE 0 with log entry 2 (kept) -/
  fwCounter : Nat := 0
  /-- SEC_FW_ROLLBACK ROLLBACK of the running image, 8 bits; 13 R454; reset DESIGN CHOICE 0 with log entry 1 -/
  fwRollback : Nat := 0
  /-- The running image carries RAISE_ROLLBACK and this is its first boot; 13 R440; reset 0 -/
  fwRaise : Bool := false
  /-- SEC_CFG_ROLLBACK fused bit-stream counter, 8 bits, 0 to 64; 13 R454, 03 R63; reset DESIGN CHOICE 0 with log entry 2 (kept) -/
  cfgCounter : Nat := 0
  /-- SEC_FW_RESULT, 4 bits; 13 R454; reset DESIGN CHOICE 0 with log entry 1 -/
  fwResult : Nat := 0
  /-- SEC_ATTEST_COUNT, 32 bits, saturating; 13 R454; reset DESIGN CHOICE 0 with log entry 1 -/
  attestCount : Nat := 0
  /-- SEC_FW_DIGEST0-11, 48 bytes; 13 R454; reset DESIGN CHOICE zeros with log entry 1 -/
  fwDigest : List Byte := List.replicate 48 0
  /-- SEC_FW_STAGED_DIGEST0-11, 48 bytes; 13 R454; reset DESIGN CHOICE zeros with log entry 1 -/
  stagedDigest : List Byte := List.replicate 48 0
  /-- RSA_E, RSA_N and SLH_PK of the vendor root, 436 bytes, whose hash SEC_VENDOR_ROOT0-11 report; 13 R447, R454; reset DESIGN
  CHOICE zeros with log entry 2 (kept) -/
  vendorKeys : List Byte := List.replicate 436 0
  /-- RSA_E, RSA_N and SLH_PK of the device identity, made at manufacture, 436 bytes; 13 R447; reset DESIGN CHOICE zeros with log
  entry 2 (kept) -/
  identityPub : List Byte := List.replicate 436 0
  /-- The vendor's signatures over the identity block, 16,608 bytes; 13 R447; reset DESIGN CHOICE empty, read as zeros, with log
  entry 2 (kept) -/
  identitySigs : List Byte := []
  /-- SEC_CUST_ROOT0-11 fuses, 48 bytes; 13 R454; reset DESIGN CHOICE zeros with log entry 2 (kept) -/
  custRoot : List Byte := List.replicate 48 0
  /-- SEC_SERIAL0-3 fuses, 16 bytes; 13 R454; reset DESIGN CHOICE zeros with log entry 2 (kept) -/
  serial : List Byte := List.replicate 16 0
  /-- Firmware slots A and B in flash; 13 R436; reset none (kept over every reset) -/
  fwSlotAImg : Option (List Byte) := none
  fwSlotBImg : Option (List Byte) := none
  /-- The image in slot A, or in slot B, has not been booted yet; 13 R440; reset 0 (kept over every reset) -/
  fwNewA : Bool := false
  fwNewB : Bool := false
  /-- A pushed firmware image with the firmware loader; 13 R439; reset none -/
  fwPending : Option (List Byte) := none
  /-- SYS_RESET requested in RUN: the reset that follows when every group is OFF; 13 R444; reset none -/
  resetReq : Option Nat := none
  /-- A WATCHDOG reset deferred in BASALT; 13 R444; reset 0 -/
  watchdogDue : Bool := false
  deriving DecidableEq, Repr

end Sys2Proof.Machine
end

