-- ==== Sys2Proof/Machine/StatePwm.lean ====
section
/-! DEFINITION. State of the converter groups, phases, profile generator and PSU ports
(06_converter_control.md). -/

namespace Sys2Proof.Machine

/-- PWM_GRP_STATUS.STATE (R203). -/
inductive GrpState where
  | off | softStart | running | fastPath | basalt | stopping
  deriving DecidableEq, Repr

/-- PWM_GRP_STATUS.SYNC (R181, R203). -/
inductive SyncState where
  | free | slewing | locked | hold | returning
  deriving DecidableEq, Repr

/-- PWM_PH_STATUS.CAUSE (R194). -/
inductive PhCause where
  | none | phaseOpen | senseOpen | senseSuspect | senseDead | driverFault | shortCircuit | operator
  deriving DecidableEq, Repr

/-- The mode of a switching cycle (R172). -/
inductive CycleMode where
  | discharge | charge
  deriving DecidableEq, Repr

/-- One switching cycle of a phase (R172). Instants are in 25 ps units from reset. -/
structure Cycle where
  /-- The first switch turns on, 06 R172, R179 -/
  onAt : Nat
  /-- The first switch has turned off; 06 R172 -/
  offAt : Option Nat := none
  /-- It was turned off by MAX_DUTY, the comparator not having acted; 06 R172 -/
  forced : Bool := false
  /-- In diode emulation the second switch has turned off at zero current; 06 R174 -/
  zeroAt : Option Nat := none
  deriving DecidableEq, Repr

/-- A run of a phase's cycles that something ended before the tick has judged them: what the comparator's codes of that tick
still say about it (R100, R172). Instants are in 25 ps units from reset. -/
structure CycleRun where
  /-- The cycle then present and the turn-ons still due before the end; 06 R172, R179 -/
  cyc : Option Cycle
  due : List Nat
  /-- The turn-on that would have followed the end; 06 R179 -/
  next : Option Nat
  /-- i_pk of the turn-ons and of the present cycle, its mode, cycles to sit out, and whether the fast path ran; 06 R172, R175, R187, R192 -/
  iPk : Int
  iPkCycle : Int
  mode : CycleMode
  sitOut : Nat
  fast : Bool
  /-- Dead time in force; 06 R172, 12 R415 -/
  dead : Nat
  /-- The end; 06 R187, R188, R192, R194 -/
  upto : Nat
  deriving DecidableEq, Repr

/-- One phase (R172 to R178, R187 to R196, R208, R210). Its configuration is its PHASE record. -/
structure Phase where
  /-- The phase counts in N of its group, 1 bit (PWM_GRP_ACTIVE, and PWM_PH_STATUS.ACTIVE while the group
  has frames); 06 R175, R206, R208; reset 0 -/
  active : Bool := false
  /-- PWM_PH_STATUS.DISABLED, 1 bit; 06 R208; reset 0 -/
  disabled : Bool := false
  /-- PWM_PH_STATUS.CAUSE, 4 bits; 06 R208; reset 0 -/
  cause : PhCause := .none
  /-- Disable waits for the next cycle boundary; 06 R194 step 1; reset none -/
  disableReq : PhCause := .none
  /-- PWM_PH_STATUS.CHARGE, 1 bit; 06 R208; reset 0 -/
  charge : Bool := false
  /-- PWM_PH_STATUS.PEAK_LIMITED, 1 bit; 06 R208; reset 0 -/
  peakLimited : Bool := false
  /-- Ticks of the short-circuit trips of the last 1 ms, newest first (PWM_PH_STATUS.SC is 1 while there
  is one); 06 R187, R208; reset empty -/
  scTicks : List Nat := []
  /-- Cycles the phase still sits out after a trip; 06 R187; reset 0 -/
  sitOut : Nat := 0
  /-- GDRV_FLT_nn low, 1 bit; 06 R188, R196; reset 0 -/
  fltLow : Bool := false
  /-- PWM_PH_I_PK in force, signed 32 bits, mA; 06 R210; reset DESIGN CHOICE 0 with log entry 1 -/
  iPk : Int := 0
  /-- i_pk staged for the next tick; 06 R175; reset 0 -/
  iPkNext : Int := 0
  /-- i_pk taken at the last cycle start; 06 R175; reset 0 -/
  iPkCycle : Int := 0
  /-- PWM_PH_TRIM, signed, 1/4,096; 06 R210; reset DESIGN CHOICE 0 with log entry 1 -/
  trim : Int := 0
  /-- PWM_PH_OFFSET, 25 ps units; 06 R210; reset DESIGN CHOICE 0 with log entry 1 -/
  offset : Nat := 0
  /-- Offset the re-interleave started from and aims at; 06 R180; reset 0 -/
  offsetFrom : Nat := 0
  offsetTo : Nat := 0
  /-- The phase joins at the fourth step of the re-interleave; 06 R180; reset 0 -/
  joining : Bool := false
  /-- Mode of the present cycle; 06 R172; reset DISCHARGE -/
  mode : CycleMode := .discharge
  /-- The present cycle; 06 R172; reset none -/
  cyc : Option Cycle := none
  /-- Turn-on instants scheduled and not yet reached, ascending; 06 R179; reset empty -/
  due : List Nat := []
  /-- Runs of cycles that ended since the last tick, oldest first; 06 R172, 04 R100; reset empty -/
  past : List CycleRun := []
  /-- When the phase began or ceased to switch, newest first; 04 R100; reset empty -/
  sw : List (Nat × Bool) := []
  /-- Switching edges of the last microseconds, newest first: what blanking rests on; 06 R172, 04 R100; reset empty -/
  edges : List Nat := []
  /-- Midpoints between a turn-off and the next turn-on, newest first; 04 R101; reset empty -/
  mids : List Nat := []
  /-- Turn-off of a maximum-duty cycle not judged yet, and |i_pk| of that cycle; 06 R194; reset none -/
  openAt : Option (Nat × Nat) := none
  /-- Consecutive maximum-duty cycles with a current below OPEN_PCT; 06 R194; reset 0 -/
  openRun : Nat := 0
  /-- Consecutive ticks that meet the condition of SENSE_SUSPECT; 06 R194; reset 0 -/
  suspect : Nat := 0
  /-- The group the phase was last activated in: a change is a joining; 06 R178; reset none -/
  inGroup : Option (Fin 4) := none
  /-- xf, 10 ms filtered square, mA^2; 06 R190; reset DESIGN CHOICE 0 with log entry 1 -/
  xf : Int := 0
  /-- xs, 1 s filtered square, mA^2; 06 R190; reset DESIGN CHOICE 0 with log entry 1 -/
  xs : Int := 0
  /-- PWM_PH_COUNTS short-circuit trips, 16 bits, saturating; 06 R210; reset DESIGN CHOICE 0 with log entry 1 -/
  scCount : Nat := 0
  /-- PWM_PH_COUNTS maximum-duty cycles, 16 bits, saturating; 06 R210; reset DESIGN CHOICE 0 with log entry 1 -/
  maxDuty : Nat := 0
  /-- Its 10 ms and 1 s filters have tripped; 06 R191; reset 0 -/
  tripF : Bool := false
  tripS : Bool := false
  /-- Fast-path exit steps still to run; 06 R192; reset 0 -/
  fpSteps : Nat := 0
  deriving DecidableEq, Repr

/-- The fields of PWM_GRP_FAULT_CFG (R204). -/
structure FaultCfg where
  /-- OPEN_CYCLES, 4 bits; 06 R204; reset 0x8 -/
  openCycles : Nat := 8
  /-- SC_RETRIES, 4 bits; 06 R204; reset 0x3 -/
  scRetries : Nat := 3
  /-- SUSPECT_PCT, 8 bits; 06 R204; reset 0x28 -/
  suspectPct : Nat := 40
  /-- SUSPECT_MS, 8 bits; 06 R204; reset 0x01 -/
  suspectMs : Nat := 1
  /-- OPEN_PCT, 4 bits; 06 R204; reset 0x5 -/
  openPct : Nat := 5
  /-- DROOP_V, 4 bits; 06 R204; reset 0x2 -/
  droopV : Nat := 2
  deriving DecidableEq, Repr

/-- One converter group (R170 to R192, R203 to R206). Its configuration is its GROUP record. -/
structure Group where
  /-- PWM_GRP_STATUS.STATE, 3 bits; 06 R203; reset OFF -/
  state : GrpState := .off
  /-- State the fast path returns to; 06 R186; reset OFF -/
  fpReturn : GrpState := .off
  /-- PWM_GRP_STATUS.DE, 1 bit; 06 R203; reset 0 -/
  de : Bool := false
  /-- Consecutive ticks with |I_ref| at or below DE_ENTER_MA; 06 R174; reset 0 -/
  deTicks : Nat := 0
  /-- |I_ref| has reached DE_EXIT_MA in diode emulation: the next cycle boundary ends it; 06 R174; reset 0 -/
  deExit : Bool := false
  /-- PWM_GRP_STATUS.SYNC, 3 bits; 06 R203; reset FREE -/
  sync : SyncState := .free
  /-- PWM_GRP_STATUS.FOLDBACK, 1 bit; 06 R203; reset 0 -/
  foldback : Bool := false
  /-- PWM_GRP_STATUS.LIMITED, 1 bit; 06 R203; reset 0 -/
  limited : Bool := false
  /-- PWM_GRP_STATUS.REINTERLEAVE, 1 bit; 06 R203; reset 0 -/
  reinterleave : Bool := false
  /-- Steps of the re-interleave done, 0 to 4; 06 R180; reset 0 -/
  reSteps : Nat := 0
  /-- PWM_GRP_STATUS.FP_COUNT, 16 bits, saturating; 06 R203; reset 0 -/
  fpCount : Nat := 0
  /-- The fast path is armed; 06 R192; reset 1 -/
  fpArmed : Bool := true
  /-- Consecutive ticks with the bus above the threshold plus 5 V; 06 R192; reset 0 -/
  fpGood : Nat := 0
  /-- The group has raised cause UV_FASTPATH, or PHASE_LOSS, and the cause stands; 06 R192, R194, 08 R272; reset 0 -/
  uvReq : Bool := false
  lossReq : Bool := false
  /-- Instant of the crossing that began the fast path, 25 ps from reset; 06 R192; reset 0 -/
  fpAt : Nat := 0
  /-- Tick of entry into HOLD; 06 R181; reset 0 -/
  syncHoldAt : Nat := 0
  /-- Ticks left of the soft-start or stopping ramp, of its total; 06 R186; reset 0 -/
  rampLeft : Nat := 0
  rampLen : Nat := 0
  /-- Tick of entry into STOPPING; 06 R186; reset 0 -/
  stopAt : Nat := 0
  /-- I_lim at the start of the stopping ramp, mA; 06 R186; reset 0 -/
  rampFrom : Int := 0
  /-- Reference the stopping ramp clamps, mA; 06 R186; reset 0 -/
  stopRef : Int := 0
  /-- Basalt commands the stopping group, from the peak command its ramp began with, mA; 12 R426, 13 R441; reset 0 -/
  basaltStop : Bool := false
  stopPk : Int := 0
  /-- PWM_GRP_I_REF, signed 32 bits, mA; 06 R206; reset DESIGN CHOICE 0 with log entry 1 -/
  iRef : Int := 0
  /-- PWM_GRP_I_MEAS, signed 32 bits, mA; 06 R206; reset DESIGN CHOICE 0 with log entry 1 -/
  iMeas : Int := 0
  /-- PWM_GRP_I_LIM, signed 32 bits, mA; 06 R206; reset DESIGN CHOICE 0 with log entry 1 -/
  iLim : Int := 0
  /-- PWM_GRP_V_TARGET, signed 32 bits, mV; 06 R206; reset DESIGN CHOICE 0 with log entry 1 -/
  vTarget : Int := 0
  /-- PWM_GRP_P, signed 32 bits, W; 06 R206; reset DESIGN CHOICE 0 with log entry 1 -/
  p : Int := 0
  /-- String voltage of the tick under R170, mV; 06 R170; reset 0 -/
  vStr : Int := 0
  /-- Bus voltage of the tick under R170, mV, and its VALID; 06 R170; reset 0 -/
  vBus : Int := 0
  vBusValid : Bool := false
  /-- Group xf, mA^2; 06 R190; reset DESIGN CHOICE 0 with log entry 1 -/
  xf : Int := 0
  /-- Group xs, mA^2; 06 R190; reset DESIGN CHOICE 0 with log entry 1 -/
  xs : Int := 0
  /-- The 10 ms and 1 s filters of the group have tripped; 06 R191; reset 0 -/
  tripF : Bool := false
  tripS : Bool := false
  /-- PWM_GRP_FP_THR, signed 32 bits, mV; 06 R206; reset DESIGN CHOICE 0 with log entry 1 -/
  fpThr : Int := 0
  /-- Present frame period, 25 ps units (PWM_GRP_FSW_MEAS is its frequency); 06 R179, R206; reset 0 -/
  period : Nat := 0
  /-- Instant of the present frame start, 25 ps units from reset; 06 R179; reset 0 -/
  frameStart : Nat := 0
  /-- The group has frames; 06 R179; reset 0 -/
  framing : Bool := false
  /-- Start and period of the last frames, newest first; 06 R179, 04 R100; reset empty -/
  frames : List (Nat × Nat) := []
  /-- Turn-on edges scheduled by those frames, ascending; 06 R179, 04 R102; reset empty -/
  ons : List Nat := []
  /-- The group is OFF since its N fell to 0; 06 R186; reset 0 -/
  offAtZero : Bool := false
  /-- Period of the SYNC_IN edges followed, kept in HOLD, 25 ps units; 06 R181; reset 0 -/
  syncPeriod : Nat := 0
  /-- Period the present move of SLEWING or RETURNING started from, 25 ps units; 06 R181; reset 0 -/
  syncFrom : Nat := 0
  /-- PWM_GRP_FAULT_CFG; 06 R204 -/
  fault : FaultCfg := {}
  /-- The same as applied: a new value applies from the next tick; 06 R204 -/
  faultNow : FaultCfg := {}
  /-- PWM_GRP_SYNC_CFG.SYNC_EN, 1 bit; 06 R205; reset 0 -/
  syncEn : Bool := false
  /-- PWM_GRP_SYNC_CFG.SYNC_PHASE, 8 bits; 06 R205; reset 0x00 -/
  syncPhase : Nat := 0
  /-- PWM_GRP_SYNC_CFG.HOLD_MS, 8 bits; 06 R205; reset 0x0A -/
  holdMs : Nat := 10
  /-- Ticks at which the bus-side droop checks of R194 step 5 fall due, first in first out; 06 R194; reset empty -/
  droopDue : List Nat := []
  deriving DecidableEq, Repr

/-- One PSU port (R197 to R201, R210). -/
structure PsuPort where
  /-- PWM_PSU_STATUS.IN_SERVICE, 1 bit; 06 R210; reset DESIGN CHOICE 0 with log entry 1 -/
  inService : Bool := false
  /-- PWM_PSU_STATUS.LOST, 1 bit; 06 R210; reset DESIGN CHOICE 0 with log entry 1 -/
  lost : Bool := false
  /-- PWM_PSU_STATUS telemetry STATUS bits 3:0; 06 R210; reset DESIGN CHOICE 0 with log entry 1 -/
  status : Nat := 0
  /-- Telemetry INPUT_OK (STATUS bit 4); 06 R197; reset 0 -/
  inputOk : Bool := false
  /-- PWM_PSU_STATUS CRC errors, 16 bits, saturating; 06 R210; reset DESIGN CHOICE 0 with log entry 1 -/
  crcErrors : Nat := 0
  /-- SEQ of the last command frame sent, 8 bits; 06 R197; reset DESIGN CHOICE 0 with log entry 1 -/
  seq : Nat := 0
  /-- A command frame awaits its telemetry; 06 R197; reset 0 -/
  awaiting : Bool := false
  /-- Tick from which the telemetry has been clean; 06 R201; reset 0 -/
  cleanAt : Nat := 0
  /-- Consecutive telemetry frames missing, bad or out of sequence; 06 R201; reset 0 -/
  missing : Nat := 0
  /-- Consecutive frames with OUTPUT_ON clear while ENABLE is 1; 06 R201; reset 0 -/
  offFrames : Nat := 0
  /-- The last telemetry was clean with FAULT clear; 06 R201, R210; reset 0 -/
  clean : Bool := false
  /-- PWM_PSU_ILIM last ILIM sent, signed 32 bits, mA; 06 R210; reset DESIGN CHOICE 0 with log entry 1 -/
  ilim : Int := 0
  /-- Last VSET sent, 32 bits, mV; 06 R197; reset DESIGN CHOICE 0 with log entry 1 -/
  vset : Nat := 0
  /-- ILIM and VSET applied at the latest tick start: what the next frame carries; 06 R197, R201; reset 0 -/
  nextIlim : Int := 0
  nextVset : Nat := 0
  /-- Last ENABLE sent; 06 R197; reset DESIGN CHOICE 0 with log entry 1 -/
  enable : Bool := false
  /-- PWM_PSU_P, signed 32 bits, W; 06 R210; reset DESIGN CHOICE 0 with log entry 1 -/
  p : Int := 0
  /-- PWM_PSU_V, signed 32 bits, mV; 06 R210; reset DESIGN CHOICE 0 with log entry 1 -/
  v : Int := 0
  /-- PWM_PSU_I, signed 32 bits, mA; 06 R210; reset DESIGN CHOICE 0 with log entry 1 -/
  i : Int := 0
  /-- PWM_PSU_T temperature, signed 16 bits, 0.01 C; 06 R210; reset DESIGN CHOICE 0 with log entry 1 -/
  temp : Int := 0
  /-- PWM_PSU_T brick fault code, 16 bits; 06 R210; reset DESIGN CHOICE 0 with log entry 1 -/
  faultCode : Nat := 0
  deriving DecidableEq, Repr

/-- The PWM block. -/
structure Pwm where
  /-- Groups G0 to G3; 06 R203 -/
  grp : Vector Group 4 := Vector.replicate 4 {}
  /-- Phases P00 to P63; 06 R208 -/
  ph : Vector Phase 64 := Vector.replicate 64 {}
  /-- PSU ports S00 to S15; 06 R210 -/
  psu : Vector PsuPort 16 := Vector.replicate 16 {}
  /-- PWM_BUS_SET in force, signed 32 bits, mV; 06 R207; reset 800,000 -/
  busSet : Int := 800000
  /-- PWM_PROF_VMAX, mV/ms; 06 R207; reset 10,000 -/
  vmax : Int := 10000
  /-- PWM_PROF_AMAX, mV/ms^2; 06 R207; reset 10,000 -/
  amax : Int := 10000
  /-- PWM_PROF_JMAX, mV/ms^3; 06 R207; reset 100,000 -/
  jmax : Int := 100000
  /-- p, signed 64 bits with 24 fractional bits, uV; 06 R183; reset DESIGN CHOICE 0 with log entry 1 -/
  profP : Int := 0
  /-- v, the same, uV/us; 06 R183; reset DESIGN CHOICE 0 with log entry 1 -/
  profV : Int := 0
  /-- a, the same, uV/us^2; 06 R183; reset DESIGN CHOICE 0 with log entry 1 -/
  profA : Int := 0
  /-- PWM_PROF_STATUS.REVERSING, 1 bit; 06 R207; reset DESIGN CHOICE 0 with log entry 1 -/
  reversing : Bool := false
  /-- PWM_PROF_STATUS.CLAMPED, 1 bit; 06 R207; reset DESIGN CHOICE 0 with log entry 1 -/
  clamped : Bool := false
  /-- PWM_PROF_STATUS re-plans, 16 bits, saturating; 06 R207; reset DESIGN CHOICE 0 with log entry 1 -/
  replans : Nat := 0
  /-- Target in the generator, mV: a new PWM_BUS_SET enters at the next tick; 06 R183; reset 800,000 -/
  profTarget : Int := 800000
  /-- PWM_BUS_V, signed 32 bits, mV; 06 R207; reset DESIGN CHOICE 0 with log entry 1 -/
  busV : Int := 0
  /-- PWM_STORAGE_PLIM, signed 32 bits, W; 06 R207; reset DESIGN CHOICE 0 with log entry 1 -/
  plim : Int := 0
  /-- Reference of event 0x5090, W; 06 R195; reset 0 -/
  plimRef : Int := 0
  /-- PWM_PSU_SAFE_CFG.PCT, 8 bits; 06 R207; reset 100 -/
  safePct : Nat := 100
  /-- Brick current of the GRID_DRAW slot staged for the next tick, mA; 06 R200; reset none (standing command) -/
  brickNext : Option Int := none
  /-- Brick current in force, mA; 06 R200; reset none (standing command) -/
  brickI : Option Int := none
  /-- Tick of the last command frames to the bricks; 06 R197; reset none -/
  psuTick : Option Nat := none
  /-- A brick has been lost since the grid profile last fell; 10 R350; reset 0 -/
  lostPort : Bool := false
  /-- Sum of the last P_OUT of bricks lost since the planner's last cycle, W: lowers g; 06 R201; reset 0 -/
  lostPower : Int := 0
  deriving DecidableEq, Repr

end Sys2Proof.Machine
end

