-- ==== Sys2Proof/Machine/StateTray.lean ====
section
/-! DEFINITION. State of the tray links, the schedule table, the stagger allocator and THROTTLE
(08_tray_links.md). -/

namespace Sys2Proof.Machine

/-- TLK_PORT_STATUS.STATE (R291, R262). -/
inductive PortState where
  | unused | down | identifying | notReady | safe | active | watch | takenOver | locked | draining
  | drained
  deriving DecidableEq, Repr

/-- Throttle causes of R272, in code order 1 to 7. -/
inductive ThrCause where
  | uvFastpath | phaseLoss | rackHold | basalt | operator | noncompliant | protection
  deriving DecidableEq, Repr

/-- One grant as it stands in a GRANT frame (R255). -/
structure Grant where
  /-- STATE of FLAGS, 4 bits; 08 R255 -/
  state : Nat
  /-- SECONDARY of FLAGS, 1 bit; 08 R255 -/
  secondary : Bool
  /-- BARRIER_VALID of FLAGS, 1 bit; 08 R255 -/
  barrierValid : Bool
  /-- FIXED_FREQ of FLAGS, 1 bit; 08 R255 -/
  fixedFreq : Bool
  /-- GSEQ, 16 bits; 08 R255 -/
  gseq : Nat
  /-- ENVELOPE, 16 bits, 10 W; 08 R255 -/
  envelope : Nat
  /-- FLOOR, 16 bits, W; 08 R255 -/
  floor : Nat
  /-- RISE, 16 bits, W/us; 08 R255 -/
  rise : Nat
  /-- FALL, 16 bits, W/us; 08 R255 -/
  fall : Nat
  /-- SUB_COMPUTE, SUB_MEMORY, SUB_LINKS, 16 bits each, 10 W; 08 R255 -/
  subCompute : Nat
  subMemory : Nat
  subLinks : Nat
  /-- PRIORITY, 8 bits; 08 R255 -/
  priority : Nat
  /-- ROLE, 8 bits; 08 R255 -/
  role : Nat
  /-- OFFSET, 16 bits, us; 08 R255 -/
  offset : Nat
  /-- SAFE_ENV, 16 bits, 10 W; 08 R255 -/
  safeEnv : Nat
  /-- BARRIER_T, 64 bits; 08 R255 -/
  barrierT : Nat
  /-- EXPIRY, 64 bits, 0 = none; 08 R255 -/
  expiry : Nat
  /-- RACK_ID, 16 bits; 08 R255 -/
  rackId : Nat
  /-- SHELF, 8 bits; 08 R255 -/
  shelf : Nat
  deriving DecidableEq, Repr

/-- One REPORT as received (R257). -/
structure Report where
  /-- FLAGS bit 0 THROTTLED; 08 R257 -/
  throttled : Bool
  /-- FLAGS bit 1 FIXED_FREQ active; 08 R257 -/
  fixedFreq : Bool
  /-- FLAGS bit 2 PRIMARY_UP; 08 R257 -/
  primaryUp : Bool
  /-- FLAGS bit 3 SECONDARY_UP; 08 R257 -/
  secondaryUp : Bool
  /-- FLAGS bit 4 RACK_HOLD_SEEN; 08 R257 -/
  rackHoldSeen : Bool
  /-- FLAGS bit 5 GRANT_FROM (1 = secondary); 08 R257 -/
  grantFrom : Bool
  /-- FLAGS bits 7:6 PHASE; 08 R257 -/
  phase : Nat
  /-- GSEQ of the grant in force, 16 bits; 08 R257 -/
  gseq : Nat
  /-- SAMPLE_T, 64 bits, shelf time; 08 R257 -/
  sampleT : Nat
  /-- P_TOTAL, 32 bits, W; 08 R257 -/
  pTotal : Nat
  /-- P_COMPUTE, P_MEMORY, P_LINKS, 32 bits each, W; 08 R257 -/
  pCompute : Nat
  pMemory : Nat
  pLinks : Nat
  /-- ENV_IN_FORCE, 16 bits, 10 W; 08 R257 -/
  envInForce : Nat
  /-- FLOOR_MIN, 16 bits, W; 08 R257 -/
  floorMin : Nat
  /-- TEMP, signed 16 bits, 0.01 C; 08 R257 -/
  temp : Int
  /-- RSEQ, 16 bits; 08 R257 -/
  rseq : Nat
  deriving DecidableEq, Repr

/-- A pending placement of a tray by the allocator (R270). -/
structure Placement where
  /-- Port placed; 08 R270 -/
  port : Nat
  /-- ENTRY_ID and SOURCE of the entry placed; 08 R270 -/
  entryId : Nat
  source : Nat
  /-- Barrier T of the entry, shelf time; 08 R270 -/
  t : Nat
  /-- Stagger offset o, us; 08 R270 -/
  offset : Nat
  /-- Movement d, us; 08 R270 -/
  dur : Nat
  /-- Slope s reserved, W/us; 08 R270 -/
  slope : Nat
  /-- A rise (DP > 0) or a fall; 08 R270 -/
  rising : Bool
  deriving DecidableEq, Repr

/-- One entry of the schedule table (R266). -/
structure Entry where
  /-- ENTRY_ID, 32 bits; 08 R266 -/
  id : Nat
  /-- T, 64 bits, shelf time; 08 R266 -/
  t : Nat
  /-- MASK, 64 bits; 08 R266 -/
  mask : Nat
  /-- DP, signed 32 bits, W; 08 R266 -/
  dp : Int
  /-- DURATION, 32 bits, us; 08 R266 -/
  duration : Nat
  /-- KIND, 8 bits; 08 R266 -/
  kind : Nat
  /-- ROLE, 8 bits; 08 R266 -/
  role : Nat
  /-- SOURCE, 8 bits (0xFF = HCP); 08 R266 -/
  source : Nat
  /-- Its ROLE has been applied at T; 08 R266 -/
  roleApplied : Bool
  /-- Offset and slopes granted to each placed tray: (port, offset in ns after T, slope in W/us); 08 R145, R274 -/
  offs : List (Nat × Nat × Nat)
  /-- Ports for which the entry waits until their pending barrier is over, 64 bits; 08 R270 -/
  waiting : Nat := 0
  deriving DecidableEq, Repr

/-- One tray port (R262 to R265, R291, R293). Its configuration is its TRAY_PORT record. -/
structure Port where
  /-- TLK_PORT_STATUS.STATE, 4 bits; 08 R291; reset 0x1 DOWN -/
  state : PortState := .down
  /-- The link is up (block lock), TLK_LINKED bit; 08 R249, R290; reset DESIGN CHOICE 0 with log entry 1 -/
  linked : Bool := false
  /-- TLK_PORT_STATUS.THROTTLED, 1 bit; 08 R291; reset 0 -/
  throttled : Bool := false
  /-- Cause OPERATOR in force on this port alone; 08 R272; reset 0 -/
  thrOperator : Bool := false
  /-- RELEASE has cleared a THROTTLE_ALL on this port; 08 R272, R292; reset 0 -/
  opCleared : Bool := false
  /-- Cause NONCOMPLIANT in force on this port alone; 08 R272; reset 0 -/
  thrNoncompliant : Bool := false
  /-- TLK_PORT_STATUS.NONCOMPLIANT, 1 bit; 08 R291; reset 0 -/
  nonCompliant : Bool := false
  /-- TLK_NONCOMPL bit (W1C), 1 bit; 08 R290; reset DESIGN CHOICE 0 with log entry 1 -/
  nonComplLatch : Bool := false
  /-- TLK_PORT_STATUS.REPORT_STALE, 1 bit; 08 R291; reset 0 -/
  reportStale : Bool := false
  /-- TLK_PORT_STATUS.DEBOUNCING, 1 bit; 08 R291; reset 0 -/
  debouncing : Bool := false
  /-- Tick of the link loss it debounces; 08 R262; reset 0 -/
  debTick : Nat := 0
  /-- Tick of the last REPORT, or of link up; 08 R265; reset 0 -/
  reportTick : Nat := 0
  /-- Tick of the last report that failed a check; 08 R272; reset 0 -/
  badTick : Nat := 0
  /-- Tick of entry into DRAINING; 08 R262; reset 0 -/
  drainTick : Nat := 0
  /-- Tick at which the last new grant went out; 08 R263, R264; reset 0 -/
  sentTick : Nat := 0
  /-- Grant last sent; 08 R255, R264; reset none -/
  sent : Option Grant := none
  /-- Grant in force (last acknowledged); 08 R264; reset none -/
  inForce : Option Grant := none
  /-- TLK_PORT_STATUS.ACK_PENDING with the transmissions made, 0 = none pending; 08 R264, R291; reset 0 -/
  ackTries : Nat := 0
  /-- Grants sent and not yet acknowledged, newest first; 08 R264; reset empty -/
  unacked : List Grant := []
  /-- Arrival of the ACK of the last grant that lowered ENVELOPE, shelf time; 08 R265; reset 0 -/
  lowerAck : Option Nat := none
  /-- P_TOTAL of the last report before that ACK, W; 08 R265; reset 0 -/
  lowerP : Nat := 0
  /-- Last report on the present link; 08 R257; reset none -/
  report : Option Report := none
  /-- PRIMARY_UP of the last report, 1 bit; 08 R291; reset 0 -/
  lastPrimaryUp : Bool := false
  /-- TLK_PORT_P, P_TOTAL of the last report, 32 bits, W; 08 R293; reset DESIGN CHOICE 0 with log entry 1 -/
  lastP : Nat := 0
  /-- TLK_PORT_ENV 15:0, envelope last sent, 16 bits, 10 W; 08 R293; reset DESIGN CHOICE 0 with log entry 1 -/
  envSent : Nat := 0
  /-- Consecutive reports above the envelope; 08 R265; reset 0 -/
  overEnv : Nat := 0
  /-- Consecutive missing reports; 08 R265; reset 0 -/
  missed : Nat := 0
  /-- Consecutive reports with PRIMARY_UP = 0; 08 R280; reset 0 -/
  primaryDown : Nat := 0
  /-- Low reports counted while DRAINING; 08 R262; reset 0 -/
  lowReports : Nat := 0
  /-- Shelf time of the first THROTTLE of the span still running; 08 R265; reset none -/
  thrFrom : Option Nat := none
  /-- End of the port's RELEASE delay, shelf time; 08 R265, R273; reset none -/
  relEnd : Option Nat := none
  /-- The span from THROTTLE to the end of RELEASE before the present one; 08 R265; reset none -/
  thrPast : Option (Nat × Nat) := none
  /-- RESULT 1: the accounting uses FLOOR_MIN; 08 R264; reset 0 -/
  floorUnreachable : Bool := false
  /-- TSEQ of the last ordered set, 16 bits; 08 R252; reset DESIGN CHOICE 0 with log entry 1 -/
  tseq : Nat := 0
  /-- TLK_PORT_GSEQ last acknowledged, 16 bits; 08 R293; reset DESIGN CHOICE 0 with log entry 1 -/
  gseqAck : Nat := 0
  /-- TLK_PORT_GSEQ last sent, 16 bits; 08 R293; reset DESIGN CHOICE 0 with log entry 1 -/
  gseqSent : Nat := 0
  /-- TLK_PORT_ROLE role tag, 0 to 4, none until one is given; 08 R293, 07 R212; reset DESIGN CHOICE none (reads 0) with log entry 1 -/
  role : Option Nat := none
  /-- TLK_PORT_ERR CRC errors, 8 bits, saturating; 08 R293; reset DESIGN CHOICE 0 with log entry 1 -/
  errCrc : Nat := 0
  /-- TLK_PORT_ERR ACK timeouts, 8 bits, saturating; 08 R293; reset DESIGN CHOICE 0 with log entry 1 -/
  errAck : Nat := 0
  /-- TLK_PORT_ERR missed reports, 8 bits, saturating; 08 R293; reset DESIGN CHOICE 0 with log entry 1 -/
  errMissed : Nat := 0
  /-- TLK_PORT_ERR compliance failures, 8 bits, saturating; 08 R293; reset DESIGN CHOICE 0 with log entry 1 -/
  errCompl : Nat := 0
  /-- TLK_PORT_ID0 VENDOR, 32 bits; 08 R293; reset DESIGN CHOICE 0 with log entry 1 -/
  vendor : Nat := 0
  /-- TLK_PORT_ID1-3 SERIAL, 12 bytes; 08 R293; reset DESIGN CHOICE zeros with log entry 1 -/
  serial : List Byte := List.replicate 12 0
  /-- TLK_PORT_PMAX P_MAX, 16 bits, 10 W; 08 R293; reset DESIGN CHOICE 0 with log entry 1 -/
  pMax : Nat := 0
  /-- TLK_PORT_PMAX SLOPE_MAX, 16 bits, W/us; 08 R293; reset DESIGN CHOICE 0 with log entry 1 -/
  slopeMax : Nat := 0
  /-- FLOOR_MIN of the tray (IDENT, then reports), 16 bits, W; 08 R293; reset DESIGN CHOICE 0 with log entry 1 -/
  floorMin : Nat := 0
  /-- Envelope this shelf means to grant, 10 W; 08 R262, R277; reset 0 -/
  target : Nat := 0
  /-- The value of R277 has been set for the port since it entered ACTIVE; 08 R262; reset 0 -/
  shareSet : Bool := false
  /-- The envelope is lowered under R277 (its grants carry FIXED_FREQ); 08 R277; reset 0 -/
  lowered : Bool := false
  /-- The tray is with its secondary: the port grants no power until the next share cycle; 08 R282; reset 0 -/
  handback : Bool := false
  /-- Envelope at entry into ORPHAN, 10 W; 08 R278; reset none -/
  orphanCap : Option Nat := none
  deriving DecidableEq, Repr

/-- The TLK block. -/
structure Tlk where
  /-- Tray ports T00 to T63; 08 R249 -/
  port : Vector Port 64 := Vector.replicate 64 {}
  /-- Ports brought up by the link hardware 5 ms after t0; 08 R263; reset 0 -/
  portsUp : Bool := false
  /-- TLK_STATUS.THROTTLE_CAUSES on all ports, bit c - 1 for cause c, 7 bits; 08 R288; reset 0 -/
  causes : Vector Bool 7 := Vector.replicate 7 false
  /-- Tick from which the clearing condition of each cause on all ports has held, cause c in place c - 1; 08 R272; reset 0 -/
  causeTick : Vector Nat 7 := Vector.replicate 7 0
  /-- Tick of the last TIME frames; 08 R254; reset none -/
  timeTick : Option Nat := none
  /-- TLK_STATUS.OVER_SHARE, 1 bit; 08 R288; reset 0 -/
  overShare : Bool := false
  /-- Every tray was at its floor with the cap exceeded when envelopes were last formed; 08 R277; reset 0 -/
  floored : Bool := false
  /-- THROTTLE went to all ports for a trigger of one port during a release; 08 R273; reset 0 -/
  thrRestart : Bool := false
  /-- TLK_STATUS.SHARE_STALE, 1 bit; 08 R288; reset 0 -/
  shareStale : Bool := false
  /-- TLK_STATUS.RELEASING, 1 bit; 08 R288; reset 0 -/
  releasing : Bool := false
  /-- TLK_STATUS.THROTTLE, 1 bit; 08 R288; reset 0 -/
  throttleAll : Bool := false
  /-- TLK_SHARE, 32 bits, W; 08 R290; reset DESIGN CHOICE 0 with log entry 1 -/
  share : Nat := 0
  /-- TLK_ENV_CAP, W, none = 0xFFFF_FFFF; 08 R290, 10 R352; reset DESIGN CHOICE none with log entry 1 -/
  envCap : Option Nat := none
  /-- TLK_SCHED_REFUSED, 32 bits, saturating; 08 R290; reset DESIGN CHOICE 0 with log entry 1 -/
  schedRefused : Nat := 0
  /-- TLK_THROTTLE_COUNT, 32 bits, saturating; 08 R290; reset DESIGN CHOICE 0 with log entry 1 -/
  throttleCount : Nat := 0
  /-- TLK_THROTTLE_T, 64 bits, shelf time; 08 R290; reset DESIGN CHOICE 0 with log entry 1 -/
  throttleT : Nat := 0
  /-- TLK_ALLOC_LAST spread, 16 bits, us; 08 R290; reset DESIGN CHOICE 0 with log entry 1 -/
  allocSpread : Nat := 0
  /-- TLK_ALLOC_LAST trays placed, 8 bits; 08 R290; reset DESIGN CHOICE 0 with log entry 1 -/
  allocPlaced : Nat := 0
  /-- Shelf time of the last share (TLK_SHARE_AGE counts from it); 08 R290; reset DESIGN CHOICE none (age 65,535) with log entry 1 -/
  shareT : Option Nat := none
  /-- TLK_GRANTS_SENT, 32 bits, wrapping; 08 R290; reset DESIGN CHOICE 0 with log entry 1 -/
  grantsSent : Nat := 0
  /-- Schedule table, at most 32,768 entries, oldest first; 08 R266; reset empty -/
  table : List Entry := []
  /-- Pending placements; 08 R270; reset empty -/
  placed : List Placement := []
  /-- Mirror in the Obsidian store: the TRAY_PORT and SLOPE_POLICY records it was written from, none
  before one is written; 08 R263; reset none
  (kept over every reset) -/
  mirror : Option (List Rec) := none
  /-- Digest of the bit-stream the mirror was last written from, 48 bytes; 08 R263; reset none (kept) -/
  mirrorDigest : Option (List Byte) := none
  deriving DecidableEq, Repr

end Sys2Proof.Machine
end

