-- ==== Sys2Proof/Machine/State.lean ====
section
/-! DEFINITION. The state of the block, the reasons a step can stop, and the state right after reset. -/

namespace Sys2Proof.Machine

/-- How a frame of the Ethernet port leaves: the VID of its tag, 0 for none, the DSCP of its datagram, and whether a
secure association protects it (R362, R399). -/
structure NetTag where
  /-- NET_CFG.VLAN; 11 R399 -/
  vlan : Nat
  /-- NET_CFG.DSCP; 11 R399 -/
  dscp : Nat
  /-- Protected by MACsec; 11 R362 -/
  macsec : Bool
  deriving DecidableEq, Repr

/-- PTP messages the module sends (R366). -/
inductive PtpKind where
  | delayReq | sync | followUp
  deriving DecidableEq, Repr

/-- What leaves the block's pins. The log of it is the model's own: the spec's frames and answers are
visible only outside the block (DESIGN CHOICE, log entry 6). -/
inductive Output where
  /-- A SECURED datagram of a session with its SEQ: the inner message, and the bytes of the datagram (R371, R375). -/
  | hcp (tag : NetTag) (sess seq : Nat) (inner bytes : List Byte)
  /-- A handshake datagram to a peer's address and port: header and payload, or a fragment of it (R371, R372). -/
  | handshake (tag : NetTag) (peer : List Byte) (port : Nat) (bytes : List Byte)
  /-- An answer to an echo request, ICMPv6 or ICMP, with its identifier and sequence number (R364). -/
  | echo (tag : NetTag) (v6 : Bool) (ident : Nat)
  /-- An answer to a neighbour or address request: NET_MAC and the address asked for (R362). -/
  | neighbour (tag : NetTag) (mac : Nat) (target : List Byte)
  /-- A PTP message in its domain, with the shelf time it carries (R366). -/
  | ptp (tag : NetTag) (via : Sys2Proof.PtpVia) (kind : PtpKind) (domain time : Nat)
  /-- The bytes of a tray-link frame or ordered set (R251, R252). -/
  | tlk (port : Nat) (bytes : List Byte)
  /-- The bytes of a brick command frame (R197). -/
  | psu (port : Nat) (bytes : List Byte)
  /-- The bytes of a train on a cell chain, from its preamble on, out of port 0 A or 1 B (R297). -/
  | train (ring port : Nat) (bytes : List Byte)
  /-- The wake tone out of both ports of a ring (R302, R320). -/
  | tone (ring : Nat)
  /-- The bytes of a frame out of a row-ring port, WEST or EAST (R388 to R390). -/
  | row (west : Bool) (bytes : List Byte)
  /-- Bytes on SVC_SPI_MISO (R480). -/
  | spi (bytes : List Byte)
  /-- IDCODE on SVC_JTAG_TDO (R46). -/
  | tdo (word : Nat)
  /-- A status answer on the console (R47); its text is not stated. -/
  | console (code : Nat)
  deriving DecidableEq, Repr

/-- The state of the block. -/
structure State where
  /-- Supplies, mating and hold-up; 02 R31 to R37 -/
  power : Power := {}
  /-- Clocks; 02 R38 to R40 -/
  clk : Clock := {}
  /-- SYS block; 00 R16, 13 R451 -/
  sys : Sys := {}
  /-- SEC block, fuses, firmware; 13 R434 to R454 -/
  sec : Sec := {}
  /-- CFG block; 03 -/
  cfg : Cfg := {}
  /-- AFE block; 04 -/
  afe : Afe := {}
  /-- LOOP block; 05 -/
  loop : Loop := {}
  /-- PWM block; 06 -/
  pwm : Pwm := {}
  /-- FCE block; 07 -/
  fce : Fce := {}
  /-- TLK block; 08 -/
  tlk : Tlk := {}
  /-- CHN block; 09 -/
  chn : Chn := {}
  /-- EST block; 10 -/
  est : Est := {}
  /-- NET block and ingress queues; 11, 14 -/
  net : Net := {}
  /-- PROT block; 12 -/
  prot : Prot := {}
  /-- Memories and DMA; 14 -/
  mem : Mem := {}
  /-- EVR block; 14 -/
  evr : Evr := {}
  /-- What has left the pins, newest first: the model's own log -/
  tx : List Output := []
  /-- Free values taken so far: the model's own field, not the spec's; reset DESIGN CHOICE 0 with log entry 7 -/
  fv : Nat := 0
  /-- Commands waiting, first in first out: the model's own queue -/
  pending : List Instr := []
  deriving DecidableEq, Repr

/-- Why a command stops the block. -/
inductive Fault where
  /-- No command raises it: every command of the table ends in a next state or in a refusal. Safe. -/
  | never
  deriving DecidableEq, Repr

/-- Why a command is refused. -/
inductive Refusal where
  /-- Raised by an arm of the dispatch whose command has no meaning yet. Safe. -/
  | notModelled (mnemonic : String)
  /-- Raised by JTAG_INSTRUCTION for a debug instruction that the lifecycle opens: R446 says that the
  debug unit is open and does not say what its instructions do. Safe: the model stops. -/
  | debugUnit
  deriving DecidableEq, Repr

/-- The values of R75 applied without a record, LIMIT_ID 0x0001 to 0x000A. -/
def State.limitDefault : Vector Int 10 :=
  #v[12000, 880000, 680000, 860000, 700000, 2800, 1500, 5500, 11500, 6500]

/-- The block right after reset: every field at the value the spec states for reset, or at the value
its log entry names. -/
def State.reset : State := { cfg := { limitEff := State.limitDefault } }

end Sys2Proof.Machine
end

