-- ==== Sys2Proof/Machine/CfgView.lean ====
section
/-! DEFINITION. Fields of the records of the active configuration, read at the offsets of R68. -/

namespace Sys2Proof.Machine

/-- An unsigned byte of a record. -/
def Rec.u8 (r : Rec) (o : Nat) : Nat := leVal (bytesAt r.bytes o 1)
/-- An unsigned 16-bit field of a record. -/
def Rec.u16 (r : Rec) (o : Nat) : Nat := leVal (bytesAt r.bytes o 2)
/-- An unsigned 32-bit field of a record. -/
def Rec.u32 (r : Rec) (o : Nat) : Nat := leVal (bytesAt r.bytes o 4)
/-- An unsigned 64-bit field of a record. -/
def Rec.u64 (r : Rec) (o : Nat) : Nat := leVal (bytesAt r.bytes o 8)
/-- A signed byte of a record. -/
def Rec.s8 (r : Rec) (o : Nat) : Int := ofCode 8 (r.u8 o)
/-- A signed 16-bit field of a record. -/
def Rec.s16 (r : Rec) (o : Nat) : Int := ofCode 16 (r.u16 o)
/-- A signed 32-bit field of a record. -/
def Rec.s32 (r : Rec) (o : Nat) : Int := ofCode 32 (r.u32 o)

/-- The records of one type among sections: a record type's high byte is its section's type (R67). -/
def recsOf (l : List Section) (ty : Nat) : List Rec :=
  ((l.filter fun x => x.type == ty / 256).flatMap (·.recs)).filter fun r => r.type == ty

/-- The active records of one type. -/
def State.recs (s : State) (ty : Nat) : List Rec := recsOf s.cfg.active ty

/-- The active record of one type whose byte at `o` is `k` (the key of R509). -/
def State.rec8 (s : State) (ty o k : Nat) : Option Rec := (s.recs ty).find? fun r => r.u8 o == k

/-- The active record of one type whose 16-bit field at `o` is `k` (the key of R509). -/
def State.rec16 (s : State) (ty o k : Nat) : Option Rec := (s.recs ty).find? fun r => r.u16 o == k

/-- A parameter of R69, its default where no PARAM_VALUE record sets it. -/
def paramOf (l : List Section) (id dflt : Nat) : Nat :=
  match (recsOf l 0x0101).find? fun r => r.u16 0x08 == id with
  | some r => r.u32 0x0C
  | none => dflt

/-- A parameter in force. -/
def State.param (s : State) (id dflt : Nat) : Nat := paramOf s.cfg.active id dflt

/-- SHELF_INDEX in force (R69). -/
def State.shelfIndex (s : State) : Nat := s.param 0x0005 0
/-- RACK_ID in force (R69). -/
def State.rackId (s : State) : Nat := s.param 0x0006 0

/-- The limit in force for LIMIT_ID 1 to 10 (R75, CFG_LIMIT_EFF). -/
def State.limit (s : State) (id : Nat) : Int := s.cfg.limitEff.toList.getD (id - 1) 0

/-- The fuse values of R75 for LIMIT_ID 1 to 10 (CFG_LIMIT_FUSE). -/
def limitFuse : List Int := [16000, 900000, 650000, 860000, 700000, 2900, 1400, 6500, 12500, 7000]

/-! Groups and phases (R170). -/

/-- The GROUP record of a group. -/
def State.grpRec (s : State) (g : Nat) : Option Rec := s.rec8 0x0601 0x08 g
/-- A value of a group's record, 0 without one. -/
def State.grpVal (s : State) (g : Nat) (f : Rec → Nat) : Nat := ((s.grpRec g).map f).getD 0
/-- A value of a group's record where 0 stands for a default. -/
def State.grpDef (s : State) (g : Nat) (f : Rec → Nat) (dflt : Nat) : Nat :=
  match (s.grpRec g).map f with
  | some 0 => dflt
  | some x => x
  | none => 0
/-- FSW_KHZ. -/
def State.fsw (s : State) (g : Nat) : Nat := s.grpVal g fun r => r.u16 0x0A
/-- PHASE_MASK as one number. -/
def Rec.phaseMask (r : Rec) : Nat := r.u32 0x0C + 2 ^ 32 * r.u32 0x10
/-- LOAD_LINE, 0.1 milliohm. -/
def State.loadLine (s : State) (g : Nat) : Nat := s.grpVal g fun r => r.u16 0x14
/-- VSTR_CH and VBUS_CH. -/
def State.vstrCh (s : State) (g : Nat) : Nat := s.grpVal g fun r => r.u8 0x18
def State.vbusCh (s : State) (g : Nat) : Nat := s.grpVal g fun r => r.u8 0x19
/-- MAX_DUTY, %. -/
def State.maxDuty (s : State) (g : Nat) : Nat := s.grpDef g (fun r => r.u8 0x1A) 95
/-- SS_MS in ticks. -/
def State.ssTicks (s : State) (g : Nat) : Nat := 500 * s.grpDef g (fun r => r.u8 0x1B) 20
/-- PH_CONT_MA, PH_PEAK_MA. -/
def State.phCont (s : State) (g : Nat) : Nat := s.grpVal g fun r => r.u16 0x1C
def State.phPeak (s : State) (g : Nat) : Nat := s.grpVal g fun r => r.u16 0x1E
/-- DE_ENTER_MA, DE_EXIT_MA. -/
def State.deEnter (s : State) (g : Nat) : Nat := s.grpVal g fun r => r.u16 0x20
def State.deExit (s : State) (g : Nat) : Nat := s.grpVal g fun r => r.u16 0x22
/-- RIPPLE_HALF_MA. -/
def State.ripple (s : State) (g : Nat) : Nat := s.grpVal g fun r => r.u16 0x24
/-- UV_FP_DELTA_V in mV. -/
def State.uvDelta (s : State) (g : Nat) : Nat := 1000 * s.grpDef g (fun r => r.u8 0x26) 40
/-- DEADTIME_NS. -/
def State.deadtime (s : State) (g : Nat) : Nat := s.grpDef g (fun r => r.u8 0x27) 50
/-- A voltage of a group from a tick value: sat32(rshe(value * SCALE, VSCALE_SHIFT)) (R170). -/
def State.scaleV (s : State) (g : Nat) (bus : Bool) (value : Int) : Int :=
  match s.grpRec g with
  | some r => sat32 (rshe (value * r.s32 (if bus then 0x2C else 0x28)) (r.u8 0x16))
  | none => 0
/-- The group whose PHASE_MASK names a phase. -/
def State.phaseGroup (s : State) (p : Nat) : Option (Fin 4) :=
  (List.finRange 4).find? fun g => ((s.grpRec g.val).map fun r => tb r.phaseMask p).getD false
/-- The phases of a group, ascending. -/
def State.members (s : State) (g : Nat) : List (Fin 64) :=
  (List.finRange 64).filter fun p => ((s.grpRec g).map fun r => tb r.phaseMask p.val).getD false
/-- PEAK_LIMIT of a phase, mA. -/
def State.peakLimit (s : State) (p : Nat) : Int := ((s.rec8 0x0602 0x08 p).map fun r => r.s32 0x0C).getD 0
/-- SLOPE_DAC of a phase. -/
def State.slopeDac (s : State) (p : Nat) : Nat := ((s.rec8 0x0602 0x08 p).map fun r => r.u16 0x0A).getD 0

/-! PSU ports. -/

/-- RATING of an enabled PSU port, W; none where the port is not enabled. -/
def State.psuRating (s : State) (p : Nat) : Option Nat :=
  match s.rec8 0x0603 0x08 p with
  | some r => if r.u8 0x09 = 1 then some (r.u32 0x0C) else none
  | none => none

/-! Loop slots (R131, R136). -/

/-- The SLOT record of a slot. -/
def State.slotRec (s : State) (i : Nat) : Option Rec := s.rec8 0x0401 0x08 i
/-- SECTIONS, DIV, PARENT, KIND, GROUP and OSC_ACTION of a SLOT record. -/
def Rec.sections (r : Rec) : Nat := r.u8 0x09
def Rec.div (r : Rec) : Nat := r.u16 0x0A
def Rec.parent (r : Rec) : Nat := r.u8 0x0C
def Rec.kind (r : Rec) : Nat := r.u8 0x0D
def Rec.group (r : Rec) : Nat := r.u8 0x0E
def Rec.oscAction (r : Rec) : Nat := r.u8 0x0F
/-- The CURRENT slot of a group (R132). -/
def State.currentSlot (s : State) (g : Nat) : Option Nat :=
  ((s.recs 0x0401).find? fun r => r.kind = 1 && r.group = g).map fun r => r.u8 0x08
/-- The CHANNEL_ROUTE records of one input of a slot, in order. -/
def State.routes (s : State) (slot input : Nat) : List Rec :=
  (s.recs 0x0301).filter fun r => r.u8 0x0A = slot && r.u8 0x0B = input
/-- A route's value of a tick value (R136). -/
def Rec.routeValue (r : Rec) (value : Int) : Int := sat32 (rshe (value * r.s32 0x0C) (r.u8 0x10))
/-- The capture buffer a slot owns (R71). -/
def State.capBuffer (s : State) (slot : Nat) : Option Nat :=
  ((s.recs 0x0201).find? fun r => r.u16 0x08 = 3 && r.u16 0x0C = 1 && r.u16 0x0E = slot).map
    fun r => r.u16 0x0A
/-- The slots configured, by depth, outermost first, and within one depth ascending (R135): one pass over
the slot numbers for each depth. -/
def State.depthOf (s : State) (i : Nat) : Nat → Nat
  | 0 => 0
  | k + 1 =>
    match s.slotRec i with
    | some r => if r.parent = 255 then 0 else s.depthOf r.parent k + 1
    | none => 0
/-- The slots in the order of R135. -/
def State.slotOrder (s : State) : List (Fin 64) :=
  let l := (List.finRange 64).filter fun i => (s.slotRec i.val).isSome
  (List.range 4).flatMap fun d => l.filter fun i => s.depthOf i.val 4 = d

/-! Measurement channels (R95, R118, R125). -/

/-- Kinds of channels. -/
def isPhaseCh (c : Nat) : Bool := c < 64
def isAuxCh (c : Nat) : Bool := 64 ≤ c && c < 160
/-- The chiplet of a phase or auxiliary channel. -/
def chipOf (c : Nat) : Nat := if c < 64 then c / 16 else (c - 64) / 24
/-- The channels a chiplet's spare visits, in order (R111). -/
def chipChannels (a : Nat) : List Nat :=
  ((List.range 16).map fun i => 16 * a + i) ++ ((List.range 24).map fun i => 64 + 24 * a + i)

/-- AFE_CH_CFG.EN: some record names the channel (R118). A STRING_MODEL record names the shunt of its
string. -/
def State.chEn (s : State) (c : Nat) : Bool :=
  ((s.recs 0x0301) ++ (s.recs 0x0302)).any (fun r => r.u16 0x08 = c)
  || (s.recs 0x0303).any (fun r => r.u16 0x0A = c)
  || (s.recs 0x0304).any (fun r => r.u32 0x0C / 2 ^ 24 = 1 && r.u32 0x0C % 2 ^ 16 = c)
  || (s.recs 0x0601).any (fun r => r.u8 0x18 = c || r.u8 0x19 = c)
  || (s.recs 0x0801).any (fun r => 160 + r.u8 0x08 = c)
  || (c != 0 && (s.param 0x0010 0 = c || s.param 0x0013 0 = c))

/-- AFE_CH_CFG.MODE in force: that of the channel's routes, 0 without one (R118). -/
def State.chMode (s : State) (c : Nat) : Nat :=
  (((s.recs 0x0301).find? fun r => r.u16 0x08 = c).map fun r => r.u8 0x11).getD 0
/-- AFE_CH_CFG.REF_GRP: that of the channel's routes, 0xF without one; 0 on other than auxiliary channels
(R118, R125). -/
def State.chRef (s : State) (c : Nat) : Nat :=
  if isAuxCh c then (((s.recs 0x0301).find? fun r => r.u16 0x08 = c).map fun r => r.u8 0x12).getD 15 else 0

/-! Strings (R354). -/

/-- The STRING_MODEL record of a string. -/
def State.strRec (s : State) (i : Nat) : Option Rec := s.rec8 0x0801 0x08 i
/-- AFE_SHUNT_FS, mA, and INVERT (R104). -/
def State.shuntFs (s : State) (i : Nat) : Nat := ((s.strRec i).map fun r => r.u32 0x0C).getD 0
def State.shuntInv (s : State) (i : Nat) : Bool := ((s.strRec i).map fun r => r.u8 0x09 == 1).getD false

end Sys2Proof.Machine
end

