-- ==== Sys2Proof/Machine/Ops.lean ====
section
/-! DEFINITION. The operations every family shares: what leaves the pins, free values, the clock of the
model, access rights (R498, R499), the event recorder (R472 to R475), the triggers of the Obsidian store
(R478) and byte-addressed memory. -/

namespace Sys2Proof.Machine

/-- Something leaves the pins. -/
def State.send (s : State) (o : Output) : State := { s with tx := o :: s.tx }

/-- The state with one more free value taken. -/
def State.used (s : State) : State := { s with fv := s.fv + 1 }

/-- The main domain has its loads: it is powered, and no input loss has shed them (R34). -/
def State.lit (s : State) : Bool := s.power.powered && !s.power.inputLoss

/-- Nanoseconds since reset on the root clock at the start of the tick in progress (R7). -/
def State.rootNs (s : State) : Nat := 2000 * s.sys.tick

/-- Whether the device state is one of a list. -/
def State.inState (s : State) (l : List DevState) : Bool := l.contains s.sys.state

/-- The code of a device state (R16). -/
def DevState.code : DevState → Nat
  | .boot => 1 | .standby => 2 | .armed => 3 | .run => 4 | .basalt => 5 | .shipPrep => 6

/-- DEGRADED sets with the condition that holds (R19). -/
def State.degrade (s : State) : State := { s with sys := { s.sys with degraded := true } }

/-! Access rights. -/

/-- The access classes of R498 that a single field or register carries. -/
inductive AccClass where
  | m | oa | ox | osar | osa | oar | or_ | os | obs | ia | ix | is_ | f | x
  deriving DecidableEq, Repr

/-- The states in which a class is writable (R498). -/
def AccClass.states : AccClass → List DevState
  | .m | .f | .x => []
  | .oa | .ia => [.boot, .standby, .armed, .run, .basalt, .shipPrep]
  | .ox | .ix => [.boot, .standby, .armed, .run, .basalt]
  | .osar => [.standby, .armed, .run]
  | .osa => [.standby, .armed]
  | .oar => [.armed, .run]
  | .or_ => [.run]
  | .os | .is_ => [.standby]
  | .obs => [.boot, .standby]

/-- Whether a class asks for the role INTEGRATOR (R498). -/
def AccClass.integrator : AccClass → Bool
  | .ia | .ix | .is_ => true
  | _ => false

/-- Whether a role holds the rights of another: the roles are nested (R370). -/
def Role.atLeast : Role → Role → Bool
  | .integrator, _ => true
  | .operator, .integrator => false
  | .operator, _ => true
  | .monitor, .monitor => true
  | .monitor, _ => false

/-- Whether a role may write a class in a device state (R498). -/
def roleMayWrite (r : Role) (st : DevState) (c : AccClass) : Bool :=
  c.states.contains st && r.atLeast (if c.integrator then .integrator else .operator)

/-- Whether a session may write a class in the state in force (R498). -/
def State.mayWrite (s : State) (sess : Fin 64) (c : AccClass) : Bool :=
  roleMayWrite s.net.sess[sess.val].role s.sys.state c

/-- One violation is counted (R14, R501). -/
def State.violate (s : State) : State :=
  { s with sys := { s.sys with violCount := bump 32 s.sys.violCount } }

/-- A write of one control field by a session: nothing comes about where the session is not open; where
it lacks the right, the write is ignored and counted (R499); otherwise it is performed. -/
def State.regCmd (s : State) (sess : Fin 64) (c : AccClass) (f : State → State) : State :=
  if !s.net.sess[sess.val].isOpen || s.sec.recovery then s
  else if s.mayWrite sess c then f s
  else s.violate

/-- The same for a control field of an instance: where the active configuration does not use the instance, the write is
ignored and not counted (R496). -/
def State.regCmdAt (s : State) (live : Bool) (sess : Fin 64) (c : AccClass) (f : State → State) : State :=
  if live then s.regCmd sess c f else s

/-! The event recorder. -/

/-- Instance number of a record that names none (R508). -/
def noInst : Nat := 0xFFFF

/-- BURST, RATE_PER_S and TRIGGER of a code (R475). -/
def State.bucketCfg (s : State) (code : Nat) : Nat × Nat × Bool :=
  match s.rec16 0x0C01 0x08 code with
  | some r => (r.u16 0x0A, r.u32 0x0C, tb (r.u8 0x10) 0)
  | none => (16, 100, false)

/-- Codes that are never limited (R475). -/
def unlimitedCode (code : Nat) : Bool := [0x0, 0x1, 0xB].contains (code / 4096)

/-- One token is 500,000 units: a rate of one token a second adds one unit a tick (R475). -/
def tokenUnit : Nat := 500000

/-- Judgement of the token bucket of a code: the occurrences suppressed since its last record where the
occurrence is recorded, none where it is suppressed, with the buckets after it (R475). -/
def State.bucketTake (s : State) (code : Nat) : Option Nat × State :=
  if unlimitedCode code then (some 0, s)
  else
    let (burst, rate, _) := s.bucketCfg code
    let b := (s.evr.buckets.find? fun b => b.code == code).getD
      { code := code, tokens := burst * tokenUnit, tick := s.sys.tick, suppressed := 0 }
    let have_ := min (burst * tokenUnit) (b.tokens + rate * (s.sys.tick - b.tick))
    let rest := s.evr.buckets.filter fun b => b.code != code
    if tokenUnit ≤ have_ then
      (some b.suppressed,
        { s with evr := { s.evr with
            buckets := { b with tokens := have_ - tokenUnit, tick := s.sys.tick, suppressed := 0 } :: rest } })
    else
      (none,
        { s with evr := { s.evr with
            buckets := { b with tokens := have_, tick := s.sys.tick, suppressed := bump 16 b.suppressed } :: rest
            suppressed := bump 32 s.evr.suppressed } })

/-- Capacities of the three areas and of staging (R474). -/
def hbmAreaCap : Nat := 16777216
def recentCap : Nat := 65536
def firstCap : Nat := 8192
def stagingCap : Nat := 4096

/-- A record enters the recorder: it takes the next SEQ and goes to the three areas (R473, R474). -/
def State.evEnter (s : State) (e : Event) : State :=
  let e := { e with seq := wrapU 32 s.evr.seq }
  let roomy := s.evr.first.length < firstCap && !s.evr.firstFull
  { s with evr := { s.evr with
      seq := wrapU 64 (s.evr.seq + 1)
      entered := s.evr.entered + 1
      hbmArea := (e :: s.evr.hbmArea).take hbmAreaCap
      recent := (e :: s.evr.recent).take recentCap
      recentPos := wrapU 16 (s.evr.recentPos + 1)
      recentWraps := wrapU 32 (s.evr.recentWraps + (s.evr.recentPos + 1) / recentCap)
      first := if roomy then s.evr.first ++ [e] else s.evr.first
      firstFull := s.evr.firstFull || (roomy && s.evr.first.length + 1 == firstCap) } }

/-- A record goes to the recorder: it enters while fewer than 4 have entered in the tick and none waits,
else it waits in staging, else it is lost (R474). -/
def State.evPut (s : State) (e : Event) : State :=
  if s.evr.entered < 4 && s.evr.staging.isEmpty then s.evEnter e
  else if s.evr.staging.length < stagingCap then
    { s with evr := { s.evr with staging := s.evr.staging ++ [e] } }
  else { s with evr := { s.evr with lost := bump 32 s.evr.lost, lossOwed := true } }

/-- One occurrence of an event, without what it triggers (R473, R475). TIME and TICK are those of the
start of the tick in progress (log entry 9); TICK is 0 while the fabric is stopped. -/
def State.evRecord1 (s : State) (code inst data : Nat) : State :=
  match s.bucketTake code with
  | (none, s) => s
  | (some sup, s) =>
    s.evPut { code := code, inst := inst, seq := 0, time := s.sys.timeNs
              tick := if s.clk.fabricStopped then 0 else s.sys.tick
              data := wrapU 32 data, suppressed := sup }

/-- One occurrence of an event and, where the first area fills with it, event 0xC041 (R474). -/
def State.evRecord (s : State) (code inst data : Nat) : State :=
  let s' := s.evRecord1 code inst data
  if s'.evr.firstFull && !s.evr.firstFull then s'.evRecord1 0xC041 noInst 0 else s'

/-! The triggers of the Obsidian store. -/

/-- Index of the first slot for which `p` holds. -/
def Evr.slotWhere (v : Evr) (p : ObsSlot → Bool) : Option (Fin 4) :=
  (List.finRange 4).find? fun i => p v.slot[i.val]

/-- The oldest CLOSED slot that is not KEPT (R478). -/
def Evr.oldestClosed (v : Evr) : Option (Fin 4) :=
  (List.finRange 4).foldl (fun acc i =>
    if v.slot[i.val].state = .closed then
      match acc with
      | none => some i
      | some j => if v.slot[i.val].closedOrder < v.slot[j.val].closedOrder then some i else some j
    else acc) none

/-- The slot that becomes LIVE: the first FREE one, or else the oldest CLOSED one that is not KEPT (R478). -/
def Evr.nextLive (v : Evr) : Option (Fin 4) :=
  match v.slotWhere fun x => x.state = .free with
  | some i => some i
  | none => v.oldestClosed

/-- A slot begins a new record (R478). -/
def Evr.makeLive (v : Evr) (i : Fin 4) : Evr :=
  { v with slot := updV v.slot i fun _ => { state := .live } }

/-- A trigger mark in a slot, at most 8 (R478, R479). -/
def ObsSlot.mark (x : ObsSlot) (code time : Nat) : ObsSlot :=
  if x.marks.length < 8 then
    { x with marks := x.marks ++ [{ code := code, frame := x.written, time := time }] }
  else x

/-- What a trigger does to the store (R478): it is marked in the closing slot, or the LIVE slot becomes CLOSING
and a new slot becomes LIVE; an input loss while a slot is closing also closes the new LIVE slot (R485). With
the store, the slot marked. -/
def Evr.trigger (v : Evr) (code t : Nat) : Evr × Nat :=
  match v.slotWhere fun x => x.state = .closing, v.slotWhere fun x => x.state = .live with
  | some c, l =>
    let v := { v with slot := updV v.slot c fun x => x.mark code t }
    match l with
    | some l =>
      if code = 0x0010 then
        ({ v with slot := updV v.slot l fun x => { x with state := .closing, left := 500 } }, c.val)
      else (v, c.val)
    | none => (v, c.val)
  | none, some l =>
    let v := { v with slot := updV v.slot l fun x =>
      { x.mark code t with state := .closing, left := 500 } }
    match v.nextLive with
    | some n => (v.makeLive n, l.val)
    | none => (v, l.val)
  | none, none => (v, noInst)

/-- With FREEZE_ON_TRIGGER a trigger starts the 10 s after which the capture ring stops (R484). -/
def Evr.armFreeze (v : Evr) (tick : Nat) : Evr :=
  if v.freezeOnTrigger && !v.capFrozen && v.freezeAt.isNone then { v with freezeAt := some tick } else v

/-- A trigger the writer acts on (R478): it records event 0xC050 with the slot marked. -/
def State.obsTrigger (s : State) (code : Nat) : State :=
  if !s.evr.writer then s
  else { s with evr := (s.evr.trigger code s.sys.timeNs).1.armFreeze s.sys.tick }.evRecord 0xC050
    (s.evr.trigger code s.sys.timeNs).2 0

/-- Event 0xC041, where it has come since the state `was`, triggers with TRIGGER set for it (R474, R475). -/
def State.fullTrigger (s was : State) : State :=
  if s.evr.firstFull && !was.evr.firstFull && (s.bucketCfg 0xC041).2.2 then s.obsTrigger 0xC041 else s

/-- An event of the module (R473 to R475, R478, R508): one occurrence goes to the recorder, and events
0x0010, 0xB001 and those with TRIGGER set mark the Obsidian record, suppressed or not. Event 0xC050 itself
does not trigger again (log entry 10). -/
def State.ev (s : State) (code : Nat) (inst : Nat := noInst) (data : Nat := 0) : State :=
  let trig := code = 0x0010 || code = 0xB001 || ((s.bucketCfg code).2.2 && code != 0xC050)
  let s' := s.evRecord code inst data
  (if trig then s'.obsTrigger code else s').fullTrigger s

/-- INSTANCE of a group event (R508). -/
def grpInst (g : Nat) : Nat := 0x0100 + g
/-- INSTANCE of a PSU port event (R508). -/
def psuInst (p : Nat) : Nat := 0x0200 + p
/-- INSTANCE of a chain event: ring and node, node 0 for none (R508). -/
def chnInst (c n : Nat) : Nat := 256 * c + n

/-! Durations on the root clock. -/

/-- `d` ticks have run since tick `t` by the end of the tick in progress. While the root clock is stopped no tick counts, and
the unit that measures the time runs on a clock of its own (log entry 109). -/
def State.elapsed (s : State) (t d : Nat) : Bool := s.clk.fabricStopped || decide (t + d ≤ s.sys.tick + 1)

/-- The same of a time in ns from reset. -/
def State.elapsedNs (s : State) (t d : Nat) : Bool := s.clk.fabricStopped || decide (t + d ≤ s.rootNs + 2000)

/-- A command that comes every `d` ticks is due in this tick: a multiple of `d`, in which it has not run (log entry 110). -/
def State.due (s : State) (d : Nat) (last : Option Nat) : Bool := s.sys.tick % d = 0 && last != some s.sys.tick

/-! Displacement of run-time shared resources. -/

/-- A displacement (R74): event 0x2040 names the resource (row of R73, 1 to 6) and its instance, and the
classes of winner and loser (R508). DISPLACED itself is set by the loser's own block. -/
def State.displace (s : State) (row inst winner loser : Nat) : State :=
  { s with cfg := { s.cfg with displacedCount := bump 32 s.cfg.displacedCount } }.ev 0x2040
    (4096 * row + inst) (winner + 16 * loser)

/-- A deferred or paused loser resumes (R74). -/
def State.undisplace (s : State) (row inst winner loser : Nat) : State :=
  s.ev 0x2041 (4096 * row + inst) (winner + 16 * loser)

/-! Byte-addressed memory. -/

/-- The byte an address holds: a byte nothing has written reads 0 (log entry 3). -/
def Memory.read : Memory → Nat → Byte
  | [], _ => 0
  | (k, v) :: m, a => if k = a then v else if a < k then 0 else Memory.read m a

/-- The memory after one byte is written: entries stay in rising order and none is zero. -/
def Memory.write : Memory → Nat → Byte → Memory
  | [], a, b => if b = 0 then [] else [(a, b)]
  | (k, v) :: m, a, b =>
    if a < k then (if b = 0 then (k, v) :: m else (a, b) :: (k, v) :: m)
    else if a = k then (if b = 0 then m else (a, b) :: m)
    else (k, v) :: Memory.write m a b

/-- The canonical form: addresses strictly rising from `lo`, and no zero byte listed. -/
def Memory.wfFrom : Nat → Memory → Bool
  | _, [] => true
  | lo, (k, v) :: m => decide (lo ≤ k) && v != 0 && Memory.wfFrom (k + 1) m

/-- The canonical form of a memory. -/
def Memory.wf (m : Memory) : Bool := Memory.wfFrom 0 m

/-- `n` bytes from an address. -/
def Memory.readN (m : Memory) (a n : Nat) : List Byte := (List.range n).map fun i => m.read (a + i)

/-- Bytes written from an address on. -/
def Memory.writeN (m : Memory) (a : Nat) : List Byte → Memory
  | [] => m
  | b :: l => Memory.writeN (m.write a b) (a + 1) l

/-- The memory with the bytes from `lo` up to `hi` of another one in place of its own. -/
def Memory.withRange (m src : Memory) (lo hi : Nat) : Memory :=
  (m.filter fun c => decide (c.1 < lo)) ++ ((src.filter fun c => decide (lo ≤ c.1) && decide (c.1 < hi))
    ++ (m.filter fun c => decide (lo ≤ c.1) && decide (hi ≤ c.1)))

end Sys2Proof.Machine
end

