-- ==== Sys2Proof/Machine/TlkOps.lean ====
section
/-! DEFINITION. Operations over the tray ports: policy records, grants (R255, R262 to R264), the stagger
allocator (R268 to R271), THROTTLE and RELEASE (R252, R272 to R275), shares and envelopes (R276 to R278),
and what a change of device state does to the ports (R262). -/

namespace Sys2Proof.Machine

/-! The TRAY_POLICY records (R287), from the active configuration or, before one is active, from the
mirror (R263). -/

/-- The records tray policy is read from. -/
def State.trayRecs (s : State) (ty : Nat) : List Rec :=
  if s.cfg.activeValid then s.recs ty
  else (s.tlk.mirror.getD []).filter fun r => r.type == ty

/-- The TRAY_PORT record of a port. -/
def State.trayRec (s : State) (n : Nat) : Option Rec :=
  (s.trayRecs 0x0B01).find? fun r => r.u8 0x08 == n

/-- A byte of a port's record, 0 without one. -/
def State.tray8 (s : State) (n o : Nat) : Nat := ((s.trayRec n).map fun r => r.u8 o).getD 0
/-- A 16-bit field of a port's record, 0 without one. -/
def State.tray16 (s : State) (n o : Nat) : Nat := ((s.trayRec n).map fun r => r.u16 o).getD 0

/-- HOMING of a port: 0 unused, 1 primary, 2 secondary. -/
def State.homing (s : State) (n : Nat) : Nat := s.tray8 n 0x09
/-- SAFE_ENV, 10 W. In BASALT after a configuration fault it is the mirror's (R413), 0 without one (R263). -/
def State.safeEnv (s : State) (n : Nat) : Nat :=
  if s.cfg.fault && s.sys.state = .basalt then
    (((s.tlk.mirror.getD []).find? fun r => r.type == 0x0B01 && r.u8 0x08 == n).map fun r => r.u16 0x0A).getD 0
  else s.tray16 n 0x0A
/-- MAX_ENV, 10 W. -/
def State.maxEnv (s : State) (n : Nat) : Nat := s.tray16 n 0x0C
/-- FLOOR, W. -/
def State.recFloor (s : State) (n : Nat) : Nat := s.tray16 n 0x0E
/-- THERMAL_FLOOR, 10 W. -/
def State.thermalFloor (s : State) (n : Nat) : Nat := s.tray16 n 0x10

/-- A 16-bit field of SLOPE_POLICY; 0 or no record takes the default. -/
def State.pol16 (s : State) (o dflt : Nat) : Nat :=
  match (s.trayRecs 0x0B03).head? with
  | some r => if r.u16 o = 0 then dflt else r.u16 o
  | none => dflt

/-- A byte of SLOPE_POLICY; 0 or no record takes the default. -/
def State.pol8 (s : State) (o dflt : Nat) : Nat :=
  match (s.trayRecs 0x0B03).head? with
  | some r => if r.u8 o = 0 then dflt else r.u8 o
  | none => dflt

/-- LEAD_MIN_US in ns. -/
def State.leadNs (s : State) : Nat := 1000 * s.pol16 0x14 50

/-- Neither a configuration nor a mirror gives slopes (R263). -/
def State.noSlopes (s : State) : Bool := !s.cfg.activeValid && s.tlk.mirror.isNone

/-- The standing rise slope of a port (R271), W/us; zero without a configuration and a mirror (R263). -/
def State.standRise (s : State) (n : Nat) : Nat :=
  if s.noSlopes then 0 else if s.tray16 n 0x12 = 0 then s.pol16 0x10 50 else s.tray16 n 0x12
/-- The standing fall slope of a port (R271), W/us; zero without a configuration and a mirror (R263). -/
def State.standFall (s : State) (n : Nat) : Nat :=
  if s.noSlopes then 0 else if s.tray16 n 0x14 = 0 then s.pol16 0x12 50 else s.tray16 n 0x14

/-- TLK_POLICY.DEFAULT_SLOPE and DEFAULT_FALL, which the loader writes (R289). -/
def State.defaultSlope (s : State) : Nat := if s.cfg.activeValid then s.pol16 0x10 50 else 50
def State.defaultFall (s : State) : Nat := if s.cfg.activeValid then s.pol16 0x12 50 else 50

/-- The role tag of a port; a tray without one belongs to IDLE, 4 (R212). -/
def Port.roleTag (p : Port) : Nat := p.role.getD 4

/-- ORDER of ROLE_PRIORITY, highest first; without a record the roles in number order. -/
def State.roleOrder (s : State) : List Nat :=
  match (s.trayRecs 0x0B02).head? with
  | some r => (List.range 5).map fun i => r.u8 (8 + i)
  | none => List.range 5

/-- Whether a role stands in ROLE_PRIORITY.FIXED_FREQ_ROLES. -/
def State.fixedRole (s : State) (role : Nat) : Bool :=
  match (s.trayRecs 0x0B02).head? with
  | some r => tb (r.u8 0x0D) role
  | none => false

/-! Ports. -/

/-- A change of one port. -/
def State.updPort (s : State) (n : Fin 64) (f : Port → Port) : State :=
  { s with tlk := { s.tlk with port := updV s.tlk.port n f } }

/-- The port of a number. -/
def State.port (s : State) (n : Fin 64) : Port := s.tlk.port[n.val]

/-- The ports for which a property of the port holds, in order. -/
def State.portsWhere (s : State) (p : Port → Bool) : List (Fin 64) :=
  (List.finRange 64).filter fun n => p (s.port n)

/-- The envelope at this shelf is non-zero in these states (R262). -/
def PortState.hasEnvelope : PortState → Bool
  | .active | .takenOver | .draining => true
  | _ => false

/-- The envelope of a port at this shelf is non-zero (R262): a port that waits for its share after a takeover grants
none yet (R282). -/
def Port.granting (p : Port) : Bool := p.state.hasEnvelope && !p.handback

/-- ACTIVE and TAKEN_OVER: the trays of the shelf's sums (R276). -/
def PortState.counted : PortState → Bool
  | .active | .takenOver => true
  | _ => false

/-- The trays this shelf grants to as primary, which R143 predicts and the forecast counts (R212): in RUN the ACTIVE and
DRAINING ones, in the other states those whose grants are NOT_READY or SAFE (R234, R262; DEDUCED, log entry 13). -/
def State.primaryTray (s : State) (n : Fin 64) : Bool :=
  s.homing n.val = 1 && (match (s.port n).state with
    | .active | .draining | .notReady | .safe => true
    | _ => false)

/-- Larger of the envelope in force and of those sent and not yet acknowledged, 10 W (R264). -/
def Port.envCounted (p : Port) : Nat :=
  ((p.inForce.map Grant.envelope).getD 0) ::
    (p.unacked.map Grant.envelope) |>.foldl max 0

/-- The floor of a port in the accounting: FLOOR, or FLOOR_MIN under RESULT 1 (R264), W. -/
def State.floorOf (s : State) (n : Fin 64) : Nat :=
  if (s.port n).floorUnreachable then (s.port n).floorMin else s.recFloor n.val

/-- want of R276, W. -/
def State.wantOf (s : State) (n : Fin 64) : Nat := 10 * min (s.maxEnv n.val) (s.port n).pMax

/-- TLK_ENV_SUM, W (R264, R290). -/
def State.envSum (s : State) : Nat :=
  ((s.portsWhere Port.granting).map fun n => 10 * (s.port n).envCounted).sum
/-- MIN of R276, W. -/
def State.floorSum (s : State) : Nat := ((s.portsWhere fun p => p.state.counted).map s.floorOf).sum
/-- WANT of R276, W. -/
def State.wantSum (s : State) : Nat := ((s.portsWhere fun p => p.state.counted).map s.wantOf).sum

/-! Grants. -/

/-- STATE of a grant by the state of its port (R255, R262). -/
def PortState.grantState : PortState → Nat
  | .active | .takenOver | .draining => 1
  | .watch => 2
  | .safe => 3
  | .locked => 4
  | .drained => 5
  | _ => 0

/-- STATE of the grants of a port: NOT_READY while it waits for its share after a takeover (R282; DEDUCED, log
entry 106). -/
def Port.grantState (p : Port) : Nat := if p.handback then 0 else p.state.grantState

/-- ENVELOPE of a grant by the state of its port, 10 W (R262, R263, R284). -/
def State.grantEnv (s : State) (n : Fin 64) : Nat :=
  if (s.port n).handback then s.safeEnv n.val
  else match (s.port n).state with
  | .active | .takenOver => (s.port n).target
  | .draining | .drained | .watch => 0
  | _ => s.safeEnv n.val

/-- The pending placement of a port. -/
def State.placedAt (s : State) (n : Nat) : Option Placement :=
  s.tlk.placed.find? fun p => p.port == n && p.source != 0x1FF

/-- Whether a grant of a port carries FIXED_FREQ: every NOT_READY grant does (R263, R277, R278). -/
def State.grantFixed (s : State) (n : Fin 64) : Bool :=
  (s.port n).grantState = 0 || s.sys.orphan || (s.port n).lowered || s.fixedRole (s.port n).roleTag

/-- The grant a port sends now (R255, R270, R271). -/
def State.grantFor (s : State) (n : Fin 64) : Grant :=
  let p := s.port n
  let b := s.placedAt n.val
  let st := p.grantState
  { state := st
    secondary := s.homing n.val = 2
    barrierValid := b.isSome
    fixedFreq := s.grantFixed n
    gseq := wrapU 16 (p.gseqSent + 1)
    envelope := s.grantEnv n
    floor := s.recFloor n.val
    rise := match b with
      | some b => if b.rising then b.slope else s.standRise n.val
      | none => s.standRise n.val
    fall := match b with
      | some b => if b.rising then s.standFall n.val else b.slope
      | none => s.standFall n.val
    subCompute := s.tray16 n.val 0x16
    subMemory := s.tray16 n.val 0x18
    subLinks := s.tray16 n.val 0x1A
    priority := s.tray8 n.val 0x1C
    role := p.roleTag
    offset := (b.map Placement.offset).getD 0
    safeEnv := s.safeEnv n.val
    barrierT := (b.map Placement.t).getD 0
    expiry := if st = 1 || st = 2 then s.sys.timeNs + 1000000 * s.pol16 0x16 10 else 0
    rackId := s.rackId
    shelf := s.shelfIndex }

/-! Frames and ordered sets (R251, R252, R255, R258). -/

/-- A frame of 64 bytes: its fields, zeros, and the CRC-32C over bytes 0x00 to 0x3B (R251). -/
def tlkFrame (body : List Byte) : List Byte :=
  let b := body ++ List.replicate (60 - body.length) 0
  b ++ leBytes 4 (crc32c b)

/-- A GRANT frame (R255). -/
def Grant.frame (g : Grant) : List Byte :=
  tlkFrame (leBytes 1 1
    ++ leBytes 1 (bitAt g.fixedFreq 0 + bitAt g.barrierValid 1 + bitAt g.secondary 2 + 16 * g.state)
    ++ leBytes 2 g.gseq ++ leBytes 2 g.envelope ++ leBytes 2 g.floor ++ leBytes 2 g.rise ++ leBytes 2 g.fall
    ++ leBytes 2 g.subCompute ++ leBytes 2 g.subMemory ++ leBytes 2 g.subLinks ++ leBytes 1 g.priority
    ++ leBytes 1 g.role ++ leBytes 2 g.offset ++ leBytes 2 g.safeEnv ++ leBytes 8 g.barrierT ++ leBytes 8 g.expiry
    ++ leBytes 2 g.rackId ++ leBytes 1 g.shelf)

/-- A TIME frame (R258). -/
def timeFrame (t : Nat) : List Byte := tlkFrame (leBytes 1 3 ++ leBytes 7 0 ++ leBytes 8 t)

/-- An ANNOUNCE_RESULT frame (R258). -/
def announceResult (id status reason : Nat) : List Byte :=
  tlkFrame (leBytes 1 4 ++ leBytes 3 0 ++ leBytes 4 id ++ leBytes 1 status ++ leBytes 1 reason)

/-- THROTTLE (0x55) or RELEASE (0x66), with its CRC-8 over bytes 1 to 6 (R252). -/
def orderedSet (type tseq cause delay scope : Nat) : List Byte :=
  let m := leBytes 2 tseq ++ leBytes 1 cause ++ leBytes 2 delay ++ leBytes 1 scope
  leBytes 1 type ++ m ++ leBytes 1 (crc8 7 0 m)

/-- An ordered set goes out twice, in consecutive blocks (R252). -/
def State.sendSet (s : State) (n : Fin 64) (b : List Byte) : State := (s.send (.tlk n.val b)).send (.tlk n.val b)

/-- A port sends grants: it is up and not UNUSED or DOWN (R262). -/
def Port.grants (p : Port) : Bool := p.linked && p.state != .unused && p.state != .down

/-- A port sends its grant anew, with a new GSEQ (R255, R262, R264). A port that sends none is left as it is. -/
def State.sendGrant (s : State) (n : Fin 64) : State :=
  if (s.port n).grants then
    let g := s.grantFor n
    ({ s with tlk := { s.tlk with grantsSent := wrapU 32 (s.tlk.grantsSent + 1) } }.updPort n fun p =>
      { p with sent := some g, sentTick := s.sys.tick, gseqSent := g.gseq, envSent := g.envelope, ackTries := 1
               unacked := g :: p.unacked }).send (.tlk n.val g.frame)
  else s

/-- Several ports send their grants. -/
def State.sendGrants (s : State) (l : List (Fin 64)) : State := l.foldl State.sendGrant s

/-- What a grant says besides its sequence and its expiry. -/
def Grant.terms (g : Grant) : Grant := { g with gseq := 0, expiry := 0 }

/-- Every port whose grant has changed against an earlier state, or that sent none then, sends it (R254, R262). -/
def State.regrant (s old : State) : State :=
  s.sendGrants (s.portsWhere Port.grants |>.filter fun n =>
    !(old.port n).grants || (s.grantFor n).terms != (old.grantFor n).terms)

/-! The allocator. -/

/-- PWM_STORAGE_PLIM under R195 with every configured phase active and no foldback (R269), W. -/
def State.plimFull (s : State) : Int :=
  divHE (((List.finRange 4).map fun g =>
    let gr := s.pwm.grp[g.val]
    match s.rec8 0x0601 0x08 g.val with
    | some r =>
      if gr.state = .off || gr.state = .stopping then 0
      else
        let n := ((List.range 64).filter fun p => tb (r.u32 0x0C + 2 ^ 32 * r.u32 0x10) p).length
        (n : Int) * r.u16 0x1C * gr.vStr
    | none => 0).sum) 1000000

/-- a_rise (rising) or a_fall of R269, W/us. -/
def State.slopeLimit (s : State) (rising : Bool) : Nat :=
  let m := if rising then s.pol16 0x08 0 else s.pol16 0x0A 0
  if s.plimFull ≤ 0 then 0 else (m * s.pwm.plim.toNat) / s.plimFull.toNat

/-- Occupancy of one direction at a microsecond of shelf time (R270). -/
def State.occAt (s : State) (rising : Bool) (us : Nat) : Nat :=
  ((s.tlk.placed.filter fun p => p.rising == rising && decide (p.t / 1000 + p.offset ≤ us)
      && decide (us < p.t / 1000 + p.offset + p.dur)).map Placement.slope).sum

/-- Whether the occupancy leaves room for a slope throughout d microseconds from `us`: it changes upwards
only where a placement begins. -/
def State.occFits (s : State) (rising : Bool) (us d sl c : Nat) : Bool :=
  (us :: (s.tlk.placed.filter fun p => p.rising == rising).map fun p => p.t / 1000 + p.offset).all fun x =>
    x < us || us + d ≤ x || s.occAt rising x + sl ≤ c

/-- The smallest offset at or after the cursor at which the occupancy has room, at most 65,535 (R270): the
cursor itself or the end of a placement. -/
def State.findOffset (s : State) (rising : Bool) (tUs cursor d sl c : Nat) : Nat :=
  let ends := (s.tlk.placed.filter fun p => p.rising == rising).map fun p => p.t / 1000 + p.offset + p.dur
  let cand := (cursor :: (ends.filter fun e => tUs + cursor < e).map (· - tUs)).filter fun k =>
    s.occFits rising (tUs + k) d sl c
  cand.foldl min 65535

/-- The trays of an entry ordered for placement: |dp| descending, then port ascending (R270). -/
def orderByMove (l : List (Fin 64 × Nat)) : List (Fin 64 × Nat) :=
  l.mergeSort fun a b => b.2 < a.2 || (a.2 = b.2 && a.1.val ≤ b.1.val)

/-- The pass of R270 over ordered trays: each is placed behind the cursor. `grant` is GRANT_RISE or
GRANT_FALL. A tray whose slope comes out 0 is not placed (log entry 14). -/
def State.placePass (s : State) (rising : Bool) (t id src c grant : Nat) :
    List (Fin 64 × Nat) → Nat → State
  | [], _ => s
  | (n, dp) :: l, cursor =>
    let sl := min (min grant (s.port n).slopeMax) c
    if sl = 0 then s.placePass rising t id src c grant l cursor
    else
      let d := ceilDiv dp sl
      let o := min (s.findOffset rising (t / 1000) cursor d sl c) 65535
      let pl : Placement := { port := n.val, entryId := id, source := src, t := t, offset := o
                              dur := d, slope := sl, rising := rising }
      let s := { s with tlk := { s.tlk with placed := s.tlk.placed ++ [pl]
                                            allocSpread := satU 16 (o + d)
                                            allocPlaced := s.tlk.allocPlaced + 1 } }
      s.placePass rising t id src c grant l (o + ceilDiv dp c)

/-- A tray may be placed: ACTIVE or TAKEN_OVER at this shelf (R268), and no barrier pending (R270). -/
def State.placeable (s : State) (n : Fin 64) : Bool :=
  (s.port n).state.counted && !(s.port n).handback && (s.placedAt n.val).isNone

/-- The capacity of R269 for an entry's direction: the limit less the default slopes of the ACTIVE and
TAKEN_OVER trays it does not name, at least a quarter of the limit. -/
def State.allocCap (s : State) (e : Entry) (rising : Bool) : Nat :=
  let a := s.slopeLimit rising
  let res := ((s.portsWhere fun p => p.state.counted).filter fun n => !tb e.mask n.val).map fun n =>
    if rising then s.standRise n.val else s.standFall n.val
  max (a - res.sum) (a / 4)

/-- A placement is that of an entry. -/
def Placement.of (p : Placement) (e : Entry) : Bool := p.entryId = e.id && p.source = e.source && p.t = e.t
/-- Two entries of one announcement. -/
def Entry.sameAs (e x : Entry) : Bool := x.id = e.id && x.source = e.source && x.t = e.t

/-- Placements of an entry written into it as offsets and slopes (R145). -/
def State.noteOffsets (s : State) (e : Entry) : State :=
  let mine := s.tlk.placed.filter fun p => p.of e
  let new := mine.map fun p => (p.port, 1000 * p.offset, p.slope)
  let note := fun (x : Entry) =>
    if e.sameAs x then { x with offs := new ++ x.offs.filter fun y => !(mine.any fun p => p.port = y.1) } else x
  { s with tlk := { s.tlk with table := s.tlk.table.map note } }

/-- An entry no longer waits for the barrier of a tray (R270). -/
def Entry.noWait (e : Entry) (n : Fin 64) : Entry :=
  { e with waiting := if tb e.waiting n.val then e.waiting - 2 ^ n.val else e.waiting }

/-- An entry waits for those of its trays that hold another pending barrier, and for none that it is placed for (R270). -/
def State.noteWaiting (s : State) (e : Entry) (l : List (Fin 64)) : State :=
  let w := l.filter fun n => tb e.mask n.val && (s.port n).state.counted && (match s.placedAt n.val with
    | some p => !p.of e
    | none => false)
  let done := l.filter fun n => (s.placedAt n.val).any fun p => p.of e
  let note := fun (x : Entry) =>
    if e.sameAs x then
      let y := done.foldl Entry.noWait x
      { y with waiting := y.waiting ||| (w.map fun n => 2 ^ n.val).sum }
    else x
  { s with tlk := { s.tlk with table := s.tlk.table.map note } }

/-- The trays of an entry among `l` are placed and their grants go out at once (R268 to R270). -/
def State.placeEntry (s : State) (e : Entry) (l : List (Fin 64)) : State :=
  let trays := l.filter fun n => tb e.mask n.val && s.placeable n
  if trays.isEmpty || e.dp = 0 then s
  else
    let rising := 0 < e.dp
    let c := s.allocCap e rising
    let grant := if rising then s.pol16 0x0C 0 else s.pol16 0x0E 0
    let s := { s with tlk := { s.tlk with allocPlaced := 0, allocSpread := 0 } }
    let s := s.placePass rising e.t e.id e.source c grant
      (orderByMove (trays.map fun n => (n, e.dp.natAbs))) 0
    (s.noteOffsets e).sendGrants (trays.filter fun n => (s.placedAt n.val).isSome)

/-- The allocator runs in RUN, outside ORPHAN (R268). -/
def State.allocOn (s : State) : Bool := s.sys.state = .run && !s.sys.orphan

/-- An entry reaches the table, or one of its trays becomes placeable: its trays are placed where at
least LEAD_MIN_US remains before T (R268, R285). -/
def State.tryPlace (s : State) (e : Entry) (l : List (Fin 64)) : State :=
  if s.allocOn && s.sys.timeNs + s.leadNs ≤ e.t then (s.placeEntry e l).noteWaiting e l else s

/-- The allocator runs over the table, entry by entry (R268, R386): after ORPHAN, and on entry into RUN. -/
def State.allocResume (s : State) : State := s.tlk.table.foldl (fun s e => s.tryPlace e (List.finRange 64)) s

/-- The entries naming a port, tried for it (R281, R285). -/
def State.tryPort (s : State) (n : Fin 64) : State :=
  s.tlk.table.foldl (fun s e => if tb e.mask n.val then s.tryPlace e [n] else s) s

/-- The barrier a port held is over: the entries that waited for it are placed while LEAD_MIN_US remains before T, and
late for that tray otherwise (R270). -/
def State.tryWaiters (s : State) (n : Fin 64) : State :=
  (s.tlk.table.filter fun e => tb e.waiting n.val).foldl (fun s e =>
    if (s.placedAt n.val).isSome then s
    else
      let note := fun (x : Entry) => if e.sameAs x then x.noWait n else x
      let s := { s with tlk := { s.tlk with table := s.tlk.table.map note } }
      if !s.allocOn then s
      else if s.sys.timeNs + s.leadNs ≤ e.t then s.tryPlace e [n]
      else s.ev 0x7062 n.val) s

/-- Trays take a role tag, and every grant that changes with it goes out (R254, R266, R293). -/
def State.setRole (s : State) (l : List (Fin 64)) (r : Nat) : State :=
  (l.foldl (fun s n => s.updPort n fun p => { p with role := some r }) s).regrant s

/-- A placement is released (R270). -/
def State.unplace (s : State) (n : Nat) : State :=
  { s with tlk := { s.tlk with placed := s.tlk.placed.filter fun p => p.port != n || p.source == 0x1FF } }

/-- A tray leaves service here: its placement is released, and no entry waits for it (R270, R282, R284). -/
def State.unserve (s : State) (n : Fin 64) : State :=
  let s := s.unplace n.val
  { s with tlk := { s.tlk with table := s.tlk.table.map fun e => e.noWait n } }

/-- A tray leaves the table: its bit clears in every entry, entries left with none go, and its occupancy
is freed (R283). -/
def State.purgeTray (s : State) (n : Fin 64) : State :=
  { s with tlk := { s.tlk with
      table := (s.tlk.table.map fun e =>
        { e.noWait n with mask := if tb e.mask n.val then e.mask - 2 ^ n.val else e.mask }).filter fun e => e.mask != 0
      placed := s.tlk.placed.filter fun p => p.port != n.val } }

/-! THROTTLE and RELEASE. -/

/-- DATA of event 0x7020 (R508). -/
def causeBit (c : Nat) : Nat := 2 ^ (c - 1)

/-- The span of R265 that a THROTTLE at t begins: one whose RELEASE delay has run is over. -/
def Port.beginSpan (p : Port) (t : Nat) : Port :=
  match p.thrFrom, p.relEnd with
  | some a, some e => if e < t then { p with thrPast := some (a, e), thrFrom := some t, relEnd := none }
                      else { p with relEnd := none }
  | some _, none => p
  | none, _ => { p with thrFrom := some t, relEnd := none }

/-- One THROTTLE ordered set on a port: a new TSEQ, the port throttled, the span of R265 begun (R252). The rise of a release before
it ends, and its occupancy (R273). -/
def State.throttleOut (s : State) (n : Fin 64) (cause scope : Nat) : State :=
  ({ s with tlk := { s.tlk with throttleCount := bump 32 s.tlk.throttleCount
                                placed := s.tlk.placed.filter fun p => p.port != n.val || p.source != 0x1FF
                                throttleT := s.sys.timeNs } }.updPort n fun p =>
    { p.beginSpan s.sys.timeNs with tseq := wrapU 16 (p.tseq + 1), throttled := true }).sendSet n
    (orderedSet 0x55 (wrapU 16 ((s.port n).tseq + 1)) cause 0 scope)

/-- A port carries ordered sets: it is up and not UNUSED. -/
def Port.carriesSets (p : Port) : Bool := p.linked && p.state != .unused

/-- THROTTLE is in force on all ports (R272). -/
def State.allThrottled (s : State) : Bool :=
  s.tlk.throttleAll && (s.portsWhere Port.carriesSets).all fun n => (s.port n).throttled

/-- THROTTLE goes to every linked port, and a release under way is broken off (R272, R273). -/
def State.throttleEvery (s : State) (cause : Nat) : State :=
  let s := { s with tlk := { s.tlk with throttleAll := true, releasing := false
                                        placed := s.tlk.placed.filter fun p => p.source != 0x1FF } }
  (s.portsWhere Port.carriesSets).foldl (fun s n => s.throttleOut n cause 0) s

/-- A trigger for all ports (R272, R273): while THROTTLE is in force on all ports it only adds its cause;
otherwise THROTTLE goes to every linked port. The event names no port (log entry 104). -/
def State.throttleAllPorts (s : State) (cause : Fin 7) : State :=
  let s' := { s with tlk := { s.tlk with
    causes := updV s.tlk.causes cause fun _ => true
    causeTick := updV s.tlk.causeTick cause fun _ => s.sys.tick
    port := if cause = 4 then s.tlk.port.map fun (p : Port) => { p with opCleared := false } else s.tlk.port } }
  let s' := if s.allThrottled then s' else s'.throttleEvery (cause.val + 1)
  s'.ev 0x7020 noInst (causeBit (cause.val + 1))

/-- A trigger for one port, cause 5 OPERATOR or 6 NONCOMPLIANT (R272). While RELEASE delays run it sends THROTTLE to all
ports (R273). -/
def State.throttlePort (s : State) (n : Fin 64) (cause : Nat) : State :=
  let s := s.updPort n fun p =>
    if cause = 5 then { p with thrOperator := true } else { p with thrNoncompliant := true }
  let s :=
    if s.tlk.releasing then { s with tlk := { s.tlk with thrRestart := true } }.throttleEvery cause
    else if (s.tlk.throttleAll && (s.port n).throttled) || !(s.port n).carriesSets then s
    else s.throttleOut n cause 1
  s.ev 0x7020 n.val (causeBit cause)

/-- The offset of an entry whose start a throttled port missed, in ns: T_rel + DELAY_US - T (R274). An entry whose T
comes later keeps its own. -/
def Entry.shifted (e : Entry) (n : Fin 64) (now from_ : Nat) : Option Nat :=
  if tb e.mask n.val && now ≤ e.t + 1000 * e.duration && e.t ≤ from_ then some (from_ - e.t) else none

/-- The entries naming a released port start with its release (R274), in prediction and in allocation. -/
def State.shiftEntries (s : State) (n : Fin 64) (from_ : Nat) : State :=
  let now := s.sys.timeNs
  let shift := fun (e : Entry) =>
    match e.shifted n now from_ with
    | some o =>
      let sl := ((e.offs.find? fun x => x.1 = n.val).map fun x => x.2.2).getD
        (if 0 < e.dp then s.standRise n.val else s.standFall n.val)
      { e with offs := (n.val, o, sl) :: e.offs.filter fun x => x.1 != n.val }
    | none => e
  let move := fun (p : Placement) =>
    match (s.tlk.table.find? fun e => p.port == n.val && p.of e).bind fun e => e.shifted n now from_ with
    | some o => { p with offset := min 65535 (ceilDiv o 1000) }
    | none => p
  { s with tlk := { s.tlk with table := s.tlk.table.map shift, placed := s.tlk.placed.map move } }

/-- RELEASE on one port with the delay its placement gives (R252, R273), and its grant where the offset of its barrier
has moved (R254, R274). -/
def State.releaseOut (scope : Nat) (s : State) (n : Fin 64) : State :=
  let delay := ((s.tlk.placed.find? fun p => p.port == n.val && p.source == 0x1FF).map
    Placement.offset).getD 0
  let from_ := s.sys.timeNs + 1000 * delay
  let s := s.updPort n fun p =>
    { p with tseq := wrapU 16 (p.tseq + 1), throttled := false, relEnd := some from_ }
  let s' := ((s.shiftEntries n from_).sendSet n (orderedSet 0x66 (s.port n).tseq 0 delay scope)).ev 0x7021 n.val
  s'.regrant s

/-- The rise of a released port: ENVELOPE of its grant in force less its floor (R273), W. -/
def State.releaseMove (s : State) (n : Fin 64) : Nat :=
  10 * ((((s.port n).inForce.map Grant.envelope).getD 0)) - s.floorOf n

/-- Ports are released as a barrier at the present instant against a_rise (R273). -/
def State.releasePorts (s : State) (l : List (Fin 64)) (scope : Nat) : State :=
  let c := s.slopeLimit true
  let moves := orderByMove ((l.map fun n => (n, s.releaseMove n)).filter fun x => x.2 != 0)
  let spread := s.tlk.allocSpread
  let cnt := s.tlk.allocPlaced
  let s := s.placePass true s.sys.timeNs 0 0x1FF c (s.pol16 0x0C 0) moves 0
  let s := { s with tlk := { s.tlk with allocSpread := spread, allocPlaced := cnt } }
  let s := l.foldl (State.releaseOut scope) s
  let runs := l.any fun n => s.sys.timeNs < ((s.port n).relEnd.getD 0)
  { s with tlk := { s.tlk with releasing := s.tlk.releasing || runs } }

/-- A cause of any kind is in force, on all ports or on one. -/
def State.anyThrottleCause (s : State) : Bool :=
  s.tlk.causes.toList.any id || s.tlk.port.toList.any fun p => p.thrOperator || p.thrNoncompliant

/-- A cause holds a port: one of its own, one on all ports, of which its RELEASE clears OPERATOR (R292), or a release
that starts afresh when all causes clear (R273). -/
def State.portHeld (s : State) (p : Port) : Bool :=
  p.thrOperator || p.thrNoncompliant
  || ((List.finRange 7).any fun c => s.tlk.causes[c.val] && !(c.val = 4 && p.opCleared))
  || (s.tlk.thrRestart && s.anyThrottleCause)

/-- Causes have cleared: the throttled ports that no cause holds are released, all of them together where the last cause
on all ports has gone (R272, R273). -/
def State.settle (s : State) : State :=
  let still := s.tlk.causes.toList.any id || (s.tlk.thrRestart && s.anyThrottleCause)
  let scope := if s.tlk.throttleAll && !still then 0 else 1
  let s := { s with tlk := { s.tlk with throttleAll := s.tlk.throttleAll && still
                                        thrRestart := s.tlk.thrRestart && s.anyThrottleCause } }
  let l := s.portsWhere fun p => p.throttled && !s.portHeld p
  if l.isEmpty then s else s.releasePorts l scope

/-- A cause on all ports clears (R272). -/
def State.clearCause (s : State) (cause : Fin 7) : State :=
  if s.tlk.causes[cause.val] then
    { s with tlk := { s.tlk with causes := updV s.tlk.causes cause fun _ => false } }.settle
  else s

/-- A cause of one port clears (R272): OPERATOR also where THROTTLE_ALL set it (R292). -/
def State.clearPortCause (s : State) (n : Fin 64) (cause : Nat) : State :=
  (s.updPort n fun p =>
    if cause = 5 then { p with thrOperator := false, opCleared := s.tlk.causes[4] }
    else { p with thrNoncompliant := false }).settle

/-- RACK_HOLD_N is sensed low (R272, R275): the module acts on it in RUN and BASALT, not before RUN (R435). -/
def State.rackHoldLow (s : State) : State :=
  if s.sys.rackHoldSeen then s
  else
    let s := ({ s with sys := { s.sys with rackHoldSeen := true } }).ev 0x7022
    if s.inState [.run, .basalt] then s.throttleAllPorts 2 else s

/-- RACK_HOLD_N is sensed high again (R275). -/
def State.rackHoldHigh (s : State) : State :=
  if s.sys.rackHoldSeen then ({ s with sys := { s.sys with rackHoldSeen := false } }).ev 0x7023 else s

/-- The module drives RACK_HOLD_N low, and senses the line it drives (R275). -/
def State.driveHold (s : State) : State :=
  ({ s with sys := { s.sys with rackHoldDrive := true } }).rackHoldLow

/-! Shares and envelopes. -/

/-- Rounded up and down to 10 W (R277). -/
def ceil10 (x : Nat) : Nat := 10 * ((x + 9) / 10)
def floor10 (x : Nat) : Nat := 10 * (x / 10)

/-- The reduction of R277 over the roles, lowest priority first: the envelopes of the trays, W, and what
is left over. -/
def State.reduceRoles (s : State) (trays : List (Fin 64)) :
    List Nat → Nat → List (Fin 64 × Nat) → List (Fin 64 × Nat) × Nat
  | [], x, acc => (acc, x)
  | r :: rs, x, acc =>
    let mine := trays.filter fun n => (s.port n).roleTag = r
    let room := (mine.map fun n => s.wantOf n - s.floorOf n).sum
    if x = 0 then (acc ++ (trays.filter fun n => !(acc.any fun a => a.1 = n)).map fun n => (n, s.wantOf n), 0)
    else if x ≤ room then
      let acc := acc ++ mine.map fun n =>
        (n, s.wantOf n - ceil10 (ceilDiv (x * (s.wantOf n - s.floorOf n)) room))
      (acc ++ (trays.filter fun n => !(acc.any fun a => a.1 = n)).map fun n => (n, s.wantOf n), 0)
    else s.reduceRoles trays rs (x - room) (acc ++ mine.map fun n => (n, s.floorOf n))

/-- The cap of R277, W: the share and the planner's cap. -/
def State.capOf (s : State) : Option Nat :=
  match s.tlk.shareT, s.tlk.envCap with
  | none, c => c
  | some _, none => some s.tlk.share
  | some _, some c => some (min s.tlk.share c)

/-- Whether the planner's cap is the smaller one (R277, event 0x7071). -/
def State.capByPlanner (s : State) : Bool :=
  match s.tlk.envCap with
  | none => false
  | some c => s.tlk.shareT.isNone || c < s.tlk.share

/-- The envelope of one tray after the rules that bound it (R276 to R278, R282), 10 W. -/
def State.boundEnv (s : State) (n : Fin 64) (w : Nat) : Nat :=
  let p := s.port n
  let e := max (w / 10) ((s.floorOf n + 9) / 10)
  let e := if s.sys.orphan then min e (p.orphanCap.getD 0) else e
  let e := if s.tlk.shareStale then min e p.target else e
  let e := match p.report with
    | some r => if r.grantFrom && !p.shareSet && p.state = .active then min e r.envInForce else e
    | none => e
  if s.prot.rampDone then min e (min p.target (s.thermalFloor n.val))
  else if s.prot.thermalRamp then min e p.target else e

/-- A secondary exceeds its share for a tray it has taken over, until a new share arrives (R281). -/
def State.takenExcess (s : State) : Bool :=
  (s.tlk.port.toList.any fun p => p.state = .takenOver && !p.shareSet)
  && (match s.capOf with
    | some c => decide (c < s.envSum)
    | none => false)

/-- TLK_STATUS.OVER_SHARE as the floors and the takeovers stand (R277, R281). -/
def State.syncOverShare (s : State) : State :=
  { s with tlk := { s.tlk with overShare := s.tlk.floored || s.takenExcess } }

/-- Envelopes are recomputed (R277, R278, R282): `atShare` is the share cycle, which also sets the value
of a port that has just entered ACTIVE (R262). A taken-over tray keeps its envelope until a share has come
since (R281). -/
def State.recompute (s : State) (atShare : Bool) : State :=
  if s.sys.state != .run then s
  else
    let trays := s.portsWhere fun p => p.state.counted && (atShare || p.shareSet || p.state = .active)
    let part := trays.filter fun n => atShare || (s.port n).shareSet
    let want := (trays.map s.wantOf).sum
    let (envs, left) := match s.capOf with
      | some c => s.reduceRoles trays s.roleOrder.reverse (want - c) []
      | none => (trays.map fun n => (n, s.wantOf n), 0)
    let above := decide (0 < left)
    let old := s
    let s := if above && !s.tlk.floored then s.ev 0x7070 else s
    let s := { s with tlk := { s.tlk with floored := above } }
    let s := part.foldl (fun s n =>
      match envs.find? fun x => x.1 = n with
      | none => s
      | some (_, w) =>
        let e := old.boundEnv n w
        let low := decide (w < s.wantOf n)
        let p := s.port n
        if p.target = e && p.lowered = low && p.shareSet then s
        else
          let s := (s.updPort n fun p =>
            { p with target := e, lowered := low, shareSet := true, handback := false }).sendGrant n
          if p.handback then s.tryPort n else s) s
    let s := s.syncOverShare
    if s.capByPlanner && part.any fun n => (s.port n).target < (old.port n).target then s.ev 0x7071 else s

/-! Ports and the device state. -/

/-- The envelope a port enters service with, 10 W: in ORPHAN none above its value at entry into it, and after the thermal ramp none
above THERMAL_FLOOR (R278). -/
def State.entryBound (s : State) (n : Fin 64) (e : Nat) : Nat :=
  let e := if s.sys.orphan then min e ((s.port n).orphanCap.getD 0) else e
  if s.prot.rampDone then min e (s.thermalFloor n.val) else e

/-- A port enters ACTIVE or WATCH by its HOMING (R262). A tray that its secondary grants to waits for the next share
(R282). -/
def State.enterService (s : State) (n : Fin 64) : State :=
  if s.homing n.val = 2 then s.updPort n fun p => { p with state := .watch, target := 0, primaryDown := 0 }
  else
    s.updPort n fun p =>
      { p with state := .active, shareSet := false, lowered := false, handback := p.report.any Report.grantFrom
               target := s.entryBound n (match p.report with
                 | some r => min r.envInForce (s.maxEnv n.val)
                 | none => s.safeEnv n.val) }

/-- A port leaves service: no envelope, no share, no waiting (R262). -/
def Port.leave (p : Port) (st : PortState) : Port :=
  { p with state := st, target := 0, lowered := false, shareSet := false, handback := false }

/-- What a port keeps no longer when its link is lost. -/
def Port.unlink (p : Port) : Port :=
  { p with linked := false, ackTries := 0, sent := none, inForce := none, unacked := [], report := none
           reportStale := false, throttled := false, thrNoncompliant := false, overEnv := 0, missed := 0
           primaryDown := 0, lowerAck := none, thrFrom := none, relEnd := none, thrPast := none, handback := false }

/-- A port becomes UNUSED: it sends IDLE only and ignores what it receives, so nothing of its tray stays (R262). -/
def Port.retire (p : Port) : Port :=
  { p.unlink.leave .unused with linked := p.linked, debouncing := false, thrOperator := false }

/-- A port's state after a valid IDENT, or afresh, by the device state (R262). -/
def State.enterAfresh (s : State) (n : Fin 64) : State :=
  match s.sys.state with
  | .boot | .standby | .armed => s.updPort n fun p => p.leave .notReady
  | .basalt | .shipPrep => s.updPort n fun p => p.leave .safe
  | .run => s.enterService n

/-- The device enters RUN: NOT_READY and SAFE ports come into service (R262), and the allocator runs (R268). -/
def State.portsEnterRun (s : State) : State :=
  let l := s.portsWhere fun p => p.state = .notReady || p.state = .safe
  ((l.foldl State.enterService s).sendGrants l).allocResume

/-- Placements, the entries' waiting and OVER_SHARE end with the service of the trays. -/
def State.dropPlacements (s : State) : State :=
  { s with tlk := { s.tlk with placed := [], overShare := false, floored := false
                               table := s.tlk.table.map fun e => { e with waiting := 0 } } }

/-- The device enters BASALT or SHIP_PREP: ports in service become SAFE (R262). -/
def State.portsEnterSafe (s : State) : State :=
  let l := s.portsWhere fun p => p.state = .active || p.state = .watch || p.state = .takenOver
  let s := s.dropPlacements
  (l.foldl (fun s n => s.updPort n fun p => p.leave .safe) s).sendGrants l

/-- The device leaves RUN or BASALT for ARMED or STANDBY: ports in service or SAFE become NOT_READY (R262). -/
def State.portsLeaveRun (s : State) : State :=
  let l := s.portsWhere fun p =>
    p.state = .active || p.state = .watch || p.state = .takenOver || p.state = .safe
  let s := s.dropPlacements
  (l.foldl (fun s n => s.updPort n fun p => p.leave .notReady) s).sendGrants l

/-- A configuration becomes active: ports without HOMING become UNUSED, ports it uses anew come up as their link stands
(R262, R263), and every grant it changes goes out (R254). -/
def State.portsActivate (s old : State) : State :=
  ((((List.finRange 64).foldl (fun s n =>
    if s.homing n.val = 0 then
      if (s.port n).state = .unused then s
      else
        let s := (s.unserve n).updPort n Port.retire
        { s with tlk := { s.tlk with placed := s.tlk.placed.filter fun p => p.port != n.val } }
    else if (s.port n).state = .unused then
      s.updPort n fun p => { p with state := if p.linked then .identifying else .down }
    else s) s).regrant old).syncOverShare).settle

/-- A secondary takes a tray over (R280, R281): the grant carries the envelope in force capped by MAX_ENV,
entries with lead are placed, and OVER_SHARE shows an excess over the cap. -/
def State.takeOver (s : State) (n : Fin 64) (env : Nat) : State :=
  if (s.port n).state = .watch && s.sys.state = .run then
    let s := s.updPort n fun p =>
      { p with state := .takenOver, target := s.entryBound n (min env (s.maxEnv n.val)), shareSet := false
               lowered := false }
    (((s.ev 0x7050 n.val).sendGrant n).tryPort n).syncOverShare
  else s

/-- Takeover with the ENV_IN_FORCE of the tray's latest report. -/
def State.takeOverLatest (s : State) (n : Fin 64) : State :=
  s.takeOver n (((s.port n).report.map Report.envInForce).getD 0)

/-- Shelf time steps (R285): the table is cleared with event 0x7063, TIME goes out on every linked port, and
every grant is reissued. -/
def State.portsTimeStep (s : State) : State :=
  let s := { s with tlk := { s.tlk with table := [], placed := [] } }.ev 0x7063
  let l := s.portsWhere Port.carriesSets
  let s := l.foldl (fun s n => s.send (.tlk n.val (timeFrame s.sys.timeNs))) s
  s.sendGrants (s.portsWhere Port.grants)

end Sys2Proof.Machine
end

