-- ==== Sys2Proof/Machine/PwmOps.lean ====
section
/-! DEFINITION. Operations over converter groups, phases and PSU ports: limits (R176, R191), starts and
stops (R186), disabling, joining and interleave (R179, R180, R194, R196), comparator levels (R173, R187),
gate claims (R193) and brick commands (R199 to R201). -/

namespace Sys2Proof.Machine

/-- A change of one phase. -/
def State.updPh (s : State) (p : Fin 64) (f : Phase → Phase) : State :=
  { s with pwm := { s.pwm with ph := updV s.pwm.ph p f } }
/-- A change of one group. -/
def State.updGrp (s : State) (g : Fin 4) (f : Group → Group) : State :=
  { s with pwm := { s.pwm with grp := updV s.pwm.grp g f } }
/-- A change of one PSU port. -/
def State.updPsu (s : State) (p : Fin 16) (f : PsuPort → PsuPort) : State :=
  { s with pwm := { s.pwm with psu := updV s.pwm.psu p f } }
/-- A phase, a group and a PSU port by number. -/
def State.ph (s : State) (p : Fin 64) : Phase := s.pwm.ph[p.val]
def State.grp (s : State) (g : Fin 4) : Group := s.pwm.grp[g.val]
def State.psuPort (s : State) (p : Fin 16) : PsuPort := s.pwm.psu[p.val]

/-- The groups with a GROUP record. -/
def State.groups (s : State) : List (Fin 4) := (List.finRange 4).filter fun g => (s.grpRec g.val).isSome

/-- The active phases of a group, ascending (R179). -/
def State.actives (s : State) (g : Fin 4) : List (Fin 64) := (s.members g.val).filter fun p => (s.ph p).active
/-- N, the number of active phases (R175). -/
def State.nAct (s : State) (g : Fin 4) : Nat := (s.actives g).length

/-- What the edges of a group follow: its period and N while it has frames (R306). -/
def State.edgeKey (s : State) (g : Fin 4) : Nat × Nat :=
  if (s.grp g).framing then ((s.grp g).period, s.nAct g) else (0, 0)

/-- SWEEP_OFF_WINDOW (R306): at instant t, before t_s, the period or N of the group has changed; the sweep keeps t_s and
is marked. -/
def State.offWindowCheck (s : State) (g : Fin 4) (t : Nat) : State :=
  (List.finRange 4).foldl (fun s c =>
    match s.chn.ring[c.val].sweep with
    | none => s
    | some w =>
      if w.grp = some g && !w.offWindow && decide (t < w.ts) && s.edgeKey g != w.edges then
        ({ s with chn := { s.chn with ring := updV s.chn.ring c fun r =>
          { r with sweep := some { w with offWindow := true } } } }).ev 0x8016 (chnInst c.val 0)
      else s) s

/-- The group switches: it has frames in every state but OFF (R179, R186). -/
def GrpState.switching : GrpState → Bool
  | .off => false
  | _ => true

/-- Basalt holds the group: in BASALT, and on a fast path it entered from there (R24, R192). -/
def Group.underBasalt (g : Group) : Bool := g.state = .basalt || (g.state = .fastPath && g.fpReturn = .basalt)

/-- Basalt commands the group: it holds it, or ramps it to 0 until it is OFF (R24, R426, R441). -/
def Group.basaltDrives (g : Group) : Bool := g.underBasalt || (g.state = .stopping && g.basaltStop)

/-- GDRV_EN_0 to 3 are held low: in an input loss, while MATE_N is high, or with EXTEST or CLAMP loaded (R34, R44, R46). -/
def State.gdrvHeld (s : State) : Bool :=
  s.power.inputLoss || !s.power.mate || s.sys.tap = .extest || s.sys.tap = .clamp
/-- GDRV_EN_g. -/
def State.setGdrv (s : State) (g : Fin 4) (v : Bool) : State :=
  { s with sys := { s.sys with gdrvEn := updV s.sys.gdrvEn g fun _ => v && !s.gdrvHeld } }
/-- GDRV_EN_0 to 3 low. -/
def State.gdrvLow (s : State) : State :=
  { s with sys := { s.sys with gdrvEn := Vector.replicate 4 false } }

/-! Limits. -/

/-- The ramp of R186 in force on a group: it starts, or it stops. -/
def Group.ramps (g : Group) : Bool :=
  g.state = .softStart || g.state = .stopping || (g.state = .fastPath && g.fpReturn = .softStart)

/-- ilim_cont of R195, mA: N times PH_CONT_MA, or the foldback value of R191. -/
def State.ilimCont (s : State) (g : Fin 4) : Int :=
  let c := (s.nAct g : Int) * s.phCont g.val
  if (s.grp g).foldback then Int.fdiv (c * 15) 16 else c

/-- I_lim of R176, mA, for a group reference of the sign given (R344): the smallest of N times PH_PEAK_MA,
the ramp of R186, the foldback value of R191 and the string's limit. The ramp is rounded half-even
(log entry 16). -/
def State.iLimFor (s : State) (g : Fin 4) (negative : Bool) : Int :=
  let gr := s.grp g
  let n := s.nAct g
  if n = 0 then 0
  else
    let full := (n : Int) * s.phPeak g.val
    let st := s.est.str[g.val]
    let lims := [if negative then st.ilimChg else st.ilimDch]
      ++ (if gr.foldback then [s.ilimCont g] else [])
      ++ (if gr.state = .stopping then [divHE (gr.rampFrom * gr.rampLeft) gr.rampLen]
          else if gr.ramps && gr.rampLeft != 0 then
            [divHE (full * ((gr.rampLen : Int) - gr.rampLeft)) gr.rampLen]
          else [])
    max 0 (lims.foldl min full)

/-- PWM_STORAGE_PLIM of R195, W. -/
def State.plimNow (s : State) : Int :=
  divHE (((List.finRange 4).map fun g =>
    if (s.grp g).state = .off || (s.grp g).state = .stopping then 0
    else s.ilimCont g * (s.grp g).vStr).sum) 1000000

/-! Interleave (R179, R180). -/

/-- The free-running period of a group, 25 ps units (R179). -/
def State.freePeriod (s : State) (g : Fin 4) : Nat := divHEN 40000000 (s.fsw g.val)

/-- Turn-on offset of position i of n in a frame of period t, 25 ps units (R179). -/
def posOffset (t i n : Nat) : Nat := divHEN (i * t) n

/-- The same in a frame of Basalt: 10 us on a grid of 50 ns (R414). -/
def basaltOffset (i n : Nat) : Nat := 2000 * divHEN (i * 200) n

/-- Offsets at rest: each active phase at its position. -/
def State.placeOffsets (s : State) (g : Fin 4) : State :=
  let l := s.actives g
  let n := l.length
  let t := s.freePeriod g
  (l.zipIdx).foldl (fun s x => s.updPh x.1 fun p =>
    let o := if (s.grp g).basaltDrives then basaltOffset x.2 n else posOffset t x.2 n
    { p with offset := o, offsetFrom := o, offsetTo := o }) s

/-- A re-interleave begins (R180): every phase that stays or joins moves towards its new position. -/
def State.reinterleave (s : State) (g : Fin 4) : State :=
  let l := (s.members g.val).filter fun p => (s.ph p).active || (s.ph p).joining
  let n := l.length
  let t := s.freePeriod g
  let s := (l.zipIdx).foldl (fun s x => s.updPh x.1 fun p =>
    let o := if (s.grp g).basaltDrives then basaltOffset x.2 n else posOffset t x.2 n
    { p with offsetFrom := if p.active then p.offset else o, offset := if p.active then p.offset else o
             offsetTo := o }) s
  s.updGrp g fun x => { x with reinterleave := true, reSteps := 0 }

/-- Frame step k of a re-interleave: the offsets move by a quarter each, rounded half-even (R180). -/
def State.reStep (s : State) (g : Fin 4) : State :=
  let k := (s.grp g).reSteps + 1
  let s := (s.members g.val).foldl (fun s p => s.updPh p fun x =>
    { x with offset := ((x.offsetFrom : Int)
        + divHE (((x.offsetTo : Int) - x.offsetFrom) * k) 4).toNat }) s
  s.updGrp g fun x => { x with reSteps := k }

/-! Starts and stops (R186). -/

/-- i_pk in force of a phase (PWM_PH_I_PK): PEAK_LIMIT on the fast path, the step reached on the way back from
it, else the reference applied (R175, R192). -/
def State.iPkNow (s : State) (p : Fin 64) : Int :=
  let x := s.ph p
  match s.phaseGroup p.val with
  | none => 0
  | some g =>
    if (s.grp g).state = .fastPath && x.active then s.peakLimit p.val
    else if x.fpSteps != 0 then x.iPkCycle
    else x.iPk

/-! What ends a phase's cycles. -/

/-- DEADTIME_NS of a phase; under Basalt rounded up to 50 ns (R415). -/
def State.deadOf (s : State) (p : Fin 64) : Nat :=
  match s.phaseGroup p.val with
  | some g =>
    if (s.grp g).basaltDrives then 2000 * ceilDiv (s.deadtime g.val) 50 else 40 * s.deadtime g.val
  | none => 0

/-- The frame period of a phase's group. -/
def State.periodOf (s : State) (p : Fin 64) : Nat :=
  match s.phaseGroup p.val with
  | some g => (s.grp g).period
  | none => 0

/-- The fast path acts on a phase. -/
def State.onFastPath (s : State) (p : Fin 64) : Bool := (s.phaseGroup p.val).any fun g => (s.grp g).state = .fastPath

/-- The start of the tick in progress, and an instant `at_` after it, 25 ps units from reset. -/
def State.tickStart (s : State) : Nat := 80000 * s.sys.tick
def State.instant (s : State) (at_ : Nat) : Nat := s.tickStart + at_

/-- The cycles of a phase end at instant `t`, with both switches off: what the codes of the tick say of them before is still
to be judged (`State.replay`). Turn-ons due after `t` stay. -/
def Phase.cutAt (x : Phase) (t dead : Nat) (fast : Bool) : Phase :=
  let due := x.due.filter fun u => decide (u < t)
  let later := x.due.filter fun u => decide (t ≤ u)
  if x.cyc.isNone && due.isEmpty then x
  else
    { x with cyc := none, due := later, charge := if x.cyc.isSome then x.mode = .charge else x.charge
             past := x.past ++ [{ cyc := x.cyc, due := due, next := later.head?, iPk := x.iPk, iPkCycle := x.iPkCycle, mode := x.mode
                                  sitOut := x.sitOut, fast := fast, dead := dead, upto := t }] }

/-- The same with the dead time and the path in force. -/
def State.cut (s : State) (p : Fin 64) (t : Nat) : Phase → Phase := fun x => x.cutAt t (s.deadOf p) (s.onFastPath p)

/-- What a phase holds of the frames of its group is dropped; a phase that was to join counts in N at once, as its
group is OFF (R196). Edges that have been stay, for the blanking of the window they lie in (R100). -/
def Phase.halt (p : Phase) : Phase :=
  { p with iPk := 0, iPkNext := 0, iPkCycle := 0, sitOut := 0, fpSteps := 0, peakLimited := false
           cyc := none, due := [], openAt := none, openRun := 0, suspect := 0
           active := p.active || p.joining, joining := false }

/-- A phase of a group that goes OFF, or that is disabled: its cycle ends with the tick in progress. -/
def State.haltPh (s : State) (p : Fin 64) : State :=
  let cut := s.cut p s.tickStart
  s.updPh p fun x => (cut x).halt

/-- Diode emulation ends (R174, R211). -/
def State.dropDe (s : State) (g : Fin 4) : State :=
  if (s.grp g).de then
    (s.updGrp g fun x => { x with de := false, deTicks := 0, deExit := false }).ev 0x5051 (grpInst g.val)
  else s

/-- What a group loses as it goes OFF (R186): its frames, its synchronisation and its reference. What the bus has to show
before the fast path is armed again, and the droop checks that are due, stand (R192, R194). -/
def Group.turnOff (x : Group) : Group :=
  { x with state := .off, framing := false, deTicks := 0, sync := .free, reinterleave := false, reSteps := 0, limited := false
           iRef := 0, rampLeft := 0, basaltStop := false }

/-- The group is OFF with GDRV_EN_g low. A phase that waits to be disabled is left for its own step. The fast path ends with
event 0x5041, and a group that followed SYNC_IN is FREE with event 0x5062 (R211). -/
def State.groupOff (s : State) (g : Fin 4) : State :=
  let gr := s.grp g
  let s := if gr.state = .fastPath then s.ev 0x5041 (grpInst g.val) else s
  let s := if gr.sync = .free then s else s.ev 0x5062 (grpInst g.val)
  let s := (s.members g.val).foldl State.haltPh s
  ((s.dropDe g).updGrp g Group.turnOff).setGdrv g false

/-- The present cycle of a phase is over, with both switches off from the tick in progress on, and no turn-on is due
(R413). -/
def State.stopCycle (s : State) (p : Fin 64) : State :=
  let cut := s.cut p s.tickStart
  s.updPh p fun x => { cut x with due := [], fpSteps := 0, peakLimited := false }

/-- BUS_SET_MIN to BUS_SET_MAX hold the bus voltage of a group, and it is valid (R186). -/
def State.busInRange (s : State) (g : Fin 4) : Bool :=
  (s.grp g).vBusValid && s.limit 5 ≤ (s.grp g).vBus && (s.grp g).vBus ≤ s.limit 4

/-- The group enters SOFT_START (R186): I_lim ramps from 0 over SS_MS and GDRV_EN_g goes high. Its first
frame starts at the first tick start after (R179). -/
def State.startGroup (s : State) (g : Fin 4) : State :=
  let s := (s.members g.val).foldl State.stopCycle s
  ((s.updGrp g fun x => { x with state := .softStart, basaltStop := false, rampLen := s.ssTicks g.val
                                 rampLeft := s.ssTicks g.val, framing := false, offAtZero := false }).setGdrv g true
    |>.placeOffsets g).ev 0x5001 (grpInst g.val)

/-- Start conditions of every group at entry into RUN (R186). -/
def State.startCheck (s : State) : Bool := s.groups.all fun g => s.nAct g != 0 && s.busInRange g

/-- The bus voltage of the shelf: that of its lowest configured group (DEDUCED, log entry 17), mV. -/
def State.shelfBus (s : State) : Int := ((s.groups.head?).map fun g => (s.grp g).vBus).getD 0

/-- p starts at the measured bus voltage, v and a at 0 (R186). -/
def State.profileAtBus (s : State) : State :=
  { s with pwm := { s.pwm with profP := s.shelfBus * 1000 * 2 ^ 24, profV := 0, profA := 0 } }

/-- The reference Basalt's last command corresponds to (R177). -/
def State.refOfPeak (s : State) (g : Fin 4) (ipk : Int) : Int :=
  let r : Int := s.ripple g.val
  (s.nAct g : Int) * (if 0 ≤ ipk then ipk - r else ipk + r)

/-- The fast path ends (R192, R211): the group returns to the state it came from, the references return over four cycles and
the offsets under R180. -/
def State.fastEnd (s : State) (g : Fin 4) : State :=
  if (s.grp g).state = .fastPath then
    ((s.updGrp g fun x => { x with state := x.fpReturn, fpGood := 0 }).reinterleave g).ev 0x5041 (grpInst g.val)
  else s

/-- The group passes to STOPPING: I_lim ramps to 0 over SS_MS (R186). A fast path ends first (log entry 135). Diode emulation
goes on under R174. A group that Basalt holds for the device is ramped by Basalt (R426, R441), one handed over in RUN returns
first (R419). -/
def State.stopGroup (s : State) (g : Fin 4) : State :=
  let s := s.fastEnd g
  let gr := s.grp g
  if gr.state = .off || gr.state = .stopping then s
  else
    let ref := if gr.state = .basalt then s.refOfPeak g s.prot.basaltIpk[g.val] else gr.iRef
    let lim := s.iLimFor g (ref < 0)
    s.updGrp g fun x => { x with state := .stopping, stopAt := s.sys.tick, rampFrom := lim, stopRef := ref
                                 basaltStop := gr.state = .basalt && !s.loop.basaltGroups[g.val]
                                 stopPk := s.prot.basaltIpk[g.val]
                                 rampLen := s.ssTicks g.val, rampLeft := s.ssTicks g.val }

/-- The ramp of I_lim of a group ends by the end of the tick in progress (R186; log entry 109). -/
def State.rampOver (s : State) (g : Fin 4) : Bool := s.clk.fabricStopped || decide ((s.grp g).rampLeft ≤ 1)

/-- A group in STOPPING may switch off (R186): its ramp is over and its current lies below 5 % of PH_CONT_MA, or SS_MS and
10 ms have elapsed. -/
def State.mayStop (s : State) (g : Fin 4) : Bool :=
  (s.rampOver g && decide (20 * (s.grp g).iMeas.natAbs < s.phCont g.val))
  || s.elapsed (s.grp g).stopAt (s.ssTicks g.val + 5000)

/-- Every group passes to STOPPING. -/
def State.stopGroups (s : State) : State := (List.finRange 4).foldl State.stopGroup s
/-- Every group is OFF at once, with its driver enable low (R34, R44, R186). -/
def State.groupsOff (s : State) : State := ((List.finRange 4).foldl State.groupOff s).gdrvLow
/-- Every group is OFF. -/
def State.allOff (s : State) : Bool := (List.finRange 4).all fun g => (s.grp g).state = .off

/-! Disabling and joining (R194, R196). -/

/-- Codes of PWM_PH_STATUS.CAUSE (R194). -/
def PhCause.code : PhCause → Nat
  | .none => 0 | .phaseOpen => 1 | .senseOpen => 2 | .senseSuspect => 3 | .senseDead => 4
  | .driverFault => 5 | .shortCircuit => 6 | .operator => 7

/-- A phase is disabled (R194): N drops at once, the group re-interleaves over the others, the droop check
is due in every case, event 0x5010 and DEGRADED; with N at 0 the group is OFF at once with event 0x5005, an OFF group too (R186). -/
def State.disableNow (s : State) (p : Fin 64) (cause : PhCause) : State :=
  let was := (s.ph p).active
  let s := (s.haltPh p).updPh p fun x => { x with active := false, disabled := true, cause := cause
                                                  disableReq := .none }
  let s := (s.ev 0x5010 p.val cause.code).degrade
  match s.phaseGroup p.val with
  | none => s
  | some g =>
    let s := (s.offWindowCheck g s.tickStart).updGrp g fun x => { x with droopDue := x.droopDue ++ [s.sys.tick + 10] }
    if was && s.nAct g = 0 then
      ((s.groupOff g).updGrp g fun x => { x with offAtZero := true }).ev 0x5005 (grpInst g.val)
    else if (s.grp g).state = .off then s
    else s.reinterleave g

/-- A phase is to be disabled: at its next cycle boundary while its group has frames, else at once. A phase
that belongs to no group, or is disabled already, is left as it is. -/
def State.requestDisable (s : State) (p : Fin 64) (cause : PhCause) : State :=
  match s.phaseGroup p.val with
  | none => s
  | some g =>
    if (s.ph p).disabled then s
    else if (s.grp g).state.switching then
      s.updPh p fun x => if x.disableReq = .none then { x with disableReq := cause } else x
    else s.disableNow p cause

/-- The phases of the active configuration join N of their groups: those not disabled (R171, R196). A phase that joins
another group starts with a trim of 0 (R178). -/
def State.phasesActivate (s : State) : State :=
  (List.finRange 64).foldl (fun s p =>
    let g := s.phaseGroup p.val
    if g.isSome then
      s.updPh p fun x => { x with active := !x.disabled && !x.joining, inGroup := g
                                  trim := if x.inGroup = g then x.trim else 0 }
    else s.updPh p fun _ => {}) s

/-- The cause of a disable has cleared (R196): the live sense-open bit is clear, the channel is not DEAD
and GDRV_FLT is high. -/
def State.causeCleared (s : State) (p : Fin 64) : Bool :=
  !s.afe.senseOpen[p.val] && !(s.afe.ch[p.val]?.map Channel.dead).getD false && !(s.ph p).fltLow

/-- A group passes to Basalt (R186, R413): every state but STOPPING, and OFF only with a phase left to switch, a string
that is not isolated and no coolant shutdown (log entry 72). Its frames start at Basalt's first update. -/
def State.giveBasalt (s : State) (g : Fin 4) : State :=
  let gr := s.grp g
  let mayStart : Bool := gr.state = .off && s.nAct g != 0 && !s.prot.str[g.val].isolated && !s.prot.coolShutdown
  if gr.state = .softStart || gr.state = .running || gr.state = .fastPath || mayStart then
    let ipk := ((s.actives g).head?.map fun p => s.iPkNow p).getD 0
    let s := ((s.members g.val).foldl State.stopCycle s).fastEnd g
    let s := (s.dropDe g).updGrp g fun x => { x with state := .basalt, framing := false, offAtZero := false }
    let s := if mayStart then s.setGdrv g true else s
    { s with prot := { s.prot with basaltIpk := updV s.prot.basaltIpk g fun _ => ipk } }
  else s

/-- Re-admission of a phase (R196): in a group with frames it joins under R180; in a group that is OFF it counts in N
at once, and in RUN a group whose N fell to 0 restarts (R186), where its string is not isolated and the bus is within
range; one handed to Basalt restarts with Basalt (R156). Its trim is 0 (R178). -/
def State.readmit (s : State) (p : Fin 64) : State :=
  match s.phaseGroup p.val with
  | none => s
  | some g =>
    if !(s.ph p).disabled || !s.causeCleared p then s
    else
      let s := s.updPh p fun x => { x with disabled := false, cause := .none, trim := 0 }
      if (s.grp g).state.switching then
        ((s.updPh p fun x => { x with joining := true }).reinterleave g).ev 0x5011 p.val
      else
        let s := (s.updPh p fun x => { x with active := true }).ev 0x5011 p.val
        if s.sys.state = .run && s.loop.basaltGroups[g.val] then s.giveBasalt g
        else if s.sys.state = .run && (s.grp g).offAtZero && !s.prot.str[g.val].isolated && s.busInRange g
            && !s.prot.coolShutdown then
          let s := match s.currentSlot g.val with
            | some i => { s with loop := { s.loop with slot := updN s.loop.slot i fun x =>
                { x with sec := Vector.replicate 16 {} } } }
            | none => s
          s.startGroup g
        else s

/-- Bus-side droop beyond DROOP_V below v_target (R194), mV. -/
def State.droops (s : State) (g : Fin 4) : Bool :=
  (s.grp g).vBus + 5000 * (s.grp g).faultNow.droopV < (s.grp g).vTarget

/-- The group requests THROTTLE with event 0x5042 (R192, R194): cause 1 UV_FASTPATH, or else 2 PHASE_LOSS. -/
def State.requestThrottle (s : State) (g : Fin 4) (uv : Bool) : State :=
  ((s.updGrp g fun x => if uv then { x with uvReq := true } else { x with lossReq := true }).ev 0x5042
    (grpInst g.val)).throttleAllPorts (if uv then 0 else 1)

/-! Comparators (R173, R187) and gates (R193). -/

/-- The FEEDBACK route of a phase into its group's CURRENT slot (R171). -/
def State.phaseRoute (s : State) (p : Fin 64) : Option Rec :=
  match s.phaseGroup p.val with
  | none => none
  | some g =>
    match s.currentSlot g.val with
    | none => none
    | some i => (s.routes i 0).find? fun r => r.u16 0x08 = p.val

/-- DAC code of a current: the inverse of the phase's route, 1 mV a code (R173). -/
def State.codeOf (s : State) (p : Fin 64) (i : Int) : Int :=
  match s.phaseRoute p with
  | none => 0
  | some r =>
    let sc := r.s32 0x0C
    let num := i * 2 ^ r.u8 0x10
    let den := sc * 2 ^ 20
    clampI (-2048) 2047 (divHE (if den < 0 then -num else num) den.natAbs)

/-- Threshold of the peak comparator n updates of 10 ns after the first switch turned on (R173): it falls
(rises in CHARGE) by the slope and never crosses the code of PEAK_LIMIT. -/
def State.threshold (s : State) (p : Fin 64) (n : Nat) : Int :=
  let i := (s.ph p).iPkCycle
  let slope := divHE ((s.slopeDac p.val * n : Nat) : Int) 16
  let lo := min (s.codeOf p (s.peakLimit p.val)) (s.codeOf p (-(s.peakLimit p.val)))
  let hi := max (s.codeOf p (s.peakLimit p.val)) (s.codeOf p (-(s.peakLimit p.val)))
  clampI lo hi (if 0 ≤ i then s.codeOf p i - slope else s.codeOf p i + slope)

/-- Code of the short-circuit comparator: 1.5 times PEAK_LIMIT, rounded towards zero (R187). -/
def State.scCode (s : State) (p : Fin 64) : Int :=
  match s.phaseRoute p with
  | none => 0
  | some r => clampI (-2048) 2047
      (divTZ (3 * s.peakLimit p.val * 2 ^ r.u8 0x10) (2 * r.s32 0x0C * 2 ^ 20))

/-- The rank of R193 that claims a phase's gates. A driver fault claims them until the phase is disabled; the peak
limit claims them from the comparator's turn-off to the end of the cycle. -/
def State.gateRank (s : State) (p : Fin 64) : Nat :=
  match s.phaseGroup p.val with
  | none => 1
  | some g =>
    if !s.sys.gdrvEn[g.val] then 1
    else if (s.ph p).disabled then 2
    else if (s.ph p).fltLow || (s.ph p).disableReq = .driverFault then 3
    else if (s.ph p).sitOut != 0 then 4
    else if (s.ph p).cyc.any fun c => c.offAt.isSome && !c.forced then 5
    else if (s.grp g).state = .fastPath then 6
    else 7

/-- Both switches of the phase are off: one of the first four ranks claims its gates. -/
def State.gatesOff (s : State) (p : Fin 64) : Bool := s.gateRank p ≤ 4

/-! One switching cycle (R172 to R174). Instants are in 25 ps units from reset. -/

/-- Sense codes rise with the current, or fall where the route's SCALE is negative (R173). -/
def State.senseSign (s : State) (p : Fin 64) : Int :=
  if ((s.phaseRoute p).map fun r => r.s32 0x0C).getD 1 < 0 then -1 else 1

/-- The peak comparator acts on a code at an instant of a cycle whose first switch turned on at `on_` (R172, R173). -/
def State.comparatorActs (s : State) (p : Fin 64) (on_ t : Nat) (code : Int) : Bool :=
  let k := s.senseSign p
  let th := s.threshold p ((t - on_) / 400)
  match (s.ph p).mode with
  | .discharge => k * th ≤ k * code
  | .charge => k * code ≤ k * th

/-- The first switch turns off; the second one turns on DEADTIME_NS later (R172). A cycle that the comparator ended
ends a run of PHASE_OPEN (R194). -/
def Phase.firstOff (x : Phase) (t dead : Nat) (forced : Bool) : Phase :=
  { x with cyc := x.cyc.map fun c => { c with offAt := some t, forced := forced }
           edges := (t + dead) :: t :: x.edges
           maxDuty := if forced then bump 16 x.maxDuty else x.maxDuty
           openAt := if forced then some (t, x.iPkCycle.natAbs) else x.openAt
           openRun := if forced then x.openRun else 0 }

/-- The first switch of the present cycle before an instant (R172): the comparator, ignored for 80 ns, turns it off at
the first code that reaches the threshold, or else MAX_DUTY of the period does. -/
def State.firstSwitch (s : State) (p : Fin 64) (upto : Nat) (l : List (Nat × Int)) : State :=
  match s.phaseGroup p.val, (s.ph p).cyc with
  | some g, some c =>
    if c.offAt.isSome then s
    else
      let last := c.onAt + divHEN ((s.grp g).period * s.maxDuty g.val) 100
      match l.find? fun v => c.onAt + 3200 ≤ v.1 && v.1 ≤ last && v.1 < upto && s.comparatorActs p c.onAt v.1 v.2 with
      | some v => s.updPh p fun x => x.firstOff v.1 (s.deadOf p) false
      | none => if last < upto then s.updPh p fun x => x.firstOff last (s.deadOf p) true else s
  | _, _ => s

/-- The second switch in diode emulation (R174): it turns off as the current reaches zero. The fast path suspends
this. -/
def State.secondSwitch (s : State) (p : Fin 64) (upto : Nat) (l : List (Nat × Int)) : State :=
  match s.phaseGroup p.val, (s.ph p).cyc with
  | some g, some c =>
    if !(s.grp g).de || (s.grp g).state = .fastPath || c.zeroAt.isSome then s
    else
      match c.offAt with
      | none => s
      | some off =>
        let k := s.senseSign p
        match l.find? fun v => off + s.deadOf p ≤ v.1 && v.1 < upto
            && (if (s.ph p).mode = .discharge then k * v.2 ≤ 0 else 0 ≤ k * v.2) with
        | some v => s.updPh p fun x =>
            { x with cyc := some { c with zeroAt := some v.1 }, edges := v.1 :: x.edges }
        | none => s
  | _, _ => s

/-- The present cycle ends with the turn-on at `on_` (R101, R172): the second switch has turned off DEADTIME_NS before,
and the midpoint of the period is known, rounded half-even to 25 ps (log entry 125). -/
def Phase.cycleEnds (x : Phase) (on_ dead : Nat) : Phase :=
  match x.cyc with
  | none => x
  | some c =>
    let l := if c.offAt.isSome && c.zeroAt.isNone then (on_ - dead) :: x.edges else x.edges
    { x with cyc := none, charge := x.mode = .charge, edges := l
             mids := match c.offAt with
               | some o => divHEN (o + on_) 2 :: x.mids
               | none => x.mids }

/-- The longest fast path: 20 us (R192). -/
def fastMax : Nat := 800000

/-- The turn-on instant `on_` of a phase (R172, R175, R187, R192): it takes i_pk, and the mode of its cycle is fixed.
A phase whose gates are held off, or that sits the cycle out, has none. -/
def State.cycleStart (s : State) (p : Fin 64) (held fast : Bool) (dead on_ : Nat) : State :=
  let pl := s.peakLimit p.val
  s.updPh p fun x =>
    let y := { x.cycleEnds on_ dead with sitOut := x.sitOut - 1 }
    if held || y.sitOut != 0 then y
    else
      let i := if fast then pl
        else if y.fpSteps != 0 then pl + divHE ((y.iPk - pl) * ((5 : Int) - y.fpSteps)) 4
        else y.iPk
      { y with iPkCycle := i, mode := if 0 ≤ i then .discharge else .charge
               cyc := some { onAt := on_ }, edges := on_ :: y.edges
               fpSteps := if fast then y.fpSteps else y.fpSteps - 1 }

/-- The cycles of a phase up to an instant, with the codes at its sense input (R172): each turn-on that falls due, and
what its switches do. A cycle of the fast path starts at most 20 us after the crossing (R192). -/
def State.cyclesTo (s : State) (p : Fin 64) (held : Bool) (fast : Nat → Bool) (dead upto : Nat) (l : List (Nat × Int)) :
    State :=
  let ready := (s.ph p).due.filter fun t => t < upto
  let s := ready.foldl (fun s t => ((s.firstSwitch p t l).secondSwitch p t l).cycleStart p held (fast t) dead t) s
  ((s.firstSwitch p upto l).secondSwitch p upto l).updPh p fun x =>
    { x with due := x.due.filter fun t => decide (upto ≤ t) }

/-- A run of cycles that has ended is judged with the codes of its tick: its edges and the midpoints reached before its end
enter the lists of the phase, and its maximum-duty cycles count (R100, R101, R172). -/
def State.replay (s : State) (l : List (Nat × Int)) (p : Fin 64) (r : CycleRun) : State :=
  let now := s.ph p
  let s := s.updPh p fun x =>
    { x with cyc := r.cyc, due := r.due, iPk := r.iPk, iPkCycle := r.iPkCycle, mode := r.mode, sitOut := r.sitOut }
  let s := s.cyclesTo p false (fun _ => r.fast) r.dead r.upto l
  let next := fun (c : Cycle) => r.next.getD (c.onAt + s.periodOf p)
  s.updPh p fun x =>
    { now with
      maxDuty := x.maxDuty
      edges := if x.cyc.isSome then r.upto :: x.edges.filter fun e => decide (e ≤ r.upto) else x.edges
      mids := match x.cyc with
        | some c => match c.offAt with
          | some o => if divHEN (o + next c) 2 ≤ r.upto then divHEN (o + next c) 2 :: x.mids else x.mids
          | none => x.mids
        | none => x.mids }

/-- The phase begins or ceases to switch (R100): with its group's frame, and with the end of its cycles. -/
def State.noteSwitch (s : State) (p : Fin 64) (on : Bool) (from_ : Nat) : State :=
  let last := ((s.ph p).sw.head?.map Prod.snd).getD false
  let start := match s.phaseGroup p.val with
    | some g => max from_ (s.grp g).frameStart
    | none => from_
  let stop := ((s.ph p).past.getLast?.map CycleRun.upto).getD from_
  if last = on then s
  else s.updPh p fun x => { x with sw := ((if on then start else stop, on) :: x.sw).take 8 }

/-- The cycles of a phase up to an instant: the runs that have ended since the last one, then those in progress. -/
def State.phaseTo (s : State) (p : Fin 64) (upto : Nat) (l : List (Nat × Int)) : State :=
  let s := (s.ph p).past.foldl (fun s r => s.replay l p r) s
  let s := s.updPh p fun x => { x with past := [] }
  let fast := fun (t : Nat) => (s.phaseGroup p.val).any fun g =>
    (s.grp g).state = .fastPath && decide (t < (s.grp g).fpAt + fastMax)
  s.cyclesTo p (s.gateRank p ≤ 3) fast (s.deadOf p) upto l

/-- The turn-on a phase is heading for: the one scheduled, or else a period after the last (R179). -/
def State.nextOn (s : State) (p : Fin 64) : Option Nat :=
  match (s.ph p).due.head?, (s.ph p).cyc with
  | some t, _ => some t
  | none, some c => some (c.onAt + s.periodOf p)
  | none, none => none

/-- PWM_LO and PWM_HI of a phase at an instant of its present cycle (R172). -/
def State.pwmPins (s : State) (p : Fin 64) (t : Nat) : Bool × Bool :=
  match (s.ph p).cyc with
  | none => (false, false)
  | some c =>
    let off := c.offAt.getD (t + 1)
    let next := (s.nextOn p).getD (t + 1)
    let first := !s.gatesOff p && c.onAt ≤ t && t < off
    let second := !s.gatesOff p && off + s.deadOf p ≤ t && t + s.deadOf p < next && !c.zeroAt.any fun z => z ≤ t
    match (s.ph p).mode with
    | .discharge => (first, second)
    | .charge => (second, first)

/-- The edges of a phase near the present tick: those that have been, and those of its next turn-on (R100). -/
def State.edgesNear (s : State) (p : Fin 64) : List Nat :=
  match s.nextOn p with
  | some t => t :: (t - s.deadOf p) :: (s.ph p).edges
  | none => (s.ph p).edges

/-- The midpoints of a phase near the present tick (R101). -/
def State.midsNear (s : State) (p : Fin 64) : List Nat :=
  match s.nextOn p, ((s.ph p).cyc.bind Cycle.offAt) with
  | some t, some o => divHEN (o + t) 2 :: (s.ph p).mids
  | _, _ => (s.ph p).mids

/-- An instant enters an ascending list, once. -/
def insertAsc (t : Nat) : List Nat → List Nat
  | [] => [t]
  | x :: l => if t < x then t :: x :: l else if t = x then x :: l else x :: insertAsc t l

/-- How long edges are kept: longer than the longest period and a tick window (R99, R202). -/
def keepNs : Nat := 1000000

/-- The turn-on edges of a frame are scheduled (R179, R192): each active phase at its offset, all at the frame start on
the fast path. -/
def State.scheduleFrame (s : State) (g : Fin 4) (start : Nat) : State :=
  let on_ := fun (s : State) (p : Fin 64) => start + (if (s.grp g).state = .fastPath then 0 else (s.ph p).offset)
  let l := s.actives g
  let ons := l.foldl (fun l p => insertAsc (on_ s p) l) (s.grp g).ons
  (l.foldl (fun s p => s.updPh p fun x => { x with due := x.due ++ [on_ s p] }) s).updGrp g fun x => { x with ons := ons }

/-! PSU ports (R197 to R201). -/

/-- The ports in service (R200). -/
def State.inServicePorts (s : State) : List (Fin 16) :=
  (List.finRange 16).filter fun p => (s.psuPort p).inService

/-- Sum of RATING over the ports in service, W. -/
def State.psuCap (s : State) : Nat := (s.inServicePorts.map fun p => (s.psuRating p.val).getD 0).sum

/-- VSET of RUN (R199), mV. -/
def State.runVset (s : State) : Int := min (s.limit 4 + 10000) (s.limit 2 - 5000)

/-- ILIM and VSET of a port, formed at a tick start (R197, R199, R200). Outside RUN and BASALT the standing command; in
RUN the division of R200 once the first outputs have applied; in BASALT the last command held. -/
def State.psuCommand (s : State) (p : Fin 16) : Int × Nat :=
  let port := s.psuPort p
  let rating : Int := (s.psuRating p.val).getD 0
  let bs := s.pwm.busSet.toNat
  let standing := (divHE (rating * s.pwm.safePct * 10000) bs, bs)
  match s.sys.state with
  | .basalt => (port.nextIlim, port.nextVset)
  | .run =>
    match s.pwm.brickI with
    | none => standing
    | some i =>
      let sum := s.psuCap
      let il := if port.inService then
          clampI 0 (divHE (rating * 1000000) bs) (divHE (max i 0 * rating) sum)
        else 0
      (il, s.runVset.toNat)
  | _ => standing

/-- The commands of the ports as a tick starts: what the next frames carry (R197). A port lost since takes part in the
division until then (R201). -/
def State.psuCommands (s : State) : State :=
  (List.finRange 16).foldl (fun s p =>
    if (s.psuRating p.val).isNone then s
    else s.updPsu p fun x => { x with nextIlim := (s.psuCommand p).1, nextVset := (s.psuCommand p).2 }) s

/-- A port is lost (R201): ENABLE 0, out of the division, its power 0, event 0x5080. From the next tick the
profile falls by its last P_OUT (R350). -/
def State.losePort (s : State) (p : Fin 16) : State :=
  if (s.psuPort p).lost || !(s.psuPort p).inService then s
  else
    let pw := (s.psuPort p).p
    let s := s.updPsu p fun x => { x with lost := true, inService := false, enable := false, clean := false }
    (({ s with pwm := { s.pwm with lostPower := s.pwm.lostPower + pw, lostPort := true } }).ev 0x5080 (psuInst p.val)).degrade

/-- A lost port returns to service (R201). -/
def State.restorePort (s : State) (p : Fin 16) : State :=
  if (s.psuPort p).lost && (s.psuPort p).clean then
    (s.updPsu p fun x => { x with lost := false, inService := true, missing := 0, offFrames := 0 }).ev 0x5081
      (psuInst p.val)
  else s

/-- The ports the active configuration enables are in service, unless lost. -/
def State.psusActivate (s : State) : State :=
  (List.finRange 16).foldl (fun s p =>
    match s.psuRating p.val with
    | some _ => s.updPsu p fun x => { x with inService := !x.lost }
    | none => s.updPsu p fun _ => {}) s

/-- A telemetry frame is missing or does not count (R197, R201): the third in succession loses the port. -/
def State.psuMiss (s : State) (p : Fin 16) : State :=
  let s := s.updPsu p fun x => { x with missing := x.missing + 1, clean := false }
  if 3 ≤ (s.psuPort p).missing then s.losePort p else s

end Sys2Proof.Machine
end

