-- ==== Sys2Proof/Machine/AfeOps.lean ====
section
/-! DEFINITION. Operations of the measurement front end: correction and tick values (R97 to R104, R119),
the latch at a tick, failure and substitution of converters (R113 to R117). -/

namespace Sys2Proof.Machine

/-- A change of one channel, one chiplet, one shunt. -/
def State.updCh (s : State) (c : Nat) (f : Channel → Channel) : State :=
  { s with afe := { s.afe with ch := updN s.afe.ch c f } }
def State.updChip (s : State) (a : Nat) (f : Chiplet → Chiplet) : State :=
  { s with afe := { s.afe with chip := updN s.afe.chip a f } }
def State.updShunt (s : State) (i : Fin 4) (f : Shunt → Shunt) : State :=
  { s with afe := { s.afe with shunt := updV s.afe.shunt i f } }
/-- A channel and a chiplet by number. -/
def State.chan (s : State) (c : Nat) : Channel := s.afe.ch[c]?.getD {}
def State.chip (s : State) (a : Nat) : Chiplet := s.afe.chip[a]?.getD {}
def State.shunt (s : State) (i : Fin 4) : Shunt := s.afe.shunt[i.val]

/-- Resolution of a channel's converter in bits (R96). -/
def chBits (c : Nat) : Nat := if c < 64 then 16 else if c < 160 then 18 else 24

/-- A raw conversion corrected with offset and gain (R98). -/
def correct (bits : Nat) (raw ofs : Int) (gain : Nat) : Int :=
  sat32 (divHE ((raw * 2 ^ (32 - bits) - ofs) * gain) (2 ^ 30))

/-- The most negative or most positive code (R98). -/
def overRange (bits : Nat) (raw : Int) : Bool :=
  raw ≤ -(2 ^ (bits - 1) : Nat) || (2 ^ (bits - 1) : Nat) - 1 ≤ raw

/-- The spare covers a channel: during its slot from CALIBRATING to OVERLAP_OUT, or for good (R111, R114). -/
def Chiplet.covers (x : Chiplet) : Option Nat :=
  match x.subst with
  | some c => if x.substPending.isSome || x.spareFailed then none else some c
  | none => if x.step = .calibrating || x.step = .overlapOut then some x.chan else none

/-- A rotation slot is in progress (R111). -/
def RotStep.inSlot : RotStep → Bool
  | .paused | .stopped => false
  | _ => true

/-- AFE_CH_STATUS.SUBSTITUTED, which stays set where the spare fails later (log entry 56), and CAL_ACTIVE of a channel
(R126). -/
def State.substituted (s : State) (c : Nat) : Bool := c < 160 && (s.chip (chipOf c)).subst = some c
def State.calActive (s : State) (c : Nat) : Bool :=
  c < 160 && (s.chip (chipOf c)).subst.isNone && (s.chip (chipOf c)).covers = some c

/-- A corrected conversion: the spare applies its own coefficients (R111). -/
def State.corrected (s : State) (v : Conv) : Int :=
  if 160 ≤ v.ch then
    let sh := s.afe.shunt[v.ch - 160]?.getD {}
    if sh.activeB then correct 24 v.raw sh.ofsB sh.gainB else correct 24 v.raw sh.ofsA sh.gainA
  else
    let x := s.chip (chipOf v.ch)
    if v.spare then correct (chBits v.ch) v.raw x.spareOfs x.spareGain
    else correct (chBits v.ch) v.raw (s.chan v.ch).calOfs (s.chan v.ch).calGain

/-- A phase switches: its group has frames and nothing holds its gates off (R100). -/
def State.phaseSwitches (s : State) (p : Nat) : Bool :=
  if h : p < 64 then
    match s.phaseGroup p with
    | none => false
    | some g => (s.grp g).state.switching && (s.ph ⟨p, h⟩).active && !s.gatesOff ⟨p, h⟩
  else false

/-! Apertures (R99 to R102). Instants are in 25 ps units from reset. -/

/-- The window the present tick latches opens 2,200 ns before the tick. -/
def State.windowStart (s : State) : Int := 80000 * s.sys.tick - 88000

/-- The aperture of a conversion. -/
def State.aperture (s : State) (v : Conv) : Int := s.windowStart + v.aperture

/-- A conversion lies within a blanking interval around an edge of its phase (R100), whether or not the phase still
switches. -/
def State.blanked (s : State) (v : Conv) : Bool :=
  if h : v.ch < 64 then
    (s.edgesNear ⟨v.ch, h⟩).any fun e => (e : Int) - 40 * s.afe.preNs ≤ s.aperture v
      && s.aperture v ≤ e + 40 * s.afe.postNs
  else false

/-- A phase switched at an instant (R100). -/
def Phase.switchedAt (x : Phase) (t : Int) : Bool := ((x.sw.find? fun e => (e.1 : Int) ≤ t).map Prod.snd).getD false

/-- An aperture stands on the grid of 100 ns from the start of the window (R100). -/
def onWindowGrid (v : Conv) : Bool := decide (v.aperture % 4000 = 0)

/-- An aperture stands on the nominal grid of 100 ns (R100): aligned to the frame it lies in while the phase switches, and
else to the start of the window. -/
def State.onGrid (s : State) (v : Conv) : Bool :=
  match s.phaseGroup v.ch with
  | none => onWindowGrid v
  | some g =>
    match (s.grp g).frames.find? fun f => (f.1 : Int) ≤ s.aperture v with
    | some f =>
      if ((s.pwm.ph[v.ch]?).map fun x => x.switchedAt (s.aperture v)).getD false then
        decide ((s.aperture v - f.1) % 4000 = 0)
      else onWindowGrid v
    | none => onWindowGrid v

/-- An aperture stands at a midpoint of MID mode (R101). -/
def State.onMid (s : State) (v : Conv) : Bool :=
  if h : v.ch < 64 then (s.midsNear ⟨v.ch, h⟩).any fun m => (m : Int) = s.aperture v else false

/-- The turn-on edges of a group that are scheduled: those of its frames, and those a further frame will have (R102). -/
def State.turnOns (s : State) (g : Fin 4) : List Nat :=
  let gr := s.grp g
  (s.actives g).foldl (fun l p => insertAsc (gr.frameStart + gr.period + (s.ph p).offset) l) gr.ons

/-- The midpoints between consecutive turn-on edges of a group, rounded half-even to 25 ps (log entry 125). -/
def State.turnOnMids (s : State) (g : Fin 4) : List Int :=
  let l := s.turnOns g
  (l.zip l.tail).map fun e => divHE ((e.1 : Int) + e.2) 2

/-- The two apertures of an auxiliary channel, 25 ps units after the start of the window (R102): the first midpoint of its
reference group in each interval, or the nominal instant. -/
def State.auxApertures (s : State) (c : Nat) : Int × Int :=
  let mids := match (List.finRange 4).find? fun g => g.val = s.chRef c with
    | some g => if (s.grp g).framing && s.nAct g != 0 then (s.turnOnMids g).map fun m => m - s.windowStart else []
    | none => []
  ((mids.find? fun m => decide (20000 ≤ m ∧ m < 60000)).getD 20000,
    (mids.find? fun m => decide (60000 ≤ m ∧ m < 80000)).getD 60000)

/-- The conversions of a channel's tick window that come from the converter its consumers take (R111,
R114): no window mixes two sources (R99). -/
def State.windowOf (s : State) (convs : List Conv) (c : Nat) : List Conv :=
  let sp := c < 160 && (s.chip (chipOf c)).covered = some c
  convs.filter fun v => v.ch = c && v.spare == sp

/-- The same once the latch has been taken, for the capture ring (R118). -/
def State.latchedOf (s : State) (convs : List Conv) (c : Nat) : List Conv :=
  let sp := c < 160 && (s.chip (chipOf c)).latched = some c
  convs.filter fun v => v.ch = c && v.spare == sp

/-- MID mode is in force: the phase switches (R101). -/
def State.inMid (s : State) (c : Nat) : Bool := s.chMode c = 1 && s.phaseSwitches c

/-- The conversions of a phase channel's window that count (R100, R101): at the midpoints in MID mode, else on the grid
and outside every blanking interval. In MID mode a phase that does not switch falls back to the grid of the window. -/
def State.kept (s : State) (convs : List Conv) (c : Nat) : List Conv :=
  (s.windowOf convs c).filter fun v =>
    if s.inMid c then s.onMid v
    else (if s.chMode c = 1 then onWindowGrid v else s.onGrid v) && !s.blanked v

/-- The value of a phase, auxiliary or shunt channel at the latch: none where VALID is 0; with the last
MID conversion after it (R100 to R103). An auxiliary value needs the conversions at its apertures: both, or in LATEST
mode the second (DEDUCED, log entry 64). -/
def State.tickValue (s : State) (convs : List Conv) (c : Nat) : Option Int × Option Int :=
  let x := s.chan c
  let w := s.windowOf convs c
  let sp := c < 160 && (s.chip (chipOf c)).covered = some c
  if x.dead || (x.adcFailed && !sp) then (none, x.lastMid)
  else if isPhaseCh c then
    let l := (s.kept convs c).map s.corrected
    if s.inMid c then
      let m := (l.getLast?).orElse fun _ => x.lastMid
      (m, m)
    else (if l.isEmpty then none else some (meanHE l), x.lastMid)
  else if isAuxCh c then
    let a := s.auxApertures c
    let at_ := fun (t : Int) => (w.find? fun v => (v.aperture : Int) = t).map s.corrected
    match at_ a.1, at_ a.2 with
    | some u, some v => (some (if s.chMode c = 1 then v else meanHE [u, v]), x.lastMid)
    | none, some v => (if s.chMode c = 1 then some v else none, x.lastMid)
    | _, none => (none, x.lastMid)
  else if (s.afe.shunt[c - 160]?.map Shunt.dead).getD true || !s.afe.bootCalDone then (none, x.lastMid)
  else ((w.getLast?).map s.corrected, x.lastMid)

/-- A conversion as a current of its phase, mA (R137). -/
def State.currentOf (s : State) (p : Fin 64) (v : Int) : Int :=
  match s.phaseRoute p with
  | some r => r.routeValue v
  | none => 0

/-- The maximum-duty cycle of a phase that waits for it is judged once its conversion is there (R194): in AVG mode the last
one that counts before the turn-off, in MID mode the one of that period. Below OPEN_PCT of |i_pk|, and with |i_pk| at
least 10 % of PEAK_LIMIT, it adds to the run, and else ends it. -/
def State.judgeOpen (s : State) (convs : List Conv) (p : Fin 64) : State :=
  match (s.ph p).openAt, s.phaseGroup p.val with
  | some (o, ipk), some g =>
    let l := s.kept convs p.val
    let closed : Int := 80000 * s.sys.tick - 8000
    let (ready, v) :=
      if s.inMid p.val then
        let m := (l.find? fun v => (o : Int) < s.aperture v).map s.corrected
        (m.isSome || decide ((o + (s.grp g).period : Nat) < closed), m)
      else
        (decide ((o : Int) < closed), (((l.filter fun v => s.aperture v < o).getLast?).map s.corrected).orElse
          fun _ => (s.chan p.val).lastConv)
    if !ready then s
    else
      let low := match v with
        | some v => decide (100 * (s.currentOf p v).natAbs < (s.grp g).faultNow.openPct * ipk)
        | none => false
      s.updPh p fun x =>
        { x with openAt := none
                 openRun := if low && decide (s.peakLimit p.val ≤ 10 * ipk) then x.openRun + 1 else 0 }
  | _, _ => s

/-- One channel latches its tick value (R97, R99, R119). -/
def State.latchChannel (s : State) (convs : List Conv) (c : Nat) : State :=
  if !s.chEn c then s.updCh c fun x => { x with valid := false, ovr := false }
  else
    let (v, mid) := s.tickValue convs c
    let ovr := (s.windowOf convs c).any fun w => overRange (chBits c) w.raw
    let last := if isPhaseCh c then ((s.kept convs c).map s.corrected).getLast? else none
    let s := if h : c < 64 then s.judgeOpen convs ⟨c, h⟩ else s
    let s' := s.updCh c fun x =>
      { x with value := v.getD x.value, valid := v.isSome, ovr := ovr, ovrLatch := x.ovrLatch || ovr
               lastMid := mid, lastConv := last.orElse fun _ => x.lastConv }
    if ovr then s'.ev 0x3030 c else s'

/-- A shunt reports the current of a corrected value and adds its charge (R103, R104). A charge is rounded half-even to its
16 fractional bits, and the accumulator wraps at 80 bits (DESIGN CHOICE, log entry 91). -/
def State.shuntAdd (s : State) (i : Fin 4) (v : Int) : State :=
  let fs : Int := s.shuntFs i.val
  let sgn : Int := if s.shuntInv i.val then -1 else 1
  s.updShunt i fun x =>
    { x with i := sgn * divHE (v * fs) (2 ^ 31)
             qFrac := ofCode 80 (codeS 80 (x.qFrac + sgn * divHE (v * fs * 2 * 2 ^ 16) (2 ^ 31))) }

/-- One shunt adds the charge of its window and reports its current (R103, R104); its modulators exchange
roles at the window boundary where that is due (R105). -/
def State.latchShunt (s : State) (i : Fin 4) : State :=
  let c := s.chan (160 + i.val)
  let s := if c.valid && s.chEn (160 + i.val) then s.shuntAdd i c.value else s
  s.updShunt i fun x =>
    if x.exchangeDue then
      { x with activeB := !x.activeB, exchanges := bump 16 x.exchanges, exchangeDue := false }
    else x

/-- The latch of a tick (R99): every channel, then every shunt; then the windows that open now follow the
sources in force. -/
def State.afeLatch (s : State) (convs : List Conv) : State :=
  let s := (List.range 164).foldl (fun s c => s.latchChannel convs c) s
  let s := (List.finRange 4).foldl State.latchShunt s
  { s with afe := { s.afe with chip := mapV s.afe.chip fun _ x => { x with covered := x.covers, latched := x.covered } } }

/-- AFE_SHUNT_Q: the fraction removed towards minus infinity (R103). -/
def Shunt.q (x : Shunt) : Int := Int.fdiv x.qFrac (2 ^ 16)

/-! Failure (R113 to R117). -/

/-- A channel ADC enters the failure map, stored and of this boot (R117). -/
def State.mapFail (s : State) (c : Nat) : State :=
  let add := fun (l : List Nat) => if l.contains c then l else l ++ [c]
  { s with afe := { s.afe with failMap := add s.afe.failMap, failMapStored := add s.afe.failMapStored } }

/-- A channel is DEAD (R115): a phase channel's phase is disabled with cause SENSE_DEAD. -/
def State.channelDead (s : State) (c : Nat) : State :=
  let s := ((s.updCh c fun x => { x with dead := true }).ev 0x3013 c).degrade
  if h : c < 64 then s.requestDisable ⟨c, h⟩ .senseDead else s

/-- Rotation on a chiplet stops for good (R112, R114). -/
def Chiplet.stopRotation (x : Chiplet) : Chiplet := { x with step := .stopped, rotStopped := true }

/-- A channel ADC fails a check (R113 to R115): the spare takes it where it is still free, and rotation
stops; else the channel is DEAD. Of two channels that ask for it in the same tick the lower takes it (R72). Covering it
already, the spare simply stays, and no latch goes without a value. SUBSTITUTED, ASSIGNED and SPARE_IN_USE set at the failure
(log entry 66). -/
def State.channelFail (s : State) (c cause : Nat) : State :=
  let a := chipOf c
  let x := s.chip a
  if c ≥ 160 || (s.chan c).adcFailed then s
  else
    let s := ((s.updCh c fun y => { y with adcFailed := true, failCause := cause, newCoef := none }).ev 0x3011 c
      cause).mapFail c
    let rival := x.substPending.filter fun r => c < r && x.substTick = s.sys.tick
    if let some r := rival then
      (s.updChip a fun y => { y with subst := some c, substPending := some c }).channelDead r
    else if x.subst.isSome || x.spareFailed then s.channelDead c
    else
      let self := x.covers = some c
      let slot := x.step.inSlot
      let s := (s.updChip a fun y =>
        { y.stopRotation with subst := some c, substPending := if self then none else some c
                              substTick := s.sys.tick
                              covered := if self then some c else y.covered
                              displaced := y.displaced || slot }).degrade
      let s := if slot then s.displace 1 a 1 4 else s
      if self then s.ev 0x3012 c else s

/-- At boot a mapped channel is substituted or declared DEAD without a retest, and nothing consumes it yet
(R117). It has no cause and no new coefficients (log entry 98). -/
def State.bootMapped (s : State) (c : Nat) : State :=
  let a := chipOf c
  let x := s.chip a
  if c ≥ 160 || (s.chan c).adcFailed then s
  else
    let s := s.updCh c fun y => { y with adcFailed := true }
    if x.subst.isSome || x.spareFailed then s.channelDead c
    else ((s.updChip a fun y => { y.stopRotation with subst := some c, covered := some c }).degrade).ev 0x3012 c

/-- A spare fails (R116): rotation stops for good, and a channel it had replaced is DEAD. -/
def State.spareFail (s : State) (a : Nat) : State :=
  if (s.chip a).spareFailed then s
  else
    let subst := (s.chip a).subst
    let s := (s.updChip a fun x => { x.stopRotation with spareFailed := true, substPending := none }).ev 0x3014 a
    match subst with
    | some c => s.channelDead c
    | none => s

/-- The check of a calibration (R113): the cause code it fails with, if any; of several the offset's before the gain's before the
linearity's (log entry 24). -/
def State.calCheck (s : State) (r : CalResult) : Option Nat :=
  if s.afe.ofsLimit * 2 ^ 31 < 1000 * r.ofs.natAbs then some 2
  else if s.afe.gainLimit * 2 ^ 30 < 1000 * ((r.gain : Int) - 2 ^ 30).natAbs then some 3
  else if 5 * 2 ^ 31 < 10000 * r.lin then some 4
  else none

/-- Two means differ by more than MISMATCH (R113). -/
def State.mismatches (s : State) (own spare : Int) : Bool :=
  s.afe.mismatch * 2 ^ 31 < 10000 * (own - spare).natAbs

/-- The comparison of an overlap (R113): a first mismatch records event 0x3010; a failed repeat of the
self-check fails the spare; a second mismatch fails the channel. -/
def State.overlapCheck (s : State) (a : Nat) (m : OverlapMeans) : State :=
  if s.mismatches m.own m.spare then
    let s := s.ev 0x3010 (s.chip a).chan
    if !m.recheck then s.spareFail a
    else if s.mismatches m.own2 m.spare2 then s.channelFail (s.chip a).chan 5
    else s
  else s

/-- Rotation runs in these states, after boot calibration (R109, R112). -/
def State.rotationRuns (s : State) (a : Nat) : Bool :=
  s.afe.bootCalDone && s.inState [.standby, .armed, .run, .basalt] && (s.chip a).step != .stopped

/-- The slot of a chiplet has lasted a number of ticks (R111). -/
def State.slotFor (s : State) (a d : Nat) : Bool := s.elapsed (s.chip a).slotTick d

/-- Rotation stops at entry into SHIP_PREP (R112): the slot in progress is abandoned, and a covered channel
returns to its own ADC with the coefficients it had. -/
def State.rotationShip (s : State) : State :=
  { s with afe := { s.afe with
      chip := mapV s.afe.chip fun _ x => { x with step := .stopped }
      ch := mapV s.afe.ch fun _ x => { x with newCoef := none } } }

/-- A phase channel whose phase belongs to a group (R108, R125). -/
def State.senseBias (s : State) (p : Nat) : Bool := (s.phaseGroup p).isSome

/-- The spare takes the failed channel it waits for (R114). -/
def State.takeSpare (s : State) (a : Nat) : State :=
  match (s.chip a).substPending with
  | some c => (s.updChip a fun x => { x with substPending := none }).ev 0x3012 c
  | none => s

/-- PERIODS of sense-open detection in force: 0 counts as 1 and more than 3 as 3 (R123). -/
def State.sensePeriods (s : State) : Nat := max 1 (min 3 s.afe.sensePeriods)

/-- The sense line of a phase is declared open (R108). -/
def State.senseOpened (s : State) (p : Fin 64) : State :=
  if !s.senseBias p.val || !s.chEn p.val || s.afe.senseOpen[p.val] then s
  else
    let a := s.afe
    let a' := { a with senseOpen := updV a.senseOpen p fun _ => true
                       senseLatch := updV a.senseLatch p fun _ => true }
    (({ s with afe := a' }).ev 0x3020 p.val).requestDisable p .senseOpen

end Sys2Proof.Machine
end

