-- ==== Sys2Proof/Machine/Afe.lean ====
section
/-! DEFINITION. Meanings of the measurement commands (04_measurement.md). -/

namespace Sys2Proof.Machine

/-- Coefficients a boot calibration writes; a channel that fails a check of R113 is replaced at once, with no gap (R109).
The failure map is that of this boot (R117). -/
def State.bootChannel (s : State) (cal : BootCal) (c : Nat) : State :=
  let r := (cal.channels.find? fun r => r.ch = c).getD { ch := c, ofs := 0, gain := 2 ^ 30, lin := 0 }
  if s.afe.failMap.contains c then s
  else
    let s := s.updCh c fun x => { x with calOfs := r.ofs, calGain := r.gain, calTick := s.sys.tick }
    match s.calCheck r with
    | some cause =>
      ((s.channelFail c cause).takeSpare (chipOf c)).updChip (chipOf c) fun x =>
        { x with covered := if x.subst = some c then some c else x.covered }
    | none => s

/-- The modulators of a shunt after boot calibration (R109, R19): A is active where it passes, the accumulator counts from zero
over the windows since, and a modulator that fails is retired as R105 retires one (DEDUCED, log entry 136). -/
def State.bootShunt (s : State) (cal : BootCal) (i : Fin 4) : State :=
  let r := (cal.shunts.find? fun r => r.shunt = i.val).getD
    { shunt := i.val, ofsA := 0, gainA := 2 ^ 30, ofsB := 0, gainB := 2 ^ 30, okA := true, okB := true, windows := [] }
  let b := !r.okA && r.okB
  let s := s.updShunt i fun x =>
    { x with ofsA := r.ofsA, gainA := r.gainA, ofsB := r.ofsB, gainB := r.gainB, aFailed := !r.okA, bFailed := !r.okB
             dead := !r.okA && !r.okB, degraded := false, activeB := b, qFrac := 0, calTick := s.sys.tick }
  if !r.okA && !r.okB then (s.degrade).ev 0x3042 (160 + i.val)
  else
    let s := if s.chEn (160 + i.val) then r.windows.foldl (fun s w =>
      s.shuntAdd i (if b then correct 24 w r.ofsB r.gainB else correct 24 w r.ofsA r.gainA)) s else s
    if r.okA && r.okB then s else (s.degrade).ev 0x3040 (160 + i.val)

/-- The check of R106 at boot: a line is open where its amplitude lies above THRESH_MV for PERIODS chop periods (R109). -/
def State.bootSense (s : State) (x : Fin 64 × Nat × Nat) : State :=
  if s.afe.senseThresh < x.2.1 && s.sensePeriods ≤ x.2.2 then s.senseOpened x.1 else s

/-- BOOT_CAL_DONE (R109, R113, R117): coefficients are written, failing channels replaced, shunt
modulators calibrated and the accumulators begun, sense lines checked, the stored failure
map of this boot applied, and rotation starts on every chiplet that still has a spare; in SHIP_PREP it stays stopped
(R112). A channel that fails now takes the spare before one of the map (log entry 117). -/
def execBootCalDone (cal : BootCal) (s : State) : Host.Outcome State Fault Refusal :=
  if s.afe.bootCalDone || !s.cfg.activeValid then .next s
  else
    let map := s.afe.failMap
    let s := (List.range 4).foldl (fun s a =>
      match cal.spares.find? fun r => r.ch = a with
      | some r => s.updChip a fun x => { x with spareOfs := r.ofs, spareGain := r.gain }
      | none => s.updChip a fun x => { x with spareOfs := 0, spareGain := 2 ^ 30 }) s
    let s := (List.range 160).foldl (fun s c => s.bootChannel cal c) s
    let s := (List.finRange 4).foldl (fun s i => s.bootShunt cal i) s
    let s := cal.senses.foldl State.bootSense s
    let s := map.foldl State.bootMapped s
    let ship := decide (s.sys.state = .shipPrep)
    let s := (List.range 4).foldl (fun s a => s.updChip a fun x =>
      if x.rotStopped || x.spareFailed || ship then x
      else { x with step := .selfCheck, chan := 16 * a, slotTick := s.sys.tick }) s
    .next (({ s with afe := { s.afe with bootCalDone := true } }).ev 0x3001)

/-- The channel after c on a chiplet, ascending and around (R111). -/
def nextChannel (a c : Nat) : Nat :=
  if c = 16 * a + 15 then 64 + 24 * a
  else if c = 64 + 24 * a + 23 then 16 * a
  else c + 1

/-- SELF_CHECK (R111, R112, R116): the next slot begins, or rotation pauses where ROT_EN is 0; the spare
checks itself, and a second failure in succession fails it. A slot lasts 40 ms. The slot that boot calibration opened is
judged by the first of these commands. -/
def execSelfCheck (a : Fin 4) (ok : Bool) (s : State) : Host.Outcome State Fault Refusal :=
  if !s.rotationRuns a.val || ((s.chip a.val).step = .settle && !s.slotFor a.val 20000) then .next s
  else
    let x := s.chip a.val
    if x.step = .settle && !x.rotEn then
      .next (s.updChip a.val fun x => { x with
        step := .paused
        rotations := if x.chan = 64 + 24 * a.val + 23 then bump 16 x.rotations else x.rotations })
    else if x.step = .paused && !x.rotEn then .next s
    else
      let s := if x.step = .settle || x.step = .paused then
          s.updChip a.val fun x => { x with
            step := .selfCheck, chan := nextChannel a.val x.chan, slotTick := s.sys.tick
            rotations := if x.step = .settle && x.chan = 64 + 24 * a.val + 23 then bump 16 x.rotations
              else x.rotations }
        else s
      if (s.chip a.val).step != .selfCheck then .next s
      else if ok then .next (s.updChip a.val fun x => { x with selfFails := 0 })
      else
        let s := s.updChip a.val fun x => { x with selfFails := x.selfFails + 1 }
        if 2 ≤ (s.chip a.val).selfFails then .next (s.spareFail a.val) else .next s

/-- OVERLAP_IN (R111, R113), 4 ms into the slot. -/
def execOverlapIn (a : Fin 4) (m : OverlapMeans) (s : State) : Host.Outcome State Fault Refusal :=
  if s.rotationRuns a.val && (s.chip a.val).step = .selfCheck && s.slotFor a.val 2000 then
    .next ((s.updChip a.val fun x => { x with step := .overlapIn }).overlapCheck a.val m)
  else .next s

/-- CALIBRATING (R111, R113), 6 ms into the slot: consumers take the channel from the spare; the channel's own ADC is
calibrated and judged. -/
def execCalibrating (a : Fin 4) (r : CalResult) (s : State) : Host.Outcome State Fault Refusal :=
  if s.rotationRuns a.val && (s.chip a.val).step = .overlapIn && s.slotFor a.val 3000 then
    let c := (s.chip a.val).chan
    let s := s.updChip a.val fun x => { x with step := .calibrating }
    match s.calCheck r with
    | some cause => .next (s.channelFail c cause)
    | none => .next (s.updCh c fun x => { x with newCoef := some (r.ofs, r.gain) })
  else .next s

/-- OVERLAP_OUT (R111, R113), 34 ms into the slot: the channel's ADC converts in parallel with its new coefficients. -/
def execOverlapOut (a : Fin 4) (m : OverlapMeans) (s : State) : Host.Outcome State Fault Refusal :=
  if s.rotationRuns a.val && (s.chip a.val).step = .calibrating && s.slotFor a.val 17000 then
    .next ((s.updChip a.val fun x => { x with step := .overlapOut }).overlapCheck a.val m)
  else .next s

/-- SETTLE (R111), 36 ms into the slot: consumers take the channel from its own ADC, and its new coefficients are written. -/
def execSettle (a : Fin 4) (s : State) : Host.Outcome State Fault Refusal :=
  if s.rotationRuns a.val && (s.chip a.val).step = .overlapOut && s.slotFor a.val 18000 then
    let c := (s.chip a.val).chan
    let t := s.sys.tick
    let s := s.updChip a.val fun x => { x with step := .settle }
    .next (s.updCh c fun x =>
      match x.newCoef with
      | some (o, g) => { x with calOfs := o, calGain := g, newCoef := none, calTick := t }
      | none => x)
  else .next s

/-- CHANNEL_FAILED (R113 to R115): causes 1 to 5. -/
def execChannelFailed (c : Fin 160) (cause : Fin 5) (s : State) : Host.Outcome State Fault Refusal :=
  .next (s.channelFail c.val (cause.val + 1))

/-- SPARE_SUBSTITUTED (R114): at the window boundary the spare takes the failed channel for good. -/
def execSpareSubstituted (a : Fin 4) (s : State) : Host.Outcome State Fault Refusal := .next (s.takeSpare a.val)

/-- SPARE_FAILED (R116): the spare misses two expected conversions. -/
def execSpareFailed (a : Fin 4) (s : State) : Host.Outcome State Fault Refusal := .next (s.spareFail a.val)

/-- ROT_EN (R112, R121): a paused rotation resumes with the next channel at its next slot. -/
def execRotEn (sess : Fin 64) (v : BitVec 4) (s : State) : Host.Outcome State Fault Refusal :=
  .next (s.regCmd sess .ox fun s => { s with afe := { s.afe with
    chip := mapV s.afe.chip fun a x => { x with rotEn := v.getLsbD a.val } } })

/-- The stored failure map is erased; the present boot is unchanged (R117). -/
def State.clearFailMap (s : State) : State :=
  ({ s with afe := { s.afe with failMapStored := [] } }).ev 0x3016

/-- FAILMAP_CLR (R117, R121). -/
def execFailmapClr (sess : Fin 64) (s : State) : Host.Outcome State Fault Refusal :=
  .next (s.regCmd sess .is_ State.clearFailMap)

/-- SHUNT_MOD_CALIBRATE (R105), every 10 s: the idle modulator is calibrated and converts in parallel. A channel that
runs on one modulator alone is not recalibrated. -/
def execShuntModCalibrate (i : Fin 4) (ofs : Int) (gain : Nat) (s : State) : Host.Outcome State Fault Refusal :=
  let x := s.shunt i
  if !s.afe.bootCalDone || x.dead || x.aFailed || x.bFailed || !s.elapsed x.calTick 5000000 then .next s
  else
    .next (s.updShunt i fun x =>
      if x.activeB then { x with ofsA := ofs, gainA := gain, comparing := true, calTick := s.sys.tick }
      else { x with ofsB := ofs, gainB := gain, comparing := true, calTick := s.sys.tick })

/-- SHUNT_MOD_COMPARE (R105), 1 s after the calibration: the charges over the second, nC, and the verdicts of the check against the
internal reference where they differ. Where the active modulator is retired, ACTIVE changes at once (log entry 137). -/
def execShuntModCompare (i : Fin 4) (qActive qIdle : Int) (okA okB : Bool) (s : State) :
    Host.Outcome State Fault Refusal :=
  let x := s.shunt i
  let c := 160 + i.val
  if !x.comparing || x.dead || !s.elapsed x.calTick 500000 then .next s
  else
    let s := s.updShunt i fun x => { x with comparing := false }
    if 1000 * (qActive - qIdle).natAbs ≤ s.shuntFs i.val * 1000000 then
      .next (s.updShunt i fun x => { x with exchangeDue := true })
    else
      match okA, okB with
      | true, true => .next (s.ev 0x3041 c)
      | false, true =>
        .next (((s.updShunt i fun x => { x with aFailed := true, activeB := true }).degrade).ev 0x3040 c)
      | true, false =>
        .next (((s.updShunt i fun x => { x with bFailed := true, activeB := false }).degrade).ev 0x3040 c)
      | false, false =>
        .next (((s.updShunt i fun x => { x with aFailed := true, bFailed := true, dead := true }).degrade).ev
          0x3042 c)

/-- SENSE_OPEN (R106, R108): an amplitude above THRESH_MV has lasted for PERIODS chop periods. -/
def execSenseOpen (p : Fin 64) (mv periods : Nat) (s : State) : Host.Outcome State Fault Refusal :=
  .next (if s.afe.senseThresh < mv && s.sensePeriods ≤ periods then s.senseOpened p else s)

/-- SENSE_RESTORED (R108): the amplitude has been below THRESH_MV for as many periods. The live bit clears; the latch and
the disable stay. -/
def execSenseRestored (p : Fin 64) (mv periods : Nat) (s : State) : Host.Outcome State Fault Refusal :=
  if s.afe.senseOpen[p.val] && mv < s.afe.senseThresh && s.sensePeriods ≤ periods then
    .next (({ s with afe := { s.afe with senseOpen := updV s.afe.senseOpen p fun _ => false } }).ev 0x3021 p.val)
  else .next s

end Sys2Proof.Machine
end

