-- ==== Sys2Proof/Machine/Fp32.lean ====
section
/-! DEFINITION. IEEE 754 binary32 arithmetic (R219) on bit patterns, the element formats of R220 and the
functions of R222. A finite value is an integer multiple of 2^-149, so exact arithmetic is integer
arithmetic, and each operation rounds once. -/

namespace Sys2Proof.Machine

/-- The NaN pattern a result carries: the payload is not stated (DESIGN CHOICE, log entry 15). -/
def fNaN : Nat := 0x7FC00000
/-- Infinities. -/
def fInf (neg : Bool) : Nat := if neg then 0xFF800000 else 0x7F800000

/-- Fields of a pattern. -/
def fSign (w : Nat) : Bool := tb w 31
def fExp (w : Nat) : Nat := fld w 23 8
def fFrac (w : Nat) : Nat := fld w 0 23
def fIsNaN (w : Nat) : Bool := fExp w = 255 && fFrac w != 0
def fIsInf (w : Nat) : Bool := fExp w = 255 && fFrac w = 0
def fIsZero (w : Nat) : Bool := fExp w = 0 && fFrac w = 0
def fNeg (w : Nat) : Nat := if fSign w then w - 2 ^ 31 else w + 2 ^ 31

/-- Magnitude of a finite value in units of 2^-149. -/
def fMag (w : Nat) : Nat := if fExp w = 0 then fFrac w else (2 ^ 23 + fFrac w) * 2 ^ (fExp w - 1)
/-- A finite value in units of 2^-149. -/
def fFix (w : Nat) : Int := if fSign w then -(fMag w : Int) else fMag w

/-- Bits of a natural number. -/
def bitLen (n : Nat) : Nat := if n = 0 then 0 else flog2 n + 1

/-- The pattern nearest to num / den, ties to even, overflow to infinity. -/
def fRound (neg : Bool) (num den : Nat) : Nat :=
  let sg := if neg then 2 ^ 31 else 0
  if num = 0 || den = 0 then sg
  else
    let e0 : Int := (bitLen num : Int) - bitLen den - 24
    let quo := fun (e : Int) => divHEN (num * 2 ^ (-e).toNat) (den * 2 ^ e.toNat)
    let e1 := if den * 2 ^ 24 * 2 ^ e0.toNat ≤ num * 2 ^ (-e0).toNat then e0 + 1 else e0
    let e := max e1 (-149)
    let m := quo e
    let (m, e) := if m = 2 ^ 24 then (2 ^ 23, e + 1) else (m, e)
    if m < 2 ^ 23 then sg + m
    else if 104 < e then sg + 0x7F800000
    else sg + (e + 150).toNat * 2 ^ 23 + (m - 2 ^ 23)

/-- The pattern nearest to x / 2^k; a zero is positive. -/
def fOfFix (x : Int) (k : Nat) : Nat := fRound (x < 0) x.natAbs (2 ^ k)
/-- The pattern nearest to an integer. -/
def fOfInt (x : Int) : Nat := fOfFix x 0
/-- The pattern nearest to a rational number. -/
def fOfRat (x : Int) (den : Nat) : Nat := fRound (x < 0) x.natAbs den
/-- The pattern nearest to x * 2^e (R223). -/
def fScale (x : Int) (e : Int) : Nat := fRound (x < 0) (x.natAbs * 2 ^ e.toNat) (2 ^ (-e).toNat)

/-- Sum. -/
def fAdd (a b : Nat) : Nat :=
  if fIsNaN a || fIsNaN b then fNaN
  else if fIsInf a then (if fIsInf b && fSign a != fSign b then fNaN else a)
  else if fIsInf b then b
  else if fIsZero a && fIsZero b then (if fSign a && fSign b then 2 ^ 31 else 0)
  else fOfFix (fFix a + fFix b) 149
/-- Difference. -/
def fSub (a b : Nat) : Nat := if fIsNaN b then fNaN else fAdd a (fNeg b)
/-- Product. -/
def fMul (a b : Nat) : Nat :=
  if fIsNaN a || fIsNaN b then fNaN
  else
    let neg := fSign a != fSign b
    if fIsInf a || fIsInf b then (if fIsZero a || fIsZero b then fNaN else fInf neg)
    else fRound neg (fMag a * fMag b) (2 ^ 298)
/-- Quotient. -/
def fDiv (a b : Nat) : Nat :=
  if fIsNaN a || fIsNaN b then fNaN
  else
    let neg := fSign a != fSign b
    if fIsInf a then (if fIsInf b then fNaN else fInf neg)
    else if fIsInf b then (if neg then 2 ^ 31 else 0)
    else if fIsZero b then (if fIsZero a then fNaN else fInf neg)
    else fRound neg (fMag a) (fMag b)
/-- Square root, nearest. -/
def fSqrt (a : Nat) : Nat :=
  if fIsNaN a then fNaN
  else if fIsZero a then a
  else if fSign a then fNaN
  else if fIsInf a then a
  else
    fRound false (Nat.sqrt (fMag a * 2 ^ 549)) (2 ^ 349)
/-- a < b; false where either is NaN. -/
def fLt (a b : Nat) : Bool :=
  if fIsNaN a || fIsNaN b then false
  else if fIsInf a then fSign a && !(fIsInf b && fSign b)
  else if fIsInf b then !fSign b
  else fFix a < fFix b
/-- a ≤ b; false where either is NaN. -/
def fLe (a b : Nat) : Bool := !(fIsNaN a || fIsNaN b) && !fLt b a
/-- Magnitude. -/
def fAbs (w : Nat) : Nat := if fSign w then w - 2 ^ 31 else w

/-- round_half_even(y * 2^q) of a finite value. -/
def fToInt (y : Nat) (q : Int) : Int := divHE (fFix y * 2 ^ q.toNat) (2 ^ 149 * 2 ^ (-q).toNat)
/-- sat32 of the rounded product, infinities saturating (R223). -/
def fToSat (y : Nat) (q : Int) : Int :=
  if fIsInf y then (if fSign y then -2147483648 else 2147483647) else sat32 (fToInt y q)

/-! Functions of R222: each is evaluated to some 500 bits and rounded once. -/

/-- Fractional bits of the evaluation. -/
def fnBits : Nat := 900

/-- e^x of a non-negative x with `fnBits` fractional bits: the series, term by term. -/
def expSeries : Nat → Nat → Nat → Nat → Nat
  | 0, _, _, _ => 0
  | k + 1, n, t, x => t + expSeries k (n + 1) (t * x / ((n + 1) * 2 ^ fnBits)) x

/-- e^x for 0 ≤ x ≤ 110, in units of 2^-fnBits. -/
def expPos (x : Nat) : Nat := expSeries 900 0 (2 ^ fnBits) x

/-- e^x in units of 2^-fnBits for |x| ≤ 110 in the same units. -/
def expFix (x : Int) : Nat := if 0 ≤ x then expPos x.toNat else 2 ^ (2 * fnBits) / expPos x.natAbs

/-- A finite value in units of 2^-fnBits, held within ±110. -/
def fToFn (w : Nat) : Int := clampI (-(110 * 2 ^ fnBits)) (110 * 2 ^ fnBits) (fFix w * 2 ^ (fnBits - 149))

/-- atanh(z) for 0 ≤ z ≤ 1/3 in units of 2^-fnBits: the odd series. -/
def atanhSeries : Nat → Nat → Nat → Nat → Nat
  | 0, _, _, _ => 0
  | k + 1, n, t, z2 => t / (2 * n + 1) + atanhSeries k (n + 1) (t * z2 / 2 ^ fnBits) z2

/-- ln(1 + z) in units of 2^-fnBits. -/
def ln1p (z : Nat) : Nat :=
  let one := 2 ^ fnBits
  let k := flog2 ((one + z) / one)
  let f := (one + z) / 2 ^ k
  let a := (f - one) * one / (f + one)
  let third := one / 3
  let at_ := fun (x : Nat) => 2 * atanhSeries 320 0 x (x * x / one)
  k * at_ third + at_ a

/-- EXP. -/
def fExpFn (w : Nat) : Nat :=
  if fIsNaN w then fNaN
  else if fIsInf w then (if fSign w then 0 else w)
  else fRound false (expFix (fToFn w)) (2 ^ fnBits)

/-- e^(num/den) rounded to FP32, for small arguments. -/
def fExpRat (num : Int) (den : Nat) : Nat :=
  fRound false (expFix (Int.fdiv (num * 2 ^ fnBits) den)) (2 ^ fnBits)

/-- The functions of R222 by FUNC; another code has no meaning (the loader refuses it). -/
def fFunc (func w : Nat) : Nat :=
  if fIsNaN w then fNaN
  else
    let one := 2 ^ fnBits
    match func with
    | 1 => if fSign w then 0 else w
    | 2 =>
      if fIsInf w then (if fSign w then 0 else 0x3F800000)
      else let e := expFix (-(fToFn w)); fRound false one (one + e)
    | 3 =>
      if fIsInf w then (if fSign w then 0xBF800000 else 0x3F800000)
      else if fExp w < 114 then w
      else
        let e := expFix (2 * (clampI (-(50 * 2 ^ fnBits)) (50 * 2 ^ fnBits) (fToFn (fAbs w))))
        fRound (fSign w) (e - one) (e + one)
    | 4 =>
      if fIsInf w then (if fSign w then 2 ^ 31 else w)
      else if fSign w && 110 * 2 ^ 149 < fMag w then 2 ^ 31
      else let e := expFix (-(fToFn w)); fRound (fSign w) (fMag w * one) (2 ^ 149 * (one + e))
    | 5 => fExpFn w
    | 6 =>
      if fIsInf w then (if fSign w then 0 else w)
      else if !fSign w && 100 * 2 ^ 149 < fMag w then w
      else fRound false (ln1p (expFix (fToFn w))) one
    | 7 => fDiv 0x3F800000 w
    | 8 =>
      if fIsZero w then fInf (fSign w)
      else if fSign w then fNaN
      else if fIsInf w then 0
      else fRound false (Nat.sqrt (2 ^ 900 / fMag w * 2 ^ 249)) (2 ^ 500)
    | _ => fNaN

/-! Element formats of R220. -/

/-- Value of a small float with `eb` exponent bits, `mb` mantissa bits and bias, as an integer in units
of 2^-149; none for its NaN and infinity codes where it has them. -/
def smallFloat (eb mb bias : Nat) (c : Nat) : Int :=
  let e := fld c mb eb
  let m := fld c 0 mb
  let mag := if e = 0 then m * 2 ^ (149 + 1 - bias - mb) else (2 ^ mb + m) * 2 ^ (149 + e - bias - mb)
  if tb c (eb + mb) then -(mag : Int) else mag

/-- E4M3: code 0x7F of either sign is NaN. -/
def e4m3 (c : Nat) : Option Int := if fld c 0 7 = 0x7F then none else some (smallFloat 4 3 7 c)
/-- E5M2: exponent 31 holds infinities and NaN, neither of which a block sum can take: both give NaN. -/
def e5m2 (c : Nat) : Option Int := if fld c 2 5 = 31 then none else some (smallFloat 5 2 15 c)
/-- BF16 is the upper half of an FP32 pattern. -/
def bf16 (c : Nat) : Nat := 2 ^ 16 * c

/-- A value x / 2^k rounded half-even to `mb` mantissa bits with least exponent `emin` (that of the
smallest normal number), saturating at `top` in units of 2^-149. -/
def roundSmall (mb : Nat) (emin : Int) (top : Nat) (x : Int) (k : Nat) : Int :=
  if x = 0 then 0
  else
    let b : Int := (flog2 x.natAbs : Int) - k
    let e := max b emin - mb
    let m := divHEN (x.natAbs * 2 ^ (-e).toNat) (2 ^ k * 2 ^ e.toNat)
    let v := min (m * 2 ^ (149 + e).toNat) top
    if x < 0 then -(v : Int) else v

/-- FP32 rounded half-even to BF16, as an FP32 pattern. -/
def fToBf16 (w : Nat) : Nat :=
  if fIsNaN w || fIsInf w then w
  else
    let q := w / 2 ^ 16
    let r := w % 2 ^ 16
    2 ^ 16 * (if 2 ^ 15 < r || (r = 2 ^ 15 && q % 2 = 1) then q + 1 else q)

end Sys2Proof.Machine
end

