-- ==== Sys2Proof/Machine/FceModel.lean ====
section
/-! DEFINITION. Forecast models (R224 to R227, R229, R236) and the evaluation of one (R219 to R223). -/

namespace Sys2Proof.Machine

/-! The records of a model. -/

/-- The MODEL_DESC record that serves a role and horizon (R213, R224). -/
def modelFor (recs : List Rec) (role : Nat) (long : Bool) : Option Rec :=
  recs.find? fun r => r.type = 0x0901 && tb (r.u8 0x0A) role && r.u8 0x0B = if long then 2 else 1

/-- Fields of MODEL_DESC. -/
def Rec.model (r : Rec) : Nat := r.u16 0x08
def Rec.streamed (r : Rec) : Bool := r.u8 0x0D = 1
def Rec.cadence (r : Rec) : Nat := r.u8 0x0E
def Rec.adapts (r : Rec) : Bool := r.u8 0x0F = 1
def Rec.weightBytes (r : Rec) : Nat := r.u32 0x10
def Rec.stagingBytes (r : Rec) : Nat := r.u32 0x14
def Rec.stateBytes (r : Rec) : Nat := r.u32 0x18
def Rec.workBytes (r : Rec) : Nat := r.u32 0x1C
def Rec.nInputs (r : Rec) : Nat := r.u16 0x24
def Rec.outLen (r : Rec) : Nat := r.u16 0x26
def Rec.outQ (r : Rec) : Int := r.s8 0x28

/-- The records of the active configuration that make up forecast models. -/
def State.modelRecs (s : State) : List Rec :=
  ([0x0304, 0x0901, 0x0902, 0x0903, 0x0904, 0x0A01].map s.recs).flatten

/-- Those of one type that name a model (at offset 0x08). -/
def ofModel (recs : List Rec) (ty m : Nat) : List Rec := recs.filter fun r => r.type = ty && r.u16 0x08 = m

/-- One operation of a model (R226). -/
structure FOp where
  /-- OPCODE -/
  opcode : Nat
  /-- FORMAT -/
  format : Nat
  /-- FUNC -/
  func : Nat
  /-- FLAGS -/
  flags : Nat
  /-- M, N, K -/
  m : Nat
  n : Nat
  k : Nat
  /-- A, B, C, AS, PARAM -/
  a : Nat
  b : Nat
  c : Nat
  as_ : Nat
  param : Nat
  deriving DecidableEq, Repr

/-- The operation at an offset of a MODEL_OP record. -/
def Rec.fop (r : Rec) (o : Nat) : FOp :=
  { opcode := r.u8 o, format := r.u8 (o + 1), func := r.u8 (o + 2), flags := r.u8 (o + 3), m := r.u16 (o + 4)
    n := r.u16 (o + 6), k := r.u16 (o + 8), a := r.u32 (o + 0x0C), b := r.u32 (o + 0x10), c := r.u32 (o + 0x14)
    as_ := r.u32 (o + 0x18), param := r.u32 (o + 0x1C) }

/-- The operations of a model with their indices, in index order (R226). -/
def modelOps (recs : List Rec) (m : Nat) : List (Nat × FOp) :=
  ((ofModel recs 0x0902 m).flatMap fun r => (List.range (r.u16 0x0C)).map fun i =>
    (r.u16 0x0A + i, r.fop (0x10 + 32 * i))).mergeSort fun x y => x.1 ≤ y.1

/-- Bytes of one weight of a MATMUL format (R220). -/
def weightSize (format : Nat) : Nat := if format = 4 then 2 else if format = 5 then 4 else 1

/-- A byte of a model's weight image: no block covering it leaves 0 (R225). -/
def imageByte (recs : List Rec) (m off : Nat) : Byte :=
  match (ofModel recs 0x0903 m).find? fun r =>
    r.u32 0x0C ≤ off && off < r.u32 0x0C + (r.bytes.length - 0x10) with
  | some r => r.bytes.getD (0x10 + (off - r.u32 0x0C)) 0
  | none => 0

/-- The copies of a model, in the order they start (R229). -/
def copiesOf (recs : List Rec) (m : Nat) : List (Rec × Nat) :=
  ((ofModel recs 0x0A01 m).zipIdx).mergeSort fun x y => x.1.u16 0x0A ≤ y.1.u16 0x0A

/-- A byte of the WEIGHTS region: the resident image, or what the copies of the evaluation bring into
staging, the last to start prevailing; a byte no copy brings is not stated (free). -/
def weightByte (recs : List Rec) (d : Rec) (fv off : Nat) : Byte :=
  if d.streamed then
    match (copiesOf recs d.model).reverse.find? fun x =>
      x.1.u32 0x10 ≤ off && off < x.1.u32 0x10 + x.1.u32 0x14 with
    | some x => imageByte recs d.model (x.1.u32 0x0C + (off - x.1.u32 0x10))
    | none => Config.freeByte fv off
  else imageByte recs d.model off

/-! Evaluation. -/

/-- What an evaluation reads and does not write. -/
structure EvalCtx where
  /-- The records of its configuration -/
  recs : List Rec
  /-- Its MODEL_DESC record -/
  d : Rec
  /-- FP32 inputs -/
  inputs : List Nat
  /-- Present head of an adaptive instance -/
  w : Option (List (List Nat))
  /-- Counter of free values -/
  fv : Nat

/-- What an evaluation writes. -/
structure EvalMem where
  /-- STATE region -/
  st : Memory
  /-- WORK region: bytes written, newest first -/
  wk : List (Nat × Byte)
  /-- Head input h -/
  h : List Nat
  /-- Values of OUTPUT -/
  y : List Nat

/-- A byte of a region (R226). A byte of WORK that nothing has written is not stated (free). -/
def EvalMem.byte (m : EvalMem) (c : EvalCtx) (addr : Nat) : Byte :=
  let off := addr % 2 ^ 28
  match addr / 2 ^ 28 with
  | 0 => weightByte c.recs c.d c.fv off
  | 1 => m.st.read off
  | 2 => ((m.wk.find? fun x => x.1 = off).map Prod.snd).getD (Config.freeByte c.fv (2 ^ 28 + off))
  | _ => BitVec.ofNat 8 (c.inputs.getD (off / 4) 0 / 256 ^ (off % 4))

/-- `n` bytes as a number, least significant first. -/
def EvalMem.val (m : EvalMem) (c : EvalCtx) (addr n : Nat) : Nat :=
  leVal ((List.range n).map fun i => m.byte c (addr + i))

/-- An FP32 value of a region. -/
def EvalMem.f (m : EvalMem) (c : EvalCtx) (addr : Nat) : Nat := m.val c addr 4

/-- An FP32 value written into STATE or WORK; the other regions are not written. -/
def EvalMem.put (m : EvalMem) (addr v : Nat) : EvalMem :=
  let off := addr % 2 ^ 28
  match addr / 2 ^ 28 with
  | 1 => { m with st := m.st.writeN off (leBytes 4 v) }
  | 2 => { m with wk := ((leBytes 4 v).zipIdx.map fun x => (off + x.2, x.1)) ++ m.wk }
  | _ => m

/-- Values written from an address on. -/
def EvalMem.puts (m : EvalMem) (addr : Nat) : List Nat → EvalMem
  | [] => m
  | v :: l => EvalMem.puts (m.put addr v) (addr + 4) l

/-- What the exact sum of a block of products comes to (R221). -/
inductive BlockSum where
  | nan
  | inf (neg : Bool)
  /-- In units of 2^-298 -/
  | num (x : Int)

/-- The exact sum of products of two lists of FP32 patterns (R221). -/
def blockSum (ps : List (Nat × Nat)) : BlockSum :=
  let bad := fun (p : Nat × Nat) => fIsNaN p.1 || fIsNaN p.2 || (fIsInf p.1 && fIsZero p.2)
    || (fIsZero p.1 && fIsInf p.2)
  let infs := (ps.filter fun p => fIsInf p.1 || fIsInf p.2).map fun p => fSign p.1 != fSign p.2
  if ps.any bad || (infs.any id && infs.any not) then .nan
  else match infs with
    | n :: _ => .inf n
    | [] => .num ((ps.map fun p => fFix p.1 * fFix p.2).sum)

/-- The sum scaled by a power of two and rounded to FP32. -/
def BlockSum.toF (b : BlockSum) (e : Int) : Nat :=
  match b with
  | .nan => fNaN
  | .inf n => fInf n
  | .num x => fRound (x < 0) (x.natAbs * 2 ^ e.toNat) (2 ^ 298 * 2 ^ (-e).toNat)

/-- An MX element as an FP32 pattern (R220). -/
def mxElem (format code : Nat) : Nat :=
  match format with
  | 1 => fOfFix (ofCode 8 code) 6
  | 2 => match e4m3 code with
    | some x => fOfFix x 149
    | none => fNaN
  | _ => if fld code 2 5 = 31 && fld code 0 2 = 0 then fInf (tb code 7)
    else match e5m2 code with
      | some x => fOfFix x 149
      | none => fNaN

/-- A block of activations in an MX format: its scale exponent, none for scale 0xFF, and its elements
(R220). -/
def mxBlock (format : Nat) (vs : List Nat) : Option (Int × List Nat) :=
  if vs.any fun v => fIsNaN v || fIsInf v then none
  else
    let top := (vs.map fMag).foldl max 0
    if top = 0 then some (-127, vs.map fun _ => 0)
    else
      let l : Int := (flog2 top : Int) - 149
      let xs := clampI (-127) 127 (match format with
        | 1 => l
        | 2 => l - 8
        | _ => l - 15)
      let el := fun (v : Nat) =>
        match format with
        | 1 =>
          let e := 6 - xs
          fOfFix (clampI (-127) 127 (divHE (fFix v * 2 ^ e.toNat) (2 ^ 149 * 2 ^ (-e).toNat))) 6
        | 2 => fOfFix (roundSmall 3 (-6) (448 * 2 ^ 149) (fFix v * 2 ^ (-xs).toNat) (149 + xs.toNat)) 149
        | _ => fOfFix (roundSmall 2 (-14) (57344 * 2 ^ 149) (fFix v * 2 ^ (-xs).toNat) (149 + xs.toNat)) 149
      some (xs, vs.map el)

/-- One block of a MATMUL element (R221): weights and activations of the block, and the weight's scale. -/
def blockProduct (format : Nat) (ws : List Nat) (scale : Nat) (vs : List Nat) : Nat :=
  if format = 4 then (blockSum ((ws.map bf16).zip (vs.map fToBf16))).toF 0
  else
    match mxBlock format vs with
    | none => fNaN
    | some (xb, es) =>
      if scale = 255 then fNaN
      else (blockSum ((ws.map (mxElem format)).zip es)).toF ((scale : Int) - 127 + xb)

/-- One element of a MATMUL (R221). `wf` reads a weight of the row and `head` a row of the present head. -/
def matElem (m : EvalMem) (c : EvalCtx) (o : FOp) (i n : Nat) (head : Option (List Nat)) : Nat :=
  let acc0 := if tb o.flags 0 then m.f c (o.c + 4 * (i * o.n + n)) else 0
  let v := fun k => m.f c (o.b + 4 * (k * o.n + n))
  let wsz := weightSize o.format
  let wgt := fun k => m.val c (o.a + wsz * (i * o.k + k)) wsz
  if o.format = 5 then
    (List.range o.k).foldl (fun acc k =>
      fAdd acc (fMul (match head with
        | some row => row.getD k 0
        | none => wgt k) (v k))) acc0
  else
    (List.range (ceilDiv o.k 32)).foldl (fun acc kb =>
      let ks := (List.range (min 32 (o.k - 32 * kb))).map fun k => 32 * kb + k
      let sc := if o.format = 4 then 127 else m.val c (o.as_ + i * (o.k / 32) + kb) 1
      fAdd acc (blockProduct o.format (ks.map wgt) sc (ks.map v))) acc0

/-- The larger of two FP32 values; a NaN gives NaN. -/
def fMax (a b : Nat) : Nat := if fIsNaN a || fIsNaN b then fNaN else if fLt a b then b else a

/-- SOFTMAX over one row (R222). -/
def softmaxRow (param : Nat) (x : List Nat) : List Nat :=
  let z := x.map fun v => fMul v param
  match z with
  | [] => []
  | z0 :: zs =>
    let m := zs.foldl fMax z0
    let e := z.map fun v => fFunc 5 (fSub v m)
    let s := e.foldl fAdd 0
    e.map fun v => fDiv v s

/-- One operation (R226). -/
def EvalMem.op (m : EvalMem) (c : EvalCtx) (o : FOp) : EvalMem :=
  let cells := List.range (o.m * o.n)
  let at_ := fun (base i : Nat) => m.f c (base + 4 * i)
  match o.opcode with
  | 1 =>
    let head := tb o.flags 1
    let row := fun i => if head then c.w.map fun w => w.getD i [] else none
    let out := cells.map fun x => matElem m c o (x / o.n) (x % o.n) (row (x / o.n))
    let m' := m.puts o.c out
    if head then { m' with h := (List.range o.k).map (at_ o.b) } else m'
  | 2 => m.puts o.c (cells.map fun i => fAdd (at_ o.a i) (at_ o.b i))
  | 3 => m.puts o.c (cells.map fun i => fMul (at_ o.a i) (at_ o.b i))
  | 4 => m.puts o.c (cells.map fun i => fMul (at_ o.a i) o.param)
  | 5 => m.puts o.c (cells.map fun i => fFunc o.func (at_ o.a i))
  | 6 => m.puts o.c ((List.range o.m).flatMap fun r =>
      softmaxRow o.param ((List.range o.n).map fun j => at_ o.a (r * o.n + j)))
  | 7 => m.puts o.c (((List.range ((o.m - 1) * o.n)).map fun i => at_ o.c (i + o.n))
      ++ (List.range o.n).map (at_ o.a))
  | 8 => { m with y := (List.range c.d.outLen).map (at_ o.a) }
  | _ => m

/-- A whole evaluation from the state region given (R226). -/
def evalModel (c : EvalCtx) (st : Memory) : EvalMem :=
  ((modelOps c.recs c.d.model).map Prod.snd).foldl (fun m o => m.op c o) { st := st, wk := [], h := [], y := [] }

/-- Spans of the WEIGHTS region that a model's operations read: address and bytes (R229). -/
def weightReads (recs : List Rec) (m : Nat) : List (Nat × Nat) :=
  ((modelOps recs m).flatMap fun x =>
    let o := x.2
    match o.opcode with
    | 1 => [(o.a, weightSize o.format * o.m * o.k), (o.as_, if o.format < 4 then o.m * (o.k / 32) else 0)
           , (o.b, 4 * o.k * o.n)]
    | 2 | 3 => [(o.a, 4 * o.m * o.n), (o.b, 4 * o.m * o.n)]
    | 7 => [(o.a, 4 * o.n)]
    | _ => [(o.a, 4 * o.m * o.n)]).filter fun x => x.1 < 2 ^ 28 && x.2 != 0

/-- The base weights of the HEAD operation, OUT_LEN rows of K (R237). -/
def baseHead (recs : List Rec) (d : Rec) (fv : Nat) : List (List Nat) :=
  match (modelOps recs d.model).find? fun x => x.2.opcode = 1 && tb x.2.flags 1 with
  | none => []
  | some (_, o) =>
    let m : EvalMem := { st := [], wk := [], h := [], y := [] }
    let c : EvalCtx := { recs := recs, d := d, inputs := [], w := none, fv := fv }
    (List.range o.m).map fun i => (List.range o.k).map fun k => m.f c (o.a + 4 * (i * o.k + k))

end Sys2Proof.Machine
end

