-- ==== Sys2Proof/Machine/LoopMath.lean ====
section
/-! DEFINITION. The arithmetic of one loop slot: the fixed-point cascade (R138), the block-floating shadow
(R148 to R150), the oscillation detector (R155) and the test signals (R157). -/

namespace Sys2Proof.Machine

/-- The five coefficients of one section and their shifts: B0, B1, B2, A1, A2 (R138). -/
structure Coef where
  /-- Coefficients, signed 32 bits -/
  c : List Int
  /-- Right shifts, 0 to 31 -/
  sh : List Nat
  deriving DecidableEq, Repr

/-- The coefficients of a SECTION_COEFF record. -/
def Rec.coef (r : Rec) : Coef :=
  { c := (List.range 5).map fun i => r.s32 (0x0C + 4 * i)
    sh := (List.range 5).map fun i => r.u8 (0x20 + i) }

/-- The coefficients of a slot's section in a bank; none reads as zeros. -/
def State.coef (s : State) (slot sec bank : Nat) : Coef :=
  match (s.recs 0x0501).find? fun r => r.u8 0x08 = slot && r.u8 0x09 = sec && r.u8 0x0A = bank with
  | some r => r.coef
  | none => { c := [0, 0, 0, 0, 0], sh := [0, 0, 0, 0, 0] }

/-- One section of the main path (R138): its output, whether it saturated, and its states after. -/
def mainSection (k : Coef) (x : SecState) (u : Int) : Int × Bool × SecState :=
  let t := fun (i : Nat) (v : Int) => rshe (k.c.getD i 0 * v) (k.sh.getD i 0)
  let acc := t 0 u + t 1 x.x1 + t 2 x.x2 - t 3 x.y1 - t 4 x.y2
  let y := sat32 acc
  (y, y != acc, { x with x2 := x.x1, x1 := u, y2 := x.y1, y1 := y })

/-- The main cascade (R138): a frozen section keeps its states and gives y1. -/
def mainCascade (k : Nat → Coef) (frozen : Option Nat) :
    List Nat → Int → Bool → Vector SecState 16 → Int × Bool × Vector SecState 16
  | [], u, sat, v => (u, sat, v)
  | j :: js, u, sat, v =>
    let x := v[j]?.getD {}
    if frozen = some j then mainCascade k frozen js x.y1 sat v
    else
      let (y, st, x) := mainSection (k j) x u
      mainCascade k frozen js y (sat || st) (updN v j fun _ => x)

/-! The shadow. -/

/-- A signed 24-bit mantissa. -/
def fits24 (m : Int) : Bool := -8388608 ≤ m && m ≤ 8388607

/-- round_half_even(a * 2^k / 2^e). -/
def shiftTo (a k e : Int) : Int := if e ≤ k then a * 2 ^ (k - e).toNat else rshe a (e - k).toNat

/-- N of R149 of a value a * 2^k: the smallest exponent from -128 to 127 at which it fits 24 bits, 127 where
none does, with a flag that none does. -/
def normExp (a k : Int) : Int × Bool :=
  if a = 0 then (-128, false)
  else
    let lo := max (-128) (k + bitLenI a - 25)
    match (List.range 4).find? fun i => fits24 (shiftTo a k (lo + i)) && decide (lo + i ≤ 127) with
    | some i => (lo + i, false)
    | none => (127, true)
where
  /-- Bits of the magnitude. -/
  bitLenI (a : Int) : Int := (flog2 a.natAbs : Int) + 1

/-- A value normalised: mantissa, exponent, overflow; the mantissa saturates at its limit (R149). -/
def normVal (a k : Int) : Int × Int × Bool :=
  let (e, o) := normExp a k
  (clampI (-8388608) 8388607 (shiftTo a k e), e, o)

/-- The coefficient mantissas and the exponent F of a section (R148). -/
def shadowCoefs (k : Coef) : List Int × Int :=
  let m := fun (f : Int) => (k.c.zip k.sh).map fun x => shiftTo x.1 (-(x.2 : Int)) (f - 23)
  match (List.range 96).find? fun i => (m ((i : Int) - 64)).all fits24 with
  | some i => (m ((i : Int) - 64), (i : Int) - 64)
  | none => ((k.c.zip k.sh).map fun x => clampI (-8388608) 8388607 (Config.shadowCoef x.1 x.2), 31)

/-- Four values brought to one exponent: the largest of their N (R149). -/
def oneBlock (vals : List (Int × Int)) : List Int × Int × Bool :=
  let es := vals.map fun v => normExp v.1 v.2
  let e := (es.map Prod.fst).foldl max (-128)
  (vals.map fun v => clampI (-8388608) 8388607 (shiftTo v.1 v.2 e), e, es.any Prod.snd)

/-- One section of the shadow (R149): the states are aligned with the input before they enter the new block
(DEDUCED, log entry 19). -/
def shadowSection (k : Coef) (x : SecState) (mu eu : Int) : (Int × Int) × Bool × SecState :=
  let (m, f) := shadowCoefs k
  let c := fun i => m.getD i 0
  let eb := max x.es eu
  let al := fun (v e : Int) => rshe v (eb - e).toNat
  let u := al mu eu
  let x1 := al x.mx1 x.es
  let acc := c 0 * u + c 1 * x1 + c 2 * al x.mx2 x.es - c 3 * al x.my1 x.es - c 4 * al x.my2 x.es
  let (my, ey, o1) := normVal acc (eb + f - 23)
  let (b, e, o2) := oneBlock [(u, eb), (x1, eb), (my, ey), (al x.my1 x.es, eb)]
  ((my, ey), o1 || o2,
    { x with mx1 := b.getD 0 0, mx2 := b.getD 1 0, my1 := b.getD 2 0, my2 := b.getD 3 0, es := e })

/-- The shadow cascade from the error (R149): its output before conversion, overflow, and the states. -/
def shadowCascade (k : Nat → Coef) (frozen : Option Nat) :
    List Nat → Int × Int → Bool → Vector SecState 16 → (Int × Int) × Bool × Vector SecState 16
  | [], u, o, v => (u, o, v)
  | j :: js, u, o, v =>
    let x := v[j]?.getD {}
    if frozen = some j then shadowCascade k frozen js (x.my1, x.es) o v
    else
      let (y, ov, x) := shadowSection (k j) x u.1 u.2
      shadowCascade k frozen js y (o || ov) (updN v j fun _ => x)

/-- The error as a shadow signal. -/
def shadowIn (u : Int) : Int × Int := let (m, e, _) := normVal u 0; (m, e)
/-- sat32 of a shadow signal rounded half-even (R149). -/
def shadowOut (y : Int × Int) : Int := sat32 (shiftTo y.1 y.2 0)

/-- The shadow's states re-seeded from the main path (R150). -/
def SecState.seedShadow (x : SecState) : SecState :=
  let (b, e, _) := oneBlock [(x.x1, 0), (x.x2, 0), (x.y1, 0), (x.y2, 0)]
  { x with mx1 := b.getD 0 0, mx2 := b.getD 1 0, my1 := b.getD 2 0, my2 := b.getD 3 0, es := e }

/-- The main states re-seeded from the shadow, with a flag that one saturated (R150). -/
def SecState.seedMain (x : SecState) : SecState × Bool :=
  let f := fun (m : Int) => shiftTo m x.es 0
  let l := [f x.mx1, f x.mx2, f x.my1, f x.my2]
  ({ x with x1 := sat32 (f x.mx1), x2 := sat32 (f x.mx2), y1 := sat32 (f x.my1), y2 := sat32 (f x.my2) },
    l.any fun v => sat32 v != v)

/-! The oscillation detector (R154, R155). -/

/-- AMP * 2^AMP_SHIFT of a SLOT record. -/
def Rec.oscThr (r : Rec) : Nat := r.u16 0x10 * 2 ^ r.u8 0x12
/-- INTEG_SECTION, CROSSINGS, the window, MIN_HALF and MAX_HALF of a SLOT record. -/
def Rec.integ (r : Rec) : Nat := r.u8 0x13
def Rec.crossings (r : Rec) : Nat := r.u8 0x14
def Rec.oscWindow (r : Rec) : Nat := 2 ^ r.u8 0x15
def Rec.minHalf (r : Rec) : Nat := r.u8 0x16
def Rec.maxHalf (r : Rec) : Nat := r.u8 0x17

/-- The detector after one evaluation, and whether it fires (R155). A firing clears the qualifying crossings (log entry
128). -/
def oscStep (r : Rec) (o : OscState) (err : Int) : OscState × Bool :=
  if r.u16 0x10 = 0 then (o, false)
  else
    let n := o.evals + 1
    let sg := err.sign
    let crossing := sg != 0 && o.sign != 0 && sg != o.sign
    let quiet := o.quiet + 1
    if crossing then
      let ok := match o.half with
        | none => false
        | some h => r.oscThr ≤ o.peak && r.minHalf ≤ h + 1 && h + 1 ≤ r.maxHalf
      let hits := ((if ok then n :: o.hits else o.hits)).filter fun k => n < k + r.oscWindow
      let fires := ok && r.crossings ≤ hits.length
      ({ sign := sg, half := some 0, peak := err.natAbs, hits := if fires then [] else hits, evals := n
         quiet := if ok then 0 else quiet }, fires)
    else
      ({ o with sign := if sg = 0 then o.sign else sg, half := o.half.map (· + 1)
                peak := max o.peak err.natAbs, evals := n, quiet := quiet
                hits := o.hits.filter fun k => n < k + r.oscWindow }, false)

/-! Test signals (R157). -/

/-- pi in units of 2^-160, rounded. -/
def piFix : Nat := 4591442807048218921384805199743311128454155024418

/-- The sine series of an angle in units of 2^-160, term by term. -/
def sinSeries : Nat → Nat → Int → Int → Int
  | 0, _, _, _ => 0
  | k + 1, n, t, x2 => t + sinSeries k (n + 2) (-(t * x2 / ((n + 1) * (n + 2) * 2 ^ 160))) x2

/-- sine_table of R157, by quarters. -/
def sineTable (i : Nat) : Int :=
  let i := i % 4096
  let q := i % 1024
  let j := if i / 1024 % 2 = 0 then q else 1024 - q
  let x : Int := (piFix * j / 2048 : Nat)
  let v := divHE (sinSeries 40 1 x (x * x / 2 ^ 160)) (2 ^ 130)
  if i < 2048 then v else -v

/-- FORM, POINT, AMPLITUDE and LENGTH of a TEST_SIGNAL record. -/
def Rec.testForm (r : Rec) : Nat := r.u8 0x09
def Rec.testPoint (r : Rec) : Nat := r.u8 0x0A
def Rec.testAmp (r : Rec) : Int := r.s32 0x0C
def Rec.testLen (r : Rec) : Nat := r.u32 0x14

/-- The TEST_SIGNAL record of a slot. -/
def State.testRec (s : State) (slot : Nat) : Option Rec := s.rec8 0x0403 0x08 slot

/-- The second tap of the polynomial of each ORDER (R157). -/
def prbsTap (order : Nat) : Nat :=
  match order with
  | 7 => 6 | 9 => 5 | 11 => 9 | 15 => 14 | _ => 18

/-- The shift register after one bit: the oldest bit leaves, and the sum of the taps enters (DEDUCED, log
entry 20). -/
def prbsNext (order reg : Nat) : Nat :=
  let b := (reg / 2 ^ (order - 1) + reg / 2 ^ (prbsTap order - 1)) % 2
  (2 * reg + b) % 2 ^ order

/-- The value of a test signal at its evaluation in progress, and the run after it (R157). -/
def testStep (r : Rec) (t : TestRun) : Int × TestRun :=
  let amp := r.testAmp
  let sine := divHE (amp * sineTable (t.phase / 2 ^ 20)) (2 ^ 30)
  match r.testForm with
  | 0 => (sine, { t with j := t.j + 1, phase := wrapU 32 (t.phase + r.u32 0x10) })
  | 1 =>
    let order := r.u8 0x10
    let v := if tb t.lfsr (order - 1) then amp else -amp
    (v, { t with j := t.j + 1
                 lfsr := if (t.j + 1) % (max 1 (r.u8 0x11)) = 0 then prbsNext order t.lfsr else t.lfsr })
  | _ =>
    let f0 := r.u16 0x10
    let ftw := (f0 : Int) * 2 ^ 16 + divHE (((r.u16 0x12 : Int) - f0) * 2 ^ 16 * t.j) r.testLen
    (sine, { t with j := t.j + 1, phase := codeS 32 (t.phase + ftw) })

end Sys2Proof.Machine
end

