-- ==== Sys2Proof/Machine/LoopOps.lean ====
section
/-! DEFINITION. Operations of the control engine over the state: feedback and validity (R136, R137), one
evaluation of a slot (R138, R147, R150), its output (R139, R142, R151), the detector's actions (R155, R156),
capture (R159, R160), and what entry into RUN, its end and a return from Basalt do to slots (R141, R153). -/

namespace Sys2Proof.Machine

/-- A change of one slot. -/
def State.updSlot (s : State) (i : Fin 64) (f : Slot → Slot) : State :=
  { s with loop := { s.loop with slot := updV s.loop.slot i f } }
/-- A slot by number. -/
def State.slot (s : State) (i : Fin 64) : Slot := s.loop.slot[i.val]

/-- A held slot: FB_INVALID or its group held by Basalt (R137, R156, R166). -/
def Slot.held (x : Slot) : Bool := x.fbInvalid || x.basaltHeld

/-- RAMP in force: 0 stands for 256 (R162). -/
def State.rampLen (s : State) : Nat := if s.loop.ramp = 0 then 256 else s.loop.ramp

/-- The transfer offset of a slot (R139). -/
def Slot.offset (x : Slot) : Int := if x.rampLeft = 0 then 0 else divHE (x.rampD * x.rampLeft) x.rampLen

/-- LOOP_SLOT_STATUS.RAMPING (R151): the last output carried an offset. -/
def Slot.ramping (x : Slot) : Bool := x.off != 0

/-! Tests and capture. -/

/-- The test of a slot runs or waits to begin. -/
def TestState.live : TestState → Bool
  | .pending | .running => true
  | _ => false

/-- A test ends early (R158). -/
def State.testAbort (s : State) (i : Fin 64) : State :=
  if (s.slot i).test.state.live then
    (s.updSlot i fun x => { x with test := { x.test with state := .aborted, refused := false } }).ev 0x4032 i.val
  else s

/-- Every test in progress ends (R141, R158). -/
def State.testsAbort (s : State) : State := (List.finRange 64).foldl State.testAbort s

/-- Records of a capture buffer and of a snapshot's two halves (R159, R160). -/
def capRecords : Nat := 196608
def snapHalf : Nat := 1024

/-- FLAGS of a capture record (R159). -/
def Slot.capFlags (x : Slot) (src : CometSrc) : Nat :=
  let b := fun (v : Bool) (k : Nat) => if v then 2 ^ k else 0
  b x.shadow 0 + b x.altBank 1 + b x.mainSat 2 + b x.outSat 3 + b x.fbPartial 4 + b x.held 5 + b x.frozen 6
    + b x.ramping 7 + 256 * (match src with | .none => 0 | .forecast => 1 | .schedule => 2)

/-- An evaluation's record enters the buffer of a slot that owns one, unless a snapshot holds it (R159,
R160). -/
def State.capture (s : State) (i : Fin 64) : State :=
  if (s.capBuffer i.val).isNone then s
  else
    let t := s.sys.tick
    let src := s.loop.cometSrc
    let len := ((s.testRec i.val).map Rec.testLen).getD 0
    s.updSlot i fun x =>
      if x.snapHeld || x.snapLeft = some 0 then x
      else
        let e : CapRec := { tick := t, sp := x.sp, fb := x.fb, err := x.err, ff := x.ff, out := x.out
                            inj := x.inj, flags := x.capFlags src }
        { x with cap := (e :: x.cap).take capRecords, snapLeft := x.snapLeft.map (· - 1)
                 test := if x.test.state = .running && x.test.records < len then { x.test with records := satU 18 (x.test.records + 1) }
                         else x.test }

/-- The test signal of a slot captures: its record names a buffer, and the slot owns it (R157, R159). -/
def State.testCaptures (s : State) (i : Fin 64) : Bool :=
  (((s.testRec i.val).map fun r => r.u8 0x0B != 255).getD false) && (s.capBuffer i.val).isSome

/-- The snapshot takes the buffer of a slot whose detector fires (R160): a test capture in progress is
displaced. A held or filling snapshot is left unchanged. -/
def State.snapshot (s : State) (i : Fin 64) : State :=
  match s.capBuffer i.val with
  | none => s
  | some b =>
    let x := s.slot i
    if x.snapHeld || x.snapLeft.isSome then s
    else
      let disp := x.test.state = .running && s.testCaptures i
      let s := s.updSlot i fun x =>
        { x with cap := x.cap.take snapHalf, snapLeft := some snapHalf
                 displaced := x.displaced || disp
                 test := if disp then { x.test with state := .displaced, refused := false } else x.test }
      if disp then (s.displace 2 b 4 5).ev 0x4032 i.val else s

/-! Basalt and the slots. -/

/-- The groups an OSC_ACTION hands over: that of a CURRENT slot, or those of the CURRENT slots that descend
from the slot (R156). -/
def State.groupsUnder (s : State) (i : Nat) : List (Fin 4) :=
  s.groups.filter fun g =>
    match s.currentSlot g.val with
    | none => false
    | some c => c = i || ancestorIs s c i 4
where
  /-- Whether a slot's chain of parents reaches another, in at most the number of steps given. -/
  ancestorIs (s : State) (c i : Nat) : Nat → Bool
    | 0 => false
    | k + 1 =>
      match s.slotRec c with
      | none => false
      | some r => r.parent = i || ancestorIs s r.parent i k

/-- A group is handed to Basalt in RUN (R156): it passes to Basalt, its CURRENT slot is held, and its bit of
BASALT_GROUPS is set. -/
def State.handToBasalt (s : State) (g : Fin 4) : State :=
  if s.loop.basaltGroups[g.val] then s
  else
    let s := s.giveBasalt g
    let s := { s with
      loop := { s.loop with basaltGroups := updV s.loop.basaltGroups g fun _ => true }
      prot := { s.prot with handTick := updV s.prot.handTick g fun _ => s.sys.tick } }.degrade
    match s.currentSlot g.val with
    | some c => if h : c < 64 then
        (s.updSlot ⟨c, h⟩ fun x => { x with basaltHeld := true }).testAbort ⟨c, h⟩
      else s
    | none => s

/-! The detector's actions. -/

/-- INTEG_SECTION freezes from the next evaluation (R156). -/
def State.freezeInteg (s : State) (i : Fin 64) : State :=
  (s.updSlot i fun x => { x with freezeReq := some true }).ev 0x4013 i.val

/-- Groups pass to Basalt by action 3 of a slot's detector (R156): event 0x4015 where one is handed over (R169). -/
def State.handGroups (s : State) (i : Fin 64) : State :=
  let l := (s.groupsUnder i.val).filter fun g => !s.loop.basaltGroups[g.val]
  if l.isEmpty then s else (l.foldl State.handToBasalt s).ev 0x4015 i.val

/-- The detector fires (R155, R156, R158, R160). A BUS_VOLTAGE slot that has handed its groups over goes on being evaluated (R153);
where it fires again with none left to hand over, action 3 does nothing more (log entry 138). -/
def State.oscFire (s : State) (i : Fin 64) (r : Rec) : State :=
  let t := s.sys.tick
  let s := (s.updSlot i fun x =>
    { x with nFire := bump 8 x.nFire, oscTick := t, oscLatch := true }).ev 0x4010 i.val
  let s := (s.snapshot i).testAbort i
  let x := s.slot i
  let frozen := x.frozen || x.freezeReq = some true
  match r.oscAction with
  | 1 =>
    if x.altBank || x.bankReq = some true then
      if r.integ = 255 || frozen then s else s.freezeInteg i
    else (s.updSlot i fun x => { x with bankReq := some true }).ev 0x4011 i.val
  | 2 => if frozen then s else s.freezeInteg i
  | 3 => s.handGroups i
  | _ => s

/-! One evaluation. -/

/-- A route's value at the tick, with the VALID of its channel: an invalid one holds its last value (R97). -/
def State.routeIn (s : State) (r : Rec) : Int × Bool :=
  let c := s.chan (r.u16 0x08)
  (r.routeValue c.value, c.valid)

/-- The phase of a route's channel is disabled (R137). -/
def State.routeDisabled (s : State) (r : Rec) : Bool :=
  (s.pwm.ph[r.u16 0x08]?.map Phase.disabled).getD false

/-- The FEEDBACK routes of a slot at an evaluation: what each contributes and its count after (R137). -/
def State.fbRoutes (s : State) (i : Fin 64) : List (Int × Nat × Bool) :=
  (s.routes i.val 0).zipIdx.map fun x =>
    let (v, ok) := s.routeIn x.1
    let bad := if ok then 0 else ((s.slot i).routeBad.getD x.2 (0, false)).1 + 1
    let zero := 4 < bad || s.routeDisabled x.1
    (if zero then 0 else v, bad, zero)

/-- The feedback of a slot as its routes stand at the tick, mA for a CURRENT slot (R136, R137). -/
def State.fbNow (s : State) (i : Fin 64) : Int :=
  sat32 (((s.routes i.val 0).zipIdx.map fun x =>
    if s.routeDisabled x.1 || (!(s.routeIn x.1).2 && ((s.slot i).routeBad.getD x.2 (0, false)).2) then 0
    else (s.routeIn x.1).1).sum)

/-- Sum of the latest telemetry power of the bricks in service, W: the GRID_DRAW feedback (R131, R201). -/
def State.brickPower (s : State) : Int := (s.inServicePorts.map fun p => (s.psuPort p).p).sum

/-- Which path drives after an evaluation, and what the switch records (R147). -/
structure PathStep where
  /-- The shadow drives -/
  shadow : Bool
  /-- Saturation window and clean run after it -/
  window : List Bool
  clean : Nat
  /-- The path changed -/
  changed : Bool
  deriving DecidableEq, Repr

/-- The choice of path at an evaluation (R147), before the re-seed of R150 (log entry 127). -/
def pathStep (x : Slot) (sat : Bool) (limit cleanLog2 : Nat) : PathStep :=
  let w := (sat :: x.satWindow).take 64
  let clean := if sat then 0 else x.cleanRun + 1
  if !x.shadow then
    if limit ≤ (w.filter id).length then { shadow := true, window := [], clean := 0, changed := true }
    else { shadow := false, window := w, clean := clean, changed := false }
  else if 2 ^ cleanLog2 ≤ clean then { shadow := false, window := w, clean := clean, changed := true }
  else { shadow := true, window := w, clean := clean, changed := false }

/-- The path that does not drive is re-seeded from the other (R150), with a flag that a main state
saturated; the states of a frozen section too (log entry 127). -/
def reseed (shadow sat : Bool) (v : Vector SecState 16) : Vector SecState 16 × Bool :=
  if shadow then (v.map fun x => x.seedMain.1, v.toList.any fun x => x.seedMain.2)
  else if sat then (v, false)
  else (v.map SecState.seedShadow, false)

/-- The FEEDBACK part of an evaluation: counts advance, and a route that begins to contribute zero records
event 0x4021 (R137). -/
def State.noteRoutes (s : State) (i : Fin 64) (ins : List (Int × Nat × Bool)) : State :=
  let new := (ins.zipIdx.filter fun x => x.1.2.2 && !((s.slot i).routeBad.getD x.2 (0, false)).2).length
  let s := s.updSlot i fun x => { x with routeBad := ins.map fun y => y.2 }
  (List.range new).foldl (fun s _ => s.ev 0x4021 i.val) s

/-- What one evaluation of a slot gives. -/
structure SlotRun where
  /-- the slot after it -/
  slot : Slot
  /-- the shadow path overflowed -/
  ovf : Bool
  /-- the path in force changed -/
  changed : Bool
  /-- the bank changed -/
  bankSw : Bool
  /-- the oscillation watch fires -/
  fires : Bool

/-- The arithmetic of one evaluation of a slot that is not held, at a base setpoint with its parent term
(R138, R147, R149, R150, R152, R155, R156, R157). -/
def State.slotNext (s : State) (i : Fin 64) (r : Rec) (setp : Int) : SlotRun :=
  let x := s.slot i
  let bank := x.bankReq.getD x.altBank
  let bankSw := bank != x.altBank
  let frozen := x.freezeReq.getD x.frozen
  let ins := s.fbRoutes i
  let fb := if r.kind = 3 then sat32 s.brickPower else sat32 ((ins.map Prod.fst).sum)
  let partly := (s.routes i.val 0).any fun q => !(s.routeIn q).2
  let (inj, test) := match s.testRec i.val with
    | some q => if x.test.state = TestState.running && x.test.j < q.testLen then testStep q x.test else (0, x.test)
    | none => (0, x.test)
  let point := ((s.testRec i.val).map Rec.testPoint).getD 0
  let sp := sat32 (setp + if point = 0 then inj else 0)
  let u := sat32 (sp - fb)
  let k := fun j => s.coef i.val j (if bank then 1 else 0)
  let js := List.range r.sections
  let fr := if frozen then some r.integ else none
  let (cMain, sat, vm) := mainCascade k fr js u false x.sec
  let (ysh, ovf, vs) := shadowCascade k fr js (shadowIn u) false x.sec
  let both := mapV vm fun j m => { m with mx1 := vs[j.val].mx1, mx2 := vs[j.val].mx2
                                          my1 := vs[j.val].my1, my2 := vs[j.val].my2, es := vs[j.val].es }
  let ps := pathStep x sat s.loop.satLimit s.loop.cleanLog2
  let (sec, seedSat) := reseed ps.shadow sat both
  let (osc, fires) := oscStep r x.osc u
  { slot :=
      { x with
        sec := sec, cMain := cMain, cShadow := shadowOut ysh, shadow := ps.shadow
        satWindow := ps.window, cleanRun := if seedSat then 0 else ps.clean
        altBank := bank, bankReq := none, frozen := frozen, freezeReq := none
        nBank := if bankSw then bump 8 x.nBank else x.nBank
        nShadow := if ps.changed && ps.shadow then bump 8 x.nShadow else x.nShadow
        nMain := if ps.changed && !ps.shadow then bump 8 x.nMain else x.nMain
        transfer := x.transfer || bankSw || ps.changed
        fbInvalid := false, fbPartial := partly, mainSat := sat, shadowOvf := ovf
        satCount := if sat then bump 32 x.satCount else x.satCount
        sp := sp, fb := fb, err := u, inj := inj, osc := osc, test := test
        routeBad := ins.map Prod.snd }
    ovf := ovf, changed := ps.changed, bankSw := bankSw, fires := fires }

/-- One evaluation of a slot that is not held, with the events it records (R137, R147, R149, R150, R157). -/
def State.slotRun (s : State) (i : Fin 64) (r : Rec) (setp : Int) : State :=
  let n := s.slotNext i r setp
  let s := (s.noteRoutes i (s.fbRoutes i)).updSlot i fun _ => n.slot
  let s := if n.ovf then s.ev 0x4003 i.val else s
  let s := if n.changed then s.ev (if n.slot.shadow then 0x4001 else 0x4002) i.val else s
  let s := if n.bankSw && !n.slot.altBank then s.ev 0x4012 i.val else s
  if n.fires then s.oscFire i r else s

/-- Every FEEDBACK route of a slot is invalid at the tick (R137). -/
def State.fbLost (s : State) (i : Fin 64) (r : Rec) : Bool :=
  let rts := s.routes i.val 0
  r.kind != 3 && !rts.isEmpty && rts.all fun q => !(s.routeIn q).2

/-- A slot that is due at the tick is evaluated: Basalt does not hold it, and it has a valid FEEDBACK route (R137, R156). What the
evaluation itself does, such as a firing that hands its group to Basalt, does not undo it (R139, R159). -/
def State.evaluates (s : State) (i : Fin 64) (r : Rec) : Bool := !(s.slot i).basaltHeld && !s.fbLost i r

/-- A due slot: held where every FEEDBACK route is invalid (R137), else evaluated. A slot held by Basalt is
not evaluated, and a test that waits on it ends (R156, R158). -/
def State.slotEval (s : State) (i : Fin 64) (r : Rec) (setp : Int) : State :=
  if (s.slot i).basaltHeld then s.testAbort i
  else if s.fbLost i r then
    let was := (s.slot i).fbInvalid
    let s := s.updSlot i fun x => { x with fbInvalid := true, fbPartial := true }
    (if was then s else s.ev 0x4020 i.val).testAbort i
  else s.slotRun i r setp

/-! The output. -/

/-- The input of a feed-forward term, and whether it is valid (R137, R142). -/
def State.ffInput (s : State) (i : Fin 64) (term : Nat) : Int × Bool :=
  if term = 2 then (s.loop.cometP, true)
  else
    match (s.routes i.val (term + 1)).head? with
    | some q => s.routeIn q
    | none => (0, true)

/-- The feed-forward sum of a slot, and whether an input is invalid (R139, R142). -/
def State.ffSum (s : State) (i : Fin 64) : Int × Bool :=
  let l := (s.recs 0x0402).filter fun q => q.u8 0x08 = i.val && q.u8 0x09 < 3
  ((l.map fun q => rshe (q.s32 0x0C * (s.ffInput i (q.u8 0x09)).1) (q.u8 0x10)).sum,
    l.any fun q => !(s.ffInput i (q.u8 0x09)).2)

/-- The output of a slot at a tick (R139, R151): a transfer begins at the first output of the new producer, which is that
of an evaluation. -/
def State.formOutput (s : State) (i : Fin 64) (evaluated : Bool) : State :=
  let x := s.slot i
  let (ff, bad) := s.ffSum i
  let point := ((s.testRec i.val).map Rec.testPoint).getD 0
  let v := (if x.shadow then x.cShadow else x.cMain) + ff + if point = 1 then x.inj else 0
  let x := if x.transfer && evaluated then
      { x with rampD := (x.transferFrom.getD x.out) - v, rampLen := s.rampLen, rampLeft := s.rampLen, transfer := false }
    else x
  let w := v + x.offset
  let out := sat32 w
  let s := s.updSlot i fun _ =>
    { x with ff := sat32 ff, ffInvalid := bad, out := out, outSat := out != w, off := x.offset, transferFrom := none }
  let s := if evaluated then s.capture i else s
  if evaluated then s.updSlot i fun x => { x with rampLeft := x.rampLeft - 1 } else s

/-- The parent term of a slot (R135): the parent's output of the tick, scaled by PARENT_SCALE. -/
def State.parentTerm (s : State) (i : Fin 64) (r : Rec) : Int :=
  match s.loop.slot[r.parent]? with
  | none => 0
  | some p =>
    match (s.recs 0x0402).find? fun q => q.u8 0x08 = i.val && q.u8 0x09 = 3 with
    | some q => rshe (q.s32 0x0C * p.out) (q.u8 0x10)
    | none => p.out

/-! RUN begins and ends, and Basalt returns. -/

/-- Entry into RUN from ARMED (R141): section states, cascade outputs and counts start at zero, on the main
path. -/
def Slot.fresh (x : Slot) : Slot :=
  { x with sec := Vector.replicate 16 {}, cMain := 0, cShadow := 0, shadow := false, satWindow := []
           cleanRun := 0, rampD := 0, rampLeft := 0, rampLen := 0, transfer := false, transferFrom := none
           off := 0, out := 0, applied := 0, ff := 0, inj := 0, fb := 0, err := 0, sp := 0, satCount := 0, nShadow := 0, nMain := 0
           nFire := 0, nBank := 0, osc := {}, routeBad := [], fbInvalid := false, fbPartial := false
           outSat := false, mainSat := false, shadowOvf := false, ffInvalid := false, basaltHeld := false }

/-- The engine's state at entry into RUN from ARMED. -/
def State.loopsEnterRun (s : State) : State :=
  { s with loop := { s.loop with slot := s.loop.slot.map Slot.fresh, active := true, reportSeen := false
                                 basaltGroups := Vector.replicate 4 false
                                 cometSrc := .none, cometP := 0, cometClamped := false, cometFcst := 0
                                 cometSched := 0, blendLeft := 0 } }

/-- RUN ends (R141, R143): no slot is evaluated, tests end, and the Comet term is zero. -/
def State.loopsStop (s : State) : State :=
  let s := s.testsAbort
  { s with loop := { s.loop with active := false, cometSrc := .none, cometP := 0, cometClamped := false
                                 cometFcst := 0, cometSched := 0, blendLeft := 0 } }

/-- A slot restarts after Basalt held the bus or its group (R153), on its main path (log entry 94). What it starts from
is set as its first output is formed (`State.seedSlot`). The counts of its invalid routes run on (R137). -/
def State.resumeSlot (s : State) (i : Fin 64) (target : Int) : State :=
  s.updSlot i fun x =>
    { x with sec := Vector.replicate 16 {}
             shadow := false, satWindow := [], cleanRun := 0, basaltHeld := false
             rampLeft := 0, off := 0, transfer := true, transferFrom := some target }

/-- The states a resumed slot starts from (R153): its last section's y1 and y2, where that integrates, at the target less the
feed-forward sum of the tick of its first output. Until its first evaluation its cascade output stands there too, so that the
first output is the target (log entry 94). -/
def State.seedSlot (s : State) (i : Fin 64) (r : Rec) : State :=
  match (s.slot i).transferFrom with
  | none => s
  | some target =>
    let last := r.sections - 1
    let y := sat32 (target - (s.ffSum i).1)
    s.updSlot i fun x =>
      { x with sec := mapV (Vector.replicate 16 ({} : SecState)) fun j _ =>
                 if r.integ = last && j.val = last then ({ y1 := y, y2 := y } : SecState).seedShadow else {}
               cMain := y, cShadow := y }

/-- The target of R153: for a CURRENT slot the reference of Basalt's last command, else the output last
applied before the hold. -/
def State.resumeTarget (s : State) (i : Fin 64) (r : Rec) : Int :=
  if r.kind = 1 then
    if h : r.group < 4 then s.refOfPeak ⟨r.group, h⟩ s.prot.basaltIpk[r.group] else 0
  else (s.slot i).applied

/-- Every configured slot restarts after a device BASALT (R153), and RUN begins without a report (R144). -/
def State.resumeAll (s : State) : State :=
  let s := { s with loop := { s.loop with active := true, reportSeen := false
                                          basaltGroups := Vector.replicate 4 false } }
  s.slotOrder.foldl (fun s i =>
    match s.slotRec i.val with
    | some r => s.resumeSlot i (s.resumeTarget i r)
    | none => s) s

/-- The CURRENT slot of a returned group restarts (R153). -/
def State.resumeGroup (s : State) (g : Fin 4) : State :=
  let s := { s with loop := { s.loop with basaltGroups := updV s.loop.basaltGroups g fun _ => false } }
  match s.currentSlot g.val with
  | none => s
  | some c =>
    if h : c < 64 then
      match s.slotRec c with
      | some r => s.resumeSlot ⟨c, h⟩ (s.resumeTarget ⟨c, h⟩ r)
      | none => s
    else s

end Sys2Proof.Machine
end

