-- ==== Sys2Proof/Machine/Predict.lean ====
section
/-! DEFINITION. The jerk-limited profile generator (R183, R350), the schedule-only prediction (R145) and
the Comet term (R143, R144, R146). -/

namespace Sys2Proof.Machine

/-! The profile generator: numbers of 24 fractional bits, each operation rounded half-even (R183). -/

/-- A whole number, or a rational one, with 24 fractional bits. -/
def fxOf (x : Int) (den : Nat) : Int := divHE (x * 2 ^ 24) den
/-- A product. -/
def fxMul (a b : Int) : Int := rshe (a * b) 24
/-- A quotient by a number that is not negative; by zero it is not stated (log entry 21). -/
def fxDiv (a b : Int) : Int := if b = 0 then Config.divZero a else divHE (a * 2 ^ 24) b.natAbs
/-- A square root, rounded towards zero. -/
def fxSqrt (a : Int) : Int := (isqrt (a.toNat * 2 ^ 24) : Nat)

/-- Position, velocity and acceleration of a generator. -/
structure Prof where
  /-- p -/
  p : Int
  /-- v -/
  v : Int
  /-- a -/
  a : Int
  deriving DecidableEq, Repr

/-- Where p comes to rest if it brakes now, from p (R183). -/
def Prof.brake (x : Prof) (amax jmax : Int) : Int × Int :=
  let t1 := fxDiv x.a.natAbs jmax
  let v1 := x.v + divHE (fxMul x.a t1) 2
  let d1 := fxMul x.v t1 + divHE (fxMul x.a (fxMul t1 t1)) 3
  let d2 :=
    if fxDiv (fxMul amax amax) jmax ≤ v1.natAbs then
      fxDiv (fxMul v1 v1.natAbs) (2 * amax) + fxDiv (fxMul v1 amax) (2 * jmax)
    else fxMul v1 (fxSqrt (fxDiv v1.natAbs jmax))
  (v1, d1 + d2)

/-- One tick of a generator of step `dt` towards a target (R183). -/
def Prof.step (x : Prof) (dt vmax amax jmax target : Int) : Prof :=
  let (v1, ds) := x.brake amax jmax
  let e := target - x.p
  let acmd :=
    if v1 != 0 && (v1.sign != e.sign || decide (e.natAbs ≤ ds.natAbs)) then -(v1.sign * amax)
    else if (v1.natAbs : Int) < vmax then e.sign * amax
    else 0
  let jdt := fxMul jmax dt
  let a := x.a + clampI (-jdt) jdt (acmd - x.a)
  let v := x.v + fxMul a dt
  let p := x.p + fxMul v dt
  let jdt2 := fxMul jdt dt
  if ((target - p).natAbs : Int) ≤ fxMul jdt2 dt && (v.natAbs : Int) ≤ jdt2 && (a.natAbs : Int) ≤ jdt then
    { p := target, v := 0, a := 0 }
  else { p := p, v := v, a := a }

/-- The bus generator of the shelf (R182, R183): units of uV and us. -/
def State.busProf (s : State) : Prof := { p := s.pwm.profP, v := s.pwm.profV, a := s.pwm.profA }
/-- One tick of it towards the target in force. -/
def State.busProfStep (s : State) : State :=
  let x := s.busProf.step (fxOf 2 1) (fxOf s.pwm.vmax 1) (fxOf s.pwm.amax 1000) (fxOf s.pwm.jmax 1000000)
    (fxOf (s.pwm.profTarget * 1000) 1)
  { s with pwm := { s.pwm with profP := x.p, profV := x.v, profA := x.a
                               reversing := x.v != 0
                                 && x.v.sign != (fxOf (s.pwm.profTarget * 1000) 1 - x.p).sign } }
/-- p in mV. -/
def State.busProfMv (s : State) : Int := divHE s.pwm.profP (1000 * 2 ^ 24)

/-- The grid profile of the shelf (R350): units of mW and ms. -/
def State.gridProf (s : State) : Prof := { p := s.est.gP, v := s.est.gV, a := s.est.gA }
/-- The same one tick on. -/
def State.gridNext (s : State) : Prof :=
  if s.est.gRunning then
    s.gridProf.step (fxOf 2 1000) (fxOf (10 * s.est.rampNow) 1) (fxOf (10 * s.est.amaxNow) 1000)
      (fxOf (10 * s.est.jmaxNow) 1000000) (fxOf (s.est.gridTarget * 1000) 1)
  else s.gridProf
/-- One tick of the grid profile. -/
def State.gridProfStep (s : State) : State :=
  let x := s.gridNext
  { s with est := { s.est with gP := x.p, gV := x.v, gA := x.a } }
/-- g in W: at the tick, and one tick on. -/
def State.gNow (s : State) : Int := divHE s.est.gP (1000 * 2 ^ 24)
def State.gNext (s : State) : Int := divHE s.gridNext.p (1000 * 2 ^ 24)

/-! The schedule-only prediction (R145). -/

/-- What an entry has moved a tray by at an instant of shelf time, mW. A throttled tray has not started
(R274); without a placement the tray moves at its standing slope. -/
def State.entryMove (s : State) (n : Fin 64) (t : Nat) (e : Entry) : Int :=
  if !tb e.mask n.val || (s.port n).throttled then 0
  else
    let o := e.offs.find? fun x => x.1 = n.val
    let off := (o.map fun x => x.2.1).getD 0
    let sl := (o.map fun x => x.2.2).getD (if 0 < e.dp then s.standRise n.val else s.standFall n.val)
    let m : Nat := min (1000 * e.dp.natAbs) (sl * (t - (e.t + off)))
    if 0 ≤ e.dp then m else -(m : Int)

/-- a[n](t) - a[n](t0), mW: an entry expired at t contributes to neither (DEDUCED, log entry 22). -/
def State.trayChange (s : State) (n : Fin 64) (t0 t : Nat) : Int :=
  ((s.tlk.table.filter fun e => decide (t < e.t + 1000 * e.duration)).map fun e =>
    s.entryMove n t e - s.entryMove n t0 e).sum

/-- The predicted load of trays at an instant, W (R145). A tray that has not reported contributes nothing
(DEDUCED, log entry 22); the sum is rounded once (log entry 126). -/
def State.predict (s : State) (trays : List (Fin 64)) (t : Nat) : Int :=
  divHE ((trays.map fun n =>
    match (s.port n).report with
    | some r => 1000 * (r.pTotal : Int) + s.trayChange n r.sampleT t
    | none => 0).sum) 1000

/-- The primary trays (R143, R212). -/
def State.primaries (s : State) : List (Fin 64) := (List.finRange 64).filter fun n => s.primaryTray n
/-- Those of one role (R212). -/
def State.roleTrays (s : State) (r : Nat) : List (Fin 64) :=
  s.primaries.filter fun n => (s.port n).roleTag = r

/-- Sum of the latest reports of trays, W. -/
def State.reportSum (s : State) (l : List (Fin 64)) : Int :=
  (l.map fun n => (((s.port n).report.map Report.pTotal).getD 0 : Int)).sum

/-! The Comet term (R143 to R146). -/

/-- The newest short frame that is usable at the tick: one delivered in it is first usable in the next (R144). -/
def State.frameInUse (s : State) : Frame := if s.fce.short.tD < s.sys.tick then s.fce.short else s.fce.shortPrev

/-- Its value for tick k + 1, where its horizon covers it (R144). -/
def State.frameNext (s : State) : Option Int :=
  let f := s.frameInUse
  if f.tIn ≤ s.sys.tick then f.lhat[s.sys.tick - f.tIn]? else none

/-- The source of R144 at the tick. -/
def State.cometSource (s : State) : CometSrc :=
  let f := s.frameInUse
  if f.tD < s.sys.tick && s.sys.tick - f.tD ≤ 2 && s.frameNext.isSome then .forecast
  else if s.loop.reportSeen then .schedule
  else .none

/-- CLAMP_KW in W: 0 stands for 1 (R162). -/
def State.cometClamp (s : State) : Int := 1000 * (max 1 s.loop.clampKw : Nat)

/-- The term of one source for tick k + 1, unblended: none where it gives no value (R143, R146). -/
def State.cometRaw (s : State) (sched : Int) : CometSrc → Option Int
  | .forecast => s.frameNext.map fun x => x - s.gNext
  | .schedule => some (sched - s.gNext)
  | .none => some (-s.gNext)

/-- Codes of LOOP_COMET_STATUS.SRC (R163). -/
def CometSrc.code : CometSrc → Nat
  | .none => 0 | .forecast => 1 | .schedule => 2

/-- AGE of the newest short forecast at the tick, whatever the device state (R163). -/
def State.cometAgeTick (s : State) : State :=
  let f := s.fce.short
  { s with loop := { s.loop with cometAge := if f.lhat.isEmpty then 255 else min 254 (s.sys.tick - f.tD) } }

/-- The Comet term of a tick of RUN (R143, R144, R146). -/
def State.cometTick (s : State) : State :=
  let c := s.cometClamp
  let sched := s.predict s.primaries (s.sys.timeNs + 2000)
  let src := s.cometSource
  let old := s.loop.cometSrc
  let raw := (s.cometRaw sched src).getD 0
  let new := clampI (-c) c raw
  let l := s.loop
  let l :=
    if src = old then l
    else
      let before := if l.blendLeft = 0 then
          ((s.cometRaw sched old).map (clampI (-c) c)).getD l.cometP
        else l.cometP
      let b := min l.blend 64
      { l with blendD := before - new, blendLen := b, blendLeft := b, cometSrc := src }
  let term := new + if l.blendLeft = 0 then 0 else divHE (l.blendD * l.blendLeft) l.blendLen
  let l := { l with blendLeft := l.blendLeft - 1, cometP := term, cometClamped := new != raw
                    cometSched := sched
                    cometFcst := if src = .forecast then s.frameNext.getD 0 else 0 }
  let s := { s with loop := l }
  let s := if src = old then s else s.ev 0x4040 noInst (src.code + 16 * old.code)
  if new != raw then s.ev 0x4041 else s

end Sys2Proof.Machine
end

