-- ==== Sys2Proof/Machine/Storage.lean ====
section
/-! DEFINITION. Memories, DMA channels and tier space (R456 to R468), the Obsidian store's frames and
readout (R476 to R480) and the capture ring's freeze (R484). -/

namespace Sys2Proof.Machine

/-! The address spaces of R461. -/

/-- Bytes of a space: SRAM 512 MiB, HBM 256 GB, tier space 128 GiB, MRAM 64 MiB (R456, R461). -/
def spaceSize (sp : Nat) : Nat :=
  match sp with
  | 0 => 2 ^ 29
  | 1 => 256000000000
  | 2 => 2 ^ 37
  | 3 => 2 ^ 26
  | _ => 0

/-- The space of a 64-bit DMA address (R461). -/
def dmaSpace (a : Nat) : Nat := fld a 56 8
/-- The byte address of a 64-bit DMA address (R461). -/
def dmaAddr (a : Nat) : Nat := fld a 0 56

/-- The 32 bytes of an event record (R473); a record with an uncorrectable error reads free bytes. -/
def Event.bytes (e : Event) (fv : Nat) : List Byte :=
  if e.bad then (List.range 32).map (Config.freeByte fv)
  else
    let b := leBytes 2 e.code ++ leBytes 2 e.inst ++ leBytes 4 e.seq ++ leBytes 8 e.time
      ++ leBytes 8 e.tick ++ leBytes 4 e.data ++ leBytes 2 e.suppressed
    b ++ leBytes 2 (crc16 b)

/-- The 512 bytes of a frame: 256 samples in key order (R477), least significant byte first. -/
def frameBytes (f : List Int) : List Byte :=
  (List.range 256).flatMap fun k => leBytes 2 (codeS 16 (f.getD k 0))

/-- Frames a slot holds (R478). -/
def obsFrames : Nat := 20500

/-- The code of a slot's state (R491), with CLOSING told from LIVE. -/
def ObsState.headCode : ObsState → Nat
  | .free => 0 | .live => 1 | .closed => 2 | .kept => 3 | .closing => 4

/-- A key-channel map: 256 entries of SOURCE u16 and SHIFT u8, 0xFFFF for a key index without a record. -/
def keyMapBytes (l : List (Nat × Nat × Nat)) : List Byte :=
  (List.range 256).flatMap fun k => match l.find? fun x => x.1 = k with
    | some x => leBytes 2 x.2.1 ++ leBytes 2 x.2.2
    | none => leBytes 4 0xFFFF

/-- The header of a slot (R479): state, tick, time and index of its oldest frame, the last frame, HOLD_FRAME, the marks and
the key-channel map (the places of its fields are a DESIGN CHOICE, log entry 143). -/
def ObsSlot.header (x : ObsSlot) : List Byte :=
  let old := x.frames.getLast?
  let marks := (List.range 8).flatMap fun k => match x.marks[k]? with
    | some m => leBytes 4 m.code ++ leBytes 4 m.frame ++ leBytes 8 m.time
    | none => leBytes 16 0
  leBytes 4 x.state.headCode ++ leBytes 4 (x.written - x.frames.length) ++ leBytes 8 (old.elim 0 ObsFrame.tick)
  ++ leBytes 8 (old.elim 0 ObsFrame.time) ++ leBytes 4 (x.written - 1) ++ leBytes 4 (x.holdFrame.getD 0xFFFFFFFF)
  ++ leBytes 8 x.marks.length ++ marks ++ keyMapBytes x.keyMap

/-- A byte of an Obsidian slot: a 4 KiB header, then the frames, circulating (R478, R479). -/
def ObsSlot.byte (x : ObsSlot) (off : Nat) : Byte :=
  if off < 4096 then x.header.getD off 0
  else
    let p := (off - 4096) / 512
    let last := (x.written + obsFrames - 1) % obsFrames
    let age := (last + obsFrames - p) % obsFrames
    if p < obsFrames && age < x.frames.length then
      (frameBytes ((x.frames[age]?).elim [] ObsFrame.samples)).getD ((off - 4096) % 512) 0
    else 0

/-- The key-channel map in force (R477). -/
def State.keyMap (s : State) : List (Nat × Nat × Nat) :=
  (s.recs 0x0303).map fun r => (r.u16 0x08, r.u16 0x0A, r.u8 0x0C)

/-- The directory (R476): magic, format and SERIAL, the write position and wrap count of the first area, the recent area and
the slots, the slots' states, and the key-channel map in force (the places of its fields are a DESIGN CHOICE, log entry 143). -/
def State.obsDirectory (s : State) : List Byte :=
  let slots := s.evr.slot.toList
  leBytes 4 0x4F425344 ++ leBytes 2 1 ++ leBytes 2 0 ++ bytesAt s.sec.serial 0 16
  ++ leBytes 4 s.evr.first.length ++ leBytes 4 0 ++ leBytes 4 s.evr.recentPos ++ leBytes 4 s.evr.recentWraps
  ++ (slots.flatMap fun x => leBytes 4 (x.written % obsFrames) ++ leBytes 4 (x.written / obsFrames))
  ++ (slots.flatMap fun x => leBytes 1 x.state.headCode) ++ keyMapBytes s.keyMap

/-- The safe-envelope mirror (R263, R476): the digest of its bit-stream and its records (the places a DESIGN CHOICE, log entry
143). -/
def State.mirrorBytes (s : State) : List Byte :=
  (s.tlk.mirrorDigest.getD []) ++ (s.tlk.mirror.getD []).flatMap Rec.bytes

/-- A byte of the MRAM (R476). Record n of the recent area stands at place n mod 65,536 (log entry 11). -/
def State.mramByte (s : State) (a : Nat) : Byte :=
  if a < 0x10000 then s.obsDirectory.getD a 0
  else if a < 0x20000 then s.mirrorBytes.getD (a - 0x10000) 0
  else if a < 0x60000 then
    match s.evr.first[(a - 0x20000) / 32]? with
    | some e => (e.bytes s.fv).getD (a % 32) 0
    | none => 0
  else if a < 0x260000 then
    let p := (a - 0x60000) / 32
    let age := (s.evr.recentPos + recentCap - 1 - p) % recentCap
    match s.evr.recent[age]? with
    | some e => (e.bytes s.fv).getD (a % 32) 0
    | none => 0
  else if a < 0x2E60000 then
    match s.evr.slot[(a - 0x260000) / 0xB00000]? with
    | some x => x.byte ((a - 0x260000) % 0xB00000)
    | none => 0
  else s.mem.mram.read a

/-- `n` bytes of a space. -/
def State.spaceRead (s : State) (sp a n : Nat) : List Byte :=
  match sp with
  | 0 => s.mem.sram.readN a n
  | 1 => s.mem.hbm.readN a n
  | 2 => s.mem.tier.readN a n
  | 3 => (List.range n).map fun i => s.mramByte (a + i)
  | _ => []

/-- Bytes written into a space; none lies outside it, and none reaches the MRAM. -/
def State.spaceWrite (s : State) (sp a : Nat) (l : List Byte) : State :=
  let l := l.take (spaceSize sp - a)
  match sp with
  | 0 => { s with mem := { s.mem with sram := s.mem.sram.writeN a l } }
  | 1 => { s with mem := { s.mem with hbm := s.mem.hbm.writeN a l } }
  | 2 => { s with mem := { s.mem with tier := s.mem.tier.writeN a l } }
  | _ => s

/-! DMA channels. -/

/-- A change of one channel. -/
def State.updDma (s : State) (n : Fin 32) (f : DmaCh → DmaCh) : State :=
  { s with mem := { s.mem with ch := updV s.mem.ch n f } }

/-- Whether a span of LINES lines leaves its space (R462). -/
def DmaSet.spanOk (d : DmaSet) (a stride : Nat) : Bool :=
  dmaAddr a + (d.lines - 1) * stride + d.lineLen ≤ spaceSize (dmaSpace a)

/-- The checks of R462; tier space is for D28 to D31, and MRAM is no destination. -/
def DmaSet.ok (d : DmaSet) (n : Nat) : Bool :=
  let m64 := fun x => x % 64 == 0
  m64 d.src && m64 d.dst && m64 d.lineLen && m64 d.srcStride && m64 d.dstStride
  && 64 ≤ d.lineLen && d.lineLen ≤ 16777216 && 1 ≤ d.lines && d.lines ≤ 65535
  && d.spanOk d.src d.srcStride && d.spanOk d.dst d.dstStride
  && (28 ≤ n || (dmaSpace d.src != 2 && dmaSpace d.dst != 2))
  && dmaSpace d.dst != 3

/-- A channel occupies its descriptor (DMA_BUSY, R488). -/
def DmaCh.busy (c : DmaCh) : Bool :=
  c.state = .running || c.state = .suspended || c.state = .preempted

/-- A control-critical channel runs (R463). -/
def State.critRunning (s : State) : Bool :=
  (List.finRange 32).any fun i => s.mem.ch[i.val].busy && s.mem.ch[i.val].act.crit && i.val < 28

/-- Class of a tier channel under R72: D31 writes history, DIAGNOSTICS; the others serve forecast
(DEDUCED, log entry 12). -/
def tierClass (n : Nat) : Nat := if n = 31 then 4 else 3

/-- A tier channel is pre-empted by a control-critical burst (R468). -/
def State.preemptCh (s : State) (n : Fin 32) : State :=
  ({ s with mem := { s.mem with tierPreempts := bump 32 s.mem.tierPreempts } }.updDma n
    fun c => { c with state := .preempted, displaced := true }).displace 4 n.val 1 (tierClass n.val)

/-- Every running tier channel is pre-empted (R468). -/
def State.preemptAll (s : State) : State :=
  (List.finRange 32).foldl (fun s i =>
    if 28 ≤ i.val && s.mem.ch[i.val].state = .running then s.preemptCh i else s) s

/-- Pre-empted tier channels resume once no control-critical burst waits (R468). -/
def State.resumeTier (s : State) : State :=
  if s.critRunning then s
  else (List.finRange 32).foldl (fun s i =>
    if s.mem.ch[i.val].state = .preempted then
      (s.updDma i fun c => { c with state := .running, displaced := false }).undisplace 4 i.val 1
        (tierClass i.val)
    else s) s

/-- The active set of a channel begins (R462, R463): the checks of R462 are run first, and a programming
error ends the descriptor at once (R465). -/
def State.dmaBegin (s : State) (n : Fin 32) : State :=
  if (s.mem.ch[n.val].act).ok n.val then
    let s := s.updDma n fun c =>
      { c with state := .running, line := 0, pos := 0, held := [], crcRun := 0xFFFFFFFF, faultPage := none
               displaced := false }
    if n.val < 28 then (if s.mem.ch[n.val].act.crit then s.preemptAll else s)
    else if s.critRunning then s.preemptCh n else s
  else
    ({ s with mem := { s.mem with progErrors := bump 32 s.mem.progErrors } }.updDma n fun c =>
      { c with state := .progError, displaced := false, descriptors := wrapU 16 (c.descriptors + 1)
               irq := c.irq + 1 }).ev 0xC010 n.val

/-- The armed shadow set moves into the active set and starts (R464). -/
def State.dmaChain (s : State) (n : Fin 32) : State :=
  if s.mem.ch[n.val].shadow.arm then
    (s.updDma n fun c =>
      { c with act := { c.shadow with arm := false }, shadow := { c.shadow with arm := false } }).dmaBegin n
  else s

/-- A descriptor ends in a state, with exactly one interrupt, and the channel goes on with an armed
shadow set (R464, R465). One that ends while pre-empted keeps DISPLACED until its next start (R74). -/
def State.dmaEnd (s : State) (n : Fin 32) (st : DmaState) : State :=
  ((s.updDma n fun c =>
    { c with state := st, faultPage := none
             descriptors := wrapU 16 (c.descriptors + 1), irq := c.irq + 1 }).dmaChain n).resumeTier

/-- Bytes of a tier page, 2 MiB (R466). -/
def pageSize : Nat := 2097152

/-- The tier pages of `k` bytes of a space (R466). -/
def tierPages (sp a k : Nat) : List Nat :=
  if sp = 2 then
    (List.range ((a + k - 1) / pageSize + 1 - a / pageSize)).map (a / pageSize + ·)
  else []

/-- A page is resident (R466). -/
def State.pageResident (s : State) (p : Nat) : Bool := s.mem.resident.any fun x => x.1 == p

/-- Resident pages have been used, and written where `w` holds: they come last among the least recently used
(R467). -/
def State.usePages (s : State) (pages : List Nat) (w : Bool) : State :=
  if pages.isEmpty then s
  else { s with mem := { s.mem with
    resident := (s.mem.resident.filter fun x => !pages.contains x.1)
      ++ ((s.mem.resident.filter fun x => pages.contains x.1).map fun x => (x.1, x.2 || w)) } }

/-- The next burst of a channel: its source, its destination and its bytes, up to 4 KiB of the line (R463). -/
def DmaCh.next (c : DmaCh) : Nat × Nat × Nat :=
  (dmaAddr c.act.src + c.line * c.act.srcStride + c.pos, dmaAddr c.act.dst + c.line * c.act.dstStride + c.pos
  , min 4096 (c.act.lineLen - c.pos))

/-- The tier pages its next burst names. -/
def DmaCh.nextPages (c : DmaCh) : List Nat :=
  tierPages (dmaSpace c.act.src) c.next.1 c.next.2.2 ++ tierPages (dmaSpace c.act.dst) c.next.2.1 c.next.2.2

/-- The bytes of one burst: read, those held from before a fault as they were read then, and then written (R463, R467). -/
def State.dmaMove (s : State) (n : Fin 32) (sp a dp b k : Nat) : State :=
  let held := s.mem.ch[n.val].held
  let data := held ++ s.spaceRead sp (a + held.length) (k - held.length)
  ((s.spaceWrite dp b data).usePages (tierPages sp a k) false).usePages (tierPages dp b k) true |>.updDma n
    fun c =>
      let c := { c with crcRun := data.foldl (crcByteR 0x82F63B78) c.crcRun, held := [] }
      if c.pos + k < c.act.lineLen then { c with pos := c.pos + k }
      else { c with line := c.line + 1, pos := 0 }

/-- One burst of a channel (R463). Nothing moves while a page it names is absent (R467). -/
def State.dmaBurst (s : State) (n : Fin 32) : State :=
  let c := s.mem.ch[n.val]
  if c.line < c.act.lines && c.nextPages.all s.pageResident then
    s.dmaMove n (dmaSpace c.act.src) c.next.1 (dmaSpace c.act.dst) c.next.2.1 c.next.2.2
  else s

/-- `k` bursts of a channel. -/
def State.dmaBursts (s : State) (n : Fin 32) : Nat → State
  | 0 => s
  | k + 1 => (s.dmaBurst n).dmaBursts n k

/-- The bursts that tier channels have moved, where they stop at once. -/
def State.dmaMoved (s : State) (moved : List (Fin 32 × Nat)) : State :=
  moved.foldl (fun s x =>
    if s.mem.ch[x.1.val].state = .running && 28 ≤ x.1.val then s.dmaBursts x.1 x.2 else s) s

/-! The arbiter (R463). -/

/-- A channel waits for a grant: it runs, and its next burst can move. -/
def State.asks (s : State) (n : Fin 32) : Bool :=
  let c := s.mem.ch[n.val]
  c.state = .running && decide (c.line < c.act.lines) && c.nextPages.all s.pageResident

/-- The class of a channel: CRIT set, any other of D00 to D27, a tier channel. -/
def State.dmaClass (s : State) (n : Fin 32) : Fin 3 := if 28 ≤ n.val then 2 else if s.mem.ch[n.val].act.crit then 0 else 1

/-- The channel of a class that comes next, round-robin by channel number. -/
def State.grantIn (s : State) (k : Fin 3) : Option (Fin 32) :=
  let l := (List.finRange 32).filter fun n => s.asks n && s.dmaClass n = k
  (l.find? fun n => s.mem.lastGrant[k.val] < n.val).orElse fun _ => l.head?

/-- The channel that gets the next burst. -/
def State.grant (s : State) : Option (Fin 32) :=
  ((s.grantIn 0).orElse fun _ => s.grantIn 1).orElse fun _ => s.grantIn 2

/-- The arbiter grants bursts until a channel has moved `k` of its own, or asks no more; with a bound on the grants. -/
def State.arbRun (s : State) (n : Fin 32) : Nat → Nat → State
  | 0, _ => s
  | f + 1, k =>
    if k = 0 || !s.asks n then s
    else
      match s.grant with
      | none => s
      | some c =>
        let s := { s with mem := { s.mem with lastGrant := updV s.mem.lastGrant (s.dmaClass c) fun _ => c.val } }
        (s.dmaBurst c).arbRun n f (if c = n then k - 1 else k)

/-- Bursts of a whole transfer (R463). -/
def DmaSet.bursts (d : DmaSet) : Nat := d.lines * ceilDiv d.lineLen 4096

/-- All bursts of the channels that run. -/
def State.dmaLoad (s : State) : Nat :=
  (s.mem.ch.toList.map fun c => if c.state = .running then c.act.bursts else 0).sum

/-- A channel moves `k` further bursts, among the grants of the others (R463). -/
def State.dmaRun (s : State) (n : Fin 32) (k : Nat) : State := s.arbRun n s.dmaLoad (min k s.mem.ch[n.val].act.bursts)

/-- RESIDUE and RESIDUE_B from the present position (R465, R488). -/
def DmaCh.withResidue (c : DmaCh) : DmaCh :=
  { c with residue := c.act.lines - c.line
           residueB := if c.line < c.act.lines then c.act.lineLen - c.pos else 0 }

/-- Where the trailer goes: behind the last destination line (R464). -/
def DmaSet.trailerAt (d : DmaSet) : Nat := dmaAddr d.dst + (d.lines - 1) * d.dstStride + d.lineLen

/-- The tier pages a transfer names, its trailer with it (R464, R466). -/
def DmaSet.pages (d : DmaSet) : List Nat :=
  let span := fun a stride => (List.range d.lines).flatMap fun j =>
    tierPages (dmaSpace a) (dmaAddr a + j * stride) d.lineLen
  span d.src d.srcStride ++ span d.dst d.dstStride
    ++ if d.crcWb then tierPages (dmaSpace d.dst) d.trailerAt 64 else []

/-- A transfer completes: CRC, trailer, interrupt and the armed shadow set (R464). -/
def State.dmaDone (s : State) (n : Fin 32) : State :=
  let s := s.dmaRun n s.mem.ch[n.val].act.bursts
  let c := s.mem.ch[n.val]
  let d := c.act
  let crc := c.crcRun ^^^ 0xFFFFFFFF
  let s :=
    if d.crcWb then
      (s.spaceWrite (dmaSpace d.dst) d.trailerAt (leBytes 4 crc ++ leBytes 8 (d.lines * d.lineLen) ++ List.replicate 52 0)).usePages
        (tierPages (dmaSpace d.dst) d.trailerAt 64) true
    else s
  (s.updDma n fun c => { c with crc := crc, crcValid := true, residue := 0, residueB := 0 }).dmaEnd n .done

/-- A descriptor's fields as the firmware writes them before a START. -/
def dmaSetOf (d : Sys2Proof.DmaDesc) (n : Nat) (arm : Bool) : DmaSet :=
  { src := wrapU 64 d.src, dst := wrapU 64 d.dst, lineLen := wrapU 32 d.lineLen, lines := wrapU 16 d.lines
    srcStride := wrapU 32 d.srcStride, dstStride := wrapU 32 d.dstStride, crcWb := d.crcWb
    crit := d.crit && n < 28, arm := arm }

/-- DMA_START (R462, R463, R465): the firmware's descriptor, and the shadow set it arms. A channel whose
descriptor runs takes no START. Tier channels that it pre-empts have moved `moved` (R468). -/
def execDmaStart (n : Fin 32) (d : Sys2Proof.DmaDesc) (shadow : Option Sys2Proof.DmaDesc) (moved : List (Fin 32 × Nat))
    (s : State) : Host.Outcome State Fault Refusal :=
  if s.mem.ch[n.val].busy || !s.lit then .next s
  else
    let s := if d.crit && n.val < 28 then s.dmaMoved moved else s
    let s := s.updDma n fun c =>
      { c with act := dmaSetOf d n.val false
               shadow := match shadow with
                 | some x => dmaSetOf x n.val true
                 | none => { c.shadow with arm := false } }
    let s := s.dmaBegin n
    .next (if s.mem.ch[n.val].state = .progError then s.dmaChain n else s)

/-- DMA_DONE (R464). It comes about for a running channel whose tier pages are resident. -/
def execDmaDone (n : Fin 32) (s : State) : Host.Outcome State Fault Refusal :=
  if s.mem.ch[n.val].state = .running && s.mem.ch[n.val].act.pages.all s.pageResident then
    .next (s.dmaDone n)
  else .next s

/-- The descriptor of a channel ends BAD (R465): no further burst issues, and the residue counts from the
failed burst. -/
def State.dmaBad (s : State) (n : Fin 32) : State :=
  (({ s with mem := { s.mem with busErrors := bump 32 s.mem.busErrors } }.updDma n
    DmaCh.withResidue).ev 0xC011 n.val).dmaEnd n .bad

/-- DMA_BUS_ERROR (R465): `bursts` further bursts complete before the one that fails. -/
def execDmaBusError (n : Fin 32) (bursts : Nat) (s : State) : Host.Outcome State Fault Refusal :=
  if s.mem.ch[n.val].state = .running then
    .next ((s.dmaRun n bursts).dmaBad n)
  else .next s

/-- DMA_ABORT (R465, R468): `bursts` further bursts complete, the one in progress with them; a suspended channel's
held beats are discarded and its migration goes on. -/
def execDmaAbort (n : Fin 32) (bursts : Nat) (s : State) : Host.Outcome State Fault Refusal :=
  if s.mem.ch[n.val].busy then
    let s := if s.mem.ch[n.val].state = .running then s.dmaRun n bursts else s
    .next (((s.updDma n fun c => { c.withResidue with held := [] }).ev 0xC012 n.val).dmaEnd n .aborted)
  else .next s

/-- A migration starts (R467). -/
def State.tierFault (s : State) (inst page : Nat) : State :=
  { s with mem := { s.mem with
      tierFaults := bump 32 s.mem.tierFaults
      migrating := if s.mem.migrating.contains page then s.mem.migrating else s.mem.migrating ++ [page] } }.ev
    0xC020 inst

/-- A weight copy of an instance waits for a page (R230). -/
def State.copyFault (s : State) (i : Fin 10) (page : Nat) : State :=
  { s with fce := { s.fce with
      copyFaults := bump 32 s.fce.copyFaults
      inst := updV s.fce.inst i fun x => { x with copyWait := page :: x.copyWait } } }.ev 0x6040 i.val

/-- The copies that waited for a page wait no longer (R230, R467). -/
def State.copyWake (s : State) (page : Nat) : State :=
  { s with fce := { s.fce with inst := s.fce.inst.map fun x =>
      { x with copyWait := x.copyWait.filter (· != page) } } }

/-- A channel holds the beats of the burst in progress that it has read, up to a number of them (R467). -/
def State.holdBeats (s : State) (n : Fin 32) (beats : Nat) : State :=
  let c := s.mem.ch[n.val]
  let k := min (64 * beats) c.next.2.2
  s.updDma n fun c =>
    { c with held := c.held ++ s.spaceRead (dmaSpace c.act.src) (c.next.1 + c.held.length) (k - c.held.length) }

/-- TIER_FAULT (R467, R468): a beat of a tier channel, after `bursts` further bursts and `beats` beats of the next, or of a
forecast load unit meets an absent page. -/
def execTierFault (unit : Sys2Proof.TierUnit) (bursts beats page : Nat) (s : State) :
    Host.Outcome State Fault Refusal :=
  if s.pageResident page || 65536 ≤ page then .next s
  else match unit with
    | .load i => .next ((s.copyFault i page).tierFault noInst page)
    | .dma n =>
      if s.mem.ch[n.val].state = .running && 28 ≤ n.val then
        let s := (s.dmaRun n bursts).holdBeats n beats
        .next ((s.updDma n fun c => { c with state := .suspended, faultPage := some page }).tierFault n.val page)
      else .next s

/-- Frames of the tier pool (R457). -/
def tierFrames : Nat := 16384

/-- Length of the bit-stream in staging: a push that is open, or an image that is checked (R79, R466). -/
def State.stagingLen (s : State) : Nat := (s.cfg.push.map Push.length).getD s.cfg.staging.length

/-- The tier pages that hold the staging (R466; which ones is a free value, log entry 47). -/
def stagingPages (len : Nat) : List Nat := (List.range (ceilDiv len pageSize)).map fun k => Config.stagingPage k % 65536

/-- Whether a resident page may be a victim: it is not pinned by staging, nor by a descriptor that has it open (R466,
R468). -/
def State.evictable (s : State) (x : Nat × Bool) : Bool :=
  !(stagingPages s.stagingLen).contains x.1
  && !((List.finRange 32).any fun i => s.mem.ch[i.val].busy && s.mem.ch[i.val].act.pages.contains x.1)

/-- A resident page gives up its frame, written back first if it is dirty (R467). -/
def State.evictPage (s : State) (x : Nat × Bool) : State :=
  { s with mem := { s.mem with
      resident := s.mem.resident.filter fun y => y.1 != x.1
      backing := if x.2 then s.mem.backing.withRange s.mem.tier (x.1 * pageSize) ((x.1 + 1) * pageSize)
        else s.mem.backing } }

/-- A page is read from tier backing into a free frame (R467). -/
def State.bringPage (s : State) (page : Nat) : State :=
  { s with mem := { s.mem with
      resident := s.mem.resident ++ [(page, false)]
      tier := s.mem.tier.withRange s.mem.backing (page * pageSize) ((page + 1) * pageSize) } }

/-- The frame a page comes into: a free one, or that of the least recently used page that may go; none where every
frame is pinned (R467, R468). -/
def State.admitPage (s : State) (page : Nat) : Option State :=
  if s.mem.resident.length < tierFrames then some (s.bringPage page)
  else (s.mem.resident.find? s.evictable).map fun v => (s.evictPage v).bringPage page

/-- A page is brought into a frame where it is absent and one can be had (R466, R467). -/
def State.bringIn (s : State) (page : Nat) : State := if s.pageResident page then s else (s.admitPage page).getD s

/-- The firmware writes bytes into a tier page at an offset (R466). -/
def State.tierPut (s : State) (page off : Nat) (l : List Byte) : State :=
  ((s.bringIn page).spaceWrite 2 (page * pageSize + off) l).usePages [page] true

/-- The staging pages of a push are brought in, and pinned while it lasts (R466). -/
def State.stageBegin (s : State) (len : Nat) : State :=
  (stagingPages len).foldl State.bringIn s

/-- A piece of a push goes into its staging pages (R466). -/
def State.stagePut (s : State) (off : Nat) (l : List Byte) : State :=
  let page := fun (o : Nat) => Config.stagingPage (o / pageSize) % 65536
  let k := pageSize - off % pageSize
  let s := s.tierPut (page off) (off % pageSize) (l.take k)
  if k < l.length then s.tierPut (page (off + k)) 0 (l.drop k) else s

/-- Average of the samples of the last 1 s, round-half-even. -/
def avgOf (l : List (Nat × Nat)) : Nat := divHEN ((l.map (·.2)).sum) l.length

/-- The samples of the last 1 s, 500,000 ticks, with a new one. -/
def addSample (l : List (Nat × Nat)) (tick v : Nat) : List (Nat × Nat) :=
  (tick, v) :: l.filter fun x => tick < x.1 + 500000

/-- A channel that waited for a page resumes, unless a control-critical burst waits (R467, R468). -/
def State.wakeCh (s : State) (n : Fin 32) (page : Nat) : State :=
  if s.mem.ch[n.val].state = .suspended && s.mem.ch[n.val].faultPage = some page then
    let s := s.updDma n fun c => { c with state := .running, faultPage := none }
    if s.critRunning then s.preemptCh n else s
  else s

/-- A channel that waited for a page whose backing copy fails ends BAD (R460). -/
def State.failCh (s : State) (n : Fin 32) (page : Nat) : State :=
  if s.mem.ch[n.val].state = .suspended && s.mem.ch[n.val].faultPage = some page then s.dmaBad n else s

/-- TIER_MIGRATION_DONE (R467, R460): the page is resident after `ns` nanoseconds, or its backing copy
fails and every descriptor that waits for it is BAD. It does not come about while every frame is pinned. -/
def execTierMigrationDone (page ns : Nat) (ok : Bool) (s : State) : Host.Outcome State Fault Refusal :=
  if !s.mem.migrating.contains page then .next s
  else if ok then
    match s.admitPage page with
    | none => .next s
    | some s =>
      let m := addSample s.mem.migrations s.sys.tick ns
      let s := { s with mem := { s.mem with
        migrating := s.mem.migrating.filter (· != page), migrations := m } }
      .next (((List.finRange 32).foldl (fun s i => s.wakeCh i page) s).copyWake page)
  else
    let s := { s with mem := { s.mem with migrating := s.mem.migrating.filter (· != page) } }.ev 0xC021
    .next ((List.finRange 32).foldl (fun s i => s.failCh i page) s)

/-- A corrected symbol of a region is counted and recorded (R459): 0 SRAM, 1 HBM, 2 flash, 3 MRAM, 4 internal buses. -/
def State.eccFixed (s : State) (region : Fin 5) : State :=
  { s with evr := { s.evr with eccCorr := updV s.evr.eccCorr region (bump 32) } }.ev 0xC001 region.val

/-- An uncorrectable error of a region is counted and recorded (R460). -/
def State.eccLost (s : State) (region : Fin 5) : State :=
  { s with evr := { s.evr with eccUncorr := updV s.evr.eccUncorr region (bump 32) } }.ev 0xC002 region.val

/-- ECC_CORRECTED (R459). -/
def execEccCorrected (region : Fin 5) (s : State) : Host.Outcome State Fault Refusal := .next (s.eccFixed region)

/-! The recorder's controls. -/

/-- RECORDS_LOST (R474). -/
def execRecordsLost (s : State) : Host.Outcome State Fault Refusal :=
  if s.evr.lossOwed && s.evr.staging.length < stagingCap then
    .next ({ s with evr := { s.evr with lossOwed := false } }.ev 0xC040)
  else .next s

/-- The first area is emptied (R474). -/
def State.firstClear (s : State) : State :=
  { s with evr := { s.evr with first := [], firstFull := false } }.ev 0xC042

/-- FIRST_CLEAR (R474, R491). -/
def execFirstClear (sess : Fin 64) (s : State) : Host.Outcome State Fault Refusal :=
  .next (s.regCmd sess .ia State.firstClear)

/-- A write of EVR_USER: a code outside class 0xF is ignored (R472, R492). -/
def State.evrUser (s : State) (code inst : Nat) : State :=
  if code / 4096 = 0xF then s.ev (wrapU 16 code) (wrapU 16 inst) s.evr.userData else s

/-- EVR_USER (R472, R492). -/
def execEvrUser (sess : Fin 64) (code inst : BitVec 16) (s : State) : Host.Outcome State Fault Refusal :=
  .next (s.regCmd sess .ox fun s => s.evrUser code.toNat inst.toNat)

/-! The Obsidian store. -/

/-- The writer starts with the first active configuration (R478): a slot becomes LIVE. -/
def State.writerStart (s : State) : State :=
  if s.evr.writer then s
  else
    let v := { s.evr with writer := true, keySums := [], keyTicks := 0 }
    let v := match v.slotWhere fun x => x.state = .live with
      | some i => v.makeLive i
      | none => match v.nextLive with
        | some i => v.makeLive i
        | none => v
    { s with evr := v }

/-- One sample of a key channel from the sum of its 50 per-tick values (R477). -/
def keySample (s : State) (sums : List Int) (k : Nat) : Int :=
  match s.rec16 0x0303 0x08 k with
  | some r => sat16 (rshe (divHE (sums.getD k 0) 50) (r.u8 0x0C))
  | none => 0

/-- A frame enters a slot: the LIVE one, and a CLOSING one with frames left (R478). -/
def ObsSlot.addFrame (x : ObsSlot) (f : ObsFrame) (map : List (Nat × Nat × Nat)) : ObsSlot :=
  if x.state = .live || (x.state = .closing && 0 < x.left) then
    { x with frames := (f :: x.frames).take obsFrames, written := x.written + 1
             left := if x.state = .closing then x.left - 1 else x.left, keyMap := map }
  else x

/-- OBSIDIAN_FRAME (R477, R478): after 50 ticks of samples the writer stores one frame; none while the
root clock is lost (R479). -/
def execObsidianFrame (s : State) : Host.Outcome State Fault Refusal :=
  if s.evr.writer && !s.clk.fabricStopped && 50 ≤ s.evr.keyTicks then
    let f := (List.range 256).map (keySample s s.evr.keySums)
    .next { s with evr := { s.evr with
      keySums := [], keyTicks := 0
      slot := s.evr.slot.map fun x =>
        x.addFrame { tick := s.sys.tick, time := s.sys.timeNs, samples := f } s.keyMap } }
  else .next s

/-- A trigger by register: its mark's code is not stated, a free value (R478, log entry 7). -/
def State.triggerNow (s : State) : State := (s.used.obsTrigger (Config.freeNat s.fv % 65536)).fullTrigger s

/-- TRIGGER_NOW (R478, R491). -/
def execTriggerNow (sess : Fin 64) (s : State) : Host.Outcome State Fault Refusal :=
  .next (s.regCmd sess .oa State.triggerNow)

/-- A CLOSING slot is closed: the first slot closed since the slots were last cleared is KEPT (R478). -/
def State.closeSlot (s : State) (i : Fin 4) : State :=
  { s with evr := { s.evr with
      slot := updV s.evr.slot i fun x =>
        { x with state := if s.evr.closedCount = 0 then .kept else .closed, left := 0
                 closedOrder := s.evr.closedCount }
      closedCount := s.evr.closedCount + 1 } }.ev 0xC051 i.val

/-- OBS_RECORD_CLOSED (R478): a CLOSING slot has received its 500 frames. -/
def execObsRecordClosed (s : State) : Host.Outcome State Fault Refusal :=
  match s.evr.slotWhere fun x => x.state = .closing && x.left = 0 with
  | some i => .next (s.closeSlot i)
  | none => .next s

/-- A slot after OBS_CLEAR (R478). -/
def ObsSlot.freed (x : ObsSlot) : ObsSlot :=
  if x.state = ObsState.closed || x.state = ObsState.kept then {} else x

/-- Every CLOSED and KEPT slot is freed; LIVE and CLOSING ones are untouched (R478, R485). -/
def State.obsClear (s : State) : State :=
  { s with evr := { s.evr with
      slot := s.evr.slot.map ObsSlot.freed
      closedCount := 0 } }.ev 0xC052

/-- OBS_CLEAR (R478, R491). -/
def execObsClear (sess : Fin 64) (s : State) : Host.Outcome State Fault Refusal :=
  .next (s.regCmd sess .ia State.obsClear)

/-- CAPTURE_FROZEN (R484): 10 s after a trigger with FREEZE_ON_TRIGGER. -/
def execCaptureFrozen (s : State) : Host.Outcome State Fault Refusal :=
  if s.evr.freezeAt.any (s.elapsed · 5000000) && !s.evr.capFrozen then
    .next ({ s with evr := { s.evr with freezeAt := none, capFrozen := true } }.ev 0xC060)
  else .next s

/-- The frozen capture ring resumes (R484). -/
def State.captureResume (s : State) : State :=
  if s.evr.capFrozen then { s with evr := { s.evr with capFrozen := false } }.ev 0xC061 else s

/-- RESUME (R484, R492). -/
def execResume (sess : Fin 64) (s : State) : Host.Outcome State Fault Refusal :=
  .next (s.regCmd sess .ox State.captureResume)

/-! The service port. -/

/-- SVC_SPI_READ (R480, R45): `n` bytes from an address until SVC_SPI_CS_N rises, wrapping at 64 MiB, after
any write in progress. -/
def execSvcSpiRead (a : BitVec 32) (n : Nat) (s : State) : Host.Outcome State Fault Refusal :=
  .next (s.used.send (.spi ((List.range n).map fun i => s.mramByte ((a.toNat + i) % 2 ^ 26))))

/-- SVC_SPI_IDENT (R480): SYS_PART, least significant byte first, then SERIAL. -/
def execSvcSpiIdent (s : State) : Host.Outcome State Fault Refusal :=
  .next (s.send (.spi (leBytes 4 0x00475A09 ++ bytesAt s.sec.serial 0 16)))

/-- SVC_SPI_STATUS (R480): bit 0 writer active, bit 1 controller die powered, bit 2 directory valid, which
the spec gives no condition for (a free bit, log entry 7). Other command bytes return zeros. -/
def execSvcSpiStatus (other : Option (BitVec 8 × Nat)) (s : State) : Host.Outcome State Fault Refusal :=
  .next (match other with
    | some x => s.send (.spi (List.replicate x.2 0))
    | none => s.used.send (.spi [BitVec.ofNat 8
        (bitAt s.evr.writer 0 + bitAt s.power.powered 1 + bitAt (Config.freeBool s.fv) 2)]))

end Sys2Proof.Machine
end

