-- ==== Sys2Proof/Machine/FceOps.lean ====
section
/-! DEFINITION. Operations of the forecast engine: starts and stops (R234), activity (R213), dispatch
(R227, R231), completed evaluations (R219, R223, R232), frames (R215 to R217) and the adaptive heads
(R237 to R239). -/

namespace Sys2Proof.Machine

/-- A change of one instance. -/
def State.updInst (s : State) (i : Fin 10) (f : FInst → FInst) : State :=
  { s with fce := { s.fce with inst := updV s.fce.inst i f } }
/-- An instance by number. -/
def State.finst (s : State) (i : Fin 10) : FInst := s.fce.inst[i.val]

/-- Role and horizon of an instance (R213). -/
def instRole (i : Fin 10) : Nat := i.val % 5
def instLong (i : Fin 10) : Bool := 5 ≤ i.val
/-- The instances of a horizon, in role order. -/
def horizonInsts (long : Bool) : List (Fin 10) := (List.finRange 10).filter fun i => instLong i == long

/-- The model of an instance in the active configuration (R213). -/
def State.instModel (s : State) (i : Fin 10) : Option Rec :=
  modelFor (s.recs 0x0901) (instRole i) (instLong i)

/-! Starts, stops and activity. -/

/-- The condition under which the engine runs (R234, R409). -/
def State.engineWanted (s : State) : Bool :=
  s.inState [.armed, .run] && s.fce.forecastEn && !s.fce.dieStop

/-- Evaluations in flight and rounds are abandoned (R234). -/
def FInst.abandon (x : FInst) : FInst := { x with flight := [], copyWait := [] }

/-- The engine starts or stops as its condition stands (R234). -/
def State.engineSync (s : State) : State :=
  if s.engineWanted == s.fce.running then s
  else if s.engineWanted then
    ({ s with fce := { s.fce with
        running := true
        inst := s.fce.inst.map fun (x : FInst) => { x with stateMem := [] }
        short := { s.fce.short with valid := false }, long := { s.fce.long with valid := false } } }).ev 0x6001
  else
    ({ s with fce := { s.fce with running := false, rounds := []
                                  inst := s.fce.inst.map FInst.abandon } }).ev 0x6002

/-- Activity of every instance as its model and its role's trays stand (R213). -/
def State.instActivity (s : State) : State :=
  (List.finRange 10).foldl (fun s i =>
    let on := (s.instModel i).isSome && !(s.roleTrays (instRole i)).isEmpty
    if on == (s.finst i).active then s
    else if on then
      (s.updInst i fun x => { x with active := true, stateMem := [], badRounds := [] }).ev 0x6003 i.val
    else s.updInst i fun x => { x with active := false }) s

/-! Inputs and dispatch. -/

/-- Shelf time of a tick that lies some ticks after the present one. -/
def State.tickTime (s : State) (ahead : Nat) : Nat := s.sys.timeNs + 2000 * ahead

/-- PHASE_COUNT: trays of a role whose latest entry by T is of a kind (R227). -/
def State.phaseCount (s : State) (role kind : Nat) : Nat :=
  ((s.roleTrays role).filter fun n =>
    match ((s.tlk.table.filter fun e => tb e.mask n.val && e.t ≤ s.sys.timeNs).mergeSort
        fun a b => b.t ≤ a.t).head? with
    | some e => e.kind = kind
    | none => false).length

/-- TO_BARRIER: ticks to the next barrier that names a tray of a role, at most 65,535 (R227). -/
def State.toBarrier (s : State) (role : Nat) : Nat :=
  let mine := s.tlk.table.filter fun e =>
    s.sys.timeNs < e.t && (s.roleTrays role).any fun n => tb e.mask n.val
  (mine.map fun e => (e.t - s.sys.timeNs) / 2000).foldl min 65535

/-- An input position's source value at the tick, and whether it is valid (R227). -/
def State.fceInput (s : State) (i : Fin 10) (source : Nat) : Int × Bool :=
  let role := instRole i
  let idx := fld source 0 16
  match fld source 24 8 with
  | 1 => ((s.chan idx).value, (s.chan idx).valid)
  | 2 =>
    if h : idx < 64 then
      ((((s.port ⟨idx, h⟩).report.map Report.pTotal).getD 0 : Nat), (s.port ⟨idx, h⟩).linked)
    else (0, false)
  | 3 => (s.reportSum (s.roleTrays role), true)
  | 4 => (divHE (((s.roleTrays role).map fun n =>
      s.trayChange n s.sys.timeNs (s.tickTime (if instLong i then 500 * idx else idx))).sum) 1000, true)
  | 5 => (s.gNow, true)
  | 6 => (s.phaseCount role idx, true)
  | 7 => (s.toBarrier role, true)
  | 8 => (s.loop.cometP, true)
  | 9 => ((s.sys.tick % 2 ^ 24 : Nat), true)
  | _ => (0, true)

/-- The inputs of an instance at a round: what each contributes, its held value, and the consecutive due
rounds in which it was invalid (R227). -/
def State.fceInputs (s : State) (i : Fin 10) (d : Rec) : List (Nat × Int × Nat × Bool) :=
  let recs := ofModel (s.recs 0x0304) 0x0304 d.model
  (List.range d.nInputs).map fun p =>
    match recs.find? fun r => r.u16 0x0A = p with
    | none => (0, 0, 0, true)
    | some r =>
      let (v, ok) := s.fceInput i (r.u32 0x0C)
      let v := if ok then v else (s.finst i).held.getD p 0
      let bad := if ok then 0 else (s.finst i).badRounds.getD p 0 + 1
      (fScale v (ofCode 8 (fld (r.u32 0x0C) 16 8)), v, bad, ok)

/-- A due instance is dispatched (R227, R229, R231). -/
def State.dispatch (s : State) (i : Fin 10) (d : Rec) : State :=
  let ins := s.fceInputs i d
  let stale := ins.any fun x => 32 < x.2.2.1
  let x := s.finst i
  let allOk := ins.all fun x => x.2.2.2
  let noRes := stale || (x.noResult && !allOk)
  let copies := if d.streamed then (List.range (ofModel (s.recs 0x0A01) 0x0A01 d.model).length) else []
  let e : Eval := { tIn := s.sys.tick, inputs := ins.map Prod.fst, doublings := x.doublings, missed := false
                    restore := s.fce.restore, copiesLeft := copies, withheld := noRes, old := none }
  let s' := s.updInst i fun x =>
    { x with flight := x.flight ++ [e], held := ins.map fun y => y.2.1, badRounds := ins.map fun y => y.2.2.1
             inputHeld := !allOk, noResult := noRes }
  if noRes && !x.noResult then s'.ev 0x6022 i.val else s'

/-- A round that starts at the tick (R214, R231). Its offers start one role after the role that was offered first in
the previous round of its horizon. -/
def State.startRound (s : State) (long : Bool) : State :=
  let per := if long then 500 * s.fce.periodMs else s.fce.period
  if per = 0 || s.sys.tick % per != 0 then s
  else
    let u := s.sys.tick / per
    let order := (horizonInsts long).rotateLeft (if long then s.fce.offerLong else s.fce.offerShort)
    let due := order.filter fun i =>
      (s.finst i).active && (s.finst i).flight.length < 8
        && (match s.instModel i with
            | some d => u % (d.cadence * 2 ^ (s.finst i).divLog2) = 0
            | none => false)
    let s := due.foldl (fun s i => match s.instModel i with
      | some d => s.dispatch i d
      | none => s) s
    let next := fun (old : Nat) => (due.head?.map fun i => (instRole i + 1) % 5).getD old
    { s with fce := { s.fce with
        offerShort := if long then s.fce.offerShort else next s.fce.offerShort
        offerLong := if long then next s.fce.offerLong else s.fce.offerLong
        rounds := s.fce.rounds ++ [{ long := long, tIn := s.sys.tick, due := due.map fun i => i.val
                                     trays := (List.range 5).map s.roleTrays
                                     deadline := if long then 500 * s.fce.deadlineMs else s.fce.deadline
                                     maxAge := if long then 500 * s.fce.staleMs else s.fce.shiftMax }] } }

/-! A completed evaluation. -/

/-- The evaluation's copies allow it to complete (R229): none outstanding brings a byte it reads. -/
def copiesReady (recs : List Rec) (d : Rec) (left : List Nat) : Bool :=
  let reads := weightReads recs d.model
  left.all fun k =>
    match (ofModel recs 0x0A01 d.model)[k]? with
    | none => true
    | some r => reads.all fun x => r.u32 0x10 + r.u32 0x14 ≤ x.1 || x.1 + x.2 ≤ r.u32 0x10

/-- The head an instance uses: its own where its model adapts, none else (R237). -/
def State.headOf (s : State) (i : Fin 10) (recs : List Rec) (d : Rec) : Option (List (List Nat)) :=
  if d.adapts then some ((s.finst i).w.getD (baseHead recs d s.fv)) else none

/-- An evaluation within its deadline, or late, as R232 counts it. -/
def State.cadenceStep (s : State) (i : Fin 10) (late : Bool) (restore : Nat) : State :=
  let x := s.finst i
  if late then s.updInst i fun x => { x with onTime := 0 }
  else if x.divLog2 != 0 && restore ≤ x.onTime + 1 then
    let s := s.updInst i fun x => { x with onTime := 0, divLog2 := x.divLog2 - 1 }
    if x.divLog2 = 1 then s.ev 0x6011 i.val 0 else s
  else s.updInst i fun x => { x with onTime := x.onTime + 1 }

/-- The swap that replaced the model of an evaluation in flight (R235). -/
def Eval.swap (e : Eval) : Option Nat := e.old.map OldModel.swapTick

/-- The state region an evaluation works on: that of the instance, or that of the instance a swap replaced (R235). -/
def FInst.stateFor (x : FInst) (e : Eval) : List Host.Cell := (e.old.map OldModel.stateMem).getD x.stateMem

/-- The state region an evaluation leaves to the next of its model (R231, R235). -/
def FInst.setStateFor (x : FInst) (e : Eval) (m : List Host.Cell) : FInst :=
  match e.old with
  | none => { x with stateMem := m }
  | some _ => { x with flight := x.flight.map fun y =>
      if y.swap = e.swap then { y with old := y.old.map fun o => { o with stateMem := m } } else y }

/-- The newest evaluation whose targets are all known at tick u (R238). -/
def FInst.trainable (x : FInst) (long : Bool) (u : Nat) : Option FResult :=
  ((x.results.filter fun r => !r.h.isEmpty && r.tIn + (if long then 500000 else 64) ≤ u).mergeSort
    fun a b => b.tIn ≤ a.tIn).head?

/-- The results an instance still needs at a tick: those a frame can use, and for its head those from the newest
trainable one on (R215, R238). -/
def FInst.keepResults (x : FInst) (long : Bool) (t : Nat) : FInst :=
  let from_ := (x.trainable long t).map FResult.tIn
  { x with results := x.results.filter fun y => t < y.tIn + 1100000 || from_.any fun u => u ≤ y.tIn }

/-- The result of an evaluation enters the instance (R215, R219, R223, R237, R247). -/
def State.evalEnd (s : State) (i : Fin 10) (e : Eval) (recs : List Rec) (d : Rec) (w : Option (List (List Nat)))
    (ns : Nat) : State :=
  let m := evalModel { recs := recs, d := d, inputs := e.inputs, w := w, fv := s.fv } ((s.finst i).stateFor e)
  let s := s.used
  let nan := m.y.any fIsNaN
  let xs := m.y.map fun y => fToSat y d.outQ
  let sat := m.y.any fun y => fIsInf y || (!fIsNaN y && fToInt y d.outQ != fToSat y d.outQ)
  let t := s.sys.tick
  let lats := addSample (s.finst i).lats t (2000 * (t - e.tIn) + ns)
  let r : FResult := { tIn := e.tIn, x := xs, sub := (s.finst i).divLog2 != 0, sat := sat, nan := nan
                       usable := !e.withheld, h := if e.old.isSome then [] else m.h, y := m.y }
  let s := s.updInst i fun x =>
    let x : FInst :=
      { x with flight := x.flight.filter fun y => y.tIn != e.tIn
               nan := nan, outSat := sat && !nan
               evals := wrapU 32 (x.evals + 1), lastTin := max x.lastTin e.tIn
               lats := lats, latAvg := avgOf lats
               results := r :: x.results }
    (x.setStateFor e (if nan then [] else m.st)).keepResults (instLong i) t
  let s := if nan then s.ev 0x6020 i.val else if sat then s.ev 0x6021 i.val else s
  s.cadenceStep i e.missed e.restore

/-- The records an evaluation runs under, and its model (R235). -/
def State.evalRecs (s : State) (e : Eval) : List Rec := (e.old.map OldModel.recs).getD s.modelRecs
def State.evalModelRec (s : State) (i : Fin 10) (e : Eval) : Option Rec :=
  modelFor (s.evalRecs e) (instRole i) (instLong i)

/-- An evaluation in flight has what it needs to run to its end: the copies it reads are complete (R229), and a model
with a state region runs its rounds in order (R231). -/
def State.evalReady (s : State) (i : Fin 10) (e : Eval) : Bool :=
  match s.evalModelRec i e with
  | none => true
  | some d => copiesReady (s.evalRecs e) d e.copiesLeft
      && (d.stateBytes = 0
        || ((s.finst i).flight.find? fun y => y.swap == e.swap).map Eval.tIn == some e.tIn)

/-- The evaluation of a round completes, `ns` nanoseconds into the tick (R223, R229, R231). -/
def State.evalDone (s : State) (i : Fin 10) (tIn ns : Nat) : State :=
  match (s.finst i).flight.find? fun e => e.tIn = tIn with
  | none => s
  | some e =>
    match s.evalModelRec i e with
    | none => s.updInst i fun x => { x with flight := x.flight.filter fun y => y.tIn != tIn }
    | some d =>
      if !s.evalReady i e then s
      else
        let recs := s.evalRecs e
        let w := match e.old with
          | some o => if d.adapts then some (o.w.getD (baseHead recs d s.fv)) else none
          | none => s.headOf i recs d
        s.evalEnd i e recs d w ns

/-- A copy of an evaluation can have completed by the present tick (R229, R230; log entry 102): it has started, none of
its instance waits for a page, every copy of an earlier evaluation is complete, and no earlier evaluation still reads the
range it overwrites. -/
def State.copyReady (s : State) (i : Fin 10) (e : Eval) (entry : Nat) : Bool :=
  match s.evalModelRec i e with
  | none => true
  | some d =>
    match (ofModel (s.evalRecs e) 0x0A01 d.model)[entry]? with
    | none => true
    | some r =>
      let before := (s.finst i).flight.filter fun y => y.tIn < e.tIn
      e.tIn + r.u16 0x0A ≤ s.sys.tick && (s.finst i).copyWait.isEmpty && before.all fun y =>
        y.copiesLeft.isEmpty && match s.evalModelRec i y with
          | none => true
          | some dy => (weightReads (s.evalRecs y) dy.model).all fun x =>
              r.u32 0x10 + r.u32 0x14 ≤ x.1 || x.1 + x.2 ≤ r.u32 0x10

/-- A copy of an evaluation completes (R229). -/
def State.copyDone (s : State) (i : Fin 10) (tIn entry : Nat) : State :=
  match (s.finst i).flight.find? fun e => e.tIn = tIn with
  | none => s
  | some e =>
    if !s.copyReady i e entry then s
    else s.updInst i fun x => { x with flight := x.flight.map fun e =>
      if e.tIn = tIn then { e with copiesLeft := e.copiesLeft.filter (· != entry) } else e }

/-! Tiles (R231, R233). -/

/-- Tiles that the evaluations in flight ask for: TILE_SPAN of each that can run (R231; log entry 103). -/
def State.tileDemand (s : State) : Nat :=
  ((List.finRange 10).map fun i =>
    (((s.finst i).flight.filter (s.evalReady i)).map fun e =>
      ((s.evalModelRec i e).map fun d => d.u8 0x29).getD 0).sum).sum

/-- The tiles of a tick: their use, and a Lamric test run that is deferred while a due evaluation waits for tiles (R73,
R74, R233). -/
def State.tileTick (s : State) : State :=
  let k := s.tileDemand
  let s := { s with fce := { s.fce with tileUse := addSample s.fce.tileUse s.sys.tick (min 32 k) } }
  if s.fce.test = .running && decide (32 < k) && !s.fce.testDisplaced then
    ({ s with fce := { s.fce with testDisplaced := true } }).displace 5 0 3 5
  else if s.fce.testDisplaced && s.fce.test = .running && decide (k ≤ 32) then
    ({ s with fce := { s.fce with testDisplaced := false } }).undisplace 5 0 3 5
  else s

/-- FCE_TILE_UTIL, % (R233, R244). -/
def Fce.tileUtil (f : Fce) : Nat := divHEN (100 * (f.tileUse.map (·.2)).sum) (32 * f.tileUse.length)

/-! Frames. -/

/-- The part of one role in a frame of a round: its values, where it comes from (1 MODEL, 2 SHIFTED,
3 SCHEDULE), and the marks of the result (R215). `n` values. -/
def State.rolePart (s : State) (rd : Round) (role n : Nat) (trays : List (Fin 64)) :
    List Int × Nat × Bool × Bool :=
  let unit : Nat := if rd.long then 500 else 1
  let sched := fun (j : Nat) =>
    s.predict trays ((s.sys.timeNs : Int) + 2000 * ((rd.tIn : Int) + unit * j - s.sys.tick)).toNat
  let res := (horizonInsts rd.long).find? fun i => instRole i = role
  let newest := res.bind fun i => ((s.finst i).results.filter fun r => !r.nan && r.tIn ≤ rd.tIn).mergeSort
    (fun a b => b.tIn ≤ a.tIn) |>.head?
  let held := (res.map fun i => (s.finst i).noResult).getD false
  match newest with
  | some r =>
    let age := rd.tIn - r.tIn
    if r.usable && !held && age ≤ rd.maxAge then
      let sh : Nat := age / unit
      ((List.range n).map fun (j : Nat) => match r.x[j + sh]? with
          | some x => x
          | none => sched (j + 1), if age = 0 then 1 else 2, r.sat, r.sub)
    else ((List.range n).map fun (j : Nat) => sched (j + 1), 3, false, false)
  | none => ((List.range n).map fun (j : Nat) => sched (j + 1), 3, false, false)

/-- The frame of a round, delivered at tick n (R215). -/
def State.frameOf (s : State) (rd : Round) (t : Nat) : Frame :=
  let n := if rd.long then 1000 else 64
  let part := fun (r : Nat) =>
    let trays := rd.trays.getD r []
    if trays.isEmpty then none else some (s.rolePart rd r n trays)
  let parts := (List.range 5).map part
  let sums := (List.range n).map fun (j : Nat) => (parts.map fun p => (p.map fun q => q.1.getD j 0).getD 0).sum
  let src := fun (r : Nat) => ((parts.getD r none).map fun q => q.2.1).getD 0
  let conf := fun (r : Nat) => (modelFor (s.recs 0x0901) r rd.long).isSome
  { valid := true, tIn := rd.tIn, tD := t, freshFor := rd.maxAge, lhat := sums.map sat32
    src := mapV (Vector.replicate 5 0) fun r _ => src r.val
    partialFrame := (List.range 5).any fun r => src r = 3 && conf r
    sat := (sums.any fun x => sat32 x != x) || parts.any fun p => (p.map fun q => q.2.2.1).getD false
    sub := parts.any fun p => (p.map fun q => q.2.2.2).getD false }

/-- The frame of a round is assembled at the start of tick t and delivered, or discarded (R215, R216). -/
def State.assemble (s : State) (t : Nat) (rd : Round) : State :=
  let s := { s with fce := { s.fce with
    rounds := s.fce.rounds.filter fun x => !(x.long == rd.long && x.tIn == rd.tIn) } }
  let last := if rd.long then s.fce.long else s.fce.short
  if !last.lhat.isEmpty && rd.tIn ≤ last.tIn then
    { s with fce := { s.fce with discarded := bump 32 s.fce.discarded } }.ev 0x6013
  else
    let f := s.frameOf rd t
    let lats := if rd.long then s.fce.lats else addSample s.fce.lats t (t - rd.tIn)
    let s := { s with fce := { s.fce with
      short := if rd.long then s.fce.short else f
      shortPrev := if rd.long || s.fce.short.tD = t then s.fce.shortPrev else s.fce.short
      long := if rd.long then f else s.fce.long
      longFresh := s.fce.longFresh || rd.long
      delivered := if rd.long then s.fce.delivered else wrapU 32 (s.fce.delivered + 1)
      partials := if f.partialFrame then bump 32 s.fce.partials else s.fce.partials
      lats := lats } }
    if f.partialFrame then s.ev 0x6012 else s

/-- The round of a horizon and input tick. -/
def State.roundAt (s : State) (long : Bool) (tIn : Nat) : Option Round :=
  s.fce.rounds.find? fun r => r.long == long && r.tIn == tIn

/-- Every due instance of a round has completed its evaluation (R216). -/
def State.roundComplete (s : State) (rd : Round) : Bool :=
  (List.finRange 10).all fun i =>
    !(rd.due.contains i.val) || (s.finst i).flight.all fun e => e.tIn != rd.tIn

/-- An evaluation has missed its deadline (R232). -/
def State.evalMiss (s : State) (i : Fin 10) (tIn : Nat) : State :=
  match (s.finst i).flight.find? fun e => e.tIn = tIn && !e.missed with
  | none => s
  | some e =>
    let x := s.finst i
    let dbl := x.doublings = e.doublings && x.divLog2 < 6
    let s := s.updInst i fun x =>
      { x with flight := x.flight.map fun y => if y.tIn = tIn then { y with missed := true } else y
               misses := bump 32 x.misses, onTime := 0
               divLog2 := if dbl then x.divLog2 + 1 else x.divLog2
               doublings := if dbl then x.doublings + 1 else x.doublings }
    if dbl && x.divLog2 = 0 then s.ev 0x6010 i.val 1 else s

/-- Evaluations of a round that have not completed by its deadline have missed it (R232). -/
def State.roundMiss (s : State) (rd : Round) : State :=
  (List.finRange 10).foldl (fun s i => if rd.due.contains i.val then s.evalMiss i rd.tIn else s) s

/-- A round has met its deadline by tick t (R216). -/
def Round.late (rd : Round) (t : Nat) : Bool := decide (rd.tIn + rd.deadline ≤ t)

/-- The rounds among those chosen whose frames are assembled at the start of tick t (R216): deadline checks first, then
the frames, the latest t_in before the others (R235), short before long. -/
def State.framesAt (s : State) (t : Nat) (sel : Round → Bool) : State :=
  let l := (s.fce.rounds.filter fun rd => sel rd && decide (rd.tIn < t) && (s.roundComplete rd || rd.late t)).mergeSort
    fun a b => b.tIn ≤ a.tIn
  let s := (l.filter fun rd => rd.late t).foldl State.roundMiss s
  ((l.filter fun rd => !rd.long) ++ l.filter fun rd => rd.long).foldl (fun s rd => s.assemble t rd) s

/-- The newest long frame has passed STALE_MS at tick t (R217). -/
def State.longStaleAt (s : State) (t : Nat) : Bool :=
  s.fce.longFresh && decide (s.fce.long.tD + s.fce.long.freshFor < t)

/-- LONG_FRESH falls (R217). -/
def State.longStale (s : State) : State := ({ s with fce := { s.fce with longFresh := false } }).ev 0x6050

/-! The adaptive heads. -/

/-- An FP32 sum in ascending index. -/
def fSum (l : List Nat) : Nat := l.foldl fAdd 0
/-- An FP32 inner product in ascending index. -/
def fDot (a b : List Nat) : Nat := fSum ((a.zip b).map fun p => fMul p.1 p.2)
/-- DELTA times the identity (R237). -/
def diagP (k delta : Nat) : List (List Nat) :=
  (List.range k).map fun i => (List.range k).map fun j => if i = j then delta else 0

/-- FP32 clamp; a NaN stays. -/
def fClamp (lo hi x : Nat) : Nat := if fLt x lo then lo else if fLt hi x then hi else x

/-- The HEAD_ADAPT record of a model. -/
def State.headRec (s : State) (d : Rec) : Option Rec := (s.recs 0x0904).find? fun r => r.u16 0x08 = d.model

/-- A head returns to its base weights, and adaptation pauses (R239). -/
def State.headRevert (s : State) (i : Fin 10) : State :=
  match s.instModel i with
  | none => s
  | some d =>
    if !d.adapts then s
    else
      let base := baseHead s.modelRecs d s.fv
      let delta := ((s.headRec d).map fun r => r.u32 0x10).getD 0
      (s.updInst i fun x =>
        { x with w := some base, pMat := some (diagP ((base.head?.map List.length).getD 0) delta), ms := 0
                 errRms := 0, revertRun := 0, suspended := true
                 suspendTick := s.sys.tick, reversions := bump 16 x.reversions }).used.ev
        0x6030 i.val

/-- a(t) of R238 as an FP32 value: the sum at tick t, or for a long instance the mean over the millisecond
that ends at t; none where a sum is not known. -/
def State.actual (s : State) (role t : Nat) (long : Bool) : Option Nat :=
  let at_ := fun (k : Nat) => (s.fce.hist.find? fun x => x.1 = k).map fun x => fOfInt (x.2.getD role 0)
  if long then
    let l := (List.range 500).map fun j => if 499 ≤ t + j then at_ (t + j - 499) else none
    if l.all Option.isSome then some (fDiv (fSum (l.filterMap id)) (fOfInt 500)) else none
  else at_ t

/-- 2^e as an FP32 pattern. -/
def fPow2 (e : Int) : Nat := fScale 1 e

/-- One recursive least-squares update (R238): the new weights and P, whether a weight was clamped, and the
errors. -/
def rlsStep (r : Rec) (base w p : List (List Nat)) (h e : List Nat) :
    List (List Nat) × List (List Nat) × Bool :=
  let lambda := r.u32 0x0C
  let ph := p.map fun row => fDot row h
  let sc := fAdd lambda (fDot h ph)
  let k := ph.map fun x => fDiv x sc
  let q := (List.range h.length).map fun j => fSum ((h.zip p).map fun x => fMul x.1 (x.2.getD j 0))
  let p1 := (p.zip k).map fun x => (x.1.zip q).map fun y => fDiv (fSub y.1 (fMul x.2 y.2)) lambda
  let p2 := (List.range h.length).map fun i => (List.range h.length).map fun j =>
    fDiv (fAdd ((p1.getD i []).getD j 0) ((p1.getD j []).getD i 0)) (fOfInt 2)
  let w1 := (w.zip e).map fun x => (x.1.zip k).map fun y => fAdd y.1 (fMul x.2 y.2)
  let w2 := (w1.zip base).map fun x => (x.1.zip x.2).map fun y =>
    let lim := fAdd (r.u32 0x14) (fMul (r.u32 0x18) (fAbs y.2))
    fClamp (fSub y.2 lim) (fAdd y.2 lim) y.1
  (w2, p2, decide (w2 ≠ w1))

/-- The update of one instance at tick u (R238, R239). -/
def State.headUpdate (u : Nat) (s : State) (i : Fin 10) : State :=
  let x := s.finst i
  match s.instModel i with
  | none => s
  | some d =>
    match s.headRec d, x.trainable (instLong i) u with
    | some r, some f =>
      let unit := if instLong i then 500 else 1
      let acts := (List.range d.outLen).map fun j => s.actual (instRole i) (f.tIn + unit * (j + 1)) (instLong i)
      if !d.adapts || !x.active || !s.fce.adaptEn || x.adaptDis || x.suspended || !(acts.all Option.isSome) then s
      else
        let base := baseHead s.modelRecs d s.fv
        let kk := f.h.length
        let tgt := (acts.filterMap id).map fun a => fMul a (fPow2 (-d.outQ))
        let e := (tgt.zip f.y).map fun p => fSub p.1 p.2
        let (w, p, clamped) := rlsStep r base (x.w.getD base) (x.pMat.getD (diagP kk (r.u32 0x10))) f.h e
        let trace := fSum ((List.range kk).map fun j => (p.getD j []).getD j 0)
        let pBad := fLt (r.u32 0x1C) trace || p.any fun row => row.any fIsNaN
        let m := fMul (fDiv (fSum (e.map fun v => fMul v v)) (fOfInt d.outLen)) (fPow2 (2 * d.outQ))
        let ms := fAdd x.ms (fDiv (fSub m x.ms) (fOfInt 100))
        let err := fSqrt ms
        let above := !fIsNaN err && (fIsInf err || (r.u32 0x20 : Int) * 2 ^ 149 < fFix err)
        let run := if above then x.revertRun + 1 else 0
        let s := (s.updInst i fun x =>
          { x with w := some w, pMat := some (if pBad then diagP kk (r.u32 0x10) else p), guardClamped := clamped
                   ms := ms, errRms := err, revertRun := run
                   pResets := if pBad then bump 16 x.pResets else x.pResets }).used
        let s := if clamped then s.ev 0x6031 i.val else s
        let s := if pBad then s.ev 0x6032 i.val else s
        if r.u16 0x24 ≤ run || w.any fun row => row.any fIsNaN then s.headRevert i else s
    | _, _ => s

/-- The oldest evaluation whose targets a head may still need (R238). -/
def State.histFrom (s : State) (t : Nat) : Nat :=
  (s.fce.inst.toList.flatMap fun x =>
    ((x.results.filter fun r => !r.h.isEmpty).map FResult.tIn) ++ x.flight.map Eval.tIn).foldl min t

/-- The role sums of a tick are noted, once, and those no head needs are dropped (R238). -/
def State.noteSums (s : State) (t : Nat) : State :=
  if s.fce.hist.head?.map Prod.fst = some t then s
  else
    let from_ := s.histFrom t
    { s with fce := { s.fce with
      hist := (t, (List.range 5).map fun r => s.reportSum (s.roleTrays r)) ::
        s.fce.hist.filter fun x => from_ < x.1 } }

/-- The heads' update of tick t, every 500 ticks (R238), once. -/
def State.headsAt (s : State) (t : Nat) : State :=
  if s.fce.running && t % 500 = 0 && s.fce.headAt != t then
    let s := s.noteSums t
    (List.finRange 10).foldl (State.headUpdate t) { s with fce := { s.fce with headAt := t } }
  else s

/-- HOLDOFF_MS of an instance has run by tick t (R239). -/
def State.holdoffOver (s : State) (i : Fin 10) (t : Nat) : Bool :=
  let ms := (((s.instModel i).bind s.headRec).map fun r => r.u16 0x26).getD 0
  (s.finst i).suspended && decide ((s.finst i).suspendTick + 500 * ms ≤ t)

/-- Adaptation of a head resumes (R239). -/
def State.adaptResume (s : State) (i : Fin 10) : State :=
  (s.updInst i fun x => { x with suspended := false }).ev 0x6033 i.val

/-- The engine at the start of a tick, before the Comet term (R216, R217, R235): starts and stops, activity, frames. -/
def State.fceStart (s : State) : State :=
  let t := s.sys.tick
  let s := (s.engineSync.instActivity).framesAt t fun _ => true
  if s.longStaleAt t then s.longStale else s

/-- The engine's part of a tick after the slots (R213, R231, R238, R239): the sums of the roles are noted, pauses end,
the heads adapt, and short rounds start before long ones. -/
def State.fceTick (s : State) : State :=
  let t := s.sys.tick
  let s := s.noteSums t
  let s := (List.finRange 10).foldl (fun s i => if s.holdoffOver i t then s.adaptResume i else s) s
  let s := s.headsAt t
  (if s.fce.running then (s.startRound false).startRound true else s).tileTick

/-- A swap of MODEL or COPY_SCHED (R84, R235): evaluations in flight keep their models, and new instances
start with zeroed state and with heads at the new base weights. -/
def State.modelSwap (s : State) (old : List Rec) : State :=
  { s with fce := { s.fce with inst := s.fce.inst.map fun x =>
      { x with flight := x.flight.map fun e =>
                 { e with old := some (e.old.getD
                     { recs := old, w := x.w, stateMem := x.stateMem, swapTick := s.sys.tick }) }
               w := none, pMat := none, ms := 0, errRms := 0, revertRun := 0, stateMem := [], badRounds := []
               results := x.results.map fun r => { r with h := [] } } } }

end Sys2Proof.Machine
end

