-- ==== Sys2Proof/Machine/RowOps.lean ====
section
/-! DEFINITION. What this shelf sends on the row ring about itself: its frames (R389, R390), its STATUS
(R276, R390, R395) and its FAILOVER notices (R396). -/

namespace Sys2Proof.Machine

/-! What START_REQ rests on. -/

/-- A ring by number. -/
def State.ring (s : State) (c : Fin 4) : Ring := s.chn.ring[c.val]

/-- The RING record of a ring. -/
def State.ringRec (s : State) (c : Fin 4) : Option Rec := s.rec8 0x0701 0x08 c.val

/-- The configured rings. -/
def State.rings (s : State) : List (Fin 4) := (List.finRange 4).filter fun c => (s.ringRec c).isSome

/-- Whether a node drives the contactors, and the node that does. -/
def State.ctrNode (s : State) (c : Fin 4) : Option Nat :=
  ((s.recs 0x0702).find? fun r => r.u8 0x08 = c.val && r.u8 0x11 = 1).map fun r => r.u8 0x09

/-- The contactors of a ring's string are closed, or it has no contactor node (R331, R442). -/
def State.ctrClosed (s : State) (c : Fin 4) : Bool := (s.ctrNode c).isNone || (s.ring c).ctr = .closed

/-- A cause of R411 is in force or held. -/
def State.anyCause (s : State) : Bool := s.prot.causes.toList.any id

/-- START_REQ (R412, R442). -/
def State.startReqNow (s : State) : Bool :=
  s.sys.state = .armed && s.sys.target = 4 && s.rings.all s.ctrClosed && (s.net.autoRun || s.net.runConsent)
  && !s.anyCause

/-! Frames. -/

/-- A ring frame (R389): header, payload, zero padding to a multiple of 8 bytes, CRC-32C. -/
def rowFrame (ty flags hops rack shelf seq : Nat) (payload : List Byte) : List Byte :=
  let b := leBytes 1 ty ++ leBytes 1 flags ++ leBytes 2 hops ++ leBytes 2 rack ++ leBytes 1 shelf ++ leBytes 1 0
    ++ leBytes 4 seq ++ leBytes 2 payload.length ++ leBytes 2 0 ++ payload
  let b := b ++ List.replicate (8 * ceilDiv b.length 8 - b.length) 0
  b ++ leBytes 4 (crc32c b)

/-- The port a frame for a port leaves through, and whether a wrap turned it there (R392). -/
def Net.outPort (n : Net) (west : Bool) : Bool × Bool :=
  if (if west then n.wrapWest else n.wrapEast) then (!west, true) else (west, false)

/-- An own frame takes its SEQ. -/
def State.rowOwn (s : State) (west : Bool) (ty flags : Nat) (payload : List Byte) : State :=
  let n := s.net
  ({ s with net := { n with ringSeq := wrapU 32 (n.ringSeq + 1), sentSeq := (n.ringSeq :: n.sentSeq).take 64 } }).send
    (.row west (rowFrame ty flags 510 s.rackId s.shelfIndex n.ringSeq payload))

/-- A frame of this member leaves east on the ring, where it is joined (R388, R389, R391). -/
def State.rowSend (s : State) (ty : Nat) (payload : List Byte) : State :=
  if s.net.joined then s.rowOwn (s.net.outPort false).1 ty (bitAt (s.net.outPort false).2 0) payload else s

/-- A link-local frame leaves through a port, where forwarding runs. -/
def State.rowLocal (s : State) (west : Bool) (ty : Nat) (payload : List Byte) : State :=
  if s.net.forwarding then s.rowOwn west ty 2 payload else s

/-- The payload of a FAILOVER notice (R390). -/
def noticeBytes (rack shelf cause time : Nat) : List Byte :=
  leBytes 2 rack ++ leBytes 1 shelf ++ leBytes 1 cause ++ leBytes 8 time

/-- OFFER of R276, W. -/
def State.offer (s : State) : Nat := s.psuCap + s.pwm.plim.toNat

/-- GRID_REQ of R395, W: the target of R349 without the allowance, the PSU capacity in OVERLOAD, 0 outside
RUN. -/
def State.gridReq (s : State) : Nat :=
  if s.sys.state != .run then 0 else if s.est.overload then s.psuCap else s.est.gridReq.toNat

/-- The STATUS this shelf sends (R390). -/
def State.ownStatus (s : State) : Sys2Proof.RowStatus :=
  { state := s.sys.state.code, startReq := s.startReqNow, lead := s.sys.lead, overload := s.est.overload
    ptpLock := s.clk.ptpLock, orphan := s.sys.orphan, boundary := s.net.ptpMode = 1 || s.net.ptpMode = 3
    clockClass := s.net.clockClass, offer := s.offer, want := s.wantSum, min := s.floorSum
    plim := s.pwm.plim.toNat, gridReq := s.gridReq, psuCap := s.psuCap }

/-- The entry of a member among those seen. -/
def Member.named (m : Member) (rack shelf : Nat) : Bool := m.rack = rack && m.shelf = shelf

/-- A member is the subject of a notice: no candidate until its next STATUS (R394). -/
def State.markSubject (s : State) (rack shelf : Nat) : State :=
  let mark := fun (m : Member) => if m.named rack shelf then { m with subject := true } else m
  { s with net := { s.net with members := s.net.members.map mark } }

/-- A FAILOVER notice about this shelf (R396): cause 1 BASALT, 2 INPUT_LOSS, 3 LEFT_RUN, 5 SHIP_PREP. -/
def State.failover (s : State) (cause : Nat) : State :=
  if s.net.joined then
    ((s.rowSend 0x20 (noticeBytes s.rackId s.shelfIndex cause s.sys.timeNs)).markSubject s.rackId s.shelfIndex).ev 0xA056
  else s

/-- WHOLE, with event 0xA053 at its change (R392). -/
def State.setWhole (s : State) (v : Bool) : State :=
  if s.net.whole = v then s else ({ s with net := { s.net with whole := v } }).ev 0xA053

/-- Membership of the ring ends (R391): the lead goes with event 0xA055, WHOLE clears, no time is mastered, and ring time is
followed no longer (R367). -/
def State.unjoin (s : State) : State :=
  if !s.net.joined then s
  else
    let was := s.sys.lead
    let ring := s.net.timeSrc = .ring
    let s := (({ s with sys := { s.sys with lead := false }
                        net := { s.net with
                          joined := false, leadShelf := 255, timeMaster := false
                          slewLeft := if ring then 0 else s.net.slewLeft
                          timeSrc := if ring then .holdover else s.net.timeSrc } } : State).setWhole false)
    if was then s.ev 0xA055 else s

end Sys2Proof.Machine
end

