-- ==== Sys2Proof/Machine/ChnOps.lean ====
section
/-! DEFINITION. Operations over the cell chains: ring and node records (R300, R301), trains (R297), the ring
check (R303), READY (R305), sample instants (R306), cell values (R311), node status words (R328) and contactor
commands (R322). -/

namespace Sys2Proof.Machine

/-- A change of one ring, one node (N01 is 1), one string cell (001 is 1). -/
def State.updRing (s : State) (c : Fin 4) (f : Ring → Ring) : State :=
  { s with chn := { s.chn with ring := updV s.chn.ring c f } }
def State.updNode (s : State) (c : Fin 4) (n : Nat) (f : Node → Node) : State :=
  s.updRing c fun r => { r with node := if n = 0 then r.node else updN r.node (n - 1) f }
def State.updCell (s : State) (c : Fin 4) (k : Nat) (f : Cell → Cell) : State :=
  s.updRing c fun r => { r with cell := if k = 0 then r.cell else updN r.cell (k - 1) f }
/-- A node and a cell of a ring by number. -/
def Ring.nodeAt (r : Ring) (n : Nat) : Node := if n = 0 then {} else r.node[n - 1]?.getD {}
def Ring.cellAt (r : Ring) (k : Nat) : Cell := if k = 0 then {} else r.cell[k - 1]?.getD {}

/-! The records. -/

/-- Fields of the RING record of a ring. -/
def State.ringVal (s : State) (c : Fin 4) (f : Rec → Nat) : Nat := ((s.ringRec c).map f).getD 0
def State.ringNodes (s : State) (c : Fin 4) : Nat := s.ringVal c fun r => r.u8 0x09
def State.ringStr (s : State) (c : Fin 4) : Nat := s.ringVal c fun r => r.u8 0x0A
/-- SPLIT_NODE, DELAY in 25 ns, and the sweep period in ticks (R300, R306). -/
def State.splitNode (s : State) (c : Fin 4) : Nat :=
  let x := s.ringVal c fun r => r.u8 0x11
  if x = 0 then (s.ringNodes c + 1) / 2 else x
def State.ringDelay (s : State) (c : Fin 4) : Nat :=
  let x := s.ringVal c fun r => r.u16 0x12
  if x = 0 then 640 else x
def State.sweepTicks (s : State) (c : Fin 4) : Nat := divHEN 500000 (s.ringVal c fun r => r.u16 0x0C)
/-- The ring of a string (R301). -/
def State.ringOf (s : State) (i : Nat) : Option (Fin 4) :=
  (List.finRange 4).find? fun c => ((s.ringRec c).map fun r => r.u8 0x0A == i).getD false

/-- The NODE record of a node. -/
def State.nodeRec (s : State) (c : Fin 4) (n : Nat) : Option Rec :=
  (s.recs 0x0702).find? fun r => r.u8 0x08 = c.val && r.u8 0x09 = n
/-- The enabled inputs of a node, from 0, each with its string cell (R301). -/
def Rec.nodeCells (r : Rec) : List (Nat × Nat) :=
  ((List.range 18).filter fun i => tb (r.u32 0x0C) i).zipIdx.map fun x => (x.1, r.u16 0x0A + x.2)
def State.cellsOf (s : State) (c : Fin 4) (n : Nat) : List (Nat × Nat) :=
  ((s.nodeRec c n).map Rec.nodeCells).getD []
/-- Node numbers 1 to NODES of a ring, and its cells. -/
def State.nodeList (s : State) (c : Fin 4) : List Nat := (List.range (s.ringNodes c)).map (· + 1)
def State.ringCells (s : State) (c : Fin 4) : List Nat :=
  (s.nodeList c).flatMap fun n => (s.cellsOf c n).map Prod.snd
/-- The string cell numbers of a string, and the cells' records in the same order. -/
def State.stringNos (s : State) (i : Nat) : List Nat := ((s.ringOf i).map s.ringCells).getD []
/-- A cell's record of a string: the cells its ring holds. -/
def State.stringCells (s : State) (i : Nat) : List Cell :=
  match s.ringOf i with
  | some c => (s.ringCells c).map (s.ring c).cellAt
  | none => []

/-! Trains. -/

/-- A train (R297): the preamble, the start byte, and the command block with its CRC-16. Its ED is no byte. -/
def trainBytes (cmd addr seq : Nat) (args : List Byte) : List Byte :=
  let b := leBytes 1 cmd ++ leBytes 1 addr ++ leBytes 1 seq ++ leBytes 1 args.length ++ args
  leBytes 1 0x55 ++ leBytes 1 0xD5 ++ b ++ leBytes 2 (crc16 b)

/-- A train of a command leaves one port of a ring, 0 A or 1 B. Its SEQ is the number of the last sweep (log entry 23). -/
def State.train (s : State) (c : Fin 4) (cmd port addr : Nat) (args : List Byte) : State :=
  s.send (.train c.val port (trainBytes cmd addr (s.ring c).seq args))

/-- A train leaves both ports. -/
def State.train2 (s : State) (c : Fin 4) (cmd addr : Nat) (args : List Byte) : State :=
  (s.train c cmd 0 addr args).train c cmd 1 addr args

/-- Arguments of ENUM and REVCHECK: a count or an address, and STEP (R298). -/
def stepArgs (n : Nat) (up : Bool) : List Byte := leBytes 1 n ++ leBytes 1 (if up then 1 else 255)

/-- The port that still reaches a node: A, or B beyond a break (R315). -/
def State.portTo (s : State) (c : Fin 4) (n : Nat) : Nat :=
  match (s.ring c).brk with
  | some (_, b) => if b ≤ n then 1 else 0
  | none => 0

/-- A ring that is up: its nodes can be commanded (R304). -/
def RingState.up : RingState → Bool
  | .ring | .twoChain => true
  | _ => false

/-- The ring is read from both ports: TWO_CHAIN, or such a ring that ships (R304). -/
def Ring.twoSided (r : Ring) : Bool := r.state = .twoChain || (r.state = .shipping && r.brk.isSome)

/-- A broadcast of a gap: from port A, and over a break from port B too (R315). -/
def State.broadcast (s : State) (c : Fin 4) (cmd : Nat) (args : List Byte) : State :=
  if (s.ring c).twoSided then s.train2 c cmd 0 args else s.train c cmd 0 0 args

/-- A ring counts its nodes anew; they keep the addresses they have (R315). -/
def Ring.recount (r : Ring) : Ring :=
  { r with nA := 0, nB := 0, enumPassed := false, revMismatch := false, enumA := false, enumB := false
           revDone := false, recheck := false, started := false, resend := [] }

/-- A ring starts its count afresh: the addresses from port B run down from 16 again (R302). -/
def Ring.uncount (r : Ring) : Ring := { r.recount with baseB := 17 }

/-! Gaps (R310). -/

/-- Class of a gap transaction (R310, R508): ESTIMATION 2, DIAGNOSTICS 4. -/
def gapClass : Sys2Proof.GapOp → Nat
  | .bal _ | .slot => 2
  | .diag _ | .config _ | .probe _ => 4

/-- The node a transaction goes to, 0 for a broadcast. -/
def gapNode : Sys2Proof.GapOp → Nat
  | .bal n | .diag n | .config n => n.val + 1
  | .probe n => n.val
  | .slot => 0

/-- The transactions that a ring has to send again: those lost whose node is still reached (R315). -/
def Ring.again (r : Ring) : List Sys2Proof.GapOp := r.resend.filter fun o => (r.nodeAt (gapNode o)).present

/-- A gap transaction may run: no sweep is in progress, those lost in flight have been sent again (R315), and no displaced one of a
higher class waits (R72, R310). -/
def State.gapFor (s : State) (c : Fin 4) (o : Sys2Proof.GapOp) : Bool :=
  let r := s.ring c
  r.sweep.isNone && (r.again.contains o
    || (r.again.isEmpty && (gapClass o = 2 || !(r.gapHeld.any fun x => gapClass x = 2))))

/-- A gap transaction is lost in flight, and waits to be sent again (R315). -/
def State.gapLost (s : State) (c : Fin 4) (o : Sys2Proof.GapOp) : State :=
  s.updRing c fun r => { r with resend := if r.resend.contains o then r.resend else r.resend ++ [o] }

/-- A gap transaction runs; one that was displaced is restored by it (R74, R310), and one that was lost is sent again (R315). -/
def State.gapRun (s : State) (c : Fin 4) (o : Sys2Proof.GapOp) : State :=
  let s := s.updRing c fun r => { r with resend := r.resend.filter (· != o) }
  if (s.ring c).gapHeld.contains o then
    (s.updRing c fun r => { r with gapHeld := r.gapHeld.filter (· != o) }).undisplace 3 c.val 0 (gapClass o)
  else s

/-- Re-reads displace gap transactions (R310, R73). -/
def State.gapDisplace (s : State) (c : Fin 4) (l : List Sys2Proof.GapOp) : State :=
  l.foldl (fun s o =>
    if (s.ring c).gapHeld.contains o then s
    else (s.updRing c fun r => { r with gapHeld := r.gapHeld ++ [o] }).displace 3 c.val 0 (gapClass o)) s

/-! Ring state. -/

/-- A configured node without an address, or out of reach (R303, R314). -/
def State.nodeMissing (s : State) (c : Fin 4) (n : Nat) : Bool := !((s.ring c).nodeAt n).present

/-- A cell of the ring is UNMONITORED (R311, R324). -/
def State.anyUnmon (s : State) (c : Fin 4) : Bool :=
  (s.ringCells c).any fun k => ((s.ring c).cellAt k).unmonitored

/-- READY of a ring (R305). -/
def State.ringReady (s : State) (c : Fin 4) : Bool :=
  (s.ring c).state.up && !s.anyUnmon c &&
  match s.ctrNode c with
  | none => true
  | some n => ((s.ring c).nodeAt n).present
      && ((s.ring c).ctr = .open_ || (s.ring c).ctr = .precharge || (s.ring c).ctr = .closed)

/-- A node is MISSING: its cells are UNMONITORED (R303, R311, R314, R315). -/
def State.missNode (s : State) (c : Fin 4) (n : Nat) : State :=
  let s := s.updNode c n fun x => { x with present := false, configured := false, diagDone := false }
  let new := (s.cellsOf c n).any fun k => !((s.ring c).cellAt k.2).unmonitored
  let s := (s.cellsOf c n).foldl (fun s k =>
    s.updCell c k.2 fun x => { x with valid := false, unmonitored := true
                                      unmonAt := if x.unmonitored then x.unmonAt else s.sys.tick }) s
  let s := (s.ev 0x8004 (chnInst c.val n)).degrade
  if new then s.ev 0x8021 (chnInst c.val n) else s

/-- A ring is FAILED (R303). -/
def State.failRing (s : State) (c : Fin 4) : State :=
  ((s.updRing c fun r => { r with state := .failed, failTick := s.sys.tick }).ev 0x8003 (chnInst c.val 0)).degrade

/-- The nodes of a ring as its record places them: what was read from a node counted from B at its provisional address
moves to its place counted from A (R302, R303), where its delays are measured again. After a relock the nodes have their places
and their delays (`again`, R315). -/
def Ring.place (r : Ring) (n : Nat) (again : Bool) : Ring :=
  { r with node := mapV r.node fun j x =>
      let k := j.val + 1
      if n < k then {}
      else if k ≤ r.nA then { x with present := true }
      else if n < k + r.nB then
        let y := r.nodeAt (r.baseB + k - (n + 1))
        { y with present := true, delayA := if again then y.delayA else none, delayB := if again then y.delayB else none }
      else {} }

/-- CTR as the contactor node's status word gives it when the ring comes up. That is no report after a command: a FAULT goes on
keeping DEGRADED set (R19). -/
def State.ctrFound (s : State) (c : Fin 4) : State :=
  s.updRing c fun r => { r with ctr := match s.ctrNode c with
    | none => .none
    | some k => if (r.nodeAt k).ctr then .closed else .open_ }

/-- The check of an ENUMERATED ring against its RING record (R303). The nodes found from B take their places
counted from port A, and REVCHECK from B is repeated; after a relock, where the count matches, they have them and no RESET_ADDR
goes out (`again`, R315). -/
def State.ringCheck (s : State) (c : Fin 4) (again : Bool) : State :=
  let r := s.ring c
  let n := s.ringNodes c
  if r.state != .enumerated || n = 0 then s
  else
    let bad := n < r.nA + r.nB || r.revMismatch || (r.nA = 0 && r.nB = 0) || (r.enumPassed && r.nA != n)
    if bad then s.failRing c
    else
      let s := s.updRing c fun r => { r.place n again with sweep := none, sweepDue := none, started := false }
      if r.enumPassed then
        ((s.updRing c fun r => { r with state := .ring, brk := none, split := s.splitNode c }).ctrFound c).ev 0x8001
          (chnInst c.val 0)
      else
        let s := if again then s else
          ((s.train c 0x01 1 0x00 []).train c 0x02 1 0xFE (stepArgs (n + 1) false)).train c 0x03 1 0x00 (stepArgs n false)
        let s := s.updRing c fun x => { x with
          state := .twoChain, brk := some (r.nA, n + 1 - r.nB), split := r.nA, baseB := n + 1
          recheck := !again && r.nB != 0 }
        let s := ((s.ctrFound c).ev 0x8002 (chnInst c.val 0)).degrade
        ((s.nodeList c).filter fun k => r.nA < k && k + r.nB ≤ n && (!again || (r.nodeAt k).present)).foldl
          (fun s k => s.missNode c k) s

/-- Every ring that waits for a configuration is checked (R303). -/
def State.ringsCheck (s : State) : State := (List.finRange 4).foldl (fun s c => s.ringCheck c false) s

/-- A FAILED ring is tried again from the 6 ms step (R303, R304). -/
def State.ringRetry (s : State) (c : Fin 4) : State :=
  if (s.ring c).state = .failed then
    s.updRing c fun r => { r.uncount with state := .waking }
  else s

/-! Sample instants (R306), in 25 ps from reset. -/

/-- The first midpoint between consecutive turn-on edges of a group at or after an instant: the instant itself
where the group does not switch. Edges lie at the offsets in every period from the frame start, on the fast path together
there (R192). A midpoint is rounded half-even to the 25 ps grid (log entry 125). -/
def State.quietAt (s : State) (g : Fin 4) (t : Nat) : Nat :=
  let gr := s.grp g
  let es := (s.actives g).foldl (fun l p => insertAsc (if gr.state = .fastPath then 0 else (s.ph p).offset) l) []
  if !gr.framing || gr.period = 0 || es.isEmpty then t
  else
    let nxt := (es.drop 1) ++ [es.headD 0 + gr.period]
    let mids := (es.zip nxt).map fun e => gr.frameStart + divHEN (e.1 + e.2) 2
    let at_ := fun (m : Nat) => if t ≤ m then m - (m - t) / gr.period * gr.period
      else m + ceilDiv (t - m) gr.period * gr.period
    mids.foldl (fun acc m => min acc (at_ m)) (at_ (mids.headD t))

/-- Nanoseconds of an instant in 25 ps units, rounded down. -/
def nsOf (t : Nat) : Nat := t / 40

/-- Shelf time of an instant of the root clock, ns from reset. -/
def State.shelfAt (s : State) (ns : Nat) : Nat := s.sys.timeNs + ns - s.rootNs

/-- The time a chain of `m` nodes takes to be read after its sample, ns (R308). -/
def readNs (m : Nat) : Nat := 7000 + 29250 * m

/-- The longer chain or half of a ring as it stands (R307, R314). -/
def State.longerHalf (s : State) (c : Fin 4) : Nat :=
  let r := s.ring c
  match r.state, r.brk with
  | .twoChain, some (a, b) => max a (s.ringNodes c + 1 - b)
  | _, _ => max (s.splitNode c) (s.ringNodes c - s.splitNode c)

/-! Status words. -/

/-- A node's status word as read by ECHO or PROBE, in the layout of CHN_NODE_STATUS (R298, R328): what it reports anew is
recorded. A contactor node that has opened its contactors of its own accord (R320) is seen by it. -/
def State.nodeStatus (s : State) (c : Fin 4) (n w : Nat) : State :=
  let old := (s.ring c).nodeAt n
  let s := s.updNode c n fun x =>
    { x with mwTripped := tb w 29, mwLatch := x.mwLatch || tb w 29, balThermal := tb w 28
             linkALost := tb w 27, linkBLost := tb w 26, ctr := tb w 25, alert := false }
  let s := if tb w 29 && !old.mwTripped then s.ev 0x8051 (chnInst c.val n) else s
  let s := if tb w 28 && !old.balThermal then s.ev 0x8041 (chnInst c.val n) else s
  if s.ctrNode c = some n && (s.ring c).state.up && (s.ring c).ctr = .closed && !tb w 25 then
    (s.updRing c fun r => { r with ctr := .open_, ctrCmd := none }).ev 0x8071 (chnInst c.val n)
  else s

/-! Contactors (R322). -/

/-- The contactors of a ring are commanded: the train goes to the contactor node, which starts its sequence.
A node out of reach leaves the command outstanding (R315). -/
def State.contactor (s : State) (c : Fin 4) (close : Bool) : State :=
  match s.ctrNode c with
  | none => s
  | some n =>
    let s := s.train c 0x40 (s.portTo c n) n (leBytes 1 (bitAt close 0))
    let r := s.ring c
    if !r.state.up && r.state != .shipping || !(r.nodeAt n).present then
      s.updRing c fun r => { r with ctrCmd := some close }
    else if close then
      s.updRing c fun r =>
        if r.ctr = .closed then { r with ctrCmd := none } else { r with ctr := .precharge, ctrCmd := some true }
    else
      let was := r.ctr
      let s := s.updRing c fun r => { r with ctr := .open_, ctrFaulted := false, ctrCmd := none }
      if was = .open_ then s else s.ev 0x8071 (chnInst c.val n)

/-- The contactors of a string. -/
def State.strContactor (s : State) (i : Nat) (close : Bool) : State :=
  match s.ringOf i with
  | some c => s.contactor c close
  | none => s

end Sys2Proof.Machine
end

