-- ==== Sys2Proof/Machine/EstOps.lean ====
section
/-! DEFINITION. Operations of storage estimation: the string records (R354), open-circuit tables (R332, R334),
limits (R344, R407), health (R331), planning SOC and energy (R345, R347), initial SOC (R332) and readings
(R340). -/

namespace Sys2Proof.Machine

/-- A change of one string's estimator, and of its protection. -/
def State.updStr (s : State) (i : Fin 4) (f : Str → Str) : State :=
  { s with est := { s.est with str := updV s.est.str i f } }
def State.updStrProt (s : State) (i : Fin 4) (f : StrProt → StrProt) : State :=
  { s with prot := { s.prot with str := updV s.prot.str i f } }
/-- A string's estimator by number. -/
def State.estr (s : State) (i : Fin 4) : Str := s.est.str[i.val]

/-! Records (R354). -/

/-- A 16-bit field where 0 takes a default. -/
def Rec.def16 (r : Rec) (o d : Nat) : Nat := if r.u16 o = 0 then d else r.u16 o
/-- The same of a string's STRING_MODEL, 0 without one. -/
def State.str16 (s : State) (i : Fin 4) (o d : Nat) : Nat := ((s.strRec i.val).map fun r => r.def16 o d).getD 0
/-- A 32-bit and a 16-bit field of a string's STRING_MODEL, 0 without one. -/
def State.str32 (s : State) (i : Fin 4) (o : Nat) : Nat := ((s.strRec i.val).map fun r => r.u32 o).getD 0
def State.cells (s : State) (i : Fin 4) : Nat := ((s.strRec i.val).map fun r => r.u16 0x0A).getD 0
/-- The configured strings (R330). -/
def State.strings (s : State) : List (Fin 4) := (List.finRange 4).filter fun i => (s.strRec i.val).isSome

/-- A 16-bit field of ECLIPSE and of RESERVE_GRID where 0 takes a default. -/
def State.ecl16 (s : State) (o d : Nat) : Nat := (((s.recs 0x0803).head?).map fun r => r.def16 o d).getD d
def State.res16 (s : State) (o d : Nat) : Nat := (((s.recs 0x0804).head?).map fun r => r.def16 o d).getD d
/-- ENABLE, which as 0 takes its default 1 as every field does (R354), and MARGIN_PCT. -/
def State.eclEnable (s : State) : Bool := (((s.recs 0x0803).head?).map fun r => defOf (r.u8 0x08) 1 == 1).getD true
def State.marginPct (s : State) : Nat :=
  let x := (((s.recs 0x0803).head?).map fun r => r.u8 0x09).getD 0
  if x = 0 then 80 else x
/-- REST_S, RELAX_S, REST_I_MAX_MA, FORCE_BAND. -/
def State.restS (s : State) : Nat := s.ecl16 0x0A 120
def State.relaxS (s : State) : Nat := s.ecl16 0x0C 90
def State.restImax (s : State) : Nat := s.ecl16 0x10 500
def State.forceBand (s : State) : Nat := s.ecl16 0x12 1500

/-- The points of a string's OCV_TABLE: SOC in 0.01 %, cell voltage in 0.1 mV. -/
def State.ocvTab (s : State) (i : Fin 4) : List (Nat × Nat) :=
  match s.rec8 0x0802 0x08 i.val with
  | some r => (List.range 32).map fun k => (r.u16 (0x10 + 4 * k), r.u16 (0x12 + 4 * k))
  | none => []

/-- The segments of a table. -/
def segments (tab : List (Nat × Nat)) : List ((Nat × Nat) × (Nat × Nat)) := tab.zip (tab.drop 1)

/-- SOC with 32 fractional bits of a cell voltage num / den in 0.1 mV, linear in the table; beyond the table's
ends, the SOC of its end (log entry 25). -/
def ocvSoc (tab : List (Nat × Nat)) (num : Int) (den : Nat) : Int :=
  match (segments tab).find? fun x => num ≤ (x.2.2 * den : Nat) with
  | some ((s0, v0), (s1, v1)) =>
    if num ≤ (v0 * den : Nat) then (s0 * 2 ^ 32 : Nat)
    else (s0 * 2 ^ 32 : Nat) + divHE (((s1 : Int) - s0) * (num - v0 * den) * 2 ^ 32) ((v1 - v0) * den)
  | none => (((tab.getLast?.map Prod.fst).getD 0) * 2 ^ 32 : Nat)

/-- ocv_inverse in FP32 of a cell voltage in mV (R334), with the segment it lies in. -/
def ocvInv (tab : List (Nat × Nat)) (mv : Nat) : Nat × Option ((Nat × Nat) × (Nat × Nat)) :=
  let x := fMul mv 0x41200000
  match (segments tab).find? fun y => fLe x (fOfInt y.2.2) with
  | some ((s0, v0), (s1, v1)) =>
    if fLe x (fOfInt v0) then (fOfInt s0, none)
    else (fAdd (fOfInt s0) (fDiv (fMul (fOfInt ((s1 : Int) - s0)) (fSub x (fOfInt v0))) (fOfInt ((v1 : Int) - v0))),
      some ((s0, v0), (s1, v1)))
  | none => (fOfInt ((tab.getLast?.map Prod.fst).getD 0), none)

/-- SOC_V with 32 fractional bits. -/
def Str.socVFix (x : Str) : Int := fToInt x.socV 32

/-! Health and limits. -/

/-- A string is healthy (R331). -/
def State.isHealthy (s : State) (i : Fin 4) : Bool :=
  ((s.grp i).state = .softStart || (s.grp i).state = .running || (s.grp i).state = .fastPath)
  && !(s.afe.shunt[i.val]).dead
  && match s.ringOf i.val with
     | some c => s.ringReady c && s.ctrClosed c
     | none => false

/-- The healthy strings. -/
def State.healthyStrs (s : State) : List (Fin 4) := s.strings.filter fun i => (s.estr i).healthy

/-- Health is judged at a tick (R331): changes are recorded, and a single string left. -/
def State.healthTick (s : State) : State :=
  let s := s.strings.foldl (fun s i =>
    let h := s.isHealthy i
    if h = (s.estr i).healthy then s
    else (s.updStr i fun x => { x with healthy := h }).ev (if h then 0x9051 else 0x9050) i.val) s
  let single := s.healthyStrs.length = 1
  let was := s.est.singleString
  let s := { s with est := { s.est with singleString := single } }
  if single && !was then s.ev 0x9023 ((s.healthyStrs.head?.map Fin.val).getD noInst) else s

/-- The state of charge that charging is permitted by (R343, R344). -/
def State.chargeSoc (s : State) (i : Fin 4) : Int :=
  let x := s.estr i
  if x.conflict then max x.soc x.socVFix else x.soc

/-- The charge limit of R344 before rests and protection, mA, and whether it is reduced. -/
def State.chgLimit (s : State) (i : Fin 4) : Int × Bool :=
  let full : Int := s.str32 i 0x30
  let lo : Int := s.str16 i 0x3A 9000
  let hi : Int := s.str16 i 0x3C 9500
  let q := s.chargeSoc i
  if q ≤ lo * 2 ^ 32 then (full, false)
  else (clampI 0 full (divHE (full * (hi * 2 ^ 32 - q)) ((hi - lo).toNat * 2 ^ 32)), true)

/-- Both limits of a string as they enter I_lim (R339, R344, R407, R408), mA. -/
def State.strLimits (s : State) (i : Fin 4) : Int × Int :=
  let x := s.estr i
  let p := s.prot.str[i.val]
  let ramp := fun (l : Int) => divHE (l * x.restRamp) 50000
  let both := p.tHigh || p.unmonLimit
  (if p.vHigh || both then 0 else ramp (s.chgLimit i).1,
    if p.vLow || both then 0 else ramp (s.str32 i 0x34))

/-- The limits of every string are reported and take force (R344), and the ramps of rests advance by a tick
(R339). -/
def State.limitsTick (s : State) : State :=
  s.strings.foldl (fun s i =>
    let s := s.updStr i fun x =>
      { x with restRamp := match x.rest with
                 | .rampDown => x.restRamp - 1
                 | .rampUp => min 50000 (x.restRamp + 1)
                 | .idle => 50000
                 | _ => x.restRamp }
    let l := s.strLimits i
    s.updStr i fun x => { x with ilimChg := l.1, ilimDch := l.2 }) s

/-! Energy. -/

/-- The planning SOC of R345, 32 fractional bits. -/
def State.socPlan (s : State) (i : Fin 4) : Int :=
  let x := s.estr i
  let low := x.soc - x.band
  max 0 (match x.conflict, s.est.singleString with
    | true, true => min low x.socVFix
    | true, false => min x.soc x.socVFix
    | false, true => low
    | false, false => x.soc)

/-- e of R347 up to a SOC with 32 fractional bits, J, by the record's CAP_MAH: each segment of the table is integrated exactly and
rounded half-even to 2^-20 J. -/
def State.energyTo (s : State) (i : Fin 4) (soc : Int) : Int :=
  let lo : Int := (s.str16 i 0x38 500) * 2 ^ 32
  if soc ≤ lo then 0
  else
    let k : Int := s.cells i * (2 ^ 16 * s.str32 i 0x10) * 36
    let part := fun (x : (Nat × Nat) × (Nat × Nat)) =>
      let a := max lo ((x.1.1 : Int) * 2 ^ 32)
      let b := min soc ((x.2.1 : Int) * 2 ^ 32)
      let ds := x.2.1 - x.1.1
      if b ≤ a then 0
      else divHE (k * (2 * (x.1.2 : Int) * ds * 2 ^ 32 + ((x.2.2 : Int) - x.1.2) * (a + b - 2 * x.1.1 * 2 ^ 32))
        * (b - a) * 2 ^ 20) (2 * ds * 10 ^ 9 * 2 ^ 80)
    divHE (((segments (s.ocvTab i)).map part).sum) (2 ^ 20)

/-- RATED_W of R347. -/
def State.ratedW (s : State) : Int := if s.est.ratedKw = 0 then s.plimFull else 1000 * s.est.ratedKw

/-- The storage power of the shelf, W (R21, R206). -/
def State.storageP (s : State) : Int := ((List.finRange 4).map fun g => (s.grp g).p).sum

/-- A forced rest is due (R337, R343, R346). -/
def Str.forcedDue (x : Str) : Bool := x.forced || x.conflict || x.bandWide

/-! Initial SOC and readings. -/

/-- The initial state of charge at the passage to ARMED (R332): the mean cell voltage of the last complete
sweep. A string without one, or with no VALID cell in it, gets none (log entry 25). -/
def State.initialSoc (s : State) : State :=
  let s := s.strings.foldl (fun s i =>
    let (sum, n) := ((s.ringOf i.val).bind fun c => (s.ring c).wholeSum).getD (0, 0)
    let s := s.updStr i fun x => { x with v1 := 0, v2 := 0, lastQ := none, sumI := 0, nI := 0, quietMs := 0, quietRead := false }
    if n = 0 then s
    else s.updStr i fun x =>
      { x with soc := ocvSoc (s.ocvTab i) (sum : Nat) n
               band := (s.str16 i 0x44 500 : Nat) * 2 ^ 32, socSet := true }) s
  if !s.strings.isEmpty && s.strings.all fun i => (s.estr i).socSet then
    if s.est.ready then s else { s with est := { s.est with ready := true } }.ev 0x9001
  else s

/-- Capacity in force, mAh (EST_STR_CAP): held with 16 fractional bits, rounded half-even. -/
def Str.capMah (x : Str) : Int := rshe x.cap 16

/-- The capacity after a reading (R340), 16 fractional bits of mAh, where it changes: the previous reading no
more than 24 h back, and 20.00 % apart. -/
def State.newCap (s : State) (i : Fin 4) (soc : Int) : Option Nat :=
  let x := s.estr i
  match x.lastReading with
  | none => none
  | some (soc0, q0, t0) =>
    let ds := (soc - soc0).natAbs
    if s.sys.timeNs ≤ t0 + 86400000000000 && 2000 * 2 ^ 32 ≤ ds then
      let dq := ((s.shunt i).q - q0).natAbs
      let c := divHEN (dq * 10000 * 2 ^ 32 * 2 ^ 16) (ds * 3600000000)
      let base : Int := (2 ^ 16 * s.str32 i 0x10 : Nat)
      some (clampI (divHE (base * 4) 5) (divHE (base * 6) 5) ((x.cap : Int) + divHE ((c : Int) - x.cap) 4)).toNat
    else none

/-- A reading is taken (R340, R342, R343): from the mean of v + v1 + v2 in 1/256 mV and the mean cell voltages,
0.1 mV, in the order of the string's cells. Balancing names a cell by its string cell number. -/
def State.takeReading (s : State) (i : Fin 4) (mean : Int) (cellV : List Nat) : State :=
  let soc := ocvSoc (s.ocvTab i) (10 * mean) (256 * s.cells i)
  let cap := s.newCap i soc
  let lowest := cellV.foldl min (cellV.headD 0)
  let bal := ((cellV.zip (s.stringNos i.val)).filter fun x => lowest + 10 * s.ecl16 0x18 10 < x.1).map Prod.snd
  let was := (s.estr i).conflict
  let s := s.updStr i fun x =>
    { x with soc := soc, band := (s.str16 i 0x42 100 : Nat) * 2 ^ 32, ocv := (divHE mean 256).toNat
             restT := s.sys.timeNs, restCount := bump 16 x.restCount, conflict := false, forced := false
             bandWide := decide (s.forceBand < s.str16 i 0x42 100), cap := cap.getD x.cap, lastReading := some (soc, (s.shunt i).q, s.sys.timeNs), balance := bal }
  let s := s.ev 0x9011 i.val
  let s := if was then s.ev 0x9021 i.val else s
  if cap.isSome then s.ev 0x9025 i.val else s

end Sys2Proof.Machine
end

