-- ==== Sys2Proof/Machine/SysOps.lean ====
section
/-! DEFINITION. Passages between device states (R441, R442, R445) and resets (R443, R444). -/

namespace Sys2Proof.Machine

/-- A passage (R441): the new state, and event 0x0002 with both. -/
def State.setState (s : State) (st : DevState) : State :=
  let old := s.sys.state
  { s with sys := { s.sys with state := st } }.ev 0x0002 noInst (st.code + 16 * old.code)

/-- ORPHAN clears (R386): event 0xA041, and the measurement restarts. -/
def State.clearOrphan (s : State) : State :=
  if s.sys.orphan then
    (({ s with sys := { s.sys with orphan := false }, net := { s.net with rmFrom := s.rootNs } }).ev 0xA041).regrant s
  else s

/-- A request that no passage honours: event 0x0003 (R442, R450). -/
def State.refuseTarget (s : State) (t : Nat) : State := s.ev 0x0003 noInst (t + 16 * s.sys.state.code)

/-! Between STANDBY, ARMED and RUN. -/

/-- The conditions of the passage from STANDBY to ARMED (R441), and the highest state of the lifecycle
(R446). -/
def State.mayArm (s : State) : Bool :=
  s.sys.state = .standby && (s.sys.target = 3 || s.sys.target = 4) && s.afe.bootCalDone && s.power.holdupOk
  && s.rings.all s.ringReady && !((List.finRange 4).any fun i => s.prot.str[i.val].isolated) && !s.anyCause
  && s.sec.lifecycle = 2

/-- The device leaves ARMED for STANDBY (R441): the engine stops, the contactors stay. -/
def State.disarm (s : State) : State :=
  let s := { s with sys := { s.sys with passage := .none } }
  (s.setState .standby).engineSync

/-- RACK_HOLD_N is driven low while Basalt's 10 ms or an undervoltage trip asks for it (R406, R413, R426): from RUN on, never
before RUN (R435), and not in an input loss (R34). -/
def State.holdSync (s : State) : State :=
  let want := (s.prot.entryHold || s.prot.busUv) && !s.power.inputLoss
  if want && !s.sys.rackHoldDrive then (if s.inState [.run, .basalt] then s.driveHold else s)
  else { s with sys := { s.sys with rackHoldDrive := want } }

/-- Entry into RUN from ARMED (R441): groups, slots, ports, profiles and the silence of R386 start. With a
failed start condition the module stays in ARMED (R186). While a group is not OFF yet the START waits for the next one
(log entry 92). -/
def State.enterRun (s : State) : State :=
  if s.sys.state != .armed || s.anyCause || s.sys.passage != .none || s.prot.coolShutdown || !s.allOff then s
  else if !s.startCheck then
    s.groups.foldl (fun s g =>
      if s.nAct g = 0 || !s.busInRange g then s.ev 0x5004 (grpInst g.val) else s) s
  else
    let s := (s.setState .run).loopsEnterRun.profileAtBus
    let s := s.groups.foldl State.startGroup s
    let p := ((List.finRange 16).map fun i => (s.psuPort i).p).sum
    let s := { s with
      est := { s.est with gP := fxOf (p * 1000) 1, gV := 0, gA := 0, gRunning := true, gridTarget := p
                          accLoad := 0, accStore := 0, accN := 0, peakNow := 0 }
      pwm := { s.pwm with brickI := none, brickNext := none, lostPower := 0, lostPort := false, plimRef := s.plimNow }
      net := { s.net with rmFrom := s.rootNs } }
    let s := s.portsEnterRun.engineSync
    let s := if s.sys.rackHoldSeen then s.throttleAllPorts 2 else s
    s.holdSync

/-- What ends with RUN or BASALT when the device goes to ARMED or STANDBY (R141, R262, R350, R386). -/
def State.endService (s : State) : State :=
  let s := s.loopsStop
  let s := { s with
    loop := { s.loop with basaltGroups := Vector.replicate 4 false }
    est := { s.est with gRunning := false }
    pwm := { s.pwm with brickI := none, brickNext := none, lostPower := 0, lostPort := false }
    tlk := { s.tlk with shareStale := false }
    net := { s.net with runConsent := false } }
  (s.portsLeaveRun.clearOrphan).engineSync

/-- Groups handed to Basalt in RUN return with the end of RUN (R419). -/
def State.returnHanded (s : State) : State :=
  (List.finRange 4).foldl (fun s g => if s.loop.basaltGroups[g.val] then s.ev 0xB008 g.val else s) s

/-- RUN ends for ARMED (R441): FAILOVER cause 3, and the groups pass to STOPPING. -/
def State.leaveRun (s : State) : State :=
  ((((s.setState .armed).failover 3).stopGroups).returnHanded).endService

/-- RUN ends for ARMED with GDRV_EN low at once (R405, R406). -/
def State.leaveRunOff (s : State) : State :=
  ((((s.setState .armed).failover 3).groupsOff).returnHanded).endService

/-! Out of BASALT by TARGET (R441). -/

/-- What BASALT leaves behind at its end: causes, flags and its hold of RACK_HOLD_N. -/
def State.basaltOver (s : State) : State :=
  ({ s with prot := { s.prot with causes := Vector.replicate 4 false, exitOk := false, rootless := false, rootRamp := 0
                                  imageBad := false, entryHold := false } }).holdSync

/-- BASALT ends for ARMED or STANDBY: Basalt ramps every group to 0, and the causes are cleared. -/
def State.leaveBasalt (s : State) (st : DevState) : State :=
  ((((s.setState st).stopGroups).basaltOver).clearCause 3).endService

/-! SHIP_PREP (R323, R445). -/

/-- The rings' own steps into ship mode, once the groups are OFF: the contactors open. -/
def State.shipRings (s : State) : State :=
  (List.finRange 4).foldl (fun s c =>
    if (s.ring c).state = .shipping then s.contactor c false else s) s

/-- Entry into SHIP_PREP from STANDBY or ARMED: FAILOVER cause 5, and the membership of the row ring ends
(R391, R396). -/
def State.enterShip (s : State) : State :=
  let s := { s with sys := { s.sys with passage := .none } }
  let s := (((s.setState .shipPrep).failover 5).portsEnterSafe).stopGroups
  let s := s.unjoin
  let s := (List.finRange 4).foldl (fun s c => s.updRing c fun r =>
    if r.state.up then { r with state := .shipping } else r) s
  let s := s.rotationShip.engineSync
  if s.allOff then s.shipRings else s

/-- The passage to ARMED is abandoned (R450): the device stays in STANDBY, with event 0x0003 and no passage recorded; a
TARGET of SHIP_PREP written meanwhile takes effect (log entry 133). -/
def State.armAbandon (s : State) : State :=
  let s := s.refuseTarget s.sys.target
  let s := ({ s with sys := { s.sys with passage := .none, state := .standby } } : State).engineSync
  if s.sys.target = 6 then s.enterShip else s

/-- A passage to ARMED in progress is abandoned where a ring loses READY or a string is isolated (R305,
R450). -/
def State.armCheck (s : State) : State :=
  if s.sys.passage = .toArmed
      && (!s.rings.all s.ringReady || (List.finRange 4).any fun i => s.prot.str[i.val].isolated) then
    s.armAbandon
  else s

/-! Resets. -/

/-- What of the EVR block a reset keeps: what lies in MRAM and flash, and over a WARM or WATCHDOG one the Obsidian writer,
which runs in the standby domain (R443, R478; log entry 130). -/
def Evr.kept (v : Evr) (warm : Bool) : Evr :=
  { writer := warm && v.writer, keySums := if warm then v.keySums else [], keyTicks := if warm then v.keyTicks else 0
    recent := v.recent, recentPos := v.recentPos, recentWraps := v.recentWraps, first := v.first, firstFull := v.firstFull, slot := v.slot
    closedCount := v.closedCount, history := v.history }

/-- A tray port over a WARM or WATCHDOG reset: the link hardware goes on answering with NOT_READY (R263,
R443). -/
def Port.overWarm (p : Port) : Port :=
  { state := if p.linked then (if p.state = .identifying || p.state = .unused then .identifying else .notReady)
             else .down
    linked := p.linked, tseq := p.tseq, gseqAck := p.gseqAck, gseqSent := p.gseqSent, vendor := p.vendor
    serial := p.serial, pMax := p.pMax, slopeMax := p.slopeMax, floorMin := p.floorMin, report := p.report
    lastPrimaryUp := p.lastPrimaryUp, lastP := p.lastP, envSent := p.envSent }

/-- The supplies as they stand after a reset of a kind: a WARM or WATCHDOG reset keeps the standby domain, a
FULL one the supplies and the hold-up charge (R443). -/
def Power.over (p : Power) (kind : Nat) : Power :=
  if kind = 2 || kind = 4 then { p with lossTick := 0 }
  else
    { aux54Ok := p.aux54Ok, stby12Ok := p.stby12Ok, stbySrc := p.stbySrc, mate := p.mate
      svcPresent := p.svcPresent, stby12Gone := (kind = 1 || kind = 3) && p.stby12Gone, aux54mV := p.aux54mV, stby12mV := p.stby12mV, inputP := p.inputP
      holdupOk := kind = 3 && p.holdupOk, holdupE := if kind = 3 then p.holdupE else 0
      holdupCharging := kind = 3 && p.holdupCharging }

/-- The clocks as they stand after a reset (R443): REF_SEL is 0 again. Over a WARM or WATCHDOG one the root PLL runs on; with
the crystal failed the cleaning PLL stays on REF_IN, or in holdover (R39; log entry 87). The times of presence begin anew
with the tick count. -/
def Clock.over (c : Clock) (warm : Bool) : Clock :=
  { basaltOscOk := warm && c.basaltOscOk, refInPresent := c.refInPresent, xtalOk := c.xtalOk
    rootLock := warm && c.rootLock, refSrc := warm && c.refSrc && !c.xtalOk
    refHoldover := warm && c.refHoldover && !c.xtalOk, fallbackBlocked := warm && c.fallbackBlocked && !c.xtalOk }

/-- The state after a reset of KIND 0 POWER_ON, 1 INPUT_RETURN, 2 WARM, 3 FULL or 4 WATCHDOG (R443): every
register at its reset value, and what the kind keeps. -/
def State.resetTo (s : State) (kind : Nat) : State :=
  let warm := kind = 2 || kind = 4
  let b := if s.sec.fwStaged then !s.sec.fwSlotB else s.sec.bootSlotB
  { State.reset with
    power := s.power.over kind
    clk := s.clk.over warm
    sys := { resetCause := kind, step := s.sys.step, rackHoldSeen := s.sys.rackHoldSeen
             tap := if warm then s.sys.tap else .bypass }
    sec := { lifecycle := s.sec.lifecycle, identityKeys := s.sec.identityKeys, custRootSet := s.sec.custRootSet
             bootSlotB := b, fwCounter := s.sec.fwCounter, cfgCounter := s.sec.cfgCounter
             vendorKeys := s.sec.vendorKeys, identityPub := s.sec.identityPub, identitySigs := s.sec.identitySigs
             custRoot := s.sec.custRoot, serial := s.sec.serial
             fwSlotAImg := s.sec.fwSlotAImg, fwSlotBImg := s.sec.fwSlotBImg, fwNewA := s.sec.fwNewA
             fwNewB := s.sec.fwNewB, fusesOk := warm && s.sec.fusesOk }
    cfg := { State.reset.cfg with slotA := s.cfg.slotA, slotB := s.cfg.slotB, bootMark := s.cfg.bootMark }
    afe := { failMap := s.afe.failMapStored, failMapStored := s.afe.failMapStored
             shunt := s.afe.shunt.map fun (x : Shunt) => { degraded := x.aFailed || x.bFailed || x.degraded } }
    tlk := { port := if warm then s.tlk.port.map Port.overWarm else Vector.replicate 64 {}
             portsUp := warm && s.tlk.portsUp, mirror := s.tlk.mirror, mirrorDigest := s.tlk.mirrorDigest }
    chn := { ring := if warm then s.chn.ring.map fun r => ({ toneHeard := r.toneHeard } : Ring)
                     else Vector.replicate 4 {} }
    net := { mac := s.net.mac, cak := s.net.cak, forwarding := warm && s.net.forwarding }
    prot := { image := if warm then s.prot.image else Vector.replicate 4 none
              imageOk := if warm then s.prot.imageOk else true }
    mem := { tier := s.mem.backing, backing := s.mem.backing, mram := s.mem.mram }
    evr := s.evr.kept warm
    tx := s.tx, fv := s.fv, pending := s.pending }

/-- The first 2 ms from t0 (R434): the fuses are read, the root PLL locks on the crystal, Basalt's oscillator
runs, and the hold-up bank charges (R37). -/
def State.fromT0 (s : State) : State :=
  { s with
    power := { s.power with holdupCharging := true }
    clk := { s.clk with xtalOk := true, rootLock := true, basaltOscOk := true }
    sec := { s.sec with fusesOk := true } }

/-- A boot of a kind, from the state coded `old` (R434, R441, R443): a WARM or WATCHDOG one restarts after the
first 2 ms. Events 0x0001 and 0x0002, and 0x0021 where the reset of REF_SEL slews the cleaning PLL to the crystal (R57). -/
def State.bootFrom (s : State) (kind old : Nat) : State :=
  let b := s.resetTo kind
  let warm := kind = 2 || kind = 4
  let t := ((if warm then b else b.fromT0).ev 0x0001 noInst kind).ev 0x0002 noInst (1 + 16 * old)
  if warm && s.clk.refSrc && s.clk.xtalOk then t.ev 0x0021 else t

/-- A pending swap is cancelled by a reset (R444). -/
def State.swapLost (s : State) : State := if s.cfg.swapPending.isSome then s.ev 0x2006 else s

/-- A reset (R444). One that restarts from t0 waits while MATE_N is high, as no t0 occurs then (R44). -/
def State.doReset (s : State) (kind : Nat) : State :=
  if kind = 3 && !s.power.mate then { s with sec := { s.sec with resetReq := some kind } }
  else s.swapLost.bootFrom kind s.sys.state.code

/-- A WATCHDOG reset (R444): in RUN the gates go low at once, with FAILOVER cause 3. -/
def State.watchdogReset (s : State) : State :=
  (if s.sys.state = .run then (s.gdrvLow).failover 3 else s).doReset 4

/-! TARGET. -/

/-- A TARGET that takes effect (R441, R442). A TARGET written during the passage to ARMED waits for its
completion. -/
def State.applyTarget (s : State) (t : Nat) : State :=
  let set := fun (s : State) => { s with sys := { s.sys with target := t } }
  match s.sys.state with
  | .boot => if t = 6 then s.refuseTarget t else set s
  | .standby => if t = 6 then (set s).enterShip else set s
  | .armed =>
    let s := if t = 4 then { s with net := { s.net with runConsent := true } } else s
    if s.sys.passage = .toArmed then set s
    else if t = 2 then (set s).disarm
    else if t = 6 then (set s).enterShip
    else set s
  | .run =>
    if t = 6 then s.refuseTarget t
    else if t = 4 then set s
    else if t = 3 then (set s).leaveRun
    else (set s).leaveRun.disarm
  | .basalt =>
    if t = 6 || (t != 4 && !s.clk.rootLock) then s.refuseTarget t
    else if t = 4 then set s
    else (set s).leaveBasalt (if t = 3 then .armed else .standby)
  | .shipPrep => s.refuseTarget t

/-- What leaving BASALT lets happen: a WATCHDOG reset that was deferred (R444). -/
def State.afterBasalt (s : State) : State :=
  if s.sec.watchdogDue && s.sys.state != .basalt then s.watchdogReset else s

/-- A write of SYS_STATE_REQ.TARGET (R442, R451): other values are ignored. -/
def State.writeTarget (s : State) (t : Nat) : State :=
  if t = 2 || t = 3 || t = 4 || t = 6 then (s.applyTarget t).afterBasalt else s

/-- The passage to ARMED ends, and a TARGET written meanwhile takes effect (R442). -/
def State.passageEnd (s : State) : State :=
  if s.sys.passage = .toArmed then
    let s := { s with sys := { s.sys with passage := .none } }
    if s.sys.target = 2 || s.sys.target = 6 then s.applyTarget s.sys.target else s
  else s

/-- The passage to ARMED completes when every contactor is CLOSED and every ring READY (R305, R441, R450). -/
def State.armDone (s : State) : State :=
  if s.rings.all s.ctrClosed && s.rings.all s.ringReady then s.passageEnd else s

/-- STANDBY to ARMED (R441): initial SOC, then contactor close, then the forecast engine. -/
def State.arm (s : State) : State :=
  let s := s.initialSoc
  let s := s.rings.foldl (fun s c => s.contactor c true) s
  let s := (s.setState .armed).engineSync
  { s with sys := { s.sys with passage := .toArmed }, net := { s.net with runConsent := false } }.armDone

/-! When groups reach OFF. -/

/-- A group has reached OFF: the coolant shutdown completes (R422), a reset that waited follows (R444), and the
rings go on into ship mode (R323). -/
def State.afterOff (s : State) : State :=
  if !s.allOff then s
  else
    let s :=
      if s.prot.coolShutdown && s.prot.coolNext = some 0 then
        let s := { s with prot := { s.prot with coolNext := none } }
        let s := if s.sys.state = .run then s.leaveRun else s
        s.ev 0xB044
      else s
    let s := if s.sys.state = .shipPrep then s.shipRings else s
    match s.sec.resetReq with
    | some k => s.doReset k
    | none => s

end Sys2Proof.Machine
end

