-- ==== Sys2Proof/Machine/ProtOps.lean ====
section
/-! DEFINITION. Operations of the PROT block: trips (R427), the cell limits (R407, R408), entry into BASALT
and its causes (R411 to R417), the exit (R418), and the coolant rules (R421, R422). -/

namespace Sys2Proof.Machine

/-! Trips. -/

/-- SYS_STATE as a word (R16). -/
def State.stateWord (s : State) : Nat :=
  s.sys.state.code + (if s.sys.degraded then 256 else 0) + (if s.sys.lead then 512 else 0)
  + (if s.sys.orphan then 1024 else 0)

/-- A trip (R427): its record enters the ring, and its event carries an INSTANCE and DATA of its own. -/
def State.trip (s : State) (code inst detail : Nat) (value limit : Int) (evInst data : Nat) : State :=
  let t : Trip := { code := code, inst := inst, detail := detail, value := sat32 value, limit := sat32 limit
                    state := s.stateWord, time := s.sys.timeNs
                    tick := if s.clk.fabricStopped then 0 else s.sys.tick }
  let p := s.prot
  let h := if p.trips.toList.all Option.isNone then 0 else (p.tripHead + 1) % 16
  ({ s with prot := { p with trips := updN p.trips h fun _ => some t, tripHead := h
                             tripCount := bump 32 p.tripCount
                             tripFirst := if p.tripFirst.isNone then some t else p.tripFirst } }).ev code evInst data

/-- A trip of R404 to R408: DATA holds VALUE (R508). -/
def State.tripV (s : State) (code inst detail : Nat) (value limit : Int) (evInst : Nat) : State :=
  s.trip code inst detail value limit evInst (codeS 32 (sat32 value))

/-- A trip to which the spec gives no measured value and no limit: both are free values (log entry 7). -/
def State.tripFree (s : State) (code detail data : Nat) : State :=
  (s.used.used).trip code 0xFF detail (Config.freeInt s.fv) (Config.freeInt (s.fv + 1)) noInst data

/-! Causes of Basalt (R411, R412). -/

/-- BASALT_CAUSE as a number. -/
def State.causeBits (s : State) : Nat :=
  ((List.finRange 4).map fun c => if s.prot.causes[c.val] then 2 ^ c.val else 0).sum

/-- The bit of a cause sets or clears. -/
def State.setCause (s : State) (c : Fin 4) (v : Bool) : State :=
  { s with prot := { s.prot with causes := updV s.prot.causes c fun _ => v } }

/-- CFG_RESULT and CFG_RESULT_OFFSET take an outcome (R80, R91). -/
def State.setResult (s : State) (code : Nat) (section_ : Nat := 255) (rtype : Nat := 0)
    (offset : Nat := 0xFFFFFFFF) : State :=
  { s with cfg := { s.cfg with resultCode := code, resultSection := section_, resultType := rtype
                               resultOffset := offset } }

/-- A pending swap is cancelled (R85, R92). -/
def State.cancelSwap (s : State) : State :=
  if s.cfg.swapPending.isSome then
    (({ s with cfg := { s.cfg with swapPending := none } }).setResult 0x50).ev 0x2006
  else s

/-- EXIT_OK sets once every cause other than OPERATOR has cleared (R417). -/
def State.exitSync (s : State) : State :=
  if s.sys.state = .basalt && !s.prot.exitOk && s.causeBits % 8 = 0 then
    { s with prot := { s.prot with exitOk := true, exitTick := s.sys.tick } }.ev 0xB002
  else s

/-- Entry into BASALT from RUN (R413, R415): THROTTLE, RACK_HOLD_N, FAILOVER while the root clock runs, SAFE
grants, and the groups pass to Basalt. Where the image fails its CRC, every group is held off. With the root
clock lost, VALUE of the trip record carries UNLOCK_COUNT (R413). -/
def State.enterBasalt (s : State) : State :=
  let s := (s.setState .basalt).throttleAllPorts 3
  let s := ({ s with prot := { s.prot with entryHold := true, exitOk := false, entryTick := s.sys.tick } }).holdSync
  let s := if s.clk.fabricStopped then s else s.failover 1
  let s := ((List.finRange 4).foldl State.giveBasalt s.portsEnterSafe).loopsStop
  let s := ({ s with est := { s.est with gRunning := false } }).cancelSwap
  let s := if s.prot.imageOk then s
    else (({ s with prot := { s.prot with imageBad := true } }).gdrvLow).ev 0xB004
  let s := if s.clk.fabricStopped then
      s.used.trip 0xB001 0xFF s.causeBits s.clk.unlockCount (Config.freeInt s.fv) noInst s.causeBits
    else s.tripFree 0xB001 s.causeBits s.causeBits
  s.engineSync.exitSync

/-- A cause that arises outside RUN and BASALT is held (R412): the drivers stay low, and a group still
STOPPING is OFF with them. -/
def State.holdCause (s : State) (c : Fin 4) : State :=
  if s.prot.causes[c.val] then s
  else
    let off := s.allOff
    let s := (s.setCause c true).groupsOff
    let s := s.tripFree 0xB009 (2 ^ c.val) (2 ^ c.val)
    if off then s else s.afterOff

/-- A cause of R411 arises. In the 50 ms of an input loss the converters are off and R34 alone says what happens. -/
def State.basaltCause (s : State) (c : Fin 4) : State :=
  if s.power.inputLoss then s
  else match s.sys.state with
  | .run => (s.setCause c true).enterBasalt
  | .basalt => let s := s.setCause c true
               if c = 3 then s else { s with prot := { s.prot with exitOk := false } }
  | _ => s.holdCause c

/-- A cause clears on its condition (R417): in BASALT EXIT_OK may set, elsewhere the held cause ends with
event 0xB00A. -/
def State.causeClear (s : State) (c : Fin 4) : State :=
  if !s.prot.causes[c.val] then s
  else
    let s := s.setCause c false
    if s.sys.state = .basalt then s.exitSync else s.ev 0xB00A noInst (2 ^ c.val)

/-- GDRV_EN of the groups Basalt commands follows what holds them off: overvoltage, a bus fault, a bad image or
the rootless stop (R405, R406, R415, R416). -/
def State.basaltGdrv (s : State) : State :=
  let p := s.prot
  if s.sys.state = .basalt && !p.busOv && !p.busFault && !p.imageBad && !p.rootless then
    (List.finRange 4).foldl (fun s g => if (s.grp g).basaltDrives then s.setGdrv g true else s) s
  else s

/-- The exit of R418: to RUN, or to ARMED where the coolant sequence has stopped the groups. THROTTLE cause 4
clears in RUN once the groups that return are RUNNING. -/
def State.basaltExit (s : State) : State :=
  if s.prot.coolShutdown then (s.leaveBasalt .armed).ev 0xB003
  else
    let back := (List.finRange 4).filter fun g => (s.grp g).underBasalt
    let s := (s.setState .run).ev 0xB003
    let s := (back.foldl State.startGroup s).resumeAll
    let s := if s.prot.busOv || s.prot.busFault then s.gdrvLow else s
    let s := { s with est := { s.est with gRunning := true } }
    (s.portsEnterRun.basaltOver).engineSync

/-! Cell limits (R407, R408). -/

/-- The cells of a ring by node: node, string cell and its value. -/
def State.ringCellVals (s : State) (c : Fin 4) : List (Nat × Nat × Cell) :=
  (s.nodeList c).flatMap fun n => (s.cellsOf c n).map fun k => (n, k.2, (s.ring c).cellAt k.2)

/-- The temperatures of a ring by node: node and value in 0.01 C, VALID ones. -/
def State.ringTemps (s : State) (c : Fin 4) : List (Nat × Int) :=
  (s.nodeList c).flatMap fun n =>
    (((s.ring c).nodeAt n).temp.toList.filter Prod.fst).map fun t => (n, t.2)

/-- Stage 1 of one limit (R407): `hit` is the node, cell and value that crosses it, `inside`
that every cell is back inside by the hysteresis; `get` and `put` are its bit and count, `mark` the tick at which the bit
sets. The bit sets with a trip, and clears after three clean sweeps: `sweep` tells that a sweep is judged. -/
def State.stageOne (s : State) (i : Fin 4) (sweep : Bool) (code : Nat) (limit : Int) (hit : Option (Nat × Nat × Int))
    (inside : Bool) (get : StrProt → Bool × Nat) (put : StrProt → Bool × Nat → StrProt) (mark : StrProt → Nat → StrProt) :
    State :=
  let p := s.prot.str[i.val]
  match hit with
  | some (n, k, v) =>
    if (get p).1 then s.updStrProt i fun p => put p (true, 0)
    else (s.updStrProt i fun p => { mark (put p (true, 0)) s.sys.tick with cellNo := k }).tripV code i.val n v limit i.val
  | none =>
    if !sweep || !(get p).1 then s
    else if !inside then s.updStrProt i fun p => put p (true, 0)
    else if (get p).2 + 1 < 3 then s.updStrProt i fun p => put p (true, (get p).2 + 1)
    else (s.updStrProt i fun p => put p (false, 0)).ev 0xB022 i.val

/-- Stage 1 is judged on a completed sweep of a ring (R407), and on the values held where a limit has been tightened (R78,
`sweep` false). A temperature names no string cell: the number
recorded for it is a free value (log entry 7). -/
def State.judgeCells (s : State) (c i : Fin 4) (sweep : Bool) : State :=
  let cells := s.ringCellVals c
  let valid := cells.filter fun x => x.2.2.valid
  let allIn := fun (p : Nat → Bool) => cells.all fun x => x.2.2.valid && p x.2.2.v
  let temps := s.ringTemps c
  let hi : Int := s.limit 6
  let lo : Int := s.limit 7
  let tm : Int := s.limit 8
  let hy : Int := s.prot.hystMv
  let mv := fun (x : Nat × Nat × Cell) => (x.1, x.2.1, divHE (x.2.2.v : Int) 10)
  let s := s.stageOne i sweep 0xB020 hi ((valid.find? fun x => decide (10 * hi ≤ x.2.2.v)).map mv)
    (allIn fun v => decide ((v : Int) ≤ 10 * (hi - hy))) (fun p => (p.vHigh, p.okHigh))
    (fun p x => { p with vHigh := x.1, okHigh := x.2 }) (fun p t => { p with sinceHigh := t })
  let s := s.stageOne i sweep 0xB021 lo ((valid.find? fun x => decide ((x.2.2.v : Int) ≤ 10 * lo)).map mv)
    (allIn fun v => decide (10 * (lo + hy) ≤ (v : Int))) (fun p => (p.vLow, p.okLow))
    (fun p x => { p with vLow := x.1, okLow := x.2 }) (fun p t => { p with sinceLow := t })
  let hot := (temps.find? fun x => decide (tm ≤ x.2)).map fun x =>
    (x.1, Config.freeNat s.fv % 65536, x.2)
  s.used.stageOne i sweep 0xB023 tm hot (!temps.isEmpty && temps.all fun x => decide (x.2 ≤ tm - 200)) (fun p => (p.tHigh, p.okT))
    (fun p x => { p with tHigh := x.1, okT := x.2 }) (fun p t => { p with sinceT := t })

/-- The cell limits are judged on the values held, at a swap that tightens them (R78). -/
def State.judgeLimits (s : State) : State :=
  s.rings.foldl (fun s c =>
    if h : s.ringStr c < 4 then (if (s.ring c).state.up then s.judgeCells c ⟨s.ringStr c, h⟩ false else s) else s) s

/-- Stage 2 is reached (R407): a VALID cell HARD_MV beyond its limit, a temperature 5.00 C beyond, or stage 1 held for
ISOLATE_S. -/
def State.stageTwo (s : State) (i : Fin 4) : Bool :=
  let p := s.prot.str[i.val]
  let held := fun (b : Bool) (t : Nat) => b && s.elapsed t (500000 * s.prot.isolateS)
  let hard : Int := s.prot.hardMv
  let cells := match s.ringOf i.val with
    | some c => ((s.ringCellVals c).any fun x => x.2.2.valid
          && (decide (10 * (s.limit 6 + hard) ≤ x.2.2.v) || decide ((x.2.2.v : Int) ≤ 10 * (s.limit 7 - hard))))
        || (s.ringTemps c).any fun x => decide (s.limit 8 + 500 ≤ x.2)
    | none => false
  cells || held p.vHigh p.sinceHigh || held p.vLow p.sinceLow || held p.tHigh p.sinceT

/-- What stage 2 rests on (R407): the node, the measured value and the limit, in the limit's unit: the quantity beyond by
HARD_MV or 5.00 C, or else the one stage 1 has been held for. -/
def State.stageTwoValue (s : State) (i : Fin 4) : Option (Nat × Int × Int) :=
  match s.ringOf i.val with
  | none => none
  | some c =>
    let l := (s.ringCellVals c).filter fun x => x.2.2.valid
    let hard : Int := s.prot.hardMv
    let find := fun (lim : Int) (p : Int → Bool) =>
      (l.find? fun x => p x.2.2.v).map fun x => (x.1, divHE (x.2.2.v : Int) 10, lim)
    let hot := fun (d : Int) => ((s.ringTemps c).find? fun x => decide (s.limit 8 + d ≤ x.2)).map fun x => (x.1, x.2, s.limit 8)
    let high := fun (d : Int) => find (s.limit 6) fun v => decide (10 * (s.limit 6 + d) ≤ v)
    let low := fun (d : Int) => find (s.limit 7) fun v => decide (v ≤ 10 * (s.limit 7 - d))
    ((high hard).orElse fun _ => (low hard).orElse fun _ => (hot 500).orElse fun _ =>
      (high 0).orElse fun _ => (low 0).orElse fun _ => hot 0)

/-- The trip of a string's limit (R404, R408, R427, R508). Where no measured value stands behind it, VALUE and LIMIT are free
values (log entry 7). -/
def State.strTrip (s : State) (i : Fin 4) (code node : Nat) (v : Option (Int × Int)) : State :=
  let x := v.getD (Config.freeInt s.fv, Config.freeInt (s.fv + 1))
  (s.used.used).tripV code i.val node x.1 x.2 i.val

/-- Stage 2 (R407): the group passes to STOPPING, the contactors open, and the string is isolated with a trip; a passage to
ARMED in progress is abandoned (R450). -/
def State.isolate (s : State) (i : Fin 4) : State :=
  let v := s.stageTwoValue i
  let s := (s.stopGroup i).strContactor i.val false
  let s := s.updStrProt i fun p => { p with isolated := true }
  ((s.strTrip i 0xB024 ((v.map Prod.fst).getD 0) (v.map Prod.snd)).degrade).armCheck

/-! Die temperature (R409). -/

/-- A reading of the die, 0.01 C (R428, R432). -/
def State.dieRead (s : State) (t : Int) : State :=
  { s with prot := { s.prot with
      dieT := t, dieTrip := decide (s.limit 9 ≤ t)
      dieHotTick := if s.limit 9 - 1000 ≤ t then s.sys.tick else s.prot.dieHotTick } }

/-- DIE_WARN sets: the forecast engine stops. -/
def State.dieWarnSet (s : State) : State :=
  if s.prot.dieWarn then s
  else
    let s := { s with prot := { s.prot with dieWarn := true }, fce := { s.fce with dieStop := true } }
    (s.ev 0xB030).engineSync

/-! Coolant (R420 to R422). -/

/-- The thermal ramp begins, unless it is in force (R421). -/
def State.rampStart (s : State) : State :=
  if s.prot.thermalRamp then s
  else { s with prot := { s.prot with thermalRamp := true, rampDone := false, rampJ := 0, rampTick := s.sys.tick
                                      rampEnv0 := (List.finRange 64).map fun n => (s.port n).target } }

/-- The envelope of a port at a step of the ramp, 10 W (R421): it falls only. A port that entered service after
the ramp began starts from its own envelope. -/
def State.rampEnv (s : State) (n : Fin 64) : Nat :=
  let t := (s.port n).target
  let e := s.prot.rampEnv0.getD n.val 0
  let e := if e = 0 then t else e
  let f := s.thermalFloor n.val
  min t (max f (e - ceilDiv ((e - f) * s.prot.rampJ) (100 * s.prot.rampMs)))

/-- One step of the ramp: the ports whose envelope falls send their grants. -/
def State.rampStep (s : State) : State :=
  if !s.prot.thermalRamp || s.prot.rampDone || !s.elapsed s.prot.rampTick 500 then s
  else
    let s := { s with prot := { s.prot with rampJ := s.prot.rampJ + 1, rampTick := s.sys.tick } }
    let l := (s.portsWhere fun p => p.state.counted).filter fun n => s.rampEnv n < (s.port n).target
    let s := l.foldl (fun s n =>
      let e := s.rampEnv n
      (s.updPort n fun p => { p with target := e }).sendGrant n) s
    if 100 * s.prot.rampMs ≤ s.prot.rampJ then
      { s with prot := { s.prot with rampDone := true } }.ev 0xB042
    else s

/-- Coolant loss is declared (R421). -/
def State.coolantLoss (s : State) (code : Nat) : State := (s.ev code).rampStart

/-- The coolant, averaged over 100 ms, reaches COOLANT_CRIT (R404, R422): the thermal ramp, and the groups are to
stop from G3 down. -/
def State.coolantCrit (s : State) (v : Int) : State :=
  if s.prot.coolCrit then s
  else
    let s := (s.tripV 0xB043 0xFF 0 v (s.limit 10) noInst).rampStart
    { s with prot := { s.prot with coolCrit := true
                                   coolNext := if s.prot.coolShutdown then s.prot.coolNext else some 4 } }

/-- The check of the coolant at a planner cycle (R404, R422): COOL_CRIT tells whether it is at or above COOLANT_CRIT
(R428). -/
def State.coolantCheck (s : State) : State :=
  let p := s.prot
  let s := { s with prot := { p with coolSum := 0, coolN := 0 } }
  if p.coolN = 0 || s.param 0x0013 0 = 0 then s
  else
    let v := divHE p.coolSum p.coolN
    let s := { s with prot := { s.prot with coolHot := decide (s.limit 10 ≤ v) } }
    if s.prot.coolHot then s.coolantCrit v else s

/-- The group the coolant sequence stops next: the highest below `k` that switches. -/
def State.coolGroup (s : State) (k : Nat) : Option (Fin 4) :=
  ((List.finRange 4).filter fun g =>
    g.val < k && (s.grp g).state.switching && (s.grp g).state != .stopping).getLast?

/-- One stop of the coolant sequence (R422): a group that is not switching is skipped. -/
def State.coolStop (s : State) : State :=
  match s.prot.coolNext with
  | none => s
  | some 0 => s
  | some k =>
    if k != 4 && !s.elapsed s.prot.coolTick (5000 * s.prot.staggerMs) then s else
    let s := { s with prot := { s.prot with coolShutdown := true, coolTick := s.sys.tick } }
    match s.coolGroup k with
    | none => ({ s with prot := { s.prot with coolNext := some 0 } }).afterOff
    | some g =>
      let s := s.stopGroup g
      let nx := if (s.coolGroup g.val).isSome then g.val else 0
      ({ s with prot := { s.prot with coolNext := some nx } }).afterOff

end Sys2Proof.Machine
end

