-- ==== Sys2Proof/Machine/ChnSweep.lean ====
section
/-! DEFINITION. Sweeps of the cell chains (R306 to R315): the sample, the blocks as they arrive, and what
their values change. -/

namespace Sys2Proof.Machine

/-- Sweeps run: in a ring that is up, and in one that ships until the groups are OFF and its contactors are OPEN (R304, R323). -/
def State.sweepsOn (s : State) (c : Fin 4) : Bool :=
  let r := s.ring c
  r.state.up || (r.state = .shipping && !(s.allOff && r.ctrCmd.isNone && r.ctr != .closed && r.ctr != .precharge))

/-- The sweep of a ring changes. -/
def State.updSweep (s : State) (c : Fin 4) (f : Sweep → Sweep) : State :=
  s.updRing c fun r => { r with sweep := r.sweep.map f }

/-- A reply block fails its CRC (R311). -/
def State.blockError (s : State) (c : Fin 4) (n : Nat) : State :=
  let s := s.updRing c fun r => { r with blockErr := bump 32 r.blockErr }
  (s.updNode c n fun x => { x with errCrc := bump 16 x.errCrc }).ev 0x8020 (chnInst c.val n)

/-- DELAY_NS of a ring in 25 ps units (R300). -/
def State.delay25 (s : State) (c : Fin 4) : Nat := 1000 * s.ringDelay c

/-- The smallest k of R310 from `k` on, up to 2^12 instants: the sweep and the temperature read end 20 us before
the next t_a. -/
def State.slowFor (s : State) (c : Fin 4) (tempNs : Nat) : Nat → Nat → Nat
  | 0, k => k
  | fuel + 1, k =>
    if 25 * s.ringDelay c + 2000 + readNs (s.longerHalf c) + tempNs + 20000 ≤ 2000 * s.sweepTicks c * 2 ^ k then k
    else s.slowFor c tempNs fuel (k + 1)

/-- The cadence of a ring is judged (R310). -/
def State.cadence (s : State) (c : Fin 4) (tempNs : Nat) : State :=
  let k := s.slowFor c tempNs 12 0
  let was := (s.ring c).slowed
  let s := s.updRing c fun r => { r with slowLog2 := k, slowed := k != 0 }
  if k != 0 && !was then s.ev 0x8014 (chnInst c.val 0)
  else if k = 0 && was then s.ev 0x8015 (chnInst c.val 0)
  else s

/-- The group whose edges a ring's samples avoid (R306). -/
def State.ringGroup (s : State) (c : Fin 4) : Option (Fin 4) := if h : s.ringStr c < 4 then some ⟨s.ringStr c, h⟩ else none

/-- The first quiet instant of a ring at or after an instant (R306). -/
def State.quietFor (s : State) (c : Fin 4) (t : Nat) : Nat := ((s.ringGroup c).map fun g => s.quietAt g t).getD t

/-- The arguments of a SAMPLE (R298, R307): DELAY, NEXT from the sample instant to the nominal instant after `k`, or 0
where the ring is stopping, at most 65,535 us (log entry 107), and SPLIT. -/
def State.sampleArgs (s : State) (c : Fin 4) (k ts split : Nat) : List Byte :=
  let next := if (s.ring c).state.up then min 65535 ((80000 * (k + s.sweepTicks c) - ts) / 40000) else 0
  leBytes 2 (s.ringDelay c) ++ leBytes 2 next ++ leBytes 1 split

/-- t_a of a sample instant, 25 ps units (R307). -/
def State.leaveAt (s : State) (c : Fin 4) (ts : Nat) : Nat := ts - 80000 - s.delay25 c

/-- The SAMPLE of a sweep at nominal instant `k` ticks leaves (R306, R307): from port A, and over a break from
port B as well. -/
def State.sample (s : State) (c : Fin 4) (k ts : Nat) : State :=
  let g := s.ringGroup c
  let s := s.updRing c fun r => { r with
    seq := wrapU 8 (r.seq + 1), blanked := false, offWindow := false, started := r.state.up
    sweep := some { seq := wrapU 8 (r.seq + 1), ts := ts, split := r.split, kind := .ok, offWindow := false
                    skew := 0, lastNormal := s.ringNodes c, blocks := [], bad := [], nom := k, grp := g
                    edges := (g.map s.edgeKey).getD (0, 0) } }
  s.broadcast c 0x10 (s.sampleArgs c k ts (s.ring c).split)

/-! Reply blocks (R299). -/

/-- A block of `len` bytes whose CRC-8 passes (R299). -/
def blockGood (b : Sys2Proof.ChainBlock) (len : Nat) : Bool :=
  b.bytes.length = len && crc8 0x2F 0xFF (b.bytes.take (len - 1)) = (b.bytes.getD (len - 1) 0).toNat
/-- A bit of its header. -/
def blockBit (b : Sys2Proof.ChainBlock) (k : Nat) : Bool := tb (b.bytes.getD 0 0).toNat k
/-- The node its header names. -/
def blockFrom (b : Sys2Proof.ChainBlock) : Nat := (b.bytes.getD 0 0).toNat % 16 + 1
/-- The 18 cell codes of a sweep block. -/
def blockCodes (b : Sys2Proof.ChainBlock) : List Nat :=
  (List.range 18).map fun i => fld (leVal ((b.bytes.drop 1).take 27)) (12 * i) 12
/-- The four values of a temperature block, as 16-bit codes. -/
def blockTemps (b : Sys2Proof.ChainBlock) : List Nat :=
  (List.range 4).map fun i => leVal ((b.bytes.drop (1 + 2 * i)).take 2)

/-- What the header of a good block says of its node: the links, and whether its status word has changed (R299). -/
def State.blockHead (s : State) (c : Fin 4) (b : Sys2Proof.ChainBlock) : State :=
  s.updNode c (blockFrom b) fun x =>
    { x with linkALost := blockBit b 4, linkBLost := blockBit b 5, alert := x.alert || blockBit b 7 }

/-- Reply blocks of `len` bytes arrive: the header of a good one is taken, a bad one is counted (R299, R311). -/
def State.takeReplies (s : State) (c : Fin 4) (len : Nat) (l : List Sys2Proof.ChainBlock) : State :=
  l.foldl (fun s b => if blockGood b len then s.blockHead c b else s.blockError c b.node) s
/-- The good blocks of `len` bytes that one node has sent. -/
def repliesOf (n len : Nat) (l : List Sys2Proof.ChainBlock) : List Sys2Proof.ChainBlock :=
  l.filter fun b => blockGood b len && blockFrom b = n
/-- The 16-bit deviations of a DIAG reply, and the status word of an ECHO's or PROBE's (R298). -/
def blockDevs (b : Sys2Proof.ChainBlock) : List Int :=
  (List.range 19).map fun i => ofCode 16 (leVal ((b.bytes.drop (1 + 2 * i)).take 2))
def blockWord (b : Sys2Proof.ChainBlock) : Nat := leVal ((b.bytes.drop 1).take 4)
/-- The one byte of an answer. -/
def blockByte (b : Sys2Proof.ChainBlock) : Nat := (b.bytes.getD 1 0).toNat

/-- Blocks that arrive: a good one is held for the end of the sweep, a bad one is counted. -/
def State.takeBlocks (s : State) (c : Fin 4) (l : List Sys2Proof.ChainBlock) : State :=
  l.foldl (fun s b =>
    if blockGood b 29 then
      (s.blockHead c b).updSweep c fun w => { w with blocks := w.blocks ++ [(blockFrom b, blockCodes b, blockBit b 6)] }
    else (s.blockError c b.node).updSweep c fun w => { w with bad := w.bad ++ [b.node] }) s

/-- One node's cells take their values from a sweep (R311). -/
def State.nodeValues (s : State) (c : Fin 4) (w : Sweep) (n : Nat) : State :=
  let nd := (s.ring c).nodeAt n
  match w.blocks.find? fun b => b.1 = n with
  | none =>
    let s := if nd.present then s.updNode c n fun x => { x with errMissing := bump 16 x.errMissing } else s
    (s.cellsOf c n).foldl (fun s k => s.updCell c k.2 fun x =>
      { x with valid := false, clipped := false, held := false, skewed := false }) s
  | some (_, codes, held) =>
    (s.cellsOf c n).foldl (fun s k =>
      let code := codes.getD k.1 0 % 4096
      let ok := nd.present && nd.configured && nd.diagDone && !(nd.failedPaths[k.1]?.getD false)
      s.updCell c k.2 fun x =>
        if ok then
          { x with valid := true, clipped := code = 0 || code = 4095, held := held, seq := w.seq
                   skewed := w.kind = .skewed && w.lastNormal < n, v := 10000 + 5 * code, unmonitored := false, validAt := s.sys.tick }
        else { x with valid := false, clipped := false, held := false, skewed := false }) s

/-- Voltages of a string's cells enter its reading window (R340). -/
def State.noteReading (s : State) (c i : Fin 4) : State :=
  if (s.estr i).rest = .reading then
    let vs := (s.ringCells c).map (s.ring c).cellAt
    s.updStr i fun x => { x with cellSums := (vs.zipIdx).map fun y =>
      let o := x.cellSums.getD y.2 (0, 0)
      if y.1.valid then (o.1 + y.1.v, o.2 + 1) else o }
  else s

/-- What a ring keeps of a sweep that has ended: its kind, SEQ, times and counters, and, where no node's block is
missing, the sum of its VALID cells (R308, R325, R332). -/
def Ring.swept (r : Ring) (w : Sweep) (whole : Bool) (vs : List Cell) (t readNs : Nat) : Ring :=
  { r with
    wholeSum := if whole then some ((vs.map Cell.v).sum, vs.length) else r.wholeSum
    sweepDue := none, lastKind := if w.kind = .ok && !whole then .incomplete else w.kind, lastSeq := w.seq
    offWindow := w.offWindow, sweepT := t, sweepRead := readNs
    sweepCount := if whole then wrapU 32 (r.sweepCount + 1) else r.sweepCount
    skew := if w.kind = .skewed then w.skew else r.skew
    nSplit := if w.kind = .split then bump 8 r.nSplit else r.nSplit
    nSkewed := if w.kind = .skewed then bump 8 r.nSkewed else r.nSkewed }

/-- A ring's values go to protection and the estimator of its string. -/
def State.sweepJudge (s : State) (c : Fin 4) (all : Bool) : State :=
  if h : s.ringStr c < 4 then
    let i : Fin 4 := ⟨s.ringStr c, h⟩
    let s := if all then s.updStrProt i fun p => { p with unmonLimit := false } else s
    (s.judgeCells c i true).noteReading c i
  else s

/-- A completed sweep's values take effect at the start of a tick, and go to protection and the estimator (R311). -/
def State.sweepEnd (s : State) (c : Fin 4) (w : Sweep) (readNs : Nat) : State :=
  let unmon := s.anyUnmon c
  let whole := (s.nodeList c).all fun n =>
    !((s.ring c).nodeAt n).present || w.blocks.any fun b => b.1 = n
  let s := (s.nodeList c).foldl (fun s n => s.nodeValues c w n) s
  let vs := ((s.ringCells c).map (s.ring c).cellAt).filter Cell.valid
  let s := s.updRing c fun r => r.swept w whole vs (s.shelfAt (nsOf w.ts)) readNs
  let all := !s.anyUnmon c
  (if unmon && all then s.ev 0x8022 (chnInst c.val 0) else s).sweepJudge c all

/-- What the chains deliver at the start of a tick: the temperatures read, and the sweeps that have completed (R311). -/
def State.chainTick (s : State) : State :=
  let dues : Bool := s.sys.tick % (500000 * s.chn.diagS) = 0
  (List.finRange 4).foldl (fun s c =>
    let s := s.updRing c fun r => { r with
      diagDue := r.diagDue || (dues && r.state.up)
      node := r.node.map fun (x : Node) =>
      { x with temp := x.tempNext.getD x.temp, tempNext := none } }
    match (s.ring c).sweepDue with
    | some (w, ns) => s.sweepEnd c w ns
    | none => s) s

/-- Temperatures read: a node without a good block, and one whose temperature path has failed, has no VALID one (R299,
R311, R316). -/
def State.takeTemps (s : State) (c : Fin 4) (l : List Sys2Proof.ChainBlock) : State :=
  let good := l.filter fun b => blockGood b 11
  let s := good.foldl (fun s b => s.updNode c (blockFrom b) fun x => { x with tempStatus := (b.bytes.getD 9 0).toNat })
    (s.takeReplies c 11 l)
  (s.nodeList c).foldl (fun s n =>
    s.updNode c n fun x => { x with tempNext := some (mapV x.temp fun j old =>
      match good.find? fun b => blockFrom b = n with
      | none => (false, old.2)
      | some b =>
        let code := (blockTemps b).getD j.val 0x8000
        (code != 0x8000 && !x.failedPaths[18], ofCode 16 code)) }) s

/-- The nodes strictly between the two sides of a break are MISSING (R315). -/
def State.missBetween (s : State) (c : Fin 4) (a b : Nat) : State :=
  ((s.nodeList c).filter fun n => a < n && n < b && ((s.ring c).nodeAt n).present).foldl
    (fun s n => s.missNode c n) s

/-- A break found during a sweep (R313): the SAMPLE had passed it, or it goes out again from port B for a second
instant. -/
def State.breakSweep (s : State) (c : Fin 4) (passed : Bool) (a : Nat) : State :=
  match (s.ring c).sweep with
  | none => s
  | some w =>
    if passed then (s.updSweep c fun w => { w with kind := .split }).ev 0x8010 (chnInst c.val 0)
    else
      let t := 80000 * s.sys.tick + s.delay25 c + 80000
      let t2 := s.quietFor c t
      let s := s.updSweep c fun w =>
        { w with kind := .skewed, lastNormal := a, skew := divHE ((t2 : Int) - w.ts) 40 }
      (s.train c 0x10 1 0 (s.sampleArgs c w.nom t2 w.split)).ev 0x8011 (chnInst c.val 0)

/-- Beyond a break a node cannot be reached from a port: its delay from there is none, the counts are those of the two
chains of a ring of `n` nodes, and the count of PROBEs begins anew (R314, R325). -/
def Ring.cut (r : Ring) (n a b : Nat) : Ring :=
  { r with probeA := (0, 0), probeB := (0, 0), enumPassed := false, nA := a, nB := n + 1 - b, baseB := n + 1
           node := mapV r.node fun j x =>
             { x with delayA := if b ≤ j.val + 1 then none else x.delayA
                      delayB := if j.val + 1 ≤ a then none else x.delayB } }

/-- A ring breaks between node `a`, the last one reached from port A, and node `b`, the first one from port B
(R312 to R315). -/
def State.ringBreak (s : State) (c : Fin 4) (a b : Nat) (inSweep : Option Bool) : State :=
  let r := s.ring c
  let n := s.ringNodes c
  if r.state = .ring then
    let s := match inSweep with
      | some passed => s.breakSweep c passed a
      | none => s
    let s := s.updRing c fun r => { r.cut n a b with
      state := .twoChain, brk := some (a, b), split := a, nBreaks := bump 8 r.nBreaks }
    let s := ((s.ev 0x8012 (chnInst c.val 0)).degrade).missBetween c a b
    s.armCheck
  else if r.state = .twoChain then
    let a := min a (r.brk.getD (a, b)).1
    let b := max b (r.brk.getD (a, b)).2
    let s := s.updRing c fun r => { r.cut n a b with brk := some (a, b), split := a, nBreaks := bump 8 r.nBreaks }
    (s.missBetween c a b).armCheck
  else s

/-- The break that the blocks missing from a sweep show, if any (R312, R315): the last node reached from A and the first
one from B. -/
def State.breakShown (s : State) (c : Fin 4) (w : Sweep) : Option (Nat × Nat) :=
  let r := s.ring c
  let gone := (s.nodeList c).filter fun n => (r.nodeAt n).present && !(w.blocks.any fun b => b.1 = n) && !w.bad.contains n
  let lo := gone.filter fun n => n ≤ w.split
  let hi := gone.filter fun n => w.split < n
  if w.kind != .ok || !r.state.up || gone.isEmpty then none
  else
    match r.brk with
    | none => match lo.head?, hi.getLast? with
      | some n, _ => some (n - 1, n)
      | none, some n => some (n, n + 1)
      | none, none => none
    | some (a, b) => some ((lo.head?.map (· - 1)).getD a, (hi.getLast?.map (· + 1)).getD b)

/-- A node found without an address is given it back from the nearer port (R321); its CONFIG and DIAG follow. -/
def State.readdress (s : State) (c : Fin 4) (n : Nat) : State :=
  let fromB := s.ringNodes c < 2 * n
  let s := s.train c 0x02 (if fromB then 1 else 0) 0xFE
    (if fromB then stepArgs (n + 1) false else stepArgs (n - 1) true)
  (s.updNode c n fun x => { x with present := true, configured := false, diagDone := false }).ev 0x8052
    (chnInst c.val n)

/-- A path's DIAG is judged (R316): its count of consecutive results after it, and whether it has failed. -/
def diagPath (tol : Nat) (dev : Int) (run : Int) (failed : Bool) : Int × Bool :=
  let out := 100 * tol < dev.natAbs
  if failed then
    if out then (0, true) else if run - 1 ≤ -2 then (0, false) else (run - 1, true)
  else if out then (if 2 ≤ run + 1 then (0, true) else (run + 1, false))
  else (0, false)

/-- The deviations of a DIAG of a node (R316), 10 uV. -/
def State.diagResult (s : State) (c : Fin 4) (n : Nat) (devs : List Int) : State :=
  let old := (s.ring c).nodeAt n
  let res := (List.finRange 19).map fun p =>
    diagPath s.chn.diagTol (devs.getD p.val 0) old.diagRun[p.val] old.failedPaths[p.val]
  let s := s.updNode c n fun x => { x with
    diagRun := mapV x.diagRun fun p _ => (res.getD p.val (0, false)).1
    failedPaths := mapV x.failedPaths fun p _ => (res.getD p.val (0, false)).2
    diagDev := (devs.map Int.natAbs).foldl max 0, diagDone := x.configured }
  let s := ((List.finRange 19).filter fun p =>
      (res.getD p.val (0, false)).2 && !old.failedPaths[p.val]).foldl
    (fun s _ => (s.ev 0x8030 (chnInst c.val n)).degrade) s
  ((List.finRange 19).filter fun p => !(res.getD p.val (0, false)).2 && old.failedPaths[p.val]).foldl
    (fun s _ => s.ev 0x8031 (chnInst c.val n)) s

/-- The balance request of a node (R317, R318): MASK by cell input, and NEIGH flags for requested neighbours
across its boundaries. A string whose balancing is suspended asks for none. -/
def State.balRequest (s : State) (c : Fin 4) (n : Nat) : Nat × Nat :=
  if h : s.ringStr c < 4 then
    let x := s.estr ⟨s.ringStr c, h⟩
    let want := fun (k : Nat) => !x.balSuspended && x.balance.contains k
    let cs := s.cellsOf c n
    let mask := (cs.map fun k => if want k.2 then 2 ^ k.1 else 0).sum
    let first := (cs.head?.map Prod.snd).getD 0
    let last := (cs.getLast?.map Prod.snd).getD 0
    (mask, (if first != 0 && want (first - 1) then 1 else 0) + (if last != 0 && want (last + 1) then 2 else 0))
  else (0, 0)

/-- Every node that is present has answered SHIP: the ring is in SHIP (R304, R323). -/
def State.shipCheck (s : State) (c : Fin 4) : State :=
  if (s.ring c).state = .shipping && (s.nodeList c).all fun n =>
      !((s.ring c).nodeAt n).present || ((s.ring c).nodeAt n).shipped then
    (s.updRing c fun r => { r with state := .ship }).ev 0x8060 (chnInst c.val 0)
  else s

end Sys2Proof.Machine
end

