-- ==== Sys2Proof/Machine/Chn.lean ====
section
/-! DEFINITION. The commands of the cell chains (09). -/

namespace Sys2Proof.Machine

/-- RING_BRING_UP (R302, R304): the wake tone leaves both ports. -/
def execRingBringUp (c : Fin 4) (s : State) : Host.Outcome State Fault Refusal :=
  .next (
    if (s.ring c).state = .off && s.lit && !s.clk.fabricStopped then
      (s.updRing c fun r => { r.uncount with state := .waking }).send (.tone c.val)
    else s)

/-- RESET_ADDR (R298, R302): the nodes forget their addresses. -/
def execResetAddr (c : Fin 4) (s : State) : Host.Outcome State Fault Refusal :=
  .next (
    if (s.ring c).state = .waking then
      (s.updRing c fun r => { r.uncount with
        state := .enumerating
        node := r.node.map fun x => { x with present := false, configured := false, diagDone := false
                                             cfgDelays := none, delayA := none, delayB := none } }).train2 c 0x01 0 []
    else s)

/-- ENUM (R298, R302): the count of nodes found from a port, and whether the block reached the other port. From port B
it is sent where that from A did not reach it. -/
def execEnum (c : Fin 4) (fromB : Bool) (count : Nat) (passed : Bool) (s : State) :
    Host.Outcome State Fault Refusal :=
  let r := s.ring c
  .next (
    if r.state = .enumerating && !fromB then
      (s.updRing c fun r => { r with nA := count, enumPassed := passed, enumA := true }).train c 0x02 0 0xFE
        (stepArgs 0 true)
    else if r.state = .enumerating && r.enumA && !r.enumPassed then
      (s.updRing c fun r => { r with nB := count, enumB := true }).train c 0x02 1 0xFE (stepArgs r.baseB false)
    else s)

/-- REVCHECK (R298, R302, R303): the replies, of which a payload other than 0x00 is a mismatch. EXPECT is the address of the node next to port B (log
entry 108). Where the nodes counted from B have taken their places, a mismatch of the repeated check fails the ring. -/
def execRevcheck (c : Fin 4) (replies : List Sys2Proof.ChainBlock) (s : State) : Host.Outcome State Fault Refusal :=
  let r := s.ring c
  let mismatch := (replies.filter fun b => blockGood b 3).any fun b => blockByte b != 0
  let send := fun (s : State) =>
    (s.train c 0x03 1 0 (stepArgs (if r.enumPassed then r.nA else r.baseB - 1) false)).takeReplies c 3 replies
  .next (
    if r.state = .enumerating && r.enumA then
      send (s.updRing c fun r => { r with revMismatch := r.revMismatch || mismatch, revDone := true })
    else if r.state = .twoChain && r.recheck then
      let s := (s.updRing c fun r => { r with recheck := false }).takeReplies c 3 replies
      if mismatch then (s.failRing c).armCheck else s
    else s)

/-- The one-way delay of echoes, ns (R302): the mean of (round trip - 2.000 us) / 2, round trips in 400 ps. -/
def echoDelay (trips : List Nat) : Nat :=
  (divHE (((trips.sum : Nat) : Int) - 5000 * trips.length) (5 * trips.length)).toNat

/-- ECHO (R298, R302): the round trips of eight echoes of a node from a port, 400 ps each, and its replies with its status word.
A node that was MISSING and answers again is given its address back (R314, R321). -/
def execEcho (c : Fin 4) (n : Fin 16) (fromB : Bool) (trips : List Nat) (replies : List Sys2Proof.ChainBlock) (s : State) :
    Host.Outcome State Fault Refusal :=
  let k := n.val + 1
  let st := (s.ring c).state
  .next (
    if trips.length != 8 || !(st = .enumerating || st = .enumerated || st.up) then s
    else
      let s := (List.range 8).foldl (fun s _ => s.train c 0x04 (if fromB then 1 else 0) k []) s
      let s := if st.up && k ≤ s.ringNodes c && s.nodeMissing c k then s.readdress c k else s
      let s := s.updNode c k fun x =>
        if fromB then { x with delayB := some (echoDelay trips) } else { x with delayA := some (echoDelay trips) }
      (repliesOf k 6 replies).foldl (fun s b => s.nodeStatus c k (blockWord b)) (s.takeReplies c 6 replies))

/-- The count after a relock differs from the one before (R40): the ring enumerates afresh (DEDUCED, log entry
35). -/
def Ring.relockBad (r : Ring) : Bool :=
  match r.relock with
  | some n => r.revMismatch || n != (r.nA, r.nB)
  | none => false

/-- The echoes of every node found have been measured from each port that reaches it (R302). -/
def Ring.echoed (r : Ring) : Bool :=
  let a := (List.range (min r.nA 16)).all fun i =>
    (r.nodeAt (i + 1)).delayA.isSome && (!r.enumPassed || (r.nodeAt (i + 1)).delayB.isSome)
  let b := (List.range (min r.nB 16)).all fun i => (r.nodeAt (r.baseB - 1 - i)).delayB.isSome
  a && (r.enumPassed || b)

/-- The steps of R302 before the ring holds ENUMERATED: ENUM from A, from B where that did not pass, REVCHECK and the
echoes; after a relock the echoes are those held (R315). -/
def Ring.counted (r : Ring) : Bool :=
  r.enumA && (r.enumPassed || r.enumB) && r.revDone && (r.relock.isSome || r.echoed)

/-- ENUMERATED (R302, R304): checked at once where a configuration is active (R303). -/
def execEnumerated (c : Fin 4) (s : State) : Host.Outcome State Fault Refusal :=
  let r := s.ring c
  .next (
    if r.state = .enumerating && r.counted && r.relockBad then
      s.updRing c fun r => { r.uncount with state := .waking, relock := none }
    else if r.state = .enumerating && r.counted then
      let s := s.updRing c fun r => { r with state := .enumerated, relock := none }
      if s.cfg.activeValid then s.ringCheck c r.relock.isSome else s
    else s)

/-- RING_RETRY (R303): a FAILED ring, in BOOT or STANDBY, 5 s after it was found so. -/
def execRingRetry (c : Fin 4) (s : State) : Host.Outcome State Fault Refusal :=
  .next (if s.inState [.boot, .standby] && s.elapsed (s.ring c).failTick 2500000 then s.ringRetry c else s)

/-- REENUM (R303, R325). -/
def execReenum (sess : Fin 64) (c : Fin 4) (s : State) : Host.Outcome State Fault Refusal :=
  .next (s.regCmdAt (s.ringRec c).isSome sess .os fun s => s.ringRetry c)

/-- The arguments of CONFIG for a node (R298, R303): masks, PARITY, DA and DB in 5 ns, the Moonwatch limits and
interval, CTR and PRECHARGE_MS. -/
def State.configArgs (s : State) (c : Fin 4) (n : Nat) : List Byte :=
  let nd := (s.ring c).nodeAt n
  let d := fun (x : Option Nat) => match x with | some v => divHEN v 5 | none => 0xFFFF
  let f := fun (g : Rec → Nat) => ((s.nodeRec c n).map g).getD 0
  let mw := fun (o id : Nat) =>
    let x := s.ringVal c fun r => r.u16 o
    if x = 0 then codeS 16 (s.limit id) else x
  leBytes 3 (f fun r => r.u32 0x0C) ++ leBytes 1 (f fun r => r.u8 0x10) ++ leBytes 1 (f (fun r => r.u16 0x0A) % 2)
    ++ leBytes 2 (d nd.delayA) ++ leBytes 2 (d nd.delayB) ++ leBytes 2 (mw 0x14 6) ++ leBytes 2 (mw 0x16 7)
    ++ leBytes 2 (mw 0x18 8) ++ leBytes 1 (s.ringVal c fun r => r.u8 0x0E) ++ leBytes 1 (f fun r => r.u8 0x11)
    ++ leBytes 2 (f fun r => r.u16 0x12)

/-- A gap transaction with one present node of a ring that is up may run (R310, R315). -/
def State.nodeGap (s : State) (c : Fin 4) (k : Nat) (o : Sys2Proof.GapOp) : Bool :=
  (s.ring c).state.up && ((s.ring c).nodeAt k).present && s.gapFor c o

/-- CONFIG (R298, R303): a present node of a ring that is up, whose delays are measured; its cells wait for DIAG
(R315). A node that has not answered is sent it again. -/
def execConfig (c : Fin 4) (n : Fin 16) (replies : List Sys2Proof.ChainBlock) (s : State) : Host.Outcome State Fault Refusal :=
  let k := n.val + 1
  let nd := (s.ring c).nodeAt k
  .next (
    if s.nodeGap c k (.config n) && !(s.ring c).recheck && (nd.delayA.isSome || nd.delayB.isSome) then
      let s := ((s.gapRun c (.config n)).train c 0x05 (s.portTo c k) k (s.configArgs c k)).takeReplies c 3 replies
      if (repliesOf k 3 replies).isEmpty then s.gapLost c (.config n)
      else if (repliesOf k 3 replies).any fun b => blockByte b = 0 then
        s.updNode c k fun x => { x with configured := true, diagDone := false, cfgDelays := some (x.delayA, x.delayB) }
      else s
    else s)

/-- A ring's sweeps may start (R303, R319): every present node has its CONFIG and DIAG, and BLANK went out at least 200
us before. -/
def State.sweepReady (s : State) (c : Fin 4) : Bool :=
  let r := s.ring c
  r.started || (r.blanked && decide (r.blankAt + 100 ≤ s.sys.tick) &&
    (r.state = .shipping || (s.nodeList c).all fun n =>
      !(r.nodeAt n).present || ((r.nodeAt n).configured && (r.nodeAt n).diagDone)))

/-- SAMPLE (R306, R307, R310): for nominal instant `k`, a multiple of the period in force, in the tick in which it leaves
port A; `tempNs` is the time of the temperature read due in the period, 0 without one. -/
def execSample (c : Fin 4) (k : Nat) (tempNs : Nat) (s : State) : Host.Outcome State Fault Refusal :=
  .next (
    if !s.sweepsOn c || (s.ring c).sweep.isSome || s.sweepTicks c = 0 || s.clk.fabricStopped || !s.sweepReady c then s
    else
      let s := s.cadence c tempNs
      let ts := s.quietFor c (80000 * k)
      if k % (s.sweepTicks c * 2 ^ (s.ring c).slowLog2) = 0 && s.leaveAt c ts / 80000 = s.sys.tick then s.sample c k ts
      else s)

/-- SWEEP_COMPLETE (R311): the blocks that arrived by themselves, and the time from t_s to completion, ns. The values
take effect at the next tick. Blocks that are missing show a break (R312). -/
def execSweepComplete (c : Fin 4) (blocks : List Sys2Proof.ChainBlock) (readNs : Nat) (s : State) :
    Host.Outcome State Fault Refusal :=
  let s := if (s.ring c).sweep.isSome then s.takeBlocks c blocks else s
  .next (match (s.ring c).sweep with
    | some w =>
      let s := match s.breakShown c w with
        | some (a, b) => s.ringBreak c a b (some true)
        | none => s
      s.updRing c fun r => { r with sweep := none, sweepDue := r.sweep.map fun w => (w, readNs) }
    | none => s)

/-- CELLS_UNMONITORED (R311): a cell of the ring has had no VALID value for STALE_MS by the end of the tick in progress. -/
def execCellsUnmonitored (c : Fin 4) (k : Fin 288) (s : State) : Host.Outcome State Fault Refusal :=
  let cell := k.val + 1
  let node := (s.nodeList c).find? fun n => (s.cellsOf c n).any fun x => x.2 = cell
  .next (match node with
    | none => s
    | some n =>
      let x := (s.ring c).cellAt cell
      if x.unmonitored || s.sys.tick + 1 < x.validAt + 500 * s.chn.staleMs then s
      else
        let s := s.updCell c cell fun x => { x with unmonitored := true, unmonAt := s.sys.tick }
        ((s.ev 0x8021 (chnInst c.val n)).degrade).armCheck)

/-- The balance request of a node that reached it takes force, with the BAL bits of its cells (R317, R324). -/
def State.setBal (s : State) (c : Fin 4) (k : Nat) (q : Nat × Nat) : State :=
  let s := s.updNode c k fun x => { x with bal := q.1, neigh := q.2 }
  (s.cellsOf c k).foldl (fun s x => s.updCell c x.2 fun y => { y with bal := tb q.1 x.1 }) s

/-- A transaction that a break takes in flight (R315): a BAL has not reached its node, and BAL, DIAG and CONFIG are sent again. -/
def State.breakLost (s : State) (c : Fin 4) (o : Sys2Proof.GapOp) : State :=
  match o with
  | .bal n => (s.setBal c (n.val + 1) ((s.ring c).nodeAt (n.val + 1)).balPrev).gapLost c o
  | .diag _ | .config _ => s.gapLost c o
  | _ => s

/-- RING_BROKEN (R312 to R315): the last node reached from A, the first one from B, whether the break was found
in a sweep that had passed it, the gap transactions its re-reads displace, and those it takes in flight. -/
def execRingBroken (c : Fin 4) (lastA firstB : Nat) (inSweep : Option Bool) (displaced lost : List Sys2Proof.GapOp)
    (s : State) : Host.Outcome State Fault Refusal :=
  let reread := inSweep.isSome && (s.ring c).sweep.isSome
  .next (
    if !(s.ring c).state.up || firstB ≤ lastA || s.ringNodes c + 1 < firstB then s
    else
      let s := lost.foldl (fun s o => s.breakLost c o) (s.ringBreak c lastA firstB inSweep)
      if reread then s.gapDisplace c displaced else s)

/-- READ_HELD (R309, R313): held blocks of the sweep in progress, from port A or B. -/
def execReadHeld (c : Fin 4) (fromB : Bool) (mask : BitVec 16) (blocks : List Sys2Proof.ChainBlock) (s : State) :
    Host.Outcome State Fault Refusal :=
  .next (
    if (s.ring c).sweep.isSome then
      (s.train c 0x11 (if fromB then 1 else 0) 0 (leBytes 2 mask.toNat)).takeBlocks c
        (blocks.filter fun b => b.node != 0 && tb mask.toNat (b.node - 1))
    else s)

/-- READ_TEMP (R298, R299, R327): the temperature blocks that arrive between sweeps. -/
def execReadTemp (c : Fin 4) (blocks : List Sys2Proof.ChainBlock) (s : State) : Host.Outcome State Fault Refusal :=
  .next (
    if (s.ring c).state.up && (s.ring c).sweep.isNone then (s.broadcast c 0x12 []).takeTemps c blocks
    else s)

/-- Every node's CONFIG carries its delays as they are now measured (R314). -/
def State.delaysWritten (s : State) (c : Fin 4) : Bool :=
  (s.nodeList c).all fun n =>
    let x := (s.ring c).nodeAt n
    x.configured && x.delayA.isSome && x.delayB.isSome && x.cfgDelays = some (x.delayA, x.delayB)

/-- RING_REPAIRED (R314): three PROBEs from each side have passed the break, no node is MISSING, and every node has its
CONFIG with delays measured from both ports. -/
def execRingRepaired (c : Fin 4) (s : State) : Host.Outcome State Fault Refusal :=
  let r := s.ring c
  .next (
    if r.state = .twoChain && 3 ≤ r.probeA.1 && 3 ≤ r.probeB.1 && !(s.nodeList c).any (s.nodeMissing c)
        && s.delaysWritten c then
      (s.updRing c fun r => { r with
        state := .ring, brk := none, split := s.splitNode c, probeA := (0, 0), probeB := (0, 0), nRepairs := bump 8 r.nRepairs
        nA := s.ringNodes c, nB := 0, enumPassed := true }).ev 0x8013 (chnInst c.val 0)
    else s)

/-- The ADDR a PROBE from a port has to reach for the break to be passed: the first node beyond that port's end of it,
or 0 where that end is the other port (R314). -/
def State.probeTarget (s : State) (c : Fin 4) (fromB : Bool) : Nat :=
  match (s.ring c).brk with
  | none => 0
  | some (a, b) => if fromB then b - 1 else if a = s.ringNodes c then 0 else a + 1

/-- The count of PROBEs that passed in succession, 100 ms apart (R314). -/
def probeCount (t : Nat) (passed : Bool) (x : Nat × Nat) : Nat × Nat :=
  if !passed then (0, t) else if x.1 = 0 then (1, t) else if t < x.2 + 50000 then x else (x.1 + 1, t)

/-- A PROBE leaves a port, and its replies arrive (R298). -/
def State.probeOut (s : State) (c : Fin 4) (n : Fin 17) (fromB : Bool) (replies : List Sys2Proof.ChainBlock) : State :=
  ((s.gapRun c (.probe n)).train c 0x31 (if fromB then 1 else 0) n.val []).takeReplies c 6 replies

/-- In TWO_CHAIN a PROBE to the far side of the break counts towards its repair (R314). -/
def State.probeSeen (s : State) (c : Fin 4) (n : Nat) (fromB ok : Bool) : State :=
  if (s.ring c).state = .twoChain && n = s.probeTarget c fromB then
    s.updRing c fun r =>
      if fromB then { r with probeB := probeCount s.sys.tick ok r.probeB }
      else { r with probeA := probeCount s.sys.tick ok r.probeA }
  else s

/-- A PROBE to a node (R314, R321): a MISSING one that answers, and after a wake tone one that does not, is given its address
back; its status word is taken. -/
def State.probeNode (s : State) (c : Fin 4) (n : Nat) (asked : Bool) (good : List Sys2Proof.ChainBlock) : State :=
  let s := s.updRing c fun r => { r with probeDue := r.probeDue && n != s.ringNodes c }
  if good.isEmpty then if asked then s.readdress c n else s
  else
    let s := if (s.ring c).state.up && n ≤ s.ringNodes c && s.nodeMissing c n then s.readdress c n else s
    good.foldl (fun s b => s.nodeStatus c n (blockWord b)) s

/-- A PROBE asks a present node after a wake tone, from the port that reaches it (R321). -/
def State.probeAsked (s : State) (c : Fin 4) (n : Nat) (fromB : Bool) : Bool :=
  (s.ring c).probeDue && (s.ring c).state.up && n ≤ s.ringNodes c && ((s.ring c).nodeAt n).present
    && (if fromB then 1 else 0) = s.portTo c n

/-- PROBE (R298, R312, R314, R321): to node 0 it passes the ring or shows a break; to a node it reads the status word. To the
first node beyond a break it shows whether the break is passed, and a MISSING node that answers is given its address
back. After a wake tone a node that does not answer is found without an address, and is given it back. -/
def execProbe (c : Fin 4) (n : Fin 17) (fromB passed : Bool) (replies : List Sys2Proof.ChainBlock) (lastA firstB : Nat)
    (s : State) : Host.Outcome State Fault Refusal :=
  let good := repliesOf n.val 6 replies
  .next (
    if !((s.ring c).state.up || (s.ring c).state = .enumerated) || !s.gapFor c (.probe n) then s
    else if n.val = 0 then
      let u := (s.probeOut c n fromB replies).probeSeen c 0 fromB passed
      if (s.ring c).state = .ring && !fromB && !passed then
        let a := min lastA (s.ringNodes c)
        u.ringBreak c a (min (max firstB (a + 1)) (s.ringNodes c + 1)) none
      else u
    else
      ((s.probeOut c n fromB replies).probeSeen c n.val fromB (!good.isEmpty)).probeNode c n.val
        (s.probeAsked c n.val fromB) good)

/-- DIAG (R316): the 19 deviations of a present node, 10 uV. A node that has not answered is asked again (R315). -/
def execDiag (c : Fin 4) (n : Fin 16) (replies : List Sys2Proof.ChainBlock) (s : State) : Host.Outcome State Fault Refusal :=
  let k := n.val + 1
  .next (
    if s.nodeGap c k (.diag n) then
      let s := ((s.gapRun c (.diag n)).train c 0x30 (s.portTo c k) k []).takeReplies c 40 replies
      let s := match (repliesOf k 40 replies).getLast? with
        | some b => s.diagResult c k (blockDevs b)
        | none => s.gapLost c (.diag n)
      s.updRing c fun r => { r with diagDue := r.diagDue && k != s.ringNodes c }
    else s)

/-- An immediate DIAG is asked for (R325). -/
def State.diagNow (s : State) (c : Fin 4) : State :=
  if (s.ring c).state.up then s.updRing c fun r => { r with diagDue := true } else s

/-- DIAG_NOW (R325): any state with the ring up. -/
def execDiagNow (sess : Fin 64) (c : Fin 4) (s : State) : Host.Outcome State Fault Refusal :=
  .next (s.regCmdAt (s.ringRec c).isSome sess .oa fun s => s.diagNow c)

/-- BAL (R317, R318): a node's request as the estimator asks it. -/
def execBal (c : Fin 4) (n : Fin 16) (s : State) : Host.Outcome State Fault Refusal :=
  let k := n.val + 1
  .next (
    if s.nodeGap c k (.bal n) then
      let q := s.balRequest c k
      let s := s.gapRun c (.bal n)
      let s := (s.updNode c k fun x => { x with balPrev := (x.bal, x.neigh) }).setBal c k q
      s.train c 0x20 (s.portTo c k) k (leBytes 3 q.1 ++ leBytes 1 q.2)
    else s)

/-- SLOT (R318): the slot parity alternates. -/
def execSlot (c : Fin 4) (s : State) : Host.Outcome State Fault Refusal :=
  .next (
    if (s.ring c).state.up && s.gapFor c .slot then
      let p := !(s.ring c).parity
      ((s.gapRun c .slot).updRing c fun r => { r with parity := p }).broadcast c 0x21 (leBytes 1 (bitAt p 0))
    else s)

/-- BLANK (R319): every balance switch opens until the next SAMPLE. -/
def execBlank (c : Fin 4) (s : State) : Host.Outcome State Fault Refusal :=
  .next (
    if s.sweepsOn c then
      (s.updRing c fun r => { r with blanked := true, blankAt := s.sys.tick }).broadcast c 0x22 []
    else s)

/-- CONTACTOR (R315, R322): the command a ring has outstanding goes to its contactor node. -/
def execContactor (c : Fin 4) (close : Bool) (s : State) : Host.Outcome State Fault Refusal :=
  .next (if (s.ring c).ctrCmd = some close then s.contactor c close else s)

/-- A string whose contactors close again is isolated no longer (R407). -/
def State.restoreString (s : State) (c : Fin 4) : State :=
  if h : s.ringStr c < 4 then s.updStrProt ⟨s.ringStr c, h⟩ fun p => { p with isolated := false } else s

/-- CONTACTOR_CLOSED (R322, R442). -/
def execContactorClosed (c : Fin 4) (s : State) : Host.Outcome State Fault Refusal :=
  .next (match s.ctrNode c with
    | none => s
    | some n =>
      if (s.ring c).ctr = .precharge then
        let s := s.updRing c fun r => { r with ctr := .closed, ctrFaulted := false, ctrCmd := none }
        ((s.ev 0x8070 (chnInst c.val n)).restoreString c).armDone
      else s)

/-- CONTACTOR_FAULT (R322): the ring loses READY (R305), and a passage to ARMED is abandoned. -/
def execContactorFault (c : Fin 4) (s : State) : Host.Outcome State Fault Refusal :=
  .next (match s.ctrNode c with
    | none => s
    | some n =>
      let s := s.updRing c fun r => { r with ctr := .fault, ctrFaulted := true, ctrCmd := none }
      ((s.ev 0x8072 (chnInst c.val n)).degrade).armCheck)

/-- An OPERATOR opens a string's contactors (R322): a passage to ARMED that waits for them to close is over (log entry
133). -/
def State.ctrOpen (s : State) (c : Fin 4) : State := (s.contactor c false).passageEnd

/-- An OPERATOR closes a string's contactors (R322, R407). -/
def State.ctrClose (s : State) (c : Fin 4) : State :=
  if (s.ctrNode c).isNone then s.restoreString c else s.contactor c true

/-- CTR_OPEN (R322, R325). -/
def execCtrOpen (sess : Fin 64) (c : Fin 4) (s : State) : Host.Outcome State Fault Refusal :=
  .next (s.regCmdAt (s.ringRec c).isSome sess .osa fun s => s.ctrOpen c)

/-- CTR_CLOSE (R322, R325). -/
def execCtrClose (sess : Fin 64) (c : Fin 4) (s : State) : Host.Outcome State Fault Refusal :=
  .next (s.regCmdAt (s.ringRec c).isSome sess .osa fun s => s.ctrClose c)

/-- WAKE_TONE (R320, R321): heard on port A, on port B. In the module's state OFF it is heard while the standby domain is powered.
In a gap every node is asked with PROBE at once, and those found without an address are given theirs back; within a sweep the
PROBEs of the next gap do so. Before the ring's enumeration completes it is ignored. -/
def execWakeTone (c : Fin 4) (onA onB : Bool) (lost : List Nat) (s : State) : Host.Outcome State Fault Refusal :=
  let st := (s.ring c).state
  .next (
    if !(onA || onB) || st = .waking || st = .enumerating || (st = .off && s.power.powered)
        || (!s.power.powered && !s.power.stby12Ok && !s.power.aux54Ok) then s
    else
      let s := s.updRing c fun r => { r with toneHeard := true, probeDue := r.probeDue || st.up }
      let s := s.ev 0x8050 (chnInst c.val 0) ((if onA then 1 else 0) + (if onB then 2 else 0))
      if st.up && (s.ring c).sweep.isNone then
        let s := (s.nodeList c).foldl (fun s n => s.train c 0x31 (s.portTo c n) n []) s
        (lost.filter fun n => 0 < n && n ≤ s.ringNodes c).foldl (fun s n => s.readdress c n) s
      else s)

/-- SHIP (R298, R323): in SHIP_PREP with the groups OFF and the contactors open; the nodes that answer 0x00. Up to three attempts,
10 ms apart (log entry 132). -/
def execShip (c : Fin 4) (replies : List Sys2Proof.ChainBlock) (s : State) : Host.Outcome State Fault Refusal :=
  let r := s.ring c
  .next (
    if r.state = .shipping && !s.sweepsOn c && (r.shipTries = 0 || (r.shipTries < 3 && s.elapsed r.shipAt 5000)) then
      let s := (s.updRing c fun r => { r with
        sweep := none, sweepDue := none, started := false
        shipTries := r.shipTries + 1, shipAt := s.sys.tick }).train2 c 0x50 0 []
      let s := (replies.filter fun b => blockGood b 3 && blockByte b = 0).foldl
        (fun s b => s.updNode c (blockFrom b) fun x => { x with shipped := true }) (s.takeReplies c 3 replies)
      s.shipCheck c
    else s)

/-- SHIP_INCOMPLETE (R323): a node that has not answered within 10 ms of three attempts is reported absent. -/
def execShipIncomplete (c : Fin 4) (n : Fin 16) (s : State) : Host.Outcome State Fault Refusal :=
  let k := n.val + 1
  .next (
    if (s.ring c).state = .shipping && (s.ring c).shipTries = 3 && s.elapsed (s.ring c).shipAt 5000
        && ((s.ring c).nodeAt k).present && !((s.ring c).nodeAt k).shipped then
      ((s.updNode c k fun x => { x with present := false }).ev 0x8061 (chnInst c.val k)).shipCheck c
    else s)

end Sys2Proof.Machine
end

