-- ==== Sys2Proof/Machine/Fce.lean ====
section
/-! DEFINITION. The commands of the forecast engine (07_forecast_engine.md). -/

namespace Sys2Proof.Machine

/-- FORECAST_EVAL_DONE (R223, R219, R232). -/
def execForecastEvalDone (i : Fin 10) (tIn ns : Nat) (s : State) : Host.Outcome State Fault Refusal :=
  .next (if s.lit then s.evalDone i tIn ns else s)

/-- WEIGHT_COPY_DONE (R229). -/
def execWeightCopyDone (i : Fin 10) (tIn entry : Nat) (s : State) : Host.Outcome State Fault Refusal :=
  .next (if s.lit then s.copyDone i tIn entry else s)

/-- The frame of a round is assembled at the start of the next tick where that is its time, together with those of
later rounds of its horizon (R216, R235; log entry 101). -/
def State.frameCmd (s : State) (long : Bool) (tIn : Nat) (now : Round → Bool) : State :=
  if s.lit && (s.roundAt long tIn).any now then
    s.framesAt (s.sys.tick + 1) fun x => x.long == long && decide (tIn ≤ x.tIn)
  else s

/-- FRAME_ASSEMBLY (R215, R216): every due instance of the round has completed. -/
def execFrameAssembly (long : Bool) (tIn : Nat) (s : State) : Host.Outcome State Fault Refusal :=
  .next (s.frameCmd long tIn s.roundComplete)

/-- FRAME_DEADLINE (R216, R232): the round meets its deadline at the next tick. -/
def execFrameDeadline (long : Bool) (tIn : Nat) (s : State) : Host.Outcome State Fault Refusal :=
  .next (s.frameCmd long tIn fun rd => rd.late (s.sys.tick + 1))

/-- LONG_STALE (R217; log entry 101): no frame of a waiting round comes at the next tick, and the newest has passed
STALE_MS there. -/
def execLongStale (s : State) : Host.Outcome State Fault Refusal :=
  let t := s.sys.tick + 1
  .next (
    if s.lit && s.longStaleAt t && !(s.fce.rounds.any fun rd => rd.long && (s.roundComplete rd || rd.late t)) then
      s.longStale
    else s)

/-- HEAD_UPDATE (R238, R239; log entry 101): at the next tick every instance whose head adapts performs one update. -/
def execHeadUpdate (s : State) : Host.Outcome State Fault Refusal :=
  .next (if s.lit then s.headsAt (s.sys.tick + 1) else s)

/-- ADAPT_RESUMED (R239; log entry 101): HOLDOFF_MS has run by the next tick since the reversion. -/
def execAdaptResumed (i : Fin 10) (s : State) : Host.Outcome State Fault Refusal :=
  .next (if s.lit && s.holdoffOver i (s.sys.tick + 1) then s.adaptResume i else s)

/-- FCE_CTRL.FORECAST_EN is written (R234). -/
def State.forecastEnable (s : State) (v : Bool) : State :=
  ({ s with fce := { s.fce with forecastEn := v } }).engineSync

/-- FORECAST_EN (R234, R241). -/
def execForecastEn (sess : Fin 64) (v : Bool) (s : State) : Host.Outcome State Fault Refusal :=
  .next (s.regCmd sess .oar fun s => s.forecastEnable v)

/-- FCE_CTRL.ADAPT_EN is written (R239). -/
def State.adaptEnable (s : State) (v : Bool) : State := { s with fce := { s.fce with adaptEn := v } }

/-- ADAPT_EN (R239, R241). -/
def execAdaptEn (sess : Fin 64) (v : Bool) (s : State) : Host.Outcome State Fault Refusal :=
  .next (s.regCmd sess .oar fun s => s.adaptEnable v)

/-- Every head is forced to revert (R239). -/
def State.revertAll (s : State) : State := (List.finRange 10).foldl State.headRevert s

/-- REVERT_ALL (R239, R241). -/
def execRevertAll (sess : Fin 64) (s : State) : Host.Outcome State Fault Refusal :=
  .next (s.regCmd sess .oar State.revertAll)

/-- FCE_INST_CTRL.ADAPT_DIS is written (R246). -/
def State.adaptDisable (s : State) (i : Fin 10) (v : Bool) : State :=
  s.updInst i fun x => { x with adaptDis := v }

/-- ADAPT_DIS (R246). -/
def execAdaptDis (sess : Fin 64) (i : Fin 10) (v : Bool) (s : State) : Host.Outcome State Fault Refusal :=
  .next (s.regCmdAt (s.instModel i).isSome sess .oar fun s => s.adaptDisable i v)

/-- REVERT (R239, R246). -/
def execRevert (sess : Fin 64) (i : Fin 10) (s : State) : Host.Outcome State Fault Refusal :=
  .next (s.regCmdAt (s.instModel i).isSome sess .oar fun s => s.headRevert i)

end Sys2Proof.Machine
end

