-- ==== Sys2Proof/Machine/Sha.lean ====
section
/-! DEFINITION. SHA-256, SHA-384 and SHA-512 (R60, R62): one hash of two word widths, with the constants their names
stand for (PRESUMED, log entry 4). -/

namespace Sys2Proof.Machine

/-- Round constants of SHA-512 and SHA-384; SHA-256 takes the upper halves of the first 64. -/
def sha512K : List Nat :=
  [0x428a2f98d728ae22, 0x7137449123ef65cd, 0xb5c0fbcfec4d3b2f,
   0xe9b5dba58189dbbc, 0x3956c25bf348b538, 0x59f111f1b605d019,
   0x923f82a4af194f9b, 0xab1c5ed5da6d8118, 0xd807aa98a3030242,
   0x12835b0145706fbe] ++
  [0x243185be4ee4b28c, 0x550c7dc3d5ffb4e2, 0x72be5d74f27b896f,
   0x80deb1fe3b1696b1, 0x9bdc06a725c71235, 0xc19bf174cf692694,
   0xe49b69c19ef14ad2, 0xefbe4786384f25e3, 0x0fc19dc68b8cd5b5,
   0x240ca1cc77ac9c65] ++
  [0x2de92c6f592b0275, 0x4a7484aa6ea6e483, 0x5cb0a9dcbd41fbd4,
   0x76f988da831153b5, 0x983e5152ee66dfab, 0xa831c66d2db43210,
   0xb00327c898fb213f, 0xbf597fc7beef0ee4, 0xc6e00bf33da88fc2,
   0xd5a79147930aa725] ++
  [0x06ca6351e003826f, 0x142929670a0e6e70, 0x27b70a8546d22ffc,
   0x2e1b21385c26c926, 0x4d2c6dfc5ac42aed, 0x53380d139d95b3df,
   0x650a73548baf63de, 0x766a0abb3c77b2a8, 0x81c2c92e47edaee6,
   0x92722c851482353b] ++
  [0xa2bfe8a14cf10364, 0xa81a664bbc423001, 0xc24b8b70d0f89791,
   0xc76c51a30654be30, 0xd192e819d6ef5218, 0xd69906245565a910,
   0xf40e35855771202a, 0x106aa07032bbd1b8, 0x19a4c116b8d2d0c8,
   0x1e376c085141ab53] ++
  [0x2748774cdf8eeb99, 0x34b0bcb5e19b48a8, 0x391c0cb3c5c95a63,
   0x4ed8aa4ae3418acb, 0x5b9cca4f7763e373, 0x682e6ff3d6b2b8a3,
   0x748f82ee5defb2fc, 0x78a5636f43172f60, 0x84c87814a1f0ab72,
   0x8cc702081a6439ec] ++
  [0x90befffa23631e28, 0xa4506cebde82bde9, 0xbef9a3f7b2c67915,
   0xc67178f2e372532b, 0xca273eceea26619c, 0xd186b8c721c0c207,
   0xeada7dd6cde0eb1e, 0xf57d4f7fee6ed178, 0x06f067aa72176fba,
   0x0a637dc5a2c898a6] ++
  [0x113f9804bef90dae, 0x1b710b35131c471b, 0x28db77f523047d84,
   0x32caab7b40c72493, 0x3c9ebe0a15c9bebc, 0x431d67c49c100d4c,
   0x4cc5d4becb3e42b6, 0x597f299cfc657e2a, 0x5fcb6fab3ad6faec,
   0x6c44198c4a475817]

/-- What tells SHA-256 from SHA-384 and SHA-512: the word width, and the rotations of the four mixing functions, the last
of the two small ones a shift. -/
structure ShaKind where
  /-- Bits of a word -/
  w : Nat
  /-- Rotations of a and of e in a round -/
  ra : List Nat
  re : List Nat
  /-- Rotations and shift of the two words a new message word mixes -/
  r0 : List Nat
  r1 : List Nat
  /-- Round constants -/
  k : List Nat

/-- The two widths. -/
def sha64 : ShaKind :=
  { w := 64, ra := [28, 34, 39], re := [14, 18, 41], r0 := [1, 8, 7], r1 := [19, 61, 6], k := sha512K }
def sha32 : ShaKind :=
  { w := 32, ra := [2, 13, 22], re := [6, 11, 25], r0 := [7, 18, 3], r1 := [17, 19, 10]
    k := (sha512K.take 64).map fun x => x / 2 ^ 32 }

/-- Initial values. -/
def sha512Init : List Nat :=
  [0x6a09e667f3bcc908, 0xbb67ae8584caa73b, 0x3c6ef372fe94f82b, 0xa54ff53a5f1d36f1] ++
  [0x510e527fade682d1, 0x9b05688c2b3e6c1f, 0x1f83d9abfb41bd6b, 0x5be0cd19137e2179]
def sha384Init : List Nat :=
  [0xcbbb9d5dc1059ed8, 0x629a292a367cd507, 0x9159015a3070dd17, 0x152fecd8f70e5939] ++
  [0x67332667ffc00b31, 0x8eb44a8768581511, 0xdb0c2e0d64f98fa7, 0x47b5481dbefa4fa4]
def sha256Init : List Nat := sha512Init.map fun x => x / 2 ^ 32

/-- Rotation of a word of `w` bits to the right. -/
def rotr (w x k : Nat) : Nat := x / 2 ^ k + (x % 2 ^ k) * 2 ^ (w - k)
/-- Three rotations of a word, added without carry. -/
def ShaKind.mix (c : ShaKind) (r : List Nat) (x : Nat) : Nat :=
  rotr c.w x (r.getD 0 0) ^^^ rotr c.w x (r.getD 1 0) ^^^ rotr c.w x (r.getD 2 0)
/-- Two rotations and a shift of a word, added without carry. -/
def ShaKind.mixS (c : ShaKind) (r : List Nat) (x : Nat) : Nat :=
  rotr c.w x (r.getD 0 0) ^^^ rotr c.w x (r.getD 1 0) ^^^ (x / 2 ^ r.getD 2 0)

/-- The message words of one block, latest first, extended by `n` more. -/
def shaExtend (c : ShaKind) : Nat → List Nat → List Nat
  | 0, l => l
  | n + 1, l =>
    let g := fun k => l.getD k 0
    shaExtend c n (((g 15 + c.mixS c.r0 (g 14) + g 6 + c.mixS c.r1 (g 1)) % 2 ^ c.w) :: l)

/-- The working variables. -/
structure ShaVars where
  a : Nat
  b : Nat
  c : Nat
  d : Nat
  e : Nat
  f : Nat
  g : Nat
  h : Nat

/-- One round. -/
def shaRound (c : ShaKind) (v : ShaVars) (kw : Nat × Nat) : ShaVars :=
  let ch := (v.e &&& v.f) ^^^ ((2 ^ c.w - 1 - v.e) &&& v.g)
  let t1 := v.h + c.mix c.re v.e + ch + kw.1 + kw.2
  let mj := (v.a &&& v.b) ^^^ (v.a &&& v.c) ^^^ (v.b &&& v.c)
  { a := (t1 + c.mix c.ra v.a + mj) % 2 ^ c.w, b := v.a, c := v.b, d := v.c
    e := (v.d + t1) % 2 ^ c.w, f := v.e, g := v.f, h := v.g }

/-- Compression of one block of 16 words into the chaining value. -/
def shaBlock (c : ShaKind) (hs : List Nat) (blk : List Byte) : List Nat :=
  let nb := c.w / 8
  let w16 := (List.range 16).map fun i => beVal ((blk.drop (nb * i)).take nb)
  let ws := (shaExtend c (c.k.length - 16) w16.reverse).reverse
  let g := fun k => hs.getD k 0
  let v := (c.k.zip ws).foldl (shaRound c)
    { a := g 0, b := g 1, c := g 2, d := g 3, e := g 4, f := g 5, g := g 6, h := g 7 }
  (hs.zip [v.a, v.b, v.c, v.d, v.e, v.f, v.g, v.h]).map fun p => (p.1 + p.2) % 2 ^ c.w

/-- Compression of `n` blocks. -/
def shaBlocks (c : ShaKind) : Nat → List Nat → List Byte → List Nat
  | 0, hs, _ => hs
  | n + 1, hs, l => shaBlocks c n (shaBlock c hs (l.take (2 * c.w))) (l.drop (2 * c.w))

/-- The hash of a byte string from an initial value on: its words, most significant byte first. -/
def shaHash (c : ShaKind) (init : List Nat) (l : List Byte) : List Byte :=
  let nb := 2 * c.w
  let cnt := c.w / 4
  let n := (l.length + 1 + cnt + nb - 1) / nb
  let m := l ++ [0x80#8] ++ List.replicate (nb * n - l.length - 1 - cnt) 0 ++ beBytes cnt (8 * l.length)
  (shaBlocks c n init m).flatMap (beBytes (c.w / 8))

/-- SHA-256, SHA-384 and SHA-512 of a byte string. -/
def sha256 (l : List Byte) : List Byte := shaHash sha32 sha256Init l
def sha384 (l : List Byte) : List Byte := (shaHash sha64 sha384Init l).take 48
def sha512 (l : List Byte) : List Byte := shaHash sha64 sha512Init l

end Sys2Proof.Machine
end

