-- ==== Sys2Proof/Machine/Aead.lean ====
section
/-! DEFINITION. The ciphers a session stands on (R371, R372): AES-256 of FIPS 197, its GCM of SP 800-38D with a nonce of 12
bytes and a tag of 16, and HKDF of RFC 5869 with SHA-384. The spec names the standards, and what they lay down is PRESUMED
as known (log entry 5). -/

namespace Sys2Proof.Machine

/-- Two strings added byte by byte. -/
def xorBytes (a b : List Byte) : List Byte := List.zipWith (· ^^^ ·) a b

/-! AES-256. -/

/-- The product by x in the field of FIPS 197. -/
def xtime (b : Byte) : Byte := (b <<< 1) ^^^ (if b.getLsbD 7 then 0x1B#8 else 0#8)

/-- The product in that field. -/
def gfMul (a b : Byte) : Byte :=
  ((List.range 8).foldl (fun (x : Byte × Byte) i => (if b.getLsbD i then x.1 ^^^ x.2 else x.1, xtime x.2)) (0#8, a)).1

/-- The inverse in that field, the 254th power, and 0 for 0. -/
def gfInv (a : Byte) : Byte :=
  ((List.range 7).foldl (fun (x : Byte × Byte) _ => (gfMul x.1 (gfMul x.2 x.2), gfMul x.2 x.2)) (1#8, a)).1

/-- SubBytes of one byte. -/
def sbox (a : Byte) : Byte :=
  let b := gfInv a
  b ^^^ b.rotateLeft 1 ^^^ b.rotateLeft 2 ^^^ b.rotateLeft 3 ^^^ b.rotateLeft 4 ^^^ 0x63#8

/-- The next word of the key schedule, after the words so far, newest first. -/
def keyWord (l : List (List Byte)) : List Byte :=
  let i := l.length
  let t := l.getD 0 []
  let t :=
    if i % 8 = 0 then xorBytes ((t.drop 1 ++ t.take 1).map sbox) [1#8 <<< (i / 8 - 1), 0#8, 0#8, 0#8]
    else if i % 8 = 4 then t.map sbox
    else t
  xorBytes t (l.getD 7 [])

/-- The 60 words of the key schedule as 240 bytes. -/
def keySchedule (key : List Byte) : List Byte :=
  let first := (List.range 8).map fun i => bytesAt key (4 * i) 4
  ((List.range 52).foldl (fun l _ => keyWord l :: l) first.reverse).reverse.flatten

/-- ShiftRows: the bytes stand column by column. -/
def shiftRows (l : List Byte) : List Byte := (List.range 16).map fun i => l.getD ((i + 4 * (i % 4)) % 16) 0

/-- MixColumns. -/
def mixColumns (l : List Byte) : List Byte :=
  (List.range 16).map fun i =>
    let at_ := fun (k : Nat) => l.getD (i / 4 * 4 + (i + k) % 4) 0
    xtime (at_ 0) ^^^ (xtime (at_ 1) ^^^ at_ 1) ^^^ at_ 2 ^^^ at_ 3

/-- AES-256 of one block under a key schedule. -/
def aesBlock (sched block : List Byte) : List Byte :=
  let add := fun (l : List Byte) (r : Nat) => xorBytes l (bytesAt sched (16 * r) 16)
  let sub := fun (l : List Byte) => shiftRows (l.map sbox)
  add (sub ((List.range 13).foldl (fun l r => add (mixColumns (sub l)) (r + 1)) (add block 0))) 14

/-! GCM. -/

/-- The product of GHASH, on blocks as numbers, first bit highest. -/
def ghMul (x y : Nat) : Nat :=
  ((List.range 128).foldl (fun (z : Nat × Nat) i =>
    (if x.testBit (127 - i) then z.1 ^^^ z.2 else z.1
    , if z.2 % 2 = 1 then (z.2 / 2) ^^^ 0xE1000000000000000000000000000000 else z.2 / 2)) (0, y)).1

/-- GHASH of whole blocks. -/
def ghash (h : Nat) (l : List Byte) : Nat :=
  (List.range (l.length / 16)).foldl (fun y i => ghMul (y ^^^ beVal (bytesAt l (16 * i) 16)) h) 0

/-- Zeros up to a whole block. -/
def pad16 (l : List Byte) : List Byte := l ++ List.replicate (16 * ceilDiv l.length 16 - l.length) 0

/-- `n` bytes of the key stream, from the counter 2 on. -/
def gcmStream (sched nonce : List Byte) (n : Nat) : List Byte :=
  ((List.range (ceilDiv n 16)).flatMap fun i => aesBlock sched (nonce ++ beBytes 4 (i + 2))).take n

/-- The tag over additional data and ciphertext. -/
def gcmTag (sched nonce aad c : List Byte) : List Byte :=
  let h := beVal (aesBlock sched (List.replicate 16 0))
  let y := ghash h (pad16 aad ++ pad16 c ++ beBytes 8 (8 * aad.length) ++ beBytes 8 (8 * c.length))
  xorBytes (aesBlock sched (nonce ++ beBytes 4 1)) (beBytes 16 y)

/-- Ciphertext and tag of a message. -/
def gcmSeal (key nonce aad m : List Byte) : List Byte :=
  let k := keySchedule key
  let c := xorBytes m (gcmStream k nonce m.length)
  c ++ gcmTag k nonce aad c

/-- The message of a ciphertext with its tag, where the tag verifies. -/
def gcmOpen (key nonce aad x : List Byte) : Option (List Byte) :=
  let k := keySchedule key
  let c := x.take (x.length - 16)
  if 16 ≤ x.length && gcmTag k nonce aad c == x.drop (x.length - 16) then
    some (xorBytes c (gcmStream k nonce c.length))
  else none

/-! HKDF. -/

/-- HMAC with SHA-384. -/
def hmac384 (key m : List Byte) : List Byte :=
  let k := if 128 < key.length then sha384 key else key
  let k := k ++ List.replicate (128 - k.length) 0
  sha384 (k.map (· ^^^ 0x5C#8) ++ sha384 (k.map (· ^^^ 0x36#8) ++ m))

/-- `n` bytes, at most 48, derived by HKDF-SHA-384. -/
def hkdf384 (salt ikm info : List Byte) (n : Nat) : List Byte :=
  (hmac384 (hmac384 salt ikm) (info ++ [1#8])).take n

end Sys2Proof.Machine
end

