-- ==== Sys2Proof/Machine/Signature.lean ====
section
/-! DEFINITION. The two signatures of R62: RSASSA-PSS of RFC 8017 with SHA-384, MGF1 with SHA-384 and a salt of 48 bytes
over a modulus of 3,072 bits, and SLH-DSA-SHA2-192s of FIPS 205 in pure mode with an empty context. The spec names the
two standards, and what they lay down is PRESUMED as known (log entry 5). -/

namespace Sys2Proof.Machine

/-- MGF1: `n` bytes from a seed. -/
def mgf1 (hash : List Byte → List Byte) (size : Nat) (seed : List Byte) (n : Nat) : List Byte :=
  ((List.range (ceilDiv n size)).flatMap fun i => hash (seed ++ beBytes 4 i)).take n

/-! RSASSA-PSS. -/

/-- A power modulo `m`, over the `k` lowest bits of the exponent. -/
def powMod (m : Nat) : Nat → Nat → Nat → Nat
  | 0, _, _ => 1 % m
  | k + 1, b, e => (if e % 2 = 1 then b else 1) * powMod m k (b * b % m) (e / 2) % m

/-- The encoded message that a signature opens to fits the hash of a message. -/
def pssEncoded (em hash : List Byte) : Bool :=
  let masked := em.take 335
  let h := bytesAt em 335 48
  let db := (masked.zip (mgf1 sha384 48 h 335)).map fun x => x.1 ^^^ x.2
  let top := (db.getD 0 0).toNat % 128
  let salt := bytesAt db 287 48
  em.getD 383 0 == 0xBC#8 && decide ((masked.getD 0 0).toNat < 128) && decide (top = 0)
  && ((db.take 286).drop 1).all (· == 0#8) && db.getD 286 0 == 1#8
  && sha384 (List.replicate 8 0 ++ hash ++ salt) == h

/-- RSA_SIG verifies over a message. -/
def rsaVerifies (e n sig msg : List Byte) : Bool :=
  let m := beVal n
  decide (beVal sig < m) && pssEncoded (beBytes 384 (powMod m 32 (beVal sig) (leVal e))) (sha384 msg)

/-! SLH-DSA-SHA2-192s. -/

/-- An address, compressed: layer, tree, type and its three words. -/
structure SlhAddr where
  layer : Nat
  tree : Nat
  type : Nat
  key : Nat
  chain : Nat
  hash : Nat

/-- Its bytes. -/
def SlhAddr.bytes (a : SlhAddr) : List Byte :=
  beBytes 1 a.layer ++ beBytes 8 a.tree ++ beBytes 1 a.type ++ beBytes 4 a.key ++ beBytes 4 a.chain ++ beBytes 4 a.hash

/-- F, over one value, and H and T, over more. -/
def slhF (seed : List Byte) (a : SlhAddr) (m : List Byte) : List Byte :=
  (sha256 (seed ++ List.replicate 40 0 ++ a.bytes ++ m)).take 24
def slhH (seed : List Byte) (a : SlhAddr) (m : List Byte) : List Byte :=
  (sha512 (seed ++ List.replicate 104 0 ++ a.bytes ++ m)).take 24

/-- The first `n` numbers of `b` bits of a string, most significant bit first. -/
def slhDigits (l : List Byte) (b n : Nat) : List Nat :=
  (List.range n).map fun i => beVal l / 2 ^ (8 * l.length - b * (i + 1)) % 2 ^ b

/-- The root above a leaf, from the authentication path of `n` nodes; the leaf stands at `idx` of its level, and `base` is
the number of the level's first node. -/
def slhClimb (seed : List Byte) (a : SlhAddr) (path : List Byte) (idx base : Nat) : Nat → Nat → List Byte → List Byte
  | 0, _, node => node
  | n + 1, j, node =>
    let sib := bytesAt path (24 * j) 24
    let b := { a with chain := j + 1, hash := (base + idx) / 2 ^ (j + 1) }
    slhClimb seed a path idx base n (j + 1)
      (slhH seed b (if idx / 2 ^ j % 2 = 0 then node ++ sib else sib ++ node))

/-- `n` steps of a chain from the hash address `i` on. -/
def slhChain (seed : List Byte) (a : SlhAddr) : Nat → Nat → List Byte → List Byte
  | 0, _, x => x
  | n + 1, i, x => slhChain seed a n (i + 1) (slhF seed { a with hash := i } x)

/-- The public key of a one-time signature. -/
def slhWots (seed : List Byte) (a : SlhAddr) (sig m : List Byte) : List Byte :=
  let d := slhDigits m 4 48
  let csum := (d.map fun x => 15 - x).sum * 16
  let all := d ++ slhDigits (beBytes 2 csum) 4 3
  let ends := all.zipIdx.flatMap fun x =>
    slhChain seed { a with type := 0, chain := x.2, hash := 0 } (15 - x.1) x.1 (bytesAt sig (24 * x.2) 24)
  slhH seed { a with type := 1, chain := 0, hash := 0 } ends

/-- The root of a tree of one-time keys. -/
def slhXmss (seed : List Byte) (layer tree leaf : Nat) (sig m : List Byte) : List Byte :=
  let a : SlhAddr := { layer := layer, tree := tree, type := 0, key := leaf, chain := 0, hash := 0 }
  slhClimb seed { a with type := 2, key := 0 } (sig.drop 1224) leaf 0 9 0 (slhWots seed a sig m)

/-- The root of the hypertree: `n` layers from `layer` up, 1,440 bytes of signature each. -/
def slhHyper (seed : List Byte) : Nat → Nat → Nat → Nat → List Byte → List Byte → List Byte
  | 0, _, _, _, _, m => m
  | n + 1, layer, tree, leaf, sig, m =>
    slhHyper seed n (layer + 1) (tree / 512) (tree % 512) (sig.drop 1440) (slhXmss seed layer tree leaf sig m)

/-- The few-time public key of a signature over the digits of a digest. -/
def slhFors (seed : List Byte) (tree leaf : Nat) (sig md : List Byte) : List Byte :=
  let a : SlhAddr := { layer := 0, tree := tree, type := 3, key := leaf, chain := 0, hash := 0 }
  let roots := (slhDigits md 14 17).zipIdx.flatMap fun x =>
    let s := sig.drop (360 * x.2)
    let base := x.2 * 2 ^ 14
    slhClimb seed a (s.drop 24) x.1 base 14 0 (slhF seed { a with hash := base + x.1 } (s.take 24))
  slhH seed { a with type := 4 } roots

/-- SLH_SIG verifies over a message. -/
def slhVerifies (pk sig msg : List Byte) : Bool :=
  let seed := pk.take 24
  let root := bytesAt pk 24 24
  let r := sig.take 24
  let dg := mgf1 sha512 64 (r ++ seed ++ sha512 (r ++ seed ++ root ++ [0#8, 0#8] ++ msg)) 39
  let tree := beVal (bytesAt dg 30 7) % 2 ^ 54
  let leaf := beVal (bytesAt dg 37 2) % 512
  let fors := slhFors seed tree leaf (sig.drop 24) (dg.take 30)
  slhHyper seed 7 0 tree leaf (sig.drop 6144) fors == root

end Sys2Proof.Machine
end

