-- ==== Sys2Proof/Machine/Bitstream.lean ====
section
/-! DEFINITION. The layout of a bit-stream and of a firmware image: header, signature block and directory (R58 to
R66, R438), their checks (steps 1 to 6 of R80, R436), and the walk over the records (R67). -/

namespace Sys2Proof.Machine

/-- What CFG_RESULT and CFG_RESULT_OFFSET show of a failure (R80, R91, R93). -/
structure LoadFail where
  /-- CODE -/
  code : Nat
  /-- SECTION, 0xFF for none -/
  section_ : Nat := 255
  /-- RECORD_TYPE, 0 for none -/
  rtype : Nat := 0
  /-- CFG_RESULT_OFFSET, all ones for none -/
  offset : Nat := 0xFFFFFFFF
  deriving DecidableEq, Repr

/-- The CFG_RESULT word. -/
def LoadFail.word (f : LoadFail) : Nat := f.code * 2 ^ 24 + f.section_ * 2 ^ 16 + f.rtype

/-! Codes of R92. -/
def cBadMagic : Nat := 0x10
def cBadFormat : Nat := 0x11
def cWrongPart : Nat := 0x12
def cRoot : Nat := 0x20
def cRsa : Nat := 0x21
def cSlh : Nat := 0x22
def cRollback : Nat := 0x23
def cCrc : Nat := 0x30
def cMissing : Nat := 0x31
def cUnknown : Nat := 0x32
def cRange : Nat := 0x33
def cBase : Nat := 0x34
def cConflict : Nat := 0x40
def cLoose : Nat := 0x41
def cLocked : Nat := 0x42
def cCapacity : Nat := 0x43

/-- The first failure whose condition holds. -/
def firstFail : List (Bool × LoadFail) → Option LoadFail
  | [] => none
  | (b, f) :: l => if b then some f else firstFail l

/-- A failure of a field of the header or the signature block. -/
def hdrFail (code off : Nat) : LoadFail := { code := code, offset := off }

/-! Fields of a byte string. -/
def at8 (l : List Byte) (o : Nat) : Nat := leVal (bytesAt l o 1)
def at16 (l : List Byte) (o : Nat) : Nat := leVal (bytesAt l o 2)
def at32 (l : List Byte) (o : Nat) : Nat := leVal (bytesAt l o 4)
/-- The place of the first byte that is not zero within a span. -/
def nonZeroAt (l : List Byte) (o n : Nat) : Option Nat := (List.range n).map (o + ·) |>.find? fun i => l.getD i 0 != 0
/-- Whether a span is zero. -/
def zeroAt (l : List Byte) (o n : Nat) : Bool := (nonZeroAt l o n).isNone

/-! The header (R59). -/
def hKind (l : List Byte) : Nat := at16 l 0x06
def hTotal (l : List Byte) : Nat := at32 l 0x10
def hDirOff (l : List Byte) : Nat := at32 l 0x1C
def hDirCount (l : List Byte) : Nat := at16 l 0x20
def hRollback (l : List Byte) : Nat := at32 l 0x24
def hBase (l : List Byte) : List Byte := bytesAt l 0x30 48
def hFlags (l : List Byte) : Nat := at32 l 0x6C
def hDirEnd (l : List Byte) : Nat := hDirOff l + 32 * hDirCount l

/-- MAGIC of a bit-stream and of a firmware image (R59, R438). -/
def magicCfg : List Byte := [0x47#8, 0x5A#8, 0x39#8, 0x42#8]
def magicFw : List Byte := [0x47#8, 0x5A#8, 0x39#8, 0x46#8]
/-- Whether a byte string begins as a firmware image. -/
def isFirmware (l : List Byte) : Bool := bytesAt l 0 4 == magicFw

/-- The end of the signature block. -/
def sigEnd : Nat := 0x4398

/-- The signed message (R60). -/
def signedMessage (l : List Byte) : List Byte := l.take 0x100 ++ l.drop (hDirOff l)
/-- The digest: SHA-384 of the signed message (R60). -/
def imageDigest (l : List Byte) : List Byte := sha384 (signedMessage l)

/-- The key hash of the signature block (R62): RSA_E, RSA_N and SLH_PK as they stand. -/
def keyHash (l : List Byte) : List Byte := sha384 (bytesAt l 0x104 436)

/-- RSA_SIG and SLH_SIG of the signature block verify over the signed message (R61, R62). -/
def rsaOk (l : List Byte) : Bool :=
  rsaVerifies (bytesAt l 0x104 4) (bytesAt l 0x108 384) (bytesAt l 0x2B8 384) (signedMessage l)
def slhOk (l : List Byte) : Bool := slhVerifies (bytesAt l 0x288 48) (bytesAt l 0x438 16224) (signedMessage l)

/-- What a bit-stream and a firmware image share of the header (R58, R59, R438), in the order of step 1 of R80: FORMAT, the
KIND, the length, the fields and the offsets. No byte of NAME is judged (log entry 96). -/
def headerFails (l : List Byte) (kinds : List Nat) : List (Bool × LoadFail) :=
  let bad := hdrFail cBadFormat
  [(at16 l 0x04 != 1, bad 0x04), (!kinds.contains (hKind l), bad 0x06)
  , (l.length < 0x100 || hTotal l != l.length, bad 0x10), (at32 l 0x14 != 0x100, bad 0x14)
  , (at32 l 0x18 != 0x4298, bad 0x18), (64 < hRollback l, bad 0x24)
  , (hDirOff l % 64 != 0 || hDirOff l < 0x43C0 || hTotal l < hDirOff l, bad 0x1C)]

/-- Reserved bytes, and padding before the directory (R58). -/
def paddingFails (l : List Byte) : List (Bool × LoadFail) :=
  [(0x22, 2), (0xB0, 80), (0x102, 2), (sigEnd, hDirOff l - sigEnd)].map fun x =>
    ((nonZeroAt l x.1 x.2).isSome, hdrFail cBadFormat ((nonZeroAt l x.1 x.2).getD 0))

/-! The directory (R64). -/

/-- One directory entry. -/
structure DirEntry where
  /-- Its index -/
  index : Nat
  /-- TYPE, OFFSET, LENGTH, RECORDS, CRC -/
  type : Nat
  off : Nat
  len : Nat
  nrec : Nat
  crc : Nat
  deriving DecidableEq, Repr

/-- Where an entry stands. -/
def entryAt (l : List Byte) (i : Nat) : Nat := hDirOff l + 32 * i

/-- The directory. -/
def directory (l : List Byte) : List DirEntry :=
  (List.range (hDirCount l)).map fun i =>
    let o := entryAt l i
    { index := i, type := at16 l o, off := at32 l (o + 4), len := at32 l (o + 8), nrec := at32 l (o + 12)
      crc := at32 l (o + 16) }

/-- A failure of a directory entry or of a section (R80). -/
def dirFail (code : Nat) (d : DirEntry) (off : Nat) : LoadFail :=
  { code := code, section_ := d.index, offset := off }

/-- Two sections overlap. -/
def DirEntry.overlaps (a b : DirEntry) : Bool := a.off < b.off + b.len && b.off < a.off + a.len

/-- What step 1 finds in one entry (R64). -/
def entryFails (l : List Byte) (ds : List DirEntry) (d : DirEntry) : List (Bool × LoadFail) :=
  let o := entryAt l d.index
  let before := ds.filter fun x => x.index < d.index
  [(d.type = 0 || 13 < d.type || before.any fun x => x.type = d.type, dirFail cBadFormat d o)
  , (d.off % 64 != 0 || d.off < hDirEnd l || hTotal l < d.off + d.len || before.any d.overlaps
    , dirFail cBadFormat d (o + 4))]

/-- A reserved byte of an entry that is not zero (R58). -/
def entryReserved (l : List Byte) (d : DirEntry) : Bool × LoadFail :=
  let o := entryAt l d.index
  let res := (nonZeroAt l (o + 2) 2).orElse fun _ => nonZeroAt l (o + 0x14) 12
  (res.isSome, dirFail cBadFormat d (res.getD 0))

/-- The first byte of padding outside the sections that is not zero, from the end of the directory on (R58). -/
def gapByte (l : List Byte) (ds : List DirEntry) : Option Nat :=
  let s := (ds.filter fun d => d.len != 0).mergeSort fun a b => a.off ≤ b.off
  let ends := hDirEnd l :: s.map fun d => d.off + d.len
  ((ends.zip (s.map (·.off) ++ [hTotal l])).findSome? fun x => nonZeroAt l x.1 (x.2 - x.1))

/-- Step 1 of R80, in its order: MAGIC, FORMAT, KIND and the length, the header, the directory, then reserved bytes and
padding. TOTAL_LEN ends the last section (R59). -/
def formatFail (l : List Byte) : Option LoadFail :=
  let bad := hdrFail cBadFormat
  let k := hKind l
  let ds := directory l
  if bytesAt l 0 4 != magicCfg then some (hdrFail cBadMagic 0)
  else
    match firstFail (headerFails l [1, 2] ++
        [(hDirCount l = 0 || 64 < hDirCount l || hTotal l < hDirEnd l, bad 0x20)
        , (k = 1 && !zeroAt l 0x30 48, bad 0x30), (4 ≤ hFlags l || (k = 2 && tb (hFlags l) 0), bad 0x6C)]) with
    | some f => some f
    | none =>
      firstFail (ds.flatMap (entryFails l ds)
        ++ [((ds.map fun d => d.off + d.len).foldl max 0 != hTotal l, bad 0x10)]
        ++ paddingFails l ++ ds.map (entryReserved l) ++ [((gapByte l ds).isSome, bad ((gapByte l ds).getD 0))])

/-- Step 3 of R80: root key hash, then the two signatures (R61, R62). A key hash that differs is reported at ROOT, the first
field of the block (log entry 97). -/
def signatureFail (l : List Byte) (root : List Byte) : Option LoadFail :=
  if at16 l 0x100 != 2 || keyHash l != root then some (hdrFail cRoot 0x100)
  else if !rsaOk l then some (hdrFail cRsa 0x2B8)
  else if !slhOk l then some (hdrFail cSlh 0x438)
  else none

/-- Section types mandatory in a FULL bit-stream (R65). -/
def mandatory : List Nat := [1, 2, 3, 4, 5, 6, 7, 8, 11, 13]

/-- Step 6 of R80: section CRCs, and mandatory sections. -/
def sectionFails (l : List Byte) : List (Bool × LoadFail) :=
  let ds := directory l
  let has := fun (t : Nat) => ds.any fun d => d.type = t
  (ds.map fun d => (crc32c (bytesAt l d.off d.len) != d.crc, dirFail cCrc d d.off)) ++
  [(hKind l = 1 && (!mandatory.all has || (has 9 && !has 10)), { code := cMissing })]

/-! The walk (R67). -/

/-- A failure of a record of the bit-stream. -/
def recFail (code : Nat) (d : DirEntry) (r : Rec) : LoadFail :=
  { code := code, section_ := d.index, rtype := r.type, offset := r.off }

/-- The records of a section from an offset on, and the failure of the walk that ends them early. `n` bounds their
number. -/
def walk (l : List Byte) (d : DirEntry) : Nat → Nat → List Rec × Option LoadFail
  | 0, _ => ([], none)
  | n + 1, o =>
    let end_ := d.off + d.len
    if end_ ≤ o then ([], none)
    else
      let len := at16 l (o + 2)
      let r : Rec := { type := at16 l o, off := o, bytes := bytesAt l o len }
      if end_ < o + 8 || len < 8 || len % 8 != 0 || end_ < o + len || !zeroAt l (o + 6) 2 then
        ([], some (recFail cBadFormat d r))
      else
        let rest := walk l d n (o + len)
        (r :: rest.1, rest.2)

/-- A section walked: its entry, its records, and what ends the walk; a count that differs from RECORDS fails at its
field. -/
structure Walked where
  dir : DirEntry
  recs : List Rec
  fail : Option LoadFail

/-- The section of one entry. -/
def walkSection (l : List Byte) (d : DirEntry) : Walked :=
  let w := walk l d (d.len / 8 + 1) d.off
  { dir := d, recs := w.1
    fail := w.2.orElse fun _ =>
      if w.1.length != d.nrec then some (dirFail cBadFormat d (entryAt l d.index + 12)) else none }

/-- The section as the configuration holds it. -/
def Walked.section_ (w : Walked) : Section := { type := w.dir.type, index := w.dir.index, recs := w.recs }

/-! Firmware images (R436, R438, R439). -/

/-- The step of R436 at which an image fails, 0 for none. -/
def firmwareStep (l : List Byte) (step : Nat) (root : List Byte) (counter : Nat) : Nat :=
  let form := bytesAt l 0 4 == magicFw && (firstFail (headerFails l [3] ++ paddingFails l)).isNone
    && zeroAt l 0x30 48 && zeroAt l 0x68 4 && (hFlags l = 0 || hFlags l = 2)
  if !form then 1
  else if at32 l 0x08 != 0x00475A09 || !tb (at32 l 0x0C) step then 2
  else if at16 l 0x100 != 1 || keyHash l != root then 3
  else if !rsaOk l then 4
  else if !slhOk l then 5
  else if hRollback l < counter then 6
  else 0

end Sys2Proof.Machine
end

