-- ==== Sys2Proof/Machine/RecTable.lean ====
section
/-! DEFINITION. The layouts of the records and the checks of one record (R67, R68, R509, and the field ranges of
the block chapters). -/

namespace Sys2Proof.Machine

/-- One field of a record: offset, width in bytes, signed or not, range, and whether 0 stands for a default. -/
structure Fd where
  o : Nat
  w : Nat
  sgn : Bool := false
  lo : Int
  hi : Int
  zero : Bool := false

/-- An unsigned field with a range, one whose 0 is a default, one without a stated range, and a signed one. -/
def fu (o w : Nat) (lo hi : Int) : Fd := { o := o, w := w, lo := lo, hi := hi }
def fz (o w : Nat) (lo hi : Int) : Fd := { o := o, w := w, lo := lo, hi := hi, zero := true }
def fa (o w : Nat) : Fd := { o := o, w := w, lo := 0, hi := (2 ^ (8 * w) : Nat) - 1 }
def fs (o w : Nat) (lo hi : Int) : Fd := { o := o, w := w, sgn := true, lo := lo, hi := hi }

/-- LENGTH of a fixed layout and its fields (R68, R118, R136, R142, R157, R170, R171, R224, R236, R287, R300, R301,
R354, R475, R477, R481); length 0 for a layout that runs to a count. The ranges of OSC_PARAMS but for
INTEG_SECTION bind where AMP is not 0 (DEDUCED, log entry 36) and stand with the rules of the slots. -/
def layout (ty : Nat) : Option (Nat × List Fd) :=
  match ty with
  | 0x0101 => some (16, [fa 8 2, fa 12 4])
  | 0x0201 => some (16, [fa 8 2, fa 10 2, fa 12 2, fa 14 2])
  | 0x0301 => some (24, [fu 8 2 0 163, fu 10 1 0 63, fu 11 1 0 2, fa 12 4, fu 16 1 0 62, fu 17 1 0 1, fa 18 1])
  | 0x0302 => some (16, [fu 8 2 0 163, fu 10 1 0 3, fu 11 1 0 10])
  | 0x0303 => some (16, [fu 8 2 0 255, fa 10 2, fu 12 1 0 31])
  | 0x0304 => some (16, [fu 8 2 0 15, fa 10 2, fa 12 4])
  | 0x0401 => some (24, [fu 8 1 0 63, fu 9 1 1 16, fu 10 2 1 4096, fa 12 1, fu 13 1 1 4, fa 14 1, fu 15 1 0 3, fa 16 8])
  | 0x0402 => some (24, [fu 8 1 0 63, fu 9 1 0 3, fa 12 4, fu 16 1 0 62])
  | 0x0403 => some (24, [fu 8 1 0 63, fu 9 1 0 2, fu 10 1 0 1, fa 11 1, fa 12 4, fa 16 8])
  | 0x0501 => some (40, [fu 8 1 0 63, fu 9 1 0 15, fu 10 1 0 1, fa 12 20, fu 32 1 0 31, fu 33 1 0 31, fu 34 1 0 31
      , fu 35 1 0 31, fu 36 1 0 31])
  | 0x0601 => some (48, [fu 8 1 0 3, fu 9 1 0 3, fu 10 2 50 500, fa 12 8, fu 20 2 0 1000, fu 22 1 0 62, fu 24 1 64 159
      , fu 25 1 64 159, fz 26 1 50 98, fa 27 1, fu 28 2 100 65535, fa 30 2, fa 32 2, fa 34 2, fa 36 2, fz 38 1 5 100
      , fz 39 1 10 255, fa 40 4, fa 44 4])
  | 0x0602 => some (16, [fu 8 1 0 63, fu 10 2 0 4095, fs 12 4 1 0x7FFFFFFF])
  | 0x0603 => some (16, [fu 8 1 0 15, fu 9 1 0 1, fa 12 4])
  | 0x0701 => some (32, [fu 8 1 0 3, fu 9 1 1 16, fu 10 1 0 3, fu 12 2 1 2000, fu 14 1 1 60, fz 16 1 1 100, fa 17 1
      , fz 18 2 640 40000, fa 20 2, fa 22 2, fa 24 2])
  | 0x0702 => some (24, [fu 8 1 0 3, fu 9 1 1 16, fu 10 2 1 288, fu 12 4 0 0x3FFFF, fu 16 1 0 15, fu 17 1 0 1, fa 18 2])
  | 0x0801 => some (72, [fu 8 1 0 3, fu 9 1 0 1, fu 10 2 1 288, fa 12 4, fa 16 4, fa 20 4, fa 24 4, fu 28 4 1 100000
      , fa 32 4, fu 36 4 1 1000000, fa 40 4, fa 44 4, fa 48 4, fa 52 4, fa 56 16])
  | 0x0802 => some (144, [fu 8 1 0 3, fa 16 128])
  | 0x0803 => some (32, [fu 8 1 0 1, fz 9 1 10 100, fz 10 2 30 3600, fa 12 2, fz 14 2 5 1440, fz 16 2 50 5000
      , fz 18 2 200 5000, fz 20 2 100 5000, fz 22 2 1 600, fz 24 2 2 100])
  | 0x0804 => some (40, [fu 8 2 0 600, fz 10 2 10 600, fa 12 2, fz 14 2 1 65535, fa 16 1, fa 17 1, fa 18 2, fz 20 2 10 3600
      , fz 22 2 1 600, fa 24 2, fz 26 1 1 60])
  | 0x0901 => some (48, [fu 8 2 0 15, fu 10 1 1 31, fu 11 1 1 2, fu 12 1 1 3, fu 13 1 0 1, fu 14 1 1 8, fu 15 1 0 1
      , fu 16 4 64 268435456, fa 20 4, fu 24 4 0 268435456, fu 28 4 64 268435456, fu 32 4 1 2147483648, fu 36 2 1 1024
      , fa 38 2, fs 40 1 (-32) 32, fu 41 1 1 32])
  | 0x0902 => some (0, [fu 8 2 0 15, fa 10 2, fa 12 2])
  | 0x0903 => some (0, [fu 8 2 0 15, fu 10 1 1 6, fa 12 4])
  | 0x0904 => some (48, [fu 8 2 0 15, fa 12 20, fu 32 4 1 2147483648, fu 36 2 1 65535, fa 38 2])
  | 0x0A01 => some (24, [fu 8 2 0 15, fu 10 2 0 499, fa 12 4, fa 16 4, fa 20 4])
  | 0x0B01 => some (32, [fu 8 1 0 63, fu 9 1 0 2, fa 10 18, fu 28 1 0 63, fu 29 1 0 3, fu 30 1 0 63])
  | 0x0B02 => some (16, [fa 8 5, fu 13 1 0 31])
  | 0x0B03 => some (32, [fu 8 2 1 65535, fu 10 2 1 65535, fu 12 2 1 65535, fu 14 2 1 65535, fz 16 2 1 65535, fz 18 2 1 65535
      , fz 20 2 50 1000, fz 22 2 2 1000, fz 24 1 1 50, fz 25 1 5 100, fu 26 1 0 1, fz 28 2 1 60, fz 30 2 10 10000])
  | 0x0C01 => some (24, [fa 8 2, fa 10 2, fa 12 4, fu 16 1 0 1])
  | 0x0D01 => some (16, [fu 8 2 1 10, fs 12 4 (-2147483648) 2147483647])
  | _ => none

/-- A field's value. -/
def Fd.val (f : Fd) (r : Rec) : Int :=
  let v := leVal (bytesAt r.bytes f.o f.w)
  if f.sgn then ofCode (8 * f.w) v else v

/-- A field lies within its range, or is a 0 that takes the default. -/
def Fd.ok (f : Fd) (r : Rec) : Bool :=
  let v := f.val r
  (f.zero && v == 0) || (decide (f.lo ≤ v) && decide (v ≤ f.hi))

/-- The LENGTH a record must carry (R67). -/
def lengthOk (r : Rec) (n : Nat) : Bool :=
  if n != 0 then r.bytes.length = n
  else if r.type = 0x0902 then r.bytes.length = 16 + 32 * r.u16 12
  else 16 ≤ r.bytes.length

/-- Whether a byte of a record belongs to a field of its layout; the rest of it is reserved or padding. -/
def covered (fs : List Fd) (n i : Nat) : Bool :=
  i < 8 || fs.any (fun f => f.o ≤ i && i < f.o + f.w) || (n = 0 && 16 ≤ i)

/-- Reserved bytes within the operations of a MODEL_OP record (R226), and of a PRBS signal (R157). -/
def innerReserved (r : Rec) : List Nat :=
  if r.type = 0x0902 then (List.range (r.u16 12)).flatMap fun k => [16 + 32 * k + 10, 16 + 32 * k + 11]
  else if r.type = 0x0403 && r.u8 9 = 1 then [18, 19]
  else []

/-- A reserved byte that is not zero (R58). -/
def reservedBad (r : Rec) (n : Nat) (fs : List Fd) : Bool :=
  (List.range r.bytes.length).any (fun i => !covered fs n i && r.u8 i != 0)
  || (innerReserved r).any fun i => r.u8 i != 0

/-- The key of a record type that may occur once for an item (R509): offsets and widths. -/
def keyOf (ty : Nat) : Option (List (Nat × Nat)) :=
  match ty with
  | 0x0101 | 0x0302 | 0x0303 | 0x0901 | 0x0904 | 0x0C01 | 0x0D01 => some [(8, 2)]
  | 0x0201 | 0x0304 => some [(8, 2), (10, 2)]
  | 0x0401 | 0x0403 | 0x0601 | 0x0602 | 0x0603 | 0x0701 | 0x0801 | 0x0802 | 0x0B01 => some [(8, 1)]
  | 0x0402 | 0x0702 => some [(8, 1), (9, 1)]
  | 0x0501 => some [(8, 1), (9, 1), (10, 1)]
  | 0x0803 | 0x0804 | 0x0B02 | 0x0B03 => some []
  | _ => none

/-- The key's value. -/
def Rec.key (r : Rec) (k : List (Nat × Nat)) : List Nat := k.map fun x => leVal (bytesAt r.bytes x.1 x.2)

/-- A record repeats the key of one before it. -/
def repeats (acc : List Rec) (r : Rec) : Bool :=
  match keyOf r.type with
  | some k => acc.any fun x => x.type = r.type && x.key k == r.key k
  | none => false

/-! Ranges that depend on another field of the same record. -/

/-- The values a parameter takes (R69, R420, R457). -/
def paramOk (id v : Nat) : Bool :=
  match id with
  | 1 => v ≤ 1
  | 2 | 3 => v ≤ 2
  | 4 => 1024 ≤ v && v ≤ 65535
  | 5 => v ≤ 3
  | 6 => v ≤ 65535
  | 0x10 => v = 0 || (64 ≤ v && v ≤ 159)
  | 0x11 | 0x12 | 0x14 | 0x15 => true
  | 0x13 => 64 ≤ v && v ≤ 159
  | 0x20 => 1 ≤ v && v ≤ 178
  | _ => false

/-- Last INDEX of a key channel's source, by KIND (R477). -/
def keySourceOk (src : Nat) : Bool :=
  let i := src % 4096
  match src / 4096 with
  | 0 => i ≤ 163
  | 1 => i ≤ 63
  | 2 => i ≤ 3
  | 3 => i = 0
  | 4 => i ≤ 15
  | 5 => i ≤ 63
  | _ => false

/-- INDEX of a forecast input's source, by KIND (R227); the bound of SCHED_STEP by horizon stands with the rules of
the models. -/
def forecastSourceOk (src : Nat) : Bool :=
  let i := src % 65536
  match src / 2 ^ 24 with
  | 1 => i ≤ 163
  | 2 => i ≤ 63
  | 4 => 1 ≤ i && i ≤ 1000
  | 6 => i ≤ 2
  | 3 | 5 | 7 | 8 | 9 => i = 0
  | _ => false

/-- OWNER_KIND and last RES_INDEX of a resource class (R71). -/
def resClass (c : Nat) : Option (Nat × Nat) :=
  match c with
  | 1 | 2 => some (6, 0)
  | 3 => some (1, 15)
  | 4 => some (2, 63)
  | 5 => some (7, 15)
  | 6 => some (8, 63)
  | 7 => some (3, 3)
  | 8 => some (1, 63)
  | 9 => some (9, 255)
  | 10 => some (10, 27)
  | _ => none

/-- OWNER_INDEX of an owner kind (R71). -/
def ownerOk (kind i : Nat) : Bool :=
  match kind with
  | 1 => i ≤ 63
  | 2 | 3 => i ≤ 3
  | 6 => 1 ≤ i && i ≤ 2
  | 10 => i ≤ 255
  | _ => i = 0

/-- A RESOURCE_ASSIGN record's fields (R71). -/
def resourceOk (r : Rec) : Bool :=
  match resClass (r.u16 8) with
  | some (k, top) => r.u16 10 ≤ top && r.u16 12 = k && ownerOk k (r.u16 14)
  | none => false

/-- REF_GRP by kind of channel, and MODE of a shunt (R118). -/
def routeOk (r : Rec) : Bool :=
  let g := r.u8 18
  (if isAuxCh (r.u16 8) then g ≤ 3 || g = 15 else g = 15) && (r.u16 8 < 160 || r.u8 17 = 0)

/-- OSC_PARAMS (R154), and INTEG_SECTION for FREEZE_INTEG. AMP = 0 disables the detector, and the ranges hold none the
less. -/
def oscOk (r : Rec) : Bool :=
  let i := r.u8 0x13
  (i ≤ 15 || i = 255)
  && r.u8 0x12 ≤ 15 && 2 ≤ r.u8 0x14 && r.u8 0x14 ≤ 32 && 4 ≤ r.u8 0x15 && r.u8 0x15 ≤ 12
  && 1 ≤ r.u8 0x16 && r.u8 0x16 ≤ r.u8 0x17
  && (r.oscAction != 2 || i < r.sections)

/-- A TEST_SIGNAL's buffer and parameters (R71, R157). -/
def testOk (r : Rec) : Bool :=
  let b := r.u8 11
  (b ≤ 15 || b = 255) && (b = 255 || r.u32 0x14 ≤ 196608)
  && (r.u8 9 != 1 || ([7, 9, 11, 15, 23].contains (r.u8 0x10) && 1 ≤ r.u8 0x11))

/-- A GROUP record by itself (R170, R171): STRING, the phase count, PH_PEAK_MA, DE_EXIT_MA, which lies above DE_ENTER_MA, and the
scales. -/
def groupOk (r : Rec) : Bool :=
  let n := (List.range 64).countP fun k => tb r.phaseMask k
  r.u8 9 = r.u8 8 && 1 ≤ n && n ≤ 32 && r.u16 28 ≤ r.u16 30 && r.u16 32 < r.u16 34
  && r.u32 40 != 0 && r.u32 44 != 0

/-- A MODEL_DESC record by itself (R224). -/
def descOk (r : Rec) : Bool :=
  let st := r.stagingBytes
  r.weightBytes % 64 = 0 && (if r.streamed then 64 ≤ st && st ≤ 2 ^ 28 else st = 0)
  && r.outLen = (if r.u8 11 = 1 then 64 else 1000)
  && (!r.streamed || ((List.range 5).countP fun k => tb (r.u8 10) k) = 1)

/-- FP32 patterns 0.9 and 1.0. -/
def f09 : Nat := 0x3F666666
def f1 : Nat := 0x3F800000

/-- A HEAD_ADAPT record by itself (R236). -/
def headOk (r : Rec) : Bool :=
  fLe f09 (r.u32 0x0C) && fLe (r.u32 0x0C) f1 && fLt 0 (r.u32 0x10) && fLe 0 (r.u32 0x14) && fLe 0 (r.u32 0x18)
  && fLe (r.u32 0x18) f1 && fLt 0 (r.u32 0x1C)

/-- An OCV_TABLE by itself (R330): SOC strictly upward from 0 to 10,000, voltages strictly increasing. -/
def ocvOk (r : Rec) : Bool :=
  let p := fun k => (r.u16 (16 + 4 * k), r.u16 (18 + 4 * k))
  (p 0).1 = 0 && (p 31).1 = 10000 && (List.range 31).all fun k => (p k).1 < (p (k + 1)).1 && (p k).2 < (p (k + 1)).2

/-- A STRING_MODEL by itself (R330). -/
def stringOk (r : Rec) : Bool :=
  let lo := defOf (r.u16 0x38) 500
  let tp := defOf (r.u16 0x3A) 9000
  let hi := defOf (r.u16 0x3C) 9500
  r.u32 0x28 ≤ r.u32 0x14 && r.u32 0x14 ≤ r.u32 0x2C && lo < tp && tp < hi && hi ≤ 10000

/-- RELAX_S of an ECLIPSE record (R354). -/
def eclipseOk (r : Rec) : Bool :=
  let rest := defOf (r.u16 10) 120
  let relax := defOf (r.u16 12) 90
  10 ≤ relax && relax + 10 ≤ rest

/-- A TRAY_PORT record by itself (R287). -/
def trayOk (r : Rec) : Bool :=
  let safe := r.u16 10
  let p := r.u8 28
  safe ≤ r.u16 12 && r.u16 14 ≤ 10 * safe && r.u16 14 ≤ 10 * r.u16 16 && r.u16 16 ≤ r.u16 12
  && [0, 1, 2].all fun x => [p % 4, p / 4 % 4, p / 16 % 4].contains x

/-- The ranges of one record's fields (R67). -/
def fieldsOk (r : Rec) (fs : List Fd) : Bool :=
  fs.all (fun f => f.ok r) &&
  match r.type with
  | 0x0101 => paramOk (r.u16 8) (r.u32 12)
  | 0x0201 => resourceOk r
  | 0x0301 => routeOk r
  | 0x0303 => keySourceOk (r.u16 10)
  | 0x0304 => forecastSourceOk (r.u32 12)
  | 0x0401 => oscOk r && (r.parent ≤ 63 || r.parent = 255)
  | 0x0403 => testOk r
  | 0x0601 => groupOk r
  | 0x0603 => r.u8 9 = 0 || (1 ≤ r.u32 12 && r.u32 12 ≤ 8000)
  | 0x0701 => r.u8 17 = 0 || r.u8 17 < r.u8 9
  | 0x0702 => r.u8 17 = 0 || (10 ≤ r.u16 18 && r.u16 18 ≤ 2000)
  | 0x0801 => stringOk r
  | 0x0802 => ocvOk r
  | 0x0803 => eclipseOk r
  | 0x0901 => descOk r
  | 0x0904 => headOk r
  | 0x0A01 => r.u32 12 % 64 = 0 && r.u32 16 % 64 = 0 && r.u32 20 % 64 = 0
  | 0x0B01 => trayOk r
  | 0x0B02 => [0, 1, 2, 3, 4].all fun x => (r.bytes.drop 8).take 5 |>.contains (BitVec.ofNat 8 x)
  | 0x0C01 => !unlimitedClass (r.u16 8) && (r.u16 10 != 0 || r.u32 12 = 0)
  | _ => true
where
  /-- Classes of codes that are never limited (R475). -/
  unlimitedClass (code : Nat) : Bool := [0x0, 0x1, 0xB].contains (code / 4096)

/-- One record in its section, after the records before it (R67, R509): unknown type, LENGTH, reserved bytes, the
section it sits in, field ranges and a repeated key, in this order (DEDUCED, log entry 36). -/
def recordCheck (d : DirEntry) (acc : List Rec) (r : Rec) : Option LoadFail :=
  match layout r.type with
  | none => some (recFail cUnknown d r)
  | some (n, fs) =>
    firstFail
      [(!lengthOk r n, recFail cRange d r), (reservedBad r n fs, recFail cBadFormat d r)
      , (r.type / 256 != d.type, recFail cUnknown d r), (!fieldsOk r fs || repeats acc r, recFail cRange d r)]

end Sys2Proof.Machine
end

