-- ==== Sys2Proof/Machine/CfgRules.lean ====
section
/-! DEFINITION. The rules over the records of a whole configuration: structure (step 7 of R80: R69, R118, R132,
R136, R142, R171, R224 to R229, R287, R301, R330, R354), resources (step 8, R70), limits (step 9, R75 to R77) and
capacity (step 10, R228, R229). -/

namespace Sys2Proof.Machine

/-- A configuration being judged: the sections that would be in force, and those the bit-stream carries. -/
structure Cand where
  /-- Sections in force after the swap (R66) -/
  all : List Section
  /-- Sections carried -/
  own : List Section

/-- Its records of one type. -/
def Cand.recs (c : Cand) (ty : Nat) : List Rec := recsOf c.all ty

/-- The carried section of a record, none for a kept record. -/
def Cand.carried (c : Cand) (r : Rec) : Option Section := c.own.find? fun x => x.type = r.type / 256

/-- What CFG_RESULT names of a carried record. -/
def Cand.named (c : Cand) (code : Nat) (r : Rec) : LoadFail :=
  { code := code, section_ := ((c.carried r).map (·.index)).getD 255, rtype := r.type, offset := r.off }

/-- The first carried record in bit-stream order. -/
def Cand.firstCarried (c : Cand) (rs : List Rec) : Option Rec :=
  ((rs.filter fun r => (c.carried r).isSome).mergeSort fun a b => a.off ≤ b.off).head?

/-- A failing check over records (R80): the first carried record that fails, else the first carried one that the
check of the first kept failing record involves (`with_`), else that kept record. -/
def Cand.failWith (c : Cand) (code : Nat) (with_ : Rec → List Rec) (rs : List Rec) : Option LoadFail :=
  match c.firstCarried rs, rs.head? with
  | some r, _ => some (c.named code r)
  | none, some r => match c.firstCarried (with_ r) with
    | some x => some (c.named code x)
    | none => some { code := code, rtype := r.type }
  | none, none => none

/-- A failing check whose records are all given. -/
def Cand.fail (c : Cand) (code : Nat) (rs : List Rec) : Option LoadFail := c.failWith code (fun _ => []) rs

/-! Resources. -/

/-- A resource is assigned to an owner kind, and to an owner where its index is compared (R70, R71). -/
def Cand.owned (c : Cand) (cls idx kind : Nat) (owner : Option Nat) : Bool :=
  (c.recs 0x0201).any fun r => r.u16 8 = cls && r.u16 10 = idx && r.u16 12 = kind
    && (owner.isNone || owner = some (r.u16 14))

/-! Slots. -/

/-- The SLOT record of a slot. -/
def Cand.slot (c : Cand) (i : Nat) : Option Rec := (c.recs 0x0401).find? fun r => r.u8 8 = i
/-- The GROUP record of a group. -/
def Cand.grp (c : Cand) (g : Nat) : Option Rec := (c.recs 0x0601).find? fun r => r.u8 8 = g
/-- The routes of an input of a slot. -/
def Cand.routes (c : Cand) (i input : Nat) : List Rec := (c.recs 0x0301).filter fun r => r.u8 10 = i && r.u8 11 = input
/-- KIND of a slot's parent, 0 without one. -/
def Cand.parentKind (c : Cand) (r : Rec) : Nat := ((c.slot r.parent).map Rec.kind).getD 0
/-- A FEEDFORWARD record of a term. -/
def Cand.hasTerm (c : Cand) (i term : Nat) : Bool := (c.recs 0x0402).any fun r => r.u8 8 = i && r.u8 9 = term
/-- A SECTION_COEFF record. -/
def Cand.hasCoef (c : Cand) (i j bank : Nat) : Bool :=
  (c.recs 0x0501).any fun r => r.u8 8 = i && r.u8 9 = j && r.u8 10 = bank

/-- The chain of a slot through its ancestors holds at most `n` slots, every one configured (R132). -/
def Cand.chainOk (c : Cand) (p : Nat) : Nat → Bool
  | 0 => p = 255
  | n + 1 => p = 255 || match c.slot p with
    | some r => c.chainOk r.parent n
    | none => false

/-- An earlier slot of the same KIND, and of the same GROUP for CURRENT, within the record order. -/
def Cand.sameBefore (c : Cand) (r : Rec) : Bool :=
  match (c.recs 0x0401).find? fun x => x.kind = r.kind && (r.kind = 3 || x.group = r.group) with
  | some x => x.u8 8 != r.u8 8
  | none => false

/-- A slot breaks R132 or R136. -/
def Cand.slotBad (c : Cand) (r : Rec) : Bool :=
  let i := r.u8 8
  let pk := c.parentKind r
  let nf := (c.routes i 0).length
  !(c.chainOk r.parent 3)
  || (match r.kind with
      | 1 => pk != 2 || (c.grp r.group).isNone || c.sameBefore r
      | 2 => !(r.parent = 255 || pk = 3) || (c.grp r.group).isNone
      | 3 => r.parent != 255 || c.sameBefore r
      | _ => !(r.parent = 255 || pk = 4))
  || (match c.slot r.parent with
      | some p => p.div % r.div != 0
      | none => false)
  || (if r.kind = 3 then nf != 0 else nf = 0 || 32 < nf)
  || (List.range r.sections).any fun j => !c.hasCoef i j 0 || (r.oscAction = 1 && !c.hasCoef i j 1)

/-- A route breaks R118, R136 or R142: it disagrees with an earlier one of its channel, is a second one of a
feed-forward input, or has no FEEDFORWARD record. -/
def Cand.routeBad (c : Cand) (r : Rec) : Bool :=
  (match (c.recs 0x0301).find? fun x => x.u16 8 = r.u16 8 with
    | some x => x.u8 17 != r.u8 17 || x.u8 18 != r.u8 18
    | none => false)
  || (r.u8 11 != 0 && ((match (c.routes (r.u8 10) (r.u8 11)).head? with
      | some x => x.off != r.off
      | none => false) || !c.hasTerm (r.u8 10) (r.u8 11 - 1)))

/-- A FEEDFORWARD record breaks R142. -/
def Cand.termBad (c : Cand) (r : Rec) : Bool :=
  match r.u8 9 with
  | 0 | 1 => (c.routes (r.u8 8) (r.u8 9 + 1)).isEmpty
  | 3 => match c.slot (r.u8 8) with
    | some x => x.parent = 255
    | none => true
  | _ => false

/-- A SECTION_COEFF record names no section of a configured slot (R132). -/
def Cand.coefBad (c : Cand) (r : Rec) : Bool :=
  match c.slot (r.u8 8) with
  | some x => x.sections ≤ r.u8 9
  | none => true

/-! Groups, strings and rings. -/

/-- The STRING_MODEL and RING records of a string. -/
def Cand.ringOfStr (c : Cand) (i : Nat) : Option Rec := (c.recs 0x0701).find? fun r => r.u8 10 = i
/-- The NODE records of a ring's nodes 1 to NODES. -/
def Cand.nodes (c : Cand) (r : Rec) : List Rec :=
  (List.range (r.u8 9)).filterMap fun k => (c.recs 0x0702).find? fun n => n.u8 8 = r.u8 8 && n.u8 9 = k + 1
/-- The cells a ring's nodes measure. -/
def Cand.ringCells (c : Cand) (r : Rec) : List Nat :=
  (c.nodes r).flatMap fun n => (List.range ((List.range 18).countP fun k => tb (n.u32 12) k)).map (n.u16 10 + ·)

/-- A GROUP record breaks R132, R171 or R330. -/
def Cand.groupBad (c : Cand) (r : Rec) : Bool :=
  let g := r.u8 8
  let ps := (List.range 64).filter fun p => tb r.phaseMask p
  match (c.recs 0x0401).find? fun x => x.kind = 1 && x.group = g with
  | none => true
  | some cur =>
    ps.any (fun p =>
      !c.owned 4 p 2 (some g)
      || ((c.routes (cur.u8 8) 0).countP fun x => x.u16 8 = p) != 1
      || match (c.recs 0x0602).find? fun x => x.u8 8 = p with
        | some x => x.s32 12 < r.u16 30 + r.u16 36
        | none => true)
    || !((c.recs 0x0801).any fun x => x.u8 8 = g) || !((c.recs 0x0802).any fun x => x.u8 8 = g)

/-- The value a limit would have (R75). -/
def Cand.limit (c : Cand) (id : Nat) : Int :=
  match (c.recs 0x0D01).find? fun r => r.u16 8 = id with
  | some r => r.s32 12
  | none => State.limitDefault.toList.getD (id - 1) 0

/-- The limits in force that a RING record's Moonwatch limits exceed (R300, R301). -/
def Cand.ringLimits (c : Cand) (r : Rec) : List Nat :=
  (if r.u16 20 != 0 && decide (c.limit 6 < r.u16 20) then [6] else [])
  ++ (if r.u16 22 != 0 && decide ((r.u16 22 : Int) < c.limit 7) then [7] else [])
  ++ (if r.u16 24 != 0 && decide (c.limit 8 < r.s16 24) then [8] else [])

/-- A RING record breaks R301: its nodes, cells, contactor, Moonwatch limits or string. -/
def Cand.ringBad (c : Cand) (r : Rec) : Bool :=
  let ns := c.nodes r
  let cells := (c.ringCells r).mergeSort (· ≤ ·)
  ns.length != r.u8 9 || cells != (List.range cells.length).map (· + 1)
  || 1 < (ns.countP fun n => n.u8 17 = 1)
  || !(c.ringLimits r).isEmpty
  || (match c.ringOfStr (r.u8 10) with
      | some x => x.u8 8 != r.u8 8
      | none => false)
  || (c.grp (r.u8 10)).isNone

/-- CELLS differs from the cells the string's ring covers (R330). -/
def Cand.stringBad (c : Cand) (r : Rec) : Bool :=
  r.u16 10 != match c.ringOfStr (r.u8 8) with
    | some x => (c.ringCells x).length
    | none => 0

/-! Forecast models. -/

/-- The records of the models. -/
def Cand.models (c : Cand) : List Rec := ([0x0304, 0x0901, 0x0902, 0x0903, 0x0904, 0x0A01].map c.recs).flatten
/-- The MODEL_DESC record of a model. -/
def Cand.desc (c : Cand) (m : Nat) : Option Rec := (c.recs 0x0901).find? fun r => r.model = m

/-- Bytes of a region of a model (R226). -/
def regionSize (d : Rec) (region : Nat) : Nat :=
  match region with
  | 0 => if d.streamed then d.stagingBytes else d.weightBytes
  | 1 => d.stateBytes
  | 2 => d.workBytes
  | 3 => 4 * d.nInputs
  | _ => 0

/-- An operand lies within its region. -/
def operandOk (d : Rec) (a n : Nat) : Bool := n = 0 || a % 2 ^ 28 + n ≤ regionSize d (a / 2 ^ 28)

/-- One operation is well formed (R220, R222, R226). -/
def opOk (d : Rec) (o : FOp) : Bool :=
  let mn := 4 * o.m * o.n
  let two := operandOk d o.a mn && operandOk d o.c mn
  o.flags < 4 && match o.opcode with
  | 1 =>
    1 ≤ o.format && o.format ≤ 5 && (4 ≤ o.format || o.k % 32 = 0)
    && operandOk d o.a (weightSize o.format * o.m * o.k) && operandOk d o.b (4 * o.k * o.n) && operandOk d o.c mn
    && (4 ≤ o.format || operandOk d o.as_ (o.m * (o.k / 32))) && (o.format != 5 || o.m * o.n * o.k ≤ 262144)
  | 2 | 3 => two && operandOk d o.b mn
  | 4 | 6 => two
  | 5 => two && 1 ≤ o.func && o.func ≤ 8
  | 7 => operandOk d o.c mn && o.c / 2 ^ 28 = 1 && operandOk d o.a (4 * o.n)
  | 8 => operandOk d o.a (4 * d.outLen)
  | _ => false

/-- The HEAD operation of a model (R226): FP32 MATMUL of one column, feeding OUTPUT. -/
def headOpOk (d : Rec) (ops : List FOp) : Bool :=
  let hs := ops.filter fun o => tb o.flags 1
  hs.length ≤ 1 && hs.all fun o =>
    o.opcode = 1 && o.format = 5 && o.n = 1 && o.m = d.outLen && o.k ≤ 256
    && ops.getLast?.all fun x => x.a = o.c

/-- A MODEL_DESC record breaks R224, R226 or R227: a role and horizon claimed before, ADAPT without HEAD_ADAPT,
operations that do not cover their indices, OUTPUT elsewhere than at the end, or an input without its record. -/
def Cand.descBad (c : Cand) (r : Rec) : Bool :=
  let m := r.model
  let ix := (modelOps c.models m).map Prod.fst
  let ops := (modelOps c.models m).map Prod.snd
  ((c.recs 0x0901).any fun x => x.off < r.off && x.u8 11 = r.u8 11 && x.u8 10 &&& r.u8 10 != 0)
  || (r.adapts && (ofModel c.models 0x0904 m).isEmpty)
  || ops.isEmpty || 4096 < ops.length || ix != List.range ops.length
  || (ops.zipIdx.any fun x => (x.1.opcode = 8) != (x.2 + 1 = ops.length)) || !headOpOk r ops
  || (List.range r.nInputs).any fun k => ((ofModel c.models 0x0304 m).countP fun x => x.u16 10 = k) != 1

/-- A MODEL_OP record holds an operation that is not well formed. -/
def Cand.opBad (c : Cand) (r : Rec) : Bool :=
  match c.desc r.model with
  | some d => (List.range (r.u16 12)).any fun k => !opOk d (r.fop (16 + 32 * k))
  | none => false

/-- A WEIGHT_BLOCK lies outside the image, or overlaps one before it (R224, R225). -/
def Cand.blockBad (c : Cand) (r : Rec) : Bool :=
  let span := fun (x : Rec) => (x.u32 12, x.u32 12 + (x.bytes.length - 16))
  match c.desc r.model with
  | some d =>
    d.weightBytes < (span r).2 || (c.recs 0x0903).any fun x =>
      x.off < r.off && x.model = r.model && (span x).1 < (span r).2 && (span r).1 < (span x).2
  | none => false

/-- A forecast input names a position the model does not have, or a step beyond its horizon (R227). -/
def Cand.inputBad (c : Cand) (r : Rec) : Bool :=
  match c.desc r.model with
  | some d => d.nInputs ≤ r.u16 10 || (r.u32 12 / 2 ^ 24 = 4 && d.u8 11 = 1 && 64 < r.u32 12 % 65536)
  | none => false

/-- A copy leaves the image, the staging, or the tick phases of its horizon (R229). -/
def Cand.copyBad (c : Cand) (r : Rec) : Bool :=
  match c.desc r.model with
  | some d =>
    (d.u8 11 = 1 && 63 < r.u16 10) || d.weightBytes < r.u32 12 + r.u32 20 || d.stagingBytes < r.u32 16 + r.u32 20
  | none => false

/-! Step 7 over the whole. -/

/-- A record breaks a structural rule. A slot owns at most one capture buffer (R160; log entry 95). -/
def Cand.recBad (c : Cand) (r : Rec) : Bool :=
  match r.type with
  | 0x0301 => c.routeBad r
  | 0x0304 => c.inputBad r
  | 0x0401 => c.slotBad r
  | 0x0402 => c.termBad r
  | 0x0501 => c.coefBad r
  | 0x0601 => c.groupBad r
  | 0x0201 => r.u16 8 = 3 && (c.recs 0x0201).any fun x => x.off < r.off && x.u16 8 = 3 && x.u16 14 = r.u16 14
  | 0x0603 => r.u8 9 = 1 && !(((c.recs 0x0401).any fun x => x.kind = 3) && c.owned 5 (r.u8 8) 7 none)
  | 0x0701 => c.ringBad r
  | 0x0801 => c.stringBad r
  | 0x0901 => c.descBad r
  | 0x0902 => c.opBad r
  | 0x0903 => c.blockBad r
  | 0x0A01 => c.copyBad r
  | 0x0B01 => r.u8 29 = paramOf c.all 5 0 || (r.u8 9 != 0 && !c.owned 6 (r.u8 8) 8 none)
  | _ => false

/-- The RESOURCE_ASSIGN record of a resource. -/
def Cand.owner (c : Cand) (cls idx : Nat) : List Rec :=
  (c.recs 0x0201).filter fun r => r.u16 8 = cls && r.u16 10 = idx

/-- The records of other sections that the structural check of a record involves. -/
def Cand.involved (c : Cand) (r : Rec) : List Rec :=
  match r.type with
  | 0x0304 | 0x0A01 => (c.desc r.model).toList
  | 0x0401 => if r.kind = 3 || 32 < (c.routes (r.u8 8) 0).length then c.routes (r.u8 8) 0 else []
  | 0x0501 => (c.slot (r.u8 8)).toList
  | 0x0601 => ((List.range 64).filter fun p => tb r.phaseMask p).flatMap fun p =>
      (if c.owned 4 p 2 (some (r.u8 8)) then [] else c.owner 4 p)
      ++ match (c.recs 0x0401).find? fun x => x.kind = 1 && x.group = r.u8 8 with
        | some cur => let rs := (c.routes (cur.u8 8) 0).filter fun x => x.u16 8 = p
          if 1 < rs.length then rs else []
        | none => []
  | 0x0603 => c.owner 5 (r.u8 8)
  | 0x0701 => (c.recs 0x0D01).filter fun x => (c.ringLimits r).contains (x.u16 8)
  | 0x0801 => match c.ringOfStr (r.u8 8) with
    | some x => x :: c.nodes x
    | none => []
  | 0x0B01 => if r.u8 29 = paramOf c.all 5 0 then (c.recs 0x0101).filter fun x => x.u16 8 = 5 else []
  | _ => []

/-- A required record or parameter is missing from a carried section (R69, R287, R354, R420): the type of the
record. -/
def Cand.missing (c : Cand) (x : Section) : Option Nat :=
  let has := fun (id : Nat) => x.recs.any fun r => r.u16 8 = id
  let lacks := fun (ty : Nat) => !x.recs.any fun r => r.type = ty
  match x.type with
  | 1 => if [5, 6, 0x13, 0x14].any (fun id => !has id) || (paramOf c.own 0x10 0 != 0 && (!has 0x11 || !has 0x12)) then
      some 0x0101 else none
  | 8 => if lacks 0x0803 then some 0x0803 else if lacks 0x0804 then some 0x0804 else none
  | 11 => if lacks 0x0B02 then some 0x0B02 else if lacks 0x0B03 then some 0x0B03 else none
  | _ => none

/-- What a carried section fails of step 7, first record first: the checks of each record by itself and those of the
rules over it, then what ends the walk, then a required record. `seen` are the records before it, newest first. -/
def Cand.sectionFail (c : Cand) (w : Walked) (seen : List Rec) : Option LoadFail :=
  let each := w.recs.zipIdx.findSome? fun x =>
    (recordCheck w.dir ((w.recs.take x.2).reverse ++ seen) x.1).orElse fun _ =>
      if c.recBad x.1 then some (recFail cRange w.dir x.1) else none
  (each.orElse fun _ => w.fail).orElse fun _ => (c.missing w.section_).map fun ty =>
    { code := cRange, section_ := w.dir.index, rtype := ty, offset := w.dir.off }

/-- Step 7 over the carried sections in their order. -/
def Cand.recordsFail (c : Cand) : List Walked → List Rec → Option LoadFail
  | [], _ => none
  | w :: ws, seen => (c.sectionFail w seen).orElse fun _ => c.recordsFail ws (w.recs.reverse ++ seen)

/-- Step 7 of R80: the carried records, and then the kept ones that no longer hold. -/
def Cand.structural (c : Cand) (ws : List Walked) : Option LoadFail :=
  (c.recordsFail ws []).orElse fun _ => c.failWith cRange c.involved ((c.all.flatMap (·.recs)).filter c.recBad)

/-! Step 8 (R70). -/

/-- A record uses a resource that is not assigned to it. -/
def Cand.useBad (c : Cand) (r : Rec) : Bool :=
  match r.type with
  | 0x0101 => (r.u16 8 = 2 || r.u16 8 = 3) && r.u32 12 != 0 && !c.owned (r.u16 8 - 1) 0 6 (some (r.u32 12))
  | 0x0301 => r.u8 11 = 0 && !c.owned 8 (r.u8 10) 1 (some (r.u8 10))
  | 0x0303 => !c.owned 9 (r.u16 8) 9 none
  | 0x0403 => r.u8 11 != 255 && !c.owned 3 (r.u8 11) 1 (some (r.u8 8))
  | 0x0701 => !c.owned 7 (r.u8 8) 3 (some (r.u8 10))
  | _ => false

/-- The RESOURCE_ASSIGN record that the use of a resource is matched with. -/
def Cand.useOwner (c : Cand) (r : Rec) : List Rec :=
  match r.type with
  | 0x0101 => c.owner (r.u16 8 - 1) 0
  | 0x0301 => c.owner 8 (r.u8 10)
  | 0x0303 => c.owner 9 (r.u16 8)
  | 0x0403 => c.owner 3 (r.u8 11)
  | 0x0701 => c.owner 7 (r.u8 8)
  | _ => []

/-- The check of step 8. -/
def Cand.resources (c : Cand) : Option LoadFail :=
  c.failWith cConflict c.useOwner ((c.all.flatMap (·.recs)).filter c.useBad)

/-! Step 9 (R75 to R77). -/

/-- A lower limit (R75). -/
def lowerLimit (id : Nat) : Bool := id = 3 || id = 5 || id = 7
/-- One value of a limit is looser than another. -/
def looser (id : Nat) (v w : Int) : Bool := if lowerLimit id then decide (v < w) else decide (w < v)

/-- A LIMIT section relaxes a value in force (R77). -/
def Cand.relaxes (c : Cand) (eff : Nat → Int) : Bool :=
  (List.range 10).any fun k => looser (k + 1) (c.limit (k + 1)) (eff (k + 1))

/-- The limits named by the relations of R76 that do not hold. -/
def Cand.badRelations (c : Cand) : List Nat :=
  let l := c.limit
  (if l 3 < l 5 then [] else [3, 5]) ++ (if l 5 ≤ l 4 then [] else [5, 4])
  ++ (if l 4 + 10000 ≤ l 2 then [] else [4, 2]) ++ (if l 7 < l 6 then [] else [7, 6])

/-- The check of step 9: fuses, then in RUN the values in force, then the relations of R76 and the phases. A
relation broken by no carried record names the LIMIT section's entry. -/
def Cand.limits (c : Cand) (inRun : Bool) (eff : Nat → Int) (dirs : List DirEntry) : Option LoadFail :=
  let ls := recsOf c.own 0x0D01
  let sec := fun (code : Nat) => match dirs.find? fun d => d.type = 13 with
    | some d => dirFail code d d.off
    | none => ({ code := code } : LoadFail)
  let fuse := ls.filter fun r => looser (r.u16 8) (r.s32 12) (limitFuse.getD (r.u16 8 - 1) 0)
  let tight := ls.filter fun r => inRun && looser (r.u16 8) (r.s32 12) (eff (r.u16 8))
  let dropped := inRun && (c.own.any fun x => x.type = 13) && c.relaxes eff
  let rel := c.badRelations
  let relRecs := (c.recs 0x0D01).filter fun r => rel.contains (r.u16 8)
  let ph := (c.recs 0x0602).filter fun r => decide (2 * c.limit 1 < 3 * r.s32 12)
  let phRecs := ph ++ if ph.isEmpty then [] else (c.recs 0x0D01).filter fun r => r.u16 8 = 1
  match c.fail cLoose (fuse ++ tight) with
  | some f => some f
  | none =>
    if dropped then some (sec cLoose)
    else if !rel.isEmpty then some ((c.fail cRange relRecs).getD (sec cRange))
    else c.fail cRange phRecs

/-! Step 10 (R228, R229). -/

/-- Instances a model serves. -/
def Rec.instances (r : Rec) : Nat := (List.range 5).countP fun k => tb (r.u8 10) k

/-- SRAM held by the models of a configuration, bytes (R228). -/
def modelSram (ds : List Rec) : Nat :=
  (ds.map fun r =>
    (if r.streamed then r.stagingBytes else r.weightBytes)
    + r.instances * (r.stateBytes + 8 * r.workBytes + if r.adapts && r.u8 11 = 2 then 2 ^ 22 else 0)).sum
/-- HBM held by streamed images, bytes (R228). -/
def modelHbm (ds : List Rec) : Nat := (ds.map fun r => if r.streamed then r.weightBytes else 0).sum

/-- The check of step 10: the models fit SRAM and HBM, and the copies of one tick phase 1 MiB. -/
def Cand.capacity (c : Cand) : Option LoadFail :=
  let ds := c.recs 0x0901
  let cs := c.recs 0x0A01
  if 384 * 2 ^ 20 < modelSram ds || 2 ^ 35 < modelHbm ds then c.fail cCapacity ds
  else c.fail cCapacity (cs.filter fun r =>
    2 ^ 20 < ((cs.filter fun x => x.u16 10 = r.u16 10).map fun x => x.u32 20).sum)

/-! Step 11 (R65). -/

/-- States in which a section type may be swapped in. -/
def sectionStates (ty : Nat) : List DevState :=
  if [5, 8, 9, 10, 11, 12, 13].contains ty then [.standby, .armed, .run] else [.standby, .armed]

/-- The carried sections that the state does not admit, LIMIT in RUN where it relaxes a value in force (R65, R77); in BOOT
without an active configuration a FULL one passes whole (R65, R86). -/
def Cand.locked (c : Cand) (full active : Bool) (st : DevState) (eff : Nat → Int) (dirs : List DirEntry) :
    Option LoadFail :=
  if st = .boot && !active && full then none
  else (c.own.find? fun x => !(sectionStates x.type).contains st
      || (x.type = 13 && st = .run && c.relaxes eff)).map fun x =>
    { code := cLocked, section_ := x.index
      offset := ((dirs.find? fun d => d.index = x.index).map (·.off)).getD 0xFFFFFFFF }

end Sys2Proof.Machine
end

