-- ==== Sys2Proof/Machine/EstUpd.lean ====
section
/-! DEFINITION. The 1 ms update of the strings (R333, R334, R336, R344, R346, R342) and the planner (R337, R338,
R347 to R352). -/

namespace Sys2Proof.Machine

/-! The 1 ms update. -/

/-- Charge and band after a millisecond (R333), each quotient rounded half-even at 32 fractional bits. -/
def State.chargeStep (s : State) (i : Fin 4) : State :=
  let x := s.estr i
  let q := (s.shunt i).q
  let dq := q - x.lastQ.getD q
  let c := (x.capMah * 3600000000).toNat
  let drift := divHE ((s.str16 i 0x3E 100 : Nat) * 2 ^ 32) 3600000
  let top : Int := 10000 * 2 ^ 32
  if (s.shunt i).dead then
    s.updStr i fun x => { x with lastQ := some q, band := min (x.band + 10 * drift) top }
  else
    s.updStr i fun x =>
      { x with lastQ := some q
               soc := clampI 0 top (x.soc - divHE (dq * 10000 * 2 ^ 32) c)
               band := min (x.band + drift + divHE ((s.str16 i 0x40 50 * dq.natAbs : Nat) * 2 ^ 32) c) top }

/-- Sum of the VALID cell values of a string in its last sweep, 0.1 mV. -/
def State.cellSum (s : State) (i : Fin 4) : Nat :=
  (((s.stringCells i.val).filter Cell.valid).map Cell.v).sum

/-- The voltage model (R334) in FP32, operation by operation as the rule writes it, and V_VALID (R336). -/
def State.voltageStep (s : State) (i : Fin 4) : State :=
  let x := s.estr i
  let m := 0x49742400
  let cur := if x.nI = 0 then fOfInt (s.shunt i).i else fOfRat x.sumI x.nI
  let k := fDiv x.r0 (fOfInt (s.str32 i 0x14))
  let e1 := fExpRat (-1) (s.str32 i 0x1C)
  let e2 := fExpRat (-1) (s.str32 i 0x24)
  let one := fOfInt 1
  let v1 := fAdd (fMul x.v1 e1) (fDiv (fMul (fMul (fMul k (fOfInt (s.str32 i 0x18))) (fSub one e1)) cur) m)
  let v2 := fAdd (fMul x.v2 e2) (fDiv (fMul (fMul (fMul k (fOfInt (s.str32 i 0x20))) (fSub one e2)) cur) m)
  let v := fOfRat (s.cellSum i) 10
  let ocv := fAdd (fAdd (fAdd v (fDiv (fMul x.r0 cur) m)) v1) v2
  let (soc, seg) := ocvInv (s.ocvTab i) (fDiv ocv (fOfInt (s.cells i)))
  let cs := s.stringCells i.val
  let steep := match seg with
    | some ((s0, u0), (s1, u1)) => decide (s1 - s0 ≤ 2 * (u1 - u0))
    | none => false
  let ok := 64 ≤ x.r0n && !cs.isEmpty && cs.all (fun y => y.valid && !y.unmonitored) && steep
    && fLt 0 soc && fLt soc (fOfInt 10000)
  s.updStr i fun x => { x with v1 := v1, v2 := v2, vOcv := ocv, socV := soc, vValid := ok, sumI := 0, nI := 0 }

/-- v + v1 + v2 of a string, in 1/256 mV: its open-circuit voltage with no current (R339). -/
def State.restVolt (s : State) (i : Fin 4) : Int :=
  let x := s.estr i
  fToInt (fAdd (fAdd (fOfRat (s.cellSum i) 10) x.v1) x.v2) 8

/-- BAND_WIDE and TAPER after an update (R344, R346). -/
def State.flagStep (s : State) (i : Fin 4) : State :=
  let x := s.estr i
  let wide := decide ((s.forceBand : Int) * 2 ^ 32 < x.band)
  let taper := (s.chgLimit i).2
  let s := s.updStr i fun x => { x with bandWide := wide, taper := taper }
  let s := if wide && !x.bandWide then s.ev 0x9022 i.val else s
  if taper && !x.taper then s.ev 0x9070 i.val else s

/-- The reading window of a rest, and the passive rest of ARMED (R339, R342): a string that has been at or below
REST_I_MAX_MA for REST_S takes a reading, one in such a time. -/
def State.restStep (s : State) (i : Fin 4) : State :=
  if (s.estr i).rest = .reading then
    let v := s.restVolt i
    s.updStr i fun x => { x with readSum := x.readSum + v, readN := x.readN + 1 }
  else if s.sys.state = .armed && (s.grp i).state = .off
      && ((s.ringOf i.val).map fun c => s.ctrClosed c).getD false then
    let quiet := (s.shunt i).i.natAbs ≤ s.restImax
    let s := s.updStr i fun x => { x with quietMs := if quiet then x.quietMs + 1 else 0, quietRead := quiet && x.quietRead }
    if 1000 * s.restS ≤ (s.estr i).quietMs && !(s.estr i).quietRead then
      (s.takeReading i (s.restVolt i) ((s.stringCells i.val).map Cell.v)).updStr i fun x => { x with quietRead := true }
    else s
  else s.updStr i fun x => { x with quietMs := 0, quietRead := false }

/-- SOC and SOC_V of a string differ by more than CONFLICT_PCT (R343). -/
def State.differs (s : State) (i : Fin 4) : Bool :=
  decide ((s.ecl16 0x14 800 * 2 ^ 32 : Nat) < ((s.estr i).soc - (s.estr i).socVFix).natAbs)

/-- How long the difference of R343 and the current of R341 have lasted. -/
def State.countStep (s : State) (i : Fin 4) : State :=
  let diff := s.differs i
  let above := decide (s.restImax < (s.shunt i).i.natAbs)
  s.updStr i fun x => { x with
    diffMs := if x.vValid && diff then x.diffMs + 1 else 0
    sameMs := if diff then 0 else x.sameMs + 1
    overMs := if above then x.overMs + 1 else 0 }

/-- One string's update of 1 ms. -/
def State.estStep (s : State) (i : Fin 4) : State :=
  if (s.estr i).socSet then
    (((((s.chargeStep i).voltageStep i).flagStep i).countStep i).restStep i)
  else s

/-! Rests (R337 to R341). -/

/-- The mean voltage of each cell over the reading window, 0.1 mV; a cell with no VALID value in it keeps its
latest. -/
def State.windowCells (s : State) (i : Fin 4) : List Nat :=
  ((s.stringCells i.val).zipIdx).map fun x =>
    let y := (s.estr i).cellSums.getD x.2 (0, 0)
    if y.2 = 0 then x.1.v else divHEN y.1 y.2

/-- The reading of a rest (R339, R340): from its window, or where that has not begun from the present values (R353), and the
limits ramp back. -/
def State.eclipseReading (s : State) (i : Fin 4) : State :=
  let x := s.estr i
  let mean := if x.readN = 0 then s.restVolt i else divHE x.readSum x.readN
  (s.takeReading i mean (s.windowCells i)).updStr i fun x => { x with rest := .rampUp }

/-- REST_S of a rest that relaxes or reads lies behind its tr (R339, R353). -/
def State.restBehind (s : State) (i : Fin 4) : Bool :=
  let x := s.estr i
  (x.rest = .relaxing || x.rest = .reading) && decide (x.relaxAt + 500000 * s.restS ≤ s.sys.tick)

/-- A rest in progress. -/
def RestState.inRest : RestState → Bool
  | .rampDown | .relaxing | .reading => true
  | _ => false

/-- A rest runs on some string. -/
def State.anyRest (s : State) : Bool := s.est.str.toList.any fun x => x.rest != .idle

/-- Rests in progress end without a reading (R341): the limits ramp back. -/
def State.abortRests (s : State) : State :=
  (List.finRange 4).foldl (fun s i =>
    if (s.estr i).rest.inRest then (s.updStr i fun x => { x with rest := .rampUp }).ev 0x9012 i.val else s) s

/-- THROTTLE is in force (R272, R338). -/
def State.throttleOn (s : State) : Bool := s.tlk.throttleAll || s.tlk.port.toList.any Port.throttled

/-- A rest in progress is over (R339, R341, R353): a group on its fast path, THROTTLE, the current for 1 s or still at t0 + 1
s, the device out of RUN, or the string no longer healthy. -/
def State.restOver (s : State) (i : Fin 4) : Bool :=
  let x := s.estr i
  x.rest.inRest && (
    ((List.finRange 4).any fun g => (s.grp g).state = .fastPath) || s.throttleOn || s.sys.state != .run || !x.healthy
    || (x.rest = .rampDown && s.elapsed x.restAt 500000) || (x.rest != .rampDown && 1000 ≤ x.overMs))

/-- The string the next slot goes to (R337): the lowest forced one, else the one whose last reading is oldest. -/
def State.restCandidate (s : State) : Option (Fin 4) :=
  let l := s.healthyStrs
  match l.find? fun i => (s.estr i).forcedDue with
  | some i => some i
  | none => l.foldl (fun acc i => match acc with
      | none => some i
      | some j => if (s.estr i).restT < (s.estr j).restT then some i else some j) none

/-- Planner cycles between rotation slots (R337). -/
def State.slotCycles (s : State) : Nat := 600 * s.ecl16 0x0E 30 / max 1 s.healthyStrs.length

/-- The margin of R338 for a rest of a string: the peak of the last 60 s within MARGIN_PCT of what the other
healthy groups can carry. -/
def State.restMargin (s : State) (i : Fin 4) : Bool :=
  let peak := (s.est.peakHist.map Prod.snd).foldl max 0
  let sum := ((s.healthyStrs.filter fun j => j != i).map fun j => s.ilimCont j * (s.grp j).vStr).sum
  decide (100 * peak ≤ s.marginPct * divHE sum 1000000)

/-- The conditions under which a rest of a string starts (R338). -/
def State.restAllowed (s : State) (i : Fin 4) : Bool :=
  s.sys.state = .run && !s.est.overload && s.eclEnable && s.est.eclipseEn && !s.anyRest
  && !((List.finRange 4).any fun g => (s.grp g).state = .fastPath)
  && !s.throttleOn && s.restMargin i

/-- A rest that is due starts, or is postponed (R338). With a single healthy string no rest can run (R346). -/
def State.restTry (s : State) : State :=
  match s.restCandidate with
  | none => s
  | some i =>
    if s.healthyStrs.length < 2 then s else
    let s := { s with est := { s.est with triedTick := s.sys.tick } }
    if s.restAllowed i then
      let s := s.updStr i fun x => { x with rest := .rampDown, restRamp := 50000, restAt := s.sys.tick, overMs := 0 }
      ({ s with est := { s.est with blocked := false, postponed := false } }).ev 0x9010 i.val
    else
      let was := s.est.postponed
      let s := { s with est := { s.est with blocked := true, postponed := true } }
      if was then s else s.ev 0x9013 i.val

/-- The rotation at a planner cycle (R337): with two or more healthy strings a slot falls due every PERIOD_MIN / h
minutes, the first one a full interval after rotation begins (log entry 26); a forced rest does not wait for a
slot. -/
def State.rotation (s : State) : State :=
  let e := s.est
  let s :=
    if s.healthyStrs.length < 2 then { s with est := { e with restDueAt := 0 } }
    else if e.restDueAt = 0 then { s with est := { e with restDueAt := e.cycles + s.slotCycles } }
    else if e.restDueAt ≤ e.cycles then
      ({ s with est := { e with restDueAt := e.cycles + s.slotCycles, postponed := false } }).restTry
    else if !e.blocked && !s.anyRest && s.healthyStrs.any fun i => (s.estr i).forcedDue then s.restTry
    else s
  { s with est := { s.est with nextRestStr := (s.restCandidate.map Fin.val).getD 0
                               nextRestS := (s.est.restDueAt - s.est.cycles) / 10 } }

/-! The planner (R347 to R352). -/

/-- A value of the cycle enters a window of `sec` seconds that ends at it. -/
def windowAdd (t sec : Nat) (v : Int) (l : List (Nat × Int)) : List (Nat × Int) :=
  (t, v) :: l.filter fun x => t < x.1 + 500000 * sec

/-- The sums since the cycle before enter the windows, in every device state: the load over GRID_WINDOW_S (R349), the storage
power over OVL_AVG_S (R351), and its peak over 60 s (R338). -/
def State.planWindows (s : State) : State :=
  let e := s.est
  let t := s.sys.tick
  if e.accN = 0 then s
  else
    { s with est := { e with
        accLoad := 0, accStore := 0, accN := 0, peakNow := 0
        loadHist := windowAdd t (s.res16 0x16 60) (divHE e.accLoad e.accN) e.loadHist
        storeHist := windowAdd t (max 1 e.ovlAvgS) (divHE e.accStore e.accN) e.storeHist
        peakHist := windowAdd t 60 e.peakNow e.peakHist } }

/-- A planner cycle of RUN is counted, and EST_GRID_CFG takes force (R357). -/
def State.planCount (s : State) : State :=
  let e := s.est
  { s with est := { e with rampNow := e.ramp, amaxNow := e.amax, jmaxNow := e.jmax, cycles := e.cycles + 1 } }

/-- E_PLAN, the reserve and RESERVE_LOW (R347). -/
def State.planEnergy (s : State) : State :=
  let s := s.strings.foldl (fun s i => s.updStr i fun x =>
    { x with e := if x.healthy then s.energyTo i (s.socPlan i) else 0 }) s
  let ePlan := (s.healthyStrs.map fun i => (s.estr i).e).sum
  let eRes := s.est.seconds * s.ratedW
  let low := decide (ePlan ≤ eRes)
  let was := s.est.reserveLow
  let s := { s with est := { s.est with ePlan := ePlan, eRes := eRes, reserveLow := low } }
  if low && !was then s.ev 0x9030 else s

/-- The grid target (R349). -/
def State.planGrid (s : State) : State :=
  let e := s.est
  let lAvg := meanHE (e.loadHist.map Prod.snd)
  let cap : Int := s.psuCap
  let gLim := min cap ((e.gridAllow.map Int.ofNat).getD cap)
  let eTgt := (s.healthyStrs.map fun i => s.energyTo i ((s.res16 0x12 6000 : Nat) * 2 ^ 32)).sum
  let base := lAvg + divHE (eTgt - e.ePlan) (s.res16 0x14 300)
  let target := clampI 0 gLim base
  let lim := decide (target = gLim)
  let s := { s with est := { e with loadAvg := lAvg, gridLimit := gLim, gridReq := clampI 0 cap base
                                    gridTarget := target, gridLimited := lim } }
  if lim && !e.gridLimited then s.ev 0x9040 else s

/-- The cap of OVERLOAD at a cycle (R351, R352). -/
def State.planCap (s : State) : State :=
  let e := s.est
  let x := max 0 (e.ePlan - e.eRes)
  let root : Int := ((isqrt (4 * (x * (10 * e.ramp)).toNat) + 1) / 2 : Nat)
  let target := min (e.gridLimit + divHE x (max 10 e.ovlS)) (s.gNow + root)
  if (s.wantSum : Int) ≤ target then
    let s := { s with
      est := { e with overload := false, capTarget := none }
      tlk := { s.tlk with envCap := none } }
    (s.ev 0x9032).recompute false
  else
    let cap : Int := (s.tlk.envCap.getD s.envSum : Nat)
    let cap := cap + clampI (-(e.capStep : Int)) e.capStep (target - cap)
    ({ s with est := { e with capTarget := some target }
              tlk := { s.tlk with envCap := some cap.toNat } }).recompute false

/-- Sustained overload (R351): t_res in s, rounded half-even, and OVERLOAD. -/
def State.planOverload (s : State) : State :=
  let e := s.est
  let p := meanHE (e.storeHist.map Prod.snd)
  let d := e.ePlan - e.eRes
  let t : Option Nat := if p ≤ 0 then none else some (divHE (max 0 d) p.toNat).toNat
  let s := { s with est := { e with pSt := p, tRes := t } }
  let enter := !e.overload && (d ≤ 0 || (0 < p && d < max 10 e.ovlS * p))
  let s := if enter then
      ({ s with est := { s.est with overload := true }
                tlk := { s.tlk with envCap := some s.envSum } }).ev 0x9031
    else s
  if s.est.overload then s.planCap else s

/-- Event 0x9040 of a thermal ramp (R421): every switching group is at a limit, and the bricks are set below the
profile (log entry 27). -/
def State.planRamp (s : State) : State :=
  let sw := (List.finRange 4).filter fun g => (s.grp g).state.switching
  let on := s.prot.thermalRamp && !sw.isEmpty && sw.all (fun g => (s.grp g).limited)
    && decide (s.brickPower < s.gNow)
  let was := s.est.rampLimited
  let s := { s with est := { s.est with rampLimited := on } }
  if on && !was then s.ev 0x9040 else s

/-- The margin of a rest in progress is judged at a planner cycle (R341). -/
def State.planMargin (s : State) : State :=
  if (List.finRange 4).any fun i => (s.estr i).rest.inRest && !s.restMargin i then s.abortRests else s

/-- A planner cycle (R347): the coolant is checked and the windows go on in every state, the rest runs in RUN. -/
def State.planner (s : State) : State :=
  let s := (({ s with est := { s.est with planTick := some s.sys.tick } }).coolantCheck).planWindows
  if s.sys.state != .run then s
  else ((((((s.planCount.planEnergy).planGrid).planOverload).planRamp).planMargin).rotation)

end Sys2Proof.Machine
end

