-- ==== Sys2Proof/Machine/Power.lean ====
section
/-! DEFINITION. The commands of the supplies, of mating, of the clocks and of the service connector (02, 13
R434, R443 to R446). -/

namespace Sys2Proof.Machine

/-- Every group is OFF and GDRV_EN_0 to 3 are low; what waited for the groups follows. -/
def State.holdOff (s : State) : State := if s.allOff then s.gdrvLow else s.groupsOff.afterOff

/-! Supplies (R31 to R37, R44). -/

/-- POWER_ON (R33, R434): t0, where the module was in OFF or SHIP or has not read its fuses, or is mated again
(DESIGN CHOICE, log entry 34). After an input whose return was recorded the kind is INPUT_RETURN (R35); a FULL reset that
waited for MATE_N is the reset that follows (R44). -/
def execPowerOn (stby12 : Bool) (s : State) : Host.Outcome State Fault Refusal :=
  .next (
    if s.power.inputLoss || s.power.powered && s.sec.fusesOk && s.power.mate then s
    else
      let live := s.power.powered && s.sec.fusesOk
      let kind := if s.power.auxReturned then 1 else if live && s.sec.resetReq = some 3 then 3 else 0
      let old := if live then s.sys.state.code else Config.freeNat s.fv % 16
      let s := (if live then s.swapLost else s).used.bootFrom kind old
      { s with power := { s.power with mate := true, aux54Ok := true, stby12Ok := stby12, stbySrc := !stby12 } })

/-- A DMA channel whose load is shed: idle. -/
def Mem.quiet (m : Mem) : Mem := { m with ch := Vector.replicate 32 {} }

/-- The port's link and MACsec go down (R403). -/
def State.linksLost (s : State) : State :=
  let s := if s.net.macsecUp then s.ev 0xA004 else s
  if s.net.linkUp then s.ev 0xA002 else s

/-- The loads outside the hold-up set are shed (R34): the management cores with their sessions, the Ethernet port and the
row ring, the tray links, the cell chains, the forecast engine and the DMA channels. The commands that would wake one of
them ask for `State.lit`. -/
def State.shedLoads (s : State) : State :=
  let s := s.unjoin.linksLost
  { s with
    sec := { s.sec with fwRunning := false, recovery := false }
    net := { mac := s.net.mac, cak := s.net.cak }
    fce := {}
    chn := { s.chn with ring := s.chn.ring.map fun (r : Ring) => { r with
      state := .off, sweep := none, sweepDue := none, started := false } }
    mem := s.mem.quiet
    tlk := { s.tlk with
      portsUp := false
      port := s.tlk.port.map fun (p : Port) =>
        { p with linked := false, state := if p.state = .unused then .unused else .down } } }

/-- The per-tick value of a key channel's source. -/
def State.keySource (s : State) (src : Nat) : Int :=
  let k := src % 4096
  match src / 4096 with
  | 0 => (s.chan k).value
  | 1 => (s.loop.slot[k]?.map Slot.out).getD 0
  | 2 => (s.pwm.grp[k]?.map Group.iRef).getD 0
  | 3 => s.loop.cometP
  | 4 => (s.pwm.psu[k]?.map PsuPort.p).getD 0
  | _ => ((s.tlk.port[k]?.bind Port.report).map fun r => (r.pTotal : Int)).getD 0

/-- The key sources of KIND other than 0x0 hold their last value (R479). -/
def State.holdKeys (s : State) : State :=
  { s with evr := { s.evr with keyHold := some (((s.recs 0x0303).map fun r => r.u16 0x0A).map fun x => (x, s.keySource x)) } }

/-- HOLD_FRAME of the slots in use at an input loss (R479). -/
def State.holdFrames (s : State) : State :=
  { s with evr := { s.evr with slot := s.evr.slot.map fun (x : ObsSlot) =>
      if x.state = .live || x.state = .closing then { x with holdFrame := some x.written } else x } }

/-- INPUT_LOSS (R34, R396): GDRV_EN low, RACK_HOLD_N not driven, the FAILOVER notice, event 0x0010, and the loads are shed. AUX54_IN that has
come back and is lost again inside the 50 ms is lost again with its event, and R33 is not met (R35, log entry 85). -/
def execInputLoss (s : State) : Host.Outcome State Fault Refusal :=
  .next (
    if !s.power.powered then s
    else if s.power.inputLoss then
      if s.power.aux54Ok then ({ s with power := { s.power with aux54Ok := false } }).ev 0x0010 else s
    else
      let s := { s with
        power := { s.power with aux54Ok := false, inputLoss := true, auxReturned := false, lossTick := s.sys.tick
                                holdupCharging := false }
        sys := { s.sys with rackHoldDrive := false } }
      ((((s.holdKeys).groupsOff.failover 2).ev 0x0010).holdFrames).shedLoads)

/-- The slots marked by an input loss are closed (R478, R485). -/
def State.closeMarked (s : State) : State :=
  (List.finRange 4).foldl (fun s i => if s.evr.slot[i.val].state = .closing then s.closeSlot i else s) s

/-- The module is in OFF: the main domain has lost what it held (R18, R34). -/
def State.powerDown (s : State) : State :=
  let b := s.resetTo 0
  { b with power := { b.power with powered := false, auxReturned := s.power.auxReturned } }

/-- INPUT_LOSS_RECORD_CLOSE (R34, R35): 50 ms after the declaration the record closes, and the module goes to OFF, or where AUX54_IN is back and R33
is met restarts at once. -/
def execInputLossRecordClose (s : State) : Host.Outcome State Fault Refusal :=
  .next (
    if !s.power.inputLoss || !s.elapsed s.power.lossTick 25000 then s
    else
      let s := s.closeMarked
      if s.power.auxReturned && s.power.aux54Ok && s.power.mate then s.doReset 1 else s.powerDown)

/-- INPUT_RETURN (R35): AUX54_IN is back while the record is open. -/
def execInputReturn (s : State) : Host.Outcome State Fault Refusal :=
  .next (
    if s.power.inputLoss then { s with power := { s.power with auxReturned := true, aux54Ok := true } } else s)

/-- MATE_RELEASE (R44). -/
def execMateRelease (s : State) : Host.Outcome State Fault Refusal :=
  .next ({ s with power := { s.power with mate := false } }).holdOff

/-- STBY12_LOST (R36, R55, R57): the derived rail carries the standby domain; the event is that of a loss while AUX54_IN is
present. -/
def execStby12Lost (s : State) : Host.Outcome State Fault Refusal :=
  let aux := !s.power.inputLoss || s.power.aux54Ok
  let t := { s with power := { s.power with stby12Lost := true, stby12Ok := false, stbySrc := true
                                            stby12Gone := aux } }
  .next (if !s.power.powered || s.power.stbySrc then s else if aux then t.ev 0x0011 else t)

/-- STBY12_RESTORED (R36, R57): the event follows a loss that was recorded. -/
def execStby12Restored (s : State) : Host.Outcome State Fault Refusal :=
  let t := { s with power := { s.power with stby12Ok := true, stbySrc := false, stby12Gone := false } }
  .next (
    if s.power.powered && s.power.stbySrc then (if s.power.stby12Gone then t.ev 0x0012 else t) else s)

/-- AUX54_BROWNOUT (R55, R57): the event is that of the bit setting. -/
def execAux54Brownout (s : State) : Host.Outcome State Fault Refusal :=
  .next (
    if !s.power.powered || s.power.inputLoss then s
    else
      let t := { s with power := { s.power with brownout := true, aux54Ok := false } }
      if s.power.brownout then t else t.ev 0x0014)

/-- HOLDUP_MEASURE (R37): the usable energy measured, mJ. HOLDUP_CHARGING clears with the first measurement: R37 bounds
the charge by 400 ms only (DESIGN CHOICE, log entry 86). -/
def execHoldupMeasure (mJ : BitVec 32) (s : State) : Host.Outcome State Fault Refusal :=
  let ok : Bool := 10000 ≤ mJ.toNat
  .next (
    if !s.power.powered || s.power.inputLoss then s
    else
      let s := { s with power := { s.power with holdupE := mJ.toNat, holdupOk := ok, holdupCharging := false } }
      if ok then s else s.ev 0x0013)

/-! Clocks (R39, R40). -/

/-- The cleaning PLL slews to the crystal: event 0x0021. -/
def State.toCrystal (s : State) : State :=
  { s with clk := { s.clk with refSrc := false, refHoldover := false, fallbackBlocked := false } }.ev 0x0021

/-- A choice of the reference (R39): the crystal at once where it runs, REF_IN where it is present. The cleaning PLL
never slews to a failed crystal: it stays on REF_IN, or in holdover, until the crystal runs (log entry 87). -/
def State.selectRef (s : State) (v : Bool) : State :=
  if s.clk.refSel = v then s
  else
    let s := { s with clk := { s.clk with refSel := v } }
    if v then { s with clk := { s.clk with refSrc := s.clk.refSrc || s.clk.refInPresent } }
    else if s.clk.xtalOk && s.clk.refSrc then s.toCrystal
    else s

/-- REF_IN_LOST (R39). -/
def execRefInLost (s : State) : Host.Outcome State Fault Refusal :=
  let c := s.clk
  .next (
    if c.refSrc && !c.refHoldover then
      { s with clk := { c with refInPresent := false, refHoldover := true, holdAt := s.sys.tick } }.ev 0x0020
    else { s with clk := { c with refInPresent := false } })

/-- REF_FALLBACK (R39, R54): holdover has lasted HOLDOVER_S, of which 0 is treated as 1. -/
def execRefFallback (s : State) : Host.Outcome State Fault Refusal :=
  let c := s.clk
  .next (
    if !c.refHoldover || !c.refFallback || c.fallbackBlocked
        || !s.elapsed c.holdAt (500000 * max 1 c.holdoverS) then s
    else if c.xtalOk then s.toCrystal
    else { s with clk := { c with fallbackBlocked := true } }.ev 0x0023)

/-- REF_IN_RESTORED (R39): REF_IN has been present for 1 s. -/
def execRefInRestored (s : State) : Host.Outcome State Fault Refusal :=
  let c := s.clk
  .next (
    if c.refInPresent && s.elapsed c.refSince 500000 && (c.refHoldover || (c.refSel && !c.refSrc)) then
      { s with clk := { c with refSrc := true, refHoldover := false, fallbackBlocked := false } }.ev 0x0022
    else s)

/-- The crystal stops (R39, R53): event 0x0024 while REF_IN is selected. -/
def State.xtalLost (s : State) : State :=
  if !s.clk.xtalOk then s
  else
    let t := { s with clk := { s.clk with xtalOk := false } }
    if s.clk.refSel then t.ev 0x0024 else t

/-- XTAL_FAIL (R39, R53). -/
def execXtalFail (s : State) : Host.Outcome State Fault Refusal := .next s.xtalLost

/-- XTAL_OK_RESTORED (R39): XTAL_OK has been 1 for 1 s. A choice of the crystal that waited for it takes effect. -/
def execXtalOkRestored (s : State) : Host.Outcome State Fault Refusal :=
  let c := s.clk
  .next (
    if c.xtalOk && s.elapsed c.xtalSince 500000
        && ((c.refHoldover && c.fallbackBlocked) || (!c.refSel && c.refSrc)) then s.toCrystal
    else s)

/-- A ring as the root clock stops (R304): its counts are kept for the check after relock. -/
def Ring.unlock (r : Ring) : Ring :=
  { r with state := .off, sweep := none, sweepDue := none, started := false
           relock := if r.state.up || r.state = .enumerated then some (r.nA, r.nB) else none }

/-- ROOT_UNLOCK (R40, R304): the control fabric and the rings stop. -/
def execRootUnlock (s : State) : Host.Outcome State Fault Refusal :=
  .next (
    if s.clk.fabricStopped then s
    else
      ({ s with
        clk := { s.clk with fabricStopped := true, rootLock := false }
        chn := { s.chn with ring := s.chn.ring.map Ring.unlock } } : State).armCheck)

/-- A ring after relock (R40): the wake tone, then the count by ENUM and REVCHECK without RESET_ADDR. -/
def State.ringRelock (s : State) (c : Fin 4) : State :=
  if (s.ring c).state = .off && (s.ring c).relock.isSome then
    (s.updRing c fun r => { r.recount with state := .enumerating }).send (.tone c.val)
  else s

/-- ROOT_RELOCK (R40). -/
def execRootRelock (s : State) : Host.Outcome State Fault Refusal :=
  .next (
    if !s.clk.fabricStopped then s
    else
      let s := { s with clk := { s.clk with fabricStopped := false, rootLock := true
                                            unlockCount := bump 8 s.clk.unlockCount }
                        prot := { s.prot with missTick := s.sys.tick } }
      (List.finRange 4).foldl State.ringRelock s)

/-! The service connector (R46, R47). -/

/-- SERVICE_ATTACHED (R47): SVC_PRESENT_N goes low, which a module in OFF does not record; each tick sees it high again
(R18, R55). -/
def execServiceAttached (s : State) : Host.Outcome State Fault Refusal :=
  let t := { s with power := { s.power with svcPresent := true } }
  .next (if s.power.powered then t.ev 0x0030 else t)

/-- The TAP takes an instruction; where EXTEST or CLAMP leaves it, GDRV_EN of the groups that switch rises
again. -/
def State.setTap (s : State) (i : Sys2Proof.TapInstr) : State :=
  let held := s.gdrvHeld
  let s := { s with sys := { s.sys with tap := i } }
  if held && !s.gdrvHeld then
    ((List.finRange 4).foldl (fun s g =>
      if (s.grp g).state.switching && !(s.grp g).basaltDrives then s.setGdrv g true else s) s).basaltGdrv
  else s

/-- DEBUG_OPEN (R446, R453): MANUFACTURE or RETURNED. -/
def State.debugOpen (s : State) : Bool := s.sec.lifecycle = 1 || s.sec.lifecycle = 3

/-- JTAG_INSTRUCTION (R46, R446). OFF is neither BOOT nor STANDBY. IDCODE shifts out the stepping, 0x475A, the manufacturer's identity, which the
manual does not give (a free value, log entry 7), and 1. -/
def execJtagInstruction (i : Sys2Proof.TapInstr) (s : State) : Host.Outcome State Fault Refusal :=
  match i with
  | .bypass => .next (s.setTap .bypass)
  | .samplePreload => .next (s.setTap .samplePreload)
  | .idcode =>
    .next ((s.setTap .idcode).used.send
      (.tdo (s.sys.step % 16 * 2 ^ 28 + 0x475A * 2 ^ 12 + Config.freeNat s.fv % 2048 * 2 + 1)))
  | .extest | .clamp =>
    if s.power.powered && s.inState [.boot, .standby] then .next (((s.setTap i).holdOff).ev 0x0031)
    else .next (s.setTap .bypass)
  | .debug => if s.debugOpen then .refused .debugUnit else .next ((s.setTap .bypass).ev 0x1041)

/-- SVC_UART_QUERY (R47): the answer's text is not stated, a free value (log entry 7). -/
def execSvcUartQuery (s : State) : Host.Outcome State Fault Refusal :=
  .next (if s.power.powered then s.used.send (.console (Config.freeNat s.fv)) else s)

/-! Passages and resets (R441 to R445). -/

/-- SYS_STATE_REQ (R442, R451). -/
def execSysStateReq (sess : Fin 64) (target : BitVec 4) (s : State) : Host.Outcome State Fault Refusal :=
  .next (s.regCmd sess .oa fun s => s.writeTarget target.toNat)

/-- ARMED_PASSAGE (R441). -/
def execArmedPassage (s : State) : Host.Outcome State Fault Refusal := .next (if s.lit && s.mayArm then s.arm else s)

/-- A reset asked for by SYS_RESET (R444): in RUN the passage to ARMED goes first, and the reset follows when
every group is OFF; in BASALT and SHIP_PREP it is ignored. -/
def State.sysReset (s : State) (kind : Nat) : State :=
  if s.inState [.basalt, .shipPrep] || s.sec.resetReq.isSome then s
  else
    let s := if s.sys.state = .run then s.leaveRun else s
    if s.allOff then s.doReset kind else { s with sec := { s.sec with resetReq := some kind } }

/-- WARM_RESET (R443). -/
def execWarmReset (sess : Fin 64) (s : State) : Host.Outcome State Fault Refusal :=
  .next (s.regCmd sess .ia fun s => s.sysReset 2)

/-- FULL_RESET (R443). -/
def execFullReset (sess : Fin 64) (s : State) : Host.Outcome State Fault Refusal :=
  .next (s.regCmd sess .ia fun s => s.sysReset 3)

/-- WATCHDOG (R443, R444). -/
def execWatchdog (s : State) : Host.Outcome State Fault Refusal :=
  .next (
    if !s.power.powered || s.power.inputLoss then s
    else if s.sys.state = .basalt then { s with sec := { s.sec with watchdogDue := true } }
    else s.watchdogReset)

/-- A ring in SHIP, or with no node that answers (R323, R445). -/
def State.ringShipped (s : State) (c : Fin 4) : Bool :=
  (s.ring c).state = .ship || (s.nodeList c).all fun n => !((s.ring c).nodeAt n).present

/-- SHIP_READY (R445): every group is OFF and every ring is in SHIP. -/
def execShipReady (s : State) : Host.Outcome State Fault Refusal :=
  .next (
    if s.lit && s.sys.state = .shipPrep && !s.sec.shipReady && s.allOff
        && s.rings.all s.ringShipped then
      { s with sec := { s.sec with shipReady := true } }.ev 0x0040
    else s)

/-! Lifecycle (R446). -/

/-- DEPLOYED to RETURNED: the private keys and the CAK are erased. -/
def State.toReturned (s : State) : State :=
  if s.sec.lifecycle = 2 then
    { s with sec := { s.sec with lifecycle := 3, identityKeys := false, identityOk := false }
             net := { s.net with cak := none } }.ev 0x1030
  else s

/-- SEC_LC_CTRL (R446, R454). -/
def execSecLcCtrl (sess : Fin 64) (s : State) : Host.Outcome State Fault Refusal :=
  .next (s.regCmd sess .is_ State.toReturned)

end Sys2Proof.Machine
end

