-- ==== Sys2Proof/Machine/Pwm.lean ====
section
/-! DEFINITION. The commands of the converter groups, the phases and the PSU ports (06). -/

namespace Sys2Proof.Machine

/-- Once the groups that Basalt returned are RUNNING, THROTTLE cause 4 clears (R418): a group that is OFF is not
waited for. -/
def State.runningCheck (s : State) : State :=
  if s.sys.state = .run && !((List.finRange 4).any fun g =>
      (s.grp g).state = .softStart || ((s.grp g).state = .fastPath && (s.grp g).fpReturn = .softStart)) then
    s.clearCause 3
  else s

/-- What reaching OFF lets happen after a group has stopped. -/
def State.groupDone (s : State) : State := s.runningCheck.afterOff

/-- GROUP_RUNNING (R186): SS_MS have elapsed. -/
def execGroupRunning (g : Fin 4) (s : State) : Host.Outcome State Fault Refusal :=
  .next (
    if (s.grp g).state = .softStart && s.rampOver g then
      ((s.updGrp g fun x => { x with state := .running, rampLeft := 0 }).ev 0x5002 (grpInst g.val)).runningCheck
    else s)

/-- GROUP_STOPPED (R186): GDRV_EN_g goes low. -/
def execGroupStopped (g : Fin 4) (s : State) : Host.Outcome State Fault Refusal :=
  .next (
    if (s.grp g).state = .stopping && s.mayStop g then ((s.groupOff g).ev 0x5003 (grpInst g.val)).groupDone else s)

/-! Faults of phases. -/

/-- Ticks of 1 ms (R187). -/
def msTicks : Nat := 500

/-- A code at the input of a phase's comparators as a current, mA: the value of its route (R173). -/
def State.senseCurrent (s : State) (p : Fin 64) (code : Int) : Int :=
  match s.phaseRoute p with
  | none => 0
  | some r => divHE (code * r.s32 0x0C * 2 ^ 20) (2 ^ r.u8 0x10)

/-- The short-circuit comparator acts on a code: it lies beyond 1.5 times PEAK_LIMIT, of either sign (R187). -/
def State.scActs (s : State) (p : Fin 64) (code : Int) : Bool := (s.scCode p).natAbs ≤ code.natAbs

/-- SHORT_CIRCUIT (R187, R404): the code at the comparator, and the instant, after the start of the tick in progress, from
which both switches are off, for the rest of this cycle and the whole of the next; the trip record carries the phase current
and PHASE_I_ABS, its event the phase (DEDUCED, log entry 28). With SC_RETRIES trips within 1 ms the phase is disabled. -/
def execShortCircuit (p : Fin 64) (code : Int) (at_ : Nat) (s : State) : Host.Outcome State Fault Refusal :=
  .next (
    match s.phaseGroup p.val with
    | none => s
    | some g =>
      if !s.scActs p code then s
      else
      let t := s.sys.tick
      let cut := s.cut p (s.instant at_)
      let s := s.updPh p fun x => { cut x with sitOut := 2, scCount := bump 16 x.scCount
                                               scTicks := t :: x.scTicks.filter fun u => t < u + msTicks }
      let s := s.tripV 0x5020 g.val 0 (s.senseCurrent p code) (s.limit 1) p.val
      if (s.grp g).faultNow.scRetries ≤ (s.ph p).scTicks.length then s.requestDisable p .shortCircuit else s)

/-- DRIVER_FAULT (R188): GDRV_FLT goes low, or high again; low for 100 ns is the fault, and both switches turn off at the
instant `at_` after the start of the tick in progress. -/
def execDriverFault (p : Fin 64) (low : Bool) (at_ : Nat) (s : State) : Host.Outcome State Fault Refusal :=
  .next (
    let was := (s.ph p).fltLow
    let cut := s.cut p (s.instant at_)
    let s := s.updPh p fun x => { x with fltLow := low }
    if low && !was && (s.phaseGroup p.val).isSome then
      ((s.updPh p cut).ev 0x5021 p.val).requestDisable p .driverFault
    else s)

/-- PHASE_OPEN (R194): OPEN_CYCLES consecutive maximum-duty cycles have run with a current below OPEN_PCT of |i_pk|, as
the latches have judged them. -/
def execPhaseOpen (p : Fin 64) (s : State) : Host.Outcome State Fault Refusal :=
  .next (
    match s.phaseGroup p.val with
    | none => s
    | some g =>
      if (s.ph p).active && (s.grp g).faultNow.openCycles ≤ (s.ph p).openRun then s.requestDisable p .phaseOpen else s)

/-- SENSE_SUSPECT (R194): the condition has held for SUSPECT_MS of consecutive ticks. -/
def execSenseSuspect (p : Fin 64) (s : State) : Host.Outcome State Fault Refusal :=
  .next (
    match s.phaseGroup p.val with
    | none => s
    | some g =>
      if (s.ph p).active && 500 * (s.grp g).faultNow.suspectMs ≤ (s.ph p).suspect then
        s.requestDisable p .senseSuspect
      else s)

/-- PHASE_DISABLED (R194): the cycle boundary of a phase that is to be disabled. -/
def execPhaseDisabled (p : Fin 64) (s : State) : Host.Outcome State Fault Refusal :=
  .next (
    if (s.ph p).disableReq = .none || (s.ph p).disabled then s
    else (s.disableNow p (s.ph p).disableReq).groupDone)

/-- DISABLE_DROOP_CHECK (R194): 20 us after each disable, in every case, the group requests THROTTLE where the bus has
drooped. -/
def execDisableDroopCheck (g : Fin 4) (s : State) : Host.Outcome State Fault Refusal :=
  .next (
    match (s.grp g).droopDue with
    | [] => s
    | t :: l =>
      if s.sys.tick < t then s
      else
      let s := s.updGrp g fun x => { x with droopDue := l }
      if s.droops g then s.requestThrottle g false else s)

/-- The fourth step of a re-interleave (R180), after three at frame starts: the offsets reach their end, and a joining
phase counts in N from here on. -/
def State.reFinish (s : State) (g : Fin 4) : State :=
  if !(s.grp g).reinterleave || (s.grp g).reSteps != 3 then s
  else
    let s := (s.members g.val).foldl (fun s p => s.updPh p fun x =>
      { x with offset := x.offsetTo, offsetFrom := x.offsetTo
               active := x.active || x.joining, joining := false }) s
    (s.updGrp g fun x => { x with reinterleave := false, reSteps := 4 }).ev 0x5012 (grpInst g.val)

/-- REINTERLEAVED (R180): the fourth step, as the fourth frame starts. Its PWM_FRAME_START runs it too where it has not
been run (log entry 88). -/
def execReinterleaved (g : Fin 4) (s : State) : Host.Outcome State Fault Refusal := .next (s.reFinish g)

/-- DISABLE (R194, R209). -/
def execDisable (sess : Fin 64) (p : Fin 64) (s : State) : Host.Outcome State Fault Refusal :=
  .next (s.regCmdAt (s.phaseGroup p.val).isSome sess .osar fun s => s.requestDisable p .operator)

/-- READMIT (R196, R209). -/
def execReadmit (sess : Fin 64) (p : Fin 64) (s : State) : Host.Outcome State Fault Refusal :=
  .next (s.regCmdAt (s.phaseGroup p.val).isSome sess .osar fun s => s.readmit p)

/-! Diode emulation (R174). -/

/-- DE_ENTERED: the cycle boundary after 16 ticks at or below DE_ENTER_MA, in a group the reference of R175 commands. -/
def execDeEntered (g : Fin 4) (s : State) : Host.Outcome State Fault Refusal :=
  .next (
    let gr := s.grp g
    if (gr.state = .softStart || gr.state = .running || gr.state = .stopping) && !gr.de && 16 ≤ gr.deTicks
        && s.deEnter g.val != 0 then
      (s.updGrp g fun x => { x with de := true, deExit := false }).ev 0x5050 (grpInst g.val)
    else s)

/-- DE_LEFT: the first cycle boundary after the reference has reached DE_EXIT_MA. -/
def execDeLeft (g : Fin 4) (s : State) : Host.Outcome State Fault Refusal :=
  .next (if (s.grp g).deExit then s.dropDe g else s)

/-! The undervoltage fast path (R192). -/

/-- A phase at the start of the fast path (R192): its present cycle ends, and one of DISCHARGE at PEAK_LIMIT starts, without
an offset. -/
def State.fastStart (s : State) (t : Nat) (p : Fin 64) : State :=
  let held := s.gatesOff p
  let cut := s.cut p t
  s.updPh p fun x =>
    { cut x with
      iPkCycle := s.peakLimit p.val, mode := .discharge, offset := 0, offsetFrom := 0, fpSteps := 4, due := []
      cyc := if held then none else some { onAt := t }
      edges := if held then x.edges else t :: x.edges }

/-- UV_FASTPATH: every active phase ends its cycle and starts one of DISCHARGE at PEAK_LIMIT at the instant `at_` after the
start of the tick in progress, without offsets: the turn-ons that were scheduled after it do not come, that one does (R102). -/
def execUvFastpath (g : Fin 4) (at_ : Nat) (s : State) : Host.Outcome State Fault Refusal :=
  .next (
    let gr := s.grp g
    let t := s.instant at_
    if gr.fpArmed && (gr.state = .softStart || gr.state = .running || gr.state = .basalt) then
      let s := (s.actives g).foldl (fun s p => s.fastStart t p) s
      (s.updGrp g fun x => { x with state := .fastPath, fpReturn := gr.state, fpAt := t, fpCount := bump 16 x.fpCount
                                    ons := insertAsc t (x.ons.filter fun u => decide (u < t))
                                    fpArmed := false, fpGood := 0 }).ev 0x5040 (grpInst g.val)
    else s)

/-- THROTTLE_REQUESTED: the bus is still low 4 us after the crossing, which come by the end of the tick in progress. -/
def execThrottleRequested (g : Fin 4) (s : State) : Host.Outcome State Fault Refusal :=
  .next (
    if (s.grp g).state = .fastPath && (s.clk.fabricStopped || decide ((s.grp g).fpAt + 160000 ≤ 80000 * (s.sys.tick + 1))) then
      s.requestThrottle g true
    else s)

/-- UV_FASTPATH_END: the bus voltage at the comparator, mV, lies above the threshold plus 5 V, or 20 us have passed: the
references return over four cycles and the offsets under R180. -/
def execUvFastpathEnd (g : Fin 4) (v : Int) (s : State) : Host.Outcome State Fault Refusal :=
  .next (
    let gr := s.grp g
    if gr.state = .fastPath && (decide (gr.fpThr + 5000 < v) || s.clk.fabricStopped
        || decide (gr.fpAt + fastMax ≤ 80000 * (s.sys.tick + 1))) then
      (s.fastEnd g).runningCheck
    else s)

/-! Synchronisation (R181). -/

/-- A group follows SYNC_IN: SYNC_EN is 1 and SYNC_IN_FUNC is PWM sync. -/
def State.follows (s : State) (g : Fin 4) : Bool := (s.grp g).syncEn && s.param 0x0002 0 = 1

/-- SYNC_SLEWING: 16 consecutive good edges, of the period given, 25 ps units: an edge is good within 10 % of the nominal
period. -/
def execSyncSlewing (g : Fin 4) (period : Nat) (s : State) : Host.Outcome State Fault Refusal :=
  .next (
    let gr := s.grp g
    if s.follows g && gr.state.switching && 10 * ((period : Int) - s.freePeriod g).natAbs ≤ s.freePeriod g
        && (gr.sync = .free || gr.sync = .hold || gr.sync = .returning) then
      let s := { s with clk := { s.clk with syncInActive := true } }
      s.updGrp g fun x => { x with sync := .slewing, syncPeriod := period, syncFrom := x.period }
    else s)

/-- Start of a frame of a locked group: its edge plus SYNC_PHASE T / 256 with the nominal T (R181), 25 ps units from
reset. -/
def State.lockedStart (s : State) (g : Fin 4) (edge : Nat) : Nat :=
  edge + divHEN ((s.grp g).syncPhase * s.freePeriod g) 256

/-- SYNC_LOCKED: the frame start lies within 25 ns of the edge, an instant in 25 ps units from reset, plus the offset, at the
edge frequency. -/
def execSyncLocked (g : Fin 4) (edge : Nat) (s : State) : Host.Outcome State Fault Refusal :=
  .next (
    let gr := s.grp g
    if s.lit && gr.sync = .slewing && gr.period = gr.syncPeriod
        && decide (((gr.frameStart : Int) - s.lockedStart g edge).natAbs ≤ 1000) then
      (s.updGrp g fun x => { x with sync := .locked }).ev 0x5060 (grpInst g.val)
    else s)

/-- SYNC_HOLDOVER: an edge missing twice in succession; the last locked period is kept. -/
def execSyncHoldover (g : Fin 4) (s : State) : Host.Outcome State Fault Refusal :=
  .next (
    if s.lit && (s.grp g).sync = .locked then
      let s := { s with clk := { s.clk with syncInActive := false } }
      (s.updGrp g fun x => { x with sync := .hold, syncHoldAt := s.sys.tick }).ev 0x5061 (grpInst g.val)
    else s)

/-- SYNC_RETURNING: HOLD_MS have elapsed; 0 is treated as 1 (R205). -/
def execSyncReturning (g : Fin 4) (s : State) : Host.Outcome State Fault Refusal :=
  .next (
    if s.lit && (s.grp g).sync = .hold && s.elapsed (s.grp g).syncHoldAt (500 * max 1 (s.grp g).holdMs) then
      s.updGrp g fun x => { x with sync := .returning, syncFrom := x.period }
    else s)

/-- SYNC_FREE_RUN: the period equals the free-running one. -/
def execSyncFreeRun (g : Fin 4) (s : State) : Host.Outcome State Fault Refusal :=
  .next (
    if s.lit && (s.grp g).sync = .returning && (s.grp g).period = s.freePeriod g then
      (s.updGrp g fun x => { x with sync := .free }).ev 0x5062 (grpInst g.val)
    else s)

/-- A period while the frequency moves from that of `from_` towards that of `to_` (R181): a free value between the present
one and the aim, with a step of at most 0.5 %/ms; `past` lets it lie up to 1 % beyond the aim, as the phase may need
(log entry 29). -/
def slewPeriod (free : Int) (past : Bool) (now from_ to_ : Nat) : Nat :=
  let d : Nat := now ^ 3 / (from_ * 8000000000)
  let lo : Nat := min now (if past then to_ * 100 / 101 else to_)
  let hi : Nat := max now (if past then to_ * 101 / 100 else to_)
  (clampI lo hi ((now : Int) - d + free % ((2 * d + 1 : Nat) : Int))).toNat

/-- The period of the frame that starts (R179, R181, R414). -/
def State.nextPeriod (s : State) (g : Fin 4) : State × Nat :=
  let gr := s.grp g
  if gr.basaltDrives then (s, 400000)
  else
    match gr.sync with
    | .free => (s, s.freePeriod g)
    | .locked | .hold => (s, gr.syncPeriod)
    | .slewing => (s.used, slewPeriod (Config.freeInt s.fv) true gr.period gr.syncFrom gr.syncPeriod)
    | .returning => (s.used, slewPeriod (Config.freeInt s.fv) false gr.period gr.syncFrom (s.freePeriod g))

/-- PWM_FRAME_START (R179 to R181): in LOCKED the frame follows `edge`, an instant in 25 ps units from reset; the first
frame starts with the tick in progress. A step of a re-interleave runs, and then the turn-ons of the frame are
scheduled: each phase takes its i_pk at its own turn-on (R175). A group taken by Basalt waits for Basalt's first
update. -/
def execPwmFrameStart (g : Fin 4) (edge : Option Nat) (s : State) : Host.Outcome State Fault Refusal :=
  .next (
    let gr := s.grp g
    if !s.lit || !gr.state.switching || (gr.state = .basalt && !gr.framing) then s
    else
      let (s, period) := s.nextPeriod g
      let start := if !gr.framing then 80000 * s.sys.tick
        else match gr.sync, edge with
          | .locked, some e => s.lockedStart g e
          | _, _ => gr.frameStart + gr.period
      let period := if gr.framing && gr.sync = .locked && edge.isSome && gr.frameStart < start then
          start - gr.frameStart else period
      let s := s.updGrp g fun x =>
        { x with framing := true, frameStart := start, period := period, frames := (start, period) :: x.frames
                 syncPeriod := if x.sync = .locked then period else x.syncPeriod }
      let s := if !gr.reinterleave || gr.state = .fastPath then s
        else if gr.reSteps < 3 then s.reStep g else s.reFinish g
      let s := (s.scheduleFrame g start).offWindowCheck g start
      if g.val = 0 && s.param 0x0003 0 = 1 then { s with sys := { s.sys with syncOut := true } } else s)

/-! The bus target (R182, R183). -/

/-- A new target: clamped into BUS_SET_MIN to BUS_SET_MAX; a change while v or a is non-zero is a re-plan (R183). -/
def State.setBus (s : State) (v : Int) : State :=
  let c := clampI (s.limit 5) (s.limit 4) v
  let moves := (s.pwm.profV != 0 || s.pwm.profA != 0) && c != s.pwm.busSet
  let s := { s with pwm := { s.pwm with busSet := c, clamped := c != v
                                        replans := if moves then bump 16 s.pwm.replans else s.pwm.replans } }
  let s := if c != v then s.ev 0x5071 else s
  if moves then s.ev 0x5070 else s

/-- PWM_BUS_SET (R182, R207). -/
def execPwmBusSet (sess : Fin 64) (v : BitVec 32) (s : State) : Host.Outcome State Fault Refusal :=
  .next (s.regCmd sess .osar fun s => s.setBus v.toInt)

/-! PSU ports (R197 to R201). -/

/-- The bytes of a command frame (R197): SEQ, ENABLE, ILIM, VSET and the CRC, least significant byte first. -/
def psuFrame (seq : Nat) (enable : Bool) (ilim : Int) (vset : Nat) : List Byte :=
  let l := leBytes 1 seq ++ leBytes 1 (bitAt enable 0) ++ leBytes 4 (codeS 32 ilim) ++ leBytes 4 vset
  l ++ leBytes 2 (crc16 l)

/-- A command frame on one port: the frame before it that had no answer counts as missing. A lost port and an
overvoltage trip send ENABLE 0 (R201, R405). -/
def State.psuSend (s : State) (p : Fin 16) : State :=
  if (s.psuRating p.val).isNone then s
  else
    let s := if (s.psuPort p).awaiting then s.psuMiss p else s
    let x := s.psuPort p
    let en := !x.lost && !s.prot.busOv
    let q := wrapU 8 (x.seq + 1)
    (s.updPsu p fun x => { x with seq := q, awaiting := true, enable := en, ilim := x.nextIlim, vset := x.nextVset }).send
      (.psu p.val (psuFrame q en x.nextIlim x.nextVset))

/-- PSU_COMMAND_FRAME (R197, R199): every 10 us one frame on every enabled port. -/
def execPsuCommandFrame (s : State) : Host.Outcome State Fault Refusal :=
  .next (
    if s.lit && s.cfg.activeValid && s.due 5 s.pwm.psuTick then
      (List.finRange 16).foldl State.psuSend { s with pwm := { s.pwm with psuTick := some s.sys.tick } }
    else s)

/-- A telemetry frame as its bytes give it (R197): its CRC passes over the bytes before it. -/
def psuFrameOk (f : List Byte) : Bool := f.length = 20 && leVal (bytesAt f 18 2) == crc16 (f.take 18)

/-- A telemetry frame that counts (R197, R201). -/
def State.psuTake (s : State) (p : Fin 16) (f : List Byte) : State :=
  let st := leVal (bytesAt f 1 1)
  let fault := tb st 1
  let w := fun (o n : Nat) => ofCode (8 * n) (leVal (bytesAt f o n))
  let s := s.updPsu p fun x =>
    { x with awaiting := false, missing := 0, clean := !fault, cleanAt := if x.clean && !fault then x.cleanAt else s.sys.tick, status := st % 16, inputOk := tb st 4
             offFrames := if !tb st 0 && x.enable then x.offFrames + 1 else 0
             v := w 2 4, i := w 6 4, p := w 10 4, temp := w 14 2, faultCode := leVal (bytesAt f 16 2) }
  if fault || 3 ≤ (s.psuPort p).offFrames then s.losePort p else s

/-- PSU_TELEMETRY (R197, R201): the bytes of a frame. One with a bad CRC, or whose SEQ is not that of the command frame
it follows, counts as missing. -/
def execPsuTelemetry (p : Fin 16) (f : List Byte) (s : State) : Host.Outcome State Fault Refusal :=
  .next (
    if !s.lit || (s.psuRating p.val).isNone then s
    else if !psuFrameOk f then
      (s.updPsu p fun x => { x with crcErrors := bump 16 x.crcErrors, awaiting := false }).psuMiss p
    else if leVal (bytesAt f 0 1) != (s.psuPort p).seq then (s.updPsu p fun x => { x with awaiting := false }).psuMiss p
    else s.psuTake p f)

/-- PSU_RESTORED (R201): 1 s of clean telemetry. -/
def execPsuRestored (p : Fin 16) (s : State) : Host.Outcome State Fault Refusal := .next (if s.lit && s.elapsed (s.psuPort p).cleanAt 500000 then s.restorePort p else s)

/-- RESTORE (R210). -/
def execRestore (sess : Fin 64) (p : Fin 16) (s : State) : Host.Outcome State Fault Refusal :=
  .next (s.regCmdAt (s.psuRating p.val).isSome sess .oa fun s => s.restorePort p)

end Sys2Proof.Machine
end

