-- ==== Sys2Proof/Machine/Loader.lean ====
section
/-! DEFINITION. The loader of bit-streams: the checks of R80, the swap (R82 to R86), the stored slots (R63, R87), the
guard of the active configuration (R81, R88, R417), and the firmware slots (R436 to R440). -/

namespace Sys2Proof.Machine

/-! The checks (R80). -/

/-- A check that ends the load where it fails. -/
def orFail {α : Type} (f : Option LoadFail) (k : Except LoadFail α) : Except LoadFail α :=
  match f with
  | some e => .error e
  | none => k

/-- The sections in force after a swap (R66): a FULL bit-stream's own, or those of a DELTA in place of the active
ones of their types. -/
def mergeSections (full : Bool) (active own : List Section) : List Section :=
  if full then own
  else (active.filter fun a => !own.any fun o => o.type = a.type) ++ own

/-- Steps 2 to 5: part, root key, signatures, rollback and base (R446, R62, R63, R66). -/
def State.headerChecks (s : State) (l : List Byte) : Option LoadFail :=
  let c := s.sec
  ((firstFail
    [(at32 l 0x08 != 0x00475A09, hdrFail cWrongPart 0x08), (!tb (at32 l 0x0C) s.sys.step, hdrFail cWrongPart 0x0C)
    , (decide (c.lifecycle = 3) || c.lifecycle = 4 || (c.lifecycle = 1 && !c.custRootSet), hdrFail cRoot 0x100)]).orElse
      fun _ => signatureFail l c.custRoot).orElse fun _ => firstFail
    [(decide (hRollback l < c.cfgCounter), hdrFail cRollback 0x24)
    , (decide (hKind l = 2) && (!s.cfg.activeValid || hBase l != s.cfg.activeDigest), hdrFail cBase 0x30)]

/-- The checks of R80 in their order, and what the loader keeps of a bit-stream that passes. Step 11 is left out
where a slot is loaded at boot, with no configuration active (R65), or reloaded (R417). -/
def State.checkImage (s : State) (l : List Byte) (step11 : Bool) : Except LoadFail Image :=
  orFail (formatFail l) <| orFail (s.headerChecks l) <| orFail (firstFail (sectionFails l)) <|
    let full : Bool := hKind l = 1
    let ds := directory l
    let ws := ds.map (walkSection l)
    let own := ws.map Walked.section_
    let c : Cand := { all := mergeSections full s.cfg.active own, own := own }
    orFail (c.structural ws) <| orFail c.resources <| orFail (c.limits (s.sys.state = .run) s.limit ds) <|
    orFail c.capacity <|
    orFail (if step11 then c.locked full s.cfg.activeValid s.sys.state s.limit ds else none) <|
    .ok { full := full, store := tb (hFlags l) 0, raiseRollback := tb (hFlags l) 1, rollback := hRollback l
          digest := imageDigest l, sections := own, raw := l }

/-- A failure in CFG_RESULT and event 0x2004. -/
def State.loadFailed (s : State) (f : LoadFail) : State :=
  (s.setResult f.code f.section_ f.rtype f.offset).ev 0x2004 noInst f.word

/-! What a swap does to the blocks (R84, R415). -/

/-- The Basalt image of one group (R415). -/
def State.basaltImage (s : State) (g : Fin 4) : Option BasaltImg :=
  if (s.grpRec g.val).isNone then none
  else
    let ch := fun (c : Nat) => (s.afe.ch[c]?).getD {}
    let ps := s.members g
    let vb := s.vbusCh g
    let vs := s.vstrCh g
    some { phases := ps.map (·.val), peakLimits := ps.map fun p => s.peakLimit p.val
           slopeDacs := ps.map fun p => s.slopeDac p.val, phPeak := s.phPeak g, rippleHalf := s.ripple g
           deadtime := 50 * ceilDiv (s.deadtime g) 50
           vbusCh := vb, vbusOfs := (ch vb).calOfs, vbusGain := (ch vb).calGain
           vbusScale := ((s.grpRec g).map fun r => r.s32 0x2C).getD 0
           vstrCh := vs, vstrOfs := (ch vs).calOfs, vstrGain := (ch vs).calGain
           vstrScale := ((s.grpRec g).map fun r => r.s32 0x28).getD 0, vshift := s.grpVal g fun r => r.u8 0x16 }

/-- The image is written at every swap. -/
def State.writeImage (s : State) : State :=
  { s with prot := { s.prot with image := Vector.ofFn s.basaltImage, imageOk := true } }

/-- A slot's coefficients in its bank in force have changed (R151). -/
def State.coefChanged (s old : State) (i : Fin 64) : Bool :=
  let bank := if (s.slot i).altBank then 1 else 0
  match s.slotRec i.val with
  | some r => (List.range r.sections).any fun j => s.coef i.val j bank != old.coef i.val j bank
  | none => false

/-- COEFF: states and bank stay, and a slot whose coefficients change passes to them by a transfer (R84, R151). -/
def State.swapCoeff (s old : State) : State :=
  (List.finRange 64).foldl (fun s i =>
    if s.coefChanged old i then s.updSlot i fun x => { x with transfer := true } else s) s

/-- ESTIMATOR: a rest whose REST_S now lies behind its tr takes its reading at once (R353), the registers RESERVE_GRID loads
(R354), and the learnt capacity and resistance of a string whose
CAP_MAH or R0_UOHM changes restart at it (DESIGN CHOICE, log entry 37). -/
def State.swapEstimator (s old : State) : State :=
  let s := match (s.recs 0x0804).head? with
    | none => s
    | some r =>
      { s with est := { s.est with
          seconds := defOf (r.u16 0x08) 30, ovlS := defOf (r.u16 0x0A) 60, ratedKw := r.u16 0x0C, ramp := defOf (r.u16 0x0E) 200
          amax := defOf (r.u8 0x10) 100, jmax := defOf (r.u8 0x11) 100, capStep := defOf (r.u16 0x18) 2000
          ovlAvgS := defOf (r.u8 0x1A) 10 } }
  let s := ((List.finRange 4).filter s.restBehind).foldl State.eclipseReading s
  (List.finRange 4).foldl (fun s i =>
    match s.strRec i.val with
    | none => s
    | some r =>
      let was := fun (o : Nat) => (old.strRec i.val).map fun q => q.u32 o
      let s := if was 0x10 = some (r.u32 0x10) then s else s.updStr i fun x => { x with cap := r.u32 0x10 * 65536 }
      if was 0x14 = some (r.u32 0x14) then s
      else s.updStr i fun x => { x with r0 := fOfInt (r.u32 0x14), r0n := 0, outliers := 0 }) s

/-- CHAIN: the rings that were up, or FAILED, are checked again against their new records (R303). -/
def State.swapChain (s : State) : State :=
  ((List.finRange 4).foldl (fun s c =>
    if (s.ring c).state.up || (s.ring c).state = .failed then
      s.updRing c fun r => { r with state := .enumerated, sweep := none, sweepDue := none, started := false
                                    node := mapV r.node fun _ x => { x with configured := false } }
    else s) s).ringsCheck.armCheck

/-- PARAM: the reference of R39, and membership of the ring ends with a new rack or shelf number (R391). The grants that name
them go out with `State.swapBlocks` (R254). -/
def State.swapParam (s old : State) : State :=
  let s := s.selectRef (s.param 0x0001 0 = 1)
  if s.rackId != old.rackId || s.shelfIndex != old.shelfIndex then s.unjoin else s

/-- EVENT_RATE: every bucket starts full (R84); the occurrences suppressed so far stay counted (R473). -/
def State.swapRates (s : State) : State :=
  { s with evr := { s.evr with buckets := s.evr.buckets.map fun (b : Bucket) =>
      { b with tokens := (s.bucketCfg b.code).1 * tokenUnit, tick := s.sys.tick } } }

/-- What every carried kind of section asks for (R84). -/
def State.swapBlocks (s old : State) (full : Bool) (carried : Nat → Bool) : State :=
  let s := if carried 12 || full then s.swapRates else s
  let s := if carried 1 then s.swapParam old else s
  let s := if carried 5 then s.swapCoeff old else s
  let s := if carried 6 then s.phasesActivate.psusActivate else s
  let s := if carried 7 then s.swapChain else s
  let s := if carried 8 then s.swapEstimator old else s
  let s := if carried 9 || carried 10 || full then s.modelSwap old.modelRecs else s
  let s := if carried 11 then s.portsActivate old else if carried 1 then s.regrant old else s
  if carried 13 then (s.setBus s.pwm.busSet).judgeLimits else s

/-- LIMITs in force (R75, R78). -/
def limitsOf (l : List Section) : Vector Int 10 :=
  Vector.ofFn fun k => match (recsOf l 0x0D01).find? fun r => r.u16 8 = k.val + 1 with
    | some r => r.s32 12
    | none => State.limitDefault[k.val]

/-! Stored slots. -/

/-- The bytes of stored slot A (0) or B (1). -/
def State.cfgSlot (s : State) (b : Bool) : Option (List Byte) := if b then s.cfg.slotB else s.cfg.slotA

/-- The active configuration differs from the boot slot (R89). -/
def State.unstoredNow (s : State) : Bool :=
  match s.cfg.bootMark with
  | 1 => s.cfg.slotA.map imageDigest != some s.cfg.activeDigest
  | 2 => s.cfg.slotB.map imageDigest != some s.cfg.activeDigest
  | _ => true

/-- The mirror of the safe envelopes is written (R263). -/
def State.writeMirror (s : State) (sections : List Section) (digest : List Byte) : State :=
  { s with tlk := { s.tlk with mirror := some (recsOf sections 0x0B01 ++ recsOf sections 0x0B03)
                               mirrorDigest := some digest } }

/-- The firmware counter follows an image that carries RAISE_ROLLBACK and reaches STANDBY on its first boot
(R440). -/
def State.raiseFirmware (s : State) : State :=
  if s.sec.fwRaise then
    let s := { s with sec := { s.sec with fwRaise := false } }
    if s.sec.fwCounter < s.sec.fwRollback then
      { s with sec := { s.sec with fwCounter := s.sec.fwRollback } }.ev 0x1020
    else s
  else s

/-! The swap. -/

/-- The sections of a checked bit-stream replace the active ones, at the start of tick `n` (R83, R84). -/
def State.takeSections (s : State) (im : Image) (n : Nat) : State :=
  let secs := mergeSections im.full s.cfg.active im.sections
  { s with cfg := { s.cfg with
    active := secs, activeValid := true, limitEff := limitsOf secs, lastSwapTick := n
    activeRollback := im.rollback, activeDigest := im.digest } }

/-- UNSTORED and the write of a slot that follows a swap (R87, R89): a write that is still to be done stays. -/
def State.noteStore (s : State) (im : Image) : State :=
  { s with cfg := { s.cfg with unstored := s.unstoredNow
                               storePending := s.cfg.storePending ++ if im.full && im.store then [im] else [] } }

/-- In BOOT the module passes to STANDBY once a configuration is active (R86, R441). -/
def State.leaveBoot (s : State) : State :=
  if s.sys.state = .boot then (s.setState .standby).ringsCheck.raiseFirmware else s

/-- A checked bit-stream replaces the active sections at the start of tick `n` (R83, R84), and in BOOT the module passes to
STANDBY. -/
def State.applyImage (s : State) (im : Image) (n : Nat) : State :=
  (((((((s.takeSections im n).setResult 0x01).ev 0x2003).swapBlocks s im.full
    fun t => im.sections.any fun x => x.type = t).writeImage).writerStart).noteStore im).leaveBoot

/-- A bit-stream that stands in a stored slot is made active, and is not stored again: the mirror follows where it comes
from another one (R263), and UNSTORED is 0. -/
def State.applySlot (s : State) (im : Image) : State :=
  let s := s.applyImage { im with store := false } s.sys.tick
  let s := { s with cfg := { s.cfg with unstored := false } }
  if s.tlk.mirrorDigest = some im.digest then s else s.writeMirror im.sections im.digest

/-- One stored slot is checked: a failure is recorded with event 0x2004. A slot that holds nothing fails step 1
(DEDUCED, log entry 77). -/
def State.trySlot (s : State) (b : Bool) : State × Option Image :=
  match s.checkImage ((s.cfgSlot b).getD []) false with
  | .ok im => (s, some im)
  | .error f => (s.loadFailed f, none)

/-- The boot slot, then the other one (R87): `fail2` is what both failing records. -/
def State.loadSlots (s : State) (ok : State → Bool → State) (fail2 : Nat) : State :=
  let first : Bool := s.cfg.bootMark = 2
  match s.trySlot first with
  | (s, some im) => ok (s.applySlot im) first
  | (s, none) =>
    let s := s.ev 0x2010 noInst (if first then 1 else 0)
    match s.trySlot (!first) with
    | (s, some im) => ok (s.applySlot im) (!first)
    | (s, none) => s.ev fail2

/-- BOOT_CONFIG_LOAD (R87). -/
def execBootConfigLoad (s : State) : Host.Outcome State Fault Refusal :=
  .next (
    if s.lit && s.sys.state = .boot && s.sec.fwRunning && !s.cfg.activeValid && s.cfg.bootSlot = 0 then
      s.loadSlots (fun s b => { s with cfg := { s.cfg with bootSlot := if b then 2 else 1 } }) 0x2011
    else s)

/-- CONFIG_RELOADED (R417): the reload and the CRC sweep that passes after it. Once both slots have failed the cause
stays until a reset. -/
def execConfigReloaded (s : State) : Host.Outcome State Fault Refusal :=
  .next (
    if s.lit && s.prot.causes[1] && !s.prot.reloadFailed then
      let t := s.loadSlots (fun s _ => (s.ev 0xB006).causeClear 1) 0xB007
      if t.prot.causes[1] then { t with prot := { t.prot with reloadFailed := true } } else t
    else s)

/-! The shadow (R80 to R82, R90). -/

/-- SHADOW_READY (R80): the checks of a pushed bit-stream complete. -/
def execShadowReady (s : State) : Host.Outcome State Fault Refusal :=
  .next (
    if !s.lit || s.cfg.shadowState != .checking then s
    else
      match s.checkImage s.cfg.staging true with
      | .ok im =>
        (({ s with cfg := { s.cfg with shadowState := .ready, shadow := some im, staging := []
                                       shadowDigest := im.digest } }).setResult 0x02).ev 0x2002
      | .error f =>
        ({ s with cfg := { s.cfg with shadowState := .rejected, shadow := none, staging := [] } }).loadFailed f)

/-- The shadow, or an open load, is given up: SHADOW is EMPTY and the push closed, with event 0x2005 (R90, R94). -/
def State.dropShadow (s : State) : State :=
  { s with cfg := { s.cfg with shadowState := .empty, shadow := none, staging := [], push := none } }.ev 0x2005

/-- CFG_CTRL.DISCARD (R90). A REJECTED shadow becomes EMPTY without event 0x2005 (log entry 99). -/
def State.discard (s : State) : State :=
  let s := s.cancelSwap
  match s.cfg.shadowState with
  | .empty => s
  | .rejected => { s with cfg := { s.cfg with shadowState := .empty } }
  | _ => s.dropShadow

/-- DISCARD (R90). -/
def execDiscard (sess : Fin 64) (s : State) : Host.Outcome State Fault Refusal :=
  .next (s.regCmd sess .ix State.discard)

/-- SHADOW_ECC (R81): the error lies in SRAM and counts there (R456, R460). -/
def execShadowEcc (s : State) : Host.Outcome State Fault Refusal :=
  .next (if s.cfg.shadowState = .ready then ((s.eccLost 0).cancelSwap.setResult 0x51).dropShadow else s)

/-- CFG_SWAP_TICK_LO is held until _HI commits both halves (R503). -/
def State.swapTickLo (s : State) (v : Nat) : State := { s with cfg := { s.cfg with swapTickLo := some v } }
/-- CFG_SWAP_TICK_HI commits. -/
def State.swapTickHi (s : State) (v : Nat) : State :=
  let lo := s.cfg.swapTickLo.getD (s.cfg.swapTick % 2 ^ 32)
  { s with cfg := { s.cfg with swapTick := v * 2 ^ 32 + lo, swapTickLo := none } }

/-- CFG_SWAP_TICK (R503): the write of one half. -/
def execCfgSwapTick (sess : Fin 64) (hi : Bool) (v : BitVec 32) (s : State) : Host.Outcome State Fault Refusal :=
  .next (s.regCmd sess .ix fun s => if hi then s.swapTickHi v.toNat else s.swapTickLo v.toNat)

/-- CFG_CTRL.SWAP (R82, R85): ignored where SHADOW is not READY, in BASALT, or with a swap pending (log entry 100). -/
def State.requestSwap (s : State) : State :=
  if s.cfg.shadowState = .ready && s.cfg.swapPending.isNone && s.sys.state != .basalt then
    let t := s.sys.tick + 2
    { s with cfg := { s.cfg with swapPending := some (if t ≤ s.cfg.swapTick then s.cfg.swapTick else t) } }
  else s

/-- SWAP (R82). -/
def execSwap (sess : Fin 64) (s : State) : Host.Outcome State Fault Refusal :=
  .next (s.regCmd sess .ix State.requestSwap)

/-- The swap at the start of tick `n` (R83, R85), where it is due there. Step 11 is repeated against the state in force; in
BASALT the swap is cancelled and the shadow stays READY. -/
def State.swapAt (s : State) (n : Nat) : State :=
  match s.cfg.swapPending, s.cfg.shadow with
  | some d, some im =>
    if n < d then s
    else if s.sys.state = .basalt then s.cancelSwap
    else
      let c : Cand := { all := im.sections, own := im.sections }
      match c.locked im.full s.cfg.activeValid s.sys.state s.limit (directory im.raw) with
      | some f =>
        (((s.cancelSwap).setResult f.code f.section_ f.rtype f.offset)).dropShadow
      | none =>
        ({ s with cfg := { s.cfg with swapPending := none, shadow := none, shadowState := .empty } }).applyImage im n
  | _, _ => s

/-- SWAPPED (R83): the tick about to begin is N. Its TICK swaps at its start where this has not been run (log entry
101). -/
def execSwapped (s : State) : Host.Outcome State Fault Refusal :=
  .next (if s.lit then s.swapAt (s.sys.tick + 1) else s)

/-- STORED (R63, R87, R263): the slot that does not hold the boot copy takes the bit-stream and becomes the boot
slot. The boot copy is that of the slot marked, whichever was loaded (log entry 144). -/
def execStored (s : State) : Host.Outcome State Fault Refusal :=
  .next (
    match s.cfg.storePending with
    | [] => s
    | im :: rest =>
      if !s.lit then s
      else
      let b : Bool := s.cfg.bootMark = 1
      let c := s.cfg
      let s := { s with cfg := { c with
        slotA := if b then c.slotA else some im.raw, slotB := if b then some im.raw else c.slotB
        bootMark := if b then 2 else 1, storePending := rest, unstored := im.digest != c.activeDigest } }
      let s := (s.writeMirror im.sections im.digest).ev 0x2012
      if im.raiseRollback && s.sec.cfgCounter < im.rollback then
        { s with sec := { s.sec with cfgCounter := im.rollback } }.ev 0x2030
      else s)

/-! The guard of the active configuration (R88). -/

/-- CONFIG_ECC_CORRECTED (R88): the symbol lies in SRAM and counts there (R456, R459). -/
def execConfigEccCorrected (s : State) : Host.Outcome State Fault Refusal :=
  .next (
    if s.lit && s.cfg.activeValid then
      ({ s with cfg := { s.cfg with eccCorr := bump 32 s.cfg.eccCorr } }.ev 0x2020).eccFixed 0
    else s)

/-- A configuration fault (R88): event 0x2021 and the cause of R411. -/
def State.configFault (s : State) : State :=
  (({ s with cfg := { s.cfg with fault := true } }).ev 0x2021).basaltCause 1

/-- CONFIG_CRC_SWEEP (R88): `ok` tells that every CRC matches. -/
def execConfigCrcSweep (ok : Bool) (s : State) : Host.Outcome State Fault Refusal :=
  .next (if s.lit && s.cfg.activeValid && !ok then s.configFault else s)

/-! Firmware (R436 to R440). -/

/-- The image in a firmware slot. -/
def State.fwImage (s : State) (b : Bool) : Option (List Byte) := if b then s.sec.fwSlotBImg else s.sec.fwSlotAImg

/-- The step of R436 at which an image fails, 0 for none; a slot that holds nothing fails at step 1. -/
def State.fwStep (s : State) (l : Option (List Byte)) : Nat :=
  match l with
  | none => 1
  | some l => firmwareStep l s.sys.step (sha384 s.sec.vendorKeys) s.sec.fwCounter

/-- A slot fails verification: event 0x1002 (R436, R508). -/
def State.fwSlotFailed (s : State) (b : Bool) (step : Nat) : State :=
  { s with sec := { s.sec with fwResult := step } }.ev 0x1002 noInst (step + if b then 256 else 0)

/-- The firmware of a slot starts (R436, R440, R453): `keys` tells that the identity keys pass their self-test. -/
def State.fwStart (s : State) (b fallback keys : Bool) : State :=
  let l := (s.fwImage b).getD []
  let c := s.sec
  { s with sec := { c with
      fwRunning := true, fwSlotB := b, fwFallback := fallback, fwDigest := imageDigest l, fwRollback := hRollback l
      fwRaise := tb (hFlags l) 1 && (if b then c.fwNewB else c.fwNewA)
      fwNewA := c.fwNewA && b, fwNewB := c.fwNewB && !b, identityOk := c.identityKeys && keys } }.ev 0x1001

/-- FW_VERIFIED (R436, R437): the slot the fused flag names, then the other; both failing, recovery. -/
def execFwVerified (keys : Bool) (s : State) : Host.Outcome State Fault Refusal :=
  let b := s.sec.bootSlotB
  .next (
    if !s.lit || s.sys.state != .boot || s.sec.fwRunning || s.sec.recovery then s
    else
      let n := s.fwStep (s.fwImage b)
      if n = 0 then s.fwStart b false keys
      else
        let s := s.fwSlotFailed b n
        let m := s.fwStep (s.fwImage !b)
        if m = 0 then s.fwStart (!b) true keys
        else
          let s := (s.fwSlotFailed (!b) m).ev 0x1003
          { s with sec := { s.sec with recovery := true } })

/-- FW_STAGED (R437, R439): the image with the firmware loader passes, and is written to the slot that does not run,
or fails with event 0x1011. In recovery it goes to slot A and a WARM reset follows. -/
def execFwStaged (s : State) : Host.Outcome State Fault Refusal :=
  .next (
    match s.sec.fwPending with
    | none => s
    | some l =>
      if !s.lit then s
      else
      let s := { s with sec := { s.sec with fwPending := none } }
      let b := !s.sec.recovery && !s.sec.fwSlotB
      let n := s.fwStep (some l)
      let c := s.sec
      if n != 0 then
        { s with sec := { c with fwResult := n } }.ev 0x1011 noInst (n + if b then 256 else 0)
      else
        let s := { s with sec := { c with
          fwSlotAImg := if b then c.fwSlotAImg else some l, fwSlotBImg := if b then some l else c.fwSlotBImg
          fwNewA := !b || c.fwNewA, fwNewB := b || c.fwNewB, fwStaged := true, stagedDigest := imageDigest l } }
        let s := s.ev 0x1010
        if c.recovery then (({ s with sec := { s.sec with fwStaged := false, bootSlotB := false } }).doReset 2) else s)

/-- SEC_FW_CTRL.DISCARD (R454): the staged image is removed. -/
def State.fwDiscard (s : State) : State :=
  let c := s.sec
  if c.fwStaged then
    { s with sec := { c with
        fwStaged := false, fwSlotAImg := if c.fwSlotB then none else c.fwSlotAImg
        fwSlotBImg := if c.fwSlotB then c.fwSlotBImg else none } }
  else s

/-- FW_DISCARD (R454). -/
def execFwDiscard (sess : Fin 64) (s : State) : Host.Outcome State Fault Refusal :=
  .next (s.regCmd sess .ix State.fwDiscard)

/-- READY sets once the link and HBM are up, in recovery with the link alone, and stays (R383, R434, R437). -/
def State.readyCheck (s : State) : State :=
  if s.net.linkUp && (s.sec.hbmUp || s.sec.recovery) then { s with net := { s.net with ready := true } } else s

/-- NET_READY (R383, R434): HBM is trained. -/
def execNetReady (s : State) : Host.Outcome State Fault Refusal :=
  .next (
    if s.power.powered && !s.power.inputLoss && s.sec.fwRunning then
      ({ s with sec := { s.sec with hbmUp := true } }).readyCheck
    else s.readyCheck)

end Sys2Proof.Machine
end

