-- ==== Sys2Proof/Machine/Tray.lean ====
section
/-! DEFINITION. The commands of the tray links (08_tray_links.md). -/

namespace Sys2Proof.Machine

/-- TRAY_PORTS_UP (R263, R388): 5 ms after t0 the link hardware brings the ports up, and row-ring
forwarding starts. -/
def execTrayPortsUp (s : State) : Host.Outcome State Fault Refusal :=
  .next (if s.lit then { s with tlk := { s.tlk with portsUp := true }, net := { s.net with forwarding := true } } else s)

/-- NOT_READY_GRANT (R263): before a configuration is active the hardware answers an IDENT, and repeats
every 100 us, with a NOT_READY grant from the mirror. -/
def execNotReadyGrant (n : Fin 64) (s : State) : Host.Outcome State Fault Refusal :=
  .next (if s.tlk.portsUp && !s.cfg.activeValid && (s.port n).state = .notReady && s.elapsed (s.port n).sentTick 50 then s.sendGrant n else s)

/-- LINK_UP (R262, R263): block lock is gained, once the ports are up. -/
def execLinkUp (n : Fin 64) (s : State) : Host.Outcome State Fault Refusal :=
  let p := s.port n
  if p.linked || p.debouncing || !s.tlk.portsUp then .next s
  else if p.state = .unused then .next (s.updPort n fun p => { p with linked := true })
  else
    let s := s.updPort n fun p =>
      { p with linked := true, reportTick := s.sys.tick, state := if p.state = .down then .identifying else p.state }
    .next ((s.ev 0x7001 n.val).sendGrant n)

/-- LINK_DOWN (R262): with zero envelope at this shelf the port goes DOWN, LOCKED staying LOCKED; otherwise
it debounces. -/
def execLinkDown (n : Fin 64) (s : State) : Host.Outcome State Fault Refusal :=
  let p := s.port n
  if !p.linked then .next s
  else if p.state = .unused then .next (s.updPort n fun p => { p with linked := false })
  else if p.granting then .next (s.updPort n fun p => { p with linked := false, debouncing := true, debTick := s.sys.tick })
  else
    let s := s.updPort n fun p =>
      { p.unlink with state := if p.state = .locked then .locked else .down }
    .next ((s.unserve n).ev 0x7002 n.val).settle

/-- LINK_GLITCH (R262): the link is back within 20 us. -/
def execLinkGlitch (n : Fin 64) (s : State) : Host.Outcome State Fault Refusal :=
  if (s.port n).debouncing && s.sys.tick ≤ (s.port n).debTick + 10 then
    .next ((s.updPort n fun p => { p with linked := true, debouncing := false }).ev 0x7005 n.val)
  else .next s

/-- The newest frames lose a removed tray's last report (R218). -/
def State.frameDrop (s : State) (p : Nat) : State :=
  let dropf := fun (f : Frame) => { f with lhat := f.lhat.map fun x => sat32 (x - p) }
  { s with fce := { s.fce with short := dropf s.fce.short, shortPrev := dropf s.fce.shortPrev, long := dropf s.fce.long } }

/-- SURPRISE_REMOVAL (R283, R218): 20 us after the loss the port locks, and the tray leaves the sums, the entries, the occupancy
and the forecast frames. -/
def execSurpriseRemoval (n : Fin 64) (s : State) : Host.Outcome State Fault Refusal :=
  let p := s.port n
  if p.debouncing && s.elapsed p.debTick 10 then
    let s := if s.primaryTray n then s.frameDrop ((p.report.map Report.pTotal).getD 0) else s
    let s := s.updPort n fun p =>
      { p.unlink with state := .locked, debouncing := false, target := 0, lowered := false }
    .next ((((s.purgeTray n).degrade).ev 0x7040 n.val).syncOverShare).settle
  else .next s

/-- What a valid IDENT carries is stored (R258). -/
def State.noteIdent (s : State) (n : Fin 64) (f : Sys2Proof.IdentFrame) : State :=
  (s.updPort n fun p =>
    { p with vendor := wrapU 32 f.vendor, serial := bytesAt f.serial 0 12, pMax := wrapU 16 f.pMax
             floorMin := wrapU 16 f.floorMin, slopeMax := wrapU 16 f.slopeMax }).ev 0x7003 n.val

/-- IDENT (R258, R262, R283): a valid one carries VERSION 1 and both capabilities. -/
def execIdent (n : Fin 64) (f : Sys2Proof.IdentFrame) (s : State) : Host.Outcome State Fault Refusal :=
  let p := s.port n
  if !p.linked || !s.tlk.portsUp || p.state = .unused || f.version != 1 || !f.fixedFreqCap || !f.subCapsCap then .next s
  else
    let s := s.noteIdent n f
    if p.state = .identifying || p.state = .locked || p.state = .drained then
      let s := if p.state = .locked then s.ev 0x7041 n.val else s
      .next (((s.enterAfresh n).sendGrant n).tryPort n)
    else .next (s.sendGrant n)

/-- The report of a frame. -/
def reportOf (f : Sys2Proof.ReportFrame) : Report :=
  { throttled := f.throttled, fixedFreq := f.fixedFreq, primaryUp := f.primaryUp, secondaryUp := f.secondaryUp
    rackHoldSeen := f.rackHoldSeen, grantFrom := f.grantFrom, phase := f.phase % 4, gseq := wrapU 16 f.gseq
    sampleT := wrapU 64 f.sampleT, pTotal := wrapU 32 f.pTotal, pCompute := wrapU 32 f.pCompute
    pMemory := wrapU 32 f.pMemory, pLinks := wrapU 32 f.pLinks, envInForce := wrapU 16 f.envInForce
    floorMin := wrapU 16 f.floorMin, temp := ofCode 16 f.temp, rseq := wrapU 16 f.rseq }

/-- E of R265 in mW: ENVELOPE, FLOOR_MIN, or what the tray may still hold while it falls. -/
def Port.envAllowed (p : Port) (g : Grant) (r : Report) : Int :=
  let fallen : Int := match p.lowerAck with
    | some t => 1000 * (p.lowerP : Int) - g.fall * ((r.sampleT : Int) - t - 4000)
    | none => 0
  max (max (10000 * (g.envelope : Int)) (1000 * (r.floorMin : Int))) fallen

/-- The envelope check of one report (R265): whether it lies above E and its tolerance. -/
def State.aboveEnv (s : State) (p : Port) (r : Report) : Bool :=
  match p.inForce with
  | none => false
  | some g => decide (p.envAllowed g r * (100 + s.pol8 0x18 5) < 100000 * (r.pTotal : Int))

/-- The fall check is suspended from the first THROTTLE to the end of the RELEASE delay (R265). -/
def Port.fallExempt (p : Port) (t : Nat) : Bool :=
  (match p.thrFrom with
    | none => false
    | some a => decide (a ≤ t) && p.relEnd.all fun e => decide (t ≤ e))
  || p.thrPast.any fun x => decide (x.1 ≤ t) && decide (t ≤ x.2)

/-- The slope checks of two consecutive reports (R265), scaled by 100,000. -/
def State.slopeBroken (s : State) (p : Port) (r1 r2 : Report) : Bool :=
  match p.inForce with
  | none => false
  | some g =>
    let dt : Int := (r2.sampleT : Int) - r1.sampleT
    let tol : Int := 100 + s.pol8 0x19 25
    let dp : Int := (r2.pTotal : Int) - r1.pTotal
    decide (g.rise * dt * tol + 10000000 < 100000 * dp)
      || (!p.fallExempt r2.sampleT && decide (g.fall * dt * tol + 10000000 < -100000 * dp))

/-- A failed check (R265): the port is marked and, with STRICT, throttled alone. -/
def State.nonCompliant (s : State) (n : Fin 64) : State :=
  let s := (s.updPort n fun p =>
    { p with nonComplLatch := true, badTick := s.sys.tick, errCompl := bump 8 p.errCompl }).ev 0x7030 n.val
  if s.pol8 0x1A 0 = 1 then s.throttlePort n 6 else s

/-- The checks of R265 on a report of a port whose grant the tray obeys; others break a run of reports above the
envelope. -/
def State.checkReport (s : State) (n : Fin 64) (r : Report) : State :=
  let p := s.port n
  if p.granting then
    let above := s.aboveEnv p r
    let bad := (above && 1 ≤ p.overEnv) || (match p.report with
      | some r1 => s.slopeBroken p r1 r
      | none => false)
    let s := s.updPort n fun p =>
      { p with overEnv := if above then p.overEnv + 1 else 0, nonCompliant := bad
               badTick := if above then s.sys.tick else p.badTick }
    if bad then s.nonCompliant n else s
  else s.updPort n fun p => { p with overEnv := 0 }

/-- A port with a report stored (R257, R265, R284). -/
def Port.noteReport (p : Port) (r : Report) (missing tick : Nat) : Port :=
  { p with
    report := some r, lastPrimaryUp := r.primaryUp, lastP := r.pTotal, floorMin := r.floorMin, reportStale := false
    missed := 0, reportTick := tick, errMissed := satU 8 (p.errMissed + missing)
    primaryDown := if r.primaryUp then 0 else p.primaryDown + 1
    lowReports := if p.state = .draining && decide (100 * r.pTotal ≤ 105 * r.floorMin) then p.lowReports + 1
      else p.lowReports }

/-- A report is checked and stored; in RUN it is one the Comet term can use. -/
def State.takeReport (s : State) (n : Fin 64) (r : Report) (missing : Nat) : State :=
  let s := (s.checkReport n r).updPort n fun p => p.noteReport r missing s.sys.tick
  if s.sys.state = .run then { s with loop := { s.loop with reportSeen := true } } else s

/-- A taken-over tray is granted by its primary again (R282): the port returns to WATCH. -/
def State.giveBack (s : State) (n : Fin 64) : State :=
  let s := s.updPort n fun p => { p.leave .watch with primaryDown := 0 }
  (((s.unserve n).ev 0x7051 n.val).sendGrant n).syncOverShare

/-- REPORT (R257, R262, R265, R280, R282): `missing` reports have failed to arrive before it. -/
def execReport (n : Fin 64) (f : Sys2Proof.ReportFrame) (missing : Nat) (s : State) :
    Host.Outcome State Fault Refusal :=
  let p := s.port n
  if !p.linked || p.state = .unused || p.state = .down then .next s
  else
    let r := reportOf f
    let s := s.takeReport n r missing
    if p.state = .watch && 2 ≤ (s.port n).primaryDown then .next (s.takeOverLatest n)
    else if p.state = .takenOver && !r.grantFrom then .next (s.giveBack n)
    else .next s

/-- REPORT_STALE (R265): three consecutive reports of the 10 us grid are missing. -/
def execReportStale (n : Fin 64) (s : State) : Host.Outcome State Fault Refusal :=
  let p := s.port n
  if p.linked && p.state != .unused && p.state != .down && !p.reportStale && s.elapsed p.reportTick 15 then
    .next ((s.updPort n fun p =>
      { p with reportStale := true, missed := 3, errMissed := satU 8 (p.errMissed + 3) }).ev 0x7031 n.val)
  else .next s

/-- ACK (R256, R264): the grant answered takes force, and its envelope alone counts. -/
def execAck (n : Fin 64) (gseq : BitVec 16) (result : Fin 3) (s : State) : Host.Outcome State Fault Refusal :=
  let p := s.port n
  match p.unacked.find? fun g => g.gseq = gseq.toNat with
  | none => .next s
  | some g =>
    let lowered := match p.inForce with
      | some o => decide (g.envelope < o.envelope)
      | none => false
    let s := s.updPort n fun p =>
      { p with
        inForce := some g, gseqAck := g.gseq, floorUnreachable := result = 1
        unacked := p.unacked.takeWhile fun x => x.gseq != g.gseq
        ackTries := if p.sent = some g then 0 else p.ackTries
        lowerAck := if lowered then some s.sys.timeNs else p.lowerAck
        lowerP := if lowered then (p.report.map Report.pTotal).getD 0 else p.lowerP }
    .next (if result = 0 then s else s.ev 0x7011 n.val).syncOverShare

/-- GRANT_RESEND (R264): 4 us, and 8 us, after it first left, the grant goes out again. -/
def execGrantResend (n : Fin 64) (s : State) : Host.Outcome State Fault Refusal :=
  let p := s.port n
  match p.sent with
  | some g =>
    if p.linked && (p.ackTries = 1 || p.ackTries = 2) && s.elapsed p.sentTick (2 * p.ackTries) then
      .next ((({ s with tlk := { s.tlk with grantsSent := wrapU 32 (s.tlk.grantsSent + 1) } }.updPort n
        fun p => { p with ackTries := p.ackTries + 1 })).send (.tlk n.val g.frame))
    else .next s
  | none => .next s

/-- GRANT_TIMEOUT (R264): three transmissions go unacknowledged, the last of them for 4 us as the others (log entry 118). -/
def execGrantTimeout (n : Fin 64) (s : State) : Host.Outcome State Fault Refusal :=
  if (s.port n).ackTries = 3 && s.elapsed (s.port n).sentTick 6 then
    .next ((s.updPort n fun p => { p with ackTries := 0, errAck := bump 8 p.errAck }).ev 0x7010 n.val)
  else .next s

/-- GRANT_REFRESH (R254, R255): the grant is sent anew, with a new GSEQ and EXPIRY. -/
def execGrantRefresh (n : Fin 64) (s : State) : Host.Outcome State Fault Refusal := .next (s.sendGrant n)

/-- TIME (R254, R258): a TIME frame on every linked port, every 100 us. -/
def execTime (s : State) : Host.Outcome State Fault Refusal :=
  .next (
    if !s.due 50 s.tlk.timeTick then s
    else (s.portsWhere Port.carriesSets).foldl (fun s n => s.send (.tlk n.val (timeFrame s.sys.timeNs)))
      { s with tlk := { s.tlk with timeTick := some s.sys.tick } })

/-! The schedule table. -/

/-- An entry names one tray for the same T and KIND (R267). -/
def Entry.clashes (e x : Entry) (bit : Nat) : Bool := tb e.mask bit && e.t = x.t && e.kind = x.kind

/-- The checks of R267 before the table's room, in order: STATUS and REASON of the first that fails. -/
def State.schedCheck (s : State) (e : Entry) : Option (Nat × Nat) :=
  let now := s.sys.timeNs
  if !(s.sys.state = .armed || s.sys.state = .run) then some (0x01, 0x00)
  else if e.t ≤ now then some (0x03, 0x01)
  else if now + 1000000000 * s.pol16 0x1C 10 < e.t then some (0x03, 0x02)
  else if !((List.range 64).any fun n => tb e.mask n && s.homing n != 0)
      || e.duration = 0 || 2 < e.kind || (4 < e.role && e.role != 0xFF) then some (0x03, 0x04)
  else if e.source != 0xFF && s.tlk.table.any fun x => x.source = 0xFF && x.clashes e e.source then
    some (0x03, 0x05)
  else none

/-- Entries the table holds (R266). -/
def tableCap : Nat := 32768

/-- The port an event about an entry names: the announcing port, or for HCP the lowest of its MASK (log entry 104). -/
def Entry.eventPort (e : Entry) : Nat :=
  if e.source != 0xFF then e.source else (((List.range 64).find? fun n => tb e.mask n).getD noInst)

/-- Expired entries leave a full table (R267): the event names the port of the entry that makes them leave (R294; log entry 104). -/
def State.schedEvict (s : State) (port : Nat) : State :=
  if s.tlk.table.length < tableCap then s
  else
    let keep := s.tlk.table.filter fun e => s.sys.timeNs < e.t + 1000 * e.duration
    if keep.length < s.tlk.table.length then { s with tlk := { s.tlk with table := keep } }.ev 0x7061 port else s

/-- An HCP entry takes the place of a tray's bit in an older entry of that tray (R267). -/
def State.schedReplace (s : State) (e : Entry) : State :=
  if e.source != 0xFF then s
  else
    let hit := s.tlk.table.filter fun x => x.source != 0xFF && tb e.mask x.source && x.clashes e x.source
    { s with tlk := { s.tlk with
        table := s.tlk.table.filter fun x => !hit.contains x
        placed := s.tlk.placed.filter fun p =>
          !(hit.any fun x => p.of x) } }

/-- An announcement: the entry enters the table and its trays are placed, or it is refused (R267, R268).
STATUS and REASON come back with the state. Trays whose barrier an HCP entry has replaced and that hold none now get
their standing slopes back, and entries that waited for them are tried (R270). -/
def State.announce (s : State) (e : Entry) : (Nat × Nat) × State :=
  let refuse := fun (s : State) (st re : Nat) =>
    ((st, re), ({ s with tlk := { s.tlk with schedRefused := bump 32 s.tlk.schedRefused } }).ev 0x7060
      (if e.source = 0xFF then noInst else e.source) (st + 256 * re + 65536 * (e.id % 65536)))
  match s.schedCheck e with
  | some (st, re) => refuse s st re
  | none =>
    let s := s.schedEvict e.eventPort
    if tableCap ≤ s.tlk.table.length then refuse s 0x03 0x03
    else
      let held := (List.finRange 64).filter fun n => (s.placedAt n.val).isSome
      let s := s.schedReplace e
      let s := { s with tlk := { s.tlk with table := s.tlk.table ++ [e] } }
      let s := if e.t < s.sys.timeNs + s.leadNs then s.ev 0x7062 e.eventPort
        else s.tryPlace e (List.finRange 64)
      let freed := held.filter fun n => (s.placedAt n.val).isNone
      ((0, 0), freed.foldl (fun s n => (s.sendGrant n).tryWaiters n) s)

/-- TRAY_ANNOUNCE (R258, R266, R267): a tray announces for itself, and is answered with ANNOUNCE_RESULT. -/
def execTrayAnnounce (n : Fin 64) (a : Sys2Proof.AnnounceEntry) (s : State) : Host.Outcome State Fault Refusal :=
  let p := s.port n
  if !p.linked || p.state = .unused || p.state = .down then .next s
  else
    let (r, s) := s.announce
      { id := wrapU 32 a.id, t := wrapU 64 a.t, mask := 2 ^ n.val, dp := ofCode 32 a.dp
        duration := wrapU 32 a.duration, kind := wrapU 8 a.kind, role := wrapU 8 a.role, source := n.val
        roleApplied := false, offs := [] }
    .next (s.send (.tlk n.val (announceResult (wrapU 32 a.id) r.1 r.2)))

/-- BARRIER_COMPLETE (R270): T + OFFSET + d + 10 us come by the end of the tick in progress; the occupancy is released,
the tray gets its standing slopes, and the entries that waited for it are placed or late. A throttled tray has not
started (R274). -/
def execBarrierComplete (n : Fin 64) (s : State) : Host.Outcome State Fault Refusal :=
  match s.placedAt n.val with
  | none => .next s
  | some pl =>
    if (s.port n).throttled || s.sys.timeNs + 2000 ≤ pl.t + 1000 * (pl.offset + pl.dur) + 10000 then .next s
    else .next (((s.unplace n.val).sendGrant n).tryWaiters n)

/-- ROLE_TAG_APPLIED (R266): at an entry's T each tray it names takes its ROLE. -/
def execRoleTagApplied (id : BitVec 32) (source : BitVec 8) (s : State) : Host.Outcome State Fault Refusal :=
  match s.tlk.table.find? fun e =>
      e.id = id.toNat && e.source = source.toNat && e.t ≤ s.sys.timeNs && !e.roleApplied with
  | none => .next s
  | some e =>
    let s := { s with tlk := { s.tlk with table := s.tlk.table.map fun x =>
      if x = e then { x with roleApplied := true } else x } }
    if e.role = 0xFF then .next s
    else .next (s.setRole ((List.finRange 64).filter fun n => tb e.mask n.val) e.role)

/-- TAKEOVER_REQ (R258, R280): on a secondary link in RUN. -/
def execTakeoverReq (n : Fin 64) (env : BitVec 16) (s : State) : Host.Outcome State Fault Refusal :=
  .next (if (s.port n).linked then s.takeOver n env.toNat else s)

/-- A port drains (R284): ENVELOPE 0. -/
def State.drain (s : State) (n : Fin 64) : State :=
  if (s.port n).state.counted then
    (((s.unserve n).updPort n fun p => { p.leave .draining with lowReports := 0, drainTick := s.sys.tick }).sendGrant n).syncOverShare
  else s

/-- DRAIN_REQ (R284). -/
def execDrainReq (n : Fin 64) (s : State) : Host.Outcome State Fault Refusal :=
  .next (if (s.port n).linked then s.drain n else s)

/-- DRAIN (R284, R292). -/
def execDrain (sess n : Fin 64) (s : State) : Host.Outcome State Fault Refusal :=
  .next (s.regCmdAt ((s.port n).state != .unused) sess .or_ fun s => s.drain n)

/-- DRAINED (R262, R284): three low reports or 100 ms. -/
def execDrained (n : Fin 64) (s : State) : Host.Outcome State Fault Refusal :=
  let p := s.port n
  if p.state = .draining && (s.elapsed p.drainTick 50000 || 3 ≤ p.lowReports) then
    let s := s.updPort n fun p => { p with state := .drained, target := 0 }
    .next (((s.purgeTray n).ev 0x7042 n.val).sendGrant n).syncOverShare
  else .next s

/-! THROTTLE. -/

/-- RELEASE_HOLD_US (R272). -/
def State.releaseHold (s : State) : Nat := s.pol16 0x1E 50

/-- Cause UV_FASTPATH, or PHASE_LOSS, is over for the groups that raised it. -/
def State.dropReq (s : State) (uv : Bool) : State :=
  { s with pwm := { s.pwm with grp := s.pwm.grp.map fun (x : Group) =>
      if uv then { x with uvReq := false } else { x with lossReq := false } } }

/-- THROTTLE_CAUSE_CLEAR (R272): the condition of a cause has held for RELEASE_HOLD_US; cause NONCOMPLIANT asks for no
report above the envelope, and no failed check, in that time. -/
def execThrottleCauseClear (c : Sys2Proof.ClearedCause) (s : State) : Host.Outcome State Fault Refusal :=
  let d := ceilDiv s.releaseHold 2
  .next (
    match c with
    | .uvFastpath => if s.elapsed s.tlk.causeTick[0] d then (s.clearCause 0).dropReq true else s
    | .phaseLoss => if s.elapsed s.tlk.causeTick[1] d then (s.clearCause 1).dropReq false else s
    | .rackHold => if s.sys.rackHoldSeen || !s.elapsed s.tlk.causeTick[2] d then s else s.clearCause 2
    | .nonCompliant n => if (s.port n).thrNoncompliant && s.elapsed (s.port n).badTick d then s.clearPortCause n 6 else s)

/-- THROTTLE_ALL (R272, R289). -/
def execThrottleAll (sess : Fin 64) (s : State) : Host.Outcome State Fault Refusal :=
  .next (s.regCmd sess .or_ fun s => s.throttleAllPorts 4)

/-- Cause OPERATOR clears on all ports (R272, R289). -/
def State.releaseAllPorts (s : State) : State :=
  { s with tlk := { s.tlk with
      causes := updV s.tlk.causes 4 fun _ => false
      port := s.tlk.port.map fun (p : Port) => { p with thrOperator := false, opCleared := false } } }.settle

/-- RELEASE_ALL (R272, R289). -/
def execReleaseAll (sess : Fin 64) (s : State) : Host.Outcome State Fault Refusal :=
  .next (s.regCmd sess .or_ State.releaseAllPorts)

/-- THROTTLE (R272, R292). -/
def execThrottle (sess n : Fin 64) (s : State) : Host.Outcome State Fault Refusal :=
  .next (s.regCmdAt ((s.port n).state != .unused) sess .or_ fun s => s.throttlePort n 5)

/-- RELEASE (R272, R292). -/
def execRelease (sess n : Fin 64) (s : State) : Host.Outcome State Fault Refusal :=
  .next (s.regCmdAt ((s.port n).state != .unused) sess .or_ fun s => s.clearPortCause n 5)

/-- RACK_HOLD_SEEN (R275). -/
def execRackHoldSeen (s : State) : Host.Outcome State Fault Refusal := .next s.rackHoldLow

/-- RACK_HOLD_CLEARED (R275): the line can be sensed high only while the module does not drive it. -/
def execRackHoldCleared (s : State) : Host.Outcome State Fault Refusal :=
  .next (if s.sys.rackHoldDrive then s else s.rackHoldHigh)

/-- SHARE_STALE (R276): no share for 3 ms in RUN, by the end of the tick in progress. -/
def execShareStale (s : State) : Host.Outcome State Fault Refusal :=
  .next (
    if s.sys.state = .run && s.tlk.shareT.all fun t => decide (t + 3000000 < s.sys.timeNs + 2000) then
      { s with tlk := { s.tlk with shareStale := true } }
    else s)

/-- TRAY_FRAME_DROPPED (R250, R251): counted as a CRC error of the port. -/
def execTrayFrameDropped (n : Fin 64) (s : State) : Host.Outcome State Fault Refusal :=
  .next (if (s.port n).state = .unused then s
    else s.updPort n fun p => { p with errCrc := bump 8 p.errCrc })

end Sys2Proof.Machine
end

