-- ==== Sys2Proof/Machine/NetOps.lean ====
section
/-! DEFINITION. Sessions, ingress queues and answers of the HCP (R370 to R377, R384, R385, R469 to R471). -/

namespace Sys2Proof.Machine

/-! Sessions. -/

/-- A session. -/
def State.sess (s : State) (n : Fin 64) : Sess := s.net.sess[n.val]

/-- A change of one session. -/
def State.updSess (s : State) (n : Fin 64) (f : Sess → Sess) : State :=
  { s with net := { s.net with sess := updV s.net.sess n f } }

/-- A change of one queue. -/
def State.updQ (s : State) (q : Fin 16) (f : Queue → Queue) : State :=
  { s with net := { s.net with q := updV s.net.q q f } }

/-- Number of a message that belongs to no session any more. -/
def noSess : Nat := 64

/-- A session closes (R374, R382): its subscriptions, fetches, push and reads end, and its queued messages lose
their session. Event 0xA011. -/
def State.closeSess (s : State) (n : Fin 64) : State :=
  if !(s.sess n).isOpen then s
  else
    let dead := fun (m : Msg) => if m.sess = n.val then { m with sess := noSess } else m
    let mine := s.cfg.push.any fun p => p.sess = n.val
    let s := (s.updSess n fun _ => {}).ev 0xA011 n.val
    let s := { s with
      sys := { s.sys with latches := s.sys.latches.filter fun l => l.requester != n.val }
      net := { s.net with
        blocks := s.net.blocks.filter fun b => b.sess != n.val
        q := s.net.q.map fun (q : Queue) => { q with msgs := q.msgs.map dead, hand := q.hand.map dead } } }
    if mine then s.dropShadow else s

/-- FLAGS of an inner message (R375). -/
def flResponse : Nat := 1
def flUnsolicited : Nat := 2
def flLast : Nat := 4

/-- An inner message (R375): its 24-byte header, without VALID_UNTIL, and its body. -/
def innerBytes (ty status flags reqId : Nat) (body : List Byte) : List Byte :=
  leBytes 2 ty ++ leBytes 1 status ++ leBytes 1 flags ++ leBytes 4 reqId ++ leBytes 8 0 ++ leBytes 4 body.length
  ++ leBytes 4 0 ++ body

/-- How a frame leaves the port (R362, R399). -/
def State.tag (s : State) : NetTag := { vlan := s.net.vlan, dscp := s.net.dscp, macsec := s.net.macsecUp }

/-- The header of a datagram (R371): KIND, SESSION, and SEQ or FRAG. -/
def hcpHdr (kind sess seq : Nat) : List Byte :=
  [0x48#8, 0x43#8, 0x01#8] ++ leBytes 1 kind ++ leBytes 4 sess ++ leBytes 8 seq

/-- A SECURED datagram (R371): the header is the additional data, and its SESSION and SEQ, as they stand there, the nonce
(DEDUCED, log entry 139). -/
def securedBytes (key : List Byte) (sess seq : Nat) (inner : List Byte) : List Byte :=
  let h := hcpHdr 0x10 sess seq
  h ++ gcmSeal key (h.drop 4) h inner

/-- The inner message of a SECURED datagram, where its tag verifies (R371, R374). -/
def openSecured (key b : List Byte) : Option (List Byte) := gcmOpen key (bytesAt b 4 12) (b.take 16) (b.drop 16)

/-- One SECURED datagram leaves for a session (R371, R374): the session closes as its SEQ reaches 2^63. -/
def State.sendTo (s : State) (n : Fin 64) (ty reqId status flags : Nat) (body : List Byte) : State :=
  if !(s.sess n).isOpen then s
  else
    let q := (s.sess n).txSeq
    let m := innerBytes ty status flags reqId body
    let s := (s.updSess n fun x => { x with txSeq := x.txSeq + 1 }).send
      (.hcp s.tag n.val q m (securedBytes (s.sess n).txKey n.val q m))
    if 2 ^ 63 ≤ (s.sess n).txSeq then s.closeSess n else s

/-- A response (R375, R376). -/
def State.reply (s : State) (h : Sys2Proof.MsgHdr) (ty status : Nat) (body : List Byte := []) : State :=
  s.sendTo h.sess ty h.reqId.toNat status flResponse body

/-! Status codes (R376). -/
def stOk : Nat := 0
def stNotReady : Nat := 1
def stBusy : Nat := 2
def stRefused : Nat := 3
def stStale : Nat := 4
def stDenied : Nat := 5
def stMalformed : Nat := 6

/-! Queues. -/

/-- The queue of a message type, by REGION for FETCH; none for an unknown type (R377, R381, R384). -/
def queueOf (ty region : Nat) : Option (Fin 16) :=
  match ty with
  | 0x01 => some 1
  | 0x03 => some 0
  | 0x10 => some 4
  | 0x11 => some 3
  | 0x12 => some 13
  | 0x20 | 0x21 => some 5
  | 0x30 | 0x31 => some 6
  | 0x40 => match region with
    | 2 => some 11
    | 3 | 4 | 5 | 6 => some 10
    | 7 => some 12
    | _ => some 7
  | 0x50 | 0x51 | 0x52 => some 8
  | 0x60 => some 9
  | 0x70 | 0x71 => some 2
  | _ => none

/-- Shed tier of a queue, 0 for never (R384). -/
def shedTier (q : Fin 16) : Nat :=
  match q.val with
  | 0 | 4 | 8 | 9 => 2
  | 6 | 7 | 10 | 11 | 12 | 13 => 1
  | _ => 0

/-- TYPE, REQ_ID and VALID_UNTIL of a queued message (R375). -/
def Msg.type (m : Msg) : Nat := at16 m.inner 0
def Msg.reqId (m : Msg) : Nat := at32 m.inner 4
def Msg.validUntil (m : Msg) : Nat := leVal (bytesAt m.inner 8 8)
/-- Its body. -/
def Msg.body (m : Msg) : List Byte := m.inner.drop 24
/-- The entries it takes, ceil((24 + LEN) / 256) (R384). -/
def Msg.entries (m : Msg) : Nat := ceilDiv m.inner.length 256
/-- Its entry `k`: the bytes, FIRST and LAST (R469). -/
def Msg.entry (m : Msg) (k : Nat) : List Byte × Bool × Bool := (bytesAt m.inner (256 * k) 256, k = 0, k + 1 = m.entries)

/-- Entries a queue holds (R489). -/
def Queue.count (q : Queue) : Nat := (q.msgs.map Msg.entries).sum - q.taken
/-- Entries of its middle, in HBM (R469, R490): what the head of 64 does not hold, up to 1,048,576. -/
def Queue.spill (q : Queue) : Nat := min (q.count - 64) 1048576
/-- Entries a queue may hold (R469). -/
def queueCap : Nat := 1048704

/-- FIFO_SPILL_TOTAL. -/
def State.spillTotal (s : State) : Nat := (s.net.q.toList.map Queue.spill).sum
/-- Spill entries of all queues (R385). -/
def spillCap : Nat := 16 * 1048576

/-- The shed tiers follow the shed level, with events 0xA030 and 0xA031 (R385). -/
def State.shedCheck (s : State) : State :=
  let x := 100 * s.spillTotal
  let t1 := if s.net.shed1 then decide (70 * spillCap < x) else decide (75 * spillCap ≤ x)
  let t2 := if s.net.shed2 then decide (85 * spillCap < x) else decide (90 * spillCap ≤ x)
  let edge := fun (s : State) (was now : Bool) =>
    if now && !was then s.ev 0xA030 else if was && !now then s.ev 0xA031 else s
  let w1 := s.net.shed1
  let w2 := s.net.shed2
  edge (edge ({ s with net := { s.net with shed1 := t1, shed2 := t2 } }) w1 t1) w2 t2

/-- One entry leaves the head for the firmware; a message taken whole is in its hand. An empty queue stalls the
core (R471). -/
def Queue.takeEntry (q : Queue) : Queue :=
  match q.msgs with
  | [] => { q with stalled := true }
  | m :: l =>
    if m.entries ≤ q.taken + 1 then { q with msgs := l, taken := 0, hand := q.hand ++ [m], stalled := false }
    else { q with taken := q.taken + 1, stalled := false }

/-- A queue with a message of an open session. -/
def Queue.waits (q : Queue) : Bool := (q.hand ++ q.msgs).any fun m => m.sess != noSess

/-- A message enters its queue (R384, R469, R490); a core stalled on the queue takes its first entry. The delay from
the pins to the head is given as an average only: its mean is a free value (log entry 7). -/
def State.enqueue (s : State) (q : Fin 16) (m : Msg) : State :=
  let s := s.used
  let s := s.updQ q fun x =>
    let x := { x with msgs := x.msgs ++ [m], servedAt := if x.waits then x.servedAt else s.sys.tick, accepted := wrapU 32 (x.accepted + 1)
                      delayAvg := Config.freeNat s.fv % 2 ^ 32 }
    let x := { x with hwm := max x.hwm x.count }
    if x.stalled then x.takeEntry else x
  s.shedCheck

/-- The length of a body fits its type (R376 to R382). -/
def bodyFits (ty : Nat) (b : List Byte) : Bool :=
  let n := b.length
  let counted := fun (hd sz : Nat) => hd ≤ n && n = hd + sz * at16 b 0
  match ty with
  | 0x01 | 0x03 | 0x52 => n = 0
  | 0x10 => counted 4 4
  | 0x11 => counted 4 8
  | 0x12 => n = 6
  | 0x20 => counted 8 40
  | 0x21 => counted 2 4
  | 0x30 => (at8 b 1 = 0 && 6 ≤ n && n = 6 + 4 * at16 b 4) || (at8 b 1 = 1 && n = 6)
  | 0x31 => n = 1
  | 0x40 => n = 16
  | 0x50 => n = 4
  | 0x51 => 4 ≤ n
  | 0x60 => n = 32
  | 0x70 => n = 8
  | 0x71 => n = 48
  | _ => false

/-- The reserved bytes of a body (R378, R379, R381). -/
def bodyReserved (ty i : Nat) : Bool :=
  let j := (i - 8) % 40
  match ty with
  | 0x10 | 0x11 | 0x40 => i = 2 || i = 3
  | 0x20 => (2 ≤ i && i < 8) || (8 ≤ i && ((4 ≤ j && j < 8) || 34 ≤ j))
  | _ => false

/-- A body with its reserved bytes as zeros: what they hold is not looked at. -/
def bodyBare (ty : Nat) (b : List Byte) : List Byte := b.zipIdx.map fun x => if bodyReserved ty x.2 then 0 else x.1

/-- A message of a session, of a header, a type and a body. -/
def Msg.named (m : Msg) (h : Sys2Proof.MsgHdr) (ty : Nat) (body : List Byte) : Bool :=
  m.sess = h.sess.val && m.reqId = h.reqId.toNat && m.validUntil = h.validUntil.toNat && m.type = ty
  && (bodyBare ty m.body == body || !bodyFits ty m.body)

/-- The firmware serves the message at the front of a queue, or of its hand: it must be the one named, or one whose body
does not fit its type. Messages that lost their session are passed over. -/
def Queue.serve (q : Queue) (h : Sys2Proof.MsgHdr) (ty : Nat) (body : List Byte) : Option (Msg × Queue) :=
  let live := fun (m : Msg) => m.sess = noSess
  match q.hand.dropWhile live with
  | m :: l => if m.named h ty body then some (m, { q with hand := l }) else none
  | [] =>
    match q.msgs.dropWhile live with
    | m :: l => if m.named h ty body then some (m, { q with hand := [], msgs := l, taken := 0 }) else none
    | [] => none

/-- A queue's turn (R384): no queue of a lower number waits, or it has not been served for 1 ms. -/
def State.qTurn (s : State) (q : Fin 16) : Bool :=
  ((List.finRange 16).all fun p => q.val ≤ p.val || !s.net.q[p.val].waits) || s.elapsed s.net.q[q.val].servedAt 500

/-- A message is served (R375 to R377, R437): nothing happens where it does not stand at the front of its queue; it is
answered STALE, NOT_READY, DENIED or, where its body does not fit its type, MALFORMED, or carried out. -/
def State.serve (s : State) (h : Sys2Proof.MsgHdr) (q : Fin 16) (ty : Nat) (role : Role) (body : List Byte)
    (f : State → State) : State :=
  match (if s.qTurn q then s.net.q[q.val].serve h ty body else none) with
  | none => s
  | some (m, x) =>
    let s := (s.updQ q fun _ => { x with servedAt := s.sys.tick }).shedCheck
    if !(s.sess h.sess).isOpen then s
    else if h.validUntil.toNat != 0 && h.validUntil.toNat < s.sys.timeNs then s.reply h ty stStale
    else if s.sec.recovery && !(ty = 1 || (0x50 ≤ ty && ty ≤ 0x52)) then s.reply h ty stNotReady
    else if !(s.sess h.sess).role.atLeast role then s.reply h ty stDenied
    else if !bodyFits ty m.body then s.reply h ty stMalformed
    else f s

/-! The network hardware. -/

/-- The module's addresses: link-local, an EUI-64 of NET_MAC (R363; the form of RFC 4291, PRESUMED), global IPv6, IPv4. -/
def State.linkLocal (s : State) : List Byte :=
  let m := beBytes 6 s.net.mac
  [0xFE#8, 0x80#8, 0#8, 0#8, 0#8, 0#8, 0#8, 0#8, m.getD 0 0 ^^^ 2#8, m.getD 1 0, m.getD 2 0, 0xFF#8, 0xFE#8
  , m.getD 3 0, m.getD 4 0, m.getD 5 0]
def State.ip6Bytes (s : State) : List Byte := s.net.ip6.toList.flatMap (leBytes 4)

/-- The addresses the MAC takes frames for (R362): NET_MAC, broadcast, and the multicast groups of NDP, all nodes and the
solicited nodes of the module's addresses, and of PTP (their numbers PRESUMED, log entry 140). -/
def State.macs (s : State) : List Nat :=
  let node := fun (l : List Byte) => 0x3333FF000000 + beVal (l.drop 13)
  [s.net.mac, 2 ^ 48 - 1, 0x333300000001, node s.linkLocal, node s.ip6Bytes, 0x333300000181, 0x01005E000181, 0x011B19000000]

/-- A frame the MAC and the network layer take (R362). -/
def State.framed (s : State) (f : Sys2Proof.FramePath) : Bool :=
  s.macs.contains f.mac && (f.vid.all fun v => v = s.net.vlan) && f.plain && f.size ≤ 9216

/-- A frame without valid MACsec protection is dropped (R364). -/
def State.mustDrop (s : State) (f : Sys2Proof.FramePath) : Bool :=
  s.net.macsecReq && s.net.cak.isSome && !(f.sci.any fun c => s.net.rxSc.contains c)

/-- A drop of R364 is counted. -/
def State.dropOther (s : State) : State := { s with net := { s.net with dropOther := bump 32 s.net.dropOther } }

/-- What comes in a frame (R362, R364): lost without a link, not taken where the frame is not for the module, dropped and
counted where it lacks its protection or comes over IPv4 that is not served. -/
def State.netIn (s : State) (f : Sys2Proof.FramePath) (v4 : Bool) (act : State → State) : State :=
  if !s.net.linkUp || !s.framed f then s
  else if s.mustDrop f || (v4 && !s.net.ipv4En) then s.dropOther
  else act s

/-- Whether SEQ is new: above the highest, or within 1,024 below it and not accepted before (R374). -/
def Sess.fresh (x : Sess) (q : Nat) : Bool :=
  1 ≤ q && (x.rxSeq < q || (x.rxSeq ≤ q + 1024 && !x.window.contains q))

/-- A datagram is accepted: the window moves, and the session counts its idle time anew. -/
def Sess.take (x : Sess) (q now : Nat) : Sess :=
  let hi := max x.rxSeq q
  { x with rxSeq := hi, window := (q :: x.window).filter fun y => hi ≤ y + 1024, tagRun := 0, lastRx := now }

/-- What an accepted message of a session does to the silence of R386. -/
def State.heard (s : State) (n : Fin 64) : State :=
  let x := s.sess n
  let s := if x.rackManager then { s with net := { s.net with rmFrom := s.rootNs, rmLast := some s.rootNs } } else s
  if s.sys.orphan && x.role.atLeast .operator then
    s.clearOrphan.allocResume
  else s

/-- The accepted message enters its queue, or is answered BUSY by the hardware, or MALFORMED where its type is
unknown, its LEN is wrong or it is longer than 8,968 bytes (R371, R376, R384, R385). One too short for its header cannot be
answered. -/
def State.route (s : State) (n : Fin 64) (inner : List Byte) : State :=
  let ty := at16 inner 0
  let answer := fun (s : State) (st : Nat) => s.sendTo n ty (at32 inner 4) st flResponse []
  let busy := fun (s : State) => answer { s with net := { s.net with busyCount := bump 32 s.net.busyCount } } stBusy
  if inner.length < 24 then s
  else
    match queueOf ty (at8 inner 24) with
    | none => answer s stMalformed
    | some q =>
      let m : Msg := { sess := n.val, inner := inner, arrival := s.rootNs }
      if 8968 < inner.length || inner.length != 24 + at32 inner 16 then answer s stMalformed
      else if (s.net.shed1 && shedTier q = 1) || (s.net.shed2 && shedTier q = 2) then busy s
      else if queueCap < s.net.q[q.val].count + m.entries then
        busy (s.updQ q fun x => { x with busy := bump 32 x.busy })
      else s.enqueue q m

/-- A datagram has the header of R371 with its KIND. -/
def hcpFramed (b : List Byte) (kind : Nat) : Bool := 16 ≤ b.length && b.take 4 == [0x48#8, 0x43#8, 0x01#8] ++ leBytes 1 kind

/-- The session a datagram names, and its SEQ or FRAG (R371). -/
def sessOf (b : List Byte) : Option (Fin 64) := if h : at32 b 4 < 64 then some ⟨at32 b 4, h⟩ else none
def seqOf (b : List Byte) : Nat := leVal (bytesAt b 8 8)

/-- A datagram whose tag fails (R374), under the session it names where that one is open. -/
def State.tagFails (s : State) (n : Option (Fin 64)) : State :=
  let s := { s with net := { s.net with dropAuth := bump 32 s.net.dropAuth } }
  match n with
  | none => s
  | some n =>
    let s := s.updSess n fun x => { x with dropTag := bump 16 x.dropTag, tagRun := x.tagRun + 1 }
    if 64 ≤ (s.sess n).tagRun then (s.ev 0xA013 n.val).closeSess n else s

/-- A datagram whose SEQ is not new (R374). -/
def State.replayed (s : State) (n : Fin 64) : State :=
  ({ s with net := { s.net with dropReplay := bump 32 s.net.dropReplay } }).updSess n fun x =>
    { x with dropReplay := bump 16 x.dropReplay, tagRun := 0 }

/-- A datagram of an open session whose tag verifies and whose SEQ is new (R374, R384 to R386). -/
def State.accepted (s : State) (n : Fin 64) (q : Nat) (inner : List Byte) : State :=
  let s := (s.updSess n fun x => x.take q s.rootNs).heard n
  if 2 ^ 63 ≤ q then s.closeSess n else s.route n inner

/-- SECURED (R371, R374, R383 to R386). A datagram of a session that is not open cannot pass its tag. -/
def execSecured (d : Sys2Proof.Datagram) (s : State) : Host.Outcome State Fault Refusal :=
  let b := d.bytes
  let n := (sessOf b).filter fun n => (s.sess n).isOpen
  .next (
    if !s.net.ready || !hcpFramed b 0x10 then s
    else s.netIn d.path (d.dst = 2) fun s =>
      match n with
      | none => s.tagFails none
      | some k =>
        match openSecured (s.sess k).rxKey b with
        | none => s.tagFails (some k)
        | some inner => if (s.sess k).fresh (seqOf b) then s.accepted k (seqOf b) inner else s.replayed k)

/-! Handshakes (R372, R373). -/

/-- Bytes of a handshake payload in one datagram: as many as an inner message may have (log entry 139). -/
def fragBytes : Nat := 8968

/-- A handshake payload leaves in datagrams (R371, R372). -/
def State.sendPayload (s : State) (peer : List Byte) (port kind sess : Nat) (p : List Byte) : State :=
  (List.range (ceilDiv p.length fragBytes)).foldl (fun s k =>
    s.send (.handshake s.tag peer port
      (hcpHdr kind sess (fragBytes * k + 2 ^ 32 * p.length) ++ bytesAt p (fragBytes * k) (min fragBytes (p.length - fragBytes * k))))) s

/-- A REJECT under the session of the datagram it answers (R371, R372). -/
def State.reject (s : State) (peer : List Byte) (port sess status : Nat) : State :=
  s.sendPayload peer port 4 sess (leBytes 1 status)

/-- The device identity block (R447): the keys, and the signatures, made at manufacture. -/
def State.identityBlock (s : State) : List Byte :=
  leBytes 2 1 ++ leBytes 1 s.sec.lifecycle ++ leBytes 1 0 ++ leBytes 4 0x00475A09 ++ leBytes 4 s.sys.step
  ++ bytesAt s.sec.serial 0 16 ++ bytesAt s.sec.identityPub 0 436 ++ bytesAt s.sec.vendorKeys 0 436
  ++ bytesAt s.sec.identitySigs 0 16608

/-- HELLO_REPLY up to its signatures (R372): the module's nonce, public key and ciphertext are free values (log entry 7). -/
def State.replyHead (s : State) (sess : Nat) : List Byte :=
  let free := fun (o n : Nat) => (List.range n).map fun k => Config.freeByte s.fv (o + k)
  free 0 32 ++ leBytes 4 sess ++ [0x04#8] ++ free 0x25 1664 ++ s.identityBlock

/-- HELLO_REPLY (R372): the signatures of the device identity are free values (log entry 7). -/
def State.helloReply (s : State) (sess : Nat) : List Byte :=
  s.replyHead sess ++ (List.range 16608).map fun k => Config.freeByte s.fv (0x6A5 + k)

/-- A key of a session (R372): the shared secrets of P-384 and ML-KEM-1024 are free values (log entry 7). -/
def State.sessKey (s : State) (clientNonce moduleNonce info : List Byte) : List Byte :=
  hkdf384 (clientNonce ++ moduleNonce) ((List.range 80).map fun k => Config.freeByte s.fv (0x10000 + k)) info 32

/-- "hcp m2c" and "hcp c2m" (R372). -/
def infoM2c : List Byte := [0x68#8, 0x63#8, 0x70#8, 0x20#8, 0x6D#8, 0x32#8, 0x63#8]
def infoC2m : List Byte := [0x68#8, 0x63#8, 0x70#8, 0x20#8, 0x63#8, 0x32#8, 0x6D#8]

/-- The role of a code. -/
def roleOf (c : Nat) : Option Role :=
  match c with
  | 1 => some .monitor
  | 2 => some .operator
  | 3 => some .integrator
  | _ => none

/-- The form of a role certificate (R373): its length, FORMAT, ROLE, FLAGS and reserved bytes. -/
def certFormed (l : List Byte) : Bool :=
  l.length = 17536 && at16 l 0 = 1 && (roleOf (at8 l 2)).isSome && at8 l 3 < 2 && at32 l 4 = 0

/-- A role certificate holds (R373): its issuer is the customer root, its signatures verify, and while PTP_LOCK is 1
the present time lies in its validity. -/
def State.certOk (s : State) (l : List Byte) : Bool :=
  let time := fun (o : Nat) => leVal (bytesAt l o 8)
  let msg := l.take 0x3A0
  sha384 (bytesAt l 0x1EC 436) == s.sec.custRoot
  && rsaVerifies (bytesAt l 0x1EC 4) (bytesAt l 0x1F0 384) (bytesAt l 0x3A0 384) msg
  && slhVerifies (bytesAt l 0x370 48) (bytesAt l 0x520 16224) msg
  && (!s.clk.ptpLock || (time 8 ≤ s.sys.timeNs && s.sys.timeNs ≤ time 16))

/-- A session number that is neither open nor in a handshake. -/
def State.freeSess (s : State) : Option (Fin 64) :=
  (List.finRange 64).find? fun n => !(s.sess n).isOpen && !(s.net.hs.any fun h => h.sess = n.val)

/-- The form of a HELLO (R372, R373): an uncompressed public key, and a certificate. -/
def helloFormed (p : List Byte) : Bool := p.length = 19233 && at8 p 0x20 = 4 && certFormed (p.drop 0x6A1)

/-- What a datagram of a handshake payload leaves (R371, R372). -/
inductive Gathered where
  /-- No payload has such a fragment -/
  | malformed
  /-- The payload is not complete yet -/
  | waits (h : Handshake)
  | whole (p : List Byte)

/-- The byte of a payload at an offset: that of the fragment that came last. -/
def fragByte (l : List Fragment) (i : Nat) : Option Byte :=
  l.findSome? fun x => if x.off ≤ i then x.data[i - x.off]? else none

/-- A fragment joins those of a handshake (R372): the module gathers up to 64 KiB. -/
def State.gather (s : State) (h : Handshake) (b : List Byte) : Gathered :=
  let off := at32 b 8
  let total := at32 b 12
  let x : Fragment := { off := off, data := b.drop 16 }
  if total = 0 || 65536 < total || total < off + x.data.length || (!h.parts.isEmpty && h.total != total) then .malformed
  else
    let parts := x :: h.parts
    match (List.range total).mapM (fragByte parts) with
    | some p => .whole p
    | none => .waits { h with total := total, parts := parts, partAt := if h.parts.isEmpty then s.rootNs else h.partAt }

/-- A whole HELLO is answered (R372, R373): the handshake it leaves holds the holder's keys, the digest its FINISH signs, and
the keys of the session. -/
def State.answerHello (s : State) (h : Handshake) (p : List Byte) : State :=
  let cert := p.drop 0x6A1
  let reply := s.helloReply h.sess
  let key := s.sessKey (p.take 32) (reply.take 32)
  let h : Handshake :=
    { sess := h.sess, replied := true, peer := h.peer, port := h.port, dst := h.dst, at_ := s.rootNs
      role := (roleOf (at8 cert 2)).getD .monitor, rackManager := tb (at8 cert 3) 0, holder := bytesAt cert 0x38 436
      digest := sha384 (p ++ reply), txKey := key infoM2c, rxKey := key infoC2m }
  ({ s.used with net := { s.net with hs := s.net.hs ++ [h] } }).sendPayload h.peer h.port 2 h.sess reply

/-- A handshake is taken out of those in progress. -/
def State.dropHs (s : State) (f : Handshake → Bool) : State :=
  { s with net := { s.net with hs := s.net.hs.filter fun h => !f h } }

/-- A handshake waits for more of its payload. -/
def State.keepHs (s : State) (h : Handshake) : State := { s with net := { s.net with hs := s.net.hs ++ [h] } }

/-- What a part of a HELLO brings (R372, R373): a REJECT, or, where the payload is whole, a HELLO_REPLY. -/
def State.gatherHello (s : State) (d : Sys2Proof.Datagram) (h : Handshake) (g : Gathered) : State :=
  let no := fun (st : Nat) => s.reject d.peer d.port.toNat (at32 d.bytes 4) st
  match g with
  | .malformed => no stMalformed
  | .waits h => s.keepHs h
  | .whole p =>
    if !helloFormed p then no stMalformed
    else if !s.certOk (p.drop 0x6A1) then (no stDenied).ev 0xA012
    else s.answerHello h p

/-- A HELLO that has come in (R372, R373, R383). -/
def State.helloIn (s : State) (d : Sys2Proof.Datagram) : State :=
  let b := d.bytes
  let port := d.port.toNat
  let part := s.net.hs.find? fun h => !h.replied && h.peer == d.peer && h.port = port
  let rest := s.dropHs fun h => some h == part
  let fresh := s.freeSess.map fun n =>
    ({ sess := n.val, replied := false, peer := d.peer, port := port, dst := d.dst.val, at_ := s.rootNs } : Handshake)
  if !s.net.ready then s.reject d.peer port (at32 b 4) stNotReady
  else if at32 b 4 != 0 then rest.reject d.peer port (at32 b 4) stMalformed
  else
    match part.orElse fun _ => if 8 ≤ s.net.hs.length then none else fresh with
    | none => s.reject d.peer port (at32 b 4) stBusy
    | some h => rest.gatherHello d h (s.gather h d.bytes)

/-- HELLO (R372, R373, R383), whole or in fragments: answered with HELLO_REPLY or REJECT. -/
def execHello (d : Sys2Proof.Datagram) (s : State) : Host.Outcome State Fault Refusal :=
  .next (if !hcpFramed d.bytes 0x01 then s else s.netIn d.path (d.dst = 2) fun s => s.helloIn d)

/-- The session of a handshake opens (R372): SESSION_OPEN is sent unsolicited. -/
def State.openSess (s : State) (n : Fin 64) (h : Handshake) : State :=
  let s := s.updSess n fun _ =>
    { isOpen := true, role := h.role, rackManager := h.rackManager, peer := h.peer, port := h.port, dst := h.dst
      lastRx := s.rootNs, txKey := h.txKey, rxKey := h.rxKey }
  let code := match h.role with
    | .monitor => 1
    | .operator => 2
    | .integrator => 3
  (s.sendTo n 0x02 0 0 flUnsolicited
    (leBytes 1 code ++ leBytes 1 (bitAt h.rackManager 0) ++ leBytes 8 s.sys.timeNs)).ev 0xA010 n.val

/-- What a part of a FINISH brings (R372): both signatures, by the certificate's keys over the digest of HELLO and
HELLO_REPLY, must verify. -/
def State.gatherFinish (s : State) (d : Sys2Proof.Datagram) (n : Fin 64) (h : Handshake) : State :=
  let rest := s.dropHs fun x => x.sess = n.val
  let no := fun (st : Nat) => rest.reject h.peer h.port n.val st
  match s.gather h d.bytes with
  | .malformed => no stMalformed
  | .waits h => rest.keepHs h
  | .whole p =>
    if p.length != 16608 then no stMalformed
    else if rsaVerifies (bytesAt h.holder 0 4) (bytesAt h.holder 4 384) (p.take 384) h.digest
        && slhVerifies (bytesAt h.holder 388 48) (p.drop 384) h.digest then
      rest.openSess n h
    else (no stDenied).ev 0xA012 n.val

/-- A FINISH that has come in: none where no handshake waits for it. -/
def State.finishIn (s : State) (d : Sys2Proof.Datagram) : State :=
  match (sessOf d.bytes).bind fun n => (s.net.hs.find? fun h => h.sess = n.val && h.replied).map fun h => (n, h) with
  | none => s
  | some (n, h) => s.gatherFinish d n h

/-- FINISH (R372), whole or in fragments. -/
def execFinish (d : Sys2Proof.Datagram) (s : State) : Host.Outcome State Fault Refusal :=
  .next (
    if !s.net.ready || !hcpFramed d.bytes 0x03 then s
    else s.netIn d.path (d.dst = 2) fun s => s.finishIn d)

/-- HANDSHAKE_TIMEOUT (R372): a handshake without its FINISH for 2 s, or a payload incomplete for 1 s, is discarded. -/
def execHandshakeTimeout (n : Fin 64) (s : State) : Host.Outcome State Fault Refusal :=
  let kept := s.net.hs.filter fun h =>
    h.sess != n.val || !s.elapsedNs (if h.replied then h.at_ else h.partAt) (if h.replied then 2000000000 else 1000000000)
  let late := fun (h : Handshake) => h.sess = n.val && h.replied && !h.parts.isEmpty && s.elapsedNs h.partAt 1000000000
  .next { s with net := { s.net with hs := kept.map fun (h : Handshake) => if late h then { h with total := 0, parts := [] } else h } }

/-- SESSION_IDLE_TIMEOUT (R374): IDLE_S without an accepted datagram. -/
def execSessionIdleTimeout (n : Fin 64) (s : State) : Host.Outcome State Fault Refusal :=
  .next (if s.elapsedNs (s.sess n).lastRx (1000000000 * s.net.idleS) then s.closeSess n else s)

/-- SESS_CLOSE (R402). -/
def execSessClose (sess n : Fin 64) (s : State) : Host.Outcome State Fault Refusal :=
  .next (s.regCmd sess .oa fun s => s.closeSess n)

/-! The port (R362 to R365). -/

/-- ETH_LINK_UP (R365). -/
def execEthLinkUp (s : State) : Host.Outcome State Fault Refusal :=
  .next (
    if !s.power.powered || s.power.inputLoss || s.net.linkUp || !(s.sec.fwRunning || s.sec.recovery) then s
    else (({ s with net := { s.net with linkUp := true } }).ev 0xA001).readyCheck)

/-- ETH_LINK_DOWN (R365): sessions stay. -/
def execEthLinkDown (s : State) : Host.Outcome State Fault Refusal :=
  .next (if s.net.linkUp then ({ s with net := { s.net with linkUp := false } }).ev 0xA002 else s)

/-- MACSEC_UP (R362): a secure association is live; the SecY has up to 4 receive secure channels. -/
def execMacsecUp (sci : BitVec 64) (s : State) : Host.Outcome State Fault Refusal :=
  let n := s.net
  .next (
    if !n.linkUp || n.cak.isNone || n.rxSc.contains sci || 4 ≤ n.rxSc.length then s
    else
      let t := { s with net := { n with macsecUp := true, rxSc := n.rxSc ++ [sci] } }
      if n.macsecUp then t else t.ev 0xA003)

/-- The secure associations end (R362, R403). -/
def State.macsecEnds (s : State) : State :=
  if s.net.macsecUp then ({ s with net := { s.net with macsecUp := false, rxSc := [] } }).ev 0xA004 else s

/-- MACSEC_DOWN (R362). -/
def execMacsecDown (s : State) : Host.Outcome State Fault Refusal := .next s.macsecEnds

/-- ICMP_ECHO_REQUEST (R362, R364): answered up to 100 times in a second, the excess dropped. Before READY every
datagram is dropped (R383). -/
def execIcmpEchoRequest (v6 : Bool) (f : Sys2Proof.FramePath) (ident : BitVec 32) (s : State) :
    Host.Outcome State Fault Refusal :=
  .next (
    if !s.net.ready then s
    else s.netIn f (!v6) fun s =>
      let recent := s.net.echoes.filter fun t => s.sys.tick < t + 500000
      if 100 ≤ recent.length then { s with net := { s.net with echoes := recent } }
      else ({ s with net := { s.net with echoes := s.sys.tick :: recent } }).send (.echo s.tag v6 ident.toNat))

/-- NDP_ARP_REQUEST (R362, R363): answered for the module's own addresses; ARP while IPV4_EN is 1. -/
def execNdpArpRequest (arp : Bool) (f : Sys2Proof.FramePath) (target : List Byte) (s : State) :
    Host.Outcome State Fault Refusal :=
  let mine := if arp then target == leBytes 4 s.net.ip4 else target == s.linkLocal || target == s.ip6Bytes
  .next (
    if !s.net.ready then s
    else s.netIn f arp fun s => if mine then s.send (.neighbour s.tag s.net.mac target) else s)

/-- UNSERVED_DATAGRAM (R364). -/
def execUnservedDatagram (f : Sys2Proof.FramePath) (s : State) : Host.Outcome State Fault Refusal :=
  .next (if s.net.ready then s.netIn f false fun s => s.dropOther else s)

/-- FIFO_Q_DATA_READ (R471): the firmware takes one entry of a queue. -/
def execFifoQDataRead (q : Fin 16) (s : State) : Host.Outcome State Fault Refusal :=
  .next (if s.sec.fwRunning || s.sec.recovery then (s.updQ q Queue.takeEntry).shedCheck else s)

/-! Rack-manager silence (R386). -/

/-- ORPHAN_ENTERED: the silence has reached TIMEOUT_MS in RUN or BASALT. -/
def execOrphanEntered (s : State) : Host.Outcome State Fault Refusal :=
  .next (
    if s.inState [.run, .basalt] && !s.sys.orphan && s.elapsedNs s.net.rmFrom (1000000 * s.net.timeoutMs) then
      ((({ s with sys := { s.sys with orphan := true }
                  tlk := { s.tlk with port := mapV s.tlk.port fun n p =>
                    { p with orphanCap := some (if p.grants then s.grantEnv n else 0) } } }).ev
        0xA040)).regrant s
    else s)

end Sys2Proof.Machine
end

