-- ==== Sys2Proof/Machine/Ecc.lean ====
section
/-! DEFINITION. Uncorrectable codewords (R460). -/

namespace Sys2Proof.Machine

/-- The element at a place of a list changed. -/
def setAt {α : Type} (l : List α) (k : Nat) (f : α → α) : List α := l.zipIdx.map fun x => if x.2 = k then f x.1 else x.1

/-- The region of a place (R460, R492): 0 SRAM, 1 HBM, 2 flash, 3 MRAM, 4 an internal bus. A beat counts in the memory
of its channel's source. The Basalt image counts with the SRAM (log entry 46). -/
def State.eccRegion (s : State) (p : Sys2Proof.EccPlace) : Fin 5 :=
  match p with
  | .config | .basaltImage | .forecastWeights _ | .forecastState _ | .loopCapture _ _ => 0
  | .captureBlock _ | .queueSpill _ _ | .tierFrame _ _ => 1
  | .eventRecord a _ => if a = 0 then 1 else 3
  | .historyPage _ | .bitstreamSlot _ | .firmwareSlot _ => 2
  | .dmaBeat ch _ => match dmaSpace s.mem.ch[ch.val].act.src with
    | 0 => 0
    | 1 | 2 => 1
    | _ => 3
  | .internalBus _ _ => 4

/-- POISON in FLAGS of a capture block (R482); a SYNC block has no FLAGS. -/
def poisonBlock (b : List Byte) : List Byte :=
  if b.head? = some 0xFF then b else setAt b 3 fun x => x ||| 0x10

/-- POISON in FLAGS of a history page, with the CRC of R483 over it. -/
def poisonPage (p : List Byte) : List Byte :=
  let p := setAt p 3 fun x => x ||| 0x10
  p.take 60 ++ leBytes 4 (crc32c (p.take 60 ++ p.drop 64)) ++ p.drop 64

/-- The result of the evaluation in progress of an instance is withheld (R230). -/
def FInst.withhold (x : FInst) : FInst := { x with flight := setAt x.flight 0 fun e => { e with withheld := true } }

/-- And its state region is zeroed (R230). -/
def FInst.withholdState (x : FInst) : FInst :=
  match x.flight.head? with
  | some e => x.withhold.setStateFor e []
  | none => { x with stateMem := [] }

/-- A message with an entry in the spill region is discarded without an answer (R460): the one at place `k`, where it
reaches beyond the head's 64 entries. -/
def State.loseMsg (s : State) (q : Fin 16) (k : Nat) : State :=
  let x := s.net.q[q.val]
  if k < x.msgs.length && 64 + x.taken < ((x.msgs.take (k + 1)).map Msg.entries).sum then
    let s := s.updQ q fun x => { x with msgs := x.msgs.eraseIdx k, taken := if k = 0 then 0 else x.taken }
    (s.ev 0xC030 q.val).shedCheck
  else s

/-- The frame of a page is reloaded from tier backing as a fault (R460, R467): the tier channels at work on the page
wait for it, after the bursts they have moved. -/
def State.reloadPage (s : State) (page : Nat) (moved : List (Fin 32 × Nat)) : State :=
  if s.pageResident page then
    let s := s.dmaMoved moved
    let s := { s with mem := { s.mem with resident := s.mem.resident.filter fun x => x.1 != page } }
    let on := fun (n : Fin 32) => decide (28 ≤ n.val) && s.mem.ch[n.val].state = .running
      && s.mem.ch[n.val].act.pages.contains page
    let s := (List.finRange 32).foldl (fun s n =>
      if on n then s.updDma n fun c => { c with state := .suspended, faultPage := some page } else s) s
    s.tierFault ((((List.finRange 32).find? on).map Fin.val).getD noInst) page
  else s

/-- What follows from an uncorrectable codeword, by its place (R460). A flash slot fails its checks when it is next
loaded (R87, R436). -/
def State.eccEffect (s : State) (p : Sys2Proof.EccPlace) : State :=
  match p with
  | .config => s.configFault
  | .basaltImage => { s with prot := { s.prot with imageOk := false } }
  | .forecastWeights i => (s.updInst i FInst.withhold).ev 0x6041 i.val
  | .forecastState i => (s.updInst i FInst.withholdState).ev 0x6023 i.val
  | .loopCapture i age => s.updSlot i fun x => { x with cap := setAt x.cap age fun r => { r with lost := true } }
  | .captureBlock age => { s with evr := { s.evr with capRing := setAt s.evr.capRing age poisonBlock } }
  | .historyPage age => { s with evr := { s.evr with history := setAt s.evr.history age poisonPage } }
  | .eventRecord a k =>
    let bad := fun (l : List Event) => setAt l k fun e => { e with bad := true }
    match a with
    | 0 => { s with evr := { s.evr with hbmArea := bad s.evr.hbmArea } }
    | 1 => { s with evr := { s.evr with first := bad s.evr.first } }
    | 2 => { s with evr := { s.evr with recent := bad s.evr.recent } }
  | .queueSpill q k => s.loseMsg q k
  | .tierFrame page moved => s.reloadPage page moved
  | .bitstreamSlot b =>
    if b then { s with cfg := { s.cfg with slotB := s.cfg.slotB.map fun _ => [] } }
    else { s with cfg := { s.cfg with slotA := s.cfg.slotA.map fun _ => [] } }
  | .firmwareSlot b =>
    if b then { s with sec := { s.sec with fwSlotBImg := s.sec.fwSlotBImg.map fun _ => [] } }
    else { s with sec := { s.sec with fwSlotAImg := s.sec.fwSlotAImg.map fun _ => [] } }
  | .dmaBeat n bursts | .internalBus n bursts => (s.dmaRun n bursts).dmaBad n

/-- Whether a place can be read now: a beat needs a running channel (R465). -/
def State.eccLive (s : State) (p : Sys2Proof.EccPlace) : Bool :=
  match p with
  | .dmaBeat n _ | .internalBus n _ => s.mem.ch[n.val].state = .running
  | _ => true

/-- ECC_UNCORRECTABLE (R460): counted, recorded as event 0xC002, and handled by its place. -/
def execEccUncorrectable (p : Sys2Proof.EccPlace) (s : State) : Host.Outcome State Fault Refusal :=
  .next (if s.eccLive p then (s.eccLost (s.eccRegion p)).eccEffect p else s)

end Sys2Proof.Machine
end

