-- ==== Sys2Proof/Machine/Est.lean ====
section
/-! DEFINITION. The commands of the storage estimator and the energy planner (10). -/

namespace Sys2Proof.Machine

/-- EST_UPDATE (R333, R334, R336, R342, R344, R346): every 1 ms in ARMED, RUN and BASALT. -/
def execEstUpdate (s : State) : Host.Outcome State Fault Refusal :=
  .next (
    if s.lit && s.inState [.armed, .run, .basalt] && s.due 500 s.est.estTick then
      s.strings.foldl State.estStep { s with est := { s.est with estTick := some s.sys.tick } }
    else s)

/-- EST_CONFLICT (R343): the difference has lasted CONFLICT_S with V_VALID 1. -/
def execEstConflict (i : Fin 4) (s : State) : Host.Outcome State Fault Refusal :=
  let x := s.estr i
  .next (
    if !x.conflict && 1000 * s.ecl16 0x16 10 ≤ x.diffMs then
      (s.updStr i fun x => { x with conflict := true }).ev 0x9020 i.val
    else s)

/-- EST_CONFLICT_CLEARED (R343): the difference has stayed within CONFLICT_PCT for CONFLICT_S. -/
def execEstConflictCleared (i : Fin 4) (s : State) : Host.Outcome State Fault Refusal :=
  .next (
    if (s.estr i).conflict && 1000 * s.ecl16 0x16 10 ≤ (s.estr i).sameMs then
      (s.updStr i fun x => { x with conflict := false }).ev 0x9021 i.val
    else s)

/-- PLANNER_CYCLE (R347 to R352, R337, R338): every 100 ms; `defers` says that telemetry formatting was due and
is deferred behind it (R73). -/
def execPlannerCycle (defers : Bool) (s : State) : Host.Outcome State Fault Refusal :=
  .next (
    if !s.lit || !s.due 50000 s.est.planTick then s else
    let s := s.planner
    if defers && !s.net.telDisplaced then
      ({ s with net := { s.net with telDisplaced := true } }).displace 6 0 2 4
    else s)

/-- ECLIPSE_RETRY (R338): every 10 s while a due rest is blocked. -/
def execEclipseRetry (s : State) : Host.Outcome State Fault Refusal :=
  .next (if s.sys.state = .run && s.est.blocked && s.elapsed s.est.triedTick 5000000 then s.restTry else s)

/-- RELAXING (R339): the limits are 0 and the current is within REST_I_MAX_MA. -/
def execRelaxing (i : Fin 4) (s : State) : Host.Outcome State Fault Refusal :=
  let x := s.estr i
  .next (
    if x.rest = .rampDown && x.restRamp = 0 && (s.shunt i).i.natAbs ≤ s.restImax then
      s.updStr i fun x =>
        { x with rest := .relaxing, balSuspended := true, relaxAt := s.sys.tick, overMs := 0, readSum := 0, readN := 0, cellSums := [] }
    else s)

/-- READING (R339): RELAX_S after relaxation began. -/
def execReading (i : Fin 4) (s : State) : Host.Outcome State Fault Refusal :=
  .next (
    if (s.estr i).rest = .relaxing && s.elapsed (s.estr i).relaxAt (500000 * s.relaxS) then
      s.updStr i fun x => { x with rest := .reading, readSum := 0, readN := 0, cellSums := [] }
    else s)

/-- ECLIPSE_READING (R339, R340): REST_S after relaxation began. -/
def execEclipseReading (i : Fin 4) (s : State) : Host.Outcome State Fault Refusal :=
  let x := s.estr i
  .next (
    if x.rest = .reading && s.elapsed x.relaxAt (500000 * s.restS) then s.eclipseReading i else s)

/-- REST_COMPLETE (R339): the limits have ramped back. -/
def execRestComplete (i : Fin 4) (s : State) : Host.Outcome State Fault Refusal :=
  .next (
    if (s.estr i).rest = .rampUp && (s.estr i).restRamp = 50000 then
      s.updStr i fun x => { x with rest := .idle, balSuspended := false }
    else s)

/-- ECLIPSE_ABORTED (R341, R353): fast path, THROTTLE, current, device state, time-out or health; the margin is judged at
the planner cycle. -/
def execEclipseAborted (s : State) : Host.Outcome State Fault Refusal :=
  .next (if (List.finRange 4).any s.restOver then s.abortRests else s)

/-- ABORT_REST (R341, R356). -/
def execAbortRest (sess : Fin 64) (s : State) : Host.Outcome State Fault Refusal :=
  .next (s.regCmd sess .or_ State.abortRests)

/-- A write of ECLIPSE_EN (R356). -/
def State.setEclipseEn (s : State) (v : Bool) : State := { s with est := { s.est with eclipseEn := v } }

/-- ECLIPSE_EN (R356). -/
def execEclipseEn (sess : Fin 64) (v : Bool) (s : State) : Host.Outcome State Fault Refusal :=
  .next (s.regCmd sess .or_ fun s => s.setEclipseEn v)

/-- Forced rests by register (R337, R356): a string that is not configured has none. -/
def State.forceRest (s : State) (mask : Nat) : State :=
  (s.strings.filter fun i => tb mask i.val).foldl (fun s i => s.updStr i fun x => { x with forced := true }) s

/-- FORCE_REST (R337, R356). -/
def execForceRest (sess : Fin 64) (mask : BitVec 4) (s : State) : Host.Outcome State Fault Refusal :=
  .next (s.regCmd sess .or_ fun s => s.forceRest mask.toNat)

end Sys2Proof.Machine
end

