-- ==== Sys2Proof/Machine/Hcp.lean ====
section
/-! DEFINITION. The messages of the HCP that do not touch registers (R377, R379 to R382, R448). -/

namespace Sys2Proof.Machine

/-- KEEPALIVE (R377): SYS_STATE, shelf time and tick. -/
def execKeepalive (h : Sys2Proof.MsgHdr) (s : State) : Host.Outcome State Fault Refusal :=
  .next (s.serve h 1 0x01 .monitor [] fun s =>
    s.reply h 0x01 stOk (leBytes 4 s.stateWord ++ leBytes 8 s.sys.timeNs ++ leBytes 8 s.sys.tick))

/-- CLOSE (R374). -/
def execClose (h : Sys2Proof.MsgHdr) (s : State) : Host.Outcome State Fault Refusal :=
  .next (s.serve h 0 0x03 .monitor [] fun s => (s.reply h 0x03 stOk).closeSess h.sess)

/-! Announcements (R379). -/

/-- A body of 1 to 64 entries is carried out, another is MALFORMED. -/
def State.counted64 (s : State) (h : Sys2Proof.MsgHdr) (ty n : Nat) (f : State → State) : State :=
  if n = 0 || 64 < n then s.reply h ty stMalformed else f s

/-- An HCP entry of the schedule table. -/
def hcpEntry (a : Sys2Proof.AnnounceEntry) : Entry :=
  { id := wrapU 32 a.id, t := wrapU 64 a.t, mask := wrapU 64 a.mask, dp := ofCode 32 a.dp
    duration := wrapU 32 a.duration, kind := wrapU 8 a.kind, role := wrapU 8 a.role, source := 0xFF
    roleApplied := false, offs := [] }

/-- The entries are checked in order; STATUS and REASON of each come back. -/
def State.announceAll (s : State) : List Sys2Proof.AnnounceEntry → List Nat × State
  | [] => ([], s)
  | a :: l =>
    let (r, s) := s.announce (hcpEntry a)
    let (rs, s) := s.announceAll l
    (r.1 :: r.2 :: rs, s)

/-- The body of an ANNOUNCE (R379). -/
def announceBody (l : List Sys2Proof.AnnounceEntry) : List Byte :=
  leBytes 2 l.length ++ leBytes 6 0 ++ l.flatMap fun a =>
    leBytes 4 a.id ++ leBytes 4 0 ++ leBytes 8 a.t ++ leBytes 8 a.mask ++ leBytes 4 a.dp ++ leBytes 4 a.duration
    ++ leBytes 1 a.kind ++ leBytes 1 a.role ++ leBytes 6 0

/-- ANNOUNCE (R267, R379). -/
def execAnnounce (h : Sys2Proof.MsgHdr) (l : List Sys2Proof.AnnounceEntry) (s : State) :
    Host.Outcome State Fault Refusal :=
  .next (s.serve h 5 0x20 .operator (announceBody l) fun s => s.counted64 h 0x20 l.length fun s =>
    let (rs, s) := s.announceAll l
    s.reply h 0x20 stOk (rs.flatMap (leBytes 1)))

/-- The HCP entries of one ENTRY_ID go, with their placements, and the trays placed for them are granted anew
(R379); entries that waited for those trays are tried (R270). -/
def State.cancelEntry (s : State) (id : Nat) : (Nat × Nat) × State :=
  let mine := fun (e : Entry) => e.source = 0xFF && e.id = id
  if !s.tlk.table.any mine then ((stRefused, 0x04), s)
  else if s.tlk.table.all fun e => !mine e || e.t ≤ s.sys.timeNs then ((stRefused, 0x01), s)
  else
    let placed := fun (p : Placement) => p.entryId = id && p.source = 0xFF
    let trays := (List.finRange 64).filter fun n => s.tlk.placed.any fun p => placed p && p.port = n.val
    let s := { s with tlk := { s.tlk with
      table := s.tlk.table.filter fun e => !(mine e && s.sys.timeNs < e.t)
      placed := s.tlk.placed.filter fun p => !placed p } }
    ((stOk, 0), trays.foldl (fun s n => s.tryWaiters n) (s.sendGrants trays))

/-- The IDs are removed in order. -/
def State.cancelAll (s : State) : List Nat → List Nat × State
  | [] => ([], s)
  | i :: l =>
    let (r, s) := s.cancelEntry i
    let (rs, s) := s.cancelAll l
    (r.1 :: r.2 :: rs, s)

/-- ANNOUNCE_CANCEL (R379). -/
def execAnnounceCancel (h : Sys2Proof.MsgHdr) (ids : List (BitVec 32)) (s : State) :
    Host.Outcome State Fault Refusal :=
  .next (s.serve h 5 0x21 .operator (leBytes 2 ids.length ++ ids.flatMap fun i => leBytes 4 i.toNat) fun s => s.counted64 h 0x21 ids.length fun s =>
    let (rs, s) := s.cancelAll (ids.map BitVec.toNat)
    s.reply h 0x21 stOk (rs.flatMap (leBytes 1)))

/-! Fetches (R381). -/

/-- The 32 bytes of a capture record (R159), zeros after an uncorrectable error (R460). -/
def CapRec.bytes (r : CapRec) : List Byte :=
  if r.lost then List.replicate 32 0
  else leBytes 4 r.tick ++ ([r.sp, r.fb, r.err, r.ff, r.out, r.inj].flatMap fun v => leBytes 4 (codeS 32 v))
  ++ leBytes 4 r.flags

/-- A byte of a circulating store of pieces of `size` bytes, newest first, `total` of them written since reset: none
where it is overwritten. -/
def ringByte (l : List (List Byte)) (size total off : Nat) : Option Byte :=
  if off / size < total then (l[total - 1 - off / size]?).map fun p => p.getD (off % size) 0 else none

/-- Bytes a region holds so far by its offset; none where the region has no such end (R381). -/
def State.fetchEnd (s : State) (region : Nat) : Option Nat :=
  match region with
  | 1 => some s.evr.capWritten
  | 2 => some s.evr.histWritten
  | 3 | 5 => some (32 * s.evr.seq)
  | 4 => some (32 * s.evr.first.length)
  | 6 => some 0xB00000
  | _ => none

/-- A byte of a region, none where the ring has overwritten it (R381). The console log, and bytes of a capture buffer
that no record holds, are free values (log entry 7). -/
def State.fetchByte (s : State) (region index off : Nat) : Option Byte :=
  let evs := fun (l : List Event) => l.map fun (e : Event) => e.bytes s.fv
  match region with
  | 0 =>
    let owner := (List.finRange 64).find? fun i => s.capBuffer i.val = some index
    match owner.bind fun i => ((s.loop.slot[i.val]).cap.reverse)[off / 32]? with
    | some r => some (r.bytes.getD (off % 32) 0)
    | none => some (Config.freeByte s.fv off)
  | 1 => ringByte s.evr.capRing 128 (s.evr.capWritten / 128) off
  | 2 => ringByte s.evr.history 4096 (s.evr.histWritten / 4096) off
  | 3 => ringByte (evs s.evr.hbmArea) 32 s.evr.seq off
  | 4 => (s.evr.first[off / 32]?).map fun e => (e.bytes s.fv).getD (off % 32) 0
  | 5 => ringByte (evs s.evr.recent) 32 s.evr.seq off
  | 6 => (s.evr.slot[index]?).map fun x => x.byte off
  | _ => some (Config.freeByte s.fv off)

/-- FETCH (R381): it starts, at most 4 in flight for a session. -/
def execFetch (h : Sys2Proof.MsgHdr) (region index : BitVec 8) (off : BitVec 64) (len : BitVec 32) (s : State) :
    Host.Outcome State Fault Refusal :=
  let r := region.toNat
  let i := index.toNat
  let n := len.toNat
  let body := leBytes 1 r ++ leBytes 1 i ++ leBytes 2 0 ++ leBytes 8 off.toNat ++ leBytes 4 n
  .next (s.serve h ((queueOf 0x40 r).getD 7) 0x40 .monitor body fun s =>
    if 7 < r || n = 0 || 2 ^ 24 < n || (r = 0 && 15 < i) || (r = 6 && 3 < i) then s.reply h 0x40 stMalformed
    else if 4 ≤ (s.sess h.sess).fetches.length then s.reply h 0x40 stBusy
    else s.updSess h.sess fun x =>
      { x with fetches := x.fetches ++
          [{ reqId := h.reqId.toNat, region := r, index := i, off := off.toNat, left := n, sent := [] }] })

/-- FETCH_DATA (R381): the next bytes of a fetch, at most 8,192. Bytes the region does not hold yet wait; overwritten
ones end the fetch with STALE, and the freeze point of a frozen capture ring ends one of region 1 with LAST (R485). -/
def execFetchData (n : Fin 64) (reqId : BitVec 32) (s : State) : Host.Outcome State Fault Refusal :=
  let id := reqId.toNat
  .next (
    match (s.sess n).fetches.find? fun f => f.reqId = id with
    | none => s
    | some f =>
      let want := min 8192 f.left
      let k := match s.fetchEnd f.region with
        | some e => min want (e - f.off)
        | none => want
      let ends := k = f.left || (f.region = 1 && s.evr.capFrozen && k < want)
      if !s.net.linkUp || (k = 0 && !ends) then s
      else
        let drop := fun (s : State) => s.updSess n fun x => { x with fetches := x.fetches.filter fun g => g.reqId != id }
        match (List.range k).mapM fun j => s.fetchByte f.region f.index (f.off + j) with
        | none => (drop s).sendTo n 0x41 id stStale flUnsolicited (leBytes 8 f.off)
        | some l =>
          let body := leBytes 8 f.off ++ l
          if ends then
            (drop s.used).sendTo n 0x41 id stOk (flUnsolicited + flLast) (body ++ leBytes 4 (crc32c (f.sent ++ l)))
          else
            (s.used.updSess n fun x => { x with fetches := x.fetches.map fun g =>
              if g.reqId = id then { g with off := g.off + k, left := g.left - k, sent := g.sent ++ l } else g }).sendTo
              n 0x41 id stOk flUnsolicited body)

/-! Pushes (R79, R382, R437, R439). -/

/-- PUSH_BEGIN (R79, R382): BUSY while a load is open or a swap pending; a READY shadow is replaced. -/
def execPushBegin (h : Sys2Proof.MsgHdr) (total : BitVec 32) (s : State) : Host.Outcome State Fault Refusal :=
  .next (s.serve h 8 0x50 .integrator (leBytes 4 total.toNat) fun s =>
    let st := s.cfg.shadowState
    if s.sys.state = .shipPrep then s.reply h 0x50 stNotReady
    else if st = .receiving || st = .checking || s.cfg.swapPending.isSome then s.reply h 0x50 stBusy
    else
      let s := if st = .ready then s.dropShadow else s
      let s := { s with cfg := { s.cfg with
        shadowState := .receiving, shadow := none, staging := []
        push := some { sess := h.sess.val, length := total.toNat, pieces := [], at_ := s.rootNs } } }
      ((s.stageBegin total.toNat).ev 0x2001).reply h 0x50 stOk)

/-- PUSH_DATA (R382). -/
def execPushData (h : Sys2Proof.MsgHdr) (off : BitVec 32) (data : List Byte) (s : State) :
    Host.Outcome State Fault Refusal :=
  .next (s.serve h 8 0x51 .integrator (leBytes 4 off.toNat ++ data) fun s =>
    match s.cfg.push with
    | none => s.reply h 0x51 stMalformed
    | some p =>
      if p.sess != h.sess.val then s.reply h 0x51 stBusy
      else if 8192 < data.length || p.length < off.toNat + data.length then s.reply h 0x51 stMalformed
      else
        (({ s with cfg := { s.cfg with
            push := some { p with pieces := { off := off.toNat, data := data } :: p.pieces, at_ := s.rootNs } } }).stagePut
          off.toNat data).reply h 0x51 stOk)

/-- A byte of a push: that of the piece that came last. -/
def Push.byte (p : Push) (i : Nat) : Option Byte :=
  p.pieces.findSome? fun x => if x.off ≤ i then x.data[i - x.off]? else none

/-- PUSH_END (R382, R437, R439): a complete push goes to the checks of R80, an image with the firmware magic to the firmware
loader (DEDUCED, log entry 38); in recovery every other push is answered NOT_READY and discarded. -/
def execPushEnd (h : Sys2Proof.MsgHdr) (s : State) : Host.Outcome State Fault Refusal :=
  .next (s.serve h 8 0x52 .integrator [] fun s =>
    match s.cfg.push with
    | none => s.reply h 0x52 stMalformed
    | some p =>
      if p.sess != h.sess.val then s.reply h 0x52 stMalformed
      else
        match (List.range p.length).mapM p.byte with
        | none => s.dropShadow.reply h 0x52 stMalformed
        | some l =>
          let s := { s with cfg := { s.cfg with push := none } }
          if isFirmware l then
            { s with cfg := { s.cfg with shadowState := .empty }, sec := { s.sec with fwPending := some l } }.reply h 0x52 stOk
          else if s.sec.recovery then s.dropShadow.reply h 0x52 stNotReady
          else { s with cfg := { s.cfg with shadowState := .checking, staging := l } }.reply h 0x52 stOk)

/-- PUSH_TIMEOUT (R382): 10 s without PUSH_DATA. -/
def execPushTimeout (s : State) : Host.Outcome State Fault Refusal :=
  .next (if s.cfg.push.any fun p => s.elapsedNs p.at_ 10000000000 then s.dropShadow else s)

/-! Attestation (R448). -/

/-- The signed part of a report, 272 bytes. -/
def State.attestBytes (s : State) (nonce : List Byte) : List Byte :=
  let c := s.sec
  let stored := match s.cfg.bootMark with
    | 1 => s.cfg.slotA.map imageDigest
    | 2 => s.cfg.slotB.map imageDigest
    | _ => none
  let flags := bitAt c.fwSlotB 0 + bitAt c.fwFallback 1 + 4 * s.cfg.bootSlot + bitAt s.cfg.unstored 4
    + bitAt c.fwStaged 5
  leBytes 2 1 ++ leBytes 1 c.lifecycle ++ leBytes 1 flags ++ leBytes 4 s.stateWord ++ bytesAt nonce 0 32
  ++ bytesAt c.serial 0 16 ++ bytesAt c.fwDigest 0 48 ++ bytesAt s.cfg.activeDigest 0 48
  ++ bytesAt (stored.getD []) 0 48
  ++ leBytes 1 c.fwRollback ++ leBytes 1 c.fwCounter ++ leBytes 1 s.cfg.activeRollback ++ leBytes 1 c.cfgCounter
  ++ leBytes 4 s.sys.resetCause ++ leBytes 8 s.sys.timeNs ++ leBytes 8 s.sys.tick
  ++ (s.cfg.limitEff.toList.flatMap fun v => leBytes 4 (codeS 32 v)) ++ leBytes 4 s.sys.violCount ++ leBytes 4 0

/-- ATTEST (R448): two responses. The signatures of the device identity are free values (log entry 7). -/
def execAttest (h : Sys2Proof.MsgHdr) (nonce : List Byte) (s : State) : Host.Outcome State Fault Refusal :=
  .next (s.serve h 9 0x60 .monitor nonce fun s =>
      let s := s.used
      let report := s.attestBytes nonce ++ (List.range 16608).map (Config.freeByte s.fv)
      let s := { s with sec := { s.sec with attestCount := bump 32 s.sec.attestCount } }
      let s := s.reply h 0x60 stOk (report.take 8944)
      (s.sendTo h.sess 0x60 h.reqId.toNat stOk (flResponse + flLast) (report.drop 8944)).ev 0x1040)

/-! Network control (R377, R390, R397). -/

/-- A budget takes force (R397, R403): event 0xA059 marks a newer version. -/
def State.takeBudget (s : State) (version budget : Nat) (src : Nat × Nat) : State :=
  let newer := s.net.rowSrc.isNone || s.net.rowVersion < version
  let s := { s with net := { s.net with rowVersion := version, rowSrc := some src
                                        rowBudget := if budget = 0xFFFFFFFF then none else some budget } }
  if newer then s.ev 0xA059 else s

/-- The ROW_BUDGET frame of the budget held. -/
def State.sendBudget (s : State) : State :=
  s.rowSend 0x12 (leBytes 4 s.net.rowVersion ++ leBytes 4 (s.net.rowBudget.getD 0xFFFFFFFF))

/-- ROW_BUDGET (R390, R397): only a newer version than the one held. -/
def execRowBudget (h : Sys2Proof.MsgHdr) (version budget : BitVec 32) (s : State) :
    Host.Outcome State Fault Refusal :=
  .next (s.serve h 2 0x70 .operator (leBytes 4 version.toNat ++ leBytes 4 budget.toNat) fun s =>
    if s.net.rowSrc.isSome && version.toNat ≤ s.net.rowVersion then s.reply h 0x70 stStale
    else
      ((s.takeBudget version.toNat budget.toNat (s.rackId, s.shelfIndex)).sendBudget).reply h 0x70 stOk)

/-- MACSEC_KEY (R377): CKN and CAK are stored in flash, and MKA restarts with them: the secure associations
of the old ones end. -/
def execMacsecKey (h : Sys2Proof.MsgHdr) (ckn cak : List Byte) (s : State) : Host.Outcome State Fault Refusal :=
  .next (s.serve h 2 0x71 .integrator (ckn ++ cak) fun s =>
    (({ s with net := { s.net with cak := some (ckn ++ cak) } }).macsecEnds).reply h 0x71 stOk)

end Sys2Proof.Machine
end

