-- ==== Sys2Proof/Machine/Loop.lean ====
section
/-! DEFINITION. The commands of the control engine's slots (05), beside TICK. -/

namespace Sys2Proof.Machine

/-- The slot is configured. -/
def State.hasSlot (s : State) (i : Fin 64) : Bool := (s.slotRec i.val).isSome

/-- A frozen section is released (R156). -/
def State.unfreeze (s : State) (i : Fin 64) : State :=
  if (s.slot i).frozen then
    (s.updSlot i fun x => { x with frozen := false, freezeReq := none, osc := { x.osc with quiet := 0 } }).ev 0x4014
      i.val
  else s

/-- INTEG_RELEASED (R156): a full window has passed with no qualifying crossing. -/
def execIntegReleased (i : Fin 64) (s : State) : Host.Outcome State Fault Refusal :=
  .next (
    match s.slotRec i.val with
    | some r => if r.oscWindow ≤ (s.slot i).osc.quiet then s.unfreeze i else s
    | none => s)

/-- A write of TEST_START (R158): refused outside RUN, while a test runs or while a snapshot is held or still fills the
buffer it has taken (log entry 93). A slot without a test signal ignores it (R167). -/
def State.testStart (s : State) (i : Fin 64) : State :=
  if !s.hasSlot i || (s.testRec i.val).isNone then s
  else
    let x := s.slot i
    if s.sys.state != .run || x.test.state.live || x.snapHeld || x.snapLeft.isSome then
      s.updSlot i fun x => { x with test := { x.test with refused := true } }
    else
      let t := s.sys.tick
      s.updSlot i fun x => { x with displaced := false, test := { state := .pending, notBefore := t + 2 } }

/-- TEST_START (R158, R167). -/
def execTestStart (sess : Fin 64) (i : Fin 64) (s : State) : Host.Outcome State Fault Refusal :=
  .next (s.regCmdAt (s.hasSlot i) sess .oa fun s => s.testStart i)

/-- TEST_STARTED (R158, R159): the evaluation of the tick that begins next is the first of the test. The shift
register starts with all ones, and a capture starts with an empty buffer. -/
def execTestStarted (i : Fin 64) (s : State) : Host.Outcome State Fault Refusal :=
  .next (
    match s.testRec i.val with
    | none => s
    | some r =>
      if (s.slot i).test.state != .pending || s.sys.tick + 1 < (s.slot i).test.notBefore then s
      else
        let cap := s.testCaptures i
        let s := s.updSlot i fun x =>
          { x with cap := if cap then [] else x.cap
                   test := { x.test with state := .running, j := 0, records := 0
                                         phase := 0
                                         lfsr := if r.testForm = 1 then 2 ^ r.u8 0x10 - 1 else 0 } }
        s.ev 0x4030 i.val)

/-- TEST_DONE (R158): LENGTH evaluations are complete. -/
def execTestDone (i : Fin 64) (s : State) : Host.Outcome State Fault Refusal :=
  .next (
    match s.testRec i.val with
    | none => s
    | some r =>
      if (s.slot i).test.state = .running && r.testLen ≤ (s.slot i).test.j then
        (s.updSlot i fun x => { x with test := { x.test with state := .done, refused := false } }).ev 0x4031 i.val
      else s)

/-- TEST_STOP (R158, R167). -/
def execTestStop (sess : Fin 64) (i : Fin 64) (s : State) : Host.Outcome State Fault Refusal :=
  .next (s.regCmdAt (s.hasSlot i) sess .oa fun s => s.testAbort i)

/-- A write of BANK_PRIMARY (R152): bank 0 from the next evaluation. -/
def State.bankPrimary (s : State) (i : Fin 64) : State :=
  if (s.slot i).altBank then s.updSlot i fun x => { x with bankReq := some false } else s

/-- BANK_PRIMARY (R152, R167). -/
def execBankPrimary (sess : Fin 64) (i : Fin 64) (s : State) : Host.Outcome State Fault Refusal :=
  .next (s.regCmdAt (s.hasSlot i) sess .oa fun s => s.bankPrimary i)

/-- UNFREEZE (R156, R167). -/
def execUnfreeze (sess : Fin 64) (i : Fin 64) (s : State) : Host.Outcome State Fault Refusal :=
  .next (s.regCmdAt (s.hasSlot i) sess .oa fun s => s.unfreeze i)

/-- SNAPSHOT_TAKEN (R160): the 1,024 records after the firing have entered the buffer. -/
def execSnapshotTaken (i : Fin 64) (s : State) : Host.Outcome State Fault Refusal :=
  .next (
    if (s.slot i).snapLeft = some 0 then
      (s.updSlot i fun x => { x with snapHeld := true, snapLeft := none }).ev 0x4033 i.val
    else s)

/-- A write of SNAP_RELEASE (R160). -/
def State.snapRelease (s : State) (i : Fin 64) : State :=
  if (s.slot i).snapHeld then (s.updSlot i fun x => { x with snapHeld := false }).ev 0x4034 i.val else s

/-- SNAP_RELEASE (R160, R167). -/
def execSnapRelease (sess : Fin 64) (i : Fin 64) (s : State) : Host.Outcome State Fault Refusal :=
  .next (s.regCmdAt (s.hasSlot i) sess .oa fun s => s.snapRelease i)

end Sys2Proof.Machine
end

