-- ==== Sys2Proof/Machine/Prot.lean ====
section
/-! DEFINITION. The commands of protection, of Basalt and of the coolant rules (12). -/

namespace Sys2Proof.Machine

/-- STRING_ISOLATED (R407): a string reaches stage 2. -/
def execStringIsolated (i : Fin 4) (s : State) : Host.Outcome State Fault Refusal :=
  .next (if s.stageTwo i && !s.prot.str[i.val].isolated then s.isolate i else s)

/-- UNMON_LIMITED (R404, R408): a cell has been UNMONITORED for UNMON_S; the trip names its node. -/
def execUnmonLimited (i : Fin 4) (s : State) : Host.Outcome State Fault Refusal :=
  let cell := match s.ringOf i.val with
    | some c => (s.ringCells c).find? fun k =>
        ((s.ring c).cellAt k).unmonitored && s.elapsed ((s.ring c).cellAt k).unmonAt (500000 * s.prot.unmonS)
    | none => none
  .next (match cell with
    | some k =>
      if s.prot.str[i.val].unmonLimit then s
      else
        let node := ((s.ringOf i.val).bind fun c => (s.nodeList c).find? fun n => (s.cellsOf c n).any fun x => x.2 = k).getD 0
        (s.updStrProt i fun p => { p with unmonLimit := true, cellNo := k }).strTrip i 0xB025 node none
    | none => s)

/-- BUS_OV_TRIP (R405): the bus voltage, mV, at or above the limit (log entry 111). In RUN the device passes to ARMED; in BASALT the drivers are held
low; elsewhere a group that is still STOPPING is OFF. -/
def execBusOvTrip (v : Int) (s : State) : Host.Outcome State Fault Refusal :=
  .next (
    if s.prot.busOv || v < s.limit 2 then s
    else
      let s := { s with prot := { s.prot with busOv := true, ovTick := s.sys.tick } }
      let s := s.tripV 0xB010 0xFF 0 v (s.limit 2) noInst
      match s.sys.state with
      | .run => s.leaveRunOff.afterOff
      | .basalt => s.gdrvLow
      | _ => if s.allOff then s.gdrvLow else s.groupsOff.afterOff)

/-- BUS_OV_RECOVERY (R405): the bus has stayed below BUS_SET_MAX for 10 ms. -/
def execBusOvRecovery (s : State) : Host.Outcome State Fault Refusal :=
  .next (if s.prot.busOv && s.elapsed s.prot.ovTick 5000 then ({ s with prot := { s.prot with busOv := false } }).basaltGdrv else s)

/-- BUS_UV_TRIP (R406): the bus voltage, mV, at or below the limit (log entry 111). -/
def execBusUvTrip (v : Int) (s : State) : Host.Outcome State Fault Refusal :=
  .next (
    if s.prot.busUv || s.limit 3 < v then s
    else
      let s := { s with prot := { s.prot with busUv := true, uvTick := s.sys.tick } }
      ((s.tripV 0xB011 0xFF 0 v (s.limit 3) noInst).holdSync).throttleAllPorts 6)

/-- BUS_UV_CLEARED (R406): the trip ends at least 1 ms after it began, and with it a bus fault. -/
def execBusUvCleared (s : State) : Host.Outcome State Fault Refusal :=
  .next (
    if s.prot.busUv && s.elapsed s.prot.uvTick 500 then
      let s := { s with prot := { s.prot with busUv := false, busFault := false } }
      (((s.holdSync).clearCause 6).basaltGdrv).ev 0xB012
    else s)

/-- BUS_FAULT (R406): the bus stays below BUS_UV_TRIP for UV_PERSIST_MS; its voltage, mV. -/
def execBusFault (v : Int) (s : State) : Host.Outcome State Fault Refusal :=
  .next (
    if !s.prot.busUv || s.prot.busFault || s.limit 3 < v || !s.elapsed s.prot.uvTick (500 * s.prot.uvPersistMs) then s
    else
      let s := { s with prot := { s.prot with busFault := true } }
      let s := s.tripV 0xB013 0xFF 0 v (s.limit 3) noInst
      match s.sys.state with
      | .run => s.leaveRunOff.afterOff
      | .basalt => s.gdrvLow
      | _ => if s.allOff then s.gdrvLow else s.groupsOff.afterOff)

/-- DIE_WARN (R409): the die temperature, 0.01 C. -/
def execDieWarn (t : Int) (s : State) : Host.Outcome State Fault Refusal :=
  let s := s.dieRead t
  .next (if 100 * (s.prot.dieWarnC : Int) ≤ t then s.dieWarnSet else s)

/-- DIE_WARN_CLEARED (R409): the die is 5 C below. -/
def execDieWarnCleared (t : Int) (s : State) : Host.Outcome State Fault Refusal :=
  let s := s.dieRead t
  .next (
    if s.prot.dieWarn && decide (t < 100 * (s.prot.dieWarnC : Int) - 500) then
      (({ s with prot := { s.prot with dieWarn := false }
                 fce := { s.fce with dieStop := false } }).ev 0xB031).engineSync
    else s)

/-- DIE_TRIP (R404, R412): a cause of Basalt; outside RUN it also stops the forecast engine. -/
def execDieTrip (t : Int) (s : State) : Host.Outcome State Fault Refusal :=
  let s := s.dieRead t
  .next (if s.prot.dieTrip then ((s.tripV 0xB032 0xFF 0 t (s.limit 9) noInst).dieWarnSet).basaltCause 2 else s)

/-- MISSED_TICKS (R411, R412, R417, R432): strobes in succession that have failed to arrive are counted; three of them are a
cause of Basalt, watched from the first active configuration on. -/
def execMissedTicks (missed : Nat) (s : State) : Host.Outcome State Fault Refusal :=
  .next (
    if missed = 0 then s
    else
      let s := { s with prot := { s.prot with
        missedTicks := satU 32 (s.prot.missedTicks + missed), missTick := s.sys.tick } }
      if s.cfg.activeValid && 3 ≤ missed then s.basaltCause 0 else s)

/-- A quotient of Basalt's law, rounded towards zero; by a voltage of zero it is not stated: a free value (log
entry 7). -/
def basaltQuot (a b : Int) : Int := if b = 0 then Config.divZero a else Int.tdiv a b

/-- One update of a group under Basalt (R414): its peak command after the update. -/
def State.basaltPeak (s : State) (g : Fin 4) (img : BasaltImg) (total : Int) (vBus vStr : Int) : Int :=
  let n : Int := s.nAct g
  let iBus := 50 * (800000 - vBus)
  let share := basaltQuot (basaltQuot (Int.tdiv (iBus * n) total * vBus) vStr) n
  let target := if 0 ≤ share then share + img.rippleHalf else share - img.rippleHalf
  let lim := img.peakLimits.foldl min (min (img.phPeak + img.rippleHalf) (Int.tdiv (2 * s.limit 1) 3))
  let target := clampI (-lim) lim target
  let st := Int.tdiv img.phPeak 4
  let old := s.prot.basaltIpk[g.val]
  old + clampI (-st) st (target - old)

/-- A group's frames under Basalt start at its first update (R414). -/
def State.basaltFrames (s : State) (g : Fin 4) : State :=
  if (s.grp g).framing then s
  else
    let start := 80000 * s.sys.tick
    let s := s.updGrp g fun x => { x with framing := true, period := 400000, frameStart := start
                                          frames := (start, 400000) :: x.frames }
    (if (s.grp g).reinterleave then s.reinterleave g else s.placeOffsets g).scheduleFrame g start

/-- The ramp to 0 of the rootless stop (R416): one update of its 20,000, linear from the commands it began from. At its end
the drivers go low. -/
def State.rootlessStep (s : State) : State :=
  let k := s.prot.rootRamp
  if k = 0 then s
  else
    let ipk := mapV s.prot.rootIpk fun _ x => Int.tdiv (x * ((k - 1 : Nat) : Int)) 20000
    let s := { s with prot := { s.prot with rootRamp := k - 1, basaltIpk := ipk } }
    let s := (List.finRange 4).foldl (fun s g =>
      if (s.grp g).state = .basalt then
        (s.actives g).foldl (fun s p => s.updPh p fun x => { x with iPk := ipk[g.val], iPkNext := ipk[g.val] }) s
      else s) s
    if k = 1 then s.gdrvLow else s

/-- A peak command of Basalt: every active phase of the group takes it. -/
def State.basaltTake (s : State) (g : Fin 4) (i : Int) : State :=
  let s := { s with prot := { s.prot with basaltIpk := updV s.prot.basaltIpk g fun _ => i } }
  (s.actives g).foldl (fun s p => s.updPh p fun x => { x with iPk := i, iPkNext := i }) s

/-- One update of a group that Basalt stops (R426, R441): its command falls in proportion to the ramp of SS_MS, of which an
update is 25 ticks. -/
def State.basaltRamp (s : State) (g : Fin 4) : State :=
  if (s.grp g).state = .stopping && (s.grp g).basaltStop then
    let s := s.updGrp g fun x => { x with rampLeft := x.rampLeft - 25 }
    s.basaltTake g (Int.tdiv ((s.grp g).stopPk * ((s.grp g).rampLeft : Nat)) ((s.grp g).rampLen : Nat))
  else s

/-- BASALT_UPDATE (R410, R414): every 50 us the monitor converters' readings of every group, mV. The groups in state BASALT
whose driver enable is high take their next peak command; those that stop with Basalt go on with their ramp. The bus voltage
reported is that of the lowest group of the image. -/
def execBasaltUpdate (m : Sys2Proof.BasaltSense) (s : State) : Host.Outcome State Fault Refusal :=
  let on := match s.prot.updateTick with
    | some t => s.elapsed t 25
    | none => true
  let run := if s.sys.state = .basalt && s.clk.fabricStopped then min 1200000 (s.prot.rootlessRun + 1) else 0
  .next (
    if !on then { s with prot := { s.prot with rootlessRun := run } }
    else
      let v := match (List.finRange 4).find? fun g => s.prot.image[g.val].isSome with
        | some g => sat32 m.vBus[g.val]
        | none => s.prot.busVBasalt
      let s := ({ s with prot := { s.prot with updateTick := some s.sys.tick, busVBasalt := v } }).rootlessStep
      let s := { s with prot := { s.prot with rootlessRun := run } }
      let s := (List.finRange 4).foldl State.basaltRamp s
      let l := (List.finRange 4).filter fun g =>
        !s.prot.rootless && (s.grp g).state = .basalt && s.sys.gdrvEn[g.val] && s.nAct g != 0
      let total : Int := ((l.map fun g => s.nAct g).sum : Nat)
      l.foldl (fun s g =>
        match s.prot.image[g.val] with
        | none => s
        | some img => (s.basaltTake g (s.basaltPeak g img total m.vBus[g.val] m.vStr[g.val])).basaltFrames g) s)

/-- ENTRY_HOLD_RELEASE (R413): Basalt's 10 ms have run. -/
def execEntryHoldRelease (s : State) : Host.Outcome State Fault Refusal :=
  .next (if s.prot.entryHold && s.elapsed s.prot.entryTick 5000 then ({ s with prot := { s.prot with entryHold := false } }).holdSync else s)

/-- BASALT_ROOTLESS_STOP (R416): 60 s, which are 1,200,000 updates, in BASALT without the root clock; the commands ramp to 0 over the next 20,000 updates,
and the groups stay off until the device leaves BASALT. -/
def execBasaltRootlessStop (s : State) : Host.Outcome State Fault Refusal :=
  .next (
    if s.sys.state = .basalt && s.clk.fabricStopped && !s.prot.rootless
        && s.prot.rootlessRun = 1200000 then
      { s with prot := { s.prot with rootless := true, rootRamp := 20000, rootIpk := s.prot.basaltIpk } }.ev 0xB005
    else s)

/-- MISSED_TICKS_CLEARED (R417): 50,000 ticks with ROOT_LOCK and no miss. -/
def execMissedTicksCleared (s : State) : Host.Outcome State Fault Refusal :=
  .next (
    if s.clk.rootLock && !s.clk.fabricStopped && s.elapsed s.prot.missTick 50000 then s.causeClear 0 else s)

/-- DIE_TRIP_CLEARED (R417): the die has stayed below DIE_TRIP - 10.00 C for 10 s. -/
def execDieTripCleared (t : Int) (s : State) : Host.Outcome State Fault Refusal :=
  let s := s.dieRead t
  .next (if t < s.limit 9 - 1000 && s.elapsed s.prot.dieHotTick 5000000 then s.causeClear 2 else s)

/-- BASALT_AUTO_EXIT (R418): EXIT_HOLD_S after EXIT_OK, with AUTO_EXIT and without cause OPERATOR. -/
def execBasaltAutoExit (s : State) : Host.Outcome State Fault Refusal :=
  .next (
    if s.sys.state = .basalt && s.prot.exitOk && s.prot.autoExit && !s.prot.causes[3]
        && s.elapsed s.prot.exitTick (500000 * s.prot.exitHoldS) then
      s.basaltExit.afterBasalt
    else s)

/-- BASALT_ENTER (R411, R429). -/
def execBasaltEnter (sess : Fin 64) (s : State) : Host.Outcome State Fault Refusal :=
  .next (s.regCmd sess .or_ fun s => s.basaltCause 3)

/-- The exit by register (R418): a write while EXIT_OK is 0 is ignored. -/
def State.basaltExitReq (s : State) : State :=
  if s.sys.state = .basalt && s.prot.exitOk then s.basaltExit.afterBasalt else s

/-- BASALT_EXIT (R418, R429). -/
def execBasaltExit (sess : Fin 64) (s : State) : Host.Outcome State Fault Refusal :=
  .next (s.regCmd sess .oa State.basaltExitReq)

/-- A group handed to Basalt under R156 returns after at least 1 s (R419). One that is OFF with Basalt stays OFF, as an OFF
group of R186 does. -/
def State.groupReturn (s : State) (g : Fin 4) : State :=
  if s.loop.basaltGroups[g.val] && s.prot.handTick[g.val] + 500000 ≤ s.sys.tick then
    ((if (s.grp g).underBasalt then s.startGroup g else s).resumeGroup g).ev 0xB008 g.val
  else s

/-- The groups of a GROUP_RETURN mask. -/
def State.groupReturns (s : State) (mask : Nat) : State :=
  (List.finRange 4).foldl (fun s g => if tb mask g.val then s.groupReturn g else s) s

/-- GROUP_RETURN (R419, R429). -/
def execGroupReturn (sess : Fin 64) (mask : BitVec 4) (s : State) : Host.Outcome State Fault Refusal :=
  .next (s.regCmd sess .or_ fun s => s.groupReturns mask.toNat)

/-- COOLANT_FLOW_LOW (R421): the flow has been below COOL_FLOW_MIN for FLOW_MS. -/
def execCoolantFlowLow (s : State) : Host.Outcome State Fault Refusal :=
  .next (if s.prot.flowLow || s.prot.flowBelow < 5000 * s.prot.flowMs then s
    else ({ s with prot := { s.prot with flowLow := true } }).coolantLoss 0xB040)

/-- The CDU's alarm is relayed (R421). -/
def State.cduAlarm (s : State) : State :=
  ({ s with prot := { s.prot with cduAlarm := true } }).coolantLoss 0xB041

/-- CDU_ALARM (R421, R429). -/
def execCduAlarm (sess : Fin 64) (s : State) : Host.Outcome State Fault Refusal :=
  .next (s.regCmd sess .ox State.cduAlarm)

/-- THERMAL_RAMP_STEP (R421). -/
def execThermalRampStep (s : State) : Host.Outcome State Fault Refusal := .next s.rampStep

/-- The alarm is cleared (R421). -/
def State.cduClear (s : State) : State := { s with prot := { s.prot with cduAlarm := false } }

/-- CDU_CLEAR (R421, R429). -/
def execCduClear (sess : Fin 64) (s : State) : Host.Outcome State Fault Refusal :=
  .next (s.regCmd sess .oa State.cduClear)

/-- COOLANT_RESTORED (R421): the flow has been above COOL_FLOW_MIN for 60 s where it is measured, and the alarm is
cleared. -/
def execCoolantRestored (s : State) : Host.Outcome State Fault Refusal :=
  .next (
    if s.prot.thermalRamp && !s.prot.cduAlarm && (s.param 0x0010 0 = 0 || 30000000 ≤ s.prot.flowAbove) then
      { s with prot := { s.prot with thermalRamp := false, rampDone := false, flowLow := false, rampJ := 0
                                     rampEnv0 := [] } }.ev 0xB045
    else s)

/-- COOLANT_GROUP_STOP (R422): the next group of the coolant sequence. -/
def execCoolantGroupStop (s : State) : Host.Outcome State Fault Refusal := .next s.coolStop

/-- COOLANT_CRIT_RECOVERY (R422): the coolant has been below COOLANT_CRIT - 10.00 C for 60 s. -/
def execCoolantCritRecovery (s : State) : Host.Outcome State Fault Refusal :=
  .next (
    if s.prot.coolBelow < 30000000 then s
    else { s with prot := { s.prot with coolCrit := false, coolShutdown := false, coolNext := none } })

/-- The trip ring and PROT_TRIP_FIRST are cleared (R427). -/
def State.tripClear (s : State) : State :=
  { s with prot := { s.prot with trips := Vector.replicate 16 none, tripHead := 0, tripFirst := none } }

/-- TRIP_CLEAR (R427, R429). -/
def execTripClear (sess : Fin 64) (s : State) : Host.Outcome State Fault Refusal :=
  .next (s.regCmd sess .oa State.tripClear)

end Sys2Proof.Machine
end

