-- ==== Sys2Proof/Machine/RegSys.lean ====
section
/-! DEFINITION. What the registers of the SYS, SEC, CFG and AFE windows read (R16, R53 to R56, R89 to R93, R120 to R128,
R451 to R454), by their offset; none where no register lies (R495). -/

namespace Sys2Proof.Machine

/-- The halves of a 64-bit pair (R12). -/
def loW (x : Nat) : Nat := x % 2 ^ 32
def hiW (x : Nat) : Nat := x / 2 ^ 32 % 2 ^ 32
/-- A signed 32-bit value as a register reads it. -/
def sW (x : Int) : Nat := codeS 32 x
/-- A bit as a number. -/
def b01 (b : Bool) : Nat := if b then 1 else 0

/-- The instance and the offset within it of a region that repeats `n` times (R494); none outside it. -/
def regionAt (n base stride off : Nat) : Option (Fin n × Nat) :=
  if off < base then none
  else if h : (off - base) / stride < n then some (⟨(off - base) / stride, h⟩, (off - base) % stride) else none

/-- The words of a byte string from `base` on, `n` of them (R12). -/
def stringReg (l : List Byte) (n base off : Nat) : Option Nat :=
  (regionAt n base 4 off).bind fun x => if x.2 = 0 then some (strWord l x.1.val) else none

/-- The first register found. -/
def firstReg (l : List (Option Nat)) : Option Nat := l.findSome? id

/-- SYS_BOOT_STATUS.RINGS_UP (R452): every configured ring is ENUMERATED or beyond; 0 before a configuration. -/
def State.ringsUp (s : State) : Bool :=
  s.cfg.activeValid && s.rings.all fun c =>
    !([RingState.off, .waking, .enumerating, .failed].contains (s.ring c).state)

/-- The SYS window. -/
def State.readSys (s : State) (off : Nat) : Option Nat :=
  let c := s.clk
  let p := s.power
  match off with
  | 0x000 => some 0x00475A09
  | 0x004 => some s.sys.step
  | 0x010 => some s.stateWord
  | 0x014 => some s.sys.target
  | 0x020 => some 0
  | 0x024 => some s.sys.resetCause
  | 0x028 => some (bitAt s.sec.fusesOk 0 + bitAt s.sec.fwRunning 1 + bitAt s.sec.hbmUp 2 + bitAt s.ringsUp 3
      + bitAt s.afe.bootCalDone 4 + bitAt s.sec.recovery 5 + bitAt s.startReqNow 6 + bitAt s.sec.shipReady 7)
  | 0x030 => some (bitAt c.xtalOk 0 + bitAt c.rootLock 1 + bitAt c.refSrc 2 + bitAt c.refInPresent 3
      + bitAt c.refHoldover 4 + bitAt c.syncInActive 5 + bitAt c.ptpLock 6 + bitAt c.ptpStepped 7
      + bitAt c.basaltOscOk 8 + c.unlockCount * 2 ^ 24)
  | 0x034 => some (bitAt c.refSel 0 + bitAt c.refFallback 1 + c.holdoverS * 2 ^ 8)
  | 0x040 => some s.sys.violCount
  | 0x050 => some (loW s.sys.tick)
  | 0x054 => some (hiW s.sys.tick)
  | 0x060 => some (loW s.sys.timeNs)
  | 0x064 => some (hiW s.sys.timeNs)
  | 0x070 => some (bitAt p.aux54Ok 0 + bitAt p.stby12Ok 1 + bitAt p.stbySrc 2 + bitAt p.holdupOk 3
      + bitAt p.holdupCharging 4 + bitAt p.mate 5 + bitAt p.svcPresent 6 + bitAt p.stby12Lost 16 + bitAt p.brownout 17)
  | 0x078 => some (sW p.aux54mV)
  | 0x07C => some (sW p.stby12mV)
  | 0x080 => some (sW p.inputP)
  | 0x084 => some p.holdupE
  | _ => none

/-- The SEC window. -/
def State.readSec (s : State) (off : Nat) : Option Nat :=
  let c := s.sec
  match off with
  | 0x000 => some (bitAt c.fwSlotB 2 + bitAt c.fwFallback 3 + bitAt c.fwStaged 4 + bitAt s.debugOpen 5
      + bitAt c.custRootSet 6 + bitAt c.identityOk 7 + c.lifecycle * 2 ^ 28)
  | 0x004 => some (c.fwRollback + c.fwCounter * 2 ^ 8)
  | 0x008 => some c.cfgCounter
  | 0x00C => some c.fwResult
  | 0x010 => some c.attestCount
  | 0x1C0 => some 0
  | 0x1C4 => some 0
  | _ => firstReg [stringReg c.fwDigest 12 0x040 off, stringReg c.stagedDigest 12 0x080 off
    , stringReg (sha384 c.vendorKeys) 12 0x100 off, stringReg c.custRoot 12 0x140 off, stringReg c.serial 4 0x180 off]

/-- CFG_STATUS.SHADOW (R89). -/
def ShadowState.code : ShadowState → Nat
  | .empty => 0 | .receiving => 1 | .checking => 2 | .ready => 3 | .rejected => 4

/-- A limit register of ten, LIMIT_ID 1 to 10, from `base` on. -/
def limitReg (l : List Int) (base off : Nat) : Option Nat :=
  (regionAt 10 (base + 4) 4 off).bind fun x => if x.2 = 0 then some (sW (l.getD x.1.val 0)) else none

/-- The CFG window. -/
def State.readCfg (s : State) (off : Nat) : Option Nat :=
  let c := s.cfg
  match off with
  | 0x000 => some (c.shadowState.code + bitAt c.activeValid 8 + bitAt c.swapPending.isSome 9 + c.bootSlot * 2 ^ 12
      + bitAt c.fault 14 + bitAt c.unstored 15)
  | 0x004 => some 0
  | 0x008 => some (c.resultType + c.resultSection * 2 ^ 16 + c.resultCode * 2 ^ 24)
  | 0x00C => some c.resultOffset
  | 0x010 => some (loW c.swapTick)
  | 0x014 => some (hiW c.swapTick)
  | 0x018 => some (loW c.lastSwapTick)
  | 0x01C => some (hiW c.lastSwapTick)
  | 0x020 => some c.activeRollback
  | 0x024 => some c.eccCorr
  | 0x028 => some c.displacedCount
  | _ => firstReg [stringReg c.activeDigest 12 0x040 off, stringReg c.shadowDigest 12 0x080 off
    , limitReg c.limitEff.toList 0x100 off, limitReg limitFuse 0x180 off]

/-! The AFE window. -/

/-- AFE_ROT_a.STEP (R111, R112). -/
def RotStep.code : RotStep → Nat
  | .selfCheck => 0 | .overlapIn => 1 | .calibrating => 2 | .overlapOut => 3 | .settle => 4 | .paused => 14
  | .stopped => 15

/-- A bit map over 32 of the numbers below 164. -/
def mapOf (l : List Nat) (word : Nat) : Nat := mapWord 164 (32 * word) fun i => l.contains i

/-- A bit map of phases from `lo` on. -/
def phaseMap (v : Vector Bool 64) (lo : Nat) : Nat := mapWord 64 lo fun i => v[i]?.getD false

/-- One bit for each chiplet. -/
def State.chipBits (s : State) (lo : Nat) (p : Chiplet → Bool) : Nat :=
  ((List.finRange 4).map fun a => bitAt (p s.afe.chip[a.val]) (lo + a.val)).sum

/-- A register of a channel block (R125 to R127). -/
def State.readChannel (s : State) (c : Fin 164) (r : Nat) : Option Nat :=
  let x := s.afe.ch[c.val]
  let sh := s.afe.shunt[c.val - 160]?.getD {}
  let isSh := decide (160 ≤ c.val)
  match r with
  | 0x00 => some (bitAt (s.chEn c.val) 0 + bitAt (c.val < 64 && s.senseBias c.val) 1 + s.chMode c.val * 2 ^ 8
      + s.chRef c.val * 2 ^ 12)
  | 0x04 => some (bitAt x.valid 0 + bitAt (s.afe.senseOpen[c.val]?.getD false) 4 + bitAt x.ovr 7 + bitAt x.ovrLatch 8
      + bitAt (s.calActive c.val) 29 + bitAt (s.substituted c.val) 30 + bitAt (if isSh then sh.dead else x.dead) 31)
  | 0x08 => some (sW x.value)
  | 0x0C => some (sW (if !isSh then x.calOfs else if sh.activeB then sh.ofsB else sh.ofsA))
  | 0x10 => some (if !isSh then x.calGain else if sh.activeB then sh.gainB else sh.gainA)
  | 0x14 => some (loW (if isSh then sh.calTick else x.calTick))
  | 0x18 => some (hiW (if isSh then sh.calTick else x.calTick))
  | 0x1C => some x.failCause
  | _ => none

/-- A register of a shunt block (R128): 0 where the configuration has no such string (R496). -/
def State.readShunt (s : State) (i : Fin 4) (r : Nat) : Option Nat :=
  let x := s.afe.shunt[i.val]
  let q := codeS 64 x.q
  let v := match r with
    | 0x00 => some (bitAt (s.shuntInv i.val) 31)
    | 0x04 => some (s.shuntFs i.val)
    | 0x08 => some (sW x.i)
    | 0x0C => some (loW q)
    | 0x10 => some (hiW q)
    | 0x14 => some (bitAt x.activeB 0 + bitAt x.aFailed 4 + bitAt x.bFailed 5 + bitAt x.dead 6 + x.exchanges * 2 ^ 16)
    | _ => none
  if (s.strRec i.val).isSome then v else v.map fun _ => 0

/-- The AFE window. -/
def State.readAfe (s : State) (off : Nat) : Option Nat :=
  let a := s.afe
  match off with
  | 0x000 => some (bitAt a.bootCalDone 0
      + bitAt (a.shunt.toList.any fun x => x.aFailed || x.bFailed || x.dead) 1
      + s.chipBits 16 (fun x => x.subst.isSome && !x.spareFailed) + s.chipBits 20 Chiplet.rotStopped + s.chipBits 24 Chiplet.displaced
      + s.chipBits 28 Chiplet.spareFailed)
  | 0x004 => some (s.chipBits 0 Chiplet.rotEn)
  | 0x008 => some (a.ofsLimit * 2 ^ 8 + a.gainLimit * 2 ^ 16 + a.mismatch * 2 ^ 24)
  | 0x00C => some (a.senseThresh + a.sensePeriods * 2 ^ 8)
  | 0x010 => some (a.preNs + a.postNs * 2 ^ 8)
  | 0x060 => some (phaseMap a.senseOpen 0)
  | 0x064 => some (phaseMap a.senseOpen 32)
  | 0x068 => some (phaseMap a.senseLatch 0)
  | 0x06C => some (phaseMap a.senseLatch 32)
  | _ =>
    match regionAt 4 0x020 4 off, regionAt 4 0x030 4 off, regionAt 6 0x040 4 off, regionAt 164 0x1000 0x20 off
      , regionAt 4 0x4000 0x40 off with
    | some (i, 0), _, _, _, _ =>
      let x := a.chip[i.val]
      some (x.rotations + x.chan * 2 ^ 16 + x.step.code * 2 ^ 28)
    | _, some (i, 0), _, _, _ =>
      let x := a.chip[i.val]
      some (x.subst.getD 0 * 2 ^ 16 + bitAt x.spareFailed 30 + bitAt x.subst.isSome 31)
    | _, _, some (w, 0), _, _ => some (mapOf a.failMap w.val)
    | _, _, _, some (c, r), _ => s.readChannel c r
    | _, _, _, _, some (i, r) => s.readShunt i r
    | _, _, _, _, _ => none

end Sys2Proof.Machine
end

