-- ==== Sys2Proof/Machine/RegCtl.lean ====
section
/-! DEFINITION. What the registers of the LOOP, PWM and FCE windows read (R161 to R168, R202 to R210, R240 to R247).
The registers of an instance that is not configured read 0 (R496). -/

namespace Sys2Proof.Machine

/-- A register of an instance: 0 where the instance is not configured (R496). -/
def ifLive (live : Bool) (v : Option Nat) : Option Nat := if live then v else v.map fun _ => 0

/-! The LOOP window. -/

/-- LOOP_SLOT_TEST.STATE (R168). -/
def TestState.code : TestState → Nat
  | .idle => 0 | .pending => 1 | .running => 2 | .done => 3 | .aborted => 4 | .refused => 5 | .displaced => 6

/-- A bit map over slots from `lo` on. -/
def State.slotMap (s : State) (lo : Nat) (p : Slot → Bool) : Nat := mapWord 64 lo fun i => (s.loop.slot[i]?.map p).getD false

/-- Tick of the oldest record of a capture buffer, 0 with none (R168). -/
def Slot.capStart (x : Slot) : Nat := (x.cap.getLast?.map CapRec.tick).getD 0

/-- LOOP_SLOT_CFG, LOOP_SLOT_OSC_CFG and LOOP_SLOT_OSC_CFG2 (R165). -/
def Rec.slotCfg (r : Rec) (k : Nat) : Nat :=
  match k with
  | 0 => r.div + (if r.kind = 1 || r.kind = 2 then r.group % 4 else 0) * 2 ^ 13 + r.sections * 2 ^ 15 + r.kind * 2 ^ 20
      + r.parent * 2 ^ 24
  | 1 => r.u8 0x13 + r.u8 0x15 * 2 ^ 8 + r.u8 0x12 * 2 ^ 12 + r.u16 0x10 * 2 ^ 16
  | _ => r.u8 0x17 + r.u8 0x16 * 2 ^ 8 + r.u8 0x14 * 2 ^ 16 + r.oscAction * 2 ^ 24

/-- LOOP_SLOT_STATUS.BASALT_HELD (R166): Basalt holds the slot's group, under R156 or in BASALT. -/
def State.slotInBasalt (s : State) (i : Fin 64) : Bool :=
  (s.slot i).basaltHeld || ((s.slotRec i.val).any fun r => (r.kind = 1 || r.kind = 2)
    && ((s.pwm.grp[r.group]?).map Group.underBasalt).getD false)

/-- A register of a slot (R165 to R168). -/
def State.readSlot (s : State) (i : Fin 64) (r : Nat) : Option Nat :=
  let x := s.slot i
  let c := s.slotRec i.val
  let cfg := fun (k : Nat) => some ((c.map fun y => y.slotCfg k).getD 0)
  let v := match r with
    | 0x00 => cfg 0
    | 0x04 => cfg 1
    | 0x08 => cfg 2
    | 0x0C => some (bitAt true 0 + bitAt x.fbInvalid 2 + bitAt x.fbPartial 3 + bitAt x.ffInvalid 4 + bitAt x.shadowOvf 5
        + bitAt x.mainSat 6 + bitAt x.outSat 7 + bitAt x.ramping 24 + bitAt x.held 25 + bitAt x.shadow 26
        + bitAt x.altBank 27 + bitAt x.frozen 28 + bitAt (s.slotInBasalt i) 29 + bitAt x.snapHeld 30 + bitAt x.displaced 31)
    | 0x10 => some 0
    | 0x14 => some (sW (if (c.map Rec.kind).getD 0 = 4 then x.baseSp else x.sp))
    | 0x18 => some (sW x.fb)
    | 0x1C => some (sW x.err)
    | 0x20 => some (sW x.ff)
    | 0x24 => some (sW x.out)
    | 0x28 => some (sW x.cShadow)
    | 0x2C => some (sW x.cMain)
    | 0x30 => some x.satCount
    | 0x34 => some (x.nBank + x.nFire * 2 ^ 8 + x.nMain * 2 ^ 16 + x.nShadow * 2 ^ 24)
    | 0x38 => some (loW x.oscTick)
    | 0x3C => some (hiW x.oscTick)
    | 0x40 => some (x.test.records + (if x.test.refused then 5 else x.test.state.code) * 2 ^ 28)
    | 0x44 => some (loW x.capStart)
    | 0x48 => some (hiW x.capStart)
    | _ => none
  ifLive c.isSome v

/-- The LOOP window. -/
def State.readLoop (s : State) (off : Nat) : Option Nat :=
  let l := s.loop
  match off with
  | 0x000 => some (bitAt l.active 0 + ((List.finRange 4).map fun g => bitAt l.basaltGroups[g.val] (4 + g.val)).sum)
  | 0x004 => some (l.ramp + l.satLimit * 2 ^ 16 + l.cleanLog2 * 2 ^ 24)
  | 0x008 => some (l.blend + l.clampKw * 2 ^ 16)
  | 0x00C => some (bitAt l.cometClamped 0 + l.cometSrc.code * 2 ^ 8 + l.cometAge * 2 ^ 24)
  | 0x010 => some (sW l.cometP)
  | 0x014 => some (sW l.cometFcst)
  | 0x018 => some (sW l.cometSched)
  | 0x020 => some (s.slotMap 0 Slot.shadow)
  | 0x024 => some (s.slotMap 32 Slot.shadow)
  | 0x028 => some (s.slotMap 0 Slot.altBank)
  | 0x02C => some (s.slotMap 32 Slot.altBank)
  | 0x030 => some (s.slotMap 0 Slot.oscLatch)
  | 0x034 => some (s.slotMap 32 Slot.oscLatch)
  | 0x038 => some (s.slotMap 0 Slot.held)
  | 0x03C => some (s.slotMap 32 Slot.held)
  | 0x040 => some l.evalMax
  | _ => (regionAt 64 0x1000 0x100 off).bind fun x => s.readSlot x.1 x.2

/-! The PWM window. -/

/-- PWM_GRP_STATUS.STATE and SYNC (R203). -/
def GrpState.code : GrpState → Nat
  | .off => 0 | .softStart => 1 | .running => 2 | .fastPath => 3 | .basalt => 4 | .stopping => 5
def SyncState.code : SyncState → Nat
  | .free => 0 | .slewing => 1 | .locked => 2 | .hold => 3 | .returning => 4

/-- A filter as a fraction of its threshold a/b, 1/4,096 a step, rounded half-even, saturating (R206); of a threshold of
0 it is a free value (log entry 42). -/
def i2tPart (x a b : Int) : Nat :=
  (clampI 0 65535 (if a ≤ 0 then Config.divZero x else divHE (x * 4096 * b) a.toNat)).toNat

/-- PWM_GRP_I2T and PWM_PH_I2T (R190, R206). -/
def i2tWord (xf xs pp pc : Int) : Nat := i2tPart xs (pc * pc) 1 + i2tPart xf (7 * pp * pp) 8 * 2 ^ 16

/-- A map of the phases of a group as one number. -/
def phasesOf (l : List (Fin 64)) : Nat := (l.map fun p => 2 ^ p.val).sum

/-- PWM_GRP_FAULT_CFG (R204). -/
def FaultCfg.word (x : FaultCfg) : Nat :=
  x.droopV + x.openPct * 2 ^ 4 + x.suspectMs * 2 ^ 8 + x.suspectPct * 2 ^ 16 + x.scRetries * 2 ^ 24 + x.openCycles * 2 ^ 28

/-- A register of a group (R202 to R206). -/
def State.readGroup (s : State) (g : Fin 4) (r : Nat) : Option Nat :=
  let x := s.grp g
  let c := s.grpRec g.val
  let n : Int := s.nAct g
  let v := match r with
    | 0x00 => some ((s.members g.val).length + s.fsw g.val * 2 ^ 6 + s.grpVal g.val (fun y => y.u8 9) * 2 ^ 20
        + s.loadLine g.val * 2 ^ 22)
    | 0x04 => some (x.fpCount + s.nAct g * 2 ^ 16 + bitAt x.reinterleave 22 + bitAt x.limited 23 + bitAt x.foldback 24
        + x.sync.code * 2 ^ 25 + bitAt x.de 28 + x.state.code * 2 ^ 29)
    | 0x08 => some x.fault.word
    | 0x0C => some (sW x.iRef)
    | 0x10 => some (sW x.iMeas)
    | 0x14 => some (sW x.iLim)
    | 0x18 => some (sW x.vTarget)
    | 0x1C => some (sW x.p)
    | 0x20 => some (loW (phasesOf (s.members g.val)))
    | 0x24 => some (hiW (phasesOf (s.members g.val)))
    | 0x28 => some (loW (phasesOf (s.actives g)))
    | 0x2C => some (hiW (phasesOf (s.actives g)))
    | 0x30 => some (i2tWord x.xf x.xs (n * s.phPeak g.val) (n * s.phCont g.val))
    | 0x34 => some (sW x.fpThr)
    | 0x38 => some (x.holdMs + x.syncPhase * 2 ^ 8 + bitAt x.syncEn 31)
    | 0x3C => some (if x.framing then divHEN 40000000000 x.period else 0)
    | _ => none
  ifLive c.isSome v

/-- Interleave position of a phase: its place among the active phases of its group (R179, R208). -/
def State.posOf (s : State) (g : Fin 4) (p : Fin 64) : Nat := ((s.actives g).takeWhile fun q => q != p).length

/-- A register of a phase (R208 to R210). -/
def State.readPhase (s : State) (p : Fin 64) (r : Nat) : Option Nat :=
  let x := s.ph p
  let grp := s.phaseGroup p.val
  let g := grp.getD 0
  let v := match r with
    | 0x00 => some (s.slopeDac p.val + (if x.active then s.posOf g p else 0) * 2 ^ 16 + g.val * 2 ^ 28 + bitAt true 31)
    | 0x04 => some (bitAt (x.scTicks.any fun t => s.sys.tick < t + 500) 22 + bitAt (x.trim.natAbs == 512) 23
        + bitAt x.peakLimited 24 + bitAt x.charge 25 + x.cause.code * 2 ^ 26 + bitAt x.disabled 30
        + bitAt (x.active && (s.grp g).framing) 31)
    | 0x08 => some (sW (s.peakLimit p.val))
    | 0x0C => some (sW (s.iPkNow p))
    | 0x10 => some (sW x.trim)
    | 0x14 => some x.offset
    | 0x18 => some (i2tWord x.xf x.xs (s.phPeak g.val) (s.phCont g.val))
    | 0x1C => some (x.maxDuty + x.scCount * 2 ^ 16)
    | 0x20 => some 0
    | _ => none
  ifLive grp.isSome v

/-- A register of a PSU port (R210). -/
def State.readPsu (s : State) (p : Fin 16) (r : Nat) : Option Nat :=
  let x := s.psuPort p
  let v := match r with
    | 0x00 => some ((s.psuRating p.val).getD 0 % 2 ^ 16 + bitAt true 31)
    | 0x04 => some (bitAt x.inService 0 + bitAt x.lost 1 + x.status * 2 ^ 4 + x.crcErrors * 2 ^ 16)
    | 0x08 => some (sW x.ilim)
    | 0x0C => some (sW x.p)
    | 0x10 => some (sW x.v)
    | 0x14 => some (sW x.i)
    | 0x18 => some (codeS 16 x.temp + x.faultCode * 2 ^ 16)
    | 0x1C => some 0
    | _ => none
  ifLive (s.psuRating p.val).isSome v

/-- The PWM window. -/
def State.readPwm (s : State) (off : Nat) : Option Nat :=
  let w := s.pwm
  match off with
  | 0x800 => some (sW w.busSet)
  | 0x804 => some (sW w.vmax)
  | 0x808 => some (sW w.amax)
  | 0x80C => some (sW w.jmax)
  | 0x810 => some (sW s.busProfMv)
  | 0x814 => some (sW (divHE w.profV (2 ^ 24)))
  | 0x818 => some (sW (divHE (1000 * w.profA) (2 ^ 24)))
  | 0x81C => some (bitAt (w.profV != 0 || w.profA != 0 || w.profP != fxOf (w.profTarget * 1000) 1) 0
      + bitAt w.reversing 1 + bitAt w.clamped 2 + w.replans * 2 ^ 16)
  | 0x820 => some (sW w.busV)
  | 0x824 => some (sW w.plim)
  | 0x828 => some (sW ((List.finRange 16).map fun p => if (s.psuRating p.val).isSome then (s.psuPort p).ilim else 0).sum)
  | 0x82C => some w.safePct
  | _ =>
    match regionAt 4 0x000 0x100 off, regionAt 64 0x1000 0x40 off, regionAt 16 0x2000 0x20 off with
    | some (g, r), _, _ => s.readGroup g r
    | _, some (p, r), _ => s.readPhase p r
    | _, _, some (p, r) => s.readPsu p r
    | _, _, _ => none

/-! The FCE window. -/

/-- SRC, PARTIAL, SAT and SUBSAMPLED of a frame (R243). -/
def Frame.word (f : Frame) : Nat :=
  ((List.finRange 5).map fun r => f.src[r.val] * 4 ^ r.val).sum + bitAt f.partialFrame 16 + bitAt f.sat 17 + bitAt f.sub 18

/-- FCE_TEST_STATUS.STATE (R244). -/
def FceTest.code : FceTest → Nat
  | .idle => 0 | .running => 1 | .done => 2 | .aborted => 3

/-- A register of an instance (R245 to R247). -/
def State.readInst (s : State) (i : Fin 10) (r : Nat) : Option Nat :=
  let x := s.finst i
  let d := s.instModel i
  let v := match r with
    | 0x00 => some ((d.map fun y => y.u8 0x29 + y.cadence * 2 ^ 8 + bitAt true 16 + bitAt y.streamed 17
        + bitAt y.adapts 18 + bitAt (instLong i) 19 + instRole i * 2 ^ 20 + y.model * 2 ^ 24).getD 0)
    | 0x04 => some (x.divLog2 * 2 ^ 8 + x.flight.length * 2 ^ 16 + bitAt x.nan 23 + bitAt x.outSat 24
        + bitAt x.guardClamped 25 + bitAt x.suspended 26 + bitAt x.inputHeld 27 + bitAt (!x.copyWait.isEmpty) 28
        + bitAt x.noResult 29 + bitAt (x.divLog2 != 0) 30 + bitAt x.active 31)
    | 0x08 => some (bitAt x.adaptDis 1)
    | 0x0C => some x.latAvg
    | 0x10 => some x.evals
    | 0x14 => some x.misses
    | 0x18 => some (sW (fToSat x.errRms 0))
    | 0x1C => some (loW x.lastTin)
    | 0x20 => some (hiW x.lastTin)
    | 0x24 => some (x.pResets + x.reversions * 2 ^ 16)
    | _ => none
  ifLive d.isSome v

/-- A register of a model (R247). -/
def State.readModel (s : State) (m : Fin 16) (r : Nat) : Option Nat :=
  let d := (s.recs 0x0901).find? fun y => y.model = m.val
  let of := fun (f : Rec → Nat) => some ((d.map f).getD 0)
  match r with
  | 0x00 => of fun y => y.u8 0x0C + y.u8 0x0D * 2 ^ 8 + y.u8 0x0B * 2 ^ 16 + y.u8 0x0A * 2 ^ 24
  | 0x04 => of fun y => ceilDiv (modelSram [y]) 1024
  | 0x08 => of fun y => y.u32 0x20
  | _ => none

/-- The FCE window. Sizes are rounded up to their unit (log entry 42). -/
def State.readFce (s : State) (off : Nat) : Option Nat :=
  let f := s.fce
  let bitsOf := fun (lo : Nat) (p : FInst → Bool) => ((List.finRange 10).map fun i => bitAt (p (s.finst i)) (lo + i.val)).sum
  let lats := (f.lats.filter fun x => s.sys.tick < x.1 + 500000).map fun x => 2000 * x.2
  match off with
  | 0x000 => some (bitAt f.running 0 + bitAt (s.cfg.active.any fun x => x.type = 9) 1 + bitAt f.longFresh 2
      + bitAt f.short.valid 3 + bitsOf 12 FInst.active + bitsOf 22 fun x => x.divLog2 != 0)
  | 0x004 => some (bitAt f.forecastEn 0 + bitAt f.adaptEn 1)
  | 0x008 => some (f.period + f.restore * 2 ^ 8 + f.shiftMax * 2 ^ 16 + f.deadline * 2 ^ 24)
  | 0x00C => some (f.periodMs + f.deadlineMs * 2 ^ 16 + f.staleMs * 2 ^ 24)
  | 0x010 => some (loW f.short.tIn)
  | 0x014 => some (hiW f.short.tIn)
  | 0x018 => some (loW f.short.tD)
  | 0x01C => some (hiW f.short.tD)
  | 0x020 => some f.short.word
  | 0x024 => some f.long.word
  | 0x028 => some (loW f.long.tIn)
  | 0x02C => some (hiW f.long.tIn)
  | 0x030 => some (loW f.long.tD)
  | 0x034 => some (hiW f.long.tD)
  | 0x038 => some (if lats.isEmpty then 0 else divHEN lats.sum lats.length)
  | 0x03C => some f.tileUtil
  | 0x040 => some f.delivered
  | 0x044 => some f.discarded
  | 0x048 => some f.partials
  | 0x04C => some f.copyFaults
  | 0x050 => some (ceilDiv (modelSram (s.recs 0x0901)) 1024)
  | 0x054 => some (ceilDiv (modelHbm (s.recs 0x0901)) (2 ^ 20))
  | 0x060 => some (bitAt f.testDisplaced 0 + f.test.code * 2 ^ 28)
  | _ =>
    match regionAt 64 0x100 4 off, regionAt 10 0x1000 0x80 off, regionAt 16 0x2000 0x20 off with
    | some (j, 0), _, _ => some (sW (f.short.lhat.getD j.val 0))
    | _, some (i, r), _ => s.readInst i r
    | _, _, some (m, r) => s.readModel m r
    | _, _, _ => none

end Sys2Proof.Machine
end

