-- ==== Sys2Proof/Machine/RegTray.lean ====
section
/-! DEFINITION. What the registers of the TLK, CHN and EST windows read (R288 to R293, R324 to R328, R355 to R360). -/

namespace Sys2Proof.Machine

/-- A value that reads as all ones where there is none. -/
def orOnes (x : Option Nat) : Nat := (x.map (· % 2 ^ 32)).getD 0xFFFFFFFF

/-! The TLK window. -/

/-- TLK_PORT_STATUS.STATE (R291). -/
def PortState.code : PortState → Nat
  | .unused => 0 | .down => 1 | .identifying => 2 | .notReady => 3 | .safe => 4 | .active => 5 | .watch => 6
  | .takenOver => 7 | .locked => 8 | .draining => 9 | .drained => 10

/-- Ports with a property, as one number. -/
def State.portBits (s : State) (p : Port → Bool) : Nat := phasesOf (s.portsWhere p)

/-- us since the last share, saturating (R290). -/
def State.shareAge (s : State) : Nat :=
  match s.tlk.shareT with
  | some t => min 65535 ((s.sys.timeNs - t) / 1000)
  | none => 65535

/-- A register of a port (R291 to R293). -/
def State.readPort (s : State) (n : Fin 64) (r : Nat) : Option Nat :=
  let p := s.port n
  let f := p.inForce
  let inf := fun (g : Grant → Nat) => (f.map g).getD 0
  let v := match r with
    | 0x00 => some (s.safeEnv n.val + s.tray8 n.val 0x1E * 2 ^ 22 + s.tray8 n.val 0x1D * 2 ^ 28 + s.homing n.val * 2 ^ 30)
    | 0x04 => some (bitAt p.debouncing 20 + bitAt p.lastPrimaryUp 21 + bitAt (f.any Grant.fixedFreq) 22
        + bitAt (f.any Grant.barrierValid) 23 + bitAt (p.ackTries != 0) 24 + bitAt p.reportStale 25
        + bitAt p.nonCompliant 26 + bitAt p.throttled 27 + p.state.code * 2 ^ 28)
    | 0x08 => some (p.envSent + inf Grant.envelope * 2 ^ 16)
    | 0x0C => some (inf Grant.floor + p.floorMin * 2 ^ 16)
    | 0x10 => some (inf Grant.rise + inf Grant.fall * 2 ^ 16)
    | 0x14 => some (if f.any Grant.barrierValid then inf Grant.offset else 0xFFFF)
    | 0x18 => some p.lastP
    | 0x1C => some (p.gseqSent + p.gseqAck * 2 ^ 16)
    | 0x20 => some (p.role.getD 0)
    | 0x24 => some 0
    | 0x28 => some (p.errCompl + p.errMissed * 2 ^ 8 + p.errAck * 2 ^ 16 + p.errCrc * 2 ^ 24)
    | 0x2C => some p.vendor
    | 0x30 => some (strWord p.serial 0)
    | 0x34 => some (strWord p.serial 1)
    | 0x38 => some (strWord p.serial 2)
    | 0x3C => some (p.slopeMax + p.pMax * 2 ^ 16)
    | _ => none
  ifLive (p.state != .unused) v

/-- The TLK window. -/
def State.readTlk (s : State) (off : Nat) : Option Nat :=
  let t := s.tlk
  let lo := fun (p : Port → Bool) => some (loW (s.portBits p))
  let hi := fun (p : Port → Bool) => some (hiW (s.portBits p))
  let causes := ((List.finRange 7).map fun c => bitAt (t.causes[c.val]
    || (c.val = 4 && t.port.toList.any Port.thrOperator) || (c.val = 5 && t.port.toList.any Port.thrNoncompliant))
      (8 + c.val)).sum
  match off with
  | 0x000 => some (bitAt s.allThrottled 0 + bitAt s.sys.rackHoldSeen 1 + bitAt s.sys.rackHoldDrive 2 + bitAt t.releasing 3
      + bitAt (!s.allocOn) 4 + bitAt (tableCap ≤ t.table.length) 5 + bitAt t.shareStale 6 + bitAt t.overShare 7 + causes)
  | 0x004 => some 0
  | 0x008 => some (s.defaultSlope + s.defaultFall * 2 ^ 16)
  | 0x00C => some (s.slopeLimit true % 2 ^ 16 + s.slopeLimit false % 2 ^ 16 * 2 ^ 16)
  | 0x010 => some (t.share % 2 ^ 32)
  | 0x014 => some (orOnes t.envCap)
  | 0x018 => some s.envSum
  | 0x01C => some s.floorSum
  | 0x020 => some s.wantSum
  | 0x024 => some t.table.length
  | 0x028 => some t.schedRefused
  | 0x02C => some t.throttleCount
  | 0x030 => some (loW t.throttleT)
  | 0x034 => some (hiW t.throttleT)
  | 0x038 => some (t.allocPlaced * 2 ^ 8 + t.allocSpread * 2 ^ 16)
  | 0x03C => some s.shareAge
  | 0x040 => lo Port.linked
  | 0x044 => hi Port.linked
  | 0x048 => lo fun p => p.state.counted
  | 0x04C => hi fun p => p.state.counted
  | 0x050 => lo fun p => p.state == .takenOver
  | 0x054 => hi fun p => p.state == .takenOver
  | 0x058 => lo fun p => p.state == .locked
  | 0x05C => hi fun p => p.state == .locked
  | 0x060 => lo Port.nonComplLatch
  | 0x064 => hi Port.nonComplLatch
  | 0x068 => some t.grantsSent
  | _ => (regionAt 64 0x1000 0x40 off).bind fun x => s.readPort x.1 x.2

/-! The CHN window. -/

/-- CHN_RING_STATUS.STATE, CTR and LAST_KIND (R324). -/
def RingState.code : RingState → Nat
  | .off => 0 | .waking => 1 | .enumerating => 2 | .ring => 3 | .twoChain => 4 | .failed => 5 | .shipping => 6
  | .ship => 7 | .enumerated => 8
def CtrState.code : CtrState → Nat
  | .none => 0 | .open_ => 1 | .precharge => 2 | .closed => 3 | .fault => 4
def SweepKind.code : SweepKind → Nat
  | .ok => 0 | .split => 1 | .skewed => 2 | .incomplete => 3

/-- Bits of the failed paths of a node (R328). -/
def Node.pathBits (x : Node) : Nat := ((List.finRange 19).map fun p => bitAt x.failedPaths[p.val] p.val).sum
/-- A map of the nodes of a ring. -/
def Ring.nodeBits (r : Ring) (p : Node → Bool) : Nat := ((List.finRange 16).map fun n => bitAt (p r.node[n.val]) n.val).sum

/-- A register of a ring (R324, R325). -/
def State.readRing (s : State) (c : Fin 4) (r : Nat) : Option Nat :=
  let x := s.ring c
  let mw := x.nodeBits Node.mwLatch
  let diag := x.nodeBits fun n => n.pathBits != 0
  let v := match r with
    | 0x00 => some (s.sweepTicks c + s.ringStr c * 2 ^ 22 + s.ringNodes c * 2 ^ 24)
    | 0x04 => some (x.split + x.lastSeq * 2 ^ 8 + x.lastKind.code * 2 ^ 16 + x.ctr.code * 2 ^ 18 + bitAt (mw != 0) 21
        + bitAt (diag != 0) 22 + bitAt (!x.gapHeld.isEmpty) 23 + bitAt x.offWindow 24 + bitAt x.slowed 25
        + bitAt (s.anyUnmon c) 26 + bitAt (s.ringReady c) 27 + x.state.code * 2 ^ 28)
    | 0x08 => some (match x.brk with
        | some (a, b) => b + a * 2 ^ 8
        | none => 0xFFFF)
    | 0x0C => some (sW x.skew)
    | 0x10 => some (loW x.sweepT)
    | 0x14 => some (hiW x.sweepT)
    | 0x18 => some x.sweepRead
    | 0x1C => some (x.nodeBits Node.present)
    | 0x20 => some diag
    | 0x24 => some mw
    | 0x28 => some (x.nRepairs + x.nBreaks * 2 ^ 8 + x.nSkewed * 2 ^ 16 + x.nSplit * 2 ^ 24)
    | 0x2C => some x.blockErr
    | 0x30 => some 0
    | 0x34 => some x.sweepCount
    | _ =>
      match regionAt 16 0x40 4 r, regionAt 16 0x80 4 r with
      | some (n, 0), _ => some (if n.val < s.ringNodes c then orOnes x.node[n.val].delayA else 0)
      | _, some (n, 0) => some (if n.val < s.ringNodes c then orOnes x.node[n.val].delayB else 0)
      | _, _ => none
  ifLive (s.ringRec c).isSome v

/-- CHN_CELL (R327); `k` counts from 0. -/
def State.readCell (s : State) (c : Fin 4) (k : Fin 288) : Nat :=
  let x := (s.ring c).cell[k.val]
  if (s.ringCells c).contains (k.val + 1) then
    x.v + x.seq * 2 ^ 16 + bitAt x.bal 27 + bitAt x.skewed 28 + bitAt x.held 29 + bitAt x.clipped 30 + bitAt x.valid 31
  else 0

/-- A register of a node (R328); `n` counts from 0. -/
def State.readNode (s : State) (c : Fin 4) (n : Fin 16) (r : Nat) : Option Nat :=
  let x := (s.ring c).node[n.val]
  let v := match r with
    | 0x00 => some (x.pathBits + bitAt x.ctr 25 + bitAt x.linkBLost 26 + bitAt x.linkALost 27 + bitAt x.balThermal 28
        + bitAt x.mwTripped 29 + bitAt (x.pathBits != 0) 30 + bitAt x.present 31)
    | 0x04 => some x.bal
    | 0x08 => some x.diagDev
    | 0x0C => some (x.errMissing + x.errCrc * 2 ^ 16)
    | _ => none
  ifLive (n.val < s.ringNodes c) v

/-- A temperature word of a node (R327). -/
def State.readTempWord (s : State) (c : Fin 4) (n : Fin 16) (i : Fin 4) : Nat :=
  let t := (s.ring c).node[n.val].temp[i.val]
  if n.val < s.ringNodes c then codeS 16 t.2 + bitAt t.1 31 else 0

/-- The CHN window. -/
def State.readChn (s : State) (off : Nat) : Option Nat :=
  let h := s.chn
  match off with
  | 0x800 => some (((List.finRange 4).map fun c =>
      bitAt ((s.ringRec c).isSome && s.ringReady c) c.val + bitAt (s.ring c).toneHeard (4 + c.val)).sum)
  | 0x804 => some (h.diagTol + h.staleMs * 2 ^ 8 + h.diagS * 2 ^ 16)
  | _ =>
    match regionAt 4 0x000 0x100 off, regionAt 4 0x1000 0x800 off, regionAt 4 0x5000 0x100 off, regionAt 4 0x6000 0x200 off with
    | some (c, r), _, _, _ => s.readRing c r
    | _, some (c, r), _, _ =>
      (regionAt 288 0 4 r).bind fun x => if x.2 = 0 then some (s.readCell c x.1) else none
    | _, _, some (c, r), _ =>
      (regionAt 16 0 0x10 r).bind fun x => (regionAt 4 0 4 x.2).bind fun y =>
        if y.2 = 0 then some (s.readTempWord c x.1 y.1) else none
    | _, _, _, some (c, r) => (regionAt 16 0 0x20 r).bind fun x => s.readNode c x.1 x.2
    | _, _, _, _ => none

/-! The EST window. -/

/-- EST_STR_STATUS.REST_STATE (R359). -/
def RestState.code : RestState → Nat
  | .idle => 0 | .rampDown => 1 | .relaxing => 2 | .reading => 3 | .rampUp => 4

/-- A SOC or band with 32 fractional bits as a 16-bit field, 0.01 %. -/
def socField (x : Int) : Nat := (clampI 0 65535 (rshe x 32)).toNat
/-- kJ of an energy in J. -/
def kJ (x : Int) : Nat := sW (divHE x 1000)

/-- A register of a string (R359, R360). -/
def State.readStr (s : State) (i : Fin 4) (r : Nat) : Option Nat :=
  let x := s.estr i
  let v := match r with
    | 0x00 => some (x.restCount + bitAt x.taper 22 + bitAt x.forcedDue 23 + bitAt x.vValid 24 + bitAt x.bandWide 25
        + bitAt x.conflict 26 + bitAt x.healthy 27 + x.rest.code * 2 ^ 28)
    | 0x04 => some (socField x.band + socField x.soc * 2 ^ 16)
    | 0x08 => some (socField x.socVFix)
    | 0x0C => some (socField (s.socPlan i))
    | 0x10 => some (sW (fToSat x.r0 0))
    | 0x14 => some (sW x.capMah)
    | 0x18 => some x.ocv
    | 0x1C => some (loW x.restT)
    | 0x20 => some (hiW x.restT)
    | 0x24 => some (sW x.ilimChg)
    | 0x28 => some (sW x.ilimDch)
    | 0x2C => some (kJ x.e)
    | 0x30 => some (sW (fToSat x.vOcv 0))
    | _ => none
  ifLive (s.strRec i.val).isSome v

/-- The EST window. -/
def State.readEst (s : State) (off : Nat) : Option Nat :=
  let e := s.est
  let bitsOf := fun (lo : Nat) (p : Str → Bool) => ((List.finRange 4).map fun i => bitAt (p (s.estr i)) (lo + i.val)).sum
  match off with
  | 0x000 => some (bitAt e.ready 0 + bitAt e.gridLimited 3 + bitAt e.blocked 4 + bitAt e.singleString 5
      + bitAt e.reserveLow 6 + bitAt e.overload 7 + bitsOf 16 Str.bandWide + bitsOf 20 Str.conflict
      + bitsOf 24 (fun x => x.rest != .idle) + bitsOf 28 Str.healthy)
  | 0x004 => some (bitAt e.eclipseEn 8)
  | 0x008 => some (e.seconds + e.ratedKw * 2 ^ 16)
  | 0x00C => some (e.jmax + e.amax * 2 ^ 8 + e.ramp * 2 ^ 16)
  | 0x010 => some (e.ovlAvgS + e.capStep * 2 ^ 16)
  | 0x014 => some e.ovlS
  | 0x020 => some (sW e.gridTarget)
  | 0x024 => some (sW s.gNow)
  | 0x028 => some (sW (divHE e.gV (2 ^ 24)))
  | 0x02C => some (sW e.gridLimit)
  | 0x030 => some (e.gridAllow.getD s.psuCap % 2 ^ 32)
  | 0x034 => some (kJ e.ePlan)
  | 0x038 => some (kJ e.eRes)
  | 0x03C => some (orOnes e.tRes)
  | 0x040 => some (sW e.pSt)
  | 0x044 => some (sW e.loadAvg)
  | 0x048 => some ((e.capTarget.map sW).getD 0xFFFFFFFF)
  | 0x04C => some (e.nextRestS % 2 ^ 28 + e.nextRestStr * 2 ^ 28)
  | _ => (regionAt 4 0x1000 0x100 off).bind fun x => s.readStr x.1 x.2

end Sys2Proof.Machine
end

