-- ==== Sys2Proof/Machine/Row.lean ====
section
/-! DEFINITION. Time (R366 to R368) and the row ring (R387 to R397). -/

namespace Sys2Proof.Machine

/-! Shelf time. -/

/-- Shelf time is to be corrected by `d` ns: the correction is slewed (R9, R367, `State.slewTick`). -/
def State.slew (s : State) (d : Int) : State := { s with net := { s.net with slewLeft := d } }

/-- The best master among STATUS of the last 3 ms (R393): BOUNDARY and PTP_LOCK, the lowest CLOCK_CLASS, then the
lowest RACK_ID and SHELF_INDEX. -/
def State.ringMaster (s : State) : Option Member :=
  let key := fun (m : Member) => (m.st.clockClass * 65536 + m.rack) * 256 + m.shelf
  let fit := s.net.members.filter fun m => m.st.boundary && m.st.ptpLock && s.rootNs ≤ m.at_ + 3000000
  fit.foldl (fun b m => match b with
    | none => some m
    | some x => if key m < key x then some m else b) none

/-- Whether another member is the ring time master this member follows (R367, R393). -/
def State.followsRing (s : State) : Bool :=
  s.net.joined && s.ringMaster.any fun m => !m.named s.rackId s.shelfIndex

/-- Shelf time that followed the ring runs on the reference once there is no master to follow (R367). -/
def State.timeFollow (s : State) : State :=
  if s.net.timeSrc = .ring && !s.followsRing then { s with net := { s.net with timeSrc := .holdover, slewLeft := 0 } }
  else s

/-- PTP_LOCK clears (R367): shelf time follows the ring where there is a master, else the reference. -/
def State.ptpUnlock (s : State) : State :=
  if !s.clk.ptpLock then s
  else
    let s := ({ s with clk := { s.clk with ptpLock := false }, net := { s.net with ptpGood := 0, ptpBad := 0, slewLeft := 0 } }).ev
      0xA021
    let ring := s.followsRing
    let s := { s with net := { s.net with timeSrc := if ring then .ring else .holdover } }
    if ring then s.ev 0xA022 else s

/-- PTP_LOCK sets (R9, R367): at the first lock shelf time steps to PTP time, and the schedule is cleared (R285). -/
def State.ptpSetLock (s : State) (time : Nat) : State :=
  let first := !s.clk.ptpStepped
  let s := { s with clk := { s.clk with ptpLock := true, ptpStepped := true }
                    net := { s.net with timeSrc := .ptp, slewLeft := 0 } }
  let s := if first then ({ s with sys := { s.sys with timeNs := time } }).portsTimeStep else s
  s.ev 0xA020

/-- A Sync of another clock (R366, R367): its offset counts towards lock or loss of lock, a correction is slewed, and a delay
request goes out. -/
def State.ptpTake (s : State) (via : Sys2Proof.PtpVia) (time : Nat) (o : Int) (cls : Nat) : State :=
  let good : Bool := decide (-1000 ≤ o ∧ o ≤ 1000)
  let bad : Bool := decide (o < -10000 ∨ 10000 < o)
  let n := s.net
  let s := { s with net := { n with
    syncAt := s.rootNs, ptpOfs := o, clockClass := cls, ptpMaster := false, ptpGood := if good then n.ptpGood + 1 else 0
    ptpBad := if bad then n.ptpBad + 1 else 0 } }
  let s := s.send (.ptp s.tag via .delayReq n.ptpDomain s.sys.timeNs)
  if s.clk.ptpLock then (if 4 ≤ s.net.ptpBad then s.ptpUnlock else s.slew (-o))
  else if 16 ≤ s.net.ptpGood then s.ptpSetLock time
  else s

/-- PTP_SYNC (R362, R366, R367): `time` is PTP time at the Sync, `ofs` the offset from the master, `cls` the clock class the
master announces. A Sync of another domain is dropped; an ordinary clock that is master takes no Sync of a worse one
(log entry 134). -/
def execPtpSync (f : Sys2Proof.FramePath) (via : Sys2Proof.PtpVia) (domain : BitVec 8) (time : BitVec 64) (ofs : BitVec 32)
    (cls : BitVec 8) (s : State) : Host.Outcome State Fault Refusal :=
  .next (s.netIn f (via = .udp4) fun s =>
    if domain.toNat != s.net.ptpDomain || (s.net.ptpMaster && 248 < cls.toNat) then s
    else s.ptpTake via time.toNat ofs.toInt cls.toNat)

/-- PTP_LOST (R366, R367): no Sync for 3 s; an ordinary clock becomes master. -/
def execPtpLost (s : State) : Host.Outcome State Fault Refusal :=
  .next (
    if s.elapsedNs s.net.syncAt 3000000000 then
      let s := s.ptpUnlock
      { s with net := { s.net with ptpMaster := s.net.ptpMode = 2 && s.net.linkUp
                                   clockClass := if s.net.ptpMode = 2 then 248 else s.net.clockClass } }
    else s)

/-- An ordinary clock that is master sends Sync and Follow_Up (R366; once a second, over IPv6, log entry 134). -/
def State.ptpMasterTick (s : State) : State :=
  let out := fun (s : State) (k : PtpKind) => s.send (.ptp s.tag .udp6 k s.net.ptpDomain s.sys.timeNs)
  if s.net.ptpMaster && s.net.ptpMode = 2 && s.net.linkUp && s.sys.tick % 500000 = 0 then out (out s .sync) .followUp else s

/-- PPS_IN (R53, R368): an edge on SYNC_IN assigned as PPS, `t` its shelf time. -/
def execPpsIn (t : BitVec 64) (s : State) : Host.Outcome State Fault Refusal :=
  let r := t.toNat % 1000000000
  .next (
    if s.param 0x0002 0 = 2 then
      { s with
        clk := { s.clk with syncInActive := true }
        net := { s.net with
          ppsT := t.toNat, ppsOfs := if r < 500000000 then (r : Int) else (r : Int) - 1000000000 } }
    else s)

/-! Members. -/

/-- The entry of a member takes a STATUS (R390, R394). A SEQ that runs back shows two members under its numbers (R391, log
entry 141). -/
def State.memberStatus (s : State) (rack shelf seq : Nat) (st : Sys2Proof.RowStatus) : State :=
  let old := s.net.members.find? fun m => m.named rack shelf
  let back := old.any fun m => 2 ^ 31 ≤ (seq + 2 ^ 32 - m.seq) % 2 ^ 32
  let m : Member := { rack := rack, shelf := shelf, st := st, at_ := s.rootNs, subject := false, silentSent := false
                      seq := seq, twoAt := if back then some s.rootNs else old.bind (·.twoAt), candAt := old.bind (·.candAt) }
  { s with net := { s.net with members := m :: s.net.members.filter fun x => !x.named rack shelf } }

/-- Two members share the numbers of this one (R391). -/
def State.conflicts (s : State) (m : Member) : Bool :=
  (m.named s.rackId s.shelfIndex && s.net.idConflict) || m.twoAt.any fun t => s.rootNs ≤ t + 3000000

/-- The candidates of the rack (R394, R391). A subject is one again with its next STATUS (DEDUCED, log entry 39). -/
def State.candidates (s : State) : List Member :=
  s.net.members.filter fun m =>
    m.rack = s.rackId && s.rootNs ≤ m.at_ + 3000000 && (m.st.state = 3 || m.st.state = 4) && !m.subject && !s.conflicts m

/-- The order of R394: RUN before ARMED, the present lead, the lowest SHELF_INDEX. -/
def State.leadKey (s : State) (m : Member) : Nat :=
  (if m.st.state = 4 then 0 else 1024) + (if m.shelf = s.net.leadShelf then 0 else 512) + m.shelf

/-- The lead is judged (R394). -/
def State.elect (s : State) : State :=
  if !s.net.joined then s
  else
    let cs := s.candidates
    let best := cs.foldl (fun (b : Option Member) m => match b with
      | none => some m
      | some x => if s.leadKey m < s.leadKey x then some m else b) none
    let was := s.sys.lead
    let now := best.any fun m => m.shelf = s.shelfIndex
    let s := { s with
      sys := { s.sys with lead := now }
      net := { s.net with
        leadShelf := (best.map (·.shelf)).getD 255
        members := s.net.members.map fun (m : Member) =>
            if cs.contains m then { m with candAt := some s.rootNs } else m } }
    if now && !was then s.ev 0xA054 else if was && !now then s.ev 0xA055 else s

/-! Shares (R276, R395). -/

/-- What START of the chosen lead does (R395, R441, R442): a shelf whose START_REQ stands passes to RUN. -/
def State.startFromLead (s : State) : State := if s.startReqNow then s.enterRun else s

/-- A SHARE of the chosen lead (R395): this shelf's share and allowance, and START. No share above the PSU capacity and
the storage power limit is accepted (R23; log entry 105). -/
def State.takeShare (s : State) (b g : Nat) (l : List Sys2Proof.ShareEntry) : State :=
  let s := { s with net := { s.net with rackB := b, rackG := g } }
  match l.find? fun e => e.valid && e.shelf = s.shelfIndex with
  | none => s
  | some e =>
    let s := { s with tlk := { s.tlk with share := min e.share s.offer, shareT := some s.sys.timeNs, shareStale := false }
                      est := { s.est with gridAllow := some e.allow } }
    let s := s.recompute true
    if e.start then s.startFromLead else s

/-- q[i] of R395. -/
def Member.q (m : Member) : Nat :=
  if m.st.state != 4 then 0 else if m.st.overload then m.st.psuCap else m.st.gridReq

/-- g_r of R395 before the coincidence of R397. -/
def rackGrant (budget : Option Nat) (q qSum racks : Nat) : Nat :=
  match budget with
  | none => q
  | some b =>
    if qSum = 0 then b / racks
    else if qSum ≤ b then q + (b - qSum) * q / qSum
    else b * q / qSum

/-- g_r of a lead that lacks a peer seen as a candidate within the last 1 s (R397): times peers seen over peers known,
this shelf among them (DEDUCED, log entry 40). -/
def State.lacking (s : State) (g : Nat) (cs : List Member) : Nat :=
  let known := s.net.members.filter fun m => m.rack = s.rackId && m.candAt.any fun t => s.rootNs ≤ t + 1000000000
  let seen := known.filter cs.contains
  if seen.length < known.length then g * seen.length / known.length else g

/-- The lead's cycle (R276, R395): SHARE is formed, sent and taken. -/
def State.leadCycle (s : State) : State :=
  let cs := s.candidates
  let others := s.net.racks.filter fun r => r.rack != s.rackId && s.rootNs ≤ r.at_ + 10000000
  let q := (cs.map Member.q).sum
  let g := s.lacking (rackGrant s.net.rowBudget q (q + (others.map (·.q)).sum) (others.length + 1)) cs
  let b := g + ((cs.filter fun m => m.st.state = 4).map fun m => m.st.plim).sum
  let want := fun (m : Member) => min m.st.want m.st.offer
  let sum := (cs.map want).sum
  let share := fun (m : Member) => if sum ≤ b then want m else max m.st.min (floor10 (want m * b / sum))
  let entry := fun (k : Nat) =>
    match cs.find? fun m => m.shelf = k with
    | none => ({ shelf := k, valid := false, start := false, share := 0, allow := 0 } : Sys2Proof.ShareEntry)
    | some m =>
      { shelf := k, valid := true, start := m.st.state = 3 && m.st.startReq && 0 < b, share := share m
        allow := if q = 0 then g / cs.length else g * m.q / q }
  let l := (List.range 4).map entry
  let s := if b < (cs.map share).sum then s.ev 0x7073 else s
  let entries := l.flatMap fun e =>
    leBytes 1 e.shelf ++ leBytes 1 (bitAt e.valid 0 + bitAt e.start 1) ++ leBytes 2 0 ++ leBytes 4 e.share ++ leBytes 4 e.allow
  (s.rowSend 0x11 (leBytes 4 b ++ leBytes 4 g ++ leBytes 4 q ++ leBytes 4 0 ++ entries)).takeShare b g l

/-- The payload of a STATUS frame (R390). -/
def statusBytes (x : Sys2Proof.RowStatus) : List Byte :=
  leBytes 1 x.state ++ leBytes 1 (bitAt x.startReq 0 + bitAt x.lead 1 + bitAt x.overload 2 + bitAt x.ptpLock 3
    + bitAt x.orphan 4 + bitAt x.boundary 5) ++ leBytes 1 x.clockClass ++ leBytes 1 0
  ++ [x.offer, x.want, x.min, x.plim, x.gridReq, x.psuCap].flatMap (leBytes 4)

/-- The STATUS of a payload. -/
def statusOf (p : List Byte) : Sys2Proof.RowStatus :=
  let f := at8 p 1
  { state := at8 p 0, startReq := tb f 0, lead := tb f 1, overload := tb f 2, ptpLock := tb f 3, orphan := tb f 4
    boundary := tb f 5, clockClass := at8 p 2, offer := at32 p 4, want := at32 p 8, min := at32 p 12, plim := at32 p 16
    gridReq := at32 p 20, psuCap := at32 p 24 }

/-- The entries of a SHARE payload. -/
def shareEntries (p : List Byte) : List Sys2Proof.ShareEntry :=
  (List.range 4).map fun k =>
    let o := 16 + 12 * k
    { shelf := at8 p o, valid := tb (at8 p (o + 1)) 0, start := tb (at8 p (o + 1)) 1, share := at32 p (o + 4)
      allow := at32 p (o + 8) }

/-- The time master is judged (R393). -/
def State.judgeMaster (s : State) : State :=
  let me := s.ringMaster.any fun m => m.named s.rackId s.shelfIndex
  let was := s.net.timeMaster
  let s := { s with net := { s.net with timeMaster := me } }
  if me && !was then s.ev 0xA05A else s

/-- RING_CYCLE (R390, R393 to R395), in every tick that is a multiple of 500: STATUS goes out, the time master and the lead are judged, and as lead or time
master the member sends SHARE or TIME. -/
def execRingCycle (s : State) : Host.Outcome State Fault Refusal :=
  .next (
    if !s.net.joined || !s.due 500 s.net.cycleTick then s
    else
      let s := { s with net := { s.net with cycleTick := some s.sys.tick } }
      let st := s.ownStatus
      let s := ((s.rowSend 0x10 (statusBytes st)).memberStatus s.rackId s.shelfIndex s.net.ringSeq st).judgeMaster.timeFollow.elect
      let s := if s.sys.lead then s.leadCycle else s
      if s.net.timeMaster then
        s.rowSend 0x01 (leBytes 8 s.sys.timeNs ++ leBytes 8 0 ++ leBytes 1 s.net.clockClass)
      else s)

/-- RING_JOINED (R391). -/
def execRingJoined (s : State) : Host.Outcome State Fault Refusal :=
  .next (
    if s.net.joined || !s.cfg.activeValid || !s.clk.ptpLock || !(s.net.eastUp || s.net.westUp)
        || s.sys.state = .shipPrep || s.power.inputLoss then s
    else ({ s with net := { s.net with joined := true, idConflict := false } }).ev 0xA050)

/-! Frames that arrive. -/

/-- Bytes of a frame replaced. -/
def putBytes (l : List Byte) (o : Nat) (x : List Byte) : List Byte := l.take o ++ x ++ l.drop (o + x.length)

/-- The delay of the link a frame arrived on, ns (R390). -/
def State.linkDelay (s : State) (west : Bool) : Int := if west then s.net.delayWest else s.net.delayEast

/-- A frame goes on to the next member (R388, R392, R393): HOPS is decremented, for TIME the link's delay and its own
residence, which is given as an average only (a free value, log entries 7 and 113), enter CORRECTION, and the CRC is computed anew,
or inverted where it arrived bad. -/
def State.rowForward (s : State) (f : Sys2Proof.RowFrame) (good : Bool) : State :=
  let (out, wrapped) := s.net.outPort (!f.west)
  let b := f.bytes.take (f.bytes.length - 4)
  let b := putBytes b 2 (leBytes 2 (at16 b 2 - 1))
  let b := if wrapped then putBytes b 1 (leBytes 1 (at8 b 1 / 2 * 2 + 1)) else b
  let time := at8 b 0 = 0x01 && 32 ≤ b.length
  let corr := ofCode 64 (leVal (bytesAt b 24 8)) + (s.linkDelay f.west + (Config.freeNat s.fv : Nat)) * 65536
  let b := if time then putBytes b 24 (leBytes 8 (codeS 64 corr)) else b
  let c := crc32c b
  (if time then s.used else s).send (.row out (b ++ leBytes 4 (if good then c else 2 ^ 32 - 1 - c)))

/-- A frame that arrives (R388 to R390): where forwarding runs and HOPS is not 0 it goes on, unless it is link-local or this
member's own one back on WEST; it is acted on once, where its CRC passes and it has the type and the payload length named.
`act` gets its source and payload; `own` acts on an own frame. -/
def State.rowTake (s : State) (f : Sys2Proof.RowFrame) (ty len : Nat) (own : State → Bool → State)
    (act : State → Nat → Nat → List Byte → State) : State :=
  let b := f.bytes
  let n := b.length
  let rack := at16 b 4
  let shelf := at8 b 6
  let seq := at32 b 8
  let good := crc32c (b.take (n - 4)) == leVal (b.drop (n - 4))
  let mine := rack = s.rackId && shelf = s.shelfIndex && s.net.sentSeq.contains seq
  if !s.net.forwarding || n < 20 || at16 b 2 = 0 then s
  else
    let s := if tb (at8 b 1) 1 || (mine && f.west) then s else s.rowForward f good
    if !good || n != 8 * ceilDiv (16 + len) 8 + 4 || at8 b 0 != ty || at16 b 12 != len then s
    else if mine then
      if f.west then
        own { s with net := { s.net with sentSeq := s.net.sentSeq.filter (· != seq) } } (tb (at8 b 1) 0)
      else s
    else if s.net.seenSeq.contains (rack, shelf, seq) then s
    else act { s with net := { s.net with seenSeq := (rack, shelf, seq) :: s.net.seenSeq } } rack shelf (bytesAt b 16 len)

/-- An own frame that asks for nothing as it comes back. -/
def ownBack (s : State) (_ : Bool) : State := s

/-- RING_STATUS (R390 to R394): the member's own STATUS tells whether the ring is whole; one with its numbers from
another member is a conflict. -/
def execRingStatus (f : Sys2Proof.RowFrame) (s : State) : Host.Outcome State Fault Refusal :=
  .next (s.rowTake f 0x10 28 (fun s wrapped => if s.net.joined then s.setWhole (!wrapped) else s) fun s rack shelf p =>
    if rack = s.rackId && shelf = s.shelfIndex && s.net.joined then
      if s.net.idConflict then s else ({ s with net := { s.net with idConflict := true } }).ev 0xA058
    else s.memberStatus rack shelf (at32 f.bytes 8) (statusOf p))

/-- RING_TIME (R367, R393): a TIME frame of the master the member has judged. -/
def execRingTime (f : Sys2Proof.RowFrame) (s : State) : Host.Outcome State Fault Refusal :=
  .next (s.rowTake f 0x01 17 ownBack fun s rack shelf p =>
    if !(s.ringMaster.any fun m => m.named rack shelf) then s
    else
      let t : Int := leVal (bytesAt p 0 8) + (ofCode 64 (leVal (bytesAt p 8 8))).fdiv 65536 + s.linkDelay f.west
      let s := { s with net := { s.net with ringTimeOfs := sat32 (t - s.sys.timeNs) } }
      if s.clk.ptpLock || !s.net.joined then s
      else
        let was := s.net.timeSrc
        let s := ({ s with net := { s.net with timeSrc := .ring } }).slew (t - s.sys.timeNs)
        if was = .ring then s else s.ev 0xA022)

/-- PDELAY_REQ (R390): every 100 ms one on each port that is up, with t1; one received, with the time t2 of its arrival, is
answered with t1, t2 and t3. -/
def execPdelayReq (req : Option (Sys2Proof.RowFrame × BitVec 64)) (s : State) : Host.Outcome State Fault Refusal :=
  let out := fun (s : State) (west up : Bool) =>
    if up then s.rowLocal west 0x02 (leBytes 8 s.sys.timeNs ++ List.replicate 24 0) else s
  .next (match req with
    | none =>
      if !s.due 50000 s.net.pdelayTick then s
      else
        let s := { s with net := { s.net with pdelayTick := some s.sys.tick } }
        out (out s false s.net.eastUp) true s.net.westUp
    | some (f, t2) => s.rowTake f 0x02 32 ownBack fun s _ _ p =>
        s.rowLocal f.west 0x03 (bytesAt p 0 8 ++ leBytes 8 t2.toNat ++ leBytes 8 s.sys.timeNs ++ leBytes 8 0))

/-- PDELAY_RESP (R390), which arrives at t4: the link delay of its port, half of what the round trip leaves of the peer's
own time. -/
def execPdelayResp (f : Sys2Proof.RowFrame) (t4 : BitVec 64) (s : State) : Host.Outcome State Fault Refusal :=
  .next (s.rowTake f 0x03 32 ownBack fun s _ _ p =>
    let t := fun (o : Nat) => (leVal (bytesAt p o 8) : Int)
    let d : Int := (((t4.toNat : Int) - t 0) - (t 16 - t 8)).fdiv 2
    { s with net := { s.net with delayEast := if f.west then s.net.delayEast else d
                                 delayWest := if f.west then d else s.net.delayWest } })

/-- SHARE (R394, R395): another rack's request, or the chosen lead's allocation. -/
def execShare (f : Sys2Proof.RowFrame) (s : State) : Host.Outcome State Fault Refusal :=
  .next (s.rowTake f 0x11 64 ownBack fun s rack shelf p =>
    if rack != s.rackId then
      { s with net := { s.net with racks :=
          { rack := rack, q := at32 p 8, at_ := s.rootNs } :: s.net.racks.filter fun x => x.rack != rack } }
    else if s.net.joined && !s.sys.lead && shelf = s.net.leadShelf then
      s.takeShare (at32 p 0) (at32 p 4) (shareEntries p)
    else s)

/-- ROW_BUDGET_FRAME (R390, R397): a newer version, or of equal versions the one of the lower member. -/
def execRowBudgetFrame (f : Sys2Proof.RowFrame) (s : State) : Host.Outcome State Fault Refusal :=
  .next (s.rowTake f 0x12 8 ownBack fun s rack shelf p =>
    let v := at32 p 0
    let lower := s.net.rowSrc.any fun x => rack < x.1 || (rack = x.1 && shelf < x.2)
    let differs := s.net.rowBudget.getD 0xFFFFFFFF != at32 p 4
    if s.net.rowSrc.isNone || s.net.rowVersion < v || (s.net.rowVersion = v && lower && differs) then
      s.takeBudget v (at32 p 4) (rack, shelf)
    else s)

/-- ROW_BUDGET_RESEND (R390): every 100 ms, by every rack lead. -/
def execRowBudgetResend (s : State) : Host.Outcome State Fault Refusal :=
  .next (
    if s.sys.lead && s.due 50000 s.net.budgetTick then
      ({ s with net := { s.net with budgetTick := some s.sys.tick } }).sendBudget
    else s)

/-! Failover (R396). -/

/-- A notice is acted on (R280, R394, R396): its subject is no candidate, its trays in WATCH here are taken over, and
the lead is judged anew. -/
def State.actOn (s : State) (rack shelf : Nat) : State :=
  let s := s.markSubject rack shelf
  if rack != s.rackId then s
  else
    let ports := (List.finRange 64).filter fun n =>
      shelf != s.shelfIndex && s.homing n.val = 2 && s.tray8 n.val 0x1D = shelf
    (ports.foldl State.takeOverLatest s).elect

/-- A notice is held for 10 ms (R396). -/
def State.notice (s : State) (rack shelf : Nat) : State :=
  { s with net := { s.net with notices :=
      (rack, shelf, s.rootNs) :: s.net.notices.filter fun x => s.rootNs < x.2.2 + 10000000 } }

/-- Whether a notice about a subject was acted on within 10 ms (R396). -/
def State.noticed (s : State) (rack shelf : Nat) : Bool :=
  s.net.notices.any fun x => s.rootNs < x.2.2 + 10000000 && x.1 = rack && x.2.1 = shelf

/-- A notice comes before the cycle of its tick (R397): a lead whose cycle has run shares anew. -/
def State.cycleAgain (s : State) : State :=
  if s.net.cycleTick = some s.sys.tick && s.sys.lead then s.leadCycle else s

/-- FAILOVER (R394, R396, R397): one notice for a subject in any 10 ms is acted on, and the lead is judged on each. -/
def execFailover (f : Sys2Proof.RowFrame) (s : State) : Host.Outcome State Fault Refusal :=
  .next (s.rowTake f 0x20 12 ownBack fun s _ _ p =>
    let r := at16 p 0
    let k := at8 p 2
    let cause := at8 p 3
    if cause = 0 || 5 < cause || s.noticed r k then s.elect
    else (((s.notice r k).ev 0xA057).actOn r k).elect.cycleAgain)

/-- PEER_SILENT (R396): a peer of the rack last seen in RUN whose STATUS is 3 ms old, once in an episode. -/
def execPeerSilent (shelf : Fin 4) (s : State) : Host.Outcome State Fault Refusal :=
  let r := s.rackId
  let k := shelf.val
  .next (
    match s.net.members.find? fun m => m.named r k with
    | none => s
    | some m =>
      if !s.net.joined || k = s.shelfIndex || m.st.state != 4 || m.silentSent || s.rootNs < m.at_ + 3000000 then s
      else
        let mark := fun (x : Member) => if x.named r k then { x with silentSent := true } else x
        let s := { s with net := { s.net with members := s.net.members.map mark } }
        let s := (s.rowSend 0x20 (noticeBytes r k 4 s.sys.timeNs)).ev 0xA056
        if s.noticed r k then s else (s.notice r k).actOn r k)

/-! Wraps (R392). -/

/-- WRAP: a peer's wrap leaves the ring not whole (DEDUCED, log entry 41). -/
def execWrap (f : Sys2Proof.RowFrame) (s : State) : Host.Outcome State Fault Refusal :=
  .next (s.rowTake f 0x21 2 ownBack fun s _ _ p => if at8 p 1 = 1 then s.setWhole false else s)

/-- RING_WRAPPED: link loss on EAST or WEST. -/
def execRingWrapped (west : Bool) (s : State) : Host.Outcome State Fault Refusal :=
  .next (
    if !s.net.forwarding || (if west then s.net.wrapWest else s.net.wrapEast) then s
    else
      let n := s.net
      let s := { s with net := { n with
        eastUp := n.eastUp && west, westUp := n.westUp && !west
        wrapEast := n.wrapEast || !west, wrapWest := n.wrapWest || west } }
      ((s.ev 0xA051).setWhole false).rowSend 0x21 (leBytes 1 (bitAt west 0) ++ leBytes 1 1))

/-- RING_UNWRAPPED: a wrapped port has held block lock for 100 ms. -/
def execRingUnwrapped (west : Bool) (s : State) : Host.Outcome State Fault Refusal :=
  let n := s.net
  .next (
    if !(if west then n.wrapWest && n.westUp else n.wrapEast && n.eastUp)
        || !s.elapsed (if west then n.lockWestAt else n.lockEastAt) 50000 then s
    else
      let s := { s with net := { n with wrapEast := n.wrapEast && west, wrapWest := n.wrapWest && !west } }
      (s.ev 0xA052).rowSend 0x21 (leBytes 1 (bitAt west 0) ++ leBytes 1 0))

end Sys2Proof.Machine
end

