-- ==== Sys2Proof/Machine/RegNet.lean ====
section
/-! DEFINITION. What the registers of the NET, PROT, DMA, FIFO and EVR windows read (R398 to R402, R427 to R432, R486 to
R492). -/

namespace Sys2Proof.Machine

/-! The NET window. -/

/-- NET_STATUS.TIME_SRC (R398). -/
def TimeSrc.code : TimeSrc → Nat
  | .resetCount => 0 | .ptp => 1 | .ring => 2 | .holdover => 3

/-- NET_SESS_STATUS.ROLE (R370, R402). -/
def Role.code : Role → Nat
  | .monitor => 1 | .operator => 2 | .integrator => 3

/-- NET_STATUS.RM_RECENT (R398). -/
def State.rmRecent (s : State) : Bool := s.net.rmLast.any fun t => s.rootNs ≤ t + 1000000 * s.net.timeoutMs

/-- A register of a session (R402). -/
def State.readSess (s : State) (n : Fin 64) (r : Nat) : Option Nat :=
  let x := s.sess n
  match r with
  | 0x00 => some (if x.isOpen then
      min 65535 ((s.rootNs - x.lastRx) / 1000000000) + bitAt x.rackManager 28 + x.role.code * 2 ^ 29 + bitAt true 31 else 0)
  | 0x04 => some (strWord x.peer 0)
  | 0x08 => some (strWord x.peer 1)
  | 0x0C => some (strWord x.peer 2)
  | 0x10 => some (strWord x.peer 3)
  | 0x14 => some x.port
  | 0x18 => some (loW x.rxSeq)
  | 0x1C => some (hiW x.rxSeq)
  | 0x20 => some (mapWord 16 0 fun i => x.subs.any fun y => y.id == i)
  | 0x24 => some (x.dropReplay + x.dropTag * 2 ^ 16)
  | 0x28 => some 0
  | _ => none

/-- The NET window. -/
def State.readNet (s : State) (off : Nat) : Option Nat :=
  let n := s.net
  match off with
  | 0x000 => some (bitAt s.rmRecent 9 + bitAt n.ready 10 + bitAt n.linkUp 11 + bitAt n.macsecUp 12
      + bitAt n.cak.isSome 13 + (if n.shed2 then 2 else if n.shed1 then 1 else 0) * 2 ^ 14 + n.timeSrc.code * 2 ^ 16
      + n.sess.toList.countP Sess.isOpen * 2 ^ 24)
  | 0x004 => some (bitAt n.macsecReq 1 + bitAt n.ipv4En 2 + bitAt n.autoRun 3 + n.ptpDomain * 2 ^ 4 + n.ptpMode * 2 ^ 12
      + n.dscp * 2 ^ 14 + n.vlan * 2 ^ 20)
  | 0x008 => some (n.timeoutMs + n.idleS * 2 ^ 16)
  | 0x010 => some (loW n.mac)
  | 0x014 => some (hiW n.mac)
  | 0x030 => some n.ip4
  | 0x034 => some n.plen
  | 0x048 => some n.gw4
  | 0x050 => some (n.leadShelf * 2 ^ 8 + bitAt n.idConflict 24 + bitAt n.timeMaster 25 + bitAt n.westUp 26
      + bitAt n.eastUp 27 + bitAt n.wrapWest 28 + bitAt n.wrapEast 29 + bitAt n.whole 30 + bitAt n.joined 31)
  | 0x054 => some (min 256 (n.members.countP fun m => s.rootNs ≤ m.at_ + 3000000))
  | 0x058 => some (sW n.ringTimeOfs)
  | 0x05C => some (sW n.ptpOfs)
  | 0x060 => some (loW n.ppsT)
  | 0x064 => some (hiW n.ppsT)
  | 0x068 => some (sW n.ppsOfs)
  | 0x070 => some (orOnes n.rowBudget)
  | 0x074 => some n.rowVersion
  | 0x078 => some n.rackG
  | 0x07C => some n.rackB
  | 0x080 => some (match n.rmLast with
      | some t => min 0xFFFFFFFF ((s.rootNs - t) / 1000000)
      | none => 0xFFFFFFFF)
  | 0x084 => some n.dropAuth
  | 0x088 => some n.dropReplay
  | 0x08C => some n.dropOther
  | 0x090 => some n.busyCount
  | _ =>
    match regionAt 4 0x020 4 off, regionAt 4 0x038 4 off, regionAt 64 0x1000 0x40 off with
    | some (i, 0), _, _ => some n.ip6[i.val]
    | _, some (i, 0), _ => some n.gw6[i.val]
    | _, _, some (k, r) => s.readSess k r
    | _, _, _ => none

/-! The PROT window. -/

/-- A word of a trip record (R427); an empty place reads 0. -/
def tripWord (t : Option Trip) (k : Nat) : Nat :=
  match t with
  | none => 0
  | some t => match k with
    | 0 => t.code % 2 ^ 16 + t.inst % 2 ^ 8 * 2 ^ 16 + t.detail % 2 ^ 8 * 2 ^ 24
    | 1 => sW t.value
    | 2 => sW t.limit
    | 3 => t.state
    | 4 => loW t.time
    | 5 => hiW t.time
    | 6 => loW t.tick
    | _ => hiW t.tick

/-- PROT_STR_STATUS (R432). -/
def StrProt.word (x : StrProt) : Nat :=
  bitAt x.vHigh 0 + bitAt x.vLow 1 + bitAt x.tHigh 2 + bitAt x.unmonLimit 3 + bitAt x.isolated 4 + x.cellNo * 2 ^ 16

/-- A string has a protection limit or is isolated (R428). -/
def StrProt.limited (x : StrProt) : Bool := x.vHigh || x.vLow || x.tHigh || x.unmonLimit || x.isolated

/-- The PROT window. The registers of a string or a group that is not configured read 0 (R496). -/
def State.readProt (s : State) (off : Nat) : Option Nat :=
  let p := s.prot
  match off with
  | 0x000 => some (((List.finRange 4).map fun i => bitAt p.str[i.val].limited i.val).sum
      + bitAt p.coolShutdown 14 + bitAt p.coolHot 15 + bitAt p.thermalRamp 16 + bitAt p.cduAlarm 17
      + bitAt p.flowLow 18 + bitAt p.dieTrip 19 + bitAt p.dieWarn 20 + bitAt p.busFault 21 + bitAt p.busUv 22
      + bitAt p.busOv 23 + bitAt p.entryHold 24 + bitAt p.rootless 25 + bitAt p.imageBad 26 + bitAt p.exitOk 27
      + ((List.finRange 4).map fun i => bitAt p.causes[i.val] (28 + i.val)).sum)
  | 0x004 => some 0
  | 0x008 => some (bitAt p.autoExit 0 + p.dieWarnC * 2 ^ 8 + p.uvPersistMs * 2 ^ 16 + p.exitHoldS * 2 ^ 24)
  | 0x00C => some (p.staggerMs * 2 ^ 8 + p.rampMs * 2 ^ 16 + p.flowMs * 2 ^ 24)
  | 0x010 => some (p.unmonS + p.isolateS * 2 ^ 8 + p.hystMv * 2 ^ 16 + p.hardMv * 2 ^ 24)
  | 0x020 => some (sW p.dieT)
  | 0x024 => some (sW p.coolT)
  | 0x028 => some (sW p.coolFlow)
  | 0x02C => some (sW p.busVBasalt)
  | 0x030 => some p.missedTicks
  | 0x034 => some p.tripCount
  | 0x038 => some p.tripHead
  | 0x080 => some 800000
  | 0x084 => some 200
  | 0x088 => some 100
  | 0x08C => some 60
  | _ =>
    match regionAt 4 0x040 4 off, regionAt 4 0x060 4 off, regionAt 8 0x0E0 4 off, regionAt 16 0x100 0x20 off with
    | some (i, 0), _, _, _ => some (if (s.strRec i.val).isSome then p.str[i.val].word else 0)
    | _, some (g, 0), _, _ => some (if (s.grpRec g.val).isSome then sW p.basaltIpk[g.val] else 0)
    | _, _, some (k, 0), _ => some (tripWord p.tripFirst k.val)
    | _, _, _, some (i, r) => if r % 4 = 0 then some (tripWord p.trips[i.val] (r / 4)) else none
    | _, _, _, _ => none

/-! The DMA window. -/

/-- DMA_CH_STATUS.STATE (R487). -/
def DmaState.code : DmaState → Nat
  | .idle => 0 | .running => 1 | .suspended => 2 | .preempted => 3 | .done => 4 | .aborted => 5 | .bad => 6
  | .progError => 7

/-- A register of a channel, in its active or its shadow set; the status, residue and CRC of a shadow set read 0 (R486 to
R488). -/
def State.readDmaSet (s : State) (n : Fin 32) (sh : Bool) (r : Nat) : Option Nat :=
  let c := s.mem.ch[n.val]
  let d := if sh then c.shadow else c.act
  match r with
  | 0x00 => some (loW d.src)
  | 0x04 => some (hiW d.src)
  | 0x08 => some (loW d.dst)
  | 0x0C => some (hiW d.dst)
  | 0x10 => some d.lineLen
  | 0x14 => some d.lines
  | 0x18 => some d.srcStride
  | 0x1C => some d.dstStride
  | 0x20 => some (bitAt d.arm 1 + bitAt d.crit 6 + bitAt d.crcWb 7)
  | 0x24 => if sh then some 0 else some (c.descriptors + bitAt c.crcValid 25 + bitAt c.displaced 26 + bitAt c.shadow.arm 27 + c.state.code * 2 ^ 28)
  | 0x28 => some (if sh then 0 else c.residue)
  | 0x2C => some (if sh then 0 else c.crc)
  | 0x30 => some (if sh then 0 else c.residueB)
  | _ => none

/-- DMA_MIGRATE_AVG: the average over the migrations of the last 1 s, 500,000 ticks; with none in it the spec states no
value, a free one (R488, log entry 7). -/
def State.migrateAvg (s : State) : Nat :=
  let l := s.mem.migrations.filter fun x => s.sys.tick < x.1 + 500000
  if l.isEmpty then Config.freeNat s.fv % 2 ^ 32 else avgOf l

/-- The DMA window. -/
def State.readDma (s : State) (off : Nat) : Option Nat :=
  let m := s.mem
  match off with
  | 0x000 => some (mapWord 32 0 fun n => (m.ch[n]?.map DmaCh.busy).getD false)
  | 0x004 => some m.progErrors
  | 0x008 => some m.busErrors
  | 0x00C => some m.tierFaults
  | 0x010 => some m.tierPreempts
  | 0x014 => some s.migrateAvg
  | 0x018 => some m.resident.length
  | _ => (regionAt 32 0x1000 0x80 off).bind fun x => s.readDmaSet x.1 (0x40 ≤ x.2) (x.2 % 0x40)

/-! The FIFO window. -/

/-- The FIFO window as HCP reads it: FIFO_Q_DATA is the firmware's alone, a violation like an unmapped address (R471,
R498, R501). -/
def State.readFifo (s : State) (off : Nat) : Option Nat :=
  match off with
  | 0x1000 => some s.spillTotal
  | 0x1004 => some (divHEN (10000 * s.spillTotal) spillCap)
  | _ => (regionAt 16 0 0x100 off).bind fun x =>
    let q := s.net.q[x.1.val]
    match x.2 with
    | 0x00 => some (q.count + bitAt (q.spill != 0) 29 + bitAt (q.count = 0) 30 + bitAt (queueCap ≤ q.count) 31)
    | 0x04 => some q.spill
    | 0x08 => some q.hwm
    | 0x0C => some q.accepted
    | 0x10 => some q.busy
    | 0x14 => some q.delayAvg
    | _ => none

/-! The EVR window. -/

/-- The state of a slot as EVR_STATUS.SLOTS shows it (R491). -/
def ObsState.code : ObsState → Nat
  | .free => 0 | .live => 1 | .closing => 1 | .closed => 2 | .kept => 3

/-- EVR_OBS_SLOT_s (R492). -/
def ObsSlot.word (x : ObsSlot) : Nat :=
  (x.marks.head?.map Mark.code).getD 0 + x.marks.length * 2 ^ 16 + x.state.code * 2 ^ 30

/-- EVR_CAP_SPAN_MS: one SYNC block stands for each millisecond the ring holds (R482, R492; log entry 30). -/
def Evr.capSpan (v : Evr) : Nat := v.capRing.countP fun b => b.head? == some 0xFF

/-- EVR_HIST_SPAN_H: hours since START_TIME of the oldest page held (R483, R492; log entry 30). -/
def State.histSpan (s : State) : Nat :=
  match s.evr.history.getLast? with
  | some p => (s.sys.timeNs - leVal (bytesAt p 12 8)) / 3600000000000
  | none => 0

/-- EVR_KEY_k (R477, R492). -/
def State.keyWord (s : State) (k : Nat) : Nat :=
  match s.rec16 0x0303 0x08 k with
  | some r => r.u16 0x0A + r.u8 0x0C * 2 ^ 24
  | none => 0

/-- The EVR window. -/
def State.readEvr (s : State) (off : Nat) : Option Nat :=
  let v := s.evr
  match off with
  | 0x000 => some (bitAt v.firstFull 0 + bitAt (stagingCap ≤ v.staging.length) 1 + bitAt v.writer 2 + bitAt v.capFrozen 3
      + ((List.finRange 4).map fun i => v.slot[i.val].state.code * 2 ^ (8 + 2 * i.val)).sum)
  | 0x004 => some 0
  | 0x008 => some 0
  | 0x00C => some v.userData
  | 0x010 => some (loW v.seq)
  | 0x014 => some (hiW v.seq)
  | 0x018 => some v.first.length
  | 0x01C => some v.suppressed
  | 0x020 => some v.lost
  | 0x060 => some (bitAt v.freezeOnTrigger 0)
  | 0x064 => some (loW v.capWritten)
  | 0x068 => some (hiW v.capWritten)
  | 0x06C => some v.capSpan
  | 0x070 => some (loW v.histWritten)
  | 0x074 => some (hiW v.histWritten)
  | 0x078 => some s.histSpan
  | _ =>
    match regionAt 4 0x040 4 off, regionAt 5 0x080 8 off, regionAt 256 0x400 4 off with
    | some (i, 0), _, _ => some v.slot[i.val].word
    | _, some (r, 0), _ => some v.eccCorr[r.val]
    | _, some (r, 4), _ => some v.eccUncorr[r.val]
    | _, _, some (k, 0) => some (s.keyWord k.val)
    | _, _, _ => none

end Sys2Proof.Machine
end

