-- ==== Sys2Proof/Machine/RegMap.lean ====
section
/-! DEFINITION. The address map (R494 to R496), what a read over HCP returns (R501, R502), and what a write does and
who may do it (R497 to R500, R503). -/

namespace Sys2Proof.Machine

/-! Addresses. -/

/-- Whether the active configuration uses the instance an address names (R496); true where it names none. -/
def State.instLive (s : State) (addr : Nat) : Bool :=
  let off := addr % 2 ^ 20
  match addr / 2 ^ 20 with
  | 3 => match regionAt 4 0x4000 0x40 off with
    | some (i, _) => (s.strRec i.val).isSome
    | none => true
  | 4 => match regionAt 64 0x1000 0x100 off with
    | some (i, _) => s.hasSlot i
    | none => true
  | 5 => match regionAt 4 0x000 0x100 off, regionAt 64 0x1000 0x40 off, regionAt 16 0x2000 0x20 off with
    | some (g, _), _, _ => (s.grpRec g.val).isSome
    | _, some (p, _), _ => (s.phaseGroup p.val).isSome
    | _, _, some (p, _) => (s.psuRating p.val).isSome
    | _, _, _ => true
  | 6 => match regionAt 10 0x1000 0x80 off with
    | some (i, _) => (s.instModel i).isSome
    | none => true
  | 7 => match regionAt 64 0x1000 0x40 off with
    | some (n, _) => (s.port n).state != .unused
    | none => true
  | 8 => match regionAt 4 0x000 0x100 off with
    | some (c, _) => (s.ringRec c).isSome
    | none => true
  | 9 => match regionAt 4 0x1000 0x100 off with
    | some (i, _) => (s.strRec i.val).isSome
    | none => true
  | _ => true

/-- The value of a register now, none where the address is unmapped or reserved (R494, R495, R507). -/
def State.regLive (s : State) (addr : Nat) : Option Nat :=
  let off := addr % 2 ^ 20
  match addr / 2 ^ 20 with
  | 0 => s.readSys off
  | 1 => s.readSec off
  | 2 => s.readCfg off
  | 3 => s.readAfe off
  | 4 => s.readLoop off
  | 5 => s.readPwm off
  | 6 => s.readFce off
  | 7 => s.readTlk off
  | 8 => s.readChn off
  | 9 => s.readEst off
  | 10 => s.readNet off
  | 11 => s.readProt off
  | 12 => s.readDma off
  | 13 => s.readFifo off
  | 14 => s.readEvr off
  | _ => none

/-- Whether the offset within a repeating region lies in a list. -/
def regionHas (n base stride off : Nat) (l : List Nat) : Bool :=
  match regionAt n base stride off with
  | some x => l.contains x.2
  | none => false

/-- The registers named _LO (R12, R507). -/
def loReg (addr : Nat) : Bool :=
  let off := addr % 2 ^ 20
  match addr / 2 ^ 20 with
  | 0 => [0x050, 0x060].contains off
  | 2 => [0x010, 0x018].contains off
  | 3 => regionHas 164 0x1000 0x20 off [0x14] || regionHas 4 0x4000 0x40 off [0x0C]
  | 4 => regionHas 64 0x1000 0x100 off [0x38, 0x44]
  | 5 => regionHas 4 0x000 0x100 off [0x20, 0x28]
  | 6 => [0x010, 0x018, 0x028, 0x030].contains off || regionHas 10 0x1000 0x80 off [0x1C]
  | 7 => [0x030, 0x040, 0x048, 0x050, 0x058, 0x060].contains off
  | 8 => regionHas 4 0x000 0x100 off [0x10]
  | 9 => regionHas 4 0x1000 0x100 off [0x1C]
  | 10 => [0x010, 0x060].contains off || regionHas 64 0x1000 0x40 off [0x18]
  | 12 => regionHas 64 0x1000 0x40 off [0x00, 0x08]
  | 14 => [0x010, 0x064, 0x070].contains off
  | _ => false

/-! Reads. -/

/-- The upper half latched by a requester's last read of _LO (R502). -/
def State.hiLatch (s : State) (req addr : Nat) : Option Nat :=
  (s.sys.latches.find? fun l => l.requester == req && l.addr == addr).map HiLatch.value

/-- A read of a _LO register latches the upper half for the requester (R12, R502). -/
def State.latchHi (s : State) (req addr : Nat) : State :=
  let keep := s.sys.latches.filter fun l => !(l.requester == req && l.addr == addr + 4)
  { s with sys := { s.sys with
      latches := { requester := req, addr := addr + 4, value := (s.regLive (addr + 4)).getD 0 } :: keep } }

/-- A read over HCP: its value, none for a violation, and the state after it (R496, R501, R502). -/
def State.regRead (s : State) (req addr : Nat) : Option Nat × State :=
  match s.regLive addr with
  | none => (none, s)
  | some v =>
    if !s.instLive addr then (some 0, s)
    else if loReg addr then (some v, s.latchHi req addr)
    else (some ((s.hiLatch req addr).getD v), s)

/-! Writes. -/

/-- A writable field: its place, its class, and whether it is RW (else WO or W1C) (R498 to R500). -/
structure WField where
  /-- Lowest bit -/
  lo : Nat
  /-- Width -/
  w : Nat
  /-- Class -/
  cls : AccClass
  /-- RW -/
  rw : Bool
  deriving DecidableEq, Repr

/-- A writable register: its fields, whether its effect follows the whole message (R505), and the effect. -/
structure WReg where
  /-- Writable fields -/
  fields : List WField
  /-- The effect follows the writes of the message -/
  late : Bool := false
  /-- What a permitted write of a value does -/
  apply : Nat → State → State

/-- A writable register. -/
def mkW (fields : List WField) (apply : Nat → State → State) : Option WReg := some { fields := fields, apply := apply }
/-- A writable register whose effect follows the message. -/
def lateW (fields : List WField) (apply : Nat → State → State) : Option WReg :=
  some { fields := fields, late := true, apply := apply }

/-! A change of one block. -/
def State.onClock (s : State) (f : Clock → Clock) : State := { s with clk := f s.clk }
def State.onPower (s : State) (f : Power → Power) : State := { s with power := f s.power }
def State.onAfe (s : State) (f : Afe → Afe) : State := { s with afe := f s.afe }
def State.onLoop (s : State) (f : Loop → Loop) : State := { s with loop := f s.loop }
def State.onPwm (s : State) (f : Pwm → Pwm) : State := { s with pwm := f s.pwm }
def State.onFce (s : State) (f : Fce → Fce) : State := { s with fce := f s.fce }
def State.onChn (s : State) (f : Chn → Chn) : State := { s with chn := f s.chn }
def State.onEst (s : State) (f : Est → Est) : State := { s with est := f s.est }
def State.onNet (s : State) (f : Net → Net) : State := { s with net := f s.net }
def State.onProt (s : State) (f : Prot → Prot) : State := { s with prot := f s.prot }
def State.onEvr (s : State) (f : Evr → Evr) : State := { s with evr := f s.evr }

/-- RW fields of one class. -/
def rwF (c : AccClass) (l : List (Nat × Nat)) : List WField := l.map fun x => ⟨x.1, x.2, c, true⟩
/-- WO or W1C fields of one class. -/
def woF (c : AccClass) (l : List (Nat × Nat)) : List WField := l.map fun x => ⟨x.1, x.2, c, false⟩
/-- A field clamped into its range. -/
def clampN (lo hi x : Nat) : Nat := if x < lo then lo else if hi < x then hi else x
/-- An action where a bit is set. -/
def onBit (v k : Nat) (f : State → State) (s : State) : State := if tb v k then f s else s
/-- Actions by bits, from the lowest up (log entry 43). -/
def onBits (l : List (Nat × (State → State))) (v : Nat) (s : State) : State :=
  l.foldl (fun s x => onBit v x.1 x.2 s) s
/-- A field clear of the bits a W1C write sets, from bit `lo` on. -/
def w1c {n : Nat} (v : Vector Bool n) (lo x : Nat) : Vector Bool n :=
  mapV v fun i b => b && !(decide (lo ≤ i.val) && decide (i.val < lo + 32) && tb x (i.val - lo))

/-- The writable registers of SYS, SEC and CFG. -/
def wSys (addr : Nat) : Option WReg :=
  match addr with
  | 0x000014 => lateW (rwF .oa [(0, 4)]) (fun v s => s.writeTarget (v % 16))
  | 0x000020 => lateW (woF .ia [(0, 1), (24, 8)]) (fun v s => if fld v 24 8 = 0xA5 then s.sysReset (2 + v % 2) else s)
  | 0x000034 => mkW (rwF .obs [(0, 1), (1, 1), (8, 8)]) (fun v s =>
      let s := s.selectRef (tb v 0)
      (s.onClock fun y => { y with refFallback := tb v 1, holdoverS := fld v 8 8 }))
  | 0x000070 => mkW (woF .oa [(16, 1), (17, 1)]) (fun v s => (s.onPower fun y => { y with
      stby12Lost := s.power.stby12Lost && !tb v 16, brownout := s.power.brownout && !tb v 17 }))
  | 0x1001C0 => mkW (woF .is_ [(0, 4), (24, 8)]) (fun v s =>
      if fld v 24 8 = 0x5A && v % 16 = 3 then s.toReturned else s)
  | 0x1001C4 => mkW (woF .ix [(0, 1)]) (onBits [(0, State.fwDiscard)])
  | 0x200004 => mkW (woF .ix [(0, 1), (1, 1)]) (onBits [(0, State.requestSwap), (1, State.discard)])
  | 0x200010 => mkW (rwF .ix [(0, 32)]) (fun v s => s.swapTickLo v)
  | 0x200014 => mkW (rwF .ix [(0, 32)]) (fun v s => s.swapTickHi v)
  | _ => none

/-- The writable registers of AFE. -/
def wAfe (off : Nat) : Option WReg :=
  match off with
  | 0x004 => mkW (rwF .ox [(0, 4)] ++ woF .is_ [(31, 1)]) (fun v s =>
      onBit v 31 State.clearFailMap (s.onAfe fun y => { y with
      chip := mapV s.afe.chip fun a x => { x with rotEn := tb v a.val } }))
  | 0x008 => mkW (rwF .ox [(8, 8), (16, 8), (24, 8)]) (fun v s => (s.onAfe fun y => { y with
      ofsLimit := fld v 8 8
      gainLimit := fld v 16 8, mismatch := fld v 24 8 }))
  | 0x00C => mkW (rwF .osa [(0, 8), (8, 8)]) (fun v s => (s.onAfe fun y => { y with
      senseThresh := clampN 40 200 (fld v 0 8), sensePeriods := fld v 8 8 }))
  | 0x010 => mkW (rwF .osa [(0, 8), (8, 8)]) (fun v s => (s.onAfe fun y => { y with
      preNs := fld v 0 8
      postNs := fld v 8 8 }))
  | 0x068 => mkW (woF .oa [(0, 32)]) (fun v s => (s.onAfe fun y => { y with senseLatch := w1c s.afe.senseLatch 0 v }))
  | 0x06C => mkW (woF .oa [(0, 32)]) (fun v s => (s.onAfe fun y => { y with senseLatch := w1c s.afe.senseLatch 32 v }))
  | _ => match regionAt 164 0x1000 0x20 off with
    | some (c, 0x04) => mkW (woF .oa [(8, 1)]) (fun v s => (s.onAfe fun y => { y with
      ch := updV s.afe.ch c fun x => { x with ovrLatch := x.ovrLatch && !tb v 8 } }))
    | _ => none

/-- The oscillation latches cleared by a W1C write of one of their words. -/
def State.clearOsc (s : State) (lo v : Nat) : State :=
  let clear := fun (i : Fin 64) => decide (lo ≤ i.val) && decide (i.val < lo + 32) && tb v (i.val - lo)
  (s.onLoop fun y => { y with slot := mapV s.loop.slot fun i x =>
    { x with oscLatch := x.oscLatch && !clear i } })

/-- The writable registers of LOOP. LOOP_SLOT_SP is RO in a slot that is not GENERIC (R500). -/
def State.wLoop (s : State) (off : Nat) : Option WReg :=
  match off with
  | 0x004 => mkW (rwF .osar [(0, 8), (16, 8), (24, 8)]) (fun v s => (s.onLoop fun y => { y with
      ramp := fld v 0 8
      satLimit := clampN 1 64 (fld v 16 8), cleanLog2 := clampN 8 16 (fld v 24 8) }))
  | 0x008 => mkW (rwF .osar [(0, 8), (16, 16)]) (fun v s => (s.onLoop fun y => { y with
      blend := clampN 0 64 (fld v 0 8), clampKw := fld v 16 16 }))
  | 0x030 => mkW (woF .oa [(0, 32)]) (fun v s => s.clearOsc 0 v)
  | 0x034 => mkW (woF .oa [(0, 32)]) (fun v s => s.clearOsc 32 v)
  | _ => match regionAt 64 0x1000 0x100 off with
    | some (i, 0x10) => mkW (woF .oa [(0, 1), (1, 1), (2, 1), (3, 1), (4, 1)]) (onBits
        [(0, fun s => s.testStart i), (1, fun s => s.testAbort i), (2, fun s => s.bankPrimary i)
        , (3, fun s => s.unfreeze i), (4, fun s => s.snapRelease i)])
    | some (i, 0x14) =>
      if ((s.slotRec i.val).map Rec.kind).getD 0 = 4 then
        mkW (rwF .or_ [(0, 32)]) (fun v s => s.updSlot i fun x => { x with baseSp := ofCode 32 v })
      else none
    | _ => none

/-- The writable registers of a group (R204, R205). -/
def wGroup (g : Fin 4) (r : Nat) : Option WReg :=
  match r with
  | 0x08 => mkW (rwF .ox [(0, 4), (4, 4), (8, 8), (16, 8), (24, 4), (28, 4)]) (fun v s =>
      s.updGrp g fun x => { x with fault := {
        droopV := clampN 1 15 (fld v 0 4), openPct := clampN 1 15 (fld v 4 4), suspectMs := clampN 1 255 (fld v 8 8)
        suspectPct := clampN 10 90 (fld v 16 8), scRetries := clampN 1 15 (fld v 24 4)
        openCycles := clampN 4 15 (fld v 28 4) } })
  | 0x38 => mkW (rwF .osa [(0, 8), (8, 8), (31, 1)]) (fun v s =>
      s.updGrp g fun x => { x with holdMs := fld v 0 8, syncPhase := fld v 8 8, syncEn := tb v 31 })
  | _ => none

/-- The writable registers of PWM. A profile limit outside its range is clamped without event 0x5071, which a target
raises (R182, R211; log entry 44). -/
def wPwm (off : Nat) : Option WReg :=
  match off with
  | 0x800 => mkW (rwF .osar [(0, 32)]) (fun v s => s.setBus (ofCode 32 v))
  | 0x804 => mkW (rwF .osar [(0, 32)]) (fun v s =>
      (s.onPwm fun y => { y with vmax := clampN 100 100000 v }))
  | 0x808 => mkW (rwF .osar [(0, 32)]) (fun v s =>
      (s.onPwm fun y => { y with amax := clampN 100 1000000 v }))
  | 0x80C => mkW (rwF .osar [(0, 32)]) (fun v s =>
      (s.onPwm fun y => { y with jmax := clampN 1000 100000000 v }))
  | 0x82C => mkW (rwF .osa [(0, 8)]) (fun v s =>
      (s.onPwm fun y => { y with safePct := clampN 10 100 (fld v 0 8) }))
  | _ =>
    match regionAt 4 0x000 0x100 off, regionAt 64 0x1000 0x40 off, regionAt 16 0x2000 0x20 off with
    | some (g, r), _, _ => wGroup g r
    | _, some (p, 0x20), _ => mkW (woF .osar [(0, 1), (1, 1)]) (onBits
        [(0, fun s => s.readmit p), (1, fun s => s.requestDisable p .operator)])
    | _, _, some (p, 0x1C) => mkW (woF .oa [(0, 1)]) (onBits [(0, fun s => s.restorePort p)])
    | _, _, _ => none

/-- The writable registers of FCE. -/
def wFce (off : Nat) : Option WReg :=
  match off with
  | 0x004 => mkW (rwF .oar [(0, 1), (1, 1)] ++ woF .oar [(2, 1)]) (fun v s =>
      onBit v 2 State.revertAll ((s.forecastEnable (tb v 0)).adaptEnable (tb v 1)))
  | 0x008 => mkW (rwF .osar [(0, 8), (8, 8), (16, 8), (24, 8)]) (fun v s => (s.onFce fun y => { y with
      period := clampN 1 2 (fld v 0 8), restore := clampN 4 255 (fld v 8 8), shiftMax := clampN 0 32 (fld v 16 8),
      deadline := clampN 4 64 (fld v 24 8) }))
  | 0x00C => mkW (rwF .osar [(0, 8), (16, 8), (24, 8)]) (fun v s => (s.onFce fun y => { y with
      periodMs := clampN 1 100 (fld v 0 8), deadlineMs := clampN 1 100 (fld v 16 8),
      staleMs := clampN 5 255 (fld v 24 8) }))
  | _ => match regionAt 10 0x1000 0x80 off with
    | some (i, 0x08) => mkW (rwF .oar [(1, 1)] ++ woF .oar [(0, 1)]) (fun v s =>
        onBit v 0 (fun s => s.headRevert i) (s.adaptDisable i (tb v 1)))
    | _ => none

/-- The non-compliance latches cleared by a W1C write of one of their words (R290). -/
def State.clearNonCompl (s : State) (lo v : Nat) : State :=
  let clear := fun (i : Fin 64) => decide (lo ≤ i.val) && decide (i.val < lo + 32) && tb v (i.val - lo)
  { s with tlk := { s.tlk with port := mapV s.tlk.port fun i x =>
    { x with nonComplLatch := x.nonComplLatch && !clear i } } }

/-- The writable registers of TLK. -/
def wTlk (off : Nat) : Option WReg :=
  match off with
  | 0x004 => mkW (woF .or_ [(0, 1), (1, 1)]) (onBits
      [(0, fun s => s.throttleAllPorts 4), (1, State.releaseAllPorts)])
  | 0x060 => mkW (woF .oa [(0, 32)]) (fun v s => s.clearNonCompl 0 v)
  | 0x064 => mkW (woF .oa [(0, 32)]) (fun v s => s.clearNonCompl 32 v)
  | _ => match regionAt 64 0x1000 0x40 off with
    | some (n, 0x20) => mkW (rwF .oar [(0, 3)]) (fun v s =>
        if v % 8 ≤ 4 then s.setRole [n] (v % 8) else s)
    | some (n, 0x24) => mkW (woF .or_ [(0, 1), (1, 1), (2, 1)]) (onBits
        [(0, fun s => s.throttlePort n 5), (1, fun s => s.clearPortCause n 5), (2, fun s => s.drain n)])
    | _ => none

/-- The writable registers of CHN. -/
def wChn (off : Nat) : Option WReg :=
  match off with
  | 0x800 => mkW (woF .oa [(4, 4)]) (fun v s => (s.onChn fun y => { y with
      ring := mapV s.chn.ring fun c r => { r with toneHeard := r.toneHeard && !tb v (4 + c.val) } }))
  | 0x804 => mkW (rwF .osar [(0, 8), (8, 8), (16, 8)]) (fun v s => (s.onChn fun y => { y with
      diagTol := clampN 1 20 (fld v 0 8), staleMs := clampN 2 100 (fld v 8 8), diagS := clampN 1 60 (fld v 16 8) }))
  | _ => match regionAt 4 0x000 0x100 off with
    | some (c, 0x24) => mkW (woF .oa [(0, 16)]) (fun v s => s.updRing c fun r =>
        { r with node := mapV r.node fun n x => { x with mwLatch := x.mwLatch && !tb v n.val } })
    | some (c, 0x30) => mkW (woF .os [(0, 1)] ++ woF .osa [(1, 1), (2, 1)] ++ woF .oa [(3, 1)]) (onBits
        [(0, fun s => s.ringRetry c), (1, fun s => s.ctrOpen c), (2, fun s => s.ctrClose c), (3, fun s => s.diagNow c)])
    | _ => none

/-- The writable registers of EST: values outside the ranges of R354 are clamped. -/
def wEst (off : Nat) : Option WReg :=
  match off with
  | 0x004 => mkW (rwF .or_ [(8, 1)] ++ woF .or_ [(0, 4), (9, 1)]) (fun v s =>
      onBit v 9 State.abortRests ((s.setEclipseEn (tb v 8)).forceRest (v % 16)))
  | 0x008 => mkW (rwF .osar [(0, 16), (16, 16)]) (fun v s => (s.onEst fun y => { y with
      seconds := clampN 0 600 (fld v 0 16), ratedKw := fld v 16 16 }))
  | 0x00C => mkW (rwF .osar [(0, 8), (8, 8), (16, 16)]) (fun v s => (s.onEst fun y => { y with
      jmax := fld v 0 8
      amax := fld v 8 8, ramp := clampN 1 65535 (fld v 16 16) }))
  | 0x010 => mkW (rwF .osar [(0, 8), (16, 16)]) (fun v s => (s.onEst fun y => { y with
      ovlAvgS := clampN 1 60 (fld v 0 8), capStep := fld v 16 16 }))
  | 0x014 => mkW (rwF .osar [(0, 16)]) (fun v s => (s.onEst fun y => { y with ovlS := clampN 10 600 (fld v 0 16) }))
  | _ => none

/-- The writable registers of NET. -/
def wNet (off : Nat) : Option WReg :=
  match off with
  | 0x004 => mkW (rwF .os [(1, 1), (2, 1), (3, 1), (4, 8), (12, 2), (14, 6), (20, 12)]) (fun v s =>
      (s.onNet fun y => { y with
      macsecReq := tb v 1, ipv4En := tb v 2, autoRun := tb v 3, ptpDomain := fld v 4 8
      ptpMode := fld v 12 2, dscp := fld v 14 6, vlan := fld v 20 12 }))
  | 0x008 => mkW (rwF .ox [(0, 16), (16, 16)]) (fun v s => (s.onNet fun y => { y with
      timeoutMs := clampN 500 60000 (fld v 0 16), idleS := clampN 10 3600 (fld v 16 16) }))
  | 0x030 => mkW (rwF .os [(0, 32)]) (fun v s => (s.onNet fun y => { y with ip4 := v }))
  | 0x034 => mkW (rwF .os [(0, 16)]) (fun v s => (s.onNet fun y => { y with plen := fld v 0 16 }))
  | 0x048 => mkW (rwF .os [(0, 32)]) (fun v s => (s.onNet fun y => { y with gw4 := v }))
  | _ =>
    match regionAt 4 0x020 4 off, regionAt 4 0x038 4 off, regionAt 64 0x1000 0x40 off with
    | some (i, 0), _, _ => mkW (rwF .os [(0, 32)]) (fun v s =>
        (s.onNet fun y => { y with ip6 := updV s.net.ip6 i fun _ => v }))
    | _, some (i, 0), _ => mkW (rwF .os [(0, 32)]) (fun v s =>
        (s.onNet fun y => { y with gw6 := updV s.net.gw6 i fun _ => v }))
    | _, _, some (n, 0x28) => mkW (woF .oa [(0, 1)]) (onBits [(0, fun s => s.closeSess n)])
    | _, _, _ => none

/-- The writable registers of PROT (R429 to R431). -/
def wProt (off : Nat) : Option WReg :=
  match off with
  | 0x004 => mkW (woF .or_ [(0, 1), (8, 4)] ++ woF .oa [(1, 1), (2, 1), (4, 1)] ++ woF .ox [(3, 1)]) (fun v s =>
      (onBits [(0, fun s => s.basaltCause 3), (1, State.basaltExitReq), (2, State.tripClear)
        , (3, State.cduAlarm), (4, State.cduClear)] v s).groupReturns (fld v 8 4))
  | 0x008 => mkW (rwF .osar [(0, 1), (8, 8), (16, 8), (24, 8)]) (fun v s =>
      (s.onProt fun y => { y with
      autoExit := tb v 0, dieWarnC := clampN 80 105 (fld v 8 8)
      uvPersistMs := clampN 5 255 (fld v 16 8), exitHoldS := clampN 1 255 (fld v 24 8) }))
  | 0x00C => mkW (rwF .osar [(8, 8), (16, 8), (24, 8)]) (fun v s => (s.onProt fun y => { y with
      staggerMs := clampN 1 100 (fld v 8 8), rampMs := clampN 5 20 (fld v 16 8), flowMs := clampN 5 50 (fld v 24 8) }))
  | 0x010 => mkW (rwF .osar [(0, 8), (8, 8), (16, 8), (24, 8)]) (fun v s =>
      (s.onProt fun y => { y with
      unmonS := clampN 1 60 (fld v 0 8), isolateS := clampN 1 60 (fld v 8 8)
      hystMv := clampN 5 100 (fld v 16 8), hardMv := clampN 10 200 (fld v 24 8) }))
  | _ => none

/-- The writable registers of EVR (R491, R492). -/
def wEvr (off : Nat) : Option WReg :=
  match off with
  | 0x004 => mkW (woF .ia [(0, 1), (2, 1)] ++ woF .oa [(1, 1)]) (onBits
      [(0, State.firstClear), (1, State.triggerNow), (2, State.obsClear)])
  | 0x008 => mkW (woF .ox [(0, 32)]) (fun v s => s.evrUser (fld v 16 16) (fld v 0 16))
  | 0x00C => mkW (rwF .ox [(0, 32)]) (fun v s => (s.onEvr fun y => { y with userData := v }))
  | 0x060 => mkW (rwF .ox [(0, 1)] ++ woF .ox [(1, 1)]) (fun v s =>
      onBit v 1 State.captureResume (s.onEvr fun y => { y with freezeOnTrigger := tb v 0 }))
  | _ => none

/-- The writable register at an address, none where every field is RO or RSV (R507). -/
def State.wreg (s : State) (addr : Nat) : Option WReg :=
  let off := addr % 2 ^ 20
  match addr / 2 ^ 20 with
  | 0 | 1 | 2 => wSys addr
  | 3 => wAfe off
  | 4 => s.wLoop off
  | 5 => wPwm off
  | 6 => wFce off
  | 7 => wTlk off
  | 8 => wChn off
  | 9 => wEst off
  | 10 => wNet off
  | 11 => wProt off
  | 14 => wEvr off
  | _ => none

/-- The registers of class F: those of a DMA register set up to DMA_CH_CTRL (R498, R507). -/
def firmwareReg (addr : Nat) : Bool :=
  addr / 2 ^ 20 = 12 && (match regionAt 64 0x1000 0x40 (addr % 2 ^ 20) with
    | some x => decide (x.2 ≤ 0x20)
    | none => false)

/-- A write of a value alters a field whose present register value is known (R499). -/
def WField.alters (f : WField) (old v : Nat) : Bool :=
  if f.rw then fld v f.lo f.w != fld old f.lo f.w else fld v f.lo f.w != 0

/-- A register's write is a violation (R499). -/
def WReg.refuses (w : WReg) (r : Role) (st : DevState) (old v : Nat) : Bool :=
  !(w.fields.any fun f => roleMayWrite r st f.cls)
  || w.fields.any fun f => f.alters old v && !roleMayWrite r st f.cls

/-- One write of a message (R496, R498, R499), judged against a role and a device state; with it the write whose effect
follows the message (R505). -/
def State.regWrite (s : State) (r : Role) (st : DevState) (addr v : Nat) : State × Option (Nat × Nat) :=
  match s.regLive addr with
  | none => (s.violate, none)
  | some old =>
    if firmwareReg addr then (s.violate, none)
    else if !s.instLive addr then (s, none)
    else match s.wreg addr with
      | none => (s, none)
      | some w =>
        if w.refuses r st old v then (s.violate, none)
        else if w.late then (s, some (addr, v))
        else (w.apply v s, none)

/-- The writes of a message in their order, and then what follows them (R505). -/
def State.regWrites (s : State) (r : Role) (st : DevState) (l : List (Nat × Nat)) : State :=
  let (s, late) := l.foldl (fun (x : State × List (Nat × Nat)) p =>
    let (s, d) := x.1.regWrite r st p.1 p.2
    (s, x.2 ++ d.toList)) (s, [])
  late.foldl (fun s p => match wSys p.1 with
    | some w => w.apply p.2 s
    | none => s) s

/-- Whether an address can stand in a register message (R504). -/
def addrOk (a : Nat) : Bool := a % 4 = 0 && a < 2 ^ 24

end Sys2Proof.Machine
end

