-- ==== Sys2Proof/Machine/Regs.lean ====
section
/-! DEFINITION. Register messages (R378, R501, R504, R505), subscriptions and what they send (R380), and the words a
block read samples tick by tick (R378). -/

namespace Sys2Proof.Machine

/-! Register messages. -/

/-- The registers of a list read in its order (R502): values, violations and the state with its latches. -/
def State.regReads (s : State) (req : Nat) : List Nat → List Nat × Nat × State
  | [] => ([], 0, s)
  | a :: l =>
    let (v, s) := s.regRead req a
    let (vs, n, s) := s.regReads req l
    (v.getD 0 :: vs, (if v.isNone then 1 else 0) + n, s)

/-- `n` violations are counted (R14). -/
def State.violations (s : State) : Nat → State
  | 0 => s
  | n + 1 => (s.violate).violations n

/-- REG_READ (R378, R501): the values are sampled in address order, before the violations of the message are counted, and
stand in the response in the order of the request (DEDUCED, log entry 139). -/
def execRegRead (h : Sys2Proof.MsgHdr) (addrs : List (BitVec 32)) (s : State) : Host.Outcome State Fault Refusal :=
  .next (s.serve h 4 0x10 .monitor (leBytes 2 addrs.length ++ leBytes 2 0 ++ addrs.flatMap fun a => leBytes 4 a.toNat) fun s =>
    let l := addrs.map BitVec.toNat
    if l.isEmpty || 64 < l.length || !l.all addrOk then s.reply h 0x10 stMalformed
    else
      let order := (l.zipIdx.map fun x => (x.2, x.1)).insertionSort fun x y => x.2 ≤ y.2
      let (vs, n, s) := s.regReads h.sess.val (order.map (·.2))
      let value := fun (i : Nat) => (((order.map (·.1)).zip vs).find? fun x => x.1 = i).elim 0 (·.2)
      (s.violations n).reply h 0x10 stOk ((List.range l.length).flatMap fun i => leBytes 4 (value i)))

/-- Sessions bound to an address that a message has changed close once its response is sent (R363): `was` is the state
before the message. -/
def State.closeBound (s was : State) : State :=
  let d := fun (k : Nat) => (k = 1 && s.net.ip6 != was.net.ip6) || (k = 2 && s.net.ip4 != was.net.ip4)
  (List.finRange 64).foldl (fun s n => if (s.sess n).isOpen && d (s.sess n).dst then s.closeSess n else s) s

/-- REG_WRITE (R378, R499, R505): judged against the role and the device state in force as the message begins. -/
def execRegWrite (h : Sys2Proof.MsgHdr) (pairs : List (BitVec 32 × BitVec 32)) (s : State) :
    Host.Outcome State Fault Refusal :=
  .next (s.serve h 3 0x11 .operator (leBytes 2 pairs.length ++ leBytes 2 0
      ++ pairs.flatMap fun p => leBytes 4 p.1.toNat ++ leBytes 4 p.2.toNat) fun s =>
    let l := pairs.map fun p => (p.1.toNat, p.2.toNat)
    if l.isEmpty || 32 < l.length || !l.all fun p => addrOk p.1 then s.reply h 0x11 stMalformed
    else ((s.regWrites (s.sess h.sess).role s.sys.state l).reply h 0x11 stOk).closeBound s)

/-- REG_READ_BLOCK (R378, R504): the words are sampled over the ticks that follow. -/
def execRegReadBlock (h : Sys2Proof.MsgHdr) (addr : BitVec 32) (words : BitVec 16) (s : State) :
    Host.Outcome State Fault Refusal :=
  .next (s.serve h 13 0x12 .monitor (leBytes 4 addr.toNat ++ leBytes 2 words.toNat) fun s =>
    let a := addr.toNat
    let n := words.toNat
    if n = 0 || 2048 < n || !addrOk a || 2 ^ 24 < a + 4 * n then s.reply h 0x12 stMalformed
    else { s with net := { s.net with
      blocks := s.net.blocks ++ [{ sess := h.sess.val, reqId := h.reqId.toNat, addr := a, left := n, values := [] }] } })

/-- One word of a block read: sampled, and counted where it is a violation; the response follows the last word. -/
def State.blockWord (s : State) (b : BlockRead) : State :=
  let (v, s) := s.regRead b.sess b.addr
  let s := if v.isNone then s.violate else s
  let b := { b with addr := b.addr + 4, left := b.left - 1, values := v.getD 0 :: b.values }
  if b.left = 0 then
    if h : b.sess < 64 then 
      s.sendTo ⟨b.sess, h⟩ 0x12 b.reqId stOk flResponse (b.values.reverse.flatMap (leBytes 4)) else s
  else { s with net := { s.net with blocks := s.net.blocks ++ [b] } }

/-- The block reads in a tick: one word each. -/
def State.blockTick (s : State) : State :=
  s.net.blocks.foldl State.blockWord { s with net := { s.net with blocks := [] } }

/-! Subscriptions. -/

/-- SUBSCRIBE (R380): one of the same SUB_ID is replaced. Records that enter after it are new to it. -/
def execSubscribe (h : Sys2Proof.MsgHdr) (id kind : BitVec 8) (period : BitVec 16) (addrs : List (BitVec 32))
    (mask : BitVec 16) (s : State) : Host.Outcome State Fault Refusal :=
  let body := leBytes 1 id.toNat ++ leBytes 1 kind.toNat ++ leBytes 2 period.toNat
    ++ (if kind = 1 then leBytes 2 mask.toNat else leBytes 2 addrs.length ++ addrs.flatMap fun a => leBytes 4 a.toNat)
  .next (s.serve h 6 0x30 .monitor body fun s =>
    let l := addrs.map BitVec.toNat
    if 15 < id.toNat || 1 < kind.toNat || period.toNat = 0 || 60000 < period.toNat
        || (kind = 0 && (l.isEmpty || 256 < l.length || !l.all addrOk)) then s.reply h 0x30 stMalformed
    else
      let x : Sub := { id := id.toNat, events := kind = 1, periodMs := period.toNat, addrs := if kind = 1 then [] else l
                       classMask := mask.toNat, seq := 0, missed := 0, latched := none, lastLatch := none
                       sentUpTo := s.evr.seq, dropped := 0 }
      (s.updSess h.sess fun y => { y with subs := (y.subs.filter fun z => z.id != x.id) ++ [x] }).reply h 0x30 stOk)

/-- UNSUBSCRIBE (R376, R380): an unknown SUB_ID is refused, with the REASON R379 has for an unknown ID (DESIGN CHOICE, log
entry 139). -/
def execUnsubscribe (h : Sys2Proof.MsgHdr) (id : BitVec 8) (s : State) : Host.Outcome State Fault Refusal :=
  .next (s.serve h 6 0x31 .monitor (leBytes 1 id.toNat) fun s =>
    if (s.sess h.sess).subs.any fun z => z.id = id.toNat then
      (s.updSess h.sess fun y => { y with subs := y.subs.filter fun z => z.id != id.toNat }).reply h 0x31 stOk
    else s.reply h 0x31 stRefused (leBytes 1 0x04))

/-- A change of one subscription. -/
def State.updSub (s : State) (n : Fin 64) (id : Nat) (f : Sub → Sub) : State :=
  s.updSess n fun y => { y with subs := y.subs.map fun (z : Sub) => if z.id = id then f z else z }

/-- The subscription of an open session. -/
def State.sub (s : State) (n : Fin 64) (id : Nat) : Option Sub := (s.sess n).subs.find? fun z => z.id = id

/-- The values of a REGISTERS subscription at its latch boundary (R380): a report still unsent is skipped and counted.
The latches of R502 belong to reads of a requester and stay (log entry 45). -/
def State.telLatch (s : State) (n : Fin 64) (x : Sub) : State :=
  if s.sys.tick % (500 * x.periodMs) = 0 && x.lastLatch != some s.sys.tick then
    let vs := x.addrs.map fun a => if s.instLive a then (s.regLive a).getD 0 else 0
    s.updSub n x.id fun z =>
      { z with latched := some (vs, s.sys.tick, s.sys.timeNs), lastLatch := some s.sys.tick
               missed := if z.latched.isSome then bump 16 z.missed else z.missed }
  else s

/-- The report of a subscription leaves (R380), and telemetry formatting that had yielded resumes (R73, R74). -/
def State.telSend (s : State) (n : Fin 64) (x : Sub) : State :=
  match x.latched with
  | none => s
  | some (vs, tick, time) =>
    let s := s.updSub n x.id fun z => { z with latched := none, seq := wrapU 32 (z.seq + 1) }
    let s := s.sendTo n 0x32 0 0 flUnsolicited
      (leBytes 1 x.id ++ leBytes 4 x.seq ++ leBytes 8 tick ++ leBytes 8 time ++ leBytes 4 (2 * (s.sys.tick - tick))
        ++ leBytes 2 x.missed ++ vs.flatMap (leBytes 4))
    if s.net.telDisplaced then
      ({ s with net := { s.net with telDisplaced := false } }).undisplace 6 0 2 4
    else s

/-- The latches of the REGISTERS subscriptions at a tick boundary (R380). -/
def State.telTick (s : State) : State :=
  (List.finRange 64).foldl (fun s n => ((s.sess n).subs.filter fun x => !x.events).foldl (fun s x => s.telLatch n x) s) s

/-- TELEMETRY (R380, R73): the report that is latched leaves where the core is free of the planner. -/
def execTelemetry (n : Fin 64) (id : BitVec 8) (free : Bool) (s : State) : Host.Outcome State Fault Refusal :=
  .next (
    match s.sub n id.toNat with
    | none => s
    | some x =>
      if x.events then s
      else if x.latched.isNone then s
      else if free then s.telSend n x
      else if s.net.telDisplaced then s
      else ({ s with net := { s.net with telDisplaced := true } }).displace 6 0 2 4)

/-- EVENTS messages of a subscription with records, at most 279 in one (R371). -/
def State.sendEvents (s : State) (n : Fin 64) (id dropped : Nat) (recs : List (List Byte)) : State :=
  (List.range (ceilDiv recs.length 279)).foldl (fun s k =>
    s.sendTo n 0x33 0 0 flUnsolicited
      (leBytes 1 id ++ leBytes 4 dropped ++ ((recs.drop (279 * k)).take 279).flatten)) s

/-- EVENTS (R380): every PERIOD_MS the new records of the classes asked for, oldest first, in the recorder's format (R473).
Records the area has given up since the last message are counted. -/
def execEvents (n : Fin 64) (id : BitVec 8) (s : State) : Host.Outcome State Fault Refusal :=
  .next (
    match s.sub n id.toNat with
    | none => s
    | some x =>
      if !x.events || !s.due (500 * x.periodMs) x.lastLatch then s
      else
        let fresh := s.evr.seq - x.sentUpTo
        let lost := fresh - s.evr.hbmArea.length
        let recs := ((s.evr.hbmArea.take fresh).reverse).filter fun e => tb x.classMask (e.code / 4096)
        let dropped := min (2 ^ 32 - 1) (x.dropped + lost)
        let s := s.updSub n x.id fun z =>
          { z with sentUpTo := s.evr.seq, dropped := dropped, lastLatch := some s.sys.tick }
        s.sendEvents n x.id dropped (recs.map fun e => e.bytes s.fv))

end Sys2Proof.Machine
end

