-- ==== Sys2Proof/Machine/TickOps.lean ====
section
/-! DEFINITION. What a tick does, part by part (R140): the recorder's staging (R474), references (R175), limits
and filters of the converters (R174, R178, R190 to R192, R195), the regulation target (R184), the online resistance
(R335), the sums of the planner, key channels, capture ring and history (R477, R481 to R483), and DEGRADED (R19). -/

namespace Sys2Proof.Machine

/-! The recorder. -/

/-- Up to four records enter the recorder in a tick, from staging first (R474). -/
def State.drainStaging (s : State) : State :=
  let l := s.evr.staging.take 4
  let was := s
  let s := { s with evr := { s.evr with entered := 0, staging := s.evr.staging.drop 4 } }
  let s := l.foldl State.evEnter s
  if s.evr.firstFull && !was.evr.firstFull then (s.evRecord1 0xC041 noInst 0).fullTrigger was else s

/-! Measurements. -/

/-- Voltages, current and power of a group from the tick values (R170, R206). -/
def State.measureGroup (s : State) (g : Fin 4) : State :=
  if (s.grpRec g.val).isNone then s
  else
    let str := s.chan (s.vstrCh g.val)
    let bus := s.chan (s.vbusCh g.val)
    let vs := s.scaleV g.val false str.value
    let vb := s.scaleV g.val true bus.value
    let i := match s.currentSlot g.val with
      | some c => if h : c < 64 then s.fbNow ⟨c, h⟩ else 0
      | none => 0
    s.updGrp g fun x => { x with vStr := vs, vBus := vb, vBusValid := bus.valid, iMeas := i
                                 p := sat32 (divHE (i * vs) 1000000) }

/-- A coolant quantity (R420): value / 2^31 of its full scale, rounded half-even. -/
def State.coolValue (s : State) (ch fs : Nat) : Int :=
  divHE ((s.chan (s.param ch 0)).value * (s.param fs 0 : Nat)) (2 ^ 31)

/-- The coolant temperature joins the mean of the planner cycle. -/
def Prot.addCoolT (p : Prot) (t : Int) : Prot :=
  { p with coolT := t, coolSum := p.coolSum + t, coolN := p.coolN + 1 }

/-- How long the coolant has been cold enough, and the flow below or above its threshold (R421, R422). -/
def Prot.countCool (p : Prot) (crit flowMin : Int) (flow : Bool) : Prot :=
  { p with coolBelow := if p.coolT < crit - 1000 then p.coolBelow + 1 else 0
           flowBelow := if flow && decide (p.coolFlow < flowMin) then p.flowBelow + 1 else 0
           flowAbove := if flow && decide (flowMin < p.coolFlow) then p.flowAbove + 1 else 0 }

/-- The coolant's temperature and flow (R420). -/
def State.measureCoolant (s : State) : State :=
  let s := if s.param 0x0013 0 = 0 then s else
    { s with prot := s.prot.addCoolT (ofCode 32 (s.param 0x0015 0) + s.coolValue 0x0013 0x0014) }
  let s := if s.param 0x0010 0 = 0 then s else { s with prot := { s.prot with coolFlow := s.coolValue 0x0010 0x0011 } }
  { s with prot := s.prot.countCool (s.limit 10) (s.param 0x0012 0 : Nat) (s.param 0x0010 0 != 0) }

/-- PWM_BUS_V (R207). -/
def State.measureBus (s : State) : State := { s with pwm := { s.pwm with busV := s.shelfBus } }

/-- Supplies are read every millisecond (R56). -/
def State.measureSupplies (s : State) (x : Sys2Proof.TickInputs) : State :=
  if s.sys.tick % 500 = 0 then
    { s with power := { s.power with aux54mV := x.aux54, stby12mV := x.stby12, inputP := x.inputP
                                     aux54Ok := decide (46000 < x.aux54)
                                     stby12Ok := decide (10800 ≤ x.stby12 ∧ x.stby12 ≤ 13200) } }
  else s

/-- The pins a tick sees (R53, R55): SVC_PRESENT_N high, edges on SYNC_IN in its assigned function, and REF_IN. -/
def State.measurePins (s : State) (x : Sys2Proof.TickInputs) : State :=
  { s with power := { s.power with svcPresent := s.power.svcPresent && x.svcLow }
           clk := { s.clk with syncInActive := x.syncEdges && decide (s.param 0x0002 0 ≠ 0)
                               refInPresent := x.refIn
                               refSince := if s.clk.refInPresent then s.clk.refSince else s.sys.tick } }

/-- The crystal as a tick finds it (R39, R53). -/
def State.measureXtal (s : State) (x : Sys2Proof.TickInputs) : State :=
  if !x.xtal then s.xtalLost
  else if s.clk.xtalOk then s
  else { s with clk := { s.clk with xtalOk := true, xtalSince := s.sys.tick } }

/-- Block lock of the row ring's ports (R392, R400), where their forwarding runs. -/
def State.measureRing (s : State) (x : Sys2Proof.TickInputs) : State :=
  let n := s.net
  let east := n.forwarding && x.eastLock
  let west := n.forwarding && x.westLock
  { s with net := { n with
    eastUp := east, westUp := west, lockEastAt := if n.eastUp then n.lockEastAt else s.sys.tick
    lockWestAt := if n.westUp then n.lockWestAt else s.sys.tick } }

/-- The measurements of a tick. -/
def State.measure (s : State) (x : Sys2Proof.TickInputs) : State :=
  let s := (((List.finRange 4).foldl State.measureGroup s).measureBus).measureCoolant
  ((((s.measureSupplies x).measurePins x).dieRead x.dieT).measureXtal x).measureRing x

/-! Outputs of the last tick. -/

/-- Outputs of the last tick apply (R140, R175): the references of the groups the engine commands, the brick current and
the bricks' commands, and PWM_GRP_FAULT_CFG as last written (R204). -/
def State.applyStaged (s : State) : State :=
  let s : State := s.groups.foldl (fun (s : State) g =>
    let st := (s.grp g).state
    let s := s.updGrp g fun x => { x with faultNow := x.fault }
    if !(s.grp g).basaltDrives && st != .off then
      (s.actives g).foldl (fun s p => s.updPh p fun (x : Phase) => { x with iPk := x.iPkNext }) s
    else s) s
  let s : State := if s.loop.active then
      { s with loop := { s.loop with slot := s.loop.slot.map fun (x : Slot) => { x with applied := x.out } } } else s
  let b := match s.sys.state with
    | .run => s.pwm.brickNext
    | _ => s.pwm.brickI
  ({ s with pwm := { s.pwm with brickI := b } }).psuCommands

/-! Switching cycles (R172 to R175). -/

/-- Edges, midpoints and frames that no window needs any more. -/
def Phase.trim_ (x : Phase) (t : Nat) : Phase :=
  { x with edges := x.edges.filter fun e => decide (t ≤ e + keepNs), mids := x.mids.filter fun e => decide (t ≤ e + keepNs) }
def Group.trimFrames (x : Group) (t : Nat) : Group :=
  { x with frames := x.frames.filter fun f => decide (t ≤ f.1 + f.2 + keepNs)
           ons := x.ons.filter fun e => decide (t ≤ e + keepNs) }

/-- The cycles of every phase up to the start of the tick, with the codes its sense input took since the last one. -/
def State.cyclesTick (s : State) (l : List Sys2Proof.SenseIn) : State :=
  let t := 80000 * s.sys.tick
  let s := s.groups.foldl (fun s g => (s.members g.val).foldl (fun s p =>
    let codes := (l.filter fun v => v.phase = p.val).map fun v => (t - 80000 + v.instant, v.code)
    ((s.noteSwitch p (s.phaseSwitches p.val) (t - 80000)).phaseTo p t codes).updPh p fun x => x.trim_ t) s) s
  { s with pwm := { s.pwm with grp := s.pwm.grp.map fun (x : Group) => x.trimFrames t } }

/-! The regulation target (R184). -/

/-- Whether a slot descends from a BUS_VOLTAGE slot, within `k` steps: that slot's record. -/
def State.busSlotAbove (s : State) (r : Rec) : Nat → Option Rec
  | 0 => none
  | k + 1 =>
    if r.kind = 2 then some r
    else match s.slotRec r.parent with
      | some q => s.busSlotAbove q k
      | none => none

/-- v_target of a BUS_VOLTAGE slot, mV. -/
def State.targetOf (s : State) (r : Rec) : Int :=
  let vb := ((s.pwm.grp[r.group]?).map Group.vBus).getD 0
  let sum := if vb ≤ 0 then 0 else ((s.groupsUnder (r.u8 0x08)).map fun h =>
    divHE ((s.grp h).iMeas * (s.grp h).vStr) vb.toNat).sum
  s.busProfMv - divHE ((s.loadLine r.group : Int) * sum) 10000

/-- v_target of a group (R184): that of the first BUS_VOLTAGE slot whose GROUP it is. For a group that is no slot's GROUP,
that of the BUS_VOLTAGE slot its CURRENT slot descends from, and p without one (DEDUCED, log entry 31). -/
def State.groupTarget (s : State) (g : Fin 4) : Int :=
  match (s.recs 0x0401).find? fun r => r.kind = 2 && r.group = g.val with
  | some b => s.targetOf b
  | none =>
    match ((s.currentSlot g.val).bind s.slotRec).bind fun r => s.busSlotAbove r 4 with
    | some b => s.targetOf b
    | none => s.busProfMv

/-- v_target and the fast-path threshold of every group (R184, R192). -/
def State.targets (s : State) : State :=
  s.groups.foldl (fun s g =>
    let v := sat32 (s.groupTarget g)
    let thr := max (v - s.uvDelta g.val) (s.limit 3 + 5000)
    let clear := thr + 5000 < (s.grp g).vBus
    s.updGrp g fun x =>
      let good := if !x.fpArmed && x.state != .fastPath && clear then x.fpGood + 1 else 0
      { x with vTarget := v, fpThr := thr, fpGood := if 5 ≤ good then 0 else good
               fpArmed := x.fpArmed || 5 ≤ good }) s

/-- Whether the clearing condition of a throttle cause holds at a tick (R272): the bus above the fast-path threshold plus
5 V, within DROOP_V of v_target, or RACK_HOLD_N high. -/
def State.causeHold (s : State) (c : Fin 7) : Bool :=
  let all := fun (f : Group → Bool) => s.pwm.grp.toList.all f
  match c.val with
  | 0 => all fun x => !x.uvReq || decide (x.fpThr + 5000 < x.vBus)
  | 1 => all fun x => !x.lossReq || decide ((x.vBus - x.vTarget).natAbs ≤ 5000 * x.faultNow.droopV)
  | 2 => !s.sys.rackHoldSeen
  | _ => true

/-- The holds of the throttle causes at a tick: a condition that fails starts its hold again. -/
def State.causeTicks (s : State) : State :=
  { s with tlk := { s.tlk with causeTick := mapV s.tlk.causeTick fun c t => if s.causeHold c then t else s.sys.tick } }

/-! References (R175, R176). -/

/-- The reference a group is asked for: the output of its CURRENT slot, or what it stops from (R186). -/
def State.groupOut (s : State) (g : Fin 4) : Int :=
  match s.currentSlot g.val with
  | none => 0
  | some c =>
    let x := s.loop.slot[c]?.getD {}
    if (s.grp g).state = .stopping && (s.sys.state != .run || x.basaltHeld) then (s.grp g).stopRef else x.out

/-- i_pk of a phase from the base of its group, and whether its clamp acted (R175). -/
def State.phasePeak (s : State) (p : Fin 64) (base : Int) : Int × Bool :=
  let l := s.peakLimit p.val
  let v := base + rshe (base * (s.ph p).trim) 12
  (clampI (-l) l v, clampI (-l) l v != v)

/-- The references of a group for the next tick (R175), and the ticks of R174. -/
def State.refGroup (s : State) (g : Fin 4) : State :=
  let st := (s.grp g).state
  if st = .off || (s.grp g).basaltDrives then
    let l := s.iLimFor g ((s.grp g).iRef < 0)
    let s := (s.members g.val).foldl (fun s p => s.updPh p fun x => { x with peakLimited := false, suspect := 0 }) s
    s.updGrp g fun x => { x with iLim := l, limited := false }
  else
    let out := s.groupOut g
    let l := s.iLimFor g (out < 0)
    let ref := clampI (-l) l out
    let n := s.nAct g
    let share := divHE ref n
    let rip : Int := s.ripple g.val
    let base := if 0 ≤ share then share + rip else share - rip
    let s := (s.actives g).foldl (fun s p =>
      let (i, c) := s.phasePeak p base
      s.updPh p fun x => { x with iPkNext := i, peakLimited := c }) s
    let small := s.deEnter g.val != 0 && ref.natAbs ≤ s.deEnter g.val
    s.updGrp g fun x => { x with iRef := ref, iLim := l, limited := ref != out
                                 deTicks := if small then min 16 (x.deTicks + 1) else 0
                                 deExit := x.deExit || (x.de && decide (s.deExit g.val ≤ ref.natAbs))
                                 rampLeft := if x.ramps then x.rampLeft - 1 else x.rampLeft }

/-! Filters and foldback (R190, R191). -/

/-- One step of a filtered square: `c` is its constant over 2^32. -/
def filterStep (x i : Int) (c : Int) : Int := x + rshe ((i * i - x) * c) 32

/-- The value of a phase's route at the tick, mA, and its VALID. -/
def State.phaseCurrent (s : State) (p : Fin 64) : Int × Bool :=
  match s.phaseRoute p with
  | some r => s.routeIn r
  | none => (0, false)

/-- Trip marks of two filters: a mark sets at its threshold, and all are dropped while the group is not folded
back. -/
def tripMarks (keep : Bool) (tf ts : Bool) (xf xs pp pc : Int) : Bool × Bool :=
  ((keep && tf) || 7 * pp * pp ≤ 8 * xf, (keep && ts) || pc * pc ≤ xs)

/-- Every marked filter is below 3/4 of its threshold. -/
def filtersLow (tf ts : Bool) (xf xs pp pc : Int) : Bool :=
  (!tf || 32 * xf < 21 * pp * pp) && (!ts || 4 * xs < 3 * pc * pc)

/-- The filters of a group and of its phases at a tick, and its foldback. A group with N = 0 has no threshold to reach. -/
def State.overloadGroup (s : State) (g : Fin 4) : State :=
  let n : Int := s.nAct g
  let pp : Int := s.phPeak g.val
  let pc : Int := s.phCont g.val
  let keep := (s.grp g).foldback
  let ps := s.members g.val
  let s := ps.foldl (fun s p =>
    let i := (s.phaseCurrent p).1
    s.updPh p fun x =>
      let xf := filterStep x.xf i 858993
      let xs := filterStep x.xs i 8590
      let m := tripMarks keep x.tripF x.tripS xf xs pp pc
      { x with xf := xf, xs := xs, tripF := m.1, tripS := m.2 }) s
  let s := s.updGrp g fun x =>
    let xf := filterStep x.xf x.iMeas 858993
    let xs := filterStep x.xs x.iMeas 8590
    let m := if n = 0 then (false, false) else tripMarks keep x.tripF x.tripS xf xs (n * pp) (n * pc)
    { x with xf := xf, xs := xs, tripF := m.1, tripS := m.2 }
  let gr := s.grp g
  if !keep then
    if gr.tripF || gr.tripS || ps.any fun p => (s.ph p).tripF || (s.ph p).tripS then
      (s.updGrp g fun x => { x with foldback := true }).ev 0x5030 (grpInst g.val)
    else s
  else if filtersLow gr.tripF gr.tripS gr.xf gr.xs (n * pp) (n * pc)
      && ps.all fun p => filtersLow (s.ph p).tripF (s.ph p).tripS (s.ph p).xf (s.ph p).xs pp pc then
    (s.updGrp g fun x => { x with foldback := false }).ev 0x5031 (grpInst g.val)
  else s

/-- The balancer (R178), every 8 ticks of the tick count. -/
def State.balance (s : State) (g : Fin 4) : State :=
  let ps := s.actives g
  let n : Int := ps.length
  let sum := (ps.map fun p => (s.phaseCurrent p).1).sum
  if (s.grp g).state != .running || (s.grp g).de || s.sys.tick % 8 != 0 || n = 0
      || (20 * sum.natAbs : Int) < n * s.phCont g.val || sum = 0 then s
  else
    let s := ps.foldl (fun s p =>
      let (i, ok) := s.phaseCurrent p
      if ok then
        let d := divHE (256 * (sum - n * i) * sum.sign) sum.natAbs
        s.updPh p fun x => { x with trim := x.trim + clampI (-16) 16 d }
      else s) s
    let c := divHE ((ps.map fun p => (s.ph p).trim).sum) ps.length
    ps.foldl (fun s p => s.updPh p fun x => { x with trim := clampI (-512) 512 (x.trim - c) }) s

/-- The condition of SENSE_SUSPECT on the phases of a group, tick by tick (R194): |i - share| above SUSPECT_PCT of |share|
with TRIM_SAT set, outside diode emulation. A tick without a valid value ends the run (log entry 89). -/
def State.suspectTick (s : State) (g : Fin 4) : State :=
  let gr := s.grp g
  let share := divHE gr.iRef (s.nAct g)
  if gr.state = .off || gr.basaltDrives then s
  else (s.actives g).foldl (fun s p =>
    let (i, ok) := s.phaseCurrent p
    let far : Bool := gr.faultNow.suspectPct * share.natAbs < 100 * (i - share).natAbs
    s.updPh p fun x => { x with suspect :=
      if ok && far && x.trim.natAbs = 512 && !gr.de then min (x.suspect + 1) 127500 else 0 }) s

/-- PWM_STORAGE_PLIM and event 0x5090 (R195). -/
def State.plimTick (s : State) : State :=
  let v := s.plimNow
  let ref := s.pwm.plimRef
  let s := { s with pwm := { s.pwm with plim := v } }
  if v != ref && ref.natAbs ≤ 100 * (v - ref).natAbs then
    { s with pwm := { s.pwm with plimRef := v } }.ev 0x5090
  else s

/-! Profiles (R183, R350). -/

/-- The bus profile in RUN and BASALT: a new target has entered. -/
def State.busTick (s : State) : State :=
  if s.inState [.run, .basalt] then
    { s with pwm := { s.pwm with profTarget := s.pwm.busSet } }.busProfStep
  else s

/-- The grid profile in RUN: it falls by the power of lost bricks (R350), and follows the load during the coolant
sequence (R422; DEDUCED, log entry 32). -/
def State.gridTick (s : State) : State :=
  if s.sys.state != .run || !s.est.gRunning then s
  else
    let lost := s.pwm.lostPower
    let s := if !s.pwm.lostPort then s else
      { s with est := { s.est with gP := s.est.gP - fxOf (lost * 1000) 1 }
               pwm := { s.pwm with lostPower := 0, lostPort := false } }.ev 0x9041
    if s.prot.coolShutdown then
      { s with est := { s.est with gP := fxOf (s.reportSum s.primaries * 1000) 1, gV := 0, gA := 0 } }
    else s.gridProfStep

/-! Slots (R131, R135, R140). -/

/-- The base setpoint of a slot by its KIND (R131). -/
def State.baseSetpoint (s : State) (i : Fin 64) (r : Rec) : Int :=
  match r.kind with
  | 2 => sat32 (s.targetOf r)
  | 3 => s.gNow
  | 4 => (s.slot i).baseSp
  | _ => 0

/-- One slot in a tick of RUN: evaluated where it is due, its output formed in any case (R134, R139). -/
def State.slotTick (s : State) (i : Fin 64) : State :=
  match s.slotRec i.val with
  | none => s
  | some r =>
    let due : Bool := s.sys.tick % r.div = 0
    let sp := s.baseSetpoint i r + if r.parent = 255 then 0 else s.parentTerm i r
    let run := due && s.evaluates i r
    let s := s.seedSlot i r
    let s := if due then s.slotEval i r sp else s
    s.formOutput i run

/-- The engine's evaluations of a tick (R140), and the brick current staged by the GRID_DRAW slot (R200). -/
def State.engineTick (s : State) (cycles : Nat) : State :=
  if !s.loop.active then s
  else
    let s := s.slotOrder.foldl State.slotTick s
    let b := ((s.recs 0x0401).find? fun r => r.kind = 3).map fun r => (s.loop.slot[r.u8 0x08]?.map Slot.out).getD 0
    { s with pwm := { s.pwm with brickNext := b }
             loop := { s.loop with evalMax := max s.loop.evalMax cycles } }

/-! Strings. -/

/-- The online resistance of a string (R335). A tick without a valid current or voltage counts for no step (log entry
33). -/
def State.resistTick (s : State) (i : Fin 4) : State :=
  let x := s.estr i
  let cur := (s.shunt i).i
  let v := (s.grp i).vStr
  if !((s.chan (160 + i.val)).valid && (s.chan (s.vstrCh i.val)).valid) then
    s.updStr i fun x => { x with prevIV := none }
  else
    let s := s.updStr i fun x => { x with prevIV := some (cur, v) }
    match x.prevIV with
    | none => s
    | some (i0, v0) =>
      if (cur - i0).natAbs < s.str16 i 0x46 2000 || cur = i0 then s
      else
        let r := fMul (fDiv (fOfInt (-(v - v0))) (fOfInt (cur - i0))) (fOfInt 1000000)
        if fLe (fOfInt (s.str32 i 0x28)) r && fLe r (fOfInt (s.str32 i 0x2C)) then
          s.updStr i fun x =>
            { x with r0 := fAdd x.r0 (fDiv (fSub r x.r0) (fOfInt 256)), r0n := x.r0n + 1, outliers := 0 }
        else if 64 ≤ x.outliers + 1 then
          (s.updStr i fun x => { x with r0 := fOfInt (s.str32 i 0x14), r0n := 0, outliers := 0 }).ev 0x9024 i.val
        else s.updStr i fun x => { x with outliers := x.outliers + 1 }

/-- Sums of the millisecond of R334 and of the planner cycle (R338, R349, R351). -/
def State.sumsTick (s : State) : State :=
  let s := s.strings.foldl (fun s i =>
    let c := (s.shunt i).i
    s.updStr i fun x => { x with sumI := x.sumI + c, nI := x.nI + 1 }) s
  let st := s.storageP
  { s with est := { s.est with accLoad := s.est.accLoad + s.reportSum s.primaries, accStore := s.est.accStore + st
                               accN := s.est.accN + 1, peakNow := max s.est.peakNow (st.natAbs : Int) } }

/-! Key channels (R477). -/

/-- The value a key channel takes in a tick: from an input loss on, sources of KIND other than 0x0 hold their last value
(R479). -/
def State.keyValue (s : State) (src : Nat) : Int :=
  match if src / 4096 = 0 then none else s.evr.keyHold with
  | some l => ((l.find? fun x => x.1 = src).map (·.2)).getD 0
  | none => s.keySource src

/-- One tick of the key channels' sums. -/
def State.keyTick (s : State) : State :=
  if !s.evr.writer || 50 ≤ s.evr.keyTicks then s
  else
    let old := s.evr.keySums
    let rs := s.recs 0x0303
    let v := (List.range 256).map fun k =>
      old.getD k 0 + match rs.find? fun r => r.u16 0x08 = k with
        | some r => s.keyValue (r.u16 0x0A)
        | none => 0
    { s with evr := { s.evr with keySums := v, keyTicks := s.evr.keyTicks + 1 } }

/-! The capture ring (R481, R482). -/

/-- Bytes of a block: its header, its entries, and free bytes beyond COUNT (log entry 30). -/
def CapBlock.bytes (b : CapBlock) (fv : Nat) : List Byte :=
  leBytes 1 b.ch ++ leBytes 1 b.format ++ leBytes 1 b.count ++ leBytes 1 b.flags ++ leBytes 4 b.t0 ++ b.body
    ++ (List.range (120 - b.body.length)).map (Config.freeByte fv)

/-- Blocks the capture ring holds: CAPTURE_BYTES GiB of 128 bytes (R457). -/
def State.capBlocks (s : State) : Nat := s.param 0x0020 178 * 8388608

/-- A block enters the ring. -/
def State.capWrite (s : State) (l : List Byte) : State :=
  if s.evr.capFrozen then s
  else
    { s with evr := { s.evr with capRing := (l :: s.evr.capRing).take s.capBlocks
                                 capWritten := wrapU 64 (s.evr.capWritten + 128) } }

/-- The open block of a channel is written and gone. -/
def State.capClose (s : State) (c : Nat) : State :=
  match s.evr.capOpen.find? fun b => b.ch = c with
  | none => s
  | some b =>
    let s := { s with evr := { s.evr with capOpen := s.evr.capOpen.filter fun b => b.ch != c } }
    (s.used).capWrite (b.bytes s.fv)

/-- Whether a routed channel has lost conversions before the window of the tick (R482): since the last block opened, or because
a window was passed over. -/
def State.capGap (s : State) (c : Nat) : Bool :=
  (s.evr.capSeen.find? fun x => x.1 = c).any fun x => x.2.2 || x.2.1 != s.sys.tick

/-- What a routed channel's window leaves: `lost` conversions in it; `opened` a block, to which what was lost before is told. -/
def State.capNote (s : State) (c : Nat) (opened lost : Bool) : State :=
  let old := (s.evr.capSeen.find? fun x => x.1 = c).any fun x => x.2.2
  { s with evr := { s.evr with capSeen :=
      (c, s.sys.tick + 1, lost || (old && !opened)) :: s.evr.capSeen.filter fun x => x.1 != c } }

/-- One entry of a channel: it continues the open block where that has the same format and source, room, and, for
GRID16, a sample due at this aperture; else that block is written and a new one opens (log entry 30). `at_` is the
instant of the entry, 25 ps after the start of tick 0. -/
def State.capEntry (s : State) (c format flags cap : Nat) (at_ : Int) (e : List Byte) : State :=
  let spare := fun (f : Nat) => tb f 1
  let fits := match s.evr.capOpen.find? fun b => b.ch = c with
    | some b => b.format = format && b.count < cap && spare b.flags == spare flags
        && (format != 0 || b.next = at_) && !s.capGap c
    | none => false
  let s := if fits then s else
    let t := at_ - 80000 * (s.evr.syncTick : Int)
    let gap := s.capGap c || (s.evr.capOpen.any fun b => b.ch = c && b.format = 0 && format = 0 && b.next < at_)
    let s := (s.capClose c).capNote c true false
    { s with evr := { s.evr with capOpen :=
        { ch := c, format := format, t0 := codeS 32 t, flags := bitAt gap 3, body := [], count := 0, next := at_ }
          :: s.evr.capOpen } }
  let s := { s with evr := { s.evr with capOpen := s.evr.capOpen.map fun (b : CapBlock) =>
    if b.ch = c then { b with body := b.body ++ e, count := b.count + 1, flags := b.flags ||| flags
                              next := at_ + 4000 } else b } }
  match s.evr.capOpen.find? fun b => b.ch = c with
  | some b => if cap ≤ b.count then s.capClose c else s
  | none => s

/-- FLAGS of a conversion: BLANKED, SPARE, OVR. -/
def State.convFlags (s : State) (v : Sys2Proof.Conv) : Nat :=
  bitAt (s.blanked v) 0 + bitAt v.spare 1 + bitAt (overRange (chBits v.ch) v.raw) 2

/-- A routed channel's conversions of the window of the tick. -/
def State.capWindow (s : State) (x : Sys2Proof.TickInputs) (c : Nat) : State :=
  let win : Int := 80000 * (s.sys.tick : Int) - 88000
  let w := s.latchedOf x.convs c
  if 160 ≤ c then
    let fl := (w.map fun v => bitAt (overRange 24 v.raw) 2).foldl max 0
    s.capEntry c 2 fl 30 win (leBytes 4 (codeS 32 (s.chan c).value))
  else if isAuxCh c || s.chMode c = 1 then
    let fl := (w.map s.convFlags).foldl (· ||| ·) 0
    let a := w.take 2
    let val := fun (k : Nat) => ((a[k]?).map s.corrected).getD 0
    let ap := fun (k : Nat) => ((a[k]?).map fun v => v.aperture / 2).getD 0xFFFF
    s.capEntry c 1 fl 10 win
      (leBytes 4 (codeS 32 (val 0)) ++ leBytes 4 (codeS 32 (val 1)) ++ leBytes 2 (ap 0) ++ leBytes 2 (ap 1))
  else
    w.foldl (fun s v => s.capEntry c 0 (s.convFlags v) 60 (win + v.aperture)
      (leBytes 2 (codeS 16 (sat16 (rshe (s.corrected v) 16))))) s

/-- A routed channel in a tick: its conversions, and whether it had any (R482). A shunt's window always has its value. -/
def State.capChannel (s : State) (x : Sys2Proof.TickInputs) (c : Nat) : State :=
  (s.capWindow x c).capNote c false (c < 160 && (s.latchedOf x.convs c).isEmpty)

/-- The capture ring in a tick: the routed channels, then the SYNC block every 500 ticks, before which the open
blocks are written. A frozen ring takes nothing (R484). -/
def State.captureTick (s : State) (x : Sys2Proof.TickInputs) : State :=
  let l := if s.evr.capFrozen then [] else (s.recs 0x0302).filter fun r => tb (r.u8 0x0A) 0
  let s := l.foldl (fun s r => s.capChannel x (r.u16 0x08)) s
  if s.cfg.activeValid && s.sys.tick % 500 = 0 then
    let s := (s.evr.capOpen.map CapBlock.ch).foldl State.capClose s
    let f := fun (n : Nat) => (List.range n).map (Config.freeByte s.fv)
    let s := { s with evr := { s.evr with syncTick := s.sys.tick } }
    s.used.capWrite (leBytes 1 0xFF ++ f 7 ++ leBytes 8 s.sys.tick ++ leBytes 8 s.sys.timeNs ++ f 104)
  else s

/-! History (R483). -/

/-- Pages of the flash history region: 1.8 TB of 4 KiB (R458). -/
def histPages : Nat := 439453125

/-- A 4 KiB page: its header with the CRC-32C over the rest of the page, and the means, oldest first; bytes beyond
COUNT are zero (log entry 30). -/
def HistPage.bytes (p : HistPage) (decim : Nat) : List Byte :=
  let head := leBytes 2 p.ch ++ leBytes 1 decim ++ leBytes 1 0 ++ leBytes 8 p.startTick ++ leBytes 8 p.startTime
    ++ leBytes 2 p.means.length ++ List.replicate 38 0
  let body := p.means.reverse.flatMap fun m => leBytes 4 (codeS 32 m)
  let body := body ++ List.replicate (4032 - body.length) 0
  head ++ leBytes 4 (crc32c (head ++ body)) ++ body

/-- One tick of a channel's history: VALID values add to the interval, which ends every 2^DECIM ms. A full page goes into a
tier page, and from there into the flash region (log entry 47). -/
def State.histChannel (s : State) (c decim : Nat) : State :=
  let ch := s.chan c
  let p : HistPage := (s.evr.histOpen.find? fun p => p.ch = c).getD
    { ch := c, means := [], sum := 0, n := 0, startTick := s.sys.tick, startTime := s.sys.timeNs }
  let rest := s.evr.histOpen.filter fun p => p.ch != c
  let p := if ch.valid then { p with sum := p.sum + ch.value, n := p.n + 1 } else p
  if (s.sys.tick + 1) % (500 * 2 ^ decim) = 0 then
    let m := if p.n = 0 then -2147483648 else divHE p.sum p.n
    let p : HistPage := { p with means := m :: p.means, sum := 0, n := 0 }
    if 1008 ≤ p.means.length then
      let s := s.tierPut (Config.historyPage % 65536) (s.evr.histWritten % pageSize) (p.bytes decim)
      { s with evr := { s.evr with histOpen := rest
                                   history := (p.bytes decim :: s.evr.history).take histPages
                                   histWritten := wrapU 64 (s.evr.histWritten + 4096) } }
    else { s with evr := { s.evr with histOpen := p :: rest } }
  else { s with evr := { s.evr with histOpen := p :: rest } }

/-- History in a tick. -/
def State.historyTick (s : State) : State :=
  ((s.recs 0x0302).filter fun r => tb (r.u8 0x0A) 1).foldl (fun s r => s.histChannel (r.u16 0x08) (r.u8 0x0B)) s

/-! What follows from the schedule of edges. -/

/-- SWEEP_OFF_WINDOW (R306) for a change that came since the tick before. -/
def State.offWindowTick (s : State) : State := s.groups.foldl (fun s g => s.offWindowCheck g (80000 * s.sys.tick)) s

/-- SYNC_OUT falls at the midpoint of a G0 frame (R179). -/
def State.syncOutTick (s : State) : State :=
  let g := s.pwm.grp[0]
  match s.param 0x0003 0 with
  | 1 =>
    if s.sys.syncOut && g.period ≤ 2 * (80000 * s.sys.tick - g.frameStart) then
      { s with sys := { s.sys with syncOut := false } }
    else s
  | 2 => { s with sys := { s.sys with
             syncOut := (s.net.timeSrc = .ptp || s.net.timeSrc = .ring) && s.sys.timeNs % 1000000000 < 100000000 } }
  | _ => { s with sys := { s.sys with syncOut := false } }

/-- Placements of a release are over once its movements are, and TLK_STATUS.RELEASING is 1 while a delay runs
(R273). -/
def State.releaseTick (s : State) : State :=
  let t := s.sys.timeNs
  let runs := s.tlk.port.toList.any fun p => match p.relEnd with
    | some e => decide (t < e)
    | none => false
  { s with tlk := { s.tlk with
    placed := s.tlk.placed.filter fun p => p.source != 0x1FF || t < p.t + 1000 * (p.offset + p.dur)
    releasing := s.tlk.releasing && runs } }

/-! DEGRADED (R19). -/

/-- A ring that has failed, broken or lost a node keeps DEGRADED until it is in RING with every node. -/
def State.ringDegTick (s : State) : State :=
  s.rings.foldl (fun s c =>
    let r := s.ring c
    let whole := (s.nodeList c).all fun n => (r.nodeAt n).present
    s.updRing c fun r => { r with
      degraded := if r.state = .ring && whole then false
                  else r.degraded || r.state = .failed || r.state = .twoChain || (r.state.up && !whole) }) s

/-- A configured ring holds one of the conditions of R19. -/
def State.ringDegraded (s : State) (c : Fin 4) : Bool :=
  let r := s.ring c
  r.degraded || r.ctrFaulted || s.anyUnmon c
    || (s.nodeList c).any fun n => (r.nodeAt n).failedPaths.toList.any id

/-- One of the conditions of R19 holds. -/
def State.degradedNow (s : State) : Bool :=
  s.pwm.ph.toList.any Phase.disabled
  || s.afe.chip.toList.any (fun x => x.subst.isSome) || s.afe.ch.toList.any Channel.dead
  || s.afe.shunt.toList.any (fun x => x.aFailed || x.bFailed || x.dead || x.degraded)
  || s.rings.any s.ringDegraded
  || s.prot.str.toList.any StrProt.isolated || s.pwm.psu.toList.any PsuPort.lost
  || s.tlk.port.toList.any (fun p => p.state = .locked)
  || (s.sys.state = .run && s.loop.basaltGroups.toList.any id)

/-- DEGRADED at a tick. -/
def State.degradedTick (s : State) : State :=
  let s := s.ringDegTick
  { s with sys := { s.sys with degraded := s.degradedNow } }

end Sys2Proof.Machine
end

