-- ==== Sys2Proof/Machine/Tick.lean ====
section
/-! DEFINITION. The tick (R140). -/

namespace Sys2Proof.Machine

/-- One step of the slew of shelf time (R9, R367): every 10 us at most 1 ns towards the master, which is 100 us/s. The servo is
not stated: whether the step is taken is a free value (log entry 7). -/
def State.slewTick (s : State) : State :=
  if s.net.slewLeft = 0 || s.sys.tick % 5 != 0 then s
  else
    let d : Int := if Config.freeNat s.fv % 2 = 0 then 0 else if 0 < s.net.slewLeft then 1 else -1
    { s.used with sys := { s.sys with timeNs := wrapU 64 ((s.sys.timeNs : Int) + d).toNat }
                  net := { s.net with slewLeft := s.net.slewLeft - d } }

/-- The counts of a tick: SYS_TICK, and shelf time, which may be slewed (R7, R9). -/
def State.advance (s : State) : State :=
  ({ s with sys := { s.sys with tick := wrapU 64 (s.sys.tick + 1), timeNs := wrapU 64 (s.sys.timeNs + 2000) } }).slewTick

/-- The part of a tick that the hold-up set runs (R34, R477): latch and key channels. -/
def State.holdTick (s : State) (x : Sys2Proof.TickInputs) : State :=
  ((((s.advance).drainStaging).cyclesTick x.sense).afeLatch x.convs).keyTick

/-- The converters' part of a tick after the slots. -/
def State.convTick (s : State) : State :=
  let s := s.groups.foldl State.refGroup s
  let s := s.groups.foldl State.overloadGroup s
  let s := s.groups.foldl State.balance s
  let s := s.groups.foldl State.suspectTick s
  let s := s.plimTick
  let t := s.sys.tick
  { s with pwm := { s.pwm with ph := s.pwm.ph.map fun (p : Phase) =>
      { p with scTicks := p.scTicks.filter fun u => t < u + msTicks } } }.runningCheck

/-- A tick of the control fabric. -/
def State.fullTick (s : State) (x : Sys2Proof.TickInputs) : State :=
  let s := (s.advance).drainStaging
  let s := ((s.swapAt s.sys.tick).cyclesTick x.sense).applyStaged
  let s := (((s.afeLatch x.convs).measure x).fceStart).chainTick
  let s := ((s.busTick).gridTick).cometAgeTick
  let s := if s.sys.state = .run then s.cometTick else s
  let s := (((s.targets).causeTicks).healthTick).limitsTick
  let s := (s.engineTick x.evalCycles).convTick
  let s := (s.strings.foldl State.resistTick s).sumsTick
  let s := (s.fceTick).keyTick
  let s := (s.captureTick x).historyTick
  ((s.offWindowTick).syncOutTick).releaseTick.degradedTick.ptpMasterTick

/-- TICK (R140): the next tick begins. No tick runs without power or with the fabric stopped (R40); while an input
loss is recorded only the hold-up set runs (R34). The block reads sample their word after it (R378), and the subscriptions latch
(R380). -/
def execTick (x : Sys2Proof.TickInputs) (s : State) : Host.Outcome State Fault Refusal :=
  .next (
    if !s.power.powered || s.clk.fabricStopped then s
    else if s.power.inputLoss then s.holdTick x
    else (s.fullTick x).blockTick.telTick)

end Sys2Proof.Machine
end

