-- ==== Sys2Proof/Machine/Dispatch.lean ====
section
/-! DEFINITION. The dispatch of commands to their meanings, one arm for each constructor of Instr. -/

namespace Sys2Proof.Machine

def exec (i : Instr) (s : State) : Host.Outcome State Fault Refusal :=
  match i with
  | .powerOn stby12 => Sys2Proof.Machine.execPowerOn stby12 s
  | .inputLoss => Sys2Proof.Machine.execInputLoss s
  | .inputLossRecordClose => Sys2Proof.Machine.execInputLossRecordClose s
  | .inputReturn => Sys2Proof.Machine.execInputReturn s
  | .mateRelease => Sys2Proof.Machine.execMateRelease s
  | .stby12Lost => Sys2Proof.Machine.execStby12Lost s
  | .stby12Restored => Sys2Proof.Machine.execStby12Restored s
  | .aux54Brownout => Sys2Proof.Machine.execAux54Brownout s
  | .holdupMeasure mJ => Sys2Proof.Machine.execHoldupMeasure mJ s
  | .refInLost => Sys2Proof.Machine.execRefInLost s
  | .refFallback => Sys2Proof.Machine.execRefFallback s
  | .refInRestored => Sys2Proof.Machine.execRefInRestored s
  | .xtalFail => Sys2Proof.Machine.execXtalFail s
  | .xtalOkRestored => Sys2Proof.Machine.execXtalOkRestored s
  | .rootUnlock => Sys2Proof.Machine.execRootUnlock s
  | .rootRelock => Sys2Proof.Machine.execRootRelock s
  | .serviceAttached => Sys2Proof.Machine.execServiceAttached s
  | .jtagInstruction k => Sys2Proof.Machine.execJtagInstruction k s
  | .svcUartQuery => Sys2Proof.Machine.execSvcUartQuery s
  | .svcSpiRead a n => Sys2Proof.Machine.execSvcSpiRead a n s
  | .svcSpiIdent => Sys2Proof.Machine.execSvcSpiIdent s
  | .svcSpiStatus other => Sys2Proof.Machine.execSvcSpiStatus other s
  | .trayPortsUp => Sys2Proof.Machine.execTrayPortsUp s
  | .notReadyGrant n => Sys2Proof.Machine.execNotReadyGrant n s
  | .fwVerified keys => Sys2Proof.Machine.execFwVerified keys s
  | .netReady => Sys2Proof.Machine.execNetReady s
  | .bootConfigLoad => Sys2Proof.Machine.execBootConfigLoad s
  | .watchdog => Sys2Proof.Machine.execWatchdog s
  | .tick x => Sys2Proof.Machine.execTick x s
  | .integReleased k => Sys2Proof.Machine.execIntegReleased k s
  | .testStart sess k => Sys2Proof.Machine.execTestStart sess k s
  | .testStarted k => Sys2Proof.Machine.execTestStarted k s
  | .testDone k => Sys2Proof.Machine.execTestDone k s
  | .testStop sess k => Sys2Proof.Machine.execTestStop sess k s
  | .bankPrimary sess k => Sys2Proof.Machine.execBankPrimary sess k s
  | .unfreeze sess k => Sys2Proof.Machine.execUnfreeze sess k s
  | .snapshotTaken k => Sys2Proof.Machine.execSnapshotTaken k s
  | .snapRelease sess k => Sys2Proof.Machine.execSnapRelease sess k s
  | .bootCalDone cal => Sys2Proof.Machine.execBootCalDone cal s
  | .selfCheck a ok => Sys2Proof.Machine.execSelfCheck a ok s
  | .overlapIn a m => Sys2Proof.Machine.execOverlapIn a m s
  | .calibrating a r => Sys2Proof.Machine.execCalibrating a r s
  | .overlapOut a m => Sys2Proof.Machine.execOverlapOut a m s
  | .settle a => Sys2Proof.Machine.execSettle a s
  | .channelFailed c cause => Sys2Proof.Machine.execChannelFailed c cause s
  | .spareSubstituted a => Sys2Proof.Machine.execSpareSubstituted a s
  | .spareFailed a => Sys2Proof.Machine.execSpareFailed a s
  | .rotEn sess v => Sys2Proof.Machine.execRotEn sess v s
  | .failmapClr sess => Sys2Proof.Machine.execFailmapClr sess s
  | .shuntModCalibrate k ofs gain => Sys2Proof.Machine.execShuntModCalibrate k ofs gain s
  | .shuntModCompare k qActive qIdle okA okB => Sys2Proof.Machine.execShuntModCompare k qActive qIdle okA okB s
  | .senseOpen p mv periods => Sys2Proof.Machine.execSenseOpen p mv periods s
  | .senseRestored p mv periods => Sys2Proof.Machine.execSenseRestored p mv periods s
  | .groupRunning g => Sys2Proof.Machine.execGroupRunning g s
  | .groupStopped g => Sys2Proof.Machine.execGroupStopped g s
  | .shortCircuit p code at_ => Sys2Proof.Machine.execShortCircuit p code at_ s
  | .driverFault p low at_ => Sys2Proof.Machine.execDriverFault p low at_ s
  | .phaseOpen p => Sys2Proof.Machine.execPhaseOpen p s
  | .senseSuspect p => Sys2Proof.Machine.execSenseSuspect p s
  | .phaseDisabled p => Sys2Proof.Machine.execPhaseDisabled p s
  | .disableDroopCheck g => Sys2Proof.Machine.execDisableDroopCheck g s
  | .reinterleaved g => Sys2Proof.Machine.execReinterleaved g s
  | .disable sess p => Sys2Proof.Machine.execDisable sess p s
  | .readmit sess p => Sys2Proof.Machine.execReadmit sess p s
  | .deEntered g => Sys2Proof.Machine.execDeEntered g s
  | .deLeft g => Sys2Proof.Machine.execDeLeft g s
  | .uvFastpath g at_ => Sys2Proof.Machine.execUvFastpath g at_ s
  | .throttleRequested g => Sys2Proof.Machine.execThrottleRequested g s
  | .uvFastpathEnd g v => Sys2Proof.Machine.execUvFastpathEnd g v s
  | .syncSlewing g period => Sys2Proof.Machine.execSyncSlewing g period s
  | .syncLocked g edge => Sys2Proof.Machine.execSyncLocked g edge s
  | .syncHoldover g => Sys2Proof.Machine.execSyncHoldover g s
  | .syncReturning g => Sys2Proof.Machine.execSyncReturning g s
  | .syncFreeRun g => Sys2Proof.Machine.execSyncFreeRun g s
  | .pwmBusSet sess v => Sys2Proof.Machine.execPwmBusSet sess v s
  | .psuCommandFrame => Sys2Proof.Machine.execPsuCommandFrame s
  | .psuTelemetry p f => Sys2Proof.Machine.execPsuTelemetry p f s
  | .psuRestored p => Sys2Proof.Machine.execPsuRestored p s
  | .restore sess p => Sys2Proof.Machine.execRestore sess p s
  | .forecastEvalDone k tIn ns => Sys2Proof.Machine.execForecastEvalDone k tIn ns s
  | .frameAssembly long tIn => Sys2Proof.Machine.execFrameAssembly long tIn s
  | .frameDeadline long tIn => Sys2Proof.Machine.execFrameDeadline long tIn s
  | .longStale => Sys2Proof.Machine.execLongStale s
  | .headUpdate => Sys2Proof.Machine.execHeadUpdate s
  | .adaptResumed k => Sys2Proof.Machine.execAdaptResumed k s
  | .forecastEn sess v => Sys2Proof.Machine.execForecastEn sess v s
  | .adaptEn sess v => Sys2Proof.Machine.execAdaptEn sess v s
  | .revertAll sess => Sys2Proof.Machine.execRevertAll sess s
  | .adaptDis sess k v => Sys2Proof.Machine.execAdaptDis sess k v s
  | .revert sess k => Sys2Proof.Machine.execRevert sess k s
  | .linkUp n => Sys2Proof.Machine.execLinkUp n s
  | .linkDown n => Sys2Proof.Machine.execLinkDown n s
  | .linkGlitch n => Sys2Proof.Machine.execLinkGlitch n s
  | .surpriseRemoval n => Sys2Proof.Machine.execSurpriseRemoval n s
  | .ident n f => Sys2Proof.Machine.execIdent n f s
  | .report n f missing => Sys2Proof.Machine.execReport n f missing s
  | .reportStale n => Sys2Proof.Machine.execReportStale n s
  | .ack n gseq result => Sys2Proof.Machine.execAck n gseq result s
  | .grantResend n => Sys2Proof.Machine.execGrantResend n s
  | .grantTimeout n => Sys2Proof.Machine.execGrantTimeout n s
  | .grantRefresh n => Sys2Proof.Machine.execGrantRefresh n s
  | .time => Sys2Proof.Machine.execTime s
  | .trayAnnounce n a => Sys2Proof.Machine.execTrayAnnounce n a s
  | .barrierComplete n => Sys2Proof.Machine.execBarrierComplete n s
  | .roleTagApplied id source => Sys2Proof.Machine.execRoleTagApplied id source s
  | .takeoverReq n env => Sys2Proof.Machine.execTakeoverReq n env s
  | .drainReq n => Sys2Proof.Machine.execDrainReq n s
  | .drain sess n => Sys2Proof.Machine.execDrain sess n s
  | .drained n => Sys2Proof.Machine.execDrained n s
  | .throttleCauseClear c => Sys2Proof.Machine.execThrottleCauseClear c s
  | .throttleAll sess => Sys2Proof.Machine.execThrottleAll sess s
  | .releaseAll sess => Sys2Proof.Machine.execReleaseAll sess s
  | .throttle sess n => Sys2Proof.Machine.execThrottle sess n s
  | .release sess n => Sys2Proof.Machine.execRelease sess n s
  | .rackHoldSeen => Sys2Proof.Machine.execRackHoldSeen s
  | .rackHoldCleared => Sys2Proof.Machine.execRackHoldCleared s
  | .shareStale => Sys2Proof.Machine.execShareStale s
  | .ringBringUp c => Sys2Proof.Machine.execRingBringUp c s
  | .resetAddr c => Sys2Proof.Machine.execResetAddr c s
  | .enum c fromB count passed => Sys2Proof.Machine.execEnum c fromB count passed s
  | .revcheck c replies => Sys2Proof.Machine.execRevcheck c replies s
  | .echo c n fromB trips replies => Sys2Proof.Machine.execEcho c n fromB trips replies s
  | .enumerated c => Sys2Proof.Machine.execEnumerated c s
  | .ringRetry c => Sys2Proof.Machine.execRingRetry c s
  | .reenum sess c => Sys2Proof.Machine.execReenum sess c s
  | .config c n replies => Sys2Proof.Machine.execConfig c n replies s
  | .sample c k tempNs => Sys2Proof.Machine.execSample c k tempNs s
  | .sweepComplete c blocks readNs => Sys2Proof.Machine.execSweepComplete c blocks readNs s
  | .cellsUnmonitored c k => Sys2Proof.Machine.execCellsUnmonitored c k s
  | .stringIsolated k => Sys2Proof.Machine.execStringIsolated k s
  | .unmonLimited k => Sys2Proof.Machine.execUnmonLimited k s
  | .ringBroken c lastA firstB inSweep displaced lost => Sys2Proof.Machine.execRingBroken c lastA firstB inSweep displaced lost s
  | .readHeld c fromB mask blocks => Sys2Proof.Machine.execReadHeld c fromB mask blocks s
  | .readTemp c blocks => Sys2Proof.Machine.execReadTemp c blocks s
  | .ringRepaired c => Sys2Proof.Machine.execRingRepaired c s
  | .probe c n fromB passed replies lastA firstB => Sys2Proof.Machine.execProbe c n fromB passed replies lastA firstB s
  | .diag c n replies => Sys2Proof.Machine.execDiag c n replies s
  | .diagNow sess c => Sys2Proof.Machine.execDiagNow sess c s
  | .bal c n => Sys2Proof.Machine.execBal c n s
  | .slot c => Sys2Proof.Machine.execSlot c s
  | .blank c => Sys2Proof.Machine.execBlank c s
  | .contactor c close => Sys2Proof.Machine.execContactor c close s
  | .contactorClosed c => Sys2Proof.Machine.execContactorClosed c s
  | .contactorFault c => Sys2Proof.Machine.execContactorFault c s
  | .ctrOpen sess c => Sys2Proof.Machine.execCtrOpen sess c s
  | .ctrClose sess c => Sys2Proof.Machine.execCtrClose sess c s
  | .wakeTone c onA onB lost => Sys2Proof.Machine.execWakeTone c onA onB lost s
  | .ship c replies => Sys2Proof.Machine.execShip c replies s
  | .shipIncomplete c n => Sys2Proof.Machine.execShipIncomplete c n s
  | .estUpdate => Sys2Proof.Machine.execEstUpdate s
  | .estConflict k => Sys2Proof.Machine.execEstConflict k s
  | .estConflictCleared k => Sys2Proof.Machine.execEstConflictCleared k s
  | .plannerCycle defers => Sys2Proof.Machine.execPlannerCycle defers s
  | .eclipseRetry => Sys2Proof.Machine.execEclipseRetry s
  | .relaxing k => Sys2Proof.Machine.execRelaxing k s
  | .reading k => Sys2Proof.Machine.execReading k s
  | .eclipseReading k => Sys2Proof.Machine.execEclipseReading k s
  | .restComplete k => Sys2Proof.Machine.execRestComplete k s
  | .eclipseAborted => Sys2Proof.Machine.execEclipseAborted s
  | .abortRest sess => Sys2Proof.Machine.execAbortRest sess s
  | .eclipseEn sess v => Sys2Proof.Machine.execEclipseEn sess v s
  | .forceRest sess mask => Sys2Proof.Machine.execForceRest sess mask s
  | .ethLinkUp => Sys2Proof.Machine.execEthLinkUp s
  | .ethLinkDown => Sys2Proof.Machine.execEthLinkDown s
  | .macsecUp sci => Sys2Proof.Machine.execMacsecUp sci s
  | .macsecDown => Sys2Proof.Machine.execMacsecDown s
  | .hello d => Sys2Proof.Machine.execHello d s
  | .finish d => Sys2Proof.Machine.execFinish d s
  | .handshakeTimeout n => Sys2Proof.Machine.execHandshakeTimeout n s
  | .secured d => Sys2Proof.Machine.execSecured d s
  | .sessionIdleTimeout n => Sys2Proof.Machine.execSessionIdleTimeout n s
  | .keepalive h => Sys2Proof.Machine.execKeepalive h s
  | .close h => Sys2Proof.Machine.execClose h s
  | .sessClose sess n => Sys2Proof.Machine.execSessClose sess n s
  | .regRead h addrs => Sys2Proof.Machine.execRegRead h addrs s
  | .regWrite h pairs => Sys2Proof.Machine.execRegWrite h pairs s
  | .regReadBlock h addr words => Sys2Proof.Machine.execRegReadBlock h addr words s
  | .announce h l => Sys2Proof.Machine.execAnnounce h l s
  | .announceCancel h ids => Sys2Proof.Machine.execAnnounceCancel h ids s
  | .subscribe h id kind period addrs mask => Sys2Proof.Machine.execSubscribe h id kind period addrs mask s
  | .unsubscribe h id => Sys2Proof.Machine.execUnsubscribe h id s
  | .telemetry n id free => Sys2Proof.Machine.execTelemetry n id free s
  | .events n id => Sys2Proof.Machine.execEvents n id s
  | .fetch h region index off len => Sys2Proof.Machine.execFetch h region index off len s
  | .fetchData n reqId => Sys2Proof.Machine.execFetchData n reqId s
  | .pushBegin h total => Sys2Proof.Machine.execPushBegin h total s
  | .pushData h off data => Sys2Proof.Machine.execPushData h off data s
  | .pushEnd h => Sys2Proof.Machine.execPushEnd h s
  | .pushTimeout => Sys2Proof.Machine.execPushTimeout s
  | .shadowReady => Sys2Proof.Machine.execShadowReady s
  | .fwStaged => Sys2Proof.Machine.execFwStaged s
  | .shadowEcc => Sys2Proof.Machine.execShadowEcc s
  | .discard sess => Sys2Proof.Machine.execDiscard sess s
  | .cfgSwapTick sess hi v => Sys2Proof.Machine.execCfgSwapTick sess hi v s
  | .swap sess => Sys2Proof.Machine.execSwap sess s
  | .swapped => Sys2Proof.Machine.execSwapped s
  | .stored => Sys2Proof.Machine.execStored s
  | .configEccCorrected => Sys2Proof.Machine.execConfigEccCorrected s
  | .configCrcSweep ok => Sys2Proof.Machine.execConfigCrcSweep ok s
  | .attest h nonce => Sys2Proof.Machine.execAttest h nonce s
  | .rowBudget h version budget => Sys2Proof.Machine.execRowBudget h version budget s
  | .macsecKey h ckn cak => Sys2Proof.Machine.execMacsecKey h ckn cak s
  | .orphanEntered => Sys2Proof.Machine.execOrphanEntered s
  | .ptpSync f via domain time ofs cls => Sys2Proof.Machine.execPtpSync f via domain time ofs cls s
  | .ptpLost => Sys2Proof.Machine.execPtpLost s
  | .ppsIn t => Sys2Proof.Machine.execPpsIn t s
  | .ringJoined => Sys2Proof.Machine.execRingJoined s
  | .ringCycle => Sys2Proof.Machine.execRingCycle s
  | .ringTime f => Sys2Proof.Machine.execRingTime f s
  | .pdelayReq req => Sys2Proof.Machine.execPdelayReq req s
  | .pdelayResp f t4 => Sys2Proof.Machine.execPdelayResp f t4 s
  | .ringStatus f => Sys2Proof.Machine.execRingStatus f s
  | .share f => Sys2Proof.Machine.execShare f s
  | .rowBudgetFrame f => Sys2Proof.Machine.execRowBudgetFrame f s
  | .rowBudgetResend => Sys2Proof.Machine.execRowBudgetResend s
  | .failover f => Sys2Proof.Machine.execFailover f s
  | .peerSilent shelf => Sys2Proof.Machine.execPeerSilent shelf s
  | .wrap f => Sys2Proof.Machine.execWrap f s
  | .ringWrapped west => Sys2Proof.Machine.execRingWrapped west s
  | .ringUnwrapped west => Sys2Proof.Machine.execRingUnwrapped west s
  | .busOvTrip v => Sys2Proof.Machine.execBusOvTrip v s
  | .busOvRecovery => Sys2Proof.Machine.execBusOvRecovery s
  | .busUvTrip v => Sys2Proof.Machine.execBusUvTrip v s
  | .busUvCleared => Sys2Proof.Machine.execBusUvCleared s
  | .busFault v => Sys2Proof.Machine.execBusFault v s
  | .dieWarn t => Sys2Proof.Machine.execDieWarn t s
  | .dieWarnCleared t => Sys2Proof.Machine.execDieWarnCleared t s
  | .dieTrip t => Sys2Proof.Machine.execDieTrip t s
  | .missedTicks missed => Sys2Proof.Machine.execMissedTicks missed s
  | .basaltUpdate m => Sys2Proof.Machine.execBasaltUpdate m s
  | .entryHoldRelease => Sys2Proof.Machine.execEntryHoldRelease s
  | .basaltRootlessStop => Sys2Proof.Machine.execBasaltRootlessStop s
  | .missedTicksCleared => Sys2Proof.Machine.execMissedTicksCleared s
  | .configReloaded => Sys2Proof.Machine.execConfigReloaded s
  | .dieTripCleared t => Sys2Proof.Machine.execDieTripCleared t s
  | .basaltAutoExit => Sys2Proof.Machine.execBasaltAutoExit s
  | .basaltEnter sess => Sys2Proof.Machine.execBasaltEnter sess s
  | .basaltExit sess => Sys2Proof.Machine.execBasaltExit sess s
  | .groupReturn sess mask => Sys2Proof.Machine.execGroupReturn sess mask s
  | .coolantFlowLow => Sys2Proof.Machine.execCoolantFlowLow s
  | .cduAlarm sess => Sys2Proof.Machine.execCduAlarm sess s
  | .thermalRampStep => Sys2Proof.Machine.execThermalRampStep s
  | .cduClear sess => Sys2Proof.Machine.execCduClear sess s
  | .coolantRestored => Sys2Proof.Machine.execCoolantRestored s
  | .coolantGroupStop => Sys2Proof.Machine.execCoolantGroupStop s
  | .coolantCritRecovery => Sys2Proof.Machine.execCoolantCritRecovery s
  | .tripClear sess => Sys2Proof.Machine.execTripClear sess s
  | .sysStateReq sess target => Sys2Proof.Machine.execSysStateReq sess target s
  | .armedPassage => Sys2Proof.Machine.execArmedPassage s
  | .warmReset sess => Sys2Proof.Machine.execWarmReset sess s
  | .fullReset sess => Sys2Proof.Machine.execFullReset sess s
  | .shipReady => Sys2Proof.Machine.execShipReady s
  | .secLcCtrl sess => Sys2Proof.Machine.execSecLcCtrl sess s
  | .fwDiscard sess => Sys2Proof.Machine.execFwDiscard sess s
  | .dmaStart n d shadow moved => Sys2Proof.Machine.execDmaStart n d shadow moved s
  | .dmaDone n => Sys2Proof.Machine.execDmaDone n s
  | .dmaBusError n bursts => Sys2Proof.Machine.execDmaBusError n bursts s
  | .dmaAbort n bursts => Sys2Proof.Machine.execDmaAbort n bursts s
  | .tierFault unit bursts beats page => Sys2Proof.Machine.execTierFault unit bursts beats page s
  | .tierMigrationDone page ns ok => Sys2Proof.Machine.execTierMigrationDone page ns ok s
  | .eccCorrected region => Sys2Proof.Machine.execEccCorrected region s
  | .eccUncorrectable p => Sys2Proof.Machine.execEccUncorrectable p s
  | .fifoQDataRead q => Sys2Proof.Machine.execFifoQDataRead q s
  | .recordsLost => Sys2Proof.Machine.execRecordsLost s
  | .firstClear sess => Sys2Proof.Machine.execFirstClear sess s
  | .evrUser sess code inst => Sys2Proof.Machine.execEvrUser sess code inst s
  | .obsidianFrame => Sys2Proof.Machine.execObsidianFrame s
  | .triggerNow sess => Sys2Proof.Machine.execTriggerNow sess s
  | .obsRecordClosed => Sys2Proof.Machine.execObsRecordClosed s
  | .obsClear sess => Sys2Proof.Machine.execObsClear sess s
  | .captureFrozen => Sys2Proof.Machine.execCaptureFrozen s
  | .resume sess => Sys2Proof.Machine.execResume sess s
  | .pwmFrameStart g edge => Sys2Proof.Machine.execPwmFrameStart g edge s
  | .weightCopyDone k tIn entry => Sys2Proof.Machine.execWeightCopyDone k tIn entry s
  | .icmpEchoRequest v6 f ident => Sys2Proof.Machine.execIcmpEchoRequest v6 f ident s
  | .ndpArpRequest arp f target => Sys2Proof.Machine.execNdpArpRequest arp f target s
  | .unservedDatagram f => Sys2Proof.Machine.execUnservedDatagram f s
  | .trayFrameDropped n => Sys2Proof.Machine.execTrayFrameDropped n s

end Sys2Proof.Machine
end

