-- ==== Sys2Proof/Safety.lean ====
section
/-! DEFINITION. The invariant of a run, and the terms the statements use: the blocks a command leaves alone, the events it
records, and a command that gives a next state. -/

namespace Sys2Proof.Machine

/-- The memories are in canonical form: addresses strictly rising, and no zero byte listed. -/
def Mem.ok (m : Mem) : Bool := m.sram.wf && m.hbm.wf && m.tier.wf && m.backing.wf && m.mram.wf

/-- The invariant of a run. -/
def State.Inv (s : State) : Prop := s.mem.ok = true

/-- The parts of the state. -/
inductive Blk where
  | power | clk | sys | sec | cfg | afe | loop | pwm | fce | tlk | chn | est | net | prot | mem | evr | tx | fv | pending
  deriving DecidableEq, Repr

/-- A part is the same in two states. -/
def Blk.same (b : Blk) (s t : State) : Prop :=
  match b with
  | .power => t.power = s.power
  | .clk => t.clk = s.clk
  | .sys => t.sys = s.sys
  | .sec => t.sec = s.sec
  | .cfg => t.cfg = s.cfg
  | .afe => t.afe = s.afe
  | .loop => t.loop = s.loop
  | .pwm => t.pwm = s.pwm
  | .fce => t.fce = s.fce
  | .tlk => t.tlk = s.tlk
  | .chn => t.chn = s.chn
  | .est => t.est = s.est
  | .net => t.net = s.net
  | .prot => t.prot = s.prot
  | .mem => t.mem = s.mem
  | .evr => t.evr = s.evr
  | .tx => t.tx = s.tx
  | .fv => t.fv = s.fv
  | .pending => t.pending = s.pending

/-- Every part is the same but those listed. -/
def State.only (l : List Blk) (s t : State) : Prop := ∀ b, b ∉ l → b.same s t

/-- The EVR block after events occur one after the other: code, instance and data of each (R473). -/
def State.evs (s : State) (l : List (Nat × Nat × Nat)) : Evr :=
  (l.foldl (fun s e => s.ev e.1 e.2.1 e.2.2) s).evr

/-- The parts of the state a command may touch; every command leaves the others alone. -/
def touched (i : Instr) : List Blk :=
  match i with
  | .settle _ | .shuntModCalibrate _ _ _ => [.afe]
  | .ringRetry _ => [.chn]
  | .relaxing _ | .reading _ | .restComplete _ => [.est]
  | .eccCorrected _ | .recordsLost | .obsidianFrame | .obsRecordClosed | .captureFrozen => [.evr]
  | .weightCopyDone _ _ _ => [.fce]
  | .handshakeTimeout _ | .unservedDatagram _ => [.net]
  | .inputReturn => [.power]
  | .coolantCritRecovery => [.prot]
  | .syncReturning _ => [.pwm]
  | .shareStale | .trayFrameDropped _ => [.tlk]
  | .svcSpiIdent => [.tx]
  | .spareSubstituted _ | .senseRestored _ _ _ => [.afe, .evr]
  | .pushTimeout | .shadowReady | .shadowEcc | .configEccCorrected => [.cfg, .evr]
  | .ringRepaired _ | .shipIncomplete _ _ => [.chn, .evr]
  | .ringBringUp _ | .resetAddr _ | .enum _ _ _ _ | .blank _ => [.chn, .tx]
  | .refInLost | .refFallback | .refInRestored | .xtalFail | .xtalOkRestored => [.clk, .evr]
  | .ppsIn _ => [.clk, .net]
  | .syncSlewing _ _ => [.clk, .pwm]
  | .estUpdate | .estConflict _ | .estConflictCleared _ | .eclipseRetry | .eclipseReading _ | .eclipseAborted =>
    [.est, .evr]
  | .frameAssembly _ _ | .frameDeadline _ _ | .longStale | .adaptResumed _ => [.fce, .evr]
  | .integReleased _ | .testStarted _ | .testDone _ | .snapshotTaken _ => [.loop, .evr]
  | .ethLinkUp | .ethLinkDown | .macsecUp _ | .macsecDown | .ringJoined | .fifoQDataRead _ => [.net, .evr]
  | .rowBudgetResend | .icmpEchoRequest _ _ _ | .ndpArpRequest _ _ _ => [.net, .tx]
  | .stby12Lost | .stby12Restored | .aux54Brownout | .holdupMeasure _ | .serviceAttached => [.power, .evr]
  | .basaltRootlessStop | .missedTicksCleared | .dieTripCleared _ | .coolantFlowLow | .coolantRestored =>
    [.prot, .evr]
  | .reinterleaved _ | .deEntered _ | .deLeft _ | .uvFastpath _ _ | .syncLocked _ _ | .syncFreeRun _
  | .psuRestored _ => [.pwm, .evr]
  | .fwVerified _ | .shipReady => [.sec, .evr]
  | .netReady => [.sec, .net]
  | .rotEn _ _ => [.sys, .afe]
  | .cfgSwapTick _ _ _ | .swap _ => [.sys, .cfg]
  | .reenum _ _ | .diagNow _ _ => [.sys, .chn]
  | .eclipseEn _ _ | .forceRest _ _ => [.sys, .est]
  | .rackHoldCleared | .firstClear _ | .evrUser _ _ _ | .obsClear _ | .resume _ => [.sys, .evr]
  | .adaptEn _ _ | .adaptDis _ _ _ => [.sys, .fce]
  | .testStart _ _ | .bankPrimary _ _ => [.sys, .loop]
  | .busOvRecovery | .cduClear _ | .tripClear _ => [.sys, .prot]
  | .fwDiscard _ => [.sys, .sec]
  | .linkGlitch _ | .reportStale _ | .ack _ _ _ | .grantTimeout _ => [.tlk, .evr]
  | .trayPortsUp => [.tlk, .net]
  | .notReadyGrant _ | .grantResend _ | .grantRefresh _ | .time | .roleTagApplied _ _ | .drainReq _ => [.tlk, .tx]
  | .svcUartQuery | .svcSpiRead _ _ | .svcSpiStatus _ => [.tx, .fv]
  | .dmaStart _ _ _ _ | .dmaDone _ | .dmaBusError _ _ | .dmaAbort _ _ => [.cfg, .mem, .evr]
  | .echo _ _ _ _ _ | .config _ _ _ | .sample _ _ _ | .readHeld _ _ _ _ | .readTemp _ _ | .bal _ _ | .slot _
  | .contactor _ _ | .wakeTone _ _ _ _ | .ship _ _ => [.chn, .evr, .tx]
  | .ptpLost => [.clk, .net, .evr]
  | .syncHoldover _ => [.clk, .pwm, .evr]
  | .forecastEvalDone _ _ _ | .headUpdate => [.fce, .evr, .fv]
  | .tierFault _ _ _ _ => [.fce, .mem, .evr]
  | .dieWarn _ | .dieWarnCleared _ => [.fce, .prot, .evr]
  | .ringWrapped _ | .ringUnwrapped _ => [.net, .evr, .tx]
  | .pdelayReq _ | .pdelayResp _ _ => [.net, .tx, .fv]
  | .unmonLimited _ => [.prot, .evr, .fv]
  | .failmapClr _ | .shuntModCompare _ _ _ _ _ => [.sys, .afe, .evr]
  | .discard _ => [.sys, .cfg, .evr]
  | .abortRest _ => [.sys, .est, .evr]
  | .triggerNow _ => [.sys, .evr, .fv]
  | .forecastEn _ _ => [.sys, .fce, .evr]
  | .testStop _ _ | .unfreeze _ _ | .snapRelease _ _ => [.sys, .loop, .evr]
  | .cduAlarm _ => [.sys, .prot, .evr]
  | .pwmBusSet _ _ | .psuTelemetry _ _ | .restore _ _ => [.sys, .pwm, .evr]
  | .basaltUpdate _ => [.sys, .pwm, .prot]
  | .drain _ _ => [.sys, .tlk, .tx]
  | .linkUp _ | .linkDown _ | .ident _ _ | .trayAnnounce _ _ | .barrierComplete _ | .takeoverReq _ _
  | .drained _ => [.tlk, .evr, .tx]
  | .tierMigrationDone _ _ _ => [.cfg, .fce, .mem, .evr]
  | .rootRelock => [.clk, .chn, .prot, .tx]
  | .report _ _ _ => [.loop, .tlk, .evr, .tx]
  | .hello _ | .ringTime _ | .ringStatus _ | .rowBudgetFrame _ | .wrap _ => [.net, .evr, .tx, .fv]
  | .groupRunning _ | .disableDroopCheck _ | .throttleRequested _ | .uvFastpathEnd _ _
  | .throttleCauseClear _ => [.pwm, .tlk, .evr, .tx]
  | .stored => [.sec, .cfg, .tlk, .evr]
  | .sessionIdleTimeout _ | .sessClose _ _ => [.sys, .cfg, .net, .evr]
  | .enumerated _ | .diag _ _ _ => [.sys, .chn, .evr, .tx]
  | .revertAll _ | .revert _ _ => [.sys, .fce, .evr, .fv]
  | .groupReturn _ _ => [.sys, .loop, .pwm, .evr]
  | .driverFault _ _ _ | .phaseOpen _ | .senseSuspect _ | .disable _ _ => [.sys, .pwm, .chn, .evr]
  | .psuCommandFrame => [.sys, .pwm, .evr, .tx]
  | .secLcCtrl _ => [.sys, .sec, .net, .evr]
  | .throttleAll _ | .releaseAll _ | .throttle _ _ | .release _ _ | .rackHoldSeen | .orphanEntered =>
    [.sys, .tlk, .evr, .tx]
  | .thermalRampStep => [.tlk, .prot, .evr, .tx]
  | .selfCheck _ _ | .spareFailed _ | .senseOpen _ _ _ => [.sys, .afe, .pwm, .chn, .evr]
  | .finish _ | .keepalive _ | .close _ | .regRead _ _ | .regReadBlock _ _ _ | .subscribe _ _ _ _ _ _
  | .unsubscribe _ _ | .telemetry _ _ _ | .events _ _ | .fetch _ _ _ _ _ | .rowBudget _ _ _
  | .macsecKey _ _ _ => [.sys, .cfg, .net, .evr, .tx]
  | .ctrClose _ _ => [.sys, .chn, .prot, .evr, .tx]
  | .surpriseRemoval _ => [.sys, .fce, .tlk, .evr, .tx]
  | .readmit _ _ => [.sys, .loop, .pwm, .prot, .evr]
  | .pwmFrameStart _ _ => [.sys, .pwm, .chn, .evr, .fv]
  | .shortCircuit _ _ _ => [.sys, .pwm, .chn, .prot, .evr]
  | .peerSilent _ => [.sys, .tlk, .net, .evr, .tx]
  | .busUvTrip _ | .busUvCleared | .entryHoldRelease => [.sys, .tlk, .prot, .evr, .tx]
  | .ptpSync _ _ _ _ _ _ => [.clk, .sys, .tlk, .net, .evr, .tx]
  | .bootCalDone _ | .overlapIn _ _ | .calibrating _ _ | .overlapOut _ _ | .channelFailed _ _ =>
    [.sys, .cfg, .afe, .pwm, .chn, .evr]
  | .fetchData _ _ => [.sys, .cfg, .net, .evr, .tx, .fv]
  | .pushBegin _ _ | .pushData _ _ _ => [.sys, .cfg, .net, .mem, .evr, .tx]
  | .announce _ _ | .announceCancel _ _ => [.sys, .cfg, .tlk, .net, .evr, .tx]
  | .pushEnd _ => [.sys, .sec, .cfg, .net, .evr, .tx]
  | .plannerCycle _ => [.cfg, .tlk, .est, .net, .prot, .evr, .tx]
  | .secured _ => [.sys, .cfg, .tlk, .net, .evr, .tx, .fv]
  | .attest _ _ => [.sys, .sec, .cfg, .net, .evr, .tx, .fv]
  | .revcheck _ _ | .sweepComplete _ _ _ | .cellsUnmonitored _ _ | .probe _ _ _ _ _ _ _ | .contactorFault _ =>
    [.sys, .afe, .pwm, .fce, .tlk, .chn, .net, .evr, .tx]
  | .ringCycle => [.sys, .loop, .pwm, .fce, .tlk, .est, .net, .evr, .tx]
  | .rootUnlock => [.clk, .sys, .afe, .pwm, .fce, .tlk, .chn, .net, .evr, .tx]
  | .ringBroken _ _ _ _ _ _ => [.sys, .cfg, .afe, .pwm, .fce, .tlk, .chn, .net, .evr, .tx]
  | .share _ | .failover _ => [.sys, .loop, .pwm, .fce, .tlk, .est, .net, .evr, .tx, .fv]
  | .inputLoss => [.power, .sys, .sec, .pwm, .fce, .tlk, .chn, .net, .mem, .evr, .tx]
  | .stringIsolated _ => [.sys, .afe, .pwm, .fce, .tlk, .chn, .net, .prot, .evr, .tx, .fv]
  | .contactorClosed _ | .ctrOpen _ _ | .armedPassage =>
    [.sys, .afe, .loop, .pwm, .fce, .tlk, .chn, .est, .net, .prot, .evr, .tx]
  | .bootConfigLoad | .swapped | .configReloaded =>
    [.clk, .sys, .sec, .cfg, .afe, .loop, .pwm, .fce, .tlk, .chn, .est, .net, .prot, .evr, .tx, .fv]
  | .inputLossRecordClose | .fwStaged =>
    [.power, .clk, .sys, .sec, .cfg, .afe, .loop, .pwm, .fce, .tlk, .chn, .est, .net, .prot, .mem, .evr]
  | .powerOn _ =>
    [.power, .clk, .sys, .sec, .cfg, .afe, .loop, .pwm, .fce, .tlk, .chn, .est, .net, .prot, .mem, .evr, .fv]
  | .mateRelease | .watchdog | .groupStopped _ | .phaseDisabled _ | .busOvTrip _ | .busFault _
  | .basaltAutoExit | .basaltExit _ | .coolantGroupStop | .sysStateReq _ _ | .warmReset _ | .fullReset _ =>
    [.power, .clk, .sys, .sec, .cfg, .afe, .loop, .pwm, .fce, .tlk, .chn, .est, .net, .prot, .mem, .evr, .tx]
  | .jtagInstruction _ | .tick _ | .regWrite _ _ | .configCrcSweep _ | .dieTrip _ | .missedTicks _
  | .basaltEnter _ | .eccUncorrectable _ =>
    [.power, .clk, .sys, .sec, .cfg, .afe, .loop, .pwm, .fce, .tlk, .chn, .est, .net, .prot, .mem, .evr, .tx, .fv]

/-- A session is open, no recovery bars its register writes, and its role may write a class of registers in the state in force
(R437, R498). -/
def State.allows (s : State) (sess : Fin 64) (c : AccClass) : Bool :=
  s.net.sess[sess.val].isOpen && !s.sec.recovery && s.mayWrite sess c

/-- The message of a header, with a body of the right length, stands at the front of its queue, the queue has its turn, and the
message is carried out: its session is open, holds the role and can still answer, its VALID_UNTIL has not passed, and no
recovery bars it (R371, R375, R377, R384, R437). -/
def State.serves (s : State) (h : Sys2Proof.MsgHdr) (q : Fin 16) (ty : Nat) (role : Role) (body : List Byte) : Bool :=
  s.qTurn q && ((s.net.q[q.val].serve h ty body).any fun x => bodyFits ty x.1.body) && (s.sess h.sess).isOpen
  && (s.sess h.sess).role.atLeast role && decide ((s.sess h.sess).txSeq + 2 < 2 ^ 63)
  && decide (h.validUntil.toNat = 0 ∨ s.sys.timeNs ≤ h.validUntil.toNat)
  && decide (s.sec.recovery = false ∨ ty = 1 ∨ (0x50 ≤ ty ∧ ty ≤ 0x52))

/-- The state once that message has left its queue. -/
def State.dequeue (s : State) (h : Sys2Proof.MsgHdr) (q : Fin 16) (ty : Nat) (body : List Byte) : State :=
  match s.net.q[q.val].serve h ty body with
  | some x => (s.updQ q fun _ => { x.2 with servedAt := s.sys.tick }).shedCheck
  | none => s

/-- A message to a session (R371, R374, R375): it leaves under the session's next SEQ, in a SECURED datagram. -/
def State.message (s : State) (n : Fin 64) (ty status flags reqId : Nat) (body : List Byte) : Output :=
  let m := innerBytes ty status flags reqId body
  .hcp s.tag n.val (s.sess n).txSeq m (securedBytes (s.sess n).txKey n.val (s.sess n).txSeq m)

/-- The answer to a message of a session. -/
def State.answer (s : State) (h : Sys2Proof.MsgHdr) (ty status : Nat) (body : List Byte := []) : Output :=
  s.message h.sess ty status flResponse h.reqId.toNat body

/-- A frame of the row ring arrives in form (R388 to R390): forwarding runs, HOPS is not 0, and the type, the length and the
CRC are right. -/
def State.arrives (s : State) (f : Sys2Proof.RowFrame) (ty len : Nat) : Bool :=
  let b := f.bytes
  s.net.forwarding && b.length == 8 * ceilDiv (16 + len) 8 + 4 && at8 b 0 == ty && at16 b 12 == len && at16 b 2 != 0
  && crc32c (b.take (b.length - 4)) == leVal (b.drop (b.length - 4))

/-- The frame is one of this member's own, still out. -/
def State.ownFrame (s : State) (f : Sys2Proof.RowFrame) : Bool :=
  at16 f.bytes 4 == s.rackId && at8 f.bytes 6 == s.shelfIndex && s.net.sentSeq.contains (at32 f.bytes 8)

/-- A frame that a member acts on as it arrives: in form, of another member, its (SRC, SEQ) not acted on yet. -/
def State.acts (s : State) (f : Sys2Proof.RowFrame) (ty len : Nat) : Bool :=
  s.arrives f ty len && !s.ownFrame f && !s.net.seenSeq.contains (at16 f.bytes 4, at8 f.bytes 6, at32 f.bytes 8)

/-- A command gives a next state that has a property. -/
def Gives (c : Instr) (s : State) (p : State → Prop) : Prop := ∃ t, exec c s = .next t ∧ p t

end Sys2Proof.Machine
end

