-- ==== Sys2Proof/Certificates/Slice0/Obligations.lean ====
section
/-! DEFINITION. The statements for the provers. -/

open Sys2Proof Sys2Proof.Machine

/-- The supplies of the standby domain and the hold-up bank (R35 to R37, R47, R55, R57). The tests that each
command applies to the state are the hypotheses; that HOLDUP_CHARGING clears at the first measurement is the model's
choice (log entry 86). Where it touches them it states the
model's choices of log entries 74, 129. -/
def Obligations.StandbySupplies : Prop :=
  (∀ s : State, s.power.powered = true → s.power.stbySrc = false →
    exec .stby12Lost s = .next { s with
      power := { s.power with stby12Lost := true, stby12Ok := false, stbySrc := true
                              stby12Gone := !s.power.inputLoss || s.power.aux54Ok }
      evr := if s.power.inputLoss = false ∨ s.power.aux54Ok = true then s.evs [(0x0011, noInst, 0)] else s.evr }) ∧
  (∀ s : State, s.power.powered = true → s.power.stbySrc = true →
    exec .stby12Restored s = .next { s with
      power := { s.power with stby12Ok := true, stbySrc := false, stby12Gone := false }
      evr := if s.power.stby12Gone = true then s.evs [(0x0012, noInst, 0)] else s.evr }) ∧
  (∀ s : State, s.power.powered = true → s.power.inputLoss = false →
    exec .aux54Brownout s = .next { s with
      power := { s.power with brownout := true, aux54Ok := false }
      evr := if s.power.brownout = true then s.evr else s.evs [(0x0014, noInst, 0)] }) ∧
  (∀ (mJ : BitVec 32) (s : State), s.power.powered = true → s.power.inputLoss = false →
    exec (.holdupMeasure mJ) s = .next { s with
      power := { s.power with holdupE := mJ.toNat, holdupOk := decide (10000 ≤ mJ.toNat), holdupCharging := false }
      evr := if 10000 ≤ mJ.toNat then s.evr else s.evs [(0x0013, noInst, 0)] }) ∧
  (∀ s : State, s.power.inputLoss = true →
    exec .inputReturn s = .next { s with power := { s.power with auxReturned := true, aux54Ok := true } }) ∧
  (∀ s : State, exec .serviceAttached s = .next { s with
    power := { s.power with svcPresent := true }
    evr := if s.power.powered = true then s.evs [(0x0030, noInst, 0)] else s.evr })

/-- The reference, the crystal and the root clock (R39, R40, R304). That the counts of a ring are kept for the check after
relock is the model's choice (log entry 35); how times are judged while the root clock stands is log entry 109. Where it touches them it states the
model's choices of log entries 133. -/
def Obligations.ReferenceAndRootClock : Prop :=
  (∀ s : State, s.clk.refSrc = true → s.clk.refHoldover = false →
    exec .refInLost s = .next { s with
      clk := { s.clk with refInPresent := false, refHoldover := true, holdAt := s.sys.tick }
      evr := s.evs [(0x0020, noInst, 0)] }) ∧
  (∀ s : State, s.clk.refHoldover = true → s.clk.refFallback = true → s.clk.fallbackBlocked = false →
    s.elapsed s.clk.holdAt (500000 * max 1 s.clk.holdoverS) = true →
    exec .refFallback s = .next { s with
      clk := if s.clk.xtalOk = true then { s.clk with refSrc := false, refHoldover := false, fallbackBlocked := false }
             else { s.clk with fallbackBlocked := true }
      evr := s.evs [(if s.clk.xtalOk = true then 0x0021 else 0x0023, noInst, 0)] }) ∧
  (∀ s : State, s.clk.refInPresent = true → s.clk.refHoldover = true ∨ (s.clk.refSel = true ∧ s.clk.refSrc = false) →
    s.elapsed s.clk.refSince 500000 = true →
    exec .refInRestored s = .next { s with
      clk := { s.clk with refSrc := true, refHoldover := false, fallbackBlocked := false }
      evr := s.evs [(0x0022, noInst, 0)] }) ∧
  (∀ s : State, s.clk.xtalOk = true →
    exec .xtalFail s = .next { s with
      clk := { s.clk with xtalOk := false }
      evr := if s.clk.refSel = true then s.evs [(0x0024, noInst, 0)] else s.evr }) ∧
  (∀ s : State, s.clk.xtalOk = true → s.elapsed s.clk.xtalSince 500000 = true →
    (s.clk.refHoldover = true ∧ s.clk.fallbackBlocked = true) ∨ (s.clk.refSel = false ∧ s.clk.refSrc = true) →
    exec .xtalOkRestored s = .next { s with
      clk := { s.clk with refSrc := false, refHoldover := false, fallbackBlocked := false }
      evr := s.evs [(0x0021, noInst, 0)] }) ∧
  (∀ s : State, s.clk.fabricStopped = false →
    Gives .rootUnlock s fun t =>
      t.clk = { s.clk with fabricStopped := true, rootLock := false } ∧
      ∀ c : Fin 4, t.ring c = { s.ring c with
        state := .off, sweep := none, sweepDue := none, started := false
        relock := if (s.ring c).state.up = true ∨ (s.ring c).state = .enumerated then
          some ((s.ring c).nA, (s.ring c).nB) else none }) ∧
  (∀ s : State, s.clk.fabricStopped = true →
    Gives .rootRelock s fun t =>
      t.clk = { s.clk with fabricStopped := false, rootLock := true, unlockCount := bump 8 s.clk.unlockCount } ∧
      ∀ c : Fin 4, t.ring c =
        if (s.ring c).state = .off ∧ (s.ring c).relock.isSome = true then
          { (s.ring c).recount with state := .enumerating }
        else s.ring c)

/-- Loss of the input, the end of its record, power-up and a break of mating (R33 to R35, R44, R434, R443). Which
loads fall silent with the shed is the model's reading of R34; when POWER_ON is t0 is log entry 34. Where it touches them it states the
model's choices of log entries 7, 39, 69, 72, 73, 74, 75, 85, 109, 130, 135. -/
def Obligations.InputLossAndPowerUp : Prop :=
  (∀ s : State, s.power.powered = true → s.power.inputLoss = false →
    Gives .inputLoss s fun t =>
      t.power = { s.power with aux54Ok := false, inputLoss := true, auxReturned := false, lossTick := s.sys.tick
                               holdupCharging := false } ∧
      t.sys.rackHoldDrive = false ∧ t.sys.state = s.sys.state ∧ t.sec.fwRunning = false ∧
      t.net.linkUp = false ∧ t.net.joined = false ∧ t.tlk.portsUp = false ∧ t.fce = {} ∧
      (∀ c : Fin 4, (t.ring c).state = .off) ∧ (∀ n : Fin 32, t.mem.ch[n.val] = {}) ∧
      ∀ g : Fin 4, t.sys.gdrvEn[g.val] = false ∧ (t.grp g).state = .off) ∧
  (∀ s : State, s.power.inputLoss = true → s.elapsed s.power.lossTick 25000 = true → s.power.auxReturned = false →
    Gives .inputLossRecordClose s fun t =>
      t.power.powered = false ∧ t.sys.state = .boot ∧ t.loop = {} ∧ t.pwm = {} ∧ t.est = {} ∧
      t.sec.lifecycle = s.sec.lifecycle ∧ t.cfg.slotA = s.cfg.slotA ∧ t.cfg.slotB = s.cfg.slotB ∧
      ((s.bucketCfg 0xC051).2.2 = false → ∀ i : Fin 4, (s.evr.slot[i.val]).state = .closing →
        (t.evr.slot[i.val]).state = .kept ∨ (t.evr.slot[i.val]).state = .closed)) ∧
  (∀ s : State, s.power.inputLoss = true → s.elapsed s.power.lossTick 25000 = true → s.power.auxReturned = true →
    s.power.aux54Ok = true → s.power.mate = true →
    Gives .inputLossRecordClose s fun t =>
      t.power.powered = true ∧ t.power.inputLoss = false ∧ t.sys.state = .boot ∧ t.sys.resetCause = 1) ∧
  (∀ (stby12 : Bool) (s : State), s.power.powered = false → s.power.inputLoss = false → s.power.auxReturned = false →
    Gives (.powerOn stby12) s fun t =>
      t.power.powered = true ∧ t.power.mate = true ∧ t.power.aux54Ok = true ∧ t.power.stby12Ok = stby12 ∧ t.power.stbySrc = !stby12 ∧
      t.power.holdupCharging = true ∧ t.power.holdupOk = false ∧
      t.clk.rootLock = true ∧ t.clk.xtalOk = true ∧ t.clk.basaltOscOk = true ∧
      t.sys.state = .boot ∧ t.sys.resetCause = 0 ∧ t.sys.target = 4 ∧ t.sys.tick = 0 ∧ t.sys.degraded = false ∧
      t.sec.lifecycle = s.sec.lifecycle ∧ t.sec.fusesOk = true ∧ t.cfg.active = []) ∧
  (∀ s : State, s.sec.resetReq = none → s.prot.coolShutdown = false → s.sys.state ≠ .shipPrep →
    Gives .mateRelease s fun t =>
      t.power = { s.power with mate := false } ∧ t.sys.state = s.sys.state ∧
      ∀ g : Fin 4, t.sys.gdrvEn[g.val] = false ∧ (t.grp g).state = .off)

/-- The service connector (R46, R47, R446, R480). The manufacturer's identity in IDCODE, the console's text and the
directory bit of STATUS are free values (log entry 7): the clauses say only what the rules give of them. Where it touches them it states the
model's choices of log entries 3, 11, 72, 75, 84, 143. -/
def Obligations.ServiceConnectorAndPort : Prop :=
  (∀ s : State, s.gdrvHeld = false →
    exec (.jtagInstruction .bypass) s = .next { s with sys := { s.sys with tap := .bypass } } ∧
    exec (.jtagInstruction .samplePreload) s = .next { s with sys := { s.sys with tap := .samplePreload } }) ∧
  (∀ s : State, s.gdrvHeld = false → Gives (.jtagInstruction .idcode) s fun t =>
    t.sys = { s.sys with tap := .idcode } ∧
    ∃ m : Fin 2048, t.tx = .tdo (s.sys.step % 16 * 2 ^ 28 + 0x475A * 2 ^ 12 + m.val * 2 + 1) :: s.tx) ∧
  (∀ (i : Sys2Proof.TapInstr) (s : State), i = .extest ∨ i = .clamp → s.power.powered = true →
    s.sys.state = .boot ∨ s.sys.state = .standby → s.sec.resetReq = none → s.prot.coolShutdown = false →
    Gives (.jtagInstruction i) s fun t => t.sys.tap = i ∧ t.sys.state = s.sys.state ∧
      (∃ u : State, t = u.ev 0x0031) ∧
      ∀ g : Fin 4, t.sys.gdrvEn[g.val] = false ∧ (t.grp g).state = .off) ∧
  (∀ (i : Sys2Proof.TapInstr) (s : State), i = .extest ∨ i = .clamp → s.gdrvHeld = false →
    s.power.powered = false ∨ s.sys.state = .armed ∨ s.sys.state = .run ∨ s.sys.state = .basalt ∨ s.sys.state = .shipPrep →
    exec (.jtagInstruction i) s = .next { s with sys := { s.sys with tap := .bypass } }) ∧
  (∀ s : State, s.gdrvHeld = false → s.sec.lifecycle = 2 ∨ s.sec.lifecycle = 4 →
    exec (.jtagInstruction .debug) s = .next { s with
      sys := { s.sys with tap := .bypass }, evr := s.evs [(0x1041, noInst, 0)] }) ∧
  (∀ s : State, s.power.powered = true → Gives .svcUartQuery s fun t =>
    s.only [.tx, .fv] t ∧ ∃ text : Nat, t.tx = .console text :: s.tx) ∧
  (∀ (a : BitVec 32) (n : Nat) (s : State), Gives (.svcSpiRead a n) s fun t =>
    t.tx = .spi ((List.range n).map fun i => s.mramByte ((a.toNat + i) % 67108864)) :: s.tx ∧ s.only [.tx, .fv] t) ∧
  (∀ s : State, exec .svcSpiIdent s = .next { s with
    tx := .spi ([0x09#8, 0x5A#8, 0x47#8, 0x00#8] ++ bytesAt s.sec.serial 0 16) :: s.tx }) ∧
  (∀ (c : BitVec 8) (n : Nat) (s : State), exec (.svcSpiStatus (some (c, n))) s = .next { s with
    tx := .spi (List.replicate n 0) :: s.tx }) ∧
  (∀ s : State, Gives (.svcSpiStatus none) s fun t => ∃ b : Byte, t.tx = .spi [b] :: s.tx ∧
    tb b.toNat 0 = s.evr.writer ∧ tb b.toNat 1 = s.power.powered ∧ b.toNat < 8)

/-- The steps of boot (R263, R383, R388, R434, R436, R437). The signatures of a firmware image are computed from its
bytes (log entry 5). Where it touches them it states the
model's choices of log entries 4, 78, 106, 109. -/
def Obligations.BootSteps : Prop :=
  (∀ s : State, s.lit = true → exec .trayPortsUp s = .next { s with
    tlk := { s.tlk with portsUp := true }, net := { s.net with forwarding := true } }) ∧
  (∀ (n : Fin 64) (s : State), s.tlk.portsUp = true → s.cfg.activeValid = false → (s.port n).state = .notReady →
    (s.port n).linked = true → s.elapsed (s.port n).sentTick 50 = true →
    Gives (.notReadyGrant n) s fun t =>
      (t.port n).sent = some (s.grantFor n) ∧ (s.grantFor n).state = 0 ∧ (s.grantFor n).fixedFreq = true ∧
      (s.grantFor n).expiry = 0 ∧ (s.grantFor n).envelope = s.safeEnv n.val ∧ ∀ j, j ≠ n → t.port j = s.port j) ∧
  (∀ (keys : Bool) (s : State), s.lit = true → s.sys.state = .boot →
    s.sec.fwRunning = false → s.sec.recovery = false →
    Gives (.fwVerified keys) s fun t =>
      (s.fwStep (s.fwImage s.sec.bootSlotB) = 0 →
        t.sec.fwRunning = true ∧ t.sec.fwSlotB = s.sec.bootSlotB ∧ t.sec.fwFallback = false ∧
        t.sec.identityOk = (s.sec.identityKeys && keys) ∧ t.sec.lifecycle = s.sec.lifecycle ∧
        t.sec.fwDigest = imageDigest ((s.fwImage s.sec.bootSlotB).getD []) ∧ t.evr = s.evs [(0x1001, noInst, 0)])) ∧
  (∀ (keys : Bool) (s : State), s.lit = true → s.sys.state = .boot →
    s.sec.fwRunning = false → s.sec.recovery = false → s.sec.fwSlotAImg = none → s.sec.fwSlotBImg = none →
    Gives (.fwVerified keys) s fun t =>
      t.sec = { s.sec with recovery := true, fwResult := 1 } ∧
      t.evr = s.evs [(0x1002, noInst, if s.sec.bootSlotB = true then 257 else 1),
        (0x1002, noInst, if s.sec.bootSlotB = true then 1 else 257), (0x1003, noInst, 0)]) ∧
  (∀ s : State, s.power.powered = true → s.power.inputLoss = false → s.sec.fwRunning = true →
    exec .netReady s = .next { s with
      sec := { s.sec with hbmUp := true }, net := { s.net with ready := s.net.linkUp || s.net.ready } })

/-- Passages between the device states (R16, R441, R442, R445, R450, R451). Where it touches them it states the
model's choices of log entries 25, 69, 75. -/
def Obligations.PassagesByTarget : Prop :=
  (∀ (sess : Fin 64) (v : BitVec 4) (s : State), s.allows sess .oa = true → s.sys.state = .standby →
    s.sec.watchdogDue = false → v = 2 ∨ v = 3 ∨ v = 4 →
    Gives (.sysStateReq sess v) s fun t => t.sys = { s.sys with target := v.toNat } ∧ t.evr = s.evr) ∧
  (∀ (sess : Fin 64) (v : BitVec 4) (s : State), s.allows sess .oa = true → v ≠ 2 → v ≠ 3 → v ≠ 4 → v ≠ 6 →
    exec (.sysStateReq sess v) s = .next s) ∧
  (∀ (sess : Fin 64) (s : State), s.allows sess .oa = true → s.sys.state = .run → s.sec.watchdogDue = false →
    Gives (.sysStateReq sess 3) s fun t =>
      t.sys.state = .armed ∧ t.sys.target = 3 ∧ t.net.runConsent = false ∧ t.loop.active = false ∧
      ∀ g : Fin 4, (t.grp g).state = if (s.grp g).state = .off then .off else .stopping) ∧
  (∀ (sess : Fin 64) (s : State), s.allows sess .oa = true → s.sys.state = .armed → s.sys.passage = .none →
    s.sec.watchdogDue = false →
    Gives (.sysStateReq sess 2) s fun t =>
      t.sys.state = .standby ∧ t.sys.target = 2 ∧ ∀ c : Fin 4, (t.ring c).ctr = (s.ring c).ctr) ∧
  (∀ (sess : Fin 64) (s : State), s.allows sess .oa = true → s.sys.state = .armed → s.sys.passage = .none →
    s.sec.watchdogDue = false →
    Gives (.sysStateReq sess 4) s fun t => t.sys.state = .armed ∧ t.sys.target = 4 ∧ t.net.runConsent = true) ∧
  (∀ (sess : Fin 64) (s : State), s.allows sess .oa = true → s.sys.state = .standby → s.sec.watchdogDue = false →
    Gives (.sysStateReq sess 6) s fun t =>
      t.sys.state = .shipPrep ∧ t.sys.target = 6 ∧ t.net.joined = false ∧
      ∀ c : Fin 4, (s.ring c).state.up = true → (t.ring c).state = .shipping) ∧
  (∀ (sess : Fin 64) (s : State), s.allows sess .oa = true → s.sys.state = .run → s.sec.watchdogDue = false →
    exec (.sysStateReq sess 6) s = .next { s with evr := s.evs [(0x0003, noInst, 70)] }) ∧
  (∀ s : State, s.lit = true → s.mayArm = true →
    Gives .armedPassage s fun t =>
      t.sys.state = .armed ∧ t.sys.target = s.sys.target ∧ t.net.runConsent = false ∧
      t.sys.passage = if t.rings.all t.ctrClosed = true then .none else .toArmed) ∧
  (∀ s : State, s.lit = true → s.sys.state = .shipPrep → s.sec.shipReady = false →
    (∀ g : Fin 4, (s.grp g).state = .off) → (∀ c ∈ s.rings, s.ringShipped c = true) →
    exec .shipReady s = .next { s with
      sec := { s.sec with shipReady := true }, evr := s.evs [(0x0040, noInst, 0)] })

/-- Resets (R443, R444) and the lifecycle (R446). That the Obsidian writer goes on over a WARM reset is log entry 130. Where it touches them it states the
model's choices of log entries 69. -/
def Obligations.ResetsKeepWhatTheirKindKeeps : Prop :=
  (∀ (sess : Fin 64) (s : State), s.allows sess .ia = true → s.sys.state = .standby → s.sec.resetReq = none →
    s.allOff = true →
    Gives (.warmReset sess) s fun t =>
      t.sys.state = .boot ∧ t.sys.resetCause = 2 ∧ t.sys.target = 4 ∧ t.sys.tick = 0 ∧ t.sys.violCount = 0 ∧
      t.power = { s.power with lossTick := 0 } ∧ t.cfg.active = [] ∧ t.cfg.slotA = s.cfg.slotA ∧
      t.cfg.slotB = s.cfg.slotB ∧ t.prot.image = s.prot.image ∧ t.sec.lifecycle = s.sec.lifecycle ∧
      t.sec.fwCounter = s.sec.fwCounter ∧ t.sec.cfgCounter = s.sec.cfgCounter ∧ t.evr.writer = s.evr.writer ∧ t.pending = s.pending) ∧
  (∀ (sess : Fin 64) (s : State), s.allows sess .ia = true → s.sys.state = .standby → s.sec.resetReq = none →
    s.allOff = true → s.power.mate = true →
    Gives (.fullReset sess) s fun t =>
      t.sys.state = .boot ∧ t.sys.resetCause = 3 ∧ t.sys.target = 4 ∧ t.sys.tick = 0 ∧
      t.power.holdupE = s.power.holdupE ∧ t.power.brownout = false ∧ t.cfg.active = [] ∧
      t.cfg.slotA = s.cfg.slotA ∧ t.cfg.slotB = s.cfg.slotB ∧ t.sec.lifecycle = s.sec.lifecycle ∧
      t.sec.fwCounter = s.sec.fwCounter ∧ t.evr.writer = false ∧ ∀ g : Fin 4, t.prot.image[g.val] = none) ∧
  (∀ (sess : Fin 64) (s : State), s.allows sess .ia = true → s.sys.state = .run → s.sec.resetReq = none →
    s.allOff = false →
    Gives (.warmReset sess) s fun t => t.sys.state = .armed ∧ t.sec.resetReq = some 2) ∧
  (∀ s : State, s.power.powered = true → s.power.inputLoss = false → s.sys.state = .armed →
    Gives .watchdog s fun t => t.sys.state = .boot ∧ t.sys.resetCause = 4 ∧ t.power = { s.power with lossTick := 0 } ∧
      t.cfg.slotA = s.cfg.slotA ∧ t.prot.image = s.prot.image) ∧
  (∀ s : State, s.power.powered = true → s.power.inputLoss = false → s.sys.state = .basalt →
    exec .watchdog s = .next { s with sec := { s.sec with watchdogDue := true } }) ∧
  (∀ (sess : Fin 64) (s : State), s.allows sess .is_ = true → s.sec.lifecycle = 2 →
    exec (.secLcCtrl sess) s = .next { s with
      sec := { s.sec with lifecycle := 3, identityKeys := false, identityOk := false }
      net := { s.net with cak := none }, evr := s.evs [(0x1030, noInst, 0)] })

/-- The rotation of a chiplet's spare (R111 to R114, R116, R121). Each clause gives the whole next state; the times of
a slot count from slotTick, and how they are judged is log entry 109. Which result of CALIBRATING comes when is the
operand. Where it touches them it states the
model's choices of log entries 24, 31, 66, 82, 94, 110. -/
def Obligations.RotationOfTheSpareConverters : Prop :=
  (∀ (a : Fin 4) (s : State), s.rotationRuns a.val = true → (s.chip a.val).step = .settle → (s.chip a.val).rotEn = true →
    s.slotFor a.val 20000 = true →
    exec (.selfCheck a true) s = .next (s.updChip a.val fun x => { x with
      step := .selfCheck, chan := nextChannel a.val x.chan, slotTick := s.sys.tick, selfFails := 0
      rotations := if x.chan = 64 + 24 * a.val + 23 then bump 16 x.rotations else x.rotations })) ∧
  (∀ (a : Fin 4) (s : State), s.rotationRuns a.val = true → (s.chip a.val).step = .selfCheck →
    exec (.selfCheck a true) s = .next (s.updChip a.val fun x => { x with selfFails := 0 })) ∧
  (∀ (a : Fin 4) (ok : Bool) (s : State), s.rotationRuns a.val = true → (s.chip a.val).step = .settle →
    (s.chip a.val).rotEn = false → s.slotFor a.val 20000 = true →
    exec (.selfCheck a ok) s = .next (s.updChip a.val fun x => { x with
      step := .paused
      rotations := if x.chan = 64 + 24 * a.val + 23 then bump 16 x.rotations else x.rotations })) ∧
  (∀ (a : Fin 4) (s : State), s.rotationRuns a.val = true → (s.chip a.val).step = .selfCheck →
    (s.chip a.val).selfFails = 1 → (s.chip a.val).spareFailed = false → (s.chip a.val).subst = none →
    exec (.selfCheck a false) s = .next ((s.updChip a.val fun x => { x with
        selfFails := 2, step := .stopped, rotStopped := true, spareFailed := true, substPending := none }).ev 0x3014 a.val)) ∧
  (∀ (a : Fin 4) (m : Sys2Proof.OverlapMeans) (s : State), s.rotationRuns a.val = true →
    (s.chip a.val).step = .selfCheck → s.slotFor a.val 2000 = true → s.mismatches m.own m.spare = false →
    exec (.overlapIn a m) s = .next (s.updChip a.val fun x => { x with step := .overlapIn })) ∧
  (∀ (a : Fin 4) (r : Sys2Proof.CalResult) (s : State), s.rotationRuns a.val = true →
    (s.chip a.val).step = .overlapIn → s.slotFor a.val 3000 = true → s.calCheck r = none →
    exec (.calibrating a r) s = .next ((s.updChip a.val fun x => { x with step := .calibrating }).updCh
      (s.chip a.val).chan fun x => { x with newCoef := some (r.ofs, r.gain) })) ∧
  (∀ (a : Fin 4) (r : Sys2Proof.CalResult) (c cause : Nat) (s : State), s.rotationRuns a.val = true →
    (s.chip a.val).step = .overlapIn → s.slotFor a.val 3000 = true → s.calCheck r = some cause →
    (s.chip a.val).chan = c → c < 160 → chipOf c = a.val → (s.chan c).adcFailed = false →
    (s.chip a.val).subst = none → (s.chip a.val).substPending = none → (s.chip a.val).spareFailed = false →
    Gives (.calibrating a r) s fun t =>
      t.chip a.val = { s.chip a.val with step := .stopped, rotStopped := true, subst := some c, substTick := s.sys.tick
                                         covered := some c, displaced := true } ∧
      t.chan c = { s.chan c with adcFailed := true, failCause := cause, newCoef := none } ∧ t.sys.degraded = true ∧
      t.evr = s.evs [(0x3011, c, cause), (0x2040, 4096 + a.val, 65), (0x3012, c, 0)]) ∧
  (∀ (a : Fin 4) (m : Sys2Proof.OverlapMeans) (s : State), s.rotationRuns a.val = true →
    (s.chip a.val).step = .calibrating → s.slotFor a.val 17000 = true → s.mismatches m.own m.spare = false →
    exec (.overlapOut a m) s = .next (s.updChip a.val fun x => { x with step := .overlapOut })) ∧
  (∀ (a : Fin 4) (ofs : Int) (gain : Nat) (s : State), s.rotationRuns a.val = true →
    (s.chip a.val).step = .overlapOut → s.slotFor a.val 18000 = true → (s.chip a.val).chan < 164 →
    (s.chan (s.chip a.val).chan).newCoef = some (ofs, gain) →
    exec (.settle a) s = .next ((s.updChip a.val fun x => { x with step := .settle }).updCh (s.chip a.val).chan fun x =>
      { x with calOfs := ofs, calGain := gain, newCoef := none, calTick := s.sys.tick })) ∧
  (∀ (sess : Fin 64) (v : BitVec 4) (s : State), s.allows sess .ox = true →
    exec (.rotEn sess v) s = .next { s with afe := { s.afe with
      chip := mapV s.afe.chip fun a x => { x with rotEn := v.getLsbD a.val } } })

/-- Boot calibration and failures of the front end (R105, R106, R108, R109, R113 to R117). Where it touches them it states the
model's choices of log entries 24, 31, 65, 66, 82, 91, 94, 98, 109, 110, 117, 136, 137. -/
def Obligations.FailedConvertersAndShunts : Prop :=
  (∀ (cal : Sys2Proof.BootCal) (s : State), s.afe.bootCalDone = false → s.cfg.activeValid = true →
    s.sys.state ≠ .shipPrep →
    Gives (.bootCalDone cal) s fun t => t.afe.bootCalDone = true ∧
      (∃ u : State, t = u.ev 0x3001) ∧ (∀ c ∈ s.afe.failMapStored, c ∈ t.afe.failMapStored) ∧
      (∀ c : Fin 160, c.val ∉ s.afe.failMap →
        (t.chan c.val).calOfs = ((cal.channels.find? fun r => r.ch = c.val).map (·.ofs)).getD 0 ∧
        (t.chan c.val).calGain = ((cal.channels.find? fun r => r.ch = c.val).map (·.gain)).getD 1073741824 ∧
        (t.chan c.val).calTick = s.sys.tick) ∧
      (∀ i : Fin 4, (∀ r ∈ cal.shunts, r.shunt ≠ i.val) →
        t.afe.shunt[i.val].activeB = false ∧ t.afe.shunt[i.val].qFrac = 0) ∧
      (∀ (i : Fin 4) (r : Sys2Proof.ShuntCal), cal.shunts.find? (fun r => r.shunt = i.val) = some r →
        t.afe.shunt[i.val].activeB = (!r.okA && r.okB) ∧ t.afe.shunt[i.val].aFailed = !r.okA ∧
        t.afe.shunt[i.val].bFailed = !r.okB ∧ t.afe.shunt[i.val].dead = (!r.okA && !r.okB) ∧
        (r.windows = [] → t.afe.shunt[i.val].qFrac = 0)) ∧
      ∀ a : Fin 4, (t.chip a.val).rotStopped = false → (t.chip a.val).spareFailed = false →
        (t.chip a.val).step = .selfCheck ∧ (t.chip a.val).chan = 16 * a.val) ∧
  (∀ (c : Fin 160) (cause : Fin 5) (s : State), (s.chan c.val).adcFailed = false →
    (s.chip (chipOf c.val)).subst = none → (s.chip (chipOf c.val)).spareFailed = false →
    (s.chip (chipOf c.val)).substPending = none → (s.chip (chipOf c.val)).step = .paused →
    Gives (.channelFailed c cause) s fun t =>
      t.chan c.val = { s.chan c.val with adcFailed := true, failCause := cause.val + 1, newCoef := none } ∧
      t.chip (chipOf c.val) = { s.chip (chipOf c.val) with
        step := .stopped, rotStopped := true, subst := some c.val, substPending := some c.val, substTick := s.sys.tick } ∧
      t.sys.degraded = true ∧ c.val ∈ t.afe.failMap ∧ c.val ∈ t.afe.failMapStored ∧
      t.evr = s.evs [(0x3011, c.val, cause.val + 1)]) ∧
  (∀ (c : Fin 160) (cause : Fin 5) (s : State), (s.chan c.val).adcFailed = false →
    (s.chip (chipOf c.val)).subst.isSome = true → (s.chip (chipOf c.val)).substPending = none → 64 ≤ c.val →
    Gives (.channelFailed c cause) s fun t =>
      (t.chan c.val).dead = true ∧ (t.chan c.val).adcFailed = true ∧ t.sys.degraded = true ∧
      t.chip (chipOf c.val) = s.chip (chipOf c.val) ∧ t.evr = s.evs [(0x3011, c.val, cause.val + 1), (0x3013, c.val, 0)]) ∧
  (∀ (a : Fin 4) (c : Nat) (s : State), (s.chip a.val).substPending = some c →
    exec (.spareSubstituted a) s = .next ((s.updChip a.val fun x => { x with substPending := none }).ev 0x3012 c)) ∧
  (∀ (a : Fin 4) (s : State), (s.chip a.val).spareFailed = false → (s.chip a.val).subst = none →
    exec (.spareFailed a) s = .next ((s.updChip a.val fun x => { x with
        step := .stopped, rotStopped := true, spareFailed := true, substPending := none }).ev 0x3014 a.val)) ∧
  (∀ (sess : Fin 64) (s : State), s.allows sess .is_ = true →
    exec (.failmapClr sess) s = .next { s with
      afe := { s.afe with failMapStored := [] }, evr := s.evs [(0x3016, noInst, 0)] }) ∧
  (∀ (i : Fin 4) (ofs : Int) (gain : Nat) (s : State), s.afe.bootCalDone = true → (s.shunt i).dead = false →
    (s.shunt i).aFailed = false → (s.shunt i).bFailed = false → s.elapsed (s.shunt i).calTick 5000000 = true →
    exec (.shuntModCalibrate i ofs gain) s = .next (s.updShunt i fun x =>
      if x.activeB = true then { x with ofsA := ofs, gainA := gain, comparing := true, calTick := s.sys.tick }
      else { x with ofsB := ofs, gainB := gain, comparing := true, calTick := s.sys.tick })) ∧
  (∀ (i : Fin 4) (qa qi : Int) (okA okB : Bool) (s : State), (s.shunt i).comparing = true →
    (s.shunt i).dead = false → s.elapsed (s.shunt i).calTick 500000 = true →
    1000 * (qa - qi).natAbs ≤ s.shuntFs i.val * 1000000 →
    exec (.shuntModCompare i qa qi okA okB) s = .next (s.updShunt i fun x =>
      { x with comparing := false, exchangeDue := true })) ∧
  (∀ (i : Fin 4) (qa qi : Int) (s : State), (s.shunt i).comparing = true →
    (s.shunt i).dead = false → s.elapsed (s.shunt i).calTick 500000 = true →
    s.shuntFs i.val * 1000000 < 1000 * (qa - qi).natAbs →
    exec (.shuntModCompare i qa qi true true) s = .next
      ((s.updShunt i fun x => { x with comparing := false }).ev 0x3041 (160 + i.val)) ∧
    exec (.shuntModCompare i qa qi false true) s = .next
      ((s.updShunt i fun x => { x with comparing := false, aFailed := true, activeB := true }).degrade.ev 0x3040 (160 + i.val)) ∧
    exec (.shuntModCompare i qa qi true false) s = .next
      ((s.updShunt i fun x => { x with comparing := false, bFailed := true, activeB := false }).degrade.ev 0x3040 (160 + i.val)) ∧
    exec (.shuntModCompare i qa qi false false) s = .next
      ((s.updShunt i fun x => { x with comparing := false, aFailed := true, bFailed := true, dead := true }).degrade.ev
        0x3042 (160 + i.val))) ∧
  (∀ (p : Fin 64) (mv periods : Nat) (s : State), s.senseBias p.val = true → s.chEn p.val = true →
    s.afe.senseOpen[p.val] = false → s.afe.senseThresh < mv → s.sensePeriods ≤ periods →
    Gives (.senseOpen p mv periods) s fun t => t.afe.senseOpen[p.val] = true ∧ t.afe.senseLatch[p.val] = true ∧
      ∀ q : Fin 64, q ≠ p → t.afe.senseOpen[q.val] = s.afe.senseOpen[q.val]) ∧
  (∀ (p : Fin 64) (mv periods : Nat) (s : State), s.afe.senseOpen[p.val] = true → mv < s.afe.senseThresh →
    s.sensePeriods ≤ periods →
    Gives (.senseRestored p mv periods) s fun t =>
      t.afe.senseOpen[p.val] = false ∧ t.afe.senseLatch = s.afe.senseLatch ∧ t.pwm = s.pwm ∧
      t.evr = s.evs [(0x3021, p.val, 0)])

/-- The commands of a loop slot (R152, R156, R158 to R160, R167). Each clause gives the whole next state; a TEST_START while
a snapshot still fills is refused by the model's choice (log entry 93). Where it touches them it states the
model's choices of log entries 68. -/
def Obligations.TestsBanksAndSnapshotsOfASlot : Prop :=
  (∀ (sess i : Fin 64) (s : State), s.allows sess .oa = true → s.hasSlot i = true → (s.testRec i.val).isSome = true →
    s.sys.state = .run → (s.slot i).test.state.live = false → (s.slot i).snapHeld = false → (s.slot i).snapLeft = none →
    exec (.testStart sess i) s = .next (s.updSlot i fun x => { x with
      displaced := false, test := { state := .pending, notBefore := s.sys.tick + 2 } })) ∧
  (∀ (sess i : Fin 64) (s : State), s.allows sess .oa = true → s.hasSlot i = true → (s.testRec i.val).isSome = true →
    s.sys.state ≠ .run ∨ (s.slot i).test.state.live = true ∨ (s.slot i).snapHeld = true ∨ (s.slot i).snapLeft.isSome = true →
    exec (.testStart sess i) s = .next (s.updSlot i fun x => { x with test := { x.test with refused := true } })) ∧
  (∀ (i : Fin 64) (s : State) (r : Rec), s.testRec i.val = some r → (s.slot i).test.state = .pending →
    (s.slot i).test.notBefore ≤ s.sys.tick + 1 →
    exec (.testStarted i) s = .next ((s.updSlot i fun x => { x with
      cap := if s.testCaptures i = true then [] else x.cap
      test := { x.test with state := .running, j := 0, records := 0, phase := 0
                            lfsr := if r.testForm = 1 then 2 ^ r.u8 0x10 - 1 else 0 } }).ev 0x4030 i.val)) ∧
  (∀ (i : Fin 64) (s : State) (r : Rec), s.testRec i.val = some r → (s.slot i).test.state = .running →
    r.testLen ≤ (s.slot i).test.j →
    exec (.testDone i) s = .next ((s.updSlot i fun x => { x with
      test := { x.test with state := .done, refused := false } }).ev 0x4031 i.val)) ∧
  (∀ (sess i : Fin 64) (s : State), s.allows sess .oa = true → s.hasSlot i = true → (s.slot i).test.state.live = true →
    exec (.testStop sess i) s = .next ((s.updSlot i fun x => { x with
      test := { x.test with state := .aborted, refused := false } }).ev 0x4032 i.val)) ∧
  (∀ (sess i : Fin 64) (s : State), s.allows sess .oa = true → s.hasSlot i = true → (s.slot i).altBank = true →
    exec (.bankPrimary sess i) s = .next (s.updSlot i fun x => { x with bankReq := some false })) ∧
  (∀ (sess i : Fin 64) (s : State), s.allows sess .oa = true → s.hasSlot i = true → (s.slot i).frozen = true →
    exec (.unfreeze sess i) s = .next ((s.updSlot i fun x => { x with
      frozen := false, freezeReq := none, osc := { x.osc with quiet := 0 } }).ev 0x4014 i.val)) ∧
  (∀ (i : Fin 64) (s : State) (r : Rec), s.slotRec i.val = some r → (s.slot i).frozen = true →
    r.oscWindow ≤ (s.slot i).osc.quiet →
    exec (.integReleased i) s = .next ((s.updSlot i fun x => { x with
      frozen := false, freezeReq := none, osc := { x.osc with quiet := 0 } }).ev 0x4014 i.val)) ∧
  (∀ (i : Fin 64) (s : State), (s.slot i).snapLeft = some 0 →
    exec (.snapshotTaken i) s = .next ((s.updSlot i fun x => { x with snapHeld := true, snapLeft := none }).ev 0x4033 i.val)) ∧
  (∀ (sess i : Fin 64) (s : State), s.allows sess .oa = true → s.hasSlot i = true → (s.slot i).snapHeld = true →
    exec (.snapRelease sess i) s = .next ((s.updSlot i fun x => { x with snapHeld := false }).ev 0x4034 i.val))

/-- The commands of a converter group (R174, R180, R186, R192, R194). How the ends of ramps and delays are judged is log
entry 109; that a returning fast path re-interleaves at once is R192. Where it touches them it states the
model's choices of log entries 59, 70, 88, 104, 109, 110, 135. -/
def Obligations.GroupsStartStopAndRideThrough : Prop :=
  (∀ (g : Fin 4) (s : State), (s.grp g).state = .softStart → s.rampOver g = true →
    Gives (.groupRunning g) s fun t =>
      t.grp g = { s.grp g with state := .running, rampLeft := 0 } ∧ (∀ j, j ≠ g → t.grp j = s.grp j) ∧ t.pwm.ph = s.pwm.ph ∧
      (s.tlk.causes[3] = false → t.evr = s.evs [(0x5002, 0x0100 + g.val, 0)])) ∧
  (∀ (g : Fin 4) (s : State), (s.grp g).state = .stopping → s.mayStop g = true → s.sec.resetReq = none → s.prot.coolShutdown = false →
    s.sys.state ≠ .shipPrep →
    Gives (.groupStopped g) s fun t =>
      (t.grp g).state = .off ∧ t.sys.gdrvEn[g.val] = false ∧ (t.grp g).framing = false ∧ (t.grp g).iRef = 0 ∧ (t.grp g).de = false ∧
      (t.grp g).sync = .free ∧
      (∀ j, j ≠ g → t.grp j = s.grp j) ∧ (∀ p ∈ s.members g.val, (t.ph p).iPk = 0) ∧ t.sys.state = s.sys.state) ∧
  (∀ (g : Fin 4) (s : State), (s.grp g).state = .softStart ∨ (s.grp g).state = .running ∨ (s.grp g).state = .stopping →
    (s.grp g).de = false → 16 ≤ (s.grp g).deTicks → s.deEnter g.val ≠ 0 →
    Gives (.deEntered g) s fun t =>
      t.grp g = { s.grp g with de := true, deExit := false } ∧ (∀ j, j ≠ g → t.grp j = s.grp j) ∧
      t.evr = s.evs [(0x5050, 0x0100 + g.val, 0)]) ∧
  (∀ (g : Fin 4) (s : State), (s.grp g).de = true → (s.grp g).deExit = true →
    Gives (.deLeft g) s fun t =>
      t.grp g = { s.grp g with de := false, deTicks := 0, deExit := false } ∧ (∀ j, j ≠ g → t.grp j = s.grp j) ∧
      t.evr = s.evs [(0x5051, 0x0100 + g.val, 0)]) ∧
  (∀ (g : Fin 4) (at_ : Nat) (s : State), (s.grp g).fpArmed = true →
    (s.grp g).state = .softStart ∨ (s.grp g).state = .running ∨ (s.grp g).state = .basalt →
    Gives (.uvFastpath g at_) s fun t =>
      t.grp g = { s.grp g with state := .fastPath, fpReturn := (s.grp g).state, fpCount := bump 16 (s.grp g).fpCount
                               fpArmed := false, fpGood := 0, fpAt := s.instant at_
                               ons := insertAsc (s.instant at_) ((s.grp g).ons.filter fun u => decide (u < s.instant at_)) } ∧
      (∀ j, j ≠ g → t.grp j = s.grp j) ∧
      (∀ p ∈ s.actives g, t.ph p = { s.cut p (s.instant at_) (s.ph p) with
        iPkCycle := s.peakLimit p.val, mode := .discharge, offset := 0, offsetFrom := 0, fpSteps := 4, due := []
        cyc := if s.gatesOff p = true then none else some { onAt := s.instant at_ }
        edges := if s.gatesOff p = true then (s.ph p).edges else s.instant at_ :: (s.ph p).edges }) ∧
      (∀ p, p ∉ s.actives g → t.ph p = s.ph p) ∧ t.evr = s.evs [(0x5040, 0x0100 + g.val, 0)]) ∧
  (∀ (g : Fin 4) (s : State), (s.grp g).state = .fastPath →
    s.clk.fabricStopped = true ∨ (s.grp g).fpAt + 160000 ≤ 80000 * (s.sys.tick + 1) →
    Gives (.throttleRequested g) s fun t =>
      t.grp g = { s.grp g with uvReq := true } ∧ (∀ j, j ≠ g → t.grp j = s.grp j) ∧ t.tlk.causes[0] = true ∧ t.tlk.throttleAll = true) ∧
  (∀ (g : Fin 4) (v : Int) (s : State), (s.grp g).state = .fastPath → (s.grp g).fpReturn = .running →
    (s.grp g).fpThr + 5000 < v ∨ (s.grp g).fpAt + 800000 ≤ 80000 * (s.sys.tick + 1) →
    Gives (.uvFastpathEnd g v) s fun t =>
      (t.grp g).state = .running ∧ (t.grp g).reinterleave = true ∧ (t.grp g).reSteps = 0 ∧
      (∀ p, (t.ph p).fpSteps = (s.ph p).fpSteps ∧ (t.ph p).iPk = (s.ph p).iPk ∧ (t.ph p).cyc = (s.ph p).cyc) ∧
      (∀ j, j ≠ g → t.grp j = s.grp j) ∧ (s.tlk.causes[3] = false → t.evr = s.evs [(0x5041, 0x0100 + g.val, 0)])) ∧
  (∀ (p : Fin 64) (dead on_ : Nat) (s : State), (s.ph p).sitOut = 0 → (s.ph p).fpSteps ≠ 0 →
    ((s.cycleStart p false false dead on_).ph p).fpSteps = (s.ph p).fpSteps - 1 ∧
    ((s.cycleStart p false false dead on_).ph p).iPkCycle =
      s.peakLimit p.val + divHE (((s.ph p).iPk - s.peakLimit p.val) * (5 - ((s.ph p).fpSteps : Int))) 4) ∧
  (∀ (g : Fin 4) (s : State), (s.grp g).reinterleave = true → (s.grp g).reSteps = 3 →
    Gives (.reinterleaved g) s fun t =>
      t.grp g = { s.grp g with reinterleave := false, reSteps := 4 } ∧ (∀ j, j ≠ g → t.grp j = s.grp j) ∧
      (∀ p ∈ s.members g.val, t.ph p = { s.ph p with
        offset := (s.ph p).offsetTo, offsetFrom := (s.ph p).offsetTo
        active := (s.ph p).active || (s.ph p).joining, joining := false }) ∧
      t.evr = s.evs [(0x5012, 0x0100 + g.val, 0)]) ∧
  (∀ (g : Fin 4) (d : Nat) (l : List Nat) (s : State), (s.grp g).droopDue = d :: l → d ≤ s.sys.tick → s.droops g = false →
    exec (.disableDroopCheck g) s = .next (s.updGrp g fun x => { x with droopDue := l })) ∧
  (∀ (g : Fin 4) (d : Nat) (l : List Nat) (s : State), (s.grp g).droopDue = d :: l → d ≤ s.sys.tick →
    s.droops g = true →
    Gives (.disableDroopCheck g) s fun t =>
      t.grp g = { s.grp g with droopDue := l, lossReq := true } ∧ (∀ j, j ≠ g → t.grp j = s.grp j) ∧
      t.tlk.causes[1] = true ∧ t.tlk.throttleAll = true)

/-- Faults of phases (R187, R188, R194, R196). That event 0x5020 names the phase is DEDUCED (log entry 28). Where it touches them it states the
model's choices of log entries 72, 82, 130, 135. -/
def Obligations.FaultsOfPhases : Prop :=
  (∀ (p : Fin 64) (code : Int) (at_ : Nat) (s : State), s.scActs p code = false →
    exec (.shortCircuit p code at_) s = .next s) ∧
  (∀ (p : Fin 64) (g : Fin 4) (code : Int) (at_ : Nat) (s : State), s.phaseGroup p.val = some g → (s.ph p).scTicks = [] →
    s.scActs p code = true → 1 < (s.grp g).faultNow.scRetries →
    Gives (.shortCircuit p code at_) s fun t =>
      t.ph p = { s.cut p (s.instant at_) (s.ph p) with sitOut := 2, scCount := bump 16 (s.ph p).scCount, scTicks := [s.sys.tick] } ∧
      t.prot.tripCount = bump 32 s.prot.tripCount ∧ (∀ q, q ≠ p → t.ph q = s.ph q) ∧
      t.evr = s.evs [(0x5020, p.val, codeS 32 (sat32 (s.senseCurrent p code)))]) ∧
  (∀ (p : Fin 64) (g : Fin 4) (at_ : Nat) (s : State), s.phaseGroup p.val = some g → (s.grp g).state.switching = true →
    (s.ph p).fltLow = false → (s.ph p).disabled = false → (s.ph p).disableReq = .none →
    Gives (.driverFault p true at_) s fun t =>
      t.ph p = { s.cut p (s.instant at_) (s.ph p) with fltLow := true, disableReq := .driverFault } ∧
      (∀ q, q ≠ p → t.ph q = s.ph q) ∧ t.evr = s.evs [(0x5021, p.val, 0)]) ∧
  (∀ (p : Fin 64) (at_ : Nat) (s : State),
    exec (.driverFault p false at_) s = .next (s.updPh p fun x => { x with fltLow := false })) ∧
  (∀ (p : Fin 64) (g : Fin 4) (s : State), s.phaseGroup p.val = some g → (s.grp g).state.switching = true →
    (s.ph p).active = true → (s.ph p).disabled = false → (s.ph p).disableReq = .none →
    (s.grp g).faultNow.openCycles ≤ (s.ph p).openRun →
    exec (.phaseOpen p) s = .next (s.updPh p fun x => { x with disableReq := .phaseOpen })) ∧
  (∀ (p : Fin 64) (g : Fin 4) (s : State), s.phaseGroup p.val = some g → (s.grp g).state.switching = true →
    (s.ph p).active = true → (s.ph p).disabled = false → (s.ph p).disableReq = .none →
    500 * (s.grp g).faultNow.suspectMs ≤ (s.ph p).suspect →
    exec (.senseSuspect p) s = .next (s.updPh p fun x => { x with disableReq := .senseSuspect })) ∧
  (∀ (sess p : Fin 64) (g : Fin 4) (s : State), s.allows sess .osar = true → s.phaseGroup p.val = some g →
    (s.grp g).state.switching = true → (s.ph p).disabled = false → (s.ph p).disableReq = .none →
    exec (.disable sess p) s = .next (s.updPh p fun x => { x with disableReq := .operator })) ∧
  (∀ (p q : Fin 64) (g : Fin 4) (s : State), s.phaseGroup p.val = some g → (s.grp g).state.switching = true →
    (s.ph p).disableReq ≠ .none → (s.ph p).disabled = false → q ∈ s.actives g → q ≠ p →
    Gives (.phaseDisabled p) s fun t =>
      (t.ph p).active = false ∧ (t.ph p).disabled = true ∧ (t.ph p).cause = (s.ph p).disableReq ∧ t.sys.degraded = true ∧
      (t.grp g).reinterleave = true ∧ (t.grp g).droopDue = (s.grp g).droopDue ++ [s.sys.tick + 10] ∧ (t.grp g).state = (s.grp g).state ∧
      (t.ph q).active = true) ∧
  (∀ (p : Fin 64) (g : Fin 4) (s : State), s.phaseGroup p.val = some g → (s.grp g).state.switching = true →
    (s.ph p).disableReq ≠ .none → (s.ph p).disabled = false → s.actives g = [p] → s.sec.resetReq = none →
    s.prot.coolShutdown = false → s.sys.state ≠ .shipPrep →
    Gives (.phaseDisabled p) s fun t =>
      (t.ph p).disabled = true ∧ (t.grp g).droopDue = (s.grp g).droopDue ++ [s.sys.tick + 10] ∧ (t.grp g).state = .off ∧ t.sys.gdrvEn[g.val] = false ∧ t.sys.degraded = true) ∧
  (∀ (sess p : Fin 64) (g : Fin 4) (s : State), s.allows sess .osar = true → s.phaseGroup p.val = some g →
    (s.grp g).state.switching = true → (s.ph p).disabled = true → s.causeCleared p = true →
    Gives (.readmit sess p) s fun t =>
      (t.ph p).disabled = false ∧ (t.ph p).cause = .none ∧ (t.ph p).joining = true ∧ (t.ph p).trim = 0 ∧
      (t.grp g).reinterleave = true ∧ t.evr = s.evs [(0x5011, p.val, 0)])

/-- Synchronisation (R181), frames (R179) and the bus target (R182, R183). How HOLD_MS is judged is log entry 109. Where it touches them it states the
model's choices of log entries 29, 70, 88, 110. -/
def Obligations.SynchronisationAndFrames : Prop :=
  (∀ (g : Fin 4) (period : Nat) (s : State), s.follows g = true → (s.grp g).state.switching = true →
    10 * ((period : Int) - s.freePeriod g).natAbs ≤ s.freePeriod g →
    (s.grp g).sync = .free ∨ (s.grp g).sync = .hold ∨ (s.grp g).sync = .returning →
    Gives (.syncSlewing g period) s fun t =>
      t.clk = { s.clk with syncInActive := true } ∧
      t.grp g = { s.grp g with sync := .slewing, syncPeriod := period, syncFrom := (s.grp g).period } ∧
      ∀ j, j ≠ g → t.grp j = s.grp j) ∧
  (∀ (g : Fin 4) (edge : Nat) (s : State), s.lit = true → (s.grp g).sync = .slewing → (s.grp g).period = (s.grp g).syncPeriod →
    (((s.grp g).frameStart : Int) - s.lockedStart g edge).natAbs ≤ 1000 →
    Gives (.syncLocked g edge) s fun t =>
      t.grp g = { s.grp g with sync := .locked } ∧ (∀ j, j ≠ g → t.grp j = s.grp j) ∧
      t.evr = s.evs [(0x5060, 0x0100 + g.val, 0)]) ∧
  (∀ (g : Fin 4) (s : State), s.lit = true → (s.grp g).sync = .locked →
    Gives (.syncHoldover g) s fun t =>
      t.clk = { s.clk with syncInActive := false } ∧ t.grp g = { s.grp g with sync := .hold, syncHoldAt := s.sys.tick } ∧
      (∀ j, j ≠ g → t.grp j = s.grp j) ∧ t.evr = s.evs [(0x5061, 0x0100 + g.val, 0)]) ∧
  (∀ (g : Fin 4) (s : State), s.lit = true → (s.grp g).sync = .hold →
    s.elapsed (s.grp g).syncHoldAt (500 * max 1 (s.grp g).holdMs) = true →
    Gives (.syncReturning g) s fun t =>
      t.grp g = { s.grp g with sync := .returning, syncFrom := (s.grp g).period } ∧ ∀ j, j ≠ g → t.grp j = s.grp j) ∧
  (∀ (g : Fin 4) (s : State), s.lit = true → (s.grp g).sync = .returning →
    (s.grp g).period = s.freePeriod g →
    Gives (.syncFreeRun g) s fun t =>
      t.grp g = { s.grp g with sync := .free } ∧ (∀ j, j ≠ g → t.grp j = s.grp j) ∧
      t.evr = s.evs [(0x5062, 0x0100 + g.val, 0)]) ∧
  (∀ (g : Fin 4) (edge : Option Nat) (s : State), s.lit = true → (s.grp g).state = .running →
    (s.grp g).framing = true → (s.grp g).sync = .free → (s.grp g).reinterleave = false →
    Gives (.pwmFrameStart g edge) s fun t =>
      t.grp g = { s.grp g with
        frameStart := (s.grp g).frameStart + (s.grp g).period, period := s.freePeriod g
        frames := ((s.grp g).frameStart + (s.grp g).period, s.freePeriod g) :: (s.grp g).frames, ons := (t.grp g).ons } ∧
      (∀ j, j ≠ g → t.grp j = s.grp j) ∧ (∀ p, p ∉ s.actives g → t.ph p = s.ph p) ∧
      ∀ p ∈ s.actives g, t.ph p = { s.ph p with
        due := (s.ph p).due ++ [(s.grp g).frameStart + (s.grp g).period + (s.ph p).offset] }) ∧
  (∀ (sess : Fin 64) (v : BitVec 32) (s : State), s.allows sess .osar = true → s.pwm.profV = 0 → s.pwm.profA = 0 →
    Gives (.pwmBusSet sess v) s fun t =>
      t.pwm = { s.pwm with busSet := clampI (s.limit 5) (s.limit 4) v.toInt
                           clamped := clampI (s.limit 5) (s.limit 4) v.toInt != v.toInt } ∧
      t.evr = if clampI (s.limit 5) (s.limit 4) v.toInt = v.toInt then s.evr else s.evs [(0x5071, noInst, 0)])

/-- The bricks (R197, R199, R201, R210). Numbers in the frames lie least significant byte first by the model's choice (log
entry 90). Where it touches them it states the
model's choices of log entries 4, 90, 109, 110. -/
def Obligations.BrickPorts : Prop :=
  (∀ s : State, s.lit = true → s.cfg.activeValid = true → s.due 5 s.pwm.psuTick = true → (∀ p : Fin 16, (s.psuPort p).awaiting = false) →
    Gives .psuCommandFrame s fun t => t.pwm.psuTick = some s.sys.tick ∧ ∀ p : Fin 16, (s.psuRating p.val).isSome = true →
      t.psuPort p = { s.psuPort p with
        seq := wrapU 8 ((s.psuPort p).seq + 1), awaiting := true, enable := !(s.psuPort p).lost && !s.prot.busOv
        ilim := (s.psuPort p).nextIlim, vset := (s.psuPort p).nextVset } ∧
      .psu p.val (psuFrame (wrapU 8 ((s.psuPort p).seq + 1)) (!(s.psuPort p).lost && !s.prot.busOv)
        (s.psuPort p).nextIlim (s.psuPort p).nextVset) ∈ t.tx) ∧
  (∀ (p : Fin 16) (f : List Byte) (s : State), s.lit = true → (s.psuRating p.val).isSome = true → psuFrameOk f = true →
    leVal (bytesAt f 0 1) = (s.psuPort p).seq → tb (leVal (bytesAt f 1 1)) 1 = false →
    tb (leVal (bytesAt f 1 1)) 0 = true →
    exec (.psuTelemetry p f) s = .next (s.updPsu p fun x => { x with
      awaiting := false, missing := 0, clean := true, cleanAt := if x.clean = true then x.cleanAt else s.sys.tick
      status := leVal (bytesAt f 1 1) % 16, inputOk := tb (leVal (bytesAt f 1 1)) 4, offFrames := 0
      v := ofCode 32 (leVal (bytesAt f 2 4)), i := ofCode 32 (leVal (bytesAt f 6 4))
      p := ofCode 32 (leVal (bytesAt f 10 4)), temp := ofCode 16 (leVal (bytesAt f 14 2))
      faultCode := leVal (bytesAt f 16 2) })) ∧
  (∀ (p : Fin 16) (f : List Byte) (s : State), s.lit = true → (s.psuRating p.val).isSome = true → psuFrameOk f = true →
    leVal (bytesAt f 0 1) = (s.psuPort p).seq → tb (leVal (bytesAt f 1 1)) 1 = true → (s.psuPort p).inService = true →
    (s.psuPort p).lost = false →
    Gives (.psuTelemetry p f) s fun t =>
      (t.psuPort p).lost = true ∧ (t.psuPort p).inService = false ∧ (t.psuPort p).enable = false ∧
      t.pwm.lostPower = s.pwm.lostPower + ofCode 32 (leVal (bytesAt f 10 4)) ∧
      (∀ q, q ≠ p → t.psuPort q = s.psuPort q) ∧ t.evr = s.evs [(0x5080, 0x0200 + p.val, 0)]) ∧
  (∀ (p : Fin 16) (s : State), s.lit = true → (s.psuPort p).lost = true → (s.psuPort p).clean = true →
    s.elapsed (s.psuPort p).cleanAt 500000 = true →
    Gives (.psuRestored p) s fun t =>
      t.psuPort p = { s.psuPort p with lost := false, inService := true, missing := 0, offFrames := 0 } ∧
      (∀ q, q ≠ p → t.psuPort q = s.psuPort q) ∧ t.evr = s.evs [(0x5081, 0x0200 + p.val, 0)]) ∧
  (∀ (sess : Fin 64) (p : Fin 16) (s : State), s.allows sess .oa = true → (s.psuRating p.val).isSome = true →
    (s.psuPort p).lost = true → (s.psuPort p).clean = true →
    Gives (.restore sess p) s fun t =>
      t.psuPort p = { s.psuPort p with lost := false, inService := true, missing := 0, offFrames := 0 } ∧
      (∀ q, q ≠ p → t.psuPort q = s.psuPort q) ∧ t.evr = s.evs [(0x5081, 0x0200 + p.val, 0)])

/-- Evaluations and frames of the forecast engine (R215 to R217, R219, R223, R229, R231, R232, R247). That FRAME_ASSEMBLY,
FRAME_DEADLINE and LONG_STALE run for the tick that begins next is the model's choice (log entry 101), and so is when a
copy's range is free (log entry 102). Where it touches them it states the
model's choices of log entries 110. -/
def Obligations.EvaluationsAndFrames : Prop :=
  (∀ (i : Fin 10) (tIn ns : Nat) (e : Eval) (d : Rec) (s : State), s.lit = true →
    (s.finst i).flight.find? (fun x => x.tIn = tIn) = some e → e.old = none →
    s.evalModelRec i e = some d → s.evalReady i e = true →
    Gives (.forecastEvalDone i tIn ns) s fun t =>
      (t.finst i).flight = (s.finst i).flight.filter (fun x => x.tIn != tIn) ∧
      (t.finst i).evals = wrapU 32 ((s.finst i).evals + 1) ∧ (t.finst i).lastTin = max (s.finst i).lastTin tIn ∧
      (t.finst i).held = (s.finst i).held ∧ (t.finst i).misses = (s.finst i).misses ∧ (t.finst i).w = (s.finst i).w ∧
      (let m := evalModel { recs := s.modelRecs, d := d, inputs := e.inputs, w := s.headOf i s.modelRecs d, fv := s.fv }
          (s.finst i).stateMem;
        (t.finst i).nan = m.y.any fIsNaN ∧ (t.finst i).stateMem = (if m.y.any fIsNaN = true then [] else m.st) ∧
        (s.sys.tick < tIn + 1100000 → ∃ r ∈ (t.finst i).results, r.tIn = tIn ∧ r.h = m.h ∧ r.y = m.y ∧
          r.x = m.y.map (fun y => fToSat y d.outQ) ∧ r.nan = m.y.any fIsNaN)) ∧
      (∀ j, j ≠ i → t.finst j = s.finst j) ∧ t.fce.rounds = s.fce.rounds ∧ t.fce.short = s.fce.short) ∧
  (∀ (i : Fin 10) (tIn entry : Nat) (e : Eval) (s : State), s.lit = true →
    (s.finst i).flight.find? (fun x => x.tIn = tIn) = some e → s.copyReady i e entry = true →
    exec (.weightCopyDone i tIn entry) s = .next (s.updInst i fun x => { x with flight := x.flight.map fun y =>
      if y.tIn = tIn then { y with copiesLeft := y.copiesLeft.filter (· != entry) } else y })) ∧
  (∀ (i : Fin 10) (tIn entry : Nat) (e : Eval) (s : State), (s.finst i).flight.find? (fun x => x.tIn = tIn) = some e →
    s.copyReady i e entry = false → exec (.weightCopyDone i tIn entry) s = .next s) ∧
  (∀ (rd : Round) (s : State), s.lit = true → s.fce.rounds = [rd] → rd.tIn ≤ s.sys.tick → s.roundComplete rd = true →
    (if rd.long then s.fce.long else s.fce.short).lhat = [] ∨ (if rd.long then s.fce.long else s.fce.short).tIn < rd.tIn →
    Gives (.frameAssembly rd.long rd.tIn) s fun t =>
      (if rd.long then t.fce.long else t.fce.short) = s.frameOf rd (s.sys.tick + 1) ∧
      (if rd.long then t.fce.short else t.fce.long) = (if rd.long then s.fce.short else s.fce.long) ∧
      t.fce.longFresh = (s.fce.longFresh || rd.long) ∧ t.fce.inst = s.fce.inst ∧ t.fce.rounds = [] ∧
      t.evr = if (s.frameOf rd (s.sys.tick + 1)).partialFrame then s.evs [(0x6012, noInst, 0)] else s.evr) ∧
  (∀ (rd : Round) (s : State), s.lit = true → s.fce.rounds = [rd] → rd.tIn ≤ s.sys.tick → s.roundComplete rd = true →
    (if rd.long then s.fce.long else s.fce.short).lhat ≠ [] → rd.tIn ≤ (if rd.long then s.fce.long else s.fce.short).tIn →
    Gives (.frameAssembly rd.long rd.tIn) s fun t =>
      t.fce = { s.fce with rounds := [], discarded := bump 32 s.fce.discarded } ∧
      t.evr = s.evs [(0x6013, noInst, 0)]) ∧
  (∀ (rd : Round) (s : State), s.fce.rounds = [rd] → s.roundComplete rd = false →
    exec (.frameAssembly rd.long rd.tIn) s = .next s) ∧
  (∀ (rd : Round) (i : Fin 10) (e : Eval) (s : State), s.lit = true → s.fce.rounds = [rd] → rd.tIn ≤ s.sys.tick →
    rd.late (s.sys.tick + 1) = true → rd.due = [i.val] →
    (s.finst i).flight.find? (fun x => x.tIn = rd.tIn && !x.missed) = some e →
    Gives (.frameDeadline rd.long rd.tIn) s fun t =>
      (t.finst i).misses = bump 32 (s.finst i).misses ∧ (t.finst i).onTime = 0 ∧
      (t.finst i).flight = (s.finst i).flight.map (fun y => if y.tIn = rd.tIn then { y with missed := true } else y) ∧
      (t.finst i).divLog2 = (if (s.finst i).doublings = e.doublings ∧ (s.finst i).divLog2 < 6
        then (s.finst i).divLog2 + 1 else (s.finst i).divLog2) ∧
      (∀ j, j ≠ i → t.finst j = s.finst j) ∧ t.fce.rounds = []) ∧
  (∀ (s : State), s.lit = true → s.longStaleAt (s.sys.tick + 1) = true → (∀ rd ∈ s.fce.rounds, rd.long = false) →
    exec .longStale s = .next { s with fce := { s.fce with longFresh := false }, evr := s.evs [(0x6050, noInst, 0)] })

/-- Control of the forecast engine and its adaptive heads (R234, R237 to R239, R241, R246). That ADAPT_RESUMED and
HEAD_UPDATE run for the tick that begins next is the model's choice (log entry 101). The base weights of a head are those
its record gives; bytes no bit-stream wrote are free (log entry 7), so a head that reverts later in REVERT_ALL reads them
at a later count. -/
def Obligations.ForecastEngineAndHeads : Prop :=
  (∀ (sess : Fin 64) (v : Bool) (s : State), s.allows sess .oar = true →
    (v && s.inState [.armed, .run] && !s.fce.dieStop) = true → s.fce.running = false →
    Gives (.forecastEn sess v) s fun t =>
      t.fce = { s.fce with
        forecastEn := v, running := true, inst := s.fce.inst.map fun x => { x with stateMem := [] }
        short := { s.fce.short with valid := false }, long := { s.fce.long with valid := false } } ∧
      t.evr = s.evs [(0x6001, noInst, 0)]) ∧
  (∀ (sess : Fin 64) (v : Bool) (s : State), s.allows sess .oar = true →
    (v && s.inState [.armed, .run] && !s.fce.dieStop) = false → s.fce.running = true →
    Gives (.forecastEn sess v) s fun t =>
      t.fce = { s.fce with
        forecastEn := v, running := false, rounds := []
        inst := s.fce.inst.map fun x => { x with flight := [], copyWait := [] } } ∧
      t.evr = s.evs [(0x6002, noInst, 0)]) ∧
  (∀ (sess : Fin 64) (v : Bool) (s : State), s.allows sess .oar = true →
    (v && s.inState [.armed, .run] && !s.fce.dieStop) = s.fce.running →
    exec (.forecastEn sess v) s = .next { s with fce := { s.fce with forecastEn := v } }) ∧
  (∀ (sess : Fin 64) (v : Bool) (s : State), s.allows sess .oar = true →
    exec (.adaptEn sess v) s = .next { s with fce := { s.fce with adaptEn := v } }) ∧
  (∀ (sess : Fin 64) (i : Fin 10) (v : Bool) (s : State), (s.instModel i).isSome = true → s.allows sess .oar = true →
    exec (.adaptDis sess i v) s = .next (s.updInst i fun x => { x with adaptDis := v })) ∧
  (∀ (sess : Fin 64) (i : Fin 10) (v : Bool) (s : State), s.instModel i = none →
    exec (.adaptDis sess i v) s = .next s) ∧
  (∀ (sess : Fin 64) (i : Fin 10) (s : State), s.instModel i = none → exec (.revert sess i) s = .next s) ∧
  (∀ (sess : Fin 64) (i : Fin 10) (d : Rec) (s : State), s.instModel i = some d → s.allows sess .oar = true →
    d.adapts = true →
    Gives (.revert sess i) s fun t =>
      t.finst i = { s.finst i with
        w := some (baseHead s.modelRecs d s.fv)
        pMat := some (diagP (((baseHead s.modelRecs d s.fv).head?.map List.length).getD 0) (((s.headRec d).map fun r => r.u32 0x10).getD 0))
        ms := 0, errRms := 0, revertRun := 0, suspended := true, suspendTick := s.sys.tick
        reversions := bump 16 (s.finst i).reversions } ∧
      (∀ j, j ≠ i → t.finst j = s.finst j) ∧ t.evr = s.evs [(0x6030, i.val, 0)]) ∧
  (∀ (sess : Fin 64) (i : Fin 10) (d : Rec) (s : State), s.instModel i = some d → s.allows sess .oar = true →
    d.adapts = false → exec (.revert sess i) s = .next s) ∧
  (∀ (sess : Fin 64) (s : State), s.allows sess .oar = true →
    Gives (.revertAll sess) s fun t =>
      (∀ i d, s.instModel i = some d → d.adapts = true → ∃ n,
        t.finst i = { s.finst i with
          w := some (baseHead s.modelRecs d n)
          pMat := some (diagP (((baseHead s.modelRecs d n).head?.map List.length).getD 0) (((s.headRec d).map fun r => r.u32 0x10).getD 0))
          ms := 0, errRms := 0, revertRun := 0, suspended := true, suspendTick := s.sys.tick
          reversions := bump 16 (s.finst i).reversions }) ∧
      (∀ i, (∀ d, s.instModel i = some d → d.adapts = false) → t.finst i = s.finst i) ∧
      t.evr = s.evs (((List.finRange 10).filter fun i => (s.instModel i).any Rec.adapts).map fun i => (0x6030, i.val, 0))) ∧
  (∀ (i : Fin 10) (s : State), s.lit = true → s.holdoffOver i (s.sys.tick + 1) = true →
    exec (.adaptResumed i) s = .next ((s.updInst i fun x => { x with suspended := false }).ev 0x6033 i.val)) ∧
  (∀ (i : Fin 10) (s : State), s.lit = true → s.holdoffOver i (s.sys.tick + 1) = false →
    exec (.adaptResumed i) s = .next s) ∧
  (∀ (s : State), s.lit = true → s.fce.running = true → (s.sys.tick + 1) % 500 = 0 → s.fce.headAt ≠ s.sys.tick + 1 →
    exec .headUpdate s = .next ((List.finRange 10).foldl (State.headUpdate (s.sys.tick + 1))
      { s.noteSums (s.sys.tick + 1) with fce := { (s.noteSums (s.sys.tick + 1)).fce with headAt := s.sys.tick + 1 } })) ∧
  (∀ (s : State), s.fce.running = false ∨ (s.sys.tick + 1) % 500 ≠ 0 ∨ s.fce.headAt = s.sys.tick + 1 →
    exec .headUpdate s = .next s) ∧
  (∀ (i : Fin 10) (u : Nat) (s : State),
    (s.instModel i).any Rec.adapts = false ∨ s.fce.adaptEn = false ∨ (s.finst i).adaptDis = true ∨
      (s.finst i).suspended = true ∨ (s.finst i).active = false ∨ (s.finst i).trainable (instLong i) u = none →
    s.headUpdate u i = s) ∧
  (∀ (i : Fin 10) (u : Nat) (d r : Rec) (f : FResult) (acts : List Nat) (s : State), s.instModel i = some d →
    s.headRec d = some r → d.adapts = true → (s.finst i).active = true → s.fce.adaptEn = true → (s.finst i).adaptDis = false →
    (s.finst i).suspended = false → (s.finst i).trainable (instLong i) u = some f →
    ((List.range d.outLen).map fun j => s.actual (instRole i) (f.tIn + (if instLong i = true then 500 else 1) * (j + 1)) (instLong i))
      = acts.map some →
    (let x := s.finst i
     let base := baseHead s.modelRecs d s.fv
     let e := (acts.zip f.y).map fun a => fSub (fMul a.1 (fPow2 (-d.outQ))) a.2
     let n := rlsStep r base (x.w.getD base) (x.pMat.getD (diagP f.h.length (r.u32 0x10))) f.h e
     let bad := fLt (r.u32 0x1C) (fSum ((List.range f.h.length).map fun j => (n.2.1.getD j []).getD j 0))
       || n.2.1.any fun row => row.any fIsNaN
     let m := fMul (fDiv (fSum (e.map fun v => fMul v v)) (fOfInt d.outLen)) (fPow2 (2 * d.outQ))
     let ms := fAdd x.ms (fDiv (fSub m x.ms) (fOfInt 100))
     let run := if (!fIsNaN (fSqrt ms) && (fIsInf (fSqrt ms) || (r.u32 0x20 : Int) * 2 ^ 149 < fFix (fSqrt ms))) = true
       then x.revertRun + 1 else 0
     let t := s.headUpdate u i
     (run < r.u16 0x24 → (n.1.any fun row => row.any fIsNaN) = false →
       t.finst i = { x with
         w := some n.1, pMat := some (if bad = true then diagP f.h.length (r.u32 0x10) else n.2.1), guardClamped := n.2.2, ms := ms
         errRms := fSqrt ms, revertRun := run, pResets := if bad = true then bump 16 x.pResets else x.pResets } ∧
       t.evr = s.evs ((if n.2.2 = true then [(0x6031, i.val, 0)] else []) ++ if bad = true then [(0x6032, i.val, 0)] else [])) ∧
     (r.u16 0x24 ≤ run ∨ (n.1.any fun row => row.any fIsNaN) = true →
       (t.finst i).suspended = true ∧ (t.finst i).ms = 0 ∧ (t.finst i).reversions = bump 16 x.reversions ∧
       (t.finst i).w = some (baseHead s.modelRecs d (s.fv + 1))) ∧
     ∀ j, j ≠ i → t.finst j = s.finst j))

/-- Links and states of a tray port (R218, R258, R262, R263, R280, R282 to R284, R292). Each clause gives the whole next state
by the operations it names, and the clauses after them say what those do. That a port which its secondary grants to waits
for the next share is the model's reading of R282 (log entry 106), and how 20 us and 100 ms are judged is log entry 109. Where it touches them it states the
model's choices of log entries 13, 82. -/
def Obligations.PortsAndTheirLinks : Prop :=
  (∀ (n : Fin 64) (s : State), (s.port n).linked = false → (s.port n).debouncing = false → s.tlk.portsUp = true →
    (s.port n).state ≠ .unused →
    exec (.linkUp n) s = .next (((s.updPort n fun p => { p with
      linked := true, reportTick := s.sys.tick
      state := if p.state = .down then .identifying else p.state }).ev 0x7001 n.val).sendGrant n)) ∧
  (∀ (n : Fin 64) (s : State), (s.port n).linked = false → (s.port n).debouncing = false → s.tlk.portsUp = true →
    (s.port n).state = .unused → exec (.linkUp n) s = .next (s.updPort n fun p => { p with linked := true })) ∧
  (∀ (n : Fin 64) (s : State), s.tlk.portsUp = false ∨ (s.port n).linked = true ∨ (s.port n).debouncing = true →
    exec (.linkUp n) s = .next s) ∧
  (∀ (n : Fin 64) (s : State), (s.port n).linked = true → (s.port n).state ≠ .unused → (s.port n).granting = true →
    exec (.linkDown n) s =
      .next (s.updPort n fun x => { x with linked := false, debouncing := true, debTick := s.sys.tick })) ∧
  (∀ (n : Fin 64) (s : State), (s.port n).linked = true → (s.port n).state ≠ .unused → (s.port n).granting = false →
    exec (.linkDown n) s = .next ((((s.updPort n fun p => { p.unlink with
      state := if p.state = .locked then .locked else .down }).unserve n).ev 0x7002 n.val).settle)) ∧
  (∀ (n : Fin 64) (s : State), (s.port n).debouncing = true → s.sys.tick ≤ (s.port n).debTick + 10 →
    exec (.linkGlitch n) s =
      .next ((s.updPort n fun x => { x with linked := true, debouncing := false }).ev 0x7005 n.val)) ∧
  (∀ (n : Fin 64) (s : State), (s.port n).debouncing = false ∨ (s.port n).debTick + 10 < s.sys.tick →
    exec (.linkGlitch n) s = .next s) ∧
  (∀ (n : Fin 64) (s : State), (s.port n).debouncing = true → s.elapsed (s.port n).debTick 10 = true →
    exec (.surpriseRemoval n) s = .next ((((((if s.primaryTray n = true
        then s.frameDrop (((s.port n).report.map Report.pTotal).getD 0) else s).updPort n fun p => { p.unlink with
          state := .locked, debouncing := false, target := 0, lowered := false }).purgeTray n).degrade).ev 0x7040
      n.val).syncOverShare.settle)) ∧
  (∀ (n : Fin 64) (f : Sys2Proof.IdentFrame) (s : State), (s.port n).linked = true → s.tlk.portsUp = true → f.version = 1 →
    f.fixedFreqCap = true → f.subCapsCap = true → (s.port n).state = .identifying ∨ (s.port n).state = .drained →
    exec (.ident n f) s = .next ((((s.noteIdent n f).enterAfresh n).sendGrant n).tryPort n)) ∧
  (∀ (n : Fin 64) (f : Sys2Proof.IdentFrame) (s : State), (s.port n).linked = true → s.tlk.portsUp = true → f.version = 1 →
    f.fixedFreqCap = true → f.subCapsCap = true → (s.port n).state = .locked →
    exec (.ident n f) s = .next (((((s.noteIdent n f).ev 0x7041 n.val).enterAfresh n).sendGrant n).tryPort n)) ∧
  (∀ (n : Fin 64) (f : Sys2Proof.IdentFrame) (s : State), (s.port n).linked = true → s.tlk.portsUp = true → f.version = 1 →
    f.fixedFreqCap = true → f.subCapsCap = true →
    (s.port n).state ≠ .unused ∧ (s.port n).state ≠ .identifying ∧ (s.port n).state ≠ .drained ∧ (s.port n).state ≠ .locked →
    exec (.ident n f) s = .next ((s.noteIdent n f).sendGrant n)) ∧
  (∀ (n : Fin 64) (f : Sys2Proof.IdentFrame) (s : State), (s.port n).linked = false ∨ (s.port n).state = .unused ∨
    f.version ≠ 1 ∨ f.fixedFreqCap = false ∨ f.subCapsCap = false → exec (.ident n f) s = .next s) ∧
  (∀ (n : Fin 64) (s : State), (s.port n).linked = true → (s.port n).state.counted = true →
    exec (.drainReq n) s = .next ((((s.unserve n).updPort n fun p => { p.leave .draining with
      lowReports := 0, drainTick := s.sys.tick }).sendGrant n).syncOverShare)) ∧
  (∀ (n : Fin 64) (s : State), (s.port n).linked = false ∨ (s.port n).state.counted = false →
    exec (.drainReq n) s = .next s) ∧
  (∀ (sess n : Fin 64) (s : State), s.allows sess .or_ = true → (s.port n).state.counted = true →
    exec (.drain sess n) s = .next ((((s.unserve n).updPort n fun p => { p.leave .draining with
      lowReports := 0, drainTick := s.sys.tick }).sendGrant n).syncOverShare)) ∧
  (∀ (n : Fin 64) (s : State), (s.port n).state = .draining →
    s.elapsed (s.port n).drainTick 50000 = true ∨ 3 ≤ (s.port n).lowReports →
    exec (.drained n) s = .next (((((s.updPort n fun p => { p with state := .drained, target := 0 }).purgeTray n).ev 0x7042
      n.val).sendGrant n).syncOverShare)) ∧
  (∀ (n : Fin 64) (env : BitVec 16) (s : State), (s.port n).linked = true → (s.port n).state = .watch →
    s.sys.state = .run →
    exec (.takeoverReq n env) s = .next (((((s.updPort n fun p => { p with
      state := .takenOver, target := s.entryBound n (min env.toNat (s.maxEnv n.val)), shareSet := false
      lowered := false }).ev 0x7050 n.val).sendGrant n).tryPort n).syncOverShare)) ∧
  (∀ (n : Fin 64) (env : BitVec 16) (s : State), s.sys.state ≠ .run ∨ (s.port n).linked = false ∨ (s.port n).state ≠ .watch →
    exec (.takeoverReq n env) s = .next s) ∧
  (∀ (n : Fin 64) (s : State), s.inState [.boot, .standby, .armed] = true →
    s.enterAfresh n = s.updPort n fun p => p.leave .notReady) ∧
  (∀ (n : Fin 64) (s : State), s.inState [.basalt, .shipPrep] = true → s.enterAfresh n = s.updPort n fun p => p.leave .safe) ∧
  (∀ (n : Fin 64) (s : State), s.sys.state = .run → s.homing n.val = 2 →
    s.enterAfresh n = s.updPort n fun p => { p with state := .watch, target := 0, primaryDown := 0 }) ∧
  (∀ (n : Fin 64) (s : State), s.sys.state = .run → s.homing n.val ≠ 2 →
    s.enterAfresh n = s.updPort n fun p => { p with
      state := .active, shareSet := false, lowered := false, handback := p.report.any Report.grantFrom
      target := s.entryBound n ((p.report.map fun r => min r.envInForce (s.maxEnv n.val)).getD (s.safeEnv n.val)) }) ∧
  (∀ (n : Fin 64) (s : State), (∀ e ∈ (s.purgeTray n).tlk.table, e.mask ≠ 0 ∧ tb e.mask n.val = false) ∧
    (s.purgeTray n).tlk.placed = s.tlk.placed.filter (fun p => p.port != n.val) ∧
    (s.unserve n).tlk.placed = s.tlk.placed.filter (fun p => p.port != n.val || p.source == 0x1FF)) ∧
  (∀ (p : Nat) (s : State), (s.frameDrop p).fce.short.lhat = s.fce.short.lhat.map (fun x => sat32 (x - p)) ∧
    (s.frameDrop p).fce.long.lhat = s.fce.long.lhat.map (fun x => sat32 (x - p)))

/-- Reports and grants of the tray links (R251, R254 to R258, R262, R264, R265, R280, R282). That the last transmission of a grant
is given 4 us as the others is log entry 118, and TIME comes in ticks that are multiples of 50 (log entry 110). Where it touches them it states the
model's choices of log entries 106, 109. -/
def Obligations.ReportsAndGrants : Prop :=
  (∀ (n : Fin 64) (f : Sys2Proof.ReportFrame) (missing : Nat) (s : State), (s.port n).linked = true →
    (s.port n).state ≠ .unused → (s.port n).state ≠ .down →
    ¬((s.port n).state = .watch ∧ f.primaryUp = false ∧ 1 ≤ (s.port n).primaryDown) →
    ¬((s.port n).state = .takenOver ∧ f.grantFrom = false) →
    exec (.report n f missing) s = .next (s.takeReport n (reportOf f) missing)) ∧
  (∀ (n : Fin 64) (r : Report) (missing : Nat) (s : State),
    (s.takeReport n r missing).port n = ((s.checkReport n r).port n).noteReport r missing s.sys.tick ∧
    (∀ j, j ≠ n → (s.takeReport n r missing).port j = (s.checkReport n r).port j) ∧
    (s.takeReport n r missing).evr = (s.checkReport n r).evr ∧ (s.takeReport n r missing).tx = (s.checkReport n r).tx) ∧
  (∀ (n : Fin 64) (f : Sys2Proof.ReportFrame) (missing : Nat) (s : State), (s.port n).linked = true →
    (s.port n).state = .watch → f.primaryUp = false → 1 ≤ (s.port n).primaryDown → s.sys.state = .run →
    exec (.report n f missing) s = .next ((s.takeReport n (reportOf f) missing).takeOver n (wrapU 16 f.envInForce))) ∧
  (∀ (n : Fin 64) (f : Sys2Proof.ReportFrame) (missing : Nat) (s : State), (s.port n).linked = true →
    (s.port n).state = .takenOver → f.grantFrom = false →
    exec (.report n f missing) s = .next (((((s.takeReport n (reportOf f) missing).updPort n fun p => { p.leave .watch with
      primaryDown := 0 }).unserve n).ev 0x7051 n.val).sendGrant n).syncOverShare) ∧
  (∀ (n : Fin 64) (r : Report) (s : State), (s.port n).granting = false →
    s.checkReport n r = s.updPort n fun p => { p with overEnv := 0 }) ∧
  (∀ (n : Fin 64) (r : Report) (s : State), (s.port n).granting = true →
    (s.aboveEnv (s.port n) r = false ∨ (s.port n).overEnv = 0) →
    ((s.port n).report.any fun r1 => s.slopeBroken (s.port n) r1 r) = false →
    s.checkReport n r = s.updPort n fun p => { p with
      overEnv := if s.aboveEnv p r = true then p.overEnv + 1 else 0, nonCompliant := false
      badTick := if s.aboveEnv p r = true then s.sys.tick else p.badTick }) ∧
  (∀ (n : Fin 64) (r : Report) (s : State), (s.port n).granting = true → s.pol8 0x1A 0 ≠ 1 →
    (s.aboveEnv (s.port n) r = true ∧ 1 ≤ (s.port n).overEnv) ∨
      ((s.port n).report.any fun r1 => s.slopeBroken (s.port n) r1 r) = true →
    s.checkReport n r = (s.updPort n fun p => { p with
      overEnv := if s.aboveEnv p r = true then p.overEnv + 1 else 0, nonCompliant := true, nonComplLatch := true
      badTick := s.sys.tick, errCompl := bump 8 p.errCompl }).ev 0x7030 n.val) ∧
  (∀ (n : Fin 64) (s : State), (s.port n).linked = true → (s.port n).state ≠ .unused → (s.port n).state ≠ .down →
    (s.port n).reportStale = false → s.elapsed (s.port n).reportTick 15 = true →
    Gives (.reportStale n) s fun t =>
      t.port n = { s.port n with reportStale := true, missed := 3, errMissed := satU 8 ((s.port n).errMissed + 3) } ∧
      (∀ j, j ≠ n → t.port j = s.port j) ∧ t.evr = s.evs [(0x7031, n.val, 0)]) ∧
  (∀ (n : Fin 64) (gseq : BitVec 16) (result : Fin 3) (g : Grant) (s : State),
    (s.port n).unacked.find? (fun x => x.gseq = gseq.toNat) = some g →
    Gives (.ack n gseq result) s fun t =>
      t.port n = { s.port n with
        inForce := some g, gseqAck := g.gseq, floorUnreachable := decide (result = 1)
        unacked := (s.port n).unacked.takeWhile fun x => x.gseq != g.gseq
        ackTries := if (s.port n).sent = some g then 0 else (s.port n).ackTries
        lowerAck := if (s.port n).inForce.any (fun o => decide (g.envelope < o.envelope)) = true then some s.sys.timeNs
          else (s.port n).lowerAck
        lowerP := if (s.port n).inForce.any (fun o => decide (g.envelope < o.envelope)) = true
          then ((s.port n).report.map Report.pTotal).getD 0 else (s.port n).lowerP } ∧
      (∀ j, j ≠ n → t.port j = s.port j) ∧ t.evr = if result = 0 then s.evr else s.evs [(0x7011, n.val, 0)]) ∧
  (∀ (n : Fin 64) (gseq : BitVec 16) (result : Fin 3) (s : State),
    (s.port n).unacked.find? (fun x => x.gseq = gseq.toNat) = none →
    exec (.ack n gseq result) s = .next s) ∧
  (∀ (n : Fin 64) (g : Grant) (s : State), (s.port n).sent = some g → (s.port n).linked = true →
    (s.port n).ackTries = 1 ∨ (s.port n).ackTries = 2 → s.elapsed (s.port n).sentTick (2 * (s.port n).ackTries) = true →
    Gives (.grantResend n) s fun t =>
      t.port n = { s.port n with ackTries := (s.port n).ackTries + 1 } ∧ (∀ j, j ≠ n → t.port j = s.port j) ∧
      t.tlk.grantsSent = wrapU 32 (s.tlk.grantsSent + 1) ∧ t.tx = .tlk n.val g.frame :: s.tx ∧ t.evr = s.evr) ∧
  (∀ (n : Fin 64) (s : State), (s.port n).ackTries = 3 → s.elapsed (s.port n).sentTick 6 = true →
    Gives (.grantTimeout n) s fun t =>
      t.port n = { s.port n with ackTries := 0, errAck := bump 8 (s.port n).errAck } ∧
      (∀ j, j ≠ n → t.port j = s.port j) ∧ t.evr = s.evs [(0x7010, n.val, 0)]) ∧
  (∀ (n : Fin 64) (s : State), (s.port n).grants = true →
    Gives (.grantRefresh n) s fun t =>
      t.port n = { s.port n with sent := some (s.grantFor n), sentTick := s.sys.tick, ackTries := 1
                                 gseqSent := wrapU 16 ((s.port n).gseqSent + 1), envSent := s.grantEnv n
                                 unacked := s.grantFor n :: (s.port n).unacked } ∧
      t.tx = .tlk n.val (s.grantFor n).frame :: s.tx ∧ (∀ j, j ≠ n → t.port j = s.port j) ∧
      t.tlk.grantsSent = wrapU 32 (s.tlk.grantsSent + 1) ∧ t.evr = s.evr) ∧
  (∀ (n : Fin 64) (s : State), (s.port n).grants = false → exec (.grantRefresh n) s = .next s) ∧
  (∀ (n : Fin 64) (s : State), (s.port n).handback = false →
    (s.grantFor n).envelope = (match (s.port n).state with
      | .active | .takenOver => (s.port n).target
      | .watch | .draining | .drained => 0
      | _ => s.safeEnv n.val) ∧
    (s.grantFor n).state = (s.port n).state.grantState ∧ (s.grantFor n).gseq = wrapU 16 ((s.port n).gseqSent + 1)) ∧
  (∀ (s : State), s.due 50 s.tlk.timeTick = true →
    Gives .time s fun t =>
      t.tlk = { s.tlk with timeTick := some s.sys.tick } ∧
      (∀ n, (s.port n).carriesSets = true → .tlk n.val (timeFrame s.sys.timeNs) ∈ t.tx) ∧ ∀ o ∈ s.tx, o ∈ t.tx) ∧
  (∀ (s : State), s.due 50 s.tlk.timeTick = false → exec .time s = .next s) ∧
  (∀ (n : Fin 64) (s : State), (s.port n).state ≠ .unused →
    Gives (.trayFrameDropped n) s fun t =>
      t.port n = { s.port n with errCrc := bump 8 (s.port n).errCrc } ∧ (∀ j, j ≠ n → t.port j = s.port j) ∧
      t.evr = s.evr)

/-- The schedule table (R254, R258, R266 to R268, R270, R274). How the end of a movement is judged at a tick is log entry 109;
an entry whose slope comes out 0 is not placed by log entry 14. Where it touches them it states the
model's choices of log entries 58, 59, 104, 106. -/
def Obligations.ScheduleTable : Prop :=
  (∀ (n : Fin 64) (a : Sys2Proof.AnnounceEntry) (e : Entry) (s : State), (s.port n).linked = true →
    (s.port n).state ≠ .unused → (s.port n).state ≠ .down →
    e = { id := wrapU 32 a.id, t := wrapU 64 a.t, mask := 2 ^ n.val, dp := ofCode 32 a.dp, duration := wrapU 32 a.duration,
          kind := wrapU 8 a.kind, role := wrapU 8 a.role, source := n.val, roleApplied := false, offs := [] } →
    exec (.trayAnnounce n a) s =
      .next ((s.announce e).2.send (.tlk n.val (announceResult (wrapU 32 a.id) (s.announce e).1.1 (s.announce e).1.2)))) ∧
  (∀ (n : Fin 64) (a : Sys2Proof.AnnounceEntry) (s : State), (s.port n).linked = false ∨ (s.port n).state = .unused ∨
    (s.port n).state = .down → exec (.trayAnnounce n a) s = .next s) ∧
  (∀ (e : Entry) (st re : Nat) (s : State), e.source ≠ 0xFF → s.schedCheck e = some (st, re) →
    s.announce e = ((st, re), ({ s with tlk := { s.tlk with schedRefused := bump 32 s.tlk.schedRefused } }).ev 0x7060
      e.source (st + 256 * re + 65536 * (e.id % 65536)))) ∧
  (∀ (e : Entry) (u s : State), e.source ≠ 0xFF → s.schedCheck e = none → u = s.schedEvict e.source →
    tableCap ≤ u.tlk.table.length →
    s.announce e = ((3, 3), ({ u with tlk := { u.tlk with schedRefused := bump 32 u.tlk.schedRefused } }).ev 0x7060
      e.source (3 + 256 * 3 + 65536 * (e.id % 65536)))) ∧
  (∀ (e : Entry) (s : State), e.source ≠ 0xFF → s.schedCheck e = none → s.tlk.table.length < tableCap →
    s.sys.state = .armed →
    s.announce e = ((0, 0), let u := { s with tlk := { s.tlk with table := s.tlk.table ++ [e] } };
      if e.t < s.sys.timeNs + s.leadNs then u.ev 0x7062 e.source else u)) ∧
  (∀ (n : Fin 64) (e : Entry) (c sl d : Nat) (s : State), e.source = n.val → e.mask = 2 ^ n.val → s.schedCheck e = none →
    s.tlk.table.length < tableCap → s.allocOn = true → s.sys.timeNs + s.leadNs ≤ e.t → s.placeable n = true → 0 < e.dp →
    c = s.allocCap e true → sl = min (min (s.pol16 0x0C 0) (s.port n).slopeMax) c → sl ≠ 0 → d = ceilDiv e.dp.natAbs sl →
    (s.announce e).1 = (0, 0) ∧
    (s.announce e).2.tlk.placed = s.tlk.placed ++ [
      { port := n.val, entryId := e.id, source := n.val, t := e.t
        offset := min (s.findOffset true (e.t / 1000) 0 d sl c) 65535, dur := d, slope := sl, rising := true }]) ∧
  (∀ (n : Fin 64) (pl : Placement) (s : State), s.placedAt n.val = some pl → (s.port n).throttled = false →
    pl.t + 1000 * (pl.offset + pl.dur) + 10000 < s.sys.timeNs + 2000 →
    exec (.barrierComplete n) s = .next (((s.unplace n.val).sendGrant n).tryWaiters n) ∧
    (s.unplace n.val).placedAt n.val = none ∧ (s.unplace n.val).tlk.placed =
      s.tlk.placed.filter (fun p => p.port != n.val || p.source == 0x1FF)) ∧
  (∀ (n : Fin 64) (s : State), (s.port n).throttled = true ∨ s.placedAt n.val = none ∨
    (s.placedAt n.val).any (fun pl => decide (s.sys.timeNs + 2000 ≤ pl.t + 1000 * (pl.offset + pl.dur) + 10000)) = true →
    exec (.barrierComplete n) s = .next s) ∧
  (∀ (e : Entry) (id_ : BitVec 32) (src : BitVec 8) (s : State),
    s.tlk.table.find? (fun x => x.id = id_.toNat && x.source = src.toNat && x.t ≤ s.sys.timeNs && !x.roleApplied) = some e →
    e.role ≠ 0xFF →
    exec (.roleTagApplied id_ src) s = .next
      ({ s with tlk := { s.tlk with table := s.tlk.table.map fun x => if x = e then { x with roleApplied := true } else x } }.setRole
        ((List.finRange 64).filter fun n => tb e.mask n.val) e.role)) ∧
  (∀ (e : Entry) (id_ : BitVec 32) (src : BitVec 8) (s : State),
    s.tlk.table.find? (fun x => x.id = id_.toNat && x.source = src.toNat && x.t ≤ s.sys.timeNs && !x.roleApplied) = some e →
    e.role = 0xFF →
    exec (.roleTagApplied id_ src) s = .next
      { s with tlk := { s.tlk with table := s.tlk.table.map fun x => if x = e then { x with roleApplied := true } else x } }) ∧
  (∀ (id_ : BitVec 32) (src : BitVec 8) (s : State),
    s.tlk.table.find? (fun x => x.id = id_.toNat && x.source = src.toNat && x.t ≤ s.sys.timeNs && !x.roleApplied) = none →
    exec (.roleTagApplied id_ src) s = .next s) ∧
  (∀ (l : List (Fin 64)) (r : Nat) (s : State), ∀ n, ((s.setRole l r).port n).role = (if n ∈ l then some r else (s.port n).role) ∧
    ((s.setRole l r).port n).state = (s.port n).state ∧
    ((s.port n).grants = true → n ∈ l → (s.port n).roleTag ≠ r → ((s.setRole l r).port n).sent.map Grant.role = some r))

/-- THROTTLE and RELEASE (R252, R272, R273, R275, R276, R289, R292). How the hold of a cause is judged at ticks is the model's
choice (log entry 121). Where it touches them it states the
model's choices of log entries 58, 59, 104, 109. -/
def Obligations.ThrottleAndRelease : Prop :=
  (∀ (sess : Fin 64) (s : State), s.allows sess .or_ = true → s.tlk.throttleAll = false →
    Gives (.throttleAll sess) s fun t =>
      t.tlk.throttleAll = true ∧ t.tlk.releasing = false ∧ t.tlk.causes[4] = true ∧
      (∀ c : Fin 7, c ≠ 4 → t.tlk.causes[c.val] = s.tlk.causes[c.val]) ∧
      (∀ n, (s.port n).carriesSets = true → (t.port n).throttled = true ∧ (t.port n).tseq = wrapU 16 ((s.port n).tseq + 1) ∧
        .tlk n.val (orderedSet 0x55 (wrapU 16 ((s.port n).tseq + 1)) 5 0 0) ∈ t.tx) ∧
      (∀ n, (s.port n).carriesSets = false → t.port n = { s.port n with opCleared := false }) ∧
      t.evr = s.evs [(0x7020, noInst, 16)]) ∧
  (∀ (sess : Fin 64) (s : State), s.allows sess .or_ = true → s.allThrottled = true →
    Gives (.throttleAll sess) s fun t =>
      t.tlk = { s.tlk with causes := updV s.tlk.causes 4 fun _ => true
                           causeTick := updV s.tlk.causeTick 4 fun _ => s.sys.tick
                           port := s.tlk.port.map fun (x : Port) => { x with opCleared := false } } ∧ t.tx = s.tx ∧
      t.evr = s.evs [(0x7020, noInst, 16)]) ∧
  (∀ (sess n : Fin 64) (s : State), s.allows sess .or_ = true → s.tlk.throttleAll = false → s.tlk.releasing = false →
    (s.port n).carriesSets = true →
    Gives (.throttle sess n) s fun t =>
      (t.port n).thrOperator = true ∧ (t.port n).throttled = true ∧ (t.port n).tseq = wrapU 16 ((s.port n).tseq + 1) ∧
      t.tlk.throttleAll = false ∧ t.tlk.causes = s.tlk.causes ∧ (∀ j, j ≠ n → t.port j = s.port j) ∧
      t.tx = .tlk n.val (orderedSet 0x55 (wrapU 16 ((s.port n).tseq + 1)) 5 0 1) ::
        .tlk n.val (orderedSet 0x55 (wrapU 16 ((s.port n).tseq + 1)) 5 0 1) :: s.tx ∧
      t.evr = s.evs [(0x7020, n.val, 16)]) ∧
  (∀ (sess n : Fin 64) (s : State), s.allows sess .or_ = true → s.tlk.releasing = true → (s.port n).carriesSets = true →
    Gives (.throttle sess n) s fun t =>
      (t.port n).thrOperator = true ∧ t.tlk.throttleAll = true ∧ t.tlk.releasing = false ∧ t.tlk.thrRestart = true ∧
      (∀ m, (s.port m).carriesSets = true → (t.port m).throttled = true ∧
        .tlk m.val (orderedSet 0x55 (wrapU 16 ((s.port m).tseq + 1)) 5 0 0) ∈ t.tx) ∧
      t.evr = s.evs [(0x7020, n.val, 16)]) ∧
  (∀ (sess : Fin 64) (s : State), s.allows sess .or_ = true →
    (∀ c : Fin 7, c ≠ 4 → s.tlk.causes[c.val] = false) →
    (∀ n, (s.port n).throttled = false ∧ (s.port n).thrNoncompliant = false) →
    Gives (.releaseAll sess) s fun t =>
      t.tlk = { s.tlk with throttleAll := false, thrRestart := false, causes := updV s.tlk.causes 4 fun _ => false
                           port := s.tlk.port.map fun (x : Port) => { x with thrOperator := false, opCleared := false } } ∧
      t.tx = s.tx ∧ t.evr = s.evr) ∧
  (∀ (sess n : Fin 64) (s : State), s.allows sess .or_ = true → (s.port n).state ≠ .unused →
    s.tlk.throttleAll = false ∨ s.tlk.causes[4] = true → (∀ c : Fin 7, c ≠ 4 → s.tlk.causes[c.val] = false) →
    s.tlk.thrRestart = false → (s.port n).throttled = true → (s.port n).thrNoncompliant = false →
    (∀ j, j ≠ n → (s.port j).throttled = false) → s.tlk.table = [] →
    Gives (.release sess n) s fun t =>
      (t.port n).throttled = false ∧ (t.port n).thrOperator = false ∧ (∀ j, j ≠ n → t.port j = s.port j) ∧
      (t.port n).tseq = wrapU 16 ((s.port n).tseq + 1) ∧ t.tlk.throttleAll = s.tlk.throttleAll ∧
      (∃ d, t.tx = .tlk n.val (orderedSet 0x66 (wrapU 16 ((s.port n).tseq + 1)) 0 d 1) ::
        .tlk n.val (orderedSet 0x66 (wrapU 16 ((s.port n).tseq + 1)) 0 d 1) :: s.tx) ∧
      t.evr = s.evs [(0x7021, n.val, 0)]) ∧
  (∀ (c : Fin 7) (k : Sys2Proof.ClearedCause) (s : State),
    (k = .uvFastpath ∧ c = 0) ∨ (k = .phaseLoss ∧ c = 1) ∨ (k = .rackHold ∧ c = 2 ∧ s.sys.rackHoldSeen = false) →
    s.elapsed s.tlk.causeTick[c.val] (ceilDiv s.releaseHold 2) = true →
    s.tlk.causes[c.val] = true → (∃ d : Fin 7, d ≠ c ∧ d ≠ 4 ∧ s.tlk.causes[d.val] = true) →
    Gives (.throttleCauseClear k) s fun t =>
      t.tlk = { s.tlk with causes := updV s.tlk.causes c fun _ => false } ∧ t.evr = s.evr ∧ t.tx = s.tx) ∧
  (∀ (c : Fin 7) (k : Sys2Proof.ClearedCause) (s : State),
    (k = .uvFastpath ∧ c = 0) ∨ (k = .phaseLoss ∧ c = 1) ∨ (k = .rackHold ∧ c = 2 ∧ s.sys.rackHoldSeen = false) →
    s.elapsed s.tlk.causeTick[c.val] (ceilDiv s.releaseHold 2) = true → s.tlk.throttleAll = true →
    s.tlk.causes[c.val] = true → (∀ d : Fin 7, d ≠ c → s.tlk.causes[d.val] = false) →
    (∀ n, (s.port n).thrOperator = false ∧ (s.port n).thrNoncompliant = false) →
    Gives (.throttleCauseClear k) s fun t =>
      t.tlk.throttleAll = false ∧ t.tlk.causes[c.val] = false ∧
      ∀ n, (t.port n).throttled = false ∧ ((s.port n).throttled = true →
        ∃ d, .tlk n.val (orderedSet 0x66 (wrapU 16 ((s.port n).tseq + 1)) 0 d 0) ∈ t.tx)) ∧
  (∀ (n : Fin 64) (s : State), (s.port n).thrNoncompliant = true →
    s.elapsed (s.port n).badTick (ceilDiv s.releaseHold 2) = true → (∃ d : Fin 7, d ≠ 4 ∧ s.tlk.causes[d.val] = true) →
    Gives (.throttleCauseClear (.nonCompliant n)) s fun t =>
      t.port n = { s.port n with thrNoncompliant := false } ∧ (∀ j, j ≠ n → t.port j = s.port j) ∧ t.evr = s.evr) ∧
  (∀ (sess n : Fin 64) (s : State), s.allows sess .or_ = true → (s.port n).state ≠ .unused → s.tlk.releasing = false →
    (s.tlk.throttleAll = true ∧ (s.port n).throttled = true) ∨ (s.port n).carriesSets = false →
    exec (.throttle sess n) s = .next ((s.updPort n fun p => { p with thrOperator := true }).ev 0x7020 n.val 16)) ∧
  (∀ (sess n : Fin 64) (s : State), s.allows sess .or_ = true → (s.port n).state ≠ .unused →
    exec (.release sess n) s = .next ((s.updPort n fun p => { p with
      thrOperator := false, opCleared := s.tlk.causes[4] }).settle)) ∧
  (∀ (s : State), s.sys.rackHoldSeen = false → s.inState [.run, .basalt] = false →
    exec .rackHoldSeen s = .next ({ s with sys := { s.sys with rackHoldSeen := true } }.ev 0x7022)) ∧
  (∀ (s : State), s.sys.rackHoldDrive = true → exec .rackHoldCleared s = .next s) ∧
  (∀ (s : State), s.sys.rackHoldSeen = false → s.inState [.run, .basalt] = true →
    Gives .rackHoldSeen s fun t =>
      t.sys = { s.sys with rackHoldSeen := true } ∧ t.tlk.causes[2] = true ∧ t.tlk.throttleAll = true ∧
      t.evr = s.evs [(0x7022, noInst, 0), (0x7020, noInst, 4)]) ∧
  (∀ (s : State), s.sys.rackHoldSeen = true → s.sys.rackHoldDrive = false →
    Gives .rackHoldCleared s fun t =>
      t.sys = { s.sys with rackHoldSeen := false } ∧ t.tlk = s.tlk ∧ t.evr = s.evs [(0x7023, noInst, 0)]) ∧
  (∀ (s : State), s.sys.state = .run → s.tlk.shareT.all (fun t => decide (t + 3000000 < s.sys.timeNs + 2000)) = true →
    exec .shareStale s = .next { s with tlk := { s.tlk with shareStale := true } })

/-- Bring-up of a ring (R297 to R299, R302 to R304, R314, R315, R325). A train that leaves a port is sent with the ring's SEQ by the
model's choice (log entry 23), and EXPECT of REVCHECK is the node next to port B (log entry 108); how 5 s are judged is log
entry 109, and that a relock with another count enumerates afresh is log entry 35. Where it touches them it states the
model's choices of log entries 4, 50, 71, 82, 109, 133. -/
def Obligations.RingBringUp : Prop :=
  (∀ (c : Fin 4) (s : State), (s.ring c).state = .off → s.lit = true → s.clk.fabricStopped = false →
    exec (.ringBringUp c) s = .next ((s.updRing c fun r => { r.uncount with state := .waking }).send (.tone c.val))) ∧
  (∀ (c : Fin 4) (s : State), (s.ring c).state ≠ .off ∨ s.lit = false ∨ s.clk.fabricStopped = true →
    exec (.ringBringUp c) s = .next s) ∧
  (∀ (c : Fin 4) (cmd port addr : Nat) (args : List Byte) (s : State),
    s.train c cmd port addr args = { s with tx := .train c.val port (trainBytes cmd addr (s.ring c).seq args) :: s.tx }) ∧
  (∀ (c : Fin 4) (s : State), (s.ring c).state = .waking →
    exec (.resetAddr c) s = .next ((s.updRing c fun r => { r.uncount with
      state := .enumerating
      node := r.node.map fun x => { x with present := false, configured := false, diagDone := false
                                           cfgDelays := none, delayA := none, delayB := none } }).train2 c 0x01 0 [])) ∧
  (∀ (c : Fin 4) (s : State), (s.ring c).state ≠ .waking → exec (.resetAddr c) s = .next s) ∧
  (∀ (c : Fin 4) (count : Nat) (passed : Bool) (s : State), (s.ring c).state = .enumerating →
    exec (.enum c false count passed) s = .next ((s.updRing c fun r => { r with
      nA := count, enumPassed := passed, enumA := true }).train c 0x02 0 0xFE (stepArgs 0 true))) ∧
  (∀ (c : Fin 4) (count : Nat) (passed : Bool) (s : State), (s.ring c).state = .enumerating → (s.ring c).enumA = true →
    (s.ring c).enumPassed = false →
    exec (.enum c true count passed) s = .next ((s.updRing c fun r => { r with nB := count, enumB := true }).train c 0x02 1 0xFE
      (stepArgs (s.ring c).baseB false))) ∧
  (∀ (c : Fin 4) (fromB : Bool) (count : Nat) (passed : Bool) (s : State), (s.ring c).state ≠ .enumerating ∨
    (fromB = true ∧ ((s.ring c).enumA = false ∨ (s.ring c).enumPassed = true)) → exec (.enum c fromB count passed) s = .next s) ∧
  (∀ (c : Fin 4) (l : List Sys2Proof.ChainBlock) (s : State), (s.ring c).state = .enumerating → (s.ring c).enumA = true →
    exec (.revcheck c l) s = .next (((s.updRing c fun r => { r with
      revMismatch := r.revMismatch || (l.filter fun b => blockGood b 3).any fun b => blockByte b != 0
      revDone := true }).train c 0x03 1 0
        (stepArgs (if (s.ring c).enumPassed = true then (s.ring c).nA else (s.ring c).baseB - 1) false)).takeReplies c 3 l)) ∧
  (∀ (c : Fin 4) (l : List Sys2Proof.ChainBlock) (s : State), (s.ring c).state = .twoChain → (s.ring c).recheck = true →
    exec (.revcheck c l) s = .next (let u := (s.updRing c fun r => { r with recheck := false }).takeReplies c 3 l;
      if ((l.filter fun b => blockGood b 3).any fun b => blockByte b != 0) = true then (u.failRing c).armCheck else u)) ∧
  (∀ (c : Fin 4) (l : List Sys2Proof.ChainBlock) (s : State),
    ¬((s.ring c).state = .enumerating ∧ (s.ring c).enumA = true) → ¬((s.ring c).state = .twoChain ∧ (s.ring c).recheck = true) →
    exec (.revcheck c l) s = .next s) ∧
  (∀ (c : Fin 4) (s : State), s.failRing c =
    ((s.updRing c fun r => { r with state := .failed, failTick := s.sys.tick }).ev 0x8003 (chnInst c.val 0)).degrade) ∧
  (∀ (c : Fin 4) (n : Fin 16) (fromB : Bool) (trips : List Nat) (l : List Sys2Proof.ChainBlock) (s : State), trips.length = 8 →
    (s.ring c).state = .enumerating ∨ (s.ring c).state = .enumerated ∨ (s.ring c).state.up = true →
    exec (.echo c n fromB trips l) s = .next (
      let v := (List.range 8).foldl (fun s _ => s.train c 0x04 (if fromB = true then 1 else 0) (n.val + 1) []) s;
      let u := if (s.ring c).state.up = true ∧ n.val + 1 ≤ s.ringNodes c ∧ s.nodeMissing c (n.val + 1) = true
        then v.readdress c (n.val + 1) else v;
      let d := u.updNode c (n.val + 1) fun x =>
        if fromB = true then { x with delayB := some (echoDelay trips) } else { x with delayA := some (echoDelay trips) };
      (repliesOf (n.val + 1) 6 l).foldl (fun s b => s.nodeStatus c (n.val + 1) (blockWord b)) (d.takeReplies c 6 l))) ∧
  (∀ (c : Fin 4) (n : Fin 16) (fromB : Bool) (trips : List Nat) (l : List Sys2Proof.ChainBlock) (s : State), trips.length ≠ 8 ∨
    ((s.ring c).state ≠ .enumerating ∧ (s.ring c).state ≠ .enumerated ∧ (s.ring c).state.up = false) →
    exec (.echo c n fromB trips l) s = .next s) ∧
  (∀ (c : Fin 4) (s : State), (s.ring c).state = .enumerating → (s.ring c).counted = true → (s.ring c).relockBad = false →
    exec (.enumerated c) s = .next (
      let u := s.updRing c fun r => { r with state := .enumerated, relock := none };
      if s.cfg.activeValid = true then u.ringCheck c (s.ring c).relock.isSome else u)) ∧
  (∀ (c : Fin 4) (s : State), (s.ring c).state = .enumerating → (s.ring c).counted = true → (s.ring c).relockBad = true →
    exec (.enumerated c) s = .next (s.updRing c fun r => { r.uncount with state := .waking, relock := none })) ∧
  (∀ (c : Fin 4) (s : State), (s.ring c).state ≠ .enumerating ∨ (s.ring c).counted = false → exec (.enumerated c) s = .next s) ∧
  (∀ (c : Fin 4) (again : Bool) (s : State), (s.ring c).state = .enumerated → s.ringNodes c ≠ 0 → (s.ring c).enumPassed = true →
    (s.ring c).nA = s.ringNodes c → (s.ring c).nB = 0 → (s.ring c).revMismatch = false →
    ((s.ringCheck c again).ring c).state = .ring ∧ ((s.ringCheck c again).ring c).brk = none ∧
    ((s.ringCheck c again).ring c).split = s.splitNode c ∧
    (∀ n : Fin 16, ((s.ringCheck c again).ring c).node[n.val].present = decide (n.val < s.ringNodes c)) ∧
    (∀ j, j ≠ c → (s.ringCheck c again).ring j = s.ring j) ∧ (s.ringCheck c again).tx = s.tx ∧
    (s.ringCheck c again).evr = s.evs [(0x8001, chnInst c.val 0, 0)]) ∧
  (∀ (c : Fin 4) (again : Bool) (s : State), (s.ring c).state = .enumerated → s.ringNodes c ≠ 0 →
    (s.ring c).revMismatch = true ∨ s.ringNodes c < (s.ring c).nA + (s.ring c).nB ∨
      ((s.ring c).enumPassed = true ∧ (s.ring c).nA ≠ s.ringNodes c) →
    s.ringCheck c again = s.failRing c) ∧
  (∀ (c : Fin 4) (s : State), (s.ring c).state = .enumerated → s.ringNodes c ≠ 0 → (s.ring c).enumPassed = false →
    (s.ring c).nA + (s.ring c).nB = s.ringNodes c → (s.ring c).revMismatch = false →
    ((s.ringCheck c false).ring c).state = .twoChain ∧
    ((s.ringCheck c false).ring c).brk = some ((s.ring c).nA, s.ringNodes c + 1 - (s.ring c).nB) ∧
    ((s.ringCheck c false).ring c).split = (s.ring c).nA ∧
    ((s.ringCheck c false).ring c).recheck = decide ((s.ring c).nB ≠ 0) ∧ (s.ringCheck c false).sys.degraded = true ∧
    (s.ringCheck c false).tx = .train c.val 1 (trainBytes 0x03 0 (s.ring c).seq (stepArgs (s.ringNodes c) false)) ::
      .train c.val 1 (trainBytes 0x02 0xFE (s.ring c).seq (stepArgs (s.ringNodes c + 1) false)) ::
      .train c.val 1 (trainBytes 0x01 0 (s.ring c).seq []) :: s.tx ∧
    (∀ j, j ≠ c → (s.ringCheck c false).ring j = s.ring j) ∧
    (s.ringCheck c false).evr = s.evs [(0x8002, chnInst c.val 0, 0)]) ∧
  (∀ (c : Fin 4) (s : State), (s.ring c).state = .failed → s.sys.state = .boot ∨ s.sys.state = .standby →
    s.elapsed (s.ring c).failTick 2500000 = true →
    exec (.ringRetry c) s = .next (s.updRing c fun r => { r.uncount with state := .waking })) ∧
  (∀ (c : Fin 4) (s : State), (s.ring c).state ≠ .failed ∨ s.inState [.boot, .standby] = false ∨
    s.elapsed (s.ring c).failTick 2500000 = false → exec (.ringRetry c) s = .next s) ∧
  (∀ (sess : Fin 64) (c : Fin 4) (s : State), (s.ringRec c).isSome = true → s.allows sess .os = true →
    (s.ring c).state = .failed →
    exec (.reenum sess c) s = .next (s.updRing c fun r => { r.uncount with state := .waking })) ∧
  (∀ (sess : Fin 64) (c : Fin 4) (s : State), s.allows sess .os = true → (s.ring c).state ≠ .failed →
    exec (.reenum sess c) s = .next s)

/-- Sweeps of a ring and its breaks (R298, R299, R306, R307, R309 to R315, R321). How NEXT is bounded is the model's choice (log
entry 107). The values of a sweep are stated of the operation that begins a tick. Where it touches them it states the
model's choices of log entries 23, 82, 107, 108, 125, 133. -/
def Obligations.SweepsOfARing : Prop :=
  (∀ (c : Fin 4) (k tempNs : Nat) (u s : State), s.sweepsOn c = true → (s.ring c).sweep = none → s.sweepTicks c ≠ 0 →
    s.clk.fabricStopped = false → s.sweepReady c = true → u = s.cadence c tempNs →
    exec (.sample c k tempNs) s = .next (
      if k % (u.sweepTicks c * 2 ^ (u.ring c).slowLog2) = 0 ∧ u.leaveAt c (u.quietFor c (80000 * k)) / 80000 = u.sys.tick
      then u.sample c k (u.quietFor c (80000 * k)) else u)) ∧
  (∀ (c : Fin 4) (k tempNs : Nat) (s : State), s.sweepsOn c = false ∨ (s.ring c).sweep.isSome = true ∨ s.sweepReady c = false →
    exec (.sample c k tempNs) s = .next s) ∧
  (∀ (c : Fin 4) (k ts : Nat) (s : State),
    ((s.sample c k ts).ring c).seq = wrapU 8 ((s.ring c).seq + 1) ∧ ((s.sample c k ts).ring c).blanked = false ∧
    ((s.sample c k ts).ring c).sweep.map Sweep.seq = some (wrapU 8 ((s.ring c).seq + 1)) ∧
    ((s.sample c k ts).ring c).sweep.map Sweep.ts = some ts ∧ ((s.sample c k ts).ring c).sweep.map Sweep.blocks = some [] ∧
    ((s.sample c k ts).ring c).cell = (s.ring c).cell ∧ (∀ j, j ≠ c → (s.sample c k ts).ring j = s.ring j) ∧
    (s.sample c k ts).evr = s.evr ∧ ((s.ring c).twoSided = false → (s.ring c).state.up = true →
      (s.sample c k ts).tx = .train c.val 0 (trainBytes 0x10 0 (wrapU 8 ((s.ring c).seq + 1)) (leBytes 2 (s.ringDelay c) ++
        leBytes 2 (min 65535 ((80000 * (k + s.sweepTicks c) - ts) / 40000)) ++ leBytes 1 (s.ring c).split)) :: s.tx)) ∧
  (∀ (c : Fin 4) (fromB : Bool) (mask : BitVec 16) (l : List Sys2Proof.ChainBlock) (s : State), (s.ring c).sweep.isSome = true →
    exec (.readHeld c fromB mask l) s = .next ((s.train c 0x11 (if fromB = true then 1 else 0) 0 (leBytes 2 mask.toNat)).takeBlocks c
      (l.filter fun b => b.node != 0 && tb mask.toNat (b.node - 1)))) ∧
  (∀ (c : Fin 4) (fromB : Bool) (mask : BitVec 16) (l : List Sys2Proof.ChainBlock) (s : State), (s.ring c).sweep = none →
    exec (.readHeld c fromB mask l) s = .next s) ∧
  (∀ (c : Fin 4) (b : Sys2Proof.ChainBlock) (l : List Sys2Proof.ChainBlock) (s : State), blockGood b 29 = true →
    s.takeBlocks c (b :: l) = ((s.blockHead c b).updSweep c fun w => { w with
      blocks := w.blocks ++ [(blockFrom b, blockCodes b, blockBit b 6)] }).takeBlocks c l) ∧
  (∀ (c : Fin 4) (b : Sys2Proof.ChainBlock) (l : List Sys2Proof.ChainBlock) (s : State), blockGood b 29 = false →
    s.takeBlocks c (b :: l) = ((s.blockError c b.node).updSweep c fun w => { w with bad := w.bad ++ [b.node] }).takeBlocks c l ∧
    s.blockError c b.node = ((s.updRing c fun r => { r with blockErr := bump 32 r.blockErr }).updNode c b.node fun x => { x with
      errCrc := bump 16 x.errCrc }).ev 0x8020 (chnInst c.val b.node)) ∧
  (∀ (c : Fin 4) (l : List Sys2Proof.ChainBlock) (ns : Nat) (w : Sweep) (u s : State), u = s.takeBlocks c l →
    (s.ring c).sweep.isSome = true → (u.ring c).sweep = some w → u.breakShown c w = none →
    exec (.sweepComplete c l ns) s = .next (u.updRing c fun x => { x with sweep := none, sweepDue := some (w, ns) })) ∧
  (∀ (c : Fin 4) (l : List Sys2Proof.ChainBlock) (ns a b : Nat) (w : Sweep) (u s : State), u = s.takeBlocks c l →
    (s.ring c).sweep.isSome = true → (u.ring c).sweep = some w → u.breakShown c w = some (a, b) →
    exec (.sweepComplete c l ns) s = .next ((u.ringBreak c a b (some true)).updRing c fun x => { x with
      sweep := none, sweepDue := x.sweep.map fun w => (w, ns) })) ∧
  (∀ (c : Fin 4) (l : List Sys2Proof.ChainBlock) (ns : Nat) (s : State), (s.ring c).sweep = none →
    exec (.sweepComplete c l ns) s = .next s) ∧
  (∀ (c : Fin 4) (ns n i k : Nat) (codes : List Nat) (held : Bool) (w : Sweep) (s : State),
    n ∈ s.nodeList c → (i, k) ∈ s.cellsOf c n → 1 ≤ k → k ≤ 288 →
    (∀ m ∈ s.nodeList c, m ≠ n → ∀ x ∈ s.cellsOf c m, x.2 ≠ k) →
    w.blocks.find? (fun b => b.1 = n) = some (n, codes, held) → ((s.ring c).nodeAt n).present = true →
    ((s.ring c).nodeAt n).configured = true → ((s.ring c).nodeAt n).diagDone = true →
    ((s.ring c).nodeAt n).failedPaths[i]?.getD false = false →
    (((s.sweepEnd c w ns).ring c).cellAt k).valid = true ∧
    (((s.sweepEnd c w ns).ring c).cellAt k).v = 10000 + 5 * (codes.getD i 0 % 4096) ∧
    (((s.sweepEnd c w ns).ring c).cellAt k).held = held ∧ (((s.sweepEnd c w ns).ring c).cellAt k).seq = w.seq ∧
    (((s.sweepEnd c w ns).ring c).cellAt k).unmonitored = false) ∧
  (∀ (c : Fin 4) (ns n i k : Nat) (w : Sweep) (s : State),
    n ∈ s.nodeList c → (i, k) ∈ s.cellsOf c n → 1 ≤ k → k ≤ 288 →
    (∀ m ∈ s.nodeList c, m ≠ n → ∀ x ∈ s.cellsOf c m, x.2 ≠ k) → w.blocks.find? (fun b => b.1 = n) = none →
    (((s.sweepEnd c w ns).ring c).cellAt k).valid = false ∧
    (((s.sweepEnd c w ns).ring c).cellAt k).v = ((s.ring c).cellAt k).v) ∧
  (∀ (c : Fin 4) (n : Fin 16) (s : State), ((s.chainTick.ring c).node[n.val]).temp =
    ((s.ring c).node[n.val]).tempNext.getD ((s.ring c).node[n.val]).temp) ∧
  (∀ (c : Fin 4) (k : Fin 288) (n : Nat) (s : State),
    (s.nodeList c).find? (fun n => (s.cellsOf c n).any fun x => x.2 = k.val + 1) = some n →
    ((s.ring c).cellAt (k.val + 1)).unmonitored = false →
    ((s.ring c).cellAt (k.val + 1)).validAt + 500 * s.chn.staleMs ≤ s.sys.tick + 1 →
    exec (.cellsUnmonitored c k) s = .next ((((s.updCell c (k.val + 1) fun x => { x with
      unmonitored := true, unmonAt := s.sys.tick }).ev 0x8021 (chnInst c.val n)).degrade).armCheck)) ∧
  (∀ (c : Fin 4) (k : Fin 288) (s : State), ((s.ring c).cellAt (k.val + 1)).unmonitored = true ∨
    s.sys.tick + 1 < ((s.ring c).cellAt (k.val + 1)).validAt + 500 * s.chn.staleMs →
    exec (.cellsUnmonitored c k) s = .next s) ∧
  (∀ (c : Fin 4) (a b : Nat) (inSweep : Option Bool) (displaced lost : List Sys2Proof.GapOp) (s : State),
    (s.ring c).state.up = true → a < b → b ≤ s.ringNodes c + 1 →
    exec (.ringBroken c a b inSweep displaced lost) s = .next (
      let u := lost.foldl (fun s o => s.breakLost c o) (s.ringBreak c a b inSweep);
      if inSweep.isSome = true ∧ (s.ring c).sweep.isSome = true then u.gapDisplace c displaced else u)) ∧
  (∀ (c : Fin 4) (a b : Nat) (inSweep : Option Bool) (displaced lost : List Sys2Proof.GapOp) (s : State),
    (s.ring c).state.up = false ∨ b ≤ a ∨ s.ringNodes c + 1 < b →
    exec (.ringBroken c a b inSweep displaced lost) s = .next s) ∧
  (∀ (c : Fin 4) (n : Fin 16) (s : State),
    s.breakLost c (.bal n) = (s.setBal c (n.val + 1) ((s.ring c).nodeAt (n.val + 1)).balPrev).gapLost c (.bal n) ∧
    s.breakLost c (.diag n) = s.gapLost c (.diag n) ∧ s.breakLost c (.config n) = s.gapLost c (.config n) ∧
    s.breakLost c .slot = s) ∧
  (∀ (c : Fin 4) (a b : Nat) (s : State), (s.ring c).state = .ring → a < b → b ≤ s.ringNodes c + 1 → s.sys.passage = .none →
    ((s.ringBreak c a b none).ring c).state = .twoChain ∧ ((s.ringBreak c a b none).ring c).brk = some (a, b) ∧
    ((s.ringBreak c a b none).ring c).split = a ∧ ((s.ringBreak c a b none).ring c).nBreaks = bump 8 (s.ring c).nBreaks ∧
    ((s.ringBreak c a b none).ring c).probeA = (0, 0) ∧ ((s.ringBreak c a b none).ring c).probeB = (0, 0) ∧
    (∀ n : Fin 16, n.val < s.ringNodes c → ((s.ringBreak c a b none).ring c).node[n.val].present =
      ((s.ring c).node[n.val].present && !(decide (a < n.val + 1) && decide (n.val + 1 < b)))) ∧
    (s.ringBreak c a b none).sys.degraded = true ∧ (∀ j, j ≠ c → (s.ringBreak c a b none).ring j = s.ring j) ∧
    (b = a + 1 → (s.ringBreak c a b none).evr = s.evs [(0x8012, chnInst c.val 0, 0)])) ∧
  (∀ (c : Fin 4) (a : Nat) (w : Sweep) (s : State), (s.ring c).sweep = some w →
    s.breakSweep c true a = (s.updSweep c fun w => { w with kind := .split }).ev 0x8010 (chnInst c.val 0)) ∧
  (∀ (c : Fin 4) (fromB passed : Bool) (l : List Sys2Proof.ChainBlock) (a b : Nat) (s : State),
    (s.ring c).state.up = true ∨ (s.ring c).state = .enumerated → s.gapFor c (.probe 0) = true →
    ¬((s.ring c).state = .ring ∧ fromB = false ∧ passed = false) →
    exec (.probe c 0 fromB passed l a b) s = .next ((s.probeOut c 0 fromB l).probeSeen c 0 fromB passed)) ∧
  (∀ (c : Fin 4) (l : List Sys2Proof.ChainBlock) (a b : Nat) (s : State),
    (s.ring c).state = .ring → s.gapFor c (.probe 0) = true →
    exec (.probe c 0 false false l a b) s = .next ((s.probeOut c 0 false l).ringBreak c (min a (s.ringNodes c))
      (min (max b (min a (s.ringNodes c) + 1)) (s.ringNodes c + 1)) none)) ∧
  (∀ (c : Fin 4) (n : Fin 17) (fromB passed : Bool) (l : List Sys2Proof.ChainBlock) (a b : Nat) (s : State), n ≠ 0 →
    (s.ring c).state.up = true ∨ (s.ring c).state = .enumerated → s.gapFor c (.probe n) = true →
    exec (.probe c n fromB passed l a b) s = .next (((s.probeOut c n fromB l).probeSeen c n.val fromB
      (!(repliesOf n.val 6 l).isEmpty)).probeNode c n.val (s.probeAsked c n.val fromB) (repliesOf n.val 6 l))) ∧
  (∀ (c : Fin 4) (n : Fin 17) (fromB passed : Bool) (l : List Sys2Proof.ChainBlock) (a b : Nat) (s : State),
    ((s.ring c).state.up = false ∧ (s.ring c).state ≠ .enumerated) ∨ s.gapFor c (.probe n) = false →
    exec (.probe c n fromB passed l a b) s = .next s) ∧
  (∀ (c : Fin 4) (n : Fin 17) (fromB : Bool) (l : List Sys2Proof.ChainBlock) (s : State),
    s.probeOut c n fromB l = ((s.gapRun c (.probe n)).train c 0x31 (if fromB = true then 1 else 0) n.val []).takeReplies c 6 l) ∧
  (∀ (c : Fin 4) (n : Nat) (ok : Bool) (s : State), (s.ring c).state = .twoChain → n = s.probeTarget c false →
    s.probeSeen c n false ok = s.updRing c fun r => { r with probeA := probeCount s.sys.tick ok r.probeA }) ∧
  (∀ (c : Fin 4) (s : State), (s.ring c).state = .twoChain → 3 ≤ (s.ring c).probeA.1 → 3 ≤ (s.ring c).probeB.1 →
    (s.nodeList c).any (s.nodeMissing c) = false → s.delaysWritten c = true →
    exec (.ringRepaired c) s = .next ((s.updRing c fun r => { r with
      state := .ring, brk := none, split := s.splitNode c, probeA := (0, 0), probeB := (0, 0), nRepairs := bump 8 r.nRepairs
      nA := s.ringNodes c, nB := 0, enumPassed := true }).ev 0x8013 (chnInst c.val 0))) ∧
  (∀ (c : Fin 4) (s : State), (s.ring c).state ≠ .twoChain ∨ (s.ring c).probeA.1 < 3 ∨ (s.ring c).probeB.1 < 3 ∨
    (s.nodeList c).any (s.nodeMissing c) = true ∨ s.delaysWritten c = false → exec (.ringRepaired c) s = .next s) ∧
  (∀ (c : Fin 4) (l : List Sys2Proof.ChainBlock) (s : State), (s.ring c).state.up = true → (s.ring c).sweep = none →
    exec (.readTemp c l) s = .next ((s.broadcast c 0x12 []).takeTemps c l)) ∧
  (∀ (c : Fin 4) (l : List Sys2Proof.ChainBlock) (s : State), (s.ring c).state.up = false ∨ (s.ring c).sweep.isSome = true →
    exec (.readTemp c l) s = .next s) ∧
  (∀ (c : Fin 4) (b : Sys2Proof.ChainBlock) (s : State), s.ringNodes c = 1 → blockGood b 11 = true → blockFrom b = 1 →
    ∀ j : Fin 4, (((s.takeTemps c [b]).ring c).nodeAt 1).tempNext.map (fun v => v[j.val]) = some
      ((blockTemps b).getD j.val 0x8000 != 0x8000 && !((s.ring c).nodeAt 1).failedPaths[18],
        ofCode 16 ((blockTemps b).getD j.val 0x8000)))

/-- Commands to the nodes of a ring (R298, R303, R304, R310, R315 to R321, R323). How the three attempts of SHIP are timed is log
entry 132. Where it touches them it states the
model's choices of log entries 4, 23, 70, 82, 109, 132. -/
def Obligations.NodesAndTheirCells : Prop :=
  (∀ (c : Fin 4) (n : Fin 16) (l : List Sys2Proof.ChainBlock) (s : State), s.nodeGap c (n.val + 1) (.config n) = true →
    (s.ring c).recheck = false →
    ((s.ring c).nodeAt (n.val + 1)).delayA.isSome = true ∨ ((s.ring c).nodeAt (n.val + 1)).delayB.isSome = true →
    exec (.config c n l) s = .next (
      let u := ((s.gapRun c (.config n)).train c 0x05 (s.portTo c (n.val + 1)) (n.val + 1) (s.configArgs c (n.val + 1))).takeReplies
        c 3 l;
      if repliesOf (n.val + 1) 3 l = [] then u.gapLost c (.config n)
      else if ((repliesOf (n.val + 1) 3 l).any fun b => blockByte b = 0) = true then
        u.updNode c (n.val + 1) fun x => { x with configured := true, diagDone := false, cfgDelays := some (x.delayA, x.delayB) }
      else u)) ∧
  (∀ (c : Fin 4) (n : Fin 16) (l : List Sys2Proof.ChainBlock) (s : State), s.nodeGap c (n.val + 1) (.config n) = false ∨
    (s.ring c).recheck = true → exec (.config c n l) s = .next s) ∧
  (∀ (c : Fin 4) (n : Fin 16) (l : List Sys2Proof.ChainBlock) (b : Sys2Proof.ChainBlock) (s : State),
    s.nodeGap c (n.val + 1) (.diag n) = true → (repliesOf (n.val + 1) 40 l).getLast? = some b →
    exec (.diag c n l) s = .next (((((s.gapRun c (.diag n)).train c 0x30 (s.portTo c (n.val + 1)) (n.val + 1) []).takeReplies c 40
      l).diagResult c (n.val + 1) (blockDevs b)).updRing c fun r => { r with
        diagDue := r.diagDue && n.val + 1 != s.ringNodes c })) ∧
  (∀ (c : Fin 4) (n : Fin 16) (l : List Sys2Proof.ChainBlock) (s : State),
    s.nodeGap c (n.val + 1) (.diag n) = true → repliesOf (n.val + 1) 40 l = [] →
    exec (.diag c n l) s = .next (((((s.gapRun c (.diag n)).train c 0x30 (s.portTo c (n.val + 1)) (n.val + 1) []).takeReplies c 40
      l).gapLost c (.diag n)).updRing c fun r => { r with diagDue := r.diagDue && n.val + 1 != s.ringNodes c })) ∧
  (∀ (c : Fin 4) (n : Fin 16) (l : List Sys2Proof.ChainBlock) (s : State), s.nodeGap c (n.val + 1) (.diag n) = false →
    exec (.diag c n l) s = .next s) ∧
  (∀ (c : Fin 4) (n : Fin 16) (devs : List Int) (s : State), (s.ring c).node[n.val].configured = true →
    (∀ p : Fin 19, (s.ring c).node[n.val].failedPaths[p.val] = false) →
    (∀ p : Fin 19, (devs.getD p.val 0).natAbs ≤ 100 * s.chn.diagTol) →
    ((s.diagResult c (n.val + 1) devs).ring c).node[n.val].diagDone = true ∧
    (∀ p : Fin 19, ((s.diagResult c (n.val + 1) devs).ring c).node[n.val].failedPaths[p.val] = false ∧
      ((s.diagResult c (n.val + 1) devs).ring c).node[n.val].diagRun[p.val] = 0) ∧
    ((s.diagResult c (n.val + 1) devs).ring c).node[n.val].diagDev = (devs.map Int.natAbs).foldl max 0 ∧
    (∀ m : Fin 16, m ≠ n → ((s.diagResult c (n.val + 1) devs).ring c).node[m.val] = (s.ring c).node[m.val]) ∧
    (s.diagResult c (n.val + 1) devs).evr = s.evr) ∧
  (∀ (sess : Fin 64) (c : Fin 4) (s : State), (s.ringRec c).isSome = true → s.allows sess .oa = true →
    exec (.diagNow sess c) s = .next (if (s.ring c).state.up = true then s.updRing c fun r => { r with diagDue := true } else s)) ∧
  (∀ (c : Fin 4) (n : Fin 16) (s : State), s.nodeGap c (n.val + 1) (.bal n) = true →
    exec (.bal c n) s = .next ((((s.gapRun c (.bal n)).updNode c (n.val + 1) fun x => { x with balPrev := (x.bal, x.neigh) }).setBal c
      (n.val + 1) (s.balRequest c (n.val + 1))).train c 0x20 (s.portTo c (n.val + 1)) (n.val + 1)
      (leBytes 3 (s.balRequest c (n.val + 1)).1 ++ leBytes 1 (s.balRequest c (n.val + 1)).2))) ∧
  (∀ (c : Fin 4) (n : Fin 16) (s : State), s.nodeGap c (n.val + 1) (.bal n) = false → exec (.bal c n) s = .next s) ∧
  (∀ (c : Fin 4) (n : Fin 16) (q : Nat × Nat) (s : State),
    ((s.setBal c (n.val + 1) q).ring c).node[n.val] = { (s.ring c).node[n.val] with bal := q.1, neigh := q.2 } ∧
    (∀ m : Fin 16, m ≠ n → ((s.setBal c (n.val + 1) q).ring c).node[m.val] = (s.ring c).node[m.val])) ∧
  (∀ (c : Fin 4) (s : State), (s.ring c).state.up = true → s.gapFor c .slot = true →
    exec (.slot c) s = .next (((s.gapRun c .slot).updRing c fun r => { r with parity := !(s.ring c).parity }).broadcast c 0x21
      (leBytes 1 (bitAt (!(s.ring c).parity) 0)))) ∧
  (∀ (c : Fin 4) (s : State), (s.ring c).state.up = false ∨ s.gapFor c .slot = false → exec (.slot c) s = .next s) ∧
  (∀ (c : Fin 4) (s : State), s.sweepsOn c = true →
    exec (.blank c) s = .next ((s.updRing c fun r => { r with blanked := true, blankAt := s.sys.tick }).broadcast c 0x22 [])) ∧
  (∀ (c : Fin 4) (s : State), s.sweepsOn c = false → exec (.blank c) s = .next s) ∧
  (∀ (c : Fin 4) (onA onB : Bool) (lost : List Nat) (s : State), onA = true ∨ onB = true →
    (s.ring c).state ≠ .waking → (s.ring c).state ≠ .enumerating →
    (s.power.powered = true ∧ (s.ring c).state ≠ .off) ∨
      (s.power.powered = false ∧ (s.power.stby12Ok = true ∨ s.power.aux54Ok = true)) →
    exec (.wakeTone c onA onB lost) s = .next (
      let u := (s.updRing c fun r => { r with toneHeard := true, probeDue := r.probeDue || (s.ring c).state.up }).ev 0x8050
        (chnInst c.val 0) ((if onA = true then 1 else 0) + (if onB = true then 2 else 0));
      if (s.ring c).state.up = true ∧ (s.ring c).sweep = none then
        (lost.filter fun n => 0 < n && n ≤ s.ringNodes c).foldl (fun s n => s.readdress c n)
          ((s.nodeList c).foldl (fun s n => s.train c 0x31 (s.portTo c n) n []) u)
      else u)) ∧
  (∀ (c : Fin 4) (onA onB : Bool) (lost : List Nat) (s : State), (onA = false ∧ onB = false) ∨ (s.ring c).state = .waking ∨
    (s.ring c).state = .enumerating ∨ ((s.ring c).state = .off ∧ s.power.powered = true) →
    exec (.wakeTone c onA onB lost) s = .next s) ∧
  (∀ (c : Fin 4) (l : List Sys2Proof.ChainBlock) (s : State), (s.ring c).state = .shipping → s.sweepsOn c = false →
    (s.ring c).shipTries = 0 ∨ ((s.ring c).shipTries < 3 ∧ s.elapsed (s.ring c).shipAt 5000 = true) →
    exec (.ship c l) s = .next (((l.filter fun b => blockGood b 3 && blockByte b = 0).foldl
      (fun s b => s.updNode c (blockFrom b) fun x => { x with shipped := true })
      (((s.updRing c fun r => { r with
        sweep := none, sweepDue := none, started := false
        shipTries := r.shipTries + 1, shipAt := s.sys.tick }).train2 c 0x50 0 []).takeReplies c 3 l)).shipCheck c)) ∧
  (∀ (c : Fin 4) (l : List Sys2Proof.ChainBlock) (s : State), (s.ring c).state ≠ .shipping ∨ s.sweepsOn c = true ∨
    3 ≤ (s.ring c).shipTries → exec (.ship c l) s = .next s) ∧
  (∀ (c : Fin 4) (s : State), (s.ring c).state = .shipping →
    (∀ n ∈ s.nodeList c, ((s.ring c).nodeAt n).present = true → ((s.ring c).nodeAt n).shipped = true) →
    s.shipCheck c = (s.updRing c fun r => { r with state := .ship }).ev 0x8060 (chnInst c.val 0)) ∧
  (∀ (c : Fin 4) (n : Fin 16) (s : State), (s.ring c).state = .shipping →
    ((s.ring c).nodeAt (n.val + 1)).present = true → ((s.ring c).nodeAt (n.val + 1)).shipped = false →
    (s.ring c).shipTries = 3 → s.elapsed (s.ring c).shipAt 5000 = true →
    exec (.shipIncomplete c n) s = .next (((s.updNode c (n.val + 1) fun x => { x with present := false }).ev 0x8061
      (chnInst c.val (n.val + 1))).shipCheck c)) ∧
  (∀ (c : Fin 4) (n : Fin 16) (s : State), (s.ring c).state ≠ .shipping ∨ (s.ring c).shipTries ≠ 3 ∨
    ((s.ring c).nodeAt (n.val + 1)).shipped = true → exec (.shipIncomplete c n) s = .next s)

/-- The contactors of a string (R305, R315, R322, R325, R407). That an operator's CTR_OPEN ends a passage to ARMED is log entry 133. Where it touches them it states the
model's choices of log entries 23, 71, 82. -/
def Obligations.ContactorsOfAString : Prop :=
  (∀ (sess : Fin 64) (c : Fin 4) (s : State), (s.ringRec c).isSome = true → s.allows sess .osa = true →
    exec (.ctrOpen sess c) s = .next ((s.contactor c false).passageEnd)) ∧
  (∀ (sess : Fin 64) (c : Fin 4) (n : Nat) (s : State), (s.ringRec c).isSome = true → s.allows sess .osa = true →
    s.ctrNode c = some n → exec (.ctrClose sess c) s = .next (s.contactor c true)) ∧
  (∀ (sess : Fin 64) (c : Fin 4) (s : State), (s.ringRec c).isSome = true → s.allows sess .osa = true →
    s.ctrNode c = none → exec (.ctrClose sess c) s = .next (s.restoreString c)) ∧
  (∀ (c : Fin 4) (close : Bool) (s : State), (s.ring c).ctrCmd = some close →
    exec (.contactor c close) s = .next (s.contactor c close)) ∧
  (∀ (c : Fin 4) (close : Bool) (s : State), (s.ring c).ctrCmd ≠ some close → exec (.contactor c close) s = .next s) ∧
  (∀ (c : Fin 4) (n : Nat) (s : State), s.ctrNode c = some n → (s.ring c).state.up = true ∨ (s.ring c).state = .shipping →
    ((s.ring c).nodeAt n).present = true →
    s.contactor c false = (let u := (s.train c 0x40 (s.portTo c n) n (leBytes 1 0)).updRing c fun r => { r with
        ctr := .open_, ctrFaulted := false, ctrCmd := none };
      if (s.ring c).ctr = .open_ then u else u.ev 0x8071 (chnInst c.val n))) ∧
  (∀ (c : Fin 4) (n : Nat) (s : State), s.ctrNode c = some n → (s.ring c).state.up = true ∨ (s.ring c).state = .shipping →
    ((s.ring c).nodeAt n).present = true →
    s.contactor c true = (s.train c 0x40 (s.portTo c n) n (leBytes 1 1)).updRing c fun r =>
      if r.ctr = .closed then { r with ctrCmd := none } else { r with ctr := .precharge, ctrCmd := some true }) ∧
  (∀ (c : Fin 4) (n : Nat) (close : Bool) (s : State), s.ctrNode c = some n →
    ((s.ring c).state.up = false ∧ (s.ring c).state ≠ .shipping) ∨ ((s.ring c).nodeAt n).present = false →
    s.contactor c close = (s.train c 0x40 (s.portTo c n) n (leBytes 1 (bitAt close 0))).updRing c fun r => { r with
      ctrCmd := some close }) ∧
  (∀ (c : Fin 4) (n : Nat) (s : State), s.ctrNode c = some n → (s.ring c).ctr = .precharge →
    exec (.contactorClosed c) s = .next (((((s.updRing c fun r => { r with
      ctr := .closed, ctrFaulted := false, ctrCmd := none }).ev 0x8070 (chnInst c.val n)).restoreString c)).armDone)) ∧
  (∀ (c : Fin 4) (s : State), s.ctrNode c = none ∨ (s.ring c).ctr ≠ .precharge → exec (.contactorClosed c) s = .next s) ∧
  (∀ (c i : Fin 4) (s : State), s.ringStr c = i.val → (s.restoreString c).prot.str[i.val].isolated = false) ∧
  (∀ (c : Fin 4) (n : Nat) (s : State), s.ctrNode c = some n →
    exec (.contactorFault c) s = .next ((((s.updRing c fun r => { r with
      ctr := .fault, ctrFaulted := true, ctrCmd := none }).ev 0x8072 (chnInst c.val n)).degrade).armCheck)) ∧
  (∀ (c : Fin 4) (n : Nat) (s : State), s.ctrNode c = some n → s.sys.passage = .none →
    Gives (.contactorFault c) s fun t =>
      (t.ring c).ctr = .fault ∧ t.sys.degraded = true ∧ t.ringReady c = false ∧ ∀ j, j ≠ c → t.ring j = s.ring j) ∧
  (∀ (c : Fin 4) (s : State), s.ctrNode c = none → exec (.contactorFault c) s = .next s)

/-- Estimates of a string (R333, R334, R336, R343, R344, R346). That EST_UPDATE runs once in a tick that is a multiple of 500 is
log entry 110, and how CONFLICT_S is counted in updates is log entry 109. -/
def Obligations.EstimatesOfAString : Prop :=
  (∀ (i : Fin 4) (s : State), s.lit = true → s.due 500 s.est.estTick = true → s.sys.state = .run → i ∈ s.strings →
    (s.estr i).socSet = true → (s.shunt i).dead = false →
    Gives .estUpdate s fun t =>
      (t.estr i).soc = clampI 0 (10000 * 2 ^ 32) ((s.estr i).soc -
        divHE (((s.shunt i).q - (s.estr i).lastQ.getD (s.shunt i).q) * 10000 * 2 ^ 32)
          ((s.estr i).capMah * 3600000000).toNat) ∧
      (t.estr i).band = min ((s.estr i).band + divHE ((s.str16 i 0x3E 100 : Nat) * 2 ^ 32) 3600000 +
        divHE ((s.str16 i 0x40 50 * ((s.shunt i).q - (s.estr i).lastQ.getD (s.shunt i).q).natAbs : Nat) * 2 ^ 32)
          ((s.estr i).capMah * 3600000000).toNat) (10000 * 2 ^ 32) ∧
      (t.estr i).lastQ = some (s.shunt i).q ∧ (t.estr i).sumI = 0 ∧ (t.estr i).nI = 0 ∧
      (t.estr i).cap = (s.estr i).cap ∧ (t.estr i).rest = (s.estr i).rest) ∧
  (∀ (i : Fin 4) (s : State), s.lit = true → s.due 500 s.est.estTick = true → s.sys.state = .run → i ∈ s.strings →
    (s.estr i).socSet = true → (s.shunt i).dead = true →
    Gives .estUpdate s fun t =>
      (t.estr i).soc = (s.estr i).soc ∧
      (t.estr i).band =
        min ((s.estr i).band + 10 * divHE ((s.str16 i 0x3E 100 : Nat) * 2 ^ 32) 3600000) (10000 * 2 ^ 32)) ∧
  (∀ (i : Fin 4) (s : State), (s.estr i).socSet = false ∨ i ∉ s.strings →
    Gives .estUpdate s fun t => t.estr i = s.estr i) ∧
  (∀ (s : State), s.inState [.armed, .run, .basalt] = false ∨ s.due 500 s.est.estTick = false → exec .estUpdate s = .next s) ∧
  (∀ (i : Fin 4) (s : State), (s.estr i).conflict = false → 1000 * s.ecl16 0x16 10 ≤ (s.estr i).diffMs →
    Gives (.estConflict i) s fun t =>
      t.estr i = { s.estr i with conflict := true } ∧ (∀ j, j ≠ i → t.estr j = s.estr j) ∧
      t.evr = s.evs [(0x9020, i.val, 0)]) ∧
  (∀ (i : Fin 4) (s : State), (s.estr i).conflict = true ∨ (s.estr i).diffMs < 1000 * s.ecl16 0x16 10 →
    exec (.estConflict i) s = .next s) ∧
  (∀ (i : Fin 4) (s : State), (s.estr i).conflict = false ∨ (s.estr i).sameMs < 1000 * s.ecl16 0x16 10 →
    exec (.estConflictCleared i) s = .next s) ∧
  (∀ (i : Fin 4) (s : State), (s.estr i).conflict = true → 1000 * s.ecl16 0x16 10 ≤ (s.estr i).sameMs →
    Gives (.estConflictCleared i) s fun t =>
      t.estr i = { s.estr i with conflict := false } ∧ (∀ j, j ≠ i → t.estr j = s.estr j) ∧
      t.evr = s.evs [(0x9021, i.val, 0)])

/-- The planner (R345, R347, R349, R351, R357). That a cycle runs once in a tick that is a multiple of 50,000 is log entry 110. Where it touches them it states the
model's choices of log entries 26, 27. -/
def Obligations.PlannerCycle : Prop :=
  (∀ (defers : Bool) (s : State), s.lit = true → s.due 50000 s.est.planTick = true →
    exec (.plannerCycle defers) s = .next (
      if defers = true ∧ s.planner.net.telDisplaced = false then
        ({ s.planner with net := { s.planner.net with telDisplaced := true } }).displace 6 0 2 4
      else s.planner)) ∧
  (∀ (defers : Bool) (s : State), s.lit = false ∨ s.due 50000 s.est.planTick = false → exec (.plannerCycle defers) s = .next s) ∧
  (∀ (s : State), s.sys.state = .run →
    s.prot.coolN = 0 ∨ s.param 0x0013 0 = 0 ∨ divHE s.prot.coolSum s.prot.coolN < s.limit 10 →
    s.planner.est.ePlan = (s.healthyStrs.map fun i => s.energyTo i (s.socPlan i)).sum ∧
    s.planner.est.eRes = s.est.seconds * s.ratedW ∧
    s.planner.est.reserveLow = decide (s.planner.est.ePlan ≤ s.planner.est.eRes) ∧
    s.planner.est.gridLimit = min (s.psuCap : Int) ((s.est.gridAllow.map Int.ofNat).getD s.psuCap) ∧
    s.planner.est.gridLimited = decide (s.planner.est.gridTarget = s.planner.est.gridLimit) ∧
    s.planner.est.cycles = s.est.cycles + 1 ∧ s.planner.est.rampNow = s.est.ramp ∧ s.planner.est.amaxNow = s.est.amax ∧
    s.planner.est.jmaxNow = s.est.jmax ∧
    ∀ i, (s.planner.estr i).soc = (s.estr i).soc ∧ (s.planner.estr i).band = (s.estr i).band) ∧
  (∀ (s : State), s.sys.state ≠ .run →
    s.prot.coolN = 0 ∨ s.param 0x0013 0 = 0 ∨ divHE s.prot.coolSum s.prot.coolN < s.limit 10 →
    s.planner.est.ePlan = s.est.ePlan ∧ s.planner.est.eRes = s.est.eRes ∧ s.planner.est.reserveLow = s.est.reserveLow ∧
    s.planner.est.gridTarget = s.est.gridTarget ∧ s.planner.est.str = s.est.str ∧ s.planner.est.cycles = s.est.cycles ∧
    s.planner.tlk = s.tlk ∧ s.planner.pwm = s.pwm) ∧
  (∀ (s : State), s.est.accN ≠ 0 →
    s.planWindows = { s with est := { s.est with
      accLoad := 0, accStore := 0, accN := 0, peakNow := 0
      loadHist := (s.sys.tick, divHE s.est.accLoad s.est.accN) ::
        s.est.loadHist.filter fun x => s.sys.tick < x.1 + 500000 * s.res16 0x16 60
      storeHist := (s.sys.tick, divHE s.est.accStore s.est.accN) ::
        s.est.storeHist.filter fun x => s.sys.tick < x.1 + 500000 * max 1 s.est.ovlAvgS
      peakHist := (s.sys.tick, s.est.peakNow) :: s.est.peakHist.filter fun x => s.sys.tick < x.1 + 30000000 } })

/-- Rests of a string (R337 to R341, R343, R346, R353, R356). How 10 s, RELAX_S and REST_S are judged at ticks is log entry 109. -/
def Obligations.RestsOfStrings : Prop :=
  (∀ (s : State), s.sys.state = .run → s.est.blocked = true → s.elapsed s.est.triedTick 5000000 = true →
    exec .eclipseRetry s = .next s.restTry) ∧
  (∀ (s : State), s.sys.state ≠ .run ∨ s.est.blocked = false ∨ s.elapsed s.est.triedTick 5000000 = false →
    exec .eclipseRetry s = .next s) ∧
  (∀ (i : Fin 4) (s : State), s.restCandidate = some i → 2 ≤ s.healthyStrs.length →
    ({ s with est := { s.est with triedTick := s.sys.tick } }).restAllowed i = true →
    (s.restTry.estr i = { s.estr i with rest := .rampDown, restRamp := 50000, restAt := s.sys.tick, overMs := 0 }) ∧
    (∀ j, j ≠ i → s.restTry.estr j = s.estr j) ∧ s.restTry.est.blocked = false ∧ s.restTry.est.postponed = false ∧
    s.restTry.est.triedTick = s.sys.tick ∧ s.restTry.evr = s.evs [(0x9010, i.val, 0)]) ∧
  (∀ (i : Fin 4) (s : State), s.restCandidate = some i → 2 ≤ s.healthyStrs.length →
    ({ s with est := { s.est with triedTick := s.sys.tick } }).restAllowed i = false →
    s.restTry.est = { s.est with triedTick := s.sys.tick, blocked := true, postponed := true } ∧
    s.restTry.evr = if s.est.postponed = true then s.evr else s.evs [(0x9013, i.val, 0)]) ∧
  (∀ (s : State), s.healthyStrs.length < 2 → s.restTry = s) ∧
  (∀ (i : Fin 4) (s : State), (s.estr i).rest = .rampDown → (s.estr i).restRamp = 0 →
    (s.shunt i).i.natAbs ≤ s.restImax →
    exec (.relaxing i) s = .next (s.updStr i fun x => { x with
      rest := .relaxing, balSuspended := true, relaxAt := s.sys.tick, overMs := 0, readSum := 0, readN := 0, cellSums := [] })) ∧
  (∀ (i : Fin 4) (s : State), (s.estr i).rest ≠ .rampDown ∨ (s.estr i).restRamp ≠ 0 ∨
    s.restImax < (s.shunt i).i.natAbs → exec (.relaxing i) s = .next s) ∧
  (∀ (i : Fin 4) (s : State), (s.estr i).rest = .relaxing → s.elapsed (s.estr i).relaxAt (500000 * s.relaxS) = true →
    exec (.reading i) s = .next (s.updStr i fun x => { x with rest := .reading, readSum := 0, readN := 0, cellSums := [] })) ∧
  (∀ (i : Fin 4) (s : State), (s.estr i).rest ≠ .relaxing ∨ s.elapsed (s.estr i).relaxAt (500000 * s.relaxS) = false →
    exec (.reading i) s = .next s) ∧
  (∀ (i : Fin 4) (s : State), (s.estr i).rest = .reading →
    s.elapsed (s.estr i).relaxAt (500000 * s.restS) = true →
    Gives (.eclipseReading i) s fun t =>
      (t.estr i).rest = .rampUp ∧
      (t.estr i).soc = ocvSoc (s.ocvTab i) (10 * (if (s.estr i).readN = 0 then s.restVolt i
        else divHE (s.estr i).readSum (s.estr i).readN)) (256 * s.cells i) ∧
      (t.estr i).band = (s.str16 i 0x42 100 : Nat) * 2 ^ 32 ∧ (t.estr i).restT = s.sys.timeNs ∧
      (t.estr i).restCount = bump 16 (s.estr i).restCount ∧ (t.estr i).conflict = false ∧ (t.estr i).forced = false ∧
      (t.estr i).cap = ((s.newCap i (t.estr i).soc).getD (s.estr i).cap) ∧
      (∀ j, j ≠ i → t.estr j = s.estr j) ∧
      t.evr = s.evs ([(0x9011, i.val, 0)] ++ (if (s.estr i).conflict then [(0x9021, i.val, 0)] else []) ++
        (if (s.newCap i (t.estr i).soc).isSome then [(0x9025, i.val, 0)] else []))) ∧
  (∀ (i : Fin 4) (s : State), (s.estr i).rest ≠ .reading ∨ s.elapsed (s.estr i).relaxAt (500000 * s.restS) = false →
    exec (.eclipseReading i) s = .next s) ∧
  (∀ (i : Fin 4) (s : State), (s.estr i).rest = .rampUp → (s.estr i).restRamp = 50000 →
    exec (.restComplete i) s = .next (s.updStr i fun x => { x with rest := .idle, balSuspended := false })) ∧
  (∀ (i : Fin 4) (s : State), (s.estr i).rest ≠ .rampUp ∨ (s.estr i).restRamp ≠ 50000 → exec (.restComplete i) s = .next s) ∧
  (∀ (s : State), (List.finRange 4).any s.restOver = true → Gives .eclipseAborted s fun t =>
    (∀ i, t.estr i = if (s.estr i).rest.inRest then { s.estr i with rest := .rampUp } else s.estr i) ∧
    t.evr = s.evs (((List.finRange 4).filter fun i => (s.estr i).rest.inRest).map fun i => (0x9012, i.val, 0))) ∧
  (∀ (s : State), (List.finRange 4).any s.restOver = false → exec .eclipseAborted s = .next s) ∧
  (∀ (sess : Fin 64) (s : State), s.allows sess .or_ = true →
    Gives (.abortRest sess) s fun t =>
      (∀ i, t.estr i = if (s.estr i).rest.inRest then { s.estr i with rest := .rampUp } else s.estr i) ∧
      t.evr = s.evs (((List.finRange 4).filter fun i => (s.estr i).rest.inRest).map fun i => (0x9012, i.val, 0))) ∧
  (∀ (sess : Fin 64) (v : Bool) (s : State), s.allows sess .or_ = true →
    exec (.eclipseEn sess v) s = .next { s with est := { s.est with eclipseEn := v } }) ∧
  (∀ (sess : Fin 64) (mask : BitVec 4) (s : State), s.allows sess .or_ = true →
    Gives (.forceRest sess mask) s fun t =>
      (∀ i ∈ s.strings, tb mask.toNat i.val = true → t.estr i = { s.estr i with forced := true }) ∧
      (∀ i, i ∉ s.strings ∨ tb mask.toNat i.val = false → t.estr i = s.estr i) ∧ t.evr = s.evr)

/-- The Ethernet port (R362 to R365, R383, R386, R471). The form of the link-local address is PRESUMED (log entry 48), and so are
the numbers of the multicast groups (log entry 140). That protection is that of a live receive channel is log entry 131. Where it touches them it states the
model's choices of log entries 81, 106, 109, 124, 129. -/
def Obligations.EthernetPort : Prop :=
  (∀ (s : State), s.power.powered = true → s.power.inputLoss = false → s.net.linkUp = false →
    s.sec.fwRunning = true ∨ s.sec.recovery = true →
    exec .ethLinkUp s = .next ({ s with
      net := { s.net with linkUp := true, ready := s.net.ready || s.sec.hbmUp || s.sec.recovery }
      evr := s.evs [(0xA001, noInst, 0)] })) ∧
  (∀ (s : State), s.power.powered = false ∨ s.power.inputLoss = true ∨ s.net.linkUp = true ∨
    (s.sec.fwRunning = false ∧ s.sec.recovery = false) → exec .ethLinkUp s = .next s) ∧
  (∀ (s : State), s.net.linkUp = true →
    exec .ethLinkDown s = .next ({ s with net := { s.net with linkUp := false }, evr := s.evs [(0xA002, noInst, 0)] })) ∧
  (∀ (s : State), s.net.linkUp = false → exec .ethLinkDown s = .next s) ∧
  (∀ (sci : BitVec 64) (s : State), s.net.linkUp = true → s.net.cak.isSome = true → s.net.macsecUp = false → s.net.rxSc = [] →
    exec (.macsecUp sci) s = .next ({ s with
      net := { s.net with macsecUp := true, rxSc := [sci] }, evr := s.evs [(0xA003, noInst, 0)] })) ∧
  (∀ (sci : BitVec 64) (s : State), s.net.linkUp = true → s.net.cak.isSome = true → s.net.macsecUp = true →
    sci ∉ s.net.rxSc → s.net.rxSc.length < 4 →
    exec (.macsecUp sci) s = .next ({ s with net := { s.net with rxSc := s.net.rxSc ++ [sci] } })) ∧
  (∀ (sci : BitVec 64) (s : State), s.net.linkUp = false ∨ s.net.cak = none ∨ sci ∈ s.net.rxSc ∨ 4 ≤ s.net.rxSc.length →
    exec (.macsecUp sci) s = .next s) ∧
  (∀ (s : State), s.net.macsecUp = true →
    exec .macsecDown s = .next ({ s with
      net := { s.net with macsecUp := false, rxSc := [] }, evr := s.evs [(0xA004, noInst, 0)] })) ∧
  (∀ (s : State), s.net.macsecUp = false → exec .macsecDown s = .next s) ∧
  (∀ (f : Sys2Proof.FramePath) (v4 : Bool) (act : State → State) (s : State),
    (s.net.linkUp = false ∨ s.framed f = false → s.netIn f v4 act = s) ∧
    (s.net.linkUp = true → s.framed f = true → s.mustDrop f = true ∨ (v4 = true ∧ s.net.ipv4En = false) →
      s.netIn f v4 act = { s with net := { s.net with dropOther := bump 32 s.net.dropOther } }) ∧
    (s.net.linkUp = true → s.framed f = true → s.mustDrop f = false → v4 = false ∨ s.net.ipv4En = true →
      s.netIn f v4 act = act s)) ∧
  (∀ (f : Sys2Proof.FramePath) (s : State),
    (s.framed f = true ↔ f.mac ∈ s.macs ∧ (f.vid = none ∨ f.vid = some s.net.vlan) ∧ f.plain = true ∧ f.size ≤ 9216) ∧
    (s.mustDrop f = true ↔ s.net.macsecReq = true ∧ s.net.cak.isSome = true ∧ ∀ c ∈ s.net.rxSc, f.sci ≠ some c)) ∧
  (∀ (v6 : Bool) (f : Sys2Proof.FramePath) (ident : BitVec 32) (s : State), s.net.ready = true → s.net.linkUp = true →
    s.framed f = true → s.mustDrop f = false → v6 = true ∨ s.net.ipv4En = true →
    (s.net.echoes.filter fun t => s.sys.tick < t + 500000).length < 100 →
    exec (.icmpEchoRequest v6 f ident) s = .next ({ s with
      net := { s.net with echoes := s.sys.tick :: s.net.echoes.filter fun t => s.sys.tick < t + 500000 }
      tx := .echo s.tag v6 ident.toNat :: s.tx })) ∧
  (∀ (v6 : Bool) (f : Sys2Proof.FramePath) (ident : BitVec 32) (s : State), s.net.ready = true → s.net.linkUp = true →
    s.framed f = true → s.mustDrop f = false → v6 = true ∨ s.net.ipv4En = true →
    100 ≤ (s.net.echoes.filter fun t => s.sys.tick < t + 500000).length →
    exec (.icmpEchoRequest v6 f ident) s = .next ({ s with
      net := { s.net with echoes := s.net.echoes.filter fun t => s.sys.tick < t + 500000 } })) ∧
  (∀ (v6 arp : Bool) (f : Sys2Proof.FramePath) (ident : BitVec 32) (target : List Byte) (s : State),
    s.net.ready = true → s.net.linkUp = true → s.framed f = true →
    s.mustDrop f = true ∨ (v6 = false ∧ arp = true ∧ s.net.ipv4En = false) →
    exec (.icmpEchoRequest v6 f ident) s = .next s.dropOther ∧
    exec (.ndpArpRequest arp f target) s = .next s.dropOther) ∧
  (∀ (v6 arp : Bool) (f : Sys2Proof.FramePath) (ident : BitVec 32) (target : List Byte) (s : State),
    s.net.ready = false ∨ s.net.linkUp = false ∨ s.framed f = false →
    exec (.icmpEchoRequest v6 f ident) s = .next s ∧
    exec (.ndpArpRequest arp f target) s = .next s ∧
    exec (.unservedDatagram f) s = .next s) ∧
  (∀ (arp : Bool) (f : Sys2Proof.FramePath) (target : List Byte) (s : State), s.net.ready = true → s.net.linkUp = true →
    s.framed f = true → s.mustDrop f = false →
    (arp = false ∧ (target = s.linkLocal ∨ target = s.ip6Bytes)) ∨
      (arp = true ∧ s.net.ipv4En = true ∧ target = leBytes 4 s.net.ip4) →
    exec (.ndpArpRequest arp f target) s = .next { s with tx := .neighbour s.tag s.net.mac target :: s.tx }) ∧
  (∀ (arp : Bool) (f : Sys2Proof.FramePath) (target : List Byte) (s : State), s.net.ready = true → s.net.linkUp = true →
    s.framed f = true → s.mustDrop f = false →
    (arp = false ∧ target ≠ s.linkLocal ∧ target ≠ s.ip6Bytes) ∨
      (arp = true ∧ s.net.ipv4En = true ∧ target ≠ leBytes 4 s.net.ip4) →
    exec (.ndpArpRequest arp f target) s = .next s) ∧
  (∀ (f : Sys2Proof.FramePath) (s : State), s.net.ready = true → s.net.linkUp = true → s.framed f = true →
    exec (.unservedDatagram f) s = .next { s with net := { s.net with dropOther := bump 32 s.net.dropOther } }) ∧
  (∀ (s : State), s.sys.state = .run ∨ s.sys.state = .basalt → s.sys.orphan = false →
    s.elapsedNs s.net.rmFrom (1000000 * s.net.timeoutMs) = true →
    exec .orphanEntered s = .next (({ s with
      sys := { s.sys with orphan := true }
      tlk := { s.tlk with port := mapV s.tlk.port fun n p =>
        { p with orphanCap := some (if p.grants then s.grantEnv n else 0) } }
      evr := s.evs [(0xA040, noInst, 0)] }).regrant s)) ∧
  (∀ (s : State), s.inState [.run, .basalt] = false ∨ s.sys.orphan = true ∨
    s.elapsedNs s.net.rmFrom (1000000 * s.net.timeoutMs) = false → exec .orphanEntered s = .next s) ∧
  (∀ (q : Fin 16) (m : Msg) (l : List Msg) (s : State), s.sec.fwRunning = true ∨ s.sec.recovery = true →
    s.net.q[q.val].msgs = m :: l →
    exec (.fifoQDataRead q) s = .next (s.updQ q fun x =>
      if m.entries ≤ x.taken + 1 then { x with msgs := l, taken := 0, hand := x.hand ++ [m], stalled := false }
      else { x with taken := x.taken + 1, stalled := false }).shedCheck) ∧
  (∀ (q : Fin 16) (s : State), s.sec.fwRunning = true ∨ s.sec.recovery = true → s.net.q[q.val].msgs = [] →
    exec (.fifoQDataRead q) s = .next (s.updQ q fun x => { x with stalled := true }).shedCheck) ∧
  (∀ (q : Fin 16) (s : State), s.sec.fwRunning = false → s.sec.recovery = false → exec (.fifoQDataRead q) s = .next s)

/-- Sessions (R364, R371 to R374, R376, R383, R402). Each clause gives the whole next state by the operations it names, and
further clauses say what those do. The standards behind signatures and ciphers are PRESUMED (log entry 5), and the bytes of
HELLO_REPLY and the shared secrets that hang on the module's own keys are free values (log entry 7). That a datagram without
the header of R371 is dropped without an answer, what the signatures run over and the length of fragments are log entry 139.
Frames are protected where their receive channel is live (log entry 131). Where it touches them it states the
model's choices of log entries 4, 67, 78, 109, 130. -/
def Obligations.SessionsOpenAndClose : Prop :=
  (∀ (d : Sys2Proof.Datagram) (s : State),
    (hcpFramed d.bytes 1 = false ∨ s.net.linkUp = false ∨ s.framed d.path = false → exec (.hello d) s = .next s) ∧
    (s.net.ready = false ∨ hcpFramed d.bytes 3 = false ∨ s.net.linkUp = false ∨ s.framed d.path = false →
      exec (.finish d) s = .next s) ∧
    (s.net.ready = false ∨ hcpFramed d.bytes 0x10 = false ∨ s.net.linkUp = false ∨ s.framed d.path = false →
      exec (.secured d) s = .next s)) ∧
  (∀ (d : Sys2Proof.Datagram) (s : State), s.net.linkUp = true → s.framed d.path = true →
    s.mustDrop d.path = true ∨ (d.dst = 2 ∧ s.net.ipv4En = false) →
    (hcpFramed d.bytes 1 = true → exec (.hello d) s = .next s.dropOther) ∧
    (s.net.ready = true → hcpFramed d.bytes 3 = true → exec (.finish d) s = .next s.dropOther) ∧
    (s.net.ready = true → hcpFramed d.bytes 0x10 = true → exec (.secured d) s = .next s.dropOther)) ∧
  (∀ (d : Sys2Proof.Datagram) (s : State), hcpFramed d.bytes 1 = true → s.net.linkUp = true → s.framed d.path = true →
    s.mustDrop d.path = false → d.dst ≠ 2 ∨ s.net.ipv4En = true → s.net.ready = false →
    exec (.hello d) s = .next (s.reject d.peer d.port.toNat (at32 d.bytes 4) stNotReady)) ∧
  (∀ (d : Sys2Proof.Datagram) (s : State), hcpFramed d.bytes 1 = true → s.net.linkUp = true → s.framed d.path = true →
    s.mustDrop d.path = false → d.dst ≠ 2 ∨ s.net.ipv4En = true → s.net.ready = true → at32 d.bytes 4 ≠ 0 →
    (s.net.hs.find? fun h => !h.replied && h.peer == d.peer && h.port = d.port.toNat) = none →
    exec (.hello d) s = .next (s.reject d.peer d.port.toNat (at32 d.bytes 4) stMalformed)) ∧
  (∀ (d : Sys2Proof.Datagram) (s : State), hcpFramed d.bytes 1 = true → s.net.linkUp = true → s.framed d.path = true →
    s.mustDrop d.path = false → d.dst ≠ 2 ∨ s.net.ipv4En = true → s.net.ready = true → at32 d.bytes 4 = 0 →
    (s.net.hs.find? fun h => !h.replied && h.peer == d.peer && h.port = d.port.toNat) = none →
    8 ≤ s.net.hs.length ∨ s.freeSess = none →
    exec (.hello d) s = .next (s.reject d.peer d.port.toNat 0 stBusy)) ∧
  (∀ (d : Sys2Proof.Datagram) (n : Fin 64) (s : State), hcpFramed d.bytes 1 = true → s.net.linkUp = true →
    s.framed d.path = true → s.mustDrop d.path = false → d.dst ≠ 2 ∨ s.net.ipv4En = true → s.net.ready = true →
    at32 d.bytes 4 = 0 → (s.net.hs.find? fun h => !h.replied && h.peer == d.peer && h.port = d.port.toNat) = none →
    s.net.hs.length < 8 → s.freeSess = some n →
    exec (.hello d) s = .next (
      let h : Handshake := { sess := n.val, replied := false, peer := d.peer, port := d.port.toNat, dst := d.dst.val
                             at_ := s.rootNs }
      s.gatherHello d h (s.gather h d.bytes))) ∧
  (∀ (d : Sys2Proof.Datagram) (h : Handshake) (s : State), hcpFramed d.bytes 1 = true → s.net.linkUp = true →
    s.framed d.path = true → s.mustDrop d.path = false → d.dst ≠ 2 ∨ s.net.ipv4En = true → s.net.ready = true →
    (s.net.hs.find? fun h => !h.replied && h.peer == d.peer && h.port = d.port.toNat) = some h →
    exec (.hello d) s = .next (
      if at32 d.bytes 4 = 0 then (s.dropHs (· == h)).gatherHello d h (s.gather h d.bytes)
      else (s.dropHs (· == h)).reject d.peer d.port.toNat (at32 d.bytes 4) stMalformed)) ∧
  (∀ (h : Handshake) (b : List Byte) (s : State),
    (at32 b 12 = 0 ∨ 65536 < at32 b 12 ∨ at32 b 12 < at32 b 8 + (b.drop 16).length ∨ (h.parts ≠ [] ∧ h.total ≠ at32 b 12) →
      s.gather h b = .malformed) ∧
    (0 < at32 b 12 → at32 b 12 ≤ 65536 → at32 b 8 + (b.drop 16).length ≤ at32 b 12 → h.parts = [] ∨ h.total = at32 b 12 →
      (∀ p, (List.range (at32 b 12)).mapM (fragByte ({ off := at32 b 8, data := b.drop 16 } :: h.parts)) = some p →
        s.gather h b = .whole p) ∧
      ((List.range (at32 b 12)).mapM (fragByte ({ off := at32 b 8, data := b.drop 16 } :: h.parts)) = none →
        s.gather h b = .waits { h with
          total := at32 b 12, parts := { off := at32 b 8, data := b.drop 16 } :: h.parts
          partAt := if h.parts = [] then s.rootNs else h.partAt }))) ∧
  (∀ (d : Sys2Proof.Datagram) (h g : Handshake) (p : List Byte) (s : State),
    s.gatherHello d h .malformed = s.reject d.peer d.port.toNat (at32 d.bytes 4) stMalformed ∧
    s.gatherHello d h (.waits g) = { s with net := { s.net with hs := s.net.hs ++ [g] } } ∧
    s.gatherHello d h (.whole p) = (
      if helloFormed p = false then s.reject d.peer d.port.toNat (at32 d.bytes 4) stMalformed
      else if s.certOk (p.drop 0x6A1) = false then
        (s.reject d.peer d.port.toNat (at32 d.bytes 4) stDenied).ev 0xA012
      else s.answerHello h p)) ∧
  (∀ (h : Handshake) (p : List Byte) (s : State),
    s.answerHello h p = ({ s with
      fv := s.fv + 1
      net := { s.net with hs := s.net.hs ++
        [({ sess := h.sess, replied := true, peer := h.peer, port := h.port, dst := h.dst, at_ := s.rootNs
            role := (roleOf (at8 (p.drop 0x6A1) 2)).getD .monitor, rackManager := tb (at8 (p.drop 0x6A1) 3) 0
            holder := bytesAt (p.drop 0x6A1) 0x38 436, digest := sha384 (p ++ s.helloReply h.sess)
            txKey := s.sessKey (p.take 32) ((s.helloReply h.sess).take 32) infoM2c
            rxKey := s.sessKey (p.take 32) ((s.helloReply h.sess).take 32) infoC2m } : Handshake)] } }).sendPayload
      h.peer h.port 2 h.sess (s.helloReply h.sess)) ∧
  (∀ (peer p : List Byte) (port kind sess status : Nat) (s : State),
    s.sendPayload peer port kind sess p = { s with tx :=
      ((List.range (ceilDiv p.length 8968)).map fun k => Output.handshake s.tag peer port
        (hcpHdr kind sess (8968 * k + 2 ^ 32 * p.length) ++ bytesAt p (8968 * k) (min 8968 (p.length - 8968 * k)))).reverse
      ++ s.tx } ∧
    s.reject peer port sess status =
      { s with tx := .handshake s.tag peer port (hcpHdr 4 sess (2 ^ 32) ++ leBytes 1 status) :: s.tx }) ∧
  (∀ (d : Sys2Proof.Datagram) (s : State), s.net.ready = true → hcpFramed d.bytes 3 = true → s.net.linkUp = true →
    s.framed d.path = true → s.mustDrop d.path = false → d.dst ≠ 2 ∨ s.net.ipv4En = true →
    64 ≤ at32 d.bytes 4 ∨ (s.net.hs.find? fun h => h.sess = at32 d.bytes 4 && h.replied) = none →
    exec (.finish d) s = .next s) ∧
  (∀ (d : Sys2Proof.Datagram) (n : Fin 64) (h : Handshake) (s : State), s.net.ready = true → hcpFramed d.bytes 3 = true →
    s.net.linkUp = true → s.framed d.path = true → s.mustDrop d.path = false → d.dst ≠ 2 ∨ s.net.ipv4En = true →
    at32 d.bytes 4 = n.val → (s.net.hs.find? fun h => h.sess = n.val && h.replied) = some h →
    exec (.finish d) s = .next (
      let rest := { s with net := { s.net with hs := s.net.hs.filter fun x => x.sess != n.val } }
      match s.gather h d.bytes with
      | .malformed => rest.reject h.peer h.port n.val stMalformed
      | .waits g => { rest with net := { rest.net with hs := rest.net.hs ++ [g] } }
      | .whole p =>
        if p.length ≠ 16608 then rest.reject h.peer h.port n.val stMalformed
        else if rsaVerifies (bytesAt h.holder 0 4) (bytesAt h.holder 4 384) (p.take 384) h.digest = true ∧
            slhVerifies (bytesAt h.holder 388 48) (p.drop 384) h.digest = true then rest.openSess n h
        else (rest.reject h.peer h.port n.val stDenied).ev 0xA012 n.val)) ∧
  (∀ (n : Fin 64) (h : Handshake) (s : State),
    (s.openSess n h).sess n =
      { isOpen := true, role := h.role, rackManager := h.rackManager, peer := h.peer, port := h.port, dst := h.dst
        lastRx := s.rootNs, txKey := h.txKey, rxKey := h.rxKey, txSeq := 2 } ∧
    (∀ j, j ≠ n → (s.openSess n h).sess j = s.sess j) ∧
    (∀ c : Nat, (c = 1 ∧ h.role = .monitor) ∨ (c = 2 ∧ h.role = .operator) ∨ (c = 3 ∧ h.role = .integrator) →
      let m := innerBytes 2 0 flUnsolicited 0 (leBytes 1 c ++ leBytes 1 (bitAt h.rackManager 0) ++ leBytes 8 s.sys.timeNs)
      (s.openSess n h).tx = .hcp s.tag n.val 1 m (securedBytes h.txKey n.val 1 m) :: s.tx) ∧
    (s.openSess n h).evr = s.evs [(0xA010, n.val, 0)]) ∧
  (∀ (n : Fin 64) (s : State),
    exec (.handshakeTimeout n) s = .next { s with net := { s.net with
      hs := (s.net.hs.filter fun h => h.sess != n.val ||
          !(if h.replied then s.elapsedNs h.at_ 2000000000 else s.elapsedNs h.partAt 1000000000)).map fun (h : Handshake) =>
        if h.sess = n.val ∧ h.replied = true ∧ h.parts ≠ [] ∧ s.elapsedNs h.partAt 1000000000 = true then
          { h with total := 0, parts := [] } else h } }) ∧
  (∀ (d : Sys2Proof.Datagram) (s : State), s.net.ready = true → hcpFramed d.bytes 0x10 = true → s.net.linkUp = true →
    s.framed d.path = true → s.mustDrop d.path = false → d.dst ≠ 2 ∨ s.net.ipv4En = true →
    64 ≤ at32 d.bytes 4 ∨ (∃ n : Fin 64, at32 d.bytes 4 = n.val ∧ (s.sess n).isOpen = false) →
    exec (.secured d) s = .next { s with net := { s.net with dropAuth := bump 32 s.net.dropAuth } }) ∧
  (∀ (d : Sys2Proof.Datagram) (n : Fin 64) (s : State), s.net.ready = true → hcpFramed d.bytes 0x10 = true →
    s.net.linkUp = true → s.framed d.path = true → s.mustDrop d.path = false → d.dst ≠ 2 ∨ s.net.ipv4En = true →
    at32 d.bytes 4 = n.val → (s.sess n).isOpen = true → openSecured (s.sess n).rxKey d.bytes = none →
    exec (.secured d) s = .next (
      let t := ({ s with net := { s.net with dropAuth := bump 32 s.net.dropAuth } }).updSess n fun x =>
        { x with dropTag := bump 16 x.dropTag, tagRun := x.tagRun + 1 }
      if (s.sess n).tagRun < 63 then t else (t.ev 0xA013 n.val).closeSess n)) ∧
  (∀ (d : Sys2Proof.Datagram) (n : Fin 64) (m : List Byte) (s : State), s.net.ready = true →
    hcpFramed d.bytes 0x10 = true → s.net.linkUp = true → s.framed d.path = true → s.mustDrop d.path = false →
    d.dst ≠ 2 ∨ s.net.ipv4En = true → at32 d.bytes 4 = n.val → (s.sess n).isOpen = true →
    openSecured (s.sess n).rxKey d.bytes = some m → (s.sess n).fresh (leVal (bytesAt d.bytes 8 8)) = false →
    exec (.secured d) s = .next (({ s with net := { s.net with dropReplay := bump 32 s.net.dropReplay } }).updSess n fun x =>
      { x with dropReplay := bump 16 x.dropReplay, tagRun := 0 })) ∧
  (∀ (d : Sys2Proof.Datagram) (n : Fin 64) (m : List Byte) (s : State), s.net.ready = true →
    hcpFramed d.bytes 0x10 = true → s.net.linkUp = true → s.framed d.path = true → s.mustDrop d.path = false →
    d.dst ≠ 2 ∨ s.net.ipv4En = true → at32 d.bytes 4 = n.val → (s.sess n).isOpen = true →
    openSecured (s.sess n).rxKey d.bytes = some m → (s.sess n).fresh (leVal (bytesAt d.bytes 8 8)) = true →
    exec (.secured d) s = .next (
      let q := leVal (bytesAt d.bytes 8 8)
      let t := (s.updSess n fun x => x.take q s.rootNs).heard n
      if q < 2 ^ 63 then t.route n m else t.closeSess n)) ∧
  (∀ (x : Sess) (q now : Nat),
    (x.fresh q = true ↔ 1 ≤ q ∧ (x.rxSeq < q ∨ (x.rxSeq ≤ q + 1024 ∧ q ∉ x.window))) ∧
    x.take q now = { x with
      rxSeq := max x.rxSeq q, window := (q :: x.window).filter fun y => max x.rxSeq q ≤ y + 1024, tagRun := 0, lastRx := now }) ∧
  (∀ (n : Fin 64) (m : List Byte) (q : Fin 16) (s : State),
    (m.length < 24 → s.route n m = s) ∧
    (24 ≤ m.length → queueOf (at16 m 0) (at8 m 24) = none ∨ 8968 < m.length ∨ m.length ≠ 24 + at32 m 16 →
      s.route n m = s.sendTo n (at16 m 0) (at32 m 4) stMalformed flResponse []) ∧
    (24 ≤ m.length → m.length ≤ 8968 → m.length = 24 + at32 m 16 → queueOf (at16 m 0) (at8 m 24) = some q →
      ((s.net.shed1 = true ∧ shedTier q = 1) ∨ (s.net.shed2 = true ∧ shedTier q = 2) →
        s.route n m = ({ s with net := { s.net with busyCount := bump 32 s.net.busyCount } }).sendTo n (at16 m 0) (at32 m 4)
          stBusy flResponse []) ∧
      ((s.net.shed1 = false ∨ shedTier q ≠ 1) → (s.net.shed2 = false ∨ shedTier q ≠ 2) →
        s.route n m =
          if s.net.q[q.val].count + ceilDiv m.length 256 ≤ queueCap then
            s.enqueue q { sess := n.val, inner := m, arrival := s.rootNs }
          else ({ s with net := { s.net with
            q := updV s.net.q q fun x => { x with busy := bump 32 x.busy }
            busyCount := bump 32 s.net.busyCount } }).sendTo n (at16 m 0) (at32 m 4) stBusy flResponse []))) ∧
  (∀ (q : Fin 16) (m : Msg) (s : State), s.net.q[q.val].stalled = false →
    (s.enqueue q m).net.q[q.val].msgs = s.net.q[q.val].msgs ++ [m] ∧
    (s.enqueue q m).net.q[q.val].accepted = wrapU 32 (s.net.q[q.val].accepted + 1) ∧
    (∀ j : Fin 16, j ≠ q → (s.enqueue q m).net.q[j.val] = s.net.q[j.val]) ∧ (s.enqueue q m).net.sess = s.net.sess) ∧
  (∀ (n : Fin 64) (s : State), s.elapsedNs (s.sess n).lastRx (1000000000 * s.net.idleS) = true →
    exec (.sessionIdleTimeout n) s = .next (s.closeSess n)) ∧
  (∀ (n : Fin 64) (s : State), s.elapsedNs (s.sess n).lastRx (1000000000 * s.net.idleS) = false →
    exec (.sessionIdleTimeout n) s = .next s) ∧
  (∀ (sess n : Fin 64) (s : State), s.allows sess .oa = true → exec (.sessClose sess n) s = .next (s.closeSess n)) ∧
  (∀ (n : Fin 64) (s : State), (s.sess n).isOpen = false → s.closeSess n = s) ∧
  (∀ (n : Fin 64) (s : State), (s.sess n).isOpen = true →
    (s.closeSess n).sess n = {} ∧ (∀ j, j ≠ n → (s.closeSess n).sess j = s.sess j) ∧
    (s.closeSess n).net.blocks = (s.net.blocks.filter fun b => b.sess != n.val) ∧
    (s.closeSess n).net.q = (s.net.q.map fun (q : Queue) => { q with
      msgs := q.msgs.map fun (m : Msg) => if m.sess = n.val then { m with sess := noSess } else m
      hand := q.hand.map fun (m : Msg) => if m.sess = n.val then { m with sess := noSess } else m }) ∧
    (s.closeSess n).sys = { s.sys with latches := s.sys.latches.filter fun l => l.requester != n.val } ∧
    (if s.cfg.push.any (fun p => p.sess = n.val) = true then
      (s.closeSess n).cfg = { s.cfg with shadowState := .empty, shadow := none, staging := [], push := none } ∧
      (s.closeSess n).evr = s.evs [(0xA011, n.val, 0), (0x2005, noInst, 0)]
    else (s.closeSess n).cfg = s.cfg ∧ (s.closeSess n).evr = s.evs [(0xA011, n.val, 0)]))

/-- Messages of the HCP (R267, R374 to R379, R384, R437, R501). Each command carries out the message at the front of its
queue: the first clauses say how a message is served, and the others what each does. That the values of REG_READ are sampled
in address order and stand in the order of the request is log entry 139, and the registers of a read or a write are the
subject of other statements. Where it touches them it states the
model's choices of log entries 49, 50, 51, 55, 78, 79, 104. -/
def Obligations.MessagesAreServed : Prop :=
  (∀ (h : Sys2Proof.MsgHdr) (q : Fin 16) (ty : Nat) (role : Role) (body : List Byte) (f : State → State) (s : State),
    (s.qTurn q = false ∨ s.net.q[q.val].serve h ty body = none → s.serve h q ty role body f = s) ∧
    (∀ x, s.qTurn q = true → s.net.q[q.val].serve h ty body = some x → s.serve h q ty role body f =
      let t := (s.updQ q fun _ => { x.2 with servedAt := s.sys.tick }).shedCheck
      if (s.sess h.sess).isOpen = false then t
      else if h.validUntil.toNat ≠ 0 ∧ h.validUntil.toNat < s.sys.timeNs then t.reply h ty stStale
      else if s.sec.recovery = true ∧ ty ≠ 1 ∧ (ty < 0x50 ∨ 0x52 < ty) then t.reply h ty stNotReady
      else if (s.sess h.sess).role.atLeast role = false then t.reply h ty stDenied
      else if bodyFits ty x.1.body = false then t.reply h ty stMalformed
      else f t)) ∧
  (∀ (h : Sys2Proof.MsgHdr) (ty status : Nat) (body : List Byte) (s : State), (s.sess h.sess).isOpen = true →
    (s.sess h.sess).txSeq + 2 < 2 ^ 63 →
    s.reply h ty status body =
      (s.updSess h.sess fun x => { x with txSeq := x.txSeq + 1 }).send (s.answer h ty status body)) ∧
  (∀ (h : Sys2Proof.MsgHdr) (s : State),
    exec (.keepalive h) s = .next (s.serve h 1 0x01 .monitor [] fun s =>
      s.reply h 0x01 0 (leBytes 4 s.stateWord ++ leBytes 8 s.sys.timeNs ++ leBytes 8 s.sys.tick)) ∧
    exec (.close h) s = .next (s.serve h 0 0x03 .monitor [] fun s => (s.reply h 0x03 0).closeSess h.sess)) ∧
  (∀ (h : Sys2Proof.MsgHdr) (s : State), s.serves h 1 0x01 .monitor [] = true →
    Gives (.keepalive h) s fun t =>
      t.tx = s.answer h 0x01 0 (leBytes 4 s.stateWord ++ leBytes 8 s.sys.timeNs ++ leBytes 8 s.sys.tick) :: s.tx ∧
      t.sess h.sess = { s.sess h.sess with txSeq := (s.sess h.sess).txSeq + 1 } ∧
      t.net.q = (s.dequeue h 1 0x01 []).net.q ∧ t.sys = s.sys) ∧
  (∀ (h : Sys2Proof.MsgHdr) (s : State), s.serves h 0 0x03 .monitor [] = true → s.cfg.push = none →
    Gives (.close h) s fun t =>
      t.tx = s.answer h 0x03 0 :: s.tx ∧ (t.sess h.sess).isOpen = false ∧
      ∀ j, j ≠ h.sess → t.sess j = s.sess j) ∧
  (∀ (h : Sys2Proof.MsgHdr) (l : List Sys2Proof.AnnounceEntry) (ids : List (BitVec 32)) (s : State),
    exec (.announce h l) s = .next (s.serve h 5 0x20 .operator (announceBody l) fun s =>
      if l = [] ∨ 64 < l.length then s.reply h 0x20 6
      else (s.announceAll l).2.reply h 0x20 0 ((s.announceAll l).1.flatMap (leBytes 1))) ∧
    exec (.announceCancel h ids) s = .next (s.serve h 5 0x21 .operator
      (leBytes 2 ids.length ++ ids.flatMap fun i => leBytes 4 i.toNat) fun s =>
      if ids = [] ∨ 64 < ids.length then s.reply h 0x21 6
      else (s.cancelAll (ids.map BitVec.toNat)).2.reply h 0x21 0
        ((s.cancelAll (ids.map BitVec.toNat)).1.flatMap (leBytes 1)))) ∧
  (∀ (a : Sys2Proof.AnnounceEntry) (l : List Sys2Proof.AnnounceEntry) (s : State),
    (s.announceAll (a :: l)).2 = ((s.announce (hcpEntry a)).2.announceAll l).2 ∧
    (s.announceAll (a :: l)).1 = (s.announce (hcpEntry a)).1.1 :: (s.announce (hcpEntry a)).1.2 ::
      ((s.announce (hcpEntry a)).2.announceAll l).1 ∧
    (s.announceAll []).2 = s ∧ (s.announceAll l).1.length = 2 * l.length) ∧
  (∀ (i : Nat) (l : List Nat) (s : State),
    (s.cancelAll (i :: l)).2 = ((s.cancelEntry i).2.cancelAll l).2 ∧
    (s.cancelAll (i :: l)).1 = (s.cancelEntry i).1.1 :: (s.cancelEntry i).1.2 :: ((s.cancelEntry i).2.cancelAll l).1 ∧
    (s.cancelAll []).2 = s) ∧
  (∀ (i : Nat) (s : State),
    ((∀ e ∈ s.tlk.table, e.source ≠ 0xFF ∨ e.id ≠ i) → s.cancelEntry i = ((3, 4), s)) ∧
    ((∃ e ∈ s.tlk.table, e.source = 0xFF ∧ e.id = i) →
      (∀ e ∈ s.tlk.table, e.source = 0xFF → e.id = i → e.t ≤ s.sys.timeNs) → s.cancelEntry i = ((3, 1), s)) ∧
    ((∃ e ∈ s.tlk.table, e.source = 0xFF ∧ e.id = i ∧ s.sys.timeNs < e.t) →
      (s.cancelEntry i).1 = (0, 0) ∧
      (∀ e ∈ s.tlk.table, (e.source ≠ 0xFF ∨ e.id ≠ i) →
        ∃ x ∈ (s.cancelEntry i).2.tlk.table, x.id = e.id ∧ x.source = e.source ∧ x.t = e.t) ∧
      (∀ x ∈ (s.cancelEntry i).2.tlk.table, x.source = 0xFF → x.id = i → x.t ≤ s.sys.timeNs))) ∧
  (∀ (h : Sys2Proof.MsgHdr) (a : Sys2Proof.AnnounceEntry) (s : State), s.serves h 5 0x20 .operator (announceBody [a]) = true →
    s.sys.state = .armed → s.schedCheck (hcpEntry a) = none → s.tlk.table = [] →
    Gives (.announce h [a]) s fun t =>
      t.tlk.table = [hcpEntry a] ∧ t.tlk.port = s.tlk.port ∧
      t.tx = s.answer h 0x20 0 (leBytes 1 0 ++ leBytes 1 0) :: s.tx) ∧
  (∀ (h : Sys2Proof.MsgHdr) (i : BitVec 32) (e : Entry) (s : State),
    s.serves h 5 0x21 .operator (leBytes 2 1 ++ leBytes 4 i.toNat) = true →
    s.tlk.table = [e] → e.source = 0xFF → e.id = i.toNat → s.sys.timeNs < e.t → s.tlk.placed = [] →
    Gives (.announceCancel h [i]) s fun t =>
      t.tlk.table = [] ∧ t.tlk.port = s.tlk.port ∧ t.tx = s.answer h 0x21 0 (leBytes 1 0 ++ leBytes 1 0) :: s.tx) ∧
  (∀ (h : Sys2Proof.MsgHdr) (addrs : List (BitVec 32)) (s : State),
    exec (.regRead h addrs) s = .next (s.serve h 4 0x10 .monitor
      (leBytes 2 addrs.length ++ leBytes 2 0 ++ addrs.flatMap fun a => leBytes 4 a.toNat) fun s =>
      let order := ((addrs.map BitVec.toNat).zipIdx.map fun x => (x.2, x.1)).insertionSort fun x y => x.2 ≤ y.2
      let r := s.regReads h.sess.val (order.map (·.2))
      if addrs = [] ∨ 64 < addrs.length ∨ addrs.any (fun a => !addrOk a.toNat) = true then s.reply h 0x10 6
      else (r.2.2.violations r.2.1).reply h 0x10 0 ((List.range addrs.length).flatMap fun i =>
        leBytes 4 ((((order.map (·.1)).zip r.1).find? fun x => x.1 = i).elim 0 (·.2))))) ∧
  (∀ (h : Sys2Proof.MsgHdr) (a : BitVec 32) (s : State),
    s.serves h 4 0x10 .monitor (leBytes 2 1 ++ leBytes 2 0 ++ leBytes 4 a.toNat) = true → addrOk a.toNat = true →
    Gives (.regRead h [a]) s fun t =>
      let x := (s.dequeue h 4 0x10 (leBytes 2 1 ++ leBytes 2 0 ++ leBytes 4 a.toNat)).regRead h.sess.val a.toNat
      t.tx = s.answer h 0x10 0 (leBytes 4 (x.1.getD 0)) :: s.tx ∧
      t.sys.violCount = (if x.1.isNone = true then bump 32 s.sys.violCount else s.sys.violCount)) ∧
  (∀ (req a : Nat) (l : List Nat) (s : State),
    s.regReads req (a :: l) = ((((s.regRead req a).1.getD 0) :: ((s.regRead req a).2.regReads req l).1,
      (if (s.regRead req a).1.isNone = true then 1 else 0) + ((s.regRead req a).2.regReads req l).2.1,
      ((s.regRead req a).2.regReads req l).2.2))) ∧
  (∀ (h : Sys2Proof.MsgHdr) (pairs : List (BitVec 32 × BitVec 32)) (s : State),
    exec (.regWrite h pairs) s = .next (s.serve h 3 0x11 .operator
      (leBytes 2 pairs.length ++ leBytes 2 0 ++ pairs.flatMap fun p => leBytes 4 p.1.toNat ++ leBytes 4 p.2.toNat) fun s =>
      if pairs = [] ∨ 32 < pairs.length ∨ pairs.any (fun p => !addrOk p.1.toNat) = true then s.reply h 0x11 6
      else ((s.regWrites (s.sess h.sess).role s.sys.state (pairs.map fun p => (p.1.toNat, p.2.toNat))).reply
        h 0x11 0).closeBound s)) ∧
  (∀ (h : Sys2Proof.MsgHdr) (a : BitVec 32) (n : BitVec 16) (s : State),
    exec (.regReadBlock h a n) s = .next (s.serve h 13 0x12 .monitor (leBytes 4 a.toNat ++ leBytes 2 n.toNat) fun s =>
      if 0 < n.toNat ∧ n.toNat ≤ 2048 ∧ addrOk a.toNat = true ∧ a.toNat + 4 * n.toNat ≤ 2 ^ 24 then
        { s with net := { s.net with blocks := s.net.blocks ++
          [{ sess := h.sess.val, reqId := h.reqId.toNat, addr := a.toNat, left := n.toNat, values := [] }] } }
      else s.reply h 0x12 6)) ∧
  (∀ (h : Sys2Proof.MsgHdr) (a : BitVec 32) (n : BitVec 16) (s : State),
    s.serves h 13 0x12 .monitor (leBytes 4 a.toNat ++ leBytes 2 n.toNat) = true →
    0 < n.toNat → n.toNat ≤ 2048 → addrOk a.toNat = true → a.toNat + 4 * n.toNat ≤ 2 ^ 24 →
    Gives (.regReadBlock h a n) s fun t =>
      t.net.blocks = s.net.blocks ++
        [{ sess := h.sess.val, reqId := h.reqId.toNat, addr := a.toNat, left := n.toNat, values := [] }] ∧ t.tx = s.tx)

/-- Further messages of the HCP, and what subscriptions and fetches send (R79, R377, R380 to R382, R397, R437, R439, R448).
`serve` is the subject of another statement. That EVENTS runs on ticks that are multiples of the period is log entry 110, that an
image with the firmware magic is a firmware push is log entry 38, and the REASON of an unknown SUB_ID is log entry 139. Where it touches them it states the
model's choices of log entries 4, 7, 30, 47, 52, 67, 78, 79, 81, 109, 116, 130, 143. -/
def Obligations.SubscriptionsFetchesAndPushes : Prop :=
  (∀ (h : Sys2Proof.MsgHdr) (i kind : BitVec 8) (period mask : BitVec 16) (addrs : List (BitVec 32)) (s : State),
    exec (.subscribe h i kind period addrs mask) s = .next (s.serve h 6 0x30 .monitor
      (leBytes 1 i.toNat ++ leBytes 1 kind.toNat ++ leBytes 2 period.toNat ++
        (if kind = 1 then leBytes 2 mask.toNat else leBytes 2 addrs.length ++ addrs.flatMap fun a => leBytes 4 a.toNat)) fun s =>
      if i.toNat ≤ 15 ∧ 0 < period.toNat ∧ period.toNat ≤ 60000 ∧ (kind = 1 ∨ (kind = 0 ∧ addrs ≠ [] ∧ addrs.length ≤ 256 ∧
          addrs.all (fun a => addrOk a.toNat) = true)) then
        (s.updSess h.sess fun y => { y with subs := (y.subs.filter fun z => z.id != i.toNat) ++
          [{ id := i.toNat, events := kind = 1, periodMs := period.toNat
             addrs := if kind = 1 then [] else addrs.map BitVec.toNat
             classMask := mask.toNat, seq := 0, missed := 0, latched := none, lastLatch := none, sentUpTo := s.evr.seq
             dropped := 0 }] }).reply h 0x30 0
      else s.reply h 0x30 6)) ∧
  (∀ (h : Sys2Proof.MsgHdr) (i : BitVec 8) (s : State),
    exec (.unsubscribe h i) s = .next (s.serve h 6 0x31 .monitor (leBytes 1 i.toNat) fun s =>
      if (s.sess h.sess).subs.any (fun z => z.id = i.toNat) = true then
        (s.updSess h.sess fun y => { y with subs := y.subs.filter fun z => z.id != i.toNat }).reply h 0x31 0
      else s.reply h 0x31 3 [4#8])) ∧
  (∀ (n : Fin 64) (i : BitVec 8) (free : Bool) (s : State),
    (s.sub n i.toNat).elim true (fun x => x.events || x.latched.isNone || (!free && s.net.telDisplaced)) = true →
    exec (.telemetry n i free) s = .next s) ∧
  (∀ (n : Fin 64) (i : BitVec 8) (x : Sub) (vs : List Nat) (tick time : Nat) (s : State), (s.sess n).isOpen = true →
    s.sub n i.toNat = some x → x.events = false → x.latched = some (vs, tick, time) → s.net.telDisplaced = false →
    (s.sess n).txSeq + 2 < 2 ^ 63 →
    exec (.telemetry n i true) s = .next (
      (s.updSess n fun y => { y with
        txSeq := y.txSeq + 1
        subs := y.subs.map fun (z : Sub) =>
          if z.id = i.toNat then { z with latched := none, seq := wrapU 32 (z.seq + 1) } else z }).send
      (s.message n 0x32 0 flUnsolicited 0 (leBytes 1 i.toNat ++ leBytes 4 x.seq ++ leBytes 8 tick ++ leBytes 8 time ++
        leBytes 4 (2 * (s.sys.tick - tick)) ++ leBytes 2 x.missed ++ vs.flatMap (leBytes 4))))) ∧
  (∀ (n : Fin 64) (i : BitVec 8) (x : Sub) (s : State), s.sub n i.toNat = some x → x.events = false →
    x.latched.isSome = true → s.net.telDisplaced = false →
    exec (.telemetry n i false) s =
      .next (({ s with net := { s.net with telDisplaced := true } }).displace 6 0 2 4)) ∧
  (∀ (n : Fin 64) (i : BitVec 8) (x : Sub) (s : State), s.sub n i.toNat = some x → x.events = true →
    s.due (500 * x.periodMs) x.lastLatch = true →
    exec (.events n i) s = .next (
      let fresh := s.evr.seq - x.sentUpTo
      let dropped := min (2 ^ 32 - 1) (x.dropped + (fresh - s.evr.hbmArea.length))
      (s.updSess n fun y => { y with subs := y.subs.map fun (z : Sub) =>
        if z.id = i.toNat then { z with sentUpTo := s.evr.seq, dropped := dropped, lastLatch := some s.sys.tick } else z
        }).sendEvents n i.toNat dropped
        ((((s.evr.hbmArea.take fresh).reverse).filter fun e => tb x.classMask (e.code / 4096)).map fun e => e.bytes s.fv))) ∧
  (∀ (n : Fin 64) (i : BitVec 8) (s : State),
    (s.sub n i.toNat).elim true (fun x => !x.events || !s.due (500 * x.periodMs) x.lastLatch) = true →
    exec (.events n i) s = .next s) ∧
  (∀ (n : Fin 64) (i dropped : Nat) (recs : List (List Byte)) (s : State), recs ≠ [] → recs.length ≤ 279 →
    s.sendEvents n i dropped recs =
      s.sendTo n 0x33 0 0 flUnsolicited (leBytes 1 i ++ leBytes 4 dropped ++ recs.flatten)) ∧
  (∀ (h : Sys2Proof.MsgHdr) (r i : BitVec 8) (off : BitVec 64) (len : BitVec 32) (s : State),
    exec (.fetch h r i off len) s = .next (s.serve h ((queueOf 0x40 r.toNat).getD 7) 0x40 .monitor
      (leBytes 1 r.toNat ++ leBytes 1 i.toNat ++ leBytes 2 0 ++ leBytes 8 off.toNat ++ leBytes 4 len.toNat) fun s =>
      if r.toNat ≤ 7 ∧ 0 < len.toNat ∧ len.toNat ≤ 2 ^ 24 ∧ (r.toNat = 0 → i.toNat ≤ 15) ∧ (r.toNat = 6 → i.toNat ≤ 3) then
        if (s.sess h.sess).fetches.length < 4 then
          s.updSess h.sess fun x => { x with fetches := x.fetches ++
            [{ reqId := h.reqId.toNat, region := r.toNat, index := i.toNat, off := off.toNat, left := len.toNat, sent := [] }] }
        else s.reply h 0x40 2
      else s.reply h 0x40 6)) ∧
  (∀ (n : Fin 64) (i : BitVec 32) (s : State), (∀ f ∈ (s.sess n).fetches, f.reqId ≠ i.toNat) ∨ s.net.linkUp = false →
    exec (.fetchData n i) s = .next s) ∧
  (∀ (n : Fin 64) (i : BitVec 32) (f : Fetch) (e : Nat) (s : State),
    (s.sess n).fetches.find? (fun f => f.reqId = i.toNat) = some f → 0 < f.left →
    s.fetchEnd f.region = some e → e ≤ f.off → f.region ≠ 1 ∨ s.evr.capFrozen = false →
    exec (.fetchData n i) s = .next s) ∧
  (∀ (n : Fin 64) (i : BitVec 32) (f : Fetch) (k : Nat) (l : List Byte) (s : State), s.net.linkUp = true →
    (s.sess n).fetches.find? (fun f => f.reqId = i.toNat) = some f →
    k = (match s.fetchEnd f.region with
      | some e => min (min 8192 f.left) (e - f.off)
      | none => min 8192 f.left) →
    k = f.left ∨ (f.region = 1 ∧ s.evr.capFrozen = true ∧ k < min 8192 f.left) →
    (List.range k).mapM (fun j => s.fetchByte f.region f.index (f.off + j)) = some l →
    exec (.fetchData n i) s = .next ((({ s with fv := s.fv + 1 }).updSess n fun x => { x with
        fetches := x.fetches.filter fun g => g.reqId != i.toNat }).sendTo n 0x41 i.toNat 0 (flUnsolicited + flLast)
      (leBytes 8 f.off ++ l ++ leBytes 4 (crc32c (f.sent ++ l))))) ∧
  (∀ (n : Fin 64) (i : BitVec 32) (f : Fetch) (k : Nat) (l : List Byte) (s : State), s.net.linkUp = true →
    (s.sess n).fetches.find? (fun f => f.reqId = i.toNat) = some f →
    k = (match s.fetchEnd f.region with
      | some e => min (min 8192 f.left) (e - f.off)
      | none => min 8192 f.left) →
    k ≠ f.left → 0 < k → f.region ≠ 1 ∨ s.evr.capFrozen = false ∨ k = min 8192 f.left →
    (List.range k).mapM (fun j => s.fetchByte f.region f.index (f.off + j)) = some l →
    exec (.fetchData n i) s = .next ((({ s with fv := s.fv + 1 }).updSess n fun x => { x with
        fetches := x.fetches.map fun (g : Fetch) => if g.reqId = i.toNat then
          { g with off := g.off + k, left := g.left - k, sent := g.sent ++ l } else g }).sendTo n 0x41 i.toNat 0 flUnsolicited
      (leBytes 8 f.off ++ l))) ∧
  (∀ (n : Fin 64) (i : BitVec 32) (f : Fetch) (k : Nat) (s : State), s.net.linkUp = true →
    (s.sess n).fetches.find? (fun f => f.reqId = i.toNat) = some f →
    k = (match s.fetchEnd f.region with
      | some e => min (min 8192 f.left) (e - f.off)
      | none => min 8192 f.left) →
    0 < k → (List.range k).mapM (fun j => s.fetchByte f.region f.index (f.off + j)) = none →
    exec (.fetchData n i) s = .next ((s.updSess n fun x => { x with
        fetches := x.fetches.filter fun g => g.reqId != i.toNat }).sendTo n 0x41 i.toNat 4 flUnsolicited (leBytes 8 f.off))) ∧
  (∀ (h : Sys2Proof.MsgHdr) (total : BitVec 32) (s : State),
    exec (.pushBegin h total) s = .next (s.serve h 8 0x50 .integrator (leBytes 4 total.toNat) fun s =>
      if s.sys.state = .shipPrep then s.reply h 0x50 1
      else if s.cfg.shadowState = .receiving ∨ s.cfg.shadowState = .checking ∨ s.cfg.swapPending.isSome = true then s.reply h 0x50 2
      else
        let t := if s.cfg.shadowState = .ready then s.dropShadow else s
        ((({ t with cfg := { t.cfg with
          shadowState := .receiving, shadow := none, staging := []
          push := some { sess := h.sess.val, length := total.toNat, pieces := [], at_ := s.rootNs } } }).stageBegin
          total.toNat).ev 0x2001).reply h 0x50 0)) ∧
  (∀ (h : Sys2Proof.MsgHdr) (off : BitVec 32) (data : List Byte) (s : State),
    exec (.pushData h off data) s = .next (s.serve h 8 0x51 .integrator (leBytes 4 off.toNat ++ data) fun s =>
      match s.cfg.push with
      | none => s.reply h 0x51 6
      | some p =>
        if p.sess ≠ h.sess.val then s.reply h 0x51 2
        else if data.length ≤ 8192 ∧ off.toNat + data.length ≤ p.length then
          (({ s with cfg := { s.cfg with push := some { p with
            pieces := { off := off.toNat, data := data } :: p.pieces, at_ := s.rootNs } } }).stagePut off.toNat data).reply h 0x51 0
        else s.reply h 0x51 6)) ∧
  (∀ (h : Sys2Proof.MsgHdr) (s : State),
    exec (.pushEnd h) s = .next (s.serve h 8 0x52 .integrator [] fun s =>
      match s.cfg.push with
      | none => s.reply h 0x52 6
      | some p =>
        if p.sess ≠ h.sess.val then s.reply h 0x52 6
        else match (List.range p.length).mapM p.byte with
          | none => s.dropShadow.reply h 0x52 6
          | some l =>
            if isFirmware l = true then
              { s with cfg := { s.cfg with push := none, shadowState := .empty }
                       sec := { s.sec with fwPending := some l } }.reply h 0x52 0
            else if s.sec.recovery = true then
              ({ s with cfg := { s.cfg with push := none } }).dropShadow.reply h 0x52 1
            else { s with cfg := { s.cfg with push := none, shadowState := .checking, staging := l } }.reply h 0x52 0)) ∧
  (∀ (s : State), s.dropShadow = { s with
      cfg := { s.cfg with shadowState := .empty, shadow := none, staging := [], push := none }
      evr := s.evs [(0x2005, noInst, 0)] }) ∧
  (∀ (p : Push) (s : State), s.cfg.push = some p → s.elapsedNs p.at_ 10000000000 = true →
    exec .pushTimeout s = .next s.dropShadow) ∧
  (∀ (s : State), s.cfg.push.all (fun p => !s.elapsedNs p.at_ 10000000000) = true → exec .pushTimeout s = .next s) ∧
  (∀ (h : Sys2Proof.MsgHdr) (nonce : List Byte) (s : State),
    exec (.attest h nonce) s = .next (s.serve h 9 0x60 .monitor nonce fun s =>
      let report := s.attestBytes nonce ++ (List.range 16608).map (Config.freeByte (s.fv + 1))
      ((({ s with fv := s.fv + 1, sec := { s.sec with attestCount := bump 32 s.sec.attestCount } }).reply h 0x60 0
        (report.take 8944)).sendTo h.sess 0x60 h.reqId.toNat 0 (flResponse + flLast) (report.drop 8944)).ev 0x1040)) ∧
  (∀ (nonce : List Byte) (s : State), (s.attestBytes nonce).length = 272) ∧
  (∀ (h : Sys2Proof.MsgHdr) (v b : BitVec 32) (s : State),
    exec (.rowBudget h v b) s = .next (s.serve h 2 0x70 .operator (leBytes 4 v.toNat ++ leBytes 4 b.toNat) fun s =>
      if s.net.rowSrc.isSome = true ∧ v.toNat ≤ s.net.rowVersion then s.reply h 0x70 4
      else
        ((({ s with net := { s.net with
          rowVersion := v.toNat, rowSrc := some (s.rackId, s.shelfIndex)
          rowBudget := if b.toNat = 0xFFFFFFFF then none else some b.toNat } }).ev 0xA059).sendBudget).reply h 0x70 0)) ∧
  (∀ (h : Sys2Proof.MsgHdr) (ckn cak : List Byte) (s : State),
    exec (.macsecKey h ckn cak) s = .next (s.serve h 2 0x71 .integrator (ckn ++ cak) fun s =>
      (({ s with net := { s.net with cak := some (ckn ++ cak) } }).macsecEnds).reply h 0x71 0))

/-- Loading and swapping a bit-stream (R80 to R86, R89, R90, R456, R460, R503). That DISCARD of a REJECTED shadow records no event
is log entry 99, that SWAP of a shadow that is not READY, in BASALT or with a swap pending is ignored is log entry 100, and
that SWAPPED runs for the tick about to begin is log entry 101. Where it touches them it states the
model's choices of log entries 77, 95. -/
def Obligations.BitStreamsAreSwapped : Prop :=
  (∀ (s : State), s.lit = true → s.cfg.shadowState = .checking →
    exec .shadowReady s = .next (
      match s.checkImage s.cfg.staging true with
      | .ok im => { s with
          cfg := { s.cfg with
            shadowState := .ready, shadow := some im, staging := [], shadowDigest := im.digest
            resultCode := 0x02, resultSection := 255, resultType := 0, resultOffset := 0xFFFFFFFF }
          evr := s.evs [(0x2002, noInst, 0)] }
      | .error f => { s with
          cfg := { s.cfg with
            shadowState := .rejected, shadow := none, staging := []
            resultCode := f.code, resultSection := f.section_, resultType := f.rtype, resultOffset := f.offset }
          evr := s.evs [(0x2004, noInst, f.word)] })) ∧
  (∀ (s : State), s.lit = false ∨ s.cfg.shadowState ≠ .checking → exec .shadowReady s = .next s) ∧
  (∀ (s : State), s.cfg.shadowState = .ready →
    exec .shadowEcc s = .next (((({ s with evr :=
      { (s.evs [(0xC002, 0, 0)]) with eccUncorr := updV s.evr.eccUncorr 0 (bump 32) } }).cancelSwap).setResult 0x51).dropShadow)) ∧
  (∀ (s : State), s.cfg.shadowState ≠ .ready → exec .shadowEcc s = .next s) ∧
  (∀ (s : State),
    (s.cfg.swapPending = none → s.cancelSwap = s) ∧
    (s.cfg.swapPending ≠ none → s.cancelSwap = { s with
      cfg := { s.cfg with
        swapPending := none, resultCode := 0x50, resultSection := 255, resultType := 0, resultOffset := 0xFFFFFFFF }
      evr := s.evs [(0x2006, noInst, 0)] })) ∧
  (∀ (sess : Fin 64) (s : State), s.allows sess .ix = true →
    s.cfg.shadowState = .ready ∨ s.cfg.shadowState = .receiving ∨ s.cfg.shadowState = .checking →
    exec (.discard sess) s = .next s.cancelSwap.dropShadow) ∧
  (∀ (sess : Fin 64) (s : State), s.allows sess .ix = true → s.cfg.shadowState = .rejected ∨ s.cfg.shadowState = .empty →
    exec (.discard sess) s =
      .next { s.cancelSwap with cfg := { s.cancelSwap.cfg with shadowState := .empty } }) ∧
  (∀ (sess : Fin 64) (v : BitVec 32) (s : State), s.allows sess .ix = true →
    exec (.cfgSwapTick sess false v) s = .next { s with cfg := { s.cfg with swapTickLo := some v.toNat } }) ∧
  (∀ (sess : Fin 64) (v : BitVec 32) (s : State), s.allows sess .ix = true →
    exec (.cfgSwapTick sess true v) s = .next { s with cfg := { s.cfg with
      swapTick := v.toNat * 2 ^ 32 + s.cfg.swapTickLo.getD (s.cfg.swapTick % 2 ^ 32), swapTickLo := none } }) ∧
  (∀ (sess : Fin 64) (s : State), s.allows sess .ix = true → s.cfg.shadowState = .ready → s.cfg.swapPending = none →
    s.sys.state ≠ .basalt →
    exec (.swap sess) s = .next { s with cfg := { s.cfg with
      swapPending := some (if s.sys.tick + 2 ≤ s.cfg.swapTick then s.cfg.swapTick else s.sys.tick + 2) } }) ∧
  (∀ (sess : Fin 64) (s : State), s.allows sess .ix = true →
    s.cfg.shadowState ≠ .ready ∨ s.cfg.swapPending ≠ none ∨ s.sys.state = .basalt → exec (.swap sess) s = .next s) ∧
  (∀ (s : State), s.lit = false ∨ s.cfg.swapPending = none ∨ s.cfg.shadow = none ∨
    (∃ n, s.cfg.swapPending = some n ∧ s.sys.tick + 1 < n) → exec .swapped s = .next s) ∧
  (∀ (n : Nat) (im : Image) (s : State), s.lit = true → s.cfg.swapPending = some n → s.cfg.shadow = some im →
    n ≤ s.sys.tick + 1 → s.sys.state = .basalt → exec .swapped s = .next s.cancelSwap) ∧
  (∀ (n : Nat) (im : Image) (f : LoadFail) (s : State), s.lit = true → s.cfg.swapPending = some n → s.cfg.shadow = some im →
    n ≤ s.sys.tick + 1 → s.sys.state ≠ .basalt →
    (({ all := im.sections, own := im.sections } : Cand).locked im.full s.cfg.activeValid s.sys.state s.limit
      (directory im.raw)) = some f →
    exec .swapped s =
      .next ((s.cancelSwap.setResult f.code f.section_ f.rtype f.offset).dropShadow)) ∧
  (∀ (n : Nat) (im : Image) (s : State), s.lit = true → s.cfg.swapPending = some n → s.cfg.shadow = some im →
    n ≤ s.sys.tick + 1 → s.sys.state ≠ .basalt →
    (({ all := im.sections, own := im.sections } : Cand).locked im.full s.cfg.activeValid s.sys.state s.limit
      (directory im.raw)) = none →
    exec .swapped s = .next
      (({ s with cfg := { s.cfg with swapPending := none, shadow := none, shadowState := .empty } }).applyImage im
        (s.sys.tick + 1))) ∧
  (∀ (im : Image) (n : Nat) (s : State), s.sys.state ≠ .boot →
    (s.applyImage im n).cfg.active =
      (if im.full then im.sections
       else (s.cfg.active.filter fun a => !im.sections.any fun o => o.type = a.type) ++ im.sections) ∧
    (s.applyImage im n).cfg.activeValid = true ∧ (s.applyImage im n).cfg.activeDigest = im.digest ∧
    (s.applyImage im n).cfg.activeRollback = im.rollback ∧ (s.applyImage im n).cfg.lastSwapTick = n ∧
    (s.applyImage im n).cfg.limitEff = limitsOf (s.applyImage im n).cfg.active ∧
    (s.applyImage im n).cfg.storePending = s.cfg.storePending ++ (if im.full && im.store then [im] else [])) ∧
  (∀ (im : Image) (n : Nat) (s : State), s.sys.state = .boot →
    (s.applyImage im n).sys.state = .standby ∧ (s.applyImage im n).cfg.activeValid = true ∧
    (s.applyImage im n).cfg.activeDigest = im.digest)

/-- The stored configurations (R63, R86 to R89, R263, R417, R456, R459). That a slot which holds nothing fails step 1 is log entry
77, and that the slot marked stays the boot slot after a load has fallen back is log entry 144. Where it touches them it states the
model's choices of log entries 53, 77, 133. -/
def Obligations.StoredConfigurations : Prop :=
  (∀ (s : State), s.lit = true → s.sys.state = .boot → s.sec.fwRunning = true →
    s.cfg.activeValid = false → s.cfg.bootSlot = 0 →
    exec .bootConfigLoad s = .next
      (s.loadSlots (fun s b => { s with cfg := { s.cfg with bootSlot := if b then 2 else 1 } }) 0x2011)) ∧
  (∀ (s : State), s.lit = false ∨ s.sys.state ≠ .boot ∨ s.sec.fwRunning = false ∨ s.cfg.activeValid = true ∨
    s.cfg.bootSlot ≠ 0 → exec .bootConfigLoad s = .next s) ∧
  (∀ (ok : State → Bool → State) (fail2 : Nat) (s : State), s.loadSlots ok fail2 =
    match s.checkImage ((if s.cfg.bootMark = 2 then s.cfg.slotB else s.cfg.slotA).getD []) false with
    | .ok im => ok (s.applySlot im) (s.cfg.bootMark = 2)
    | .error f =>
      let u := (s.loadFailed f).ev 0x2010 noInst (if s.cfg.bootMark = 2 then 1 else 0)
      match u.checkImage ((if s.cfg.bootMark = 2 then s.cfg.slotA else s.cfg.slotB).getD []) false with
      | .ok im => ok (u.applySlot im) (s.cfg.bootMark ≠ 2)
      | .error g => (u.loadFailed g).ev fail2) ∧
  (∀ (f : LoadFail) (s : State), s.loadFailed f = { s with
      cfg := { s.cfg with resultCode := f.code, resultSection := f.section_, resultType := f.rtype, resultOffset := f.offset }
      evr := s.evs [(0x2004, noInst, f.word)] }) ∧
  (∀ (im : Image) (s : State),
    (s.applySlot im).cfg.unstored = false ∧ (s.applySlot im).cfg.activeDigest = im.digest ∧
    (s.applySlot im).cfg.activeValid = true ∧ (s.applySlot im).cfg.storePending = s.cfg.storePending ∧
    (s.applySlot im).tlk.mirrorDigest = some im.digest ∧
    (s.tlk.mirrorDigest ≠ some im.digest →
      (s.applySlot im).tlk.mirror = some (recsOf im.sections 0x0B01 ++ recsOf im.sections 0x0B03)) ∧
    (s.sys.state = .boot → (s.applySlot im).sys.state = .standby)) ∧
  (∀ (s : State), s.lit = true → s.prot.causes[1] = true → s.prot.reloadFailed = false →
    exec .configReloaded s = .next (
      let t := s.loadSlots (fun s _ => (s.ev 0xB006).causeClear 1) 0xB007
      if t.prot.causes[1] = true then { t with prot := { t.prot with reloadFailed := true } } else t)) ∧
  (∀ (s : State), s.lit = false ∨ s.prot.causes[1] = false ∨ s.prot.reloadFailed = true → exec .configReloaded s = .next s) ∧
  (∀ (im : Image) (rest : List Image) (s : State), s.lit = true → s.cfg.storePending = im :: rest →
    im.raiseRollback = false ∨ im.rollback ≤ s.sec.cfgCounter →
    exec .stored s = .next ({ s with
      cfg := { s.cfg with
        slotA := if s.cfg.bootMark = 1 then s.cfg.slotA else some im.raw
        slotB := if s.cfg.bootMark = 1 then some im.raw else s.cfg.slotB
        bootMark := if s.cfg.bootMark = 1 then 2 else 1, storePending := rest
        unstored := im.digest != s.cfg.activeDigest }
      tlk := { s.tlk with
        mirror := some (recsOf im.sections 0x0B01 ++ recsOf im.sections 0x0B03), mirrorDigest := some im.digest }
      evr := s.evs [(0x2012, noInst, 0)] })) ∧
  (∀ (im : Image) (rest : List Image) (s : State), s.lit = true → s.cfg.storePending = im :: rest → im.raiseRollback = true →
    s.sec.cfgCounter < im.rollback →
    exec .stored s = .next ({ s with
      cfg := { s.cfg with
        slotA := if s.cfg.bootMark = 1 then s.cfg.slotA else some im.raw
        slotB := if s.cfg.bootMark = 1 then some im.raw else s.cfg.slotB
        bootMark := if s.cfg.bootMark = 1 then 2 else 1, storePending := rest
        unstored := im.digest != s.cfg.activeDigest }
      sec := { s.sec with cfgCounter := im.rollback }
      tlk := { s.tlk with
        mirror := some (recsOf im.sections 0x0B01 ++ recsOf im.sections 0x0B03), mirrorDigest := some im.digest }
      evr := s.evs [(0x2012, noInst, 0), (0x2030, noInst, 0)] })) ∧
  (∀ (s : State), s.lit = false ∨ s.cfg.storePending = [] → exec .stored s = .next s) ∧
  (∀ (s : State), s.lit = true → s.cfg.activeValid = true →
    exec .configEccCorrected s = .next ({ s with
      cfg := { s.cfg with eccCorr := bump 32 s.cfg.eccCorr }
      evr := ({ s with evr := { (s.evs [(0x2020, noInst, 0)]) with eccCorr := updV s.evr.eccCorr 0 (bump 32) } }).evs
        [(0xC001, 0, 0)] })) ∧
  (∀ (s : State), s.lit = true → s.cfg.activeValid = true →
    exec (.configCrcSweep false) s = .next (({ s with
      cfg := { s.cfg with fault := true }, evr := s.evs [(0x2021, noInst, 0)] }).basaltCause 1)) ∧
  (∀ (ok : Bool) (s : State), ok = true ∨ s.lit = false ∨ s.cfg.activeValid = false → exec (.configCrcSweep ok) s = .next s) ∧
  (∀ (s : State), s.lit = false ∨ s.cfg.activeValid = false → exec .configEccCorrected s = .next s) ∧
  (∀ (s : State), s.power.inputLoss = false → s.sys.state = .run → s.sec.resetReq = none →
    ((s.basaltCause 1).prot.causes[1] = true ∧ (s.basaltCause 1).sys.state = .basalt))

/-- The firmware slots (R436, R437, R439, R440, R453, R454). The standards behind the checks of an image are PRESUMED (log entries
4 and 5). Where it touches them it states the
model's choices of log entries 4, 69, 77. -/
def Obligations.FirmwareSlots : Prop :=
  (∀ (keys : Bool) (s : State), s.lit = true → s.sys.state = .boot → s.sec.fwRunning = false → s.sec.recovery = false →
    exec (.fwVerified keys) s = .next (
      let b := s.sec.bootSlotB
      let n := s.fwStep (s.fwImage b)
      let m := s.fwStep (s.fwImage !b)
      let t := { s with
        sec := { s.sec with fwResult := n }, evr := s.evs [(0x1002, noInst, n + if b then 256 else 0)] }
      if n = 0 then s.fwStart b false keys
      else if m = 0 then t.fwStart (!b) true keys
      else { t with
        sec := { s.sec with fwResult := m, recovery := true }
        evr := s.evs [(0x1002, noInst, n + if b then 256 else 0), (0x1002, noInst, m + if b then 0 else 256), (0x1003, noInst, 0)] })) ∧
  (∀ (keys : Bool) (s : State), s.lit = false ∨ s.sys.state ≠ .boot ∨ s.sec.fwRunning = true ∨ s.sec.recovery = true →
    exec (.fwVerified keys) s = .next s) ∧
  (∀ (b fallback keys : Bool) (s : State), s.fwStart b fallback keys = { s with
      sec := { s.sec with
        fwRunning := true, fwSlotB := b, fwFallback := fallback, fwDigest := imageDigest ((s.fwImage b).getD [])
        fwRollback := hRollback ((s.fwImage b).getD [])
        fwRaise := tb (hFlags ((s.fwImage b).getD [])) 1 && (if b then s.sec.fwNewB else s.sec.fwNewA)
        fwNewA := s.sec.fwNewA && b, fwNewB := s.sec.fwNewB && !b, identityOk := s.sec.identityKeys && keys }
      evr := s.evs [(0x1001, noInst, 0)] }) ∧
  (∀ (l : List Byte) (s : State), s.lit = true → s.sec.fwPending = some l → s.sec.recovery = false →
    exec .fwStaged s = .next (
      if s.fwStep (some l) = 0 then { s with
        sec := { s.sec with
          fwPending := none, fwSlotAImg := if s.sec.fwSlotB then some l else s.sec.fwSlotAImg
          fwSlotBImg := if s.sec.fwSlotB then s.sec.fwSlotBImg else some l
          fwNewA := s.sec.fwSlotB || s.sec.fwNewA, fwNewB := !s.sec.fwSlotB || s.sec.fwNewB
          fwStaged := true, stagedDigest := imageDigest l }
        evr := s.evs [(0x1010, noInst, 0)] }
      else { s with
        sec := { s.sec with fwPending := none, fwResult := s.fwStep (some l) }
        evr := s.evs [(0x1011, noInst, s.fwStep (some l) + if s.sec.fwSlotB then 0 else 256)] })) ∧
  (∀ (l : List Byte) (s : State), s.lit = true → s.sec.fwPending = some l → s.sec.recovery = true →
    exec .fwStaged s = .next (
      if s.fwStep (some l) = 0 then ({ s with
        sec := { s.sec with
          fwPending := none, fwSlotAImg := some l, fwNewA := true, fwStaged := false, stagedDigest := imageDigest l
          bootSlotB := false }
        evr := s.evs [(0x1010, noInst, 0)] }).doReset 2
      else { s with
        sec := { s.sec with fwPending := none, fwResult := s.fwStep (some l) }
        evr := s.evs [(0x1011, noInst, s.fwStep (some l))] })) ∧
  (∀ (s : State), s.lit = false ∨ s.sec.fwPending = none → exec .fwStaged s = .next s) ∧
  (∀ (sess : Fin 64) (s : State), s.allows sess .ix = true → s.sec.fwStaged = true →
    exec (.fwDiscard sess) s = .next { s with
      sec := { s.sec with fwStaged := false
                          fwSlotAImg := if s.sec.fwSlotB then none else s.sec.fwSlotAImg
                          fwSlotBImg := if s.sec.fwSlotB then s.sec.fwSlotBImg else none } }) ∧
  (∀ (sess : Fin 64) (s : State), s.allows sess .ix = true → s.sec.fwStaged = false → exec (.fwDiscard sess) s = .next s)

/-- Shelf time and its sources (R9, R285, R362, R364, R366 to R368, R388, R390, R393). `netIn` and `rowTake`, by which frames
come in, are the subject of other statements. What remains to be corrected is slewed tick by tick (log entry 7), durations
are counted on root ticks (log entry 109), and that an ordinary clock that is master passes over a Sync of a worse clock is log
entry 134. Where it touches them it states the
model's choices of log entries 4, 79, 80, 110, 112, 113, 114, 115, 131, 134. -/
def Obligations.ShelfTimeFollowsItsSources : Prop :=
  (∀ (f : Sys2Proof.FramePath) (via : Sys2Proof.PtpVia) (dom cls : BitVec 8) (time : BitVec 64) (ofs : BitVec 32) (s : State),
    exec (.ptpSync f via dom time ofs cls) s = .next (s.netIn f (via = .udp4) fun s =>
      if dom.toNat ≠ s.net.ptpDomain ∨ (s.net.ptpMaster = true ∧ 248 < cls.toNat) then s
      else s.ptpTake via time.toNat ofs.toInt cls.toNat)) ∧
  (∀ (via : Sys2Proof.PtpVia) (time cls : Nat) (o : Int) (s : State), s.clk.ptpLock = false → s.net.ptpGood < 15 →
    -1000 ≤ o → o ≤ 1000 →
    s.ptpTake via time o cls = { s with
      net := { s.net with syncAt := s.rootNs, ptpOfs := o, clockClass := cls, ptpMaster := false
                          ptpGood := s.net.ptpGood + 1, ptpBad := 0 }
      tx := .ptp s.tag via .delayReq s.net.ptpDomain s.sys.timeNs :: s.tx }) ∧
  (∀ (via : Sys2Proof.PtpVia) (time cls : Nat) (o : Int) (s : State), s.clk.ptpLock = false → o < -1000 ∨ 1000 < o →
    s.ptpTake via time o cls = { s with
      net := { s.net with syncAt := s.rootNs, ptpOfs := o, clockClass := cls, ptpMaster := false, ptpGood := 0
                          ptpBad := if o < -10000 ∨ 10000 < o then s.net.ptpBad + 1 else 0 }
      tx := .ptp s.tag via .delayReq s.net.ptpDomain s.sys.timeNs :: s.tx }) ∧
  (∀ (via : Sys2Proof.PtpVia) (time cls : Nat) (o : Int) (s : State), s.clk.ptpLock = false → 15 ≤ s.net.ptpGood →
    -1000 ≤ o → o ≤ 1000 →
    s.ptpTake via time o cls = (
      let u := { s with
        clk := { s.clk with ptpLock := true, ptpStepped := true }
        net := { s.net with syncAt := s.rootNs, ptpOfs := o, clockClass := cls, ptpMaster := false
                            ptpGood := s.net.ptpGood + 1, ptpBad := 0, timeSrc := .ptp, slewLeft := 0 }
        tx := .ptp s.tag via .delayReq s.net.ptpDomain s.sys.timeNs :: s.tx }
      (if s.clk.ptpStepped = true then u
        else ({ u with sys := { u.sys with timeNs := time } }).portsTimeStep).ev 0xA020)) ∧
  (∀ (s : State), s.portsTimeStep.tlk.table = [] ∧ s.portsTimeStep.tlk.placed = [] ∧ s.portsTimeStep.sys = s.sys) ∧
  (∀ (via : Sys2Proof.PtpVia) (time cls : Nat) (o : Int) (s : State), s.clk.ptpLock = true →
    s.ptpTake via time o cls = (
      let good : Nat := if -1000 ≤ o ∧ o ≤ 1000 then s.net.ptpGood + 1 else 0
      let bad : Nat := if o < -10000 ∨ 10000 < o then s.net.ptpBad + 1 else 0
      let u := { s with
        net := { s.net with syncAt := s.rootNs, ptpOfs := o, clockClass := cls, ptpMaster := false
                            ptpGood := good, ptpBad := bad }
        tx := .ptp s.tag via .delayReq s.net.ptpDomain s.sys.timeNs :: s.tx }
      if 4 ≤ bad then u.ptpUnlock else { u with net := { u.net with slewLeft := -o } })) ∧
  (∀ (s : State), s.clk.ptpLock = false → s.ptpUnlock = s) ∧
  (∀ (s : State), s.clk.ptpLock = true →
    s.ptpUnlock = { s with
      clk := { s.clk with ptpLock := false }
      net := { s.net with ptpGood := 0, ptpBad := 0, slewLeft := 0, timeSrc := if s.followsRing then .ring else .holdover }
      evr := s.evs (if s.followsRing then [(0xA021, noInst, 0), (0xA022, noInst, 0)] else [(0xA021, noInst, 0)]) }) ∧
  (∀ (s : State), s.followsRing = true ↔
    s.net.joined = true ∧ ∃ m, s.ringMaster = some m ∧ ¬(m.rack = s.rackId ∧ m.shelf = s.shelfIndex)) ∧
  (∀ (s : State), s.elapsedNs s.net.syncAt 3000000000 = true →
    exec .ptpLost s = .next ({ s.ptpUnlock with net := { s.ptpUnlock.net with
      ptpMaster := s.net.ptpMode = 2 && s.net.linkUp
      clockClass := if s.net.ptpMode = 2 then 248 else s.net.clockClass } })) ∧
  (∀ (s : State), s.elapsedNs s.net.syncAt 3000000000 = false → exec .ptpLost s = .next s) ∧
  (∀ (t0 : BitVec 64) (s : State), s.param 0x0002 0 = 2 →
    exec (.ppsIn t0) s = .next { s with
      clk := { s.clk with syncInActive := true }
      net := { s.net with
        ppsT := t0.toNat
        ppsOfs := if t0.toNat % 1000000000 < 500000000 then ((t0.toNat % 1000000000 : Nat) : Int)
          else ((t0.toNat % 1000000000 : Nat) : Int) - 1000000000 } }) ∧
  (∀ (t0 : BitVec 64) (s : State), s.param 0x0002 0 ≠ 2 → exec (.ppsIn t0) s = .next s) ∧
  (∀ (f : Sys2Proof.RowFrame) (t4 : BitVec 64) (s : State),
    exec (.pdelayResp f t4) s = .next (s.rowTake f 0x03 32 ownBack fun s _ _ p =>
      let d : Int := (((t4.toNat : Int) - leVal (bytesAt p 0 8)) -
        ((leVal (bytesAt p 16 8) : Int) - leVal (bytesAt p 8 8))).fdiv 2
      { s with net := { s.net with
        delayWest := if f.west then d else s.net.delayWest, delayEast := if f.west then s.net.delayEast else d } })) ∧
  (∀ (f : Sys2Proof.RowFrame) (t4 : BitVec 64) (s : State), s.acts f 0x03 32 = true →
    Gives (.pdelayResp f t4) s fun t =>
      (let p := bytesAt f.bytes 16 32
       let d : Int := (((t4.toNat : Int) - leVal (bytesAt p 0 8)) -
         ((leVal (bytesAt p 16 8) : Int) - leVal (bytesAt p 8 8))).fdiv 2
       t.net.delayWest = (if f.west then d else s.net.delayWest) ∧
       t.net.delayEast = (if f.west then s.net.delayEast else d))) ∧
  (∀ (f : Sys2Proof.RowFrame) (t2 : BitVec 64) (s : State),
    exec (.pdelayReq (some (f, t2))) s = .next (s.rowTake f 0x02 32 ownBack fun s _ _ p =>
      s.rowLocal f.west 0x03 (bytesAt p 0 8 ++ leBytes 8 t2.toNat ++ leBytes 8 s.sys.timeNs ++ leBytes 8 0))) ∧
  (∀ (s : State), s.due 50000 s.net.pdelayTick = true →
    exec (.pdelayReq none) s = .next (
      let u := { s with net := { s.net with pdelayTick := some s.sys.tick } }
      let p := leBytes 8 s.sys.timeNs ++ List.replicate 24 0
      let e := if s.net.eastUp = true then u.rowLocal false 0x02 p else u
      if s.net.westUp = true then e.rowLocal true 0x02 p else e)) ∧
  (∀ (s : State), s.due 50000 s.net.pdelayTick = false → exec (.pdelayReq none) s = .next s) ∧
  (∀ (west : Bool) (ty : Nat) (p : List Byte) (s : State),
    s.rowLocal west ty p = if s.net.forwarding = true then { s with
      net := { s.net with ringSeq := wrapU 32 (s.net.ringSeq + 1), sentSeq := (s.net.ringSeq :: s.net.sentSeq).take 64 }
      tx := .row west (rowFrame ty 2 510 s.rackId s.shelfIndex s.net.ringSeq p) :: s.tx } else s) ∧
  (∀ (f : Sys2Proof.RowFrame) (s : State),
    exec (.ringTime f) s = .next (s.rowTake f 0x01 17 ownBack fun s rack shelf p =>
      let t : Int := (leVal (bytesAt p 0 8) : Int) + (ofCode 64 (leVal (bytesAt p 8 8))).fdiv 65536 +
        (if f.west then s.net.delayWest else s.net.delayEast)
      if s.ringMaster.all (fun m => !m.named rack shelf) = true then s
      else if s.clk.ptpLock = true ∨ s.net.joined = false then
        { s with net := { s.net with ringTimeOfs := sat32 (t - s.sys.timeNs) } }
      else { s with
        net := { s.net with ringTimeOfs := sat32 (t - s.sys.timeNs), timeSrc := .ring, slewLeft := t - s.sys.timeNs }
        evr := if s.net.timeSrc = .ring then s.evr else s.evs [(0xA022, noInst, 0)] })) ∧
  (∀ (f : Sys2Proof.RowFrame) (m : Member) (s : State), s.acts f 0x01 17 = true → s.ringMaster = some m →
    m.named (at16 f.bytes 4) (at8 f.bytes 6) = true → s.clk.ptpLock = true →
    Gives (.ringTime f) s fun t =>
      (let p := bytesAt f.bytes 16 17
       t.net.ringTimeOfs = sat32 ((leVal (bytesAt p 0 8) : Int) + (ofCode 64 (leVal (bytesAt p 8 8))).fdiv 65536 +
         (if f.west then s.net.delayWest else s.net.delayEast) - s.sys.timeNs)) ∧ t.sys = s.sys ∧ t.evr = s.evr)

/-- Joining, frames and wraps of the row ring (R388 to R392, R394 to R397). Each command's clause says what it does with a frame it
acts on; the first clauses say which frames those are. Own frames are known by SEQs still out (log entry 114); a share
above the PSU capacity and the storage power limit is clamped (R23, log entry 105); when the subject of a notice is a candidate
again, and what a peer's wrap does, are log entries 39 and 41; that a SEQ running back shows two members is log entry 141. Where it touches them it states the
model's choices of log entries 4, 7, 79, 80, 109, 110, 112, 113, 115. -/
def Obligations.RowRingFrames : Prop :=
  (∀ (s : State), s.net.joined = false → s.cfg.activeValid = true → s.clk.ptpLock = true →
    s.net.eastUp = true ∨ s.net.westUp = true → s.sys.state ≠ .shipPrep → s.power.inputLoss = false →
    exec .ringJoined s = .next { s with
      net := { s.net with joined := true, idConflict := false }, evr := s.evs [(0xA050, noInst, 0)] }) ∧
  (∀ (s : State), s.net.joined = true ∨ s.cfg.activeValid = false ∨ s.clk.ptpLock = false ∨
    (s.net.eastUp = false ∧ s.net.westUp = false) ∨ s.sys.state = .shipPrep ∨ s.power.inputLoss = true →
    exec .ringJoined s = .next s) ∧
  (∀ (f : Sys2Proof.RowFrame) (ty len : Nat) (own : State → Bool → State) (act : State → Nat → Nat → List Byte → State)
    (s : State),
    (s.net.forwarding = false ∨ f.bytes.length < 20 ∨ at16 f.bytes 2 = 0 → s.rowTake f ty len own act = s) ∧
    (s.net.forwarding = true → 20 ≤ f.bytes.length → at16 f.bytes 2 ≠ 0 → s.rowTake f ty len own act =
      let n := f.bytes.length
      let rack := at16 f.bytes 4
      let shelf := at8 f.bytes 6
      let good := crc32c (f.bytes.take (n - 4)) == leVal (f.bytes.drop (n - 4))
      let u := if tb (at8 f.bytes 1) 1 = true ∨ (s.ownFrame f = true ∧ f.west = true) then s else s.rowForward f good
      if good = false ∨ n ≠ 8 * ceilDiv (16 + len) 8 + 4 ∨ at8 f.bytes 0 ≠ ty ∨ at16 f.bytes 12 ≠ len then u
      else if s.ownFrame f = true then
        if f.west = true then
          own { u with net := { u.net with sentSeq := u.net.sentSeq.filter (· != at32 f.bytes 8) } } (tb (at8 f.bytes 1) 0)
        else u
      else if (rack, shelf, at32 f.bytes 8) ∈ s.net.seenSeq then u
      else act { u with net := { u.net with seenSeq := (rack, shelf, at32 f.bytes 8) :: u.net.seenSeq } } rack shelf
        (bytesAt f.bytes 16 len))) ∧
  (∀ (f : Sys2Proof.RowFrame) (good : Bool) (s : State), at8 f.bytes 0 ≠ 1 → 20 ≤ f.bytes.length →
    (if f.west then s.net.wrapEast else s.net.wrapWest) = false →
    s.rowForward f good = { s with tx := (
      let b := putBytes (f.bytes.take (f.bytes.length - 4)) 2 (leBytes 2 (at16 f.bytes 2 - 1))
      .row (!f.west) (b ++ leBytes 4 (if good then crc32c b else 2 ^ 32 - 1 - crc32c b))) :: s.tx }) ∧
  (∀ (f : Sys2Proof.RowFrame) (s : State),
    exec (.ringStatus f) s = .next (s.rowTake f 0x10 28 (fun s wrapped => if s.net.joined = true then s.setWhole (!wrapped) else s)
      fun s rack shelf p =>
        if rack = s.rackId ∧ shelf = s.shelfIndex ∧ s.net.joined = true then
          if s.net.idConflict = true then s
          else { s with net := { s.net with idConflict := true }, evr := s.evs [(0xA058, noInst, 0)] }
        else s.memberStatus rack shelf (at32 f.bytes 8) (statusOf p))) ∧
  (∀ (rack shelf seq : Nat) (st : Sys2Proof.RowStatus) (s : State),
    ∃ m ∈ (s.memberStatus rack shelf seq st).net.members, m.rack = rack ∧ m.shelf = shelf ∧ m.st = st ∧ m.at_ = s.rootNs ∧
      m.seq = seq ∧ m.subject = false ∧ m.silentSent = false ∧
      (∀ x ∈ (s.memberStatus rack shelf seq st).net.members, x.named rack shelf = true → x = m) ∧
      ∀ x, x.named rack shelf = false → (x ∈ (s.memberStatus rack shelf seq st).net.members ↔ x ∈ s.net.members)) ∧
  (∀ (v : Bool) (s : State), s.setWhole v = if s.net.whole = v then s else
    { s with net := { s.net with whole := v }, evr := s.evs [(0xA053, noInst, 0)] }) ∧
  (∀ (f : Sys2Proof.RowFrame) (s : State), s.acts f 0x10 28 = true → tb (at8 f.bytes 1) 1 = false →
    at16 f.bytes 4 ≠ s.rackId ∨ at8 f.bytes 6 ≠ s.shelfIndex → s.net.members = [] →
    s.net.wrapEast = false → s.net.wrapWest = false →
    Gives (.ringStatus f) s fun t =>
      t.net.members = [{ rack := at16 f.bytes 4, shelf := at8 f.bytes 6, st := statusOf (bytesAt f.bytes 16 28), at_ := s.rootNs
                         subject := false, silentSent := false, seq := at32 f.bytes 8, twoAt := none, candAt := none }] ∧
      t.net.seenSeq = (at16 f.bytes 4, at8 f.bytes 6, at32 f.bytes 8) :: s.net.seenSeq ∧
      t.tx = (let b := putBytes (f.bytes.take (f.bytes.length - 4)) 2 (leBytes 2 (at16 f.bytes 2 - 1))
              .row (!f.west) (b ++ leBytes 4 (crc32c b))) :: s.tx ∧ t.evr = s.evr) ∧
  (∀ (f : Sys2Proof.RowFrame) (s : State), s.arrives f 0x10 28 = true → s.ownFrame f = true → f.west = true →
    tb (at8 f.bytes 1) 0 = false → s.net.joined = true → s.net.whole = false →
    Gives (.ringStatus f) s fun t =>
      t.net.whole = true ∧ t.net.members = s.net.members ∧ t.tx = s.tx ∧
      t.net.sentSeq = s.net.sentSeq.filter (· != at32 f.bytes 8) ∧ t.evr = s.evs [(0xA053, noInst, 0)]) ∧
  (∀ (f : Sys2Proof.RowFrame) (s : State),
    exec (.share f) s = .next (s.rowTake f 0x11 64 ownBack fun s rack shelf p =>
      if rack ≠ s.rackId then { s with net := { s.net with racks :=
        { rack := rack, q := at32 p 8, at_ := s.rootNs } :: s.net.racks.filter fun x => x.rack != rack } }
      else if s.net.joined = true ∧ s.sys.lead = false ∧ shelf = s.net.leadShelf then
        s.takeShare (at32 p 0) (at32 p 4) (shareEntries p)
      else s)) ∧
  (∀ (b g : Nat) (l : List Sys2Proof.ShareEntry) (s : State), s.takeShare b g l =
    let u := { s with net := { s.net with rackB := b, rackG := g } }
    match l.find? fun e => e.valid && e.shelf = s.shelfIndex with
    | none => u
    | some e =>
      let v := ({ u with
        tlk := { s.tlk with share := min e.share s.offer, shareT := some s.sys.timeNs, shareStale := false }
        est := { s.est with gridAllow := some e.allow } }).recompute true
      if e.start = true ∧ v.startReqNow = true then v.enterRun else v) ∧
  (∀ (f : Sys2Proof.RowFrame) (s : State),
    exec (.rowBudgetFrame f) s = .next (s.rowTake f 0x12 8 ownBack fun s rack shelf p =>
      let v := at32 p 0
      let lower := s.net.rowSrc.any fun x => rack < x.1 || (rack = x.1 && shelf < x.2)
      if s.net.rowSrc = none ∨ s.net.rowVersion < v ∨
          (s.net.rowVersion = v ∧ lower = true ∧ s.net.rowBudget.getD 0xFFFFFFFF ≠ at32 p 4) then { s with
        net := { s.net with rowVersion := v, rowSrc := some (rack, shelf)
                            rowBudget := if at32 p 4 = 0xFFFFFFFF then none else some (at32 p 4) }
        evr := if s.net.rowSrc = none ∨ s.net.rowVersion < v then s.evs [(0xA059, noInst, 0)] else s.evr }
      else s)) ∧
  (∀ (s : State), s.sys.lead = true → s.due 50000 s.net.budgetTick = true →
    exec .rowBudgetResend s = .next (({ s with net := { s.net with budgetTick := some s.sys.tick } }).rowSend 0x12
      (leBytes 4 s.net.rowVersion ++ leBytes 4 (s.net.rowBudget.getD 0xFFFFFFFF)))) ∧
  (∀ (s : State), s.sys.lead = false ∨ s.due 50000 s.net.budgetTick = false → exec .rowBudgetResend s = .next s) ∧
  (∀ (ty : Nat) (p : List Byte) (s : State),
    s.rowSend ty p = if s.net.joined = true then { s with
      net := { s.net with ringSeq := wrapU 32 (s.net.ringSeq + 1), sentSeq := (s.net.ringSeq :: s.net.sentSeq).take 64 }
      tx := .row s.net.wrapEast (rowFrame ty (bitAt s.net.wrapEast 0) 510 s.rackId s.shelfIndex s.net.ringSeq p) :: s.tx }
    else s) ∧
  (∀ (f : Sys2Proof.RowFrame) (s : State),
    exec (.failover f) s = .next (s.rowTake f 0x20 12 ownBack fun s _ _ p =>
      let r := at16 p 0
      let k := at8 p 2
      if at8 p 3 = 0 ∨ 5 < at8 p 3 ∨ s.noticed r k = true then s.elect
      else (((s.notice r k).ev 0xA057).actOn r k).elect.cycleAgain)) ∧
  (∀ (r k : Nat) (s : State),
    (s.noticed r k = true ↔ ∃ x ∈ s.net.notices, x.1 = r ∧ x.2.1 = k ∧ s.rootNs < x.2.2 + 10000000) ∧
    (s.notice r k).noticed r k = true ∧ (s.notice r k).tlk = s.tlk ∧ (s.notice r k).net.members = s.net.members) ∧
  (∀ (rack shelf : Nat) (s : State), rack ≠ s.rackId →
    s.actOn rack shelf = { s with net := { s.net with
      members := s.net.members.map fun (m : Member) => if m.named rack shelf then { m with subject := true } else m } }) ∧
  (∀ (shelf : Nat) (s : State), s.actOn s.rackId shelf =
    (((List.finRange 64).filter fun n =>
      shelf != s.shelfIndex && s.homing n.val = 2 && s.tray8 n.val 0x1D = shelf).foldl State.takeOverLatest
      (s.markSubject s.rackId shelf)).elect) ∧
  (∀ (f : Sys2Proof.RowFrame) (n : Fin 64) (s : State), s.acts f 0x20 12 = true →
    1 ≤ at8 (bytesAt f.bytes 16 12) 3 → at8 (bytesAt f.bytes 16 12) 3 ≤ 5 → s.net.notices = [] →
    at16 (bytesAt f.bytes 16 12) 0 = s.rackId → at8 (bytesAt f.bytes 16 12) 2 ≠ s.shelfIndex → s.homing n.val = 2 →
    s.tray8 n.val 0x1D = at8 (bytesAt f.bytes 16 12) 2 → (s.port n).state = .watch → s.sys.state = .run →
    Gives (.failover f) s fun t => (t.port n).state = .takenOver) ∧
  (∀ (k : Fin 4) (m : Member) (s : State), s.net.members.find? (fun m => m.named s.rackId k.val) = some m →
    s.net.joined = true → k.val ≠ s.shelfIndex → m.st.state = 4 → m.silentSent = false → m.at_ + 3000000 ≤ s.rootNs →
    exec (.peerSilent k) s = .next (
      let u := (({ s with net := { s.net with
        members := s.net.members.map fun (x : Member) => if x.named s.rackId k.val then { x with silentSent := true } else x
        } }).rowSend 0x20
        (noticeBytes s.rackId k.val 4 s.sys.timeNs)).ev 0xA056
      if s.noticed s.rackId k.val = true then u else (u.notice s.rackId k.val).actOn s.rackId k.val)) ∧
  (∀ (k : Fin 4) (s : State), (s.net.members.find? (fun m => m.named s.rackId k.val)).all (fun m =>
      !s.net.joined || k.val = s.shelfIndex || m.st.state != 4 || m.silentSent || s.rootNs < m.at_ + 3000000) = true →
    exec (.peerSilent k) s = .next s) ∧
  (∀ (f : Sys2Proof.RowFrame) (s : State),
    exec (.wrap f) s = .next (s.rowTake f 0x21 2 ownBack fun s _ _ p => if at8 p 1 = 1 then s.setWhole false else s)) ∧
  (∀ (west : Bool) (s : State), s.net.forwarding = true → (if west then s.net.wrapWest else s.net.wrapEast) = false →
    exec (.ringWrapped west) s = .next (((({ s with net := { s.net with
      eastUp := if west then s.net.eastUp else false, westUp := if west then false else s.net.westUp
      wrapEast := s.net.wrapEast || !west, wrapWest := s.net.wrapWest || west } }).ev 0xA051).setWhole false).rowSend 0x21
      [if west then 1#8 else 0#8, 1#8])) ∧
  (∀ (west : Bool) (s : State), s.net.forwarding = false ∨ (if west then s.net.wrapWest else s.net.wrapEast) = true →
    exec (.ringWrapped west) s = .next s) ∧
  (∀ (west : Bool) (s : State), (if west then s.net.wrapWest else s.net.wrapEast) = true →
    (if west then s.net.westUp else s.net.eastUp) = true →
    s.elapsed (if west then s.net.lockWestAt else s.net.lockEastAt) 50000 = true →
    exec (.ringUnwrapped west) s = .next ((({ s with net := { s.net with
      wrapEast := s.net.wrapEast && west, wrapWest := s.net.wrapWest && !west } }).ev 0xA052).rowSend 0x21
      [if west then 1#8 else 0#8, 0#8])) ∧
  (∀ (west : Bool) (s : State), (if west then s.net.wrapWest else s.net.wrapEast) = false ∨
    (if west then s.net.westUp else s.net.eastUp) = false ∨
    s.elapsed (if west then s.net.lockWestAt else s.net.lockEastAt) 50000 = false →
    exec (.ringUnwrapped west) s = .next s)

/-- The cycle of the row ring (R390, R393 to R395), in every tick that is a multiple of 500 (log entry 110). Where it touches them it states the
model's choices of log entries 39, 40, 79, 92, 105, 114, 141. -/
def Obligations.RingCycleAndLead : Prop :=
  (∀ (s : State), s.net.joined = false ∨ s.due 500 s.net.cycleTick = false → exec .ringCycle s = .next s) ∧
  (∀ (s : State), s.net.joined = true → s.due 500 s.net.cycleTick = true →
    exec .ringCycle s = .next (
      let u := (((({ s with net := { s.net with cycleTick := some s.sys.tick } }).rowSend 0x10
        (statusBytes s.ownStatus)).memberStatus s.rackId s.shelfIndex s.net.ringSeq s.ownStatus).judgeMaster.timeFollow).elect
      let v := if u.sys.lead = true then u.leadCycle else u
      if v.net.timeMaster = true then
        v.rowSend 0x01 (leBytes 8 v.sys.timeNs ++ leBytes 8 0 ++ leBytes 1 v.net.clockClass)
      else v)) ∧
  (∀ (s : State), s.judgeMaster = { s with
      net := { s.net with timeMaster := s.ringMaster.any fun m => m.named s.rackId s.shelfIndex }
      evr := if s.net.timeMaster = false ∧ s.ringMaster.any (fun m => m.named s.rackId s.shelfIndex) = true then
          s.evs [(0xA05A, noInst, 0)] else s.evr }) ∧
  (∀ (s : State), s.net.joined = true →
    ((∃ m ∈ s.candidates, m.shelf = s.elect.net.leadShelf ∧ ∀ x ∈ s.candidates, s.leadKey m ≤ s.leadKey x) ∨
      (s.candidates = [] ∧ s.elect.net.leadShelf = 255)) ∧
    (s.candidates ≠ [] → s.elect.sys.lead = decide (s.elect.net.leadShelf = s.shelfIndex)) ∧
    (s.candidates = [] → s.elect.sys.lead = false) ∧
    s.elect.evr = s.evs (if s.sys.lead = s.elect.sys.lead then [] else
      [(if s.elect.sys.lead then 0xA054 else 0xA055, noInst, 0)])) ∧
  (∀ (s : State), s.net.joined = true → s.due 500 s.net.cycleTick = true →
    Gives .ringCycle s fun t =>
      (∃ m ∈ t.net.members, m.named s.rackId s.shelfIndex = true ∧ m.st = s.ownStatus ∧ m.at_ = s.rootNs) ∧
      .row s.net.wrapEast (rowFrame 0x10 (bitAt s.net.wrapEast 0) 510 s.rackId s.shelfIndex s.net.ringSeq
        (statusBytes s.ownStatus)) ∈ t.tx ∧
      (t.net.leadShelf = 255 ∨ ∃ m ∈ t.net.members, m.rack = s.rackId ∧ m.shelf = t.net.leadShelf ∧
        (m.st.state = 3 ∨ m.st.state = 4))) ∧
  (∀ (s : State), s.net.joined = true → s.due 500 s.net.cycleTick = true → s.net.members = [] → s.sys.state = .run →
    s.net.idConflict = false →
    Gives .ringCycle s fun t =>
      t.sys.lead = true ∧ t.net.leadShelf = s.shelfIndex ∧ t.net.cycleTick = some s.sys.tick ∧
      ∃ (q : Nat) (p : List Byte), p.length = 64 ∧
        .row s.net.wrapEast (rowFrame 0x11 (bitAt s.net.wrapEast 0) 510 s.rackId s.shelfIndex q p) ∈ t.tx) ∧
  (∀ (s : State), s.net.joined = true → s.due 500 s.net.cycleTick = true → s.net.members = [] → s.net.timeSrc = .ring →
    Gives .ringCycle s fun t => t.net.timeSrc = .holdover ∧ t.sys.timeNs = s.sys.timeNs) ∧
  (∀ (m : Member) (s : State), s.net.joined = true → s.due 500 s.net.cycleTick = true → s.net.members = [m] →
    s.sys.lead = true → s.sys.state = .standby → s.clk.ptpLock = false → s.net.timeMaster = false →
    m.rack = s.rackId → m.shelf ≠ s.shelfIndex → m.st.state = 4 → m.st.ptpLock = false → m.subject = false →
    s.rootNs ≤ m.at_ + 3000000 →
    Gives .ringCycle s fun t =>
      t.sys = { s.sys with lead := false } ∧ t.net.leadShelf = m.shelf ∧ t.evr = s.evs [(0xA055, noInst, 0)])

/-- The limits of the bus (R404 to R406, R426, R427, R429). A voltage at the limit trips (log entry 111); durations are counted on
root ticks (log entry 109). Where it touches them it states the
model's choices of log entries 59, 72, 104, 135. -/
def Obligations.BusLimits : Prop :=
  (∀ (v : Int) (s : State), s.prot.busOv = false → s.limit 2 ≤ v →
    exec (.busOvTrip v) s = .next (
      let u := ({ s with prot := { s.prot with busOv := true, ovTick := s.sys.tick } }).tripV 0xB010 0xFF 0 v (s.limit 2) noInst
      if s.sys.state = .run then u.leaveRunOff.afterOff
      else if s.sys.state = .basalt ∨ s.allOff = true then u.gdrvLow
      else u.groupsOff.afterOff)) ∧
  (∀ (v : Int) (s : State), s.prot.busOv = true ∨ v < s.limit 2 → exec (.busOvTrip v) s = .next s) ∧
  (∀ (v : Int) (s : State), s.prot.busOv = false → s.limit 2 ≤ v → s.sys.state = .run → s.sec.resetReq = none →
    s.prot.coolShutdown = false →
    Gives (.busOvTrip v) s fun t =>
      t.prot.busOv = true ∧ t.sys.state = .armed ∧ t.prot.tripCount = bump 32 s.prot.tripCount ∧
      ∀ g : Fin 4, (t.grp g).state = .off ∧ t.sys.gdrvEn[g.val] = false) ∧
  (∀ (v : Int) (s : State), s.prot.busOv = false → s.limit 2 ≤ v → s.sys.state = .basalt →
    Gives (.busOvTrip v) s fun t =>
      t.prot.busOv = true ∧ t.sys.state = .basalt ∧ t.pwm = s.pwm ∧ t.prot.tripCount = bump 32 s.prot.tripCount ∧
      (∀ g : Fin 4, t.sys.gdrvEn[g.val] = false) ∧ t.evr = s.evs [(0xB010, noInst, codeS 32 (sat32 v))]) ∧
  (∀ (s : State), s.prot.busOv = true → s.elapsed s.prot.ovTick 5000 = true →
    exec .busOvRecovery s = .next (({ s with prot := { s.prot with busOv := false } }).basaltGdrv)) ∧
  (∀ (s : State), s.prot.busOv = false ∨ s.elapsed s.prot.ovTick 5000 = false → exec .busOvRecovery s = .next s) ∧
  (∀ (s : State),
    (s.sys.state ≠ .basalt ∨ s.prot.busOv = true ∨ s.prot.busFault = true ∨ s.prot.imageBad = true ∨ s.prot.rootless = true →
      s.basaltGdrv = s) ∧
    (s.sys.state = .basalt → s.prot.busOv = false → s.prot.busFault = false → s.prot.imageBad = false →
      s.prot.rootless = false →
      s.basaltGdrv = { s with sys := { s.sys with gdrvEn := s.basaltGdrv.sys.gdrvEn } } ∧
      ∀ g : Fin 4, s.basaltGdrv.sys.gdrvEn[g.val] = (s.sys.gdrvEn[g.val] || (s.grp g).basaltDrives))) ∧
  (∀ (v : Int) (s : State), s.prot.busUv = false → v ≤ s.limit 3 →
    exec (.busUvTrip v) s = .next (((({ s with prot := { s.prot with busUv := true, uvTick := s.sys.tick } }).tripV
      0xB011 0xFF 0 v (s.limit 3) noInst).holdSync).throttleAllPorts 6)) ∧
  (∀ (v : Int) (s : State), s.prot.busUv = true ∨ s.limit 3 < v → exec (.busUvTrip v) s = .next s) ∧
  (∀ (v : Int) (s : State), s.prot.busUv = false → v ≤ s.limit 3 → s.sys.state = .run ∨ s.sys.state = .basalt →
    Gives (.busUvTrip v) s fun t =>
      t.prot.busUv = true ∧ t.sys.rackHoldDrive = true ∧ t.tlk.causes[6] = true ∧ t.tlk.throttleAll = true ∧
      t.prot.uvTick = s.sys.tick ∧ t.prot.tripCount = bump 32 s.prot.tripCount ∧ t.sys.state = s.sys.state) ∧
  (∀ (s : State), s.prot.busUv = true → s.elapsed s.prot.uvTick 500 = true →
    exec .busUvCleared s = .next
      ((((({ s with prot := { s.prot with busUv := false, busFault := false } }).holdSync).clearCause 6).basaltGdrv).ev 0xB012)) ∧
  (∀ (s : State), s.prot.busUv = false ∨ s.elapsed s.prot.uvTick 500 = false → exec .busUvCleared s = .next s) ∧
  (∀ (v : Int) (s : State), s.prot.busUv = true → s.prot.busFault = false → v ≤ s.limit 3 →
    s.elapsed s.prot.uvTick (500 * s.prot.uvPersistMs) = true →
    exec (.busFault v) s = .next (
      let u := ({ s with prot := { s.prot with busFault := true } }).tripV 0xB013 0xFF 0 v (s.limit 3) noInst
      if s.sys.state = .run then u.leaveRunOff.afterOff
      else if s.sys.state = .basalt ∨ s.allOff = true then u.gdrvLow
      else u.groupsOff.afterOff)) ∧
  (∀ (v : Int) (s : State), s.prot.busUv = false ∨ s.prot.busFault = true ∨ s.limit 3 < v ∨
    s.elapsed s.prot.uvTick (500 * s.prot.uvPersistMs) = false → exec (.busFault v) s = .next s) ∧
  (∀ (v : Int) (s : State), s.prot.busUv = true → s.prot.busFault = false → v ≤ s.limit 3 →
    s.elapsed s.prot.uvTick (500 * s.prot.uvPersistMs) = true → s.sys.state = .run → s.sec.resetReq = none →
    s.prot.coolShutdown = false →
    Gives (.busFault v) s fun t =>
      t.prot.busFault = true ∧ t.sys.state = .armed ∧ t.prot.tripCount = bump 32 s.prot.tripCount ∧
      ∀ g : Fin 4, (t.grp g).state = .off ∧ t.sys.gdrvEn[g.val] = false) ∧
  (∀ (sess : Fin 64) (s : State), s.allows sess .oa = true →
    exec (.tripClear sess) s = .next { s with prot := { s.prot with
      trips := Vector.replicate 16 none, tripHead := 0, tripFirst := none } })

/-- The cells of a string and the die temperature (R404, R407 to R409, R411, R412, R417, R427, R450). The clean times are counted on
root ticks (log entry 109); the reading of a trip to which the spec gives no value is free (log entry 7). Where it touches them it states the
model's choices of log entries 72, 82, 135. -/
def Obligations.StringsAndTheDie : Prop :=
  (∀ (i : Fin 4) (s : State), s.stageTwo i = true → s.prot.str[i.val].isolated = false →
    exec (.stringIsolated i) s = .next (
      let v := s.stageTwoValue i
      ((((((s.stopGroup i).strContactor i.val false).updStrProt i fun p => { p with isolated := true }).strTrip i 0xB024
        ((v.map Prod.fst).getD 0) (v.map Prod.snd)).degrade).armCheck))) ∧
  (∀ (i : Fin 4) (s : State), s.stageTwo i = false ∨ s.prot.str[i.val].isolated = true → exec (.stringIsolated i) s = .next s) ∧
  (∀ (i : Fin 4) (s : State), s.stageTwo i = true →
    s.prot.str[i.val].isolated = false → s.sys.passage = .none →
    Gives (.stringIsolated i) s fun t =>
      t.prot.str[i.val].isolated = true ∧ t.sys.degraded = true ∧
      ((s.grp i).state = .running → (t.grp i).state = .stopping) ∧
      ∀ j, j ≠ i → t.grp j = s.grp j) ∧
  (∀ (i c : Fin 4) (k : Nat) (s : State), s.ringOf i.val = some c →
    (s.ringCells c).find? (fun k =>
      ((s.ring c).cellAt k).unmonitored && s.elapsed ((s.ring c).cellAt k).unmonAt (500000 * s.prot.unmonS)) = some k → s.prot.str[i.val].unmonLimit = false →
    exec (.unmonLimited i) s = .next ((s.updStrProt i fun p => { p with unmonLimit := true, cellNo := k }).strTrip i 0xB025
      (((s.nodeList c).find? fun n => (s.cellsOf c n).any fun x => x.2 = k).getD 0) none)) ∧
  (∀ (i : Fin 4) (s : State), s.prot.str[i.val].unmonLimit = true ∨ s.ringOf i.val = none ∨
    (∃ c, s.ringOf i.val = some c ∧ ∀ k ∈ s.ringCells c, ((s.ring c).cellAt k).unmonitored = false ∨
      s.elapsed ((s.ring c).cellAt k).unmonAt (500000 * s.prot.unmonS) = false) →
    exec (.unmonLimited i) s = .next s) ∧
  (∀ (v : Int) (s : State), s.dieRead v = { s with prot := { s.prot with
      dieT := v, dieTrip := decide (s.limit 9 ≤ v)
      dieHotTick := if s.limit 9 - 1000 ≤ v then s.sys.tick else s.prot.dieHotTick } }) ∧
  (∀ (v : Int) (s : State),
    exec (.dieWarn v) s = .next (
      if s.prot.dieWarn = true ∨ v < 100 * (s.prot.dieWarnC : Int) then s.dieRead v
      else ((({ s.dieRead v with
        prot := { (s.dieRead v).prot with dieWarn := true }, fce := { s.fce with dieStop := true } }).ev 0xB030).engineSync))) ∧
  (∀ (v : Int) (s : State), s.prot.dieWarn = false → 100 * (s.prot.dieWarnC : Int) ≤ v → s.fce.running = true →
    Gives (.dieWarn v) s fun t =>
      t.prot.dieWarn = true ∧ t.fce.dieStop = true ∧ t.fce.running = false ∧
      t.evr = s.evs [(0xB030, noInst, 0), (0x6002, noInst, 0)]) ∧
  (∀ (v : Int) (s : State),
    exec (.dieWarnCleared v) s = .next (
      if s.prot.dieWarn = true ∧ v < 100 * (s.prot.dieWarnC : Int) - 500 then
        ((({ s.dieRead v with
          prot := { (s.dieRead v).prot with dieWarn := false }, fce := { s.fce with dieStop := false } }).ev 0xB031).engineSync)
      else s.dieRead v)) ∧
  (∀ (v : Int) (s : State), s.prot.dieWarn = true → v < 100 * (s.prot.dieWarnC : Int) - 500 →
    s.inState [.armed, .run] = true → s.fce.forecastEn = true → s.fce.running = false →
    Gives (.dieWarnCleared v) s fun t =>
      t.prot.dieWarn = false ∧ t.fce.dieStop = false ∧ t.fce.running = true ∧
      t.evr = s.evs [(0xB031, noInst, 0), (0x6001, noInst, 0)]) ∧
  (∀ (v : Int) (s : State), s.limit 9 ≤ v →
    exec (.dieTrip v) s =
      .next (((((s.dieRead v).tripV 0xB032 0xFF 0 v (s.limit 9) noInst).dieWarnSet).basaltCause 2))) ∧
  (∀ (v : Int) (s : State), v < s.limit 9 → exec (.dieTrip v) s = .next (s.dieRead v)) ∧
  (∀ (v : Int) (s : State), s.limit 9 ≤ v → s.sys.state = .standby → s.prot.causes[2] = false →
    s.sec.resetReq = none → s.power.inputLoss = false →
    Gives (.dieTrip v) s fun t =>
      t.prot.causes[2] = true ∧ t.prot.dieTrip = true ∧ t.prot.dieT = v ∧ t.prot.dieWarn = true ∧ t.sys.state = .standby ∧
      t.prot.tripCount = bump 32 (bump 32 s.prot.tripCount) ∧ ∀ g : Fin 4, t.sys.gdrvEn[g.val] = false) ∧
  (∀ (v : Int) (s : State),
    exec (.dieTripCleared v) s = .next (
      if v < s.limit 9 - 1000 ∧ s.elapsed s.prot.dieHotTick 5000000 = true then (s.dieRead v).causeClear 2 else s.dieRead v)) ∧
  (∀ (s : State),
    exec .missedTicksCleared s = .next (
      if s.clk.rootLock = true ∧ s.clk.fabricStopped = false ∧ s.elapsed s.prot.missTick 50000 = true then s.causeClear 0 else s)) ∧
  (∀ (c : Fin 4) (s : State), s.prot.causes[c.val] = false → s.causeClear c = s) ∧
  (∀ (c : Fin 4) (s : State), s.prot.causes[c.val] = true → s.sys.state ≠ .basalt →
    s.causeClear c = { s with
      prot := { s.prot with causes := updV s.prot.causes c fun _ => false }, evr := s.evs [(0xB00A, noInst, 2 ^ c.val)] }) ∧
  (∀ (c : Fin 4) (s : State), s.prot.causes[c.val] = true → s.sys.state = .basalt →
    s.causeClear c = (
      let l := updV s.prot.causes c fun _ => false
      if s.prot.exitOk = false ∧ l[0] = false ∧ l[1] = false ∧ l[2] = false then { s with
        prot := { s.prot with causes := l, exitOk := true, exitTick := s.sys.tick }, evr := s.evs [(0xB002, noInst, 0)] }
      else { s with prot := { s.prot with causes := l } }))

/-- Entry into BASALT, its run and its exits (R411 to R419, R429). The readings of the monitor converters are operands; a quotient by a
voltage of 0 is free (log entry 7); the rootless ramp is linear over 20,000 updates and the 60 s are 1,200,000 updates (log
entry 120); a group that is OFF under Basalt stays OFF on its return (log entry 72). Where it touches them it states the
model's choices of log entries 109, 120. -/
def Obligations.EntryIntoAndExitFromBasalt : Prop :=
  (∀ (c : Instr) (s : State), s.sys.state = .run → s.prot.imageOk = true → s.clk.fabricStopped = false →
    s.power.inputLoss = false →
    (∃ m, c = .missedTicks m ∧ 3 ≤ m ∧ s.cfg.activeValid = true) ∨ (∃ v, c = .dieTrip v ∧ s.limit 9 ≤ v) ∨
      (∃ n, c = .basaltEnter n ∧ s.allows n .or_ = true) →
    Gives c s fun t =>
      t.sys.state = .basalt ∧ t.tlk.causes[3] = true ∧ t.tlk.throttleAll = true ∧ t.sys.rackHoldDrive = true ∧
      t.prot.entryHold = true ∧ t.fce.running = false ∧ t.est.gRunning = false ∧
      (t.prot.causes[0] = true ∨ t.prot.causes[2] = true ∨ t.prot.causes[3] = true) ∧
      (∀ g, (s.grp g).state = .running ∨ (s.grp g).state = .softStart ∨ (s.grp g).state = .fastPath →
        (t.grp g).state = .basalt) ∧
      ∀ n, (t.port n).state ≠ .active ∧ (t.port n).state ≠ .takenOver ∧ (t.port n).state ≠ .watch) ∧
  (∀ (m : Nat) (s : State), exec (.missedTicks m) s = .next (
    let u := { s with prot := { s.prot with missedTicks := satU 32 (s.prot.missedTicks + m), missTick := s.sys.tick } }
    if m = 0 then s else if s.cfg.activeValid = true ∧ 3 ≤ m then u.basaltCause 0 else u)) ∧
  (∀ (c : Fin 4) (s : State),
    (s.power.inputLoss = true → s.basaltCause c = s) ∧
    (s.power.inputLoss = false → s.sys.state = .basalt → s.basaltCause c = { s with prot := { s.prot with
      causes := updV s.prot.causes c fun _ => true, exitOk := if c = 3 then s.prot.exitOk else false } }) ∧
    (s.power.inputLoss = false → s.sys.state = .run →
      s.basaltCause c = ({ s with prot := { s.prot with causes := updV s.prot.causes c fun _ => true } }).enterBasalt) ∧
    (s.power.inputLoss = false → s.sys.state ≠ .run → s.sys.state ≠ .basalt → s.prot.causes[c.val] = true →
      s.basaltCause c = s)) ∧
  (∀ (c : Fin 4) (s : State), s.power.inputLoss = false → s.sys.state = .standby ∨ s.sys.state = .armed →
    s.prot.causes[c.val] = false → s.sec.resetReq = none →
    (s.basaltCause c).prot.causes[c.val] = true ∧ (s.basaltCause c).sys.state = s.sys.state ∧
    (∀ g : Fin 4, (s.basaltCause c).sys.gdrvEn[g.val] = false ∧ ((s.basaltCause c).grp g).state = .off) ∧
    (s.basaltCause c).prot.tripCount = bump 32 s.prot.tripCount) ∧
  (∀ (sess : Fin 64) (s : State), s.allows sess .or_ = true → exec (.basaltEnter sess) s = .next (s.basaltCause 3)) ∧
  (∀ (v : Int) (s : State), s.limit 9 ≤ v → s.sys.state = .run → s.power.inputLoss = false →
    Gives (.dieTrip v) s fun t => t.sys.state = .basalt ∧ t.prot.causes[2] = true ∧ t.prot.exitOk = false) ∧
  (∀ (s : State), s.prot.entryHold = true → s.elapsed s.prot.entryTick 5000 = true →
    Gives .entryHoldRelease s fun t =>
      t.prot = { s.prot with entryHold := false } ∧ (s.prot.busUv = false → t.sys.rackHoldDrive = false) ∧
      (s.prot.busUv = true → t.sys.rackHoldDrive = true)) ∧
  (∀ (s : State), s.prot.entryHold = false ∨ s.elapsed s.prot.entryTick 5000 = false → exec .entryHoldRelease s = .next s) ∧
  (∀ (s : State), s.sys.state ≠ .basalt ∨ s.clk.fabricStopped = false ∨ s.prot.rootless = true ∨
    s.prot.rootlessRun ≠ 1200000 → exec .basaltRootlessStop s = .next s) ∧
  (∀ (s : State), s.sys.state = .basalt → s.clk.fabricStopped = true → s.prot.rootless = false →
    s.prot.rootlessRun = 1200000 →
    Gives .basaltRootlessStop s fun t =>
      t.prot = { s.prot with rootless := true, rootRamp := 20000, rootIpk := s.prot.basaltIpk } ∧ t.pwm = s.pwm ∧
      t.evr = s.evs [(0xB005, noInst, 0)]) ∧
  (∀ (m : Sys2Proof.BasaltSense) (s : State), s.prot.updateTick = none → s.prot.rootless = true → s.prot.rootRamp = 1 →
    Gives (.basaltUpdate m) s fun t =>
      t.prot.rootRamp = 0 ∧ (∀ g : Fin 4, t.prot.basaltIpk[g.val] = 0 ∧ t.sys.gdrvEn[g.val] = false) ∧
      ∀ g, (s.grp g).state = .basalt → ∀ p ∈ s.actives g, (t.ph p).iPk = 0) ∧
  (∀ (sess : Fin 64) (s : State), s.allows sess .oa = true → s.sys.state ≠ .basalt ∨ s.prot.exitOk = false →
    exec (.basaltExit sess) s = .next s) ∧
  (∀ (sess : Fin 64) (s : State), s.allows sess .oa = true → s.sys.state = .basalt → s.prot.exitOk = true →
    exec (.basaltExit sess) s = .next s.basaltExit.afterBasalt) ∧
  (∀ (sess : Fin 64) (s : State), s.allows sess .oa = true → s.sys.state = .basalt → s.prot.exitOk = true →
    s.prot.coolShutdown = false → s.sec.watchdogDue = false →
    Gives (.basaltExit sess) s fun t =>
      t.sys.state = .run ∧ t.prot.exitOk = false ∧ t.prot.entryHold = false ∧ ∀ c : Fin 4, t.prot.causes[c.val] = false) ∧
  (∀ (sess : Fin 64) (s : State), s.allows sess .oa = true → s.sys.state = .basalt → s.prot.exitOk = true →
    s.prot.coolShutdown = true → s.sec.watchdogDue = false → s.sys.target = 3 → s.sec.resetReq = none →
    Gives (.basaltExit sess) s fun t => t.sys.state = .armed ∧ t.prot.exitOk = false) ∧
  (∀ (s : State), s.sys.state ≠ .basalt ∨ s.prot.exitOk = false ∨ s.prot.autoExit = false ∨ s.prot.causes[3] = true ∨
    s.elapsed s.prot.exitTick (500000 * s.prot.exitHoldS) = false → exec .basaltAutoExit s = .next s) ∧
  (∀ (s : State), s.sys.state = .basalt → s.prot.exitOk = true → s.prot.autoExit = true → s.prot.causes[3] = false →
    s.elapsed s.prot.exitTick (500000 * s.prot.exitHoldS) = true →
    exec .basaltAutoExit s = .next s.basaltExit.afterBasalt) ∧
  (∀ (s : State), s.sys.state = .basalt → s.prot.exitOk = true → s.prot.autoExit = true → s.prot.causes[3] = false →
    s.elapsed s.prot.exitTick (500000 * s.prot.exitHoldS) = true →
    s.prot.coolShutdown = false → s.sec.watchdogDue = false →
    Gives .basaltAutoExit s fun t =>
      t.sys.state = .run ∧ t.prot.exitOk = false ∧ t.est.gRunning = true) ∧
  (∀ (m : Sys2Proof.BasaltSense) (t0 : Nat) (s : State), s.prot.updateTick = some t0 → s.elapsed t0 25 = false →
    exec (.basaltUpdate m) s = .next { s with prot := { s.prot with
      rootlessRun := if s.sys.state = .basalt ∧ s.clk.fabricStopped = true then min 1200000 (s.prot.rootlessRun + 1) else 0 } }) ∧
  (∀ (m : Sys2Proof.BasaltSense) (s : State), (∀ g, (s.grp g).state ≠ .basalt ∧ (s.grp g).basaltStop = false) →
    s.prot.rootRamp = 0 →
    Gives (.basaltUpdate m) s fun t => t.pwm = s.pwm ∧ t.sys = s.sys ∧ t.prot.basaltIpk = s.prot.basaltIpk) ∧
  (∀ (m : Sys2Proof.BasaltSense) (g : Fin 4) (img : BasaltImg) (s : State), (s.grp g).state = .basalt →
    s.sys.gdrvEn[g.val] = true → s.nAct g ≠ 0 → (∀ j, j ≠ g → (s.grp j).state ≠ .basalt) → s.prot.image[g.val] = some img →
    s.prot.updateTick = none → s.prot.rootRamp = 0 → s.prot.rootless = false →
    Gives (.basaltUpdate m) s fun t =>
      t.prot.busVBasalt = sat32 m.vBus[g.val] ∧
      t.prot.basaltIpk[g.val] = s.basaltPeak g img (s.nAct g) m.vBus[g.val] m.vStr[g.val] ∧
      (t.prot.basaltIpk[g.val] - s.prot.basaltIpk[g.val]).natAbs ≤ (Int.tdiv img.phPeak 4).natAbs ∧
      (∀ p ∈ s.actives g, (t.ph p).iPk = t.prot.basaltIpk[g.val]) ∧ ∀ j, j ≠ g → t.grp j = s.grp j) ∧
  (∀ (m : Sys2Proof.BasaltSense) (g : Fin 4) (s : State), (s.grp g).state = .stopping → (s.grp g).basaltStop = true →
    25 ≤ (s.grp g).rampLeft → (∀ j, j ≠ g → (s.grp j).state ≠ .basalt ∧ (s.grp j).basaltStop = false) →
    s.prot.updateTick = none → s.prot.rootRamp = 0 →
    Gives (.basaltUpdate m) s fun t =>
      (t.grp g).rampLeft = (s.grp g).rampLeft - 25 ∧
      t.prot.basaltIpk[g.val] =
        Int.tdiv ((s.grp g).stopPk * (((s.grp g).rampLeft - 25 : Nat) : Int)) (((s.grp g).rampLen : Nat) : Int) ∧
      (∀ p ∈ s.actives g, (t.ph p).iPk = t.prot.basaltIpk[g.val]) ∧ ∀ j, j ≠ g → t.grp j = s.grp j) ∧
  (∀ (sess : Fin 64) (mask : BitVec 4) (s : State), s.allows sess .or_ = true →
    exec (.groupReturn sess mask) s =
      .next ((List.finRange 4).foldl (fun s g => if tb mask.toNat g.val then s.groupReturn g else s) s)) ∧
  (∀ (g : Fin 4) (s : State), s.loop.basaltGroups[g.val] = false ∨ s.sys.tick < s.prot.handTick[g.val] + 500000 →
    s.groupReturn g = s) ∧
  (∀ (g : Fin 4) (s : State), s.loop.basaltGroups[g.val] = true → s.prot.handTick[g.val] + 500000 ≤ s.sys.tick →
    (s.groupReturn g).loop.basaltGroups[g.val] = false ∧
    ((s.grp g).state = .basalt → ((s.groupReturn g).grp g).state = .softStart) ∧
    ((s.grp g).state = .off → ((s.groupReturn g).grp g).state = .off) ∧
    (∀ j, j ≠ g → (s.groupReturn g).grp j = s.grp j ∧ (s.groupReturn g).loop.basaltGroups[j.val] = s.loop.basaltGroups[j.val])) ∧
  (∀ (sess : Fin 64) (g : Fin 4) (mask : BitVec 4) (s : State), s.allows sess .or_ = true →
    s.loop.basaltGroups[g.val] = true → s.prot.handTick[g.val] + 500000 ≤ s.sys.tick → tb mask.toNat g.val = true →
    (∀ j : Fin 4, j ≠ g → s.loop.basaltGroups[j.val] = false) → (s.grp g).state = .basalt →
    Gives (.groupReturn sess mask) s fun t => t.loop.basaltGroups[g.val] = false ∧ (t.grp g).state = .softStart ∧
      (∀ j, j ≠ g → t.grp j = s.grp j) ∧ ∃ u : State, t.evr = u.evs [(0xB008, g.val, 0)])

/-- The coolant rules (R420 to R422, R429). With COOL_FLOW_CH 0 no flow is measured, and its condition counts as met (log entry 119). Where it touches them it states the
model's choices of log entries 72, 109, 135. -/
def Obligations.CoolantLossAndRecovery : Prop :=
  (∀ (s : State), s.prot.flowLow = false → 5000 * s.prot.flowMs ≤ s.prot.flowBelow →
    exec .coolantFlowLow s = .next (({ s with
      prot := { s.prot with flowLow := true }, evr := s.evs [(0xB040, noInst, 0)] }).rampStart)) ∧
  (∀ (s : State), s.prot.flowLow = true ∨ s.prot.flowBelow < 5000 * s.prot.flowMs → exec .coolantFlowLow s = .next s) ∧
  (∀ (sess : Fin 64) (s : State), s.allows sess .ox = true →
    exec (.cduAlarm sess) s = .next (({ s with
      prot := { s.prot with cduAlarm := true }, evr := s.evs [(0xB041, noInst, 0)] }).rampStart)) ∧
  (∀ (s : State), s.rampStart = if s.prot.thermalRamp = true then s else { s with prot := { s.prot with
      thermalRamp := true, rampDone := false, rampJ := 0, rampTick := s.sys.tick
      rampEnv0 := (List.finRange 64).map fun n => (s.port n).target } }) ∧
  (∀ (sess : Fin 64) (s : State), s.allows sess .oa = true →
    exec (.cduClear sess) s = .next { s with prot := { s.prot with cduAlarm := false } }) ∧
  (∀ (s : State), s.prot.thermalRamp = true → s.prot.rampDone = false →
    s.elapsed s.prot.rampTick 500 = true →
    exec .thermalRampStep s = .next (
      let u := { s with prot := { s.prot with rampJ := s.prot.rampJ + 1, rampTick := s.sys.tick } }
      let v := ((u.portsWhere fun p => p.state.counted).filter fun n => u.rampEnv n < (s.port n).target).foldl
        (fun x n => (x.updPort n fun p => { p with target := x.rampEnv n }).sendGrant n) u
      if 100 * s.prot.rampMs ≤ s.prot.rampJ + 1 then { v with
        prot := { v.prot with rampDone := true }, evr := v.evs [(0xB042, noInst, 0)] } else v)) ∧
  (∀ (s : State), s.prot.thermalRamp = true → s.prot.rampDone = false →
    s.elapsed s.prot.rampTick 500 = true →
    Gives .thermalRampStep s fun t =>
      t.prot.rampJ = s.prot.rampJ + 1 ∧ (∀ n, (t.port n).target ≤ (s.port n).target) ∧
      (∀ n, (s.port n).state.counted = false → t.port n = s.port n) ∧
      t.prot.rampDone = decide (100 * s.prot.rampMs ≤ s.prot.rampJ + 1)) ∧
  (∀ (s : State), s.prot.thermalRamp = false ∨ s.prot.rampDone = true ∨ s.elapsed s.prot.rampTick 500 = false →
    exec .thermalRampStep s = .next s) ∧
  (∀ (s : State), s.prot.thermalRamp = true → s.prot.cduAlarm = false →
    s.param 0x0010 0 = 0 ∨ 30000000 ≤ s.prot.flowAbove →
    exec .coolantRestored s = .next { s with
      prot := { s.prot with thermalRamp := false, rampDone := false, flowLow := false, rampJ := 0, rampEnv0 := [] }
      evr := s.evs [(0xB045, noInst, 0)] }) ∧
  (∀ (s : State), s.prot.thermalRamp = false ∨ s.prot.cduAlarm = true ∨
    (s.param 0x0010 0 ≠ 0 ∧ s.prot.flowAbove < 30000000) → exec .coolantRestored s = .next s) ∧
  (∀ (k : Nat) (s : State), s.prot.coolNext = some (k + 1) →
    k = 3 ∨ s.elapsed s.prot.coolTick (5000 * s.prot.staggerMs) = true →
    exec .coolantGroupStop s = .next (
      let u := { s with prot := { s.prot with coolShutdown := true, coolTick := s.sys.tick } }
      match s.coolGroup (k + 1) with
      | none => ({ u with prot := { u.prot with coolNext := some 0 } }).afterOff
      | some g =>
        let v := u.stopGroup g
        ({ v with prot := { v.prot with coolNext := some (if (v.coolGroup g.val).isSome then g.val else 0) } }).afterOff)) ∧
  (∀ (k : Nat) (s : State),
    (∀ g, s.coolGroup k = some g → g.val < k ∧ (s.grp g).state.switching = true ∧ (s.grp g).state ≠ .stopping ∧
      ∀ j : Fin 4, j.val < k → g.val < j.val → (s.grp j).state.switching = false ∨ (s.grp j).state = .stopping) ∧
    (s.coolGroup k = none → ∀ j : Fin 4, j.val < k → (s.grp j).state.switching = false ∨ (s.grp j).state = .stopping)) ∧
  (∀ (k : Nat) (g : Fin 4) (s : State), s.prot.coolNext = some (k + 1) → s.coolGroup (k + 1) = some g →
    k = 3 ∨ s.elapsed s.prot.coolTick (5000 * s.prot.staggerMs) = true →
    (s.grp g).state = .running → s.sys.state = .run →
    Gives .coolantGroupStop s fun t =>
      t.prot.coolShutdown = true ∧ (t.grp g).state = .stopping ∧ (∀ j, j ≠ g → t.grp j = s.grp j)) ∧
  (∀ (s : State), s.prot.coolNext = none ∨ s.prot.coolNext = some 0 ∨
    (s.prot.coolNext ≠ some 4 ∧ s.elapsed s.prot.coolTick (5000 * s.prot.staggerMs) = false) →
    exec .coolantGroupStop s = .next s) ∧
  (∀ (s : State), 30000000 ≤ s.prot.coolBelow →
    exec .coolantCritRecovery s = .next { s with prot := { s.prot with
      coolCrit := false, coolShutdown := false, coolNext := none } }) ∧
  (∀ (s : State), s.prot.coolBelow < 30000000 → exec .coolantCritRecovery s = .next s)

/-- The DMA channels (R461 to R465, R486). How many bursts a channel has moved at a command is an operand; the order the arbiter
grants them in is the model's reading of R463 (log entry 142); CRC_WB's trailer is that of R464. Where it touches them it states the
model's choices of log entries 12, 25, 63. -/
def Obligations.DmaTransfers : Prop :=
  (∀ (n : Fin 32) (d : DmaDesc) (sh : Option DmaDesc) (moved : List (Fin 32 × Nat)) (s : State), s.mem.ch[n.val].busy = false → s.lit = true →
    exec (.dmaStart n d sh moved) s = .next (
      let u := (if (d.crit && decide (n.val < 28)) = true then s.dmaMoved moved else s).updDma n fun c =>
        { c with act := dmaSetOf d n.val false
                 shadow := (sh.map fun x => dmaSetOf x n.val true).getD { c.shadow with arm := false } }
      if (u.dmaBegin n).mem.ch[n.val].state = .progError then (u.dmaBegin n).dmaChain n else u.dmaBegin n)) ∧
  (∀ (n : Fin 32) (d : DmaDesc) (sh : Option DmaDesc) (moved : List (Fin 32 × Nat)) (s : State), s.mem.ch[n.val].busy = true ∨ s.lit = false →
    exec (.dmaStart n d sh moved) s = .next s) ∧
  (∀ (n : Fin 32) (d : DmaDesc) (moved : List (Fin 32 × Nat)) (s : State), s.lit = true → s.mem.ch[n.val].busy = false → (dmaSetOf d n.val false).ok n.val = true →
    n.val < 28 → d.crit = false →
    Gives (.dmaStart n d none moved) s fun t =>
      t.mem.ch[n.val].state = .running ∧ t.mem.ch[n.val].act = dmaSetOf d n.val false ∧
      t.mem.ch[n.val].line = 0 ∧ t.mem.ch[n.val].pos = 0 ∧ State.only [.mem] s t ∧
      t.mem = { s.mem with ch := t.mem.ch } ∧
      ∀ m : Fin 32, m ≠ n → t.mem.ch[m.val] = s.mem.ch[m.val]) ∧
  (∀ (n : Fin 32) (d : DmaDesc) (moved : List (Fin 32 × Nat)) (s : State), s.lit = true → s.mem.ch[n.val].busy = false → (dmaSetOf d n.val false).ok n.val = false →
    n.val < 28 → d.crit = false →
    Gives (.dmaStart n d none moved) s fun t =>
      t.mem.ch[n.val].state = .progError ∧ t.mem.ch[n.val].irq = s.mem.ch[n.val].irq + 1 ∧
      t.mem.ch[n.val].descriptors = wrapU 16 (s.mem.ch[n.val].descriptors + 1) ∧
      t.mem = { s.mem with progErrors := bump 32 s.mem.progErrors, ch := t.mem.ch } ∧
      (∀ m : Fin 32, m ≠ n → t.mem.ch[m.val] = s.mem.ch[m.val]) ∧ t.evr = s.evs [(0xC010, n.val, 0)] ∧
      State.only [.mem, .evr] s t) ∧
  (∀ (n : Fin 32) (s : State), s.mem.ch[n.val].state = .running → s.mem.ch[n.val].act.pages.all s.pageResident = true →
    exec (.dmaDone n) s = .next (
      let u := s.dmaRun n s.mem.ch[n.val].act.bursts
      let c := u.mem.ch[n.val]
      let crc := c.crcRun ^^^ 0xFFFFFFFF
      let v := if c.act.crcWb = true then
          (u.spaceWrite (dmaSpace c.act.dst) c.act.trailerAt
            (leBytes 4 crc ++ leBytes 8 (c.act.lines * c.act.lineLen) ++ List.replicate 52 0)).usePages
            (tierPages (dmaSpace c.act.dst) c.act.trailerAt 64) true
        else u
      (v.updDma n fun c => { c with crc := crc, crcValid := true, residue := 0, residueB := 0 }).dmaEnd n .done)) ∧
  (∀ (n : Fin 32) (s : State), s.mem.ch[n.val].state ≠ .running ∨ s.mem.ch[n.val].act.pages.all s.pageResident = false →
    exec (.dmaDone n) s = .next s) ∧
  (∀ (n : Fin 32) (a b k : Nat) (s : State), s.mem.ch[n.val].state = .running → s.mem.ch[n.val].act.src = a →
    s.mem.ch[n.val].act.dst = b → s.mem.ch[n.val].act.lineLen = k → s.mem.ch[n.val].act.lines = 1 → 64 ≤ k → k ≤ 4096 →
    a + k ≤ 2 ^ 29 → b + k ≤ 2 ^ 29 → s.mem.ch[n.val].line = 0 → s.mem.ch[n.val].pos = 0 → s.mem.ch[n.val].held = [] →
    s.mem.ch[n.val].act.crcWb = false → s.mem.ch[n.val].shadow.arm = false → s.mem.ch[n.val].crcRun = 0xFFFFFFFF →
    (∀ m : Fin 32, m ≠ n → s.mem.ch[m.val].state ≠ .running) →
    Gives (.dmaDone n) s fun t =>
      t.mem.sram = s.mem.sram.writeN b (s.mem.sram.readN a k) ∧ t.mem.hbm = s.mem.hbm ∧ t.mem.tier = s.mem.tier ∧
      t.mem.ch[n.val].crc = crc32c (s.mem.sram.readN a k) ∧ t.mem.ch[n.val].crcValid = true ∧
      t.mem.ch[n.val].state = .done ∧ t.mem.ch[n.val].residue = 0 ∧ t.mem.ch[n.val].residueB = 0 ∧
      t.mem.ch[n.val].irq = s.mem.ch[n.val].irq + 1) ∧
  (∀ (n : Fin 32) (k : Nat) (s : State), s.mem.ch[n.val].state = .running →
    exec (.dmaBusError n k) s = .next (
      let u := s.dmaRun n k
      ((({ u with mem := { u.mem with busErrors := bump 32 u.mem.busErrors } }).updDma n DmaCh.withResidue).ev 0xC011 n.val).dmaEnd n .bad)) ∧
  (∀ (n : Fin 32) (k : Nat) (s : State), s.mem.ch[n.val].state ≠ .running → exec (.dmaBusError n k) s = .next s) ∧
  (∀ (n : Fin 32) (s : State), s.mem.ch[n.val].state = .running → s.mem.ch[n.val].shadow.arm = false →
    s.mem.ch[n.val].line < s.mem.ch[n.val].act.lines →
    Gives (.dmaBusError n 0) s fun t =>
      t.mem.ch[n.val].state = .bad ∧ t.mem.ch[n.val].residue = s.mem.ch[n.val].act.lines - s.mem.ch[n.val].line ∧
      t.mem.ch[n.val].residueB = s.mem.ch[n.val].act.lineLen - s.mem.ch[n.val].pos ∧
      t.mem.ch[n.val].irq = s.mem.ch[n.val].irq + 1 ∧ t.mem.busErrors = bump 32 s.mem.busErrors ∧
      t.mem.sram = s.mem.sram ∧ t.mem.hbm = s.mem.hbm ∧ t.mem.tier = s.mem.tier) ∧
  (∀ (n : Fin 32) (k : Nat) (s : State), s.mem.ch[n.val].busy = true →
    exec (.dmaAbort n k) s = .next (
      let u := if s.mem.ch[n.val].state = .running then s.dmaRun n k else s
      ((u.updDma n fun c => { c.withResidue with held := [] }).ev 0xC012 n.val).dmaEnd n .aborted)) ∧
  (∀ (n : Fin 32) (k : Nat) (s : State), s.mem.ch[n.val].busy = false → exec (.dmaAbort n k) s = .next s) ∧
  (∀ (n : Fin 32) (k : Nat) (s : State), s.mem.ch[n.val].busy = true → s.mem.ch[n.val].shadow.arm = false →
    s.mem.ch[n.val].state ≠ .running ∨ k = 0 →
    Gives (.dmaAbort n k) s fun t =>
      t.mem.ch[n.val].state = .aborted ∧ t.mem.ch[n.val].residue = s.mem.ch[n.val].act.lines - s.mem.ch[n.val].line ∧
      t.mem.ch[n.val].irq = s.mem.ch[n.val].irq + 1 ∧ t.mem.ch[n.val].held = [] ∧
      t.mem.sram = s.mem.sram ∧ t.mem.hbm = s.mem.hbm ∧ t.mem.tier = s.mem.tier ∧ t.mem.migrating = s.mem.migrating) ∧
  (∀ (k : Fin 3) (m : Fin 32) (s : State), s.grantIn k = some m →
    (s.asks m = true ∧ s.dmaClass m = k ∧
     ∀ j : Fin 32, s.asks j = true → s.dmaClass j = k →
      if s.mem.lastGrant[k.val] < m.val then (s.mem.lastGrant[k.val] < j.val → m.val ≤ j.val)
      else j.val ≤ s.mem.lastGrant[k.val] ∧ m.val ≤ j.val)) ∧
  (∀ s : State, ((s.grantIn 0).isSome = true → s.grant = s.grantIn 0) ∧
    (s.grantIn 0 = none → (s.grantIn 1).isSome = true → s.grant = s.grantIn 1) ∧
    (s.grantIn 0 = none → s.grantIn 1 = none → s.grant = s.grantIn 2) ∧
    ∀ k : Fin 3, (s.grantIn k = none ↔ ∀ j : Fin 32, s.dmaClass j = k → s.asks j = false)) ∧
  (∀ (n : Fin 32) (s : State), (∀ r ∈ [0x24, 0x28, 0x2C, 0x30], s.readDmaSet n true r = some 0) ∧
    s.readDmaSet n true 0x20 = some (bitAt s.mem.ch[n.val].shadow.arm 1 + bitAt s.mem.ch[n.val].shadow.crit 6 +
      bitAt s.mem.ch[n.val].shadow.crcWb 7))

/-- Tier space (R466 to R468, R230). Which page a beat meets, after how many bursts and beats, is an operand. The rule for the
frames is that of `admitPage`: a free one, or that of the least recently used page that may go. Where it touches them it states the
model's choices of log entries 3, 12, 47, 60, 129. -/
def Obligations.TierPages : Prop :=
  (∀ (n : Fin 32) (k b page : Nat) (s : State), 28 ≤ n.val → s.mem.ch[n.val].state = .running → page < 65536 →
    s.pageResident page = false →
    exec (.tierFault (.dma n) k b page) s = .next
      ((((s.dmaRun n k).holdBeats n b).updDma n fun c => { c with state := .suspended, faultPage := some page }).tierFault n.val page)) ∧
  (∀ (n : Fin 32) (page : Nat) (s : State), 28 ≤ n.val → s.mem.ch[n.val].state = .running → page < 65536 →
    s.pageResident page = false → s.mem.migrating.contains page = false →
    Gives (.tierFault (.dma n) 0 0 page) s fun t =>
      t.mem.ch[n.val] = { s.mem.ch[n.val] with state := .suspended, faultPage := some page } ∧
      (∀ m : Fin 32, m ≠ n → t.mem.ch[m.val] = s.mem.ch[m.val]) ∧
      t.mem.migrating = s.mem.migrating ++ [page] ∧ t.mem.tierFaults = bump 32 s.mem.tierFaults ∧
      t.evr = s.evs [(0xC020, n.val, 0)] ∧ State.only [.mem, .evr] s t) ∧
  (∀ (n : Fin 32) (k b page : Nat) (s : State), n.val < 28 ∨ s.mem.ch[n.val].state ≠ .running →
    exec (.tierFault (.dma n) k b page) s = .next s) ∧
  (∀ (i : Fin 10) (k b page : Nat) (s : State), page < 65536 → s.pageResident page = false →
    exec (.tierFault (.load i) k b page) s = .next ((s.copyFault i page).tierFault noInst page)) ∧
  (∀ (i : Fin 10) (k b page : Nat) (s : State), page < 65536 → s.pageResident page = false →
    Gives (.tierFault (.load i) k b page) s fun t =>
      (t.fce.inst[i.val]).copyWait = page :: (s.fce.inst[i.val]).copyWait ∧
      t.fce.copyFaults = bump 32 s.fce.copyFaults ∧ t.mem.migrating.contains page = true ∧
      t.mem.ch = s.mem.ch ∧ t.evr = s.evs [(0x6040, i.val, 0), (0xC020, noInst, 0)]) ∧
  (∀ (u : TierUnit) (k b page : Nat) (s : State), s.pageResident page = true ∨ 65536 ≤ page →
    exec (.tierFault u k b page) s = .next s) ∧
  (∀ (page ns : Nat) (s u : State), s.mem.migrating.contains page = true → s.admitPage page = some u →
    exec (.tierMigrationDone page ns true) s = .next (
      let v := { u with mem := { u.mem with
        migrating := u.mem.migrating.filter (· != page), migrations := addSample u.mem.migrations u.sys.tick ns } }
      ((List.finRange 32).foldl (fun s i => s.wakeCh i page) v).copyWake page)) ∧
  (∀ (page ns : Nat) (s : State), s.mem.migrating.contains page = true →
    exec (.tierMigrationDone page ns false) s = .next
      ((List.finRange 32).foldl (fun s i => s.failCh i page)
        (({ s with mem := { s.mem with migrating := s.mem.migrating.filter (· != page) } }).ev 0xC021))) ∧
  (∀ (page ns : Nat) (ok : Bool) (s : State), s.mem.migrating.contains page = false ∨ (ok = true ∧ s.admitPage page = none) →
    exec (.tierMigrationDone page ns ok) s = .next s) ∧
  (∀ (page ns : Nat) (s : State), s.mem.migrating.contains page = true → s.mem.resident.length < 16384 →
    Gives (.tierMigrationDone page ns true) s fun t =>
      t.pageResident page = true ∧ t.mem.migrating.contains page = false ∧ t.mem.backing = s.mem.backing ∧
      (∀ n : Fin 32, t.mem.ch[n.val].state = .suspended → t.mem.ch[n.val].faultPage ≠ some page) ∧
      (∀ i : Fin 10, (t.fce.inst[i.val]).copyWait.contains page = false) ∧ t.mem.sram = s.mem.sram ∧ t.mem.hbm = s.mem.hbm) ∧
  (∀ (page : Nat) (s : State), 16384 ≤ s.mem.resident.length →
    ((s.admitPage page = none ↔ ∀ x ∈ s.mem.resident, s.evictable x = false) ∧
     ∀ x ∈ s.mem.resident, s.evictable x = true ↔ ((stagingPages s.stagingLen).contains x.1 = false ∧
      ∀ i : Fin 32, s.mem.ch[i.val].busy = true → s.mem.ch[i.val].act.pages.contains x.1 = false))) ∧
  (∀ (page a : Nat) (x : Nat × Bool) (s : State), s.Inv →
    (s.bringPage page).mem.tier.read a = (if a / 2097152 = page then s.mem.backing.read a else s.mem.tier.read a) ∧
    (s.evictPage x).mem.backing.read a = (if x.2 = true ∧ a / 2097152 = x.1 then s.mem.tier.read a else s.mem.backing.read a)) ∧
  (∀ (page ns a : Nat) (s : State), s.mem.migrating.contains page = true → s.mem.resident.length < 16384 → s.Inv →
    Gives (.tierMigrationDone page ns true) s fun t =>
      t.mem.tier.read a = if a / 2097152 = page then s.mem.backing.read a else s.mem.tier.read a) ∧
  (∀ (n : Fin 32) (page ns : Nat) (s : State), s.mem.migrating.contains page = true →
    s.mem.ch[n.val].state = .suspended → s.mem.ch[n.val].faultPage = some page → s.mem.ch[n.val].shadow.arm = false →
    Gives (.tierMigrationDone page ns false) s fun t =>
      t.mem.ch[n.val].state = .bad ∧ t.mem.migrating.contains page = false ∧ t.mem.resident = s.mem.resident)

/-- Codeword errors (R459, R460). A beat counts in the memory of its channel's source, the Basalt image with the SRAM (log entry
46). Where it touches them it states the
model's choices of log entries 46, 47, 53, 54. -/
def Obligations.CodewordErrors : Prop :=
  (∀ (r : Fin 5) (s : State), Gives (.eccCorrected r) s fun t =>
    t.evr = ({ s with evr := { s.evr with eccCorr := updV s.evr.eccCorr r (bump 32) } }).evs [(0xC001, r.val, 0)] ∧
    State.only [.evr] s t) ∧
  (∀ (p : EccPlace) (s : State), s.eccLive p = true →
    exec (.eccUncorrectable p) s = .next ((({ s with evr := { s.evr with
      eccUncorr := updV s.evr.eccUncorr (s.eccRegion p) (bump 32) } }).ev 0xC002 (s.eccRegion p).val).eccEffect p)) ∧
  (∀ (p : EccPlace) (s : State), s.eccLive p = false → exec (.eccUncorrectable p) s = .next s) ∧
  (∀ (n : Fin 32) (k : Nat) (i : Fin 10) (j : Fin 64) (q : Fin 16) (b : Bool) (a : Fin 3) (m : List (Fin 32 × Nat)) (s : State),
    (s.eccLive (.dmaBeat n k) = decide (s.mem.ch[n.val].state = .running)) ∧
    (s.eccLive (.internalBus n k) = decide (s.mem.ch[n.val].state = .running)) ∧
    (∀ p ∈ [EccPlace.config, .basaltImage, .forecastWeights i, .forecastState i, .loopCapture j k, .captureBlock k,
      .historyPage k, .eventRecord a k, .queueSpill q k, .tierFrame k m, .bitstreamSlot b, .firmwareSlot b], s.eccLive p = true)) ∧
  (∀ (n : Fin 32) (k : Nat) (i : Fin 10) (j : Fin 64) (q : Fin 16) (b : Bool) (m : List (Fin 32 × Nat)) (s : State),
    (∀ p ∈ [EccPlace.config, .basaltImage, .forecastWeights i, .forecastState i, .loopCapture j k], s.eccRegion p = 0) ∧
    (∀ p ∈ [EccPlace.captureBlock k, .queueSpill q k, .tierFrame k m, .eventRecord 0 k], s.eccRegion p = 1) ∧
    (∀ p ∈ [EccPlace.historyPage k, .bitstreamSlot b, .firmwareSlot b], s.eccRegion p = 2) ∧
    (∀ p ∈ [EccPlace.eventRecord 1 k, .eventRecord 2 k], s.eccRegion p = 3) ∧
    s.eccRegion (.internalBus n k) = 4 ∧
    s.eccRegion (.dmaBeat n k) = if dmaSpace s.mem.ch[n.val].act.src = 0 then 0
      else if dmaSpace s.mem.ch[n.val].act.src = 1 ∨ dmaSpace s.mem.ch[n.val].act.src = 2 then 1 else 3) ∧
  (∀ s : State, s.eccEffect .config = s.configFault ∧
    s.eccEffect .basaltImage = { s with prot := { s.prot with imageOk := false } } ∧
    (∀ i : Fin 10, s.eccEffect (.forecastWeights i) = (s.updInst i FInst.withhold).ev 0x6041 i.val) ∧
    (∀ i : Fin 10, s.eccEffect (.forecastState i) = (s.updInst i FInst.withholdState).ev 0x6023 i.val) ∧
    (∀ (j : Fin 64) (k : Nat), s.eccEffect (.loopCapture j k) =
      s.updSlot j fun x => { x with cap := setAt x.cap k fun r => { r with lost := true } }) ∧
    (∀ k : Nat, s.eccEffect (.captureBlock k) = { s with evr := { s.evr with capRing := setAt s.evr.capRing k poisonBlock } }) ∧
    (∀ k : Nat, s.eccEffect (.historyPage k) = { s with evr := { s.evr with history := setAt s.evr.history k poisonPage } })) ∧
  (∀ s : State,
    (∀ k : Nat, s.eccEffect (.eventRecord 0 k) = { s with evr := { s.evr with
      hbmArea := setAt s.evr.hbmArea k fun e => { e with bad := true } } }) ∧
    (∀ k : Nat, s.eccEffect (.eventRecord 1 k) = { s with evr := { s.evr with
      first := setAt s.evr.first k fun e => { e with bad := true } } }) ∧
    (∀ k : Nat, s.eccEffect (.eventRecord 2 k) = { s with evr := { s.evr with
      recent := setAt s.evr.recent k fun e => { e with bad := true } } }) ∧
    (∀ (p : Nat) (m : List (Fin 32 × Nat)), s.eccEffect (.tierFrame p m) = s.reloadPage p m) ∧
    s.eccEffect (.bitstreamSlot true) = { s with cfg := { s.cfg with slotB := s.cfg.slotB.map fun _ => [] } } ∧
    s.eccEffect (.bitstreamSlot false) = { s with cfg := { s.cfg with slotA := s.cfg.slotA.map fun _ => [] } } ∧
    s.eccEffect (.firmwareSlot true) = { s with sec := { s.sec with fwSlotBImg := s.sec.fwSlotBImg.map fun _ => [] } } ∧
    s.eccEffect (.firmwareSlot false) = { s with sec := { s.sec with fwSlotAImg := s.sec.fwSlotAImg.map fun _ => [] } } ∧
    (∀ (n : Fin 32) (k : Nat), s.eccEffect (.dmaBeat n k) = (s.dmaRun n k).dmaBad n) ∧
    (∀ (n : Fin 32) (k : Nat), s.eccEffect (.internalBus n k) = (s.dmaRun n k).dmaBad n)) ∧
  (∀ (q : Fin 16) (k : Nat) (s : State),
    s.eccEffect (.queueSpill q k) =
      if k < s.net.q[q.val].msgs.length ∧ 64 + s.net.q[q.val].taken < ((s.net.q[q.val].msgs.take (k + 1)).map Msg.entries).sum then
        ((s.updQ q fun x => { x with msgs := x.msgs.eraseIdx k, taken := if k = 0 then 0 else x.taken }).ev 0xC030 q.val).shedCheck
      else s) ∧
  (∀ (x : FInst), (x.withhold).stateMem = x.stateMem ∧
    (∀ e l, x.flight = e :: l → (x.withhold).flight = { e with withheld := true } :: l) ∧
    (x.flight = [] → x.withhold = x ∧ x.withholdState = { x with stateMem := [] })) ∧
  (∀ (b : List Byte), b.head? ≠ some 0xFF → (poisonBlock b).length = b.length ∧
    ∀ k, (poisonBlock b)[k]? = if k = 3 then (b[k]?).map (· ||| 0x10) else b[k]?) ∧
  (∀ (page : Nat) (moved : List (Fin 32 × Nat)) (s : State), (s.pageResident page = false → s.reloadPage page moved = s) ∧
    (s.pageResident page = true → (s.reloadPage page moved).pageResident page = false ∧
      (s.reloadPage page moved).mem.migrating.contains page = true)) ∧
  (∀ (s : State), Gives (.eccUncorrectable .config) s fun t =>
    t.evr.eccUncorr[0] = bump 32 s.evr.eccUncorr[0] ∧ (s.sys.state = .run → t.sys.state = .basalt)) ∧
  (∀ (n : Fin 32) (s : State), s.mem.ch[n.val].state = .running → s.mem.ch[n.val].shadow.arm = false →
    Gives (.eccUncorrectable (.dmaBeat n 0)) s fun t => t.mem.ch[n.val].state = .bad ∧
      t.mem.busErrors = bump 32 s.mem.busErrors)

/-- The recorder's controls (R472, R474, R484, R492). What `allows` asks is stated by RegisterWritesAreGuarded. Where it touches them it states the
model's choices of log entries 109, 130. -/
def Obligations.RecorderControls : Prop :=
  (∀ (n : Fin 64) (s : State), s.allows n .ia = true →
    Gives (.firstClear n) s fun t =>
      t.evr = ({ s with evr := { s.evr with first := [], firstFull := false } }).evs [(0xC042, noInst, 0)] ∧ State.only [.evr] s t) ∧
  (∀ (n : Fin 64) (code inst : BitVec 16) (s : State), s.allows n .ox = true → code.toNat / 4096 = 15 →
    Gives (.evrUser n code inst) s fun t => t.evr = s.evs [(code.toNat, inst.toNat, s.evr.userData)] ∧ State.only [.evr] s t) ∧
  (∀ (n : Fin 64) (code inst : BitVec 16) (s : State), s.allows n .ox = true → code.toNat / 4096 ≠ 15 →
    exec (.evrUser n code inst) s = .next s) ∧
  (∀ (s : State), s.evr.lossOwed = true → s.evr.staging.length < 4096 →
    Gives .recordsLost s fun t => t.evr = ({ s with evr := { s.evr with lossOwed := false } }).evs [(0xC040, noInst, 0)] ∧
      State.only [.evr] s t) ∧
  (∀ (s : State), s.evr.lossOwed = false ∨ 4096 ≤ s.evr.staging.length → exec .recordsLost s = .next s) ∧
  (∀ (s : State), s.evr.freezeAt.any (s.elapsed · 5000000) = true → s.evr.capFrozen = false →
    Gives .captureFrozen s fun t =>
      t.evr = ({ s with evr := { s.evr with freezeAt := none, capFrozen := true } }).evs [(0xC060, noInst, 0)] ∧
      State.only [.evr] s t) ∧
  (∀ (s : State), s.evr.freezeAt.any (s.elapsed · 5000000) = false ∨ s.evr.capFrozen = true → exec .captureFrozen s = .next s) ∧
  (∀ (n : Fin 64) (s : State), s.allows n .ox = true → s.evr.capFrozen = true →
    Gives (.resume n) s fun t =>
      t.evr = ({ s with evr := { s.evr with capFrozen := false } }).evs [(0xC061, noInst, 0)] ∧ State.only [.evr] s t) ∧
  (∀ (n : Fin 64) (s : State), s.allows n .ox = true → s.evr.capFrozen = false → exec (.resume n) s = .next s)

/-- The Obsidian store (R477, R478). The code of a mark that TRIGGER_NOW makes is a free value (log entry 7), and event 0xC050 does
not trigger again (log entry 10). Where it touches them it states the
model's choices of log entries 130. -/
def Obligations.ObsidianStore : Prop :=
  (∀ (s : State), s.evr.writer = true → s.clk.fabricStopped = false → 50 ≤ s.evr.keyTicks →
    exec .obsidianFrame s = .next { s with evr := { s.evr with
      keySums := [], keyTicks := 0
      slot := s.evr.slot.map fun (x : ObsSlot) => x.addFrame
        { tick := s.sys.tick, time := s.sys.timeNs, samples := (List.range 256).map (keySample s s.evr.keySums) } s.keyMap } }) ∧
  (∀ (x : ObsSlot) (f : ObsFrame) (m : List (Nat × Nat × Nat)),
    (x.state = .live → x.addFrame f m = { x with frames := (f :: x.frames).take 20500, written := x.written + 1, keyMap := m }) ∧
    (x.state = .closing → 0 < x.left → x.addFrame f m =
      { x with frames := (f :: x.frames).take 20500, written := x.written + 1, left := x.left - 1, keyMap := m }) ∧
    ((x.state ≠ .live ∧ x.state ≠ .closing) ∨ (x.state = .closing ∧ x.left = 0) → x.addFrame f m = x)) ∧
  (∀ (s : State), s.evr.writer = false ∨ s.clk.fabricStopped = true ∨ s.evr.keyTicks < 50 →
    exec .obsidianFrame s = .next s) ∧
  (∀ (n : Fin 64) (s : State), s.allows n .oa = true →
    exec (.triggerNow n) s = .next ((s.used.obsTrigger (Config.freeNat s.fv % 65536)).fullTrigger s)) ∧
  (∀ (code : Nat) (s : State), (s.evr.writer = false → s.obsTrigger code = s) ∧
    (s.evr.writer = true → s.obsTrigger code =
      ({ s with evr := (s.evr.trigger code s.sys.timeNs).1.armFreeze s.sys.tick }).evRecord 0xC050 (s.evr.trigger code s.sys.timeNs).2 0)) ∧
  (∀ (c : Fin 4) (code time : Nat) (v : Evr), v.slotWhere (fun x => x.state = .closing) = some c →
    ((code ≠ 0x0010 ∨ v.slotWhere (fun x => x.state = .live) = none →
       v.trigger code time = ({ v with slot := updV v.slot c fun x => x.mark code time }, c.val)) ∧
     ∀ l : Fin 4, code = 0x0010 → v.slotWhere (fun x => x.state = .live) = some l →
       v.trigger code time = ({ v with slot := updV (updV v.slot c fun x => x.mark code time) l (fun x =>
         { x with state := .closing, left := 500 }) }, c.val))) ∧
  (∀ (x : ObsSlot) (code time : Nat), x.mark code time =
    if x.marks.length < 8 then { x with marks := x.marks ++ [{ code := code, frame := x.written, time := time }] } else x) ∧
  (∀ (i j : Fin 4) (n : Fin 64) (s : State), s.allows n .oa = true → s.evr.writer = true →
    (∀ k : Fin 4, s.evr.slot[k.val].state ≠ .closing) → s.evr.slotWhere (fun x => x.state = .live) = some i →
    s.evr.slotWhere (fun x => x.state = .free) = some j ∨
      (s.evr.slotWhere (fun x => x.state = .free) = none ∧ s.evr.oldestClosed = some j) → s.evr.slot[i.val].marks = [] →
    (s.bucketCfg 0xC041).2.2 = false →
    Gives (.triggerNow n) s fun t =>
      t.evr.slot[i.val].state = .closing ∧ t.evr.slot[i.val].left = 500 ∧ t.evr.slot[i.val].marks.length = 1 ∧
      t.evr.slot[j.val].state = .live ∧ t.evr.slot[j.val].frames = [] ∧
      (∀ k : Fin 4, k ≠ i → k ≠ j → t.evr.slot[k.val] = s.evr.slot[k.val]) ∧ State.only [.evr, .fv] s t) ∧
  (∀ (j : Fin 4) (v : Evr), v.oldestClosed = some j →
    (v.slot[j.val].state = .closed ∧
     ∀ k : Fin 4, v.slot[k.val].state = .closed → v.slot[j.val].closedOrder ≤ v.slot[k.val].closedOrder)) ∧
  (∀ (n : Fin 64) (s : State), s.allows n .oa = true → s.evr.writer = false →
    Gives (.triggerNow n) s fun t => State.only [.fv] s t) ∧
  (∀ (i : Fin 4) (s : State), s.evr.slotWhere (fun x => x.state = .closing && x.left = 0) = some i →
    exec .obsRecordClosed s = .next (({ s with evr := { s.evr with
      slot := updV s.evr.slot i fun x =>
        { x with state := if s.evr.closedCount = 0 then .kept else .closed, left := 0, closedOrder := s.evr.closedCount }
      closedCount := s.evr.closedCount + 1 } }).ev 0xC051 i.val)) ∧
  (∀ (s : State), s.evr.slotWhere (fun x => x.state = .closing && x.left = 0) = none → exec .obsRecordClosed s = .next s) ∧
  (∀ (n : Fin 64) (s : State), s.allows n .ia = true →
    exec (.obsClear n) s = .next (({ s with evr := { s.evr with
      slot := s.evr.slot.map fun (x : ObsSlot) => if x.state = ObsState.closed ∨ x.state = ObsState.kept then {} else x
      closedCount := 0 } }).ev 0xC052)) ∧
  (∀ (n : Fin 64) (i : Fin 4) (s : State), s.allows n .ia = true → (s.bucketCfg 0xC052).2.2 = false →
    (s.bucketCfg 0xC041).2.2 = false →
    Gives (.obsClear n) s fun t =>
      (s.evr.slot[i.val].state = .closed ∨ s.evr.slot[i.val].state = .kept → t.evr.slot[i.val] = {}) ∧
      (s.evr.slot[i.val].state = .live ∨ s.evr.slot[i.val].state = .closing →
        t.evr.slot[i.val] = s.evr.slot[i.val]) ∧ t.evr.closedCount = 0)

/-- The tick (R7, R9, R34, R40, R140): what happens at a tick whatever is commanded is the effect of the command TICK. The order
of its parts where R140 gives none, and the slew of shelf time by at most 1 ns in 10 us (log entry 7), are the model's. Where it touches them it states the
model's choices of log entries 32, 33, 45, 52, 66, 77, 82, 101, 121, 125, 134. -/
def Obligations.TheTick : Prop :=
  (∀ (x : Sys2Proof.TickInputs) (s : State), s.power.powered = false ∨ s.clk.fabricStopped = true →
    exec (.tick x) s = .next s) ∧
  (∀ (x : Sys2Proof.TickInputs) (s : State), s.power.powered = true → s.clk.fabricStopped = false →
    s.power.inputLoss = true →
    exec (.tick x) s = .next ((((s.advance.drainStaging).cyclesTick x.sense).afeLatch x.convs).keyTick)) ∧
  (∀ (x : Sys2Proof.TickInputs) (s : State), s.power.powered = true → s.clk.fabricStopped = false →
    s.power.inputLoss = true →
    Gives (.tick x) s fun t =>
      t.sys = { s.sys with tick := wrapU 64 (s.sys.tick + 1), timeNs := t.sys.timeNs } ∧
      (s.net.slewLeft = 0 → t.sys.timeNs = wrapU 64 (s.sys.timeNs + 2000)) ∧
      State.only [.sys, .net, .afe, .pwm, .evr, .fv] s t) ∧
  (∀ (x : Sys2Proof.TickInputs) (s : State), s.power.powered = true → s.clk.fabricStopped = false →
    s.power.inputLoss = false →
    exec (.tick x) s = .next (
      let s := (s.advance).drainStaging
      let s := ((s.swapAt s.sys.tick).cyclesTick x.sense).applyStaged
      let s := (((s.afeLatch x.convs).measure x).fceStart).chainTick
      let s := ((s.busTick).gridTick).cometAgeTick
      let s := if s.sys.state = .run then s.cometTick else s
      let s := (((s.targets).causeTicks).healthTick).limitsTick
      let s := (s.engineTick x.evalCycles).convTick
      let s := (s.strings.foldl State.resistTick s).sumsTick
      let s := (s.fceTick).keyTick
      let s := (s.captureTick x).historyTick
      (((s.offWindowTick).syncOutTick).releaseTick.degradedTick.ptpMasterTick).blockTick.telTick)) ∧
  (∀ (s : State), s.advance.sys.tick = wrapU 64 (s.sys.tick + 1) ∧
    (s.net.slewLeft = 0 ∨ wrapU 64 (s.sys.tick + 1) % 5 ≠ 0 → s.advance.sys.timeNs = wrapU 64 (s.sys.timeNs + 2000) ∧
      s.advance.net = s.net) ∧
    (0 < s.net.slewLeft → (s.advance.net.slewLeft = s.net.slewLeft ∧ s.advance.sys.timeNs = wrapU 64 (s.sys.timeNs + 2000)) ∨
      (s.advance.net.slewLeft = s.net.slewLeft - 1 ∧
        s.advance.sys.timeNs = wrapU 64 (wrapU 64 (s.sys.timeNs + 2000) + 1))) ∧
    (s.net.slewLeft < 0 → (s.advance.net.slewLeft = s.net.slewLeft ∧ s.advance.sys.timeNs = wrapU 64 (s.sys.timeNs + 2000)) ∨
      (s.advance.net.slewLeft = s.net.slewLeft + 1 ∧
        s.advance.sys.timeNs = wrapU 64 (((wrapU 64 (s.sys.timeNs + 2000) : Nat) : Int) - 1).toNat))) ∧
  (∀ (x : Sys2Proof.TickInputs) (s : State), s.power.powered = true → s.clk.fabricStopped = false →
    s.power.inputLoss = false →
    Gives (.tick x) s fun t =>
      t.sys.tick = wrapU 64 (s.sys.tick + 1) ∧ (s.net.slewLeft = 0 → t.sys.timeNs = wrapU 64 (s.sys.timeNs + 2000)) ∧
      t.mem.sram = s.mem.sram ∧ t.mem.hbm = s.mem.hbm ∧ t.mem.mram = s.mem.mram ∧ t.mem.ch = s.mem.ch ∧
      t.pending = s.pending)

/-- The arithmetic of a loop slot (R134, R138, R139, R147), on its operations rather than on a command: the tick runs them. -/
def Obligations.LoopArithmetic : Prop :=
  (∀ (p : Int) (n : Nat), 2 * (p - 2 ^ n * rshe p n).natAbs ≤ 2 ^ n ∧
    (2 * (p - 2 ^ n * rshe p n).natAbs = 2 ^ n → 0 < n → rshe p n % 2 = 0)) ∧
  (∀ v : Int, -2147483648 ≤ sat32 v ∧ sat32 v ≤ 2147483647 ∧
    (-2147483648 ≤ v → v ≤ 2147483647 → sat32 v = v) ∧ (2147483647 < v → sat32 v = 2147483647) ∧
    (v < -2147483648 → sat32 v = -2147483648)) ∧
  (∀ (b0 b1 b2 a1 a2 u : Int) (h0 h1 h2 h3 h4 : Nat) (x : SecState),
    mainSection { c := [b0, b1, b2, a1, a2], sh := [h0, h1, h2, h3, h4] } x u =
      (let acc := rshe (b0 * u) h0 + rshe (b1 * x.x1) h1 + rshe (b2 * x.x2) h2 - rshe (a1 * x.y1) h3 - rshe (a2 * x.y2) h4
       (sat32 acc, sat32 acc != acc, { x with x2 := x.x1, x1 := u, y2 := x.y1, y1 := sat32 acc }))) ∧
  (∀ (i : Fin 64) (ev : Bool) (s : State), (s.slot i).transfer = false → s.testRec i.val = none →
    ((s.formOutput i ev).slot i).out =
      sat32 ((if (s.slot i).shadow then (s.slot i).cShadow else (s.slot i).cMain) + (s.ffSum i).1 + (s.slot i).offset) ∧
    ((s.formOutput i ev).slot i).rampLeft = (if ev then (s.slot i).rampLeft - 1 else (s.slot i).rampLeft)) ∧
  (∀ (i : Fin 64) (s : State), (s.slot i).transfer = true → s.testRec i.val = none →
    ((s.formOutput i true).slot i).out = sat32 ((s.slot i).transferFrom.getD (s.slot i).out) ∧
    ((s.formOutput i true).slot i).transfer = false ∧ ((s.formOutput i true).slot i).rampLeft = s.rampLen - 1) ∧
  (∀ (x : Slot) (sat : Bool) (limit k : Nat), x.shadow = false →
    (pathStep x sat limit k).shadow = decide (limit ≤ (((sat :: x.satWindow).take 64).filter fun b => b).length)) ∧
  (∀ (x : Slot) (sat : Bool) (limit k : Nat), x.shadow = true →
    (pathStep x sat limit k).shadow = !(!sat && decide (2 ^ k ≤ x.cleanRun + 1)))

/-- A step carries out the command at the front of the queue on the state with the queue's rest -/
def Obligations.StepTakesTheFrontCommand : Prop :=
  (∀ (c : Instr) (rest : List Instr) (s : State),
    step { s with pending := c :: rest } = exec c { s with pending := rest }) ∧
  (∀ s : State, step { s with pending := [] } = .next { s with pending := [] })

/-- A step that goes on takes one command from the front and leaves the rest in order -/
def Obligations.TheQueueIsFirstInFirstOut : Prop :=
  ∀ (c : Instr) (rest : List Instr) (s t : State), s.pending = c :: rest → step s = .next t → t.pending = rest

/-- Every step keeps the canonical form of the memories -/
def Obligations.MemoriesStayCanonical : Prop :=
  ∀ s t : State, s.Inv → step s = .next t → t.Inv

/-- No command touches a part of the state outside its list -/
def Obligations.EveryCommandStaysInItsParts : Prop :=
  ∀ (c : Instr) (s t : State), exec c s = .next t → State.only (touched c) s t

/-- Every command gives a next state, but for a debug instruction where debug is open. Where it touches them it states the
model's choices of log entries 7, 72, 75, 84. -/
def Obligations.EveryCommandCompletes : Prop :=
  (∀ (c : Instr) (s : State), c ≠ .jtagInstruction .debug ∨ s.debugOpen = false → ∃ t, exec c s = .next t) ∧
  (∀ s : State, s.debugOpen = true → exec (.jtagInstruction .debug) s = .refused .debugUnit)

/-- No step moves the lifecycle back -/
def Obligations.TheLifecycleMovesForward : Prop :=
  ∀ s t : State, step s = .next t → s.sec.lifecycle ≤ t.sec.lifecycle

/-- A register write that is not allowed changes nothing but the violation count -/
def Obligations.RegisterWritesAreGuarded : Prop :=
  (∀ (r : Role) (st : DevState) (a v : Nat) (s : State), 0x00F00000 ≤ a →
    s.regWrite r st a v = (s.violate, none) ∧ s.regLive a = none) ∧
  (∀ (st : DevState) (a v : Nat) (s : State),
    s.regWrite .monitor st a v = (s, none) ∨ s.regWrite .monitor st a v = (s.violate, none)) ∧
  (∀ (r : Role) (st : DevState) (a v : Nat) (s : State), (s.regLive a).isSome = true → firmwareReg a = true →
    s.regWrite r st a v = (s.violate, none)) ∧
  (∀ (r : Role) (st : DevState) (a v : Nat) (s : State), (s.regLive a).isSome = true → firmwareReg a = false →
    s.wreg a = none ∨ s.instLive a = false → s.regWrite r st a v = (s, none)) ∧
  (∀ (r : Role) (st : DevState) (c : AccClass), roleMayWrite r st c = true →
    r ≠ .monitor ∧ (c.integrator = true → r = .integrator) ∧ st ∈ c.states) ∧
  (∀ (n : Fin 64) (c : AccClass) (f : State → State) (s : State),
    (s.allows n c = true → s.regCmd n c f = f s) ∧
    ((s.sess n).isOpen = false ∨ s.sec.recovery = true → s.regCmd n c f = s) ∧
    ((s.sess n).isOpen = true → s.sec.recovery = false → s.allows n c = false → s.regCmd n c f = s.violate) ∧
    s.regCmdAt true n c f = s.regCmd n c f ∧ s.regCmdAt false n c f = s ∧
    (s.allows n c = true ↔ (s.sess n).isOpen = true ∧ s.sec.recovery = false ∧
      roleMayWrite (s.sess n).role s.sys.state c = true))

/-- A register read over HCP latches an upper half and changes no register -/
def Obligations.RegisterReadsChangeNoRegister : Prop :=
  (∀ (req a b : Nat) (s : State), ((s.regRead req a).2).regLive b = s.regLive b ∧
    (∃ l, (s.regRead req a).2 = { s with sys := { s.sys with latches := l } }) ∧
    ((s.regRead req a).1 = none ↔ s.regLive a = none)) ∧
  (∀ (req a v : Nat) (s : State), s.regLive a = some v → s.instLive a = true → loReg a = true →
    (s.regRead req a).1 = some v ∧ ((s.regRead req a).2).hiLatch req (a + 4) = some ((s.regLive (a + 4)).getD 0) ∧
    (∀ r b, ¬ (r = req ∧ b = a + 4) → ((s.regRead req a).2).hiLatch r b = s.hiLatch r b)) ∧
  (∀ (req a v : Nat) (s : State), s.regLive a = some v →
    (s.instLive a = false → s.regRead req a = (some 0, s)) ∧
    (s.instLive a = true → loReg a = false → s.regRead req a = (some ((s.hiLatch req a).getD v), s)))

/-- An event enters the recorder, waits, is suppressed or is lost -/
def Obligations.EventRecorder : Prop :=
  (∀ (c i d : Nat) (s : State), unlimitedCode c = true → s.evr.entered < 4 → s.evr.staging = [] →
    s.evr.first.length < 8192 → s.evr.firstFull = false →
    (s.evRecord1 c i d).evr.recent.head? = some
      { code := c, inst := i, seq := wrapU 32 s.evr.seq, time := s.sys.timeNs
        tick := if s.clk.fabricStopped then 0 else s.sys.tick, data := wrapU 32 d, suppressed := 0 } ∧
    (s.evRecord1 c i d).evr.hbmArea.head? = (s.evRecord1 c i d).evr.recent.head? ∧
    (s.evRecord1 c i d).evr.first.getLast? = (s.evRecord1 c i d).evr.recent.head? ∧
    (s.evRecord1 c i d).evr.seq = wrapU 64 (s.evr.seq + 1) ∧ (s.evRecord1 c i d).evr.entered = s.evr.entered + 1) ∧
  (∀ (c i d : Nat) (s : State), unlimitedCode c = true → 4 ≤ s.evr.entered → s.evr.staging.length < 4096 →
    (s.evRecord1 c i d).evr.staging.length = s.evr.staging.length + 1 ∧ (s.evRecord1 c i d).evr.seq = s.evr.seq ∧
    (s.evRecord1 c i d).evr.recent = s.evr.recent ∧ (s.evRecord1 c i d).evr.lost = s.evr.lost) ∧
  (∀ (c i d : Nat) (s : State), unlimitedCode c = true → s.evr.staging.length = 4096 →
    (s.evRecord1 c i d).evr = { s.evr with lost := bump 32 s.evr.lost, lossOwed := true }) ∧
  (∀ (c i d : Nat) (b : Bucket) (s : State), unlimitedCode c = false → s.evr.buckets.find? (fun b => b.code == c) = some b →
    b.tokens < 500000 → b.tick = s.sys.tick →
    (s.evRecord1 c i d).evr.recent = s.evr.recent ∧ (s.evRecord1 c i d).evr.suppressed = bump 32 s.evr.suppressed ∧
    ((s.evRecord1 c i d).evr.buckets.find? (fun b => b.code == c)).map Bucket.suppressed = some (bump 16 b.suppressed)) ∧
  (∀ (c i d : Nat) (s : State), unlimitedCode c = true →
    (s.evRecord1 c i d).evr.suppressed = s.evr.suppressed ∧ (s.evRecord1 c i d).evr.buckets = s.evr.buckets)

/-- After reset the registers read the values the spec gives, and the machine is in BOOT with nothing running -/
def Obligations.ResetValues : Prop :=
  State.reset.Inv ∧ State.reset.pending = [] ∧ State.reset.sys.state = .boot ∧ State.reset.sys.tick = 0 ∧
    State.reset.cfg.activeValid = false ∧ (∀ g : Fin 4, (State.reset.grp g).state = .off ∧ State.reset.sys.gdrvEn[g.val] = false) ∧
    (∀ n : Fin 64, (State.reset.sess n).isOpen = false) ∧
    State.reset.regLive 0x000034 = some 0x3C02 ∧ State.reset.regLive 0x300004 = some 0xF ∧
    State.reset.regLive 0x400000 = some 0 ∧ State.reset.regLive 0x600004 = some 3 ∧
    State.reset.regLive 0xB00008 = some 0x05326901 ∧ State.reset.regLive 0xD00000 = some 0x40000000

/-- The loss and return of STBY12_IN change no behaviour (R36) -/
def Obligations.LossOfStandbySupply : Prop :=
  (∀ s : State, s.power.powered = true → s.power.inputLoss = false ∨ s.power.aux54Ok = true → s.power.stbySrc = false →
    Gives .stby12Lost s fun t =>
      t.power = { s.power with stby12Lost := true, stby12Ok := false, stbySrc := true, stby12Gone := true } ∧
      t.evr = s.evs [(0x0011, noInst, 0)] ∧ t.sys.degraded = s.sys.degraded ∧ State.only [.power, .evr] s t) ∧
  (∀ s : State, s.power.powered = true → s.power.stbySrc = true → s.power.stby12Gone = true →
    Gives .stby12Restored s fun t =>
      t.power = { s.power with stby12Ok := true, stbySrc := false, stby12Gone := false } ∧
      t.evr = s.evs [(0x0012, noInst, 0)] ∧ State.only [.power, .evr] s t)

/-- LOOP_STATUS reads ACTIVE and BASALT_GROUPS, reserved bits read 0 and a write is ignored (R161) -/
def Obligations.LoopStatusRegister : Prop :=
  (∀ s : State, ∃ v, s.regLive 0x400000 = some v ∧ tb v 0 = s.loop.active ∧ fld v 1 3 = 0 ∧ fld v 8 24 = 0 ∧ v < 2 ^ 32 ∧
    ∀ g : Fin 4, tb v (4 + g.val) = s.loop.basaltGroups[g.val]) ∧
  (State.reset.regLive 0x400000 = some 0) ∧
  (∀ (r : Role) (st : DevState) (v : Nat) (s : State), s.regWrite r st 0x400000 v = (s, none))
end

