-- ==== Sys2Proof/Laws/Aead.lean ====
section
/-! SUPPORT. What is sealed opens again (R371, R374), and a datagram shows the header it is given. -/

namespace Sys2Proof.Machine

theorem leBytes_length (n x : Nat) : (leBytes n x).length = n := by
  induction n generalizing x with
  | zero => rfl
  | succ n ih => simp [leBytes, ih]

theorem beBytes_length (n x : Nat) : (beBytes n x).length = n := by simp [beBytes, leBytes_length]

theorem bytesAt_length (l : List Byte) (o n : Nat) : (bytesAt l o n).length = n := by
  simp only [bytesAt, List.length_append, List.length_replicate, List.length_take]; omega

theorem xorBytes_length (a b : List Byte) : (xorBytes a b).length = min a.length b.length := by simp [xorBytes]

/-- Adding the same bytes twice gives the string back. -/
theorem xorBytes_twice (a b : List Byte) (h : a.length ≤ b.length) : xorBytes (xorBytes a b) b = a := by
  apply List.ext_getElem
  · simp [xorBytes_length]; omega
  · intro i _ _
    simp [xorBytes, BitVec.xor_assoc]

/-- A block stays a block. -/
theorem aesBlock_length (sched b : List Byte) : (aesBlock sched b).length = 16 := by
  simp [aesBlock, xorBytes_length, shiftRows, bytesAt_length]

theorem gcmTag_length (sched nonce aad c : List Byte) : (gcmTag sched nonce aad c).length = 16 := by
  simp [gcmTag, xorBytes_length, aesBlock_length, beBytes_length]

theorem gcmStream_length (sched nonce : List Byte) (n : Nat) : (gcmStream sched nonce n).length = n := by
  have : n ≤ ceilDiv n 16 * 16 := by simp only [ceilDiv]; split <;> omega
  simp [gcmStream, List.length_flatMap, aesBlock_length]
  omega

/-- What is sealed opens to the message. -/
theorem gcmOpen_seal (key nonce aad m : List Byte) : gcmOpen key nonce aad (gcmSeal key nonce aad m) = some m := by
  have c : (xorBytes m (gcmStream (keySchedule key) nonce m.length)).length = m.length := by
    simp [xorBytes_length, gcmStream_length]
  have t := fun x => gcmTag_length (keySchedule key) nonce aad x
  have two := xorBytes_twice m (gcmStream (keySchedule key) nonce m.length) (by simp [gcmStream_length])
  simp only [gcmSeal, gcmOpen, List.length_append, c, t, Nat.add_sub_cancel]
  rw [List.take_left' c, List.drop_left' c]
  simp [c, two]

theorem hcpHdr_length (k s q : Nat) : (hcpHdr k s q).length = 16 := by simp [hcpHdr, leBytes_length]

/-- What a module seals for a session opens under the same key. -/
theorem openSecured_secured (key : List Byte) (s q : Nat) (m : List Byte) :
    openSecured key (securedBytes key s q m) = some m := by
  have l := hcpHdr_length 0x10 s q
  have n : bytesAt (securedBytes key s q m) 4 12 = (hcpHdr 0x10 s q).drop 4 := by
    simp only [bytesAt, securedBytes]
    rw [List.drop_append_of_le_length (by omega), List.take_left' (by simp [l])]
    simp [l]
  simp only [openSecured, n]
  simp only [securedBytes]
  rw [List.take_left' l, List.drop_left' l]
  exact gcmOpen_seal ..

theorem hcpFramed_hdr (k s q : Nat) (x : List Byte) : hcpFramed (hcpHdr k s q ++ x) k = true := by
  simp [hcpFramed, hcpHdr, leBytes, leBytes_length]

theorem at32_hdr (k s q : Nat) (x : List Byte) (h : s < 2 ^ 32) : at32 (hcpHdr k s q ++ x) 4 = s := by
  simp [at32, hcpHdr, leBytes, bytesAt, leVal]; omega

theorem seq_hdr (k s q : Nat) (x : List Byte) : leVal (bytesAt (hcpHdr k s q ++ x) 8 8) = leVal (leBytes 8 q) := by
  simp [hcpHdr, leBytes, bytesAt]

end Sys2Proof.Machine
end

