-- ==== Sys2Proof/Laws/Events.lean ====
section
/-! SUPPORT. The event recorder: an event changes the EVR block and nothing else, and what it does there depends only on
the configuration, the EVR block, the time and the tick (R473 to R475, R478). -/

namespace Sys2Proof.Machine

/-! An event changes the EVR block only. -/

/-- Two changes of the EVR block make one. -/
theorem State.evr_trans {s t u : State} (h1 : t = { s with evr := t.evr }) (h2 : u = { t with evr := u.evr }) :
    u = { s with evr := u.evr } := by
  generalize t.evr = v at h1
  subst h1
  exact h2

theorem State.bucketTake_eq (s : State) (c : Nat) :
    (s.bucketTake c).2 = { s with evr := (s.bucketTake c).2.evr } := by
  unfold State.bucketTake
  split
  · rfl
  · dsimp only
    split <;> rfl

theorem State.evPut_eq (s : State) (e : Event) : s.evPut e = { s with evr := (s.evPut e).evr } := by
  unfold State.evPut
  split
  · rfl
  · split <;> rfl

theorem State.evRecord1_eq (s : State) (c i d : Nat) :
    s.evRecord1 c i d = { s with evr := (s.evRecord1 c i d).evr } := by
  unfold State.evRecord1
  split
  · rename_i s' h
    have hb := State.bucketTake_eq s c
    rw [h] at hb
    exact hb
  · rename_i n s' h
    have hb := State.bucketTake_eq s c
    rw [h] at hb
    dsimp only at hb
    rw [State.evPut_eq]
    generalize State.evr _ = v
    rw [hb]

theorem State.evRecord_eq (s : State) (c i d : Nat) :
    s.evRecord c i d = { s with evr := (s.evRecord c i d).evr } := by
  have h1 := State.evRecord1_eq s c i d
  unfold State.evRecord
  generalize s.evRecord1 c i d = t at h1
  dsimp only
  split
  · exact State.evr_trans h1 (State.evRecord1_eq t _ _ _)
  · exact h1

theorem State.obsTrigger_eq (s : State) (c : Nat) : s.obsTrigger c = { s with evr := (s.obsTrigger c).evr } := by
  unfold State.obsTrigger
  generalize Evr.armFreeze _ = v
  split
  · rfl
  · exact State.evr_trans rfl (State.evRecord_eq _ _ _ _)

theorem State.fullTrigger_eq (s was : State) : s.fullTrigger was = { s with evr := (s.fullTrigger was).evr } := by
  unfold State.fullTrigger
  split
  · exact State.obsTrigger_eq s _
  · rfl

theorem State.ev_eq (s : State) (c i d : Nat) : s.ev c i d = { s with evr := (s.ev c i d).evr } := by
  have h1 := State.evRecord_eq s c i d
  unfold State.ev
  generalize s.evRecord c i d = t at h1
  dsimp only
  split
  · exact State.evr_trans (State.evr_trans h1 (State.obsTrigger_eq t c)) (State.fullTrigger_eq _ _)
  · exact State.evr_trans h1 (State.fullTrigger_eq _ _)

/-! What the recorder reads. -/

/-- Two states that the recorder cannot tell apart. -/
structure State.SameEv (s t : State) : Prop where
  active : s.cfg.active = t.cfg.active
  evr : s.evr = t.evr
  tick : s.sys.tick = t.sys.tick
  time : s.sys.timeNs = t.sys.timeNs
  stopped : s.clk.fabricStopped = t.clk.fabricStopped

theorem State.SameEv.refl (s : State) : s.SameEv s := ⟨rfl, rfl, rfl, rfl, rfl⟩

theorem State.SameEv.bucketCfg {s t : State} (h : s.SameEv t) (c : Nat) : s.bucketCfg c = t.bucketCfg c := by
  simp only [State.bucketCfg, State.rec16, State.recs, h.active]

theorem State.SameEv.bucketTake {s t : State} (h : s.SameEv t) (c : Nat) :
    (s.bucketTake c).1 = (t.bucketTake c).1 ∧ (s.bucketTake c).2.SameEv (t.bucketTake c).2 := by
  obtain ⟨_, he, ht, hm, hf⟩ := h
  have hc := State.SameEv.bucketCfg ⟨‹_›, he, ht, hm, hf⟩ c
  simp only [State.bucketTake, hc, he, ht]
  split
  · exact ⟨rfl, ‹_›, he, ht, hm, hf⟩
  · split
    · exact ⟨rfl, ‹_›, rfl, ht, hm, hf⟩
    · exact ⟨rfl, ‹_›, rfl, ht, hm, hf⟩

theorem State.SameEv.evPut {s t : State} (h : s.SameEv t) (e : Event) : (s.evPut e).SameEv (t.evPut e) := by
  obtain ⟨ha, he, ht, hm, hf⟩ := h
  simp only [State.evPut, State.evEnter, he]
  split
  · exact ⟨ha, rfl, ht, hm, hf⟩
  · split
    · exact ⟨ha, rfl, ht, hm, hf⟩
    · exact ⟨ha, rfl, ht, hm, hf⟩

theorem State.SameEv.evRecord1 {s t : State} (h : s.SameEv t) (c i d : Nat) :
    (s.evRecord1 c i d).SameEv (t.evRecord1 c i d) := by
  obtain ⟨h1, h2⟩ := h.bucketTake c
  unfold State.evRecord1
  rcases hs : s.bucketTake c with ⟨o, s'⟩
  rcases ht : t.bucketTake c with ⟨p, t'⟩
  rw [hs, ht] at h1 h2
  dsimp only at h1 h2
  subst h1
  cases o with
  | none => exact h2
  | some n =>
    dsimp only
    rw [h2.time, h2.tick, h2.stopped]
    exact h2.evPut _

theorem State.SameEv.evRecord {s t : State} (h : s.SameEv t) (c i d : Nat) :
    (s.evRecord c i d).SameEv (t.evRecord c i d) := by
  have h1 := h.evRecord1 c i d
  simp only [State.evRecord, h1.evr, h.evr]
  split
  · exact h1.evRecord1 _ _ _
  · exact h1

theorem State.SameEv.obsTrigger {s t : State} (h : s.SameEv t) (c : Nat) : (s.obsTrigger c).SameEv (t.obsTrigger c) := by
  simp only [State.obsTrigger, h.evr, h.time, h.tick]
  split
  · exact h
  · apply State.SameEv.evRecord
    exact ⟨h.active, rfl, h.tick, h.time, h.stopped⟩

theorem State.SameEv.fullTrigger {s t u v : State} (h : s.SameEv t) (k : u.SameEv v) :
    (s.fullTrigger u).SameEv (t.fullTrigger v) := by
  simp only [State.fullTrigger, h.evr, k.evr, h.bucketCfg]
  split
  · exact h.obsTrigger _
  · exact h

theorem State.SameEv.ev {s t : State} (h : s.SameEv t) (c i d : Nat) : (s.ev c i d).SameEv (t.ev c i d) := by
  simp only [State.ev, h.bucketCfg]
  split
  · exact ((h.evRecord c i d).obsTrigger c).fullTrigger h
  · exact (h.evRecord c i d).fullTrigger h

/-- An event on a state that the recorder cannot tell from `s`. -/
theorem State.ev_of {s t : State} (h : s.SameEv t) (c i d : Nat) : t.ev c i d = { t with evr := (s.ev c i d).evr } := by
  rw [(h.ev c i d).evr, ← State.ev_eq]

/-- The EVR block after an event, from what the recorder reads. -/
def evrAfter (active : List Section) (v : Evr) (tick time : Nat) (stopped : Bool) (c i d : Nat) : Evr :=
  (State.ev { cfg := { active := active }, evr := v, sys := { tick := tick, timeNs := time }
              clk := { fabricStopped := stopped } } c i d).evr

theorem State.ev_evr (s : State) (c i d : Nat) :
    (s.ev c i d).evr = evrAfter s.cfg.active s.evr s.sys.tick s.sys.timeNs s.clk.fabricStopped c i d :=
  (State.SameEv.ev (s := s) (t := { cfg := { active := s.cfg.active }, evr := s.evr
                                    sys := { tick := s.sys.tick, timeNs := s.sys.timeNs }
                                    clk := { fabricStopped := s.clk.fabricStopped } })
    ⟨rfl, rfl, rfl, rfl, rfl⟩ c i d).evr

/-- An event on a state written out. -/
theorem State.ev_mk {power clk sys sec cfg afe loop pwm fce tlk chn est net prot mem evr tx fv pending} (c i d : Nat) :
    State.ev ⟨power, clk, sys, sec, cfg, afe, loop, pwm, fce, tlk, chn, est, net, prot, mem, evr, tx, fv, pending⟩ c i d
      = ⟨power, clk, sys, sec, cfg, afe, loop, pwm, fce, tlk, chn, est, net, prot, mem,
          evrAfter cfg.active evr sys.tick sys.timeNs clk.fabricStopped c i d, tx, fv, pending⟩ := by
  rw [State.ev_eq, State.ev_evr]

@[simp] theorem State.ev_power (s : State) (c i d : Nat) : (s.ev c i d).power = s.power := by rw [State.ev_eq]
@[simp] theorem State.ev_clk (s : State) (c i d : Nat) : (s.ev c i d).clk = s.clk := by rw [State.ev_eq]
@[simp] theorem State.ev_sys (s : State) (c i d : Nat) : (s.ev c i d).sys = s.sys := by rw [State.ev_eq]
@[simp] theorem State.ev_sec (s : State) (c i d : Nat) : (s.ev c i d).sec = s.sec := by rw [State.ev_eq]
@[simp] theorem State.ev_cfg (s : State) (c i d : Nat) : (s.ev c i d).cfg = s.cfg := by rw [State.ev_eq]
@[simp] theorem State.ev_afe (s : State) (c i d : Nat) : (s.ev c i d).afe = s.afe := by rw [State.ev_eq]
@[simp] theorem State.ev_loop (s : State) (c i d : Nat) : (s.ev c i d).loop = s.loop := by rw [State.ev_eq]
@[simp] theorem State.ev_pwm (s : State) (c i d : Nat) : (s.ev c i d).pwm = s.pwm := by rw [State.ev_eq]
@[simp] theorem State.ev_fce (s : State) (c i d : Nat) : (s.ev c i d).fce = s.fce := by rw [State.ev_eq]
@[simp] theorem State.ev_tlk (s : State) (c i d : Nat) : (s.ev c i d).tlk = s.tlk := by rw [State.ev_eq]
@[simp] theorem State.ev_chn (s : State) (c i d : Nat) : (s.ev c i d).chn = s.chn := by rw [State.ev_eq]
@[simp] theorem State.ev_est (s : State) (c i d : Nat) : (s.ev c i d).est = s.est := by rw [State.ev_eq]
@[simp] theorem State.ev_net (s : State) (c i d : Nat) : (s.ev c i d).net = s.net := by rw [State.ev_eq]
@[simp] theorem State.ev_prot (s : State) (c i d : Nat) : (s.ev c i d).prot = s.prot := by rw [State.ev_eq]
@[simp] theorem State.ev_mem (s : State) (c i d : Nat) : (s.ev c i d).mem = s.mem := by rw [State.ev_eq]
@[simp] theorem State.ev_tx (s : State) (c i d : Nat) : (s.ev c i d).tx = s.tx := by rw [State.ev_eq]
@[simp] theorem State.ev_fv (s : State) (c i d : Nat) : (s.ev c i d).fv = s.fv := by rw [State.ev_eq]
@[simp] theorem State.ev_pending (s : State) (c i d : Nat) : (s.ev c i d).pending = s.pending := by rw [State.ev_eq]

/-! Events one after the other. -/

@[simp] theorem State.evs_nil (s : State) : s.evs [] = s.evr := rfl
@[simp] theorem State.evs_cons (s : State) (e : Nat × Nat × Nat) (l : List (Nat × Nat × Nat)) :
    s.evs (e :: l) = (s.ev e.1 e.2.1 e.2.2).evs l := rfl

end Sys2Proof.Machine
end

