-- ==== Sys2Proof/Laws/Memory.lean ====
section
/-! SUPPORT. Byte-addressed memory: every write keeps the canonical form; a read after a write. -/

namespace Sys2Proof.Machine

/-- A write from `lo` on keeps the form from `lo` on. -/
theorem Memory.wfFrom_write (m : Memory) (lo a : Nat) (b : Byte) (ha : lo ≤ a) (h : m.wfFrom lo = true) :
    (m.write a b).wfFrom lo = true := by
  induction m generalizing lo with
  | nil =>
    simp only [Memory.write]
    split
    · rfl
    · simp_all [Memory.wfFrom]
  | cons c m ih =>
    obtain ⟨k, v⟩ := c
    simp only [Memory.wfFrom, Bool.and_eq_true, decide_eq_true_eq] at h
    simp only [Memory.write]
    split
    · split
      · simp_all [Memory.wfFrom]
      · simp_all [Memory.wfFrom]
    · split
      · have hm : ∀ (l : Memory) (x y : Nat), x ≤ y → l.wfFrom y = true → l.wfFrom x = true := by
          intro l
          cases l with
          | nil => simp [Memory.wfFrom]
          | cons c l =>
            intro x y hxy hl
            simp only [Memory.wfFrom, Bool.and_eq_true, decide_eq_true_eq] at hl ⊢
            exact ⟨⟨by omega, hl.1.2⟩, hl.2⟩
        split
        · exact hm _ _ _ (by omega) h.2
        · simp_all [Memory.wfFrom]
      · simp only [Memory.wfFrom, Bool.and_eq_true, decide_eq_true_eq]
        exact ⟨h.1, ih _ (by omega) h.2⟩

/-- Empty memory is in canonical form. -/
@[simp] theorem Memory.wf_nil : Memory.wf [] = true := rfl

/-- A write keeps the canonical form. -/
@[simp] theorem Memory.wf_write (m : Memory) (a : Nat) (b : Byte) (h : m.wf = true) : (m.write a b).wf = true :=
  m.wfFrom_write 0 a b (Nat.zero_le _) h

/-- A write of several bytes keeps the canonical form. -/
@[simp] theorem Memory.wf_writeN (m : Memory) (a : Nat) (l : List Byte) (h : m.wf = true) : (m.writeN a l).wf = true := by
  induction l generalizing m a with
  | nil => exact h
  | cons b l ih => exact ih _ _ (m.wf_write a b h)

/-- Fewer entries keep the form. -/
theorem Memory.wfFrom_filter (m : Memory) (lo : Nat) (f : Host.Cell → Bool) (h : m.wfFrom lo = true) :
    Memory.wfFrom lo (m.filter f) = true := by
  have hm : ∀ (l : Memory) (x y : Nat), x ≤ y → l.wfFrom y = true → l.wfFrom x = true := by
    intro l
    cases l with
    | nil => simp [Memory.wfFrom]
    | cons c l =>
      intro x y hxy hl
      simp only [Memory.wfFrom, Bool.and_eq_true, decide_eq_true_eq] at hl ⊢
      exact ⟨⟨by omega, hl.1.2⟩, hl.2⟩
  induction m generalizing lo with
  | nil => rfl
  | cons c m ih =>
    obtain ⟨k, v⟩ := c
    simp only [Memory.wfFrom, Bool.and_eq_true, decide_eq_true_eq] at h
    simp only [List.filter]
    split
    · simp only [Memory.wfFrom, Bool.and_eq_true, decide_eq_true_eq]
      exact ⟨h.1, ih _ h.2⟩
    · exact hm _ _ _ (by omega) (ih _ h.2)

/-- Entries from an address on keep the form from that address on. -/
theorem Memory.wfFrom_raise (m : Memory) (lo hi : Nat) (h : m.wfFrom lo = true) (hk : ∀ c ∈ m, hi ≤ c.1) :
    m.wfFrom hi = true := by
  cases m with
  | nil => rfl
  | cons c m =>
    simp only [Memory.wfFrom, Bool.and_eq_true, decide_eq_true_eq] at h ⊢
    exact ⟨⟨hk c (by simp), h.1.2⟩, h.2⟩

/-- Entries below an address before entries from it on. -/
theorem Memory.wfFrom_append (m r : Memory) (lo hi : Nat) (h : m.wfFrom lo = true) (hl : lo ≤ hi)
    (hk : ∀ c ∈ m, c.1 < hi) (hr : r.wfFrom hi = true) : Memory.wfFrom lo (m ++ r) = true := by
  induction m generalizing lo with
  | nil =>
    cases r with
    | nil => rfl
    | cons c r =>
      simp only [Memory.wfFrom, Bool.and_eq_true, decide_eq_true_eq, List.nil_append] at hr ⊢
      exact ⟨⟨by omega, hr.1.2⟩, hr.2⟩
  | cons c m ih =>
    simp only [Memory.wfFrom, Bool.and_eq_true, decide_eq_true_eq, List.cons_append] at h ⊢
    have := hk c (by simp)
    exact ⟨h.1, ih _ h.2 (by omega) fun d hd => hk d (by simp [hd])⟩

/-- Bytes taken over from another memory keep the canonical form. -/
@[simp] theorem Memory.wf_withRange (m src : Memory) (lo hi : Nat) (h : m.wf = true) (hs : src.wf = true) :
    (m.withRange src lo hi).wf = true := by
  refine Memory.wfFrom_append _ _ 0 lo (m.wfFrom_filter 0 _ h) (Nat.zero_le _) (by simp) ?_
  have ha : Memory.wfFrom lo (src.filter fun c => decide (lo ≤ c.1) && decide (c.1 < hi)) = true :=
    Memory.wfFrom_raise _ 0 lo (src.wfFrom_filter 0 _ hs) (by intro c hc; simp at hc; exact hc.2.1)
  have hb : Memory.wfFrom (max lo hi) (m.filter fun c => decide (lo ≤ c.1) && decide (hi ≤ c.1)) = true :=
    Memory.wfFrom_raise _ 0 _ (m.wfFrom_filter 0 _ h) (by intro c hc; simp at hc; omega)
  exact Memory.wfFrom_append _ _ lo (max lo hi) ha (Nat.le_max_left _ _)
    (by intro c hc; simp at hc; omega) hb

/-- Below the first listed address, every byte reads 0. -/
theorem Memory.read_below (m : Memory) (lo a : Nat) (h : m.wfFrom lo = true) (ha : a < lo) : m.read a = 0 := by
  cases m with
  | nil => rfl
  | cons c m =>
    obtain ⟨k, v⟩ := c
    simp only [Memory.wfFrom, Bool.and_eq_true, decide_eq_true_eq] at h
    simp only [Memory.read]
    rw [if_neg (by omega), if_pos (by omega)]

/-- A byte reads what was written to it last, and a write leaves every other byte alone. -/
theorem Memory.read_write (m : Memory) (lo a : Nat) (b : Byte) (c : Nat) (h : m.wfFrom lo = true) :
    (m.write a b).read c = if c = a then b else m.read c := by
  induction m generalizing lo with
  | nil =>
    simp only [Memory.write]
    split <;> simp only [Memory.read] <;> (repeat' split) <;> first | rfl | omega | simp only [*]
  | cons d m ih =>
    obtain ⟨k, v⟩ := d
    simp only [Memory.wfFrom, Bool.and_eq_true, decide_eq_true_eq] at h
    have hb := fun hc => Memory.read_below m (k + 1) c h.2 hc
    simp only [Memory.write]
    split
    · split <;> simp only [Memory.read] <;> (repeat' split) <;> first | rfl | omega | simp only [*]
    · split
      · split
        · simp only [Memory.read]
          by_cases hc : c < k + 1
          · rw [hb hc]
            repeat' split
            all_goals first | rfl | omega | simp only [*]
          · repeat' split
            all_goals first | rfl | omega
        · simp only [Memory.read]
          repeat' split
          all_goals first | rfl | omega
      · have := ih (k + 1) h.2
        simp only [Memory.read, this]
        repeat' split
        all_goals first | rfl | omega

/-- The canonical form of the memories, one by one. -/
@[simp] theorem Mem.ok_sram (m : Mem) (h : m.ok = true) : m.sram.wf = true := by simp_all [Mem.ok]
@[simp] theorem Mem.ok_hbm (m : Mem) (h : m.ok = true) : m.hbm.wf = true := by simp_all [Mem.ok]
@[simp] theorem Mem.ok_tier (m : Mem) (h : m.ok = true) : m.tier.wf = true := by simp_all [Mem.ok]
@[simp] theorem Mem.ok_mram (m : Mem) (h : m.ok = true) : m.mram.wf = true := by simp_all [Mem.ok]
@[simp] theorem Mem.ok_backing (m : Mem) (h : m.ok = true) : m.backing.wf = true := by simp_all [Mem.ok]

/-- The form of a block written out. -/
@[simp] theorem Mem.ok_mk (a b c d x : Memory) (e f g h i j k l m) :
    (Mem.mk a b c x d e f g h i j k l m).ok = (a.wf && b.wf && c.wf && x.wf && d.wf) := rfl

end Sys2Proof.Machine
end

