-- ==== Sys2Proof/Laws/Kept.lean ====
section
/-! SUPPORT. What every operation keeps: the parts of the state it does not touch, the canonical form of the memories, and
the lifecycle, which never moves back (R446). Here: the relation, and how it composes. -/

namespace Sys2Proof.Machine

theorem State.only_refl {l : List Blk} {s : State} : State.only l s s := by
  intro b _; cases b <;> rfl

theorem Blk.same_trans {b : Blk} {s t u : State} (h : b.same s t) (k : b.same t u) : b.same s u := by
  cases b <;> exact k.trans h

theorem State.only_trans {l : List Blk} {s t u : State} (h : State.only l s t) (k : State.only l t u) :
    State.only l s u :=
  fun b hb => Blk.same_trans (h b hb) (k b hb)

/-- What leads from `s` to `t` touches only the listed parts, keeps the canonical form of the memories, and does not move
the lifecycle back. -/
structure Kept (l : List Blk) (s t : State) : Prop where
  only : State.only l s t
  mem : s.mem.ok = true → t.mem.ok = true
  life : s.sec.lifecycle ≤ t.sec.lifecycle

theorem Kept.rfl {l : List Blk} {s : State} : Kept l s s := ⟨State.only_refl, id, Nat.le_refl _⟩

theorem Kept.trans {l : List Blk} {s t u : State} (h : Kept l s t) (k : Kept l t u) : Kept l s u :=
  ⟨State.only_trans h.only k.only, fun x => k.mem (h.mem x), Nat.le_trans h.life k.life⟩

/-- A state on the way. -/
theorem Kept.cut {l : List Blk} {s x y : State} (h : Kept l s x) (k : Kept l s x → Kept l s y) : Kept l s y := k h

/-- `Kept` of a state written out. -/
def Kept.Of (l : List Blk) (s : State)
    (power : Power) (clk : Clock) (sys : Sys) (sec : Sec) (cfg : Cfg) (afe : Afe) (loop : Loop)
    (pwm : Pwm) (fce : Fce) (tlk : Tlk) (chn : Chn) (est : Est) (net : Net) (prot : Prot) (mem : Mem)
    (evr : Evr) (tx : List Output) (fv : Nat) (pending : List Instr) : Prop :=
  Kept l s ⟨power, clk, sys, sec, cfg, afe, loop, pwm, fce, tlk, chn, est, net, prot, mem, evr, tx, fv, pending⟩

theorem Kept.mk_iff {l : List Blk} {s : State}
    {power clk sys sec cfg afe loop pwm fce tlk chn est net prot mem evr tx fv pending} :
    Kept l s ⟨power, clk, sys, sec, cfg, afe, loop, pwm, fce, tlk, chn, est, net, prot, mem, evr, tx, fv, pending⟩
      ↔ Kept.Of l s power clk sys sec cfg afe loop pwm fce tlk chn est net prot mem evr tx fv pending := Iff.rfl

/-! An update of one part of a state `x` that has been reached. -/

theorem Kept.of_power {l : List Blk} {s x : State} {v} (h : Kept l s x) (hL : .power ∈ l) :
    Kept.Of l s v x.clk x.sys x.sec x.cfg x.afe x.loop x.pwm x.fce x.tlk x.chn x.est x.net x.prot x.mem x.evr x.tx x.fv x.pending := by
  refine h.trans ⟨fun b hb => ?_, id, Nat.le_refl _⟩
  cases b <;> first | rfl | exact absurd hL hb

theorem Kept.of_clk {l : List Blk} {s x : State} {v} (h : Kept l s x) (hL : .clk ∈ l) :
    Kept.Of l s x.power v x.sys x.sec x.cfg x.afe x.loop x.pwm x.fce x.tlk x.chn x.est x.net x.prot x.mem x.evr x.tx x.fv x.pending := by
  refine h.trans ⟨fun b hb => ?_, id, Nat.le_refl _⟩
  cases b <;> first | rfl | exact absurd hL hb

theorem Kept.of_sys {l : List Blk} {s x : State} {v} (h : Kept l s x) (hL : .sys ∈ l) :
    Kept.Of l s x.power x.clk v x.sec x.cfg x.afe x.loop x.pwm x.fce x.tlk x.chn x.est x.net x.prot x.mem x.evr x.tx x.fv x.pending := by
  refine h.trans ⟨fun b hb => ?_, id, Nat.le_refl _⟩
  cases b <;> first | rfl | exact absurd hL hb

theorem Kept.of_sec {l : List Blk} {s x : State} {v} (h : Kept l s x) (hL : .sec ∈ l) (hl : x.sec.lifecycle ≤ v.lifecycle) :
    Kept.Of l s x.power x.clk x.sys v x.cfg x.afe x.loop x.pwm x.fce x.tlk x.chn x.est x.net x.prot x.mem x.evr x.tx x.fv x.pending := by
  refine h.trans ⟨fun b hb => ?_, id, hl⟩
  cases b <;> first | rfl | exact absurd hL hb

theorem Kept.of_cfg {l : List Blk} {s x : State} {v} (h : Kept l s x) (hL : .cfg ∈ l) :
    Kept.Of l s x.power x.clk x.sys x.sec v x.afe x.loop x.pwm x.fce x.tlk x.chn x.est x.net x.prot x.mem x.evr x.tx x.fv x.pending := by
  refine h.trans ⟨fun b hb => ?_, id, Nat.le_refl _⟩
  cases b <;> first | rfl | exact absurd hL hb

theorem Kept.of_afe {l : List Blk} {s x : State} {v} (h : Kept l s x) (hL : .afe ∈ l) :
    Kept.Of l s x.power x.clk x.sys x.sec x.cfg v x.loop x.pwm x.fce x.tlk x.chn x.est x.net x.prot x.mem x.evr x.tx x.fv x.pending := by
  refine h.trans ⟨fun b hb => ?_, id, Nat.le_refl _⟩
  cases b <;> first | rfl | exact absurd hL hb

theorem Kept.of_loop {l : List Blk} {s x : State} {v} (h : Kept l s x) (hL : .loop ∈ l) :
    Kept.Of l s x.power x.clk x.sys x.sec x.cfg x.afe v x.pwm x.fce x.tlk x.chn x.est x.net x.prot x.mem x.evr x.tx x.fv x.pending := by
  refine h.trans ⟨fun b hb => ?_, id, Nat.le_refl _⟩
  cases b <;> first | rfl | exact absurd hL hb

theorem Kept.of_pwm {l : List Blk} {s x : State} {v} (h : Kept l s x) (hL : .pwm ∈ l) :
    Kept.Of l s x.power x.clk x.sys x.sec x.cfg x.afe x.loop v x.fce x.tlk x.chn x.est x.net x.prot x.mem x.evr x.tx x.fv x.pending := by
  refine h.trans ⟨fun b hb => ?_, id, Nat.le_refl _⟩
  cases b <;> first | rfl | exact absurd hL hb

theorem Kept.of_fce {l : List Blk} {s x : State} {v} (h : Kept l s x) (hL : .fce ∈ l) :
    Kept.Of l s x.power x.clk x.sys x.sec x.cfg x.afe x.loop x.pwm v x.tlk x.chn x.est x.net x.prot x.mem x.evr x.tx x.fv x.pending := by
  refine h.trans ⟨fun b hb => ?_, id, Nat.le_refl _⟩
  cases b <;> first | rfl | exact absurd hL hb

theorem Kept.of_tlk {l : List Blk} {s x : State} {v} (h : Kept l s x) (hL : .tlk ∈ l) :
    Kept.Of l s x.power x.clk x.sys x.sec x.cfg x.afe x.loop x.pwm x.fce v x.chn x.est x.net x.prot x.mem x.evr x.tx x.fv x.pending := by
  refine h.trans ⟨fun b hb => ?_, id, Nat.le_refl _⟩
  cases b <;> first | rfl | exact absurd hL hb

theorem Kept.of_chn {l : List Blk} {s x : State} {v} (h : Kept l s x) (hL : .chn ∈ l) :
    Kept.Of l s x.power x.clk x.sys x.sec x.cfg x.afe x.loop x.pwm x.fce x.tlk v x.est x.net x.prot x.mem x.evr x.tx x.fv x.pending := by
  refine h.trans ⟨fun b hb => ?_, id, Nat.le_refl _⟩
  cases b <;> first | rfl | exact absurd hL hb

theorem Kept.of_est {l : List Blk} {s x : State} {v} (h : Kept l s x) (hL : .est ∈ l) :
    Kept.Of l s x.power x.clk x.sys x.sec x.cfg x.afe x.loop x.pwm x.fce x.tlk x.chn v x.net x.prot x.mem x.evr x.tx x.fv x.pending := by
  refine h.trans ⟨fun b hb => ?_, id, Nat.le_refl _⟩
  cases b <;> first | rfl | exact absurd hL hb

theorem Kept.of_net {l : List Blk} {s x : State} {v} (h : Kept l s x) (hL : .net ∈ l) :
    Kept.Of l s x.power x.clk x.sys x.sec x.cfg x.afe x.loop x.pwm x.fce x.tlk x.chn x.est v x.prot x.mem x.evr x.tx x.fv x.pending := by
  refine h.trans ⟨fun b hb => ?_, id, Nat.le_refl _⟩
  cases b <;> first | rfl | exact absurd hL hb

theorem Kept.of_prot {l : List Blk} {s x : State} {v} (h : Kept l s x) (hL : .prot ∈ l) :
    Kept.Of l s x.power x.clk x.sys x.sec x.cfg x.afe x.loop x.pwm x.fce x.tlk x.chn x.est x.net v x.mem x.evr x.tx x.fv x.pending := by
  refine h.trans ⟨fun b hb => ?_, id, Nat.le_refl _⟩
  cases b <;> first | rfl | exact absurd hL hb

theorem Kept.of_mem {l : List Blk} {s x : State} {v} (h : Kept l s x) (hL : .mem ∈ l) (hm : x.mem.ok = true → v.ok = true) :
    Kept.Of l s x.power x.clk x.sys x.sec x.cfg x.afe x.loop x.pwm x.fce x.tlk x.chn x.est x.net x.prot v x.evr x.tx x.fv x.pending := by
  refine h.trans ⟨fun b hb => ?_, hm, Nat.le_refl _⟩
  cases b <;> first | rfl | exact absurd hL hb

theorem Kept.of_evr {l : List Blk} {s x : State} {v} (h : Kept l s x) (hL : .evr ∈ l) :
    Kept.Of l s x.power x.clk x.sys x.sec x.cfg x.afe x.loop x.pwm x.fce x.tlk x.chn x.est x.net x.prot x.mem v x.tx x.fv x.pending := by
  refine h.trans ⟨fun b hb => ?_, id, Nat.le_refl _⟩
  cases b <;> first | rfl | exact absurd hL hb

theorem Kept.of_tx {l : List Blk} {s x : State} {v} (h : Kept l s x) (hL : .tx ∈ l) :
    Kept.Of l s x.power x.clk x.sys x.sec x.cfg x.afe x.loop x.pwm x.fce x.tlk x.chn x.est x.net x.prot x.mem x.evr v x.fv x.pending := by
  refine h.trans ⟨fun b hb => ?_, id, Nat.le_refl _⟩
  cases b <;> first | rfl | exact absurd hL hb

theorem Kept.of_fv {l : List Blk} {s x : State} {v} (h : Kept l s x) (hL : .fv ∈ l) :
    Kept.Of l s x.power x.clk x.sys x.sec x.cfg x.afe x.loop x.pwm x.fce x.tlk x.chn x.est x.net x.prot x.mem x.evr x.tx v x.pending := by
  refine h.trans ⟨fun b hb => ?_, id, Nat.le_refl _⟩
  cases b <;> first | rfl | exact absurd hL hb

/-- An update of several parts. -/
theorem Kept.of_any {l : List Blk} {s x : State}
    {power clk sys sec cfg afe loop pwm fce tlk chn est net prot mem evr tx fv} (h : Kept l s x)
    (hb : ∀ b, b ∉ l → Blk.same b x ⟨power, clk, sys, sec, cfg, afe, loop, pwm, fce, tlk, chn, est, net, prot, mem, evr,
      tx, fv, x.pending⟩)
    (hm : x.mem.ok = true → mem.ok = true) (hl : x.sec.lifecycle ≤ sec.lifecycle) :
    Kept.Of l s power clk sys sec cfg afe loop pwm fce tlk chn est net prot mem evr tx fv x.pending :=
  h.trans ⟨hb, hm, hl⟩

/-- A fold of operations that keep. -/
theorem Kept.foldl {α : Type} {f : State → α → State} {as : List α} {l : List Blk} {s x : State} (h : Kept l s x)
    (hf : ∀ s a, Kept l s (f s a)) : Kept l s (as.foldl f x) := by
  induction as generalizing x with
  | nil => exact h
  | cons a as ih => exact ih (h.trans (hf _ _))

/-- Either way. -/
theorem Kept.ite {l : List Blk} {s x y : State} {c : Prop} [Decidable c] (h : Kept l s x) (k : Kept l s y) :
    Kept l s (if c then x else y) := by
  split <;> assumption

/-- An operation given as an argument. -/
theorem Kept.app {l : List Blk} {f : State → State} {s x : State} (hf : ∀ s, Kept l s (f s)) (h : Kept l s x) :
    Kept l s (f x) :=
  h.trans (hf x)

/-- An operation given as an argument, with an operand. -/
theorem Kept.app2 {l : List Blk} {α : Type} {f : State → α → State} {s x : State} {a : α}
    (hf : ∀ s a, Kept l s (f s a)) (h : Kept l s x) : Kept l s (f x a) :=
  h.trans (hf x a)

/-- An operation given as an argument, with three operands. -/
theorem Kept.app4 {l : List Blk} {α β γ : Type} {f : State → α → β → γ → State} {s x : State} {a : α} {b : β} {c : γ}
    (hf : ∀ s a b c, Kept l s (f s a b c)) (h : Kept l s x) : Kept l s (f x a b c) :=
  h.trans (hf x a b c)

/-- The state of a pair. -/
theorem Kept.snd {l : List Blk} {α : Type} {s t : State} {p : α × State} {a : α} (e : p = (a, t)) (h : Kept l s p.2) :
    Kept l s t := by
  subst e; exact h

/-- The state of a pair. -/
theorem Kept.fst {l : List Blk} {α : Type} {s t : State} {p : State × α} {a : α} (e : p = (t, a)) (h : Kept l s p.1) :
    Kept l s t := by
  subst e; exact h

/-- The state of a triple. -/
theorem Kept.snd2 {l : List Blk} {α β : Type} {s t : State} {p : α × β × State} {a : α} {b : β} (e : p = (a, b, t))
    (h : Kept l s p.2.2) : Kept l s t := by
  subst e; exact h

/-- What an outcome keeps: a next state is kept from `s`. -/
structure Keeps (l : List Blk) (s : State) (o : Host.Outcome State Fault Refusal) : Prop where
  kept : ∀ t, o = .next t → Kept l s t

theorem Keeps.next {l : List Blk} {s t : State} (h : Kept l s t) : Keeps l s (.next t) :=
  ⟨by intro u hu; cases hu; exact h⟩

theorem Keeps.refused {l : List Blk} {s : State} {r : Refusal} : Keeps l s (.refused r) :=
  ⟨by intro u hu; cases hu⟩

/-- Either way. -/
theorem Keeps.ite {l : List Blk} {s : State} {x y : Host.Outcome State Fault Refusal} {c : Prop} [Decidable c]
    (h : Keeps l s x) (k : Keeps l s y) : Keeps l s (if c then x else y) := by
  split <;> assumption

/-- A state on the way to an outcome. -/
theorem Keeps.cut {l : List Blk} {s x : State} {o : Host.Outcome State Fault Refusal} (h : Kept l s x)
    (k : Kept l s x → Keeps l s o) : Keeps l s o := k h

end Sys2Proof.Machine
end

