-- ==== Sys2Proof/Laws/KeptOps.lean ====
section
/-! SUPPORT. What the operations of Machine/Ops.lean keep. -/

set_option linter.unusedTactic false
set_option linter.unreachableTactic false

namespace Sys2Proof.Machine

theorem State.send_kept {L : List Blk} {o : State} (s : State) (oo : Output) (hT : [.tx] ⊆ L) (hk : Kept L o s) :
    Kept L o (State.send s oo) := by
  unfold State.send
  repeat' first
    | with_reducible assumption
    | exact hT (by decide)
    | with_reducible apply Kept.of_tx
    | simp only [↓Kept.mk_iff]

theorem State.used_kept {L : List Blk} {o : State} (s : State) (hT : [.fv] ⊆ L) (hk : Kept L o s) :
    Kept L o (State.used s) := by
  unfold State.used
  repeat' first
    | with_reducible assumption
    | exact hT (by decide)
    | with_reducible apply Kept.of_fv
    | simp only [↓Kept.mk_iff]

theorem State.degrade_kept {L : List Blk} {o : State} (s : State) (hT : [.sys] ⊆ L) (hk : Kept L o s) :
    Kept L o (State.degrade s) := by
  unfold State.degrade
  repeat' first
    | with_reducible assumption
    | exact hT (by decide)
    | with_reducible apply Kept.of_sys
    | simp only [↓Kept.mk_iff]

theorem State.violate_kept {L : List Blk} {o : State} (s : State) (hT : [.sys] ⊆ L) (hk : Kept L o s) :
    Kept L o (State.violate s) := by
  unfold State.violate
  repeat' first
    | with_reducible assumption
    | exact hT (by decide)
    | with_reducible apply Kept.of_sys
    | simp only [↓Kept.mk_iff]

theorem State.regCmd_kept {L : List Blk} {o : State} (s : State) (sess : Fin 64) (c : AccClass)
    (f : State → State) (hT : [.sys] ⊆ L) (hf : ∀ s : State, Kept L s (f s)) (hk : Kept L o s) :
    Kept L o (State.regCmd s sess c f) := by
  unfold State.regCmd
  repeat' first
    | with_reducible first | assumption | apply State.violate_kept | apply Kept.app hf | apply Kept.ite

theorem State.regCmdAt_kept {L : List Blk} {o : State} (s : State) (live : Bool) (sess : Fin 64) (c : AccClass)
    (f : State → State) (hT : [.sys] ⊆ L) (hf : ∀ s : State, Kept L s (f s)) (hk : Kept L o s) :
    Kept L o (State.regCmdAt s live sess c f) := by
  unfold State.regCmdAt
  repeat' first
    | with_reducible first | assumption | apply State.regCmd_kept | apply Kept.ite

theorem State.bucketTake_kept {L : List Blk} {o : State} (s : State) (code : Nat) (hT : [.evr] ⊆ L)
    (hk : Kept L o s) :
    Kept L o (State.bucketTake s code).2 := by
  unfold State.bucketTake
  repeat' first
    | with_reducible assumption
    | exact hT (by decide)
    | with_reducible apply Kept.of_evr
    | simp only [↓Kept.mk_iff]
    | split

theorem State.evEnter_kept {L : List Blk} {o : State} (s : State) (e : Event) (hT : [.evr] ⊆ L) (hk : Kept L o s) :
    Kept L o (State.evEnter s e) := by
  unfold State.evEnter
  repeat' first
    | with_reducible assumption
    | exact hT (by decide)
    | with_reducible apply Kept.of_evr
    | simp only [↓Kept.mk_iff]

theorem State.evPut_kept {L : List Blk} {o : State} (s : State) (e : Event) (hT : [.evr] ⊆ L) (hk : Kept L o s) :
    Kept L o (State.evPut s e) := by
  unfold State.evPut
  repeat' first
    | with_reducible assumption
    | exact hT (by decide)
    | with_reducible first | apply State.evEnter_kept | apply Kept.of_evr
    | simp only [↓Kept.mk_iff]
    | with_reducible apply Kept.ite

theorem State.evRecord1_kept {L : List Blk} {o : State} (s : State) (code : Nat) (inst : Nat) (data : Nat)
    (hT : [.evr] ⊆ L) (hk : Kept L o s) :
    Kept L o (State.evRecord1 s code inst data) := by
  unfold State.evRecord1
  repeat' first
    | with_reducible first | assumption | apply State.bucketTake_kept | apply State.evPut_kept
    | with_reducible refine Kept.snd ‹_› ?_
    | split

theorem State.evRecord_kept {L : List Blk} {o : State} (s : State) (code : Nat) (inst : Nat) (data : Nat)
    (hT : [.evr] ⊆ L) (hk : Kept L o s) :
    Kept L o (State.evRecord s code inst data) := by
  unfold State.evRecord
  repeat' first
    | with_reducible assumption
    | ((try lift_lets); intro x; refine Kept.cut (x := x) ?_ ?_; rotate_left; clear_value x; intro _; rotate_left; unfold x)
    | with_reducible first | apply State.evRecord1_kept | apply Kept.ite

theorem State.obsTrigger_kept {L : List Blk} {o : State} (s : State) (code : Nat) (hT : [.evr] ⊆ L)
    (hk : Kept L o s) :
    Kept L o (State.obsTrigger s code) := by
  unfold State.obsTrigger
  repeat' first
    | with_reducible assumption
    | exact hT (by decide)
    | with_reducible first | apply State.evRecord_kept | apply Kept.of_evr
    | simp only [↓Kept.mk_iff]
    | with_reducible apply Kept.ite

theorem State.fullTrigger_kept {L : List Blk} {o : State} (s : State) (was : State) (hT : [.evr] ⊆ L)
    (hk : Kept L o s) :
    Kept L o (State.fullTrigger s was) := by
  unfold State.fullTrigger
  repeat' first
    | with_reducible first | assumption | apply State.obsTrigger_kept | apply Kept.ite

theorem State.ev_kept {L : List Blk} {o : State} (s : State) (code : Nat) (inst : Nat) (data : Nat)
    (hT : [.evr] ⊆ L) (hk : Kept L o s) :
    Kept L o (State.ev s code inst data) := by
  unfold State.ev
  repeat' first
    | with_reducible first | assumption | apply State.evRecord_kept | apply State.fullTrigger_kept
    | with_reducible first | apply State.obsTrigger_kept | apply Kept.ite

theorem State.displace_kept {L : List Blk} {o : State} (s : State) (row : Nat) (inst : Nat) (winner : Nat)
    (loser : Nat) (hT : [.cfg, .evr] ⊆ L) (hk : Kept L o s) :
    Kept L o (State.displace s row inst winner loser) := by
  unfold State.displace
  repeat' first
    | with_reducible assumption
    | exact hT (by decide)
    | exact List.Subset.trans (by decide) hT
    | with_reducible first | apply State.ev_kept | apply Kept.of_cfg
    | simp only [↓Kept.mk_iff]

theorem State.undisplace_kept {L : List Blk} {o : State} (s : State) (row : Nat) (inst : Nat) (winner : Nat)
    (loser : Nat) (hT : [.evr] ⊆ L) (hk : Kept L o s) :
    Kept L o (State.undisplace s row inst winner loser) := by
  unfold State.undisplace
  repeat' first
    | with_reducible first | assumption | apply State.ev_kept

end Sys2Proof.Machine
end

