-- ==== Sys2Proof/Laws/KeptTlkOps.lean ====
section
/-! SUPPORT. What the operations of Machine/TlkOps.lean keep. -/

set_option linter.unusedTactic false
set_option linter.unreachableTactic false

namespace Sys2Proof.Machine

theorem State.updPort_kept {L : List Blk} {o : State} (s : State) (n : Fin 64) (f : Port → Port) (hT : [.tlk] ⊆ L)
    (hk : Kept L o s) :
    Kept L o (State.updPort s n f) := by
  unfold State.updPort
  repeat' first
    | with_reducible assumption
    | exact hT (by decide)
    | with_reducible apply Kept.of_tlk
    | simp only [↓Kept.mk_iff]

theorem State.sendSet_kept {L : List Blk} {o : State} (s : State) (n : Fin 64) (b : List Byte) (hT : [.tx] ⊆ L)
    (hk : Kept L o s) :
    Kept L o (State.sendSet s n b) := by
  unfold State.sendSet
  repeat' first
    | with_reducible first | assumption | apply State.send_kept

theorem State.sendGrant_kept {L : List Blk} {o : State} (s : State) (n : Fin 64) (hT : [.tlk, .tx] ⊆ L)
    (hk : Kept L o s) :
    Kept L o (State.sendGrant s n) := by
  unfold State.sendGrant
  repeat' first
    | with_reducible assumption
    | exact hT (by decide)
    | exact List.Subset.trans (by decide) hT
    | with_reducible first | apply State.send_kept | apply State.updPort_kept | apply Kept.of_tlk
    | simp only [↓Kept.mk_iff]
    | with_reducible apply Kept.ite

theorem State.sendGrants_kept {L : List Blk} {o : State} (s : State) (l : List (Fin 64)) (hT : [.tlk, .tx] ⊆ L)
    (hk : Kept L o s) :
    Kept L o (State.sendGrants s l) := by
  unfold State.sendGrants
  repeat' first
    | with_reducible first | assumption | apply Kept.foldl
    | refine fun (_ : State) _ => ?_
    | with_reducible first | exact Kept.rfl | apply State.sendGrant_kept

theorem State.regrant_kept {L : List Blk} {o : State} (s : State) (old : State) (hT : [.tlk, .tx] ⊆ L)
    (hk : Kept L o s) :
    Kept L o (State.regrant s old) := by
  unfold State.regrant
  repeat' first
    | with_reducible first | assumption | apply State.sendGrants_kept

theorem State.placePass_kept {L : List Blk} {o : State} (s : State) (rising : Bool) (t id src c grant : Nat)
    (l : List (Fin 64 × Nat)) (cursor : Nat) (hT : [.tlk] ⊆ L) (hk : Kept L o s) :
    Kept L o (s.placePass rising t id src c grant l cursor) := by
  induction l generalizing s cursor with
  | nil => exact hk
  | cons x l ih =>
    simp only [State.placePass]
    split
    · exact ih _ _ hk
    · exact ih _ _ (Kept.mk_iff.2 (Kept.of_tlk hk (hT (by decide))))

theorem State.noteOffsets_kept {L : List Blk} {o : State} (s : State) (e : Entry) (hT : [.tlk] ⊆ L)
    (hk : Kept L o s) :
    Kept L o (State.noteOffsets s e) := by
  unfold State.noteOffsets
  repeat' first
    | with_reducible assumption
    | exact hT (by decide)
    | with_reducible apply Kept.of_tlk
    | simp only [↓Kept.mk_iff]

theorem State.noteWaiting_kept {L : List Blk} {o : State} (s : State) (e : Entry) (l : List (Fin 64))
    (hT : [.tlk] ⊆ L) (hk : Kept L o s) :
    Kept L o (State.noteWaiting s e l) := by
  unfold State.noteWaiting
  repeat' first
    | with_reducible assumption
    | exact hT (by decide)
    | with_reducible apply Kept.of_tlk
    | simp only [↓Kept.mk_iff]

theorem State.placeEntry_kept {L : List Blk} {o : State} (s : State) (e : Entry) (l : List (Fin 64))
    (hT : [.tlk, .tx] ⊆ L) (hk : Kept L o s) :
    Kept L o (State.placeEntry s e l) := by
  unfold State.placeEntry
  repeat' first
    | with_reducible assumption
    | exact hT (by decide)
    | exact List.Subset.trans (by decide) hT
    | with_reducible first | apply State.noteOffsets_kept | apply State.placePass_kept | apply State.sendGrants_kept
    | with_reducible apply Kept.of_tlk
    | simp only [↓Kept.mk_iff]
    | with_reducible apply Kept.ite

theorem State.tryPlace_kept {L : List Blk} {o : State} (s : State) (e : Entry) (l : List (Fin 64))
    (hT : [.tlk, .tx] ⊆ L) (hk : Kept L o s) :
    Kept L o (State.tryPlace s e l) := by
  unfold State.tryPlace
  repeat' first
    | with_reducible assumption
    | exact List.Subset.trans (by decide) hT
    | with_reducible first | apply State.noteWaiting_kept | apply State.placeEntry_kept | apply Kept.ite

theorem State.allocResume_kept {L : List Blk} {o : State} (s : State) (hT : [.tlk, .tx] ⊆ L) (hk : Kept L o s) :
    Kept L o (State.allocResume s) := by
  unfold State.allocResume
  repeat' first
    | with_reducible first | assumption | apply Kept.foldl
    | refine fun (_ : State) _ => ?_
    | with_reducible first | exact Kept.rfl | apply State.tryPlace_kept

theorem State.tryPort_kept {L : List Blk} {o : State} (s : State) (n : Fin 64) (hT : [.tlk, .tx] ⊆ L)
    (hk : Kept L o s) :
    Kept L o (State.tryPort s n) := by
  unfold State.tryPort
  repeat' first
    | with_reducible first | assumption | apply Kept.foldl
    | refine fun (_ : State) _ => ?_
    | with_reducible first | exact Kept.rfl | apply State.tryPlace_kept | apply Kept.ite

theorem State.tryWaiters_kept {L : List Blk} {o : State} (s : State) (n : Fin 64) (hT : [.tlk, .evr, .tx] ⊆ L)
    (hk : Kept L o s) :
    Kept L o (State.tryWaiters s n) := by
  unfold State.tryWaiters
  repeat' first
    | with_reducible assumption
    | exact hT (by decide)
    | exact List.Subset.trans (by decide) hT
    | with_reducible apply Kept.foldl
    | refine fun (_ : State) _ => ?_
    | with_reducible first | exact Kept.rfl | apply State.ev_kept | apply State.tryPlace_kept | apply Kept.of_tlk
    | simp only [↓Kept.mk_iff]
    | with_reducible apply Kept.ite

theorem State.setRole_kept {L : List Blk} {o : State} (s : State) (l : List (Fin 64)) (r : Nat)
    (hT : [.tlk, .tx] ⊆ L) (hk : Kept L o s) :
    Kept L o (State.setRole s l r) := by
  unfold State.setRole
  repeat' first
    | with_reducible assumption
    | exact List.Subset.trans (by decide) hT
    | with_reducible apply Kept.foldl
    | refine fun (_ : State) _ => ?_
    | with_reducible first | exact Kept.rfl | apply State.regrant_kept | apply State.updPort_kept

theorem State.unplace_kept {L : List Blk} {o : State} (s : State) (n : Nat) (hT : [.tlk] ⊆ L) (hk : Kept L o s) :
    Kept L o (State.unplace s n) := by
  unfold State.unplace
  repeat' first
    | with_reducible assumption
    | exact hT (by decide)
    | with_reducible apply Kept.of_tlk
    | simp only [↓Kept.mk_iff]

theorem State.unserve_kept {L : List Blk} {o : State} (s : State) (n : Fin 64) (hT : [.tlk] ⊆ L) (hk : Kept L o s) :
    Kept L o (State.unserve s n) := by
  unfold State.unserve
  repeat' first
    | with_reducible assumption
    | exact hT (by decide)
    | ((try lift_lets); intro x; refine Kept.cut (x := x) ?_ ?_; rotate_left; clear_value x; intro _; rotate_left; unfold x)
    | with_reducible first | apply State.unplace_kept | apply Kept.of_tlk
    | simp only [↓Kept.mk_iff]

theorem State.purgeTray_kept {L : List Blk} {o : State} (s : State) (n : Fin 64) (hT : [.tlk] ⊆ L)
    (hk : Kept L o s) :
    Kept L o (State.purgeTray s n) := by
  unfold State.purgeTray
  repeat' first
    | with_reducible assumption
    | exact hT (by decide)
    | with_reducible apply Kept.of_tlk
    | simp only [↓Kept.mk_iff]

theorem State.throttleOut_kept {L : List Blk} {o : State} (s : State) (n : Fin 64) (cause : Nat) (scope : Nat)
    (hT : [.tlk, .tx] ⊆ L) (hk : Kept L o s) :
    Kept L o (State.throttleOut s n cause scope) := by
  unfold State.throttleOut
  repeat' first
    | with_reducible assumption
    | exact hT (by decide)
    | exact List.Subset.trans (by decide) hT
    | with_reducible first | apply State.sendSet_kept | apply State.updPort_kept | apply Kept.of_tlk
    | simp only [↓Kept.mk_iff]

theorem State.throttleEvery_kept {L : List Blk} {o : State} (s : State) (cause : Nat) (hT : [.tlk, .tx] ⊆ L)
    (hk : Kept L o s) :
    Kept L o (State.throttleEvery s cause) := by
  unfold State.throttleEvery
  repeat' first
    | with_reducible assumption
    | exact hT (by decide)
    | with_reducible apply Kept.foldl
    | refine fun (_ : State) _ => ?_
    | with_reducible first | exact Kept.rfl | apply State.throttleOut_kept | apply Kept.of_tlk
    | simp only [↓Kept.mk_iff]

theorem State.throttleAllPorts_kept {L : List Blk} {o : State} (s : State) (cause : Fin 7)
    (hT : [.tlk, .evr, .tx] ⊆ L) (hk : Kept L o s) :
    Kept L o (State.throttleAllPorts s cause) := by
  unfold State.throttleAllPorts
  repeat' first
    | with_reducible assumption
    | exact hT (by decide)
    | exact List.Subset.trans (by decide) hT
    | with_reducible first | apply State.ev_kept | apply State.throttleEvery_kept | apply Kept.of_tlk
    | simp only [↓Kept.mk_iff]
    | with_reducible apply Kept.ite

theorem State.throttlePort_kept {L : List Blk} {o : State} (s : State) (n : Fin 64) (cause : Nat)
    (hT : [.tlk, .evr, .tx] ⊆ L) (hk : Kept L o s) :
    Kept L o (State.throttlePort s n cause) := by
  unfold State.throttlePort
  repeat' first
    | with_reducible assumption
    | exact hT (by decide)
    | exact List.Subset.trans (by decide) hT
    | ((try lift_lets); intro x; refine Kept.cut (x := x) ?_ ?_; rotate_left; clear_value x; intro _; rotate_left; unfold x)
    | with_reducible first | apply State.ev_kept | apply State.throttleEvery_kept | apply State.throttleOut_kept
    | with_reducible first | apply State.updPort_kept | apply Kept.of_tlk
    | simp only [↓Kept.mk_iff]
    | with_reducible apply Kept.ite

theorem State.shiftEntries_kept {L : List Blk} {o : State} (s : State) (n : Fin 64) (from_ : Nat)
    (hT : [.tlk] ⊆ L) (hk : Kept L o s) :
    Kept L o (State.shiftEntries s n from_) := by
  unfold State.shiftEntries
  repeat' first
    | with_reducible assumption
    | exact hT (by decide)
    | with_reducible apply Kept.of_tlk
    | simp only [↓Kept.mk_iff]

theorem State.releaseOut_kept {L : List Blk} {o : State} (scope : Nat) (s : State) (n : Fin 64)
    (hT : [.tlk, .evr, .tx] ⊆ L) (hk : Kept L o s) :
    Kept L o (State.releaseOut scope s n) := by
  unfold State.releaseOut
  repeat' first
    | with_reducible assumption
    | exact List.Subset.trans (by decide) hT
    | with_reducible first | apply State.ev_kept | apply State.regrant_kept | apply State.sendSet_kept
    | with_reducible first | apply State.shiftEntries_kept | apply State.updPort_kept

theorem State.releasePorts_kept {L : List Blk} {o : State} (s : State) (l : List (Fin 64)) (scope : Nat)
    (hT : [.tlk, .evr, .tx] ⊆ L) (hk : Kept L o s) :
    Kept L o (State.releasePorts s l scope) := by
  unfold State.releasePorts
  repeat' first
    | with_reducible assumption
    | exact hT (by decide)
    | exact List.Subset.trans (by decide) hT
    | with_reducible apply Kept.foldl
    | refine fun (_ : State) _ => ?_
    | with_reducible first | exact Kept.rfl | apply State.placePass_kept | apply State.releaseOut_kept
    | with_reducible apply Kept.of_tlk
    | simp only [↓Kept.mk_iff]

theorem State.settle_kept {L : List Blk} {o : State} (s : State) (hT : [.tlk, .evr, .tx] ⊆ L) (hk : Kept L o s) :
    Kept L o (State.settle s) := by
  unfold State.settle
  repeat' first
    | with_reducible assumption
    | exact hT (by decide)
    | with_reducible first | apply State.releasePorts_kept | apply Kept.of_tlk
    | simp only [↓Kept.mk_iff]
    | with_reducible apply Kept.ite

theorem State.clearCause_kept {L : List Blk} {o : State} (s : State) (cause : Fin 7) (hT : [.tlk, .evr, .tx] ⊆ L)
    (hk : Kept L o s) :
    Kept L o (State.clearCause s cause) := by
  unfold State.clearCause
  repeat' first
    | with_reducible assumption
    | exact hT (by decide)
    | with_reducible first | apply State.settle_kept | apply Kept.of_tlk
    | simp only [↓Kept.mk_iff]
    | with_reducible apply Kept.ite

theorem State.clearPortCause_kept {L : List Blk} {o : State} (s : State) (n : Fin 64) (cause : Nat)
    (hT : [.tlk, .evr, .tx] ⊆ L) (hk : Kept L o s) :
    Kept L o (State.clearPortCause s n cause) := by
  unfold State.clearPortCause
  repeat' first
    | with_reducible assumption
    | exact List.Subset.trans (by decide) hT
    | with_reducible first | apply State.settle_kept | apply State.updPort_kept

theorem State.rackHoldLow_kept {L : List Blk} {o : State} (s : State) (hT : [.sys, .tlk, .evr, .tx] ⊆ L)
    (hk : Kept L o s) :
    Kept L o (State.rackHoldLow s) := by
  unfold State.rackHoldLow
  repeat' first
    | with_reducible assumption
    | exact hT (by decide)
    | exact List.Subset.trans (by decide) hT
    | with_reducible first | apply State.ev_kept | apply State.throttleAllPorts_kept | apply Kept.of_sys
    | simp only [↓Kept.mk_iff]
    | with_reducible apply Kept.ite

theorem State.rackHoldHigh_kept {L : List Blk} {o : State} (s : State) (hT : [.sys, .evr] ⊆ L) (hk : Kept L o s) :
    Kept L o (State.rackHoldHigh s) := by
  unfold State.rackHoldHigh
  repeat' first
    | with_reducible assumption
    | exact hT (by decide)
    | exact List.Subset.trans (by decide) hT
    | with_reducible first | apply State.ev_kept | apply Kept.of_sys
    | simp only [↓Kept.mk_iff]
    | with_reducible apply Kept.ite

theorem State.driveHold_kept {L : List Blk} {o : State} (s : State) (hT : [.sys, .tlk, .evr, .tx] ⊆ L)
    (hk : Kept L o s) :
    Kept L o (State.driveHold s) := by
  unfold State.driveHold
  repeat' first
    | with_reducible assumption
    | exact hT (by decide)
    | with_reducible first | apply State.rackHoldLow_kept | apply Kept.of_sys
    | simp only [↓Kept.mk_iff]

theorem State.syncOverShare_kept {L : List Blk} {o : State} (s : State) (hT : [.tlk] ⊆ L) (hk : Kept L o s) :
    Kept L o (State.syncOverShare s) := by
  unfold State.syncOverShare
  repeat' first
    | with_reducible assumption
    | exact hT (by decide)
    | with_reducible apply Kept.of_tlk
    | simp only [↓Kept.mk_iff]

theorem State.recompute_kept {L : List Blk} {o : State} (s : State) (atShare : Bool) (hT : [.tlk, .evr, .tx] ⊆ L)
    (hk : Kept L o s) :
    Kept L o (State.recompute s atShare) := by
  unfold State.recompute
  repeat' first
    | with_reducible assumption
    | exact hT (by decide)
    | exact List.Subset.trans (by decide) hT
    | with_reducible apply Kept.foldl
    | refine fun (_ : State) _ => ?_
    | with_reducible first | exact Kept.rfl | apply State.ev_kept | apply State.sendGrant_kept
    | with_reducible first | apply State.syncOverShare_kept | apply State.tryPort_kept | apply State.updPort_kept
    | with_reducible apply Kept.of_tlk
    | simp only [↓Kept.mk_iff]
    | with_reducible apply Kept.ite
    | split

theorem State.enterService_kept {L : List Blk} {o : State} (s : State) (n : Fin 64) (hT : [.tlk] ⊆ L)
    (hk : Kept L o s) :
    Kept L o (State.enterService s n) := by
  unfold State.enterService
  repeat' first
    | with_reducible first | assumption | apply State.updPort_kept | apply Kept.ite

theorem State.enterAfresh_kept {L : List Blk} {o : State} (s : State) (n : Fin 64) (hT : [.tlk] ⊆ L)
    (hk : Kept L o s) :
    Kept L o (State.enterAfresh s n) := by
  unfold State.enterAfresh
  repeat' first
    | with_reducible first | assumption | apply State.enterService_kept | apply State.updPort_kept
    | split

theorem State.portsEnterRun_kept {L : List Blk} {o : State} (s : State) (hT : [.tlk, .tx] ⊆ L) (hk : Kept L o s) :
    Kept L o (State.portsEnterRun s) := by
  unfold State.portsEnterRun
  repeat' first
    | with_reducible assumption
    | exact List.Subset.trans (by decide) hT
    | with_reducible apply Kept.foldl
    | refine fun (_ : State) _ => ?_
    | with_reducible first | exact Kept.rfl | apply State.allocResume_kept | apply State.enterService_kept
    | with_reducible apply State.sendGrants_kept

theorem State.dropPlacements_kept {L : List Blk} {o : State} (s : State) (hT : [.tlk] ⊆ L) (hk : Kept L o s) :
    Kept L o (State.dropPlacements s) := by
  unfold State.dropPlacements
  repeat' first
    | with_reducible assumption
    | exact hT (by decide)
    | with_reducible apply Kept.of_tlk
    | simp only [↓Kept.mk_iff]

theorem State.portsEnterSafe_kept {L : List Blk} {o : State} (s : State) (hT : [.tlk, .tx] ⊆ L) (hk : Kept L o s) :
    Kept L o (State.portsEnterSafe s) := by
  unfold State.portsEnterSafe
  repeat' first
    | with_reducible assumption
    | exact List.Subset.trans (by decide) hT
    | with_reducible apply Kept.foldl
    | refine fun (_ : State) _ => ?_
    | with_reducible first | exact Kept.rfl | apply State.dropPlacements_kept | apply State.sendGrants_kept
    | with_reducible apply State.updPort_kept

theorem State.portsLeaveRun_kept {L : List Blk} {o : State} (s : State) (hT : [.tlk, .tx] ⊆ L) (hk : Kept L o s) :
    Kept L o (State.portsLeaveRun s) := by
  unfold State.portsLeaveRun
  repeat' first
    | with_reducible assumption
    | exact List.Subset.trans (by decide) hT
    | with_reducible apply Kept.foldl
    | refine fun (_ : State) _ => ?_
    | with_reducible first | exact Kept.rfl | apply State.dropPlacements_kept | apply State.sendGrants_kept
    | with_reducible apply State.updPort_kept

theorem State.portsActivate_kept {L : List Blk} {o : State} (s : State) (old : State) (hT : [.tlk, .evr, .tx] ⊆ L)
    (hk : Kept L o s) :
    Kept L o (State.portsActivate s old) := by
  unfold State.portsActivate
  repeat' first
    | with_reducible assumption
    | exact hT (by decide)
    | exact List.Subset.trans (by decide) hT
    | ((try lift_lets); intro x; refine Kept.cut (x := x) ?_ ?_; rotate_left; clear_value x; intro _; rotate_left; unfold x)
    | with_reducible apply Kept.foldl
    | refine fun (_ : State) _ => ?_
    | with_reducible first | exact Kept.rfl | apply State.regrant_kept | apply State.settle_kept
    | with_reducible first | apply State.syncOverShare_kept | apply State.unserve_kept | apply State.updPort_kept
    | with_reducible apply Kept.of_tlk
    | simp only [↓Kept.mk_iff]
    | with_reducible apply Kept.ite

theorem State.takeOver_kept {L : List Blk} {o : State} (s : State) (n : Fin 64) (env : Nat)
    (hT : [.tlk, .evr, .tx] ⊆ L) (hk : Kept L o s) :
    Kept L o (State.takeOver s n env) := by
  unfold State.takeOver
  repeat' first
    | with_reducible assumption
    | exact List.Subset.trans (by decide) hT
    | ((try lift_lets); intro x; refine Kept.cut (x := x) ?_ ?_; rotate_left; clear_value x; intro _; rotate_left; unfold x)
    | with_reducible first | apply State.ev_kept | apply State.sendGrant_kept | apply State.syncOverShare_kept
    | with_reducible first | apply State.tryPort_kept | apply State.updPort_kept | apply Kept.ite

theorem State.takeOverLatest_kept {L : List Blk} {o : State} (s : State) (n : Fin 64) (hT : [.tlk, .evr, .tx] ⊆ L)
    (hk : Kept L o s) :
    Kept L o (State.takeOverLatest s n) := by
  unfold State.takeOverLatest
  repeat' first
    | with_reducible first | assumption | apply State.takeOver_kept

theorem State.portsTimeStep_kept {L : List Blk} {o : State} (s : State) (hT : [.tlk, .evr, .tx] ⊆ L)
    (hk : Kept L o s) :
    Kept L o (State.portsTimeStep s) := by
  unfold State.portsTimeStep
  repeat' first
    | with_reducible assumption
    | exact hT (by decide)
    | exact List.Subset.trans (by decide) hT
    | with_reducible apply Kept.foldl
    | refine fun (_ : State) _ => ?_
    | with_reducible first | exact Kept.rfl | apply State.ev_kept | apply State.send_kept
    | with_reducible first | apply State.sendGrants_kept | apply Kept.of_tlk
    | simp only [↓Kept.mk_iff]

end Sys2Proof.Machine
end

