-- ==== Sys2Proof/Laws/KeptPwmOps.lean ====
section
/-! SUPPORT. What the operations of Machine/PwmOps.lean keep. -/

set_option linter.unusedTactic false
set_option linter.unreachableTactic false

namespace Sys2Proof.Machine

theorem State.updPh_kept {L : List Blk} {o : State} (s : State) (p : Fin 64) (f : Phase → Phase) (hT : [.pwm] ⊆ L)
    (hk : Kept L o s) :
    Kept L o (State.updPh s p f) := by
  unfold State.updPh
  repeat' first
    | with_reducible assumption
    | exact hT (by decide)
    | with_reducible apply Kept.of_pwm
    | simp only [↓Kept.mk_iff]

theorem State.updGrp_kept {L : List Blk} {o : State} (s : State) (g : Fin 4) (f : Group → Group) (hT : [.pwm] ⊆ L)
    (hk : Kept L o s) :
    Kept L o (State.updGrp s g f) := by
  unfold State.updGrp
  repeat' first
    | with_reducible assumption
    | exact hT (by decide)
    | with_reducible apply Kept.of_pwm
    | simp only [↓Kept.mk_iff]

theorem State.updPsu_kept {L : List Blk} {o : State} (s : State) (p : Fin 16) (f : PsuPort → PsuPort)
    (hT : [.pwm] ⊆ L) (hk : Kept L o s) :
    Kept L o (State.updPsu s p f) := by
  unfold State.updPsu
  repeat' first
    | with_reducible assumption
    | exact hT (by decide)
    | with_reducible apply Kept.of_pwm
    | simp only [↓Kept.mk_iff]

theorem State.offWindowCheck_kept {L : List Blk} {o : State} (s : State) (g : Fin 4) (t : Nat)
    (hT : [.chn, .evr] ⊆ L) (hk : Kept L o s) :
    Kept L o (State.offWindowCheck s g t) := by
  unfold State.offWindowCheck
  repeat' first
    | with_reducible assumption
    | exact hT (by decide)
    | exact List.Subset.trans (by decide) hT
    | with_reducible apply Kept.foldl
    | refine fun (_ : State) _ => ?_
    | with_reducible first | exact Kept.rfl | apply State.ev_kept | apply Kept.of_chn
    | simp only [↓Kept.mk_iff]
    | with_reducible apply Kept.ite
    | split

theorem State.setGdrv_kept {L : List Blk} {o : State} (s : State) (g : Fin 4) (v : Bool) (hT : [.sys] ⊆ L)
    (hk : Kept L o s) :
    Kept L o (State.setGdrv s g v) := by
  unfold State.setGdrv
  repeat' first
    | with_reducible assumption
    | exact hT (by decide)
    | with_reducible apply Kept.of_sys
    | simp only [↓Kept.mk_iff]

theorem State.gdrvLow_kept {L : List Blk} {o : State} (s : State) (hT : [.sys] ⊆ L) (hk : Kept L o s) :
    Kept L o (State.gdrvLow s) := by
  unfold State.gdrvLow
  repeat' first
    | with_reducible assumption
    | exact hT (by decide)
    | with_reducible apply Kept.of_sys
    | simp only [↓Kept.mk_iff]

theorem State.placeOffsets_kept {L : List Blk} {o : State} (s : State) (g : Fin 4) (hT : [.pwm] ⊆ L)
    (hk : Kept L o s) :
    Kept L o (State.placeOffsets s g) := by
  unfold State.placeOffsets
  repeat' first
    | with_reducible first | assumption | apply Kept.foldl
    | refine fun (_ : State) _ => ?_
    | with_reducible first | exact Kept.rfl | apply State.updPh_kept

theorem State.reinterleave_kept {L : List Blk} {o : State} (s : State) (g : Fin 4) (hT : [.pwm] ⊆ L)
    (hk : Kept L o s) :
    Kept L o (State.reinterleave s g) := by
  unfold State.reinterleave
  repeat' first
    | with_reducible first | assumption | apply Kept.foldl
    | refine fun (_ : State) _ => ?_
    | with_reducible first | exact Kept.rfl | apply State.updGrp_kept | apply State.updPh_kept

theorem State.reStep_kept {L : List Blk} {o : State} (s : State) (g : Fin 4) (hT : [.pwm] ⊆ L) (hk : Kept L o s) :
    Kept L o (State.reStep s g) := by
  unfold State.reStep
  repeat' first
    | with_reducible first | assumption | apply Kept.foldl
    | refine fun (_ : State) _ => ?_
    | with_reducible first | exact Kept.rfl | apply State.updGrp_kept | apply State.updPh_kept

theorem State.haltPh_kept {L : List Blk} {o : State} (s : State) (p : Fin 64) (hT : [.pwm] ⊆ L) (hk : Kept L o s) :
    Kept L o (State.haltPh s p) := by
  unfold State.haltPh
  repeat' first
    | with_reducible first | assumption | apply State.updPh_kept

theorem State.dropDe_kept {L : List Blk} {o : State} (s : State) (g : Fin 4) (hT : [.pwm, .evr] ⊆ L)
    (hk : Kept L o s) :
    Kept L o (State.dropDe s g) := by
  unfold State.dropDe
  repeat' first
    | with_reducible assumption
    | exact List.Subset.trans (by decide) hT
    | with_reducible first | apply State.ev_kept | apply State.updGrp_kept | apply Kept.ite

theorem State.groupOff_kept {L : List Blk} {o : State} (s : State) (g : Fin 4) (hT : [.sys, .pwm, .evr] ⊆ L)
    (hk : Kept L o s) :
    Kept L o (State.groupOff s g) := by
  unfold State.groupOff
  repeat' first
    | with_reducible assumption
    | exact List.Subset.trans (by decide) hT
    | with_reducible apply Kept.foldl
    | refine fun (_ : State) _ => ?_
    | with_reducible first | exact Kept.rfl | apply State.dropDe_kept | apply State.ev_kept
    | with_reducible first | apply State.haltPh_kept | apply State.setGdrv_kept | apply State.updGrp_kept
    | with_reducible apply Kept.ite

theorem State.stopCycle_kept {L : List Blk} {o : State} (s : State) (p : Fin 64) (hT : [.pwm] ⊆ L)
    (hk : Kept L o s) :
    Kept L o (State.stopCycle s p) := by
  unfold State.stopCycle
  repeat' first
    | with_reducible first | assumption | apply State.updPh_kept

theorem State.startGroup_kept {L : List Blk} {o : State} (s : State) (g : Fin 4) (hT : [.sys, .pwm, .evr] ⊆ L)
    (hk : Kept L o s) :
    Kept L o (State.startGroup s g) := by
  unfold State.startGroup
  repeat' first
    | with_reducible assumption
    | exact List.Subset.trans (by decide) hT
    | ((try lift_lets); intro x; refine Kept.cut (x := x) ?_ ?_; rotate_left; clear_value x; intro _; rotate_left; unfold x)
    | with_reducible apply Kept.foldl
    | refine fun (_ : State) _ => ?_
    | with_reducible first | exact Kept.rfl | apply State.ev_kept | apply State.placeOffsets_kept
    | with_reducible first | apply State.setGdrv_kept | apply State.stopCycle_kept | apply State.updGrp_kept

theorem State.profileAtBus_kept {L : List Blk} {o : State} (s : State) (hT : [.pwm] ⊆ L) (hk : Kept L o s) :
    Kept L o (State.profileAtBus s) := by
  unfold State.profileAtBus
  repeat' first
    | with_reducible assumption
    | exact hT (by decide)
    | with_reducible apply Kept.of_pwm
    | simp only [↓Kept.mk_iff]

theorem State.fastEnd_kept {L : List Blk} {o : State} (s : State) (g : Fin 4) (hT : [.pwm, .evr] ⊆ L)
    (hk : Kept L o s) :
    Kept L o (State.fastEnd s g) := by
  unfold State.fastEnd
  repeat' first
    | with_reducible assumption
    | exact List.Subset.trans (by decide) hT
    | with_reducible first | apply State.ev_kept | apply State.reinterleave_kept | apply State.updGrp_kept
    | with_reducible apply Kept.ite

theorem State.stopGroup_kept {L : List Blk} {o : State} (s : State) (g : Fin 4) (hT : [.pwm, .evr] ⊆ L)
    (hk : Kept L o s) :
    Kept L o (State.stopGroup s g) := by
  unfold State.stopGroup
  repeat' first
    | with_reducible assumption
    | exact List.Subset.trans (by decide) hT
    | ((try lift_lets); intro x; refine Kept.cut (x := x) ?_ ?_; rotate_left; clear_value x; intro _; rotate_left; unfold x)
    | with_reducible first | apply State.fastEnd_kept | apply State.updGrp_kept | apply Kept.ite

theorem State.stopGroups_kept {L : List Blk} {o : State} (s : State) (hT : [.pwm, .evr] ⊆ L) (hk : Kept L o s) :
    Kept L o (State.stopGroups s) := by
  unfold State.stopGroups
  repeat' first
    | with_reducible first | assumption | apply Kept.foldl
    | refine fun (_ : State) _ => ?_
    | with_reducible first | exact Kept.rfl | apply State.stopGroup_kept

theorem State.groupsOff_kept {L : List Blk} {o : State} (s : State) (hT : [.sys, .pwm, .evr] ⊆ L)
    (hk : Kept L o s) :
    Kept L o (State.groupsOff s) := by
  unfold State.groupsOff
  repeat' first
    | with_reducible assumption
    | exact List.Subset.trans (by decide) hT
    | with_reducible apply Kept.foldl
    | refine fun (_ : State) _ => ?_
    | with_reducible first | exact Kept.rfl | apply State.gdrvLow_kept | apply State.groupOff_kept

theorem State.disableNow_kept {L : List Blk} {o : State} (s : State) (p : Fin 64) (cause : PhCause)
    (hT : [.sys, .pwm, .chn, .evr] ⊆ L) (hk : Kept L o s) :
    Kept L o (State.disableNow s p cause) := by
  unfold State.disableNow
  repeat' first
    | with_reducible assumption
    | exact List.Subset.trans (by decide) hT
    | with_reducible first | apply State.degrade_kept | apply State.ev_kept | apply State.groupOff_kept
    | with_reducible first | apply State.haltPh_kept | apply State.offWindowCheck_kept
    | with_reducible first | apply State.reinterleave_kept | apply State.updGrp_kept | apply State.updPh_kept
    | simp only [↓Kept.mk_iff]
    | with_reducible apply Kept.ite
    | split

theorem State.requestDisable_kept {L : List Blk} {o : State} (s : State) (p : Fin 64) (cause : PhCause)
    (hT : [.sys, .pwm, .chn, .evr] ⊆ L) (hk : Kept L o s) :
    Kept L o (State.requestDisable s p cause) := by
  unfold State.requestDisable
  repeat' first
    | with_reducible assumption
    | exact List.Subset.trans (by decide) hT
    | with_reducible first | apply State.disableNow_kept | apply State.updPh_kept | apply Kept.ite
    | split

theorem State.phasesActivate_kept {L : List Blk} {o : State} (s : State) (hT : [.pwm] ⊆ L) (hk : Kept L o s) :
    Kept L o (State.phasesActivate s) := by
  unfold State.phasesActivate
  repeat' first
    | with_reducible first | assumption | apply Kept.foldl
    | refine fun (_ : State) _ => ?_
    | with_reducible first | exact Kept.rfl | apply State.updPh_kept
    | simp only [↓Kept.mk_iff]
    | with_reducible apply Kept.ite

theorem State.giveBasalt_kept {L : List Blk} {o : State} (s : State) (g : Fin 4)
    (hT : [.sys, .pwm, .prot, .evr] ⊆ L) (hk : Kept L o s) :
    Kept L o (State.giveBasalt s g) := by
  unfold State.giveBasalt
  repeat' first
    | with_reducible assumption
    | exact hT (by decide)
    | exact List.Subset.trans (by decide) hT
    | with_reducible apply Kept.foldl
    | refine fun (_ : State) _ => ?_
    | with_reducible first | exact Kept.rfl | apply State.dropDe_kept | apply State.fastEnd_kept
    | with_reducible first | apply State.setGdrv_kept | apply State.stopCycle_kept | apply State.updGrp_kept
    | with_reducible apply Kept.of_prot
    | simp only [↓Kept.mk_iff]
    | with_reducible apply Kept.ite

theorem State.readmit_kept {L : List Blk} {o : State} (s : State) (p : Fin 64)
    (hT : [.sys, .loop, .pwm, .prot, .evr] ⊆ L) (hk : Kept L o s) :
    Kept L o (State.readmit s p) := by
  unfold State.readmit
  repeat' first
    | with_reducible assumption
    | exact hT (by decide)
    | exact List.Subset.trans (by decide) hT
    | ((try lift_lets); intro x; refine Kept.cut (x := x) ?_ ?_; rotate_left; clear_value x; intro _; rotate_left; unfold x)
    | with_reducible first | apply State.ev_kept | apply State.giveBasalt_kept | apply State.reinterleave_kept
    | with_reducible first | apply State.startGroup_kept | apply State.updPh_kept | apply Kept.of_loop
    | simp only [↓Kept.mk_iff]
    | with_reducible apply Kept.ite
    | split

theorem State.requestThrottle_kept {L : List Blk} {o : State} (s : State) (g : Fin 4) (uv : Bool)
    (hT : [.pwm, .tlk, .evr, .tx] ⊆ L) (hk : Kept L o s) :
    Kept L o (State.requestThrottle s g uv) := by
  unfold State.requestThrottle
  repeat' first
    | with_reducible assumption
    | exact List.Subset.trans (by decide) hT
    | with_reducible first | apply State.ev_kept | apply State.throttleAllPorts_kept | apply State.updGrp_kept

theorem State.firstSwitch_kept {L : List Blk} {o : State} (s : State) (p : Fin 64) (upto : Nat) (l : List
    (Nat × Int)) (hT : [.pwm] ⊆ L) (hk : Kept L o s) :
    Kept L o (State.firstSwitch s p upto l) := by
  unfold State.firstSwitch
  repeat' first
    | with_reducible first | assumption | apply State.updPh_kept
    | simp only [↓Kept.mk_iff]
    | with_reducible apply Kept.ite
    | split

theorem State.secondSwitch_kept {L : List Blk} {o : State} (s : State) (p : Fin 64) (upto : Nat) (l : List
    (Nat × Int)) (hT : [.pwm] ⊆ L) (hk : Kept L o s) :
    Kept L o (State.secondSwitch s p upto l) := by
  unfold State.secondSwitch
  repeat' first
    | with_reducible first | assumption | apply State.updPh_kept
    | simp only [↓Kept.mk_iff]
    | with_reducible apply Kept.ite
    | split

theorem State.cycleStart_kept {L : List Blk} {o : State} (s : State) (p : Fin 64) (held : Bool) (fast : Bool)
    (dead : Nat) (on_ : Nat) (hT : [.pwm] ⊆ L) (hk : Kept L o s) :
    Kept L o (State.cycleStart s p held fast dead on_) := by
  unfold State.cycleStart
  repeat' first
    | with_reducible first | assumption | apply State.updPh_kept

theorem State.cyclesTo_kept {L : List Blk} {o : State} (s : State) (p : Fin 64) (held : Bool) (fast : Nat → Bool)
    (dead : Nat) (upto : Nat) (l : List (Nat × Int)) (hT : [.pwm] ⊆ L) (hk : Kept L o s) :
    Kept L o (State.cyclesTo s p held fast dead upto l) := by
  unfold State.cyclesTo
  repeat' first
    | with_reducible first | assumption | apply Kept.foldl
    | refine fun (_ : State) _ => ?_
    | with_reducible first | exact Kept.rfl | apply State.cycleStart_kept | apply State.firstSwitch_kept
    | with_reducible first | apply State.secondSwitch_kept | apply State.updPh_kept

theorem State.replay_kept {L : List Blk} {o : State} (s : State) (l : List (Nat × Int)) (p : Fin 64)
    (r : CycleRun) (hT : [.pwm] ⊆ L) (hk : Kept L o s) :
    Kept L o (State.replay s l p r) := by
  unfold State.replay
  repeat' first
    | with_reducible first | assumption | apply State.cyclesTo_kept | apply State.updPh_kept

theorem State.noteSwitch_kept {L : List Blk} {o : State} (s : State) (p : Fin 64) (on : Bool) (from_ : Nat)
    (hT : [.pwm] ⊆ L) (hk : Kept L o s) :
    Kept L o (State.noteSwitch s p on from_) := by
  unfold State.noteSwitch
  repeat' first
    | with_reducible first | assumption | apply State.updPh_kept
    | simp only [↓Kept.mk_iff]
    | with_reducible apply Kept.ite

theorem State.phaseTo_kept {L : List Blk} {o : State} (s : State) (p : Fin 64) (upto : Nat) (l : List (Nat × Int))
    (hT : [.pwm] ⊆ L) (hk : Kept L o s) :
    Kept L o (State.phaseTo s p upto l) := by
  unfold State.phaseTo
  repeat' first
    | with_reducible assumption
    | ((try lift_lets); intro x; refine Kept.cut (x := x) ?_ ?_; rotate_left; clear_value x; intro _; rotate_left; unfold x)
    | with_reducible apply Kept.foldl
    | refine fun (_ : State) _ => ?_
    | with_reducible first | exact Kept.rfl | apply State.cyclesTo_kept | apply State.replay_kept
    | with_reducible apply State.updPh_kept

theorem State.scheduleFrame_kept {L : List Blk} {o : State} (s : State) (g : Fin 4) (start : Nat)
    (hT : [.pwm] ⊆ L) (hk : Kept L o s) :
    Kept L o (State.scheduleFrame s g start) := by
  unfold State.scheduleFrame
  repeat' first
    | with_reducible first | assumption | apply Kept.foldl
    | refine fun (_ : State) _ => ?_
    | with_reducible first | exact Kept.rfl | apply State.updGrp_kept | apply State.updPh_kept

theorem State.psuCommands_kept {L : List Blk} {o : State} (s : State) (hT : [.pwm] ⊆ L) (hk : Kept L o s) :
    Kept L o (State.psuCommands s) := by
  unfold State.psuCommands
  repeat' first
    | with_reducible first | assumption | apply Kept.foldl
    | refine fun (_ : State) _ => ?_
    | with_reducible first | exact Kept.rfl | apply State.updPsu_kept | apply Kept.ite

theorem State.losePort_kept {L : List Blk} {o : State} (s : State) (p : Fin 16) (hT : [.sys, .pwm, .evr] ⊆ L)
    (hk : Kept L o s) :
    Kept L o (State.losePort s p) := by
  unfold State.losePort
  repeat' first
    | with_reducible assumption
    | exact hT (by decide)
    | exact List.Subset.trans (by decide) hT
    | with_reducible first | apply State.degrade_kept | apply State.ev_kept | apply State.updPsu_kept
    | with_reducible apply Kept.of_pwm
    | simp only [↓Kept.mk_iff]
    | with_reducible apply Kept.ite

theorem State.restorePort_kept {L : List Blk} {o : State} (s : State) (p : Fin 16) (hT : [.pwm, .evr] ⊆ L)
    (hk : Kept L o s) :
    Kept L o (State.restorePort s p) := by
  unfold State.restorePort
  repeat' first
    | with_reducible assumption
    | exact List.Subset.trans (by decide) hT
    | with_reducible first | apply State.ev_kept | apply State.updPsu_kept | apply Kept.ite

theorem State.psusActivate_kept {L : List Blk} {o : State} (s : State) (hT : [.pwm] ⊆ L) (hk : Kept L o s) :
    Kept L o (State.psusActivate s) := by
  unfold State.psusActivate
  repeat' first
    | with_reducible first | assumption | apply Kept.foldl
    | refine fun (_ : State) _ => ?_
    | with_reducible first | exact Kept.rfl | apply State.updPsu_kept
    | split

theorem State.psuMiss_kept {L : List Blk} {o : State} (s : State) (p : Fin 16) (hT : [.sys, .pwm, .evr] ⊆ L)
    (hk : Kept L o s) :
    Kept L o (State.psuMiss s p) := by
  unfold State.psuMiss
  repeat' first
    | with_reducible assumption
    | exact List.Subset.trans (by decide) hT
    | ((try lift_lets); intro x; refine Kept.cut (x := x) ?_ ?_; rotate_left; clear_value x; intro _; rotate_left; unfold x)
    | with_reducible first | apply State.losePort_kept | apply State.updPsu_kept | apply Kept.ite

end Sys2Proof.Machine
end

