-- ==== Sys2Proof/Laws/KeptAfeOps.lean ====
section
/-! SUPPORT. What the operations of Machine/AfeOps.lean keep. -/

set_option linter.unusedTactic false
set_option linter.unreachableTactic false

namespace Sys2Proof.Machine

theorem State.updCh_kept {L : List Blk} {o : State} (s : State) (c : Nat) (f : Channel → Channel)
    (hT : [.afe] ⊆ L) (hk : Kept L o s) :
    Kept L o (State.updCh s c f) := by
  unfold State.updCh
  repeat' first
    | with_reducible assumption
    | exact hT (by decide)
    | with_reducible apply Kept.of_afe
    | simp only [↓Kept.mk_iff]

theorem State.updChip_kept {L : List Blk} {o : State} (s : State) (a : Nat) (f : Chiplet → Chiplet)
    (hT : [.afe] ⊆ L) (hk : Kept L o s) :
    Kept L o (State.updChip s a f) := by
  unfold State.updChip
  repeat' first
    | with_reducible assumption
    | exact hT (by decide)
    | with_reducible apply Kept.of_afe
    | simp only [↓Kept.mk_iff]

theorem State.updShunt_kept {L : List Blk} {o : State} (s : State) (i : Fin 4) (f : Shunt → Shunt)
    (hT : [.afe] ⊆ L) (hk : Kept L o s) :
    Kept L o (State.updShunt s i f) := by
  unfold State.updShunt
  repeat' first
    | with_reducible assumption
    | exact hT (by decide)
    | with_reducible apply Kept.of_afe
    | simp only [↓Kept.mk_iff]

theorem State.judgeOpen_kept {L : List Blk} {o : State} (s : State) (convs : List Conv) (p : Fin 64)
    (hT : [.pwm] ⊆ L) (hk : Kept L o s) :
    Kept L o (State.judgeOpen s convs p) := by
  unfold State.judgeOpen
  repeat' first
    | with_reducible first | assumption | apply State.updPh_kept
    | simp only [↓Kept.mk_iff]
    | with_reducible apply Kept.ite
    | split

theorem State.latchChannel_kept {L : List Blk} {o : State} (s : State) (convs : List Conv) (c : Nat)
    (hT : [.afe, .pwm, .evr] ⊆ L) (hk : Kept L o s) :
    Kept L o (State.latchChannel s convs c) := by
  unfold State.latchChannel
  repeat' first
    | with_reducible assumption
    | exact List.Subset.trans (by decide) hT
    | with_reducible first | apply State.ev_kept | apply State.judgeOpen_kept | apply State.updCh_kept
    | simp only [↓Kept.mk_iff]
    | with_reducible apply Kept.ite
    | split

theorem State.shuntAdd_kept {L : List Blk} {o : State} (s : State) (i : Fin 4) (v : Int) (hT : [.afe] ⊆ L)
    (hk : Kept L o s) :
    Kept L o (State.shuntAdd s i v) := by
  unfold State.shuntAdd
  repeat' first
    | with_reducible first | assumption | apply State.updShunt_kept

theorem State.latchShunt_kept {L : List Blk} {o : State} (s : State) (i : Fin 4) (hT : [.afe] ⊆ L)
    (hk : Kept L o s) :
    Kept L o (State.latchShunt s i) := by
  unfold State.latchShunt
  repeat' first
    | with_reducible first | assumption | apply State.shuntAdd_kept | apply State.updShunt_kept | apply Kept.ite

theorem State.afeLatch_kept {L : List Blk} {o : State} (s : State) (convs : List Conv)
    (hT : [.afe, .pwm, .evr] ⊆ L) (hk : Kept L o s) :
    Kept L o (State.afeLatch s convs) := by
  unfold State.afeLatch
  repeat' first
    | with_reducible assumption
    | exact hT (by decide)
    | exact List.Subset.trans (by decide) hT
    | ((try lift_lets); intro x; refine Kept.cut (x := x) ?_ ?_; rotate_left; clear_value x; intro _; rotate_left; unfold x)
    | with_reducible apply Kept.foldl
    | refine fun (_ : State) _ => ?_
    | with_reducible first | exact Kept.rfl | apply State.latchChannel_kept | apply State.latchShunt_kept
    | with_reducible apply Kept.of_afe
    | simp only [↓Kept.mk_iff]

theorem State.mapFail_kept {L : List Blk} {o : State} (s : State) (c : Nat) (hT : [.afe] ⊆ L) (hk : Kept L o s) :
    Kept L o (State.mapFail s c) := by
  unfold State.mapFail
  repeat' first
    | with_reducible assumption
    | exact hT (by decide)
    | with_reducible apply Kept.of_afe
    | simp only [↓Kept.mk_iff]

theorem State.channelDead_kept {L : List Blk} {o : State} (s : State) (c : Nat)
    (hT : [.sys, .afe, .pwm, .chn, .evr] ⊆ L) (hk : Kept L o s) :
    Kept L o (State.channelDead s c) := by
  unfold State.channelDead
  repeat' first
    | with_reducible assumption
    | exact List.Subset.trans (by decide) hT
    | ((try lift_lets); intro x; refine Kept.cut (x := x) ?_ ?_; rotate_left; clear_value x; intro _; rotate_left; unfold x)
    | with_reducible first | apply State.degrade_kept | apply State.ev_kept | apply State.requestDisable_kept
    | with_reducible apply State.updCh_kept
    | split

theorem State.channelFail_kept {L : List Blk} {o : State} (s : State) (c : Nat) (cause : Nat)
    (hT : [.sys, .cfg, .afe, .pwm, .chn, .evr] ⊆ L) (hk : Kept L o s) :
    Kept L o (State.channelFail s c cause) := by
  unfold State.channelFail
  repeat' first
    | with_reducible assumption
    | exact List.Subset.trans (by decide) hT
    | with_reducible first | apply State.channelDead_kept | apply State.degrade_kept | apply State.displace_kept
    | with_reducible first | apply State.ev_kept | apply State.mapFail_kept | apply State.updCh_kept
    | with_reducible apply State.updChip_kept
    | simp only [↓Kept.mk_iff]
    | with_reducible apply Kept.ite
    | split

theorem State.bootMapped_kept {L : List Blk} {o : State} (s : State) (c : Nat)
    (hT : [.sys, .afe, .pwm, .chn, .evr] ⊆ L) (hk : Kept L o s) :
    Kept L o (State.bootMapped s c) := by
  unfold State.bootMapped
  repeat' first
    | with_reducible assumption
    | exact List.Subset.trans (by decide) hT
    | with_reducible first | apply State.channelDead_kept | apply State.degrade_kept | apply State.ev_kept
    | with_reducible first | apply State.updCh_kept | apply State.updChip_kept
    | simp only [↓Kept.mk_iff]
    | with_reducible apply Kept.ite

theorem State.spareFail_kept {L : List Blk} {o : State} (s : State) (a : Nat)
    (hT : [.sys, .afe, .pwm, .chn, .evr] ⊆ L) (hk : Kept L o s) :
    Kept L o (State.spareFail s a) := by
  unfold State.spareFail
  repeat' first
    | with_reducible assumption
    | exact List.Subset.trans (by decide) hT
    | with_reducible first | apply State.channelDead_kept | apply State.ev_kept | apply State.updChip_kept
    | simp only [↓Kept.mk_iff]
    | with_reducible apply Kept.ite
    | split

theorem State.overlapCheck_kept {L : List Blk} {o : State} (s : State) (a : Nat) (m : OverlapMeans)
    (hT : [.sys, .cfg, .afe, .pwm, .chn, .evr] ⊆ L) (hk : Kept L o s) :
    Kept L o (State.overlapCheck s a m) := by
  unfold State.overlapCheck
  repeat' first
    | with_reducible assumption
    | exact List.Subset.trans (by decide) hT
    | ((try lift_lets); intro x; refine Kept.cut (x := x) ?_ ?_; rotate_left; clear_value x; intro _; rotate_left; unfold x)
    | with_reducible first | apply State.channelFail_kept | apply State.ev_kept | apply State.spareFail_kept
    | with_reducible apply Kept.ite

theorem State.rotationShip_kept {L : List Blk} {o : State} (s : State) (hT : [.afe] ⊆ L) (hk : Kept L o s) :
    Kept L o (State.rotationShip s) := by
  unfold State.rotationShip
  repeat' first
    | with_reducible assumption
    | exact hT (by decide)
    | with_reducible apply Kept.of_afe
    | simp only [↓Kept.mk_iff]

theorem State.takeSpare_kept {L : List Blk} {o : State} (s : State) (a : Nat) (hT : [.afe, .evr] ⊆ L)
    (hk : Kept L o s) :
    Kept L o (State.takeSpare s a) := by
  unfold State.takeSpare
  repeat' first
    | with_reducible assumption
    | exact List.Subset.trans (by decide) hT
    | with_reducible first | apply State.ev_kept | apply State.updChip_kept
    | split

theorem State.senseOpened_kept {L : List Blk} {o : State} (s : State) (p : Fin 64)
    (hT : [.sys, .afe, .pwm, .chn, .evr] ⊆ L) (hk : Kept L o s) :
    Kept L o (State.senseOpened s p) := by
  unfold State.senseOpened
  repeat' first
    | with_reducible assumption
    | exact hT (by decide)
    | exact List.Subset.trans (by decide) hT
    | with_reducible first | apply State.ev_kept | apply State.requestDisable_kept | apply Kept.of_afe
    | simp only [↓Kept.mk_iff]
    | with_reducible apply Kept.ite

end Sys2Proof.Machine
end

