-- ==== Sys2Proof/Laws/KeptAfe.lean ====
section
/-! SUPPORT. What the operations of Machine/Afe.lean keep. -/

set_option linter.unusedTactic false
set_option linter.unreachableTactic false

namespace Sys2Proof.Machine

theorem State.bootChannel_kept {L : List Blk} {o : State} (s : State) (cal : BootCal) (c : Nat)
    (hT : [.sys, .cfg, .afe, .pwm, .chn, .evr] ⊆ L) (hk : Kept L o s) :
    Kept L o (State.bootChannel s cal c) := by
  unfold State.bootChannel
  repeat' first
    | with_reducible assumption
    | exact List.Subset.trans (by decide) hT
    | with_reducible first | apply State.channelFail_kept | apply State.takeSpare_kept | apply State.updCh_kept
    | with_reducible apply State.updChip_kept
    | simp only [↓Kept.mk_iff]
    | with_reducible apply Kept.ite
    | split

theorem State.bootShunt_kept {L : List Blk} {o : State} (s : State) (cal : BootCal) (i : Fin 4)
    (hT : [.sys, .afe, .evr] ⊆ L) (hk : Kept L o s) :
    Kept L o (State.bootShunt s cal i) := by
  unfold State.bootShunt
  repeat' first
    | with_reducible assumption
    | exact List.Subset.trans (by decide) hT
    | with_reducible apply Kept.foldl
    | refine fun (_ : State) _ => ?_
    | with_reducible first | exact Kept.rfl | apply State.degrade_kept | apply State.ev_kept
    | with_reducible first | apply State.shuntAdd_kept | apply State.updShunt_kept
    | simp only [↓Kept.mk_iff]
    | with_reducible apply Kept.ite

theorem State.bootSense_kept {L : List Blk} {o : State} (s : State) (x : Fin 64 × Nat × Nat)
    (hT : [.sys, .afe, .pwm, .chn, .evr] ⊆ L) (hk : Kept L o s) :
    Kept L o (State.bootSense s x) := by
  unfold State.bootSense
  repeat' first
    | with_reducible first | assumption | apply State.senseOpened_kept | apply Kept.ite

theorem execBootCalDone_kept {L : List Blk} {o : State} (cal : BootCal) (s : State)
    (hT : [.sys, .sec, .cfg, .afe, .loop, .pwm, .chn, .prot, .evr] ⊆ L) (hk : Kept L o s) :
    Keeps L o (execBootCalDone cal s) := by
  unfold execBootCalDone
  repeat' first
    | with_reducible assumption
    | exact hT (by decide)
    | exact List.Subset.trans (by decide) hT
    | with_reducible apply Kept.foldl
    | refine fun (_ : State) _ => ?_
    | with_reducible first | apply Keeps.next | exact Kept.rfl | apply State.bootChannel_kept
    | with_reducible first | apply State.bootMapped_kept | apply State.bootSense_kept | apply State.bootShunt_kept
    | with_reducible first | apply State.ev_kept | apply State.updChip_kept | apply Kept.of_afe
    | simp only [↓Kept.mk_iff]
    | with_reducible apply Keeps.ite
    | split

theorem execSelfCheck_kept {L : List Blk} {o : State} (a : Fin 4) (ok : Bool) (s : State)
    (hT : [.sys, .sec, .cfg, .afe, .loop, .pwm, .tlk, .chn, .prot, .evr, .tx] ⊆ L) (hk : Kept L o s) :
    Keeps L o (execSelfCheck a ok s) := by
  unfold execSelfCheck
  repeat' first
    | with_reducible assumption
    | exact List.Subset.trans (by decide) hT
    | with_reducible first | apply Keeps.next | apply State.spareFail_kept | apply State.updChip_kept
    | simp only [↓Kept.mk_iff]
    | with_reducible first | apply Kept.ite | apply Keeps.ite

theorem execOverlapIn_kept {L : List Blk} {o : State} (a : Fin 4) (m : OverlapMeans) (s : State)
    (hT : [.sys, .cfg, .afe, .pwm, .chn, .evr] ⊆ L) (hk : Kept L o s) :
    Keeps L o (execOverlapIn a m s) := by
  unfold execOverlapIn
  repeat' first
    | with_reducible assumption
    | exact List.Subset.trans (by decide) hT
    | with_reducible first | apply Keeps.next | apply State.overlapCheck_kept | apply State.updChip_kept
    | with_reducible apply Keeps.ite

theorem execCalibrating_kept {L : List Blk} {o : State} (a : Fin 4) (r : CalResult) (s : State)
    (hT : [.sys, .cfg, .afe, .pwm, .chn, .evr] ⊆ L) (hk : Kept L o s) :
    Keeps L o (execCalibrating a r s) := by
  unfold execCalibrating
  repeat' first
    | with_reducible assumption
    | exact List.Subset.trans (by decide) hT
    | with_reducible first | apply Keeps.next | apply State.channelFail_kept | apply State.updCh_kept
    | with_reducible apply State.updChip_kept
    | simp only [↓Kept.mk_iff]
    | with_reducible apply Keeps.ite
    | split

theorem execOverlapOut_kept {L : List Blk} {o : State} (a : Fin 4) (m : OverlapMeans) (s : State)
    (hT : [.sys, .cfg, .afe, .pwm, .chn, .evr] ⊆ L) (hk : Kept L o s) :
    Keeps L o (execOverlapOut a m s) := by
  unfold execOverlapOut
  repeat' first
    | with_reducible assumption
    | exact List.Subset.trans (by decide) hT
    | with_reducible first | apply Keeps.next | apply State.overlapCheck_kept | apply State.updChip_kept
    | with_reducible apply Keeps.ite

theorem execSettle_kept {L : List Blk} {o : State} (a : Fin 4) (s : State) (hT : [.afe, .tlk, .evr, .tx] ⊆ L)
    (hk : Kept L o s) :
    Keeps L o (execSettle a s) := by
  unfold execSettle
  repeat' first
    | with_reducible assumption
    | exact List.Subset.trans (by decide) hT
    | with_reducible first | apply Keeps.next | apply State.updCh_kept | apply State.updChip_kept
    | simp only [↓Kept.mk_iff]
    | with_reducible apply Keeps.ite

theorem execChannelFailed_kept {L : List Blk} {o : State} (c : Fin 160) (cause : Fin 5) (s : State)
    (hT : [.sys, .cfg, .afe, .pwm, .chn, .evr] ⊆ L) (hk : Kept L o s) :
    Keeps L o (execChannelFailed c cause s) := by
  unfold execChannelFailed
  repeat' first
    | with_reducible first | assumption | apply Keeps.next | apply State.channelFail_kept

theorem execSpareSubstituted_kept {L : List Blk} {o : State} (a : Fin 4) (s : State) (hT : [.afe, .evr] ⊆ L)
    (hk : Kept L o s) :
    Keeps L o (execSpareSubstituted a s) := by
  unfold execSpareSubstituted
  repeat' first
    | with_reducible first | assumption | apply Keeps.next | apply State.takeSpare_kept

theorem execSpareFailed_kept {L : List Blk} {o : State} (a : Fin 4) (s : State)
    (hT : [.sys, .afe, .pwm, .chn, .evr] ⊆ L) (hk : Kept L o s) :
    Keeps L o (execSpareFailed a s) := by
  unfold execSpareFailed
  repeat' first
    | with_reducible first | assumption | apply Keeps.next | apply State.spareFail_kept

theorem execRotEn_kept {L : List Blk} {o : State} (sess : Fin 64) (v : BitVec 4) (s : State)
    (hT : [.sys, .afe] ⊆ L) (hk : Kept L o s) :
    Keeps L o (execRotEn sess v s) := by
  unfold execRotEn
  repeat' first
    | with_reducible assumption
    | exact hT (by decide)
    | exact List.Subset.trans (by decide) hT
    | refine fun (_ : State) => ?_
    | with_reducible first | apply Keeps.next | exact Kept.rfl | apply State.regCmd_kept | apply Kept.of_afe
    | simp only [↓Kept.mk_iff]

theorem State.clearFailMap_kept {L : List Blk} {o : State} (s : State) (hT : [.afe, .evr] ⊆ L) (hk : Kept L o s) :
    Kept L o (State.clearFailMap s) := by
  unfold State.clearFailMap
  repeat' first
    | with_reducible assumption
    | exact hT (by decide)
    | exact List.Subset.trans (by decide) hT
    | with_reducible first | apply State.ev_kept | apply Kept.of_afe
    | simp only [↓Kept.mk_iff]

theorem execFailmapClr_kept {L : List Blk} {o : State} (sess : Fin 64) (s : State) (hT : [.sys, .afe, .evr] ⊆ L)
    (hk : Kept L o s) :
    Keeps L o (execFailmapClr sess s) := by
  unfold execFailmapClr
  repeat' first
    | with_reducible assumption
    | exact List.Subset.trans (by decide) hT
    | refine fun (_ : State) => ?_
    | with_reducible first | apply Keeps.next | exact Kept.rfl | apply State.clearFailMap_kept
    | with_reducible apply State.regCmd_kept

theorem execShuntModCalibrate_kept {L : List Blk} {o : State} (i : Fin 4) (ofs : Int) (gain : Nat) (s : State)
    (hT : [.afe] ⊆ L) (hk : Kept L o s) :
    Keeps L o (execShuntModCalibrate i ofs gain s) := by
  unfold execShuntModCalibrate
  repeat' first
    | with_reducible first | assumption | apply Keeps.next | apply State.updShunt_kept
    | simp only [↓Kept.mk_iff]
    | with_reducible apply Keeps.ite

theorem execShuntModCompare_kept {L : List Blk} {o : State} (i : Fin 4) (qActive : Int) (qIdle : Int) (okA : Bool)
    (okB : Bool) (s : State) (hT : [.sys, .afe, .evr] ⊆ L) (hk : Kept L o s) :
    Keeps L o (execShuntModCompare i qActive qIdle okA okB s) := by
  unfold execShuntModCompare
  repeat' first
    | with_reducible assumption
    | exact List.Subset.trans (by decide) hT
    | with_reducible first | apply Keeps.next | apply State.degrade_kept | apply State.ev_kept
    | with_reducible apply State.updShunt_kept
    | simp only [↓Kept.mk_iff]
    | with_reducible apply Keeps.ite
    | split

theorem execSenseOpen_kept {L : List Blk} {o : State} (p : Fin 64) (mv : Nat) (periods : Nat) (s : State)
    (hT : [.sys, .afe, .pwm, .chn, .evr] ⊆ L) (hk : Kept L o s) :
    Keeps L o (execSenseOpen p mv periods s) := by
  unfold execSenseOpen
  repeat' first
    | with_reducible first | assumption | apply Keeps.next | apply State.senseOpened_kept | apply Kept.ite

theorem execSenseRestored_kept {L : List Blk} {o : State} (p : Fin 64) (mv : Nat) (periods : Nat) (s : State)
    (hT : [.afe, .evr] ⊆ L) (hk : Kept L o s) :
    Keeps L o (execSenseRestored p mv periods s) := by
  unfold execSenseRestored
  repeat' first
    | with_reducible assumption
    | exact hT (by decide)
    | exact List.Subset.trans (by decide) hT
    | with_reducible first | apply Keeps.next | apply State.ev_kept | apply Kept.of_afe
    | simp only [↓Kept.mk_iff]
    | with_reducible apply Keeps.ite

end Sys2Proof.Machine
end

