-- ==== Sys2Proof/Laws/KeptLoopOps.lean ====
section
/-! SUPPORT. What the operations of Machine/LoopOps.lean keep. -/

set_option linter.unusedTactic false
set_option linter.unreachableTactic false

namespace Sys2Proof.Machine

theorem State.updSlot_kept {L : List Blk} {o : State} (s : State) (i : Fin 64) (f : Slot → Slot)
    (hT : [.loop] ⊆ L) (hk : Kept L o s) :
    Kept L o (State.updSlot s i f) := by
  unfold State.updSlot
  repeat' first
    | with_reducible assumption
    | exact hT (by decide)
    | with_reducible apply Kept.of_loop
    | simp only [↓Kept.mk_iff]

theorem State.testAbort_kept {L : List Blk} {o : State} (s : State) (i : Fin 64) (hT : [.loop, .evr] ⊆ L)
    (hk : Kept L o s) :
    Kept L o (State.testAbort s i) := by
  unfold State.testAbort
  repeat' first
    | with_reducible assumption
    | exact List.Subset.trans (by decide) hT
    | with_reducible first | apply State.ev_kept | apply State.updSlot_kept
    | simp only [↓Kept.mk_iff]
    | with_reducible apply Kept.ite

theorem State.testsAbort_kept {L : List Blk} {o : State} (s : State) (hT : [.loop, .evr] ⊆ L) (hk : Kept L o s) :
    Kept L o (State.testsAbort s) := by
  unfold State.testsAbort
  repeat' first
    | with_reducible first | assumption | apply Kept.foldl
    | refine fun (_ : State) _ => ?_
    | with_reducible first | exact Kept.rfl | apply State.testAbort_kept

theorem State.capture_kept {L : List Blk} {o : State} (s : State) (i : Fin 64) (hT : [.loop] ⊆ L)
    (hk : Kept L o s) :
    Kept L o (State.capture s i) := by
  unfold State.capture
  repeat' first
    | with_reducible first | assumption | apply State.updSlot_kept
    | simp only [↓Kept.mk_iff]
    | with_reducible apply Kept.ite

theorem State.snapshot_kept {L : List Blk} {o : State} (s : State) (i : Fin 64) (hT : [.cfg, .loop, .evr] ⊆ L)
    (hk : Kept L o s) :
    Kept L o (State.snapshot s i) := by
  unfold State.snapshot
  repeat' first
    | with_reducible assumption
    | exact List.Subset.trans (by decide) hT
    | with_reducible first | apply State.displace_kept | apply State.ev_kept | apply State.updSlot_kept
    | simp only [↓Kept.mk_iff]
    | with_reducible apply Kept.ite
    | split

theorem State.handToBasalt_kept {L : List Blk} {o : State} (s : State) (g : Fin 4)
    (hT : [.sys, .loop, .pwm, .prot, .evr] ⊆ L) (hk : Kept L o s) :
    Kept L o (State.handToBasalt s g) := by
  unfold State.handToBasalt
  repeat' first
    | with_reducible assumption
    | exact List.Subset.trans (by decide) hT
    | with_reducible first | exact fun h => h | exact Nat.le_refl _
    | ((try lift_lets); intro x; refine Kept.cut (x := x) ?_ ?_; rotate_left; clear_value x; intro _; rotate_left; unfold x)
    | with_reducible first | apply State.degrade_kept | apply State.giveBasalt_kept | apply State.testAbort_kept
    | with_reducible first | apply State.updSlot_kept | apply Kept.of_any
    | (intro b hb; cases b <;> first | exact absurd (hT (by decide)) hb | rfl)
    | simp only [↓Kept.mk_iff]
    | with_reducible apply Kept.ite
    | split

theorem State.freezeInteg_kept {L : List Blk} {o : State} (s : State) (i : Fin 64) (hT : [.loop, .evr] ⊆ L)
    (hk : Kept L o s) :
    Kept L o (State.freezeInteg s i) := by
  unfold State.freezeInteg
  repeat' first
    | with_reducible assumption
    | exact List.Subset.trans (by decide) hT
    | with_reducible first | apply State.ev_kept | apply State.updSlot_kept

theorem State.handGroups_kept {L : List Blk} {o : State} (s : State) (i : Fin 64)
    (hT : [.sys, .loop, .pwm, .prot, .evr] ⊆ L) (hk : Kept L o s) :
    Kept L o (State.handGroups s i) := by
  unfold State.handGroups
  repeat' first
    | with_reducible assumption
    | exact List.Subset.trans (by decide) hT
    | with_reducible apply Kept.foldl
    | refine fun (_ : State) _ => ?_
    | with_reducible first | exact Kept.rfl | apply State.ev_kept | apply State.handToBasalt_kept
    | simp only [↓Kept.mk_iff]
    | with_reducible apply Kept.ite

theorem State.oscFire_kept {L : List Blk} {o : State} (s : State) (i : Fin 64) (r : Rec)
    (hT : [.sys, .cfg, .loop, .pwm, .prot, .evr] ⊆ L) (hk : Kept L o s) :
    Kept L o (State.oscFire s i r) := by
  unfold State.oscFire
  repeat' first
    | with_reducible assumption
    | exact List.Subset.trans (by decide) hT
    | with_reducible first | apply State.ev_kept | apply State.freezeInteg_kept | apply State.handGroups_kept
    | with_reducible first | apply State.snapshot_kept | apply State.testAbort_kept | apply State.updSlot_kept
    | simp only [↓Kept.mk_iff]
    | with_reducible apply Kept.ite
    | split

theorem State.noteRoutes_kept {L : List Blk} {o : State} (s : State) (i : Fin 64) (ins : List (Int × Nat × Bool))
    (hT : [.loop, .evr] ⊆ L) (hk : Kept L o s) :
    Kept L o (State.noteRoutes s i ins) := by
  unfold State.noteRoutes
  repeat' first
    | with_reducible assumption
    | exact List.Subset.trans (by decide) hT
    | with_reducible apply Kept.foldl
    | refine fun (_ : State) _ => ?_
    | with_reducible first | exact Kept.rfl | apply State.ev_kept | apply State.updSlot_kept

theorem State.slotRun_kept {L : List Blk} {o : State} (s : State) (i : Fin 64) (r : Rec) (setp : Int)
    (hT : [.sys, .cfg, .loop, .pwm, .prot, .evr] ⊆ L) (hk : Kept L o s) :
    Kept L o (State.slotRun s i r setp) := by
  unfold State.slotRun
  repeat' first
    | with_reducible assumption
    | exact List.Subset.trans (by decide) hT
    | with_reducible first | apply State.ev_kept | apply State.noteRoutes_kept | apply State.oscFire_kept
    | with_reducible apply State.updSlot_kept
    | simp only [↓Kept.mk_iff]
    | with_reducible apply Kept.ite

theorem State.slotEval_kept {L : List Blk} {o : State} (s : State) (i : Fin 64) (r : Rec) (setp : Int)
    (hT : [.sys, .cfg, .loop, .pwm, .prot, .evr] ⊆ L) (hk : Kept L o s) :
    Kept L o (State.slotEval s i r setp) := by
  unfold State.slotEval
  repeat' first
    | with_reducible assumption
    | exact List.Subset.trans (by decide) hT
    | with_reducible first | apply State.ev_kept | apply State.slotRun_kept | apply State.testAbort_kept
    | with_reducible apply State.updSlot_kept
    | simp only [↓Kept.mk_iff]
    | with_reducible apply Kept.ite

theorem State.formOutput_kept {L : List Blk} {o : State} (s : State) (i : Fin 64) (evaluated : Bool)
    (hT : [.loop] ⊆ L) (hk : Kept L o s) :
    Kept L o (State.formOutput s i evaluated) := by
  unfold State.formOutput
  repeat' first
    | with_reducible first | assumption | apply State.capture_kept | apply State.updSlot_kept
    | simp only [↓Kept.mk_iff]
    | with_reducible apply Kept.ite

theorem State.loopsEnterRun_kept {L : List Blk} {o : State} (s : State) (hT : [.loop] ⊆ L) (hk : Kept L o s) :
    Kept L o (State.loopsEnterRun s) := by
  unfold State.loopsEnterRun
  repeat' first
    | with_reducible assumption
    | exact hT (by decide)
    | with_reducible apply Kept.of_loop
    | simp only [↓Kept.mk_iff]

theorem State.loopsStop_kept {L : List Blk} {o : State} (s : State) (hT : [.loop, .evr] ⊆ L) (hk : Kept L o s) :
    Kept L o (State.loopsStop s) := by
  unfold State.loopsStop
  repeat' first
    | with_reducible assumption
    | exact hT (by decide)
    | ((try lift_lets); intro x; refine Kept.cut (x := x) ?_ ?_; rotate_left; clear_value x; intro _; rotate_left; unfold x)
    | with_reducible first | apply State.testsAbort_kept | apply Kept.of_loop
    | simp only [↓Kept.mk_iff]

theorem State.resumeSlot_kept {L : List Blk} {o : State} (s : State) (i : Fin 64) (target : Int)
    (hT : [.loop] ⊆ L) (hk : Kept L o s) :
    Kept L o (State.resumeSlot s i target) := by
  unfold State.resumeSlot
  repeat' first
    | with_reducible first | assumption | apply State.updSlot_kept

theorem State.seedSlot_kept {L : List Blk} {o : State} (s : State) (i : Fin 64) (r : Rec) (hT : [.sec, .loop] ⊆ L)
    (hk : Kept L o s) :
    Kept L o (State.seedSlot s i r) := by
  unfold State.seedSlot
  repeat' first
    | with_reducible assumption
    | exact List.Subset.trans (by decide) hT
    | with_reducible apply State.updSlot_kept
    | simp only [↓Kept.mk_iff]
    | split

theorem State.resumeAll_kept {L : List Blk} {o : State} (s : State) (hT : [.loop] ⊆ L) (hk : Kept L o s) :
    Kept L o (State.resumeAll s) := by
  unfold State.resumeAll
  repeat' first
    | with_reducible assumption
    | exact hT (by decide)
    | with_reducible apply Kept.foldl
    | refine fun (_ : State) _ => ?_
    | with_reducible first | exact Kept.rfl | apply State.resumeSlot_kept | apply Kept.of_loop
    | simp only [↓Kept.mk_iff]
    | split

theorem State.resumeGroup_kept {L : List Blk} {o : State} (s : State) (g : Fin 4) (hT : [.loop] ⊆ L)
    (hk : Kept L o s) :
    Kept L o (State.resumeGroup s g) := by
  unfold State.resumeGroup
  repeat' first
    | with_reducible assumption
    | exact hT (by decide)
    | with_reducible first | apply State.resumeSlot_kept | apply Kept.of_loop
    | simp only [↓Kept.mk_iff]
    | split

end Sys2Proof.Machine
end

