-- ==== Sys2Proof/Laws/KeptPredict.lean ====
section
/-! SUPPORT. What the operations of Machine/Predict.lean keep. -/

set_option linter.unusedTactic false
set_option linter.unreachableTactic false

namespace Sys2Proof.Machine

theorem State.busProfStep_kept {L : List Blk} {o : State} (s : State) (hT : [.pwm] ⊆ L) (hk : Kept L o s) :
    Kept L o (State.busProfStep s) := by
  unfold State.busProfStep
  repeat' first
    | with_reducible assumption
    | exact hT (by decide)
    | with_reducible apply Kept.of_pwm
    | simp only [↓Kept.mk_iff]

theorem State.gridProfStep_kept {L : List Blk} {o : State} (s : State) (hT : [.est] ⊆ L) (hk : Kept L o s) :
    Kept L o (State.gridProfStep s) := by
  unfold State.gridProfStep
  repeat' first
    | with_reducible assumption
    | exact hT (by decide)
    | with_reducible apply Kept.of_est
    | simp only [↓Kept.mk_iff]

theorem State.cometAgeTick_kept {L : List Blk} {o : State} (s : State) (hT : [.loop] ⊆ L) (hk : Kept L o s) :
    Kept L o (State.cometAgeTick s) := by
  unfold State.cometAgeTick
  repeat' first
    | with_reducible assumption
    | exact hT (by decide)
    | with_reducible apply Kept.of_loop
    | simp only [↓Kept.mk_iff]

theorem State.cometTick_kept {L : List Blk} {o : State} (s : State) (hT : [.loop, .evr] ⊆ L) (hk : Kept L o s) :
    Kept L o (State.cometTick s) := by
  unfold State.cometTick
  repeat' first
    | with_reducible assumption
    | exact hT (by decide)
    | exact List.Subset.trans (by decide) hT
    | with_reducible first | apply State.ev_kept | apply Kept.of_loop
    | simp only [↓Kept.mk_iff]
    | with_reducible apply Kept.ite

end Sys2Proof.Machine
end

