-- ==== Sys2Proof/Laws/KeptStorage.lean ====
section
/-! SUPPORT. What the operations of Machine/Storage.lean keep. -/

set_option linter.unusedTactic false
set_option linter.unreachableTactic false

namespace Sys2Proof.Machine

theorem State.spaceWrite_kept {L : List Blk} {o : State} (s : State) (sp : Nat) (a : Nat) (l : List Byte)
    (hT : [.mem] ⊆ L) (hk : Kept L o s) :
    Kept L o (State.spaceWrite s sp a l) := by
  unfold State.spaceWrite
  repeat' first
    | with_reducible assumption
    | exact hT (by decide)
    | with_reducible apply Kept.of_mem
    | simp only [↓Kept.mk_iff]
    | (intro h; simp [Mem.ok_mk, Mem.ok_sram _ h, Mem.ok_hbm _ h, Mem.ok_tier _ h, Mem.ok_backing _ h, Mem.ok_mram _ h]; done)
    | split

theorem State.updDma_kept {L : List Blk} {o : State} (s : State) (n : Fin 32) (f : DmaCh → DmaCh)
    (hT : [.mem] ⊆ L) (hk : Kept L o s) :
    Kept L o (State.updDma s n f) := by
  unfold State.updDma
  repeat' first
    | with_reducible assumption
    | exact hT (by decide)
    | with_reducible apply Kept.of_mem
    | simp only [↓Kept.mk_iff]
    | (intro h; simp [Mem.ok_mk, Mem.ok_sram _ h, Mem.ok_hbm _ h, Mem.ok_tier _ h, Mem.ok_backing _ h, Mem.ok_mram _ h]; done)

theorem State.preemptCh_kept {L : List Blk} {o : State} (s : State) (n : Fin 32) (hT : [.cfg, .mem, .evr] ⊆ L)
    (hk : Kept L o s) :
    Kept L o (State.preemptCh s n) := by
  unfold State.preemptCh
  repeat' first
    | with_reducible assumption
    | exact hT (by decide)
    | exact List.Subset.trans (by decide) hT
    | with_reducible first | apply State.displace_kept | apply State.updDma_kept | apply Kept.of_mem
    | simp only [↓Kept.mk_iff]
    | (intro h; simp [Mem.ok_mk, Mem.ok_sram _ h, Mem.ok_hbm _ h, Mem.ok_tier _ h, Mem.ok_backing _ h, Mem.ok_mram _ h]; done)

theorem State.preemptAll_kept {L : List Blk} {o : State} (s : State) (hT : [.cfg, .mem, .evr] ⊆ L)
    (hk : Kept L o s) :
    Kept L o (State.preemptAll s) := by
  unfold State.preemptAll
  repeat' first
    | with_reducible first | assumption | apply Kept.foldl
    | refine fun (_ : State) _ => ?_
    | with_reducible first | exact Kept.rfl | apply State.preemptCh_kept | apply Kept.ite

theorem State.resumeTier_kept {L : List Blk} {o : State} (s : State) (hT : [.mem, .evr] ⊆ L) (hk : Kept L o s) :
    Kept L o (State.resumeTier s) := by
  unfold State.resumeTier
  repeat' first
    | with_reducible assumption
    | exact List.Subset.trans (by decide) hT
    | with_reducible apply Kept.foldl
    | refine fun (_ : State) _ => ?_
    | with_reducible first | exact Kept.rfl | apply State.undisplace_kept | apply State.updDma_kept | apply Kept.ite

theorem State.dmaBegin_kept {L : List Blk} {o : State} (s : State) (n : Fin 32) (hT : [.cfg, .mem, .evr] ⊆ L)
    (hk : Kept L o s) :
    Kept L o (State.dmaBegin s n) := by
  unfold State.dmaBegin
  repeat' first
    | with_reducible assumption
    | exact hT (by decide)
    | exact List.Subset.trans (by decide) hT
    | ((try lift_lets); intro x; refine Kept.cut (x := x) ?_ ?_; rotate_left; clear_value x; intro _; rotate_left; unfold x)
    | with_reducible first | apply State.ev_kept | apply State.preemptAll_kept | apply State.preemptCh_kept
    | with_reducible first | apply State.updDma_kept | apply Kept.of_mem
    | simp only [↓Kept.mk_iff]
    | (intro h; simp [Mem.ok_mk, Mem.ok_sram _ h, Mem.ok_hbm _ h, Mem.ok_tier _ h, Mem.ok_backing _ h, Mem.ok_mram _ h]; done)
    | with_reducible apply Kept.ite

theorem State.dmaChain_kept {L : List Blk} {o : State} (s : State) (n : Fin 32)
    (hT : [.sys, .cfg, .afe, .loop, .pwm, .fce, .tlk, .chn, .est, .net, .prot, .mem, .evr, .tx] ⊆ L)
    (hk : Kept L o s) :
    Kept L o (State.dmaChain s n) := by
  unfold State.dmaChain
  repeat' first
    | with_reducible assumption
    | exact List.Subset.trans (by decide) hT
    | with_reducible first | apply State.dmaBegin_kept | apply State.updDma_kept
    | simp only [↓Kept.mk_iff]
    | with_reducible apply Kept.ite

theorem State.dmaEnd_kept {L : List Blk} {o : State} (s : State) (n : Fin 32) (st : DmaState)
    (hT : [.sys, .cfg, .afe, .loop, .pwm, .fce, .tlk, .chn, .est, .net, .prot, .mem, .evr, .tx] ⊆ L)
    (hk : Kept L o s) :
    Kept L o (State.dmaEnd s n st) := by
  unfold State.dmaEnd
  repeat' first
    | with_reducible assumption
    | exact List.Subset.trans (by decide) hT
    | with_reducible first | apply State.dmaChain_kept | apply State.resumeTier_kept | apply State.updDma_kept

theorem State.usePages_kept {L : List Blk} {o : State} (s : State) (pages : List Nat) (w : Bool) (hT : [.mem] ⊆ L)
    (hk : Kept L o s) :
    Kept L o (State.usePages s pages w) := by
  unfold State.usePages
  repeat' first
    | with_reducible assumption
    | exact hT (by decide)
    | with_reducible apply Kept.of_mem
    | simp only [↓Kept.mk_iff]
    | (intro h; simp [Mem.ok_mk, Mem.ok_sram _ h, Mem.ok_hbm _ h, Mem.ok_tier _ h, Mem.ok_backing _ h, Mem.ok_mram _ h]; done)
    | with_reducible apply Kept.ite

theorem State.dmaMove_kept {L : List Blk} {o : State} (s : State) (n : Fin 32) (sp : Nat) (a : Nat) (dp : Nat)
    (b : Nat) (k : Nat) (hT : [.mem] ⊆ L) (hk : Kept L o s) :
    Kept L o (State.dmaMove s n sp a dp b k) := by
  unfold State.dmaMove
  repeat' first
    | with_reducible first | assumption | apply State.spaceWrite_kept | apply State.updDma_kept
    | with_reducible apply State.usePages_kept

theorem State.dmaBurst_kept {L : List Blk} {o : State} (s : State) (n : Fin 32) (hT : [.mem] ⊆ L)
    (hk : Kept L o s) :
    Kept L o (State.dmaBurst s n) := by
  unfold State.dmaBurst
  repeat' first
    | with_reducible first | assumption | apply State.dmaMove_kept
    | simp only [↓Kept.mk_iff]
    | with_reducible apply Kept.ite

theorem State.dmaBursts_kept {L : List Blk} {o : State} (s : State) (n : Fin 32) (k : Nat) (hT : [.mem] ⊆ L)
    (hk : Kept L o s) : Kept L o (s.dmaBursts n k) := by
  induction k generalizing s with
  | zero => exact hk
  | succ k ih => exact ih _ (State.dmaBurst_kept s n hT hk)

theorem State.dmaMoved_kept {L : List Blk} {o : State} (s : State) (moved : List (Fin 32 × Nat)) (hT : [.mem] ⊆ L)
    (hk : Kept L o s) :
    Kept L o (State.dmaMoved s moved) := by
  unfold State.dmaMoved
  repeat' first
    | with_reducible first | assumption | apply Kept.foldl
    | refine fun (_ : State) _ => ?_
    | with_reducible first | exact Kept.rfl | apply State.dmaBursts_kept | apply Kept.ite

theorem State.arbRun_kept {L : List Blk} {o : State} (s : State) (n : Fin 32) (f k : Nat) (hT : [.mem] ⊆ L)
    (hk : Kept L o s) : Kept L o (s.arbRun n f k) := by
  induction f generalizing s k with
  | zero => exact hk
  | succ f ih =>
    unfold State.arbRun
    split
    · exact hk
    · split
      · exact hk
      · exact ih _ _ (State.dmaBurst_kept _ _ hT (Kept.mk_iff.2 (Kept.of_mem hk (hT (by decide)) fun h => h)))

theorem State.dmaRun_kept {L : List Blk} {o : State} (s : State) (n : Fin 32) (k : Nat) (hT : [.mem] ⊆ L)
    (hk : Kept L o s) :
    Kept L o (State.dmaRun s n k) := by
  unfold State.dmaRun
  repeat' first
    | with_reducible first | assumption | apply State.arbRun_kept

theorem State.dmaDone_kept {L : List Blk} {o : State} (s : State) (n : Fin 32)
    (hT : [.sys, .cfg, .afe, .loop, .pwm, .fce, .tlk, .chn, .est, .net, .prot, .mem, .evr, .tx] ⊆ L)
    (hk : Kept L o s) :
    Kept L o (State.dmaDone s n) := by
  unfold State.dmaDone
  repeat' first
    | with_reducible assumption
    | exact List.Subset.trans (by decide) hT
    | ((try lift_lets); intro x; refine Kept.cut (x := x) ?_ ?_; rotate_left; clear_value x; intro _; rotate_left; unfold x)
    | with_reducible first | apply State.dmaEnd_kept | apply State.dmaRun_kept | apply State.spaceWrite_kept
    | with_reducible first | apply State.updDma_kept | apply State.usePages_kept | apply Kept.ite

theorem execDmaStart_kept {L : List Blk} {o : State} (n : Fin 32) (d : Sys2Proof.DmaDesc)
    (shadow : Option Sys2Proof.DmaDesc) (moved : List (Fin 32 × Nat)) (s : State)
    (hT : [.sys, .cfg, .afe, .loop, .pwm, .fce, .tlk, .chn, .est, .net, .prot, .mem, .evr, .tx] ⊆ L)
    (hk : Kept L o s) :
    Keeps L o (execDmaStart n d shadow moved s) := by
  unfold execDmaStart
  repeat' first
    | with_reducible assumption
    | exact List.Subset.trans (by decide) hT
    | ((try lift_lets); intro x; refine Keeps.cut (x := x) ?_ ?_; rotate_left; clear_value x; intro _; rotate_left; unfold x)
    | with_reducible first | apply Keeps.next | apply State.dmaBegin_kept | apply State.dmaChain_kept
    | with_reducible first | apply State.dmaMoved_kept | apply State.updDma_kept
    | simp only [↓Kept.mk_iff]
    | with_reducible first | apply Kept.ite | apply Keeps.ite

theorem execDmaDone_kept {L : List Blk} {o : State} (n : Fin 32) (s : State)
    (hT : [.sys, .cfg, .afe, .loop, .pwm, .fce, .tlk, .chn, .est, .net, .prot, .mem, .evr, .tx] ⊆ L)
    (hk : Kept L o s) :
    Keeps L o (execDmaDone n s) := by
  unfold execDmaDone
  repeat' first
    | with_reducible first | assumption | apply Keeps.next | apply State.dmaDone_kept | apply Keeps.ite

theorem State.dmaBad_kept {L : List Blk} {o : State} (s : State) (n : Fin 32)
    (hT : [.sys, .cfg, .afe, .loop, .pwm, .fce, .tlk, .chn, .est, .net, .prot, .mem, .evr, .tx] ⊆ L)
    (hk : Kept L o s) :
    Kept L o (State.dmaBad s n) := by
  unfold State.dmaBad
  repeat' first
    | with_reducible assumption
    | exact hT (by decide)
    | exact List.Subset.trans (by decide) hT
    | with_reducible first | apply State.dmaEnd_kept | apply State.ev_kept | apply State.updDma_kept
    | with_reducible apply Kept.of_mem
    | simp only [↓Kept.mk_iff]
    | (intro h; simp [Mem.ok_mk, Mem.ok_sram _ h, Mem.ok_hbm _ h, Mem.ok_tier _ h, Mem.ok_backing _ h, Mem.ok_mram _ h]; done)

theorem execDmaBusError_kept {L : List Blk} {o : State} (n : Fin 32) (bursts : Nat) (s : State)
    (hT : [.sys, .cfg, .afe, .loop, .pwm, .fce, .tlk, .chn, .est, .net, .prot, .mem, .evr, .tx] ⊆ L)
    (hk : Kept L o s) :
    Keeps L o (execDmaBusError n bursts s) := by
  unfold execDmaBusError
  repeat' first
    | with_reducible assumption
    | exact List.Subset.trans (by decide) hT
    | with_reducible first | apply Keeps.next | apply State.dmaBad_kept | apply State.dmaRun_kept | apply Keeps.ite

theorem execDmaAbort_kept {L : List Blk} {o : State} (n : Fin 32) (bursts : Nat) (s : State)
    (hT : [.sys, .cfg, .afe, .loop, .pwm, .fce, .tlk, .chn, .est, .net, .prot, .mem, .evr, .tx] ⊆ L)
    (hk : Kept L o s) :
    Keeps L o (execDmaAbort n bursts s) := by
  unfold execDmaAbort
  repeat' first
    | with_reducible assumption
    | exact List.Subset.trans (by decide) hT
    | ((try lift_lets); intro x; refine Keeps.cut (x := x) ?_ ?_; rotate_left; clear_value x; intro _; rotate_left; unfold x)
    | with_reducible first | apply Keeps.next | apply State.dmaEnd_kept | apply State.dmaRun_kept
    | with_reducible first | apply State.ev_kept | apply State.updDma_kept
    | simp only [↓Kept.mk_iff]
    | with_reducible first | apply Kept.ite | apply Keeps.ite

theorem State.tierFault_kept {L : List Blk} {o : State} (s : State) (inst : Nat) (page : Nat)
    (hT : [.mem, .evr] ⊆ L) (hk : Kept L o s) :
    Kept L o (State.tierFault s inst page) := by
  unfold State.tierFault
  repeat' first
    | with_reducible assumption
    | exact hT (by decide)
    | exact List.Subset.trans (by decide) hT
    | with_reducible first | apply State.ev_kept | apply Kept.of_mem
    | simp only [↓Kept.mk_iff]
    | (intro h; simp [Mem.ok_mk, Mem.ok_sram _ h, Mem.ok_hbm _ h, Mem.ok_tier _ h, Mem.ok_backing _ h, Mem.ok_mram _ h]; done)

theorem State.copyFault_kept {L : List Blk} {o : State} (s : State) (i : Fin 10) (page : Nat)
    (hT : [.fce, .evr] ⊆ L) (hk : Kept L o s) :
    Kept L o (State.copyFault s i page) := by
  unfold State.copyFault
  repeat' first
    | with_reducible assumption
    | exact hT (by decide)
    | exact List.Subset.trans (by decide) hT
    | with_reducible first | apply State.ev_kept | apply Kept.of_fce
    | simp only [↓Kept.mk_iff]

theorem State.copyWake_kept {L : List Blk} {o : State} (s : State) (page : Nat) (hT : [.fce] ⊆ L)
    (hk : Kept L o s) :
    Kept L o (State.copyWake s page) := by
  unfold State.copyWake
  repeat' first
    | with_reducible assumption
    | exact hT (by decide)
    | with_reducible apply Kept.of_fce
    | simp only [↓Kept.mk_iff]

theorem State.holdBeats_kept {L : List Blk} {o : State} (s : State) (n : Fin 32) (beats : Nat) (hT : [.mem] ⊆ L)
    (hk : Kept L o s) :
    Kept L o (State.holdBeats s n beats) := by
  unfold State.holdBeats
  repeat' first
    | with_reducible first | assumption | apply State.updDma_kept

theorem execTierFault_kept {L : List Blk} {o : State} (unit : Sys2Proof.TierUnit) (bursts : Nat) (beats : Nat)
    (page : Nat) (s : State) (hT : [.fce, .mem, .evr] ⊆ L) (hk : Kept L o s) :
    Keeps L o (execTierFault unit bursts beats page s) := by
  unfold execTierFault
  repeat' first
    | with_reducible assumption
    | exact List.Subset.trans (by decide) hT
    | with_reducible first | apply Keeps.next | apply State.copyFault_kept | apply State.dmaRun_kept
    | with_reducible first | apply State.holdBeats_kept | apply State.tierFault_kept | apply State.updDma_kept
    | simp only [↓Kept.mk_iff]
    | with_reducible apply Keeps.ite
    | split

theorem State.evictPage_kept {L : List Blk} {o : State} (s : State) (x : Nat × Bool) (hT : [.mem] ⊆ L)
    (hk : Kept L o s) :
    Kept L o (State.evictPage s x) := by
  unfold State.evictPage
  repeat' first
    | with_reducible assumption
    | exact hT (by decide)
    | with_reducible apply Kept.of_mem
    | simp only [↓Kept.mk_iff]
    | (intro h; simp [Mem.ok_mk, Mem.ok_sram _ h, Mem.ok_hbm _ h, Mem.ok_tier _ h, Mem.ok_backing _ h, Mem.ok_mram _ h]; done)
    | split

theorem State.bringPage_kept {L : List Blk} {o : State} (s : State) (page : Nat) (hT : [.mem] ⊆ L)
    (hk : Kept L o s) :
    Kept L o (State.bringPage s page) := by
  unfold State.bringPage
  repeat' first
    | with_reducible assumption
    | exact hT (by decide)
    | with_reducible apply Kept.of_mem
    | simp only [↓Kept.mk_iff]
    | (intro h; simp [Mem.ok_mk, Mem.ok_sram _ h, Mem.ok_hbm _ h, Mem.ok_tier _ h, Mem.ok_backing _ h, Mem.ok_mram _ h]; done)

theorem State.admitPage_kept {L : List Blk} {o : State} (s : State) (page : Nat) (hT : [.mem] ⊆ L)
    (hk : Kept L o s) (t : State) (h : State.admitPage s page = some t) : Kept L o t := by
  unfold State.admitPage at h
  split at h
  · cases h
    exact State.bringPage_kept _ _ hT hk
  · rw [Option.map_eq_some_iff] at h
    obtain ⟨v, _, rfl⟩ := h
    exact State.bringPage_kept _ _ hT (State.evictPage_kept _ _ hT hk)

theorem State.bringIn_kept {L : List Blk} {o : State} (s : State) (page : Nat) (hT : [.mem] ⊆ L) (hk : Kept L o s) :
    Kept L o (State.bringIn s page) := by
  unfold State.bringIn
  split
  · exact hk
  · cases hp : s.admitPage page with
    | none => exact hk
    | some t => exact State.admitPage_kept s page hT hk t hp

theorem State.tierPut_kept {L : List Blk} {o : State} (s : State) (page : Nat) (off : Nat) (l : List Byte)
    (hT : [.mem] ⊆ L) (hk : Kept L o s) :
    Kept L o (State.tierPut s page off l) := by
  unfold State.tierPut
  repeat' first
    | with_reducible first | assumption | apply State.bringIn_kept | apply State.spaceWrite_kept
    | with_reducible apply State.usePages_kept

theorem State.stageBegin_kept {L : List Blk} {o : State} (s : State) (len : Nat) (hT : [.mem] ⊆ L)
    (hk : Kept L o s) :
    Kept L o (State.stageBegin s len) := by
  unfold State.stageBegin
  repeat' first
    | with_reducible first | assumption | apply Kept.foldl
    | refine fun (_ : State) _ => ?_
    | with_reducible first | exact Kept.rfl | apply State.bringIn_kept

theorem State.stagePut_kept {L : List Blk} {o : State} (s : State) (off : Nat) (l : List Byte) (hT : [.mem] ⊆ L)
    (hk : Kept L o s) :
    Kept L o (State.stagePut s off l) := by
  unfold State.stagePut
  repeat' first
    | with_reducible first | assumption | apply State.tierPut_kept
    | simp only [↓Kept.mk_iff]
    | with_reducible apply Kept.ite

theorem State.wakeCh_kept {L : List Blk} {o : State} (s : State) (n : Fin 32) (page : Nat)
    (hT : [.cfg, .mem, .evr] ⊆ L) (hk : Kept L o s) :
    Kept L o (State.wakeCh s n page) := by
  unfold State.wakeCh
  repeat' first
    | with_reducible assumption
    | exact List.Subset.trans (by decide) hT
    | ((try lift_lets); intro x; refine Kept.cut (x := x) ?_ ?_; rotate_left; clear_value x; intro _; rotate_left; unfold x)
    | with_reducible first | apply State.preemptCh_kept | apply State.updDma_kept | apply Kept.ite

theorem State.failCh_kept {L : List Blk} {o : State} (s : State) (n : Fin 32) (page : Nat)
    (hT : [.sys, .cfg, .afe, .loop, .pwm, .fce, .tlk, .chn, .est, .net, .prot, .mem, .evr, .tx] ⊆ L)
    (hk : Kept L o s) :
    Kept L o (State.failCh s n page) := by
  unfold State.failCh
  repeat' first
    | with_reducible first | assumption | apply State.dmaBad_kept | apply Kept.ite

theorem execTierMigrationDone_kept {L : List Blk} {o : State} (page : Nat) (ns : Nat) (ok : Bool) (s : State)
    (hT : [.sys, .cfg, .afe, .loop, .pwm, .fce, .tlk, .chn, .est, .net, .prot, .mem, .evr, .tx] ⊆ L)
    (hk : Kept L o s) :
    Keeps L o (execTierMigrationDone page ns ok s) := by
  unfold execTierMigrationDone
  rcases hp : State.admitPage s page with _ | t
  · simp only []
    repeat' first
      | with_reducible assumption
      | exact hT (by decide)
      | exact List.Subset.trans (by decide) hT
      | with_reducible apply Kept.foldl
      | refine fun (_ : State) _ => ?_
      | with_reducible first | first | apply Keeps.next | exact Kept.rfl | apply State.copyWake_kept | apply State.ev_kept
      | with_reducible first | first | apply State.failCh_kept | apply State.wakeCh_kept | apply Kept.of_mem
      | simp only [↓Kept.mk_iff]
      | (intro h; simp [Mem.ok_mk, Mem.ok_sram _ h, Mem.ok_hbm _ h, Mem.ok_tier _ h, Mem.ok_backing _ h, Mem.ok_mram _ h]; done)
      | with_reducible apply Keeps.ite
  · have hq := State.admitPage_kept s page (List.Subset.trans (by decide) hT) hk t hp
    simp only []
    repeat' first
      | with_reducible assumption
      | exact hT (by decide)
      | exact List.Subset.trans (by decide) hT
      | with_reducible apply Kept.foldl
      | refine fun (_ : State) _ => ?_
      | with_reducible first | first | apply Keeps.next | exact Kept.rfl | apply State.copyWake_kept | apply State.ev_kept
      | with_reducible first | first | apply State.failCh_kept | apply State.wakeCh_kept | apply Kept.of_mem
      | simp only [↓Kept.mk_iff]
      | (intro h; simp [Mem.ok_mk, Mem.ok_sram _ h, Mem.ok_hbm _ h, Mem.ok_tier _ h, Mem.ok_backing _ h, Mem.ok_mram _ h]; done)
      | with_reducible apply Keeps.ite

theorem State.eccFixed_kept {L : List Blk} {o : State} (s : State) (region : Fin 5) (hT : [.evr] ⊆ L)
    (hk : Kept L o s) :
    Kept L o (State.eccFixed s region) := by
  unfold State.eccFixed
  repeat' first
    | with_reducible assumption
    | exact hT (by decide)
    | with_reducible first | apply State.ev_kept | apply Kept.of_evr
    | simp only [↓Kept.mk_iff]

theorem State.eccLost_kept {L : List Blk} {o : State} (s : State) (region : Fin 5) (hT : [.evr] ⊆ L)
    (hk : Kept L o s) :
    Kept L o (State.eccLost s region) := by
  unfold State.eccLost
  repeat' first
    | with_reducible assumption
    | exact hT (by decide)
    | with_reducible first | apply State.ev_kept | apply Kept.of_evr
    | simp only [↓Kept.mk_iff]

theorem execEccCorrected_kept {L : List Blk} {o : State} (region : Fin 5) (s : State) (hT : [.evr] ⊆ L)
    (hk : Kept L o s) :
    Keeps L o (execEccCorrected region s) := by
  unfold execEccCorrected
  repeat' first
    | with_reducible first | assumption | apply Keeps.next | apply State.eccFixed_kept

theorem execRecordsLost_kept {L : List Blk} {o : State} (s : State) (hT : [.evr] ⊆ L) (hk : Kept L o s) :
    Keeps L o (execRecordsLost s) := by
  unfold execRecordsLost
  repeat' first
    | with_reducible assumption
    | exact hT (by decide)
    | with_reducible first | apply Keeps.next | apply State.ev_kept | apply Kept.of_evr
    | simp only [↓Kept.mk_iff]
    | with_reducible apply Keeps.ite

theorem State.firstClear_kept {L : List Blk} {o : State} (s : State) (hT : [.evr] ⊆ L) (hk : Kept L o s) :
    Kept L o (State.firstClear s) := by
  unfold State.firstClear
  repeat' first
    | with_reducible assumption
    | exact hT (by decide)
    | with_reducible first | apply State.ev_kept | apply Kept.of_evr
    | simp only [↓Kept.mk_iff]

theorem execFirstClear_kept {L : List Blk} {o : State} (sess : Fin 64) (s : State) (hT : [.sys, .evr] ⊆ L)
    (hk : Kept L o s) :
    Keeps L o (execFirstClear sess s) := by
  unfold execFirstClear
  repeat' first
    | with_reducible assumption
    | exact List.Subset.trans (by decide) hT
    | refine fun (_ : State) => ?_
    | with_reducible first | apply Keeps.next | exact Kept.rfl | apply State.firstClear_kept
    | with_reducible apply State.regCmd_kept

theorem State.evrUser_kept {L : List Blk} {o : State} (s : State) (code : Nat) (inst : Nat) (hT : [.evr] ⊆ L)
    (hk : Kept L o s) :
    Kept L o (State.evrUser s code inst) := by
  unfold State.evrUser
  repeat' first
    | with_reducible first | assumption | apply State.ev_kept | apply Kept.ite

theorem execEvrUser_kept {L : List Blk} {o : State} (sess : Fin 64) (code : BitVec 16) (inst : BitVec 16)
    (s : State) (hT : [.sys, .evr] ⊆ L) (hk : Kept L o s) :
    Keeps L o (execEvrUser sess code inst s) := by
  unfold execEvrUser
  repeat' first
    | with_reducible assumption
    | exact List.Subset.trans (by decide) hT
    | refine fun (_ : State) => ?_
    | with_reducible first | apply Keeps.next | exact Kept.rfl | apply State.evrUser_kept | apply State.regCmd_kept

theorem State.writerStart_kept {L : List Blk} {o : State} (s : State) (hT : [.evr] ⊆ L) (hk : Kept L o s) :
    Kept L o (State.writerStart s) := by
  unfold State.writerStart
  repeat' first
    | with_reducible assumption
    | exact hT (by decide)
    | with_reducible apply Kept.of_evr
    | simp only [↓Kept.mk_iff]
    | with_reducible apply Kept.ite

theorem execObsidianFrame_kept {L : List Blk} {o : State} (s : State) (hT : [.evr] ⊆ L) (hk : Kept L o s) :
    Keeps L o (execObsidianFrame s) := by
  unfold execObsidianFrame
  repeat' first
    | with_reducible assumption
    | exact hT (by decide)
    | with_reducible first | apply Keeps.next | apply Kept.of_evr
    | simp only [↓Kept.mk_iff]
    | with_reducible apply Keeps.ite

theorem State.triggerNow_kept {L : List Blk} {o : State} (s : State) (hT : [.evr, .fv] ⊆ L) (hk : Kept L o s) :
    Kept L o (State.triggerNow s) := by
  unfold State.triggerNow
  repeat' first
    | with_reducible assumption
    | exact List.Subset.trans (by decide) hT
    | with_reducible first | apply State.fullTrigger_kept | apply State.obsTrigger_kept | apply State.used_kept

theorem execTriggerNow_kept {L : List Blk} {o : State} (sess : Fin 64) (s : State) (hT : [.sys, .evr, .fv] ⊆ L)
    (hk : Kept L o s) :
    Keeps L o (execTriggerNow sess s) := by
  unfold execTriggerNow
  repeat' first
    | with_reducible assumption
    | exact List.Subset.trans (by decide) hT
    | refine fun (_ : State) => ?_
    | with_reducible first | apply Keeps.next | exact Kept.rfl | apply State.regCmd_kept
    | with_reducible apply State.triggerNow_kept

theorem State.closeSlot_kept {L : List Blk} {o : State} (s : State) (i : Fin 4) (hT : [.evr] ⊆ L)
    (hk : Kept L o s) :
    Kept L o (State.closeSlot s i) := by
  unfold State.closeSlot
  repeat' first
    | with_reducible assumption
    | exact hT (by decide)
    | with_reducible first | apply State.ev_kept | apply Kept.of_evr
    | simp only [↓Kept.mk_iff]

theorem execObsRecordClosed_kept {L : List Blk} {o : State} (s : State) (hT : [.evr] ⊆ L) (hk : Kept L o s) :
    Keeps L o (execObsRecordClosed s) := by
  unfold execObsRecordClosed
  repeat' first
    | with_reducible first | assumption | apply Keeps.next | apply State.closeSlot_kept
    | split

theorem State.obsClear_kept {L : List Blk} {o : State} (s : State) (hT : [.evr] ⊆ L) (hk : Kept L o s) :
    Kept L o (State.obsClear s) := by
  unfold State.obsClear
  repeat' first
    | with_reducible assumption
    | exact hT (by decide)
    | with_reducible first | apply State.ev_kept | apply Kept.of_evr
    | simp only [↓Kept.mk_iff]

theorem execObsClear_kept {L : List Blk} {o : State} (sess : Fin 64) (s : State) (hT : [.sys, .evr] ⊆ L)
    (hk : Kept L o s) :
    Keeps L o (execObsClear sess s) := by
  unfold execObsClear
  repeat' first
    | with_reducible assumption
    | exact List.Subset.trans (by decide) hT
    | refine fun (_ : State) => ?_
    | with_reducible first | apply Keeps.next | exact Kept.rfl | apply State.obsClear_kept | apply State.regCmd_kept

theorem execCaptureFrozen_kept {L : List Blk} {o : State} (s : State) (hT : [.evr] ⊆ L) (hk : Kept L o s) :
    Keeps L o (execCaptureFrozen s) := by
  unfold execCaptureFrozen
  repeat' first
    | with_reducible assumption
    | exact hT (by decide)
    | with_reducible first | apply Keeps.next | apply State.ev_kept | apply Kept.of_evr
    | simp only [↓Kept.mk_iff]
    | with_reducible apply Keeps.ite

theorem State.captureResume_kept {L : List Blk} {o : State} (s : State) (hT : [.evr] ⊆ L) (hk : Kept L o s) :
    Kept L o (State.captureResume s) := by
  unfold State.captureResume
  repeat' first
    | with_reducible assumption
    | exact hT (by decide)
    | with_reducible first | apply State.ev_kept | apply Kept.of_evr
    | simp only [↓Kept.mk_iff]
    | with_reducible apply Kept.ite

theorem execResume_kept {L : List Blk} {o : State} (sess : Fin 64) (s : State) (hT : [.sys, .evr] ⊆ L)
    (hk : Kept L o s) :
    Keeps L o (execResume sess s) := by
  unfold execResume
  repeat' first
    | with_reducible assumption
    | exact List.Subset.trans (by decide) hT
    | refine fun (_ : State) => ?_
    | with_reducible first | apply Keeps.next | exact Kept.rfl | apply State.captureResume_kept
    | with_reducible apply State.regCmd_kept

theorem execSvcSpiRead_kept {L : List Blk} {o : State} (a : BitVec 32) (n : Nat) (s : State) (hT : [.tx, .fv] ⊆ L)
    (hk : Kept L o s) :
    Keeps L o (execSvcSpiRead a n s) := by
  unfold execSvcSpiRead
  repeat' first
    | with_reducible assumption
    | exact List.Subset.trans (by decide) hT
    | with_reducible first | apply Keeps.next | apply State.send_kept | apply State.used_kept

theorem execSvcSpiIdent_kept {L : List Blk} {o : State} (s : State) (hT : [.tx] ⊆ L) (hk : Kept L o s) :
    Keeps L o (execSvcSpiIdent s) := by
  unfold execSvcSpiIdent
  repeat' first
    | with_reducible first | assumption | apply Keeps.next | apply State.send_kept

theorem execSvcSpiStatus_kept {L : List Blk} {o : State} (other : Option (BitVec 8 × Nat)) (s : State)
    (hT : [.tx, .fv] ⊆ L) (hk : Kept L o s) :
    Keeps L o (execSvcSpiStatus other s) := by
  unfold execSvcSpiStatus
  repeat' first
    | with_reducible assumption
    | exact List.Subset.trans (by decide) hT
    | with_reducible first | apply Keeps.next | apply State.send_kept | apply State.used_kept
    | split

end Sys2Proof.Machine
end

