-- ==== Sys2Proof/Laws/KeptFceOps.lean ====
section
/-! SUPPORT. What the operations of Machine/FceOps.lean keep. -/

set_option linter.unusedTactic false
set_option linter.unreachableTactic false

namespace Sys2Proof.Machine

theorem State.updInst_kept {L : List Blk} {o : State} (s : State) (i : Fin 10) (f : FInst → FInst)
    (hT : [.fce] ⊆ L) (hk : Kept L o s) :
    Kept L o (State.updInst s i f) := by
  unfold State.updInst
  repeat' first
    | with_reducible assumption
    | exact hT (by decide)
    | with_reducible apply Kept.of_fce
    | simp only [↓Kept.mk_iff]

theorem State.engineSync_kept {L : List Blk} {o : State} (s : State) (hT : [.fce, .evr] ⊆ L) (hk : Kept L o s) :
    Kept L o (State.engineSync s) := by
  unfold State.engineSync
  repeat' first
    | with_reducible assumption
    | exact hT (by decide)
    | exact List.Subset.trans (by decide) hT
    | with_reducible first | apply State.ev_kept | apply Kept.of_fce
    | simp only [↓Kept.mk_iff]
    | with_reducible apply Kept.ite

theorem State.instActivity_kept {L : List Blk} {o : State} (s : State) (hT : [.fce, .evr] ⊆ L) (hk : Kept L o s) :
    Kept L o (State.instActivity s) := by
  unfold State.instActivity
  repeat' first
    | with_reducible assumption
    | exact List.Subset.trans (by decide) hT
    | with_reducible apply Kept.foldl
    | refine fun (_ : State) _ => ?_
    | with_reducible first | exact Kept.rfl | apply State.ev_kept | apply State.updInst_kept
    | simp only [↓Kept.mk_iff]
    | with_reducible apply Kept.ite

theorem State.dispatch_kept {L : List Blk} {o : State} (s : State) (i : Fin 10) (d : Rec) (hT : [.fce, .evr] ⊆ L)
    (hk : Kept L o s) :
    Kept L o (State.dispatch s i d) := by
  unfold State.dispatch
  repeat' first
    | with_reducible assumption
    | exact List.Subset.trans (by decide) hT
    | with_reducible first | apply State.ev_kept | apply State.updInst_kept
    | simp only [↓Kept.mk_iff]
    | with_reducible apply Kept.ite

theorem State.startRound_kept {L : List Blk} {o : State} (s : State) (long : Bool) (hT : [.fce, .chn, .evr] ⊆ L)
    (hk : Kept L o s) :
    Kept L o (State.startRound s long) := by
  unfold State.startRound
  repeat' first
    | with_reducible assumption
    | exact hT (by decide)
    | exact List.Subset.trans (by decide) hT
    | with_reducible apply Kept.foldl
    | refine fun (_ : State) _ => ?_
    | with_reducible first | exact Kept.rfl | apply State.dispatch_kept | apply Kept.of_fce
    | simp only [↓Kept.mk_iff]
    | with_reducible apply Kept.ite
    | split

theorem State.cadenceStep_kept {L : List Blk} {o : State} (s : State) (i : Fin 10) (late : Bool) (restore : Nat)
    (hT : [.fce, .evr] ⊆ L) (hk : Kept L o s) :
    Kept L o (State.cadenceStep s i late restore) := by
  unfold State.cadenceStep
  repeat' first
    | with_reducible assumption
    | exact List.Subset.trans (by decide) hT
    | with_reducible first | apply State.ev_kept | apply State.updInst_kept
    | simp only [↓Kept.mk_iff]
    | with_reducible apply Kept.ite

theorem State.evalEnd_kept {L : List Blk} {o : State} (s : State) (i : Fin 10) (e : Eval) (recs : List Rec)
    (d : Rec) (w : Option (List (List Nat))) (ns : Nat) (hT : [.fce, .evr, .fv] ⊆ L) (hk : Kept L o s) :
    Kept L o (State.evalEnd s i e recs d w ns) := by
  unfold State.evalEnd
  repeat' first
    | with_reducible assumption
    | exact List.Subset.trans (by decide) hT
    | with_reducible first | apply State.cadenceStep_kept | apply State.ev_kept | apply State.updInst_kept
    | with_reducible apply State.used_kept
    | simp only [↓Kept.mk_iff]
    | with_reducible apply Kept.ite

theorem State.evalDone_kept {L : List Blk} {o : State} (s : State) (i : Fin 10) (tIn : Nat) (ns : Nat)
    (hT : [.fce, .evr, .fv] ⊆ L) (hk : Kept L o s) :
    Kept L o (State.evalDone s i tIn ns) := by
  unfold State.evalDone
  repeat' first
    | with_reducible assumption
    | exact List.Subset.trans (by decide) hT
    | with_reducible first | apply State.evalEnd_kept | apply State.updInst_kept
    | simp only [↓Kept.mk_iff]
    | with_reducible apply Kept.ite
    | split

theorem State.copyDone_kept {L : List Blk} {o : State} (s : State) (i : Fin 10) (tIn : Nat) (entry : Nat)
    (hT : [.fce] ⊆ L) (hk : Kept L o s) :
    Kept L o (State.copyDone s i tIn entry) := by
  unfold State.copyDone
  repeat' first
    | with_reducible first | assumption | apply State.updInst_kept | apply Kept.ite
    | split

theorem State.tileTick_kept {L : List Blk} {o : State} (s : State) (hT : [.cfg, .fce, .evr] ⊆ L) (hk : Kept L o s) :
    Kept L o (State.tileTick s) := by
  unfold State.tileTick
  repeat' first
    | with_reducible assumption
    | exact hT (by decide)
    | exact List.Subset.trans (by decide) hT
    | with_reducible first | apply State.displace_kept | apply State.undisplace_kept | apply Kept.of_fce
    | simp only [↓Kept.mk_iff]
    | with_reducible apply Kept.ite

theorem State.assemble_kept {L : List Blk} {o : State} (s : State) (t : Nat) (rd : Round) (hT : [.fce, .evr] ⊆ L)
    (hk : Kept L o s) :
    Kept L o (State.assemble s t rd) := by
  unfold State.assemble
  repeat' first
    | with_reducible assumption
    | exact hT (by decide)
    | exact List.Subset.trans (by decide) hT
    | with_reducible first | apply State.ev_kept | apply Kept.of_fce
    | simp only [↓Kept.mk_iff]
    | with_reducible apply Kept.ite

theorem State.evalMiss_kept {L : List Blk} {o : State} (s : State) (i : Fin 10) (tIn : Nat)
    (hT : [.fce, .evr] ⊆ L) (hk : Kept L o s) :
    Kept L o (State.evalMiss s i tIn) := by
  unfold State.evalMiss
  repeat' first
    | with_reducible assumption
    | exact List.Subset.trans (by decide) hT
    | with_reducible first | apply State.ev_kept | apply State.updInst_kept
    | simp only [↓Kept.mk_iff]
    | with_reducible apply Kept.ite
    | split

theorem State.roundMiss_kept {L : List Blk} {o : State} (s : State) (rd : Round) (hT : [.fce, .evr] ⊆ L)
    (hk : Kept L o s) :
    Kept L o (State.roundMiss s rd) := by
  unfold State.roundMiss
  repeat' first
    | with_reducible first | assumption | apply Kept.foldl
    | refine fun (_ : State) _ => ?_
    | with_reducible first | exact Kept.rfl | apply State.evalMiss_kept | apply Kept.ite

theorem State.framesAt_kept {L : List Blk} {o : State} (s : State) (t : Nat) (sel : Round → Bool)
    (hT : [.fce, .evr] ⊆ L) (hk : Kept L o s) :
    Kept L o (State.framesAt s t sel) := by
  unfold State.framesAt
  repeat' first
    | with_reducible first | assumption | apply Kept.foldl
    | refine fun (_ : State) _ => ?_
    | with_reducible first | exact Kept.rfl | apply State.assemble_kept | apply State.roundMiss_kept

theorem State.longStale_kept {L : List Blk} {o : State} (s : State) (hT : [.fce, .evr] ⊆ L) (hk : Kept L o s) :
    Kept L o (State.longStale s) := by
  unfold State.longStale
  repeat' first
    | with_reducible assumption
    | exact hT (by decide)
    | exact List.Subset.trans (by decide) hT
    | with_reducible first | apply State.ev_kept | apply Kept.of_fce
    | simp only [↓Kept.mk_iff]

theorem State.headRevert_kept {L : List Blk} {o : State} (s : State) (i : Fin 10) (hT : [.fce, .evr, .fv] ⊆ L)
    (hk : Kept L o s) :
    Kept L o (State.headRevert s i) := by
  unfold State.headRevert
  repeat' first
    | with_reducible assumption
    | exact List.Subset.trans (by decide) hT
    | with_reducible first | apply State.ev_kept | apply State.updInst_kept | apply State.used_kept
    | simp only [↓Kept.mk_iff]
    | with_reducible apply Kept.ite
    | split

theorem State.headUpdate_kept {L : List Blk} {o : State} (u : Nat) (s : State) (i : Fin 10)
    (hT : [.fce, .evr, .fv] ⊆ L) (hk : Kept L o s) :
    Kept L o (State.headUpdate u s i) := by
  unfold State.headUpdate
  repeat' first
    | with_reducible assumption
    | exact List.Subset.trans (by decide) hT
    | with_reducible first | apply State.ev_kept | apply State.headRevert_kept | apply State.updInst_kept
    | with_reducible apply State.used_kept
    | simp only [↓Kept.mk_iff]
    | with_reducible apply Kept.ite
    | split

theorem State.noteSums_kept {L : List Blk} {o : State} (s : State) (t : Nat) (hT : [.fce] ⊆ L) (hk : Kept L o s) :
    Kept L o (State.noteSums s t) := by
  unfold State.noteSums
  repeat' first
    | with_reducible assumption
    | exact hT (by decide)
    | with_reducible apply Kept.of_fce
    | simp only [↓Kept.mk_iff]
    | with_reducible apply Kept.ite

theorem State.headsAt_kept {L : List Blk} {o : State} (s : State) (t : Nat) (hT : [.fce, .evr, .fv] ⊆ L)
    (hk : Kept L o s) :
    Kept L o (State.headsAt s t) := by
  unfold State.headsAt
  repeat' first
    | with_reducible assumption
    | exact hT (by decide)
    | exact List.Subset.trans (by decide) hT
    | ((try lift_lets); intro x; refine Kept.cut (x := x) ?_ ?_; rotate_left; clear_value x; intro _; rotate_left; unfold x)
    | with_reducible apply Kept.foldl
    | refine fun (_ : State) _ => ?_
    | with_reducible first | exact Kept.rfl | apply State.headUpdate_kept | apply State.noteSums_kept
    | with_reducible apply Kept.of_fce
    | simp only [↓Kept.mk_iff]
    | with_reducible apply Kept.ite

theorem State.adaptResume_kept {L : List Blk} {o : State} (s : State) (i : Fin 10) (hT : [.fce, .evr] ⊆ L)
    (hk : Kept L o s) :
    Kept L o (State.adaptResume s i) := by
  unfold State.adaptResume
  repeat' first
    | with_reducible assumption
    | exact List.Subset.trans (by decide) hT
    | with_reducible first | apply State.ev_kept | apply State.updInst_kept

theorem State.fceStart_kept {L : List Blk} {o : State} (s : State) (hT : [.fce, .evr] ⊆ L) (hk : Kept L o s) :
    Kept L o (State.fceStart s) := by
  unfold State.fceStart
  repeat' first
    | with_reducible first | assumption | apply State.engineSync_kept | apply State.framesAt_kept
    | with_reducible first | apply State.instActivity_kept | apply State.longStale_kept
    | simp only [↓Kept.mk_iff]
    | with_reducible apply Kept.ite

theorem State.fceTick_kept {L : List Blk} {o : State} (s : State) (hT : [.cfg, .fce, .chn, .evr, .fv] ⊆ L)
    (hk : Kept L o s) :
    Kept L o (State.fceTick s) := by
  unfold State.fceTick
  repeat' first
    | with_reducible assumption
    | exact List.Subset.trans (by decide) hT
    | with_reducible apply Kept.foldl
    | refine fun (_ : State) _ => ?_
    | with_reducible first | exact Kept.rfl | apply State.adaptResume_kept | apply State.headsAt_kept
    | with_reducible first | apply State.noteSums_kept | apply State.startRound_kept | apply State.tileTick_kept
    | with_reducible apply Kept.ite

theorem State.modelSwap_kept {L : List Blk} {o : State} (s : State) (old : List Rec) (hT : [.fce] ⊆ L)
    (hk : Kept L o s) :
    Kept L o (State.modelSwap s old) := by
  unfold State.modelSwap
  repeat' first
    | with_reducible assumption
    | exact hT (by decide)
    | with_reducible apply Kept.of_fce
    | simp only [↓Kept.mk_iff]

end Sys2Proof.Machine
end

