-- ==== Sys2Proof/Laws/KeptRowOps.lean ====
section
/-! SUPPORT. What the operations of Machine/RowOps.lean keep. -/

set_option linter.unusedTactic false
set_option linter.unreachableTactic false

namespace Sys2Proof.Machine

theorem State.rowOwn_kept {L : List Blk} {o : State} (s : State) (west : Bool) (ty : Nat) (flags : Nat)
    (payload : List Byte) (hT : [.net, .tx] ⊆ L) (hk : Kept L o s) :
    Kept L o (State.rowOwn s west ty flags payload) := by
  unfold State.rowOwn
  repeat' first
    | with_reducible assumption
    | exact hT (by decide)
    | exact List.Subset.trans (by decide) hT
    | with_reducible first | apply State.send_kept | apply Kept.of_net
    | simp only [↓Kept.mk_iff]

theorem State.rowSend_kept {L : List Blk} {o : State} (s : State) (ty : Nat) (payload : List Byte)
    (hT : [.net, .tx] ⊆ L) (hk : Kept L o s) :
    Kept L o (State.rowSend s ty payload) := by
  unfold State.rowSend
  repeat' first
    | with_reducible first | assumption | apply State.rowOwn_kept | apply Kept.ite

theorem State.rowLocal_kept {L : List Blk} {o : State} (s : State) (west : Bool) (ty : Nat) (payload : List Byte)
    (hT : [.net, .tx] ⊆ L) (hk : Kept L o s) :
    Kept L o (State.rowLocal s west ty payload) := by
  unfold State.rowLocal
  repeat' first
    | with_reducible first | assumption | apply State.rowOwn_kept | apply Kept.ite

theorem State.markSubject_kept {L : List Blk} {o : State} (s : State) (rack : Nat) (shelf : Nat) (hT : [.net] ⊆ L)
    (hk : Kept L o s) :
    Kept L o (State.markSubject s rack shelf) := by
  unfold State.markSubject
  repeat' first
    | with_reducible assumption
    | exact hT (by decide)
    | with_reducible apply Kept.of_net
    | simp only [↓Kept.mk_iff]

theorem State.failover_kept {L : List Blk} {o : State} (s : State) (cause : Nat) (hT : [.net, .evr, .tx] ⊆ L)
    (hk : Kept L o s) :
    Kept L o (State.failover s cause) := by
  unfold State.failover
  repeat' first
    | with_reducible assumption
    | exact List.Subset.trans (by decide) hT
    | with_reducible first | apply State.ev_kept | apply State.markSubject_kept | apply State.rowSend_kept
    | with_reducible apply Kept.ite

theorem State.setWhole_kept {L : List Blk} {o : State} (s : State) (v : Bool) (hT : [.net, .evr] ⊆ L)
    (hk : Kept L o s) :
    Kept L o (State.setWhole s v) := by
  unfold State.setWhole
  repeat' first
    | with_reducible assumption
    | exact hT (by decide)
    | exact List.Subset.trans (by decide) hT
    | with_reducible first | apply State.ev_kept | apply Kept.of_net
    | simp only [↓Kept.mk_iff]
    | with_reducible apply Kept.ite

theorem State.unjoin_kept {L : List Blk} {o : State} (s : State) (hT : [.sys, .net, .evr] ⊆ L) (hk : Kept L o s) :
    Kept L o (State.unjoin s) := by
  unfold State.unjoin
  repeat' first
    | with_reducible assumption
    | exact List.Subset.trans (by decide) hT
    | with_reducible first | exact fun h => h | exact Nat.le_refl _ | apply State.ev_kept
    | with_reducible first | apply State.setWhole_kept | apply Kept.of_any
    | (intro b hb; cases b <;> first | exact absurd (hT (by decide)) hb | rfl)
    | simp only [↓Kept.mk_iff]
    | with_reducible apply Kept.ite

end Sys2Proof.Machine
end

