-- ==== Sys2Proof/Laws/KeptChnOps.lean ====
section
/-! SUPPORT. What the operations of Machine/ChnOps.lean keep. -/

set_option linter.unusedTactic false
set_option linter.unreachableTactic false

namespace Sys2Proof.Machine

theorem State.updRing_kept {L : List Blk} {o : State} (s : State) (c : Fin 4) (f : Ring → Ring) (hT : [.chn] ⊆ L)
    (hk : Kept L o s) :
    Kept L o (State.updRing s c f) := by
  unfold State.updRing
  repeat' first
    | with_reducible assumption
    | exact hT (by decide)
    | with_reducible apply Kept.of_chn
    | simp only [↓Kept.mk_iff]

theorem State.updNode_kept {L : List Blk} {o : State} (s : State) (c : Fin 4) (n : Nat) (f : Node → Node)
    (hT : [.chn] ⊆ L) (hk : Kept L o s) :
    Kept L o (State.updNode s c n f) := by
  unfold State.updNode
  repeat' first
    | with_reducible first | assumption | apply State.updRing_kept

theorem State.updCell_kept {L : List Blk} {o : State} (s : State) (c : Fin 4) (k : Nat) (f : Cell → Cell)
    (hT : [.chn] ⊆ L) (hk : Kept L o s) :
    Kept L o (State.updCell s c k f) := by
  unfold State.updCell
  repeat' first
    | with_reducible first | assumption | apply State.updRing_kept

theorem State.train_kept {L : List Blk} {o : State} (s : State) (c : Fin 4) (cmd : Nat) (port : Nat) (addr : Nat)
    (args : List Byte) (hT : [.tx] ⊆ L) (hk : Kept L o s) :
    Kept L o (State.train s c cmd port addr args) := by
  unfold State.train
  repeat' first
    | with_reducible first | assumption | apply State.send_kept

theorem State.train2_kept {L : List Blk} {o : State} (s : State) (c : Fin 4) (cmd : Nat) (addr : Nat)
    (args : List Byte) (hT : [.tx] ⊆ L) (hk : Kept L o s) :
    Kept L o (State.train2 s c cmd addr args) := by
  unfold State.train2
  repeat' first
    | with_reducible first | assumption | apply State.train_kept

theorem State.broadcast_kept {L : List Blk} {o : State} (s : State) (c : Fin 4) (cmd : Nat) (args : List Byte)
    (hT : [.tx] ⊆ L) (hk : Kept L o s) :
    Kept L o (State.broadcast s c cmd args) := by
  unfold State.broadcast
  repeat' first
    | with_reducible first | assumption | apply State.train_kept | apply State.train2_kept | apply Kept.ite

theorem State.gapLost_kept {L : List Blk} {o : State} (s : State) (c : Fin 4) (oo : Sys2Proof.GapOp)
    (hT : [.chn] ⊆ L) (hk : Kept L o s) :
    Kept L o (State.gapLost s c oo) := by
  unfold State.gapLost
  repeat' first
    | with_reducible first | assumption | apply State.updRing_kept

theorem State.gapRun_kept {L : List Blk} {o : State} (s : State) (c : Fin 4) (oo : Sys2Proof.GapOp)
    (hT : [.chn, .evr] ⊆ L) (hk : Kept L o s) :
    Kept L o (State.gapRun s c oo) := by
  unfold State.gapRun
  repeat' first
    | with_reducible assumption
    | exact List.Subset.trans (by decide) hT
    | ((try lift_lets); intro x; refine Kept.cut (x := x) ?_ ?_; rotate_left; clear_value x; intro _; rotate_left; unfold x)
    | with_reducible first | apply State.undisplace_kept | apply State.updRing_kept | apply Kept.ite

theorem State.gapDisplace_kept {L : List Blk} {o : State} (s : State) (c : Fin 4) (l : List Sys2Proof.GapOp)
    (hT : [.cfg, .chn, .evr] ⊆ L) (hk : Kept L o s) :
    Kept L o (State.gapDisplace s c l) := by
  unfold State.gapDisplace
  repeat' first
    | with_reducible assumption
    | exact List.Subset.trans (by decide) hT
    | with_reducible apply Kept.foldl
    | refine fun (_ : State) _ => ?_
    | with_reducible first | exact Kept.rfl | apply State.displace_kept | apply State.updRing_kept | apply Kept.ite

theorem State.missNode_kept {L : List Blk} {o : State} (s : State) (c : Fin 4) (n : Nat)
    (hT : [.sys, .chn, .evr] ⊆ L) (hk : Kept L o s) :
    Kept L o (State.missNode s c n) := by
  unfold State.missNode
  repeat' first
    | with_reducible assumption
    | exact List.Subset.trans (by decide) hT
    | ((try lift_lets); intro x; refine Kept.cut (x := x) ?_ ?_; rotate_left; clear_value x; intro _; rotate_left; unfold x)
    | with_reducible apply Kept.foldl
    | refine fun (_ : State) _ => ?_
    | with_reducible first | exact Kept.rfl | apply State.degrade_kept | apply State.ev_kept
    | with_reducible first | apply State.updCell_kept | apply State.updNode_kept | apply Kept.ite

theorem State.failRing_kept {L : List Blk} {o : State} (s : State) (c : Fin 4) (hT : [.sys, .chn, .evr] ⊆ L)
    (hk : Kept L o s) :
    Kept L o (State.failRing s c) := by
  unfold State.failRing
  repeat' first
    | with_reducible assumption
    | exact List.Subset.trans (by decide) hT
    | with_reducible first | apply State.degrade_kept | apply State.ev_kept | apply State.updRing_kept

theorem State.ctrFound_kept {L : List Blk} {o : State} (s : State) (c : Fin 4) (hT : [.chn] ⊆ L) (hk : Kept L o s) :
    Kept L o (State.ctrFound s c) := by
  unfold State.ctrFound
  repeat' first
    | with_reducible first | assumption | apply State.updRing_kept

theorem State.ringCheck_kept {L : List Blk} {o : State} (s : State) (c : Fin 4) (again : Bool)
    (hT : [.sys, .chn, .evr, .tx] ⊆ L) (hk : Kept L o s) :
    Kept L o (State.ringCheck s c again) := by
  unfold State.ringCheck
  repeat' first
    | with_reducible assumption
    | exact List.Subset.trans (by decide) hT
    | with_reducible apply Kept.foldl
    | refine fun (_ : State) _ => ?_
    | with_reducible first | exact Kept.rfl | apply State.ctrFound_kept | apply State.degrade_kept
    | with_reducible first | apply State.ev_kept | apply State.failRing_kept | apply State.missNode_kept
    | with_reducible first | apply State.train_kept | apply State.updRing_kept
    | simp only [↓Kept.mk_iff]
    | with_reducible apply Kept.ite

theorem State.ringsCheck_kept {L : List Blk} {o : State} (s : State) (hT : [.sys, .chn, .evr, .tx] ⊆ L)
    (hk : Kept L o s) :
    Kept L o (State.ringsCheck s) := by
  unfold State.ringsCheck
  repeat' first
    | with_reducible first | assumption | apply Kept.foldl
    | refine fun (_ : State) _ => ?_
    | with_reducible first | exact Kept.rfl | apply State.ringCheck_kept

theorem State.ringRetry_kept {L : List Blk} {o : State} (s : State) (c : Fin 4) (hT : [.chn] ⊆ L)
    (hk : Kept L o s) :
    Kept L o (State.ringRetry s c) := by
  unfold State.ringRetry
  repeat' first
    | with_reducible first | assumption | apply State.updRing_kept
    | simp only [↓Kept.mk_iff]
    | with_reducible apply Kept.ite

theorem State.nodeStatus_kept {L : List Blk} {o : State} (s : State) (c : Fin 4) (n : Nat) (w : Nat)
    (hT : [.chn, .evr] ⊆ L) (hk : Kept L o s) :
    Kept L o (State.nodeStatus s c n w) := by
  unfold State.nodeStatus
  repeat' first
    | with_reducible assumption
    | exact List.Subset.trans (by decide) hT
    | with_reducible first | apply State.ev_kept | apply State.updNode_kept | apply State.updRing_kept
    | simp only [↓Kept.mk_iff]
    | with_reducible apply Kept.ite

theorem State.contactor_kept {L : List Blk} {o : State} (s : State) (c : Fin 4) (close : Bool)
    (hT : [.chn, .evr, .tx] ⊆ L) (hk : Kept L o s) :
    Kept L o (State.contactor s c close) := by
  unfold State.contactor
  repeat' first
    | with_reducible assumption
    | exact List.Subset.trans (by decide) hT
    | with_reducible first | apply State.ev_kept | apply State.train_kept | apply State.updRing_kept
    | simp only [↓Kept.mk_iff]
    | with_reducible apply Kept.ite
    | split

theorem State.strContactor_kept {L : List Blk} {o : State} (s : State) (i : Nat) (close : Bool)
    (hT : [.chn, .evr, .tx] ⊆ L) (hk : Kept L o s) :
    Kept L o (State.strContactor s i close) := by
  unfold State.strContactor
  repeat' first
    | with_reducible first | assumption | apply State.contactor_kept
    | split

end Sys2Proof.Machine
end

