-- ==== Sys2Proof/Laws/KeptEstOps.lean ====
section
/-! SUPPORT. What the operations of Machine/EstOps.lean keep. -/

set_option linter.unusedTactic false
set_option linter.unreachableTactic false

namespace Sys2Proof.Machine

theorem State.updStr_kept {L : List Blk} {o : State} (s : State) (i : Fin 4) (f : Str → Str) (hT : [.est] ⊆ L)
    (hk : Kept L o s) :
    Kept L o (State.updStr s i f) := by
  unfold State.updStr
  repeat' first
    | with_reducible assumption
    | exact hT (by decide)
    | with_reducible apply Kept.of_est
    | simp only [↓Kept.mk_iff]

theorem State.updStrProt_kept {L : List Blk} {o : State} (s : State) (i : Fin 4) (f : StrProt → StrProt)
    (hT : [.prot] ⊆ L) (hk : Kept L o s) :
    Kept L o (State.updStrProt s i f) := by
  unfold State.updStrProt
  repeat' first
    | with_reducible assumption
    | exact hT (by decide)
    | with_reducible apply Kept.of_prot
    | simp only [↓Kept.mk_iff]

theorem State.healthTick_kept {L : List Blk} {o : State} (s : State) (hT : [.est, .evr] ⊆ L) (hk : Kept L o s) :
    Kept L o (State.healthTick s) := by
  unfold State.healthTick
  repeat' first
    | with_reducible assumption
    | exact hT (by decide)
    | exact List.Subset.trans (by decide) hT
    | ((try lift_lets); intro x; refine Kept.cut (x := x) ?_ ?_; rotate_left; clear_value x; intro _; rotate_left; unfold x)
    | with_reducible apply Kept.foldl
    | refine fun (_ : State) _ => ?_
    | with_reducible first | exact Kept.rfl | apply State.ev_kept | apply State.updStr_kept | apply Kept.of_est
    | simp only [↓Kept.mk_iff]
    | with_reducible apply Kept.ite

theorem State.limitsTick_kept {L : List Blk} {o : State} (s : State) (hT : [.est] ⊆ L) (hk : Kept L o s) :
    Kept L o (State.limitsTick s) := by
  unfold State.limitsTick
  repeat' first
    | with_reducible assumption
    | ((try lift_lets); intro x; refine Kept.cut (x := x) ?_ ?_; rotate_left; clear_value x; intro _; rotate_left; unfold x)
    | with_reducible apply Kept.foldl
    | refine fun (_ : State) _ => ?_
    | with_reducible first | exact Kept.rfl | apply State.updStr_kept

theorem State.initialSoc_kept {L : List Blk} {o : State} (s : State) (hT : [.est, .evr] ⊆ L) (hk : Kept L o s) :
    Kept L o (State.initialSoc s) := by
  unfold State.initialSoc
  repeat' first
    | with_reducible assumption
    | exact hT (by decide)
    | exact List.Subset.trans (by decide) hT
    | ((try lift_lets); intro x; refine Kept.cut (x := x) ?_ ?_; rotate_left; clear_value x; intro _; rotate_left; unfold x)
    | with_reducible apply Kept.foldl
    | refine fun (_ : State) _ => ?_
    | with_reducible first | exact Kept.rfl | apply State.ev_kept | apply State.updStr_kept | apply Kept.of_est
    | simp only [↓Kept.mk_iff]
    | with_reducible apply Kept.ite

theorem State.takeReading_kept {L : List Blk} {o : State} (s : State) (i : Fin 4) (mean : Int) (cellV : List Nat)
    (hT : [.pwm, .est, .evr] ⊆ L) (hk : Kept L o s) :
    Kept L o (State.takeReading s i mean cellV) := by
  unfold State.takeReading
  repeat' first
    | with_reducible assumption
    | exact List.Subset.trans (by decide) hT
    | with_reducible first | apply State.ev_kept | apply State.updStr_kept
    | simp only [↓Kept.mk_iff]
    | with_reducible apply Kept.ite

end Sys2Proof.Machine
end

