-- ==== Sys2Proof/Laws/KeptSysOps.lean ====
section
/-! SUPPORT. What the operations of Machine/SysOps.lean keep. -/

set_option linter.unusedTactic false
set_option linter.unreachableTactic false

namespace Sys2Proof.Machine

theorem State.setState_kept {L : List Blk} {o : State} (s : State) (st : DevState) (hT : [.sys, .evr] ⊆ L)
    (hk : Kept L o s) :
    Kept L o (State.setState s st) := by
  unfold State.setState
  repeat' first
    | with_reducible assumption
    | exact hT (by decide)
    | exact List.Subset.trans (by decide) hT
    | with_reducible first | apply State.ev_kept | apply Kept.of_sys
    | simp only [↓Kept.mk_iff]

theorem State.clearOrphan_kept {L : List Blk} {o : State} (s : State) (hT : [.sys, .tlk, .net, .evr, .tx] ⊆ L)
    (hk : Kept L o s) :
    Kept L o (State.clearOrphan s) := by
  unfold State.clearOrphan
  repeat' first
    | with_reducible assumption
    | exact List.Subset.trans (by decide) hT
    | with_reducible first | exact fun h => h | exact Nat.le_refl _ | apply State.ev_kept | apply State.regrant_kept
    | with_reducible apply Kept.of_any
    | (intro b hb; cases b <;> first | exact absurd (hT (by decide)) hb | rfl)
    | simp only [↓Kept.mk_iff]
    | with_reducible apply Kept.ite

theorem State.refuseTarget_kept {L : List Blk} {o : State} (s : State) (t : Nat) (hT : [.evr] ⊆ L)
    (hk : Kept L o s) :
    Kept L o (State.refuseTarget s t) := by
  unfold State.refuseTarget
  repeat' first
    | with_reducible first | assumption | apply State.ev_kept

theorem State.disarm_kept {L : List Blk} {o : State} (s : State) (hT : [.sys, .fce, .evr] ⊆ L) (hk : Kept L o s) :
    Kept L o (State.disarm s) := by
  unfold State.disarm
  repeat' first
    | with_reducible assumption
    | exact hT (by decide)
    | exact List.Subset.trans (by decide) hT
    | with_reducible first | apply State.engineSync_kept | apply State.setState_kept | apply Kept.of_sys
    | simp only [↓Kept.mk_iff]

theorem State.holdSync_kept {L : List Blk} {o : State} (s : State) (hT : [.sys, .tlk, .evr, .tx] ⊆ L)
    (hk : Kept L o s) :
    Kept L o (State.holdSync s) := by
  unfold State.holdSync
  repeat' first
    | with_reducible assumption
    | exact hT (by decide)
    | with_reducible first | apply State.driveHold_kept | apply Kept.of_sys
    | simp only [↓Kept.mk_iff]
    | with_reducible apply Kept.ite

theorem State.enterRun_kept {L : List Blk} {o : State} (s : State)
    (hT : [.sys, .loop, .pwm, .fce, .tlk, .est, .net, .evr, .tx] ⊆ L) (hk : Kept L o s) :
    Kept L o (State.enterRun s) := by
  unfold State.enterRun
  repeat' first
    | with_reducible assumption
    | exact List.Subset.trans (by decide) hT
    | with_reducible first | exact fun h => h | exact Nat.le_refl _
    | ((try lift_lets); intro x; refine Kept.cut (x := x) ?_ ?_; rotate_left; clear_value x; intro _; rotate_left; unfold x)
    | with_reducible apply Kept.foldl
    | refine fun (_ : State) _ => ?_
    | with_reducible first | exact Kept.rfl | apply State.engineSync_kept | apply State.ev_kept
    | with_reducible first | apply State.holdSync_kept | apply State.loopsEnterRun_kept
    | with_reducible first | apply State.portsEnterRun_kept | apply State.profileAtBus_kept
    | with_reducible first | apply State.setState_kept | apply State.startGroup_kept
    | with_reducible first | apply State.throttleAllPorts_kept | apply Kept.of_any
    | (intro b hb; cases b <;> first | exact absurd (hT (by decide)) hb | rfl)
    | simp only [↓Kept.mk_iff]
    | with_reducible apply Kept.ite

theorem State.endService_kept {L : List Blk} {o : State} (s : State)
    (hT : [.sys, .loop, .pwm, .fce, .tlk, .est, .net, .evr, .tx] ⊆ L) (hk : Kept L o s) :
    Kept L o (State.endService s) := by
  unfold State.endService
  repeat' first
    | with_reducible assumption
    | exact List.Subset.trans (by decide) hT
    | with_reducible first | exact fun h => h | exact Nat.le_refl _
    | ((try lift_lets); intro x; refine Kept.cut (x := x) ?_ ?_; rotate_left; clear_value x; intro _; rotate_left; unfold x)
    | with_reducible first | apply State.clearOrphan_kept | apply State.engineSync_kept | apply State.loopsStop_kept
    | with_reducible first | apply State.portsLeaveRun_kept | apply Kept.of_any
    | (intro b hb; cases b <;> first | exact absurd (hT (by decide)) hb | rfl)
    | simp only [↓Kept.mk_iff]

theorem State.returnHanded_kept {L : List Blk} {o : State} (s : State) (hT : [.evr] ⊆ L) (hk : Kept L o s) :
    Kept L o (State.returnHanded s) := by
  unfold State.returnHanded
  repeat' first
    | with_reducible first | assumption | apply Kept.foldl
    | refine fun (_ : State) _ => ?_
    | with_reducible first | exact Kept.rfl | apply State.ev_kept | apply Kept.ite

theorem State.leaveRun_kept {L : List Blk} {o : State} (s : State)
    (hT : [.sys, .loop, .pwm, .fce, .tlk, .est, .net, .evr, .tx] ⊆ L) (hk : Kept L o s) :
    Kept L o (State.leaveRun s) := by
  unfold State.leaveRun
  repeat' first
    | with_reducible assumption
    | exact List.Subset.trans (by decide) hT
    | with_reducible first | apply State.endService_kept | apply State.failover_kept | apply State.returnHanded_kept
    | with_reducible first | apply State.setState_kept | apply State.stopGroups_kept

theorem State.leaveRunOff_kept {L : List Blk} {o : State} (s : State)
    (hT : [.sys, .loop, .pwm, .fce, .tlk, .est, .net, .evr, .tx] ⊆ L) (hk : Kept L o s) :
    Kept L o (State.leaveRunOff s) := by
  unfold State.leaveRunOff
  repeat' first
    | with_reducible assumption
    | exact List.Subset.trans (by decide) hT
    | with_reducible first | apply State.endService_kept | apply State.failover_kept | apply State.groupsOff_kept
    | with_reducible first | apply State.returnHanded_kept | apply State.setState_kept

theorem State.basaltOver_kept {L : List Blk} {o : State} (s : State) (hT : [.sys, .tlk, .prot, .evr, .tx] ⊆ L)
    (hk : Kept L o s) :
    Kept L o (State.basaltOver s) := by
  unfold State.basaltOver
  repeat' first
    | with_reducible assumption
    | exact hT (by decide)
    | exact List.Subset.trans (by decide) hT
    | with_reducible first | apply State.holdSync_kept | apply Kept.of_prot
    | simp only [↓Kept.mk_iff]

theorem State.leaveBasalt_kept {L : List Blk} {o : State} (s : State) (st : DevState)
    (hT : [.sys, .loop, .pwm, .fce, .tlk, .est, .net, .prot, .evr, .tx] ⊆ L) (hk : Kept L o s) :
    Kept L o (State.leaveBasalt s st) := by
  unfold State.leaveBasalt
  repeat' first
    | with_reducible assumption
    | exact List.Subset.trans (by decide) hT
    | with_reducible first | apply State.basaltOver_kept | apply State.clearCause_kept | apply State.endService_kept
    | with_reducible first | apply State.setState_kept | apply State.stopGroups_kept

theorem State.shipRings_kept {L : List Blk} {o : State} (s : State) (hT : [.chn, .evr, .tx] ⊆ L) (hk : Kept L o s) :
    Kept L o (State.shipRings s) := by
  unfold State.shipRings
  repeat' first
    | with_reducible first | assumption | apply Kept.foldl
    | refine fun (_ : State) _ => ?_
    | with_reducible first | exact Kept.rfl | apply State.contactor_kept | apply Kept.ite

theorem State.enterShip_kept {L : List Blk} {o : State} (s : State)
    (hT : [.sys, .afe, .pwm, .fce, .tlk, .chn, .net, .evr, .tx] ⊆ L) (hk : Kept L o s) :
    Kept L o (State.enterShip s) := by
  unfold State.enterShip
  repeat' first
    | with_reducible assumption
    | exact hT (by decide)
    | exact List.Subset.trans (by decide) hT
    | with_reducible apply Kept.foldl
    | refine fun (_ : State) _ => ?_
    | with_reducible first | exact Kept.rfl | apply State.engineSync_kept | apply State.failover_kept
    | with_reducible first | apply State.portsEnterSafe_kept | apply State.rotationShip_kept
    | with_reducible first | apply State.setState_kept | apply State.shipRings_kept | apply State.stopGroups_kept
    | with_reducible first | apply State.unjoin_kept | apply State.updRing_kept | apply Kept.of_sys
    | simp only [↓Kept.mk_iff]
    | with_reducible apply Kept.ite

theorem State.armAbandon_kept {L : List Blk} {o : State} (s : State)
    (hT : [.sys, .afe, .pwm, .fce, .tlk, .chn, .net, .evr, .tx] ⊆ L) (hk : Kept L o s) :
    Kept L o (State.armAbandon s) := by
  unfold State.armAbandon
  repeat' first
    | with_reducible assumption
    | exact hT (by decide)
    | exact List.Subset.trans (by decide) hT
    | ((try lift_lets); intro x; refine Kept.cut (x := x) ?_ ?_; rotate_left; clear_value x; intro _; rotate_left; unfold x)
    | with_reducible first | apply State.engineSync_kept | apply State.enterShip_kept
    | with_reducible first | apply State.refuseTarget_kept | apply Kept.of_sys
    | simp only [↓Kept.mk_iff]
    | with_reducible apply Kept.ite

theorem State.armCheck_kept {L : List Blk} {o : State} (s : State)
    (hT : [.sys, .afe, .pwm, .fce, .tlk, .chn, .net, .evr, .tx] ⊆ L) (hk : Kept L o s) :
    Kept L o (State.armCheck s) := by
  unfold State.armCheck
  repeat' first
    | with_reducible first | assumption | apply State.armAbandon_kept | apply Kept.ite

theorem State.resetTo_kept {L : List Blk} {o : State} (s : State) (kind : Nat)
    (hT : [.power, .clk, .sys, .sec, .cfg, .afe, .loop, .pwm, .fce, .tlk, .chn, .est, .net, .prot, .mem, .evr] ⊆ L) (hk : Kept L o s) :
    Kept L o (State.resetTo s kind) := by
  unfold State.resetTo
  repeat' first
    | with_reducible first | assumption | exact Nat.le_refl _ | apply Kept.of_any
    | (intro b hb; cases b <;> first | exact absurd (hT (by decide)) hb | rfl)
    | simp only [↓Kept.mk_iff]
    | (intro h; simp [Mem.ok_mk, Mem.ok_sram _ h, Mem.ok_hbm _ h, Mem.ok_tier _ h, Mem.ok_backing _ h, Mem.ok_mram _ h]; done)

theorem State.fromT0_kept {L : List Blk} {o : State} (s : State) (hT : [.power, .clk, .sec] ⊆ L) (hk : Kept L o s) :
    Kept L o (State.fromT0 s) := by
  unfold State.fromT0
  repeat' first
    | with_reducible first | assumption | exact fun h => h | exact Nat.le_refl _ | apply Kept.of_any
    | (intro b hb; cases b <;> first | exact absurd (hT (by decide)) hb | rfl)
    | simp only [↓Kept.mk_iff]

theorem State.bootFrom_kept {L : List Blk} {o : State} (s : State) (kind : Nat) (old : Nat)
    (hT : [.power, .clk, .sys, .sec, .cfg, .afe, .loop, .pwm, .fce, .tlk, .chn, .est, .net, .prot, .mem, .evr] ⊆ L) (hk : Kept L o s) :
    Kept L o (State.bootFrom s kind old) := by
  unfold State.bootFrom
  repeat' first
    | with_reducible assumption
    | exact List.Subset.trans (by decide) hT
    | ((try lift_lets); intro x; refine Kept.cut (x := x) ?_ ?_; rotate_left; clear_value x; intro _; rotate_left; unfold x)
    | with_reducible first | apply State.ev_kept | apply State.fromT0_kept | apply State.resetTo_kept
    | with_reducible apply Kept.ite

theorem State.swapLost_kept {L : List Blk} {o : State} (s : State) (hT : [.evr] ⊆ L) (hk : Kept L o s) :
    Kept L o (State.swapLost s) := by
  unfold State.swapLost
  repeat' first
    | with_reducible first | assumption | apply State.ev_kept | apply Kept.ite

theorem State.doReset_kept {L : List Blk} {o : State} (s : State) (kind : Nat)
    (hT : [.power, .clk, .sys, .sec, .cfg, .afe, .loop, .pwm, .fce, .tlk, .chn, .est, .net, .prot, .mem, .evr] ⊆ L) (hk : Kept L o s) :
    Kept L o (State.doReset s kind) := by
  unfold State.doReset
  repeat' first
    | with_reducible assumption
    | exact hT (by decide)
    | exact List.Subset.trans (by decide) hT
    | with_reducible first | exact Nat.le_refl _ | apply State.bootFrom_kept | apply State.swapLost_kept
    | with_reducible apply Kept.of_sec
    | simp only [↓Kept.mk_iff]
    | with_reducible apply Kept.ite

theorem State.watchdogReset_kept {L : List Blk} {o : State} (s : State)
    (hT : [.power, .clk, .sys, .sec, .cfg, .afe, .loop, .pwm, .fce, .tlk, .chn, .est, .net, .prot, .mem, .evr, .tx] ⊆ L) (hk : Kept L o s) :
    Kept L o (State.watchdogReset s) := by
  unfold State.watchdogReset
  repeat' first
    | with_reducible assumption
    | exact List.Subset.trans (by decide) hT
    | with_reducible first | apply State.doReset_kept | apply State.failover_kept | apply State.gdrvLow_kept
    | with_reducible apply Kept.ite

theorem State.applyTarget_kept {L : List Blk} {o : State} (s : State) (t : Nat)
    (hT : [.sys, .afe, .loop, .pwm, .fce, .tlk, .chn, .est, .net, .prot, .evr, .tx] ⊆ L) (hk : Kept L o s) :
    Kept L o (State.applyTarget s t) := by
  unfold State.applyTarget
  repeat' first
    | with_reducible assumption
    | exact hT (by decide)
    | exact List.Subset.trans (by decide) hT
    | with_reducible first | apply State.disarm_kept | apply State.enterShip_kept | apply State.leaveBasalt_kept
    | with_reducible first | apply State.leaveRun_kept | apply State.refuseTarget_kept | apply Kept.of_sys
    | with_reducible apply Kept.of_net
    | simp only [↓Kept.mk_iff]
    | with_reducible apply Kept.ite
    | split

theorem State.afterBasalt_kept {L : List Blk} {o : State} (s : State)
    (hT : [.power, .clk, .sys, .sec, .cfg, .afe, .loop, .pwm, .fce, .tlk, .chn, .est, .net, .prot, .mem, .evr, .tx] ⊆ L) (hk : Kept L o s) :
    Kept L o (State.afterBasalt s) := by
  unfold State.afterBasalt
  repeat' first
    | with_reducible first | assumption | apply State.watchdogReset_kept | apply Kept.ite

theorem State.writeTarget_kept {L : List Blk} {o : State} (s : State) (t : Nat)
    (hT : [.power, .clk, .sys, .sec, .cfg, .afe, .loop, .pwm, .fce, .tlk, .chn, .est, .net, .prot, .mem, .evr, .tx] ⊆ L) (hk : Kept L o s) :
    Kept L o (State.writeTarget s t) := by
  unfold State.writeTarget
  repeat' first
    | with_reducible assumption
    | exact List.Subset.trans (by decide) hT
    | with_reducible first | apply State.afterBasalt_kept | apply State.applyTarget_kept | apply Kept.ite

theorem State.passageEnd_kept {L : List Blk} {o : State} (s : State)
    (hT : [.sys, .afe, .loop, .pwm, .fce, .tlk, .chn, .est, .net, .prot, .evr, .tx] ⊆ L) (hk : Kept L o s) :
    Kept L o (State.passageEnd s) := by
  unfold State.passageEnd
  repeat' first
    | with_reducible assumption
    | exact hT (by decide)
    | with_reducible first | apply State.applyTarget_kept | apply Kept.of_sys
    | simp only [↓Kept.mk_iff]
    | with_reducible apply Kept.ite

theorem State.armDone_kept {L : List Blk} {o : State} (s : State)
    (hT : [.sys, .afe, .loop, .pwm, .fce, .tlk, .chn, .est, .net, .prot, .evr, .tx] ⊆ L) (hk : Kept L o s) :
    Kept L o (State.armDone s) := by
  unfold State.armDone
  repeat' first
    | with_reducible first | assumption | apply State.passageEnd_kept | apply Kept.ite

theorem State.arm_kept {L : List Blk} {o : State} (s : State)
    (hT : [.sys, .afe, .loop, .pwm, .fce, .tlk, .chn, .est, .net, .prot, .evr, .tx] ⊆ L) (hk : Kept L o s) :
    Kept L o (State.arm s) := by
  unfold State.arm
  lift_lets
  intro a b c
  have h : Kept L o c := by
    refine State.engineSync_kept _ (List.Subset.trans (by decide) hT) ?_
    refine State.setState_kept _ _ (List.Subset.trans (by decide) hT) ?_
    refine Kept.foldl ?_ fun s c => State.contactor_kept _ _ _ (List.Subset.trans (by decide) hT) Kept.rfl
    exact State.initialSoc_kept _ (List.Subset.trans (by decide) hT) hk
  clear_value c
  refine State.armDone_kept _ (List.Subset.trans (by decide) hT) ?_
  refine Kept.mk_iff.2 (Kept.of_any h (fun b hb => ?_) (fun h => h) (Nat.le_refl _))
  cases b <;> first | exact absurd (hT (by decide)) hb | rfl

theorem State.afterOff_kept {L : List Blk} {o : State} (s : State)
    (hT : [.power, .clk, .sys, .sec, .cfg, .afe, .loop, .pwm, .fce, .tlk, .chn, .est, .net, .prot, .mem, .evr, .tx] ⊆ L) (hk : Kept L o s) :
    Kept L o (State.afterOff s) := by
  unfold State.afterOff
  repeat' first
    | with_reducible assumption
    | exact hT (by decide)
    | exact List.Subset.trans (by decide) hT
    | with_reducible first | apply State.doReset_kept | apply State.ev_kept | apply State.leaveRun_kept
    | with_reducible first | apply State.shipRings_kept | apply Kept.of_prot
    | simp only [↓Kept.mk_iff]
    | with_reducible apply Kept.ite
    | split

end Sys2Proof.Machine
end

