-- ==== Sys2Proof/Laws/KeptProtOps.lean ====
section
/-! SUPPORT. What the operations of Machine/ProtOps.lean keep. -/

set_option linter.unusedTactic false
set_option linter.unreachableTactic false

namespace Sys2Proof.Machine

theorem State.trip_kept {L : List Blk} {o : State} (s : State) (code : Nat) (inst : Nat) (detail : Nat)
    (value : Int) (limit : Int) (evInst : Nat) (data : Nat) (hT : [.prot, .evr] ⊆ L) (hk : Kept L o s) :
    Kept L o (State.trip s code inst detail value limit evInst data) := by
  unfold State.trip
  repeat' first
    | with_reducible assumption
    | exact hT (by decide)
    | exact List.Subset.trans (by decide) hT
    | with_reducible first | apply State.ev_kept | apply Kept.of_prot
    | simp only [↓Kept.mk_iff]

theorem State.tripV_kept {L : List Blk} {o : State} (s : State) (code : Nat) (inst : Nat) (detail : Nat)
    (value : Int) (limit : Int) (evInst : Nat) (hT : [.prot, .evr] ⊆ L) (hk : Kept L o s) :
    Kept L o (State.tripV s code inst detail value limit evInst) := by
  unfold State.tripV
  repeat' first
    | with_reducible first | assumption | apply State.trip_kept

theorem State.tripFree_kept {L : List Blk} {o : State} (s : State) (code : Nat) (detail : Nat) (data : Nat)
    (hT : [.prot, .evr, .fv] ⊆ L) (hk : Kept L o s) :
    Kept L o (State.tripFree s code detail data) := by
  unfold State.tripFree
  repeat' first
    | with_reducible assumption
    | exact List.Subset.trans (by decide) hT
    | with_reducible first | apply State.trip_kept | apply State.used_kept

theorem State.setCause_kept {L : List Blk} {o : State} (s : State) (c : Fin 4) (v : Bool) (hT : [.prot] ⊆ L)
    (hk : Kept L o s) :
    Kept L o (State.setCause s c v) := by
  unfold State.setCause
  repeat' first
    | with_reducible assumption
    | exact hT (by decide)
    | with_reducible apply Kept.of_prot
    | simp only [↓Kept.mk_iff]

theorem State.setResult_kept {L : List Blk} {o : State} (s : State) (code : Nat) (section_ : Nat) (rtype : Nat)
    (offset : Nat) (hT : [.cfg] ⊆ L) (hk : Kept L o s) :
    Kept L o (State.setResult s code section_ rtype offset) := by
  unfold State.setResult
  repeat' first
    | with_reducible assumption
    | exact hT (by decide)
    | with_reducible apply Kept.of_cfg
    | simp only [↓Kept.mk_iff]

theorem State.cancelSwap_kept {L : List Blk} {o : State} (s : State) (hT : [.cfg, .evr] ⊆ L) (hk : Kept L o s) :
    Kept L o (State.cancelSwap s) := by
  unfold State.cancelSwap
  repeat' first
    | with_reducible assumption
    | exact hT (by decide)
    | exact List.Subset.trans (by decide) hT
    | with_reducible first | apply State.ev_kept | apply State.setResult_kept | apply Kept.of_cfg
    | simp only [↓Kept.mk_iff]
    | with_reducible apply Kept.ite

theorem State.exitSync_kept {L : List Blk} {o : State} (s : State) (hT : [.prot, .evr] ⊆ L) (hk : Kept L o s) :
    Kept L o (State.exitSync s) := by
  unfold State.exitSync
  repeat' first
    | with_reducible assumption
    | exact hT (by decide)
    | exact List.Subset.trans (by decide) hT
    | with_reducible first | apply State.ev_kept | apply Kept.of_prot
    | simp only [↓Kept.mk_iff]
    | with_reducible apply Kept.ite

theorem State.enterBasalt_kept {L : List Blk} {o : State} (s : State)
    (hT : [.sys, .cfg, .loop, .pwm, .fce, .tlk, .est, .net, .prot, .evr, .tx, .fv] ⊆ L) (hk : Kept L o s) :
    Kept L o (State.enterBasalt s) := by
  unfold State.enterBasalt
  repeat' first
    | with_reducible assumption
    | exact hT (by decide)
    | exact List.Subset.trans (by decide) hT
    | ((try lift_lets); intro x; refine Kept.cut (x := x) ?_ ?_; rotate_left; clear_value x; intro _; rotate_left; unfold x)
    | with_reducible apply Kept.foldl
    | refine fun (_ : State) _ => ?_
    | with_reducible first | exact Kept.rfl | apply State.cancelSwap_kept | apply State.engineSync_kept
    | with_reducible first | apply State.ev_kept | apply State.exitSync_kept | apply State.failover_kept
    | with_reducible first | apply State.gdrvLow_kept | apply State.giveBasalt_kept | apply State.holdSync_kept
    | with_reducible first | apply State.loopsStop_kept | apply State.portsEnterSafe_kept
    | with_reducible first | apply State.setState_kept | apply State.throttleAllPorts_kept | apply State.trip_kept
    | with_reducible first | apply State.tripFree_kept | apply State.used_kept | apply Kept.of_est
    | with_reducible apply Kept.of_prot
    | simp only [↓Kept.mk_iff]
    | with_reducible apply Kept.ite

theorem State.holdCause_kept {L : List Blk} {o : State} (s : State) (c : Fin 4)
    (hT : [.power, .clk, .sys, .sec, .cfg, .afe, .loop, .pwm, .fce, .tlk, .chn, .est, .net, .prot, .mem, .evr, .tx, .fv] ⊆ L) (hk : Kept L o s) :
    Kept L o (State.holdCause s c) := by
  unfold State.holdCause
  repeat' first
    | with_reducible assumption
    | exact List.Subset.trans (by decide) hT
    | with_reducible first | apply State.afterOff_kept | apply State.groupsOff_kept | apply State.setCause_kept
    | with_reducible apply State.tripFree_kept
    | simp only [↓Kept.mk_iff]
    | with_reducible apply Kept.ite

theorem State.basaltCause_kept {L : List Blk} {o : State} (s : State) (c : Fin 4)
    (hT : [.power, .clk, .sys, .sec, .cfg, .afe, .loop, .pwm, .fce, .tlk, .chn, .est, .net, .prot, .mem, .evr, .tx, .fv] ⊆ L) (hk : Kept L o s) :
    Kept L o (State.basaltCause s c) := by
  unfold State.basaltCause
  repeat' first
    | with_reducible assumption
    | exact hT (by decide)
    | exact List.Subset.trans (by decide) hT
    | ((try lift_lets); intro x; refine Kept.cut (x := x) ?_ ?_; rotate_left; clear_value x; intro _; rotate_left; unfold x)
    | with_reducible first | apply State.enterBasalt_kept | apply State.holdCause_kept | apply State.setCause_kept
    | with_reducible apply Kept.of_prot
    | simp only [↓Kept.mk_iff]
    | with_reducible apply Kept.ite
    | split

theorem State.causeClear_kept {L : List Blk} {o : State} (s : State) (c : Fin 4) (hT : [.prot, .evr] ⊆ L)
    (hk : Kept L o s) :
    Kept L o (State.causeClear s c) := by
  unfold State.causeClear
  repeat' first
    | with_reducible assumption
    | exact List.Subset.trans (by decide) hT
    | ((try lift_lets); intro x; refine Kept.cut (x := x) ?_ ?_; rotate_left; clear_value x; intro _; rotate_left; unfold x)
    | with_reducible first | apply State.ev_kept | apply State.exitSync_kept | apply State.setCause_kept
    | with_reducible apply Kept.ite

theorem State.basaltGdrv_kept {L : List Blk} {o : State} (s : State) (hT : [.sys] ⊆ L) (hk : Kept L o s) :
    Kept L o (State.basaltGdrv s) := by
  unfold State.basaltGdrv
  repeat' first
    | with_reducible first | assumption | apply Kept.foldl
    | refine fun (_ : State) _ => ?_
    | with_reducible first | exact Kept.rfl | apply State.setGdrv_kept
    | simp only [↓Kept.mk_iff]
    | with_reducible apply Kept.ite

theorem State.basaltExit_kept {L : List Blk} {o : State} (s : State)
    (hT : [.sys, .loop, .pwm, .fce, .tlk, .est, .net, .prot, .evr, .tx] ⊆ L) (hk : Kept L o s) :
    Kept L o (State.basaltExit s) := by
  unfold State.basaltExit
  repeat' first
    | with_reducible assumption
    | exact hT (by decide)
    | exact List.Subset.trans (by decide) hT
    | with_reducible apply Kept.foldl
    | refine fun (_ : State) _ => ?_
    | with_reducible first | exact Kept.rfl | apply State.basaltOver_kept | apply State.engineSync_kept
    | with_reducible first | apply State.ev_kept | apply State.gdrvLow_kept | apply State.leaveBasalt_kept
    | with_reducible first | apply State.portsEnterRun_kept | apply State.resumeAll_kept | apply State.setState_kept
    | with_reducible first | apply State.startGroup_kept | apply Kept.of_est
    | simp only [↓Kept.mk_iff]
    | with_reducible apply Kept.ite

theorem State.stageOne_kept {L : List Blk} {o : State} (s : State) (i : Fin 4) (sweep : Bool) (code : Nat)
    (limit : Int) (hit : Option (Nat × Nat × Int)) (inside : Bool) (get : StrProt → Bool × Nat)
    (put : StrProt → Bool × Nat → StrProt) (mark : StrProt → Nat → StrProt) (hT : [.prot, .evr] ⊆ L)
    (hk : Kept L o s) :
    Kept L o (State.stageOne s i sweep code limit hit inside get put mark) := by
  unfold State.stageOne
  repeat' first
    | with_reducible assumption
    | exact List.Subset.trans (by decide) hT
    | with_reducible first | apply State.ev_kept | apply State.tripV_kept | apply State.updStrProt_kept
    | simp only [↓Kept.mk_iff]
    | with_reducible apply Kept.ite
    | split

theorem State.judgeCells_kept {L : List Blk} {o : State} (s : State) (c : Fin 4) (i : Fin 4) (sweep : Bool)
    (hT : [.prot, .evr, .fv] ⊆ L) (hk : Kept L o s) :
    Kept L o (State.judgeCells s c i sweep) := by
  unfold State.judgeCells
  repeat' first
    | with_reducible assumption
    | exact List.Subset.trans (by decide) hT
    | with_reducible first | apply State.stageOne_kept | apply State.used_kept

theorem State.judgeLimits_kept {L : List Blk} {o : State} (s : State) (hT : [.prot, .evr, .fv] ⊆ L)
    (hk : Kept L o s) :
    Kept L o (State.judgeLimits s) := by
  unfold State.judgeLimits
  repeat' first
    | with_reducible first | assumption | apply Kept.foldl
    | refine fun (_ : State) _ => ?_
    | with_reducible first | exact Kept.rfl | apply State.judgeCells_kept | apply Kept.ite
    | split

theorem State.strTrip_kept {L : List Blk} {o : State} (s : State) (i : Fin 4) (code : Nat) (node : Nat)
    (v : Option (Int × Int)) (hT : [.prot, .evr, .fv] ⊆ L) (hk : Kept L o s) :
    Kept L o (State.strTrip s i code node v) := by
  unfold State.strTrip
  repeat' first
    | with_reducible assumption
    | exact List.Subset.trans (by decide) hT
    | with_reducible first | apply State.tripV_kept | apply State.used_kept

theorem State.isolate_kept {L : List Blk} {o : State} (s : State) (i : Fin 4)
    (hT : [.sys, .afe, .pwm, .fce, .tlk, .chn, .net, .prot, .evr, .tx, .fv] ⊆ L) (hk : Kept L o s) :
    Kept L o (State.isolate s i) := by
  unfold State.isolate
  repeat' first
    | with_reducible assumption
    | exact List.Subset.trans (by decide) hT
    | with_reducible first | apply State.armCheck_kept | apply State.degrade_kept | apply State.stopGroup_kept
    | with_reducible first | apply State.strContactor_kept | apply State.strTrip_kept | apply State.updStrProt_kept

theorem State.dieRead_kept {L : List Blk} {o : State} (s : State) (t : Int) (hT : [.prot] ⊆ L) (hk : Kept L o s) :
    Kept L o (State.dieRead s t) := by
  unfold State.dieRead
  repeat' first
    | with_reducible assumption
    | exact hT (by decide)
    | with_reducible apply Kept.of_prot
    | simp only [↓Kept.mk_iff]

theorem State.dieWarnSet_kept {L : List Blk} {o : State} (s : State) (hT : [.fce, .prot, .evr] ⊆ L)
    (hk : Kept L o s) :
    Kept L o (State.dieWarnSet s) := by
  unfold State.dieWarnSet
  repeat' first
    | with_reducible assumption
    | exact List.Subset.trans (by decide) hT
    | with_reducible first | exact fun h => h | exact Nat.le_refl _ | apply State.engineSync_kept
    | with_reducible first | apply State.ev_kept | apply Kept.of_any
    | (intro b hb; cases b <;> first | exact absurd (hT (by decide)) hb | rfl)
    | simp only [↓Kept.mk_iff]
    | with_reducible apply Kept.ite

theorem State.rampStart_kept {L : List Blk} {o : State} (s : State) (hT : [.prot] ⊆ L) (hk : Kept L o s) :
    Kept L o (State.rampStart s) := by
  unfold State.rampStart
  repeat' first
    | with_reducible assumption
    | exact hT (by decide)
    | with_reducible apply Kept.of_prot
    | simp only [↓Kept.mk_iff]
    | with_reducible apply Kept.ite

theorem State.rampStep_kept {L : List Blk} {o : State} (s : State) (hT : [.tlk, .prot, .evr, .tx] ⊆ L)
    (hk : Kept L o s) :
    Kept L o (State.rampStep s) := by
  unfold State.rampStep
  repeat' first
    | with_reducible assumption
    | exact hT (by decide)
    | exact List.Subset.trans (by decide) hT
    | with_reducible apply Kept.foldl
    | refine fun (_ : State) _ => ?_
    | with_reducible first | exact Kept.rfl | apply State.ev_kept | apply State.sendGrant_kept
    | with_reducible first | apply State.updPort_kept | apply Kept.of_prot
    | simp only [↓Kept.mk_iff]
    | with_reducible apply Kept.ite

theorem State.coolantLoss_kept {L : List Blk} {o : State} (s : State) (code : Nat) (hT : [.prot, .evr] ⊆ L)
    (hk : Kept L o s) :
    Kept L o (State.coolantLoss s code) := by
  unfold State.coolantLoss
  repeat' first
    | with_reducible assumption
    | exact List.Subset.trans (by decide) hT
    | with_reducible first | apply State.ev_kept | apply State.rampStart_kept

theorem State.coolantCrit_kept {L : List Blk} {o : State} (s : State) (v : Int) (hT : [.prot, .evr] ⊆ L)
    (hk : Kept L o s) :
    Kept L o (State.coolantCrit s v) := by
  unfold State.coolantCrit
  repeat' first
    | with_reducible assumption
    | exact hT (by decide)
    | exact List.Subset.trans (by decide) hT
    | ((try lift_lets); intro x; refine Kept.cut (x := x) ?_ ?_; rotate_left; clear_value x; intro _; rotate_left; unfold x)
    | with_reducible first | apply State.rampStart_kept | apply State.tripV_kept | apply Kept.of_prot
    | simp only [↓Kept.mk_iff]
    | with_reducible apply Kept.ite

theorem State.coolantCheck_kept {L : List Blk} {o : State} (s : State) (hT : [.prot, .evr] ⊆ L) (hk : Kept L o s) :
    Kept L o (State.coolantCheck s) := by
  unfold State.coolantCheck
  repeat' first
    | with_reducible assumption
    | exact hT (by decide)
    | with_reducible first | apply State.coolantCrit_kept | apply Kept.of_prot
    | simp only [↓Kept.mk_iff]
    | with_reducible apply Kept.ite

theorem State.coolStop_kept {L : List Blk} {o : State} (s : State)
    (hT : [.power, .clk, .sys, .sec, .cfg, .afe, .loop, .pwm, .fce, .tlk, .chn, .est, .net, .prot, .mem, .evr, .tx] ⊆ L) (hk : Kept L o s) :
    Kept L o (State.coolStop s) := by
  unfold State.coolStop
  repeat' first
    | with_reducible assumption
    | exact hT (by decide)
    | exact List.Subset.trans (by decide) hT
    | with_reducible first | apply State.afterOff_kept | apply State.stopGroup_kept | apply Kept.of_prot
    | simp only [↓Kept.mk_iff]
    | with_reducible apply Kept.ite
    | split

end Sys2Proof.Machine
end

