-- ==== Sys2Proof/Laws/KeptChnSweep.lean ====
section
/-! SUPPORT. What the operations of Machine/ChnSweep.lean keep. -/

set_option linter.unusedTactic false
set_option linter.unreachableTactic false

namespace Sys2Proof.Machine

theorem State.updSweep_kept {L : List Blk} {o : State} (s : State) (c : Fin 4) (f : Sweep → Sweep)
    (hT : [.chn] ⊆ L) (hk : Kept L o s) :
    Kept L o (State.updSweep s c f) := by
  unfold State.updSweep
  repeat' first
    | with_reducible first | assumption | apply State.updRing_kept

theorem State.blockError_kept {L : List Blk} {o : State} (s : State) (c : Fin 4) (n : Nat) (hT : [.chn, .evr] ⊆ L)
    (hk : Kept L o s) :
    Kept L o (State.blockError s c n) := by
  unfold State.blockError
  repeat' first
    | with_reducible assumption
    | exact List.Subset.trans (by decide) hT
    | ((try lift_lets); intro x; refine Kept.cut (x := x) ?_ ?_; rotate_left; clear_value x; intro _; rotate_left; unfold x)
    | with_reducible first | apply State.ev_kept | apply State.updNode_kept | apply State.updRing_kept

theorem State.cadence_kept {L : List Blk} {o : State} (s : State) (c : Fin 4) (tempNs : Nat)
    (hT : [.chn, .evr] ⊆ L) (hk : Kept L o s) :
    Kept L o (State.cadence s c tempNs) := by
  unfold State.cadence
  repeat' first
    | with_reducible assumption
    | exact List.Subset.trans (by decide) hT
    | with_reducible first | apply State.ev_kept | apply State.updRing_kept
    | simp only [↓Kept.mk_iff]
    | with_reducible apply Kept.ite

theorem State.sample_kept {L : List Blk} {o : State} (s : State) (c : Fin 4) (k : Nat) (ts : Nat)
    (hT : [.chn, .tx] ⊆ L) (hk : Kept L o s) :
    Kept L o (State.sample s c k ts) := by
  unfold State.sample
  repeat' first
    | with_reducible assumption
    | exact List.Subset.trans (by decide) hT
    | with_reducible first | apply State.broadcast_kept | apply State.updRing_kept

theorem State.blockHead_kept {L : List Blk} {o : State} (s : State) (c : Fin 4) (b : Sys2Proof.ChainBlock)
    (hT : [.chn] ⊆ L) (hk : Kept L o s) :
    Kept L o (State.blockHead s c b) := by
  unfold State.blockHead
  repeat' first
    | with_reducible first | assumption | apply State.updNode_kept

theorem State.takeReplies_kept {L : List Blk} {o : State} (s : State) (c : Fin 4) (len : Nat)
    (l : List Sys2Proof.ChainBlock) (hT : [.chn, .evr] ⊆ L) (hk : Kept L o s) :
    Kept L o (State.takeReplies s c len l) := by
  unfold State.takeReplies
  repeat' first
    | with_reducible assumption
    | exact List.Subset.trans (by decide) hT
    | with_reducible apply Kept.foldl
    | refine fun (_ : State) _ => ?_
    | with_reducible first | exact Kept.rfl | apply State.blockError_kept | apply State.blockHead_kept
    | with_reducible apply Kept.ite

theorem State.takeBlocks_kept {L : List Blk} {o : State} (s : State) (c : Fin 4) (l : List Sys2Proof.ChainBlock)
    (hT : [.chn, .evr] ⊆ L) (hk : Kept L o s) :
    Kept L o (State.takeBlocks s c l) := by
  unfold State.takeBlocks
  repeat' first
    | with_reducible assumption
    | exact List.Subset.trans (by decide) hT
    | with_reducible apply Kept.foldl
    | refine fun (_ : State) _ => ?_
    | with_reducible first | exact Kept.rfl | apply State.blockError_kept | apply State.blockHead_kept
    | with_reducible first | apply State.updSweep_kept | apply Kept.ite

theorem State.nodeValues_kept {L : List Blk} {o : State} (s : State) (c : Fin 4) (w : Sweep) (n : Nat)
    (hT : [.chn] ⊆ L) (hk : Kept L o s) :
    Kept L o (State.nodeValues s c w n) := by
  unfold State.nodeValues
  repeat' first
    | with_reducible first | assumption | apply Kept.foldl
    | refine fun (_ : State) _ => ?_
    | with_reducible first | exact Kept.rfl | apply State.updCell_kept | apply State.updNode_kept
    | simp only [↓Kept.mk_iff]
    | with_reducible apply Kept.ite
    | split

theorem State.noteReading_kept {L : List Blk} {o : State} (s : State) (c : Fin 4) (i : Fin 4) (hT : [.est] ⊆ L)
    (hk : Kept L o s) :
    Kept L o (State.noteReading s c i) := by
  unfold State.noteReading
  repeat' first
    | with_reducible first | assumption | apply State.updStr_kept
    | simp only [↓Kept.mk_iff]
    | with_reducible apply Kept.ite

theorem State.sweepJudge_kept {L : List Blk} {o : State} (s : State) (c : Fin 4) (all : Bool)
    (hT : [.est, .prot, .evr, .fv] ⊆ L) (hk : Kept L o s) :
    Kept L o (State.sweepJudge s c all) := by
  unfold State.sweepJudge
  repeat' first
    | with_reducible assumption
    | exact List.Subset.trans (by decide) hT
    | with_reducible first | apply State.judgeCells_kept | apply State.noteReading_kept
    | with_reducible apply State.updStrProt_kept
    | simp only [↓Kept.mk_iff]
    | with_reducible apply Kept.ite
    | split

theorem State.sweepEnd_kept {L : List Blk} {o : State} (s : State) (c : Fin 4) (w : Sweep) (readNs : Nat)
    (hT : [.chn, .est, .prot, .evr, .fv] ⊆ L) (hk : Kept L o s) :
    Kept L o (State.sweepEnd s c w readNs) := by
  unfold State.sweepEnd
  repeat' first
    | with_reducible assumption
    | exact List.Subset.trans (by decide) hT
    | with_reducible apply Kept.foldl
    | refine fun (_ : State) _ => ?_
    | with_reducible first | exact Kept.rfl | apply State.ev_kept | apply State.nodeValues_kept
    | with_reducible first | apply State.sweepJudge_kept | apply State.updRing_kept | apply Kept.ite

theorem State.chainTick_kept {L : List Blk} {o : State} (s : State) (hT : [.chn, .est, .prot, .evr, .fv] ⊆ L)
    (hk : Kept L o s) :
    Kept L o (State.chainTick s) := by
  unfold State.chainTick
  repeat' first
    | with_reducible assumption
    | exact List.Subset.trans (by decide) hT
    | ((try lift_lets); intro x; refine Kept.cut (x := x) ?_ ?_; rotate_left; clear_value x; intro _; rotate_left; unfold x)
    | with_reducible apply Kept.foldl
    | refine fun (_ : State) _ => ?_
    | with_reducible first | exact Kept.rfl | apply State.sweepEnd_kept | apply State.updRing_kept
    | split

theorem State.takeTemps_kept {L : List Blk} {o : State} (s : State) (c : Fin 4) (l : List Sys2Proof.ChainBlock)
    (hT : [.chn, .evr] ⊆ L) (hk : Kept L o s) :
    Kept L o (State.takeTemps s c l) := by
  unfold State.takeTemps
  repeat' first
    | with_reducible assumption
    | exact List.Subset.trans (by decide) hT
    | with_reducible apply Kept.foldl
    | refine fun (_ : State) _ => ?_
    | with_reducible first | exact Kept.rfl | apply State.takeReplies_kept | apply State.updNode_kept

theorem State.missBetween_kept {L : List Blk} {o : State} (s : State) (c : Fin 4) (a : Nat) (b : Nat)
    (hT : [.sys, .chn, .evr] ⊆ L) (hk : Kept L o s) :
    Kept L o (State.missBetween s c a b) := by
  unfold State.missBetween
  repeat' first
    | with_reducible first | assumption | apply Kept.foldl
    | refine fun (_ : State) _ => ?_
    | with_reducible first | exact Kept.rfl | apply State.missNode_kept

theorem State.breakSweep_kept {L : List Blk} {o : State} (s : State) (c : Fin 4) (passed : Bool) (a : Nat)
    (hT : [.chn, .evr, .tx] ⊆ L) (hk : Kept L o s) :
    Kept L o (State.breakSweep s c passed a) := by
  unfold State.breakSweep
  repeat' first
    | with_reducible assumption
    | exact List.Subset.trans (by decide) hT
    | with_reducible first | apply State.ev_kept | apply State.train_kept | apply State.updSweep_kept
    | simp only [↓Kept.mk_iff]
    | with_reducible apply Kept.ite
    | split

theorem State.ringBreak_kept {L : List Blk} {o : State} (s : State) (c : Fin 4) (a : Nat) (b : Nat)
    (inSweep : Option Bool) (hT : [.sys, .afe, .pwm, .fce, .tlk, .chn, .net, .evr, .tx] ⊆ L) (hk : Kept L o s) :
    Kept L o (State.ringBreak s c a b inSweep) := by
  unfold State.ringBreak
  repeat' first
    | with_reducible assumption
    | exact List.Subset.trans (by decide) hT
    | with_reducible first | apply State.armCheck_kept | apply State.breakSweep_kept | apply State.degrade_kept
    | with_reducible first | apply State.ev_kept | apply State.missBetween_kept | apply State.updRing_kept
    | simp only [↓Kept.mk_iff]
    | with_reducible apply Kept.ite
    | split

theorem State.readdress_kept {L : List Blk} {o : State} (s : State) (c : Fin 4) (n : Nat)
    (hT : [.chn, .evr, .tx] ⊆ L) (hk : Kept L o s) :
    Kept L o (State.readdress s c n) := by
  unfold State.readdress
  repeat' first
    | with_reducible assumption
    | exact List.Subset.trans (by decide) hT
    | with_reducible first | apply State.ev_kept | apply State.train_kept | apply State.updNode_kept

theorem State.diagResult_kept {L : List Blk} {o : State} (s : State) (c : Fin 4) (n : Nat) (devs : List Int)
    (hT : [.sys, .chn, .evr] ⊆ L) (hk : Kept L o s) :
    Kept L o (State.diagResult s c n devs) := by
  unfold State.diagResult
  repeat' first
    | with_reducible assumption
    | exact List.Subset.trans (by decide) hT
    | with_reducible apply Kept.foldl
    | refine fun (_ : State) _ => ?_
    | with_reducible first | exact Kept.rfl | apply State.degrade_kept | apply State.ev_kept
    | with_reducible apply State.updNode_kept

theorem State.shipCheck_kept {L : List Blk} {o : State} (s : State) (c : Fin 4) (hT : [.chn, .evr] ⊆ L)
    (hk : Kept L o s) :
    Kept L o (State.shipCheck s c) := by
  unfold State.shipCheck
  repeat' first
    | with_reducible assumption
    | exact List.Subset.trans (by decide) hT
    | with_reducible first | apply State.ev_kept | apply State.updRing_kept | apply Kept.ite

end Sys2Proof.Machine
end

