-- ==== Sys2Proof/Laws/KeptChn.lean ====
section
/-! SUPPORT. What the operations of Machine/Chn.lean keep. -/

set_option linter.unusedTactic false
set_option linter.unreachableTactic false

namespace Sys2Proof.Machine

theorem execRingBringUp_kept {L : List Blk} {o : State} (c : Fin 4) (s : State) (hT : [.chn, .tx] ⊆ L)
    (hk : Kept L o s) :
    Keeps L o (execRingBringUp c s) := by
  unfold execRingBringUp
  repeat' first
    | with_reducible assumption
    | exact List.Subset.trans (by decide) hT
    | with_reducible first | apply Keeps.next | apply State.send_kept | apply State.updRing_kept
    | simp only [↓Kept.mk_iff]
    | with_reducible apply Kept.ite

theorem execResetAddr_kept {L : List Blk} {o : State} (c : Fin 4) (s : State) (hT : [.chn, .tx] ⊆ L)
    (hk : Kept L o s) :
    Keeps L o (execResetAddr c s) := by
  unfold execResetAddr
  repeat' first
    | with_reducible assumption
    | exact List.Subset.trans (by decide) hT
    | with_reducible first | apply Keeps.next | apply State.train2_kept | apply State.updRing_kept
    | simp only [↓Kept.mk_iff]
    | with_reducible apply Kept.ite

theorem execEnum_kept {L : List Blk} {o : State} (c : Fin 4) (fromB : Bool) (count : Nat) (passed : Bool)
    (s : State) (hT : [.chn, .tx] ⊆ L) (hk : Kept L o s) :
    Keeps L o (execEnum c fromB count passed s) := by
  unfold execEnum
  repeat' first
    | with_reducible assumption
    | exact List.Subset.trans (by decide) hT
    | with_reducible first | apply Keeps.next | apply State.train_kept | apply State.updRing_kept | apply Kept.ite

theorem execRevcheck_kept {L : List Blk} {o : State} (c : Fin 4) (replies : List Sys2Proof.ChainBlock) (s : State)
    (hT : [.sys, .afe, .pwm, .fce, .tlk, .chn, .net, .evr, .tx] ⊆ L) (hk : Kept L o s) :
    Keeps L o (execRevcheck c replies s) := by
  unfold execRevcheck
  repeat' first
    | with_reducible assumption
    | exact List.Subset.trans (by decide) hT
    | ((try lift_lets); intro x; refine Kept.cut (x := x) ?_ ?_; rotate_left; clear_value x; intro _; rotate_left; unfold x)
    | with_reducible first | apply Keeps.next | apply State.armCheck_kept | apply State.failRing_kept
    | with_reducible first | apply State.takeReplies_kept | apply State.train_kept | apply State.updRing_kept
    | simp only [↓Kept.mk_iff]
    | with_reducible apply Kept.ite

theorem execEcho_kept {L : List Blk} {o : State} (c : Fin 4) (n : Fin 16) (fromB : Bool) (trips : List Nat)
    (replies : List Sys2Proof.ChainBlock) (s : State) (hT : [.sys, .cfg, .chn, .net, .evr, .tx] ⊆ L)
    (hk : Kept L o s) :
    Keeps L o (execEcho c n fromB trips replies s) := by
  unfold execEcho
  repeat' first
    | with_reducible assumption
    | exact List.Subset.trans (by decide) hT
    | ((try lift_lets); intro x; refine Kept.cut (x := x) ?_ ?_; rotate_left; clear_value x; intro _; rotate_left; unfold x)
    | with_reducible apply Kept.foldl
    | refine fun (_ : State) _ => ?_
    | with_reducible first | apply Keeps.next | exact Kept.rfl | apply State.nodeStatus_kept
    | with_reducible first | apply State.readdress_kept | apply State.takeReplies_kept | apply State.train_kept
    | with_reducible first | apply State.updNode_kept | apply Kept.ite

theorem execEnumerated_kept {L : List Blk} {o : State} (c : Fin 4) (s : State) (hT : [.sys, .chn, .evr, .tx] ⊆ L)
    (hk : Kept L o s) :
    Keeps L o (execEnumerated c s) := by
  unfold execEnumerated
  repeat' first
    | with_reducible assumption
    | exact List.Subset.trans (by decide) hT
    | ((try lift_lets); intro x; refine Kept.cut (x := x) ?_ ?_; rotate_left; clear_value x; intro _; rotate_left; unfold x)
    | with_reducible first | apply Keeps.next | apply State.ringCheck_kept | apply State.updRing_kept
    | simp only [↓Kept.mk_iff]
    | with_reducible apply Kept.ite

theorem execRingRetry_kept {L : List Blk} {o : State} (c : Fin 4) (s : State) (hT : [.chn] ⊆ L) (hk : Kept L o s) :
    Keeps L o (execRingRetry c s) := by
  unfold execRingRetry
  repeat' first
    | with_reducible first | assumption | apply Keeps.next | apply State.ringRetry_kept | apply Kept.ite

theorem execReenum_kept {L : List Blk} {o : State} (sess : Fin 64) (c : Fin 4) (s : State) (hT : [.sys, .chn] ⊆ L)
    (hk : Kept L o s) :
    Keeps L o (execReenum sess c s) := by
  unfold execReenum
  repeat' first
    | with_reducible assumption
    | exact List.Subset.trans (by decide) hT
    | refine fun (_ : State) => ?_
    | with_reducible first | apply Keeps.next | exact Kept.rfl | apply State.regCmdAt_kept
    | with_reducible apply State.ringRetry_kept

theorem execConfig_kept {L : List Blk} {o : State} (c : Fin 4) (n : Fin 16) (replies : List Sys2Proof.ChainBlock)
    (s : State) (hT : [.chn, .evr, .tx] ⊆ L) (hk : Kept L o s) :
    Keeps L o (execConfig c n replies s) := by
  unfold execConfig
  repeat' first
    | with_reducible assumption
    | exact List.Subset.trans (by decide) hT
    | ((try lift_lets); intro x; refine Kept.cut (x := x) ?_ ?_; rotate_left; clear_value x; intro _; rotate_left; unfold x)
    | with_reducible first | apply Keeps.next | apply State.gapLost_kept | apply State.gapRun_kept
    | with_reducible first | apply State.takeReplies_kept | apply State.train_kept | apply State.updNode_kept
    | with_reducible apply Kept.ite

theorem execSample_kept {L : List Blk} {o : State} (c : Fin 4) (k : Nat) (tempNs : Nat) (s : State)
    (hT : [.chn, .evr, .tx] ⊆ L) (hk : Kept L o s) :
    Keeps L o (execSample c k tempNs s) := by
  unfold execSample
  repeat' first
    | with_reducible assumption
    | exact List.Subset.trans (by decide) hT
    | ((try lift_lets); intro x; refine Keeps.cut (x := x) ?_ ?_; rotate_left; clear_value x; intro _; rotate_left; unfold x)
    | with_reducible first | apply Keeps.next | apply State.cadence_kept | apply State.sample_kept | apply Kept.ite

theorem execSweepComplete_kept {L : List Blk} {o : State} (c : Fin 4) (blocks : List Sys2Proof.ChainBlock)
    (readNs : Nat) (s : State) (hT : [.sys, .afe, .pwm, .fce, .tlk, .chn, .net, .evr, .tx] ⊆ L) (hk : Kept L o s) :
    Keeps L o (execSweepComplete c blocks readNs s) := by
  unfold execSweepComplete
  repeat' first
    | with_reducible assumption
    | exact List.Subset.trans (by decide) hT
    | ((try lift_lets); intro x; refine Keeps.cut (x := x) ?_ ?_; rotate_left; clear_value x; intro _; rotate_left; unfold x)
    | with_reducible first | apply Keeps.next | apply State.ringBreak_kept | apply State.takeBlocks_kept
    | with_reducible apply State.updRing_kept
    | simp only [↓Kept.mk_iff]
    | with_reducible apply Kept.ite
    | split

theorem execCellsUnmonitored_kept {L : List Blk} {o : State} (c : Fin 4) (k : Fin 288) (s : State)
    (hT : [.sys, .afe, .pwm, .fce, .tlk, .chn, .net, .evr, .tx] ⊆ L) (hk : Kept L o s) :
    Keeps L o (execCellsUnmonitored c k s) := by
  unfold execCellsUnmonitored
  repeat' first
    | with_reducible assumption
    | exact List.Subset.trans (by decide) hT
    | with_reducible first | apply Keeps.next | apply State.armCheck_kept | apply State.degrade_kept
    | with_reducible first | apply State.ev_kept | apply State.updCell_kept
    | simp only [↓Kept.mk_iff]
    | with_reducible apply Kept.ite
    | split

theorem State.setBal_kept {L : List Blk} {o : State} (s : State) (c : Fin 4) (k : Nat) (q : Nat × Nat)
    (hT : [.chn] ⊆ L) (hk : Kept L o s) :
    Kept L o (State.setBal s c k q) := by
  unfold State.setBal
  repeat' first
    | with_reducible assumption
    | ((try lift_lets); intro x; refine Kept.cut (x := x) ?_ ?_; rotate_left; clear_value x; intro _; rotate_left; unfold x)
    | with_reducible apply Kept.foldl
    | refine fun (_ : State) _ => ?_
    | with_reducible first | exact Kept.rfl | apply State.updCell_kept | apply State.updNode_kept

theorem State.breakLost_kept {L : List Blk} {o : State} (s : State) (c : Fin 4) (oo : Sys2Proof.GapOp)
    (hT : [.chn] ⊆ L) (hk : Kept L o s) :
    Kept L o (State.breakLost s c oo) := by
  unfold State.breakLost
  repeat' first
    | with_reducible first | assumption | apply State.gapLost_kept | apply State.setBal_kept
    | split

theorem execRingBroken_kept {L : List Blk} {o : State} (c : Fin 4) (lastA : Nat) (firstB : Nat)
    (inSweep : Option Bool) (displaced : List Sys2Proof.GapOp) (lost : List Sys2Proof.GapOp) (s : State)
    (hT : [.sys, .cfg, .afe, .pwm, .fce, .tlk, .chn, .net, .evr, .tx] ⊆ L) (hk : Kept L o s) :
    Keeps L o (execRingBroken c lastA firstB inSweep displaced lost s) := by
  unfold execRingBroken
  repeat' first
    | with_reducible assumption
    | exact List.Subset.trans (by decide) hT
    | ((try lift_lets); intro x; refine Kept.cut (x := x) ?_ ?_; rotate_left; clear_value x; intro _; rotate_left; unfold x)
    | with_reducible apply Kept.foldl
    | refine fun (_ : State) _ => ?_
    | with_reducible first | apply Keeps.next | exact Kept.rfl | apply State.breakLost_kept
    | with_reducible first | apply State.gapDisplace_kept | apply State.ringBreak_kept | apply Kept.ite

theorem execReadHeld_kept {L : List Blk} {o : State} (c : Fin 4) (fromB : Bool) (mask : BitVec 16)
    (blocks : List Sys2Proof.ChainBlock) (s : State) (hT : [.chn, .evr, .tx] ⊆ L) (hk : Kept L o s) :
    Keeps L o (execReadHeld c fromB mask blocks s) := by
  unfold execReadHeld
  repeat' first
    | with_reducible assumption
    | exact List.Subset.trans (by decide) hT
    | with_reducible first | apply Keeps.next | apply State.takeBlocks_kept | apply State.train_kept
    | with_reducible apply Kept.ite

theorem execReadTemp_kept {L : List Blk} {o : State} (c : Fin 4) (blocks : List Sys2Proof.ChainBlock) (s : State)
    (hT : [.chn, .evr, .tx] ⊆ L) (hk : Kept L o s) :
    Keeps L o (execReadTemp c blocks s) := by
  unfold execReadTemp
  repeat' first
    | with_reducible assumption
    | exact List.Subset.trans (by decide) hT
    | with_reducible first | apply Keeps.next | apply State.broadcast_kept | apply State.takeTemps_kept
    | with_reducible apply Kept.ite

theorem execRingRepaired_kept {L : List Blk} {o : State} (c : Fin 4) (s : State) (hT : [.chn, .evr] ⊆ L)
    (hk : Kept L o s) :
    Keeps L o (execRingRepaired c s) := by
  unfold execRingRepaired
  repeat' first
    | with_reducible assumption
    | exact List.Subset.trans (by decide) hT
    | with_reducible first | apply Keeps.next | apply State.ev_kept | apply State.updRing_kept | apply Kept.ite

theorem State.probeOut_kept {L : List Blk} {o : State} (s : State) (c : Fin 4) (n : Fin 17) (fromB : Bool)
    (replies : List Sys2Proof.ChainBlock) (hT : [.chn, .evr, .tx] ⊆ L) (hk : Kept L o s) :
    Kept L o (State.probeOut s c n fromB replies) := by
  unfold State.probeOut
  repeat' first
    | with_reducible assumption
    | exact List.Subset.trans (by decide) hT
    | with_reducible first | apply State.gapRun_kept | apply State.takeReplies_kept | apply State.train_kept

theorem State.probeSeen_kept {L : List Blk} {o : State} (s : State) (c : Fin 4) (n : Nat) (fromB : Bool)
    (ok : Bool) (hT : [.chn] ⊆ L) (hk : Kept L o s) :
    Kept L o (State.probeSeen s c n fromB ok) := by
  unfold State.probeSeen
  repeat' first
    | with_reducible first | assumption | apply State.updRing_kept | apply Kept.ite

theorem State.probeNode_kept {L : List Blk} {o : State} (s : State) (c : Fin 4) (n : Nat) (asked : Bool)
    (good : List Sys2Proof.ChainBlock) (hT : [.sys, .cfg, .chn, .net, .evr, .tx] ⊆ L) (hk : Kept L o s) :
    Kept L o (State.probeNode s c n asked good) := by
  unfold State.probeNode
  repeat' first
    | with_reducible assumption
    | exact List.Subset.trans (by decide) hT
    | ((try lift_lets); intro x; refine Kept.cut (x := x) ?_ ?_; rotate_left; clear_value x; intro _; rotate_left; unfold x)
    | with_reducible apply Kept.foldl
    | refine fun (_ : State) _ => ?_
    | with_reducible first | exact Kept.rfl | apply State.nodeStatus_kept | apply State.readdress_kept
    | with_reducible first | apply State.updRing_kept | apply Kept.ite

theorem execProbe_kept {L : List Blk} {o : State} (c : Fin 4) (n : Fin 17) (fromB : Bool) (passed : Bool)
    (replies : List Sys2Proof.ChainBlock) (lastA : Nat) (firstB : Nat) (s : State)
    (hT : [.sys, .cfg, .afe, .pwm, .fce, .tlk, .chn, .net, .evr, .tx] ⊆ L) (hk : Kept L o s) :
    Keeps L o (execProbe c n fromB passed replies lastA firstB s) := by
  unfold execProbe
  repeat' first
    | with_reducible assumption
    | exact List.Subset.trans (by decide) hT
    | ((try lift_lets); intro x; refine Kept.cut (x := x) ?_ ?_; rotate_left; clear_value x; intro _; rotate_left; unfold x)
    | with_reducible first | apply Keeps.next | apply State.probeNode_kept | apply State.probeOut_kept
    | with_reducible first | apply State.probeSeen_kept | apply State.ringBreak_kept | apply Kept.ite

theorem execDiag_kept {L : List Blk} {o : State} (c : Fin 4) (n : Fin 16) (replies : List Sys2Proof.ChainBlock)
    (s : State) (hT : [.sys, .chn, .evr, .tx] ⊆ L) (hk : Kept L o s) :
    Keeps L o (execDiag c n replies s) := by
  unfold execDiag
  repeat' first
    | with_reducible assumption
    | exact List.Subset.trans (by decide) hT
    | ((try lift_lets); intro x; refine Kept.cut (x := x) ?_ ?_; rotate_left; clear_value x; intro _; rotate_left; unfold x)
    | with_reducible first | apply Keeps.next | apply State.diagResult_kept | apply State.gapLost_kept
    | with_reducible first | apply State.gapRun_kept | apply State.takeReplies_kept | apply State.train_kept
    | with_reducible first | apply State.updRing_kept | apply Kept.ite
    | split

theorem State.diagNow_kept {L : List Blk} {o : State} (s : State) (c : Fin 4) (hT : [.chn] ⊆ L) (hk : Kept L o s) :
    Kept L o (State.diagNow s c) := by
  unfold State.diagNow
  repeat' first
    | with_reducible first | assumption | apply State.updRing_kept | apply Kept.ite

theorem execDiagNow_kept {L : List Blk} {o : State} (sess : Fin 64) (c : Fin 4) (s : State)
    (hT : [.sys, .chn] ⊆ L) (hk : Kept L o s) :
    Keeps L o (execDiagNow sess c s) := by
  unfold execDiagNow
  repeat' first
    | with_reducible assumption
    | exact List.Subset.trans (by decide) hT
    | refine fun (_ : State) => ?_
    | with_reducible first | apply Keeps.next | exact Kept.rfl | apply State.diagNow_kept
    | with_reducible apply State.regCmdAt_kept

theorem execBal_kept {L : List Blk} {o : State} (c : Fin 4) (n : Fin 16) (s : State) (hT : [.chn, .evr, .tx] ⊆ L)
    (hk : Kept L o s) :
    Keeps L o (execBal c n s) := by
  unfold execBal
  repeat' first
    | with_reducible assumption
    | exact List.Subset.trans (by decide) hT
    | with_reducible first | apply Keeps.next | apply State.gapRun_kept | apply State.setBal_kept
    | with_reducible first | apply State.train_kept | apply State.updNode_kept
    | simp only [↓Kept.mk_iff]
    | with_reducible apply Kept.ite

theorem execSlot_kept {L : List Blk} {o : State} (c : Fin 4) (s : State) (hT : [.chn, .evr, .tx] ⊆ L)
    (hk : Kept L o s) :
    Keeps L o (execSlot c s) := by
  unfold execSlot
  repeat' first
    | with_reducible assumption
    | exact List.Subset.trans (by decide) hT
    | with_reducible first | apply Keeps.next | apply State.broadcast_kept | apply State.gapRun_kept
    | with_reducible apply State.updRing_kept
    | simp only [↓Kept.mk_iff]
    | with_reducible apply Kept.ite

theorem execBlank_kept {L : List Blk} {o : State} (c : Fin 4) (s : State) (hT : [.chn, .tx] ⊆ L) (hk : Kept L o s) :
    Keeps L o (execBlank c s) := by
  unfold execBlank
  repeat' first
    | with_reducible assumption
    | exact List.Subset.trans (by decide) hT
    | with_reducible first | apply Keeps.next | apply State.broadcast_kept | apply State.updRing_kept
    | with_reducible apply Kept.ite

theorem execContactor_kept {L : List Blk} {o : State} (c : Fin 4) (close : Bool) (s : State)
    (hT : [.chn, .evr, .tx] ⊆ L) (hk : Kept L o s) :
    Keeps L o (execContactor c close s) := by
  unfold execContactor
  repeat' first
    | with_reducible first | assumption | apply Keeps.next | apply State.contactor_kept | apply Kept.ite

theorem State.restoreString_kept {L : List Blk} {o : State} (s : State) (c : Fin 4) (hT : [.prot] ⊆ L)
    (hk : Kept L o s) :
    Kept L o (State.restoreString s c) := by
  unfold State.restoreString
  repeat' first
    | with_reducible first | assumption | apply State.updStrProt_kept
    | split

theorem execContactorClosed_kept {L : List Blk} {o : State} (c : Fin 4) (s : State)
    (hT : [.sys, .afe, .loop, .pwm, .fce, .tlk, .chn, .est, .net, .prot, .evr, .tx] ⊆ L) (hk : Kept L o s) :
    Keeps L o (execContactorClosed c s) := by
  unfold execContactorClosed
  repeat' first
    | with_reducible assumption
    | exact List.Subset.trans (by decide) hT
    | ((try lift_lets); intro x; refine Keeps.cut (x := x) ?_ ?_; rotate_left; clear_value x; intro _; rotate_left; unfold x)
    | with_reducible first | apply Keeps.next | apply State.armDone_kept | apply State.ev_kept
    | with_reducible first | apply State.restoreString_kept | apply State.updRing_kept | apply Kept.ite
    | split

theorem execContactorFault_kept {L : List Blk} {o : State} (c : Fin 4) (s : State)
    (hT : [.sys, .afe, .pwm, .fce, .tlk, .chn, .net, .evr, .tx] ⊆ L) (hk : Kept L o s) :
    Keeps L o (execContactorFault c s) := by
  unfold execContactorFault
  repeat' first
    | with_reducible assumption
    | exact List.Subset.trans (by decide) hT
    | ((try lift_lets); intro x; refine Keeps.cut (x := x) ?_ ?_; rotate_left; clear_value x; intro _; rotate_left; unfold x)
    | with_reducible first | apply Keeps.next | apply State.armCheck_kept | apply State.degrade_kept
    | with_reducible first | apply State.ev_kept | apply State.updRing_kept
    | split

theorem State.ctrOpen_kept {L : List Blk} {o : State} (s : State) (c : Fin 4)
    (hT : [.sys, .afe, .loop, .pwm, .fce, .tlk, .chn, .est, .net, .prot, .evr, .tx] ⊆ L) (hk : Kept L o s) :
    Kept L o (State.ctrOpen s c) := by
  unfold State.ctrOpen
  repeat' first
    | with_reducible assumption
    | exact List.Subset.trans (by decide) hT
    | with_reducible first | apply State.contactor_kept | apply State.passageEnd_kept

theorem State.ctrClose_kept {L : List Blk} {o : State} (s : State) (c : Fin 4) (hT : [.chn, .prot, .evr, .tx] ⊆ L)
    (hk : Kept L o s) :
    Kept L o (State.ctrClose s c) := by
  unfold State.ctrClose
  repeat' first
    | with_reducible assumption
    | exact List.Subset.trans (by decide) hT
    | with_reducible first | apply State.contactor_kept | apply State.restoreString_kept | apply Kept.ite

theorem execCtrOpen_kept {L : List Blk} {o : State} (sess : Fin 64) (c : Fin 4) (s : State)
    (hT : [.sys, .afe, .loop, .pwm, .fce, .tlk, .chn, .est, .net, .prot, .evr, .tx] ⊆ L) (hk : Kept L o s) :
    Keeps L o (execCtrOpen sess c s) := by
  unfold execCtrOpen
  repeat' first
    | with_reducible assumption
    | exact List.Subset.trans (by decide) hT
    | refine fun (_ : State) => ?_
    | with_reducible first | apply Keeps.next | exact Kept.rfl | apply State.ctrOpen_kept
    | with_reducible apply State.regCmdAt_kept

theorem execCtrClose_kept {L : List Blk} {o : State} (sess : Fin 64) (c : Fin 4) (s : State)
    (hT : [.sys, .chn, .prot, .evr, .tx] ⊆ L) (hk : Kept L o s) :
    Keeps L o (execCtrClose sess c s) := by
  unfold execCtrClose
  repeat' first
    | with_reducible assumption
    | exact List.Subset.trans (by decide) hT
    | refine fun (_ : State) => ?_
    | with_reducible first | apply Keeps.next | exact Kept.rfl | apply State.ctrClose_kept
    | with_reducible apply State.regCmdAt_kept

theorem execWakeTone_kept {L : List Blk} {o : State} (c : Fin 4) (onA : Bool) (onB : Bool) (lost : List Nat)
    (s : State) (hT : [.chn, .evr, .tx] ⊆ L) (hk : Kept L o s) :
    Keeps L o (execWakeTone c onA onB lost s) := by
  unfold execWakeTone
  repeat' first
    | with_reducible assumption
    | exact List.Subset.trans (by decide) hT
    | ((try lift_lets); intro x; refine Kept.cut (x := x) ?_ ?_; rotate_left; clear_value x; intro _; rotate_left; unfold x)
    | with_reducible apply Kept.foldl
    | refine fun (_ : State) _ => ?_
    | with_reducible first | apply Keeps.next | exact Kept.rfl | apply State.ev_kept | apply State.readdress_kept
    | with_reducible first | apply State.train_kept | apply State.updRing_kept | apply Kept.ite

theorem execShip_kept {L : List Blk} {o : State} (c : Fin 4) (replies : List Sys2Proof.ChainBlock) (s : State)
    (hT : [.chn, .evr, .tx] ⊆ L) (hk : Kept L o s) :
    Keeps L o (execShip c replies s) := by
  unfold execShip
  repeat' first
    | with_reducible assumption
    | exact List.Subset.trans (by decide) hT
    | ((try lift_lets); intro x; refine Kept.cut (x := x) ?_ ?_; rotate_left; clear_value x; intro _; rotate_left; unfold x)
    | with_reducible apply Kept.foldl
    | refine fun (_ : State) _ => ?_
    | with_reducible first | apply Keeps.next | exact Kept.rfl | apply State.shipCheck_kept
    | with_reducible first | apply State.takeReplies_kept | apply State.train2_kept | apply State.updNode_kept
    | with_reducible first | apply State.updRing_kept | apply Kept.ite

theorem execShipIncomplete_kept {L : List Blk} {o : State} (c : Fin 4) (n : Fin 16) (s : State)
    (hT : [.chn, .evr] ⊆ L) (hk : Kept L o s) :
    Keeps L o (execShipIncomplete c n s) := by
  unfold execShipIncomplete
  repeat' first
    | with_reducible assumption
    | exact List.Subset.trans (by decide) hT
    | with_reducible first | apply Keeps.next | apply State.ev_kept | apply State.shipCheck_kept
    | with_reducible first | apply State.updNode_kept | apply Kept.ite

end Sys2Proof.Machine
end

