-- ==== Sys2Proof/Laws/KeptFce.lean ====
section
/-! SUPPORT. What the operations of Machine/Fce.lean keep. -/

set_option linter.unusedTactic false
set_option linter.unreachableTactic false

namespace Sys2Proof.Machine

theorem execForecastEvalDone_kept {L : List Blk} {o : State} (i : Fin 10) (tIn : Nat) (ns : Nat) (s : State)
    (hT : [.fce, .evr, .fv] ⊆ L) (hk : Kept L o s) :
    Keeps L o (execForecastEvalDone i tIn ns s) := by
  unfold execForecastEvalDone
  repeat' first
    | with_reducible first | assumption | apply Keeps.next | apply State.evalDone_kept | apply Kept.ite

theorem execWeightCopyDone_kept {L : List Blk} {o : State} (i : Fin 10) (tIn : Nat) (entry : Nat) (s : State)
    (hT : [.fce] ⊆ L) (hk : Kept L o s) :
    Keeps L o (execWeightCopyDone i tIn entry s) := by
  unfold execWeightCopyDone
  repeat' first
    | with_reducible first | assumption | apply Keeps.next | apply State.copyDone_kept | apply Kept.ite

theorem State.frameCmd_kept {L : List Blk} {o : State} (s : State) (long : Bool) (tIn : Nat) (now : Round → Bool)
    (hT : [.fce, .evr] ⊆ L) (hk : Kept L o s) :
    Kept L o (State.frameCmd s long tIn now) := by
  unfold State.frameCmd
  repeat' first
    | with_reducible first | assumption | apply State.framesAt_kept | apply Kept.ite

theorem execFrameAssembly_kept {L : List Blk} {o : State} (long : Bool) (tIn : Nat) (s : State)
    (hT : [.fce, .evr] ⊆ L) (hk : Kept L o s) :
    Keeps L o (execFrameAssembly long tIn s) := by
  unfold execFrameAssembly
  repeat' first
    | with_reducible first | assumption | apply Keeps.next | apply State.frameCmd_kept

theorem execFrameDeadline_kept {L : List Blk} {o : State} (long : Bool) (tIn : Nat) (s : State)
    (hT : [.fce, .evr] ⊆ L) (hk : Kept L o s) :
    Keeps L o (execFrameDeadline long tIn s) := by
  unfold execFrameDeadline
  repeat' first
    | with_reducible first | assumption | apply Keeps.next | apply State.frameCmd_kept

theorem execLongStale_kept {L : List Blk} {o : State} (s : State) (hT : [.fce, .evr] ⊆ L) (hk : Kept L o s) :
    Keeps L o (execLongStale s) := by
  unfold execLongStale
  repeat' first
    | with_reducible first | assumption | apply Keeps.next | apply State.longStale_kept | apply Kept.ite

theorem execHeadUpdate_kept {L : List Blk} {o : State} (s : State) (hT : [.fce, .evr, .fv] ⊆ L) (hk : Kept L o s) :
    Keeps L o (execHeadUpdate s) := by
  unfold execHeadUpdate
  repeat' first
    | with_reducible first | assumption | apply Keeps.next | apply State.headsAt_kept | apply Kept.ite

theorem execAdaptResumed_kept {L : List Blk} {o : State} (i : Fin 10) (s : State) (hT : [.fce, .evr] ⊆ L)
    (hk : Kept L o s) :
    Keeps L o (execAdaptResumed i s) := by
  unfold execAdaptResumed
  repeat' first
    | with_reducible first | assumption | apply Keeps.next | apply State.adaptResume_kept | apply Kept.ite

theorem State.forecastEnable_kept {L : List Blk} {o : State} (s : State) (v : Bool) (hT : [.fce, .evr] ⊆ L)
    (hk : Kept L o s) :
    Kept L o (State.forecastEnable s v) := by
  unfold State.forecastEnable
  repeat' first
    | with_reducible assumption
    | exact hT (by decide)
    | with_reducible first | apply State.engineSync_kept | apply Kept.of_fce
    | simp only [↓Kept.mk_iff]

theorem execForecastEn_kept {L : List Blk} {o : State} (sess : Fin 64) (v : Bool) (s : State)
    (hT : [.sys, .fce, .evr] ⊆ L) (hk : Kept L o s) :
    Keeps L o (execForecastEn sess v s) := by
  unfold execForecastEn
  repeat' first
    | with_reducible assumption
    | exact List.Subset.trans (by decide) hT
    | refine fun (_ : State) => ?_
    | with_reducible first | apply Keeps.next | exact Kept.rfl | apply State.forecastEnable_kept
    | with_reducible apply State.regCmd_kept

theorem State.adaptEnable_kept {L : List Blk} {o : State} (s : State) (v : Bool) (hT : [.fce] ⊆ L)
    (hk : Kept L o s) :
    Kept L o (State.adaptEnable s v) := by
  unfold State.adaptEnable
  repeat' first
    | with_reducible assumption
    | exact hT (by decide)
    | with_reducible apply Kept.of_fce
    | simp only [↓Kept.mk_iff]

theorem execAdaptEn_kept {L : List Blk} {o : State} (sess : Fin 64) (v : Bool) (s : State) (hT : [.sys, .fce] ⊆ L)
    (hk : Kept L o s) :
    Keeps L o (execAdaptEn sess v s) := by
  unfold execAdaptEn
  repeat' first
    | with_reducible assumption
    | exact List.Subset.trans (by decide) hT
    | refine fun (_ : State) => ?_
    | with_reducible first | apply Keeps.next | exact Kept.rfl | apply State.adaptEnable_kept
    | with_reducible apply State.regCmd_kept

theorem State.revertAll_kept {L : List Blk} {o : State} (s : State) (hT : [.fce, .evr, .fv] ⊆ L) (hk : Kept L o s) :
    Kept L o (State.revertAll s) := by
  unfold State.revertAll
  repeat' first
    | with_reducible first | assumption | apply Kept.foldl
    | refine fun (_ : State) _ => ?_
    | with_reducible first | exact Kept.rfl | apply State.headRevert_kept

theorem execRevertAll_kept {L : List Blk} {o : State} (sess : Fin 64) (s : State)
    (hT : [.sys, .fce, .evr, .fv] ⊆ L) (hk : Kept L o s) :
    Keeps L o (execRevertAll sess s) := by
  unfold execRevertAll
  repeat' first
    | with_reducible assumption
    | exact List.Subset.trans (by decide) hT
    | refine fun (_ : State) => ?_
    | with_reducible first | apply Keeps.next | exact Kept.rfl | apply State.regCmd_kept
    | with_reducible apply State.revertAll_kept

theorem State.adaptDisable_kept {L : List Blk} {o : State} (s : State) (i : Fin 10) (v : Bool) (hT : [.fce] ⊆ L)
    (hk : Kept L o s) :
    Kept L o (State.adaptDisable s i v) := by
  unfold State.adaptDisable
  repeat' first
    | with_reducible first | assumption | apply State.updInst_kept

theorem execAdaptDis_kept {L : List Blk} {o : State} (sess : Fin 64) (i : Fin 10) (v : Bool) (s : State)
    (hT : [.sys, .fce] ⊆ L) (hk : Kept L o s) :
    Keeps L o (execAdaptDis sess i v s) := by
  unfold execAdaptDis
  repeat' first
    | with_reducible assumption
    | exact List.Subset.trans (by decide) hT
    | refine fun (_ : State) => ?_
    | with_reducible first | apply Keeps.next | exact Kept.rfl | apply State.adaptDisable_kept
    | with_reducible apply State.regCmdAt_kept

theorem execRevert_kept {L : List Blk} {o : State} (sess : Fin 64) (i : Fin 10) (s : State)
    (hT : [.sys, .fce, .evr, .fv] ⊆ L) (hk : Kept L o s) :
    Keeps L o (execRevert sess i s) := by
  unfold execRevert
  repeat' first
    | with_reducible assumption
    | exact List.Subset.trans (by decide) hT
    | refine fun (_ : State) => ?_
    | with_reducible first | apply Keeps.next | exact Kept.rfl | apply State.headRevert_kept
    | with_reducible apply State.regCmdAt_kept

end Sys2Proof.Machine
end

