-- ==== Sys2Proof/Laws/KeptEstUpd.lean ====
section
/-! SUPPORT. What the operations of Machine/EstUpd.lean keep. -/

set_option linter.unusedTactic false
set_option linter.unreachableTactic false

namespace Sys2Proof.Machine

theorem State.chargeStep_kept {L : List Blk} {o : State} (s : State) (i : Fin 4) (hT : [.est] ⊆ L)
    (hk : Kept L o s) :
    Kept L o (State.chargeStep s i) := by
  unfold State.chargeStep
  repeat' first
    | with_reducible first | assumption | apply State.updStr_kept
    | simp only [↓Kept.mk_iff]
    | with_reducible apply Kept.ite

theorem State.voltageStep_kept {L : List Blk} {o : State} (s : State) (i : Fin 4) (hT : [.est] ⊆ L)
    (hk : Kept L o s) :
    Kept L o (State.voltageStep s i) := by
  unfold State.voltageStep
  repeat' first
    | with_reducible first | assumption | apply State.updStr_kept

theorem State.flagStep_kept {L : List Blk} {o : State} (s : State) (i : Fin 4) (hT : [.est, .evr] ⊆ L)
    (hk : Kept L o s) :
    Kept L o (State.flagStep s i) := by
  unfold State.flagStep
  repeat' first
    | with_reducible assumption
    | exact List.Subset.trans (by decide) hT
    | with_reducible first | apply State.ev_kept | apply State.updStr_kept
    | simp only [↓Kept.mk_iff]
    | with_reducible apply Kept.ite

theorem State.restStep_kept {L : List Blk} {o : State} (s : State) (i : Fin 4) (hT : [.pwm, .est, .evr] ⊆ L)
    (hk : Kept L o s) :
    Kept L o (State.restStep s i) := by
  unfold State.restStep
  repeat' first
    | with_reducible assumption
    | exact List.Subset.trans (by decide) hT
    | with_reducible first | apply State.takeReading_kept | apply State.updStr_kept
    | simp only [↓Kept.mk_iff]
    | with_reducible apply Kept.ite

theorem State.countStep_kept {L : List Blk} {o : State} (s : State) (i : Fin 4) (hT : [.est] ⊆ L)
    (hk : Kept L o s) :
    Kept L o (State.countStep s i) := by
  unfold State.countStep
  repeat' first
    | with_reducible first | assumption | apply State.updStr_kept

theorem State.estStep_kept {L : List Blk} {o : State} (s : State) (i : Fin 4) (hT : [.pwm, .est, .evr] ⊆ L)
    (hk : Kept L o s) :
    Kept L o (State.estStep s i) := by
  unfold State.estStep
  repeat' first
    | with_reducible assumption
    | exact List.Subset.trans (by decide) hT
    | with_reducible first | apply State.chargeStep_kept | apply State.countStep_kept | apply State.flagStep_kept
    | with_reducible first | apply State.restStep_kept | apply State.voltageStep_kept | apply Kept.ite

theorem State.eclipseReading_kept {L : List Blk} {o : State} (s : State) (i : Fin 4) (hT : [.pwm, .est, .evr] ⊆ L)
    (hk : Kept L o s) :
    Kept L o (State.eclipseReading s i) := by
  unfold State.eclipseReading
  repeat' first
    | with_reducible assumption
    | exact List.Subset.trans (by decide) hT
    | with_reducible first | apply State.takeReading_kept | apply State.updStr_kept

theorem State.abortRests_kept {L : List Blk} {o : State} (s : State) (hT : [.est, .evr] ⊆ L) (hk : Kept L o s) :
    Kept L o (State.abortRests s) := by
  unfold State.abortRests
  repeat' first
    | with_reducible assumption
    | exact List.Subset.trans (by decide) hT
    | with_reducible apply Kept.foldl
    | refine fun (_ : State) _ => ?_
    | with_reducible first | exact Kept.rfl | apply State.ev_kept | apply State.updStr_kept | apply Kept.ite

theorem State.restTry_kept {L : List Blk} {o : State} (s : State) (hT : [.est, .evr] ⊆ L) (hk : Kept L o s) :
    Kept L o (State.restTry s) := by
  unfold State.restTry
  repeat' first
    | with_reducible assumption
    | exact hT (by decide)
    | exact List.Subset.trans (by decide) hT
    | with_reducible first | apply State.ev_kept | apply State.updStr_kept | apply Kept.of_est
    | simp only [↓Kept.mk_iff]
    | with_reducible apply Kept.ite
    | split

theorem State.rotation_kept {L : List Blk} {o : State} (s : State) (hT : [.est, .evr] ⊆ L) (hk : Kept L o s) :
    Kept L o (State.rotation s) := by
  unfold State.rotation
  repeat' first
    | with_reducible assumption
    | exact hT (by decide)
    | with_reducible first | apply State.restTry_kept | apply Kept.of_est
    | simp only [↓Kept.mk_iff]
    | with_reducible apply Kept.ite

theorem State.planWindows_kept {L : List Blk} {o : State} (s : State) (hT : [.est] ⊆ L) (hk : Kept L o s) :
    Kept L o (State.planWindows s) := by
  unfold State.planWindows
  repeat' first
    | with_reducible assumption
    | exact hT (by decide)
    | with_reducible apply Kept.of_est
    | simp only [↓Kept.mk_iff]
    | with_reducible apply Kept.ite

theorem State.planCount_kept {L : List Blk} {o : State} (s : State) (hT : [.est] ⊆ L) (hk : Kept L o s) :
    Kept L o (State.planCount s) := by
  unfold State.planCount
  repeat' first
    | with_reducible assumption
    | exact hT (by decide)
    | with_reducible apply Kept.of_est
    | simp only [↓Kept.mk_iff]

theorem State.planEnergy_kept {L : List Blk} {o : State} (s : State) (hT : [.est, .evr] ⊆ L) (hk : Kept L o s) :
    Kept L o (State.planEnergy s) := by
  unfold State.planEnergy
  repeat' first
    | with_reducible assumption
    | exact hT (by decide)
    | exact List.Subset.trans (by decide) hT
    | ((try lift_lets); intro x; refine Kept.cut (x := x) ?_ ?_; rotate_left; clear_value x; intro _; rotate_left; unfold x)
    | with_reducible apply Kept.foldl
    | refine fun (_ : State) _ => ?_
    | with_reducible first | exact Kept.rfl | apply State.ev_kept | apply State.updStr_kept | apply Kept.of_est
    | simp only [↓Kept.mk_iff]
    | with_reducible apply Kept.ite

theorem State.planGrid_kept {L : List Blk} {o : State} (s : State) (hT : [.est, .evr] ⊆ L) (hk : Kept L o s) :
    Kept L o (State.planGrid s) := by
  unfold State.planGrid
  repeat' first
    | with_reducible assumption
    | exact hT (by decide)
    | exact List.Subset.trans (by decide) hT
    | with_reducible first | apply State.ev_kept | apply Kept.of_est
    | simp only [↓Kept.mk_iff]
    | with_reducible apply Kept.ite

theorem State.planCap_kept {L : List Blk} {o : State} (s : State) (hT : [.tlk, .est, .evr, .tx] ⊆ L)
    (hk : Kept L o s) :
    Kept L o (State.planCap s) := by
  unfold State.planCap
  repeat' first
    | with_reducible assumption
    | exact List.Subset.trans (by decide) hT
    | with_reducible first | exact fun h => h | exact Nat.le_refl _ | apply State.ev_kept
    | with_reducible first | apply State.recompute_kept | apply Kept.of_any
    | (intro b hb; cases b <;> first | exact absurd (hT (by decide)) hb | rfl)
    | simp only [↓Kept.mk_iff]
    | with_reducible apply Kept.ite

theorem State.planOverload_kept {L : List Blk} {o : State} (s : State) (hT : [.tlk, .est, .evr, .tx] ⊆ L)
    (hk : Kept L o s) :
    Kept L o (State.planOverload s) := by
  unfold State.planOverload
  repeat' first
    | with_reducible assumption
    | exact hT (by decide)
    | exact List.Subset.trans (by decide) hT
    | with_reducible first | exact fun h => h | exact Nat.le_refl _ | apply State.ev_kept | apply State.planCap_kept
    | with_reducible first | apply Kept.of_est | apply Kept.of_any
    | (intro b hb; cases b <;> first | exact absurd (hT (by decide)) hb | rfl)
    | simp only [↓Kept.mk_iff]
    | with_reducible apply Kept.ite

theorem State.planRamp_kept {L : List Blk} {o : State} (s : State) (hT : [.est, .evr] ⊆ L) (hk : Kept L o s) :
    Kept L o (State.planRamp s) := by
  unfold State.planRamp
  repeat' first
    | with_reducible assumption
    | exact hT (by decide)
    | exact List.Subset.trans (by decide) hT
    | with_reducible first | apply State.ev_kept | apply Kept.of_est
    | simp only [↓Kept.mk_iff]
    | with_reducible apply Kept.ite

theorem State.planMargin_kept {L : List Blk} {o : State} (s : State) (hT : [.est, .evr] ⊆ L) (hk : Kept L o s) :
    Kept L o (State.planMargin s) := by
  unfold State.planMargin
  repeat' first
    | with_reducible first | assumption | apply State.abortRests_kept | apply Kept.ite

theorem State.planner_kept {L : List Blk} {o : State} (s : State) (hT : [.tlk, .est, .prot, .evr, .tx] ⊆ L)
    (hk : Kept L o s) :
    Kept L o (State.planner s) := by
  unfold State.planner
  repeat' first
    | with_reducible assumption
    | exact hT (by decide)
    | exact List.Subset.trans (by decide) hT
    | with_reducible first | apply State.coolantCheck_kept | apply State.planCount_kept
    | with_reducible first | apply State.planEnergy_kept | apply State.planGrid_kept | apply State.planMargin_kept
    | with_reducible first | apply State.planOverload_kept | apply State.planRamp_kept
    | with_reducible first | apply State.planWindows_kept | apply State.rotation_kept | apply Kept.of_est
    | simp only [↓Kept.mk_iff]
    | with_reducible apply Kept.ite

end Sys2Proof.Machine
end

