-- ==== Sys2Proof/Laws/KeptPower.lean ====
section
/-! SUPPORT. What the operations of Machine/Power.lean keep. -/

set_option linter.unusedTactic false
set_option linter.unreachableTactic false

namespace Sys2Proof.Machine

theorem State.holdOff_kept {L : List Blk} {o : State} (s : State)
    (hT : [.power, .clk, .sys, .sec, .cfg, .afe, .loop, .pwm, .fce, .tlk, .chn, .est, .net, .prot, .mem, .evr, .tx] ⊆ L) (hk : Kept L o s) :
    Kept L o (State.holdOff s) := by
  unfold State.holdOff
  repeat' first
    | with_reducible assumption
    | exact List.Subset.trans (by decide) hT
    | with_reducible first | apply State.afterOff_kept | apply State.gdrvLow_kept | apply State.groupsOff_kept
    | with_reducible apply Kept.ite

theorem execPowerOn_kept {L : List Blk} {o : State} (stby12 : Bool) (s : State)
    (hT : [.power, .clk, .sys, .sec, .cfg, .afe, .loop, .pwm, .fce, .tlk, .chn, .est, .net, .prot, .mem, .evr, .fv] ⊆ L) (hk : Kept L o s) :
    Keeps L o (execPowerOn stby12 s) := by
  unfold execPowerOn
  repeat' first
    | with_reducible assumption
    | exact hT (by decide)
    | exact List.Subset.trans (by decide) hT
    | with_reducible first | apply Keeps.next | apply State.bootFrom_kept | apply State.swapLost_kept
    | with_reducible first | apply State.used_kept | apply Kept.of_power
    | simp only [↓Kept.mk_iff]
    | with_reducible apply Kept.ite

theorem State.linksLost_kept {L : List Blk} {o : State} (s : State) (hT : [.evr] ⊆ L) (hk : Kept L o s) :
    Kept L o (State.linksLost s) := by
  unfold State.linksLost
  repeat' first
    | with_reducible assumption
    | ((try lift_lets); intro x; refine Kept.cut (x := x) ?_ ?_; rotate_left; clear_value x; intro _; rotate_left; unfold x)
    | with_reducible first | apply State.ev_kept | apply Kept.ite

theorem State.shedLoads_kept {L : List Blk} {o : State} (s : State)
    (hT : [.sys, .sec, .fce, .tlk, .chn, .net, .mem, .evr] ⊆ L) (hk : Kept L o s) :
    Kept L o (State.shedLoads s) := by
  unfold State.shedLoads
  have h := State.linksLost_kept _ (List.Subset.trans (by decide) hT) (State.unjoin_kept s (List.Subset.trans (by decide) hT) hk)
  refine Kept.mk_iff.2 (Kept.of_any h (fun b hb => ?_) (fun h => h) (Nat.le_refl _))
  cases b <;> first | exact absurd (hT (by decide)) hb | rfl

theorem State.holdKeys_kept {L : List Blk} {o : State} (s : State) (hT : [.evr] ⊆ L) (hk : Kept L o s) :
    Kept L o (State.holdKeys s) := by
  unfold State.holdKeys
  repeat' first
    | with_reducible assumption
    | exact hT (by decide)
    | with_reducible apply Kept.of_evr
    | simp only [↓Kept.mk_iff]

theorem State.holdFrames_kept {L : List Blk} {o : State} (s : State) (hT : [.evr] ⊆ L) (hk : Kept L o s) :
    Kept L o (State.holdFrames s) := by
  unfold State.holdFrames
  repeat' first
    | with_reducible assumption
    | exact hT (by decide)
    | with_reducible apply Kept.of_evr
    | simp only [↓Kept.mk_iff]

theorem execInputLoss_kept {L : List Blk} {o : State} (s : State)
    (hT : [.power, .sys, .sec, .pwm, .fce, .tlk, .chn, .net, .mem, .evr, .tx] ⊆ L) (hk : Kept L o s) :
    Keeps L o (execInputLoss s) := by
  unfold execInputLoss
  repeat' first
    | with_reducible assumption
    | exact hT (by decide)
    | exact List.Subset.trans (by decide) hT
    | with_reducible first | exact fun h => h | exact Nat.le_refl _ | apply Keeps.next | apply State.ev_kept
    | with_reducible first | apply State.failover_kept | apply State.groupsOff_kept | apply State.holdFrames_kept
    | with_reducible first | apply State.holdKeys_kept | apply State.shedLoads_kept | apply Kept.of_power
    | with_reducible apply Kept.of_any
    | (intro b hb; cases b <;> first | exact absurd (hT (by decide)) hb | rfl)
    | simp only [↓Kept.mk_iff]
    | with_reducible apply Kept.ite

theorem State.closeMarked_kept {L : List Blk} {o : State} (s : State) (hT : [.evr] ⊆ L) (hk : Kept L o s) :
    Kept L o (State.closeMarked s) := by
  unfold State.closeMarked
  repeat' first
    | with_reducible first | assumption | apply Kept.foldl
    | refine fun (_ : State) _ => ?_
    | with_reducible first | exact Kept.rfl | apply State.closeSlot_kept | apply Kept.ite

theorem State.powerDown_kept {L : List Blk} {o : State} (s : State)
    (hT : [.power, .clk, .sys, .sec, .cfg, .afe, .loop, .pwm, .fce, .tlk, .chn, .est, .net, .prot, .mem, .evr] ⊆ L) (hk : Kept L o s) :
    Kept L o (State.powerDown s) := by
  unfold State.powerDown
  repeat' first
    | with_reducible assumption
    | exact hT (by decide)
    | ((try lift_lets); intro x; refine Kept.cut (x := x) ?_ ?_; rotate_left; clear_value x; intro _; rotate_left; unfold x)
    | with_reducible first | apply State.resetTo_kept | apply Kept.of_power
    | simp only [↓Kept.mk_iff]

theorem execInputLossRecordClose_kept {L : List Blk} {o : State} (s : State)
    (hT : [.power, .clk, .sys, .sec, .cfg, .afe, .loop, .pwm, .fce, .tlk, .chn, .est, .net, .prot, .mem, .evr] ⊆ L) (hk : Kept L o s) :
    Keeps L o (execInputLossRecordClose s) := by
  unfold execInputLossRecordClose
  repeat' first
    | with_reducible assumption
    | exact List.Subset.trans (by decide) hT
    | ((try lift_lets); intro x; refine Keeps.cut (x := x) ?_ ?_; rotate_left; clear_value x; intro _; rotate_left; unfold x)
    | with_reducible first | apply Keeps.next | apply State.closeMarked_kept | apply State.doReset_kept
    | with_reducible first | apply State.powerDown_kept | apply Kept.ite

theorem execInputReturn_kept {L : List Blk} {o : State} (s : State) (hT : [.power] ⊆ L) (hk : Kept L o s) :
    Keeps L o (execInputReturn s) := by
  unfold execInputReturn
  repeat' first
    | with_reducible assumption
    | exact hT (by decide)
    | with_reducible first | apply Keeps.next | apply Kept.of_power
    | simp only [↓Kept.mk_iff]
    | with_reducible apply Kept.ite

theorem execMateRelease_kept {L : List Blk} {o : State} (s : State)
    (hT : [.power, .clk, .sys, .sec, .cfg, .afe, .loop, .pwm, .fce, .tlk, .chn, .est, .net, .prot, .mem, .evr, .tx] ⊆ L) (hk : Kept L o s) :
    Keeps L o (execMateRelease s) := by
  unfold execMateRelease
  repeat' first
    | with_reducible assumption
    | exact hT (by decide)
    | with_reducible first | apply Keeps.next | apply State.holdOff_kept | apply Kept.of_power
    | simp only [↓Kept.mk_iff]

theorem execStby12Lost_kept {L : List Blk} {o : State} (s : State) (hT : [.power, .evr] ⊆ L) (hk : Kept L o s) :
    Keeps L o (execStby12Lost s) := by
  unfold execStby12Lost
  repeat' first
    | with_reducible assumption
    | exact hT (by decide)
    | exact List.Subset.trans (by decide) hT
    | with_reducible first | apply Keeps.next | apply State.ev_kept | apply Kept.of_power
    | simp only [↓Kept.mk_iff]
    | with_reducible apply Kept.ite

theorem execStby12Restored_kept {L : List Blk} {o : State} (s : State) (hT : [.power, .evr] ⊆ L) (hk : Kept L o s) :
    Keeps L o (execStby12Restored s) := by
  unfold execStby12Restored
  repeat' first
    | with_reducible assumption
    | exact hT (by decide)
    | exact List.Subset.trans (by decide) hT
    | with_reducible first | apply Keeps.next | apply State.ev_kept | apply Kept.of_power
    | simp only [↓Kept.mk_iff]
    | with_reducible apply Kept.ite

theorem execAux54Brownout_kept {L : List Blk} {o : State} (s : State) (hT : [.power, .evr] ⊆ L) (hk : Kept L o s) :
    Keeps L o (execAux54Brownout s) := by
  unfold execAux54Brownout
  repeat' first
    | with_reducible assumption
    | exact hT (by decide)
    | exact List.Subset.trans (by decide) hT
    | with_reducible first | apply Keeps.next | apply State.ev_kept | apply Kept.of_power
    | simp only [↓Kept.mk_iff]
    | with_reducible apply Kept.ite

theorem execHoldupMeasure_kept {L : List Blk} {o : State} (mJ : BitVec 32) (s : State) (hT : [.power, .evr] ⊆ L)
    (hk : Kept L o s) :
    Keeps L o (execHoldupMeasure mJ s) := by
  unfold execHoldupMeasure
  repeat' first
    | with_reducible assumption
    | exact hT (by decide)
    | exact List.Subset.trans (by decide) hT
    | with_reducible first | apply Keeps.next | apply State.ev_kept | apply Kept.of_power
    | simp only [↓Kept.mk_iff]
    | with_reducible apply Kept.ite

theorem State.toCrystal_kept {L : List Blk} {o : State} (s : State) (hT : [.clk, .evr] ⊆ L) (hk : Kept L o s) :
    Kept L o (State.toCrystal s) := by
  unfold State.toCrystal
  repeat' first
    | with_reducible assumption
    | exact hT (by decide)
    | exact List.Subset.trans (by decide) hT
    | with_reducible first | apply State.ev_kept | apply Kept.of_clk
    | simp only [↓Kept.mk_iff]

theorem State.selectRef_kept {L : List Blk} {o : State} (s : State) (v : Bool) (hT : [.clk, .evr] ⊆ L)
    (hk : Kept L o s) :
    Kept L o (State.selectRef s v) := by
  unfold State.selectRef
  repeat' first
    | with_reducible assumption
    | exact hT (by decide)
    | with_reducible first | apply State.toCrystal_kept | apply Kept.of_clk
    | simp only [↓Kept.mk_iff]
    | with_reducible apply Kept.ite

theorem execRefInLost_kept {L : List Blk} {o : State} (s : State) (hT : [.clk, .evr] ⊆ L) (hk : Kept L o s) :
    Keeps L o (execRefInLost s) := by
  unfold execRefInLost
  repeat' first
    | with_reducible assumption
    | exact hT (by decide)
    | exact List.Subset.trans (by decide) hT
    | with_reducible first | apply Keeps.next | apply State.ev_kept | apply Kept.of_clk
    | simp only [↓Kept.mk_iff]
    | with_reducible apply Kept.ite

theorem execRefFallback_kept {L : List Blk} {o : State} (s : State) (hT : [.clk, .evr] ⊆ L) (hk : Kept L o s) :
    Keeps L o (execRefFallback s) := by
  unfold execRefFallback
  repeat' first
    | with_reducible assumption
    | exact hT (by decide)
    | exact List.Subset.trans (by decide) hT
    | with_reducible first | apply Keeps.next | apply State.ev_kept | apply State.toCrystal_kept | apply Kept.of_clk
    | simp only [↓Kept.mk_iff]
    | with_reducible apply Kept.ite

theorem execRefInRestored_kept {L : List Blk} {o : State} (s : State) (hT : [.clk, .evr] ⊆ L) (hk : Kept L o s) :
    Keeps L o (execRefInRestored s) := by
  unfold execRefInRestored
  repeat' first
    | with_reducible assumption
    | exact hT (by decide)
    | exact List.Subset.trans (by decide) hT
    | with_reducible first | apply Keeps.next | apply State.ev_kept | apply Kept.of_clk
    | simp only [↓Kept.mk_iff]
    | with_reducible apply Kept.ite

theorem State.xtalLost_kept {L : List Blk} {o : State} (s : State) (hT : [.clk, .evr] ⊆ L) (hk : Kept L o s) :
    Kept L o (State.xtalLost s) := by
  unfold State.xtalLost
  repeat' first
    | with_reducible assumption
    | exact hT (by decide)
    | exact List.Subset.trans (by decide) hT
    | with_reducible first | apply State.ev_kept | apply Kept.of_clk
    | simp only [↓Kept.mk_iff]
    | with_reducible apply Kept.ite

theorem execXtalFail_kept {L : List Blk} {o : State} (s : State) (hT : [.clk, .evr] ⊆ L) (hk : Kept L o s) :
    Keeps L o (execXtalFail s) := by
  unfold execXtalFail
  repeat' first
    | with_reducible first | assumption | apply Keeps.next | apply State.xtalLost_kept

theorem execXtalOkRestored_kept {L : List Blk} {o : State} (s : State) (hT : [.clk, .evr] ⊆ L) (hk : Kept L o s) :
    Keeps L o (execXtalOkRestored s) := by
  unfold execXtalOkRestored
  repeat' first
    | with_reducible first | assumption | apply Keeps.next | apply State.toCrystal_kept | apply Kept.ite

theorem execRootUnlock_kept {L : List Blk} {o : State} (s : State)
    (hT : [.clk, .sys, .afe, .pwm, .fce, .tlk, .chn, .net, .evr, .tx] ⊆ L) (hk : Kept L o s) :
    Keeps L o (execRootUnlock s) := by
  unfold execRootUnlock
  repeat' first
    | with_reducible assumption
    | exact List.Subset.trans (by decide) hT
    | with_reducible first | exact fun h => h | exact Nat.le_refl _ | apply Keeps.next | apply State.armCheck_kept
    | with_reducible apply Kept.of_any
    | (intro b hb; cases b <;> first | exact absurd (hT (by decide)) hb | rfl)
    | simp only [↓Kept.mk_iff]
    | with_reducible apply Kept.ite

theorem State.ringRelock_kept {L : List Blk} {o : State} (s : State) (c : Fin 4) (hT : [.chn, .tx] ⊆ L)
    (hk : Kept L o s) :
    Kept L o (State.ringRelock s c) := by
  unfold State.ringRelock
  repeat' first
    | with_reducible assumption
    | exact List.Subset.trans (by decide) hT
    | with_reducible first | apply State.send_kept | apply State.updRing_kept
    | simp only [↓Kept.mk_iff]
    | with_reducible apply Kept.ite

theorem execRootRelock_kept {L : List Blk} {o : State} (s : State) (hT : [.clk, .chn, .prot, .tx] ⊆ L)
    (hk : Kept L o s) :
    Keeps L o (execRootRelock s) := by
  unfold execRootRelock
  repeat' first
    | with_reducible assumption
    | exact List.Subset.trans (by decide) hT
    | with_reducible first | exact fun h => h | exact Nat.le_refl _ | apply Kept.foldl
    | refine fun (_ : State) _ => ?_
    | with_reducible first | apply Keeps.next | exact Kept.rfl | apply State.ringRelock_kept | apply Kept.of_any
    | (intro b hb; cases b <;> first | exact absurd (hT (by decide)) hb | rfl)
    | simp only [↓Kept.mk_iff]
    | with_reducible apply Kept.ite

theorem execServiceAttached_kept {L : List Blk} {o : State} (s : State) (hT : [.power, .evr] ⊆ L)
    (hk : Kept L o s) :
    Keeps L o (execServiceAttached s) := by
  unfold execServiceAttached
  repeat' first
    | with_reducible assumption
    | exact hT (by decide)
    | exact List.Subset.trans (by decide) hT
    | with_reducible first | apply Keeps.next | apply State.ev_kept | apply Kept.of_power
    | simp only [↓Kept.mk_iff]
    | with_reducible apply Kept.ite

theorem State.setTap_kept {L : List Blk} {o : State} (s : State) (i : Sys2Proof.TapInstr) (hT : [.sys] ⊆ L)
    (hk : Kept L o s) :
    Kept L o (State.setTap s i) := by
  unfold State.setTap
  repeat' first
    | with_reducible assumption
    | exact hT (by decide)
    | with_reducible apply Kept.foldl
    | refine fun (_ : State) _ => ?_
    | with_reducible first | exact Kept.rfl | apply State.basaltGdrv_kept | apply State.setGdrv_kept
    | with_reducible apply Kept.of_sys
    | simp only [↓Kept.mk_iff]
    | with_reducible apply Kept.ite

theorem execJtagInstruction_kept {L : List Blk} {o : State} (i : Sys2Proof.TapInstr) (s : State)
    (hT : [.power, .clk, .sys, .sec, .cfg, .afe, .loop, .pwm, .fce, .tlk, .chn, .est, .net, .prot, .mem, .evr, .tx, .fv] ⊆ L) (hk : Kept L o s) :
    Keeps L o (execJtagInstruction i s) := by
  unfold execJtagInstruction
  repeat' first
    | with_reducible assumption
    | exact List.Subset.trans (by decide) hT
    | with_reducible first | exact Keeps.refused | apply Keeps.next | apply State.ev_kept | apply State.holdOff_kept
    | with_reducible first | apply State.send_kept | apply State.setTap_kept | apply State.used_kept
    | with_reducible apply Keeps.ite
    | split

theorem execSvcUartQuery_kept {L : List Blk} {o : State} (s : State) (hT : [.tx, .fv] ⊆ L) (hk : Kept L o s) :
    Keeps L o (execSvcUartQuery s) := by
  unfold execSvcUartQuery
  repeat' first
    | with_reducible assumption
    | exact List.Subset.trans (by decide) hT
    | with_reducible first | apply Keeps.next | apply State.send_kept | apply State.used_kept | apply Kept.ite

theorem execSysStateReq_kept {L : List Blk} {o : State} (sess : Fin 64) (target : BitVec 4) (s : State)
    (hT : [.power, .clk, .sys, .sec, .cfg, .afe, .loop, .pwm, .fce, .tlk, .chn, .est, .net, .prot, .mem, .evr, .tx] ⊆ L) (hk : Kept L o s) :
    Keeps L o (execSysStateReq sess target s) := by
  unfold execSysStateReq
  repeat' first
    | with_reducible assumption
    | exact List.Subset.trans (by decide) hT
    | refine fun (_ : State) => ?_
    | with_reducible first | apply Keeps.next | exact Kept.rfl | apply State.regCmd_kept
    | with_reducible apply State.writeTarget_kept

theorem execArmedPassage_kept {L : List Blk} {o : State} (s : State)
    (hT : [.sys, .afe, .loop, .pwm, .fce, .tlk, .chn, .est, .net, .prot, .evr, .tx] ⊆ L) (hk : Kept L o s) :
    Keeps L o (execArmedPassage s) := by
  unfold execArmedPassage
  repeat' first
    | with_reducible first | assumption | apply Keeps.next | apply State.arm_kept | apply Kept.ite

theorem State.sysReset_kept {L : List Blk} {o : State} (s : State) (kind : Nat)
    (hT : [.power, .clk, .sys, .sec, .cfg, .afe, .loop, .pwm, .fce, .tlk, .chn, .est, .net, .prot, .mem, .evr, .tx] ⊆ L) (hk : Kept L o s) :
    Kept L o (State.sysReset s kind) := by
  unfold State.sysReset
  repeat' first
    | with_reducible assumption
    | exact hT (by decide)
    | exact List.Subset.trans (by decide) hT
    | with_reducible exact Nat.le_refl _
    | ((try lift_lets); intro x; refine Kept.cut (x := x) ?_ ?_; rotate_left; clear_value x; intro _; rotate_left; unfold x)
    | with_reducible first | apply State.doReset_kept | apply State.leaveRun_kept | apply Kept.of_sec
    | simp only [↓Kept.mk_iff]
    | with_reducible apply Kept.ite

theorem execWarmReset_kept {L : List Blk} {o : State} (sess : Fin 64) (s : State)
    (hT : [.power, .clk, .sys, .sec, .cfg, .afe, .loop, .pwm, .fce, .tlk, .chn, .est, .net, .prot, .mem, .evr, .tx] ⊆ L) (hk : Kept L o s) :
    Keeps L o (execWarmReset sess s) := by
  unfold execWarmReset
  repeat' first
    | with_reducible assumption
    | exact List.Subset.trans (by decide) hT
    | refine fun (_ : State) => ?_
    | with_reducible first | apply Keeps.next | exact Kept.rfl | apply State.regCmd_kept | apply State.sysReset_kept

theorem execFullReset_kept {L : List Blk} {o : State} (sess : Fin 64) (s : State)
    (hT : [.power, .clk, .sys, .sec, .cfg, .afe, .loop, .pwm, .fce, .tlk, .chn, .est, .net, .prot, .mem, .evr, .tx] ⊆ L) (hk : Kept L o s) :
    Keeps L o (execFullReset sess s) := by
  unfold execFullReset
  repeat' first
    | with_reducible assumption
    | exact List.Subset.trans (by decide) hT
    | refine fun (_ : State) => ?_
    | with_reducible first | apply Keeps.next | exact Kept.rfl | apply State.regCmd_kept | apply State.sysReset_kept

theorem execWatchdog_kept {L : List Blk} {o : State} (s : State)
    (hT : [.power, .clk, .sys, .sec, .cfg, .afe, .loop, .pwm, .fce, .tlk, .chn, .est, .net, .prot, .mem, .evr, .tx] ⊆ L) (hk : Kept L o s) :
    Keeps L o (execWatchdog s) := by
  unfold execWatchdog
  repeat' first
    | with_reducible assumption
    | exact hT (by decide)
    | with_reducible first | exact Nat.le_refl _ | apply Keeps.next | apply State.watchdogReset_kept
    | with_reducible apply Kept.of_sec
    | simp only [↓Kept.mk_iff]
    | with_reducible apply Kept.ite

theorem execShipReady_kept {L : List Blk} {o : State} (s : State) (hT : [.sec, .evr] ⊆ L) (hk : Kept L o s) :
    Keeps L o (execShipReady s) := by
  unfold execShipReady
  repeat' first
    | with_reducible assumption
    | exact hT (by decide)
    | exact List.Subset.trans (by decide) hT
    | with_reducible first | exact Nat.le_refl _ | apply Keeps.next | apply State.ev_kept | apply Kept.of_sec
    | simp only [↓Kept.mk_iff]
    | with_reducible apply Kept.ite

theorem State.toReturned_kept {L : List Blk} {o : State} (s : State) (hT : [.sec, .net, .evr] ⊆ L)
    (hk : Kept L o s) :
    Kept L o (State.toReturned s) := by
  unfold State.toReturned
  split
  · refine State.ev_kept _ _ _ _ (List.Subset.trans (by decide) hT) ?_
    apply Kept.mk_iff.2
    apply Kept.of_any hk
    · intro b hb; cases b <;> first | exact absurd (hT (by decide)) hb | rfl
    · exact fun h => h
    · simp_all
  · exact hk

theorem execSecLcCtrl_kept {L : List Blk} {o : State} (sess : Fin 64) (s : State)
    (hT : [.sys, .sec, .net, .evr] ⊆ L) (hk : Kept L o s) :
    Keeps L o (execSecLcCtrl sess s) := by
  unfold execSecLcCtrl
  repeat' first
    | with_reducible assumption
    | exact List.Subset.trans (by decide) hT
    | refine fun (_ : State) => ?_
    | with_reducible first | apply Keeps.next | exact Kept.rfl | apply State.regCmd_kept
    | with_reducible apply State.toReturned_kept

end Sys2Proof.Machine
end

