-- ==== Sys2Proof/Laws/KeptPwm.lean ====
section
/-! SUPPORT. What the operations of Machine/Pwm.lean keep. -/

set_option linter.unusedTactic false
set_option linter.unreachableTactic false

namespace Sys2Proof.Machine

theorem State.runningCheck_kept {L : List Blk} {o : State} (s : State) (hT : [.tlk, .evr, .tx] ⊆ L)
    (hk : Kept L o s) :
    Kept L o (State.runningCheck s) := by
  unfold State.runningCheck
  repeat' first
    | with_reducible first | assumption | apply State.clearCause_kept | apply Kept.ite

theorem State.groupDone_kept {L : List Blk} {o : State} (s : State)
    (hT : [.power, .clk, .sys, .sec, .cfg, .afe, .loop, .pwm, .fce, .tlk, .chn, .est, .net, .prot, .mem, .evr, .tx] ⊆ L) (hk : Kept L o s) :
    Kept L o (State.groupDone s) := by
  unfold State.groupDone
  repeat' first
    | with_reducible assumption
    | exact List.Subset.trans (by decide) hT
    | with_reducible first | apply State.afterOff_kept | apply State.runningCheck_kept

theorem execGroupRunning_kept {L : List Blk} {o : State} (g : Fin 4) (s : State)
    (hT : [.pwm, .tlk, .evr, .tx] ⊆ L) (hk : Kept L o s) :
    Keeps L o (execGroupRunning g s) := by
  unfold execGroupRunning
  repeat' first
    | with_reducible assumption
    | exact List.Subset.trans (by decide) hT
    | with_reducible first | apply Keeps.next | apply State.ev_kept | apply State.runningCheck_kept
    | with_reducible first | apply State.updGrp_kept | apply Kept.ite

theorem execGroupStopped_kept {L : List Blk} {o : State} (g : Fin 4) (s : State)
    (hT : [.power, .clk, .sys, .sec, .cfg, .afe, .loop, .pwm, .fce, .tlk, .chn, .est, .net, .prot, .mem, .evr, .tx] ⊆ L) (hk : Kept L o s) :
    Keeps L o (execGroupStopped g s) := by
  unfold execGroupStopped
  repeat' first
    | with_reducible assumption
    | exact List.Subset.trans (by decide) hT
    | with_reducible first | apply Keeps.next | apply State.ev_kept | apply State.groupDone_kept
    | with_reducible first | apply State.groupOff_kept | apply Kept.ite

theorem execShortCircuit_kept {L : List Blk} {o : State} (p : Fin 64) (code : Int) (at_ : Nat) (s : State)
    (hT : [.sys, .pwm, .chn, .prot, .evr] ⊆ L) (hk : Kept L o s) :
    Keeps L o (execShortCircuit p code at_ s) := by
  unfold execShortCircuit
  repeat' first
    | with_reducible assumption
    | exact List.Subset.trans (by decide) hT
    | with_reducible first | apply Keeps.next | apply State.requestDisable_kept | apply State.tripV_kept
    | with_reducible apply State.updPh_kept
    | simp only [↓Kept.mk_iff]
    | with_reducible apply Kept.ite
    | split

theorem execDriverFault_kept {L : List Blk} {o : State} (p : Fin 64) (low : Bool) (at_ : Nat) (s : State)
    (hT : [.sys, .pwm, .chn, .evr] ⊆ L) (hk : Kept L o s) :
    Keeps L o (execDriverFault p low at_ s) := by
  unfold execDriverFault
  repeat' first
    | with_reducible assumption
    | exact List.Subset.trans (by decide) hT
    | with_reducible first | apply Keeps.next | apply State.ev_kept | apply State.requestDisable_kept
    | with_reducible apply State.updPh_kept
    | simp only [↓Kept.mk_iff]
    | with_reducible apply Kept.ite

theorem execPhaseOpen_kept {L : List Blk} {o : State} (p : Fin 64) (s : State) (hT : [.sys, .pwm, .chn, .evr] ⊆ L)
    (hk : Kept L o s) :
    Keeps L o (execPhaseOpen p s) := by
  unfold execPhaseOpen
  repeat' first
    | with_reducible first | assumption | apply Keeps.next | apply State.requestDisable_kept | apply Kept.ite
    | split

theorem execSenseSuspect_kept {L : List Blk} {o : State} (p : Fin 64) (s : State)
    (hT : [.sys, .pwm, .chn, .evr] ⊆ L) (hk : Kept L o s) :
    Keeps L o (execSenseSuspect p s) := by
  unfold execSenseSuspect
  repeat' first
    | with_reducible first | assumption | apply Keeps.next | apply State.requestDisable_kept | apply Kept.ite
    | split

theorem execPhaseDisabled_kept {L : List Blk} {o : State} (p : Fin 64) (s : State)
    (hT : [.power, .clk, .sys, .sec, .cfg, .afe, .loop, .pwm, .fce, .tlk, .chn, .est, .net, .prot, .mem, .evr, .tx] ⊆ L) (hk : Kept L o s) :
    Keeps L o (execPhaseDisabled p s) := by
  unfold execPhaseDisabled
  repeat' first
    | with_reducible assumption
    | exact List.Subset.trans (by decide) hT
    | with_reducible first | apply Keeps.next | apply State.disableNow_kept | apply State.groupDone_kept
    | with_reducible apply Kept.ite

theorem execDisableDroopCheck_kept {L : List Blk} {o : State} (g : Fin 4) (s : State)
    (hT : [.pwm, .tlk, .evr, .tx] ⊆ L) (hk : Kept L o s) :
    Keeps L o (execDisableDroopCheck g s) := by
  unfold execDisableDroopCheck
  repeat' first
    | with_reducible assumption
    | exact List.Subset.trans (by decide) hT
    | with_reducible first | apply Keeps.next | apply State.requestThrottle_kept | apply State.updGrp_kept
    | simp only [↓Kept.mk_iff]
    | with_reducible apply Kept.ite
    | split

theorem State.reFinish_kept {L : List Blk} {o : State} (s : State) (g : Fin 4) (hT : [.pwm, .evr] ⊆ L)
    (hk : Kept L o s) :
    Kept L o (State.reFinish s g) := by
  unfold State.reFinish
  repeat' first
    | with_reducible assumption
    | exact List.Subset.trans (by decide) hT
    | ((try lift_lets); intro x; refine Kept.cut (x := x) ?_ ?_; rotate_left; clear_value x; intro _; rotate_left; unfold x)
    | with_reducible apply Kept.foldl
    | refine fun (_ : State) _ => ?_
    | with_reducible first | exact Kept.rfl | apply State.ev_kept | apply State.updGrp_kept | apply State.updPh_kept
    | with_reducible apply Kept.ite

theorem execReinterleaved_kept {L : List Blk} {o : State} (g : Fin 4) (s : State) (hT : [.pwm, .evr] ⊆ L)
    (hk : Kept L o s) :
    Keeps L o (execReinterleaved g s) := by
  unfold execReinterleaved
  repeat' first
    | with_reducible first | assumption | apply Keeps.next | apply State.reFinish_kept

theorem execDisable_kept {L : List Blk} {o : State} (sess : Fin 64) (p : Fin 64) (s : State)
    (hT : [.sys, .pwm, .chn, .evr] ⊆ L) (hk : Kept L o s) :
    Keeps L o (execDisable sess p s) := by
  unfold execDisable
  repeat' first
    | with_reducible assumption
    | exact List.Subset.trans (by decide) hT
    | refine fun (_ : State) => ?_
    | with_reducible first | apply Keeps.next | exact Kept.rfl | apply State.regCmdAt_kept
    | with_reducible apply State.requestDisable_kept

theorem execReadmit_kept {L : List Blk} {o : State} (sess : Fin 64) (p : Fin 64) (s : State)
    (hT : [.sys, .loop, .pwm, .prot, .evr] ⊆ L) (hk : Kept L o s) :
    Keeps L o (execReadmit sess p s) := by
  unfold execReadmit
  repeat' first
    | with_reducible assumption
    | exact List.Subset.trans (by decide) hT
    | refine fun (_ : State) => ?_
    | with_reducible first | apply Keeps.next | exact Kept.rfl | apply State.readmit_kept
    | with_reducible apply State.regCmdAt_kept

theorem execDeEntered_kept {L : List Blk} {o : State} (g : Fin 4) (s : State) (hT : [.pwm, .evr] ⊆ L)
    (hk : Kept L o s) :
    Keeps L o (execDeEntered g s) := by
  unfold execDeEntered
  repeat' first
    | with_reducible assumption
    | exact List.Subset.trans (by decide) hT
    | with_reducible first | apply Keeps.next | apply State.ev_kept | apply State.updGrp_kept
    | simp only [↓Kept.mk_iff]
    | with_reducible apply Kept.ite

theorem execDeLeft_kept {L : List Blk} {o : State} (g : Fin 4) (s : State) (hT : [.pwm, .evr] ⊆ L)
    (hk : Kept L o s) :
    Keeps L o (execDeLeft g s) := by
  unfold execDeLeft
  repeat' first
    | with_reducible first | assumption | apply Keeps.next | apply State.dropDe_kept | apply Kept.ite

theorem State.fastStart_kept {L : List Blk} {o : State} (s : State) (t : Nat) (p : Fin 64) (hT : [.pwm] ⊆ L)
    (hk : Kept L o s) :
    Kept L o (State.fastStart s t p) := by
  unfold State.fastStart
  repeat' first
    | with_reducible first | assumption | apply State.updPh_kept

theorem execUvFastpath_kept {L : List Blk} {o : State} (g : Fin 4) (at_ : Nat) (s : State) (hT : [.pwm, .evr] ⊆ L)
    (hk : Kept L o s) :
    Keeps L o (execUvFastpath g at_ s) := by
  unfold execUvFastpath
  repeat' first
    | with_reducible assumption
    | exact List.Subset.trans (by decide) hT
    | with_reducible apply Kept.foldl
    | refine fun (_ : State) _ => ?_
    | with_reducible first | apply Keeps.next | exact Kept.rfl | apply State.ev_kept | apply State.fastStart_kept
    | with_reducible apply State.updGrp_kept
    | simp only [↓Kept.mk_iff]
    | with_reducible apply Kept.ite

theorem execThrottleRequested_kept {L : List Blk} {o : State} (g : Fin 4) (s : State)
    (hT : [.pwm, .tlk, .evr, .tx] ⊆ L) (hk : Kept L o s) :
    Keeps L o (execThrottleRequested g s) := by
  unfold execThrottleRequested
  repeat' first
    | with_reducible first | assumption | apply Keeps.next | apply State.requestThrottle_kept | apply Kept.ite

theorem execUvFastpathEnd_kept {L : List Blk} {o : State} (g : Fin 4) (v : Int) (s : State)
    (hT : [.pwm, .tlk, .evr, .tx] ⊆ L) (hk : Kept L o s) :
    Keeps L o (execUvFastpathEnd g v s) := by
  unfold execUvFastpathEnd
  repeat' first
    | with_reducible assumption
    | exact List.Subset.trans (by decide) hT
    | with_reducible first | apply Keeps.next | apply State.fastEnd_kept | apply State.runningCheck_kept
    | simp only [↓Kept.mk_iff]
    | with_reducible apply Kept.ite

theorem execSyncSlewing_kept {L : List Blk} {o : State} (g : Fin 4) (period : Nat) (s : State)
    (hT : [.clk, .pwm] ⊆ L) (hk : Kept L o s) :
    Keeps L o (execSyncSlewing g period s) := by
  unfold execSyncSlewing
  repeat' first
    | with_reducible assumption
    | exact hT (by decide)
    | exact List.Subset.trans (by decide) hT
    | with_reducible first | apply Keeps.next | apply State.updGrp_kept | apply Kept.of_clk
    | simp only [↓Kept.mk_iff]
    | with_reducible apply Kept.ite

theorem execSyncLocked_kept {L : List Blk} {o : State} (g : Fin 4) (edge : Nat) (s : State)
    (hT : [.pwm, .evr] ⊆ L) (hk : Kept L o s) :
    Keeps L o (execSyncLocked g edge s) := by
  unfold execSyncLocked
  repeat' first
    | with_reducible assumption
    | exact List.Subset.trans (by decide) hT
    | with_reducible first | apply Keeps.next | apply State.ev_kept | apply State.updGrp_kept
    | simp only [↓Kept.mk_iff]
    | with_reducible apply Kept.ite

theorem execSyncHoldover_kept {L : List Blk} {o : State} (g : Fin 4) (s : State) (hT : [.clk, .pwm, .evr] ⊆ L)
    (hk : Kept L o s) :
    Keeps L o (execSyncHoldover g s) := by
  unfold execSyncHoldover
  repeat' first
    | with_reducible assumption
    | exact hT (by decide)
    | exact List.Subset.trans (by decide) hT
    | with_reducible first | apply Keeps.next | apply State.ev_kept | apply State.updGrp_kept | apply Kept.of_clk
    | simp only [↓Kept.mk_iff]
    | with_reducible apply Kept.ite

theorem execSyncReturning_kept {L : List Blk} {o : State} (g : Fin 4) (s : State) (hT : [.pwm] ⊆ L)
    (hk : Kept L o s) :
    Keeps L o (execSyncReturning g s) := by
  unfold execSyncReturning
  repeat' first
    | with_reducible first | assumption | apply Keeps.next | apply State.updGrp_kept | apply Kept.ite

theorem execSyncFreeRun_kept {L : List Blk} {o : State} (g : Fin 4) (s : State) (hT : [.pwm, .evr] ⊆ L)
    (hk : Kept L o s) :
    Keeps L o (execSyncFreeRun g s) := by
  unfold execSyncFreeRun
  repeat' first
    | with_reducible assumption
    | exact List.Subset.trans (by decide) hT
    | with_reducible first | apply Keeps.next | apply State.ev_kept | apply State.updGrp_kept | apply Kept.ite

theorem State.nextPeriod_kept {L : List Blk} {o : State} (s : State) (g : Fin 4) (hT : [.fv] ⊆ L)
    (hk : Kept L o s) :
    Kept L o (State.nextPeriod s g).1 := by
  unfold State.nextPeriod
  repeat' first
    | with_reducible first | assumption | apply State.used_kept
    | simp only [↓Kept.mk_iff]
    | split

theorem execPwmFrameStart_kept {L : List Blk} {o : State} (g : Fin 4) (edge : Option Nat) (s : State)
    (hT : [.sys, .pwm, .chn, .evr, .fv] ⊆ L) (hk : Kept L o s) :
    Keeps L o (execPwmFrameStart g edge s) := by
  unfold execPwmFrameStart
  repeat' first
    | with_reducible assumption
    | exact hT (by decide)
    | exact List.Subset.trans (by decide) hT
    | with_reducible first | apply Keeps.next | apply State.nextPeriod_kept | apply State.offWindowCheck_kept
    | with_reducible first | apply State.reFinish_kept | apply State.reStep_kept | apply State.scheduleFrame_kept
    | with_reducible first | apply State.updGrp_kept | apply Kept.of_sys
    | simp only [↓Kept.mk_iff]
    | with_reducible apply Kept.ite

theorem State.setBus_kept {L : List Blk} {o : State} (s : State) (v : Int) (hT : [.pwm, .evr] ⊆ L)
    (hk : Kept L o s) :
    Kept L o (State.setBus s v) := by
  unfold State.setBus
  repeat' first
    | with_reducible assumption
    | exact hT (by decide)
    | exact List.Subset.trans (by decide) hT
    | with_reducible first | apply State.ev_kept | apply Kept.of_pwm
    | simp only [↓Kept.mk_iff]
    | with_reducible apply Kept.ite

theorem execPwmBusSet_kept {L : List Blk} {o : State} (sess : Fin 64) (v : BitVec 32) (s : State)
    (hT : [.sys, .pwm, .evr] ⊆ L) (hk : Kept L o s) :
    Keeps L o (execPwmBusSet sess v s) := by
  unfold execPwmBusSet
  repeat' first
    | with_reducible assumption
    | exact List.Subset.trans (by decide) hT
    | refine fun (_ : State) => ?_
    | with_reducible first | apply Keeps.next | exact Kept.rfl | apply State.regCmd_kept | apply State.setBus_kept

theorem State.psuSend_kept {L : List Blk} {o : State} (s : State) (p : Fin 16) (hT : [.sys, .pwm, .evr, .tx] ⊆ L)
    (hk : Kept L o s) :
    Kept L o (State.psuSend s p) := by
  unfold State.psuSend
  repeat' first
    | with_reducible assumption
    | exact List.Subset.trans (by decide) hT
    | ((try lift_lets); intro x; refine Kept.cut (x := x) ?_ ?_; rotate_left; clear_value x; intro _; rotate_left; unfold x)
    | with_reducible first | apply State.psuMiss_kept | apply State.send_kept | apply State.updPsu_kept
    | with_reducible apply Kept.ite

theorem execPsuCommandFrame_kept {L : List Blk} {o : State} (s : State) (hT : [.sys, .pwm, .evr, .tx] ⊆ L)
    (hk : Kept L o s) :
    Keeps L o (execPsuCommandFrame s) := by
  unfold execPsuCommandFrame
  repeat' first
    | with_reducible assumption
    | exact hT (by decide)
    | with_reducible apply Kept.foldl
    | refine fun (_ : State) _ => ?_
    | with_reducible first | apply Keeps.next | exact Kept.rfl | apply State.psuSend_kept | apply Kept.of_pwm
    | simp only [↓Kept.mk_iff]
    | with_reducible apply Kept.ite

theorem State.psuTake_kept {L : List Blk} {o : State} (s : State) (p : Fin 16) (f : List Byte)
    (hT : [.sys, .pwm, .evr] ⊆ L) (hk : Kept L o s) :
    Kept L o (State.psuTake s p f) := by
  unfold State.psuTake
  repeat' first
    | with_reducible assumption
    | exact List.Subset.trans (by decide) hT
    | with_reducible first | apply State.losePort_kept | apply State.updPsu_kept
    | simp only [↓Kept.mk_iff]
    | with_reducible apply Kept.ite

theorem execPsuTelemetry_kept {L : List Blk} {o : State} (p : Fin 16) (f : List Byte) (s : State)
    (hT : [.sys, .pwm, .evr] ⊆ L) (hk : Kept L o s) :
    Keeps L o (execPsuTelemetry p f s) := by
  unfold execPsuTelemetry
  repeat' first
    | with_reducible assumption
    | exact List.Subset.trans (by decide) hT
    | with_reducible first | apply Keeps.next | apply State.psuMiss_kept | apply State.psuTake_kept
    | with_reducible first | apply State.updPsu_kept | apply Kept.ite

theorem execPsuRestored_kept {L : List Blk} {o : State} (p : Fin 16) (s : State) (hT : [.pwm, .evr] ⊆ L)
    (hk : Kept L o s) :
    Keeps L o (execPsuRestored p s) := by
  unfold execPsuRestored
  repeat' first
    | with_reducible first | assumption | apply Keeps.next | apply State.restorePort_kept | apply Kept.ite

theorem execRestore_kept {L : List Blk} {o : State} (sess : Fin 64) (p : Fin 16) (s : State)
    (hT : [.sys, .pwm, .evr] ⊆ L) (hk : Kept L o s) :
    Keeps L o (execRestore sess p s) := by
  unfold execRestore
  repeat' first
    | with_reducible assumption
    | exact List.Subset.trans (by decide) hT
    | refine fun (_ : State) => ?_
    | with_reducible first | apply Keeps.next | exact Kept.rfl | apply State.regCmdAt_kept
    | with_reducible apply State.restorePort_kept

end Sys2Proof.Machine
end

