-- ==== Sys2Proof/Laws/KeptLoader.lean ====
section
/-! SUPPORT. What the operations of Machine/Loader.lean keep. -/

set_option linter.unusedTactic false
set_option linter.unreachableTactic false

namespace Sys2Proof.Machine

theorem State.loadFailed_kept {L : List Blk} {o : State} (s : State) (f : LoadFail) (hT : [.cfg, .evr] ⊆ L)
    (hk : Kept L o s) :
    Kept L o (State.loadFailed s f) := by
  unfold State.loadFailed
  repeat' first
    | with_reducible assumption
    | exact List.Subset.trans (by decide) hT
    | with_reducible first | apply State.ev_kept | apply State.setResult_kept

theorem State.writeImage_kept {L : List Blk} {o : State} (s : State) (hT : [.prot] ⊆ L) (hk : Kept L o s) :
    Kept L o (State.writeImage s) := by
  unfold State.writeImage
  repeat' first
    | with_reducible assumption
    | exact hT (by decide)
    | with_reducible apply Kept.of_prot
    | simp only [↓Kept.mk_iff]

theorem State.swapCoeff_kept {L : List Blk} {o : State} (s : State) (old : State) (hT : [.loop] ⊆ L)
    (hk : Kept L o s) :
    Kept L o (State.swapCoeff s old) := by
  unfold State.swapCoeff
  repeat' first
    | with_reducible first | assumption | apply Kept.foldl
    | refine fun (_ : State) _ => ?_
    | with_reducible first | exact Kept.rfl | apply State.updSlot_kept | apply Kept.ite

theorem State.swapEstimator_kept {L : List Blk} {o : State} (s : State) (old : State)
    (hT : [.pwm, .est, .evr] ⊆ L) (hk : Kept L o s) :
    Kept L o (State.swapEstimator s old) := by
  unfold State.swapEstimator
  repeat' first
    | with_reducible assumption
    | exact hT (by decide)
    | exact List.Subset.trans (by decide) hT
    | with_reducible apply Kept.foldl
    | refine fun (_ : State) _ => ?_
    | with_reducible first | exact Kept.rfl | apply State.eclipseReading_kept | apply State.updStr_kept
    | with_reducible apply Kept.of_est
    | simp only [↓Kept.mk_iff]
    | with_reducible apply Kept.ite
    | split

theorem State.swapChain_kept {L : List Blk} {o : State} (s : State)
    (hT : [.sys, .afe, .pwm, .fce, .tlk, .chn, .net, .evr, .tx] ⊆ L) (hk : Kept L o s) :
    Kept L o (State.swapChain s) := by
  unfold State.swapChain
  repeat' first
    | with_reducible assumption
    | exact List.Subset.trans (by decide) hT
    | with_reducible apply Kept.foldl
    | refine fun (_ : State) _ => ?_
    | with_reducible first | exact Kept.rfl | apply State.armCheck_kept | apply State.ringsCheck_kept
    | with_reducible first | apply State.updRing_kept | apply Kept.ite

theorem State.swapParam_kept {L : List Blk} {o : State} (s : State) (old : State)
    (hT : [.clk, .sys, .net, .evr] ⊆ L) (hk : Kept L o s) :
    Kept L o (State.swapParam s old) := by
  unfold State.swapParam
  repeat' first
    | with_reducible assumption
    | exact List.Subset.trans (by decide) hT
    | ((try lift_lets); intro x; refine Kept.cut (x := x) ?_ ?_; rotate_left; clear_value x; intro _; rotate_left; unfold x)
    | with_reducible first | apply State.selectRef_kept | apply State.unjoin_kept | apply Kept.ite

theorem State.swapRates_kept {L : List Blk} {o : State} (s : State) (hT : [.evr] ⊆ L) (hk : Kept L o s) :
    Kept L o (State.swapRates s) := by
  unfold State.swapRates
  repeat' first
    | with_reducible assumption
    | exact hT (by decide)
    | with_reducible apply Kept.of_evr
    | simp only [↓Kept.mk_iff]

theorem State.swapBlocks_kept {L : List Blk} {o : State} (s : State) (old : State) (full : Bool)
    (carried : Nat → Bool)
    (hT : [.clk, .sys, .afe, .loop, .pwm, .fce, .tlk, .chn, .est, .net, .prot, .evr, .tx, .fv] ⊆ L)
    (hk : Kept L o s) :
    Kept L o (State.swapBlocks s old full carried) := by
  unfold State.swapBlocks
  repeat' first
    | with_reducible assumption
    | exact List.Subset.trans (by decide) hT
    | ((try lift_lets); intro x; refine Kept.cut (x := x) ?_ ?_; rotate_left; clear_value x; intro _; rotate_left; unfold x)
    | with_reducible first | apply State.judgeLimits_kept | apply State.modelSwap_kept
    | with_reducible first | apply State.phasesActivate_kept | apply State.portsActivate_kept
    | with_reducible first | apply State.psusActivate_kept | apply State.regrant_kept | apply State.setBus_kept
    | with_reducible first | apply State.swapChain_kept | apply State.swapCoeff_kept
    | with_reducible first | apply State.swapEstimator_kept | apply State.swapParam_kept
    | with_reducible first | apply State.swapRates_kept | apply Kept.ite

theorem State.writeMirror_kept {L : List Blk} {o : State} (s : State) (sections : List Section)
    (digest : List Byte) (hT : [.tlk] ⊆ L) (hk : Kept L o s) :
    Kept L o (State.writeMirror s sections digest) := by
  unfold State.writeMirror
  repeat' first
    | with_reducible assumption
    | exact hT (by decide)
    | with_reducible apply Kept.of_tlk
    | simp only [↓Kept.mk_iff]

theorem State.raiseFirmware_kept {L : List Blk} {o : State} (s : State) (hT : [.sec, .evr] ⊆ L) (hk : Kept L o s) :
    Kept L o (State.raiseFirmware s) := by
  unfold State.raiseFirmware
  repeat' first
    | with_reducible assumption
    | exact hT (by decide)
    | exact List.Subset.trans (by decide) hT
    | with_reducible first | exact Nat.le_refl _ | apply State.ev_kept | apply Kept.of_sec
    | simp only [↓Kept.mk_iff]
    | with_reducible apply Kept.ite

theorem State.takeSections_kept {L : List Blk} {o : State} (s : State) (im : Image) (n : Nat) (hT : [.cfg] ⊆ L)
    (hk : Kept L o s) :
    Kept L o (State.takeSections s im n) := by
  unfold State.takeSections
  repeat' first
    | with_reducible assumption
    | exact hT (by decide)
    | with_reducible apply Kept.of_cfg
    | simp only [↓Kept.mk_iff]

theorem State.noteStore_kept {L : List Blk} {o : State} (s : State) (im : Image) (hT : [.cfg] ⊆ L)
    (hk : Kept L o s) :
    Kept L o (State.noteStore s im) := by
  unfold State.noteStore
  repeat' first
    | with_reducible assumption
    | exact hT (by decide)
    | with_reducible apply Kept.of_cfg
    | simp only [↓Kept.mk_iff]

theorem State.leaveBoot_kept {L : List Blk} {o : State} (s : State) (hT : [.sys, .sec, .chn, .evr, .tx] ⊆ L)
    (hk : Kept L o s) :
    Kept L o (State.leaveBoot s) := by
  unfold State.leaveBoot
  repeat' first
    | with_reducible assumption
    | exact List.Subset.trans (by decide) hT
    | with_reducible first | apply State.raiseFirmware_kept | apply State.ringsCheck_kept
    | with_reducible first | apply State.setState_kept | apply Kept.ite

theorem State.applyImage_kept {L : List Blk} {o : State} (s : State) (im : Image) (n : Nat)
    (hT : [.clk, .sys, .sec, .cfg, .afe, .loop, .pwm, .fce, .tlk, .chn, .est, .net, .prot, .evr, .tx, .fv] ⊆ L)
    (hk : Kept L o s) :
    Kept L o (State.applyImage s im n) := by
  unfold State.applyImage
  repeat' first
    | with_reducible assumption
    | exact List.Subset.trans (by decide) hT
    | with_reducible first | apply State.ev_kept | apply State.leaveBoot_kept | apply State.noteStore_kept
    | with_reducible first | apply State.setResult_kept | apply State.swapBlocks_kept
    | with_reducible first | apply State.takeSections_kept | apply State.writeImage_kept
    | with_reducible apply State.writerStart_kept

theorem State.applySlot_kept {L : List Blk} {o : State} (s : State) (im : Image)
    (hT : [.clk, .sys, .sec, .cfg, .afe, .loop, .pwm, .fce, .tlk, .chn, .est, .net, .prot, .evr, .tx, .fv] ⊆ L)
    (hk : Kept L o s) :
    Kept L o (State.applySlot s im) := by
  unfold State.applySlot
  repeat' first
    | with_reducible assumption
    | exact hT (by decide)
    | exact List.Subset.trans (by decide) hT
    | with_reducible first | apply State.applyImage_kept | apply State.writeMirror_kept | apply Kept.of_cfg
    | simp only [↓Kept.mk_iff]
    | with_reducible apply Kept.ite

theorem State.trySlot_kept {L : List Blk} {o : State} (s : State) (b : Bool) (hT : [.cfg, .evr] ⊆ L)
    (hk : Kept L o s) :
    Kept L o (State.trySlot s b).1 := by
  unfold State.trySlot
  repeat' first
    | with_reducible first | assumption | apply State.loadFailed_kept
    | split

theorem State.loadSlots_kept {L : List Blk} {o : State} (s : State) (ok : State → Bool → State) (fail2 : Nat)
    (hT : [.clk, .sys, .sec, .cfg, .afe, .loop, .pwm, .fce, .tlk, .chn, .est, .net, .prot, .evr, .tx, .fv] ⊆ L)
    (hok : ∀ (s : State) a, Kept L s (ok s a)) (hk : Kept L o s) :
    Kept L o (State.loadSlots s ok fail2) := by
  unfold State.loadSlots
  repeat' first
    | with_reducible assumption
    | exact List.Subset.trans (by decide) hT
    | with_reducible first | apply State.applySlot_kept | apply State.ev_kept | apply State.trySlot_kept
    | with_reducible apply Kept.app2 hok
    | simp only [↓Kept.mk_iff]
    | with_reducible refine Kept.fst ‹_› ?_
    | split

theorem execBootConfigLoad_kept {L : List Blk} {o : State} (s : State)
    (hT : [.clk, .sys, .sec, .cfg, .afe, .loop, .pwm, .fce, .tlk, .chn, .est, .net, .prot, .evr, .tx, .fv] ⊆ L)
    (hk : Kept L o s) :
    Keeps L o (execBootConfigLoad s) := by
  unfold execBootConfigLoad
  repeat' first
    | with_reducible assumption
    | exact hT (by decide)
    | refine fun (_ : State) _ => ?_
    | with_reducible first | apply Keeps.next | exact Kept.rfl | apply State.loadSlots_kept | apply Kept.of_cfg
    | simp only [↓Kept.mk_iff]
    | with_reducible apply Kept.ite

theorem execConfigReloaded_kept {L : List Blk} {o : State} (s : State)
    (hT : [.clk, .sys, .sec, .cfg, .afe, .loop, .pwm, .fce, .tlk, .chn, .est, .net, .prot, .evr, .tx, .fv] ⊆ L)
    (hk : Kept L o s) :
    Keeps L o (execConfigReloaded s) := by
  unfold execConfigReloaded
  repeat' first
    | with_reducible assumption
    | exact hT (by decide)
    | exact List.Subset.trans (by decide) hT
    | ((try lift_lets); intro x; refine Keeps.cut (x := x) ?_ ?_; rotate_left; clear_value x; intro _; rotate_left; unfold x)
    | refine fun (_ : State) _ => ?_
    | with_reducible first | apply Keeps.next | exact Kept.rfl | apply State.causeClear_kept | apply State.ev_kept
    | with_reducible first | apply State.loadSlots_kept | apply Kept.of_prot
    | simp only [↓Kept.mk_iff]
    | with_reducible apply Kept.ite

theorem execShadowReady_kept {L : List Blk} {o : State} (s : State) (hT : [.cfg, .evr] ⊆ L) (hk : Kept L o s) :
    Keeps L o (execShadowReady s) := by
  unfold execShadowReady
  repeat' first
    | with_reducible assumption
    | exact hT (by decide)
    | exact List.Subset.trans (by decide) hT
    | with_reducible first | apply Keeps.next | apply State.ev_kept | apply State.loadFailed_kept
    | with_reducible first | apply State.setResult_kept | apply Kept.of_cfg
    | simp only [↓Kept.mk_iff]
    | with_reducible apply Kept.ite
    | split

theorem State.dropShadow_kept {L : List Blk} {o : State} (s : State) (hT : [.cfg, .evr] ⊆ L) (hk : Kept L o s) :
    Kept L o (State.dropShadow s) := by
  unfold State.dropShadow
  repeat' first
    | with_reducible assumption
    | exact hT (by decide)
    | exact List.Subset.trans (by decide) hT
    | with_reducible first | apply State.ev_kept | apply Kept.of_cfg
    | simp only [↓Kept.mk_iff]

theorem State.discard_kept {L : List Blk} {o : State} (s : State) (hT : [.cfg, .evr] ⊆ L) (hk : Kept L o s) :
    Kept L o (State.discard s) := by
  unfold State.discard
  repeat' first
    | with_reducible assumption
    | exact hT (by decide)
    | ((try lift_lets); intro x; refine Kept.cut (x := x) ?_ ?_; rotate_left; clear_value x; intro _; rotate_left; unfold x)
    | with_reducible first | apply State.cancelSwap_kept | apply State.dropShadow_kept | apply Kept.of_cfg
    | simp only [↓Kept.mk_iff]
    | split

theorem execDiscard_kept {L : List Blk} {o : State} (sess : Fin 64) (s : State) (hT : [.sys, .cfg, .evr] ⊆ L)
    (hk : Kept L o s) :
    Keeps L o (execDiscard sess s) := by
  unfold execDiscard
  repeat' first
    | with_reducible assumption
    | exact List.Subset.trans (by decide) hT
    | refine fun (_ : State) => ?_
    | with_reducible first | apply Keeps.next | exact Kept.rfl | apply State.discard_kept | apply State.regCmd_kept

theorem execShadowEcc_kept {L : List Blk} {o : State} (s : State) (hT : [.cfg, .evr] ⊆ L) (hk : Kept L o s) :
    Keeps L o (execShadowEcc s) := by
  unfold execShadowEcc
  repeat' first
    | with_reducible assumption
    | exact List.Subset.trans (by decide) hT
    | with_reducible first | apply Keeps.next | apply State.cancelSwap_kept | apply State.dropShadow_kept
    | with_reducible first | apply State.eccLost_kept | apply State.setResult_kept | apply Kept.ite

theorem State.swapTickLo_kept {L : List Blk} {o : State} (s : State) (v : Nat) (hT : [.cfg] ⊆ L) (hk : Kept L o s) :
    Kept L o (State.swapTickLo s v) := by
  unfold State.swapTickLo
  repeat' first
    | with_reducible assumption
    | exact hT (by decide)
    | with_reducible apply Kept.of_cfg
    | simp only [↓Kept.mk_iff]

theorem State.swapTickHi_kept {L : List Blk} {o : State} (s : State) (v : Nat) (hT : [.cfg] ⊆ L) (hk : Kept L o s) :
    Kept L o (State.swapTickHi s v) := by
  unfold State.swapTickHi
  repeat' first
    | with_reducible assumption
    | exact hT (by decide)
    | with_reducible apply Kept.of_cfg
    | simp only [↓Kept.mk_iff]

theorem execCfgSwapTick_kept {L : List Blk} {o : State} (sess : Fin 64) (hi : Bool) (v : BitVec 32) (s : State)
    (hT : [.sys, .cfg] ⊆ L) (hk : Kept L o s) :
    Keeps L o (execCfgSwapTick sess hi v s) := by
  unfold execCfgSwapTick
  repeat' first
    | with_reducible assumption
    | exact List.Subset.trans (by decide) hT
    | refine fun (_ : State) => ?_
    | with_reducible first | apply Keeps.next | exact Kept.rfl | apply State.regCmd_kept
    | with_reducible first | apply State.swapTickHi_kept | apply State.swapTickLo_kept | apply Kept.ite

theorem State.requestSwap_kept {L : List Blk} {o : State} (s : State) (hT : [.cfg] ⊆ L) (hk : Kept L o s) :
    Kept L o (State.requestSwap s) := by
  unfold State.requestSwap
  repeat' first
    | with_reducible assumption
    | exact hT (by decide)
    | with_reducible apply Kept.of_cfg
    | simp only [↓Kept.mk_iff]
    | with_reducible apply Kept.ite

theorem execSwap_kept {L : List Blk} {o : State} (sess : Fin 64) (s : State) (hT : [.sys, .cfg] ⊆ L)
    (hk : Kept L o s) :
    Keeps L o (execSwap sess s) := by
  unfold execSwap
  repeat' first
    | with_reducible assumption
    | exact List.Subset.trans (by decide) hT
    | refine fun (_ : State) => ?_
    | with_reducible first | apply Keeps.next | exact Kept.rfl | apply State.regCmd_kept
    | with_reducible apply State.requestSwap_kept

theorem State.swapAt_kept {L : List Blk} {o : State} (s : State) (n : Nat)
    (hT : [.clk, .sys, .sec, .cfg, .afe, .loop, .pwm, .fce, .tlk, .chn, .est, .net, .prot, .evr, .tx, .fv] ⊆ L)
    (hk : Kept L o s) :
    Kept L o (State.swapAt s n) := by
  unfold State.swapAt
  repeat' first
    | with_reducible assumption
    | exact hT (by decide)
    | exact List.Subset.trans (by decide) hT
    | with_reducible first | apply State.applyImage_kept | apply State.cancelSwap_kept | apply State.dropShadow_kept
    | with_reducible first | apply State.setResult_kept | apply Kept.of_cfg
    | simp only [↓Kept.mk_iff]
    | with_reducible apply Kept.ite
    | split

theorem execSwapped_kept {L : List Blk} {o : State} (s : State)
    (hT : [.clk, .sys, .sec, .cfg, .afe, .loop, .pwm, .fce, .tlk, .chn, .est, .net, .prot, .evr, .tx, .fv] ⊆ L)
    (hk : Kept L o s) :
    Keeps L o (execSwapped s) := by
  unfold execSwapped
  repeat' first
    | with_reducible first | assumption | apply Keeps.next | apply State.swapAt_kept | apply Kept.ite

theorem execStored_kept {L : List Blk} {o : State} (s : State) (hT : [.sec, .cfg, .tlk, .evr] ⊆ L)
    (hk : Kept L o s) :
    Keeps L o (execStored s) := by
  unfold execStored
  repeat' first
    | with_reducible assumption
    | exact hT (by decide)
    | exact List.Subset.trans (by decide) hT
    | with_reducible first | exact Nat.le_refl _ | apply Keeps.next | apply State.ev_kept
    | with_reducible first | apply State.writeMirror_kept | apply Kept.of_sec | apply Kept.of_cfg
    | simp only [↓Kept.mk_iff]
    | with_reducible apply Kept.ite
    | split

theorem execConfigEccCorrected_kept {L : List Blk} {o : State} (s : State) (hT : [.cfg, .evr] ⊆ L)
    (hk : Kept L o s) :
    Keeps L o (execConfigEccCorrected s) := by
  unfold execConfigEccCorrected
  repeat' first
    | with_reducible assumption
    | exact hT (by decide)
    | exact List.Subset.trans (by decide) hT
    | with_reducible first | apply Keeps.next | apply State.eccFixed_kept | apply State.ev_kept | apply Kept.of_cfg
    | simp only [↓Kept.mk_iff]
    | with_reducible apply Kept.ite

theorem State.configFault_kept {L : List Blk} {o : State} (s : State)
    (hT : [.power, .clk, .sys, .sec, .cfg, .afe, .loop, .pwm, .fce, .tlk, .chn, .est, .net, .prot, .mem, .evr, .tx, .fv] ⊆ L) (hk : Kept L o s) :
    Kept L o (State.configFault s) := by
  unfold State.configFault
  repeat' first
    | with_reducible assumption
    | exact hT (by decide)
    | exact List.Subset.trans (by decide) hT
    | with_reducible first | apply State.basaltCause_kept | apply State.ev_kept | apply Kept.of_cfg
    | simp only [↓Kept.mk_iff]

theorem execConfigCrcSweep_kept {L : List Blk} {o : State} (ok : Bool) (s : State)
    (hT : [.power, .clk, .sys, .sec, .cfg, .afe, .loop, .pwm, .fce, .tlk, .chn, .est, .net, .prot, .mem, .evr, .tx, .fv] ⊆ L) (hk : Kept L o s) :
    Keeps L o (execConfigCrcSweep ok s) := by
  unfold execConfigCrcSweep
  repeat' first
    | with_reducible first | assumption | apply Keeps.next | apply State.configFault_kept | apply Kept.ite

theorem State.fwSlotFailed_kept {L : List Blk} {o : State} (s : State) (b : Bool) (step : Nat)
    (hT : [.sec, .evr] ⊆ L) (hk : Kept L o s) :
    Kept L o (State.fwSlotFailed s b step) := by
  unfold State.fwSlotFailed
  repeat' first
    | with_reducible assumption
    | exact hT (by decide)
    | exact List.Subset.trans (by decide) hT
    | with_reducible first | exact Nat.le_refl _ | apply State.ev_kept | apply Kept.of_sec
    | simp only [↓Kept.mk_iff]

theorem State.fwStart_kept {L : List Blk} {o : State} (s : State) (b : Bool) (fallback : Bool) (keys : Bool)
    (hT : [.sec, .evr] ⊆ L) (hk : Kept L o s) :
    Kept L o (State.fwStart s b fallback keys) := by
  unfold State.fwStart
  repeat' first
    | with_reducible assumption
    | exact hT (by decide)
    | exact List.Subset.trans (by decide) hT
    | with_reducible first | exact Nat.le_refl _ | apply State.ev_kept | apply Kept.of_sec
    | simp only [↓Kept.mk_iff]

theorem execFwVerified_kept {L : List Blk} {o : State} (keys : Bool) (s : State) (hT : [.sec, .evr] ⊆ L)
    (hk : Kept L o s) :
    Keeps L o (execFwVerified keys s) := by
  unfold execFwVerified
  repeat' first
    | with_reducible assumption
    | exact hT (by decide)
    | exact List.Subset.trans (by decide) hT
    | with_reducible first | exact Nat.le_refl _ | apply Keeps.next | apply State.ev_kept
    | with_reducible first | apply State.fwSlotFailed_kept | apply State.fwStart_kept | apply Kept.of_sec
    | simp only [↓Kept.mk_iff]
    | with_reducible apply Kept.ite

theorem execFwStaged_kept {L : List Blk} {o : State} (s : State)
    (hT : [.power, .clk, .sys, .sec, .cfg, .afe, .loop, .pwm, .fce, .tlk, .chn, .est, .net, .prot, .mem, .evr] ⊆ L) (hk : Kept L o s) :
    Keeps L o (execFwStaged s) := by
  unfold execFwStaged
  repeat' first
    | with_reducible assumption
    | exact hT (by decide)
    | exact List.Subset.trans (by decide) hT
    | with_reducible first | exact Nat.le_refl _ | apply Keeps.next | apply State.doReset_kept | apply State.ev_kept
    | with_reducible apply Kept.of_sec
    | simp only [↓Kept.mk_iff]
    | with_reducible apply Kept.ite
    | split

theorem State.fwDiscard_kept {L : List Blk} {o : State} (s : State) (hT : [.sec] ⊆ L) (hk : Kept L o s) :
    Kept L o (State.fwDiscard s) := by
  unfold State.fwDiscard
  repeat' first
    | with_reducible assumption
    | exact hT (by decide)
    | with_reducible first | exact Nat.le_refl _ | apply Kept.of_sec
    | simp only [↓Kept.mk_iff]
    | with_reducible apply Kept.ite

theorem execFwDiscard_kept {L : List Blk} {o : State} (sess : Fin 64) (s : State) (hT : [.sys, .sec] ⊆ L)
    (hk : Kept L o s) :
    Keeps L o (execFwDiscard sess s) := by
  unfold execFwDiscard
  repeat' first
    | with_reducible assumption
    | exact List.Subset.trans (by decide) hT
    | refine fun (_ : State) => ?_
    | with_reducible first | apply Keeps.next | exact Kept.rfl | apply State.fwDiscard_kept
    | with_reducible apply State.regCmd_kept

theorem State.readyCheck_kept {L : List Blk} {o : State} (s : State) (hT : [.net] ⊆ L) (hk : Kept L o s) :
    Kept L o (State.readyCheck s) := by
  unfold State.readyCheck
  repeat' first
    | with_reducible assumption
    | exact hT (by decide)
    | with_reducible apply Kept.of_net
    | simp only [↓Kept.mk_iff]
    | with_reducible apply Kept.ite

theorem execNetReady_kept {L : List Blk} {o : State} (s : State) (hT : [.sec, .net] ⊆ L) (hk : Kept L o s) :
    Keeps L o (execNetReady s) := by
  unfold execNetReady
  repeat' first
    | with_reducible assumption
    | exact hT (by decide)
    | exact List.Subset.trans (by decide) hT
    | with_reducible first | exact Nat.le_refl _ | apply Keeps.next | apply State.readyCheck_kept
    | with_reducible apply Kept.of_sec
    | simp only [↓Kept.mk_iff]
    | with_reducible apply Kept.ite

end Sys2Proof.Machine
end

