-- ==== Sys2Proof/Laws/KeptTray.lean ====
section
/-! SUPPORT. What the operations of Machine/Tray.lean keep. -/

set_option linter.unusedTactic false
set_option linter.unreachableTactic false

namespace Sys2Proof.Machine

theorem execTrayPortsUp_kept {L : List Blk} {o : State} (s : State) (hT : [.tlk, .net] ⊆ L) (hk : Kept L o s) :
    Keeps L o (execTrayPortsUp s) := by
  unfold execTrayPortsUp
  repeat' first
    | with_reducible first | assumption | exact fun h => h | exact Nat.le_refl _ | apply Keeps.next
    | with_reducible apply Kept.of_any
    | (intro b hb; cases b <;> first | exact absurd (hT (by decide)) hb | rfl)
    | simp only [↓Kept.mk_iff]
    | with_reducible apply Kept.ite

theorem execNotReadyGrant_kept {L : List Blk} {o : State} (n : Fin 64) (s : State) (hT : [.tlk, .tx] ⊆ L)
    (hk : Kept L o s) :
    Keeps L o (execNotReadyGrant n s) := by
  unfold execNotReadyGrant
  repeat' first
    | with_reducible first | assumption | apply Keeps.next | apply State.sendGrant_kept | apply Kept.ite

theorem execLinkUp_kept {L : List Blk} {o : State} (n : Fin 64) (s : State) (hT : [.tlk, .evr, .tx] ⊆ L)
    (hk : Kept L o s) :
    Keeps L o (execLinkUp n s) := by
  unfold execLinkUp
  repeat' first
    | with_reducible assumption
    | exact List.Subset.trans (by decide) hT
    | with_reducible first | apply Keeps.next | apply State.ev_kept | apply State.sendGrant_kept
    | with_reducible apply State.updPort_kept
    | simp only [↓Kept.mk_iff]
    | with_reducible apply Keeps.ite

theorem execLinkDown_kept {L : List Blk} {o : State} (n : Fin 64) (s : State) (hT : [.tlk, .evr, .tx] ⊆ L)
    (hk : Kept L o s) :
    Keeps L o (execLinkDown n s) := by
  unfold execLinkDown
  repeat' first
    | with_reducible assumption
    | exact List.Subset.trans (by decide) hT
    | with_reducible first | apply Keeps.next | apply State.ev_kept | apply State.settle_kept
    | with_reducible first | apply State.unserve_kept | apply State.updPort_kept
    | simp only [↓Kept.mk_iff]
    | with_reducible apply Keeps.ite

theorem execLinkGlitch_kept {L : List Blk} {o : State} (n : Fin 64) (s : State) (hT : [.tlk, .evr] ⊆ L)
    (hk : Kept L o s) :
    Keeps L o (execLinkGlitch n s) := by
  unfold execLinkGlitch
  repeat' first
    | with_reducible assumption
    | exact List.Subset.trans (by decide) hT
    | with_reducible first | apply Keeps.next | apply State.ev_kept | apply State.updPort_kept | apply Keeps.ite

theorem State.frameDrop_kept {L : List Blk} {o : State} (s : State) (p : Nat) (hT : [.fce] ⊆ L) (hk : Kept L o s) :
    Kept L o (State.frameDrop s p) := by
  unfold State.frameDrop
  repeat' first
    | with_reducible assumption
    | exact hT (by decide)
    | with_reducible apply Kept.of_fce
    | simp only [↓Kept.mk_iff]

theorem execSurpriseRemoval_kept {L : List Blk} {o : State} (n : Fin 64) (s : State)
    (hT : [.sys, .fce, .tlk, .evr, .tx] ⊆ L) (hk : Kept L o s) :
    Keeps L o (execSurpriseRemoval n s) := by
  unfold execSurpriseRemoval
  repeat' first
    | with_reducible assumption
    | exact List.Subset.trans (by decide) hT
    | with_reducible first | apply Keeps.next | apply State.degrade_kept | apply State.ev_kept
    | with_reducible first | apply State.frameDrop_kept | apply State.purgeTray_kept | apply State.settle_kept
    | with_reducible first | apply State.syncOverShare_kept | apply State.updPort_kept
    | simp only [↓Kept.mk_iff]
    | with_reducible first | apply Kept.ite | apply Keeps.ite

theorem State.noteIdent_kept {L : List Blk} {o : State} (s : State) (n : Fin 64) (f : Sys2Proof.IdentFrame)
    (hT : [.tlk, .evr] ⊆ L) (hk : Kept L o s) :
    Kept L o (State.noteIdent s n f) := by
  unfold State.noteIdent
  repeat' first
    | with_reducible assumption
    | exact List.Subset.trans (by decide) hT
    | with_reducible first | apply State.ev_kept | apply State.updPort_kept

theorem execIdent_kept {L : List Blk} {o : State} (n : Fin 64) (f : Sys2Proof.IdentFrame) (s : State)
    (hT : [.tlk, .evr, .tx] ⊆ L) (hk : Kept L o s) :
    Keeps L o (execIdent n f s) := by
  unfold execIdent
  repeat' first
    | with_reducible assumption
    | exact List.Subset.trans (by decide) hT
    | with_reducible first | apply Keeps.next | apply State.enterAfresh_kept | apply State.ev_kept
    | with_reducible first | apply State.noteIdent_kept | apply State.sendGrant_kept | apply State.tryPort_kept
    | simp only [↓Kept.mk_iff]
    | with_reducible first | apply Kept.ite | apply Keeps.ite

theorem State.nonCompliant_kept {L : List Blk} {o : State} (s : State) (n : Fin 64) (hT : [.tlk, .evr, .tx] ⊆ L)
    (hk : Kept L o s) :
    Kept L o (State.nonCompliant s n) := by
  unfold State.nonCompliant
  repeat' first
    | with_reducible assumption
    | exact List.Subset.trans (by decide) hT
    | ((try lift_lets); intro x; refine Kept.cut (x := x) ?_ ?_; rotate_left; clear_value x; intro _; rotate_left; unfold x)
    | with_reducible first | apply State.ev_kept | apply State.throttlePort_kept | apply State.updPort_kept
    | with_reducible apply Kept.ite

theorem State.checkReport_kept {L : List Blk} {o : State} (s : State) (n : Fin 64) (r : Report)
    (hT : [.tlk, .evr, .tx] ⊆ L) (hk : Kept L o s) :
    Kept L o (State.checkReport s n r) := by
  unfold State.checkReport
  repeat' first
    | with_reducible assumption
    | exact List.Subset.trans (by decide) hT
    | with_reducible first | apply State.nonCompliant_kept | apply State.updPort_kept
    | simp only [↓Kept.mk_iff]
    | with_reducible apply Kept.ite

theorem State.takeReport_kept {L : List Blk} {o : State} (s : State) (n : Fin 64) (r : Report) (missing : Nat)
    (hT : [.loop, .tlk, .evr, .tx] ⊆ L) (hk : Kept L o s) :
    Kept L o (State.takeReport s n r missing) := by
  unfold State.takeReport
  repeat' first
    | with_reducible assumption
    | exact hT (by decide)
    | exact List.Subset.trans (by decide) hT
    | ((try lift_lets); intro x; refine Kept.cut (x := x) ?_ ?_; rotate_left; clear_value x; intro _; rotate_left; unfold x)
    | with_reducible first | apply State.checkReport_kept | apply State.updPort_kept | apply Kept.of_loop
    | simp only [↓Kept.mk_iff]
    | with_reducible apply Kept.ite

theorem State.giveBack_kept {L : List Blk} {o : State} (s : State) (n : Fin 64) (hT : [.tlk, .evr, .tx] ⊆ L)
    (hk : Kept L o s) :
    Kept L o (State.giveBack s n) := by
  unfold State.giveBack
  repeat' first
    | with_reducible assumption
    | exact List.Subset.trans (by decide) hT
    | ((try lift_lets); intro x; refine Kept.cut (x := x) ?_ ?_; rotate_left; clear_value x; intro _; rotate_left; unfold x)
    | with_reducible first | apply State.ev_kept | apply State.sendGrant_kept | apply State.syncOverShare_kept
    | with_reducible first | apply State.unserve_kept | apply State.updPort_kept

theorem execReport_kept {L : List Blk} {o : State} (n : Fin 64) (f : Sys2Proof.ReportFrame) (missing : Nat)
    (s : State) (hT : [.loop, .tlk, .evr, .tx] ⊆ L) (hk : Kept L o s) :
    Keeps L o (execReport n f missing s) := by
  unfold execReport
  repeat' first
    | with_reducible assumption
    | exact List.Subset.trans (by decide) hT
    | with_reducible first | apply Keeps.next | apply State.giveBack_kept | apply State.takeOverLatest_kept
    | with_reducible apply State.takeReport_kept
    | simp only [↓Kept.mk_iff]
    | with_reducible apply Keeps.ite

theorem execReportStale_kept {L : List Blk} {o : State} (n : Fin 64) (s : State) (hT : [.tlk, .evr] ⊆ L)
    (hk : Kept L o s) :
    Keeps L o (execReportStale n s) := by
  unfold execReportStale
  repeat' first
    | with_reducible assumption
    | exact List.Subset.trans (by decide) hT
    | with_reducible first | apply Keeps.next | apply State.ev_kept | apply State.updPort_kept
    | simp only [↓Kept.mk_iff]
    | with_reducible apply Keeps.ite

theorem execAck_kept {L : List Blk} {o : State} (n : Fin 64) (gseq : BitVec 16) (result : Fin 3) (s : State)
    (hT : [.tlk, .evr] ⊆ L) (hk : Kept L o s) :
    Keeps L o (execAck n gseq result s) := by
  unfold execAck
  repeat' first
    | with_reducible assumption
    | exact List.Subset.trans (by decide) hT
    | with_reducible first | apply Keeps.next | apply State.ev_kept | apply State.syncOverShare_kept
    | with_reducible apply State.updPort_kept
    | simp only [↓Kept.mk_iff]
    | with_reducible apply Kept.ite
    | split

theorem execGrantResend_kept {L : List Blk} {o : State} (n : Fin 64) (s : State) (hT : [.tlk, .tx] ⊆ L)
    (hk : Kept L o s) :
    Keeps L o (execGrantResend n s) := by
  unfold execGrantResend
  repeat' first
    | with_reducible assumption
    | exact hT (by decide)
    | exact List.Subset.trans (by decide) hT
    | with_reducible first | apply Keeps.next | apply State.send_kept | apply State.updPort_kept | apply Kept.of_tlk
    | simp only [↓Kept.mk_iff]
    | with_reducible apply Keeps.ite
    | split

theorem execGrantTimeout_kept {L : List Blk} {o : State} (n : Fin 64) (s : State) (hT : [.tlk, .evr] ⊆ L)
    (hk : Kept L o s) :
    Keeps L o (execGrantTimeout n s) := by
  unfold execGrantTimeout
  repeat' first
    | with_reducible assumption
    | exact List.Subset.trans (by decide) hT
    | with_reducible first | apply Keeps.next | apply State.ev_kept | apply State.updPort_kept | apply Keeps.ite

theorem execGrantRefresh_kept {L : List Blk} {o : State} (n : Fin 64) (s : State) (hT : [.tlk, .tx] ⊆ L)
    (hk : Kept L o s) :
    Keeps L o (execGrantRefresh n s) := by
  unfold execGrantRefresh
  repeat' first
    | with_reducible first | assumption | apply Keeps.next | apply State.sendGrant_kept

theorem execTime_kept {L : List Blk} {o : State} (s : State) (hT : [.tlk, .tx] ⊆ L) (hk : Kept L o s) :
    Keeps L o (execTime s) := by
  unfold execTime
  repeat' first
    | with_reducible assumption
    | exact hT (by decide)
    | exact List.Subset.trans (by decide) hT
    | with_reducible apply Kept.foldl
    | refine fun (_ : State) _ => ?_
    | with_reducible first | apply Keeps.next | exact Kept.rfl | apply State.send_kept | apply Kept.of_tlk
    | simp only [↓Kept.mk_iff]
    | with_reducible apply Kept.ite

theorem State.schedEvict_kept {L : List Blk} {o : State} (s : State) (port : Nat) (hT : [.tlk, .evr] ⊆ L)
    (hk : Kept L o s) :
    Kept L o (State.schedEvict s port) := by
  unfold State.schedEvict
  repeat' first
    | with_reducible assumption
    | exact hT (by decide)
    | exact List.Subset.trans (by decide) hT
    | with_reducible first | apply State.ev_kept | apply Kept.of_tlk
    | simp only [↓Kept.mk_iff]
    | with_reducible apply Kept.ite

theorem State.schedReplace_kept {L : List Blk} {o : State} (s : State) (e : Entry) (hT : [.tlk] ⊆ L)
    (hk : Kept L o s) :
    Kept L o (State.schedReplace s e) := by
  unfold State.schedReplace
  repeat' first
    | with_reducible assumption
    | exact hT (by decide)
    | with_reducible apply Kept.of_tlk
    | simp only [↓Kept.mk_iff]
    | with_reducible apply Kept.ite

theorem State.announce_kept {L : List Blk} {o : State} (s : State) (e : Entry) (hT : [.tlk, .evr, .tx] ⊆ L)
    (hk : Kept L o s) :
    Kept L o (State.announce s e).2 := by
  unfold State.announce
  repeat' first
    | with_reducible assumption
    | exact hT (by decide)
    | exact List.Subset.trans (by decide) hT
    | with_reducible apply Kept.foldl
    | refine fun (_ : State) _ => ?_
    | with_reducible first | exact Kept.rfl | apply State.ev_kept | apply State.schedEvict_kept
    | with_reducible first | apply State.schedReplace_kept | apply State.sendGrant_kept | apply State.tryPlace_kept
    | with_reducible first | apply State.tryWaiters_kept | apply Kept.of_tlk
    | simp only [↓Kept.mk_iff]
    | with_reducible apply Kept.ite
    | split

theorem execTrayAnnounce_kept {L : List Blk} {o : State} (n : Fin 64) (a : Sys2Proof.AnnounceEntry) (s : State)
    (hT : [.tlk, .evr, .tx] ⊆ L) (hk : Kept L o s) :
    Keeps L o (execTrayAnnounce n a s) := by
  unfold execTrayAnnounce
  repeat' first
    | with_reducible assumption
    | exact List.Subset.trans (by decide) hT
    | with_reducible first | apply Keeps.next | apply State.announce_kept | apply State.send_kept
    | simp only [↓Kept.mk_iff]
    | with_reducible apply Keeps.ite

theorem execBarrierComplete_kept {L : List Blk} {o : State} (n : Fin 64) (s : State) (hT : [.tlk, .evr, .tx] ⊆ L)
    (hk : Kept L o s) :
    Keeps L o (execBarrierComplete n s) := by
  unfold execBarrierComplete
  repeat' first
    | with_reducible assumption
    | exact List.Subset.trans (by decide) hT
    | with_reducible first | apply Keeps.next | apply State.sendGrant_kept | apply State.tryWaiters_kept
    | with_reducible first | apply State.unplace_kept | apply Keeps.ite
    | split

theorem execRoleTagApplied_kept {L : List Blk} {o : State} (id : BitVec 32) (source : BitVec 8) (s : State)
    (hT : [.tlk, .tx] ⊆ L) (hk : Kept L o s) :
    Keeps L o (execRoleTagApplied id source s) := by
  unfold execRoleTagApplied
  repeat' first
    | with_reducible assumption
    | exact hT (by decide)
    | with_reducible first | apply Keeps.next | apply State.setRole_kept | apply Kept.of_tlk
    | simp only [↓Kept.mk_iff]
    | with_reducible apply Keeps.ite
    | split

theorem execTakeoverReq_kept {L : List Blk} {o : State} (n : Fin 64) (env : BitVec 16) (s : State)
    (hT : [.tlk, .evr, .tx] ⊆ L) (hk : Kept L o s) :
    Keeps L o (execTakeoverReq n env s) := by
  unfold execTakeoverReq
  repeat' first
    | with_reducible first | assumption | apply Keeps.next | apply State.takeOver_kept | apply Kept.ite

theorem State.drain_kept {L : List Blk} {o : State} (s : State) (n : Fin 64) (hT : [.tlk, .tx] ⊆ L)
    (hk : Kept L o s) :
    Kept L o (State.drain s n) := by
  unfold State.drain
  repeat' first
    | with_reducible assumption
    | exact List.Subset.trans (by decide) hT
    | with_reducible first | apply State.sendGrant_kept | apply State.syncOverShare_kept | apply State.unserve_kept
    | with_reducible apply State.updPort_kept
    | simp only [↓Kept.mk_iff]
    | with_reducible apply Kept.ite

theorem execDrainReq_kept {L : List Blk} {o : State} (n : Fin 64) (s : State) (hT : [.tlk, .tx] ⊆ L)
    (hk : Kept L o s) :
    Keeps L o (execDrainReq n s) := by
  unfold execDrainReq
  repeat' first
    | with_reducible first | assumption | apply Keeps.next | apply State.drain_kept | apply Kept.ite

theorem execDrain_kept {L : List Blk} {o : State} (sess : Fin 64) (n : Fin 64) (s : State)
    (hT : [.sys, .tlk, .tx] ⊆ L) (hk : Kept L o s) :
    Keeps L o (execDrain sess n s) := by
  unfold execDrain
  repeat' first
    | with_reducible assumption
    | exact List.Subset.trans (by decide) hT
    | refine fun (_ : State) => ?_
    | with_reducible first | apply Keeps.next | exact Kept.rfl | apply State.drain_kept | apply State.regCmdAt_kept

theorem execDrained_kept {L : List Blk} {o : State} (n : Fin 64) (s : State) (hT : [.tlk, .evr, .tx] ⊆ L)
    (hk : Kept L o s) :
    Keeps L o (execDrained n s) := by
  unfold execDrained
  repeat' first
    | with_reducible assumption
    | exact List.Subset.trans (by decide) hT
    | with_reducible first | apply Keeps.next | apply State.ev_kept | apply State.purgeTray_kept
    | with_reducible first | apply State.sendGrant_kept | apply State.syncOverShare_kept | apply State.updPort_kept
    | simp only [↓Kept.mk_iff]
    | with_reducible apply Keeps.ite

theorem State.dropReq_kept {L : List Blk} {o : State} (s : State) (uv : Bool) (hT : [.pwm] ⊆ L) (hk : Kept L o s) :
    Kept L o (State.dropReq s uv) := by
  unfold State.dropReq
  repeat' first
    | with_reducible assumption
    | exact hT (by decide)
    | with_reducible apply Kept.of_pwm
    | simp only [↓Kept.mk_iff]

theorem execThrottleCauseClear_kept {L : List Blk} {o : State} (c : Sys2Proof.ClearedCause) (s : State)
    (hT : [.pwm, .tlk, .evr, .tx] ⊆ L) (hk : Kept L o s) :
    Keeps L o (execThrottleCauseClear c s) := by
  unfold execThrottleCauseClear
  repeat' first
    | with_reducible assumption
    | exact List.Subset.trans (by decide) hT
    | with_reducible first | apply Keeps.next | apply State.clearCause_kept | apply State.clearPortCause_kept
    | with_reducible first | apply State.dropReq_kept | apply Kept.ite
    | split

theorem execThrottleAll_kept {L : List Blk} {o : State} (sess : Fin 64) (s : State)
    (hT : [.sys, .tlk, .evr, .tx] ⊆ L) (hk : Kept L o s) :
    Keeps L o (execThrottleAll sess s) := by
  unfold execThrottleAll
  repeat' first
    | with_reducible assumption
    | exact List.Subset.trans (by decide) hT
    | refine fun (_ : State) => ?_
    | with_reducible first | apply Keeps.next | exact Kept.rfl | apply State.regCmd_kept
    | with_reducible apply State.throttleAllPorts_kept

theorem State.releaseAllPorts_kept {L : List Blk} {o : State} (s : State) (hT : [.tlk, .evr, .tx] ⊆ L)
    (hk : Kept L o s) :
    Kept L o (State.releaseAllPorts s) := by
  unfold State.releaseAllPorts
  repeat' first
    | with_reducible assumption
    | exact hT (by decide)
    | with_reducible first | apply State.settle_kept | apply Kept.of_tlk
    | simp only [↓Kept.mk_iff]

theorem execReleaseAll_kept {L : List Blk} {o : State} (sess : Fin 64) (s : State)
    (hT : [.sys, .tlk, .evr, .tx] ⊆ L) (hk : Kept L o s) :
    Keeps L o (execReleaseAll sess s) := by
  unfold execReleaseAll
  repeat' first
    | with_reducible assumption
    | exact List.Subset.trans (by decide) hT
    | refine fun (_ : State) => ?_
    | with_reducible first | apply Keeps.next | exact Kept.rfl | apply State.regCmd_kept
    | with_reducible apply State.releaseAllPorts_kept

theorem execThrottle_kept {L : List Blk} {o : State} (sess : Fin 64) (n : Fin 64) (s : State)
    (hT : [.sys, .tlk, .evr, .tx] ⊆ L) (hk : Kept L o s) :
    Keeps L o (execThrottle sess n s) := by
  unfold execThrottle
  repeat' first
    | with_reducible assumption
    | exact List.Subset.trans (by decide) hT
    | refine fun (_ : State) => ?_
    | with_reducible first | apply Keeps.next | exact Kept.rfl | apply State.regCmdAt_kept
    | with_reducible apply State.throttlePort_kept

theorem execRelease_kept {L : List Blk} {o : State} (sess : Fin 64) (n : Fin 64) (s : State)
    (hT : [.sys, .tlk, .evr, .tx] ⊆ L) (hk : Kept L o s) :
    Keeps L o (execRelease sess n s) := by
  unfold execRelease
  repeat' first
    | with_reducible assumption
    | exact List.Subset.trans (by decide) hT
    | refine fun (_ : State) => ?_
    | with_reducible first | apply Keeps.next | exact Kept.rfl | apply State.clearPortCause_kept
    | with_reducible apply State.regCmdAt_kept

theorem execRackHoldSeen_kept {L : List Blk} {o : State} (s : State) (hT : [.sys, .tlk, .evr, .tx] ⊆ L)
    (hk : Kept L o s) :
    Keeps L o (execRackHoldSeen s) := by
  unfold execRackHoldSeen
  repeat' first
    | with_reducible first | assumption | apply Keeps.next | apply State.rackHoldLow_kept

theorem execRackHoldCleared_kept {L : List Blk} {o : State} (s : State) (hT : [.sys, .evr] ⊆ L) (hk : Kept L o s) :
    Keeps L o (execRackHoldCleared s) := by
  unfold execRackHoldCleared
  repeat' first
    | with_reducible first | assumption | apply Keeps.next | apply State.rackHoldHigh_kept | apply Kept.ite

theorem execShareStale_kept {L : List Blk} {o : State} (s : State) (hT : [.tlk] ⊆ L) (hk : Kept L o s) :
    Keeps L o (execShareStale s) := by
  unfold execShareStale
  repeat' first
    | with_reducible assumption
    | exact hT (by decide)
    | with_reducible first | apply Keeps.next | apply Kept.of_tlk
    | simp only [↓Kept.mk_iff]
    | with_reducible apply Kept.ite

theorem execTrayFrameDropped_kept {L : List Blk} {o : State} (n : Fin 64) (s : State) (hT : [.tlk] ⊆ L)
    (hk : Kept L o s) :
    Keeps L o (execTrayFrameDropped n s) := by
  unfold execTrayFrameDropped
  repeat' first
    | with_reducible first | assumption | apply Keeps.next | apply State.updPort_kept | apply Kept.ite

end Sys2Proof.Machine
end

