-- ==== Sys2Proof/Laws/KeptNetOps.lean ====
section
/-! SUPPORT. What the operations of Machine/NetOps.lean keep. -/

set_option linter.unusedTactic false
set_option linter.unreachableTactic false

namespace Sys2Proof.Machine

theorem State.updSess_kept {L : List Blk} {o : State} (s : State) (n : Fin 64) (f : Sess → Sess) (hT : [.net] ⊆ L)
    (hk : Kept L o s) :
    Kept L o (State.updSess s n f) := by
  unfold State.updSess
  repeat' first
    | with_reducible assumption
    | exact hT (by decide)
    | with_reducible apply Kept.of_net
    | simp only [↓Kept.mk_iff]

theorem State.updQ_kept {L : List Blk} {o : State} (s : State) (q : Fin 16) (f : Queue → Queue) (hT : [.net] ⊆ L)
    (hk : Kept L o s) :
    Kept L o (State.updQ s q f) := by
  unfold State.updQ
  repeat' first
    | with_reducible assumption
    | exact hT (by decide)
    | with_reducible apply Kept.of_net
    | simp only [↓Kept.mk_iff]

theorem State.closeSess_kept {L : List Blk} {o : State} (s : State) (n : Fin 64)
    (hT : [.sys, .cfg, .net, .evr] ⊆ L) (hk : Kept L o s) :
    Kept L o (State.closeSess s n) := by
  unfold State.closeSess
  repeat' first
    | with_reducible assumption
    | exact List.Subset.trans (by decide) hT
    | with_reducible first | exact fun h => h | exact Nat.le_refl _ | apply State.dropShadow_kept
    | with_reducible first | apply State.ev_kept | apply State.updSess_kept | apply Kept.of_any
    | (intro b hb; cases b <;> first | exact absurd (hT (by decide)) hb | rfl)
    | simp only [↓Kept.mk_iff]
    | with_reducible apply Kept.ite

theorem State.sendTo_kept {L : List Blk} {o : State} (s : State) (n : Fin 64) (ty : Nat) (reqId : Nat)
    (status : Nat) (flags : Nat) (body : List Byte) (hT : [.sys, .cfg, .net, .evr, .tx] ⊆ L) (hk : Kept L o s) :
    Kept L o (State.sendTo s n ty reqId status flags body) := by
  unfold State.sendTo
  repeat' first
    | with_reducible assumption
    | exact List.Subset.trans (by decide) hT
    | with_reducible first | apply State.closeSess_kept | apply State.send_kept | apply State.updSess_kept
    | simp only [↓Kept.mk_iff]
    | with_reducible apply Kept.ite

theorem State.reply_kept {L : List Blk} {o : State} (s : State) (h : Sys2Proof.MsgHdr) (ty : Nat) (status : Nat)
    (body : List Byte) (hT : [.sys, .cfg, .net, .evr, .tx] ⊆ L) (hk : Kept L o s) :
    Kept L o (State.reply s h ty status body) := by
  unfold State.reply
  repeat' first
    | with_reducible first | assumption | apply State.sendTo_kept

theorem State.shedCheck_kept {L : List Blk} {o : State} (s : State) (hT : [.net, .evr] ⊆ L) (hk : Kept L o s) :
    Kept L o (State.shedCheck s) := by
  unfold State.shedCheck
  repeat' first
    | with_reducible assumption
    | exact hT (by decide)
    | exact List.Subset.trans (by decide) hT
    | with_reducible first | apply State.ev_kept | apply Kept.of_net
    | simp only [↓Kept.mk_iff]
    | with_reducible apply Kept.ite

theorem State.enqueue_kept {L : List Blk} {o : State} (s : State) (q : Fin 16) (m : Msg)
    (hT : [.sys, .cfg, .tlk, .net, .evr, .tx, .fv] ⊆ L) (hk : Kept L o s) :
    Kept L o (State.enqueue s q m) := by
  unfold State.enqueue
  repeat' first
    | with_reducible assumption
    | exact List.Subset.trans (by decide) hT
    | ((try lift_lets); intro x; refine Kept.cut (x := x) ?_ ?_; rotate_left; clear_value x; intro _; rotate_left; unfold x)
    | with_reducible first | apply State.shedCheck_kept | apply State.updQ_kept | apply State.used_kept

theorem State.serve_kept {L : List Blk} {o : State} (s : State) (h : Sys2Proof.MsgHdr) (q : Fin 16) (ty : Nat)
    (role : Role) (body : List Byte) (f : State → State) (hT : [.sys, .cfg, .net, .evr, .tx] ⊆ L)
    (hf : ∀ s : State, Kept L s (f s)) (hk : Kept L o s) :
    Kept L o (State.serve s h q ty role body f) := by
  unfold State.serve
  repeat' first
    | with_reducible assumption
    | exact List.Subset.trans (by decide) hT
    | with_reducible first | apply State.reply_kept | apply State.shedCheck_kept | apply State.updQ_kept
    | with_reducible apply Kept.app hf
    | simp only [↓Kept.mk_iff]
    | with_reducible apply Kept.ite
    | split

theorem State.dropOther_kept {L : List Blk} {o : State} (s : State) (hT : [.net] ⊆ L) (hk : Kept L o s) :
    Kept L o (State.dropOther s) := by
  unfold State.dropOther
  repeat' first
    | with_reducible assumption
    | exact hT (by decide)
    | with_reducible apply Kept.of_net
    | simp only [↓Kept.mk_iff]

theorem State.netIn_kept {L : List Blk} {o : State} (s : State) (f : Sys2Proof.FramePath) (v4 : Bool)
    (act : State → State) (hT : [.net] ⊆ L) (hact : ∀ s : State, Kept L s (act s)) (hk : Kept L o s) :
    Kept L o (State.netIn s f v4 act) := by
  unfold State.netIn
  repeat' first
    | with_reducible first | assumption | apply State.dropOther_kept | apply Kept.app hact | apply Kept.ite

theorem State.heard_kept {L : List Blk} {o : State} (s : State) (n : Fin 64)
    (hT : [.sys, .tlk, .net, .evr, .tx] ⊆ L) (hk : Kept L o s) :
    Kept L o (State.heard s n) := by
  unfold State.heard
  repeat' first
    | with_reducible assumption
    | exact hT (by decide)
    | exact List.Subset.trans (by decide) hT
    | with_reducible first | apply State.allocResume_kept | apply State.clearOrphan_kept | apply Kept.of_net
    | simp only [↓Kept.mk_iff]
    | with_reducible apply Kept.ite

theorem State.route_kept {L : List Blk} {o : State} (s : State) (n : Fin 64) (inner : List Byte)
    (hT : [.sys, .cfg, .tlk, .net, .evr, .tx, .fv] ⊆ L) (hk : Kept L o s) :
    Kept L o (State.route s n inner) := by
  unfold State.route
  repeat' first
    | with_reducible assumption
    | exact hT (by decide)
    | exact List.Subset.trans (by decide) hT
    | with_reducible first | apply State.enqueue_kept | apply State.sendTo_kept | apply State.updQ_kept
    | with_reducible apply Kept.of_net
    | simp only [↓Kept.mk_iff]
    | with_reducible apply Kept.ite
    | split

theorem State.tagFails_kept {L : List Blk} {o : State} (s : State) (n : Option (Fin 64))
    (hT : [.sys, .cfg, .net, .evr] ⊆ L) (hk : Kept L o s) :
    Kept L o (State.tagFails s n) := by
  unfold State.tagFails
  repeat' first
    | with_reducible assumption
    | exact hT (by decide)
    | exact List.Subset.trans (by decide) hT
    | with_reducible first | apply State.closeSess_kept | apply State.ev_kept | apply State.updSess_kept
    | with_reducible apply Kept.of_net
    | simp only [↓Kept.mk_iff]
    | with_reducible apply Kept.ite
    | split

theorem State.replayed_kept {L : List Blk} {o : State} (s : State) (n : Fin 64) (hT : [.net] ⊆ L)
    (hk : Kept L o s) :
    Kept L o (State.replayed s n) := by
  unfold State.replayed
  repeat' first
    | with_reducible assumption
    | exact hT (by decide)
    | with_reducible first | apply State.updSess_kept | apply Kept.of_net
    | simp only [↓Kept.mk_iff]

theorem State.accepted_kept {L : List Blk} {o : State} (s : State) (n : Fin 64) (q : Nat) (inner : List Byte)
    (hT : [.sys, .cfg, .tlk, .net, .evr, .tx, .fv] ⊆ L) (hk : Kept L o s) :
    Kept L o (State.accepted s n q inner) := by
  unfold State.accepted
  repeat' first
    | with_reducible assumption
    | exact List.Subset.trans (by decide) hT
    | ((try lift_lets); intro x; refine Kept.cut (x := x) ?_ ?_; rotate_left; clear_value x; intro _; rotate_left; unfold x)
    | with_reducible first | apply State.closeSess_kept | apply State.heard_kept | apply State.route_kept
    | with_reducible first | apply State.updSess_kept | apply Kept.ite

theorem execSecured_kept {L : List Blk} {o : State} (d : Sys2Proof.Datagram) (s : State)
    (hT : [.sys, .cfg, .tlk, .net, .evr, .tx, .fv] ⊆ L) (hk : Kept L o s) :
    Keeps L o (execSecured d s) := by
  unfold execSecured
  repeat' first
    | with_reducible assumption
    | exact List.Subset.trans (by decide) hT
    | refine fun (_ : State) => ?_
    | with_reducible first | apply Keeps.next | exact Kept.rfl | apply State.accepted_kept | apply State.netIn_kept
    | with_reducible first | apply State.replayed_kept | apply State.tagFails_kept | apply Kept.ite
    | split

theorem State.sendPayload_kept {L : List Blk} {o : State} (s : State) (peer : List Byte) (port : Nat) (kind : Nat)
    (sess : Nat) (p : List Byte) (hT : [.tx] ⊆ L) (hk : Kept L o s) :
    Kept L o (State.sendPayload s peer port kind sess p) := by
  unfold State.sendPayload
  repeat' first
    | with_reducible first | assumption | apply Kept.foldl
    | refine fun (_ : State) _ => ?_
    | with_reducible first | exact Kept.rfl | apply State.send_kept

theorem State.reject_kept {L : List Blk} {o : State} (s : State) (peer : List Byte) (port : Nat) (sess : Nat)
    (status : Nat) (hT : [.tx] ⊆ L) (hk : Kept L o s) :
    Kept L o (State.reject s peer port sess status) := by
  unfold State.reject
  repeat' first
    | with_reducible first | assumption | apply State.sendPayload_kept

theorem State.answerHello_kept {L : List Blk} {o : State} (s : State) (h : Handshake) (p : List Byte)
    (hT : [.sys, .cfg, .net, .evr, .tx, .fv] ⊆ L) (hk : Kept L o s) :
    Kept L o (State.answerHello s h p) := by
  unfold State.answerHello
  repeat' first
    | with_reducible assumption
    | exact hT (by decide)
    | exact List.Subset.trans (by decide) hT
    | ((try lift_lets); intro x; refine Kept.cut (x := x) ?_ ?_; rotate_left; clear_value x; intro _; rotate_left; unfold x)
    | with_reducible first | apply State.sendPayload_kept | apply State.used_kept | apply Kept.of_net
    | simp only [↓Kept.mk_iff]

theorem State.dropHs_kept {L : List Blk} {o : State} (s : State) (f : Handshake → Bool) (hT : [.net] ⊆ L)
    (hk : Kept L o s) :
    Kept L o (State.dropHs s f) := by
  unfold State.dropHs
  repeat' first
    | with_reducible assumption
    | exact hT (by decide)
    | with_reducible apply Kept.of_net
    | simp only [↓Kept.mk_iff]

theorem State.keepHs_kept {L : List Blk} {o : State} (s : State) (h : Handshake) (hT : [.net] ⊆ L)
    (hk : Kept L o s) :
    Kept L o (State.keepHs s h) := by
  unfold State.keepHs
  repeat' first
    | with_reducible assumption
    | exact hT (by decide)
    | with_reducible apply Kept.of_net
    | simp only [↓Kept.mk_iff]

theorem State.gatherHello_kept {L : List Blk} {o : State} (s : State) (d : Sys2Proof.Datagram) (h : Handshake)
    (g : Gathered) (hT : [.sys, .cfg, .net, .evr, .tx, .fv] ⊆ L) (hk : Kept L o s) :
    Kept L o (State.gatherHello s d h g) := by
  unfold State.gatherHello
  repeat' first
    | with_reducible assumption
    | exact List.Subset.trans (by decide) hT
    | with_reducible first | apply State.answerHello_kept | apply State.ev_kept | apply State.keepHs_kept
    | with_reducible apply State.reject_kept
    | simp only [↓Kept.mk_iff]
    | with_reducible apply Kept.ite
    | split

theorem State.helloIn_kept {L : List Blk} {o : State} (s : State) (d : Sys2Proof.Datagram)
    (hT : [.sys, .cfg, .net, .evr, .tx, .fv] ⊆ L) (hk : Kept L o s) :
    Kept L o (State.helloIn s d) := by
  unfold State.helloIn
  repeat' first
    | with_reducible assumption
    | exact List.Subset.trans (by decide) hT
    | with_reducible first | apply State.dropHs_kept | apply State.gatherHello_kept | apply State.reject_kept
    | simp only [↓Kept.mk_iff]
    | with_reducible apply Kept.ite
    | split

theorem execHello_kept {L : List Blk} {o : State} (d : Sys2Proof.Datagram) (s : State)
    (hT : [.sys, .cfg, .net, .evr, .tx, .fv] ⊆ L) (hk : Kept L o s) :
    Keeps L o (execHello d s) := by
  unfold execHello
  repeat' first
    | with_reducible assumption
    | exact List.Subset.trans (by decide) hT
    | refine fun (_ : State) => ?_
    | with_reducible first | apply Keeps.next | exact Kept.rfl | apply State.helloIn_kept | apply State.netIn_kept
    | with_reducible apply Kept.ite

theorem State.openSess_kept {L : List Blk} {o : State} (s : State) (n : Fin 64) (h : Handshake)
    (hT : [.sys, .cfg, .net, .evr, .tx] ⊆ L) (hk : Kept L o s) :
    Kept L o (State.openSess s n h) := by
  unfold State.openSess
  repeat' first
    | with_reducible assumption
    | exact List.Subset.trans (by decide) hT
    | ((try lift_lets); intro x; refine Kept.cut (x := x) ?_ ?_; rotate_left; clear_value x; intro _; rotate_left; unfold x)
    | with_reducible first | apply State.ev_kept | apply State.sendTo_kept | apply State.updSess_kept

theorem State.gatherFinish_kept {L : List Blk} {o : State} (s : State) (d : Sys2Proof.Datagram) (n : Fin 64)
    (h : Handshake) (hT : [.sys, .cfg, .net, .evr, .tx] ⊆ L) (hk : Kept L o s) :
    Kept L o (State.gatherFinish s d n h) := by
  unfold State.gatherFinish
  repeat' first
    | with_reducible assumption
    | exact List.Subset.trans (by decide) hT
    | ((try lift_lets); intro x; refine Kept.cut (x := x) ?_ ?_; rotate_left; clear_value x; intro _; rotate_left; unfold x)
    | with_reducible first | apply State.dropHs_kept | apply State.ev_kept | apply State.keepHs_kept
    | with_reducible first | apply State.openSess_kept | apply State.reject_kept
    | simp only [↓Kept.mk_iff]
    | with_reducible apply Kept.ite
    | split

theorem State.finishIn_kept {L : List Blk} {o : State} (s : State) (d : Sys2Proof.Datagram)
    (hT : [.sys, .cfg, .net, .evr, .tx] ⊆ L) (hk : Kept L o s) :
    Kept L o (State.finishIn s d) := by
  unfold State.finishIn
  repeat' first
    | with_reducible first | assumption | apply State.gatherFinish_kept
    | split

theorem execFinish_kept {L : List Blk} {o : State} (d : Sys2Proof.Datagram) (s : State)
    (hT : [.sys, .cfg, .net, .evr, .tx] ⊆ L) (hk : Kept L o s) :
    Keeps L o (execFinish d s) := by
  unfold execFinish
  repeat' first
    | with_reducible assumption
    | exact List.Subset.trans (by decide) hT
    | refine fun (_ : State) => ?_
    | with_reducible first | apply Keeps.next | exact Kept.rfl | apply State.finishIn_kept | apply State.netIn_kept
    | with_reducible apply Kept.ite

theorem execHandshakeTimeout_kept {L : List Blk} {o : State} (n : Fin 64) (s : State) (hT : [.net] ⊆ L)
    (hk : Kept L o s) :
    Keeps L o (execHandshakeTimeout n s) := by
  unfold execHandshakeTimeout
  repeat' first
    | with_reducible assumption
    | exact hT (by decide)
    | with_reducible first | apply Keeps.next | apply Kept.of_net
    | simp only [↓Kept.mk_iff]

theorem execSessionIdleTimeout_kept {L : List Blk} {o : State} (n : Fin 64) (s : State)
    (hT : [.sys, .cfg, .net, .evr] ⊆ L) (hk : Kept L o s) :
    Keeps L o (execSessionIdleTimeout n s) := by
  unfold execSessionIdleTimeout
  repeat' first
    | with_reducible first | assumption | apply Keeps.next | apply State.closeSess_kept | apply Kept.ite

theorem execSessClose_kept {L : List Blk} {o : State} (sess : Fin 64) (n : Fin 64) (s : State)
    (hT : [.sys, .cfg, .net, .evr] ⊆ L) (hk : Kept L o s) :
    Keeps L o (execSessClose sess n s) := by
  unfold execSessClose
  repeat' first
    | with_reducible assumption
    | exact List.Subset.trans (by decide) hT
    | refine fun (_ : State) => ?_
    | with_reducible first | apply Keeps.next | exact Kept.rfl | apply State.closeSess_kept
    | with_reducible apply State.regCmd_kept

theorem execEthLinkUp_kept {L : List Blk} {o : State} (s : State) (hT : [.net, .evr] ⊆ L) (hk : Kept L o s) :
    Keeps L o (execEthLinkUp s) := by
  unfold execEthLinkUp
  repeat' first
    | with_reducible assumption
    | exact hT (by decide)
    | exact List.Subset.trans (by decide) hT
    | with_reducible first | apply Keeps.next | apply State.ev_kept | apply State.readyCheck_kept
    | with_reducible apply Kept.of_net
    | simp only [↓Kept.mk_iff]
    | with_reducible apply Kept.ite

theorem execEthLinkDown_kept {L : List Blk} {o : State} (s : State) (hT : [.net, .evr] ⊆ L) (hk : Kept L o s) :
    Keeps L o (execEthLinkDown s) := by
  unfold execEthLinkDown
  repeat' first
    | with_reducible assumption
    | exact hT (by decide)
    | exact List.Subset.trans (by decide) hT
    | with_reducible first | apply Keeps.next | apply State.ev_kept | apply Kept.of_net
    | simp only [↓Kept.mk_iff]
    | with_reducible apply Kept.ite

theorem execMacsecUp_kept {L : List Blk} {o : State} (sci : BitVec 64) (s : State) (hT : [.net, .evr] ⊆ L)
    (hk : Kept L o s) :
    Keeps L o (execMacsecUp sci s) := by
  unfold execMacsecUp
  repeat' first
    | with_reducible assumption
    | exact hT (by decide)
    | exact List.Subset.trans (by decide) hT
    | ((try lift_lets); intro x; refine Kept.cut (x := x) ?_ ?_; rotate_left; clear_value x; intro _; rotate_left; unfold x)
    | with_reducible first | apply Keeps.next | apply State.ev_kept | apply Kept.of_net
    | simp only [↓Kept.mk_iff]
    | with_reducible apply Kept.ite

theorem State.macsecEnds_kept {L : List Blk} {o : State} (s : State) (hT : [.net, .evr] ⊆ L) (hk : Kept L o s) :
    Kept L o (State.macsecEnds s) := by
  unfold State.macsecEnds
  repeat' first
    | with_reducible assumption
    | exact hT (by decide)
    | exact List.Subset.trans (by decide) hT
    | with_reducible first | apply State.ev_kept | apply Kept.of_net
    | simp only [↓Kept.mk_iff]
    | with_reducible apply Kept.ite

theorem execMacsecDown_kept {L : List Blk} {o : State} (s : State) (hT : [.net, .evr] ⊆ L) (hk : Kept L o s) :
    Keeps L o (execMacsecDown s) := by
  unfold execMacsecDown
  repeat' first
    | with_reducible first | assumption | apply Keeps.next | apply State.macsecEnds_kept

theorem execIcmpEchoRequest_kept {L : List Blk} {o : State} (v6 : Bool) (f : Sys2Proof.FramePath)
    (ident : BitVec 32) (s : State) (hT : [.net, .tx] ⊆ L) (hk : Kept L o s) :
    Keeps L o (execIcmpEchoRequest v6 f ident s) := by
  unfold execIcmpEchoRequest
  repeat' first
    | with_reducible assumption
    | exact hT (by decide)
    | exact List.Subset.trans (by decide) hT
    | refine fun (_ : State) => ?_
    | with_reducible first | apply Keeps.next | exact Kept.rfl | apply State.netIn_kept | apply State.send_kept
    | with_reducible apply Kept.of_net
    | simp only [↓Kept.mk_iff]
    | with_reducible apply Kept.ite

theorem execNdpArpRequest_kept {L : List Blk} {o : State} (arp : Bool) (f : Sys2Proof.FramePath)
    (target : List Byte) (s : State) (hT : [.net, .tx] ⊆ L) (hk : Kept L o s) :
    Keeps L o (execNdpArpRequest arp f target s) := by
  unfold execNdpArpRequest
  repeat' first
    | with_reducible assumption
    | exact List.Subset.trans (by decide) hT
    | refine fun (_ : State) => ?_
    | with_reducible first | apply Keeps.next | exact Kept.rfl | apply State.netIn_kept | apply State.send_kept
    | with_reducible apply Kept.ite

theorem execUnservedDatagram_kept {L : List Blk} {o : State} (f : Sys2Proof.FramePath) (s : State)
    (hT : [.net] ⊆ L) (hk : Kept L o s) :
    Keeps L o (execUnservedDatagram f s) := by
  unfold execUnservedDatagram
  repeat' first
    | with_reducible assumption
    | refine fun (_ : State) => ?_
    | with_reducible first | apply Keeps.next | exact Kept.rfl | apply State.dropOther_kept | apply State.netIn_kept
    | with_reducible apply Kept.ite

theorem execFifoQDataRead_kept {L : List Blk} {o : State} (q : Fin 16) (s : State) (hT : [.net, .evr] ⊆ L)
    (hk : Kept L o s) :
    Keeps L o (execFifoQDataRead q s) := by
  unfold execFifoQDataRead
  repeat' first
    | with_reducible assumption
    | exact List.Subset.trans (by decide) hT
    | with_reducible first | apply Keeps.next | apply State.shedCheck_kept | apply State.updQ_kept | apply Kept.ite

theorem execOrphanEntered_kept {L : List Blk} {o : State} (s : State) (hT : [.sys, .tlk, .evr, .tx] ⊆ L)
    (hk : Kept L o s) :
    Keeps L o (execOrphanEntered s) := by
  unfold execOrphanEntered
  repeat' first
    | with_reducible assumption
    | exact List.Subset.trans (by decide) hT
    | with_reducible first | exact fun h => h | exact Nat.le_refl _ | apply Keeps.next | apply State.ev_kept
    | with_reducible first | apply State.regrant_kept | apply Kept.of_any
    | (intro b hb; cases b <;> first | exact absurd (hT (by decide)) hb | rfl)
    | simp only [↓Kept.mk_iff]
    | with_reducible apply Kept.ite

end Sys2Proof.Machine
end

