-- ==== Sys2Proof/Laws/KeptEcc.lean ====
section
/-! SUPPORT. What the operations of Machine/Ecc.lean keep. -/

set_option linter.unusedTactic false
set_option linter.unreachableTactic false

namespace Sys2Proof.Machine

theorem State.loseMsg_kept {L : List Blk} {o : State} (s : State) (q : Fin 16) (k : Nat) (hT : [.net, .evr] ⊆ L)
    (hk : Kept L o s) :
    Kept L o (State.loseMsg s q k) := by
  unfold State.loseMsg
  repeat' first
    | with_reducible assumption
    | exact List.Subset.trans (by decide) hT
    | with_reducible first | apply State.ev_kept | apply State.shedCheck_kept | apply State.updQ_kept
    | simp only [↓Kept.mk_iff]
    | with_reducible apply Kept.ite

theorem State.reloadPage_kept {L : List Blk} {o : State} (s : State) (page : Nat) (moved : List (Fin 32 × Nat))
    (hT : [.mem, .evr] ⊆ L) (hk : Kept L o s) :
    Kept L o (State.reloadPage s page moved) := by
  unfold State.reloadPage
  repeat' first
    | with_reducible assumption
    | exact hT (by decide)
    | exact List.Subset.trans (by decide) hT
    | ((try lift_lets); intro x; refine Kept.cut (x := x) ?_ ?_; rotate_left; clear_value x; intro _; rotate_left; unfold x)
    | with_reducible apply Kept.foldl
    | refine fun (_ : State) _ => ?_
    | with_reducible first | exact Kept.rfl | apply State.dmaMoved_kept | apply State.tierFault_kept
    | with_reducible first | apply State.updDma_kept | apply Kept.of_mem
    | simp only [↓Kept.mk_iff]
    | (intro h; simp [Mem.ok_mk, Mem.ok_sram _ h, Mem.ok_hbm _ h, Mem.ok_tier _ h, Mem.ok_backing _ h, Mem.ok_mram _ h]; done)
    | with_reducible apply Kept.ite

theorem State.eccEffect_kept {L : List Blk} {o : State} (s : State) (p : Sys2Proof.EccPlace)
    (hT : [.power, .clk, .sys, .sec, .cfg, .afe, .loop, .pwm, .fce, .tlk, .chn, .est, .net, .prot, .mem, .evr, .tx, .fv] ⊆ L) (hk : Kept L o s) :
    Kept L o (State.eccEffect s p) := by
  unfold State.eccEffect
  repeat' first
    | with_reducible assumption
    | exact hT (by decide)
    | exact List.Subset.trans (by decide) hT
    | with_reducible first | exact Nat.le_refl _ | apply State.configFault_kept | apply State.dmaBad_kept
    | with_reducible first | apply State.dmaRun_kept | apply State.ev_kept | apply State.loseMsg_kept
    | with_reducible first | apply State.reloadPage_kept | apply State.updInst_kept | apply State.updSlot_kept
    | with_reducible first | apply Kept.of_sec | apply Kept.of_cfg | apply Kept.of_prot | apply Kept.of_evr
    | simp only [↓Kept.mk_iff]
    | with_reducible apply Kept.ite
    | split

theorem execEccUncorrectable_kept {L : List Blk} {o : State} (p : Sys2Proof.EccPlace) (s : State)
    (hT : [.power, .clk, .sys, .sec, .cfg, .afe, .loop, .pwm, .fce, .tlk, .chn, .est, .net, .prot, .mem, .evr, .tx, .fv] ⊆ L) (hk : Kept L o s) :
    Keeps L o (execEccUncorrectable p s) := by
  unfold execEccUncorrectable
  repeat' first
    | with_reducible assumption
    | exact List.Subset.trans (by decide) hT
    | with_reducible first | apply Keeps.next | apply State.eccEffect_kept | apply State.eccLost_kept
    | with_reducible apply Kept.ite

end Sys2Proof.Machine
end

