-- ==== Sys2Proof/Laws/KeptEst.lean ====
section
/-! SUPPORT. What the operations of Machine/Est.lean keep. -/

set_option linter.unusedTactic false
set_option linter.unreachableTactic false

namespace Sys2Proof.Machine

theorem execEstUpdate_kept {L : List Blk} {o : State} (s : State) (hT : [.pwm, .est, .evr] ⊆ L) (hk : Kept L o s) :
    Keeps L o (execEstUpdate s) := by
  unfold execEstUpdate
  repeat' first
    | with_reducible assumption
    | exact hT (by decide)
    | with_reducible apply Kept.foldl
    | refine fun (_ : State) _ => ?_
    | with_reducible first | apply Keeps.next | exact Kept.rfl | apply State.estStep_kept | apply Kept.of_est
    | simp only [↓Kept.mk_iff]
    | with_reducible apply Kept.ite

theorem execEstConflict_kept {L : List Blk} {o : State} (i : Fin 4) (s : State) (hT : [.est, .evr] ⊆ L)
    (hk : Kept L o s) :
    Keeps L o (execEstConflict i s) := by
  unfold execEstConflict
  repeat' first
    | with_reducible assumption
    | exact List.Subset.trans (by decide) hT
    | with_reducible first | apply Keeps.next | apply State.ev_kept | apply State.updStr_kept | apply Kept.ite

theorem execEstConflictCleared_kept {L : List Blk} {o : State} (i : Fin 4) (s : State) (hT : [.est, .evr] ⊆ L)
    (hk : Kept L o s) :
    Keeps L o (execEstConflictCleared i s) := by
  unfold execEstConflictCleared
  repeat' first
    | with_reducible assumption
    | exact List.Subset.trans (by decide) hT
    | with_reducible first | apply Keeps.next | apply State.ev_kept | apply State.updStr_kept | apply Kept.ite

theorem execPlannerCycle_kept {L : List Blk} {o : State} (defers : Bool) (s : State)
    (hT : [.cfg, .tlk, .est, .net, .prot, .evr, .tx] ⊆ L) (hk : Kept L o s) :
    Keeps L o (execPlannerCycle defers s) := by
  unfold execPlannerCycle
  repeat' first
    | with_reducible assumption
    | exact hT (by decide)
    | exact List.Subset.trans (by decide) hT
    | ((try lift_lets); intro x; refine Keeps.cut (x := x) ?_ ?_; rotate_left; clear_value x; intro _; rotate_left; unfold x)
    | with_reducible first | apply Keeps.next | apply State.displace_kept | apply State.planner_kept
    | with_reducible apply Kept.of_net
    | simp only [↓Kept.mk_iff]
    | with_reducible apply Kept.ite

theorem execEclipseRetry_kept {L : List Blk} {o : State} (s : State) (hT : [.est, .evr] ⊆ L) (hk : Kept L o s) :
    Keeps L o (execEclipseRetry s) := by
  unfold execEclipseRetry
  repeat' first
    | with_reducible first | assumption | apply Keeps.next | apply State.restTry_kept | apply Kept.ite

theorem execRelaxing_kept {L : List Blk} {o : State} (i : Fin 4) (s : State) (hT : [.est] ⊆ L) (hk : Kept L o s) :
    Keeps L o (execRelaxing i s) := by
  unfold execRelaxing
  repeat' first
    | with_reducible first | assumption | apply Keeps.next | apply State.updStr_kept | apply Kept.ite

theorem execReading_kept {L : List Blk} {o : State} (i : Fin 4) (s : State) (hT : [.est] ⊆ L) (hk : Kept L o s) :
    Keeps L o (execReading i s) := by
  unfold execReading
  repeat' first
    | with_reducible first | assumption | apply Keeps.next | apply State.updStr_kept | apply Kept.ite

theorem execEclipseReading_kept {L : List Blk} {o : State} (i : Fin 4) (s : State) (hT : [.pwm, .est, .evr] ⊆ L)
    (hk : Kept L o s) :
    Keeps L o (execEclipseReading i s) := by
  unfold execEclipseReading
  repeat' first
    | with_reducible first | assumption | apply Keeps.next | apply State.eclipseReading_kept | apply Kept.ite

theorem execRestComplete_kept {L : List Blk} {o : State} (i : Fin 4) (s : State) (hT : [.est] ⊆ L)
    (hk : Kept L o s) :
    Keeps L o (execRestComplete i s) := by
  unfold execRestComplete
  repeat' first
    | with_reducible first | assumption | apply Keeps.next | apply State.updStr_kept | apply Kept.ite

theorem execEclipseAborted_kept {L : List Blk} {o : State} (s : State) (hT : [.est, .evr] ⊆ L) (hk : Kept L o s) :
    Keeps L o (execEclipseAborted s) := by
  unfold execEclipseAborted
  repeat' first
    | with_reducible first | assumption | apply Keeps.next | apply State.abortRests_kept | apply Kept.ite

theorem execAbortRest_kept {L : List Blk} {o : State} (sess : Fin 64) (s : State) (hT : [.sys, .est, .evr] ⊆ L)
    (hk : Kept L o s) :
    Keeps L o (execAbortRest sess s) := by
  unfold execAbortRest
  repeat' first
    | with_reducible assumption
    | exact List.Subset.trans (by decide) hT
    | refine fun (_ : State) => ?_
    | with_reducible first | apply Keeps.next | exact Kept.rfl | apply State.abortRests_kept
    | with_reducible apply State.regCmd_kept

theorem State.setEclipseEn_kept {L : List Blk} {o : State} (s : State) (v : Bool) (hT : [.est] ⊆ L)
    (hk : Kept L o s) :
    Kept L o (State.setEclipseEn s v) := by
  unfold State.setEclipseEn
  repeat' first
    | with_reducible assumption
    | exact hT (by decide)
    | with_reducible apply Kept.of_est
    | simp only [↓Kept.mk_iff]

theorem execEclipseEn_kept {L : List Blk} {o : State} (sess : Fin 64) (v : Bool) (s : State)
    (hT : [.sys, .est] ⊆ L) (hk : Kept L o s) :
    Keeps L o (execEclipseEn sess v s) := by
  unfold execEclipseEn
  repeat' first
    | with_reducible assumption
    | exact List.Subset.trans (by decide) hT
    | refine fun (_ : State) => ?_
    | with_reducible first | apply Keeps.next | exact Kept.rfl | apply State.regCmd_kept
    | with_reducible apply State.setEclipseEn_kept

theorem State.forceRest_kept {L : List Blk} {o : State} (s : State) (mask : Nat) (hT : [.est] ⊆ L)
    (hk : Kept L o s) :
    Kept L o (State.forceRest s mask) := by
  unfold State.forceRest
  repeat' first
    | with_reducible first | assumption | apply Kept.foldl
    | refine fun (_ : State) _ => ?_
    | with_reducible first | exact Kept.rfl | apply State.updStr_kept

theorem execForceRest_kept {L : List Blk} {o : State} (sess : Fin 64) (mask : BitVec 4) (s : State)
    (hT : [.sys, .est] ⊆ L) (hk : Kept L o s) :
    Keeps L o (execForceRest sess mask s) := by
  unfold execForceRest
  repeat' first
    | with_reducible assumption
    | exact List.Subset.trans (by decide) hT
    | refine fun (_ : State) => ?_
    | with_reducible first | apply Keeps.next | exact Kept.rfl | apply State.forceRest_kept
    | with_reducible apply State.regCmd_kept

end Sys2Proof.Machine
end

