-- ==== Sys2Proof/Laws/KeptHcp.lean ====
section
/-! SUPPORT. What the operations of Machine/Hcp.lean keep. -/

set_option linter.unusedTactic false
set_option linter.unreachableTactic false

namespace Sys2Proof.Machine

theorem execKeepalive_kept {L : List Blk} {o : State} (h : Sys2Proof.MsgHdr) (s : State)
    (hT : [.sys, .cfg, .net, .evr, .tx] ⊆ L) (hk : Kept L o s) :
    Keeps L o (execKeepalive h s) := by
  unfold execKeepalive
  repeat' first
    | with_reducible assumption
    | refine fun (_ : State) => ?_
    | with_reducible first | apply Keeps.next | exact Kept.rfl | apply State.reply_kept | apply State.serve_kept

theorem execClose_kept {L : List Blk} {o : State} (h : Sys2Proof.MsgHdr) (s : State)
    (hT : [.sys, .cfg, .net, .evr, .tx] ⊆ L) (hk : Kept L o s) :
    Keeps L o (execClose h s) := by
  unfold execClose
  repeat' first
    | with_reducible assumption
    | exact List.Subset.trans (by decide) hT
    | refine fun (_ : State) => ?_
    | with_reducible first | apply Keeps.next | exact Kept.rfl | apply State.closeSess_kept | apply State.reply_kept
    | with_reducible apply State.serve_kept

theorem State.counted64_kept {L : List Blk} {o : State} (s : State) (h : Sys2Proof.MsgHdr) (ty : Nat) (n : Nat)
    (f : State → State) (hT : [.sys, .cfg, .net, .evr, .tx] ⊆ L) (hf : ∀ s : State, Kept L s (f s))
    (hk : Kept L o s) :
    Kept L o (State.counted64 s h ty n f) := by
  unfold State.counted64
  repeat' first
    | with_reducible first | assumption | apply State.reply_kept | apply Kept.app hf | apply Kept.ite

theorem State.announceAll_kept {L : List Blk} {o : State} (s : State) (l : List Sys2Proof.AnnounceEntry)
    (hT : [.tlk, .evr, .tx] ⊆ L)
    (hk : Kept L o s) : Kept L o (s.announceAll l).2 := by
  induction l generalizing s with
  | nil => exact hk
  | cons a l ih => exact ih _ (by apply State.announce_kept; exact List.Subset.trans (by decide) hT; exact hk)

theorem execAnnounce_kept {L : List Blk} {o : State} (h : Sys2Proof.MsgHdr) (l : List Sys2Proof.AnnounceEntry)
    (s : State) (hT : [.sys, .cfg, .tlk, .net, .evr, .tx] ⊆ L) (hk : Kept L o s) :
    Keeps L o (execAnnounce h l s) := by
  unfold execAnnounce
  repeat' first
    | with_reducible assumption
    | exact List.Subset.trans (by decide) hT
    | refine fun (_ : State) => ?_
    | with_reducible first | apply Keeps.next | exact Kept.rfl | apply State.announceAll_kept
    | with_reducible first | apply State.counted64_kept | apply State.reply_kept | apply State.serve_kept

theorem State.cancelEntry_kept {L : List Blk} {o : State} (s : State) (id : Nat) (hT : [.tlk, .evr, .tx] ⊆ L)
    (hk : Kept L o s) :
    Kept L o (State.cancelEntry s id).2 := by
  unfold State.cancelEntry
  repeat' first
    | with_reducible assumption
    | exact hT (by decide)
    | exact List.Subset.trans (by decide) hT
    | with_reducible apply Kept.foldl
    | refine fun (_ : State) _ => ?_
    | with_reducible first | exact Kept.rfl | apply State.sendGrants_kept | apply State.tryWaiters_kept
    | with_reducible apply Kept.of_tlk
    | simp only [↓Kept.mk_iff]
    | split

theorem State.cancelAll_kept {L : List Blk} {o : State} (s : State) (l : List Nat) (hT : [.tlk, .evr, .tx] ⊆ L)
    (hk : Kept L o s) : Kept L o (s.cancelAll l).2 := by
  induction l generalizing s with
  | nil => exact hk
  | cons a l ih => exact ih _ (by apply State.cancelEntry_kept; exact List.Subset.trans (by decide) hT; exact hk)

theorem execAnnounceCancel_kept {L : List Blk} {o : State} (h : Sys2Proof.MsgHdr) (ids : List (BitVec 32))
    (s : State) (hT : [.sys, .cfg, .tlk, .net, .evr, .tx] ⊆ L) (hk : Kept L o s) :
    Keeps L o (execAnnounceCancel h ids s) := by
  unfold execAnnounceCancel
  repeat' first
    | with_reducible assumption
    | exact List.Subset.trans (by decide) hT
    | refine fun (_ : State) => ?_
    | with_reducible first | apply Keeps.next | exact Kept.rfl | apply State.cancelAll_kept
    | with_reducible first | apply State.counted64_kept | apply State.reply_kept | apply State.serve_kept

theorem execFetch_kept {L : List Blk} {o : State} (h : Sys2Proof.MsgHdr) (region : BitVec 8) (index : BitVec 8)
    (off : BitVec 64) (len : BitVec 32) (s : State) (hT : [.sys, .cfg, .net, .evr, .tx] ⊆ L) (hk : Kept L o s) :
    Keeps L o (execFetch h region index off len s) := by
  unfold execFetch
  repeat' first
    | with_reducible assumption
    | exact List.Subset.trans (by decide) hT
    | refine fun (_ : State) => ?_
    | with_reducible first | apply Keeps.next | exact Kept.rfl | apply State.reply_kept | apply State.serve_kept
    | with_reducible first | apply State.updSess_kept | apply Kept.ite

theorem execFetchData_kept {L : List Blk} {o : State} (n : Fin 64) (reqId : BitVec 32) (s : State)
    (hT : [.sys, .cfg, .net, .evr, .tx, .fv] ⊆ L) (hk : Kept L o s) :
    Keeps L o (execFetchData n reqId s) := by
  unfold execFetchData
  repeat' first
    | with_reducible assumption
    | exact List.Subset.trans (by decide) hT
    | with_reducible first | apply Keeps.next | apply State.sendTo_kept | apply State.updSess_kept
    | with_reducible apply State.used_kept
    | simp only [↓Kept.mk_iff]
    | with_reducible apply Kept.ite
    | split

theorem execPushBegin_kept {L : List Blk} {o : State} (h : Sys2Proof.MsgHdr) (total : BitVec 32) (s : State)
    (hT : [.sys, .cfg, .net, .mem, .evr, .tx] ⊆ L) (hk : Kept L o s) :
    Keeps L o (execPushBegin h total s) := by
  unfold execPushBegin
  repeat' first
    | with_reducible assumption
    | exact hT (by decide)
    | exact List.Subset.trans (by decide) hT
    | refine fun (_ : State) => ?_
    | with_reducible first | apply Keeps.next | exact Kept.rfl | apply State.dropShadow_kept | apply State.ev_kept
    | with_reducible first | apply State.reply_kept | apply State.serve_kept | apply State.stageBegin_kept
    | with_reducible apply Kept.of_cfg
    | simp only [↓Kept.mk_iff]
    | with_reducible apply Kept.ite

theorem execPushData_kept {L : List Blk} {o : State} (h : Sys2Proof.MsgHdr) (off : BitVec 32) (data : List Byte)
    (s : State) (hT : [.sys, .cfg, .net, .mem, .evr, .tx] ⊆ L) (hk : Kept L o s) :
    Keeps L o (execPushData h off data s) := by
  unfold execPushData
  repeat' first
    | with_reducible assumption
    | exact hT (by decide)
    | exact List.Subset.trans (by decide) hT
    | refine fun (_ : State) => ?_
    | with_reducible first | apply Keeps.next | exact Kept.rfl | apply State.reply_kept | apply State.serve_kept
    | with_reducible first | apply State.stagePut_kept | apply Kept.of_cfg
    | simp only [↓Kept.mk_iff]
    | with_reducible apply Kept.ite
    | split

theorem execPushEnd_kept {L : List Blk} {o : State} (h : Sys2Proof.MsgHdr) (s : State)
    (hT : [.sys, .sec, .cfg, .net, .evr, .tx] ⊆ L) (hk : Kept L o s) :
    Keeps L o (execPushEnd h s) := by
  unfold execPushEnd
  repeat' first
    | with_reducible assumption
    | exact hT (by decide)
    | exact List.Subset.trans (by decide) hT
    | with_reducible first | exact fun h => h | exact Nat.le_refl _
    | refine fun (_ : State) => ?_
    | with_reducible first | apply Keeps.next | exact Kept.rfl | apply State.dropShadow_kept
    | with_reducible first | apply State.reply_kept | apply State.serve_kept | apply Kept.of_cfg | apply Kept.of_any
    | (intro b hb; cases b <;> first | exact absurd (hT (by decide)) hb | rfl)
    | simp only [↓Kept.mk_iff]
    | with_reducible apply Kept.ite
    | split

theorem execPushTimeout_kept {L : List Blk} {o : State} (s : State) (hT : [.cfg, .evr] ⊆ L) (hk : Kept L o s) :
    Keeps L o (execPushTimeout s) := by
  unfold execPushTimeout
  repeat' first
    | with_reducible first | assumption | apply Keeps.next | apply State.dropShadow_kept | apply Kept.ite

theorem execAttest_kept {L : List Blk} {o : State} (h : Sys2Proof.MsgHdr) (nonce : List Byte) (s : State)
    (hT : [.sys, .sec, .cfg, .net, .evr, .tx, .fv] ⊆ L) (hk : Kept L o s) :
    Keeps L o (execAttest h nonce s) := by
  unfold execAttest
  repeat' first
    | with_reducible assumption
    | exact hT (by decide)
    | exact List.Subset.trans (by decide) hT
    | with_reducible exact Nat.le_refl _
    | ((try lift_lets); intro x; refine Kept.cut (x := x) ?_ ?_; rotate_left; clear_value x; intro _; rotate_left; unfold x)
    | refine fun (_ : State) => ?_
    | with_reducible first | apply Keeps.next | exact Kept.rfl | apply State.ev_kept | apply State.reply_kept
    | with_reducible first | apply State.sendTo_kept | apply State.serve_kept | apply State.used_kept
    | with_reducible apply Kept.of_sec
    | simp only [↓Kept.mk_iff]

theorem State.takeBudget_kept {L : List Blk} {o : State} (s : State) (version : Nat) (budget : Nat)
    (src : Nat × Nat) (hT : [.net, .evr] ⊆ L) (hk : Kept L o s) :
    Kept L o (State.takeBudget s version budget src) := by
  unfold State.takeBudget
  repeat' first
    | with_reducible assumption
    | exact hT (by decide)
    | exact List.Subset.trans (by decide) hT
    | with_reducible first | apply State.ev_kept | apply Kept.of_net
    | simp only [↓Kept.mk_iff]
    | with_reducible apply Kept.ite

theorem State.sendBudget_kept {L : List Blk} {o : State} (s : State) (hT : [.net, .tx] ⊆ L) (hk : Kept L o s) :
    Kept L o (State.sendBudget s) := by
  unfold State.sendBudget
  repeat' first
    | with_reducible first | assumption | apply State.rowSend_kept

theorem execRowBudget_kept {L : List Blk} {o : State} (h : Sys2Proof.MsgHdr) (version : BitVec 32)
    (budget : BitVec 32) (s : State) (hT : [.sys, .cfg, .net, .evr, .tx] ⊆ L) (hk : Kept L o s) :
    Keeps L o (execRowBudget h version budget s) := by
  unfold execRowBudget
  repeat' first
    | with_reducible assumption
    | exact List.Subset.trans (by decide) hT
    | refine fun (_ : State) => ?_
    | with_reducible first | apply Keeps.next | exact Kept.rfl | apply State.reply_kept
    | with_reducible first | apply State.sendBudget_kept | apply State.serve_kept | apply State.takeBudget_kept
    | with_reducible apply Kept.ite

theorem execMacsecKey_kept {L : List Blk} {o : State} (h : Sys2Proof.MsgHdr) (ckn : List Byte) (cak : List Byte)
    (s : State) (hT : [.sys, .cfg, .net, .evr, .tx] ⊆ L) (hk : Kept L o s) :
    Keeps L o (execMacsecKey h ckn cak s) := by
  unfold execMacsecKey
  repeat' first
    | with_reducible assumption
    | exact hT (by decide)
    | exact List.Subset.trans (by decide) hT
    | refine fun (_ : State) => ?_
    | with_reducible first | apply Keeps.next | exact Kept.rfl | apply State.macsecEnds_kept
    | with_reducible first | apply State.reply_kept | apply State.serve_kept | apply Kept.of_net
    | simp only [↓Kept.mk_iff]

end Sys2Proof.Machine
end

