-- ==== Sys2Proof/Laws/KeptLoop.lean ====
section
/-! SUPPORT. What the operations of Machine/Loop.lean keep. -/

set_option linter.unusedTactic false
set_option linter.unreachableTactic false

namespace Sys2Proof.Machine

theorem State.unfreeze_kept {L : List Blk} {o : State} (s : State) (i : Fin 64) (hT : [.loop, .evr] ⊆ L)
    (hk : Kept L o s) :
    Kept L o (State.unfreeze s i) := by
  unfold State.unfreeze
  repeat' first
    | with_reducible assumption
    | exact List.Subset.trans (by decide) hT
    | with_reducible first | apply State.ev_kept | apply State.updSlot_kept
    | simp only [↓Kept.mk_iff]
    | with_reducible apply Kept.ite

theorem execIntegReleased_kept {L : List Blk} {o : State} (i : Fin 64) (s : State) (hT : [.loop, .evr] ⊆ L)
    (hk : Kept L o s) :
    Keeps L o (execIntegReleased i s) := by
  unfold execIntegReleased
  repeat' first
    | with_reducible first | assumption | apply Keeps.next | apply State.unfreeze_kept | apply Kept.ite
    | split

theorem State.testStart_kept {L : List Blk} {o : State} (s : State) (i : Fin 64) (hT : [.loop] ⊆ L)
    (hk : Kept L o s) :
    Kept L o (State.testStart s i) := by
  unfold State.testStart
  repeat' first
    | with_reducible first | assumption | apply State.updSlot_kept
    | simp only [↓Kept.mk_iff]
    | with_reducible apply Kept.ite

theorem execTestStart_kept {L : List Blk} {o : State} (sess : Fin 64) (i : Fin 64) (s : State)
    (hT : [.sys, .loop] ⊆ L) (hk : Kept L o s) :
    Keeps L o (execTestStart sess i s) := by
  unfold execTestStart
  repeat' first
    | with_reducible assumption
    | exact List.Subset.trans (by decide) hT
    | refine fun (_ : State) => ?_
    | with_reducible first | apply Keeps.next | exact Kept.rfl | apply State.regCmdAt_kept
    | with_reducible apply State.testStart_kept

theorem execTestStarted_kept {L : List Blk} {o : State} (i : Fin 64) (s : State) (hT : [.loop, .evr] ⊆ L)
    (hk : Kept L o s) :
    Keeps L o (execTestStarted i s) := by
  unfold execTestStarted
  repeat' first
    | with_reducible assumption
    | exact List.Subset.trans (by decide) hT
    | with_reducible first | apply Keeps.next | apply State.ev_kept | apply State.updSlot_kept
    | simp only [↓Kept.mk_iff]
    | with_reducible apply Kept.ite
    | split

theorem execTestDone_kept {L : List Blk} {o : State} (i : Fin 64) (s : State) (hT : [.loop, .evr] ⊆ L)
    (hk : Kept L o s) :
    Keeps L o (execTestDone i s) := by
  unfold execTestDone
  repeat' first
    | with_reducible assumption
    | exact List.Subset.trans (by decide) hT
    | with_reducible first | apply Keeps.next | apply State.ev_kept | apply State.updSlot_kept
    | simp only [↓Kept.mk_iff]
    | with_reducible apply Kept.ite
    | split

theorem execTestStop_kept {L : List Blk} {o : State} (sess : Fin 64) (i : Fin 64) (s : State)
    (hT : [.sys, .loop, .evr] ⊆ L) (hk : Kept L o s) :
    Keeps L o (execTestStop sess i s) := by
  unfold execTestStop
  repeat' first
    | with_reducible assumption
    | exact List.Subset.trans (by decide) hT
    | refine fun (_ : State) => ?_
    | with_reducible first | apply Keeps.next | exact Kept.rfl | apply State.regCmdAt_kept
    | with_reducible apply State.testAbort_kept

theorem State.bankPrimary_kept {L : List Blk} {o : State} (s : State) (i : Fin 64) (hT : [.loop] ⊆ L)
    (hk : Kept L o s) :
    Kept L o (State.bankPrimary s i) := by
  unfold State.bankPrimary
  repeat' first
    | with_reducible first | assumption | apply State.updSlot_kept | apply Kept.ite

theorem execBankPrimary_kept {L : List Blk} {o : State} (sess : Fin 64) (i : Fin 64) (s : State)
    (hT : [.sys, .loop] ⊆ L) (hk : Kept L o s) :
    Keeps L o (execBankPrimary sess i s) := by
  unfold execBankPrimary
  repeat' first
    | with_reducible assumption
    | exact List.Subset.trans (by decide) hT
    | refine fun (_ : State) => ?_
    | with_reducible first | apply Keeps.next | exact Kept.rfl | apply State.bankPrimary_kept
    | with_reducible apply State.regCmdAt_kept

theorem execUnfreeze_kept {L : List Blk} {o : State} (sess : Fin 64) (i : Fin 64) (s : State)
    (hT : [.sys, .loop, .evr] ⊆ L) (hk : Kept L o s) :
    Keeps L o (execUnfreeze sess i s) := by
  unfold execUnfreeze
  repeat' first
    | with_reducible assumption
    | exact List.Subset.trans (by decide) hT
    | refine fun (_ : State) => ?_
    | with_reducible first | apply Keeps.next | exact Kept.rfl | apply State.regCmdAt_kept
    | with_reducible apply State.unfreeze_kept

theorem execSnapshotTaken_kept {L : List Blk} {o : State} (i : Fin 64) (s : State) (hT : [.loop, .evr] ⊆ L)
    (hk : Kept L o s) :
    Keeps L o (execSnapshotTaken i s) := by
  unfold execSnapshotTaken
  repeat' first
    | with_reducible assumption
    | exact List.Subset.trans (by decide) hT
    | with_reducible first | apply Keeps.next | apply State.ev_kept | apply State.updSlot_kept | apply Kept.ite

theorem State.snapRelease_kept {L : List Blk} {o : State} (s : State) (i : Fin 64) (hT : [.loop, .evr] ⊆ L)
    (hk : Kept L o s) :
    Kept L o (State.snapRelease s i) := by
  unfold State.snapRelease
  repeat' first
    | with_reducible assumption
    | exact List.Subset.trans (by decide) hT
    | with_reducible first | apply State.ev_kept | apply State.updSlot_kept | apply Kept.ite

theorem execSnapRelease_kept {L : List Blk} {o : State} (sess : Fin 64) (i : Fin 64) (s : State)
    (hT : [.sys, .loop, .evr] ⊆ L) (hk : Kept L o s) :
    Keeps L o (execSnapRelease sess i s) := by
  unfold execSnapRelease
  repeat' first
    | with_reducible assumption
    | exact List.Subset.trans (by decide) hT
    | refine fun (_ : State) => ?_
    | with_reducible first | apply Keeps.next | exact Kept.rfl | apply State.regCmdAt_kept
    | with_reducible apply State.snapRelease_kept

end Sys2Proof.Machine
end

