-- ==== Sys2Proof/Laws/KeptProt.lean ====
section
/-! SUPPORT. What the operations of Machine/Prot.lean keep. -/

set_option linter.unusedTactic false
set_option linter.unreachableTactic false

namespace Sys2Proof.Machine

theorem execStringIsolated_kept {L : List Blk} {o : State} (i : Fin 4) (s : State)
    (hT : [.sys, .afe, .pwm, .fce, .tlk, .chn, .net, .prot, .evr, .tx, .fv] ⊆ L) (hk : Kept L o s) :
    Keeps L o (execStringIsolated i s) := by
  unfold execStringIsolated
  repeat' first
    | with_reducible first | assumption | apply Keeps.next | apply State.isolate_kept | apply Kept.ite

theorem execUnmonLimited_kept {L : List Blk} {o : State} (i : Fin 4) (s : State) (hT : [.prot, .evr, .fv] ⊆ L)
    (hk : Kept L o s) :
    Keeps L o (execUnmonLimited i s) := by
  unfold execUnmonLimited
  repeat' first
    | with_reducible assumption
    | exact List.Subset.trans (by decide) hT
    | with_reducible first | apply Keeps.next | apply State.strTrip_kept | apply State.updStrProt_kept
    | simp only [↓Kept.mk_iff]
    | with_reducible apply Kept.ite
    | split

theorem execBusOvTrip_kept {L : List Blk} {o : State} (v : Int) (s : State)
    (hT : [.power, .clk, .sys, .sec, .cfg, .afe, .loop, .pwm, .fce, .tlk, .chn, .est, .net, .prot, .mem, .evr, .tx] ⊆ L) (hk : Kept L o s) :
    Keeps L o (execBusOvTrip v s) := by
  unfold execBusOvTrip
  repeat' first
    | with_reducible assumption
    | exact hT (by decide)
    | exact List.Subset.trans (by decide) hT
    | with_reducible first | apply Keeps.next | apply State.afterOff_kept | apply State.gdrvLow_kept
    | with_reducible first | apply State.groupsOff_kept | apply State.leaveRunOff_kept | apply State.tripV_kept
    | with_reducible apply Kept.of_prot
    | simp only [↓Kept.mk_iff]
    | with_reducible apply Kept.ite
    | split

theorem execBusOvRecovery_kept {L : List Blk} {o : State} (s : State) (hT : [.sys, .prot] ⊆ L) (hk : Kept L o s) :
    Keeps L o (execBusOvRecovery s) := by
  unfold execBusOvRecovery
  repeat' first
    | with_reducible assumption
    | exact hT (by decide)
    | exact List.Subset.trans (by decide) hT
    | with_reducible first | apply Keeps.next | apply State.basaltGdrv_kept | apply Kept.of_prot
    | simp only [↓Kept.mk_iff]
    | with_reducible apply Kept.ite

theorem execBusUvTrip_kept {L : List Blk} {o : State} (v : Int) (s : State)
    (hT : [.sys, .tlk, .prot, .evr, .tx] ⊆ L) (hk : Kept L o s) :
    Keeps L o (execBusUvTrip v s) := by
  unfold execBusUvTrip
  repeat' first
    | with_reducible assumption
    | exact hT (by decide)
    | exact List.Subset.trans (by decide) hT
    | with_reducible first | apply Keeps.next | apply State.holdSync_kept | apply State.throttleAllPorts_kept
    | with_reducible first | apply State.tripV_kept | apply Kept.of_prot
    | simp only [↓Kept.mk_iff]
    | with_reducible apply Kept.ite

theorem execBusUvCleared_kept {L : List Blk} {o : State} (s : State) (hT : [.sys, .tlk, .prot, .evr, .tx] ⊆ L)
    (hk : Kept L o s) :
    Keeps L o (execBusUvCleared s) := by
  unfold execBusUvCleared
  repeat' first
    | with_reducible assumption
    | exact hT (by decide)
    | exact List.Subset.trans (by decide) hT
    | with_reducible first | apply Keeps.next | apply State.basaltGdrv_kept | apply State.clearCause_kept
    | with_reducible first | apply State.ev_kept | apply State.holdSync_kept | apply Kept.of_prot
    | simp only [↓Kept.mk_iff]
    | with_reducible apply Kept.ite

theorem execBusFault_kept {L : List Blk} {o : State} (v : Int) (s : State)
    (hT : [.power, .clk, .sys, .sec, .cfg, .afe, .loop, .pwm, .fce, .tlk, .chn, .est, .net, .prot, .mem, .evr, .tx] ⊆ L) (hk : Kept L o s) :
    Keeps L o (execBusFault v s) := by
  unfold execBusFault
  repeat' first
    | with_reducible assumption
    | exact hT (by decide)
    | exact List.Subset.trans (by decide) hT
    | with_reducible first | apply Keeps.next | apply State.afterOff_kept | apply State.gdrvLow_kept
    | with_reducible first | apply State.groupsOff_kept | apply State.leaveRunOff_kept | apply State.tripV_kept
    | with_reducible apply Kept.of_prot
    | simp only [↓Kept.mk_iff]
    | with_reducible apply Kept.ite
    | split

theorem execDieWarn_kept {L : List Blk} {o : State} (t : Int) (s : State) (hT : [.fce, .prot, .evr] ⊆ L)
    (hk : Kept L o s) :
    Keeps L o (execDieWarn t s) := by
  unfold execDieWarn
  repeat' first
    | with_reducible assumption
    | exact List.Subset.trans (by decide) hT
    | ((try lift_lets); intro x; refine Keeps.cut (x := x) ?_ ?_; rotate_left; clear_value x; intro _; rotate_left; unfold x)
    | with_reducible first | apply Keeps.next | apply State.dieRead_kept | apply State.dieWarnSet_kept
    | with_reducible apply Kept.ite

theorem execDieWarnCleared_kept {L : List Blk} {o : State} (t : Int) (s : State) (hT : [.fce, .prot, .evr] ⊆ L)
    (hk : Kept L o s) :
    Keeps L o (execDieWarnCleared t s) := by
  unfold execDieWarnCleared
  repeat' first
    | with_reducible assumption
    | exact List.Subset.trans (by decide) hT
    | with_reducible first | exact fun h => h | exact Nat.le_refl _
    | ((try lift_lets); intro x; refine Keeps.cut (x := x) ?_ ?_; rotate_left; clear_value x; intro _; rotate_left; unfold x)
    | with_reducible first | apply Keeps.next | apply State.dieRead_kept | apply State.engineSync_kept
    | with_reducible first | apply State.ev_kept | apply Kept.of_any
    | (intro b hb; cases b <;> first | exact absurd (hT (by decide)) hb | rfl)
    | simp only [↓Kept.mk_iff]
    | with_reducible apply Kept.ite

theorem execDieTrip_kept {L : List Blk} {o : State} (t : Int) (s : State)
    (hT : [.power, .clk, .sys, .sec, .cfg, .afe, .loop, .pwm, .fce, .tlk, .chn, .est, .net, .prot, .mem, .evr, .tx, .fv] ⊆ L) (hk : Kept L o s) :
    Keeps L o (execDieTrip t s) := by
  unfold execDieTrip
  repeat' first
    | with_reducible assumption
    | exact List.Subset.trans (by decide) hT
    | ((try lift_lets); intro x; refine Keeps.cut (x := x) ?_ ?_; rotate_left; clear_value x; intro _; rotate_left; unfold x)
    | with_reducible first | apply Keeps.next | apply State.basaltCause_kept | apply State.dieRead_kept
    | with_reducible first | apply State.dieWarnSet_kept | apply State.tripV_kept | apply Kept.ite

theorem execMissedTicks_kept {L : List Blk} {o : State} (missed : Nat) (s : State)
    (hT : [.power, .clk, .sys, .sec, .cfg, .afe, .loop, .pwm, .fce, .tlk, .chn, .est, .net, .prot, .mem, .evr, .tx, .fv] ⊆ L) (hk : Kept L o s) :
    Keeps L o (execMissedTicks missed s) := by
  unfold execMissedTicks
  repeat' first
    | with_reducible assumption
    | exact hT (by decide)
    | with_reducible first | apply Keeps.next | apply State.basaltCause_kept | apply Kept.of_prot
    | simp only [↓Kept.mk_iff]
    | with_reducible apply Kept.ite

theorem State.basaltFrames_kept {L : List Blk} {o : State} (s : State) (g : Fin 4) (hT : [.pwm] ⊆ L)
    (hk : Kept L o s) :
    Kept L o (State.basaltFrames s g) := by
  unfold State.basaltFrames
  repeat' first
    | with_reducible first | assumption | apply State.placeOffsets_kept | apply State.reinterleave_kept
    | with_reducible first | apply State.scheduleFrame_kept | apply State.updGrp_kept
    | simp only [↓Kept.mk_iff]
    | with_reducible apply Kept.ite

theorem State.rootlessStep_kept {L : List Blk} {o : State} (s : State) (hT : [.sys, .pwm, .prot] ⊆ L)
    (hk : Kept L o s) :
    Kept L o (State.rootlessStep s) := by
  unfold State.rootlessStep
  repeat' first
    | with_reducible assumption
    | exact hT (by decide)
    | exact List.Subset.trans (by decide) hT
    | with_reducible apply Kept.foldl
    | refine fun (_ : State) _ => ?_
    | with_reducible first | exact Kept.rfl | apply State.gdrvLow_kept | apply State.updPh_kept | apply Kept.of_prot
    | simp only [↓Kept.mk_iff]
    | with_reducible apply Kept.ite

theorem State.basaltTake_kept {L : List Blk} {o : State} (s : State) (g : Fin 4) (i : Int)
    (hT : [.pwm, .prot] ⊆ L) (hk : Kept L o s) :
    Kept L o (State.basaltTake s g i) := by
  unfold State.basaltTake
  repeat' first
    | with_reducible assumption
    | exact hT (by decide)
    | exact List.Subset.trans (by decide) hT
    | with_reducible apply Kept.foldl
    | refine fun (_ : State) _ => ?_
    | with_reducible first | exact Kept.rfl | apply State.updPh_kept | apply Kept.of_prot
    | simp only [↓Kept.mk_iff]

theorem State.basaltRamp_kept {L : List Blk} {o : State} (s : State) (g : Fin 4) (hT : [.pwm, .prot] ⊆ L)
    (hk : Kept L o s) :
    Kept L o (State.basaltRamp s g) := by
  unfold State.basaltRamp
  repeat' first
    | with_reducible assumption
    | exact List.Subset.trans (by decide) hT
    | ((try lift_lets); intro x; refine Kept.cut (x := x) ?_ ?_; rotate_left; clear_value x; intro _; rotate_left; unfold x)
    | with_reducible first | apply State.basaltTake_kept | apply State.updGrp_kept | apply Kept.ite

theorem execBasaltUpdate_kept {L : List Blk} {o : State} (m : Sys2Proof.BasaltSense) (s : State)
    (hT : [.sys, .pwm, .prot] ⊆ L) (hk : Kept L o s) :
    Keeps L o (execBasaltUpdate m s) := by
  unfold execBasaltUpdate
  repeat' first
    | with_reducible assumption
    | exact hT (by decide)
    | exact List.Subset.trans (by decide) hT
    | with_reducible apply Kept.foldl
    | refine fun (_ : State) _ => ?_
    | with_reducible first | apply Keeps.next | exact Kept.rfl | apply State.basaltFrames_kept
    | with_reducible first | apply State.basaltRamp_kept | apply State.basaltTake_kept
    | with_reducible first | apply State.rootlessStep_kept | apply Kept.of_prot
    | simp only [↓Kept.mk_iff]
    | with_reducible apply Kept.ite
    | split

theorem execEntryHoldRelease_kept {L : List Blk} {o : State} (s : State) (hT : [.sys, .tlk, .prot, .evr, .tx] ⊆ L)
    (hk : Kept L o s) :
    Keeps L o (execEntryHoldRelease s) := by
  unfold execEntryHoldRelease
  repeat' first
    | with_reducible assumption
    | exact hT (by decide)
    | exact List.Subset.trans (by decide) hT
    | with_reducible first | apply Keeps.next | apply State.holdSync_kept | apply Kept.of_prot
    | simp only [↓Kept.mk_iff]
    | with_reducible apply Kept.ite

theorem execBasaltRootlessStop_kept {L : List Blk} {o : State} (s : State) (hT : [.prot, .evr] ⊆ L)
    (hk : Kept L o s) :
    Keeps L o (execBasaltRootlessStop s) := by
  unfold execBasaltRootlessStop
  repeat' first
    | with_reducible assumption
    | exact hT (by decide)
    | exact List.Subset.trans (by decide) hT
    | with_reducible first | apply Keeps.next | apply State.ev_kept | apply Kept.of_prot
    | simp only [↓Kept.mk_iff]
    | with_reducible apply Kept.ite

theorem execMissedTicksCleared_kept {L : List Blk} {o : State} (s : State) (hT : [.prot, .evr] ⊆ L)
    (hk : Kept L o s) :
    Keeps L o (execMissedTicksCleared s) := by
  unfold execMissedTicksCleared
  repeat' first
    | with_reducible first | assumption | apply Keeps.next | apply State.causeClear_kept | apply Kept.ite

theorem execDieTripCleared_kept {L : List Blk} {o : State} (t : Int) (s : State) (hT : [.prot, .evr] ⊆ L)
    (hk : Kept L o s) :
    Keeps L o (execDieTripCleared t s) := by
  unfold execDieTripCleared
  repeat' first
    | with_reducible assumption
    | exact List.Subset.trans (by decide) hT
    | ((try lift_lets); intro x; refine Keeps.cut (x := x) ?_ ?_; rotate_left; clear_value x; intro _; rotate_left; unfold x)
    | with_reducible first | apply Keeps.next | apply State.causeClear_kept | apply State.dieRead_kept
    | with_reducible apply Kept.ite

theorem execBasaltAutoExit_kept {L : List Blk} {o : State} (s : State)
    (hT : [.power, .clk, .sys, .sec, .cfg, .afe, .loop, .pwm, .fce, .tlk, .chn, .est, .net, .prot, .mem, .evr, .tx] ⊆ L) (hk : Kept L o s) :
    Keeps L o (execBasaltAutoExit s) := by
  unfold execBasaltAutoExit
  repeat' first
    | with_reducible assumption
    | exact List.Subset.trans (by decide) hT
    | with_reducible first | apply Keeps.next | apply State.afterBasalt_kept | apply State.basaltExit_kept
    | with_reducible apply Kept.ite

theorem execBasaltEnter_kept {L : List Blk} {o : State} (sess : Fin 64) (s : State)
    (hT : [.power, .clk, .sys, .sec, .cfg, .afe, .loop, .pwm, .fce, .tlk, .chn, .est, .net, .prot, .mem, .evr, .tx, .fv] ⊆ L) (hk : Kept L o s) :
    Keeps L o (execBasaltEnter sess s) := by
  unfold execBasaltEnter
  repeat' first
    | with_reducible assumption
    | exact List.Subset.trans (by decide) hT
    | refine fun (_ : State) => ?_
    | with_reducible first | apply Keeps.next | exact Kept.rfl | apply State.basaltCause_kept
    | with_reducible apply State.regCmd_kept

theorem State.basaltExitReq_kept {L : List Blk} {o : State} (s : State)
    (hT : [.power, .clk, .sys, .sec, .cfg, .afe, .loop, .pwm, .fce, .tlk, .chn, .est, .net, .prot, .mem, .evr, .tx] ⊆ L) (hk : Kept L o s) :
    Kept L o (State.basaltExitReq s) := by
  unfold State.basaltExitReq
  repeat' first
    | with_reducible assumption
    | exact List.Subset.trans (by decide) hT
    | with_reducible first | apply State.afterBasalt_kept | apply State.basaltExit_kept | apply Kept.ite

theorem execBasaltExit_kept {L : List Blk} {o : State} (sess : Fin 64) (s : State)
    (hT : [.power, .clk, .sys, .sec, .cfg, .afe, .loop, .pwm, .fce, .tlk, .chn, .est, .net, .prot, .mem, .evr, .tx] ⊆ L) (hk : Kept L o s) :
    Keeps L o (execBasaltExit sess s) := by
  unfold execBasaltExit
  repeat' first
    | with_reducible assumption
    | exact List.Subset.trans (by decide) hT
    | refine fun (_ : State) => ?_
    | with_reducible first | apply Keeps.next | exact Kept.rfl | apply State.basaltExitReq_kept
    | with_reducible apply State.regCmd_kept

theorem State.groupReturn_kept {L : List Blk} {o : State} (s : State) (g : Fin 4)
    (hT : [.sys, .loop, .pwm, .evr] ⊆ L) (hk : Kept L o s) :
    Kept L o (State.groupReturn s g) := by
  unfold State.groupReturn
  repeat' first
    | with_reducible assumption
    | exact List.Subset.trans (by decide) hT
    | with_reducible first | apply State.ev_kept | apply State.resumeGroup_kept | apply State.startGroup_kept
    | with_reducible apply Kept.ite

theorem State.groupReturns_kept {L : List Blk} {o : State} (s : State) (mask : Nat)
    (hT : [.sys, .loop, .pwm, .evr] ⊆ L) (hk : Kept L o s) :
    Kept L o (State.groupReturns s mask) := by
  unfold State.groupReturns
  repeat' first
    | with_reducible first | assumption | apply Kept.foldl
    | refine fun (_ : State) _ => ?_
    | with_reducible first | exact Kept.rfl | apply State.groupReturn_kept | apply Kept.ite

theorem execGroupReturn_kept {L : List Blk} {o : State} (sess : Fin 64) (mask : BitVec 4) (s : State)
    (hT : [.sys, .loop, .pwm, .evr] ⊆ L) (hk : Kept L o s) :
    Keeps L o (execGroupReturn sess mask s) := by
  unfold execGroupReturn
  repeat' first
    | with_reducible assumption
    | exact List.Subset.trans (by decide) hT
    | refine fun (_ : State) => ?_
    | with_reducible first | apply Keeps.next | exact Kept.rfl | apply State.groupReturns_kept
    | with_reducible apply State.regCmd_kept

theorem execCoolantFlowLow_kept {L : List Blk} {o : State} (s : State) (hT : [.prot, .evr] ⊆ L) (hk : Kept L o s) :
    Keeps L o (execCoolantFlowLow s) := by
  unfold execCoolantFlowLow
  repeat' first
    | with_reducible assumption
    | exact hT (by decide)
    | with_reducible first | apply Keeps.next | apply State.coolantLoss_kept | apply Kept.of_prot
    | simp only [↓Kept.mk_iff]
    | with_reducible apply Kept.ite

theorem State.cduAlarm_kept {L : List Blk} {o : State} (s : State) (hT : [.prot, .evr] ⊆ L) (hk : Kept L o s) :
    Kept L o (State.cduAlarm s) := by
  unfold State.cduAlarm
  repeat' first
    | with_reducible assumption
    | exact hT (by decide)
    | with_reducible first | apply State.coolantLoss_kept | apply Kept.of_prot
    | simp only [↓Kept.mk_iff]

theorem execCduAlarm_kept {L : List Blk} {o : State} (sess : Fin 64) (s : State) (hT : [.sys, .prot, .evr] ⊆ L)
    (hk : Kept L o s) :
    Keeps L o (execCduAlarm sess s) := by
  unfold execCduAlarm
  repeat' first
    | with_reducible assumption
    | exact List.Subset.trans (by decide) hT
    | refine fun (_ : State) => ?_
    | with_reducible first | apply Keeps.next | exact Kept.rfl | apply State.cduAlarm_kept | apply State.regCmd_kept

theorem execThermalRampStep_kept {L : List Blk} {o : State} (s : State) (hT : [.tlk, .prot, .evr, .tx] ⊆ L)
    (hk : Kept L o s) :
    Keeps L o (execThermalRampStep s) := by
  unfold execThermalRampStep
  repeat' first
    | with_reducible first | assumption | apply Keeps.next | apply State.rampStep_kept

theorem State.cduClear_kept {L : List Blk} {o : State} (s : State) (hT : [.prot, .evr] ⊆ L) (hk : Kept L o s) :
    Kept L o (State.cduClear s) := by
  unfold State.cduClear
  repeat' first
    | with_reducible assumption
    | exact hT (by decide)
    | with_reducible apply Kept.of_prot
    | simp only [↓Kept.mk_iff]

theorem execCduClear_kept {L : List Blk} {o : State} (sess : Fin 64) (s : State) (hT : [.sys, .prot, .evr] ⊆ L)
    (hk : Kept L o s) :
    Keeps L o (execCduClear sess s) := by
  unfold execCduClear
  repeat' first
    | with_reducible assumption
    | exact List.Subset.trans (by decide) hT
    | refine fun (_ : State) => ?_
    | with_reducible first | apply Keeps.next | exact Kept.rfl | apply State.cduClear_kept | apply State.regCmd_kept

theorem execCoolantRestored_kept {L : List Blk} {o : State} (s : State) (hT : [.prot, .evr] ⊆ L) (hk : Kept L o s) :
    Keeps L o (execCoolantRestored s) := by
  unfold execCoolantRestored
  repeat' first
    | with_reducible assumption
    | exact hT (by decide)
    | exact List.Subset.trans (by decide) hT
    | with_reducible first | apply Keeps.next | apply State.ev_kept | apply Kept.of_prot
    | simp only [↓Kept.mk_iff]
    | with_reducible apply Kept.ite

theorem execCoolantGroupStop_kept {L : List Blk} {o : State} (s : State)
    (hT : [.power, .clk, .sys, .sec, .cfg, .afe, .loop, .pwm, .fce, .tlk, .chn, .est, .net, .prot, .mem, .evr, .tx] ⊆ L) (hk : Kept L o s) :
    Keeps L o (execCoolantGroupStop s) := by
  unfold execCoolantGroupStop
  repeat' first
    | with_reducible first | assumption | apply Keeps.next | apply State.coolStop_kept

theorem execCoolantCritRecovery_kept {L : List Blk} {o : State} (s : State) (hT : [.prot] ⊆ L) (hk : Kept L o s) :
    Keeps L o (execCoolantCritRecovery s) := by
  unfold execCoolantCritRecovery
  repeat' first
    | with_reducible assumption
    | exact hT (by decide)
    | with_reducible first | apply Keeps.next | apply Kept.of_prot
    | simp only [↓Kept.mk_iff]
    | with_reducible apply Kept.ite

theorem State.tripClear_kept {L : List Blk} {o : State} (s : State) (hT : [.prot] ⊆ L) (hk : Kept L o s) :
    Kept L o (State.tripClear s) := by
  unfold State.tripClear
  repeat' first
    | with_reducible assumption
    | exact hT (by decide)
    | with_reducible apply Kept.of_prot
    | simp only [↓Kept.mk_iff]

theorem execTripClear_kept {L : List Blk} {o : State} (sess : Fin 64) (s : State) (hT : [.sys, .prot] ⊆ L)
    (hk : Kept L o s) :
    Keeps L o (execTripClear sess s) := by
  unfold execTripClear
  repeat' first
    | with_reducible assumption
    | exact List.Subset.trans (by decide) hT
    | refine fun (_ : State) => ?_
    | with_reducible first | apply Keeps.next | exact Kept.rfl | apply State.regCmd_kept
    | with_reducible apply State.tripClear_kept

end Sys2Proof.Machine
end

