-- ==== Sys2Proof/Laws/KeptRow.lean ====
section
/-! SUPPORT. What the operations of Machine/Row.lean keep. -/

set_option linter.unusedTactic false
set_option linter.unreachableTactic false

namespace Sys2Proof.Machine

theorem State.slew_kept {L : List Blk} {o : State} (s : State) (d : Int) (hT : [.net] ⊆ L) (hk : Kept L o s) :
    Kept L o (State.slew s d) := by
  unfold State.slew
  repeat' first
    | with_reducible assumption
    | exact hT (by decide)
    | with_reducible apply Kept.of_net
    | simp only [↓Kept.mk_iff]

theorem State.timeFollow_kept {L : List Blk} {o : State} (s : State) (hT : [.net] ⊆ L) (hk : Kept L o s) :
    Kept L o (State.timeFollow s) := by
  unfold State.timeFollow
  repeat' first
    | with_reducible assumption
    | exact hT (by decide)
    | with_reducible apply Kept.of_net
    | simp only [↓Kept.mk_iff]
    | with_reducible apply Kept.ite

theorem State.ptpUnlock_kept {L : List Blk} {o : State} (s : State) (hT : [.clk, .net, .evr] ⊆ L)
    (hk : Kept L o s) :
    Kept L o (State.ptpUnlock s) := by
  unfold State.ptpUnlock
  repeat' first
    | with_reducible assumption
    | exact hT (by decide)
    | exact List.Subset.trans (by decide) hT
    | with_reducible first | exact fun h => h | exact Nat.le_refl _ | apply State.ev_kept | apply Kept.of_net
    | with_reducible apply Kept.of_any
    | (intro b hb; cases b <;> first | exact absurd (hT (by decide)) hb | rfl)
    | simp only [↓Kept.mk_iff]
    | with_reducible apply Kept.ite

theorem State.ptpSetLock_kept {L : List Blk} {o : State} (s : State) (time : Nat)
    (hT : [.clk, .sys, .tlk, .net, .evr, .tx] ⊆ L) (hk : Kept L o s) :
    Kept L o (State.ptpSetLock s time) := by
  unfold State.ptpSetLock
  repeat' first
    | with_reducible assumption
    | exact List.Subset.trans (by decide) hT
    | with_reducible first | exact fun h => h | exact Nat.le_refl _ | apply State.ev_kept
    | with_reducible first | apply State.portsTimeStep_kept | apply Kept.of_any
    | (intro b hb; cases b <;> first | exact absurd (hT (by decide)) hb | rfl)
    | simp only [↓Kept.mk_iff]
    | with_reducible apply Kept.ite

theorem State.ptpTake_kept {L : List Blk} {o : State} (s : State) (via : Sys2Proof.PtpVia) (time : Nat) (oo : Int)
    (cls : Nat) (hT : [.clk, .sys, .tlk, .net, .evr, .tx] ⊆ L) (hk : Kept L o s) :
    Kept L o (State.ptpTake s via time oo cls) := by
  unfold State.ptpTake
  repeat' first
    | with_reducible assumption
    | exact hT (by decide)
    | exact List.Subset.trans (by decide) hT
    | with_reducible first | apply State.ptpSetLock_kept | apply State.ptpUnlock_kept | apply State.send_kept
    | with_reducible first | apply State.slew_kept | apply Kept.of_net
    | simp only [↓Kept.mk_iff]
    | with_reducible apply Kept.ite

theorem execPtpSync_kept {L : List Blk} {o : State} (f : Sys2Proof.FramePath) (via : Sys2Proof.PtpVia)
    (domain : BitVec 8) (time : BitVec 64) (ofs : BitVec 32) (cls : BitVec 8) (s : State)
    (hT : [.clk, .sys, .tlk, .net, .evr, .tx] ⊆ L) (hk : Kept L o s) :
    Keeps L o (execPtpSync f via domain time ofs cls s) := by
  unfold execPtpSync
  repeat' first
    | with_reducible assumption
    | exact List.Subset.trans (by decide) hT
    | refine fun (_ : State) => ?_
    | with_reducible first | apply Keeps.next | exact Kept.rfl | apply State.netIn_kept | apply State.ptpTake_kept
    | with_reducible apply Kept.ite

theorem execPtpLost_kept {L : List Blk} {o : State} (s : State) (hT : [.clk, .net, .evr] ⊆ L) (hk : Kept L o s) :
    Keeps L o (execPtpLost s) := by
  unfold execPtpLost
  repeat' first
    | with_reducible assumption
    | exact hT (by decide)
    | ((try lift_lets); intro x; refine Keeps.cut (x := x) ?_ ?_; rotate_left; clear_value x; intro _; rotate_left; unfold x)
    | with_reducible first | apply Keeps.next | apply State.ptpUnlock_kept | apply Kept.of_net
    | simp only [↓Kept.mk_iff]
    | with_reducible apply Kept.ite

theorem State.ptpMasterTick_kept {L : List Blk} {o : State} (s : State) (hT : [.tx] ⊆ L) (hk : Kept L o s) :
    Kept L o (State.ptpMasterTick s) := by
  unfold State.ptpMasterTick
  repeat' first
    | with_reducible first | assumption | apply State.send_kept
    | simp only [↓Kept.mk_iff]
    | with_reducible apply Kept.ite

theorem execPpsIn_kept {L : List Blk} {o : State} (t : BitVec 64) (s : State) (hT : [.clk, .net] ⊆ L)
    (hk : Kept L o s) :
    Keeps L o (execPpsIn t s) := by
  unfold execPpsIn
  repeat' first
    | with_reducible first | assumption | exact fun h => h | exact Nat.le_refl _ | apply Keeps.next
    | with_reducible apply Kept.of_any
    | (intro b hb; cases b <;> first | exact absurd (hT (by decide)) hb | rfl)
    | simp only [↓Kept.mk_iff]
    | with_reducible apply Kept.ite

theorem State.memberStatus_kept {L : List Blk} {o : State} (s : State) (rack : Nat) (shelf : Nat) (seq : Nat)
    (st : Sys2Proof.RowStatus) (hT : [.net] ⊆ L) (hk : Kept L o s) :
    Kept L o (State.memberStatus s rack shelf seq st) := by
  unfold State.memberStatus
  repeat' first
    | with_reducible assumption
    | exact hT (by decide)
    | with_reducible apply Kept.of_net
    | simp only [↓Kept.mk_iff]

theorem State.elect_kept {L : List Blk} {o : State} (s : State) (hT : [.sys, .net, .evr] ⊆ L) (hk : Kept L o s) :
    Kept L o (State.elect s) := by
  unfold State.elect
  repeat' first
    | with_reducible assumption
    | exact List.Subset.trans (by decide) hT
    | with_reducible first | exact fun h => h | exact Nat.le_refl _ | apply State.ev_kept | apply Kept.of_any
    | (intro b hb; cases b <;> first | exact absurd (hT (by decide)) hb | rfl)
    | simp only [↓Kept.mk_iff]
    | with_reducible apply Kept.ite

theorem State.startFromLead_kept {L : List Blk} {o : State} (s : State)
    (hT : [.sys, .loop, .pwm, .fce, .tlk, .est, .net, .evr, .tx] ⊆ L) (hk : Kept L o s) :
    Kept L o (State.startFromLead s) := by
  unfold State.startFromLead
  repeat' first
    | with_reducible first | assumption | apply State.enterRun_kept | apply Kept.ite

theorem State.takeShare_kept {L : List Blk} {o : State} (s : State) (b : Nat) (g : Nat)
    (l : List Sys2Proof.ShareEntry) (hT : [.sys, .loop, .pwm, .fce, .tlk, .est, .net, .evr, .tx] ⊆ L)
    (hk : Kept L o s) :
    Kept L o (State.takeShare s b g l) := by
  unfold State.takeShare
  repeat' first
    | with_reducible assumption
    | exact hT (by decide)
    | exact List.Subset.trans (by decide) hT
    | with_reducible first | exact fun h => h | exact Nat.le_refl _ | apply State.recompute_kept
    | with_reducible first | apply State.startFromLead_kept | apply Kept.of_net | apply Kept.of_any
    | (intro b hb; cases b <;> first | exact absurd (hT (by decide)) hb | rfl)
    | simp only [↓Kept.mk_iff]
    | with_reducible apply Kept.ite
    | split

theorem State.leadCycle_kept {L : List Blk} {o : State} (s : State)
    (hT : [.sys, .loop, .pwm, .fce, .tlk, .est, .net, .evr, .tx] ⊆ L) (hk : Kept L o s) :
    Kept L o (State.leadCycle s) := by
  unfold State.leadCycle
  repeat' first
    | with_reducible assumption
    | exact List.Subset.trans (by decide) hT
    | with_reducible first | apply State.ev_kept | apply State.rowSend_kept | apply State.takeShare_kept
    | simp only [↓Kept.mk_iff]
    | with_reducible apply Kept.ite

theorem State.judgeMaster_kept {L : List Blk} {o : State} (s : State) (hT : [.net, .evr] ⊆ L) (hk : Kept L o s) :
    Kept L o (State.judgeMaster s) := by
  unfold State.judgeMaster
  repeat' first
    | with_reducible assumption
    | exact hT (by decide)
    | exact List.Subset.trans (by decide) hT
    | with_reducible first | apply State.ev_kept | apply Kept.of_net
    | simp only [↓Kept.mk_iff]
    | with_reducible apply Kept.ite

theorem execRingCycle_kept {L : List Blk} {o : State} (s : State)
    (hT : [.sys, .loop, .pwm, .fce, .tlk, .est, .net, .evr, .tx] ⊆ L) (hk : Kept L o s) :
    Keeps L o (execRingCycle s) := by
  unfold execRingCycle
  repeat' first
    | with_reducible assumption
    | exact hT (by decide)
    | exact List.Subset.trans (by decide) hT
    | with_reducible first | apply Keeps.next | apply State.elect_kept | apply State.judgeMaster_kept
    | with_reducible first | apply State.leadCycle_kept | apply State.memberStatus_kept | apply State.rowSend_kept
    | with_reducible first | apply State.timeFollow_kept | apply Kept.of_net
    | simp only [↓Kept.mk_iff]
    | with_reducible apply Kept.ite

theorem execRingJoined_kept {L : List Blk} {o : State} (s : State) (hT : [.net, .evr] ⊆ L) (hk : Kept L o s) :
    Keeps L o (execRingJoined s) := by
  unfold execRingJoined
  repeat' first
    | with_reducible assumption
    | exact hT (by decide)
    | exact List.Subset.trans (by decide) hT
    | with_reducible first | apply Keeps.next | apply State.ev_kept | apply Kept.of_net
    | simp only [↓Kept.mk_iff]
    | with_reducible apply Kept.ite

theorem State.rowForward_kept {L : List Blk} {o : State} (s : State) (f : Sys2Proof.RowFrame) (good : Bool)
    (hT : [.tx, .fv] ⊆ L) (hk : Kept L o s) :
    Kept L o (State.rowForward s f good) := by
  unfold State.rowForward
  repeat' first
    | with_reducible assumption
    | exact List.Subset.trans (by decide) hT
    | with_reducible first | apply State.send_kept | apply State.used_kept | apply Kept.ite

theorem State.rowTake_kept {L : List Blk} {o : State} (s : State) (f : Sys2Proof.RowFrame) (ty : Nat) (len : Nat)
    (own : State → Bool → State) (act : State → Nat → Nat → List Byte → State) (hT : [.net, .tx, .fv] ⊆ L)
    (hown : ∀ (s : State) a, Kept L s (own s a)) (hact : ∀ (s : State) a b l, Kept L s (act s a b l))
    (hk : Kept L o s) :
    Kept L o (State.rowTake s f ty len own act) := by
  unfold State.rowTake
  repeat' first
    | with_reducible assumption
    | exact hT (by decide)
    | exact List.Subset.trans (by decide) hT
    | with_reducible first | apply State.rowForward_kept | apply Kept.app2 hown | apply Kept.app4 hact
    | with_reducible apply Kept.of_net
    | simp only [↓Kept.mk_iff]
    | with_reducible apply Kept.ite

theorem ownBack_kept {L : List Blk} {o : State} (s : State) (u : Bool) (hT : [] ⊆ L) (hk : Kept L o s) :
    Kept L o (ownBack s u) := by
  unfold ownBack
  repeat' first
    | with_reducible assumption

theorem execRingStatus_kept {L : List Blk} {o : State} (f : Sys2Proof.RowFrame) (s : State)
    (hT : [.net, .evr, .tx, .fv] ⊆ L) (hk : Kept L o s) :
    Keeps L o (execRingStatus f s) := by
  unfold execRingStatus
  repeat' first
    | with_reducible assumption
    | exact hT (by decide)
    | exact List.Subset.trans (by decide) hT
    | refine fun (_ : State) (_ : Nat) (_ : Nat) (_ : List Byte) => ?_
    | refine fun (_ : State) _ => ?_
    | with_reducible first | apply Keeps.next | exact Kept.rfl | apply State.ev_kept | apply State.memberStatus_kept
    | with_reducible first | apply State.rowTake_kept | apply State.setWhole_kept | apply Kept.of_net
    | simp only [↓Kept.mk_iff]
    | with_reducible apply Kept.ite

theorem execRingTime_kept {L : List Blk} {o : State} (f : Sys2Proof.RowFrame) (s : State)
    (hT : [.net, .evr, .tx, .fv] ⊆ L) (hk : Kept L o s) :
    Keeps L o (execRingTime f s) := by
  unfold execRingTime
  repeat' first
    | with_reducible assumption
    | exact hT (by decide)
    | exact List.Subset.trans (by decide) hT
    | refine fun (_ : State) (_ : Nat) (_ : Nat) (_ : List Byte) => ?_
    | refine fun (_ : State) _ => ?_
    | with_reducible first | apply Keeps.next | exact Kept.rfl | apply State.ev_kept | apply ownBack_kept
    | with_reducible first | apply State.rowTake_kept | apply State.slew_kept | apply Kept.of_net
    | simp only [↓Kept.mk_iff]
    | with_reducible apply Kept.ite

theorem execPdelayReq_kept {L : List Blk} {o : State} (req : Option (Sys2Proof.RowFrame × BitVec 64)) (s : State)
    (hT : [.net, .tx, .fv] ⊆ L) (hk : Kept L o s) :
    Keeps L o (execPdelayReq req s) := by
  unfold execPdelayReq
  repeat' first
    | with_reducible assumption
    | exact hT (by decide)
    | exact List.Subset.trans (by decide) hT
    | refine fun (_ : State) (_ : Nat) (_ : Nat) (_ : List Byte) => ?_
    | refine fun (_ : State) _ => ?_
    | with_reducible first | apply Keeps.next | exact Kept.rfl | apply ownBack_kept | apply State.rowLocal_kept
    | with_reducible first | apply State.rowTake_kept | apply Kept.of_net
    | simp only [↓Kept.mk_iff]
    | with_reducible apply Kept.ite
    | split

theorem execPdelayResp_kept {L : List Blk} {o : State} (f : Sys2Proof.RowFrame) (t4 : BitVec 64) (s : State)
    (hT : [.net, .tx, .fv] ⊆ L) (hk : Kept L o s) :
    Keeps L o (execPdelayResp f t4 s) := by
  unfold execPdelayResp
  repeat' first
    | with_reducible assumption
    | exact hT (by decide)
    | exact List.Subset.trans (by decide) hT
    | refine fun (_ : State) (_ : Nat) (_ : Nat) (_ : List Byte) => ?_
    | refine fun (_ : State) _ => ?_
    | with_reducible first | apply Keeps.next | exact Kept.rfl | apply ownBack_kept | apply State.rowTake_kept
    | with_reducible apply Kept.of_net
    | simp only [↓Kept.mk_iff]

theorem execShare_kept {L : List Blk} {o : State} (f : Sys2Proof.RowFrame) (s : State)
    (hT : [.sys, .loop, .pwm, .fce, .tlk, .est, .net, .evr, .tx, .fv] ⊆ L) (hk : Kept L o s) :
    Keeps L o (execShare f s) := by
  unfold execShare
  repeat' first
    | with_reducible assumption
    | exact hT (by decide)
    | exact List.Subset.trans (by decide) hT
    | refine fun (_ : State) (_ : Nat) (_ : Nat) (_ : List Byte) => ?_
    | refine fun (_ : State) _ => ?_
    | with_reducible first | apply Keeps.next | exact Kept.rfl | apply ownBack_kept | apply State.rowTake_kept
    | with_reducible first | apply State.takeShare_kept | apply Kept.of_net
    | simp only [↓Kept.mk_iff]
    | with_reducible apply Kept.ite

theorem execRowBudgetFrame_kept {L : List Blk} {o : State} (f : Sys2Proof.RowFrame) (s : State)
    (hT : [.net, .evr, .tx, .fv] ⊆ L) (hk : Kept L o s) :
    Keeps L o (execRowBudgetFrame f s) := by
  unfold execRowBudgetFrame
  repeat' first
    | with_reducible assumption
    | exact List.Subset.trans (by decide) hT
    | refine fun (_ : State) (_ : Nat) (_ : Nat) (_ : List Byte) => ?_
    | refine fun (_ : State) _ => ?_
    | with_reducible first | apply Keeps.next | exact Kept.rfl | apply ownBack_kept | apply State.rowTake_kept
    | with_reducible apply State.takeBudget_kept
    | simp only [↓Kept.mk_iff]
    | with_reducible apply Kept.ite

theorem execRowBudgetResend_kept {L : List Blk} {o : State} (s : State) (hT : [.net, .tx] ⊆ L) (hk : Kept L o s) :
    Keeps L o (execRowBudgetResend s) := by
  unfold execRowBudgetResend
  repeat' first
    | with_reducible assumption
    | exact hT (by decide)
    | with_reducible first | apply Keeps.next | apply State.sendBudget_kept | apply Kept.of_net
    | simp only [↓Kept.mk_iff]
    | with_reducible apply Kept.ite

theorem State.actOn_kept {L : List Blk} {o : State} (s : State) (rack : Nat) (shelf : Nat)
    (hT : [.sys, .tlk, .net, .evr, .tx] ⊆ L) (hk : Kept L o s) :
    Kept L o (State.actOn s rack shelf) := by
  unfold State.actOn
  repeat' first
    | with_reducible assumption
    | exact List.Subset.trans (by decide) hT
    | ((try lift_lets); intro x; refine Kept.cut (x := x) ?_ ?_; rotate_left; clear_value x; intro _; rotate_left; unfold x)
    | with_reducible apply Kept.foldl
    | refine fun (_ : State) _ => ?_
    | with_reducible first | exact Kept.rfl | apply State.elect_kept | apply State.markSubject_kept
    | with_reducible first | apply State.takeOverLatest_kept | apply Kept.ite

theorem State.notice_kept {L : List Blk} {o : State} (s : State) (rack : Nat) (shelf : Nat) (hT : [.net] ⊆ L)
    (hk : Kept L o s) :
    Kept L o (State.notice s rack shelf) := by
  unfold State.notice
  repeat' first
    | with_reducible assumption
    | exact hT (by decide)
    | with_reducible apply Kept.of_net
    | simp only [↓Kept.mk_iff]

theorem State.cycleAgain_kept {L : List Blk} {o : State} (s : State)
    (hT : [.sys, .loop, .pwm, .fce, .tlk, .est, .net, .evr, .tx] ⊆ L) (hk : Kept L o s) :
    Kept L o (State.cycleAgain s) := by
  unfold State.cycleAgain
  repeat' first
    | with_reducible first | assumption | apply State.leadCycle_kept | apply Kept.ite

theorem execFailover_kept {L : List Blk} {o : State} (f : Sys2Proof.RowFrame) (s : State)
    (hT : [.sys, .loop, .pwm, .fce, .tlk, .est, .net, .evr, .tx, .fv] ⊆ L) (hk : Kept L o s) :
    Keeps L o (execFailover f s) := by
  unfold execFailover
  repeat' first
    | with_reducible assumption
    | exact List.Subset.trans (by decide) hT
    | refine fun (_ : State) (_ : Nat) (_ : Nat) (_ : List Byte) => ?_
    | refine fun (_ : State) _ => ?_
    | with_reducible first | apply Keeps.next | exact Kept.rfl | apply State.actOn_kept
    | with_reducible first | apply State.cycleAgain_kept | apply State.elect_kept | apply State.ev_kept
    | with_reducible first | apply State.notice_kept | apply ownBack_kept | apply State.rowTake_kept
    | simp only [↓Kept.mk_iff]
    | with_reducible apply Kept.ite

theorem execPeerSilent_kept {L : List Blk} {o : State} (shelf : Fin 4) (s : State)
    (hT : [.sys, .tlk, .net, .evr, .tx] ⊆ L) (hk : Kept L o s) :
    Keeps L o (execPeerSilent shelf s) := by
  unfold execPeerSilent
  repeat' first
    | with_reducible assumption
    | exact hT (by decide)
    | exact List.Subset.trans (by decide) hT
    | with_reducible first | apply Keeps.next | apply State.actOn_kept | apply State.ev_kept
    | with_reducible first | apply State.notice_kept | apply State.rowSend_kept | apply Kept.of_net
    | simp only [↓Kept.mk_iff]
    | with_reducible apply Kept.ite
    | split

theorem execWrap_kept {L : List Blk} {o : State} (f : Sys2Proof.RowFrame) (s : State)
    (hT : [.net, .evr, .tx, .fv] ⊆ L) (hk : Kept L o s) :
    Keeps L o (execWrap f s) := by
  unfold execWrap
  repeat' first
    | with_reducible assumption
    | exact List.Subset.trans (by decide) hT
    | refine fun (_ : State) (_ : Nat) (_ : Nat) (_ : List Byte) => ?_
    | refine fun (_ : State) _ => ?_
    | with_reducible first | apply Keeps.next | exact Kept.rfl | apply ownBack_kept | apply State.rowTake_kept
    | with_reducible first | apply State.setWhole_kept | apply Kept.ite

theorem execRingWrapped_kept {L : List Blk} {o : State} (west : Bool) (s : State) (hT : [.net, .evr, .tx] ⊆ L)
    (hk : Kept L o s) :
    Keeps L o (execRingWrapped west s) := by
  unfold execRingWrapped
  repeat' first
    | with_reducible assumption
    | exact hT (by decide)
    | exact List.Subset.trans (by decide) hT
    | with_reducible first | apply Keeps.next | apply State.ev_kept | apply State.rowSend_kept
    | with_reducible first | apply State.setWhole_kept | apply Kept.of_net
    | simp only [↓Kept.mk_iff]
    | with_reducible apply Kept.ite

theorem execRingUnwrapped_kept {L : List Blk} {o : State} (west : Bool) (s : State) (hT : [.net, .evr, .tx] ⊆ L)
    (hk : Kept L o s) :
    Keeps L o (execRingUnwrapped west s) := by
  unfold execRingUnwrapped
  repeat' first
    | with_reducible assumption
    | exact hT (by decide)
    | exact List.Subset.trans (by decide) hT
    | ((try lift_lets); intro x; refine Kept.cut (x := x) ?_ ?_; rotate_left; clear_value x; intro _; rotate_left; unfold x)
    | with_reducible first | apply Keeps.next | apply State.ev_kept | apply State.rowSend_kept | apply Kept.of_net
    | simp only [↓Kept.mk_iff]
    | with_reducible apply Kept.ite

end Sys2Proof.Machine
end

