-- ==== Sys2Proof/Laws/KeptRegMap.lean ====
section
/-! SUPPORT. What the operations of Machine/RegMap.lean keep. -/

set_option linter.unusedTactic false
set_option linter.unreachableTactic false

namespace Sys2Proof.Machine

theorem State.latchHi_kept {L : List Blk} {o : State} (s : State) (req : Nat) (addr : Nat) (hT : [.sys] ⊆ L)
    (hk : Kept L o s) :
    Kept L o (State.latchHi s req addr) := by
  unfold State.latchHi
  repeat' first
    | with_reducible assumption
    | exact hT (by decide)
    | with_reducible apply Kept.of_sys
    | simp only [↓Kept.mk_iff]

theorem State.regRead_kept {L : List Blk} {o : State} (s : State) (req : Nat) (addr : Nat) (hT : [.sys] ⊆ L)
    (hk : Kept L o s) :
    Kept L o (State.regRead s req addr).2 := by
  unfold State.regRead
  repeat' first
    | with_reducible first | assumption | apply State.latchHi_kept
    | split

theorem State.onClock_kept {L : List Blk} {o : State} (s : State) (f : Clock → Clock) (hT : [.clk] ⊆ L)
    (hk : Kept L o s) :
    Kept L o (State.onClock s f) := by
  unfold State.onClock
  repeat' first
    | with_reducible assumption
    | exact hT (by decide)
    | with_reducible apply Kept.of_clk
    | simp only [↓Kept.mk_iff]

theorem State.onPower_kept {L : List Blk} {o : State} (s : State) (f : Power → Power) (hT : [.power] ⊆ L)
    (hk : Kept L o s) :
    Kept L o (State.onPower s f) := by
  unfold State.onPower
  repeat' first
    | with_reducible assumption
    | exact hT (by decide)
    | with_reducible apply Kept.of_power
    | simp only [↓Kept.mk_iff]

theorem State.onAfe_kept {L : List Blk} {o : State} (s : State) (f : Afe → Afe) (hT : [.afe] ⊆ L)
    (hk : Kept L o s) :
    Kept L o (State.onAfe s f) := by
  unfold State.onAfe
  repeat' first
    | with_reducible assumption
    | exact hT (by decide)
    | with_reducible apply Kept.of_afe
    | simp only [↓Kept.mk_iff]

theorem State.onLoop_kept {L : List Blk} {o : State} (s : State) (f : Loop → Loop) (hT : [.loop] ⊆ L)
    (hk : Kept L o s) :
    Kept L o (State.onLoop s f) := by
  unfold State.onLoop
  repeat' first
    | with_reducible assumption
    | exact hT (by decide)
    | with_reducible apply Kept.of_loop
    | simp only [↓Kept.mk_iff]

theorem State.onPwm_kept {L : List Blk} {o : State} (s : State) (f : Pwm → Pwm) (hT : [.pwm] ⊆ L)
    (hk : Kept L o s) :
    Kept L o (State.onPwm s f) := by
  unfold State.onPwm
  repeat' first
    | with_reducible assumption
    | exact hT (by decide)
    | with_reducible apply Kept.of_pwm
    | simp only [↓Kept.mk_iff]

theorem State.onFce_kept {L : List Blk} {o : State} (s : State) (f : Fce → Fce) (hT : [.fce] ⊆ L)
    (hk : Kept L o s) :
    Kept L o (State.onFce s f) := by
  unfold State.onFce
  repeat' first
    | with_reducible assumption
    | exact hT (by decide)
    | with_reducible apply Kept.of_fce
    | simp only [↓Kept.mk_iff]

theorem State.onChn_kept {L : List Blk} {o : State} (s : State) (f : Chn → Chn) (hT : [.chn] ⊆ L)
    (hk : Kept L o s) :
    Kept L o (State.onChn s f) := by
  unfold State.onChn
  repeat' first
    | with_reducible assumption
    | exact hT (by decide)
    | with_reducible apply Kept.of_chn
    | simp only [↓Kept.mk_iff]

theorem State.onEst_kept {L : List Blk} {o : State} (s : State) (f : Est → Est) (hT : [.est] ⊆ L)
    (hk : Kept L o s) :
    Kept L o (State.onEst s f) := by
  unfold State.onEst
  repeat' first
    | with_reducible assumption
    | exact hT (by decide)
    | with_reducible apply Kept.of_est
    | simp only [↓Kept.mk_iff]

theorem State.onNet_kept {L : List Blk} {o : State} (s : State) (f : Net → Net) (hT : [.net] ⊆ L)
    (hk : Kept L o s) :
    Kept L o (State.onNet s f) := by
  unfold State.onNet
  repeat' first
    | with_reducible assumption
    | exact hT (by decide)
    | with_reducible apply Kept.of_net
    | simp only [↓Kept.mk_iff]

theorem State.onProt_kept {L : List Blk} {o : State} (s : State) (f : Prot → Prot) (hT : [.prot] ⊆ L)
    (hk : Kept L o s) :
    Kept L o (State.onProt s f) := by
  unfold State.onProt
  repeat' first
    | with_reducible assumption
    | exact hT (by decide)
    | with_reducible apply Kept.of_prot
    | simp only [↓Kept.mk_iff]

theorem State.onEvr_kept {L : List Blk} {o : State} (s : State) (f : Evr → Evr) (hT : [.evr] ⊆ L)
    (hk : Kept L o s) :
    Kept L o (State.onEvr s f) := by
  unfold State.onEvr
  repeat' first
    | with_reducible assumption
    | exact hT (by decide)
    | with_reducible apply Kept.of_evr
    | simp only [↓Kept.mk_iff]

theorem onBit_kept {L : List Blk} {o : State} (v : Nat) (k : Nat) (f : State → State) (s : State) (hT : [] ⊆ L)
    (hf : ∀ s : State, Kept L s (f s)) (hk : Kept L o s) :
    Kept L o (onBit v k f s) := by
  unfold onBit
  repeat' first
    | with_reducible first | assumption | apply Kept.app hf | apply Kept.ite

/-- Actions by bits. -/
theorem onBits_kept {L : List Blk} {o : State} {l : List (Nat × (State → State))} {v : Nat} {s : State}
    (hf : l.Forall fun x => ∀ s, Kept L s (x.2 s)) (hk : Kept L o s) : Kept L o (onBits l v s) := by
  induction l generalizing s with
  | nil => exact hk
  | cons x l ih =>
    rw [List.forall_cons] at hf
    exact ih hf.2 (onBit_kept v x.1 x.2 s (List.nil_subset _) hf.1 hk)

/-- Every effect of a writable register keeps. -/
def WKept (L : List Blk) (w : Option WReg) : Prop := ∀ x, w = some x → ∀ v s, Kept L s (x.apply v s)

theorem WKept.mk {L : List Blk} {l : List WField} {f : Nat → State → State} (h : ∀ v s, Kept L s (f v s)) :
    WKept L (mkW l f) := by
  intro x hx; cases hx; exact h

theorem WKept.late {L : List Blk} {l : List WField} {f : Nat → State → State} (h : ∀ v s, Kept L s (f v s)) :
    WKept L (lateW l f) := by
  intro x hx; cases hx; exact h

theorem WKept.none {L : List Blk} : WKept L none := by
  intro x hx; cases hx

theorem WKept.ite {L : List Blk} {c : Prop} [Decidable c] {a b : Option WReg} (h : WKept L a) (k : WKept L b) :
    WKept L (if c then a else b) := by
  split <;> assumption

theorem State.clearOsc_kept {L : List Blk} {o : State} (s : State) (lo : Nat) (v : Nat) (hT : [.loop] ⊆ L)
    (hk : Kept L o s) :
    Kept L o (State.clearOsc s lo v) := by
  unfold State.clearOsc
  repeat' first
    | with_reducible first | assumption | apply State.onLoop_kept

theorem State.clearNonCompl_kept {L : List Blk} {o : State} (s : State) (lo : Nat) (v : Nat) (hT : [.tlk] ⊆ L)
    (hk : Kept L o s) :
    Kept L o (State.clearNonCompl s lo v) := by
  unfold State.clearNonCompl
  repeat' first
    | with_reducible assumption
    | exact hT (by decide)
    | with_reducible apply Kept.of_tlk
    | simp only [↓Kept.mk_iff]

theorem wSys_kept {L : List Blk} (addr : Nat)
    (hT : [.power, .clk, .sys, .sec, .cfg, .afe, .loop, .pwm, .fce, .tlk, .chn, .est, .net, .prot, .mem, .evr, .tx] ⊆ L) : WKept L (wSys addr) := by
  unfold wSys
  repeat' first
    | with_reducible assumption
    | exact List.Subset.trans (by decide) hT
    | refine fun (_ : State) => ?_
    | with_reducible first | exact Kept.rfl | exact WKept.none | apply WKept.mk | apply WKept.late
    | with_reducible apply onBits_kept
    | refine fun (_ : Nat) (_ : State) => ?_
    | (simp only [List.forall_cons, List.Forall]; refine ⟨?_, ?_⟩)
    | (simp only [List.Forall])
    | with_reducible first | apply State.discard_kept | apply State.fwDiscard_kept | apply State.onClock_kept
    | with_reducible first | apply State.onPower_kept | apply State.requestSwap_kept | apply State.selectRef_kept
    | with_reducible first | apply State.swapTickHi_kept | apply State.swapTickLo_kept | apply State.sysReset_kept
    | with_reducible first | apply State.toReturned_kept | apply State.writeTarget_kept | apply Kept.ite
    | split

theorem wAfe_kept {L : List Blk} (off : Nat) (hT : [.afe, .evr] ⊆ L) : WKept L (wAfe off) := by
  unfold wAfe
  repeat' first
    | with_reducible assumption
    | exact List.Subset.trans (by decide) hT
    | refine fun (_ : State) => ?_
    | with_reducible first | exact Kept.rfl | exact WKept.none | apply WKept.mk | apply onBit_kept
    | refine fun (_ : Nat) (_ : State) => ?_
    | with_reducible first | apply State.clearFailMap_kept | apply State.onAfe_kept
    | split

theorem State.wLoop_kept {L : List Blk} (s : State) (off : Nat) (hT : [.loop, .evr] ⊆ L) : WKept L
    (State.wLoop s off) := by
  unfold State.wLoop
  repeat' first
    | with_reducible assumption
    | exact List.Subset.trans (by decide) hT
    | refine fun (_ : State) => ?_
    | with_reducible first | exact Kept.rfl | exact WKept.none | apply WKept.mk | apply WKept.ite
    | with_reducible apply onBits_kept
    | refine fun (_ : Nat) (_ : State) => ?_
    | (simp only [List.forall_cons, List.Forall]; refine ⟨?_, ?_⟩)
    | refine And.intro ?_ ?_
    | with_reducible first | apply State.bankPrimary_kept | apply State.clearOsc_kept | apply State.onLoop_kept
    | with_reducible first | apply State.snapRelease_kept | apply State.testAbort_kept | apply State.testStart_kept
    | with_reducible first | apply State.unfreeze_kept | apply State.updSlot_kept
    | split

theorem wGroup_kept {L : List Blk} (g : Fin 4) (r : Nat) (hT : [.pwm] ⊆ L) : WKept L (wGroup g r) := by
  unfold wGroup
  repeat' first
    | with_reducible first | assumption | exact Kept.rfl | exact WKept.none | apply WKept.mk
    | refine fun (_ : Nat) (_ : State) => ?_
    | with_reducible apply State.updGrp_kept
    | split

theorem wPwm_kept {L : List Blk} (off : Nat) (hT : [.sys, .loop, .pwm, .chn, .prot, .evr] ⊆ L) : WKept L
    (wPwm off) := by
  unfold wPwm
  repeat' first
    | exact List.Subset.trans (by decide) hT
    | refine fun (_ : State) => ?_
    | with_reducible first | exact Kept.rfl | exact WKept.none | apply WKept.mk | apply onBits_kept
    | refine fun (_ : Nat) (_ : State) => ?_
    | (simp only [List.forall_cons, List.Forall]; refine ⟨?_, ?_⟩)
    | (simp only [List.Forall])
    | with_reducible first | apply wGroup_kept | apply State.onPwm_kept | apply State.readmit_kept
    | with_reducible first | apply State.requestDisable_kept | apply State.restorePort_kept
    | with_reducible apply State.setBus_kept
    | split

theorem wFce_kept {L : List Blk} (off : Nat) (hT : [.fce, .evr, .fv] ⊆ L) : WKept L (wFce off) := by
  unfold wFce
  repeat' first
    | with_reducible assumption
    | exact List.Subset.trans (by decide) hT
    | refine fun (_ : State) => ?_
    | with_reducible first | exact Kept.rfl | exact WKept.none | apply WKept.mk | apply onBit_kept
    | refine fun (_ : Nat) (_ : State) => ?_
    | with_reducible first | apply State.adaptDisable_kept | apply State.adaptEnable_kept
    | with_reducible first | apply State.forecastEnable_kept | apply State.headRevert_kept | apply State.onFce_kept
    | with_reducible apply State.revertAll_kept
    | split

theorem wTlk_kept {L : List Blk} (off : Nat) (hT : [.tlk, .evr, .tx] ⊆ L) : WKept L (wTlk off) := by
  unfold wTlk
  repeat' first
    | with_reducible assumption
    | exact List.Subset.trans (by decide) hT
    | refine fun (_ : State) => ?_
    | with_reducible first | exact Kept.rfl | exact WKept.none | apply WKept.mk | apply onBits_kept
    | refine fun (_ : Nat) (_ : State) => ?_
    | (simp only [List.forall_cons, List.Forall]; refine ⟨?_, ?_⟩)
    | refine And.intro ?_ ?_
    | with_reducible first | apply State.clearNonCompl_kept | apply State.clearPortCause_kept
    | with_reducible first | apply State.drain_kept | apply State.releaseAllPorts_kept | apply State.setRole_kept
    | with_reducible first | apply State.throttleAllPorts_kept | apply State.throttlePort_kept | apply Kept.ite
    | split

theorem wChn_kept {L : List Blk} (off : Nat)
    (hT : [.sys, .afe, .loop, .pwm, .fce, .tlk, .chn, .est, .net, .prot, .evr, .tx] ⊆ L) : WKept L (wChn off) := by
  unfold wChn
  repeat' first
    | with_reducible assumption
    | exact List.Subset.trans (by decide) hT
    | refine fun (_ : State) => ?_
    | with_reducible first | exact Kept.rfl | exact WKept.none | apply WKept.mk | apply onBits_kept
    | refine fun (_ : Nat) (_ : State) => ?_
    | (simp only [List.forall_cons, List.Forall]; refine ⟨?_, ?_⟩)
    | refine And.intro ?_ ?_
    | with_reducible first | apply State.ctrClose_kept | apply State.ctrOpen_kept | apply State.diagNow_kept
    | with_reducible first | apply State.onChn_kept | apply State.ringRetry_kept | apply State.updRing_kept
    | split

theorem wEst_kept {L : List Blk} (off : Nat) (hT : [.est, .evr] ⊆ L) : WKept L (wEst off) := by
  unfold wEst
  repeat' first
    | with_reducible assumption
    | exact List.Subset.trans (by decide) hT
    | refine fun (_ : State) => ?_
    | with_reducible first | exact Kept.rfl | exact WKept.none | apply WKept.mk | apply onBit_kept
    | refine fun (_ : Nat) (_ : State) => ?_
    | with_reducible first | apply State.abortRests_kept | apply State.forceRest_kept | apply State.onEst_kept
    | with_reducible apply State.setEclipseEn_kept
    | split

theorem wNet_kept {L : List Blk} (off : Nat) (hT : [.sys, .cfg, .net, .evr] ⊆ L) : WKept L (wNet off) := by
  unfold wNet
  repeat' first
    | with_reducible assumption
    | exact List.Subset.trans (by decide) hT
    | refine fun (_ : State) => ?_
    | with_reducible first | exact Kept.rfl | exact WKept.none | apply WKept.mk | apply onBits_kept
    | refine fun (_ : Nat) (_ : State) => ?_
    | (simp only [List.Forall])
    | with_reducible first | apply State.closeSess_kept | apply State.onNet_kept
    | split

theorem wProt_kept {L : List Blk} (off : Nat)
    (hT : [.power, .clk, .sys, .sec, .cfg, .afe, .loop, .pwm, .fce, .tlk, .chn, .est, .net, .prot, .mem, .evr, .tx, .fv] ⊆ L) : WKept L (wProt off) := by
  unfold wProt
  repeat' first
    | with_reducible assumption
    | exact List.Subset.trans (by decide) hT
    | refine fun (_ : State) => ?_
    | with_reducible first | exact Kept.rfl | exact WKept.none | apply WKept.mk | apply onBits_kept
    | refine fun (_ : Nat) (_ : State) => ?_
    | (simp only [List.forall_cons, List.Forall]; refine ⟨?_, ?_⟩)
    | refine And.intro ?_ ?_
    | with_reducible first | apply State.basaltCause_kept | apply State.basaltExitReq_kept
    | with_reducible first | apply State.cduAlarm_kept | apply State.cduClear_kept | apply State.groupReturns_kept
    | with_reducible first | apply State.onProt_kept | apply State.tripClear_kept
    | split

theorem wEvr_kept {L : List Blk} (off : Nat) (hT : [.evr, .fv] ⊆ L) : WKept L (wEvr off) := by
  unfold wEvr
  repeat' first
    | with_reducible assumption
    | exact List.Subset.trans (by decide) hT
    | refine fun (_ : State) => ?_
    | with_reducible first | exact Kept.rfl | exact WKept.none | apply WKept.mk | apply onBits_kept
    | with_reducible apply onBit_kept
    | refine fun (_ : Nat) (_ : State) => ?_
    | (simp only [List.forall_cons, List.Forall]; refine ⟨?_, ?_⟩)
    | refine And.intro ?_ ?_
    | with_reducible first | apply State.captureResume_kept | apply State.evrUser_kept | apply State.firstClear_kept
    | with_reducible first | apply State.obsClear_kept | apply State.onEvr_kept | apply State.triggerNow_kept
    | split

theorem State.wreg_kept {L : List Blk} (s : State) (addr : Nat)
    (hT : [.power, .clk, .sys, .sec, .cfg, .afe, .loop, .pwm, .fce, .tlk, .chn, .est, .net, .prot, .mem, .evr, .tx, .fv] ⊆ L) : WKept L (State.wreg s addr) := by
  unfold State.wreg
  repeat' first
    | with_reducible assumption
    | exact List.Subset.trans (by decide) hT
    | with_reducible exact WKept.none
    | (simp only [List.Forall])
    | with_reducible first | apply wSys_kept | apply wAfe_kept | apply State.wLoop_kept | apply wPwm_kept
    | with_reducible first | apply wFce_kept | apply wTlk_kept | apply wChn_kept | apply wEst_kept | apply wNet_kept
    | with_reducible first | apply wProt_kept | apply wEvr_kept
    | split

theorem State.regWrite_kept {L : List Blk} {o : State} (s : State) (r : Role) (st : DevState) (addr : Nat)
    (v : Nat)
    (hT : [.power, .clk, .sys, .sec, .cfg, .afe, .loop, .pwm, .fce, .tlk, .chn, .est, .net, .prot, .mem, .evr, .tx, .fv] ⊆ L) (hk : Kept L o s) :
    Kept L o (State.regWrite s r st addr v).1 := by
  unfold State.regWrite
  have hv := State.violate_kept s (List.Subset.trans (by decide) hT) hk
  split
  · exact hv
  · split
    · exact hv
    · split
      · exact hk
      · split
        · exact hk
        · rename_i w hw
          split
          · exact hv
          · split
            · exact hk
            · exact hk.trans (State.wreg_kept s addr (List.Subset.trans (by decide) hT) w hw v s)

theorem State.regWrites_kept {L : List Blk} {o : State} (s : State) (r : Role) (st : DevState) (l : List
    (Nat × Nat))
    (hT : [.power, .clk, .sys, .sec, .cfg, .afe, .loop, .pwm, .fce, .tlk, .chn, .est, .net, .prot, .mem, .evr, .tx, .fv] ⊆ L) (hk : Kept L o s) : Kept L o (State.regWrites s r st l) := by
  unfold State.regWrites
  have h1 : ∀ (x : State × List (Nat × Nat)), Kept L o x.1 → Kept L o (l.foldl (fun (x : State × List (Nat × Nat)) p =>
      let (s, d) := x.1.regWrite r st p.1 p.2
      (s, x.2 ++ d.toList)) x).1 := by
    induction l with
    | nil => exact fun x h => h
    | cons p l ih =>
      exact fun x h => ih _ (State.regWrite_kept x.1 r st p.1 p.2 (List.Subset.trans (by decide) hT) h)
  have h2 := h1 (s, []) hk
  revert h2
  generalize (l.foldl (fun (x : State × List (Nat × Nat)) p =>
      let (s, d) := x.1.regWrite r st p.1 p.2
      (s, x.2 ++ d.toList)) (s, [])) = y
  intro h2
  refine Kept.foldl h2 fun s p => ?_
  split
  · rename_i w hw
    exact wSys_kept p.1 (List.Subset.trans (by decide) hT) w hw p.2 s
  · exact Kept.rfl

end Sys2Proof.Machine
end

