-- ==== Sys2Proof/Laws/KeptRegs.lean ====
section
/-! SUPPORT. What the operations of Machine/Regs.lean keep. -/

set_option linter.unusedTactic false
set_option linter.unreachableTactic false

namespace Sys2Proof.Machine

theorem State.regReads_kept {L : List Blk} {o : State} (s : State) (req : Nat) (l : List Nat) (hT : [.sys] ⊆ L)
    (hk : Kept L o s) : Kept L o (s.regReads req l).2.2 := by
  induction l generalizing s with
  | nil => exact hk
  | cons a l ih => exact ih _ (by apply State.regRead_kept; exact List.Subset.trans (by decide) hT; exact hk)

theorem State.violations_kept {L : List Blk} {o : State} (s : State) (n : Nat) (hT : [.sys] ⊆ L) (hk : Kept L o s) :
    Kept L o (s.violations n) := by
  induction n generalizing s with
  | zero => exact hk
  | succ n ih => exact ih _ (State.violate_kept s hT hk)

theorem execRegRead_kept {L : List Blk} {o : State} (h : Sys2Proof.MsgHdr) (addrs : List (BitVec 32)) (s : State)
    (hT : [.sys, .cfg, .net, .evr, .tx] ⊆ L) (hk : Kept L o s) :
    Keeps L o (execRegRead h addrs s) := by
  unfold execRegRead
  repeat' first
    | with_reducible assumption
    | exact List.Subset.trans (by decide) hT
    | refine fun (_ : State) => ?_
    | with_reducible first | apply Keeps.next | exact Kept.rfl | apply State.regReads_kept | apply State.reply_kept
    | with_reducible first | apply State.serve_kept | apply State.violations_kept
    | simp only [↓Kept.mk_iff]
    | with_reducible apply Kept.ite

theorem State.closeBound_kept {L : List Blk} {o : State} (s : State) (was : State)
    (hT : [.sys, .cfg, .net, .evr] ⊆ L) (hk : Kept L o s) :
    Kept L o (State.closeBound s was) := by
  unfold State.closeBound
  repeat' first
    | with_reducible first | assumption | apply Kept.foldl
    | refine fun (_ : State) _ => ?_
    | with_reducible first | exact Kept.rfl | apply State.closeSess_kept
    | simp only [↓Kept.mk_iff]
    | with_reducible apply Kept.ite

theorem execRegWrite_kept {L : List Blk} {o : State} (h : Sys2Proof.MsgHdr) (pairs : List (BitVec 32 × BitVec 32))
    (s : State)
    (hT : [.power, .clk, .sys, .sec, .cfg, .afe, .loop, .pwm, .fce, .tlk, .chn, .est, .net, .prot, .mem, .evr, .tx, .fv] ⊆ L) (hk : Kept L o s) :
    Keeps L o (execRegWrite h pairs s) := by
  unfold execRegWrite
  repeat' first
    | with_reducible assumption
    | exact List.Subset.trans (by decide) hT
    | refine fun (_ : State) => ?_
    | with_reducible first | apply Keeps.next | exact Kept.rfl | apply State.closeBound_kept
    | with_reducible first | apply State.regWrites_kept | apply State.reply_kept | apply State.serve_kept
    | simp only [↓Kept.mk_iff]
    | with_reducible apply Kept.ite

theorem execRegReadBlock_kept {L : List Blk} {o : State} (h : Sys2Proof.MsgHdr) (addr : BitVec 32)
    (words : BitVec 16) (s : State) (hT : [.sys, .cfg, .net, .evr, .tx] ⊆ L) (hk : Kept L o s) :
    Keeps L o (execRegReadBlock h addr words s) := by
  unfold execRegReadBlock
  repeat' first
    | with_reducible assumption
    | exact hT (by decide)
    | refine fun (_ : State) => ?_
    | with_reducible first | apply Keeps.next | exact Kept.rfl | apply State.reply_kept | apply State.serve_kept
    | with_reducible apply Kept.of_net
    | simp only [↓Kept.mk_iff]
    | with_reducible apply Kept.ite

theorem State.blockWord_kept {L : List Blk} {o : State} (s : State) (b : BlockRead)
    (hT : [.sys, .cfg, .net, .evr, .tx] ⊆ L) (hk : Kept L o s) :
    Kept L o (State.blockWord s b) := by
  unfold State.blockWord
  repeat' first
    | with_reducible assumption
    | exact hT (by decide)
    | exact List.Subset.trans (by decide) hT
    | with_reducible first | apply State.regRead_kept | apply State.sendTo_kept | apply State.violate_kept
    | with_reducible apply Kept.of_net
    | simp only [↓Kept.mk_iff]
    | with_reducible apply Kept.ite
    | split

theorem State.blockTick_kept {L : List Blk} {o : State} (s : State) (hT : [.sys, .cfg, .net, .evr, .tx] ⊆ L)
    (hk : Kept L o s) :
    Kept L o (State.blockTick s) := by
  unfold State.blockTick
  repeat' first
    | with_reducible assumption
    | exact hT (by decide)
    | with_reducible apply Kept.foldl
    | refine fun (_ : State) _ => ?_
    | with_reducible first | exact Kept.rfl | apply State.blockWord_kept | apply Kept.of_net
    | simp only [↓Kept.mk_iff]

theorem execSubscribe_kept {L : List Blk} {o : State} (h : Sys2Proof.MsgHdr) (id : BitVec 8) (kind : BitVec 8)
    (period : BitVec 16) (addrs : List (BitVec 32)) (mask : BitVec 16) (s : State)
    (hT : [.sys, .cfg, .net, .evr, .tx] ⊆ L) (hk : Kept L o s) :
    Keeps L o (execSubscribe h id kind period addrs mask s) := by
  unfold execSubscribe
  repeat' first
    | with_reducible assumption
    | exact List.Subset.trans (by decide) hT
    | refine fun (_ : State) => ?_
    | with_reducible first | apply Keeps.next | exact Kept.rfl | apply State.reply_kept | apply State.serve_kept
    | with_reducible apply State.updSess_kept
    | simp only [↓Kept.mk_iff]
    | with_reducible apply Kept.ite

theorem execUnsubscribe_kept {L : List Blk} {o : State} (h : Sys2Proof.MsgHdr) (id : BitVec 8) (s : State)
    (hT : [.sys, .cfg, .net, .evr, .tx] ⊆ L) (hk : Kept L o s) :
    Keeps L o (execUnsubscribe h id s) := by
  unfold execUnsubscribe
  repeat' first
    | with_reducible assumption
    | exact List.Subset.trans (by decide) hT
    | refine fun (_ : State) => ?_
    | with_reducible first | apply Keeps.next | exact Kept.rfl | apply State.reply_kept | apply State.serve_kept
    | with_reducible first | apply State.updSess_kept | apply Kept.ite

theorem State.updSub_kept {L : List Blk} {o : State} (s : State) (n : Fin 64) (id : Nat) (f : Sub → Sub)
    (hT : [.net] ⊆ L) (hk : Kept L o s) :
    Kept L o (State.updSub s n id f) := by
  unfold State.updSub
  repeat' first
    | with_reducible first | assumption | apply State.updSess_kept

theorem State.telLatch_kept {L : List Blk} {o : State} (s : State) (n : Fin 64) (x : Sub) (hT : [.net] ⊆ L)
    (hk : Kept L o s) :
    Kept L o (State.telLatch s n x) := by
  unfold State.telLatch
  repeat' first
    | with_reducible first | assumption | apply State.updSub_kept
    | simp only [↓Kept.mk_iff]
    | with_reducible apply Kept.ite

theorem State.telSend_kept {L : List Blk} {o : State} (s : State) (n : Fin 64) (x : Sub)
    (hT : [.sys, .cfg, .net, .evr, .tx] ⊆ L) (hk : Kept L o s) :
    Kept L o (State.telSend s n x) := by
  unfold State.telSend
  repeat' first
    | with_reducible assumption
    | exact hT (by decide)
    | exact List.Subset.trans (by decide) hT
    | ((try lift_lets); intro x; refine Kept.cut (x := x) ?_ ?_; rotate_left; clear_value x; intro _; rotate_left; unfold x)
    | with_reducible first | apply State.sendTo_kept | apply State.undisplace_kept | apply State.updSub_kept
    | with_reducible apply Kept.of_net
    | simp only [↓Kept.mk_iff]
    | with_reducible apply Kept.ite
    | split

theorem State.telTick_kept {L : List Blk} {o : State} (s : State) (hT : [.net] ⊆ L) (hk : Kept L o s) :
    Kept L o (State.telTick s) := by
  unfold State.telTick
  repeat' first
    | with_reducible first | assumption | apply Kept.foldl
    | refine fun (_ : State) _ => ?_
    | with_reducible first | exact Kept.rfl | apply State.telLatch_kept

theorem execTelemetry_kept {L : List Blk} {o : State} (n : Fin 64) (id : BitVec 8) (free : Bool) (s : State)
    (hT : [.sys, .cfg, .net, .evr, .tx] ⊆ L) (hk : Kept L o s) :
    Keeps L o (execTelemetry n id free s) := by
  unfold execTelemetry
  repeat' first
    | with_reducible assumption
    | exact hT (by decide)
    | exact List.Subset.trans (by decide) hT
    | with_reducible first | apply Keeps.next | apply State.displace_kept | apply State.telSend_kept
    | with_reducible apply Kept.of_net
    | simp only [↓Kept.mk_iff]
    | with_reducible apply Kept.ite
    | split

theorem State.sendEvents_kept {L : List Blk} {o : State} (s : State) (n : Fin 64) (id : Nat) (dropped : Nat)
    (recs : List (List Byte)) (hT : [.sys, .cfg, .net, .evr, .tx] ⊆ L) (hk : Kept L o s) :
    Kept L o (State.sendEvents s n id dropped recs) := by
  unfold State.sendEvents
  repeat' first
    | with_reducible first | assumption | apply Kept.foldl
    | refine fun (_ : State) _ => ?_
    | with_reducible first | exact Kept.rfl | apply State.sendTo_kept

theorem execEvents_kept {L : List Blk} {o : State} (n : Fin 64) (id : BitVec 8) (s : State)
    (hT : [.sys, .cfg, .net, .evr, .tx] ⊆ L) (hk : Kept L o s) :
    Keeps L o (execEvents n id s) := by
  unfold execEvents
  repeat' first
    | with_reducible assumption
    | exact List.Subset.trans (by decide) hT
    | with_reducible first | apply Keeps.next | apply State.sendEvents_kept | apply State.updSub_kept
    | simp only [↓Kept.mk_iff]
    | with_reducible apply Kept.ite
    | split

end Sys2Proof.Machine
end

