-- ==== Sys2Proof/Laws/KeptTickOps.lean ====
section
/-! SUPPORT. What the operations of Machine/TickOps.lean keep. -/

set_option linter.unusedTactic false
set_option linter.unreachableTactic false

namespace Sys2Proof.Machine

theorem State.drainStaging_kept {L : List Blk} {o : State} (s : State) (hT : [.evr] ⊆ L) (hk : Kept L o s) :
    Kept L o (State.drainStaging s) := by
  unfold State.drainStaging
  repeat' first
    | with_reducible assumption
    | exact hT (by decide)
    | with_reducible apply Kept.foldl
    | refine fun (_ : State) _ => ?_
    | with_reducible first | exact Kept.rfl | apply State.evEnter_kept | apply State.evRecord1_kept
    | with_reducible first | apply State.fullTrigger_kept | apply Kept.of_evr
    | simp only [↓Kept.mk_iff]
    | with_reducible apply Kept.ite

theorem State.measureGroup_kept {L : List Blk} {o : State} (s : State) (g : Fin 4) (hT : [.pwm] ⊆ L)
    (hk : Kept L o s) :
    Kept L o (State.measureGroup s g) := by
  unfold State.measureGroup
  repeat' first
    | with_reducible first | assumption | apply State.updGrp_kept
    | simp only [↓Kept.mk_iff]
    | with_reducible apply Kept.ite

theorem State.measureCoolant_kept {L : List Blk} {o : State} (s : State) (hT : [.prot] ⊆ L) (hk : Kept L o s) :
    Kept L o (State.measureCoolant s) := by
  unfold State.measureCoolant
  repeat' first
    | with_reducible assumption
    | exact hT (by decide)
    | ((try lift_lets); intro x; refine Kept.cut (x := x) ?_ ?_; rotate_left; clear_value x; intro _; rotate_left; unfold x)
    | with_reducible apply Kept.of_prot
    | simp only [↓Kept.mk_iff]
    | with_reducible apply Kept.ite

theorem State.measureBus_kept {L : List Blk} {o : State} (s : State) (hT : [.pwm] ⊆ L) (hk : Kept L o s) :
    Kept L o (State.measureBus s) := by
  unfold State.measureBus
  repeat' first
    | with_reducible assumption
    | exact hT (by decide)
    | with_reducible apply Kept.of_pwm
    | simp only [↓Kept.mk_iff]

theorem State.measureSupplies_kept {L : List Blk} {o : State} (s : State) (x : Sys2Proof.TickInputs)
    (hT : [.power] ⊆ L) (hk : Kept L o s) :
    Kept L o (State.measureSupplies s x) := by
  unfold State.measureSupplies
  repeat' first
    | with_reducible assumption
    | exact hT (by decide)
    | with_reducible apply Kept.of_power
    | simp only [↓Kept.mk_iff]
    | with_reducible apply Kept.ite

theorem State.measurePins_kept {L : List Blk} {o : State} (s : State) (x : Sys2Proof.TickInputs)
    (hT : [.power, .clk] ⊆ L) (hk : Kept L o s) :
    Kept L o (State.measurePins s x) := by
  unfold State.measurePins
  repeat' first
    | with_reducible first | assumption | exact fun h => h | exact Nat.le_refl _ | apply Kept.of_any
    | (intro b hb; cases b <;> first | exact absurd (hT (by decide)) hb | rfl)
    | simp only [↓Kept.mk_iff]

theorem State.measureXtal_kept {L : List Blk} {o : State} (s : State) (x : Sys2Proof.TickInputs)
    (hT : [.clk, .evr] ⊆ L) (hk : Kept L o s) :
    Kept L o (State.measureXtal s x) := by
  unfold State.measureXtal
  repeat' first
    | with_reducible assumption
    | exact hT (by decide)
    | with_reducible first | apply State.xtalLost_kept | apply Kept.of_clk
    | simp only [↓Kept.mk_iff]
    | with_reducible apply Kept.ite

theorem State.measureRing_kept {L : List Blk} {o : State} (s : State) (x : Sys2Proof.TickInputs) (hT : [.net] ⊆ L)
    (hk : Kept L o s) :
    Kept L o (State.measureRing s x) := by
  unfold State.measureRing
  repeat' first
    | with_reducible assumption
    | exact hT (by decide)
    | with_reducible apply Kept.of_net
    | simp only [↓Kept.mk_iff]

theorem State.measure_kept {L : List Blk} {o : State} (s : State) (x : Sys2Proof.TickInputs)
    (hT : [.power, .clk, .pwm, .net, .prot, .evr] ⊆ L) (hk : Kept L o s) :
    Kept L o (State.measure s x) := by
  unfold State.measure
  repeat' first
    | with_reducible assumption
    | exact List.Subset.trans (by decide) hT
    | ((try lift_lets); intro x; refine Kept.cut (x := x) ?_ ?_; rotate_left; clear_value x; intro _; rotate_left; unfold x)
    | with_reducible apply Kept.foldl
    | refine fun (_ : State) _ => ?_
    | with_reducible first | exact Kept.rfl | apply State.dieRead_kept | apply State.measureBus_kept
    | with_reducible first | apply State.measureCoolant_kept | apply State.measureGroup_kept
    | with_reducible first | apply State.measurePins_kept | apply State.measureRing_kept
    | with_reducible first | apply State.measureSupplies_kept | apply State.measureXtal_kept

theorem State.applyStaged_kept {L : List Blk} {o : State} (s : State) (hT : [.loop, .pwm] ⊆ L) (hk : Kept L o s) :
    Kept L o (State.applyStaged s) := by
  unfold State.applyStaged
  repeat' first
    | with_reducible assumption
    | exact hT (by decide)
    | exact List.Subset.trans (by decide) hT
    | ((try lift_lets); intro x; refine Kept.cut (x := x) ?_ ?_; rotate_left; clear_value x; intro _; rotate_left; unfold x)
    | with_reducible apply Kept.foldl
    | refine fun (_ : State) _ => ?_
    | with_reducible first | exact Kept.rfl | apply State.psuCommands_kept | apply State.updGrp_kept
    | with_reducible first | apply State.updPh_kept | apply Kept.of_loop | apply Kept.of_pwm
    | simp only [↓Kept.mk_iff]
    | with_reducible apply Kept.ite

theorem State.cyclesTick_kept {L : List Blk} {o : State} (s : State) (l : List Sys2Proof.SenseIn)
    (hT : [.pwm] ⊆ L) (hk : Kept L o s) :
    Kept L o (State.cyclesTick s l) := by
  unfold State.cyclesTick
  repeat' first
    | with_reducible assumption
    | exact hT (by decide)
    | with_reducible apply Kept.foldl
    | refine fun (_ : State) _ => ?_
    | with_reducible first | exact Kept.rfl | apply State.noteSwitch_kept | apply State.phaseTo_kept
    | with_reducible first | apply State.updPh_kept | apply Kept.of_pwm
    | simp only [↓Kept.mk_iff]

theorem State.targets_kept {L : List Blk} {o : State} (s : State) (hT : [.pwm] ⊆ L) (hk : Kept L o s) :
    Kept L o (State.targets s) := by
  unfold State.targets
  repeat' first
    | with_reducible first | assumption | apply Kept.foldl
    | refine fun (_ : State) _ => ?_
    | with_reducible first | exact Kept.rfl | apply State.updGrp_kept

theorem State.causeTicks_kept {L : List Blk} {o : State} (s : State) (hT : [.tlk] ⊆ L) (hk : Kept L o s) :
    Kept L o (State.causeTicks s) := by
  unfold State.causeTicks
  repeat' first
    | with_reducible assumption
    | exact hT (by decide)
    | with_reducible apply Kept.of_tlk
    | simp only [↓Kept.mk_iff]

theorem State.refGroup_kept {L : List Blk} {o : State} (s : State) (g : Fin 4) (hT : [.pwm] ⊆ L) (hk : Kept L o s) :
    Kept L o (State.refGroup s g) := by
  unfold State.refGroup
  repeat' first
    | with_reducible first | assumption | apply Kept.foldl
    | refine fun (_ : State) _ => ?_
    | with_reducible first | exact Kept.rfl | apply State.updGrp_kept | apply State.updPh_kept
    | simp only [↓Kept.mk_iff]
    | with_reducible apply Kept.ite

theorem State.overloadGroup_kept {L : List Blk} {o : State} (s : State) (g : Fin 4) (hT : [.pwm, .evr] ⊆ L)
    (hk : Kept L o s) :
    Kept L o (State.overloadGroup s g) := by
  unfold State.overloadGroup
  repeat' first
    | with_reducible assumption
    | exact List.Subset.trans (by decide) hT
    | with_reducible apply Kept.foldl
    | refine fun (_ : State) _ => ?_
    | with_reducible first | exact Kept.rfl | apply State.ev_kept | apply State.updGrp_kept | apply State.updPh_kept
    | simp only [↓Kept.mk_iff]
    | with_reducible apply Kept.ite

theorem State.balance_kept {L : List Blk} {o : State} (s : State) (g : Fin 4) (hT : [.pwm] ⊆ L) (hk : Kept L o s) :
    Kept L o (State.balance s g) := by
  unfold State.balance
  repeat' first
    | with_reducible first | assumption | apply Kept.foldl
    | refine fun (_ : State) _ => ?_
    | with_reducible first | exact Kept.rfl | apply State.updPh_kept
    | simp only [↓Kept.mk_iff]
    | with_reducible apply Kept.ite

theorem State.suspectTick_kept {L : List Blk} {o : State} (s : State) (g : Fin 4) (hT : [.pwm] ⊆ L)
    (hk : Kept L o s) :
    Kept L o (State.suspectTick s g) := by
  unfold State.suspectTick
  repeat' first
    | with_reducible first | assumption | apply Kept.foldl
    | refine fun (_ : State) _ => ?_
    | with_reducible first | exact Kept.rfl | apply State.updPh_kept
    | simp only [↓Kept.mk_iff]
    | with_reducible apply Kept.ite

theorem State.plimTick_kept {L : List Blk} {o : State} (s : State) (hT : [.pwm, .evr] ⊆ L) (hk : Kept L o s) :
    Kept L o (State.plimTick s) := by
  unfold State.plimTick
  repeat' first
    | with_reducible assumption
    | exact hT (by decide)
    | exact List.Subset.trans (by decide) hT
    | with_reducible first | apply State.ev_kept | apply Kept.of_pwm
    | simp only [↓Kept.mk_iff]
    | with_reducible apply Kept.ite

theorem State.busTick_kept {L : List Blk} {o : State} (s : State) (hT : [.pwm] ⊆ L) (hk : Kept L o s) :
    Kept L o (State.busTick s) := by
  unfold State.busTick
  repeat' first
    | with_reducible assumption
    | exact hT (by decide)
    | with_reducible first | apply State.busProfStep_kept | apply Kept.of_pwm
    | simp only [↓Kept.mk_iff]
    | with_reducible apply Kept.ite

theorem State.gridTick_kept {L : List Blk} {o : State} (s : State) (hT : [.pwm, .est, .evr] ⊆ L) (hk : Kept L o s) :
    Kept L o (State.gridTick s) := by
  unfold State.gridTick
  repeat' first
    | with_reducible assumption
    | exact hT (by decide)
    | exact List.Subset.trans (by decide) hT
    | with_reducible first | exact fun h => h | exact Nat.le_refl _ | apply State.ev_kept
    | with_reducible first | apply State.gridProfStep_kept | apply Kept.of_est | apply Kept.of_any
    | (intro b hb; cases b <;> first | exact absurd (hT (by decide)) hb | rfl)
    | simp only [↓Kept.mk_iff]
    | with_reducible apply Kept.ite

theorem State.slotTick_kept {L : List Blk} {o : State} (s : State) (i : Fin 64)
    (hT : [.sys, .sec, .cfg, .loop, .pwm, .prot, .evr] ⊆ L) (hk : Kept L o s) :
    Kept L o (State.slotTick s i) := by
  unfold State.slotTick
  repeat' first
    | with_reducible assumption
    | exact List.Subset.trans (by decide) hT
    | with_reducible first | apply State.formOutput_kept | apply State.seedSlot_kept | apply State.slotEval_kept
    | simp only [↓Kept.mk_iff]
    | with_reducible apply Kept.ite
    | split

theorem State.engineTick_kept {L : List Blk} {o : State} (s : State) (cycles : Nat)
    (hT : [.sys, .sec, .cfg, .loop, .pwm, .prot, .evr] ⊆ L) (hk : Kept L o s) :
    Kept L o (State.engineTick s cycles) := by
  unfold State.engineTick
  repeat' first
    | with_reducible first | assumption | exact fun h => h | exact Nat.le_refl _
    | ((try lift_lets); intro x; refine Kept.cut (x := x) ?_ ?_; rotate_left; clear_value x; intro _; rotate_left; unfold x)
    | with_reducible apply Kept.foldl
    | refine fun (_ : State) _ => ?_
    | with_reducible first | exact Kept.rfl | apply State.slotTick_kept | apply Kept.of_any
    | (intro b hb; cases b <;> first | exact absurd (hT (by decide)) hb | rfl)
    | simp only [↓Kept.mk_iff]
    | with_reducible apply Kept.ite

theorem State.resistTick_kept {L : List Blk} {o : State} (s : State) (i : Fin 4) (hT : [.est, .evr] ⊆ L)
    (hk : Kept L o s) :
    Kept L o (State.resistTick s i) := by
  unfold State.resistTick
  repeat' first
    | with_reducible assumption
    | exact List.Subset.trans (by decide) hT
    | with_reducible first | apply State.ev_kept | apply State.updStr_kept
    | simp only [↓Kept.mk_iff]
    | with_reducible apply Kept.ite
    | split

theorem State.sumsTick_kept {L : List Blk} {o : State} (s : State) (hT : [.est] ⊆ L) (hk : Kept L o s) :
    Kept L o (State.sumsTick s) := by
  unfold State.sumsTick
  repeat' first
    | with_reducible assumption
    | exact hT (by decide)
    | ((try lift_lets); intro x; refine Kept.cut (x := x) ?_ ?_; rotate_left; clear_value x; intro _; rotate_left; unfold x)
    | with_reducible apply Kept.foldl
    | refine fun (_ : State) _ => ?_
    | with_reducible first | exact Kept.rfl | apply State.updStr_kept | apply Kept.of_est
    | simp only [↓Kept.mk_iff]

theorem State.keyTick_kept {L : List Blk} {o : State} (s : State) (hT : [.evr] ⊆ L) (hk : Kept L o s) :
    Kept L o (State.keyTick s) := by
  unfold State.keyTick
  repeat' first
    | with_reducible assumption
    | exact hT (by decide)
    | with_reducible apply Kept.of_evr
    | simp only [↓Kept.mk_iff]
    | with_reducible apply Kept.ite

theorem State.capWrite_kept {L : List Blk} {o : State} (s : State) (l : List Byte) (hT : [.evr] ⊆ L)
    (hk : Kept L o s) :
    Kept L o (State.capWrite s l) := by
  unfold State.capWrite
  repeat' first
    | with_reducible assumption
    | exact hT (by decide)
    | with_reducible apply Kept.of_evr
    | simp only [↓Kept.mk_iff]
    | with_reducible apply Kept.ite

theorem State.capClose_kept {L : List Blk} {o : State} (s : State) (c : Nat) (hT : [.evr, .fv] ⊆ L)
    (hk : Kept L o s) :
    Kept L o (State.capClose s c) := by
  unfold State.capClose
  repeat' first
    | with_reducible assumption
    | exact hT (by decide)
    | exact List.Subset.trans (by decide) hT
    | with_reducible first | apply State.capWrite_kept | apply State.used_kept | apply Kept.of_evr
    | simp only [↓Kept.mk_iff]
    | split

theorem State.capNote_kept {L : List Blk} {o : State} (s : State) (c : Nat) (opened : Bool) (lost : Bool)
    (hT : [.evr] ⊆ L) (hk : Kept L o s) :
    Kept L o (State.capNote s c opened lost) := by
  unfold State.capNote
  repeat' first
    | with_reducible assumption
    | exact hT (by decide)
    | with_reducible apply Kept.of_evr
    | simp only [↓Kept.mk_iff]

theorem State.capEntry_kept {L : List Blk} {o : State} (s : State) (c : Nat) (format : Nat) (flags : Nat)
    (cap : Nat) (at_ : Int) (e : List Byte) (hT : [.evr, .fv] ⊆ L) (hk : Kept L o s) :
    Kept L o (State.capEntry s c format flags cap at_ e) := by
  unfold State.capEntry
  repeat' first
    | with_reducible assumption
    | exact hT (by decide)
    | exact List.Subset.trans (by decide) hT
    | with_reducible first | apply State.capClose_kept | apply State.capNote_kept | apply Kept.of_evr
    | simp only [↓Kept.mk_iff]
    | with_reducible apply Kept.ite
    | split

theorem State.capWindow_kept {L : List Blk} {o : State} (s : State) (x : Sys2Proof.TickInputs) (c : Nat)
    (hT : [.evr, .fv] ⊆ L) (hk : Kept L o s) :
    Kept L o (State.capWindow s x c) := by
  unfold State.capWindow
  repeat' first
    | with_reducible first | assumption | apply Kept.foldl
    | refine fun (_ : State) _ => ?_
    | with_reducible first | exact Kept.rfl | apply State.capEntry_kept
    | simp only [↓Kept.mk_iff]
    | with_reducible apply Kept.ite

theorem State.capChannel_kept {L : List Blk} {o : State} (s : State) (x : Sys2Proof.TickInputs) (c : Nat)
    (hT : [.evr, .fv] ⊆ L) (hk : Kept L o s) :
    Kept L o (State.capChannel s x c) := by
  unfold State.capChannel
  repeat' first
    | with_reducible assumption
    | exact List.Subset.trans (by decide) hT
    | with_reducible first | apply State.capNote_kept | apply State.capWindow_kept

theorem State.captureTick_kept {L : List Blk} {o : State} (s : State) (x : Sys2Proof.TickInputs)
    (hT : [.evr, .fv] ⊆ L) (hk : Kept L o s) :
    Kept L o (State.captureTick s x) := by
  unfold State.captureTick
  repeat' first
    | with_reducible assumption
    | exact hT (by decide)
    | exact List.Subset.trans (by decide) hT
    | with_reducible apply Kept.foldl
    | refine fun (_ : State) _ => ?_
    | with_reducible first | exact Kept.rfl | apply State.capChannel_kept | apply State.capClose_kept
    | with_reducible first | apply State.capWrite_kept | apply State.used_kept | apply Kept.of_evr
    | simp only [↓Kept.mk_iff]
    | with_reducible apply Kept.ite

theorem State.histChannel_kept {L : List Blk} {o : State} (s : State) (c : Nat) (decim : Nat)
    (hT : [.mem, .evr] ⊆ L) (hk : Kept L o s) :
    Kept L o (State.histChannel s c decim) := by
  unfold State.histChannel
  repeat' first
    | with_reducible assumption
    | exact hT (by decide)
    | exact List.Subset.trans (by decide) hT
    | with_reducible first | apply State.tierPut_kept | apply Kept.of_evr
    | simp only [↓Kept.mk_iff]
    | with_reducible apply Kept.ite

theorem State.historyTick_kept {L : List Blk} {o : State} (s : State) (hT : [.mem, .evr] ⊆ L) (hk : Kept L o s) :
    Kept L o (State.historyTick s) := by
  unfold State.historyTick
  repeat' first
    | with_reducible first | assumption | apply Kept.foldl
    | refine fun (_ : State) _ => ?_
    | with_reducible first | exact Kept.rfl | apply State.histChannel_kept

theorem State.offWindowTick_kept {L : List Blk} {o : State} (s : State) (hT : [.chn, .evr] ⊆ L) (hk : Kept L o s) :
    Kept L o (State.offWindowTick s) := by
  unfold State.offWindowTick
  repeat' first
    | with_reducible first | assumption | apply Kept.foldl
    | refine fun (_ : State) _ => ?_
    | with_reducible first | exact Kept.rfl | apply State.offWindowCheck_kept

theorem State.syncOutTick_kept {L : List Blk} {o : State} (s : State) (hT : [.sys] ⊆ L) (hk : Kept L o s) :
    Kept L o (State.syncOutTick s) := by
  unfold State.syncOutTick
  repeat' first
    | with_reducible assumption
    | exact hT (by decide)
    | with_reducible apply Kept.of_sys
    | simp only [↓Kept.mk_iff]
    | with_reducible apply Kept.ite
    | split

theorem State.releaseTick_kept {L : List Blk} {o : State} (s : State) (hT : [.tlk] ⊆ L) (hk : Kept L o s) :
    Kept L o (State.releaseTick s) := by
  unfold State.releaseTick
  repeat' first
    | with_reducible assumption
    | exact hT (by decide)
    | with_reducible apply Kept.of_tlk
    | simp only [↓Kept.mk_iff]

theorem State.ringDegTick_kept {L : List Blk} {o : State} (s : State) (hT : [.chn] ⊆ L) (hk : Kept L o s) :
    Kept L o (State.ringDegTick s) := by
  unfold State.ringDegTick
  repeat' first
    | with_reducible first | assumption | apply Kept.foldl
    | refine fun (_ : State) _ => ?_
    | with_reducible first | exact Kept.rfl | apply State.updRing_kept

theorem State.degradedTick_kept {L : List Blk} {o : State} (s : State) (hT : [.sys, .chn] ⊆ L) (hk : Kept L o s) :
    Kept L o (State.degradedTick s) := by
  unfold State.degradedTick
  repeat' first
    | with_reducible assumption
    | exact hT (by decide)
    | exact List.Subset.trans (by decide) hT
    | ((try lift_lets); intro x; refine Kept.cut (x := x) ?_ ?_; rotate_left; clear_value x; intro _; rotate_left; unfold x)
    | with_reducible first | apply State.ringDegTick_kept | apply Kept.of_sys
    | simp only [↓Kept.mk_iff]

end Sys2Proof.Machine
end

