-- ==== Sys2Proof/Laws/KeptTick.lean ====
section
/-! SUPPORT. What the operations of Machine/Tick.lean keep. -/

set_option linter.unusedTactic false
set_option linter.unreachableTactic false

namespace Sys2Proof.Machine

theorem State.slewTick_kept {L : List Blk} {o : State} (s : State) (hT : [.sys, .net, .fv] ⊆ L) (hk : Kept L o s) :
    Kept L o (State.slewTick s) := by
  unfold State.slewTick
  repeat' first
    | with_reducible assumption
    | exact List.Subset.trans (by decide) hT
    | with_reducible first | exact fun h => h | exact Nat.le_refl _ | apply State.used_kept | apply Kept.of_any
    | (intro b hb; cases b <;> first | exact absurd (hT (by decide)) hb | rfl)
    | simp only [↓Kept.mk_iff]
    | with_reducible apply Kept.ite

theorem State.advance_kept {L : List Blk} {o : State} (s : State) (hT : [.sys, .net, .fv] ⊆ L) (hk : Kept L o s) :
    Kept L o (State.advance s) := by
  unfold State.advance
  repeat' first
    | with_reducible assumption
    | exact hT (by decide)
    | with_reducible first | apply State.slewTick_kept | apply Kept.of_sys
    | simp only [↓Kept.mk_iff]

theorem State.holdTick_kept {L : List Blk} {o : State} (s : State) (x : Sys2Proof.TickInputs)
    (hT : [.sys, .afe, .pwm, .net, .evr, .fv] ⊆ L) (hk : Kept L o s) :
    Kept L o (State.holdTick s x) := by
  unfold State.holdTick
  repeat' first
    | with_reducible assumption
    | exact List.Subset.trans (by decide) hT
    | with_reducible first | apply State.advance_kept | apply State.afeLatch_kept | apply State.cyclesTick_kept
    | with_reducible first | apply State.drainStaging_kept | apply State.keyTick_kept

theorem State.convTick_kept {L : List Blk} {o : State} (s : State) (hT : [.pwm, .tlk, .evr, .tx] ⊆ L)
    (hk : Kept L o s) :
    Kept L o (State.convTick s) := by
  unfold State.convTick
  repeat' first
    | with_reducible assumption
    | exact hT (by decide)
    | exact List.Subset.trans (by decide) hT
    | ((try lift_lets); intro x; refine Kept.cut (x := x) ?_ ?_; rotate_left; clear_value x; intro _; rotate_left; unfold x)
    | with_reducible apply Kept.foldl
    | refine fun (_ : State) _ => ?_
    | with_reducible first | exact Kept.rfl | apply State.balance_kept | apply State.overloadGroup_kept
    | with_reducible first | apply State.plimTick_kept | apply State.refGroup_kept | apply State.runningCheck_kept
    | with_reducible first | apply State.suspectTick_kept | apply Kept.of_pwm
    | simp only [↓Kept.mk_iff]

theorem State.fullTick_kept {L : List Blk} {o : State} (s : State) (x : Sys2Proof.TickInputs)
    (hT : [.power, .clk, .sys, .sec, .cfg, .afe, .loop, .pwm, .fce, .tlk, .chn, .est, .net, .prot, .mem, .evr, .tx, .fv] ⊆ L) (hk : Kept L o s) :
    Kept L o (State.fullTick s x) := by
  unfold State.fullTick
  repeat' first
    | with_reducible assumption
    | exact List.Subset.trans (by decide) hT
    | ((try lift_lets); intro x; refine Kept.cut (x := x) ?_ ?_; rotate_left; clear_value x; intro _; rotate_left; unfold x)
    | with_reducible apply Kept.foldl
    | refine fun (_ : State) _ => ?_
    | with_reducible first | exact Kept.rfl | apply State.advance_kept | apply State.afeLatch_kept
    | with_reducible first | apply State.applyStaged_kept | apply State.busTick_kept | apply State.captureTick_kept
    | with_reducible first | apply State.causeTicks_kept | apply State.chainTick_kept
    | with_reducible first | apply State.cometAgeTick_kept | apply State.cometTick_kept | apply State.convTick_kept
    | with_reducible first | apply State.cyclesTick_kept | apply State.degradedTick_kept
    | with_reducible first | apply State.drainStaging_kept | apply State.engineTick_kept | apply State.fceStart_kept
    | with_reducible first | apply State.fceTick_kept | apply State.gridTick_kept | apply State.healthTick_kept
    | with_reducible first | apply State.historyTick_kept | apply State.keyTick_kept | apply State.limitsTick_kept
    | with_reducible first | apply State.measure_kept | apply State.offWindowTick_kept
    | with_reducible first | apply State.ptpMasterTick_kept | apply State.releaseTick_kept
    | with_reducible first | apply State.resistTick_kept | apply State.sumsTick_kept | apply State.swapAt_kept
    | with_reducible first | apply State.syncOutTick_kept | apply State.targets_kept | apply Kept.ite

theorem execTick_kept {L : List Blk} {o : State} (x : Sys2Proof.TickInputs) (s : State)
    (hT : [.power, .clk, .sys, .sec, .cfg, .afe, .loop, .pwm, .fce, .tlk, .chn, .est, .net, .prot, .mem, .evr, .tx, .fv] ⊆ L) (hk : Kept L o s) :
    Keeps L o (execTick x s) := by
  unfold execTick
  repeat' first
    | with_reducible assumption
    | exact List.Subset.trans (by decide) hT
    | with_reducible first | apply Keeps.next | apply State.blockTick_kept | apply State.fullTick_kept
    | with_reducible first | apply State.holdTick_kept | apply State.telTick_kept | apply Kept.ite

end Sys2Proof.Machine
end

