-- ==== Sys2Proof/Laws/State.lean ====
section
/-! SUPPORT. The updates of one part of the state: each leaves the other parts as they are. And vectors under an update. -/

namespace Sys2Proof.Machine

/-- An entry after the update of one entry. -/
@[simp] theorem updV_get {α : Type} {n : Nat} (v : Vector α n) (i : Fin n) (f : α → α) (j : Nat) (h : j < n) :
    (updV v i f)[j] = if i.val = j then f v[j] else v[j] := by
  simp only [updV, Vector.getElem_set]
  split
  · rename_i e; subst e; rfl
  · rfl

/-- An entry after a map. -/
@[simp] theorem mapV_get {α β : Type} {n : Nat} (v : Vector α n) (f : Fin n → α → β) (j : Nat) (h : j < n) :
    (mapV v f)[j] = f ⟨j, h⟩ v[j] := by
  simp [mapV]

/-! `send` touches TX. -/
@[simp] theorem State.send_power (s : State) (o : Output) : (s.send o).power = s.power := rfl
@[simp] theorem State.send_clk (s : State) (o : Output) : (s.send o).clk = s.clk := rfl
@[simp] theorem State.send_sys (s : State) (o : Output) : (s.send o).sys = s.sys := rfl
@[simp] theorem State.send_sec (s : State) (o : Output) : (s.send o).sec = s.sec := rfl
@[simp] theorem State.send_cfg (s : State) (o : Output) : (s.send o).cfg = s.cfg := rfl
@[simp] theorem State.send_afe (s : State) (o : Output) : (s.send o).afe = s.afe := rfl
@[simp] theorem State.send_loop (s : State) (o : Output) : (s.send o).loop = s.loop := rfl
@[simp] theorem State.send_pwm (s : State) (o : Output) : (s.send o).pwm = s.pwm := rfl
@[simp] theorem State.send_fce (s : State) (o : Output) : (s.send o).fce = s.fce := rfl
@[simp] theorem State.send_tlk (s : State) (o : Output) : (s.send o).tlk = s.tlk := rfl
@[simp] theorem State.send_chn (s : State) (o : Output) : (s.send o).chn = s.chn := rfl
@[simp] theorem State.send_est (s : State) (o : Output) : (s.send o).est = s.est := rfl
@[simp] theorem State.send_net (s : State) (o : Output) : (s.send o).net = s.net := rfl
@[simp] theorem State.send_prot (s : State) (o : Output) : (s.send o).prot = s.prot := rfl
@[simp] theorem State.send_mem (s : State) (o : Output) : (s.send o).mem = s.mem := rfl
@[simp] theorem State.send_evr (s : State) (o : Output) : (s.send o).evr = s.evr := rfl
@[simp] theorem State.send_fv (s : State) (o : Output) : (s.send o).fv = s.fv := rfl
@[simp] theorem State.send_pending (s : State) (o : Output) : (s.send o).pending = s.pending := rfl

/-! `used` touches FV. -/
@[simp] theorem State.used_power (s : State) : s.used.power = s.power := rfl
@[simp] theorem State.used_clk (s : State) : s.used.clk = s.clk := rfl
@[simp] theorem State.used_sys (s : State) : s.used.sys = s.sys := rfl
@[simp] theorem State.used_sec (s : State) : s.used.sec = s.sec := rfl
@[simp] theorem State.used_cfg (s : State) : s.used.cfg = s.cfg := rfl
@[simp] theorem State.used_afe (s : State) : s.used.afe = s.afe := rfl
@[simp] theorem State.used_loop (s : State) : s.used.loop = s.loop := rfl
@[simp] theorem State.used_pwm (s : State) : s.used.pwm = s.pwm := rfl
@[simp] theorem State.used_fce (s : State) : s.used.fce = s.fce := rfl
@[simp] theorem State.used_tlk (s : State) : s.used.tlk = s.tlk := rfl
@[simp] theorem State.used_chn (s : State) : s.used.chn = s.chn := rfl
@[simp] theorem State.used_est (s : State) : s.used.est = s.est := rfl
@[simp] theorem State.used_net (s : State) : s.used.net = s.net := rfl
@[simp] theorem State.used_prot (s : State) : s.used.prot = s.prot := rfl
@[simp] theorem State.used_mem (s : State) : s.used.mem = s.mem := rfl
@[simp] theorem State.used_evr (s : State) : s.used.evr = s.evr := rfl
@[simp] theorem State.used_tx (s : State) : s.used.tx = s.tx := rfl
@[simp] theorem State.used_pending (s : State) : s.used.pending = s.pending := rfl

/-! `degrade` touches SYS. -/
@[simp] theorem State.degrade_power (s : State) : s.degrade.power = s.power := rfl
@[simp] theorem State.degrade_clk (s : State) : s.degrade.clk = s.clk := rfl
@[simp] theorem State.degrade_sec (s : State) : s.degrade.sec = s.sec := rfl
@[simp] theorem State.degrade_cfg (s : State) : s.degrade.cfg = s.cfg := rfl
@[simp] theorem State.degrade_afe (s : State) : s.degrade.afe = s.afe := rfl
@[simp] theorem State.degrade_loop (s : State) : s.degrade.loop = s.loop := rfl
@[simp] theorem State.degrade_pwm (s : State) : s.degrade.pwm = s.pwm := rfl
@[simp] theorem State.degrade_fce (s : State) : s.degrade.fce = s.fce := rfl
@[simp] theorem State.degrade_tlk (s : State) : s.degrade.tlk = s.tlk := rfl
@[simp] theorem State.degrade_chn (s : State) : s.degrade.chn = s.chn := rfl
@[simp] theorem State.degrade_est (s : State) : s.degrade.est = s.est := rfl
@[simp] theorem State.degrade_net (s : State) : s.degrade.net = s.net := rfl
@[simp] theorem State.degrade_prot (s : State) : s.degrade.prot = s.prot := rfl
@[simp] theorem State.degrade_mem (s : State) : s.degrade.mem = s.mem := rfl
@[simp] theorem State.degrade_evr (s : State) : s.degrade.evr = s.evr := rfl
@[simp] theorem State.degrade_tx (s : State) : s.degrade.tx = s.tx := rfl
@[simp] theorem State.degrade_fv (s : State) : s.degrade.fv = s.fv := rfl
@[simp] theorem State.degrade_pending (s : State) : s.degrade.pending = s.pending := rfl

/-! `violate` touches SYS. -/
@[simp] theorem State.violate_power (s : State) : s.violate.power = s.power := rfl
@[simp] theorem State.violate_clk (s : State) : s.violate.clk = s.clk := rfl
@[simp] theorem State.violate_sec (s : State) : s.violate.sec = s.sec := rfl
@[simp] theorem State.violate_cfg (s : State) : s.violate.cfg = s.cfg := rfl
@[simp] theorem State.violate_afe (s : State) : s.violate.afe = s.afe := rfl
@[simp] theorem State.violate_loop (s : State) : s.violate.loop = s.loop := rfl
@[simp] theorem State.violate_pwm (s : State) : s.violate.pwm = s.pwm := rfl
@[simp] theorem State.violate_fce (s : State) : s.violate.fce = s.fce := rfl
@[simp] theorem State.violate_tlk (s : State) : s.violate.tlk = s.tlk := rfl
@[simp] theorem State.violate_chn (s : State) : s.violate.chn = s.chn := rfl
@[simp] theorem State.violate_est (s : State) : s.violate.est = s.est := rfl
@[simp] theorem State.violate_net (s : State) : s.violate.net = s.net := rfl
@[simp] theorem State.violate_prot (s : State) : s.violate.prot = s.prot := rfl
@[simp] theorem State.violate_mem (s : State) : s.violate.mem = s.mem := rfl
@[simp] theorem State.violate_evr (s : State) : s.violate.evr = s.evr := rfl
@[simp] theorem State.violate_tx (s : State) : s.violate.tx = s.tx := rfl
@[simp] theorem State.violate_fv (s : State) : s.violate.fv = s.fv := rfl
@[simp] theorem State.violate_pending (s : State) : s.violate.pending = s.pending := rfl

/-! `setGdrv` touches SYS. -/
@[simp] theorem State.setGdrv_power (s : State) (g : Fin 4) (v : Bool) : (s.setGdrv g v).power = s.power := rfl
@[simp] theorem State.setGdrv_clk (s : State) (g : Fin 4) (v : Bool) : (s.setGdrv g v).clk = s.clk := rfl
@[simp] theorem State.setGdrv_sec (s : State) (g : Fin 4) (v : Bool) : (s.setGdrv g v).sec = s.sec := rfl
@[simp] theorem State.setGdrv_cfg (s : State) (g : Fin 4) (v : Bool) : (s.setGdrv g v).cfg = s.cfg := rfl
@[simp] theorem State.setGdrv_afe (s : State) (g : Fin 4) (v : Bool) : (s.setGdrv g v).afe = s.afe := rfl
@[simp] theorem State.setGdrv_loop (s : State) (g : Fin 4) (v : Bool) : (s.setGdrv g v).loop = s.loop := rfl
@[simp] theorem State.setGdrv_pwm (s : State) (g : Fin 4) (v : Bool) : (s.setGdrv g v).pwm = s.pwm := rfl
@[simp] theorem State.setGdrv_fce (s : State) (g : Fin 4) (v : Bool) : (s.setGdrv g v).fce = s.fce := rfl
@[simp] theorem State.setGdrv_tlk (s : State) (g : Fin 4) (v : Bool) : (s.setGdrv g v).tlk = s.tlk := rfl
@[simp] theorem State.setGdrv_chn (s : State) (g : Fin 4) (v : Bool) : (s.setGdrv g v).chn = s.chn := rfl
@[simp] theorem State.setGdrv_est (s : State) (g : Fin 4) (v : Bool) : (s.setGdrv g v).est = s.est := rfl
@[simp] theorem State.setGdrv_net (s : State) (g : Fin 4) (v : Bool) : (s.setGdrv g v).net = s.net := rfl
@[simp] theorem State.setGdrv_prot (s : State) (g : Fin 4) (v : Bool) : (s.setGdrv g v).prot = s.prot := rfl
@[simp] theorem State.setGdrv_mem (s : State) (g : Fin 4) (v : Bool) : (s.setGdrv g v).mem = s.mem := rfl
@[simp] theorem State.setGdrv_evr (s : State) (g : Fin 4) (v : Bool) : (s.setGdrv g v).evr = s.evr := rfl
@[simp] theorem State.setGdrv_tx (s : State) (g : Fin 4) (v : Bool) : (s.setGdrv g v).tx = s.tx := rfl
@[simp] theorem State.setGdrv_fv (s : State) (g : Fin 4) (v : Bool) : (s.setGdrv g v).fv = s.fv := rfl
@[simp] theorem State.setGdrv_pending (s : State) (g : Fin 4) (v : Bool) : (s.setGdrv g v).pending = s.pending := rfl

/-! `gdrvLow` touches SYS. -/
@[simp] theorem State.gdrvLow_power (s : State) : s.gdrvLow.power = s.power := rfl
@[simp] theorem State.gdrvLow_clk (s : State) : s.gdrvLow.clk = s.clk := rfl
@[simp] theorem State.gdrvLow_sec (s : State) : s.gdrvLow.sec = s.sec := rfl
@[simp] theorem State.gdrvLow_cfg (s : State) : s.gdrvLow.cfg = s.cfg := rfl
@[simp] theorem State.gdrvLow_afe (s : State) : s.gdrvLow.afe = s.afe := rfl
@[simp] theorem State.gdrvLow_loop (s : State) : s.gdrvLow.loop = s.loop := rfl
@[simp] theorem State.gdrvLow_pwm (s : State) : s.gdrvLow.pwm = s.pwm := rfl
@[simp] theorem State.gdrvLow_fce (s : State) : s.gdrvLow.fce = s.fce := rfl
@[simp] theorem State.gdrvLow_tlk (s : State) : s.gdrvLow.tlk = s.tlk := rfl
@[simp] theorem State.gdrvLow_chn (s : State) : s.gdrvLow.chn = s.chn := rfl
@[simp] theorem State.gdrvLow_est (s : State) : s.gdrvLow.est = s.est := rfl
@[simp] theorem State.gdrvLow_net (s : State) : s.gdrvLow.net = s.net := rfl
@[simp] theorem State.gdrvLow_prot (s : State) : s.gdrvLow.prot = s.prot := rfl
@[simp] theorem State.gdrvLow_mem (s : State) : s.gdrvLow.mem = s.mem := rfl
@[simp] theorem State.gdrvLow_evr (s : State) : s.gdrvLow.evr = s.evr := rfl
@[simp] theorem State.gdrvLow_tx (s : State) : s.gdrvLow.tx = s.tx := rfl
@[simp] theorem State.gdrvLow_fv (s : State) : s.gdrvLow.fv = s.fv := rfl
@[simp] theorem State.gdrvLow_pending (s : State) : s.gdrvLow.pending = s.pending := rfl

/-! `updCh` touches AFE. -/
@[simp] theorem State.updCh_power (s : State) (c : Nat) (f : Channel → Channel) : (s.updCh c f).power = s.power := rfl
@[simp] theorem State.updCh_clk (s : State) (c : Nat) (f : Channel → Channel) : (s.updCh c f).clk = s.clk := rfl
@[simp] theorem State.updCh_sys (s : State) (c : Nat) (f : Channel → Channel) : (s.updCh c f).sys = s.sys := rfl
@[simp] theorem State.updCh_sec (s : State) (c : Nat) (f : Channel → Channel) : (s.updCh c f).sec = s.sec := rfl
@[simp] theorem State.updCh_cfg (s : State) (c : Nat) (f : Channel → Channel) : (s.updCh c f).cfg = s.cfg := rfl
@[simp] theorem State.updCh_loop (s : State) (c : Nat) (f : Channel → Channel) : (s.updCh c f).loop = s.loop := rfl
@[simp] theorem State.updCh_pwm (s : State) (c : Nat) (f : Channel → Channel) : (s.updCh c f).pwm = s.pwm := rfl
@[simp] theorem State.updCh_fce (s : State) (c : Nat) (f : Channel → Channel) : (s.updCh c f).fce = s.fce := rfl
@[simp] theorem State.updCh_tlk (s : State) (c : Nat) (f : Channel → Channel) : (s.updCh c f).tlk = s.tlk := rfl
@[simp] theorem State.updCh_chn (s : State) (c : Nat) (f : Channel → Channel) : (s.updCh c f).chn = s.chn := rfl
@[simp] theorem State.updCh_est (s : State) (c : Nat) (f : Channel → Channel) : (s.updCh c f).est = s.est := rfl
@[simp] theorem State.updCh_net (s : State) (c : Nat) (f : Channel → Channel) : (s.updCh c f).net = s.net := rfl
@[simp] theorem State.updCh_prot (s : State) (c : Nat) (f : Channel → Channel) : (s.updCh c f).prot = s.prot := rfl
@[simp] theorem State.updCh_mem (s : State) (c : Nat) (f : Channel → Channel) : (s.updCh c f).mem = s.mem := rfl
@[simp] theorem State.updCh_evr (s : State) (c : Nat) (f : Channel → Channel) : (s.updCh c f).evr = s.evr := rfl
@[simp] theorem State.updCh_tx (s : State) (c : Nat) (f : Channel → Channel) : (s.updCh c f).tx = s.tx := rfl
@[simp] theorem State.updCh_fv (s : State) (c : Nat) (f : Channel → Channel) : (s.updCh c f).fv = s.fv := rfl
@[simp] theorem State.updCh_pending (s : State) (c : Nat) (f : Channel → Channel) : (s.updCh c f).pending = s.pending := rfl

/-! `updChip` touches AFE. -/
@[simp] theorem State.updChip_power (s : State) (a : Nat) (f : Chiplet → Chiplet) : (s.updChip a f).power = s.power := rfl
@[simp] theorem State.updChip_clk (s : State) (a : Nat) (f : Chiplet → Chiplet) : (s.updChip a f).clk = s.clk := rfl
@[simp] theorem State.updChip_sys (s : State) (a : Nat) (f : Chiplet → Chiplet) : (s.updChip a f).sys = s.sys := rfl
@[simp] theorem State.updChip_sec (s : State) (a : Nat) (f : Chiplet → Chiplet) : (s.updChip a f).sec = s.sec := rfl
@[simp] theorem State.updChip_cfg (s : State) (a : Nat) (f : Chiplet → Chiplet) : (s.updChip a f).cfg = s.cfg := rfl
@[simp] theorem State.updChip_loop (s : State) (a : Nat) (f : Chiplet → Chiplet) : (s.updChip a f).loop = s.loop := rfl
@[simp] theorem State.updChip_pwm (s : State) (a : Nat) (f : Chiplet → Chiplet) : (s.updChip a f).pwm = s.pwm := rfl
@[simp] theorem State.updChip_fce (s : State) (a : Nat) (f : Chiplet → Chiplet) : (s.updChip a f).fce = s.fce := rfl
@[simp] theorem State.updChip_tlk (s : State) (a : Nat) (f : Chiplet → Chiplet) : (s.updChip a f).tlk = s.tlk := rfl
@[simp] theorem State.updChip_chn (s : State) (a : Nat) (f : Chiplet → Chiplet) : (s.updChip a f).chn = s.chn := rfl
@[simp] theorem State.updChip_est (s : State) (a : Nat) (f : Chiplet → Chiplet) : (s.updChip a f).est = s.est := rfl
@[simp] theorem State.updChip_net (s : State) (a : Nat) (f : Chiplet → Chiplet) : (s.updChip a f).net = s.net := rfl
@[simp] theorem State.updChip_prot (s : State) (a : Nat) (f : Chiplet → Chiplet) : (s.updChip a f).prot = s.prot := rfl
@[simp] theorem State.updChip_mem (s : State) (a : Nat) (f : Chiplet → Chiplet) : (s.updChip a f).mem = s.mem := rfl
@[simp] theorem State.updChip_evr (s : State) (a : Nat) (f : Chiplet → Chiplet) : (s.updChip a f).evr = s.evr := rfl
@[simp] theorem State.updChip_tx (s : State) (a : Nat) (f : Chiplet → Chiplet) : (s.updChip a f).tx = s.tx := rfl
@[simp] theorem State.updChip_fv (s : State) (a : Nat) (f : Chiplet → Chiplet) : (s.updChip a f).fv = s.fv := rfl
@[simp] theorem State.updChip_pending (s : State) (a : Nat) (f : Chiplet → Chiplet) : (s.updChip a f).pending = s.pending := rfl

/-! `updShunt` touches AFE. -/
@[simp] theorem State.updShunt_power (s : State) (i : Fin 4) (f : Shunt → Shunt) : (s.updShunt i f).power = s.power := rfl
@[simp] theorem State.updShunt_clk (s : State) (i : Fin 4) (f : Shunt → Shunt) : (s.updShunt i f).clk = s.clk := rfl
@[simp] theorem State.updShunt_sys (s : State) (i : Fin 4) (f : Shunt → Shunt) : (s.updShunt i f).sys = s.sys := rfl
@[simp] theorem State.updShunt_sec (s : State) (i : Fin 4) (f : Shunt → Shunt) : (s.updShunt i f).sec = s.sec := rfl
@[simp] theorem State.updShunt_cfg (s : State) (i : Fin 4) (f : Shunt → Shunt) : (s.updShunt i f).cfg = s.cfg := rfl
@[simp] theorem State.updShunt_loop (s : State) (i : Fin 4) (f : Shunt → Shunt) : (s.updShunt i f).loop = s.loop := rfl
@[simp] theorem State.updShunt_pwm (s : State) (i : Fin 4) (f : Shunt → Shunt) : (s.updShunt i f).pwm = s.pwm := rfl
@[simp] theorem State.updShunt_fce (s : State) (i : Fin 4) (f : Shunt → Shunt) : (s.updShunt i f).fce = s.fce := rfl
@[simp] theorem State.updShunt_tlk (s : State) (i : Fin 4) (f : Shunt → Shunt) : (s.updShunt i f).tlk = s.tlk := rfl
@[simp] theorem State.updShunt_chn (s : State) (i : Fin 4) (f : Shunt → Shunt) : (s.updShunt i f).chn = s.chn := rfl
@[simp] theorem State.updShunt_est (s : State) (i : Fin 4) (f : Shunt → Shunt) : (s.updShunt i f).est = s.est := rfl
@[simp] theorem State.updShunt_net (s : State) (i : Fin 4) (f : Shunt → Shunt) : (s.updShunt i f).net = s.net := rfl
@[simp] theorem State.updShunt_prot (s : State) (i : Fin 4) (f : Shunt → Shunt) : (s.updShunt i f).prot = s.prot := rfl
@[simp] theorem State.updShunt_mem (s : State) (i : Fin 4) (f : Shunt → Shunt) : (s.updShunt i f).mem = s.mem := rfl
@[simp] theorem State.updShunt_evr (s : State) (i : Fin 4) (f : Shunt → Shunt) : (s.updShunt i f).evr = s.evr := rfl
@[simp] theorem State.updShunt_tx (s : State) (i : Fin 4) (f : Shunt → Shunt) : (s.updShunt i f).tx = s.tx := rfl
@[simp] theorem State.updShunt_fv (s : State) (i : Fin 4) (f : Shunt → Shunt) : (s.updShunt i f).fv = s.fv := rfl
@[simp] theorem State.updShunt_pending (s : State) (i : Fin 4) (f : Shunt → Shunt) : (s.updShunt i f).pending = s.pending := rfl

/-! `updRing` touches CHN. -/
@[simp] theorem State.updRing_power (s : State) (c : Fin 4) (f : Ring → Ring) : (s.updRing c f).power = s.power := rfl
@[simp] theorem State.updRing_clk (s : State) (c : Fin 4) (f : Ring → Ring) : (s.updRing c f).clk = s.clk := rfl
@[simp] theorem State.updRing_sys (s : State) (c : Fin 4) (f : Ring → Ring) : (s.updRing c f).sys = s.sys := rfl
@[simp] theorem State.updRing_sec (s : State) (c : Fin 4) (f : Ring → Ring) : (s.updRing c f).sec = s.sec := rfl
@[simp] theorem State.updRing_cfg (s : State) (c : Fin 4) (f : Ring → Ring) : (s.updRing c f).cfg = s.cfg := rfl
@[simp] theorem State.updRing_afe (s : State) (c : Fin 4) (f : Ring → Ring) : (s.updRing c f).afe = s.afe := rfl
@[simp] theorem State.updRing_loop (s : State) (c : Fin 4) (f : Ring → Ring) : (s.updRing c f).loop = s.loop := rfl
@[simp] theorem State.updRing_pwm (s : State) (c : Fin 4) (f : Ring → Ring) : (s.updRing c f).pwm = s.pwm := rfl
@[simp] theorem State.updRing_fce (s : State) (c : Fin 4) (f : Ring → Ring) : (s.updRing c f).fce = s.fce := rfl
@[simp] theorem State.updRing_tlk (s : State) (c : Fin 4) (f : Ring → Ring) : (s.updRing c f).tlk = s.tlk := rfl
@[simp] theorem State.updRing_est (s : State) (c : Fin 4) (f : Ring → Ring) : (s.updRing c f).est = s.est := rfl
@[simp] theorem State.updRing_net (s : State) (c : Fin 4) (f : Ring → Ring) : (s.updRing c f).net = s.net := rfl
@[simp] theorem State.updRing_prot (s : State) (c : Fin 4) (f : Ring → Ring) : (s.updRing c f).prot = s.prot := rfl
@[simp] theorem State.updRing_mem (s : State) (c : Fin 4) (f : Ring → Ring) : (s.updRing c f).mem = s.mem := rfl
@[simp] theorem State.updRing_evr (s : State) (c : Fin 4) (f : Ring → Ring) : (s.updRing c f).evr = s.evr := rfl
@[simp] theorem State.updRing_tx (s : State) (c : Fin 4) (f : Ring → Ring) : (s.updRing c f).tx = s.tx := rfl
@[simp] theorem State.updRing_fv (s : State) (c : Fin 4) (f : Ring → Ring) : (s.updRing c f).fv = s.fv := rfl
@[simp] theorem State.updRing_pending (s : State) (c : Fin 4) (f : Ring → Ring) : (s.updRing c f).pending = s.pending := rfl

/-! `updNode` touches CHN. -/
@[simp] theorem State.updNode_power (s : State) (c : Fin 4) (n : Nat) (f : Node → Node) : (s.updNode c n f).power = s.power := rfl
@[simp] theorem State.updNode_clk (s : State) (c : Fin 4) (n : Nat) (f : Node → Node) : (s.updNode c n f).clk = s.clk := rfl
@[simp] theorem State.updNode_sys (s : State) (c : Fin 4) (n : Nat) (f : Node → Node) : (s.updNode c n f).sys = s.sys := rfl
@[simp] theorem State.updNode_sec (s : State) (c : Fin 4) (n : Nat) (f : Node → Node) : (s.updNode c n f).sec = s.sec := rfl
@[simp] theorem State.updNode_cfg (s : State) (c : Fin 4) (n : Nat) (f : Node → Node) : (s.updNode c n f).cfg = s.cfg := rfl
@[simp] theorem State.updNode_afe (s : State) (c : Fin 4) (n : Nat) (f : Node → Node) : (s.updNode c n f).afe = s.afe := rfl
@[simp] theorem State.updNode_loop (s : State) (c : Fin 4) (n : Nat) (f : Node → Node) : (s.updNode c n f).loop = s.loop := rfl
@[simp] theorem State.updNode_pwm (s : State) (c : Fin 4) (n : Nat) (f : Node → Node) : (s.updNode c n f).pwm = s.pwm := rfl
@[simp] theorem State.updNode_fce (s : State) (c : Fin 4) (n : Nat) (f : Node → Node) : (s.updNode c n f).fce = s.fce := rfl
@[simp] theorem State.updNode_tlk (s : State) (c : Fin 4) (n : Nat) (f : Node → Node) : (s.updNode c n f).tlk = s.tlk := rfl
@[simp] theorem State.updNode_est (s : State) (c : Fin 4) (n : Nat) (f : Node → Node) : (s.updNode c n f).est = s.est := rfl
@[simp] theorem State.updNode_net (s : State) (c : Fin 4) (n : Nat) (f : Node → Node) : (s.updNode c n f).net = s.net := rfl
@[simp] theorem State.updNode_prot (s : State) (c : Fin 4) (n : Nat) (f : Node → Node) : (s.updNode c n f).prot = s.prot := rfl
@[simp] theorem State.updNode_mem (s : State) (c : Fin 4) (n : Nat) (f : Node → Node) : (s.updNode c n f).mem = s.mem := rfl
@[simp] theorem State.updNode_evr (s : State) (c : Fin 4) (n : Nat) (f : Node → Node) : (s.updNode c n f).evr = s.evr := rfl
@[simp] theorem State.updNode_tx (s : State) (c : Fin 4) (n : Nat) (f : Node → Node) : (s.updNode c n f).tx = s.tx := rfl
@[simp] theorem State.updNode_fv (s : State) (c : Fin 4) (n : Nat) (f : Node → Node) : (s.updNode c n f).fv = s.fv := rfl
@[simp] theorem State.updNode_pending (s : State) (c : Fin 4) (n : Nat) (f : Node → Node) : (s.updNode c n f).pending = s.pending := rfl

/-! `updCell` touches CHN. -/
@[simp] theorem State.updCell_power (s : State) (c : Fin 4) (k : Nat) (f : Cell → Cell) : (s.updCell c k f).power = s.power := rfl
@[simp] theorem State.updCell_clk (s : State) (c : Fin 4) (k : Nat) (f : Cell → Cell) : (s.updCell c k f).clk = s.clk := rfl
@[simp] theorem State.updCell_sys (s : State) (c : Fin 4) (k : Nat) (f : Cell → Cell) : (s.updCell c k f).sys = s.sys := rfl
@[simp] theorem State.updCell_sec (s : State) (c : Fin 4) (k : Nat) (f : Cell → Cell) : (s.updCell c k f).sec = s.sec := rfl
@[simp] theorem State.updCell_cfg (s : State) (c : Fin 4) (k : Nat) (f : Cell → Cell) : (s.updCell c k f).cfg = s.cfg := rfl
@[simp] theorem State.updCell_afe (s : State) (c : Fin 4) (k : Nat) (f : Cell → Cell) : (s.updCell c k f).afe = s.afe := rfl
@[simp] theorem State.updCell_loop (s : State) (c : Fin 4) (k : Nat) (f : Cell → Cell) : (s.updCell c k f).loop = s.loop := rfl
@[simp] theorem State.updCell_pwm (s : State) (c : Fin 4) (k : Nat) (f : Cell → Cell) : (s.updCell c k f).pwm = s.pwm := rfl
@[simp] theorem State.updCell_fce (s : State) (c : Fin 4) (k : Nat) (f : Cell → Cell) : (s.updCell c k f).fce = s.fce := rfl
@[simp] theorem State.updCell_tlk (s : State) (c : Fin 4) (k : Nat) (f : Cell → Cell) : (s.updCell c k f).tlk = s.tlk := rfl
@[simp] theorem State.updCell_est (s : State) (c : Fin 4) (k : Nat) (f : Cell → Cell) : (s.updCell c k f).est = s.est := rfl
@[simp] theorem State.updCell_net (s : State) (c : Fin 4) (k : Nat) (f : Cell → Cell) : (s.updCell c k f).net = s.net := rfl
@[simp] theorem State.updCell_prot (s : State) (c : Fin 4) (k : Nat) (f : Cell → Cell) : (s.updCell c k f).prot = s.prot := rfl
@[simp] theorem State.updCell_mem (s : State) (c : Fin 4) (k : Nat) (f : Cell → Cell) : (s.updCell c k f).mem = s.mem := rfl
@[simp] theorem State.updCell_evr (s : State) (c : Fin 4) (k : Nat) (f : Cell → Cell) : (s.updCell c k f).evr = s.evr := rfl
@[simp] theorem State.updCell_tx (s : State) (c : Fin 4) (k : Nat) (f : Cell → Cell) : (s.updCell c k f).tx = s.tx := rfl
@[simp] theorem State.updCell_fv (s : State) (c : Fin 4) (k : Nat) (f : Cell → Cell) : (s.updCell c k f).fv = s.fv := rfl
@[simp] theorem State.updCell_pending (s : State) (c : Fin 4) (k : Nat) (f : Cell → Cell) : (s.updCell c k f).pending = s.pending := rfl

/-! `updStr` touches EST. -/
@[simp] theorem State.updStr_power (s : State) (i : Fin 4) (f : Str → Str) : (s.updStr i f).power = s.power := rfl
@[simp] theorem State.updStr_clk (s : State) (i : Fin 4) (f : Str → Str) : (s.updStr i f).clk = s.clk := rfl
@[simp] theorem State.updStr_sys (s : State) (i : Fin 4) (f : Str → Str) : (s.updStr i f).sys = s.sys := rfl
@[simp] theorem State.updStr_sec (s : State) (i : Fin 4) (f : Str → Str) : (s.updStr i f).sec = s.sec := rfl
@[simp] theorem State.updStr_cfg (s : State) (i : Fin 4) (f : Str → Str) : (s.updStr i f).cfg = s.cfg := rfl
@[simp] theorem State.updStr_afe (s : State) (i : Fin 4) (f : Str → Str) : (s.updStr i f).afe = s.afe := rfl
@[simp] theorem State.updStr_loop (s : State) (i : Fin 4) (f : Str → Str) : (s.updStr i f).loop = s.loop := rfl
@[simp] theorem State.updStr_pwm (s : State) (i : Fin 4) (f : Str → Str) : (s.updStr i f).pwm = s.pwm := rfl
@[simp] theorem State.updStr_fce (s : State) (i : Fin 4) (f : Str → Str) : (s.updStr i f).fce = s.fce := rfl
@[simp] theorem State.updStr_tlk (s : State) (i : Fin 4) (f : Str → Str) : (s.updStr i f).tlk = s.tlk := rfl
@[simp] theorem State.updStr_chn (s : State) (i : Fin 4) (f : Str → Str) : (s.updStr i f).chn = s.chn := rfl
@[simp] theorem State.updStr_net (s : State) (i : Fin 4) (f : Str → Str) : (s.updStr i f).net = s.net := rfl
@[simp] theorem State.updStr_prot (s : State) (i : Fin 4) (f : Str → Str) : (s.updStr i f).prot = s.prot := rfl
@[simp] theorem State.updStr_mem (s : State) (i : Fin 4) (f : Str → Str) : (s.updStr i f).mem = s.mem := rfl
@[simp] theorem State.updStr_evr (s : State) (i : Fin 4) (f : Str → Str) : (s.updStr i f).evr = s.evr := rfl
@[simp] theorem State.updStr_tx (s : State) (i : Fin 4) (f : Str → Str) : (s.updStr i f).tx = s.tx := rfl
@[simp] theorem State.updStr_fv (s : State) (i : Fin 4) (f : Str → Str) : (s.updStr i f).fv = s.fv := rfl
@[simp] theorem State.updStr_pending (s : State) (i : Fin 4) (f : Str → Str) : (s.updStr i f).pending = s.pending := rfl

/-! `updStrProt` touches PROT. -/
@[simp] theorem State.updStrProt_power (s : State) (i : Fin 4) (f : StrProt → StrProt) : (s.updStrProt i f).power = s.power := rfl
@[simp] theorem State.updStrProt_clk (s : State) (i : Fin 4) (f : StrProt → StrProt) : (s.updStrProt i f).clk = s.clk := rfl
@[simp] theorem State.updStrProt_sys (s : State) (i : Fin 4) (f : StrProt → StrProt) : (s.updStrProt i f).sys = s.sys := rfl
@[simp] theorem State.updStrProt_sec (s : State) (i : Fin 4) (f : StrProt → StrProt) : (s.updStrProt i f).sec = s.sec := rfl
@[simp] theorem State.updStrProt_cfg (s : State) (i : Fin 4) (f : StrProt → StrProt) : (s.updStrProt i f).cfg = s.cfg := rfl
@[simp] theorem State.updStrProt_afe (s : State) (i : Fin 4) (f : StrProt → StrProt) : (s.updStrProt i f).afe = s.afe := rfl
@[simp] theorem State.updStrProt_loop (s : State) (i : Fin 4) (f : StrProt → StrProt) : (s.updStrProt i f).loop = s.loop := rfl
@[simp] theorem State.updStrProt_pwm (s : State) (i : Fin 4) (f : StrProt → StrProt) : (s.updStrProt i f).pwm = s.pwm := rfl
@[simp] theorem State.updStrProt_fce (s : State) (i : Fin 4) (f : StrProt → StrProt) : (s.updStrProt i f).fce = s.fce := rfl
@[simp] theorem State.updStrProt_tlk (s : State) (i : Fin 4) (f : StrProt → StrProt) : (s.updStrProt i f).tlk = s.tlk := rfl
@[simp] theorem State.updStrProt_chn (s : State) (i : Fin 4) (f : StrProt → StrProt) : (s.updStrProt i f).chn = s.chn := rfl
@[simp] theorem State.updStrProt_est (s : State) (i : Fin 4) (f : StrProt → StrProt) : (s.updStrProt i f).est = s.est := rfl
@[simp] theorem State.updStrProt_net (s : State) (i : Fin 4) (f : StrProt → StrProt) : (s.updStrProt i f).net = s.net := rfl
@[simp] theorem State.updStrProt_mem (s : State) (i : Fin 4) (f : StrProt → StrProt) : (s.updStrProt i f).mem = s.mem := rfl
@[simp] theorem State.updStrProt_evr (s : State) (i : Fin 4) (f : StrProt → StrProt) : (s.updStrProt i f).evr = s.evr := rfl
@[simp] theorem State.updStrProt_tx (s : State) (i : Fin 4) (f : StrProt → StrProt) : (s.updStrProt i f).tx = s.tx := rfl
@[simp] theorem State.updStrProt_fv (s : State) (i : Fin 4) (f : StrProt → StrProt) : (s.updStrProt i f).fv = s.fv := rfl
@[simp] theorem State.updStrProt_pending (s : State) (i : Fin 4) (f : StrProt → StrProt) : (s.updStrProt i f).pending = s.pending := rfl

/-! `updInst` touches FCE. -/
@[simp] theorem State.updInst_power (s : State) (i : Fin 10) (f : FInst → FInst) : (s.updInst i f).power = s.power := rfl
@[simp] theorem State.updInst_clk (s : State) (i : Fin 10) (f : FInst → FInst) : (s.updInst i f).clk = s.clk := rfl
@[simp] theorem State.updInst_sys (s : State) (i : Fin 10) (f : FInst → FInst) : (s.updInst i f).sys = s.sys := rfl
@[simp] theorem State.updInst_sec (s : State) (i : Fin 10) (f : FInst → FInst) : (s.updInst i f).sec = s.sec := rfl
@[simp] theorem State.updInst_cfg (s : State) (i : Fin 10) (f : FInst → FInst) : (s.updInst i f).cfg = s.cfg := rfl
@[simp] theorem State.updInst_afe (s : State) (i : Fin 10) (f : FInst → FInst) : (s.updInst i f).afe = s.afe := rfl
@[simp] theorem State.updInst_loop (s : State) (i : Fin 10) (f : FInst → FInst) : (s.updInst i f).loop = s.loop := rfl
@[simp] theorem State.updInst_pwm (s : State) (i : Fin 10) (f : FInst → FInst) : (s.updInst i f).pwm = s.pwm := rfl
@[simp] theorem State.updInst_tlk (s : State) (i : Fin 10) (f : FInst → FInst) : (s.updInst i f).tlk = s.tlk := rfl
@[simp] theorem State.updInst_chn (s : State) (i : Fin 10) (f : FInst → FInst) : (s.updInst i f).chn = s.chn := rfl
@[simp] theorem State.updInst_est (s : State) (i : Fin 10) (f : FInst → FInst) : (s.updInst i f).est = s.est := rfl
@[simp] theorem State.updInst_net (s : State) (i : Fin 10) (f : FInst → FInst) : (s.updInst i f).net = s.net := rfl
@[simp] theorem State.updInst_prot (s : State) (i : Fin 10) (f : FInst → FInst) : (s.updInst i f).prot = s.prot := rfl
@[simp] theorem State.updInst_mem (s : State) (i : Fin 10) (f : FInst → FInst) : (s.updInst i f).mem = s.mem := rfl
@[simp] theorem State.updInst_evr (s : State) (i : Fin 10) (f : FInst → FInst) : (s.updInst i f).evr = s.evr := rfl
@[simp] theorem State.updInst_tx (s : State) (i : Fin 10) (f : FInst → FInst) : (s.updInst i f).tx = s.tx := rfl
@[simp] theorem State.updInst_fv (s : State) (i : Fin 10) (f : FInst → FInst) : (s.updInst i f).fv = s.fv := rfl
@[simp] theorem State.updInst_pending (s : State) (i : Fin 10) (f : FInst → FInst) : (s.updInst i f).pending = s.pending := rfl

/-! `updSlot` touches LOOP. -/
@[simp] theorem State.updSlot_power (s : State) (i : Fin 64) (f : Slot → Slot) : (s.updSlot i f).power = s.power := rfl
@[simp] theorem State.updSlot_clk (s : State) (i : Fin 64) (f : Slot → Slot) : (s.updSlot i f).clk = s.clk := rfl
@[simp] theorem State.updSlot_sys (s : State) (i : Fin 64) (f : Slot → Slot) : (s.updSlot i f).sys = s.sys := rfl
@[simp] theorem State.updSlot_sec (s : State) (i : Fin 64) (f : Slot → Slot) : (s.updSlot i f).sec = s.sec := rfl
@[simp] theorem State.updSlot_cfg (s : State) (i : Fin 64) (f : Slot → Slot) : (s.updSlot i f).cfg = s.cfg := rfl
@[simp] theorem State.updSlot_afe (s : State) (i : Fin 64) (f : Slot → Slot) : (s.updSlot i f).afe = s.afe := rfl
@[simp] theorem State.updSlot_pwm (s : State) (i : Fin 64) (f : Slot → Slot) : (s.updSlot i f).pwm = s.pwm := rfl
@[simp] theorem State.updSlot_fce (s : State) (i : Fin 64) (f : Slot → Slot) : (s.updSlot i f).fce = s.fce := rfl
@[simp] theorem State.updSlot_tlk (s : State) (i : Fin 64) (f : Slot → Slot) : (s.updSlot i f).tlk = s.tlk := rfl
@[simp] theorem State.updSlot_chn (s : State) (i : Fin 64) (f : Slot → Slot) : (s.updSlot i f).chn = s.chn := rfl
@[simp] theorem State.updSlot_est (s : State) (i : Fin 64) (f : Slot → Slot) : (s.updSlot i f).est = s.est := rfl
@[simp] theorem State.updSlot_net (s : State) (i : Fin 64) (f : Slot → Slot) : (s.updSlot i f).net = s.net := rfl
@[simp] theorem State.updSlot_prot (s : State) (i : Fin 64) (f : Slot → Slot) : (s.updSlot i f).prot = s.prot := rfl
@[simp] theorem State.updSlot_mem (s : State) (i : Fin 64) (f : Slot → Slot) : (s.updSlot i f).mem = s.mem := rfl
@[simp] theorem State.updSlot_evr (s : State) (i : Fin 64) (f : Slot → Slot) : (s.updSlot i f).evr = s.evr := rfl
@[simp] theorem State.updSlot_tx (s : State) (i : Fin 64) (f : Slot → Slot) : (s.updSlot i f).tx = s.tx := rfl
@[simp] theorem State.updSlot_fv (s : State) (i : Fin 64) (f : Slot → Slot) : (s.updSlot i f).fv = s.fv := rfl
@[simp] theorem State.updSlot_pending (s : State) (i : Fin 64) (f : Slot → Slot) : (s.updSlot i f).pending = s.pending := rfl

/-! `updSess` touches NET. -/
@[simp] theorem State.updSess_power (s : State) (n : Fin 64) (f : Sess → Sess) : (s.updSess n f).power = s.power := rfl
@[simp] theorem State.updSess_clk (s : State) (n : Fin 64) (f : Sess → Sess) : (s.updSess n f).clk = s.clk := rfl
@[simp] theorem State.updSess_sys (s : State) (n : Fin 64) (f : Sess → Sess) : (s.updSess n f).sys = s.sys := rfl
@[simp] theorem State.updSess_sec (s : State) (n : Fin 64) (f : Sess → Sess) : (s.updSess n f).sec = s.sec := rfl
@[simp] theorem State.updSess_cfg (s : State) (n : Fin 64) (f : Sess → Sess) : (s.updSess n f).cfg = s.cfg := rfl
@[simp] theorem State.updSess_afe (s : State) (n : Fin 64) (f : Sess → Sess) : (s.updSess n f).afe = s.afe := rfl
@[simp] theorem State.updSess_loop (s : State) (n : Fin 64) (f : Sess → Sess) : (s.updSess n f).loop = s.loop := rfl
@[simp] theorem State.updSess_pwm (s : State) (n : Fin 64) (f : Sess → Sess) : (s.updSess n f).pwm = s.pwm := rfl
@[simp] theorem State.updSess_fce (s : State) (n : Fin 64) (f : Sess → Sess) : (s.updSess n f).fce = s.fce := rfl
@[simp] theorem State.updSess_tlk (s : State) (n : Fin 64) (f : Sess → Sess) : (s.updSess n f).tlk = s.tlk := rfl
@[simp] theorem State.updSess_chn (s : State) (n : Fin 64) (f : Sess → Sess) : (s.updSess n f).chn = s.chn := rfl
@[simp] theorem State.updSess_est (s : State) (n : Fin 64) (f : Sess → Sess) : (s.updSess n f).est = s.est := rfl
@[simp] theorem State.updSess_prot (s : State) (n : Fin 64) (f : Sess → Sess) : (s.updSess n f).prot = s.prot := rfl
@[simp] theorem State.updSess_mem (s : State) (n : Fin 64) (f : Sess → Sess) : (s.updSess n f).mem = s.mem := rfl
@[simp] theorem State.updSess_evr (s : State) (n : Fin 64) (f : Sess → Sess) : (s.updSess n f).evr = s.evr := rfl
@[simp] theorem State.updSess_tx (s : State) (n : Fin 64) (f : Sess → Sess) : (s.updSess n f).tx = s.tx := rfl
@[simp] theorem State.updSess_fv (s : State) (n : Fin 64) (f : Sess → Sess) : (s.updSess n f).fv = s.fv := rfl
@[simp] theorem State.updSess_pending (s : State) (n : Fin 64) (f : Sess → Sess) : (s.updSess n f).pending = s.pending := rfl

/-! `updQ` touches NET. -/
@[simp] theorem State.updQ_power (s : State) (q : Fin 16) (f : Queue → Queue) : (s.updQ q f).power = s.power := rfl
@[simp] theorem State.updQ_clk (s : State) (q : Fin 16) (f : Queue → Queue) : (s.updQ q f).clk = s.clk := rfl
@[simp] theorem State.updQ_sys (s : State) (q : Fin 16) (f : Queue → Queue) : (s.updQ q f).sys = s.sys := rfl
@[simp] theorem State.updQ_sec (s : State) (q : Fin 16) (f : Queue → Queue) : (s.updQ q f).sec = s.sec := rfl
@[simp] theorem State.updQ_cfg (s : State) (q : Fin 16) (f : Queue → Queue) : (s.updQ q f).cfg = s.cfg := rfl
@[simp] theorem State.updQ_afe (s : State) (q : Fin 16) (f : Queue → Queue) : (s.updQ q f).afe = s.afe := rfl
@[simp] theorem State.updQ_loop (s : State) (q : Fin 16) (f : Queue → Queue) : (s.updQ q f).loop = s.loop := rfl
@[simp] theorem State.updQ_pwm (s : State) (q : Fin 16) (f : Queue → Queue) : (s.updQ q f).pwm = s.pwm := rfl
@[simp] theorem State.updQ_fce (s : State) (q : Fin 16) (f : Queue → Queue) : (s.updQ q f).fce = s.fce := rfl
@[simp] theorem State.updQ_tlk (s : State) (q : Fin 16) (f : Queue → Queue) : (s.updQ q f).tlk = s.tlk := rfl
@[simp] theorem State.updQ_chn (s : State) (q : Fin 16) (f : Queue → Queue) : (s.updQ q f).chn = s.chn := rfl
@[simp] theorem State.updQ_est (s : State) (q : Fin 16) (f : Queue → Queue) : (s.updQ q f).est = s.est := rfl
@[simp] theorem State.updQ_prot (s : State) (q : Fin 16) (f : Queue → Queue) : (s.updQ q f).prot = s.prot := rfl
@[simp] theorem State.updQ_mem (s : State) (q : Fin 16) (f : Queue → Queue) : (s.updQ q f).mem = s.mem := rfl
@[simp] theorem State.updQ_evr (s : State) (q : Fin 16) (f : Queue → Queue) : (s.updQ q f).evr = s.evr := rfl
@[simp] theorem State.updQ_tx (s : State) (q : Fin 16) (f : Queue → Queue) : (s.updQ q f).tx = s.tx := rfl
@[simp] theorem State.updQ_fv (s : State) (q : Fin 16) (f : Queue → Queue) : (s.updQ q f).fv = s.fv := rfl
@[simp] theorem State.updQ_pending (s : State) (q : Fin 16) (f : Queue → Queue) : (s.updQ q f).pending = s.pending := rfl

/-! `updPh` touches PWM. -/
@[simp] theorem State.updPh_power (s : State) (p : Fin 64) (f : Phase → Phase) : (s.updPh p f).power = s.power := rfl
@[simp] theorem State.updPh_clk (s : State) (p : Fin 64) (f : Phase → Phase) : (s.updPh p f).clk = s.clk := rfl
@[simp] theorem State.updPh_sys (s : State) (p : Fin 64) (f : Phase → Phase) : (s.updPh p f).sys = s.sys := rfl
@[simp] theorem State.updPh_sec (s : State) (p : Fin 64) (f : Phase → Phase) : (s.updPh p f).sec = s.sec := rfl
@[simp] theorem State.updPh_cfg (s : State) (p : Fin 64) (f : Phase → Phase) : (s.updPh p f).cfg = s.cfg := rfl
@[simp] theorem State.updPh_afe (s : State) (p : Fin 64) (f : Phase → Phase) : (s.updPh p f).afe = s.afe := rfl
@[simp] theorem State.updPh_loop (s : State) (p : Fin 64) (f : Phase → Phase) : (s.updPh p f).loop = s.loop := rfl
@[simp] theorem State.updPh_fce (s : State) (p : Fin 64) (f : Phase → Phase) : (s.updPh p f).fce = s.fce := rfl
@[simp] theorem State.updPh_tlk (s : State) (p : Fin 64) (f : Phase → Phase) : (s.updPh p f).tlk = s.tlk := rfl
@[simp] theorem State.updPh_chn (s : State) (p : Fin 64) (f : Phase → Phase) : (s.updPh p f).chn = s.chn := rfl
@[simp] theorem State.updPh_est (s : State) (p : Fin 64) (f : Phase → Phase) : (s.updPh p f).est = s.est := rfl
@[simp] theorem State.updPh_net (s : State) (p : Fin 64) (f : Phase → Phase) : (s.updPh p f).net = s.net := rfl
@[simp] theorem State.updPh_prot (s : State) (p : Fin 64) (f : Phase → Phase) : (s.updPh p f).prot = s.prot := rfl
@[simp] theorem State.updPh_mem (s : State) (p : Fin 64) (f : Phase → Phase) : (s.updPh p f).mem = s.mem := rfl
@[simp] theorem State.updPh_evr (s : State) (p : Fin 64) (f : Phase → Phase) : (s.updPh p f).evr = s.evr := rfl
@[simp] theorem State.updPh_tx (s : State) (p : Fin 64) (f : Phase → Phase) : (s.updPh p f).tx = s.tx := rfl
@[simp] theorem State.updPh_fv (s : State) (p : Fin 64) (f : Phase → Phase) : (s.updPh p f).fv = s.fv := rfl
@[simp] theorem State.updPh_pending (s : State) (p : Fin 64) (f : Phase → Phase) : (s.updPh p f).pending = s.pending := rfl

/-! `updGrp` touches PWM. -/
@[simp] theorem State.updGrp_power (s : State) (g : Fin 4) (f : Group → Group) : (s.updGrp g f).power = s.power := rfl
@[simp] theorem State.updGrp_clk (s : State) (g : Fin 4) (f : Group → Group) : (s.updGrp g f).clk = s.clk := rfl
@[simp] theorem State.updGrp_sys (s : State) (g : Fin 4) (f : Group → Group) : (s.updGrp g f).sys = s.sys := rfl
@[simp] theorem State.updGrp_sec (s : State) (g : Fin 4) (f : Group → Group) : (s.updGrp g f).sec = s.sec := rfl
@[simp] theorem State.updGrp_cfg (s : State) (g : Fin 4) (f : Group → Group) : (s.updGrp g f).cfg = s.cfg := rfl
@[simp] theorem State.updGrp_afe (s : State) (g : Fin 4) (f : Group → Group) : (s.updGrp g f).afe = s.afe := rfl
@[simp] theorem State.updGrp_loop (s : State) (g : Fin 4) (f : Group → Group) : (s.updGrp g f).loop = s.loop := rfl
@[simp] theorem State.updGrp_fce (s : State) (g : Fin 4) (f : Group → Group) : (s.updGrp g f).fce = s.fce := rfl
@[simp] theorem State.updGrp_tlk (s : State) (g : Fin 4) (f : Group → Group) : (s.updGrp g f).tlk = s.tlk := rfl
@[simp] theorem State.updGrp_chn (s : State) (g : Fin 4) (f : Group → Group) : (s.updGrp g f).chn = s.chn := rfl
@[simp] theorem State.updGrp_est (s : State) (g : Fin 4) (f : Group → Group) : (s.updGrp g f).est = s.est := rfl
@[simp] theorem State.updGrp_net (s : State) (g : Fin 4) (f : Group → Group) : (s.updGrp g f).net = s.net := rfl
@[simp] theorem State.updGrp_prot (s : State) (g : Fin 4) (f : Group → Group) : (s.updGrp g f).prot = s.prot := rfl
@[simp] theorem State.updGrp_mem (s : State) (g : Fin 4) (f : Group → Group) : (s.updGrp g f).mem = s.mem := rfl
@[simp] theorem State.updGrp_evr (s : State) (g : Fin 4) (f : Group → Group) : (s.updGrp g f).evr = s.evr := rfl
@[simp] theorem State.updGrp_tx (s : State) (g : Fin 4) (f : Group → Group) : (s.updGrp g f).tx = s.tx := rfl
@[simp] theorem State.updGrp_fv (s : State) (g : Fin 4) (f : Group → Group) : (s.updGrp g f).fv = s.fv := rfl
@[simp] theorem State.updGrp_pending (s : State) (g : Fin 4) (f : Group → Group) : (s.updGrp g f).pending = s.pending := rfl

/-! `updPsu` touches PWM. -/
@[simp] theorem State.updPsu_power (s : State) (p : Fin 16) (f : PsuPort → PsuPort) : (s.updPsu p f).power = s.power := rfl
@[simp] theorem State.updPsu_clk (s : State) (p : Fin 16) (f : PsuPort → PsuPort) : (s.updPsu p f).clk = s.clk := rfl
@[simp] theorem State.updPsu_sys (s : State) (p : Fin 16) (f : PsuPort → PsuPort) : (s.updPsu p f).sys = s.sys := rfl
@[simp] theorem State.updPsu_sec (s : State) (p : Fin 16) (f : PsuPort → PsuPort) : (s.updPsu p f).sec = s.sec := rfl
@[simp] theorem State.updPsu_cfg (s : State) (p : Fin 16) (f : PsuPort → PsuPort) : (s.updPsu p f).cfg = s.cfg := rfl
@[simp] theorem State.updPsu_afe (s : State) (p : Fin 16) (f : PsuPort → PsuPort) : (s.updPsu p f).afe = s.afe := rfl
@[simp] theorem State.updPsu_loop (s : State) (p : Fin 16) (f : PsuPort → PsuPort) : (s.updPsu p f).loop = s.loop := rfl
@[simp] theorem State.updPsu_fce (s : State) (p : Fin 16) (f : PsuPort → PsuPort) : (s.updPsu p f).fce = s.fce := rfl
@[simp] theorem State.updPsu_tlk (s : State) (p : Fin 16) (f : PsuPort → PsuPort) : (s.updPsu p f).tlk = s.tlk := rfl
@[simp] theorem State.updPsu_chn (s : State) (p : Fin 16) (f : PsuPort → PsuPort) : (s.updPsu p f).chn = s.chn := rfl
@[simp] theorem State.updPsu_est (s : State) (p : Fin 16) (f : PsuPort → PsuPort) : (s.updPsu p f).est = s.est := rfl
@[simp] theorem State.updPsu_net (s : State) (p : Fin 16) (f : PsuPort → PsuPort) : (s.updPsu p f).net = s.net := rfl
@[simp] theorem State.updPsu_prot (s : State) (p : Fin 16) (f : PsuPort → PsuPort) : (s.updPsu p f).prot = s.prot := rfl
@[simp] theorem State.updPsu_mem (s : State) (p : Fin 16) (f : PsuPort → PsuPort) : (s.updPsu p f).mem = s.mem := rfl
@[simp] theorem State.updPsu_evr (s : State) (p : Fin 16) (f : PsuPort → PsuPort) : (s.updPsu p f).evr = s.evr := rfl
@[simp] theorem State.updPsu_tx (s : State) (p : Fin 16) (f : PsuPort → PsuPort) : (s.updPsu p f).tx = s.tx := rfl
@[simp] theorem State.updPsu_fv (s : State) (p : Fin 16) (f : PsuPort → PsuPort) : (s.updPsu p f).fv = s.fv := rfl
@[simp] theorem State.updPsu_pending (s : State) (p : Fin 16) (f : PsuPort → PsuPort) : (s.updPsu p f).pending = s.pending := rfl

/-! `updDma` touches MEM. -/
@[simp] theorem State.updDma_power (s : State) (n : Fin 32) (f : DmaCh → DmaCh) : (s.updDma n f).power = s.power := rfl
@[simp] theorem State.updDma_clk (s : State) (n : Fin 32) (f : DmaCh → DmaCh) : (s.updDma n f).clk = s.clk := rfl
@[simp] theorem State.updDma_sys (s : State) (n : Fin 32) (f : DmaCh → DmaCh) : (s.updDma n f).sys = s.sys := rfl
@[simp] theorem State.updDma_sec (s : State) (n : Fin 32) (f : DmaCh → DmaCh) : (s.updDma n f).sec = s.sec := rfl
@[simp] theorem State.updDma_cfg (s : State) (n : Fin 32) (f : DmaCh → DmaCh) : (s.updDma n f).cfg = s.cfg := rfl
@[simp] theorem State.updDma_afe (s : State) (n : Fin 32) (f : DmaCh → DmaCh) : (s.updDma n f).afe = s.afe := rfl
@[simp] theorem State.updDma_loop (s : State) (n : Fin 32) (f : DmaCh → DmaCh) : (s.updDma n f).loop = s.loop := rfl
@[simp] theorem State.updDma_pwm (s : State) (n : Fin 32) (f : DmaCh → DmaCh) : (s.updDma n f).pwm = s.pwm := rfl
@[simp] theorem State.updDma_fce (s : State) (n : Fin 32) (f : DmaCh → DmaCh) : (s.updDma n f).fce = s.fce := rfl
@[simp] theorem State.updDma_tlk (s : State) (n : Fin 32) (f : DmaCh → DmaCh) : (s.updDma n f).tlk = s.tlk := rfl
@[simp] theorem State.updDma_chn (s : State) (n : Fin 32) (f : DmaCh → DmaCh) : (s.updDma n f).chn = s.chn := rfl
@[simp] theorem State.updDma_est (s : State) (n : Fin 32) (f : DmaCh → DmaCh) : (s.updDma n f).est = s.est := rfl
@[simp] theorem State.updDma_net (s : State) (n : Fin 32) (f : DmaCh → DmaCh) : (s.updDma n f).net = s.net := rfl
@[simp] theorem State.updDma_prot (s : State) (n : Fin 32) (f : DmaCh → DmaCh) : (s.updDma n f).prot = s.prot := rfl
@[simp] theorem State.updDma_evr (s : State) (n : Fin 32) (f : DmaCh → DmaCh) : (s.updDma n f).evr = s.evr := rfl
@[simp] theorem State.updDma_tx (s : State) (n : Fin 32) (f : DmaCh → DmaCh) : (s.updDma n f).tx = s.tx := rfl
@[simp] theorem State.updDma_fv (s : State) (n : Fin 32) (f : DmaCh → DmaCh) : (s.updDma n f).fv = s.fv := rfl
@[simp] theorem State.updDma_pending (s : State) (n : Fin 32) (f : DmaCh → DmaCh) : (s.updDma n f).pending = s.pending := rfl

/-! `updPort` touches TLK. -/
@[simp] theorem State.updPort_power (s : State) (n : Fin 64) (f : Port → Port) : (s.updPort n f).power = s.power := rfl
@[simp] theorem State.updPort_clk (s : State) (n : Fin 64) (f : Port → Port) : (s.updPort n f).clk = s.clk := rfl
@[simp] theorem State.updPort_sys (s : State) (n : Fin 64) (f : Port → Port) : (s.updPort n f).sys = s.sys := rfl
@[simp] theorem State.updPort_sec (s : State) (n : Fin 64) (f : Port → Port) : (s.updPort n f).sec = s.sec := rfl
@[simp] theorem State.updPort_cfg (s : State) (n : Fin 64) (f : Port → Port) : (s.updPort n f).cfg = s.cfg := rfl
@[simp] theorem State.updPort_afe (s : State) (n : Fin 64) (f : Port → Port) : (s.updPort n f).afe = s.afe := rfl
@[simp] theorem State.updPort_loop (s : State) (n : Fin 64) (f : Port → Port) : (s.updPort n f).loop = s.loop := rfl
@[simp] theorem State.updPort_pwm (s : State) (n : Fin 64) (f : Port → Port) : (s.updPort n f).pwm = s.pwm := rfl
@[simp] theorem State.updPort_fce (s : State) (n : Fin 64) (f : Port → Port) : (s.updPort n f).fce = s.fce := rfl
@[simp] theorem State.updPort_chn (s : State) (n : Fin 64) (f : Port → Port) : (s.updPort n f).chn = s.chn := rfl
@[simp] theorem State.updPort_est (s : State) (n : Fin 64) (f : Port → Port) : (s.updPort n f).est = s.est := rfl
@[simp] theorem State.updPort_net (s : State) (n : Fin 64) (f : Port → Port) : (s.updPort n f).net = s.net := rfl
@[simp] theorem State.updPort_prot (s : State) (n : Fin 64) (f : Port → Port) : (s.updPort n f).prot = s.prot := rfl
@[simp] theorem State.updPort_mem (s : State) (n : Fin 64) (f : Port → Port) : (s.updPort n f).mem = s.mem := rfl
@[simp] theorem State.updPort_evr (s : State) (n : Fin 64) (f : Port → Port) : (s.updPort n f).evr = s.evr := rfl
@[simp] theorem State.updPort_tx (s : State) (n : Fin 64) (f : Port → Port) : (s.updPort n f).tx = s.tx := rfl
@[simp] theorem State.updPort_fv (s : State) (n : Fin 64) (f : Port → Port) : (s.updPort n f).fv = s.fv := rfl
@[simp] theorem State.updPort_pending (s : State) (n : Fin 64) (f : Port → Port) : (s.updPort n f).pending = s.pending := rfl

/-! `setResult` touches CFG. -/
@[simp] theorem State.setResult_power (s : State) (a b c d : Nat) : (s.setResult a b c d).power = s.power := rfl
@[simp] theorem State.setResult_clk (s : State) (a b c d : Nat) : (s.setResult a b c d).clk = s.clk := rfl
@[simp] theorem State.setResult_sys (s : State) (a b c d : Nat) : (s.setResult a b c d).sys = s.sys := rfl
@[simp] theorem State.setResult_sec (s : State) (a b c d : Nat) : (s.setResult a b c d).sec = s.sec := rfl
@[simp] theorem State.setResult_afe (s : State) (a b c d : Nat) : (s.setResult a b c d).afe = s.afe := rfl
@[simp] theorem State.setResult_loop (s : State) (a b c d : Nat) : (s.setResult a b c d).loop = s.loop := rfl
@[simp] theorem State.setResult_pwm (s : State) (a b c d : Nat) : (s.setResult a b c d).pwm = s.pwm := rfl
@[simp] theorem State.setResult_fce (s : State) (a b c d : Nat) : (s.setResult a b c d).fce = s.fce := rfl
@[simp] theorem State.setResult_tlk (s : State) (a b c d : Nat) : (s.setResult a b c d).tlk = s.tlk := rfl
@[simp] theorem State.setResult_chn (s : State) (a b c d : Nat) : (s.setResult a b c d).chn = s.chn := rfl
@[simp] theorem State.setResult_est (s : State) (a b c d : Nat) : (s.setResult a b c d).est = s.est := rfl
@[simp] theorem State.setResult_net (s : State) (a b c d : Nat) : (s.setResult a b c d).net = s.net := rfl
@[simp] theorem State.setResult_prot (s : State) (a b c d : Nat) : (s.setResult a b c d).prot = s.prot := rfl
@[simp] theorem State.setResult_mem (s : State) (a b c d : Nat) : (s.setResult a b c d).mem = s.mem := rfl
@[simp] theorem State.setResult_evr (s : State) (a b c d : Nat) : (s.setResult a b c d).evr = s.evr := rfl
@[simp] theorem State.setResult_tx (s : State) (a b c d : Nat) : (s.setResult a b c d).tx = s.tx := rfl
@[simp] theorem State.setResult_fv (s : State) (a b c d : Nat) : (s.setResult a b c d).fv = s.fv := rfl
@[simp] theorem State.setResult_pending (s : State) (a b c d : Nat) : (s.setResult a b c d).pending = s.pending := rfl

/-! The entry an update changes, and the others. -/
@[simp] theorem State.updPh_ph (s : State) (i j : Fin 64) (f : Phase → Phase) :
    (s.updPh i f).ph j = if i = j then f (s.ph j) else s.ph j := by
  simp [State.updPh, State.ph, Fin.ext_iff]
@[simp] theorem State.updGrp_grp (s : State) (i j : Fin 4) (f : Group → Group) :
    (s.updGrp i f).grp j = if i = j then f (s.grp j) else s.grp j := by
  simp [State.updGrp, State.grp, Fin.ext_iff]
@[simp] theorem State.updPsu_psuPort (s : State) (i j : Fin 16) (f : PsuPort → PsuPort) :
    (s.updPsu i f).psuPort j = if i = j then f (s.psuPort j) else s.psuPort j := by
  simp [State.updPsu, State.psuPort, Fin.ext_iff]
@[simp] theorem State.updPort_port (s : State) (i j : Fin 64) (f : Port → Port) :
    (s.updPort i f).port j = if i = j then f (s.port j) else s.port j := by
  simp [State.updPort, State.port, Fin.ext_iff]
@[simp] theorem State.updSlot_slot (s : State) (i j : Fin 64) (f : Slot → Slot) :
    (s.updSlot i f).slot j = if i = j then f (s.slot j) else s.slot j := by
  simp [State.updSlot, State.slot, Fin.ext_iff]
@[simp] theorem State.updRing_ring (s : State) (i j : Fin 4) (f : Ring → Ring) :
    (s.updRing i f).ring j = if i = j then f (s.ring j) else s.ring j := by
  simp [State.updRing, State.ring, Fin.ext_iff]
@[simp] theorem State.updInst_finst (s : State) (i j : Fin 10) (f : FInst → FInst) :
    (s.updInst i f).finst j = if i = j then f (s.finst j) else s.finst j := by
  simp [State.updInst, State.finst, Fin.ext_iff]
@[simp] theorem State.updSess_sess (s : State) (i j : Fin 64) (f : Sess → Sess) :
    (s.updSess i f).sess j = if i = j then f (s.sess j) else s.sess j := by
  simp [State.updSess, State.sess, Fin.ext_iff]
@[simp] theorem State.updStr_estr (s : State) (i j : Fin 4) (f : Str → Str) :
    (s.updStr i f).estr j = if i = j then f (s.estr j) else s.estr j := by
  simp [State.updStr, State.estr, Fin.ext_iff]

end Sys2Proof.Machine
end

