-- ==== Sys2Proof/Laws/Pwm.lean ====
section
/-! SUPPORT. Shared operations over groups: the stop of one group and of all of them (R34, R44, R186). -/

namespace Sys2Proof.Machine

/-- What every operation of a fold leaves alone, the fold leaves alone. -/
theorem foldl_same {α β : Type} (π : State → β) {f : State → α → State} (h : ∀ s a, π (f s a) = π s) (l : List α)
    (s : State) : π (l.foldl f s) = π s := by
  induction l generalizing s with
  | nil => rfl
  | cons a l ih => exact (ih _).trans (h _ _)

/-- Leaving diode emulation leaves every group's state as it is. -/
@[simp] theorem State.dropDe_state (s : State) (g j : Fin 4) : ((s.dropDe g).grp j).state = (s.grp j).state := by
  unfold State.dropDe
  split
  · rw [State.ev_eq]
    show ((s.updGrp g _).grp j).state = _
    rw [State.updGrp_grp]
    split <;> simp_all
  · rfl

/-- A phase that halts leaves the groups as they are. -/
theorem State.haltPh_grp (s : State) (p : Fin 64) (j : Fin 4) : (s.haltPh p).grp j = s.grp j := rfl

/-- An event leaves the groups as they are. -/
theorem State.ev_grp (s : State) (code inst data : Nat) (j : Fin 4) : (s.ev code inst data).grp j = s.grp j := by
  rw [State.grp, State.ev_pwm]
  rfl

/-- The driver enable of a group leaves the groups as they are. -/
theorem State.setGdrv_grp (s : State) (g j : Fin 4) (v : Bool) : (s.setGdrv g v).grp j = s.grp j := rfl

/-- A group that is switched off is OFF; the other groups stay as they are. -/
@[simp] theorem State.groupOff_state (s : State) (g j : Fin 4) :
    ((s.groupOff g).grp j).state = if g = j then .off else (s.grp j).state := by
  unfold State.groupOff
  lift_lets
  intro gr a b c
  have ha : (a.grp j).state = (s.grp j).state := by
    unfold a
    split
    · rw [State.ev_grp]
    · rfl
  have hb : (b.grp j).state = (s.grp j).state := by
    rw [← ha]
    unfold b
    split
    · rfl
    · rw [State.ev_grp]
  have hc : (c.grp j).state = (s.grp j).state := by
    rw [← hb]
    unfold c
    exact foldl_same (fun t => (t.grp j).state) (f := State.haltPh) (fun t p => by rw [State.haltPh_grp]) _ b
  clear_value a b c
  rw [State.setGdrv_grp, State.updGrp_grp]
  split
  · rfl
  · rw [State.dropDe_state]
    exact hc

/-- Every group is OFF with its driver enable low. -/
theorem State.groupsOff_state (s : State) (j : Fin 4) : ((s.groupsOff).grp j).state = .off := by
  have h : ∀ t : State, (t.gdrvLow.grp j) = t.grp j := fun _ => rfl
  rw [State.groupsOff, h]
  simp only [List.finRange_succ, List.finRange_zero, List.map_cons, List.map_nil, List.foldl_cons, List.foldl_nil,
    State.groupOff_state]
  fin_cases j <;> simp

/-- GDRV_EN_0 to 3 are low. -/
@[simp] theorem State.gdrvLow_gdrvEn (s : State) (j : Nat) (h : j < 4) : s.gdrvLow.sys.gdrvEn[j] = false := by
  simp [State.gdrvLow]

theorem State.groupsOff_gdrvEn (s : State) (j : Nat) (h : j < 4) : s.groupsOff.sys.gdrvEn[j] = false := by
  simp [State.groupsOff]

end Sys2Proof.Machine
end

