-- ==== Sys2Proof/Laws/Rights.lean ====
section
/-! SUPPORT. A control field that a session writes (R498, R499). -/

namespace Sys2Proof.Machine

/-- A write by a session with the right is performed. -/
theorem State.regCmd_allowed {s : State} {sess : Fin 64} {c : AccClass} (h : s.allows sess c = true)
    (f : State → State) : s.regCmd sess c f = f s := by
  simp only [State.allows, Bool.and_eq_true] at h
  simp_all [State.regCmd]

/-- A write by a session without the right is counted, and does nothing else. -/
theorem State.regCmd_denied {s : State} {sess : Fin 64} {c : AccClass} (h1 : s.net.sess[sess.val].isOpen = true)
    (h2 : s.sec.recovery = false) (h3 : s.mayWrite sess c = false) (f : State → State) :
    s.regCmd sess c f = s.violate := by
  simp [State.regCmd, h1, h2, h3]

/-- A command of a session that is not open comes to nothing. -/
theorem State.regCmd_closed {s : State} {sess : Fin 64} {c : AccClass} (h : s.net.sess[sess.val].isOpen = false)
    (f : State → State) : s.regCmd sess c f = s := by
  simp [State.regCmd, h]

end Sys2Proof.Machine
end

