-- ==== Sys2Proof/WellFormed.lean ====
section
/-! DEFINITION. Well-formed commands: operands within the widths and lengths that the spec's frames, messages and
registers give them. A field whose type is as wide as the spec's needs no check; the meanings are total and do not ask
for this. -/

namespace Sys2Proof

/-- A number of `w` bits. -/
def fits (w x : Nat) : Bool := x < 2 ^ w
/-- A two's complement number of `w` bits. -/
def fitsS (w : Nat) (x : Int) : Bool := -(2 ^ (w - 1) : Nat) ≤ x && x < (2 ^ (w - 1) : Nat)

/-- A descriptor in the registers of R488. -/
def DmaDesc.wf (d : DmaDesc) : Bool :=
  fits 64 d.src && fits 64 d.dst && fits 32 d.lineLen && fits 16 d.lines && fits 32 d.srcStride && fits 32 d.dstStride

/-- An IDENT frame (R258). -/
def IdentFrame.wf (f : IdentFrame) : Bool :=
  fits 32 f.vendor && f.serial.length = 12 && fits 16 f.pMax && fits 16 f.floorMin && fits 16 f.slopeMax && fits 8 f.version

/-- A REPORT frame (R257). -/
def ReportFrame.wf (f : ReportFrame) : Bool :=
  fits 2 f.phase && fits 16 f.gseq && fits 64 f.sampleT && fits 32 f.pTotal && fits 32 f.pCompute && fits 32 f.pMemory
  && fits 32 f.pLinks && fits 16 f.envInForce && fits 16 f.floorMin && fits 16 f.temp && fits 16 f.rseq

/-- An announced entry (R258, R379). -/
def AnnounceEntry.wf (a : AnnounceEntry) : Bool :=
  fits 32 a.id && fits 64 a.t && fits 64 a.mask && fits 32 a.dp && fits 32 a.duration && fits 8 a.kind && fits 8 a.role

/-- A calibration result of channels below `n` (R109). -/
def CalResult.wf (n : Nat) (r : CalResult) : Bool := r.ch < n && fitsS 32 r.ofs && fits 32 r.gain

/-- A modulator calibration (R105, R109). -/
def ShuntCal.wf (r : ShuntCal) : Bool :=
  r.shunt < 4 && fitsS 32 r.ofsA && fits 32 r.gainA && fitsS 32 r.ofsB && fits 32 r.gainB
  && r.windows.all (fitsS 24)

/-- A boot calibration (R109). -/
def BootCal.wf (c : BootCal) : Bool :=
  c.channels.all (CalResult.wf 160) && c.spares.all (CalResult.wf 4) && c.shunts.all ShuntCal.wf
  && c.senses.all fun x => fits 16 x.2.1 && fits 16 x.2.2

/-- A conversion of a window of 2 us (R96, R99 to R103): 16, 18 or 24 bits by its channel. -/
def Conv.wf (v : Conv) : Bool :=
  v.ch < 164 && v.aperture < 80000 && fitsS (if v.ch < 64 then 16 else if v.ch < 160 then 18 else 24) v.raw

/-- A code at a sense input within a tick of 2 us (R173): 12 bits at 1 mV. -/
def SenseIn.wf (e : SenseIn) : Bool := e.phase < 64 && e.instant < 80000 && fitsS 16 e.code

/-- The inputs of a tick. -/
def TickInputs.wf (x : TickInputs) : Bool :=
  x.convs.all Conv.wf && x.sense.all SenseIn.wf && fitsS 32 x.aux54 && fitsS 32 x.stby12 && fitsS 32 x.inputP

/-- A reply block of `n` bytes of a node (R299). -/
def ChainBlock.wf (n : Nat) (b : ChainBlock) : Bool := 1 ≤ b.node && b.node ≤ 16 && b.bytes.length = n

/-- A row frame (R389): a header of 16 bytes, a payload of at most 64 and padding to whole doublewords, then the CRC-32C. -/
def RowFrame.wf (f : RowFrame) : Bool := 20 ≤ f.bytes.length && f.bytes.length ≤ 84 && f.bytes.length % 8 = 4

/-- A HELLO (R372, R373). -/
def Datagram.wf (d : Datagram) : Bool := d.peer.length = 16 && d.bytes.length < 65536

/-- A well-formed command. -/
def Instr.wf : Instr → Bool
  | .tick x => x.wf
  | .bootCalDone c => c.wf
  | .calibrating _ r => r.wf 160
  | .shuntModCalibrate _ ofs gain => fitsS 32 ofs && fits 32 gain
  | .senseOpen _ mv periods => fits 16 mv && fits 16 periods
  | .senseRestored _ mv periods => fits 16 mv && fits 16 periods
  | .shortCircuit _ v a => fitsS 16 v && a < 80000
  | .driverFault _ _ a => a < 80000
  | .uvFastpath _ a => a < 80000
  | .uvFastpathEnd _ v => fitsS 32 v
  | .psuTelemetry _ f => f.length = 20
  | .ident _ f => f.wf
  | .report _ f _ => f.wf
  | .trayAnnounce _ a => a.wf
  | .announce _ l => 1 ≤ l.length && l.length ≤ 64 && l.all AnnounceEntry.wf
  | .announceCancel _ l => 1 ≤ l.length && l.length ≤ 64
  | .echo _ _ _ trips l => trips.length = 8 && l.all (ChainBlock.wf 6)
  | .revcheck _ l | .config _ _ l | .ship _ l => l.all (ChainBlock.wf 3)
  | .probe _ _ _ _ l _ _ => l.all (ChainBlock.wf 6)
  | .sweepComplete _ l _ => l.all (ChainBlock.wf 29)
  | .readHeld _ _ _ l => l.all (ChainBlock.wf 29)
  | .readTemp _ l => l.all (ChainBlock.wf 11)
  | .diag _ _ l => l.all (ChainBlock.wf 40)
  | .hello d | .finish d | .secured d => d.wf
  | .regRead _ l => 1 ≤ l.length && l.length ≤ 64
  | .regWrite _ l => 1 ≤ l.length && l.length ≤ 32
  | .regReadBlock _ _ w => 1 ≤ w.toNat && w.toNat ≤ 2048
  | .subscribe _ id kind p l _ =>
    id.toNat ≤ 15 && kind.toNat ≤ 1 && 1 ≤ p.toNat && p.toNat ≤ 60000 && (kind = 1 || (1 ≤ l.length && l.length ≤ 256))
  | .attest _ n => n.length = 32
  | .macsecKey _ ckn cak => ckn.length = 16 && cak.length = 32
  | .ringTime f => f.wf
  | .pdelayReq r => r.all fun q => q.1.wf
  | .pdelayResp f _ => f.wf
  | .ringStatus f => f.wf
  | .share f => f.wf
  | .rowBudgetFrame f => f.wf
  | .failover f => f.wf
  | .wrap f => f.wf
  | .svcSpiStatus other => other.all fun x => x.1 != 0x0B && x.1 != 0x9F && x.1 != 0x05
  | .dmaStart _ d sh _ => d.wf && sh.all DmaDesc.wf
  | .ndpArpRequest arp _ t => t.length = if arp then 4 else 16
  | .powerOn _ | .inputLoss | .inputLossRecordClose | .inputReturn | .mateRelease | .stby12Lost
  | .stby12Restored | .aux54Brownout | .holdupMeasure _ | .refInLost | .refFallback | .refInRestored | .xtalFail
  | .xtalOkRestored | .rootUnlock | .rootRelock | .serviceAttached | .jtagInstruction _ | .svcUartQuery
  | .svcSpiRead _ _ | .svcSpiIdent | .trayPortsUp | .notReadyGrant _ | .fwVerified _ | .netReady
  | .bootConfigLoad | .watchdog | .integReleased _ | .testStart _ _ | .testStarted _ | .testDone _
  | .testStop _ _ | .bankPrimary _ _ | .unfreeze _ _ | .snapshotTaken _ | .snapRelease _ _ | .selfCheck _ _
  | .overlapIn _ _ | .overlapOut _ _ | .settle _ | .channelFailed _ _ | .spareSubstituted _ | .spareFailed _
  | .rotEn _ _ | .failmapClr _ | .shuntModCompare _ _ _ _ _ | .groupRunning _ | .groupStopped _ | .phaseOpen _
  | .senseSuspect _ | .phaseDisabled _ | .disableDroopCheck _ | .reinterleaved _ | .disable _ _ | .readmit _ _
  | .deEntered _ | .deLeft _ | .throttleRequested _ | .syncSlewing _ _ | .syncLocked _ _
  | .syncHoldover _ | .syncReturning _ | .syncFreeRun _ | .pwmBusSet _ _ | .psuCommandFrame | .psuRestored _
  | .restore _ _ | .forecastEvalDone _ _ _ | .frameAssembly _ _ | .frameDeadline _ _ | .longStale | .headUpdate
  | .adaptResumed _ | .forecastEn _ _ | .adaptEn _ _ | .revertAll _ | .adaptDis _ _ _ | .revert _ _ | .linkUp _
  | .linkDown _ | .linkGlitch _ | .surpriseRemoval _ | .reportStale _ | .ack _ _ _ | .grantResend _
  | .grantTimeout _ | .grantRefresh _ | .time | .barrierComplete _ | .roleTagApplied _ _ | .takeoverReq _ _
  | .drainReq _ | .drain _ _ | .drained _ | .throttleCauseClear _ | .throttleAll _ | .releaseAll _
  | .throttle _ _ | .release _ _ | .rackHoldSeen | .rackHoldCleared | .shareStale | .ringBringUp _
  | .resetAddr _ | .enum _ _ _ _ | .enumerated _ | .ringRetry _ | .reenum _ _
  | .sample _ _ _ | .cellsUnmonitored _ _ | .stringIsolated _ | .unmonLimited _ | .ringBroken _ _ _ _ _ _
  | .ringRepaired _ | .diagNow _ _ | .bal _ _ | .slot _ | .blank _ | .contactor _ _
  | .contactorClosed _ | .contactorFault _ | .ctrOpen _ _ | .ctrClose _ _ | .wakeTone _ _ _ _
  | .shipIncomplete _ _ | .estUpdate | .estConflict _ | .estConflictCleared _ | .plannerCycle _ | .eclipseRetry
  | .relaxing _ | .reading _ | .eclipseReading _ | .restComplete _ | .eclipseAborted | .abortRest _
  | .eclipseEn _ _ | .forceRest _ _ | .ethLinkUp | .ethLinkDown | .macsecUp _ | .macsecDown
  | .handshakeTimeout _ | .sessionIdleTimeout _ | .keepalive _ | .close _ | .sessClose _ _ | .unsubscribe _ _
  | .telemetry _ _ _ | .events _ _ | .fetch _ _ _ _ _ | .fetchData _ _ | .pushBegin _ _ | .pushData _ _ _
  | .pushEnd _ | .pushTimeout | .shadowReady | .fwStaged | .shadowEcc | .discard _ | .cfgSwapTick _ _ _
  | .swap _ | .swapped | .stored | .configEccCorrected | .configCrcSweep _ | .rowBudget _ _ _ | .orphanEntered
  | .ptpSync _ _ _ _ _ _ | .ptpLost | .ppsIn _ | .ringJoined | .ringCycle | .rowBudgetResend | .peerSilent _
  | .ringWrapped _ | .ringUnwrapped _ | .busOvTrip _ | .busOvRecovery | .busUvTrip _ | .busUvCleared
  | .busFault _ | .dieWarn _ | .dieWarnCleared _ | .dieTrip _ | .missedTicks _ | .basaltUpdate _
  | .entryHoldRelease | .basaltRootlessStop | .missedTicksCleared | .configReloaded | .dieTripCleared _
  | .basaltAutoExit | .basaltEnter _ | .basaltExit _ | .groupReturn _ _ | .coolantFlowLow | .cduAlarm _
  | .thermalRampStep | .cduClear _ | .coolantRestored | .coolantGroupStop | .coolantCritRecovery | .tripClear _
  | .sysStateReq _ _ | .armedPassage | .warmReset _ | .fullReset _ | .shipReady | .secLcCtrl _ | .fwDiscard _
  | .dmaDone _ | .dmaBusError _ _ | .dmaAbort _ _ | .tierFault _ _ _ _ | .tierMigrationDone _ _ _
  | .eccCorrected _ | .eccUncorrectable _ | .fifoQDataRead _ | .recordsLost | .firstClear _ | .evrUser _ _ _
  | .obsidianFrame | .triggerNow _ | .obsRecordClosed | .obsClear _ | .captureFrozen | .resume _
  | .pwmFrameStart _ _ | .weightCopyDone _ _ _ | .icmpEchoRequest _ _ _ | .unservedDatagram _
  | .trayFrameDropped _ => true

end Sys2Proof
end

