-- ==== Sys2Proof/Tests/Slice0.lean ====
section
/-! SUPPORT. The model's own tests: small states, the numbers of the spec's examples, well-formedness, and for every
statement a state and operands that meet its hypotheses. -/

set_option maxRecDepth 4000
set_option Elab.async false

open Sys2Proof Sys2Proof.Machine

/-- A block in a device state, with session 0 open as INTEGRATOR. -/
def wSess (st : DevState) : State :=
  { State.reset with
    sys := { State.reset.sys with state := st }
    net := { State.reset.net with
      sess := updV State.reset.net.sess 0 fun x => { x with isOpen := true, role := .integrator } } }

/-- A block in STANDBY that may pass to ARMED, with no ring configured. -/
def wArm : State :=
  { State.reset with
    power := { State.reset.power with holdupOk := true }, sys := { State.reset.sys with state := .standby }
    afe := { State.reset.afe with bootCalDone := true } }

/-- A record of a type and length from fields given by offset, width and value. -/
def wRec (ty n : Nat) (l : List (Nat × Nat × Nat)) : Rec :=
  { type := ty, off := 0
    bytes := (List.range n).map fun i =>
      match l.find? fun f => f.1 ≤ i && i < f.1 + f.2.1 with
      | some f => BitVec.ofNat 8 (f.2.2 / 256 ^ (i - f.1))
      | none => 0 }

/-- The records of an active configuration. -/
def wActive (l : List Rec) : List Section := l.map fun r => { type := r.type / 256, index := 0, recs := [r] }

/-- GROUP 0 over phases 0 and 1, its CURRENT slot 0 with a route from each phase, and bus channel 65. -/
def wGroup : List Rec :=
  [wRec 0x0601 48 [(8, 1, 0), (10, 2, 100), (12, 4, 3), (24, 1, 64), (25, 1, 65), (28, 2, 1000), (30, 2, 2000)
    , (40, 4, 1), (44, 4, 1)]
  , wRec 0x0401 24 [(8, 1, 0), (9, 1, 1), (10, 2, 1), (12, 1, 255), (13, 1, 1), (14, 1, 0), (16, 4, 0)]
  , wRec 0x0301 24 [(8, 2, 0), (10, 1, 0), (12, 4, 1), (16, 1, 20)], wRec 0x0301 24 [(8, 2, 1), (10, 1, 0), (12, 4, 1), (16, 1, 20)]
  , wRec 0x0602 16 [(8, 1, 0), (12, 4, 5000)], wRec 0x0602 16 [(8, 1, 1), (12, 4, 5000)]]

/-- A state with a configuration. -/
def wWith (l : List Rec) (s : State) : State :=
  { s with cfg := { s.cfg with activeValid := true, active := wActive l } }

/-- A state whose front end is calibrated, with every chiplet at a step of its rotation, channel 5 of chiplet 0. -/
def wRot (st : RotStep) : State :=
  { State.reset with
    sys := { State.reset.sys with state := .run }
    afe := { State.reset.afe with
      bootCalDone := true, chip := State.reset.afe.chip.map fun x => { x with step := st, chan := 5 } } }

/-- Slot 0 with a test signal of LENGTH 0 that names no buffer. -/
def wTest : List Rec :=
  [wRec 0x0401 24 [(8, 1, 0), (9, 1, 1), (10, 2, 1), (12, 1, 255), (13, 1, 4)]
  , wRec 0x0403 24 [(8, 1, 0), (9, 1, 0), (11, 1, 255)]]

/-- A state with a change of slot 0. -/
def wSlot (s : State) (f : Slot → Slot) : State := { s with loop := { s.loop with slot := updV s.loop.slot 0 f } }

/-- A block in RUN, with group 0 of `wGroup` in a state, its two phases active, and session 0 open. -/
def wGrp (st : GrpState) (f : Group → Group := id) (h : Phase → Phase := id) : State :=
  let s := wWith wGroup (wSess .run)
  { s with
    power := { s.power with mate := true }
    pwm := { s.pwm with
      grp := updV s.pwm.grp 0 fun x => f { x with state := st, framing := true }
      ph := updV (updV s.pwm.ph 0 fun x => h { x with active := true }) 1 fun x => { x with active := true } } }

/-- A block in RUN with PSU port 0 enabled, and session 0 open. -/
def wPsu (f : PsuPort → PsuPort) : State :=
  let s := wWith [wRec 0x0603 16 [(8, 1, 0), (9, 1, 1), (12, 4, 3000)]] (wSess .run)
  { s with pwm := { s.pwm with psu := updV s.pwm.psu 0 f } }

/-- A block in RUN whose engine runs, MODEL_DESC 7 serving role 0's short horizon, with a change of instance 0. -/
def wFce (f : FInst → FInst) : State :=
  let s := wWith [wRec 0x0901 48 [(8, 2, 7), (10, 1, 1), (11, 1, 1), (14, 1, 1), (15, 1, 1), (38, 2, 1)]] (wSess .run)
  { s with fce := { s.fce with running := true, inst := updV s.fce.inst 0 f } }

/-- An evaluation in flight. -/
def wEval (t : Nat) : Eval :=
  { tIn := t, inputs := [], doublings := 0, missed := false, restore := 0, copiesLeft := [], withheld := false, old := none }

/-- A block in a device state with port 0 a primary tray port, linked, after a change; session 0 open. -/
def wPort (st : DevState) (f : Port → Port) : State :=
  let s := wWith [wRec 0x0B01 32 [(8, 1, 0), (9, 1, 1), (10, 2, 20), (12, 2, 200), (14, 2, 50)]] (wSess st)
  { s with tlk := { s.tlk with port := updV s.tlk.port 0 fun x => f { x with linked := true, state := .active } } }

/-- The same with port 0 a secondary tray port. -/
def wSec2 (st : DevState) (f : Port → Port) : State :=
  { wPort st f with cfg := (wWith [wRec 0x0B01 32 [(8, 1, 0), (9, 1, 2), (10, 2, 20), (12, 2, 200)]] State.reset).cfg }

/-- A grant, an announcement and frames of a tray. -/
def wGrant (q e : Nat) : Grant :=
  { state := 1, secondary := false, barrierValid := false, fixedFreq := false, gseq := q, envelope := e, floor := 0, rise := 0
    fall := 0, subCompute := 0, subMemory := 0, subLinks := 0, priority := 0, role := 4, offset := 0, safeEnv := 0
    barrierT := 0, expiry := 0, rackId := 0, shelf := 0 }
def wIdent : Sys2Proof.IdentFrame :=
  { vendor := 1, serial := List.replicate 12 0, pMax := 900, floorMin := 10, slopeMax := 20, version := 1, fixedFreqCap := true
    subCapsCap := true }
def wReport (up from_ : Bool) : Sys2Proof.ReportFrame :=
  { throttled := false, fixedFreq := false, primaryUp := up, secondaryUp := true, rackHoldSeen := false, grantFrom := from_
    phase := 0, gseq := 0, sampleT := 0, pTotal := 100, pCompute := 0, pMemory := 0, pLinks := 0, envInForce := 30
    floorMin := 10, temp := 0, rseq := 0 }
def wEntry1 (t mask : Nat) : Entry :=
  { id := 9, t := t, mask := mask, dp := 100, duration := 5, kind := 0, role := 2, source := 0, roleApplied := false, offs := [] }
def wPlaced : Placement :=
  { port := 0, entryId := 9, source := 0, t := 0, offset := 0, dur := 1, slope := 1, rising := true }

/-- A block with ring 0 of two nodes over string 0, swept at 100 Hz: node 1 holds cells 1 and 2 and the contactors; its
state after a change; session 0 open. -/
def wRing (st : DevState) (r : RingState) (f : Ring → Ring) : State :=
  let s := wWith [wRec 0x0701 32 [(8, 1, 0), (9, 1, 2), (10, 1, 0), (12, 2, 100)]
    , wRec 0x0702 32 [(8, 1, 0), (9, 1, 1), (10, 2, 1), (12, 4, 3), (17, 1, 1)]
    , wRec 0x0702 32 [(8, 1, 0), (9, 1, 2), (10, 2, 3), (12, 4, 1)]] (wSess st)
  { s with
    power := { s.power with powered := true }
    chn := { s.chn with ring := updV s.chn.ring 0 fun x => f { x with
      state := r, ctr := .open_
      node := updV (updV x.node 0 fun y => { y with present := true }) 1 fun y => { y with present := true } } } }

/-- A sweep in progress. -/
def wSweep : Sweep :=
  { seq := 1, ts := 0, split := 1, kind := .ok, offWindow := false, skew := 0, lastNormal := 2, blocks := [], bad := []
    nom := 0, grp := none, edges := (0, 0) }

/-- A block in a device state with string 0 configured, its state after a change; session 0 open. -/
def wStr (st : DevState) (f : Str → Str) : State :=
  let s := wWith [wRec 0x0801 80 [(8, 1, 0), (10, 2, 100), (16, 4, 50000), (48, 4, 90000), (52, 4, 90000)]] (wSess st)
  { s with est := { s.est with str := updV s.est.str 0 f } }

/-- A block whose port is up and READY, session 0 open. -/
def wNet (st : DevState) : State :=
  let s := wSess st
  { s with power := { s.power with powered := true }, sec := { s.sec with fwRunning := true }
           net := { s.net with linkUp := true, ready := true } }

/-- An inner message of a type, REQ_ID 0, with a body (R375). -/
def wInner (ty : Nat) (body : List Byte) : List Byte :=
  leBytes 2 ty ++ leBytes 2 0 ++ leBytes 4 0 ++ leBytes 8 0 ++ leBytes 4 body.length ++ leBytes 4 0 ++ body

/-- The same with one message of session 0, REQ_ID 0, at the front of a queue. -/
def wMsg (q : Fin 16) (ty : Nat) (st : DevState) (body : List Byte := []) : State :=
  let s := wNet st
  { s with net := { s.net with q := updV s.net.q q fun x =>
      { x with msgs := [{ sess := 0, inner := wInner ty body, arrival := 0 }] } } }

/-- The header of that message, the path of a frame, and an HCP datagram of a KIND. -/
def wHdr : Sys2Proof.MsgHdr := { sess := 0, reqId := 0, validUntil := 0 }
def wPath : Sys2Proof.FramePath := { mac := 0, vid := none, plain := true, size := 64, sci := none }
def wData (kind sess q : Nat) (l : List Byte) : Sys2Proof.Datagram :=
  { path := wPath, peer := List.replicate 16 0, port := 5, dst := 0
    bytes := [0x48#8, 0x43#8, 0x01#8] ++ leBytes 1 kind ++ leBytes 4 sess ++ leBytes 8 q ++ l }
def wHs : Handshake :=
  { sess := 1, replied := true, role := .operator, rackManager := false, peer := [], port := 5, dst := 0, at_ := 0 }

/-- A session with a change of session 0. -/
def wOpen (s : State) (f : Sess → Sess) : State := { s with net := { s.net with sess := updV s.net.sess 0 f } }

/-- An empty bit-stream, READY in the shadow of a state, and the same with its swap pending. -/
def wIm : Image :=
  { full := true, store := true, raiseRollback := false, rollback := 0, digest := [7], sections := [], raw := [] }
def wShadow (st : DevState) : State :=
  let s := wSess st
  { s with cfg := { s.cfg with shadowState := .ready, shadow := some wIm, push := none } }
def wSwap (st : DevState) : State :=
  { wShadow st with cfg := { (wShadow st).cfg with swapPending := some 0 } }

/-- A member of the row ring in RUN, rack 0 and shelf 0, and frames of others. -/
def wRow : State :=
  { wNet .run with net := { (wNet .run).net with joined := true, forwarding := true, eastUp := true, westUp := true } }
/-- A frame of shelf `k` of rack 0 that arrives on WEST. -/
def wRf (ty k seq : Nat) (payload : List Byte) : Sys2Proof.RowFrame :=
  { west := true, bytes := rowFrame ty 0 5 0 k seq payload }
def wStatus : Sys2Proof.RowStatus :=
  { state := 4, startReq := false, lead := false, overload := false, ptpLock := true, orphan := false, boundary := true
    clockClass := 6, offer := 0, want := 0, min := 0, plim := 0, gridReq := 0, psuCap := 0 }
def wMember (shelf : Nat) : Member :=
  { rack := 0, shelf := shelf, st := wStatus, at_ := 0, seq := 0, twoAt := none, subject := false, silentSent := false, candAt := none }

/-- After reset, with the main domain powered. -/
def wLit : State := { State.reset with power := { State.reset.power with powered := true } }

/-- A DMA channel changed after reset. -/
def wDma (n : Fin 32) (f : DmaCh → DmaCh) : State :=
  { State.reset with mem := { State.reset.mem with ch := updV State.reset.mem.ch n f } }

/-- Page 7 on its way in, with D29 waiting for it. -/
def wMig : State :=
  let s := wDma 29 fun x => { x with state := .suspended, faultPage := some 7, act := { lines := 1, lineLen := 64 } }
  { s with mem := { s.mem with migrating := [7], backing := [(7 * 2097152, 5)] } }

/-- A running Obsidian writer with 50 ticks of samples, slots 0 and 1 in given states. -/
def wObs (a b : ObsState) : State :=
  let s := wSess .run
  { s with evr := { s.evr with
    writer := true, keyTicks := 50
    slot := updV (updV s.evr.slot 0 fun x => { x with state := a }) 1 fun x => { x with state := b } } }
/-- A telemetry frame of SEQ 0 with a STATUS byte. -/
def wTel (st : Nat) : List Byte :=
  let l := leBytes 1 0 ++ leBytes 1 st ++ List.replicate 16 0
  l ++ leBytes 2 (crc16 l)
/-- A round of input tick 4. -/
def wRound (long : Bool) (due : List Nat) : Round :=
  { long := long, tIn := 4, due := due, trays := [], deadline := 16, maxAge := 8 }

/-- A model with an adaptive head, a result it can learn from, and an engine a tick before its update. -/
def wHeadModel : List Rec :=
  [wRec 0x0901 48 [(8, 2, 7), (10, 1, 1), (11, 1, 1), (14, 1, 1), (15, 1, 1), (38, 2, 1)], wRec 0x0904 40 [(8, 2, 7)]]
def wFRes : FResult := { tIn := 436, x := [0], sub := false, sat := false, usable := true, nan := false, h := [0], y := [0] }
def wHeadState : State :=
  let s := wFce fun x => { x with active := true, results := [wFRes] }
  { s with cfg := { s.cfg with active := wActive wHeadModel }, sys := { s.sys with tick := 499 }
           fce := { s.fce with hist := [(437, [0, 0, 0, 0, 0])] } }

/-- The same engine with a model whose head does not adapt. -/
def wPlainModel : List Rec := [wRec 0x0901 48 [(8, 2, 7), (10, 1, 1), (11, 1, 1), (14, 1, 1)]]
def wPlainState : State := { wFce id with cfg := { (wFce id).cfg with active := wActive wPlainModel } }

/-- A tray port as `wPort`, once the link hardware is up. -/
def wUp (st : DevState) (f : Port → Port) : State :=
  { wPort st f with tlk := { (wPort st f).tlk with portsUp := true } }

/-- Ring 0 of `wRing`, enumerating, with the counts and the delays of `n` nodes found from A. -/
def wCounted (n : Nat) : State :=
  wRing .standby .enumerating fun x => { x with
    nA := n, enumPassed := true, enumA := true, revDone := true
    node := x.node.map fun y => { y with delayA := some 1, delayB := some 1 } }

/-- A good reply block of node 1 of a length. -/
def wBlock (len : Nat) : Sys2Proof.ChainBlock :=
  let l := List.replicate (len - 1) (0 : Byte)
  { node := 1, bytes := l ++ leBytes 1 (crc8 0x2F 0xFF l) }
/-- A good reply of a node with the bytes it answers. -/
def wReply (n : Nat) (l : List Nat) : Sys2Proof.ChainBlock :=
  let m := leBytes 1 (n - 1) ++ l.flatMap (leBytes 1)
  { node := n, bytes := m ++ leBytes 1 (crc8 0x2F 0xFF m) }
/-- Two healthy strings, and a rest that is blocked and may be tried again. -/
def wRests : State :=
  let s := wWith [wRec 0x0801 80 [(8, 1, 0), (10, 2, 100)], wRec 0x0801 80 [(8, 1, 1), (10, 2, 100)]] (wSess .run)
  { s with
    sys := { s.sys with tick := 5000000 }
    est := { s.est with blocked := true, str := s.est.str.map fun x => { x with healthy := true } } }
/-- Inputs of a quiet tick. -/
def wTick : Sys2Proof.TickInputs :=
  { convs := [], sense := [], aux54 := 54000, stby12 := 12000, inputP := 0, svcLow := false, syncEdges := false
    refIn := false, xtal := true, eastLock := false, westLock := false, dieT := 0, evalCycles := 0 }

/-- A table of `n` entries that have not expired. -/
def wFull (n : Nat) : State :=
  { wPort .run id with tlk := { (wPort .run id).tlk with table := List.replicate n (wEntry1 1000 1) } }
theorem wFull_check (n : Nat) : (wFull n).schedCheck (wEntry1 1000 1) = none := by
  have h : (wFull 0).schedCheck (wEntry1 1000 1) = none := by decide +kernel
  have e : (wFull n).schedCheck (wEntry1 1000 1) = (wFull 0).schedCheck (wEntry1 1000 1) := by
    unfold State.schedCheck
    have t : ∀ m, ((wFull m).tlk.table.any fun x => x.source = 0xFF && x.clashes (wEntry1 1000 1) (wEntry1 1000 1).source) = false := by
      intro m
      show ((List.replicate m (wEntry1 1000 1)).any _) = false
      rw [List.any_replicate]; split <;> first | rfl | decide
    rw [t n, t 0]; rfl
  rw [e, h]
theorem wFull_evict (n : Nat) : ((wFull n).schedEvict 0).tlk.table.length = n := by
  have h : (wFull n).tlk.table = List.replicate n (wEntry1 1000 1) := rfl
  have d : (wFull n).sys.timeNs < (wEntry1 1000 1).t + 1000 * (wEntry1 1000 1).duration := by
    show (0 : Nat) < 1000 + 1000 * 5; decide
  simp [State.schedEvict, h, List.filter_replicate, d]
/-- An allocator with room, for a tray that takes 40 W/us. -/
def wAlloc : State :=
  let s := wWith [wRec 0x0B01 32 [(8, 1, 0), (9, 1, 1), (10, 2, 20), (12, 2, 200), (14, 2, 50)]
    , wRec 0x0B03 32 [(8, 2, 50), (10, 2, 50), (12, 2, 40), (14, 2, 40)]
    , wRec 0x0601 48 [(8, 1, 0), (12, 4, 1), (28, 2, 1000)]] (wUp .run fun x => { x with slopeMax := 100 })
  { s with pwm := { s.pwm with plim := 48, grp := updV s.pwm.grp 0 fun x => { x with state := .running, vStr := 48000 } } }

/-- A SECURED datagram of session 0, under the key of no bytes. -/
def wSealed (q : Nat) (m : List Byte) : Sys2Proof.Datagram :=
  { path := wPath, peer := List.replicate 16 0, port := 5, dst := 0, bytes := securedBytes [] 0 q m }
theorem wSealed_framed (q : Nat) (m : List Byte) : hcpFramed (wSealed q m).bytes 0x10 = true := hcpFramed_hdr 0x10 0 q _
theorem wSealed_sess (q : Nat) (m : List Byte) : at32 (wSealed q m).bytes 4 = (0 : Fin 64).val := at32_hdr 0x10 0 q _ (by decide)
theorem wSealed_seq (q : Nat) (m : List Byte) : leVal (bytesAt (wSealed q m).bytes 8 8) = leVal (leBytes 8 q) := seq_hdr 0x10 0 q _
theorem wSealed_open (q : Nat) (m : List Byte) : openSecured ((wNet .run).sess 0).rxKey (wSealed q m).bytes = some m :=
  openSecured_secured [] 0 q m

/-- A header and an empty signature block: MAGIC, KIND, TOTAL_LEN, directory count, FLAGS and the root. -/
def wHead (magic : List Byte) (kind total count flags root : Nat) : List Byte :=
  magic ++ leBytes 2 1 ++ leBytes 2 kind ++ leBytes 4 0x00475A09 ++ leBytes 4 1 ++ leBytes 4 total ++ leBytes 4 0x100
    ++ leBytes 4 0x4298 ++ leBytes 4 0x43C0 ++ leBytes 2 count ++ List.replicate 74 0 ++ leBytes 4 flags
    ++ List.replicate 144 0 ++ leBytes 2 root ++ List.replicate 17086 0

/-- A firmware image. -/
def wFwImage : List Byte := wHead magicFw 3 0x43C0 0 0 1

/-- A directory entry. -/
def wEntry (ty off len n crc : Nat) : List Byte :=
  leBytes 2 ty ++ leBytes 2 0 ++ leBytes 4 off ++ leBytes 4 len ++ leBytes 4 n ++ leBytes 4 crc ++ List.replicate 12 0

/-- A PARAM_VALUE record. -/
def wParam (id v : Nat) : List Byte := leBytes 2 0x0101 ++ leBytes 2 16 ++ leBytes 4 0 ++ leBytes 4 id ++ leBytes 4 v

/-- The PARAM, ESTIMATOR and TRAY_POLICY sections of the image below. -/
def wSec1 : List Byte := wParam 5 1 ++ wParam 6 7 ++ wParam 0x13 70 ++ wParam 0x14 1000
def wSec8 : List Byte :=
  leBytes 2 0x0803 ++ leBytes 2 32 ++ List.replicate 28 0 ++ (leBytes 2 0x0804 ++ leBytes 2 40 ++ List.replicate 36 0)
def wSec11 : List Byte :=
  leBytes 2 0x0B02 ++ leBytes 2 16 ++ leBytes 4 0 ++ [0#8, 1#8, 2#8, 3#8, 4#8, 0#8, 0#8, 0#8]
    ++ (leBytes 2 0x0B03 ++ leBytes 2 32 ++ leBytes 4 0 ++ leBytes 2 100 ++ leBytes 2 100 ++ leBytes 2 50 ++ leBytes 2 50
    ++ List.replicate 16 0)

/-- A FULL bit-stream of the mandatory sections, those without a required record empty. -/
def wImage : List Byte :=
  wHead magicCfg 1 17904 10 0 2
    ++ wEntry 1 17664 64 4 911427001 ++ [2, 3, 4, 5, 6, 7, 13].flatMap (fun t => wEntry t 17664 0 0 0)
    ++ wEntry 8 17728 72 2 1653124700 ++ wEntry 11 17856 48 2 4119910847
    ++ wSec1 ++ wSec8 ++ List.replicate 56 0 ++ wSec11

/-! The spec's worked numbers, and check values from outside the model. -/

/-- CRC-16/CCITT-FALSE of "123456789" (the algorithm's check value). -/
theorem test_crc16_check : crc16 [0x31, 0x32, 0x33, 0x34, 0x35, 0x36, 0x37, 0x38, 0x39] = 0x29B1 := by decide +kernel

/-- CRC-32C of "123456789" (the algorithm's check value). -/
theorem test_crc32c_check : crc32c [0x31, 0x32, 0x33, 0x34, 0x35, 0x36, 0x37, 0x38, 0x39] = 0xE3069283 := by
  decide +kernel

/-- AES-256-GCM of nothing under a zero key and nonce: test case 13 of the GCM specification. -/
theorem test_gcm : gcmSeal (List.replicate 32 0) (List.replicate 12 0) [] [] = beBytes 16 0x530f8afbc74536b9a963b4f1c4cb738b := by
  decide +kernel

/-- R18's example: RUN with DEGRADED, LEAD and ORPHAN reads 0x704. -/
theorem test_sys_state_word :
    (State.stateWord { State.reset with
      sys := { State.reset.sys with state := .run, degraded := true, lead := true, orphan := true } }) = 0x704 := by
  decide +kernel

/-- R98's rounding by hand: ties go to the even neighbour. -/
theorem test_rshe_ties : [rshe 1 1, rshe 3 1, rshe (-1) 1, rshe (-3) 1, rshe 5 2, rshe 7 2] = [0, 2, 0, -2, 1, 2] := by
  decide

/-- 04's shunt example: tick value 10,010,222 of a full scale of 150,000 mA is 699 mA. -/
theorem test_shunt_current : divHE (10010222 * 150000) (2 ^ 31) = 699 := by decide +kernel

/-- 05's transfer example: d = -320 over 16 evaluations gives -320, -300 and at last -20. -/
theorem test_transfer_offset :
    [Slot.offset { rampD := -320, rampLen := 16, rampLeft := 16 }, Slot.offset { rampD := -320, rampLen := 16, rampLeft := 15 }
    , Slot.offset { rampD := -320, rampLen := 16, rampLeft := 1 }, Slot.offset { rampD := -320, rampLen := 16, rampLeft := 0 }]
      = [-320, -300, -20, 0] := by decide +kernel

/-- 07's MATMUL example: 12,345 × 2^-11 is 6.02783203125, FP32 0x40C0E400. -/
theorem test_matmul_block : fScale 12345 (-11) = 0x40C0E400 := by decide +kernel

/-- 08's envelope example: a share of 80,000 × 300 / 320 W is 75,000 W. -/
theorem test_share_floor : floor10 (80000 * 300 / 320) = 75000 := by decide

/-- 10's capacity example: 57,600 mA at 552 V is 31,795 W. -/
theorem test_group_capacity : divHE (57600 * 552000) (10 ^ 6) = 31795 := by decide +kernel

/-- 14's example: burst 21 of line 0 starts 84 KiB into it and crosses from the page at 0 into that at 2,048 KiB. -/
theorem test_tier_pages :
    tierPages 2 ((1961 + 80) * 1024) 4096 = [0] ∧ tierPages 2 ((1961 + 84) * 1024) 4096 = [0, 1] := by decide

/-- 15's example: of an OPERATOR's four writes in RUN, SYS_CLK_CFG and CFG_CTRL are counted; 5 becomes 7. -/
theorem test_reg_write_violations :
    (State.regWrites { wSess .run with sys := { (wSess .run).sys with violCount := 5 } } .operator .run
      [(0x00500800, 820000), (0x00000034, 0x3C03), (0x00200004, 1)]).sys.violCount = 7 := by decide +kernel

/-- 15's example: PWM_BUS_SET takes 820,000 mV. -/
theorem test_reg_write_applied :
    ((State.regWrite (wSess .run) .operator .run 0x00500800 820000).1).pwm.busSet = 820000 := by decide +kernel

/-- 15's example: the unmapped address gives no value. -/
theorem test_reg_read_unmapped : (State.reset.regRead 0 0x00F00000).1 = none := by decide +kernel

/-- R507: SYS_PART reads 0x0047_5A09. -/
theorem test_sys_part : State.reset.regLive 0 = some 0x00475A09 := by decide +kernel

/-- R473: CODE and INSTANCE come first, least significant byte first. -/
theorem test_event_bytes :
    ((Event.bytes { code := 0xB010, inst := 0xFFFF, seq := 1, time := 0, tick := 0, data := 0, suppressed := 0 } 0).take 5)
      = [0x10, 0xB0, 0xFF, 0xFF, 1] := by decide +kernel

/-- R459: a corrected codeword of region 2 counts in region 2. -/
theorem test_ecc_region :
    (match execEccCorrected 2 State.reset with
      | .next t => (t.evr.eccCorr[2], t.evr.eccCorr[1])
      | _ => (0, 0)) = (1, 0) := by decide +kernel

/-- The table gives no row a bit, so no word spells a command. -/
theorem test_decode_none : Sys2Proof.decodeTableWord 32 0 = none := rfl

/-! Well-formedness: one ill-formed term for each check. -/

/-- A well-formed announced entry and descriptor. -/
def wAnn : Sys2Proof.AnnounceEntry := { id := 0, t := 0, mask := 0, dp := 0, duration := 0, kind := 0, role := 0 }
def wDesc : Sys2Proof.DmaDesc :=
  { src := 0, dst := 64, lineLen := 64, lines := 1, srcStride := 0, dstStride := 0, crcWb := false, crit := false }

theorem test_wf_cal_channel :
    Instr.wf (.bootCalDone { channels := [⟨160, 0, 0, 0⟩], spares := [], shunts := [], senses := [] }) = false := by decide +kernel
theorem test_wf_cal_spare :
    Instr.wf (.bootCalDone { channels := [], spares := [⟨4, 0, 0, 0⟩], shunts := [], senses := [] }) = false := by decide +kernel
theorem test_wf_cal_shunt :
    Instr.wf (.bootCalDone { channels := [], spares := [], shunts := [⟨4, 0, 0, 0, 0, true, true, []⟩], senses := [] }) = false := by decide +kernel
theorem test_wf_cal_shunt_ofsA :
    Instr.wf (.bootCalDone { channels := [], spares := [], shunts := [⟨0, 2147483648, 0, 0, 0, true, true, []⟩], senses := [] }) = false := by decide +kernel
theorem test_wf_cal_shunt_gainA :
    Instr.wf (.bootCalDone { channels := [], spares := [], shunts := [⟨0, 0, 4294967296, 0, 0, true, true, []⟩], senses := [] }) = false := by decide +kernel
theorem test_wf_cal_shunt_ofsB :
    Instr.wf (.bootCalDone { channels := [], spares := [], shunts := [⟨0, 0, 0, 2147483648, 0, true, true, []⟩], senses := [] }) = false := by decide +kernel
theorem test_wf_cal_shunt_gainB :
    Instr.wf (.bootCalDone { channels := [], spares := [], shunts := [⟨0, 0, 0, 0, 4294967296, true, true, []⟩], senses := [] }) = false := by decide +kernel
theorem test_wf_calibrating_ch : Instr.wf (.calibrating 0 ⟨160, 0, 0, 0⟩) = false := by decide +kernel
theorem test_wf_calibrating_ofs : Instr.wf (.calibrating 0 ⟨0, 2147483648, 0, 0⟩) = false := by decide +kernel
theorem test_wf_calibrating_gain : Instr.wf (.calibrating 0 ⟨0, 0, 4294967296, 0⟩) = false := by decide +kernel
theorem test_wf_mod_ofs : Instr.wf (.shuntModCalibrate 0 2147483648 0) = false := by decide +kernel
theorem test_wf_mod_gain : Instr.wf (.shuntModCalibrate 0 0 4294967296) = false := by decide +kernel
theorem test_wf_ident_vendor : Instr.wf (.ident 0 { wIdent with vendor := 2 ^ 32 }) = false := by decide +kernel
theorem test_wf_ident_serial : Instr.wf (.ident 0 { wIdent with serial := [] }) = false := by decide +kernel
theorem test_wf_ident_pMax : Instr.wf (.ident 0 { wIdent with pMax := 2 ^ 16 }) = false := by decide +kernel
theorem test_wf_ident_floorMin : Instr.wf (.ident 0 { wIdent with floorMin := 2 ^ 16 }) = false := by decide +kernel
theorem test_wf_ident_slopeMax : Instr.wf (.ident 0 { wIdent with slopeMax := 2 ^ 16 }) = false := by decide +kernel
theorem test_wf_ident_version : Instr.wf (.ident 0 { wIdent with version := 256 }) = false := by decide +kernel
theorem test_wf_report_phase :
    Instr.wf (.report 0 { wReport true true with phase := 4 } 0) = false := by decide +kernel
theorem test_wf_report_gseq :
    Instr.wf (.report 0 { wReport true true with gseq := 2 ^ 16 } 0) = false := by decide +kernel
theorem test_wf_report_sampleT :
    Instr.wf (.report 0 { wReport true true with sampleT := 2 ^ 64 } 0) = false := by decide +kernel
theorem test_wf_report_pTotal :
    Instr.wf (.report 0 { wReport true true with pTotal := 2 ^ 32 } 0) = false := by decide +kernel
theorem test_wf_report_pCompute :
    Instr.wf (.report 0 { wReport true true with pCompute := 2 ^ 32 } 0) = false := by decide +kernel
theorem test_wf_report_pMemory :
    Instr.wf (.report 0 { wReport true true with pMemory := 2 ^ 32 } 0) = false := by decide +kernel
theorem test_wf_report_pLinks :
    Instr.wf (.report 0 { wReport true true with pLinks := 2 ^ 32 } 0) = false := by decide +kernel
theorem test_wf_report_envInForce :
    Instr.wf (.report 0 { wReport true true with envInForce := 2 ^ 16 } 0) = false := by decide +kernel
theorem test_wf_report_floorMin :
    Instr.wf (.report 0 { wReport true true with floorMin := 2 ^ 16 } 0) = false := by decide +kernel
theorem test_wf_report_temp :
    Instr.wf (.report 0 { wReport true true with temp := 2 ^ 16 } 0) = false := by decide +kernel
theorem test_wf_report_rseq :
    Instr.wf (.report 0 { wReport true true with rseq := 2 ^ 16 } 0) = false := by decide +kernel
theorem test_wf_announce_id : Instr.wf (.trayAnnounce 0 { wAnn with id := 2 ^ 32 }) = false := by decide +kernel
theorem test_wf_announce_t : Instr.wf (.trayAnnounce 0 { wAnn with t := 2 ^ 64 }) = false := by decide +kernel
theorem test_wf_announce_mask : Instr.wf (.trayAnnounce 0 { wAnn with mask := 2 ^ 64 }) = false := by decide +kernel
theorem test_wf_announce_dp : Instr.wf (.trayAnnounce 0 { wAnn with dp := 2 ^ 32 }) = false := by decide +kernel
theorem test_wf_announce_duration :
    Instr.wf (.trayAnnounce 0 { wAnn with duration := 2 ^ 32 }) = false := by decide +kernel
theorem test_wf_announce_kind : Instr.wf (.trayAnnounce 0 { wAnn with kind := 256 }) = false := by decide +kernel
theorem test_wf_announce_role : Instr.wf (.trayAnnounce 0 { wAnn with role := 256 }) = false := by decide +kernel
theorem test_wf_announce_empty : Instr.wf (.announce wHdr []) = false := by decide +kernel
theorem test_wf_announce_long : Instr.wf (.announce wHdr (List.replicate 65 wAnn)) = false := by decide +kernel
theorem test_wf_announce_entry : Instr.wf (.announce wHdr [{ wAnn with kind := 256 }]) = false := by decide +kernel
theorem test_wf_cancel_empty : Instr.wf (.announceCancel wHdr []) = false := by decide +kernel
theorem test_wf_cancel_long : Instr.wf (.announceCancel wHdr (List.replicate 65 0)) = false := by decide +kernel
theorem test_wf_diag : Instr.wf (.diag 0 0 [wBlock 39]) = false := by decide +kernel
theorem test_wf_revcheck : Instr.wf (.revcheck 0 [wBlock 2]) = false := by decide +kernel
theorem test_wf_probe : Instr.wf (.probe 0 1 false true [wBlock 5] 0 0) = false := by decide +kernel
theorem test_wf_cal_windows :
    Instr.wf (.bootCalDone { channels := [], spares := [], shunts := [⟨0, 0, 0, 0, 0, true, true, [8388608]⟩], senses := [] }) = false := by
  decide +kernel
theorem test_wf_cal_sense_mv :
    Instr.wf (.bootCalDone { channels := [], spares := [], shunts := [], senses := [(0, 65536, 0)] }) = false := by decide +kernel
theorem test_wf_cal_sense_periods :
    Instr.wf (.bootCalDone { channels := [], spares := [], shunts := [], senses := [(0, 0, 65536)] }) = false := by decide +kernel
theorem test_wf_uv_end : Instr.wf (.uvFastpathEnd 0 2147483648) = false := by decide +kernel
theorem test_wf_spi_other : Instr.wf (.svcSpiStatus (some (0x05, 1))) = false := by decide +kernel
theorem test_wf_secured : Instr.wf (.secured { wData 0x10 0 1 [] with peer := [] }) = false := by decide +kernel
theorem test_wf_finish_long : Instr.wf (.finish (wData 3 0 0 (List.replicate 65536 0))) = false := by
  have h : ∀ l : List Byte, l.length = 65536 → Instr.wf (.finish (wData 3 0 0 l)) = false := by
    intro l hl
    simp [Instr.wf, Datagram.wf, wData, leBytes_length, hl]
  exact h _ List.length_replicate
theorem test_wf_reg_read : Instr.wf (.regRead wHdr []) = false := by decide +kernel
theorem test_wf_reg_read_long : Instr.wf (.regRead wHdr (List.replicate 65 0)) = false := by decide +kernel
theorem test_wf_reg_write : Instr.wf (.regWrite wHdr []) = false := by decide +kernel
theorem test_wf_reg_write_long : Instr.wf (.regWrite wHdr (List.replicate 33 (0, 0))) = false := by decide +kernel
theorem test_wf_block : Instr.wf (.regReadBlock wHdr 0 0) = false := by decide +kernel
theorem test_wf_block_long : Instr.wf (.regReadBlock wHdr 0 2049) = false := by decide +kernel
theorem test_wf_sub_id : Instr.wf (.subscribe wHdr 16 0 1 [0] 0) = false := by decide +kernel
theorem test_wf_sub_kind : Instr.wf (.subscribe wHdr 0 2 1 [0] 0) = false := by decide +kernel
theorem test_wf_sub_period : Instr.wf (.subscribe wHdr 0 0 0 [0] 0) = false := by decide +kernel
theorem test_wf_sub_period_long : Instr.wf (.subscribe wHdr 0 0 60001 [0] 0) = false := by decide +kernel
theorem test_wf_sub_empty : Instr.wf (.subscribe wHdr 0 0 1 [] 0) = false := by decide +kernel
theorem test_wf_sub_long : Instr.wf (.subscribe wHdr 0 0 1 (List.replicate 257 0) 0) = false := by decide +kernel
theorem test_wf_attest : Instr.wf (.attest wHdr []) = false := by decide +kernel
theorem test_wf_ckn : Instr.wf (.macsecKey wHdr [] (List.replicate 32 0)) = false := by decide +kernel
theorem test_wf_cak : Instr.wf (.macsecKey wHdr (List.replicate 16 0) []) = false := by decide +kernel
theorem test_wf_dma_src : Instr.wf (.dmaStart 0 { wDesc with src := 2 ^ 64 } none []) = false := by decide +kernel
theorem test_wf_dma_dst : Instr.wf (.dmaStart 0 { wDesc with dst := 2 ^ 64 } none []) = false := by decide +kernel
theorem test_wf_dma_lineLen :
    Instr.wf (.dmaStart 0 { wDesc with lineLen := 2 ^ 32 } none []) = false := by decide +kernel
theorem test_wf_dma_lines : Instr.wf (.dmaStart 0 { wDesc with lines := 2 ^ 16 } none []) = false := by decide +kernel
theorem test_wf_dma_srcStride :
    Instr.wf (.dmaStart 0 { wDesc with srcStride := 2 ^ 32 } none []) = false := by decide +kernel
theorem test_wf_dma_dstStride :
    Instr.wf (.dmaStart 0 { wDesc with dstStride := 2 ^ 32 } none []) = false := by decide +kernel
theorem test_wf_dma_shadow :
    Instr.wf (.dmaStart 0 wDesc (some { wDesc with src := 2 ^ 64 }) []) = false := by decide +kernel
theorem test_wf_arp : Instr.wf (.ndpArpRequest true wPath []) = false := by decide +kernel
theorem test_wf_ndp : Instr.wf (.ndpArpRequest false wPath []) = false := by decide +kernel
theorem test_wf_good :
    [wIdent.wf, (wReport true true).wf, wAnn.wf, wDesc.wf, (wRf 0x10 0 7 (statusBytes wStatus)).wf, wTick.wf, (wBlock 29).wf 29]
      = [true, true, true, true, true, true, true] := by decide +kernel
theorem test_wf_tick_conv : Instr.wf (.tick { wTick with convs := [⟨164, 0, 0, false⟩] }) = false := by decide +kernel
theorem test_wf_tick_aperture : Instr.wf (.tick { wTick with convs := [⟨0, 80000, 0, false⟩] }) = false := by decide +kernel
theorem test_wf_tick_raw : Instr.wf (.tick { wTick with convs := [⟨0, 0, 32768, false⟩] }) = false := by decide +kernel
theorem test_wf_tick_phase :
    Instr.wf (.tick { wTick with sense := [{ phase := 64, instant := 0, code := 0 }] }) = false := by decide +kernel
theorem test_wf_tick_instant :
    Instr.wf (.tick { wTick with sense := [{ phase := 0, instant := 80000, code := 0 }] }) = false := by decide +kernel
theorem test_wf_tick_code :
    Instr.wf (.tick { wTick with sense := [{ phase := 0, instant := 0, code := 32768 }] }) = false := by decide +kernel
theorem test_wf_tick_aux : Instr.wf (.tick { wTick with aux54 := 2147483648 }) = false := by decide +kernel
theorem test_wf_tick_stby : Instr.wf (.tick { wTick with stby12 := 2147483648 }) = false := by decide +kernel
theorem test_wf_tick_input : Instr.wf (.tick { wTick with inputP := 2147483648 }) = false := by decide +kernel
theorem test_wf_open_mv : Instr.wf (.senseOpen 0 65536 0) = false := by decide +kernel
theorem test_wf_open_periods : Instr.wf (.senseOpen 0 0 65536) = false := by decide +kernel
theorem test_wf_restored_mv : Instr.wf (.senseRestored 0 65536 0) = false := by decide +kernel
theorem test_wf_restored_periods : Instr.wf (.senseRestored 0 0 65536) = false := by decide +kernel
theorem test_wf_short_mv : Instr.wf (.shortCircuit 0 2147483648 0) = false := by decide +kernel
theorem test_wf_short_instant : Instr.wf (.shortCircuit 0 0 80000) = false := by decide +kernel
theorem test_wf_fault_instant : Instr.wf (.driverFault 0 true 80000) = false := by decide +kernel
theorem test_wf_uv_instant : Instr.wf (.uvFastpath 0 80000) = false := by decide +kernel
theorem test_wf_telemetry : Instr.wf (.psuTelemetry 0 []) = false := by decide +kernel
theorem test_wf_echo_reply : Instr.wf (.echo 0 1 false (List.replicate 8 0) [wBlock 5]) = false := by decide +kernel
theorem test_wf_echo : Instr.wf (.echo 0 1 false [] []) = false := by decide +kernel
theorem test_wf_sweep_node : Instr.wf (.sweepComplete 0 [{ wBlock 29 with node := 0 }] 0) = false := by decide +kernel
theorem test_wf_sweep_node_high : Instr.wf (.sweepComplete 0 [{ wBlock 29 with node := 17 }] 0) = false := by
  decide +kernel
theorem test_wf_sweep_length : Instr.wf (.sweepComplete 0 [wBlock 28] 0) = false := by decide +kernel
theorem test_wf_held_length : Instr.wf (.readHeld 0 false 0 [wBlock 28]) = false := by decide +kernel
theorem test_wf_temp_length : Instr.wf (.readTemp 0 [wBlock 29]) = false := by decide +kernel
theorem test_wf_hello_peer : Instr.wf (.hello { wData 1 0 0 [] with peer := [] }) = false := by decide +kernel
theorem test_wf_row_short : Instr.wf (.ringStatus { west := true, bytes := [] }) = false := by decide +kernel
theorem test_wf_row_long : Instr.wf (.share { west := true, bytes := List.replicate 92 0 }) = false := by decide +kernel
theorem test_wf_row_padding : Instr.wf (.wrap { west := true, bytes := List.replicate 22 0 }) = false := by decide +kernel

/-! What meets the hypotheses of each statement, clause by clause. -/

theorem witness_StandbySupplies_1 : ∃ (s : State), s.power.powered = true ∧ s.power.stbySrc = false :=
  ⟨(State.reset), by decide +kernel⟩

theorem witness_StandbySupplies_2 : ∃ (s : State), s.power.powered = true ∧ s.power.stbySrc = true :=
  ⟨({ State.reset with power := { stbySrc := true } }), by decide +kernel⟩

theorem witness_StandbySupplies_3 : ∃ (s : State), s.power.powered = true ∧ s.power.inputLoss = false :=
  ⟨(State.reset), by decide +kernel⟩

theorem witness_StandbySupplies_4 : ∃ (mJ : BitVec 32) (s : State), s.power.powered = true ∧ s.power.inputLoss = false :=
  ⟨(9999), (State.reset), by decide +kernel⟩

theorem witness_StandbySupplies_5 : ∃ (s : State), s.power.inputLoss = true :=
  ⟨({ State.reset with power := { inputLoss := true } }), by decide +kernel⟩

theorem witness_ReferenceAndRootClock_1 : ∃ (s : State), s.clk.refSrc = true ∧ s.clk.refHoldover = false :=
  ⟨({ State.reset with clk := { refSel := true, refSrc := true } }), by decide +kernel⟩

theorem witness_ReferenceAndRootClock_2 : ∃ (s : State), s.clk.refHoldover = true ∧ s.clk.refFallback = true ∧ s.clk.fallbackBlocked = false ∧ s.elapsed s.clk.holdAt (500000 * max 1 s.clk.holdoverS) = true :=
  ⟨({ State.reset with clk := { refHoldover := true }, sys := { tick := 30000000 } }), by decide +kernel⟩

theorem witness_ReferenceAndRootClock_3 : ∃ (s : State), s.clk.refInPresent = true ∧ (s.clk.refHoldover = true ∨ (s.clk.refSel = true ∧ s.clk.refSrc = false)) ∧ s.elapsed s.clk.refSince 500000 = true :=
  ⟨({ State.reset with clk := { refSel := true, refHoldover := true, refInPresent := true }, sys := { tick := 500000 } }), by decide +kernel⟩

theorem witness_ReferenceAndRootClock_4 : ∃ (s : State), s.clk.xtalOk = true :=
  ⟨({ State.reset with clk := { refSel := true, xtalOk := true } }), by decide +kernel⟩

theorem witness_ReferenceAndRootClock_5 : ∃ (s : State), s.clk.xtalOk = true ∧ s.elapsed s.clk.xtalSince 500000 = true ∧ ((s.clk.refHoldover = true ∧ s.clk.fallbackBlocked = true) ∨ (s.clk.refSel = false ∧ s.clk.refSrc = true)) :=
  ⟨({ State.reset with clk := { refSel := true, refHoldover := true, fallbackBlocked := true, xtalOk := true }, sys := { tick := 500000 } }), by decide +kernel⟩

theorem witness_ReferenceAndRootClock_6 : ∃ (s : State), s.clk.fabricStopped = false :=
  ⟨(State.reset), by decide +kernel⟩

theorem witness_ReferenceAndRootClock_7 : ∃ (s : State), s.clk.fabricStopped = true :=
  ⟨({ State.reset with clk := { fabricStopped := true } }), by decide +kernel⟩

theorem witness_InputLossAndPowerUp_1 : ∃ (s : State), s.power.powered = true ∧ s.power.inputLoss = false :=
  ⟨({ State.reset with sys := { gdrvEn := Vector.replicate 4 true } }), by decide +kernel⟩

theorem witness_InputLossAndPowerUp_2 : ∃ (s : State), s.power.inputLoss = true ∧ s.elapsed s.power.lossTick 25000 = true ∧ s.power.auxReturned = false :=
  ⟨({ State.reset with power := { inputLoss := true }, sys := { tick := 25000 } }), by decide +kernel⟩

theorem witness_InputLossAndPowerUp_3 : ∃ (s : State), s.power.inputLoss = true ∧ s.elapsed s.power.lossTick 25000 = true ∧ s.power.auxReturned = true ∧ s.power.aux54Ok = true ∧ s.power.mate = true :=
  ⟨({ State.reset with power := { inputLoss := true, auxReturned := true, aux54Ok := true, mate := true }, sys := { tick := 25000 } }), by decide +kernel⟩

theorem witness_InputLossAndPowerUp_4 : ∃ (stby12 : Bool) (s : State), s.power.powered = false ∧ s.power.inputLoss = false ∧ s.power.auxReturned = false :=
  ⟨(true), ({ State.reset with power := { powered := false } }), by decide +kernel⟩

theorem witness_InputLossAndPowerUp_5 : ∃ (s : State), s.sec.resetReq = none ∧ s.prot.coolShutdown = false ∧ s.sys.state ≠ .shipPrep :=
  ⟨(State.reset), by decide +kernel⟩

theorem witness_ServiceConnectorAndPort_1 : ∃ (s : State), s.gdrvHeld = false :=
  ⟨({ State.reset with power := { mate := true } }), by decide +kernel⟩

theorem witness_ServiceConnectorAndPort_2 : ∃ (s : State), s.gdrvHeld = false :=
  ⟨({ State.reset with power := { mate := true } }), by decide +kernel⟩

theorem witness_ServiceConnectorAndPort_3 : ∃ (i : Sys2Proof.TapInstr) (s : State), (i = .extest ∨ i = .clamp) ∧ s.power.powered = true ∧ (s.sys.state = .boot ∨ s.sys.state = .standby) ∧ s.sec.resetReq = none ∧ s.prot.coolShutdown = false :=
  ⟨(.clamp), ({ State.reset with sys := { state := .standby } }), by decide +kernel⟩

theorem witness_ServiceConnectorAndPort_4 : ∃ (i : Sys2Proof.TapInstr) (s : State), (i = .extest ∨ i = .clamp) ∧ s.gdrvHeld = false ∧ (s.power.powered = false ∨ s.sys.state = .armed ∨ s.sys.state = .run ∨ s.sys.state = .basalt ∨ s.sys.state = .shipPrep) :=
  ⟨(.extest), ({ State.reset with power := { mate := true }, sys := { state := .run } }), by decide +kernel⟩

theorem witness_ServiceConnectorAndPort_5 : ∃ (s : State), s.gdrvHeld = false ∧ (s.sec.lifecycle = 2 ∨ s.sec.lifecycle = 4) :=
  ⟨({ State.reset with power := { mate := true } }), by decide +kernel⟩

theorem witness_ServiceConnectorAndPort_6 : ∃ (s : State), s.power.powered = true :=
  ⟨(State.reset), by decide +kernel⟩

theorem witness_BootSteps_1 : ∃ (s : State), s.lit = true :=
  ⟨(State.reset), by decide +kernel⟩

theorem witness_BootSteps_2 : ∃ (n : Fin 64) (s : State), s.tlk.portsUp = true ∧ s.cfg.activeValid = false ∧ (s.port n).state = .notReady ∧ (s.port n).linked = true ∧ s.elapsed (s.port n).sentTick 50 = true :=
  ⟨(3), ({ State.reset with sys := { tick := 60 }, tlk := { State.reset.tlk with portsUp := true, port := updV State.reset.tlk.port 3 fun p => { p with linked := true, state := .notReady } } }), by decide +kernel⟩

theorem witness_BootSteps_3 : ∃ (keys : Bool) (s : State), s.lit = true ∧ s.sys.state = .boot ∧ s.sec.fwRunning = false ∧ s.sec.recovery = false :=
  ⟨(true), (State.reset), by decide +kernel⟩

theorem witness_BootSteps_4 : ∃ (keys : Bool) (s : State), s.lit = true ∧ s.sys.state = .boot ∧ s.sec.fwRunning = false ∧ s.sec.recovery = false ∧ s.sec.fwSlotAImg = none ∧ s.sec.fwSlotBImg = none :=
  ⟨(true), (State.reset), by decide +kernel⟩

theorem witness_BootSteps_5 : ∃ (s : State), s.power.powered = true ∧ s.power.inputLoss = false ∧ s.sec.fwRunning = true :=
  ⟨({ State.reset with sec := { fwRunning := true } }), by decide +kernel⟩

theorem witness_PassagesByTarget_1 : ∃ (sess : Fin 64) (v : BitVec 4) (s : State), s.allows sess .oa = true ∧ s.sys.state = .standby ∧ s.sec.watchdogDue = false ∧ (v = 2 ∨ v = 3 ∨ v = 4) :=
  ⟨(0), (3), (wSess .standby), by decide +kernel⟩

theorem witness_PassagesByTarget_2 : ∃ (sess : Fin 64) (v : BitVec 4) (s : State), s.allows sess .oa = true ∧ v ≠ 2 ∧ v ≠ 3 ∧ v ≠ 4 ∧ v ≠ 6 :=
  ⟨(0), (5), (wSess .run), by decide +kernel⟩

theorem witness_PassagesByTarget_3 : ∃ (sess : Fin 64) (s : State), s.allows sess .oa = true ∧ s.sys.state = .run ∧ s.sec.watchdogDue = false :=
  ⟨(0), (wSess .run), by decide +kernel⟩

theorem witness_PassagesByTarget_4 : ∃ (sess : Fin 64) (s : State), s.allows sess .oa = true ∧ s.sys.state = .armed ∧ s.sys.passage = .none ∧ s.sec.watchdogDue = false :=
  ⟨(0), (wSess .armed), by decide +kernel⟩

theorem witness_PassagesByTarget_5 : ∃ (sess : Fin 64) (s : State), s.allows sess .oa = true ∧ s.sys.state = .armed ∧ s.sys.passage = .none ∧ s.sec.watchdogDue = false :=
  ⟨(0), (wSess .armed), by decide +kernel⟩

theorem witness_PassagesByTarget_6 : ∃ (sess : Fin 64) (s : State), s.allows sess .oa = true ∧ s.sys.state = .standby ∧ s.sec.watchdogDue = false :=
  ⟨(0), (wSess .standby), by decide +kernel⟩

theorem witness_PassagesByTarget_7 : ∃ (sess : Fin 64) (s : State), s.allows sess .oa = true ∧ s.sys.state = .run ∧ s.sec.watchdogDue = false :=
  ⟨(0), (wSess .run), by decide +kernel⟩

theorem witness_PassagesByTarget_8 : ∃ (s : State), s.lit = true ∧ s.mayArm = true :=
  ⟨(wArm), by decide +kernel⟩

theorem witness_PassagesByTarget_9 : ∃ (s : State), s.lit = true ∧ s.sys.state = .shipPrep ∧ s.sec.shipReady = false ∧ ((∀ g : Fin 4, (s.grp g).state = .off)) ∧ ((∀ c ∈ s.rings, s.ringShipped c = true)) :=
  ⟨({ State.reset with sys := { state := .shipPrep } }), by decide +kernel⟩

theorem witness_ResetsKeepWhatTheirKindKeeps_1 : ∃ (sess : Fin 64) (s : State), s.allows sess .ia = true ∧ s.sys.state = .standby ∧ s.sec.resetReq = none ∧ s.allOff = true :=
  ⟨(0), (wSess .standby), by decide +kernel⟩

theorem witness_ResetsKeepWhatTheirKindKeeps_2 : ∃ (sess : Fin 64) (s : State), s.allows sess .ia = true ∧ s.sys.state = .standby ∧ s.sec.resetReq = none ∧ s.allOff = true ∧ s.power.mate = true :=
  ⟨(0), ({ wSess .standby with power := { mate := true } }), by decide +kernel⟩

theorem witness_ResetsKeepWhatTheirKindKeeps_3 : ∃ (sess : Fin 64) (s : State), s.allows sess .ia = true ∧ s.sys.state = .run ∧ s.sec.resetReq = none ∧ s.allOff = false :=
  ⟨(0), ({ wSess .run with pwm := { grp := updV State.reset.pwm.grp 0 fun x => { x with state := .running } } }), by decide +kernel⟩

theorem witness_ResetsKeepWhatTheirKindKeeps_4 : ∃ (s : State), s.power.powered = true ∧ s.power.inputLoss = false ∧ s.sys.state = .armed :=
  ⟨({ State.reset with sys := { state := .armed } }), by decide +kernel⟩

theorem witness_ResetsKeepWhatTheirKindKeeps_5 : ∃ (s : State), s.power.powered = true ∧ s.power.inputLoss = false ∧ s.sys.state = .basalt :=
  ⟨({ State.reset with sys := { state := .basalt } }), by decide +kernel⟩

theorem witness_ResetsKeepWhatTheirKindKeeps_6 : ∃ (sess : Fin 64) (s : State), s.allows sess .is_ = true ∧ s.sec.lifecycle = 2 :=
  ⟨(0), (wSess .standby), by decide +kernel⟩

theorem witness_RotationOfTheSpareConverters_1 : ∃ (a : Fin 4) (s : State), s.rotationRuns a.val = true ∧ (s.chip a.val).step = .settle ∧ (s.chip a.val).rotEn = true ∧ s.slotFor a.val 20000 = true :=
  ⟨(0), ({ wRot .settle with sys := { state := .run, tick := 20000 } }), by decide +kernel⟩

theorem witness_RotationOfTheSpareConverters_2 : ∃ (a : Fin 4) (s : State), s.rotationRuns a.val = true ∧ (s.chip a.val).step = .selfCheck :=
  ⟨(3), (wRot .selfCheck), by decide +kernel⟩

theorem witness_RotationOfTheSpareConverters_3 : ∃ (a : Fin 4) (ok : Bool) (s : State), s.rotationRuns a.val = true ∧ (s.chip a.val).step = .settle ∧ (s.chip a.val).rotEn = false ∧ s.slotFor a.val 20000 = true :=
  ⟨(1), (true), ({ wRot .settle with sys := { state := .run, tick := 20000 }, afe := { (wRot .settle).afe with chip := (wRot .settle).afe.chip.map fun x => { x with rotEn := false } } }), by decide +kernel⟩

theorem witness_RotationOfTheSpareConverters_4 : ∃ (a : Fin 4) (s : State), s.rotationRuns a.val = true ∧ (s.chip a.val).step = .selfCheck ∧ (s.chip a.val).selfFails = 1 ∧ (s.chip a.val).spareFailed = false ∧ (s.chip a.val).subst = none :=
  ⟨(0), ({ wRot .selfCheck with afe := { (wRot .selfCheck).afe with chip := (wRot .selfCheck).afe.chip.map fun x => { x with selfFails := 1 } } }), by decide +kernel⟩

theorem witness_RotationOfTheSpareConverters_5 : ∃ (a : Fin 4) (m : Sys2Proof.OverlapMeans) (s : State), s.rotationRuns a.val = true ∧ (s.chip a.val).step = .selfCheck ∧ s.slotFor a.val 2000 = true ∧ s.mismatches m.own m.spare = false :=
  ⟨(0), (⟨0, 0, true, 0, 0⟩), ({ wRot .selfCheck with sys := { state := .run, tick := 2000 } }), by decide +kernel⟩

theorem witness_RotationOfTheSpareConverters_6 : ∃ (a : Fin 4) (r : Sys2Proof.CalResult) (s : State), s.rotationRuns a.val = true ∧ (s.chip a.val).step = .overlapIn ∧ s.slotFor a.val 3000 = true ∧ s.calCheck r = none :=
  ⟨(0), (⟨5, 0, 1073741824, 0⟩), ({ wRot .overlapIn with sys := { state := .run, tick := 3000 } }), by decide +kernel⟩

theorem witness_RotationOfTheSpareConverters_7 : ∃ (a : Fin 4) (r : Sys2Proof.CalResult) (c : Nat) (cause : Nat) (s : State), s.rotationRuns a.val = true ∧ (s.chip a.val).step = .overlapIn ∧ s.slotFor a.val 3000 = true ∧ s.calCheck r = some cause ∧ (s.chip a.val).chan = c ∧ c < 160 ∧ chipOf c = a.val ∧ (s.chan c).adcFailed = false ∧ (s.chip a.val).subst = none ∧ (s.chip a.val).substPending = none ∧ (s.chip a.val).spareFailed = false :=
  ⟨(0), (⟨5, 9000000000, 1073741824, 0⟩), (5), (2), ({ wRot .overlapIn with sys := { state := .run, tick := 3000 } }), by decide +kernel⟩

theorem witness_RotationOfTheSpareConverters_8 : ∃ (a : Fin 4) (m : Sys2Proof.OverlapMeans) (s : State), s.rotationRuns a.val = true ∧ (s.chip a.val).step = .calibrating ∧ s.slotFor a.val 17000 = true ∧ s.mismatches m.own m.spare = false :=
  ⟨(0), (⟨0, 0, true, 0, 0⟩), ({ wRot .calibrating with sys := { state := .run, tick := 17000 } }), by decide +kernel⟩

theorem witness_RotationOfTheSpareConverters_9 : ∃ (a : Fin 4) (ofs : Int) (gain : Nat) (s : State), s.rotationRuns a.val = true ∧ (s.chip a.val).step = .overlapOut ∧ s.slotFor a.val 18000 = true ∧ (s.chip a.val).chan < 164 ∧ (s.chan (s.chip a.val).chan).newCoef = some (ofs, gain) :=
  ⟨(0), (3), (1073741824), ({ wRot .overlapOut with sys := { state := .run, tick := 18000 }, afe := { (wRot .overlapOut).afe with ch := updN (wRot .overlapOut).afe.ch 5 fun x => { x with newCoef := some (3, 1073741824) } } }), by decide +kernel⟩

theorem witness_RotationOfTheSpareConverters_10 : ∃ (sess : Fin 64) (v : BitVec 4) (s : State), s.allows sess .ox = true :=
  ⟨(0), (5), (wSess .run), by decide +kernel⟩

theorem witness_FailedConvertersAndShunts_1 : ∃ (cal : Sys2Proof.BootCal) (s : State), s.afe.bootCalDone = false ∧ s.cfg.activeValid = true ∧ s.sys.state ≠ .shipPrep :=
  ⟨(⟨[], [], [], []⟩), (wWith [] State.reset), by decide +kernel⟩

theorem witness_FailedConvertersAndShunts_2 : ∃ (c : Fin 160) (cause : Fin 5) (s : State), (s.chan c.val).adcFailed = false ∧ (s.chip (chipOf c.val)).subst = none ∧ (s.chip (chipOf c.val)).spareFailed = false ∧ (s.chip (chipOf c.val)).substPending = none ∧ (s.chip (chipOf c.val)).step = .paused :=
  ⟨(5), (2), (wRot .paused), by decide +kernel⟩

theorem witness_FailedConvertersAndShunts_3 : ∃ (c : Fin 160) (cause : Fin 5) (s : State), (s.chan c.val).adcFailed = false ∧ (s.chip (chipOf c.val)).subst.isSome = true ∧ (s.chip (chipOf c.val)).substPending = none ∧ 64 ≤ c.val :=
  ⟨(70), (0), ({ wRot .stopped with afe := { (wRot .stopped).afe with chip := (wRot .stopped).afe.chip.map fun x => { x with subst := some 64 } } }), by decide +kernel⟩

theorem witness_FailedConvertersAndShunts_4 : ∃ (a : Fin 4) (c : Nat) (s : State), (s.chip a.val).substPending = some c :=
  ⟨(0), (5), ({ wRot .stopped with afe := { (wRot .stopped).afe with chip := (wRot .stopped).afe.chip.map fun x => { x with substPending := some 5 } } }), by decide +kernel⟩

theorem witness_FailedConvertersAndShunts_5 : ∃ (a : Fin 4) (s : State), (s.chip a.val).spareFailed = false ∧ (s.chip a.val).subst = none :=
  ⟨(2), (State.reset), by decide +kernel⟩

theorem witness_FailedConvertersAndShunts_6 : ∃ (sess : Fin 64) (s : State), s.allows sess .is_ = true :=
  ⟨(0), (wSess .standby), by decide +kernel⟩

theorem witness_FailedConvertersAndShunts_7 : ∃ (i : Fin 4) (ofs : Int) (gain : Nat) (s : State), s.afe.bootCalDone = true ∧ (s.shunt i).dead = false ∧ (s.shunt i).aFailed = false ∧ (s.shunt i).bFailed = false ∧ s.elapsed (s.shunt i).calTick 5000000 = true :=
  ⟨(0), (5), (7), ({ wRot .paused with sys := { tick := 5000000 } }), by decide +kernel⟩

theorem witness_FailedConvertersAndShunts_8 : ∃ (i : Fin 4) (qa : Int) (qi : Int) (okA : Bool) (okB : Bool) (s : State), (s.shunt i).comparing = true ∧ (s.shunt i).dead = false ∧ s.elapsed (s.shunt i).calTick 500000 = true ∧ 1000 * (qa - qi).natAbs ≤ s.shuntFs i.val * 1000000 :=
  ⟨(0), (0), (0), (true), (true), ({ State.reset with sys := { tick := 500000 }, afe := { State.reset.afe with shunt := State.reset.afe.shunt.map fun x => { x with comparing := true } } }), by decide +kernel⟩

theorem witness_FailedConvertersAndShunts_9 : ∃ (i : Fin 4) (qa : Int) (qi : Int) (s : State), (s.shunt i).comparing = true ∧ (s.shunt i).dead = false ∧ s.elapsed (s.shunt i).calTick 500000 = true ∧ s.shuntFs i.val * 1000000 < 1000 * (qa - qi).natAbs :=
  ⟨(0), (9), (0), ({ State.reset with sys := { tick := 500000 }, afe := { State.reset.afe with shunt := State.reset.afe.shunt.map fun x => { x with comparing := true } } }), by decide +kernel⟩

theorem witness_FailedConvertersAndShunts_10 : ∃ (p : Fin 64) (mv : Nat) (periods : Nat) (s : State), s.senseBias p.val = true ∧ s.chEn p.val = true ∧ s.afe.senseOpen[p.val] = false ∧ s.afe.senseThresh < mv ∧ s.sensePeriods ≤ periods :=
  ⟨(1), (81), (3), (wWith wGroup State.reset), by decide +kernel⟩

theorem witness_FailedConvertersAndShunts_11 : ∃ (p : Fin 64) (mv : Nat) (periods : Nat) (s : State), s.afe.senseOpen[p.val] = true ∧ mv < s.afe.senseThresh ∧ s.sensePeriods ≤ periods :=
  ⟨(1), (0), (3), ({ State.reset with afe := { senseOpen := Vector.replicate 64 true } }), by decide +kernel⟩

theorem witness_TestsBanksAndSnapshotsOfASlot_1 : ∃ (sess : Fin 64) (i : Fin 64) (s : State), s.allows sess .oa = true ∧ s.hasSlot i = true ∧ (s.testRec i.val).isSome = true ∧ s.sys.state = .run ∧ (s.slot i).test.state.live = false ∧ (s.slot i).snapHeld = false ∧ (s.slot i).snapLeft = none :=
  ⟨(0), (0), (wWith wTest (wSess .run)), by decide +kernel⟩

theorem witness_TestsBanksAndSnapshotsOfASlot_2 : ∃ (sess : Fin 64) (i : Fin 64) (s : State), s.allows sess .oa = true ∧ s.hasSlot i = true ∧ (s.testRec i.val).isSome = true ∧ (s.sys.state ≠ .run ∨ (s.slot i).test.state.live = true ∨ (s.slot i).snapHeld = true ∨ (s.slot i).snapLeft.isSome = true) :=
  ⟨(0), (0), (wWith wTest (wSess .armed)), by decide +kernel⟩

theorem witness_TestsBanksAndSnapshotsOfASlot_3 : ∃ (i : Fin 64) (s : State) (r : Rec), s.testRec i.val = some r ∧ (s.slot i).test.state = .pending ∧ (s.slot i).test.notBefore ≤ s.sys.tick + 1 :=
  ⟨(0), (wSlot (wWith wTest (wSess .run)) fun x => { x with test := { state := .pending } }), (wTest[1]), by decide +kernel⟩

theorem witness_TestsBanksAndSnapshotsOfASlot_4 : ∃ (i : Fin 64) (s : State) (r : Rec), s.testRec i.val = some r ∧ (s.slot i).test.state = .running ∧ r.testLen ≤ (s.slot i).test.j :=
  ⟨(0), (wSlot (wWith wTest (wSess .run)) fun x => { x with test := { state := .running } }), (wTest[1]), by decide +kernel⟩

theorem witness_TestsBanksAndSnapshotsOfASlot_5 : ∃ (sess : Fin 64) (i : Fin 64) (s : State), s.allows sess .oa = true ∧ s.hasSlot i = true ∧ (s.slot i).test.state.live = true :=
  ⟨(0), (0), (wSlot (wWith wTest (wSess .run)) fun x => { x with test := { state := .running } }), by decide +kernel⟩

theorem witness_TestsBanksAndSnapshotsOfASlot_6 : ∃ (sess : Fin 64) (i : Fin 64) (s : State), s.allows sess .oa = true ∧ s.hasSlot i = true ∧ (s.slot i).altBank = true :=
  ⟨(0), (0), (wSlot (wWith wTest (wSess .run)) fun x => { x with altBank := true }), by decide +kernel⟩

theorem witness_TestsBanksAndSnapshotsOfASlot_7 : ∃ (sess : Fin 64) (i : Fin 64) (s : State), s.allows sess .oa = true ∧ s.hasSlot i = true ∧ (s.slot i).frozen = true :=
  ⟨(0), (0), (wSlot (wWith wTest (wSess .run)) fun x => { x with frozen := true }), by decide +kernel⟩

theorem witness_TestsBanksAndSnapshotsOfASlot_8 : ∃ (i : Fin 64) (s : State) (r : Rec), s.slotRec i.val = some r ∧ (s.slot i).frozen = true ∧ r.oscWindow ≤ (s.slot i).osc.quiet :=
  ⟨(0), (wSlot (wWith wTest (wSess .run)) fun x => { x with frozen := true, osc := { quiet := 100000 } }), (wTest[0]), by decide +kernel⟩

theorem witness_TestsBanksAndSnapshotsOfASlot_9 : ∃ (i : Fin 64) (s : State), (s.slot i).snapLeft = some 0 :=
  ⟨(0), (wSlot State.reset fun x => { x with snapLeft := some 0 }), by decide +kernel⟩

theorem witness_TestsBanksAndSnapshotsOfASlot_10 : ∃ (sess : Fin 64) (i : Fin 64) (s : State), s.allows sess .oa = true ∧ s.hasSlot i = true ∧ (s.slot i).snapHeld = true :=
  ⟨(0), (0), (wSlot (wWith wTest (wSess .run)) fun x => { x with snapHeld := true }), by decide +kernel⟩

theorem witness_GroupsStartStopAndRideThrough_1 : ∃ (g : Fin 4) (s : State), (s.grp g).state = .softStart ∧ s.rampOver g = true :=
  ⟨(0), (wGrp .softStart), by decide +kernel⟩

theorem witness_GroupsStartStopAndRideThrough_2 : ∃ (g : Fin 4) (s : State), (s.grp g).state = .stopping ∧ s.mayStop g = true ∧ s.sec.resetReq = none ∧ s.prot.coolShutdown = false ∧ s.sys.state ≠ .shipPrep :=
  ⟨(0), ({ wGrp .stopping with sys := { state := .armed, tick := 25000 } }), by decide +kernel⟩

theorem witness_GroupsStartStopAndRideThrough_3 : ∃ (g : Fin 4) (s : State), ((s.grp g).state = .softStart ∨ (s.grp g).state = .running ∨ (s.grp g).state = .stopping) ∧ (s.grp g).de = false ∧ 16 ≤ (s.grp g).deTicks ∧ s.deEnter g.val ≠ 0 :=
  ⟨(0), ({ wGrp .running (fun x => { x with deTicks := 16 }) with cfg := { (wGrp .running).cfg with active := wActive [wRec 0x0601 48 [(8, 1, 0), (32, 2, 5)]] } }), by decide +kernel⟩

theorem witness_GroupsStartStopAndRideThrough_4 : ∃ (g : Fin 4) (s : State), (s.grp g).de = true ∧ (s.grp g).deExit = true :=
  ⟨(0), (wGrp .running fun x => { x with de := true, deExit := true }), by decide +kernel⟩

theorem witness_GroupsStartStopAndRideThrough_5 : ∃ (g : Fin 4) (at_ : Nat) (s : State), (s.grp g).fpArmed = true ∧ ((s.grp g).state = .softStart ∨ (s.grp g).state = .running ∨ (s.grp g).state = .basalt) :=
  ⟨(0), (5), (wGrp .running), by decide +kernel⟩

theorem witness_GroupsStartStopAndRideThrough_6 : ∃ (g : Fin 4) (s : State), (s.grp g).state = .fastPath ∧ (s.clk.fabricStopped = true ∨ (s.grp g).fpAt + 160000 ≤ 80000 * (s.sys.tick + 1)) :=
  ⟨(0), ({ wGrp .fastPath with sys := { tick := 2 } }), by decide +kernel⟩

theorem witness_GroupsStartStopAndRideThrough_7 : ∃ (g : Fin 4) (v : Int) (s : State), (s.grp g).state = .fastPath ∧ (s.grp g).fpReturn = .running ∧ ((s.grp g).fpThr + 5000 < v ∨ (s.grp g).fpAt + 800000 ≤ 80000 * (s.sys.tick + 1)) :=
  ⟨(0), (900000), (wGrp .fastPath fun x => { x with fpReturn := .running }), by decide +kernel⟩

theorem witness_GroupsStartStopAndRideThrough_8 : ∃ (p : Fin 64) (dead : Nat) (on_ : Nat) (s : State), (s.ph p).sitOut = 0 ∧ (s.ph p).fpSteps ≠ 0 :=
  ⟨(0), (0), (0), (wGrp .running id fun x => { x with fpSteps := 4 }), by decide +kernel⟩

theorem witness_GroupsStartStopAndRideThrough_9 : ∃ (g : Fin 4) (s : State), (s.grp g).reinterleave = true ∧ (s.grp g).reSteps = 3 :=
  ⟨(0), (wGrp .running fun x => { x with reinterleave := true, reSteps := 3 }), by decide +kernel⟩

theorem witness_GroupsStartStopAndRideThrough_10 : ∃ (g : Fin 4) (d : Nat) (l : List Nat) (s : State), (s.grp g).droopDue = d :: l ∧ d ≤ s.sys.tick ∧ s.droops g = false :=
  ⟨(0), (0), ([]), (wGrp .running fun x => { x with droopDue := [0] }), by decide +kernel⟩

theorem witness_GroupsStartStopAndRideThrough_11 : ∃ (g : Fin 4) (d : Nat) (l : List Nat) (s : State), (s.grp g).droopDue = d :: l ∧ d ≤ s.sys.tick ∧ s.droops g = true :=
  ⟨(0), (0), ([]), (wGrp .running fun x => { x with droopDue := [0], vTarget := 800000 }), by decide +kernel⟩

theorem witness_FaultsOfPhases_1 : ∃ (p : Fin 64) (code : Int) (at_ : Nat) (s : State), s.scActs p code = false :=
  ⟨(0), (0), (7), (wGrp .running), by decide +kernel⟩

theorem witness_FaultsOfPhases_2 : ∃ (p : Fin 64) (g : Fin 4) (code : Int) (at_ : Nat) (s : State), s.phaseGroup p.val = some g ∧ (s.ph p).scTicks = [] ∧ s.scActs p code = true ∧ 1 < (s.grp g).faultNow.scRetries :=
  ⟨(0), (0), (2047), (7), (wGrp .running), by decide +kernel⟩

theorem witness_FaultsOfPhases_3 : ∃ (p : Fin 64) (g : Fin 4) (at_ : Nat) (s : State), s.phaseGroup p.val = some g ∧ (s.grp g).state.switching = true ∧ (s.ph p).fltLow = false ∧ (s.ph p).disabled = false ∧ (s.ph p).disableReq = .none :=
  ⟨(0), (0), (7), (wGrp .running), by decide +kernel⟩

theorem witness_FaultsOfPhases_5 : ∃ (p : Fin 64) (g : Fin 4) (s : State), s.phaseGroup p.val = some g ∧ (s.grp g).state.switching = true ∧ (s.ph p).active = true ∧ (s.ph p).disabled = false ∧ (s.ph p).disableReq = .none ∧ (s.grp g).faultNow.openCycles ≤ (s.ph p).openRun :=
  ⟨(0), (0), (wGrp .running id fun x => { x with openRun := 8 }), by decide +kernel⟩

theorem witness_FaultsOfPhases_6 : ∃ (p : Fin 64) (g : Fin 4) (s : State), s.phaseGroup p.val = some g ∧ (s.grp g).state.switching = true ∧ (s.ph p).active = true ∧ (s.ph p).disabled = false ∧ (s.ph p).disableReq = .none ∧ 500 * (s.grp g).faultNow.suspectMs ≤ (s.ph p).suspect :=
  ⟨(0), (0), (wGrp .running id fun x => { x with suspect := 500 }), by decide +kernel⟩

theorem witness_FaultsOfPhases_7 : ∃ (sess : Fin 64) (p : Fin 64) (g : Fin 4) (s : State), s.allows sess .osar = true ∧ s.phaseGroup p.val = some g ∧ (s.grp g).state.switching = true ∧ (s.ph p).disabled = false ∧ (s.ph p).disableReq = .none :=
  ⟨(0), (0), (0), (wGrp .running), by decide +kernel⟩

theorem witness_FaultsOfPhases_8 : ∃ (p : Fin 64) (q : Fin 64) (g : Fin 4) (s : State), s.phaseGroup p.val = some g ∧ (s.grp g).state.switching = true ∧ (s.ph p).disableReq ≠ .none ∧ (s.ph p).disabled = false ∧ q ∈ s.actives g ∧ q ≠ p :=
  ⟨(0), (1), (0), (wGrp .running id fun x => { x with disableReq := .phaseOpen }), by decide +kernel⟩

theorem witness_FaultsOfPhases_9 : ∃ (p : Fin 64) (g : Fin 4) (s : State), s.phaseGroup p.val = some g ∧ (s.grp g).state.switching = true ∧ (s.ph p).disableReq ≠ .none ∧ (s.ph p).disabled = false ∧ s.actives g = [p] ∧ s.sec.resetReq = none ∧ s.prot.coolShutdown = false ∧ s.sys.state ≠ .shipPrep :=
  ⟨(1), (0), ({ wGrp .running with pwm := { (wGrp .running).pwm with ph := updV State.reset.pwm.ph 1 fun x => { x with active := true, disableReq := .operator } } }), by decide +kernel⟩

theorem witness_FaultsOfPhases_10 : ∃ (sess : Fin 64) (p : Fin 64) (g : Fin 4) (s : State), s.allows sess .osar = true ∧ s.phaseGroup p.val = some g ∧ (s.grp g).state.switching = true ∧ (s.ph p).disabled = true ∧ s.causeCleared p = true :=
  ⟨(0), (0), (0), (wGrp .running id fun x => { x with active := false, disabled := true, cause := .operator }), by decide +kernel⟩

theorem witness_SynchronisationAndFrames_1 : ∃ (g : Fin 4) (period : Nat) (s : State), s.follows g = true ∧ (s.grp g).state.switching = true ∧ 10 * ((period : Int) - s.freePeriod g).natAbs ≤ s.freePeriod g ∧ ((s.grp g).sync = .free ∨ (s.grp g).sync = .hold ∨ (s.grp g).sync = .returning) :=
  ⟨(0), (400000), (wWith (wRec 0x0101 16 [(8, 2, 2), (12, 4, 1)] :: wGroup) (wGrp .running fun x => { x with syncEn := true })), by decide +kernel⟩

theorem witness_SynchronisationAndFrames_2 : ∃ (g : Fin 4) (edge : Nat) (s : State), s.lit = true ∧ (s.grp g).sync = .slewing ∧ (s.grp g).period = (s.grp g).syncPeriod ∧ (((s.grp g).frameStart : Int) - s.lockedStart g edge).natAbs ≤ 1000 :=
  ⟨(0), (0), (wGrp .running fun x => { x with sync := .slewing, period := 400000, syncPeriod := 400000 }), by decide +kernel⟩

theorem witness_SynchronisationAndFrames_3 : ∃ (g : Fin 4) (s : State), s.lit = true ∧ (s.grp g).sync = .locked :=
  ⟨(0), (wGrp .running fun x => { x with sync := .locked }), by decide +kernel⟩

theorem witness_SynchronisationAndFrames_4 : ∃ (g : Fin 4) (s : State), s.lit = true ∧ (s.grp g).sync = .hold ∧ s.elapsed (s.grp g).syncHoldAt (500 * max 1 (s.grp g).holdMs) = true :=
  ⟨(0), ({ wGrp .running (fun x => { x with sync := .hold }) with sys := { state := .run, tick := 5000 } }), by decide +kernel⟩

theorem witness_SynchronisationAndFrames_5 : ∃ (g : Fin 4) (s : State), s.lit = true ∧ (s.grp g).sync = .returning ∧ (s.grp g).period = s.freePeriod g :=
  ⟨(0), (wGrp .running fun x => { x with sync := .returning, period := 400000 }), by decide +kernel⟩

theorem witness_SynchronisationAndFrames_6 : ∃ (g : Fin 4) (edge : Option Nat) (s : State), s.lit = true ∧ (s.grp g).state = .running ∧ (s.grp g).framing = true ∧ (s.grp g).sync = .free ∧ (s.grp g).reinterleave = false :=
  ⟨(0), (none), (wGrp .running), by decide +kernel⟩

theorem witness_SynchronisationAndFrames_7 : ∃ (sess : Fin 64) (v : BitVec 32) (s : State), s.allows sess .osar = true ∧ s.pwm.profV = 0 ∧ s.pwm.profA = 0 :=
  ⟨(0), (5), (wSess .run), by decide +kernel⟩

theorem witness_BrickPorts_1 : ∃ (s : State), s.lit = true ∧ s.cfg.activeValid = true ∧ s.due 5 s.pwm.psuTick = true ∧ ((∀ p : Fin 16, (s.psuPort p).awaiting = false)) :=
  ⟨(wPsu id), by decide +kernel⟩

theorem witness_BrickPorts_2 : ∃ (p : Fin 16) (f : List Byte) (s : State), s.lit = true ∧ (s.psuRating p.val).isSome = true ∧ psuFrameOk f = true ∧ leVal (bytesAt f 0 1) = (s.psuPort p).seq ∧ tb (leVal (bytesAt f 1 1)) 1 = false ∧ tb (leVal (bytesAt f 1 1)) 0 = true :=
  ⟨(0), (wTel 1), (wPsu id), by decide +kernel⟩

theorem witness_BrickPorts_3 : ∃ (p : Fin 16) (f : List Byte) (s : State), s.lit = true ∧ (s.psuRating p.val).isSome = true ∧ psuFrameOk f = true ∧ leVal (bytesAt f 0 1) = (s.psuPort p).seq ∧ tb (leVal (bytesAt f 1 1)) 1 = true ∧ (s.psuPort p).inService = true ∧ (s.psuPort p).lost = false :=
  ⟨(0), (wTel 2), (wPsu fun x => { x with inService := true }), by decide +kernel⟩

theorem witness_BrickPorts_4 : ∃ (p : Fin 16) (s : State), s.lit = true ∧ (s.psuPort p).lost = true ∧ (s.psuPort p).clean = true ∧ s.elapsed (s.psuPort p).cleanAt 500000 = true :=
  ⟨(0), ({ wPsu (fun x => { x with lost := true, clean := true }) with sys := { tick := 500000 } }), by decide +kernel⟩

theorem witness_BrickPorts_5 : ∃ (sess : Fin 64) (p : Fin 16) (s : State), s.allows sess .oa = true ∧ (s.psuRating p.val).isSome = true ∧ (s.psuPort p).lost = true ∧ (s.psuPort p).clean = true :=
  ⟨(0), (0), (wPsu fun x => { x with lost := true, clean := true }), by decide +kernel⟩

theorem witness_EvaluationsAndFrames_1 : ∃ (i : Fin 10) (tIn : Nat) (ns : Nat) (e : Eval) (d : Rec) (s : State), s.lit = true ∧ (s.finst i).flight.find? (fun x => x.tIn = tIn) = some e ∧ e.old = none ∧ s.evalModelRec i e = some d ∧ s.evalReady i e = true :=
  ⟨(0), (4), (0), (wEval 4), ((wRec 0x0901 48 [(8, 2, 7), (10, 1, 1), (11, 1, 1), (14, 1, 1), (15, 1, 1), (38, 2, 1)])), (wFce fun x => { x with flight := [wEval 2, wEval 4] }), by decide +kernel⟩

theorem witness_EvaluationsAndFrames_2 : ∃ (i : Fin 10) (tIn : Nat) (entry : Nat) (e : Eval) (s : State), s.lit = true ∧ (s.finst i).flight.find? (fun x => x.tIn = tIn) = some e ∧ s.copyReady i e entry = true :=
  ⟨(0), (4), (0), (wEval 4), ({ wFce (fun x => { x with flight := [wEval 4] }) with sys := { tick := 4 } }), by decide +kernel⟩

theorem witness_EvaluationsAndFrames_3 : ∃ (i : Fin 10) (tIn : Nat) (entry : Nat) (e : Eval) (s : State), (s.finst i).flight.find? (fun x => x.tIn = tIn) = some e ∧ s.copyReady i e entry = false :=
  ⟨(0), (4), (0), (wEval 4), ({ wFce (fun x => { x with flight := [wEval 4], copyWait := [7] }) with cfg := { (wFce id).cfg with active := wActive [wRec 0x0901 48 [(8, 2, 7), (10, 1, 1), (11, 1, 1), (14, 1, 1), (15, 1, 1), (38, 2, 1)], wRec 0x0A01 24 [(8, 2, 7)]] } }), by decide +kernel⟩

theorem witness_EvaluationsAndFrames_4 : ∃ (rd : Round) (s : State), s.lit = true ∧ s.fce.rounds = [rd] ∧ rd.tIn ≤ s.sys.tick ∧ s.roundComplete rd = true ∧ ((if rd.long then s.fce.long else s.fce.short).lhat = [] ∨ (if rd.long then s.fce.long else s.fce.short).tIn < rd.tIn) :=
  ⟨(wRound false [0]), ({ wFce id with sys := { tick := 5 }, fce := { (wFce id).fce with rounds := [wRound false [0]] } }), by decide +kernel⟩

theorem witness_EvaluationsAndFrames_5 : ∃ (rd : Round) (s : State), s.lit = true ∧ s.fce.rounds = [rd] ∧ rd.tIn ≤ s.sys.tick ∧ s.roundComplete rd = true ∧ (if rd.long then s.fce.long else s.fce.short).lhat ≠ [] ∧ rd.tIn ≤ (if rd.long then s.fce.long else s.fce.short).tIn :=
  ⟨(wRound true []), ({ wFce id with sys := { tick := 5 }, fce := { (wFce id).fce with rounds := [wRound true []], long := { tIn := 4, lhat := [1] } } }), by decide +kernel⟩

theorem witness_EvaluationsAndFrames_6 : ∃ (rd : Round) (s : State), s.fce.rounds = [rd] ∧ s.roundComplete rd = false :=
  ⟨(wRound false [0]), ({ wFce (fun x => { x with flight := [wEval 4] }) with fce := { (wFce fun x => { x with flight := [wEval 4] }).fce with rounds := [wRound false [0]] } }), by decide +kernel⟩

theorem witness_EvaluationsAndFrames_7 : ∃ (rd : Round) (i : Fin 10) (e : Eval) (s : State), s.lit = true ∧ s.fce.rounds = [rd] ∧ rd.tIn ≤ s.sys.tick ∧ rd.late (s.sys.tick + 1) = true ∧ rd.due = [i.val] ∧ (s.finst i).flight.find? (fun x => x.tIn = rd.tIn && !x.missed) = some e :=
  ⟨(wRound false [0]), (0), (wEval 4), ({ wFce (fun x => { x with flight := [wEval 4] }) with sys := { tick := 20 }, fce := { (wFce fun x => { x with flight := [wEval 4] }).fce with rounds := [wRound false [0]] } }), by decide +kernel⟩

theorem witness_EvaluationsAndFrames_8 : ∃ (s : State), s.lit = true ∧ s.longStaleAt (s.sys.tick + 1) = true ∧ ((∀ rd ∈ s.fce.rounds, rd.long = false)) :=
  ⟨({ State.reset with fce := { State.reset.fce with longFresh := true } }), by decide +kernel⟩

theorem witness_ForecastEngineAndHeads_1 : ∃ (sess : Fin 64) (v : Bool) (s : State), s.allows sess .oar = true ∧ (v && s.inState [.armed, .run] && !s.fce.dieStop) = true ∧ s.fce.running = false :=
  ⟨(0), (true), (wSess .run), by decide +kernel⟩

theorem witness_ForecastEngineAndHeads_2 : ∃ (sess : Fin 64) (v : Bool) (s : State), s.allows sess .oar = true ∧ (v && s.inState [.armed, .run] && !s.fce.dieStop) = false ∧ s.fce.running = true :=
  ⟨(0), (false), (wFce id), by decide +kernel⟩

theorem witness_ForecastEngineAndHeads_3 : ∃ (sess : Fin 64) (v : Bool) (s : State), s.allows sess .oar = true ∧ (v && s.inState [.armed, .run] && !s.fce.dieStop) = s.fce.running :=
  ⟨(0), (false), (wSess .run), by decide +kernel⟩

theorem witness_ForecastEngineAndHeads_4 : ∃ (sess : Fin 64) (v : Bool) (s : State), s.allows sess .oar = true :=
  ⟨(0), (false), (wSess .run), by decide +kernel⟩

theorem witness_ForecastEngineAndHeads_5 : ∃ (sess : Fin 64) (i : Fin 10) (v : Bool) (s : State), (s.instModel i).isSome = true ∧ s.allows sess .oar = true :=
  ⟨(0), (0), (true), (wFce id), by decide +kernel⟩

theorem witness_ForecastEngineAndHeads_6 : ∃ (sess : Fin 64) (i : Fin 10) (v : Bool) (s : State), s.instModel i = none :=
  ⟨(0), (1), (true), (wFce id), by decide +kernel⟩

theorem witness_ForecastEngineAndHeads_7 : ∃ (sess : Fin 64) (i : Fin 10) (s : State), s.instModel i = none :=
  ⟨(0), (1), (wFce id), by decide +kernel⟩

theorem witness_ForecastEngineAndHeads_8 : ∃ (sess : Fin 64) (i : Fin 10) (d : Rec) (s : State), s.instModel i = some d ∧ s.allows sess .oar = true ∧ d.adapts = true :=
  ⟨(0), (0), (wHeadModel[0]), (wHeadState), by decide +kernel⟩

theorem witness_ForecastEngineAndHeads_9 : ∃ (sess : Fin 64) (i : Fin 10) (d : Rec) (s : State), s.instModel i = some d ∧ s.allows sess .oar = true ∧ d.adapts = false :=
  ⟨(0), (0), (wPlainModel[0]), (wPlainState), by decide +kernel⟩

theorem witness_ForecastEngineAndHeads_10 : ∃ (sess : Fin 64) (s : State), s.allows sess .oar = true :=
  ⟨(0), (wHeadState), by decide +kernel⟩

theorem witness_ForecastEngineAndHeads_11 : ∃ (i : Fin 10) (s : State), s.lit = true ∧ s.holdoffOver i (s.sys.tick + 1) = true :=
  ⟨(0), (wFce fun x => { x with suspended := true }), by decide +kernel⟩

theorem witness_ForecastEngineAndHeads_12 : ∃ (i : Fin 10) (s : State), s.lit = true ∧ s.holdoffOver i (s.sys.tick + 1) = false :=
  ⟨(0), (wFce id), by decide +kernel⟩

theorem witness_ForecastEngineAndHeads_13 : ∃ (s : State), s.lit = true ∧ s.fce.running = true ∧ (s.sys.tick + 1) % 500 = 0 ∧ s.fce.headAt ≠ s.sys.tick + 1 :=
  ⟨(wHeadState), by decide +kernel⟩

theorem witness_ForecastEngineAndHeads_14 : ∃ (s : State), (s.fce.running = false ∨ (s.sys.tick + 1) % 500 ≠ 0 ∨ s.fce.headAt = s.sys.tick + 1) :=
  ⟨(wFce id), by decide +kernel⟩

theorem witness_ForecastEngineAndHeads_15 : ∃ (i : Fin 10) (u : Nat) (s : State), ((s.instModel i).any Rec.adapts = false ∨ s.fce.adaptEn = false ∨ (s.finst i).adaptDis = true ∨ (s.finst i).suspended = true ∨ (s.finst i).active = false ∨ (s.finst i).trainable (instLong i) u = none) :=
  ⟨(1), (500), (wHeadState), by decide +kernel⟩

theorem witness_ForecastEngineAndHeads_16 : ∃ (i : Fin 10) (u : Nat) (d : Rec) (r : Rec) (f : FResult) (acts : List Nat) (s : State), s.instModel i = some d ∧ s.headRec d = some r ∧ d.adapts = true ∧ (s.finst i).active = true ∧ s.fce.adaptEn = true ∧ (s.finst i).adaptDis = false ∧ (s.finst i).suspended = false ∧ (s.finst i).trainable (instLong i) u = some f ∧ ((List.range d.outLen).map fun j => s.actual (instRole i) (f.tIn + (if instLong i = true then 500 else 1) * (j + 1)) (instLong i)) = acts.map some :=
  ⟨(0), (500), (wHeadModel[0]), (wHeadModel[1]), (wFRes), ([0]), (wHeadState), by decide +kernel⟩

theorem witness_PortsAndTheirLinks_1 : ∃ (n : Fin 64) (s : State), (s.port n).linked = false ∧ (s.port n).debouncing = false ∧ s.tlk.portsUp = true ∧ (s.port n).state ≠ .unused :=
  ⟨(0), (wUp .run fun x => { x with linked := false, state := .locked }), by decide +kernel⟩

theorem witness_PortsAndTheirLinks_2 : ∃ (n : Fin 64) (s : State), (s.port n).linked = false ∧ (s.port n).debouncing = false ∧ s.tlk.portsUp = true ∧ (s.port n).state = .unused :=
  ⟨(0), (wUp .run fun x => { x with linked := false, state := .unused }), by decide +kernel⟩

theorem witness_PortsAndTheirLinks_3 : ∃ (n : Fin 64) (s : State), (s.tlk.portsUp = false ∨ (s.port n).linked = true ∨ (s.port n).debouncing = true) :=
  ⟨(0), (wPort .run id), by decide +kernel⟩

theorem witness_PortsAndTheirLinks_4 : ∃ (n : Fin 64) (s : State), (s.port n).linked = true ∧ (s.port n).state ≠ .unused ∧ (s.port n).granting = true :=
  ⟨(0), (wPort .run id), by decide +kernel⟩

theorem witness_PortsAndTheirLinks_5 : ∃ (n : Fin 64) (s : State), (s.port n).linked = true ∧ (s.port n).state ≠ .unused ∧ (s.port n).granting = false :=
  ⟨(0), (wPort .run fun x => { x with state := .drained }), by decide +kernel⟩

theorem witness_PortsAndTheirLinks_6 : ∃ (n : Fin 64) (s : State), (s.port n).debouncing = true ∧ s.sys.tick ≤ (s.port n).debTick + 10 :=
  ⟨(0), (wPort .run fun x => { x with linked := false, debouncing := true }), by decide +kernel⟩

theorem witness_PortsAndTheirLinks_7 : ∃ (n : Fin 64) (s : State), ((s.port n).debouncing = false ∨ (s.port n).debTick + 10 < s.sys.tick) :=
  ⟨(0), (wPort .run id), by decide +kernel⟩

theorem witness_PortsAndTheirLinks_8 : ∃ (n : Fin 64) (s : State), (s.port n).debouncing = true ∧ s.elapsed (s.port n).debTick 10 = true :=
  ⟨(0), ({ wPort .run (fun x => { x with linked := false, debouncing := true, inForce := some (wGrant 1 5) }) with sys := { (wPort .run id).sys with tick := 10 } }), by decide +kernel⟩

theorem witness_PortsAndTheirLinks_9 : ∃ (n : Fin 64) (f : Sys2Proof.IdentFrame) (s : State), (s.port n).linked = true ∧ s.tlk.portsUp = true ∧ f.version = 1 ∧ f.fixedFreqCap = true ∧ f.subCapsCap = true ∧ ((s.port n).state = .identifying ∨ (s.port n).state = .drained) :=
  ⟨(0), (wIdent), (wUp .armed fun x => { x with state := .identifying }), by decide +kernel⟩

theorem witness_PortsAndTheirLinks_10 : ∃ (n : Fin 64) (f : Sys2Proof.IdentFrame) (s : State), (s.port n).linked = true ∧ s.tlk.portsUp = true ∧ f.version = 1 ∧ f.fixedFreqCap = true ∧ f.subCapsCap = true ∧ (s.port n).state = .locked :=
  ⟨(0), (wIdent), (wUp .basalt fun x => { x with state := .locked }), by decide +kernel⟩

theorem witness_PortsAndTheirLinks_11 : ∃ (n : Fin 64) (f : Sys2Proof.IdentFrame) (s : State), (s.port n).linked = true ∧ s.tlk.portsUp = true ∧ f.version = 1 ∧ f.fixedFreqCap = true ∧ f.subCapsCap = true ∧ ((s.port n).state ≠ .unused ∧ (s.port n).state ≠ .identifying ∧ (s.port n).state ≠ .drained ∧ (s.port n).state ≠ .locked) :=
  ⟨(0), (wIdent), (wUp .run id), by decide +kernel⟩

theorem witness_PortsAndTheirLinks_12 : ∃ (n : Fin 64) (f : Sys2Proof.IdentFrame) (s : State), ((s.port n).linked = false ∨ (s.port n).state = .unused ∨ f.version ≠ 1 ∨ f.fixedFreqCap = false ∨ f.subCapsCap = false) :=
  ⟨(0), ({ wIdent with version := 2 }), (wUp .run id), by decide +kernel⟩

theorem witness_PortsAndTheirLinks_13 : ∃ (n : Fin 64) (s : State), (s.port n).linked = true ∧ (s.port n).state.counted = true :=
  ⟨(0), (wPort .run id), by decide +kernel⟩

theorem witness_PortsAndTheirLinks_14 : ∃ (n : Fin 64) (s : State), ((s.port n).linked = false ∨ (s.port n).state.counted = false) :=
  ⟨(0), (wPort .run fun x => { x with state := .watch }), by decide +kernel⟩

theorem witness_PortsAndTheirLinks_15 : ∃ (sess : Fin 64) (n : Fin 64) (s : State), s.allows sess .or_ = true ∧ (s.port n).state.counted = true :=
  ⟨(0), (0), (wPort .run id), by decide +kernel⟩

theorem witness_PortsAndTheirLinks_16 : ∃ (n : Fin 64) (s : State), (s.port n).state = .draining ∧ (s.elapsed (s.port n).drainTick 50000 = true ∨ 3 ≤ (s.port n).lowReports) :=
  ⟨(0), (wPort .run fun x => { x with state := .draining, lowReports := 3 }), by decide +kernel⟩

theorem witness_PortsAndTheirLinks_17 : ∃ (n : Fin 64) (env : BitVec 16) (s : State), (s.port n).linked = true ∧ (s.port n).state = .watch ∧ s.sys.state = .run :=
  ⟨(0), (100), (wSec2 .run fun x => { x with state := .watch }), by decide +kernel⟩

theorem witness_PortsAndTheirLinks_18 : ∃ (n : Fin 64) (env : BitVec 16) (s : State), (s.sys.state ≠ .run ∨ (s.port n).linked = false ∨ (s.port n).state ≠ .watch) :=
  ⟨(0), (100), (State.reset), by decide +kernel⟩

theorem witness_PortsAndTheirLinks_19 : ∃ (n : Fin 64) (s : State), s.inState [.boot, .standby, .armed] = true :=
  ⟨(0), (wUp .armed id), by decide +kernel⟩

theorem witness_PortsAndTheirLinks_20 : ∃ (n : Fin 64) (s : State), s.inState [.basalt, .shipPrep] = true :=
  ⟨(0), (wUp .basalt id), by decide +kernel⟩

theorem witness_PortsAndTheirLinks_21 : ∃ (n : Fin 64) (s : State), s.sys.state = .run ∧ s.homing n.val = 2 :=
  ⟨(0), (wSec2 .run id), by decide +kernel⟩

theorem witness_PortsAndTheirLinks_22 : ∃ (n : Fin 64) (s : State), s.sys.state = .run ∧ s.homing n.val ≠ 2 :=
  ⟨(0), (wUp .run id), by decide +kernel⟩

theorem witness_ReportsAndGrants_1 : ∃ (n : Fin 64) (f : Sys2Proof.ReportFrame) (missing : Nat) (s : State), (s.port n).linked = true ∧ (s.port n).state ≠ .unused ∧ (s.port n).state ≠ .down ∧ (¬((s.port n).state = .watch ∧ f.primaryUp = false ∧ 1 ≤ (s.port n).primaryDown)) ∧ (¬((s.port n).state = .takenOver ∧ f.grantFrom = false)) :=
  ⟨(0), (wReport false false), (1), (wPort .armed fun x => { x with state := .notReady }), by decide +kernel⟩

theorem witness_ReportsAndGrants_3 : ∃ (n : Fin 64) (f : Sys2Proof.ReportFrame) (missing : Nat) (s : State), (s.port n).linked = true ∧ (s.port n).state = .watch ∧ f.primaryUp = false ∧ 1 ≤ (s.port n).primaryDown ∧ s.sys.state = .run :=
  ⟨(0), (wReport false false), (0), (wSec2 .run fun x => { x with state := .watch, primaryDown := 1 }), by decide +kernel⟩

theorem witness_ReportsAndGrants_4 : ∃ (n : Fin 64) (f : Sys2Proof.ReportFrame) (missing : Nat) (s : State), (s.port n).linked = true ∧ (s.port n).state = .takenOver ∧ f.grantFrom = false :=
  ⟨(0), (wReport true false), (0), (wSec2 .run fun x => { x with state := .takenOver }), by decide +kernel⟩

theorem witness_ReportsAndGrants_5 : ∃ (n : Fin 64) (r : Report) (s : State), (s.port n).granting = false :=
  ⟨(0), (reportOf (wReport true false)), (wPort .armed fun x => { x with state := .notReady }), by decide +kernel⟩

theorem witness_ReportsAndGrants_6 : ∃ (n : Fin 64) (r : Report) (s : State), (s.port n).granting = true ∧ ((s.aboveEnv (s.port n) r = false ∨ (s.port n).overEnv = 0)) ∧ ((s.port n).report.any fun r1 => s.slopeBroken (s.port n) r1 r) = false :=
  ⟨(0), (reportOf (wReport true false)), (wPort .run id), by decide +kernel⟩

theorem witness_ReportsAndGrants_7 : ∃ (n : Fin 64) (r : Report) (s : State), (s.port n).granting = true ∧ s.pol8 0x1A 0 ≠ 1 ∧ ((s.aboveEnv (s.port n) r = true ∧ 1 ≤ (s.port n).overEnv) ∨ ((s.port n).report.any fun r1 => s.slopeBroken (s.port n) r1 r) = true) :=
  ⟨(0), (reportOf { wReport true false with pTotal := 900 }), (wPort .run fun x => { x with inForce := some (wGrant 1 5), overEnv := 1 }), by decide +kernel⟩

theorem witness_ReportsAndGrants_8 : ∃ (n : Fin 64) (s : State), (s.port n).linked = true ∧ (s.port n).state ≠ .unused ∧ (s.port n).state ≠ .down ∧ (s.port n).reportStale = false ∧ s.elapsed (s.port n).reportTick 15 = true :=
  ⟨(0), ({ wPort .run id with sys := { (wPort .run id).sys with tick := 14 } }), by decide +kernel⟩

theorem witness_ReportsAndGrants_9 : ∃ (n : Fin 64) (gseq : BitVec 16) (result : Fin 3) (g : Grant) (s : State), (s.port n).unacked.find? (fun x => x.gseq = gseq.toNat) = some g :=
  ⟨(0), (1), (2), (wGrant 1 5), (wPort .run fun x => { x with unacked := [wGrant 2 7, wGrant 1 5] }), by decide +kernel⟩

theorem witness_ReportsAndGrants_10 : ∃ (n : Fin 64) (gseq : BitVec 16) (result : Fin 3) (s : State), (s.port n).unacked.find? (fun x => x.gseq = gseq.toNat) = none :=
  ⟨(0), (1), (0), (State.reset), by decide +kernel⟩

theorem witness_ReportsAndGrants_11 : ∃ (n : Fin 64) (g : Grant) (s : State), (s.port n).sent = some g ∧ (s.port n).linked = true ∧ ((s.port n).ackTries = 1 ∨ (s.port n).ackTries = 2) ∧ s.elapsed (s.port n).sentTick (2 * (s.port n).ackTries) = true :=
  ⟨(0), (wGrant 1 5), ({ wPort .run (fun x => { x with sent := some (wGrant 1 5), ackTries := 2 }) with sys := { (wPort .run id).sys with tick := 3 } }), by decide +kernel⟩

theorem witness_ReportsAndGrants_12 : ∃ (n : Fin 64) (s : State), (s.port n).ackTries = 3 ∧ s.elapsed (s.port n).sentTick 6 = true :=
  ⟨(0), ({ wPort .run (fun x => { x with ackTries := 3 }) with sys := { (wPort .run id).sys with tick := 5 } }), by decide +kernel⟩

theorem witness_ReportsAndGrants_13 : ∃ (n : Fin 64) (s : State), (s.port n).grants = true :=
  ⟨(0), (wPort .run id), by decide +kernel⟩

theorem witness_ReportsAndGrants_14 : ∃ (n : Fin 64) (s : State), (s.port n).grants = false :=
  ⟨(0), (State.reset), by decide +kernel⟩

theorem witness_ReportsAndGrants_15 : ∃ (n : Fin 64) (s : State), (s.port n).handback = false :=
  ⟨(0), (wPort .run id), by decide +kernel⟩

theorem witness_ReportsAndGrants_16 : ∃ (s : State), s.due 50 s.tlk.timeTick = true :=
  ⟨(wPort .run id), by decide +kernel⟩

theorem witness_ReportsAndGrants_17 : ∃ (s : State), s.due 50 s.tlk.timeTick = false :=
  ⟨({ State.reset with sys := { tick := 3 } }), by decide +kernel⟩

theorem witness_ReportsAndGrants_18 : ∃ (n : Fin 64) (s : State), (s.port n).state ≠ .unused :=
  ⟨(0), (wPort .run id), by decide +kernel⟩

theorem witness_ScheduleTable_1 : ∃ (n : Fin 64) (a : Sys2Proof.AnnounceEntry) (e : Entry) (s : State), (s.port n).linked = true ∧ (s.port n).state ≠ .unused ∧ (s.port n).state ≠ .down ∧ e = { id := wrapU 32 a.id, t := wrapU 64 a.t, mask := 2 ^ n.val, dp := ofCode 32 a.dp, duration := wrapU 32 a.duration, kind := wrapU 8 a.kind, role := wrapU 8 a.role, source := n.val, roleApplied := false, offs := [] } :=
  ⟨(0), ({ id := 9, t := 1000, mask := 0, dp := 100, duration := 5, kind := 0, role := 2 }), ({ wEntry1 1000 1 with role := 2 }), (wPort .armed fun x => { x with state := .notReady }), by decide +kernel⟩

theorem witness_ScheduleTable_2 : ∃ (n : Fin 64) (a : Sys2Proof.AnnounceEntry) (s : State), ((s.port n).linked = false ∨ (s.port n).state = .unused ∨ (s.port n).state = .down) :=
  ⟨(0), ({ id := 9, t := 1000, mask := 0, dp := 100, duration := 5, kind := 0, role := 2 }), (State.reset), by decide +kernel⟩

theorem witness_ScheduleTable_3 : ∃ (e : Entry) (st : Nat) (re : Nat) (s : State), e.source ≠ 0xFF ∧ s.schedCheck e = some (st, re) :=
  ⟨({ wEntry1 1000 1 with duration := 0 }), (3), (4), (wPort .run id), by decide +kernel⟩

theorem witness_ScheduleTable_4 : ∃ (e : Entry) (u : State) (s : State), e.source ≠ 0xFF ∧ s.schedCheck e = none ∧ u = s.schedEvict e.source ∧ tableCap ≤ u.tlk.table.length :=
  ⟨(wEntry1 1000 1), ((wFull 32768).schedEvict 0), (wFull 32768), by decide, wFull_check _, rfl, (wFull_evict _).symm ▸ (by decide)⟩

theorem witness_ScheduleTable_5 : ∃ (e : Entry) (s : State), e.source ≠ 0xFF ∧ s.schedCheck e = none ∧ s.tlk.table.length < tableCap ∧ s.sys.state = .armed :=
  ⟨(wEntry1 1000 1), (wPort .armed id), by decide +kernel⟩

theorem witness_ScheduleTable_6 : ∃ (n : Fin 64) (e : Entry) (c : Nat) (sl : Nat) (d : Nat) (s : State), e.source = n.val ∧ e.mask = 2 ^ n.val ∧ s.schedCheck e = none ∧ s.tlk.table.length < tableCap ∧ s.allocOn = true ∧ s.sys.timeNs + s.leadNs ≤ e.t ∧ s.placeable n = true ∧ 0 < e.dp ∧ c = s.allocCap e true ∧ sl = min (min (s.pol16 0x0C 0) (s.port n).slopeMax) c ∧ sl ≠ 0 ∧ d = ceilDiv e.dp.natAbs sl :=
  ⟨(0), (wEntry1 100000 1), (50), (40), (3), (wAlloc), by decide +kernel⟩

theorem witness_ScheduleTable_7 : ∃ (n : Fin 64) (pl : Placement) (s : State), s.placedAt n.val = some pl ∧ (s.port n).throttled = false ∧ pl.t + 1000 * (pl.offset + pl.dur) + 10000 < s.sys.timeNs + 2000 :=
  ⟨(0), (wPlaced), ({ wPort .run id with tlk := { (wPort .run id).tlk with placed := [wPlaced] }, sys := { (wPort .run id).sys with timeNs := 10000 } }), by decide +kernel⟩

theorem witness_ScheduleTable_8 : ∃ (n : Fin 64) (s : State), ((s.port n).throttled = true ∨ s.placedAt n.val = none ∨ (s.placedAt n.val).any (fun pl => decide (s.sys.timeNs + 2000 ≤ pl.t + 1000 * (pl.offset + pl.dur) + 10000)) = true) :=
  ⟨(0), (wPort .run fun x => { x with throttled := true }), by decide +kernel⟩

theorem witness_ScheduleTable_9 : ∃ (e : Entry) (id_ : BitVec 32) (src : BitVec 8) (s : State), s.tlk.table.find? (fun x => x.id = id_.toNat && x.source = src.toNat && x.t ≤ s.sys.timeNs && !x.roleApplied) = some e ∧ e.role ≠ 0xFF :=
  ⟨(wEntry1 0 5), (9), (0), ({ State.reset with tlk := { State.reset.tlk with table := [wEntry1 0 5] } }), by decide +kernel⟩

theorem witness_ScheduleTable_10 : ∃ (e : Entry) (id_ : BitVec 32) (src : BitVec 8) (s : State), s.tlk.table.find? (fun x => x.id = id_.toNat && x.source = src.toNat && x.t ≤ s.sys.timeNs && !x.roleApplied) = some e ∧ e.role = 0xFF :=
  ⟨({ wEntry1 0 5 with role := 0xFF }), (9), (0), ({ State.reset with tlk := { State.reset.tlk with table := [{ wEntry1 0 5 with role := 0xFF }] } }), by decide +kernel⟩

theorem witness_ScheduleTable_11 : ∃ (id_ : BitVec 32) (src : BitVec 8) (s : State), s.tlk.table.find? (fun x => x.id = id_.toNat && x.source = src.toNat && x.t ≤ s.sys.timeNs && !x.roleApplied) = none :=
  ⟨(9), (0), (State.reset), by decide +kernel⟩

theorem witness_ThrottleAndRelease_1 : ∃ (sess : Fin 64) (s : State), s.allows sess .or_ = true ∧ s.tlk.throttleAll = false :=
  ⟨(0), (wPort .run id), by decide +kernel⟩

theorem witness_ThrottleAndRelease_2 : ∃ (sess : Fin 64) (s : State), s.allows sess .or_ = true ∧ s.allThrottled = true :=
  ⟨(0), ({ wPort .run (fun x => { x with throttled := true }) with tlk := { (wPort .run fun x => { x with throttled := true }).tlk with throttleAll := true } }), by decide +kernel⟩

theorem witness_ThrottleAndRelease_3 : ∃ (sess : Fin 64) (n : Fin 64) (s : State), s.allows sess .or_ = true ∧ s.tlk.throttleAll = false ∧ s.tlk.releasing = false ∧ (s.port n).carriesSets = true :=
  ⟨(0), (0), (wPort .run id), by decide +kernel⟩

theorem witness_ThrottleAndRelease_4 : ∃ (sess : Fin 64) (n : Fin 64) (s : State), s.allows sess .or_ = true ∧ s.tlk.releasing = true ∧ (s.port n).carriesSets = true :=
  ⟨(0), (0), ({ wPort .run id with tlk := { (wPort .run id).tlk with releasing := true } }), by decide +kernel⟩

theorem witness_ThrottleAndRelease_5 : ∃ (sess : Fin 64) (s : State), s.allows sess .or_ = true ∧ ((∀ c : Fin 7, c ≠ 4 → s.tlk.causes[c.val] = false)) ∧ ((∀ n, (s.port n).throttled = false ∧ (s.port n).thrNoncompliant = false)) :=
  ⟨(0), ({ wPort .run id with tlk := { (wPort .run id).tlk with throttleAll := true, causes := updV State.reset.tlk.causes 4 fun _ => true } }), by decide +kernel⟩

theorem witness_ThrottleAndRelease_6 : ∃ (sess : Fin 64) (n : Fin 64) (s : State), s.allows sess .or_ = true ∧ (s.port n).state ≠ .unused ∧ (s.tlk.throttleAll = false ∨ s.tlk.causes[4] = true) ∧ ((∀ c : Fin 7, c ≠ 4 → s.tlk.causes[c.val] = false)) ∧ s.tlk.thrRestart = false ∧ (s.port n).throttled = true ∧ (s.port n).thrNoncompliant = false ∧ ((∀ j, j ≠ n → (s.port j).throttled = false)) ∧ s.tlk.table = [] :=
  ⟨(0), (0), (wPort .run fun x => { x with throttled := true, thrOperator := true }), by decide +kernel⟩

theorem witness_ThrottleAndRelease_7 : ∃ (c : Fin 7) (k : Sys2Proof.ClearedCause) (s : State), ((k = .uvFastpath ∧ c = 0) ∨ (k = .phaseLoss ∧ c = 1) ∨ (k = .rackHold ∧ c = 2 ∧ s.sys.rackHoldSeen = false)) ∧ s.elapsed s.tlk.causeTick[c.val] (ceilDiv s.releaseHold 2) = true ∧ s.tlk.causes[c.val] = true ∧ ((∃ d : Fin 7, d ≠ c ∧ d ≠ 4 ∧ s.tlk.causes[d.val] = true)) :=
  ⟨(2), (.rackHold), ({ State.reset with tlk := { State.reset.tlk with throttleAll := true, causes := Vector.replicate 7 true }, sys := { tick := 500 } }), by decide +kernel⟩

theorem witness_ThrottleAndRelease_8 : ∃ (c : Fin 7) (k : Sys2Proof.ClearedCause) (s : State), ((k = .uvFastpath ∧ c = 0) ∨ (k = .phaseLoss ∧ c = 1) ∨ (k = .rackHold ∧ c = 2 ∧ s.sys.rackHoldSeen = false)) ∧ s.elapsed s.tlk.causeTick[c.val] (ceilDiv s.releaseHold 2) = true ∧ s.tlk.throttleAll = true ∧ s.tlk.causes[c.val] = true ∧ ((∀ d : Fin 7, d ≠ c → s.tlk.causes[d.val] = false)) ∧ ((∀ n, (s.port n).thrOperator = false ∧ (s.port n).thrNoncompliant = false)) :=
  ⟨(0), (.uvFastpath), ({ wPort .run (fun x => { x with throttled := true }) with tlk := { (wPort .run fun x => { x with throttled := true }).tlk with throttleAll := true, causes := updV State.reset.tlk.causes 0 fun _ => true }, sys := { (wPort .run id).sys with tick := 500 } }), by decide +kernel⟩

theorem witness_ThrottleAndRelease_9 : ∃ (n : Fin 64) (s : State), (s.port n).thrNoncompliant = true ∧ s.elapsed (s.port n).badTick (ceilDiv s.releaseHold 2) = true ∧ ((∃ d : Fin 7, d ≠ 4 ∧ s.tlk.causes[d.val] = true)) :=
  ⟨(0), ({ State.reset with tlk := { State.reset.tlk with throttleAll := true, causes := Vector.replicate 7 true, port := updV State.reset.tlk.port 0 fun x => { x with thrNoncompliant := true } }, sys := { tick := 500 } }), by decide +kernel⟩

theorem witness_ThrottleAndRelease_10 : ∃ (sess : Fin 64) (n : Fin 64) (s : State), s.allows sess .or_ = true ∧ (s.port n).state ≠ .unused ∧ s.tlk.releasing = false ∧ ((s.tlk.throttleAll = true ∧ (s.port n).throttled = true) ∨ (s.port n).carriesSets = false) :=
  ⟨(0), (0), (wPort .run fun x => { x with linked := false }), by decide +kernel⟩

theorem witness_ThrottleAndRelease_11 : ∃ (sess : Fin 64) (n : Fin 64) (s : State), s.allows sess .or_ = true ∧ (s.port n).state ≠ .unused :=
  ⟨(0), (0), (wPort .run id), by decide +kernel⟩

theorem witness_ThrottleAndRelease_12 : ∃ (s : State), s.sys.rackHoldSeen = false ∧ s.inState [.run, .basalt] = false :=
  ⟨(State.reset), by decide +kernel⟩

theorem witness_ThrottleAndRelease_13 : ∃ (s : State), s.sys.rackHoldDrive = true :=
  ⟨({ State.reset with sys := { State.reset.sys with rackHoldDrive := true } }), by decide +kernel⟩

theorem witness_ThrottleAndRelease_14 : ∃ (s : State), s.sys.rackHoldSeen = false ∧ s.inState [.run, .basalt] = true :=
  ⟨(wSess .run), by decide +kernel⟩

theorem witness_ThrottleAndRelease_15 : ∃ (s : State), s.sys.rackHoldSeen = true ∧ s.sys.rackHoldDrive = false :=
  ⟨({ State.reset with sys := { State.reset.sys with rackHoldSeen := true } }), by decide +kernel⟩

theorem witness_ThrottleAndRelease_16 : ∃ (s : State), s.sys.state = .run ∧ s.tlk.shareT.all (fun t => decide (t + 3000000 < s.sys.timeNs + 2000)) = true :=
  ⟨(wSess .run), by decide +kernel⟩

theorem witness_RingBringUp_1 : ∃ (c : Fin 4) (s : State), (s.ring c).state = .off ∧ s.lit = true ∧ s.clk.fabricStopped = false :=
  ⟨(0), (wRing .boot .off id), by decide +kernel⟩

theorem witness_RingBringUp_2 : ∃ (c : Fin 4) (s : State), ((s.ring c).state ≠ .off ∨ s.lit = false ∨ s.clk.fabricStopped = true) :=
  ⟨(0), (wRing .boot .ring id), by decide +kernel⟩

theorem witness_RingBringUp_4 : ∃ (c : Fin 4) (s : State), (s.ring c).state = .waking :=
  ⟨(0), (wRing .boot .waking id), by decide +kernel⟩

theorem witness_RingBringUp_5 : ∃ (c : Fin 4) (s : State), (s.ring c).state ≠ .waking :=
  ⟨(0), (State.reset), by decide +kernel⟩

theorem witness_RingBringUp_6 : ∃ (c : Fin 4) (count : Nat) (passed : Bool) (s : State), (s.ring c).state = .enumerating :=
  ⟨(0), (2), (true), (wRing .boot .enumerating id), by decide +kernel⟩

theorem witness_RingBringUp_7 : ∃ (c : Fin 4) (count : Nat) (passed : Bool) (s : State), (s.ring c).state = .enumerating ∧ (s.ring c).enumA = true ∧ (s.ring c).enumPassed = false :=
  ⟨(0), (2), (true), (wRing .boot .enumerating fun x => { x with enumA := true }), by decide +kernel⟩

theorem witness_RingBringUp_8 : ∃ (c : Fin 4) (fromB : Bool) (count : Nat) (passed : Bool) (s : State), ((s.ring c).state ≠ .enumerating ∨ (fromB = true ∧ ((s.ring c).enumA = false ∨ (s.ring c).enumPassed = true))) :=
  ⟨(0), (true), (2), (true), (State.reset), by decide +kernel⟩

theorem witness_RingBringUp_9 : ∃ (c : Fin 4) (l : List Sys2Proof.ChainBlock) (s : State), (s.ring c).state = .enumerating ∧ (s.ring c).enumA = true :=
  ⟨(0), ([wReply 2 [1]]), (wRing .boot .enumerating fun x => { x with enumA := true }), by decide +kernel⟩

theorem witness_RingBringUp_10 : ∃ (c : Fin 4) (l : List Sys2Proof.ChainBlock) (s : State), (s.ring c).state = .twoChain ∧ (s.ring c).recheck = true :=
  ⟨(0), ([wReply 2 [1]]), (wRing .standby .twoChain fun x => { x with recheck := true }), by decide +kernel⟩

theorem witness_RingBringUp_11 : ∃ (c : Fin 4) (l : List Sys2Proof.ChainBlock) (s : State), (¬((s.ring c).state = .enumerating ∧ (s.ring c).enumA = true)) ∧ (¬((s.ring c).state = .twoChain ∧ (s.ring c).recheck = true)) :=
  ⟨(0), ([]), (State.reset), by decide +kernel⟩

theorem witness_RingBringUp_13 : ∃ (c : Fin 4) (n : Fin 16) (fromB : Bool) (trips : List Nat) (l : List Sys2Proof.ChainBlock) (s : State), trips.length = 8 ∧ ((s.ring c).state = .enumerating ∨ (s.ring c).state = .enumerated ∨ (s.ring c).state.up = true) :=
  ⟨(0), (1), (false), (List.replicate 8 6000), ([wReply 2 [0, 0, 0, 0]]), (wRing .boot .enumerating id), by decide +kernel⟩

theorem witness_RingBringUp_14 : ∃ (c : Fin 4) (n : Fin 16) (fromB : Bool) (trips : List Nat) (l : List Sys2Proof.ChainBlock) (s : State), (trips.length ≠ 8 ∨ ((s.ring c).state ≠ .enumerating ∧ (s.ring c).state ≠ .enumerated ∧ (s.ring c).state.up = false)) :=
  ⟨(0), (1), (false), ([]), ([]), (State.reset), by decide +kernel⟩

theorem witness_RingBringUp_15 : ∃ (c : Fin 4) (s : State), (s.ring c).state = .enumerating ∧ (s.ring c).counted = true ∧ (s.ring c).relockBad = false :=
  ⟨(0), ({ wCounted 2 with cfg := State.reset.cfg }), by decide +kernel⟩

theorem witness_RingBringUp_16 : ∃ (c : Fin 4) (s : State), (s.ring c).state = .enumerating ∧ (s.ring c).counted = true ∧ (s.ring c).relockBad = true :=
  ⟨(0), ((wCounted 2).updRing 0 fun x => { x with relock := some (1, 1) }), by decide +kernel⟩

theorem witness_RingBringUp_17 : ∃ (c : Fin 4) (s : State), ((s.ring c).state ≠ .enumerating ∨ (s.ring c).counted = false) :=
  ⟨(0), (State.reset), by decide +kernel⟩

theorem witness_RingBringUp_18 : ∃ (c : Fin 4) (again : Bool) (s : State), (s.ring c).state = .enumerated ∧ s.ringNodes c ≠ 0 ∧ (s.ring c).enumPassed = true ∧ (s.ring c).nA = s.ringNodes c ∧ (s.ring c).nB = 0 ∧ (s.ring c).revMismatch = false :=
  ⟨(0), (false), ((wCounted 2).updRing 0 fun x => { x with state := .enumerated }), by decide +kernel⟩

theorem witness_RingBringUp_19 : ∃ (c : Fin 4) (again : Bool) (s : State), (s.ring c).state = .enumerated ∧ s.ringNodes c ≠ 0 ∧ ((s.ring c).revMismatch = true ∨ s.ringNodes c < (s.ring c).nA + (s.ring c).nB ∨ ((s.ring c).enumPassed = true ∧ (s.ring c).nA ≠ s.ringNodes c)) :=
  ⟨(0), (false), ((wCounted 2).updRing 0 fun x => { x with state := .enumerated, revMismatch := true }), by decide +kernel⟩

theorem witness_RingBringUp_20 : ∃ (c : Fin 4) (s : State), (s.ring c).state = .enumerated ∧ s.ringNodes c ≠ 0 ∧ (s.ring c).enumPassed = false ∧ (s.ring c).nA + (s.ring c).nB = s.ringNodes c ∧ (s.ring c).revMismatch = false :=
  ⟨(0), ((wCounted 2).updRing 0 fun x => { x with state := .enumerated, nA := 1, nB := 1, enumPassed := false, enumB := true, node := updV x.node 15 fun y => { y with delayB := some 1 } }), by decide +kernel⟩

theorem witness_RingBringUp_21 : ∃ (c : Fin 4) (s : State), (s.ring c).state = .failed ∧ (s.sys.state = .boot ∨ s.sys.state = .standby) ∧ s.elapsed (s.ring c).failTick 2500000 = true :=
  ⟨(0), ({ wRing .standby .failed id with sys := { (wRing .standby .failed id).sys with tick := 2499999 } }), by decide +kernel⟩

theorem witness_RingBringUp_22 : ∃ (c : Fin 4) (s : State), ((s.ring c).state ≠ .failed ∨ s.inState [.boot, .standby] = false ∨ s.elapsed (s.ring c).failTick 2500000 = false) :=
  ⟨(0), (State.reset), by decide +kernel⟩

theorem witness_RingBringUp_23 : ∃ (sess : Fin 64) (c : Fin 4) (s : State), (s.ringRec c).isSome = true ∧ s.allows sess .os = true ∧ (s.ring c).state = .failed :=
  ⟨(0), (0), (wRing .standby .failed id), by decide +kernel⟩

theorem witness_RingBringUp_24 : ∃ (sess : Fin 64) (c : Fin 4) (s : State), s.allows sess .os = true ∧ (s.ring c).state ≠ .failed :=
  ⟨(0), (0), (wRing .standby .ring id), by decide +kernel⟩

theorem witness_SweepsOfARing_1 : ∃ (c : Fin 4) (k : Nat) (tempNs : Nat) (u : State) (s : State), s.sweepsOn c = true ∧ (s.ring c).sweep = none ∧ s.sweepTicks c ≠ 0 ∧ s.clk.fabricStopped = false ∧ s.sweepReady c = true ∧ u = s.cadence c tempNs :=
  ⟨(0), (5000), (0), (({ wRing .run .ring (fun x => { x with started := true }) with sys := { (wRing .run .ring id).sys with tick := 4991 } }).cadence 0 0), ({ wRing .run .ring (fun x => { x with started := true }) with sys := { (wRing .run .ring id).sys with tick := 4991 } }), by decide +kernel, by decide +kernel, by decide +kernel, by decide +kernel, by decide +kernel, rfl⟩

theorem witness_SweepsOfARing_2 : ∃ (c : Fin 4) (k : Nat) (tempNs : Nat) (s : State), (s.sweepsOn c = false ∨ (s.ring c).sweep.isSome = true ∨ s.sweepReady c = false) :=
  ⟨(0), (0), (0), (State.reset), by decide +kernel⟩

theorem witness_SweepsOfARing_4 : ∃ (c : Fin 4) (fromB : Bool) (mask : BitVec 16) (l : List Sys2Proof.ChainBlock) (s : State), (s.ring c).sweep.isSome = true :=
  ⟨(0), (false), (1), ([wBlock 29]), (wRing .run .ring fun x => { x with sweep := some wSweep }), by decide +kernel⟩

theorem witness_SweepsOfARing_5 : ∃ (c : Fin 4) (fromB : Bool) (mask : BitVec 16) (l : List Sys2Proof.ChainBlock) (s : State), (s.ring c).sweep = none :=
  ⟨(0), (false), (1), ([]), (State.reset), by decide +kernel⟩

theorem witness_SweepsOfARing_6 : ∃ (c : Fin 4) (b : Sys2Proof.ChainBlock) (l : List Sys2Proof.ChainBlock) (s : State), blockGood b 29 = true :=
  ⟨(0), (wBlock 29), ([]), (wRing .run .ring fun x => { x with sweep := some wSweep }), by decide +kernel⟩

theorem witness_SweepsOfARing_7 : ∃ (c : Fin 4) (b : Sys2Proof.ChainBlock) (l : List Sys2Proof.ChainBlock) (s : State), blockGood b 29 = false :=
  ⟨(0), ({ node := 1, bytes := [7] }), ([]), (wRing .run .ring fun x => { x with sweep := some wSweep }), by decide +kernel⟩

theorem witness_SweepsOfARing_8 : ∃ (c : Fin 4) (l : List Sys2Proof.ChainBlock) (ns : Nat) (w : Sweep) (u : State) (s : State), u = s.takeBlocks c l ∧ (s.ring c).sweep.isSome = true ∧ (u.ring c).sweep = some w ∧ u.breakShown c w = none :=
  ⟨(0), ([]), (5), ({ wSweep with bad := [1, 2] }), ((wRing .run .ring fun x => { x with sweep := some { wSweep with bad := [1, 2] } }).takeBlocks 0 []), (wRing .run .ring fun x => { x with sweep := some { wSweep with bad := [1, 2] } }), rfl, by decide +kernel, by decide +kernel, by decide +kernel⟩

theorem witness_SweepsOfARing_9 : ∃ (c : Fin 4) (l : List Sys2Proof.ChainBlock) (ns : Nat) (a : Nat) (b : Nat) (w : Sweep) (u : State) (s : State), u = s.takeBlocks c l ∧ (s.ring c).sweep.isSome = true ∧ (u.ring c).sweep = some w ∧ u.breakShown c w = some (a, b) :=
  ⟨(0), ([]), (5), (0), (1), (wSweep), ((wRing .run .ring fun x => { x with sweep := some wSweep }).takeBlocks 0 []), (wRing .run .ring fun x => { x with sweep := some wSweep }), rfl, by decide +kernel, by decide +kernel, by decide +kernel⟩

theorem witness_SweepsOfARing_10 : ∃ (c : Fin 4) (l : List Sys2Proof.ChainBlock) (ns : Nat) (s : State), (s.ring c).sweep = none :=
  ⟨(0), ([]), (0), (State.reset), by decide +kernel⟩

theorem witness_SweepsOfARing_11 : ∃ (c : Fin 4) (ns : Nat) (n : Nat) (i : Nat) (k : Nat) (codes : List Nat) (held : Bool) (w : Sweep) (s : State), n ∈ s.nodeList c ∧ (i, k) ∈ s.cellsOf c n ∧ 1 ≤ k ∧ k ≤ 288 ∧ ((∀ m ∈ s.nodeList c, m ≠ n → ∀ x ∈ s.cellsOf c m, x.2 ≠ k)) ∧ w.blocks.find? (fun b => b.1 = n) = some (n, codes, held) ∧ ((s.ring c).nodeAt n).present = true ∧ ((s.ring c).nodeAt n).configured = true ∧ ((s.ring c).nodeAt n).diagDone = true ∧ ((s.ring c).nodeAt n).failedPaths[i]?.getD false = false :=
  ⟨(0), (5), (2), (0), (3), ([5000]), (false), ({ wSweep with blocks := [(2, [5000], false)] }), (wRing .run .ring fun x => { x with node := updV x.node 1 fun y => { y with present := true, configured := true, diagDone := true } }), by decide +kernel⟩

theorem witness_SweepsOfARing_12 : ∃ (c : Fin 4) (ns : Nat) (n : Nat) (i : Nat) (k : Nat) (w : Sweep) (s : State), n ∈ s.nodeList c ∧ (i, k) ∈ s.cellsOf c n ∧ 1 ≤ k ∧ k ≤ 288 ∧ ((∀ m ∈ s.nodeList c, m ≠ n → ∀ x ∈ s.cellsOf c m, x.2 ≠ k)) ∧ w.blocks.find? (fun b => b.1 = n) = none :=
  ⟨(0), (5), (2), (0), (3), (wSweep), (wRing .run .ring id), by decide +kernel⟩

theorem witness_SweepsOfARing_14 : ∃ (c : Fin 4) (k : Fin 288) (n : Nat) (s : State), (s.nodeList c).find? (fun n => (s.cellsOf c n).any fun x => x.2 = k.val + 1) = some n ∧ ((s.ring c).cellAt (k.val + 1)).unmonitored = false ∧ ((s.ring c).cellAt (k.val + 1)).validAt + 500 * s.chn.staleMs ≤ s.sys.tick + 1 :=
  ⟨(0), (2), (2), ({ wRing .run .ring id with sys := { (wRing .run .ring id).sys with tick := 1000000 } }), by decide +kernel⟩

theorem witness_SweepsOfARing_15 : ∃ (c : Fin 4) (k : Fin 288) (s : State), ((s.ring c).cellAt (k.val + 1)).unmonitored = true ∨ s.sys.tick + 1 < ((s.ring c).cellAt (k.val + 1)).validAt + 500 * s.chn.staleMs :=
  ⟨(0), (2), (State.reset), by decide +kernel⟩

theorem witness_SweepsOfARing_16 : ∃ (c : Fin 4) (a : Nat) (b : Nat) (inSweep : Option Bool) (displaced : List Sys2Proof.GapOp) (lost : List Sys2Proof.GapOp) (s : State), (s.ring c).state.up = true ∧ a < b ∧ b ≤ s.ringNodes c + 1 :=
  ⟨(0), (1), (2), (some true), ([.slot]), ([.bal 0]), (wRing .run .ring fun x => { x with sweep := some wSweep }), by decide +kernel⟩

theorem witness_SweepsOfARing_17 : ∃ (c : Fin 4) (a : Nat) (b : Nat) (inSweep : Option Bool) (displaced : List Sys2Proof.GapOp) (lost : List Sys2Proof.GapOp) (s : State), ((s.ring c).state.up = false ∨ b ≤ a ∨ s.ringNodes c + 1 < b) :=
  ⟨(0), (1), (2), (none), ([]), ([]), (State.reset), by decide +kernel⟩

theorem witness_SweepsOfARing_19 : ∃ (c : Fin 4) (a : Nat) (b : Nat) (s : State), (s.ring c).state = .ring ∧ a < b ∧ b ≤ s.ringNodes c + 1 ∧ s.sys.passage = .none :=
  ⟨(0), (1), (2), (wRing .run .ring id), by decide +kernel⟩

theorem witness_SweepsOfARing_20 : ∃ (c : Fin 4) (a : Nat) (w : Sweep) (s : State), (s.ring c).sweep = some w :=
  ⟨(0), (1), (wSweep), (wRing .run .ring fun x => { x with sweep := some wSweep }), by decide +kernel⟩

theorem witness_SweepsOfARing_21 : ∃ (c : Fin 4) (fromB : Bool) (passed : Bool) (l : List Sys2Proof.ChainBlock) (a : Nat) (b : Nat) (s : State), ((s.ring c).state.up = true ∨ (s.ring c).state = .enumerated) ∧ s.gapFor c (.probe 0) = true ∧ (¬((s.ring c).state = .ring ∧ fromB = false ∧ passed = false)) :=
  ⟨(0), (false), (true), ([]), (0), (0), (wRing .run .twoChain fun x => { x with brk := some (2, 3) }), by decide +kernel⟩

theorem witness_SweepsOfARing_22 : ∃ (c : Fin 4) (l : List Sys2Proof.ChainBlock) (a : Nat) (b : Nat) (s : State), (s.ring c).state = .ring ∧ s.gapFor c (.probe 0) = true :=
  ⟨(0), ([]), (1), (2), (wRing .run .ring id), by decide +kernel⟩

theorem witness_SweepsOfARing_23 : ∃ (c : Fin 4) (n : Fin 17) (fromB : Bool) (passed : Bool) (l : List Sys2Proof.ChainBlock) (a : Nat) (b : Nat) (s : State), n ≠ 0 ∧ ((s.ring c).state.up = true ∨ (s.ring c).state = .enumerated) ∧ s.gapFor c (.probe n) = true :=
  ⟨(0), (2), (false), (true), ([wReply 2 [0, 0, 0, 0]]), (0), (0), (wRing .run .ring id), by decide +kernel⟩

theorem witness_SweepsOfARing_24 : ∃ (c : Fin 4) (n : Fin 17) (fromB : Bool) (passed : Bool) (l : List Sys2Proof.ChainBlock) (a : Nat) (b : Nat) (s : State), (((s.ring c).state.up = false ∧ (s.ring c).state ≠ .enumerated) ∨ s.gapFor c (.probe n) = false) :=
  ⟨(0), (2), (false), (true), ([]), (0), (0), (State.reset), by decide +kernel⟩

theorem witness_SweepsOfARing_26 : ∃ (c : Fin 4) (n : Nat) (ok : Bool) (s : State), (s.ring c).state = .twoChain ∧ n = s.probeTarget c false :=
  ⟨(0), (0), (true), (wRing .run .twoChain fun x => { x with brk := some (2, 3) }), by decide +kernel⟩

theorem witness_SweepsOfARing_27 : ∃ (c : Fin 4) (s : State), (s.ring c).state = .twoChain ∧ 3 ≤ (s.ring c).probeA.1 ∧ 3 ≤ (s.ring c).probeB.1 ∧ (s.nodeList c).any (s.nodeMissing c) = false ∧ s.delaysWritten c = true :=
  ⟨(0), (wRing .run .twoChain fun x => { x with probeA := (3, 0), probeB := (3, 0), brk := some (1, 2), node := x.node.map fun y => { y with configured := true, delayA := some 1, delayB := some 2, cfgDelays := some (some 1, some 2) } }), by decide +kernel⟩

theorem witness_SweepsOfARing_28 : ∃ (c : Fin 4) (s : State), ((s.ring c).state ≠ .twoChain ∨ (s.ring c).probeA.1 < 3 ∨ (s.ring c).probeB.1 < 3 ∨ (s.nodeList c).any (s.nodeMissing c) = true ∨ s.delaysWritten c = false) :=
  ⟨(0), (State.reset), by decide +kernel⟩

theorem witness_SweepsOfARing_29 : ∃ (c : Fin 4) (l : List Sys2Proof.ChainBlock) (s : State), (s.ring c).state.up = true ∧ (s.ring c).sweep = none :=
  ⟨(0), ([wBlock 11]), (wRing .run .ring id), by decide +kernel⟩

theorem witness_SweepsOfARing_30 : ∃ (c : Fin 4) (l : List Sys2Proof.ChainBlock) (s : State), ((s.ring c).state.up = false ∨ (s.ring c).sweep.isSome = true) :=
  ⟨(0), ([]), (State.reset), by decide +kernel⟩

theorem witness_SweepsOfARing_31 : ∃ (c : Fin 4) (b : Sys2Proof.ChainBlock) (s : State), s.ringNodes c = 1 ∧ blockGood b 11 = true ∧ blockFrom b = 1 :=
  ⟨(0), (wBlock 11), ({ wRing .run .ring id with cfg := (wWith [wRec 0x0701 32 [(8, 1, 0), (9, 1, 1), (10, 1, 0), (12, 2, 100)]] State.reset).cfg }), by decide +kernel⟩

theorem witness_NodesAndTheirCells_1 : ∃ (c : Fin 4) (n : Fin 16) (l : List Sys2Proof.ChainBlock) (s : State), s.nodeGap c (n.val + 1) (.config n) = true ∧ (s.ring c).recheck = false ∧ (((s.ring c).nodeAt (n.val + 1)).delayA.isSome = true ∨ ((s.ring c).nodeAt (n.val + 1)).delayB.isSome = true) :=
  ⟨(0), (1), ([wReply 2 [0]]), (wRing .run .ring fun x => { x with node := updV x.node 1 fun y => { y with delayA := some 1 } }), by decide +kernel⟩

theorem witness_NodesAndTheirCells_2 : ∃ (c : Fin 4) (n : Fin 16) (l : List Sys2Proof.ChainBlock) (s : State), s.nodeGap c (n.val + 1) (.config n) = false ∨ (s.ring c).recheck = true :=
  ⟨(0), (1), ([]), (State.reset), by decide +kernel⟩

theorem witness_NodesAndTheirCells_3 : ∃ (c : Fin 4) (n : Fin 16) (l : List Sys2Proof.ChainBlock) (b : Sys2Proof.ChainBlock) (s : State), s.nodeGap c (n.val + 1) (.diag n) = true ∧ (repliesOf (n.val + 1) 40 l).getLast? = some b :=
  ⟨(0), (1), ([wReply 2 (List.replicate 38 0)]), (wReply 2 (List.replicate 38 0)), (wRing .run .ring fun x => { x with node := updV x.node 1 fun y => { y with configured := true } }), by decide +kernel⟩

theorem witness_NodesAndTheirCells_4 : ∃ (c : Fin 4) (n : Fin 16) (l : List Sys2Proof.ChainBlock) (s : State), s.nodeGap c (n.val + 1) (.diag n) = true ∧ repliesOf (n.val + 1) 40 l = [] :=
  ⟨(0), (1), ([]), (wRing .run .ring id), by decide +kernel⟩

theorem witness_NodesAndTheirCells_5 : ∃ (c : Fin 4) (n : Fin 16) (l : List Sys2Proof.ChainBlock) (s : State), s.nodeGap c (n.val + 1) (.diag n) = false :=
  ⟨(0), (1), ([]), (State.reset), by decide +kernel⟩

theorem witness_NodesAndTheirCells_6 : ∃ (c : Fin 4) (n : Fin 16) (devs : List Int) (s : State), (s.ring c).node[n.val].configured = true ∧ ((∀ p : Fin 19, (s.ring c).node[n.val].failedPaths[p.val] = false)) ∧ ((∀ p : Fin 19, (devs.getD p.val 0).natAbs ≤ 100 * s.chn.diagTol)) :=
  ⟨(0), (1), ([100, -200]), (wRing .run .ring fun x => { x with node := updV x.node 1 fun y => { y with configured := true } }), by decide +kernel⟩

theorem witness_NodesAndTheirCells_7 : ∃ (sess : Fin 64) (c : Fin 4) (s : State), (s.ringRec c).isSome = true ∧ s.allows sess .oa = true :=
  ⟨(0), (0), (wRing .run .ring id), by decide +kernel⟩

theorem witness_NodesAndTheirCells_8 : ∃ (c : Fin 4) (n : Fin 16) (s : State), s.nodeGap c (n.val + 1) (.bal n) = true :=
  ⟨(0), (0), (wRing .run .ring id), by decide +kernel⟩

theorem witness_NodesAndTheirCells_9 : ∃ (c : Fin 4) (n : Fin 16) (s : State), s.nodeGap c (n.val + 1) (.bal n) = false :=
  ⟨(0), (0), (State.reset), by decide +kernel⟩

theorem witness_NodesAndTheirCells_11 : ∃ (c : Fin 4) (s : State), (s.ring c).state.up = true ∧ s.gapFor c .slot = true :=
  ⟨(0), (wRing .run .ring id), by decide +kernel⟩

theorem witness_NodesAndTheirCells_12 : ∃ (c : Fin 4) (s : State), ((s.ring c).state.up = false ∨ s.gapFor c .slot = false) :=
  ⟨(0), (State.reset), by decide +kernel⟩

theorem witness_NodesAndTheirCells_13 : ∃ (c : Fin 4) (s : State), s.sweepsOn c = true :=
  ⟨(0), (wRing .run .twoChain id), by decide +kernel⟩

theorem witness_NodesAndTheirCells_14 : ∃ (c : Fin 4) (s : State), s.sweepsOn c = false :=
  ⟨(0), (State.reset), by decide +kernel⟩

theorem witness_NodesAndTheirCells_15 : ∃ (c : Fin 4) (onA : Bool) (onB : Bool) (lost : List Nat) (s : State), (onA = true ∨ onB = true) ∧ (s.ring c).state ≠ .waking ∧ (s.ring c).state ≠ .enumerating ∧ ((s.power.powered = true ∧ (s.ring c).state ≠ .off) ∨ (s.power.powered = false ∧ (s.power.stby12Ok = true ∨ s.power.aux54Ok = true))) :=
  ⟨(0), (true), (true), ([2]), (wRing .run .ring id), by decide +kernel⟩

theorem witness_NodesAndTheirCells_16 : ∃ (c : Fin 4) (onA : Bool) (onB : Bool) (lost : List Nat) (s : State), ((onA = false ∧ onB = false) ∨ (s.ring c).state = .waking ∨ (s.ring c).state = .enumerating ∨ ((s.ring c).state = .off ∧ s.power.powered = true)) :=
  ⟨(0), (false), (false), ([]), (State.reset), by decide +kernel⟩

theorem witness_NodesAndTheirCells_17 : ∃ (c : Fin 4) (l : List Sys2Proof.ChainBlock) (s : State), (s.ring c).state = .shipping ∧ s.sweepsOn c = false ∧ ((s.ring c).shipTries = 0 ∨ ((s.ring c).shipTries < 3 ∧ s.elapsed (s.ring c).shipAt 5000 = true)) :=
  ⟨(0), ([wReply 1 [0], wReply 2 [0]]), ({ wRing .shipPrep .shipping id with est := State.reset.est }), by decide +kernel⟩

theorem witness_NodesAndTheirCells_18 : ∃ (c : Fin 4) (l : List Sys2Proof.ChainBlock) (s : State), ((s.ring c).state ≠ .shipping ∨ s.sweepsOn c = true ∨ 3 ≤ (s.ring c).shipTries) :=
  ⟨(0), ([]), (State.reset), by decide +kernel⟩

theorem witness_NodesAndTheirCells_19 : ∃ (c : Fin 4) (s : State), (s.ring c).state = .shipping ∧ ((∀ n ∈ s.nodeList c, ((s.ring c).nodeAt n).present = true → ((s.ring c).nodeAt n).shipped = true)) :=
  ⟨(0), (wRing .shipPrep .shipping fun r => { r with node := r.node.map fun x => { x with shipped := true } }), by decide +kernel⟩

theorem witness_NodesAndTheirCells_20 : ∃ (c : Fin 4) (n : Fin 16) (s : State), (s.ring c).state = .shipping ∧ ((s.ring c).nodeAt (n.val + 1)).present = true ∧ ((s.ring c).nodeAt (n.val + 1)).shipped = false ∧ (s.ring c).shipTries = 3 ∧ s.elapsed (s.ring c).shipAt 5000 = true :=
  ⟨(0), (0), ({ wRing .shipPrep .shipping (fun r => { r with shipTries := 3 }) with sys := { (wRing .shipPrep .shipping id).sys with tick := 5000 } }), by decide +kernel⟩

theorem witness_NodesAndTheirCells_21 : ∃ (c : Fin 4) (n : Fin 16) (s : State), ((s.ring c).state ≠ .shipping ∨ (s.ring c).shipTries ≠ 3 ∨ ((s.ring c).nodeAt (n.val + 1)).shipped = true) :=
  ⟨(0), (0), (State.reset), by decide +kernel⟩

theorem witness_ContactorsOfAString_1 : ∃ (sess : Fin 64) (c : Fin 4) (s : State), (s.ringRec c).isSome = true ∧ s.allows sess .osa = true :=
  ⟨(0), (0), (wRing .standby .ring fun x => { x with ctr := .closed }), by decide +kernel⟩

theorem witness_ContactorsOfAString_2 : ∃ (sess : Fin 64) (c : Fin 4) (n : Nat) (s : State), (s.ringRec c).isSome = true ∧ s.allows sess .osa = true ∧ s.ctrNode c = some n :=
  ⟨(0), (0), (1), (wRing .standby .ring id), by decide +kernel⟩

theorem witness_ContactorsOfAString_3 : ∃ (sess : Fin 64) (c : Fin 4) (s : State), (s.ringRec c).isSome = true ∧ s.allows sess .osa = true ∧ s.ctrNode c = none :=
  ⟨(0), (0), (wWith [wRec 0x0701 32 [(8, 1, 0), (9, 1, 1), (10, 1, 0), (12, 2, 100)]] (wSess .standby)), by decide +kernel⟩

theorem witness_ContactorsOfAString_4 : ∃ (c : Fin 4) (close : Bool) (s : State), (s.ring c).ctrCmd = some close :=
  ⟨(0), (true), (wRing .standby .ring fun x => { x with ctrCmd := some true }), by decide +kernel⟩

theorem witness_ContactorsOfAString_5 : ∃ (c : Fin 4) (close : Bool) (s : State), (s.ring c).ctrCmd ≠ some close :=
  ⟨(0), (true), (State.reset), by decide +kernel⟩

theorem witness_ContactorsOfAString_6 : ∃ (c : Fin 4) (n : Nat) (s : State), s.ctrNode c = some n ∧ ((s.ring c).state.up = true ∨ (s.ring c).state = .shipping) ∧ ((s.ring c).nodeAt n).present = true :=
  ⟨(0), (1), (wRing .standby .ring fun x => { x with ctr := .closed }), by decide +kernel⟩

theorem witness_ContactorsOfAString_7 : ∃ (c : Fin 4) (n : Nat) (s : State), s.ctrNode c = some n ∧ ((s.ring c).state.up = true ∨ (s.ring c).state = .shipping) ∧ ((s.ring c).nodeAt n).present = true :=
  ⟨(0), (1), (wRing .standby .ring id), by decide +kernel⟩

theorem witness_ContactorsOfAString_8 : ∃ (c : Fin 4) (n : Nat) (close : Bool) (s : State), s.ctrNode c = some n ∧ (((s.ring c).state.up = false ∧ (s.ring c).state ≠ .shipping) ∨ ((s.ring c).nodeAt n).present = false) :=
  ⟨(0), (1), (true), (wRing .standby .failed id), by decide +kernel⟩

theorem witness_ContactorsOfAString_9 : ∃ (c : Fin 4) (n : Nat) (s : State), s.ctrNode c = some n ∧ (s.ring c).ctr = .precharge :=
  ⟨(0), (1), (wRing .standby .ring fun x => { x with ctr := .precharge }), by decide +kernel⟩

theorem witness_ContactorsOfAString_10 : ∃ (c : Fin 4) (s : State), (s.ctrNode c = none ∨ (s.ring c).ctr ≠ .precharge) :=
  ⟨(0), (State.reset), by decide +kernel⟩

theorem witness_ContactorsOfAString_11 : ∃ (c : Fin 4) (i : Fin 4) (s : State), s.ringStr c = i.val :=
  ⟨(0), (0), (wRing .standby .ring id), by decide +kernel⟩

theorem witness_ContactorsOfAString_12 : ∃ (c : Fin 4) (n : Nat) (s : State), s.ctrNode c = some n :=
  ⟨(0), (1), (wRing .standby .ring id), by decide +kernel⟩

theorem witness_ContactorsOfAString_13 : ∃ (c : Fin 4) (n : Nat) (s : State), s.ctrNode c = some n ∧ s.sys.passage = .none :=
  ⟨(0), (1), (wRing .standby .ring id), by decide +kernel⟩

theorem witness_ContactorsOfAString_14 : ∃ (c : Fin 4) (s : State), s.ctrNode c = none :=
  ⟨(0), (State.reset), by decide +kernel⟩

theorem witness_EstimatesOfAString_1 : ∃ (i : Fin 4) (s : State), s.lit = true ∧ s.due 500 s.est.estTick = true ∧ s.sys.state = .run ∧ i ∈ s.strings ∧ (s.estr i).socSet = true ∧ (s.shunt i).dead = false :=
  ⟨(0), (wStr .run fun x => { x with socSet := true, soc := 4294967296000, cap := 3276800000 }), by decide +kernel⟩

theorem witness_EstimatesOfAString_2 : ∃ (i : Fin 4) (s : State), s.lit = true ∧ s.due 500 s.est.estTick = true ∧ s.sys.state = .run ∧ i ∈ s.strings ∧ (s.estr i).socSet = true ∧ (s.shunt i).dead = true :=
  ⟨(0), ({ wStr .run (fun x => { x with socSet := true }) with afe := { State.reset.afe with shunt := State.reset.afe.shunt.map fun x => { x with dead := true } } }), by decide +kernel⟩

theorem witness_EstimatesOfAString_3 : ∃ (i : Fin 4) (s : State), ((s.estr i).socSet = false ∨ i ∉ s.strings) :=
  ⟨(0), (wStr .run id), by decide +kernel⟩

theorem witness_EstimatesOfAString_4 : ∃ (s : State), (s.inState [.armed, .run, .basalt] = false ∨ s.due 500 s.est.estTick = false) :=
  ⟨(State.reset), by decide +kernel⟩

theorem witness_EstimatesOfAString_5 : ∃ (i : Fin 4) (s : State), (s.estr i).conflict = false ∧ 1000 * s.ecl16 0x16 10 ≤ (s.estr i).diffMs :=
  ⟨(0), (wStr .run fun x => { x with diffMs := 10000 }), by decide +kernel⟩

theorem witness_EstimatesOfAString_6 : ∃ (i : Fin 4) (s : State), ((s.estr i).conflict = true ∨ (s.estr i).diffMs < 1000 * s.ecl16 0x16 10) :=
  ⟨(0), (wStr .run id), by decide +kernel⟩

theorem witness_EstimatesOfAString_7 : ∃ (i : Fin 4) (s : State), ((s.estr i).conflict = false ∨ (s.estr i).sameMs < 1000 * s.ecl16 0x16 10) :=
  ⟨(0), (wStr .run id), by decide +kernel⟩

theorem witness_EstimatesOfAString_8 : ∃ (i : Fin 4) (s : State), (s.estr i).conflict = true ∧ 1000 * s.ecl16 0x16 10 ≤ (s.estr i).sameMs :=
  ⟨(0), (wStr .run fun x => { x with conflict := true, sameMs := 10000 }), by decide +kernel⟩

theorem witness_PlannerCycle_1 : ∃ (defers : Bool) (s : State), s.lit = true ∧ s.due 50000 s.est.planTick = true :=
  ⟨(true), (wNet .standby), by decide +kernel⟩

theorem witness_PlannerCycle_2 : ∃ (defers : Bool) (s : State), (s.lit = false ∨ s.due 50000 s.est.planTick = false) :=
  ⟨(true), ({ State.reset with sys := { tick := 1 } }), by decide +kernel⟩

theorem witness_PlannerCycle_3 : ∃ (s : State), s.sys.state = .run ∧ (s.prot.coolN = 0 ∨ s.param 0x0013 0 = 0 ∨ divHE s.prot.coolSum s.prot.coolN < s.limit 10) :=
  ⟨(wStr .run fun x => { x with healthy := true, socSet := true, soc := 9000 * 2 ^ 32 }), by decide +kernel⟩

theorem witness_PlannerCycle_4 : ∃ (s : State), s.sys.state ≠ .run ∧ (s.prot.coolN = 0 ∨ s.param 0x0013 0 = 0 ∨ divHE s.prot.coolSum s.prot.coolN < s.limit 10) :=
  ⟨(wNet .standby), by decide +kernel⟩

theorem witness_PlannerCycle_5 : ∃ (s : State), s.est.accN ≠ 0 :=
  ⟨({ wStr .run id with est := { (wStr .run id).est with accN := 2, accLoad := 7 } }), by decide +kernel⟩

theorem witness_RestsOfStrings_1 : ∃ (s : State), s.sys.state = .run ∧ s.est.blocked = true ∧ s.elapsed s.est.triedTick 5000000 = true :=
  ⟨(wRests), by decide +kernel⟩

theorem witness_RestsOfStrings_2 : ∃ (s : State), (s.sys.state ≠ .run ∨ s.est.blocked = false ∨ s.elapsed s.est.triedTick 5000000 = false) :=
  ⟨(State.reset), by decide +kernel⟩

theorem witness_RestsOfStrings_3 : ∃ (i : Fin 4) (s : State), s.restCandidate = some i ∧ 2 ≤ s.healthyStrs.length ∧ ({ s with est := { s.est with triedTick := s.sys.tick } }).restAllowed i = true :=
  ⟨(0), (wRests), by decide +kernel⟩

theorem witness_RestsOfStrings_4 : ∃ (i : Fin 4) (s : State), s.restCandidate = some i ∧ 2 ≤ s.healthyStrs.length ∧ ({ s with est := { s.est with triedTick := s.sys.tick } }).restAllowed i = false :=
  ⟨(0), ({ wRests with est := { wRests.est with eclipseEn := false } }), by decide +kernel⟩

theorem witness_RestsOfStrings_5 : ∃ (s : State), s.healthyStrs.length < 2 :=
  ⟨(State.reset), by decide +kernel⟩

theorem witness_RestsOfStrings_6 : ∃ (i : Fin 4) (s : State), (s.estr i).rest = .rampDown ∧ (s.estr i).restRamp = 0 ∧ (s.shunt i).i.natAbs ≤ s.restImax :=
  ⟨(0), (wStr .run fun x => { x with rest := .rampDown, restRamp := 0 }), by decide +kernel⟩

theorem witness_RestsOfStrings_7 : ∃ (i : Fin 4) (s : State), ((s.estr i).rest ≠ .rampDown ∨ (s.estr i).restRamp ≠ 0 ∨ s.restImax < (s.shunt i).i.natAbs) :=
  ⟨(0), (wStr .run id), by decide +kernel⟩

theorem witness_RestsOfStrings_8 : ∃ (i : Fin 4) (s : State), (s.estr i).rest = .relaxing ∧ s.elapsed (s.estr i).relaxAt (500000 * s.relaxS) = true :=
  ⟨(0), ({ wStr .run (fun x => { x with rest := .relaxing }) with sys := { (wStr .run id).sys with tick := 10 ^ 10 } }), by decide +kernel⟩

theorem witness_RestsOfStrings_9 : ∃ (i : Fin 4) (s : State), ((s.estr i).rest ≠ .relaxing ∨ s.elapsed (s.estr i).relaxAt (500000 * s.relaxS) = false) :=
  ⟨(0), (wStr .run id), by decide +kernel⟩

theorem witness_RestsOfStrings_10 : ∃ (i : Fin 4) (s : State), (s.estr i).rest = .reading ∧ s.elapsed (s.estr i).relaxAt (500000 * s.restS) = true :=
  ⟨(0), ({ wStr .run (fun x => { x with rest := .reading, readN := 2, readSum := 5, conflict := true }) with sys := { (wStr .run id).sys with tick := 10 ^ 10 } }), by decide +kernel⟩

theorem witness_RestsOfStrings_11 : ∃ (i : Fin 4) (s : State), ((s.estr i).rest ≠ .reading ∨ s.elapsed (s.estr i).relaxAt (500000 * s.restS) = false) :=
  ⟨(0), (wStr .run id), by decide +kernel⟩

theorem witness_RestsOfStrings_12 : ∃ (i : Fin 4) (s : State), (s.estr i).rest = .rampUp ∧ (s.estr i).restRamp = 50000 :=
  ⟨(0), (wStr .run fun x => { x with rest := .rampUp }), by decide +kernel⟩

theorem witness_RestsOfStrings_13 : ∃ (i : Fin 4) (s : State), ((s.estr i).rest ≠ .rampUp ∨ (s.estr i).restRamp ≠ 50000) :=
  ⟨(0), (wStr .run id), by decide +kernel⟩

theorem witness_RestsOfStrings_14 : ∃ (s : State), (List.finRange 4).any s.restOver = true :=
  ⟨(wStr .armed fun x => { x with rest := .relaxing }), by decide +kernel⟩

theorem witness_RestsOfStrings_15 : ∃ (s : State), (List.finRange 4).any s.restOver = false :=
  ⟨(State.reset), by decide +kernel⟩

theorem witness_RestsOfStrings_16 : ∃ (sess : Fin 64) (s : State), s.allows sess .or_ = true :=
  ⟨(0), (wStr .run id), by decide +kernel⟩

theorem witness_RestsOfStrings_17 : ∃ (sess : Fin 64) (v : Bool) (s : State), s.allows sess .or_ = true :=
  ⟨(0), (false), (wStr .run id), by decide +kernel⟩

theorem witness_RestsOfStrings_18 : ∃ (sess : Fin 64) (mask : BitVec 4) (s : State), s.allows sess .or_ = true :=
  ⟨(0), (1), (wStr .run id), by decide +kernel⟩

theorem witness_EthernetPort_1 : ∃ (s : State), s.power.powered = true ∧ s.power.inputLoss = false ∧ s.net.linkUp = false ∧ (s.sec.fwRunning = true ∨ s.sec.recovery = true) :=
  ⟨({ State.reset with power := { State.reset.power with powered := true }, sec := { State.reset.sec with fwRunning := true } }), by decide +kernel⟩

theorem witness_EthernetPort_2 : ∃ (s : State), (s.power.powered = false ∨ s.power.inputLoss = true ∨ s.net.linkUp = true ∨ (s.sec.fwRunning = false ∧ s.sec.recovery = false)) :=
  ⟨(State.reset), by decide +kernel⟩

theorem witness_EthernetPort_3 : ∃ (s : State), s.net.linkUp = true :=
  ⟨(wNet .run), by decide +kernel⟩

theorem witness_EthernetPort_4 : ∃ (s : State), s.net.linkUp = false :=
  ⟨(State.reset), by decide +kernel⟩

theorem witness_EthernetPort_5 : ∃ (sci : BitVec 64) (s : State), s.net.linkUp = true ∧ s.net.cak.isSome = true ∧ s.net.macsecUp = false ∧ s.net.rxSc = [] :=
  ⟨(7), ({ wNet .run with net := { (wNet .run).net with cak := some [] } }), by decide +kernel⟩

theorem witness_EthernetPort_6 : ∃ (sci : BitVec 64) (s : State), s.net.linkUp = true ∧ s.net.cak.isSome = true ∧ s.net.macsecUp = true ∧ sci ∉ s.net.rxSc ∧ s.net.rxSc.length < 4 :=
  ⟨(7), ({ wNet .run with net := { (wNet .run).net with cak := some [], macsecUp := true, rxSc := [1, 2, 3] } }), by decide +kernel⟩

theorem witness_EthernetPort_7 : ∃ (sci : BitVec 64) (s : State), (s.net.linkUp = false ∨ s.net.cak = none ∨ sci ∈ s.net.rxSc ∨ 4 ≤ s.net.rxSc.length) :=
  ⟨(7), (wNet .run), by decide +kernel⟩

theorem witness_EthernetPort_8 : ∃ (s : State), s.net.macsecUp = true :=
  ⟨({ State.reset with net := { State.reset.net with macsecUp := true, rxSc := [1] } }), by decide +kernel⟩

theorem witness_EthernetPort_9 : ∃ (s : State), s.net.macsecUp = false :=
  ⟨(State.reset), by decide +kernel⟩

theorem witness_EthernetPort_12 : ∃ (v6 : Bool) (f : Sys2Proof.FramePath) (ident : BitVec 32) (s : State), s.net.ready = true ∧ s.net.linkUp = true ∧ s.framed f = true ∧ s.mustDrop f = false ∧ (v6 = true ∨ s.net.ipv4En = true) ∧ (s.net.echoes.filter fun t => s.sys.tick < t + 500000).length < 100 :=
  ⟨(true), (wPath), (3), (wNet .run), by decide +kernel⟩

theorem witness_EthernetPort_13 : ∃ (v6 : Bool) (f : Sys2Proof.FramePath) (ident : BitVec 32) (s : State), s.net.ready = true ∧ s.net.linkUp = true ∧ s.framed f = true ∧ s.mustDrop f = false ∧ (v6 = true ∨ s.net.ipv4En = true) ∧ 100 ≤ (s.net.echoes.filter fun t => s.sys.tick < t + 500000).length :=
  ⟨(true), (wPath), (3), ({ wNet .run with net := { (wNet .run).net with echoes := List.replicate 100 0 } }), by decide +kernel⟩

theorem witness_EthernetPort_14 : ∃ (v6 : Bool) (arp : Bool) (f : Sys2Proof.FramePath) (ident : BitVec 32) (target : List Byte) (s : State), s.net.ready = true ∧ s.net.linkUp = true ∧ s.framed f = true ∧ (s.mustDrop f = true ∨ (v6 = false ∧ arp = true ∧ s.net.ipv4En = false)) :=
  ⟨(false), (true), (wPath), (3), ([]), (wNet .run), by decide +kernel⟩

theorem witness_EthernetPort_15 : ∃ (v6 : Bool) (arp : Bool) (f : Sys2Proof.FramePath) (ident : BitVec 32) (target : List Byte) (s : State), (s.net.ready = false ∨ s.net.linkUp = false ∨ s.framed f = false) :=
  ⟨(true), (true), (wPath), (3), ([]), (State.reset), by decide +kernel⟩

theorem witness_EthernetPort_16 : ∃ (arp : Bool) (f : Sys2Proof.FramePath) (target : List Byte) (s : State), s.net.ready = true ∧ s.net.linkUp = true ∧ s.framed f = true ∧ s.mustDrop f = false ∧ ((arp = false ∧ (target = s.linkLocal ∨ target = s.ip6Bytes)) ∨ (arp = true ∧ s.net.ipv4En = true ∧ target = leBytes 4 s.net.ip4)) :=
  ⟨(false), (wPath), ((wNet .run).linkLocal), (wNet .run), by decide +kernel⟩

theorem witness_EthernetPort_17 : ∃ (arp : Bool) (f : Sys2Proof.FramePath) (target : List Byte) (s : State), s.net.ready = true ∧ s.net.linkUp = true ∧ s.framed f = true ∧ s.mustDrop f = false ∧ ((arp = false ∧ target ≠ s.linkLocal ∧ target ≠ s.ip6Bytes) ∨ (arp = true ∧ s.net.ipv4En = true ∧ target ≠ leBytes 4 s.net.ip4)) :=
  ⟨(false), (wPath), ([]), (wNet .run), by decide +kernel⟩

theorem witness_EthernetPort_18 : ∃ (f : Sys2Proof.FramePath) (s : State), s.net.ready = true ∧ s.net.linkUp = true ∧ s.framed f = true :=
  ⟨(wPath), (wNet .run), by decide +kernel⟩

theorem witness_EthernetPort_19 : ∃ (s : State), (s.sys.state = .run ∨ s.sys.state = .basalt) ∧ s.sys.orphan = false ∧ s.elapsedNs s.net.rmFrom (1000000 * s.net.timeoutMs) = true :=
  ⟨({ wSess .run with sys := { (wSess .run).sys with tick := 10 ^ 10 } }), by decide +kernel⟩

theorem witness_EthernetPort_20 : ∃ (s : State), (s.inState [.run, .basalt] = false ∨ s.sys.orphan = true ∨ s.elapsedNs s.net.rmFrom (1000000 * s.net.timeoutMs) = false) :=
  ⟨(State.reset), by decide +kernel⟩

theorem witness_EthernetPort_21 : ∃ (q : Fin 16) (m : Msg) (l : List Msg) (s : State), (s.sec.fwRunning = true ∨ s.sec.recovery = true) ∧ s.net.q[q.val].msgs = m :: l :=
  ⟨(1), ({ sess := 0, inner := wInner 1 [], arrival := 0 }), ([]), (wMsg 1 1 .run), by decide +kernel⟩

theorem witness_EthernetPort_22 : ∃ (q : Fin 16) (s : State), (s.sec.fwRunning = true ∨ s.sec.recovery = true) ∧ s.net.q[q.val].msgs = [] :=
  ⟨(1), (wNet .run), by decide +kernel⟩

theorem witness_EthernetPort_23 : ∃ (q : Fin 16) (s : State), s.sec.fwRunning = false ∧ s.sec.recovery = false :=
  ⟨(1), (State.reset), by decide +kernel⟩

theorem witness_SessionsOpenAndClose_2 : ∃ (d : Sys2Proof.Datagram) (s : State), s.net.linkUp = true ∧ s.framed d.path = true ∧ (s.mustDrop d.path = true ∨ (d.dst = 2 ∧ s.net.ipv4En = false)) :=
  ⟨({ wData 1 0 0 [] with dst := 2 }), (wNet .run), by decide +kernel⟩

theorem witness_SessionsOpenAndClose_3 : ∃ (d : Sys2Proof.Datagram) (s : State), hcpFramed d.bytes 1 = true ∧ s.net.linkUp = true ∧ s.framed d.path = true ∧ s.mustDrop d.path = false ∧ (d.dst ≠ 2 ∨ s.net.ipv4En = true) ∧ s.net.ready = false :=
  ⟨(wData 1 0 0 []), ({ wNet .run with net := { (wNet .run).net with ready := false } }), by decide +kernel⟩

theorem witness_SessionsOpenAndClose_4 : ∃ (d : Sys2Proof.Datagram) (s : State), hcpFramed d.bytes 1 = true ∧ s.net.linkUp = true ∧ s.framed d.path = true ∧ s.mustDrop d.path = false ∧ (d.dst ≠ 2 ∨ s.net.ipv4En = true) ∧ s.net.ready = true ∧ at32 d.bytes 4 ≠ 0 ∧ (s.net.hs.find? fun h => !h.replied && h.peer == d.peer && h.port = d.port.toNat) = none :=
  ⟨(wData 1 3 0 []), (wNet .run), by decide +kernel⟩

theorem witness_SessionsOpenAndClose_5 : ∃ (d : Sys2Proof.Datagram) (s : State), hcpFramed d.bytes 1 = true ∧ s.net.linkUp = true ∧ s.framed d.path = true ∧ s.mustDrop d.path = false ∧ (d.dst ≠ 2 ∨ s.net.ipv4En = true) ∧ s.net.ready = true ∧ at32 d.bytes 4 = 0 ∧ (s.net.hs.find? fun h => !h.replied && h.peer == d.peer && h.port = d.port.toNat) = none ∧ (8 ≤ s.net.hs.length ∨ s.freeSess = none) :=
  ⟨(wData 1 0 0 []), ({ wNet .run with net := { (wNet .run).net with hs := List.replicate 8 wHs } }), by decide +kernel⟩

theorem witness_SessionsOpenAndClose_6 : ∃ (d : Sys2Proof.Datagram) (n : Fin 64) (s : State), hcpFramed d.bytes 1 = true ∧ s.net.linkUp = true ∧ s.framed d.path = true ∧ s.mustDrop d.path = false ∧ (d.dst ≠ 2 ∨ s.net.ipv4En = true) ∧ s.net.ready = true ∧ at32 d.bytes 4 = 0 ∧ (s.net.hs.find? fun h => !h.replied && h.peer == d.peer && h.port = d.port.toNat) = none ∧ s.net.hs.length < 8 ∧ s.freeSess = some n :=
  ⟨(wData 1 0 (2 ^ 32 * 4) [1, 2]), (1), (wNet .run), by decide +kernel⟩

theorem witness_SessionsOpenAndClose_7 : ∃ (d : Sys2Proof.Datagram) (h : Handshake) (s : State), hcpFramed d.bytes 1 = true ∧ s.net.linkUp = true ∧ s.framed d.path = true ∧ s.mustDrop d.path = false ∧ (d.dst ≠ 2 ∨ s.net.ipv4En = true) ∧ s.net.ready = true ∧ (s.net.hs.find? fun h => !h.replied && h.peer == d.peer && h.port = d.port.toNat) = some h :=
  ⟨(wData 1 0 (2 + 2 ^ 32 * 4) [3, 4]), ({ wHs with replied := false, peer := List.replicate 16 0, total := 4, parts := [{ off := 0, data := [1, 2] }] }), ({ wNet .run with net := { (wNet .run).net with hs := [{ wHs with replied := false, peer := List.replicate 16 0, total := 4, parts := [{ off := 0, data := [1, 2] }] }] } }), by decide +kernel⟩

theorem witness_SessionsOpenAndClose_12 : ∃ (d : Sys2Proof.Datagram) (s : State), s.net.ready = true ∧ hcpFramed d.bytes 3 = true ∧ s.net.linkUp = true ∧ s.framed d.path = true ∧ s.mustDrop d.path = false ∧ (d.dst ≠ 2 ∨ s.net.ipv4En = true) ∧ (64 ≤ at32 d.bytes 4 ∨ (s.net.hs.find? fun h => h.sess = at32 d.bytes 4 && h.replied) = none) :=
  ⟨(wData 3 1 0 []), (wNet .run), by decide +kernel⟩

theorem witness_SessionsOpenAndClose_13 : ∃ (d : Sys2Proof.Datagram) (n : Fin 64) (h : Handshake) (s : State), s.net.ready = true ∧ hcpFramed d.bytes 3 = true ∧ s.net.linkUp = true ∧ s.framed d.path = true ∧ s.mustDrop d.path = false ∧ (d.dst ≠ 2 ∨ s.net.ipv4En = true) ∧ at32 d.bytes 4 = n.val ∧ (s.net.hs.find? fun h => h.sess = n.val && h.replied) = some h :=
  ⟨(wData 3 1 (2 ^ 32 * 16608) [1]), (1), (wHs), ({ wNet .run with net := { (wNet .run).net with hs := [wHs] } }), by decide +kernel⟩

theorem witness_SessionsOpenAndClose_16 : ∃ (d : Sys2Proof.Datagram) (s : State), s.net.ready = true ∧ hcpFramed d.bytes 0x10 = true ∧ s.net.linkUp = true ∧ s.framed d.path = true ∧ s.mustDrop d.path = false ∧ (d.dst ≠ 2 ∨ s.net.ipv4En = true) ∧ (64 ≤ at32 d.bytes 4 ∨ (∃ n : Fin 64, at32 d.bytes 4 = n.val ∧ (s.sess n).isOpen = false)) :=
  ⟨(wData 0x10 70 1 []), (wNet .run), by decide +kernel⟩

theorem witness_SessionsOpenAndClose_17 : ∃ (d : Sys2Proof.Datagram) (n : Fin 64) (s : State), s.net.ready = true ∧ hcpFramed d.bytes 0x10 = true ∧ s.net.linkUp = true ∧ s.framed d.path = true ∧ s.mustDrop d.path = false ∧ (d.dst ≠ 2 ∨ s.net.ipv4En = true) ∧ at32 d.bytes 4 = n.val ∧ (s.sess n).isOpen = true ∧ openSecured (s.sess n).rxKey d.bytes = none :=
  ⟨(wData 0x10 0 1 []), (0), (wOpen (wNet .run) fun x => { x with tagRun := 63 }), by decide +kernel⟩

theorem witness_SessionsOpenAndClose_18 : ∃ (d : Sys2Proof.Datagram) (n : Fin 64) (m : List Byte) (s : State), s.net.ready = true ∧ hcpFramed d.bytes 0x10 = true ∧ s.net.linkUp = true ∧ s.framed d.path = true ∧ s.mustDrop d.path = false ∧ (d.dst ≠ 2 ∨ s.net.ipv4En = true) ∧ at32 d.bytes 4 = n.val ∧ (s.sess n).isOpen = true ∧ openSecured (s.sess n).rxKey d.bytes = some m ∧ (s.sess n).fresh (leVal (bytesAt d.bytes 8 8)) = false :=
  ⟨(wSealed 0 []), (0), ([]), (wNet .run), rfl, wSealed_framed 0 [], rfl, by decide +kernel, rfl, Or.inl (by decide), wSealed_sess 0 [], rfl, wSealed_open 0 [], by rw [wSealed_seq]; decide +kernel⟩

theorem witness_SessionsOpenAndClose_19 : ∃ (d : Sys2Proof.Datagram) (n : Fin 64) (m : List Byte) (s : State), s.net.ready = true ∧ hcpFramed d.bytes 0x10 = true ∧ s.net.linkUp = true ∧ s.framed d.path = true ∧ s.mustDrop d.path = false ∧ (d.dst ≠ 2 ∨ s.net.ipv4En = true) ∧ at32 d.bytes 4 = n.val ∧ (s.sess n).isOpen = true ∧ openSecured (s.sess n).rxKey d.bytes = some m ∧ (s.sess n).fresh (leVal (bytesAt d.bytes 8 8)) = true :=
  ⟨(wSealed 1 (wInner 1 [])), (0), (wInner 1 []), (wNet .run), rfl, wSealed_framed 1 _, rfl, by decide +kernel, rfl, Or.inl (by decide), wSealed_sess 1 _, rfl, wSealed_open 1 _, by rw [wSealed_seq]; decide +kernel⟩

theorem witness_SessionsOpenAndClose_22 : ∃ (q : Fin 16) (m : Msg) (s : State), s.net.q[q.val].stalled = false :=
  ⟨(1), ({ sess := 0, inner := wInner 1 [], arrival := 0 }), (wNet .run), by decide +kernel⟩

theorem witness_SessionsOpenAndClose_23 : ∃ (n : Fin 64) (s : State), s.elapsedNs (s.sess n).lastRx (1000000000 * s.net.idleS) = true :=
  ⟨(0), ({ wNet .run with sys := { (wNet .run).sys with tick := 10 ^ 13 } }), by decide +kernel⟩

theorem witness_SessionsOpenAndClose_24 : ∃ (n : Fin 64) (s : State), s.elapsedNs (s.sess n).lastRx (1000000000 * s.net.idleS) = false :=
  ⟨(0), (wNet .run), by decide +kernel⟩

theorem witness_SessionsOpenAndClose_25 : ∃ (sess : Fin 64) (n : Fin 64) (s : State), s.allows sess .oa = true :=
  ⟨(0), (0), (wNet .run), by decide +kernel⟩

theorem witness_SessionsOpenAndClose_26 : ∃ (n : Fin 64) (s : State), (s.sess n).isOpen = false :=
  ⟨(1), (State.reset), by decide +kernel⟩

theorem witness_SessionsOpenAndClose_27 : ∃ (n : Fin 64) (s : State), (s.sess n).isOpen = true :=
  ⟨(0), (wNet .run), by decide +kernel⟩

theorem witness_MessagesAreServed_2 : ∃ (h : Sys2Proof.MsgHdr) (ty : Nat) (status : Nat) (body : List Byte) (s : State), (s.sess h.sess).isOpen = true ∧ (s.sess h.sess).txSeq + 2 < 2 ^ 63 :=
  ⟨(wHdr), (1), (0), ([]), (wNet .run), by decide +kernel⟩

theorem witness_MessagesAreServed_4 : ∃ (h : Sys2Proof.MsgHdr) (s : State), s.serves h 1 0x01 .monitor [] = true :=
  ⟨(wHdr), (wMsg 1 1 .run), by decide +kernel⟩

theorem witness_MessagesAreServed_5 : ∃ (h : Sys2Proof.MsgHdr) (s : State), s.serves h 0 0x03 .monitor [] = true ∧ s.cfg.push = none :=
  ⟨(wHdr), (wMsg 0 3 .run), by decide +kernel⟩

theorem witness_MessagesAreServed_10 : ∃ (h : Sys2Proof.MsgHdr) (a : Sys2Proof.AnnounceEntry) (s : State), s.serves h 5 0x20 .operator (announceBody [a]) = true ∧ s.sys.state = .armed ∧ s.schedCheck (hcpEntry a) = none ∧ s.tlk.table = [] :=
  ⟨(wHdr), ({ id := 9, t := 1000, mask := 1, dp := 100, duration := 5, kind := 0, role := 2 }), ({ wMsg 5 0x20 .armed (announceBody [{ id := 9, t := 1000, mask := 1, dp := 100, duration := 5, kind := 0, role := 2 }]) with cfg := (wPort .armed id).cfg }), by decide +kernel⟩

theorem witness_MessagesAreServed_11 : ∃ (h : Sys2Proof.MsgHdr) (i : BitVec 32) (e : Entry) (s : State), s.serves h 5 0x21 .operator (leBytes 2 1 ++ leBytes 4 i.toNat) = true ∧ s.tlk.table = [e] ∧ e.source = 0xFF ∧ e.id = i.toNat ∧ s.sys.timeNs < e.t ∧ s.tlk.placed = [] :=
  ⟨(wHdr), (9), ({ wEntry1 5 1 with source := 0xFF }), ({ wMsg 5 0x21 .run (leBytes 2 1 ++ leBytes 4 9) with tlk := { State.reset.tlk with table := [{ wEntry1 5 1 with source := 0xFF }] } }), by decide +kernel⟩

theorem witness_MessagesAreServed_13 : ∃ (h : Sys2Proof.MsgHdr) (a : BitVec 32) (s : State), s.serves h 4 0x10 .monitor (leBytes 2 1 ++ leBytes 2 0 ++ leBytes 4 a.toNat) = true ∧ addrOk a.toNat = true :=
  ⟨(wHdr), (0), (wMsg 4 0x10 .run (leBytes 2 1 ++ leBytes 2 0 ++ leBytes 4 0)), by decide +kernel⟩

theorem witness_MessagesAreServed_17 : ∃ (h : Sys2Proof.MsgHdr) (a : BitVec 32) (n : BitVec 16) (s : State), s.serves h 13 0x12 .monitor (leBytes 4 a.toNat ++ leBytes 2 n.toNat) = true ∧ 0 < n.toNat ∧ n.toNat ≤ 2048 ∧ addrOk a.toNat = true ∧ a.toNat + 4 * n.toNat ≤ 2 ^ 24 :=
  ⟨(wHdr), (0), (2), (wMsg 13 0x12 .run (leBytes 4 0 ++ leBytes 2 2)), by decide +kernel⟩

theorem witness_SubscriptionsFetchesAndPushes_3 : ∃ (n : Fin 64) (i : BitVec 8) (free : Bool) (s : State), (s.sub n i.toNat).elim true (fun x => x.events || x.latched.isNone || (!free && s.net.telDisplaced)) = true :=
  ⟨(0), (3), (true), (wNet .run), by decide +kernel⟩

theorem witness_SubscriptionsFetchesAndPushes_4 : ∃ (n : Fin 64) (i : BitVec 8) (x : Sub) (vs : List Nat) (tick : Nat) (time : Nat) (s : State), (s.sess n).isOpen = true ∧ s.sub n i.toNat = some x ∧ x.events = false ∧ x.latched = some (vs, tick, time) ∧ s.net.telDisplaced = false ∧ (s.sess n).txSeq + 2 < 2 ^ 63 :=
  ⟨(0), (3), ({ id := 3, events := false, periodMs := 1, addrs := [], classMask := 1, seq := 4, missed := 0, latched := some ([], 0, 0), lastLatch := none, sentUpTo := 0, dropped := 0 }), ([]), (0), (0), (wOpen (wNet .run) fun y => { y with subs := [{ id := 3, events := false, periodMs := 1, addrs := [], classMask := 1, seq := 4, missed := 0, latched := some ([], 0, 0), lastLatch := none, sentUpTo := 0, dropped := 0 }] }), by decide +kernel⟩

theorem witness_SubscriptionsFetchesAndPushes_5 : ∃ (n : Fin 64) (i : BitVec 8) (x : Sub) (s : State), s.sub n i.toNat = some x ∧ x.events = false ∧ x.latched.isSome = true ∧ s.net.telDisplaced = false :=
  ⟨(0), (3), ({ id := 3, events := false, periodMs := 1, addrs := [], classMask := 1, seq := 4, missed := 0, latched := some ([], 0, 0), lastLatch := none, sentUpTo := 0, dropped := 0 }), (wOpen (wNet .run) fun y => { y with subs := [{ id := 3, events := false, periodMs := 1, addrs := [], classMask := 1, seq := 4, missed := 0, latched := some ([], 0, 0), lastLatch := none, sentUpTo := 0, dropped := 0 }] }), by decide +kernel⟩

theorem witness_SubscriptionsFetchesAndPushes_6 : ∃ (n : Fin 64) (i : BitVec 8) (x : Sub) (s : State), s.sub n i.toNat = some x ∧ x.events = true ∧ s.due (500 * x.periodMs) x.lastLatch = true :=
  ⟨(0), (3), ({ id := 3, events := true, periodMs := 1, addrs := [], classMask := 1, seq := 0, missed := 0, latched := none, lastLatch := none, sentUpTo := 0, dropped := 0 }), (wOpen (wNet .run) fun y => { y with subs := [{ id := 3, events := true, periodMs := 1, addrs := [], classMask := 1, seq := 0, missed := 0, latched := none, lastLatch := none, sentUpTo := 0, dropped := 0 }] }), by decide +kernel⟩

theorem witness_SubscriptionsFetchesAndPushes_7 : ∃ (n : Fin 64) (i : BitVec 8) (s : State), (s.sub n i.toNat).elim true (fun x => !x.events || !s.due (500 * x.periodMs) x.lastLatch) = true :=
  ⟨(0), (3), (wNet .run), by decide +kernel⟩

theorem witness_SubscriptionsFetchesAndPushes_8 : ∃ (n : Fin 64) (i : Nat) (dropped : Nat) (recs : List (List Byte)) (s : State), recs ≠ [] ∧ recs.length ≤ 279 :=
  ⟨(0), (3), (0), ([[]]), (wNet .run), by decide +kernel⟩

theorem witness_SubscriptionsFetchesAndPushes_10 : ∃ (n : Fin 64) (i : BitVec 32) (s : State), ((∀ f ∈ (s.sess n).fetches, f.reqId ≠ i.toNat) ∨ s.net.linkUp = false) :=
  ⟨(0), (3), (State.reset), by decide +kernel⟩

theorem witness_SubscriptionsFetchesAndPushes_11 : ∃ (n : Fin 64) (i : BitVec 32) (f : Fetch) (e : Nat) (s : State), (s.sess n).fetches.find? (fun f => f.reqId = i.toNat) = some f ∧ 0 < f.left ∧ s.fetchEnd f.region = some e ∧ e ≤ f.off ∧ (f.region ≠ 1 ∨ s.evr.capFrozen = false) :=
  ⟨(0), (3), ({ reqId := 3, region := 1, index := 0, off := 0, left := 2, sent := [] }), (0), (wOpen (wNet .run) (fun y => { y with fetches := [{ reqId := 3, region := 1, index := 0, off := 0, left := 2, sent := [] }] })), by decide +kernel⟩

theorem witness_SubscriptionsFetchesAndPushes_12 : ∃ (n : Fin 64) (i : BitVec 32) (f : Fetch) (k : Nat) (l : List Byte) (s : State), s.net.linkUp = true ∧ (s.sess n).fetches.find? (fun f => f.reqId = i.toNat) = some f ∧ k = (match s.fetchEnd f.region with | some e => min (min 8192 f.left) (e - f.off) | none => min 8192 f.left) ∧ (k = f.left ∨ (f.region = 1 ∧ s.evr.capFrozen = true ∧ k < min 8192 f.left)) ∧ (List.range k).mapM (fun j => s.fetchByte f.region f.index (f.off + j)) = some l :=
  ⟨(0), (3), ({ reqId := 3, region := 1, index := 0, off := 0, left := 2, sent := [] }), (2), ([0, 0]), ({ wOpen (wNet .run) (fun y => { y with fetches := [{ reqId := 3, region := 1, index := 0, off := 0, left := 2, sent := [] }] }) with evr := { State.reset.evr with capWritten := 128, capRing := [List.replicate 128 0] } }), by decide +kernel⟩

theorem witness_SubscriptionsFetchesAndPushes_13 : ∃ (n : Fin 64) (i : BitVec 32) (f : Fetch) (k : Nat) (l : List Byte) (s : State), s.net.linkUp = true ∧ (s.sess n).fetches.find? (fun f => f.reqId = i.toNat) = some f ∧ k = (match s.fetchEnd f.region with | some e => min (min 8192 f.left) (e - f.off) | none => min 8192 f.left) ∧ k ≠ f.left ∧ 0 < k ∧ (f.region ≠ 1 ∨ s.evr.capFrozen = false ∨ k = min 8192 f.left) ∧ (List.range k).mapM (fun j => s.fetchByte f.region f.index (f.off + j)) = some l :=
  ⟨(0), (3), ({ reqId := 3, region := 1, index := 0, off := 127, left := 2, sent := [] }), (1), ([0]), ({ wOpen (wNet .run) (fun y => { y with fetches := [{ reqId := 3, region := 1, index := 0, off := 127, left := 2, sent := [] }] }) with evr := { State.reset.evr with capWritten := 128, capRing := [List.replicate 128 0] } }), by decide +kernel⟩

theorem witness_SubscriptionsFetchesAndPushes_14 : ∃ (n : Fin 64) (i : BitVec 32) (f : Fetch) (k : Nat) (s : State), s.net.linkUp = true ∧ (s.sess n).fetches.find? (fun f => f.reqId = i.toNat) = some f ∧ k = (match s.fetchEnd f.region with | some e => min (min 8192 f.left) (e - f.off) | none => min 8192 f.left) ∧ 0 < k ∧ (List.range k).mapM (fun j => s.fetchByte f.region f.index (f.off + j)) = none :=
  ⟨(0), (3), ({ reqId := 3, region := 1, index := 0, off := 0, left := 2, sent := [] }), (2), ({ wOpen (wNet .run) (fun y => { y with fetches := [{ reqId := 3, region := 1, index := 0, off := 0, left := 2, sent := [] }] }) with evr := { State.reset.evr with capWritten := 256, capRing := [List.replicate 128 0] } }), by decide +kernel⟩

theorem witness_SubscriptionsFetchesAndPushes_19 : ∃ (p : Push) (s : State), s.cfg.push = some p ∧ s.elapsedNs p.at_ 10000000000 = true :=
  ⟨({ sess := 0, length := 1, pieces := [], at_ := 0 }), ({ State.reset with cfg := { State.reset.cfg with push := some { sess := 0, length := 1, pieces := [], at_ := 0 } }, sys := { tick := 10 ^ 10 } }), by decide +kernel⟩

theorem witness_SubscriptionsFetchesAndPushes_20 : ∃ (s : State), s.cfg.push.all (fun p => !s.elapsedNs p.at_ 10000000000) = true :=
  ⟨(State.reset), by decide +kernel⟩

theorem witness_BitStreamsAreSwapped_1 : ∃ (s : State), s.lit = true ∧ s.cfg.shadowState = .checking :=
  ⟨({ wNet .standby with cfg := { State.reset.cfg with shadowState := .checking } }), by decide +kernel⟩

theorem witness_BitStreamsAreSwapped_2 : ∃ (s : State), (s.lit = false ∨ s.cfg.shadowState ≠ .checking) :=
  ⟨(State.reset), by decide +kernel⟩

theorem witness_BitStreamsAreSwapped_3 : ∃ (s : State), s.cfg.shadowState = .ready :=
  ⟨(wSwap .run), by decide +kernel⟩

theorem witness_BitStreamsAreSwapped_4 : ∃ (s : State), s.cfg.shadowState ≠ .ready :=
  ⟨(State.reset), by decide +kernel⟩

theorem witness_BitStreamsAreSwapped_6 : ∃ (sess : Fin 64) (s : State), s.allows sess .ix = true ∧ (s.cfg.shadowState = .ready ∨ s.cfg.shadowState = .receiving ∨ s.cfg.shadowState = .checking) :=
  ⟨(0), (wSwap .standby), by decide +kernel⟩

theorem witness_BitStreamsAreSwapped_7 : ∃ (sess : Fin 64) (s : State), s.allows sess .ix = true ∧ (s.cfg.shadowState = .rejected ∨ s.cfg.shadowState = .empty) :=
  ⟨(0), ({ wSess .standby with cfg := { State.reset.cfg with shadowState := .rejected } }), by decide +kernel⟩

theorem witness_BitStreamsAreSwapped_8 : ∃ (sess : Fin 64) (v : BitVec 32) (s : State), s.allows sess .ix = true :=
  ⟨(0), (5), (wShadow .standby), by decide +kernel⟩

theorem witness_BitStreamsAreSwapped_9 : ∃ (sess : Fin 64) (v : BitVec 32) (s : State), s.allows sess .ix = true :=
  ⟨(0), (5), ({ wShadow .standby with cfg := { (wShadow .standby).cfg with swapTickLo := some 3 } }), by decide +kernel⟩

theorem witness_BitStreamsAreSwapped_10 : ∃ (sess : Fin 64) (s : State), s.allows sess .ix = true ∧ s.cfg.shadowState = .ready ∧ s.cfg.swapPending = none ∧ s.sys.state ≠ .basalt :=
  ⟨(0), (wShadow .standby), by decide +kernel⟩

theorem witness_BitStreamsAreSwapped_11 : ∃ (sess : Fin 64) (s : State), s.allows sess .ix = true ∧ (s.cfg.shadowState ≠ .ready ∨ s.cfg.swapPending ≠ none ∨ s.sys.state = .basalt) :=
  ⟨(0), (wSwap .standby), by decide +kernel⟩

theorem witness_BitStreamsAreSwapped_12 : ∃ (s : State), (s.lit = false ∨ s.cfg.swapPending = none ∨ s.cfg.shadow = none ∨ (∃ n, s.cfg.swapPending = some n ∧ s.sys.tick + 1 < n)) :=
  ⟨(State.reset), by decide +kernel⟩

theorem witness_BitStreamsAreSwapped_13 : ∃ (n : Nat) (im : Image) (s : State), s.lit = true ∧ s.cfg.swapPending = some n ∧ s.cfg.shadow = some im ∧ n ≤ s.sys.tick + 1 ∧ s.sys.state = .basalt :=
  ⟨(0), (wIm), ({ wSwap .basalt with power := { State.reset.power with powered := true } }), by decide +kernel⟩

theorem witness_BitStreamsAreSwapped_14 : ∃ (n : Nat) (im : Image) (f : LoadFail) (s : State), s.lit = true ∧ s.cfg.swapPending = some n ∧ s.cfg.shadow = some im ∧ n ≤ s.sys.tick + 1 ∧ s.sys.state ≠ .basalt ∧ (({ all := im.sections, own := im.sections } : Cand).locked im.full s.cfg.activeValid s.sys.state s.limit (directory im.raw)) = some f :=
  ⟨(0), ({ wIm with sections := [{ type := 0x01, index := 0, recs := [] }] }), ({ code := cLocked, section_ := 0 }), ({ wSwap .run with power := { State.reset.power with powered := true }, cfg := { (wSwap .run).cfg with activeValid := true, shadow := some { wIm with sections := [{ type := 0x01, index := 0, recs := [] }] } } }), by decide +kernel⟩

theorem witness_BitStreamsAreSwapped_15 : ∃ (n : Nat) (im : Image) (s : State), s.lit = true ∧ s.cfg.swapPending = some n ∧ s.cfg.shadow = some im ∧ n ≤ s.sys.tick + 1 ∧ s.sys.state ≠ .basalt ∧ (({ all := im.sections, own := im.sections } : Cand).locked im.full s.cfg.activeValid s.sys.state s.limit (directory im.raw)) = none :=
  ⟨(0), (wIm), ({ wSwap .standby with power := { State.reset.power with powered := true } }), by decide +kernel⟩

theorem witness_BitStreamsAreSwapped_16 : ∃ (im : Image) (n : Nat) (s : State), s.sys.state ≠ .boot :=
  ⟨(wIm), (3), (wShadow .standby), by decide +kernel⟩

theorem witness_BitStreamsAreSwapped_17 : ∃ (im : Image) (n : Nat) (s : State), s.sys.state = .boot :=
  ⟨(wIm), (3), (State.reset), by decide +kernel⟩

theorem witness_StoredConfigurations_1 : ∃ (s : State), s.lit = true ∧ s.sys.state = .boot ∧ s.sec.fwRunning = true ∧ s.cfg.activeValid = false ∧ s.cfg.bootSlot = 0 :=
  ⟨({ State.reset with power := { State.reset.power with powered := true }, cfg := { State.reset.cfg with slotA := some [] }, sec := { State.reset.sec with fwRunning := true } }), by decide +kernel⟩

theorem witness_StoredConfigurations_2 : ∃ (s : State), (s.lit = false ∨ s.sys.state ≠ .boot ∨ s.sec.fwRunning = false ∨ s.cfg.activeValid = true ∨ s.cfg.bootSlot ≠ 0) :=
  ⟨(State.reset), by decide +kernel⟩

theorem witness_StoredConfigurations_6 : ∃ (s : State), s.lit = true ∧ s.prot.causes[1] = true ∧ s.prot.reloadFailed = false :=
  ⟨({ State.reset with power := { State.reset.power with powered := true }, cfg := { State.reset.cfg with slotA := some [] }, prot := { State.reset.prot with causes := updV State.reset.prot.causes 1 fun _ => true } }), by decide +kernel⟩

theorem witness_StoredConfigurations_7 : ∃ (s : State), (s.lit = false ∨ s.prot.causes[1] = false ∨ s.prot.reloadFailed = true) :=
  ⟨(State.reset), by decide +kernel⟩

theorem witness_StoredConfigurations_8 : ∃ (im : Image) (rest : List Image) (s : State), s.lit = true ∧ s.cfg.storePending = im :: rest ∧ (im.raiseRollback = false ∨ im.rollback ≤ s.sec.cfgCounter) :=
  ⟨(wIm), ([]), ({ State.reset with power := { State.reset.power with powered := true }, cfg := { State.reset.cfg with storePending := [wIm] } }), by decide +kernel⟩

theorem witness_StoredConfigurations_9 : ∃ (im : Image) (rest : List Image) (s : State), s.lit = true ∧ s.cfg.storePending = im :: rest ∧ im.raiseRollback = true ∧ s.sec.cfgCounter < im.rollback :=
  ⟨({ wIm with raiseRollback := true, rollback := 3 }), ([]), ({ State.reset with power := { State.reset.power with powered := true }, cfg := { State.reset.cfg with storePending := [{ wIm with raiseRollback := true, rollback := 3 }] } }), by decide +kernel⟩

theorem witness_StoredConfigurations_10 : ∃ (s : State), (s.lit = false ∨ s.cfg.storePending = []) :=
  ⟨(State.reset), by decide +kernel⟩

theorem witness_StoredConfigurations_11 : ∃ (s : State), s.lit = true ∧ s.cfg.activeValid = true :=
  ⟨(wWith [] (wNet .run)), by decide +kernel⟩

theorem witness_StoredConfigurations_12 : ∃ (s : State), s.lit = true ∧ s.cfg.activeValid = true :=
  ⟨({ wGrp .running with power := { (wGrp .running).power with powered := true } }), by decide +kernel⟩

theorem witness_StoredConfigurations_13 : ∃ (ok : Bool) (s : State), (ok = true ∨ s.lit = false ∨ s.cfg.activeValid = false) :=
  ⟨(true), (State.reset), by decide +kernel⟩

theorem witness_StoredConfigurations_14 : ∃ (s : State), (s.lit = false ∨ s.cfg.activeValid = false) :=
  ⟨(State.reset), by decide +kernel⟩

theorem witness_StoredConfigurations_15 : ∃ (s : State), s.power.inputLoss = false ∧ s.sys.state = .run ∧ s.sec.resetReq = none :=
  ⟨(wGrp .running), by decide +kernel⟩

theorem witness_FirmwareSlots_1 : ∃ (keys : Bool) (s : State), s.lit = true ∧ s.sys.state = .boot ∧ s.sec.fwRunning = false ∧ s.sec.recovery = false :=
  ⟨(true), ({ State.reset with power := { State.reset.power with powered := true } }), by decide +kernel⟩

theorem witness_FirmwareSlots_2 : ∃ (keys : Bool) (s : State), (s.lit = false ∨ s.sys.state ≠ .boot ∨ s.sec.fwRunning = true ∨ s.sec.recovery = true) :=
  ⟨(true), ({ State.reset with sec := { State.reset.sec with recovery := true } }), by decide +kernel⟩

theorem witness_FirmwareSlots_4 : ∃ (l : List Byte) (s : State), s.lit = true ∧ s.sec.fwPending = some l ∧ s.sec.recovery = false :=
  ⟨([1]), ({ State.reset with power := { State.reset.power with powered := true }, sec := { State.reset.sec with fwPending := some [1] } }), by decide +kernel⟩

theorem witness_FirmwareSlots_5 : ∃ (l : List Byte) (s : State), s.lit = true ∧ s.sec.fwPending = some l ∧ s.sec.recovery = true :=
  ⟨([1]), ({ State.reset with power := { State.reset.power with powered := true }, sec := { State.reset.sec with fwPending := some [1], recovery := true } }), by decide +kernel⟩

theorem witness_FirmwareSlots_6 : ∃ (s : State), (s.lit = false ∨ s.sec.fwPending = none) :=
  ⟨(State.reset), by decide +kernel⟩

theorem witness_FirmwareSlots_7 : ∃ (sess : Fin 64) (s : State), s.allows sess .ix = true ∧ s.sec.fwStaged = true :=
  ⟨(0), ({ wSess .standby with sec := { State.reset.sec with fwStaged := true } }), by decide +kernel⟩

theorem witness_FirmwareSlots_8 : ∃ (sess : Fin 64) (s : State), s.allows sess .ix = true ∧ s.sec.fwStaged = false :=
  ⟨(0), (wSess .standby), by decide +kernel⟩

theorem witness_ShelfTimeFollowsItsSources_2 : ∃ (via : Sys2Proof.PtpVia) (time : Nat) (cls : Nat) (o : Int) (s : State), s.clk.ptpLock = false ∧ s.net.ptpGood < 15 ∧ -1000 ≤ o ∧ o ≤ 1000 :=
  ⟨(.udp6), (9), (6), (5), (wNet .run), by decide +kernel⟩

theorem witness_ShelfTimeFollowsItsSources_3 : ∃ (via : Sys2Proof.PtpVia) (time : Nat) (cls : Nat) (o : Int) (s : State), s.clk.ptpLock = false ∧ (o < -1000 ∨ 1000 < o) :=
  ⟨(.udp6), (9), (6), (2000), (wNet .run), by decide +kernel⟩

theorem witness_ShelfTimeFollowsItsSources_4 : ∃ (via : Sys2Proof.PtpVia) (time : Nat) (cls : Nat) (o : Int) (s : State), s.clk.ptpLock = false ∧ 15 ≤ s.net.ptpGood ∧ -1000 ≤ o ∧ o ≤ 1000 :=
  ⟨(.udp6), (9), (6), (5), ({ wNet .run with net := { (wNet .run).net with ptpGood := 15 } }), by decide +kernel⟩

theorem witness_ShelfTimeFollowsItsSources_6 : ∃ (via : Sys2Proof.PtpVia) (time : Nat) (cls : Nat) (o : Int) (s : State), s.clk.ptpLock = true :=
  ⟨(.udp6), (9), (6), (20000), ({ wNet .run with net := { (wNet .run).net with ptpBad := 3 }, clk := { State.reset.clk with ptpLock := true } }), by decide +kernel⟩

theorem witness_ShelfTimeFollowsItsSources_7 : ∃ (s : State), s.clk.ptpLock = false :=
  ⟨(State.reset), by decide +kernel⟩

theorem witness_ShelfTimeFollowsItsSources_8 : ∃ (s : State), s.clk.ptpLock = true :=
  ⟨({ wRow with net := { wRow.net with members := [wMember 1] }, clk := { State.reset.clk with ptpLock := true } }), by decide +kernel⟩

theorem witness_ShelfTimeFollowsItsSources_10 : ∃ (s : State), s.elapsedNs s.net.syncAt 3000000000 = true :=
  ⟨({ wNet .run with clk := { State.reset.clk with ptpLock := true }, sys := { (wNet .run).sys with tick := 1500000 } }), by decide +kernel⟩

theorem witness_ShelfTimeFollowsItsSources_11 : ∃ (s : State), s.elapsedNs s.net.syncAt 3000000000 = false :=
  ⟨(State.reset), by decide +kernel⟩

theorem witness_ShelfTimeFollowsItsSources_12 : ∃ (t0 : BitVec 64) (s : State), s.param 0x0002 0 = 2 :=
  ⟨(1999999999), (wWith [wRec 0x0101 16 [(8, 2, 2), (12, 4, 2)]] State.reset), by decide +kernel⟩

theorem witness_ShelfTimeFollowsItsSources_13 : ∃ (t0 : BitVec 64) (s : State), s.param 0x0002 0 ≠ 2 :=
  ⟨(0), (State.reset), by decide +kernel⟩

theorem witness_ShelfTimeFollowsItsSources_15 : ∃ (f : Sys2Proof.RowFrame) (t4 : BitVec 64) (s : State), s.acts f 0x03 32 = true :=
  ⟨({ west := true, bytes := rowFrame 3 2 510 0 1 7 (leBytes 8 1 ++ leBytes 8 5 ++ leBytes 8 6 ++ leBytes 8 13) }), (13), (wRow), by decide +kernel⟩

theorem witness_ShelfTimeFollowsItsSources_17 : ∃ (s : State), s.due 50000 s.net.pdelayTick = true :=
  ⟨(wRow), by decide +kernel⟩

theorem witness_ShelfTimeFollowsItsSources_18 : ∃ (s : State), s.due 50000 s.net.pdelayTick = false :=
  ⟨({ State.reset with sys := { tick := 1 } }), by decide +kernel⟩

theorem witness_ShelfTimeFollowsItsSources_21 : ∃ (f : Sys2Proof.RowFrame) (m : Member) (s : State), s.acts f 0x01 17 = true ∧ s.ringMaster = some m ∧ m.named (at16 f.bytes 4) (at8 f.bytes 6) = true ∧ s.clk.ptpLock = true :=
  ⟨(wRf 1 1 7 (leBytes 8 500 ++ leBytes 8 65536 ++ [6])), (wMember 1), ({ wRow with net := { wRow.net with members := [wMember 1] }, clk := { State.reset.clk with ptpLock := true } }), by decide +kernel⟩

theorem witness_RowRingFrames_1 : ∃ (s : State), s.net.joined = false ∧ s.cfg.activeValid = true ∧ s.clk.ptpLock = true ∧ (s.net.eastUp = true ∨ s.net.westUp = true) ∧ s.sys.state ≠ .shipPrep ∧ s.power.inputLoss = false :=
  ⟨({ wRow with net := { wRow.net with joined := false }, clk := { State.reset.clk with ptpLock := true }, cfg := { State.reset.cfg with activeValid := true } }), by decide +kernel⟩

theorem witness_RowRingFrames_2 : ∃ (s : State), (s.net.joined = true ∨ s.cfg.activeValid = false ∨ s.clk.ptpLock = false ∨ (s.net.eastUp = false ∧ s.net.westUp = false) ∨ s.sys.state = .shipPrep ∨ s.power.inputLoss = true) :=
  ⟨(State.reset), by decide +kernel⟩

theorem witness_RowRingFrames_4 : ∃ (f : Sys2Proof.RowFrame) (good : Bool) (s : State), at8 f.bytes 0 ≠ 1 ∧ 20 ≤ f.bytes.length ∧ (if f.west then s.net.wrapEast else s.net.wrapWest) = false :=
  ⟨(wRf 0x10 1 7 (statusBytes wStatus)), (true), (wRow), by decide +kernel⟩

theorem witness_RowRingFrames_8 : ∃ (f : Sys2Proof.RowFrame) (s : State), s.acts f 0x10 28 = true ∧ tb (at8 f.bytes 1) 1 = false ∧ (at16 f.bytes 4 ≠ s.rackId ∨ at8 f.bytes 6 ≠ s.shelfIndex) ∧ s.net.members = [] ∧ s.net.wrapEast = false ∧ s.net.wrapWest = false :=
  ⟨(wRf 0x10 1 7 (statusBytes wStatus)), (wRow), by decide +kernel⟩

theorem witness_RowRingFrames_9 : ∃ (f : Sys2Proof.RowFrame) (s : State), s.arrives f 0x10 28 = true ∧ s.ownFrame f = true ∧ f.west = true ∧ tb (at8 f.bytes 1) 0 = false ∧ s.net.joined = true ∧ s.net.whole = false :=
  ⟨(wRf 0x10 0 7 (statusBytes wRow.ownStatus)), ({ wRow with net := { wRow.net with sentSeq := [7] } }), by decide +kernel⟩

theorem witness_RowRingFrames_13 : ∃ (s : State), s.sys.lead = true ∧ s.due 50000 s.net.budgetTick = true :=
  ⟨({ wRow with sys := { wRow.sys with lead := true } }), by decide +kernel⟩

theorem witness_RowRingFrames_14 : ∃ (s : State), (s.sys.lead = false ∨ s.due 50000 s.net.budgetTick = false) :=
  ⟨(State.reset), by decide +kernel⟩

theorem witness_RowRingFrames_18 : ∃ (rack : Nat) (shelf : Nat) (s : State), rack ≠ s.rackId :=
  ⟨(3), (1), (wRow), by decide +kernel⟩

theorem witness_RowRingFrames_20 : ∃ (f : Sys2Proof.RowFrame) (n : Fin 64) (s : State), s.acts f 0x20 12 = true ∧ 1 ≤ at8 (bytesAt f.bytes 16 12) 3 ∧ at8 (bytesAt f.bytes 16 12) 3 ≤ 5 ∧ s.net.notices = [] ∧ at16 (bytesAt f.bytes 16 12) 0 = s.rackId ∧ at8 (bytesAt f.bytes 16 12) 2 ≠ s.shelfIndex ∧ s.homing n.val = 2 ∧ s.tray8 n.val 0x1D = at8 (bytesAt f.bytes 16 12) 2 ∧ (s.port n).state = .watch ∧ s.sys.state = .run :=
  ⟨(wRf 0x20 1 7 (noticeBytes 0 1 2 0)), (0), ({ wRow with cfg := (wWith [wRec 0x0B01 32 [(8, 1, 0), (9, 1, 2), (29, 1, 1)]] State.reset).cfg, tlk := (wSec2 .run fun x => { x with state := .watch }).tlk }), by decide +kernel⟩

theorem witness_RowRingFrames_21 : ∃ (k : Fin 4) (m : Member) (s : State), s.net.members.find? (fun m => m.named s.rackId k.val) = some m ∧ s.net.joined = true ∧ k.val ≠ s.shelfIndex ∧ m.st.state = 4 ∧ m.silentSent = false ∧ m.at_ + 3000000 ≤ s.rootNs :=
  ⟨(1), (wMember 1), ({ wRow with net := { wRow.net with members := [wMember 1] }, sys := { wRow.sys with tick := 2000 } }), by decide +kernel⟩

theorem witness_RowRingFrames_22 : ∃ (k : Fin 4) (s : State), (s.net.members.find? (fun m => m.named s.rackId k.val)).all (fun m => !s.net.joined || k.val = s.shelfIndex || m.st.state != 4 || m.silentSent || s.rootNs < m.at_ + 3000000) = true :=
  ⟨(1), (State.reset), by decide +kernel⟩

theorem witness_RowRingFrames_24 : ∃ (west : Bool) (s : State), s.net.forwarding = true ∧ (if west then s.net.wrapWest else s.net.wrapEast) = false :=
  ⟨(true), ({ wRow with net := { wRow.net with whole := true } }), by decide +kernel⟩

theorem witness_RowRingFrames_25 : ∃ (west : Bool) (s : State), (s.net.forwarding = false ∨ (if west then s.net.wrapWest else s.net.wrapEast) = true) :=
  ⟨(true), (State.reset), by decide +kernel⟩

theorem witness_RowRingFrames_26 : ∃ (west : Bool) (s : State), (if west then s.net.wrapWest else s.net.wrapEast) = true ∧ (if west then s.net.westUp else s.net.eastUp) = true ∧ s.elapsed (if west then s.net.lockWestAt else s.net.lockEastAt) 50000 = true :=
  ⟨(false), ({ wRow with net := { wRow.net with wrapEast := true }, sys := { wRow.sys with tick := 60000 } }), by decide +kernel⟩

theorem witness_RowRingFrames_27 : ∃ (west : Bool) (s : State), (if west then s.net.wrapWest else s.net.wrapEast) = false ∨ (if west then s.net.westUp else s.net.eastUp) = false ∨ s.elapsed (if west then s.net.lockWestAt else s.net.lockEastAt) 50000 = false :=
  ⟨(false), (State.reset), by decide +kernel⟩

theorem witness_RingCycleAndLead_1 : ∃ (s : State), (s.net.joined = false ∨ s.due 500 s.net.cycleTick = false) :=
  ⟨(State.reset), by decide +kernel⟩

theorem witness_RingCycleAndLead_2 : ∃ (s : State), s.net.joined = true ∧ s.due 500 s.net.cycleTick = true :=
  ⟨(wRow), by decide +kernel⟩

theorem witness_RingCycleAndLead_4 : ∃ (s : State), s.net.joined = true :=
  ⟨(wRow), by decide +kernel⟩

theorem witness_RingCycleAndLead_5 : ∃ (s : State), s.net.joined = true ∧ s.due 500 s.net.cycleTick = true :=
  ⟨(wRow), by decide +kernel⟩

theorem witness_RingCycleAndLead_6 : ∃ (s : State), s.net.joined = true ∧ s.due 500 s.net.cycleTick = true ∧ s.net.members = [] ∧ s.sys.state = .run ∧ s.net.idConflict = false :=
  ⟨(wRow), by decide +kernel⟩

theorem witness_RingCycleAndLead_7 : ∃ (s : State), s.net.joined = true ∧ s.due 500 s.net.cycleTick = true ∧ s.net.members = [] ∧ s.net.timeSrc = .ring :=
  ⟨({ wRow with net := { wRow.net with timeSrc := .ring } }), by decide +kernel⟩

theorem witness_RingCycleAndLead_8 : ∃ (m : Member) (s : State), s.net.joined = true ∧ s.due 500 s.net.cycleTick = true ∧ s.net.members = [m] ∧ s.sys.lead = true ∧ s.sys.state = .standby ∧ s.clk.ptpLock = false ∧ s.net.timeMaster = false ∧ m.rack = s.rackId ∧ m.shelf ≠ s.shelfIndex ∧ m.st.state = 4 ∧ m.st.ptpLock = false ∧ m.subject = false ∧ s.rootNs ≤ m.at_ + 3000000 :=
  ⟨({ wMember 1 with st := { wStatus with ptpLock := false } }), ({ wRow with sys := { wRow.sys with state := .standby, lead := true }, net := { wRow.net with members := [{ wMember 1 with st := { wStatus with ptpLock := false } }] } }), by decide +kernel⟩

theorem witness_BusLimits_1 : ∃ (v : Int) (s : State), s.prot.busOv = false ∧ s.limit 2 ≤ v :=
  ⟨(890000), (wGrp .running), by decide +kernel⟩

theorem witness_BusLimits_2 : ∃ (v : Int) (s : State), (s.prot.busOv = true ∨ v < s.limit 2) :=
  ⟨(0), ({ State.reset with prot := { State.reset.prot with busOv := true } }), by decide +kernel⟩

theorem witness_BusLimits_3 : ∃ (v : Int) (s : State), s.prot.busOv = false ∧ s.limit 2 ≤ v ∧ s.sys.state = .run ∧ s.sec.resetReq = none ∧ s.prot.coolShutdown = false :=
  ⟨(890000), (wGrp .running), by decide +kernel⟩

theorem witness_BusLimits_4 : ∃ (v : Int) (s : State), s.prot.busOv = false ∧ s.limit 2 ≤ v ∧ s.sys.state = .basalt :=
  ⟨(890000), (wSess .basalt), by decide +kernel⟩

theorem witness_BusLimits_5 : ∃ (s : State), s.prot.busOv = true ∧ s.elapsed s.prot.ovTick 5000 = true :=
  ⟨({ wGrp .basalt with sys := { (wGrp .basalt).sys with state := .basalt, tick := 5000 }, prot := { State.reset.prot with busOv := true } }), by decide +kernel⟩

theorem witness_BusLimits_6 : ∃ (s : State), (s.prot.busOv = false ∨ s.elapsed s.prot.ovTick 5000 = false) :=
  ⟨(State.reset), by decide +kernel⟩

theorem witness_BusLimits_8 : ∃ (v : Int) (s : State), s.prot.busUv = false ∧ v ≤ s.limit 3 :=
  ⟨(-1), (wSess .run), by decide +kernel⟩

theorem witness_BusLimits_9 : ∃ (v : Int) (s : State), (s.prot.busUv = true ∨ s.limit 3 < v) :=
  ⟨(0), ({ State.reset with prot := { State.reset.prot with busUv := true } }), by decide +kernel⟩

theorem witness_BusLimits_10 : ∃ (v : Int) (s : State), s.prot.busUv = false ∧ v ≤ s.limit 3 ∧ (s.sys.state = .run ∨ s.sys.state = .basalt) :=
  ⟨(-1), (wSess .run), by decide +kernel⟩

theorem witness_BusLimits_11 : ∃ (s : State), s.prot.busUv = true ∧ s.elapsed s.prot.uvTick 500 = true :=
  ⟨({ wSess .run with prot := { State.reset.prot with busUv := true }, sys := { (wSess .run).sys with tick := 500 } }), by decide +kernel⟩

theorem witness_BusLimits_12 : ∃ (s : State), (s.prot.busUv = false ∨ s.elapsed s.prot.uvTick 500 = false) :=
  ⟨(State.reset), by decide +kernel⟩

theorem witness_BusLimits_13 : ∃ (v : Int) (s : State), s.prot.busUv = true ∧ s.prot.busFault = false ∧ v ≤ s.limit 3 ∧ s.elapsed s.prot.uvTick (500 * s.prot.uvPersistMs) = true :=
  ⟨(-1), ({ wGrp .running with prot := { State.reset.prot with busUv := true }, sys := { (wGrp .running).sys with tick := 1000000 } }), by decide +kernel⟩

theorem witness_BusLimits_14 : ∃ (v : Int) (s : State), (s.prot.busUv = false ∨ s.prot.busFault = true ∨ s.limit 3 < v ∨ s.elapsed s.prot.uvTick (500 * s.prot.uvPersistMs) = false) :=
  ⟨(0), (State.reset), by decide +kernel⟩

theorem witness_BusLimits_15 : ∃ (v : Int) (s : State), s.prot.busUv = true ∧ s.prot.busFault = false ∧ v ≤ s.limit 3 ∧ s.elapsed s.prot.uvTick (500 * s.prot.uvPersistMs) = true ∧ s.sys.state = .run ∧ s.sec.resetReq = none ∧ s.prot.coolShutdown = false :=
  ⟨(-1), ({ wGrp .running with prot := { State.reset.prot with busUv := true }, sys := { (wGrp .running).sys with tick := 1000000 } }), by decide +kernel⟩

theorem witness_BusLimits_16 : ∃ (sess : Fin 64) (s : State), s.allows sess .oa = true :=
  ⟨(0), (wSess .run), by decide +kernel⟩

theorem witness_StringsAndTheDie_1 : ∃ (i : Fin 4) (s : State), s.stageTwo i = true ∧ s.prot.str[i.val].isolated = false :=
  ⟨(0), ({ wGrp .running with prot := { State.reset.prot with str := updV State.reset.prot.str 0 fun x => { x with vHigh := true } }, sys := { (wGrp .running).sys with tick := 100000000 } }), by decide +kernel⟩

theorem witness_StringsAndTheDie_2 : ∃ (i : Fin 4) (s : State), (s.stageTwo i = false ∨ s.prot.str[i.val].isolated = true) :=
  ⟨(0), (State.reset), by decide +kernel⟩

theorem witness_StringsAndTheDie_3 : ∃ (i : Fin 4) (s : State), s.stageTwo i = true ∧ s.prot.str[i.val].isolated = false ∧ s.sys.passage = .none :=
  ⟨(0), ({ wGrp .running with prot := { State.reset.prot with str := updV State.reset.prot.str 0 fun x => { x with vHigh := true } }, sys := { (wGrp .running).sys with tick := 100000000 } }), by decide +kernel⟩

theorem witness_StringsAndTheDie_4 : ∃ (i : Fin 4) (c : Fin 4) (k : Nat) (s : State), s.ringOf i.val = some c ∧ (s.ringCells c).find? (fun k => ((s.ring c).cellAt k).unmonitored && s.elapsed ((s.ring c).cellAt k).unmonAt (500000 * s.prot.unmonS)) = some k ∧ s.prot.str[i.val].unmonLimit = false :=
  ⟨(0), (0), (1), ({ wRing .run .ring (fun x => { x with cell := updN x.cell 0 fun y => { y with unmonitored := true } }) with sys := { (wSess .run).sys with tick := 100000000000 } }), by decide +kernel⟩

theorem witness_StringsAndTheDie_5 : ∃ (i : Fin 4) (s : State), (s.prot.str[i.val].unmonLimit = true ∨ s.ringOf i.val = none ∨ (∃ c, s.ringOf i.val = some c ∧ ∀ k ∈ s.ringCells c, ((s.ring c).cellAt k).unmonitored = false ∨ s.elapsed ((s.ring c).cellAt k).unmonAt (500000 * s.prot.unmonS) = false)) :=
  ⟨(0), ({ State.reset with prot := { State.reset.prot with str := updV State.reset.prot.str 0 fun x => { x with unmonLimit := true } } }), by decide +kernel⟩

theorem witness_StringsAndTheDie_8 : ∃ (v : Int) (s : State), s.prot.dieWarn = false ∧ 100 * (s.prot.dieWarnC : Int) ≤ v ∧ s.fce.running = true :=
  ⟨(20000), (wFce id), by decide +kernel⟩

theorem witness_StringsAndTheDie_10 : ∃ (v : Int) (s : State), s.prot.dieWarn = true ∧ v < 100 * (s.prot.dieWarnC : Int) - 500 ∧ s.inState [.armed, .run] = true ∧ s.fce.forecastEn = true ∧ s.fce.running = false :=
  ⟨(-9000), ({ wSess .run with prot := { State.reset.prot with dieWarn := true } }), by decide +kernel⟩

theorem witness_StringsAndTheDie_11 : ∃ (v : Int) (s : State), s.limit 9 ≤ v :=
  ⟨(20000), (wSess .standby), by decide +kernel⟩

theorem witness_StringsAndTheDie_12 : ∃ (v : Int) (s : State), v < s.limit 9 :=
  ⟨(-9000), (wSess .standby), by decide +kernel⟩

theorem witness_StringsAndTheDie_13 : ∃ (v : Int) (s : State), s.limit 9 ≤ v ∧ s.sys.state = .standby ∧ s.prot.causes[2] = false ∧ s.sec.resetReq = none ∧ s.power.inputLoss = false :=
  ⟨(20000), (wSess .standby), by decide +kernel⟩

theorem witness_StringsAndTheDie_16 : ∃ (c : Fin 4) (s : State), s.prot.causes[c.val] = false :=
  ⟨(0), (State.reset), by decide +kernel⟩

theorem witness_StringsAndTheDie_17 : ∃ (c : Fin 4) (s : State), s.prot.causes[c.val] = true ∧ s.sys.state ≠ .basalt :=
  ⟨(0), ({ wSess .standby with prot := { State.reset.prot with causes := updV State.reset.prot.causes 0 fun _ => true } }), by decide +kernel⟩

theorem witness_StringsAndTheDie_18 : ∃ (c : Fin 4) (s : State), s.prot.causes[c.val] = true ∧ s.sys.state = .basalt :=
  ⟨(0), ({ wSess .basalt with prot := { State.reset.prot with causes := updV State.reset.prot.causes 0 fun _ => true } }), by decide +kernel⟩

theorem witness_EntryIntoAndExitFromBasalt_1 : ∃ (c : Instr) (s : State), s.sys.state = .run ∧ s.prot.imageOk = true ∧ s.clk.fabricStopped = false ∧ s.power.inputLoss = false ∧ ((∃ m, c = .missedTicks m ∧ 3 ≤ m ∧ s.cfg.activeValid = true) ∨ (∃ v, c = .dieTrip v ∧ s.limit 9 ≤ v) ∨ (∃ n, c = .basaltEnter n ∧ s.allows n .or_ = true)) :=
  ⟨(.dieTrip 20000), ({ wGrp .running with prot := { State.reset.prot with imageOk := true } }), by decide +kernel, by decide +kernel, by decide +kernel, rfl, Or.inr (Or.inl ⟨20000, rfl, by decide +kernel⟩)⟩

theorem witness_EntryIntoAndExitFromBasalt_4 : ∃ (c : Fin 4) (s : State), s.power.inputLoss = false ∧ (s.sys.state = .standby ∨ s.sys.state = .armed) ∧ s.prot.causes[c.val] = false ∧ s.sec.resetReq = none :=
  ⟨(0), (wSess .standby), by decide +kernel⟩

theorem witness_EntryIntoAndExitFromBasalt_5 : ∃ (sess : Fin 64) (s : State), s.allows sess .or_ = true :=
  ⟨(0), (wGrp .running), by decide +kernel⟩

theorem witness_EntryIntoAndExitFromBasalt_6 : ∃ (v : Int) (s : State), s.limit 9 ≤ v ∧ s.sys.state = .run ∧ s.power.inputLoss = false :=
  ⟨(20000), (wGrp .running), by decide +kernel⟩

theorem witness_EntryIntoAndExitFromBasalt_7 : ∃ (s : State), s.prot.entryHold = true ∧ s.elapsed s.prot.entryTick 5000 = true :=
  ⟨({ wSess .basalt with prot := { State.reset.prot with entryHold := true }, sys := { (wSess .basalt).sys with tick := 5000 } }), by decide +kernel⟩

theorem witness_EntryIntoAndExitFromBasalt_8 : ∃ (s : State), (s.prot.entryHold = false ∨ s.elapsed s.prot.entryTick 5000 = false) :=
  ⟨(State.reset), by decide +kernel⟩

theorem witness_EntryIntoAndExitFromBasalt_9 : ∃ (s : State), (s.sys.state ≠ .basalt ∨ s.clk.fabricStopped = false ∨ s.prot.rootless = true ∨ s.prot.rootlessRun ≠ 1200000) :=
  ⟨(State.reset), by decide +kernel⟩

theorem witness_EntryIntoAndExitFromBasalt_10 : ∃ (s : State), s.sys.state = .basalt ∧ s.clk.fabricStopped = true ∧ s.prot.rootless = false ∧ s.prot.rootlessRun = 1200000 :=
  ⟨({ wSess .basalt with clk := { State.reset.clk with fabricStopped := true }, prot := { State.reset.prot with rootlessRun := 1200000 } }), by decide +kernel⟩

theorem witness_EntryIntoAndExitFromBasalt_11 : ∃ (m : Sys2Proof.BasaltSense) (s : State), s.prot.updateTick = none ∧ s.prot.rootless = true ∧ s.prot.rootRamp = 1 :=
  ⟨({ vBus := Vector.replicate 4 0, vStr := Vector.replicate 4 0 }), ({ wGrp .basalt with prot := { State.reset.prot with rootless := true, rootRamp := 1 } }), by decide +kernel⟩

theorem witness_EntryIntoAndExitFromBasalt_12 : ∃ (sess : Fin 64) (s : State), s.allows sess .oa = true ∧ (s.sys.state ≠ .basalt ∨ s.prot.exitOk = false) :=
  ⟨(0), (wSess .basalt), by decide +kernel⟩

theorem witness_EntryIntoAndExitFromBasalt_13 : ∃ (sess : Fin 64) (s : State), s.allows sess .oa = true ∧ s.sys.state = .basalt ∧ s.prot.exitOk = true :=
  ⟨(0), ({ wSess .basalt with prot := { State.reset.prot with exitOk := true } }), by decide +kernel⟩

theorem witness_EntryIntoAndExitFromBasalt_14 : ∃ (sess : Fin 64) (s : State), s.allows sess .oa = true ∧ s.sys.state = .basalt ∧ s.prot.exitOk = true ∧ s.prot.coolShutdown = false ∧ s.sec.watchdogDue = false :=
  ⟨(0), ({ wSess .basalt with prot := { State.reset.prot with exitOk := true } }), by decide +kernel⟩

theorem witness_EntryIntoAndExitFromBasalt_15 : ∃ (sess : Fin 64) (s : State), s.allows sess .oa = true ∧ s.sys.state = .basalt ∧ s.prot.exitOk = true ∧ s.prot.coolShutdown = true ∧ s.sec.watchdogDue = false ∧ s.sys.target = 3 ∧ s.sec.resetReq = none :=
  ⟨(0), ({ wSess .basalt with prot := { State.reset.prot with exitOk := true, coolShutdown := true }, sys := { (wSess .basalt).sys with target := 3 } }), by decide +kernel⟩

theorem witness_EntryIntoAndExitFromBasalt_16 : ∃ (s : State), (s.sys.state ≠ .basalt ∨ s.prot.exitOk = false ∨ s.prot.autoExit = false ∨ s.prot.causes[3] = true ∨ s.elapsed s.prot.exitTick (500000 * s.prot.exitHoldS) = false) :=
  ⟨(State.reset), by decide +kernel⟩

theorem witness_EntryIntoAndExitFromBasalt_17 : ∃ (s : State), s.sys.state = .basalt ∧ s.prot.exitOk = true ∧ s.prot.autoExit = true ∧ s.prot.causes[3] = false ∧ s.elapsed s.prot.exitTick (500000 * s.prot.exitHoldS) = true :=
  ⟨({ wSess .basalt with prot := { State.reset.prot with exitOk := true, autoExit := true }, sys := { (wSess .basalt).sys with tick := 10000000000 } }), by decide +kernel⟩

theorem witness_EntryIntoAndExitFromBasalt_18 : ∃ (s : State), s.sys.state = .basalt ∧ s.prot.exitOk = true ∧ s.prot.autoExit = true ∧ s.prot.causes[3] = false ∧ s.elapsed s.prot.exitTick (500000 * s.prot.exitHoldS) = true ∧ s.prot.coolShutdown = false ∧ s.sec.watchdogDue = false :=
  ⟨({ wSess .basalt with prot := { State.reset.prot with exitOk := true, autoExit := true }, sys := { (wSess .basalt).sys with tick := 10000000000 } }), by decide +kernel⟩

theorem witness_EntryIntoAndExitFromBasalt_19 : ∃ (m : Sys2Proof.BasaltSense) (t0 : Nat) (s : State), s.prot.updateTick = some t0 ∧ s.elapsed t0 25 = false :=
  ⟨({ vBus := Vector.replicate 4 0, vStr := Vector.replicate 4 0 }), (0), ({ State.reset with prot := { State.reset.prot with updateTick := some 0 } }), by decide +kernel⟩

theorem witness_EntryIntoAndExitFromBasalt_20 : ∃ (m : Sys2Proof.BasaltSense) (s : State), ((∀ g, (s.grp g).state ≠ .basalt ∧ (s.grp g).basaltStop = false)) ∧ s.prot.rootRamp = 0 :=
  ⟨({ vBus := Vector.replicate 4 0, vStr := Vector.replicate 4 0 }), (State.reset), by decide +kernel⟩

theorem witness_EntryIntoAndExitFromBasalt_21 : ∃ (m : Sys2Proof.BasaltSense) (g : Fin 4) (img : BasaltImg) (s : State), (s.grp g).state = .basalt ∧ s.sys.gdrvEn[g.val] = true ∧ s.nAct g ≠ 0 ∧ ((∀ j, j ≠ g → (s.grp j).state ≠ .basalt)) ∧ s.prot.image[g.val] = some img ∧ s.prot.updateTick = none ∧ s.prot.rootRamp = 0 ∧ s.prot.rootless = false :=
  ⟨({ vBus := Vector.replicate 4 790000, vStr := Vector.replicate 4 700000 }), (0), ({ phases := [0, 1], peakLimits := [5000, 5000], slopeDacs := [0, 0], phPeak := 2000, rippleHalf := 100, deadtime := 50, vbusCh := 65, vbusOfs := 0, vbusGain := 0, vbusScale := 1, vstrCh := 64, vstrOfs := 0, vstrGain := 0, vstrScale := 1, vshift := 0 }), ({ wGrp .basalt with sys := { (wGrp .basalt).sys with state := .basalt, gdrvEn := Vector.replicate 4 true }, prot := { State.reset.prot with image := updV State.reset.prot.image 0 fun _ => some { phases := [0, 1], peakLimits := [5000, 5000], slopeDacs := [0, 0], phPeak := 2000, rippleHalf := 100, deadtime := 50, vbusCh := 65, vbusOfs := 0, vbusGain := 0, vbusScale := 1, vstrCh := 64, vstrOfs := 0, vstrGain := 0, vstrScale := 1, vshift := 0 } } }), by decide +kernel⟩

theorem witness_EntryIntoAndExitFromBasalt_22 : ∃ (m : Sys2Proof.BasaltSense) (g : Fin 4) (s : State), (s.grp g).state = .stopping ∧ (s.grp g).basaltStop = true ∧ 25 ≤ (s.grp g).rampLeft ∧ ((∀ j, j ≠ g → (s.grp j).state ≠ .basalt ∧ (s.grp j).basaltStop = false)) ∧ s.prot.updateTick = none ∧ s.prot.rootRamp = 0 :=
  ⟨({ vBus := Vector.replicate 4 0, vStr := Vector.replicate 4 0 }), (0), (wGrp .stopping fun x => { x with basaltStop := true, rampLeft := 50, rampLen := 100, stopPk := 800 }), by decide +kernel⟩

theorem witness_EntryIntoAndExitFromBasalt_23 : ∃ (sess : Fin 64) (mask : BitVec 4) (s : State), s.allows sess .or_ = true :=
  ⟨(0), (3), (wGrp .basalt), by decide +kernel⟩

theorem witness_EntryIntoAndExitFromBasalt_24 : ∃ (g : Fin 4) (s : State), (s.loop.basaltGroups[g.val] = false ∨ s.sys.tick < s.prot.handTick[g.val] + 500000) :=
  ⟨(0), (State.reset), by decide +kernel⟩

theorem witness_EntryIntoAndExitFromBasalt_25 : ∃ (g : Fin 4) (s : State), s.loop.basaltGroups[g.val] = true ∧ s.prot.handTick[g.val] + 500000 ≤ s.sys.tick :=
  ⟨(0), ({ wGrp .basalt with loop := { State.reset.loop with basaltGroups := updV State.reset.loop.basaltGroups 0 fun _ => true }, sys := { (wGrp .basalt).sys with tick := 600000 } }), by decide +kernel⟩

theorem witness_EntryIntoAndExitFromBasalt_26 : ∃ (sess : Fin 64) (g : Fin 4) (mask : BitVec 4) (s : State), s.allows sess .or_ = true ∧ s.loop.basaltGroups[g.val] = true ∧ s.prot.handTick[g.val] + 500000 ≤ s.sys.tick ∧ tb mask.toNat g.val = true ∧ ((∀ j : Fin 4, j ≠ g → s.loop.basaltGroups[j.val] = false)) ∧ (s.grp g).state = .basalt :=
  ⟨(0), (0), (1), ({ wGrp .basalt with loop := { State.reset.loop with basaltGroups := updV State.reset.loop.basaltGroups 0 fun _ => true }, sys := { (wGrp .basalt).sys with tick := 600000 } }), by decide +kernel⟩

theorem witness_CoolantLossAndRecovery_1 : ∃ (s : State), s.prot.flowLow = false ∧ 5000 * s.prot.flowMs ≤ s.prot.flowBelow :=
  ⟨({ wSess .run with prot := { State.reset.prot with flowBelow := 100000000 } }), by decide +kernel⟩

theorem witness_CoolantLossAndRecovery_2 : ∃ (s : State), (s.prot.flowLow = true ∨ s.prot.flowBelow < 5000 * s.prot.flowMs) :=
  ⟨({ State.reset with prot := { State.reset.prot with flowLow := true } }), by decide +kernel⟩

theorem witness_CoolantLossAndRecovery_3 : ∃ (sess : Fin 64) (s : State), s.allows sess .ox = true :=
  ⟨(0), (wSess .run), by decide +kernel⟩

theorem witness_CoolantLossAndRecovery_5 : ∃ (sess : Fin 64) (s : State), s.allows sess .oa = true :=
  ⟨(0), (wSess .run), by decide +kernel⟩

theorem witness_CoolantLossAndRecovery_6 : ∃ (s : State), s.prot.thermalRamp = true ∧ s.prot.rampDone = false ∧ s.elapsed s.prot.rampTick 500 = true :=
  ⟨({ wPort .run (fun x => { x with target := 200 }) with prot := { State.reset.prot with thermalRamp := true }, sys := { (wSess .run).sys with tick := 500 } }), by decide +kernel⟩

theorem witness_CoolantLossAndRecovery_7 : ∃ (s : State), s.prot.thermalRamp = true ∧ s.prot.rampDone = false ∧ s.elapsed s.prot.rampTick 500 = true :=
  ⟨({ wPort .run (fun x => { x with target := 200 }) with prot := { State.reset.prot with thermalRamp := true }, sys := { (wSess .run).sys with tick := 500 } }), by decide +kernel⟩

theorem witness_CoolantLossAndRecovery_8 : ∃ (s : State), (s.prot.thermalRamp = false ∨ s.prot.rampDone = true ∨ s.elapsed s.prot.rampTick 500 = false) :=
  ⟨(State.reset), by decide +kernel⟩

theorem witness_CoolantLossAndRecovery_9 : ∃ (s : State), s.prot.thermalRamp = true ∧ s.prot.cduAlarm = false ∧ (s.param 0x0010 0 = 0 ∨ 30000000 ≤ s.prot.flowAbove) :=
  ⟨({ wSess .run with prot := { State.reset.prot with thermalRamp := true, flowAbove := 30000000 } }), by decide +kernel⟩

theorem witness_CoolantLossAndRecovery_10 : ∃ (s : State), (s.prot.thermalRamp = false ∨ s.prot.cduAlarm = true ∨ (s.param 0x0010 0 ≠ 0 ∧ s.prot.flowAbove < 30000000)) :=
  ⟨(State.reset), by decide +kernel⟩

theorem witness_CoolantLossAndRecovery_11 : ∃ (k : Nat) (s : State), s.prot.coolNext = some (k + 1) ∧ (k = 3 ∨ s.elapsed s.prot.coolTick (5000 * s.prot.staggerMs) = true) :=
  ⟨(3), ({ wGrp .running with prot := { State.reset.prot with coolNext := some 4 } }), by decide +kernel⟩

theorem witness_CoolantLossAndRecovery_13 : ∃ (k : Nat) (g : Fin 4) (s : State), s.prot.coolNext = some (k + 1) ∧ s.coolGroup (k + 1) = some g ∧ (k = 3 ∨ s.elapsed s.prot.coolTick (5000 * s.prot.staggerMs) = true) ∧ (s.grp g).state = .running ∧ s.sys.state = .run :=
  ⟨(3), (0), ({ wGrp .running with prot := { State.reset.prot with coolNext := some 4 } }), by decide +kernel⟩

theorem witness_CoolantLossAndRecovery_14 : ∃ (s : State), (s.prot.coolNext = none ∨ s.prot.coolNext = some 0 ∨ (s.prot.coolNext ≠ some 4 ∧ s.elapsed s.prot.coolTick (5000 * s.prot.staggerMs) = false)) :=
  ⟨(State.reset), by decide +kernel⟩

theorem witness_CoolantLossAndRecovery_15 : ∃ (s : State), 30000000 ≤ s.prot.coolBelow :=
  ⟨({ State.reset with prot := { State.reset.prot with coolBelow := 30000000 } }), by decide +kernel⟩

theorem witness_CoolantLossAndRecovery_16 : ∃ (s : State), s.prot.coolBelow < 30000000 :=
  ⟨(State.reset), by decide +kernel⟩

theorem witness_DmaTransfers_1 : ∃ (n : Fin 32) (d : DmaDesc) (sh : Option DmaDesc) (moved : List (Fin 32 × Nat)) (s : State), s.mem.ch[n.val].busy = false ∧ s.lit = true :=
  ⟨(0), ({ src := 0, dst := 64, lineLen := 64, lines := 1, srcStride := 0, dstStride := 0, crcWb := false, crit := false }), (none), ([]), (wLit), by decide +kernel⟩

theorem witness_DmaTransfers_2 : ∃ (n : Fin 32) (d : DmaDesc) (sh : Option DmaDesc) (moved : List (Fin 32 × Nat)) (s : State), (s.mem.ch[n.val].busy = true ∨ s.lit = false) :=
  ⟨(0), ({ src := 0, dst := 64, lineLen := 64, lines := 1, srcStride := 0, dstStride := 0, crcWb := false, crit := false }), (none), ([]), (wDma 0 (fun x => { x with state := .running })), by decide +kernel⟩

theorem witness_DmaTransfers_3 : ∃ (n : Fin 32) (d : DmaDesc) (moved : List (Fin 32 × Nat)) (s : State), s.lit = true ∧ s.mem.ch[n.val].busy = false ∧ (dmaSetOf d n.val false).ok n.val = true ∧ n.val < 28 ∧ d.crit = false :=
  ⟨(0), ({ src := 0, dst := 64, lineLen := 64, lines := 1, srcStride := 0, dstStride := 0, crcWb := false, crit := false }), ([]), (wLit), by decide +kernel⟩

theorem witness_DmaTransfers_4 : ∃ (n : Fin 32) (d : DmaDesc) (moved : List (Fin 32 × Nat)) (s : State), s.lit = true ∧ s.mem.ch[n.val].busy = false ∧ (dmaSetOf d n.val false).ok n.val = false ∧ n.val < 28 ∧ d.crit = false :=
  ⟨(0), ({ src := 1, dst := 64, lineLen := 64, lines := 1, srcStride := 0, dstStride := 0, crcWb := false, crit := false }), ([]), (wLit), by decide +kernel⟩

theorem witness_DmaTransfers_5 : ∃ (n : Fin 32) (s : State), s.mem.ch[n.val].state = .running ∧ s.mem.ch[n.val].act.pages.all s.pageResident = true :=
  ⟨(3), (wDma 3 (fun x => { x with state := .running, act := { src := 0, dst := 128, lineLen := 64, lines := 1 }, crcRun := 0xFFFFFFFF })), by decide +kernel⟩

theorem witness_DmaTransfers_6 : ∃ (n : Fin 32) (s : State), (s.mem.ch[n.val].state ≠ .running ∨ s.mem.ch[n.val].act.pages.all s.pageResident = false) :=
  ⟨(0), (State.reset), by decide +kernel⟩

theorem witness_DmaTransfers_7 : ∃ (n : Fin 32) (a : Nat) (b : Nat) (k : Nat) (s : State), s.mem.ch[n.val].state = .running ∧ s.mem.ch[n.val].act.src = a ∧ s.mem.ch[n.val].act.dst = b ∧ s.mem.ch[n.val].act.lineLen = k ∧ s.mem.ch[n.val].act.lines = 1 ∧ 64 ≤ k ∧ k ≤ 4096 ∧ a + k ≤ 2 ^ 29 ∧ b + k ≤ 2 ^ 29 ∧ s.mem.ch[n.val].line = 0 ∧ s.mem.ch[n.val].pos = 0 ∧ s.mem.ch[n.val].held = [] ∧ s.mem.ch[n.val].act.crcWb = false ∧ s.mem.ch[n.val].shadow.arm = false ∧ s.mem.ch[n.val].crcRun = 0xFFFFFFFF ∧ ((∀ m : Fin 32, m ≠ n → s.mem.ch[m.val].state ≠ .running)) :=
  ⟨(3), (0), (128), (64), (wDma 3 (fun x => { x with state := .running, act := { src := 0, dst := 128, lineLen := 64, lines := 1 }, crcRun := 0xFFFFFFFF })), by decide +kernel⟩

theorem witness_DmaTransfers_8 : ∃ (n : Fin 32) (k : Nat) (s : State), s.mem.ch[n.val].state = .running :=
  ⟨(3), (0), (wDma 3 (fun x => { x with state := .running, act := { src := 0, dst := 128, lineLen := 64, lines := 1 } })), by decide +kernel⟩

theorem witness_DmaTransfers_9 : ∃ (n : Fin 32) (k : Nat) (s : State), s.mem.ch[n.val].state ≠ .running :=
  ⟨(0), (1), (State.reset), by decide +kernel⟩

theorem witness_DmaTransfers_10 : ∃ (n : Fin 32) (s : State), s.mem.ch[n.val].state = .running ∧ s.mem.ch[n.val].shadow.arm = false ∧ s.mem.ch[n.val].line < s.mem.ch[n.val].act.lines :=
  ⟨(3), (wDma 3 (fun x => { x with state := .running, act := { src := 0, dst := 128, lineLen := 64, lines := 1 } })), by decide +kernel⟩

theorem witness_DmaTransfers_11 : ∃ (n : Fin 32) (k : Nat) (s : State), s.mem.ch[n.val].busy = true :=
  ⟨(30), (2), (wDma 30 (fun x => { x with state := .suspended, act := { src := 0, dst := 128, lineLen := 64, lines := 1 } })), by decide +kernel⟩

theorem witness_DmaTransfers_12 : ∃ (n : Fin 32) (k : Nat) (s : State), s.mem.ch[n.val].busy = false :=
  ⟨(0), (1), (State.reset), by decide +kernel⟩

theorem witness_DmaTransfers_13 : ∃ (n : Fin 32) (k : Nat) (s : State), s.mem.ch[n.val].busy = true ∧ s.mem.ch[n.val].shadow.arm = false ∧ (s.mem.ch[n.val].state ≠ .running ∨ k = 0) :=
  ⟨(30), (5), (wDma 30 (fun x => { x with state := .suspended, act := { src := 0, dst := 128, lineLen := 64, lines := 1 } })), by decide +kernel⟩

theorem witness_DmaTransfers_14 : ∃ (k : Fin 3) (m : Fin 32) (s : State), s.grantIn k = some m :=
  ⟨(1), (3), (wDma 3 (fun x => { x with state := .running, act := { src := 0, dst := 128, lineLen := 64, lines := 1 }, crcRun := 0xFFFFFFFF })), by decide +kernel⟩

theorem witness_TierPages_1 : ∃ (n : Fin 32) (k : Nat) (b : Nat) (page : Nat) (s : State), 28 ≤ n.val ∧ s.mem.ch[n.val].state = .running ∧ page < 65536 ∧ s.pageResident page = false :=
  ⟨(29), (0), (0), (1), (wDma 29 (fun x => { x with state := .running })), by decide +kernel⟩

theorem witness_TierPages_2 : ∃ (n : Fin 32) (page : Nat) (s : State), 28 ≤ n.val ∧ s.mem.ch[n.val].state = .running ∧ page < 65536 ∧ s.pageResident page = false ∧ s.mem.migrating.contains page = false :=
  ⟨(29), (1), (wDma 29 (fun x => { x with state := .running })), by decide +kernel⟩

theorem witness_TierPages_3 : ∃ (n : Fin 32) (k : Nat) (b : Nat) (page : Nat) (s : State), (n.val < 28 ∨ s.mem.ch[n.val].state ≠ .running) :=
  ⟨(3), (0), (0), (1), (State.reset), by decide +kernel⟩

theorem witness_TierPages_4 : ∃ (i : Fin 10) (k : Nat) (b : Nat) (page : Nat) (s : State), page < 65536 ∧ s.pageResident page = false :=
  ⟨(2), (0), (0), (1), (State.reset), by decide +kernel⟩

theorem witness_TierPages_5 : ∃ (i : Fin 10) (k : Nat) (b : Nat) (page : Nat) (s : State), page < 65536 ∧ s.pageResident page = false :=
  ⟨(2), (0), (0), (1), (State.reset), by decide +kernel⟩

theorem witness_TierPages_6 : ∃ (u : TierUnit) (k : Nat) (b : Nat) (page : Nat) (s : State), (s.pageResident page = true ∨ 65536 ≤ page) :=
  ⟨(.load 0), (0), (0), (1), ({ State.reset with mem := { State.reset.mem with resident := [(1, false)] } }), by decide +kernel⟩

theorem witness_TierPages_7 : ∃ (page : Nat) (ns : Nat) (s : State) (u : State), s.mem.migrating.contains page = true ∧ s.admitPage page = some u :=
  ⟨(7), (80000), (wMig), (wMig.bringPage 7), by decide +kernel, (by unfold State.admitPage; exact if_pos (by decide +kernel))⟩

theorem witness_TierPages_8 : ∃ (page : Nat) (ns : Nat) (s : State), s.mem.migrating.contains page = true :=
  ⟨(7), (80000), (wMig), by decide +kernel⟩

theorem witness_TierPages_9 : ∃ (page : Nat) (ns : Nat) (ok : Bool) (s : State), (s.mem.migrating.contains page = false ∨ (ok = true ∧ s.admitPage page = none)) :=
  ⟨(7), (80000), (true), (State.reset), by decide +kernel⟩

theorem witness_TierPages_10 : ∃ (page : Nat) (ns : Nat) (s : State), s.mem.migrating.contains page = true ∧ s.mem.resident.length < 16384 :=
  ⟨(7), (80000), (wMig), by decide +kernel⟩

theorem witness_TierPages_11 : ∃ (page : Nat) (s : State), 16384 ≤ s.mem.resident.length :=
  ⟨(7), ({ State.reset with mem := { State.reset.mem with resident := List.replicate 16384 (1, false) } }), by show 16384 ≤ (List.replicate 16384 ((1 : Nat), false)).length; rw [List.length_replicate]⟩

theorem witness_TierPages_12 : ∃ (page : Nat) (a : Nat) (x : Nat × Bool) (s : State), s.Inv :=
  ⟨(7), (0), ((1, true)), (wMig), by unfold State.Inv; decide +kernel⟩

theorem witness_TierPages_13 : ∃ (page : Nat) (ns : Nat) (a : Nat) (s : State), s.mem.migrating.contains page = true ∧ s.mem.resident.length < 16384 ∧ s.Inv :=
  ⟨(7), (80000), (0), (wMig), by decide +kernel, by decide +kernel, (by unfold State.Inv; decide +kernel)⟩

theorem witness_TierPages_14 : ∃ (n : Fin 32) (page : Nat) (ns : Nat) (s : State), s.mem.migrating.contains page = true ∧ s.mem.ch[n.val].state = .suspended ∧ s.mem.ch[n.val].faultPage = some page ∧ s.mem.ch[n.val].shadow.arm = false :=
  ⟨(29), (7), (80000), (wMig), by decide +kernel⟩

theorem witness_CodewordErrors_2 : ∃ (p : EccPlace) (s : State), s.eccLive p = true :=
  ⟨(.config), (wSess .run), by decide +kernel⟩

theorem witness_CodewordErrors_3 : ∃ (p : EccPlace) (s : State), s.eccLive p = false :=
  ⟨(.dmaBeat 3 0), (State.reset), by decide +kernel⟩

theorem witness_CodewordErrors_10 : ∃ (b : List Byte), b.head? ≠ some 0xFF :=
  ⟨([1, 2, 3, 4]), by decide +kernel⟩

theorem witness_CodewordErrors_13 : ∃ (n : Fin 32) (s : State), s.mem.ch[n.val].state = .running ∧ s.mem.ch[n.val].shadow.arm = false :=
  ⟨(3), (wDma 3 (fun x => { x with state := .running, act := { src := 0, dst := 128, lineLen := 64, lines := 1 } })), by decide +kernel⟩

theorem witness_RecorderControls_1 : ∃ (n : Fin 64) (s : State), s.allows n .ia = true :=
  ⟨(0), (wSess .run), by decide +kernel⟩

theorem witness_RecorderControls_2 : ∃ (n : Fin 64) (code : BitVec 16) (inst : BitVec 16) (s : State), s.allows n .ox = true ∧ code.toNat / 4096 = 15 :=
  ⟨(0), (0xF123), (7), (wSess .run), by decide +kernel⟩

theorem witness_RecorderControls_3 : ∃ (n : Fin 64) (code : BitVec 16) (inst : BitVec 16) (s : State), s.allows n .ox = true ∧ code.toNat / 4096 ≠ 15 :=
  ⟨(0), (0x1123), (7), (wSess .run), by decide +kernel⟩

theorem witness_RecorderControls_4 : ∃ (s : State), s.evr.lossOwed = true ∧ s.evr.staging.length < 4096 :=
  ⟨({ State.reset with evr := { State.reset.evr with lossOwed := true } }), by decide +kernel⟩

theorem witness_RecorderControls_5 : ∃ (s : State), (s.evr.lossOwed = false ∨ 4096 ≤ s.evr.staging.length) :=
  ⟨(State.reset), by decide +kernel⟩

theorem witness_RecorderControls_6 : ∃ (s : State), s.evr.freezeAt.any (s.elapsed · 5000000) = true ∧ s.evr.capFrozen = false :=
  ⟨({ State.reset with evr := { State.reset.evr with freezeAt := some 0 }, sys := { State.reset.sys with tick := 5000000 } }), by decide +kernel⟩

theorem witness_RecorderControls_7 : ∃ (s : State), (s.evr.freezeAt.any (s.elapsed · 5000000) = false ∨ s.evr.capFrozen = true) :=
  ⟨(State.reset), by decide +kernel⟩

theorem witness_RecorderControls_8 : ∃ (n : Fin 64) (s : State), s.allows n .ox = true ∧ s.evr.capFrozen = true :=
  ⟨(0), ({ wSess .run with evr := { State.reset.evr with capFrozen := true } }), by decide +kernel⟩

theorem witness_RecorderControls_9 : ∃ (n : Fin 64) (s : State), s.allows n .ox = true ∧ s.evr.capFrozen = false :=
  ⟨(0), (wSess .run), by decide +kernel⟩

theorem witness_ObsidianStore_1 : ∃ (s : State), s.evr.writer = true ∧ s.clk.fabricStopped = false ∧ 50 ≤ s.evr.keyTicks :=
  ⟨(wObs .live .free), by decide +kernel⟩

theorem witness_ObsidianStore_3 : ∃ (s : State), (s.evr.writer = false ∨ s.clk.fabricStopped = true ∨ s.evr.keyTicks < 50) :=
  ⟨(State.reset), by decide +kernel⟩

theorem witness_ObsidianStore_4 : ∃ (n : Fin 64) (s : State), s.allows n .oa = true :=
  ⟨(0), ({ wObs .live .free with net := (wSess .run).net }), by decide +kernel⟩

theorem witness_ObsidianStore_6 : ∃ (c : Fin 4) (code : Nat) (time : Nat) (v : Evr), v.slotWhere (fun x => x.state = .closing) = some c :=
  ⟨(0), (1), (2), ((wObs .closing .live).evr), by decide +kernel⟩

theorem witness_ObsidianStore_8 : ∃ (i : Fin 4) (j : Fin 4) (n : Fin 64) (s : State), s.allows n .oa = true ∧ s.evr.writer = true ∧ ((∀ k : Fin 4, s.evr.slot[k.val].state ≠ .closing)) ∧ s.evr.slotWhere (fun x => x.state = .live) = some i ∧ (s.evr.slotWhere (fun x => x.state = .free) = some j ∨ (s.evr.slotWhere (fun x => x.state = .free) = none ∧ s.evr.oldestClosed = some j)) ∧ s.evr.slot[i.val].marks = [] ∧ (s.bucketCfg 0xC041).2.2 = false :=
  ⟨(0), (1), (0), ({ wObs .live .free with net := (wSess .run).net }), by decide +kernel⟩

theorem witness_ObsidianStore_9 : ∃ (j : Fin 4) (v : Evr), v.oldestClosed = some j :=
  ⟨(1), ((wObs .live .closed).evr), by decide +kernel⟩

theorem witness_ObsidianStore_10 : ∃ (n : Fin 64) (s : State), s.allows n .oa = true ∧ s.evr.writer = false :=
  ⟨(0), (wSess .run), by decide +kernel⟩

theorem witness_ObsidianStore_11 : ∃ (i : Fin 4) (s : State), s.evr.slotWhere (fun x => x.state = .closing && x.left = 0) = some i :=
  ⟨(0), (wObs .closing .live), by decide +kernel⟩

theorem witness_ObsidianStore_12 : ∃ (s : State), s.evr.slotWhere (fun x => x.state = .closing && x.left = 0) = none :=
  ⟨(State.reset), by decide +kernel⟩

theorem witness_ObsidianStore_13 : ∃ (n : Fin 64) (s : State), s.allows n .ia = true :=
  ⟨(0), ({ wObs .kept .live with net := (wSess .run).net }), by decide +kernel⟩

theorem witness_ObsidianStore_14 : ∃ (n : Fin 64) (i : Fin 4) (s : State), s.allows n .ia = true ∧ (s.bucketCfg 0xC052).2.2 = false ∧ (s.bucketCfg 0xC041).2.2 = false :=
  ⟨(0), (0), ({ wObs .kept .live with net := (wSess .run).net }), by decide +kernel⟩

theorem witness_TheTick_1 : ∃ (x : Sys2Proof.TickInputs) (s : State), (s.power.powered = false ∨ s.clk.fabricStopped = true) :=
  ⟨(wTick), ({ State.reset with power := { powered := false } }), by decide +kernel⟩

theorem witness_TheTick_2 : ∃ (x : Sys2Proof.TickInputs) (s : State), s.power.powered = true ∧ s.clk.fabricStopped = false ∧ s.power.inputLoss = true :=
  ⟨(wTick), ({ State.reset with power := { powered := true, inputLoss := true } }), by decide +kernel⟩

theorem witness_TheTick_3 : ∃ (x : Sys2Proof.TickInputs) (s : State), s.power.powered = true ∧ s.clk.fabricStopped = false ∧ s.power.inputLoss = true :=
  ⟨(wTick), ({ State.reset with power := { powered := true, inputLoss := true } }), by decide +kernel⟩

theorem witness_TheTick_4 : ∃ (x : Sys2Proof.TickInputs) (s : State), s.power.powered = true ∧ s.clk.fabricStopped = false ∧ s.power.inputLoss = false :=
  ⟨(wTick), (wLit), by decide +kernel⟩

theorem witness_TheTick_6 : ∃ (x : Sys2Proof.TickInputs) (s : State), s.power.powered = true ∧ s.clk.fabricStopped = false ∧ s.power.inputLoss = false :=
  ⟨(wTick), (wLit), by decide +kernel⟩

theorem witness_LoopArithmetic_4 : ∃ (i : Fin 64) (ev : Bool) (s : State), (s.slot i).transfer = false ∧ s.testRec i.val = none :=
  ⟨(0), (true), (State.reset), by decide +kernel⟩

theorem witness_LoopArithmetic_5 : ∃ (i : Fin 64) (s : State), (s.slot i).transfer = true ∧ s.testRec i.val = none :=
  ⟨(0), (wSlot State.reset fun x => { x with transfer := true, out := 5 }), by decide +kernel⟩

theorem witness_LoopArithmetic_6 : ∃ (x : Slot) (sat : Bool) (limit : Nat) (k : Nat), x.shadow = false :=
  ⟨({}), (true), (8), (12), by decide +kernel⟩

theorem witness_LoopArithmetic_7 : ∃ (x : Slot) (sat : Bool) (limit : Nat) (k : Nat), x.shadow = true :=
  ⟨({ shadow := true }), (true), (8), (12), by decide +kernel⟩

theorem witness_TheQueueIsFirstInFirstOut_1 : ∃ (c : Instr) (rest : List Instr) (s : State) (t : State), s.pending = c :: rest ∧ step s = .next t :=
  ⟨(.recordsLost), ([]), ({ State.reset with pending := [.recordsLost] }), (State.reset), rfl, rfl⟩

theorem witness_MemoriesStayCanonical_1 : ∃ (s : State) (t : State), s.Inv ∧ step s = .next t :=
  ⟨(State.reset), (State.reset), by unfold State.Inv; decide +kernel, rfl⟩

theorem witness_EveryCommandStaysInItsParts_1 : ∃ (c : Instr) (s : State) (t : State), exec c s = .next t :=
  ⟨(.recordsLost), (State.reset), (State.reset), rfl⟩

theorem witness_EveryCommandCompletes_1 : ∃ (c : Instr) (s : State), (c ≠ .jtagInstruction .debug ∨ s.debugOpen = false) :=
  ⟨(.recordsLost), (State.reset), Or.inr (by decide +kernel)⟩

theorem witness_EveryCommandCompletes_2 : ∃ (s : State), s.debugOpen = true :=
  ⟨({ State.reset with sec := { State.reset.sec with lifecycle := 3 } }), by decide +kernel⟩

theorem witness_TheLifecycleMovesForward_1 : ∃ (s : State) (t : State), step s = .next t :=
  ⟨(State.reset), (State.reset), rfl⟩

theorem witness_RegisterWritesAreGuarded_1 : ∃ (r : Role) (st : DevState) (a : Nat) (v : Nat) (s : State), 0x00F00000 ≤ a :=
  ⟨(.integrator), (.run), (0x00F00000), (1), (State.reset), by decide +kernel⟩

theorem witness_RegisterWritesAreGuarded_3 : ∃ (r : Role) (st : DevState) (a : Nat) (v : Nat) (s : State), (s.regLive a).isSome = true ∧ firmwareReg a = true :=
  ⟨(.integrator), (.run), (0x00C01000), (1), (State.reset), by decide +kernel⟩

theorem witness_RegisterWritesAreGuarded_4 : ∃ (r : Role) (st : DevState) (a : Nat) (v : Nat) (s : State), (s.regLive a).isSome = true ∧ firmwareReg a = false ∧ (s.wreg a = none ∨ s.instLive a = false) :=
  ⟨(.integrator), (.run), (0x00400000), (1), (State.reset), by decide +kernel, by decide +kernel, Or.inl rfl⟩

theorem witness_RegisterWritesAreGuarded_5 : ∃ (r : Role) (st : DevState) (c : AccClass), roleMayWrite r st c = true :=
  ⟨(.operator), (.run), (.oa), by decide +kernel⟩

theorem witness_RegisterReadsChangeNoRegister_2 : ∃ (req : Nat) (a : Nat) (v : Nat) (s : State), s.regLive a = some v ∧ s.instLive a = true ∧ loReg a = true :=
  ⟨(0), (0x50), (0), (State.reset), by decide +kernel⟩

theorem witness_RegisterReadsChangeNoRegister_3 : ∃ (req : Nat) (a : Nat) (v : Nat) (s : State), s.regLive a = some v :=
  ⟨(0), (0x50), (0), (State.reset), by decide +kernel⟩

theorem witness_EventRecorder_1 : ∃ (c : Nat) (i : Nat) (d : Nat) (s : State), unlimitedCode c = true ∧ s.evr.entered < 4 ∧ s.evr.staging = [] ∧ s.evr.first.length < 8192 ∧ s.evr.firstFull = false :=
  ⟨(0x0001), (0), (0), (State.reset), by decide +kernel⟩

theorem witness_EventRecorder_2 : ∃ (c : Nat) (i : Nat) (d : Nat) (s : State), unlimitedCode c = true ∧ 4 ≤ s.evr.entered ∧ s.evr.staging.length < 4096 :=
  ⟨(0x0001), (0), (0), ({ State.reset with evr := { State.reset.evr with entered := 4 } }), by decide +kernel⟩

theorem witness_EventRecorder_3 : ∃ (c : Nat) (i : Nat) (d : Nat) (s : State), unlimitedCode c = true ∧ s.evr.staging.length = 4096 :=
  ⟨(0x0001), (0), (0), ({ State.reset with evr := { State.reset.evr with staging := List.replicate 4096 { code := 1, inst := 0, seq := 0, time := 0, tick := 0, data := 0, suppressed := 0 } } }), by decide +kernel, List.length_replicate⟩

theorem witness_EventRecorder_4 : ∃ (c : Nat) (i : Nat) (d : Nat) (b : Bucket) (s : State), unlimitedCode c = false ∧ s.evr.buckets.find? (fun b => b.code == c) = some b ∧ b.tokens < 500000 ∧ b.tick = s.sys.tick :=
  ⟨(0x3030), (0), (0), ({ code := 0x3030, tokens := 0, tick := 0, suppressed := 0 }), ({ State.reset with evr := { State.reset.evr with buckets := [{ code := 0x3030, tokens := 0, tick := 0, suppressed := 0 }] } }), by decide +kernel⟩

theorem witness_EventRecorder_5 : ∃ (c : Nat) (i : Nat) (d : Nat) (s : State), unlimitedCode c = true :=
  ⟨(0x0001), (0), (0), (State.reset), by decide +kernel⟩

theorem witness_LossOfStandbySupply_1 : ∃ (s : State), s.power.powered = true ∧ (s.power.inputLoss = false ∨ s.power.aux54Ok = true) ∧ s.power.stbySrc = false :=
  ⟨(wLit), by decide +kernel⟩

theorem witness_LossOfStandbySupply_2 : ∃ (s : State), s.power.powered = true ∧ s.power.stbySrc = true ∧ s.power.stby12Gone = true :=
  ⟨({ wLit with power := { wLit.power with stbySrc := true, stby12Gone := true } }), by decide +kernel⟩
end

section
/-! SUPPORT. What each command touches: narrower lists for the commands whose shared operations are stated with a longer one, and one
statement over every command. -/

namespace Sys2Proof.Machine

/-- A longer list of parts allows what a shorter one does. -/
theorem State.only_mono {l m : List Blk} {s t : State} (hl : l ⊆ m) (h : State.only l s t) : State.only m s t :=
  fun b hb => h b fun hm => hb (hl hm)

theorem Kept.mono {l m : List Blk} {s t : State} (hl : l ⊆ m) (h : Kept l s t) : Kept m s t :=
  ⟨State.only_mono hl h.only, h.mem, h.life⟩

/-- An event that occurs under a condition. -/
theorem Kept.evIf {l : List Blk} {s x : State} (h : Kept l s x) (hT : [.evr] ⊆ l) (c : Prop) [Decidable c]
    (code inst data : Nat) : Kept l s (if c then x.ev code inst data else x) :=
  .ite (State.ev_kept _ _ _ _ hT h) h

/-! Estimation: a reading touches EST and the recorder. -/

theorem State.takeReading_touches (s : State) (i : Fin 4) (mean : Int) (cellV : List Nat) :
    Kept [.est, .evr] s (s.takeReading i mean cellV) := by
  unfold State.takeReading
  refine .evIf (.evIf (State.ev_kept _ _ _ _ (by decide) ?_) (by decide) _ _ _ _) (by decide) _ _ _ _
  exact State.updStr_kept _ _ _ (by decide) .rfl

theorem State.restStep_touches (s : State) (i : Fin 4) : Kept [.est, .evr] s (s.restStep i) := by
  have upd (t : State) (f : Str → Str) : Kept [.est, .evr] t (t.updStr i f) := State.updStr_kept t i f (by decide) .rfl
  unfold State.restStep
  refine .ite (upd _ _) (.ite (.ite ?_ (upd _ _)) (upd _ _))
  exact ((upd _ _).trans (State.takeReading_touches _ _ _ _)).trans (upd _ _)

theorem State.estStep_touches (s : State) (i : Fin 4) : Kept [.est, .evr] s (s.estStep i) := by
  unfold State.estStep
  split
  · refine .trans ?_ (State.restStep_touches _ i)
    exact State.countStep_kept _ _ (by decide) (State.flagStep_kept _ _ (by decide)
      (State.voltageStep_kept _ _ (by decide) (State.chargeStep_kept _ _ (by decide) .rfl)))
  · exact .rfl

theorem State.eclipseReading_touches (s : State) (i : Fin 4) : Kept [.est, .evr] s (s.eclipseReading i) :=
  State.updStr_kept _ _ _ (by decide) (State.takeReading_touches _ _ _ _)

theorem execEstUpdate_touches (s : State) : Keeps [.est, .evr] s (execEstUpdate s) := by
  refine .next (.ite ?_ .rfl)
  exact .foldl (Kept.mk_iff.2 (Kept.of_est .rfl (by decide))) State.estStep_touches

theorem execEclipseReading_touches (i : Fin 4) (s : State) : Keeps [.est, .evr] s (execEclipseReading i s) :=
  .next (.ite (State.eclipseReading_touches s i) .rfl)

/-! The front end. -/

theorem execSettle_touches (a : Fin 4) (s : State) : Keeps [.afe] s (execSettle a s) :=
  .ite (.next (State.updCh_kept _ _ _ (by decide) (State.updChip_kept _ _ _ (by decide) .rfl))) (.next .rfl)

theorem execSelfCheck_touches (a : Fin 4) (ok : Bool) (s : State) :
    Keeps [.sys, .afe, .pwm, .chn, .evr] s (execSelfCheck a ok s) := by
  have upd (t : State) (f : Chiplet → Chiplet) : Kept [.sys, .afe, .pwm, .chn, .evr] t (t.updChip a.val f) :=
    State.updChip_kept t a.val f (by decide) .rfl
  unfold execSelfCheck
  refine .ite (.next .rfl) (.ite (.next (upd _ _)) (.ite (.next .rfl) ?_))
  lift_lets
  intro t
  have slot : Kept [.sys, .afe, .pwm, .chn, .evr] s t := .ite (upd s _) .rfl
  refine .ite (.next slot) (.ite (.next (slot.trans (upd _ _))) ?_)
  exact .ite (.next (State.spareFail_kept _ _ (by decide) (slot.trans (upd _ _)))) (.next (slot.trans (upd _ _)))

theorem execBootCalDone_touches (cal : BootCal) (s : State) :
    Keeps [.sys, .cfg, .afe, .pwm, .chn, .evr] s (execBootCalDone cal s) := by
  have upd (t : State) (a : Nat) (f : Chiplet → Chiplet) : Kept [.sys, .cfg, .afe, .pwm, .chn, .evr] t (t.updChip a f) :=
    State.updChip_kept t a f (by decide) .rfl
  unfold execBootCalDone
  refine .ite (.next .rfl) (.next (State.ev_kept _ _ _ _ (by decide) (Kept.mk_iff.2 (Kept.of_afe ?_ (by decide)))))
  refine Kept.foldl (Kept.foldl (Kept.foldl (Kept.foldl (Kept.foldl (Kept.foldl .rfl ?spares) ?channels) ?shunts)
    ?senses) ?mapped) fun t a => upd t a _
  case spares =>
    intro t a
    split
    · exact upd _ _ _
    · exact upd _ _ _
  case channels => exact fun t c => State.bootChannel_kept t cal c (by decide) .rfl
  case shunts => exact fun t i => State.bootShunt_kept t cal i (by decide) .rfl
  case senses => exact fun t x => State.bootSense_kept t x (by decide) .rfl
  case mapped => exact fun t c => State.bootMapped_kept t c (by decide) .rfl

/-! DMA channels: the end of a transfer touches MEM, the recorder, and CFG where the shadow set starts. -/

theorem State.dmaChain_touches (s : State) (n : Fin 32) : Kept [.cfg, .mem, .evr] s (s.dmaChain n) :=
  .ite (State.dmaBegin_kept _ _ (by decide) (State.updDma_kept _ _ _ (by decide) .rfl)) .rfl

theorem State.dmaEnd_touches (s : State) (n : Fin 32) (st : DmaState) : Kept [.cfg, .mem, .evr] s (s.dmaEnd n st) :=
  State.resumeTier_kept _ (by decide) ((State.updDma_kept s n _ (by decide) .rfl).trans (State.dmaChain_touches _ n))

theorem State.dmaDone_touches (s : State) (n : Fin 32) : Kept [.cfg, .mem, .evr] s (s.dmaDone n) := by
  refine .trans (State.updDma_kept _ _ _ (by decide) ?_) (State.dmaEnd_touches _ n _)
  have run := State.dmaRun_kept s n s.mem.ch[n.val].act.bursts (by decide) (.rfl (l := [.cfg, .mem, .evr]))
  exact .ite (State.usePages_kept _ _ _ (by decide) (State.spaceWrite_kept _ _ _ _ (by decide) run)) run

theorem State.dmaBad_touches (s : State) (n : Fin 32) : Kept [.cfg, .mem, .evr] s (s.dmaBad n) := by
  refine .trans (State.ev_kept _ _ _ _ (by decide) (State.updDma_kept _ _ _ (by decide) ?_)) (State.dmaEnd_touches _ n _)
  exact Kept.mk_iff.2 (Kept.of_mem .rfl (by decide) id)

theorem execDmaStart_touches (n : Fin 32) (d : Sys2Proof.DmaDesc) (shadow : Option Sys2Proof.DmaDesc)
    (moved : List (Fin 32 × Nat)) (s : State) : Keeps [.cfg, .mem, .evr] s (execDmaStart n d shadow moved s) := by
  unfold execDmaStart
  lift_lets
  intro moved armed begun
  have h : Kept [.cfg, .mem, .evr] s begun := State.dmaBegin_kept _ n (by decide) (State.updDma_kept _ n _ (by decide)
    (.ite (State.dmaMoved_kept s _ (by decide) .rfl) .rfl))
  exact .ite (.next .rfl) (.next (.ite (h.trans (State.dmaChain_touches _ n)) h))

theorem execDmaDone_touches (n : Fin 32) (s : State) : Keeps [.cfg, .mem, .evr] s (execDmaDone n s) :=
  .ite (.next (State.dmaDone_touches s n)) (.next .rfl)

theorem execDmaBusError_touches (n : Fin 32) (bursts : Nat) (s : State) :
    Keeps [.cfg, .mem, .evr] s (execDmaBusError n bursts s) :=
  .ite (.next ((State.dmaRun_kept s n bursts (by decide) .rfl).trans (State.dmaBad_touches _ n))) (.next .rfl)

theorem execDmaAbort_touches (n : Fin 32) (bursts : Nat) (s : State) :
    Keeps [.cfg, .mem, .evr] s (execDmaAbort n bursts s) := by
  refine .ite (.next (.trans ?_ (State.dmaEnd_touches _ n _))) (.next .rfl)
  exact State.ev_kept _ _ _ _ (by decide) (State.updDma_kept _ _ _ (by decide)
    (.ite (State.dmaRun_kept s n bursts (by decide) .rfl) .rfl))

theorem State.failCh_touches (s : State) (n : Fin 32) (page : Nat) : Kept [.cfg, .mem, .evr] s (s.failCh n page) :=
  .ite (State.dmaBad_touches s n) .rfl

theorem execTierMigrationDone_touches (page ns : Nat) (ok : Bool) (s : State) :
    Keeps [.cfg, .fce, .mem, .evr] s (execTierMigrationDone page ns ok s) := by
  unfold execTierMigrationDone
  refine .ite (.next .rfl) (.ite ?_ (.next ?_))
  · split
    · exact .next .rfl
    next t admitted =>
      have brought := State.admitPage_kept s page (by decide) (.rfl (l := [.cfg, .fce, .mem, .evr])) t admitted
      refine .next (State.copyWake_kept _ _ (by decide) (.foldl ?_ fun u i => State.wakeCh_kept u i page (by decide) .rfl))
      exact Kept.mk_iff.2 (Kept.of_mem brought (by decide) id)
  · refine .foldl (State.ev_kept _ _ _ _ (by decide) (Kept.mk_iff.2 (Kept.of_mem .rfl (by decide) id))) fun t i => ?_
    exact (State.failCh_touches t i page).mono (by decide)

/-! Chains. -/

theorem execEcho_touches (c : Fin 4) (n : Fin 16) (fromB : Bool) (trips : List Nat)
    (replies : List Sys2Proof.ChainBlock) (s : State) : Keeps [.chn, .evr, .tx] s (execEcho c n fromB trips replies s) := by
  unfold execEcho
  refine .next (.ite .rfl ?_)
  refine .foldl (State.takeReplies_kept _ _ _ _ (by decide) (State.updNode_kept _ _ _ _ (by decide) ?_))
    fun t b => State.nodeStatus_kept t c _ _ (by decide) .rfl
  have sent := Kept.foldl (as := List.range 8) (.rfl (l := [.chn, .evr, .tx]) (s := s)) fun t _ =>
    State.train_kept t c 0x04 (if fromB then 1 else 0) (n.val + 1) [] (by decide) .rfl
  exact .ite (State.readdress_kept _ _ _ (by decide) sent) sent

theorem State.probeNode_touches (s : State) (c : Fin 4) (n : Nat) (asked : Bool) (good : List Sys2Proof.ChainBlock) :
    Kept [.chn, .evr, .tx] s (s.probeNode c n asked good) := by
  unfold State.probeNode
  lift_lets
  intro t u
  have seen : Kept [.chn, .evr, .tx] s t := State.updRing_kept s c _ (by decide) .rfl
  have back := State.readdress_kept t c n (by decide) seen
  exact .ite (.ite back seen) (.foldl (.ite back seen) fun t b => State.nodeStatus_kept t c n _ (by decide) .rfl)

theorem execProbe_touches (c : Fin 4) (n : Fin 17) (fromB passed : Bool) (replies : List Sys2Proof.ChainBlock)
    (lastA firstB : Nat) (s : State) :
    Keeps [.sys, .afe, .pwm, .fce, .tlk, .chn, .net, .evr, .tx] s (execProbe c n fromB passed replies lastA firstB s) := by
  have seen (k : Nat) (ok : Bool) : Kept [.sys, .afe, .pwm, .fce, .tlk, .chn, .net, .evr, .tx] s
      ((s.probeOut c n fromB replies).probeSeen c k fromB ok) :=
    State.probeSeen_kept _ _ _ _ _ (by decide) (State.probeOut_kept s c n fromB replies (by decide) .rfl)
  unfold execProbe
  refine .next (.ite .rfl (.ite (.ite ?_ (seen _ _)) ?_))
  · exact State.ringBreak_kept _ _ _ _ _ (by decide) (seen _ _)
  · exact (seen _ _).trans ((State.probeNode_touches _ _ _ _ _).mono (by decide))

/-! Sessions and protection. -/

theorem State.answerHello_touches (s : State) (h : Handshake) (p : List Byte) :
    Kept [.net, .evr, .tx, .fv] s (s.answerHello h p) :=
  State.sendPayload_kept _ _ _ _ _ _ (by decide)
    (Kept.mk_iff.2 (Kept.of_net (State.used_kept s (by decide) .rfl) (by decide)))

theorem State.gatherHello_touches (s : State) (d : Sys2Proof.Datagram) (h : Handshake) (g : Gathered) :
    Kept [.net, .evr, .tx, .fv] s (s.gatherHello d h g) := by
  have no (st : Nat) : Kept [.net, .evr, .tx, .fv] s (s.reject d.peer d.port.toNat (at32 d.bytes 4) st) :=
    State.reject_kept _ _ _ _ _ (by decide) .rfl
  cases g with
  | malformed => exact no _
  | waits h => exact State.keepHs_kept s h (by decide) .rfl
  | whole p =>
    exact .ite (no _) (.ite (State.ev_kept _ _ _ _ (by decide) (no _)) (State.answerHello_touches s h p))

theorem State.helloIn_touches (s : State) (d : Sys2Proof.Datagram) : Kept [.net, .evr, .tx, .fv] s (s.helloIn d) := by
  have no {t : State} (h : Kept [.net, .evr, .tx, .fv] s t) (st : Nat) :
      Kept [.net, .evr, .tx, .fv] s (t.reject d.peer d.port.toNat (at32 d.bytes 4) st) :=
    State.reject_kept _ _ _ _ _ (by decide) h
  have rest (f : Handshake → Bool) : Kept [.net, .evr, .tx, .fv] s (s.dropHs f) :=
    State.dropHs_kept s f (by decide) .rfl
  unfold State.helloIn
  refine .ite (no .rfl _) (.ite (no (rest _) _) ?_)
  split
  · exact no .rfl _
  · exact (rest _).trans (State.gatherHello_touches _ _ _ _)

theorem execHello_touches (d : Sys2Proof.Datagram) (s : State) : Keeps [.net, .evr, .tx, .fv] s (execHello d s) :=
  .next (.ite .rfl (State.netIn_kept s _ _ _ (by decide) (fun t => State.helloIn_touches t d) .rfl))

theorem execCduClear_touches (sess : Fin 64) (s : State) : Keeps [.sys, .prot] s (execCduClear sess s) :=
  .next (State.regCmd_kept s sess _ _ (by decide) (fun _ => Kept.mk_iff.2 (Kept.of_prot .rfl (by decide))) .rfl)

/-- What a command keeps: the parts that `touched` does not list, the canonical form of the memories, and the lifecycle. -/
theorem exec_keeps (c : Instr) (s : State) : Keeps (touched c) s (exec c s) :=
  match c with
  | .powerOn stby12 => execPowerOn_kept stby12 s (List.Subset.refl _) .rfl
  | .inputLoss => execInputLoss_kept s (List.Subset.refl _) .rfl
  | .inputLossRecordClose => execInputLossRecordClose_kept s (List.Subset.refl _) .rfl
  | .inputReturn => execInputReturn_kept s (List.Subset.refl _) .rfl
  | .mateRelease => execMateRelease_kept s (List.Subset.refl _) .rfl
  | .stby12Lost => execStby12Lost_kept s (List.Subset.refl _) .rfl
  | .stby12Restored => execStby12Restored_kept s (List.Subset.refl _) .rfl
  | .aux54Brownout => execAux54Brownout_kept s (List.Subset.refl _) .rfl
  | .holdupMeasure mJ => execHoldupMeasure_kept mJ s (List.Subset.refl _) .rfl
  | .refInLost => execRefInLost_kept s (List.Subset.refl _) .rfl
  | .refFallback => execRefFallback_kept s (List.Subset.refl _) .rfl
  | .refInRestored => execRefInRestored_kept s (List.Subset.refl _) .rfl
  | .xtalFail => execXtalFail_kept s (List.Subset.refl _) .rfl
  | .xtalOkRestored => execXtalOkRestored_kept s (List.Subset.refl _) .rfl
  | .rootUnlock => execRootUnlock_kept s (List.Subset.refl _) .rfl
  | .rootRelock => execRootRelock_kept s (List.Subset.refl _) .rfl
  | .serviceAttached => execServiceAttached_kept s (List.Subset.refl _) .rfl
  | .jtagInstruction k => execJtagInstruction_kept k s (List.Subset.refl _) .rfl
  | .svcUartQuery => execSvcUartQuery_kept s (List.Subset.refl _) .rfl
  | .svcSpiRead a n => execSvcSpiRead_kept a n s (List.Subset.refl _) .rfl
  | .svcSpiIdent => execSvcSpiIdent_kept s (List.Subset.refl _) .rfl
  | .svcSpiStatus other => execSvcSpiStatus_kept other s (List.Subset.refl _) .rfl
  | .trayPortsUp => execTrayPortsUp_kept s (List.Subset.refl _) .rfl
  | .notReadyGrant n => execNotReadyGrant_kept n s (List.Subset.refl _) .rfl
  | .fwVerified keys => execFwVerified_kept keys s (List.Subset.refl _) .rfl
  | .netReady => execNetReady_kept s (List.Subset.refl _) .rfl
  | .bootConfigLoad => execBootConfigLoad_kept s (List.Subset.refl _) .rfl
  | .watchdog => execWatchdog_kept s (List.Subset.refl _) .rfl
  | .tick x => execTick_kept x s (List.Subset.refl _) .rfl
  | .integReleased k => execIntegReleased_kept k s (List.Subset.refl _) .rfl
  | .testStart sess k => execTestStart_kept sess k s (List.Subset.refl _) .rfl
  | .testStarted k => execTestStarted_kept k s (List.Subset.refl _) .rfl
  | .testDone k => execTestDone_kept k s (List.Subset.refl _) .rfl
  | .testStop sess k => execTestStop_kept sess k s (List.Subset.refl _) .rfl
  | .bankPrimary sess k => execBankPrimary_kept sess k s (List.Subset.refl _) .rfl
  | .unfreeze sess k => execUnfreeze_kept sess k s (List.Subset.refl _) .rfl
  | .snapshotTaken k => execSnapshotTaken_kept k s (List.Subset.refl _) .rfl
  | .snapRelease sess k => execSnapRelease_kept sess k s (List.Subset.refl _) .rfl
  | .bootCalDone cal => execBootCalDone_touches cal s
  | .selfCheck a ok => execSelfCheck_touches a ok s
  | .overlapIn a m => execOverlapIn_kept a m s (List.Subset.refl _) .rfl
  | .calibrating a r => execCalibrating_kept a r s (List.Subset.refl _) .rfl
  | .overlapOut a m => execOverlapOut_kept a m s (List.Subset.refl _) .rfl
  | .settle a => execSettle_touches a s
  | .channelFailed c cause => execChannelFailed_kept c cause s (List.Subset.refl _) .rfl
  | .spareSubstituted a => execSpareSubstituted_kept a s (List.Subset.refl _) .rfl
  | .spareFailed a => execSpareFailed_kept a s (List.Subset.refl _) .rfl
  | .rotEn sess v => execRotEn_kept sess v s (List.Subset.refl _) .rfl
  | .failmapClr sess => execFailmapClr_kept sess s (List.Subset.refl _) .rfl
  | .shuntModCalibrate k ofs gain => execShuntModCalibrate_kept k ofs gain s (List.Subset.refl _) .rfl
  | .shuntModCompare k qActive qIdle okA okB =>
    execShuntModCompare_kept k qActive qIdle okA okB s (List.Subset.refl _) .rfl
  | .senseOpen p mv periods => execSenseOpen_kept p mv periods s (List.Subset.refl _) .rfl
  | .senseRestored p mv periods => execSenseRestored_kept p mv periods s (List.Subset.refl _) .rfl
  | .groupRunning g => execGroupRunning_kept g s (List.Subset.refl _) .rfl
  | .groupStopped g => execGroupStopped_kept g s (List.Subset.refl _) .rfl
  | .shortCircuit p code at_ => execShortCircuit_kept p code at_ s (List.Subset.refl _) .rfl
  | .driverFault p low at_ => execDriverFault_kept p low at_ s (List.Subset.refl _) .rfl
  | .phaseOpen p => execPhaseOpen_kept p s (List.Subset.refl _) .rfl
  | .senseSuspect p => execSenseSuspect_kept p s (List.Subset.refl _) .rfl
  | .phaseDisabled p => execPhaseDisabled_kept p s (List.Subset.refl _) .rfl
  | .disableDroopCheck g => execDisableDroopCheck_kept g s (List.Subset.refl _) .rfl
  | .reinterleaved g => execReinterleaved_kept g s (List.Subset.refl _) .rfl
  | .disable sess p => execDisable_kept sess p s (List.Subset.refl _) .rfl
  | .readmit sess p => execReadmit_kept sess p s (List.Subset.refl _) .rfl
  | .deEntered g => execDeEntered_kept g s (List.Subset.refl _) .rfl
  | .deLeft g => execDeLeft_kept g s (List.Subset.refl _) .rfl
  | .uvFastpath g at_ => execUvFastpath_kept g at_ s (List.Subset.refl _) .rfl
  | .throttleRequested g => execThrottleRequested_kept g s (List.Subset.refl _) .rfl
  | .uvFastpathEnd g v => execUvFastpathEnd_kept g v s (List.Subset.refl _) .rfl
  | .syncSlewing g period => execSyncSlewing_kept g period s (List.Subset.refl _) .rfl
  | .syncLocked g edge => execSyncLocked_kept g edge s (List.Subset.refl _) .rfl
  | .syncHoldover g => execSyncHoldover_kept g s (List.Subset.refl _) .rfl
  | .syncReturning g => execSyncReturning_kept g s (List.Subset.refl _) .rfl
  | .syncFreeRun g => execSyncFreeRun_kept g s (List.Subset.refl _) .rfl
  | .pwmBusSet sess v => execPwmBusSet_kept sess v s (List.Subset.refl _) .rfl
  | .psuCommandFrame => execPsuCommandFrame_kept s (List.Subset.refl _) .rfl
  | .psuTelemetry p f => execPsuTelemetry_kept p f s (List.Subset.refl _) .rfl
  | .psuRestored p => execPsuRestored_kept p s (List.Subset.refl _) .rfl
  | .restore sess p => execRestore_kept sess p s (List.Subset.refl _) .rfl
  | .forecastEvalDone k tIn ns => execForecastEvalDone_kept k tIn ns s (List.Subset.refl _) .rfl
  | .frameAssembly long tIn => execFrameAssembly_kept long tIn s (List.Subset.refl _) .rfl
  | .frameDeadline long tIn => execFrameDeadline_kept long tIn s (List.Subset.refl _) .rfl
  | .longStale => execLongStale_kept s (List.Subset.refl _) .rfl
  | .headUpdate => execHeadUpdate_kept s (List.Subset.refl _) .rfl
  | .adaptResumed k => execAdaptResumed_kept k s (List.Subset.refl _) .rfl
  | .forecastEn sess v => execForecastEn_kept sess v s (List.Subset.refl _) .rfl
  | .adaptEn sess v => execAdaptEn_kept sess v s (List.Subset.refl _) .rfl
  | .revertAll sess => execRevertAll_kept sess s (List.Subset.refl _) .rfl
  | .adaptDis sess k v => execAdaptDis_kept sess k v s (List.Subset.refl _) .rfl
  | .revert sess k => execRevert_kept sess k s (List.Subset.refl _) .rfl
  | .linkUp n => execLinkUp_kept n s (List.Subset.refl _) .rfl
  | .linkDown n => execLinkDown_kept n s (List.Subset.refl _) .rfl
  | .linkGlitch n => execLinkGlitch_kept n s (List.Subset.refl _) .rfl
  | .surpriseRemoval n => execSurpriseRemoval_kept n s (List.Subset.refl _) .rfl
  | .ident n f => execIdent_kept n f s (List.Subset.refl _) .rfl
  | .report n f missing => execReport_kept n f missing s (List.Subset.refl _) .rfl
  | .reportStale n => execReportStale_kept n s (List.Subset.refl _) .rfl
  | .ack n gseq result => execAck_kept n gseq result s (List.Subset.refl _) .rfl
  | .grantResend n => execGrantResend_kept n s (List.Subset.refl _) .rfl
  | .grantTimeout n => execGrantTimeout_kept n s (List.Subset.refl _) .rfl
  | .grantRefresh n => execGrantRefresh_kept n s (List.Subset.refl _) .rfl
  | .time => execTime_kept s (List.Subset.refl _) .rfl
  | .trayAnnounce n a => execTrayAnnounce_kept n a s (List.Subset.refl _) .rfl
  | .barrierComplete n => execBarrierComplete_kept n s (List.Subset.refl _) .rfl
  | .roleTagApplied id source => execRoleTagApplied_kept id source s (List.Subset.refl _) .rfl
  | .takeoverReq n env => execTakeoverReq_kept n env s (List.Subset.refl _) .rfl
  | .drainReq n => execDrainReq_kept n s (List.Subset.refl _) .rfl
  | .drain sess n => execDrain_kept sess n s (List.Subset.refl _) .rfl
  | .drained n => execDrained_kept n s (List.Subset.refl _) .rfl
  | .throttleCauseClear c => execThrottleCauseClear_kept c s (List.Subset.refl _) .rfl
  | .throttleAll sess => execThrottleAll_kept sess s (List.Subset.refl _) .rfl
  | .releaseAll sess => execReleaseAll_kept sess s (List.Subset.refl _) .rfl
  | .throttle sess n => execThrottle_kept sess n s (List.Subset.refl _) .rfl
  | .release sess n => execRelease_kept sess n s (List.Subset.refl _) .rfl
  | .rackHoldSeen => execRackHoldSeen_kept s (List.Subset.refl _) .rfl
  | .rackHoldCleared => execRackHoldCleared_kept s (List.Subset.refl _) .rfl
  | .shareStale => execShareStale_kept s (List.Subset.refl _) .rfl
  | .ringBringUp c => execRingBringUp_kept c s (List.Subset.refl _) .rfl
  | .resetAddr c => execResetAddr_kept c s (List.Subset.refl _) .rfl
  | .enum c fromB count passed => execEnum_kept c fromB count passed s (List.Subset.refl _) .rfl
  | .revcheck c replies => execRevcheck_kept c replies s (List.Subset.refl _) .rfl
  | .echo c n fromB trips replies => execEcho_touches c n fromB trips replies s
  | .enumerated c => execEnumerated_kept c s (List.Subset.refl _) .rfl
  | .ringRetry c => execRingRetry_kept c s (List.Subset.refl _) .rfl
  | .reenum sess c => execReenum_kept sess c s (List.Subset.refl _) .rfl
  | .config c n replies => execConfig_kept c n replies s (List.Subset.refl _) .rfl
  | .sample c k tempNs => execSample_kept c k tempNs s (List.Subset.refl _) .rfl
  | .sweepComplete c blocks readNs => execSweepComplete_kept c blocks readNs s (List.Subset.refl _) .rfl
  | .cellsUnmonitored c k => execCellsUnmonitored_kept c k s (List.Subset.refl _) .rfl
  | .stringIsolated k => execStringIsolated_kept k s (List.Subset.refl _) .rfl
  | .unmonLimited k => execUnmonLimited_kept k s (List.Subset.refl _) .rfl
  | .ringBroken c lastA firstB inSweep displaced lost =>
    execRingBroken_kept c lastA firstB inSweep displaced lost s (List.Subset.refl _) .rfl
  | .readHeld c fromB mask blocks => execReadHeld_kept c fromB mask blocks s (List.Subset.refl _) .rfl
  | .readTemp c blocks => execReadTemp_kept c blocks s (List.Subset.refl _) .rfl
  | .ringRepaired c => execRingRepaired_kept c s (List.Subset.refl _) .rfl
  | .probe c n fromB passed replies lastA firstB => execProbe_touches c n fromB passed replies lastA firstB s
  | .diag c n replies => execDiag_kept c n replies s (List.Subset.refl _) .rfl
  | .diagNow sess c => execDiagNow_kept sess c s (List.Subset.refl _) .rfl
  | .bal c n => execBal_kept c n s (List.Subset.refl _) .rfl
  | .slot c => execSlot_kept c s (List.Subset.refl _) .rfl
  | .blank c => execBlank_kept c s (List.Subset.refl _) .rfl
  | .contactor c close => execContactor_kept c close s (List.Subset.refl _) .rfl
  | .contactorClosed c => execContactorClosed_kept c s (List.Subset.refl _) .rfl
  | .contactorFault c => execContactorFault_kept c s (List.Subset.refl _) .rfl
  | .ctrOpen sess c => execCtrOpen_kept sess c s (List.Subset.refl _) .rfl
  | .ctrClose sess c => execCtrClose_kept sess c s (List.Subset.refl _) .rfl
  | .wakeTone c onA onB lost => execWakeTone_kept c onA onB lost s (List.Subset.refl _) .rfl
  | .ship c replies => execShip_kept c replies s (List.Subset.refl _) .rfl
  | .shipIncomplete c n => execShipIncomplete_kept c n s (List.Subset.refl _) .rfl
  | .estUpdate => execEstUpdate_touches s
  | .estConflict k => execEstConflict_kept k s (List.Subset.refl _) .rfl
  | .estConflictCleared k => execEstConflictCleared_kept k s (List.Subset.refl _) .rfl
  | .plannerCycle defers => execPlannerCycle_kept defers s (List.Subset.refl _) .rfl
  | .eclipseRetry => execEclipseRetry_kept s (List.Subset.refl _) .rfl
  | .relaxing k => execRelaxing_kept k s (List.Subset.refl _) .rfl
  | .reading k => execReading_kept k s (List.Subset.refl _) .rfl
  | .eclipseReading k => execEclipseReading_touches k s
  | .restComplete k => execRestComplete_kept k s (List.Subset.refl _) .rfl
  | .eclipseAborted => execEclipseAborted_kept s (List.Subset.refl _) .rfl
  | .abortRest sess => execAbortRest_kept sess s (List.Subset.refl _) .rfl
  | .eclipseEn sess v => execEclipseEn_kept sess v s (List.Subset.refl _) .rfl
  | .forceRest sess mask => execForceRest_kept sess mask s (List.Subset.refl _) .rfl
  | .ethLinkUp => execEthLinkUp_kept s (List.Subset.refl _) .rfl
  | .ethLinkDown => execEthLinkDown_kept s (List.Subset.refl _) .rfl
  | .macsecUp sci => execMacsecUp_kept sci s (List.Subset.refl _) .rfl
  | .macsecDown => execMacsecDown_kept s (List.Subset.refl _) .rfl
  | .hello d => execHello_touches d s
  | .finish d => execFinish_kept d s (List.Subset.refl _) .rfl
  | .handshakeTimeout n => execHandshakeTimeout_kept n s (List.Subset.refl _) .rfl
  | .secured d => execSecured_kept d s (List.Subset.refl _) .rfl
  | .sessionIdleTimeout n => execSessionIdleTimeout_kept n s (List.Subset.refl _) .rfl
  | .keepalive h => execKeepalive_kept h s (List.Subset.refl _) .rfl
  | .close h => execClose_kept h s (List.Subset.refl _) .rfl
  | .sessClose sess n => execSessClose_kept sess n s (List.Subset.refl _) .rfl
  | .regRead h addrs => execRegRead_kept h addrs s (List.Subset.refl _) .rfl
  | .regWrite h pairs => execRegWrite_kept h pairs s (List.Subset.refl _) .rfl
  | .regReadBlock h addr words => execRegReadBlock_kept h addr words s (List.Subset.refl _) .rfl
  | .announce h l => execAnnounce_kept h l s (List.Subset.refl _) .rfl
  | .announceCancel h ids => execAnnounceCancel_kept h ids s (List.Subset.refl _) .rfl
  | .subscribe h id kind period addrs mask => execSubscribe_kept h id kind period addrs mask s (List.Subset.refl _) .rfl
  | .unsubscribe h id => execUnsubscribe_kept h id s (List.Subset.refl _) .rfl
  | .telemetry n id free => execTelemetry_kept n id free s (List.Subset.refl _) .rfl
  | .events n id => execEvents_kept n id s (List.Subset.refl _) .rfl
  | .fetch h region index off len => execFetch_kept h region index off len s (List.Subset.refl _) .rfl
  | .fetchData n reqId => execFetchData_kept n reqId s (List.Subset.refl _) .rfl
  | .pushBegin h total => execPushBegin_kept h total s (List.Subset.refl _) .rfl
  | .pushData h off data => execPushData_kept h off data s (List.Subset.refl _) .rfl
  | .pushEnd h => execPushEnd_kept h s (List.Subset.refl _) .rfl
  | .pushTimeout => execPushTimeout_kept s (List.Subset.refl _) .rfl
  | .shadowReady => execShadowReady_kept s (List.Subset.refl _) .rfl
  | .fwStaged => execFwStaged_kept s (List.Subset.refl _) .rfl
  | .shadowEcc => execShadowEcc_kept s (List.Subset.refl _) .rfl
  | .discard sess => execDiscard_kept sess s (List.Subset.refl _) .rfl
  | .cfgSwapTick sess hi v => execCfgSwapTick_kept sess hi v s (List.Subset.refl _) .rfl
  | .swap sess => execSwap_kept sess s (List.Subset.refl _) .rfl
  | .swapped => execSwapped_kept s (List.Subset.refl _) .rfl
  | .stored => execStored_kept s (List.Subset.refl _) .rfl
  | .configEccCorrected => execConfigEccCorrected_kept s (List.Subset.refl _) .rfl
  | .configCrcSweep ok => execConfigCrcSweep_kept ok s (List.Subset.refl _) .rfl
  | .attest h nonce => execAttest_kept h nonce s (List.Subset.refl _) .rfl
  | .rowBudget h version budget => execRowBudget_kept h version budget s (List.Subset.refl _) .rfl
  | .macsecKey h ckn cak => execMacsecKey_kept h ckn cak s (List.Subset.refl _) .rfl
  | .orphanEntered => execOrphanEntered_kept s (List.Subset.refl _) .rfl
  | .ptpSync f via domain time ofs cls => execPtpSync_kept f via domain time ofs cls s (List.Subset.refl _) .rfl
  | .ptpLost => execPtpLost_kept s (List.Subset.refl _) .rfl
  | .ppsIn t => execPpsIn_kept t s (List.Subset.refl _) .rfl
  | .ringJoined => execRingJoined_kept s (List.Subset.refl _) .rfl
  | .ringCycle => execRingCycle_kept s (List.Subset.refl _) .rfl
  | .ringTime f => execRingTime_kept f s (List.Subset.refl _) .rfl
  | .pdelayReq req => execPdelayReq_kept req s (List.Subset.refl _) .rfl
  | .pdelayResp f t4 => execPdelayResp_kept f t4 s (List.Subset.refl _) .rfl
  | .ringStatus f => execRingStatus_kept f s (List.Subset.refl _) .rfl
  | .share f => execShare_kept f s (List.Subset.refl _) .rfl
  | .rowBudgetFrame f => execRowBudgetFrame_kept f s (List.Subset.refl _) .rfl
  | .rowBudgetResend => execRowBudgetResend_kept s (List.Subset.refl _) .rfl
  | .failover f => execFailover_kept f s (List.Subset.refl _) .rfl
  | .peerSilent shelf => execPeerSilent_kept shelf s (List.Subset.refl _) .rfl
  | .wrap f => execWrap_kept f s (List.Subset.refl _) .rfl
  | .ringWrapped west => execRingWrapped_kept west s (List.Subset.refl _) .rfl
  | .ringUnwrapped west => execRingUnwrapped_kept west s (List.Subset.refl _) .rfl
  | .busOvTrip v => execBusOvTrip_kept v s (List.Subset.refl _) .rfl
  | .busOvRecovery => execBusOvRecovery_kept s (List.Subset.refl _) .rfl
  | .busUvTrip v => execBusUvTrip_kept v s (List.Subset.refl _) .rfl
  | .busUvCleared => execBusUvCleared_kept s (List.Subset.refl _) .rfl
  | .busFault v => execBusFault_kept v s (List.Subset.refl _) .rfl
  | .dieWarn t => execDieWarn_kept t s (List.Subset.refl _) .rfl
  | .dieWarnCleared t => execDieWarnCleared_kept t s (List.Subset.refl _) .rfl
  | .dieTrip t => execDieTrip_kept t s (List.Subset.refl _) .rfl
  | .missedTicks missed => execMissedTicks_kept missed s (List.Subset.refl _) .rfl
  | .basaltUpdate m => execBasaltUpdate_kept m s (List.Subset.refl _) .rfl
  | .entryHoldRelease => execEntryHoldRelease_kept s (List.Subset.refl _) .rfl
  | .basaltRootlessStop => execBasaltRootlessStop_kept s (List.Subset.refl _) .rfl
  | .missedTicksCleared => execMissedTicksCleared_kept s (List.Subset.refl _) .rfl
  | .configReloaded => execConfigReloaded_kept s (List.Subset.refl _) .rfl
  | .dieTripCleared t => execDieTripCleared_kept t s (List.Subset.refl _) .rfl
  | .basaltAutoExit => execBasaltAutoExit_kept s (List.Subset.refl _) .rfl
  | .basaltEnter sess => execBasaltEnter_kept sess s (List.Subset.refl _) .rfl
  | .basaltExit sess => execBasaltExit_kept sess s (List.Subset.refl _) .rfl
  | .groupReturn sess mask => execGroupReturn_kept sess mask s (List.Subset.refl _) .rfl
  | .coolantFlowLow => execCoolantFlowLow_kept s (List.Subset.refl _) .rfl
  | .cduAlarm sess => execCduAlarm_kept sess s (List.Subset.refl _) .rfl
  | .thermalRampStep => execThermalRampStep_kept s (List.Subset.refl _) .rfl
  | .cduClear sess => execCduClear_touches sess s
  | .coolantRestored => execCoolantRestored_kept s (List.Subset.refl _) .rfl
  | .coolantGroupStop => execCoolantGroupStop_kept s (List.Subset.refl _) .rfl
  | .coolantCritRecovery => execCoolantCritRecovery_kept s (List.Subset.refl _) .rfl
  | .tripClear sess => execTripClear_kept sess s (List.Subset.refl _) .rfl
  | .sysStateReq sess target => execSysStateReq_kept sess target s (List.Subset.refl _) .rfl
  | .armedPassage => execArmedPassage_kept s (List.Subset.refl _) .rfl
  | .warmReset sess => execWarmReset_kept sess s (List.Subset.refl _) .rfl
  | .fullReset sess => execFullReset_kept sess s (List.Subset.refl _) .rfl
  | .shipReady => execShipReady_kept s (List.Subset.refl _) .rfl
  | .secLcCtrl sess => execSecLcCtrl_kept sess s (List.Subset.refl _) .rfl
  | .fwDiscard sess => execFwDiscard_kept sess s (List.Subset.refl _) .rfl
  | .dmaStart n d shadow moved => execDmaStart_touches n d shadow moved s
  | .dmaDone n => execDmaDone_touches n s
  | .dmaBusError n bursts => execDmaBusError_touches n bursts s
  | .dmaAbort n bursts => execDmaAbort_touches n bursts s
  | .tierFault unit bursts beats page => execTierFault_kept unit bursts beats page s (List.Subset.refl _) .rfl
  | .tierMigrationDone page ns ok => execTierMigrationDone_touches page ns ok s
  | .eccCorrected region => execEccCorrected_kept region s (List.Subset.refl _) .rfl
  | .eccUncorrectable p => execEccUncorrectable_kept p s (List.Subset.refl _) .rfl
  | .fifoQDataRead q => execFifoQDataRead_kept q s (List.Subset.refl _) .rfl
  | .recordsLost => execRecordsLost_kept s (List.Subset.refl _) .rfl
  | .firstClear sess => execFirstClear_kept sess s (List.Subset.refl _) .rfl
  | .evrUser sess code inst => execEvrUser_kept sess code inst s (List.Subset.refl _) .rfl
  | .obsidianFrame => execObsidianFrame_kept s (List.Subset.refl _) .rfl
  | .triggerNow sess => execTriggerNow_kept sess s (List.Subset.refl _) .rfl
  | .obsRecordClosed => execObsRecordClosed_kept s (List.Subset.refl _) .rfl
  | .obsClear sess => execObsClear_kept sess s (List.Subset.refl _) .rfl
  | .captureFrozen => execCaptureFrozen_kept s (List.Subset.refl _) .rfl
  | .resume sess => execResume_kept sess s (List.Subset.refl _) .rfl
  | .pwmFrameStart g edge => execPwmFrameStart_kept g edge s (List.Subset.refl _) .rfl
  | .weightCopyDone k tIn entry => execWeightCopyDone_kept k tIn entry s (List.Subset.refl _) .rfl
  | .icmpEchoRequest v6 f ident => execIcmpEchoRequest_kept v6 f ident s (List.Subset.refl _) .rfl
  | .ndpArpRequest arp f target => execNdpArpRequest_kept arp f target s (List.Subset.refl _) .rfl
  | .unservedDatagram f => execUnservedDatagram_kept f s (List.Subset.refl _) .rfl
  | .trayFrameDropped n => execTrayFrameDropped_kept n s (List.Subset.refl _) .rfl

/-- Settles O52: each command's meaning keeps the parts outside its list. -/
theorem everyCommandStaysInItsParts : Obligations.EveryCommandStaysInItsParts :=
  fun c s t h => ((exec_keeps c s).kept t h).only

end Sys2Proof.Machine
end

section
/-! SUPPORT. Register writes: what a write that is refused leaves, and who holds a class (R14, R495 to R499). -/

namespace Sys2Proof.Machine

/-! Who holds a class (R498). -/

/-- A role that may write is no MONITOR, has INTEGRATOR where the class asks for it, and the state is one of the class's. -/
theorem roleMayWrite_iff (r : Role) (st : DevState) (c : AccClass) :
    roleMayWrite r st c = true ↔ r ≠ .monitor ∧ (c.integrator = true → r = .integrator) ∧ st ∈ c.states := by
  rw [roleMayWrite, Bool.and_eq_true, List.contains_iff_mem, and_comm, ← and_assoc]
  refine and_congr_left fun _ => ?_
  cases r <;> cases c.integrator <;> simp [Role.atLeast]

theorem roleMayWrite_monitor (st : DevState) (c : AccClass) : roleMayWrite .monitor st c = false :=
  Bool.eq_false_iff.2 fun h => ((roleMayWrite_iff _ _ _).1 h).1 rfl

/-- A MONITOR holds no field's class, so that every register refuses its write. -/
theorem WReg.refuses_monitor (w : WReg) (st : DevState) (old v : Nat) : w.refuses .monitor st old v = true := by
  simp [WReg.refuses, roleMayWrite_monitor]

/-! The cases of a register write (R496, R498, R499). -/

/-- No block stands at 0x00F00000 and beyond (R507). -/
theorem State.regLive_beyond (s : State) {a : Nat} (h : 0x00F00000 ≤ a) : s.regLive a = none := by
  have block : ∃ k, a / 2 ^ 20 = k + 15 := ⟨a / 2 ^ 20 - 15, by omega⟩
  obtain ⟨k, hk⟩ := block
  simp only [State.regLive, hk]

theorem State.regWrite_unmapped (s : State) (r : Role) (st : DevState) {a : Nat} (v : Nat) (h : s.regLive a = none) :
    s.regWrite r st a v = (s.violate, none) := by
  simp [State.regWrite, h]

theorem State.regWrite_firmware (s : State) (r : Role) (st : DevState) {a : Nat} (v : Nat)
    (h : (s.regLive a).isSome = true) (hf : firmwareReg a = true) : s.regWrite r st a v = (s.violate, none) := by
  obtain ⟨old, h⟩ := Option.isSome_iff_exists.1 h
  simp [State.regWrite, h, hf]

/-- Without a writable field, or where the configuration does not use what the address names, nothing comes about and
nothing is counted. -/
theorem State.regWrite_ignored (s : State) (r : Role) (st : DevState) {a : Nat} (v : Nat)
    (h : (s.regLive a).isSome = true) (hf : firmwareReg a = false) (hw : s.wreg a = none ∨ s.instLive a = false) :
    s.regWrite r st a v = (s, none) := by
  obtain ⟨old, h⟩ := Option.isSome_iff_exists.1 h
  rcases hw with hw | hw
  · simp [State.regWrite, h, hf, hw]
  · simp [State.regWrite, h, hf, hw]

theorem State.regWrite_refused (s : State) {r : Role} {st : DevState} {a v old : Nat} {w : WReg}
    (h : s.regLive a = some old) (hf : firmwareReg a = false) (hi : s.instLive a = true) (hw : s.wreg a = some w)
    (no : w.refuses r st old v = true) : s.regWrite r st a v = (s.violate, none) := by
  simp [State.regWrite, h, hf, hi, hw, no]

theorem State.regWrite_monitor (s : State) (st : DevState) (a v : Nat) :
    s.regWrite .monitor st a v = (s, none) ∨ s.regWrite .monitor st a v = (s.violate, none) := by
  cases h : s.regLive a with
  | none => exact .inr (s.regWrite_unmapped _ _ v h)
  | some old =>
    have mapped : (s.regLive a).isSome = true := by rw [h]; rfl
    cases hf : firmwareReg a with
    | true => exact .inr (s.regWrite_firmware _ _ v mapped hf)
    | false =>
      cases hi : s.instLive a with
      | false => exact .inl (s.regWrite_ignored _ _ v mapped hf (.inr hi))
      | true =>
        cases hw : s.wreg a with
        | none => exact .inl (s.regWrite_ignored _ _ v mapped hf (.inl hw))
        | some w => exact .inr (s.regWrite_refused h hf hi hw (w.refuses_monitor st old v))

/-! A command that stands for the write of a control field. -/

theorem State.allows_iff (s : State) (n : Fin 64) (c : AccClass) : s.allows n c = true ↔
    (s.sess n).isOpen = true ∧ s.sec.recovery = false ∧ roleMayWrite (s.sess n).role s.sys.state c = true := by
  simp [State.allows, State.mayWrite, State.sess, and_assoc]

/-- Recovery bars the write as a closed session does (R437). -/
theorem State.regCmd_barred {s : State} {n : Fin 64} {c : AccClass} (f : State → State)
    (h : (s.sess n).isOpen = false ∨ s.sec.recovery = true) : s.regCmd n c f = s := by
  rcases h with h | h
  · exact State.regCmd_closed h f
  · simp [State.regCmd, h]

theorem State.regCmd_notAllowed {s : State} {n : Fin 64} {c : AccClass} (f : State → State)
    (ho : (s.sess n).isOpen = true) (hr : s.sec.recovery = false) (h : s.allows n c = false) :
    s.regCmd n c f = s.violate := by
  refine State.regCmd_denied ho hr ?_ f
  have ho : s.net.sess[n.val].isOpen = true := ho
  simpa [State.allows, ho, hr] using h

/-- Settles O55: the cases of a register write, of the classes, and of a control field's command. -/
theorem registerWritesAreGuarded : Obligations.RegisterWritesAreGuarded := by
  refine ⟨fun r st a v s h => ?_, fun st a v s => s.regWrite_monitor st a v,
    fun r st a v s h hf => s.regWrite_firmware r st v h hf, fun r st a v s h hf hw => s.regWrite_ignored r st v h hf hw,
    fun r st c h => (roleMayWrite_iff r st c).1 h, fun n c f s => ?_⟩
  · have unmapped := s.regLive_beyond h
    exact ⟨s.regWrite_unmapped r st v unmapped, unmapped⟩
  · exact ⟨fun h => State.regCmd_allowed h f, fun h => State.regCmd_barred f h,
      fun ho hr h => State.regCmd_notAllowed f ho hr h, rfl, rfl, s.allows_iff n c⟩

end Sys2Proof.Machine
end

section
/-! SUPPORT. Shelf time: PTP, PPS, the peer delay and the ring's TIME (R9, R366 to R368, R390, R393). -/

namespace Sys2Proof.Machine

/-! The step of shelf time (R285). -/

/-- A grant leaves the schedule table and the placements as they are. -/
theorem State.sendGrant_table (s : State) (n : Fin 64) :
    (s.sendGrant n).tlk.table = s.tlk.table ∧ (s.sendGrant n).tlk.placed = s.tlk.placed := by
  unfold State.sendGrant
  split
  · exact ⟨rfl, rfl⟩
  · exact ⟨rfl, rfl⟩

theorem State.portsTimeStep_table (s : State) :
    s.portsTimeStep.tlk.table = [] ∧ s.portsTimeStep.tlk.placed = [] := by
  unfold State.portsTimeStep State.sendGrants
  constructor
  · rw [foldl_same (fun t : State => t.tlk.table) fun t n => (t.sendGrant_table n).1,
      foldl_same (fun t : State => t.tlk.table) (f := fun t n => t.send _) fun t n => rfl, State.ev_tlk]
  · rw [foldl_same (fun t : State => t.tlk.placed) fun t n => (t.sendGrant_table n).2,
      foldl_same (fun t : State => t.tlk.placed) (f := fun t n => t.send _) fun t n => rfl, State.ev_tlk]

theorem State.portsTimeStep_sys (s : State) : s.portsTimeStep.sys = s.sys :=
  (State.portsTimeStep_kept s (List.Subset.refl _) .rfl).only .sys (by decide)

/-! The lock to PTP (R366, R367). -/

/-- The state a Sync is judged on: its offset and clock class noted, the good and the bad ones counted, and a delay
request sent. -/
def State.ptpNoted (s : State) (via : Sys2Proof.PtpVia) (o : Int) (cls : Nat) : State :=
  { s with
    net := { s.net with
      syncAt := s.rootNs, ptpOfs := o, clockClass := cls, ptpMaster := false
      ptpGood := if -1000 ≤ o ∧ o ≤ 1000 then s.net.ptpGood + 1 else 0
      ptpBad := if o < -10000 ∨ 10000 < o then s.net.ptpBad + 1 else 0 }
    tx := .ptp s.tag via .delayReq s.net.ptpDomain s.sys.timeNs :: s.tx }

/-- What a Sync does, from the state it is judged on. -/
theorem State.ptpTake_eq (s : State) (via : Sys2Proof.PtpVia) (time : Nat) (o : Int) (cls : Nat) :
    s.ptpTake via time o cls =
      if s.clk.ptpLock = true then
        if 4 ≤ (s.ptpNoted via o cls).net.ptpBad then (s.ptpNoted via o cls).ptpUnlock
        else (s.ptpNoted via o cls).slew (-o)
      else if 16 ≤ (s.ptpNoted via o cls).net.ptpGood then (s.ptpNoted via o cls).ptpSetLock time
      else s.ptpNoted via o cls := by
  simp only [State.ptpTake, State.ptpNoted, decide_eq_true_eq]
  rfl

theorem State.ptpTake_good {s : State} (via : Sys2Proof.PtpVia) (time : Nat) {o : Int} (cls : Nat)
    (hl : s.clk.ptpLock = false) (few : s.net.ptpGood < 15) (lo : -1000 ≤ o) (hi : o ≤ 1000) :
    s.ptpTake via time o cls = { s with
      net := { s.net with syncAt := s.rootNs, ptpOfs := o, clockClass := cls, ptpMaster := false
                          ptpGood := s.net.ptpGood + 1, ptpBad := 0 }
      tx := .ptp s.tag via .delayReq s.net.ptpDomain s.sys.timeNs :: s.tx } := by
  have good : -1000 ≤ o ∧ o ≤ 1000 := ⟨lo, hi⟩
  have notBad : ¬ (o < -10000 ∨ 10000 < o) := by omega
  have notYet : ¬ 16 ≤ s.net.ptpGood + 1 := by omega
  simp [State.ptpTake_eq, hl, State.ptpNoted, good, notBad, notYet]

theorem State.ptpTake_notGood {s : State} (via : Sys2Proof.PtpVia) (time : Nat) {o : Int} (cls : Nat)
    (hl : s.clk.ptpLock = false) (out : o < -1000 ∨ 1000 < o) :
    s.ptpTake via time o cls = { s with
      net := { s.net with syncAt := s.rootNs, ptpOfs := o, clockClass := cls, ptpMaster := false, ptpGood := 0
                          ptpBad := if o < -10000 ∨ 10000 < o then s.net.ptpBad + 1 else 0 }
      tx := .ptp s.tag via .delayReq s.net.ptpDomain s.sys.timeNs :: s.tx } := by
  have notGood : ¬ (-1000 ≤ o ∧ o ≤ 1000) := by omega
  simp [State.ptpTake_eq, hl, State.ptpNoted, notGood]

/-- The 16th good Sync in a row sets PTP_LOCK. -/
theorem State.ptpTake_locks {s : State} (via : Sys2Proof.PtpVia) (time : Nat) {o : Int} (cls : Nat)
    (hl : s.clk.ptpLock = false) (enough : 15 ≤ s.net.ptpGood) (lo : -1000 ≤ o) (hi : o ≤ 1000) :
    s.ptpTake via time o cls = ({ s with
      net := { s.net with syncAt := s.rootNs, ptpOfs := o, clockClass := cls, ptpMaster := false
                          ptpGood := s.net.ptpGood + 1, ptpBad := 0 }
      tx := .ptp s.tag via .delayReq s.net.ptpDomain s.sys.timeNs :: s.tx } : State).ptpSetLock time := by
  have good : -1000 ≤ o ∧ o ≤ 1000 := ⟨lo, hi⟩
  have notBad : ¬ (o < -10000 ∨ 10000 < o) := by omega
  simp [State.ptpTake_eq, hl, State.ptpNoted, good, notBad, enough]

theorem State.ptpUnlock_unlocked {s : State} (h : s.clk.ptpLock = false) : s.ptpUnlock = s := by
  simp [State.ptpUnlock, h]

/-- PTP_LOCK cleared with its event, where shelf time has no new source yet. -/
def State.ptpDropped (s : State) : State :=
  { s with
    clk := { s.clk with ptpLock := false }
    net := { s.net with ptpGood := 0, ptpBad := 0, slewLeft := 0 }
    evr := (s.ev 0xA021).evr }

/-- The recorder reads nothing of what clearing PTP_LOCK changes. -/
theorem State.sameEv_ptpDropped (s : State) (src : TimeSrc) :
    (s.ev 0xA021).SameEv { s.ptpDropped with net := { s.ptpDropped.net with timeSrc := src } } :=
  ⟨by rw [State.ev_cfg]; rfl, rfl, by rw [State.ev_sys]; rfl, by rw [State.ev_sys]; rfl, by rw [State.ev_clk]; rfl⟩

theorem State.ptpUnlock_locked {s : State} (h : s.clk.ptpLock = true) :
    s.ptpUnlock = { s with
      clk := { s.clk with ptpLock := false }
      net := { s.net with ptpGood := 0, ptpBad := 0, slewLeft := 0, timeSrc := if s.followsRing then .ring else .holdover }
      evr := s.evs (if s.followsRing then [(0xA021, noInst, 0), (0xA022, noInst, 0)] else [(0xA021, noInst, 0)]) } := by
  have dropped : State.ev { s with
      clk := { s.clk with ptpLock := false }
      net := { s.net with ptpGood := 0, ptpBad := 0, slewLeft := 0 } } 0xA021 = s.ptpDropped := by
    rw [State.ev_of (s := s)]
    · rfl
    · exact ⟨rfl, rfl, rfl, rfl, rfl⟩
  have source : s.ptpDropped.followsRing = s.followsRing := rfl
  simp only [State.ptpUnlock, h, Bool.not_true, Bool.false_eq_true, if_false, dropped, source]
  cases s.followsRing with
  | false => rfl
  | true =>
    simp only [if_true, State.evs_cons, State.evs_nil]
    rw [State.ev_of (s.sameEv_ptpDropped .ring)]
    rfl

theorem State.followsRing_iff (s : State) : s.followsRing = true ↔
    s.net.joined = true ∧ ∃ m, s.ringMaster = some m ∧ ¬(m.rack = s.rackId ∧ m.shelf = s.shelfIndex) := by
  have named (m : Member) : (!m.named s.rackId s.shelfIndex) = true ↔ ¬(m.rack = s.rackId ∧ m.shelf = s.shelfIndex) := by
    rw [Bool.not_eq_true', ← Bool.not_eq_true, Member.named, Bool.and_eq_true, decide_eq_true_eq, decide_eq_true_eq]
  rw [State.followsRing, Bool.and_eq_true, Option.any_eq_true]
  simp only [named]

/-! Frames of the row ring (R388 to R390). -/

theorem State.rowLocal_eq (s : State) (west : Bool) (ty : Nat) (p : List Byte) :
    s.rowLocal west ty p = if s.net.forwarding = true then { s with
      net := { s.net with ringSeq := wrapU 32 (s.net.ringSeq + 1), sentSeq := (s.net.ringSeq :: s.net.sentSeq).take 64 }
      tx := .row west (rowFrame ty 2 510 s.rackId s.shelfIndex s.net.ringSeq p) :: s.tx } else s := rfl

/-- A frame of one's own takes a SEQ and leaves; shelf time stays as it is. -/
theorem State.rowLocal_sys (s : State) (west : Bool) (ty : Nat) (p : List Byte) : (s.rowLocal west ty p).sys = s.sys := by
  rw [State.rowLocal_eq]
  split <;> rfl

/-- The state once a frame of another member has gone on, unless it is link-local. -/
def State.rowPassed (s : State) (f : Sys2Proof.RowFrame) : State :=
  if tb (at8 f.bytes 1) 1 = true then s else s.rowForward f true

theorem State.rowPassed_only (s : State) (f : Sys2Proof.RowFrame) : State.only [.tx, .fv] s (s.rowPassed f) :=
  (Kept.ite .rfl (State.rowForward_kept s f true (by decide) .rfl)).only

theorem State.rowPassed_net (s : State) (f : Sys2Proof.RowFrame) : (s.rowPassed f).net = s.net :=
  s.rowPassed_only f .net (by decide)

/-- The state in which this member acts on a frame: it has gone on, and is noted. -/
def State.rowNoted (s : State) (f : Sys2Proof.RowFrame) : State :=
  { s.rowPassed f with net := { (s.rowPassed f).net with
      seenSeq := (at16 f.bytes 4, at8 f.bytes 6, at32 f.bytes 8) :: (s.rowPassed f).net.seenSeq } }

theorem State.rowNoted_only (s : State) (f : Sys2Proof.RowFrame) : State.only [.net, .tx, .fv] s (s.rowNoted f) := by
  have passed : Kept [.net, .tx, .fv] s (s.rowPassed f) := .ite .rfl (State.rowForward_kept s f true (by decide) .rfl)
  exact (Kept.mk_iff.2 (Kept.of_net passed (by decide))).only

theorem State.rowNoted_net (s : State) (f : Sys2Proof.RowFrame) : (s.rowNoted f).net =
    { s.net with seenSeq := (at16 f.bytes 4, at8 f.bytes 6, at32 f.bytes 8) :: s.net.seenSeq } := by
  simp only [State.rowNoted, State.rowPassed_net]

/-- A frame that is acted on. -/
theorem State.rowTake_acts {s : State} {f : Sys2Proof.RowFrame} {ty len : Nat} (h : s.acts f ty len = true)
    (own : State → Bool → State) (act : State → Nat → Nat → List Byte → State) :
    s.rowTake f ty len own act =
      act (s.rowNoted f) (at16 f.bytes 4) (at8 f.bytes 6) (bytesAt f.bytes 16 len) := by
  simp only [State.acts, State.arrives, Bool.and_eq_true, Bool.not_eq_true', bne_iff_ne] at h
  obtain ⟨⟨⟨⟨⟨⟨⟨forwards, length⟩, type⟩, named⟩, hops⟩, crc⟩, notOwn⟩, fresh⟩ := h
  have mine : (decide (at16 f.bytes 4 = s.rackId) && decide (at8 f.bytes 6 = s.shelfIndex)
      && s.net.sentSeq.contains (at32 f.bytes 8)) = false := notOwn
  have long : ¬ f.bytes.length < 20 := by
    rw [beq_iff_eq] at length
    simp only [ceilDiv, OfNat.ofNat_ne_zero, if_false] at length
    omega
  have passed : s.rowPassed f = if tb (at8 f.bytes 1) 1 = true then s else s.rowForward f true := rfl
  have notSeen := congrArg Net.seenSeq (s.rowPassed_net f)
  unfold State.rowTake
  simp only [crc, mine, Bool.false_and, Bool.or_false, ← passed]
  rw [if_neg (by simp [forwards, long, hops]), if_neg (by simp [bne, length, type, named]), if_neg Bool.false_ne_true,
    if_neg (by rw [notSeen, fresh]; exact Bool.false_ne_true)]
  rfl

theorem State.rowNoted_ringMaster (s : State) (f : Sys2Proof.RowFrame) : (s.rowNoted f).ringMaster = s.ringMaster := by
  unfold State.ringMaster State.rootNs
  rw [State.rowNoted_net, s.rowNoted_only f .sys (by decide)]

/-! What the commands do. -/

/-- A Sync that comes in as other frames do, and is not passed over (R362, R366). -/
theorem execPtpSync_eq (f : Sys2Proof.FramePath) (via : Sys2Proof.PtpVia) (dom cls : BitVec 8) (time : BitVec 64)
    (ofs : BitVec 32) (s : State) :
    execPtpSync f via dom time ofs cls s = .next (s.netIn f (via = .udp4) fun s =>
      if dom.toNat ≠ s.net.ptpDomain ∨ (s.net.ptpMaster = true ∧ 248 < cls.toNat) then s
      else s.ptpTake via time.toNat ofs.toInt cls.toNat) := by
  simp only [execPtpSync, Bool.or_eq_true, Bool.and_eq_true, bne_iff_ne, decide_eq_true_eq]

theorem execPtpLost_due {s : State} (h : s.elapsedNs s.net.syncAt 3000000000 = true) :
    execPtpLost s = .next { s.ptpUnlock with net := { s.ptpUnlock.net with
      ptpMaster := s.net.ptpMode = 2 && s.net.linkUp
      clockClass := if s.net.ptpMode = 2 then 248 else s.net.clockClass } } := by
  have kept : s.ptpUnlock.net.ptpMode = s.net.ptpMode ∧ s.ptpUnlock.net.linkUp = s.net.linkUp ∧
      s.ptpUnlock.net.clockClass = s.net.clockClass := by
    cases hl : s.clk.ptpLock with
    | false => simp [State.ptpUnlock_unlocked hl]
    | true => simp [State.ptpUnlock_locked hl]
  obtain ⟨mode, link, cls⟩ := kept
  simp only [execPtpLost, h, if_true, mode, link, cls]

theorem execPpsIn_pps {s : State} (t : BitVec 64) (h : s.param 0x0002 0 = 2) : execPpsIn t s = .next { s with
    clk := { s.clk with syncInActive := true }
    net := { s.net with
      ppsT := t.toNat
      ppsOfs := if t.toNat % 1000000000 < 500000000 then ((t.toNat % 1000000000 : Nat) : Int)
        else ((t.toNat % 1000000000 : Nat) : Int) - 1000000000 } } := by
  simp only [execPpsIn, h, if_true]

/-- A TIME frame, by what it changes (R367, R393). -/
theorem execRingTime_eq (f : Sys2Proof.RowFrame) (s : State) :
    execRingTime f s = .next (s.rowTake f 0x01 17 ownBack fun s rack shelf p =>
      let t : Int := (leVal (bytesAt p 0 8) : Int) + (ofCode 64 (leVal (bytesAt p 8 8))).fdiv 65536 +
        (if f.west then s.net.delayWest else s.net.delayEast)
      if s.ringMaster.all (fun m => !m.named rack shelf) = true then s
      else if s.clk.ptpLock = true ∨ s.net.joined = false then
        { s with net := { s.net with ringTimeOfs := sat32 (t - s.sys.timeNs) } }
      else { s with
        net := { s.net with ringTimeOfs := sat32 (t - s.sys.timeNs), timeSrc := .ring, slewLeft := t - s.sys.timeNs }
        evr := if s.net.timeSrc = .ring then s.evr else s.evs [(0xA022, noInst, 0)] }) := by
  have passedOver (m : Option Member) (p : Member → Bool) : (!m.any p) = m.all fun x => !p x := by cases m <;> rfl
  unfold execRingTime
  congr 2
  funext u rack shelf p
  dsimp only
  rw [passedOver]
  refine if_congr Iff.rfl rfl (if_congr (by simp) rfl ?_)
  by_cases src : u.net.timeSrc = .ring
  · simp only [if_pos src]
    rfl
  · simp only [if_neg src]
    rw [State.ev_of (s := u)]
    · rfl
    · exact ⟨rfl, rfl, rfl, rfl, rfl⟩

/-- Settles O35: each source of shelf time by the lemma on its operation; frames of the ring that are acted on reach the
command in the state of `rowNoted`. -/
theorem shelfTimeFollowsItsSources : Obligations.ShelfTimeFollowsItsSources := by
  refine ⟨execPtpSync_eq, fun via time cls o s hl few lo hi => State.ptpTake_good via time cls hl few lo hi,
    fun via time cls o s hl out => State.ptpTake_notGood via time cls hl out, ?locks,
    fun s => ⟨s.portsTimeStep_table.1, s.portsTimeStep_table.2, s.portsTimeStep_sys⟩, ?locked,
    fun s => State.ptpUnlock_unlocked, fun s => State.ptpUnlock_locked, State.followsRing_iff,
    fun s => execPtpLost_due, ?early, fun t s => execPpsIn_pps t, ?noPps, fun f t4 s => rfl, ?delay, fun f t2 s => rfl,
    ?ask, ?asked, fun west ty p s => s.rowLocal_eq west ty p, execRingTime_eq, ?ringTime⟩
  case locks =>
    intro via time cls o s hl enough lo hi
    rw [State.ptpTake_locks via time cls hl enough lo hi, State.ptpSetLock]
    cases s.clk.ptpStepped <;> simp
  case locked =>
    intro via time cls o s hl
    rw [State.ptpTake_eq, if_pos hl]
    rfl
  case early =>
    intro s h
    show execPtpLost s = .next s
    simp [execPtpLost, h]
  case noPps =>
    intro t s h
    show execPpsIn t s = .next s
    simp [execPpsIn, h]
  case delay =>
    intro f t4 s h
    refine ⟨_, rfl, ?_⟩
    rw [State.rowTake_acts h, State.rowNoted_net]
    exact ⟨rfl, rfl⟩
  case ask =>
    intro s h
    show execPdelayReq none s = _
    simp only [execPdelayReq, h, Bool.not_true, Bool.false_eq_true, if_false]
    cases s.net.eastUp with
    | false => rfl
    | true => simp only [if_true, State.rowLocal_sys]
  case asked =>
    intro s h
    show execPdelayReq none s = .next s
    simp [execPdelayReq, h]
  case ringTime =>
    intro f m s h master named hl
    refine ⟨_, execRingTime_eq f s, ?_⟩
    have clk : (s.rowNoted f).clk = s.clk := s.rowNoted_only f .clk (by decide)
    have sys : (s.rowNoted f).sys = s.sys := s.rowNoted_only f .sys (by decide)
    have evr : (s.rowNoted f).evr = s.evr := s.rowNoted_only f .evr (by decide)
    rw [State.rowTake_acts h]
    simp [State.rowNoted_ringMaster, master, named, clk, hl, sys, evr, State.rowNoted_net]

end Sys2Proof.Machine
end

section
/-! SUPPORT. The passages between device states (R16, R441, R442, R445). -/

namespace Sys2Proof.Machine

/-- A group in RUN on the fast path that is to return to OFF, and session 0 is an OPERATOR's. -/
def fastPathBackToOff : State :=
  { State.reset with
    sys := { State.reset.sys with state := .run }
    net := { State.reset.net with
      sess := updV State.reset.net.sess 0 fun x => { x with isOpen := true, role := .operator } }
    pwm := { State.reset.pwm with
      grp := updV State.reset.pwm.grp 0 fun x => { x with state := .fastPath, fpReturn := .off } } }

/-- TARGET ARMED ends the fast path first (R186), and the group, then OFF, does not pass to STOPPING. -/
theorem fastPathBackToOff_target_armed :
    ((fastPathBackToOff.writeTarget 3).grp 0).state = .off := by decide +kernel

/-- Refutes O6: in RUN, TARGET ARMED does not pass every group that is not OFF to STOPPING. A group on the fast path
returns first to the state it holds as the one it came from, of which the statement assumes nothing: where that is OFF, the
group stays OFF. -/
theorem not_passagesByTarget : ¬ Obligations.PassagesByTarget := by
  unfold Obligations.PassagesByTarget
  rintro ⟨-, -, toArmed, -⟩
  have allowed : fastPathBackToOff.allows 0 .oa = true := by decide +kernel
  obtain ⟨t, next, -, -, -, -, groups⟩ := toArmed 0 fastPathBackToOff allowed rfl rfl
  have reached : exec (.sysStateReq 0 3) fastPathBackToOff = .next (fastPathBackToOff.writeTarget 3) :=
    congrArg Host.Outcome.next (State.regCmd_allowed allowed _)
  obtain rfl : fastPathBackToOff.writeTarget 3 = t := by
    rw [reached] at next
    exact Host.Outcome.next.inj next
  have stopping := groups 0
  rw [fastPathBackToOff_target_armed] at stopping
  exact absurd stopping (by decide +kernel)

end Sys2Proof.Machine
end

section
/-! SUPPORT. The tick (R7, R9, R34, R40, R140). -/

namespace Sys2Proof.Machine

/-! What a tick leaves alone once it is counted. -/

/-- What no part of a tick changes once the tick is counted: the tick count, shelf time, SRAM, HBM, MRAM, the DMA channels
and the queue of commands. -/
def State.onTick (s : State) : Nat × Nat × Memory × Memory × Memory × Vector DmaCh 32 × List Instr :=
  (s.sys.tick, s.sys.timeNs, s.mem.sram, s.mem.hbm, s.mem.mram, s.mem.ch, s.pending)

/-- All of that is the same in two states. -/
def State.InTick (s t : State) : Prop := t.onTick = s.onTick

theorem State.inTick_iff {s t : State} : s.InTick t ↔
    t.sys.tick = s.sys.tick ∧ t.sys.timeNs = s.sys.timeNs ∧ t.mem.sram = s.mem.sram ∧ t.mem.hbm = s.mem.hbm ∧
      t.mem.mram = s.mem.mram ∧ t.mem.ch = s.mem.ch ∧ t.pending = s.pending := by
  simp only [State.InTick, State.onTick, Prod.mk.injEq]

theorem State.InTick.rfl {s : State} : s.InTick s := Eq.refl _

theorem State.InTick.trans {s t u : State} (h : s.InTick t) (k : t.InTick u) : s.InTick u := Eq.trans k h

theorem State.InTick.ite {s t u : State} {c : Prop} [Decidable c] (h : s.InTick t) (k : s.InTick u) :
    s.InTick (if c then t else u) := by
  split <;> assumption

theorem State.InTick.foldl {α : Type} {f : State → α → State} {as : List α} {s t : State} (h : s.InTick t)
    (hf : ∀ (u : State) a, u.InTick (f u a)) : s.InTick (as.foldl f t) := by
  induction as generalizing t with
  | nil => exact h
  | cons a as ih => exact ih (h.trans (hf _ _))

/-- The parts of the state that hold nothing of it. -/
def offTick : List Blk :=
  [.power, .clk, .sec, .cfg, .afe, .loop, .pwm, .fce, .tlk, .chn, .est, .net, .prot, .evr, .tx, .fv]

/-- An operation over those parts. -/
theorem State.InTick.off {s t u : State} (h : s.InTick t) (k : Kept offTick t u) : s.InTick u := by
  have sys := k.only .sys (by decide)
  have mem := k.only .mem (by decide)
  have pending := k.only .pending (by decide)
  exact h.trans (by rw [State.InTick, State.onTick, State.onTick, sys, mem, pending])

/-- An event. -/
theorem State.InTick.ev {s t : State} (h : s.InTick t) (code inst data : Nat) : s.InTick (t.ev code inst data) :=
  h.off (State.ev_kept _ _ _ _ (by decide) .rfl)

/-- A change of one ring. -/
theorem State.InTick.updRing {s t : State} (h : s.InTick t) (c : Fin 4) (f : Ring → Ring) : s.InTick (t.updRing c f) :=
  h.off (State.updRing_kept _ _ _ (by decide) .rfl)

/-! The counts themselves (R7, R9). -/

/-- The state as the counts stand, before the slew. -/
def State.counted (s : State) : State :=
  { s with sys := { s.sys with tick := wrapU 64 (s.sys.tick + 1), timeNs := wrapU 64 (s.sys.timeNs + 2000) } }

theorem wrapU_wrapU (n x : Nat) : wrapU n (wrapU n x) = wrapU n x := Nat.mod_mod _ _

theorem State.advance_steady {s : State} (h : s.net.slewLeft = 0 ∨ wrapU 64 (s.sys.tick + 1) % 5 ≠ 0) :
    s.advance = s.counted := by
  unfold State.advance State.slewTick
  exact if_pos (by simpa using h)

/-- Where shelf time is slewed, the step is at most 1 ns towards the master. -/
theorem State.advance_slews {s : State} (h : s.net.slewLeft ≠ 0) : ∃ d : Int,
    (d = 0 ∨ d = if 0 < s.net.slewLeft then 1 else -1) ∧
    s.advance.net.slewLeft = s.net.slewLeft - d ∧
    s.advance.sys.timeNs = wrapU 64 ((wrapU 64 (s.sys.timeNs + 2000) : Int) + d).toNat := by
  by_cases step : wrapU 64 (s.sys.tick + 1) % 5 = 0
  · refine ⟨if Config.freeNat s.fv % 2 = 0 then 0 else if 0 < s.net.slewLeft then 1 else -1, ?_, ?_⟩
    · split
      · exact .inl rfl
      · exact .inr rfl
    · unfold State.advance State.slewTick
      rw [if_neg (by simp [h, step])]
      exact ⟨rfl, rfl⟩
  · rw [State.advance_steady (.inr step)]
    exact ⟨0, .inl rfl, (Int.sub_zero _).symm, by
      rw [Int.add_zero, Int.toNat_natCast, wrapU_wrapU]; rfl⟩

/-- SYS as a tick leaves it when it is counted: nothing but the counts changes. -/
theorem State.advance_sys (s : State) :
    s.advance.sys = { s.sys with tick := wrapU 64 (s.sys.tick + 1), timeNs := s.advance.sys.timeNs } := by
  unfold State.advance State.slewTick
  split
  · rfl
  · rfl

/-! A swap of the configuration at the start of a tick (R83, R84): passages between device states among its effects. -/

theorem State.setState_inTick (s : State) (st : DevState) : s.InTick (s.setState st) := by
  refine .ev ?_ _ _ _
  exact rfl

theorem State.degrade_inTick (s : State) : s.InTick s.degrade := rfl

theorem State.failRing_inTick (s : State) (c : Fin 4) : s.InTick (s.failRing c) :=
  ((State.InTick.rfl.updRing _ _).ev _ _ _).trans (State.degrade_inTick _)

theorem State.missNode_inTick (s : State) (c : Fin 4) (n : Nat) : s.InTick (s.missNode c n) := by
  unfold State.missNode
  lift_lets
  intro t new u v
  have cells : s.InTick u := .off .rfl (.foldl (State.updNode_kept _ _ _ _ (by decide) .rfl)
    fun w k => State.updCell_kept w c k.2 _ (by decide) .rfl)
  have missing : s.InTick v := (cells.ev _ _ _).trans (State.degrade_inTick _)
  exact .ite (missing.ev _ _ _) missing

theorem State.ringCheck_inTick (s : State) (c : Fin 4) (again : Bool) : s.InTick (s.ringCheck c again) := by
  unfold State.ringCheck
  lift_lets
  intro r n bad placed sent split found
  have sentOff : Kept offTick s sent := by
    have h : Kept offTick s placed := State.updRing_kept _ _ _ (by decide) .rfl
    exact .ite h (State.train_kept _ _ _ _ _ _ (by decide) (State.train_kept _ _ _ _ _ _ (by decide)
      (State.train_kept _ _ _ _ _ _ (by decide) h)))
  have foundIn : s.InTick found := .trans (.ev (.off .rfl (State.ctrFound_kept _ _ (by decide)
    (State.updRing_kept _ _ _ (by decide) sentOff))) _ _ _) (State.degrade_inTick _)
  refine .ite .rfl (.ite (s.failRing_inTick c) (.ite ?_ ?_))
  · exact .ev (.off .rfl (State.ctrFound_kept _ _ (by decide) (State.updRing_kept _ _ _ (by decide)
      (State.updRing_kept _ _ _ (by decide) .rfl)))) _ _ _
  · exact foundIn.foldl fun t k => t.missNode_inTick c k

theorem State.ringsCheck_inTick (s : State) : s.InTick s.ringsCheck :=
  .foldl .rfl fun t c => t.ringCheck_inTick c false

theorem State.leaveBoot_inTick (s : State) : s.InTick s.leaveBoot :=
  .ite (.off ((s.setState_inTick _).trans (State.ringsCheck_inTick _)) (State.raiseFirmware_kept _ (by decide) .rfl)) .rfl

theorem State.unjoin_inTick (s : State) : s.InTick s.unjoin := by
  unfold State.unjoin
  lift_lets
  intro was ring _ _ t
  have whole : s.InTick t := by
    refine .off ?_ (State.setWhole_kept _ _ (by decide) .rfl)
    exact rfl
  exact .ite .rfl (.ite (whole.ev _ _ _) whole)

theorem State.enterShip_inTick (s : State) : s.InTick s.enterShip := by
  unfold State.enterShip
  lift_lets
  intro _ idle stopped left shipping synced
  have idleIn : s.InTick idle := rfl
  have stoppedIn : s.InTick stopped := .off (idleIn.trans (idle.setState_inTick _))
    (State.stopGroups_kept _ (by decide) (State.portsEnterSafe_kept _ (by decide)
      (State.failover_kept _ _ (by decide) .rfl)))
  have shippingIn : s.InTick shipping := .foldl (stoppedIn.trans stopped.unjoin_inTick) fun t c => .updRing .rfl c _
  have syncedIn : s.InTick synced := .off shippingIn
    (State.engineSync_kept _ (by decide) (State.rotationShip_kept _ (by decide) .rfl))
  exact .ite (.off syncedIn (State.shipRings_kept _ (by decide) .rfl)) syncedIn

theorem State.armAbandon_inTick (s : State) : s.InTick s.armAbandon := by
  unfold State.armAbandon
  lift_lets
  intro refused _ idle
  have refusedIn : s.InTick refused := .ev .rfl _ _ _
  have idleIn : s.InTick idle := by
    refine .off (refusedIn.trans ?_) (State.engineSync_kept _ (by decide) .rfl)
    exact rfl
  exact .ite (idleIn.trans idle.enterShip_inTick) idleIn

theorem State.armCheck_inTick (s : State) : s.InTick s.armCheck := .ite s.armAbandon_inTick .rfl

theorem State.swapChain_inTick (s : State) : s.InTick s.swapChain := by
  refine .trans (.trans (.foldl .rfl fun t c => ?_) (State.ringsCheck_inTick _)) (State.armCheck_inTick _)
  exact .ite (.updRing .rfl _ _) .rfl

theorem State.swapParam_inTick (s old : State) : s.InTick (s.swapParam old) := by
  have ref : s.InTick (s.selectRef (s.param 0x0001 0 = 1)) := .off .rfl (State.selectRef_kept _ _ (by decide) .rfl)
  exact .ite (ref.trans (State.unjoin_inTick _)) ref

theorem State.swapBlocks_inTick (s old : State) (full : Bool) (carried : Nat → Bool) :
    s.InTick (s.swapBlocks old full carried) := by
  unfold State.swapBlocks
  lift_lets
  intro rates params coeffs phases chains strings models ports
  have h : s.InTick rates := .ite (.off .rfl (State.swapRates_kept _ (by decide) .rfl)) .rfl
  have h : s.InTick params := .ite (h.trans (State.swapParam_inTick _ _)) h
  have h : s.InTick coeffs := .ite (h.off (State.swapCoeff_kept _ _ (by decide) .rfl)) h
  have h : s.InTick phases := .ite (h.off (State.psusActivate_kept _ (by decide)
    (State.phasesActivate_kept _ (by decide) .rfl))) h
  have h : s.InTick chains := .ite (h.trans (State.swapChain_inTick _)) h
  have h : s.InTick strings := .ite (h.off (State.swapEstimator_kept _ _ (by decide) .rfl)) h
  have h : s.InTick models := .ite (h.off (State.modelSwap_kept _ _ (by decide) .rfl)) h
  have h : s.InTick ports := .ite (h.off (State.portsActivate_kept _ _ (by decide) .rfl))
    (.ite (h.off (State.regrant_kept _ _ (by decide) .rfl)) h)
  exact .ite (h.off (State.judgeLimits_kept _ (by decide) (State.setBus_kept _ _ (by decide) .rfl))) h

theorem State.applyImage_inTick (s : State) (im : Image) (n : Nat) : s.InTick (s.applyImage im n) := by
  have taken : s.InTick (((s.takeSections im n).setResult 0x01).ev 0x2003) := .off .rfl (State.ev_kept _ _ _ _ (by decide)
    (State.setResult_kept _ _ _ _ _ (by decide) (State.takeSections_kept _ _ _ (by decide) .rfl)))
  have swapped := taken.trans (State.swapBlocks_inTick _ s im.full fun t => im.sections.any fun x => x.type = t)
  exact (swapped.off (State.noteStore_kept _ im (by decide) (State.writerStart_kept _ (by decide)
    (State.writeImage_kept _ (by decide) .rfl)))).trans (State.leaveBoot_inTick _)

theorem State.swapAt_inTick (s : State) (n : Nat) : s.InTick (s.swapAt n) := by
  unfold State.swapAt
  split
  · refine .ite .rfl (.ite (.off .rfl (State.cancelSwap_kept _ (by decide) .rfl)) ?_)
    dsimp only
    split
    · exact .off .rfl (State.dropShadow_kept _ (by decide) (State.setResult_kept _ _ _ _ _ (by decide)
        (State.cancelSwap_kept _ (by decide) .rfl)))
    · refine .trans ?_ (State.applyImage_inTick _ _ _)
      exact rfl
  · exact .rfl

/-! The control engine (R140): a detector that fires may hand groups to Basalt (R156). -/

theorem State.setGdrv_inTick (s : State) (g : Fin 4) (v : Bool) : s.InTick (s.setGdrv g v) :=
  rfl

theorem State.giveBasalt_inTick (s : State) (g : Fin 4) : s.InTick (s.giveBasalt g) := by
  unfold State.giveBasalt
  lift_lets
  intro gr mayStart ipk ended basalt enabled _
  have basaltIn : s.InTick basalt := .off .rfl (State.updGrp_kept _ _ _ (by decide) (State.dropDe_kept _ _ (by decide)
    (State.fastEnd_kept _ _ (by decide) (.foldl .rfl fun t p => State.stopCycle_kept t p (by decide) .rfl))))
  have enabledIn : s.InTick enabled := .ite (basaltIn.trans (State.setGdrv_inTick _ _ _)) basaltIn
  refine .ite (enabledIn.trans ?_) .rfl
  exact rfl

theorem State.handToBasalt_inTick (s : State) (g : Fin 4) : s.InTick (s.handToBasalt g) := by
  unfold State.handToBasalt
  lift_lets
  intro given _ _ handed
  have handedIn : s.InTick handed := (s.giveBasalt_inTick g).trans rfl
  refine .ite .rfl ?_
  split
  · split
    · exact handedIn.off (State.testAbort_kept _ _ (by decide) (State.updSlot_kept _ _ _ (by decide) .rfl))
    · exact handedIn
  · exact handedIn

theorem State.handGroups_inTick (s : State) (i : Fin 64) : s.InTick (s.handGroups i) :=
  .ite .rfl (.ev (.foldl .rfl State.handToBasalt_inTick) _ _ _)

theorem State.oscFire_inTick (s : State) (i : Fin 64) (r : Rec) : s.InTick (s.oscFire i r) := by
  unfold State.oscFire
  lift_lets
  intro t fired aborted x frozen
  have firedIn : s.InTick aborted := .off .rfl (State.testAbort_kept _ _ (by decide) (State.snapshot_kept _ _ (by decide)
    (State.ev_kept _ _ _ _ (by decide) (State.updSlot_kept _ _ _ (by decide) .rfl))))
  have freezeIn : s.InTick (aborted.freezeInteg i) := firedIn.off (State.freezeInteg_kept _ _ (by decide) .rfl)
  split
  · exact .ite (.ite firedIn freezeIn) (.ev (firedIn.off (State.updSlot_kept _ _ _ (by decide) .rfl)) _ _ _)
  · exact .ite firedIn freezeIn
  · exact firedIn.trans (State.handGroups_inTick _ _)
  · exact firedIn

theorem State.slotRun_inTick (s : State) (i : Fin 64) (r : Rec) (setp : Int) : s.InTick (s.slotRun i r setp) := by
  unfold State.slotRun
  lift_lets
  intro n noted ovf changed banked
  have h : s.InTick noted := .off .rfl (State.updSlot_kept _ _ _ (by decide) (State.noteRoutes_kept _ _ _ (by decide) .rfl))
  have h : s.InTick ovf := .ite (h.ev _ _ _) h
  have h : s.InTick changed := .ite (h.ev _ _ _) h
  have h : s.InTick banked := .ite (h.ev _ _ _) h
  exact .ite (h.trans (State.oscFire_inTick _ _ _)) h

theorem State.slotEval_inTick (s : State) (i : Fin 64) (r : Rec) (setp : Int) : s.InTick (s.slotEval i r setp) := by
  have abort (t : State) : t.InTick (t.testAbort i) := .off .rfl (State.testAbort_kept _ _ (by decide) .rfl)
  have lost (f : Slot → Slot) : s.InTick (s.updSlot i f) := .off .rfl (State.updSlot_kept _ _ _ (by decide) .rfl)
  exact .ite (abort s) (.ite (.trans (.ite (lost _) ((lost _).ev _ _ _)) (abort _)) (s.slotRun_inTick i r setp))

theorem State.slotTick_inTick (s : State) (i : Fin 64) : s.InTick (s.slotTick i) := by
  unfold State.slotTick
  split
  · exact .rfl
  · refine .off ?_ (State.formOutput_kept _ _ _ (by decide) .rfl)
    have seeded (r : Rec) : s.InTick (s.seedSlot i r) := .off .rfl (State.seedSlot_kept _ _ _ (by decide) .rfl)
    exact .ite ((seeded _).trans (State.slotEval_inTick _ _ _ _)) (seeded _)

theorem State.engineTick_inTick (s : State) (cycles : Nat) : s.InTick (s.engineTick cycles) := by
  have slots : s.InTick (s.slotOrder.foldl State.slotTick s) := .foldl .rfl State.slotTick_inTick
  refine .ite .rfl (slots.trans ?_)
  exact rfl

/-! The other parts that write SYS or MEM. -/

theorem State.syncOutTick_inTick (s : State) : s.InTick s.syncOutTick := by
  unfold State.syncOutTick
  dsimp only
  split
  · exact .ite rfl .rfl
  · exact rfl
  · exact rfl

theorem State.degradedTick_inTick (s : State) : s.InTick s.degradedTick := by
  refine .trans (.off .rfl (State.ringDegTick_kept s (by decide) .rfl)) ?_
  exact rfl

/-- A page that comes into a frame is copied from tier backing. -/
theorem State.bringIn_inTick (s : State) (page : Nat) : s.InTick (s.bringIn page) := by
  have brought (t : State) : t.InTick (t.bringPage page) := rfl
  have evicted (v : Nat × Bool) : s.InTick (s.evictPage v) := rfl
  unfold State.bringIn State.admitPage
  refine .ite .rfl ?_
  split
  · exact brought s
  · cases s.mem.resident.find? s.evictable with
    | none => exact .rfl
    | some v => exact (evicted v).trans (brought _)

theorem State.usePages_inTick (s : State) (pages : List Nat) (w : Bool) : s.InTick (s.usePages pages w) :=
  .ite .rfl rfl

theorem State.tierWrite_inTick (s : State) (a : Nat) (l : List Byte) : s.InTick (s.spaceWrite 2 a l) :=
  rfl

/-- The firmware's own pages lie in tier space (R466). -/
theorem State.tierPut_inTick (s : State) (page off : Nat) (l : List Byte) : s.InTick (s.tierPut page off l) :=
  ((s.bringIn_inTick page).trans (State.tierWrite_inTick _ _ _)).trans (State.usePages_inTick _ _ _)

theorem State.histChannel_inTick (s : State) (c decim : Nat) : s.InTick (s.histChannel c decim) := by
  have noted (t : State) (v : Evr) : t.InTick { t with evr := v } := rfl
  unfold State.histChannel
  extract_lets
  exact .ite (.ite ((s.tierPut_inTick _ _ _).trans (noted _ _)) (noted _ _)) (noted _ _)

theorem State.historyTick_inTick (s : State) : s.InTick s.historyTick :=
  .foldl .rfl fun t _ => t.histChannel_inTick _ _

/-! Block reads after the tick (R378). -/

theorem State.regRead_inTick (s : State) (req addr : Nat) : s.InTick (s.regRead req addr).2 := by
  unfold State.regRead
  split
  · exact .rfl
  · split
    · exact .rfl
    · split
      · exact rfl
      · exact .rfl

theorem State.closeSess_inTick (s : State) (n : Fin 64) : s.InTick (s.closeSess n) := by
  unfold State.closeSess
  lift_lets
  intro dead mine gone _ _ closed
  have goneIn : s.InTick gone := .ev (.off .rfl (State.updSess_kept _ _ _ (by decide) .rfl)) _ _ _
  have closedIn : s.InTick closed := by
    refine goneIn.trans ?_
    exact rfl
  exact .ite .rfl (.ite (closedIn.off (State.dropShadow_kept _ (by decide) .rfl)) closedIn)

theorem State.sendTo_inTick (s : State) (n : Fin 64) (ty reqId status flags : Nat) (body : List Byte) :
    s.InTick (s.sendTo n ty reqId status flags body) := by
  unfold State.sendTo
  lift_lets
  intro q m sent
  have sentIn : s.InTick sent := .off .rfl (State.send_kept _ _ (by decide) (State.updSess_kept _ _ _ (by decide) .rfl))
  exact .ite .rfl (.ite (sentIn.trans (State.closeSess_inTick _ _)) sentIn)

theorem State.blockWord_inTick (s : State) (b : BlockRead) : s.InTick (s.blockWord b) := by
  unfold State.blockWord
  have read := s.regRead_inTick b.sess b.addr
  generalize s.regRead b.sess b.addr = p at read
  obtain ⟨v, t⟩ := p
  have violated : t.InTick t.violate := rfl
  dsimp only
  have counted : s.InTick (if v.isNone = true then t.violate else t) := .ite (read.trans violated) read
  generalize (if v.isNone = true then t.violate else t) = u at counted
  split
  · split
    · exact counted.trans (State.sendTo_inTick _ _ _ _ _ _ _)
    · exact counted
  · exact counted.trans rfl

theorem State.blockTick_inTick (s : State) : s.InTick s.blockTick :=
  .foldl (t := { s with net := { s.net with blocks := [] } }) rfl State.blockWord_inTick

/-! The whole tick. -/

/-- What follows the count in a full tick changes neither the counts nor the memories. -/
theorem State.fullTick_inTick (s : State) (x : Sys2Proof.TickInputs) : s.advance.InTick (s.fullTick x) := by
  unfold State.fullTick
  lift_lets
  intro counted swapped measured planned comet judged evaluated summed forecast kept
  have h : s.advance.InTick counted := .off .rfl (State.drainStaging_kept _ (by decide) .rfl)
  have h : s.advance.InTick swapped := .off (h.trans (State.swapAt_inTick _ _))
    (State.applyStaged_kept _ (by decide) (State.cyclesTick_kept _ _ (by decide) .rfl))
  have h : s.advance.InTick measured := h.off (State.chainTick_kept _ (by decide) (State.fceStart_kept _ (by decide)
    (State.measure_kept _ _ (by decide) (State.afeLatch_kept _ _ (by decide) .rfl))))
  have h : s.advance.InTick planned := h.off (State.cometAgeTick_kept _ (by decide) (State.gridTick_kept _ (by decide)
    (State.busTick_kept _ (by decide) .rfl)))
  have h : s.advance.InTick comet := .ite (h.off (State.cometTick_kept _ (by decide) .rfl)) h
  have h : s.advance.InTick judged := h.off (State.limitsTick_kept _ (by decide) (State.healthTick_kept _ (by decide)
    (State.causeTicks_kept _ (by decide) (State.targets_kept _ (by decide) .rfl))))
  have h : s.advance.InTick evaluated :=
    .off (h.trans (State.engineTick_inTick _ _)) (State.convTick_kept _ (by decide) .rfl)
  have h : s.advance.InTick summed := h.off (State.sumsTick_kept _ (by decide)
    (.foldl .rfl fun t i => State.resistTick_kept t i (by decide) .rfl))
  have h : s.advance.InTick forecast := h.off (State.keyTick_kept _ (by decide) (State.fceTick_kept _ (by decide) .rfl))
  have h : s.advance.InTick kept :=
    .trans (h.off (State.captureTick_kept _ _ (by decide) .rfl)) (State.historyTick_inTick _)
  exact .off (.trans (.off (.trans (h.off (State.offWindowTick_kept _ (by decide) .rfl)) (State.syncOutTick_inTick _))
    (State.releaseTick_kept _ (by decide) .rfl)) (State.degradedTick_inTick _)) (State.ptpMasterTick_kept _ (by decide) .rfl)

/-- In an input loss the tick, once it is counted, touches the front end, the judgement of its phases and the recorder
(R34, R477). -/
theorem State.holdTick_counted (s : State) (x : Sys2Proof.TickInputs) :
    State.only [.afe, .pwm, .evr] s.advance (s.holdTick x) :=
  (State.keyTick_kept _ (by decide) (State.afeLatch_kept _ _ (by decide) (State.cyclesTick_kept _ _ (by decide)
    (State.drainStaging_kept s.advance (by decide) .rfl)))).only

theorem State.advance_only (s : State) : State.only [.sys, .net, .fv] s s.advance :=
  (State.advance_kept s (List.Subset.refl _) .rfl).only

theorem execTick_idle {s : State} (x : Sys2Proof.TickInputs) (h : s.power.powered = false ∨ s.clk.fabricStopped = true) :
    execTick x s = .next s := by
  unfold execTick
  rw [if_pos (by simpa using h)]

theorem execTick_hold {s : State} (x : Sys2Proof.TickInputs) (hp : s.power.powered = true)
    (hf : s.clk.fabricStopped = false) (hl : s.power.inputLoss = true) : execTick x s = .next (s.holdTick x) := by
  unfold execTick
  rw [if_neg (by simp [hp, hf]), if_pos hl]

theorem execTick_full {s : State} (x : Sys2Proof.TickInputs) (hp : s.power.powered = true)
    (hf : s.clk.fabricStopped = false) (hl : s.power.inputLoss = false) :
    execTick x s = .next (s.fullTick x).blockTick.telTick := by
  unfold execTick
  rw [if_neg (by simp [hp, hf]), if_neg (by simp [hl])]

/-- Settles O47: the parts of a tick, one by one, keep what the count has set (`InTick`), and the slew moves shelf time by
at most 1 ns. -/
theorem theTick : Obligations.TheTick := by
  refine ⟨fun x s h => execTick_idle x h, fun x s hp hf hl => execTick_hold x hp hf hl, fun x s hp hf hl => ?held,
    fun x s hp hf hl => execTick_full x hp hf hl, fun s => ⟨?count, fun h => ?steady, fun h => ?forward, fun h => ?back⟩,
    fun x s hp hf hl => ?full⟩
  case held =>
    refine ⟨_, execTick_hold x hp hf hl, ?_⟩
    have sys : (s.holdTick x).sys = s.advance.sys := s.holdTick_counted x .sys (by decide)
    refine ⟨?_, fun h => ?_, ?_⟩
    · rw [sys]
      exact s.advance_sys
    · rw [sys, State.advance_steady (.inl h)]
      rfl
    · exact State.only_trans (State.only_mono (by decide) s.advance_only)
        (State.only_mono (by decide) (s.holdTick_counted x))
  case count => rw [s.advance_sys]
  case steady =>
    rw [State.advance_steady h]
    exact ⟨rfl, rfl⟩
  case forward =>
    obtain ⟨d, hd, left, time⟩ := State.advance_slews (s := s) (by omega)
    rw [if_pos h] at hd
    rcases hd with rfl | rfl
    · exact .inl ⟨by omega, by rw [time, Int.add_zero, Int.toNat_natCast, wrapU_wrapU]⟩
    · exact .inr ⟨left, time⟩
  case back =>
    obtain ⟨d, hd, left, time⟩ := State.advance_slews (s := s) (by omega)
    rw [if_neg (by omega)] at hd
    rcases hd with rfl | rfl
    · exact .inl ⟨by omega, by rw [time, Int.add_zero, Int.toNat_natCast, wrapU_wrapU]⟩
    · exact .inr ⟨by omega, time⟩
  case full =>
    refine ⟨_, execTick_full x hp hf hl, ?_⟩
    have h : s.advance.InTick (s.fullTick x).blockTick.telTick :=
      .off ((s.fullTick_inTick x).trans (State.blockTick_inTick _)) (State.telTick_kept _ (by decide) .rfl)
    have mem : s.advance.mem = s.mem := s.advance_only .mem (by decide)
    have pending : s.advance.pending = s.pending := s.advance_only .pending (by decide)
    obtain ⟨tick, time, sram, hbm, mram, ch, queue⟩ := State.inTick_iff.1 h
    rw [mem] at sram hbm mram ch
    refine ⟨by rw [tick, s.advance_sys], fun hs => ?_, sram, hbm, mram, ch, queue.trans pending⟩
    rw [time, State.advance_steady (.inl hs)]
    rfl

end Sys2Proof.Machine
end

section
/-! SUPPORT. The supplies of the standby domain and the hold-up bank (R35 to R37, R47, R55, R57). -/

namespace Sys2Proof.Machine

/-- An event beside a change of the supplies' status: the recorder does not read the supplies (R473). -/
theorem State.ev_withPower (s : State) (p : Power) (c i d : Nat) :
    ({ s with power := p } : State).ev c i d = { s with power := p, evr := s.evs [(c, i, d)] } :=
  State.ev_of (s := s) (t := { s with power := p }) ⟨rfl, rfl, rfl, rfl, rfl⟩ c i d

/-- The same of an event that occurs under a condition. -/
theorem State.evIf_withPower (s : State) (p : Power) (q : Prop) [Decidable q] (c i d : Nat) :
    (if q then ({ s with power := p } : State).ev c i d else { s with power := p }) =
      { s with power := p, evr := if q then s.evs [(c, i, d)] else s.evr } := by
  rw [State.ev_withPower]
  split
  · rfl
  · rfl

/-- The same of an event that occurs unless a condition holds. -/
theorem State.evUnless_withPower (s : State) (p : Power) (q : Prop) [Decidable q] (c i d : Nat) :
    (if q then ({ s with power := p } : State) else ({ s with power := p } : State).ev c i d) =
      { s with power := p, evr := if q then s.evr else s.evs [(c, i, d)] } := by
  rw [State.ev_withPower]
  split
  · rfl
  · rfl

/-- Loss of STBY12_IN (R36): the event is that of a loss while AUX54_IN is present. -/
theorem exec_stby12Lost {s : State} (powered : s.power.powered = true) (own : s.power.stbySrc = false) :
    exec .stby12Lost s = .next { s with
      power := { s.power with stby12Lost := true, stby12Ok := false, stbySrc := true
                              stby12Gone := !s.power.inputLoss || s.power.aux54Ok }
      evr := if s.power.inputLoss = false ∨ s.power.aux54Ok = true then s.evs [(0x0011, noInst, 0)] else s.evr } := by
  have aux : (!s.power.inputLoss || s.power.aux54Ok) = true ↔ s.power.inputLoss = false ∨ s.power.aux54Ok = true := by
    simp
  show execStby12Lost s = _
  unfold execStby12Lost
  dsimp only
  rw [if_neg (by simp [powered, own]), State.evIf_withPower]
  simp only [aux]

/-- Return of STBY12_IN (R36): the event follows a loss that was recorded. -/
theorem exec_stby12Restored {s : State} (powered : s.power.powered = true) (derived : s.power.stbySrc = true) :
    exec .stby12Restored s = .next { s with
      power := { s.power with stby12Ok := true, stbySrc := false, stby12Gone := false }
      evr := if s.power.stby12Gone = true then s.evs [(0x0012, noInst, 0)] else s.evr } := by
  show execStby12Restored s = _
  unfold execStby12Restored
  dsimp only
  rw [if_pos (by simp [powered, derived]), State.evIf_withPower]

/-- AUX54_IN below its limit (R55, R57): the event is that of the bit setting. -/
theorem exec_aux54Brownout {s : State} (powered : s.power.powered = true) (noLoss : s.power.inputLoss = false) :
    exec .aux54Brownout s = .next { s with
      power := { s.power with brownout := true, aux54Ok := false }
      evr := if s.power.brownout = true then s.evr else s.evs [(0x0014, noInst, 0)] } := by
  show execAux54Brownout s = _
  unfold execAux54Brownout
  dsimp only
  rw [if_neg (by simp [powered, noLoss]), State.evUnless_withPower]

/-- A measurement of the hold-up bank (R37). -/
theorem exec_holdupMeasure {s : State} (mJ : BitVec 32) (powered : s.power.powered = true)
    (noLoss : s.power.inputLoss = false) :
    exec (.holdupMeasure mJ) s = .next { s with
      power := { s.power with holdupE := mJ.toNat, holdupOk := decide (10000 ≤ mJ.toNat), holdupCharging := false }
      evr := if 10000 ≤ mJ.toNat then s.evr else s.evs [(0x0013, noInst, 0)] } := by
  have live : ¬ (!s.power.powered || s.power.inputLoss) = true := by simp [powered, noLoss]
  show execHoldupMeasure mJ s = _
  unfold execHoldupMeasure
  dsimp only
  rw [if_neg live, State.evUnless_withPower]
  simp only [decide_eq_true_eq]

/-- Return of AUX54_IN while the record is open (R35). -/
theorem exec_inputReturn {s : State} (loss : s.power.inputLoss = true) :
    exec .inputReturn s = .next { s with power := { s.power with auxReturned := true, aux54Ok := true } } := by
  show execInputReturn s = _
  unfold execInputReturn
  rw [if_pos loss]

/-- The service connector is attached (R47). -/
theorem exec_serviceAttached (s : State) :
    exec .serviceAttached s = .next { s with
      power := { s.power with svcPresent := true }
      evr := if s.power.powered = true then s.evs [(0x0030, noInst, 0)] else s.evr } := by
  show execServiceAttached s = _
  unfold execServiceAttached
  dsimp only
  rw [State.evIf_withPower]

/-- Settles O1: each of the six commands by the equation of its meaning. -/
theorem standbySupplies : Obligations.StandbySupplies :=
  ⟨fun _ => exec_stby12Lost, fun _ => exec_stby12Restored, fun _ => exec_aux54Brownout,
    fun mJ _ => exec_holdupMeasure mJ, fun _ => exec_inputReturn, exec_serviceAttached⟩

/-- Settles O59: the equations of the two commands, and the parts they touch. -/
theorem lossOfStandbySupply : Obligations.LossOfStandbySupply := by
  constructor
  · intro s powered aux own
    have present : (!s.power.inputLoss || s.power.aux54Ok) = true := by simpa using aux
    have lost := exec_stby12Lost powered own
    rw [present, if_pos aux] at lost
    exact ⟨_, lost, rfl, rfl, rfl, ((exec_keeps .stby12Lost s).kept _ lost).only⟩
  · intro s powered derived gone
    have back := exec_stby12Restored powered derived
    rw [if_pos gone] at back
    exact ⟨_, back, rfl, rfl, ((exec_keeps .stby12Restored s).kept _ back).only⟩

end Sys2Proof.Machine
end

section
/-! SUPPORT. The values after reset (R54, R121, R161, R241, R430, R489). -/

namespace Sys2Proof.Machine

/-- Settles O58: the reset state is one closed state, and the clauses are read off it. -/
theorem resetValues : Obligations.ResetValues := by
  refine ⟨?inv, rfl, rfl, rfl, rfl, ?groups, ?sessions, ?registers⟩
  case inv => unfold State.Inv; decide +kernel
  case groups => decide +kernel
  case sessions => decide +kernel
  case registers => decide +kernel

end Sys2Proof.Machine
end

section
/-! SUPPORT. The end of the record of an input loss (R34, R474, R478). -/

namespace Sys2Proof.Machine

/-- The record closes 50 ms after the loss: where AUX54_IN is not back, the marked slots close and the module powers down
(R34). -/
theorem exec_inputLossRecordClose_down {s : State} (loss : s.power.inputLoss = true)
    (late : s.elapsed s.power.lossTick 25000 = true) (gone : s.power.auxReturned = false) :
    exec .inputLossRecordClose s = .next s.closeMarked.powerDown := by
  have power : s.closeMarked.power = s.power :=
    (State.closeMarked_kept s (List.Subset.refl _) .rfl).only .power (by decide)
  show execInputLossRecordClose s = _
  unfold execInputLossRecordClose
  dsimp only
  rw [if_neg (by simp [loss, late]), if_neg (by simp [power, gone])]

/-- The configuration's one record: event 0xC041 is a trigger, event 0xC051 is none (R475). -/
def firstFullTriggers : Section :=
  { type := 0x0C, index := 0
    recs := [{ type := 0x0C01, off := 0
               bytes := List.replicate 8 0 ++ leBytes 2 0xC041 ++ leBytes 2 16 ++ leBytes 4 100 ++ leBytes 1 1 }] }

/-- 50 ms into an input loss: slot 0 is CLOSING, slot 1 LIVE, the others KEPT, and the first area has room for one more
record. -/
def closingFillsFirstArea : State :=
  { State.reset with
    power := { State.reset.power with inputLoss := true }
    sys := { State.reset.sys with tick := 25000 }
    cfg := { State.reset.cfg with active := [firstFullTriggers] }
    evr := { State.reset.evr with
      writer := true, closedCount := 1
      first := List.replicate 8191 { code := 1, inst := 0, seq := 0, time := 0, tick := 0, data := 0, suppressed := 0 }
      slot := #v[{ state := .closing }, { state := .live }, { state := .kept }, { state := .kept }] } }

/-- Event 0xC051 of slot 0 fills the first area, event 0xC041 triggers, and slot 0, the one CLOSED slot, is LIVE again. -/
theorem closingFillsFirstArea_slot_live : (closingFillsFirstArea.closeMarked.powerDown.evr.slot[0]).state = .live := by
  decide +kernel

/-- Refutes O3: a slot that is CLOSING at INPUT_LOSS_RECORD_CLOSE need not be KEPT or CLOSED after it. The statement bars
the trigger of event 0xC051 alone; where that event fills the first area, event 0xC041 may trigger (R474, R475), and the slot
just closed becomes LIVE again if it is the oldest CLOSED one and none is FREE (R478). The state is one that the statement
admits, not one that a run is shown to reach: two slots of it are KEPT. -/
theorem not_inputLossAndPowerUp : ¬ Obligations.InputLossAndPowerUp := by
  unfold Obligations.InputLossAndPowerUp
  rintro ⟨-, recordClose, -⟩
  obtain ⟨t, next, -, -, -, -, -, -, -, -, closes⟩ :=
    recordClose closingFillsFirstArea rfl (by decide +kernel) rfl
  have down := exec_inputLossRecordClose_down (s := closingFillsFirstArea) rfl (by decide +kernel) rfl
  obtain rfl : closingFillsFirstArea.closeMarked.powerDown = t := by
    rw [down] at next
    exact Host.Outcome.next.inj next
  rcases closes (by decide +kernel) 0 (by decide +kernel) with kept | closed
  · exact absurd (closingFillsFirstArea_slot_live.symm.trans kept) (by decide)
  · exact absurd (closingFillsFirstArea_slot_live.symm.trans closed) (by decide)

end Sys2Proof.Machine
end

section
/-! SUPPORT. The reference, the crystal and the root clock (R39, R40, R304). -/

namespace Sys2Proof.Machine

/-! The reference and the crystal (R39): events beside a change of the clocks that lets the fabric run or stand as before. -/

/-- An event beside a change of the clocks: the recorder reads of them only whether the fabric stands (R473). -/
theorem State.ev_withClk (s : State) (k : Clock) (same : s.clk.fabricStopped = k.fabricStopped) (c i d : Nat) :
    ({ s with clk := k } : State).ev c i d = { s with clk := k, evr := s.evs [(c, i, d)] } :=
  State.ev_of (s := s) (t := { s with clk := k }) ⟨rfl, rfl, rfl, rfl, same⟩ c i d

theorem State.toCrystal_eq (s : State) : s.toCrystal = { s with
    clk := { s.clk with refSrc := false, refHoldover := false, fallbackBlocked := false }
    evr := s.evs [(0x0021, noInst, 0)] } := by
  unfold State.toCrystal
  rw [State.ev_withClk]
  rfl

theorem exec_refInLost {s : State} (inUse : s.clk.refSrc = true) (locked : s.clk.refHoldover = false) :
    exec .refInLost s = .next { s with
      clk := { s.clk with refInPresent := false, refHoldover := true, holdAt := s.sys.tick }
      evr := s.evs [(0x0020, noInst, 0)] } := by
  show execRefInLost s = _
  unfold execRefInLost
  dsimp only
  rw [if_pos (by simp [inUse, locked]), State.ev_withClk]
  rfl

theorem exec_refFallback {s : State} (holdover : s.clk.refHoldover = true) (allowed : s.clk.refFallback = true)
    (unblocked : s.clk.fallbackBlocked = false)
    (late : s.elapsed s.clk.holdAt (500000 * max 1 s.clk.holdoverS) = true) :
    exec .refFallback s = .next { s with
      clk := if s.clk.xtalOk = true then { s.clk with refSrc := false, refHoldover := false, fallbackBlocked := false }
             else { s.clk with fallbackBlocked := true }
      evr := s.evs [(if s.clk.xtalOk = true then 0x0021 else 0x0023, noInst, 0)] } := by
  show execRefFallback s = _
  unfold execRefFallback
  dsimp only
  rw [if_neg (by simp [holdover, allowed, unblocked, late])]
  split
  · rw [State.toCrystal_eq]
  · rw [State.ev_withClk]
    rfl

theorem exec_refInRestored {s : State} (present : s.clk.refInPresent = true)
    (wanted : s.clk.refHoldover = true ∨ (s.clk.refSel = true ∧ s.clk.refSrc = false))
    (late : s.elapsed s.clk.refSince 500000 = true) :
    exec .refInRestored s = .next { s with
      clk := { s.clk with refSrc := true, refHoldover := false, fallbackBlocked := false }
      evr := s.evs [(0x0022, noInst, 0)] } := by
  show execRefInRestored s = _
  unfold execRefInRestored
  dsimp only
  rw [if_pos (by simpa [present, late] using wanted), State.ev_withClk]
  rfl

theorem exec_xtalFail {s : State} (runs : s.clk.xtalOk = true) :
    exec .xtalFail s = .next { s with
      clk := { s.clk with xtalOk := false }
      evr := if s.clk.refSel = true then s.evs [(0x0024, noInst, 0)] else s.evr } := by
  show Host.Outcome.next s.xtalLost = _
  unfold State.xtalLost
  dsimp only
  rw [if_neg (by simp [runs])]
  split
  · rw [State.ev_withClk]
    rfl
  · rfl

theorem exec_xtalOkRestored {s : State} (runs : s.clk.xtalOk = true) (late : s.elapsed s.clk.xtalSince 500000 = true)
    (wanted : (s.clk.refHoldover = true ∧ s.clk.fallbackBlocked = true) ∨ (s.clk.refSel = false ∧ s.clk.refSrc = true)) :
    exec .xtalOkRestored s = .next { s with
      clk := { s.clk with refSrc := false, refHoldover := false, fallbackBlocked := false }
      evr := s.evs [(0x0021, noInst, 0)] } := by
  show execXtalOkRestored s = _
  unfold execXtalOkRestored
  dsimp only
  rw [if_pos (by simpa [runs, late] using wanted), State.toCrystal_eq]

/-! The loss of the root clock (R40, R304): a passage to ARMED that is abandoned with every ring OFF leaves the rings. -/

/-- What a passage to ARMED that is abandoned touches besides the rings. -/
def besideRings : List Blk :=
  [.sys, .afe, .pwm, .fce, .tlk, .net, .evr, .tx]

theorem State.ring_of_kept {s t : State} (h : Kept besideRings s t) (c : Fin 4) : t.ring c = s.ring c :=
  congrArg (fun x : Chn => x.ring[c.val]) (h.only .chn (by decide))

/-- An update that changes nothing of its ring. -/
theorem State.updRing_fixed {s : State} {c : Fin 4} {f : Ring → Ring} (h : f (s.ring c) = s.ring c) :
    s.updRing c f = s := by
  have entry : f s.chn.ring[c.val] = s.chn.ring[c.val] := h
  unfold State.updRing updV
  rw [entry, Vector.set_getElem_self]

theorem State.shipRings_none {s : State} (h : ∀ c, (s.ring c).state ≠ .shipping) : s.shipRings = s :=
  List.foldl_fixed' (fun c => if_neg (h c)) _

/-- No ring takes part in entry into SHIP_PREP, so none is changed (R323, R445). -/
theorem State.enterShip_ringsOff {s : State} (off : ∀ c, (s.ring c).state = .off) : Kept besideRings s s.enterShip := by
  unfold State.enterShip
  lift_lets
  intro _ begun passed left shipping synced
  have hbegun : Kept besideRings s begun := Kept.mk_iff.2 (Kept.of_sys .rfl (by decide))
  have hpassed : Kept besideRings s passed :=
    State.stopGroups_kept _ (by decide) (State.portsEnterSafe_kept _ (by decide) (State.failover_kept _ _ (by decide)
      (State.setState_kept _ _ (by decide) hbegun)))
  have hleft : Kept besideRings s left := State.unjoin_kept _ (by decide) hpassed
  have hshipping : shipping = left :=
    List.foldl_fixed' (fun c => State.updRing_fixed (by rw [State.ring_of_kept hleft, off]; rfl)) _
  have hsynced : Kept besideRings s synced :=
    State.engineSync_kept _ (by decide) (State.rotationShip_kept _ (by decide) (hshipping ▸ hleft))
  have hships : synced.shipRings = synced :=
    State.shipRings_none fun c => by rw [State.ring_of_kept hsynced, off]; decide
  rw [hships, ite_self]
  exact hsynced

theorem State.armCheck_ringsOff {s : State} (off : ∀ c, (s.ring c).state = .off) : Kept besideRings s s.armCheck := by
  unfold State.armCheck State.armAbandon
  lift_lets
  intro refused sys standing
  have hstanding : Kept besideRings s standing :=
    State.engineSync_kept _ (by decide) (Kept.mk_iff.2 (Kept.of_sys (State.refuseTarget_kept s _ (by decide) .rfl) (by decide)))
  have ships := State.enterShip_ringsOff (s := standing) fun c => by rw [State.ring_of_kept hstanding, off]
  exact .ite (.ite (hstanding.trans ships) hstanding) .rfl

theorem exec_rootUnlock {s : State} (runs : s.clk.fabricStopped = false) :
    Gives .rootUnlock s fun t =>
      t.clk = { s.clk with fabricStopped := true, rootLock := false } ∧ ∀ c : Fin 4, t.ring c = (s.ring c).unlock := by
  have unlocked (c : Fin 4) : (s.chn.ring.map Ring.unlock)[c.val] = (s.ring c).unlock := Vector.getElem_map ..
  refine ⟨_, congrArg Host.Outcome.next (if_neg (by simp [runs])), ?_⟩
  have kept := State.armCheck_ringsOff (s := { s with
    clk := { s.clk with fabricStopped := true, rootLock := false }
    chn := { s.chn with ring := s.chn.ring.map Ring.unlock } }) fun c => congrArg Ring.state (unlocked c)
  exact ⟨kept.only .clk (by decide), fun c => (State.ring_of_kept kept c).trans (unlocked c)⟩

/-! The return of the root clock (R40). -/

/-- A fold over the four of something, each step of which changes its own and leaves the others. -/
theorem foldl_each {β : Type} (π : State → Fin 4 → β) {f : State → Fin 4 → State} {g : β → β}
    (step : ∀ s i j, π (f s i) j = if i = j then g (π s j) else π s j) (s : State) (j : Fin 4) :
    π ((List.finRange 4).foldl f s) j = g (π s j) := by
  simp only [List.finRange_succ, List.finRange_zero, List.map_cons, List.map_nil, List.foldl_cons, List.foldl_nil, step]
  fin_cases j <;> simp

/-- A ring whose counts are kept starts to count again. -/
def Ring.relocked (r : Ring) : Ring :=
  if r.state = .off ∧ r.relock.isSome = true then { r.recount with state := .enumerating } else r

theorem State.ringRelock_ring (s : State) (c j : Fin 4) :
    (s.ringRelock c).ring j = if c = j then (s.ring j).relocked else s.ring j := by
  by_cases own : c = j
  · subst own
    rw [if_pos rfl, State.ringRelock, Ring.relocked]
    simp only [Bool.and_eq_true, decide_eq_true_eq]
    split
    · exact (s.updRing_ring c c _).trans (if_pos rfl)
    · rfl
  · rw [if_neg own, State.ringRelock]
    split
    · exact (s.updRing_ring c j _).trans (if_neg own)
    · rfl

theorem State.ringRelock_clk (s : State) (c : Fin 4) : (s.ringRelock c).clk = s.clk :=
  (State.ringRelock_kept s c (List.Subset.refl _) .rfl).only .clk (by decide)

theorem exec_rootRelock {s : State} (stands : s.clk.fabricStopped = true) :
    Gives .rootRelock s fun t =>
      t.clk = { s.clk with fabricStopped := false, rootLock := true, unlockCount := bump 8 s.clk.unlockCount } ∧
      ∀ c : Fin 4, t.ring c = (s.ring c).relocked :=
  ⟨_, congrArg Host.Outcome.next (if_neg (by simp [stands])),
    foldl_same State.clk State.ringRelock_clk _ _, foldl_each State.ring State.ringRelock_ring _⟩

/-- Settles O2: the equations of the commands on the reference and the crystal, and what the loss and the return of the root
clock make of the rings. -/
theorem referenceAndRootClock : Obligations.ReferenceAndRootClock := by
  refine ⟨fun _ => exec_refInLost, fun _ => exec_refFallback, fun _ => exec_refInRestored, fun _ => exec_xtalFail,
    fun _ => exec_xtalOkRestored, fun s runs => ?unlock, fun _ => exec_rootRelock⟩
  obtain ⟨t, next, clk, rings⟩ := exec_rootUnlock runs
  refine ⟨t, next, clk, fun c => (rings c).trans ?_⟩
  simp only [Ring.unlock, Bool.or_eq_true, decide_eq_true_eq]

end Sys2Proof.Machine
end

section
/-! SUPPORT. The service connector (R46, R47, R446, R480). -/

namespace Sys2Proof.Machine

/-! Every group held off (R44, R46). -/

/-- A group that is switched off changes nothing of SYS but the driver enables. -/
theorem State.groupOff_sys (s : State) (g : Fin 4) :
    ∃ gdrv, (s.groupOff g).sys = { s.sys with gdrvEn := gdrv } := by
  unfold State.groupOff
  lift_lets
  intro gr a b halted
  have ha : Kept [.pwm, .evr] s a := .ite (State.ev_kept _ _ _ _ (by decide) .rfl) .rfl
  have hb : Kept [.pwm, .evr] s b := .ite ha (State.ev_kept _ _ _ _ (by decide) ha)
  have hhalted : Kept [.pwm, .evr] s halted := .foldl hb fun t p => State.haltPh_kept t p (by decide) .rfl
  have kept : Kept [.pwm, .evr] s ((halted.dropDe g).updGrp g Group.turnOff) :=
    State.updGrp_kept _ _ _ (by decide) (State.dropDe_kept _ _ (by decide) hhalted)
  have sys : ((halted.dropDe g).updGrp g Group.turnOff).sys = s.sys := kept.only .sys (by decide)
  exact ⟨_, by rw [← sys]; rfl⟩

theorem State.groupsOff_sys (s : State) : s.groupsOff.sys = { s.sys with gdrvEn := Vector.replicate 4 false } :=
  foldl_same (fun t : State => ({ t.sys with gdrvEn := Vector.replicate 4 false } : Sys)) (fun t g => by
    obtain ⟨gdrv, h⟩ := t.groupOff_sys g
    rw [h]) (List.finRange 4) s

/-- With no reset, no coolant shutdown and no ship mode waiting for it, nothing follows when the groups reach OFF. -/
theorem State.afterOff_idle {s : State} (noReset : s.sec.resetReq = none) (noCoolant : s.prot.coolShutdown = false)
    (notShip : s.sys.state ≠ .shipPrep) : s.afterOff = s := by
  simp [State.afterOff, noReset, noCoolant, notShip]

/-- What holds GDRV_EN low leaves nothing else of SYS, and every group OFF. -/
theorem State.holdOff_idle {s : State} (noReset : s.sec.resetReq = none) (noCoolant : s.prot.coolShutdown = false)
    (notShip : s.sys.state ≠ .shipPrep) :
    s.holdOff.sys = { s.sys with gdrvEn := Vector.replicate 4 false } ∧ ∀ g, (s.holdOff.grp g).state = .off := by
  unfold State.holdOff
  split
  · next all =>
      have off : ∀ g, (s.grp g).state = .off := by simpa [State.allOff] using all
      exact ⟨rfl, off⟩
  · have kept : Kept [.sys, .pwm, .evr] s s.groupsOff := State.groupsOff_kept s (List.Subset.refl _) .rfl
    have idle : s.groupsOff.afterOff = s.groupsOff := by
      refine State.afterOff_idle ?_ ?_ ?_
      · rw [show s.groupsOff.sec = s.sec from kept.only .sec (by decide), noReset]
      · rw [show s.groupsOff.prot = s.prot from kept.only .prot (by decide), noCoolant]
      · rw [s.groupsOff_sys]
        exact notShip
    rw [idle]
    exact ⟨s.groupsOff_sys, s.groupsOff_state⟩

/-! The TAP (R46, R446). -/

/-- No driver enable rises with an instruction where none is held low before it, or where the instruction holds them low. -/
theorem State.setTap_eq {s : State} {i : Sys2Proof.TapInstr} (h : s.gdrvHeld = false ∨ i = .extest ∨ i = .clamp) :
    s.setTap i = { s with sys := { s.sys with tap := i } } := by
  unfold State.setTap
  refine if_neg ?_
  rcases h with h | rfl | rfl
  · simp [h]
  · simp [State.gdrvHeld]
  · simp [State.gdrvHeld]

theorem exec_jtag_idcode {s : State} (free : s.gdrvHeld = false) :
    Gives (.jtagInstruction .idcode) s fun t => t.sys = { s.sys with tap := .idcode } ∧
      ∃ m : Fin 2048, t.tx = .tdo (s.sys.step % 16 * 2 ^ 28 + 0x475A * 2 ^ 12 + m.val * 2 + 1) :: s.tx := by
  refine ⟨_, rfl, ?_⟩
  rw [State.setTap_eq (.inl free)]
  exact ⟨rfl, ⟨Config.freeNat s.fv % 2048, Nat.mod_lt _ (by decide)⟩, rfl⟩

/-- EXTEST and CLAMP are loaded in a powered BOOT or STANDBY, and elsewhere load BYPASS. -/
theorem exec_jtag_boundary {s : State} {i : Sys2Proof.TapInstr} (h : i = .extest ∨ i = .clamp) :
    exec (.jtagInstruction i) s = if s.power.powered && s.inState [.boot, .standby]
      then .next (((s.setTap i).holdOff).ev 0x0031) else .next (s.setTap .bypass) := by
  rcases h with rfl | rfl
  · rfl
  · rfl

theorem exec_jtag_loaded {s : State} {i : Sys2Proof.TapInstr} (boundary : i = .extest ∨ i = .clamp)
    (powered : s.power.powered = true) (early : s.sys.state = .boot ∨ s.sys.state = .standby)
    (noReset : s.sec.resetReq = none) (noCoolant : s.prot.coolShutdown = false) :
    Gives (.jtagInstruction i) s fun t => t.sys.tap = i ∧ t.sys.state = s.sys.state ∧ (∃ u : State, t = u.ev 0x0031) ∧
      ∀ g : Fin 4, t.sys.gdrvEn[g.val] = false ∧ (t.grp g).state = .off := by
  have notShip : s.sys.state ≠ .shipPrep := by rcases early with h | h <;> simp [h]
  refine ⟨_, (exec_jtag_boundary boundary).trans (if_pos (by simpa [powered, State.inState] using early)), ?_⟩
  rw [State.setTap_eq (.inr boundary)]
  obtain ⟨sys, off⟩ :=
    State.holdOff_idle (s := { s with sys := { s.sys with tap := i } }) noReset noCoolant notShip
  refine ⟨?_, ?_, ⟨_, rfl⟩, fun g => ⟨?_, ?_⟩⟩
  · rw [State.ev_sys, sys]
  · rw [State.ev_sys, sys]
  · simp [sys]
  · rw [State.ev_grp, off]

theorem exec_jtag_barred {s : State} {i : Sys2Proof.TapInstr} (boundary : i = .extest ∨ i = .clamp)
    (free : s.gdrvHeld = false) (barred : s.power.powered = false ∨ s.sys.state = .armed ∨ s.sys.state = .run ∨
      s.sys.state = .basalt ∨ s.sys.state = .shipPrep) :
    exec (.jtagInstruction i) s = .next { s with sys := { s.sys with tap := .bypass } } := by
  have refused : ¬ (s.power.powered && s.inState [.boot, .standby]) = true := by
    rcases barred with h | h | h | h | h <;> simp [State.inState, h]
  rw [exec_jtag_boundary boundary, if_neg refused, State.setTap_eq (.inl free)]

/-- A debug instruction in DEPLOYED or SCRAPPED loads BYPASS (R446). -/
theorem exec_jtag_debug {s : State} (free : s.gdrvHeld = false) (closed : s.sec.lifecycle = 2 ∨ s.sec.lifecycle = 4) :
    exec (.jtagInstruction .debug) s = .next { s with
      sys := { s.sys with tap := .bypass }, evr := s.evs [(0x1041, noInst, 0)] } := by
  have shut : ¬ s.debugOpen = true := by rcases closed with h | h <;> simp [State.debugOpen, h]
  refine (if_neg shut).trans (congrArg Host.Outcome.next ?_)
  rw [State.setTap_eq (.inl free)]
  exact State.ev_of (s := s) (t := { s with sys := { s.sys with tap := .bypass } }) ⟨rfl, rfl, rfl, rfl, rfl⟩ _ _ _

/-! The console and the service port (R47, R480). -/

theorem exec_svcUartQuery {s : State} (powered : s.power.powered = true) :
    Gives .svcUartQuery s fun t => s.only [.tx, .fv] t ∧ ∃ text : Nat, t.tx = .console text :: s.tx := by
  have next : exec .svcUartQuery s = .next (s.used.send (.console (Config.freeNat s.fv))) :=
    congrArg Host.Outcome.next (if_pos powered)
  exact ⟨_, next, ((exec_keeps .svcUartQuery s).kept _ next).only, _, rfl⟩

theorem exec_svcSpiRead (a : BitVec 32) (n : Nat) (s : State) : Gives (.svcSpiRead a n) s fun t =>
    t.tx = .spi ((List.range n).map fun i => s.mramByte ((a.toNat + i) % 67108864)) :: s.tx ∧ s.only [.tx, .fv] t :=
  ⟨_, rfl, rfl, ((exec_keeps (.svcSpiRead a n) s).kept _ rfl).only⟩

/-- The three bits of the status byte, each where R480 has it. -/
theorem statusByte_bits (writer powered directory : Bool) :
    let b := BitVec.ofNat 8 (bitAt writer 0 + bitAt powered 1 + bitAt directory 2)
    tb b.toNat 0 = writer ∧ tb b.toNat 1 = powered ∧ b.toNat < 8 := by
  revert writer powered directory
  decide

/-- Settles O4: the equations of the TAP's instructions, with every group held off where EXTEST or CLAMP is loaded, and those
of the console and the service port. -/
theorem serviceConnectorAndPort : Obligations.ServiceConnectorAndPort := by
  refine ⟨fun s free => ⟨?bypass, ?preload⟩, fun _ => exec_jtag_idcode, fun _ _ => exec_jtag_loaded,
    fun _ _ => exec_jtag_barred, fun _ => exec_jtag_debug, fun _ => exec_svcUartQuery, exec_svcSpiRead, fun _ => rfl,
    fun _ _ _ => rfl, fun _ => ⟨_, rfl, _, rfl, statusByte_bits _ _ _⟩⟩
  case bypass => exact congrArg Host.Outcome.next (State.setTap_eq (.inl free))
  case preload => exact congrArg Host.Outcome.next (State.setTap_eq (.inl free))

end Sys2Proof.Machine
end

section
/-! SUPPORT. The planner's cycle (R73, R345, R347, R349, R351, R357). -/

namespace Sys2Proof.Machine

/-! The strings' energies (R347). -/

/-- What a healthy string holds at its planning SOC (R345, R347). -/
def State.stringE (s : State) (i : Fin 4) : Int :=
  if (s.estr i).healthy = true then s.energyTo i (s.socPlan i) else 0

/-- The charge of each string: its SOC and its band (R333). -/
def State.charges (s : State) (i : Fin 4) : Int × Int := ((s.estr i).soc, (s.estr i).band)

/-- A string takes over its energy. -/
def State.priceStr (s : State) (i : Fin 4) : State := s.updStr i fun x =>
  { x with e := if x.healthy then s.energyTo i (s.socPlan i) else 0 }

theorem State.priceStr_estr (s : State) (i j : Fin 4) :
    (s.priceStr i).estr j = { s.estr j with e := if i = j then s.stringE i else (s.estr j).e } := by
  rw [State.priceStr, State.updStr_estr]
  by_cases own : i = j
  · subst own
    rw [if_pos rfl, if_pos rfl, State.stringE]
  · rw [if_neg own, if_neg own]

theorem State.priceStr_charges (s : State) (i : Fin 4) : (s.priceStr i).charges = s.charges := by
  funext j
  simp only [State.charges, State.priceStr_estr]

theorem State.priceStr_healthyStrs (s : State) (i : Fin 4) : (s.priceStr i).healthyStrs = s.healthyStrs := by
  simp only [State.healthyStrs, State.priceStr_estr]
  rfl

/-- The energy of a string is no part of what it is computed from. -/
theorem State.priceStr_stringE (s : State) (i : Fin 4) : (s.priceStr i).stringE = s.stringE := by
  funext j
  simp only [State.stringE, State.socPlan, State.priceStr_estr]
  rfl

/-- The strings of a list take over their energies one after the other. -/
def State.priceStrs (s : State) (l : List (Fin 4)) : State := l.foldl State.priceStr s

theorem State.priceStrs_eq (s : State) (l : List (Fin 4)) :
    s.priceStrs l = { s with est := { s.est with str := (s.priceStrs l).est.str } } := by
  induction l generalizing s with
  | nil => rfl
  | cons i l ih => exact ih (s.priceStr i)

theorem State.priceStrs_e_of_notMem {l : List (Fin 4)} {j : Fin 4} (h : j ∉ l) (s : State) :
    ((s.priceStrs l).estr j).e = (s.estr j).e := by
  induction l generalizing s with
  | nil => rfl
  | cons i l ih =>
    obtain ⟨hi, hl⟩ : j ≠ i ∧ j ∉ l := by simpa using h
    refine (ih hl (s.priceStr i)).trans ?_
    rw [State.priceStr_estr, if_neg hi.symm]

theorem State.priceStrs_e_of_mem {l : List (Fin 4)} {j : Fin 4} (h : j ∈ l) (s : State) :
    ((s.priceStrs l).estr j).e = s.stringE j := by
  induction l generalizing s with
  | nil => exact absurd h List.not_mem_nil
  | cons i l ih =>
    by_cases hl : j ∈ l
    · exact (ih hl (s.priceStr i)).trans (congrFun (s.priceStr_stringE i) j)
    · obtain rfl : j = i := (List.mem_cons.1 h).resolve_right hl
      refine (State.priceStrs_e_of_notMem hl (s.priceStr j)).trans ?_
      rw [State.priceStr_estr, if_pos rfl]

/-- The energies of the healthy strings, each taken over before (R347). -/
theorem State.priceStrs_healthy (s : State) :
    (s.priceStrs s.strings).healthyStrs.map (fun i => ((s.priceStrs s.strings).estr i).e) =
      s.healthyStrs.map fun i => s.energyTo i (s.socPlan i) := by
  have healthy : (s.priceStrs s.strings).healthyStrs = s.healthyStrs :=
    foldl_same State.healthyStrs State.priceStr_healthyStrs _ _
  rw [healthy]
  refine List.map_congr_left fun i hi => ?_
  obtain ⟨mem, ok⟩ := List.mem_filter.1 hi
  rw [State.priceStrs_e_of_mem mem, State.stringE, if_pos ok]

/-- An event that occurs under a condition leaves the estimator as it is. -/
theorem State.evIf_est (s : State) (c : Prop) [Decidable c] (code inst data : Nat) :
    (if c then s.ev code inst data else s).est = s.est := by
  split
  · exact State.ev_est ..
  · rfl

/-! The parts of a cycle in RUN (R347, R349, R357). -/

/-- The estimator once the strings' energies are summed and compared with the reserve (R347). -/
def State.sumEnergies (s : State) : Est :=
  let ePlan := (s.healthyStrs.map fun i => (s.estr i).e).sum
  { s.est with ePlan := ePlan, eRes := s.est.seconds * s.ratedW, reserveLow := decide (ePlan ≤ s.est.seconds * s.ratedW) }

theorem State.planEnergy_est (s : State) : s.planEnergy.est =
    { s.est with
      str := (s.priceStrs s.strings).est.str
      ePlan := (s.healthyStrs.map fun i => s.energyTo i (s.socPlan i)).sum
      eRes := s.est.seconds * s.ratedW
      reserveLow :=
        decide ((s.healthyStrs.map fun i => s.energyTo i (s.socPlan i)).sum ≤ s.est.seconds * s.ratedW) } := by
  have summed : s.planEnergy.est = (s.priceStrs s.strings).sumEnergies := State.evIf_est _ _ _ _ _
  have eq := s.priceStrs_eq s.strings
  rw [summed, State.sumEnergies, s.priceStrs_healthy]
  generalize s.priceStrs s.strings = t at eq
  rw [eq]
  rfl

/-- The limit of the grid target, and the target before it is bounded (R349). -/
def State.gridMax (s : State) : Int := min (s.psuCap : Int) ((s.est.gridAllow.map Int.ofNat).getD s.psuCap)
def State.gridBase (s : State) : Int :=
  meanHE (s.est.loadHist.map Prod.snd) +
    divHE ((s.healthyStrs.map fun i => s.energyTo i ((s.res16 0x12 6000 : Nat) * 2 ^ 32)).sum - s.est.ePlan) (s.res16 0x14 300)

theorem State.planGrid_est (s : State) : s.planGrid.est =
    { s.est with
      loadAvg := meanHE (s.est.loadHist.map Prod.snd)
      gridLimit := s.gridMax
      gridReq := clampI 0 s.psuCap s.gridBase
      gridTarget := clampI 0 s.gridMax s.gridBase
      gridLimited := decide (clampI 0 s.gridMax s.gridBase = s.gridMax) } :=
  State.evIf_est _ _ _ _ _

/-! What a cycle has computed so far, and the strings' charges, which no part of it changes. -/

/-- The count, the ramp in force, the energies and the grid target of a cycle. -/
def Est.plan (e : Est) : (Nat × Nat × Nat × Nat) × (Int × Int × Bool) × (Int × Int × Bool) :=
  ((e.cycles, e.rampNow, e.amaxNow, e.jmaxNow), (e.ePlan, e.eRes, e.reserveLow),
    (e.gridLimit, e.gridTarget, e.gridLimited))

/-- The plan and the charges are the same in two states. -/
structure State.SamePlan (s t : State) : Prop where
  plan : t.est.plan = s.est.plan
  charges : t.charges = s.charges

theorem State.SamePlan.rfl {s : State} : s.SamePlan s := ⟨Eq.refl _, Eq.refl _⟩

theorem State.SamePlan.trans {s t u : State} (h : s.SamePlan t) (k : t.SamePlan u) : s.SamePlan u :=
  ⟨k.plan.trans h.plan, k.charges.trans h.charges⟩

theorem State.SamePlan.ite {s t u : State} {c : Prop} [Decidable c] (h : s.SamePlan t) (k : s.SamePlan u) :
    s.SamePlan (if c then t else u) := by
  split <;> assumption

/-- An operation that leaves the estimator alone. -/
theorem State.SamePlan.off {s t u : State} (h : s.SamePlan t) (k : u.est = t.est) : s.SamePlan u :=
  h.trans ⟨congrArg Est.plan k, by funext i; rw [State.charges, State.charges, State.estr, k]; exact Eq.refl _⟩

theorem State.SamePlan.ev {s t : State} (h : s.SamePlan t) (code inst data : Nat) : s.SamePlan (t.ev code inst data) :=
  h.off (State.ev_est ..)

/-- An update of other fields of the estimator. -/
theorem State.SamePlan.est {s t u : State} (h : s.SamePlan t) (str : u.est.str = t.est.str)
    (plan : u.est.plan = t.est.plan := by unfold Est.plan; rfl) : s.SamePlan u :=
  h.trans ⟨plan, by funext i; rw [State.charges, State.charges, State.estr, str]; exact Eq.refl _⟩

/-- An update of a string other than of its charge. -/
theorem State.SamePlan.updStr {s t : State} (h : s.SamePlan t) (i : Fin 4) {f : Str → Str}
    (hf : ∀ x, ((f x).soc, (f x).band) = (x.soc, x.band)) : s.SamePlan (t.updStr i f) := by
  refine h.trans ⟨Eq.refl _, ?_⟩
  funext j
  rw [State.charges, State.updStr_estr]
  split
  · exact hf _
  · exact Eq.refl _

theorem State.SamePlan.foldl {α : Type} {f : State → α → State} {as : List α} {s t : State} (h : s.SamePlan t)
    (hf : ∀ (u : State) a, u.SamePlan (f u a)) : s.SamePlan (as.foldl f t) := by
  induction as generalizing t with
  | nil => exact h
  | cons a as ih => exact ih (h.trans (hf _ _))

theorem State.SamePlan.recompute {s t : State} (h : s.SamePlan t) (atShare : Bool) : s.SamePlan (t.recompute atShare) :=
  h.off ((State.recompute_kept t atShare (List.Subset.refl _) .rfl).only .est (by decide))

theorem State.planCap_samePlan (s : State) : s.SamePlan s.planCap := by
  unfold State.planCap
  extract_lets
  split
  · refine .recompute (.ev ?_ _ _ _) _
    exact .est .rfl rfl
  · refine .recompute ?_ _
    exact .est .rfl rfl

theorem State.planOverload_samePlan (s : State) : s.SamePlan s.planOverload := by
  unfold State.planOverload
  extract_lets e p d t noted enter _ _ entered
  have notedPlan : s.SamePlan noted := .est .rfl rfl
  have enteredPlan : s.SamePlan entered := by
    refine .ite (.ev ?_ _ _ _) notedPlan
    exact notedPlan.est rfl
  exact .ite (enteredPlan.trans (State.planCap_samePlan _)) enteredPlan

theorem State.planRamp_samePlan (s : State) : s.SamePlan s.planRamp := by
  have h : ∀ on : Bool, s.SamePlan { s with est := { s.est with rampLimited := on } } := fun _ => .est .rfl rfl
  exact .ite ((h _).ev _ _ _) (h _)

theorem State.abortRests_samePlan (s : State) : s.SamePlan s.abortRests := by
  refine .foldl .rfl fun t i => .ite (.ev (.updStr .rfl i ?_) _ _ _) .rfl
  exact fun _ => rfl

theorem State.planMargin_samePlan (s : State) : s.SamePlan s.planMargin := .ite s.abortRests_samePlan .rfl

theorem State.restTry_samePlan (s : State) : s.SamePlan s.restTry := by
  unfold State.restTry
  split
  · exact .rfl
  next i _ =>
    extract_lets _ tried resting _ _ _ blocked
    have triedPlan : s.SamePlan tried := .est .rfl rfl
    have restingPlan : s.SamePlan resting := .updStr triedPlan i fun _ => rfl
    have blockedPlan : s.SamePlan blocked := triedPlan.est rfl
    refine .ite .rfl (.ite (.ev ?_ _ _ _) (.ite blockedPlan (blockedPlan.ev _ _ _)))
    exact restingPlan.est rfl

theorem State.rotation_samePlan (s : State) : s.SamePlan s.rotation := by
  unfold State.rotation
  extract_lets e turned
  have slot (n : Nat) (p : Bool) : s.SamePlan { s with est := { e with restDueAt := n, postponed := p } } :=
    .est .rfl rfl
  have turnedPlan : s.SamePlan turned :=
    .ite (slot _ _) (.ite (slot _ _) (.ite ((slot _ _).trans (State.restTry_samePlan _))
      (.ite s.restTry_samePlan .rfl)))
  exact turnedPlan.est rfl

/-! The whole cycle. -/

/-- The coolant below its critical value changes PROT only (R404). -/
theorem State.coolantCheck_below {s : State}
    (h : s.prot.coolN = 0 ∨ s.param 0x0013 0 = 0 ∨ divHE s.prot.coolSum s.prot.coolN < s.limit 10) :
    ∃ p, s.coolantCheck = { s with prot := p } := by
  unfold State.coolantCheck
  extract_lets p t v _ u
  by_cases unjudged : (decide (p.coolN = 0) || decide (s.param 0x0013 0 = 0)) = true
  · exact ⟨_, if_pos unjudged⟩
  · have judged : ¬ (s.prot.coolN = 0 ∨ s.param 0x0013 0 = 0) := by simpa using unjudged
    have cold : ¬ u.prot.coolHot = true := by
      have below : v < s.limit 10 := (or_assoc.2 h).resolve_left judged
      exact fun hot => absurd (of_decide_eq_true hot) (not_le.2 below)
    exact ⟨_, (if_neg unjudged).trans (if_neg cold)⟩

/-- The cycle noted, with PROT as the check of the coolant leaves it. -/
def State.planNoted (s : State) (p : Prot) : State :=
  { s with est := { s.est with planTick := some s.sys.tick }, prot := p }

theorem State.planner_below {s : State}
    (h : s.prot.coolN = 0 ∨ s.param 0x0013 0 = 0 ∨ divHE s.prot.coolSum s.prot.coolN < s.limit 10) :
    ∃ p, s.planner = let t := (s.planNoted p).planWindows
      if s.sys.state = .run then
        (((((t.planCount.planEnergy).planGrid).planOverload).planRamp).planMargin).rotation
      else t := by
  obtain ⟨p, checked⟩ :=
    State.coolantCheck_below (s := { s with est := { s.est with planTick := some s.sys.tick } }) h
  refine ⟨p, ?_⟩
  have state : (s.planNoted p).planWindows.sys.state = s.sys.state := by
    unfold State.planWindows
    extract_lets
    split <;> rfl
  unfold State.planner
  rw [checked]
  show (if ((s.planNoted p).planWindows.sys.state != .run) = true then _ else _) = _
  rw [state]
  by_cases run : s.sys.state = .run
  · rw [if_pos run, if_neg (by simp [run])]
    rfl
  · rw [if_neg run, if_pos (by simp [run])]
    rfl

/-- What the planner of a cycle reads is as before once the windows go on, and the cycle is counted (R347, R357). -/
structure State.PlanStarts (s t : State) : Prop where
  healthy : t.healthyStrs = s.healthyStrs
  energyTo : t.energyTo = s.energyTo
  socPlan : t.socPlan = s.socPlan
  reserve : t.est.seconds * t.ratedW = s.est.seconds * s.ratedW
  gridMax : t.gridMax = s.gridMax
  counted : (t.est.cycles, t.est.rampNow, t.est.amaxNow, t.est.jmaxNow) =
    (s.est.cycles + 1, s.est.ramp, s.est.amax, s.est.jmax)
  charges : t.charges = s.charges

theorem State.planStarts (s : State) (p : Prot) : s.PlanStarts (s.planNoted p).planWindows.planCount := by
  unfold State.planWindows
  extract_lets
  split
  · exact ⟨rfl, rfl, rfl, rfl, rfl, rfl, rfl⟩
  · exact ⟨rfl, rfl, rfl, rfl, rfl, rfl, rfl⟩

theorem State.psuCap_congr {s t : State} (cfg : t.cfg = s.cfg) (pwm : t.pwm = s.pwm) : t.psuCap = s.psuCap := by
  simp only [State.psuCap, State.inServicePorts, State.psuPort, State.psuRating, State.rec8, State.recs,
    cfg, pwm]

theorem State.planEnergy_gridMax (s : State) : s.planEnergy.gridMax = s.gridMax := by
  have kept := (State.planEnergy_kept s (List.Subset.refl _) .rfl).only
  rw [State.gridMax, State.psuCap_congr (kept .cfg (by decide)) (kept .pwm (by decide)), State.planEnergy_est]
  rfl

/-- The plan of a cycle in RUN (R347, R349, R357), read off the state in which it starts. -/
theorem State.planGrid_plan {s t : State} (h : s.PlanStarts t) :
    t.planEnergy.planGrid.est.plan =
      let ePlan := (s.healthyStrs.map fun i => s.energyTo i (s.socPlan i)).sum
      let eRes := s.est.seconds * s.ratedW
      let target := clampI 0 s.gridMax t.planEnergy.gridBase
      ((s.est.cycles + 1, s.est.ramp, s.est.amax, s.est.jmax), (ePlan, eRes, decide (ePlan ≤ eRes)),
        (s.gridMax, target, decide (target = s.gridMax))) := by
  rw [State.planGrid_est, State.planEnergy_gridMax, State.planEnergy_est, h.healthy, h.energyTo, h.socPlan, h.reserve,
    h.gridMax, ← h.counted]
  rfl

theorem State.planGrid_charges (s : State) : s.planEnergy.planGrid.charges = s.charges := by
  have priced : (s.priceStrs s.strings).charges = s.charges := foldl_same State.charges State.priceStr_charges _ _
  rw [← priced]
  funext i
  rw [State.charges, State.charges, State.estr, State.planGrid_est, State.planEnergy_est]
  rfl

/-- A cycle in RUN with the coolant below its critical value (R345, R347, R349). -/
theorem State.planner_run {s : State} (run : s.sys.state = .run)
    (h : s.prot.coolN = 0 ∨ s.param 0x0013 0 = 0 ∨ divHE s.prot.coolSum s.prot.coolN < s.limit 10) :
    s.planner.charges = s.charges ∧ ∃ base, s.planner.est.plan =
      let ePlan := (s.healthyStrs.map fun i => s.energyTo i (s.socPlan i)).sum
      let eRes := s.est.seconds * s.ratedW
      let target := clampI 0 s.gridMax base
      ((s.est.cycles + 1, s.est.ramp, s.est.amax, s.est.jmax), (ePlan, eRes, decide (ePlan ≤ eRes)),
        (s.gridMax, target, decide (target = s.gridMax))) := by
  obtain ⟨p, cycle⟩ := State.planner_below h
  rw [cycle]
  simp only [run, if_true]
  have starts := s.planStarts p
  generalize (s.planNoted p).planWindows.planCount = t at starts
  have rest : t.planEnergy.planGrid.SamePlan t.planEnergy.planGrid.planOverload.planRamp.planMargin.rotation :=
    ((((State.planOverload_samePlan _).trans (State.planRamp_samePlan _)).trans (State.planMargin_samePlan _))).trans
      (State.rotation_samePlan _)
  exact ⟨rest.charges.trans (t.planGrid_charges.trans starts.charges), _, rest.plan.trans (State.planGrid_plan starts)⟩

/-- A cycle outside RUN with the coolant below its critical value: the windows go on, and nothing else of the estimator. -/
theorem State.planner_notRun {s : State} (run : s.sys.state ≠ .run)
    (h : s.prot.coolN = 0 ∨ s.param 0x0013 0 = 0 ∨ divHE s.prot.coolSum s.prot.coolN < s.limit 10) :
    ∃ p, s.planner = (s.planNoted p).planWindows := by
  obtain ⟨p, cycle⟩ := State.planner_below h
  exact ⟨p, by rw [cycle]; exact if_neg run⟩

/-- PLANNER_CYCLE, by what it tests (R73). -/
theorem exec_plannerCycle_due {s : State} (defers : Bool) (lit : s.lit = true) (due : s.due 50000 s.est.planTick = true) :
    exec (.plannerCycle defers) s = .next (
      if defers = true ∧ s.planner.net.telDisplaced = false then
        ({ s.planner with net := { s.planner.net with telDisplaced := true } }).displace 6 0 2 4
      else s.planner) := by
  refine congrArg Host.Outcome.next ((if_neg (by simp [lit, due])).trans ?_)
  simp only [Bool.and_eq_true, Bool.not_eq_true']

theorem exec_plannerCycle_idle {s : State} (defers : Bool) (h : s.lit = false ∨ s.due 50000 s.est.planTick = false) :
    exec (.plannerCycle defers) s = .next s :=
  congrArg Host.Outcome.next (if_pos (by simpa using h))

/-- Settles O26: the plan of a cycle is read off where it is computed, and the rest of the cycle keeps it (`SamePlan`). -/
theorem plannerCycle : Obligations.PlannerCycle := by
  refine ⟨fun defers _ => exec_plannerCycle_due defers, fun defers _ => exec_plannerCycle_idle defers,
    fun s run below => ?run, fun s run below => ?notRun, fun s counted => if_neg counted⟩
  case run =>
    obtain ⟨charges, base, plan⟩ := State.planner_run run below
    simp only [Est.plan, Prod.mk.injEq] at plan
    obtain ⟨⟨cycles, ramp, amax, jmax⟩, ⟨ePlan, eRes, low⟩, limit, target, limited⟩ := plan
    refine ⟨ePlan, eRes, by rw [low, ePlan, eRes], limit, by rw [limited, target, limit], cycles, ramp, amax, jmax,
      fun i => Prod.mk.inj (congrFun charges i)⟩
  case notRun =>
    obtain ⟨p, windows⟩ := State.planner_notRun run below
    rw [windows]
    unfold State.planWindows
    extract_lets
    split
    · exact ⟨rfl, rfl, rfl, rfl, rfl, rfl, rfl, rfl⟩
    · exact ⟨rfl, rfl, rfl, rfl, rfl, rfl, rfl, rfl⟩

end Sys2Proof.Machine
end

section
/-! SUPPORT. A bit-stream made active in BOOT (R86, R441, R450). -/

namespace Sys2Proof.Machine

/-- A module in BOOT with a passage to ARMED in progress, string 0 isolated, and TARGET SHIP_PREP. -/
def bootPassageToShip : State :=
  { State.reset with
    sys := { State.reset.sys with state := .boot, passage := .toArmed, target := 6 }
    prot := { State.reset.prot with str := updV State.reset.prot.str 0 fun x => { x with isolated := true } } }

/-- A FULL bit-stream with a CHAIN section, which holds no record. -/
def chainImage : Image :=
  { full := true, store := false, raiseRollback := false, rollback := 0, digest := [], raw := []
    sections := [{ type := 7, index := 0, recs := [] }] }

/-- The CHAIN section abandons the passage in STANDBY, TARGET takes effect at once, and the module is no longer in BOOT when
the swap would lead it to STANDBY (R303, R450; log entry 133). -/
theorem bootPassageToShip_applyImage : (bootPassageToShip.applyImage chainImage 0).sys.state = .shipPrep := by
  decide +kernel

theorem bootPassageToShip_applySlot : (bootPassageToShip.applySlot chainImage).sys.state = .shipPrep := by
  decide +kernel

/-- Refutes O32: in BOOT a swap does not lead to STANDBY where a passage to ARMED is in progress with TARGET SHIP_PREP, of
which the statement assumes nothing: a CHAIN section abandons that passage, and the module enters SHIP_PREP. The state is one
that the statement admits, not one that a run is shown to reach: a passage to ARMED begins in STANDBY. -/
theorem not_bitStreamsAreSwapped : ¬ Obligations.BitStreamsAreSwapped := by
  unfold Obligations.BitStreamsAreSwapped
  rintro ⟨-, -, -, -, -, -, -, -, -, -, -, -, -, -, -, -, leavesBoot⟩
  obtain ⟨standby, -⟩ := leavesBoot chainImage 0 bootPassageToShip rfl
  rw [bootPassageToShip_applyImage] at standby
  exact absurd standby (by decide)

/-- Refutes O33: a stored bit-stream made active in BOOT need not lead to STANDBY, by the same state as for O32. -/
theorem not_storedConfigurations : ¬ Obligations.StoredConfigurations := by
  unfold Obligations.StoredConfigurations
  rintro ⟨-, -, -, -, slotActive, -⟩
  obtain ⟨-, -, -, -, -, -, leavesBoot⟩ := slotActive chainImage bootPassageToShip
  have standby := leavesBoot rfl
  rw [bootPassageToShip_applySlot] at standby
  exact absurd standby (by decide)

end Sys2Proof.Machine
end

section
/-! SUPPORT. Subscriptions, fetches, pushes and attestation (R79, R377, R380 to R382, R397, R437, R439, R448). -/

namespace Sys2Proof.Machine

/-! What a message does where it is carried out, and how a datagram leaves. -/

/-- Two readings of what a message does. -/
theorem State.serve_congr {f g : State → State} (same : ∀ t, f t = g t) (s : State) (h : Sys2Proof.MsgHdr) (q : Fin 16)
    (ty : Nat) (role : Role) (body : List Byte) :
    Host.Outcome.next (s.serve h q ty role body f) = (.next (s.serve h q ty role body g) : Host.Outcome State Fault Refusal) := by
  rw [funext same]

/-- Two changes of one session make one. -/
theorem State.updSess_twice (s : State) (n : Fin 64) (f g : Sess → Sess) :
    (s.updSess n f).updSess n g = s.updSess n fun x => g (f x) := by
  have entries : updV (updV s.net.sess n f) n g = updV s.net.sess n fun x => g (f x) := by
    ext i hi
    simp only [updV_get]
    split <;> rfl
  exact congrArg (fun v => { s with net := { s.net with sess := v } }) entries

/-- A datagram to an open session whose SEQ has not run out leaves under the next SEQ (R371, R374). -/
theorem State.sendTo_open {s : State} {n : Fin 64} (isOpen : (s.sess n).isOpen = true)
    (seq : (s.sess n).txSeq + 2 < 2 ^ 63) (ty reqId status flags : Nat) (body : List Byte) :
    s.sendTo n ty reqId status flags body =
      (s.updSess n fun y => { y with txSeq := y.txSeq + 1 }).send (s.message n ty status flags reqId body) := by
  unfold State.sendTo
  extract_lets q m t
  have left : ¬ 2 ^ 63 ≤ (t.sess n).txSeq := by
    have bumped : (t.sess n).txSeq = (s.sess n).txSeq + 1 :=
      congrArg Sess.txSeq ((s.updSess_sess n n _).trans (if_pos rfl))
    omega
  rw [if_neg (by simp [isOpen]), if_neg left]
  rfl

/-- The same after a change of that session that leaves its key and its SEQ. -/
theorem State.sendTo_updSess {s : State} {n : Fin 64} {f : Sess → Sess}
    (keeps : ∀ y, (f y).isOpen = y.isOpen ∧ (f y).txSeq = y.txSeq ∧ (f y).txKey = y.txKey)
    (isOpen : (s.sess n).isOpen = true) (seq : (s.sess n).txSeq + 2 < 2 ^ 63) (ty reqId status flags : Nat)
    (body : List Byte) :
    (s.updSess n f).sendTo n ty reqId status flags body =
      (s.updSess n fun y => { f y with txSeq := (f y).txSeq + 1 }).send (s.message n ty status flags reqId body) := by
  obtain ⟨sameOpen, sameSeq, sameKey⟩ := keeps (s.sess n)
  have changed : (s.updSess n f).sess n = f (s.sess n) := (s.updSess_sess n n f).trans (if_pos rfl)
  have message : (s.updSess n f).message n ty status flags reqId body = s.message n ty status flags reqId body := by
    simp only [State.message, changed, sameSeq, sameKey]
    rfl
  rw [State.sendTo_open (by rw [changed, sameOpen, isOpen]) (by rw [changed, sameSeq]; exact seq), message,
    State.updSess_twice]

/-! Reports and events (R380). -/

/-- A SUBSCRIBE that is not taken as it stands. -/
theorem subscribe_malformed_iff (i kind : BitVec 8) (period : BitVec 16) (addrs : List (BitVec 32)) :
    (decide (15 < i.toNat) || decide (1 < kind.toNat) || decide (period.toNat = 0) || decide (60000 < period.toNat) ||
      (decide (kind = 0) && ((addrs.map BitVec.toNat).isEmpty || decide (256 < (addrs.map BitVec.toNat).length) ||
        !(addrs.map BitVec.toNat).all addrOk))) = true ↔
    ¬ (i.toNat ≤ 15 ∧ 0 < period.toNat ∧ period.toNat ≤ 60000 ∧
      (kind = 1 ∨ (kind = 0 ∧ addrs ≠ [] ∧ addrs.length ≤ 256 ∧ addrs.all (fun a => addrOk a.toNat) = true))) := by
  have all : (addrs.map BitVec.toNat).all addrOk = addrs.all fun a => addrOk a.toNat := List.all_map
  have kinds : kind = 0 ∨ kind = 1 ∨ 1 < kind.toNat := by bv_omega
  rw [all]
  rcases kinds with rfl | rfl | other
  · grind
  · grind
  · grind

theorem State.sub_id {s : State} {n : Fin 64} {i : Nat} {x : Sub} (h : s.sub n i = some x) : x.id = i := by
  simpa using List.find?_some h

/-- A report leaves, where telemetry formatting had not yielded. -/
theorem State.telSend_open {s : State} {n : Fin 64} {x : Sub} {vs : List Nat} {tick time : Nat}
    (isOpen : (s.sess n).isOpen = true) (seq : (s.sess n).txSeq + 2 < 2 ^ 63) (latched : x.latched = some (vs, tick, time))
    (free : s.net.telDisplaced = false) :
    s.telSend n x = (s.updSess n fun y => { y with
        txSeq := y.txSeq + 1
        subs := y.subs.map fun (z : Sub) =>
          if z.id = x.id then { z with latched := none, seq := wrapU 32 (z.seq + 1) } else z }).send
      (s.message n 0x32 0 flUnsolicited 0 (leBytes 1 x.id ++ leBytes 4 x.seq ++ leBytes 8 tick ++ leBytes 8 time ++
        leBytes 4 (2 * (s.sys.tick - tick)) ++ leBytes 2 x.missed ++ vs.flatMap (leBytes 4))) := by
  unfold State.telSend
  rw [latched]
  dsimp only
  rw [State.updSub, State.sendTo_updSess ?keeps isOpen seq]
  · exact if_neg (by rw [Bool.not_eq_true]; exact free)
  case keeps => exact fun _ => ⟨rfl, rfl, rfl⟩

theorem State.sendEvents_one (s : State) (n : Fin 64) (i dropped : Nat) {recs : List (List Byte)} (some_ : recs ≠ [])
    (few : recs.length ≤ 279) :
    s.sendEvents n i dropped recs =
      s.sendTo n 0x33 0 0 flUnsolicited (leBytes 1 i ++ leBytes 4 dropped ++ recs.flatten) := by
  have one : ceilDiv recs.length 279 = 1 := by
    have := List.length_pos_iff.2 some_
    simp only [ceilDiv, OfNat.ofNat_ne_zero, if_false]
    omega
  rw [State.sendEvents, one]
  simp only [List.range_one, List.foldl_cons, List.foldl_nil, Nat.mul_zero, List.drop_zero, List.take_of_length_le few]

/-! Fetches (R381). -/

/-- The bytes that leave next of a fetch: those asked for that the region holds, at most 8,192. -/
def State.fetchNow (s : State) (f : Fetch) : Nat :=
  match s.fetchEnd f.region with
  | some e => min (min 8192 f.left) (e - f.off)
  | none => min 8192 f.left

/-- A fetch ends with them: they are its last, or the ring is frozen and holds no more. -/
def State.fetchEnds (s : State) (f : Fetch) : Bool :=
  s.fetchNow f = f.left || (f.region = 1 && s.evr.capFrozen && s.fetchNow f < min 8192 f.left)

/-- The fetch is taken from its session. -/
def State.fetchDone (s : State) (n : Fin 64) (id : Nat) : State :=
  s.updSess n fun x => { x with fetches := x.fetches.filter fun g => g.reqId != id }

/-- What leaves of a fetch: an answer STALE where the ring has overwritten a byte, its end, or its next bytes. -/
def State.fetchSend (s : State) (n : Fin 64) (id : Nat) (f : Fetch) : State :=
  match (List.range (s.fetchNow f)).mapM fun j => s.fetchByte f.region f.index (f.off + j) with
  | none => (s.fetchDone n id).sendTo n 0x41 id stStale flUnsolicited (leBytes 8 f.off)
  | some l =>
    if s.fetchEnds f then
      (s.used.fetchDone n id).sendTo n 0x41 id stOk (flUnsolicited + flLast)
        (leBytes 8 f.off ++ l ++ leBytes 4 (crc32c (f.sent ++ l)))
    else
      (s.used.updSess n fun x => { x with fetches := x.fetches.map fun g => if g.reqId = id then
        { g with off := g.off + s.fetchNow f, left := g.left - s.fetchNow f, sent := g.sent ++ l } else g }).sendTo
        n 0x41 id stOk flUnsolicited (leBytes 8 f.off ++ l)

theorem exec_fetchData_none {n : Fin 64} {i : BitVec 32} {s : State}
    (none_ : (s.sess n).fetches.find? (fun f => f.reqId = i.toNat) = none) : exec (.fetchData n i) s = .next s := by
  show execFetchData n i s = _
  unfold execFetchData
  dsimp only
  rw [none_]

theorem exec_fetchData_some {n : Fin 64} {i : BitVec 32} {f : Fetch} {s : State}
    (found : (s.sess n).fetches.find? (fun f => f.reqId = i.toNat) = some f) :
    exec (.fetchData n i) s =
      .next (if !s.net.linkUp || (s.fetchNow f = 0 && !s.fetchEnds f) then s else s.fetchSend n i.toNat f) := by
  show execFetchData n i s = _
  unfold execFetchData
  dsimp only
  rw [found]
  rfl

/-- Over a link, with bytes to send or at its end, it leaves. -/
theorem exec_fetchData_sends {n : Fin 64} {i : BitVec 32} {f : Fetch} {s : State} (up : s.net.linkUp = true)
    (found : (s.sess n).fetches.find? (fun f => f.reqId = i.toNat) = some f)
    (sends : 0 < s.fetchNow f ∨ s.fetchEnds f = true) :
    exec (.fetchData n i) s = .next (s.fetchSend n i.toNat f) := by
  refine (exec_fetchData_some found).trans (congrArg Host.Outcome.next (if_neg ?_))
  simp only [up, Bool.not_true, Bool.false_or, Bool.and_eq_true, decide_eq_true_eq, Bool.not_eq_true', not_and,
    Bool.not_eq_false]
  exact fun none_ => sends.resolve_left (by omega)

/-! Pushes and attestation (R90, R382, R397, R448). -/

theorem State.dropShadow_eq (s : State) : s.dropShadow = { s with
    cfg := { s.cfg with shadowState := .empty, shadow := none, staging := [], push := none }
    evr := s.evs [(0x2005, noInst, 0)] } := by
  unfold State.dropShadow
  rw [State.ev_of (s := s)]
  · rfl
  · exact ⟨rfl, rfl, rfl, rfl, rfl⟩

theorem State.attestBytes_length (s : State) (nonce : List Byte) : (s.attestBytes nonce).length = 272 := by
  unfold State.attestBytes
  extract_lets _ stored flags
  have limits : (s.cfg.limitEff.toList.flatMap fun v => leBytes 4 (codeS 32 v)).length = 40 := by
    simp [List.length_flatMap, leBytes_length]
  simp only [List.length_append, leBytes_length, bytesAt_length, limits]

/-- A budget of a version above the one held, or the first. -/
theorem State.takeBudget_newer {s : State} {version : Nat}
    (newer : ¬ (s.net.rowSrc.isSome = true ∧ version ≤ s.net.rowVersion))
    (budget : Nat) (src : Nat × Nat) :
    s.takeBudget version budget src = State.ev { s with net := { s.net with
      rowVersion := version, rowSrc := some src
      rowBudget := if budget = 0xFFFFFFFF then none else some budget } } 0xA059 := by
  refine if_pos ?_
  cases src : s.net.rowSrc with
  | none => simp
  | some _ => simpa [src] using newer

/-- Settles O31: each message and each command by what it tests, with the lemmas on what leaves for a session. -/
theorem subscriptionsFetchesAndPushes : Obligations.SubscriptionsFetchesAndPushes := by
  refine ⟨fun h i kind period mask addrs s => ?subscribe, fun h i s => State.serve_congr (fun t => ?unsubscribe) _ _ _ _ _ _,
    fun n i free s idle => ?noReport, fun n i x vs tick time s isOpen sub regs latched core seq => ?report,
    fun n i x s sub regs latched core => ?yields, fun n i x s sub evs due => ?events, fun n i s idle => ?noEvents,
    fun n i dropped recs s => s.sendEvents_one n i dropped, fun h r i off len s => ?fetch, fun n i s idle => ?noFetch,
    fun n i f e s found left stop beyond live => ?waits, fun n i f k l s up found now ends read => ?last,
    fun n i f k l s up found now more some_ live read => ?part, fun n i f k s up found now some_ lost => ?stale,
    fun h total s => ?pushBegin, fun h off data s => ?pushData, fun h s => ?pushEnd, State.dropShadow_eq,
    fun p s push late => ?late, fun s early => ?early, fun h nonce s => ?attest, fun nonce s => s.attestBytes_length nonce,
    fun h v b s => ?rowBudget, fun h ckn cak s => rfl⟩
  case subscribe =>
    refine State.serve_congr (fun t => ?_) _ _ _ _ _ _
    exact (if_congr (subscribe_malformed_iff i kind period addrs) rfl rfl).trans (ite_not _ _ _)
  case unsubscribe => rfl
  case noReport =>
    show execTelemetry n i free s = _
    unfold execTelemetry
    cases sub : s.sub n i.toNat with
    | none => rfl
    | some x =>
      rw [sub] at idle
      simp only [Option.elim_some, Bool.or_eq_true, Bool.and_eq_true, Bool.not_eq_true'] at idle
      rcases idle with (evs | unlatched) | ⟨busy, yielded⟩
      · simp only [evs, if_true]
      · simp only [unlatched, if_true, ite_self]
      · simp only [busy, yielded, Bool.false_eq_true, if_false, if_true, ite_self]
  case report =>
    have id := State.sub_id sub
    show execTelemetry n i true s = _
    unfold execTelemetry
    rw [sub]
    dsimp only
    rw [if_neg (by simp [regs]), if_neg (by simp [latched]), if_pos rfl, State.telSend_open isOpen seq latched core, id]
  case yields =>
    have waits : x.latched.isNone = false := by simpa using latched
    show execTelemetry n i false s = _
    unfold execTelemetry
    rw [sub]
    simp only [regs, waits, core, Bool.false_eq_true, if_false]
  case events =>
    have id := State.sub_id sub
    show execEvents n i s = _
    unfold execEvents
    rw [sub]
    dsimp only
    rw [if_neg (by simp [evs, due]), id]
    rfl
  case noEvents =>
    show execEvents n i s = _
    unfold execEvents
    cases sub : s.sub n i.toNat with
    | none => rfl
    | some x =>
      rw [sub] at idle
      exact congrArg Host.Outcome.next (if_pos idle)
  case fetch =>
    refine State.serve_congr (fun t => ?_) _ _ _ _ _ _
    have malformed : (7 < r.toNat || len.toNat = 0 || 2 ^ 24 < len.toNat || (r.toNat = 0 && 15 < i.toNat)
          || (r.toNat = 6 && 3 < i.toNat)) = true ↔
        ¬ (r.toNat ≤ 7 ∧ 0 < len.toNat ∧ len.toNat ≤ 2 ^ 24 ∧ (r.toNat = 0 → i.toNat ≤ 15) ∧
          (r.toNat = 6 → i.toNat ≤ 3)) := by
      grind
    refine (if_congr malformed rfl ?_).trans (ite_not _ _ _)
    exact (if_congr not_lt.symm rfl rfl).trans (ite_not _ _ _)
  case noFetch =>
    cases found : (s.sess n).fetches.find? (fun f => f.reqId = i.toNat) with
    | none => exact exec_fetchData_none found
    | some f =>
      have down : s.net.linkUp = false :=
        idle.resolve_left fun none_ => none_ f (List.mem_of_find?_eq_some found) (by simpa using List.find?_some found)
      exact (exec_fetchData_some found).trans (congrArg Host.Outcome.next (if_pos (by simp [down])))
  case waits =>
    have now : s.fetchNow f = 0 := by
      unfold State.fetchNow
      rw [stop]
      dsimp only
      omega
    have goesOn : s.fetchEnds f = false := by
      simp only [State.fetchEnds, now, Bool.or_eq_false_iff, decide_eq_false_iff_not]
      refine ⟨by omega, ?_⟩
      rcases live with other | running
      · simp [other]
      · simp [running]
    exact (exec_fetchData_some found).trans (congrArg Host.Outcome.next (if_pos (by simp [now, goesOn])))
  case last =>
    have now : s.fetchNow f = k := now.symm
    have ends : s.fetchEnds f = true := by simpa [State.fetchEnds, now, and_assoc] using ends
    rw [exec_fetchData_sends up found (.inr ends), State.fetchSend, now, read]
    simp only [ends, if_true]
    rfl
  case part =>
    have now : s.fetchNow f = k := now.symm
    have goesOn : s.fetchEnds f = false := by
      simp only [State.fetchEnds, now, Bool.or_eq_false_iff, decide_eq_false_iff_not]
      refine ⟨more, ?_⟩
      rcases live with other | running | whole
      · simp [other]
      · simp [running]
      · simp [← whole]
    rw [exec_fetchData_sends up found (.inl (now ▸ some_)), State.fetchSend, now, read]
    simp only [goesOn, Bool.false_eq_true, if_false]
    rfl
  case stale =>
    have now : s.fetchNow f = k := now.symm
    rw [exec_fetchData_sends up found (.inl (now ▸ some_)), State.fetchSend, now, lost]
    rfl
  case pushBegin =>
    refine State.serve_congr (fun t => ?_) _ _ _ _ _ _
    have busy : (t.cfg.shadowState = .receiving || t.cfg.shadowState = .checking || t.cfg.swapPending.isSome) = true ↔
        t.cfg.shadowState = .receiving ∨ t.cfg.shadowState = .checking ∨ t.cfg.swapPending.isSome = true := by
      simp [or_assoc]
    refine if_congr Iff.rfl rfl (if_congr busy rfl ?_)
    have clock : State.rootNs (if t.cfg.shadowState = .ready then t.dropShadow else t) = t.rootNs := by
      split
      · rw [State.dropShadow_eq]
        rfl
      · rfl
    dsimp only
    rw [clock]
    rfl
  case pushData =>
    refine State.serve_congr (fun t => ?_) _ _ _ _ _ _
    cases t.cfg.push with
    | none => rfl
    | some p =>
      have long : (8192 < data.length || p.length < off.toNat + data.length) = true ↔
          ¬ (data.length ≤ 8192 ∧ off.toNat + data.length ≤ p.length) := by
        simp only [Bool.or_eq_true, decide_eq_true_eq]
        omega
      refine if_congr bne_iff_ne rfl ?_
      exact (if_congr long rfl rfl).trans (ite_not _ _ _)
  case pushEnd =>
    refine State.serve_congr (fun t => ?_) _ _ _ _ _ _
    cases t.cfg.push with
    | none => rfl
    | some p =>
      refine if_congr bne_iff_ne rfl ?_
      cases (List.range p.length).mapM p.byte with
      | none => rfl
      | some l => rfl
  case late =>
    refine congrArg Host.Outcome.next (if_pos ?_)
    rw [push]
    exact late
  case early =>
    refine congrArg Host.Outcome.next (if_neg ?_)
    cases push : s.cfg.push with
    | none => simp
    | some p => simpa [push] using early
  case attest => rfl
  case rowBudget =>
    refine State.serve_congr (fun t => ?_) _ _ _ _ _ _
    have stale : (t.net.rowSrc.isSome && v.toNat ≤ t.net.rowVersion) = true ↔
        t.net.rowSrc.isSome = true ∧ v.toNat ≤ t.net.rowVersion := by
      simp
    by_cases held : t.net.rowSrc.isSome = true ∧ v.toNat ≤ t.net.rowVersion
    · rw [if_pos held, if_pos (stale.2 held)]
      rfl
    · rw [if_neg held, if_neg (mt stale.1 held), State.takeBudget_newer held]
      rfl

end Sys2Proof.Machine
end

section
/-! SUPPORT. Channels, chiplets and shunts of the measurement front end under an update, and the failure of a converter
(R113 to R117). -/

namespace Sys2Proof.Machine

/-! The entry an update changes, and the others. -/

theorem updN_getElem? {α : Type} {n : Nat} (v : Vector α n) (i : Nat) (f : α → α) (j : Nat) :
    (updN v i f)[j]? = if i = j then v[j]?.map f else v[j]? := by
  unfold updN
  split
  · next inside =>
    rw [Vector.getElem?_set inside]
    split
    · next same => rw [← same, Vector.getElem?_eq_getElem inside, Option.map_some]
    · rfl
  · next outside =>
    split
    · next same => rw [← same, Vector.getElem?_eq_none (Nat.le_of_not_lt outside), Option.map_none]
    · rfl

theorem updN_congr {α : Type} {n : Nat} {v : Vector α n} {i : Nat} {f g : α → α} (h : ∀ x, v[i]? = some x → f x = g x) :
    updN v i f = updN v i g := by
  unfold updN
  split
  · next inside => rw [h _ (Vector.getElem?_eq_getElem inside)]
  · rfl

theorem updN_updN {α : Type} {n : Nat} (v : Vector α n) (i : Nat) (f g : α → α) :
    updN (updN v i f) i g = updN v i fun x => g (f x) := by
  unfold updN
  split
  · simp
  · rfl

/-- A channel that is there after an update of one channel. -/
theorem State.updCh_chan (s : State) {c : Nat} (inside : c < 164) (f : Channel → Channel) (x : Nat) :
    (s.updCh c f).chan x = if c = x then f (s.chan x) else s.chan x := by
  simp only [State.chan, State.updCh, updN_getElem?]
  split
  · next same => rw [← same, Vector.getElem?_eq_getElem inside]; rfl
  · rfl

/-- A chiplet after an update of one of the four. -/
@[simp] theorem State.updChip_chip (s : State) (a b : Fin 4) (f : Chiplet → Chiplet) :
    (s.updChip a.val f).chip b.val = if a = b then f (s.chip b.val) else s.chip b.val := by
  simp only [State.chip, State.updChip, updN_getElem?, Fin.ext_iff]
  split
  · rw [Vector.getElem?_eq_getElem b.isLt]
    rfl
  · rfl

/-- The update of one chiplet leaves the others. -/
theorem State.updChip_chip_ne (s : State) {a b : Nat} (other : a ≠ b) (f : Chiplet → Chiplet) :
    (s.updChip a f).chip b = s.chip b := by
  simp only [State.chip, State.updChip, updN_getElem?, if_neg other]

/-- The update of one channel leaves the others. -/
theorem State.updCh_chan_ne (s : State) {c d : Nat} (other : c ≠ d) (f : Channel → Channel) :
    (s.updCh c f).chan d = s.chan d := by
  simp only [State.chan, State.updCh, updN_getElem?, if_neg other]

theorem State.updChip_chip_same (s : State) (a : Fin 4) (f : Chiplet → Chiplet) :
    (s.updChip a.val f).chip a.val = f (s.chip a.val) := by
  rw [State.updChip_chip, if_pos rfl]

/-- Two changes of a chiplet that agree on what it is. -/
theorem State.updChip_congr {s : State} {a : Fin 4} {f g : Chiplet → Chiplet} (h : f (s.chip a.val) = g (s.chip a.val)) :
    s.updChip a.val f = s.updChip a.val g := by
  unfold State.updChip
  rw [updN_congr fun x is => by simpa only [State.chip, is, Option.getD_some] using h]

theorem State.updChip_updChip (s : State) (a : Nat) (f g : Chiplet → Chiplet) :
    (s.updChip a f).updChip a g = s.updChip a fun x => g (f x) := by
  simp only [State.updChip, updN_updN]

theorem State.updCh_congr {s : State} {c : Nat} {f g : Channel → Channel} (h : f (s.chan c) = g (s.chan c)) :
    s.updCh c f = s.updCh c g := by
  unfold State.updCh
  rw [updN_congr fun x is => by simpa only [State.chan, is, Option.getD_some] using h]

@[simp] theorem State.updShunt_shunt (s : State) (i j : Fin 4) (f : Shunt → Shunt) :
    (s.updShunt i f).shunt j = if i = j then f (s.shunt j) else s.shunt j := by
  simp [State.updShunt, State.shunt, Fin.ext_iff]

theorem State.updShunt_updShunt (s : State) (i : Fin 4) (f g : Shunt → Shunt) :
    (s.updShunt i f).updShunt i g = s.updShunt i fun x => g (f x) := by
  simp [State.updShunt, updV]

theorem State.updShunt_congr {s : State} {i : Fin 4} {f g : Shunt → Shunt} (h : f (s.shunt i) = g (s.shunt i)) :
    s.updShunt i f = s.updShunt i g := by
  have same : updV s.afe.shunt i f = updV s.afe.shunt i g := congrArg (s.afe.shunt.set i.val · i.isLt) h
  rw [State.updShunt, same, State.updShunt]

/-- A change of a shunt to what it is. -/
theorem State.updShunt_self (s : State) (i : Fin 4) : (s.updShunt i fun _ => s.shunt i) = s := by
  have same : (updV s.afe.shunt i fun _ => s.shunt i) = s.afe.shunt := Vector.set_getElem_self i.isLt
  rw [State.updShunt, same]

@[simp] theorem State.updShunt_shuntFs (s : State) (i : Fin 4) (f : Shunt → Shunt) (j : Nat) :
    (s.updShunt i f).shuntFs j = s.shuntFs j := rfl

/-! A channel and a chiplet after an operation that leaves the front end, or the other kind of them, alone. -/

@[simp] theorem State.updChip_chan (s : State) (a c : Nat) (f : Chiplet → Chiplet) : (s.updChip a f).chan c = s.chan c := rfl
@[simp] theorem State.updCh_chip (s : State) (a c : Nat) (f : Channel → Channel) : (s.updCh c f).chip a = s.chip a := rfl
@[simp] theorem State.mapFail_chan (s : State) (d c : Nat) : (s.mapFail d).chan c = s.chan c := rfl
@[simp] theorem State.mapFail_chip (s : State) (d a : Nat) : (s.mapFail d).chip a = s.chip a := rfl
@[simp] theorem State.degrade_chan (s : State) (c : Nat) : s.degrade.chan c = s.chan c := rfl
@[simp] theorem State.degrade_chip (s : State) (a : Nat) : s.degrade.chip a = s.chip a := rfl
@[simp] theorem State.ev_chan (s : State) (code inst data c : Nat) : (s.ev code inst data).chan c = s.chan c := by
  simp only [State.chan, State.ev_afe]
@[simp] theorem State.ev_chip (s : State) (code inst data a : Nat) : (s.ev code inst data).chip a = s.chip a := by
  simp only [State.chip, State.ev_afe]
@[simp] theorem State.displace_afe (s : State) (row inst winner loser : Nat) :
    (s.displace row inst winner loser).afe = s.afe := by
  simp only [State.displace, State.ev_afe]
@[simp] theorem State.displace_sys (s : State) (row inst winner loser : Nat) :
    (s.displace row inst winner loser).sys = s.sys := by
  simp only [State.displace, State.ev_sys]
@[simp] theorem State.displace_chan (s : State) (row inst winner loser c : Nat) :
    (s.displace row inst winner loser).chan c = s.chan c := by
  simp only [State.chan, State.displace_afe]
@[simp] theorem State.displace_chip (s : State) (row inst winner loser a : Nat) :
    (s.displace row inst winner loser).chip a = s.chip a := by
  simp only [State.chip, State.displace_afe]

/-- The chiplet of a phase or auxiliary channel is one of the four. -/
theorem chipOf_lt {c : Nat} (h : c < 160) : chipOf c < 4 := by
  unfold chipOf
  split
  · omega
  · omega

/-! What the recorder reads is left alone, and events follow one another (R473). -/

theorem State.SameEv.trans {s t u : State} (h : s.SameEv t) (k : t.SameEv u) : s.SameEv u :=
  ⟨h.active.trans k.active, h.evr.trans k.evr, h.tick.trans k.tick, h.time.trans k.time, h.stopped.trans k.stopped⟩

/-! Changes of what the recorder does not read. -/
theorem State.SameEv.updCh {s t : State} (h : s.SameEv t) (c : Nat) (f : Channel → Channel) : s.SameEv (t.updCh c f) :=
  h.trans ⟨rfl, rfl, rfl, rfl, rfl⟩
theorem State.SameEv.updChip {s t : State} (h : s.SameEv t) (a : Nat) (f : Chiplet → Chiplet) : s.SameEv (t.updChip a f) :=
  h.trans ⟨rfl, rfl, rfl, rfl, rfl⟩
theorem State.SameEv.mapFail {s t : State} (h : s.SameEv t) (c : Nat) : s.SameEv (t.mapFail c) :=
  h.trans ⟨rfl, rfl, rfl, rfl, rfl⟩
theorem State.SameEv.degrade {s t : State} (h : s.SameEv t) : s.SameEv t.degrade :=
  h.trans ⟨rfl, rfl, rfl, rfl, rfl⟩

/-- An event beside a change of the front end, which the recorder does not read. -/
theorem State.ev_withAfe (s : State) (a : Afe) (c i d : Nat) :
    ({ s with afe := a } : State).ev c i d = { s with afe := a, evr := s.evs [(c, i, d)] } :=
  State.ev_of (s := s) (t := { s with afe := a }) ⟨rfl, rfl, rfl, rfl, rfl⟩ c i d

/-- A displacement is its event (R74). -/
theorem State.SameEv.displace {s t : State} (h : s.SameEv t) (row inst winner loser : Nat) :
    (s.ev 0x2040 (4096 * row + inst) (winner + 16 * loser)).SameEv (t.displace row inst winner loser) :=
  (h.trans (u := { t with cfg := { t.cfg with displacedCount := bump 32 t.cfg.displacedCount } })
    ⟨rfl, rfl, rfl, rfl, rfl⟩).ev _ _ _

/-! The failure of a channel's converter (R113 to R115). -/

/-- The channel's converter counts no more: its cause, event 0x3011 and both failure maps (R113, R117). -/
def State.adcFails (s : State) (c cause : Nat) : State :=
  ((s.updCh c fun y => { y with adcFailed := true, failCause := cause, newCoef := none }).ev 0x3011 c cause).mapFail c

/-- The spare of a chiplet is given to a channel (R114): at once where it covers the channel already, and else at its next
window boundary. -/
def Chiplet.giveSpare (x : Chiplet) (c tick : Nat) : Chiplet :=
  { x.stopRotation with
      subst := some c, substPending := if x.covers = some c then none else some c, substTick := tick
      covered := if x.covers = some c then some c else x.covered
      displaced := x.displaced || x.step.inSlot }

/-- The spare of a slot in progress that covers the channel already. -/
theorem Chiplet.giveSpare_covering {x : Chiplet} {c : Nat} (tick : Nat) (covers : x.covers = some c)
    (slot : x.step.inSlot = true) (idle : x.substPending = none) :
    x.giveSpare c tick = { x with
      step := .stopped, rotStopped := true, subst := some c, substTick := tick, covered := some c, displaced := true } := by
  simp [Chiplet.giveSpare, Chiplet.stopRotation, covers, slot, idle]

/-- The spare of a rotation that rests. -/
theorem Chiplet.giveSpare_resting {x : Chiplet} {c : Nat} (tick : Nat) (covers : x.covers = none)
    (rests : x.step.inSlot = false) :
    x.giveSpare c tick = { x with
      step := .stopped, rotStopped := true, subst := some c, substPending := some c, substTick := tick } := by
  simp [Chiplet.giveSpare, Chiplet.stopRotation, covers, rests]

theorem State.adcFails_chan (s : State) {c : Nat} (inside : c < 160) (cause : Nat) :
    (s.adcFails c cause).chan c = { s.chan c with adcFailed := true, failCause := cause, newCoef := none } := by
  rw [State.adcFails, State.mapFail_chan, State.ev_chan, State.updCh_chan s (by omega), if_pos rfl]

@[simp] theorem State.adcFails_chip (s : State) (c cause a : Nat) : (s.adcFails c cause).chip a = s.chip a := by
  rw [State.adcFails, State.mapFail_chip, State.ev_chip, State.updCh_chip]

@[simp] theorem State.adcFails_sys (s : State) (c cause : Nat) : (s.adcFails c cause).sys = s.sys :=
  State.ev_sys _ _ _ _

theorem State.SameEv.adcFails {s t : State} (h : s.SameEv t) (c cause : Nat) :
    (s.ev 0x3011 c cause).SameEv (t.adcFails c cause) :=
  ((h.updCh c _).ev 0x3011 c cause).mapFail c

theorem mem_addOnce_iff {l : List Nat} {c x : Nat} : (x ∈ if l.contains c then l else l ++ [c]) ↔ x = c ∨ x ∈ l := by
  split
  · next held => exact ⟨.inr, fun h => h.elim (· ▸ List.contains_iff_mem.1 held) id⟩
  · simp [or_comm]

/-- The failure map of this boot, and the stored one, after a channel enters them (R117). -/
theorem State.mem_mapFail_failMap {s : State} {c x : Nat} :
    x ∈ (s.mapFail c).afe.failMap ↔ x = c ∨ x ∈ s.afe.failMap := mem_addOnce_iff
theorem State.mem_mapFail_failMapStored {s : State} {c x : Nat} :
    x ∈ (s.mapFail c).afe.failMapStored ↔ x = c ∨ x ∈ s.afe.failMapStored := mem_addOnce_iff

/-- A channel whose spare is free takes it (R114). A slot in progress is displaced. -/
theorem State.channelFail_free {s : State} {c : Nat} (inside : c < 160) (cause : Nat) (sound : (s.chan c).adcFailed = false)
    (unassigned : (s.chip (chipOf c)).subst = none) (works : (s.chip (chipOf c)).spareFailed = false)
    (idle : (s.chip (chipOf c)).substPending = none) :
    s.channelFail c cause =
      let x := s.chip (chipOf c)
      let t := ((s.adcFails c cause).updChip (chipOf c) fun y => y.giveSpare c s.sys.tick).degrade
      let u := if x.step.inSlot then t.displace 1 (chipOf c) 1 4 else t
      if x.covers = some c then u.ev 0x3012 c else u := by
  have chiplet : (s.adcFails c cause).chip (chipOf c) = s.chip (chipOf c) := s.adcFails_chip c cause _
  have given := State.updChip_congr (s := s.adcFails c cause) (a := ⟨chipOf c, chipOf_lt inside⟩)
    (f := fun y => y.giveSpare c s.sys.tick)
    (g := fun y => { y.stopRotation with
      subst := some c, substPending := if (s.chip (chipOf c)).covers = some c then none else some c
      substTick := (s.adcFails c cause).sys.tick
      covered := if (s.chip (chipOf c)).covers = some c then some c else y.covered
      displaced := y.displaced || (s.chip (chipOf c)).step.inSlot })
    (by simp only [Chiplet.giveSpare, chiplet, State.adcFails_sys])
  have stays : ¬ (decide (c ≥ 160) || (s.chan c).adcFailed) = true := by simp [sound, inside]
  unfold State.channelFail
  dsimp only at given ⊢
  rw [if_neg stays, idle, given]
  simp only [unassigned, works, Option.filter_none]
  rfl

/-- A channel whose spare is given away already is DEAD (R115). -/
theorem State.channelFail_taken {s : State} {c : Nat} (inside : c < 160) (cause : Nat) (sound : (s.chan c).adcFailed = false)
    (assigned : (s.chip (chipOf c)).subst.isSome = true) (idle : (s.chip (chipOf c)).substPending = none) :
    s.channelFail c cause = (s.adcFails c cause).channelDead c := by
  have stays : ¬ (decide (c ≥ 160) || (s.chan c).adcFailed) = true := by simp [sound, inside]
  unfold State.channelFail
  dsimp only
  rw [if_neg stays, idle]
  simp only [assigned, Option.filter_none, Bool.true_or, if_true]
  rfl

end Sys2Proof.Machine
end

section
/-! SUPPORT. The rotation of a chiplet's spare (R111 to R114, R116, R121). -/

namespace Sys2Proof.Machine

/-! A slot begins, or rotation pauses (R111, R112, R116). -/

/-- The slot of the next channel begins as a slot has lasted 40 ms (R111). -/
theorem exec_selfCheck_opens {a : Fin 4} {s : State} (runs : s.rotationRuns a.val = true)
    (settled : (s.chip a.val).step = .settle) (enabled : (s.chip a.val).rotEn = true)
    (lasted : s.slotFor a.val 20000 = true) :
    exec (.selfCheck a true) s = .next (s.updChip a.val fun x => { x with
      step := .selfCheck, chan := nextChannel a.val x.chan, slotTick := s.sys.tick, selfFails := 0
      rotations := if x.chan = 64 + 24 * a.val + 23 then bump 16 x.rotations else x.rotations }) := by
  show execSelfCheck a true s = _
  unfold execSelfCheck
  simp only [runs, settled, enabled, lasted, State.updChip_chip_same, State.updChip_updChip, Bool.not_true, Bool.and_false,
    Bool.or_false, Bool.false_eq_true, if_false, if_true, decide_true, Bool.true_or, bne_self_eq_false]
  refine congrArg Host.Outcome.next (State.updChip_congr ?_)
  simp only [settled, decide_true, Bool.true_and, decide_eq_true_eq]

/-- A self-check that passes within its slot (R116). -/
theorem exec_selfCheck_passes {a : Fin 4} {s : State} (runs : s.rotationRuns a.val = true)
    (checks : (s.chip a.val).step = .selfCheck) :
    exec (.selfCheck a true) s = .next (s.updChip a.val fun x => { x with selfFails := 0 }) := by
  show execSelfCheck a true s = _
  unfold execSelfCheck
  simp [runs, checks]

/-- Rotation pauses after its slot where ROT_EN is 0 (R112). -/
theorem exec_selfCheck_pauses {a : Fin 4} {s : State} (ok : Bool) (runs : s.rotationRuns a.val = true)
    (settled : (s.chip a.val).step = .settle) (disabled : (s.chip a.val).rotEn = false)
    (lasted : s.slotFor a.val 20000 = true) :
    exec (.selfCheck a ok) s = .next (s.updChip a.val fun x => { x with
      step := .paused
      rotations := if x.chan = 64 + 24 * a.val + 23 then bump 16 x.rotations else x.rotations }) := by
  show execSelfCheck a ok s = _
  unfold execSelfCheck
  simp [runs, settled, disabled, lasted]

/-- A spare that replaces no channel fails (R116). -/
theorem State.spareFail_unassigned {s : State} {a : Nat} (works : (s.chip a).spareFailed = false)
    (unassigned : (s.chip a).subst = none) :
    s.spareFail a = (s.updChip a fun x => { x with
      step := .stopped, rotStopped := true, spareFailed := true, substPending := none }).ev 0x3014 a := by
  unfold State.spareFail
  dsimp only
  rw [if_neg (by rw [works]; exact Bool.false_ne_true), unassigned]
  rfl

/-- A second self-check that fails in succession fails the spare (R116). -/
theorem exec_selfCheck_fails {a : Fin 4} {s : State} (runs : s.rotationRuns a.val = true)
    (checks : (s.chip a.val).step = .selfCheck) (second : (s.chip a.val).selfFails = 1)
    (works : (s.chip a.val).spareFailed = false) (unassigned : (s.chip a.val).subst = none) :
    exec (.selfCheck a false) s = .next ((s.updChip a.val fun x => { x with
      selfFails := 2, step := .stopped, rotStopped := true, spareFailed := true, substPending := none }).ev
        0x3014 a.val) := by
  show execSelfCheck a false s = _
  unfold execSelfCheck
  simp only [runs, checks, second, State.updChip_chip_same, Bool.not_true, Bool.false_or, reduceCtorEq, decide_false,
    Bool.false_and, Bool.false_eq_true, if_false, bne_self_eq_false, Nat.reduceAdd, Nat.le_refl, if_true]
  rw [State.spareFail_unassigned (by simpa using works) (by simpa using unassigned), State.updChip_updChip]
  refine congrArg (fun t => Host.Outcome.next (State.ev t 0x3014 a.val)) (State.updChip_congr ?_)
  rw [second]

/-! The steps of a slot (R111, R113). -/

theorem State.overlapCheck_matches {s : State} {a : Nat} {m : OverlapMeans} (h : s.mismatches m.own m.spare = false) :
    s.overlapCheck a m = s := by
  rw [State.overlapCheck, h]
  rfl

theorem State.updChip_mismatches (s : State) (a : Nat) (f : Chiplet → Chiplet) (own spare : Int) :
    (s.updChip a f).mismatches own spare = s.mismatches own spare := by
  have limit : (s.updChip a f).afe.mismatch = s.afe.mismatch := rfl
  rw [State.mismatches, limit, State.mismatches]

theorem exec_overlapIn_matches {a : Fin 4} {m : OverlapMeans} {s : State} (runs : s.rotationRuns a.val = true)
    (checks : (s.chip a.val).step = .selfCheck) (due : s.slotFor a.val 2000 = true)
    (same : s.mismatches m.own m.spare = false) :
    exec (.overlapIn a m) s = .next (s.updChip a.val fun x => { x with step := .overlapIn }) := by
  have next : exec (.overlapIn a m) s =
      .next ((s.updChip a.val fun x => { x with step := .overlapIn }).overlapCheck a.val m) :=
    if_pos (by simp [runs, checks, due])
  rw [next, State.overlapCheck_matches (by rw [State.updChip_mismatches, same])]

theorem exec_overlapOut_matches {a : Fin 4} {m : OverlapMeans} {s : State} (runs : s.rotationRuns a.val = true)
    (calibrates : (s.chip a.val).step = .calibrating) (due : s.slotFor a.val 17000 = true)
    (same : s.mismatches m.own m.spare = false) :
    exec (.overlapOut a m) s = .next (s.updChip a.val fun x => { x with step := .overlapOut }) := by
  have next : exec (.overlapOut a m) s =
      .next ((s.updChip a.val fun x => { x with step := .overlapOut }).overlapCheck a.val m) :=
    if_pos (by simp [runs, calibrates, due])
  rw [next, State.overlapCheck_matches (by rw [State.updChip_mismatches, same])]

theorem State.updChip_calCheck (s : State) (a : Nat) (f : Chiplet → Chiplet) (r : CalResult) :
    (s.updChip a f).calCheck r = s.calCheck r := by
  have ofs : (s.updChip a f).afe.ofsLimit = s.afe.ofsLimit := rfl
  have gain : (s.updChip a f).afe.gainLimit = s.afe.gainLimit := rfl
  rw [State.calCheck, ofs, gain, State.calCheck]

/-- A calibration that passes keeps the new coefficients until SETTLE (R111). -/
theorem exec_calibrating_passes {a : Fin 4} {r : CalResult} {s : State} (runs : s.rotationRuns a.val = true)
    (overlaps : (s.chip a.val).step = .overlapIn) (due : s.slotFor a.val 3000 = true) (good : s.calCheck r = none) :
    exec (.calibrating a r) s = .next ((s.updChip a.val fun x => { x with step := .calibrating }).updCh
      (s.chip a.val).chan fun x => { x with newCoef := some (r.ofs, r.gain) }) := by
  show execCalibrating a r s = _
  rw [execCalibrating, if_pos (by simp [runs, overlaps, due])]
  dsimp only
  rw [State.updChip_calCheck, good]

/-- The slot's channel that fails at CALIBRATING: the spare, which covers it, stays (R114). -/
theorem exec_calibrating_fails {a : Fin 4} {r : CalResult} {c cause : Nat} {s : State} (runs : s.rotationRuns a.val = true)
    (overlaps : (s.chip a.val).step = .overlapIn) (due : s.slotFor a.val 3000 = true) (bad : s.calCheck r = some cause)
    (own : (s.chip a.val).chan = c) (inside : c < 160) (at_ : chipOf c = a.val) (sound : (s.chan c).adcFailed = false)
    (unassigned : (s.chip a.val).subst = none) (idle : (s.chip a.val).substPending = none)
    (works : (s.chip a.val).spareFailed = false) :
    Gives (.calibrating a r) s fun t =>
      t.chip a.val = { s.chip a.val with step := .stopped, rotStopped := true, subst := some c, substTick := s.sys.tick
                                         covered := some c, displaced := true } ∧
      t.chan c = { s.chan c with adcFailed := true, failCause := cause, newCoef := none } ∧ t.sys.degraded = true ∧
      t.evr = s.evs [(0x3011, c, cause), (0x2040, 4096 + a.val, 65), (0x3012, c, 0)] := by
  generalize step : (s.updChip a.val fun x => { x with step := .calibrating }) = u
  have chip : u.chip a.val = { s.chip a.val with step := .calibrating } := by rw [← step, State.updChip_chip_same]
  have chan : u.chan c = s.chan c := by rw [← step, State.updChip_chan]
  have tick : u.sys.tick = s.sys.tick := by rw [← step, State.updChip_sys]
  have same : s.SameEv u := by rw [← step]; exact (State.SameEv.refl s).updChip _ _
  have covers : (u.chip a.val).covers = some c := by rw [chip, Chiplet.covers, unassigned, own]; rfl
  have slot : (u.chip a.val).step.inSlot = true := by rw [chip]; rfl
  have fails := State.channelFail_free (s := u) inside cause (by rw [chan, sound]) (by rw [at_, chip, unassigned])
    (by rw [at_, chip, works]) (by rw [at_, chip, idle])
  simp only [at_, covers, slot, if_true] at fails
  have next : exec (.calibrating a r) s = .next (u.channelFail c cause) := by
    show execCalibrating a r s = _
    rw [execCalibrating, if_pos (by simp [runs, overlaps, due])]
    dsimp only
    rw [State.updChip_calCheck, bad, step, own]
  rw [fails] at next
  refine ⟨_, next, ?_, ?_, ?_, ?_⟩
  · rw [State.ev_chip, State.displace_chip, State.degrade_chip, State.updChip_chip_same, State.adcFails_chip,
      Chiplet.giveSpare_covering _ covers slot (by rw [chip, idle]), tick, chip]
  · rw [State.ev_chan, State.displace_chan, State.degrade_chan, State.updChip_chan, State.adcFails_chan u inside, chan]
  · rw [State.ev_sys, State.displace_sys]
    rfl
  · have given := ((same.adcFails c cause).updChip a.val fun y => y.giveSpare c u.sys.tick).degrade
    simpa only [State.evs_cons, State.evs_nil, Nat.mul_one, Nat.reduceMul, Nat.reduceAdd] using
      ((given.displace 1 a.val 1 4).ev 0x3012 c 0).evr.symm

theorem exec_settle_writes {a : Fin 4} {ofs : Int} {gain : Nat} {s : State} (runs : s.rotationRuns a.val = true)
    (overlaps : (s.chip a.val).step = .overlapOut) (due : s.slotFor a.val 18000 = true)
    (measured : (s.chan (s.chip a.val).chan).newCoef = some (ofs, gain)) :
    exec (.settle a) s = .next ((s.updChip a.val fun x => { x with step := .settle }).updCh (s.chip a.val).chan fun x =>
      { x with calOfs := ofs, calGain := gain, newCoef := none, calTick := s.sys.tick }) := by
  show execSettle a s = _
  rw [execSettle, if_pos (by simp [runs, overlaps, due])]
  refine congrArg Host.Outcome.next (State.updCh_congr ?_)
  rw [State.updChip_chan, measured]

/-- Settles O8: each step of a slot by the equation of its command. -/
theorem rotationOfTheSpareConverters : Obligations.RotationOfTheSpareConverters :=
  ⟨fun _ _ => exec_selfCheck_opens, fun _ _ => exec_selfCheck_passes, fun _ ok _ => exec_selfCheck_pauses ok,
    fun _ _ => exec_selfCheck_fails, fun _ _ _ => exec_overlapIn_matches, fun _ _ _ => exec_calibrating_passes,
    fun _ _ _ _ _ => exec_calibrating_fails, fun _ _ _ => exec_overlapOut_matches,
    fun _ _ _ _ runs overlaps due _ => exec_settle_writes runs overlaps due,
    fun _ _ _ allowed => congrArg Host.Outcome.next (State.regCmd_allowed allowed _)⟩

end Sys2Proof.Machine
end

section
/-! SUPPORT. Failed converters, the modulators of a shunt, and open sense lines (R105, R106, R108, R113 to R117). -/

namespace Sys2Proof.Machine

/-! A channel that fails (R113 to R115), and its spare (R114, R116). -/

/-- While rotation is paused the spare is given to the channel and waits for its window boundary. -/
theorem exec_channelFailed_paused {c : Fin 160} {cause : Fin 5} {s : State} (sound : (s.chan c.val).adcFailed = false)
    (unassigned : (s.chip (chipOf c.val)).subst = none) (works : (s.chip (chipOf c.val)).spareFailed = false)
    (idle : (s.chip (chipOf c.val)).substPending = none) (paused : (s.chip (chipOf c.val)).step = .paused) :
    Gives (.channelFailed c cause) s fun t =>
      t.chan c.val = { s.chan c.val with adcFailed := true, failCause := cause.val + 1, newCoef := none } ∧
      t.chip (chipOf c.val) = { s.chip (chipOf c.val) with
        step := .stopped, rotStopped := true, subst := some c.val, substPending := some c.val, substTick := s.sys.tick } ∧
      t.sys.degraded = true ∧ c.val ∈ t.afe.failMap ∧ c.val ∈ t.afe.failMapStored ∧
      t.evr = s.evs [(0x3011, c.val, cause.val + 1)] := by
  have covers : (s.chip (chipOf c.val)).covers = none := by rw [Chiplet.covers, unassigned, paused]; rfl
  have rests : (s.chip (chipOf c.val)).step.inSlot = false := by rw [paused]; rfl
  have fails := State.channelFail_free c.isLt (cause.val + 1) sound unassigned works idle
  simp only [covers, rests, Bool.false_eq_true, reduceCtorEq, if_false] at fails
  have next : exec (.channelFailed c cause) s = .next (s.channelFail c.val (cause.val + 1)) := rfl
  rw [fails] at next
  refine ⟨_, next, ?_, ?_, rfl, ?_, ?_, ?_⟩
  · rw [State.degrade_chan, State.updChip_chan, State.adcFails_chan s c.isLt]
  · rw [State.degrade_chip, State.updChip_chip_same _ ⟨chipOf c.val, chipOf_lt c.isLt⟩, State.adcFails_chip,
      Chiplet.giveSpare_resting _ covers rests]
  · exact State.mem_mapFail_failMap.2 (.inl rfl)
  · exact State.mem_mapFail_failMapStored.2 (.inl rfl)
  · simpa only [State.evs_cons, State.evs_nil] using
      (((State.SameEv.refl s).adcFails c.val (cause.val + 1)).updChip _ _).degrade.evr.symm

/-- An auxiliary channel that is DEAD (R115). -/
theorem State.channelDead_auxiliary {s : State} {c : Nat} (auxiliary : 64 ≤ c) :
    s.channelDead c = ((s.updCh c fun x => { x with dead := true }).ev 0x3013 c).degrade :=
  dif_neg (Nat.not_lt.2 auxiliary)

/-- A second channel that fails, an auxiliary one, finds the spare taken. -/
theorem exec_channelFailed_taken {c : Fin 160} {cause : Fin 5} {s : State} (sound : (s.chan c.val).adcFailed = false)
    (assigned : (s.chip (chipOf c.val)).subst.isSome = true) (idle : (s.chip (chipOf c.val)).substPending = none)
    (auxiliary : 64 ≤ c.val) :
    Gives (.channelFailed c cause) s fun t =>
      (t.chan c.val).dead = true ∧ (t.chan c.val).adcFailed = true ∧ t.sys.degraded = true ∧
      t.chip (chipOf c.val) = s.chip (chipOf c.val) ∧
      t.evr = s.evs [(0x3011, c.val, cause.val + 1), (0x3013, c.val, 0)] := by
  have chan : ((s.adcFails c.val (cause.val + 1)).updCh c.val fun x => { x with dead := true }).chan c.val =
      { s.chan c.val with adcFailed := true, failCause := cause.val + 1, newCoef := none, dead := true } := by
    rw [State.updCh_chan _ (by omega), if_pos rfl, State.adcFails_chan s c.isLt]
  have next : exec (.channelFailed c cause) s = .next (s.channelFail c.val (cause.val + 1)) := rfl
  rw [State.channelFail_taken c.isLt _ sound assigned idle, State.channelDead_auxiliary auxiliary] at next
  refine ⟨_, next, ?_, ?_, rfl, ?_, ?_⟩
  · rw [State.degrade_chan, State.ev_chan, chan]
  · rw [State.degrade_chan, State.ev_chan, chan]
  · rw [State.degrade_chip, State.ev_chip, State.updCh_chip, State.adcFails_chip]
  · simpa only [State.evs_cons, State.evs_nil] using
      ((((State.SameEv.refl s).adcFails c.val (cause.val + 1)).updCh _ _).ev 0x3013 c.val 0).degrade.evr.symm

/-- At the window boundary the spare takes the channel it waits for. -/
theorem exec_spareSubstituted_takes {a : Fin 4} {c : Nat} {s : State} (waits : (s.chip a.val).substPending = some c) :
    exec (.spareSubstituted a) s = .next ((s.updChip a.val fun x => { x with substPending := none }).ev 0x3012 c) := by
  show execSpareSubstituted a s = _
  rw [execSpareSubstituted, State.takeSpare, waits]

/-- The stored failure map is erased (R117). -/
theorem exec_failmapClr_allowed {sess : Fin 64} {s : State} (allowed : s.allows sess .is_ = true) :
    exec (.failmapClr sess) s = .next { s with
      afe := { s.afe with failMapStored := [] }, evr := s.evs [(0x3016, noInst, 0)] } := by
  show execFailmapClr sess s = _
  rw [execFailmapClr, State.regCmd_allowed allowed, State.clearFailMap, State.ev_withAfe]

/-! The modulators of a shunt (R105). -/

/-- The idle modulator is calibrated every 10 s. -/
theorem exec_shuntModCalibrate_due {i : Fin 4} {ofs : Int} {gain : Nat} {s : State} (done : s.afe.bootCalDone = true)
    (live : (s.shunt i).dead = false) (aPasses : (s.shunt i).aFailed = false) (bPasses : (s.shunt i).bFailed = false)
    (due : s.elapsed (s.shunt i).calTick 5000000 = true) :
    exec (.shuntModCalibrate i ofs gain) s = .next (s.updShunt i fun x =>
      if x.activeB = true then { x with ofsA := ofs, gainA := gain, comparing := true, calTick := s.sys.tick }
      else { x with ofsB := ofs, gainB := gain, comparing := true, calTick := s.sys.tick }) :=
  if_neg (by simp [done, live, aPasses, bPasses, due])

section Comparison

variable {i : Fin 4} {qa qi : Int} {s : State} (compares : (s.shunt i).comparing = true)
  (live : (s.shunt i).dead = false) (due : s.elapsed (s.shunt i).calTick 500000 = true)

include compares live due

/-- A comparison that is due is judged by the charges, and where they differ by the internal reference. -/
theorem exec_shuntModCompare_due (okA okB : Bool) :
    exec (.shuntModCompare i qa qi okA okB) s =
      let t := s.updShunt i fun x => { x with comparing := false }
      if 1000 * (qa - qi).natAbs ≤ t.shuntFs i.val * 1000000 then
        .next (t.updShunt i fun x => { x with exchangeDue := true })
      else match okA, okB with
      | true, true => .next (t.ev 0x3041 (160 + i.val))
      | false, true => .next ((t.updShunt i fun x => { x with aFailed := true, activeB := true }).degrade.ev
          0x3040 (160 + i.val))
      | true, false => .next ((t.updShunt i fun x => { x with bFailed := true, activeB := false }).degrade.ev
          0x3040 (160 + i.val))
      | false, false => .next ((t.updShunt i fun x => { x with aFailed := true, bFailed := true, dead := true }).degrade.ev
          0x3042 (160 + i.val)) :=
  if_neg (by simp [compares, live, due])

/-- Charges that agree let the roles exchange. -/
theorem exec_shuntModCompare_agree (okA okB : Bool) (agree : 1000 * (qa - qi).natAbs ≤ s.shuntFs i.val * 1000000) :
    exec (.shuntModCompare i qa qi okA okB) s = .next (s.updShunt i fun x =>
      { x with comparing := false, exchangeDue := true }) := by
  rw [exec_shuntModCompare_due compares live due okA okB]
  dsimp only
  rw [State.updShunt_shuntFs, if_pos agree, State.updShunt_updShunt]

/-- Charges that differ: the modulator that fails is retired, and the channel is DEAD where both do. -/
theorem exec_shuntModCompare_differ (differ : s.shuntFs i.val * 1000000 < 1000 * (qa - qi).natAbs) :
    exec (.shuntModCompare i qa qi true true) s = .next
      ((s.updShunt i fun x => { x with comparing := false }).ev 0x3041 (160 + i.val)) ∧
    exec (.shuntModCompare i qa qi false true) s = .next
      ((s.updShunt i fun x => { x with comparing := false, aFailed := true, activeB := true }).degrade.ev
        0x3040 (160 + i.val)) ∧
    exec (.shuntModCompare i qa qi true false) s = .next
      ((s.updShunt i fun x => { x with comparing := false, bFailed := true, activeB := false }).degrade.ev
        0x3040 (160 + i.val)) ∧
    exec (.shuntModCompare i qa qi false false) s = .next
      ((s.updShunt i fun x => { x with comparing := false, aFailed := true, bFailed := true, dead := true }).degrade.ev
        0x3042 (160 + i.val)) := by
  have differs := Nat.not_le.2 differ
  refine ⟨?_, ?_, ?_, ?_⟩
  · rw [exec_shuntModCompare_due compares live due true true]
    dsimp only
    rw [State.updShunt_shuntFs, if_neg differs]
  · rw [exec_shuntModCompare_due compares live due false true]
    dsimp only
    rw [State.updShunt_shuntFs, if_neg differs, State.updShunt_updShunt]
  · rw [exec_shuntModCompare_due compares live due true false]
    dsimp only
    rw [State.updShunt_shuntFs, if_neg differs, State.updShunt_updShunt]
  · rw [exec_shuntModCompare_due compares live due false false]
    dsimp only
    rw [State.updShunt_shuntFs, if_neg differs, State.updShunt_updShunt]

end Comparison

/-! Open sense lines (R106, R108). -/

theorem State.requestDisable_afe (s : State) (p : Fin 64) (cause : PhCause) : (s.requestDisable p cause).afe = s.afe :=
  (State.requestDisable_kept s p cause (List.Subset.refl _) .rfl).only .afe (by decide)

/-- A line that opens on an enabled biased channel shows and latches; the other lines stay as they are. -/
theorem exec_senseOpen_opens {p : Fin 64} {mv periods : Nat} {s : State} (biased : s.senseBias p.val = true)
    (enabled : s.chEn p.val = true) (closed : s.afe.senseOpen[p.val] = false) (loud : s.afe.senseThresh < mv)
    (lasting : s.sensePeriods ≤ periods) :
    Gives (.senseOpen p mv periods) s fun t => t.afe.senseOpen[p.val] = true ∧ t.afe.senseLatch[p.val] = true ∧
      ∀ q : Fin 64, q ≠ p → t.afe.senseOpen[q.val] = s.afe.senseOpen[q.val] := by
  have opened : (s.senseOpened p).afe = { s.afe with
      senseOpen := updV s.afe.senseOpen p fun _ => true, senseLatch := updV s.afe.senseLatch p fun _ => true } := by
    unfold State.senseOpened
    rw [if_neg (by simp [biased, enabled, closed]), State.requestDisable_afe, State.ev_afe]
  have next : exec (.senseOpen p mv periods) s = .next (s.senseOpened p) :=
    congrArg Host.Outcome.next (if_pos (by simp [loud, lasting]))
  refine ⟨_, next, ?_, ?_, fun q other => ?_⟩
  · simp only [opened, updV_get, if_true]
  · simp only [opened, updV_get, if_true]
  · simp only [opened, updV_get]
    exact if_neg fun same => other (Fin.ext same.symm)

/-- The live bit of a line clears; its latch and its phase stay as they are. -/
theorem exec_senseRestored_clears {p : Fin 64} {mv periods : Nat} {s : State} (isOpen : s.afe.senseOpen[p.val] = true)
    (quiet : mv < s.afe.senseThresh) (lasting : s.sensePeriods ≤ periods) :
    Gives (.senseRestored p mv periods) s fun t =>
      t.afe.senseOpen[p.val] = false ∧ t.afe.senseLatch = s.afe.senseLatch ∧ t.pwm = s.pwm ∧
      t.evr = s.evs [(0x3021, p.val, 0)] := by
  have next : exec (.senseRestored p mv periods) s = .next (State.ev { s with
      afe := { s.afe with senseOpen := updV s.afe.senseOpen p fun _ => false } } 0x3021 p.val) :=
    if_pos (by simp [isOpen, quiet, lasting])
  rw [State.ev_withAfe] at next
  exact ⟨_, next, by simp only [updV_get, if_true], rfl, rfl, rfl⟩

end Sys2Proof.Machine
end

section
/-! SUPPORT. What the failures of boot calibration leave alone (R108, R109, R113 to R117, R194). -/

namespace Sys2Proof.Machine

/-! A fold that deals with each entry of a list once. -/

/-- What one entry brings about, in states that the others do not spoil, stands at the end. -/
theorem foldl_reaches {α : Type} {f : State → α → State} {before after : State → Prop} {c : α}
    (others : ∀ s x, x ≠ c → before s → before (f s x)) (own : ∀ s, before s → after (f s c))
    (later : ∀ s x, x ≠ c → after s → after (f s x)) {l : List α} (mem : c ∈ l) (once : l.Nodup) {s : State}
    (start : before s) : after (l.foldl f s) := by
  induction l generalizing s with
  | nil => exact absurd mem List.not_mem_nil
  | cons x l ih =>
    obtain ⟨fresh, once⟩ := List.nodup_cons.1 once
    rcases List.mem_cons.1 mem with rfl | mem
    · exact List.foldlRecOn l f (own s start) fun t held y hy => later t y (fun same => fresh (same ▸ hy)) held
    · exact ih mem once (others s x (fun same => fresh (same ▸ mem)) start)

/-! A phase that is to be disabled (R194): SYS but for the driver enables and DEGRADED. -/

/-- Nothing of SYS but the driver enables and DEGRADED differs. -/
def State.SysBut (s t : State) : Prop :=
  ∃ gdrv degraded, t.sys = { s.sys with gdrvEn := gdrv, degraded := degraded }

theorem State.SysBut.of_eq {s t : State} (h : t.sys = s.sys) : s.SysBut t := ⟨s.sys.gdrvEn, s.sys.degraded, h⟩

theorem State.SysBut.trans {s t u : State} (h : s.SysBut t) (k : t.SysBut u) : s.SysBut u := by
  obtain ⟨_, _, h⟩ := h
  obtain ⟨gdrv, degraded, k⟩ := k
  exact ⟨gdrv, degraded, by rw [k, h]⟩

theorem State.SysBut.ite {s t u : State} {c : Prop} [Decidable c] (h : s.SysBut t) (k : s.SysBut u) :
    s.SysBut (if c then t else u) := by
  split <;> assumption

/-- The parts of the state that hold nothing of SYS and of the front end. -/
def besideSysAfe : List Blk := [.pwm, .chn, .evr]

theorem State.SysBut.kept {s t u : State} (h : s.SysBut t) (k : Kept besideSysAfe t u) : s.SysBut u :=
  h.trans (.of_eq (k.only .sys (by decide)))

theorem State.disableNow_sysBut (s : State) (p : Fin 64) (cause : PhCause) : s.SysBut (s.disableNow p cause) := by
  unfold State.disableNow
  extract_lets was halted off
  have hoff : s.SysBut off :=
    .trans (t := halted.ev 0x5010 p.val cause.code) (.of_eq (State.ev_sys _ _ _ _)) ⟨_, true, rfl⟩
  split
  · exact hoff
  · next g _ =>
    extract_lets dropped
    have hdropped : s.SysBut dropped := hoff.kept
      (State.updGrp_kept _ _ _ (by decide) (State.offWindowCheck_kept _ _ _ (by decide) .rfl))
    have groupOff : dropped.SysBut (dropped.groupOff g) := by
      obtain ⟨gdrv, h⟩ := dropped.groupOff_sys g
      exact ⟨gdrv, dropped.sys.degraded, h⟩
    refine .ite ?_ (.ite hdropped (hdropped.kept (State.reinterleave_kept _ _ (by decide) .rfl)))
    exact (hdropped.trans groupOff).kept (State.ev_kept _ _ _ _ (by decide) (State.updGrp_kept _ _ _ (by decide) .rfl))

theorem State.requestDisable_sysBut (s : State) (p : Fin 64) (cause : PhCause) : s.SysBut (s.requestDisable p cause) := by
  unfold State.requestDisable
  split
  · exact .of_eq rfl
  · exact .ite (.of_eq rfl) (.ite (.of_eq rfl) (s.disableNow_sysBut p cause))

/-! What failures leave alone. -/

/-- Coefficients of a channel and when they were written (R127). -/
def State.calibration (s : State) (c : Nat) : Int × Nat × Nat := ((s.chan c).calOfs, (s.chan c).calGain, (s.chan c).calTick)

/-- No converter enters the failure map but those listed; no coefficient changes, nor a shunt, the tick count or the device
state; and the stored map loses no channel. -/
structure State.Fails (failed : List Nat) (s t : State) : Prop where
  tick : t.sys.tick = s.sys.tick
  state : t.sys.state = s.sys.state
  shunt : t.afe.shunt = s.afe.shunt
  coef : ∀ c, t.calibration c = s.calibration c
  map : ∀ c ∈ t.afe.failMap, c ∈ s.afe.failMap ∨ c ∈ failed
  stored : s.afe.failMapStored ⊆ t.afe.failMapStored

namespace State.Fails

variable {l : List Nat} {s t u : State}

theorem refl : s.Fails l s :=
  ⟨rfl, rfl, rfl, fun _ => rfl, fun _ => .inl, List.Subset.refl _⟩

theorem trans (h : s.Fails l t) (k : t.Fails l u) : s.Fails l u where
  tick := k.tick.trans h.tick
  state := k.state.trans h.state
  shunt := k.shunt.trans h.shunt
  coef c := (k.coef c).trans (h.coef c)
  map c hc := (k.map c hc).elim (h.map c) .inr
  stored := List.Subset.trans h.stored k.stored

theorem ite {c : Prop} [Decidable c] (h : s.Fails l t) (k : s.Fails l u) : s.Fails l (if c then t else u) := by
  split <;> assumption

theorem foldl {α : Type} {f : State → α → State} (hf : ∀ (u : State) a, u.Fails l (f u a)) (as : List α)
    (h : s.Fails l t) : s.Fails l (as.foldl f t) :=
  List.foldlRecOn as f h fun _ held a _ => held.trans (hf _ a)

/-- An operation that leaves the front end alone. -/
theorem sameAfe (h : s.Fails l t) (afe : u.afe = t.afe) (sys : t.SysBut u) : s.Fails l u := by
  obtain ⟨_, _, sys⟩ := sys
  refine h.trans ⟨by rw [sys], by rw [sys], by rw [afe], fun c => ?_, fun c hc => .inl (afe ▸ hc), ?_⟩
  · simp only [State.calibration, State.chan, afe]
  · rw [afe]
    exact List.Subset.refl _

theorem ev (h : s.Fails l t) (code inst data : Nat) : s.Fails l (t.ev code inst data) :=
  h.sameAfe (t.ev_afe _ _ _) (.of_eq (t.ev_sys _ _ _))

theorem degrade (h : s.Fails l t) : s.Fails l t.degrade := h.sameAfe rfl ⟨_, true, rfl⟩

theorem displace (h : s.Fails l t) (row inst winner loser : Nat) : s.Fails l (t.displace row inst winner loser) :=
  h.sameAfe (t.displace_afe _ _ _ _) (.of_eq (t.displace_sys _ _ _ _))

theorem requestDisable (h : s.Fails l t) (p : Fin 64) (cause : PhCause) : s.Fails l (t.requestDisable p cause) :=
  h.sameAfe (t.requestDisable_afe p cause) (t.requestDisable_sysBut p cause)

theorem updChip (h : s.Fails l t) (a : Nat) (f : Chiplet → Chiplet) : s.Fails l (t.updChip a f) :=
  h.trans ⟨rfl, rfl, rfl, fun _ => rfl, fun _ => .inl, List.Subset.refl _⟩

/-- A change of a channel that leaves its coefficients. -/
theorem updCh (h : s.Fails l t) (c : Nat) {f : Channel → Channel}
    (coefs : ∀ x, (f x).calOfs = x.calOfs ∧ (f x).calGain = x.calGain ∧ (f x).calTick = x.calTick) :
    s.Fails l (t.updCh c f) := by
  refine h.trans ⟨rfl, rfl, rfl, fun x => ?_, fun _ => .inl, List.Subset.refl _⟩
  have chan : (t.updCh c f).chan x = t.chan x ∨ (t.updCh c f).chan x = f (t.chan x) := by
    simp only [State.chan, State.updCh, updN_getElem?]
    split
    · cases t.afe.ch[x]? with
      | none => exact .inl rfl
      | some y => exact .inr rfl
    · exact .inl rfl
  obtain ⟨ofs, gain, tick⟩ := coefs (t.chan x)
  rcases chan with chan | chan
  · simp only [State.calibration, chan]
  · simp only [State.calibration, chan, ofs, gain, tick]

theorem mapFail (h : s.Fails l t) {c : Nat} (listed : c ∈ l) : s.Fails l (t.mapFail c) := by
  refine h.trans ⟨rfl, rfl, rfl, fun _ => rfl, fun x mem => ?_, fun x mem => State.mem_mapFail_failMapStored.2 (.inr mem)⟩
  rcases State.mem_mapFail_failMap.1 mem with same | held
  · exact .inr (same ▸ listed)
  · exact .inl held

theorem channelDead (h : s.Fails l t) (c : Nat) : s.Fails l (t.channelDead c) := by
  have dead := ((h.updCh c (f := fun x => { x with dead := true }) fun _ => ⟨rfl, rfl, rfl⟩).ev
    0x3013 c 0).degrade
  unfold State.channelDead
  dsimp only
  split
  · exact dead.requestDisable _ _
  · exact dead

theorem takeSpare (h : s.Fails l t) (a : Nat) : s.Fails l (t.takeSpare a) := by
  unfold State.takeSpare
  split
  · exact (h.updChip _ _).ev _ _ _
  · exact h

theorem adcFails (h : s.Fails l t) {c : Nat} (listed : c ∈ l) (cause : Nat) : s.Fails l (t.adcFails c cause) := by
  refine ((h.updCh c ?coefs).ev 0x3011 c cause).mapFail listed
  exact fun _ => ⟨rfl, rfl, rfl⟩

theorem channelFail (h : s.Fails l t) {c : Nat} (listed : c ∈ l) (cause : Nat) : s.Fails l (t.channelFail c cause) := by
  unfold State.channelFail
  extract_lets a x failed rival self slot given slotEnded
  have hfailed : s.Fails l failed := h.adcFails listed cause
  have hgiven : s.Fails l given := (hfailed.updChip _ _).degrade
  clear_value given
  have hended : s.Fails l slotEnded := .ite (hgiven.displace _ _ _ _) hgiven
  clear_value slotEnded failed rival
  refine .ite h ?_
  split
  · exact (hfailed.updChip _ _).channelDead _
  · exact .ite (hfailed.channelDead c) (.ite (hended.ev _ _ _) hended)

theorem bootMapped (h : s.Fails l t) (c : Nat) : s.Fails l (t.bootMapped c) := by
  unfold State.bootMapped
  extract_lets a x failed
  have hfailed : s.Fails l failed := h.updCh c fun _ => ⟨rfl, rfl, rfl⟩
  exact .ite h (.ite (hfailed.channelDead c) ((hfailed.updChip _ _).degrade.ev _ _ _))

/-- A line that is found open changes neither the channels nor the chiplets nor the shunts. -/
theorem senseOpened (h : s.Fails l t) (p : Fin 64) : s.Fails l (t.senseOpened p) := by
  unfold State.senseOpened
  refine .ite h (.requestDisable (.ev (h.trans ?_) _ _ _) _ _)
  exact ⟨rfl, rfl, rfl, fun _ => rfl, fun _ => .inl, List.Subset.refl _⟩

theorem bootSense (h : s.Fails l t) (x : Fin 64 × Nat × Nat) : s.Fails l (t.bootSense x) :=
  .ite (h.senseOpened x.1) h

end State.Fails

end Sys2Proof.Machine
end

section
/-! SUPPORT. Boot calibration phase by phase (R105, R109, R113, R117). -/

namespace Sys2Proof.Machine

/-! What every phase keeps: the tick count, the device state, and the channels of the stored failure map. -/

structure State.Boots (s t : State) : Prop where
  tick : t.sys.tick = s.sys.tick
  state : t.sys.state = s.sys.state
  stored : s.afe.failMapStored ⊆ t.afe.failMapStored

theorem State.Boots.refl {s : State} : s.Boots s := ⟨rfl, rfl, List.Subset.refl _⟩

theorem State.Boots.trans {s t u : State} (h : s.Boots t) (k : t.Boots u) : s.Boots u :=
  ⟨k.tick.trans h.tick, k.state.trans h.state, List.Subset.trans h.stored k.stored⟩

theorem State.Boots.foldl {α : Type} {f : State → α → State} (hf : ∀ (u : State) a, u.Boots (f u a)) (s : State)
    (as : List α) : s.Boots (as.foldl f s) :=
  List.foldlRecOn as f .refl fun _ held a _ => held.trans (hf _ a)

theorem State.Fails.boots {l : List Nat} {s t : State} (h : s.Fails l t) : s.Boots t := ⟨h.tick, h.state, h.stored⟩

/-! The channels (R109, R113). -/

/-- What boot calibration measures of a channel: without an entry, offset 0 and gain 1.0. -/
def chanMeasured (cal : BootCal) (c : Nat) : CalResult :=
  (cal.channels.find? fun r => r.ch = c).getD { ch := c, ofs := 0, gain := 2 ^ 30, lin := 0 }

theorem chanMeasured_ofs (cal : BootCal) (c : Nat) :
    (chanMeasured cal c).ofs = ((cal.channels.find? fun r => r.ch = c).map (·.ofs)).getD 0 := by
  unfold chanMeasured
  cases cal.channels.find? fun r => r.ch = c with
  | none => rfl
  | some r => rfl

theorem chanMeasured_gain (cal : BootCal) (c : Nat) :
    (chanMeasured cal c).gain = ((cal.channels.find? fun r => r.ch = c).map (·.gain)).getD 1073741824 := by
  unfold chanMeasured
  cases cal.channels.find? fun r => r.ch = c with
  | none => rfl
  | some r => rfl

/-- The coefficients measured are written to a channel. -/
def State.bootWrite (s : State) (cal : BootCal) (c : Nat) : State :=
  s.updCh c fun x => { x with
    calOfs := (chanMeasured cal c).ofs, calGain := (chanMeasured cal c).gain, calTick := s.sys.tick }

theorem State.bootChannel_mapped {s : State} {c : Nat} (cal : BootCal) (mapped : c ∈ s.afe.failMap) :
    s.bootChannel cal c = s :=
  if_pos (List.contains_iff_mem.2 mapped)

/-- A channel outside the failure map is written, and fails where its calibration does. -/
theorem State.bootChannel_unmapped {s : State} {c : Nat} (cal : BootCal) (unmapped : c ∉ s.afe.failMap) :
    (s.bootWrite cal c).Fails [c] (s.bootChannel cal c) := by
  unfold State.bootChannel
  extract_lets r written
  rw [if_neg fun mapped => unmapped (List.contains_iff_mem.1 mapped)]
  split
  · exact ((State.Fails.refl.channelFail (List.mem_singleton_self c) _).takeSpare _).updChip _ _
  · exact .refl

theorem State.bootChannel_boots (s : State) (cal : BootCal) (c : Nat) : s.Boots (s.bootChannel cal c) := by
  by_cases mapped : c ∈ s.afe.failMap
  · rw [State.bootChannel_mapped cal mapped]
    exact .refl
  · have written : s.Boots (s.bootWrite cal c) := ⟨rfl, rfl, List.Subset.refl _⟩
    exact written.trans (State.bootChannel_unmapped cal mapped).boots

/-- The calibration of one channel leaves the coefficients of the others, and brings none of them into the failure map. -/
theorem State.bootChannel_other (s : State) (cal : BootCal) {c d : Nat} (other : d ≠ c) :
    (s.bootChannel cal d).calibration c = s.calibration c ∧
      (c ∉ s.afe.failMap → c ∉ (s.bootChannel cal d).afe.failMap) := by
  by_cases mapped : d ∈ s.afe.failMap
  · rw [State.bootChannel_mapped cal mapped]
    exact ⟨rfl, id⟩
  · have fails := State.bootChannel_unmapped cal mapped
    constructor
    · rw [fails.coef c, State.calibration, State.bootWrite, State.updCh_chan_ne s other]
      rfl
    · exact fun unmapped mem => (fails.map c mem).elim unmapped fun mem => other (List.mem_singleton.1 mem).symm

theorem State.bootChannel_own {s : State} {c : Nat} (cal : BootCal) (inside : c < 164) (unmapped : c ∉ s.afe.failMap) :
    (s.bootChannel cal c).calibration c = ((chanMeasured cal c).ofs, (chanMeasured cal c).gain, s.sys.tick) := by
  rw [(State.bootChannel_unmapped cal unmapped).coef c, State.calibration, State.bootWrite, State.updCh_chan s inside,
    if_pos rfl]

/-- Every channel outside the failure map holds its measured coefficients. -/
theorem State.bootChannels_calibration {s : State} {c : Nat} (cal : BootCal) (inside : c < 160)
    (unmapped : c ∉ s.afe.failMap) :
    ((List.range 160).foldl (fun s c => s.bootChannel cal c) s).calibration c =
      ((chanMeasured cal c).ofs, (chanMeasured cal c).gain, s.sys.tick) := by
  refine foldl_reaches (before := fun u => c ∉ u.afe.failMap ∧ u.sys.tick = s.sys.tick)
    (after := fun u => u.calibration c = ((chanMeasured cal c).ofs, (chanMeasured cal c).gain, s.sys.tick))
    ?others ?own ?later (List.mem_range.2 inside) List.nodup_range ⟨unmapped, rfl⟩
  case others =>
    rintro u d other ⟨unmapped, tick⟩
    exact ⟨(u.bootChannel_other cal other).2 unmapped, (u.bootChannel_boots cal d).tick.trans tick⟩
  case own =>
    rintro u ⟨unmapped, tick⟩
    rw [State.bootChannel_own cal (by omega) unmapped, tick]
  case later => exact fun u d other held => (u.bootChannel_other cal other).1.trans held

/-! The shunts (R105, R109). -/

/-- What boot calibration measures of a shunt: without an entry, both modulators pass with offset 0 and gain 1.0. -/
def shuntMeasured (cal : BootCal) (i : Fin 4) : ShuntCal :=
  (cal.shunts.find? fun r => r.shunt = i.val).getD
    { shunt := i.val, ofsA := 0, gainA := 2 ^ 30, ofsB := 0, gainB := 2 ^ 30, okA := true, okB := true, windows := [] }

/-- A shunt as a calibration leaves it: the modulators that fail are retired, A is active where it passes, and without
windows its charge is zero. -/
structure Shunt.Booted (x : Shunt) (r : ShuntCal) : Prop where
  activeB : x.activeB = (!r.okA && r.okB)
  aFailed : x.aFailed = !r.okA
  bFailed : x.bFailed = !r.okB
  dead : x.dead = (!r.okA && !r.okB)
  charge : r.windows = [] → x.qFrac = 0

/-- The charge of windows changes the current and the charge of a shunt. -/
theorem State.shuntAdds_eq (i : Fin 4) {α : Type} (v : α → Int) (l : List α) (s : State) :
    ∃ cur q, (l.foldl (fun s w => s.shuntAdd i (v w)) s) = s.updShunt i fun _ => { s.shunt i with i := cur, qFrac := q } := by
  induction l generalizing s with
  | nil => exact ⟨(s.shunt i).i, (s.shunt i).qFrac, (s.updShunt_self i).symm⟩
  | cons w l ih =>
    obtain ⟨cur, q, added⟩ := ih (s.shuntAdd i (v w))
    refine ⟨cur, q, added.trans ?_⟩
    rw [State.shuntAdd, State.updShunt_updShunt, State.updShunt_shunt, if_pos rfl]

/-- A shunt with its coefficients and its modulators as measured, and no charge. -/
def Shunt.calibrate (x : Shunt) (r : ShuntCal) (tick : Nat) : Shunt :=
  { x with ofsA := r.ofsA, gainA := r.gainA, ofsB := r.ofsB, gainB := r.gainB, aFailed := !r.okA, bFailed := !r.okB
           dead := !r.okA && !r.okB, degraded := false, activeB := !r.okA && r.okB, qFrac := 0, calTick := tick }

theorem Shunt.calibrate_booted (x : Shunt) (r : ShuntCal) (tick : Nat) : (x.calibrate r tick).Booted r :=
  ⟨rfl, rfl, rfl, rfl, fun _ => rfl⟩

/-- The calibration of a shunt changes that shunt, with DEGRADED and an event where a modulator fails. -/
theorem State.bootShunt_eq (s : State) (cal : BootCal) (i : Fin 4) : ∃ x : Shunt, x.Booted (shuntMeasured cal i) ∧
    (s.bootShunt cal i = s.updShunt i (fun _ => x) ∨
      ∃ code, s.bootShunt cal i = (s.updShunt i fun _ => x).degrade.ev code (160 + i.val)) := by
  unfold State.bootShunt
  extract_lets r b written added
  have booted := (s.shunt i).calibrate_booted r s.sys.tick
  have written_eq : written = s.updShunt i fun _ => (s.shunt i).calibrate r s.sys.tick := State.updShunt_congr rfl
  have added_eq : ∃ x : Shunt, x.Booted r ∧ added = s.updShunt i fun _ => x := by
    unfold added
    split
    · cases windows : r.windows with
      | nil => exact ⟨_, booted, written_eq⟩
      | cons w l =>
        obtain ⟨cur, q, eq⟩ := State.shuntAdds_eq i
          (fun w => if b then correct 24 w r.ofsB r.gainB else correct 24 w r.ofsA r.gainA) (w :: l) written
        refine ⟨{ (s.shunt i).calibrate r s.sys.tick with i := cur, qFrac := q }, ?_, eq.trans ?_⟩
        · exact { booted with charge := fun none_ => absurd none_ (by simp [windows]) }
        · rw [written_eq, State.updShunt_updShunt, State.updShunt_shunt, if_pos rfl]
    · exact ⟨_, booted, written_eq⟩
  split
  · exact ⟨_, booted, .inr ⟨0x3042, by rw [written_eq]⟩⟩
  · obtain ⟨x, booted, added_eq⟩ := added_eq
    rw [added_eq]
    split
    · exact ⟨x, booted, .inl rfl⟩
    · exact ⟨x, booted, .inr ⟨0x3040, rfl⟩⟩

theorem State.bootShunt_boots (s : State) (cal : BootCal) (i : Fin 4) : s.Boots (s.bootShunt cal i) := by
  obtain ⟨x, -, passes | ⟨code, fails⟩⟩ := s.bootShunt_eq cal i
  · rw [passes]
    exact ⟨rfl, rfl, List.Subset.refl _⟩
  · have written : s.Boots (s.updShunt i fun _ => x) := ⟨rfl, rfl, List.Subset.refl _⟩
    have fails_boots := ((State.Fails.refl (l := []) (s := s.updShunt i fun _ => x)).degrade.ev code (160 + i.val) 0).boots
    rw [fails]
    exact written.trans fails_boots

/-- The calibration of a shunt leaves the channels. -/
theorem State.bootShunt_chan (s : State) (cal : BootCal) (i : Fin 4) (c : Nat) : (s.bootShunt cal i).chan c = s.chan c := by
  obtain ⟨x, -, passes | ⟨code, fails⟩⟩ := s.bootShunt_eq cal i
  · rw [passes]
    rfl
  · rw [fails, State.ev_chan]
    rfl

/-- The shunts after the calibration of one of them. -/
theorem State.bootShunt_shunt (s : State) (cal : BootCal) (i : Fin 4) : ∃ x : Shunt, x.Booted (shuntMeasured cal i) ∧
    ∀ j, (s.bootShunt cal i).shunt j = if i = j then x else s.shunt j := by
  obtain ⟨x, booted, passes | ⟨code, fails⟩⟩ := s.bootShunt_eq cal i
  · exact ⟨x, booted, fun j => by rw [passes, State.updShunt_shunt]⟩
  · refine ⟨x, booted, fun j => ?_⟩
    rw [fails, State.shunt, State.ev_afe]
    exact s.updShunt_shunt i j _

/-- Every shunt is as its calibration leaves it. -/
theorem State.bootShunts_booted (s : State) (cal : BootCal) (i : Fin 4) :
    (((List.finRange 4).foldl (fun s i => s.bootShunt cal i) s).shunt i).Booted (shuntMeasured cal i) := by
  refine foldl_reaches (before := fun _ => True) (after := fun u => (u.shunt i).Booted (shuntMeasured cal i))
    (fun _ _ _ _ => trivial) ?own ?later (List.mem_finRange i) (List.nodup_finRange 4) trivial
  case own =>
    intro u _
    obtain ⟨x, booted, shunts⟩ := u.bootShunt_shunt cal i
    rwa [shunts i, if_pos rfl]
  case later =>
    intro u j other held
    obtain ⟨x, -, shunts⟩ := u.bootShunt_shunt cal j
    rwa [shunts i, if_neg other]

/-! The whole of it (R109). -/

/-- Boot calibration, outside SHIP_PREP, on a module with an active configuration that has not had it. -/
theorem exec_bootCalDone_first {cal : BootCal} {s : State} (first : s.afe.bootCalDone = false)
    (valid : s.cfg.activeValid = true) (notShip : s.sys.state ≠ .shipPrep) :
    Gives (.bootCalDone cal) s fun t => t.afe.bootCalDone = true ∧ (∃ u : State, t = u.ev 0x3001) ∧
      s.afe.failMapStored ⊆ t.afe.failMapStored ∧
      (∀ c < 160, c ∉ s.afe.failMap →
        t.calibration c = ((chanMeasured cal c).ofs, (chanMeasured cal c).gain, s.sys.tick)) ∧
      (∀ i : Fin 4, (t.shunt i).Booted (shuntMeasured cal i)) ∧
      ∀ a : Fin 4, (t.chip a.val).rotStopped = false → (t.chip a.val).spareFailed = false →
        (t.chip a.val).step = .selfCheck ∧ (t.chip a.val).chan = 16 * a.val := by
  show ∃ t, execBootCalDone cal s = .next t ∧ _
  unfold execBootCalDone
  extract_lets map spares channels shunts senses mapped ship rotations
  rw [if_neg (by simp [first, valid])]
  have hspares : s.Fails [] spares := .foldl (fun u a => by split <;> exact .updChip .refl _ _) _ .refl
  have hchannels : spares.Boots channels := .foldl (fun u c => u.bootChannel_boots cal c) _ _
  have hshunts : channels.Boots shunts := .foldl (fun u i => u.bootShunt_boots cal i) _ _
  have hmapped : shunts.Fails [] mapped :=
    .foldl (fun u c => .bootMapped .refl c) _ (.foldl (fun u x => .bootSense .refl x) _ .refl)
  have hrotations : mapped.Fails [] rotations := .foldl (fun u a => .updChip .refl _ _) _ .refl
  have rest : shunts.Fails [] rotations := hmapped.trans hrotations
  have whole : s.Boots mapped := hspares.boots.trans (hchannels.trans (hshunts.trans hmapped.boots))
  refine ⟨_, rfl, ?done, ⟨_, rfl⟩, ?stored, fun c inside unmapped => ?channels, fun i => ?shunts, fun a => ?rotation⟩
  case done => rw [State.ev_afe]
  case stored =>
    rw [State.ev_afe]
    exact (whole.trans hrotations.boots).stored
  case channels =>
    have measured := State.bootChannels_calibration (s := spares) cal inside fun mem =>
      (hspares.map c mem).elim unmapped List.not_mem_nil
    have kept : shunts.calibration c = channels.calibration c :=
      foldl_same (State.calibration · c) (fun u i => by simp only [State.calibration, State.bootShunt_chan]) _ channels
    rw [State.calibration, State.ev_chan]
    exact ((rest.coef c).trans kept).trans (measured.trans (by rw [hspares.tick]))
  case shunts =>
    have booted : (rotations.shunt i).Booted (shuntMeasured cal i) := by
      rw [State.shunt, rest.shunt]
      exact channels.bootShunts_booted cal i
    rw [State.shunt, State.ev_afe]
    exact booted
  case rotation =>
    have notShip : ship = false := decide_eq_false (by rw [whole.state]; exact notShip)
    rw [State.ev_chip]
    refine foldl_reaches (before := fun _ => True)
      (after := fun u => (u.chip a.val).rotStopped = false → (u.chip a.val).spareFailed = false →
        (u.chip a.val).step = .selfCheck ∧ (u.chip a.val).chan = 16 * a.val)
      (fun _ _ _ _ => trivial) (fun u _ => ?own) (fun u b other held => ?later)
      (List.mem_range.2 a.isLt) List.nodup_range trivial
    case own =>
      rw [State.updChip_chip_same, notShip]
      intro goes works
      split at goes
      · next stays =>
        rw [if_pos stays] at works
        simp [goes, works] at stays
      · next starts =>
        rw [if_neg starts]
        exact ⟨rfl, rfl⟩
    case later => rwa [State.updChip_chip_ne u other]

/-- Settles O9: boot calibration phase by phase, and each command by its equation. -/
theorem failedConvertersAndShunts : Obligations.FailedConvertersAndShunts := by
  refine ⟨fun cal s first valid notShip => ?boot, fun _ _ _ => exec_channelFailed_paused, fun _ _ _ => exec_channelFailed_taken,
    fun _ _ _ => exec_spareSubstituted_takes,
    fun _ _ works unassigned => congrArg Host.Outcome.next (State.spareFail_unassigned works unassigned),
    fun _ _ => exec_failmapClr_allowed, fun _ _ _ _ => exec_shuntModCalibrate_due,
    fun _ _ _ okA okB _ compares live due => exec_shuntModCompare_agree compares live due okA okB,
    fun _ _ _ _ => exec_shuntModCompare_differ, fun _ _ _ _ => exec_senseOpen_opens,
    fun _ _ _ _ => exec_senseRestored_clears⟩
  obtain ⟨t, next, done, event, stored, channels, shunts, rotation⟩ :=
    exec_bootCalDone_first (cal := cal) first valid notShip
  refine ⟨t, next, done, event, fun _ mem => stored mem, fun c unmapped => ?_, fun i none_ => ?_, fun i r found => ?_,
    rotation⟩
  · have written := channels c.val c.isLt unmapped
    rw [chanMeasured_ofs, chanMeasured_gain] at written
    simpa only [State.calibration, Prod.mk.injEq] using written
  · have booted := shunts i
    rw [shuntMeasured, List.find?_eq_none.2 fun r mem => by simpa using none_ r mem] at booted
    exact ⟨booted.activeB, booted.charge rfl⟩
  · have booted := shunts i
    rw [shuntMeasured, found] at booted
    exact ⟨booted.activeB, booted.aFailed, booted.bFailed, booted.dead, booted.charge⟩

end Sys2Proof.Machine
end

section
/-! SUPPORT. The arithmetic of a loop slot (R134, R138, R139, R147, R151). -/

namespace Sys2Proof.Machine

/-! Rounding and saturation (R138). -/

/-- The quotient lies within half the divisor, and is even where it lies that far. -/
theorem divHE_nearest (a : Int) {b : Nat} (pos : 0 < b) : 2 * (a - b * divHE a b).natAbs ≤ b ∧
    (2 * (a - b * divHE a b).natAbs = b → divHE a b % 2 = 0) := by
  have floor : a.fdiv b = a / b := Int.fdiv_eq_ediv_of_nonneg a (by omega)
  have rest_nonneg : 0 ≤ a % b := Int.emod_nonneg a (by omega)
  have rest_lt : a % b < b := Int.emod_lt_of_pos a (by omega)
  have whole : b * (a / b) + a % b = a := Int.mul_ediv_add_emod a b
  have rest : a - a / b * b = a % b := by rw [Int.mul_comm]; omega
  have next : (b : Int) * (a / b + 1) = b * (a / b) + b := mul_add_one ..
  unfold divHE
  simp only [floor, rest, if_neg pos.ne']
  split
  · omega
  · split
    · rw [next]; omega
    · split
      · omega
      · rw [next]; omega

/-- A shift to the right rounds to the nearest, and to the even one of two that are as near. -/
theorem rshe_nearest (p : Int) (n : Nat) : 2 * (p - 2 ^ n * rshe p n).natAbs ≤ 2 ^ n ∧
    (2 * (p - 2 ^ n * rshe p n).natAbs = 2 ^ n → rshe p n % 2 = 0) := by
  simpa only [rshe, Nat.cast_pow, Nat.cast_ofNat] using divHE_nearest p (Nat.two_pow_pos n)

/-- A multiple of the divisor is divided without rest. -/
theorem divHE_mul_self (d : Int) {n : Nat} (pos : 0 < n) : divHE (d * n) n = d := by
  have quotient : (d * n).fdiv n = d := Int.mul_fdiv_cancel d (by omega)
  simp [divHE, quotient, pos, pos.ne']

theorem clampI_within {lo hi v : Int} (above : lo ≤ v) (below : v ≤ hi) : clampI lo hi v = v := by
  rw [clampI, if_neg (by omega), if_neg (by omega)]

theorem clampI_above {lo hi v : Int} (ordered : lo ≤ hi) (above : hi < v) : clampI lo hi v = hi := by
  rw [clampI, if_neg (by omega), if_pos above]

theorem clampI_below {lo hi v : Int} (below : v < lo) : clampI lo hi v = lo := if_pos below

theorem clampI_range {lo hi : Int} (ordered : lo ≤ hi) (v : Int) : lo ≤ clampI lo hi v ∧ clampI lo hi v ≤ hi := by
  unfold clampI
  split
  · omega
  · split <;> omega

/-! The output of a slot (R134, R139). -/

/-- A record that enters the capture buffer leaves the rest of the slot. -/
theorem State.capture_slot (s : State) (i : Fin 64) : ∃ cap left test,
    (s.capture i).slot i = { s.slot i with cap := cap, snapLeft := left, test := test } := by
  unfold State.capture
  split
  · exact ⟨_, _, _, rfl⟩
  · rw [State.updSlot_slot, if_pos rfl]
    split <;> exact ⟨_, _, _, rfl⟩

/-- What the slot's producer gives: the sum of R139 without the transfer offset. -/
def State.produced (s : State) (i : Fin 64) : Int :=
  (if (s.slot i).shadow then (s.slot i).cShadow else (s.slot i).cMain) + (s.ffSum i).1
    + if ((s.testRec i.val).map Rec.testPoint).getD 0 = 1 then (s.slot i).inj else 0

/-- The slot with a pending transfer begun, where it is evaluated (R151). -/
def State.begun (s : State) (i : Fin 64) (evaluated : Bool) : Slot :=
  let x := s.slot i
  if x.transfer && evaluated then
    { x with rampD := x.transferFrom.getD x.out - s.produced i, rampLen := s.rampLen, rampLeft := s.rampLen, transfer := false }
  else x

/-- The slot with its output of the tick formed. -/
def State.formed (s : State) (i : Fin 64) (evaluated : Bool) : Slot :=
  let x := s.begun i evaluated
  let w := s.produced i + x.offset
  { x with ff := sat32 (s.ffSum i).1, ffInvalid := (s.ffSum i).2, out := sat32 w, outSat := sat32 w != w, off := x.offset
           transferFrom := none }

theorem State.formOutput_between (s : State) (i : Fin 64) :
    s.formOutput i false = s.updSlot i fun _ => s.formed i false := rfl

theorem State.formOutput_evaluated (s : State) (i : Fin 64) : s.formOutput i true =
    ((s.updSlot i fun _ => s.formed i true).capture i).updSlot i fun x => { x with rampLeft := x.rampLeft - 1 } := rfl

/-- The output adds the offset to what the producer gives, and an evaluation takes one from the offset's count. -/
theorem State.formOutput_slot (s : State) (i : Fin 64) (evaluated : Bool) :
    ((s.formOutput i evaluated).slot i).out = sat32 (s.produced i + (s.begun i evaluated).offset) ∧
    ((s.formOutput i evaluated).slot i).transfer = (s.begun i evaluated).transfer ∧
    ((s.formOutput i evaluated).slot i).rampLeft =
      if evaluated then (s.begun i evaluated).rampLeft - 1 else (s.begun i evaluated).rampLeft := by
  have own (t : State) (f : Slot → Slot) : (t.updSlot i f).slot i = f (t.slot i) := by simp
  cases evaluated with
  | false =>
    rw [State.formOutput_between, own]
    exact ⟨rfl, rfl, rfl⟩
  | true =>
    obtain ⟨cap, left, test, captured⟩ := (s.updSlot i fun _ => s.formed i true).capture_slot i
    rw [State.formOutput_evaluated, own, captured, own]
    exact ⟨rfl, rfl, rfl⟩

theorem State.begun_settled {s : State} {i : Fin 64} (settled : (s.slot i).transfer = false) (evaluated : Bool) :
    s.begun i evaluated = s.slot i := by
  simp [State.begun, settled]

theorem State.rampLen_pos (s : State) : 0 < s.rampLen := by
  unfold State.rampLen
  split <;> omega

/-- The whole difference stands in the offset as its transfer begins (R151). -/
theorem State.begun_offset {s : State} {i : Fin 64} (pending : (s.slot i).transfer = true) :
    (s.begun i true).offset = (s.slot i).transferFrom.getD (s.slot i).out - s.produced i := by
  simp [State.begun, pending, Slot.offset, s.rampLen_pos.ne', divHE_mul_self _ s.rampLen_pos]

theorem State.produced_untested {s : State} {i : Fin 64} (untested : s.testRec i.val = none) : s.produced i =
    (if (s.slot i).shadow then (s.slot i).cShadow else (s.slot i).cMain) + (s.ffSum i).1 := by
  simp [State.produced, untested]

/-! The choice of path (R147). -/

theorem pathStep_of_main {x : Slot} (main : x.shadow = false) (sat : Bool) (limit k : Nat) :
    (pathStep x sat limit k).shadow = decide (limit ≤ (((sat :: x.satWindow).take 64).filter id).length) := by
  by_cases full : limit ≤ (((sat :: x.satWindow).take 64).filter id).length
  · simp only [pathStep, main, full, Bool.not_false, if_true, decide_true]
  · simp only [pathStep, main, full, Bool.not_false, if_true, if_false, decide_false]

theorem pathStep_of_shadow {x : Slot} (shadow : x.shadow = true) (sat : Bool) (limit k : Nat) :
    (pathStep x sat limit k).shadow = !(!sat && decide (2 ^ k ≤ x.cleanRun + 1)) := by
  cases sat with
  | true => simp [pathStep, shadow]
  | false => by_cases clean : 2 ^ k ≤ x.cleanRun + 1 <;> simp [pathStep, shadow, clean]

/-- Settles O48: rounding, saturation and the choice of path by their lemmas, and the two clauses on the output by what
`formOutput` leaves in the slot. -/
theorem loopArithmetic : Obligations.LoopArithmetic := by
  refine ⟨fun p n => ?round, fun v => ?saturate, fun _ _ _ _ _ _ _ _ _ _ _ _ => rfl, fun i ev s settled untested => ?output,
    fun i s pending untested => ?transfer, fun _ sat limit k main => pathStep_of_main main sat limit k,
    fun _ sat limit k shadow => pathStep_of_shadow shadow sat limit k⟩
  case round =>
    obtain ⟨near, tie⟩ := rshe_nearest p n
    exact ⟨near, fun half _ => tie half⟩
  case saturate =>
    obtain ⟨above, below⟩ := clampI_range (lo := -2147483648) (hi := 2147483647) (by decide) v
    exact ⟨above, below, clampI_within, clampI_above (by decide), clampI_below⟩
  case output =>
    obtain ⟨out, -, rampLeft⟩ := s.formOutput_slot i ev
    rw [out, rampLeft, State.begun_settled settled, State.produced_untested untested]
    exact ⟨rfl, rfl⟩
  case transfer =>
    obtain ⟨out, transfer, rampLeft⟩ := s.formOutput_slot i true
    rw [out, transfer, rampLeft, State.begun_offset pending]
    simp [State.begun, pending]

end Sys2Proof.Machine
end

section
/-! SUPPORT. Tests, banks, frozen sections and snapshots of a loop slot (R152, R156, R158 to R160, R167). -/

namespace Sys2Proof.Machine

/-- A control field of something that the configuration uses, written by a session with the right (R496, R499). -/
theorem State.regCmdAt_allowed {s : State} {live : Bool} {n : Fin 64} {c : AccClass} (used : live = true)
    (allowed : s.allows n c = true) (f : State → State) : s.regCmdAt live n c f = f s := by
  rw [used]
  exact State.regCmd_allowed allowed f

/-! What each control field does to its slot. -/

theorem State.testStart_arms {s : State} {i : Fin 64} (slot : s.hasSlot i = true) (test : (s.testRec i.val).isSome = true)
    (run : s.sys.state = .run) (idle : (s.slot i).test.state.live = false) (free : (s.slot i).snapHeld = false)
    (empty : (s.slot i).snapLeft = none) :
    s.testStart i = s.updSlot i fun x => { x with
      displaced := false, test := { state := .pending, notBefore := s.sys.tick + 2 } } := by
  obtain ⟨r, test⟩ := Option.isSome_iff_exists.1 test
  simp [State.testStart, slot, test, run, idle, free, empty]

theorem State.testStart_refuses {s : State} {i : Fin 64} (slot : s.hasSlot i = true)
    (test : (s.testRec i.val).isSome = true)
    (busy : s.sys.state ≠ .run ∨ (s.slot i).test.state.live = true ∨ (s.slot i).snapHeld = true ∨
      (s.slot i).snapLeft.isSome = true) :
    s.testStart i = s.updSlot i fun x => { x with test := { x.test with refused := true } } := by
  obtain ⟨r, test⟩ := Option.isSome_iff_exists.1 test
  simp [State.testStart, slot, test, or_assoc, busy]

theorem State.testAbort_live {s : State} {i : Fin 64} (live : (s.slot i).test.state.live = true) :
    s.testAbort i = (s.updSlot i fun x => { x with
      test := { x.test with state := .aborted, refused := false } }).ev 0x4032 i.val := if_pos live

theorem State.bankPrimary_alternate {s : State} {i : Fin 64} (alternate : (s.slot i).altBank = true) :
    s.bankPrimary i = s.updSlot i fun x => { x with bankReq := some false } := if_pos alternate

theorem State.unfreeze_frozen {s : State} {i : Fin 64} (frozen : (s.slot i).frozen = true) :
    s.unfreeze i = (s.updSlot i fun x => { x with
      frozen := false, freezeReq := none, osc := { x.osc with quiet := 0 } }).ev 0x4014 i.val := if_pos frozen

theorem State.snapRelease_held {s : State} {i : Fin 64} (held : (s.slot i).snapHeld = true) :
    s.snapRelease i = (s.updSlot i fun x => { x with snapHeld := false }).ev 0x4034 i.val := if_pos held

/-! What the slot reports of itself. -/

theorem exec_testStarted_due {i : Fin 64} {s : State} {r : Rec} (test : s.testRec i.val = some r)
    (pending : (s.slot i).test.state = .pending) (due : (s.slot i).test.notBefore ≤ s.sys.tick + 1) :
    exec (.testStarted i) s = .next ((s.updSlot i fun x => { x with
      cap := if s.testCaptures i = true then [] else x.cap
      test := { x.test with state := .running, j := 0, records := 0, phase := 0
                            lfsr := if r.testForm = 1 then 2 ^ r.u8 0x10 - 1 else 0 } }).ev 0x4030 i.val) := by
  show execTestStarted i s = _
  simp [execTestStarted, test, pending, Nat.not_lt.2 due]

theorem exec_testDone_complete {i : Fin 64} {s : State} {r : Rec} (test : s.testRec i.val = some r)
    (running : (s.slot i).test.state = .running) (complete : r.testLen ≤ (s.slot i).test.j) :
    exec (.testDone i) s = .next ((s.updSlot i fun x => { x with
      test := { x.test with state := .done, refused := false } }).ev 0x4031 i.val) := by
  show execTestDone i s = _
  simp [execTestDone, test, running, complete]

theorem exec_integReleased_quiet {i : Fin 64} {s : State} {r : Rec} (slot : s.slotRec i.val = some r)
    (quiet : r.oscWindow ≤ (s.slot i).osc.quiet) : exec (.integReleased i) s = .next (s.unfreeze i) := by
  show execIntegReleased i s = _
  simp [execIntegReleased, slot, quiet]

/-- Settles O10: a control field of a configured slot does what its operation does, and each operation and report by its
equation. -/
theorem testsBanksAndSnapshotsOfASlot : Obligations.TestsBanksAndSnapshotsOfASlot := by
  have written {n i : Fin 64} {s t : State} {f : State → State} (allowed : s.allows n .oa = true)
      (slot : s.hasSlot i = true) (does : f s = t) :
      (.next (s.regCmdAt (s.hasSlot i) n .oa f) : Host.Outcome State Fault Refusal) = .next t :=
    congrArg Host.Outcome.next ((State.regCmdAt_allowed slot allowed f).trans does)
  exact ⟨fun _ _ _ allowed slot test run idle free empty =>
      written allowed slot (State.testStart_arms slot test run idle free empty),
    fun _ _ _ allowed slot test busy => written allowed slot (State.testStart_refuses slot test busy),
    fun _ _ _ => exec_testStarted_due,
    fun _ _ _ => exec_testDone_complete,
    fun _ _ _ allowed slot live => written allowed slot (State.testAbort_live live),
    fun _ _ _ allowed slot alternate => written allowed slot (State.bankPrimary_alternate alternate),
    fun _ _ _ allowed slot frozen => written allowed slot (State.unfreeze_frozen frozen),
    fun _ _ _ slot frozen quiet =>
      (exec_integReleased_quiet slot quiet).trans (congrArg Host.Outcome.next (State.unfreeze_frozen frozen)),
    fun _ _ full => congrArg Host.Outcome.next (if_pos full),
    fun _ _ _ allowed slot held => written allowed slot (State.snapRelease_held held)⟩

end Sys2Proof.Machine
end

section
/-! SUPPORT. LOOP_STATUS (R161). -/

namespace Sys2Proof.Machine

/-- The word of LOOP_STATUS has its five bits where R161 has them, and no others. -/
theorem loopStatus_bits (active : Bool) (groups : Fin 4 → Bool) :
    let v := bitAt active 0 + ((List.finRange 4).map fun g => bitAt (groups g) (4 + g.val)).sum
    tb v 0 = active ∧ fld v 1 3 = 0 ∧ fld v 8 24 = 0 ∧ v < 2 ^ 32 ∧ ∀ g : Fin 4, tb v (4 + g.val) = groups g := by
  revert active groups
  decide

/-- LOOP_STATUS is mapped, is no register of the firmware, and has no writable field. -/
theorem State.regWrite_loopStatus (s : State) (r : Role) (st : DevState) (v : Nat) :
    s.regWrite r st 0x400000 v = (s, none) :=
  s.regWrite_ignored r st v rfl (by decide) (.inl rfl)

/-- Settles O60: its bits, its value after reset, and a write that finds nothing writable. -/
theorem loopStatusRegister : Obligations.LoopStatusRegister :=
  ⟨fun s => ⟨_, rfl, loopStatus_bits s.loop.active fun g => s.loop.basaltGroups[g.val]⟩, rfl,
    fun r st v s => s.regWrite_loopStatus r st v⟩

end Sys2Proof.Machine
end

section
/-! SUPPORT. Groups, phases and brick ports under an update, the events beside one, and folds over phases. -/

namespace Sys2Proof.Machine

/-! The entry an update changes, and the others. -/

@[simp] theorem State.updGrp_same (s : State) (g : Fin 4) (f : Group → Group) : (s.updGrp g f).grp g = f (s.grp g) := by
  rw [State.updGrp_grp, if_pos rfl]

theorem State.updGrp_other {g j : Fin 4} (other : j ≠ g) (s : State) (f : Group → Group) :
    (s.updGrp g f).grp j = s.grp j := by
  rw [State.updGrp_grp, if_neg other.symm]

@[simp] theorem State.updPh_same (s : State) (p : Fin 64) (f : Phase → Phase) : (s.updPh p f).ph p = f (s.ph p) := by
  rw [State.updPh_ph, if_pos rfl]

theorem State.updPh_other {p q : Fin 64} (other : q ≠ p) (s : State) (f : Phase → Phase) :
    (s.updPh p f).ph q = s.ph q := by
  rw [State.updPh_ph, if_neg other.symm]

@[simp] theorem State.updPsu_same (s : State) (p : Fin 16) (f : PsuPort → PsuPort) :
    (s.updPsu p f).psuPort p = f (s.psuPort p) := by
  rw [State.updPsu_psuPort, if_pos rfl]

theorem State.updPsu_other {p q : Fin 16} (other : q ≠ p) (s : State) (f : PsuPort → PsuPort) :
    (s.updPsu p f).psuPort q = s.psuPort q := by
  rw [State.updPsu_psuPort, if_neg other.symm]

/-! What leaves the converters alone leaves their groups, phases and ports. -/

theorem State.grp_of_pwm {s t : State} (same : t.pwm = s.pwm) (j : Fin 4) : t.grp j = s.grp j :=
  congrArg (fun w : Pwm => w.grp[j.val]) same
theorem State.ph_of_pwm {s t : State} (same : t.pwm = s.pwm) (p : Fin 64) : t.ph p = s.ph p :=
  congrArg (fun w : Pwm => w.ph[p.val]) same
theorem State.psuPort_of_pwm {s t : State} (same : t.pwm = s.pwm) (p : Fin 16) : t.psuPort p = s.psuPort p :=
  congrArg (fun w : Pwm => w.psu[p.val]) same

/-! Groups and phases do not disturb one another, and no event disturbs either. -/

@[simp] theorem State.updPh_grp (s : State) (p : Fin 64) (f : Phase → Phase) (j : Fin 4) : (s.updPh p f).grp j = s.grp j := rfl
@[simp] theorem State.updGrp_ph (s : State) (g : Fin 4) (f : Group → Group) (p : Fin 64) : (s.updGrp g f).ph p = s.ph p := rfl

@[simp] theorem State.ev_ph (s : State) (code inst data : Nat) (p : Fin 64) : (s.ev code inst data).ph p = s.ph p :=
  State.ph_of_pwm (s.ev_pwm code inst data) p
@[simp] theorem State.ev_psuPort (s : State) (code inst data : Nat) (p : Fin 16) :
    (s.ev code inst data).psuPort p = s.psuPort p :=
  State.psuPort_of_pwm (s.ev_pwm code inst data) p

/-! Updates that agree on what they change. -/

theorem State.updPh_congr {s : State} {p : Fin 64} {f f' : Phase → Phase} (agree : f (s.ph p) = f' (s.ph p)) :
    s.updPh p f = s.updPh p f' := by
  have entry : f s.pwm.ph[p.val] = f' s.pwm.ph[p.val] := agree
  rw [State.updPh, State.updPh, updV, updV, entry]

theorem State.updPsu_congr {s : State} {p : Fin 16} {f f' : PsuPort → PsuPort}
    (agree : f (s.psuPort p) = f' (s.psuPort p)) : s.updPsu p f = s.updPsu p f' := by
  have entry : f s.pwm.psu[p.val] = f' s.pwm.psu[p.val] := agree
  rw [State.updPsu, State.updPsu, updV, updV, entry]

/-! The recorder reads nothing of the converters (R473). -/

theorem State.SameEv.updGrp {s t : State} (h : s.SameEv t) (g : Fin 4) (f : Group → Group) : s.SameEv (t.updGrp g f) :=
  h.trans ⟨rfl, rfl, rfl, rfl, rfl⟩
theorem State.SameEv.updPh {s t : State} (h : s.SameEv t) (p : Fin 64) (f : Phase → Phase) : s.SameEv (t.updPh p f) :=
  h.trans ⟨rfl, rfl, rfl, rfl, rfl⟩
theorem State.SameEv.updPsu {s t : State} (h : s.SameEv t) (p : Fin 16) (f : PsuPort → PsuPort) :
    s.SameEv (t.updPsu p f) :=
  h.trans ⟨rfl, rfl, rfl, rfl, rfl⟩

theorem State.SameEv.withPwm {s t : State} (h : s.SameEv t) (w : Pwm) : s.SameEv { t with pwm := w } :=
  h.trans ⟨rfl, rfl, rfl, rfl, rfl⟩

/-- An operation that touches the converters alone. -/
theorem State.SameEv.pwm {s t u : State} (h : s.SameEv t) (k : Kept [.pwm] t u) : s.SameEv u := by
  have cfg : u.cfg = t.cfg := k.only .cfg (by decide)
  have evr : u.evr = t.evr := k.only .evr (by decide)
  have sys : u.sys = t.sys := k.only .sys (by decide)
  have clk : u.clk = t.clk := k.only .clk (by decide)
  exact h.trans ⟨by rw [cfg], evr.symm, by rw [sys], by rw [sys], by rw [clk]⟩

/-- An event where the recorder reads what it reads in `s`. -/
theorem State.SameEv.evs {s t : State} (h : s.SameEv t) (code inst data : Nat) :
    (t.ev code inst data).evr = s.evs [(code, inst, data)] :=
  (h.ev code inst data).evr.symm

/-- An update of a group with its event. -/
theorem State.updGrp_ev (s : State) (g : Fin 4) (f : Group → Group) (code inst data : Nat) :
    ((s.updGrp g f).ev code inst data).grp g = f (s.grp g) ∧
    (∀ j, j ≠ g → ((s.updGrp g f).ev code inst data).grp j = s.grp j) ∧
    ((s.updGrp g f).ev code inst data).evr = s.evs [(code, inst, data)] :=
  ⟨by rw [State.ev_grp, State.updGrp_same], fun j other => by rw [State.ev_grp, State.updGrp_other other],
    ((State.SameEv.refl s).updGrp g f).evs code inst data⟩

/-! Every phase at once: what a fold over phases leads to. -/

/-- The state with these phases. -/
def State.withPhases (s : State) (v : Vector Phase 64) : State := { s with pwm := { s.pwm with ph := v } }

@[simp] theorem State.withPhases_ph (s : State) (v : Vector Phase 64) (p : Fin 64) : (s.withPhases v).ph p = v[p.val] := rfl
@[simp] theorem State.withPhases_grp (s : State) (v : Vector Phase 64) (j : Fin 4) : (s.withPhases v).grp j = s.grp j := rfl

theorem State.SameEv.withPhases {s t : State} (h : s.SameEv t) (v : Vector Phase 64) : s.SameEv (t.withPhases v) :=
  h.trans ⟨rfl, rfl, rfl, rfl, rfl⟩

/-- A fold that gives each phase of a list its end, whatever the others have become. -/
theorem State.foldl_phases {f : State → Fin 64 → State} {s : State} {φ : Fin 64 → Phase}
    (step : ∀ (v : Vector Phase 64) (p : Fin 64), v[p.val] = s.ph p →
      f (s.withPhases v) p = (s.withPhases v).updPh p fun _ => φ p)
    {l : List (Fin 64)} (once : l.Nodup) :
    ∃ v, l.foldl f s = s.withPhases v ∧ ∀ p : Fin 64, v[p.val] = if p ∈ l then φ p else s.ph p := by
  suffices general : ∀ l : List (Fin 64), l.Nodup → ∀ v : Vector Phase 64, (∀ p ∈ l, v[p.val] = s.ph p) →
      ∃ w, l.foldl f (s.withPhases v) = s.withPhases w ∧ ∀ p : Fin 64, w[p.val] = if p ∈ l then φ p else v[p.val] from
    general l once s.pwm.ph fun _ _ => rfl
  intro l
  induction l with
  | nil => exact fun _ v _ => ⟨v, rfl, fun p => by simp⟩
  | cons p l ih =>
    intro once v before
    obtain ⟨fresh, once⟩ := List.nodup_cons.1 once
    have untouched : ∀ q ∈ l, (updV v p fun _ => φ p)[q.val] = s.ph q := fun q mem => by
      have other : p.val ≠ q.val := fun same => fresh (Fin.ext same ▸ mem)
      rw [updV_get, if_neg other, before q (List.mem_cons_of_mem _ mem)]
    obtain ⟨w, ends, entries⟩ := ih once _ untouched
    refine ⟨w, ?_, fun q => ?_⟩
    · rw [List.foldl_cons, step v p (before p List.mem_cons_self)]
      exact ends
    · rw [entries q, updV_get]
      by_cases own : q = p
      · simp [own]
      · simp [own, Fin.ext_iff.not.1 (Ne.symm own)]

theorem State.members_nodup (s : State) (g : Nat) : (s.members g).Nodup := (List.nodup_finRange 64).filter _

theorem State.actives_nodup (s : State) (g : Fin 4) : (s.actives g).Nodup := (s.members_nodup g).filter _

end Sys2Proof.Machine
end

section
/-! SUPPORT. The starts, stops and ride-through of a converter group (R174, R180, R186, R192, R194, R418). -/

namespace Sys2Proof.Machine

/-! What reaching RUNNING or OFF lets happen (R186, R418). -/

theorem State.runningCheck_only (s : State) : State.only [.tlk, .evr, .tx] s s.runningCheck :=
  (State.runningCheck_kept s (List.Subset.refl _) .rfl).only

@[simp] theorem State.runningCheck_sys (s : State) : s.runningCheck.sys = s.sys := s.runningCheck_only .sys (by decide)
@[simp] theorem State.runningCheck_pwm (s : State) : s.runningCheck.pwm = s.pwm := s.runningCheck_only .pwm (by decide)

@[simp] theorem State.runningCheck_grp (s : State) (j : Fin 4) : s.runningCheck.grp j = s.grp j :=
  State.grp_of_pwm s.runningCheck_pwm j

@[simp] theorem State.runningCheck_ph (s : State) (p : Fin 64) : s.runningCheck.ph p = s.ph p :=
  State.ph_of_pwm s.runningCheck_pwm p

/-- Without THROTTLE cause 4 there is nothing to clear. -/
theorem State.runningCheck_idle {s : State} (clear : s.tlk.causes[3] = false) : s.runningCheck = s := by
  have stays : s.clearCause 3 = s := if_neg (by simpa using clear)
  rw [State.runningCheck, stays, ite_self]

/-- With nothing waiting for the groups to be OFF. -/
theorem State.groupDone_idle {s : State} (noReset : s.sec.resetReq = none) (noCoolant : s.prot.coolShutdown = false)
    (notShip : s.sys.state ≠ .shipPrep) : s.groupDone = s.runningCheck := by
  have sec : s.runningCheck.sec = s.sec := s.runningCheck_only .sec (by decide)
  have prot : s.runningCheck.prot = s.prot := s.runningCheck_only .prot (by decide)
  exact State.afterOff_idle (by rw [sec, noReset]) (by rw [prot, noCoolant]) (by rwa [s.runningCheck_sys])

/-- With a group that is not OFF. -/
theorem State.groupDone_switching {s : State} {g : Fin 4} (on : (s.grp g).state ≠ .off) : s.groupDone = s.runningCheck := by
  have notAll : s.runningCheck.allOff = false := by
    rw [State.allOff, List.all_eq_false]
    exact ⟨g, List.mem_finRange g, by simpa using on⟩
  rw [State.groupDone, State.afterOff, notAll]
  rfl

/-! A group that goes OFF (R186). -/

/-- A group that leaves diode emulation (R174). -/
def Group.leaveDe (x : Group) : Group := if x.de then { x with de := false, deTicks := 0, deExit := false } else x

theorem Group.leaveDe_de (x : Group) : x.leaveDe.de = false := by
  unfold Group.leaveDe
  split
  · rfl
  · next off => simpa using off

theorem Group.leaveDe_droopDue (x : Group) : x.leaveDe.droopDue = x.droopDue := by
  unfold Group.leaveDe
  split <;> rfl

theorem State.dropDe_grp (s : State) (g j : Fin 4) :
    (s.dropDe g).grp j = if g = j then (s.grp j).leaveDe else s.grp j := by
  unfold State.dropDe Group.leaveDe
  by_cases own : g = j
  · subst own
    rw [if_pos rfl]
    split
    · rw [State.ev_grp, State.updGrp_same]
    · rfl
  · rw [if_neg own]
    split
    · rw [State.ev_grp, State.updGrp_other (Ne.symm own)]
    · rfl

@[simp] theorem State.dropDe_ph (s : State) (g : Fin 4) (p : Fin 64) : (s.dropDe g).ph p = s.ph p := by
  unfold State.dropDe
  split
  · rw [State.ev_ph, State.updGrp_ph]
  · rfl

/-- Each phase of the group halts, and nothing else changes. -/
theorem State.foldl_haltPh (s : State) (g : Fin 4) : ∃ v, (s.members g.val).foldl State.haltPh s = s.withPhases v ∧
    ∀ p : Fin 64, v[p.val] = if p ∈ s.members g.val then (s.cut p s.tickStart (s.ph p)).halt else s.ph p :=
  State.foldl_phases (fun v p own => State.updPh_congr (by rw [State.withPhases_ph, own]; rfl)) (s.members_nodup _)

/-- A group goes OFF: the recorder apart, its phases halt and it is turned off with its driver enable low. -/
theorem State.groupOff_parts (s : State) (g : Fin 4) : ∃ (e : Evr) (v : Vector Phase 64),
    s.groupOff g = (((({ s with evr := e } : State).withPhases v).dropDe g).updGrp g Group.turnOff).setGdrv g false ∧
    ∀ p : Fin 64, v[p.val] = if p ∈ s.members g.val then (s.cut p s.tickStart (s.ph p)).halt else s.ph p := by
  unfold State.groupOff
  lift_lets
  intro gr ended freed halted
  have hended : ∃ e, ended = { s with evr := e } := by
    unfold ended
    split
    · exact ⟨_, s.ev_eq _ _ _⟩
    · exact ⟨_, rfl⟩
  have hfreed : ∃ e, freed = { s with evr := e } := by
    obtain ⟨e, hended⟩ := hended
    unfold freed
    split
    · exact ⟨e, hended⟩
    · exact ⟨_, State.evr_trans (by rw [hended]) (ended.ev_eq _ _ _)⟩
  obtain ⟨e, hfreed⟩ := hfreed
  obtain ⟨v, halts, phases⟩ := ({ s with evr := e } : State).foldl_haltPh g
  refine ⟨e, v, ?_, phases⟩
  rw [← halts, ← hfreed]

@[simp] theorem State.groupOff_grp (s : State) (g j : Fin 4) :
    (s.groupOff g).grp j = if g = j then (s.grp j).leaveDe.turnOff else s.grp j := by
  obtain ⟨e, v, eq, -⟩ := s.groupOff_parts g
  rw [eq, State.setGdrv_grp, State.updGrp_grp, State.dropDe_grp]
  split <;> rfl

theorem State.groupOff_ph (s : State) (g : Fin 4) (p : Fin 64) :
    (s.groupOff g).ph p = if p ∈ s.members g.val then (s.cut p s.tickStart (s.ph p)).halt else s.ph p := by
  obtain ⟨e, v, eq, phases⟩ := s.groupOff_parts g
  have entry : (((({ s with evr := e } : State).withPhases v).dropDe g).ph p) = v[p.val] := by
    rw [State.dropDe_ph, State.withPhases_ph]
  rw [eq, ← phases p]
  exact entry

theorem State.groupOff_gdrvEn (s : State) (g : Fin 4) : (s.groupOff g).sys.gdrvEn[g.val] = false := by
  simp [State.groupOff, State.setGdrv]

theorem exec_groupRunning_ramped {g : Fin 4} {s : State} (soft : (s.grp g).state = .softStart) (ramped : s.rampOver g = true) :
    Gives (.groupRunning g) s fun t =>
      t.grp g = { s.grp g with state := .running, rampLeft := 0 } ∧ (∀ j, j ≠ g → t.grp j = s.grp j) ∧
      t.pwm.ph = s.pwm.ph ∧
      (s.tlk.causes[3] = false → t.evr = s.evs [(0x5002, 0x0100 + g.val, 0)]) := by
  have next : exec (.groupRunning g) s = .next
      ((s.updGrp g fun x => { x with state := .running, rampLeft := 0 }).ev 0x5002 (grpInst g.val)).runningCheck :=
    congrArg Host.Outcome.next (if_pos (by simp [soft, ramped]))
  obtain ⟨own, others, evr⟩ :=
    s.updGrp_ev g (fun x => { x with state := .running, rampLeft := 0 }) 0x5002 (grpInst g.val) 0
  refine ⟨_, next, ?_, fun j other => ?_, ?_, fun clear => ?_⟩
  · rw [State.runningCheck_grp, own]
  · rw [State.runningCheck_grp, others j other]
  · rw [State.runningCheck_pwm, State.ev_pwm]
    rfl
  · rw [State.runningCheck_idle (by rw [State.ev_tlk, State.updGrp_tlk, clear]), evr]
    rfl

theorem exec_groupStopped_off {g : Fin 4} {s : State} (stopping : (s.grp g).state = .stopping) (may : s.mayStop g = true)
    (noReset : s.sec.resetReq = none) (noCoolant : s.prot.coolShutdown = false) (notShip : s.sys.state ≠ .shipPrep) :
    Gives (.groupStopped g) s fun t =>
      (t.grp g).state = .off ∧ t.sys.gdrvEn[g.val] = false ∧ (t.grp g).framing = false ∧ (t.grp g).iRef = 0 ∧
      (t.grp g).de = false ∧ (t.grp g).sync = .free ∧
      (∀ j, j ≠ g → t.grp j = s.grp j) ∧ (∀ p ∈ s.members g.val, (t.ph p).iPk = 0) ∧ t.sys.state = s.sys.state := by
  have kept : Kept [.sys, .pwm, .evr] s ((s.groupOff g).ev 0x5003 (grpInst g.val)) :=
    State.ev_kept _ _ _ _ (by decide) (State.groupOff_kept _ _ (List.Subset.refl _) .rfl)
  obtain ⟨gdrv, sys⟩ := s.groupOff_sys g
  have idle : ((s.groupOff g).ev 0x5003 (grpInst g.val)).groupDone =
      ((s.groupOff g).ev 0x5003 (grpInst g.val)).runningCheck := by
    refine State.groupDone_idle ?_ ?_ ?_
    · rw [show _ = s.sec from kept.only .sec (by decide), noReset]
    · rw [show _ = s.prot from kept.only .prot (by decide), noCoolant]
    · rw [State.ev_sys, sys]
      exact notShip
  have next : exec (.groupStopped g) s = .next ((s.groupOff g).ev 0x5003 (grpInst g.val)).runningCheck :=
    congrArg Host.Outcome.next ((if_pos (by simp [stopping, may])).trans idle)
  have group : ((s.groupOff g).ev 0x5003 (grpInst g.val)).runningCheck.grp g = (s.grp g).leaveDe.turnOff := by
    rw [State.runningCheck_grp, State.ev_grp, State.groupOff_grp, if_pos rfl]
  refine ⟨_, next, ?_, ?_, ?_, ?_, ?_, ?_, fun j other => ?_, fun p member => ?_, ?_⟩
  · rw [group]; rfl
  · rw [State.runningCheck_sys, State.ev_sys, State.groupOff_gdrvEn]
  · rw [group]; rfl
  · rw [group]; rfl
  · rw [group]; exact Group.leaveDe_de _
  · rw [group]; rfl
  · rw [State.runningCheck_grp, State.ev_grp, State.groupOff_grp, if_neg other.symm]
  · rw [State.runningCheck_ph, State.ev_ph, State.groupOff_ph, if_pos member]; rfl
  · rw [State.runningCheck_sys, State.ev_sys, sys]

/-! Diode emulation (R174). -/

theorem exec_deEntered_due {g : Fin 4} {s : State}
    (referenced : (s.grp g).state = .softStart ∨ (s.grp g).state = .running ∨ (s.grp g).state = .stopping)
    (continuous : (s.grp g).de = false) (light : 16 ≤ (s.grp g).deTicks) (enabled : s.deEnter g.val ≠ 0) :
    exec (.deEntered g) s = .next ((s.updGrp g fun x => { x with de := true, deExit := false }).ev 0x5050 (grpInst g.val)) :=
  congrArg Host.Outcome.next (if_pos (by simpa [continuous, light, enabled, or_assoc] using referenced))

theorem exec_deLeft_due {g : Fin 4} {s : State} (emulating : (s.grp g).de = true) (leaves : (s.grp g).deExit = true) :
    exec (.deLeft g) s = .next
      ((s.updGrp g fun x => { x with de := false, deTicks := 0, deExit := false }).ev 0x5051 (grpInst g.val)) :=
  congrArg Host.Outcome.next ((if_pos leaves).trans (if_pos emulating))

/-! The fast path begins (R192). -/

/-- Which rank claims the gates of a phase does not depend on the other phases (R193). -/
theorem State.gatesOff_withPhases {s : State} {v : Vector Phase 64} {p : Fin 64} (own : v[p.val] = s.ph p) :
    (s.withPhases v).gatesOff p = s.gatesOff p := by
  have ph : (s.withPhases v).ph p = s.ph p := own
  simp only [State.gatesOff, State.gateRank, ph]
  rfl

/-- A phase at the start of the fast path. -/
def State.fastStarted (s : State) (t : Nat) (p : Fin 64) : Phase :=
  { s.cut p t (s.ph p) with
    iPkCycle := s.peakLimit p.val, mode := .discharge, offset := 0, offsetFrom := 0, fpSteps := 4, due := []
    cyc := if s.gatesOff p = true then none else some { onAt := t }
    edges := if s.gatesOff p = true then (s.ph p).edges else t :: (s.ph p).edges }

theorem State.foldl_fastStart (s : State) (g : Fin 4) (t : Nat) :
    ∃ v, (s.actives g).foldl (fun u p => u.fastStart t p) s = s.withPhases v ∧
      ∀ p : Fin 64, v[p.val] = if p ∈ s.actives g then s.fastStarted t p else s.ph p := by
  refine State.foldl_phases (fun v p own => ?_) (s.actives_nodup g)
  refine State.updPh_congr (s := s.withPhases v) ?_
  rw [State.gatesOff_withPhases own, State.withPhases_ph, own]
  rfl

theorem exec_uvFastpath_armed {g : Fin 4} {at_ : Nat} {s : State} (armed : (s.grp g).fpArmed = true)
    (ready : (s.grp g).state = .softStart ∨ (s.grp g).state = .running ∨ (s.grp g).state = .basalt) :
    Gives (.uvFastpath g at_) s fun t =>
      t.grp g = { s.grp g with state := .fastPath, fpReturn := (s.grp g).state, fpCount := bump 16 (s.grp g).fpCount
                               fpArmed := false, fpGood := 0, fpAt := s.instant at_
                               ons := insertAsc (s.instant at_) ((s.grp g).ons.filter fun u => decide (u < s.instant at_)) } ∧
      (∀ j, j ≠ g → t.grp j = s.grp j) ∧
      (∀ p ∈ s.actives g, t.ph p = s.fastStarted (s.instant at_) p) ∧
      (∀ p, p ∉ s.actives g → t.ph p = s.ph p) ∧ t.evr = s.evs [(0x5040, 0x0100 + g.val, 0)] := by
  obtain ⟨v, starts, phases⟩ := s.foldl_fastStart g (s.instant at_)
  have next : exec (.uvFastpath g at_) s = .next (((s.withPhases v).updGrp g fun x =>
      { x with state := .fastPath, fpReturn := (s.grp g).state, fpAt := s.instant at_, fpCount := bump 16 x.fpCount
               ons := insertAsc (s.instant at_) (x.ons.filter fun u => decide (u < s.instant at_))
               fpArmed := false, fpGood := 0 }).ev 0x5040 (grpInst g.val)) := by
    rw [← starts]
    exact congrArg Host.Outcome.next (if_pos (by simpa [armed, or_assoc] using ready))
  refine ⟨_, next, ?_, fun j other => ?_, fun p active => ?_, fun p idle => ?_, ?_⟩
  · rw [State.ev_grp, State.updGrp_same]
    rfl
  · rw [State.ev_grp, State.updGrp_other other, State.withPhases_grp]
  · rw [State.ev_ph, State.updGrp_ph, State.withPhases_ph, phases, if_pos active]
  · rw [State.ev_ph, State.updGrp_ph, State.withPhases_ph, phases, if_neg idle]
  · exact (((State.SameEv.refl s).withPhases v).updGrp _ _).evs _ _ _

/-! THROTTLE that a group requests (R192, R194, R272). -/

/-- THROTTLE goes out on every port; the causes stay. -/
theorem State.throttleEvery_tlk (s : State) (cause : Nat) :
    (s.throttleEvery cause).tlk.causes = s.tlk.causes ∧ (s.throttleEvery cause).tlk.throttleAll = true :=
  Prod.mk.inj (foldl_same (fun t : State => (t.tlk.causes, t.tlk.throttleAll))
    (f := fun t n => t.throttleOut n cause 0) (fun _ _ => rfl) (s.portsWhere Port.carriesSets) _)

/-- A trigger for all ports puts its cause, and THROTTLE on all ports, in force. -/
theorem State.throttleAllPorts_tlk (s : State) (cause : Fin 7) :
    (s.throttleAllPorts cause).tlk.causes[cause.val] = true ∧ (s.throttleAllPorts cause).tlk.throttleAll = true := by
  unfold State.throttleAllPorts
  extract_lets tlk raised sent
  have hraised : raised.tlk.causes[cause.val] = true := by simp [raised]
  simp only [State.ev_tlk, sent]
  split
  · next all =>
    have inForce : s.tlk.throttleAll = true := (Bool.and_eq_true_iff.1 all).1
    exact ⟨hraised, inForce⟩
  · obtain ⟨causes, inForce⟩ := raised.throttleEvery_tlk (cause.val + 1)
    exact ⟨by simpa only [causes] using hraised, inForce⟩

/-- The group notes what it has requested, and THROTTLE is in force with its cause. -/
theorem State.requestThrottle_does (s : State) (g : Fin 4) (uv : Bool) :
    (s.requestThrottle g uv).grp g =
      (if uv = true then { s.grp g with uvReq := true } else { s.grp g with lossReq := true }) ∧
    (∀ j, j ≠ g → (s.requestThrottle g uv).grp j = s.grp j) ∧
    (s.requestThrottle g uv).tlk.causes[(if uv then 0 else 1 : Fin 7).val] = true ∧
    (s.requestThrottle g uv).tlk.throttleAll = true := by
  have pwm (t : State) (cause : Fin 7) : (t.throttleAllPorts cause).pwm = t.pwm :=
    (State.throttleAllPorts_kept t cause (List.Subset.refl _) .rfl).only .pwm (by decide)
  have grp (t : State) (cause : Fin 7) (j : Fin 4) : (t.throttleAllPorts cause).grp j = t.grp j :=
    State.grp_of_pwm (pwm t cause) j
  refine ⟨?_, fun j other => ?_, State.throttleAllPorts_tlk _ _⟩
  · rw [State.requestThrottle, grp, State.ev_grp, State.updGrp_same]
  · rw [State.requestThrottle, grp, State.ev_grp, State.updGrp_other other]

theorem exec_throttleRequested_late {g : Fin 4} {s : State} (fast : (s.grp g).state = .fastPath)
    (late : s.clk.fabricStopped = true ∨ (s.grp g).fpAt + 160000 ≤ 80000 * (s.sys.tick + 1)) :
    Gives (.throttleRequested g) s fun t =>
      t.grp g = { s.grp g with uvReq := true } ∧ (∀ j, j ≠ g → t.grp j = s.grp j) ∧ t.tlk.causes[0] = true ∧
      t.tlk.throttleAll = true :=
  ⟨_, congrArg Host.Outcome.next (if_pos (by simpa [fast] using late)), s.requestThrottle_does g true⟩

/-- A check that is due leaves the list of those that wait, and finds the bus as it is. -/
theorem exec_disableDroopCheck_due {g : Fin 4} {d : Nat} {l : List Nat} {s : State} (head : (s.grp g).droopDue = d :: l)
    (due : d ≤ s.sys.tick) : exec (.disableDroopCheck g) s = .next
      (if s.droops g = true then (s.updGrp g fun x => { x with droopDue := l }).requestThrottle g false
       else s.updGrp g fun x => { x with droopDue := l }) := by
  have same : (s.updGrp g fun x => { x with droopDue := l }).droops g = s.droops g := by
    simp only [State.droops, State.updGrp_same]
  show execDisableDroopCheck g s = _
  simp only [execDisableDroopCheck, head, if_neg (Nat.not_lt.2 due), same]

theorem exec_disableDroopCheck_droops {g : Fin 4} {d : Nat} {l : List Nat} {s : State}
    (head : (s.grp g).droopDue = d :: l) (due : d ≤ s.sys.tick) (droops : s.droops g = true) :
    Gives (.disableDroopCheck g) s fun t =>
      t.grp g = { s.grp g with droopDue := l, lossReq := true } ∧ (∀ j, j ≠ g → t.grp j = s.grp j) ∧
      t.tlk.causes[1] = true ∧ t.tlk.throttleAll = true := by
  obtain ⟨own, others, inForce⟩ := (s.updGrp g fun x => { x with droopDue := l }).requestThrottle_does g false
  refine ⟨_, (exec_disableDroopCheck_due head due).trans (congrArg Host.Outcome.next (if_pos droops)), ?_,
    fun j other => ?_, inForce⟩
  · rw [own, State.updGrp_same]
    rfl
  · rw [others j other, State.updGrp_other other]

/-! A re-interleave (R180), and the way back from the fast path (R192). -/

/-- A phase without the places it has, comes from and moves to. -/
def Phase.unplaced (x : Phase) : Phase := { x with offset := 0, offsetFrom := 0, offsetTo := 0 }

/-- Phases that differ in their places alone agree on all else. -/
theorem Phase.eq_of_unplaced {x y : Phase} (h : x.unplaced = y.unplaced) {β : Type} (π : Phase → β)
    (blind : ∀ z : Phase, π z.unplaced = π z) : π x = π y := by
  rw [← blind x, h, blind y]

/-- A re-interleave that begins changes nothing of a phase but its places. -/
theorem State.reinterleave_unplaced (s : State) (g : Fin 4) (p : Fin 64) :
    ((s.reinterleave g).ph p).unplaced = (s.ph p).unplaced := by
  unfold State.reinterleave
  extract_lets l n period moved
  rw [State.updGrp_ph]
  refine foldl_same (fun t : State => (t.ph p).unplaced) (fun t x => ?_) _ s
  rw [State.updPh_ph]
  split
  · rfl
  · rfl

theorem State.reinterleave_grp (s : State) (g j : Fin 4) : (s.reinterleave g).grp j =
    if g = j then { s.grp j with reinterleave := true, reSteps := 0 } else s.grp j := by
  unfold State.reinterleave
  extract_lets l n period moved
  have same : moved.grp j = s.grp j := by
    unfold moved
    exact foldl_same (fun t : State => t.grp j) (fun t (x : Fin 64 × Nat) => State.updPh_grp t x.1 _ j) _ s
  rw [State.updGrp_grp, same]

theorem State.SameEv.reinterleave {s t : State} (h : s.SameEv t) (g : Fin 4) : s.SameEv (t.reinterleave g) :=
  h.pwm (State.reinterleave_kept t g (List.Subset.refl _) .rfl)

theorem exec_uvFastpathEnd_running {g : Fin 4} {v : Int} {s : State} (fast : (s.grp g).state = .fastPath)
    (back : (s.grp g).fpReturn = .running)
    (ended : (s.grp g).fpThr + 5000 < v ∨ (s.grp g).fpAt + 800000 ≤ 80000 * (s.sys.tick + 1)) :
    Gives (.uvFastpathEnd g v) s fun t =>
      (t.grp g).state = .running ∧ (t.grp g).reinterleave = true ∧ (t.grp g).reSteps = 0 ∧
      (∀ p, (t.ph p).fpSteps = (s.ph p).fpSteps ∧ (t.ph p).iPk = (s.ph p).iPk ∧ (t.ph p).cyc = (s.ph p).cyc) ∧
      (∀ j, j ≠ g → t.grp j = s.grp j) ∧ (s.tlk.causes[3] = false → t.evr = s.evs [(0x5041, 0x0100 + g.val, 0)]) := by
  have ends : (decide ((s.grp g).fpThr + 5000 < v) || s.clk.fabricStopped
      || decide ((s.grp g).fpAt + fastMax ≤ 80000 * (s.sys.tick + 1))) = true := by
    rcases ended with high | late
    · simp [high]
    · simp [fastMax, late]
  obtain ⟨u, hu⟩ : ∃ u, u = s.updGrp g fun x => { x with state := x.fpReturn, fpGood := 0 } := ⟨_, rfl⟩
  have next : exec (.uvFastpathEnd g v) s = .next ((u.reinterleave g).ev 0x5041 (grpInst g.val)).runningCheck := by
    rw [hu]
    refine congrArg Host.Outcome.next ((if_pos (by rw [ends]; simpa using fast)).trans ?_)
    rw [State.fastEnd, if_pos fast]
  have group : ((u.reinterleave g).ev 0x5041 (grpInst g.val)).runningCheck.grp g =
      { s.grp g with state := (s.grp g).fpReturn, fpGood := 0, reinterleave := true, reSteps := 0 } := by
    rw [State.runningCheck_grp, State.ev_grp, State.reinterleave_grp, if_pos rfl, hu, State.updGrp_same]
  have phase (p : Fin 64) : (((u.reinterleave g).ev 0x5041 (grpInst g.val)).runningCheck.ph p).unplaced =
      (s.ph p).unplaced := by
    rw [State.runningCheck_ph, State.ev_ph, State.reinterleave_unplaced, hu, State.updGrp_ph]
  refine ⟨_, next, (congrArg Group.state group).trans back, congrArg Group.reinterleave group, congrArg Group.reSteps group,
    fun p => ⟨Phase.eq_of_unplaced (phase p) Phase.fpSteps fun _ => rfl,
      Phase.eq_of_unplaced (phase p) Phase.iPk fun _ => rfl, Phase.eq_of_unplaced (phase p) Phase.cyc fun _ => rfl⟩,
    fun j other => ?_, fun clear => ?_⟩
  · rw [State.runningCheck_grp, State.ev_grp, State.reinterleave_grp, if_neg other.symm, hu, State.updGrp_other other]
  · have tlk : (u.reinterleave g).tlk = s.tlk := by
      rw [hu]
      exact (State.reinterleave_kept _ g (List.Subset.refl _) .rfl).only .tlk (by decide)
    rw [State.runningCheck_idle (by rw [State.ev_tlk, tlk, clear]), hu]
    exact (((State.SameEv.refl s).updGrp _ _).reinterleave g).evs _ _ _

theorem Phase.cycleEnds_fpSteps (x : Phase) (on_ dead : Nat) : (x.cycleEnds on_ dead).fpSteps = x.fpSteps := by
  unfold Phase.cycleEnds
  split <;> rfl

theorem Phase.cycleEnds_iPk (x : Phase) (on_ dead : Nat) : (x.cycleEnds on_ dead).iPk = x.iPk := by
  unfold Phase.cycleEnds
  split <;> rfl

/-- A cycle on the way back from the fast path takes its step of the reference. -/
theorem State.cycleStart_returning {s : State} {p : Fin 64} (dead on_ : Nat) (sits : (s.ph p).sitOut = 0)
    (steps : (s.ph p).fpSteps ≠ 0) :
    ((s.cycleStart p false false dead on_).ph p).fpSteps = (s.ph p).fpSteps - 1 ∧
    ((s.cycleStart p false false dead on_).ph p).iPkCycle =
      s.peakLimit p.val + divHE (((s.ph p).iPk - s.peakLimit p.val) * (5 - ((s.ph p).fpSteps : Int))) 4 := by
  simp [State.cycleStart, Phase.cycleEnds_fpSteps, Phase.cycleEnds_iPk, sits, steps]

/-- The last step of a re-interleave: the phase is in its place, and counts where it was joining. -/
def Phase.placed (x : Phase) : Phase :=
  { x with offset := x.offsetTo, offsetFrom := x.offsetTo, active := x.active || x.joining, joining := false }

theorem State.foldl_placed (s : State) (g : Fin 4) :
    ∃ v, (s.members g.val).foldl (fun u p => u.updPh p Phase.placed) s = s.withPhases v ∧
      ∀ p : Fin 64, v[p.val] = if p ∈ s.members g.val then (s.ph p).placed else s.ph p :=
  State.foldl_phases (fun v p own => State.updPh_congr (by rw [State.withPhases_ph, own])) (s.members_nodup _)

theorem exec_reinterleaved_last {g : Fin 4} {s : State} (moving : (s.grp g).reinterleave = true)
    (third : (s.grp g).reSteps = 3) :
    Gives (.reinterleaved g) s fun t =>
      t.grp g = { s.grp g with reinterleave := false, reSteps := 4 } ∧ (∀ j, j ≠ g → t.grp j = s.grp j) ∧
      (∀ p ∈ s.members g.val, t.ph p = (s.ph p).placed) ∧ t.evr = s.evs [(0x5012, 0x0100 + g.val, 0)] := by
  obtain ⟨v, moves, phases⟩ := s.foldl_placed g
  have next : exec (.reinterleaved g) s = .next (((s.withPhases v).updGrp g fun x =>
      { x with reinterleave := false, reSteps := 4 }).ev 0x5012 (grpInst g.val)) := by
    rw [← moves]
    exact congrArg Host.Outcome.next (if_neg (by simp [moving, third]))
  refine ⟨_, next, ?_, fun j other => ?_, fun p member => ?_, ?_⟩
  · rw [State.ev_grp, State.updGrp_same, State.withPhases_grp]
  · rw [State.ev_grp, State.updGrp_other other, State.withPhases_grp]
  · rw [State.ev_ph, State.updGrp_ph, State.withPhases_ph, phases, if_pos member]
  · exact (((State.SameEv.refl s).withPhases v).updGrp _ _).evs _ _ _

/-- Settles O11: each command of a group by its equation, its phases followed through the folds over them. -/
theorem groupsStartStopAndRideThrough : Obligations.GroupsStartStopAndRideThrough :=
  ⟨fun _ _ => exec_groupRunning_ramped,
    fun _ _ => exec_groupStopped_off,
    fun g s referenced continuous light enabled =>
      ⟨_, exec_deEntered_due referenced continuous light enabled, s.updGrp_ev g _ 0x5050 (grpInst g.val) 0⟩,
    fun g s emulating leaves => ⟨_, exec_deLeft_due emulating leaves, s.updGrp_ev g _ 0x5051 (grpInst g.val) 0⟩,
    fun _ _ _ => exec_uvFastpath_armed,
    fun _ _ => exec_throttleRequested_late,
    fun _ _ _ => exec_uvFastpathEnd_running,
    fun _ dead on_ _ => State.cycleStart_returning dead on_,
    fun _ _ => exec_reinterleaved_last,
    fun _ _ _ _ head due steady => (exec_disableDroopCheck_due head due).trans
      (congrArg Host.Outcome.next (if_neg (by simp [steady]))),
    fun _ _ _ _ => exec_disableDroopCheck_droops⟩

end Sys2Proof.Machine
end

section
/-! SUPPORT. Faults, disables and re-admissions of a phase (R187, R188, R194, R196, R404). -/

namespace Sys2Proof.Machine

/-! Cycles that are cut off. -/

/-- What does not speak of the cycles of a phase is as it was before they were cut off. -/
theorem Phase.cutAt_keeps (x : Phase) (t dead : Nat) (fast : Bool) {β : Type} (π : Phase → β)
    (blind : ∀ (z : Phase) cyc due charge past, π { z with cyc := cyc, due := due, charge := charge, past := past } = π z) :
    π (x.cutAt t dead fast) = π x := by
  unfold Phase.cutAt
  extract_lets due later
  split
  · rfl
  · exact blind x _ _ _ _

/-- GDRV_FLT plays no part in how cycles are cut off. -/
theorem Phase.cutAt_fltLow (x : Phase) (low : Bool) (t dead : Nat) (fast : Bool) :
    ({ x with fltLow := low } : Phase).cutAt t dead fast = { x.cutAt t dead fast with fltLow := low } := by
  unfold Phase.cutAt
  dsimp only
  split
  · rfl
  · rfl

/-! What depends on the configuration alone (R170). -/

theorem State.phaseGroup_of_cfg {s t : State} (same : t.cfg = s.cfg) (p : Nat) : t.phaseGroup p = s.phaseGroup p := by
  simp only [State.phaseGroup, State.grpRec, State.rec8, State.recs, same]

theorem State.members_of_cfg {s t : State} (same : t.cfg = s.cfg) (g : Nat) : t.members g = s.members g := by
  simp only [State.members, State.grpRec, State.rec8, State.recs, same]

theorem State.mem_actives {s : State} {g : Fin 4} {p : Fin 64} :
    p ∈ s.actives g ↔ p ∈ s.members g.val ∧ (s.ph p).active = true := List.mem_filter

/-! A disable is asked for (R194). -/

/-- While its group switches, a phase is to be disabled at its next cycle boundary. -/
theorem State.requestDisable_switching {s : State} {p : Fin 64} {g : Fin 4} (cause : PhCause)
    (group : s.phaseGroup p.val = some g) (on : (s.grp g).state.switching = true) (enabled : (s.ph p).disabled = false)
    (free : (s.ph p).disableReq = .none) : s.requestDisable p cause = s.updPh p fun x => { x with disableReq := cause } := by
  unfold State.requestDisable
  simp only [group, enabled, on, Bool.false_eq_true, if_false, if_true]
  exact State.updPh_congr (if_pos free)

theorem exec_phaseOpen_lasting {p : Fin 64} {g : Fin 4} {s : State} (group : s.phaseGroup p.val = some g)
    (on : (s.grp g).state.switching = true) (active : (s.ph p).active = true) (enabled : (s.ph p).disabled = false)
    (free : (s.ph p).disableReq = .none) (lasting : (s.grp g).faultNow.openCycles ≤ (s.ph p).openRun) :
    exec (.phaseOpen p) s = .next (s.updPh p fun x => { x with disableReq := .phaseOpen }) := by
  show execPhaseOpen p s = _
  simp only [execPhaseOpen, group, active, lasting, decide_true, Bool.and_self, if_true]
  rw [State.requestDisable_switching _ group on enabled free]

theorem exec_senseSuspect_lasting {p : Fin 64} {g : Fin 4} {s : State} (group : s.phaseGroup p.val = some g)
    (on : (s.grp g).state.switching = true) (active : (s.ph p).active = true) (enabled : (s.ph p).disabled = false)
    (free : (s.ph p).disableReq = .none) (lasting : 500 * (s.grp g).faultNow.suspectMs ≤ (s.ph p).suspect) :
    exec (.senseSuspect p) s = .next (s.updPh p fun x => { x with disableReq := .senseSuspect }) := by
  show execSenseSuspect p s = _
  simp only [execSenseSuspect, group, active, lasting, decide_true, Bool.and_self, if_true]
  rw [State.requestDisable_switching _ group on enabled free]

theorem exec_disable_allowed {sess p : Fin 64} {g : Fin 4} {s : State} (allowed : s.allows sess .osar = true)
    (group : s.phaseGroup p.val = some g) (on : (s.grp g).state.switching = true) (enabled : (s.ph p).disabled = false)
    (free : (s.ph p).disableReq = .none) :
    exec (.disable sess p) s = .next (s.updPh p fun x => { x with disableReq := .operator }) :=
  congrArg Host.Outcome.next ((State.regCmdAt_allowed (by rw [group]; rfl) allowed _).trans
    (State.requestDisable_switching _ group on enabled free))

/-- GDRV_FLT goes low: the cycles of the phase are cut off, and it is to be disabled (R188). -/
theorem exec_driverFault_low {p : Fin 64} {g : Fin 4} {at_ : Nat} {s : State} (group : s.phaseGroup p.val = some g)
    (on : (s.grp g).state.switching = true) (high : (s.ph p).fltLow = false) (enabled : (s.ph p).disabled = false)
    (free : (s.ph p).disableReq = .none) :
    Gives (.driverFault p true at_) s fun t =>
      t.ph p = { s.cut p (s.instant at_) (s.ph p) with fltLow := true, disableReq := .driverFault } ∧
      (∀ q, q ≠ p → t.ph q = s.ph q) ∧ t.evr = s.evs [(0x5021, p.val, 0)] := by
  obtain ⟨u, hu⟩ : ∃ u, u = (((s.updPh p fun x => { x with fltLow := true }).updPh p (s.cut p (s.instant at_))).ev
    0x5021 p.val) := ⟨_, rfl⟩
  have cfg : u.cfg = s.cfg := by rw [hu, State.ev_cfg, State.updPh_cfg, State.updPh_cfg]
  have grp : u.grp g = s.grp g := by rw [hu, State.ev_grp, State.updPh_grp, State.updPh_grp]
  have phase : u.ph p = { s.cut p (s.instant at_) (s.ph p) with fltLow := true } := by
    rw [hu, State.ev_ph, State.updPh_same, State.updPh_same]
    exact Phase.cutAt_fltLow _ _ _ _ _
  have others (q : Fin 64) (other : q ≠ p) : u.ph q = s.ph q := by
    rw [hu, State.ev_ph, State.updPh_other other, State.updPh_other other]
  have request : u.requestDisable p .driverFault = u.updPh p fun x => { x with disableReq := .driverFault } := by
    refine State.requestDisable_switching _ ((State.phaseGroup_of_cfg cfg _).trans group) (by rw [grp, on]) ?_ ?_
    · rw [phase]
      exact (Phase.cutAt_keeps (s.ph p) _ _ _ Phase.disabled fun _ _ _ _ _ => rfl).trans enabled
    · rw [phase]
      exact (Phase.cutAt_keeps (s.ph p) _ _ _ Phase.disableReq fun _ _ _ _ _ => rfl).trans free
  have next : exec (.driverFault p true at_) s = .next (u.updPh p fun x => { x with disableReq := .driverFault }) := by
    rw [← request, hu]
    exact congrArg Host.Outcome.next (if_pos (by simp [high, State.phaseGroup_of_cfg (State.updPh_cfg s p _), group]))
  refine ⟨_, next, ?_, fun q other => ?_, ?_⟩
  · rw [State.updPh_same, phase]
  · rw [State.updPh_other other, others q other]
  · rw [State.updPh_evr, hu]
    exact (((State.SameEv.refl s).updPh _ _).updPh _ _).evs _ _ _

/-! A short circuit (R187, R404, R427). -/

/-- A code within the comparator's level brings nothing about. -/
theorem exec_shortCircuit_within {p : Fin 64} {code : Int} {at_ : Nat} {s : State} (within : s.scActs p code = false) :
    exec (.shortCircuit p code at_) s = .next s := by
  show execShortCircuit p code at_ s = _
  unfold execShortCircuit
  split
  · rfl
  · simp [within]

theorem State.SameEv.withProt {s t : State} (h : s.SameEv t) (x : Prot) : s.SameEv { t with prot := x } :=
  h.trans ⟨rfl, rfl, rfl, rfl, rfl⟩

/-- A trip touches the records of PROT and the recorder, counts itself, and has its event. -/
theorem State.tripV_does {s t : State} (h : s.SameEv t) (code inst detail : Nat) (value limit : Int) (evInst : Nat) :
    (t.tripV code inst detail value limit evInst).pwm = t.pwm ∧
    (t.tripV code inst detail value limit evInst).prot.tripCount = bump 32 t.prot.tripCount ∧
    (t.tripV code inst detail value limit evInst).evr = s.evs [(code, evInst, codeS 32 (sat32 value))] := by
  unfold State.tripV State.trip
  extract_lets record
  refine ⟨State.ev_pwm _ _ _ _, ?_, (h.withProt _).evs _ _ _⟩
  rw [State.ev_prot]

/-- A phase as its short-circuit comparator trips at instant `t`. -/
def State.scTripped (s : State) (p : Fin 64) (t : Nat) (x : Phase) : Phase :=
  { s.cut p t x with sitOut := 2, scCount := bump 16 x.scCount
                     scTicks := s.sys.tick :: x.scTicks.filter fun v => s.sys.tick < v + msTicks }

/-- The first of several trips that the group allows. -/
theorem exec_shortCircuit_first {p : Fin 64} {g : Fin 4} {code : Int} {at_ : Nat} {s : State}
    (group : s.phaseGroup p.val = some g) (first : (s.ph p).scTicks = []) (acts : s.scActs p code = true)
    (more : 1 < (s.grp g).faultNow.scRetries) :
    Gives (.shortCircuit p code at_) s fun t =>
      t.ph p = { s.cut p (s.instant at_) (s.ph p) with
        sitOut := 2, scCount := bump 16 (s.ph p).scCount, scTicks := [s.sys.tick] } ∧
      t.prot.tripCount = bump 32 s.prot.tripCount ∧ (∀ q, q ≠ p → t.ph q = s.ph q) ∧
      t.evr = s.evs [(0x5020, p.val, codeS 32 (sat32 (s.senseCurrent p code)))] := by
  obtain ⟨u, hu⟩ : ∃ u, u = s.updPh p (s.scTripped p (s.instant at_)) := ⟨_, rfl⟩
  have same : s.SameEv u := hu ▸ (State.SameEv.refl s).updPh _ _
  have sense : u.senseCurrent p code = s.senseCurrent p code := by rw [hu]; rfl
  have phase : u.ph p = { s.cut p (s.instant at_) (s.ph p) with
      sitOut := 2, scCount := bump 16 (s.ph p).scCount, scTicks := [s.sys.tick] } := by
    rw [hu, State.updPh_same, State.scTripped, first]
    rfl
  obtain ⟨pwm, count, evr⟩ := State.tripV_does same 0x5020 g.val 0 (s.senseCurrent p code) (u.limit 1) p.val
  obtain ⟨t, ht⟩ : ∃ t, t = u.tripV 0x5020 g.val 0 (s.senseCurrent p code) (u.limit 1) p.val := ⟨_, rfl⟩
  rw [← ht] at pwm count evr
  have tph (q : Fin 64) : t.ph q = u.ph q := State.ph_of_pwm pwm q
  have tgrp : t.grp g = s.grp g := (State.grp_of_pwm pwm g).trans (by rw [hu, State.updPh_grp])
  have few : ¬ (t.grp g).faultNow.scRetries ≤ (t.ph p).scTicks.length := by
    rw [tph, phase, tgrp]
    exact Nat.not_le.2 more
  have next : exec (.shortCircuit p code at_) s = .next t := by
    show execShortCircuit p code at_ s = _
    unfold execShortCircuit
    unfold State.scTripped at hu
    simp only [group, acts, Bool.not_true, Bool.false_eq_true, if_false]
    rw [← hu, sense, ← ht, if_neg few]
  refine ⟨t, next, ?_, ?_, fun q other => ?_, evr⟩
  · rw [tph, phase]
  · rw [count, hu, State.updPh_prot]
  · rw [tph, hu, State.updPh_other other]

/-! The cycle boundary of a phase that is to be disabled (R194). -/

/-- A phase as it leaves N. -/
def State.disabledPh (s : State) (p : Fin 64) (cause : PhCause) : Phase :=
  { (s.cut p s.tickStart (s.ph p)).halt with active := false, disabled := true, cause := cause, disableReq := .none }

/-- The phase is out of N, with its event and DEGRADED. -/
def State.leaveN (s : State) (p : Fin 64) (cause : PhCause) : State :=
  (((s.haltPh p).updPh p fun x =>
    { x with active := false, disabled := true, cause := cause, disableReq := .none }).ev 0x5010 p.val cause.code).degrade

/-- And its group has a droop check to come. -/
def State.dropped (s : State) (p : Fin 64) (g : Fin 4) (cause : PhCause) : State :=
  let s := s.leaveN p cause
  (s.offWindowCheck g s.tickStart).updGrp g fun x => { x with droopDue := x.droopDue ++ [s.sys.tick + 10] }

theorem State.leaveN_ph (s : State) (p q : Fin 64) (cause : PhCause) :
    (s.leaveN p cause).ph q = if p = q then s.disabledPh p cause else s.ph q := by
  have entry : (s.leaveN p cause).ph q = ((s.haltPh p).updPh p fun x =>
      { x with active := false, disabled := true, cause := cause, disableReq := .none }).ph q := State.ev_ph _ _ _ _ q
  rw [entry, State.updPh_ph, State.haltPh, State.updPh_ph]
  split
  · next own => subst own; rfl
  · rfl

theorem State.leaveN_grp (s : State) (p : Fin 64) (cause : PhCause) (j : Fin 4) : (s.leaveN p cause).grp j = s.grp j :=
  State.ev_grp _ _ _ _ j

theorem State.leaveN_sys (s : State) (p : Fin 64) (cause : PhCause) :
    (s.leaveN p cause).sys = { s.sys with degraded := true } := by
  rw [State.leaveN, State.degrade, State.ev_sys]
  rfl

theorem State.leaveN_kept (s : State) (p : Fin 64) (cause : PhCause) :
    Kept [.sys, .pwm, .evr] s (s.leaveN p cause) :=
  State.degrade_kept _ (by decide) (State.ev_kept _ _ _ _ (by decide)
    (State.updPh_kept _ _ _ (by decide) (State.haltPh_kept _ _ (by decide) .rfl)))

/-- A disable drops the phase; then its group goes OFF, or re-interleaves unless it is OFF. -/
theorem State.disableNow_dropped {s : State} {p : Fin 64} {g : Fin 4} (cause : PhCause)
    (group : s.phaseGroup p.val = some g) : s.disableNow p cause =
      if (s.ph p).active && (s.dropped p g cause).nAct g = 0 then
        (((s.dropped p g cause).groupOff g).updGrp g fun x => { x with offAtZero := true }).ev 0x5005 (grpInst g.val)
      else if ((s.dropped p g cause).grp g).state = .off then s.dropped p g cause
      else (s.dropped p g cause).reinterleave g := by
  unfold State.disableNow
  extract_lets was halted off
  have same : off.phaseGroup p.val = some g :=
    (State.phaseGroup_of_cfg ((s.leaveN_kept p cause).only .cfg (by decide)) _).trans group
  simp only [same]
  rfl

/-- What a phase that drops out changes, and what it leaves. -/
theorem State.dropped_does (s : State) (p : Fin 64) (g : Fin 4) (cause : PhCause) :
    (s.dropped p g cause).ph p = s.disabledPh p cause ∧ (∀ q, q ≠ p → (s.dropped p g cause).ph q = s.ph q) ∧
    (s.dropped p g cause).grp g = { s.grp g with droopDue := (s.grp g).droopDue ++ [s.sys.tick + 10] } ∧
    (s.dropped p g cause).sys = { s.sys with degraded := true } ∧
    Kept [.sys, .pwm, .chn, .evr] s (s.dropped p g cause) := by
  obtain ⟨t, ht⟩ : ∃ t, t = s.leaveN p cause := ⟨_, rfl⟩
  have checked : Kept [.chn, .evr] t (t.offWindowCheck g t.tickStart) :=
    State.offWindowCheck_kept _ _ _ (List.Subset.refl _) .rfl
  have pwm : (t.offWindowCheck g t.tickStart).pwm = t.pwm := checked.only .pwm (by decide)
  have sys : (t.offWindowCheck g t.tickStart).sys = t.sys := checked.only .sys (by decide)
  rw [State.dropped, ← ht]
  refine ⟨?_, fun q other => ?_, ?_, ?_, ?_⟩
  · rw [State.updGrp_ph, State.ph_of_pwm pwm, ht, State.leaveN_ph, if_pos rfl]
  · rw [State.updGrp_ph, State.ph_of_pwm pwm, ht, State.leaveN_ph, if_neg other.symm]
  · rw [State.updGrp_same, State.grp_of_pwm pwm, ht, State.leaveN_grp, State.leaveN_sys]
  · rw [State.updGrp_sys, sys, ht, State.leaveN_sys]
  · exact State.updGrp_kept _ _ _ (by decide)
      (.trans (ht ▸ (s.leaveN_kept p cause).mono (by decide)) (checked.mono (by decide)))

/-- The others of the group's active phases stay in N. -/
theorem State.mem_actives_dropped {s : State} {p q : Fin 64} {g : Fin 4} {cause : PhCause} :
    q ∈ (s.dropped p g cause).actives g ↔ q ∈ s.actives g ∧ q ≠ p := by
  obtain ⟨own, others, -, -, kept⟩ := s.dropped_does p g cause
  rw [State.mem_actives, State.mem_actives, State.members_of_cfg (kept.only .cfg (by decide))]
  by_cases same : q = p
  · subst same
    rw [own]
    simp [State.disabledPh]
  · rw [others q same]
    simp [same]

/-- With another active phase the group re-interleaves over those that stay. -/
theorem State.disableNow_others {s : State} {p q : Fin 64} {g : Fin 4} (cause : PhCause)
    (group : s.phaseGroup p.val = some g) (on : (s.grp g).state ≠ .off) (stays : q ∈ s.actives g) (other : q ≠ p) :
    s.disableNow p cause = (s.dropped p g cause).reinterleave g := by
  obtain ⟨-, -, grp, -, -⟩ := s.dropped_does p g cause
  have left : (s.dropped p g cause).nAct g ≠ 0 :=
    (List.length_pos_of_mem (State.mem_actives_dropped.2 ⟨stays, other⟩)).ne'
  rw [State.disableNow_dropped cause group, if_neg (by simp [left]), if_neg (by rw [grp]; exact on)]

/-- With the last active phase the group goes OFF. -/
theorem State.disableNow_last {s : State} {p : Fin 64} {g : Fin 4} (cause : PhCause)
    (group : s.phaseGroup p.val = some g) (last : s.actives g = [p]) : s.disableNow p cause =
      (((s.dropped p g cause).groupOff g).updGrp g fun x => { x with offAtZero := true }).ev 0x5005 (grpInst g.val) := by
  have member : p ∈ s.actives g := last ▸ List.mem_singleton_self p
  have empty : (s.dropped p g cause).nAct g = 0 := by
    refine List.length_eq_zero_iff.2 (List.eq_nil_iff_forall_not_mem.2 fun q mem => ?_)
    obtain ⟨active, other⟩ := State.mem_actives_dropped.1 mem
    rw [last] at active
    exact other (List.mem_singleton.1 active)
  rw [State.disableNow_dropped cause group, if_pos (by simp [empty, (State.mem_actives.1 member).2])]

theorem exec_phaseDisabled_due {p : Fin 64} {s : State} (asked : (s.ph p).disableReq ≠ .none)
    (enabled : (s.ph p).disabled = false) :
    exec (.phaseDisabled p) s = .next (s.disableNow p (s.ph p).disableReq).groupDone :=
  congrArg Host.Outcome.next (if_neg (by simp [asked, enabled]))

theorem exec_phaseDisabled_others {p q : Fin 64} {g : Fin 4} {s : State} (group : s.phaseGroup p.val = some g)
    (on : (s.grp g).state.switching = true) (asked : (s.ph p).disableReq ≠ .none) (enabled : (s.ph p).disabled = false)
    (stays : q ∈ s.actives g) (other : q ≠ p) :
    Gives (.phaseDisabled p) s fun t =>
      (t.ph p).active = false ∧ (t.ph p).disabled = true ∧ (t.ph p).cause = (s.ph p).disableReq ∧ t.sys.degraded = true ∧
      (t.grp g).reinterleave = true ∧ (t.grp g).droopDue = (s.grp g).droopDue ++ [s.sys.tick + 10] ∧
      (t.grp g).state = (s.grp g).state ∧ (t.ph q).active = true := by
  have notOff : (s.grp g).state ≠ .off := fun off => by simp [off, GrpState.switching] at on
  have disabled := State.disableNow_others (s.ph p).disableReq group notOff stays other
  obtain ⟨own, others, grp, sys, -⟩ := s.dropped_does p g (s.ph p).disableReq
  generalize s.dropped p g (s.ph p).disableReq = u at disabled own others grp sys
  have moves : (u.reinterleave g).grp g = { u.grp g with reinterleave := true, reSteps := 0 } := by
    rw [State.reinterleave_grp, if_pos rfl]
  have keeps : (u.reinterleave g).sys = u.sys :=
    (State.reinterleave_kept u g (List.Subset.refl _) .rfl).only .sys (by decide)
  have next := exec_phaseDisabled_due asked enabled
  rw [disabled, State.groupDone_switching (g := g) (by rw [moves, grp]; exact notOff)] at next
  have phase (r : Fin 64) : ((u.reinterleave g).runningCheck.ph r).unplaced = (u.ph r).unplaced := by
    rw [State.runningCheck_ph, State.reinterleave_unplaced]
  refine ⟨_, next, ?_, ?_, ?_, ?_, ?_, ?_, ?_, ?_⟩
  · rw [Phase.eq_of_unplaced (phase p) Phase.active fun _ => rfl, own]
    rfl
  · rw [Phase.eq_of_unplaced (phase p) Phase.disabled fun _ => rfl, own]
    rfl
  · rw [Phase.eq_of_unplaced (phase p) Phase.cause fun _ => rfl, own]
    rfl
  · rw [State.runningCheck_sys, keeps, sys]
  · rw [State.runningCheck_grp, moves]
  · rw [State.runningCheck_grp, moves, grp]
  · rw [State.runningCheck_grp, moves, grp]
  · rw [Phase.eq_of_unplaced (phase q) Phase.active fun _ => rfl, others q other, (State.mem_actives.1 stays).2]

theorem exec_phaseDisabled_last {p : Fin 64} {g : Fin 4} {s : State} (group : s.phaseGroup p.val = some g)
    (asked : (s.ph p).disableReq ≠ .none) (enabled : (s.ph p).disabled = false) (last : s.actives g = [p])
    (noReset : s.sec.resetReq = none) (noCoolant : s.prot.coolShutdown = false) (notShip : s.sys.state ≠ .shipPrep) :
    Gives (.phaseDisabled p) s fun t =>
      (t.ph p).disabled = true ∧ (t.grp g).droopDue = (s.grp g).droopDue ++ [s.sys.tick + 10] ∧ (t.grp g).state = .off ∧
      t.sys.gdrvEn[g.val] = false ∧ t.sys.degraded = true := by
  have disabled := State.disableNow_last (s.ph p).disableReq group last
  obtain ⟨own, -, grp, sys, kept⟩ := s.dropped_does p g (s.ph p).disableReq
  generalize s.dropped p g (s.ph p).disableReq = u at disabled own grp sys kept
  generalize ht : s.disableNow p (s.ph p).disableReq = t at disabled
  have keptT : Kept [.sys, .pwm, .chn, .evr] s t := ht ▸ State.disableNow_kept _ _ _ (List.Subset.refl _) .rfl
  obtain ⟨gdrv, offSys⟩ := u.groupOff_sys g
  have tsys : t.sys = (u.groupOff g).sys := by rw [disabled, State.ev_sys, State.updGrp_sys]
  have tgrp : t.grp g = { (u.grp g).leaveDe.turnOff with offAtZero := true } := by
    rw [disabled, State.ev_grp, State.updGrp_same, State.groupOff_grp, if_pos rfl]
  have tph : t.ph p = (u.groupOff g).ph p := by rw [disabled, State.ev_ph, State.updGrp_ph]
  have halted : ((u.cut p u.tickStart (u.ph p)).halt).disabled = true :=
    (Phase.cutAt_keeps (u.ph p) _ _ _ Phase.disabled fun _ _ _ _ _ => rfl).trans (by rw [own]; rfl)
  have next := exec_phaseDisabled_due asked enabled
  rw [ht, State.groupDone_idle (by rw [show t.sec = s.sec from keptT.only .sec (by decide), noReset])
    (by rw [show t.prot = s.prot from keptT.only .prot (by decide), noCoolant])
    (by rw [tsys, offSys, sys]; exact notShip)] at next
  refine ⟨_, next, ?_, ?_, ?_, ?_, ?_⟩
  · rw [State.runningCheck_ph, tph, State.groupOff_ph]
    split
    · exact halted
    · rw [own]
      rfl
  · rw [State.runningCheck_grp, tgrp]
    exact (Group.leaveDe_droopDue _).trans (by rw [grp])
  · rw [State.runningCheck_grp, tgrp]
    rfl
  · rw [State.runningCheck_sys, tsys, State.groupOff_gdrvEn]
  · rw [State.runningCheck_sys, tsys, offSys, sys]

/-! Re-admission (R196). -/

/-- A phase whose cause has cleared joins a group that switches. -/
theorem State.readmit_joins {s : State} {p : Fin 64} {g : Fin 4} (group : s.phaseGroup p.val = some g)
    (on : (s.grp g).state.switching = true) (disabled : (s.ph p).disabled = true) (cleared : s.causeCleared p = true) :
    s.readmit p = (((((s.updPh p fun x => { x with disabled := false, cause := .none, trim := 0 }).updPh p fun x =>
      { x with joining := true }).reinterleave g).ev 0x5011 p.val)) := by
  unfold State.readmit
  simp only [group, disabled, cleared, State.updPh_grp, on, Bool.not_true, Bool.or_self, Bool.false_eq_true, if_false, if_true]

theorem exec_readmit_joins {sess p : Fin 64} {g : Fin 4} {s : State} (allowed : s.allows sess .osar = true)
    (group : s.phaseGroup p.val = some g) (on : (s.grp g).state.switching = true) (disabled : (s.ph p).disabled = true)
    (cleared : s.causeCleared p = true) :
    Gives (.readmit sess p) s fun t =>
      (t.ph p).disabled = false ∧ (t.ph p).cause = .none ∧ (t.ph p).joining = true ∧ (t.ph p).trim = 0 ∧
      (t.grp g).reinterleave = true ∧ t.evr = s.evs [(0x5011, p.val, 0)] := by
  obtain ⟨u, hu⟩ : ∃ u, u = (s.updPh p fun x => { x with disabled := false, cause := .none, trim := 0 }).updPh p fun x =>
    { x with joining := true } := ⟨_, rfl⟩
  have next : exec (.readmit sess p) s = .next ((u.reinterleave g).ev 0x5011 p.val) :=
    congrArg Host.Outcome.next ((State.regCmdAt_allowed (by rw [group]; rfl) allowed _).trans
      (hu ▸ State.readmit_joins group on disabled cleared))
  have phase : (((u.reinterleave g).ev 0x5011 p.val).ph p).unplaced =
      ({ s.ph p with disabled := false, cause := .none, trim := 0, joining := true } : Phase).unplaced := by
    rw [State.ev_ph, State.reinterleave_unplaced, hu, State.updPh_same, State.updPh_same]
  refine ⟨_, next, ?_, ?_, ?_, ?_, ?_, ?_⟩
  · rw [Phase.eq_of_unplaced phase Phase.disabled fun _ => rfl]
  · rw [Phase.eq_of_unplaced phase Phase.cause fun _ => rfl]
  · rw [Phase.eq_of_unplaced phase Phase.joining fun _ => rfl]
  · rw [Phase.eq_of_unplaced phase Phase.trim fun _ => rfl]
  · rw [State.ev_grp, State.reinterleave_grp, if_pos rfl]
  · rw [hu]
    exact ((((State.SameEv.refl s).updPh _ _).updPh _ _).reinterleave g).evs _ _ _

/-- Settles O12: what each fault asks for, what a disable makes of its phase and its group, and how a phase comes back. -/
theorem faultsOfPhases : Obligations.FaultsOfPhases :=
  ⟨fun _ _ _ _ => exec_shortCircuit_within,
    fun _ _ _ _ _ => exec_shortCircuit_first,
    fun _ _ _ _ => exec_driverFault_low,
    fun _ _ _ => rfl,
    fun _ _ _ => exec_phaseOpen_lasting,
    fun _ _ _ => exec_senseSuspect_lasting,
    fun _ _ _ _ => exec_disable_allowed,
    fun _ _ _ _ => exec_phaseDisabled_others,
    fun _ _ _ group _ => exec_phaseDisabled_last group,
    fun _ _ _ _ => exec_readmit_joins⟩

end Sys2Proof.Machine
end

section
/-! SUPPORT. Synchronisation, frames and the bus target (R179, R181 to R183, R207). -/

namespace Sys2Proof.Machine

/-! Synchronisation to SYNC_IN (R181). -/

theorem State.SameEv.withClk {s t : State} (h : s.SameEv t) (k : Clock) (same : t.clk.fabricStopped = k.fabricStopped) :
    s.SameEv { t with clk := k } :=
  h.trans ⟨rfl, rfl, rfl, rfl, same⟩

/-- Good edges near the nominal period begin the slewing of a group that follows them. -/
theorem exec_syncSlewing_good {g : Fin 4} {period : Nat} {s : State} (follows : s.follows g = true)
    (on : (s.grp g).state.switching = true)
    (near : 10 * ((period : Int) - s.freePeriod g).natAbs ≤ s.freePeriod g)
    (apart : (s.grp g).sync = .free ∨ (s.grp g).sync = .hold ∨ (s.grp g).sync = .returning) :
    exec (.syncSlewing g period) s = .next (({ s with clk := { s.clk with syncInActive := true } } : State).updGrp g fun x =>
      { x with sync := .slewing, syncPeriod := period, syncFrom := x.period }) :=
  congrArg Host.Outcome.next (if_pos (by simpa [follows, on, near, or_assoc] using apart))

theorem exec_syncLocked_near {g : Fin 4} {edge : Nat} {s : State} (lit : s.lit = true) (slewing : (s.grp g).sync = .slewing)
    (period : (s.grp g).period = (s.grp g).syncPeriod)
    (near : (((s.grp g).frameStart : Int) - s.lockedStart g edge).natAbs ≤ 1000) :
    exec (.syncLocked g edge) s = .next ((s.updGrp g fun x => { x with sync := .locked }).ev 0x5060 (grpInst g.val)) :=
  congrArg Host.Outcome.next (if_pos (by simp [lit, slewing, period, near]))

/-- A locked group that loses its edges keeps its period, and the hold begins. -/
theorem exec_syncHoldover_locked {g : Fin 4} {s : State} (lit : s.lit = true) (locked : (s.grp g).sync = .locked) :
    Gives (.syncHoldover g) s fun t =>
      t.clk = { s.clk with syncInActive := false } ∧ t.grp g = { s.grp g with sync := .hold, syncHoldAt := s.sys.tick } ∧
      (∀ j, j ≠ g → t.grp j = s.grp j) ∧ t.evr = s.evs [(0x5061, 0x0100 + g.val, 0)] := by
  obtain ⟨u, hu⟩ : ∃ u, u = ({ s with clk := { s.clk with syncInActive := false } } : State) := ⟨_, rfl⟩
  have next : exec (.syncHoldover g) s = .next
      ((u.updGrp g fun x => { x with sync := .hold, syncHoldAt := s.sys.tick }).ev 0x5061 (grpInst g.val)) := by
    rw [hu]
    exact congrArg Host.Outcome.next (if_pos (by simp [lit, locked]))
  have same : s.SameEv u := hu ▸ (State.SameEv.refl s).withClk _ rfl
  obtain ⟨own, others, -⟩ :=
    u.updGrp_ev g (fun x => { x with sync := .hold, syncHoldAt := s.sys.tick }) 0x5061 (grpInst g.val) 0
  have grp (j : Fin 4) : u.grp j = s.grp j := by rw [hu]; rfl
  refine ⟨_, next, ?_, ?_, fun j other => ?_, (same.updGrp g _).evs _ _ _⟩
  · rw [State.ev_clk, State.updGrp_clk, hu]
  · rw [own, grp]
  · rw [others j other, grp]

theorem exec_syncReturning_held {g : Fin 4} {s : State} (lit : s.lit = true) (hold : (s.grp g).sync = .hold)
    (late : s.elapsed (s.grp g).syncHoldAt (500 * max 1 (s.grp g).holdMs) = true) :
    exec (.syncReturning g) s = .next (s.updGrp g fun x => { x with sync := .returning, syncFrom := x.period }) :=
  congrArg Host.Outcome.next (if_pos (by simp [lit, hold, late]))

theorem exec_syncFreeRun_back {g : Fin 4} {s : State} (lit : s.lit = true) (returning : (s.grp g).sync = .returning)
    (period : (s.grp g).period = s.freePeriod g) :
    exec (.syncFreeRun g) s = .next ((s.updGrp g fun x => { x with sync := .free }).ev 0x5062 (grpInst g.val)) :=
  congrArg Host.Outcome.next (if_pos (by simp [lit, returning, period]))

/-! Frames (R179). -/

/-- A phase with one more turn-on, at its place in the frame that starts at `start`. -/
def Phase.turnsOn (x : Phase) (start : Nat) : Phase := { x with due := x.due ++ [start + x.offset] }

/-- Off the fast path each active phase has a turn-on at its place, and nothing else changes. -/
theorem State.foldl_turnsOn {s : State} {g : Fin 4} (start : Nat) (slow : (s.grp g).state ≠ .fastPath) :
    ∃ v, (s.actives g).foldl (fun u p => u.updPh p fun x =>
        { x with due := x.due ++ [start + if (u.grp g).state = .fastPath then 0 else (u.ph p).offset] }) s = s.withPhases v ∧
      ∀ p : Fin 64, v[p.val] = if p ∈ s.actives g then (s.ph p).turnsOn start else s.ph p := by
  refine State.foldl_phases (fun v p own => State.updPh_congr ?_) (s.actives_nodup g)
  rw [State.withPhases_grp, if_neg slow, State.withPhases_ph, own]
  rfl

theorem State.scheduleFrame_does {s : State} {g : Fin 4} (start : Nat) (slow : (s.grp g).state ≠ .fastPath) :
    (∃ ons, (s.scheduleFrame g start).grp g = { s.grp g with ons := ons }) ∧
    (∀ j, j ≠ g → (s.scheduleFrame g start).grp j = s.grp j) ∧
    ∀ p, (s.scheduleFrame g start).ph p = if p ∈ s.actives g then (s.ph p).turnsOn start else s.ph p := by
  obtain ⟨v, schedules, phases⟩ := State.foldl_turnsOn start slow
  obtain ⟨ons, eq⟩ : ∃ ons, s.scheduleFrame g start = (s.withPhases v).updGrp g fun x => { x with ons := ons } := by
    rw [← schedules]
    exact ⟨_, rfl⟩
  rw [eq]
  refine ⟨⟨ons, ?_⟩, fun j other => ?_, fun p => ?_⟩
  · rw [State.updGrp_same, State.withPhases_grp]
  · rw [State.updGrp_other other, State.withPhases_grp]
  · rw [State.updGrp_ph, State.withPhases_ph, phases]

/-- A group that runs free, Basalt apart, has its free-running period (R179). -/
theorem State.nextPeriod_free {s : State} {g : Fin 4} (running : (s.grp g).state = .running)
    (free : (s.grp g).sync = .free) : s.nextPeriod g = (s, s.freePeriod g) := by
  simp [State.nextPeriod, Group.basaltDrives, Group.underBasalt, running, free]

/-- A group as its frame starts (R179, R181). -/
def Group.nextFrame (x : Group) (start period : Nat) : Group :=
  { x with framing := true, frameStart := start, period := period, frames := (start, period) :: x.frames
           syncPeriod := if x.sync = .locked then period else x.syncPeriod }

theorem Group.nextFrame_free {x : Group} (framing : x.framing = true) (free : x.sync = .free) (start period : Nat) :
    x.nextFrame start period = { x with frameStart := start, period := period, frames := (start, period) :: x.frames } := by
  cases x
  simp_all [Group.nextFrame]

/-- A running, free-running group without a re-interleave has its frame where the one before it ends; the sweeps it
displaces and SYNC_OUT are no part of the converters. -/
theorem exec_pwmFrameStart_free {g : Fin 4} (edge : Option Nat) {s : State} (lit : s.lit = true)
    (running : (s.grp g).state = .running) (framing : (s.grp g).framing = true) (free : (s.grp g).sync = .free)
    (settled : (s.grp g).reinterleave = false) :
    Gives (.pwmFrameStart g edge) s fun t =>
      t.pwm = ((s.updGrp g fun x => x.nextFrame ((s.grp g).frameStart + (s.grp g).period) (s.freePeriod g)).scheduleFrame g
        ((s.grp g).frameStart + (s.grp g).period)).pwm := by
  refine ⟨_, congrArg Host.Outcome.next (if_neg (by simp [lit, running, GrpState.switching])), ?_⟩
  rw [State.nextPeriod_free running free]
  dsimp -zeta only
  extract_lets start period framed stepped scheduled
  have hstart : start = (s.grp g).frameStart + (s.grp g).period := by simp only [start, framing, free]; rfl
  have hperiod : period = s.freePeriod g := if_neg (by simp [free])
  have hstepped : stepped = framed := if_pos (by simp [settled])
  have hframed : framed = s.updGrp g fun x => x.nextFrame start period := rfl
  have pwm : scheduled.pwm = (framed.scheduleFrame g start).pwm := by
    rw [← hstepped]
    exact (State.offWindowCheck_kept _ g start (List.Subset.refl _) .rfl).only .pwm (by decide)
  rw [← hstart, ← hperiod, ← hframed]
  clear_value scheduled
  split
  · exact pwm
  · exact pwm

theorem exec_pwmFrameStart_schedules {g : Fin 4} {edge : Option Nat} {s : State} (lit : s.lit = true)
    (running : (s.grp g).state = .running) (framing : (s.grp g).framing = true) (free : (s.grp g).sync = .free)
    (settled : (s.grp g).reinterleave = false) :
    Gives (.pwmFrameStart g edge) s fun t =>
      t.grp g = { s.grp g with
        frameStart := (s.grp g).frameStart + (s.grp g).period, period := s.freePeriod g
        frames := ((s.grp g).frameStart + (s.grp g).period, s.freePeriod g) :: (s.grp g).frames, ons := (t.grp g).ons } ∧
      (∀ j, j ≠ g → t.grp j = s.grp j) ∧ (∀ p, p ∉ s.actives g → t.ph p = s.ph p) ∧
      ∀ p ∈ s.actives g, t.ph p = (s.ph p).turnsOn ((s.grp g).frameStart + (s.grp g).period) := by
  obtain ⟨start, hstart⟩ : ∃ start, start = (s.grp g).frameStart + (s.grp g).period := ⟨_, rfl⟩
  obtain ⟨t, next, pwm⟩ := exec_pwmFrameStart_free edge lit running framing free settled
  rw [← hstart] at pwm ⊢
  obtain ⟨u, hu⟩ : ∃ u, u = s.updGrp g fun x => x.nextFrame start (s.freePeriod g) := ⟨_, rfl⟩
  rw [← hu] at pwm
  have group : u.grp g = { s.grp g with
      frameStart := start, period := s.freePeriod g, frames := (start, s.freePeriod g) :: (s.grp g).frames } := by
    rw [hu, State.updGrp_same, Group.nextFrame_free framing free]
  have actives : u.actives g = s.actives g := by rw [hu]; rfl
  obtain ⟨⟨ons, own⟩, others, phases⟩ :=
    State.scheduleFrame_does (s := u) (g := g) start (by rw [group, running]; decide)
  rw [actives] at phases
  refine ⟨t, next, ?_, fun j other => ?_, fun p idle => ?_, fun p active => ?_⟩
  · rw [State.grp_of_pwm pwm, own, group]
  · rw [State.grp_of_pwm pwm, others j other, hu, State.updGrp_other other]
  · rw [State.ph_of_pwm pwm, phases, if_neg idle, hu, State.updGrp_ph]
  · rw [State.ph_of_pwm pwm, phases, if_pos active, hu, State.updGrp_ph]

/-! The bus target (R182, R183). -/

theorem exec_pwmBusSet_still {sess : Fin 64} {v : BitVec 32} {s : State} (allowed : s.allows sess .osar = true)
    (noV : s.pwm.profV = 0) (noA : s.pwm.profA = 0) :
    Gives (.pwmBusSet sess v) s fun t =>
      t.pwm = { s.pwm with busSet := clampI (s.limit 5) (s.limit 4) v.toInt
                           clamped := clampI (s.limit 5) (s.limit 4) v.toInt != v.toInt } ∧
      t.evr = if clampI (s.limit 5) (s.limit 4) v.toInt = v.toInt then s.evr else s.evs [(0x5071, noInst, 0)] := by
  have next : exec (.pwmBusSet sess v) s = .next (s.setBus v.toInt) :=
    congrArg Host.Outcome.next (State.regCmd_allowed allowed _)
  obtain ⟨u, hu⟩ : ∃ u, u = ({ s with pwm := { s.pwm with
      busSet := clampI (s.limit 5) (s.limit 4) v.toInt
      clamped := clampI (s.limit 5) (s.limit 4) v.toInt != v.toInt } } : State) := ⟨_, rfl⟩
  have still : s.setBus v.toInt = if clampI (s.limit 5) (s.limit 4) v.toInt = v.toInt then u else u.ev 0x5071 := by
    simp [hu, State.setBus, noV, noA]
  have same : s.SameEv u := by rw [hu]; exact ⟨rfl, rfl, rfl, rfl, rfl⟩
  have pwm : (s.setBus v.toInt).pwm = u.pwm := by
    rw [still]
    split
    · rfl
    · exact u.ev_pwm _ _ _
  refine ⟨_, next, by rw [pwm, hu], ?_⟩
  rw [still]
  split
  · exact same.evr.symm
  · exact same.evs _ _ _

/-- Settles O13: the steps of synchronisation by their equations, a frame by its turn-ons, and the target by its clamp. -/
theorem synchronisationAndFrames : Obligations.SynchronisationAndFrames :=
  ⟨fun g _ _ follows on near apart => ⟨_, exec_syncSlewing_good follows on near apart, rfl, State.updGrp_same _ g _,
      fun _ other => State.updGrp_other other _ _⟩,
    fun g _ s lit slewing period near => ⟨_, exec_syncLocked_near lit slewing period near,
      s.updGrp_ev g _ 0x5060 (grpInst g.val) 0⟩,
    fun _ _ => exec_syncHoldover_locked,
    fun g s lit hold late => ⟨_, exec_syncReturning_held lit hold late, s.updGrp_same g _,
      fun _ other => State.updGrp_other other _ _⟩,
    fun g s lit returning period => ⟨_, exec_syncFreeRun_back lit returning period,
      s.updGrp_ev g _ 0x5062 (grpInst g.val) 0⟩,
    fun _ _ _ => exec_pwmFrameStart_schedules,
    fun _ _ _ => exec_pwmBusSet_still⟩

end Sys2Proof.Machine
end

section
/-! SUPPORT. The brick ports (R197, R199, R201, R210). -/

namespace Sys2Proof.Machine

/-! What an operation on one port leaves of the others. -/

/-- The other ports, and when the last command frames left, are as they were. -/
structure State.BesidePort (p : Fin 16) (s t : State) : Prop where
  others : ∀ q, q ≠ p → t.psuPort q = s.psuPort q
  tick : t.pwm.psuTick = s.pwm.psuTick

theorem State.BesidePort.rfl {p : Fin 16} {s : State} : State.BesidePort p s s := ⟨fun _ _ => Eq.refl _, Eq.refl _⟩

theorem State.BesidePort.trans {p : Fin 16} {s t u : State} (h : State.BesidePort p s t) (k : State.BesidePort p t u) :
    State.BesidePort p s u :=
  ⟨fun q other => (k.others q other).trans (h.others q other), k.tick.trans h.tick⟩

theorem State.BesidePort.ite {p : Fin 16} {s t u : State} {c : Prop} [Decidable c] (h : State.BesidePort p s t)
    (k : State.BesidePort p s u) : State.BesidePort p s (if c then t else u) := by
  split <;> assumption

theorem State.updPsu_beside (s : State) (p : Fin 16) (f : PsuPort → PsuPort) : State.BesidePort p s (s.updPsu p f) :=
  ⟨fun _ other => State.updPsu_other other s f, Eq.refl _⟩

theorem State.BesidePort.send {p : Fin 16} {s t : State} (h : State.BesidePort p s t) (o : Output) :
    State.BesidePort p s (t.send o) := ⟨h.others, h.tick⟩

/-- What a port is as it is lost. -/
def PsuPort.gone (x : PsuPort) : PsuPort := { x with lost := true, inService := false, enable := false, clean := false }

/-- The loss of a port: its power is noted, with its event (R201, R350). -/
def State.portLost (s : State) (p : Fin 16) : State :=
  let t := s.updPsu p PsuPort.gone
  (({ t with pwm := { t.pwm with lostPower := s.pwm.lostPower + (s.psuPort p).p, lostPort := true } } : State).ev 0x5080
    (psuInst p.val)).degrade

theorem State.losePort_eq (s : State) (p : Fin 16) :
    s.losePort p = if (s.psuPort p).lost || !(s.psuPort p).inService then s else s.portLost p := rfl

theorem State.portLost_pwm (s : State) (p : Fin 16) : (s.portLost p).pwm = { (s.updPsu p PsuPort.gone).pwm with
    lostPower := s.pwm.lostPower + (s.psuPort p).p, lostPort := true } :=
  State.ev_pwm _ _ _ _

theorem State.portLost_port (s : State) (p q : Fin 16) : (s.portLost p).psuPort q = (s.updPsu p PsuPort.gone).psuPort q := by
  rw [State.psuPort, State.portLost_pwm]
  rfl

theorem State.SameEv.portLost {s t : State} (h : s.SameEv t) (p : Fin 16) :
    (t.portLost p).evr = s.evs [(0x5080, 0x0200 + p.val, 0)] := by
  rw [State.portLost, State.degrade_evr]
  exact (h.withPwm _).evs _ _ _

theorem State.losePort_beside (s : State) (p : Fin 16) : State.BesidePort p s (s.losePort p) := by
  rw [State.losePort_eq]
  refine .ite .rfl ⟨fun q other => ?_, ?_⟩
  · rw [State.portLost_port, State.updPsu_other other]
  · rw [State.portLost_pwm]
    rfl

theorem State.psuMiss_beside (s : State) (p : Fin 16) : State.BesidePort p s (s.psuMiss p) :=
  .ite ((s.updPsu_beside p _).trans (State.losePort_beside _ p)) (s.updPsu_beside p _)

theorem State.psuSend_beside (s : State) (p : Fin 16) : State.BesidePort p s (s.psuSend p) := by
  unfold State.psuSend
  extract_lets missed x en q
  have hmissed : State.BesidePort p s missed := .ite (s.psuMiss_beside p) .rfl
  exact .ite .rfl ((hmissed.trans (missed.updPsu_beside p _)).send _)

/-! Command frames (R197, R199). -/

/-- A port as its next command frame leaves it. -/
def PsuPort.commanded (x : PsuPort) (ov : Bool) : PsuPort :=
  { x with seq := wrapU 8 (x.seq + 1), awaiting := true, enable := !x.lost && !ov, ilim := x.nextIlim, vset := x.nextVset }

/-- The frame that does so. -/
def PsuPort.command (x : PsuPort) (p : Fin 16) (ov : Bool) : Output :=
  .psu p.val (psuFrame (wrapU 8 (x.seq + 1)) (!x.lost && !ov) x.nextIlim x.nextVset)

theorem State.psuRating_of_cfg {s t : State} (same : t.cfg = s.cfg) (p : Nat) : t.psuRating p = s.psuRating p := by
  simp only [State.psuRating, State.rec8, State.recs, same]

/-- An enabled port that awaits no answer is sent its frame. -/
theorem State.psuSend_answered {s : State} {p : Fin 16} (used : (s.psuRating p.val).isSome = true)
    (answered : (s.psuPort p).awaiting = false) : s.psuSend p =
      (s.updPsu p fun x => x.commanded s.prot.busOv).send ((s.psuPort p).command p s.prot.busOv) := by
  have live : (s.psuRating p.val).isNone = false := by simpa [Option.isSome_iff_ne_none] using used
  unfold State.psuSend
  rw [live, answered]
  exact congrArg (State.send · _) (State.updPsu_congr rfl)

/-- What has left the pins stays in the log. -/
theorem State.psuSend_tx (s : State) (p : Fin 16) : s.tx ⊆ (s.psuSend p).tx := by
  unfold State.psuSend
  extract_lets missed x en q
  have hmissed : missed.tx = s.tx :=
    (Kept.ite (State.psuMiss_kept s p (List.Subset.refl _) .rfl) .rfl).only .tx (by decide)
  split
  · exact List.Subset.refl _
  · exact fun o mem => List.mem_cons_of_mem _ (by rw [State.updPsu_tx, hmissed]; exact mem)

theorem exec_psuCommandFrame_due {s : State} (lit : s.lit = true) (active : s.cfg.activeValid = true)
    (due : s.due 5 s.pwm.psuTick = true) (answered : ∀ p : Fin 16, (s.psuPort p).awaiting = false) :
    Gives .psuCommandFrame s fun t => t.pwm.psuTick = some s.sys.tick ∧ ∀ p : Fin 16, (s.psuRating p.val).isSome = true →
      t.psuPort p = (s.psuPort p).commanded s.prot.busOv ∧ (s.psuPort p).command p s.prot.busOv ∈ t.tx := by
  refine ⟨_, congrArg Host.Outcome.next (if_pos (by simp [lit, active, due])), ?_, fun p used => ?_⟩
  · exact foldl_same (fun t : State => t.pwm.psuTick) (fun t p => (t.psuSend_beside p).tick) _ _
  · have cfg (t : State) (q : Fin 16) : (t.psuSend q).cfg = t.cfg :=
      (State.psuSend_kept t q (List.Subset.refl _) .rfl).only .cfg (by decide)
    have prot (t : State) (q : Fin 16) : (t.psuSend q).prot = t.prot :=
      (State.psuSend_kept t q (List.Subset.refl _) .rfl).only .prot (by decide)
    refine foldl_reaches (before := fun t => t.psuPort p = s.psuPort p ∧ t.cfg = s.cfg ∧ t.prot = s.prot)
      (after := fun t => t.psuPort p = (s.psuPort p).commanded s.prot.busOv ∧ (s.psuPort p).command p s.prot.busOv ∈ t.tx)
      (fun t q other h => ?_) (fun t h => ?_) (fun t q other h => ?_) (List.mem_finRange p) (List.nodup_finRange 16)
      ⟨rfl, rfl, rfl⟩
    · obtain ⟨port, hcfg, hprot⟩ := h
      exact ⟨((t.psuSend_beside q).others p other.symm).trans port, (cfg t q).trans hcfg, (prot t q).trans hprot⟩
    · obtain ⟨port, hcfg, hprot⟩ := h
      rw [State.psuSend_answered (by rwa [State.psuRating_of_cfg hcfg]) (by rw [port, answered]), port, hprot]
      exact ⟨(State.updPsu_same t p _).trans (by rw [port]), List.mem_cons_self⟩
    · obtain ⟨port, sent⟩ := h
      exact ⟨((t.psuSend_beside q).others p other.symm).trans port, t.psuSend_tx q sent⟩

/-! Telemetry (R197, R201). -/

/-- A port as a telemetry frame that counts leaves it. -/
def PsuPort.taken (x : PsuPort) (tick : Nat) (f : List Byte) : PsuPort :=
  let st := leVal (bytesAt f 1 1)
  { x with
    awaiting := false, missing := 0, clean := !tb st 1, cleanAt := if x.clean && !tb st 1 then x.cleanAt else tick
    status := st % 16, inputOk := tb st 4, offFrames := if !tb st 0 && x.enable then x.offFrames + 1 else 0
    v := ofCode 32 (leVal (bytesAt f 2 4)), i := ofCode 32 (leVal (bytesAt f 6 4)), p := ofCode 32 (leVal (bytesAt f 10 4))
    temp := ofCode 16 (leVal (bytesAt f 14 2)), faultCode := leVal (bytesAt f 16 2) }

theorem State.psuTake_eq (s : State) (p : Fin 16) (f : List Byte) : s.psuTake p f =
    if tb (leVal (bytesAt f 1 1)) 1 || 3 ≤ ((s.psuPort p).taken s.sys.tick f).offFrames then
      (s.updPsu p fun x => x.taken s.sys.tick f).losePort p
    else s.updPsu p fun x => x.taken s.sys.tick f := by
  rw [← State.updPsu_same s p fun x => x.taken s.sys.tick f]
  rfl

section Telemetry

variable {p : Fin 16} {f : List Byte} {s : State} (lit : s.lit = true) (used : (s.psuRating p.val).isSome = true)
  (sound : psuFrameOk f = true) (answers : leVal (bytesAt f 0 1) = (s.psuPort p).seq)

include lit used sound answers

/-- A frame with a good CRC and the SEQ of its command frame counts. -/
theorem exec_psuTelemetry_counts : exec (.psuTelemetry p f) s = .next (s.psuTake p f) := by
  have live : (s.psuRating p.val).isNone = false := by simpa [Option.isSome_iff_ne_none] using used
  show execPsuTelemetry p f s = _
  simp [execPsuTelemetry, lit, live, sound, answers]

/-- Without a fault and with the output on, it is taken whole. -/
theorem exec_psuTelemetry_clean (noFault : tb (leVal (bytesAt f 1 1)) 1 = false)
    (on : tb (leVal (bytesAt f 1 1)) 0 = true) : exec (.psuTelemetry p f) s = .next (s.updPsu p fun x => { x with
      awaiting := false, missing := 0, clean := true, cleanAt := if x.clean = true then x.cleanAt else s.sys.tick
      status := leVal (bytesAt f 1 1) % 16, inputOk := tb (leVal (bytesAt f 1 1)) 4, offFrames := 0
      v := ofCode 32 (leVal (bytesAt f 2 4)), i := ofCode 32 (leVal (bytesAt f 6 4))
      p := ofCode 32 (leVal (bytesAt f 10 4)), temp := ofCode 16 (leVal (bytesAt f 14 2))
      faultCode := leVal (bytesAt f 16 2) }) := by
  rw [exec_psuTelemetry_counts lit used sound answers, State.psuTake_eq,
    if_neg (by simp [PsuPort.taken, noFault, on])]
  exact congrArg Host.Outcome.next (State.updPsu_congr (by simp [PsuPort.taken, noFault, on]))

/-- With a fault a port in service is lost. -/
theorem exec_psuTelemetry_fault (fault : tb (leVal (bytesAt f 1 1)) 1 = true)
    (serves : (s.psuPort p).inService = true) (present : (s.psuPort p).lost = false) :
    Gives (.psuTelemetry p f) s fun t =>
      (t.psuPort p).lost = true ∧ (t.psuPort p).inService = false ∧ (t.psuPort p).enable = false ∧
      t.pwm.lostPower = s.pwm.lostPower + ofCode 32 (leVal (bytesAt f 10 4)) ∧
      (∀ q, q ≠ p → t.psuPort q = s.psuPort q) ∧ t.evr = s.evs [(0x5080, 0x0200 + p.val, 0)] := by
  obtain ⟨u, hu⟩ : ∃ u, u = s.updPsu p fun x => x.taken s.sys.tick f := ⟨_, rfl⟩
  have port : u.psuPort p = (s.psuPort p).taken s.sys.tick f := by rw [hu, State.updPsu_same]
  have lost : s.psuTake p f = u.portLost p := by
    have held : ((u.psuPort p).lost || !(u.psuPort p).inService) = false := by
      rw [port]
      simp [PsuPort.taken, serves, present]
    rw [State.psuTake_eq, if_pos (by simp [fault]), ← hu, State.losePort_eq, held]
    rfl
  have gone : (u.portLost p).psuPort p = (u.psuPort p).gone := by rw [State.portLost_port, State.updPsu_same]
  refine ⟨_, exec_psuTelemetry_counts lit used sound answers, ?_⟩
  rw [lost]
  refine ⟨by rw [gone]; rfl, by rw [gone]; rfl, by rw [gone]; rfl, ?_, fun q other => ?_, ?_⟩
  · rw [State.portLost_pwm, port, hu]
    rfl
  · rw [State.portLost_port, State.updPsu_other other, hu, State.updPsu_other other]
  · exact State.SameEv.portLost (hu ▸ (State.SameEv.refl s).updPsu p _) p

end Telemetry

/-! A port returns (R201, R210). -/

theorem State.restorePort_does {s : State} {p : Fin 16} (lost : (s.psuPort p).lost = true)
    (clean : (s.psuPort p).clean = true) :
    (s.restorePort p).psuPort p = { s.psuPort p with lost := false, inService := true, missing := 0, offFrames := 0 } ∧
    (∀ q, q ≠ p → (s.restorePort p).psuPort q = s.psuPort q) ∧
    (s.restorePort p).evr = s.evs [(0x5081, 0x0200 + p.val, 0)] := by
  rw [State.restorePort, if_pos (by simp [lost, clean])]
  refine ⟨?_, fun q other => ?_, ((State.SameEv.refl s).updPsu p _).evs _ _ _⟩
  · rw [State.ev_psuPort, State.updPsu_same]
  · rw [State.ev_psuPort, State.updPsu_other other]

/-- Settles O14: the frames by a fold that sends each port its own, and the loss and the return of a port by their equations. -/
theorem brickPorts : Obligations.BrickPorts :=
  ⟨fun _ => exec_psuCommandFrame_due,
    fun _ _ _ => exec_psuTelemetry_clean,
    fun _ _ _ => exec_psuTelemetry_fault,
    fun _ _ lit lost clean late =>
      ⟨_, congrArg Host.Outcome.next (if_pos (by simp [lit, late])), State.restorePort_does lost clean⟩,
    fun _ _ _ allowed used lost clean =>
      ⟨_, congrArg Host.Outcome.next (State.regCmdAt_allowed used allowed _), State.restorePort_does lost clean⟩⟩

end Sys2Proof.Machine
end

section
/-! SUPPORT. Instances of the forecast engine under an update, and what the recorder reads of them (R213, R473). -/

namespace Sys2Proof.Machine

@[simp] theorem State.updInst_same (s : State) (i : Fin 10) (f : FInst → FInst) : (s.updInst i f).finst i = f (s.finst i) := by
  rw [State.updInst_finst, if_pos rfl]

theorem State.updInst_other {i j : Fin 10} (other : j ≠ i) (s : State) (f : FInst → FInst) :
    (s.updInst i f).finst j = s.finst j := by
  rw [State.updInst_finst, if_neg other.symm]

theorem State.finst_of_fce {s t : State} (same : t.fce = s.fce) (i : Fin 10) : t.finst i = s.finst i :=
  congrArg (fun f : Fce => f.inst[i.val]) same

@[simp] theorem State.ev_finst (s : State) (code inst data : Nat) (i : Fin 10) :
    (s.ev code inst data).finst i = s.finst i :=
  State.finst_of_fce (s.ev_fce code inst data) i

@[simp] theorem State.used_finst (s : State) (i : Fin 10) : s.used.finst i = s.finst i := rfl

theorem updV_congr {α : Type} {n : Nat} {v : Vector α n} {i : Fin n} {f f' : α → α} (agree : f v[i.val] = f' v[i.val]) :
    updV v i f = updV v i f' := by
  rw [updV, updV, agree]

/-- Updates that agree on what they change. -/
theorem State.updInst_congr {s : State} {i : Fin 10} {f f' : FInst → FInst} (agree : f (s.finst i) = f' (s.finst i)) :
    s.updInst i f = s.updInst i f' := by
  rw [State.updInst, State.updInst, updV_congr agree]

theorem updV_updV {α : Type} {n : Nat} (v : Vector α n) (i : Fin n) (f g : α → α) :
    updV (updV v i f) i g = updV v i fun x => g (f x) := by
  simp [updV]

/-- Two updates of one entry, one after the other. -/
theorem State.updInst_updInst (s : State) (i : Fin 10) (f g : FInst → FInst) :
    (s.updInst i f).updInst i g = s.updInst i fun x => g (f x) := by
  simp only [State.updInst, updV_updV]

/-- What an update makes of the engine, from two states with one engine. -/
theorem State.updInst_fce {s t : State} {i : Fin 10} {f f' : FInst → FInst} (same : t.fce = s.fce)
    (agree : f (s.finst i) = f' (s.finst i)) : (t.updInst i f).fce = (s.updInst i f').fce := by
  rw [State.updInst, State.updInst, same]
  exact congrArg (fun v => { s.fce with inst := v }) (updV_congr agree)

theorem State.SameEv.updInst {s t : State} (h : s.SameEv t) (i : Fin 10) (f : FInst → FInst) : s.SameEv (t.updInst i f) :=
  h.trans ⟨rfl, rfl, rfl, rfl, rfl⟩

theorem State.SameEv.withFce {s t : State} (h : s.SameEv t) (x : Fce) : s.SameEv { t with fce := x } :=
  h.trans ⟨rfl, rfl, rfl, rfl, rfl⟩

theorem State.SameEv.used {s t : State} (h : s.SameEv t) : s.SameEv t.used :=
  h.trans ⟨rfl, rfl, rfl, rfl, rfl⟩

/-- An event beside a change of the forecast engine, which the recorder does not read. -/
theorem State.ev_withFce (s : State) (x : Fce) (c i d : Nat) :
    ({ s with fce := x } : State).ev c i d = { s with fce := x, evr := s.evs [(c, i, d)] } :=
  State.ev_of ((State.SameEv.refl s).withFce x) c i d

end Sys2Proof.Machine
end

section
/-! SUPPORT. Evaluations and the copies of their weights (R219, R223, R229, R232). -/

namespace Sys2Proof.Machine

/-! A completed evaluation. -/

/-- One of the instances with its run of evaluations in time and its divider (R232). -/
def FInst.paced (x : FInst) (onTime divLog2 : Nat) : FInst := { x with onTime := onTime, divLog2 := divLog2 }

/-- The count of evaluations in time moves these two alone. -/
theorem State.cadenceStep_fce (s : State) (i : Fin 10) (late : Bool) (restore : Nat) :
    ∃ onTime divLog2, (s.cadenceStep i late restore).fce = (s.updInst i fun x => x.paced onTime divLog2).fce := by
  unfold State.cadenceStep
  dsimp only
  split
  · exact ⟨0, (s.finst i).divLog2, State.updInst_fce rfl rfl⟩
  · split
    · refine ⟨0, (s.finst i).divLog2 - 1, ?_⟩
      split
      · rw [State.ev_fce]
        exact State.updInst_fce rfl rfl
      · exact State.updInst_fce rfl rfl
    · exact ⟨(s.finst i).onTime + 1, (s.finst i).divLog2, State.updInst_fce rfl rfl⟩

/-- The result of an evaluation of the present model (R215, R219, R223). -/
def Eval.result (e : Eval) (d : Rec) (m : EvalMem) (sub : Bool) : FResult :=
  { tIn := e.tIn, x := m.y.map fun y => fToSat y d.outQ, sub := sub
    sat := m.y.any fun y => fIsInf y || (!fIsNaN y && fToInt y d.outQ != fToSat y d.outQ)
    nan := m.y.any fIsNaN, usable := !e.withheld, h := m.h, y := m.y }

/-- One of the instances takes a result in: its evaluation has left the flight, and the state region is `st` (R219, R223). -/
def FInst.taken (x : FInst) (r : FResult) (lats : List (Nat × Nat)) (st : List Host.Cell) : FInst :=
  { x with
    flight := x.flight.filter fun y => y.tIn != r.tIn, nan := r.nan, outSat := r.sat && !r.nan
    evals := wrapU 32 (x.evals + 1), lastTin := max x.lastTin r.tIn, lats := lats, latAvg := avgOf lats
    results := r :: x.results, stateMem := st }

/-- What the end of an evaluation of the present model makes of the engine. -/
theorem State.evalEnd_fce {s : State} {i : Fin 10} {e : Eval} {recs : List Rec} {d : Rec} {w : Option (List (List Nat))}
    {ns : Nat} {m : EvalMem} (present : e.old = none)
    (model : evalModel { recs := recs, d := d, inputs := e.inputs, w := w, fv := s.fv } (s.finst i).stateMem = m) :
    ∃ lats onTime divLog2, (s.evalEnd i e recs d w ns).fce = (s.updInst i fun x =>
      ((x.taken (e.result d m (x.divLog2 != 0)) lats (if m.y.any fIsNaN = true then [] else m.st)).keepResults (instLong i)
        s.sys.tick).paced onTime divLog2).fce := by
  have state : (s.finst i).stateFor e = (s.finst i).stateMem := by rw [FInst.stateFor, present]; rfl
  unfold State.evalEnd
  rw [state, model]
  lift_lets
  intro m' u nan xs sat t lats r v v'
  have noted : v'.fce = v.fce := by
    unfold v'
    split
    · exact v.ev_fce _ _ _
    · split
      · exact v.ev_fce _ _ _
      · rfl
  obtain ⟨onTime, divLog2, step⟩ := v'.cadenceStep_fce i e.missed e.restore
  refine ⟨lats, onTime, divLog2, step.trans ((State.updInst_fce noted rfl).trans ?_)⟩
  rw [State.updInst_updInst]
  refine State.updInst_fce (s := s) rfl (congrArg (fun x => (FInst.keepResults x _ _).paced _ _) ?_)
  simp [FInst.taken, FInst.setStateFor, present, m', u, r, nan, sat, xs, Eval.result]

theorem State.evalDone_present {s : State} {i : Fin 10} {tIn : Nat} {e : Eval} {d : Rec} (ns : Nat)
    (found : (s.finst i).flight.find? (fun x => x.tIn = tIn) = some e) (present : e.old = none)
    (model : s.evalModelRec i e = some d) (ready : s.evalReady i e = true) :
    s.evalDone i tIn ns = s.evalEnd i e s.modelRecs d (s.headOf i s.modelRecs d) ns := by
  simp only [State.evalDone, found, model, ready, present, State.evalRecs, Option.map_none, Option.getD_none,
    Bool.not_true, Bool.false_eq_true, if_false]

theorem exec_forecastEvalDone_ready {i : Fin 10} {tIn ns : Nat} {e : Eval} {d : Rec} {s : State} (lit : s.lit = true)
    (found : (s.finst i).flight.find? (fun x => x.tIn = tIn) = some e) (present : e.old = none)
    (model : s.evalModelRec i e = some d) (ready : s.evalReady i e = true) :
    Gives (.forecastEvalDone i tIn ns) s fun t =>
      (t.finst i).flight = (s.finst i).flight.filter (fun x => x.tIn != tIn) ∧
      (t.finst i).evals = wrapU 32 ((s.finst i).evals + 1) ∧ (t.finst i).lastTin = max (s.finst i).lastTin tIn ∧
      (t.finst i).held = (s.finst i).held ∧ (t.finst i).misses = (s.finst i).misses ∧ (t.finst i).w = (s.finst i).w ∧
      (let m := evalModel { recs := s.modelRecs, d := d, inputs := e.inputs, w := s.headOf i s.modelRecs d, fv := s.fv }
          (s.finst i).stateMem;
        (t.finst i).nan = m.y.any fIsNaN ∧ (t.finst i).stateMem = (if m.y.any fIsNaN = true then [] else m.st) ∧
        (s.sys.tick < tIn + 1100000 → ∃ r ∈ (t.finst i).results, r.tIn = tIn ∧ r.h = m.h ∧ r.y = m.y ∧
          r.x = m.y.map (fun y => fToSat y d.outQ) ∧ r.nan = m.y.any fIsNaN)) ∧
      (∀ j, j ≠ i → t.finst j = s.finst j) ∧ t.fce.rounds = s.fce.rounds ∧ t.fce.short = s.fce.short := by
  have input : e.tIn = tIn := by simpa using List.find?_some found
  subst input
  obtain ⟨m, model'⟩ : ∃ m, evalModel { recs := s.modelRecs, d := d, inputs := e.inputs, w := s.headOf i s.modelRecs d
                                        fv := s.fv } (s.finst i).stateMem = m := ⟨_, rfl⟩
  obtain ⟨lats, onTime, divLog2, fce⟩ := State.evalEnd_fce (ns := ns) present model'
  have own := (State.finst_of_fce fce i).trans (s.updInst_same i _)
  refine ⟨_, congrArg Host.Outcome.next ((if_pos lit).trans (State.evalDone_present ns found present model ready)), ?_⟩
  beta_reduce
  rw [own, model', fce]
  refine ⟨rfl, rfl, rfl, rfl, rfl, rfl, ⟨rfl, rfl, fun recent => ?_⟩, fun j other => ?_, rfl, rfl⟩
  · have kept : decide (s.sys.tick < (e.result d m ((s.finst i).divLog2 != 0)).tIn + 1100000) = true := decide_eq_true recent
    exact ⟨e.result d m ((s.finst i).divLog2 != 0),
      List.mem_filter.2 ⟨List.mem_cons_self, by rw [kept, Bool.true_or]⟩, rfl, rfl, rfl, rfl, rfl⟩
  · rw [State.finst_of_fce fce, State.updInst_other other]

/-! A completed copy. -/

theorem State.copyDone_ready {s : State} {i : Fin 10} {tIn entry : Nat} {e : Eval}
    (found : (s.finst i).flight.find? (fun x => x.tIn = tIn) = some e) (ready : s.copyReady i e entry = true) :
    s.copyDone i tIn entry = s.updInst i fun x => { x with flight := x.flight.map fun y =>
      if y.tIn = tIn then { y with copiesLeft := y.copiesLeft.filter (· != entry) } else y } := by
  simp only [State.copyDone, found, ready, Bool.not_true, Bool.false_eq_true, if_false]

theorem State.copyDone_waits {s : State} {i : Fin 10} {tIn entry : Nat} {e : Eval}
    (found : (s.finst i).flight.find? (fun x => x.tIn = tIn) = some e) (waits : s.copyReady i e entry = false) :
    s.copyDone i tIn entry = s := by
  simp only [State.copyDone, found, waits, Bool.not_false, if_true]

theorem exec_weightCopyDone_ready {i : Fin 10} {tIn entry : Nat} {e : Eval} {s : State} (lit : s.lit = true)
    (found : (s.finst i).flight.find? (fun x => x.tIn = tIn) = some e) (ready : s.copyReady i e entry = true) :
    exec (.weightCopyDone i tIn entry) s = .next (s.updInst i fun x => { x with flight := x.flight.map fun y =>
      if y.tIn = tIn then { y with copiesLeft := y.copiesLeft.filter (· != entry) } else y }) :=
  congrArg Host.Outcome.next ((if_pos lit).trans (State.copyDone_ready found ready))

theorem exec_weightCopyDone_waits {i : Fin 10} {tIn entry : Nat} {e : Eval} {s : State}
    (found : (s.finst i).flight.find? (fun x => x.tIn = tIn) = some e) (waits : s.copyReady i e entry = false) :
    exec (.weightCopyDone i tIn entry) s = .next s := by
  have next : exec (.weightCopyDone i tIn entry) s = .next (if s.lit then s.copyDone i tIn entry else s) := rfl
  rw [next, State.copyDone_waits found waits, ite_self]

end Sys2Proof.Machine
end

section
/-! SUPPORT. Rounds, their frames and their deadlines (R215 to R218, R232). -/

namespace Sys2Proof.Machine

/-! The one round that waits. -/

theorem State.roundAt_one {s : State} {rd : Round} (one : s.fce.rounds = [rd]) : s.roundAt rd.long rd.tIn = some rd := by
  simp [State.roundAt, one]

/-- The frame of the one round that waits is assembled, after its deadline check where it is late (R216). -/
theorem State.framesAt_one {s : State} {rd : Round} {t : Nat} {sel : Round → Bool} (one : s.fce.rounds = [rd])
    (chosen : sel rd = true) (past : rd.tIn < t) (ends : (s.roundComplete rd || rd.late t) = true) :
    s.framesAt t sel = (if rd.late t = true then s.roundMiss rd else s).assemble t rd := by
  have due : (s.fce.rounds.filter fun rd => sel rd && decide (rd.tIn < t) && (s.roundComplete rd || rd.late t)) = [rd] := by
    simp [one, chosen, past, ends]
  simp only [State.framesAt, due, List.mergeSort_singleton]
  cases late : rd.late t <;> cases long : rd.long <;> simp [late, long]

/-- A command that finds the one round at its time assembles its frame at the next tick. -/
theorem State.frameCmd_one {s : State} {rd : Round} {now : Round → Bool} (lit : s.lit = true) (one : s.fce.rounds = [rd])
    (past : rd.tIn ≤ s.sys.tick) (time : now rd = true)
    (ends : (s.roundComplete rd || rd.late (s.sys.tick + 1)) = true) :
    s.frameCmd rd.long rd.tIn now =
      (if rd.late (s.sys.tick + 1) = true then s.roundMiss rd else s).assemble (s.sys.tick + 1) rd := by
  rw [State.frameCmd, State.roundAt_one one, if_pos (by simp [lit, time]),
    State.framesAt_one one (by simp) (Nat.lt_succ_of_le past) ends]

/-! Deadlines (R232). -/

/-- A complete round has no evaluation left to miss its deadline. -/
theorem State.roundMiss_complete {s : State} {rd : Round} (complete : s.roundComplete rd = true) : s.roundMiss rd = s := by
  refine List.foldl_fixed' (fun i => ?_) _
  split
  case isTrue due =>
    have none : (s.finst i).flight.find? (fun e => e.tIn = rd.tIn && !e.missed) = none := by
      have entries := List.all_eq_true.1 complete i (List.mem_finRange i)
      rw [due, Bool.not_true, Bool.false_or, List.all_eq_true] at entries
      exact List.find?_eq_none.2 fun e mem => by simp [bne_iff_ne.1 (entries e mem)]
    rw [State.evalMiss, none]
  case isFalse => rfl

/-- A round in which one evaluation is due misses the deadline of that one. -/
theorem State.roundMiss_one {s : State} {rd : Round} {i : Fin 10} (due : rd.due = [i.val]) :
    s.roundMiss rd = s.evalMiss i rd.tIn := by
  have only : ∀ i : Fin 10, (List.finRange 10).filter (fun j => [i.val].contains j.val) = [i] := by decide
  rw [State.roundMiss, due, ← List.foldl_filter, only i]
  rfl

theorem State.evalMiss_fce {s : State} {i : Fin 10} {tIn : Nat} {e : Eval}
    (found : (s.finst i).flight.find? (fun x => x.tIn = tIn && !x.missed) = some e) :
    (s.evalMiss i tIn).fce = (s.updInst i fun x => { x with
      flight := x.flight.map fun y => if y.tIn = tIn then { y with missed := true } else y
      misses := bump 32 x.misses, onTime := 0
      divLog2 := if x.doublings = e.doublings ∧ x.divLog2 < 6 then x.divLog2 + 1 else x.divLog2
      doublings := if x.doublings = e.doublings ∧ x.divLog2 < 6 then x.doublings + 1 else x.doublings }).fce := by
  unfold State.evalMiss
  simp only [found]
  split
  · rw [State.ev_fce]
    exact State.updInst_fce rfl (by simp)
  · exact State.updInst_fce rfl (by simp)

/-! Frames (R215, R216). -/

/-- The newest frame of a round's horizon. -/
def State.newest (s : State) (rd : Round) : Frame := if rd.long then s.fce.long else s.fce.short

/-- The engine once a round waits no more (R216). -/
def State.withoutRound (s : State) (rd : Round) : Fce :=
  { s.fce with rounds := s.fce.rounds.filter fun x => !(x.long == rd.long && x.tIn == rd.tIn) }

theorem State.withoutRound_one {s : State} {rd : Round} (one : s.fce.rounds = [rd]) :
    s.withoutRound rd = { s.fce with rounds := [] } := by
  simp [State.withoutRound, one]

/-- The engine once the frame of a round is delivered at tick t (R215, R216). -/
def State.roundFramed (s : State) (t : Nat) (rd : Round) : Fce :=
  let f := s.frameOf rd t
  { s.withoutRound rd with
    short := if rd.long then s.fce.short else f
    shortPrev := if rd.long || s.fce.short.tD = t then s.fce.shortPrev else s.fce.short
    long := if rd.long then f else s.fce.long
    longFresh := s.fce.longFresh || rd.long
    delivered := if rd.long then s.fce.delivered else wrapU 32 (s.fce.delivered + 1)
    partials := if f.partialFrame then bump 32 s.fce.partials else s.fce.partials
    lats := if rd.long then s.fce.lats else addSample s.fce.lats t (t - rd.tIn) }

theorem State.assemble_delivers {s : State} {t : Nat} {rd : Round}
    (newer : (s.newest rd).lhat = [] ∨ (s.newest rd).tIn < rd.tIn) :
    s.assemble t rd = if (s.frameOf rd t).partialFrame then ({ s with fce := s.roundFramed t rd } : State).ev 0x6012
      else { s with fce := s.roundFramed t rd } := by
  have fresh : ¬(!(s.newest rd).lhat.isEmpty && decide (rd.tIn ≤ (s.newest rd).tIn)) = true := by
    rcases newer with empty | newer
    · simp [empty]
    · simp [Nat.not_le.2 newer]
  exact if_neg fresh

theorem State.assemble_discards {s : State} {t : Nat} {rd : Round} (framed : (s.newest rd).lhat ≠ [])
    (later : rd.tIn ≤ (s.newest rd).tIn) :
    s.assemble t rd =
      ({ s with fce := { s.withoutRound rd with discarded := bump 32 s.fce.discarded } } : State).ev 0x6013 := by
  have stale : (!(s.newest rd).lhat.isEmpty && decide (rd.tIn ≤ (s.newest rd).tIn)) = true := by simp [framed, later]
  exact if_pos stale

/-- Delivered or discarded, the frame of a round leaves the instances alone, and the round waits no more. -/
theorem State.assemble_keeps (s : State) (t : Nat) (rd : Round) :
    (s.assemble t rd).fce.inst = s.fce.inst ∧ (s.assemble t rd).fce.rounds = (s.withoutRound rd).rounds := by
  by_cases newer : (s.newest rd).lhat = [] ∨ (s.newest rd).tIn < rd.tIn
  · rw [State.assemble_delivers newer]
    split
    · rw [State.ev_fce]
      exact ⟨rfl, rfl⟩
    · exact ⟨rfl, rfl⟩
  · obtain ⟨framed, later⟩ := not_or.1 newer
    rw [State.assemble_discards framed (Nat.le_of_not_lt later), State.ev_fce]
    exact ⟨rfl, rfl⟩

/-! The commands of a round. -/

theorem exec_frameAssembly_complete {rd : Round} {s : State} (lit : s.lit = true) (one : s.fce.rounds = [rd])
    (past : rd.tIn ≤ s.sys.tick) (complete : s.roundComplete rd = true) :
    exec (.frameAssembly rd.long rd.tIn) s = .next (s.assemble (s.sys.tick + 1) rd) := by
  refine congrArg Host.Outcome.next ((State.frameCmd_one lit one past complete (by simp [complete])).trans ?_)
  rw [State.roundMiss_complete complete, ite_self]

theorem exec_frameAssembly_delivers {rd : Round} {s : State} (lit : s.lit = true) (one : s.fce.rounds = [rd])
    (past : rd.tIn ≤ s.sys.tick) (complete : s.roundComplete rd = true)
    (newer : (if rd.long then s.fce.long else s.fce.short).lhat = [] ∨
      (if rd.long then s.fce.long else s.fce.short).tIn < rd.tIn) :
    Gives (.frameAssembly rd.long rd.tIn) s fun t =>
      (if rd.long then t.fce.long else t.fce.short) = s.frameOf rd (s.sys.tick + 1) ∧
      (if rd.long then t.fce.short else t.fce.long) = (if rd.long then s.fce.short else s.fce.long) ∧
      t.fce.longFresh = (s.fce.longFresh || rd.long) ∧ t.fce.inst = s.fce.inst ∧ t.fce.rounds = [] ∧
      t.evr = if (s.frameOf rd (s.sys.tick + 1)).partialFrame then s.evs [(0x6012, noInst, 0)] else s.evr := by
  refine ⟨_, exec_frameAssembly_complete lit one past complete, ?_⟩
  have fce : (s.assemble (s.sys.tick + 1) rd).fce = s.roundFramed (s.sys.tick + 1) rd := by
    rw [State.assemble_delivers newer]
    split
    · exact State.ev_fce _ _ _ _
    · rfl
  beta_reduce
  rw [fce]
  refine ⟨?_, ?_, rfl, rfl, congrArg Fce.rounds (State.withoutRound_one one), ?_⟩
  · cases long : rd.long <;> simp [State.roundFramed, long]
  · cases long : rd.long <;> simp [State.roundFramed, long]
  · rw [State.assemble_delivers newer]
    split
    · exact ((State.SameEv.refl s).withFce _).evs _ _ _
    · rfl

theorem exec_frameAssembly_discards {rd : Round} {s : State} (lit : s.lit = true) (one : s.fce.rounds = [rd])
    (past : rd.tIn ≤ s.sys.tick) (complete : s.roundComplete rd = true)
    (framed : (if rd.long then s.fce.long else s.fce.short).lhat ≠ [])
    (later : rd.tIn ≤ (if rd.long then s.fce.long else s.fce.short).tIn) :
    Gives (.frameAssembly rd.long rd.tIn) s fun t =>
      t.fce = { s.fce with rounds := [], discarded := bump 32 s.fce.discarded } ∧
      t.evr = s.evs [(0x6013, noInst, 0)] := by
  refine ⟨_, exec_frameAssembly_complete lit one past complete, ?_⟩
  rw [State.assemble_discards framed later, State.withoutRound_one one]
  exact ⟨State.ev_fce _ _ _ _, ((State.SameEv.refl s).withFce _).evs _ _ _⟩

theorem exec_frameAssembly_waits {rd : Round} {s : State} (one : s.fce.rounds = [rd])
    (open_ : s.roundComplete rd = false) : exec (.frameAssembly rd.long rd.tIn) s = .next s :=
  congrArg Host.Outcome.next (if_neg (by simp [State.roundAt_one one, open_]))

theorem exec_frameDeadline_late {rd : Round} {i : Fin 10} {e : Eval} {s : State} (lit : s.lit = true)
    (one : s.fce.rounds = [rd]) (past : rd.tIn ≤ s.sys.tick) (late : rd.late (s.sys.tick + 1) = true)
    (due : rd.due = [i.val]) (found : (s.finst i).flight.find? (fun x => x.tIn = rd.tIn && !x.missed) = some e) :
    Gives (.frameDeadline rd.long rd.tIn) s fun t =>
      (t.finst i).misses = bump 32 (s.finst i).misses ∧ (t.finst i).onTime = 0 ∧
      (t.finst i).flight = (s.finst i).flight.map (fun y => if y.tIn = rd.tIn then { y with missed := true } else y) ∧
      (t.finst i).divLog2 = (if (s.finst i).doublings = e.doublings ∧ (s.finst i).divLog2 < 6
        then (s.finst i).divLog2 + 1 else (s.finst i).divLog2) ∧
      (∀ j, j ≠ i → t.finst j = s.finst j) ∧ t.fce.rounds = [] := by
  obtain ⟨u, hu⟩ : ∃ u, u = s.evalMiss i rd.tIn := ⟨_, rfl⟩
  have assembled : (if rd.late (s.sys.tick + 1) = true then s.roundMiss rd else s) = u := by
    rw [if_pos late, State.roundMiss_one due, hu]
  have missed := hu ▸ State.evalMiss_fce found
  have rounds : u.fce.rounds = [rd] := by rw [missed]; exact one
  obtain ⟨inst, rest⟩ := u.assemble_keeps (s.sys.tick + 1) rd
  have entries (j : Fin 10) : (u.assemble (s.sys.tick + 1) rd).finst j = u.finst j :=
    congrArg (fun v : Vector FInst 10 => v[j.val]) inst
  have own := (entries i).trans ((State.finst_of_fce missed i).trans (s.updInst_same i _))
  refine ⟨_, congrArg Host.Outcome.next (State.frameCmd_one lit one past late (by simp [late])), ?_⟩
  rw [assembled]
  beta_reduce
  rw [own, rest, State.withoutRound_one rounds]
  exact ⟨rfl, rfl, rfl, rfl, fun j other => by rw [entries, State.finst_of_fce missed, State.updInst_other other], rfl⟩

/-! The newest long frame goes stale (R217). -/

theorem exec_longStale_stale {s : State} (lit : s.lit = true) (stale : s.longStaleAt (s.sys.tick + 1) = true)
    (short : ∀ rd ∈ s.fce.rounds, rd.long = false) : exec .longStale s =
      .next { s with fce := { s.fce with longFresh := false }, evr := s.evs [(0x6050, noInst, 0)] } := by
  have none : (s.fce.rounds.any fun rd => rd.long && (s.roundComplete rd || rd.late (s.sys.tick + 1))) = false :=
    List.any_eq_false.2 fun rd mem => by simp [short rd mem]
  exact congrArg Host.Outcome.next ((if_pos (by rw [lit, stale, none]; rfl)).trans (s.ev_withFce _ _ _ _))

/-- Settles O15: the end of an evaluation by what it makes of its entry of the engine, and one waiting round by the frame
or the miss it ends in. -/
theorem evaluationsAndFrames : Obligations.EvaluationsAndFrames :=
  ⟨fun _ _ _ _ _ _ => exec_forecastEvalDone_ready, fun _ _ _ _ _ => exec_weightCopyDone_ready,
    fun _ _ _ _ _ => exec_weightCopyDone_waits, fun _ _ => exec_frameAssembly_delivers,
    fun _ _ => exec_frameAssembly_discards, fun _ _ => exec_frameAssembly_waits,
    fun _ _ _ _ => exec_frameDeadline_late, fun _ => exec_longStale_stale⟩

end Sys2Proof.Machine
end

section
/-! SUPPORT. The forecast engine starts and stops (R234). -/

namespace Sys2Proof.Machine

theorem State.engineSync_steady {s : State} (steady : s.engineWanted = s.fce.running) : s.engineSync = s :=
  if_pos (by simp [steady])

theorem State.engineSync_starts {s : State} (wanted : s.engineWanted = true) (stopped : s.fce.running = false) :
    s.engineSync = ({ s with fce := { s.fce with
      running := true
      inst := s.fce.inst.map fun (x : FInst) => { x with stateMem := [] }
      short := { s.fce.short with valid := false }, long := { s.fce.long with valid := false } } } : State).ev 0x6001 :=
  (if_neg (by simp [wanted, stopped])).trans (if_pos wanted)

theorem State.engineSync_stops {s : State} (unwanted : s.engineWanted = false) (runs : s.fce.running = true) :
    s.engineSync = ({ s with fce := { s.fce with
      running := false, rounds := [], inst := s.fce.inst.map FInst.abandon } } : State).ev 0x6002 :=
  (if_neg (by simp [unwanted, runs])).trans (if_neg (by simp [unwanted]))

/-- Once FORECAST_EN is written, the engine's condition stands on its value. -/
theorem State.engineWanted_written (s : State) (v : Bool) :
    ({ s with fce := { s.fce with forecastEn := v } } : State).engineWanted =
      (v && s.inState [.armed, .run] && !s.fce.dieStop) :=
  congrArg (· && !s.fce.dieStop) (Bool.and_comm _ _)

section Written

variable {sess : Fin 64} {v : Bool} {s : State} (allowed : s.allows sess .oar = true)
include allowed

theorem exec_forecastEn_allowed : exec (.forecastEn sess v) s = .next (s.forecastEnable v) :=
  congrArg Host.Outcome.next (State.regCmd_allowed allowed _)

theorem exec_forecastEn_starts (wanted : (v && s.inState [.armed, .run] && !s.fce.dieStop) = true)
    (stopped : s.fce.running = false) : Gives (.forecastEn sess v) s fun t =>
      t.fce = { s.fce with
        forecastEn := v, running := true, inst := s.fce.inst.map fun x => { x with stateMem := [] }
        short := { s.fce.short with valid := false }, long := { s.fce.long with valid := false } } ∧
      t.evr = s.evs [(0x6001, noInst, 0)] := by
  refine ⟨_, exec_forecastEn_allowed allowed, ?_⟩
  rw [State.forecastEnable, State.engineSync_starts ((s.engineWanted_written v).trans wanted) stopped]
  exact ⟨State.ev_fce _ _ _ _, ((State.SameEv.refl s).withFce _).evs _ _ _⟩

theorem exec_forecastEn_stops (unwanted : (v && s.inState [.armed, .run] && !s.fce.dieStop) = false)
    (runs : s.fce.running = true) : Gives (.forecastEn sess v) s fun t =>
      t.fce = { s.fce with
        forecastEn := v, running := false, rounds := []
        inst := s.fce.inst.map fun x => { x with flight := [], copyWait := [] } } ∧
      t.evr = s.evs [(0x6002, noInst, 0)] := by
  refine ⟨_, exec_forecastEn_allowed allowed, ?_⟩
  rw [State.forecastEnable, State.engineSync_stops ((s.engineWanted_written v).trans unwanted) runs]
  exact ⟨State.ev_fce _ _ _ _, ((State.SameEv.refl s).withFce _).evs _ _ _⟩

theorem exec_forecastEn_steady (steady : (v && s.inState [.armed, .run] && !s.fce.dieStop) = s.fce.running) :
    exec (.forecastEn sess v) s = .next { s with fce := { s.fce with forecastEn := v } } := by
  rw [exec_forecastEn_allowed allowed, State.forecastEnable,
    State.engineSync_steady ((s.engineWanted_written v).trans steady)]

theorem exec_adaptEn_allowed : exec (.adaptEn sess v) s = .next { s with fce := { s.fce with adaptEn := v } } :=
  congrArg Host.Outcome.next (State.regCmd_allowed allowed _)

theorem exec_adaptDis_used {i : Fin 10} (used : (s.instModel i).isSome = true) :
    exec (.adaptDis sess i v) s = .next (s.updInst i fun x => { x with adaptDis := v }) :=
  congrArg Host.Outcome.next (State.regCmdAt_allowed used allowed _)

end Written

/-- A control field of something that the configuration does not use (R496). -/
theorem State.regCmdAt_unused {s : State} {live : Bool} {n : Fin 64} {c : AccClass} (unused : live = false)
    (f : State → State) : s.regCmdAt live n c f = s :=
  if_neg (by simp [unused])

theorem exec_adaptDis_unused {sess : Fin 64} {i : Fin 10} {v : Bool} {s : State} (unused : s.instModel i = none) :
    exec (.adaptDis sess i v) s = .next s :=
  congrArg Host.Outcome.next (State.regCmdAt_unused (by rw [unused]; rfl) _)

end Sys2Proof.Machine
end

section
/-! SUPPORT. Heads return to their base weights, and adaptation pauses (R239, R246). -/

namespace Sys2Proof.Machine

/-! What leaves the configuration alone leaves the models of the instances. -/

theorem State.instModel_of_cfg {s t : State} (same : t.cfg = s.cfg) (i : Fin 10) : t.instModel i = s.instModel i := by
  simp only [State.instModel, State.recs, same]

theorem State.modelRecs_of_cfg {s t : State} (same : t.cfg = s.cfg) : t.modelRecs = s.modelRecs := by
  have recs : t.recs = s.recs := funext fun ty => by simp only [State.recs, same]
  rw [State.modelRecs, State.modelRecs, recs]

theorem State.headRec_of_cfg {s t : State} (same : t.cfg = s.cfg) (d : Rec) : t.headRec d = s.headRec d := by
  simp only [State.headRec, State.recs, same]

/-! One head. -/

/-- A head returns to its base weights, of which free bytes are read at count n (R239, log entry 7). -/
def State.reverted (s : State) (d : Rec) (n : Nat) (x : FInst) : FInst :=
  { x with
    w := some (baseHead s.modelRecs d n)
    pMat := some (diagP (((baseHead s.modelRecs d n).head?.map List.length).getD 0)
      (((s.headRec d).map fun r => r.u32 0x10).getD 0))
    ms := 0, errRms := 0, revertRun := 0, suspended := true, suspendTick := s.sys.tick
    reversions := bump 16 x.reversions }

theorem State.reverted_of {s t : State} (cfg : t.cfg = s.cfg) (sys : t.sys = s.sys) (d : Rec) (n : Nat) :
    t.reverted d n = s.reverted d n := by
  funext x
  rw [State.reverted, State.reverted, State.modelRecs_of_cfg cfg, State.headRec_of_cfg cfg, sys]

theorem State.headRevert_adapts {s : State} {i : Fin 10} {d : Rec} (model : s.instModel i = some d)
    (adapts : d.adapts = true) : s.headRevert i = (s.updInst i (s.reverted d s.fv)).used.ev 0x6030 i.val := by
  rw [State.headRevert, model]
  exact if_neg (by simp [adapts])

theorem State.headRevert_fixed {s : State} {i : Fin 10} (fixed : (s.instModel i).any Rec.adapts = false) :
    s.headRevert i = s := by
  rw [State.headRevert]
  cases model : s.instModel i with
  | none => rfl
  | some d => exact if_pos (by simpa [model] using fixed)

theorem State.headRevert_cfg (s : State) (i : Fin 10) : (s.headRevert i).cfg = s.cfg :=
  (State.headRevert_kept s i (List.Subset.refl _) .rfl).only .cfg (by decide)

theorem State.headRevert_sys (s : State) (i : Fin 10) : (s.headRevert i).sys = s.sys :=
  (State.headRevert_kept s i (List.Subset.refl _) .rfl).only .sys (by decide)

/-- What the reversion of one head does. -/
theorem State.headRevert_does {s : State} {i : Fin 10} {d : Rec} (model : s.instModel i = some d)
    (adapts : d.adapts = true) :
    (s.headRevert i).finst i = s.reverted d s.fv (s.finst i) ∧ (∀ j, j ≠ i → (s.headRevert i).finst j = s.finst j) ∧
    (s.ev 0x6030 i.val 0).SameEv (s.headRevert i) := by
  rw [State.headRevert_adapts model adapts]
  refine ⟨?_, fun j other => ?_, ((State.SameEv.refl s).updInst i _).used.ev _ _ _⟩
  · rw [State.ev_finst, State.used_finst, State.updInst_same]
  · rw [State.ev_finst, State.used_finst, State.updInst_other other]

theorem exec_revert_used {sess : Fin 64} {i : Fin 10} {s : State} (used : (s.instModel i).isSome = true)
    (allowed : s.allows sess .oar = true) : exec (.revert sess i) s = .next (s.headRevert i) :=
  congrArg Host.Outcome.next (State.regCmdAt_allowed used allowed _)

theorem exec_revert_unused {sess : Fin 64} {i : Fin 10} {s : State} (unused : s.instModel i = none) :
    exec (.revert sess i) s = .next s :=
  congrArg Host.Outcome.next (State.regCmdAt_unused (by rw [unused]; rfl) _)

theorem exec_revert_adapts {sess : Fin 64} {i : Fin 10} {d : Rec} {s : State} (model : s.instModel i = some d)
    (allowed : s.allows sess .oar = true) (adapts : d.adapts = true) : Gives (.revert sess i) s fun t =>
      t.finst i = { s.finst i with
        w := some (baseHead s.modelRecs d s.fv)
        pMat := some (diagP (((baseHead s.modelRecs d s.fv).head?.map List.length).getD 0)
          (((s.headRec d).map fun r => r.u32 0x10).getD 0))
        ms := 0, errRms := 0, revertRun := 0, suspended := true, suspendTick := s.sys.tick
        reversions := bump 16 (s.finst i).reversions } ∧
      (∀ j, j ≠ i → t.finst j = s.finst j) ∧ t.evr = s.evs [(0x6030, i.val, 0)] := by
  obtain ⟨own, others, same⟩ := State.headRevert_does model adapts
  exact ⟨_, exec_revert_used (by rw [model]; rfl) allowed, own, others, same.evr.symm⟩

theorem exec_revert_fixed {sess : Fin 64} {i : Fin 10} {d : Rec} {s : State} (model : s.instModel i = some d)
    (allowed : s.allows sess .oar = true) (fixed : d.adapts = false) : exec (.revert sess i) s = .next s := by
  rw [exec_revert_used (by rw [model]; rfl) allowed, State.headRevert_fixed (by simpa [model] using fixed)]

/-! Every head. -/

/-- Events recorded after states that the recorder cannot tell apart. -/
theorem State.SameEv.evs_eq {s t : State} (h : s.SameEv t) (l : List (Nat × Nat × Nat)) : s.evs l = t.evs l := by
  induction l generalizing s t with
  | nil => exact h.evr
  | cons e l ih => exact ih (h.ev _ _ _)

/-- The heads of a list of instances revert, one after the other: each that adapts at the count it meets, the others not. -/
theorem State.foldl_headRevert {l : List (Fin 10)} (once : l.Nodup) (s : State) :
    (∀ i d, i ∈ l → s.instModel i = some d → d.adapts = true →
      ∃ n, (l.foldl State.headRevert s).finst i = s.reverted d n (s.finst i)) ∧
    (∀ i, i ∉ l ∨ (s.instModel i).any Rec.adapts = false → (l.foldl State.headRevert s).finst i = s.finst i) ∧
    (l.foldl State.headRevert s).evr =
      s.evs ((l.filter fun i => (s.instModel i).any Rec.adapts).map fun i => (0x6030, i.val, 0)) := by
  induction l generalizing s with
  | nil => exact ⟨fun _ _ mem => by simp at mem, fun _ _ => rfl, rfl⟩
  | cons a l ih =>
    obtain ⟨fresh, once⟩ := List.nodup_cons.1 once
    obtain ⟨revert, keep, events⟩ := ih once (s.headRevert a)
    have models : (s.headRevert a).instModel = s.instModel :=
      funext (State.instModel_of_cfg (s.headRevert_cfg a))
    rw [models] at revert keep events
    rw [List.foldl_cons]
    cases adapts : (s.instModel a).any Rec.adapts with
    | false =>
      rw [State.headRevert_fixed adapts] at revert keep events ⊢
      refine ⟨fun i d mem model on => ?_, fun i out => keep i ?_, ?_⟩
      · have other : i ≠ a := fun same => by simp [← same, model, on] at adapts
        exact revert i d (List.mem_of_ne_of_mem other mem) model on
      · exact out.imp_left fun absent mem => absent (List.mem_cons_of_mem _ mem)
      · rw [List.filter_cons_of_neg (by simp [adapts])]
        exact events
    | true =>
      obtain ⟨d, model, on⟩ : ∃ d, s.instModel a = some d ∧ d.adapts = true := by simpa [Option.any_eq_true] using adapts
      obtain ⟨own, others, same⟩ := State.headRevert_does model on
      refine ⟨fun i d' mem model' on' => ?_, fun i out => ?_, ?_⟩
      · by_cases first : i = a
        · subst first
          obtain rfl : d = d' := Option.some.inj (model.symm.trans model')
          exact ⟨s.fv, by rw [keep i (.inl fresh), own]⟩
        · obtain ⟨n, value⟩ := revert i d' (List.mem_of_ne_of_mem first mem) model' on'
          exact ⟨n, by rw [value, others i first, State.reverted_of (s.headRevert_cfg a) (s.headRevert_sys a)]⟩
      · have other : i ≠ a := fun first => by
          rcases out with absent | fixed
          · exact absent (first ▸ List.mem_cons_self)
          · rw [first, adapts] at fixed
            contradiction
        rw [keep i (out.imp_left fun absent mem => absent (List.mem_cons_of_mem _ mem)), others i other]
      · rw [List.filter_cons_of_pos (p := fun i => (s.instModel i).any Rec.adapts) adapts, List.map_cons, State.evs_cons, events]
        exact (same.evs_eq _).symm

theorem exec_revertAll_allowed {sess : Fin 64} {s : State} (allowed : s.allows sess .oar = true) :
    Gives (.revertAll sess) s fun t =>
      (∀ i d, s.instModel i = some d → d.adapts = true → ∃ n,
        t.finst i = { s.finst i with
          w := some (baseHead s.modelRecs d n)
          pMat := some (diagP (((baseHead s.modelRecs d n).head?.map List.length).getD 0)
            (((s.headRec d).map fun r => r.u32 0x10).getD 0))
          ms := 0, errRms := 0, revertRun := 0, suspended := true, suspendTick := s.sys.tick
          reversions := bump 16 (s.finst i).reversions }) ∧
      (∀ i, (∀ d, s.instModel i = some d → d.adapts = false) → t.finst i = s.finst i) ∧
      t.evr = s.evs (((List.finRange 10).filter fun i => (s.instModel i).any Rec.adapts).map fun i => (0x6030, i.val, 0)) := by
  obtain ⟨revert, keep, events⟩ := State.foldl_headRevert (List.nodup_finRange 10) s
  refine ⟨_, congrArg Host.Outcome.next (State.regCmd_allowed allowed _),
    fun i d => revert i d (List.mem_finRange i), fun i fixed => keep i (.inr ?_), events⟩
  cases model : s.instModel i with
  | none => rfl
  | some d => exact fixed d model

/-! HOLDOFF_MS ends (R239). -/

theorem exec_adaptResumed_ends {i : Fin 10} {s : State} (lit : s.lit = true)
    (ends : s.holdoffOver i (s.sys.tick + 1) = true) :
    exec (.adaptResumed i) s = .next ((s.updInst i fun x => { x with suspended := false }).ev 0x6033 i.val) :=
  congrArg Host.Outcome.next (if_pos (by rw [lit, ends]; rfl))

theorem exec_adaptResumed_runs {i : Fin 10} {s : State} (runs : s.holdoffOver i (s.sys.tick + 1) = false) :
    exec (.adaptResumed i) s = .next s :=
  congrArg Host.Outcome.next (if_neg (by simp [runs]))

end Sys2Proof.Machine
end

section
/-! SUPPORT. The update of the adaptive heads (R238, R239). -/

namespace Sys2Proof.Machine

/-! The tick of the update. -/

theorem State.headsAt_due {s : State} {t : Nat} (runs : s.fce.running = true) (multiple : t % 500 = 0)
    (first : s.fce.headAt ≠ t) : s.headsAt t = (List.finRange 10).foldl (State.headUpdate t)
      { s.noteSums t with fce := { (s.noteSums t).fce with headAt := t } } :=
  if_pos (by simp [runs, multiple, first])

theorem State.headsAt_idle {s : State} {t : Nat} (idle : s.fce.running = false ∨ t % 500 ≠ 0 ∨ s.fce.headAt = t) :
    s.headsAt t = s :=
  if_neg (by rcases idle with h | h | h <;> simp [h])

theorem exec_headUpdate_due {s : State} (lit : s.lit = true) (runs : s.fce.running = true)
    (multiple : (s.sys.tick + 1) % 500 = 0) (first : s.fce.headAt ≠ s.sys.tick + 1) :
    exec .headUpdate s = .next ((List.finRange 10).foldl (State.headUpdate (s.sys.tick + 1))
      { s.noteSums (s.sys.tick + 1) with fce := { (s.noteSums (s.sys.tick + 1)).fce with headAt := s.sys.tick + 1 } }) :=
  congrArg Host.Outcome.next ((if_pos lit).trans (State.headsAt_due runs multiple first))

theorem exec_headUpdate_idle {s : State}
    (idle : s.fce.running = false ∨ (s.sys.tick + 1) % 500 ≠ 0 ∨ s.fce.headAt = s.sys.tick + 1) :
    exec .headUpdate s = .next s := by
  have next : exec .headUpdate s = .next (if s.lit then s.headsAt (s.sys.tick + 1) else s) := rfl
  rw [next, State.headsAt_idle idle, ite_self]

/-! One head. -/

theorem State.headUpdate_idle {i : Fin 10} {u : Nat} {s : State}
    (idle : (s.instModel i).any Rec.adapts = false ∨ s.fce.adaptEn = false ∨ (s.finst i).adaptDis = true ∨
      (s.finst i).suspended = true ∨ (s.finst i).active = false ∨ (s.finst i).trainable (instLong i) u = none) :
    s.headUpdate u i = s := by
  rw [State.headUpdate]
  cases model : s.instModel i with
  | none => rfl
  | some d =>
    cases head : s.headRec d with
    | none => simp only [head]
    | some r =>
      cases trains : (s.finst i).trainable (instLong i) u with
      | none => simp only [head]
      | some f =>
        simp only [head]
        refine if_pos ?_
        rw [model, trains] at idle
        rcases idle with h | h | h | h | h | h
        · simp [show d.adapts = false from h]
        · simp [h]
        · simp [h]
        · simp [h]
        · simp [h]
        · cases h

/-- What a head learns from: the errors of its output against the sums that came (R238). -/
def headErrors (d : Rec) (f : FResult) (acts : List Nat) : List Nat :=
  (acts.zip f.y).map fun a => fSub (fMul a.1 (fPow2 (-d.outQ))) a.2

/-- The recursive least-squares step of a head from these errors: the weights, P, and whether a weight was clamped. -/
def State.headStep (s : State) (i : Fin 10) (d r : Rec) (f : FResult) (e : List Nat) :
    List (List Nat) × List (List Nat) × Bool :=
  rlsStep r (baseHead s.modelRecs d s.fv) ((s.finst i).w.getD (baseHead s.modelRecs d s.fv))
    ((s.finst i).pMat.getD (diagP f.h.length (r.u32 0x10))) f.h e

/-- P has to start again: its trace is beyond TRACE_MAX or it holds a NaN (R238). -/
def pSpoilt (r : Rec) (k : Nat) (p : List (List Nat)) : Bool :=
  fLt (r.u32 0x1C) (fSum ((List.range k).map fun j => (p.getD j []).getD j 0)) || p.any fun row => row.any fIsNaN

/-- The mean square of the errors, followed (R239). -/
def FInst.nextMs (x : FInst) (d : Rec) (e : List Nat) : Nat :=
  fAdd x.ms (fDiv (fSub (fMul (fDiv (fSum (e.map fun v => fMul v v)) (fOfInt d.outLen)) (fPow2 (2 * d.outQ))) x.ms)
    (fOfInt 100))

/-- The run of updates with err_rms above REVERT_W, with the one that gives `ms` (R239). -/
def FInst.nextRun (x : FInst) (r : Rec) (ms : Nat) : Nat :=
  if (!fIsNaN (fSqrt ms) && (fIsInf (fSqrt ms) || (r.u32 0x20 : Int) * 2 ^ 149 < fFix (fSqrt ms))) = true
  then x.revertRun + 1 else 0

/-- One of the instances after one update of its head (R238, R239). -/
def FInst.learned (x : FInst) (r : Rec) (k : Nat) (n : List (List Nat) × List (List Nat) × Bool) (ms : Nat) : FInst :=
  { x with
    w := some n.1, pMat := some (if pSpoilt r k n.2.1 = true then diagP k (r.u32 0x10) else n.2.1)
    guardClamped := n.2.2, ms := ms, errRms := fSqrt ms, revertRun := x.nextRun r ms
    pResets := if pSpoilt r k n.2.1 = true then bump 16 x.pResets else x.pResets }

/-- The events of one update of a head (R238). -/
def headEvents (i : Fin 10) (clamped spoilt : Bool) : List (Nat × Nat × Nat) :=
  (if clamped = true then [(0x6031, i.val, 0)] else []) ++ if spoilt = true then [(0x6032, i.val, 0)] else []

/-- The state after one update of a head, before it can revert (R238). -/
def State.headLearned (s : State) (i : Fin 10) (r : Rec) (k : Nat) (n : List (List Nat) × List (List Nat) × Bool)
    (ms : Nat) : State :=
  let t := (s.updInst i fun x => x.learned r k n ms).used
  let t := if n.2.2 = true then t.ev 0x6031 i.val else t
  if pSpoilt r k n.2.1 = true then t.ev 0x6032 i.val else t

/-- Two events on a state that the recorder cannot tell from `s`. -/
theorem State.ev_ev_of {s t : State} (h : s.SameEv t) (c i d c' i' d' : Nat) :
    (t.ev c i d).ev c' i' d' = { t with evr := s.evs [(c, i, d), (c', i', d')] } := by
  rw [State.ev_of (h.ev c i d) c' i' d', State.ev_of h c i d]
  rfl

theorem State.headLearned_eq (s : State) (i : Fin 10) (r : Rec) (k : Nat)
    (n : List (List Nat) × List (List Nat) × Bool) (ms : Nat) :
    s.headLearned i r k n ms = { (s.updInst i fun x => x.learned r k n ms).used with
      evr := s.evs (headEvents i n.2.2 (pSpoilt r k n.2.1)) } := by
  obtain ⟨t, ht⟩ : ∃ t, t = (s.updInst i fun x => x.learned r k n ms).used := ⟨_, rfl⟩
  have same : s.SameEv t := ht ▸ ((State.SameEv.refl s).updInst i _).used
  rw [State.headLearned, ← ht]
  cases n.2.2 <;> cases pSpoilt r k n.2.1 <;>
    simp only [headEvents, if_true, Bool.false_eq_true, if_false, List.nil_append, List.append_nil, List.cons_append]
  · rw [State.evs_nil, same.evr]
  · exact State.ev_of same 0x6032 i.val 0
  · exact State.ev_of same 0x6031 i.val 0
  · exact State.ev_ev_of same 0x6031 i.val 0 0x6032 i.val 0

theorem State.headUpdate_learns {i : Fin 10} {u : Nat} {d r : Rec} {f : FResult} {acts : List Nat} {s : State}
    (model : s.instModel i = some d) (head : s.headRec d = some r) (adapts : d.adapts = true)
    (active : (s.finst i).active = true) (enabled : s.fce.adaptEn = true) (allowed : (s.finst i).adaptDis = false)
    (free : (s.finst i).suspended = false) (trains : (s.finst i).trainable (instLong i) u = some f)
    (known : ((List.range d.outLen).map fun j =>
      s.actual (instRole i) (f.tIn + (if instLong i = true then 500 else 1) * (j + 1)) (instLong i)) = acts.map some) :
    s.headUpdate u i =
      let e := headErrors d f acts
      let n := s.headStep i d r f e
      let ms := (s.finst i).nextMs d e
      let t := s.headLearned i r f.h.length n ms
      if r.u16 0x24 ≤ (s.finst i).nextRun r ms || n.1.any (fun row => row.any fIsNaN) then t.headRevert i else t := by
  unfold State.headUpdate
  lift_lets
  intro x unit e n ms t
  rw [model]
  dsimp -zeta only
  rw [head, show x.trainable (instLong i) u = some f from trains]
  dsimp -zeta only
  lift_lets
  intro base acts' kk tgt e'
  have sums : acts' = acts.map some := known
  have errors : e' = e := by simp [e', e, tgt, sums, headErrors, List.zip_map_left]
  have step : rlsStep r base (x.w.getD base) (x.pMat.getD (diagP kk (r.u32 0x10))) f.h e = n := rfl
  rw [errors, step]
  clear_value n
  refine (if_neg (by simp [x, adapts, active, enabled, allowed, free, sums])).trans ?_
  rfl

/-- What one update of a head does, as it stays or as it reverts. -/
theorem State.headUpdate_does {i : Fin 10} {u : Nat} {d r : Rec} {f : FResult} {acts : List Nat} {s : State}
    (model : s.instModel i = some d) (head : s.headRec d = some r) (adapts : d.adapts = true)
    (active : (s.finst i).active = true) (enabled : s.fce.adaptEn = true) (allowed : (s.finst i).adaptDis = false)
    (free : (s.finst i).suspended = false) (trains : (s.finst i).trainable (instLong i) u = some f)
    (known : ((List.range d.outLen).map fun j =>
      s.actual (instRole i) (f.tIn + (if instLong i = true then 500 else 1) * (j + 1)) (instLong i)) = acts.map some) :
    let x := s.finst i
    let e := headErrors d f acts
    let n := s.headStep i d r f e
    let ms := x.nextMs d e
    let t := s.headUpdate u i
    (x.nextRun r ms < r.u16 0x24 → (n.1.any fun row => row.any fIsNaN) = false →
      t.finst i = x.learned r f.h.length n ms ∧
      t.evr = s.evs (headEvents i n.2.2 (pSpoilt r f.h.length n.2.1))) ∧
    (r.u16 0x24 ≤ x.nextRun r ms ∨ (n.1.any fun row => row.any fIsNaN) = true →
      (t.finst i).suspended = true ∧ (t.finst i).ms = 0 ∧ (t.finst i).reversions = bump 16 x.reversions ∧
      (t.finst i).w = some (baseHead s.modelRecs d (s.fv + 1))) ∧
    ∀ j, j ≠ i → t.finst j = s.finst j := by
  intro x e n ms t
  have step := State.headUpdate_learns model head adapts active enabled allowed free trains known
  obtain ⟨v, hv⟩ : ∃ v, v = s.headLearned i r f.h.length n ms := ⟨_, rfl⟩
  have eq := hv.trans (s.headLearned_eq i r f.h.length n ms)
  have own : v.finst i = x.learned r f.h.length n ms := by rw [eq]; exact s.updInst_same i _
  have others (j : Fin 10) (other : j ≠ i) : v.finst j = s.finst j := by rw [eq]; exact State.updInst_other other s _
  have evr : v.evr = s.evs (headEvents i n.2.2 (pSpoilt r f.h.length n.2.1)) := by rw [eq]
  have cfg : v.cfg = s.cfg := by rw [eq]; rfl
  have fv : v.fv = s.fv + 1 := by rw [eq]; rfl
  obtain ⟨back, beside, -⟩ := State.headRevert_does ((State.instModel_of_cfg cfg i).trans model) adapts
  have step : t = if (decide (r.u16 0x24 ≤ x.nextRun r ms) || n.1.any fun row => row.any fIsNaN) = true
      then v.headRevert i else v := by rw [hv]; exact step
  refine ⟨fun short sound => ?_, fun long => ?_, fun j other => ?_⟩
  · rw [step, if_neg (by simp [short, sound])]
    exact ⟨own, evr⟩
  · rw [step, if_pos (by simpa using long), back, own, State.reverted, State.modelRecs_of_cfg cfg, fv]
    exact ⟨rfl, rfl, rfl, rfl⟩
  · rw [step]
    split
    · rw [beside j other, others j other]
    · exact others j other

/-- Settles O16: the engine by its condition, the heads that revert by their fold, and one update by what a head learns. -/
theorem forecastEngineAndHeads : Obligations.ForecastEngineAndHeads :=
  ⟨fun _ _ _ => exec_forecastEn_starts, fun _ _ _ => exec_forecastEn_stops, fun _ _ _ => exec_forecastEn_steady,
    fun _ _ _ => exec_adaptEn_allowed, fun _ _ _ _ used allowed => exec_adaptDis_used allowed used,
    fun _ _ _ _ => exec_adaptDis_unused, fun _ _ _ => exec_revert_unused, fun _ _ _ _ => exec_revert_adapts,
    fun _ _ _ _ => exec_revert_fixed, fun _ _ => exec_revertAll_allowed, fun _ _ => exec_adaptResumed_ends,
    fun _ _ _ => exec_adaptResumed_runs, fun _ => exec_headUpdate_due, fun _ => exec_headUpdate_idle,
    fun _ _ _ => State.headUpdate_idle, fun _ _ _ _ _ _ _ => State.headUpdate_does⟩

end Sys2Proof.Machine
end

section
/-! SUPPORT. The links of the tray ports and the states they lead a port through (R258, R262, R263, R280, R282 to R284, R292). -/

namespace Sys2Proof.Machine

/-! Block lock (R262, R263). -/

theorem exec_linkUp_rises {n : Fin 64} {s : State} (down : (s.port n).linked = false)
    (settled : (s.port n).debouncing = false) (up : s.tlk.portsUp = true) (used : (s.port n).state ≠ .unused) :
    exec (.linkUp n) s = .next (((s.updPort n fun p => { p with
      linked := true, reportTick := s.sys.tick
      state := if p.state = .down then .identifying else p.state }).ev 0x7001 n.val).sendGrant n) :=
  (if_neg (by simp [down, settled, up])).trans (if_neg used)

theorem exec_linkUp_unused {n : Fin 64} {s : State} (down : (s.port n).linked = false)
    (settled : (s.port n).debouncing = false) (up : s.tlk.portsUp = true) (unused : (s.port n).state = .unused) :
    exec (.linkUp n) s = .next (s.updPort n fun p => { p with linked := true }) :=
  (if_neg (by simp [down, settled, up])).trans (if_pos unused)

theorem exec_linkUp_idle {n : Fin 64} {s : State}
    (barred : s.tlk.portsUp = false ∨ (s.port n).linked = true ∨ (s.port n).debouncing = true) :
    exec (.linkUp n) s = .next s :=
  if_pos (by rcases barred with h | h | h <;> simp [h])

/-! Block lock is lost (R262, R283). -/

theorem exec_linkDown_debounces {n : Fin 64} {s : State} (linked : (s.port n).linked = true)
    (used : (s.port n).state ≠ .unused) (granting : (s.port n).granting = true) : exec (.linkDown n) s =
      .next (s.updPort n fun x => { x with linked := false, debouncing := true, debTick := s.sys.tick }) :=
  (if_neg (by simp [linked])).trans ((if_neg used).trans (if_pos granting))

theorem exec_linkDown_falls {n : Fin 64} {s : State} (linked : (s.port n).linked = true)
    (used : (s.port n).state ≠ .unused) (idle : (s.port n).granting = false) : exec (.linkDown n) s =
      .next ((((s.updPort n fun p => { p.unlink with
        state := if p.state = .locked then .locked else .down }).unserve n).ev 0x7002 n.val).settle) :=
  (if_neg (by simp [linked])).trans ((if_neg used).trans (if_neg (by simp [idle])))

theorem exec_linkGlitch_early {n : Fin 64} {s : State} (debouncing : (s.port n).debouncing = true)
    (early : s.sys.tick ≤ (s.port n).debTick + 10) : exec (.linkGlitch n) s =
      .next ((s.updPort n fun x => { x with linked := true, debouncing := false }).ev 0x7005 n.val) :=
  if_pos (by simp [debouncing, early])

theorem exec_linkGlitch_idle {n : Fin 64} {s : State}
    (barred : (s.port n).debouncing = false ∨ (s.port n).debTick + 10 < s.sys.tick) : exec (.linkGlitch n) s = .next s :=
  if_neg (by rcases barred with h | h <;> simp [h])

theorem exec_surpriseRemoval_late {n : Fin 64} {s : State} (debouncing : (s.port n).debouncing = true)
    (late : s.elapsed (s.port n).debTick 10 = true) :
    exec (.surpriseRemoval n) s = .next ((((((if s.primaryTray n = true
      then s.frameDrop (((s.port n).report.map Report.pTotal).getD 0) else s).updPort n fun p => { p.unlink with
        state := .locked, debouncing := false, target := 0, lowered := false }).purgeTray n).degrade).ev 0x7040
      n.val).syncOverShare.settle) :=
  if_pos (by simp [debouncing, late])

/-! The tray identifies itself (R258, R262, R283). -/

section Identified

variable {n : Fin 64} {f : Sys2Proof.IdentFrame} {s : State}

/-- What a valid IDENT leads to, by the state the port was in. -/
theorem exec_ident_valid (linked : (s.port n).linked = true) (up : s.tlk.portsUp = true) (version : f.version = 1)
    (fixed : f.fixedFreqCap = true) (caps : f.subCapsCap = true) (used : (s.port n).state ≠ .unused) :
    exec (.ident n f) s =
      if (s.port n).state = .identifying || (s.port n).state = .locked || (s.port n).state = .drained then
        .next ((((if (s.port n).state = .locked then (s.noteIdent n f).ev 0x7041 n.val else s.noteIdent n f).enterAfresh
          n).sendGrant n).tryPort n)
      else .next ((s.noteIdent n f).sendGrant n) :=
  if_neg (by simp [linked, up, version, fixed, caps, used])

theorem exec_ident_afresh (linked : (s.port n).linked = true) (up : s.tlk.portsUp = true) (version : f.version = 1)
    (fixed : f.fixedFreqCap = true) (caps : f.subCapsCap = true)
    (fresh : (s.port n).state = .identifying ∨ (s.port n).state = .drained) :
    exec (.ident n f) s = .next ((((s.noteIdent n f).enterAfresh n).sendGrant n).tryPort n) := by
  rcases fresh with state | state
  · rw [exec_ident_valid linked up version fixed caps (by simp [state]), if_pos (by simp [state]), if_neg (by simp [state])]
  · rw [exec_ident_valid linked up version fixed caps (by simp [state]), if_pos (by simp [state]), if_neg (by simp [state])]

theorem exec_ident_locked (linked : (s.port n).linked = true) (up : s.tlk.portsUp = true) (version : f.version = 1)
    (fixed : f.fixedFreqCap = true) (caps : f.subCapsCap = true) (locked : (s.port n).state = .locked) :
    exec (.ident n f) s = .next (((((s.noteIdent n f).ev 0x7041 n.val).enterAfresh n).sendGrant n).tryPort n) := by
  rw [exec_ident_valid linked up version fixed caps (by simp [locked]), if_pos (by simp [locked]), if_pos locked]

theorem exec_ident_again (linked : (s.port n).linked = true) (up : s.tlk.portsUp = true) (version : f.version = 1)
    (fixed : f.fixedFreqCap = true) (caps : f.subCapsCap = true)
    (state : (s.port n).state ≠ .unused ∧ (s.port n).state ≠ .identifying ∧ (s.port n).state ≠ .drained ∧
      (s.port n).state ≠ .locked) :
    exec (.ident n f) s = .next ((s.noteIdent n f).sendGrant n) := by
  obtain ⟨used, identified, serving, free⟩ := state
  rw [exec_ident_valid linked up version fixed caps used, if_neg (by simp [identified, serving, free])]

theorem exec_ident_invalid (invalid : (s.port n).linked = false ∨ (s.port n).state = .unused ∨ f.version ≠ 1 ∨
    f.fixedFreqCap = false ∨ f.subCapsCap = false) : exec (.ident n f) s = .next s :=
  if_pos (by rcases invalid with h | h | h | h | h <;> simp [h])

end Identified

/-! A port drains (R284, R292). -/

theorem State.drain_counted {s : State} {n : Fin 64} (counted : (s.port n).state.counted = true) :
    s.drain n = (((s.unserve n).updPort n fun p => { p.leave .draining with
      lowReports := 0, drainTick := s.sys.tick }).sendGrant n).syncOverShare :=
  if_pos counted

theorem State.drain_idle {s : State} {n : Fin 64} (out : (s.port n).state.counted = false) : s.drain n = s :=
  if_neg (by simp [out])

theorem exec_drainReq_counted {n : Fin 64} {s : State} (linked : (s.port n).linked = true)
    (counted : (s.port n).state.counted = true) : exec (.drainReq n) s =
      .next ((((s.unserve n).updPort n fun p => { p.leave .draining with
        lowReports := 0, drainTick := s.sys.tick }).sendGrant n).syncOverShare) :=
  congrArg Host.Outcome.next ((if_pos linked).trans (State.drain_counted counted))

theorem exec_drainReq_idle {n : Fin 64} {s : State} (barred : (s.port n).linked = false ∨ (s.port n).state.counted = false) :
    exec (.drainReq n) s = .next s := by
  have next : exec (.drainReq n) s = .next (if (s.port n).linked then s.drain n else s) := rfl
  rcases barred with down | out
  · rw [next, if_neg (by simp [down])]
  · rw [next, State.drain_idle out, ite_self]

theorem exec_drain_counted {sess n : Fin 64} {s : State} (allowed : s.allows sess .or_ = true)
    (counted : (s.port n).state.counted = true) : exec (.drain sess n) s =
      .next ((((s.unserve n).updPort n fun p => { p.leave .draining with
        lowReports := 0, drainTick := s.sys.tick }).sendGrant n).syncOverShare) := by
  have used : ((s.port n).state != .unused) = true := by
    cases state : (s.port n).state <;> simp_all [PortState.counted]
  exact congrArg Host.Outcome.next ((State.regCmdAt_allowed used allowed _).trans (State.drain_counted counted))

theorem exec_drained_over {n : Fin 64} {s : State} (draining : (s.port n).state = .draining)
    (ends : s.elapsed (s.port n).drainTick 50000 = true ∨ 3 ≤ (s.port n).lowReports) :
    exec (.drained n) s = .next (((((s.updPort n fun p => { p with state := .drained, target := 0 }).purgeTray n).ev 0x7042
      n.val).sendGrant n).syncOverShare) :=
  if_pos (by simpa [draining] using ends)

/-! A secondary takes a tray over (R258, R280). -/

theorem State.takeOver_idle {s : State} {n : Fin 64} (env : Nat)
    (barred : s.sys.state ≠ .run ∨ (s.port n).state ≠ .watch) : s.takeOver n env = s :=
  if_neg (by rcases barred with h | h <;> simp [h])

theorem exec_takeoverReq_watch {n : Fin 64} {env : BitVec 16} {s : State} (linked : (s.port n).linked = true)
    (watch : (s.port n).state = .watch) (run : s.sys.state = .run) :
    exec (.takeoverReq n env) s = .next (((((s.updPort n fun p => { p with
      state := .takenOver, target := s.entryBound n (min env.toNat (s.maxEnv n.val)), shareSet := false
      lowered := false }).ev 0x7050 n.val).sendGrant n).tryPort n).syncOverShare) :=
  congrArg Host.Outcome.next ((if_pos linked).trans (if_pos (by simp [watch, run])))

theorem exec_takeoverReq_idle {n : Fin 64} {env : BitVec 16} {s : State}
    (barred : s.sys.state ≠ .run ∨ (s.port n).linked = false ∨ (s.port n).state ≠ .watch) :
    exec (.takeoverReq n env) s = .next s := by
  have next : exec (.takeoverReq n env) s = .next (if (s.port n).linked then s.takeOver n env.toNat else s) := rfl
  rcases barred with device | down | port
  · rw [next, State.takeOver_idle _ (.inl device), ite_self]
  · rw [next, if_neg (by simp [down])]
  · rw [next, State.takeOver_idle _ (.inr port), ite_self]

/-! A port enters afresh the state that the device's asks for (R262, R282). -/

theorem State.inState_iff {s : State} {l : List DevState} : s.inState l = true ↔ s.sys.state ∈ l :=
  List.contains_iff_mem

theorem State.enterAfresh_notReady {s : State} (n : Fin 64) (idle : s.inState [.boot, .standby, .armed] = true) :
    s.enterAfresh n = s.updPort n fun p => p.leave .notReady := by
  have states : s.sys.state = .boot ∨ s.sys.state = .standby ∨ s.sys.state = .armed := by
    simpa using State.inState_iff.1 idle
  unfold State.enterAfresh
  rcases states with state | state | state <;> rw [state]

theorem State.enterAfresh_safe {s : State} (n : Fin 64) (safe : s.inState [.basalt, .shipPrep] = true) :
    s.enterAfresh n = s.updPort n fun p => p.leave .safe := by
  have states : s.sys.state = .basalt ∨ s.sys.state = .shipPrep := by simpa using State.inState_iff.1 safe
  unfold State.enterAfresh
  rcases states with state | state <;> rw [state]

theorem State.enterAfresh_run {s : State} (n : Fin 64) (run : s.sys.state = .run) :
    s.enterAfresh n = s.enterService n := by
  rw [State.enterAfresh, run]

theorem State.enterService_secondary {s : State} {n : Fin 64} (secondary : s.homing n.val = 2) :
    s.enterService n = s.updPort n fun p => { p with state := .watch, target := 0, primaryDown := 0 } :=
  if_pos secondary

theorem State.enterService_primary {s : State} {n : Fin 64} (primary : s.homing n.val ≠ 2) :
    s.enterService n = s.updPort n fun p => { p with
      state := .active, shareSet := false, lowered := false, handback := p.report.any Report.grantFrom
      target := s.entryBound n ((p.report.map fun r => min r.envInForce (s.maxEnv n.val)).getD (s.safeEnv n.val)) } := by
  refine (if_neg primary).trans (congrArg (s.updPort n) (funext fun p => ?_))
  cases p.report with
  | none => rfl
  | some r => rfl

/-! A tray leaves the schedule, the occupancy and the frames (R218, R283). -/

/-- A mask with one bit taken out does not have it. -/
theorem tb_without (m k : Nat) : tb (if tb m k then m - 2 ^ k else m) k = false := by
  split
  case isTrue set =>
    have odd : m / 2 ^ k % 2 = 1 := by simpa [tb] using set
    have quotient : (m - 2 ^ k) / 2 ^ k = m / 2 ^ k - 1 := by
      rw [← Nat.sub_mul_div m (2 ^ k) 1, Nat.mul_one]
    simp only [tb, quotient, decide_eq_false_iff_not]
    omega
  case isFalse clear => simpa using clear

theorem State.purgeTray_table {s : State} {n : Fin 64} {e : Entry} (mem : e ∈ (s.purgeTray n).tlk.table) :
    e.mask ≠ 0 ∧ tb e.mask n.val = false := by
  obtain ⟨listed, named⟩ := List.mem_filter.1 mem
  obtain ⟨old, -, rfl⟩ := List.mem_map.1 listed
  exact ⟨by simpa using named, tb_without old.mask n.val⟩

theorem State.frameDrop_lhat (s : State) (p : Nat) :
    (s.frameDrop p).fce.short.lhat = s.fce.short.lhat.map (fun x => sat32 (x - p)) ∧
    (s.frameDrop p).fce.long.lhat = s.fce.long.lhat.map (fun x => sat32 (x - p)) :=
  ⟨rfl, rfl⟩

/-- Settles O17: the commands of a port's link by their equations, and what entering afresh and leaving the table do. -/
theorem portsAndTheirLinks : Obligations.PortsAndTheirLinks :=
  ⟨fun _ _ => exec_linkUp_rises, fun _ _ => exec_linkUp_unused, fun _ _ => exec_linkUp_idle,
    fun _ _ => exec_linkDown_debounces, fun _ _ => exec_linkDown_falls, fun _ _ => exec_linkGlitch_early,
    fun _ _ => exec_linkGlitch_idle, fun _ _ => exec_surpriseRemoval_late, fun _ _ _ => exec_ident_afresh,
    fun _ _ _ => exec_ident_locked, fun _ _ _ => exec_ident_again, fun _ _ _ => exec_ident_invalid,
    fun _ _ => exec_drainReq_counted, fun _ _ => exec_drainReq_idle, fun _ _ _ => exec_drain_counted,
    fun _ _ => exec_drained_over, fun _ _ _ => exec_takeoverReq_watch, fun _ _ _ => exec_takeoverReq_idle,
    fun n _ => State.enterAfresh_notReady n, fun n _ => State.enterAfresh_safe n,
    fun n _ run secondary => (State.enterAfresh_run n run).trans (State.enterService_secondary secondary),
    fun n _ run primary => (State.enterAfresh_run n run).trans (State.enterService_primary primary),
    fun _ _ => ⟨fun _ => State.purgeTray_table, rfl, rfl⟩, fun p s => s.frameDrop_lhat p⟩

end Sys2Proof.Machine
end

section
/-! SUPPORT. A tray port beside an event, a frame and a grant, and the grant a port sends (R254, R255, R262, R264). -/

namespace Sys2Proof.Machine

@[simp] theorem State.ev_port (s : State) (c i d : Nat) (n : Fin 64) : (s.ev c i d).port n = s.port n :=
  congrArg (fun t : Tlk => t.port[n.val]) (s.ev_tlk c i d)

@[simp] theorem State.send_port (s : State) (o : Output) (n : Fin 64) : (s.send o).port n = s.port n := rfl

theorem State.updPort_same (s : State) (n : Fin 64) (f : Port → Port) : (s.updPort n f).port n = f (s.port n) :=
  (s.updPort_port n n f).trans (if_pos rfl)

theorem State.updPort_other {n j : Fin 64} (other : j ≠ n) (s : State) (f : Port → Port) :
    (s.updPort n f).port j = s.port j :=
  (s.updPort_port n j f).trans (if_neg other.symm)

theorem State.updPort_updPort (s : State) (n : Fin 64) (f g : Port → Port) :
    (s.updPort n f).updPort n g = s.updPort n fun p => g (f p) := by
  have entries : updV (updV s.tlk.port n f) n g = updV s.tlk.port n fun p => g (f p) := by
    ext i hi
    simp only [updV_get]
    split <;> rfl
  exact congrArg (fun v => { s with tlk := { s.tlk with port := v } }) entries

/-- Two changes of a port that agree on the port as it is. -/
theorem State.updPort_congr {s : State} {n : Fin 64} {f g : Port → Port} (same : f (s.port n) = g (s.port n)) :
    s.updPort n f = s.updPort n g := by
  have entries : updV s.tlk.port n f = updV s.tlk.port n g := congrArg (fun p => s.tlk.port.set n.val p) same
  exact congrArg (fun v => { s with tlk := { s.tlk with port := v } }) entries

/-- The recorder does not read the tray links. -/
theorem State.SameEv.updPort {s t : State} (h : s.SameEv t) (n : Fin 64) (f : Port → Port) : s.SameEv (t.updPort n f) :=
  h.trans ⟨rfl, rfl, rfl, rfl, rfl⟩

/-- An event beside the change of one port: the port is changed, the others stay, and the event is recorded. -/
theorem State.updPort_ev_does (s : State) (n : Fin 64) (f : Port → Port) (c i d : Nat) :
    ((s.updPort n f).ev c i d).port n = f (s.port n) ∧
    (∀ j, j ≠ n → ((s.updPort n f).ev c i d).port j = s.port j) ∧
    ((s.updPort n f).ev c i d).evr = s.evs [(c, i, d)] :=
  ⟨by rw [State.ev_port, State.updPort_same], fun j other => by rw [State.ev_port, State.updPort_other other],
    (((State.SameEv.refl s).updPort n f).ev c i d).evr.symm⟩

/-- A port after it has sent a grant in a tick. -/
def Port.granted (p : Port) (g : Grant) (tick : Nat) : Port :=
  { p with sent := some g, sentTick := tick, gseqSent := g.gseq, envSent := g.envelope, ackTries := 1
           unacked := g :: p.unacked }

theorem State.sendGrant_sends {s : State} {n : Fin 64} (grants : (s.port n).grants = true) :
    s.sendGrant n = ({ s with tlk := { s.tlk with grantsSent := wrapU 32 (s.tlk.grantsSent + 1) } }.updPort n fun p =>
      p.granted (s.grantFor n) s.sys.tick).send (.tlk n.val (s.grantFor n).frame) :=
  if_pos grants

theorem State.sendGrant_idle {s : State} {n : Fin 64} (idle : (s.port n).grants = false) : s.sendGrant n = s :=
  if_neg (by simp [idle])

theorem State.sendGrant_same {s : State} {n : Fin 64} (grants : (s.port n).grants = true) :
    (s.sendGrant n).port n = (s.port n).granted (s.grantFor n) s.sys.tick := by
  rw [State.sendGrant_sends grants, State.send_port, State.updPort_same]
  rfl

theorem State.sendGrant_other {n j : Fin 64} (other : j ≠ n) (s : State) : (s.sendGrant n).port j = s.port j := by
  cases grants : (s.port n).grants with
  | false => rw [State.sendGrant_idle grants]
  | true =>
    rw [State.sendGrant_sends grants, State.send_port, State.updPort_other other]
    rfl

end Sys2Proof.Machine
end

section
/-! SUPPORT. The steps of boot (R263, R383, R388, R434, R436, R437). -/

namespace Sys2Proof.Machine

theorem exec_trayPortsUp_lit {s : State} (lit : s.lit = true) : exec .trayPortsUp s = .next { s with
    tlk := { s.tlk with portsUp := true }, net := { s.net with forwarding := true } } :=
  congrArg Host.Outcome.next (if_pos lit)

/-- The grant of a NOT_READY port is the safe one: STATE 0, FIXED_FREQ, no EXPIRY, and SAFE_ENV (R263). -/
theorem State.grantFor_notReady {s : State} {n : Fin 64} (waits : (s.port n).state = .notReady) :
    (s.grantFor n).state = 0 ∧ (s.grantFor n).fixedFreq = true ∧ (s.grantFor n).expiry = 0 ∧
    (s.grantFor n).envelope = s.safeEnv n.val := by
  have state : (s.port n).grantState = 0 := by simp [Port.grantState, waits, PortState.grantState]
  refine ⟨state, ?_, ?_, ?_⟩
  · simp [State.grantFor, State.grantFixed, state]
  · simp [State.grantFor, state]
  · simp [State.grantFor, State.grantEnv, waits]

theorem exec_notReadyGrant_due {n : Fin 64} {s : State} (up : s.tlk.portsUp = true) (blank : s.cfg.activeValid = false)
    (waits : (s.port n).state = .notReady) (due : s.elapsed (s.port n).sentTick 50 = true) :
    exec (.notReadyGrant n) s = .next (s.sendGrant n) :=
  congrArg Host.Outcome.next (if_pos (by simp [up, blank, waits, due]))

/-! Firmware (R436, R437). -/

/-- What FW_VERIFIED does in BOOT before any firmware runs: the slot that the boot flag names, then the other. -/
theorem exec_fwVerified_boot (keys : Bool) {s : State} (lit : s.lit = true) (boot : s.sys.state = .boot)
    (idle : s.sec.fwRunning = false) (normal : s.sec.recovery = false) :
    exec (.fwVerified keys) s = .next (
      if s.fwStep (s.fwImage s.sec.bootSlotB) = 0 then s.fwStart s.sec.bootSlotB false keys
      else
        let t := s.fwSlotFailed s.sec.bootSlotB (s.fwStep (s.fwImage s.sec.bootSlotB))
        if t.fwStep (t.fwImage !s.sec.bootSlotB) = 0 then t.fwStart (!s.sec.bootSlotB) true keys
        else
          let u := (t.fwSlotFailed (!s.sec.bootSlotB) (t.fwStep (t.fwImage !s.sec.bootSlotB))).ev 0x1003
          { u with sec := { u.sec with recovery := true } }) :=
  congrArg Host.Outcome.next (if_neg (by simp [lit, boot, idle, normal]))

/-- An event beside a change of SEC, which the recorder does not read. -/
theorem State.ev_withSec (s : State) (x : Sec) (c i d : Nat) :
    ({ s with sec := x } : State).ev c i d = { s with sec := x, evr := s.evs [(c, i, d)] } :=
  State.ev_of (s := s) (t := { s with sec := x }) ⟨rfl, rfl, rfl, rfl, rfl⟩ c i d

theorem State.fwStart_eq (s : State) (b fallback keys : Bool) : s.fwStart b fallback keys = { s with
    sec := { s.sec with
      fwRunning := true, fwSlotB := b, fwFallback := fallback, fwDigest := imageDigest ((s.fwImage b).getD [])
      fwRollback := hRollback ((s.fwImage b).getD [])
      fwRaise := tb (hFlags ((s.fwImage b).getD [])) 1 && (if b then s.sec.fwNewB else s.sec.fwNewA)
      fwNewA := s.sec.fwNewA && b, fwNewB := s.sec.fwNewB && !b, identityOk := s.sec.identityKeys && keys }
    evr := s.evs [(0x1001, noInst, 0)] } :=
  s.ev_withSec _ _ _ _

theorem State.fwSlotFailed_sec (s : State) (b : Bool) (step : Nat) :
    (s.fwSlotFailed b step).sec = { s.sec with fwResult := step } :=
  State.ev_sec _ _ _ _

/-- To the recorder a slot that fails is its event. -/
theorem State.SameEv.fwSlotFailed {s t : State} (h : s.SameEv t) (b : Bool) (step : Nat) :
    (s.ev 0x1002 noInst (step + if b then 256 else 0)).SameEv (t.fwSlotFailed b step) :=
  (h.trans (u := { t with sec := { t.sec with fwResult := step } }) ⟨rfl, rfl, rfl, rfl, rfl⟩).ev _ _ _

/-- A slot without an image fails at step 1. -/
theorem State.fwStep_empty {s : State} (a : s.sec.fwSlotAImg = none) (b : s.sec.fwSlotBImg = none) (slot : Bool) :
    s.fwStep (s.fwImage slot) = 1 := by
  cases slot
  · simp [State.fwImage, a, State.fwStep]
  · simp [State.fwImage, b, State.fwStep]

/-- With no image in either slot both fail. -/
theorem exec_fwVerified_empty (keys : Bool) {s : State} (lit : s.lit = true) (boot : s.sys.state = .boot)
    (idle : s.sec.fwRunning = false) (normal : s.sec.recovery = false) (a : s.sec.fwSlotAImg = none)
    (b : s.sec.fwSlotBImg = none) :
    exec (.fwVerified keys) s =
      let u := ((s.fwSlotFailed s.sec.bootSlotB 1).fwSlotFailed (!s.sec.bootSlotB) 1).ev 0x1003
      .next { u with sec := { u.sec with recovery := true } } := by
  have second : (s.fwSlotFailed s.sec.bootSlotB 1).fwStep
      ((s.fwSlotFailed s.sec.bootSlotB 1).fwImage !s.sec.bootSlotB) = 1 :=
    State.fwStep_empty (by rw [State.fwSlotFailed_sec, a]) (by rw [State.fwSlotFailed_sec, b]) _
  rw [exec_fwVerified_boot keys lit boot idle normal, State.fwStep_empty a b, if_neg one_ne_zero]
  dsimp only
  rw [second, if_neg one_ne_zero]

theorem exec_netReady_runs {s : State} (powered : s.power.powered = true) (fed : s.power.inputLoss = false)
    (runs : s.sec.fwRunning = true) : exec .netReady s = .next { s with
      sec := { s.sec with hbmUp := true }, net := { s.net with ready := s.net.linkUp || s.net.ready } } := by
  refine congrArg Host.Outcome.next ((if_pos (by simp [powered, fed, runs])).trans ?_)
  cases up : s.net.linkUp with
  | true => exact if_pos (by simp [up])
  | false => exact if_neg (by simp [up])

/-- Settles O5: the ports by their test, the NOT_READY grant by the grant a port sends, and the firmware slot by slot. -/
theorem bootSteps : Obligations.BootSteps := by
  refine ⟨fun s => exec_trayPortsUp_lit, fun n s up blank waits linked due => ?grant,
    fun keys s lit boot idle normal => ?starts, fun keys s lit boot idle normal a b => ?recovers,
    fun s powered fed runs => ?ready⟩
  case grant =>
    have grants : (s.port n).grants = true := by simp [Port.grants, linked, waits]
    obtain ⟨state, fixed, expiry, envelope⟩ := State.grantFor_notReady waits
    refine ⟨_, exec_notReadyGrant_due up blank waits due, ?_, state, fixed, expiry, envelope, fun j other => ?_⟩
    · rw [State.sendGrant_same grants]
      rfl
    · exact State.sendGrant_other other s
  case starts =>
    refine ⟨_, exec_fwVerified_boot keys lit boot idle normal, fun passes => ?_⟩
    rw [if_pos passes, State.fwStart_eq]
    exact ⟨rfl, rfl, rfl, rfl, rfl, rfl, rfl⟩
  case recovers =>
    refine ⟨_, exec_fwVerified_empty keys lit boot idle normal a b, ?_, ?_⟩
    · simp only [State.ev_sec, State.fwSlotFailed_sec]
    · have events := (((State.SameEv.refl s).fwSlotFailed s.sec.bootSlotB 1).fwSlotFailed (!s.sec.bootSlotB) 1).ev
        0x1003 noInst 0
      dsimp only
      rw [← events.evr]
      cases s.sec.bootSlotB with
      | false => simp only [State.evs_cons, State.evs_nil, Bool.not_false, Bool.false_eq_true, if_false, if_true]
      | true => simp only [State.evs_cons, State.evs_nil, Bool.not_true, Bool.false_eq_true, if_false, if_true]
  case ready => exact exec_netReady_runs powered fed runs

end Sys2Proof.Machine
end

section
/-! SUPPORT. THROTTLE on the tray ports: one port, all of them, and what a trigger does (R252, R272, R273). -/

namespace Sys2Proof.Machine

/-! Folds over ports. -/

theorem State.mem_portsWhere {s : State} {p : Port → Bool} {n : Fin 64} :
    n ∈ s.portsWhere p ↔ p (s.port n) = true := by
  simp [State.portsWhere]

theorem State.portsWhere_nodup (s : State) (p : Port → Bool) : (s.portsWhere p).Nodup :=
  (List.nodup_finRange 64).filter _

/-- A fold over different ports, each step of which changes its own port, by SYS, and leaves the others and SYS. -/
theorem foldl_ports {f : State → Fin 64 → State} {g : Sys → Port → Port} (sys : ∀ s n, (f s n).sys = s.sys)
    (own : ∀ s n, (f s n).port n = g s.sys (s.port n)) (other : ∀ s n j, j ≠ n → (f s n).port j = s.port j)
    {l : List (Fin 64)} (once : l.Nodup) (s : State) (j : Fin 64) :
    (l.foldl f s).port j = if j ∈ l then g s.sys (s.port j) else s.port j := by
  induction l generalizing s with
  | nil => simp
  | cons n l ih =>
    obtain ⟨fresh, once⟩ := List.nodup_cons.1 once
    rw [List.foldl_cons, ih once, sys]
    by_cases same : j = n
    · subst same
      rw [if_neg fresh, if_pos List.mem_cons_self, own]
    · rw [other s n j same]
      exact if_congr (by simp [same]) rfl rfl

/-- What leaves CFG, EVR, SYS and the clocks alone, the recorder cannot tell. -/
theorem State.SameEv.kept {l : List Blk} {s t u : State} (h : s.SameEv t) (k : Kept l t u)
    (off : ∀ b ∈ [Blk.cfg, .evr, .sys, .clk], b ∉ l) : s.SameEv u := by
  have cfg : u.cfg = t.cfg := k.only .cfg (off _ (by decide))
  have evr : u.evr = t.evr := k.only .evr (off _ (by decide))
  have sys : u.sys = t.sys := k.only .sys (off _ (by decide))
  have clk : u.clk = t.clk := k.only .clk (off _ (by decide))
  exact h.trans ⟨by rw [cfg], evr.symm, by rw [sys], by rw [sys], by rw [clk]⟩

/-! One port. -/

/-- A port after an ordered set THROTTLE at shelf time `t`. -/
def Port.thrown (p : Port) (t : Nat) : Port :=
  { p.beginSpan t with tseq := wrapU 16 (p.tseq + 1), throttled := true }

/-- The span of R265 is all that its beginning changes of a port. -/
theorem Port.beginSpan_eq (p : Port) (t : Nat) : p.beginSpan t = { p with
    thrPast := (p.beginSpan t).thrPast, thrFrom := (p.beginSpan t).thrFrom, relEnd := (p.beginSpan t).relEnd } := by
  unfold Port.beginSpan
  split
  · split <;> rfl
  · rfl
  · rfl

@[simp] theorem Port.thrown_thrOperator (p : Port) (t : Nat) : (p.thrown t).thrOperator = p.thrOperator := by
  rw [Port.thrown, Port.beginSpan_eq]

@[simp] theorem Port.thrown_primaryDown (p : Port) (t : Nat) : (p.thrown t).primaryDown = p.primaryDown := by
  rw [Port.thrown, Port.beginSpan_eq]

/-- The set THROTTLE that a port sends next. -/
def Port.throttleSet (p : Port) (cause scope : Nat) : List Byte := orderedSet 0x55 (wrapU 16 (p.tseq + 1)) cause 0 scope

theorem State.throttleOut_same (s : State) (n : Fin 64) (cause scope : Nat) :
    (s.throttleOut n cause scope).port n = (s.port n).thrown s.sys.timeNs :=
  State.updPort_same _ n _

theorem State.throttleOut_other {n j : Fin 64} (other : j ≠ n) (s : State) (cause scope : Nat) :
    (s.throttleOut n cause scope).port j = s.port j :=
  State.updPort_other other _ _

theorem State.throttleOut_tx (s : State) (n : Fin 64) (cause scope : Nat) :
    (s.throttleOut n cause scope).tx =
      .tlk n.val ((s.port n).throttleSet cause scope) :: .tlk n.val ((s.port n).throttleSet cause scope) :: s.tx :=
  rfl

/-! Every port (R272, R273). -/

theorem State.throttleEvery_kept_tlk (s : State) (cause : Nat) : Kept [.tlk, .tx] s (s.throttleEvery cause) :=
  State.throttleEvery_kept s cause (List.Subset.refl _) .rfl

theorem State.throttleEvery_port (s : State) (cause : Nat) (j : Fin 64) : (s.throttleEvery cause).port j =
    if (s.port j).carriesSets = true then (s.port j).thrown s.sys.timeNs else s.port j := by
  refine (foldl_ports (f := fun s n => s.throttleOut n cause 0) (g := fun y p => p.thrown y.timeNs) (fun _ _ => rfl)
    (fun s n => s.throttleOut_same n cause 0) (fun s n j other => s.throttleOut_other other cause 0)
    (s.portsWhere_nodup _) _ j).trans ?_
  exact if_congr State.mem_portsWhere rfl rfl

/-- Each port that carries sets sends THROTTLE. -/
theorem State.throttleEvery_sends {s : State} {n : Fin 64} (carries : (s.port n).carriesSets = true) (cause : Nat) :
    .tlk n.val ((s.port n).throttleSet cause 0) ∈ (s.throttleEvery cause).tx := by
  unfold State.throttleEvery
  refine foldl_reaches (f := fun s n => s.throttleOut n cause 0) (before := fun t => t.port n = s.port n)
    (after := fun t => .tlk n.val ((s.port n).throttleSet cause 0) ∈ t.tx) (fun t m other same => ?_)
    (fun t same => ?_) (fun t m other sent => ?_) (State.mem_portsWhere.2 carries) (s.portsWhere_nodup _) ?_
  · exact (t.throttleOut_other other.symm cause 0).trans same
  · rw [State.throttleOut_tx, same]
    exact List.mem_cons_self
  · exact List.mem_cons_of_mem _ (List.mem_cons_of_mem _ sent)
  · rfl

/-- What THROTTLE to every port does to the block besides the ports. -/
theorem State.throttleEvery_flags (s : State) (cause : Nat) :
    (s.throttleEvery cause).tlk.releasing = false ∧ (s.throttleEvery cause).tlk.thrRestart = s.tlk.thrRestart :=
  Prod.mk.inj (foldl_same (fun t : State => (t.tlk.releasing, t.tlk.thrRestart))
    (f := fun t n => t.throttleOut n cause 0) (fun _ _ => rfl) (s.portsWhere Port.carriesSets) _)

/-! A trigger for all ports (R272). -/

/-- The state with a cause on all ports in force; THROTTLE_ALL holds every port again. -/
def State.raiseCause (s : State) (cause : Fin 7) : State :=
  { s with tlk := { s.tlk with
      causes := updV s.tlk.causes cause fun _ => true
      causeTick := updV s.tlk.causeTick cause fun _ => s.sys.tick
      port := if cause = 4 then s.tlk.port.map fun (p : Port) => { p with opCleared := false } else s.tlk.port } }

theorem State.throttleAllPorts_standing {s : State} (all : s.allThrottled = true) (cause : Fin 7) :
    s.throttleAllPorts cause = (s.raiseCause cause).ev 0x7020 noInst (causeBit (cause.val + 1)) := by
  rw [State.throttleAllPorts, if_pos all]
  rfl

theorem State.throttleAllPorts_goes {s : State} (notAll : s.allThrottled = false) (cause : Fin 7) :
    s.throttleAllPorts cause =
      ((s.raiseCause cause).throttleEvery (cause.val + 1)).ev 0x7020 noInst (causeBit (cause.val + 1)) := by
  rw [State.throttleAllPorts, if_neg (by simp [notAll])]
  rfl

/-- To the recorder a trigger for all ports is its event. -/
theorem State.throttleAllPorts_evr (s : State) (cause : Fin 7) :
    (s.throttleAllPorts cause).evr = s.evs [(0x7020, noInst, causeBit (cause.val + 1))] := by
  have raised : s.SameEv (s.raiseCause cause) := ⟨rfl, rfl, rfl, rfl, rfl⟩
  cases all : s.allThrottled with
  | true =>
    rw [State.throttleAllPorts_standing all]
    exact (raised.ev _ _ _).evr.symm
  | false =>
    rw [State.throttleAllPorts_goes all]
    exact ((raised.kept (State.throttleEvery_kept_tlk _ _) (by decide)).ev _ _ _).evr.symm

/-! A trigger for one port (R272, R273). -/

/-- A port with a cause of its own in force: 5 OPERATOR, else NONCOMPLIANT. -/
def Port.holdFor (p : Port) (cause : Nat) : Port :=
  if cause = 5 then { p with thrOperator := true } else { p with thrNoncompliant := true }

theorem Port.holdFor_carriesSets (p : Port) (cause : Nat) : (p.holdFor cause).carriesSets = p.carriesSets := by
  unfold Port.holdFor
  split <;> rfl

theorem Port.holdFor_throttled (p : Port) (cause : Nat) : (p.holdFor cause).throttled = p.throttled := by
  unfold Port.holdFor
  split <;> rfl

theorem Port.holdFor_primaryDown (p : Port) (cause : Nat) : (p.holdFor cause).primaryDown = p.primaryDown := by
  unfold Port.holdFor
  split <;> rfl

section OnePort

variable {s : State} {n : Fin 64} (cause : Nat)

/-- While a release runs, THROTTLE goes to every port. -/
theorem State.throttlePort_restarts (releasing : s.tlk.releasing = true) :
    s.throttlePort n cause =
      ({ s.updPort n fun p => p.holdFor cause with
          tlk := { (s.updPort n fun p => p.holdFor cause).tlk with thrRestart := true } }.throttleEvery cause).ev 0x7020
        n.val (causeBit cause) :=
  congrArg (fun t : State => t.ev 0x7020 n.val (causeBit cause)) (if_pos releasing)

/-- On a port that carries no sets, or that is throttled with all the others, only the cause is added. -/
theorem State.throttlePort_adds (rests : s.tlk.releasing = false)
    (only : (s.tlk.throttleAll = true ∧ (s.port n).throttled = true) ∨ (s.port n).carriesSets = false) :
    s.throttlePort n cause = (s.updPort n fun p => p.holdFor cause).ev 0x7020 n.val (causeBit cause) := by
  have held : (s.updPort n fun p => p.holdFor cause).port n = (s.port n).holdFor cause := State.updPort_same ..
  refine congrArg (fun t : State => t.ev 0x7020 n.val (causeBit cause)) ((if_neg ?_).trans (if_pos ?_))
  · show ¬ s.tlk.releasing = true
    simp [rests]
  · show (s.tlk.throttleAll && ((s.updPort n fun p => p.holdFor cause).port n).throttled ||
      !((s.updPort n fun p => p.holdFor cause).port n).carriesSets) = true
    rw [held, Port.holdFor_throttled, Port.holdFor_carriesSets]
    simpa using only

/-- Else THROTTLE goes to that port. -/
theorem State.throttlePort_goes (rests : s.tlk.releasing = false)
    (free : s.tlk.throttleAll = false ∨ (s.port n).throttled = false) (carries : (s.port n).carriesSets = true) :
    s.throttlePort n cause = ((s.updPort n fun p => p.holdFor cause).throttleOut n cause 1).ev 0x7020 n.val
      (causeBit cause) := by
  have held : (s.updPort n fun p => p.holdFor cause).port n = (s.port n).holdFor cause := State.updPort_same ..
  refine congrArg (fun t : State => t.ev 0x7020 n.val (causeBit cause)) ((if_neg ?_).trans (if_neg ?_))
  · show ¬ s.tlk.releasing = true
    simp [rests]
  · show ¬ (s.tlk.throttleAll && ((s.updPort n fun p => p.holdFor cause).port n).throttled ||
      !((s.updPort n fun p => p.holdFor cause).port n).carriesSets) = true
    rw [held, Port.holdFor_throttled, Port.holdFor_carriesSets, carries]
    rcases free with free | free <;> simp [free]

end OnePort

end Sys2Proof.Machine
end

section
/-! SUPPORT. Reports, acknowledgements and grants of the tray links (R251, R254 to R258, R262, R264, R265, R280, R282). -/

namespace Sys2Proof.Machine

/-! The check of a report (R265). -/

/-- Policy bytes stand in the configuration and the mirror. -/
theorem State.pol8_of {s t : State} (cfg : t.cfg = s.cfg) (mirror : t.tlk.mirror = s.tlk.mirror) (o d : Nat) :
    t.pol8 o d = s.pol8 o d := by
  simp only [State.pol8, State.trayRecs, State.recs, cfg, mirror]

/-- A report breaks a rule of R265: it is the second above the envelope, or breaks a slope. -/
def State.breaksRule (s : State) (p : Port) (r : Report) : Bool :=
  (s.aboveEnv p r && 1 ≤ p.overEnv) || p.report.any fun r1 => s.slopeBroken p r1 r

/-- A port after a report is held against the envelope, and against all the rules. -/
def Port.judged (p : Port) (above bad : Bool) (tick : Nat) : Port :=
  { p with overEnv := if above then p.overEnv + 1 else 0, nonCompliant := bad
           badTick := if above then tick else p.badTick }

/-- A port whose failed check is counted and latched. -/
def Port.failed (p : Port) (tick : Nat) : Port :=
  { p with nonComplLatch := true, badTick := tick, errCompl := bump 8 p.errCompl }

section Check

variable {s : State} {n : Fin 64} {r : Report}

theorem State.checkReport_idle (idle : (s.port n).granting = false) :
    s.checkReport n r = s.updPort n fun p => { p with overEnv := 0 } :=
  if_neg (by simp [idle])

theorem State.checkReport_granting (granting : (s.port n).granting = true) :
    s.checkReport n r =
      let t := s.updPort n fun p => p.judged (s.aboveEnv (s.port n) r) (s.breaksRule (s.port n) r) s.sys.tick
      if s.breaksRule (s.port n) r = true then t.nonCompliant n else t := by
  unfold State.checkReport State.breaksRule
  dsimp only
  rw [if_pos granting]
  cases (s.port n).report with
  | none => rfl
  | some _ => rfl

theorem State.checkReport_keepsRules (granting : (s.port n).granting = true)
    (keeps : s.breaksRule (s.port n) r = false) :
    s.checkReport n r = s.updPort n fun p => p.judged (s.aboveEnv p r) false s.sys.tick := by
  rw [State.checkReport_granting granting, keeps]
  exact (if_neg Bool.false_ne_true).trans (State.updPort_congr rfl)

/-- A report that breaks a rule marks the port, and no more without STRICT. -/
theorem State.checkReport_breaks (granting : (s.port n).granting = true) (lax : s.pol8 0x1A 0 ≠ 1)
    (breaks : s.breaksRule (s.port n) r = true) :
    s.checkReport n r =
      (s.updPort n fun p => (p.judged (s.aboveEnv p r) true s.sys.tick).failed s.sys.tick).ev 0x7030 n.val := by
  rw [State.checkReport_granting granting, breaks, if_pos rfl, State.nonCompliant]
  refine (if_neg ?_).trans ?_
  · rw [State.pol8_of (s := s) (by rw [State.ev_cfg]; rfl) (by rw [State.ev_tlk]; rfl)]
    exact lax
  · rw [State.updPort_updPort, State.updPort_congr rfl]
    rfl

end Check

/-- What no step of the check changes of a port, the check leaves. -/
theorem State.updPort_keeps {α : Type} {π : Port → α} {f : Port → Port} (keeps : ∀ p, π (f p) = π p) (s : State)
    (n j : Fin 64) : π ((s.updPort n f).port j) = π (s.port j) := by
  rw [State.updPort_port]
  split
  · exact keeps _
  · rfl

theorem State.throttlePort_primaryDown (s : State) (n : Fin 64) (cause : Nat) (j : Fin 64) :
    ((s.throttlePort n cause).port j).primaryDown = (s.port j).primaryDown := by
  have raised := State.updPort_keeps (f := fun p => p.holdFor cause) (fun p => p.holdFor_primaryDown cause) s n j
  by_cases releasing : s.tlk.releasing = true
  · rw [State.throttlePort_restarts cause releasing, State.ev_port, State.throttleEvery_port]
    split
    · rw [Port.thrown_primaryDown]
      exact raised
    · exact raised
  have rests : s.tlk.releasing = false := by simpa using releasing
  by_cases only : (s.tlk.throttleAll = true ∧ (s.port n).throttled = true) ∨ (s.port n).carriesSets = false
  · rw [State.throttlePort_adds cause rests only, State.ev_port]
    exact raised
  · simp only [not_or, not_and_or, Bool.not_eq_true, Bool.not_eq_false] at only
    rw [State.throttlePort_goes cause rests only.1 only.2, State.ev_port]
    exact (State.updPort_keeps (fun p => p.thrown_primaryDown _) _ n j).trans raised

theorem State.nonCompliant_primaryDown (s : State) (n : Fin 64) :
    ((s.nonCompliant n).port n).primaryDown = (s.port n).primaryDown := by
  have marked := State.updPort_keeps (π := Port.primaryDown) (f := fun p => p.failed s.sys.tick) (fun _ => rfl) s n n
  unfold State.nonCompliant
  extract_lets t
  have event : (t.port n).primaryDown = (s.port n).primaryDown := by
    rw [State.ev_port]
    exact marked
  split
  · exact (t.throttlePort_primaryDown n 6 n).trans event
  · exact event

theorem State.checkReport_primaryDown (s : State) (n : Fin 64) (r : Report) :
    ((s.checkReport n r).port n).primaryDown = (s.port n).primaryDown := by
  cases granting : (s.port n).granting with
  | false =>
    rw [State.checkReport_idle granting]
    exact State.updPort_keeps (π := Port.primaryDown) (f := fun p => { p with overEnv := 0 }) (fun _ => rfl) s n n
  | true =>
    rw [State.checkReport_granting granting]
    dsimp only
    have judged := State.updPort_keeps (π := Port.primaryDown)
      (f := fun p => p.judged (s.aboveEnv (s.port n) r) (s.breaksRule (s.port n) r) s.sys.tick) (fun _ => rfl) s n n
    split
    · exact (State.nonCompliant_primaryDown _ n).trans judged
    · exact judged

/-! A report is taken (R257, R280, R282). -/

/-- The check and the storing of a report, beside what the Comet term notes. -/
theorem State.takeReport_does (s : State) (n : Fin 64) (r : Report) (missing : Nat) :
    (s.takeReport n r missing).port n = ((s.checkReport n r).port n).noteReport r missing s.sys.tick ∧
    (∀ j, j ≠ n → (s.takeReport n r missing).port j = (s.checkReport n r).port j) ∧
    (s.takeReport n r missing).evr = (s.checkReport n r).evr ∧ (s.takeReport n r missing).tx = (s.checkReport n r).tx := by
  have stored : ((s.checkReport n r).updPort n fun p => p.noteReport r missing s.sys.tick).port n = _ :=
    State.updPort_same _ n _
  have others (j : Fin 64) (other : j ≠ n) := State.updPort_other other (s.checkReport n r) fun p =>
    p.noteReport r missing s.sys.tick
  unfold State.takeReport
  extract_lets t
  split
  · exact ⟨stored, others, rfl, rfl⟩
  · exact ⟨stored, others, rfl, rfl⟩

theorem State.takeReport_primaryDown (s : State) (n : Fin 64) (r : Report) (missing : Nat) :
    ((s.takeReport n r missing).port n).primaryDown = if r.primaryUp then 0 else (s.port n).primaryDown + 1 := by
  rw [(s.takeReport_does n r missing).1, ← s.checkReport_primaryDown n r]
  rfl

section Reported

variable {n : Fin 64} {f : Sys2Proof.ReportFrame} {s : State} (missing : Nat)

/-- What a report leads to on a link that is up. -/
theorem exec_report_up (linked : (s.port n).linked = true) (used : (s.port n).state ≠ .unused)
    (up : (s.port n).state ≠ .down) :
    exec (.report n f missing) s =
      let t := s.takeReport n (reportOf f) missing
      if (s.port n).state = .watch && 2 ≤ (t.port n).primaryDown then .next (t.takeOverLatest n)
      else if (s.port n).state = .takenOver && !f.grantFrom then .next (t.giveBack n)
      else .next t :=
  if_neg (by simp [linked, used, up])

/-- The second report in succession without the primary. -/
theorem primaryLost_iff : (decide ((s.port n).state = .watch) &&
      decide (2 ≤ ((s.takeReport n (reportOf f) missing).port n).primaryDown)) = true ↔
    (s.port n).state = .watch ∧ f.primaryUp = false ∧ 1 ≤ (s.port n).primaryDown := by
  rw [State.takeReport_primaryDown, Bool.and_eq_true, decide_eq_true_eq, decide_eq_true_eq]
  refine and_congr_right fun _ => ?_
  show 2 ≤ (if f.primaryUp = true then 0 else (s.port n).primaryDown + 1) ↔ _
  cases f.primaryUp with
  | true => simp
  | false => simp only [Bool.false_eq_true, if_false, true_and]; omega

theorem exec_report_stored (linked : (s.port n).linked = true) (used : (s.port n).state ≠ .unused)
    (up : (s.port n).state ≠ .down)
    (served : ¬((s.port n).state = .watch ∧ f.primaryUp = false ∧ 1 ≤ (s.port n).primaryDown))
    (kept : ¬((s.port n).state = .takenOver ∧ f.grantFrom = false)) :
    exec (.report n f missing) s = .next (s.takeReport n (reportOf f) missing) := by
  rw [exec_report_up missing linked used up]
  exact (if_neg (mt (primaryLost_iff missing).1 served)).trans (if_neg (by simpa using kept))

theorem exec_report_takesOver (linked : (s.port n).linked = true) (watch : (s.port n).state = .watch)
    (lost : f.primaryUp = false) (again : 1 ≤ (s.port n).primaryDown) :
    exec (.report n f missing) s =
      .next ((s.takeReport n (reportOf f) missing).takeOver n (wrapU 16 f.envInForce)) := by
  rw [exec_report_up missing linked (by simp [watch]) (by simp [watch])]
  refine (if_pos ((primaryLost_iff missing).2 ⟨watch, lost, again⟩)).trans ?_
  rw [State.takeOverLatest, (s.takeReport_does n (reportOf f) missing).1]
  rfl

theorem exec_report_givesBack (linked : (s.port n).linked = true) (taken : (s.port n).state = .takenOver)
    (primary : f.grantFrom = false) :
    exec (.report n f missing) s = .next (((((s.takeReport n (reportOf f) missing).updPort n fun p =>
      { p.leave .watch with primaryDown := 0 }).unserve n).ev 0x7051 n.val).sendGrant n).syncOverShare := by
  rw [exec_report_up missing linked (by simp [taken]) (by simp [taken])]
  exact (if_neg (by simp [taken])).trans (if_pos (by simp [taken, primary]))

end Reported

theorem exec_reportStale_late {n : Fin 64} {s : State} (linked : (s.port n).linked = true)
    (used : (s.port n).state ≠ .unused) (up : (s.port n).state ≠ .down) (fresh : (s.port n).reportStale = false)
    (late : s.elapsed (s.port n).reportTick 15 = true) :
    exec (.reportStale n) s = .next ((s.updPort n fun p =>
      { p with reportStale := true, missed := 3, errMissed := satU 8 (p.errMissed + 3) }).ev 0x7031 n.val) :=
  if_pos (by simp [linked, used, up, fresh, late])

/-! Acknowledgements (R256, R264). -/

/-- A port whose grant `g` is acknowledged in shelf time `t`. -/
def Port.acked (p : Port) (g : Grant) (t : Nat) (result : Fin 3) : Port :=
  { p with
    inForce := some g, gseqAck := g.gseq, floorUnreachable := result = 1
    unacked := p.unacked.takeWhile fun x => x.gseq != g.gseq
    ackTries := if p.sent = some g then 0 else p.ackTries
    lowerAck := if p.inForce.any (fun o => decide (g.envelope < o.envelope)) then some t else p.lowerAck
    lowerP := if p.inForce.any (fun o => decide (g.envelope < o.envelope)) then (p.report.map Report.pTotal).getD 0
      else p.lowerP }

theorem exec_ack_found {n : Fin 64} {gseq : BitVec 16} (result : Fin 3) {g : Grant} {s : State}
    (found : (s.port n).unacked.find? (fun x => x.gseq = gseq.toNat) = some g) :
    exec (.ack n gseq result) s = .next (if result = 0 then s.updPort n fun p => p.acked g s.sys.timeNs result
      else (s.updPort n fun p => p.acked g s.sys.timeNs result).ev 0x7011 n.val).syncOverShare := by
  show execAck n gseq result s = _
  unfold execAck
  dsimp only
  rw [found]
  dsimp only
  rw [State.updPort_congr (g := fun p => p.acked g s.sys.timeNs result) ?port]
  case port =>
    unfold Port.acked
    cases (s.port n).inForce with
    | none => rfl
    | some _ => rfl

theorem exec_ack_none {n : Fin 64} {gseq : BitVec 16} (result : Fin 3) {s : State}
    (unknown : (s.port n).unacked.find? (fun x => x.gseq = gseq.toNat) = none) :
    exec (.ack n gseq result) s = .next s := by
  show execAck n gseq result s = _
  unfold execAck
  dsimp only
  rw [unknown]

@[simp] theorem State.syncOverShare_port (s : State) (n : Fin 64) : s.syncOverShare.port n = s.port n := rfl

/-- What an acknowledgement does. -/
theorem exec_ack_does {n : Fin 64} {gseq : BitVec 16} (result : Fin 3) {g : Grant} {s : State}
    (found : (s.port n).unacked.find? (fun x => x.gseq = gseq.toNat) = some g) :
    Gives (.ack n gseq result) s fun t =>
      t.port n = (s.port n).acked g s.sys.timeNs result ∧ (∀ j, j ≠ n → t.port j = s.port j) ∧
      t.evr = if result = 0 then s.evr else s.evs [(0x7011, n.val, 0)] := by
  refine ⟨_, exec_ack_found result found, ?_⟩
  by_cases accepted : result = 0
  · rw [if_pos accepted, if_pos accepted]
    exact ⟨State.updPort_same .., fun j other => State.updPort_other other _ _, rfl⟩
  · rw [if_neg accepted, if_neg accepted]
    exact s.updPort_ev_does n _ _ _ _

/-! Grants that go out again (R254, R264). -/

theorem exec_grantResend_due {n : Fin 64} {g : Grant} {s : State} (sent : (s.port n).sent = some g)
    (linked : (s.port n).linked = true) (tries : (s.port n).ackTries = 1 ∨ (s.port n).ackTries = 2)
    (due : s.elapsed (s.port n).sentTick (2 * (s.port n).ackTries) = true) :
    exec (.grantResend n) s = .next
      ((({ s with tlk := { s.tlk with grantsSent := wrapU 32 (s.tlk.grantsSent + 1) } }.updPort n
        fun p => { p with ackTries := p.ackTries + 1 })).send (.tlk n.val g.frame)) := by
  show execGrantResend n s = _
  unfold execGrantResend
  dsimp only
  rw [sent]
  exact if_pos (by simpa [linked, due] using tries)

theorem exec_grantTimeout_late {n : Fin 64} {s : State} (tries : (s.port n).ackTries = 3)
    (late : s.elapsed (s.port n).sentTick 6 = true) : exec (.grantTimeout n) s =
      .next ((s.updPort n fun p => { p with ackTries := 0, errAck := bump 8 p.errAck }).ev 0x7010 n.val) :=
  if_pos (by simp [tries, late])

/-- ENVELOPE, STATE and GSEQ of the grants of a port that waits for no share (R255, R262, R263). -/
theorem State.grantFor_terms {s : State} {n : Fin 64} (serves : (s.port n).handback = false) :
    (s.grantFor n).envelope = (match (s.port n).state with
      | .active | .takenOver => (s.port n).target
      | .watch | .draining | .drained => 0
      | _ => s.safeEnv n.val) ∧
    (s.grantFor n).state = (s.port n).state.grantState ∧ (s.grantFor n).gseq = wrapU 16 ((s.port n).gseqSent + 1) := by
  refine ⟨?_, if_neg (by simp [serves]), rfl⟩
  refine (if_neg (by simp [serves])).trans ?_
  cases (s.port n).state <;> rfl

/-! TIME (R254, R258). -/

theorem exec_time_idle {s : State} (idle : s.due 50 s.tlk.timeTick = false) : exec .time s = .next s :=
  congrArg Host.Outcome.next (if_pos (by simp [idle]))

/-- TIME of a tick in which it is due goes out on every port that carries sets. -/
theorem exec_time_due {s : State} (due : s.due 50 s.tlk.timeTick = true) :
    Gives .time s fun t =>
      t.tlk = { s.tlk with timeTick := some s.sys.tick } ∧
      (∀ n, (s.port n).carriesSets = true → .tlk n.val (timeFrame s.sys.timeNs) ∈ t.tx) ∧ ∀ o ∈ s.tx, o ∈ t.tx := by
  refine ⟨_, congrArg Host.Outcome.next (if_neg (by simp [due])), ?_, fun n carries => ?_, fun o mem => ?_⟩
  · exact foldl_same State.tlk (f := fun t (n : Fin 64) => t.send (.tlk n.val (timeFrame t.sys.timeNs))) (fun _ _ => rfl) _ _
  · refine foldl_reaches (f := fun t (n : Fin 64) => t.send (.tlk n.val (timeFrame t.sys.timeNs))) (before := fun t => t.sys = s.sys)
      (after := fun t => .tlk n.val (timeFrame s.sys.timeNs) ∈ t.tx) (fun t m other same => same) (fun t same => ?_)
      (fun t m other sent => List.mem_cons_of_mem _ sent) (State.mem_portsWhere.2 carries) (s.portsWhere_nodup _) ?_
    · rw [← same]
      exact List.mem_cons_self
    · rfl
  · exact List.foldlRecOn (motive := fun t : State => o ∈ t.tx) _ _ mem fun t sent n _ => List.mem_cons_of_mem _ sent

/-- Settles O18: a report by the port it stores, an ACK and a grant by the port they leave, and TIME by its fold. -/
theorem reportsAndGrants : Obligations.ReportsAndGrants := by
  refine ⟨fun n f missing s => exec_report_stored missing, fun n r missing s => s.takeReport_does n r missing,
    fun n f missing s linked watch lost again run => exec_report_takesOver missing linked watch lost again,
    fun n f missing s => exec_report_givesBack missing, fun n r s => State.checkReport_idle,
    fun n r s granting calm smooth => ?keeps, fun n r s granting lax breaks => ?breaks,
    fun n s linked used up fresh late => ⟨_, exec_reportStale_late linked used up fresh late, s.updPort_ev_does n _ _ _ _⟩,
    fun n gseq result g s => exec_ack_does result, fun n gseq result s => exec_ack_none result,
    fun n g s sent linked tries due => ⟨_, exec_grantResend_due sent linked tries due, State.updPort_same .., fun j other =>
      State.updPort_other other _ _, rfl, rfl, rfl⟩,
    fun n s tries late => ⟨_, exec_grantTimeout_late tries late, s.updPort_ev_does n _ _ _ _⟩,
    fun n s grants => ⟨_, rfl, ?refresh⟩, fun n s idle => congrArg Host.Outcome.next (State.sendGrant_idle idle),
    fun n s => State.grantFor_terms, fun s => exec_time_due, fun s => exec_time_idle, fun n s used => ?dropped⟩
  case keeps =>
    refine State.checkReport_keepsRules granting ?_
    rw [State.breaksRule, smooth]
    rcases calm with below | first
    · simp [below]
    · simp [first]
  case breaks => exact State.checkReport_breaks granting lax (by simpa [State.breaksRule] using breaks)
  case refresh =>
    rw [State.sendGrant_sends grants]
    exact ⟨State.updPort_same .., rfl, fun j other => State.updPort_other other _ _, rfl, rfl⟩
  case dropped =>
    exact ⟨_, congrArg Host.Outcome.next (if_neg used), State.updPort_same .., fun j other => State.updPort_other other _ _,
      rfl⟩

end Sys2Proof.Machine
end

section
/-! SUPPORT. RELEASE on the tray ports, and what a cause that clears leads to (R252, R272 to R274). -/

namespace Sys2Proof.Machine

/-! Causes in force (R272). -/

theorem State.anyCause_iff (s : State) :
    s.tlk.causes.toList.any id = true ↔ ∃ c : Fin 7, s.tlk.causes[c.val] = true := by
  simp only [List.any_eq_true, Vector.mem_toList_iff, Vector.mem_iff_getElem, id]
  constructor
  · rintro ⟨_, ⟨i, lt, rfl⟩, held⟩
    exact ⟨⟨i, lt⟩, held⟩
  · rintro ⟨c, held⟩
    exact ⟨_, ⟨c.val, c.isLt, rfl⟩, held⟩

/-- A port with a cause of its own in force. -/
theorem State.anyPortCause_iff (s : State) :
    (s.tlk.port.toList.any fun p => p.thrOperator || p.thrNoncompliant) = true ↔
    ∃ n, ((s.port n).thrOperator || (s.port n).thrNoncompliant) = true := by
  simp only [List.any_eq_true, Vector.mem_toList_iff, Vector.mem_iff_getElem]
  constructor
  · rintro ⟨_, ⟨i, lt, rfl⟩, held⟩
    exact ⟨⟨i, lt⟩, held⟩
  · rintro ⟨n, held⟩
    exact ⟨_, ⟨n.val, n.isLt, rfl⟩, held⟩

theorem State.anyThrottleCause_of_cause {s : State} {c : Fin 7} (held : s.tlk.causes[c.val] = true) :
    s.anyThrottleCause = true :=
  Bool.or_eq_true_iff.2 (.inl (s.anyCause_iff.2 ⟨c, held⟩))

theorem State.noCause {s : State} (clear : ∀ c : Fin 7, s.tlk.causes[c.val] = false) :
    s.tlk.causes.toList.any id = false := by
  rw [← Bool.not_eq_true, s.anyCause_iff]
  rintro ⟨c, held⟩
  rw [clear] at held
  exact Bool.false_ne_true held

theorem State.noThrottleCause {s : State} (clear : ∀ c : Fin 7, s.tlk.causes[c.val] = false)
    (free : ∀ n, (s.port n).thrOperator = false ∧ (s.port n).thrNoncompliant = false) : s.anyThrottleCause = false := by
  have ports : (s.tlk.port.toList.any fun p => p.thrOperator || p.thrNoncompliant) = false := by
    rw [← Bool.not_eq_true, s.anyPortCause_iff]
    rintro ⟨n, held⟩
    simp [free n] at held
  exact Bool.or_eq_false_iff.2 ⟨State.noCause clear, ports⟩

/-- A cause on all ports, OPERATOR aside, holds every port. -/
theorem State.portHeld_of_cause {s : State} {c : Fin 7} (held : s.tlk.causes[c.val] = true) (notOperator : c ≠ 4) (p : Port) :
    s.portHeld p = true := by
  have notFour : ¬ c.val = 4 := fun same => notOperator (Fin.ext same)
  have holds : ((List.finRange 7).any fun c => s.tlk.causes[c.val] && !(decide (c.val = 4) && p.opCleared)) = true :=
    List.any_eq_true.2 ⟨c, List.mem_finRange c, by simp [held, notFour]⟩
  simp only [State.portHeld, holds, Bool.or_true, Bool.true_or]

/-- A port that no cause holds. -/
theorem State.portHeld_free {s : State} {p : Port} (operator : p.thrOperator = false) (complies : p.thrNoncompliant = false)
    (clear : ∀ c : Fin 7, c ≠ 4 → s.tlk.causes[c.val] = false) (cleared : s.tlk.causes[4] = true → p.opCleared = true)
    (settled : (s.tlk.thrRestart && s.anyThrottleCause) = false) : s.portHeld p = false := by
  have free : ((List.finRange 7).any fun c => s.tlk.causes[c.val] && !(decide (c.val = 4) && p.opCleared)) = false := by
    rw [← Bool.not_eq_true, List.any_eq_true]
    rintro ⟨c, -, holds⟩
    by_cases four : c = 4
    · subst four
      simp only [Bool.and_eq_true] at holds
      simp [cleared holds.1] at holds
    · rw [clear c four] at holds
      exact Bool.false_ne_true holds
  simp only [State.portHeld, operator, complies, free, settled, Bool.or_self]

/-! Causes have cleared (R272, R273). -/

/-- A cause on all ports stands, or a release that starts afresh waits for all causes. -/
def State.stillHeld (s : State) : Bool :=
  s.tlk.causes.toList.any id || (s.tlk.thrRestart && s.anyThrottleCause)

/-- THROTTLE on all ports ends with the last cause that holds it. -/
def State.unheld (s : State) : State :=
  { s with tlk := { s.tlk with throttleAll := s.tlk.throttleAll && s.stillHeld
                               thrRestart := s.tlk.thrRestart && s.anyThrottleCause } }

/-- The throttled ports that no cause holds. -/
def State.toRelease (s : State) : List (Fin 64) := s.portsWhere fun p => p.throttled && !s.portHeld p

theorem State.unheld_portHeld (s : State) (p : Port) : s.unheld.portHeld p = s.portHeld p := by
  have again : (s.unheld.tlk.thrRestart && s.unheld.anyThrottleCause) = (s.tlk.thrRestart && s.anyThrottleCause) := by
    show (s.tlk.thrRestart && s.anyThrottleCause && s.anyThrottleCause) = _
    rw [Bool.and_assoc, Bool.and_self]
  unfold State.portHeld
  rw [again]
  rfl

theorem State.settle_eq (s : State) :
    s.settle = if s.toRelease.isEmpty then s.unheld
      else s.unheld.releasePorts s.toRelease (if s.tlk.throttleAll && !s.stillHeld then 0 else 1) := by
  have list : s.toRelease = s.unheld.portsWhere fun p => p.throttled && !s.unheld.portHeld p := by
    simp only [State.unheld_portHeld]
    rfl
  rw [list]
  rfl

theorem State.settle_idle {s : State} (held : ∀ n, (s.port n).throttled = true → s.portHeld (s.port n) = true) :
    s.settle = s.unheld := by
  have none_ : s.toRelease = [] := List.filter_eq_nil_iff.2 fun n _ => by
    simpa using held n
  rw [State.settle_eq, none_]
  rfl

theorem State.settle_releases {s : State} (some_ : s.toRelease ≠ []) :
    s.settle = s.unheld.releasePorts s.toRelease (if s.tlk.throttleAll && !s.stillHeld then 0 else 1) := by
  rw [State.settle_eq, if_neg (by simpa using some_)]

theorem State.unheld_eq {s : State} (all : (s.tlk.throttleAll && s.stillHeld) = s.tlk.throttleAll)
    (restart : (s.tlk.thrRestart && s.anyThrottleCause) = s.tlk.thrRestart) : s.unheld = s := by
  unfold State.unheld
  rw [all, restart]

theorem State.unheld_of_cause {s : State} {c : Fin 7} (held : s.tlk.causes[c.val] = true) : s.unheld = s :=
  State.unheld_eq (by simp [State.stillHeld, s.anyCause_iff.2 ⟨c, held⟩])
    (by rw [State.anyThrottleCause_of_cause held, Bool.and_true])

/-- While a cause but OPERATOR stands on all ports, nothing is released. -/
theorem State.settle_held {s : State} {c : Fin 7} (held : s.tlk.causes[c.val] = true) (notOperator : c ≠ 4) : s.settle = s :=
  (State.settle_idle fun n _ => State.portHeld_of_cause held notOperator (s.port n)).trans (State.unheld_of_cause held)

/-! RELEASE on one port (R252, R273, R274). -/

/-- DELAY_US of a port's release: the offset of its placement. -/
def State.releaseDelay (s : State) (n : Fin 64) : Nat :=
  ((s.tlk.placed.find? fun p => p.port == n.val && p.source == 0x1FF).map Placement.offset).getD 0

/-- A port after an ordered set RELEASE whose delay ends at shelf time `t`. -/
def Port.freed (p : Port) (t : Nat) : Port :=
  { p with tseq := wrapU 16 (p.tseq + 1), throttled := false, relEnd := some t }

/-- The set RELEASE that a port sends next. -/
def Port.releaseSet (p : Port) (delay scope : Nat) : List Byte := orderedSet 0x66 (wrapU 16 (p.tseq + 1)) 0 delay scope

/-- The state before the grants that a release has changed go out. -/
def State.releaseSent (s : State) (scope : Nat) (n : Fin 64) : State :=
  let till := s.sys.timeNs + 1000 * s.releaseDelay n
  (((s.updPort n fun p => p.freed till).shiftEntries n till).sendSet n
    ((s.port n).releaseSet (s.releaseDelay n) scope)).ev 0x7021 n.val

theorem State.releaseOut_eq (s : State) (scope : Nat) (n : Fin 64) : s.releaseOut scope n =
    (s.releaseSent scope n).regrant (s.updPort n fun p => p.freed (s.sys.timeNs + 1000 * s.releaseDelay n)) := by
  have seq : ((s.updPort n fun p => p.freed (s.sys.timeNs + 1000 * s.releaseDelay n)).port n).tseq =
      wrapU 16 ((s.port n).tseq + 1) := by
    rw [State.updPort_same]
    rfl
  unfold State.releaseSent Port.releaseSet
  rw [← seq]
  rfl

theorem State.releaseSent_same (s : State) (scope : Nat) (n : Fin 64) :
    (s.releaseSent scope n).port n = (s.port n).freed (s.sys.timeNs + 1000 * s.releaseDelay n) :=
  (State.ev_port ..).trans (State.updPort_same ..)

theorem State.releaseSent_other {n j : Fin 64} (other : j ≠ n) (s : State) (scope : Nat) :
    (s.releaseSent scope n).port j = s.port j :=
  (State.ev_port ..).trans (State.updPort_other other ..)

theorem State.releaseSent_tx (s : State) (scope : Nat) (n : Fin 64) : (s.releaseSent scope n).tx =
    .tlk n.val ((s.port n).releaseSet (s.releaseDelay n) scope) ::
      .tlk n.val ((s.port n).releaseSet (s.releaseDelay n) scope) :: s.tx :=
  State.ev_tx ..

/-- To the recorder a release is its event. -/
theorem State.SameEv.releaseSent {s t : State} (h : s.SameEv t) (scope : Nat) (n : Fin 64) :
    (s.ev 0x7021 n.val 0).SameEv (t.releaseSent scope n) := by
  unfold State.releaseSent
  have moved := State.shiftEntries_kept _ n (t.sys.timeNs + 1000 * t.releaseDelay n) (List.Subset.refl _)
    (State.updPort_kept t n (fun p => p.freed (t.sys.timeNs + 1000 * t.releaseDelay n)) (List.Subset.refl _) .rfl)
  exact (h.kept (State.sendSet_kept (L := [.tlk, .tx]) _ _ _ (by decide) (moved.mono (by decide))) (by decide)).ev _ _ _

/-! Grants that go out beside a release. -/

/-- What a grant does not change of a port stays. -/
theorem State.sendGrant_keeps {α : Type} {π : Port → α} (keeps : ∀ p g t, π (Port.granted p g t) = π p) (s : State)
    (n j : Fin 64) : π ((s.sendGrant n).port j) = π (s.port j) := by
  cases grants : (s.port n).grants with
  | false => rw [State.sendGrant_idle grants]
  | true =>
    rw [State.sendGrant_sends grants, State.send_port]
    exact State.updPort_keeps (fun p => keeps p _ _) _ n j

theorem State.regrant_keeps {α : Type} {π : Port → α} (keeps : ∀ p g t, π (Port.granted p g t) = π p) (s old : State)
    (j : Fin 64) : π ((s.regrant old).port j) = π (s.port j) :=
  foldl_same (fun t : State => π (t.port j)) (fun t n => t.sendGrant_keeps keeps n j) _ s

theorem State.mem_tx_sendGrant {s : State} {o : Output} (sent : o ∈ s.tx) (n : Fin 64) : o ∈ (s.sendGrant n).tx := by
  cases grants : (s.port n).grants with
  | false => rwa [State.sendGrant_idle grants]
  | true =>
    rw [State.sendGrant_sends grants]
    exact List.mem_cons_of_mem _ sent

theorem State.mem_tx_regrant {s : State} {o : Output} (sent : o ∈ s.tx) (old : State) : o ∈ (s.regrant old).tx :=
  List.foldlRecOn (motive := fun t : State => o ∈ t.tx) _ _ sent fun _ sent n _ => State.mem_tx_sendGrant sent n

/-- No grant goes out where every port that sends grants sent the same one before. -/
theorem State.regrant_same {s old : State} (same : ∀ n, (s.port n).grants = true →
    (old.port n).grants = true ∧ (s.grantFor n).terms = (old.grantFor n).terms) : s.regrant old = s := by
  have none_ : ((s.portsWhere Port.grants).filter fun n =>
      !(old.port n).grants || (s.grantFor n).terms != (old.grantFor n).terms) = [] :=
    List.filter_eq_nil_iff.2 fun n mem => by
      obtain ⟨grants, terms⟩ := same n (State.mem_portsWhere.1 mem)
      simp [grants, terms]
  unfold State.regrant
  rw [none_]
  rfl

section Released

variable (s : State) (scope : Nat) (n : Fin 64)

theorem State.releaseOut_throttled : ((s.releaseOut scope n).port n).throttled = false := by
  rw [State.releaseOut_eq, State.regrant_keeps (π := Port.throttled) (fun _ _ _ => rfl), State.releaseSent_same]
  rfl

theorem State.releaseOut_other {j : Fin 64} (other : j ≠ n) :
    ((s.releaseOut scope n).port j).throttled = (s.port j).throttled ∧
    ((s.releaseOut scope n).port j).tseq = (s.port j).tseq := by
  rw [State.releaseOut_eq, State.regrant_keeps (π := Port.throttled) (fun _ _ _ => rfl),
    State.regrant_keeps (π := Port.tseq) (fun _ _ _ => rfl), State.releaseSent_other other]
  exact ⟨rfl, rfl⟩

theorem State.releaseOut_sends :
    .tlk n.val ((s.port n).releaseSet (s.releaseDelay n) scope) ∈ (s.releaseOut scope n).tx := by
  rw [State.releaseOut_eq]
  refine State.mem_tx_regrant ?_ _
  rw [State.releaseSent_tx]
  exact List.mem_cons_self

theorem State.mem_tx_releaseOut {o : Output} (sent : o ∈ s.tx) : o ∈ (s.releaseOut scope n).tx := by
  rw [State.releaseOut_eq]
  refine State.mem_tx_regrant ?_ _
  rw [State.releaseSent_tx]
  exact List.mem_cons_of_mem _ (List.mem_cons_of_mem _ sent)

end Released

/-- RELEASE leaves the causes and THROTTLE on all ports as they are. -/
theorem State.releaseOut_causes (s : State) (scope : Nat) (n : Fin 64) :
    (s.releaseOut scope n).tlk.causes = s.tlk.causes ∧ (s.releaseOut scope n).tlk.throttleAll = s.tlk.throttleAll := by
  have granted (t : State) (n : Fin 64) :
      ((t.sendGrant n).tlk.causes, (t.sendGrant n).tlk.throttleAll) = (t.tlk.causes, t.tlk.throttleAll) := by
    unfold State.sendGrant
    split <;> rfl
  rw [State.releaseOut_eq]
  refine Prod.mk.inj ((foldl_same (fun t : State => (t.tlk.causes, t.tlk.throttleAll)) granted _ _).trans ?_)
  unfold State.releaseSent
  rw [State.ev_tlk]
  rfl

/-! RELEASE on several ports (R273). -/

/-- A pass of placements adds placements. -/
theorem State.placePass_eq (rising : Bool) (t id src c grant : Nat) (l : List (Fin 64 × Nat)) (cursor : Nat) (s : State) :
    s.placePass rising t id src c grant l cursor = { s with tlk := { s.tlk with
      placed := (s.placePass rising t id src c grant l cursor).tlk.placed
      allocSpread := (s.placePass rising t id src c grant l cursor).tlk.allocSpread
      allocPlaced := (s.placePass rising t id src c grant l cursor).tlk.allocPlaced } } := by
  induction l generalizing s cursor with
  | nil => rfl
  | cons x l ih =>
    unfold State.placePass
    dsimp only
    split
    · exact ih cursor s
    · exact ih _ _

/-- The ports are released one by one, once their barrier is placed. -/
theorem State.releasePorts_eq (s : State) (l : List (Fin 64)) (scope : Nat) : ∃ placed runs, s.releasePorts l scope =
    let t := l.foldl (State.releaseOut scope) { s with tlk := { s.tlk with placed := placed } }
    { t with tlk := { t.tlk with releasing := runs } } := by
  unfold State.releasePorts
  extract_lets c moves spread cnt t u v w runs
  have placed : v = { s with tlk := { s.tlk with placed := t.tlk.placed } } := by
    have pass := State.placePass_eq true s.sys.timeNs 0 0x1FF c (s.pol16 0x0C 0) moves 0 s
    show ({ t with tlk := { t.tlk with allocSpread := spread, allocPlaced := cnt } } : State) = _
    rw [show t = _ from pass]
  refine ⟨t.tlk.placed, w.tlk.releasing || runs, ?_⟩
  rw [← placed]

/-- Every port of the list is released, and sends RELEASE with its delay; the others stay throttled or free. -/
theorem State.releasePorts_does (s : State) {l : List (Fin 64)} (once : l.Nodup) (scope : Nat) :
    (s.releasePorts l scope).tlk.causes = s.tlk.causes ∧
    (s.releasePorts l scope).tlk.throttleAll = s.tlk.throttleAll ∧
    (∀ n ∈ l, ((s.releasePorts l scope).port n).throttled = false ∧
      ∃ d, .tlk n.val ((s.port n).releaseSet d scope) ∈ (s.releasePorts l scope).tx) ∧
    ∀ n, n ∉ l → ((s.releasePorts l scope).port n).throttled = (s.port n).throttled := by
  obtain ⟨placed, runs, eq⟩ := s.releasePorts_eq l scope
  rw [eq]
  dsimp only
  obtain ⟨causes, all⟩ := Prod.mk.inj (foldl_same (fun t : State => (t.tlk.causes, t.tlk.throttleAll))
    (f := State.releaseOut scope) (fun t n => Prod.ext (t.releaseOut_causes scope n).1 (t.releaseOut_causes scope n).2)
    l { s with tlk := { s.tlk with placed := placed } })
  refine ⟨causes, all, fun n mem => ?_, fun n out => ?_⟩
  · refine foldl_reaches (f := State.releaseOut scope) (before := fun t => (t.port n).tseq = (s.port n).tseq)
      (after := fun t => (t.port n).throttled = false ∧ ∃ d, .tlk n.val ((s.port n).releaseSet d scope) ∈ t.tx)
      (fun t m other same => (t.releaseOut_other scope m other.symm).2.trans same) (fun t same => ?_)
      (fun t m other reached => ?_) mem once ?_
    · refine ⟨t.releaseOut_throttled scope n, t.releaseDelay n, ?_⟩
      have sends := t.releaseOut_sends scope n
      rwa [Port.releaseSet, same] at sends
    · obtain ⟨free, d, sent⟩ := reached
      exact ⟨(t.releaseOut_other scope m other.symm).1.trans free, d, t.mem_tx_releaseOut scope m sent⟩
    · rfl
  · exact List.foldlRecOn (motive := fun t : State => (t.port n).throttled = (s.port n).throttled) _ _ rfl
      fun t same m mem => (t.releaseOut_other scope m (ne_of_mem_of_not_mem mem out).symm).1.trans same

/-- Without entries in the table a release moves none. -/
theorem State.shiftEntries_empty {s : State} (empty : s.tlk.table = []) (n : Fin 64) (till : Nat) :
    s.shiftEntries n till = s := by
  unfold State.shiftEntries
  simp only [empty, List.map_nil, List.find?_nil, Option.bind_none, List.map_id']
  rw [← empty]

/-- Without entries in the table no grant changes with a release. -/
theorem State.releaseOut_empty {s : State} (empty : s.tlk.table = []) (scope : Nat) (n : Fin 64) :
    s.releaseOut scope n = s.releaseSent scope n := by
  rw [State.releaseOut_eq]
  refine State.regrant_same fun j grants => ?_
  unfold State.releaseSent at grants ⊢
  dsimp only at grants ⊢
  rw [State.shiftEntries_empty (by exact empty)] at grants ⊢
  rw [State.ev_port] at grants
  rw [State.ev_eq]
  exact ⟨grants, rfl⟩

end Sys2Proof.Machine
end

section
/-! SUPPORT. The commands of THROTTLE and RELEASE, and the sense of RACK_HOLD_N (R252, R272, R273, R275, R276, R289, R292). -/

namespace Sys2Proof.Machine

/-! A session throttles (R272, R289, R292). -/

theorem exec_throttleAll_allowed {sess : Fin 64} {s : State} (allowed : s.allows sess .or_ = true) :
    exec (.throttleAll sess) s = .next (s.throttleAllPorts 4) :=
  congrArg Host.Outcome.next (State.regCmd_allowed allowed _)

theorem exec_throttle_used {sess n : Fin 64} {s : State} (allowed : s.allows sess .or_ = true)
    (used : (s.port n).state ≠ .unused) : exec (.throttle sess n) s = .next (s.throttlePort n 5) :=
  congrArg Host.Outcome.next ((if_pos (by simp [used])).trans (State.regCmd_allowed allowed _))

theorem Port.used_of_carriesSets {p : Port} (carries : p.carriesSets = true) : p.state ≠ .unused := by
  simp only [Port.carriesSets, Bool.and_eq_true, bne_iff_ne] at carries
  exact carries.2

/-- THROTTLE_ALL holds every port again, whatever RELEASE has cleared on it. -/
theorem State.raiseCause_operator (s : State) (n : Fin 64) :
    (s.raiseCause 4).port n = { s.port n with opCleared := false } := by
  simp [State.raiseCause, State.port]

theorem State.raiseCause_causes (s : State) (cause : Fin 7) :
    (s.raiseCause cause).tlk.causes = updV s.tlk.causes cause fun _ => true := rfl

theorem exec_throttleAll_goes {sess : Fin 64} {s : State} (allowed : s.allows sess .or_ = true)
    (free : s.tlk.throttleAll = false) :
    Gives (.throttleAll sess) s fun t =>
      t.tlk.throttleAll = true ∧ t.tlk.releasing = false ∧ t.tlk.causes[4] = true ∧
      (∀ c : Fin 7, c ≠ 4 → t.tlk.causes[c.val] = s.tlk.causes[c.val]) ∧
      (∀ n, (s.port n).carriesSets = true → (t.port n).throttled = true ∧ (t.port n).tseq = wrapU 16 ((s.port n).tseq + 1) ∧
        .tlk n.val (orderedSet 0x55 (wrapU 16 ((s.port n).tseq + 1)) 5 0 0) ∈ t.tx) ∧
      (∀ n, (s.port n).carriesSets = false → t.port n = { s.port n with opCleared := false }) ∧
      t.evr = s.evs [(0x7020, noInst, 16)] := by
  have notAll : s.allThrottled = false := by simp [State.allThrottled, free]
  obtain ⟨causes, all⟩ := (s.raiseCause 4).throttleEvery_tlk 5
  have carries (n : Fin 64) : ((s.raiseCause 4).port n).carriesSets = (s.port n).carriesSets := by
    rw [State.raiseCause_operator]
    rfl
  have port (n : Fin 64) := (s.raiseCause 4).throttleEvery_port 5 n
  refine ⟨_, exec_throttleAll_allowed allowed, ?_⟩
  have event := s.throttleAllPorts_evr 4
  rw [State.throttleAllPorts_goes notAll] at event ⊢
  refine ⟨?_, ?_, ?_, fun c other => ?_, fun n carried => ?_, fun n carried => ?_, event⟩
  · rw [State.ev_tlk]
    exact all
  · rw [State.ev_tlk]
    exact ((s.raiseCause 4).throttleEvery_flags 5).1
  · rw [State.ev_tlk]
    exact (congrArg (·[4]) causes).trans (by simp [State.raiseCause_causes])
  · rw [State.ev_tlk]
    refine (congrArg (·[c.val]) causes).trans ((updV_get _ _ _ _ c.isLt).trans (if_neg ?_))
    exact fun same => other (Fin.ext same.symm)
  · have thrown := (port n).trans (if_pos ((carries n).trans carried))
    have sends := State.throttleEvery_sends ((carries n).trans carried) 5
    rw [State.raiseCause_operator] at thrown sends
    rw [State.ev_port, State.ev_tx]
    exact ⟨congrArg Port.throttled thrown, congrArg Port.tseq thrown, sends⟩
  · rw [State.ev_port]
    refine ((port n).trans (if_neg ?_)).trans (s.raiseCause_operator n)
    rw [carries, carried]
    exact Bool.false_ne_true

theorem exec_throttleAll_standing {sess : Fin 64} {s : State} (allowed : s.allows sess .or_ = true)
    (all : s.allThrottled = true) :
    Gives (.throttleAll sess) s fun t =>
      t.tlk = { s.tlk with causes := updV s.tlk.causes 4 fun _ => true
                           causeTick := updV s.tlk.causeTick 4 fun _ => s.sys.tick
                           port := s.tlk.port.map fun (x : Port) => { x with opCleared := false } } ∧ t.tx = s.tx ∧
      t.evr = s.evs [(0x7020, noInst, 16)] := by
  refine ⟨_, exec_throttleAll_allowed allowed, ?_⟩
  have event := s.throttleAllPorts_evr 4
  rw [State.throttleAllPorts_standing all] at event ⊢
  exact ⟨State.ev_tlk .., State.ev_tx .., event⟩

theorem exec_throttle_goes {sess n : Fin 64} {s : State} (allowed : s.allows sess .or_ = true)
    (free : s.tlk.throttleAll = false) (rests : s.tlk.releasing = false) (carries : (s.port n).carriesSets = true) :
    Gives (.throttle sess n) s fun t =>
      (t.port n).thrOperator = true ∧ (t.port n).throttled = true ∧ (t.port n).tseq = wrapU 16 ((s.port n).tseq + 1) ∧
      t.tlk.throttleAll = false ∧ t.tlk.causes = s.tlk.causes ∧ (∀ j, j ≠ n → t.port j = s.port j) ∧
      t.tx = .tlk n.val (orderedSet 0x55 (wrapU 16 ((s.port n).tseq + 1)) 5 0 1) ::
        .tlk n.val (orderedSet 0x55 (wrapU 16 ((s.port n).tseq + 1)) 5 0 1) :: s.tx ∧
      t.evr = s.evs [(0x7020, n.val, 16)] := by
  refine ⟨_, (exec_throttle_used allowed (Port.used_of_carriesSets carries)).trans
    (congrArg Host.Outcome.next (State.throttlePort_goes 5 rests (.inl free) carries)), ?_⟩
  have held : (s.updPort n fun p => p.holdFor 5).port n = { s.port n with thrOperator := true } := State.updPort_same ..
  have thrown := (s.updPort n fun p => p.holdFor 5).throttleOut_same n 5 1
  have sent := (s.updPort n fun p => p.holdFor 5).throttleOut_tx n 5 1
  have event : s.SameEv ((s.updPort n fun p => p.holdFor 5).throttleOut n 5 1) := ⟨rfl, rfl, rfl, rfl, rfl⟩
  rw [held] at thrown sent
  simp only [State.ev_port, State.ev_tlk, State.ev_tx]
  refine ⟨?_, congrArg Port.throttled thrown, congrArg Port.tseq thrown, free, rfl, fun j other => ?_, sent,
    (event.ev _ _ _).evr.symm⟩
  · rw [thrown, Port.thrown_thrOperator]
  · exact (State.throttleOut_other other _ _ _).trans (State.updPort_other other _ _)

/-- While RELEASE delays run, THROTTLE of one port goes to all of them. -/
theorem exec_throttle_restarts {sess n : Fin 64} {s : State} (allowed : s.allows sess .or_ = true)
    (releasing : s.tlk.releasing = true) (carries : (s.port n).carriesSets = true) :
    Gives (.throttle sess n) s fun t =>
      (t.port n).thrOperator = true ∧ t.tlk.throttleAll = true ∧ t.tlk.releasing = false ∧ t.tlk.thrRestart = true ∧
      (∀ m, (s.port m).carriesSets = true → (t.port m).throttled = true ∧
        .tlk m.val (orderedSet 0x55 (wrapU 16 ((s.port m).tseq + 1)) 5 0 0) ∈ t.tx) ∧
      t.evr = s.evs [(0x7020, n.val, 16)] := by
  refine ⟨_, (exec_throttle_used allowed (Port.used_of_carriesSets carries)).trans
    (congrArg Host.Outcome.next (State.throttlePort_restarts 5 releasing)), ?_⟩
  generalize hu : ({ s.updPort n fun p => p.holdFor 5 with
    tlk := { (s.updPort n fun p => p.holdFor 5).tlk with thrRestart := true } } : State) = u
  have event : s.SameEv u := hu ▸ ⟨rfl, rfl, rfl, rfl, rfl⟩
  have held : u.port n = { s.port n with thrOperator := true } := hu ▸ State.updPort_same ..
  have restart : u.tlk.thrRestart = true := hu ▸ rfl
  have carried (m : Fin 64) : (u.port m).carriesSets = (s.port m).carriesSets :=
    hu ▸ State.updPort_keeps (π := Port.carriesSets) (fun p => p.holdFor_carriesSets 5) s n m
  have seq (m : Fin 64) : (u.port m).tseq = (s.port m).tseq :=
    hu ▸ State.updPort_keeps (π := Port.tseq) (f := fun p => { p with thrOperator := true }) (fun _ => rfl) s n m
  obtain ⟨-, all⟩ := u.throttleEvery_tlk 5
  obtain ⟨ends, starts⟩ := u.throttleEvery_flags 5
  simp only [State.ev_port, State.ev_tlk, State.ev_tx]
  refine ⟨?_, all, ends, starts.trans restart, fun m carries => ⟨?_, ?_⟩,
    ((event.kept (u.throttleEvery_kept_tlk 5) (by decide)).ev _ _ _).evr.symm⟩
  · rw [State.throttleEvery_port, if_pos ((carried n).trans carries), Port.thrown_thrOperator, held]
  · rw [State.throttleEvery_port, if_pos ((carried m).trans carries)]
    rfl
  · have sends := State.throttleEvery_sends ((carried m).trans carries) 5
    rwa [Port.throttleSet, seq] at sends

theorem exec_throttle_adds {sess n : Fin 64} {s : State} (allowed : s.allows sess .or_ = true)
    (used : (s.port n).state ≠ .unused) (rests : s.tlk.releasing = false)
    (only : (s.tlk.throttleAll = true ∧ (s.port n).throttled = true) ∨ (s.port n).carriesSets = false) :
    exec (.throttle sess n) s = .next ((s.updPort n fun p => { p with thrOperator := true }).ev 0x7020 n.val 16) :=
  (exec_throttle_used allowed used).trans (congrArg Host.Outcome.next (State.throttlePort_adds 5 rests only))

/-! A session releases (R272, R289, R292). -/

theorem exec_releaseAll_allowed {sess : Fin 64} {s : State} (allowed : s.allows sess .or_ = true) :
    exec (.releaseAll sess) s = .next s.releaseAllPorts :=
  congrArg Host.Outcome.next (State.regCmd_allowed allowed _)

theorem exec_release_used {sess n : Fin 64} {s : State} (allowed : s.allows sess .or_ = true)
    (used : (s.port n).state ≠ .unused) :
    exec (.release sess n) s = .next ((s.updPort n fun p => { p with
      thrOperator := false, opCleared := s.tlk.causes[4] }).settle) :=
  congrArg Host.Outcome.next ((if_pos (by simp [used])).trans (State.regCmd_allowed allowed _))

/-- Once no cause of any kind is in force, no THROTTLE is held. -/
theorem State.unheld_free {s : State} (clear : ∀ c : Fin 7, s.tlk.causes[c.val] = false)
    (free : ∀ n, (s.port n).thrOperator = false ∧ (s.port n).thrNoncompliant = false) :
    s.stillHeld = false ∧ s.unheld = { s with tlk := { s.tlk with throttleAll := false, thrRestart := false } } := by
  have none_ := State.noThrottleCause clear free
  have ended : s.stillHeld = false := by simp [State.stillHeld, State.noCause clear, none_]
  refine ⟨ended, ?_⟩
  unfold State.unheld
  rw [ended, none_, Bool.and_false, Bool.and_false]

theorem exec_releaseAll_ends {sess : Fin 64} {s : State} (allowed : s.allows sess .or_ = true)
    (clear : ∀ c : Fin 7, c ≠ 4 → s.tlk.causes[c.val] = false)
    (free : ∀ n, (s.port n).throttled = false ∧ (s.port n).thrNoncompliant = false) :
    Gives (.releaseAll sess) s fun t =>
      t.tlk = { s.tlk with throttleAll := false, thrRestart := false, causes := updV s.tlk.causes 4 fun _ => false
                           port := s.tlk.port.map fun (x : Port) => { x with thrOperator := false, opCleared := false } } ∧
      t.tx = s.tx ∧ t.evr = s.evr := by
  refine ⟨_, exec_releaseAll_allowed allowed, ?_⟩
  unfold State.releaseAllPorts
  generalize hu : ({ s with tlk := { s.tlk with
    causes := updV s.tlk.causes 4 fun _ => false
    port := s.tlk.port.map fun (p : Port) => { p with thrOperator := false, opCleared := false } } } : State) = u
  have ports (n : Fin 64) : u.port n = { s.port n with thrOperator := false, opCleared := false } := by
    subst hu
    simp [State.port]
  have noCause (c : Fin 7) : u.tlk.causes[c.val] = false := by
    subst hu
    by_cases four : c = 4
    · simp [four]
    · exact (updV_get _ _ _ _ c.isLt).trans ((if_neg fun same => four (Fin.ext same.symm)).trans (clear c four))
  have settled : u.settle = _ := State.settle_idle fun n throttled => by
    rw [ports, (free n).1] at throttled
    exact absurd throttled Bool.false_ne_true
  rw [settled, (State.unheld_free noCause fun n => by rw [ports]; exact ⟨rfl, (free n).2⟩).2]
  subst hu
  exact ⟨rfl, rfl, rfl⟩

/-- RELEASE of the only throttled port, with no entry in the table. -/
theorem State.releasePorts_one {s : State} (empty : s.tlk.table = []) (n : Fin 64) (scope : Nat) :
    (s.releasePorts [n] scope).tlk.throttleAll = s.tlk.throttleAll ∧
    (∃ till, (s.releasePorts [n] scope).port n = (s.port n).freed till) ∧
    (∀ j, j ≠ n → (s.releasePorts [n] scope).port j = s.port j) ∧
    (∃ d, (s.releasePorts [n] scope).tx =
      .tlk n.val ((s.port n).releaseSet d scope) :: .tlk n.val ((s.port n).releaseSet d scope) :: s.tx) ∧
    (s.releasePorts [n] scope).evr = s.evs [(0x7021, n.val, 0)] := by
  obtain ⟨placed, runs, eq⟩ := s.releasePorts_eq [n] scope
  rw [eq]
  dsimp only [List.foldl_cons, List.foldl_nil]
  generalize hu : ({ s with tlk := { s.tlk with placed := placed } } : State) = u
  have bare : u.tlk.table = [] := hu ▸ empty
  have port (j : Fin 64) : u.port j = s.port j := hu ▸ rfl
  have all : u.tlk.throttleAll = s.tlk.throttleAll := hu ▸ rfl
  have tx : u.tx = s.tx := hu ▸ rfl
  have event : s.SameEv u := hu ▸ ⟨rfl, rfl, rfl, rfl, rfl⟩
  refine ⟨(u.releaseOut_causes scope n).2.trans all, ?_⟩
  rw [State.releaseOut_empty bare]
  refine ⟨⟨_, (u.releaseSent_same scope n).trans (congrArg (Port.freed · _) (port n))⟩,
    fun j other => (State.releaseSent_other other u scope).trans (port j), ⟨u.releaseDelay n, ?_⟩, ?_⟩
  · rw [← port, ← tx]
    exact u.releaseSent_tx scope n
  · exact (event.releaseSent scope n).evr.symm

/-- Where THROTTLE holds but one port, and no cause holds that one, it is released alone. -/
theorem State.settle_one {s : State} {n : Fin 64} (only : ∀ j, (s.port j).throttled = true ↔ j = n)
    (free : s.portHeld (s.port n) = false) (holds : (s.tlk.throttleAll && s.stillHeld) = s.tlk.throttleAll)
    (noRestart : s.tlk.thrRestart = false) : s.settle = s.releasePorts [n] 1 := by
  have mem (j : Fin 64) : j ∈ s.toRelease ↔ j ∈ [n] := by
    rw [State.toRelease, State.mem_portsWhere, List.mem_singleton, Bool.and_eq_true, only]
    constructor
    · exact And.left
    · rintro rfl
      exact ⟨rfl, by rw [free]; rfl⟩
  have one : s.toRelease = [n] :=
    List.perm_singleton.1 ((List.perm_ext_iff_of_nodup (s.portsWhere_nodup _) (List.nodup_singleton n)).2 mem)
  have scope : ¬ (s.tlk.throttleAll && !s.stillHeld) = true := by
    intro ends
    obtain ⟨all, gone⟩ := Bool.and_eq_true_iff.1 ends
    rw [all, Bool.true_and] at holds
    simp [holds] at gone
  rw [State.settle_releases (by simp [one]), one, if_neg scope,
    State.unheld_eq holds (by rw [noRestart, Bool.false_and])]

theorem exec_release_last {sess n : Fin 64} {s : State} (allowed : s.allows sess .or_ = true)
    (used : (s.port n).state ≠ .unused) (operator : s.tlk.throttleAll = false ∨ s.tlk.causes[4] = true)
    (clear : ∀ c : Fin 7, c ≠ 4 → s.tlk.causes[c.val] = false) (noRestart : s.tlk.thrRestart = false)
    (throttled : (s.port n).throttled = true) (complies : (s.port n).thrNoncompliant = false)
    (others : ∀ j, j ≠ n → (s.port j).throttled = false) (empty : s.tlk.table = []) :
    Gives (.release sess n) s fun t =>
      (t.port n).throttled = false ∧ (t.port n).thrOperator = false ∧ (∀ j, j ≠ n → t.port j = s.port j) ∧
      (t.port n).tseq = wrapU 16 ((s.port n).tseq + 1) ∧ t.tlk.throttleAll = s.tlk.throttleAll ∧
      (∃ d, t.tx = .tlk n.val (orderedSet 0x66 (wrapU 16 ((s.port n).tseq + 1)) 0 d 1) ::
        .tlk n.val (orderedSet 0x66 (wrapU 16 ((s.port n).tseq + 1)) 0 d 1) :: s.tx) ∧
      t.evr = s.evs [(0x7021, n.val, 0)] := by
  refine ⟨_, exec_release_used allowed used, ?_⟩
  generalize hu : (s.updPort n fun p => { p with thrOperator := false, opCleared := s.tlk.causes[4] }) = u
  have own : u.port n = { s.port n with thrOperator := false, opCleared := s.tlk.causes[4] } := hu ▸ State.updPort_same ..
  have rest (j : Fin 64) (other : j ≠ n) : u.port j = s.port j := hu ▸ State.updPort_other other ..
  have causes : u.tlk.causes = s.tlk.causes := hu ▸ rfl
  have all : u.tlk.throttleAll = s.tlk.throttleAll := hu ▸ rfl
  have restart : u.tlk.thrRestart = false := hu ▸ noRestart
  have bare : u.tlk.table = [] := hu ▸ empty
  have tx : u.tx = s.tx := hu ▸ rfl
  have event : s.SameEv u := hu ▸ ⟨rfl, rfl, rfl, rfl, rfl⟩
  have holds : (u.tlk.throttleAll && u.stillHeld) = u.tlk.throttleAll := by
    rcases operator with off | stands
    · rw [all, off, Bool.false_and]
    · have some_ := u.anyCause_iff.2 ⟨4, by rw [causes]; exact stands⟩
      rw [State.stillHeld, some_, Bool.true_or, Bool.and_true]
  have released : u.portHeld (u.port n) = false :=
    State.portHeld_free (by rw [own]) (by rw [own]; exact complies) (fun c other => by rw [causes]; exact clear c other)
      (fun stands => by rw [own]; rwa [causes] at stands) (by rw [restart, Bool.false_and])
  have throttledIff (j : Fin 64) : (u.port j).throttled = true ↔ j = n := by
    by_cases same : j = n
    · subst same
      rw [own]
      exact iff_of_true throttled rfl
    · rw [rest j same, others j same]
      exact iff_of_false Bool.false_ne_true same
  rw [State.settle_one throttledIff released holds restart]
  obtain ⟨allSame, ⟨till, freed⟩, kept, ⟨d, sent⟩, recorded⟩ := State.releasePorts_one bare n 1
  rw [freed]
  simp only [own] at sent ⊢
  exact ⟨rfl, rfl, fun j other => (kept j other).trans (rest j other), rfl, allSame.trans all, ⟨d, by rw [sent, tx]; rfl⟩,
    recorded.trans (event.evs_eq _).symm⟩

/-! A cause clears (R272). -/

/-- With the last cause THROTTLE ends on all ports, and every throttled port is released. -/
theorem State.settle_all {s : State} (all : s.tlk.throttleAll = true)
    (clear : ∀ c : Fin 7, s.tlk.causes[c.val] = false)
    (free : ∀ n, (s.port n).thrOperator = false ∧ (s.port n).thrNoncompliant = false) :
    s.settle.tlk.throttleAll = false ∧ s.settle.tlk.causes = s.tlk.causes ∧
    ∀ n, (s.settle.port n).throttled = false ∧ ((s.port n).throttled = true →
      ∃ d, .tlk n.val ((s.port n).releaseSet d 0) ∈ s.settle.tx) := by
  obtain ⟨ended, unheld⟩ := State.unheld_free clear free
  have notHeld (n : Fin 64) : s.portHeld (s.port n) = false :=
    State.portHeld_free (free n).1 (free n).2 (fun c _ => clear c) (fun held => absurd held (by simpa using clear 4))
      (by rw [State.noThrottleCause clear free, Bool.and_false])
  have mem (n : Fin 64) : n ∈ s.toRelease ↔ (s.port n).throttled = true := by
    rw [State.toRelease, State.mem_portsWhere, notHeld, Bool.not_false, Bool.and_true]
  have rest (n : Fin 64) (out : n ∉ s.toRelease) : (s.port n).throttled = false := by
    simpa using mt (mem n).2 out
  by_cases none_ : s.toRelease = []
  · rw [State.settle_eq, none_, unheld]
    have calm (n : Fin 64) := rest n (by simp [none_])
    exact ⟨rfl, rfl, fun n => ⟨calm n, fun throttled => absurd throttled (by simp [calm])⟩⟩
  · have scope : (if s.tlk.throttleAll && !s.stillHeld then 0 else 1) = 0 := if_pos (by rw [all, ended]; rfl)
    rw [State.settle_releases none_, scope, unheld]
    obtain ⟨causes, ceases, released, kept⟩ := State.releasePorts_does
      { s with tlk := { s.tlk with throttleAll := false, thrRestart := false } } (s.portsWhere_nodup _) 0
    refine ⟨ceases, causes, fun n => ?_⟩
    by_cases listed : n ∈ s.toRelease
    · exact ⟨(released n listed).1, fun _ => (released n listed).2⟩
    · exact ⟨(kept n listed).trans (rest n listed), fun throttled => absurd ((mem n).2 throttled) listed⟩

theorem State.clearCause_held {s : State} {c : Fin 7} (held : s.tlk.causes[c.val] = true) :
    s.clearCause c = State.settle { s with tlk := { s.tlk with causes := updV s.tlk.causes c fun _ => false } } :=
  if_pos held

section Cleared

variable {c : Fin 7} {k : Sys2Proof.ClearedCause} {s : State}
  (which : (k = .uvFastpath ∧ c = 0) ∨ (k = .phaseLoss ∧ c = 1) ∨ (k = .rackHold ∧ c = 2 ∧ s.sys.rackHoldSeen = false))
  (late : s.elapsed s.tlk.causeTick[c.val] (ceilDiv s.releaseHold 2) = true)
include which late

/-- A cause on all ports clears, and the groups that raised it forget it; nothing else of the groups' block is read. -/
theorem exec_throttleCauseClear_late :
    ∃ pwm, exec (.throttleCauseClear k) s = .next { s.clearCause c with pwm := pwm } := by
  rcases which with ⟨rfl, rfl⟩ | ⟨rfl, rfl⟩ | ⟨rfl, rfl, high⟩
  · exact ⟨_, congrArg Host.Outcome.next (if_pos late)⟩
  · exact ⟨_, congrArg Host.Outcome.next (if_pos late)⟩
  · refine ⟨(s.clearCause 2).pwm, congrArg Host.Outcome.next (if_neg ?_)⟩
    have late : s.elapsed s.tlk.causeTick[2] (ceilDiv s.releaseHold 2) = true := late
    simp [high, late]

theorem exec_throttleCauseClear_held (held : s.tlk.causes[c.val] = true)
    (stands : ∃ d : Fin 7, d ≠ c ∧ d ≠ 4 ∧ s.tlk.causes[d.val] = true) :
    Gives (.throttleCauseClear k) s fun t =>
      t.tlk = { s.tlk with causes := updV s.tlk.causes c fun _ => false } ∧ t.evr = s.evr ∧ t.tx = s.tx := by
  obtain ⟨d, other, notOperator, stands⟩ := stands
  obtain ⟨pwm, runs⟩ := exec_throttleCauseClear_late which late
  have left : (updV s.tlk.causes c fun _ => false)[d.val] = true :=
    (updV_get _ _ _ _ d.isLt).trans ((if_neg fun same => other (Fin.ext same.symm)).trans stands)
  rw [State.clearCause_held held, State.settle_held (c := d) left notOperator] at runs
  exact ⟨_, runs, rfl, rfl, rfl⟩

theorem exec_throttleCauseClear_last (all : s.tlk.throttleAll = true) (held : s.tlk.causes[c.val] = true)
    (clear : ∀ d : Fin 7, d ≠ c → s.tlk.causes[d.val] = false)
    (free : ∀ n, (s.port n).thrOperator = false ∧ (s.port n).thrNoncompliant = false) :
    Gives (.throttleCauseClear k) s fun t =>
      t.tlk.throttleAll = false ∧ t.tlk.causes[c.val] = false ∧
      ∀ n, (t.port n).throttled = false ∧ ((s.port n).throttled = true →
        ∃ d, .tlk n.val (orderedSet 0x66 (wrapU 16 ((s.port n).tseq + 1)) 0 d 0) ∈ t.tx) := by
  obtain ⟨pwm, runs⟩ := exec_throttleCauseClear_late which late
  refine ⟨_, runs, ?_⟩
  rw [State.clearCause_held held]
  generalize hu : ({ s with tlk := { s.tlk with causes := updV s.tlk.causes c fun _ => false } } : State) = u
  have port (n : Fin 64) : u.port n = s.port n := hu ▸ rfl
  have noCause (d : Fin 7) : u.tlk.causes[d.val] = false := by
    subst hu
    refine (updV_get _ _ _ _ d.isLt).trans ?_
    split
    · rfl
    · next other => exact clear d fun same => other (congrArg Fin.val same.symm)
  obtain ⟨ceases, causes, ports⟩ := State.settle_all (s := u) (hu ▸ all) noCause fun n => by rw [port]; exact free n
  refine ⟨ceases, (congrArg (·[c.val]) causes).trans (noCause c), fun n => ?_⟩
  obtain ⟨released, sends⟩ := ports n
  rw [port] at sends
  exact ⟨released, sends⟩

end Cleared

theorem exec_throttleCauseClear_port {n : Fin 64} {s : State} (own : (s.port n).thrNoncompliant = true)
    (late : s.elapsed (s.port n).badTick (ceilDiv s.releaseHold 2) = true)
    (stands : ∃ d : Fin 7, d ≠ 4 ∧ s.tlk.causes[d.val] = true) :
    exec (.throttleCauseClear (.nonCompliant n)) s =
      .next (s.updPort n fun p => { p with thrNoncompliant := false }) := by
  obtain ⟨d, notOperator, held⟩ := stands
  exact congrArg Host.Outcome.next ((if_pos (by simp [own, late])).trans (State.settle_held (c := d) held notOperator))

/-! RACK_HOLD_N (R275, R435). -/

theorem exec_rackHoldSeen_first {s : State} (high : s.sys.rackHoldSeen = false) :
    exec .rackHoldSeen s = .next (
      let t := ({ s with sys := { s.sys with rackHoldSeen := true } }).ev 0x7022
      if t.inState [.run, .basalt] then t.throttleAllPorts 2 else t) :=
  congrArg Host.Outcome.next (if_neg (by simp [high]))

/-- Before RUN the module only records it. -/
theorem exec_rackHoldSeen_early {s : State} (high : s.sys.rackHoldSeen = false)
    (early : s.inState [.run, .basalt] = false) :
    exec .rackHoldSeen s = .next ({ s with sys := { s.sys with rackHoldSeen := true } }.ev 0x7022) := by
  rw [exec_rackHoldSeen_first high]
  refine congrArg Host.Outcome.next (if_neg ?_)
  rw [State.inState, State.ev_sys]
  exact (Bool.not_eq_true _).mpr early

/-- In RUN and BASALT it raises cause RACK_HOLD. -/
theorem exec_rackHoldSeen_acts {s : State} (high : s.sys.rackHoldSeen = false)
    (acts : s.inState [.run, .basalt] = true) :
    Gives .rackHoldSeen s fun t =>
      t.sys = { s.sys with rackHoldSeen := true } ∧ t.tlk.causes[2] = true ∧ t.tlk.throttleAll = true ∧
      t.evr = s.evs [(0x7022, noInst, 0), (0x7020, noInst, 4)] := by
  refine ⟨_, exec_rackHoldSeen_first high, ?_⟩
  have seen : s.SameEv { s with sys := { s.sys with rackHoldSeen := true } } := ⟨rfl, rfl, rfl, rfl, rfl⟩
  have event := seen.ev 0x7022 noInst 0
  have sys : (({ s with sys := { s.sys with rackHoldSeen := true } } : State).ev 0x7022).sys =
    { s.sys with rackHoldSeen := true } := State.ev_sys ..
  generalize ({ s with sys := { s.sys with rackHoldSeen := true } } : State).ev 0x7022 = t at event sys
  have acts : t.inState [.run, .basalt] = true := by
    rw [State.inState, sys]
    exact acts
  dsimp only
  rw [if_pos acts]
  obtain ⟨cause, all⟩ := t.throttleAllPorts_tlk 2
  have kept := State.throttleAllPorts_kept t 2 (List.Subset.refl _) .rfl
  have same : (t.throttleAllPorts 2).sys = t.sys := kept.only .sys (by decide)
  refine ⟨same.trans sys, cause, all, ?_⟩
  have four : causeBit ((2 : Fin 7).val + 1) = 4 := rfl
  rw [State.throttleAllPorts_evr, four, ← event.evs_eq, State.evs_cons s]

theorem exec_rackHoldCleared_driven {s : State} (driven : s.sys.rackHoldDrive = true) :
    exec .rackHoldCleared s = .next s :=
  congrArg Host.Outcome.next (if_pos driven)

theorem exec_rackHoldCleared_free {s : State} (seen : s.sys.rackHoldSeen = true) (free : s.sys.rackHoldDrive = false) :
    exec .rackHoldCleared s = .next ({ s with sys := { s.sys with rackHoldSeen := false } }.ev 0x7023) :=
  congrArg Host.Outcome.next ((if_neg (by simp [free])).trans (if_pos seen))

theorem exec_shareStale_late {s : State} (run : s.sys.state = .run)
    (late : s.tlk.shareT.all (fun t => decide (t + 3000000 < s.sys.timeNs + 2000)) = true) :
    exec .shareStale s = .next { s with tlk := { s.tlk with shareStale := true } } :=
  congrArg Host.Outcome.next (if_pos (by simp only [run, late, decide_true, Bool.and_self]))

/-- Settles O20: THROTTLE by the fold over the ports, RELEASE by the ports no cause holds, and RACK_HOLD_N by its tests. -/
theorem throttleAndRelease : Obligations.ThrottleAndRelease := by
  refine ⟨fun _ _ => exec_throttleAll_goes, fun _ _ => exec_throttleAll_standing, fun _ _ _ => exec_throttle_goes,
    fun _ _ _ => exec_throttle_restarts, fun _ _ => exec_releaseAll_ends, fun _ _ _ => exec_release_last,
    fun _ _ _ => exec_throttleCauseClear_held, fun _ _ _ => exec_throttleCauseClear_last,
    fun n s own late stands => ⟨_, exec_throttleCauseClear_port own late stands, State.updPort_same .., fun j other =>
      State.updPort_other other _ _, rfl⟩,
    fun _ _ _ => exec_throttle_adds, fun _ _ _ => exec_release_used, fun _ => exec_rackHoldSeen_early,
    fun _ => exec_rackHoldCleared_driven, fun _ => exec_rackHoldSeen_acts, fun s seen free => ⟨_,
      exec_rackHoldCleared_free seen free, State.ev_sys .., State.ev_tlk .., ?high⟩, fun _ => exec_shareStale_late⟩
  case high =>
    have noted : s.SameEv { s with sys := { s.sys with rackHoldSeen := false } } := ⟨rfl, rfl, rfl, rfl, rfl⟩
    exact (noted.ev 0x7023 noInst 0).evr.symm

end Sys2Proof.Machine
end

section
/-! SUPPORT. The schedule table, the barrier of a tray and the roles at T (R254, R258, R266 to R268, R270, R274). -/

namespace Sys2Proof.Machine

/-! The table (R266, R267). -/

theorem State.schedEvict_room {s : State} (room : s.tlk.table.length < tableCap) (port : Nat) : s.schedEvict port = s :=
  if_pos room

/-- Only an entry of the HCP takes the place of a tray's. -/
theorem State.schedReplace_tray {e : Entry} (tray : e.source ≠ 0xFF) (s : State) : s.schedReplace e = s :=
  if_pos (by simp [tray])

theorem Entry.eventPort_tray {e : Entry} (tray : e.source ≠ 0xFF) : e.eventPort = e.source :=
  if_pos (by simp [tray])

/-- An entry enters the table. -/
def State.enter (s : State) (e : Entry) : State := { s with tlk := { s.tlk with table := s.tlk.table ++ [e] } }

/-- An entry in the table is late, or its trays are placed. -/
def State.schedule (s : State) (e : Entry) : State :=
  if e.t < s.sys.timeNs + s.leadNs then s.ev 0x7062 e.eventPort else s.tryPlace e (List.finRange 64)

/-- A placement that stands is not freed by more of them. -/
theorem State.placedAt_isSome_append {s t : State} {new : List Placement} (grows : t.tlk.placed = s.tlk.placed ++ new) {n : Nat}
    (placed : (s.placedAt n).isSome = true) : (t.placedAt n).isSome = true := by
  unfold State.placedAt at placed ⊢
  rw [grows, List.find?_append, Option.isSome_or, placed, Bool.true_or]

section Announced

variable {s : State} {e : Entry} (tray : e.source ≠ 0xFF)
include tray

theorem State.announce_refused {st re : Nat} (fails : s.schedCheck e = some (st, re)) :
    s.announce e = ((st, re), ({ s with tlk := { s.tlk with schedRefused := bump 32 s.tlk.schedRefused } }).ev 0x7060
      e.source (st + 256 * re + 65536 * (e.id % 65536))) := by
  unfold State.announce
  simp only [fails, if_neg tray]

theorem State.announce_full (passes : s.schedCheck e = none) (full : tableCap ≤ (s.schedEvict e.source).tlk.table.length) :
    s.announce e = ((3, 3), ({ s.schedEvict e.source with tlk := { (s.schedEvict e.source).tlk with
      schedRefused := bump 32 (s.schedEvict e.source).tlk.schedRefused } }).ev 0x7060
      e.source (3 + 256 * 3 + 65536 * (e.id % 65536))) := by
  unfold State.announce
  simp only [passes, Entry.eventPort_tray tray, if_pos full, if_neg tray]

end Announced

section Entered

variable {s : State} {e : Entry} (passes : s.schedCheck e = none) (room : s.tlk.table.length < tableCap)
  (apart : s.schedReplace e = s)
include passes room apart

/-- An entry that the table has room for, and that takes no other's place, enters it; the trays that held a barrier and hold
none after that are granted anew. -/
theorem State.announce_enters :
    s.announce e = ((0, 0), (((List.finRange 64).filter fun n => (s.placedAt n.val).isSome).filter fun n =>
      (((s.enter e).schedule e).placedAt n.val).isNone).foldl (fun s n => (s.sendGrant n).tryWaiters n)
        ((s.enter e).schedule e)) := by
  unfold State.announce
  simp only [passes, State.schedEvict_room room, if_neg (Nat.not_le.2 room), apart]
  rfl

/-- Where its scheduling only adds placements, no other tray's grants change. -/
theorem State.announce_taken {new : List Placement}
    (grows : ((s.enter e).schedule e).tlk.placed = s.tlk.placed ++ new) :
    s.announce e = ((0, 0), (s.enter e).schedule e) := by
  have none_ : (((List.finRange 64).filter fun n => (s.placedAt n.val).isSome).filter fun n =>
      (((s.enter e).schedule e).placedAt n.val).isNone) = [] :=
    List.filter_eq_nil_iff.2 fun n mem => by
      rw [Bool.not_eq_true, Option.isNone_eq_false_iff]
      exact State.placedAt_isSome_append grows (List.mem_filter.1 mem).2
  rw [State.announce_enters passes room apart, none_]
  rfl

/-- In ARMED no tray is placed. -/
theorem State.announce_armed (armed : s.sys.state = .armed) :
    s.announce e = ((0, 0),
      if e.t < s.sys.timeNs + s.leadNs then (s.enter e).ev 0x7062 e.eventPort else s.enter e) := by
  have off : (s.enter e).allocOn = false := by
    show (decide (s.sys.state = .run) && !s.sys.orphan) = false
    rw [armed]
    rfl
  have idle : (s.enter e).tryPlace e (List.finRange 64) = s.enter e := if_neg (by simp [off])
  have late : (s.enter e).schedule e =
      if e.t < s.sys.timeNs + s.leadNs then (s.enter e).ev 0x7062 e.eventPort else s.enter e := by
    unfold State.schedule
    rw [idle]
    rfl
  rw [State.announce_taken passes room apart (new := []), late]
  rw [late, List.append_nil]
  split
  · rw [State.ev_tlk]
    rfl
  · rfl

end Entered

/-! One tray is placed (R268 to R270). -/

theorem State.placePass_one {s : State} {n : Fin 64} {rising : Bool} {t id src c grant dp sl : Nat}
    (slope : sl = min (min grant (s.port n).slopeMax) c) (some_ : sl ≠ 0) (cursor : Nat) :
    (s.placePass rising t id src c grant [(n, dp)] cursor).tlk.placed = s.tlk.placed ++
      [{ port := n.val, entryId := id, source := src, t := t
         offset := min (s.findOffset rising (t / 1000) cursor (ceilDiv dp sl) sl c) 65535
         dur := ceilDiv dp sl, slope := sl, rising := rising }] := by
  subst slope
  unfold State.placePass
  simp only [if_neg some_]
  rfl

/-- Grants leave the placements. -/
theorem State.sendGrants_placed (s : State) (l : List (Fin 64)) : (s.sendGrants l).tlk.placed = s.tlk.placed :=
  foldl_same (fun t : State => t.tlk.placed) (fun t n => (t.sendGrant_table n).2) l s

/-- The placements after the trays of an entry are placed: those of one pass over them. -/
theorem State.placeEntry_placed {s : State} {e : Entry} {l trays : List (Fin 64)}
    (ready : (l.filter fun n => tb e.mask n.val && s.placeable n) = trays) (some_ : trays ≠ []) (rises : 0 < e.dp) :
    (s.placeEntry e l).tlk.placed =
      ({ s with tlk := { s.tlk with allocPlaced := 0, allocSpread := 0 } }.placePass true e.t e.id e.source
        (s.allocCap e true) (s.pol16 0x0C 0) (orderByMove (trays.map fun n => (n, e.dp.natAbs))) 0).tlk.placed := by
  have moves : ¬ (trays.isEmpty || decide (e.dp = 0)) = true := by
    simp only [Bool.or_eq_true, List.isEmpty_iff, decide_eq_true_eq, not_or]
    exact ⟨some_, rises.ne'⟩
  unfold State.placeEntry
  simp only [ready, if_neg moves, rises, decide_true, if_true, State.sendGrants_placed]
  rfl

/-- Of the entry of one tray only that tray can be placed. -/
theorem filter_ownTray {e : Entry} {n : Fin 64} (mask : e.mask = 2 ^ n.val) {p : Fin 64 → Bool} (placeable : p n = true) :
    ((List.finRange 64).filter fun m => tb e.mask m.val && p m) = [n] := by
  have bit (m : Fin 64) : tb (2 ^ n.val) m.val = true ↔ m = n := by
    rw [tb, ← Nat.testBit_eq_decide_div_mod_eq, Nat.testBit_two_pow, decide_eq_true_eq, eq_comm, Fin.ext_iff]
  have mem (m : Fin 64) : m ∈ ((List.finRange 64).filter fun m => tb e.mask m.val && p m) ↔ m ∈ [n] := by
    rw [List.mem_filter, List.mem_singleton, Bool.and_eq_true, mask, bit]
    constructor
    · exact fun h => h.2.1
    · rintro rfl
      exact ⟨List.mem_finRange m, rfl, placeable⟩
  exact List.perm_singleton.1 ((List.perm_ext_iff_of_nodup ((List.nodup_finRange 64).filter _)
    (List.nodup_singleton n)).2 mem)

/-- A tray's own entry with its lead left places that tray, at the first offset that has room. -/
theorem State.schedule_own {s : State} {n : Fin 64} {e : Entry} {c sl d : Nat} (mask : e.mask = 2 ^ n.val)
    (on : s.allocOn = true) (lead : s.sys.timeNs + s.leadNs ≤ e.t) (placeable : s.placeable n = true) (rises : 0 < e.dp)
    (cap : c = s.allocCap e true) (slope : sl = min (min (s.pol16 0x0C 0) (s.port n).slopeMax) c) (some_ : sl ≠ 0)
    (step : d = ceilDiv e.dp.natAbs sl) :
    (s.schedule e).tlk.placed = s.tlk.placed ++ [
      { port := n.val, entryId := e.id, source := e.source, t := e.t
        offset := min (s.findOffset true (e.t / 1000) 0 d sl c) 65535, dur := d, slope := sl, rising := true }] := by
  subst step cap
  have tries : s.schedule e = (s.placeEntry e (List.finRange 64)).noteWaiting e (List.finRange 64) :=
    (if_neg (Nat.not_lt.2 lead)).trans (if_pos (by simp [on, lead]))
  rw [tries]
  show (s.placeEntry e (List.finRange 64)).tlk.placed = _
  rw [State.placeEntry_placed (filter_ownTray mask placeable) (List.cons_ne_nil _ _) rises, List.map_singleton,
    orderByMove, List.mergeSort_singleton]
  exact State.placePass_one (s := { s with tlk := { s.tlk with allocPlaced := 0, allocSpread := 0 } }) slope some_ 0

/-! The barrier is over (R270, R274). -/

theorem exec_barrierComplete_none {n : Fin 64} {s : State} (idle : s.placedAt n.val = none) :
    exec (.barrierComplete n) s = .next s := by
  show execBarrierComplete n s = _
  unfold execBarrierComplete
  rw [idle]

theorem exec_barrierComplete_placed {n : Fin 64} {pl : Placement} {s : State} (placed : s.placedAt n.val = some pl) :
    exec (.barrierComplete n) s =
      if (s.port n).throttled || s.sys.timeNs + 2000 ≤ pl.t + 1000 * (pl.offset + pl.dur) + 10000 then .next s
      else .next (((s.unplace n.val).sendGrant n).tryWaiters n) := by
  show execBarrierComplete n s = _
  unfold execBarrierComplete
  rw [placed]

theorem State.unplace_placedAt (s : State) (n : Nat) : (s.unplace n).placedAt n = none := by
  simp only [State.unplace, State.placedAt, List.find?_eq_none, List.mem_filter]
  rintro p ⟨-, kept⟩ own
  simp_all

/-! Roles at T (R254, R266, R293). -/

theorem exec_roleTagApplied_none {id_ : BitVec 32} {src : BitVec 8} {s : State}
    (idle : s.tlk.table.find? (fun x => x.id = id_.toNat && x.source = src.toNat && x.t ≤ s.sys.timeNs && !x.roleApplied) =
      none) : exec (.roleTagApplied id_ src) s = .next s := by
  show execRoleTagApplied id_ src s = _
  unfold execRoleTagApplied
  rw [idle]

theorem exec_roleTagApplied_some {e : Entry} {id_ : BitVec 32} {src : BitVec 8} {s : State}
    (found : s.tlk.table.find? (fun x => x.id = id_.toNat && x.source = src.toNat && x.t ≤ s.sys.timeNs && !x.roleApplied) =
      some e) :
    exec (.roleTagApplied id_ src) s =
      let t := { s with tlk := { s.tlk with table := s.tlk.table.map fun x =>
        if x = e then { x with roleApplied := true } else x } }
      if e.role = 0xFF then .next t else .next (t.setRole ((List.finRange 64).filter fun n => tb e.mask n.val) e.role) := by
  show execRoleTagApplied id_ src s = _
  unfold execRoleTagApplied
  rw [found]

/-- The trays of a list take a role. -/
theorem State.foldl_role_port (l : List (Fin 64)) (r : Nat) (s : State) (n : Fin 64) :
    (l.foldl (fun s n => s.updPort n fun p => { p with role := some r }) s).port n =
      if n ∈ l then { s.port n with role := some r } else s.port n := by
  induction l generalizing s with
  | nil => simp
  | cons m l ih =>
    rw [List.foldl_cons, ih, State.updPort_port]
    by_cases same : m = n
    · subst same
      simp
    · rw [if_neg same]
      exact if_congr (by simp [Ne.symm same]) rfl rfl

theorem State.setRole_role (l : List (Fin 64)) (r : Nat) (s : State) (n : Fin 64) :
    ((s.setRole l r).port n).role = (if n ∈ l then some r else (s.port n).role) := by
  unfold State.setRole
  rw [State.regrant_keeps (π := Port.role) (fun _ _ _ => rfl), State.foldl_role_port]
  split <;> rfl

theorem State.setRole_state (l : List (Fin 64)) (r : Nat) (s : State) (n : Fin 64) :
    ((s.setRole l r).port n).state = (s.port n).state := by
  unfold State.setRole
  rw [State.regrant_keeps (π := Port.state) (fun _ _ _ => rfl), State.foldl_role_port]
  split <;> rfl

/-- A grant that has changed goes out, in the terms that its port has by then. -/
theorem State.regrant_sends {s old : State} {n : Fin 64} (grants : (s.port n).grants = true)
    (changed : (s.grantFor n).terms ≠ (old.grantFor n).terms) :
    ((s.regrant old).port n).sent.map Grant.role = some (s.port n).roleTag := by
  have listed : n ∈ (s.portsWhere Port.grants).filter fun n =>
      !(old.port n).grants || (s.grantFor n).terms != (old.grantFor n).terms :=
    List.mem_filter.2 ⟨State.mem_portsWhere.2 grants, by simp [changed]⟩
  refine foldl_reaches (f := State.sendGrant) (before := fun t => t.port n = s.port n)
    (after := fun t => (t.port n).sent.map Grant.role = some (s.port n).roleTag) (fun t m other same => ?_)
    (fun t same => ?_) (fun t m other sent => ?_) listed ((s.portsWhere_nodup _).filter _) rfl
  · exact (State.sendGrant_other other.symm t).trans same
  · rw [State.sendGrant_same (by rw [same]; exact grants), ← same]
    rfl
  · rwa [State.sendGrant_other other.symm]

theorem State.setRole_sends {l : List (Fin 64)} {r : Nat} {s : State} {n : Fin 64} (grants : (s.port n).grants = true)
    (named : n ∈ l) (changes : (s.port n).roleTag ≠ r) : ((s.setRole l r).port n).sent.map Grant.role = some r := by
  have tagged := State.foldl_role_port l r s n
  rw [if_pos named] at tagged
  unfold State.setRole
  generalize l.foldl _ s = t at tagged
  have tag : (t.port n).roleTag = r := by rw [tagged]; rfl
  rw [State.regrant_sends (by rw [tagged]; exact grants), tag]
  intro same
  exact changes ((congrArg Grant.role same).symm.trans tag)

/-- Settles O19: an announcement by the cases of its check, a barrier by its end, and the roles by the ports they reach. -/
theorem scheduleTable : Obligations.ScheduleTable := by
  refine ⟨fun n a e s linked used up own => ?announces, fun n a s barred => ?idle,
    fun e st re s tray => State.announce_refused tray, fun e u s tray passes evicted full => ?full,
    fun e s tray passes room armed => ?armed, fun n e c sl d s own mask passes room on lead placeable rises cap slope some_ step =>
      ?placed, fun n pl s placed free past => ⟨?ends, s.unplace_placedAt n.val, rfl⟩, fun n s waits => ?waits,
    fun e id_ src s found named => (exec_roleTagApplied_some found).trans (if_neg named),
    fun e id_ src s found none_ => (exec_roleTagApplied_some found).trans (if_pos none_),
    fun _ _ _ => exec_roleTagApplied_none,
    fun l r s n => ⟨s.setRole_role l r n, s.setRole_state l r n, State.setRole_sends⟩⟩
  case announces =>
    subst own
    exact if_neg (by simp [linked, used, up])
  case idle => exact if_pos (by rcases barred with h | h | h <;> simp [h])
  case full =>
    subst evicted
    exact State.announce_full tray passes full
  case armed =>
    rw [State.announce_armed passes room (State.schedReplace_tray tray s) armed, Entry.eventPort_tray tray]
    rfl
  case placed =>
    have tray : e.source ≠ 0xFF := by rw [own]; omega
    have grows := (s.enter e).schedule_own (sl := sl) (d := d) mask on lead placeable rises cap slope some_ step
    rw [State.announce_taken passes room (State.schedReplace_tray tray s) grows]
    exact ⟨rfl, by rw [grows, own]; rfl⟩
  case ends =>
    rw [exec_barrierComplete_placed placed]
    refine if_neg ?_
    rw [free, Bool.false_or, decide_eq_true_eq]
    exact Nat.not_le.2 past
  case waits =>
    cases placed : s.placedAt n.val with
    | none => exact exec_barrierComplete_none placed
    | some pl =>
      rw [exec_barrierComplete_placed placed]
      refine if_pos ?_
      rw [placed] at waits
      simpa using waits

end Sys2Proof.Machine
end

section
/-! SUPPORT. A message at the front of its queue: how it is served, and what leaves with its answer (R371, R375 to R377, R384,
R437). -/

namespace Sys2Proof.Machine

/-! The queue it leaves. -/

/-- A check of the shed tiers changes them in the network block, and no more of it. -/
theorem State.shedCheck_net (s : State) : ∃ shed1 shed2, s.shedCheck.net = { s.net with shed1 := shed1, shed2 := shed2 } := by
  have edge (t : State) (was now : Bool) :
      (if now && !was then t.ev 0xA030 else if was && !now then t.ev 0xA031 else t).net = t.net := by
    split
    · exact State.ev_net ..
    · split
      · exact State.ev_net ..
      · rfl
  unfold State.shedCheck
  dsimp only
  exact ⟨_, _, (edge _ _ _).trans (edge _ _ _)⟩

/-- The state once a message is taken and its queue is as `x` has it. -/
def State.taken (s : State) (q : Fin 16) (x : Queue) : State :=
  (s.updQ q fun _ => { x with servedAt := s.sys.tick }).shedCheck

/-- What an answer is made of, beside its session: no more of the network block is read. -/
structure State.SameNet (s t : State) : Prop where
  sess : t.net.sess = s.net.sess
  tag : t.tag = s.tag

/-- To the sessions of `s` a state answers as `s` does. -/
theorem State.SameNet.answer {s t : State} (same : s.SameNet t) (h : Sys2Proof.MsgHdr) (ty status : Nat)
    (body : List Byte) : t.answer h ty status body = s.answer h ty status body := by
  have sess : t.sess h.sess = s.sess h.sess := congrArg (·[h.sess.val]) same.sess
  simp only [State.answer, State.message, sess, same.tag]

theorem State.SameNet.of_net {s t : State} (same : t.net = s.net) : s.SameNet t :=
  ⟨congrArg Net.sess same, by simp only [State.tag, same]⟩

theorem State.SameNet.trans {s t u : State} (h : s.SameNet t) (k : t.SameNet u) : s.SameNet u :=
  ⟨k.sess.trans h.sess, k.tag.trans h.tag⟩

theorem State.taken_sameNet (s : State) (q : Fin 16) (x : Queue) : s.SameNet (s.taken q x) := by
  obtain ⟨shed1, shed2, net⟩ := (s.updQ q fun _ => { x with servedAt := s.sys.tick }).shedCheck_net
  exact ⟨(congrArg Net.sess net).trans rfl, by rw [State.tag, State.taken, net]; rfl⟩

theorem State.taken_blocks (s : State) (q : Fin 16) (x : Queue) : (s.taken q x).net.blocks = s.net.blocks := by
  obtain ⟨shed1, shed2, net⟩ := (s.updQ q fun _ => { x with servedAt := s.sys.tick }).shedCheck_net
  exact (congrArg Net.blocks net).trans rfl

theorem State.taken_kept (s : State) (q : Fin 16) (x : Queue) : Kept [.net, .evr] s (s.taken q x) :=
  State.shedCheck_kept _ (List.Subset.refl _) (State.updQ_kept s q _ (by decide) .rfl)

/-! How it is served (R375 to R377, R437). -/

section Served

variable {h : Sys2Proof.MsgHdr} {q : Fin 16} {ty : Nat} {role : Role} {body : List Byte} {f : State → State} {s : State}

theorem State.serve_passed (passed : s.qTurn q = false ∨ s.net.q[q.val].serve h ty body = none) :
    s.serve h q ty role body f = s := by
  have none_ : (if s.qTurn q then s.net.q[q.val].serve h ty body else none) = none := by
    rcases passed with waits | behind
    · rw [waits]
      rfl
    · rw [behind, ite_self]
  unfold State.serve
  rw [none_]

theorem State.serve_front {x : Msg × Queue} (turn : s.qTurn q = true)
    (front : s.net.q[q.val].serve h ty body = some x) : s.serve h q ty role body f =
      let t := s.taken q x.2
      if (s.sess h.sess).isOpen = false then t
      else if h.validUntil.toNat ≠ 0 ∧ h.validUntil.toNat < s.sys.timeNs then t.reply h ty stStale
      else if s.sec.recovery = true ∧ ty ≠ 1 ∧ (ty < 0x50 ∨ 0x52 < ty) then t.reply h ty stNotReady
      else if (s.sess h.sess).role.atLeast role = false then t.reply h ty stDenied
      else if bodyFits ty x.1.body = false then t.reply h ty stMalformed
      else f t := by
  obtain ⟨m, x⟩ := x
  have kept := (s.taken_kept q x).only
  have sys : (s.taken q x).sys = s.sys := kept .sys (by decide)
  have sec : (s.taken q x).sec = s.sec := kept .sec (by decide)
  have sess : (s.taken q x).sess h.sess = s.sess h.sess := congrArg (·[h.sess.val]) (s.taken_sameNet q x).sess
  unfold State.taken at sys sec sess ⊢
  unfold State.serve
  rw [if_pos turn, front]
  dsimp only
  refine if_congr ?_ rfl (if_congr ?_ rfl (if_congr ?_ rfl (if_congr ?_ rfl (if_congr ?_ rfl rfl))))
  · rw [sess, Bool.not_eq_true']
  · rw [sys]
    simp
  · rw [sec]
    simp only [Bool.and_eq_true, Bool.not_eq_true', Bool.or_eq_false_iff, decide_eq_false_iff_not, Bool.and_eq_false_iff,
      not_le, ne_eq]
  · rw [sess, Bool.not_eq_true']
  · rw [Bool.not_eq_true']

/-- What it takes for a message to be carried out. -/
structure State.Carries (s : State) (h : Sys2Proof.MsgHdr) (q : Fin 16) (ty : Nat) (role : Role) (body : List Byte)
    (x : Msg × Queue) : Prop where
  turn : s.qTurn q = true
  front : s.net.q[q.val].serve h ty body = some x
  fits : bodyFits ty x.1.body = true
  isOpen : (s.sess h.sess).isOpen = true
  holds : (s.sess h.sess).role.atLeast role = true
  seq : (s.sess h.sess).txSeq + 2 < 2 ^ 63
  valid : h.validUntil.toNat = 0 ∨ s.sys.timeNs ≤ h.validUntil.toNat
  normal : s.sec.recovery = false ∨ ty = 1 ∨ (0x50 ≤ ty ∧ ty ≤ 0x52)

theorem State.carries_of_serves (serves : s.serves h q ty role body = true) : ∃ x, s.Carries h q ty role body x := by
  simp only [State.serves, Bool.and_eq_true, decide_eq_true_eq, Option.any_eq_true] at serves
  obtain ⟨⟨⟨⟨⟨⟨turn, x, front, fits⟩, isOpen⟩, holds⟩, seq⟩, valid⟩, normal⟩ := serves
  exact ⟨x, turn, front, fits, isOpen, holds, seq, valid, normal⟩

/-- A message that is carried out is. -/
theorem State.serve_carries {x : Msg × Queue} (c : s.Carries h q ty role body x) :
    s.serve h q ty role body f = f (s.taken q x.2) := by
  have inTime : ¬ (h.validUntil.toNat ≠ 0 ∧ h.validUntil.toNat < s.sys.timeNs) := by have := c.valid; omega
  have served : ¬ (s.sec.recovery = true ∧ ty ≠ 1 ∧ (ty < 0x50 ∨ 0x52 < ty)) := by
    rintro ⟨recovery, other, out⟩
    rcases c.normal with normal | one | push
    · simp [normal] at recovery
    · exact other one
    · omega
  rw [State.serve_front c.turn c.front]
  simp only [c.isOpen, c.holds, c.fits, Bool.true_eq_false, if_false, if_neg inTime, if_neg served]

theorem State.dequeue_carries {x : Msg × Queue} (c : s.Carries h q ty role body x) :
    s.dequeue h q ty body = s.taken q x.2 := by
  unfold State.dequeue
  rw [c.front]
  rfl

end Served

/-! Its answer (R371, R374, R375). -/

theorem State.reply_open {s : State} {h : Sys2Proof.MsgHdr} (isOpen : (s.sess h.sess).isOpen = true)
    (seq : (s.sess h.sess).txSeq + 2 < 2 ^ 63) (ty status : Nat) (body : List Byte) :
    s.reply h ty status body =
      (s.updSess h.sess fun x => { x with txSeq := x.txSeq + 1 }).send (s.answer h ty status body) :=
  State.sendTo_open isOpen seq ty h.reqId.toNat status flResponse body

/-- A state in which a message that `s` carries out is answered as `s` would. -/
theorem State.Carries.reply {s t : State} {h : Sys2Proof.MsgHdr} {q : Fin 16} {ty : Nat} {role : Role}
    {body : List Byte} {x : Msg × Queue} (c : s.Carries h q ty role body x) (same : s.SameNet t) (ty' status : Nat)
    (answer : List Byte) : t.reply h ty' status answer =
      (t.updSess h.sess fun x => { x with txSeq := x.txSeq + 1 }).send (s.answer h ty' status answer) := by
  have sess : t.sess h.sess = s.sess h.sess := congrArg (·[h.sess.val]) same.sess
  rw [State.reply_open (by rw [sess, c.isOpen]) (by rw [sess]; exact c.seq), same.answer]

/-- The answer leaves, and of the other parts none changes but the network block. -/
theorem State.Carries.replied {s t : State} {h : Sys2Proof.MsgHdr} {q : Fin 16} {ty : Nat} {role : Role}
    {body : List Byte} {x : Msg × Queue} (c : s.Carries h q ty role body x) (same : s.SameNet t) (ty' status : Nat)
    (answer : List Byte) :
    (t.reply h ty' status answer).tx = s.answer h ty' status answer :: t.tx ∧
    (t.reply h ty' status answer).tlk = t.tlk ∧ (t.reply h ty' status answer).sys = t.sys := by
  rw [c.reply same]
  exact ⟨rfl, rfl, rfl⟩

end Sys2Proof.Machine
end

section
/-! SUPPORT. Announcements of the HCP (R267, R379). -/

namespace Sys2Proof.Machine

/-! Entries announced and cancelled one after the other. -/

theorem State.announceAll_length (l : List Sys2Proof.AnnounceEntry) (s : State) :
    (s.announceAll l).1.length = 2 * l.length := by
  induction l generalizing s with
  | nil => rfl
  | cons a l ih =>
    show ((s.announce (hcpEntry a)).2.announceAll l).1.length + 1 + 1 = _
    rw [ih, List.length_cons]
    omega

theorem State.announceAll_one (a : Sys2Proof.AnnounceEntry) (s : State) : s.announceAll [a] =
    ([(s.announce (hcpEntry a)).1.1, (s.announce (hcpEntry a)).1.2], (s.announce (hcpEntry a)).2) := rfl

theorem State.cancelAll_one (i : Nat) (s : State) :
    s.cancelAll [i] = ([(s.cancelEntry i).1.1, (s.cancelEntry i).1.2], (s.cancelEntry i).2) := rfl

/-- A body of none or of more than 64 entries is MALFORMED. -/
theorem State.counted64_iff {α : Type} (l : List α) (s : State) (h : Sys2Proof.MsgHdr) (ty : Nat) (f : State → State) :
    s.counted64 h ty l.length f = if l = [] ∨ 64 < l.length then s.reply h ty stMalformed else f s :=
  if_congr (by simp) rfl rfl

/-! What an entry keeps of its announcement while trays are placed for it. -/

/-- An entry's own: ENTRY_ID, SOURCE and T. -/
def Entry.key (e : Entry) : Nat × Nat × Nat := (e.id, e.source, e.t)

/-- The keys of the table. -/
def State.keys (s : State) : List (Nat × Nat × Nat) := s.tlk.table.map Entry.key

theorem map_key_map {f : Entry → Entry} (keeps : ∀ e, (f e).key = e.key) (l : List Entry) :
    (l.map f).map Entry.key = l.map Entry.key := by
  rw [List.map_map]
  exact List.map_congr_left fun e _ => keeps e

theorem Entry.foldl_noWait_key (l : List (Fin 64)) (e : Entry) : (l.foldl Entry.noWait e).key = e.key :=
  List.foldlRecOn (motive := fun x : Entry => x.key = e.key) _ _ rfl fun _ same _ _ => same

theorem State.noteWaiting_keys (s : State) (e : Entry) (l : List (Fin 64)) : (s.noteWaiting e l).keys = s.keys := by
  refine map_key_map (fun x => ?_) _
  dsimp only
  split
  · exact Entry.foldl_noWait_key _ x
  · rfl

theorem State.noteOffsets_keys (s : State) (e : Entry) : (s.noteOffsets e).keys = s.keys := by
  refine map_key_map (fun x => ?_) _
  split <;> rfl

theorem State.sendGrants_keys (s : State) (l : List (Fin 64)) : (s.sendGrants l).keys = s.keys :=
  congrArg (List.map Entry.key) (foldl_same (fun t : State => t.tlk.table) (fun t n => (t.sendGrant_table n).1) l s)

theorem State.placeEntry_keys (s : State) (e : Entry) (l : List (Fin 64)) : (s.placeEntry e l).keys = s.keys := by
  unfold State.placeEntry
  dsimp only
  split
  · rfl
  · rw [State.sendGrants_keys, State.noteOffsets_keys, State.placePass_eq]
    rfl

theorem State.tryPlace_keys (s : State) (e : Entry) (l : List (Fin 64)) : (s.tryPlace e l).keys = s.keys := by
  unfold State.tryPlace
  split
  · rw [State.noteWaiting_keys, State.placeEntry_keys]
  · rfl

theorem State.tryWaiters_keys (s : State) (n : Fin 64) : (s.tryWaiters n).keys = s.keys := by
  refine foldl_same State.keys (fun t e => ?_) _ s
  have noted : State.keys { t with tlk := { t.tlk with
      table := t.tlk.table.map fun x => if e.sameAs x then x.noWait n else x } } = t.keys :=
    map_key_map (fun x => by split <;> rfl) _
  dsimp only
  split
  · rfl
  · split
    · exact noted
    · split
      · rw [State.tryPlace_keys]
        exact noted
      · exact (congrArg (fun x : Tlk => x.table.map Entry.key) (State.ev_tlk ..)).trans noted

/-! ANNOUNCE_CANCEL of one ID (R379). -/

/-- An HCP entry of an ID. -/
def Entry.ofHcp (e : Entry) (i : Nat) : Bool := e.source = 0xFF && e.id = i

theorem Entry.ofHcp_iff {e : Entry} {i : Nat} : e.ofHcp i = true ↔ e.source = 0xFF ∧ e.id = i := by
  simp [Entry.ofHcp]

/-- The table has an entry of the ID whose T has not come. -/
def State.hcpAhead (s : State) (i : Nat) : Prop := ∃ e ∈ s.tlk.table, e.source = 0xFF ∧ e.id = i ∧ s.sys.timeNs < e.t

/-- The trays that are placed for the ID. -/
def State.hcpTrays (s : State) (i : Nat) : List (Fin 64) :=
  (List.finRange 64).filter fun n => s.tlk.placed.any fun p => (p.entryId = i && p.source = 0xFF) && p.port = n.val

/-- The state without the entries of the ID whose T has not come, and without the placements of the ID. -/
def State.hcpLess (s : State) (i : Nat) : State :=
  { s with tlk := { s.tlk with
      table := s.tlk.table.filter fun e => !(e.ofHcp i && s.sys.timeNs < e.t)
      placed := s.tlk.placed.filter fun p => !(p.entryId = i && p.source = 0xFF) } }

theorem State.cancelEntry_unknown {s : State} {i : Nat} (none_ : ∀ e ∈ s.tlk.table, e.source ≠ 0xFF ∨ e.id ≠ i) :
    s.cancelEntry i = ((3, 4), s) := by
  have unknown : (s.tlk.table.any fun e => e.ofHcp i) = false := by
    rw [List.any_eq_false]
    intro e mem named
    obtain ⟨source, id⟩ := Entry.ofHcp_iff.1 named
    exact (none_ e mem).elim (· source) (· id)
  exact if_pos (by rw [Bool.not_eq_true']; exact unknown)

section Known

variable {s : State} {i : Nat}

theorem State.cancelEntry_known (some_ : ∃ e ∈ s.tlk.table, e.source = 0xFF ∧ e.id = i) :
    s.cancelEntry i =
      if (s.tlk.table.all fun e => !e.ofHcp i || e.t ≤ s.sys.timeNs) = true then ((3, 1), s)
      else ((0, 0), (s.hcpTrays i).foldl (fun s n => s.tryWaiters n) ((s.hcpLess i).sendGrants (s.hcpTrays i))) := by
  obtain ⟨e, mem, named⟩ := some_
  have known : (s.tlk.table.any fun e => e.ofHcp i) = true := List.any_eq_true.2 ⟨e, mem, Entry.ofHcp_iff.2 named⟩
  have found : ¬ (!(s.tlk.table.any fun e => e.ofHcp i)) = true := by
    rw [known]
    exact Bool.false_ne_true
  exact if_neg found

/-- Every entry of the ID has come, or is none of it. -/
theorem State.hcpAllPast_iff :
    (s.tlk.table.all fun e => !e.ofHcp i || e.t ≤ s.sys.timeNs) = true ↔ ¬ s.hcpAhead i := by
  simp only [List.all_eq_true, State.hcpAhead, not_exists, not_and, not_lt]
  refine forall₂_congr fun e _ => ?_
  rw [← and_imp, ← Entry.ofHcp_iff]
  cases e.ofHcp i <;> simp

theorem State.cancelEntry_past (some_ : ∃ e ∈ s.tlk.table, e.source = 0xFF ∧ e.id = i)
    (past : ∀ e ∈ s.tlk.table, e.source = 0xFF → e.id = i → e.t ≤ s.sys.timeNs) : s.cancelEntry i = ((3, 1), s) := by
  rw [State.cancelEntry_known some_, if_pos (State.hcpAllPast_iff.2 ?_)]
  rintro ⟨e, mem, source, id, ahead⟩
  exact absurd (past e mem source id) (not_le.2 ahead)

theorem State.cancelEntry_ahead (ahead : s.hcpAhead i) :
    s.cancelEntry i =
      ((0, 0), (s.hcpTrays i).foldl (fun s n => s.tryWaiters n) ((s.hcpLess i).sendGrants (s.hcpTrays i))) := by
  have known : ∃ e ∈ s.tlk.table, e.source = 0xFF ∧ e.id = i := by
    obtain ⟨e, mem, source, id, -⟩ := ahead
    exact ⟨e, mem, source, id⟩
  rw [State.cancelEntry_known known, if_neg (mt State.hcpAllPast_iff.1 (not_not.2 ahead))]

theorem State.cancelEntry_keys (ahead : s.hcpAhead i) : (s.cancelEntry i).2.keys = (s.hcpLess i).keys := by
  rw [State.cancelEntry_ahead ahead]
  exact (foldl_same State.keys (fun t n => t.tryWaiters_keys n) _ _).trans (State.sendGrants_keys _ _)

/-- The entries of the ID whose T has not come leave the table, and no other does. -/
theorem State.cancelEntry_does (ahead : s.hcpAhead i) :
    (s.cancelEntry i).1 = (0, 0) ∧
    (∀ e ∈ s.tlk.table, (e.source ≠ 0xFF ∨ e.id ≠ i) →
      ∃ x ∈ (s.cancelEntry i).2.tlk.table, x.id = e.id ∧ x.source = e.source ∧ x.t = e.t) ∧
    (∀ x ∈ (s.cancelEntry i).2.tlk.table, x.source = 0xFF → x.id = i → x.t ≤ s.sys.timeNs) := by
  have keys := State.cancelEntry_keys ahead
  refine ⟨by rw [State.cancelEntry_ahead ahead], fun e mem other => ?_, fun x mem source id => ?_⟩
  · have stays : e ∈ (s.hcpLess i).tlk.table := by
      refine List.mem_filter.2 ⟨mem, ?_⟩
      rcases other with other | other
      · simp [Entry.ofHcp, other]
      · simp [Entry.ofHcp, other]
    have key : e.key ∈ (s.cancelEntry i).2.keys := by
      rw [keys]
      exact List.mem_map_of_mem stays
    obtain ⟨x, mem, same⟩ := List.mem_map.1 key
    simp only [Entry.key, Prod.mk.injEq] at same
    exact ⟨x, mem, same⟩
  · have key : x.key ∈ (s.hcpLess i).keys := by
      rw [← keys]
      exact List.mem_map_of_mem mem
    obtain ⟨e, mem, same⟩ := List.mem_map.1 key
    simp only [Entry.key, Prod.mk.injEq] at same
    obtain ⟨sameId, sameSource, sameT⟩ := same
    have past := (List.mem_filter.1 mem).2
    rw [Entry.ofHcp_iff.2 ⟨sameSource.trans source, sameId.trans id⟩, Bool.true_and, Bool.not_eq_true',
      decide_eq_false_iff_not, not_lt, sameT] at past
    exact past

end Known

/-- The only entry of the table is cancelled, with no tray placed. -/
theorem State.cancelEntry_only {s : State} {e : Entry} (only : s.tlk.table = [e]) (source : e.source = 0xFF)
    (ahead : s.sys.timeNs < e.t) (bare : s.tlk.placed = []) :
    s.cancelEntry e.id = ((0, 0), { s with tlk := { s.tlk with table := [], placed := [] } }) := by
  have trays : s.hcpTrays e.id = [] := by simp [State.hcpTrays, bare]
  have less : s.hcpLess e.id = { s with tlk := { s.tlk with table := [], placed := [] } } := by
    simp [State.hcpLess, only, bare, Entry.ofHcp, source, ahead]
  rw [State.cancelEntry_ahead ⟨e, by simp [only], source, rfl, ahead⟩, trays, less]
  rfl

/-! An announcement in ARMED to an empty table (R267, R268). -/

/-- In an empty table an entry takes no other's place. -/
theorem State.schedReplace_empty {s : State} (empty : s.tlk.table = []) (e : Entry) : s.schedReplace e = s := by
  unfold State.schedReplace
  split
  · rfl
  · simp only [empty, List.filter_nil, List.any_nil, Bool.not_false, List.filter_true]
    rw [← empty]

/-- The check of an entry reads SYS, CFG and the tray links. -/
theorem State.schedCheck_of {s t : State} (sys : t.sys = s.sys) (cfg : t.cfg = s.cfg) (tlk : t.tlk = s.tlk) (e : Entry) :
    t.schedCheck e = s.schedCheck e := by
  simp only [State.schedCheck, State.pol16, State.homing, State.tray8, State.trayRec, State.trayRecs, State.recs, sys, cfg,
    tlk]
  rfl

theorem State.announce_alone {s : State} {e : Entry} (passes : s.schedCheck e = none) (empty : s.tlk.table = [])
    (armed : s.sys.state = .armed) :
    (s.announce e).1 = (0, 0) ∧ (s.announce e).2.tlk = { s.tlk with table := [e] } ∧
    (s.announce e).2.net = s.net ∧ (s.announce e).2.tx = s.tx := by
  have room : s.tlk.table.length < tableCap := by simp [empty, tableCap]
  have entered : (s.enter e).tlk = { s.tlk with table := [e] } := by simp [State.enter, empty]
  rw [State.announce_armed passes room (State.schedReplace_empty empty e) armed]
  dsimp only
  split
  · exact ⟨rfl, (State.ev_tlk ..).trans entered, State.ev_net .., State.ev_tx ..⟩
  · exact ⟨rfl, entered, rfl, rfl⟩

end Sys2Proof.Machine
end

section
/-! SUPPORT. The messages of a session, carried out and answered (R267, R374 to R379, R384, R437, R501). -/

namespace Sys2Proof.Machine

/-! KEEPALIVE and CLOSE (R374, R377). -/

theorem exec_keepalive_carried {h : Sys2Proof.MsgHdr} {s : State} (serves : s.serves h 1 0x01 .monitor [] = true) :
    Gives (.keepalive h) s fun t =>
      t.tx = s.answer h 0x01 0 (leBytes 4 s.stateWord ++ leBytes 8 s.sys.timeNs ++ leBytes 8 s.sys.tick) :: s.tx ∧
      t.sess h.sess = { s.sess h.sess with txSeq := (s.sess h.sess).txSeq + 1 } ∧
      t.net.q = (s.dequeue h 1 0x01 []).net.q ∧ t.sys = s.sys := by
  obtain ⟨x, c⟩ := State.carries_of_serves serves
  have kept := (s.taken_kept 1 x.2).only
  have same := s.taken_sameNet 1 x.2
  have sys : (s.taken 1 x.2).sys = s.sys := kept .sys (by decide)
  have tx : (s.taken 1 x.2).tx = s.tx := kept .tx (by decide)
  have word : (s.taken 1 x.2).stateWord = s.stateWord := by simp only [State.stateWord, sys]
  have sess : (s.taken 1 x.2).sess h.sess = s.sess h.sess := congrArg (·[h.sess.val]) same.sess
  refine ⟨_, congrArg Host.Outcome.next (State.serve_carries c), ?_⟩
  rw [c.reply same, State.dequeue_carries c, word, sys]
  refine ⟨congrArg (List.cons _) tx, ?_, rfl, sys⟩
  exact (State.updSess_sess ..).trans ((if_pos rfl).trans (by rw [sess]))

/-- A session closes without a push of its own: it is empty, the others stay, and nothing leaves. -/
theorem State.closeSess_plain {s : State} {n : Fin 64} (isOpen : (s.sess n).isOpen = true) (noPush : s.cfg.push = none) :
    (s.closeSess n).tx = s.tx ∧ ((s.closeSess n).sess n).isOpen = false ∧
    ∀ j, j ≠ n → (s.closeSess n).sess j = s.sess j := by
  have mine : ¬ (s.cfg.push.any fun p => decide (p.sess = n.val)) = true := by simp [noPush]
  have closed (j : Fin 64) : (((s.updSess n fun _ => {}).ev 0xA011 n.val).sess j) = if n = j then {} else s.sess j := by
    rw [State.sess, State.ev_net]
    exact s.updSess_sess n j fun _ => {}
  unfold State.closeSess
  rw [if_neg (by simp [isOpen])]
  dsimp only
  rw [if_neg mine]
  refine ⟨State.ev_tx .., ?_, fun j other => ?_⟩
  · exact congrArg Sess.isOpen ((closed n).trans (if_pos rfl))
  · exact (closed j).trans (if_neg other.symm)

theorem exec_close_carried {h : Sys2Proof.MsgHdr} {s : State} (serves : s.serves h 0 0x03 .monitor [] = true)
    (noPush : s.cfg.push = none) :
    Gives (.close h) s fun t =>
      t.tx = s.answer h 0x03 0 :: s.tx ∧ (t.sess h.sess).isOpen = false ∧ ∀ j, j ≠ h.sess → t.sess j = s.sess j := by
  obtain ⟨x, c⟩ := State.carries_of_serves serves
  have kept := (s.taken_kept 0 x.2).only
  have same := s.taken_sameNet 0 x.2
  have cfg : (s.taken 0 x.2).cfg = s.cfg := kept .cfg (by decide)
  have tx : (s.taken 0 x.2).tx = s.tx := kept .tx (by decide)
  have sess (j : Fin 64) : (s.taken 0 x.2).sess j = s.sess j := congrArg (·[j.val]) same.sess
  refine ⟨_, congrArg Host.Outcome.next (State.serve_carries c), ?_⟩
  rw [c.reply same]
  generalize hu : ((s.taken 0 x.2).updSess h.sess fun x => { x with txSeq := x.txSeq + 1 }).send
    (s.answer h 0x03 stOk []) = u
  have own : (u.sess h.sess).isOpen = true := by
    subst hu
    exact congrArg Sess.isOpen ((State.updSess_sess ..).trans (if_pos rfl)) |>.trans (by rw [sess]; exact c.isOpen)
  have rest (j : Fin 64) (other : j ≠ h.sess) : u.sess j = s.sess j := by
    subst hu
    exact ((State.updSess_sess ..).trans (if_neg other.symm)).trans (sess j)
  have push : u.cfg.push = none := by
    subst hu
    exact (congrArg Cfg.push cfg).trans noPush
  obtain ⟨sent, closed, others⟩ := State.closeSess_plain own push
  refine ⟨sent.trans ?_, closed, fun j other => (others j other).trans (rest j other)⟩
  subst hu
  exact congrArg (List.cons _) tx

/-! ANNOUNCE and ANNOUNCE_CANCEL (R379). -/

theorem exec_announce_one {h : Sys2Proof.MsgHdr} {a : Sys2Proof.AnnounceEntry} {s : State}
    (serves : s.serves h 5 0x20 .operator (announceBody [a]) = true) (armed : s.sys.state = .armed)
    (passes : s.schedCheck (hcpEntry a) = none) (empty : s.tlk.table = []) :
    Gives (.announce h [a]) s fun t =>
      t.tlk.table = [hcpEntry a] ∧ t.tlk.port = s.tlk.port ∧
      t.tx = s.answer h 0x20 0 (leBytes 1 0 ++ leBytes 1 0) :: s.tx := by
  obtain ⟨x, c⟩ := State.carries_of_serves serves
  have kept := (s.taken_kept 5 x.2).only
  have same := s.taken_sameNet 5 x.2
  have sys : (s.taken 5 x.2).sys = s.sys := kept .sys (by decide)
  have cfg : (s.taken 5 x.2).cfg = s.cfg := kept .cfg (by decide)
  have tlk : (s.taken 5 x.2).tlk = s.tlk := kept .tlk (by decide)
  have tx : (s.taken 5 x.2).tx = s.tx := kept .tx (by decide)
  obtain ⟨status, table, net, sent⟩ := State.announce_alone
    ((State.schedCheck_of sys cfg tlk (hcpEntry a)).trans passes) (by rw [tlk, empty]) (by rw [sys, armed])
  have answered : (let r := (s.taken 5 x.2).announceAll [a]
      r.2.reply h 0x20 stOk (r.1.flatMap (leBytes 1))) =
      ((s.taken 5 x.2).announce (hcpEntry a)).2.reply h 0x20 0 (leBytes 1 0 ++ leBytes 1 0) := by
    rw [State.announceAll_one, status]
    rfl
  refine ⟨_, congrArg Host.Outcome.next ((State.serve_carries c).trans answered), ?_⟩
  obtain ⟨leaves, keeps, -⟩ := c.replied (same.trans (.of_net net)) 0x20 0 (leBytes 1 0 ++ leBytes 1 0)
  rw [keeps, table, leaves, sent, tlk, tx]
  exact ⟨rfl, rfl, rfl⟩

theorem exec_announceCancel_one {h : Sys2Proof.MsgHdr} {i : BitVec 32} {e : Entry} {s : State}
    (serves : s.serves h 5 0x21 .operator (leBytes 2 1 ++ leBytes 4 i.toNat) = true) (only : s.tlk.table = [e])
    (source : e.source = 0xFF) (id : e.id = i.toNat) (ahead : s.sys.timeNs < e.t) (bare : s.tlk.placed = []) :
    Gives (.announceCancel h [i]) s fun t =>
      t.tlk.table = [] ∧ t.tlk.port = s.tlk.port ∧ t.tx = s.answer h 0x21 0 (leBytes 1 0 ++ leBytes 1 0) :: s.tx := by
  obtain ⟨x, c⟩ := State.carries_of_serves serves
  have kept := (s.taken_kept 5 x.2).only
  have same := s.taken_sameNet 5 x.2
  have sys : (s.taken 5 x.2).sys = s.sys := kept .sys (by decide)
  have tlk : (s.taken 5 x.2).tlk = s.tlk := kept .tlk (by decide)
  have tx : (s.taken 5 x.2).tx = s.tx := kept .tx (by decide)
  have cancelled := State.cancelEntry_only (s := s.taken 5 x.2) (by rw [tlk, only]) source (by rw [sys]; exact ahead)
    (by rw [tlk, bare])
  rw [id] at cancelled
  have answered : (let r := (s.taken 5 x.2).cancelAll [i.toNat]
      r.2.reply h 0x21 stOk (r.1.flatMap (leBytes 1))) =
      ((s.taken 5 x.2).cancelEntry i.toNat).2.reply h 0x21 0 (leBytes 1 0 ++ leBytes 1 0) := by
    rw [State.cancelAll_one, cancelled]
    rfl
  refine ⟨_, congrArg Host.Outcome.next ((State.serve_carries c).trans answered), ?_⟩
  have gone : ((s.taken 5 x.2).cancelEntry i.toNat).2.tlk = { s.tlk with table := [], placed := [] } := by
    rw [cancelled, ← tlk]
  have net : ((s.taken 5 x.2).cancelEntry i.toNat).2.net = (s.taken 5 x.2).net := by rw [cancelled]
  have sent : ((s.taken 5 x.2).cancelEntry i.toNat).2.tx = s.tx := by rw [cancelled, ← tx]
  obtain ⟨leaves, keeps, -⟩ := c.replied (same.trans (.of_net net)) 0x21 0 (leBytes 1 0 ++ leBytes 1 0)
  dsimp only
  rw [keeps, gone, leaves, sent]
  exact ⟨rfl, rfl, rfl⟩

/-! Register messages (R378, R501). -/

/-- A read of a register touches the latches of SYS, and counts no violation itself (R502). -/
theorem State.regRead_does (s : State) (req a : Nat) :
    (s.regRead req a).2.sys.violCount = s.sys.violCount ∧ (s.regRead req a).2.net = s.net ∧
    (s.regRead req a).2.tx = s.tx := by
  unfold State.regRead
  split
  · exact ⟨rfl, rfl, rfl⟩
  · split
    · exact ⟨rfl, rfl, rfl⟩
    · split <;> exact ⟨rfl, rfl, rfl⟩

/-- The places of the addresses of a message in address order, each with its address. -/
def readOrder (addrs : List (BitVec 32)) : List (Nat × Nat) :=
  ((addrs.map BitVec.toNat).zipIdx.map fun x => (x.2, x.1)).insertionSort fun x y => x.2 ≤ y.2

/-- What REG_READ does where it is carried out. -/
def State.readRegs (s : State) (h : Sys2Proof.MsgHdr) (addrs : List (BitVec 32)) : State :=
  let r := s.regReads h.sess.val ((readOrder addrs).map (·.2))
  if addrs = [] ∨ 64 < addrs.length ∨ addrs.any (fun a => !addrOk a.toNat) = true then s.reply h 0x10 6
  else (r.2.2.violations r.2.1).reply h 0x10 0 ((List.range addrs.length).flatMap fun i =>
    leBytes 4 (((((readOrder addrs).map (·.1)).zip r.1).find? fun x => x.1 = i).elim 0 (·.2)))

/-- A body of none or of too many, or with a part that does not pass. -/
theorem malformed_iff {α β : Type} (l : List α) (f : α → β) (most : Nat) (ok : β → Bool) :
    ((l.map f).isEmpty || decide (most < (l.map f).length) || !(l.map f).all ok) = true ↔
    l = [] ∨ most < l.length ∨ l.any (fun a => !ok (f a)) = true := by
  rw [List.all_map, List.not_all_eq_any_not]
  simp [or_assoc]

theorem exec_regRead_eq (h : Sys2Proof.MsgHdr) (addrs : List (BitVec 32)) (s : State) :
    exec (.regRead h addrs) s = .next (s.serve h 4 0x10 .monitor
      (leBytes 2 addrs.length ++ leBytes 2 0 ++ addrs.flatMap fun a => leBytes 4 a.toNat) fun s => s.readRegs h addrs) := by
  refine State.serve_congr (fun t => ?_) _ _ _ _ _ _
  refine if_congr (malformed_iff addrs BitVec.toNat 64 addrOk) rfl ?_
  rw [List.length_map]
  rfl

/-- A message of one address: its value, and a violation where it may not be read. -/
theorem State.readRegs_one {s : State} (h : Sys2Proof.MsgHdr) {a : BitVec 32} (ok : addrOk a.toNat = true) :
    s.readRegs h [a] = ((s.regRead h.sess.val a.toNat).2.violations
      (if (s.regRead h.sess.val a.toNat).1.isNone = true then 1 else 0)).reply h 0x10 0
        (leBytes 4 ((s.regRead h.sess.val a.toNat).1.getD 0)) := by
  have order : readOrder [a] = [(0, a.toNat)] := rfl
  have fits : ¬ ([a] = [] ∨ 64 < [a].length ∨ [a].any (fun a => !addrOk a.toNat) = true) := by simp [ok]
  unfold State.readRegs
  rw [order, if_neg fits]
  simp [State.regReads]

theorem exec_regRead_one {h : Sys2Proof.MsgHdr} {a : BitVec 32} {s : State}
    (serves : s.serves h 4 0x10 .monitor (leBytes 2 1 ++ leBytes 2 0 ++ leBytes 4 a.toNat) = true)
    (ok : addrOk a.toNat = true) :
    Gives (.regRead h [a]) s fun t =>
      let x := (s.dequeue h 4 0x10 (leBytes 2 1 ++ leBytes 2 0 ++ leBytes 4 a.toNat)).regRead h.sess.val a.toNat
      t.tx = s.answer h 0x10 0 (leBytes 4 (x.1.getD 0)) :: s.tx ∧
      t.sys.violCount = (if x.1.isNone = true then bump 32 s.sys.violCount else s.sys.violCount) := by
  obtain ⟨x, c⟩ := State.carries_of_serves serves
  have sys : (s.taken 4 x.2).sys = s.sys := (s.taken_kept 4 x.2).only .sys (by decide)
  have tx : (s.taken 4 x.2).tx = s.tx := (s.taken_kept 4 x.2).only .tx (by decide)
  obtain ⟨viol, net, sent⟩ := (s.taken 4 x.2).regRead_does h.sess.val a.toNat
  have same := (s.taken_sameNet 4 x.2).trans (.of_net net)
  refine ⟨_, (exec_regRead_eq h [a] s).trans (congrArg Host.Outcome.next ((State.serve_carries c).trans
    (State.readRegs_one h ok))), ?_⟩
  rw [State.dequeue_carries c]
  generalize (s.taken 4 x.2).regRead h.sess.val a.toNat = r at viol net sent same ⊢
  dsimp only
  split
  · next barred =>
    have counted : s.SameNet (r.2.violations 1) := ⟨same.sess, same.tag⟩
    obtain ⟨leaves, -, keeps⟩ := c.replied counted 0x10 0 (leBytes 4 (r.1.getD 0))
    rw [leaves, keeps, ← tx, ← sent, ← sys, ← viol]
    exact ⟨rfl, rfl⟩
  · next free =>
    obtain ⟨leaves, -, keeps⟩ := c.replied (t := r.2.violations 0) same 0x10 0 (leBytes 4 (r.1.getD 0))
    rw [leaves, keeps, ← tx, ← sent, ← sys, ← viol]
    exact ⟨rfl, rfl⟩

/-- A block read that is refused has a number of words that does not fit, or does not lie in the map. -/
theorem blockRefused_iff (a n : Nat) :
    (n = 0 || 2048 < n || !addrOk a || 2 ^ 24 < a + 4 * n) = true ↔
    ¬ (0 < n ∧ n ≤ 2048 ∧ addrOk a = true ∧ a + 4 * n ≤ 2 ^ 24) := by
  cases addrOk a
  · simp
  · simp only [Bool.or_eq_true, decide_eq_true_eq, Bool.not_true, Bool.false_eq_true, or_false, true_and]
    omega

theorem exec_regReadBlock_eq (h : Sys2Proof.MsgHdr) (a : BitVec 32) (n : BitVec 16) (s : State) :
    exec (.regReadBlock h a n) s = .next (s.serve h 13 0x12 .monitor (leBytes 4 a.toNat ++ leBytes 2 n.toNat) fun s =>
      if 0 < n.toNat ∧ n.toNat ≤ 2048 ∧ addrOk a.toNat = true ∧ a.toNat + 4 * n.toNat ≤ 2 ^ 24 then
        { s with net := { s.net with blocks := s.net.blocks ++
          [{ sess := h.sess.val, reqId := h.reqId.toNat, addr := a.toNat, left := n.toNat, values := [] }] } }
      else s.reply h 0x12 6) :=
  State.serve_congr (fun _ => (if_congr (blockRefused_iff a.toNat n.toNat) rfl rfl).trans (ite_not _ _ _)) _ _ _ _ _ _

theorem exec_regReadBlock_carried {h : Sys2Proof.MsgHdr} {a : BitVec 32} {n : BitVec 16} {s : State}
    (serves : s.serves h 13 0x12 .monitor (leBytes 4 a.toNat ++ leBytes 2 n.toNat) = true) (some_ : 0 < n.toNat)
    (few : n.toNat ≤ 2048) (ok : addrOk a.toNat = true) (fits : a.toNat + 4 * n.toNat ≤ 2 ^ 24) :
    Gives (.regReadBlock h a n) s fun t =>
      t.net.blocks = s.net.blocks ++
        [{ sess := h.sess.val, reqId := h.reqId.toNat, addr := a.toNat, left := n.toNat, values := [] }] ∧ t.tx = s.tx := by
  obtain ⟨x, c⟩ := State.carries_of_serves serves
  have tx : (s.taken 13 x.2).tx = s.tx := (s.taken_kept 13 x.2).only .tx (by decide)
  have blocks := s.taken_blocks 13 x.2
  exact ⟨_, (exec_regReadBlock_eq h a n s).trans (congrArg Host.Outcome.next ((State.serve_carries c).trans
    (if_pos ⟨some_, few, ok, fits⟩))), congrArg (· ++ _) blocks, tx⟩

/-- Settles O30: the way of a message by the cases of its serving, and each message by what it does and answers. -/
theorem messagesAreServed : Obligations.MessagesAreServed := by
  refine ⟨fun h q ty role body f s => ⟨State.serve_passed, fun x => State.serve_front⟩,
    fun h ty status body s isOpen seq => State.reply_open isOpen seq ty status body, fun h s => ⟨rfl, rfl⟩,
    fun h s => exec_keepalive_carried, fun h s => exec_close_carried, fun h l ids s => ⟨?announce, ?cancel⟩,
    fun a l s => ⟨rfl, rfl, rfl, s.announceAll_length l⟩, fun i l s => ⟨rfl, rfl, rfl⟩,
    fun i s => ⟨State.cancelEntry_unknown, State.cancelEntry_past, State.cancelEntry_does⟩, fun h a s => exec_announce_one,
    fun h i e s => exec_announceCancel_one, fun h addrs s => ?regRead, fun h a s => exec_regRead_one,
    fun req a l s => rfl, fun h pairs s => ?regWrite, fun h a n s => ?regReadBlock,
    fun h a n s => exec_regReadBlock_carried⟩
  case announce => exact State.serve_congr (fun t => t.counted64_iff l h 0x20 _) _ _ _ _ _ _
  case cancel => exact State.serve_congr (fun t => t.counted64_iff ids h 0x21 _) _ _ _ _ _ _
  case regRead => exact exec_regRead_eq h addrs s
  case regWrite =>
    refine State.serve_congr (fun t => ?_) _ _ _ _ _ _
    exact if_congr (malformed_iff pairs (fun p => (p.1.toNat, p.2.toNat)) 32 fun p => addrOk p.1) rfl rfl
  case regReadBlock => exact exec_regReadBlock_eq h a n s

end Sys2Proof.Machine
end

section
/-! SUPPORT. Rings, nodes and cells of the chains under an update, what a train and an event leave of them, and what the
records say of them (R297, R300, R301, R473). -/

namespace Sys2Proof.Machine

/-! A ring that is updated, and the others. -/

theorem State.updRing_same (s : State) (c : Fin 4) (f : Ring → Ring) : (s.updRing c f).ring c = f (s.ring c) :=
  (s.updRing_ring c c f).trans (if_pos rfl)

theorem State.updRing_other {c j : Fin 4} (other : j ≠ c) (s : State) (f : Ring → Ring) :
    (s.updRing c f).ring j = s.ring j :=
  (s.updRing_ring c j f).trans (if_neg other.symm)

theorem State.updNode_other {c j : Fin 4} (other : j ≠ c) (s : State) (n : Nat) (f : Node → Node) :
    (s.updNode c n f).ring j = s.ring j := State.updRing_other other s _

theorem State.updCell_other {c j : Fin 4} (other : j ≠ c) (s : State) (k : Nat) (f : Cell → Cell) :
    (s.updCell c k f).ring j = s.ring j := State.updRing_other other s _

/-- What a change of one ring leaves of it is left of every ring. -/
theorem State.updRing_keeps {α : Type} {π : Ring → α} {f : Ring → Ring} (keeps : ∀ r, π (f r) = π r) (s : State)
    (c j : Fin 4) : π ((s.updRing c f).ring j) = π (s.ring j) := by
  rw [State.updRing_ring]
  split
  · exact keeps _
  · rfl

theorem State.updNode_keeps {α : Type} {π : Ring → α} (keeps : ∀ r nodes, π { r with node := nodes } = π r) (s : State)
    (c : Fin 4) (n : Nat) (f : Node → Node) (j : Fin 4) : π ((s.updNode c n f).ring j) = π (s.ring j) :=
  State.updRing_keeps (fun r => keeps r _) s c j

theorem State.updCell_keeps {α : Type} {π : Ring → α} (keeps : ∀ r cells, π { r with cell := cells } = π r) (s : State)
    (c : Fin 4) (k : Nat) (f : Cell → Cell) (j : Fin 4) : π ((s.updCell c k f).ring j) = π (s.ring j) :=
  State.updRing_keeps (fun r => keeps r _) s c j

/-- Two changes of a ring that agree on the ring as it is. -/
theorem State.updRing_congr {s : State} {c : Fin 4} {f g : Ring → Ring} (agree : f (s.ring c) = g (s.ring c)) :
    s.updRing c f = s.updRing c g := by
  have rings : updV s.chn.ring c f = updV s.chn.ring c g := updV_congr agree
  rw [State.updRing, rings, State.updRing]

/-! What leaves the chains alone. -/

theorem State.ring_of_chn {s t : State} (same : t.chn = s.chn) (c : Fin 4) : t.ring c = s.ring c :=
  congrArg (fun x : Chn => x.ring[c.val]) same

@[simp] theorem State.ev_ring (s : State) (code inst data : Nat) (c : Fin 4) : (s.ev code inst data).ring c = s.ring c :=
  State.ring_of_chn (s.ev_chn code inst data) c
@[simp] theorem State.send_ring (s : State) (o : Output) (c : Fin 4) : (s.send o).ring c = s.ring c := rfl
@[simp] theorem State.degrade_ring (s : State) (c : Fin 4) : s.degrade.ring c = s.ring c := rfl
theorem State.degrade_passage (s : State) : s.degrade.sys.passage = s.sys.passage := rfl
theorem State.degrade_degraded (s : State) : s.degrade.sys.degraded = true := rfl
@[simp] theorem State.train_ring (s : State) (i : Fin 4) (cmd port addr : Nat) (args : List Byte) (c : Fin 4) :
    (s.train i cmd port addr args).ring c = s.ring c := rfl

theorem State.broadcast_chn (s : State) (c : Fin 4) (cmd : Nat) (args : List Byte) : (s.broadcast c cmd args).chn = s.chn :=
  (State.broadcast_kept s c cmd args (List.Subset.refl _) .rfl).only .chn (by decide)

theorem State.broadcast_evr (s : State) (c : Fin 4) (cmd : Nat) (args : List Byte) : (s.broadcast c cmd args).evr = s.evr :=
  (State.broadcast_kept s c cmd args (List.Subset.refl _) .rfl).only .evr (by decide)

/-- Where one port reads the ring, a broadcast leaves port A alone. -/
theorem State.broadcast_oneSided {s : State} {c : Fin 4} (oneSided : (s.ring c).twoSided = false) (cmd : Nat)
    (args : List Byte) : s.broadcast c cmd args = s.train c cmd 0 0 args :=
  if_neg (by simp [oneSided])

/-! The recorder reads neither the chains nor what is sent (R473). -/

theorem State.SameEv.updRing {s t : State} (h : s.SameEv t) (c : Fin 4) (f : Ring → Ring) : s.SameEv (t.updRing c f) :=
  h.trans ⟨rfl, rfl, rfl, rfl, rfl⟩
theorem State.SameEv.train {s t : State} (h : s.SameEv t) (c : Fin 4) (cmd port addr : Nat) (args : List Byte) :
    s.SameEv (t.train c cmd port addr args) :=
  h.trans ⟨rfl, rfl, rfl, rfl, rfl⟩

/-! One node and one cell. -/

/-- Node N01 stands first. -/
theorem Ring.nodeAt_succ (r : Ring) (n : Fin 16) : r.nodeAt (n.val + 1) = r.node[n.val] := by
  rw [Ring.nodeAt, if_neg (Nat.succ_ne_zero _), Nat.add_sub_cancel, Vector.getElem?_eq_getElem n.isLt, Option.getD_some]

theorem State.updNode_nodeAt_other {m n : Nat} (other : m ≠ n) (s : State) (c : Fin 4) (f : Node → Node) :
    ((s.updNode c n f).ring c).nodeAt m = (s.ring c).nodeAt m := by
  rw [State.updNode, State.updRing_same, Ring.nodeAt, Ring.nodeAt]
  split
  · rfl
  · split
    · rfl
    · rw [updN_getElem?, if_neg (by omega)]

theorem State.updNode_nodeAt_same (s : State) (c : Fin 4) (n : Fin 16) (f : Node → Node) :
    ((s.updNode c (n.val + 1) f).ring c).nodeAt (n.val + 1) = f ((s.ring c).nodeAt (n.val + 1)) := by
  rw [State.updNode, State.updRing_same, Ring.nodeAt, Ring.nodeAt, if_neg (Nat.succ_ne_zero _),
    if_neg (Nat.succ_ne_zero _), if_neg (Nat.succ_ne_zero _), Nat.add_sub_cancel, updN_getElem?, if_pos rfl,
    Vector.getElem?_eq_getElem n.isLt]
  rfl

/-- What a change of one node leaves of it is left of every node of every ring. -/
theorem State.updNode_nodeAt_keeps {α : Type} {π : Node → α} {f : Node → Node} (keeps : ∀ x, π (f x) = π x) (s : State)
    (c : Fin 4) (n : Nat) (j : Fin 4) (m : Nat) :
    π (((s.updNode c n f).ring j).nodeAt m) = π ((s.ring j).nodeAt m) := by
  by_cases own : j = c
  · subst own
    rw [State.updNode, State.updRing_same, Ring.nodeAt, Ring.nodeAt]
    split
    · rfl
    · split
      · rfl
      · rw [updN_getElem?]
        split
        · cases (s.ring j).node[m - 1]? with
          | none => rfl
          | some x => exact keeps x
        · rfl
  · rw [State.updNode_other own]

theorem State.updCell_nodeAt (s : State) (c : Fin 4) (k : Nat) (f : Cell → Cell) (j : Fin 4) (m : Nat) :
    ((s.updCell c k f).ring j).nodeAt m = (s.ring j).nodeAt m :=
  State.updCell_keeps (π := fun r => r.nodeAt m) (fun _ _ => rfl) s c k f j

theorem State.updNode_cellAt (s : State) (c : Fin 4) (n : Nat) (f : Node → Node) (j : Fin 4) (k : Nat) :
    ((s.updNode c n f).ring j).cellAt k = (s.ring j).cellAt k :=
  State.updNode_keeps (π := fun r => r.cellAt k) (fun _ _ => rfl) s c n f j

theorem State.updCell_cellAt_other {j k : Nat} (other : j ≠ k) (s : State) (c : Fin 4) (f : Cell → Cell) :
    ((s.updCell c k f).ring c).cellAt j = (s.ring c).cellAt j := by
  rw [State.updCell, State.updRing_same, Ring.cellAt, Ring.cellAt]
  split
  · rfl
  · split
    · rfl
    · rw [updN_getElem?, if_neg (by omega)]

theorem State.updCell_cellAt_same {k : Nat} (first : 1 ≤ k) (last : k ≤ 288) (s : State) (c : Fin 4) (f : Cell → Cell) :
    ((s.updCell c k f).ring c).cellAt k = f ((s.ring c).cellAt k) := by
  have inside : k - 1 < 288 := by omega
  have given : k ≠ 0 := by omega
  rw [State.updCell, State.updRing_same, Ring.cellAt, Ring.cellAt, if_neg given, if_neg given, if_neg given,
    updN_getElem?, if_pos rfl, Vector.getElem?_eq_getElem inside]
  rfl

/-! Several cells, one after the other. -/

section Cells
variable {c : Fin 4} {g : State → Nat × Nat → Cell → Cell} (l : List (Nat × Nat)) (s : State)

theorem State.foldl_updCell_keeps {α : Type} {π : Ring → α} (keeps : ∀ r cells, π { r with cell := cells } = π r)
    (j : Fin 4) : π ((l.foldl (fun t x => t.updCell c x.2 (g t x)) s).ring j) = π (s.ring j) :=
  foldl_same (fun t => π (t.ring j)) (fun t _ => State.updCell_keeps keeps t c _ _ j) l s

theorem State.foldl_updCell_nodeAt (j : Fin 4) (m : Nat) :
    ((l.foldl (fun t x => t.updCell c x.2 (g t x)) s).ring j).nodeAt m = (s.ring j).nodeAt m :=
  State.foldl_updCell_keeps l s (π := fun r => r.nodeAt m) (fun _ _ => rfl) j

theorem State.foldl_updCell_other {j : Fin 4} (other : j ≠ c) :
    (l.foldl (fun t x => t.updCell c x.2 (g t x)) s).ring j = s.ring j :=
  foldl_same (fun t => t.ring j) (fun t _ => State.updCell_other other t _ _) l s

theorem State.foldl_updCell_sys : (l.foldl (fun t x => t.updCell c x.2 (g t x)) s).sys = s.sys :=
  foldl_same State.sys (fun t _ => State.updCell_sys t c _ _) l s

end Cells

/-! What the configuration says of a ring. -/

theorem State.ringNodes_of_cfg {s t : State} (same : t.cfg = s.cfg) (c : Fin 4) : t.ringNodes c = s.ringNodes c := by
  simp only [State.ringNodes, State.ringVal, State.ringRec, State.rec8, State.recs, same]

theorem State.nodeList_of_cfg {s t : State} (same : t.cfg = s.cfg) (c : Fin 4) : t.nodeList c = s.nodeList c := by
  rw [State.nodeList, State.nodeList, State.ringNodes_of_cfg same]

theorem State.cellsOf_of_cfg {s t : State} (same : t.cfg = s.cfg) (c : Fin 4) (n : Nat) : t.cellsOf c n = s.cellsOf c n := by
  simp only [State.cellsOf, State.nodeRec, State.recs, same]

theorem State.ctrNode_of_cfg {s t : State} (same : t.cfg = s.cfg) (c : Fin 4) : t.ctrNode c = s.ctrNode c := by
  simp only [State.ctrNode, State.recs, same]

theorem State.mem_nodeList {s : State} {c : Fin 4} {n : Nat} : n ∈ s.nodeList c ↔ 1 ≤ n ∧ n ≤ s.ringNodes c := by
  simp only [State.nodeList, List.mem_map, List.mem_range]
  exact ⟨by rintro ⟨m, inside, rfl⟩; omega, fun ⟨first, last⟩ => ⟨n - 1, by omega, by omega⟩⟩

/-- The port that reaches a node follows the break alone. -/
theorem State.portTo_of_brk {s t : State} {c : Fin 4} (same : (t.ring c).brk = (s.ring c).brk) (n : Nat) :
    t.portTo c n = s.portTo c n := by
  rw [State.portTo, State.portTo, same]

/-! Passages to ARMED (R305, R450). -/

/-- Without a passage to ARMED there is none to abandon. -/
theorem State.armCheck_idle {s : State} (idle : s.sys.passage ≠ .toArmed) : s.armCheck = s :=
  if_neg (by simp [idle])

end Sys2Proof.Machine
end

section
/-! SUPPORT. The count of a ring's nodes and its check against the RING record (R302, R303, R315, R325). -/

namespace Sys2Proof.Machine

/-! The trains of the count (R298, R302). -/

section Count
variable {c : Fin 4} {s : State}

theorem exec_ringBringUp_off (off : (s.ring c).state = .off) (lit : s.lit = true) (runs : s.clk.fabricStopped = false) :
    exec (.ringBringUp c) s = .next ((s.updRing c fun r => { r.uncount with state := .waking }).send (.tone c.val)) :=
  congrArg Host.Outcome.next (if_pos (by simp [off, lit, runs]))

theorem exec_ringBringUp_idle (idle : (s.ring c).state ≠ .off ∨ s.lit = false ∨ s.clk.fabricStopped = true) :
    exec (.ringBringUp c) s = .next s := by
  refine congrArg Host.Outcome.next (if_neg ?_)
  rcases idle with on | dark | stopped
  · simp [on]
  · simp [dark]
  · simp [stopped]

theorem exec_resetAddr_waking (waking : (s.ring c).state = .waking) :
    exec (.resetAddr c) s = .next ((s.updRing c fun r => { r.uncount with
      state := .enumerating
      node := r.node.map fun x => { x with present := false, configured := false, diagDone := false
                                           cfgDelays := none, delayA := none, delayB := none } }).train2 c 0x01 0 []) :=
  congrArg Host.Outcome.next (if_pos waking)

theorem exec_resetAddr_idle (awake : (s.ring c).state ≠ .waking) : exec (.resetAddr c) s = .next s :=
  congrArg Host.Outcome.next (if_neg awake)

theorem exec_enum_fromA {count : Nat} {passed : Bool} (enumerating : (s.ring c).state = .enumerating) :
    exec (.enum c false count passed) s = .next ((s.updRing c fun r => { r with
      nA := count, enumPassed := passed, enumA := true }).train c 0x02 0 0xFE (stepArgs 0 true)) :=
  congrArg Host.Outcome.next (if_pos (by simp [enumerating]))

theorem exec_enum_fromB {count : Nat} {passed : Bool} (enumerating : (s.ring c).state = .enumerating)
    (asked : (s.ring c).enumA = true) (stuck : (s.ring c).enumPassed = false) :
    exec (.enum c true count passed) s = .next ((s.updRing c fun r => { r with nB := count, enumB := true }).train c 0x02 1 0xFE
      (stepArgs (s.ring c).baseB false)) :=
  congrArg Host.Outcome.next ((if_neg (by simp)).trans (if_pos (by simp [enumerating, asked, stuck])))

theorem exec_enum_idle {fromB : Bool} {count : Nat} {passed : Bool} (idle : (s.ring c).state ≠ .enumerating ∨
    (fromB = true ∧ ((s.ring c).enumA = false ∨ (s.ring c).enumPassed = true))) :
    exec (.enum c fromB count passed) s = .next s := by
  refine congrArg Host.Outcome.next ((if_neg ?_).trans (if_neg ?_))
  · rcases idle with other | ⟨fromB, -⟩
    · simp [other]
    · simp [fromB]
  · rcases idle with other | ⟨-, unasked | passed⟩
    · simp [other]
    · simp [unasked]
    · simp [passed]

theorem exec_revcheck_first {l : List Sys2Proof.ChainBlock} (enumerating : (s.ring c).state = .enumerating)
    (asked : (s.ring c).enumA = true) :
    exec (.revcheck c l) s = .next (((s.updRing c fun r => { r with
      revMismatch := r.revMismatch || (l.filter fun b => blockGood b 3).any fun b => blockByte b != 0
      revDone := true }).train c 0x03 1 0
        (stepArgs (if (s.ring c).enumPassed = true then (s.ring c).nA else (s.ring c).baseB - 1) false)).takeReplies c 3 l) :=
  congrArg Host.Outcome.next (if_pos (by simp [enumerating, asked]))

theorem exec_revcheck_again {l : List Sys2Proof.ChainBlock} (twoChain : (s.ring c).state = .twoChain)
    (awaited : (s.ring c).recheck = true) :
    exec (.revcheck c l) s = .next (let u := (s.updRing c fun r => { r with recheck := false }).takeReplies c 3 l;
      if ((l.filter fun b => blockGood b 3).any fun b => blockByte b != 0) = true then (u.failRing c).armCheck else u) :=
  congrArg Host.Outcome.next ((if_neg (by simp [twoChain])).trans (if_pos (by simp [twoChain, awaited])))

theorem exec_revcheck_idle {l : List Sys2Proof.ChainBlock}
    (notFirst : ¬((s.ring c).state = .enumerating ∧ (s.ring c).enumA = true))
    (notAgain : ¬((s.ring c).state = .twoChain ∧ (s.ring c).recheck = true)) : exec (.revcheck c l) s = .next s :=
  congrArg Host.Outcome.next ((if_neg (by simpa using notFirst)).trans (if_neg (by simpa using notAgain)))

end Count

/-! Echoes (R302, R314). -/

section Echo
variable {c : Fin 4} {n : Fin 16} {fromB : Bool} {trips : List Nat} {l : List Sys2Proof.ChainBlock} {s : State}

/-- The eight trains of ECHO leave the chains and the configuration. -/
theorem State.foldl_train_chn (s : State) (c : Fin 4) (cmd port addr : Nat) (args : List Byte) (l : List Nat) :
    (l.foldl (fun s _ => s.train c cmd port addr args) s).chn = s.chn ∧
    (l.foldl (fun s _ => s.train c cmd port addr args) s).cfg = s.cfg :=
  ⟨foldl_same State.chn (f := fun s _ => s.train c cmd port addr args) (fun _ _ => rfl) l s,
    foldl_same State.cfg (f := fun s _ => s.train c cmd port addr args) (fun _ _ => rfl) l s⟩

theorem exec_echo_measured (eight : trips.length = 8)
    (counts : (s.ring c).state = .enumerating ∨ (s.ring c).state = .enumerated ∨ (s.ring c).state.up = true) :
    exec (.echo c n fromB trips l) s = .next (
      let v := (List.range 8).foldl (fun s _ => s.train c 0x04 (if fromB = true then 1 else 0) (n.val + 1) []) s;
      let u := if (s.ring c).state.up = true ∧ n.val + 1 ≤ s.ringNodes c ∧ s.nodeMissing c (n.val + 1) = true
        then v.readdress c (n.val + 1) else v;
      let d := u.updNode c (n.val + 1) fun x =>
        if fromB = true then { x with delayB := some (echoDelay trips) } else { x with delayA := some (echoDelay trips) };
      (repliesOf (n.val + 1) 6 l).foldl (fun s b => s.nodeStatus c (n.val + 1) (blockWord b)) (d.takeReplies c 6 l)) := by
  refine congrArg Host.Outcome.next ((if_neg ?_).trans ?_)
  · rcases counts with state | state | up
    · simp [eight, state]
    · simp [eight, state]
    · simp [eight, up]
  · obtain ⟨chn, cfg⟩ := s.foldl_train_chn c 0x04 (if fromB = true then 1 else 0) (n.val + 1) [] (List.range 8)
    have nodes := State.ringNodes_of_cfg cfg c
    have ring := State.ring_of_chn chn c
    refine congrArg (fun u : State => List.foldl _ ((u.updNode c (n.val + 1) _).takeReplies c 6 l) _) (if_congr ?_ rfl rfl)
    simp only [State.nodeMissing, nodes, ring, Bool.and_eq_true, decide_eq_true_eq, and_assoc]

theorem exec_echo_idle (idle : trips.length ≠ 8 ∨
    ((s.ring c).state ≠ .enumerating ∧ (s.ring c).state ≠ .enumerated ∧ (s.ring c).state.up = false)) :
    exec (.echo c n fromB trips l) s = .next s := by
  refine congrArg Host.Outcome.next (if_pos ?_)
  rcases idle with short | ⟨notCounting, notCounted, down⟩
  · simp [short]
  · simp [notCounting, notCounted, down]

end Echo

/-! The end of the count (R302, R304, R315). -/

section Enumerated
variable {c : Fin 4} {s : State}

theorem exec_enumerated_counted (enumerating : (s.ring c).state = .enumerating) (counted : (s.ring c).counted = true)
    (agrees : (s.ring c).relockBad = false) :
    exec (.enumerated c) s = .next (
      let u := s.updRing c fun r => { r with state := .enumerated, relock := none };
      if s.cfg.activeValid = true then u.ringCheck c (s.ring c).relock.isSome else u) :=
  congrArg Host.Outcome.next ((if_neg (by simp [agrees])).trans (if_pos (by simp [enumerating, counted])))

theorem exec_enumerated_differs (enumerating : (s.ring c).state = .enumerating) (counted : (s.ring c).counted = true)
    (differs : (s.ring c).relockBad = true) :
    exec (.enumerated c) s = .next (s.updRing c fun r => { r.uncount with state := .waking, relock := none }) :=
  congrArg Host.Outcome.next (if_pos (by simp [enumerating, counted, differs]))

theorem exec_enumerated_idle (idle : (s.ring c).state ≠ .enumerating ∨ (s.ring c).counted = false) :
    exec (.enumerated c) s = .next s := by
  refine congrArg Host.Outcome.next ((if_neg ?_).trans (if_neg ?_))
  all_goals rcases idle with other | uncounted
  · simp [other]
  · simp [uncounted]
  · simp [other]
  · simp [uncounted]

end Enumerated

/-! The check against the RING record (R303). -/

/-- The nodes of a ring in their places, with no sweep under way. -/
def State.placed (s : State) (c : Fin 4) (again : Bool) : State :=
  s.updRing c fun r => { r.place (s.ringNodes c) again with sweep := none, sweepDue := none, started := false }

/-- A ring in which every node was passed from port A. -/
def State.ringWhole (s : State) (c : Fin 4) (again : Bool) : State :=
  (((s.placed c again).updRing c fun r => { r with state := .ring, brk := none, split := s.splitNode c }).ctrFound c).ev 0x8001
    (chnInst c.val 0)

/-- The trains after which the nodes counted from port B have their places: RESET_ADDR, ENUM and REVCHECK. -/
def State.placeTrains (s : State) (c : Fin 4) : State :=
  (((s.placed c false).train c 0x01 1 0x00 []).train c 0x02 1 0xFE (stepArgs (s.ringNodes c + 1) false)).train c 0x03 1 0x00
    (stepArgs (s.ringNodes c) false)

/-- A ring whose nodes were counted as two chains. -/
def State.ringSplit (s : State) (c : Fin 4) : State :=
  ((((s.placeTrains c).updRing c fun x => { x with
    state := .twoChain, brk := some ((s.ring c).nA, s.ringNodes c + 1 - (s.ring c).nB), split := (s.ring c).nA
    baseB := s.ringNodes c + 1, recheck := !false && (s.ring c).nB != 0 }).ctrFound c).ev 0x8002 (chnInst c.val 0)).degrade

section Check
variable {c : Fin 4} {again : Bool} {s : State} (waits : (s.ring c).state = .enumerated) (recorded : s.ringNodes c ≠ 0)
include waits recorded

theorem State.ringCheck_fails (bad : (s.ring c).revMismatch = true ∨ s.ringNodes c < (s.ring c).nA + (s.ring c).nB ∨
    ((s.ring c).enumPassed = true ∧ (s.ring c).nA ≠ s.ringNodes c)) : s.ringCheck c again = s.failRing c := by
  refine (if_neg (by simp [waits, recorded])).trans (if_pos ?_)
  rcases bad with mismatch | many | ⟨passed, other⟩
  · simp [mismatch]
  · simp [many]
  · simp [passed, other]

theorem State.ringCheck_whole (passed : (s.ring c).enumPassed = true) (all : (s.ring c).nA = s.ringNodes c)
    (noneB : (s.ring c).nB = 0) (agrees : (s.ring c).revMismatch = false) : s.ringCheck c again = s.ringWhole c again :=
  (if_neg (by simp [waits, recorded])).trans
    ((if_neg (by simp [passed, all, noneB, agrees, recorded])).trans (if_pos passed))

/-- Where the two chains make up the nodes, none is MISSING between them. -/
theorem State.ringCheck_split (stuck : (s.ring c).enumPassed = false)
    (all : (s.ring c).nA + (s.ring c).nB = s.ringNodes c) (agrees : (s.ring c).revMismatch = false) :
    s.ringCheck c false = s.ringSplit c := by
  refine (if_neg (by simp [waits, recorded])).trans ((if_neg ?_).trans ((if_neg (by simp [stuck])).trans ?_))
  · simp only [stuck, agrees, Bool.false_and, Bool.or_false, Bool.or_eq_true, Bool.and_eq_true, decide_eq_true_eq]
    omega
  · refine (congrArg (List.foldl _ _) (List.filter_eq_nil_iff.2 fun k _ => ?_)).trans rfl
    simp only [Bool.and_eq_true, decide_eq_true_eq]
    omega

end Check

theorem Ring.place_present (r : Ring) (again : Bool) (n : Fin 16) :
    (r.place r.nA again).node[n.val].present = decide (n.val < r.nA) := by
  simp only [Ring.place, mapV_get]
  by_cases inside : n.val < r.nA
  · rw [if_neg (by omega), if_pos (by omega), decide_eq_true inside]
  · rw [if_pos (by omega), decide_eq_false inside]

/-- A ring in which every node was passed, and what is left alone. -/
theorem State.ringWhole_does {c : Fin 4} {s : State} (again : Bool) (all : (s.ring c).nA = s.ringNodes c) :
    ((s.ringWhole c again).ring c).state = .ring ∧ ((s.ringWhole c again).ring c).brk = none ∧
    ((s.ringWhole c again).ring c).split = s.splitNode c ∧
    (∀ n : Fin 16, ((s.ringWhole c again).ring c).node[n.val].present = decide (n.val < s.ringNodes c)) ∧
    (∀ j, j ≠ c → (s.ringWhole c again).ring j = s.ring j) ∧ (s.ringWhole c again).tx = s.tx ∧
    (s.ringWhole c again).evr = s.evs [(0x8001, chnInst c.val 0, 0)] := by
  have own : (s.ringWhole c again).ring c = { (s.ring c).place (s.ringNodes c) again with
      sweep := none, sweepDue := none, started := false, state := .ring, brk := none, split := s.splitNode c
      ctr := ((s.ringWhole c again).ring c).ctr } := by
    simp only [State.ringWhole, State.ctrFound, State.placed, State.ev_ring, State.updRing_same]
  refine ⟨congrArg Ring.state own, congrArg Ring.brk own, congrArg Ring.split own, fun n => ?_, fun j other => ?_, ?_, ?_⟩
  · rw [own, ← all]
    exact Ring.place_present _ _ n
  · simp only [State.ringWhole, State.ctrFound, State.placed, State.ev_ring, State.updRing_other other]
  · exact State.ev_tx ..
  · exact (((((State.SameEv.refl s).updRing c _).updRing c _).updRing c _).ev _ _ _).evr.symm

/-- A ring counted as two chains, with the trains that follow. -/
theorem State.ringSplit_does (c : Fin 4) (s : State) :
    ((s.ringSplit c).ring c).state = .twoChain ∧
    ((s.ringSplit c).ring c).brk = some ((s.ring c).nA, s.ringNodes c + 1 - (s.ring c).nB) ∧
    ((s.ringSplit c).ring c).split = (s.ring c).nA ∧
    ((s.ringSplit c).ring c).recheck = decide ((s.ring c).nB ≠ 0) ∧ (s.ringSplit c).sys.degraded = true ∧
    (s.ringSplit c).tx = .train c.val 1 (trainBytes 0x03 0 (s.ring c).seq (stepArgs (s.ringNodes c) false)) ::
      .train c.val 1 (trainBytes 0x02 0xFE (s.ring c).seq (stepArgs (s.ringNodes c + 1) false)) ::
      .train c.val 1 (trainBytes 0x01 0 (s.ring c).seq []) :: s.tx ∧
    (∀ j, j ≠ c → (s.ringSplit c).ring j = s.ring j) ∧
    (s.ringSplit c).evr = s.evs [(0x8002, chnInst c.val 0, 0)] := by
  have own : (s.ringSplit c).ring c = { (s.ring c).place (s.ringNodes c) false with
      sweep := none, sweepDue := none, started := false, state := .twoChain
      brk := some ((s.ring c).nA, s.ringNodes c + 1 - (s.ring c).nB), split := (s.ring c).nA, baseB := s.ringNodes c + 1
      recheck := !false && (s.ring c).nB != 0, ctr := ((s.ringSplit c).ring c).ctr } := by
    simp only [State.ringSplit, State.ctrFound, State.placeTrains, State.placed, State.degrade_ring, State.ev_ring,
      State.train_ring, State.updRing_same]
  have seq : ((s.placed c false).ring c).seq = (s.ring c).seq := by
    rw [State.placed, State.updRing_same]
    rfl
  refine ⟨congrArg Ring.state own, congrArg Ring.brk own, congrArg Ring.split own, ?_, State.degrade_degraded _, ?_,
    fun j other => ?_, ?_⟩
  · exact (congrArg Ring.recheck own).trans (Bool.eq_iff_iff.2 (by simp))
  · rw [← seq]
    exact State.ev_tx ..
  · simp only [State.ringSplit, State.ctrFound, State.placeTrains, State.placed, State.degrade_ring, State.ev_ring,
      State.train_ring, State.updRing_other other]
  · exact ((((((((State.SameEv.refl s).updRing c _).train c _ _ _ _).train c _ _ _ _).train c _ _ _ _).updRing c
      _).updRing c _).ev _ _ _).evr.symm

/-! A FAILED ring is tried again (R303, R325). -/

section Retry
variable {c : Fin 4} {s : State}

theorem State.ringRetry_failed (failed : (s.ring c).state = .failed) :
    s.ringRetry c = s.updRing c fun r => { r.uncount with state := .waking } := if_pos failed

theorem State.ringRetry_idle (notFailed : (s.ring c).state ≠ .failed) : s.ringRetry c = s := if_neg notFailed

theorem exec_ringRetry_due (failed : (s.ring c).state = .failed) (early : s.sys.state = .boot ∨ s.sys.state = .standby)
    (late : s.elapsed (s.ring c).failTick 2500000 = true) :
    exec (.ringRetry c) s = .next (s.updRing c fun r => { r.uncount with state := .waking }) := by
  have waits : s.inState [.boot, .standby] = true := State.inState_iff.2 (by simpa using early)
  exact congrArg Host.Outcome.next ((if_pos (by simp [waits, late])).trans (State.ringRetry_failed failed))

theorem exec_ringRetry_idle (idle : (s.ring c).state ≠ .failed ∨ s.inState [.boot, .standby] = false ∨
    s.elapsed (s.ring c).failTick 2500000 = false) : exec (.ringRetry c) s = .next s := by
  refine congrArg Host.Outcome.next ?_
  rcases idle with notFailed | busy | early
  · rw [State.ringRetry_idle notFailed, ite_self]
  · exact if_neg (by simp [busy])
  · exact if_neg (by simp [early])

theorem exec_reenum_failed {sess : Fin 64} (used : (s.ringRec c).isSome = true) (allowed : s.allows sess .os = true)
    (failed : (s.ring c).state = .failed) :
    exec (.reenum sess c) s = .next (s.updRing c fun r => { r.uncount with state := .waking }) :=
  congrArg Host.Outcome.next ((State.regCmdAt_allowed used allowed _).trans (State.ringRetry_failed failed))

theorem exec_reenum_idle {sess : Fin 64} (allowed : s.allows sess .os = true) (notFailed : (s.ring c).state ≠ .failed) :
    exec (.reenum sess c) s = .next s := by
  refine congrArg Host.Outcome.next ?_
  cases used : (s.ringRec c).isSome with
  | false => exact State.regCmdAt_unused rfl _
  | true => exact (State.regCmdAt_allowed rfl allowed _).trans (State.ringRetry_idle notFailed)

end Retry

/-- Settles O21: the steps of the count case by case, and what the check makes of a ring that was found whole, in two chains,
or otherwise. -/
theorem ringBringUp : Obligations.RingBringUp := by
  refine ⟨fun _ _ => exec_ringBringUp_off, fun _ _ => exec_ringBringUp_idle, fun _ _ _ _ _ _ => rfl,
    fun _ _ => exec_resetAddr_waking, fun _ _ => exec_resetAddr_idle, fun _ _ _ _ => exec_enum_fromA,
    fun _ _ _ _ => exec_enum_fromB, fun _ _ _ _ _ => exec_enum_idle, fun _ _ _ => exec_revcheck_first,
    fun _ _ _ => exec_revcheck_again, fun _ _ _ => exec_revcheck_idle, fun _ _ => rfl,
    fun _ _ _ _ _ _ => exec_echo_measured, fun _ _ _ _ _ _ => exec_echo_idle, fun _ _ => exec_enumerated_counted,
    fun _ _ => exec_enumerated_differs, fun _ _ => exec_enumerated_idle,
    fun c again s waits recorded passed all noneB agrees => ?whole, fun _ _ _ => State.ringCheck_fails,
    fun c s waits recorded stuck all agrees => ?split, fun _ _ => exec_ringRetry_due, fun _ _ => exec_ringRetry_idle,
    fun _ _ _ => exec_reenum_failed, fun _ _ _ => exec_reenum_idle⟩
  case whole =>
    rw [State.ringCheck_whole waits recorded passed all noneB agrees]
    exact State.ringWhole_does again all
  case split =>
    rw [State.ringCheck_split waits recorded stuck all agrees]
    exact s.ringSplit_does c

end Sys2Proof.Machine
end

section
/-! SUPPORT. The contactors of a string (R305, R315, R322, R325, R407). -/

namespace Sys2Proof.Machine

/-! A command to the contactor node (R315, R322). -/

/-- The node is in reach: the command does not stay outstanding. -/
theorem State.ctrReached {c : Fin 4} {n : Nat} {s : State}
    (reach : (s.ring c).state.up = true ∨ (s.ring c).state = .shipping) (present : ((s.ring c).nodeAt n).present = true) :
    ¬(!(s.ring c).state.up && (s.ring c).state != .shipping || !((s.ring c).nodeAt n).present) = true := by
  rcases reach with up | shipping
  · simp [up, present]
  · simp [shipping, present]

section Commanded
variable {c : Fin 4} {n : Nat} {s : State} (driven : s.ctrNode c = some n)
include driven

theorem State.contactor_outOfReach (close : Bool)
    (out : ((s.ring c).state.up = false ∧ (s.ring c).state ≠ .shipping) ∨ ((s.ring c).nodeAt n).present = false) :
    s.contactor c close = (s.train c 0x40 (s.portTo c n) n (leBytes 1 (bitAt close 0))).updRing c fun r => { r with
      ctrCmd := some close } := by
  unfold State.contactor
  rw [driven]
  refine if_pos ?_
  rw [State.train_ring]
  rcases out with ⟨down, notShipping⟩ | gone
  · simp [down, notShipping]
  · simp [gone]

section InReach
variable (reach : (s.ring c).state.up = true ∨ (s.ring c).state = .shipping)
  (present : ((s.ring c).nodeAt n).present = true)
include reach present

theorem State.contactor_opens : s.contactor c false =
    (let u := (s.train c 0x40 (s.portTo c n) n (leBytes 1 0)).updRing c fun r => { r with
        ctr := .open_, ctrFaulted := false, ctrCmd := none };
      if (s.ring c).ctr = .open_ then u else u.ev 0x8071 (chnInst c.val n)) := by
  unfold State.contactor
  rw [driven]
  exact (if_neg (State.ctrReached reach present)).trans (if_neg Bool.false_ne_true)

theorem State.contactor_closes : s.contactor c true =
    (s.train c 0x40 (s.portTo c n) n (leBytes 1 1)).updRing c fun r =>
      if r.ctr = .closed then { r with ctrCmd := none } else { r with ctr := .precharge, ctrCmd := some true } := by
  unfold State.contactor
  rw [driven]
  exact (if_neg (State.ctrReached reach present)).trans (if_pos rfl)

end InReach

end Commanded

/-! The commands of an OPERATOR (R322, R325, R407). -/

section Operator
variable {sess : Fin 64} {c : Fin 4} {s : State} (used : (s.ringRec c).isSome = true) (allowed : s.allows sess .osa = true)
include used allowed

theorem exec_ctrOpen_allowed : exec (.ctrOpen sess c) s = .next ((s.contactor c false).passageEnd) :=
  congrArg Host.Outcome.next (State.regCmdAt_allowed used allowed _)

theorem exec_ctrClose_driven {n : Nat} (driven : s.ctrNode c = some n) :
    exec (.ctrClose sess c) s = .next (s.contactor c true) :=
  congrArg Host.Outcome.next ((State.regCmdAt_allowed used allowed _).trans (if_neg (by simp [driven])))

theorem exec_ctrClose_undriven (undriven : s.ctrNode c = none) :
    exec (.ctrClose sess c) s = .next (s.restoreString c) :=
  congrArg Host.Outcome.next ((State.regCmdAt_allowed used allowed _).trans (if_pos (by simp [undriven])))

end Operator

/-! What the contactor node reports (R305, R322, R407). -/

section Reported
variable {c : Fin 4} {n : Nat} {s : State}

theorem execContactorClosed_of_node (driven : s.ctrNode c = some n) : execContactorClosed c s = .next (
    if (s.ring c).ctr = .precharge then
      (((s.updRing c fun r => { r with ctr := .closed, ctrFaulted := false, ctrCmd := none }).ev 0x8070
        (chnInst c.val n)).restoreString c).armDone
    else s) := by
  unfold execContactorClosed
  rw [driven]

theorem exec_contactorClosed_ends (driven : s.ctrNode c = some n) (closing : (s.ring c).ctr = .precharge) :
    exec (.contactorClosed c) s = .next (((((s.updRing c fun r => { r with
      ctr := .closed, ctrFaulted := false, ctrCmd := none }).ev 0x8070 (chnInst c.val n)).restoreString c)).armDone) :=
  (execContactorClosed_of_node driven).trans (congrArg Host.Outcome.next (if_pos closing))

theorem exec_contactorClosed_idle (idle : s.ctrNode c = none ∨ (s.ring c).ctr ≠ .precharge) :
    exec (.contactorClosed c) s = .next s := by
  cases driven : s.ctrNode c with
  | none =>
    refine congrArg Host.Outcome.next ?_
    rw [driven]
  | some n =>
    have other := idle.resolve_left (by simp [driven])
    exact (execContactorClosed_of_node driven).trans (congrArg Host.Outcome.next (if_neg other))

/-- The string of a ring is isolated no longer. -/
theorem State.restoreString_isolated {i : Fin 4} (string : s.ringStr c = i.val) :
    (s.restoreString c).prot.str[i.val].isolated = false := by
  simp [State.restoreString, State.updStrProt, string]

/-- The ring with its contactor at FAULT, before a passage to ARMED is looked at. -/
def State.ctrFaulty (s : State) (c : Fin 4) (n : Nat) : State :=
  ((s.updRing c fun r => { r with ctr := .fault, ctrFaulted := true, ctrCmd := none }).ev 0x8072 (chnInst c.val n)).degrade

theorem exec_contactorFault_driven (driven : s.ctrNode c = some n) :
    exec (.contactorFault c) s = .next ((s.ctrFaulty c n).armCheck) := by
  refine congrArg Host.Outcome.next ?_
  rw [driven]
  rfl

theorem exec_contactorFault_undriven (undriven : s.ctrNode c = none) : exec (.contactorFault c) s = .next s := by
  refine congrArg Host.Outcome.next ?_
  rw [undriven]

theorem State.ctrFaulty_cfg (s : State) (c : Fin 4) (n : Nat) : (s.ctrFaulty c n).cfg = s.cfg := State.ev_cfg ..

theorem State.ctrFaulty_ctr (s : State) (c : Fin 4) (n : Nat) : ((s.ctrFaulty c n).ring c).ctr = .fault := by
  rw [State.ctrFaulty, State.degrade_ring, State.ev_ring, State.updRing_same]

theorem State.ctrFaulty_passage (s : State) (c : Fin 4) (n : Nat) : (s.ctrFaulty c n).sys.passage = s.sys.passage := by
  rw [State.ctrFaulty, State.degrade_passage, State.ev_sys, State.updRing_sys]

/-- A ring whose contactor is at FAULT is not READY. -/
theorem State.ringReady_fault (driven : s.ctrNode c = some n) (fault : (s.ring c).ctr = .fault) : s.ringReady c = false := by
  simp [State.ringReady, driven, fault]

theorem exec_contactorFault_leaves (driven : s.ctrNode c = some n) (idle : s.sys.passage = .none) :
    Gives (.contactorFault c) s fun t =>
      (t.ring c).ctr = .fault ∧ t.sys.degraded = true ∧ t.ringReady c = false ∧ ∀ j, j ≠ c → t.ring j = s.ring j := by
  have stands : (s.ctrFaulty c n).armCheck = s.ctrFaulty c n :=
    State.armCheck_idle (by rw [State.ctrFaulty_passage, idle]; decide)
  refine ⟨s.ctrFaulty c n, (exec_contactorFault_driven driven).trans (congrArg Host.Outcome.next stands),
    s.ctrFaulty_ctr c n, State.degrade_degraded _, ?_, fun j other => ?_⟩
  · exact State.ringReady_fault ((State.ctrNode_of_cfg (s.ctrFaulty_cfg c n) c).trans driven) (s.ctrFaulty_ctr c n)
  · rw [State.ctrFaulty, State.degrade_ring, State.ev_ring, State.updRing_other other]

end Reported

/-- Settles O24: the commands by what the contactor node can do, and its reports. -/
theorem contactorsOfAString : Obligations.ContactorsOfAString :=
  ⟨fun _ _ _ => exec_ctrOpen_allowed, fun _ _ _ _ used allowed => exec_ctrClose_driven used allowed, fun _ _ _ => exec_ctrClose_undriven,
    fun _ _ _ outstanding => congrArg Host.Outcome.next (if_pos outstanding),
    fun _ _ _ other => congrArg Host.Outcome.next (if_neg other), fun _ _ _ => State.contactor_opens,
    fun _ _ _ => State.contactor_closes, fun _ _ close _ driven => State.contactor_outOfReach driven close,
    fun _ _ _ => exec_contactorClosed_ends, fun _ _ => exec_contactorClosed_idle,
    fun _ _ _ => State.restoreString_isolated, fun _ _ _ => exec_contactorFault_driven,
    fun _ _ _ => exec_contactorFault_leaves, fun _ _ => exec_contactorFault_undriven⟩

end Sys2Proof.Machine
end

section
/-! SUPPORT. The gap transactions of a ring, its wake tones and its way into ship mode (R298, R303, R304, R310, R315 to R321,
R323). -/

namespace Sys2Proof.Machine

/-! What a gap transaction leaves of its ring, and of the configuration (R310, R311, R315). -/

/-- A gap transaction that runs changes what waits to be sent again and what was displaced. -/
theorem State.gapRun_keeps {α : Type} {π : Ring → α} (again : ∀ r l, π { r with resend := l } = π r)
    (held : ∀ r l, π { r with gapHeld := l } = π r) (s : State) (c : Fin 4) (o : Sys2Proof.GapOp) (j : Fin 4) :
    π ((s.gapRun c o).ring j) = π (s.ring j) := by
  unfold State.gapRun
  extract_lets t
  have sent : π (t.ring j) = π (s.ring j) := State.updRing_keeps (fun r => again r _) s c j
  split
  · rw [State.undisplace, State.ev_ring]
    exact (State.updRing_keeps (fun r => held r _) t c j).trans sent
  · exact sent

/-- Reply blocks change the count of errors and the nodes. -/
theorem State.takeReplies_keeps {α : Type} {π : Ring → α} (errors : ∀ r n, π { r with blockErr := n } = π r)
    (nodes : ∀ r v, π { r with node := v } = π r) (s : State) (c : Fin 4) (len : Nat) (l : List Sys2Proof.ChainBlock)
    (j : Fin 4) : π ((s.takeReplies c len l).ring j) = π (s.ring j) := by
  refine foldl_same (fun t => π (t.ring j)) (fun t b => ?_) l s
  split
  · exact State.updNode_keeps nodes t c _ _ j
  · rw [State.blockError, State.ev_ring]
    exact (State.updNode_keeps nodes _ c _ _ j).trans (State.updRing_keeps (fun r => errors r _) t c j)

theorem State.takeReplies_cfg (s : State) (c : Fin 4) (len : Nat) (l : List Sys2Proof.ChainBlock) :
    (s.takeReplies c len l).cfg = s.cfg :=
  (State.takeReplies_kept s c len l (List.Subset.refl _) .rfl).only .cfg (by decide)

/-- The train of a gap transaction that runs, and its replies, leave the configuration. -/
theorem State.gapTrain_cfg (s : State) (c : Fin 4) (o : Sys2Proof.GapOp) (cmd port addr : Nat) (args : List Byte) (len : Nat)
    (l : List Sys2Proof.ChainBlock) : (((s.gapRun c o).train c cmd port addr args).takeReplies c len l).cfg = s.cfg :=
  (State.takeReplies_cfg ..).trans ((State.gapRun_kept s c o (List.Subset.refl _) .rfl).only .cfg (by decide))

/-! CONFIG and DIAG (R298, R303, R315, R316). -/

section Node
variable {c : Fin 4} {n : Fin 16} {l : List Sys2Proof.ChainBlock} {s : State}

theorem exec_config_runs (gap : s.nodeGap c (n.val + 1) (.config n) = true) (checked : (s.ring c).recheck = false)
    (measured : ((s.ring c).nodeAt (n.val + 1)).delayA.isSome = true ∨ ((s.ring c).nodeAt (n.val + 1)).delayB.isSome = true) :
    exec (.config c n l) s = .next (
      let u := ((s.gapRun c (.config n)).train c 0x05 (s.portTo c (n.val + 1)) (n.val + 1) (s.configArgs c (n.val + 1))).takeReplies
        c 3 l;
      if repliesOf (n.val + 1) 3 l = [] then u.gapLost c (.config n)
      else if ((repliesOf (n.val + 1) 3 l).any fun b => blockByte b = 0) = true then
        u.updNode c (n.val + 1) fun x => { x with configured := true, diagDone := false, cfgDelays := some (x.delayA, x.delayB) }
      else u) :=
  congrArg Host.Outcome.next ((if_pos (by simp [gap, checked, measured])).trans (if_congr List.isEmpty_iff rfl rfl))

theorem exec_config_idle (idle : s.nodeGap c (n.val + 1) (.config n) = false ∨ (s.ring c).recheck = true) :
    exec (.config c n l) s = .next s := by
  refine congrArg Host.Outcome.next (if_neg ?_)
  rcases idle with noGap | unchecked
  · simp [noGap]
  · simp [unchecked]

/-- DIAG of a node, whatever it leads to: with the last node one that was due is over. -/
theorem exec_diag_runs (gap : s.nodeGap c (n.val + 1) (.diag n) = true) {t : State}
    (judged : t = (match (repliesOf (n.val + 1) 40 l).getLast? with
      | some b => (((s.gapRun c (.diag n)).train c 0x30 (s.portTo c (n.val + 1)) (n.val + 1) []).takeReplies c 40
          l).diagResult c (n.val + 1) (blockDevs b)
      | none => (((s.gapRun c (.diag n)).train c 0x30 (s.portTo c (n.val + 1)) (n.val + 1) []).takeReplies c 40
          l).gapLost c (.diag n))) (cfg : t.cfg = s.cfg) :
    exec (.diag c n l) s = .next (t.updRing c fun r => { r with diagDue := r.diagDue && n.val + 1 != s.ringNodes c }) := by
  rw [← State.ringNodes_of_cfg cfg, judged]
  exact congrArg Host.Outcome.next (if_pos gap)

theorem exec_diag_answered {b : Sys2Proof.ChainBlock} (gap : s.nodeGap c (n.val + 1) (.diag n) = true)
    (last : (repliesOf (n.val + 1) 40 l).getLast? = some b) :
    exec (.diag c n l) s = .next (((((s.gapRun c (.diag n)).train c 0x30 (s.portTo c (n.val + 1)) (n.val + 1) []).takeReplies c 40
      l).diagResult c (n.val + 1) (blockDevs b)).updRing c fun r => { r with
        diagDue := r.diagDue && n.val + 1 != s.ringNodes c }) := by
  refine exec_diag_runs gap (by rw [last]) ?_
  exact ((State.diagResult_kept _ c _ _ (List.Subset.refl _) .rfl).only .cfg (by decide)).trans (State.gapTrain_cfg ..)

theorem exec_diag_unanswered (gap : s.nodeGap c (n.val + 1) (.diag n) = true) (silent : repliesOf (n.val + 1) 40 l = []) :
    exec (.diag c n l) s = .next (((((s.gapRun c (.diag n)).train c 0x30 (s.portTo c (n.val + 1)) (n.val + 1) []).takeReplies c 40
      l).gapLost c (.diag n)).updRing c fun r => { r with diagDue := r.diagDue && n.val + 1 != s.ringNodes c }) :=
  exec_diag_runs gap (by rw [silent]; rfl) (State.gapTrain_cfg ..)

theorem exec_diag_idle (noGap : s.nodeGap c (n.val + 1) (.diag n) = false) : exec (.diag c n l) s = .next s :=
  congrArg Host.Outcome.next (if_neg (by simp [noGap]))

end Node

theorem exec_diagNow_allowed {sess : Fin 64} {c : Fin 4} {s : State} (used : (s.ringRec c).isSome = true)
    (allowed : s.allows sess .oa = true) :
    exec (.diagNow sess c) s = .next (if (s.ring c).state.up = true then s.updRing c fun r => { r with diagDue := true } else s) :=
  congrArg Host.Outcome.next (State.regCmdAt_allowed used allowed _)

/-! The deviations of a DIAG (R316). -/

/-- A path within tolerance that had not failed counts from 0 again. -/
theorem diagPath_within {tol : Nat} {dev : Int} (within : dev.natAbs ≤ 100 * tol) (run : Int) :
    diagPath tol dev run false = (0, false) := by
  have notOut : ¬100 * tol < dev.natAbs := by omega
  simp [diagPath, notOut]

/-- A node whose DIAG has found every path within tolerance. -/
def Node.diagnosed (x : Node) (devs : List Int) : Node :=
  { x with diagRun := mapV x.diagRun fun _ _ => 0, failedPaths := mapV x.failedPaths fun _ _ => false
           diagDev := (devs.map Int.natAbs).foldl max 0, diagDone := x.configured }

theorem State.diagResult_within {c : Fin 4} {n : Fin 16} {devs : List Int} {s : State}
    (sound : ∀ p : Fin 19, (s.ring c).node[n.val].failedPaths[p.val] = false)
    (within : ∀ p : Fin 19, (devs.getD p.val 0).natAbs ≤ 100 * s.chn.diagTol) :
    s.diagResult c (n.val + 1) devs = s.updNode c (n.val + 1) fun x => x.diagnosed devs := by
  have passes : ((List.finRange 19).map fun p => diagPath s.chn.diagTol (devs.getD p.val 0)
      ((s.ring c).nodeAt (n.val + 1)).diagRun[p.val] ((s.ring c).nodeAt (n.val + 1)).failedPaths[p.val]) =
      List.replicate 19 (0, false) := by
    refine (List.map_congr_left fun p _ => ?_).trans (List.map_const'.trans (by rw [List.length_finRange]))
    simp only [Ring.nodeAt_succ, sound p]
    exact diagPath_within (within p) _
  simp only [State.diagResult, passes]
  simp only [List.getD_eq_getElem?_getD, List.getElem?_getD_replicate_default_eq, Ring.nodeAt_succ, sound, Bool.and_false,
    Bool.false_and, List.filter_false, List.foldl_nil, Node.diagnosed]

theorem Node.diagnosed_path (x : Node) (devs : List Int) (p : Fin 19) :
    (x.diagnosed devs).failedPaths[p.val] = false ∧ (x.diagnosed devs).diagRun[p.val] = 0 := by
  simp only [Node.diagnosed, mapV_get, and_self]

theorem State.updNode_node (s : State) (c : Fin 4) (n m : Fin 16) (f : Node → Node) :
    ((s.updNode c (n.val + 1) f).ring c).node[m.val] = if m = n then f (s.ring c).node[m.val] else (s.ring c).node[m.val] := by
  rw [← Ring.nodeAt_succ, ← Ring.nodeAt_succ]
  split
  · next same => rw [same, State.updNode_nodeAt_same]
  · next other => rw [State.updNode_nodeAt_other (by omega)]

theorem State.diagResult_does {c : Fin 4} {n : Fin 16} {devs : List Int} {s : State}
    (configured : (s.ring c).node[n.val].configured = true)
    (sound : ∀ p : Fin 19, (s.ring c).node[n.val].failedPaths[p.val] = false)
    (within : ∀ p : Fin 19, (devs.getD p.val 0).natAbs ≤ 100 * s.chn.diagTol) :
    ((s.diagResult c (n.val + 1) devs).ring c).node[n.val].diagDone = true ∧
    (∀ p : Fin 19, ((s.diagResult c (n.val + 1) devs).ring c).node[n.val].failedPaths[p.val] = false ∧
      ((s.diagResult c (n.val + 1) devs).ring c).node[n.val].diagRun[p.val] = 0) ∧
    ((s.diagResult c (n.val + 1) devs).ring c).node[n.val].diagDev = (devs.map Int.natAbs).foldl max 0 ∧
    (∀ m : Fin 16, m ≠ n → ((s.diagResult c (n.val + 1) devs).ring c).node[m.val] = (s.ring c).node[m.val]) ∧
    (s.diagResult c (n.val + 1) devs).evr = s.evr := by
  rw [State.diagResult_within sound within]
  have own : ((s.updNode c (n.val + 1) fun x => x.diagnosed devs).ring c).node[n.val] =
      ((s.ring c).node[n.val]).diagnosed devs := by rw [State.updNode_node, if_pos rfl]
  refine ⟨?_, fun p => ?_, ?_, fun m other => ?_, State.updNode_evr ..⟩
  · rw [own]
    exact configured
  · rw [own]
    exact Node.diagnosed_path ..
  · rw [own, Node.diagnosed]
  · rw [State.updNode_node, if_neg other]

/-! BAL, SLOT and BLANK (R310, R317 to R319, R324). -/

theorem State.setBal_portTo (s : State) (c : Fin 4) (k n : Nat) (q : Nat × Nat) : (s.setBal c k q).portTo c n = s.portTo c n := by
  refine State.portTo_of_brk ?_ n
  exact (State.foldl_updCell_keeps _ _ (π := Ring.brk) (fun _ _ => rfl) c).trans
    (State.updNode_keeps (fun _ _ => rfl) s c _ _ c)

section Balance
variable {c : Fin 4} {n : Fin 16} {s : State}

theorem exec_bal_runs (gap : s.nodeGap c (n.val + 1) (.bal n) = true) :
    exec (.bal c n) s = .next ((((s.gapRun c (.bal n)).updNode c (n.val + 1) fun x => { x with balPrev := (x.bal, x.neigh) }).setBal c
      (n.val + 1) (s.balRequest c (n.val + 1))).train c 0x20 (s.portTo c (n.val + 1)) (n.val + 1)
      (leBytes 3 (s.balRequest c (n.val + 1)).1 ++ leBytes 1 (s.balRequest c (n.val + 1)).2)) := by
  have reached : (((s.gapRun c (.bal n)).updNode c (n.val + 1) fun x => { x with balPrev := (x.bal, x.neigh) }).setBal c
      (n.val + 1) (s.balRequest c (n.val + 1))).portTo c (n.val + 1) = s.portTo c (n.val + 1) :=
    (State.setBal_portTo ..).trans (State.portTo_of_brk ((State.updNode_keeps (π := Ring.brk) (fun _ _ => rfl) _ c _ _ c).trans
      (State.gapRun_keeps (fun _ _ => rfl) (fun _ _ => rfl) s c _ c)) _)
  rw [← reached]
  exact congrArg Host.Outcome.next (if_pos gap)

theorem exec_bal_idle (noGap : s.nodeGap c (n.val + 1) (.bal n) = false) : exec (.bal c n) s = .next s :=
  congrArg Host.Outcome.next (if_neg (by simp [noGap]))

/-- A request changes its node; the BAL bits of the cells leave the nodes alone. -/
theorem State.setBal_node (s : State) (c : Fin 4) (n m : Fin 16) (q : Nat × Nat) :
    ((s.setBal c (n.val + 1) q).ring c).node[m.val] =
      if m = n then { (s.ring c).node[m.val] with bal := q.1, neigh := q.2 } else (s.ring c).node[m.val] := by
  have cells : ((s.setBal c (n.val + 1) q).ring c).node[m.val] =
      ((s.updNode c (n.val + 1) fun x => { x with bal := q.1, neigh := q.2 }).ring c).node[m.val] :=
    State.foldl_updCell_keeps _ _ (π := fun r => r.node[m.val]) (fun _ _ => rfl) c
  rw [cells, State.updNode_node]

theorem exec_slot_runs (up : (s.ring c).state.up = true) (gap : s.gapFor c .slot = true) :
    exec (.slot c) s = .next (((s.gapRun c .slot).updRing c fun r => { r with parity := !(s.ring c).parity }).broadcast c 0x21
      (leBytes 1 (bitAt (!(s.ring c).parity) 0))) :=
  congrArg Host.Outcome.next (if_pos (by simp [up, gap]))

theorem exec_slot_idle (idle : (s.ring c).state.up = false ∨ s.gapFor c .slot = false) : exec (.slot c) s = .next s := by
  refine congrArg Host.Outcome.next (if_neg ?_)
  rcases idle with down | noGap
  · simp [down]
  · simp [noGap]

theorem exec_blank_sweeping (sweeps : s.sweepsOn c = true) :
    exec (.blank c) s = .next ((s.updRing c fun r => { r with blanked := true, blankAt := s.sys.tick }).broadcast c 0x22 []) :=
  congrArg Host.Outcome.next (if_pos sweeps)

theorem exec_blank_idle (still : s.sweepsOn c = false) : exec (.blank c) s = .next s :=
  congrArg Host.Outcome.next (if_neg (by simp [still]))

end Balance

/-! Wake tones (R320, R321). -/

section Tone
variable {c : Fin 4} {onA onB : Bool} {lost : List Nat} {s : State}

/-- PROBE of every node leaves the configuration. -/
theorem State.probeAll_cfg (s : State) (c : Fin 4) (l : List Nat) :
    (l.foldl (fun s n => s.train c 0x31 (s.portTo c n) n []) s).cfg = s.cfg :=
  foldl_same State.cfg (f := fun s n => s.train c 0x31 (s.portTo c n) n []) (fun _ _ => rfl) l s

theorem exec_wakeTone_heard (tone : onA = true ∨ onB = true) (notWaking : (s.ring c).state ≠ .waking)
    (notEnumerating : (s.ring c).state ≠ .enumerating)
    (supplied : (s.power.powered = true ∧ (s.ring c).state ≠ .off) ∨
      (s.power.powered = false ∧ (s.power.stby12Ok = true ∨ s.power.aux54Ok = true))) :
    exec (.wakeTone c onA onB lost) s = .next (
      let u := (s.updRing c fun r => { r with toneHeard := true, probeDue := r.probeDue || (s.ring c).state.up }).ev 0x8050
        (chnInst c.val 0) ((if onA = true then 1 else 0) + (if onB = true then 2 else 0));
      if (s.ring c).state.up = true ∧ (s.ring c).sweep = none then
        (lost.filter fun n => 0 < n && n ≤ s.ringNodes c).foldl (fun s n => s.readdress c n)
          ((s.nodeList c).foldl (fun s n => s.train c 0x31 (s.portTo c n) n []) u)
      else u) := by
  refine congrArg Host.Outcome.next ((if_neg ?_).trans ?_)
  · rcases supplied with ⟨powered, notOff⟩ | ⟨dark, standby | aux⟩
    · simpa [notWaking, notEnumerating, powered, notOff, Decidable.or_iff_not_imp_left] using tone
    · simpa [notWaking, notEnumerating, dark, standby, Decidable.or_iff_not_imp_left] using tone
    · simpa [notWaking, notEnumerating, dark, aux, Decidable.or_iff_not_imp_left] using tone
  · extract_lets u v w
    have cfg : v.cfg = s.cfg := State.ev_cfg ..
    have sweep : (v.ring c).sweep = (s.ring c).sweep := by rw [State.ev_ring, State.updRing_same]
    refine if_congr (by simp [sweep]) ?_ rfl
    have list : v.nodeList c = s.nodeList c := State.nodeList_of_cfg cfg c
    have nodes : w.ringNodes c = s.ringNodes c := State.ringNodes_of_cfg ((State.probeAll_cfg v c _).trans cfg) c
    rw [nodes, ← list]

theorem exec_wakeTone_idle (idle : (onA = false ∧ onB = false) ∨ (s.ring c).state = .waking ∨
    (s.ring c).state = .enumerating ∨ ((s.ring c).state = .off ∧ s.power.powered = true)) :
    exec (.wakeTone c onA onB lost) s = .next s := by
  refine congrArg Host.Outcome.next (if_pos ?_)
  rcases idle with ⟨noA, noB⟩ | waking | enumerating | ⟨off, powered⟩
  · simp [noA, noB]
  · simp [waking]
  · simp [enumerating]
  · simp [off, powered]

end Tone

/-! Ship mode (R304, R323). -/

section Ship
variable {c : Fin 4} {s : State}

theorem exec_ship_goes {l : List Sys2Proof.ChainBlock} (shipping : (s.ring c).state = .shipping) (still : s.sweepsOn c = false)
    (due : (s.ring c).shipTries = 0 ∨ ((s.ring c).shipTries < 3 ∧ s.elapsed (s.ring c).shipAt 5000 = true)) :
    exec (.ship c l) s = .next (((l.filter fun b => blockGood b 3 && blockByte b = 0).foldl
      (fun s b => s.updNode c (blockFrom b) fun x => { x with shipped := true })
      (((s.updRing c fun r => { r with
        sweep := none, sweepDue := none, started := false
        shipTries := r.shipTries + 1, shipAt := s.sys.tick }).train2 c 0x50 0 []).takeReplies c 3 l)).shipCheck c) := by
  refine congrArg Host.Outcome.next (if_pos ?_)
  simpa [shipping, still] using due

theorem exec_ship_idle {l : List Sys2Proof.ChainBlock} (idle : (s.ring c).state ≠ .shipping ∨ s.sweepsOn c = true ∨
    3 ≤ (s.ring c).shipTries) : exec (.ship c l) s = .next s := by
  refine congrArg Host.Outcome.next (if_neg ?_)
  rcases idle with other | sweeps | spent
  · simp [other]
  · simp [sweeps]
  · have some_ : (s.ring c).shipTries ≠ 0 := by omega
    have tooMany : ¬(s.ring c).shipTries < 3 := by omega
    simp [some_, tooMany]

theorem State.shipCheck_done (shipping : (s.ring c).state = .shipping)
    (answered : ∀ n ∈ s.nodeList c, ((s.ring c).nodeAt n).present = true → ((s.ring c).nodeAt n).shipped = true) :
    s.shipCheck c = (s.updRing c fun r => { r with state := .ship }).ev 0x8060 (chnInst c.val 0) := by
  refine if_pos ?_
  simpa [shipping, Decidable.or_iff_not_imp_left] using answered

theorem exec_shipIncomplete_absent {n : Fin 16} (shipping : (s.ring c).state = .shipping)
    (present : ((s.ring c).nodeAt (n.val + 1)).present = true) (silent : ((s.ring c).nodeAt (n.val + 1)).shipped = false)
    (spent : (s.ring c).shipTries = 3) (late : s.elapsed (s.ring c).shipAt 5000 = true) :
    exec (.shipIncomplete c n) s = .next (((s.updNode c (n.val + 1) fun x => { x with present := false }).ev 0x8061
      (chnInst c.val (n.val + 1))).shipCheck c) :=
  congrArg Host.Outcome.next (if_pos (by simp [shipping, present, silent, spent, late]))

theorem exec_shipIncomplete_idle {n : Fin 16} (idle : (s.ring c).state ≠ .shipping ∨ (s.ring c).shipTries ≠ 3 ∨
    ((s.ring c).nodeAt (n.val + 1)).shipped = true) : exec (.shipIncomplete c n) s = .next s := by
  refine congrArg Host.Outcome.next (if_neg ?_)
  rcases idle with other | unspent | answered
  · simp [other]
  · simp [unspent]
  · simp [answered]

end Ship

/-- Settles O23: each command where its gap is free and where it is not, and what a request and a DIAG within tolerance make
of their node. -/
theorem nodesAndTheirCells : Obligations.NodesAndTheirCells :=
  ⟨fun _ _ _ _ => exec_config_runs, fun _ _ _ _ => exec_config_idle, fun _ _ _ _ _ => exec_diag_answered,
    fun _ _ _ _ => exec_diag_unanswered, fun _ _ _ _ => exec_diag_idle, fun _ _ _ _ => State.diagResult_does,
    fun _ _ _ => exec_diagNow_allowed, fun _ _ _ => exec_bal_runs, fun _ _ _ => exec_bal_idle,
    fun c n q s => ⟨(s.setBal_node c n n q).trans (if_pos rfl), fun m other => (s.setBal_node c n m q).trans (if_neg other)⟩,
    fun _ _ => exec_slot_runs, fun _ _ => exec_slot_idle, fun _ _ => exec_blank_sweeping, fun _ _ => exec_blank_idle,
    fun _ _ _ _ _ => exec_wakeTone_heard, fun _ _ _ _ _ => exec_wakeTone_idle, fun _ _ _ => exec_ship_goes,
    fun _ _ _ => exec_ship_idle, fun _ _ => State.shipCheck_done, fun _ _ _ => exec_shipIncomplete_absent,
    fun _ _ _ => exec_shipIncomplete_idle⟩

end Sys2Proof.Machine
end

section
/-! SUPPORT. The sample of a sweep and the blocks that arrive in it (R298, R299, R306, R307, R309 to R312). -/

namespace Sys2Proof.Machine

/-! SAMPLE (R306, R307, R310). -/

section Sample
variable {c : Fin 4} {k tempNs : Nat} {s : State}

theorem exec_sample_judged {u : State} (sweeps : s.sweepsOn c = true) (noSweep : (s.ring c).sweep = none)
    (period : s.sweepTicks c ≠ 0) (runs : s.clk.fabricStopped = false) (ready : s.sweepReady c = true)
    (judged : u = s.cadence c tempNs) :
    exec (.sample c k tempNs) s = .next (
      if k % (u.sweepTicks c * 2 ^ (u.ring c).slowLog2) = 0 ∧ u.leaveAt c (u.quietFor c (80000 * k)) / 80000 = u.sys.tick
      then u.sample c k (u.quietFor c (80000 * k)) else u) := by
  subst judged
  refine congrArg Host.Outcome.next ((if_neg ?_).trans (if_congr ?_ rfl rfl))
  · simp [sweeps, noSweep, period, runs, ready]
  · simp only [Bool.and_eq_true, decide_eq_true_eq]

theorem exec_sample_idle (idle : s.sweepsOn c = false ∨ (s.ring c).sweep.isSome = true ∨ s.sweepReady c = false) :
    exec (.sample c k tempNs) s = .next s := by
  refine congrArg Host.Outcome.next (if_pos ?_)
  rcases idle with still | sweeping | unready
  · simp [still]
  · simp [sweeping]
  · simp [unready]

end Sample

/-- A ring in which a sweep starts. -/
def State.sweepStarted (s : State) (c : Fin 4) (k ts : Nat) : State :=
  s.updRing c fun r => { r with
    seq := wrapU 8 (r.seq + 1), blanked := false, offWindow := false, started := r.state.up
    sweep := some { seq := wrapU 8 (r.seq + 1), ts := ts, split := r.split, kind := .ok, offWindow := false
                    skew := 0, lastNormal := s.ringNodes c, blocks := [], bad := [], nom := k, grp := s.ringGroup c
                    edges := ((s.ringGroup c).map s.edgeKey).getD (0, 0) } }

theorem State.sample_eq (s : State) (c : Fin 4) (k ts : Nat) : s.sample c k ts =
    (s.sweepStarted c k ts).broadcast c 0x10 ((s.sweepStarted c k ts).sampleArgs c k ts
      ((s.sweepStarted c k ts).ring c).split) := rfl

theorem State.sample_ring (s : State) (c : Fin 4) (k ts : Nat) (j : Fin 4) :
    (s.sample c k ts).ring j = (s.sweepStarted c k ts).ring j :=
  State.ring_of_chn (State.broadcast_chn ..) j

theorem State.sweepStarted_keeps {α : Type} {π : Ring → α}
    (keeps : ∀ (r : Ring) seq w up, π { r with
      seq := seq, blanked := false, offWindow := false, started := up, sweep := w } = π r)
    (s : State) (c : Fin 4) (k ts : Nat) : π ((s.sweepStarted c k ts).ring c) = π (s.ring c) :=
  State.updRing_keeps (fun r => keeps r _ _ _) s c c

theorem State.sweepStarted_new (s : State) (c : Fin 4) (k ts : Nat) :
    ((s.sweepStarted c k ts).ring c).seq = wrapU 8 ((s.ring c).seq + 1) ∧
    ((s.sweepStarted c k ts).ring c).blanked = false ∧
    ((s.sweepStarted c k ts).ring c).sweep.map Sweep.seq = some (wrapU 8 ((s.ring c).seq + 1)) ∧
    ((s.sweepStarted c k ts).ring c).sweep.map Sweep.ts = some ts ∧
    ((s.sweepStarted c k ts).ring c).sweep.map Sweep.blocks = some [] := by
  rw [State.sweepStarted, State.updRing_same]
  exact ⟨rfl, rfl, rfl, rfl, rfl⟩

/-- The train of the SAMPLE of a ring that one port reads. -/
theorem State.sample_tx {c : Fin 4} {s : State} (oneSided : (s.ring c).twoSided = false) (up : (s.ring c).state.up = true)
    (k ts : Nat) : (s.sample c k ts).tx =
      .train c.val 0 (trainBytes 0x10 0 (wrapU 8 ((s.ring c).seq + 1)) (leBytes 2 (s.ringDelay c) ++
        leBytes 2 (min 65535 ((80000 * (k + s.sweepTicks c) - ts) / 40000)) ++ leBytes 1 (s.ring c).split)) :: s.tx := by
  have split := State.sweepStarted_keeps (π := Ring.split) (fun _ _ _ _ => rfl) s c k ts
  have state := State.sweepStarted_keeps (π := fun r => r.state.up) (fun _ _ _ _ => rfl) s c k ts
  have sides := State.sweepStarted_keeps (π := Ring.twoSided) (fun _ _ _ _ => rfl) s c k ts
  have args : (s.sweepStarted c k ts).sampleArgs c k ts (s.ring c).split = leBytes 2 (s.ringDelay c) ++
      leBytes 2 (min 65535 ((80000 * (k + s.sweepTicks c) - ts) / 40000)) ++ leBytes 1 (s.ring c).split := by
    rw [State.sampleArgs, if_pos (state.trans up)]
    rfl
  rw [State.sample_eq, State.broadcast_oneSided (sides.trans oneSided), split, args, ← (s.sweepStarted_new c k ts).1]
  rfl

theorem State.sample_does (s : State) (c : Fin 4) (k ts : Nat) :
    ((s.sample c k ts).ring c).seq = wrapU 8 ((s.ring c).seq + 1) ∧ ((s.sample c k ts).ring c).blanked = false ∧
    ((s.sample c k ts).ring c).sweep.map Sweep.seq = some (wrapU 8 ((s.ring c).seq + 1)) ∧
    ((s.sample c k ts).ring c).sweep.map Sweep.ts = some ts ∧ ((s.sample c k ts).ring c).sweep.map Sweep.blocks = some [] ∧
    ((s.sample c k ts).ring c).cell = (s.ring c).cell ∧ (∀ j, j ≠ c → (s.sample c k ts).ring j = s.ring j) ∧
    (s.sample c k ts).evr = s.evr ∧ ((s.ring c).twoSided = false → (s.ring c).state.up = true →
      (s.sample c k ts).tx = .train c.val 0 (trainBytes 0x10 0 (wrapU 8 ((s.ring c).seq + 1)) (leBytes 2 (s.ringDelay c) ++
        leBytes 2 (min 65535 ((80000 * (k + s.sweepTicks c) - ts) / 40000)) ++ leBytes 1 (s.ring c).split)) :: s.tx) := by
  obtain ⟨seq, blanked, number, instant, blocks⟩ := s.sweepStarted_new c k ts
  rw [s.sample_ring]
  refine ⟨seq, blanked, number, instant, blocks, ?cells, fun j other => ?others, ?events,
    fun oneSided up => State.sample_tx oneSided up k ts⟩
  case cells => exact State.sweepStarted_keeps (π := Ring.cell) (fun _ _ _ _ => rfl) s c k ts
  case others => rw [s.sample_ring, State.sweepStarted, State.updRing_other other]
  case events => exact State.broadcast_evr ..

/-! Blocks (R299, R309, R311, R312). -/

section Blocks
variable {c : Fin 4} {l : List Sys2Proof.ChainBlock} {s : State}

theorem exec_readHeld_sweeping {fromB : Bool} {mask : BitVec 16} (sweeping : (s.ring c).sweep.isSome = true) :
    exec (.readHeld c fromB mask l) s = .next ((s.train c 0x11 (if fromB = true then 1 else 0) 0 (leBytes 2 mask.toNat)).takeBlocks c
      (l.filter fun b => b.node != 0 && tb mask.toNat (b.node - 1))) :=
  congrArg Host.Outcome.next (if_pos sweeping)

theorem exec_readHeld_idle {fromB : Bool} {mask : BitVec 16} (noSweep : (s.ring c).sweep = none) :
    exec (.readHeld c fromB mask l) s = .next s :=
  congrArg Host.Outcome.next (if_neg (by simp [noSweep]))

theorem State.takeBlocks_good {b : Sys2Proof.ChainBlock} (good : blockGood b 29 = true) :
    s.takeBlocks c (b :: l) = ((s.blockHead c b).updSweep c fun w => { w with
      blocks := w.blocks ++ [(blockFrom b, blockCodes b, blockBit b 6)] }).takeBlocks c l :=
  congrArg (fun t : State => t.takeBlocks c l) (if_pos good)

theorem State.takeBlocks_bad {b : Sys2Proof.ChainBlock} (bad : blockGood b 29 = false) :
    s.takeBlocks c (b :: l) = ((s.blockError c b.node).updSweep c fun w => { w with bad := w.bad ++ [b.node] }).takeBlocks c l :=
  congrArg (fun t : State => t.takeBlocks c l) (if_neg (by simp [bad]))

variable {ns : Nat} {w : Sweep} {u : State}

theorem exec_sweepComplete_whole (taken : u = s.takeBlocks c l) (sweeping : (s.ring c).sweep.isSome = true)
    (sweep : (u.ring c).sweep = some w) (unbroken : u.breakShown c w = none) :
    exec (.sweepComplete c l ns) s = .next (u.updRing c fun x => { x with sweep := none, sweepDue := some (w, ns) }) := by
  subst taken
  refine congrArg Host.Outcome.next ?_
  rw [if_pos sweeping, sweep]
  dsimp only
  rw [unbroken]
  exact State.updRing_congr (by rw [sweep]; rfl)

theorem exec_sweepComplete_broken {a b : Nat} (taken : u = s.takeBlocks c l) (sweeping : (s.ring c).sweep.isSome = true)
    (sweep : (u.ring c).sweep = some w) (broken : u.breakShown c w = some (a, b)) :
    exec (.sweepComplete c l ns) s = .next ((u.ringBreak c a b (some true)).updRing c fun x => { x with
      sweep := none, sweepDue := x.sweep.map fun w => (w, ns) }) := by
  subst taken
  refine congrArg Host.Outcome.next ?_
  rw [if_pos sweeping, sweep]
  dsimp only
  rw [broken]

theorem exec_sweepComplete_idle (noSweep : (s.ring c).sweep = none) : exec (.sweepComplete c l ns) s = .next s := by
  refine congrArg Host.Outcome.next ?_
  rw [if_neg (by simp [noSweep]), noSweep]

end Blocks

end Sys2Proof.Machine
end

section
/-! SUPPORT. The values of a sweep at the tick after it, and the cells without one (R311, R316). -/

namespace Sys2Proof.Machine

/-! A fold that deals with each entry of a list once, where the entries of the list matter. -/

/-- As `foldl_reaches`, of a fold in which only what stands in the list is known to spoil nothing. -/
theorem foldl_reaches_mem {α : Type} {f : State → α → State} {before after : State → Prop} {c : α} {l : List α}
    (others : ∀ s, ∀ x ∈ l, x ≠ c → before s → before (f s x)) (own : ∀ s, before s → after (f s c))
    (later : ∀ s, ∀ x ∈ l, x ≠ c → after s → after (f s x)) (mem : c ∈ l) (once : l.Nodup) {s : State}
    (start : before s) : after (l.foldl f s) := by
  obtain ⟨l₁, l₂, rfl⟩ := List.append_of_mem mem
  have alone := (List.nodup_middle.1 once).notMem
  rw [List.foldl_append, List.foldl_cons]
  refine List.foldlRecOn l₂ f (own _ (List.foldlRecOn l₁ f start fun t held x hx => ?_)) fun t held x hx => ?_
  · have inside := List.mem_append_left l₂ hx
    exact others t x (by simp [hx]) (fun same => alone (same ▸ inside)) held
  · have inside := List.mem_append_right l₁ hx
    exact later t x (by simp [hx]) (fun same => alone (same ▸ inside)) held

/-! The cells of one node (R301, R311). -/

/-- No two inputs of a node measure the same cell. -/
theorem State.cellsOf_nodup (s : State) (c : Fin 4) (n : Nat) : ((s.cellsOf c n).map Prod.snd).Nodup := by
  unfold State.cellsOf
  cases s.nodeRec c n with
  | none => exact List.nodup_nil
  | some r =>
    rw [Option.map_some, Option.getD_some, Rec.nodeCells, List.map_map]
    have order : (Prod.snd ∘ fun x : Nat × Nat => (x.1, r.u16 0x0A + x.2)) = (r.u16 0x0A + ·) ∘ Prod.snd := rfl
    rw [order, ← List.map_map, List.zipIdx_map_snd]
    exact (List.nodup_range' ..).map fun _ _ => Nat.add_left_cancel

section Cells
variable {c : Fin 4} {k : Nat} {g : State → Nat × Nat → Cell → Cell} {l : List (Nat × Nat)}

theorem State.foldl_updCell_cell_other (away : ∀ x ∈ l, x.2 ≠ k) (s : State) :
    ((l.foldl (fun s x => s.updCell c x.2 (g s x)) s).ring c).cellAt k = (s.ring c).cellAt k :=
  List.foldlRecOn (motive := fun t => (t.ring c).cellAt k = (s.ring c).cellAt k) l _ rfl fun t held _ mem =>
    (State.updCell_cellAt_other (away _ mem).symm t c _).trans held

/-- The cell of one input takes what its update gives it. -/
theorem State.foldl_updCell_cell_own {i : Nat} {post : Cell → Prop} {s : State} (mem : (i, k) ∈ l) (once : (l.map Prod.snd).Nodup)
    (first : 1 ≤ k) (last : k ≤ 288) (gives : ∀ t, post (g t (i, k) ((s.ring c).cellAt k))) :
    post (((l.foldl (fun s x => s.updCell c x.2 (g s x)) s).ring c).cellAt k) := by
  have apart : ∀ x ∈ l, x ≠ (i, k) → k ≠ x.2 := fun _ hx other same =>
    other (List.inj_on_of_nodup_map once hx mem same.symm)
  refine foldl_reaches_mem (before := fun t => (t.ring c).cellAt k = (s.ring c).cellAt k)
    (after := fun t => post ((t.ring c).cellAt k)) (fun t x hx other held => ?_) (fun t held => ?_)
    (fun t x hx other held => ?_) mem once.of_map rfl
  · exact (State.updCell_cellAt_other (apart x hx other) t c _).trans held
  · rw [State.updCell_cellAt_same first last, held]
    exact gives t
  · rw [State.updCell_cellAt_other (apart x hx other)]
    exact held

end Cells

/-! One node's values (R311). -/

section Values
variable {c : Fin 4} {w : Sweep} {n : Nat} {s : State}

/-- A node whose block is missing, once that has been counted. -/
def State.missed (s : State) (c : Fin 4) (n : Nat) : State :=
  if ((s.ring c).nodeAt n).present then s.updNode c n fun x => { x with errMissing := bump 16 x.errMissing } else s

theorem State.nodeValues_missing (missing : w.blocks.find? (fun b => b.1 = n) = none) :
    s.nodeValues c w n = (s.cellsOf c n).foldl (fun t x => t.updCell c x.2 fun y =>
      { y with valid := false, clipped := false, held := false, skewed := false }) (s.missed c n) := by
  have cells : (s.missed c n).cellsOf c n = s.cellsOf c n := by
    unfold State.missed
    split
    · exact State.cellsOf_of_cfg (State.updNode_cfg ..) c n
    · rfl
  rw [← cells]
  unfold State.nodeValues
  rw [missing]
  rfl

/-- The value that a code gives a cell of a node; `sound` that the node is configured and its path has not failed. -/
def Sweep.value (w : Sweep) (n code tick : Nat) (sound held : Bool) (x : Cell) : Cell :=
  if sound then
    { x with valid := true, clipped := code = 0 || code = 4095, held := held, seq := w.seq
             skewed := w.kind = .skewed && w.lastNormal < n, v := 10000 + 5 * code, unmonitored := false, validAt := tick }
  else { x with valid := false, clipped := false, held := false, skewed := false }

theorem State.nodeValues_found {codes : List Nat} {held : Bool}
    (found : w.blocks.find? (fun b => b.1 = n) = some (n, codes, held)) :
    s.nodeValues c w n = (s.cellsOf c n).foldl (fun t x => t.updCell c x.2 (w.value n (codes.getD x.1 0 % 4096) t.sys.tick
      (((s.ring c).nodeAt n).present && ((s.ring c).nodeAt n).configured && ((s.ring c).nodeAt n).diagDone
        && !(((s.ring c).nodeAt n).failedPaths[x.1]?.getD false)) held)) s := by
  unfold State.nodeValues
  rw [found]
  rfl

/-- A node's values leave every node as it is but for the count of its missing blocks. -/
theorem State.nodeValues_nodeAt {α : Type} {π : Node → α} (keeps : ∀ x e, π { x with errMissing := e } = π x) (s : State)
    (c : Fin 4) (w : Sweep) (n : Nat) (j : Fin 4) (m : Nat) :
    π (((s.nodeValues c w n).ring j).nodeAt m) = π ((s.ring j).nodeAt m) := by
  cases found : w.blocks.find? fun b => b.1 = n with
  | none =>
    rw [State.nodeValues_missing found, State.foldl_updCell_nodeAt, State.missed]
    split
    · exact State.updNode_nodeAt_keeps (fun x => keeps x _) s c n j m
    · rfl
  | some b =>
    obtain ⟨i, codes, held⟩ := b
    have own : i = n := by simpa using List.find?_some found
    subst own
    rw [State.nodeValues_found found, State.foldl_updCell_nodeAt]

theorem State.nodeValues_cfg (s : State) (c : Fin 4) (w : Sweep) (n : Nat) : (s.nodeValues c w n).cfg = s.cfg :=
  (State.nodeValues_kept s c w n (List.Subset.refl _) .rfl).only .cfg (by decide)

theorem State.missed_cellAt (s : State) (c : Fin 4) (n k : Nat) :
    ((s.missed c n).ring c).cellAt k = (s.ring c).cellAt k := by
  unfold State.missed
  split
  · exact State.updNode_cellAt ..
  · rfl

theorem State.nodeValues_cell_other {k : Nat} (away : ∀ x ∈ s.cellsOf c n, x.2 ≠ k) :
    ((s.nodeValues c w n).ring c).cellAt k = (s.ring c).cellAt k := by
  cases found : w.blocks.find? fun b => b.1 = n with
  | none => rw [State.nodeValues_missing found, State.foldl_updCell_cell_other away, State.missed_cellAt]
  | some b =>
    obtain ⟨i, codes, held⟩ := b
    have own : i = n := by simpa using List.find?_some found
    subst own
    rw [State.nodeValues_found found, State.foldl_updCell_cell_other away]

end Values

/-! The sweep ends (R308, R311, R325, R332). -/

/-- The values of every node. -/
def State.sweepValues (s : State) (c : Fin 4) (w : Sweep) : State :=
  (s.nodeList c).foldl (fun s n => s.nodeValues c w n) s

/-- Beside the values, the end of a sweep changes what the ring keeps of it. -/
theorem State.sweepEnd_keeps {α : Type} {π : Ring → α}
    (keeps : ∀ (r : Ring) w whole vs t readNs, π (r.swept w whole vs t readNs) = π r) (s : State) (c : Fin 4) (w : Sweep)
    (ns : Nat) (j : Fin 4) : π ((s.sweepEnd c w ns).ring j) = π ((s.sweepValues c w).ring j) := by
  unfold State.sweepEnd
  extract_lets unmon whole t vs u all
  have judged := (State.sweepJudge_kept (if (unmon && all) = true then u.ev 0x8022 (chnInst c.val 0) else u) c all
    (List.Subset.refl _) .rfl).only .chn (by decide)
  have swept : π (u.ring j) = π (t.ring j) := State.updRing_keeps (fun r => keeps r _ _ _ _ _) t c j
  rw [State.ring_of_chn judged]
  split
  · rw [State.ev_ring]
    exact swept
  · exact swept

/-- What decides whether a node's values are VALID (R311, R315, R316). -/
def Node.sound (x : Node) (i : Nat) : Bool := x.present && x.configured && x.diagDone && !(x.failedPaths[i]?.getD false)

/-- A state on the way to the values of node `n`, with cell `k` as it was. -/
structure State.Awaits (s : State) (c : Fin 4) (n k : Nat) (t : State) : Prop where
  cfg : t.cfg = s.cfg
  cell : (t.ring c).cellAt k = (s.ring c).cellAt k
  sound : ((t.ring c).nodeAt n).sound = ((s.ring c).nodeAt n).sound

/-- A cell that has taken the value of a code. -/
def Cell.Takes (x : Cell) (code : Nat) (held : Bool) (seq : Nat) : Prop :=
  x.valid = true ∧ x.v = 10000 + 5 * code ∧ x.held = held ∧ x.seq = seq ∧ x.unmonitored = false

/-- A cell that has lost its value, and keeps the number. -/
def Cell.Loses (x : Cell) (v : Nat) : Prop := x.valid = false ∧ x.v = v

section Cell
variable {c : Fin 4} {n i k : Nat} {w : Sweep} {s : State} (listed : n ∈ s.nodeList c)
  (own : (i, k) ∈ s.cellsOf c n) (first : 1 ≤ k) (last : k ≤ 288)
  (away : ∀ m ∈ s.nodeList c, m ≠ n → ∀ x ∈ s.cellsOf c m, x.2 ≠ k)

include listed away in
/-- A cell of one node alone has the value that its node gives it. -/
theorem State.sweepValues_cell {post : Cell → Prop}
    (gives : ∀ t, s.Awaits c n k t → post (((t.nodeValues c w n).ring c).cellAt k)) :
    post (((s.sweepValues c w).ring c).cellAt k) := by
  have stays (t : State) (m : Nat) (cfg : t.cfg = s.cfg) (hm : m ∈ s.nodeList c) (other : m ≠ n) :
      ((t.nodeValues c w m).ring c).cellAt k = (t.ring c).cellAt k :=
    State.nodeValues_cell_other (by rw [State.cellsOf_of_cfg cfg]; exact away m hm other)
  have once : (s.nodeList c).Nodup := List.nodup_range.map fun _ _ => Nat.add_right_cancel
  refine (foldl_reaches_mem (before := s.Awaits c n k) (after := fun t => t.cfg = s.cfg ∧ post ((t.ring c).cellAt k))
    (fun t m hm other held => ?_) (fun t held => ?_) (fun t m hm other held => ?_) listed once ⟨rfl, rfl, rfl⟩).2
  · exact ⟨(t.nodeValues_cfg c w m).trans held.cfg, (stays t m held.cfg hm other).trans held.cell,
      (State.nodeValues_nodeAt (π := Node.sound) (fun _ _ => rfl) t c w m c n).trans held.sound⟩
  · exact ⟨(t.nodeValues_cfg c w n).trans held.cfg, gives t held⟩
  · obtain ⟨cfg, value⟩ := held
    exact ⟨(t.nodeValues_cfg c w m).trans cfg, by rw [stays t m cfg hm other]; exact value⟩

include listed own first last away

theorem State.sweepEnd_found {codes : List Nat} {held : Bool}
    (found : w.blocks.find? (fun b => b.1 = n) = some (n, codes, held)) (present : ((s.ring c).nodeAt n).present = true)
    (configured : ((s.ring c).nodeAt n).configured = true) (diagDone : ((s.ring c).nodeAt n).diagDone = true)
    (path : ((s.ring c).nodeAt n).failedPaths[i]?.getD false = false) (ns : Nat) :
    (((s.sweepEnd c w ns).ring c).cellAt k).Takes (codes.getD i 0 % 4096) held w.seq := by
  have sound : ((s.ring c).nodeAt n).sound i = true := by simp [Node.sound, present, configured, diagDone, path]
  rw [State.sweepEnd_keeps (π := fun r => r.cellAt k) (fun _ _ _ _ _ _ => rfl) s c w ns c]
  refine State.sweepValues_cell (post := fun x => x.Takes (codes.getD i 0 % 4096) held w.seq) listed away fun t awaits => ?_
  rw [← awaits.sound, Node.sound] at sound
  rw [State.nodeValues_found found]
  refine State.foldl_updCell_cell_own (post := fun x => x.Takes (codes.getD i 0 % 4096) held w.seq)
    (by rwa [State.cellsOf_of_cfg awaits.cfg]) (t.cellsOf_nodup c n) first last fun u => ?_
  rw [Sweep.value, if_pos sound]
  exact ⟨rfl, rfl, rfl, rfl, rfl⟩

theorem State.sweepEnd_missing (missing : w.blocks.find? (fun b => b.1 = n) = none) (ns : Nat) :
    (((s.sweepEnd c w ns).ring c).cellAt k).Loses ((s.ring c).cellAt k).v := by
  rw [State.sweepEnd_keeps (π := fun r => r.cellAt k) (fun _ _ _ _ _ _ => rfl) s c w ns c]
  refine State.sweepValues_cell (post := fun x => x.Loses ((s.ring c).cellAt k).v) listed away fun t awaits => ?_
  rw [State.nodeValues_missing missing]
  refine State.foldl_updCell_cell_own (post := fun x => x.Loses ((s.ring c).cellAt k).v)
    (by rwa [State.cellsOf_of_cfg awaits.cfg]) (t.cellsOf_nodup c n) first last fun u => ?_
  have number := congrArg Cell.v ((t.missed_cellAt c n k).trans awaits.cell)
  exact ⟨rfl, number⟩

end Cell

/-! Temperatures at the tick (R311). -/

/-- The end of a sweep leaves every node as it is but for the count of its missing blocks. -/
theorem State.sweepEnd_nodeAt {α : Type} {π : Node → α} (keeps : ∀ x e, π { x with errMissing := e } = π x) (s : State)
    (c : Fin 4) (w : Sweep) (ns : Nat) (j : Fin 4) (m : Nat) :
    π (((s.sweepEnd c w ns).ring j).nodeAt m) = π ((s.ring j).nodeAt m) :=
  (State.sweepEnd_keeps (π := fun r => π (r.nodeAt m)) (fun _ _ _ _ _ _ => rfl) s c w ns j).trans
    (foldl_same (fun t => π ((t.ring j).nodeAt m)) (fun t n => State.nodeValues_nodeAt keeps t c w n j m) _ s)

/-- The temperatures of a node and those that wait for the tick. -/
def Node.temps (x : Node) : Vector (Bool × Int) 4 × Option (Vector (Bool × Int) 4) := (x.temp, x.tempNext)

/-- Those that wait take effect. -/
def takeEffect {α : Type} (x : α × Option α) : α × Option α := (x.2.getD x.1, none)

/-- A ring's nodes at the tick. -/
def State.tempTick (s : State) (c : Fin 4) (dues : Bool) : State :=
  s.updRing c fun r => { r with
    diagDue := r.diagDue || (dues && r.state.up)
    node := r.node.map fun (x : Node) => { x with temp := x.tempNext.getD x.temp, tempNext := none } }

theorem State.tempTick_temps (s : State) (c : Fin 4) (dues : Bool) (j : Fin 4) (n : Fin 16) :
    (((s.tempTick c dues).ring j).nodeAt (n.val + 1)).temps =
      if c = j then takeEffect ((s.ring j).nodeAt (n.val + 1)).temps else ((s.ring j).nodeAt (n.val + 1)).temps := by
  simp only [Ring.nodeAt_succ, State.tempTick, State.updRing_ring]
  split
  · rw [Vector.getElem_map]
    rfl
  · rfl

/-- What one chain delivers at the tick. -/
def State.ringTick (s : State) (c : Fin 4) (dues : Bool) : State :=
  match ((s.tempTick c dues).ring c).sweepDue with
  | some (w, ns) => (s.tempTick c dues).sweepEnd c w ns
  | none => s.tempTick c dues

theorem State.chainTick_eq (s : State) :
    s.chainTick = (List.finRange 4).foldl (fun t c => t.ringTick c (s.sys.tick % (500000 * s.chn.diagS) = 0)) s := rfl

theorem State.ringTick_temps (s : State) (c : Fin 4) (dues : Bool) (j : Fin 4) (n : Fin 16) :
    (((s.ringTick c dues).ring j).nodeAt (n.val + 1)).temps =
      if c = j then takeEffect ((s.ring j).nodeAt (n.val + 1)).temps else ((s.ring j).nodeAt (n.val + 1)).temps := by
  rw [← State.tempTick_temps s c dues, State.ringTick]
  split
  · exact State.sweepEnd_nodeAt (π := Node.temps) (fun _ _ => rfl) _ c _ _ j (n.val + 1)
  · rfl

theorem State.chainTick_temp (s : State) (c : Fin 4) (n : Fin 16) : ((s.chainTick.ring c).node[n.val]).temp =
    ((s.ring c).node[n.val]).tempNext.getD ((s.ring c).node[n.val]).temp := by
  rw [State.chainTick_eq, ← Ring.nodeAt_succ, ← Ring.nodeAt_succ]
  exact congrArg Prod.fst (foldl_each (fun t j => ((t.ring j).nodeAt (n.val + 1)).temps)
    (fun t i j => t.ringTick_temps i _ j n) s c)

/-! A cell without a VALID value (R311). -/

section Unmonitored
variable {c : Fin 4} {k : Fin 288} {s : State}

theorem exec_cellsUnmonitored_stale {n : Nat}
    (measures : (s.nodeList c).find? (fun n => (s.cellsOf c n).any fun x => x.2 = k.val + 1) = some n)
    (monitored : ((s.ring c).cellAt (k.val + 1)).unmonitored = false)
    (stale : ((s.ring c).cellAt (k.val + 1)).validAt + 500 * s.chn.staleMs ≤ s.sys.tick + 1) :
    exec (.cellsUnmonitored c k) s = .next ((((s.updCell c (k.val + 1) fun x => { x with
      unmonitored := true, unmonAt := s.sys.tick }).ev 0x8021 (chnInst c.val n)).degrade).armCheck) := by
  refine congrArg Host.Outcome.next ?_
  rw [measures]
  exact if_neg (by simp [monitored, stale])

theorem exec_cellsUnmonitored_idle (idle : ((s.ring c).cellAt (k.val + 1)).unmonitored = true ∨
    s.sys.tick + 1 < ((s.ring c).cellAt (k.val + 1)).validAt + 500 * s.chn.staleMs) :
    exec (.cellsUnmonitored c k) s = .next s := by
  refine congrArg Host.Outcome.next ?_
  split
  · rfl
  · refine if_pos ?_
    rcases idle with unmonitored | fresh
    · simp [unmonitored]
    · simp [fresh]

end Unmonitored

end Sys2Proof.Machine
end

section
/-! SUPPORT. Breaks of a ring, their repair, and the temperatures of its nodes (R298, R299, R311 to R315, R321). -/

namespace Sys2Proof.Machine

/-! A node that goes MISSING (R303, R311, R315). -/

/-- A node without an address or out of reach. -/
def State.noNode (s : State) (c : Fin 4) (n : Nat) : State :=
  s.updNode c n fun x => { x with present := false, configured := false, diagDone := false }

/-- Its cells, UNMONITORED. -/
def State.noCells (s : State) (c : Fin 4) (n : Nat) : State :=
  ((s.noNode c n).cellsOf c n).foldl (fun s k =>
    s.updCell c k.2 fun x => { x with valid := false, unmonitored := true
                                      unmonAt := if x.unmonitored then x.unmonAt else s.sys.tick }) (s.noNode c n)

/-- It is reported. -/
def State.goneNode (s : State) (c : Fin 4) (n : Nat) : State :=
  ((s.noCells c n).ev 0x8004 (chnInst c.val n)).degrade

/-- And with it a cell that was not UNMONITORED before. -/
theorem State.missNode_cases (s : State) (c : Fin 4) (n : Nat) :
    s.missNode c n = (s.goneNode c n).ev 0x8021 (chnInst c.val n) ∨ s.missNode c n = s.goneNode c n := by
  unfold State.missNode
  extract_lets t new u v
  split
  · exact .inl rfl
  · exact .inr rfl

theorem State.missNode_ring (s : State) (c : Fin 4) (n : Nat) (j : Fin 4) :
    (s.missNode c n).ring j = (s.noCells c n).ring j := by
  have gone : (s.goneNode c n).ring j = (s.noCells c n).ring j := by
    rw [State.goneNode, State.degrade_ring, State.ev_ring]
  rcases s.missNode_cases c n with more | alone
  · rw [more, State.ev_ring, gone]
  · rw [alone, gone]

theorem State.goneNode_sys (s : State) (c : Fin 4) (n : Nat) :
    (s.goneNode c n).sys = { s.sys with degraded := true } := by
  have cells : (s.noCells c n).sys = s.sys := State.foldl_updCell_sys ..
  rw [State.goneNode, State.degrade, State.ev_sys, cells]

theorem State.missNode_sys (s : State) (c : Fin 4) (n : Nat) : (s.missNode c n).sys = { s.sys with degraded := true } := by
  rcases s.missNode_cases c n with more | alone
  · rw [more, State.ev_sys, State.goneNode_sys]
  · rw [alone, State.goneNode_sys]

/-- A node that goes MISSING changes nodes and cells of its ring. -/
theorem State.missNode_keeps {α : Type} {π : Ring → α} (nodes : ∀ r v, π { r with node := v } = π r)
    (cells : ∀ r v, π { r with cell := v } = π r) (s : State) (c : Fin 4) (n : Nat) (j : Fin 4) :
    π ((s.missNode c n).ring j) = π (s.ring j) := by
  rw [s.missNode_ring]
  exact (State.foldl_updCell_keeps _ _ cells j).trans
    (State.updNode_keeps nodes s c n _ j)

theorem State.missNode_other {c j : Fin 4} (other : j ≠ c) (s : State) (n : Nat) : (s.missNode c n).ring j = s.ring j := by
  rw [s.missNode_ring]
  exact (State.foldl_updCell_other _ _ other).trans
    (State.updNode_other other s n _)

theorem State.missNode_present (s : State) (c : Fin 4) (n : Nat) (m : Fin 16) :
    (((s.missNode c n).ring c).nodeAt (m.val + 1)).present =
      (((s.ring c).nodeAt (m.val + 1)).present && n != m.val + 1) := by
  rw [s.missNode_ring, State.noCells, State.foldl_updCell_nodeAt, State.noNode]
  by_cases own : n = m.val + 1
  · subst own
    rw [State.updNode_nodeAt_same]
    simp
  · rw [State.updNode_nodeAt_other (Ne.symm own)]
    simp [own]

theorem State.foldl_missNode_present (s : State) (c : Fin 4) (l : List Nat) (m : Fin 16) :
    (((l.foldl (fun t n => t.missNode c n) s).ring c).nodeAt (m.val + 1)).present =
      (((s.ring c).nodeAt (m.val + 1)).present && !l.contains (m.val + 1)) := by
  induction l generalizing s with
  | nil => simp
  | cons n l ih =>
    rw [List.foldl_cons, ih, State.missNode_present, List.contains_cons, Bool.and_assoc, Bool.not_or, bne, Bool.beq_comm]

/-! Between the two sides of a break (R315). -/

theorem State.missBetween_keeps {α : Type} {π : Ring → α} (nodes : ∀ r v, π { r with node := v } = π r)
    (cells : ∀ r v, π { r with cell := v } = π r) (s : State) (c : Fin 4) (a b : Nat) (j : Fin 4) :
    π ((s.missBetween c a b).ring j) = π (s.ring j) :=
  foldl_same (fun t => π (t.ring j)) (fun t n => State.missNode_keeps nodes cells t c n j) _ s

theorem State.missBetween_other {c j : Fin 4} (other : j ≠ c) (s : State) (a b : Nat) :
    (s.missBetween c a b).ring j = s.ring j :=
  foldl_same (fun t => t.ring j) (fun t n => State.missNode_other other t n) _ s

theorem State.missBetween_present (s : State) (c : Fin 4) (a b : Nat) {n : Fin 16} (inside : n.val < s.ringNodes c) :
    (((s.missBetween c a b).ring c).nodeAt (n.val + 1)).present =
      (((s.ring c).nodeAt (n.val + 1)).present && !(decide (a < n.val + 1) && decide (n.val + 1 < b))) := by
  have listed : n.val + 1 ∈ s.nodeList c := State.mem_nodeList.2 ⟨by omega, inside⟩
  rw [State.missBetween, State.foldl_missNode_present]
  cases present : ((s.ring c).nodeAt (n.val + 1)).present with
  | false => rfl
  | true => simp [listed, present]

/-- DEGRADED stands already. -/
theorem State.missBetween_degraded (s : State) (c : Fin 4) (a b : Nat) :
    (s.degrade.missBetween c a b).sys = s.degrade.sys :=
  List.foldlRecOn (motive := fun (t : State) => t.sys = s.degrade.sys) _ _ rfl fun t held n _ => by
    rw [State.missNode_sys, held]
    rfl

theorem State.missBetween_adjacent (s : State) (c : Fin 4) (a : Nat) : s.missBetween c a (a + 1) = s := by
  have none_ : ((s.nodeList c).filter fun n => a < n && n < a + 1 && ((s.ring c).nodeAt n).present) = [] := by
    refine List.filter_eq_nil_iff.2 fun n _ => ?_
    have notBetween : ¬(a < n ∧ n < a + 1) := by omega
    simp only [Bool.and_eq_true, decide_eq_true_eq, notBetween, false_and, not_false_eq_true]
  rw [State.missBetween, none_, List.foldl_nil]

/-! A ring breaks (R312 to R315). -/

/-- A ring that is two chains from now on, with its event. -/
def State.cutRing (s : State) (c : Fin 4) (a b : Nat) : State :=
  (s.updRing c fun r => { r.cut (s.ringNodes c) a b with
    state := .twoChain, brk := some (a, b), split := a, nBreaks := bump 8 r.nBreaks }).ev 0x8012 (chnInst c.val 0)

section Break
variable {c : Fin 4} {a b : Nat} {s : State}

theorem State.cutRing_ring (s : State) (c : Fin 4) (a b : Nat) : (s.cutRing c a b).ring c =
    { (s.ring c).cut (s.ringNodes c) a b with
      state := .twoChain, brk := some (a, b), split := a, nBreaks := bump 8 (s.ring c).nBreaks } := by
  rw [State.cutRing, State.ev_ring, State.updRing_same]

theorem State.cutRing_present (s : State) (c : Fin 4) (a b : Nat) (n : Fin 16) :
    (((s.cutRing c a b).ring c).nodeAt (n.val + 1)).present = ((s.ring c).nodeAt (n.val + 1)).present := by
  rw [s.cutRing_ring, Ring.nodeAt_succ, Ring.nodeAt_succ, Ring.cut, mapV_get]

theorem State.ringBreak_whole (whole : (s.ring c).state = .ring) (idle : s.sys.passage = .none) :
    s.ringBreak c a b none = (s.cutRing c a b).degrade.missBetween c a b := by
  have stands : ((s.cutRing c a b).degrade.missBetween c a b).armCheck = (s.cutRing c a b).degrade.missBetween c a b := by
    refine State.armCheck_idle ?_
    rw [State.missBetween_degraded, State.degrade_passage, State.cutRing, State.ev_sys, State.updRing_sys, idle]
    decide
  exact (if_pos whole).trans stands

theorem State.ringBreak_does (whole : (s.ring c).state = .ring) (idle : s.sys.passage = .none) :
    ((s.ringBreak c a b none).ring c).state = .twoChain ∧ ((s.ringBreak c a b none).ring c).brk = some (a, b) ∧
    ((s.ringBreak c a b none).ring c).split = a ∧ ((s.ringBreak c a b none).ring c).nBreaks = bump 8 (s.ring c).nBreaks ∧
    ((s.ringBreak c a b none).ring c).probeA = (0, 0) ∧ ((s.ringBreak c a b none).ring c).probeB = (0, 0) ∧
    (∀ n : Fin 16, n.val < s.ringNodes c → ((s.ringBreak c a b none).ring c).node[n.val].present =
      ((s.ring c).node[n.val].present && !(decide (a < n.val + 1) && decide (n.val + 1 < b)))) ∧
    (s.ringBreak c a b none).sys.degraded = true ∧ (∀ j, j ≠ c → (s.ringBreak c a b none).ring j = s.ring j) ∧
    (b = a + 1 → (s.ringBreak c a b none).evr = s.evs [(0x8012, chnInst c.val 0, 0)]) := by
  rw [State.ringBreak_whole whole idle]
  have own {α : Type} {π : Ring → α} (nodes : ∀ r v, π { r with node := v } = π r)
      (cells : ∀ r v, π { r with cell := v } = π r) := (State.missBetween_keeps nodes cells (s.cutRing c a b).degrade c a b
        c).trans (congrArg π (s.cutRing_ring c a b))
  refine ⟨own (π := Ring.state) (fun _ _ => rfl) fun _ _ => rfl, own (π := Ring.brk) (fun _ _ => rfl) fun _ _ => rfl,
    own (π := Ring.split) (fun _ _ => rfl) fun _ _ => rfl, own (π := Ring.nBreaks) (fun _ _ => rfl) fun _ _ => rfl,
    own (π := Ring.probeA) (fun _ _ => rfl) fun _ _ => rfl, own (π := Ring.probeB) (fun _ _ => rfl) fun _ _ => rfl,
    fun n inside => ?nodes, ?degraded, fun j other => ?others, fun adjacent => ?events⟩
  case nodes =>
    have nodes : (s.cutRing c a b).degrade.ringNodes c = s.ringNodes c := State.ringNodes_of_cfg (State.ev_cfg ..) c
    rw [← Ring.nodeAt_succ, ← Ring.nodeAt_succ, State.missBetween_present _ c a b (by rwa [nodes]), State.degrade_ring,
      State.cutRing_present]
  case degraded => rw [State.missBetween_degraded, State.degrade_degraded]
  case others => rw [State.missBetween_other other, State.degrade_ring, State.cutRing, State.ev_ring, State.updRing_other other]
  case events =>
    rw [adjacent, State.missBetween_adjacent, State.degrade_evr]
    exact (((State.SameEv.refl s).updRing c _).ev _ _ _).evr.symm

theorem exec_ringBroken_up {inSweep : Option Bool} {displaced lost : List Sys2Proof.GapOp} (up : (s.ring c).state.up = true)
    (order : a < b) (inside : b ≤ s.ringNodes c + 1) :
    exec (.ringBroken c a b inSweep displaced lost) s = .next (
      let u := lost.foldl (fun s o => s.breakLost c o) (s.ringBreak c a b inSweep);
      if inSweep.isSome = true ∧ (s.ring c).sweep.isSome = true then u.gapDisplace c displaced else u) := by
  refine congrArg Host.Outcome.next ((if_neg ?_).trans (if_congr (by rw [Bool.and_eq_true]) rfl rfl))
  have notBehind : ¬b ≤ a := by omega
  have notBeyond : ¬s.ringNodes c + 1 < b := by omega
  simp [up, notBehind, notBeyond]

theorem exec_ringBroken_idle {inSweep : Option Bool} {displaced lost : List Sys2Proof.GapOp}
    (idle : (s.ring c).state.up = false ∨ b ≤ a ∨ s.ringNodes c + 1 < b) :
    exec (.ringBroken c a b inSweep displaced lost) s = .next s := by
  refine congrArg Host.Outcome.next (if_pos ?_)
  rcases idle with down | behind | beyond
  · simp [down]
  · simp [behind]
  · simp [beyond]

/-- A SAMPLE that had passed the break makes the sweep SPLIT. -/
theorem State.breakSweep_passed {w : Sweep} (sweep : (s.ring c).sweep = some w) :
    s.breakSweep c true a = (s.updSweep c fun w => { w with kind := .split }).ev 0x8010 (chnInst c.val 0) := by
  simp only [State.breakSweep, sweep, if_true]

end Break

/-! PROBE (R298, R312, R314, R321). -/

section Probe
variable {c : Fin 4} {fromB passed : Bool} {l : List Sys2Proof.ChainBlock} {a b : Nat} {s : State}

theorem State.probeOut_state (s : State) (c : Fin 4) (n : Fin 17) (fromB : Bool) (l : List Sys2Proof.ChainBlock) :
    ((s.probeOut c n fromB l).ring c).state = (s.ring c).state :=
  (State.takeReplies_keeps (π := Ring.state) (fun _ _ => rfl) (fun _ _ => rfl) _ c 6 l c).trans
    (State.gapRun_keeps (π := Ring.state) (fun _ _ => rfl) (fun _ _ => rfl) s c (.probe n) c)

theorem State.probeSeen_whole {n : Nat} {ok : Bool} (whole : (s.ring c).state = .ring) : s.probeSeen c n fromB ok = s :=
  if_neg (by simp [whole])

theorem State.probeSeen_fromA {n : Nat} {ok : Bool} (twoChain : (s.ring c).state = .twoChain)
    (target : n = s.probeTarget c false) :
    s.probeSeen c n false ok = s.updRing c fun r => { r with probeA := probeCount s.sys.tick ok r.probeA } :=
  if_pos (by simp [twoChain, target])

/-- The condition under which a PROBE runs. -/
theorem probe_runs {n : Fin 17} (counted : (s.ring c).state.up = true ∨ (s.ring c).state = .enumerated)
    (gap : s.gapFor c (.probe n) = true) :
    ¬(!((s.ring c).state.up || (s.ring c).state = .enumerated) || !s.gapFor c (.probe n)) = true := by
  rcases counted with up | enumerated
  · simp [up, gap]
  · simp [enumerated, gap]

theorem exec_probe_ring (counted : (s.ring c).state.up = true ∨ (s.ring c).state = .enumerated)
    (gap : s.gapFor c (.probe 0) = true) (noBreak : ¬((s.ring c).state = .ring ∧ fromB = false ∧ passed = false)) :
    exec (.probe c 0 fromB passed l a b) s = .next ((s.probeOut c 0 fromB l).probeSeen c 0 fromB passed) := by
  refine congrArg Host.Outcome.next ((if_neg (probe_runs counted gap)).trans ((if_pos rfl).trans (if_neg ?_)))
  simpa [and_assoc] using noBreak

theorem exec_probe_breaks (whole : (s.ring c).state = .ring) (gap : s.gapFor c (.probe 0) = true) :
    exec (.probe c 0 false false l a b) s = .next ((s.probeOut c 0 false l).ringBreak c (min a (s.ringNodes c))
      (min (max b (min a (s.ringNodes c) + 1)) (s.ringNodes c + 1)) none) := by
  have up : (s.ring c).state.up = true := by rw [whole]; rfl
  have seen : (s.probeOut c 0 false l).probeSeen c 0 false false = s.probeOut c 0 false l :=
    State.probeSeen_whole ((s.probeOut_state c 0 false l).trans whole)
  refine congrArg Host.Outcome.next ((if_neg (probe_runs (.inl up) gap)).trans ((if_pos rfl).trans
    ((if_pos (by simp [whole])).trans ?_)))
  exact congrArg (fun u : State => u.ringBreak c _ _ none) seen

theorem exec_probe_node {n : Fin 17} (node : n ≠ 0) (counted : (s.ring c).state.up = true ∨ (s.ring c).state = .enumerated)
    (gap : s.gapFor c (.probe n) = true) :
    exec (.probe c n fromB passed l a b) s = .next (((s.probeOut c n fromB l).probeSeen c n.val fromB
      (!(repliesOf n.val 6 l).isEmpty)).probeNode c n.val (s.probeAsked c n.val fromB) (repliesOf n.val 6 l)) :=
  congrArg Host.Outcome.next ((if_neg (probe_runs counted gap)).trans (if_neg (mt Fin.ext node)))

theorem exec_probe_idle {n : Fin 17} (idle : ((s.ring c).state.up = false ∧ (s.ring c).state ≠ .enumerated) ∨
    s.gapFor c (.probe n) = false) : exec (.probe c n fromB passed l a b) s = .next s := by
  refine congrArg Host.Outcome.next (if_pos ?_)
  rcases idle with ⟨down, other⟩ | noGap
  · simp [down, other]
  · simp [noGap]

end Probe

/-! The break is repaired (R314). -/

section Repair
variable {c : Fin 4} {s : State}

theorem exec_ringRepaired_done (twoChain : (s.ring c).state = .twoChain) (fromA : 3 ≤ (s.ring c).probeA.1)
    (fromB : 3 ≤ (s.ring c).probeB.1) (present : (s.nodeList c).any (s.nodeMissing c) = false)
    (written : s.delaysWritten c = true) :
    exec (.ringRepaired c) s = .next ((s.updRing c fun r => { r with
      state := .ring, brk := none, split := s.splitNode c, probeA := (0, 0), probeB := (0, 0), nRepairs := bump 8 r.nRepairs
      nA := s.ringNodes c, nB := 0, enumPassed := true }).ev 0x8013 (chnInst c.val 0)) :=
  congrArg Host.Outcome.next (if_pos (by simp only [twoChain, fromA, fromB, present, written, decide_true, Bool.not_false,
    Bool.and_self]))

theorem exec_ringRepaired_idle (idle : (s.ring c).state ≠ .twoChain ∨ (s.ring c).probeA.1 < 3 ∨ (s.ring c).probeB.1 < 3 ∨
    (s.nodeList c).any (s.nodeMissing c) = true ∨ s.delaysWritten c = false) : exec (.ringRepaired c) s = .next s := by
  refine congrArg Host.Outcome.next (if_neg ?_)
  simp only [Bool.and_eq_true, decide_eq_true_eq, Bool.not_eq_true']
  rintro ⟨⟨⟨⟨twoChain, fromA⟩, fromB⟩, present⟩, written⟩
  rcases idle with other | fewA | fewB | missing | unwritten
  · exact other twoChain
  · omega
  · omega
  · rw [present] at missing
    cases missing
  · rw [written] at unwritten
    cases unwritten

end Repair

/-! READ_TEMP (R298, R299, R311, R327). -/

section Temps
variable {c : Fin 4} {l : List Sys2Proof.ChainBlock} {s : State}

theorem exec_readTemp_gap (up : (s.ring c).state.up = true) (noSweep : (s.ring c).sweep = none) :
    exec (.readTemp c l) s = .next ((s.broadcast c 0x12 []).takeTemps c l) :=
  congrArg Host.Outcome.next (if_pos (by simp [up, noSweep]))

theorem exec_readTemp_idle (idle : (s.ring c).state.up = false ∨ (s.ring c).sweep.isSome = true) :
    exec (.readTemp c l) s = .next s := by
  refine congrArg Host.Outcome.next (if_neg ?_)
  rcases idle with down | sweeping
  · simp [down]
  · obtain ⟨w, sweep⟩ := Option.isSome_iff_exists.1 sweeping
    simp [sweep]

theorem State.updNode_failedPaths {f : Node → Node} (keeps : ∀ x, (f x).failedPaths = x.failedPaths) (s : State)
    (c : Fin 4) (n m : Nat) :
    (((s.updNode c n f).ring c).nodeAt m).failedPaths = ((s.ring c).nodeAt m).failedPaths :=
  State.updNode_nodeAt_keeps (π := Node.failedPaths) keeps s c n c m

theorem State.blockHead_failedPaths (s : State) (c : Fin 4) (b : Sys2Proof.ChainBlock) (m : Nat) :
    (((s.blockHead c b).ring c).nodeAt m).failedPaths = ((s.ring c).nodeAt m).failedPaths := by
  refine State.updNode_failedPaths ?_ s c _ m
  intro x
  rfl

theorem State.blockError_failedPaths (s : State) (c : Fin 4) (n m : Nat) :
    (((s.blockError c n).ring c).nodeAt m).failedPaths = ((s.ring c).nodeAt m).failedPaths := by
  rw [State.blockError, State.ev_ring, State.updNode_failedPaths (by intro x; rfl), State.updRing_same]
  rfl

/-- Reply blocks leave the paths of every node as DIAG has judged them. -/
theorem State.takeReplies_failedPaths (s : State) (c : Fin 4) (len : Nat) (l : List Sys2Proof.ChainBlock) (m : Nat) :
    (((s.takeReplies c len l).ring c).nodeAt m).failedPaths = ((s.ring c).nodeAt m).failedPaths := by
  refine foldl_same (fun t => ((t.ring c).nodeAt m).failedPaths) (fun t b => ?_) l s
  split
  · exact t.blockHead_failedPaths c b m
  · exact t.blockError_failedPaths c b.node m

/-- The replies of the one node of a ring, with its status byte. -/
def State.tempTaken (s : State) (c : Fin 4) (b : Sys2Proof.ChainBlock) : State :=
  (s.takeReplies c 11 [b]).updNode c (blockFrom b) fun x => { x with tempStatus := (b.bytes.getD 9 0).toNat }

theorem State.tempTaken_failedPaths (s : State) (c : Fin 4) (b : Sys2Proof.ChainBlock) (m : Nat) :
    (((s.tempTaken c b).ring c).nodeAt m).failedPaths = ((s.ring c).nodeAt m).failedPaths := by
  rw [State.tempTaken, State.updNode_failedPaths (by intro x; rfl), State.takeReplies_failedPaths]

/-- The temperatures that a good block of its gives a node. -/
def Node.takesTemps (x : Node) (b : Sys2Proof.ChainBlock) : Node :=
  { x with tempNext := some (mapV x.temp fun j _ =>
      ((blockTemps b).getD j.val 0x8000 != 0x8000 && !x.failedPaths[18], ofCode 16 ((blockTemps b).getD j.val 0x8000))) }

theorem State.takeTemps_one {b : Sys2Proof.ChainBlock} (one : s.ringNodes c = 1) (good : blockGood b 11 = true)
    (own : blockFrom b = 1) : s.takeTemps c [b] = (s.tempTaken c b).updNode c 1 fun x => x.takesTemps b := by
  have blocks : ([b].filter fun b => blockGood b 11) = [b] := by simp [good]
  have nodes : (s.tempTaken c b).nodeList c = [1] := by
    have cfg : (s.tempTaken c b).cfg = s.cfg := by rw [State.tempTaken, State.updNode_cfg, State.takeReplies_cfg]
    rw [State.nodeList, State.ringNodes_of_cfg cfg, one]
    rfl
  have first : [b].find? (fun b => blockFrom b = 1) = some b := by simp [own]
  unfold State.takeTemps
  rw [blocks]
  exact (congrArg (fun l => List.foldl _ (s.tempTaken c b) l) nodes).trans (by simp only [List.foldl_cons, List.foldl_nil, first]; rfl)

theorem State.takeTemps_tempNext {b : Sys2Proof.ChainBlock} (one : s.ringNodes c = 1) (good : blockGood b 11 = true)
    (own : blockFrom b = 1) (j : Fin 4) : (((s.takeTemps c [b]).ring c).nodeAt 1).tempNext.map (fun v => v[j.val]) = some
      ((blockTemps b).getD j.val 0x8000 != 0x8000 && !((s.ring c).nodeAt 1).failedPaths[18],
        ofCode 16 ((blockTemps b).getD j.val 0x8000)) := by
  have node : (((s.tempTaken c b).updNode c 1 fun x => x.takesTemps b).ring c).nodeAt 1 =
      (((s.tempTaken c b).ring c).nodeAt 1).takesTemps b := State.updNode_nodeAt_same _ c 0 _
  rw [State.takeTemps_one one good own, node, Node.takesTemps, Option.map_some, mapV_get, State.tempTaken_failedPaths]

end Temps

/-- Settles O22: SAMPLE, the blocks of a sweep and its end case by case, the values of a cell by the one node that measures
it, and breaks, PROBEs and the repair by the state of the ring. -/
theorem sweepsOfARing : Obligations.SweepsOfARing :=
  ⟨fun _ _ _ _ _ => exec_sample_judged, fun _ _ _ _ => exec_sample_idle, fun c k ts s => s.sample_does c k ts,
    fun _ _ _ _ _ => exec_readHeld_sweeping, fun _ _ _ _ _ => exec_readHeld_idle,
    fun _ _ _ _ => State.takeBlocks_good, fun _ _ _ _ bad => ⟨State.takeBlocks_bad bad, rfl⟩,
    fun _ _ _ _ _ _ => exec_sweepComplete_whole, fun _ _ _ _ _ _ _ _ => exec_sweepComplete_broken,
    fun _ _ _ _ => exec_sweepComplete_idle,
    fun _ ns _ _ _ _ _ _ _ listed own first last away found present configured diagDone path =>
      State.sweepEnd_found listed own first last away found present configured diagDone path ns,
    fun _ ns _ _ _ _ _ listed own first last away missing => State.sweepEnd_missing listed own first last away missing ns,
    fun c n s => s.chainTick_temp c n, fun _ _ _ _ => exec_cellsUnmonitored_stale, fun _ _ _ => exec_cellsUnmonitored_idle,
    fun _ _ _ _ _ _ _ => exec_ringBroken_up, fun _ _ _ _ _ _ _ => exec_ringBroken_idle,
    fun _ _ _ => ⟨rfl, rfl, rfl, rfl⟩, fun _ _ _ _ whole _ _ idle => State.ringBreak_does whole idle,
    fun _ _ _ _ => State.breakSweep_passed, fun _ _ _ _ _ _ _ => exec_probe_ring, fun _ _ _ _ _ => exec_probe_breaks,
    fun _ _ _ _ _ _ _ _ => exec_probe_node, fun _ _ _ _ _ _ _ _ => exec_probe_idle, fun _ _ _ _ _ => rfl,
    fun _ _ _ _ => State.probeSeen_fromA, fun _ _ => exec_ringRepaired_done, fun _ _ => exec_ringRepaired_idle,
    fun _ _ _ => exec_readTemp_gap, fun _ _ _ => exec_readTemp_idle, fun _ _ _ => State.takeTemps_tempNext⟩

end Sys2Proof.Machine
end

section
/-! SUPPORT. A string under an update, the events beside one, and folds over strings. -/

namespace Sys2Proof.Machine

/-! The string an update changes, and the others. -/

@[simp] theorem State.updStr_same (s : State) (i : Fin 4) (f : Str → Str) : (s.updStr i f).estr i = f (s.estr i) := by
  rw [State.updStr_estr, if_pos rfl]

theorem State.updStr_other {i j : Fin 4} (other : j ≠ i) (s : State) (f : Str → Str) :
    (s.updStr i f).estr j = s.estr j := by
  rw [State.updStr_estr, if_neg other.symm]

/-- What leaves the estimator alone leaves its strings. -/
theorem State.estr_of_est {s t : State} (same : t.est = s.est) (i : Fin 4) : t.estr i = s.estr i :=
  congrArg (fun e : Est => e.str[i.val]) same

@[simp] theorem State.ev_estr (s : State) (code inst data : Nat) (i : Fin 4) : (s.ev code inst data).estr i = s.estr i :=
  State.estr_of_est (s.ev_est code inst data) i

theorem State.strings_nodup (s : State) : s.strings.Nodup := (List.nodup_finRange 4).filter _

/-! The recorder reads nothing of the estimator (R473). -/

theorem State.SameEv.withEst {s t : State} (h : s.SameEv t) (e : Est) : s.SameEv { t with est := e } :=
  h.trans ⟨rfl, rfl, rfl, rfl, rfl⟩

theorem State.SameEv.updStr {s t : State} (h : s.SameEv t) (i : Fin 4) (f : Str → Str) : s.SameEv (t.updStr i f) :=
  h.withEst _

/-- An update of a string with its event. -/
theorem State.updStr_ev (s : State) (i : Fin 4) (f : Str → Str) (code inst data : Nat) :
    ((s.updStr i f).ev code inst data).estr i = f (s.estr i) ∧
    (∀ j, j ≠ i → ((s.updStr i f).ev code inst data).estr j = s.estr j) ∧
    ((s.updStr i f).ev code inst data).evr = s.evs [(code, inst, data)] :=
  ⟨by rw [State.ev_estr, State.updStr_same], fun j other => by rw [State.ev_estr, State.updStr_other other],
    ((State.SameEv.refl s).updStr i f).evs code inst data⟩

/-- The state once events have occurred one after the other. -/
def State.recorded (s : State) (l : List (Nat × Nat × Nat)) : State := l.foldl (fun s e => s.ev e.1 e.2.1 e.2.2) s

/-- One more event, where its condition holds. -/
theorem State.SameEv.evIf {s t : State} {l : List (Nat × Nat × Nat)} (h : (s.recorded l).SameEv t) (c : Prop) [Decidable c]
    (code inst data : Nat) :
    (s.recorded (l ++ if c then [(code, inst, data)] else [])).SameEv (if c then t.ev code inst data else t) := by
  rw [State.recorded, List.foldl_append]
  split
  · exact h.ev code inst data
  · exact h

/-! Operations on one string. -/

/-- Every string but one is the same. -/
def State.Beside (i : Fin 4) (s t : State) : Prop := ∀ j, j ≠ i → t.estr j = s.estr j

theorem State.Beside.rfl {i : Fin 4} {s : State} : State.Beside i s s := fun _ _ => Eq.refl _

theorem State.Beside.trans {i : Fin 4} {s t u : State} (h : State.Beside i s t) (k : State.Beside i t u) :
    State.Beside i s u :=
  fun j other => (k j other).trans (h j other)

theorem State.Beside.ite {i : Fin 4} {s t u : State} {c : Prop} [Decidable c] (h : State.Beside i s t)
    (k : State.Beside i s u) : State.Beside i s (if c then t else u) := by
  split <;> assumption

theorem State.Beside.updStr {i : Fin 4} {s t : State} (h : State.Beside i s t) (f : Str → Str) :
    State.Beside i s (t.updStr i f) :=
  h.trans fun _ other => State.updStr_other other t f

theorem State.Beside.ev {i : Fin 4} {s t : State} (h : State.Beside i s t) (code inst data : Nat) :
    State.Beside i s (t.ev code inst data) :=
  h.trans fun j _ => t.ev_estr code inst data j

/-- A fold over different strings, each step of which changes its own string and leaves the others. -/
theorem foldl_strings {f : State → Fin 4 → State} {g : Str → Str} (own : ∀ s i, (f s i).estr i = g (s.estr i))
    (other : ∀ s i, State.Beside i s (f s i)) {l : List (Fin 4)} (once : l.Nodup) (s : State) (j : Fin 4) :
    (l.foldl f s).estr j = if j ∈ l then g (s.estr j) else s.estr j := by
  induction l generalizing s with
  | nil => simp
  | cons i l ih =>
    obtain ⟨fresh, once⟩ := List.nodup_cons.1 once
    rw [List.foldl_cons, ih once]
    by_cases same : j = i
    · subst same
      rw [if_neg fresh, if_pos List.mem_cons_self, own]
    · rw [other s i j same]
      exact if_congr (by simp [same]) rfl rfl

end Sys2Proof.Machine
end

section
/-! SUPPORT. A reading of a string (R340, R342, R343). -/

namespace Sys2Proof.Machine

variable (s : State) (i : Fin 4) (mean : Int) (cellV : List Nat)

/-- The SOC that a reading takes from the mean voltage of its window (R340). -/
def State.readSoc : Int := ocvSoc (s.ocvTab i) (10 * mean) (256 * s.cells i)

theorem State.takeReading_beside : State.Beside i s (s.takeReading i mean cellV) :=
  have updated (f : Str → Str) : State.Beside i s ((s.updStr i f).ev 0x9011 i.val) := (State.Beside.rfl.updStr f).ev _ _ _
  have cleared (f : Str → Str) (c : Prop) [Decidable c] : State.Beside i s
      (if c then ((s.updStr i f).ev 0x9011 i.val).ev 0x9021 i.val else (s.updStr i f).ev 0x9011 i.val) :=
    .ite ((updated f).ev _ _ _) (updated f)
  .ite ((cleared _ _).ev _ _ _) (cleared _ _)

/-- The string after its reading: SOC, band and capacity are the reading's, and what asked for a rest is served. -/
theorem State.takeReading_own : ∃ (ocv : Nat) (wide : Bool) (last : Option (Int × Int × Nat)) (bal : List Nat),
    (s.takeReading i mean cellV).estr i = { s.estr i with
      soc := s.readSoc i mean, band := (s.str16 i 0x42 100 : Nat) * 2 ^ 32, ocv := ocv, restT := s.sys.timeNs
      restCount := bump 16 (s.estr i).restCount, conflict := false, forced := false, bandWide := wide
      cap := (s.newCap i (s.readSoc i mean)).getD (s.estr i).cap, lastReading := last, balance := bal } := by
  unfold State.takeReading
  extract_lets soc cap lowest bal was read noted cleared
  have est : (if cap.isSome = true then cleared.ev 0x9025 i.val else cleared).est = read.est :=
    (State.evIf_est _ _ _ _ _).trans ((State.evIf_est _ _ _ _ _).trans (State.ev_est ..))
  rw [State.estr_of_est est, State.updStr_same]
  exact ⟨_, _, _, _, rfl⟩

/-- A reading has its event, that of the end of a conflict, and that of a new capacity. -/
theorem State.takeReading_evr : (s.takeReading i mean cellV).evr =
    s.evs ([(0x9011, i.val, 0)] ++ (if (s.estr i).conflict then [(0x9021, i.val, 0)] else []) ++
      (if (s.newCap i (s.readSoc i mean)).isSome then [(0x9025, i.val, 0)] else [])) := by
  have noted (f : Str → Str) : (s.recorded [(0x9011, i.val, 0)]).SameEv ((s.updStr i f).ev 0x9011 i.val 0) :=
    ((State.SameEv.refl s).updStr i f).ev _ _ _
  exact (((noted _).evIf _ 0x9021 i.val 0).evIf _ 0x9025 i.val 0).evr.symm

end Sys2Proof.Machine
end

section
/-! SUPPORT. EST_UPDATE and CONFLICT (R333, R334, R336, R343, R344, R346). -/

namespace Sys2Proof.Machine

/-! One string's update, part by part. -/

/-- A string once its charge is counted (R333). -/
def State.charged (s : State) (i : Fin 4) : Str := (s.chargeStep i).estr i

/-- The charge that has left a string since the last update, nC, and what the string holds in all. -/
def State.chargeOut (s : State) (i : Fin 4) : Int := (s.shunt i).q - (s.estr i).lastQ.getD (s.shunt i).q
def State.fullCharge (s : State) (i : Fin 4) : Nat := ((s.estr i).capMah * 3600000000).toNat

/-- What the band grows by in 1 ms at rest. -/
def State.bandDrift (s : State) (i : Fin 4) : Int := divHE ((s.str16 i 0x3E 100 : Nat) * 2 ^ 32) 3600000

theorem State.charged_live {s : State} {i : Fin 4} (live : (s.shunt i).dead = false) : s.charged i = { s.estr i with
    lastQ := some (s.shunt i).q
    soc := clampI 0 (10000 * 2 ^ 32) ((s.estr i).soc - divHE (s.chargeOut i * 10000 * 2 ^ 32) (s.fullCharge i))
    band := min ((s.estr i).band + s.bandDrift i +
      divHE ((s.str16 i 0x40 50 * (s.chargeOut i).natAbs : Nat) * 2 ^ 32) (s.fullCharge i)) (10000 * 2 ^ 32) } := by
  rw [State.charged, State.chargeStep, if_neg (by simp [live]), State.updStr_same]
  rfl

theorem State.charged_dead {s : State} {i : Fin 4} (dead : (s.shunt i).dead = true) : s.charged i = { s.estr i with
    lastQ := some (s.shunt i).q, band := min ((s.estr i).band + 10 * s.bandDrift i) (10000 * 2 ^ 32) } := by
  rw [State.charged, State.chargeStep, if_pos dead, State.updStr_same]
  rfl

/-- The count reads the string, the front end and the configuration. -/
theorem State.charged_congr {s t : State} {i : Fin 4} (cfg : t.cfg = s.cfg) (afe : t.afe = s.afe)
    (estr : t.estr i = s.estr i) : t.charged i = s.charged i := by
  have shunt : t.shunt i = s.shunt i := congrArg (fun a : Afe => a.shunt[i.val]) afe
  have str16 : t.str16 i = s.str16 i := by
    funext o d
    simp only [State.str16, State.strRec, State.rec8, State.recs, cfg]
  simp only [State.charged, State.chargeStep, shunt, str16, estr]
  split <;> simp only [State.updStr_same, estr]

theorem State.voltageStep_own (s : State) (i : Fin 4) : ∃ v1 v2 vOcv socV vValid, (s.voltageStep i).estr i =
    { s.estr i with v1 := v1, v2 := v2, vOcv := vOcv, socV := socV, vValid := vValid, sumI := 0, nI := 0 } :=
  ⟨_, _, _, _, _, State.updStr_same ..⟩

theorem State.flagStep_own (s : State) (i : Fin 4) : ∃ wide taper, (s.flagStep i).estr i =
    { s.estr i with bandWide := wide, taper := taper } :=
  have flagged (f : Str → Str) (c d : Prop) [Decidable c] [Decidable d] :
      (if d then (if c then (s.updStr i f).ev 0x9022 i.val else s.updStr i f).ev 0x9070 i.val
        else if c then (s.updStr i f).ev 0x9022 i.val else s.updStr i f).estr i = f (s.estr i) :=
    (State.estr_of_est ((State.evIf_est _ _ _ _ _).trans (State.evIf_est _ _ _ _ _)) i).trans (State.updStr_same ..)
  ⟨_, _, flagged _ _ _⟩

theorem State.countStep_own (s : State) (i : Fin 4) : ∃ diff same above, (s.countStep i).estr i =
    { s.estr i with diffMs := diff, sameMs := same, overMs := above } :=
  ⟨_, _, _, State.updStr_same ..⟩

/-- Out of ARMED no passive reading is taken: the window of a rest in progress goes on, or nothing is quiet (R339, R342). -/
theorem State.restStep_own {s : State} (notArmed : s.sys.state ≠ .armed) (i : Fin 4) : ∃ sum n quiet read,
    (s.restStep i).estr i = { s.estr i with readSum := sum, readN := n, quietMs := quiet, quietRead := read } := by
  unfold State.restStep
  split
  · exact ⟨_, _, _, _, State.updStr_same ..⟩
  · rw [if_neg (by simp [notArmed])]
    exact ⟨_, _, _, _, State.updStr_same ..⟩

/-! One string's update leaves the other strings alone. -/

theorem State.chargeStep_beside (s : State) (i : Fin 4) : State.Beside i s (s.chargeStep i) :=
  .ite (.updStr .rfl _) (.updStr .rfl _)

theorem State.flagStep_beside (s : State) (i : Fin 4) : State.Beside i s (s.flagStep i) :=
  have wide (f : Str → Str) (c : Prop) [Decidable c] :
      State.Beside i s (if c then (s.updStr i f).ev 0x9022 i.val else s.updStr i f) :=
    .ite ((State.Beside.rfl.updStr f).ev _ _ _) (.updStr .rfl f)
  .ite ((wide _ _).ev _ _ _) (wide _ _)

theorem State.restStep_beside (s : State) (i : Fin 4) : State.Beside i s (s.restStep i) := by
  refine .ite (.updStr .rfl _) (.ite (.ite (.updStr ?_ _) (.updStr .rfl _)) (.updStr .rfl _))
  exact (State.Beside.rfl.updStr _).trans (State.takeReading_beside _ _ _ _)

theorem State.estStep_beside (s : State) (i : Fin 4) : State.Beside i s (s.estStep i) := by
  refine .ite (.trans (.updStr ?flagged _) (State.restStep_beside _ i)) .rfl
  exact ((s.chargeStep_beside i).updStr _).trans (State.flagStep_beside _ i)

/-! One string's update as a whole. -/

/-- What the update of a string in RUN leaves as the count of its charge has it. -/
def Str.tally (x : Str) : Int × Int × Option Int × Nat × RestState := (x.soc, x.band, x.lastQ, x.cap, x.rest)

/-- A string after its update in RUN: its tally is that of its charge, and the sums of the millisecond start again. -/
def State.Updated (s : State) (i : Fin 4) (t : State) : Prop :=
  (t.estr i).tally = (s.charged i).tally ∧ (t.estr i).sumI = 0 ∧ (t.estr i).nI = 0

/-- The same state but for the estimates of other strings and what is recorded. -/
structure State.AwaitsUpdate (s : State) (i : Fin 4) (t : State) : Prop where
  kept : Kept [.est, .evr] s t
  estr : t.estr i = s.estr i

theorem State.estStep_unset {s : State} {i : Fin 4} (unset : (s.estr i).socSet = false) : s.estStep i = s :=
  if_neg (by simp [unset])

theorem State.estStep_run {s : State} {i : Fin 4} (run : s.sys.state = .run) (set : (s.estr i).socSet = true) :
    s.Updated i (s.estStep i) := by
  have charge : Kept [.est, .evr] s (s.chargeStep i) := State.chargeStep_kept _ _ (by decide) .rfl
  have counts : Kept [.est, .evr] s ((((s.chargeStep i).voltageStep i).flagStep i).countStep i) :=
    State.countStep_kept _ _ (by decide)
      (State.flagStep_kept _ _ (List.Subset.refl _) (State.voltageStep_kept _ _ (by decide) charge))
  have still : ((((s.chargeStep i).voltageStep i).flagStep i).countStep i).sys.state ≠ .armed := by
    rw [counts.only .sys (by decide), run]
    decide
  obtain ⟨_, _, _, _, rest⟩ := State.restStep_own still i
  obtain ⟨_, _, _, count⟩ := (((s.chargeStep i).voltageStep i).flagStep i).countStep_own i
  obtain ⟨_, _, flag⟩ := ((s.chargeStep i).voltageStep i).flagStep_own i
  obtain ⟨_, _, _, _, _, voltage⟩ := (s.chargeStep i).voltageStep_own i
  rw [State.estStep, if_pos set, State.Updated, rest, count, flag, voltage]
  exact ⟨rfl, rfl, rfl⟩

theorem State.AwaitsUpdate.updated {s t : State} {i : Fin 4} (h : s.AwaitsUpdate i t) (run : s.sys.state = .run)
    (set : (s.estr i).socSet = true) : s.Updated i (t.estStep i) := by
  obtain ⟨kept, estr⟩ := h
  have sys : t.sys = s.sys := kept.only .sys (by decide)
  have same : t.charged i = s.charged i :=
    State.charged_congr (kept.only .cfg (by decide)) (kept.only .afe (by decide)) estr
  have done := State.estStep_run (s := t) (i := i) (by rw [sys, run]) (by rw [estr, set])
  rwa [State.Updated, same] at done

/-! EST_UPDATE. -/

/-- The strings are updated, and the tick of the update is noted. -/
def State.estUpdated (s : State) : State :=
  s.strings.foldl State.estStep { s with est := { s.est with estTick := some s.sys.tick } }

theorem exec_estUpdate_due {s : State} (lit : s.lit = true) (due : s.due 500 s.est.estTick = true)
    (run : s.sys.state = .run) : exec .estUpdate s = .next s.estUpdated :=
  congrArg Host.Outcome.next (if_pos (by simp [lit, due, State.inState, run]))

theorem exec_estUpdate_idle {s : State}
    (idle : s.inState [.armed, .run, .basalt] = false ∨ s.due 500 s.est.estTick = false) :
    exec .estUpdate s = .next s :=
  congrArg Host.Outcome.next (if_neg (by rcases idle with h | h <;> simp [h]))

/-- EST_UPDATE in RUN updates each configured string that has its initial SOC, whatever the others have become. -/
theorem State.estUpdated_own {s : State} {i : Fin 4} (run : s.sys.state = .run) (mem : i ∈ s.strings)
    (set : (s.estr i).socSet = true) : s.Updated i s.estUpdated := by
  refine foldl_reaches (before := s.AwaitsUpdate i) (fun t j other h => ?others) (fun t h => h.updated run set)
    (fun t j other h => ?later) mem s.strings_nodup ?start
  case others =>
    exact ⟨h.kept.trans (State.estStep_touches t j), (t.estStep_beside j i other.symm).trans h.estr⟩
  case later =>
    rwa [State.Updated, t.estStep_beside j i other.symm]
  case start =>
    exact ⟨Kept.mk_iff.2 (Kept.of_est .rfl (by decide)), rfl⟩

/-- A string that has no initial SOC, or is not configured, is left alone. -/
theorem State.estUpdated_untouched {s : State} {i : Fin 4} (h : (s.estr i).socSet = false ∨ i ∉ s.strings) :
    s.estUpdated.estr i = s.estr i := by
  refine List.foldlRecOn (motive := fun t => t.estr i = s.estr i) s.strings State.estStep ?start fun t same j mem => ?step
  case start => rfl
  by_cases own : i = j
  · subst own
    have unset : (t.estr i).socSet = false := by rw [same]; exact h.resolve_right (not_not.2 mem)
    rwa [State.estStep_unset unset]
  · rwa [t.estStep_beside j i own]

theorem exec_estUpdate_untouched {s : State} {i : Fin 4} (h : (s.estr i).socSet = false ∨ i ∉ s.strings) :
    Gives .estUpdate s fun t => t.estr i = s.estr i := by
  refine ⟨_, rfl, ?_⟩
  split
  · exact State.estUpdated_untouched h
  · rfl

theorem exec_estUpdate_live {s : State} {i : Fin 4} (lit : s.lit = true) (due : s.due 500 s.est.estTick = true)
    (run : s.sys.state = .run) (mem : i ∈ s.strings) (set : (s.estr i).socSet = true) (live : (s.shunt i).dead = false) :
    Gives .estUpdate s fun t =>
      (t.estr i).soc = clampI 0 (10000 * 2 ^ 32)
        ((s.estr i).soc - divHE (s.chargeOut i * 10000 * 2 ^ 32) (s.fullCharge i)) ∧
      (t.estr i).band = min ((s.estr i).band + s.bandDrift i +
        divHE ((s.str16 i 0x40 50 * (s.chargeOut i).natAbs : Nat) * 2 ^ 32) (s.fullCharge i)) (10000 * 2 ^ 32) ∧
      (t.estr i).lastQ = some (s.shunt i).q ∧ (t.estr i).sumI = 0 ∧ (t.estr i).nI = 0 ∧
      (t.estr i).cap = (s.estr i).cap ∧ (t.estr i).rest = (s.estr i).rest := by
  obtain ⟨tally, sumI, nI⟩ := State.estUpdated_own run mem set
  rw [State.charged_live live] at tally
  simp only [Str.tally, Prod.mk.injEq] at tally
  obtain ⟨soc, band, lastQ, cap, rest⟩ := tally
  exact ⟨_, exec_estUpdate_due lit due run, soc, band, lastQ, sumI, nI, cap, rest⟩

theorem exec_estUpdate_dead {s : State} {i : Fin 4} (lit : s.lit = true) (due : s.due 500 s.est.estTick = true)
    (run : s.sys.state = .run) (mem : i ∈ s.strings) (set : (s.estr i).socSet = true) (dead : (s.shunt i).dead = true) :
    Gives .estUpdate s fun t =>
      (t.estr i).soc = (s.estr i).soc ∧
      (t.estr i).band = min ((s.estr i).band + 10 * s.bandDrift i) (10000 * 2 ^ 32) := by
  obtain ⟨tally, -, -⟩ := State.estUpdated_own run mem set
  rw [State.charged_dead dead] at tally
  simp only [Str.tally, Prod.mk.injEq] at tally
  obtain ⟨soc, band, -⟩ := tally
  exact ⟨_, exec_estUpdate_due lit due run, soc, band⟩

/-! CONFLICT (R343). -/

section Conflict

variable {s : State} {i : Fin 4}

theorem exec_estConflict_lasted (clear : (s.estr i).conflict = false)
    (lasted : 1000 * s.ecl16 0x16 10 ≤ (s.estr i).diffMs) : Gives (.estConflict i) s fun t =>
      t.estr i = { s.estr i with conflict := true } ∧ (∀ j, j ≠ i → t.estr j = s.estr j) ∧
      t.evr = s.evs [(0x9020, i.val, 0)] :=
  ⟨_, congrArg Host.Outcome.next (if_pos (by simp [clear, lasted])), s.updStr_ev i _ _ _ _⟩

theorem exec_estConflict_idle
    (idle : (s.estr i).conflict = true ∨ (s.estr i).diffMs < 1000 * s.ecl16 0x16 10) :
    exec (.estConflict i) s = .next s :=
  congrArg Host.Outcome.next (if_neg (by rcases idle with h | h <;> simp [h]))

theorem exec_estConflictCleared_lasted (stands : (s.estr i).conflict = true)
    (lasted : 1000 * s.ecl16 0x16 10 ≤ (s.estr i).sameMs) : Gives (.estConflictCleared i) s fun t =>
      t.estr i = { s.estr i with conflict := false } ∧ (∀ j, j ≠ i → t.estr j = s.estr j) ∧
      t.evr = s.evs [(0x9021, i.val, 0)] :=
  ⟨_, congrArg Host.Outcome.next (if_pos (by simp [stands, lasted])), s.updStr_ev i _ _ _ _⟩

theorem exec_estConflictCleared_idle
    (idle : (s.estr i).conflict = false ∨ (s.estr i).sameMs < 1000 * s.ecl16 0x16 10) :
    exec (.estConflictCleared i) s = .next s :=
  congrArg Host.Outcome.next (if_neg (by rcases idle with h | h <;> simp [h]))

end Conflict

/-- Settles O25: a string awaits its turn in the round over the strings, its own update counts its charge, and the later
ones leave it alone; CONFLICT by what its commands test. -/
theorem estimatesOfAString : Obligations.EstimatesOfAString :=
  ⟨fun _ _ => exec_estUpdate_live, fun _ _ => exec_estUpdate_dead, fun _ _ => exec_estUpdate_untouched,
    fun _ => exec_estUpdate_idle, fun _ _ => exec_estConflict_lasted, fun _ _ => exec_estConflict_idle,
    fun _ _ => exec_estConflictCleared_idle, fun _ _ => exec_estConflictCleared_lasted⟩

end Sys2Proof.Machine
end

section
/-! SUPPORT. Rests of strings (R337 to R341, R353, R356). -/

namespace Sys2Proof.Machine

/-! A rest is tried (R337, R338). -/

section Try

variable {s : State} {i : Fin 4}

/-- The try of a rest is noted. -/
def State.tried (s : State) : State := { s with est := { s.est with triedTick := s.sys.tick } }

/-- A rest that is due is blocked. -/
def State.restBlocked (s : State) : State :=
  { s with est := { s.est with triedTick := s.sys.tick, blocked := true, postponed := true } }

/-- A rest starts: t0, from full limits. -/
def State.restStarted (s : State) (i : Fin 4) : State :=
  let u := s.tried.updStr i fun x => { x with rest := .rampDown, restRamp := 50000, restAt := s.sys.tick, overMs := 0 }
  { u with est := { u.est with blocked := false, postponed := false } }

theorem State.restTry_few (few : s.healthyStrs.length < 2) : s.restTry = s := by
  unfold State.restTry
  split
  · rfl
  · exact if_pos few

theorem State.restTry_allowed (next : s.restCandidate = some i) (two : 2 ≤ s.healthyStrs.length)
    (allowed : s.tried.restAllowed i = true) : s.restTry = (s.restStarted i).ev 0x9010 i.val := by
  rw [State.restTry, next]
  exact (if_neg (by omega)).trans (if_pos allowed)

theorem State.restTry_barred (next : s.restCandidate = some i) (two : 2 ≤ s.healthyStrs.length)
    (barred : s.tried.restAllowed i = false) :
    s.restTry = if s.est.postponed = true then s.restBlocked else s.restBlocked.ev 0x9013 i.val := by
  rw [State.restTry, next]
  exact (if_neg (by omega)).trans (if_neg (ne_true_of_eq_false barred))

theorem State.restTry_starts (next : s.restCandidate = some i) (two : 2 ≤ s.healthyStrs.length)
    (allowed : s.tried.restAllowed i = true) :
    (s.restTry.estr i = { s.estr i with rest := .rampDown, restRamp := 50000, restAt := s.sys.tick, overMs := 0 }) ∧
    (∀ j, j ≠ i → s.restTry.estr j = s.estr j) ∧ s.restTry.est.blocked = false ∧ s.restTry.est.postponed = false ∧
    s.restTry.est.triedTick = s.sys.tick ∧ s.restTry.evr = s.evs [(0x9010, i.val, 0)] := by
  rw [State.restTry_allowed next two allowed, State.ev_est]
  refine ⟨?own, fun j other => ?others, rfl, rfl, rfl, (State.SameEv.withEst (.refl s) _).evs _ _ _⟩
  case own => exact (State.ev_estr ..).trans (State.updStr_same s.tried i _)
  case others => exact (State.ev_estr ..).trans (State.updStr_other other s.tried _)

theorem State.restTry_blocks (next : s.restCandidate = some i) (two : 2 ≤ s.healthyStrs.length)
    (barred : s.tried.restAllowed i = false) :
    s.restTry.est = { s.est with triedTick := s.sys.tick, blocked := true, postponed := true } ∧
    s.restTry.evr = if s.est.postponed = true then s.evr else s.evs [(0x9013, i.val, 0)] := by
  rw [State.restTry_barred next two barred]
  by_cases noted : s.est.postponed = true
  · rw [if_pos noted, if_pos noted]
    exact ⟨rfl, rfl⟩
  · rw [if_neg noted, if_neg noted]
    exact ⟨State.ev_est .., (State.SameEv.withEst (.refl s) _).evs _ _ _⟩

theorem exec_eclipseRetry_late (run : s.sys.state = .run) (blocked : s.est.blocked = true)
    (late : s.elapsed s.est.triedTick 5000000 = true) : exec .eclipseRetry s = .next s.restTry :=
  congrArg Host.Outcome.next (if_pos (by simp [run, blocked, late]))

theorem exec_eclipseRetry_idle
    (idle : s.sys.state ≠ .run ∨ s.est.blocked = false ∨ s.elapsed s.est.triedTick 5000000 = false) :
    exec .eclipseRetry s = .next s :=
  congrArg Host.Outcome.next (if_neg (by rcases idle with h | h | h <;> simp [h]))

end Try

/-! A rest in progress (R339, R340). -/

section Passes

variable {s : State} {i : Fin 4}

theorem exec_relaxing_begins (down : (s.estr i).rest = .rampDown) (ramp : (s.estr i).restRamp = 0)
    (within : (s.shunt i).i.natAbs ≤ s.restImax) : exec (.relaxing i) s = .next (s.updStr i fun x => { x with
      rest := .relaxing, balSuspended := true, relaxAt := s.sys.tick, overMs := 0, readSum := 0, readN := 0
      cellSums := [] }) :=
  congrArg Host.Outcome.next (if_pos (by simp [down, ramp, within]))

theorem exec_relaxing_idle
    (idle : (s.estr i).rest ≠ .rampDown ∨ (s.estr i).restRamp ≠ 0 ∨ s.restImax < (s.shunt i).i.natAbs) :
    exec (.relaxing i) s = .next s :=
  congrArg Host.Outcome.next (if_neg (by rcases idle with h | h | h <;> simp [h]))

theorem exec_reading_begins (relaxing : (s.estr i).rest = .relaxing)
    (late : s.elapsed (s.estr i).relaxAt (500000 * s.relaxS) = true) : exec (.reading i) s = .next (s.updStr i fun x =>
      { x with rest := .reading, readSum := 0, readN := 0, cellSums := [] }) :=
  congrArg Host.Outcome.next (if_pos (by simp [relaxing, late]))

theorem exec_reading_idle
    (idle : (s.estr i).rest ≠ .relaxing ∨ s.elapsed (s.estr i).relaxAt (500000 * s.relaxS) = false) :
    exec (.reading i) s = .next s :=
  congrArg Host.Outcome.next (if_neg (by rcases idle with h | h <;> simp [h]))

theorem exec_restComplete_ends (up : (s.estr i).rest = .rampUp) (ramp : (s.estr i).restRamp = 50000) :
    exec (.restComplete i) s = .next (s.updStr i fun x => { x with rest := .idle, balSuspended := false }) :=
  congrArg Host.Outcome.next (if_pos (by simp [up, ramp]))

theorem exec_restComplete_idle (idle : (s.estr i).rest ≠ .rampUp ∨ (s.estr i).restRamp ≠ 50000) :
    exec (.restComplete i) s = .next s :=
  congrArg Host.Outcome.next (if_neg (by rcases idle with h | h <;> simp [h]))

theorem exec_eclipseReading_idle
    (idle : (s.estr i).rest ≠ .reading ∨ s.elapsed (s.estr i).relaxAt (500000 * s.restS) = false) :
    exec (.eclipseReading i) s = .next s :=
  congrArg Host.Outcome.next (if_neg (by rcases idle with h | h <;> simp [h]))

/-- The voltage a rest reads: the mean of its window, or the present value where it is empty. -/
def State.restMean (s : State) (i : Fin 4) : Int :=
  if (s.estr i).readN = 0 then s.restVolt i else divHE (s.estr i).readSum (s.estr i).readN

/-- The string after a rest's reading, and the events of the reading. -/
theorem State.eclipseReading_does (s : State) (i : Fin 4) :
    let t := s.eclipseReading i
    (t.estr i).rest = .rampUp ∧ (t.estr i).soc = s.readSoc i (s.restMean i) ∧
    (t.estr i).band = (s.str16 i 0x42 100 : Nat) * 2 ^ 32 ∧ (t.estr i).restT = s.sys.timeNs ∧
    (t.estr i).restCount = bump 16 (s.estr i).restCount ∧ (t.estr i).conflict = false ∧ (t.estr i).forced = false ∧
    (t.estr i).cap = ((s.newCap i (t.estr i).soc).getD (s.estr i).cap) ∧
    (∀ j, j ≠ i → t.estr j = s.estr j) ∧
    t.evr = s.evs ([(0x9011, i.val, 0)] ++ (if (s.estr i).conflict then [(0x9021, i.val, 0)] else []) ++
      (if (s.newCap i (t.estr i).soc).isSome then [(0x9025, i.val, 0)] else [])) := by
  obtain ⟨ocv, wide, last, bal, read⟩ := s.takeReading_own i (s.restMean i) (s.windowCells i)
  have own : (s.eclipseReading i).estr i =
      { (s.takeReading i (s.restMean i) (s.windowCells i)).estr i with rest := .rampUp } := State.updStr_same ..
  dsimp only
  rw [own, read]
  exact ⟨rfl, rfl, rfl, rfl, rfl, rfl, rfl, rfl, (s.takeReading_beside i _ _).updStr _, s.takeReading_evr i _ _⟩

theorem exec_eclipseReading_reads (reading : (s.estr i).rest = .reading)
    (late : s.elapsed (s.estr i).relaxAt (500000 * s.restS) = true) :
    exec (.eclipseReading i) s = .next (s.eclipseReading i) :=
  congrArg Host.Outcome.next (if_pos (by simp [reading, late]))

end Passes

/-! Rests are aborted (R341, R353). -/

/-- A string whose rest, where one is in progress, ends without a reading. -/
def Str.restAborted (x : Str) : Str := if x.rest.inRest then { x with rest := .rampUp } else x

/-- The rest of one string ends without a reading, with its event. -/
def State.abortRest (s : State) (i : Fin 4) : State :=
  if (s.estr i).rest.inRest then (s.updStr i fun x => { x with rest := .rampUp }).ev 0x9012 i.val else s

theorem State.abortRest_own (s : State) (i : Fin 4) : (s.abortRest i).estr i = (s.estr i).restAborted := by
  rw [State.abortRest, Str.restAborted]
  split
  · exact (State.ev_estr ..).trans (State.updStr_same ..)
  · rfl

theorem State.abortRest_beside (s : State) (i : Fin 4) : State.Beside i s (s.abortRest i) :=
  .ite (.ev (.updStr .rfl _) _ _ _) .rfl

/-- The events of the rests that are aborted in a list of strings, judged before the first is. -/
theorem State.foldl_abortRest_evr {l : List (Fin 4)} (once : l.Nodup) (s : State) : (l.foldl State.abortRest s).evr =
    s.evs ((l.filter fun i => (s.estr i).rest.inRest).map fun i => (0x9012, i.val, 0)) := by
  induction l generalizing s with
  | nil => rfl
  | cons i l ih =>
    obtain ⟨fresh, once⟩ := List.nodup_cons.1 once
    have later : (l.filter fun j => ((s.abortRest i).estr j).rest.inRest) = l.filter fun j => (s.estr j).rest.inRest :=
      List.filter_congr fun j mem => by rw [s.abortRest_beside i j fun same => fresh (same ▸ mem)]
    rw [List.foldl_cons, ih once, later]
    by_cases resting : (s.estr i).rest.inRest = true
    · rw [List.filter_cons_of_pos (p := fun i => (s.estr i).rest.inRest) resting, State.abortRest, if_pos resting]
      exact (((State.SameEv.updStr (.refl s) i _).ev 0x9012 i.val 0).evs_eq _).symm
    · rw [List.filter_cons_of_neg (p := fun i => (s.estr i).rest.inRest) resting, State.abortRest, if_neg resting]

/-- Every rest in progress ends without a reading, and each is recorded. -/
theorem State.abortRests_does (s : State) :
    (∀ i, s.abortRests.estr i = if (s.estr i).rest.inRest then { s.estr i with rest := .rampUp } else s.estr i) ∧
    s.abortRests.evr =
      s.evs (((List.finRange 4).filter fun i => (s.estr i).rest.inRest).map fun i => (0x9012, i.val, 0)) := by
  refine ⟨fun i => ?_, State.foldl_abortRest_evr (List.nodup_finRange 4) s⟩
  exact (foldl_strings State.abortRest_own State.abortRest_beside (List.nodup_finRange 4) s i).trans
    (if_pos (List.mem_finRange i))

theorem exec_eclipseAborted_ended {s : State} (ended : (List.finRange 4).any s.restOver = true) :
    exec .eclipseAborted s = .next s.abortRests :=
  congrArg Host.Outcome.next (if_pos ended)

theorem exec_eclipseAborted_idle {s : State} (idle : (List.finRange 4).any s.restOver = false) :
    exec .eclipseAborted s = .next s :=
  congrArg Host.Outcome.next (if_neg (by simp [idle]))

/-! The control fields (R356). -/

section Fields

variable {sess : Fin 64} {s : State} (allowed : s.allows sess .or_ = true)
include allowed

theorem exec_abortRest_allowed : exec (.abortRest sess) s = .next s.abortRests :=
  congrArg Host.Outcome.next (State.regCmd_allowed allowed _)

theorem exec_eclipseEn_allowed (v : Bool) :
    exec (.eclipseEn sess v) s = .next { s with est := { s.est with eclipseEn := v } } :=
  congrArg Host.Outcome.next (State.regCmd_allowed allowed _)

theorem exec_forceRest_allowed (mask : BitVec 4) : exec (.forceRest sess mask) s = .next (s.forceRest mask.toNat) :=
  congrArg Host.Outcome.next (State.regCmd_allowed allowed _)

end Fields

/-- Forced rests are noted for the configured strings of the mask, and for no others. -/
theorem State.forceRest_estr (s : State) (mask : Nat) (i : Fin 4) : (s.forceRest mask).estr i =
    if i ∈ s.strings ∧ tb mask i.val = true then { s.estr i with forced := true } else s.estr i :=
  (foldl_strings (g := fun x => { x with forced := true }) (fun _ _ => State.updStr_same ..)
    (fun _ _ => State.Beside.rfl.updStr _) (s.strings_nodup.filter _) s i).trans
    (if_congr List.mem_filter rfl rfl)

theorem State.forceRest_evr (s : State) (mask : Nat) : (s.forceRest mask).evr = s.evr :=
  foldl_same State.evr (fun t i => t.updStr_evr i _) _ s

/-- Settles O27: a try, the passes of a rest, its abort and the control fields, by what each tests. -/
theorem restsOfStrings : Obligations.RestsOfStrings :=
  ⟨fun _ => exec_eclipseRetry_late, fun _ => exec_eclipseRetry_idle, fun _ _ => State.restTry_starts,
    fun _ _ => State.restTry_blocks, fun _ => State.restTry_few,
    fun _ _ => exec_relaxing_begins, fun _ _ => exec_relaxing_idle,
    fun _ _ => exec_reading_begins, fun _ _ => exec_reading_idle,
    fun i s reading late => ⟨_, exec_eclipseReading_reads reading late, s.eclipseReading_does i⟩,
    fun _ _ => exec_eclipseReading_idle, fun _ _ => exec_restComplete_ends, fun _ _ => exec_restComplete_idle,
    fun s ended => ⟨_, exec_eclipseAborted_ended ended, s.abortRests_does⟩, fun _ => exec_eclipseAborted_idle,
    fun _ s allowed => ⟨_, exec_abortRest_allowed allowed, s.abortRests_does⟩,
    fun _ v _ allowed => exec_eclipseEn_allowed allowed v,
    fun _ mask s allowed => ⟨_, exec_forceRest_allowed allowed mask,
      fun i mem set => (s.forceRest_estr mask.toNat i).trans (if_pos ⟨mem, set⟩),
      fun i unset => (s.forceRest_estr mask.toNat i).trans (if_neg (by rcases unset with h | h <;> simp [h])),
      s.forceRest_evr mask.toNat⟩⟩

end Sys2Proof.Machine
end

section
/-! SUPPORT. The cycle of the row ring, and a peer whose numbers two members share (R390, R391, R393 to R395). -/

namespace Sys2Proof.Machine

/-- The state in which a cycle has judged time master, shelf time and lead. -/
def State.cycleJudged (s : State) : State :=
  (((({ s with net := { s.net with cycleTick := some s.sys.tick } }).rowSend 0x10
    (statusBytes s.ownStatus)).memberStatus s.rackId s.shelfIndex s.net.ringSeq s.ownStatus).judgeMaster.timeFollow).elect

/-- The cycle of a member that is neither lead nor time master ends with the judgement. -/
theorem exec_ringCycle_follower {s : State} (joined : s.net.joined = true) (due : s.due 500 s.net.cycleTick = true)
    (noLead : s.cycleJudged.sys.lead = false) (noMaster : s.cycleJudged.net.timeMaster = false) :
    exec .ringCycle s = .next s.cycleJudged := by
  have cycle : exec .ringCycle s = .next (
      let v := if s.cycleJudged.sys.lead then s.cycleJudged.leadCycle else s.cycleJudged
      if v.net.timeMaster then
        v.rowSend 0x01 (leBytes 8 v.sys.timeNs ++ leBytes 8 0 ++ leBytes 1 v.net.clockClass)
      else v) :=
    congrArg Host.Outcome.next (if_neg (by simp [joined, due]))
  simp only [cycle, noLead, noMaster, Bool.false_eq_true, if_false]

/-- A peer in RUN under whose numbers two members send: its SEQ ran back at root time 0. -/
def sharedNumbers : Member :=
  { rack := 0, shelf := 1, at_ := 0, seq := 0, twoAt := some 0, subject := false, silentSent := false, candAt := none
    st := { state := 4, startReq := false, lead := false, overload := false, ptpLock := false, orphan := false
            boundary := false, clockClass := 248, offer := 0, want := 0, min := 0, plim := 0, gridReq := 0, psuCap := 0 } }

/-- A lead in STANDBY that has seen that peer only. -/
def leadBesideShared : State :=
  { State.reset with
    sys := { State.reset.sys with state := .standby, lead := true }
    net := { State.reset.net with joined := true, members := [sharedNumbers] } }

/-- No member is a candidate: this one is in STANDBY, and of the peer two share the numbers (R391, R394). -/
theorem leadBesideShared_judged : leadBesideShared.cycleJudged.sys.lead = false ∧
    leadBesideShared.cycleJudged.net.timeMaster = false ∧ leadBesideShared.cycleJudged.net.leadShelf = 255 := by
  decide +kernel

/-- Refutes O37: a lead that is no candidate does not lose the lead to the only other member in RUN where two members share
that one's numbers, which the statement does not exclude: such a member is no candidate, and no shelf leads. -/
theorem not_ringCycleAndLead : ¬ Obligations.RingCycleAndLead := by
  unfold Obligations.RingCycleAndLead
  rintro ⟨-, -, -, -, -, -, -, loses⟩
  obtain ⟨noLead, noMaster, noShelf⟩ := leadBesideShared_judged
  have due : leadBesideShared.due 500 leadBesideShared.net.cycleTick = true := by decide +kernel
  obtain ⟨t, next, -, leads, -⟩ := loses sharedNumbers leadBesideShared rfl due rfl rfl rfl rfl rfl
    (by decide +kernel) (by decide +kernel) rfl rfl rfl (by decide +kernel)
  obtain rfl : leadBesideShared.cycleJudged = t := by
    rw [exec_ringCycle_follower rfl due noLead noMaster] at next
    exact Host.Outcome.next.inj next
  rw [noShelf] at leads
  exact absurd leads (by decide)

end Sys2Proof.Machine
end

section
/-! SUPPORT. The Ethernet port: its link, its MACsec channels, and what comes in a frame (R362 to R365, R383, R386, R471). -/

namespace Sys2Proof.Machine

/-- An event beside a change of the network block: the recorder does not read that block. -/
theorem State.ev_net_eq (s : State) (n : Net) (c i d : Nat) :
    ({ s with net := n } : State).ev c i d = { s with net := n, evr := s.evs [(c, i, d)] } :=
  State.ev_of (s := s) (by exact ⟨rfl, rfl, rfl, rfl, rfl⟩) c i d

/-! The link and READY (R365, R383). -/

/-- With the link up, READY sets where HBM is up or recovery runs, and stays. -/
theorem State.readyCheck_linked {s : State} (link : s.net.linkUp = true) : s.readyCheck =
    { s with net := { s.net with ready := s.net.ready || s.sec.hbmUp || s.sec.recovery } } := by
  unfold State.readyCheck
  rw [link, Bool.true_and, Bool.or_assoc]
  cases s.sec.hbmUp || s.sec.recovery with
  | false => rw [Bool.or_false]; rfl
  | true => rw [Bool.or_true]; rfl

section Link

variable {s : State}

theorem exec_ethLinkUp_comes (powered : s.power.powered = true) (noLoss : s.power.inputLoss = false)
    (down : s.net.linkUp = false) (runs : s.sec.fwRunning = true ∨ s.sec.recovery = true) :
    exec .ethLinkUp s = .next { s with
      net := { s.net with linkUp := true, ready := s.net.ready || s.sec.hbmUp || s.sec.recovery }
      evr := s.evs [(0xA001, noInst, 0)] } := by
  have next : exec .ethLinkUp s =
      .next ((({ s with net := { s.net with linkUp := true } } : State).ev 0xA001).readyCheck) :=
    congrArg Host.Outcome.next (if_neg (by rcases runs with h | h <;> simp [powered, noLoss, down, h]))
  rw [next, State.ev_net_eq, State.readyCheck_linked rfl]

theorem exec_ethLinkUp_idle (idle : s.power.powered = false ∨ s.power.inputLoss = true ∨ s.net.linkUp = true ∨
    (s.sec.fwRunning = false ∧ s.sec.recovery = false)) : exec .ethLinkUp s = .next s := by
  refine congrArg Host.Outcome.next (if_pos ?_)
  rcases idle with h | h | h | ⟨h, k⟩
  · simp [h]
  · simp [h]
  · simp [h]
  · simp [h, k]

theorem exec_ethLinkDown_goes (up : s.net.linkUp = true) : exec .ethLinkDown s =
    .next { s with net := { s.net with linkUp := false }, evr := s.evs [(0xA002, noInst, 0)] } :=
  congrArg Host.Outcome.next ((if_pos up).trans (State.ev_net_eq ..))

theorem exec_ethLinkDown_idle (down : s.net.linkUp = false) : exec .ethLinkDown s = .next s :=
  congrArg Host.Outcome.next (if_neg (by simp [down]))

/-! MACsec (R362). -/

/-- A receive channel joins while the link is up, a key is stored, and it is a new one of at most 4. -/
theorem exec_macsecUp_joins {sci : BitVec 64} (up : s.net.linkUp = true) (key : s.net.cak.isSome = true)
    (new : sci ∉ s.net.rxSc) (few : s.net.rxSc.length < 4) : exec (.macsecUp sci) s = .next (
      let t : State := { s with net := { s.net with macsecUp := true, rxSc := s.net.rxSc ++ [sci] } }
      if s.net.macsecUp then t else t.ev 0xA003) := by
  refine congrArg Host.Outcome.next (if_neg ?_)
  have stored : s.net.cak.isNone = false := by rw [← Option.not_isSome, key]; rfl
  simp [up, stored, new, few]

theorem exec_macsecUp_first {sci : BitVec 64} (up : s.net.linkUp = true) (key : s.net.cak.isSome = true)
    (dead : s.net.macsecUp = false) (none_ : s.net.rxSc = []) : exec (.macsecUp sci) s = .next { s with
      net := { s.net with macsecUp := true, rxSc := [sci] }, evr := s.evs [(0xA003, noInst, 0)] } := by
  rw [exec_macsecUp_joins up key (by simp [none_]) (by simp [none_]), none_, dead]
  exact congrArg Host.Outcome.next (State.ev_net_eq ..)

theorem exec_macsecUp_next {sci : BitVec 64} (up : s.net.linkUp = true) (key : s.net.cak.isSome = true)
    (live : s.net.macsecUp = true) (new : sci ∉ s.net.rxSc) (few : s.net.rxSc.length < 4) :
    exec (.macsecUp sci) s = .next { s with net := { s.net with rxSc := s.net.rxSc ++ [sci] } } := by
  rw [exec_macsecUp_joins up key new few, live]
  exact congrArg Host.Outcome.next
    (congrArg (fun m => { s with net := { s.net with macsecUp := m, rxSc := s.net.rxSc ++ [sci] } }) live.symm)

theorem exec_macsecUp_idle {sci : BitVec 64} (idle : s.net.linkUp = false ∨ s.net.cak = none ∨ sci ∈ s.net.rxSc ∨
    4 ≤ s.net.rxSc.length) : exec (.macsecUp sci) s = .next s := by
  refine congrArg Host.Outcome.next (if_pos ?_)
  rcases idle with h | h | h | h <;> simp [h]

theorem exec_macsecDown_ends (live : s.net.macsecUp = true) : exec .macsecDown s = .next { s with
    net := { s.net with macsecUp := false, rxSc := [] }, evr := s.evs [(0xA004, noInst, 0)] } :=
  congrArg Host.Outcome.next ((if_pos live).trans (State.ev_net_eq ..))

theorem exec_macsecDown_idle (dead : s.net.macsecUp = false) : exec .macsecDown s = .next s :=
  congrArg Host.Outcome.next (if_neg (by simp [dead]))

end Link

/-! What comes in a frame (R362, R364). -/

section Frame

variable {s : State} {f : Sys2Proof.FramePath} {v4 : Bool}

theorem State.netIn_lost (lost : s.net.linkUp = false ∨ s.framed f = false) (act : State → State) :
    s.netIn f v4 act = s :=
  if_pos (by rcases lost with h | h <;> simp [h])

theorem State.netIn_dropped (up : s.net.linkUp = true) (framed : s.framed f = true)
    (barred : s.mustDrop f = true ∨ (v4 = true ∧ s.net.ipv4En = false)) (act : State → State) :
    s.netIn f v4 act = s.dropOther :=
  (if_neg (by simp [up, framed])).trans (if_pos (by simpa using barred))

theorem State.netIn_acts (up : s.net.linkUp = true) (framed : s.framed f = true) (safe : s.mustDrop f = false)
    (served : v4 = false ∨ s.net.ipv4En = true) (act : State → State) : s.netIn f v4 act = act s :=
  (if_neg (by simp [up, framed])).trans (if_neg (by rcases served with h | h <;> simp [safe, h]))

theorem State.framed_iff : s.framed f = true ↔
    f.mac ∈ s.macs ∧ (f.vid = none ∨ f.vid = some s.net.vlan) ∧ f.plain = true ∧ f.size ≤ 9216 := by
  have tag : (f.vid.all fun v => decide (v = s.net.vlan)) = true ↔ f.vid = none ∨ f.vid = some s.net.vlan := by
    cases f.vid <;> simp
  simp only [State.framed, Bool.and_eq_true, List.contains_iff_mem, tag, decide_eq_true_eq, and_assoc]

theorem State.mustDrop_iff : s.mustDrop f = true ↔
    s.net.macsecReq = true ∧ s.net.cak.isSome = true ∧ ∀ c ∈ s.net.rxSc, f.sci ≠ some c := by
  have live : (!f.sci.any fun c => s.net.rxSc.contains c) = true ↔ ∀ c ∈ s.net.rxSc, f.sci ≠ some c := by
    cases f.sci with
    | none => simp
    | some c =>
      simp only [Option.any_some, Bool.not_eq_true', List.contains_eq_mem, decide_eq_false_iff_not, ne_eq, Option.some.injEq]
      exact ⟨fun out x mem same => out (same ▸ mem), fun out mem => out c mem rfl⟩
  simp only [State.mustDrop, Bool.and_eq_true, live, and_assoc]

/-! What a READY port answers (R362 to R364, R383). -/

variable {v6 arp : Bool} {ident : BitVec 32} {target : List Byte}

/-- The answer to an echo request that comes in, while fewer than 100 were in the last second. -/
theorem exec_icmpEchoRequest_in (ready : s.net.ready = true) (up : s.net.linkUp = true) (framed : s.framed f = true)
    (safe : s.mustDrop f = false) (served : v6 = true ∨ s.net.ipv4En = true) :
    exec (.icmpEchoRequest v6 f ident) s = .next (
      let recent := s.net.echoes.filter fun t => s.sys.tick < t + 500000
      if 100 ≤ recent.length then { s with net := { s.net with echoes := recent } }
      else { s with
        net := { s.net with echoes := s.sys.tick :: recent }, tx := .echo s.tag v6 ident.toNat :: s.tx }) :=
  congrArg Host.Outcome.next ((if_neg (by simp [ready])).trans
    (State.netIn_acts up framed safe (by rcases served with h | h <;> simp [h]) _))

theorem exec_icmpEchoRequest_dropped (ready : s.net.ready = true) (up : s.net.linkUp = true)
    (framed : s.framed f = true) (barred : s.mustDrop f = true ∨ (v6 = false ∧ s.net.ipv4En = false)) :
    exec (.icmpEchoRequest v6 f ident) s = .next s.dropOther :=
  congrArg Host.Outcome.next ((if_neg (by simp [ready])).trans (State.netIn_dropped up framed (by simpa using barred) _))

theorem exec_ndpArpRequest_dropped (ready : s.net.ready = true) (up : s.net.linkUp = true)
    (framed : s.framed f = true) (barred : s.mustDrop f = true ∨ (arp = true ∧ s.net.ipv4En = false)) :
    exec (.ndpArpRequest arp f target) s = .next s.dropOther :=
  congrArg Host.Outcome.next ((if_neg (by simp [ready])).trans (State.netIn_dropped up framed barred _))

/-- Nothing comes of a request or a datagram before READY, without a link, or in a frame that is not taken. -/
theorem exec_requests_lost (lost : s.net.ready = false ∨ s.net.linkUp = false ∨ s.framed f = false) :
    exec (.icmpEchoRequest v6 f ident) s = .next s ∧ exec (.ndpArpRequest arp f target) s = .next s ∧
    exec (.unservedDatagram f) s = .next s := by
  cases ready : s.net.ready with
  | false =>
    exact ⟨congrArg Host.Outcome.next (if_pos (by simp [ready])),
      congrArg Host.Outcome.next (if_pos (by simp [ready])), congrArg Host.Outcome.next (if_neg (by simp [ready]))⟩
  | true =>
    have out := lost.resolve_left (by simp [ready])
    exact ⟨congrArg Host.Outcome.next ((if_neg (by simp [ready])).trans (State.netIn_lost out _)),
      congrArg Host.Outcome.next ((if_neg (by simp [ready])).trans (State.netIn_lost out _)),
      congrArg Host.Outcome.next ((if_pos ready).trans (State.netIn_lost out _))⟩

/-- A request for an address of the module is answered, and one for another is not. -/
theorem exec_ndpArpRequest_in (ready : s.net.ready = true) (up : s.net.linkUp = true) (framed : s.framed f = true)
    (safe : s.mustDrop f = false) (served : arp = false ∨ s.net.ipv4En = true) :
    exec (.ndpArpRequest arp f target) s = .next (
      if (if arp then target == leBytes 4 s.net.ip4 else target == s.linkLocal || target == s.ip6Bytes) then
        { s with tx := .neighbour s.tag s.net.mac target :: s.tx }
      else s) :=
  congrArg Host.Outcome.next ((if_neg (by simp [ready])).trans (State.netIn_acts up framed safe served _))

theorem exec_unservedDatagram_counted (ready : s.net.ready = true) (up : s.net.linkUp = true)
    (framed : s.framed f = true) : exec (.unservedDatagram f) s = .next s.dropOther := by
  refine congrArg Host.Outcome.next ((if_pos ready).trans ?_)
  cases safe : s.mustDrop f with
  | true => exact State.netIn_dropped up framed (.inl safe) _
  | false => exact State.netIn_acts up framed safe (.inl rfl) _

end Frame

/-! The silence of the rack manager (R386). -/

theorem exec_orphanEntered_silent {s : State} (serves : s.sys.state = .run ∨ s.sys.state = .basalt)
    (heard : s.sys.orphan = false) (silent : s.elapsedNs s.net.rmFrom (1000000 * s.net.timeoutMs) = true) :
    exec .orphanEntered s = .next (({ s with
      sys := { s.sys with orphan := true }
      tlk := { s.tlk with port := mapV s.tlk.port fun n p =>
        { p with orphanCap := some (if p.grants then s.grantEnv n else 0) } }
      evr := s.evs [(0xA040, noInst, 0)] }).regrant s) := by
  refine congrArg Host.Outcome.next ((if_pos ?_).trans (congrArg (State.regrant · s) ?_))
  · rcases serves with h | h <;> simp [State.inState, h, heard, silent]
  · exact State.ev_of (s := s) (by exact ⟨rfl, rfl, rfl, rfl, rfl⟩) 0xA040 noInst 0

theorem exec_orphanEntered_idle {s : State} (idle : s.inState [.run, .basalt] = false ∨ s.sys.orphan = true ∨
    s.elapsedNs s.net.rmFrom (1000000 * s.net.timeoutMs) = false) : exec .orphanEntered s = .next s :=
  congrArg Host.Outcome.next (if_neg (by rcases idle with h | h | h <;> simp [h]))

/-! A firmware read of a queue (R471). -/

/-- Two changes of a queue that agree on the queue as it is. -/
theorem State.updQ_congr {s : State} {q : Fin 16} {f g : Queue → Queue} (same : f s.net.q[q.val] = g s.net.q[q.val]) :
    s.updQ q f = s.updQ q g :=
  congrArg (fun x => { s with net := { s.net with q := s.net.q.set q.val x } }) same

section Read

variable {q : Fin 16} {s : State}

theorem exec_fifoQDataRead_runs (runs : s.sec.fwRunning = true ∨ s.sec.recovery = true) :
    exec (.fifoQDataRead q) s = .next (s.updQ q Queue.takeEntry).shedCheck :=
  congrArg Host.Outcome.next (if_pos (by simpa using runs))

theorem exec_fifoQDataRead_takes {m : Msg} {l : List Msg} (runs : s.sec.fwRunning = true ∨ s.sec.recovery = true)
    (front : s.net.q[q.val].msgs = m :: l) : exec (.fifoQDataRead q) s = .next (s.updQ q fun x =>
      if m.entries ≤ x.taken + 1 then { x with msgs := l, taken := 0, hand := x.hand ++ [m], stalled := false }
      else { x with taken := x.taken + 1, stalled := false }).shedCheck := by
  rw [exec_fifoQDataRead_runs runs]
  refine congrArg (Host.Outcome.next ∘ State.shedCheck) (State.updQ_congr ?_)
  rw [Queue.takeEntry, front]

theorem exec_fifoQDataRead_stalls (runs : s.sec.fwRunning = true ∨ s.sec.recovery = true)
    (empty : s.net.q[q.val].msgs = []) :
    exec (.fifoQDataRead q) s = .next (s.updQ q fun x => { x with stalled := true }).shedCheck := by
  rw [exec_fifoQDataRead_runs runs]
  refine congrArg (Host.Outcome.next ∘ State.shedCheck) (State.updQ_congr ?_)
  rw [Queue.takeEntry, empty]

theorem exec_fifoQDataRead_halted (noFw : s.sec.fwRunning = false) (noRecovery : s.sec.recovery = false) :
    exec (.fifoQDataRead q) s = .next s :=
  congrArg Host.Outcome.next (if_neg (by simp [noFw, noRecovery]))

end Read

/-- Settles O28: each command by what it tests, and what comes in a frame by the three cases of its way in. -/
theorem ethernetPort : Obligations.EthernetPort := by
  refine ⟨fun _ => exec_ethLinkUp_comes, fun _ => exec_ethLinkUp_idle, fun _ => exec_ethLinkDown_goes,
    fun _ => exec_ethLinkDown_idle, fun _ _ => exec_macsecUp_first, fun _ _ => exec_macsecUp_next,
    fun _ _ => exec_macsecUp_idle, fun _ => exec_macsecDown_ends, fun _ => exec_macsecDown_idle,
    fun f v4 act s => ⟨fun lost => State.netIn_lost lost act,
      fun up framed barred => State.netIn_dropped up framed barred act,
      fun up framed safe served => State.netIn_acts up framed safe served act⟩,
    fun _ _ => ⟨State.framed_iff, State.mustDrop_iff⟩, ?echo, ?tooMany, ?dropped, fun _ _ _ _ _ _ => exec_requests_lost,
    ?answered, ?notOurs, fun _ _ => exec_unservedDatagram_counted, fun _ => exec_orphanEntered_silent,
    fun _ => exec_orphanEntered_idle, fun _ _ _ _ => exec_fifoQDataRead_takes, fun _ _ => exec_fifoQDataRead_stalls,
    fun _ _ => exec_fifoQDataRead_halted⟩
  case echo =>
    intro v6 f ident s ready up framed safe served few
    exact (exec_icmpEchoRequest_in ready up framed safe served).trans (congrArg Host.Outcome.next (if_neg (by omega)))
  case tooMany =>
    intro v6 f ident s ready up framed safe served many
    exact (exec_icmpEchoRequest_in ready up framed safe served).trans (congrArg Host.Outcome.next (if_pos many))
  case dropped =>
    intro v6 arp f ident target s ready up framed barred
    exact ⟨exec_icmpEchoRequest_dropped ready up framed (barred.imp_right fun ⟨v4, _, off⟩ => ⟨v4, off⟩),
      exec_ndpArpRequest_dropped ready up framed (barred.imp_right And.right)⟩
  case answered =>
    rintro arp f target s ready up framed safe (⟨rfl, ours⟩ | ⟨rfl, en, rfl⟩)
    · exact (exec_ndpArpRequest_in ready up framed safe (.inl rfl)).trans
        (congrArg Host.Outcome.next (if_pos (by simpa using ours)))
    · exact (exec_ndpArpRequest_in ready up framed safe (.inr en)).trans
        (congrArg Host.Outcome.next (if_pos (by simp)))
  case notOurs =>
    rintro arp f target s ready up framed safe (⟨rfl, notLocal, notGlobal⟩ | ⟨rfl, en, other⟩)
    · exact (exec_ndpArpRequest_in ready up framed safe (.inl rfl)).trans
        (congrArg Host.Outcome.next (if_neg (by simp [notLocal, notGlobal])))
    · exact (exec_ndpArpRequest_in ready up framed safe (.inr en)).trans
        (congrArg Host.Outcome.next (if_neg (by simp [other])))

end Sys2Proof.Machine
end

section
/-! SUPPORT. Handshakes: how a datagram comes in, and what HELLO and FINISH bring (R371 to R373, R383). -/

namespace Sys2Proof.Machine

/-! A datagram on its way in (R362, R364, R371). -/

/-- What a SECURED datagram that has come in does (R371, R374, R383 to R386). -/
def State.securedIn (s : State) (d : Sys2Proof.Datagram) : State :=
  match (sessOf d.bytes).filter fun n => (s.sess n).isOpen with
  | none => s.tagFails none
  | some k =>
    match openSecured (s.sess k).rxKey d.bytes with
    | none => s.tagFails (some k)
    | some inner => if (s.sess k).fresh (seqOf d.bytes) then s.accepted k (seqOf d.bytes) inner else s.replayed k

section Datagram

variable {d : Sys2Proof.Datagram} {s : State}

/-- A HELLO with its header comes in as other frames do. -/
theorem exec_hello_headed (header : hcpFramed d.bytes 1 = true) :
    exec (.hello d) s = .next (s.netIn d.path (d.dst = 2) fun s => s.helloIn d) :=
  congrArg Host.Outcome.next (if_neg (by simp [header]))

theorem exec_finish_headed (ready : s.net.ready = true) (header : hcpFramed d.bytes 3 = true) :
    exec (.finish d) s = .next (s.netIn d.path (d.dst = 2) fun s => s.finishIn d) :=
  congrArg Host.Outcome.next (if_neg (by simp [ready, header]))

/-- The session of a SECURED datagram is looked up before its frame, which changes nothing of what is found. -/
theorem exec_secured_headed (ready : s.net.ready = true) (header : hcpFramed d.bytes 0x10 = true) :
    exec (.secured d) s = .next (s.netIn d.path (d.dst = 2) fun _ => s.securedIn d) := by
  have next : exec (.secured d) s = .next (s.netIn d.path (d.dst = 2) fun t =>
      match (sessOf d.bytes).filter fun n => (s.sess n).isOpen with
      | none => t.tagFails none
      | some k =>
        match openSecured (t.sess k).rxKey d.bytes with
        | none => t.tagFails (some k)
        | some inner => if (t.sess k).fresh (seqOf d.bytes) then t.accepted k (seqOf d.bytes) inner else t.replayed k) :=
    congrArg Host.Outcome.next (if_neg (by simp [ready, header]))
  rw [next]
  rfl

theorem exec_hello_lost (lost : hcpFramed d.bytes 1 = false ∨ s.net.linkUp = false ∨ s.framed d.path = false) :
    exec (.hello d) s = .next s := by
  cases header : hcpFramed d.bytes 1 with
  | false => exact congrArg Host.Outcome.next (if_pos (by simp [header]))
  | true => rw [exec_hello_headed header, State.netIn_lost (lost.resolve_left (by simp [header]))]

theorem exec_finish_lost (lost : s.net.ready = false ∨ hcpFramed d.bytes 3 = false ∨ s.net.linkUp = false ∨
    s.framed d.path = false) : exec (.finish d) s = .next s := by
  by_cases headed : s.net.ready = true ∧ hcpFramed d.bytes 3 = true
  · obtain ⟨ready, header⟩ := headed
    rw [exec_finish_headed ready header, State.netIn_lost (by simpa [ready, header] using lost)]
  · exact congrArg Host.Outcome.next (if_pos (by simpa [Decidable.imp_iff_not_or] using headed))

theorem exec_secured_lost (lost : s.net.ready = false ∨ hcpFramed d.bytes 0x10 = false ∨ s.net.linkUp = false ∨
    s.framed d.path = false) : exec (.secured d) s = .next s := by
  by_cases headed : s.net.ready = true ∧ hcpFramed d.bytes 0x10 = true
  · obtain ⟨ready, header⟩ := headed
    rw [exec_secured_headed ready header, State.netIn_lost (by simpa [ready, header] using lost)]
  · exact congrArg Host.Outcome.next (if_pos (by simpa [Decidable.imp_iff_not_or] using headed))

/-- A datagram over an unprotected frame where protection is required, or over IPv4 that is not served, is counted. -/
theorem State.netIn_datagram_dropped (up : s.net.linkUp = true) (framed : s.framed d.path = true)
    (barred : s.mustDrop d.path = true ∨ (d.dst = 2 ∧ s.net.ipv4En = false)) (act : State → State) :
    s.netIn d.path (d.dst = 2) act = s.dropOther :=
  State.netIn_dropped up framed (by simpa using barred) act

section In

variable (up : s.net.linkUp = true) (framed : s.framed d.path = true) (safe : s.mustDrop d.path = false)
  (served : d.dst ≠ 2 ∨ s.net.ipv4En = true)
include up framed safe served

theorem State.netIn_datagram (act : State → State) : s.netIn d.path (d.dst = 2) act = act s :=
  State.netIn_acts up framed safe (by simpa using served) act

theorem exec_hello_in (header : hcpFramed d.bytes 1 = true) : exec (.hello d) s = .next (s.helloIn d) := by
  rw [exec_hello_headed header, State.netIn_datagram up framed safe served]

theorem exec_finish_in (ready : s.net.ready = true) (header : hcpFramed d.bytes 3 = true) :
    exec (.finish d) s = .next (s.finishIn d) := by
  rw [exec_finish_headed ready header, State.netIn_datagram up framed safe served]

theorem exec_secured_in (ready : s.net.ready = true) (header : hcpFramed d.bytes 0x10 = true) :
    exec (.secured d) s = .next (s.securedIn d) := by
  rw [exec_secured_headed ready header, State.netIn_datagram up framed safe served]

end In

end Datagram

/-! A payload leaves (R371, R372). -/

/-- Frames of a handshake leave one after the other. -/
theorem State.foldl_sendHandshake (peer : List Byte) (port : Nat) (part : Nat → List Byte) (l : List Nat) (s : State) :
    l.foldl (fun s k => s.send (.handshake s.tag peer port (part k))) s =
      { s with tx := (l.map fun k => .handshake s.tag peer port (part k)).reverse ++ s.tx } := by
  induction l generalizing s with
  | nil => rfl
  | cons k l ih =>
    rw [List.foldl_cons, ih, List.map_cons, List.reverse_cons, List.append_assoc]
    rfl

theorem State.sendPayload_eq (s : State) (peer p : List Byte) (port kind sess : Nat) :
    s.sendPayload peer port kind sess p = { s with tx :=
      ((List.range (ceilDiv p.length 8968)).map fun k => Output.handshake s.tag peer port
        (hcpHdr kind sess (8968 * k + 2 ^ 32 * p.length) ++ bytesAt p (8968 * k) (min 8968 (p.length - 8968 * k)))).reverse
      ++ s.tx } :=
  State.foldl_sendHandshake peer port _ _ s

theorem State.reject_eq (s : State) (peer : List Byte) (port sess status : Nat) : s.reject peer port sess status =
    { s with tx := .handshake s.tag peer port (hcpHdr 4 sess (2 ^ 32) ++ leBytes 1 status) :: s.tx } := by
  rw [State.reject, State.sendPayload_eq, leBytes_length]
  rfl

/-! What a datagram of a payload leaves (R372). -/

section Gather

variable {h : Handshake} {b : List Byte} {s : State}

theorem State.gather_malformed (bad : at32 b 12 = 0 ∨ 65536 < at32 b 12 ∨ at32 b 12 < at32 b 8 + (b.drop 16).length ∨
    (h.parts ≠ [] ∧ h.total ≠ at32 b 12)) : s.gather h b = .malformed :=
  if_pos (by simpa [or_assoc] using bad)

/-- A fragment that a payload has joins those before it. -/
theorem State.gather_joins (some_ : 0 < at32 b 12) (fits : at32 b 12 ≤ 65536)
    (inside : at32 b 8 + (b.drop 16).length ≤ at32 b 12) (same : h.parts = [] ∨ h.total = at32 b 12) :
    s.gather h b =
      match (List.range (at32 b 12)).mapM (fragByte ({ off := at32 b 8, data := b.drop 16 } :: h.parts)) with
      | some p => .whole p
      | none => .waits { h with
          total := at32 b 12, parts := { off := at32 b 8, data := b.drop 16 } :: h.parts
          partAt := if h.parts = [] then s.rootNs else h.partAt } := by
  have first : (if h.parts.isEmpty = true then s.rootNs else h.partAt) = if h.parts = [] then s.rootNs else h.partAt :=
    if_congr List.isEmpty_iff rfl rfl
  rw [← first]
  refine (if_neg ?_).trans rfl
  simp only [Bool.or_eq_true, decide_eq_true_eq, Bool.and_eq_true, Bool.not_eq_true', List.isEmpty_eq_false_iff, bne_iff_ne]
  rintro (((none_ | long) | out) | ⟨more, other⟩)
  · omega
  · omega
  · exact absurd inside (by simpa using out)
  · exact other (same.resolve_left more)

end Gather

/-! HELLO (R372, R373). -/

theorem State.gatherHello_whole (d : Sys2Proof.Datagram) (h : Handshake) (p : List Byte) (s : State) :
    s.gatherHello d h (.whole p) =
      if helloFormed p = false then s.reject d.peer d.port.toNat (at32 d.bytes 4) stMalformed
      else if s.certOk (p.drop 0x6A1) = false then
        (s.reject d.peer d.port.toNat (at32 d.bytes 4) stDenied).ev 0xA012
      else s.answerHello h p :=
  if_congr (by rw [Bool.not_eq_true']) rfl (if_congr (by rw [Bool.not_eq_true']) rfl rfl)

theorem State.dropHs_none (s : State) : s.dropHs (fun h => some h == none) = s :=
  congrArg (fun l => { s with net := { s.net with hs := l } }) (List.filter_eq_self.2 fun _ _ => rfl)

section Hello

variable {d : Sys2Proof.Datagram} {s : State}

theorem State.helloIn_early (early : s.net.ready = false) :
    s.helloIn d = s.reject d.peer d.port.toNat (at32 d.bytes 4) stNotReady :=
  if_pos (by simp [early])

variable (ready : s.net.ready = true)
include ready

/-- A HELLO of a peer and port without a handshake under way. -/
theorem State.helloIn_first
    (first : (s.net.hs.find? fun h => !h.replied && h.peer == d.peer && h.port = d.port.toNat) = none) :
    s.helloIn d =
      if at32 d.bytes 4 ≠ 0 then s.reject d.peer d.port.toNat (at32 d.bytes 4) stMalformed
      else match (if 8 ≤ s.net.hs.length then none else s.freeSess) with
        | none => s.reject d.peer d.port.toNat (at32 d.bytes 4) stBusy
        | some n =>
          let h : Handshake := { sess := n.val, replied := false, peer := d.peer, port := d.port.toNat, dst := d.dst.val
                                 at_ := s.rootNs }
          s.gatherHello d h (s.gather h d.bytes) := by
  unfold State.helloIn
  simp only [first, s.dropHs_none, ready, bne_iff_ne, Bool.not_true, Bool.false_eq_true, if_false]
  refine if_congr Iff.rfl rfl ?_
  by_cases full : 8 ≤ s.net.hs.length
  · simp only [if_pos full, Option.orElse_none]
  · simp only [if_neg full, Option.orElse_none]
    cases s.freeSess <;> rfl

/-- A HELLO of a peer and port whose payload is being gathered. -/
theorem State.helloIn_next {h : Handshake}
    (part : (s.net.hs.find? fun h => !h.replied && h.peer == d.peer && h.port = d.port.toNat) = some h) :
    s.helloIn d =
      if at32 d.bytes 4 = 0 then (s.dropHs (· == h)).gatherHello d h (s.gather h d.bytes)
      else (s.dropHs (· == h)).reject d.peer d.port.toNat (at32 d.bytes 4) stMalformed := by
  unfold State.helloIn
  simp only [part, ready, Option.some_beq_some, Option.orElse_some]
  by_cases unnamed : at32 d.bytes 4 = 0 <;> simp [unnamed]

end Hello

/-! FINISH (R372). -/

theorem sessOf_some {b : List Byte} {n : Fin 64} (named : at32 b 4 = n.val) : sessOf b = some n := by
  unfold sessOf
  rw [dif_pos (named ▸ n.isLt)]
  exact congrArg some (Fin.ext named)

theorem sessOf_none {b : List Byte} (out : 64 ≤ at32 b 4) : sessOf b = none := dif_neg (by omega)

section Finish

variable {d : Sys2Proof.Datagram} {s : State}

theorem State.finishIn_unknown (unknown : 64 ≤ at32 d.bytes 4 ∨
    (s.net.hs.find? fun h => h.sess = at32 d.bytes 4 && h.replied) = none) : s.finishIn d = s := by
  unfold State.finishIn
  rcases Nat.lt_or_ge (at32 d.bytes 4) 64 with inside | out
  · rw [sessOf_some (n := ⟨_, inside⟩) rfl, Option.bind_some]
    dsimp only
    rw [unknown.resolve_left (by omega)]
    rfl
  · rw [sessOf_none out]
    rfl

theorem State.finishIn_known {n : Fin 64} {h : Handshake} (named : at32 d.bytes 4 = n.val)
    (known : (s.net.hs.find? fun h => h.sess = n.val && h.replied) = some h) : s.finishIn d =
      let rest := { s with net := { s.net with hs := s.net.hs.filter fun x => x.sess != n.val } }
      match s.gather h d.bytes with
      | .malformed => rest.reject h.peer h.port n.val stMalformed
      | .waits g => { rest with net := { rest.net with hs := rest.net.hs ++ [g] } }
      | .whole p =>
        if p.length ≠ 16608 then rest.reject h.peer h.port n.val stMalformed
        else if rsaVerifies (bytesAt h.holder 0 4) (bytesAt h.holder 4 384) (p.take 384) h.digest = true ∧
            slhVerifies (bytesAt h.holder 388 48) (p.drop 384) h.digest = true then rest.openSess n h
        else (rest.reject h.peer h.port n.val stDenied).ev 0xA012 n.val := by
  have others : (s.net.hs.filter fun x => !decide (x.sess = n.val)) = s.net.hs.filter fun x => x.sess != n.val :=
    List.filter_congr fun _ _ => rfl
  unfold State.finishIn
  rw [sessOf_some named, Option.bind_some, known]
  simp only [Option.map_some, State.gatherFinish, State.dropHs, others]
  cases s.gather h d.bytes with
  | malformed => rfl
  | waits g => rfl
  | whole p => exact if_congr bne_iff_ne rfl (if_congr Bool.and_eq_true_iff rfl rfl)

end Finish

theorem exec_handshakeTimeout_eq (n : Fin 64) (s : State) :
    exec (.handshakeTimeout n) s = .next { s with net := { s.net with
      hs := (s.net.hs.filter fun h => h.sess != n.val ||
          !(if h.replied then s.elapsedNs h.at_ 2000000000 else s.elapsedNs h.partAt 1000000000)).map fun (h : Handshake) =>
        if h.sess = n.val ∧ h.replied = true ∧ h.parts ≠ [] ∧ s.elapsedNs h.partAt 1000000000 = true then
          { h with total := 0, parts := [] } else h } } := by
  have kept : (s.net.hs.filter fun h => h.sess != n.val ||
      !s.elapsedNs (if h.replied then h.at_ else h.partAt) (if h.replied then 2000000000 else 1000000000)) =
      s.net.hs.filter fun h => h.sess != n.val ||
        !(if h.replied then s.elapsedNs h.at_ 2000000000 else s.elapsedNs h.partAt 1000000000) :=
    List.filter_congr fun h _ => by cases h.replied <;> rfl
  rw [← kept]
  refine congrArg (fun l => Host.Outcome.next { s with net := { s.net with hs := l } }) ?_
  exact List.map_congr_left fun h _ => if_congr (by simp [and_assoc]) rfl rfl

end Sys2Proof.Machine
end

section
/-! SUPPORT. Sessions: how one opens, what its datagrams do, and how it closes (R364, R371 to R374, R376, R384, R402). -/

namespace Sys2Proof.Machine

/-! A session opens (R372). -/

/-- The session that FINISH opens, before its first message. -/
def Handshake.opened (h : Handshake) (now : Nat) : Sess :=
  { isOpen := true, role := h.role, rackManager := h.rackManager, peer := h.peer, port := h.port, dst := h.dst
    lastRx := now, txKey := h.txKey, rxKey := h.rxKey }

/-- ROLE of SESSION_OPEN (R377). -/
def Role.openCode : Role → Nat
  | .monitor => 1
  | .operator => 2
  | .integrator => 3

/-- SESSION_OPEN leaves under SEQ 1, and event 0xA010 marks the session. -/
theorem State.openSess_eq (n : Fin 64) (h : Handshake) (s : State) : s.openSess n h =
    (((s.updSess n fun _ => { h.opened s.rootNs with txSeq := 2 }).send
      ((s.updSess n fun _ => h.opened s.rootNs).message n 2 0 flUnsolicited 0
        (leBytes 1 h.role.openCode ++ leBytes 1 (bitAt h.rackManager 0) ++ leBytes 8 s.sys.timeNs))).ev 0xA010 n.val) := by
  have own : (s.updSess n fun _ => h.opened s.rootNs).sess n = h.opened s.rootNs :=
    (s.updSess_sess n n _).trans (if_pos rfl)
  have sent := State.sendTo_open (s := s.updSess n fun _ => h.opened s.rootNs) (n := n) (by rw [own]; rfl)
    (by rw [own]; exact (by decide : 1 + 2 < 2 ^ 63)) 2 0 0 flUnsolicited
    (leBytes 1 h.role.openCode ++ leBytes 1 (bitAt h.rackManager 0) ++ leBytes 8 s.sys.timeNs)
  rw [State.updSess_twice] at sent
  exact (congrArg (State.ev · 0xA010 n.val) sent)

theorem State.openSess_does (n : Fin 64) (h : Handshake) (s : State) :
    (s.openSess n h).sess n =
      { isOpen := true, role := h.role, rackManager := h.rackManager, peer := h.peer, port := h.port, dst := h.dst
        lastRx := s.rootNs, txKey := h.txKey, rxKey := h.rxKey, txSeq := 2 } ∧
    (∀ j, j ≠ n → (s.openSess n h).sess j = s.sess j) ∧
    (∀ c : Nat, (c = 1 ∧ h.role = .monitor) ∨ (c = 2 ∧ h.role = .operator) ∨ (c = 3 ∧ h.role = .integrator) →
      let m := innerBytes 2 0 flUnsolicited 0 (leBytes 1 c ++ leBytes 1 (bitAt h.rackManager 0) ++ leBytes 8 s.sys.timeNs)
      (s.openSess n h).tx = .hcp s.tag n.val 1 m (securedBytes h.txKey n.val 1 m) :: s.tx) ∧
    (s.openSess n h).evr = s.evs [(0xA010, n.val, 0)] := by
  have sess (j : Fin 64) : (s.openSess n h).sess j = (s.updSess n fun _ => { h.opened s.rootNs with txSeq := 2 }).sess j := by
    rw [State.openSess_eq, State.sess, State.ev_net]
    rfl
  refine ⟨?_, fun j other => ?_, fun c code => ?_, ?_⟩
  · exact (sess n).trans ((s.updSess_sess n n _).trans (if_pos rfl))
  · exact (sess j).trans ((s.updSess_sess n j _).trans (if_neg other.symm))
  · obtain rfl : h.role.openCode = c := by
      rcases code with ⟨rfl, role⟩ | ⟨rfl, role⟩ | ⟨rfl, role⟩ <;> rw [role] <;> rfl
    have own : (s.updSess n fun _ => h.opened s.rootNs).sess n = h.opened s.rootNs :=
      (s.updSess_sess n n _).trans (if_pos rfl)
    rw [State.openSess_eq, State.ev_tx]
    simp only [State.message, own]
    rfl
  · rw [State.openSess_eq]
    exact (State.SameEv.ev (s := s) (by exact ⟨rfl, rfl, rfl, rfl, rfl⟩) 0xA010 n.val 0).evr.symm

/-! A session closes (R374, R382, R402). -/

/-- A queued message of session `n` belongs to no session any more. -/
def Msg.orphaned (n : Fin 64) (m : Msg) : Msg := if m.sess = n.val then { m with sess := noSess } else m

/-- A state without what belonged to session `n`. -/
def State.withoutSess (s : State) (n : Fin 64) : State :=
  { s with
    sys := { s.sys with latches := s.sys.latches.filter fun l => l.requester != n.val }
    net := { s.net with
      sess := updV s.net.sess n fun _ => {}
      blocks := s.net.blocks.filter fun b => b.sess != n.val
      q := s.net.q.map fun (q : Queue) => { q with
        msgs := q.msgs.map (Msg.orphaned n), hand := q.hand.map (Msg.orphaned n) } }
    evr := s.evs [(0xA011, n.val, 0)] }

theorem State.closeSess_closed {n : Fin 64} {s : State} (closed : (s.sess n).isOpen = false) : s.closeSess n = s :=
  if_pos (by simp [closed])

/-- A close takes what belonged to the session, and gives a push of its own up. -/
theorem State.closeSess_open {n : Fin 64} {s : State} (isOpen : (s.sess n).isOpen = true) :
    s.closeSess n = if s.cfg.push.any (fun p => p.sess = n.val) then (s.withoutSess n).dropShadow
      else s.withoutSess n := by
  have marked : (s.updSess n fun _ => {}).ev 0xA011 n.val =
      { s.updSess n fun _ => {} with evr := s.evs [(0xA011, n.val, 0)] } := State.ev_net_eq ..
  refine (if_neg (by simp [isOpen])).trans ?_
  rw [marked]
  rfl

/-- The recorder reads nothing of what a close takes besides what it records. -/
theorem State.withoutSess_sameEv (s : State) (n : Fin 64) : (s.ev 0xA011 n.val).SameEv (s.withoutSess n) :=
  ⟨by rw [State.ev_cfg]; rfl, rfl, by rw [State.ev_sys]; rfl, by rw [State.ev_sys]; rfl, by rw [State.ev_clk]; rfl⟩

/-- A push that is given up: its shadow, and event 0x2005. -/
theorem State.withoutSess_dropShadow (s : State) (n : Fin 64) : (s.withoutSess n).dropShadow = { s.withoutSess n with
    cfg := { s.cfg with shadowState := .empty, shadow := none, staging := [], push := none }
    evr := s.evs [(0xA011, n.val, 0), (0x2005, noInst, 0)] } := by
  have same := s.withoutSess_sameEv n
  rw [State.evs_cons, State.evs_cons, State.evs_nil]
  exact State.ev_of (s := s.ev 0xA011 n.val) (t := { s.withoutSess n with
    cfg := { s.cfg with shadowState := .empty, shadow := none, staging := [], push := none } })
    ⟨same.active, same.evr, same.tick, same.time, same.stopped⟩ 0x2005 noInst 0

/-- The parts but CFG and EVR after a close are those without what belonged to the session. -/
theorem State.closeSess_only {n : Fin 64} {s : State} (isOpen : (s.sess n).isOpen = true) :
    State.only [.cfg, .evr] (s.withoutSess n) (s.closeSess n) := by
  rw [State.closeSess_open isOpen]
  split
  · rw [State.withoutSess_dropShadow]
    intro b out
    cases b with
    | cfg | evr => exact absurd (by decide) out
    | _ => rfl
  · exact State.only_refl

theorem State.closeSess_does {n : Fin 64} {s : State} (isOpen : (s.sess n).isOpen = true) :
    (s.closeSess n).sess n = {} ∧ (∀ j, j ≠ n → (s.closeSess n).sess j = s.sess j) ∧
    (s.closeSess n).net.blocks = (s.net.blocks.filter fun b => b.sess != n.val) ∧
    (s.closeSess n).net.q = (s.net.q.map fun (q : Queue) => { q with
      msgs := q.msgs.map fun (m : Msg) => if m.sess = n.val then { m with sess := noSess } else m
      hand := q.hand.map fun (m : Msg) => if m.sess = n.val then { m with sess := noSess } else m }) ∧
    (s.closeSess n).sys = { s.sys with latches := s.sys.latches.filter fun l => l.requester != n.val } ∧
    (if s.cfg.push.any (fun p => p.sess = n.val) = true then
      (s.closeSess n).cfg = { s.cfg with shadowState := .empty, shadow := none, staging := [], push := none } ∧
      (s.closeSess n).evr = s.evs [(0xA011, n.val, 0), (0x2005, noInst, 0)]
    else (s.closeSess n).cfg = s.cfg ∧ (s.closeSess n).evr = s.evs [(0xA011, n.val, 0)]) := by
  have net : (s.closeSess n).net = (s.withoutSess n).net := State.closeSess_only isOpen .net (by decide)
  have sys : (s.closeSess n).sys = (s.withoutSess n).sys := State.closeSess_only isOpen .sys (by decide)
  have sess (j : Fin 64) : (s.closeSess n).sess j = (s.updSess n fun _ => {}).sess j :=
    (congrArg (fun x : Net => x.sess[j.val]) net).trans rfl
  refine ⟨?_, fun j other => ?_, congrArg Net.blocks net, congrArg Net.q net, sys, ?_⟩
  · exact (sess n).trans ((s.updSess_sess n n _).trans (if_pos rfl))
  · exact (sess j).trans ((s.updSess_sess n j _).trans (if_neg other.symm))
  · rw [State.closeSess_open isOpen]
    split
    · rw [State.withoutSess_dropShadow]
      exact ⟨rfl, rfl⟩
    · exact ⟨rfl, rfl⟩

theorem exec_sessionIdleTimeout_idle {n : Fin 64} {s : State}
    (idle : s.elapsedNs (s.sess n).lastRx (1000000000 * s.net.idleS) = true) :
    exec (.sessionIdleTimeout n) s = .next (s.closeSess n) :=
  congrArg Host.Outcome.next (if_pos idle)

theorem exec_sessionIdleTimeout_active {n : Fin 64} {s : State}
    (active : s.elapsedNs (s.sess n).lastRx (1000000000 * s.net.idleS) = false) :
    exec (.sessionIdleTimeout n) s = .next s :=
  congrArg Host.Outcome.next (if_neg (by simp [active]))

/-! Its messages enter their queues (R376, R384, R385, R469). -/

section Route

variable {n : Fin 64} {m : List Byte} {s : State}

theorem State.route_short (short : m.length < 24) : s.route n m = s := if_pos short

theorem State.route_malformed (long : 24 ≤ m.length)
    (bad : queueOf (at16 m 0) (at8 m 24) = none ∨ 8968 < m.length ∨ m.length ≠ 24 + at32 m 16) :
    s.route n m = s.sendTo n (at16 m 0) (at32 m 4) stMalformed flResponse [] := by
  refine (if_neg (by omega)).trans ?_
  cases queue : queueOf (at16 m 0) (at8 m 24) with
  | none => rfl
  | some q => exact if_pos (by simpa [queue] using bad)

/-- A message in form, of a type that has a queue: it is shed, or finds its queue full, or enters it. -/
theorem State.route_formed {q : Fin 16} (long : 24 ≤ m.length) (fits : m.length ≤ 8968)
    (length : m.length = 24 + at32 m 16) (queue : queueOf (at16 m 0) (at8 m 24) = some q) : s.route n m =
      if (s.net.shed1 && shedTier q = 1) || (s.net.shed2 && shedTier q = 2) then
        ({ s with net := { s.net with busyCount := bump 32 s.net.busyCount } }).sendTo n (at16 m 0) (at32 m 4)
          stBusy flResponse []
      else if queueCap < s.net.q[q.val].count + ceilDiv m.length 256 then
        ({ s with net := { s.net with
            q := updV s.net.q q fun x => { x with busy := bump 32 x.busy }
            busyCount := bump 32 s.net.busyCount } }).sendTo n (at16 m 0) (at32 m 4) stBusy flResponse []
      else s.enqueue q { sess := n.val, inner := m, arrival := s.rootNs } := by
  refine (if_neg (by omega)).trans ?_
  rw [queue]
  exact if_neg (by simp [length.symm, fits])

theorem State.route_shed {q : Fin 16} (long : 24 ≤ m.length) (fits : m.length ≤ 8968)
    (length : m.length = 24 + at32 m 16) (queue : queueOf (at16 m 0) (at8 m 24) = some q)
    (shed : (s.net.shed1 = true ∧ shedTier q = 1) ∨ (s.net.shed2 = true ∧ shedTier q = 2)) :
    s.route n m = ({ s with net := { s.net with busyCount := bump 32 s.net.busyCount } }).sendTo n (at16 m 0) (at32 m 4)
      stBusy flResponse [] :=
  (State.route_formed long fits length queue).trans (if_pos (by simpa using shed))

theorem State.route_kept_up {q : Fin 16} (long : 24 ≤ m.length) (fits : m.length ≤ 8968)
    (length : m.length = 24 + at32 m 16) (queue : queueOf (at16 m 0) (at8 m 24) = some q)
    (tier1 : s.net.shed1 = false ∨ shedTier q ≠ 1) (tier2 : s.net.shed2 = false ∨ shedTier q ≠ 2) : s.route n m =
      if s.net.q[q.val].count + ceilDiv m.length 256 ≤ queueCap then
        s.enqueue q { sess := n.val, inner := m, arrival := s.rootNs }
      else ({ s with net := { s.net with
        q := updV s.net.q q fun x => { x with busy := bump 32 x.busy }
        busyCount := bump 32 s.net.busyCount } }).sendTo n (at16 m 0) (at32 m 4) stBusy flResponse [] := by
  have notShed : ¬ ((s.net.shed1 && shedTier q = 1) || (s.net.shed2 && shedTier q = 2)) = true := by
    simpa [Decidable.imp_iff_not_or] using ⟨tier1, tier2⟩
  rw [State.route_formed long fits length queue, if_neg notShed]
  by_cases room : s.net.q[q.val].count + ceilDiv m.length 256 ≤ queueCap
  · rw [if_pos room, if_neg (by omega)]
  · rw [if_neg room, if_pos (by omega)]

end Route

/-- A message enters at the end of its queue, which counts it; the other queues and the sessions stay. -/
theorem State.enqueue_does {q : Fin 16} (m : Msg) {s : State} (waits : s.net.q[q.val].stalled = false) :
    (s.enqueue q m).net.q[q.val].msgs = s.net.q[q.val].msgs ++ [m] ∧
    (s.enqueue q m).net.q[q.val].accepted = wrapU 32 (s.net.q[q.val].accepted + 1) ∧
    (∀ j : Fin 16, j ≠ q → (s.enqueue q m).net.q[j.val] = s.net.q[j.val]) ∧ (s.enqueue q m).net.sess = s.net.sess := by
  unfold State.enqueue
  extract_lets used entered
  obtain ⟨shed1, shed2, net⟩ := entered.shedCheck_net
  rw [net]
  have same (j : Fin 16) (other : j ≠ q) : entered.net.q[j.val] = s.net.q[j.val] :=
    (updV_get _ _ _ _ _).trans (if_neg fun eq => other (Fin.ext eq.symm))
  have own : entered.net.q[q.val] = _ := (updV_get _ _ _ _ _).trans (if_pos rfl)
  refine ⟨?_, ?_, same, rfl⟩
  · exact congrArg Queue.msgs (own.trans (if_neg (by exact ne_true_of_eq_false waits)))
  · exact congrArg Queue.accepted (own.trans (if_neg (by exact ne_true_of_eq_false waits)))

/-! A SECURED datagram (R371, R374). -/

theorem State.accepted_eq (s : State) (n : Fin 64) (q : Nat) (m : List Byte) : s.accepted n q m =
    let t := (s.updSess n fun x => x.take q s.rootNs).heard n
    if q < 2 ^ 63 then t.route n m else t.closeSess n := by
  dsimp only [State.accepted]
  by_cases low : q < 2 ^ 63
  · rw [if_pos low, if_neg (by omega)]
  · rw [if_neg low, if_pos (by omega)]

section Secured

variable {d : Sys2Proof.Datagram} {n : Fin 64} {s : State}

/-- A datagram of no open session cannot pass its tag. -/
theorem State.securedIn_unknown (unknown : 64 ≤ at32 d.bytes 4 ∨
    ∃ n : Fin 64, at32 d.bytes 4 = n.val ∧ (s.sess n).isOpen = false) :
    s.securedIn d = { s with net := { s.net with dropAuth := bump 32 s.net.dropAuth } } := by
  have none_ : (sessOf d.bytes).filter (fun n => (s.sess n).isOpen) = none := by
    rcases unknown with out | ⟨n, named, closed⟩
    · rw [sessOf_none out]
      rfl
    · rw [sessOf_some named]
      exact if_neg (by simp [closed])
  unfold State.securedIn
  rw [none_]
  rfl

variable (named : at32 d.bytes 4 = n.val) (isOpen : (s.sess n).isOpen = true)
include named isOpen

/-- A datagram of an open session. -/
theorem State.securedIn_known : s.securedIn d =
    match openSecured (s.sess n).rxKey d.bytes with
    | none => s.tagFails (some n)
    | some inner => if (s.sess n).fresh (seqOf d.bytes) then s.accepted n (seqOf d.bytes) inner else s.replayed n := by
  have found : (sessOf d.bytes).filter (fun n => (s.sess n).isOpen) = some n := by
    rw [sessOf_some named]
    exact if_pos isOpen
  unfold State.securedIn
  rw [found] <;> rfl

theorem State.securedIn_tagFails (fails : openSecured (s.sess n).rxKey d.bytes = none) : s.securedIn d =
    let t := ({ s with net := { s.net with dropAuth := bump 32 s.net.dropAuth } }).updSess n fun x =>
      { x with dropTag := bump 16 x.dropTag, tagRun := x.tagRun + 1 }
    if (s.sess n).tagRun < 63 then t else (t.ev 0xA013 n.val).closeSess n := by
  rw [State.securedIn_known named isOpen, fails]
  dsimp only [State.tagFails]
  have run : ((({ s with net := { s.net with dropAuth := bump 32 s.net.dropAuth } } : State).updSess n fun x =>
      { x with dropTag := bump 16 x.dropTag, tagRun := x.tagRun + 1 }).sess n).tagRun = (s.sess n).tagRun + 1 :=
    congrArg Sess.tagRun ((State.updSess_sess _ n n _).trans (if_pos rfl))
  rw [run]
  by_cases few : (s.sess n).tagRun < 63
  · rw [if_pos few, if_neg (by omega)]
  · rw [if_neg few, if_pos (by omega)]

theorem State.securedIn_replayed {m : List Byte} (opens : openSecured (s.sess n).rxKey d.bytes = some m)
    (old : (s.sess n).fresh (leVal (bytesAt d.bytes 8 8)) = false) : s.securedIn d = s.replayed n := by
  rw [State.securedIn_known named isOpen, opens]
  exact if_neg (ne_true_of_eq_false old)

theorem State.securedIn_accepted {m : List Byte} (opens : openSecured (s.sess n).rxKey d.bytes = some m)
    (fresh : (s.sess n).fresh (leVal (bytesAt d.bytes 8 8)) = true) : s.securedIn d =
      let q := leVal (bytesAt d.bytes 8 8)
      let t := (s.updSess n fun x => x.take q s.rootNs).heard n
      if q < 2 ^ 63 then t.route n m else t.closeSess n := by
  rw [State.securedIn_known named isOpen, opens]
  exact (if_pos fresh).trans (s.accepted_eq n _ m)

end Secured

theorem Sess.fresh_iff (x : Sess) (q : Nat) :
    x.fresh q = true ↔ 1 ≤ q ∧ (x.rxSeq < q ∨ (x.rxSeq ≤ q + 1024 ∧ q ∉ x.window)) := by
  simp [Sess.fresh]

/-- Settles O29: the datagrams by their way in and by what they bring, and a session by how it opens, what its messages
do, and how it closes. -/
theorem sessionsOpenAndClose : Obligations.SessionsOpenAndClose := by
  refine ⟨fun d s => ⟨exec_hello_lost, exec_finish_lost, exec_secured_lost⟩, ?dropped, ?early, ?named, ?busy, ?first, ?next,
    ?gather, ?gatherHello, fun h p s => rfl, fun peer p port kind sess status s =>
      ⟨s.sendPayload_eq peer p port kind sess, s.reject_eq peer port sess status⟩,
    ?finishUnknown, ?finish, fun n h s => s.openSess_does n h, exec_handshakeTimeout_eq, ?securedUnknown, ?tagFails, ?replayed,
    ?accepted, fun x q now => ⟨x.fresh_iff q, rfl⟩, ?route, fun q m s => State.enqueue_does m,
    fun _ _ => exec_sessionIdleTimeout_idle, fun _ _ => exec_sessionIdleTimeout_active,
    fun sess n s allowed => congrArg Host.Outcome.next (State.regCmd_allowed allowed _),
    fun _ _ => State.closeSess_closed, fun _ _ => State.closeSess_does⟩
  case dropped =>
    intro d s up framed barred
    refine ⟨fun header => ?_, fun ready header => ?_, fun ready header => ?_⟩
    · rw [exec_hello_headed header, State.netIn_datagram_dropped up framed barred]
    · rw [exec_finish_headed ready header, State.netIn_datagram_dropped up framed barred]
    · rw [exec_secured_headed ready header, State.netIn_datagram_dropped up framed barred]
  case early =>
    intro d s header up framed safe served early
    rw [exec_hello_in up framed safe served header, State.helloIn_early early]
  case named =>
    intro d s header up framed safe served ready named first
    rw [exec_hello_in up framed safe served header, State.helloIn_first ready first, if_pos named]
  case busy =>
    intro d s header up framed safe served ready unnamed first full
    have none_ : (if 8 ≤ s.net.hs.length then none else s.freeSess) = none := by
      rcases full with full | none_
      · exact if_pos full
      · rw [none_, ite_self]
    rw [exec_hello_in up framed safe served header, State.helloIn_first ready first, if_neg (by simp [unnamed]), none_,
      unnamed]
  case first =>
    intro d n s header up framed safe served ready unnamed first room free
    rw [exec_hello_in up framed safe served header, State.helloIn_first ready first, if_neg (by simp [unnamed]),
      if_neg (by omega), free]
  case next =>
    intro d h s header up framed safe served ready part
    rw [exec_hello_in up framed safe served header, State.helloIn_next ready part]
  case gather =>
    intro h b s
    refine ⟨State.gather_malformed, fun some_ fits inside same => ⟨fun p whole => ?_, fun waits => ?_⟩⟩
    · rw [State.gather_joins some_ fits inside same, whole]
    · rw [State.gather_joins some_ fits inside same, waits]
  case gatherHello => exact fun d h g p s => ⟨rfl, rfl, s.gatherHello_whole d h p⟩
  case finishUnknown =>
    intro d s ready header up framed safe served unknown
    rw [exec_finish_in up framed safe served ready header, State.finishIn_unknown unknown]
  case finish =>
    intro d n h s ready header up framed safe served named known
    rw [exec_finish_in up framed safe served ready header, State.finishIn_known named known] <;> rfl
  case securedUnknown =>
    intro d s ready header up framed safe served unknown
    rw [exec_secured_in up framed safe served ready header, State.securedIn_unknown unknown]
  case tagFails =>
    intro d n s ready header up framed safe served named isOpen fails
    rw [exec_secured_in up framed safe served ready header, State.securedIn_tagFails named isOpen fails]
  case replayed =>
    intro d n m s ready header up framed safe served named isOpen opens old
    rw [exec_secured_in up framed safe served ready header, State.securedIn_replayed named isOpen opens old]
    rfl
  case accepted =>
    intro d n m s ready header up framed safe served named isOpen opens fresh
    rw [exec_secured_in up framed safe served ready header, State.securedIn_accepted named isOpen opens fresh]
  case route =>
    intro n m q s
    exact ⟨State.route_short, State.route_malformed, fun long fits length queue =>
      ⟨State.route_shed long fits length queue, State.route_kept_up long fits length queue⟩⟩

end Sys2Proof.Machine
end

section
/-! SUPPORT. The states of the tray ports: what places, grants and shares keeps them, and a takeover moves one (R262, R270, R277,
R280, R281). -/

namespace Sys2Proof.Machine

/-- The states of the ports. -/
def State.portStates (s : State) (n : Fin 64) : PortState := (s.port n).state

theorem State.portStates_of_port {s t : State} (same : t.tlk.port = s.tlk.port) : t.portStates = s.portStates := by
  funext n
  exact congrArg (fun v : Vector Port 64 => v[n.val].state) same

@[simp] theorem State.ev_portStates (s : State) (c i d : Nat) : (s.ev c i d).portStates = s.portStates :=
  State.portStates_of_port (by rw [State.ev_tlk])

theorem State.updPort_portStates {f : Port → Port} (keeps : ∀ p, (f p).state = p.state) (s : State) (n : Fin 64) :
    (s.updPort n f).portStates = s.portStates :=
  funext fun j => State.updPort_keeps (π := Port.state) keeps s n j

@[simp] theorem State.sendGrant_portStates (s : State) (n : Fin 64) : (s.sendGrant n).portStates = s.portStates :=
  funext fun j => State.sendGrant_keeps (π := Port.state) (fun _ _ _ => rfl) s n j

/-! Placement (R268 to R270). -/

@[simp] theorem State.placeEntry_portStates (s : State) (e : Entry) (l : List (Fin 64)) :
    (s.placeEntry e l).portStates = s.portStates := by
  unfold State.placeEntry
  dsimp only
  split
  · rfl
  · refine (foldl_same State.portStates State.sendGrant_portStates _ _).trans (State.portStates_of_port ?_)
    unfold State.noteOffsets
    rw [State.placePass_eq]

@[simp] theorem State.tryPlace_portStates (s : State) (e : Entry) (l : List (Fin 64)) :
    (s.tryPlace e l).portStates = s.portStates := by
  unfold State.tryPlace
  split
  · exact (State.portStates_of_port rfl).trans (s.placeEntry_portStates e l)
  · rfl

@[simp] theorem State.tryPort_portStates (s : State) (n : Fin 64) : (s.tryPort n).portStates = s.portStates := by
  refine foldl_same State.portStates (fun t e => ?_) _ s
  split
  · exact t.tryPlace_portStates e [n]
  · rfl

@[simp] theorem State.syncOverShare_portStates (s : State) : s.syncOverShare.portStates = s.portStates := rfl

/-! Shares (R277, R395). -/

@[simp] theorem State.recompute_portStates (s : State) (atShare : Bool) :
    (s.recompute atShare).portStates = s.portStates := by
  unfold State.recompute
  split
  · rfl
  · extract_lets trays part want
    split
    rename_i envs left _
    extract_lets above warned tlk marked granted shared
    have warnedSame : warned.portStates = s.portStates := by
      unfold warned
      split
      · exact s.ev_portStates ..
      · rfl
    have grantedSame : granted.portStates = marked.portStates := by
      refine foldl_same State.portStates (fun t n => ?_) part marked
      split
      · rfl
      · extract_lets e low p sent
        have sentSame : sent.portStates = t.portStates :=
          (State.sendGrant_portStates ..).trans (State.updPort_portStates (by exact fun _ => rfl) t n)
        split
        · rfl
        · split
          · exact (State.tryPort_portStates ..).trans sentSame
          · exact sentSame
    have same : shared.portStates = s.portStates :=
      grantedSame.trans ((State.portStates_of_port rfl).trans warnedSame)
    split
    · exact (State.ev_portStates ..).trans same
    · exact same

theorem State.recompute_sys (s : State) (atShare : Bool) : (s.recompute atShare).sys = s.sys :=
  (State.recompute_kept s atShare (List.Subset.refl _) .rfl).only .sys (by decide)

/-- The state with the share and the allowance of a SHARE (R23, R395). -/
def State.withShare (s : State) (b g : Nat) (e : Sys2Proof.ShareEntry) : State :=
  { s with
    net := { s.net with rackB := b, rackG := g }
    tlk := { s.tlk with share := min e.share s.offer, shareT := some s.sys.timeNs, shareStale := false }
    est := { s.est with gridAllow := some e.allow } }

section Entry

variable {s : State} {l : List Sys2Proof.ShareEntry} (b g : Nat)

/-- A SHARE without an entry of this shelf. -/
theorem State.takeShare_none (none_ : (l.find? fun e => e.valid && e.shelf = s.shelfIndex) = none) :
    s.takeShare b g l = { s with net := { s.net with rackB := b, rackG := g } } := by
  have entry : (l.find? fun e => e.valid &&
      e.shelf = ({ s with net := { s.net with rackB := b, rackG := g } } : State).shelfIndex) = none := none_
  unfold State.takeShare
  dsimp only
  rw [entry]

/-- A SHARE with an entry of this shelf: its share and allowance, its envelopes, and START. -/
theorem State.takeShare_some {e : Sys2Proof.ShareEntry}
    (entry : (l.find? fun e => e.valid && e.shelf = s.shelfIndex) = some e) :
    s.takeShare b g l = if e.start = true ∧ ((s.withShare b g e).recompute true).startReqNow = true then
      ((s.withShare b g e).recompute true).enterRun else (s.withShare b g e).recompute true := by
  have found : (l.find? fun e => e.valid &&
      e.shelf = ({ s with net := { s.net with rackB := b, rackG := g } } : State).shelfIndex) = some e := entry
  have taken : s.takeShare b g l = if e.start then ((s.withShare b g e).recompute true).startFromLead
      else (s.withShare b g e).recompute true := by
    unfold State.takeShare
    dsimp only
    rw [found] <;> rfl
  rw [taken]
  cases e.start with
  | false => simp only [Bool.false_eq_true, false_and, if_false]
  | true => simp only [true_and, if_true, State.startFromLead]

end Entry

/-- A shelf in RUN does not start again. -/
theorem State.startReqNow_run {s : State} (run : s.sys.state = .run) : s.startReqNow = false := by
  simp [State.startReqNow, run]

section Run

variable {s : State} (run : s.sys.state = .run)
include run

/-- In RUN a SHARE moves no port. -/
theorem State.takeShare_portStates (b g : Nat) (l : List Sys2Proof.ShareEntry) :
    (s.takeShare b g l).portStates = s.portStates := by
  cases entry : l.find? fun e => e.valid && e.shelf = s.shelfIndex with
  | none =>
    rw [State.takeShare_none b g entry]
    rfl
  | some e =>
    have noStart : ((s.withShare b g e).recompute true).startReqNow = false :=
      State.startReqNow_run ((congrArg Sys.state (State.recompute_sys ..)).trans run)
    rw [State.takeShare_some b g entry, if_neg (by simp [noStart]), State.recompute_portStates]
    rfl

/-- The lead's cycle sends a SHARE and takes it. -/
theorem State.leadCycle_portStates : s.leadCycle.portStates = s.portStates := by
  unfold State.leadCycle
  extract_lets cs others q g b want sum share entry l warned entries
  have warnedKept : Kept [.evr] s warned := by
    unfold warned
    exact .ite (State.ev_kept _ _ _ _ (List.Subset.refl _) .rfl) .rfl
  have sent := State.rowSend_kept (L := [.net, .evr, .tx]) warned 0x11
    (leBytes 4 b ++ leBytes 4 g ++ leBytes 4 q ++ leBytes 4 0 ++ entries) (by decide) (warnedKept.mono (by decide))
  refine (State.takeShare_portStates ?_ b g l).trans (State.portStates_of_port ?_)
  · exact (congrArg Sys.state (sent.only .sys (by decide))).trans run
  · exact congrArg Tlk.port (sent.only .tlk (by decide))

/-! A takeover (R280, R281). -/

/-- A port in WATCH is taken over, and the others stay. -/
theorem State.takeOver_portStates {n : Fin 64} (watch : s.portStates n = .watch) (env : Nat) :
    (s.takeOver n env).portStates n = .takenOver ∧ ∀ j, j ≠ n → (s.takeOver n env).portStates j = s.portStates j := by
  have taken : s.takeOver n env = ((((s.updPort n fun p => { p with
      state := .takenOver, target := s.entryBound n (min env (s.maxEnv n.val)), shareSet := false
      lowered := false }).ev 0x7050 n.val).sendGrant n).tryPort n).syncOverShare :=
    if_pos (by rw [State.portStates] at watch; simp [watch, run])
  rw [taken]
  simp only [State.syncOverShare_portStates, State.tryPort_portStates, State.sendGrant_portStates, State.ev_portStates]
  exact ⟨congrArg Port.state (State.updPort_same ..), fun j other => congrArg Port.state (State.updPort_other other ..)⟩

end Run

/-- No takeover comes of a port that is not in WATCH. -/
theorem State.takeOver_portStates_other {s : State} {n j : Fin 64} (other : j ≠ n) (env : Nat) :
    (s.takeOver n env).portStates j = s.portStates j := by
  by_cases ready : s.sys.state = .run ∧ s.portStates n = .watch
  · exact (State.takeOver_portStates ready.1 ready.2 env).2 j other
  · rw [State.takeOver_idle env (not_and_or.1 ready)]

theorem State.takeOver_sys (s : State) (n : Fin 64) (env : Nat) : (s.takeOver n env).sys = s.sys :=
  (State.takeOver_kept s n env (List.Subset.refl _) .rfl).only .sys (by decide)

/-- Each port in WATCH of a list that is taken over in RUN is TAKEN_OVER at the end. -/
theorem State.foldl_takeOverLatest_portStates {l : List (Fin 64)} (once : l.Nodup) {n : Fin 64} (mem : n ∈ l) {s : State}
    (run : s.sys.state = .run) (watch : s.portStates n = .watch) :
    (l.foldl State.takeOverLatest s).portStates n = .takenOver := by
  refine foldl_reaches (f := State.takeOverLatest) (before := fun t => t.sys.state = .run ∧ t.portStates n = .watch)
    (after := fun t => t.portStates n = .takenOver) (fun t m other held => ?_) (fun t held => ?_) (fun t m other taken => ?_)
    mem once ⟨run, watch⟩
  · obtain ⟨run, watch⟩ := held
    exact ⟨(congrArg Sys.state (t.takeOver_sys m _)).trans run,
      (State.takeOver_portStates_other other.symm _).trans watch⟩
  · exact (State.takeOver_portStates held.1 held.2 _).1
  · exact (State.takeOver_portStates_other other.symm _).trans taken

theorem State.foldl_takeOverLatest_sys (l : List (Fin 64)) (s : State) :
    (l.foldl State.takeOverLatest s).sys = s.sys :=
  foldl_same State.sys (fun t n => t.takeOver_sys n _) l s

end Sys2Proof.Machine
end

section
/-! SUPPORT. Frames of the row ring: how one goes on, which are acted on, and what each brings (R388 to R392, R394 to R397). -/

namespace Sys2Proof.Machine

/-! The bytes of a frame that a change leaves alone. -/

theorem bytesAt_take {l : List Byte} {o n k : Nat} (inside : o + n ≤ k) : bytesAt (l.take k) o n = bytesAt l o n := by
  have same : ((l.take k).drop o).take n = (l.drop o).take n := by
    rw [List.drop_take, List.take_take, Nat.min_eq_left (by omega)]
  simp only [bytesAt, same]

theorem bytesAt_putBytes {l x : List Byte} {o n p : Nat} (before : o + n ≤ p) (inside : p ≤ l.length) :
    bytesAt (putBytes l p x) o n = bytesAt l o n := by
  have cut : (putBytes l p x).take p = l.take p := by
    rw [putBytes, List.append_assoc, List.take_left' (List.length_take_of_le inside)]
  rw [← bytesAt_take before, cut, bytesAt_take before]

/-! Frames on their way (R388, R389, R392). -/

/-- A frame that is not TIME goes on beside a port without a wrap with HOPS one lower, and its CRC anew or inverted. -/
theorem State.rowForward_plain {f : Sys2Proof.RowFrame} {s : State} (notTime : at8 f.bytes 0 ≠ 1)
    (long : 20 ≤ f.bytes.length) (noWrap : (if f.west then s.net.wrapEast else s.net.wrapWest) = false) (good : Bool) :
    s.rowForward f good = { s with tx := (
      let b := putBytes (f.bytes.take (f.bytes.length - 4)) 2 (leBytes 2 (at16 f.bytes 2 - 1))
      .row (!f.west) (b ++ leBytes 4 (if good then crc32c b else 2 ^ 32 - 1 - crc32c b))) :: s.tx } := by
  have port : s.net.outPort (!f.west) = (!f.west, false) := by
    cases west : f.west <;> simp [Net.outPort, west] at noWrap ⊢ <;> exact noWrap
  have hops : at16 (f.bytes.take (f.bytes.length - 4)) 2 = at16 f.bytes 2 :=
    congrArg leVal (bytesAt_take (by omega))
  have type : at8 (putBytes (f.bytes.take (f.bytes.length - 4)) 2 (leBytes 2 (at16 f.bytes 2 - 1))) 0 = at8 f.bytes 0 :=
    congrArg leVal ((bytesAt_putBytes (by omega) (by rw [List.length_take]; omega)).trans (bytesAt_take (by omega)))
  unfold State.rowForward
  rw [port]
  simp only [hops, type, notTime, Bool.false_eq_true, if_false, decide_false, Bool.false_and]
  rfl

/-- The state once a frame has gone on, which it does unless it is link-local or this member's own back on WEST. -/
def State.rowGone (s : State) (f : Sys2Proof.RowFrame) (good : Bool) : State :=
  if tb (at8 f.bytes 1) 1 = true ∨ (s.ownFrame f = true ∧ f.west = true) then s else s.rowForward f good

theorem State.rowGone_net (s : State) (f : Sys2Proof.RowFrame) (good : Bool) : (s.rowGone f good).net = s.net :=
  (Kept.ite (l := [.tx, .fv]) .rfl (State.rowForward_kept s f good (List.Subset.refl _) .rfl)).only .net (by decide)

/-- An own frame that has gone round is out no longer. -/
def State.rowReturned (s : State) (f : Sys2Proof.RowFrame) : State :=
  { s with net := { s.net with sentSeq := s.net.sentSeq.filter (· != at32 f.bytes 8) } }

/-- A frame of another member is acted on once. -/
def State.rowHeard (s : State) (f : Sys2Proof.RowFrame) : State :=
  { s with net := { s.net with seenSeq := (at16 f.bytes 4, at8 f.bytes 6, at32 f.bytes 8) :: s.net.seenSeq } }

section Take

variable {s : State} {f : Sys2Proof.RowFrame}

theorem State.rowTake_passed (passed : s.net.forwarding = false ∨ f.bytes.length < 20 ∨ at16 f.bytes 2 = 0)
    (ty len : Nat) (own : State → Bool → State) (act : State → Nat → Nat → List Byte → State) :
    s.rowTake f ty len own act = s :=
  if_pos (by rcases passed with h | h | h <;> simp [h])

/-- A frame that forwarding takes goes on, and is acted on once where it comes in form. -/
theorem State.rowTake_eq (forwards : s.net.forwarding = true) (long : 20 ≤ f.bytes.length) (hops : at16 f.bytes 2 ≠ 0)
    (ty len : Nat) (own : State → Bool → State) (act : State → Nat → Nat → List Byte → State) :
    s.rowTake f ty len own act =
      let n := f.bytes.length
      let good := crc32c (f.bytes.take (n - 4)) == leVal (f.bytes.drop (n - 4))
      let u := s.rowGone f good
      if good = false ∨ n ≠ 8 * ceilDiv (16 + len) 8 + 4 ∨ at8 f.bytes 0 ≠ ty ∨ at16 f.bytes 12 ≠ len then u
      else if s.ownFrame f = true then
        if f.west = true then own (u.rowReturned f) (tb (at8 f.bytes 1) 0) else u
      else if (at16 f.bytes 4, at8 f.bytes 6, at32 f.bytes 8) ∈ s.net.seenSeq then u
      else act (u.rowHeard f) (at16 f.bytes 4) (at8 f.bytes 6) (bytesAt f.bytes 16 len) := by
  extract_lets n good u
  have gone : (if tb (at8 f.bytes 1) 1 || (s.ownFrame f && f.west) then s else s.rowForward f good) = u :=
    if_congr (by rw [Bool.or_eq_true, Bool.and_eq_true]) rfl rfl
  have seen : u.net.seenSeq = s.net.seenSeq := congrArg Net.seenSeq (s.rowGone_net f good)
  have taken : s.rowTake f ty len own act =
      let v := if tb (at8 f.bytes 1) 1 || (s.ownFrame f && f.west) then s else s.rowForward f good
      if !good || n != 8 * ceilDiv (16 + len) 8 + 4 || at8 f.bytes 0 != ty || at16 f.bytes 12 != len then v
      else if s.ownFrame f then
        if f.west then own (v.rowReturned f) (tb (at8 f.bytes 1) 0) else v
      else if v.net.seenSeq.contains (at16 f.bytes 4, at8 f.bytes 6, at32 f.bytes 8) then v
      else act (v.rowHeard f) (at16 f.bytes 4) (at8 f.bytes 6) (bytesAt f.bytes 16 len) :=
    if_neg (by simp [forwards, long, hops])
  rw [taken, gone]
  refine if_congr ?_ rfl (if_congr Iff.rfl rfl (if_congr ?_ rfl rfl))
  · simp [or_assoc]
  · rw [seen, List.contains_iff_mem]

/-- A frame in form goes through forwarding, and is a good one. -/
theorem State.arrives_iff {ty len : Nat} : s.arrives f ty len = true ↔
    s.net.forwarding = true ∧ f.bytes.length = 8 * ceilDiv (16 + len) 8 + 4 ∧ at8 f.bytes 0 = ty ∧ at16 f.bytes 12 = len ∧
    at16 f.bytes 2 ≠ 0 ∧
    (crc32c (f.bytes.take (f.bytes.length - 4)) == leVal (f.bytes.drop (f.bytes.length - 4))) = true := by
  simp only [State.arrives, Bool.and_eq_true, beq_iff_eq, bne_iff_ne, ne_eq, and_assoc]

/-- Every frame in form has a header. -/
theorem State.long_of_arrives {ty len : Nat} (arrives : s.arrives f ty len = true) : 20 ≤ f.bytes.length := by
  obtain ⟨-, length, -⟩ := State.arrives_iff.1 arrives
  simp only [ceilDiv, OfNat.ofNat_ne_zero, if_false] at length
  omega

/-- An own frame in form, back on WEST, has gone round and is acted on. -/
theorem State.rowTake_own {ty len : Nat} (arrives : s.arrives f ty len = true) (mine : s.ownFrame f = true)
    (west : f.west = true) (own : State → Bool → State) (act : State → Nat → Nat → List Byte → State) :
    s.rowTake f ty len own act = own (s.rowReturned f) (tb (at8 f.bytes 1) 0) := by
  obtain ⟨forwards, length, type, named, hops, good⟩ := State.arrives_iff.1 arrives
  rw [State.rowTake_eq forwards (State.long_of_arrives arrives) hops]
  dsimp only
  rw [good, if_neg (by simp [← length, type, named]), if_pos mine, if_pos west, State.rowGone, if_pos (.inr ⟨mine, west⟩)]

end Take

end Sys2Proof.Machine
end

section
/-! SUPPORT. The commands of the row ring (R388 to R392, R394 to R397). -/

namespace Sys2Proof.Machine

/-! Joining (R391). -/

theorem exec_ringJoined_joins {s : State} (apart : s.net.joined = false) (active : s.cfg.activeValid = true)
    (lock : s.clk.ptpLock = true) (up : s.net.eastUp = true ∨ s.net.westUp = true) (stays : s.sys.state ≠ .shipPrep)
    (noLoss : s.power.inputLoss = false) : exec .ringJoined s = .next { s with
      net := { s.net with joined := true, idConflict := false }, evr := s.evs [(0xA050, noInst, 0)] } :=
  congrArg Host.Outcome.next ((if_neg (by rcases up with h | h <;> simp [apart, active, lock, stays, noLoss, h])).trans
    (State.ev_net_eq ..))

theorem exec_ringJoined_idle {s : State} (idle : s.net.joined = true ∨ s.cfg.activeValid = false ∨
    s.clk.ptpLock = false ∨ (s.net.eastUp = false ∧ s.net.westUp = false) ∨ s.sys.state = .shipPrep ∨
    s.power.inputLoss = true) : exec .ringJoined s = .next s := by
  refine congrArg Host.Outcome.next (if_pos ?_)
  rcases idle with h | h | h | ⟨east, west⟩ | h | h
  · simp [h]
  · simp [h]
  · simp [h]
  · simp [east, west]
  · simp [h]
  · simp [h]

/-! STATUS (R390 to R394). -/

/-- Two readings of what a frame does. -/
theorem State.rowTake_congr {own : State → Bool → State} {act act' : State → Nat → Nat → List Byte → State}
    (same : ∀ t rack shelf p, act t rack shelf p = act' t rack shelf p) (s : State) (f : Sys2Proof.RowFrame) (ty len : Nat) :
    Host.Outcome.next (s.rowTake f ty len own act) =
      (.next (s.rowTake f ty len own act') : Host.Outcome State Fault Refusal) := by
  rw [show act = act' by funext t rack shelf p; exact same t rack shelf p]

theorem State.setWhole_eq (v : Bool) (s : State) : s.setWhole v = if s.net.whole = v then s else
    { s with net := { s.net with whole := v }, evr := s.evs [(0xA053, noInst, 0)] } :=
  if_congr Iff.rfl rfl (State.ev_net_eq ..)

theorem exec_ringStatus_eq (f : Sys2Proof.RowFrame) (s : State) : exec (.ringStatus f) s = .next (s.rowTake f 0x10 28
    (fun s wrapped => if s.net.joined = true then s.setWhole (!wrapped) else s) fun s rack shelf p =>
      if rack = s.rackId ∧ shelf = s.shelfIndex ∧ s.net.joined = true then
        if s.net.idConflict = true then s
        else { s with net := { s.net with idConflict := true }, evr := s.evs [(0xA058, noInst, 0)] }
      else s.memberStatus rack shelf (at32 f.bytes 8) (statusOf p)) :=
  State.rowTake_congr (fun t rack shelf p => if_congr (by simp [and_assoc])
    (if_congr Iff.rfl rfl (State.ev_net_eq ..)) rfl) s f 0x10 28

/-- The entry of a member is that of its latest STATUS, and the other entries stay. -/
theorem State.memberStatus_does (rack shelf seq : Nat) (st : Sys2Proof.RowStatus) (s : State) :
    ∃ m ∈ (s.memberStatus rack shelf seq st).net.members, m.rack = rack ∧ m.shelf = shelf ∧ m.st = st ∧ m.at_ = s.rootNs ∧
      m.seq = seq ∧ m.subject = false ∧ m.silentSent = false ∧
      (∀ x ∈ (s.memberStatus rack shelf seq st).net.members, x.named rack shelf = true → x = m) ∧
      ∀ x, x.named rack shelf = false → (x ∈ (s.memberStatus rack shelf seq st).net.members ↔ x ∈ s.net.members) := by
  unfold State.memberStatus
  extract_lets old back m
  have named : m.named rack shelf = true := by simp [m, Member.named]
  refine ⟨m, List.mem_cons_self, rfl, rfl, rfl, rfl, rfl, rfl, rfl, fun x mem own => ?_, fun x other => ?_⟩
  · rcases List.mem_cons.1 mem with same | rest
    · exact same
    · simp [own] at rest
  · have away : x ≠ m := fun same => by rw [same, named] at other; exact Bool.false_ne_true other.symm
    simp [away, other]

/-- The first member seen. -/
theorem State.memberStatus_first {s : State} (none_ : s.net.members = []) (rack shelf seq : Nat)
    (st : Sys2Proof.RowStatus) : (s.memberStatus rack shelf seq st).net.members =
      [{ rack := rack, shelf := shelf, st := st, at_ := s.rootNs, subject := false, silentSent := false, seq := seq
         twoAt := none, candAt := none }] := by
  unfold State.memberStatus
  rw [none_]
  rfl

theorem State.rowNoted_rackId (s : State) (f : Sys2Proof.RowFrame) : (s.rowNoted f).rackId = s.rackId :=
  congrArg (fun c : Cfg => State.rackId { cfg := c }) (s.rowNoted_only f .cfg (by decide))

theorem State.rowNoted_shelfIndex (s : State) (f : Sys2Proof.RowFrame) : (s.rowNoted f).shelfIndex = s.shelfIndex :=
  congrArg (fun c : Cfg => State.shelfIndex { cfg := c }) (s.rowNoted_only f .cfg (by decide))

theorem State.rowNoted_rootNs (s : State) (f : Sys2Proof.RowFrame) : (s.rowNoted f).rootNs = s.rootNs :=
  congrArg (fun x : Sys => 2000 * x.tick) (s.rowNoted_only f .sys (by decide))

theorem exec_ringStatus_noted {f : Sys2Proof.RowFrame} {s : State} (acts : s.acts f 0x10 28 = true)
    (onward : tb (at8 f.bytes 1) 1 = false) (other : at16 f.bytes 4 ≠ s.rackId ∨ at8 f.bytes 6 ≠ s.shelfIndex)
    (none_ : s.net.members = []) (noEast : s.net.wrapEast = false) (noWest : s.net.wrapWest = false) :
    Gives (.ringStatus f) s fun t =>
      t.net.members = [{ rack := at16 f.bytes 4, shelf := at8 f.bytes 6, st := statusOf (bytesAt f.bytes 16 28), at_ := s.rootNs
                         subject := false, silentSent := false, seq := at32 f.bytes 8, twoAt := none, candAt := none }] ∧
      t.net.seenSeq = (at16 f.bytes 4, at8 f.bytes 6, at32 f.bytes 8) :: s.net.seenSeq ∧
      t.tx = (let b := putBytes (f.bytes.take (f.bytes.length - 4)) 2 (leBytes 2 (at16 f.bytes 2 - 1))
              .row (!f.west) (b ++ leBytes 4 (crc32c b))) :: s.tx ∧ t.evr = s.evr := by
  have arrives : s.arrives f 0x10 28 = true := by
    simp only [State.acts, Bool.and_eq_true] at acts
    exact acts.1.1
  obtain ⟨-, -, type, -⟩ := State.arrives_iff.1 arrives
  have gone : s.rowPassed f = s.rowForward f true := if_neg (by simp [onward])
  have plain := State.rowForward_plain (f := f) (s := s) (by rw [type]; decide) (State.long_of_arrives arrives)
    (by rw [noEast, noWest, ite_self]) true
  have stranger : ¬ (at16 f.bytes 4 = (s.rowNoted f).rackId ∧ at8 f.bytes 6 = (s.rowNoted f).shelfIndex ∧
      (s.rowNoted f).net.joined = true) := by
    rw [s.rowNoted_rackId, s.rowNoted_shelfIndex]
    exact fun own => other.elim (· own.1) (· own.2.1)
  refine ⟨_, exec_ringStatus_eq f s, ?_⟩
  rw [State.rowTake_acts acts, if_neg stranger]
  refine ⟨?_, ?_, ?_, ?_⟩
  · rw [State.memberStatus_first (by rw [State.rowNoted_net]; exact none_), s.rowNoted_rootNs]
  · exact congrArg Net.seenSeq (s.rowNoted_net f)
  · exact (congrArg State.tx (gone.trans plain)).trans rfl
  · exact s.rowNoted_only f .evr (by decide)

/-- The own STATUS, back on WEST without a wrap, shows the ring whole. -/
theorem exec_ringStatus_whole {f : Sys2Proof.RowFrame} {s : State} (arrives : s.arrives f 0x10 28 = true)
    (mine : s.ownFrame f = true) (west : f.west = true) (noWrap : tb (at8 f.bytes 1) 0 = false)
    (joined : s.net.joined = true) (broken : s.net.whole = false) :
    Gives (.ringStatus f) s fun t =>
      t.net.whole = true ∧ t.net.members = s.net.members ∧ t.tx = s.tx ∧
      t.net.sentSeq = s.net.sentSeq.filter (· != at32 f.bytes 8) ∧ t.evr = s.evs [(0xA053, noInst, 0)] := by
  refine ⟨_, exec_ringStatus_eq f s, ?_⟩
  rw [State.rowTake_own arrives mine west, noWrap]
  refine (if_pos joined : (if (s.rowReturned f).net.joined = true then _ else _) = _) ▸ ?_
  rw [State.setWhole_eq, if_neg (by show ¬ s.net.whole = _; simp [broken])]
  refine ⟨rfl, rfl, rfl, rfl, ?_⟩
  exact (State.SameEv.ev (s := s) (t := s.rowReturned f) ⟨rfl, rfl, rfl, rfl, rfl⟩ 0xA053 noInst 0).evr.symm

/-! SHARE and ROW_BUDGET (R390, R394, R395, R397). -/

theorem exec_share_eq (f : Sys2Proof.RowFrame) (s : State) :
    exec (.share f) s = .next (s.rowTake f 0x11 64 ownBack fun s rack shelf p =>
      if rack ≠ s.rackId then { s with net := { s.net with racks :=
        { rack := rack, q := at32 p 8, at_ := s.rootNs } :: s.net.racks.filter fun x => x.rack != rack } }
      else if s.net.joined = true ∧ s.sys.lead = false ∧ shelf = s.net.leadShelf then
        s.takeShare (at32 p 0) (at32 p 4) (shareEntries p)
      else s) :=
  State.rowTake_congr (fun t rack shelf p => if_congr bne_iff_ne rfl (if_congr (by simp [and_assoc]) rfl rfl)) s f 0x11 64

theorem State.takeShare_eq (b g : Nat) (l : List Sys2Proof.ShareEntry) (s : State) : s.takeShare b g l =
    let u := { s with net := { s.net with rackB := b, rackG := g } }
    match l.find? fun e => e.valid && e.shelf = s.shelfIndex with
    | none => u
    | some e =>
      let v := ({ u with
        tlk := { s.tlk with share := min e.share s.offer, shareT := some s.sys.timeNs, shareStale := false }
        est := { s.est with gridAllow := some e.allow } }).recompute true
      if e.start = true ∧ v.startReqNow = true then v.enterRun else v := by
  cases entry : l.find? fun e => e.valid && e.shelf = s.shelfIndex with
  | none => exact State.takeShare_none b g entry
  | some e => exact State.takeShare_some b g entry

/-- A budget takes force, and event 0xA059 marks a newer one. -/
theorem State.takeBudget_eq (s : State) (version budget : Nat) (src : Nat × Nat) : s.takeBudget version budget src =
    { s with
      net := { s.net with rowVersion := version, rowSrc := some src
                          rowBudget := if budget = 0xFFFFFFFF then none else some budget }
      evr := if s.net.rowSrc = none ∨ s.net.rowVersion < version then s.evs [(0xA059, noInst, 0)] else s.evr } := by
  have newer : (s.net.rowSrc.isNone || decide (s.net.rowVersion < version)) = true ↔
      s.net.rowSrc = none ∨ s.net.rowVersion < version := by simp
  unfold State.takeBudget
  dsimp only
  by_cases new : s.net.rowSrc = none ∨ s.net.rowVersion < version
  · rw [if_pos (newer.2 new), if_pos new, State.ev_net_eq]
  · rw [if_neg (mt newer.1 new), if_neg new]

theorem exec_rowBudgetFrame_eq (f : Sys2Proof.RowFrame) (s : State) :
    exec (.rowBudgetFrame f) s = .next (s.rowTake f 0x12 8 ownBack fun s rack shelf p =>
      let v := at32 p 0
      let lower := s.net.rowSrc.any fun x => rack < x.1 || (rack = x.1 && shelf < x.2)
      if s.net.rowSrc = none ∨ s.net.rowVersion < v ∨
          (s.net.rowVersion = v ∧ lower = true ∧ s.net.rowBudget.getD 0xFFFFFFFF ≠ at32 p 4) then { s with
        net := { s.net with rowVersion := v, rowSrc := some (rack, shelf)
                            rowBudget := if at32 p 4 = 0xFFFFFFFF then none else some (at32 p 4) }
        evr := if s.net.rowSrc = none ∨ s.net.rowVersion < v then s.evs [(0xA059, noInst, 0)] else s.evr }
      else s) :=
  State.rowTake_congr (fun t rack shelf p => if_congr
    (by simp only [Bool.or_eq_true, Bool.and_eq_true, Option.isNone_iff_eq_none, decide_eq_true_eq, bne_iff_ne, or_assoc,
      and_assoc])
    (t.takeBudget_eq _ _ _) rfl) s f 0x12 8

/-- A frame of this member leaves east, or west where EAST is wrapped, under the next SEQ. -/
theorem State.rowSend_eq (ty : Nat) (p : List Byte) (s : State) :
    s.rowSend ty p = if s.net.joined = true then { s with
      net := { s.net with ringSeq := wrapU 32 (s.net.ringSeq + 1), sentSeq := (s.net.ringSeq :: s.net.sentSeq).take 64 }
      tx := .row s.net.wrapEast (rowFrame ty (bitAt s.net.wrapEast 0) 510 s.rackId s.shelfIndex s.net.ringSeq p) :: s.tx }
    else s := by
  have port : s.net.outPort false = (s.net.wrapEast, s.net.wrapEast) := by
    cases east : s.net.wrapEast <;> simp [Net.outPort, east]
  unfold State.rowSend
  rw [port]
  rfl

theorem exec_rowBudgetResend_lead {s : State} (lead : s.sys.lead = true) (due : s.due 50000 s.net.budgetTick = true) :
    exec .rowBudgetResend s = .next (({ s with net := { s.net with budgetTick := some s.sys.tick } }).rowSend 0x12
      (leBytes 4 s.net.rowVersion ++ leBytes 4 (s.net.rowBudget.getD 0xFFFFFFFF))) :=
  congrArg Host.Outcome.next (if_pos (by simp [lead, due]))

theorem exec_rowBudgetResend_idle {s : State} (idle : s.sys.lead = false ∨ s.due 50000 s.net.budgetTick = false) :
    exec .rowBudgetResend s = .next s :=
  congrArg Host.Outcome.next (if_neg (by rcases idle with h | h <;> simp [h]))

/-! FAILOVER (R280, R394, R396, R397). -/

theorem State.noticed_iff {r k : Nat} {s : State} :
    s.noticed r k = true ↔ ∃ x ∈ s.net.notices, x.1 = r ∧ x.2.1 = k ∧ s.rootNs < x.2.2 + 10000000 := by
  simp only [State.noticed, List.any_eq_true, Bool.and_eq_true, decide_eq_true_eq]
  exact exists_congr fun x => and_congr_right fun _ =>
    ⟨fun ⟨⟨soon, rack⟩, shelf⟩ => ⟨rack, shelf, soon⟩, fun ⟨rack, shelf, soon⟩ => ⟨⟨soon, rack⟩, shelf⟩⟩

theorem State.notice_noticed (r k : Nat) (s : State) : (s.notice r k).noticed r k = true :=
  State.noticed_iff.2 ⟨_, List.mem_cons_self, rfl, rfl, by show s.rootNs < s.rootNs + 10000000; omega⟩

theorem exec_failover_eq (f : Sys2Proof.RowFrame) (s : State) :
    exec (.failover f) s = .next (s.rowTake f 0x20 12 ownBack fun s _ _ p =>
      let r := at16 p 0
      let k := at8 p 2
      if at8 p 3 = 0 ∨ 5 < at8 p 3 ∨ s.noticed r k = true then s.elect
      else (((s.notice r k).ev 0xA057).actOn r k).elect.cycleAgain) :=
  State.rowTake_congr (fun t rack shelf p => if_congr (by simp [or_assoc]) rfl rfl) s f 0x20 12

theorem State.actOn_elsewhere {rack : Nat} {s : State} (elsewhere : rack ≠ s.rackId) (shelf : Nat) :
    s.actOn rack shelf = s.markSubject rack shelf :=
  if_pos (bne_iff_ne.2 elsewhere)

theorem State.actOn_here (shelf : Nat) (s : State) : s.actOn s.rackId shelf =
    (((List.finRange 64).filter fun n =>
      shelf != s.shelfIndex && s.homing n.val = 2 && s.tray8 n.val 0x1D = shelf).foldl State.takeOverLatest
      (s.markSubject s.rackId shelf)).elect :=
  if_neg (by simp [State.rackId, State.markSubject, State.param])

/-- Judging the lead moves no port and leaves the device state. -/
theorem State.elect_ports (s : State) : s.elect.portStates = s.portStates ∧ s.elect.sys.state = s.sys.state := by
  refine ⟨State.portStates_of_port (congrArg Tlk.port
    ((State.elect_kept s (List.Subset.refl _) .rfl).only .tlk (by decide))), ?_⟩
  unfold State.elect
  dsimp only
  split
  · rfl
  · split
    · exact (congrArg Sys.state (State.ev_sys ..)).trans rfl
    · split
      · exact (congrArg Sys.state (State.ev_sys ..)).trans rfl
      · rfl

theorem State.cycleAgain_portStates {s : State} (run : s.sys.state = .run) : s.cycleAgain.portStates = s.portStates := by
  unfold State.cycleAgain
  split
  · exact State.leadCycle_portStates run
  · rfl

/-- A notice about a shelf of this rack, in RUN: the trays in WATCH that have it as primary are taken over. -/
theorem State.actOn_takesOver {n : Fin 64} {shelf : Nat} {s : State} (other : shelf ≠ s.shelfIndex)
    (secondary : s.homing n.val = 2) (primary : s.tray8 n.val 0x1D = shelf) (watch : s.portStates n = .watch)
    (run : s.sys.state = .run) :
    (s.actOn s.rackId shelf).portStates n = .takenOver ∧ (s.actOn s.rackId shelf).sys.state = .run := by
  rw [State.actOn_here]
  generalize list : ((List.finRange 64).filter fun n =>
    shelf != s.shelfIndex && s.homing n.val = 2 && s.tray8 n.val 0x1D = shelf) = l
  have once : l.Nodup := list ▸ (List.nodup_finRange 64).filter _
  have mem : n ∈ l := by simp [← list, other, secondary, primary]
  obtain ⟨ports, device⟩ := State.elect_ports (l.foldl State.takeOverLatest (s.markSubject s.rackId shelf))
  rw [ports, device, State.foldl_takeOverLatest_sys]
  exact ⟨State.foldl_takeOverLatest_portStates once mem run watch, run⟩

theorem State.tray8_of_same {s t : State} (cfg : t.cfg = s.cfg) (tlk : t.tlk = s.tlk) (n o : Nat) :
    t.tray8 n o = s.tray8 n o := by
  simp only [State.tray8, State.trayRec, State.trayRecs, State.recs, cfg, tlk]

/-- In RUN, a tray in WATCH whose primary a notice names is taken over, and stays so as the lead shares anew. -/
theorem exec_failover_takesOver {f : Sys2Proof.RowFrame} {n : Fin 64} {s : State} (acts : s.acts f 0x20 12 = true)
    (known : 1 ≤ at8 (bytesAt f.bytes 16 12) 3) (cause : at8 (bytesAt f.bytes 16 12) 3 ≤ 5) (none_ : s.net.notices = [])
    (rack : at16 (bytesAt f.bytes 16 12) 0 = s.rackId) (other : at8 (bytesAt f.bytes 16 12) 2 ≠ s.shelfIndex)
    (secondary : s.homing n.val = 2) (primary : s.tray8 n.val 0x1D = at8 (bytesAt f.bytes 16 12) 2)
    (watch : (s.port n).state = .watch) (run : s.sys.state = .run) :
    Gives (.failover f) s fun t => (t.port n).state = .takenOver := by
  refine ⟨_, exec_failover_eq f s, ?_⟩
  rw [State.rowTake_acts acts]
  generalize bytesAt f.bytes 16 12 = p at *
  extract_lets r k
  have noted : ((s.rowNoted f).noticed r k) = false := by
    have empty : (s.rowNoted f).net.notices = [] := by rw [State.rowNoted_net]; exact none_
    rw [State.noticed, empty]
    rfl
  rw [if_neg (by simp [noted]; omega)]
  generalize marked : ((s.rowNoted f).notice r k).ev 0xA057 = u
  have tlk : u.tlk = s.tlk := marked ▸ (State.ev_tlk ..).trans (s.rowNoted_only f .tlk (by decide))
  have cfg : u.cfg = s.cfg := marked ▸ (State.ev_cfg ..).trans (s.rowNoted_only f .cfg (by decide))
  have sys : u.sys = s.sys := marked ▸ (State.ev_sys ..).trans (s.rowNoted_only f .sys (by decide))
  have here : r = u.rackId := rack.trans (congrArg (fun c : Cfg => State.rackId { cfg := c }) cfg.symm)
  have tray (o : Nat) : u.tray8 n.val o = s.tray8 n.val o := State.tray8_of_same cfg tlk n.val o
  obtain ⟨taken, device⟩ := State.actOn_takesOver (s := u) (n := n) (shelf := k)
    (by rwa [show u.shelfIndex = s.shelfIndex from congrArg (fun c : Cfg => State.shelfIndex { cfg := c }) cfg])
    ((tray 0x09).trans secondary) ((tray 0x1D).trans primary)
    ((congrFun (State.portStates_of_port (congrArg Tlk.port tlk)) n).trans watch) ((congrArg Sys.state sys).trans run)
  rw [← here] at taken device
  obtain ⟨ports, state⟩ := State.elect_ports (u.actOn r k)
  exact (congrFun ((State.cycleAgain_portStates (state.trans device)).trans ports) n).trans taken

/-! PEER_SILENT (R396). -/

theorem State.rowSend_noticed (ty : Nat) (p : List Byte) (r k : Nat) (s : State) :
    (s.rowSend ty p).noticed r k = s.noticed r k := by
  rw [State.rowSend_eq]
  split <;> rfl

@[simp] theorem State.ev_noticed (s : State) (c i d r k : Nat) : (s.ev c i d).noticed r k = s.noticed r k := by
  rw [State.noticed, State.noticed, State.rootNs, State.rootNs, State.ev_net, State.ev_sys]

section Silent

variable {k : Fin 4} {s : State}

/-- A peer that has been seen: what its silence does. -/
theorem exec_peerSilent_seen {m : Member} (peer : s.net.members.find? (fun m => m.named s.rackId k.val) = some m) :
    exec (.peerSilent k) s = .next (
      if !s.net.joined || k.val = s.shelfIndex || m.st.state != 4 || m.silentSent || s.rootNs < m.at_ + 3000000 then s
      else
        let u := (({ s with net := { s.net with
          members := s.net.members.map fun (x : Member) => if x.named s.rackId k.val then { x with silentSent := true } else x
          } }).rowSend 0x20
          (noticeBytes s.rackId k.val 4 s.sys.timeNs)).ev 0xA056
        if u.noticed s.rackId k.val then u else (u.notice s.rackId k.val).actOn s.rackId k.val) := by
  show execPeerSilent k s = _
  unfold execPeerSilent
  dsimp only
  rw [peer] <;> rfl

theorem exec_peerSilent_notices {m : Member} (peer : s.net.members.find? (fun m => m.named s.rackId k.val) = some m)
    (joined : s.net.joined = true) (other : k.val ≠ s.shelfIndex) (ran : m.st.state = 4) (first : m.silentSent = false)
    (silent : m.at_ + 3000000 ≤ s.rootNs) : exec (.peerSilent k) s = .next (
      let u := (({ s with net := { s.net with
        members := s.net.members.map fun (x : Member) => if x.named s.rackId k.val then { x with silentSent := true } else x
        } }).rowSend 0x20
        (noticeBytes s.rackId k.val 4 s.sys.timeNs)).ev 0xA056
      if s.noticed s.rackId k.val = true then u else (u.notice s.rackId k.val).actOn s.rackId k.val) := by
  rw [exec_peerSilent_seen peer, if_neg (by simp [joined, other, ran, first]; omega)]
  dsimp only
  rw [State.ev_noticed, State.rowSend_noticed]
  rfl

theorem exec_peerSilent_idle
    (idle : (s.net.members.find? (fun m => m.named s.rackId k.val)).all (fun m =>
      !s.net.joined || k.val = s.shelfIndex || m.st.state != 4 || m.silentSent || s.rootNs < m.at_ + 3000000) = true) :
    exec (.peerSilent k) s = .next s := by
  cases peer : s.net.members.find? (fun m => m.named s.rackId k.val) with
  | none =>
    show execPeerSilent k s = _
    unfold execPeerSilent
    dsimp only
    rw [peer]
  | some m =>
    rw [peer, Option.all_some] at idle
    rw [exec_peerSilent_seen peer, if_pos idle]

end Silent

/-! Wraps (R392). -/

theorem exec_wrap_eq (f : Sys2Proof.RowFrame) (s : State) :
    exec (.wrap f) s = .next (s.rowTake f 0x21 2 ownBack fun s _ _ p => if at8 p 1 = 1 then s.setWhole false else s) := rfl

section Wrap

variable {west : Bool} {s : State}

theorem exec_ringWrapped_wraps (forwards : s.net.forwarding = true)
    (noWrap : (if west then s.net.wrapWest else s.net.wrapEast) = false) :
    exec (.ringWrapped west) s = .next (((({ s with net := { s.net with
      eastUp := if west then s.net.eastUp else false, westUp := if west then false else s.net.westUp
      wrapEast := s.net.wrapEast || !west, wrapWest := s.net.wrapWest || west } }).ev 0xA051).setWhole false).rowSend 0x21
      [if west then 1#8 else 0#8, 1#8]) := by
  refine congrArg Host.Outcome.next ((if_neg (by simp [forwards, noWrap])).trans ?_)
  cases west with
  | false => simp only [Bool.and_false, Bool.not_false, Bool.and_true]; rfl
  | true => simp only [Bool.and_true, Bool.not_true, Bool.and_false]; rfl

theorem exec_ringWrapped_idle (idle : s.net.forwarding = false ∨ (if west then s.net.wrapWest else s.net.wrapEast) = true) :
    exec (.ringWrapped west) s = .next s :=
  congrArg Host.Outcome.next (if_pos (by rcases idle with h | h <;> simp [h]))

theorem Net.wrapped_and_up (n : Net) (west : Bool) :
    (if west then n.wrapWest && n.westUp else n.wrapEast && n.eastUp) =
      ((if west then n.wrapWest else n.wrapEast) && (if west then n.westUp else n.eastUp)) := by
  cases west with
  | false => rfl
  | true => rfl

theorem exec_ringUnwrapped_unwraps (wrapped : (if west then s.net.wrapWest else s.net.wrapEast) = true)
    (up : (if west then s.net.westUp else s.net.eastUp) = true)
    (locked : s.elapsed (if west then s.net.lockWestAt else s.net.lockEastAt) 50000 = true) :
    exec (.ringUnwrapped west) s = .next ((({ s with net := { s.net with
      wrapEast := s.net.wrapEast && west, wrapWest := s.net.wrapWest && !west } }).ev 0xA052).rowSend 0x21
      [if west then 1#8 else 0#8, 0#8]) := by
  refine congrArg Host.Outcome.next ((if_neg (by rw [Net.wrapped_and_up, wrapped, up, locked]; decide)).trans ?_)
  cases west with
  | false => rfl
  | true => rfl

theorem exec_ringUnwrapped_idle (idle : (if west then s.net.wrapWest else s.net.wrapEast) = false ∨
    (if west then s.net.westUp else s.net.eastUp) = false ∨
    s.elapsed (if west then s.net.lockWestAt else s.net.lockEastAt) 50000 = false) :
    exec (.ringUnwrapped west) s = .next s := by
  refine congrArg Host.Outcome.next (if_pos ?_)
  rcases idle with unwrapped | down | early
  · rw [Net.wrapped_and_up, unwrapped]; rfl
  · rw [Net.wrapped_and_up, down, Bool.and_false]; rfl
  · rw [early, Bool.not_false, Bool.or_true]

end Wrap

/-- Settles O36: what every frame of the ring goes through is said once of `rowTake`, and each command's clause gives what
its frames do beyond that. -/
theorem rowRingFrames : Obligations.RowRingFrames := by
  unfold Obligations.RowRingFrames
  exact ⟨fun _ => exec_ringJoined_joins, fun _ => exec_ringJoined_idle,
    fun f ty len own act s => ⟨fun passed => State.rowTake_passed passed ty len own act,
      fun forwards long hops => State.rowTake_eq forwards long hops ty len own act⟩,
    fun f good s notTime long plain => State.rowForward_plain notTime long plain good,
    exec_ringStatus_eq, State.memberStatus_does, State.setWhole_eq,
    fun _ _ => exec_ringStatus_noted, fun _ _ => exec_ringStatus_whole,
    exec_share_eq, State.takeShare_eq,
    exec_rowBudgetFrame_eq, fun _ => exec_rowBudgetResend_lead, fun _ => exec_rowBudgetResend_idle, State.rowSend_eq,
    exec_failover_eq, fun r k s => ⟨State.noticed_iff, State.notice_noticed r k s, rfl, rfl⟩,
    fun _ shelf _ elsewhere => State.actOn_elsewhere elsewhere shelf, State.actOn_here,
    fun _ _ _ => exec_failover_takesOver,
    fun _ _ _ => exec_peerSilent_notices, fun _ _ => exec_peerSilent_idle,
    exec_wrap_eq, fun _ _ => exec_ringWrapped_wraps, fun _ _ => exec_ringWrapped_idle,
    fun _ _ => exec_ringUnwrapped_unwraps, fun _ _ => exec_ringUnwrapped_idle⟩

end Sys2Proof.Machine
end

section
/-! SUPPORT. What holds of every step: it takes the front command, keeps the canonical form, moves the lifecycle forward, and
gives a next state. -/

namespace Sys2Proof.Machine

/-- A step whose queue is not empty is the meaning of its front command. -/
theorem step_cons {c : Instr} {rest : List Instr} {s : State} (h : s.pending = c :: rest) :
    step s = exec c { s with pending := rest } := by
  rw [step, h]

/-- What a step leads to is kept by a command on the state with the queue's rest, or the state itself on an empty queue. -/
theorem step_kept {s t : State} (h : step s = .next t) :
    (s.pending = [] ∧ t = s) ∨
      ∃ c rest, s.pending = c :: rest ∧ Kept (touched c) { s with pending := rest } t := by
  cases hp : s.pending with
  | nil =>
    rw [step, hp] at h
    exact .inl ⟨rfl, (Host.Outcome.next.inj h).symm⟩
  | cons c rest => exact .inr ⟨c, rest, rfl, (exec_keeps c _).kept t (step_cons hp ▸ h)⟩

/-- Settles O49: by the definition of a step, on each of the two forms of the queue. -/
theorem stepTakesTheFrontCommand : Obligations.StepTakesTheFrontCommand :=
  ⟨fun _ _ _ => step_cons rfl, fun _ => rfl⟩

/-- The queue is on no command's list. -/
theorem pending_notMem_touched (c : Instr) : Blk.pending ∉ touched c := by
  cases c <;> simp [touched]

/-- Settles O50: the queue is on no command's list of parts. -/
theorem theQueueIsFirstInFirstOut : Obligations.TheQueueIsFirstInFirstOut := by
  intro c rest s t hp h
  have kept := (exec_keeps c _).kept t (step_cons hp ▸ h)
  exact kept.only .pending (pending_notMem_touched c)

/-- Settles O51: what every command keeps. -/
theorem memoriesStayCanonical : Obligations.MemoriesStayCanonical := by
  intro s t inv h
  rcases step_kept h with ⟨-, rfl⟩ | ⟨c, rest, -, kept⟩
  · exact inv
  · exact kept.mem inv

/-- Settles O54: no command moves the lifecycle back. -/
theorem theLifecycleMovesForward : Obligations.TheLifecycleMovesForward := by
  intro s t h
  rcases step_kept h with ⟨-, rfl⟩ | ⟨c, rest, -, kept⟩
  · exact Nat.le_refl _
  · exact kept.life

/-- A command's outcome is a next state. -/
def Completes (o : Host.Outcome State Fault Refusal) : Prop := ∃ t, o = .next t

theorem Completes.next (t : State) : Completes (.next t) := ⟨t, rfl⟩

theorem Completes.ite {c : Prop} [Decidable c] {x y : Host.Outcome State Fault Refusal} (h : Completes x)
    (k : Completes y) : Completes (if c then x else y) := by
  split <;> assumption

/-- The TAP refuses the debug instruction alone, and only where the lifecycle opens debug (R446). -/
theorem execJtagInstruction_completes {k : Sys2Proof.TapInstr} {s : State} (h : k ≠ .debug ∨ s.debugOpen = false) :
    Completes (execJtagInstruction k s) := by
  cases k with
  | bypass | samplePreload | idcode => exact .next _
  | extest | clamp => exact .ite (.next _) (.next _)
  | debug => exact ⟨_, if_neg (by simp [h.resolve_left (absurd rfl)])⟩

theorem execShuntModCompare_completes (i : Fin 4) (qActive qIdle : Int) (okA okB : Bool) (s : State) :
    Completes (execShuntModCompare i qActive qIdle okA okB s) := by
  refine .ite (.next _) (.ite (.next _) ?_)
  cases okA <;> cases okB <;> exact .next _

theorem execTierMigrationDone_completes (page ns : Nat) (ok : Bool) (s : State) :
    Completes (execTierMigrationDone page ns ok s) := by
  refine .ite (.next _) (.ite ?_ (.next _))
  cases s.admitPage page <;> exact .next _

theorem execAck_completes (n : Fin 64) (gseq : BitVec 16) (result : Fin 3) (s : State) :
    Completes (execAck n gseq result s) := by
  unfold execAck
  dsimp only
  split <;> exact .next _

theorem execGrantResend_completes (n : Fin 64) (s : State) : Completes (execGrantResend n s) := by
  unfold execGrantResend
  dsimp only
  split
  · exact .ite (.next _) (.next _)
  · exact .next _

theorem execBarrierComplete_completes (n : Fin 64) (s : State) : Completes (execBarrierComplete n s) := by
  unfold execBarrierComplete
  split
  · exact .next _
  · exact .ite (.next _) (.next _)

theorem execRoleTagApplied_completes (id : BitVec 32) (source : BitVec 8) (s : State) :
    Completes (execRoleTagApplied id source s) := by
  unfold execRoleTagApplied
  split
  · exact .next _
  · exact .ite (.next _) (.next _)

theorem execObsRecordClosed_completes (s : State) : Completes (execObsRecordClosed s) := by
  unfold execObsRecordClosed
  split <;> exact .next _

/-- Settles O53: an outcome is a next state as it stands, or on both branches of a test, or on each form of what is looked
up; the TAP's instruction has a case of its own. -/
theorem everyCommandCompletes : Obligations.EveryCommandCompletes := by
  refine ⟨fun c s h => ?_, fun s h => if_pos h⟩
  change Completes (exec c s)
  cases c with
  | jtagInstruction k => exact execJtagInstruction_completes (h.imp_left fun n e => n (congrArg _ e))
  | bootCalDone | overlapIn | overlapOut | settle | shuntModCalibrate | senseRestored | linkGlitch | surpriseRemoval
  | reportStale | grantTimeout | trayAnnounce | drained | dmaStart | dmaDone | dmaBusError | dmaAbort | recordsLost
  | obsidianFrame | captureFrozen => exact .ite (.next _) (.next _)
  | linkUp | ident => exact .ite (.next _) (.ite (.next _) (.next _))
  | linkDown | report => exact .ite (.next _) (.ite (.next _) (.ite (.next _) (.next _)))
  | selfCheck =>
    exact .ite (.next _) (.ite (.next _) (.ite (.next _) (.ite (.next _) (.ite (.next _) (.ite (.next _) (.next _))))))
  | calibrating =>
    refine .ite ?_ (.next _)
    split <;> exact .next _
  | tierFault u =>
    refine .ite (.next _) ?_
    cases u with
    | load => exact .next _
    | dma => exact .ite (.next _) (.next _)
  | shuntModCompare i qActive qIdle okA okB => exact execShuntModCompare_completes i qActive qIdle okA okB s
  | tierMigrationDone page ns ok => exact execTierMigrationDone_completes page ns ok s
  | ack n gseq result => exact execAck_completes n gseq result s
  | grantResend n => exact execGrantResend_completes n s
  | barrierComplete n => exact execBarrierComplete_completes n s
  | roleTagApplied id source => exact execRoleTagApplied_completes id source s
  | obsRecordClosed => exact execObsRecordClosed_completes s
  | _ => exact .next _

end Sys2Proof.Machine
end

section
/-! SUPPORT. Register reads over HCP (R496, R501, R502). -/

namespace Sys2Proof.Machine

/-- No register shows the latches of R502. -/
theorem State.regLive_latches (s : State) (l : List HiLatch) (b : Nat) :
    ({ s with sys := { s.sys with latches := l } } : State).regLive b = s.regLive b := by
  unfold State.regLive
  dsimp only
  split <;> rfl

section Read
variable {s : State} {a v : Nat} (live : s.regLive a = some v) (req : Nat)
include live

theorem State.regRead_unused (unused : s.instLive a = false) : s.regRead req a = (some 0, s) := by
  simp [State.regRead, live, unused]

theorem State.regRead_lo (used : s.instLive a = true) (lo : loReg a = true) :
    s.regRead req a = (some v, s.latchHi req a) := by
  simp [State.regRead, live, used, lo]

theorem State.regRead_plain (used : s.instLive a = true) (plain : loReg a = false) :
    s.regRead req a = (some ((s.hiLatch req a).getD v), s) := by
  simp [State.regRead, live, used, plain]

end Read

/-- A read of an unmapped address changes nothing; another one changes at most the latches and gives a value. -/
theorem State.regRead_cases (s : State) (req a : Nat) :
    (s.regLive a = none ∧ s.regRead req a = (none, s)) ∨
      ∃ v w l, s.regLive a = some v ∧ s.regRead req a = (some w, { s with sys := { s.sys with latches := l } }) := by
  cases live : s.regLive a with
  | none => exact .inl ⟨rfl, by simp [State.regRead, live]⟩
  | some v =>
    refine .inr ?_
    cases used : s.instLive a with
    | false => exact ⟨v, 0, s.sys.latches, rfl, State.regRead_unused live req used⟩
    | true =>
      cases lo : loReg a with
      | true => exact ⟨v, v, _, rfl, State.regRead_lo live req used lo⟩
      | false => exact ⟨v, _, s.sys.latches, rfl, State.regRead_plain live req used lo⟩

/-- The requester's latch of the upper half holds its value now. -/
theorem State.hiLatch_latchHi_same (s : State) (req a : Nat) :
    (s.latchHi req a).hiLatch req (a + 4) = some ((s.regLive (a + 4)).getD 0) := by
  simp [State.hiLatch, State.latchHi]

/-- The latch a read replaces is no other requester's, and no other register's. -/
theorem replaced_other {req r a b : Nat} (other : ¬ (r = req ∧ b = a)) (l : HiLatch) :
    (!(l.requester == req && l.addr == a) && (l.requester == r && l.addr == b)) = (l.requester == r && l.addr == b) := by
  rw [Bool.and_eq_right_iff_imp]
  intro mine
  simp only [Bool.and_eq_true, beq_iff_eq] at mine
  obtain ⟨rfl, rfl⟩ := mine
  simpa only [Bool.not_eq_true', Bool.and_eq_false_imp, beq_iff_eq, beq_eq_false_iff_ne, not_and] using other

theorem State.hiLatch_latchHi_other {req a r b : Nat} (other : ¬ (r = req ∧ b = a + 4)) (s : State) :
    (s.latchHi req a).hiLatch r b = s.hiLatch r b := by
  have fresh : (req == r && a + 4 == b) = false := by
    rw [Bool.and_eq_false_imp]
    intro mine
    rw [beq_iff_eq] at mine
    exact beq_eq_false_iff_ne.2 fun here => other ⟨mine.symm, here.symm⟩
  simp only [State.hiLatch, State.latchHi, List.find?_cons, fresh, List.find?_filter, Bool.decide_and,
    Bool.decide_eq_true, replaced_other other]

/-- Settles O56: the cases of a read, and the latches after one of a _LO register. -/
theorem registerReadsChangeNoRegister : Obligations.RegisterReadsChangeNoRegister := by
  refine ⟨fun req a b s => ?_, fun req a v s live used lo => ?_, fun req a v s live => ?_⟩
  · rcases s.regRead_cases req a with ⟨none, read⟩ | ⟨v, w, l, some, read⟩
    · rw [read]
      exact ⟨rfl, ⟨s.sys.latches, rfl⟩, by simp [none]⟩
    · rw [read]
      exact ⟨s.regLive_latches l b, ⟨l, rfl⟩, by simp [some]⟩
  · rw [State.regRead_lo live req used lo]
    exact ⟨rfl, s.hiLatch_latchHi_same req a, fun r b other => State.hiLatch_latchHi_other other s⟩
  · exact ⟨State.regRead_unused live req, State.regRead_plain live req⟩

end Sys2Proof.Machine
end

section
/-! SUPPORT. How an event enters the recorder (R473 to R475). -/

namespace Sys2Proof.Machine

/-- The record of an event as it comes to the recorder, before it takes its SEQ (R473). -/
def State.record (s : State) (c i d : Nat) : Event :=
  { code := c, inst := i, seq := 0, time := s.sys.timeNs, tick := if s.clk.fabricStopped then 0 else s.sys.tick
    data := wrapU 32 d, suppressed := 0 }

theorem State.bucketTake_unlimited {c : Nat} (unlimited : unlimitedCode c = true) (s : State) :
    s.bucketTake c = (some 0, s) :=
  if_pos unlimited

/-- A code that is never limited takes no token: its record goes to the recorder as it is. -/
theorem State.evRecord1_unlimited {c : Nat} (unlimited : unlimitedCode c = true) (i d : Nat) (s : State) :
    s.evRecord1 c i d = s.evPut (s.record c i d) := by
  rw [State.evRecord1, State.bucketTake_unlimited unlimited]
  rfl

/-- With an empty bucket the occurrence is suppressed and counted (R475). -/
theorem State.bucketTake_empty {c : Nat} {b : Bucket} {s : State} (limited : unlimitedCode c = false)
    (bucket : s.evr.buckets.find? (fun b => b.code == c) = some b) (empty : b.tokens < 500000)
    (judged : b.tick = s.sys.tick) :
    s.bucketTake c = (none, { s with evr := { s.evr with
      buckets := { b with tokens := min ((s.bucketCfg c).1 * tokenUnit) b.tokens, tick := s.sys.tick
                          suppressed := bump 16 b.suppressed } :: s.evr.buckets.filter fun b => b.code != c
      suppressed := bump 32 s.evr.suppressed } }) := by
  have poor : ¬ tokenUnit ≤ min ((s.bucketCfg c).1 * tokenUnit) b.tokens := by
    rw [tokenUnit]
    omega
  simp only [State.bucketTake, limited, bucket, judged, Option.getD_some, Nat.sub_self, Nat.mul_zero, Nat.add_zero, poor,
    if_false, Bool.false_eq_true]

/-! Where the record of an event goes (R474). -/

theorem State.evPut_enters {s : State} (few : s.evr.entered < 4) (none : s.evr.staging = []) (e : Event) :
    s.evPut e = s.evEnter e :=
  if_pos (by simp [few, none])

theorem State.evPut_waits {s : State} (many : 4 ≤ s.evr.entered) (room : s.evr.staging.length < 4096) (e : Event) :
    s.evPut e = { s with evr := { s.evr with staging := s.evr.staging ++ [e] } } :=
  (if_neg (by simp [many])).trans (if_pos room)

theorem State.evPut_lost {s : State} (full : s.evr.staging.length = 4096) (e : Event) :
    s.evPut e = { s with evr := { s.evr with lost := bump 32 s.evr.lost, lossOwed := true } } := by
  have waits : s.evr.staging.isEmpty = false := by
    rw [List.isEmpty_eq_false_iff]
    rintro empty
    simp [empty] at full
  exact (if_neg (by simp [waits])).trans (if_neg (by simp [full, stagingCap]))

/-- A record that enters comes first in the HBM and the recent area, and last in the first area while that has room. -/
theorem State.evEnter_does {s : State} (room : s.evr.first.length < 8192) (open_ : s.evr.firstFull = false) (e : Event) :
    (s.evEnter e).evr.recent.head? = some { e with seq := wrapU 32 s.evr.seq } ∧
    (s.evEnter e).evr.hbmArea.head? = some { e with seq := wrapU 32 s.evr.seq } ∧
    (s.evEnter e).evr.first = s.evr.first ++ [{ e with seq := wrapU 32 s.evr.seq }] ∧
    (s.evEnter e).evr.seq = wrapU 64 (s.evr.seq + 1) ∧ (s.evEnter e).evr.entered = s.evr.entered + 1 := by
  have roomy : (decide (s.evr.first.length < firstCap) && !s.evr.firstFull) = true := by simp [room, open_, firstCap]
  exact ⟨rfl, rfl, if_pos roomy, rfl, rfl⟩

/-- What is put to the recorder leaves the buckets and the count of what they suppress. -/
theorem State.evPut_buckets (s : State) (e : Event) :
    (s.evPut e).evr.suppressed = s.evr.suppressed ∧ (s.evPut e).evr.buckets = s.evr.buckets := by
  unfold State.evPut
  split
  · exact ⟨rfl, rfl⟩
  · split <;> exact ⟨rfl, rfl⟩

/-- Settles O57: a record by the place it goes to, and a suppressed one by its bucket. -/
theorem eventRecorder : Obligations.EventRecorder := by
  refine ⟨fun c i d s unlimited few none room open_ => ?_, fun c i d s unlimited many room => ?_,
    fun c i d s unlimited full => ?_, fun c i d b s limited bucket empty judged => ?_, fun c i d s unlimited => ?_⟩
  · rw [State.evRecord1_unlimited unlimited, State.evPut_enters few none]
    obtain ⟨recent, hbm, first, seq, entered⟩ := State.evEnter_does room open_ (s.record c i d)
    exact ⟨recent, hbm.trans recent.symm, by rw [first, recent, List.getLast?_concat], seq, entered⟩
  · rw [State.evRecord1_unlimited unlimited, State.evPut_waits many room]
    exact ⟨List.length_append, rfl, rfl, rfl⟩
  · rw [State.evRecord1_unlimited unlimited, State.evPut_lost full]
  · have own : b.code = c := by simpa using List.find?_some bucket
    rw [State.evRecord1, State.bucketTake_empty limited bucket empty judged]
    exact ⟨rfl, rfl, by simp [own]⟩
  · rw [State.evRecord1_unlimited unlimited]
    exact s.evPut_buckets _

end Sys2Proof.Machine
end

section
/-! SUPPORT. The recorder's controls (R472, R474, R484, R492). -/

namespace Sys2Proof.Machine

/-- An event beside a change of the EVR block touches that block alone. -/
theorem State.ev_withEvr (s : State) (v : Evr) (c i d : Nat) :
    (({ s with evr := v } : State).ev c i d).evr = ({ s with evr := v } : State).evs [(c, i, d)] ∧
    State.only [.evr] s (({ s with evr := v } : State).ev c i d) :=
  ⟨rfl, (State.ev_kept _ _ _ _ (List.Subset.refl _) (Kept.mk_iff.2 (Kept.of_evr .rfl (by decide)))).only⟩

/-- A number of 16 bits is its own remainder. -/
theorem wrapU_toNat (x : BitVec 16) : wrapU 16 x.toNat = x.toNat :=
  Nat.mod_eq_of_lt x.isLt

theorem exec_firstClear_clears {n : Fin 64} {s : State} (allowed : s.allows n .ia = true) :
    exec (.firstClear n) s = .next (({ s with evr := { s.evr with first := [], firstFull := false } }).ev 0xC042) :=
  congrArg Host.Outcome.next (State.regCmd_allowed allowed _)

theorem exec_evrUser_raises {n : Fin 64} {code : BitVec 16} {s : State} (allowed : s.allows n .ox = true)
    (user : code.toNat / 4096 = 15) (inst : BitVec 16) :
    exec (.evrUser n code inst) s = .next (s.ev code.toNat inst.toNat s.evr.userData) := by
  refine congrArg Host.Outcome.next ((State.regCmd_allowed allowed _).trans ((if_pos user).trans ?_))
  rw [wrapU_toNat, wrapU_toNat]

theorem exec_evrUser_ignored {n : Fin 64} {code : BitVec 16} {s : State} (allowed : s.allows n .ox = true)
    (other : code.toNat / 4096 ≠ 15) (inst : BitVec 16) : exec (.evrUser n code inst) s = .next s :=
  congrArg Host.Outcome.next ((State.regCmd_allowed allowed _).trans (if_neg other))

theorem exec_recordsLost_records {s : State} (owed : s.evr.lossOwed = true) (room : s.evr.staging.length < 4096) :
    exec .recordsLost s = .next (({ s with evr := { s.evr with lossOwed := false } }).ev 0xC040) :=
  if_pos (by simp [owed, room, stagingCap])

theorem exec_recordsLost_idle {s : State} (idle : s.evr.lossOwed = false ∨ 4096 ≤ s.evr.staging.length) :
    exec .recordsLost s = .next s := by
  refine if_neg ?_
  rw [Bool.and_eq_true, decide_eq_true_eq, stagingCap]
  rintro ⟨owed, room⟩
  rcases idle with settled | full
  · exact Bool.false_ne_true (settled.symm.trans owed)
  · omega

theorem exec_captureFrozen_stops {s : State} (late : s.evr.freezeAt.any (s.elapsed · 5000000) = true)
    (runs : s.evr.capFrozen = false) :
    exec .captureFrozen s =
      .next (({ s with evr := { s.evr with freezeAt := none, capFrozen := true } }).ev 0xC060) :=
  if_pos (by rw [late, runs]; rfl)

theorem exec_captureFrozen_idle {s : State}
    (idle : s.evr.freezeAt.any (s.elapsed · 5000000) = false ∨ s.evr.capFrozen = true) :
    exec .captureFrozen s = .next s :=
  if_neg (by rcases idle with h | h <;> rw [h] <;> simp)

theorem exec_resume_goesOn {n : Fin 64} {s : State} (allowed : s.allows n .ox = true) (frozen : s.evr.capFrozen = true) :
    exec (.resume n) s = .next (({ s with evr := { s.evr with capFrozen := false } }).ev 0xC061) :=
  congrArg Host.Outcome.next ((State.regCmd_allowed allowed _).trans (if_pos frozen))

theorem exec_resume_idle {n : Fin 64} {s : State} (allowed : s.allows n .ox = true) (runs : s.evr.capFrozen = false) :
    exec (.resume n) s = .next s :=
  congrArg Host.Outcome.next ((State.regCmd_allowed allowed _).trans (if_neg (by simp [runs])))

/-- Settles O45: each control by its equation, where it acts and where it does not. -/
theorem recorderControls : Obligations.RecorderControls :=
  ⟨fun _ s allowed => ⟨_, exec_firstClear_clears allowed, s.ev_withEvr _ _ _ _⟩,
    fun _ _ inst s allowed user => ⟨_, exec_evrUser_raises allowed user inst, s.ev_withEvr s.evr _ _ _⟩,
    fun _ _ inst _ allowed other => exec_evrUser_ignored allowed other inst,
    fun s owed room => ⟨_, exec_recordsLost_records owed room, s.ev_withEvr _ _ _ _⟩,
    fun _ => exec_recordsLost_idle,
    fun s late runs => ⟨_, exec_captureFrozen_stops late runs, s.ev_withEvr _ _ _ _⟩,
    fun _ => exec_captureFrozen_idle,
    fun _ s allowed frozen => ⟨_, exec_resume_goesOn allowed frozen, s.ev_withEvr _ _ _ _⟩,
    fun _ _ => exec_resume_idle⟩

end Sys2Proof.Machine
end

section
/-! SUPPORT. The Obsidian store: frames, triggers, slots that close and slots that are freed (R475, R477, R478, R485). -/

namespace Sys2Proof.Machine

/-! The recorder leaves the store's slots alone: only a trigger changes them. -/

/-- Two EVR blocks hold the same slots, closed in the same order. -/
def Evr.SameStore (v w : Evr) : Prop := w.slot = v.slot ∧ w.closedCount = v.closedCount

theorem Evr.SameStore.trans {u v w : Evr} (h : u.SameStore v) (k : v.SameStore w) : u.SameStore w :=
  ⟨k.1.trans h.1, k.2.trans h.2⟩

theorem State.bucketTake_sameStore (s : State) (c : Nat) : s.evr.SameStore (s.bucketTake c).2.evr := by
  unfold State.bucketTake
  dsimp only
  split
  · exact ⟨rfl, rfl⟩
  · split <;> exact ⟨rfl, rfl⟩

theorem State.evPut_sameStore (s : State) (e : Event) : s.evr.SameStore (s.evPut e).evr := by
  unfold State.evPut
  split
  · exact ⟨rfl, rfl⟩
  · split <;> exact ⟨rfl, rfl⟩

theorem State.evRecord1_sameStore (s : State) (c i d : Nat) : s.evr.SameStore (s.evRecord1 c i d).evr := by
  have bucket := s.bucketTake_sameStore c
  unfold State.evRecord1
  generalize s.bucketTake c = r at bucket
  rcases r with ⟨_ | sup, t⟩
  · exact bucket
  · exact bucket.trans (t.evPut_sameStore _)

theorem State.evRecord_sameStore (s : State) (c i d : Nat) : s.evr.SameStore (s.evRecord c i d).evr := by
  have one := s.evRecord1_sameStore c i d
  unfold State.evRecord
  dsimp only
  split
  · exact one.trans (State.evRecord1_sameStore _ _ _ _)
  · exact one

/-- Where event 0xC041 is no trigger, the fill of the first area triggers nothing. -/
theorem State.fullTrigger_idle {s : State} (quiet : (s.bucketCfg 0xC041).2.2 = false) (was : State) :
    s.fullTrigger was = s :=
  if_neg (by simp [quiet])

/-- An event that triggers nothing leaves the store alone. -/
theorem State.ev_sameStore {s : State} {c : Nat} (loss : c ≠ 0x0010) (basalt : c ≠ 0xB001)
    (quiet : (s.bucketCfg c).2.2 = false) (full : (s.bucketCfg 0xC041).2.2 = false) (i d : Nat) :
    s.evr.SameStore (s.ev c i d).evr := by
  have same : (s.evRecord c i d).cfg = s.cfg := by rw [State.evRecord_eq]
  have full' : ((s.evRecord c i d).bucketCfg 0xC041).2.2 = false := by
    rw [← full]
    simp only [State.bucketCfg, State.rec16, State.recs, same]
  have noTrigger : s.ev c i d = s.evRecord c i d := by
    unfold State.ev
    dsimp only
    rw [if_neg (by simp [loss, basalt, quiet]), State.fullTrigger_idle full']
  rw [noTrigger]
  exact s.evRecord_sameStore c i d

/-! Frames (R477, R478). -/

theorem exec_obsidianFrame_stores {s : State} (writer : s.evr.writer = true) (clocked : s.clk.fabricStopped = false)
    (due : 50 ≤ s.evr.keyTicks) :
    exec .obsidianFrame s = .next { s with evr := { s.evr with
      keySums := [], keyTicks := 0
      slot := s.evr.slot.map fun (x : ObsSlot) => x.addFrame
        { tick := s.sys.tick, time := s.sys.timeNs, samples := (List.range 256).map (keySample s s.evr.keySums) }
        s.keyMap } } :=
  if_pos (by simp [writer, clocked, due])

theorem exec_obsidianFrame_idle {s : State}
    (idle : s.evr.writer = false ∨ s.clk.fabricStopped = true ∨ s.evr.keyTicks < 50) :
    exec .obsidianFrame s = .next s := by
  refine if_neg ?_
  rcases idle with off | stopped | early
  · simp [off]
  · simp [stopped]
  · simp [Nat.not_le.2 early]

section Frame
variable {x : ObsSlot} (f : ObsFrame) (m : List (Nat × Nat × Nat))

theorem ObsSlot.addFrame_live (live : x.state = .live) :
    x.addFrame f m = { x with frames := (f :: x.frames).take 20500, written := x.written + 1, keyMap := m } := by
  simp [ObsSlot.addFrame, live, obsFrames]

theorem ObsSlot.addFrame_closing (closing : x.state = .closing) (owed : 0 < x.left) :
    x.addFrame f m =
      { x with frames := (f :: x.frames).take 20500, written := x.written + 1, left := x.left - 1, keyMap := m } := by
  simp [ObsSlot.addFrame, closing, owed, obsFrames]

theorem ObsSlot.addFrame_other
    (other : (x.state ≠ .live ∧ x.state ≠ .closing) ∨ (x.state = .closing ∧ x.left = 0)) : x.addFrame f m = x := by
  refine if_neg ?_
  rcases other with ⟨notLive, notClosing⟩ | ⟨closing, full⟩
  · simp [notLive, notClosing]
  · simp [closing, full]

end Frame

/-! Triggers (R478, R485). -/

theorem State.obsTrigger_off {s : State} (off : s.evr.writer = false) (code : Nat) : s.obsTrigger code = s :=
  if_pos (by simp [off])

theorem State.obsTrigger_on {s : State} (on : s.evr.writer = true) (code : Nat) :
    s.obsTrigger code = ({ s with evr := (s.evr.trigger code s.sys.timeNs).1.armFreeze s.sys.tick }).evRecord 0xC050
      (s.evr.trigger code s.sys.timeNs).2 0 :=
  if_neg (by simp [on])

/-- The capture ring's freeze leaves the store alone. -/
theorem Evr.armFreeze_sameStore (v : Evr) (tick : Nat) : v.SameStore (v.armFreeze tick) := by
  unfold Evr.armFreeze
  split <;> exact ⟨rfl, rfl⟩

/-- A trigger leaves in the slots what the store makes of it. -/
theorem State.obsTrigger_slot {s : State} (on : s.evr.writer = true) (code : Nat) :
    (s.obsTrigger code).evr.slot = (s.evr.trigger code s.sys.timeNs).1.slot := by
  rw [State.obsTrigger_on on]
  exact (State.evRecord_sameStore _ _ _ _).1.trans (Evr.armFreeze_sameStore _ _).1

section Trigger
variable {v : Evr} (code time : Nat)

/-- While a slot closes, the trigger is marked there alone. -/
theorem Evr.trigger_marks {c : Fin 4} (closing : v.slotWhere (fun x => x.state = .closing) = some c)
    (stays : code ≠ 0x0010 ∨ v.slotWhere (fun x => x.state = .live) = none) :
    v.trigger code time = ({ v with slot := updV v.slot c fun x => x.mark code time }, c.val) := by
  unfold Evr.trigger
  rw [closing]
  cases live : v.slotWhere (fun x => x.state = .live) with
  | none => rfl
  | some l => exact if_neg (stays.resolve_right (by simp [live]))

/-- An input loss while a slot closes closes the LIVE slot too. -/
theorem Evr.trigger_lossCloses {c l : Fin 4} (closing : v.slotWhere (fun x => x.state = .closing) = some c)
    (live : v.slotWhere (fun x => x.state = .live) = some l) :
    v.trigger 0x0010 time = ({ v with slot := updV (updV v.slot c fun x => x.mark 0x0010 time) l fun x =>
      { x with state := .closing, left := 500 } }, c.val) := by
  unfold Evr.trigger
  rw [closing, live]
  rfl

/-- With no slot closing the LIVE slot becomes CLOSING, and the next one LIVE. -/
theorem Evr.trigger_closes {i j : Fin 4} (none : v.slotWhere (fun x => x.state = .closing) = none)
    (live : v.slotWhere (fun x => x.state = .live) = some i)
    (next : ({ v with slot := updV v.slot i fun x =>
      { x.mark code time with state := .closing, left := 500 } } : Evr).nextLive = some j) :
    (v.trigger code time).1.slot =
      updV (updV v.slot i fun x => { x.mark code time with state := .closing, left := 500 }) j fun _ => { state := .live } := by
  unfold Evr.trigger
  rw [none, live]
  dsimp only
  rw [next]
  rfl

end Trigger

/-! Which slot becomes LIVE (R478). -/

/-- The slot found is one for which the test holds. -/
theorem Evr.slotWhere_some {v : Evr} {p : ObsSlot → Bool} {i : Fin 4} (found : v.slotWhere p = some i) :
    p v.slot[i.val] = true :=
  List.find?_some (p := fun i : Fin 4 => p v.slot[i.val]) found

theorem Evr.slotWhere_none {v : Evr} {p : ObsSlot → Bool} :
    v.slotWhere p = none ↔ ∀ i : Fin 4, p v.slot[i.val] = false := by
  simp [Evr.slotWhere, List.find?_eq_none]

/-- The search for the oldest CLOSED slot, slot by slot. -/
def Evr.olderClosed (v : Evr) (acc : Option (Fin 4)) (i : Fin 4) : Option (Fin 4) :=
  if v.slot[i.val].state = .closed then
    match acc with
    | none => some i
    | some j => if v.slot[i.val].closedOrder < v.slot[j.val].closedOrder then some i else some j
  else acc

theorem Evr.oldestClosed_eq (v : Evr) : v.oldestClosed = (List.finRange 4).foldl v.olderClosed none := rfl

/-- What the search has found among some slots: none is CLOSED, or one that is, and none was CLOSED before it. -/
def Evr.Searched (v : Evr) (l : List (Fin 4)) : Option (Fin 4) → Prop
  | none => ∀ k ∈ l, v.slot[k.val].state ≠ .closed
  | some j => v.slot[j.val].state = .closed ∧
    ∀ k ∈ l, v.slot[k.val].state = .closed → v.slot[j.val].closedOrder ≤ v.slot[k.val].closedOrder

theorem Evr.olderClosed_searched {v : Evr} {l : List (Fin 4)} {acc : Option (Fin 4)} (searched : v.Searched l acc)
    (i : Fin 4) : v.Searched (l ++ [i]) (v.olderClosed acc i) := by
  unfold Evr.olderClosed
  cases acc with
  | none =>
    dsimp only [Evr.Searched] at searched
    split <;> simp only [Evr.Searched, List.mem_append, List.mem_singleton] <;> grind
  | some j =>
    dsimp only [Evr.Searched] at searched
    split
    · dsimp only
      split <;> simp only [Evr.Searched, List.mem_append, List.mem_singleton] <;> grind
    · simp only [Evr.Searched, List.mem_append, List.mem_singleton]
      grind

theorem Evr.foldl_searched {v : Evr} (m : List (Fin 4)) {l : List (Fin 4)} {acc : Option (Fin 4)}
    (searched : v.Searched l acc) : v.Searched (l ++ m) (m.foldl v.olderClosed acc) := by
  induction m generalizing l acc with
  | nil => simpa using searched
  | cons i m ih => simpa using ih (Evr.olderClosed_searched searched i)

theorem Evr.oldestClosed_searched (v : Evr) : v.Searched (List.finRange 4) v.oldestClosed :=
  Evr.foldl_searched (l := []) (List.finRange 4) (acc := none) fun _ absent => absurd absent List.not_mem_nil

/-- The oldest CLOSED slot is CLOSED, and none was CLOSED before it. -/
theorem Evr.oldestClosed_some {v : Evr} {j : Fin 4} (found : v.oldestClosed = some j) :
    v.slot[j.val].state = .closed ∧
      ∀ k : Fin 4, v.slot[k.val].state = .closed → v.slot[j.val].closedOrder ≤ v.slot[k.val].closedOrder := by
  have searched := v.oldestClosed_searched
  rw [found] at searched
  exact ⟨searched.1, fun k => searched.2 k (List.mem_finRange k)⟩

/-- The next slot depends on which slots are FREE, which CLOSED, and on the order in which they closed. -/
theorem Evr.nextLive_congr {v w : Evr} (free : ∀ i : Fin 4, w.slot[i.val].state = .free ↔ v.slot[i.val].state = .free)
    (closed : ∀ i : Fin 4, w.slot[i.val].state = .closed ↔ v.slot[i.val].state = .closed)
    (order : ∀ i : Fin 4, w.slot[i.val].closedOrder = v.slot[i.val].closedOrder) : w.nextLive = v.nextLive := by
  have older : w.olderClosed = v.olderClosed := by
    funext acc i
    simp only [Evr.olderClosed, closed, order]
  simp only [Evr.nextLive, Evr.slotWhere, Evr.oldestClosed_eq, free, older]

theorem ObsSlot.mark_eq (x : ObsSlot) (code time : Nat) : x.mark code time =
    if x.marks.length < 8 then { x with marks := x.marks ++ [{ code := code, frame := x.written, time := time }] } else x :=
  rfl

/-- A slot after its trigger: it is CLOSING, with 500 frames to come. -/
def ObsSlot.closed (x : ObsSlot) (code time : Nat) : ObsSlot := { x.mark code time with state := .closing, left := 500 }

/-- The LIVE slot that closes leaves the choice of the next one alone. -/
theorem Evr.nextLive_closing {v : Evr} {i : Fin 4} (live : v.slot[i.val].state = .live) (code time : Nat) :
    ({ v with slot := updV v.slot i fun x => x.closed code time } : Evr).nextLive = v.nextLive := by
  have order (x : ObsSlot) : (x.closed code time).closedOrder = x.closedOrder := by
    unfold ObsSlot.closed
    rw [ObsSlot.mark_eq]
    split <;> rfl
  have was (k : Fin 4) (same : i.val = k.val) : v.slot[k.val].state = .live := by
    rw [← live]
    simp only [same]
  refine Evr.nextLive_congr (fun k => ?_) (fun k => ?_) fun k => ?_
  · rw [updV_get]
    split
    · next same => simp [was k same, ObsSlot.closed]
    · rfl
  · rw [updV_get]
    split
    · next same => simp [was k same, ObsSlot.closed]
    · rfl
  · rw [updV_get]
    split
    · exact order _
    · rfl

/-! TRIGGER_NOW (R478, R491). -/

theorem exec_triggerNow_allowed {n : Fin 64} {s : State} (allowed : s.allows n .oa = true) :
    exec (.triggerNow n) s = .next ((s.used.obsTrigger (Config.freeNat s.fv % 65536)).fullTrigger s) :=
  congrArg Host.Outcome.next (State.regCmd_allowed allowed _)

/-- Without the writer the trigger takes its free value and does nothing else. -/
theorem exec_triggerNow_off {n : Fin 64} {s : State} (allowed : s.allows n .oa = true) (off : s.evr.writer = false) :
    exec (.triggerNow n) s = .next s.used := by
  rw [exec_triggerNow_allowed allowed, State.obsTrigger_off (s := s.used) off]
  exact congrArg Host.Outcome.next (if_neg (by simp))

/-- A trigger by register touches the recorder and the free values. -/
theorem State.triggerNow_only (s : State) (code : Nat) :
    State.only [.evr, .fv] s ((s.used.obsTrigger code).fullTrigger s) :=
  (State.fullTrigger_kept _ _ (by decide) (State.obsTrigger_kept _ _ (by decide)
    (State.used_kept s (by decide) .rfl))).only

section Closes
variable {i j : Fin 4} {s : State} (noneCloses : ∀ k : Fin 4, s.evr.slot[k.val].state ≠ .closing)
  (live : s.evr.slotWhere (fun x => x.state = .live) = some i)
  (next : s.evr.slotWhere (fun x => x.state = .free) = some j ∨
    (s.evr.slotWhere (fun x => x.state = .free) = none ∧ s.evr.oldestClosed = some j))

include live in
theorem Evr.slotWhere_live : s.evr.slot[i.val].state = .live := by
  simpa using Evr.slotWhere_some live

include next in
theorem Evr.nextLive_of : s.evr.nextLive = some j := by
  unfold Evr.nextLive
  rcases next with free | ⟨noFree, oldest⟩
  · rw [free]
  · rw [noFree]
    exact oldest

include next in
/-- The slot that becomes LIVE was not. -/
theorem Evr.nextLive_notLive : s.evr.slot[j.val].state ≠ .live := by
  rcases next with free | ⟨-, oldest⟩
  · simp [show s.evr.slot[j.val].state = .free by simpa using Evr.slotWhere_some free]
  · simp [(Evr.oldestClosed_some oldest).1]

include noneCloses live next in
/-- The slots after a trigger by register. -/
theorem State.triggerNow_slot (on : s.evr.writer = true) (quiet : (s.bucketCfg 0xC041).2.2 = false) (code : Nat) :
    ((s.used.obsTrigger code).fullTrigger s).evr.slot =
      updV (updV s.evr.slot i fun x => x.closed code s.sys.timeNs) j fun _ => { state := .live } := by
  have none : s.used.evr.slotWhere (fun x => x.state = .closing) = .none :=
    Evr.slotWhere_none.2 fun k => decide_eq_false (noneCloses k)
  have quiet' : ((s.used.obsTrigger code).bucketCfg 0xC041).2.2 = false := by
    have same : (s.used.obsTrigger code).cfg = s.cfg := by rw [State.obsTrigger_eq]; rfl
    rw [← quiet]
    simp only [State.bucketCfg, State.rec16, State.recs, same]
  rw [State.fullTrigger_idle quiet', State.obsTrigger_slot (s := s.used) on]
  exact Evr.trigger_closes code s.sys.timeNs none live
    ((Evr.nextLive_closing (Evr.slotWhere_live live) code s.sys.timeNs).trans (Evr.nextLive_of next))

include noneCloses live next in
theorem exec_triggerNow_closes {n : Fin 64} (allowed : s.allows n .oa = true) (on : s.evr.writer = true)
    (unmarked : s.evr.slot[i.val].marks = []) (quiet : (s.bucketCfg 0xC041).2.2 = false) :
    Gives (.triggerNow n) s fun t =>
      t.evr.slot[i.val].state = .closing ∧ t.evr.slot[i.val].left = 500 ∧ t.evr.slot[i.val].marks.length = 1 ∧
      t.evr.slot[j.val].state = .live ∧ t.evr.slot[j.val].frames = [] ∧
      (∀ k : Fin 4, k ≠ i → k ≠ j → t.evr.slot[k.val] = s.evr.slot[k.val]) ∧ State.only [.evr, .fv] s t := by
  have apart : j ≠ i := fun same => Evr.nextLive_notLive next (same ▸ Evr.slotWhere_live live)
  have marked (code time : Nat) : (s.evr.slot[i.val].closed code time).marks.length = 1 := by
    rw [ObsSlot.closed, ObsSlot.mark_eq, if_pos (by rw [unmarked]; decide), unmarked]
    rfl
  refine ⟨_, exec_triggerNow_allowed allowed, ?_⟩
  have slots := State.triggerNow_slot noneCloses live next on quiet (Config.freeNat s.fv % 65536)
  have only := s.triggerNow_only (Config.freeNat s.fv % 65536)
  generalize (s.used.obsTrigger (Config.freeNat s.fv % 65536)).fullTrigger s = t at slots only
  have closes : t.evr.slot[i.val] = s.evr.slot[i.val].closed (Config.freeNat s.fv % 65536) s.sys.timeNs := by
    simp [slots, Fin.val_inj, apart]
  have begins : t.evr.slot[j.val] = { state := .live } := by simp [slots]
  have others (k : Fin 4) (ki : k ≠ i) (kj : k ≠ j) : t.evr.slot[k.val] = s.evr.slot[k.val] := by
    simp [slots, Fin.val_inj, ki.symm, kj.symm]
  dsimp only
  rw [closes, begins]
  exact ⟨rfl, rfl, marked _ _, rfl, rfl, others, only⟩

end Closes

/-! Slots that close, and slots that are freed (R478, R491). -/

theorem exec_obsRecordClosed_closes {i : Fin 4} {s : State}
    (full : s.evr.slotWhere (fun x => x.state = .closing && x.left = 0) = some i) :
    exec .obsRecordClosed s = .next (({ s with evr := { s.evr with
      slot := updV s.evr.slot i fun x =>
        { x with state := if s.evr.closedCount = 0 then .kept else .closed, left := 0, closedOrder := s.evr.closedCount }
      closedCount := s.evr.closedCount + 1 } }).ev 0xC051 i.val) := by
  change execObsRecordClosed s = _
  rw [execObsRecordClosed, full]
  rfl

theorem exec_obsRecordClosed_idle {s : State}
    (idle : s.evr.slotWhere (fun x => x.state = .closing && x.left = 0) = none) :
    exec .obsRecordClosed s = .next s := by
  change execObsRecordClosed s = _
  rw [execObsRecordClosed, idle]

theorem ObsSlot.freed_eq (x : ObsSlot) : x.freed = if x.state = .closed ∨ x.state = .kept then {} else x := by
  simp [ObsSlot.freed]

theorem exec_obsClear_allowed {n : Fin 64} {s : State} (allowed : s.allows n .ia = true) :
    exec (.obsClear n) s = .next (({ s with evr := { s.evr with
      slot := s.evr.slot.map fun (x : ObsSlot) => if x.state = ObsState.closed ∨ x.state = ObsState.kept then {} else x
      closedCount := 0 } }).ev 0xC052) := by
  simp only [← ObsSlot.freed_eq]
  exact congrArg Host.Outcome.next (State.regCmd_allowed allowed _)

theorem exec_obsClear_frees {n : Fin 64} (i : Fin 4) {s : State} (allowed : s.allows n .ia = true)
    (quiet : (s.bucketCfg 0xC052).2.2 = false) (full : (s.bucketCfg 0xC041).2.2 = false) :
    Gives (.obsClear n) s fun t =>
      (s.evr.slot[i.val].state = .closed ∨ s.evr.slot[i.val].state = .kept → t.evr.slot[i.val] = {}) ∧
      (s.evr.slot[i.val].state = .live ∨ s.evr.slot[i.val].state = .closing →
        t.evr.slot[i.val] = s.evr.slot[i.val]) ∧ t.evr.closedCount = 0 := by
  refine ⟨_, exec_obsClear_allowed allowed, ?_⟩
  generalize hv : ({ s.evr with
    slot := s.evr.slot.map fun (x : ObsSlot) => if x.state = ObsState.closed ∨ x.state = ObsState.kept then {} else x
    closedCount := 0 } : Evr) = v
  obtain ⟨slots, count⟩ := State.ev_sameStore (s := { s with evr := v }) (c := 0xC052) (by decide) (by decide) quiet full
    noInst 0
  rw [slots, count, ← hv]
  refine ⟨fun gone => ?_, fun stays => ?_, rfl⟩
  · simp [gone]
  · rcases stays with h | h <;> simp [h]

/-- Settles O46: frames, triggers and closings each by its equation; a trigger by register by the slots it leaves. -/
theorem obsidianStore : Obligations.ObsidianStore :=
  ⟨fun _ => exec_obsidianFrame_stores,
    fun _ f m => ⟨ObsSlot.addFrame_live f m, ObsSlot.addFrame_closing f m, ObsSlot.addFrame_other f m⟩,
    fun _ => exec_obsidianFrame_idle, fun _ _ => exec_triggerNow_allowed,
    fun code _ => ⟨fun off => State.obsTrigger_off off code, fun on => State.obsTrigger_on on code⟩,
    fun _ code time _ closing => ⟨Evr.trigger_marks code time closing, fun _ loss live => by
      subst loss
      exact Evr.trigger_lossCloses time closing live⟩,
    ObsSlot.mark_eq,
    fun _ _ _ _ allowed on none live next unmarked quiet => exec_triggerNow_closes none live next allowed on unmarked quiet,
    fun _ _ => Evr.oldestClosed_some,
    fun _ s allowed off => ⟨_, exec_triggerNow_off allowed off, (State.used_kept s (by decide) .rfl).only⟩,
    fun _ _ => exec_obsRecordClosed_closes, fun _ => exec_obsRecordClosed_idle, fun _ _ => exec_obsClear_allowed,
    fun _ i _ => exec_obsClear_frees i⟩

end Sys2Proof.Machine
end

section
/-! SUPPORT. DMA channels under an update, and the channels that resume as a descriptor ends (R463 to R465, R468). -/

namespace Sys2Proof.Machine

@[simp] theorem State.updDma_ch (s : State) (n m : Fin 32) (f : DmaCh → DmaCh) :
    (s.updDma n f).mem.ch[m.val] = if n = m then f s.mem.ch[m.val] else s.mem.ch[m.val] := by
  simp [State.updDma, Fin.val_inj]

theorem State.updDma_same (s : State) (n : Fin 32) (f : DmaCh → DmaCh) :
    (s.updDma n f).mem.ch[n.val] = f s.mem.ch[n.val] := by
  rw [State.updDma_ch, if_pos rfl]

theorem State.updDma_other {n m : Fin 32} (other : m ≠ n) (s : State) (f : DmaCh → DmaCh) :
    (s.updDma n f).mem.ch[m.val] = s.mem.ch[m.val] := by
  rw [State.updDma_ch, if_neg other.symm]

/-- An event beside a change of the memories: the recorder does not read them (R473). -/
theorem State.ev_withMem (s : State) (m : Mem) (c i d : Nat) :
    ({ s with mem := m } : State).ev c i d = { s with mem := m, evr := s.evs [(c, i, d)] } :=
  State.ev_of (s := s) (t := { s with mem := m }) ⟨rfl, rfl, rfl, rfl, rfl⟩ c i d

theorem State.only_memEvr (s : State) (m : Mem) (v : Evr) :
    State.only [.mem, .evr] s { s with mem := m, evr := v } := by
  intro b outside
  cases b with
  | mem | evr => exact absurd (by decide) outside
  | _ => rfl

/-- What leads from `s` to `t` keeps the memories but for channels, and of those all but the pre-empted ones, which may
run again (R468). -/
structure State.Resumes (s t : State) : Prop where
  mem : t.mem = { s.mem with ch := t.mem.ch }
  ch : ∀ m : Fin 32, s.mem.ch[m.val].state ≠ .preempted → t.mem.ch[m.val] = s.mem.ch[m.val]

theorem State.Resumes.refl (s : State) : s.Resumes s := ⟨rfl, fun _ _ => rfl⟩

theorem State.Resumes.trans {s t u : State} (h : s.Resumes t) (k : t.Resumes u) : s.Resumes u where
  mem := k.mem.trans (by rw [h.mem])
  ch m free := (k.ch m (by rwa [h.ch m free])).trans (h.ch m free)

theorem State.Resumes.foldl {α : Type} {f : State → α → State} (hf : ∀ s a, State.Resumes s (f s a)) (l : List α)
    (s : State) : s.Resumes (l.foldl f s) := by
  induction l generalizing s with
  | nil => exact .refl s
  | cons a l ih => exact (hf s a).trans (ih _)

theorem State.resumeTier_resumes (s : State) : s.Resumes s.resumeTier := by
  unfold State.resumeTier
  split
  · exact .refl s
  · refine State.Resumes.foldl (fun s i => ?_) _ s
    split
    · next preempted =>
      rw [State.undisplace]
      refine ⟨by rw [State.ev_mem]; rfl, fun m free => ?_⟩
      have other : m ≠ i := fun same => free (same ▸ preempted)
      rw [State.ev_mem, State.updDma_other other]
    · exact .refl s

/-- A channel whose shadow set is not armed rests as its descriptor ends. -/
theorem State.dmaChain_idle {s : State} {n : Fin 32} (idle : s.mem.ch[n.val].shadow.arm = false) : s.dmaChain n = s :=
  if_neg (by simp [idle])

/-- The channel as its descriptor ends in a state. -/
def DmaCh.ended (c : DmaCh) (st : DmaState) : DmaCh :=
  { c with state := st, faultPage := none, descriptors := wrapU 16 (c.descriptors + 1), irq := c.irq + 1 }

/-- Without an armed shadow set the channel keeps its end, and the other memories stay as they are. -/
theorem State.dmaEnd_rests {s : State} {n : Fin 32} {st : DmaState} (idle : s.mem.ch[n.val].shadow.arm = false)
    (ends : st ≠ .preempted) :
    (s.dmaEnd n st).mem.ch[n.val] = s.mem.ch[n.val].ended st ∧
    (s.dmaEnd n st).mem = { s.mem with ch := (s.dmaEnd n st).mem.ch } := by
  have own : (s.updDma n fun c => c.ended st).mem.ch[n.val] = s.mem.ch[n.val].ended st := s.updDma_same n _
  have rests : s.dmaEnd n st = (s.updDma n fun c => c.ended st).resumeTier :=
    congrArg State.resumeTier (State.dmaChain_idle ((congrArg (fun c : DmaCh => c.shadow.arm) own).trans idle))
  have resumes := (s.updDma n fun c => c.ended st).resumeTier_resumes
  rw [rests]
  refine ⟨(resumes.ch n (by rw [own]; exact ends)).trans own, resumes.mem.trans rfl⟩

/-! Bursts that complete before an end (R463, R465). -/

@[simp] theorem State.arbRun_zero (s : State) (n : Fin 32) (f : Nat) : s.arbRun n f 0 = s := by
  cases f with
  | zero => rfl
  | succ f => exact if_pos (by simp)

@[simp] theorem State.dmaRun_zero (s : State) (n : Fin 32) : s.dmaRun n 0 = s := by
  simp [State.dmaRun]

end Sys2Proof.Machine
end

section
/-! SUPPORT. The commands of a DMA channel, one real burst, and the arbiter (R461 to R465, R486). -/

namespace Sys2Proof.Machine

/-! START (R462 to R464). -/

/-- The channels with the descriptor of a START and the shadow set that comes with it. -/
def State.dmaTaken (s : State) (n : Fin 32) (d : DmaDesc) (sh : Option DmaDesc) : State :=
  s.updDma n fun c =>
    { c with act := dmaSetOf d n.val false
             shadow := (sh.map fun x => dmaSetOf x n.val true).getD { c.shadow with arm := false } }

theorem exec_dmaStart_takes {n : Fin 32} (d : DmaDesc) (sh : Option DmaDesc) (moved : List (Fin 32 × Nat)) {s : State}
    (free : s.mem.ch[n.val].busy = false) (lit : s.lit = true) :
    exec (.dmaStart n d sh moved) s = .next (
      let u := (if (d.crit && decide (n.val < 28)) = true then s.dmaMoved moved else s).dmaTaken n d sh
      if (u.dmaBegin n).mem.ch[n.val].state = .progError then (u.dmaBegin n).dmaChain n else u.dmaBegin n) := by
  have goes : ¬ (s.mem.ch[n.val].busy || !s.lit) = true := by simp [free, lit]
  cases sh <;> exact if_neg goes

theorem exec_dmaStart_idle {n : Fin 32} (d : DmaDesc) (sh : Option DmaDesc) (moved : List (Fin 32 × Nat)) {s : State}
    (idle : s.mem.ch[n.val].busy = true ∨ s.lit = false) : exec (.dmaStart n d sh moved) s = .next s :=
  if_pos (by rcases idle with h | h <;> simp [h])

theorem State.dmaTaken_same (s : State) (n : Fin 32) (d : DmaDesc) :
    (s.dmaTaken n d none).mem.ch[n.val] =
      { s.mem.ch[n.val] with act := dmaSetOf d n.val false, shadow := { s.mem.ch[n.val].shadow with arm := false } } := by
  rw [State.dmaTaken, State.updDma_same]
  rfl

theorem State.dmaTaken_other {n m : Fin 32} (other : m ≠ n) (s : State) (d : DmaDesc) (sh : Option DmaDesc) :
    (s.dmaTaken n d sh).mem.ch[m.val] = s.mem.ch[m.val] :=
  State.updDma_other other s _

section Start
variable {n : Fin 32} {d : DmaDesc} {s : State} (plain : d.crit = false) (moved : List (Fin 32 × Nat)) (lit : s.lit = true)
  (free : s.mem.ch[n.val].busy = false)
include plain lit free

/-- Without CRIT a START pre-empts nothing. -/
theorem exec_dmaStart_plain : exec (.dmaStart n d none moved) s = .next (
    if ((s.dmaTaken n d none).dmaBegin n).mem.ch[n.val].state = .progError then ((s.dmaTaken n d none).dmaBegin n).dmaChain n
    else (s.dmaTaken n d none).dmaBegin n) := by
  have none_ : (if (d.crit && decide (n.val < 28)) = true then s.dmaMoved moved else s) = s := if_neg (by simp [plain])
  have takes := exec_dmaStart_takes d none moved free lit
  rw [none_] at takes
  exact takes

/-- A descriptor of D00 to D27 without CRIT that passes runs from its first byte. -/
theorem exec_dmaStart_runs (low : n.val < 28) (ok : (dmaSetOf d n.val false).ok n.val = true) :
    Gives (.dmaStart n d none moved) s fun t =>
      t.mem.ch[n.val].state = .running ∧ t.mem.ch[n.val].act = dmaSetOf d n.val false ∧
      t.mem.ch[n.val].line = 0 ∧ t.mem.ch[n.val].pos = 0 ∧ State.only [.mem] s t ∧
      t.mem = { s.mem with ch := t.mem.ch } ∧ ∀ m : Fin 32, m ≠ n → t.mem.ch[m.val] = s.mem.ch[m.val] := by
  have begins : (s.dmaTaken n d none).dmaBegin n = (s.dmaTaken n d none).updDma n fun c =>
      { c with state := .running, line := 0, pos := 0, held := [], crcRun := 0xFFFFFFFF, faultPage := none
               displaced := false } := by
    unfold State.dmaBegin
    rw [State.dmaTaken_same, if_pos ok]
    dsimp only
    rw [if_pos low, State.updDma_same, State.dmaTaken_same, if_neg (by simp [dmaSetOf, plain])]
  have next := exec_dmaStart_plain plain moved lit free
  rw [begins, if_neg (by rw [State.updDma_same]; simp)] at next
  refine ⟨_, next, ?_⟩
  dsimp only
  rw [State.updDma_same, State.dmaTaken_same]
  refine ⟨rfl, rfl, rfl, rfl, ?_, rfl, fun m other => ?_⟩
  · exact (State.updDma_kept _ _ _ (by decide) (State.updDma_kept _ _ _ (by decide) .rfl)).only
  · rw [State.updDma_other other, State.dmaTaken_other other]

/-- One that fails ends at once, with its interrupt. -/
theorem exec_dmaStart_fails (bad : (dmaSetOf d n.val false).ok n.val = false) :
    Gives (.dmaStart n d none moved) s fun t =>
      t.mem.ch[n.val].state = .progError ∧ t.mem.ch[n.val].irq = s.mem.ch[n.val].irq + 1 ∧
      t.mem.ch[n.val].descriptors = wrapU 16 (s.mem.ch[n.val].descriptors + 1) ∧
      t.mem = { s.mem with progErrors := bump 32 s.mem.progErrors, ch := t.mem.ch } ∧
      (∀ m : Fin 32, m ≠ n → t.mem.ch[m.val] = s.mem.ch[m.val]) ∧ t.evr = s.evs [(0xC010, n.val, 0)] ∧
      State.only [.mem, .evr] s t := by
  obtain ⟨u, begins, own, mem, others⟩ : ∃ u : State, (s.dmaTaken n d none).dmaBegin n =
        ({ s with mem := u.mem } : State).ev 0xC010 n.val ∧
      u.mem.ch[n.val] = { s.mem.ch[n.val] with
        act := dmaSetOf d n.val false, shadow := { s.mem.ch[n.val].shadow with arm := false }, state := .progError
        displaced := false, descriptors := wrapU 16 (s.mem.ch[n.val].descriptors + 1), irq := s.mem.ch[n.val].irq + 1 } ∧
      u.mem = { s.mem with progErrors := bump 32 s.mem.progErrors, ch := u.mem.ch } ∧
      ∀ m : Fin 32, m ≠ n → u.mem.ch[m.val] = s.mem.ch[m.val] := by
    refine ⟨({ s.dmaTaken n d none with mem := { (s.dmaTaken n d none).mem with
        progErrors := bump 32 s.mem.progErrors } }).updDma n fun c =>
          { c with state := .progError, displaced := false, descriptors := wrapU 16 (c.descriptors + 1), irq := c.irq + 1 },
      ?_, ?_, rfl, fun m other => ?_⟩
    · unfold State.dmaBegin
      rw [State.dmaTaken_same, if_neg (by rw [bad]; simp)]
      rfl
    · rw [State.updDma_same, State.dmaTaken_same]
    · rw [State.updDma_other other]
      exact State.dmaTaken_other other s d none
  rw [State.ev_withMem] at begins
  have next := exec_dmaStart_plain plain moved lit free
  rw [begins, if_pos (by rw [own]), State.dmaChain_idle (by rw [own])] at next
  refine ⟨_, next, ?_⟩
  dsimp only
  rw [own]
  exact ⟨rfl, rfl, rfl, mem, others, rfl, s.only_memEvr _ _⟩

end Start

/-! DONE (R464). -/

/-- The transfer with its trailer and its CRC, before it ends. -/
def State.dmaComplete (s : State) (n : Fin 32) : State :=
  let c := s.mem.ch[n.val]
  let crc := c.crcRun ^^^ 0xFFFFFFFF
  let v := if c.act.crcWb = true then
      (s.spaceWrite (dmaSpace c.act.dst) c.act.trailerAt
        (leBytes 4 crc ++ leBytes 8 (c.act.lines * c.act.lineLen) ++ List.replicate 52 0)).usePages
        (tierPages (dmaSpace c.act.dst) c.act.trailerAt 64) true
    else s
  v.updDma n fun c => { c with crc := crc, crcValid := true, residue := 0, residueB := 0 }

theorem exec_dmaDone_ends {n : Fin 32} {s : State} (running : s.mem.ch[n.val].state = .running)
    (here : s.mem.ch[n.val].act.pages.all s.pageResident = true) :
    exec (.dmaDone n) s = .next (((s.dmaRun n s.mem.ch[n.val].act.bursts).dmaComplete n).dmaEnd n .done) :=
  if_pos (by simp only [running, here, decide_true, Bool.and_self])

theorem exec_dmaDone_idle {n : Fin 32} {s : State}
    (idle : s.mem.ch[n.val].state ≠ .running ∨ s.mem.ch[n.val].act.pages.all s.pageResident = false) :
    exec (.dmaDone n) s = .next s := by
  refine if_neg ?_
  rcases idle with rests | absent
  · simp [rests]
  · simp only [absent, Bool.and_false, Bool.false_eq_true, not_false_eq_true]

/-! The arbiter (R463). -/

/-- The channels of a class that ask for a grant, by number. -/
def State.askers (s : State) (k : Fin 3) : List (Fin 32) :=
  (List.finRange 32).filter fun n => s.asks n && s.dmaClass n = k

theorem State.mem_askers {s : State} {k : Fin 3} {n : Fin 32} :
    n ∈ s.askers k ↔ s.asks n = true ∧ s.dmaClass n = k := by
  simp [State.askers]

theorem State.askers_sorted (s : State) (k : Fin 3) : (s.askers k).Pairwise (· < ·) :=
  (List.pairwise_lt_finRange 32).filter _

theorem State.grantIn_eq (s : State) (k : Fin 3) : s.grantIn k =
    ((s.askers k).find? fun n => s.mem.lastGrant[k.val] < n.val).orElse fun _ => (s.askers k).head? := rfl

/-- In a sorted list the element found is the least that passes. -/
theorem find?_least {l : List (Fin 32)} (sorted : l.Pairwise (· < ·)) {p : Fin 32 → Bool} {m j : Fin 32}
    (found : l.find? p = some m) (mem : j ∈ l) (passes : p j = true) : m ≤ j := by
  obtain ⟨-, before, after, rfl, fails⟩ := List.find?_eq_some_iff_append.1 found
  rcases List.mem_append.1 mem with early | late
  · exact absurd passes (by simpa using fails j early)
  · rcases List.mem_cons.1 late with rfl | later
    · exact le_refl _
    · exact le_of_lt ((List.pairwise_cons.1 (List.pairwise_append.1 sorted).2.1).1 j later)

theorem head?_least {l : List (Fin 32)} (sorted : l.Pairwise (· < ·)) {m j : Fin 32} (head : l.head? = some m)
    (mem : j ∈ l) : m ≤ j := by
  obtain ⟨rest, rfl⟩ := List.head?_eq_some_iff.1 head
  rcases List.mem_cons.1 mem with rfl | later
  · exact le_refl _
  · exact le_of_lt ((List.pairwise_cons.1 sorted).1 j later)

/-- Within a class the channel after the last one granted comes next, and after the highest the lowest again. -/
theorem State.grantIn_some {k : Fin 3} {m : Fin 32} {s : State} (granted : s.grantIn k = some m) :
    s.asks m = true ∧ s.dmaClass m = k ∧ ∀ j : Fin 32, s.asks j = true → s.dmaClass j = k →
      if s.mem.lastGrant[k.val] < m.val then (s.mem.lastGrant[k.val] < j.val → m.val ≤ j.val)
      else j.val ≤ s.mem.lastGrant[k.val] ∧ m.val ≤ j.val := by
  rw [State.grantIn_eq] at granted
  cases found : (s.askers k).find? fun n => s.mem.lastGrant[k.val] < n.val with
  | some c =>
    rw [found] at granted
    obtain rfl : c = m := Option.some.inj granted
    have after : s.mem.lastGrant[k.val] < c.val := by simpa using List.find?_some found
    obtain ⟨asks, cls⟩ := State.mem_askers.1 (List.mem_of_find?_eq_some found)
    refine ⟨asks, cls, fun j asksJ clsJ => ?_⟩
    rw [if_pos after]
    exact fun afterJ => find?_least (s.askers_sorted k) found (State.mem_askers.2 ⟨asksJ, clsJ⟩) (by simpa using afterJ)
  | none =>
    rw [found] at granted
    have before (j : Fin 32) (mem : j ∈ s.askers k) : j.val ≤ s.mem.lastGrant[k.val] := by
      simpa using List.find?_eq_none.1 found j mem
    have mem : m ∈ s.askers k := List.mem_of_mem_head? granted
    obtain ⟨asks, cls⟩ := State.mem_askers.1 mem
    refine ⟨asks, cls, fun j asksJ clsJ => ?_⟩
    have memJ := State.mem_askers.2 ⟨asksJ, clsJ⟩
    rw [if_neg (Nat.not_lt.2 (before m mem))]
    exact ⟨before j memJ, head?_least (s.askers_sorted k) granted memJ⟩

theorem State.grantIn_none {k : Fin 3} {s : State} :
    s.grantIn k = none ↔ ∀ j : Fin 32, s.dmaClass j = k → s.asks j = false := by
  have empty_iff : s.grantIn k = none ↔ s.askers k = [] := by
    rw [State.grantIn_eq]
    cases s.askers k with
    | nil => simp
    | cons m l =>
      rw [Option.orElse.eq_def]
      split <;> simp
  rw [empty_iff, List.eq_nil_iff_forall_not_mem]
  simp only [State.mem_askers, not_and]
  exact ⟨fun none_ j cls => Bool.eq_false_iff.2 fun asks => none_ j asks cls,
    fun none_ j asks cls => Bool.false_ne_true ((none_ j cls).symm.trans asks)⟩

theorem State.grant_class0 {s : State} (some_ : (s.grantIn 0).isSome = true) : s.grant = s.grantIn 0 := by
  obtain ⟨m, h⟩ := Option.isSome_iff_exists.1 some_
  rw [State.grant, h]
  rfl

theorem State.grant_class1 {s : State} (none0 : s.grantIn 0 = none) (some_ : (s.grantIn 1).isSome = true) :
    s.grant = s.grantIn 1 := by
  obtain ⟨m, h⟩ := Option.isSome_iff_exists.1 some_
  rw [State.grant, none0, h]
  rfl

theorem State.grant_class2 {s : State} (none0 : s.grantIn 0 = none) (none1 : s.grantIn 1 = none) :
    s.grant = s.grantIn 2 := by
  rw [State.grant, none0, none1]
  rfl

/-! One burst from SRAM to SRAM (R463, R464). -/

/-- An address below 2^29 lies in SRAM. -/
theorem sramAddress {a : Nat} (low : a ≤ 2 ^ 29) : dmaSpace a = 0 ∧ dmaAddr a = a := by
  unfold dmaSpace dmaAddr fld
  omega

/-- Bytes outside tier space lie on no tier page. -/
theorem tierPages_sram (a k : Nat) : tierPages 0 a k = [] := rfl

section Burst
variable {n : Fin 32} {a b k : Nat} {s : State}

/-- A channel at the start of one line of at most 4 KiB from SRAM to SRAM. -/
structure State.OneBurst (s : State) (n : Fin 32) (a b k : Nat) : Prop where
  running : s.mem.ch[n.val].state = .running
  src : s.mem.ch[n.val].act.src = a
  dst : s.mem.ch[n.val].act.dst = b
  len : s.mem.ch[n.val].act.lineLen = k
  lines : s.mem.ch[n.val].act.lines = 1
  least : 64 ≤ k
  most : k ≤ 4096
  srcIn : a + k ≤ 2 ^ 29
  dstIn : b + k ≤ 2 ^ 29
  line : s.mem.ch[n.val].line = 0
  pos : s.mem.ch[n.val].pos = 0
  held : s.mem.ch[n.val].held = []
  plain : s.mem.ch[n.val].act.crcWb = false
  alone : ∀ m : Fin 32, m ≠ n → s.mem.ch[m.val].state ≠ .running

variable (one : s.OneBurst n a b k)
include one

theorem State.OneBurst.spaces : dmaSpace s.mem.ch[n.val].act.src = 0 ∧ dmaAddr s.mem.ch[n.val].act.src = a ∧
    dmaSpace s.mem.ch[n.val].act.dst = 0 ∧ dmaAddr s.mem.ch[n.val].act.dst = b := by
  have srcIn := one.srcIn
  have dstIn := one.dstIn
  rw [one.src, one.dst]
  obtain ⟨srcSpace, srcAddr⟩ := sramAddress (a := a) (by omega)
  obtain ⟨dstSpace, dstAddr⟩ := sramAddress (a := b) (by omega)
  exact ⟨srcSpace, srcAddr, dstSpace, dstAddr⟩

theorem State.OneBurst.pages : s.mem.ch[n.val].act.pages = [] := by
  obtain ⟨srcSpace, -, dstSpace, -⟩ := one.spaces
  simp [DmaSet.pages, srcSpace, dstSpace, tierPages_sram, one.plain]

theorem State.OneBurst.next : s.mem.ch[n.val].next = (a, b, k) := by
  obtain ⟨-, srcAddr, -, dstAddr⟩ := one.spaces
  have most := one.most
  simp [DmaCh.next, srcAddr, dstAddr, one.line, one.pos, one.len, most]

theorem State.OneBurst.nextPages : s.mem.ch[n.val].nextPages = [] := by
  obtain ⟨srcSpace, -, dstSpace, -⟩ := one.spaces
  simp [DmaCh.nextPages, srcSpace, dstSpace, tierPages_sram]

theorem State.OneBurst.asks : s.asks n = true := by
  simp [State.asks, one.running, one.line, one.lines, one.nextPages]

/-- The one channel that asks is granted. -/
theorem State.OneBurst.grant : s.grant = some n := by
  have only (k : Fin 3) : s.grantIn k = none ∨ s.grantIn k = some n := by
    cases granted : s.grantIn k with
    | none => exact .inl rfl
    | some m =>
      have runs : s.mem.ch[m.val].state = .running := by
        have asks := (State.grantIn_some granted).1
        simp only [State.asks, Bool.and_eq_true, decide_eq_true_eq] at asks
        exact asks.1.1
      exact .inr (congrArg some (by_contra fun other => one.alone m other runs))
  have own : s.grantIn (s.dmaClass n) = some n :=
    (only _).resolve_left fun none_ => Bool.false_ne_true ((State.grantIn_none.1 none_ n rfl).symm.trans one.asks)
  rcases only 0 with none0 | some0
  · rcases only 1 with none1 | some1
    · rw [State.grant_class2 none0 none1]
      generalize s.dmaClass n = k at own
      match k, own with
      | 0, own => exact absurd (none0.symm.trans own) (by simp)
      | 1, own => exact absurd (none1.symm.trans own) (by simp)
      | 2, own => exact own
    · rw [State.grant_class1 none0 (by rw [some1]; rfl), some1]
  · rw [State.grant_class0 (by rw [some0]; rfl), some0]

theorem State.OneBurst.bursts : s.mem.ch[n.val].act.bursts = 1 := by
  have least := one.least
  have most := one.most
  rw [DmaSet.bursts, one.lines, one.len, ceilDiv, if_neg (by decide)]
  omega

theorem State.OneBurst.load : ∃ f, s.dmaLoad = f + 1 := by
  have mem : s.mem.ch[n.val].act.bursts ∈
      s.mem.ch.toList.map fun c => if c.state = .running then c.act.bursts else 0 :=
    List.mem_map.2 ⟨s.mem.ch[n.val], by simp, if_pos one.running⟩
  have least := List.le_sum_of_mem mem
  rw [one.bursts] at least
  exact ⟨s.dmaLoad - 1, by rw [State.dmaLoad]; omega⟩

/-- The state with the grant of the burst noted. -/
def State.granted (s : State) (n : Fin 32) : State :=
  { s with mem := { s.mem with lastGrant := updV s.mem.lastGrant (s.dmaClass n) fun _ => n.val } }

/-- A run of such a channel is its one burst. -/
theorem State.OneBurst.run : s.dmaRun n s.mem.ch[n.val].act.bursts = (s.granted n).dmaBurst n := by
  obtain ⟨f, load⟩ := one.load
  rw [State.dmaRun, load, one.bursts]
  unfold State.arbRun
  rw [if_neg (by simp [one.asks]), one.grant]
  dsimp only
  rw [if_pos rfl]
  exact State.arbRun_zero _ n f

end Burst

/-- A burst from SRAM to SRAM that ends its line, with nothing held: it writes what it reads. -/
theorem State.dmaMove_sram {s : State} {n : Fin 32} (a b : Nat) {k : Nat} (held : s.mem.ch[n.val].held = [])
    (fits : b + k ≤ 2 ^ 29) : s.dmaMove n 0 a 0 b k =
      ({ s with mem := { s.mem with sram := s.mem.sram.writeN b (s.mem.sram.readN a k) } }).updDma n fun c =>
        let c := { c with crcRun := (s.mem.sram.readN a k).foldl (crcByteR 0x82F63B78) c.crcRun, held := [] }
        if c.pos + k < c.act.lineLen then { c with pos := c.pos + k } else { c with line := c.line + 1, pos := 0 } := by
  have bytes : s.mem.ch[n.val].held ++ s.spaceRead 0 (a + s.mem.ch[n.val].held.length) (k - s.mem.ch[n.val].held.length) =
      s.mem.sram.readN a k := by
    rw [held]
    rfl
  have whole : (s.mem.sram.readN a k).take (spaceSize 0 - b) = s.mem.sram.readN a k :=
    List.take_of_length_le (by simp only [Memory.readN, List.length_map, List.length_range, spaceSize]; omega)
  have writes : s.spaceWrite 0 b (s.mem.sram.readN a k) =
      { s with mem := { s.mem with sram := s.mem.sram.writeN b (s.mem.sram.readN a k) } } := by
    simp only [State.spaceWrite, whole]
  unfold State.dmaMove
  simp only [bytes, writes]
  rfl

section Burst
variable {n : Fin 32} {a b k : Nat} {s : State} (one : s.OneBurst n a b k)
include one

/-- The burst copies its bytes, takes them into the CRC, and ends its line. -/
theorem State.OneBurst.moves : (s.dmaRun n s.mem.ch[n.val].act.bursts).mem = { (s.granted n).mem with
    sram := s.mem.sram.writeN b (s.mem.sram.readN a k)
    ch := updV s.mem.ch n fun c =>
      { c with crcRun := (s.mem.sram.readN a k).foldl (crcByteR 0x82F63B78) c.crcRun, held := []
               line := c.line + 1, pos := 0 } } := by
  obtain ⟨srcSpace, -, dstSpace, -⟩ := one.spaces
  have whole : ¬ s.mem.ch[n.val].pos + k < s.mem.ch[n.val].act.lineLen := by rw [one.pos, one.len]; omega
  have burst : (s.granted n).dmaBurst n = (s.granted n).dmaMove n (dmaSpace s.mem.ch[n.val].act.src) s.mem.ch[n.val].next.1
      (dmaSpace s.mem.ch[n.val].act.dst) s.mem.ch[n.val].next.2.1 s.mem.ch[n.val].next.2.2 := by
    refine if_pos ?_
    change (decide (s.mem.ch[n.val].line < s.mem.ch[n.val].act.lines) &&
      s.mem.ch[n.val].nextPages.all (s.granted n).pageResident) = true
    simp [one.line, one.lines, one.nextPages]
  rw [one.run, burst, one.next, srcSpace, dstSpace, State.dmaMove_sram (s := s.granted n) a b one.held one.dstIn]
  refine congrArg (fun v => { (s.granted n).mem with sram := s.mem.sram.writeN b (s.mem.sram.readN a k), ch := v }) ?_
  exact updV_congr (if_neg whole)

/-- The transfer completes: its bytes stand at the destination, and the channel holds their CRC-32C. -/
theorem State.OneBurst.completes (rests : s.mem.ch[n.val].shadow.arm = false)
    (fresh : s.mem.ch[n.val].crcRun = 0xFFFFFFFF) :
    Gives (.dmaDone n) s fun t =>
      t.mem.sram = s.mem.sram.writeN b (s.mem.sram.readN a k) ∧ t.mem.hbm = s.mem.hbm ∧ t.mem.tier = s.mem.tier ∧
      t.mem.ch[n.val].crc = crc32c (s.mem.sram.readN a k) ∧ t.mem.ch[n.val].crcValid = true ∧
      t.mem.ch[n.val].state = .done ∧ t.mem.ch[n.val].residue = 0 ∧ t.mem.ch[n.val].residueB = 0 ∧
      t.mem.ch[n.val].irq = s.mem.ch[n.val].irq + 1 := by
  refine ⟨_, exec_dmaDone_ends one.running (by rw [one.pages]; rfl), ?_⟩
  have moved := one.moves
  generalize s.dmaRun n s.mem.ch[n.val].act.bursts = u at moved
  have ch : u.mem.ch[n.val] = { s.mem.ch[n.val] with
      crcRun := (s.mem.sram.readN a k).foldl (crcByteR 0x82F63B78) 0xFFFFFFFF, held := []
      line := s.mem.ch[n.val].line + 1, pos := 0 } := by
    rw [moved, updV_get, if_pos rfl, fresh]
  have completes : u.dmaComplete n = u.updDma n fun c =>
      { c with crc := crc32c (s.mem.sram.readN a k), crcValid := true, residue := 0, residueB := 0 } := by
    unfold State.dmaComplete
    dsimp only
    rw [ch, if_neg (by rw [one.plain]; decide)]
    rfl
  have own : (u.dmaComplete n).mem.ch[n.val] = { u.mem.ch[n.val] with
      crc := crc32c (s.mem.sram.readN a k), crcValid := true, residue := 0, residueB := 0 } := by
    rw [completes, State.updDma_same]
  obtain ⟨ended, mem⟩ := State.dmaEnd_rests (s := u.dmaComplete n) (n := n) (st := .done) (by rw [own, ch]; exact rests)
    (by decide)
  dsimp only
  rw [ended, own, mem, completes, ch]
  have sram : u.mem.sram = s.mem.sram.writeN b (s.mem.sram.readN a k) := by rw [moved]
  have hbm : u.mem.hbm = s.mem.hbm := by rw [moved]; rfl
  have tier : u.mem.tier = s.mem.tier := by rw [moved]; rfl
  exact ⟨sram, hbm, tier, rfl, rfl, rfl, rfl, rfl, rfl⟩

end Burst

/-! Bus errors and aborts (R465). -/

theorem exec_dmaBusError_ends {n : Fin 32} (k : Nat) {s : State} (running : s.mem.ch[n.val].state = .running) :
    exec (.dmaBusError n k) s = .next ((s.dmaRun n k).dmaBad n) :=
  if_pos running

theorem exec_dmaBusError_idle {n : Fin 32} (k : Nat) {s : State} (idle : s.mem.ch[n.val].state ≠ .running) :
    exec (.dmaBusError n k) s = .next s :=
  if_neg idle

theorem exec_dmaAbort_ends {n : Fin 32} (k : Nat) {s : State} (busy : s.mem.ch[n.val].busy = true) :
    exec (.dmaAbort n k) s = .next (
      let u := if s.mem.ch[n.val].state = .running then s.dmaRun n k else s
      ((u.updDma n fun c => { c.withResidue with held := [] }).ev 0xC012 n.val).dmaEnd n .aborted) :=
  if_pos busy

theorem exec_dmaAbort_idle {n : Fin 32} (k : Nat) {s : State} (idle : s.mem.ch[n.val].busy = false) :
    exec (.dmaAbort n k) s = .next s :=
  if_neg (by rw [idle]; decide)

/-- A channel without an armed shadow set ends BAD, and the memories stay as they are. -/
theorem State.dmaBad_rests {s : State} {n : Fin 32} (rests : s.mem.ch[n.val].shadow.arm = false) :
    (s.dmaBad n).mem.ch[n.val] = s.mem.ch[n.val].withResidue.ended .bad ∧
    (s.dmaBad n).mem = { s.mem with busErrors := bump 32 s.mem.busErrors, ch := (s.dmaBad n).mem.ch } := by
  have own : (((({ s with mem := { s.mem with busErrors := bump 32 s.mem.busErrors } }).updDma n
      DmaCh.withResidue).ev 0xC011 n.val)).mem.ch[n.val] = s.mem.ch[n.val].withResidue := by
    rw [State.ev_mem, State.updDma_same]
  obtain ⟨ended, mem⟩ := State.dmaEnd_rests (st := .bad) ((congrArg (fun c : DmaCh => c.shadow.arm) own).trans rests) (by decide)
  refine ⟨ended.trans (congrArg (fun c : DmaCh => c.ended .bad) own), mem.trans ?_⟩
  rw [State.ev_mem]
  rfl

theorem exec_dmaBusError_first {n : Fin 32} {s : State} (running : s.mem.ch[n.val].state = .running)
    (rests : s.mem.ch[n.val].shadow.arm = false) (inside : s.mem.ch[n.val].line < s.mem.ch[n.val].act.lines) :
    Gives (.dmaBusError n 0) s fun t =>
      t.mem.ch[n.val].state = .bad ∧ t.mem.ch[n.val].residue = s.mem.ch[n.val].act.lines - s.mem.ch[n.val].line ∧
      t.mem.ch[n.val].residueB = s.mem.ch[n.val].act.lineLen - s.mem.ch[n.val].pos ∧
      t.mem.ch[n.val].irq = s.mem.ch[n.val].irq + 1 ∧ t.mem.busErrors = bump 32 s.mem.busErrors ∧
      t.mem.sram = s.mem.sram ∧ t.mem.hbm = s.mem.hbm ∧ t.mem.tier = s.mem.tier := by
  refine ⟨_, exec_dmaBusError_ends 0 running, ?_⟩
  rw [State.dmaRun_zero]
  obtain ⟨ended, mem⟩ := State.dmaBad_rests rests
  rw [ended, mem]
  exact ⟨rfl, rfl, if_pos inside, rfl, rfl, rfl, rfl, rfl⟩

theorem exec_dmaAbort_first {n : Fin 32} {k : Nat} {s : State} (busy : s.mem.ch[n.val].busy = true)
    (rests : s.mem.ch[n.val].shadow.arm = false) (still : s.mem.ch[n.val].state ≠ .running ∨ k = 0) :
    Gives (.dmaAbort n k) s fun t =>
      t.mem.ch[n.val].state = .aborted ∧ t.mem.ch[n.val].residue = s.mem.ch[n.val].act.lines - s.mem.ch[n.val].line ∧
      t.mem.ch[n.val].irq = s.mem.ch[n.val].irq + 1 ∧ t.mem.ch[n.val].held = [] ∧
      t.mem.sram = s.mem.sram ∧ t.mem.hbm = s.mem.hbm ∧ t.mem.tier = s.mem.tier ∧ t.mem.migrating = s.mem.migrating := by
  have moves : (if s.mem.ch[n.val].state = .running then s.dmaRun n k else s) = s := by
    rcases still with waits | rfl
    · exact if_neg waits
    · rw [State.dmaRun_zero, ite_self]
  have ends := exec_dmaAbort_ends k busy
  rw [moves] at ends
  refine ⟨_, ends, ?_⟩
  have own : ((s.updDma n fun c => { c.withResidue with held := [] }).ev 0xC012 n.val).mem.ch[n.val] =
      { s.mem.ch[n.val].withResidue with held := [] } := by
    rw [State.ev_mem, State.updDma_same]
  obtain ⟨ended, mem⟩ := State.dmaEnd_rests (st := .aborted) ((congrArg (fun c : DmaCh => c.shadow.arm) own).trans rests)
    (by decide)
  dsimp only
  rw [ended, own, mem, State.ev_mem]
  exact ⟨rfl, rfl, rfl, rfl, rfl, rfl, rfl, rfl⟩

/-! The registers of a shadow set (R486). -/

theorem State.readDmaSet_shadow (s : State) (n : Fin 32) (r : Nat) (status : r ∈ [0x24, 0x28, 0x2C, 0x30]) :
    s.readDmaSet n true r = some 0 := by
  simp only [List.mem_cons, List.not_mem_nil, or_false] at status
  rcases status with rfl | rfl | rfl | rfl <;> rfl

/-- Settles O42: a START, an end and the arbiter each by its lemmas, and a real transfer by its one burst. -/
theorem dmaTransfers : Obligations.DmaTransfers :=
  ⟨fun _ d sh moved _ => exec_dmaStart_takes d sh moved, fun _ d sh moved _ => exec_dmaStart_idle d sh moved,
    fun _ _ moved _ lit free ok low plain => exec_dmaStart_runs plain moved lit free low ok,
    fun _ _ moved _ lit free bad _ plain => exec_dmaStart_fails plain moved lit free bad,
    fun _ _ => exec_dmaDone_ends, fun _ _ => exec_dmaDone_idle,
    fun _ _ _ _ _ running src dst len lines least most srcIn dstIn line pos held plain rests fresh alone =>
      State.OneBurst.completes ⟨running, src, dst, len, lines, least, most, srcIn, dstIn, line, pos, held, plain, alone⟩
        rests fresh,
    fun _ k _ => exec_dmaBusError_ends k, fun _ k _ => exec_dmaBusError_idle k, fun _ _ => exec_dmaBusError_first,
    fun _ k _ => exec_dmaAbort_ends k, fun _ k _ => exec_dmaAbort_idle k, fun _ _ _ => exec_dmaAbort_first,
    fun _ _ _ => State.grantIn_some,
    fun _ => ⟨State.grant_class0, State.grant_class1, State.grant_class2, fun _ => State.grantIn_none⟩,
    fun n s => ⟨s.readDmaSet_shadow n, rfl⟩⟩

end Sys2Proof.Machine
end

section
/-! SUPPORT. Tier pages: a memory with a range of another one, the frame a page comes into, and the channels that wait for a page
(R466 to R468, R230). -/

namespace Sys2Proof.Machine

/-! A memory with a range of another one. -/

/-- A memory whose list starts at an address or beyond holds no byte before it. -/
theorem Memory.le_of_mem {m : Memory} {lo : Nat} (wf : m.wfFrom lo = true) {a : Nat} {v : Byte} (mem : (a, v) ∈ m) :
    lo ≤ a := by
  induction m generalizing lo with
  | nil => exact absurd mem List.not_mem_nil
  | cons c m ih =>
    obtain ⟨k, w⟩ := c
    simp only [Memory.wfFrom, Bool.and_eq_true, decide_eq_true_eq] at wf
    rcases List.mem_cons.1 mem with here | later
    · obtain ⟨rfl, rfl⟩ := Prod.mk.inj here
      exact wf.1.1
    · have := ih wf.2 later
      omega

/-- In canonical form a byte reads what is listed for it. -/
theorem Memory.read_of_mem {m : Memory} {lo : Nat} (wf : m.wfFrom lo = true) {a : Nat} {v : Byte} (mem : (a, v) ∈ m) :
    m.read a = v := by
  induction m generalizing lo with
  | nil => exact absurd mem List.not_mem_nil
  | cons c m ih =>
    obtain ⟨k, w⟩ := c
    simp only [Memory.wfFrom, Bool.and_eq_true, decide_eq_true_eq] at wf
    rcases List.mem_cons.1 mem with here | later
    · obtain ⟨rfl, rfl⟩ := Prod.mk.inj here
      exact if_pos rfl
    · have after := Memory.le_of_mem wf.2 later
      rw [Memory.read, if_neg (by omega), if_neg (by omega)]
      exact ih wf.2 later

/-- A byte that is not listed reads 0. -/
theorem Memory.read_of_notMem {m : Memory} {a : Nat} (absent : ∀ v, (a, v) ∉ m) : m.read a = 0 := by
  induction m with
  | nil => rfl
  | cons c m ih =>
    obtain ⟨k, w⟩ := c
    have other : k ≠ a := fun same => absent w (by rw [same]; exact List.mem_cons_self)
    rw [Memory.read, if_neg other]
    split
    · rfl
    · exact ih fun v mem => absent v (List.mem_cons_of_mem _ mem)

/-- Where two memories list the same for an address, they read the same there. -/
theorem Memory.read_congr {m r : Memory} (hm : m.wf = true) (hr : r.wf = true) {a : Nat}
    (same : ∀ v, (a, v) ∈ m ↔ (a, v) ∈ r) : m.read a = r.read a := by
  by_cases listed : ∃ v, (a, v) ∈ m
  · obtain ⟨v, mem⟩ := listed
    rw [Memory.read_of_mem hm mem, Memory.read_of_mem hr ((same v).1 mem)]
  · rw [not_exists] at listed
    rw [Memory.read_of_notMem listed, Memory.read_of_notMem fun v mem => listed v ((same v).2 mem)]

/-- Within the range the other memory reads, outside it the memory itself. -/
theorem Memory.read_withRange {m src : Memory} {lo hi : Nat} (hm : m.wf = true) (hs : src.wf = true)
    (a : Nat) : (m.withRange src lo hi).read a = if lo ≤ a ∧ a < hi then src.read a else m.read a := by
  have wf := m.wf_withRange src lo hi hm hs
  split
  · next inside =>
    refine Memory.read_congr wf hs fun v => ?_
    simp only [Memory.withRange, List.mem_append, List.mem_filter, Bool.and_eq_true, decide_eq_true_eq]
    grind
  · next outside =>
    refine Memory.read_congr wf hm fun v => ?_
    simp only [Memory.withRange, List.mem_append, List.mem_filter, Bool.and_eq_true, decide_eq_true_eq]
    grind

/-- The bytes of a page. -/
theorem inPage_iff (page a : Nat) : page * pageSize ≤ a ∧ a < (page + 1) * pageSize ↔ a / 2097152 = page := by
  unfold pageSize
  omega

theorem State.bringPage_read {s : State} (inv : s.Inv) (page a : Nat) :
    (s.bringPage page).mem.tier.read a = if a / 2097152 = page then s.mem.backing.read a else s.mem.tier.read a := by
  rw [← if_congr (inPage_iff page a) rfl rfl]
  exact Memory.read_withRange (s.mem.ok_tier inv) (s.mem.ok_backing inv) a

theorem State.evictPage_read {s : State} (inv : s.Inv) (x : Nat × Bool) (a : Nat) :
    (s.evictPage x).mem.backing.read a =
      if x.2 = true ∧ a / 2097152 = x.1 then s.mem.tier.read a else s.mem.backing.read a := by
  cases dirty : x.2 with
  | false => simp [State.evictPage, dirty]
  | true =>
    have written : (s.evictPage x).mem.backing =
        s.mem.backing.withRange s.mem.tier (x.1 * pageSize) ((x.1 + 1) * pageSize) := if_pos dirty
    rw [written, Memory.read_withRange (s.mem.ok_backing inv) (s.mem.ok_tier inv)]
    simp only [inPage_iff, true_and]

/-! The frame a page comes into (R467, R468). -/

theorem State.admitPage_free {s : State} (free : s.mem.resident.length < 16384) (page : Nat) :
    s.admitPage page = some (s.bringPage page) :=
  if_pos free

theorem State.admitPage_none {s : State} (full : 16384 ≤ s.mem.resident.length) (page : Nat) :
    s.admitPage page = none ↔ ∀ x ∈ s.mem.resident, s.evictable x = false := by
  have victim : s.admitPage page = (s.mem.resident.find? s.evictable).map fun v => (s.evictPage v).bringPage page :=
    if_neg (Nat.not_lt.2 full)
  rw [victim, Option.map_eq_none_iff, List.find?_eq_none]
  simp

/-- A page may go where staging does not pin it and no descriptor has it open. -/
theorem State.evictable_iff (s : State) (x : Nat × Bool) : s.evictable x = true ↔
    ((stagingPages s.stagingLen).contains x.1 = false ∧
      ∀ i : Fin 32, s.mem.ch[i.val].busy = true → s.mem.ch[i.val].act.pages.contains x.1 = false) := by
  simp [State.evictable]

theorem State.SameEv.withMem {s t : State} (h : s.SameEv t) (m : Mem) : s.SameEv { t with mem := m } :=
  h.trans ⟨rfl, rfl, rfl, rfl, rfl⟩

/-! A fault on an absent page (R467, R230). -/

/-- A migration in progress is asked for once. -/
theorem State.tierFault_eq (s : State) (inst page : Nat) : s.tierFault inst page = { s with
    mem := { s.mem with
      tierFaults := bump 32 s.mem.tierFaults
      migrating := if s.mem.migrating.contains page then s.mem.migrating else s.mem.migrating ++ [page] }
    evr := s.evs [(0xC020, inst, 0)] } :=
  s.ev_withMem _ _ _ _

theorem State.copyFault_eq (s : State) (i : Fin 10) (page : Nat) : s.copyFault i page = { s with
    fce := { s.fce with
      copyFaults := bump 32 s.fce.copyFaults
      inst := updV s.fce.inst i fun x => { x with copyWait := page :: x.copyWait } }
    evr := s.evs [(0x6040, i.val, 0)] } :=
  s.ev_withFce _ _ _ _

theorem exec_tierFault_idle (u : TierUnit) (k b : Nat) {page : Nat} {s : State}
    (idle : s.pageResident page = true ∨ 65536 ≤ page) : exec (.tierFault u k b page) s = .next s :=
  if_pos (by rcases idle with h | h <;> simp [h])

/-- Beats that are none are held as none. -/
theorem State.holdBeats_zero (s : State) (n : Fin 32) : s.holdBeats n 0 = s := by
  have none_ (sp a : Nat) : s.spaceRead sp a 0 = [] := by
    unfold State.spaceRead
    split <;> rfl
  have same : updV s.mem.ch n (fun c => { c with
      held := c.held ++
        s.spaceRead (dmaSpace c.act.src) (c.next.1 + c.held.length)
          (min (64 * 0) s.mem.ch[n.val].next.2.2 - c.held.length) }) =
      s.mem.ch := by
    refine Vector.ext fun j h => ?_
    rw [updV_get]
    split
    · simp [none_]
    · rfl
  unfold State.holdBeats
  rw [State.updDma]
  exact congrArg (fun v => ({ s with mem := { s.mem with ch := v } } : State)) same

section Fault
variable {page : Nat} {s : State} (inside : page < 65536) (absent : s.pageResident page = false)
include inside absent

theorem notIdle_of_absent : ¬ (s.pageResident page || decide (65536 ≤ page)) = true := by
  simp [absent, inside]

theorem exec_tierFault_load (i : Fin 10) (k b : Nat) :
    exec (.tierFault (.load i) k b page) s = .next ((s.copyFault i page).tierFault noInst page) :=
  if_neg (notIdle_of_absent inside absent)

theorem exec_tierFault_load_does (i : Fin 10) (k b : Nat) :
    Gives (.tierFault (.load i) k b page) s fun t =>
      (t.fce.inst[i.val]).copyWait = page :: (s.fce.inst[i.val]).copyWait ∧
      t.fce.copyFaults = bump 32 s.fce.copyFaults ∧ t.mem.migrating.contains page = true ∧
      t.mem.ch = s.mem.ch ∧ t.evr = s.evs [(0x6040, i.val, 0), (0xC020, noInst, 0)] := by
  refine ⟨_, exec_tierFault_load inside absent i k b, ?_⟩
  have fault := State.tierFault_eq (s.copyFault i page) noInst page
  have same : (s.ev 0x6040 i.val 0).SameEv (s.copyFault i page) := ((State.SameEv.refl s).withFce _).ev 0x6040 i.val 0
  have events : (s.copyFault i page).evs [(0xC020, noInst, 0)] = s.evs [(0x6040, i.val, 0), (0xC020, noInst, 0)] :=
    (same.evs_eq [(0xC020, noInst, 0)]).symm.trans (State.evs_cons s (0x6040, i.val, 0) _).symm
  rw [events] at fault
  rw [fault, State.copyFault_eq]
  refine ⟨?_, rfl, ?_, rfl, rfl⟩
  · simp
  · dsimp only
    split
    · assumption
    · simp

section Channel
variable {n : Fin 32} (tier : 28 ≤ n.val) (running : s.mem.ch[n.val].state = .running)
include tier running

theorem exec_tierFault_dma (k b : Nat) : exec (.tierFault (.dma n) k b page) s = .next
    ((((s.dmaRun n k).holdBeats n b).updDma n fun c => { c with state := .suspended, faultPage := some page }).tierFault
      n.val page) :=
  (if_neg (notIdle_of_absent inside absent)).trans (if_pos (by simp [running, tier]))

/-- A fault on the first beat suspends the channel where it is, and asks for the page. -/
theorem exec_tierFault_dma_first (new : s.mem.migrating.contains page = false) :
    Gives (.tierFault (.dma n) 0 0 page) s fun t =>
      t.mem.ch[n.val] = { s.mem.ch[n.val] with state := .suspended, faultPage := some page } ∧
      (∀ m : Fin 32, m ≠ n → t.mem.ch[m.val] = s.mem.ch[m.val]) ∧
      t.mem.migrating = s.mem.migrating ++ [page] ∧ t.mem.tierFaults = bump 32 s.mem.tierFaults ∧
      t.evr = s.evs [(0xC020, n.val, 0)] ∧ State.only [.mem, .evr] s t := by
  have next := exec_tierFault_dma inside absent tier running 0 0
  rw [State.dmaRun_zero, State.holdBeats_zero] at next
  refine ⟨_, next, ?_⟩
  have fault := State.tierFault_eq (s.updDma n fun c => { c with state := .suspended, faultPage := some page }) n.val page
  have events : (s.updDma n fun c => { c with state := .suspended, faultPage := some page }).evs [(0xC020, n.val, 0)] =
      s.evs [(0xC020, n.val, 0)] := (((State.SameEv.refl s).withMem _).evs_eq _).symm
  rw [fault, events]
  refine ⟨?_, fun m other => ?_, ?_, rfl, rfl, s.only_memEvr _ _⟩
  · exact s.updDma_same n _
  · exact State.updDma_other other s _
  · exact if_neg (by rw [show (s.updDma n _).mem.migrating = s.mem.migrating from rfl, new]; decide)

end Channel
end Fault

theorem exec_tierFault_other {n : Fin 32} (k b page : Nat) {s : State}
    (other : n.val < 28 ∨ s.mem.ch[n.val].state ≠ .running) : exec (.tierFault (.dma n) k b page) s = .next s := by
  have noTier : ¬ (decide (s.mem.ch[n.val].state = .running) && decide (28 ≤ n.val)) = true := by
    rcases other with low | rests
    · simp [low]
    · simp [rests]
  exact (congrArg _ (if_neg noTier)).trans (ite_self _)

/-! A page that comes in (R467). -/

/-- A pre-empted tier channel takes up no memory but its own place and the count. -/
theorem State.preemptCh_mem (s : State) (n : Fin 32) : (s.preemptCh n).mem =
    { s.mem with
      tierPreempts := bump 32 s.mem.tierPreempts
      ch := updV s.mem.ch n fun c => { c with state := .preempted, displaced := true } } := by
  rw [State.preemptCh, State.displace, State.ev_mem]
  rfl

theorem State.preemptCh_other {n m : Fin 32} (other : m ≠ n) (s : State) :
    (s.preemptCh n).mem.ch[m.val] = s.mem.ch[m.val] := by
  rw [State.preemptCh_mem]
  simp [Fin.val_inj, other.symm]

theorem State.preemptCh_same (s : State) (n : Fin 32) :
    (s.preemptCh n).mem.ch[n.val] = { s.mem.ch[n.val] with state := .preempted, displaced := true } := by
  rw [State.preemptCh_mem]
  simp

/-- A channel waits for a page (R467). -/
def DmaCh.waits (c : DmaCh) (page : Nat) : Prop := c.state = .suspended ∧ c.faultPage = some page

section Wake
variable (s : State) (n : Fin 32) (page : Nat)

/-- A channel that is woken leaves the memories but for the channels and the count of pre-emptions. -/
theorem State.wakeCh_mem : ∃ ch preempts, (s.wakeCh n page).mem = { s.mem with ch := ch, tierPreempts := preempts } := by
  unfold State.wakeCh
  split
  · dsimp only
    split
    · exact ⟨_, _, State.preemptCh_mem _ _⟩
    · exact ⟨_, _, rfl⟩
  · exact ⟨s.mem.ch, s.mem.tierPreempts, rfl⟩

theorem State.wakeCh_other {m : Fin 32} (other : m ≠ n) : (s.wakeCh n page).mem.ch[m.val] = s.mem.ch[m.val] := by
  unfold State.wakeCh
  split
  · dsimp only
    split
    · rw [State.preemptCh_other other, State.updDma_other other]
    · rw [State.updDma_other other]
  · rfl

theorem State.wakeCh_wakes : ¬ (s.wakeCh n page).mem.ch[n.val].waits page := by
  unfold State.wakeCh
  split
  · dsimp only
    split
    · rw [State.preemptCh_same]
      simp [DmaCh.waits]
    · rw [State.updDma_same]
      simp [DmaCh.waits]
  · next idle => simpa [DmaCh.waits] using idle

end Wake

/-- Every channel is woken. -/
def State.wakeAll (s : State) (page : Nat) : State := (List.finRange 32).foldl (fun s i => s.wakeCh i page) s

theorem State.wakeAll_mem (s : State) (page : Nat) :
    ∃ ch preempts, (s.wakeAll page).mem = { s.mem with ch := ch, tierPreempts := preempts } := by
  unfold State.wakeAll
  refine List.foldlRecOn (motive := fun t : State => ∃ ch preempts, t.mem = { s.mem with ch := ch, tierPreempts := preempts })
    (List.finRange 32) (fun s i => s.wakeCh i page) ⟨s.mem.ch, s.mem.tierPreempts, rfl⟩ fun t held i _ => ?_
  obtain ⟨ch, preempts, held⟩ := held
  obtain ⟨ch', preempts', woken⟩ := t.wakeCh_mem i page
  exact ⟨ch', preempts', by rw [woken, held]⟩

theorem State.wakeAll_wakes (s : State) (page : Nat) (n : Fin 32) : ¬ (s.wakeAll page).mem.ch[n.val].waits page := by
  unfold State.wakeAll
  refine foldl_reaches (c := n) (l := List.finRange 32) (f := fun s i => s.wakeCh i page) (before := fun _ => True)
    (after := fun t => ¬ t.mem.ch[n.val].waits page) (fun _ _ _ _ => trivial) (fun t _ => t.wakeCh_wakes n page)
    (fun t i other woken => ?_) (List.mem_finRange n) (List.nodup_finRange 32) trivial
  rwa [t.wakeCh_other i page other.symm]

/-- What stands where a page has come in, before its waiting units are woken. -/
def State.migrated (u : State) (page ns : Nat) : State :=
  { u with mem := { u.mem with
    migrating := u.mem.migrating.filter (· != page), migrations := addSample u.mem.migrations u.sys.tick ns } }

theorem exec_tierMigrationDone_comesIn {page : Nat} (ns : Nat) {s u : State}
    (migrates : s.mem.migrating.contains page = true) (admitted : s.admitPage page = some u) :
    exec (.tierMigrationDone page ns true) s = .next (((u.migrated page ns).wakeAll page).copyWake page) := by
  change execTierMigrationDone page ns true s = _
  unfold execTierMigrationDone
  rw [if_neg (by rw [migrates]; decide), if_pos rfl, admitted]
  rfl

theorem exec_tierMigrationDone_idle {page : Nat} (ns : Nat) {ok : Bool} {s : State}
    (idle : s.mem.migrating.contains page = false ∨ (ok = true ∧ s.admitPage page = none)) :
    exec (.tierMigrationDone page ns ok) s = .next s := by
  change execTierMigrationDone page ns ok s = _
  unfold execTierMigrationDone
  rcases idle with rests | ⟨rfl, pinned⟩
  · exact if_pos (by rw [rests]; rfl)
  · rw [pinned]
    split <;> rfl

/-- With a frame free the page is resident, nothing waits for it, and the other memories stay. -/
theorem exec_tierMigrationDone_free {page : Nat} (ns : Nat) {s : State} (migrates : s.mem.migrating.contains page = true)
    (free : s.mem.resident.length < 16384) :
    Gives (.tierMigrationDone page ns true) s fun t =>
      t.pageResident page = true ∧ t.mem.migrating.contains page = false ∧ t.mem.backing = s.mem.backing ∧
      (∀ n : Fin 32, t.mem.ch[n.val].state = .suspended → t.mem.ch[n.val].faultPage ≠ some page) ∧
      (∀ i : Fin 10, (t.fce.inst[i.val]).copyWait.contains page = false) ∧ t.mem.sram = s.mem.sram ∧
      t.mem.hbm = s.mem.hbm ∧ t.mem.tier = (s.bringPage page).mem.tier := by
  refine ⟨_, exec_tierMigrationDone_comesIn ns migrates (State.admitPage_free free page), ?_⟩
  obtain ⟨ch, preempts, mem⟩ := ((s.bringPage page).migrated page ns).wakeAll_mem page
  have wakes := ((s.bringPage page).migrated page ns).wakeAll_wakes page
  generalize ((s.bringPage page).migrated page ns).wakeAll page = t at mem wakes
  have same : (t.copyWake page).mem = t.mem := rfl
  rw [State.pageResident, same]
  refine ⟨?_, ?_, ?_, fun n suspended waits => wakes n ⟨suspended, waits⟩, fun i => ?_, ?_, ?_, ?_⟩
  · rw [mem]
    simp [State.migrated, State.bringPage]
  · rw [mem]
    simp [State.migrated]
  · rw [mem]
    rfl
  · simp [State.copyWake]
  · rw [mem]
    rfl
  · rw [mem]
    rfl
  · rw [mem]
    rfl

/-! A page whose backing copy fails (R460). -/

/-- What another channel brings about leaves the resident pages and the migrations, and a channel that neither runs nor is
pre-empted as it is (R463, R468). -/
structure State.DmaSpares (n : Fin 32) (s t : State) : Prop where
  resident : t.mem.resident = s.mem.resident
  migrating : t.mem.migrating = s.mem.migrating
  ch : s.mem.ch[n.val].state ≠ .running → s.mem.ch[n.val].state ≠ .preempted → t.mem.ch[n.val] = s.mem.ch[n.val]

theorem State.DmaSpares.refl (n : Fin 32) (s : State) : s.DmaSpares n s := ⟨rfl, rfl, fun _ _ => rfl⟩

theorem State.DmaSpares.trans {n : Fin 32} {s t u : State} (h : s.DmaSpares n t) (k : t.DmaSpares n u) :
    s.DmaSpares n u where
  resident := k.resident.trans h.resident
  migrating := k.migrating.trans h.migrating
  ch notRunning notPreempted := by
    have same := h.ch notRunning notPreempted
    exact (k.ch (by rwa [same]) (by rwa [same])).trans same

theorem State.DmaSpares.ite {n : Fin 32} {s t u : State} {c : Prop} [Decidable c] (h : s.DmaSpares n t)
    (k : s.DmaSpares n u) : s.DmaSpares n (if c then t else u) := by
  split <;> assumption

section Spares
variable {n i : Fin 32} (other : n ≠ i) (s : State)
include other

theorem State.updDma_spares (f : DmaCh → DmaCh) : s.DmaSpares n (s.updDma i f) :=
  ⟨rfl, rfl, fun _ _ => State.updDma_other other s f⟩

omit other in
theorem State.ev_spares (c a d : Nat) : s.DmaSpares n (s.ev c a d) := by
  constructor <;> simp

theorem State.preemptCh_spares : s.DmaSpares n (s.preemptCh i) := by
  refine ⟨?_, ?_, fun _ _ => State.preemptCh_other other s⟩ <;> rw [State.preemptCh_mem]

omit other in
theorem State.preemptAll_spares : s.DmaSpares n s.preemptAll := by
  refine List.foldlRecOn (motive := fun t => s.DmaSpares n t) (List.finRange 32) _ (.refl n s) fun t held j _ => ?_
  refine held.trans ?_
  split
  · next runs =>
    rcases eq_or_ne n j with rfl | apart
    · have running : t.mem.ch[n.val].state = .running := by simpa using (Bool.and_eq_true_iff.1 runs).2
      refine ⟨?_, ?_, fun notRunning => absurd running notRunning⟩ <;> rw [State.preemptCh_mem]
    · exact t.preemptCh_spares apart
  · exact .refl n t

omit other in
theorem State.resumeTier_spares : s.DmaSpares n s.resumeTier := by
  have resumes := s.resumeTier_resumes
  exact ⟨by rw [resumes.mem], by rw [resumes.mem], fun _ notPreempted => resumes.ch n notPreempted⟩

theorem State.dmaBegin_spares : s.DmaSpares n (s.dmaBegin i) := by
  unfold State.dmaBegin
  refine .ite ((s.updDma_spares other _).trans (.ite (.ite (State.preemptAll_spares _) (.refl n _))
    (.ite (State.preemptCh_spares other _) (.refl n _)))) ?_
  refine .trans (t := ({ s with mem := { s.mem with progErrors := bump 32 s.mem.progErrors } } : State)) ⟨rfl, rfl, fun _ _ => rfl⟩ ?_
  exact (State.updDma_spares other _ _).trans (State.ev_spares _ _ _ _)

theorem State.dmaChain_spares : s.DmaSpares n (s.dmaChain i) := by
  unfold State.dmaChain
  exact .ite ((State.updDma_spares other _ _).trans (State.dmaBegin_spares other _)) (.refl n _)

theorem State.dmaEnd_spares (st : DmaState) : s.DmaSpares n (s.dmaEnd i st) := by
  unfold State.dmaEnd
  exact ((State.updDma_spares other _ _).trans (State.dmaChain_spares other _)).trans (State.resumeTier_spares _)

theorem State.dmaBad_spares : s.DmaSpares n (s.dmaBad i) := by
  unfold State.dmaBad
  refine .trans ?_ (State.dmaEnd_spares other _ _)
  refine .trans ?_ (State.ev_spares _ _ _ _)
  exact .trans (t := ({ s with mem := { s.mem with busErrors := bump 32 s.mem.busErrors } } : State))
    ⟨rfl, rfl, fun _ _ => rfl⟩ (State.updDma_spares other _ _)

theorem State.failCh_spares (page : Nat) : s.DmaSpares n (s.failCh i page) :=
  .ite (s.dmaBad_spares other) (.refl n s)

end Spares

/-- Every channel that waits for a page fails. -/
def State.failAll (s : State) (page : Nat) : State := (List.finRange 32).foldl (fun s i => s.failCh i page) s

theorem exec_tierMigrationDone_fails {page : Nat} (ns : Nat) {s : State} (migrates : s.mem.migrating.contains page = true) :
    exec (.tierMigrationDone page ns false) s = .next
      ((({ s with mem := { s.mem with migrating := s.mem.migrating.filter (· != page) } }).ev 0xC021).failAll page) := by
  change execTierMigrationDone page ns false s = _
  unfold execTierMigrationDone
  rw [if_neg (by rw [migrates]; decide)]
  exact if_neg Bool.false_ne_true

/-- A channel that waits ends BAD whatever the others come to. -/
theorem State.failAll_bad {s : State} {n : Fin 32} {page : Nat} (waits : s.mem.ch[n.val].waits page)
    (rests : s.mem.ch[n.val].shadow.arm = false) :
    (s.failAll page).mem.ch[n.val].state = .bad ∧ (s.failAll page).mem.migrating = s.mem.migrating ∧
    (s.failAll page).mem.resident = s.mem.resident := by
  unfold State.failAll
  refine foldl_reaches (c := n) (l := List.finRange 32) (f := fun s i => s.failCh i page)
    (before := fun t => t.mem.ch[n.val].waits page ∧ t.mem.ch[n.val].shadow.arm = false ∧
      t.mem.migrating = s.mem.migrating ∧ t.mem.resident = s.mem.resident)
    (after := fun t => t.mem.ch[n.val].state = .bad ∧ t.mem.migrating = s.mem.migrating ∧
      t.mem.resident = s.mem.resident) ?_ ?_ ?_ (List.mem_finRange n) (List.nodup_finRange 32) ⟨waits, rests, rfl, rfl⟩
  · rintro t i other ⟨waits, rests, migrating, resident⟩
    have spares := t.failCh_spares other.symm page
    have same := spares.ch (by rw [waits.1]; decide) (by rw [waits.1]; decide)
    exact ⟨by rwa [same], by rwa [same], spares.migrating.trans migrating, spares.resident.trans resident⟩
  · rintro t ⟨waits, rests, migrating, resident⟩
    obtain ⟨own, mem⟩ := State.dmaBad_rests rests
    have bad : t.failCh n page = t.dmaBad n := if_pos (by simp [waits.1, waits.2])
    rw [bad, own, mem]
    exact ⟨rfl, migrating, resident⟩
  · rintro t i other ⟨bad, migrating, resident⟩
    have spares := t.failCh_spares other.symm page
    have same := spares.ch (by rw [bad]; decide) (by rw [bad]; decide)
    exact ⟨by rwa [same], spares.migrating.trans migrating, spares.resident.trans resident⟩

theorem exec_tierMigrationDone_failsWaiting {n : Fin 32} {page : Nat} (ns : Nat) {s : State}
    (migrates : s.mem.migrating.contains page = true) (waits : s.mem.ch[n.val].waits page)
    (rests : s.mem.ch[n.val].shadow.arm = false) :
    Gives (.tierMigrationDone page ns false) s fun t =>
      t.mem.ch[n.val].state = .bad ∧ t.mem.migrating.contains page = false ∧ t.mem.resident = s.mem.resident := by
  refine ⟨_, exec_tierMigrationDone_fails ns migrates, ?_⟩
  have start := State.ev_withMem s { s.mem with migrating := s.mem.migrating.filter (· != page) } 0xC021 noInst 0
  generalize ({ s with mem := { s.mem with migrating := s.mem.migrating.filter (· != page) } } : State).ev 0xC021 noInst 0 = u
    at start
  obtain ⟨bad, migrating, resident⟩ :=
    State.failAll_bad (s := u) (n := n) (page := page) (by rwa [start]) (by rwa [start])
  refine ⟨bad, ?_, ?_⟩
  · rw [migrating, start]
    simp
  · rw [resident, start]

/-- Settles O43: a fault suspends the channel after what it has moved, and what a page brings when it comes in, or when its
backing copy fails, is the fold over the channels that wait for it. -/
theorem tierPagesSuspendAndComeIn : Obligations.TierPages := by
  unfold Obligations.TierPages
  refine ⟨fun n k b page s tier running inside absent => exec_tierFault_dma inside absent tier running k b,
    fun n page s tier running inside absent new => exec_tierFault_dma_first inside absent tier running new,
    fun n k b page s other => exec_tierFault_other k b page other,
    fun i k b page s inside absent => exec_tierFault_load inside absent i k b,
    fun i k b page s inside absent => exec_tierFault_load_does inside absent i k b,
    fun u k b page s idle => exec_tierFault_idle u k b idle,
    fun page ns s u migrates admitted => exec_tierMigrationDone_comesIn ns migrates admitted,
    fun page ns s migrates => exec_tierMigrationDone_fails ns migrates,
    fun page ns ok s idle => exec_tierMigrationDone_idle ns idle, fun page ns s migrates free => ?_,
    fun page s full => ⟨State.admitPage_none full page, fun x _ => s.evictable_iff x⟩,
    fun page a x s inv => ⟨State.bringPage_read inv page a, State.evictPage_read inv x a⟩,
    fun page ns a s migrates free inv => ?_,
    fun n page ns s migrates suspended faulted rests =>
      exec_tierMigrationDone_failsWaiting ns migrates ⟨suspended, faulted⟩ rests⟩
  · obtain ⟨t, next, resident, migrated, backing, channels, copies, sram, hbm, -⟩ := exec_tierMigrationDone_free ns migrates free
    exact ⟨t, next, resident, migrated, backing, channels, copies, sram, hbm⟩
  · obtain ⟨t, next, -, -, -, -, -, -, -, tier⟩ := exec_tierMigrationDone_free ns migrates free
    exact ⟨t, next, (congrArg (Memory.read · a) tier).trans (State.bringPage_read inv page a)⟩

end Sys2Proof.Machine
end

section
/-! SUPPORT. A failing configuration word during an input loss (R34, R411, R460). -/

namespace Sys2Proof.Machine

/-- In an input loss no cause of Basalt arises (R34). -/
theorem State.basaltCause_inputLoss {s : State} (loss : s.power.inputLoss = true) (c : Fin 4) : s.basaltCause c = s :=
  if_pos loss

/-- So a configuration fault then takes the device nowhere. -/
theorem State.configFault_inputLoss {s : State} (loss : s.power.inputLoss = true) : s.configFault.sys = s.sys := by
  have loss' : (({ s with cfg := { s.cfg with fault := true } }).ev 0x2021).power.inputLoss = true := by
    rw [State.ev_power]
    exact loss
  rw [State.configFault, State.basaltCause_inputLoss loss', State.ev_sys]

theorem exec_eccUncorrectable_config (s : State) :
    exec (.eccUncorrectable .config) s = .next ((s.eccLost 0).configFault) :=
  congrArg Host.Outcome.next (if_pos (rfl : s.eccLive .config = true))

/-- In RUN with both feeds lost. -/
def runInputLoss : State :=
  { State.reset with power := { State.reset.power with inputLoss := true }, sys := { State.reset.sys with state := .run } }

theorem exec_eccUncorrectable_config_runInputLoss :
    Gives (.eccUncorrectable .config) runInputLoss fun t => t.sys.state = .run := by
  refine ⟨_, exec_eccUncorrectable_config runInputLoss, ?_⟩
  have loss : (runInputLoss.eccLost 0).power.inputLoss = true := by
    rw [State.eccLost, State.ev_power]
    rfl
  change (runInputLoss.eccLost 0).configFault.sys.state = .run
  rw [State.configFault_inputLoss loss, State.eccLost, State.ev_sys]
  rfl

/-- Refutes O44: an uncorrectable configuration codeword in RUN does not take the device to BASALT while both feeds are lost,
for then no cause of Basalt arises. -/
theorem not_codewordErrors : ¬ Obligations.CodewordErrors := by
  unfold Obligations.CodewordErrors
  rintro ⟨-, -, -, -, -, -, -, -, -, -, -, config, -⟩
  obtain ⟨t, next, stays⟩ := exec_eccUncorrectable_config_runInputLoss
  obtain ⟨u, next', -, enters⟩ := config runInputLoss
  obtain rfl : t = u := by injection next.symm.trans next'
  exact absurd (stays.symm.trans (enters rfl)) (by decide)

end Sys2Proof.Machine
end

section
/-! SUPPORT. A WARM reset in RUN (R186, R444). -/

namespace Sys2Proof.Machine

/-- The state of `fastPathBackToOff`, with session 0 an INTEGRATOR's. -/
def fastPathBackToOffReset : State :=
  { fastPathBackToOff with
    net := { fastPathBackToOff.net with
      sess := updV fastPathBackToOff.net.sess 0 fun x => { x with isOpen := true, role := .integrator } } }

/-- The passage to ARMED leaves no group to wait for, and the reset follows at once. -/
theorem fastPathBackToOffReset_sysReset : (fastPathBackToOffReset.sysReset 2).sys.state = .boot := by decide +kernel

/-- Refutes O7: a WARM reset in RUN with a group that is not OFF need not wait in ARMED. A group on the fast path returns
first to the state it holds as the one it came from, of which the statement assumes nothing: where that is OFF, every group is
OFF and the reset follows at once. The state is one that the statement admits, not one that a run is shown to reach. -/
theorem not_resetsKeepWhatTheirKindKeeps : ¬ Obligations.ResetsKeepWhatTheirKindKeeps := by
  unfold Obligations.ResetsKeepWhatTheirKindKeeps
  rintro ⟨-, -, waits, -⟩
  have allowed : fastPathBackToOffReset.allows 0 .ia = true := by decide +kernel
  obtain ⟨t, next, armed, -⟩ := waits 0 fastPathBackToOffReset allowed rfl rfl (by decide +kernel)
  have reached : exec (.warmReset 0) fastPathBackToOffReset = .next (fastPathBackToOffReset.sysReset 2) :=
    congrArg Host.Outcome.next (State.regCmd_allowed allowed _)
  obtain rfl : fastPathBackToOffReset.sysReset 2 = t := by
    rw [reached] at next
    exact Host.Outcome.next.inj next
  exact absurd (armed.symm.trans fastPathBackToOffReset_sysReset) (by decide)

end Sys2Proof.Machine
end

section
/-! SUPPORT. Firmware images verified, staged and discarded (R436, R437, R439, R440, R453, R454). -/

namespace Sys2Proof.Machine

theorem State.fwSlotFailed_eq (s : State) (b : Bool) (step : Nat) : s.fwSlotFailed b step = { s with
    sec := { s.sec with fwResult := step }, evr := s.evs [(0x1002, noInst, step + if b then 256 else 0)] } :=
  s.ev_withSec _ _ _ _

/-- An event changes the recorder alone. -/
theorem State.ev_evs (s : State) (c i d : Nat) : s.ev c i d = { s with evr := s.evs [(c, i, d)] } :=
  s.ev_eq c i d

/-- After two slots that fail, the events stand in their order. -/
theorem State.fwBothFailed_eq (s : State) (b : Bool) (n m : Nat) :
    ((s.fwSlotFailed b n).fwSlotFailed (!b) m).ev 0x1003 = { s with
      sec := { s.sec with fwResult := m }
      evr := s.evs [(0x1002, noInst, n + if b then 256 else 0), (0x1002, noInst, m + if b then 0 else 256),
        (0x1003, noInst, 0)] } := by
  have data : (m + if (!b) = true then 256 else 0) = m + if b = true then 0 else 256 := by cases b <;> rfl
  have same := (((State.SameEv.refl s).fwSlotFailed b n).fwSlotFailed (!b) m).evs_eq [(0x1003, noInst, 0)]
  rw [data] at same
  have events := (State.evs_cons s (0x1002, noInst, n + if b then 256 else 0)
    [(0x1002, noInst, m + if b then 0 else 256), (0x1003, noInst, 0)]).trans
    ((State.evs_cons _ (0x1002, noInst, m + if b then 0 else 256) [(0x1003, noInst, 0)]).trans same)
  have parts : ∃ r, (s.fwSlotFailed b n).fwSlotFailed (!b) m = { s with sec := { s.sec with fwResult := m }, evr := r } := by
    have first : ∃ r, s.fwSlotFailed b n = { s with sec := { s.sec with fwResult := n }, evr := r } :=
      ⟨_, State.fwSlotFailed_eq s b n⟩
    obtain ⟨r, first⟩ := first
    exact ⟨_, (congrArg (State.fwSlotFailed · (!b) m) first).trans (State.fwSlotFailed_eq _ _ _)⟩
  obtain ⟨r, parts⟩ := parts
  rw [State.ev_evs, ← events, parts]

section Verify
variable (keys : Bool) {s : State}

theorem exec_fwVerified_eq (lit : s.lit = true) (boot : s.sys.state = .boot) (idle : s.sec.fwRunning = false)
    (normal : s.sec.recovery = false) :
    exec (.fwVerified keys) s = .next (
      let b := s.sec.bootSlotB
      let n := s.fwStep (s.fwImage b)
      let m := s.fwStep (s.fwImage !b)
      let t := { s with
        sec := { s.sec with fwResult := n }, evr := s.evs [(0x1002, noInst, n + if b then 256 else 0)] }
      if n = 0 then s.fwStart b false keys
      else if m = 0 then t.fwStart (!b) true keys
      else { t with
        sec := { s.sec with fwResult := m, recovery := true }
        evr := s.evs [(0x1002, noInst, n + if b then 256 else 0), (0x1002, noInst, m + if b then 0 else 256),
          (0x1003, noInst, 0)] }) := by
  rw [exec_fwVerified_boot keys lit boot idle normal]
  have second (b : Bool) (n : Nat) : (s.fwSlotFailed b n).fwStep ((s.fwSlotFailed b n).fwImage !b) =
      s.fwStep (s.fwImage !b) := by
    rw [State.fwSlotFailed_eq]
    rfl
  dsimp only
  rw [second, State.fwBothFailed_eq, State.fwSlotFailed_eq]

theorem exec_fwVerified_idle
    (idle : s.lit = false ∨ s.sys.state ≠ .boot ∨ s.sec.fwRunning = true ∨ s.sec.recovery = true) :
    exec (.fwVerified keys) s = .next s :=
  congrArg Host.Outcome.next (if_pos (by rcases idle with h | h | h | h <;> simp [h]))

end Verify

/-! An image with the firmware loader (R437, R439). -/

section Stage
variable {s : State} {l : List Byte} (lit : s.lit = true) (pending : s.sec.fwPending = some l)
include lit pending

/-- FW_STAGED with an image: it goes to slot B where slot A runs, outside recovery. -/
theorem exec_fwStaged_lit : exec .fwStaged s = .next (
    let b := !s.sec.recovery && !s.sec.fwSlotB
    let n := s.fwStep (some l)
    if n = 0 then
      let t := { s with
        sec := { s.sec with
          fwPending := none, fwSlotAImg := if b then s.sec.fwSlotAImg else some l
          fwSlotBImg := if b then some l else s.sec.fwSlotBImg, fwNewA := !b || s.sec.fwNewA
          fwNewB := b || s.sec.fwNewB, fwStaged := true, stagedDigest := imageDigest l }
        evr := s.evs [(0x1010, noInst, 0)] }
      if s.sec.recovery then ({ t with sec := { t.sec with fwStaged := false, bootSlotB := false } } : State).doReset 2 else t
    else { s with
      sec := { s.sec with fwPending := none, fwResult := n }
      evr := s.evs [(0x1011, noInst, n + if b then 256 else 0)] }) := by
  change execFwStaged s = _
  unfold execFwStaged
  rw [pending]
  dsimp only
  rw [if_neg (by simp [lit]), State.ev_withSec, State.ev_withSec]
  have step : ({ s with sec := { s.sec with fwPending := none } } : State).fwStep (some l) = s.fwStep (some l) := rfl
  rw [step]
  by_cases passes : s.fwStep (some l) = 0
  · rw [if_pos passes, if_neg (by simp [passes])]
  · rw [if_neg passes, if_pos (by simp [passes])]

theorem exec_fwStaged_normal (normal : s.sec.recovery = false) : exec .fwStaged s = .next (
    if s.fwStep (some l) = 0 then { s with
      sec := { s.sec with
        fwPending := none, fwSlotAImg := if s.sec.fwSlotB then some l else s.sec.fwSlotAImg
        fwSlotBImg := if s.sec.fwSlotB then s.sec.fwSlotBImg else some l
        fwNewA := s.sec.fwSlotB || s.sec.fwNewA, fwNewB := !s.sec.fwSlotB || s.sec.fwNewB
        fwStaged := true, stagedDigest := imageDigest l }
      evr := s.evs [(0x1010, noInst, 0)] }
    else { s with
      sec := { s.sec with fwPending := none, fwResult := s.fwStep (some l) }
      evr := s.evs [(0x1011, noInst, s.fwStep (some l) + if s.sec.fwSlotB then 0 else 256)] }) := by
  rw [exec_fwStaged_lit lit pending, normal]
  cases slotB : s.sec.fwSlotB <;> rfl

theorem exec_fwStaged_recovery (recovery : s.sec.recovery = true) : exec .fwStaged s = .next (
    if s.fwStep (some l) = 0 then ({ s with
      sec := { s.sec with
        fwPending := none, fwSlotAImg := some l, fwNewA := true, fwStaged := false, stagedDigest := imageDigest l
        bootSlotB := false }
      evr := s.evs [(0x1010, noInst, 0)] }).doReset 2
    else { s with
      sec := { s.sec with fwPending := none, fwResult := s.fwStep (some l) }
      evr := s.evs [(0x1011, noInst, s.fwStep (some l))] }) := by
  rw [exec_fwStaged_lit lit pending, recovery]
  rfl

end Stage

theorem exec_fwStaged_idle {s : State} (idle : s.lit = false ∨ s.sec.fwPending = none) : exec .fwStaged s = .next s := by
  change execFwStaged s = _
  unfold execFwStaged
  split
  · rfl
  · next l pending =>
    have dark : s.lit = false := idle.resolve_right (by simp [pending])
    rw [if_pos (by simp [dark])]

theorem exec_fwDiscard_staged {sess : Fin 64} {s : State} (allowed : s.allows sess .ix = true)
    (staged : s.sec.fwStaged = true) : exec (.fwDiscard sess) s = .next { s with
      sec := { s.sec with fwStaged := false
                          fwSlotAImg := if s.sec.fwSlotB then none else s.sec.fwSlotAImg
                          fwSlotBImg := if s.sec.fwSlotB then s.sec.fwSlotBImg else none } } :=
  congrArg Host.Outcome.next ((State.regCmd_allowed allowed _).trans (if_pos staged))

theorem exec_fwDiscard_idle {sess : Fin 64} {s : State} (allowed : s.allows sess .ix = true)
    (none : s.sec.fwStaged = false) : exec (.fwDiscard sess) s = .next s :=
  congrArg Host.Outcome.next ((State.regCmd_allowed allowed _).trans (if_neg (by simp [none])))

/-- Settles O34: each command by the equation of its meaning, with the slots in the order they are tried. -/
theorem firmwareSlots : Obligations.FirmwareSlots :=
  ⟨fun keys _ lit boot idle normal => exec_fwVerified_eq keys lit boot idle normal,
    fun keys _ idle => exec_fwVerified_idle keys idle, fun b fallback keys s => s.fwStart_eq b fallback keys,
    fun _ _ lit pending normal => exec_fwStaged_normal lit pending normal,
    fun _ _ lit pending recovery => exec_fwStaged_recovery lit pending recovery,
    fun _ idle => exec_fwStaged_idle idle, fun _ _ allowed staged => exec_fwDiscard_staged allowed staged,
    fun _ _ allowed none => exec_fwDiscard_idle allowed none⟩

end Sys2Proof.Machine
end

section
/-! SUPPORT. An undervoltage trip during an input loss (R34, R406). -/

namespace Sys2Proof.Machine

/-- In an input loss RACK_HOLD_N is not driven (R34). -/
theorem State.holdSync_inputLoss {s : State} (loss : s.power.inputLoss = true) :
    s.holdSync = { s with sys := { s.sys with rackHoldDrive := false } } := by
  have want : ((s.prot.entryHold || s.prot.busUv) && !s.power.inputLoss) = false := by simp [loss]
  unfold State.holdSync
  dsimp only
  rw [want]
  rfl

theorem exec_busUvTrip_trips {v : Int} {s : State} (before : s.prot.busUv = false) (low : v ≤ s.limit 3) :
    exec (.busUvTrip v) s = .next (((({ s with prot := { s.prot with busUv := true, uvTick := s.sys.tick } }).tripV
      0xB011 0xFF 0 v (s.limit 3) noInst).holdSync).throttleAllPorts 6) :=
  congrArg Host.Outcome.next (if_neg (by simp [before, low]))

/-- An undervoltage trip then leaves RACK_HOLD_N undriven. -/
theorem exec_busUvTrip_inputLoss {v : Int} {s : State} (loss : s.power.inputLoss = true)
    (before : s.prot.busUv = false) (low : v ≤ s.limit 3) :
    Gives (.busUvTrip v) s fun t => t.sys.rackHoldDrive = false := by
  refine ⟨_, exec_busUvTrip_trips before low, ?_⟩
  have power : (({ s with prot := { s.prot with busUv := true, uvTick := s.sys.tick } } : State).tripV
      0xB011 0xFF 0 v (s.limit 3) noInst).power.inputLoss = true :=
    (congrArg Power.inputLoss ((State.tripV_kept _ _ _ _ _ _ _ (List.Subset.refl _) .rfl).only .power (by decide))).trans loss
  rw [State.holdSync_inputLoss power]
  exact congrArg Sys.rackHoldDrive ((State.throttleAllPorts_kept _ _ (List.Subset.refl _) .rfl).only .sys (by decide))

/-- Refutes O38: an undervoltage trip in RUN does not drive RACK_HOLD_N low while both feeds are lost. -/
theorem not_busLimits : ¬ Obligations.BusLimits := by
  unfold Obligations.BusLimits
  rintro ⟨-, -, -, -, -, -, -, -, -, drives, -⟩
  obtain ⟨t, next, undriven⟩ :=
    exec_busUvTrip_inputLoss (v := runInputLoss.limit 3) (s := runInputLoss) rfl rfl le_rfl
  obtain ⟨u, next', -, driven, -⟩ := drives (runInputLoss.limit 3) runInputLoss rfl le_rfl (.inl rfl)
  obtain rfl : t = u := by injection next.symm.trans next'
  exact absurd (undriven.symm.trans driven) (by decide)

end Sys2Proof.Machine
end

section
/-! SUPPORT. A string isolated or limited, and the temperature of the die (R404, R407 to R409, R411, R412, R417, R427, R450). -/

namespace Sys2Proof.Machine

/-! What a trip does to PROT (R427). -/

/-- Nothing of PROT but the trips recorded and their count differs. -/
def Prot.Tripped (p q : Prot) : Prop :=
  ∃ trips head first, q = { p with trips := trips, tripHead := head, tripCount := bump 32 p.tripCount, tripFirst := first }

theorem State.trip_prot (s : State) (code inst detail : Nat) (value limit : Int) (evInst data : Nat) :
    s.prot.Tripped (s.trip code inst detail value limit evInst data).prot := by
  unfold State.trip
  dsimp only
  rw [State.ev_prot]
  exact ⟨_, _, _, rfl⟩

theorem State.tripV_prot (s : State) (code inst detail : Nat) (value limit : Int) (evInst : Nat) :
    s.prot.Tripped (s.tripV code inst detail value limit evInst).prot :=
  s.trip_prot _ _ _ _ _ _ _

theorem State.tripFree_prot (s : State) (code detail data : Nat) : s.prot.Tripped (s.tripFree code detail data).prot :=
  s.used.used.trip_prot _ _ _ _ _ _ _

theorem State.strTrip_prot (s : State) (i : Fin 4) (code node : Nat) (v : Option (Int × Int)) :
    s.prot.Tripped (s.strTrip i code node v).prot :=
  s.used.used.tripV_prot _ _ _ _ _ _

/-! A string at stage 2 (R407). -/

theorem State.fastEnd_other {g j : Fin 4} (other : j ≠ g) (s : State) : (s.fastEnd g).grp j = s.grp j := by
  unfold State.fastEnd
  split
  · rw [State.ev_grp, State.reinterleave_grp, if_neg other.symm, State.updGrp_other other]
  · rfl

theorem State.stopGroup_other {g j : Fin 4} (other : j ≠ g) (s : State) : (s.stopGroup g).grp j = s.grp j := by
  unfold State.stopGroup
  extract_lets u gr ref lim
  split
  · exact State.fastEnd_other other s
  · rw [State.updGrp_other other]
    exact State.fastEnd_other other s

theorem State.stopGroup_running {g : Fin 4} {s : State} (running : (s.grp g).state = .running) :
    ((s.stopGroup g).grp g).state = .stopping := by
  have slow : s.fastEnd g = s := if_neg (by simp [running])
  unfold State.stopGroup
  rw [slow]
  dsimp only
  rw [if_neg (by simp [running]), State.updGrp_same]

theorem exec_stringIsolated_isolates {i : Fin 4} {s : State} (reached : s.stageTwo i = true)
    (joined : s.prot.str[i.val].isolated = false) : exec (.stringIsolated i) s = .next (s.isolate i) :=
  congrArg Host.Outcome.next (if_pos (by simp [reached, joined]))

theorem exec_stringIsolated_idle {i : Fin 4} {s : State}
    (idle : s.stageTwo i = false ∨ s.prot.str[i.val].isolated = true) : exec (.stringIsolated i) s = .next s :=
  congrArg Host.Outcome.next (if_neg (by rcases idle with h | h <;> simp [h]))

/-- The steps of an isolation before the trip: the group stops, the contactors open and the string is marked. -/
def State.cutOff (s : State) (i : Fin 4) : State :=
  ((s.stopGroup i).strContactor i.val false).updStrProt i fun p => { p with isolated := true }

theorem State.cutOff_pwm (s : State) (i : Fin 4) : (s.cutOff i).pwm = (s.stopGroup i).pwm := by
  have opened : ((s.stopGroup i).strContactor i.val false).pwm = (s.stopGroup i).pwm :=
    (State.strContactor_kept _ _ _ (List.Subset.refl _) .rfl).only .pwm (by decide)
  rw [State.cutOff, State.updStrProt_pwm, opened]

theorem State.cutOff_sys (s : State) (i : Fin 4) : (s.cutOff i).sys = s.sys := by
  have opened : ((s.stopGroup i).strContactor i.val false).sys = (s.stopGroup i).sys :=
    (State.strContactor_kept _ _ _ (List.Subset.refl _) .rfl).only .sys (by decide)
  have stopped : (s.stopGroup i).sys = s.sys := (State.stopGroup_kept s i (List.Subset.refl _) .rfl).only .sys (by decide)
  rw [State.cutOff, State.updStrProt_sys, opened, stopped]

theorem State.cutOff_isolated (s : State) (i : Fin 4) : (s.cutOff i).prot.str[i.val].isolated = true := by
  simp [State.cutOff, State.updStrProt]

/-- A string's trip touches neither the converters nor SYS. -/
theorem State.strTrip_pwm (s : State) (i : Fin 4) (code node : Nat) (v : Option (Int × Int)) :
    (s.strTrip i code node v).pwm = s.pwm :=
  (State.strTrip_kept s i code node v (List.Subset.refl _) .rfl).only .pwm (by decide)
theorem State.strTrip_sys (s : State) (i : Fin 4) (code node : Nat) (v : Option (Int × Int)) :
    (s.strTrip i code node v).sys = s.sys :=
  (State.strTrip_kept s i code node v (List.Subset.refl _) .rfl).only .sys (by decide)

theorem State.isolate_eq (s : State) (i : Fin 4) : s.isolate i =
    ((s.cutOff i).strTrip i 0xB024 (((s.stageTwoValue i).map Prod.fst).getD 0)
      ((s.stageTwoValue i).map Prod.snd)).degrade.armCheck :=
  rfl

theorem exec_stringIsolated_does {i : Fin 4} {s : State} (reached : s.stageTwo i = true)
    (joined : s.prot.str[i.val].isolated = false) (still : s.sys.passage = .none) :
    Gives (.stringIsolated i) s fun t =>
      t.prot.str[i.val].isolated = true ∧ t.sys.degraded = true ∧
      ((s.grp i).state = .running → (t.grp i).state = .stopping) ∧ ∀ j, j ≠ i → t.grp j = s.grp j := by
  refine ⟨_, exec_stringIsolated_isolates reached joined, ?_⟩
  rw [State.isolate_eq]
  generalize ((s.stageTwoValue i).map Prod.fst).getD 0 = node
  generalize (s.stageTwoValue i).map Prod.snd = v
  have isolated := s.cutOff_isolated i
  have pwm := s.cutOff_pwm i
  have sys := s.cutOff_sys i
  generalize s.cutOff i = u at isolated pwm sys
  obtain ⟨_, _, _, prot⟩ := u.strTrip_prot i 0xB024 node v
  have idle : (u.strTrip i 0xB024 node v).degrade.armCheck = (u.strTrip i 0xB024 node v).degrade := by
    refine State.armCheck_idle ?_
    rw [State.degrade_passage, State.strTrip_sys, sys, still]
    decide
  have grp (j : Fin 4) : (u.strTrip i 0xB024 node v).degrade.grp j = (s.stopGroup i).grp j := by
    refine State.grp_of_pwm ?_ j
    rw [State.degrade_pwm, State.strTrip_pwm, pwm]
  rw [idle]
  refine ⟨?_, rfl, fun running => ?_, fun j other => ?_⟩
  · rw [State.degrade_prot, prot]
    exact isolated
  · rw [grp, State.stopGroup_running running]
  · rw [grp, State.stopGroup_other other]

/-! A cell that is not monitored (R404, R408). -/

section Unmonitored
variable {i c : Fin 4} {s : State}

/-- A cell has been UNMONITORED for UNMON_S. -/
def State.unmonCell (s : State) (c : Fin 4) (k : Nat) : Bool :=
  ((s.ring c).cellAt k).unmonitored && s.elapsed ((s.ring c).cellAt k).unmonAt (500000 * s.prot.unmonS)

theorem exec_unmonLimited_limits {k : Nat} (ring : s.ringOf i.val = some c)
    (cell : (s.ringCells c).find? (s.unmonCell c) = some k) (free : s.prot.str[i.val].unmonLimit = false) :
    exec (.unmonLimited i) s = .next ((s.updStrProt i fun p => { p with unmonLimit := true, cellNo := k }).strTrip i 0xB025
      (((s.nodeList c).find? fun n => (s.cellsOf c n).any fun x => x.2 = k).getD 0) none) := by
  change execUnmonLimited i s = _
  unfold execUnmonLimited
  rw [ring]
  dsimp only
  change Host.Outcome.next (match (s.ringCells c).find? (s.unmonCell c) with | some k => _ | none => _) = _
  rw [cell]
  exact congrArg Host.Outcome.next (if_neg (by simp [free]))

theorem exec_unmonLimited_idle (idle : s.prot.str[i.val].unmonLimit = true ∨ s.ringOf i.val = none ∨
      (∃ c, s.ringOf i.val = some c ∧ ∀ k ∈ s.ringCells c, ((s.ring c).cellAt k).unmonitored = false ∨
        s.elapsed ((s.ring c).cellAt k).unmonAt (500000 * s.prot.unmonS) = false)) :
    exec (.unmonLimited i) s = .next s := by
  change execUnmonLimited i s = _
  unfold execUnmonLimited
  refine congrArg Host.Outcome.next ?_
  rcases idle with limited | noRing | ⟨c, ring, watched⟩
  · split
    · exact if_pos limited
    · rfl
  · rw [noRing]
  · have unwatched : (s.ringCells c).find? (s.unmonCell c) = none :=
      List.find?_eq_none.2 fun k mem => by rcases watched k mem with h | h <;> simp [State.unmonCell, h]
    rw [ring]
    dsimp only
    split
    · next found => cases found.symm.trans unwatched
    · rfl

end Unmonitored

/-! The die (R409). -/

section Die
variable (v : Int) (s : State)

theorem State.dieRead_eq : s.dieRead v = { s with prot := { s.prot with
      dieT := v, dieTrip := decide (s.limit 9 ≤ v)
      dieHotTick := if s.limit 9 - 1000 ≤ v then s.sys.tick else s.prot.dieHotTick } } :=
  rfl

theorem exec_dieWarn_eq : exec (.dieWarn v) s = .next (
    if s.prot.dieWarn = true ∨ v < 100 * (s.prot.dieWarnC : Int) then s.dieRead v
    else ((({ s.dieRead v with
      prot := { (s.dieRead v).prot with dieWarn := true }, fce := { s.fce with dieStop := true } }).ev 0xB030).engineSync)) := by
  have warns : exec (.dieWarn v) s = .next (
      if 100 * (s.prot.dieWarnC : Int) ≤ v then (s.dieRead v).dieWarnSet else s.dieRead v) := rfl
  rw [warns]
  cases warn : s.prot.dieWarn with
  | true =>
    have set : (s.dieRead v).dieWarnSet = s.dieRead v := if_pos warn
    rw [set, ite_self, if_pos (.inl rfl)]
  | false =>
    have sets : (s.dieRead v).dieWarnSet = _ := if_neg (by simp [State.dieRead, warn])
    rw [sets]
    by_cases hot : 100 * (s.prot.dieWarnC : Int) ≤ v
    · rw [if_pos hot, if_neg (by simp [hot])]
      rfl
    · rw [if_neg hot, if_pos (.inr (Int.not_le.1 hot))]

theorem exec_dieWarnCleared_eq : exec (.dieWarnCleared v) s = .next (
    if s.prot.dieWarn = true ∧ v < 100 * (s.prot.dieWarnC : Int) - 500 then
      ((({ s.dieRead v with
        prot := { (s.dieRead v).prot with dieWarn := false }, fce := { s.fce with dieStop := false } }).ev 0xB031).engineSync)
    else s.dieRead v) :=
  congrArg Host.Outcome.next (if_congr (by simp [State.dieRead]) rfl rfl)

theorem exec_dieTrip_eq (hot : s.limit 9 ≤ v) : exec (.dieTrip v) s =
    .next (((((s.dieRead v).tripV 0xB032 0xFF 0 v (s.limit 9) noInst).dieWarnSet).basaltCause 2)) :=
  congrArg Host.Outcome.next (if_pos (by simp [State.dieRead, hot]))

theorem exec_dieTrip_below (below : v < s.limit 9) : exec (.dieTrip v) s = .next (s.dieRead v) :=
  congrArg Host.Outcome.next (if_neg (by simp [State.dieRead, below]))

/-- Where the die lies 10 C below its limit, the reading leaves the time it was last hot. -/
theorem exec_dieTripCleared_eq : exec (.dieTripCleared v) s = .next (
    if v < s.limit 9 - 1000 ∧ s.elapsed s.prot.dieHotTick 5000000 = true then (s.dieRead v).causeClear 2
    else s.dieRead v) := by
  refine congrArg Host.Outcome.next (if_congr ?_ rfl rfl)
  have limit : (s.dieRead v).limit 9 = s.limit 9 := rfl
  have elapsed (t : Nat) : (s.dieRead v).elapsed t 5000000 = s.elapsed t 5000000 := rfl
  rw [limit, elapsed, Bool.and_eq_true, decide_eq_true_eq]
  refine and_congr_right fun cool => ?_
  have tick : (s.dieRead v).prot.dieHotTick = s.prot.dieHotTick := if_neg (by omega)
  rw [tick]

theorem exec_missedTicksCleared_eq : exec .missedTicksCleared s = .next (
    if s.clk.rootLock = true ∧ s.clk.fabricStopped = false ∧ s.elapsed s.prot.missTick 50000 = true then s.causeClear 0
    else s) :=
  congrArg Host.Outcome.next (if_congr (by simp [and_assoc]) rfl rfl)

end Die

/-! The engine with DIE_WARN (R234, R409). -/

/-- With DIE_WARN the engine is not wanted. -/
theorem State.engineWanted_dieStop {s : State} (stop : s.fce.dieStop = true) : s.engineWanted = false := by
  simp [State.engineWanted, stop]

/-- The reading noted, with DIE_WARN and the stop of the engine at a value. -/
def State.dieSet (s : State) (v : Int) (b : Bool) : State :=
  { s.dieRead v with prot := { (s.dieRead v).prot with dieWarn := b }, fce := { s.fce with dieStop := b } }

/-- To the recorder it is the state before it. -/
theorem State.dieSet_sameEv (s : State) (v : Int) (b : Bool) : s.SameEv (s.dieSet v b) := ⟨rfl, rfl, rfl, rfl, rfl⟩

theorem exec_dieWarn_stops {v : Int} {s : State} (cool : s.prot.dieWarn = false) (hot : 100 * (s.prot.dieWarnC : Int) ≤ v)
    (runs : s.fce.running = true) :
    Gives (.dieWarn v) s fun t =>
      t.prot.dieWarn = true ∧ t.fce.dieStop = true ∧ t.fce.running = false ∧
      t.evr = s.evs [(0xB030, noInst, 0), (0x6002, noInst, 0)] := by
  have next : exec (.dieWarn v) s = .next ((s.dieSet v true).ev 0xB030).engineSync :=
    (exec_dieWarn_eq v s).trans (congrArg Host.Outcome.next (if_neg (by simp [cool, hot])))
  have stops := State.engineSync_stops (s := (s.dieSet v true).ev 0xB030)
    (State.engineWanted_dieStop (by rw [State.ev_fce]; rfl)) (by rw [State.ev_fce]; exact runs)
  rw [stops] at next
  refine ⟨_, next, ?_, ?_, ?_, ?_⟩
  · rw [State.ev_prot, State.ev_prot]
    rfl
  · rw [State.ev_fce, State.ev_fce]
    rfl
  · rw [State.ev_fce]
  · rw [State.evs_cons]
    dsimp only
    exact (((s.dieSet_sameEv v true).ev 0xB030 noInst 0).withFce _).evs 0x6002 noInst 0

theorem exec_dieWarnCleared_starts {v : Int} {s : State} (warned : s.prot.dieWarn = true)
    (cool : v < 100 * (s.prot.dieWarnC : Int) - 500) (serves : s.inState [.armed, .run] = true)
    (enabled : s.fce.forecastEn = true) (stopped : s.fce.running = false) :
    Gives (.dieWarnCleared v) s fun t =>
      t.prot.dieWarn = false ∧ t.fce.dieStop = false ∧ t.fce.running = true ∧
      t.evr = s.evs [(0xB031, noInst, 0), (0x6001, noInst, 0)] := by
  have next : exec (.dieWarnCleared v) s = .next ((s.dieSet v false).ev 0xB031).engineSync :=
    (exec_dieWarnCleared_eq v s).trans (congrArg Host.Outcome.next (if_pos ⟨warned, cool⟩))
  have wanted : (s.dieSet v false).engineWanted = true := by
    have same : (s.dieSet v false).inState [.armed, .run] = s.inState [.armed, .run] := rfl
    rw [State.engineWanted, same, serves]
    simp [State.dieSet, enabled]
  have starts := State.engineSync_starts (s := (s.dieSet v false).ev 0xB031)
    (by rwa [State.engineWanted, State.inState, State.ev_sys, State.ev_fce]) (by rw [State.ev_fce]; exact stopped)
  rw [starts] at next
  refine ⟨_, next, ?_, ?_, ?_, ?_⟩
  · rw [State.ev_prot, State.ev_prot]
    rfl
  · rw [State.ev_fce, State.ev_fce]
    rfl
  · rw [State.ev_fce]
  · rw [State.evs_cons]
    dsimp only
    exact (((s.dieSet_sameEv v false).ev 0xB031 noInst 0).withFce _).evs 0x6001 noInst 0

/-! Causes of Basalt that clear (R417). -/

section Clear
variable {c : Fin 4} {s : State}

theorem State.causeClear_clear (clear : s.prot.causes[c.val] = false) : s.causeClear c = s :=
  if_pos (by simp [clear])

theorem State.causeClear_held (stands : s.prot.causes[c.val] = true) (held : s.sys.state ≠ .basalt) :
    s.causeClear c = { s with
      prot := { s.prot with causes := updV s.prot.causes c fun _ => false }, evr := s.evs [(0xB00A, noInst, 2 ^ c.val)] } := by
  have clears : s.causeClear c = (s.setCause c false).ev 0xB00A noInst (2 ^ c.val) :=
    (if_neg (by simp [stands])).trans (if_neg held)
  rw [clears]
  exact State.ev_of ((State.SameEv.refl s).withProt _) _ _ _

/-- No cause but OPERATOR stands where the lowest three bits are clear. -/
theorem State.causeBits_mod (s : State) : s.causeBits % 8 = 0 ↔
    s.prot.causes[0] = false ∧ s.prot.causes[1] = false ∧ s.prot.causes[2] = false := by
  have bits : s.causeBits = (if s.prot.causes[0] then 1 else 0) + ((if s.prot.causes[1] then 2 else 0) +
      ((if s.prot.causes[2] then 4 else 0) + ((if s.prot.causes[3] then 8 else 0) + 0))) := by
    simp [State.causeBits, List.finRange_succ]
  rw [bits]
  cases s.prot.causes[0] <;> cases s.prot.causes[1] <;> cases s.prot.causes[2] <;> cases s.prot.causes[3] <;> decide

theorem State.causeClear_basalt (stands : s.prot.causes[c.val] = true) (basalt : s.sys.state = .basalt) :
    s.causeClear c = (
      let l := updV s.prot.causes c fun _ => false
      if s.prot.exitOk = false ∧ l[0] = false ∧ l[1] = false ∧ l[2] = false then { s with
        prot := { s.prot with causes := l, exitOk := true, exitTick := s.sys.tick }, evr := s.evs [(0xB002, noInst, 0)] }
      else { s with prot := { s.prot with causes := l } }) := by
  have clears : s.causeClear c = (s.setCause c false).exitSync := (if_neg (by simp [stands])).trans (if_pos basalt)
  rw [clears, State.exitSync]
  refine if_congr ?_ ?_ rfl
  · rw [Bool.and_eq_true, Bool.and_eq_true, decide_eq_true_eq, decide_eq_true_eq, State.causeBits_mod]
    simp [State.setCause, basalt]
  · exact State.ev_of (((State.SameEv.refl s).withProt _)) _ _ _

end Clear

/-! A cause held outside RUN and BASALT (R412). -/

/-- Outside RUN and SHIP_PREP, with no reset waiting, what follows when the groups reach OFF leaves SYS, and of PROT all but
the coolant sequence. -/
theorem State.afterOff_still {s : State} (noReset : s.sec.resetReq = none) (notRun : s.sys.state ≠ .run)
    (notShip : s.sys.state ≠ .shipPrep) :
    s.afterOff.sys = s.sys ∧ ∃ n, s.afterOff.prot = { s.prot with coolNext := n } := by
  unfold State.afterOff
  split
  · exact ⟨rfl, s.prot.coolNext, rfl⟩
  · dsimp only
    rw [if_neg notRun]
    by_cases coolant : (s.prot.coolShutdown && decide (s.prot.coolNext = some 0)) = true
    · rw [if_pos coolant, if_neg (by rw [State.ev_sys]; exact notShip), State.ev_sec]
      simp only [noReset]
      exact ⟨State.ev_sys _ _ _ _, none, State.ev_prot _ _ _ _⟩
    · rw [if_neg coolant, if_neg notShip, noReset]
      exact ⟨rfl, s.prot.coolNext, rfl⟩

theorem State.tripFree_sys (s : State) (code detail data : Nat) : (s.tripFree code detail data).sys = s.sys :=
  (State.tripFree_kept s code detail data (List.Subset.refl _) .rfl).only .sys (by decide)
theorem State.tripFree_sec (s : State) (code detail data : Nat) : (s.tripFree code detail data).sec = s.sec :=
  (State.tripFree_kept s code detail data (List.Subset.refl _) .rfl).only .sec (by decide)
theorem State.groupsOff_sec (s : State) : s.groupsOff.sec = s.sec :=
  (State.groupsOff_kept s (List.Subset.refl _) .rfl).only .sec (by decide)
theorem State.groupsOff_prot (s : State) : s.groupsOff.prot = s.prot :=
  (State.groupsOff_kept s (List.Subset.refl _) .rfl).only .prot (by decide)

section Hold
variable {c : Fin 4} {s : State} (fed : s.power.inputLoss = false) (rests : s.sys.state = .standby)
  (clear : s.prot.causes[c.val] = false) (noReset : s.sec.resetReq = none)

include fed rests in
theorem State.basaltCause_standby : s.basaltCause c = s.holdCause c := by
  unfold State.basaltCause
  rw [if_neg (by simp [fed]), rests]

include rests clear noReset in
/-- A cause held in STANDBY is recorded as a trip and leaves SYS but for the driver enables. -/
theorem State.holdCause_standby : (s.holdCause c).sys = { s.sys with gdrvEn := Vector.replicate 4 false } ∧
    ∃ p n, ({ s.prot with causes := updV s.prot.causes c fun _ => true } : Prot).Tripped p ∧
      (s.holdCause c).prot = { p with coolNext := n } := by
  have held : s.holdCause c = if s.allOff then (s.setCause c true).groupsOff.tripFree 0xB009 (2 ^ c.val) (2 ^ c.val)
      else ((s.setCause c true).groupsOff.tripFree 0xB009 (2 ^ c.val) (2 ^ c.val)).afterOff :=
    if_neg (by simp [clear])
  have sys : ((s.setCause c true).groupsOff.tripFree 0xB009 (2 ^ c.val) (2 ^ c.val)).sys =
      { s.sys with gdrvEn := Vector.replicate 4 false } := by
    rw [State.tripFree_sys, State.groupsOff_sys]
    rfl
  have prot := (s.setCause c true).groupsOff.tripFree_prot 0xB009 (2 ^ c.val) (2 ^ c.val)
  rw [State.groupsOff_prot] at prot
  have sec : ((s.setCause c true).groupsOff.tripFree 0xB009 (2 ^ c.val) (2 ^ c.val)).sec = s.sec := by
    rw [State.tripFree_sec, State.groupsOff_sec]
    rfl
  rw [held]
  generalize (s.setCause c true).groupsOff.tripFree 0xB009 (2 ^ c.val) (2 ^ c.val) = u at sys prot sec
  have state : u.sys.state = .standby := by
    rw [sys]
    exact rests
  split
  · exact ⟨sys, u.prot, u.prot.coolNext, prot, rfl⟩
  · obtain ⟨after, n, coolant⟩ := State.afterOff_still (s := u) (by rw [sec, noReset]) (by rw [state]; decide)
      (by rw [state]; decide)
    exact ⟨after.trans sys, u.prot, n, prot, coolant⟩

end Hold

/-! The die at its limit in STANDBY (R404, R412). -/

/-- DIE_WARN that sets leaves PROT otherwise as it is. -/
theorem State.dieWarnSet_prot (s : State) : s.dieWarnSet.prot = { s.prot with dieWarn := true } := by
  unfold State.dieWarnSet
  split
  · next set =>
      rw [← set]
  · have sync (u : State) : u.engineSync.prot = u.prot :=
      (State.engineSync_kept u (List.Subset.refl _) .rfl).only .prot (by decide)
    dsimp only
    rw [sync, State.ev_prot]

theorem exec_dieTrip_standby {v : Int} {s : State} (hot : s.limit 9 ≤ v) (rests : s.sys.state = .standby)
    (clear : s.prot.causes[2] = false) (noReset : s.sec.resetReq = none) (fed : s.power.inputLoss = false) :
    Gives (.dieTrip v) s fun t =>
      t.prot.causes[2] = true ∧ t.prot.dieTrip = true ∧ t.prot.dieT = v ∧ t.prot.dieWarn = true ∧ t.sys.state = .standby ∧
      t.prot.tripCount = bump 32 (bump 32 s.prot.tripCount) ∧ ∀ g : Fin 4, t.sys.gdrvEn[g.val] = false := by
  refine ⟨_, exec_dieTrip_eq v s hot, ?_⟩
  obtain ⟨trips, head, first, tripped⟩ := (s.dieRead v).tripV_prot 0xB032 0xFF 0 v (s.limit 9) noInst
  have kept : Kept [.fce, .prot, .evr] s ((s.dieRead v).tripV 0xB032 0xFF 0 v (s.limit 9) noInst).dieWarnSet :=
    State.dieWarnSet_kept _ (by decide) (State.tripV_kept _ _ _ _ _ _ _ (by decide) (Kept.of_prot .rfl (by decide)))
  have prot := State.dieWarnSet_prot ((s.dieRead v).tripV 0xB032 0xFF 0 v (s.limit 9) noInst)
  rw [tripped] at prot
  generalize ((s.dieRead v).tripV 0xB032 0xFF 0 v (s.limit 9) noInst).dieWarnSet = u at kept prot
  have sys : u.sys = s.sys := kept.only .sys (by decide)
  have sec : u.sec = s.sec := kept.only .sec (by decide)
  have power : u.power = s.power := kept.only .power (by decide)
  rw [State.basaltCause_standby (by rw [power, fed]) (by rw [sys, rests])]
  obtain ⟨held, p, n, ⟨trips', head', first', again⟩, last⟩ := State.holdCause_standby (c := 2) (s := u)
    (by rw [sys, rests]) (by rw [prot]; exact clear) (by rw [sec, noReset])
  rw [prot] at again
  rw [last, again, held, sys]
  refine ⟨?_, ?_, rfl, rfl, rests, rfl, fun g => ?_⟩
  · simp
  · exact decide_eq_true hot
  · simp

/-- Settles O39: the isolation by its steps, the die by its reading and what follows from it, and the causes by how each
clears. -/
theorem stringsAndTheDie : Obligations.StringsAndTheDie :=
  ⟨fun _ _ reached joined => exec_stringIsolated_isolates reached joined, fun _ _ idle => exec_stringIsolated_idle idle,
    fun _ _ reached joined still => exec_stringIsolated_does reached joined still,
    fun _ _ _ _ ring cell free => exec_unmonLimited_limits ring cell free, fun _ _ idle => exec_unmonLimited_idle idle,
    fun v s => s.dieRead_eq v, exec_dieWarn_eq, fun _ _ cool hot runs => exec_dieWarn_stops cool hot runs,
    exec_dieWarnCleared_eq,
    fun _ _ warned cool serves enabled stopped => exec_dieWarnCleared_starts warned cool serves enabled stopped,
    exec_dieTrip_eq, exec_dieTrip_below,
    fun _ _ hot rests clear noReset fed => exec_dieTrip_standby hot rests clear noReset fed, exec_dieTripCleared_eq,
    exec_missedTicksCleared_eq, fun _ _ clear => State.causeClear_clear clear,
    fun _ _ stands held => State.causeClear_held stands held, fun _ _ stands basalt => State.causeClear_basalt stands basalt⟩

end Sys2Proof.Machine
end

section
/-! SUPPORT. The end of Basalt's hold during an input loss (R34, R406, R413). -/

namespace Sys2Proof.Machine

theorem exec_entryHoldRelease_ends {s : State} (held : s.prot.entryHold = true)
    (ended : s.elapsed s.prot.entryTick 5000 = true) :
    exec .entryHoldRelease s = .next ({ s with prot := { s.prot with entryHold := false } } : State).holdSync :=
  congrArg Host.Outcome.next (if_pos (by simp [held, ended]))

/-- With both feeds lost RACK_HOLD_N is released whatever asks for it. -/
theorem exec_entryHoldRelease_inputLoss {s : State} (held : s.prot.entryHold = true)
    (ended : s.elapsed s.prot.entryTick 5000 = true) (loss : s.power.inputLoss = true) :
    Gives .entryHoldRelease s fun t => t.sys.rackHoldDrive = false := by
  refine ⟨_, exec_entryHoldRelease_ends held ended, ?_⟩
  rw [State.holdSync_inputLoss (s := { s with prot := { s.prot with entryHold := false } }) loss]

/-- In BASALT, 10 ms after its entry, with an undervoltage trip standing and both feeds lost. -/
def basaltInputLoss : State :=
  { State.reset with
    power := { State.reset.power with inputLoss := true }
    sys := { State.reset.sys with state := .basalt, tick := 5000 }
    prot := { State.reset.prot with entryHold := true, busUv := true } }

/-- Refutes O40: at the end of Basalt's 10 ms an undervoltage trip does not keep RACK_HOLD_N low while both feeds are lost. -/
theorem not_entryIntoAndExitFromBasalt : ¬ Obligations.EntryIntoAndExitFromBasalt := by
  unfold Obligations.EntryIntoAndExitFromBasalt
  rintro ⟨-, -, -, -, -, -, release, -⟩
  have ended : basaltInputLoss.elapsed basaltInputLoss.prot.entryTick 5000 = true := by decide +kernel
  obtain ⟨t, next, released⟩ := exec_entryHoldRelease_inputLoss (s := basaltInputLoss) rfl ended rfl
  obtain ⟨u, next', -, -, driven⟩ := release basaltInputLoss rfl ended
  obtain rfl : t = u := by injection next.symm.trans next'
  exact absurd (released.symm.trans (driven rfl)) (by decide)

end Sys2Proof.Machine
end

section
/-! SUPPORT. The loss of coolant: the thermal ramp, and the groups that stop (R420 to R422, R429). -/

namespace Sys2Proof.Machine

/-! The loss and its end (R421). -/

/-- An event beside a change of PROT, which the recorder does not read. -/
theorem State.ev_withProt (s : State) (x : Prot) (c i d : Nat) :
    ({ s with prot := x } : State).ev c i d = { s with prot := x, evr := s.evs [(c, i, d)] } :=
  State.ev_of (s := s) (t := { s with prot := x }) ⟨rfl, rfl, rfl, rfl, rfl⟩ c i d

theorem exec_coolantFlowLow_loss {s : State} (first : s.prot.flowLow = false)
    (below : 5000 * s.prot.flowMs ≤ s.prot.flowBelow) :
    exec .coolantFlowLow s = .next (({ s with
      prot := { s.prot with flowLow := true }, evr := s.evs [(0xB040, noInst, 0)] }).rampStart) :=
  congrArg Host.Outcome.next ((if_neg (by simp [first, below])).trans
    (congrArg State.rampStart (s.ev_withProt _ 0xB040 noInst 0)))

theorem exec_coolantFlowLow_idle {s : State} (idle : s.prot.flowLow = true ∨ s.prot.flowBelow < 5000 * s.prot.flowMs) :
    exec .coolantFlowLow s = .next s :=
  congrArg Host.Outcome.next (if_pos (by rcases idle with h | h <;> simp [h]))

theorem exec_cduAlarm_eq {sess : Fin 64} {s : State} (allowed : s.allows sess .ox = true) :
    exec (.cduAlarm sess) s = .next (({ s with
      prot := { s.prot with cduAlarm := true }, evr := s.evs [(0xB041, noInst, 0)] }).rampStart) :=
  congrArg Host.Outcome.next ((State.regCmd_allowed allowed _).trans
    (congrArg State.rampStart (s.ev_withProt _ 0xB041 noInst 0)))

theorem State.rampStart_eq (s : State) : s.rampStart = if s.prot.thermalRamp = true then s else { s with prot := { s.prot with
      thermalRamp := true, rampDone := false, rampJ := 0, rampTick := s.sys.tick
      rampEnv0 := (List.finRange 64).map fun n => (s.port n).target } } :=
  rfl

theorem exec_coolantRestored_ends {s : State} (ramp : s.prot.thermalRamp = true) (quiet : s.prot.cduAlarm = false)
    (flows : s.param 0x0010 0 = 0 ∨ 30000000 ≤ s.prot.flowAbove) :
    exec .coolantRestored s = .next { s with
      prot := { s.prot with thermalRamp := false, rampDone := false, flowLow := false, rampJ := 0, rampEnv0 := [] }
      evr := s.evs [(0xB045, noInst, 0)] } :=
  congrArg Host.Outcome.next ((if_pos (by simp [ramp, quiet, flows])).trans (s.ev_withProt _ _ _ _))

theorem exec_coolantRestored_idle {s : State} (idle : s.prot.thermalRamp = false ∨ s.prot.cduAlarm = true ∨
      (s.param 0x0010 0 ≠ 0 ∧ s.prot.flowAbove < 30000000)) : exec .coolantRestored s = .next s := by
  refine congrArg Host.Outcome.next (if_neg ?_)
  rcases idle with h | h | ⟨measured, short⟩
  · simp [h]
  · simp [h]
  · simp [measured, short]

/-! The thermal ramp (R421). -/

/-- A step of the ramp lowers the envelope of one port, and sends its grant. -/
def State.lowerEnv (s : State) (n : Fin 64) : State :=
  (s.updPort n fun p => { p with target := s.rampEnv n }).sendGrant n

/-- The ports whose envelope falls at a step. -/
def State.rampPorts (s : State) : List (Fin 64) :=
  (s.portsWhere fun p => p.state.counted).filter fun n => s.rampEnv n < (s.port n).target

theorem State.sendGrant_target (s : State) (n j : Fin 64) : ((s.sendGrant n).port j).target = (s.port j).target := by
  rcases eq_or_ne j n with rfl | other
  · cases grants : (s.port j).grants with
    | false => rw [State.sendGrant_idle grants]
    | true =>
      rw [State.sendGrant_same grants]
      rfl
  · rw [State.sendGrant_other other]

/-- The ramp raises no envelope. -/
theorem State.lowerEnv_target (s : State) (n j : Fin 64) : ((s.lowerEnv n).port j).target ≤ (s.port j).target := by
  rw [State.lowerEnv, State.sendGrant_target]
  rcases eq_or_ne j n with rfl | other
  · rw [State.updPort_same]
    exact Nat.min_le_left _ _
  · rw [State.updPort_other other]

theorem State.lowerEnv_other {n j : Fin 64} (other : j ≠ n) (s : State) : (s.lowerEnv n).port j = s.port j := by
  rw [State.lowerEnv, State.sendGrant_other other, State.updPort_other other]

theorem State.lowerEnv_prot (s : State) (n : Fin 64) : (s.lowerEnv n).prot = s.prot := by
  cases grants : ((s.updPort n fun p => { p with target := s.rampEnv n }).port n).grants with
  | false =>
    rw [State.lowerEnv, State.sendGrant_idle grants]
    rfl
  | true =>
    rw [State.lowerEnv, State.sendGrant_sends grants]
    rfl

/-- The ports of a list lower their envelopes one after the other. -/
def State.lowerEnvs (s : State) (l : List (Fin 64)) : State := l.foldl State.lowerEnv s

theorem State.lowerEnvs_target (s : State) (l : List (Fin 64)) (j : Fin 64) :
    ((s.lowerEnvs l).port j).target ≤ (s.port j).target :=
  List.foldlRecOn (motive := fun t : State => (t.port j).target ≤ (s.port j).target) l State.lowerEnv le_rfl
    fun t held n _ => (t.lowerEnv_target n j).trans held

theorem State.lowerEnvs_other {l : List (Fin 64)} {j : Fin 64} (apart : j ∉ l) (s : State) :
    (s.lowerEnvs l).port j = s.port j :=
  List.foldlRecOn (motive := fun t : State => t.port j = s.port j) l State.lowerEnv rfl
    fun t held n mem => (State.lowerEnv_other (fun same : j = n => apart (same ▸ mem)) t).trans held

theorem State.lowerEnvs_prot (s : State) (l : List (Fin 64)) : (s.lowerEnvs l).prot = s.prot :=
  foldl_same State.prot State.lowerEnv_prot l s

section Ramp
variable {s : State} (ramp : s.prot.thermalRamp = true) (runs : s.prot.rampDone = false)
  (due : s.elapsed s.prot.rampTick 500 = true)
include ramp runs due

theorem exec_thermalRampStep_eq : exec .thermalRampStep s = .next (
    let u := { s with prot := { s.prot with rampJ := s.prot.rampJ + 1, rampTick := s.sys.tick } }
    let v := u.lowerEnvs u.rampPorts
    if 100 * s.prot.rampMs ≤ s.prot.rampJ + 1 then { v with
      prot := { v.prot with rampDone := true }, evr := v.evs [(0xB042, noInst, 0)] } else v) := by
  obtain ⟨u, hu⟩ : ∃ u : State, u = { s with prot := { s.prot with rampJ := s.prot.rampJ + 1, rampTick := s.sys.tick } } :=
    ⟨_, rfl⟩
  have step : s.rampStep = if 100 * (u.lowerEnvs u.rampPorts).prot.rampMs ≤ (u.lowerEnvs u.rampPorts).prot.rampJ then
      { (u.lowerEnvs u.rampPorts) with prot := { (u.lowerEnvs u.rampPorts).prot with rampDone := true } }.ev 0xB042
      else u.lowerEnvs u.rampPorts := by
    rw [hu]
    exact if_neg (by simp [ramp, runs, due])
  have next : exec .thermalRampStep s = .next s.rampStep := rfl
  rw [next, step, State.ev_withProt, State.lowerEnvs_prot]
  dsimp only
  rw [← hu, State.lowerEnvs_prot]
  rw [hu]

theorem exec_thermalRampStep_does : Gives .thermalRampStep s fun t =>
    t.prot.rampJ = s.prot.rampJ + 1 ∧ (∀ n, (t.port n).target ≤ (s.port n).target) ∧
    (∀ n, (s.port n).state.counted = false → t.port n = s.port n) ∧
    t.prot.rampDone = decide (100 * s.prot.rampMs ≤ s.prot.rampJ + 1) := by
  refine ⟨_, exec_thermalRampStep_eq ramp runs due, ?_⟩
  dsimp only
  obtain ⟨u, hu⟩ : ∃ u : State, u = { s with prot := { s.prot with rampJ := s.prot.rampJ + 1, rampTick := s.sys.tick } } :=
    ⟨_, rfl⟩
  have port (n : Fin 64) : u.port n = s.port n := by rw [hu]; rfl
  have falls (n : Fin 64) := u.lowerEnvs_target u.rampPorts n
  have spares (n : Fin 64) (idle : (s.port n).state.counted = false) : (u.lowerEnvs u.rampPorts).port n = s.port n := by
    refine (State.lowerEnvs_other (fun mem => ?_) u).trans (port n)
    have counted := State.mem_portsWhere.1 (List.mem_of_mem_filter mem)
    rw [port, idle] at counted
    exact Bool.false_ne_true counted
  have prot := u.lowerEnvs_prot u.rampPorts
  rw [← hu]
  generalize u.lowerEnvs u.rampPorts = v at falls spares prot
  have j : u.prot.rampJ = s.prot.rampJ + 1 := by rw [hu]
  have done : u.prot.rampDone = false := by rw [hu]; exact runs
  split
  · next ends => exact ⟨by rw [prot, j], fun n => (falls n).trans (by rw [port]), spares, (decide_eq_true ends).symm⟩
  · next goes =>
      exact ⟨by rw [prot, j], fun n => (falls n).trans (by rw [port]), spares,
        by rw [prot, done, decide_eq_false goes]⟩

end Ramp

theorem exec_thermalRampStep_idle {s : State} (idle : s.prot.thermalRamp = false ∨ s.prot.rampDone = true ∨
      s.elapsed s.prot.rampTick 500 = false) : exec .thermalRampStep s = .next s :=
  congrArg Host.Outcome.next (if_pos (by rcases idle with h | h | h <;> simp [h]))

/-! The groups that stop (R422). -/

/-- The coolant sequence may stop a group below `k`. -/
def State.coolable (s : State) (k : Nat) (g : Fin 4) : Bool :=
  g.val < k && (s.grp g).state.switching && (s.grp g).state != .stopping

theorem State.coolable_false {s : State} {k : Nat} {g : Fin 4} (below : g.val < k) (stays : s.coolable k g = false) :
    (s.grp g).state.switching = false ∨ (s.grp g).state = .stopping := by
  by_contra may
  rw [not_or, Bool.not_eq_false] at may
  exact absurd stays (by simp [State.coolable, below, may])

/-- The group chosen is the highest that the sequence may stop. -/
theorem State.coolGroup_some {s : State} {k : Nat} {g : Fin 4} (next : s.coolGroup k = some g) :
    s.coolable k g = true ∧ ∀ j : Fin 4, g < j → s.coolable k j = false := by
  have next : ((List.finRange 4).filter (s.coolable k)).getLast? = some g := next
  obtain ⟨l, parts⟩ := List.getLast?_eq_some_iff.1 next
  have mem : g ∈ (List.finRange 4).filter (s.coolable k) := by rw [parts]; simp
  have sorted := (List.pairwise_lt_finRange 4).filter (s.coolable k)
  rw [parts, List.pairwise_append] at sorted
  obtain ⟨-, -, below⟩ := sorted
  refine ⟨(List.mem_filter.1 mem).2, fun j above => ?_⟩
  by_contra may
  have listed : j ∈ l ++ [g] := by
    rw [← parts]
    exact List.mem_filter.2 ⟨List.mem_finRange j, by simpa using may⟩
  rcases List.mem_append.1 listed with early | last
  · exact absurd (below j early g (List.mem_singleton_self g)) above.asymm
  · exact absurd (List.mem_singleton.1 last) above.ne'

theorem State.coolGroup_none {s : State} {k : Nat} (next : s.coolGroup k = none) (j : Fin 4) : s.coolable k j = false := by
  have next : ((List.finRange 4).filter (s.coolable k)).getLast? = none := next
  have empty := List.filter_eq_nil_iff.1 (List.getLast?_eq_none_iff.1 next) j (List.mem_finRange j)
  simpa using empty

theorem State.coolGroup_iff (k : Nat) (s : State) :
    (∀ g, s.coolGroup k = some g → g.val < k ∧ (s.grp g).state.switching = true ∧ (s.grp g).state ≠ .stopping ∧
      ∀ j : Fin 4, j.val < k → g.val < j.val → (s.grp j).state.switching = false ∨ (s.grp j).state = .stopping) ∧
    (s.coolGroup k = none → ∀ j : Fin 4, j.val < k → (s.grp j).state.switching = false ∨ (s.grp j).state = .stopping) := by
  refine ⟨fun g next => ?_, fun next j below => State.coolable_false below (State.coolGroup_none next j)⟩
  obtain ⟨own, above⟩ := State.coolGroup_some next
  obtain ⟨below, switches, stops⟩ : g.val < k ∧ (s.grp g).state.switching = true ∧ (s.grp g).state ≠ .stopping := by
    simpa [State.coolable, and_assoc] using own
  exact ⟨below, switches, stops, fun j within higher => State.coolable_false within (above j higher)⟩

section Stop
variable {k : Nat} {s : State} (next : s.prot.coolNext = some (k + 1))
  (due : k = 3 ∨ s.elapsed s.prot.coolTick (5000 * s.prot.staggerMs) = true)
include next due

theorem exec_coolantGroupStop_eq : exec .coolantGroupStop s = .next (
    let u := { s with prot := { s.prot with coolShutdown := true, coolTick := s.sys.tick } }
    match s.coolGroup (k + 1) with
    | none => ({ u with prot := { u.prot with coolNext := some 0 } }).afterOff
    | some g =>
      let v := u.stopGroup g
      ({ v with prot := { v.prot with coolNext := some (if (v.coolGroup g.val).isSome then g.val else 0) } }).afterOff) := by
  refine congrArg Host.Outcome.next ?_
  unfold State.coolStop
  rw [next]
  refine if_neg ?_
  rcases due with h | h <;> simp [h]

/-- A group that is RUNNING then stops, and as it still switches nothing follows yet. -/
theorem exec_coolantGroupStop_running {g : Fin 4} (chosen : s.coolGroup (k + 1) = some g)
    (running : (s.grp g).state = .running) : Gives .coolantGroupStop s fun t =>
      t.prot.coolShutdown = true ∧ (t.grp g).state = .stopping ∧ ∀ j, j ≠ g → t.grp j = s.grp j := by
  have stop := exec_coolantGroupStop_eq next due
  rw [chosen] at stop
  refine ⟨_, stop, ?_⟩
  dsimp only
  obtain ⟨u, hu⟩ : ∃ u : State, u = { s with prot := { s.prot with coolShutdown := true, coolTick := s.sys.tick } } :=
    ⟨_, rfl⟩
  have grp (j : Fin 4) : u.grp j = s.grp j := by rw [hu]; rfl
  have prot : (u.stopGroup g).prot = u.prot :=
    (State.stopGroup_kept u g (List.Subset.refl _) .rfl).only .prot (by decide)
  have stopping : ((u.stopGroup g).grp g).state = .stopping := State.stopGroup_running (by rw [grp, running])
  have others (j : Fin 4) (other : j ≠ g) : (u.stopGroup g).grp j = s.grp j :=
    (State.stopGroup_other other u).trans (grp j)
  have shutdown : u.prot.coolShutdown = true := by rw [hu]
  rw [← hu]
  generalize u.stopGroup g = v at prot stopping others
  generalize (if (v.coolGroup g.val).isSome then g.val else 0) = n
  have switches : ({ v with prot := { v.prot with coolNext := some n } } : State).allOff = false := by
    rw [State.allOff, List.all_eq_false]
    exact ⟨g, List.mem_finRange g, by
      have stays : (({ v with prot := { v.prot with coolNext := some n } } : State).grp g).state = .stopping := stopping
      simp [stays]⟩
  have waits : ({ v with prot := { v.prot with coolNext := some n } } : State).afterOff =
      { v with prot := { v.prot with coolNext := some n } } := if_pos (by rw [switches]; rfl)
  rw [waits]
  exact ⟨by rw [prot, shutdown], stopping, others⟩

end Stop

theorem exec_coolantGroupStop_idle {s : State} (idle : s.prot.coolNext = none ∨ s.prot.coolNext = some 0 ∨
      (s.prot.coolNext ≠ some 4 ∧ s.elapsed s.prot.coolTick (5000 * s.prot.staggerMs) = false)) :
    exec .coolantGroupStop s = .next s := by
  refine congrArg Host.Outcome.next ?_
  unfold State.coolStop
  rcases idle with h | h | ⟨started, early⟩
  · rw [h]
  · rw [h]
    rfl
  · split
    · rfl
    · rfl
    · next k _ next =>
        have later : k ≠ 4 := fun first => started (by rw [next, first])
        exact if_pos (by simp [later, early])

theorem exec_coolantCritRecovery_ends {s : State} (cool : 30000000 ≤ s.prot.coolBelow) :
    exec .coolantCritRecovery s = .next { s with prot := { s.prot with
      coolCrit := false, coolShutdown := false, coolNext := none } } :=
  congrArg Host.Outcome.next (if_neg (Nat.not_lt.2 cool))

/-- Settles O41: the loss and the recovery by their equations, the ramp by what a step makes of each port, and the groups by
the one the sequence chooses. -/
theorem coolantLossAndRecovery : Obligations.CoolantLossAndRecovery :=
  ⟨fun _ first below => exec_coolantFlowLow_loss first below, fun _ idle => exec_coolantFlowLow_idle idle,
    fun _ _ allowed => exec_cduAlarm_eq allowed, State.rampStart_eq,
    fun _ _ allowed => congrArg Host.Outcome.next (State.regCmd_allowed allowed _),
    fun _ ramp runs due => exec_thermalRampStep_eq ramp runs due,
    fun _ ramp runs due => exec_thermalRampStep_does ramp runs due, fun _ idle => exec_thermalRampStep_idle idle,
    fun _ ramp quiet flows => exec_coolantRestored_ends ramp quiet flows, fun _ idle => exec_coolantRestored_idle idle,
    fun _ _ next due => exec_coolantGroupStop_eq next due, State.coolGroup_iff,
    fun _ _ _ next chosen due running _ => exec_coolantGroupStop_running next due chosen running,
    fun _ idle => exec_coolantGroupStop_idle idle, fun _ cool => exec_coolantCritRecovery_ends cool,
    fun _ warm => congrArg Host.Outcome.next (if_pos warm)⟩

end Sys2Proof.Machine
end
